-- ==== Sys2Proof/Word.lean ====
section
/-!
DEFINITION. The word types of the model: bytes as memory, packets and journal records hold them, and the natural
numbers that register fields, counts and addresses are read as.
-/
namespace Sys2Proof

/-- One byte of a packet, a record or host memory. -/
abbrev Byte := BitVec 8

/-- A list of bytes, lowest address first (multi-byte fields are little-endian, R2 and "Numbers and units"). -/
abbrev Bytes := List Byte

end Sys2Proof
end

