-- ==== Sys2Proof/Syntax.lean ====
section
/-!
DEFINITION. The commands of the block: one constructor of `Instr` for each row of the spec's table of operations and
events, with the operands that what happens depends on.  The table gives its rows no bits and no operands; the operands
are the packet, the register access, the pin event or the link, function, tenant or channel that the rule of the row
names (log entry 1).
-/
namespace Sys2Proof

/-! ### Identifiers (Table SC-4) -/

/-- A function: the PF (`vf = 0`) or VF `vf` of host link `hl` (R70). -/
structure Fn where
  hl : Fin 32
  vf : Fin 512
  deriving DecidableEq, Repr

/-- A host link number. -/
abbrev Hl := Fin 32
/-- A Weaseif link number. -/
abbrev Wl := Fin 96
/-- A tiller number. -/
abbrev Tiller := Fin 8
/-- A global DMA channel number. -/
abbrev Chan := Fin 1024
/-- A tenant number. -/
abbrev Tnid := Fin 256
/-- A switchable power domain, numbered as in Table PW-1. -/
abbrev Dom := Fin 26

/-! ### Register accesses (R2, R4, R6, R7) -/

/-- A register access: the function that makes it, the BAR, the offset in it, the size in bytes and the value. -/
structure RegAccess where
  fn : Fn
  bar : Fin 8
  off : Nat
  size : Nat
  value : Nat
  deriving DecidableEq, Repr

/-- The blocks with a LOCK bit. -/
inductive LockBlk where
  | cadence
  | hostlink (hl : Hl)
  | wlane (wl : Wl)
  | weaseif (wl : Wl)
  deriving DecidableEq, Repr

/-! ### Keeper commands (Tables KP-1 and KP-5) -/

/-- Who issued a command: a function's ring, or the sideband management port. -/
inductive Issuer where
  | fn (f : Fn)
  | smp
  deriving DecidableEq, Repr

/-- The command header of Table KP-1 without its OPCODE, which the command's row fixes.  `resv` says that some
reserved bit or byte of the header or of the parameters is not 0. -/
structure CmdReq where
  iss : Issuer
  tag : Nat
  plen : Nat
  ackReq : Bool
  atEpoch : Bool
  resv : Bool
  hver : Nat
  target : Nat
  notBefore : Nat
  deriving DecidableEq, Repr

/-- TENANT_CREATE and TENANT_MODIFY parameters (Table TN-3). `permit` is the 96-bit bitmap, `chTiller` the eight
CH_TILLER bytes. -/
structure TenantParams where
  vf : Nat
  hl : Nat
  eligible : Bool
  weight : Nat
  vectors : Nat
  allowance : Nat
  cbUnits : Nat
  outAllot : Nat
  inAllot : Nat
  intAllot : Nat
  rate : Nat
  depth : Nat
  permit : Nat
  chTiller : List Nat
  change : Nat
  deriving DecidableEq, Repr

/-- LOG_CONFIG parameters (Table MG-2). -/
structure LogParams where
  base : Nat
  pages : Nat
  logHl : Nat
  bitmapA : Nat
  bitmapB : Nat
  deriving DecidableEq, Repr

/-- The outbound window entry image of Table WN-4. -/
structure OutWin where
  link : Nat
  cls : Nat
  sheaf : Nat
  rd : Nat
  wr : Nat
  at_ : Nat
  roOk : Nat
  idoOk : Nat
  tnid : Nat
  pfHl : Nat
  toPf : Nat
  localBase : Nat
  size : Nat
  hostBase : Nat
  deadline : Nat
  open_ : Nat
  deriving DecidableEq, Repr

/-- The inbound window entry image of Table WN-5. -/
structure InWin where
  link : Nat
  func : Nat
  rd : Nat
  wr : Nat
  lane : Nat
  hl : Nat
  barOffset : Nat
  size : Nat
  localBase : Nat
  deriving DecidableEq, Repr

/-- The interrupt window entry image of Table WN-6. -/
structure IntWin where
  link : Nat
  toPf : Nat
  tnid : Nat
  pfHl : Nat
  msgBase : Nat
  count : Nat
  vecBase : Nat
  deriving DecidableEq, Repr

/-- A destination of a sheaf image (Table WN-7). -/
structure SheafDest where
  tnid : Nat
  toPf : Nat
  pfHl : Nat
  lagBudget : Nat
  hostBase : Nat
  gapEn : Nat
  gapSize : Nat
  gapBase : Nat
  deriving DecidableEq, Repr

/-- The sheaf image of Table WN-7: the fields a SHEAF_SET applies. -/
structure SheafImg where
  mode : Nat
  destCount : Nat
  window : Nat
  dests : List SheafDest
  deriving DecidableEq, Repr

/-- WLINK_CONFIG parameters (Table KP-7). -/
structure WlinkParams where
  link : Nat
  persist : Nat
  select : Nat
  targetRate : Nat
  minWidth : Nat
  laneEn : Nat
  disable : Nat
  peer : Nat
  replayLimit : Nat
  replayTo : Nat
  grace : Nat
  errLimit : Nat
  errWindow : Nat
  lrspTo : Nat
  reshapeTo : Nat
  deriving DecidableEq, Repr

/-- FAULT_CONFIG parameters (Table WD-6). -/
structure FaultCfg where
  select : Nat
  group : Nat
  line : Nat
  cls : Nat
  minw : Nat
  deriving DecidableEq, Repr

/-- FAULT_INJECT parameters (Table WD-7). -/
structure FaultInj where
  op : Nat
  group : Nat
  line : Nat
  modes : Nat
  master : Nat
  addr : Nat
  deriving DecidableEq, Repr

/-- TRACE_FILTER parameters (Table OB-3): CLASS_EN, FLAGS and the three bitmaps. -/
structure FilterParams where
  classEn : Nat
  flags : Nat
  tenants : Nat
  wlinks : Nat
  hlinks : Nat
  deriving DecidableEq, Repr

/-- TRACE_STREAM parameters (Table OB-4). -/
structure StreamParams where
  enable : Nat
  hl : Nat
  sizeLog2 : Nat
  batchTicks : Nat
  base : Nat
  prodAddr : Nat
  deriving DecidableEq, Repr

/-! ### Weaseif packets (Tables WT-1 to WT-3) -/

/-- A packet: its header fields and its payload.  `addr` is ADDR of MWR, MRD and ATOM; `byteCount` and `lowerAddr` those
of CPL and CPLD; `num` and `value` those of MSG. -/
structure Pkt where
  typ : Nat
  lane : Nat
  ackReq : Bool
  ro : Bool
  sub : Nat
  len : Nat
  tag : Nat
  status : Nat
  cause : Nat
  addr : Nat
  byteCount : Nat
  lowerAddr : Nat
  num : Nat
  value : Nat
  payload : Bytes
  deriving DecidableEq, Repr

/-! ### Host requests and completions -/

/-- A host memory request that arrives at BAR2 of a function (R105): a write with its data, a read of `len` bytes, or an
AtomicOp.  `hostTag` names the host's own request for the answer. -/
structure HostMem where
  fn : Fn
  write : Bool
  atomic : Bool
  offset : Nat
  len : Nat
  data : Bytes
  hostTag : Nat
  deriving DecidableEq, Repr

/-- A completion from a host (R141, R142): the function and tag it names, its status (0 SC, 1 UR, 4 CA), whether it is
poisoned, and its Length, Byte Count, Lower Address and data. -/
structure HostCpl where
  fn : Fn
  tag : Nat
  status : Nat
  poisoned : Bool
  length : Nat
  byteCount : Nat
  lowerAddr : Nat
  data : Bytes
  deriving DecidableEq, Repr

/-! ### Error lines (Tables WD-2 and WD-3) -/

/-- FC_MASTER: KIND, ID and AUX (Table WD-3). -/
structure Master where
  kind : Nat
  id : Nat
  aux : Nat
  deriving DecidableEq, Repr

/-- An event of an error line: its group and line type, its master, the failing access and its address (R373, R374). -/
structure Ev where
  group : Fin 16
  line : Fin 32
  master : Master
  access : Nat
  detail : Nat
  addr : Nat
  deriving DecidableEq, Repr

/-! ### Straps and boot findings (R423, R428) -/

/-- The strap pins as captured (R428). -/
structure Straps where
  devid : Fin 4
  mgrSel : Fin 32
  recoveryLow : Bool
  deriving DecidableEq, Repr

/-- What there is as POR ends: the straps, and the voltages of VIN and VIO in mV (R428, R488, R489). -/
structure PowerUp where
  straps : Straps
  vinMv : Nat
  vioMv : Nat
  deriving DecidableEq, Repr

/-- What the ROM finds at boot that is not already in the state: the integrity of the fuse array and strap capture
(STORE line 28), whether the journal and the configuration store can be read, whether the last journal record is torn,
and which Keeper banks fail their test. -/
structure RomFindings where
  fusesOk : Bool
  journalReadable : Bool
  tornTail : Bool
  storeReadable : Bool
  badKeeperBank : Bool
  deriving DecidableEq, Repr

/-! ### Configuration requests -/

/-- A configuration write to a field that has no row of its own. -/
inductive CfgField where
  | memSpaceEnable | msixEnable | functionMask | pmeEnable | pmeStatusClear | pmStatePf
  | corrEnable | nonFatalEnable | fatalEnable | unsuppEnable
  | relaxedOrder | idoReq | atomicReq | extTag | tag10 | tag14 | maxPayload | maxReadReq | ctoValue
  | aspmL1 | ltrEnable | ltrMaxSnoop | ltrMaxNoSnoop | l1ssEnable | ptmEnable
  | corMask | uncMask | uncSeverity | uncStatusClear | corStatusClear
  | romEnable | sysPageSize | busMaster | vfEnable | numVfs | bar2Size | initiateFlr
  | rcb | romBar
  | bar (k : Fin 6)        -- BAR k of a PF
  | vfBar (k : Fin 6)      -- VF BAR k of its SR-IOV structure
  deriving DecidableEq, Repr

/-- A configuration request: a read of a dword, or a write of one field. -/
inductive CfgOp where
  | read (off : Nat)
  | write (f : CfgField) (v : Nat)
  deriving DecidableEq, Repr

/-! ### Weaseif lanes and grains (chapters 7 and 8) -/

/-- An edge of CADENCE_IN (R30): the level that the pin goes to, and the fine units into the tick that runs (R26). -/
structure InputEdge where
  high : Bool
  sub : Fin 4194304
  deriving DecidableEq, Repr

/-- A request to enter L1 (R54): the substate asked for, 0 for L1 itself, and whether the host asks. -/
structure L1Ask where
  substate : Fin 3
  host : Bool
  deriving DecidableEq, Repr

/-- What background training of a lane finds (R174): the errors in 2^23 bits, and the skew in UI. -/
structure BackgroundRun where
  lane : Fin 4
  errors : Nat
  skew : Nat
  deriving DecidableEq, Repr

/-- What the TS2 exchange shows (Table WP-5, R170): the partner's role, peer flag, DEVID, RATES and MIN_WIDTH, the
logical lanes it receives with word lock, and for the bridge's own receiver the word lock, lane map and inversion. -/
structure Ts2 where
  lockSide : Bool
  peer : Bool
  devid : Fin 4
  rates : Fin 16
  minWidth : Fin 4
  partnerLanes : Fin 16
  ownLanes : Fin 16
  laneMap : Fin 256
  rxInv : Fin 16
  deriving DecidableEq, Repr

/-- A grain (Table WL-1). `payload` is 64 bytes; `rsv` holds the reserved bits: that of byte 65, bits [39:36] of bytes 69 to 73,
and bytes 74 to 75, from its bit 0 up. -/
structure Grain where
  typ : Nat
  sop : Nat
  eop : Nat
  ackV : Bool
  inj : Bool
  crV : Bool
  health : Nat
  seq : Nat
  ack : Nat
  crP : Nat
  crN : Nat
  crC : Nat
  payload : Bytes
  crc : Nat
  rsv : Nat
  deriving DecidableEq, Repr

/-- An INIT body (Table WL-3). -/
structure InitBody where
  version : Nat
  resume : Bool
  initSeen : Bool
  peer : Bool
  linkId : Nat
  peerLinkId : Nat
  nextRx : Nat
  crP : Nat
  crN : Nat
  crC : Nat
  deriving DecidableEq, Repr

/-- The JTAG instructions that drive pads (Table OB-7). -/
inductive PadInstr where
  | extest | clamp | highz | extestPulse | extestTrain
  deriving DecidableEq, Repr

/-- The SMP operation that an early rise of SMP_CS_N cuts short (R359). -/
inductive SmpOp where
  | write | read | status
  deriving DecidableEq, Repr

/-- The commands: one constructor for each row of the table of operations and events. -/
inductive Instr where
  /-- REGISTER_WRITE (R4): A write to a register field that has no row of its own acts as its access code defines. -/
  | registerWrite (a : RegAccess)
  /-- LOCK_SET (R6): Writing 1 to a block's LOCK bit applies the RWL fields carried in the same write, then freezes them until the block's reset. -/
  | lockSet (fn : Fn) (blk : LockBlk) (value : BitVec 32)
  /-- LOW_WORD_READ (R7): A 32-bit low-word read of a 64-bit register loads the function's latch with that register's high word. -/
  | lowWordRead (fn : Fn) (bar : Fin 8) (off : Nat)
  /-- DARK_ACCESS (R421): An access to a block whose domain is not ON reads all 1s or is discarded, sets DARK and raises a CORR fault. -/
  | darkAccess (a : RegAccess) (write : Bool)
  /-- CMD_PI_WRITE (R329): Host software writes CMD_PI, ringing the command ring doorbell. -/
  | cmdPiWrite (fn : Fn) (v : BitVec 16)
  /-- RING_EN_WRITE (R328): A change of RING_CTRL.EN from 0 to 1 zeroes the four ring indices and restarts a stopped ring. -/
  | ringEnWrite (fn : Fn) (en : Bool)
  /-- RPL_CI_WRITE (R328): Host software advances RPL_CI, freeing reply slots; values more than 64 behind RPL_PI are ignored. -/
  | rplCiWrite (fn : Fn) (v : BitVec 16)
  /-- COMMAND_FETCH (R330): Once reply slots and a Keeper command context are free, the Keeper fetches the next command of a ring in round-robin order. -/
  | commandFetch
  /-- SCHEDULED_COMMAND_EXEC (R337): At the epoch boundary named by an accepted AT_EPOCH command, the command is executed, with its target state checked again. -/
  | scheduledCommandExec
  /-- NOP (R343): Command that does nothing and replies OK. -/
  | nop (r : CmdReq)
  /-- DEVICE_INFO (R344): Command returning the 64-byte device information reply. -/
  | deviceInfo (r : CmdReq)
  /-- DIRECTORY_READ (R345): Command returning a piece of the issuer's directory snapshot, taking a new snapshot at OFFSET 0. -/
  | directoryRead (r : CmdReq) (offset : Nat)
  /-- CMD_CANCEL (R346): Command that ends a scheduled command of the same ring with the given TAG, replying CANCELLED to it. -/
  | cmdCancel (r : CmdReq) (tag : Nat)
  /-- MGR_HANDOVER (R347): Command that moves manager authority to a PF or SMP and optionally stores SMP_TAKE. -/
  | mgrHandover (r : CmdReq) (new policy : Nat)
  /-- EXPROM_STORE (R348): Command that stores a piece of the UEFI expansion ROM image, replacing image 1 when complete. -/
  | expromStore (r : CmdReq) (offset total : Nat) (data : Bytes)
  /-- EXPROM_PIECES_EXPIRE (R348): Pieces of an incomplete expansion ROM image are discarded after 64 epochs without a further piece. -/
  | expromPiecesExpire
  /-- SUBSYS_SET (R349): Command that writes the Subsystem Vendor ID and Subsystem ID to the configuration store. -/
  | subsysSet (r : CmdReq) (vendor id : Nat)
  /-- TENANT_CREATE (R277): Command that creates a tenant, allots its resources and binds it to an (HL, VF). -/
  | tenantCreate (r : CmdReq) (p : TenantParams)
  /-- TENANT_MODIFY (R279): Command that changes the selected tenant fields atomically. -/
  | tenantModify (r : CmdReq) (p : TenantParams)
  /-- TENANT_RESET (R287): Command that resets a tenant, bumping its generation and halting its channels. -/
  | tenantReset (r : CmdReq)
  /-- TENANT_DESTROY (R288): Command that ends a tenant, clears its windows and leaves its resources PENDING. -/
  | tenantDestroy (r : CmdReq)
  /-- TENANT_QUERY (R275): Command returning the tenant's TENANT block. -/
  | tenantQuery (r : CmdReq)
  /-- VF_ALLOT (R350): Command that sets TotalVFs, InitialVFs and VF BAR2 size of a link. -/
  | vfAllot (r : CmdReq) (hl bar2Log2 totalVfs initialVfs : Nat)
  /-- RUNAHEAD_SET (R351): Command that sets one run-ahead region of a tenant. -/
  | runaheadSet (r : CmdReq) (region base size : Nat)
  /-- OUTWIN_SET (R352): Command that creates, changes or clears an outbound window entry. -/
  | outwinSet (r : CmdReq) (index : Nat) (w : OutWin)
  /-- INWIN_SET (R352): Command that creates, changes or clears an inbound window entry. -/
  | inwinSet (r : CmdReq) (index : Nat) (w : InWin)
  /-- INTWIN_SET (R352): Command that creates, changes or clears an interrupt window entry. -/
  | intwinSet (r : CmdReq) (index : Nat) (w : IntWin)
  /-- SHEAF_SET (R353): Command that sets or clears a sheaf entry and its destinations. -/
  | sheafSet (r : CmdReq) (index : Nat) (img : SheafImg)
  /-- HPORT_CONFIG (R354): Command that stores a port's bifurcation, clock mode and target speed for its next tiller reset. -/
  | hportConfig (r : CmdReq) (port bifur clkmode speed : Nat)
  /-- WLINK_CONFIG (R355): Command that applies and optionally stores selected Weaseif link settings. -/
  | wlinkConfig (r : CmdReq) (p : WlinkParams)
  /-- WLINK_RESET (R356): Command that resets a Weaseif link and replies after the flush. -/
  | wlinkReset (r : CmdReq) (link : Nat)
  /-- WLINK_RESHAPE (R356): Command that requests a lane reshape of a Weaseif link. -/
  | wlinkReshape (r : CmdReq) (link set : Nat)
  /-- WLINK_INFO (R357): Command returning a Weaseif link's state and partner IDENT. -/
  | wlinkInfo (r : CmdReq) (link : Nat)
  /-- LOG_CONFIG (R296): Command that turns dirty logging of a tenant on, or writes back its lines and turns it off. -/
  | logConfig (r : CmdReq) (p : LogParams)
  /-- LOG_HARVEST (R301): Command that schedules the end of the current logging round at an epoch boundary. -/
  | logHarvest (r : CmdReq)
  /-- TENANT_FREEZE (R305): Command that schedules a tenant's freeze at an epoch boundary. -/
  | tenantFreeze (r : CmdReq)
  /-- TENANT_THAW (R308): Command that cancels a scheduled freeze or returns a frozen tenant to ACTIVE, releasing held traffic. -/
  | tenantThaw (r : CmdReq)
  /-- TENANT_SAVE (R309): Command returning a piece of the frozen tenant's state blob, snapshotting at OFFSET 0. -/
  | tenantSave (r : CmdReq) (offset : Nat)
  /-- TENANT_RESTORE (R313): Command that loads a piece of a state blob into a frozen tenant, checking and applying it when complete. -/
  | tenantRestore (r : CmdReq) (offset flags : Nat) (data : Bytes)
  /-- CADENCE_ANCHOR (R39): Command that schedules a PTM anchor of an epoch boundary to a host's time and TAI. -/
  | cadenceAnchor (r : CmdReq) (hl taiOffset : Nat)
  /-- ANCHOR_BOUNDARY (R39): At the anchor's epoch boundary the bridge starts a PTM dialogue on the named host link. -/
  | anchorBoundary
  /-- PTM_RESPONSE (R39): The PTM response arrives; the bridge computes PTM and TAI times, journals the anchor and replies. -/
  | ptmResponse (ptmNs rttNs : Nat)
  /-- PTM_TIMEOUT (R40): No PTM response within 1 ms ends the anchor with TIMEOUT. -/
  | ptmTimeout
  /-- CLOCK_SWITCH (R400): Command that moves a clock selector to another source. -/
  | clockSwitch (r : CmdReq) (selector source : Nat)
  /-- CLOCK_MEASURE (R407): Command that counts a clock's edges over a gate of XO cycles. -/
  | clockMeasure (r : CmdReq) (ckid gate count : Nat)
  /-- PD_SET (R413): Command that takes a power domain ON, into RET or OFF. -/
  | pdSet (r : CmdReq) (dom state flags : Nat)
  /-- PAD_RELEASE (R420): Command that releases the pad hold of a PHY domain. -/
  | padRelease (r : CmdReq) (dom : Nat)
  /-- BANK_TEST (R358): Command that march-tests a LOST SRAM bank and clears LOST on a pass. -/
  | bankTest (r : CmdReq) (bank : Nat) (failOffset : Option Nat)
  /-- TILLER_RESET (R431): Command that resets one tiller, or with TILLER 8 the whole datapath. -/
  | tillerReset (r : CmdReq) (tiller : Nat)
  /-- UPDATE_BEGIN (R440): Command that checks an image header, records it and starts erasing the receiving slot. -/
  | updateBegin (r : CmdReq) (hdr : Bytes)
  /-- UPDATE_CHUNK (R442): Command carrying one half of an image chunk. -/
  | updateChunk (r : CmdReq) (index piece : Nat) (data : Bytes)
  /-- UPDATE_STATUS (R446): Command returning the update state and missing chunk ranges. -/
  | updateStatus (r : CmdReq) (start : Nat)
  /-- UPDATE_ACTIVATE (R448): Command that schedules activation of a READY image at an epoch boundary. -/
  | updateActivate (r : CmdReq)
  /-- UPDATE_CONFIRM (R452): Command that confirms the trial image, advancing the anti-rollback fuses. -/
  | updateConfirm (r : CmdReq)
  /-- UPDATE_ABORT (R453): Command that abandons an update in progress or reverts a trial. -/
  | updateAbort (r : CmdReq)
  /-- TRACE_FILTER (R462): Command that sets trace class and source filters and the ring mode. -/
  | traceFilter (r : CmdReq) (p : FilterParams)
  /-- TRACE_STREAM (R464): Command that starts or stops streaming trace records to host memory. -/
  | traceStream (r : CmdReq) (p : StreamParams)
  /-- TRACE_READ (R463): Command returning trace records from a given record number. -/
  | traceRead (r : CmdReq) (start : Nat)
  /-- FAULT_READ (R383): Command returning FAULT_WORD, captures and LINES. -/
  | faultRead (r : CmdReq)
  /-- FAULT_CLEAR (R384): Command that clears CORR and CONT latches and re-arms captures. -/
  | faultClear (r : CmdReq) (mask : Nat)
  /-- FAULT_RELEASE (R380): Command that releases FAULT_N after its minimum pulse. -/
  | faultRelease (r : CmdReq)
  /-- FAULT_INJECT (R386): Command that sets injection modes or injects one event at the Ward. -/
  | faultInject (r : CmdReq) (p : FaultInj)
  /-- FAULT_CONFIG (R385): Command that stores a line's class or FAULT_MINW. -/
  | faultConfig (r : CmdReq) (p : FaultCfg)
  /-- JOURNAL_READ (R394): Command returning journal records from a SEQ, optionally advancing the export mark. -/
  | journalRead (r : CmdReq) (start : Nat)
  /-- KEEPER_WATCHDOG (R363): The 250 ms Keeper watchdog expires and the Keeper restarts, cancelling fetched and scheduled commands. -/
  | keeperWatchdog
  /-- DRAIN_TIMEOUT (R362): After 20 ms of draining, commands still held and all scheduled commands are answered CANCELLED and the Keeper restarts. -/
  | drainTimeout
  /-- KEEPER_RESTART_DONE (R434): The restarted Keeper rebuilds its records from the blocks and resumes fetching. -/
  | keeperRestartDone
  /-- SMP_WRITE (R360): An SMP WRITE frame delivers a command packet, checked for length, CRC and queue room. -/
  | smpWrite (len : Nat) (packet : Bytes) (crc : Nat)
  /-- SMP_READ (R359): An SMP READ returns the oldest queued reply, which leaves the queue after its last CRC byte. -/
  | smpRead
  /-- SMP_STATUS (R359): An SMP STATUS returns the status byte, clearing its error bits. -/
  | smpStatus
  /-- SMP_CS_ABORT (R359): SMP_CS_N rising early discards the transaction, leaving a reply being read queued. -/
  | smpCsAbort (op : SmpOp)
  /-- CADENCE_PULSE (R33): An active edge on CADENCE_IN is judged and handled by the cadence loop.  CADENCE_IN
  goes to a level and holds it for `widthNs`; CAD_CTRL.EDGE says which edge is the active one. -/
  | cadencePulse (widthNs interval : Nat) (edge : InputEdge)
  /-- SLEW_END (R34): After 16 times the phase error of real time the stamp returns to its nominal rate. -/
  | slewEnd
  /-- TICK_BOUNDARY (R27): PHASE[5:0] wraps to 0, driving tick-counted periods. -/
  | tickBoundary
  /-- EPOCH_BOUNDARY (R27): PHASE and FINE wrap to 0 and EPOCH increments. -/
  | epochBoundary
  /-- CHECKPOINT_OVERDUE (R38): A CHECKPOINT not programmed 1,024 epochs after queuing raises STORE line 19. -/
  | checkpointOverdue
  /-- COASTING_ONSET (R33): After 1.5 epochs of stamp without an accepted pulse the loop enters COASTING. -/
  | coastingOnset
  /-- ACQUIRE_TIMEOUT (R36): Two seconds without a pulse in ACQUIRING return the loop to FREE. -/
  | acquireTimeout
  /-- CAD_EN_CHANGE (R36): A write changing CAD_CTRL.EN to 0 sends the loop to FREE, and to 1 lets it follow CADENCE_IN. -/
  | cadEnChange (fn : Fn) (en : Bool)
  /-- CAD_SRC_CHANGE (R32): A write changing CAD_CTRL.SRC moves the loop to FREE on CAD_NOMINAL from the next boundary. -/
  | cadSrcChange (fn : Fn) (src : Bool)
  /-- CAD_NOMINAL_WRITE (R32): A write of CAD_NOMINAL is stored and applied at the next boundary run on it. -/
  | cadNominalWrite (fn : Fn) (v : BitVec 32)
  /-- POWER_ON_RESET (R423): VIN or an AON rail out of range asserts POR, resetting the whole module. -/
  | powerOnReset
  /-- POR_RELEASE (R423): POR ends and the always-on block comes out of reset, starting bring-up. -/
  | porRelease (up : PowerUp)
  /-- RESET_N_ASSERT (R427): RESET_N low for 10 µs resets the die and takes every switchable domain OFF. -/
  | resetNAssert
  /-- RESET_N_RELEASE (R427): RESET_N rising captures straps and resumes bring-up from step 1. -/
  | resetNRelease (straps : Straps)
  /-- ROM_BOOT (R423): Once PD_KEEP is ON the ROM checks fuses, verifies the journal, seeds the cadence, selects a slot and loads the firmware. -/
  | romBoot (found : RomFindings)
  /-- BOOT_CLOCK_TIMEOUT (R399): Neither XO nor EXTCLK_IN becoming READY within 20 ms raises CLOCK line 1 and leaves the datapath off. -/
  | bootClockTimeout
  /-- PERST_ASSERT (R60): PERST_N[n] asserting holds the link and conventionally resets its functions. -/
  | perstAssert (hl : Hl)
  /-- PERST_DEASSERT (R64): PERST_N[n] deasserting lets the link go to Detect and ends WAKE_N driving. -/
  | perstDeassert (hl : Hl)
  /-- HOT_RESET_RECEIVED (R60): A Hot Reset takes the link to Detect with a conventional reset of its functions. -/
  | hotResetReceived (hl : Hl)
  /-- DL_DOWN (R60): The data link goes down, the link goes to Detect and its functions are conventionally reset. -/
  | dlDown (hl : Hl)
  /-- LINK_DISABLE (R60): The partner directs Link Disable and the link's functions are reset. -/
  | linkDisable (hl : Hl)
  /-- LINK_DISABLE_END (R64): The partner stops directing Disabled and the link retrains. -/
  | linkDisableEnd (hl : Hl)
  /-- DETECT_ENTRY (R64): Once PERST_N is deasserted and the tiller and PHY are ready with pads released, the link enters Detect. -/
  | detectEntry (hl : Hl)
  /-- DL_UP (R65): The link reaches DL_Up, sending DRS if the PF is ready. -/
  | dlUp (hl : Hl) (width : Nat) (flit reversed : Bool)
  /-- PF_READY (R426): The PF becomes ready once its domains are ON and its configuration and directory are loaded, sending DRS. -/
  | pfReady (hl : Hl)
  /-- REFCLK_LOST (R50): REFCLKp stopping outside L1.1, L1.2 and L2 takes the port's links to Detect and raises a CONT fault. -/
  | refclkLost (port : Tiller)
  /-- HL_HOLD_WRITE (R64): Writing HL_CTRL.HOLD holds the link from training, taking an up link down. -/
  | hlHoldWrite (fn : Fn) (hl : Hl) (hold : Bool)
  /-- HL_RETRAIN_WRITE (R51): Writing HL_CTRL.RETRAIN takes the link to Recovery. -/
  | hlRetrainWrite (fn : Fn) (hl : Hl)
  /-- SPEED_CHANGE (R51): The host directs a speed change with equalisation. -/
  | speedChange (hl : Hl) (speed : Nat) (eqOk : Bool)
  /-- L0P_PARTNER_REQUEST (R53): The partner requests an L0p width change, which the bridge accepts. -/
  | l0pPartnerRequest (hl : Hl) (width : Nat)
  /-- L0P_HALVE (R53): After L0P_WINDOW ticks of low traffic the bridge requests half width. -/
  | l0pHalve (hl : Hl)
  /-- L0P_RESTORE (R53): Traffic above 90 % or a waiting cadence packet makes the bridge request full width. -/
  | l0pRestore (hl : Hl)
  /-- ASPM_L1_ENTRY (R54): After L1_IDLE_TICKS idle ticks the bridge requests ASPM L1. -/
  | aspmL1Entry (hl : Hl) (ask : L1Ask)
  /-- L1_EXIT (R55): The link leaves L1 or L1.2 for traffic. -/
  | l1Exit (hl : Hl)
  /-- LTR_ACTIVE (R57): A TLP queued after an idle LTR makes the bridge send the active latency first. -/
  | ltrActive (hl : Hl)
  /-- LTR_NO_REQUIREMENT (R57): After LTR_IDLE_TICKS idle ticks the bridge sends No Requirement. -/
  | ltrNoRequirement (hl : Hl)
  /-- CONFIG_REQUEST (R65): A configuration request to a function is answered, with RRS while the function is not ready. -/
  | configRequest (fn : Fn) (hostTag : Nat) (op : CfgOp)
  /-- VF_ENABLE_SET (R65): The host sets VF Enable and the VFs answer RRS until ready. -/
  | vfEnableSet (hl : Hl)
  /-- VF_READY (R65): The VFs become ready within 1 ms of VF Enable and FRS is sent. -/
  | vfReady (hl : Hl)
  /-- VF_ENABLE_CLEAR (R74): VF Enable cleared by write or PF FLR resets every tenant on the link's VFs as by FLR. -/
  | vfEnableClear (hl : Hl)
  /-- FLR (R158): An FLR bumps the tenant's generation, quarantines live tags and completes within 1 ms. -/
  | flr (fn : Fn)
  /-- BUS_MASTER_CLEAR (R156): Clearing Bus Master Enable stops the function's requests within 1 µs and halts its channels. -/
  | busMasterClear (fn : Fn)
  /-- BUS_MASTER_SET (R157): Setting Bus Master Enable lets new requests and held MSI-X messages go. -/
  | busMasterSet (fn : Fn)
  /-- D3HOT_ENTRY (R56): A function entering D3hot is treated as with Bus Master Enable 0. -/
  | d3hotEntry (hl : Hl)
  /-- D0_RETURN (R56): A function returning to D0 keeps its state and resumes requests. -/
  | d0Return (hl : Hl)
  /-- NUMVFS_WRITE (R72): A host write of NumVFs is stored, clipped to TotalVFs, and ignored while VF Enable is 1. -/
  | numvfsWrite (hl : Hl) (v : BitVec 16)
  /-- REBAR_SIZE_WRITE (R81): A new PF BAR2 size takes effect for requests after the write completes. -/
  | rebarSizeWrite (hl : Hl) (v : Fin 64)
  /-- MSIX_UNMASK (R321): Unmasking a vector sends one message if its PBA bit is set and no holdoff runs. -/
  | msixUnmask (fn : Fn) (v : Fin 128)
  /-- INBOUND_REQUEST (R105): A host memory request to BAR2 is translated through the inbound windows to a Weaseif link. -/
  | inboundRequest (m : HostMem)
  /-- EXPROM_READ (R88): A host read of the expansion ROM window is served from the directory buffers. -/
  | expromRead (hl : Hl) (offset len hostTag : Nat)
  /-- HOST_READ_ISSUE (R137): A host read waiting for a tag and completion cells is issued once they are available. -/
  | hostReadIssue (hl : Hl) (pos tag : Nat)
  /-- HOST_TLP_ISSUE (R283): An arbitration point admits a request and its TLP enters the host link's transmit order. -/
  | hostTlpIssue (hl : Hl) (pos : Nat)
  /-- HOST_COMPLETION (R141): A completion from a host is written into its cells and forwarded to its consumer in order. -/
  | hostCompletion (c : HostCpl)
  /-- COMPLETION_TIMEOUT (R149): A host request's timer expires, its tag goes to quarantine and the request fails toward its source. -/
  | completionTimeout (fn : Fn) (tag : Nat)
  /-- QUARANTINE_EXPIRY (R150): Twice the completion timeout after issue, a quarantined tag is freed. -/
  | quarantineExpiry (fn : Fn) (tag : Nat)
  /-- LOCAL_MWR (R100): An MWR from a local design is translated through an outbound window or sheaf toward host memory. -/
  | localMwr (wl : Wl) (p : Pkt)
  /-- SHEAF_LAG_EXCEEDED (R117): A LEAD destination's lag exceeds LAG_BUDGET; it becomes LAGGING and its held copies are discarded. -/
  | sheafLagExceeded (sheaf : Fin 256) (d : Fin 8)
  /-- LOCAL_MRD (R100): An MRD or zero-length flush from a local design is translated into host reads. -/
  | localMrd (wl : Wl) (p : Pkt)
  /-- LOCAL_ATOM (R127): An ATOM from a local design becomes an AtomicOp TLP or an error completion. -/
  | localAtom (wl : Wl) (p : Pkt)
  /-- LOCAL_INTERRUPT_MSG (R122): An interrupt MSG is mapped through an interrupt window to an MSI-X vector. -/
  | localInterruptMsg (wl : Wl) (p : Pkt)
  /-- PEER_DOORBELL (R477): A DOORBELL received on a peer link is handled as an interrupt MSG with MSG_NUM equal to DB_NUM. -/
  | peerDoorbell (wl : Wl) (p : Pkt)
  /-- IDENT_RECEIVED (R235): The partner's IDENT is held and its MAX_RD applied. -/
  | identReceived (wl : Wl) (p : Pkt)
  /-- LOCAL_RESPONSE (R225): A CPL, CPLD or WRSP from a local design answers a bridge request. -/
  | localResponse (wl : Wl) (p : Pkt)
  /-- LRSP_TIMEOUT (R228): No final response within LRSP_TO ticks fails the request and quarantines its TAG. -/
  | lrspTimeout (wl : Wl) (tag : Nat)
  /-- PARTNER_CLOCK_STABLE (R172): The partner clock is stable for 1,024 cycles; training moves to SLOW. -/
  | partnerClockStable (wl : Wl)
  /-- TS2_EXCHANGED (R172): Word lock, deskew and TS2 are done; the key side chooses and sends TS3. -/
  | ts2Exchanged (wl : Wl) (blocks : List (Fin 4 × Bytes))
  /-- TS3_ECHOED (R172): TS3 is echoed and transmission stops for 1 µs. -/
  | ts3Echoed (wl : Wl) (rate : Fin 4) (set : Fin 16)
  /-- SWITCH_DONE (R172): After 1 µs the lanes run at the chosen rate and adapt. -/
  | switchDone (wl : Wl)
  /-- FAST_CONFIRMED (R172): Adaptation and TS confirmation done; the link becomes ACTIVE with scrambling. -/
  | fastConfirmed (wl : Wl)
  /-- TRAIN_ATTEMPT_TIMEOUT (R172): An attempt exceeding 2 ms fails and training restarts in DETECT. -/
  | trainAttemptTimeout (wl : Wl)
  /-- PARTNER_CLOCK_LOST (R172): The partner clock is lost for 64 cycles. -/
  | partnerClockLost (wl : Wl)
  /-- PHY_RETRAIN (R172): A retrain cause stops grains and sends TS1 with FLAGS[0]. -/
  | phyRetrain (wl : Wl)
  /-- PARTNER_RETRAIN (R172): A partner TS1 with FLAGS[0] starts or merges into a retrain. -/
  | partnerRetrain (wl : Wl)
  /-- RETRAIN_DONE (R172): TS3 at the current rate confirms and grains resume. -/
  | retrainDone (wl : Wl) (rate : Fin 4) (set : Fin 16)
  /-- WLANE_DISABLE_WRITE (R172): Writing DISABLE idles the lanes or lets the link leave DISABLED. -/
  | wlaneDisableWrite (fn : Fn) (wl : Wl) (v : Bool)
  /-- WLANE_TRAIN_WRITE (R172): Writing TRAIN restarts training in DETECT. -/
  | wlaneTrainWrite (fn : Fn) (wl : Wl)
  /-- LOOPBACK_WRITE (R178): Writing LOOPBACK enters near-end or far-end loopback, holds it, or is refused. -/
  | loopbackWrite (fn : Fn) (wl : Wl) (v : Fin 4)
  /-- LANE_PRBS_WRITE (R175): Writing GEN or CHK puts a lane into or out of TEST. -/
  | lanePrbsWrite (fn : Fn) (wl : Wl) (lane gen chk : Fin 4)
  /-- PRBS_SYNC_GAIN (R176): 64 agreeing bits set PRBS_SYNC and counting starts. -/
  | prbsSyncGain (wl : Wl) (lane : Fin 4)
  /-- PRBS_SYNC_LOSS (R176): 64 errors in 1,024 bits clear PRBS_SYNC and reseed the checker. -/
  | prbsSyncLoss (wl : Wl) (lane : Fin 4) (bits errors : Nat)
  /-- CNT_CLR (R176): Writing CNT_CLR zeroes LN_ERR_CNT and LN_BITS_CNT. -/
  | cntClr (fn : Fn) (wl : Wl) (lane : Fin 4)
  /-- INJ_GO (R177): Writing INJ_GO starts a single, burst or rate injection. -/
  | injGo (fn : Fn) (wl : Wl) (lane : Fin 4)
  /-- INJ_STOP (R177): Writing INJ_STOP ends a rate injection. -/
  | injStop (fn : Fn) (wl : Wl) (lane : Fin 4)
  /-- ALIGNMENT_BLOCK_SEND (R167): Every 16,384th grain slot the transmitter sends an alignment block. -/
  | alignmentBlockSend (wl : Wl)
  /-- ALIGNMENT_BLOCK_RECEIVE (R168): The receiver checks the expected alignment block on each active lane. -/
  | alignmentBlockReceive (wl : Wl) (blocks : List (Fin 4 × Bytes))
  /-- BACKGROUND_TRAIN_PASS (R174): A lane in background training passes its error and skew check. -/
  | backgroundTrainPass (wl : Wl) (run : BackgroundRun)
  /-- BACKGROUND_TRAIN_FAIL (R174): A lane not passing within 2 ms becomes FAILED. -/
  | backgroundTrainFail (wl : Wl) (lane : Fin 4)
  /-- GRAIN_RECEIVED (R187): A received DATA, LINKMSG or IDLE grain is checked and accepted or discarded. -/
  | grainReceived (wl : Wl) (g : Grain)
  /-- ACK_SEND (R189): After 32 accepted grains or 200 ns a grain carrying the new ACK is sent. -/
  | ackSend (wl : Wl)
  /-- LINK_PACKET_SEND (R191): A packet waiting for link credit starts once its full cost is available. -/
  | linkPacketSend (wl : Wl) (pos tag : Nat)
  /-- REPLAY_TIMEOUT (R195): The replay timer expires and every unacknowledged grain is sent again. -/
  | replayTimeout (wl : Wl)
  /-- INIT_RECEIVED (R198): An INIT grain advances the INIT exchange to a fresh start or resume. -/
  | initReceived (wl : Wl) (b : InitBody)
  /-- INIT_TIMEOUT (R198): The INIT exchange not completing within 2 ms of ACTIVE fails. -/
  | initTimeout (wl : Wl)
  /-- GRACE_EXPIRY (R201): The GRACE hold expires and held traffic is flushed. -/
  | graceExpiry (wl : Wl)
  /-- WL_LINK_RESET_WRITE (R203): Writing LINK_RESET resets the Weaseif link. -/
  | wlLinkResetWrite (fn : Fn) (wl : Wl)
  /-- HALT_RECEIVED (R207): A HALT grain flushes the link and raises a CONT fault. -/
  | haltReceived (wl : Wl)
  /-- RESHAPE_GO_WRITE (R210): Writing RESHAPE_GO sends LANE_REQ with RESHAPE_SET. -/
  | reshapeGoWrite (fn : Fn) (wl : Wl) (set : Fin 16)
  /-- LANE_REQ (R212): A received LANE_REQ is answered LANE_ACK or LANE_NAK. -/
  | laneReq (wl : Wl) (id : Fin 256) (set : Fin 16)
  /-- LANE_ACK (R211): A received LANE_ACK starts the switch or background training. -/
  | laneAck (wl : Wl) (id : Fin 256)
  /-- LANE_NAK (R211): A received LANE_NAK ends the reshape, keeping the old set. -/
  | laneNak (wl : Wl) (id : Fin 256) (reason : Nat)
  /-- LANE_READY (R211): A received LANE_READY lets the transmitter switch at its next alignment block. -/
  | laneReady (wl : Wl) (id : Fin 256)
  /-- RESHAPE_TIMEOUT (R214): No answer within RESHAPE_TO ticks abandons the reshape. -/
  | reshapeTimeout (wl : Wl)
  /-- CHANNEL_DOORBELL (R253): A doorbell write starts, refetches or is ignored by a channel. -/
  | channelDoorbell (fn : Fn) (ch : Chan)
  /-- CHANNEL_ENABLE (R272): Writing EN 1 takes a DISABLED channel to IDLE with CH_HEAD as resume point. -/
  | channelEnable (fn : Fn) (ch : Chan)
  /-- CHANNEL_DISABLE (R271): Writing EN 0 stops the channel's requests within 1 µs. -/
  | channelDisable (fn : Fn) (ch : Chan)
  /-- CHANNEL_RETRY (R269): After a retried error's requests end, the failing descriptor restarts from its first byte. -/
  | channelRetry (ch : Chan)
  /-- CHANNEL_DRAINED (R270): The last outstanding request of a halted or stopping channel ends. -/
  | channelDrained (ch : Chan)
  /-- TENANT_RESET_COMPLETE (R287): A tenant reset completes and the tenant returns to ACTIVE. -/
  | tenantResetComplete (tn : Tnid)
  /-- TENANT_PENDING_DRAINED (R290): A destroyed tenant's last request drains and its resources return to the pools. -/
  | tenantPendingDrained (tn : Tnid)
  /-- FREEZE_POINT (R305): At the freeze boundary the tenant enters FROZEN and quiesces. -/
  | freezePoint (tn : Tnid)
  /-- FREEZE_QUIESCED (R305): The frozen tenant's requests have ended and its flush completed; the freeze replies. -/
  | freezeQuiesced (tn : Tnid)
  /-- HARVEST_BOUNDARY (R301): At the harvest boundary the bitmaps swap and lines are written back and flushed. -/
  | harvestBoundary (tn : Tnid)
  /-- HARVEST_DONE (R301): Both harvest flushes complete and LOG_HARVEST replies. -/
  | harvestDone (tn : Tnid)
  /-- HOLDOFF_END (R322): A vector's holdoff ends after MOD_TICKS tick boundaries, sending a waiting vector. -/
  | holdoffEnd (fn : Fn) (v : Fin 128)
  /-- MOD_TICKS_WRITE (R322): Writing MOD_TICKS shortens a running holdoff. -/
  | modTicksWrite (fn : Fn) (v : Fin 128) (ticks : Fin 256)
  /-- FN_EVENT_EN_WRITE (R320): Setting an enable while its cause bit is 1 raises the vector once. -/
  | fnEventEnWrite (fn : Fn) (v : BitVec 14)
  /-- CH_IRQ_ENABLE_WRITE (R320): Setting a channel interrupt enable while its cause is 1 raises the vector once. -/
  | chIrqEnableWrite (fn : Fn) (ch : Chan) (v : BitVec 24)
  /-- ERROR_LINE_EVENT (R371): A block's error line latches at the Ward, setting LINES and FAULT_WORD. -/
  | errorLineEvent (e : Ev)
  /-- FAULT_MINW_EXPIRY (R380): FAULT_N's minimum pulse elapses. -/
  | faultMinwExpiry
  /-- FAULT_IN_EVENT (R382): FAULT_IN_N falls and stays low 1 µs, latching EXTERNAL line 0. -/
  | faultInEvent (widthNs : Nat)
  /-- JOURNAL_APPEND (R393): The record at the queue head is programmed into the journal. -/
  | journalAppend
  /-- JOURNAL_ERASE_DONE (R392): The oldest journal sector is erased and a TRUNCATE record appended. -/
  | journalEraseDone
  /-- CLOCK_MONITOR_TRIP (R402): A clock source leaves its limit or stops, with fallback or domain hold. -/
  | clockMonitorTrip (ckid : Fin 32)
  /-- FRO_READY (R398): The FRO becomes READY after POR or restart. -/
  | froReady
  /-- SOURCE_READY (R398): XO or EXTCLK_IN becomes READY after 1 ms within its limit. -/
  | sourceReady (ckid : Fin 2)
  /-- PLL_READY (R398): A PLL locks with a READY reference and becomes READY. -/
  | pllReady (ckid : Fin 32)
  /-- CLOCK_SWITCH_DONE (R401): A selector completes a glitch-free switch on the handshake. -/
  | clockSwitchDone (selector : Fin 4)
  /-- FORCED_CLOCK_SWITCH (R401): No handshake within 64 new-clock cycles forces the switch. -/
  | forcedClockSwitch (selector : Fin 4)
  /-- FREQ_COUNT_START (R406): Writing START begins a frequency count. -/
  | freqCountStart (fn : Fn) (ckid : Fin 256)
  /-- FREQ_COUNT_END (R406): The gate ends and FC_COUNT holds the edges counted. -/
  | freqCountEnd (edges : Nat)
  /-- CLKOBS_WRITE (R405): A write of SEL or DIV holds CLKOBS low for a period, then starts the new output. -/
  | clkobsWrite (fn : Fn) (sel : Fin 256) (div : Fin 8192)
  /-- WAKE_STEP_READY (R415): A wake step reports ready and the next step starts, or the domain reaches ON. -/
  | wakeStepReady (dom : Dom) (badBanks : List Nat)
  /-- WAKE_STEP_TIMEOUT (R416): A wake step exceeding its maximum fails and power is removed. -/
  | wakeStepTimeout (dom : Dom)
  /-- VIN_LOW (R488): VIN below 6 V for 10 µs raises POWER line 0. -/
  | vinLow (mv : Nat)
  /-- ERASE_DONE (R447): The receiving slot's erase completes and the update moves to RECEIVING. -/
  | eraseDone
  /-- ACTIVATION_BOUNDARY (R449): At the activation boundary the Keeper drains and restarts into the trial slot. -/
  | activationBoundary
  /-- TRIAL_END (R451): The trial period ends unconfirmed and the bridge reverts to the old slot. -/
  | trialEnd
  /-- TRACE_RECORD_APPEND (R458): A trace record reaching the Hub is appended to the ring if filters pass. -/
  | traceRecordAppend (source : Nat)
  /-- STREAM_BATCH_WRITE (R465): Trace records are written to the stream buffer, followed by the producer count. -/
  | streamBatchWrite
  /-- STREAM_RESUME (R466): A paused stream resumes, writing STREAM_GAP if records were overwritten. -/
  | streamResume
  /-- JTAG_TRACE_PTR (R471): TRACE_PTR Update-DR sets the JTAG trace read pointer. -/
  | jtagTracePtr (number : Nat)
  /-- JTAG_TRACE_DATA (R471): TRACE_DATA Capture-DR loads the record at the pointer and advances it. -/
  | jtagTraceData
  /-- JTAG_IDCODE (R471): IDCODE captures the device identifier. -/
  | jtagIdcode
  /-- JTAG_SAMPLE_PRELOAD (R471): SAMPLE/PRELOAD captures the pins without driving them. -/
  | jtagSamplePreload (pins : Bytes)
  /-- JTAG_PAD_DRIVE (R472): EXTEST, CLAMP, HIGHZ and 1149.6 instructions act only while RESET_N is low. -/
  | jtagPadDrive (instr : PadInstr)
  /-- REFCLK_RESTORED (R398): REFCLKp becomes present and in tolerance again on a running port, so REFCLK_OK returns to 1 and REFCLKp becomes READY. -/
  | refclkRestored (port : Tiller)
  /-- LANE_MARGINING_COMMAND (R67): The host's downstream port issues a Lane Margining at Receiver command, and the bridge runs or reports margining on its independent error sampler. -/
  | laneMarginingCommand (hl : Hl) (lane command : Nat)
  /-- L2_ENTRY (R58): The host takes the link into L2, after which REFCLK may stop without fault and PME is signalled by WAKE_N. -/
  | l2Entry (hl : Hl)
  /-- REPLAY_LIMIT_ZERO_WRITE (R201): A register write of 0 to REPLAY_LIMIT is refused, the field keeps its value and WL_EVENTS.CFG_REFUSED is set. -/
  | replayLimitZeroWrite (fn : Fn) (wl : Wl)
  deriving DecidableEq, Repr

end Sys2Proof
end

