-- ==== Sys2Proof/WellFormed.lean ====
section
/-!
DEFINITION. Well-formed commands: operands that fit the fields of the packet, register, header or grain that carries
them.  Ranges that a type already fixes (a host link, a Weaseif link, a tenant) need no check.
-/
namespace Sys2Proof

/-- A register access of 1, 2, 4, 8 or more bytes whose value fits its size (R2 answers the sizes it does not take). -/
def RegAccess.wf (a : RegAccess) : Bool := decide (0 < a.size) && decide (a.value < 2 ^ (8 * a.size))

/-- A command header (Table KP-1): 16-bit TAG and TARGET, 32-bit NOT_BEFORE, PLEN at most 4,096 bytes. -/
def CmdReq.wf (r : CmdReq) : Bool :=
  decide (r.tag < 2 ^ 16) && decide (r.target < 2 ^ 16) && decide (r.notBefore < 2 ^ 32) && decide (r.plen < 2 ^ 16) &&
    decide (r.hver < 2 ^ 8)

/-- A packet (Tables WT-1 to WT-3): fields within their widths, and a payload that LEN can count. -/
def Pkt.wf (p : Pkt) : Bool :=
  decide (p.typ < 16) && decide (p.lane < 4) && decide (p.sub < 2 ^ 8) && decide (p.len < 2 ^ 13) &&
    decide (p.tag < 2 ^ 12) && decide (p.status < 2 ^ 8) && decide (p.cause < 2 ^ 8) && decide (p.addr < 2 ^ 64) &&
    decide (p.byteCount < 2 ^ 13) && decide (p.lowerAddr < 2 ^ 12) && decide (p.num < 2 ^ 16) &&
    decide (p.value < 2 ^ 32) && decide (p.payload.length < 2 ^ 13)

/-- A host memory request: a write carries its data. -/
def HostMem.wf (m : HostMem) : Bool := !m.write || decide (m.data.length = m.len)

/-- A host completion: status 0, 1, 2 or 4, and Length, Byte Count, Lower Address and tag in the widths of their fields. -/
def HostCpl.wf (c : HostCpl) : Bool :=
  [0, 1, 2, 4].contains c.status && decide (c.length ≤ 1024) && decide (c.byteCount ≤ 4096) &&
    decide (c.lowerAddr < 4096) && decide (c.tag < 2 ^ 14)

/-- A grain (Table WL-1): a payload of 64 bytes and fields within their widths. -/
def Grain.wf (g : Grain) : Bool :=
  decide (g.payload.length = 64) && decide (g.typ < 16) && decide (g.seq < 4096) && decide (g.ack < 4096) &&
    decide (g.crc < 2 ^ 32) && decide (g.rsv < 2 ^ 21)

/-- An INIT body (Table WL-3). -/
def InitBody.wf (b : InitBody) : Bool :=
  decide (b.version < 2 ^ 16) && decide (b.linkId < 2 ^ 16) && decide (b.peerLinkId < 2 ^ 16) &&
    decide (b.nextRx < 4096) && decide (b.crP < 4096) && decide (b.crN < 4096) && decide (b.crC < 4096)

/-- A number that a field of `w` bits holds. -/
def fits (w n : Nat) : Bool := decide (n < 2 ^ w)

/-- Parameters of TENANT_CREATE and TENANT_MODIFY (Table TN-3). -/
def TenantParams.wf (p : TenantParams) : Bool :=
  fits 16 p.vf && fits 8 p.hl && fits 8 p.weight && fits 8 p.vectors && fits 16 p.allowance && fits 8 p.cbUnits &&
    fits 16 p.outAllot && fits 16 p.inAllot && fits 16 p.intAllot && fits 32 p.rate && fits 32 p.depth && fits 96 p.permit &&
    decide (p.chTiller.length = 8) && p.chTiller.all (fits 8) && fits 32 p.change

/-- Parameters of LOG_CONFIG (Table MG-2). -/
def LogParams.wf (p : LogParams) : Bool :=
  fits 64 p.base && fits 32 p.pages && fits 8 p.logHl && fits 64 p.bitmapA && fits 64 p.bitmapB

/-- An outbound window entry image (Table WN-4): bases and size carry no bits below a page. -/
def OutWin.wf (w : OutWin) : Bool :=
  fits 7 w.link && fits 2 w.cls && fits 1 w.sheaf && fits 1 w.rd && fits 1 w.wr && fits 1 w.at_ && fits 1 w.roOk &&
    fits 1 w.idoOk && fits 8 w.tnid && fits 5 w.pfHl && fits 1 w.toPf && fits 64 w.localBase && fits 49 w.size &&
    fits 64 w.hostBase && decide (w.localBase % 4096 = 0 ∧ w.size % 4096 = 0 ∧ w.hostBase % 4096 = 0) &&
    fits 16 w.deadline && fits 16 w.open_

/-- An inbound window entry image (Table WN-5). -/
def InWin.wf (w : InWin) : Bool :=
  fits 7 w.link && fits 9 w.func && fits 1 w.rd && fits 1 w.wr && fits 2 w.lane && fits 5 w.hl && fits 40 w.barOffset &&
    fits 41 w.size && fits 64 w.localBase && decide (w.barOffset % 4096 = 0 ∧ w.size % 4096 = 0 ∧ w.localBase % 4096 = 0)

/-- An interrupt window entry image (Table WN-6). -/
def IntWin.wf (w : IntWin) : Bool :=
  fits 7 w.link && fits 1 w.toPf && fits 8 w.tnid && fits 5 w.pfHl && fits 16 w.msgBase && fits 8 w.count && fits 7 w.vecBase

/-- A destination of a sheaf image (Table WN-7). -/
def SheafDest.wf (d : SheafDest) : Bool :=
  fits 8 d.tnid && fits 1 d.toPf && fits 5 d.pfHl && fits 10 d.lagBudget && fits 64 d.hostBase && fits 1 d.gapEn &&
    fits 4 d.gapSize && fits 64 d.gapBase && decide (d.hostBase % 4096 = 0 ∧ d.gapBase % 64 = 0)

/-- A sheaf image (Table WN-7). -/
def SheafImg.wf (i : SheafImg) : Bool :=
  fits 2 i.mode && fits 4 i.destCount && fits 11 i.window && decide (i.dests.length ≤ 8) && i.dests.all SheafDest.wf

/-- Parameters of WLINK_CONFIG (Table KP-7). -/
def WlinkParams.wf (p : WlinkParams) : Bool :=
  fits 8 p.link && fits 8 p.persist && fits 16 p.select && fits 8 p.targetRate && fits 8 p.minWidth && fits 8 p.laneEn &&
    fits 1 p.disable && fits 1 p.peer && fits 8 p.replayLimit && fits 8 p.replayTo && fits 32 p.grace && fits 16 p.errLimit &&
    fits 16 p.errWindow && fits 16 p.lrspTo && fits 16 p.reshapeTo

/-- Parameters of FAULT_CONFIG (Table WD-6). -/
def FaultCfg.wf (p : FaultCfg) : Bool := fits 8 p.select && fits 8 p.group && fits 8 p.line && fits 8 p.cls && fits 32 p.minw

/-- Parameters of FAULT_INJECT (Table WD-7). -/
def FaultInj.wf (p : FaultInj) : Bool :=
  fits 8 p.op && fits 8 p.group && fits 8 p.line && fits 8 p.modes && fits 32 p.master && fits 64 p.addr

/-- Parameters of TRACE_FILTER (Table OB-3). -/
def FilterParams.wf (p : FilterParams) : Bool :=
  fits 32 p.classEn && fits 8 p.flags && fits 256 p.tenants && fits 96 p.wlinks && fits 32 p.hlinks

/-- Parameters of TRACE_STREAM (Table OB-4). -/
def StreamParams.wf (p : StreamParams) : Bool :=
  fits 8 p.enable && fits 8 p.hl && fits 8 p.sizeLog2 && fits 8 p.batchTicks && fits 64 p.base && fits 64 p.prodAddr

/-- A configuration request: a read names an aligned dword of the 4 KiB space, a write a value of at most 32 bits. -/
def CfgOp.wf : CfgOp → Bool
  | .read off => fits 12 off && decide (off % 4 = 0)
  | .write _ v => fits 32 v

/-- An event of an error line (Table WD-3). -/
def Ev.wf (e : Ev) : Bool :=
  fits 4 e.master.kind && fits 16 e.master.id && fits 12 e.master.aux && fits 8 e.access && fits 8 e.detail && fits 64 e.addr

/-- Well-formed commands: every operand fits the field that carries it. -/
def Instr.wf : Instr → Bool
  | .registerWrite a => a.wf
  | .lockSet _ _ _ => true
  | .lowWordRead _ _ off => decide (off % 8 = 0)
  | .darkAccess a _ => a.wf
  | .cmdPiWrite _ _ => true
  | .ringEnWrite _ _ => true
  | .rplCiWrite _ _ => true
  | .commandFetch => true
  | .scheduledCommandExec => true
  | .nop r => r.wf
  | .deviceInfo r => r.wf
  | .directoryRead r offset => r.wf && fits 32 offset
  | .cmdCancel r tag => r.wf && fits 16 tag
  | .mgrHandover r new policy => r.wf && fits 8 new && fits 8 policy
  | .expromStore r offset total data => r.wf && fits 32 offset && fits 32 total && decide (data.length + 8 = r.plen)
  | .expromPiecesExpire => true
  | .subsysSet r vendor id => r.wf && fits 16 vendor && fits 16 id
  | .tenantCreate r p => r.wf && p.wf
  | .tenantModify r p => r.wf && p.wf
  | .tenantReset r => r.wf
  | .tenantDestroy r => r.wf
  | .tenantQuery r => r.wf
  | .vfAllot r hl bar2Log2 totalVfs initialVfs =>
    r.wf && fits 8 hl && fits 8 bar2Log2 && fits 16 totalVfs && fits 16 initialVfs
  | .runaheadSet r region base size => r.wf && fits 8 region && fits 64 base && fits 64 size
  | .outwinSet r index w => r.wf && w.wf && fits 16 index
  | .inwinSet r index w => r.wf && w.wf && fits 16 index
  | .intwinSet r index w => r.wf && w.wf && fits 16 index
  | .sheafSet r index img => r.wf && img.wf && fits 16 index
  | .hportConfig r port bifur clkmode speed => r.wf && fits 8 port && fits 8 bifur && fits 8 clkmode && fits 8 speed
  | .wlinkConfig r p => r.wf && p.wf
  | .wlinkReset r link => r.wf && fits 8 link
  | .wlinkReshape r link set => r.wf && fits 8 link && fits 8 set
  | .wlinkInfo r link => r.wf && fits 8 link
  | .logConfig r p => r.wf && p.wf
  | .logHarvest r => r.wf
  | .tenantFreeze r => r.wf
  | .tenantThaw r => r.wf
  | .tenantSave r offset => r.wf && fits 32 offset
  | .tenantRestore r offset flags data => r.wf && fits 32 offset && fits 32 flags && decide (data.length + 8 = r.plen)
  | .cadenceAnchor r hl taiOffset => r.wf && fits 8 hl && fits 16 taiOffset
  | .anchorBoundary => true
  | .ptmResponse ptmNs rttNs => fits 64 ptmNs && fits 64 rttNs
  | .ptmTimeout => true
  | .clockSwitch r selector source => r.wf && fits 8 selector && fits 8 source
  | .clockMeasure r ckid gate count => r.wf && fits 8 ckid && fits 32 gate && fits 64 count
  | .pdSet r dom state flags => r.wf && fits 8 dom && fits 8 state && fits 8 flags
  | .padRelease r dom => r.wf && fits 8 dom
  | .bankTest r bank _ => r.wf && fits 8 bank
  | .tillerReset r tiller => r.wf && fits 8 tiller
  | .updateBegin r hdr => r.wf && decide (hdr.length = r.plen)
  | .updateChunk r index piece data => r.wf && fits 32 index && fits 8 piece && decide (data.length + 8 = r.plen)
  | .updateStatus r start => r.wf && fits 32 start
  | .updateActivate r => r.wf
  | .updateConfirm r => r.wf
  | .updateAbort r => r.wf
  | .traceFilter r p => r.wf && p.wf
  | .traceStream r p => r.wf && p.wf
  | .traceRead r start => r.wf && fits 64 start
  | .faultRead r => r.wf
  | .faultClear r mask => r.wf && fits 64 mask
  | .faultRelease r => r.wf
  | .faultInject r p => r.wf && p.wf
  | .faultConfig r p => r.wf && p.wf
  | .journalRead r start => r.wf && fits 64 start
  | .keeperWatchdog => true
  | .drainTimeout => true
  | .keeperRestartDone => true
  | .smpWrite len packet crc => fits 16 len && fits 16 crc && decide (packet.length ≤ 4096)
  | .smpRead => true
  | .smpStatus => true
  | .smpCsAbort _ => true
  | .cadencePulse _ _ _ => true
  | .slewEnd => true
  | .tickBoundary => true
  | .epochBoundary => true
  | .checkpointOverdue => true
  | .coastingOnset => true
  | .acquireTimeout => true
  | .cadEnChange _ _ => true
  | .cadSrcChange _ _ => true
  | .cadNominalWrite _ _ => true
  | .powerOnReset => true
  | .porRelease _ => true
  | .resetNAssert => true
  | .resetNRelease _ => true
  | .romBoot _ => true
  | .bootClockTimeout => true
  | .perstAssert _ => true
  | .perstDeassert _ => true
  | .hotResetReceived _ => true
  | .dlDown _ => true
  | .linkDisable _ => true
  | .linkDisableEnd _ => true
  | .detectEntry _ => true
  | .dlUp _ width _ _ => fits 5 width
  | .pfReady _ => true
  | .refclkLost _ => true
  | .hlHoldWrite _ _ _ => true
  | .hlRetrainWrite _ _ => true
  | .speedChange _ speed _ => fits 3 speed
  | .l0pPartnerRequest _ width => fits 5 width
  | .l0pHalve _ => true
  | .l0pRestore _ => true
  | .aspmL1Entry _ _ => true
  | .l1Exit _ => true
  | .ltrActive _ => true
  | .ltrNoRequirement _ => true
  | .configRequest _ hostTag op => op.wf && fits 14 hostTag
  | .vfEnableSet _ => true
  | .vfReady _ => true
  | .vfEnableClear _ => true
  | .flr _ => true
  | .busMasterClear _ => true
  | .busMasterSet _ => true
  | .d3hotEntry _ => true
  | .d0Return _ => true
  | .numvfsWrite _ _ => true
  | .rebarSizeWrite _ _ => true
  | .msixUnmask _ _ => true
  | .inboundRequest m => m.wf
  | .expromRead _ offset len hostTag => fits 32 offset && fits 13 len && fits 14 hostTag
  | .hostReadIssue _ _ tag => fits 14 tag
  | .hostTlpIssue _ _ => true
  | .hostCompletion c => c.wf
  | .completionTimeout _ tag => fits 14 tag
  | .quarantineExpiry _ tag => fits 14 tag
  | .localMwr _ p => p.wf
  | .sheafLagExceeded _ _ => true
  | .localMrd _ p => p.wf
  | .localAtom _ p => p.wf
  | .localInterruptMsg _ p => p.wf
  | .peerDoorbell _ p => p.wf
  | .identReceived _ p => p.wf
  | .localResponse _ p => p.wf
  | .lrspTimeout _ tag => fits 12 tag
  | .partnerClockStable _ => true
  | .ts2Exchanged _ blocks => decide (blocks.length ≤ 4)
  | .ts3Echoed _ _ _ => true
  | .switchDone _ => true
  | .fastConfirmed _ => true
  | .trainAttemptTimeout _ => true
  | .partnerClockLost _ => true
  | .phyRetrain _ => true
  | .partnerRetrain _ => true
  | .retrainDone _ _ _ => true
  | .wlaneDisableWrite _ _ _ => true
  | .wlaneTrainWrite _ _ => true
  | .loopbackWrite _ _ _ => true
  | .lanePrbsWrite _ _ _ _ _ => true
  | .prbsSyncGain _ _ => true
  | .prbsSyncLoss _ _ bits errors => fits 64 bits && fits 64 errors
  | .cntClr _ _ _ => true
  | .injGo _ _ _ => true
  | .injStop _ _ _ => true
  | .alignmentBlockSend _ => true
  | .alignmentBlockReceive _ blocks => decide (blocks.length ≤ 4)
  | .backgroundTrainPass _ _ => true
  | .backgroundTrainFail _ _ => true
  | .grainReceived _ g => g.wf
  | .ackSend _ => true
  | .linkPacketSend _ _ tag => fits 12 tag
  | .replayTimeout _ => true
  | .initReceived _ b => b.wf
  | .initTimeout _ => true
  | .graceExpiry _ => true
  | .wlLinkResetWrite _ _ => true
  | .haltReceived _ => true
  | .reshapeGoWrite _ _ _ => true
  | .laneReq _ _ _ => true
  | .laneAck _ _ => true
  | .laneNak _ _ reason => fits 8 reason
  | .laneReady _ _ => true
  | .reshapeTimeout _ => true
  | .channelDoorbell _ _ => true
  | .channelEnable _ _ => true
  | .channelDisable _ _ => true
  | .channelRetry _ => true
  | .channelDrained _ => true
  | .tenantResetComplete _ => true
  | .tenantPendingDrained _ => true
  | .freezePoint _ => true
  | .freezeQuiesced _ => true
  | .harvestBoundary _ => true
  | .harvestDone _ => true
  | .holdoffEnd _ _ => true
  | .modTicksWrite _ _ _ => true
  | .fnEventEnWrite _ _ => true
  | .chIrqEnableWrite _ _ _ => true
  | .errorLineEvent e => e.wf
  | .faultMinwExpiry => true
  | .faultInEvent _ => true
  | .journalAppend => true
  | .journalEraseDone => true
  | .clockMonitorTrip _ => true
  | .froReady => true
  | .sourceReady _ => true
  | .pllReady _ => true
  | .clockSwitchDone _ => true
  | .forcedClockSwitch _ => true
  | .freqCountStart _ _ => true
  | .freqCountEnd edges => fits 64 edges
  | .clkobsWrite _ _ _ => true
  | .wakeStepReady _ badBanks => badBanks.all (fun b => decide (b < 48))
  | .wakeStepTimeout _ => true
  | .vinLow mv => fits 16 mv
  | .eraseDone => true
  | .activationBoundary => true
  | .trialEnd => true
  | .traceRecordAppend _ => true
  | .streamBatchWrite => true
  | .streamResume => true
  | .jtagTracePtr number => fits 64 number
  | .jtagTraceData => true
  | .jtagIdcode => true
  | .jtagSamplePreload _ => true
  | .jtagPadDrive _ => true
  | .refclkRestored _ => true
  | .laneMarginingCommand _ lane command => fits 8 lane && fits 16 command
  | .l2Entry _ => true
  | .replayLimitZeroWrite _ _ => true

end Sys2Proof
end

