-- ==== Sys2Proof/Decode.lean ====
section
/-!
DEFINITION. The command that a word spells.  The table of operations and events gives none of its rows any bits, so no
word spells a command (log entry 1).
-/
namespace Sys2Proof

/-- The command that the `nbits` bits of `w` spell: none, since no row of the table gives bits. -/
def decodeTableWord (nbits w : Nat) : Option Instr :=
  match nbits, w with
  | _, _ => none

end Sys2Proof
end

