-- ==== Sys2Proof/Config.lean ====
section
/-!
DEFINITION. What the spec leaves to an implementation, and the free values.  Each constant is opaque: no proof can see
its value, so what is proved holds for every value (log entries 3 and 10 to 14).
-/
namespace Sys2Proof.Config

/-- The free values: the value the spec leaves open at the `n`-th point where a run meets one.  `State.free` counts the
points met.  Every use says in its docstring what stays open there. -/
opaque freeValue : Nat → Nat

/-- The bits the spec leaves open ("may or may not"): the choice at the `n`-th such point. -/
opaque freeBit : Nat → Bool

/-- SHA-384 of a byte string, as a 384-bit number (R390, R440, R442). -/
opaque sha384 : Bytes → Nat

/-- Whether an ECDSA P-384 signature over a byte string verifies under the key numbered `k` (R440). -/
opaque ecdsaOk : Nat → Bytes → Bytes → Bool

/-- AES-256-GCM decryption under the key numbered `k` with the given nonce, associated data, ciphertext and tag: the
plain text, or none when the tag does not match (R443). -/
opaque gcmOpen : Nat → Bytes → Bytes → Bytes → Bytes → Option Bytes

/-- AES Key Wrap (RFC 3394) under a key: the key unwrapped, or none when it fails (R438, R440). -/
opaque unwrap : Nat → Bytes → Option Nat

/-- A dword of configuration space that the spec leaves to the PCI Express Base Specification: function, offset. -/
opaque cfgDword : Nat → Nat → Nat

/-- A field of a directory entry whose value the spec does not state (R92): block code, BAR, field (0 the bytes of one
instance, 1 the domain). -/
opaque dirField : Nat → Nat → Nat → Nat

/-- How many requests a host link's inbound queues hold that wait for a Weaseif link (R204); the spec does not say. -/
opaque inboundDepth : Nat

/-- Bits of Lower Address that a completion carries in flit mode, which the spec does not give (R142, log entry 36). -/
opaque flitLowerBits : Nat

/-- The header of the image that slot A holds in a module as shipped (R500, log entry 3). -/
opaque shippedHeader : Bytes

/-- The chunks of that image, each with its tag (R500). -/
opaque shippedChunks : List (Nat × Bytes)

end Sys2Proof.Config
end

