-- ==== Sys2Proof/Machine/Fld.lean ====
section
/-!
DEFINITION. The names of the register fields of the spec's register tables, one constructor for each field that is not
reserved (Tables CD-7, CD-8, HL-6, CF-4, CF-7, WN-4 to WN-7, RQ-6, WP-10, WL-11, DM-8, TN-7, TN-8, IN-3, KP-11, KP-12,
WD-12, CK-4, PW-9, OB-5 and OB-8).  A name is the block's short prefix and the field's name in the spec.
-/
namespace Sys2Proof.Machine

/-- The register blocks of the spec (their header lines). -/
inductive Blk where
  | devinfo | ward | hostlink | cadence | clock | power | trace | keeper | weaseif | wlane | tiller | hub | outwin | inwin | intwin | sheaf | tenant | channel | counters | fnirq | cmdring | dvsec
  deriving DecidableEq, Repr

/-- The access codes of Table SC-3 (R4). -/
inductive Acc where
  | ro | rw | w1c | w1s | wo | rc | rwl
  deriving DecidableEq, Repr

/-- One constructor per register field. -/
inductive Fld where
  | CAD_EN | CAD_SRC | CAD_EDGE | CAD_OUT_EN | CAD_OUT_SRC | CAD_OUT_WIDTH | CAD_LOCK | CAD_NOMINAL 
  | CAD_STATE | CAD_SEEDED | CAD_CLK_FRO | CAD_SLIP | CAD_GLITCH | CAD_LOST_PULSE | CAD_RANGE 
  | CAD_ERA_ROLL | CAD_PERIOD | CAD_PHASE_ERR | CAD_STAMP_LO | CAD_STAMP_HI | CAD_ERA | CAD_GLITCH_CNT 
  | CAD_SLIP_CNT | CAD_LOST_CNT | CAD_SEED | HL_BIFUR | HL_CLKMODE | HL_PRESENT | HL_MAX_WIDTH 
  | HL_BIFUR_NEXT | HL_CLKMODE_NEXT | HL_CFG_PENDING | HL_TARGET_SPEED | HL_L0P_AUTO | HL_L0P_MIN | HL_HOLD 
  | HL_RETRAIN | HL_LOCK | HL_LTSSM | HL_CUR_SPEED | HL_CUR_WIDTH | HL_FLIT | HL_DL_UP | HL_PERST 
  | HL_REFCLK_OK | HL_CLKREQ | HL_L1SUB | HL_REVERSED | HL_DL_DOWN | HL_SPEED_CHG | HL_WIDTH_CHG 
  | HL_EQ_FAIL | HL_PERST_ASSERT | HL_HOT_RESET | HL_REFCLK_LOST | HL_DRS_SENT | HL_PME_WAKE 
  | HL_L1_IDLE_TICKS | HL_L0P_WINDOW | HL_L0P_LOW | HL_START8 | HL_START16 | HL_START32 | HL_START64 
  | HL_PRESET_ONLY | HL_LTR_VALUE | HL_LTR_SCALE | HL_LTR_IDLE_TICKS | HL_DOWN_CNT | HL_RECOV_CNT 
  | HL_DROP_CNT | HL_RRS_CNT | DVSEC_VENDOR | DVSEC_REV | DVSEC_LEN | DVSEC_ID | DVSEC_HL | DVSEC_TILLER 
  | DVSEC_MANAGER | DVSEC_RECOVERY | DVSEC_TNID | DVSEC_GENERATION | DVSEC_DIR_GEN | DVSEC_FW_VERSION 
  | DVSEC_FW_STATE | DEV_VENDOR | DEV_DEVICE | DEV_REVISION | DEV_DEVID | DEV_MGR_SEL | DEV_RECOVERY_STRAP 
  | DEV_MGR_LINK | DEV_MGR_SMP | DEV_FW_VERSION | DEV_DIR_GEN | DEV_DSN_LO | DEV_DSN_HI | OW_LINK 
  | OW_CLASS | OW_SHEAF | OW_RD | OW_WR | OW_AT | OW_RO_OK | OW_IDO_OK | OW_TNID | OW_PF_HL | OW_TO_PF 
  | OW_LOCAL_BASE_LO | OW_LOCAL_BASE_HI | OW_SIZE_LO | OW_SIZE_HI | OW_HOST_BASE_LO | OW_HOST_BASE_HI 
  | OW_DEADLINE | OW_OPEN | IW_LINK | IW_FUNC | IW_RD | IW_WR | IW_LANE | IW_HL | IW_BAR_OFFSET_LO 
  | IW_BAR_OFFSET_HI | IW_SIZE_LO | IW_SIZE_HI | IW_LOCAL_BASE_LO | IW_LOCAL_BASE_HI | NW_LINK | NW_TO_PF 
  | NW_TNID | NW_PF_HL | NW_MSG_BASE | NW_COUNT | NW_VEC_BASE | SH_MODE | SH_DEST_COUNT | SH_WINDOW 
  | SH_LAGGING | SH_EXCUSED | SH_WAITING | SH_TNID | SH_TO_PF | SH_PF_HL | SH_LAG_BUDGET | SH_SD_LAG 
  | SH_HOST_BASE_LO | SH_HOST_BASE_HI | SH_GAP_EN | SH_GAP_SIZE | SH_GAP_BASE_LO | SH_GAP_BASE_HI 
  | TI_CONSERVATIVE | TI_BRINGUP | TI_SELFTEST | TI_LOST | TI_RECOVERY | TI_CB_READY | TI_SPARE_READY 
  | TI_READS_BLOCKED | TI_CELLS_USED | TI_UNITS_ALLOTTED | TI_CONS_OUT | TI_OUTSTANDING | TI_QUARANTINED 
  | TI_CTO_DEF | TI_RQ_CTO_CNT | TI_RQ_LATE_CNT | TI_RQ_STALE_CNT | TI_RQ_DROP_CNT | TI_RQ_SPEC_CNT 
  | TI_RQ_UNEXP_CNT | TI_RQ_FLUSH_CNT | WP_TARGET_RATE | WP_MIN_WIDTH | WP_LANE_EN | WP_DISABLE | WP_TRAIN 
  | WP_PEER | WP_STBY_IDLE | WP_LOOPBACK | WP_LOCK | WP_STATE | WP_CUR_RATE | WP_ACTIVE_MASK | WP_CLK_LOCK 
  | WP_ROLE | WP_DOWNSHIFT | WP_PARTNER_PEER | WP_LANE_MAP | WP_RX_INV | WP_PARTNER_RATES | WP_TRAIN_FAIL 
  | WP_CLK_LOST | WP_LANE_EXCL | WP_RATE_CHG | WP_ALIGN_ERR | WP_ROLE_CONFLICT | WP_BG_FAIL | WP_LB_REFUSED 
  | WP_BG_ERR_MAX | WP_TRAIN_CNT | WP_FAIL_CNT | WP_CLKLOST_CNT | WP_ALIGN_CNT | WP_SWING | WP_PRE 
  | WP_POST | WP_ADAPT | WP_CTLE | WP_DFE_EN | WP_LSTATE | WP_PRBS_SYNC | WP_PRBS_PEND | WP_LOGICAL 
  | WP_EYE_W | WP_EYE_H | WP_HEALTH | WP_GEN | WP_CHK | WP_INJ_MODE | WP_INJ_GO | WP_INJ_STOP 
  | WP_BURST_LEN | WP_RATE_EXP | WP_CNT_CLR | WP_INJ_LIVE | WP_LN_ERR_CNT | WP_LN_BITS_CNT | WP_LN_INJ_CNT 
  | WP_CK_SWING | WP_CK_DETECT | WP_CK_LOCK | WP_CK_FREQ_ERR | WL_REPLAY_LIMIT | WL_REPLAY_TO | WL_LOCK 
  | WL_GRACE | WL_ERR_LIMIT | WL_ERR_WINDOW | WL_RESHAPE_TO | WL_RESHAPE_SET | WL_RESHAPE_GO 
  | WL_LINK_RESET | WL_LSTATE | WL_RESUMED | WL_PARTNER_HEALTH | WL_ACTIVE_SET | WL_RESHAPE_BUSY 
  | WL_GRACE_RUN | WL_NEXT_TX | WL_OLDEST | WL_NEXT_RX | WL_UNACKED | WL_REPLAY_COUNT | WL_AVAIL_P 
  | WL_AVAIL_N | WL_AVAIL_C | WL_ERR_CUR | WL_REPLAY | WL_RETRAIN_REQ | WL_DOWN | WL_RETURNED | WL_FLUSHED 
  | WL_ERR_LIMIT_HIT | WL_ACK_OOW | WL_RESHAPE_DONE | WL_RESHAPE_FAIL | WL_HALT_RX | WL_CREDIT_ERR 
  | WL_CFG_REFUSED | WL_INIT_FAIL | WL_TX_CNT | WL_RX_CNT | WL_CRC_CNT | WL_INJ_CNT | WL_SEQ_CNT 
  | WL_DUP_CNT | WL_ACKOOW_CNT | WL_REPLAY_CNT | WL_RETRAIN_CNT | WL_DOWN_CNT | WL_RETURN_CNT 
  | WL_FLUSHPKT_CNT | WL_RESHAPE_CNT | WL_NAK_CNT | WL_CREDERR_CNT | WL_TYPE_CNT | WL_FRAME_CNT 
  | WL_HALTRX_CNT | CH_EN | CH_LANE | CH_DATA_RO | CH_RETRY_LIMIT | CH_RA_DESC | CH_RA_DATA | CH_STATE 
  | CH_DB_PENDING | CH_DRAINING | CH_RETRIES | CH_HALF | CH_FULL | CH_ERR | CH_WAITED | CH_DB_IGNORED 
  | CH_CODE | CH_VEC_HALF | CH_HALF_EN | CH_VEC_FULL | CH_FULL_EN | CH_VEC_ERR | CH_ERR_EN | CH_DOORBELL 
  | CH_HEAD_LO | CH_HEAD_HI | CH_CUR | CH_BYTES | CH_GLOBAL | CH_LOCAL | CH_TNID | CH_ALLOTTED 
  | CH_DONE_CNT | CH_BYTE_CNT | CH_HALT_CNT | CH_RETRY_CNT | CH_ERR_ADDR | CH_ERR_SPACE | CH_DB_NUM 
  | TN_TNID | TN_GENERATION | TN_STATE | TN_ELIGIBLE | TN_VF | TN_HL | TN_WEIGHT | TN_VECTORS | TN_CH_COUNT 
  | TN_CB_UNITS | TN_RATE | TN_DEPTH | TN_ALLOWANCE | TN_LIVE_TAGS | TN_QUAR_TAGS | TN_CELLS_USED 
  | TN_OUT_ALLOT | TN_OUT_USED | TN_IN_ALLOT | TN_IN_USED | TN_INT_ALLOT | TN_INT_USED | TN_PERMIT0 
  | TN_PERMIT1 | TN_PERMIT2 | TN_BUCKET | TN_HELD | TN_FREEZE_SET | TN_LOG_ON | TN_PENDING_RES 
  | TN_CHARGED_CNT | TN_HELD_TICKS | TN_GEN_CNT | TN_LATE_CNT | TN_STALE_CNT | TN_NOREAD_CNT 
  | HUB_TN_CREATED | HUB_TN_PENDING | HUB_CH_FREE | HUB_CH_PENDING | HUB_VEC_FREE | HUB_VEC_PENDING 
  | HUB_UNITS_FREE | HUB_UNITS_PENDING | HUB_PF_WEIGHT | HUB_CH_FREE_T | HUB_UNITS_FREE_T | FI_REPLY 
  | FI_DEADLINE_MISS | FI_SHEAF_LAG | FI_WARD_CORR | FI_WARD_CONT | FI_WARD_FATAL | FI_HOSTLINK 
  | FI_CADENCE | FI_TENANT_BROKEN | FI_FN_EVENT_EN | FI_VEC_REPLY | FI_VEC_DEADLINE | FI_VEC_LAG 
  | FI_VEC_WARD | FI_VEC_HOSTLINK | FI_VEC_CADENCE | FI_VEC_TENANT | FI_VEC_COUNT | FI_IN_SENT_CNT 
  | FI_IN_COAL_CNT | FI_IN_DROP_CNT | FI_MOD_TICKS | FI_HOLDOFF | FI_WAITING | KR_EN | KR_ACTIVE 
  | KR_STOPPED | KR_OVERRUN | KR_FETCH_ERR | KR_REPLY_FULL | KR_KEEPER_WAIT | KR_CMD_BASE_LO 
  | KR_CMD_BASE_HI | KR_RPL_BASE_LO | KR_RPL_BASE_HI | KR_CMD_PI | KR_CMD_CI | KR_RPL_PI | KR_RPL_CI 
  | KR_IN_FLIGHT | KR_SCHEDULED | KR_CMD_CNT | KR_FAIL_CNT | KP_KSTATE | KP_SLOT | KP_FW_STATE 
  | KP_FATAL_HOLD | KP_CTX_BUSY | KP_SCHED_ALL | KP_CMD_CNT | KP_FAIL_CNT | KP_CANCEL_CNT | KP_RESTART_CNT 
  | KP_WDOG_CNT | KP_SLOW_CNT | WD_FAULT_WORD | WD_INJ_WORD | WD_REACT | WD_FN_DRIVEN | WD_FN_LEVEL 
  | WD_FIN_LEVEL | WD_MINW_RUN | WD_ASYNC | WD_INJ_COUNTS | WD_INJ_REACT | WD_SELFTEST_OK | WD_FAULT_MINW 
  | WD_REACT_STAMP | WD_REACT_ERA | WD_FC_ADDR | WD_FC_STAMP | WD_FC_MASTER | WD_ACCESS | WD_DETAIL 
  | WD_GROUP | WD_LINE | WD_INJECTED | WD_PRESEED | WD_VALID | WD_FC_ERA | WD_LINES | WD_CLASS_LO 
  | WD_CLASS_HI | WD_CORR_CNT | WD_CONT_CNT | WD_FATAL_CNT | WD_INJ_CNT | WD_FAULTIN_CNT | WD_JR_APPEND_CNT 
  | WD_JR_LOST_CNT | WD_JR_NEWEST | WD_JR_OLDEST | WD_JR_MARK | WD_JR_QUEUED | WD_JR_FREE | CK_AON_SRC 
  | CK_REF_SRC | CK_KEEP_SRC | CK_CORE_SRC | CK_SW_BUSY | CK_READY | CK_SW_FORCED | CK_AON_FALLBACK 
  | CK_REF_FAILOVER | CK_FRO_RESTART | CK_PLL_TRIP | CK_KEEP_FALLBACK | CK_TRIPPED | CK_HELD | CK_DIV 
  | CK_SEL | CK_FC_CKID | CK_START | CK_BUSY | CK_DONE | CK_ABORTED | CK_FC_GATE | CK_FC_COUNT 
  | CK_TRIP_CNT | CK_FORCED_CNT | PW_ON_MAP | PW_DARK | PW_PAD_HOLD_MAP | PW_BANK_LOST_LO | PW_BANK_LOST_HI 
  | PW_FN_READY | PW_BOOT_CAUSE | PW_PREV_REACT | PW_RECOVERY | PW_VIN_MV | PW_DARK_CNT | PW_WAKE_CNT 
  | PW_LOST_CNT | PW_VINLOW_CNT | PW_REG_RDY | PW_CLK_RDY | PW_MEM_RDY | PW_LOGIC_RDY | PW_STATE 
  | PW_PENDING | PW_PAD_HOLD | PW_WAKE_FAIL | PW_REFCLK_WAIT | PW_LOST_LAST | PW_BANK_SIG | TR_STOP_MODE 
  | TR_STOPPED | TR_STREAM_ON | TR_STREAM_PAUSED | TR_STREAM_HL | TR_NEXT | TR_OLDEST | TR_DROP_CNT 
  | TR_SKIP_CNT | TR_STREAM_CNT | CT_WL_WIN_MISS | CT_WL_MALFORMED | CT_WL_UNEXP_RSP | CT_WL_LATE_RSP 
  | CT_WL_RX_PKT | CT_WL_TX_PKT | CT_WL_RX_BYTES | CT_WL_TX_BYTES | CT_HL_IN_MISS | CT_HL_TX_TLP 
  | CT_HL_RX_TLP | CT_HL_TX_PAYLOAD | CT_HL_RX_PAYLOAD | CT_TL_LOG_STALL | CT_TL_HUB_TX_BYTES 
  | CT_TL_HUB_RX_BYTES | CT_SMP_CRC | CT_SMP_FRAME | CT_SMP_OVERFLOW | CT_SMP_CMD | CT_OW_LATE 
  | CT_SD_DELIVERED | CT_SD_LAG | CT_SD_LATE | CT_SD_EPISODES | CT_TN_CTO | CT_TN_UR_CPL | CT_TN_CA_CPL 
  | CT_TN_LOG_OUT_RANGE | CT_TN_DESC_DONE | CT_TN_DESC_BYTES | CT_TN_HALTS | CT_TN_RETRIES | CT_TN_WR_BYTES 
  | CT_TN_RD_BYTES | CT_TN_MSIX_SENT 
  deriving DecidableEq, Repr

end Sys2Proof.Machine
end

