-- ==== Sys2Proof/Machine/State.lean ====
section
/-!
DEFINITION. The state of the block: the register file, every FIFO, buffer, counter and mode the spec gives it that no
register shows, the queue of waiting commands, and what the block has sent and driven.  All of it is plain data.
-/
namespace Sys2Proof.Machine

/-! ### Tables -/

/-- A sparse table keyed by number: entries with rising keys, none equal to the table's default. -/
abbrev Tbl (α : Type) := List (Nat × α)

/-- The key of a register field: the field, the instance of its block and its sub-instance. -/
structure RegKey where
  f : Fld
  i : Nat
  j : Nat
  deriving DecidableEq, Repr

/-- The register file: the fields that do not hold their reset value (R2, R4). -/
abbrev Regs := List (RegKey × Nat)

/-! ### Trace (chapter 19) -/

/-- A trace record (Table OB-1). -/
structure TrRec where
  stamp : Nat
  source : Nat
  code : Nat
  arg : Nat
  deriving DecidableEq, Repr

/-- The queue of one source unit, each record with whether the filter in force at its stamp records it (R462), and the
records it discarded and has not yet reported (R461). -/
structure SrcQ where
  recs : List (TrRec × Bool)
  dropped : Nat
  deriving DecidableEq, Repr

/-- The filters of Table OB-3. -/
structure TraceFilter where
  classEn : Nat
  stop : Bool
  tenants : Nat
  wlinks : Nat
  hlinks : Nat
  deriving DecidableEq, Repr

/-- The filters at reset (R462). -/
def TraceFilter.reset : TraceFilter :=
  ⟨0x1FFF, false, 2 ^ 256 - 1, 2 ^ 96 - 1, 2 ^ 32 - 1⟩

/-- The trace ring, its filters, the stream and the JTAG read pointer (R458 to R466, R471). -/
structure TraceS where
  srcQ : Tbl SrcQ
  ring : Tbl TrRec
  restart : Nat          -- record number at the last restart of the ring
  filter : TraceFilter
  hubResumed : Bool      -- PD_HUB woke from RET and no record has followed
  strSize : Nat
  strBatch : Nat
  strBase : Nat
  strProd : Nat
  strNext : Nat          -- number of the next record to stream
  strSent : Nat          -- number of the next record that no producer count sent covers
  strWaited : List Nat   -- tick boundaries since each record from there on was appended, oldest first
  strWritten : Nat       -- stream records written since enable
  strDone : Nat          -- the last producer count sent
  jtagPtr : Nat
  deriving DecidableEq, Repr

/-! ### Interrupts (chapter 13) -/

/-- One MSI-X vector: its table entry, its PBA bit, the tick boundaries left of its holdoff, and whether it is held for
a tenant reset (R321 to R324). -/
structure Vec where
  addr : Nat
  data : Nat
  masked : Bool
  pba : Bool
  ticksLeft : Nat
  since : Nat            -- tick boundaries since its last message
  held : Bool
  restored : Bool        -- its PBA bit was set by TENANT_RESTORE and waits for the thaw (R326)
  deriving DecidableEq, Repr

/-- A vector at reset: masked, as the PCI Express Base Specification requires (R326). -/
def Vec.reset : Vec := ⟨0, 0, true, false, 0, 0, false, false⟩

/-! ### Journal (chapter 15) -/

/-- The body of a journal record (Table WD-10). -/
inductive JBody where
  | genesis (dsn fw : Nat)
  | boot (cause slot flags fw seedEpoch seedEra devid mgrSel : Nat)
  | fault (group line cls fcMaster fcType fcAddr : Nat)
  | fatalReaction (faultWord injWord : Nat)
  | faultClear (mask issuer : Nat)
  | faultRelease
  | faultConfig (p : FaultCfg)
  | injMode (modes : Nat)
  | queueLost (corr other : Nat)
  | reset (kind tiller : Nat)
  | manager (new former : Nat)
  | update (event slot version counter : Nat)
  | checkpoint (epoch era : Nat)
  | eraRoll (era : Nat)
  | slip (before after : Nat)
  | anchor (hl : Nat) (reply : Bytes)
  | truncate (oldest prevChain : Nat)
  | exportMark (mark issuer : Nat)
  deriving DecidableEq, Repr

/-- A journal record: queued with its stamp, numbered and chained when it is programmed (Table WD-9, R390). -/
structure JRec where
  body : JBody
  flags : Nat
  stamp : Nat
  era : Nat
  seq : Nat
  boot : Nat
  chain : Nat
  sector : Nat              -- the sector it lies in, counted from GENESIS
  deriving DecidableEq, Repr

/-- An event that the Ward has latched: its line, whether it was injected, when, and whether INJECTED was set before it. -/
structure Latched where
  group : Nat
  line : Nat
  inj : Bool
  stamp : Nat
  era : Nat
  hadInj : Bool
  deriving DecidableEq, Repr

/-- The journal queue in PD_AON and the journal region of the flash (R390 to R394). -/
structure JournalS where
  last : Option Latched     -- the newest event that the Ward latched (R388)
  queue : List JRec
  recs : List JRec          -- programmed and still held, oldest first
  sector : Nat              -- bytes used in the sector the head is in
  headSector : Nat          -- sectors entered since GENESIS
  erasing : Bool            -- the oldest sector is being erased
  lostCorr : Nat
  lostOther : Nat
  boots : Nat               -- PD_AON resets since GENESIS
  chainBefore : Nat         -- CHAIN of the record before the oldest held
  ceiling : Option Nat      -- (era, EPOCH) of the newest CHECKPOINT programmed, erased or not (R38)
  bad : List Nat            -- SEQs of records that can no longer be read (R394)
  ckQueuedAt : Nat          -- (era, EPOCH) at which the waiting CHECKPOINT was queued
  reactLast : Bool          -- a reaction was in force at the last reset of PD_AON
  deriving DecidableEq, Repr

/-! ### Cadence (chapter 2) -/

/-- The cadence loop behind its registers (R27 to R38). Real times are in units of 2.5 ns. -/
structure CadS where
  stamp : Nat            -- the 64-bit stamp
  onNominal : Bool       -- the loop runs on CAD_NOMINAL
  toNominal : Bool       -- it does from the next epoch boundary
  period : Nat           -- the period in use, in 2.5 ns units
  refs : Nat             -- accepted pulses kept as references in ACQUIRING, at most 2
  prevInterval : Nat     -- the interval between the two newest references
  lastStamp : Nat        -- (era, stamp) at the last accepted pulse
  slew : Nat             -- 0 none, 1 running at 15/16, 2 running at 17/16
  slewTime : Nat         -- real time of the slew, in phase units
  lastSlip : Nat         -- (era, EPOCH) of the last slip, plus 1
  inLevel : Bool         -- filtered CADENCE_IN level, low at reset (DESIGN CHOICE, log entry 2)
  jumps : List (Nat × Nat)  -- slips since which packets received before them wait: where the stamp left and reached (R37)
  deriving DecidableEq, Repr

/-! ### Clocks and power (chapters 16 and 17) -/

/-- A power domain behind its PD_STATUS register (R413 to R417). -/
structure DomS where
  fromRet : Bool
  release : Bool                   -- release the pads when the wake ends
  regStarted : Bool                -- the regulator step has started
  bootWake : Bool                  -- the wake belongs to bring-up
  inReset : Option Nat             -- the TILLER_RESET that covers it, by its TILLER
  deriving DecidableEq, Repr

/-- A domain at reset. -/
def DomS.reset : DomS := ⟨false, false, false, false, none⟩

/-- The clock controller behind its registers (R398 to R407). -/
structure ClockS where
  switching : List (Nat × Nat × Bool)   -- selectors moving: the new source's CKID, and whether Table CK-3 moves it
  froRestarting : Bool
  froDue : Bool                         -- a blamed FRO restarts once AON and KEEP have left it (R403)
  asyncTrip : Option Nat                -- the source in use by AON tripped before the FRO was ready (R381)
  obsOn : Bool                          -- CLKOBS carries a clock (R405)
  fcRan : Bool                          -- the clock counted has run since START (R406)
  deriving DecidableEq, Repr

/-- Pins and fuses: what lies outside every reset (R428, R39, R454). -/
structure PinS where
  straps : Straps
  perst : Nat            -- bit n: PERST_N[n] asserted
  faultInLow : Bool
  resetLow : Bool        -- RESET_N low
  porLow : Bool          -- POR asserted
  vio33 : Bool           -- the range of VIO detected as POR last ended: 3.3 V, else 1.8 V (R489)
  refclk : Nat           -- bit p: REFCLKp present
  padDrive : Option PadInstr -- the boundary-scan instruction that drives the pads (R472)
  deriving DecidableEq, Repr

/-! ### Functions (chapters 3 and 4) -/

/-- The interrupt causes of Table IN-1 that FN_EVENTS holds. -/
inductive Cause where
  | reply | deadlineMiss | sheafLag | wardCorr | wardCont | wardFatal | hostlink | cadence | tenantBroken
  deriving DecidableEq, Repr

/-- The configuration space of a function: the fields that a rule of the spec reads (R56, R58, R61, R68, R75 to R81,
R149, R153, R375).  `numVfs`, `vfEnable`, `bar2Size` and the power and PME fields are the PF's. -/
structure FnCfg where
  bme : Bool
  mse : Bool
  msixEn : Bool
  fmask : Bool
  d3 : Bool
  pmeEn : Bool
  pmeStatus : Bool
  corrEn : Bool
  nonFatalEn : Bool
  fatalEn : Bool
  unsuppEn : Bool
  corMask : Nat
  uncMask : Nat
  uncSev : Nat
  corStatus : Nat
  uncStatus : Nat
  firstErr : Nat         -- AER First Error Pointer
  hdrLog : Nat           -- AER Header Log, 128 bits
  roEn : Bool
  idoEn : Bool
  atomicEn : Bool
  extTag : Bool
  tag10 : Bool
  tag14 : Bool
  maxPayload : Nat
  maxReadReq : Nat
  ctoValue : Nat
  aspmL1 : Bool
  rcb128 : Bool          -- Link Control: the host's Read Completion Boundary is 128 bytes
  ltrEn : Bool
  ltrMaxSnoop : Nat
  ltrMaxNoSnoop : Nat
  l1ss : Nat
  ptmEn : Bool
  romEn : Bool
  sysPage : Nat
  vfEnable : Bool
  numVfs : Nat
  vfsReady : Bool
  bar2Size : Nat
  bar0 : Nat             -- bases as the host wrote them; a read shows what the size leaves of them (R79)
  bar2 : Nat
  bar4 : Nat
  romBar : Nat
  vfBar0 : Nat
  vfBar2 : Nat
  vfBar4 : Nat
  deriving DecidableEq, Repr

/-- Configuration space at reset: what the PCI Express Base Specification gives the fields (log entry 4). -/
def FnCfg.reset : FnCfg where
  bme := false
  mse := false
  msixEn := false
  fmask := false
  d3 := false
  pmeEn := false
  pmeStatus := false
  corrEn := false
  nonFatalEn := false
  fatalEn := false
  unsuppEn := false
  corMask := 0xE000
  uncMask := 0x00400000
  uncSev := 0x00462030
  corStatus := 0
  uncStatus := 0
  firstErr := 0
  hdrLog := 0
  roEn := true
  idoEn := false
  atomicEn := false
  extTag := true
  tag10 := false
  tag14 := false
  maxPayload := 0
  maxReadReq := 2
  ctoValue := 0
  aspmL1 := false
  rcb128 := false
  ltrEn := false
  ltrMaxSnoop := 0
  ltrMaxNoSnoop := 0
  l1ss := 0
  ptmEn := false
  romEn := false
  sysPage := 1
  vfEnable := false
  numVfs := 0
  vfsReady := false
  bar2Size := 6
  bar0 := 0
  bar2 := 0
  bar4 := 0
  romBar := 0
  vfBar0 := 0
  vfBar2 := 0
  vfBar4 := 0

/-! ### Host requests (chapters 5, 6, 10 to 14) -/

/-- Who asked for a host request, and what its answer is for (Tables RQ-1 and RQ-5). -/
inductive HSrc where
  | window (wl lane tag win part : Nat) (ack last : Bool)   -- outbound window packet; `part` its place in the packet
  | sheafCopy (pkt d wl lane : Nat)                         -- destination `d`'s copy of held packet `pkt`
  | gap (sheaf d wl lane : Nat)                             -- gap record
  | sheafFlush (sheaf wl lane tag : Nat)
  | intr (wl lane v win : Nat)                                  -- interrupt MSG behind its lane's earlier packets
  | dmaFetch (ch addr : Nat)
  | dmaReread (ch addr : Nat)
  | dmaRead (ch desc off : Nat)
  | dmaWrite (ch desc : Nat)
  | dmaFlush (ch : Nat)
  | dmaWriteBack (ch : Nat)
  | runAhead (ch addr token : Nat)
  | readAhead (ch desc off : Nat)
  | msix (v : Nat) (lane : Option (Nat × Nat))   -- `lane`: the link and order lane of the interrupt MSG that raised it (R123)
  | cmdHeader (slot : Nat)
  | cmdParams (slot : Nat) (hdr : Bytes)
  | reply (header : Bool)
  | logRead (tn line : Nat)
  | logWrite (tn line : Nat)
  | harvestFlush (tn : Nat) (bitmaps : Bool)
  | freezeFlush (tn : Nat)
  | stream (counted : Option (Nat × Nat))
  deriving DecidableEq, Repr

/-- What a host request is on the wire. -/
inductive HKind where
  | write | read | flush | atomic (sub : Nat)
  deriving DecidableEq, Repr

/-- A host request waiting for, or placed in, a host link's transmit order (R132).  `tn` is the tenant it is issued
for, 256 for a PF; `charge` the bytes its bucket is charged (R280); `cls` its window class and `deadline` the (era,
stamp) phase deadline of a cadence-class packet (R109, R112). -/
structure HReq where
  fn : Fn
  kind : HKind
  addr : Nat
  len : Nat
  data : Bytes
  ro : Bool
  ido : Bool
  src : HSrc
  tn : Nat
  gen : Nat
  charge : Nat
  cls : Nat
  deadline : Nat
  late : Bool
  stalled : Bool        -- its wait for a dirty-filter line has been counted (R298)
  frozen : Bool         -- held by the freeze of its tenant (Table MG-4)
  deriving DecidableEq, Repr

/-- A tag held on a host link (R134 to R151): the request it answers, the bytes received, the cells it still holds,
whether it is in quarantine, whether its completions are to be dropped (R156), and whether its cells lie in the spare
buffer (R146). -/
structure HTag where
  req : HReq
  tag : Nat
  got : Nat
  data : Bytes
  cells : Nat
  quarantined : Bool
  timedOut : Bool
  dropped : Bool
  spare : Bool
  deriving DecidableEq, Repr

/-! ### Requests of local designs, and requests to them (chapters 5, 8 and 9) -/

/-- A request of a local design that the bridge has not finally answered (R224, R225): its host requests still to end,
the bytes returned, and the error met. -/
structure LocReq where
  wl : Nat
  tag : Nat
  lane : Nat
  typ : Nat
  addr : Nat
  len : Nat
  tn : Nat
  hl : Nat
  win : Nat                     -- the outbound entry that took it
  parts : Nat
  done : List (Nat × Bytes)     -- answered parts not yet returned, by part
  returned : Nat
  sentParts : Nat
  status : Nat
  cause : Nat
  deriving DecidableEq, Repr

/-- What a packet toward a local design is for. -/
inductive WSrc where
  | hostWrite (fn win : Nat)          -- of function `fn`, through inbound entry `win`
  | hostRead (fn rd part : Nat)
  | dmaRead (ch desc off : Nat)
  | dmaWrite (ch desc : Nat)
  | peerMrd (ch desc : Nat)
  | doorbell
  | response
  | ident
  deriving DecidableEq, Repr

/-- A packet waiting for credit on a Weaseif link (R191, R221). -/
structure WPkt where
  pkt : Pkt
  src : WSrc
  tn : Nat
  gen : Nat
  charge : Nat
  deriving DecidableEq, Repr

/-- A request of the bridge outstanding on a Weaseif link (R224, R228). -/
structure WTag where
  tag : Nat
  pkt : Pkt
  src : WSrc
  tn : Nat
  gen : Nat
  got : Nat
  data : Bytes
  ticksLeft : Nat
  quarantined : Bool
  down : Nat            -- the code with which it ends once the answers accepted before its link went down are acted on, 0 none (R205)
  deriving DecidableEq, Repr

/-- A host read of an inbound window not yet completed to the host (R107). -/
structure InRd where
  id : Nat
  req : HostMem
  parts : Nat
  done : List (Nat × Bytes)
  sent : Nat
  failed : Nat          -- 0 no, 1 UR, 4 CA
  down : Bool           -- its host link has gone down meanwhile (R63)
  win : Nat
  tn : Nat              -- the tenant it was translated for, 256 for a PF
  deriving DecidableEq, Repr

/-- A host request as an inbound entry has translated it (R105, R108): the entry, and the tenant with its generation. -/
structure InReq where
  req : HostMem
  win : Nat
  link : Nat
  lane : Nat
  addr : Nat
  tn : Nat
  gen : Nat
  deriving DecidableEq, Repr

/-! ### Sheaves (R114 to R121) -/

/-- How far a destination's copy of a held packet is. -/
inductive CopyS where
  | none | waiting | accepted | discarded
  deriving DecidableEq, Repr

/-- A packet held for a sheaf in its ingress link's receive buffer (R116). -/
structure SheafPkt where
  id : Nat
  sheaf : Nat
  pkt : Pkt
  wl : Nat
  offset : Nat
  era : Nat
  epoch : Nat
  copies : List CopyS
  win : Nat
  deriving DecidableEq, Repr

/-- A sheaf destination behind its registers: its gap log and the episode in progress (R118, R119), and whether an
episode's record waits (R121). -/
structure DestS where
  gapSeq : Nat
  gapSlot : Nat
  first : Bool          -- the episode holds at least one discarded copy
  era : Nat
  epochFirst : Nat
  epochLast : Nat
  offset : Nat
  endOff : Nat
  dropped : Nat
  owed : Bool           -- a record is to be written ahead of the next copy (R121)
  growing : Bool        -- its lag grew at the last tick boundary (R117)
  deriving DecidableEq, Repr

/-- A destination at reset. -/
def DestS.reset : DestS := ⟨0, 0, false, 0, 0, 0, 0, 0, 0, false, false⟩

/-- What a sheaf flush of a lane must cover: the last byte of the latest accepted copy on each host link (R120). -/
structure SheafAcc where
  sheaf : Nat
  lane : Nat
  fn : Fn
  tn : Nat
  lastByte : Nat
  newer : Bool          -- accepted after the last flush of the lane was issued
  deriving DecidableEq, Repr

/-! ### DMA channels (chapter 10) -/

/-- A descriptor the channel has fetched (Tables DM-1 and DM-2) and how far its transfer is. -/
structure Desc where
  id : Nat
  addr : Nat
  next : Nat
  src : Nat
  dst : Nat
  len : Nat
  ctrl : Nat
  srcSpace : Nat
  dstSpace : Nat
  status : Nat
  issued : Nat          -- source bytes asked for
  arrived : Nat         -- source bytes arrived and written on
  early : List (Nat × Bytes)      -- bytes arrived ahead of their turn, by offset
  writesOut : Nat       -- writes not yet issued or answered
  covered : Bool        -- its last host write was issued before the flush read now outstanding
  flushed : Bool        -- a flush read behind its last host write has completed
  peerMrd : Nat         -- peer link: 0 not needed or not yet, 1 outstanding, 2 completed (R479)
  retries : Nat
  failed : Nat          -- code of a retried error whose requests have not all ended, 0 none; 16: it starts again, uncounted
  noAhead : Bool        -- a read-ahead read of it has failed: no more of its data is read ahead (R267)
  deriving DecidableEq, Repr

/-- A channel behind its registers (R253 to R271): its resume point, the descriptors not yet complete in chain order
(the last one current), those fetched ahead, what is outstanding, and what is still to be done. -/
structure ChanS where
  resumeNext : Bool            -- the resume point is the NEXT field at `resume`
  resume : Nat
  descs : List Desc
  ahead : List Desc
  nextId : Nat
  fetching : Bool
  flushOut : Bool
  flushAgain : Bool
  lastWrite : Nat              -- host address of the last byte written
  dbSinceFetch : Bool          -- a doorbell since the newest fetch was issued (R254, R255)
  enAgain : Bool
  fetchRetries : Nat
  fetchFailed : Nat            -- 0 no, 1 a failed fetch, 2 a failed NEXT re-read is to be issued again
  raToken : Nat                -- token of the run-ahead fetch still wanted, 0 none
  noWriteBack : Bool
  curAddr : Nat
  curOpen : Bool               -- CH_CUR and CH_BYTES undefined (R271)
  goOn : Nat                   -- NEXT of the newest current descriptor while it is still to be followed, 0 none
  dbOwed : Nat                 -- descriptors a doorbell discarded that are still to be fetched again (R256)
  raFailed : Nat               -- address of the descriptor whose run-ahead fetch failed, 0 none (R267)
  raAsked : Nat                -- its turn for a full descriptor prefetch storage, 0 none (R266)
  deriving DecidableEq, Repr

/-- A channel at reset. -/
def ChanS.reset : ChanS :=
  ⟨false, 0, [], [], 1, false, false, false, 0, false, false, 0, 0, 0, false, 0, false, 0, 0, 0, 0⟩

/-! ### Tenants and migration (chapters 11 and 12) -/

/-- A tenant behind its TENANT block (R273, R279, R305 to R314). -/
structure TenS where
  chans : List Nat                  -- global channel numbers in tenant-local order
  regions : List (Nat × Nat)        -- run-ahead regions, base and size
  newRate : Option (Nat × Nat)      -- RATE and DEPTH that apply at the next tick boundary
  quiesced : Bool
  freezeEra : Nat
  freezeEpoch : Nat
  freezeStamp : Nat
  freezeOut : Bool                  -- the flush read of the freeze has been issued or is not needed
  freezeFlushed : Bool
  snapshot : Option Bytes
  restoreBuf : Bytes
  doorbells : List Nat              -- channels with a doorbell recorded while frozen
  homeHl : Nat
  lastByte : Option Nat             -- last byte of the newest host write issued
  bucket : Int                      -- the content of its bucket in bytes, of which TENANT.BUCKET shows the low 32 bits
  deriving DecidableEq, Repr

/-- A TNID with no tenant. -/
def TenS.reset : TenS :=
  ⟨[], [], none, false, 0, 0, 0, false, false, none, [], [], 0, none, 0⟩

/-- A harvest past its boundary (R301). -/
structure HarvestS where
  harvested : Nat
  startEpoch : Nat
  endEra : Nat
  endEpoch : Nat
  linesWritten : Nat
  pagesSet : Nat
  outOfRange : Nat
  allDirty : Bool
  pfFlush : Bool
  bitmapFlush : Bool          -- the flush read of step 4 has been issued
  flushesLeft : Nat
  deriving DecidableEq, Repr

/-- Dirty logging of a tenant (R294 to R303). -/
structure LogS where
  base : Nat
  pages : Nat
  logHl : Nat
  bitmapA : Nat
  bitmapB : Nat
  active : Nat
  startEpoch : Nat
  allDirty : Bool
  linesWritten : Nat
  pagesSet : Nat
  outOfRange : Nat
  idoUsed : Bool
  lastBitmap : Option Nat     -- last byte of the newest bitmap write issued
  harvest : Option HarvestS
  ending : Bool               -- LOG_CONFIG with PAGES 0 writes back before it replies
  deriving DecidableEq, Repr

/-- A line of a tiller's dirty filter (R297): the tenant and bitmap it copies, its line number, its bits, those set
while it is read, and whether it is modified or being read. -/
structure DirtyLine where
  tiller : Nat
  tn : Nat
  bitmap : Nat
  line : Nat
  bits : Nat
  modified : Bool
  reading : Bool
  deriving DecidableEq, Repr

/-! ### Host links (chapter 3) -/

/-- A host link behind its HOSTLINK block (R50 to R67). -/
structure HlS where
  disabled : Bool          -- the partner directs Disabled
  pfLoaded : Bool          -- configuration and directory loaded (R426)
  drsSent : Bool
  vfPending : Bool         -- VF Enable set and the VFs not yet ready (R65)
  ltrActive : Bool         -- the active latency has been sent
  idleTicks : Nat          -- ticks without a TLP
  txBytes : Nat            -- TLP payload sent in the tick that runs (R53)
  rxBytes : Nat            -- TLP payload received in it
  lowTicks : Nat           -- ticks in a row below L0P_LOW of the halved width (R53)
  margining : List (Nat × Nat)   -- lanes being margined: the command in force, and its answer above bit 16
  fullWidth : Nat          -- width trained
  speed : Nat              -- speed in use, kept while CUR_SPEED shows 0 outside L0
  eqSpeeds : Nat           -- bit n: the speed with code n stands equalised (R52)
  partnerFlit : Bool
  wakeDriven : Bool
  inL2 : Bool              -- in L2, or in reset from it
  dirGen : Nat             -- GENERATION of the directory served
  dir : Bytes              -- that directory, from MAGIC on
  rom1 : Bytes             -- image 1 as served beside it
  dirDue : Bool            -- a change waits for the Keeper to rebuild it
  deficit : Tbl Nat        -- arbitration deficits by tenant, 256 for PFs (R283)
  bulkOwed : Tbl Int       -- normal bytes served less seven times the bulk bytes, while both wait, by tenant (R109)
  subsysVendor : Nat       -- Subsystem IDs loaded at the last reset of PD_TL (R349)
  subsysId : Nat
  chTurn : Tbl Nat         -- by tenant, one more than the channel served last (R259)
  inWait : List InReq      -- host requests that wait for a held Weaseif link (R204)
  pfVecs : Bool            -- the PF's 32 vectors are drawn from the pool (R87)
  perstFell : Bool         -- PERST_N fell while the tiller was not ON: the functions are reset when it is (R60)
  stale : List HTag        -- quarantined tags discarded with the domain (R412)
  deriving DecidableEq, Repr

/-- A host link at reset. -/
def HlS.reset : HlS :=
  ⟨false, false, false, false, false, 0, 0, 0, 0, [], 0, 0, 0, false, false, false, 0, [], [], false, [], [], 0x1D5E, 1, [], [], false, false, []⟩

/-! ### Keeper (chapter 14) -/

/-- The commands that accept AT_EPOCH, or always act at a boundary (Table KP-5), as they wait in the schedule. -/
inductive AtCmd where
  | tenantModify (p : TenantParams)
  | outwinSet (index : Nat) (w : OutWin)
  | inwinSet (index : Nat) (w : InWin)
  | intwinSet (index : Nat) (w : IntWin)
  | sheafSet (index : Nat) (img : SheafImg)
  | logHarvest
  | tenantFreeze
  | tenantThaw
  | cadenceAnchor (hl : Nat) (taiOffset : Nat)
  | pdSet (dom state flags : Nat)
  | tillerReset (tiller : Nat)
  | updateActivate
  | traceFilter (p : FilterParams)
  deriving DecidableEq, Repr

/-- A scheduled command (R337): the ring's count of enables when it was accepted (R366), the authority it was accepted
under (R347), and the (era, EPOCH) it is due at. -/
structure Sched where
  req : CmdReq
  cmd : AtCmd
  due : Nat
  ringGen : Nat
  mgr : Bool
  deriving DecidableEq, Repr

/-- A command whose reply waits on the datapath (R336). -/
structure Waiting where
  req : CmdReq
  opcode : Nat
  key : Nat               -- TARGET, DOMAIN or TILLER
  ringGen : Nat
  deriving DecidableEq, Repr

/-- A command context of the Keeper (R330): the command being fetched or executed. -/
structure Ctx where
  iss : Issuer
  opcode : Nat
  tag : Nat
  slots : Nat             -- reply slots reserved
  fetched : Bool
  ringGen : Nat
  unknown : Nat           -- the status that answers an opcode outside Table KP-5 in its turn, 0 for one of the table
  deriving DecidableEq, Repr

/-- The anchor past its boundary (R39). -/
structure AnchorS where
  req : CmdReq
  hl : Nat
  taiOffset : Nat
  era : Nat
  epoch : Nat
  flags : Nat
  deriving DecidableEq, Repr

/-- The Keeper and the sideband port behind their registers (R330 to R367). -/
structure KeeperS where
  ctxs : List Ctx
  sched : List Sched
  waiting : List Waiting
  anchor : Option AnchorS
  ringGen : Tbl Nat
  actGen : Option Nat             -- count of enables under which the scheduled command now executing was accepted
  actMgr : Option Bool            -- whether its issuer had manager authority then (R347, R367)
  rr : Nat                        -- ring served last
  bootStage : Nat                 -- 0 booted; bring-up waits for 1 POR's end, 2 the FRO, 3 PD_KEEP and the ROM, 4 a clock source,
                                  -- 5 the KEEP clock on the KEEP PLL, 6 PD_HUB
  bootTorn : Bool                 -- the ROM discarded a torn journal tail
  bootBad : Bool                  -- a Keeper bank failed the ROM's test
  drainKind : Nat                 -- 0 not draining; restart for 1 an activation, 2 a revert
  smpCmds : List Bytes            -- command frames held
  smpHeld : Nat                   -- frames fetched and not yet answered
  smpReplies : List Bytes         -- at most 8
  smpLate : List Bytes            -- replies that wait for room in that queue
  smpFlags : Nat                  -- CRC_ERR, FRAME_ERR and OVERFLOW as in Table KP-10
  snapshots : List (Nat × Bytes)  -- DIRECTORY_READ snapshots by issuer
  exprom : Bytes                  -- pieces of an incomplete expansion ROM image
  expromTotal : Nat
  expromEpoch : Nat
  mgrHl : Nat
  mgrSmp : Bool
  deriving DecidableEq, Repr

/-- The configuration store in flash (R44, R71, R81, R347 to R355, R385). -/
structure StoreS where
  bifur : Tbl Nat
  clkmode : Tbl Nat
  speed : Tbl Nat
  totalVfs : Tbl Nat
  initialVfs : Tbl Nat
  vfBar2 : Tbl Nat
  bar2Size : Tbl Nat
  wlink : List (Nat × Nat × Nat)      -- link, SELECT bit, value
  classes : List (Nat × Nat × Nat)    -- group, line, class
  minw : Option Nat
  smpTake : Bool
  subsysVendor : Nat
  subsysId : Nat
  rom : Bytes                         -- image 1
  deriving DecidableEq, Repr

/-- An empty configuration store. -/
def StoreS.empty : StoreS :=
  ⟨[], [], [], [], [], [], [], [], [], none, true, 0x1D5E, 1, []⟩

/-! ### What the block sends and drives -/

/-- Messages on a host link (R57, R58, R65, R375). -/
inductive HMsg where
  | drs | frs | errCor | errNonFatal | errFatal | pmPme | ltr (snoop noSnoop : Nat) | ltrNone | ptmRequest
  deriving DecidableEq, Repr

/-- Output pins. -/
inductive Pin where
  | faultN | wakeN (p : Nat) | clkreqN (n : Nat) | smpIrqN | cadenceOut | clkobs
  deriving DecidableEq, Repr

/-! ### Weaseif links (chapters 7 to 9) -/

/-- A grain kept in the replay buffer until it is acknowledged (R189, R193). -/
structure TxGrain where
  typ : Nat
  sop : Nat
  eop : Nat
  seq : Nat
  counted : Nat                -- packets that a flush counts whose last grain it is (Table WL-9)
  payload : Bytes
  deriving DecidableEq, Repr

/-- A packet received and not yet acted on: the instant of its first grain in phase units (R112), and whether its link has
started fresh since it was accepted (R205). -/
structure RxPkt where
  first : Nat
  pkt : Pkt
  old : Bool
  deriving DecidableEq, Repr

/-- The link layer of a Weaseif link behind its WEASEIF block (R181 to R215): the replay buffer, the INIT exchange, the
credits of both directions (posted, non-posted, completion), what waits to be sent and to be answered, the packet being
assembled, and the reshape in progress. -/
structure WlS where
  replay : List TxGrain
  replayRetrained : Bool       -- the retrain for the oldest grain has been asked for
  rtHeld : Nat                 -- grains held when the last retrain began and not yet acknowledged (R212)
  msgQ : List Bytes            -- link messages waiting for a place in the replay buffer
  linkId : Nat
  peerLinkId : Nat             -- the partner's identifier, once known
  resume : Bool                -- the exchange in progress offers a resume
  initSeen : Bool              -- an INIT of the partner has been seen in this exchange
  initDone : Bool              -- the partner has confirmed ours
  credInit : List Nat          -- credits the partner advertised, by class (R191)
  partnerRet : List Nat        -- totals the partner has returned, by class
  used : List Nat              -- totals of credit taken by packets sent, by class
  freed : List Nat             -- totals of credit returned to the partner, by class
  taken : List Nat             -- totals of credit the partner's packets have taken, by class
  accAny : Bool                -- a grain has been accepted since the last INIT (R189)
  ackPending : Nat             -- grains accepted since the ACK value last sent
  linkQ : List WPkt
  wlTags : List WTag
  rxAsm : Option Bytes         -- bytes of the packet being received, with its header
  rxFirst : Nat                -- instant of its first grain
  rxQ : List RxPkt
  arrived : Nat                -- instant of the first grain of the packet taken last (R112)
  laneLast : List (Nat × Nat × Nat)   -- last byte written by an order lane to a function: lane, function, address
  ident : Option Pkt           -- the partner's IDENT payload
  peerLink : Bool              -- negotiated as a peer link
  maxRd : Nat
  lrspTo : Nat
  rsRole : Nat                 -- reshape: 0 none, 1 requester, 2 responder
  rsId : Nat
  rsSet : Nat
  rsStage : Nat                -- 1 LANE_REQ sent, 2 training, 3 ready, 4 switching
  rsTicks : Nat
  rsTxSwitched : Bool
  rsRxSwitched : Bool
  rsReadySent : Bool
  rsReadyRcvd : Bool
  rsNextId : Nat
  deficit : Tbl Nat            -- arbitration deficits by tenant, 256 for PFs (R283)
  chTurn : Tbl Nat             -- by tenant, one more than the channel served last (R259)
  rsGone : List Nat            -- REQ_IDs of requests abandoned without an answer (R214)
  txHalf : Option TxGrain      -- a DATA grain that waits for the packet to fill its second half (R184)
  deriving DecidableEq, Repr

/-- The physical layer of a Weaseif link behind its WLANE block (R161 to R180). -/
structure WpS where
  clockSeen : Bool
  roleReported : Bool
  ts2 : Option Ts2
  chosenRate : Nat
  chosenSet : Nat
  fails : Nat                  -- consecutive failed attempts at `failRate`
  rateCap : Nat                -- highest rate still tried
  chose : Bool                 -- the attempt in progress has a rate chosen
  failRate : Nat
  enLanes : Nat                -- LANE_EN, TARGET_RATE and MIN_WIDTH as last applied (Table WP-6)
  tgtRate : Nat
  minW : Nat
  txSet : Nat
  rxSet : Nat
  txAlign : Nat                -- alignment blocks sent since the grains started
  rxAlign : List Nat           -- COUNT last expected, by logical lane, 65536 before the first block in place
  badRun : List Nat            -- consecutive alignment blocks not in place, by logical lane
  lastRate : Nat               -- rate of the last entry to ACTIVE, 4 before the first
  prevL : List Nat             -- lane states before TEST, by lane
  injPend : List Nat           -- bits of a single or burst injection still pending, by lane
  bgPassed : Nat               -- lanes that passed background training
  injAcc : List Nat            -- by lane, 0, or a rate injection's bits since it last flipped one, plus 1 (R177)
  txSlot : Nat                 -- grain slots since the last alignment block sent (R166)
  deriving DecidableEq, Repr

/-! ### Firmware update (chapter 18) -/

/-- A firmware slot (R437 to R443): whether it is valid, its image's header, and the chunks stored, each with its tag. -/
structure SlotS where
  valid : Bool
  header : Bytes
  chunks : List (Nat × Bytes)
  spare : List Nat                  -- chunks that lie in spare places, in the order of those places (R437)
  deriving DecidableEq, Repr

/-- Firmware update, the slots and the fuses (R436 to R456). -/
structure UpdS where
  state : Nat
  recvSlot : Nat                    -- the receiving or trial slot
  pieces : List (Nat × Nat × Bytes) -- halves held in Keeper SRAM, oldest first: chunk, piece, bytes
  slotA : SlotS
  slotB : SlotS
  active : Nat                      -- 0 slot A, 1 slot B, 2 none
  running : Nat                     -- slot running, 2 none
  trial : Bool                      -- a trial slot is recorded
  trialBooted : Bool
  trialEnd : Nat                    -- (era, EPOCH) at which the trial ends
  revertFailed : Bool
  keepStrap : Bool                  -- RECOVERY_N is ignored at the next boot (R456)
  fwVersion : Nat
  arbFuse : Nat
  oemHash : Option Nat              -- OEM key hash fuses, when programmed (R439)
  familyKey : Nat
  deviceKey : Nat
  dsn : Nat
  deriving DecidableEq, Repr

/-! ### What the block sends and drives -/

/-- What a transmit lane, or the clock lane, of a Weaseif link carries (R162, R166, R172 to R178). -/
inductive LaneTx where
  | idle                     -- electrical idle
  | training                 -- training blocks
  | grains                   -- grains and alignment blocks
  | zeros                    -- scrambled zeros and alignment blocks
  | background               -- PRBS31 restarted after each alignment block, and the alignment blocks
  | prbs (n m : Nat)         -- the pattern of x^n + x^m + 1
  | clock (rate : Nat)       -- a quarter of a rate of Table WP-2
  | fedBack                  -- near-end loopback: back to the receiver inside the PHY, the pads idle
  | echoed                   -- far-end loopback: what is received, bit for bit
  deriving DecidableEq, Repr

/-- What the block sends or drives, in order: the block's side of every link, bus and pin. -/
inductive Out where
  /-- A request TLP on a host link, with its tag (0 for a posted write). -/
  | tlp (r : HReq) (tag : Nat)
  /-- A message TLP. -/
  | msg (fn : Fn) (m : HMsg)
  /-- A completion to the host for its request `hostTag`: 0 SC, 1 UR, 2 RRS, 4 CA, with the bytes still to come and the
  data. -/
  | cpl (fn : Fn) (hostTag status byteCount : Nat) (data : Bytes)
  /-- The completion of an access to a register region, at an offset of a BAR: 0 SC with the bytes read, 1 UR. -/
  | reg (fn : Fn) (bar off status : Nat) (data : Bytes)
  /-- An output pin changes. -/
  | pin (p : Pin) (high : Bool)
  /-- A pulse of the given width in ns. -/
  | pulse (p : Pin) (widthNs : Nat)
  /-- A grain on a Weaseif link, and its bytes as they go out on each active logical lane, scrambled. -/
  | grain (wl : Nat) (g : Grain) (lanes : List (Nat × Bytes))
  /-- Training blocks of a link, by transmit lane: the first of those sent back to back. -/
  | train (wl : Nat) (blocks : List (Nat × Bytes))
  /-- An alignment block of a link, by transmit lane. -/
  | align (wl : Nat) (blocks : List (Nat × Bytes))
  /-- What a transmit lane of a link, 4 for its clock, carries from now on. -/
  | lane (wl lane : Nat) (what : LaneTx)
  /-- Bytes shifted out on the sideband management port. -/
  | smp (b : Bytes)
  /-- Bytes or a word captured by JTAG. -/
  | jtag (b : Bytes)
  /-- A host link's physical layer is told to do something: detect, retrain, change speed or width, enter a low-power
  state, answer a margining command. -/
  | phy (hl what arg : Nat)
  /-- The boundary-scan instruction that drives the pads from now on; none releases them. -/
  | pads (i : Option PadInstr)
  /-- CLKOBS starts a source with a divider. -/
  | clkobs (sel div : Nat)
  deriving DecidableEq, Repr

/-- A slot that holds no image. -/
def SlotS.empty : SlotS := ⟨false, [], [], []⟩

/-- Slot A of a module as shipped: a confirmed image, whose bytes the spec does not give (R500, log entry 3). -/
def SlotS.shipped : SlotS := ⟨true, Config.shippedHeader, Config.shippedChunks, []⟩

/-- A journal without a record. -/
def JournalS.empty : JournalS :=
  { last := none, queue := [], recs := [], sector := 0, headSector := 0, erasing := false, lostCorr := 0, lostOther := 0,
    boots := 0, chainBefore := 0, ceiling := none, bad := [], ckQueuedAt := 0, reactLast := false }

/-- Bytes 0 to LEN − 49 of the GENESIS record of a module as shipped, at stamp 0 and with a Device Serial Number and an FW_VERSION of
0 (Tables WD-9 and WD-10; DESIGN CHOICE, log entry 3). -/
def genesisHead : Bytes :=
  [0x4A, 0x57, 1, 0, 96, 0, 0, 0, 1, 0, 0, 0, 0, 0, 0, 0] ++ List.replicate 32 0

/-- The journal of a module as shipped: its GENESIS record (R500), before the first reset of PD_AON since. -/
def JournalS.shipped : JournalS :=
  { JournalS.empty with
    recs := [⟨.genesis 0 0, 0, 0, 0, 1, 0, Config.sha384 (List.replicate 48 0 ++ genesisHead), 0⟩]
    sector := 96
    boots := 1 }

/-- The 64-bit read latch of a function and block (R7): the register it names and the high word it holds. -/
structure Latch where
  fn : Nat
  key : RegKey
  high : Nat
  deriving DecidableEq, Repr

/-! ### Outcomes -/

/-- Why a step stops with a fault. -/
inductive Fault where
  /-- The command's operand cannot occur on the wire: a grain whose payload is not 64 bytes (Table WL-1).  Raised by
  GRAIN_RECEIVED; safe: the block never meets such input. -/
  | illFormed (what : String)
  deriving DecidableEq, Repr

/-- Why a command is refused. -/
inductive Refusal where
  /-- The command has no meaning in this model yet.  Raised by `exec`'s arm of it; safe: nothing is claimed of it. -/
  | notModelled (mnemonic : String)
  deriving DecidableEq, Repr

/-! ### The state -/

/-- The state of the block. -/
structure State where
  /-- The commands that wait, first in, first out. -/
  pending : List Instr
  /-- The register fields that do not hold their reset value. -/
  regs : Regs
  /-- What the block has sent and driven, oldest first. -/
  out : List Out
  /-- The model's own counter of free values met (log entry 10). -/
  free : Nat
  latches : List Latch
  cfg : Tbl FnCfg
  vecs : Tbl Vec
  /-- Causes held for dark or RESETTING functions, by function index (R319, R292). -/
  heldCauses : List (Nat × Cause)
  trace : TraceS
  journal : JournalS
  cad : CadS
  doms : Tbl DomS
  clocks : ClockS
  pins : PinS
  hls : Tbl HlS
  /-- Host requests waiting for their link's transmit order, oldest first. -/
  hostQ : List HReq
  tags : List HTag
  locReqs : List LocReq
  wls : Tbl WlS
  wps : Tbl WpS
  inRds : List InRd
  sheafPkts : List SheafPkt
  /-- Packets that have entered a sheaf: the identifier of the newest. -/
  pktCount : Nat
  dests : Tbl DestS
  sheafAcc : List SheafAcc
  consLast : Tbl Nat          -- function served last in conservative mode, by tiller (R144)
  chans : Tbl ChanS
  tens : Tbl TenS
  logs : Tbl LogS
  dirty : List DirtyLine
  keeper : KeeperS
  store : StoreS
  upd : UpdS
  deriving DecidableEq, Repr

/-! ### Reset -/

/-- A Weaseif link at reset (R203). -/
def WlS.reset : WlS where
  replay := []
  replayRetrained := false
  rtHeld := 0
  msgQ := []
  linkId := 0
  peerLinkId := 0
  resume := false
  initSeen := false
  initDone := false
  credInit := [0, 0, 0]
  partnerRet := [0, 0, 0]
  used := [0, 0, 0]
  freed := [0, 0, 0]
  taken := [0, 0, 0]
  accAny := false
  ackPending := 0
  linkQ := []
  wlTags := []
  rxAsm := none
  rxFirst := 0
  rxQ := []
  arrived := 0
  laneLast := []
  ident := none
  peerLink := false
  maxRd := 512
  lrspTo := 256
  rsRole := 0
  rsId := 0
  rsSet := 0
  rsStage := 0
  rsTicks := 0
  rsTxSwitched := false
  rsRxSwitched := false
  rsReadySent := false
  rsReadyRcvd := false
  rsNextId := 0
  deficit := []
  chTurn := []
  rsGone := []
  txHalf := none

/-- The physical layer of a Weaseif link at reset. -/
def WpS.reset : WpS where
  clockSeen := false
  roleReported := false
  ts2 := none
  chosenRate := 0
  chosenSet := 0
  fails := 0
  rateCap := 3
  chose := false
  failRate := 0
  enLanes := 15
  tgtRate := 3
  minW := 0
  txSet := 0
  rxSet := 0
  txAlign := 0
  rxAlign := [65536, 65536, 65536, 65536]
  badRun := [0, 0, 0, 0]
  lastRate := 4
  prevL := [0, 0, 0, 0]
  injPend := [0, 0, 0, 0]
  bgPassed := 0
  injAcc := [0, 0, 0, 0]
  txSlot := 0

/-- The machine right after the reset of PD_AON: every register at the reset value of its table, no memory, queue or
buffer holding anything, no domain powered.  What the flash, the fuses and the strap pins hold is loaded by POR_RELEASE
and ROM_BOOT; the values here are those of an empty flash (log entries 2 to 5). -/
def State.reset : State where
  pending := []
  regs := []
  out := []
  free := 0
  latches := []
  cfg := []
  vecs := []
  heldCauses := []
  trace := { srcQ := [], ring := [], restart := 0, filter := TraceFilter.reset,
             hubResumed := false, strSize := 0, strBatch := 0, strBase := 0, strProd := 0, strNext := 0,
             strSent := 0, strWaited := [], strWritten := 0, strDone := 0, jtagPtr := 0 }
  journal := JournalS.shipped
  cad := { stamp := 0, onNominal := true, toNominal := false, period := 4000000, refs := 0, prevInterval := 0,
           lastStamp := 0, slew := 0, slewTime := 0, lastSlip := 0, inLevel := false, jumps := [] }
  doms := []
  clocks := { switching := [], froRestarting := false, froDue := false, asyncTrip := none, obsOn := false, fcRan := false }
  pins := { straps := ⟨0, 0, false⟩, perst := 2 ^ 32 - 1, faultInLow := false, resetLow := false, porLow := true,
            vio33 := false, refclk := 0, padDrive := none }
  hls := []
  hostQ := []
  tags := []
  locReqs := []
  wls := []
  wps := []
  inRds := []
  sheafPkts := []
  pktCount := 0
  dests := []
  sheafAcc := []
  consLast := []
  chans := []
  tens := []
  logs := []
  dirty := []
  keeper := { ctxs := [], sched := [], waiting := [], anchor := none, ringGen := [], actGen := none, actMgr := none, rr := 0, bootStage := 1,
              bootTorn := false, bootBad := false, drainKind := 0, smpCmds := [], smpHeld := 0, smpReplies := [], smpLate := [], smpFlags := 0, snapshots := [],
              exprom := [], expromTotal := 0, expromEpoch := 0, mgrHl := 0, mgrSmp := false }
  store := StoreS.empty
  upd := { state := 0, recvSlot := 0, pieces := [], slotA := SlotS.shipped, slotB := SlotS.empty, active := 0, running := 2,
           trial := false, trialBooted := false, trialEnd := 0, revertFailed := false, keepStrap := false, fwVersion := 0,
           arbFuse := 0, oemHash := none, familyKey := 0, deviceKey := 0, dsn := 0 }

end Sys2Proof.Machine
end

