-- ==== Sys2Proof/Machine/Fields.lean ====
section
/-!
DEFINITION. What the spec's register tables say of each field: its block, its offset in the block, its lowest bit, its
width, its access code (R4), the distance between sub-instances (lanes, groups, classes, links of a tiller, vectors) and
its reset value; and where each block lies (the header lines of the blocks).
-/
namespace Sys2Proof.Machine

/-- A row of a register table. -/
structure FInfo where
  blk : Blk
  off : Nat
  lsb : Nat
  width : Nat
  acc : Acc
  sub : Nat
  deriving DecidableEq, Repr

/-- The register tables of the spec, field by field. -/
def Fld.info : Fld → FInfo
  | .CAD_EN => ⟨.cadence, 0x0, 0, 1, .rwl, 0⟩
  | .CAD_SRC => ⟨.cadence, 0x0, 1, 1, .rwl, 0⟩
  | .CAD_EDGE => ⟨.cadence, 0x0, 2, 1, .rwl, 0⟩
  | .CAD_OUT_EN => ⟨.cadence, 0x0, 4, 1, .rw, 0⟩
  | .CAD_OUT_SRC => ⟨.cadence, 0x0, 5, 1, .rw, 0⟩
  | .CAD_OUT_WIDTH => ⟨.cadence, 0x0, 8, 8, .rw, 0⟩
  | .CAD_LOCK => ⟨.cadence, 0x0, 31, 1, .w1s, 0⟩
  | .CAD_NOMINAL => ⟨.cadence, 0x4, 0, 32, .rwl, 0⟩
  | .CAD_STATE => ⟨.cadence, 0x8, 0, 3, .ro, 0⟩
  | .CAD_SEEDED => ⟨.cadence, 0x8, 4, 1, .ro, 0⟩
  | .CAD_CLK_FRO => ⟨.cadence, 0x8, 5, 1, .ro, 0⟩
  | .CAD_SLIP => ⟨.cadence, 0x8, 8, 1, .w1c, 0⟩
  | .CAD_GLITCH => ⟨.cadence, 0x8, 9, 1, .w1c, 0⟩
  | .CAD_LOST_PULSE => ⟨.cadence, 0x8, 10, 1, .w1c, 0⟩
  | .CAD_RANGE => ⟨.cadence, 0x8, 11, 1, .w1c, 0⟩
  | .CAD_ERA_ROLL => ⟨.cadence, 0x8, 12, 1, .w1c, 0⟩
  | .CAD_PERIOD => ⟨.cadence, 0xc, 0, 32, .ro, 0⟩
  | .CAD_PHASE_ERR => ⟨.cadence, 0x10, 0, 32, .ro, 0⟩
  | .CAD_STAMP_LO => ⟨.cadence, 0x18, 0, 32, .ro, 0⟩
  | .CAD_STAMP_HI => ⟨.cadence, 0x1c, 0, 32, .ro, 0⟩
  | .CAD_ERA => ⟨.cadence, 0x20, 0, 16, .ro, 0⟩
  | .CAD_GLITCH_CNT => ⟨.cadence, 0x24, 0, 32, .ro, 0⟩
  | .CAD_SLIP_CNT => ⟨.cadence, 0x28, 0, 32, .ro, 0⟩
  | .CAD_LOST_CNT => ⟨.cadence, 0x2c, 0, 32, .ro, 0⟩
  | .CAD_SEED => ⟨.cadence, 0x30, 0, 32, .ro, 0⟩
  | .HL_BIFUR => ⟨.hostlink, 0x0, 0, 2, .ro, 0⟩
  | .HL_CLKMODE => ⟨.hostlink, 0x0, 2, 2, .ro, 0⟩
  | .HL_PRESENT => ⟨.hostlink, 0x0, 4, 1, .ro, 0⟩
  | .HL_MAX_WIDTH => ⟨.hostlink, 0x0, 8, 5, .ro, 0⟩
  | .HL_BIFUR_NEXT => ⟨.hostlink, 0x0, 16, 2, .ro, 0⟩
  | .HL_CLKMODE_NEXT => ⟨.hostlink, 0x0, 18, 2, .ro, 0⟩
  | .HL_CFG_PENDING => ⟨.hostlink, 0x0, 20, 1, .ro, 0⟩
  | .HL_TARGET_SPEED => ⟨.hostlink, 0x4, 0, 3, .rwl, 0⟩
  | .HL_L0P_AUTO => ⟨.hostlink, 0x4, 4, 1, .rw, 0⟩
  | .HL_L0P_MIN => ⟨.hostlink, 0x4, 5, 3, .rw, 0⟩
  | .HL_HOLD => ⟨.hostlink, 0x4, 8, 1, .rw, 0⟩
  | .HL_RETRAIN => ⟨.hostlink, 0x4, 9, 1, .wo, 0⟩
  | .HL_LOCK => ⟨.hostlink, 0x4, 31, 1, .w1s, 0⟩
  | .HL_LTSSM => ⟨.hostlink, 0x8, 0, 4, .ro, 0⟩
  | .HL_CUR_SPEED => ⟨.hostlink, 0x8, 6, 3, .ro, 0⟩
  | .HL_CUR_WIDTH => ⟨.hostlink, 0x8, 9, 5, .ro, 0⟩
  | .HL_FLIT => ⟨.hostlink, 0x8, 14, 1, .ro, 0⟩
  | .HL_DL_UP => ⟨.hostlink, 0x8, 15, 1, .ro, 0⟩
  | .HL_PERST => ⟨.hostlink, 0x8, 16, 1, .ro, 0⟩
  | .HL_REFCLK_OK => ⟨.hostlink, 0x8, 17, 1, .ro, 0⟩
  | .HL_CLKREQ => ⟨.hostlink, 0x8, 18, 1, .ro, 0⟩
  | .HL_L1SUB => ⟨.hostlink, 0x8, 19, 2, .ro, 0⟩
  | .HL_REVERSED => ⟨.hostlink, 0x8, 21, 1, .ro, 0⟩
  | .HL_DL_DOWN => ⟨.hostlink, 0xc, 0, 1, .w1c, 0⟩
  | .HL_SPEED_CHG => ⟨.hostlink, 0xc, 1, 1, .w1c, 0⟩
  | .HL_WIDTH_CHG => ⟨.hostlink, 0xc, 2, 1, .w1c, 0⟩
  | .HL_EQ_FAIL => ⟨.hostlink, 0xc, 3, 1, .w1c, 0⟩
  | .HL_PERST_ASSERT => ⟨.hostlink, 0xc, 4, 1, .w1c, 0⟩
  | .HL_HOT_RESET => ⟨.hostlink, 0xc, 5, 1, .w1c, 0⟩
  | .HL_REFCLK_LOST => ⟨.hostlink, 0xc, 6, 1, .w1c, 0⟩
  | .HL_DRS_SENT => ⟨.hostlink, 0xc, 7, 1, .w1c, 0⟩
  | .HL_PME_WAKE => ⟨.hostlink, 0xc, 8, 1, .w1c, 0⟩
  | .HL_L1_IDLE_TICKS => ⟨.hostlink, 0x10, 0, 8, .rw, 0⟩
  | .HL_L0P_WINDOW => ⟨.hostlink, 0x10, 8, 8, .rw, 0⟩
  | .HL_L0P_LOW => ⟨.hostlink, 0x10, 16, 7, .rw, 0⟩
  | .HL_START8 => ⟨.hostlink, 0x14, 0, 4, .rw, 0⟩
  | .HL_START16 => ⟨.hostlink, 0x14, 4, 4, .rw, 0⟩
  | .HL_START32 => ⟨.hostlink, 0x14, 8, 4, .rw, 0⟩
  | .HL_START64 => ⟨.hostlink, 0x14, 12, 4, .rw, 0⟩
  | .HL_PRESET_ONLY => ⟨.hostlink, 0x14, 16, 1, .rw, 0⟩
  | .HL_LTR_VALUE => ⟨.hostlink, 0x18, 0, 10, .rw, 0⟩
  | .HL_LTR_SCALE => ⟨.hostlink, 0x18, 10, 3, .rw, 0⟩
  | .HL_LTR_IDLE_TICKS => ⟨.hostlink, 0x18, 16, 8, .rw, 0⟩
  | .HL_DOWN_CNT => ⟨.hostlink, 0x20, 0, 64, .ro, 0⟩
  | .HL_RECOV_CNT => ⟨.hostlink, 0x28, 0, 64, .ro, 0⟩
  | .HL_DROP_CNT => ⟨.hostlink, 0x30, 0, 64, .ro, 0⟩
  | .HL_RRS_CNT => ⟨.hostlink, 0x38, 0, 64, .ro, 0⟩
  | .DVSEC_VENDOR => ⟨.dvsec, 0x4, 0, 16, .ro, 0⟩
  | .DVSEC_REV => ⟨.dvsec, 0x4, 16, 4, .ro, 0⟩
  | .DVSEC_LEN => ⟨.dvsec, 0x4, 20, 12, .ro, 0⟩
  | .DVSEC_ID => ⟨.dvsec, 0x8, 0, 16, .ro, 0⟩
  | .DVSEC_HL => ⟨.dvsec, 0xc, 0, 5, .ro, 0⟩
  | .DVSEC_TILLER => ⟨.dvsec, 0xc, 5, 3, .ro, 0⟩
  | .DVSEC_MANAGER => ⟨.dvsec, 0xc, 8, 1, .ro, 0⟩
  | .DVSEC_RECOVERY => ⟨.dvsec, 0xc, 9, 1, .ro, 0⟩
  | .DVSEC_TNID => ⟨.dvsec, 0xc, 16, 16, .ro, 0⟩
  | .DVSEC_GENERATION => ⟨.dvsec, 0x10, 0, 4, .ro, 0⟩
  | .DVSEC_DIR_GEN => ⟨.dvsec, 0x14, 0, 32, .ro, 0⟩
  | .DVSEC_FW_VERSION => ⟨.dvsec, 0x18, 0, 32, .ro, 0⟩
  | .DVSEC_FW_STATE => ⟨.dvsec, 0x1c, 0, 2, .ro, 0⟩
  | .DEV_VENDOR => ⟨.devinfo, 0x0, 0, 16, .ro, 0⟩
  | .DEV_DEVICE => ⟨.devinfo, 0x0, 16, 16, .ro, 0⟩
  | .DEV_REVISION => ⟨.devinfo, 0x4, 0, 8, .ro, 0⟩
  | .DEV_DEVID => ⟨.devinfo, 0x8, 0, 2, .ro, 0⟩
  | .DEV_MGR_SEL => ⟨.devinfo, 0x8, 2, 5, .ro, 0⟩
  | .DEV_RECOVERY_STRAP => ⟨.devinfo, 0x8, 7, 1, .ro, 0⟩
  | .DEV_MGR_LINK => ⟨.devinfo, 0xc, 0, 5, .ro, 0⟩
  | .DEV_MGR_SMP => ⟨.devinfo, 0xc, 5, 1, .ro, 0⟩
  | .DEV_FW_VERSION => ⟨.devinfo, 0x10, 0, 32, .ro, 0⟩
  | .DEV_DIR_GEN => ⟨.devinfo, 0x14, 0, 32, .ro, 0⟩
  | .DEV_DSN_LO => ⟨.devinfo, 0x18, 0, 32, .ro, 0⟩
  | .DEV_DSN_HI => ⟨.devinfo, 0x1c, 0, 32, .ro, 0⟩
  | .OW_LINK => ⟨.outwin, 0x0, 0, 7, .ro, 0⟩
  | .OW_CLASS => ⟨.outwin, 0x0, 8, 2, .ro, 0⟩
  | .OW_SHEAF => ⟨.outwin, 0x0, 10, 1, .ro, 0⟩
  | .OW_RD => ⟨.outwin, 0x0, 11, 1, .ro, 0⟩
  | .OW_WR => ⟨.outwin, 0x0, 12, 1, .ro, 0⟩
  | .OW_AT => ⟨.outwin, 0x0, 13, 1, .ro, 0⟩
  | .OW_RO_OK => ⟨.outwin, 0x0, 14, 1, .ro, 0⟩
  | .OW_IDO_OK => ⟨.outwin, 0x0, 15, 1, .ro, 0⟩
  | .OW_TNID => ⟨.outwin, 0x0, 16, 8, .ro, 0⟩
  | .OW_PF_HL => ⟨.outwin, 0x0, 24, 5, .ro, 0⟩
  | .OW_TO_PF => ⟨.outwin, 0x0, 29, 1, .ro, 0⟩
  | .OW_LOCAL_BASE_LO => ⟨.outwin, 0x4, 12, 20, .ro, 0⟩
  | .OW_LOCAL_BASE_HI => ⟨.outwin, 0x8, 0, 32, .ro, 0⟩
  | .OW_SIZE_LO => ⟨.outwin, 0xc, 12, 20, .ro, 0⟩
  | .OW_SIZE_HI => ⟨.outwin, 0x10, 0, 17, .ro, 0⟩
  | .OW_HOST_BASE_LO => ⟨.outwin, 0x14, 12, 20, .ro, 0⟩
  | .OW_HOST_BASE_HI => ⟨.outwin, 0x18, 0, 32, .ro, 0⟩
  | .OW_DEADLINE => ⟨.outwin, 0x1c, 0, 16, .ro, 0⟩
  | .OW_OPEN => ⟨.outwin, 0x1c, 16, 16, .ro, 0⟩
  | .IW_LINK => ⟨.inwin, 0x0, 0, 7, .ro, 0⟩
  | .IW_FUNC => ⟨.inwin, 0x0, 8, 9, .ro, 0⟩
  | .IW_RD => ⟨.inwin, 0x0, 17, 1, .ro, 0⟩
  | .IW_WR => ⟨.inwin, 0x0, 18, 1, .ro, 0⟩
  | .IW_LANE => ⟨.inwin, 0x0, 20, 2, .ro, 0⟩
  | .IW_HL => ⟨.inwin, 0x0, 22, 5, .ro, 0⟩
  | .IW_BAR_OFFSET_LO => ⟨.inwin, 0x4, 12, 20, .ro, 0⟩
  | .IW_BAR_OFFSET_HI => ⟨.inwin, 0x8, 0, 8, .ro, 0⟩
  | .IW_SIZE_LO => ⟨.inwin, 0xc, 12, 20, .ro, 0⟩
  | .IW_SIZE_HI => ⟨.inwin, 0x10, 0, 9, .ro, 0⟩
  | .IW_LOCAL_BASE_LO => ⟨.inwin, 0x14, 12, 20, .ro, 0⟩
  | .IW_LOCAL_BASE_HI => ⟨.inwin, 0x18, 0, 32, .ro, 0⟩
  | .NW_LINK => ⟨.intwin, 0x0, 0, 7, .ro, 0⟩
  | .NW_TO_PF => ⟨.intwin, 0x0, 7, 1, .ro, 0⟩
  | .NW_TNID => ⟨.intwin, 0x0, 8, 8, .ro, 0⟩
  | .NW_PF_HL => ⟨.intwin, 0x0, 16, 5, .ro, 0⟩
  | .NW_MSG_BASE => ⟨.intwin, 0x4, 0, 16, .ro, 0⟩
  | .NW_COUNT => ⟨.intwin, 0x4, 16, 8, .ro, 0⟩
  | .NW_VEC_BASE => ⟨.intwin, 0x8, 0, 7, .ro, 0⟩
  | .SH_MODE => ⟨.sheaf, 0x0, 0, 2, .ro, 0⟩
  | .SH_DEST_COUNT => ⟨.sheaf, 0x0, 8, 4, .ro, 0⟩
  | .SH_WINDOW => ⟨.sheaf, 0x0, 12, 11, .ro, 0⟩
  | .SH_LAGGING => ⟨.sheaf, 0x4, 0, 8, .ro, 0⟩
  | .SH_EXCUSED => ⟨.sheaf, 0x4, 8, 8, .ro, 0⟩
  | .SH_WAITING => ⟨.sheaf, 0x4, 16, 8, .ro, 0⟩
  | .SH_TNID => ⟨.sheaf, 0x20, 0, 8, .ro, 24⟩
  | .SH_TO_PF => ⟨.sheaf, 0x20, 8, 1, .ro, 24⟩
  | .SH_PF_HL => ⟨.sheaf, 0x20, 9, 5, .ro, 24⟩
  | .SH_LAG_BUDGET => ⟨.sheaf, 0x20, 14, 10, .ro, 24⟩
  | .SH_SD_LAG => ⟨.sheaf, 0x24, 0, 32, .ro, 24⟩
  | .SH_HOST_BASE_LO => ⟨.sheaf, 0x28, 12, 20, .ro, 24⟩
  | .SH_HOST_BASE_HI => ⟨.sheaf, 0x2c, 0, 32, .ro, 24⟩
  | .SH_GAP_EN => ⟨.sheaf, 0x30, 0, 1, .ro, 24⟩
  | .SH_GAP_SIZE => ⟨.sheaf, 0x30, 1, 4, .ro, 24⟩
  | .SH_GAP_BASE_LO => ⟨.sheaf, 0x30, 6, 26, .ro, 24⟩
  | .SH_GAP_BASE_HI => ⟨.sheaf, 0x34, 0, 32, .ro, 24⟩
  | .TI_CONSERVATIVE => ⟨.tiller, 0x0, 0, 1, .ro, 0⟩
  | .TI_BRINGUP => ⟨.tiller, 0x0, 1, 1, .ro, 0⟩
  | .TI_SELFTEST => ⟨.tiller, 0x0, 2, 1, .ro, 0⟩
  | .TI_LOST => ⟨.tiller, 0x0, 3, 1, .ro, 0⟩
  | .TI_RECOVERY => ⟨.tiller, 0x0, 4, 1, .ro, 0⟩
  | .TI_CB_READY => ⟨.tiller, 0x0, 5, 1, .ro, 0⟩
  | .TI_SPARE_READY => ⟨.tiller, 0x0, 6, 1, .ro, 0⟩
  | .TI_READS_BLOCKED => ⟨.tiller, 0x0, 7, 1, .ro, 0⟩
  | .TI_CELLS_USED => ⟨.tiller, 0x4, 0, 13, .ro, 0⟩
  | .TI_UNITS_ALLOTTED => ⟨.tiller, 0x4, 16, 7, .ro, 0⟩
  | .TI_CONS_OUT => ⟨.tiller, 0x8, 0, 6, .ro, 0⟩
  | .TI_OUTSTANDING => ⟨.tiller, 0x10, 0, 12, .ro, 4⟩
  | .TI_QUARANTINED => ⟨.tiller, 0x10, 12, 12, .ro, 4⟩
  | .TI_CTO_DEF => ⟨.tiller, 0x20, 0, 17, .rw, 4⟩
  | .TI_RQ_CTO_CNT => ⟨.tiller, 0x40, 0, 64, .ro, 0⟩
  | .TI_RQ_LATE_CNT => ⟨.tiller, 0x48, 0, 64, .ro, 0⟩
  | .TI_RQ_STALE_CNT => ⟨.tiller, 0x50, 0, 64, .ro, 0⟩
  | .TI_RQ_DROP_CNT => ⟨.tiller, 0x58, 0, 64, .ro, 0⟩
  | .TI_RQ_SPEC_CNT => ⟨.tiller, 0x60, 0, 64, .ro, 0⟩
  | .TI_RQ_UNEXP_CNT => ⟨.tiller, 0x68, 0, 64, .ro, 0⟩
  | .TI_RQ_FLUSH_CNT => ⟨.tiller, 0x70, 0, 64, .ro, 0⟩
  | .WP_TARGET_RATE => ⟨.wlane, 0x0, 0, 2, .rwl, 0⟩
  | .WP_MIN_WIDTH => ⟨.wlane, 0x0, 2, 2, .rwl, 0⟩
  | .WP_LANE_EN => ⟨.wlane, 0x0, 4, 4, .rwl, 0⟩
  | .WP_DISABLE => ⟨.wlane, 0x0, 8, 1, .rw, 0⟩
  | .WP_TRAIN => ⟨.wlane, 0x0, 9, 1, .wo, 0⟩
  | .WP_PEER => ⟨.wlane, 0x0, 10, 1, .rwl, 0⟩
  | .WP_STBY_IDLE => ⟨.wlane, 0x0, 11, 1, .rw, 0⟩
  | .WP_LOOPBACK => ⟨.wlane, 0x0, 12, 2, .rw, 0⟩
  | .WP_LOCK => ⟨.wlane, 0x0, 31, 1, .w1s, 0⟩
  | .WP_STATE => ⟨.wlane, 0x4, 0, 4, .ro, 0⟩
  | .WP_CUR_RATE => ⟨.wlane, 0x4, 4, 2, .ro, 0⟩
  | .WP_ACTIVE_MASK => ⟨.wlane, 0x4, 6, 4, .ro, 0⟩
  | .WP_CLK_LOCK => ⟨.wlane, 0x4, 10, 1, .ro, 0⟩
  | .WP_ROLE => ⟨.wlane, 0x4, 11, 1, .ro, 0⟩
  | .WP_DOWNSHIFT => ⟨.wlane, 0x4, 12, 1, .ro, 0⟩
  | .WP_PARTNER_PEER => ⟨.wlane, 0x4, 13, 1, .ro, 0⟩
  | .WP_LANE_MAP => ⟨.wlane, 0x4, 14, 8, .ro, 0⟩
  | .WP_RX_INV => ⟨.wlane, 0x4, 22, 4, .ro, 0⟩
  | .WP_PARTNER_RATES => ⟨.wlane, 0x4, 26, 4, .ro, 0⟩
  | .WP_TRAIN_FAIL => ⟨.wlane, 0x8, 0, 1, .w1c, 0⟩
  | .WP_CLK_LOST => ⟨.wlane, 0x8, 1, 1, .w1c, 0⟩
  | .WP_LANE_EXCL => ⟨.wlane, 0x8, 2, 1, .w1c, 0⟩
  | .WP_RATE_CHG => ⟨.wlane, 0x8, 3, 1, .w1c, 0⟩
  | .WP_ALIGN_ERR => ⟨.wlane, 0x8, 4, 1, .w1c, 0⟩
  | .WP_ROLE_CONFLICT => ⟨.wlane, 0x8, 5, 1, .w1c, 0⟩
  | .WP_BG_FAIL => ⟨.wlane, 0x8, 6, 1, .w1c, 0⟩
  | .WP_LB_REFUSED => ⟨.wlane, 0x8, 7, 1, .w1c, 0⟩
  | .WP_BG_ERR_MAX => ⟨.wlane, 0xc, 0, 16, .rw, 0⟩
  | .WP_TRAIN_CNT => ⟨.wlane, 0x10, 0, 64, .ro, 0⟩
  | .WP_FAIL_CNT => ⟨.wlane, 0x18, 0, 64, .ro, 0⟩
  | .WP_CLKLOST_CNT => ⟨.wlane, 0x20, 0, 64, .ro, 0⟩
  | .WP_ALIGN_CNT => ⟨.wlane, 0x28, 0, 64, .ro, 0⟩
  | .WP_SWING => ⟨.wlane, 0x100, 0, 4, .rw, 256⟩
  | .WP_PRE => ⟨.wlane, 0x100, 4, 4, .rw, 256⟩
  | .WP_POST => ⟨.wlane, 0x100, 8, 5, .rw, 256⟩
  | .WP_ADAPT => ⟨.wlane, 0x104, 0, 1, .rw, 256⟩
  | .WP_CTLE => ⟨.wlane, 0x104, 1, 5, .rw, 256⟩
  | .WP_DFE_EN => ⟨.wlane, 0x104, 6, 1, .rw, 256⟩
  | .WP_LSTATE => ⟨.wlane, 0x108, 0, 3, .ro, 256⟩
  | .WP_PRBS_SYNC => ⟨.wlane, 0x108, 3, 1, .ro, 256⟩
  | .WP_PRBS_PEND => ⟨.wlane, 0x108, 4, 1, .ro, 256⟩
  | .WP_LOGICAL => ⟨.wlane, 0x108, 6, 2, .ro, 256⟩
  | .WP_EYE_W => ⟨.wlane, 0x108, 8, 8, .ro, 256⟩
  | .WP_EYE_H => ⟨.wlane, 0x108, 16, 8, .ro, 256⟩
  | .WP_HEALTH => ⟨.wlane, 0x108, 24, 4, .ro, 256⟩
  | .WP_GEN => ⟨.wlane, 0x10c, 0, 2, .rw, 256⟩
  | .WP_CHK => ⟨.wlane, 0x10c, 2, 2, .rw, 256⟩
  | .WP_INJ_MODE => ⟨.wlane, 0x10c, 4, 2, .rw, 256⟩
  | .WP_INJ_GO => ⟨.wlane, 0x10c, 6, 1, .wo, 256⟩
  | .WP_INJ_STOP => ⟨.wlane, 0x10c, 7, 1, .wo, 256⟩
  | .WP_BURST_LEN => ⟨.wlane, 0x10c, 8, 8, .rw, 256⟩
  | .WP_RATE_EXP => ⟨.wlane, 0x10c, 16, 6, .rw, 256⟩
  | .WP_CNT_CLR => ⟨.wlane, 0x10c, 22, 1, .wo, 256⟩
  | .WP_INJ_LIVE => ⟨.wlane, 0x10c, 23, 1, .rw, 256⟩
  | .WP_LN_ERR_CNT => ⟨.wlane, 0x110, 0, 64, .ro, 256⟩
  | .WP_LN_BITS_CNT => ⟨.wlane, 0x118, 0, 64, .ro, 256⟩
  | .WP_LN_INJ_CNT => ⟨.wlane, 0x120, 0, 64, .ro, 256⟩
  | .WP_CK_SWING => ⟨.wlane, 0x500, 0, 4, .rw, 0⟩
  | .WP_CK_DETECT => ⟨.wlane, 0x504, 0, 1, .ro, 0⟩
  | .WP_CK_LOCK => ⟨.wlane, 0x504, 1, 1, .ro, 0⟩
  | .WP_CK_FREQ_ERR => ⟨.wlane, 0x504, 8, 16, .ro, 0⟩
  | .WL_REPLAY_LIMIT => ⟨.weaseif, 0x0, 0, 4, .rwl, 0⟩
  | .WL_REPLAY_TO => ⟨.weaseif, 0x0, 8, 7, .rwl, 0⟩
  | .WL_LOCK => ⟨.weaseif, 0x0, 31, 1, .w1s, 0⟩
  | .WL_GRACE => ⟨.weaseif, 0x4, 0, 17, .rwl, 0⟩
  | .WL_ERR_LIMIT => ⟨.weaseif, 0x8, 0, 16, .rwl, 0⟩
  | .WL_ERR_WINDOW => ⟨.weaseif, 0x8, 16, 11, .rwl, 0⟩
  | .WL_RESHAPE_TO => ⟨.weaseif, 0xc, 0, 16, .rw, 0⟩
  | .WL_RESHAPE_SET => ⟨.weaseif, 0x10, 0, 4, .rw, 0⟩
  | .WL_RESHAPE_GO => ⟨.weaseif, 0x10, 4, 1, .wo, 0⟩
  | .WL_LINK_RESET => ⟨.weaseif, 0x10, 5, 1, .wo, 0⟩
  | .WL_LSTATE => ⟨.weaseif, 0x20, 0, 3, .ro, 0⟩
  | .WL_RESUMED => ⟨.weaseif, 0x20, 3, 1, .ro, 0⟩
  | .WL_PARTNER_HEALTH => ⟨.weaseif, 0x20, 4, 4, .ro, 0⟩
  | .WL_ACTIVE_SET => ⟨.weaseif, 0x20, 8, 4, .ro, 0⟩
  | .WL_RESHAPE_BUSY => ⟨.weaseif, 0x20, 12, 1, .ro, 0⟩
  | .WL_GRACE_RUN => ⟨.weaseif, 0x20, 13, 1, .ro, 0⟩
  | .WL_NEXT_TX => ⟨.weaseif, 0x24, 0, 12, .ro, 0⟩
  | .WL_OLDEST => ⟨.weaseif, 0x24, 12, 12, .ro, 0⟩
  | .WL_NEXT_RX => ⟨.weaseif, 0x28, 0, 12, .ro, 0⟩
  | .WL_UNACKED => ⟨.weaseif, 0x28, 12, 10, .ro, 0⟩
  | .WL_REPLAY_COUNT => ⟨.weaseif, 0x28, 22, 4, .ro, 0⟩
  | .WL_AVAIL_P => ⟨.weaseif, 0x2c, 0, 12, .ro, 0⟩
  | .WL_AVAIL_N => ⟨.weaseif, 0x2c, 12, 12, .ro, 0⟩
  | .WL_AVAIL_C => ⟨.weaseif, 0x30, 0, 12, .ro, 0⟩
  | .WL_ERR_CUR => ⟨.weaseif, 0x34, 0, 16, .ro, 0⟩
  | .WL_REPLAY => ⟨.weaseif, 0x40, 0, 1, .w1c, 0⟩
  | .WL_RETRAIN_REQ => ⟨.weaseif, 0x40, 1, 1, .w1c, 0⟩
  | .WL_DOWN => ⟨.weaseif, 0x40, 2, 1, .w1c, 0⟩
  | .WL_RETURNED => ⟨.weaseif, 0x40, 3, 1, .w1c, 0⟩
  | .WL_FLUSHED => ⟨.weaseif, 0x40, 4, 1, .w1c, 0⟩
  | .WL_ERR_LIMIT_HIT => ⟨.weaseif, 0x40, 5, 1, .w1c, 0⟩
  | .WL_ACK_OOW => ⟨.weaseif, 0x40, 6, 1, .w1c, 0⟩
  | .WL_RESHAPE_DONE => ⟨.weaseif, 0x40, 7, 1, .w1c, 0⟩
  | .WL_RESHAPE_FAIL => ⟨.weaseif, 0x40, 8, 1, .w1c, 0⟩
  | .WL_HALT_RX => ⟨.weaseif, 0x40, 9, 1, .w1c, 0⟩
  | .WL_CREDIT_ERR => ⟨.weaseif, 0x40, 10, 1, .w1c, 0⟩
  | .WL_CFG_REFUSED => ⟨.weaseif, 0x40, 11, 1, .w1c, 0⟩
  | .WL_INIT_FAIL => ⟨.weaseif, 0x40, 12, 1, .w1c, 0⟩
  | .WL_TX_CNT => ⟨.weaseif, 0x80, 0, 64, .ro, 0⟩
  | .WL_RX_CNT => ⟨.weaseif, 0x88, 0, 64, .ro, 0⟩
  | .WL_CRC_CNT => ⟨.weaseif, 0x90, 0, 64, .ro, 0⟩
  | .WL_INJ_CNT => ⟨.weaseif, 0x98, 0, 64, .ro, 0⟩
  | .WL_SEQ_CNT => ⟨.weaseif, 0xa0, 0, 64, .ro, 0⟩
  | .WL_DUP_CNT => ⟨.weaseif, 0xa8, 0, 64, .ro, 0⟩
  | .WL_ACKOOW_CNT => ⟨.weaseif, 0xb0, 0, 64, .ro, 0⟩
  | .WL_REPLAY_CNT => ⟨.weaseif, 0xb8, 0, 64, .ro, 0⟩
  | .WL_RETRAIN_CNT => ⟨.weaseif, 0xc0, 0, 64, .ro, 0⟩
  | .WL_DOWN_CNT => ⟨.weaseif, 0xc8, 0, 64, .ro, 0⟩
  | .WL_RETURN_CNT => ⟨.weaseif, 0xd0, 0, 64, .ro, 0⟩
  | .WL_FLUSHPKT_CNT => ⟨.weaseif, 0xd8, 0, 64, .ro, 0⟩
  | .WL_RESHAPE_CNT => ⟨.weaseif, 0xe0, 0, 64, .ro, 0⟩
  | .WL_NAK_CNT => ⟨.weaseif, 0xe8, 0, 64, .ro, 0⟩
  | .WL_CREDERR_CNT => ⟨.weaseif, 0xf0, 0, 64, .ro, 0⟩
  | .WL_TYPE_CNT => ⟨.weaseif, 0xf8, 0, 64, .ro, 0⟩
  | .WL_FRAME_CNT => ⟨.weaseif, 0x100, 0, 64, .ro, 0⟩
  | .WL_HALTRX_CNT => ⟨.weaseif, 0x108, 0, 64, .ro, 0⟩
  | .CH_EN => ⟨.channel, 0x0, 0, 1, .rw, 0⟩
  | .CH_LANE => ⟨.channel, 0x0, 1, 2, .rw, 0⟩
  | .CH_DATA_RO => ⟨.channel, 0x0, 3, 1, .rw, 0⟩
  | .CH_RETRY_LIMIT => ⟨.channel, 0x0, 4, 3, .rw, 0⟩
  | .CH_RA_DESC => ⟨.channel, 0x0, 8, 4, .rw, 0⟩
  | .CH_RA_DATA => ⟨.channel, 0x0, 12, 4, .rw, 0⟩
  | .CH_STATE => ⟨.channel, 0x4, 0, 3, .ro, 0⟩
  | .CH_DB_PENDING => ⟨.channel, 0x4, 3, 1, .ro, 0⟩
  | .CH_DRAINING => ⟨.channel, 0x4, 4, 1, .ro, 0⟩
  | .CH_RETRIES => ⟨.channel, 0x4, 5, 3, .ro, 0⟩
  | .CH_HALF => ⟨.channel, 0x4, 8, 1, .w1c, 0⟩
  | .CH_FULL => ⟨.channel, 0x4, 9, 1, .w1c, 0⟩
  | .CH_ERR => ⟨.channel, 0x4, 10, 1, .w1c, 0⟩
  | .CH_WAITED => ⟨.channel, 0x4, 11, 1, .w1c, 0⟩
  | .CH_DB_IGNORED => ⟨.channel, 0x4, 12, 1, .w1c, 0⟩
  | .CH_CODE => ⟨.channel, 0x4, 16, 8, .ro, 0⟩
  | .CH_VEC_HALF => ⟨.channel, 0x8, 0, 7, .rw, 0⟩
  | .CH_HALF_EN => ⟨.channel, 0x8, 7, 1, .rw, 0⟩
  | .CH_VEC_FULL => ⟨.channel, 0x8, 8, 7, .rw, 0⟩
  | .CH_FULL_EN => ⟨.channel, 0x8, 15, 1, .rw, 0⟩
  | .CH_VEC_ERR => ⟨.channel, 0x8, 16, 7, .rw, 0⟩
  | .CH_ERR_EN => ⟨.channel, 0x8, 23, 1, .rw, 0⟩
  | .CH_DOORBELL => ⟨.channel, 0xc, 0, 32, .wo, 0⟩
  | .CH_HEAD_LO => ⟨.channel, 0x10, 6, 26, .rw, 0⟩
  | .CH_HEAD_HI => ⟨.channel, 0x14, 0, 32, .rw, 0⟩
  | .CH_CUR => ⟨.channel, 0x18, 0, 64, .ro, 0⟩
  | .CH_BYTES => ⟨.channel, 0x20, 0, 32, .ro, 0⟩
  | .CH_GLOBAL => ⟨.channel, 0x24, 0, 10, .ro, 0⟩
  | .CH_LOCAL => ⟨.channel, 0x24, 10, 6, .ro, 0⟩
  | .CH_TNID => ⟨.channel, 0x24, 16, 8, .ro, 0⟩
  | .CH_ALLOTTED => ⟨.channel, 0x24, 24, 1, .ro, 0⟩
  | .CH_DONE_CNT => ⟨.channel, 0x28, 0, 64, .ro, 0⟩
  | .CH_BYTE_CNT => ⟨.channel, 0x30, 0, 64, .ro, 0⟩
  | .CH_HALT_CNT => ⟨.channel, 0x38, 0, 64, .ro, 0⟩
  | .CH_RETRY_CNT => ⟨.channel, 0x40, 0, 64, .ro, 0⟩
  | .CH_ERR_ADDR => ⟨.channel, 0x48, 0, 64, .ro, 0⟩
  | .CH_ERR_SPACE => ⟨.channel, 0x50, 0, 8, .ro, 0⟩
  | .CH_DB_NUM => ⟨.channel, 0x5c, 0, 16, .rw, 0⟩
  | .TN_TNID => ⟨.tenant, 0x0, 0, 8, .ro, 0⟩
  | .TN_GENERATION => ⟨.tenant, 0x0, 8, 4, .ro, 0⟩
  | .TN_STATE => ⟨.tenant, 0x0, 12, 3, .ro, 0⟩
  | .TN_ELIGIBLE => ⟨.tenant, 0x0, 15, 1, .ro, 0⟩
  | .TN_VF => ⟨.tenant, 0x0, 16, 9, .ro, 0⟩
  | .TN_HL => ⟨.tenant, 0x0, 25, 5, .ro, 0⟩
  | .TN_WEIGHT => ⟨.tenant, 0x4, 0, 8, .ro, 0⟩
  | .TN_VECTORS => ⟨.tenant, 0x4, 8, 8, .ro, 0⟩
  | .TN_CH_COUNT => ⟨.tenant, 0x4, 16, 7, .ro, 0⟩
  | .TN_CB_UNITS => ⟨.tenant, 0x4, 24, 6, .ro, 0⟩
  | .TN_RATE => ⟨.tenant, 0x8, 0, 32, .ro, 0⟩
  | .TN_DEPTH => ⟨.tenant, 0xc, 0, 32, .ro, 0⟩
  | .TN_ALLOWANCE => ⟨.tenant, 0x10, 0, 11, .ro, 0⟩
  | .TN_LIVE_TAGS => ⟨.tenant, 0x10, 16, 11, .ro, 0⟩
  | .TN_QUAR_TAGS => ⟨.tenant, 0x14, 0, 11, .ro, 0⟩
  | .TN_CELLS_USED => ⟨.tenant, 0x14, 16, 12, .ro, 0⟩
  | .TN_OUT_ALLOT => ⟨.tenant, 0x18, 0, 12, .ro, 0⟩
  | .TN_OUT_USED => ⟨.tenant, 0x18, 16, 12, .ro, 0⟩
  | .TN_IN_ALLOT => ⟨.tenant, 0x1c, 0, 11, .ro, 0⟩
  | .TN_IN_USED => ⟨.tenant, 0x1c, 16, 11, .ro, 0⟩
  | .TN_INT_ALLOT => ⟨.tenant, 0x20, 0, 11, .ro, 0⟩
  | .TN_INT_USED => ⟨.tenant, 0x20, 16, 11, .ro, 0⟩
  | .TN_PERMIT0 => ⟨.tenant, 0x24, 0, 32, .ro, 0⟩
  | .TN_PERMIT1 => ⟨.tenant, 0x28, 0, 32, .ro, 0⟩
  | .TN_PERMIT2 => ⟨.tenant, 0x2c, 0, 32, .ro, 0⟩
  | .TN_BUCKET => ⟨.tenant, 0x30, 0, 32, .ro, 0⟩
  | .TN_HELD => ⟨.tenant, 0x34, 0, 1, .ro, 0⟩
  | .TN_FREEZE_SET => ⟨.tenant, 0x34, 1, 1, .ro, 0⟩
  | .TN_LOG_ON => ⟨.tenant, 0x34, 2, 1, .ro, 0⟩
  | .TN_PENDING_RES => ⟨.tenant, 0x34, 3, 1, .ro, 0⟩
  | .TN_CHARGED_CNT => ⟨.tenant, 0x40, 0, 64, .ro, 0⟩
  | .TN_HELD_TICKS => ⟨.tenant, 0x48, 0, 64, .ro, 0⟩
  | .TN_GEN_CNT => ⟨.tenant, 0x50, 0, 64, .ro, 0⟩
  | .TN_LATE_CNT => ⟨.tenant, 0x58, 0, 64, .ro, 0⟩
  | .TN_STALE_CNT => ⟨.tenant, 0x60, 0, 64, .ro, 0⟩
  | .TN_NOREAD_CNT => ⟨.tenant, 0x68, 0, 64, .ro, 0⟩
  | .HUB_TN_CREATED => ⟨.hub, 0x0, 0, 9, .ro, 0⟩
  | .HUB_TN_PENDING => ⟨.hub, 0x0, 16, 9, .ro, 0⟩
  | .HUB_CH_FREE => ⟨.hub, 0x4, 0, 11, .ro, 0⟩
  | .HUB_CH_PENDING => ⟨.hub, 0x4, 16, 11, .ro, 0⟩
  | .HUB_VEC_FREE => ⟨.hub, 0x8, 0, 14, .ro, 0⟩
  | .HUB_VEC_PENDING => ⟨.hub, 0x8, 16, 14, .ro, 0⟩
  | .HUB_UNITS_FREE => ⟨.hub, 0xc, 0, 9, .ro, 0⟩
  | .HUB_UNITS_PENDING => ⟨.hub, 0xc, 16, 9, .ro, 0⟩
  | .HUB_PF_WEIGHT => ⟨.hub, 0x10, 0, 8, .rw, 0⟩
  | .HUB_CH_FREE_T => ⟨.hub, 0x40, 0, 8, .ro, 4⟩
  | .HUB_UNITS_FREE_T => ⟨.hub, 0x40, 16, 6, .ro, 4⟩
  | .FI_REPLY => ⟨.fnirq, 0x0, 0, 1, .w1c, 0⟩
  | .FI_DEADLINE_MISS => ⟨.fnirq, 0x0, 1, 1, .w1c, 0⟩
  | .FI_SHEAF_LAG => ⟨.fnirq, 0x0, 2, 1, .w1c, 0⟩
  | .FI_WARD_CORR => ⟨.fnirq, 0x0, 8, 1, .w1c, 0⟩
  | .FI_WARD_CONT => ⟨.fnirq, 0x0, 9, 1, .w1c, 0⟩
  | .FI_WARD_FATAL => ⟨.fnirq, 0x0, 10, 1, .w1c, 0⟩
  | .FI_HOSTLINK => ⟨.fnirq, 0x0, 11, 1, .w1c, 0⟩
  | .FI_CADENCE => ⟨.fnirq, 0x0, 12, 1, .w1c, 0⟩
  | .FI_TENANT_BROKEN => ⟨.fnirq, 0x0, 13, 1, .w1c, 0⟩
  | .FI_FN_EVENT_EN => ⟨.fnirq, 0x4, 0, 14, .rw, 0⟩
  | .FI_VEC_REPLY => ⟨.fnirq, 0x8, 0, 7, .rw, 0⟩
  | .FI_VEC_DEADLINE => ⟨.fnirq, 0x8, 8, 7, .rw, 0⟩
  | .FI_VEC_LAG => ⟨.fnirq, 0x8, 16, 7, .rw, 0⟩
  | .FI_VEC_WARD => ⟨.fnirq, 0xc, 0, 7, .rw, 0⟩
  | .FI_VEC_HOSTLINK => ⟨.fnirq, 0xc, 8, 7, .rw, 0⟩
  | .FI_VEC_CADENCE => ⟨.fnirq, 0xc, 16, 7, .rw, 0⟩
  | .FI_VEC_TENANT => ⟨.fnirq, 0xc, 24, 7, .rw, 0⟩
  | .FI_VEC_COUNT => ⟨.fnirq, 0x10, 0, 8, .ro, 0⟩
  | .FI_IN_SENT_CNT => ⟨.fnirq, 0x20, 0, 64, .ro, 0⟩
  | .FI_IN_COAL_CNT => ⟨.fnirq, 0x28, 0, 64, .ro, 0⟩
  | .FI_IN_DROP_CNT => ⟨.fnirq, 0x30, 0, 64, .ro, 0⟩
  | .FI_MOD_TICKS => ⟨.fnirq, 0x100, 0, 8, .rw, 4⟩
  | .FI_HOLDOFF => ⟨.fnirq, 0x100, 8, 1, .ro, 4⟩
  | .FI_WAITING => ⟨.fnirq, 0x100, 9, 1, .ro, 4⟩
  | .KR_EN => ⟨.cmdring, 0x0, 0, 1, .rw, 0⟩
  | .KR_ACTIVE => ⟨.cmdring, 0x4, 0, 1, .ro, 0⟩
  | .KR_STOPPED => ⟨.cmdring, 0x4, 1, 1, .ro, 0⟩
  | .KR_OVERRUN => ⟨.cmdring, 0x4, 2, 1, .w1c, 0⟩
  | .KR_FETCH_ERR => ⟨.cmdring, 0x4, 3, 1, .w1c, 0⟩
  | .KR_REPLY_FULL => ⟨.cmdring, 0x4, 4, 1, .ro, 0⟩
  | .KR_KEEPER_WAIT => ⟨.cmdring, 0x4, 5, 1, .ro, 0⟩
  | .KR_CMD_BASE_LO => ⟨.cmdring, 0x8, 12, 20, .rw, 0⟩
  | .KR_CMD_BASE_HI => ⟨.cmdring, 0xc, 0, 32, .rw, 0⟩
  | .KR_RPL_BASE_LO => ⟨.cmdring, 0x10, 12, 20, .rw, 0⟩
  | .KR_RPL_BASE_HI => ⟨.cmdring, 0x14, 0, 32, .rw, 0⟩
  | .KR_CMD_PI => ⟨.cmdring, 0x18, 0, 16, .rw, 0⟩
  | .KR_CMD_CI => ⟨.cmdring, 0x1c, 0, 16, .ro, 0⟩
  | .KR_RPL_PI => ⟨.cmdring, 0x20, 0, 16, .ro, 0⟩
  | .KR_RPL_CI => ⟨.cmdring, 0x24, 0, 16, .rw, 0⟩
  | .KR_IN_FLIGHT => ⟨.cmdring, 0x28, 0, 7, .ro, 0⟩
  | .KR_SCHEDULED => ⟨.cmdring, 0x28, 8, 7, .ro, 0⟩
  | .KR_CMD_CNT => ⟨.cmdring, 0x30, 0, 64, .ro, 0⟩
  | .KR_FAIL_CNT => ⟨.cmdring, 0x38, 0, 64, .ro, 0⟩
  | .KP_KSTATE => ⟨.keeper, 0x0, 0, 3, .ro, 0⟩
  | .KP_SLOT => ⟨.keeper, 0x0, 3, 1, .ro, 0⟩
  | .KP_FW_STATE => ⟨.keeper, 0x0, 4, 2, .ro, 0⟩
  | .KP_FATAL_HOLD => ⟨.keeper, 0x0, 6, 1, .ro, 0⟩
  | .KP_CTX_BUSY => ⟨.keeper, 0x4, 0, 5, .ro, 0⟩
  | .KP_SCHED_ALL => ⟨.keeper, 0x4, 8, 9, .ro, 0⟩
  | .KP_CMD_CNT => ⟨.keeper, 0x10, 0, 64, .ro, 0⟩
  | .KP_FAIL_CNT => ⟨.keeper, 0x18, 0, 64, .ro, 0⟩
  | .KP_CANCEL_CNT => ⟨.keeper, 0x20, 0, 64, .ro, 0⟩
  | .KP_RESTART_CNT => ⟨.keeper, 0x28, 0, 64, .ro, 0⟩
  | .KP_WDOG_CNT => ⟨.keeper, 0x30, 0, 64, .ro, 0⟩
  | .KP_SLOW_CNT => ⟨.keeper, 0x38, 0, 64, .ro, 0⟩
  | .WD_FAULT_WORD => ⟨.ward, 0x0, 0, 64, .ro, 0⟩
  | .WD_INJ_WORD => ⟨.ward, 0x8, 0, 48, .ro, 0⟩
  | .WD_REACT => ⟨.ward, 0x10, 0, 1, .ro, 0⟩
  | .WD_FN_DRIVEN => ⟨.ward, 0x10, 1, 1, .ro, 0⟩
  | .WD_FN_LEVEL => ⟨.ward, 0x10, 2, 1, .ro, 0⟩
  | .WD_FIN_LEVEL => ⟨.ward, 0x10, 3, 1, .ro, 0⟩
  | .WD_MINW_RUN => ⟨.ward, 0x10, 4, 1, .ro, 0⟩
  | .WD_ASYNC => ⟨.ward, 0x10, 5, 1, .ro, 0⟩
  | .WD_INJ_COUNTS => ⟨.ward, 0x10, 6, 1, .ro, 0⟩
  | .WD_INJ_REACT => ⟨.ward, 0x10, 7, 1, .ro, 0⟩
  | .WD_SELFTEST_OK => ⟨.ward, 0x10, 8, 1, .ro, 0⟩
  | .WD_FAULT_MINW => ⟨.ward, 0x14, 0, 14, .ro, 0⟩
  | .WD_REACT_STAMP => ⟨.ward, 0x18, 0, 64, .ro, 0⟩
  | .WD_REACT_ERA => ⟨.ward, 0x20, 0, 16, .ro, 0⟩
  | .WD_FC_ADDR => ⟨.ward, 0x40, 0, 64, .ro, 32⟩
  | .WD_FC_STAMP => ⟨.ward, 0x48, 0, 64, .ro, 32⟩
  | .WD_FC_MASTER => ⟨.ward, 0x50, 0, 32, .ro, 32⟩
  | .WD_ACCESS => ⟨.ward, 0x54, 0, 8, .ro, 32⟩
  | .WD_DETAIL => ⟨.ward, 0x54, 8, 8, .ro, 32⟩
  | .WD_GROUP => ⟨.ward, 0x54, 16, 4, .ro, 32⟩
  | .WD_LINE => ⟨.ward, 0x54, 20, 5, .ro, 32⟩
  | .WD_INJECTED => ⟨.ward, 0x54, 25, 1, .ro, 32⟩
  | .WD_PRESEED => ⟨.ward, 0x54, 26, 1, .ro, 32⟩
  | .WD_VALID => ⟨.ward, 0x54, 31, 1, .ro, 32⟩
  | .WD_FC_ERA => ⟨.ward, 0x58, 0, 16, .ro, 32⟩
  | .WD_LINES => ⟨.ward, 0x100, 0, 32, .ro, 16⟩
  | .WD_CLASS_LO => ⟨.ward, 0x108, 0, 32, .ro, 16⟩
  | .WD_CLASS_HI => ⟨.ward, 0x10c, 0, 32, .ro, 16⟩
  | .WD_CORR_CNT => ⟨.ward, 0x200, 0, 64, .ro, 0⟩
  | .WD_CONT_CNT => ⟨.ward, 0x208, 0, 64, .ro, 0⟩
  | .WD_FATAL_CNT => ⟨.ward, 0x210, 0, 64, .ro, 0⟩
  | .WD_INJ_CNT => ⟨.ward, 0x218, 0, 64, .ro, 0⟩
  | .WD_FAULTIN_CNT => ⟨.ward, 0x220, 0, 64, .ro, 0⟩
  | .WD_JR_APPEND_CNT => ⟨.ward, 0x228, 0, 64, .ro, 0⟩
  | .WD_JR_LOST_CNT => ⟨.ward, 0x230, 0, 64, .ro, 0⟩
  | .WD_JR_NEWEST => ⟨.ward, 0x240, 0, 64, .ro, 0⟩
  | .WD_JR_OLDEST => ⟨.ward, 0x248, 0, 64, .ro, 0⟩
  | .WD_JR_MARK => ⟨.ward, 0x250, 0, 64, .ro, 0⟩
  | .WD_JR_QUEUED => ⟨.ward, 0x258, 0, 7, .ro, 0⟩
  | .WD_JR_FREE => ⟨.ward, 0x25c, 0, 32, .ro, 0⟩
  | .CK_AON_SRC => ⟨.clock, 0x0, 0, 2, .ro, 0⟩
  | .CK_REF_SRC => ⟨.clock, 0x0, 2, 1, .ro, 0⟩
  | .CK_KEEP_SRC => ⟨.clock, 0x0, 3, 1, .ro, 0⟩
  | .CK_CORE_SRC => ⟨.clock, 0x0, 4, 1, .ro, 0⟩
  | .CK_SW_BUSY => ⟨.clock, 0x0, 5, 1, .ro, 0⟩
  | .CK_READY => ⟨.clock, 0x4, 0, 32, .ro, 0⟩
  | .CK_SW_FORCED => ⟨.clock, 0x8, 0, 1, .w1c, 0⟩
  | .CK_AON_FALLBACK => ⟨.clock, 0x8, 1, 1, .w1c, 0⟩
  | .CK_REF_FAILOVER => ⟨.clock, 0x8, 2, 1, .w1c, 0⟩
  | .CK_FRO_RESTART => ⟨.clock, 0x8, 3, 1, .w1c, 0⟩
  | .CK_PLL_TRIP => ⟨.clock, 0x8, 4, 1, .w1c, 0⟩
  | .CK_KEEP_FALLBACK => ⟨.clock, 0x8, 5, 1, .w1c, 0⟩
  | .CK_TRIPPED => ⟨.clock, 0xc, 0, 32, .w1c, 0⟩
  | .CK_HELD => ⟨.clock, 0x10, 0, 26, .ro, 0⟩
  | .CK_DIV => ⟨.clock, 0x20, 0, 13, .rw, 0⟩
  | .CK_SEL => ⟨.clock, 0x20, 16, 8, .rw, 0⟩
  | .CK_FC_CKID => ⟨.clock, 0x30, 0, 8, .rw, 0⟩
  | .CK_START => ⟨.clock, 0x30, 8, 1, .wo, 0⟩
  | .CK_BUSY => ⟨.clock, 0x30, 9, 1, .ro, 0⟩
  | .CK_DONE => ⟨.clock, 0x30, 10, 1, .w1c, 0⟩
  | .CK_ABORTED => ⟨.clock, 0x30, 11, 1, .w1c, 0⟩
  | .CK_FC_GATE => ⟨.clock, 0x34, 0, 25, .rw, 0⟩
  | .CK_FC_COUNT => ⟨.clock, 0x38, 0, 64, .ro, 0⟩
  | .CK_TRIP_CNT => ⟨.clock, 0x40, 0, 64, .ro, 0⟩
  | .CK_FORCED_CNT => ⟨.clock, 0x48, 0, 64, .ro, 0⟩
  | .PW_ON_MAP => ⟨.power, 0x0, 0, 26, .ro, 0⟩
  | .PW_DARK => ⟨.power, 0x4, 0, 26, .w1c, 0⟩
  | .PW_PAD_HOLD_MAP => ⟨.power, 0x8, 0, 26, .ro, 0⟩
  | .PW_BANK_LOST_LO => ⟨.power, 0x10, 0, 32, .ro, 0⟩
  | .PW_BANK_LOST_HI => ⟨.power, 0x14, 0, 16, .ro, 0⟩
  | .PW_FN_READY => ⟨.power, 0x18, 0, 32, .ro, 0⟩
  | .PW_BOOT_CAUSE => ⟨.power, 0x1c, 0, 2, .ro, 0⟩
  | .PW_PREV_REACT => ⟨.power, 0x1c, 2, 1, .ro, 0⟩
  | .PW_RECOVERY => ⟨.power, 0x1c, 3, 1, .ro, 0⟩
  | .PW_VIN_MV => ⟨.power, 0x20, 0, 16, .ro, 0⟩
  | .PW_DARK_CNT => ⟨.power, 0x28, 0, 64, .ro, 0⟩
  | .PW_WAKE_CNT => ⟨.power, 0x30, 0, 64, .ro, 0⟩
  | .PW_LOST_CNT => ⟨.power, 0x38, 0, 64, .ro, 0⟩
  | .PW_VINLOW_CNT => ⟨.power, 0x40, 0, 64, .ro, 0⟩
  | .PW_REG_RDY => ⟨.power, 0x100, 0, 1, .ro, 4⟩
  | .PW_CLK_RDY => ⟨.power, 0x100, 1, 1, .ro, 4⟩
  | .PW_MEM_RDY => ⟨.power, 0x100, 2, 1, .ro, 4⟩
  | .PW_LOGIC_RDY => ⟨.power, 0x100, 3, 1, .ro, 4⟩
  | .PW_STATE => ⟨.power, 0x100, 4, 3, .ro, 4⟩
  | .PW_PENDING => ⟨.power, 0x100, 7, 1, .ro, 4⟩
  | .PW_PAD_HOLD => ⟨.power, 0x100, 8, 1, .ro, 4⟩
  | .PW_WAKE_FAIL => ⟨.power, 0x100, 9, 1, .w1c, 4⟩
  | .PW_REFCLK_WAIT => ⟨.power, 0x100, 10, 1, .ro, 4⟩
  | .PW_LOST_LAST => ⟨.power, 0x100, 16, 8, .ro, 4⟩
  | .PW_BANK_SIG => ⟨.power, 0x200, 0, 32, .ro, 4⟩
  | .TR_STOP_MODE => ⟨.trace, 0x0, 0, 1, .ro, 0⟩
  | .TR_STOPPED => ⟨.trace, 0x0, 1, 1, .ro, 0⟩
  | .TR_STREAM_ON => ⟨.trace, 0x0, 2, 1, .ro, 0⟩
  | .TR_STREAM_PAUSED => ⟨.trace, 0x0, 3, 1, .ro, 0⟩
  | .TR_STREAM_HL => ⟨.trace, 0x0, 4, 5, .ro, 0⟩
  | .TR_NEXT => ⟨.trace, 0x8, 0, 64, .ro, 0⟩
  | .TR_OLDEST => ⟨.trace, 0x10, 0, 64, .ro, 0⟩
  | .TR_DROP_CNT => ⟨.trace, 0x18, 0, 64, .ro, 0⟩
  | .TR_SKIP_CNT => ⟨.trace, 0x20, 0, 64, .ro, 0⟩
  | .TR_STREAM_CNT => ⟨.trace, 0x28, 0, 64, .ro, 0⟩
  | .CT_WL_WIN_MISS => ⟨.counters, 0x0, 0, 64, .ro, 0⟩
  | .CT_WL_MALFORMED => ⟨.counters, 0x8, 0, 64, .ro, 0⟩
  | .CT_WL_UNEXP_RSP => ⟨.counters, 0x10, 0, 64, .ro, 0⟩
  | .CT_WL_LATE_RSP => ⟨.counters, 0x18, 0, 64, .ro, 0⟩
  | .CT_WL_RX_PKT => ⟨.counters, 0x20, 0, 64, .ro, 0⟩
  | .CT_WL_TX_PKT => ⟨.counters, 0x28, 0, 64, .ro, 0⟩
  | .CT_WL_RX_BYTES => ⟨.counters, 0x30, 0, 64, .ro, 0⟩
  | .CT_WL_TX_BYTES => ⟨.counters, 0x38, 0, 64, .ro, 0⟩
  | .CT_HL_IN_MISS => ⟨.counters, 0x2000, 0, 64, .ro, 0⟩
  | .CT_HL_TX_TLP => ⟨.counters, 0x2008, 0, 64, .ro, 0⟩
  | .CT_HL_RX_TLP => ⟨.counters, 0x2010, 0, 64, .ro, 0⟩
  | .CT_HL_TX_PAYLOAD => ⟨.counters, 0x2018, 0, 64, .ro, 0⟩
  | .CT_HL_RX_PAYLOAD => ⟨.counters, 0x2020, 0, 64, .ro, 0⟩
  | .CT_TL_LOG_STALL => ⟨.counters, 0x3000, 0, 64, .ro, 0⟩
  | .CT_TL_HUB_TX_BYTES => ⟨.counters, 0x3008, 0, 64, .ro, 0⟩
  | .CT_TL_HUB_RX_BYTES => ⟨.counters, 0x3010, 0, 64, .ro, 0⟩
  | .CT_SMP_CRC => ⟨.counters, 0x3400, 0, 64, .ro, 0⟩
  | .CT_SMP_FRAME => ⟨.counters, 0x3408, 0, 64, .ro, 0⟩
  | .CT_SMP_OVERFLOW => ⟨.counters, 0x3410, 0, 64, .ro, 0⟩
  | .CT_SMP_CMD => ⟨.counters, 0x3418, 0, 64, .ro, 0⟩
  | .CT_OW_LATE => ⟨.counters, 0x4000, 0, 64, .ro, 0⟩
  | .CT_SD_DELIVERED => ⟨.counters, 0x8000, 0, 64, .ro, 32⟩
  | .CT_SD_LAG => ⟨.counters, 0x8008, 0, 64, .ro, 32⟩
  | .CT_SD_LATE => ⟨.counters, 0x8010, 0, 64, .ro, 32⟩
  | .CT_SD_EPISODES => ⟨.counters, 0x8018, 0, 64, .ro, 32⟩
  | .CT_TN_CTO => ⟨.counters, 0x20000, 0, 64, .ro, 0⟩
  | .CT_TN_UR_CPL => ⟨.counters, 0x20008, 0, 64, .ro, 0⟩
  | .CT_TN_CA_CPL => ⟨.counters, 0x20010, 0, 64, .ro, 0⟩
  | .CT_TN_LOG_OUT_RANGE => ⟨.counters, 0x20018, 0, 64, .ro, 0⟩
  | .CT_TN_DESC_DONE => ⟨.counters, 0x20020, 0, 64, .ro, 0⟩
  | .CT_TN_DESC_BYTES => ⟨.counters, 0x20028, 0, 64, .ro, 0⟩
  | .CT_TN_HALTS => ⟨.counters, 0x20030, 0, 64, .ro, 0⟩
  | .CT_TN_RETRIES => ⟨.counters, 0x20038, 0, 64, .ro, 0⟩
  | .CT_TN_WR_BYTES => ⟨.counters, 0x20040, 0, 64, .ro, 0⟩
  | .CT_TN_RD_BYTES => ⟨.counters, 0x20048, 0, 64, .ro, 0⟩
  | .CT_TN_MSIX_SENT => ⟨.counters, 0x20050, 0, 64, .ro, 0⟩

/-- The block a field belongs to. -/
def Fld.blk (f : Fld) : Blk := f.info.blk
/-- The width of a field in bits. -/
def Fld.width (f : Fld) : Nat := f.info.width

/-- The reset value of a field of instance `i`, sub-instance `j`, where the spec's table gives one that is not zero.
Every other field is 0 at reset: the table says 0, or says Strap, Fuse, Config store, Link or a dash, for which the
assumption log names the value the model takes until the row that loads it (log entries 3 and 5). -/
def Fld.reset (f : Fld) (i j : Nat) : Nat :=
  match f with
  | .CAD_EN => 1
  | .CAD_OUT_WIDTH => 10
  | .CAD_NOMINAL => 250000
  | .CAD_PERIOD => 4000000
  | .HL_PRESENT => if i % 4 = 0 then 1 else 0
  | .HL_MAX_WIDTH => if i % 4 = 0 then 16 else 0
  | .HL_TARGET_SPEED => 6
  | .HL_L0P_AUTO => 1
  | .HL_L0P_MIN => 3
  | .HL_LTSSM => 10
  | .HL_L1_IDLE_TICKS => 2
  | .HL_L0P_WINDOW => 64
  | .HL_L0P_LOW => 50
  | .HL_START8 => 7
  | .HL_START16 => 8
  | .HL_START32 => 8
  | .HL_START64 => 5
  | .HL_LTR_VALUE => 2
  | .HL_LTR_SCALE => 2
  | .HL_LTR_IDLE_TICKS => 128
  | .DVSEC_VENDOR => 7518
  | .DVSEC_LEN => 32
  | .DVSEC_ID => 1
  | .DVSEC_HL => i / 512
  | .DVSEC_TILLER => i / 2048
  | .DVSEC_TNID => 65535
  | .DEV_VENDOR => 7518
  | .DEV_DEVICE => 32918
  | .DEV_REVISION => 176
  | .TI_CONSERVATIVE => 1
  | .TI_BRINGUP => 1
  | .TI_CTO_DEF => 1000
  | .WP_TARGET_RATE => 3
  | .WP_LANE_EN => 15
  | .WP_STBY_IDLE => 1
  | .WP_SWING => 10
  | .WP_POST => 6
  | .WP_ADAPT => 1
  | .WP_CTLE => 8
  | .WP_DFE_EN => 1
  | .WP_BURST_LEN => 1
  | .WP_RATE_EXP => 20
  | .WP_CK_SWING => 10
  | .WL_REPLAY_LIMIT => 4
  | .WL_REPLAY_TO => 4
  | .WL_GRACE => 1000
  | .WL_ERR_LIMIT => 64
  | .WL_ERR_WINDOW => 16
  | .WL_RESHAPE_TO => 64
  | .WL_RESHAPE_SET => 15
  | .CH_RETRY_LIMIT => 2
  | .CH_GLOBAL => i
  | .HUB_CH_FREE => 1024
  | .HUB_VEC_FREE => 8192
  | .HUB_UNITS_FREE => 480
  | .HUB_PF_WEIGHT => 64
  | .HUB_CH_FREE_T => 128
  | .HUB_UNITS_FREE_T => 60
  | .FI_VEC_COUNT => if i % 512 = 0 then 32 else 0
  | .WD_FAULT_MINW => 100
  | .WD_CLASS_LO => if j = 14 then 1 else 0
  | .WD_CLASS_HI => 2857719125
  | .CK_AON_SRC => 2
  | .CK_KEEP_SRC => 1
  | .CK_FC_GATE => 25000
  | .PW_PAD_HOLD_MAP => 67107840
  | .PW_PAD_HOLD => if 10 ≤ j then 1 else 0
  | _ => i * 0 + j * 0

/-- Where a block lies: its BAR (8 stands for configuration space), base offset, stride and number of instances. -/
structure BlkInfo where
  bar : Nat
  base : Nat
  stride : Nat
  count : Nat
  deriving DecidableEq, Repr

/-- The header lines of the register blocks. -/
def Blk.info : Blk → BlkInfo
  | .devinfo => ⟨0, 0x0, 0x0, 1⟩
  | .ward => ⟨0, 0x100000, 0x0, 1⟩
  | .hostlink => ⟨0, 0x200000, 0x1000, 32⟩
  | .cadence => ⟨0, 0x300000, 0x0, 1⟩
  | .clock => ⟨0, 0x310000, 0x0, 1⟩
  | .power => ⟨0, 0x320000, 0x0, 1⟩
  | .trace => ⟨0, 0x330000, 0x0, 1⟩
  | .keeper => ⟨0, 0x340000, 0x0, 1⟩
  | .weaseif => ⟨0, 0x400000, 0x1000, 96⟩
  | .wlane => ⟨0, 0x500000, 0x800, 96⟩
  | .tiller => ⟨0, 0x600000, 0x10000, 8⟩
  | .hub => ⟨0, 0x700000, 0x0, 1⟩
  | .outwin => ⟨0, 0x800000, 0x20, 2048⟩
  | .inwin => ⟨0, 0x810000, 0x20, 1024⟩
  | .intwin => ⟨0, 0x820000, 0x10, 1024⟩
  | .sheaf => ⟨0, 0x830000, 0x100, 256⟩
  | .tenant => ⟨0, 0x900000, 0x400, 256⟩
  | .channel => ⟨0, 0x1000000, 0x100, 1024⟩
  | .counters => ⟨0, 0x2000000, 0x0, 1⟩
  | .fnirq => ⟨4, 0x10c00, 0x0, 1⟩
  | .cmdring => ⟨4, 0x10000, 0x0, 1⟩
  | .dvsec => ⟨8, 0x0, 0x0, 1⟩

/-- Every field, in the order of the tables. -/
def Fld.all : List Fld :=
  ([
    .CAD_EN, .CAD_SRC, .CAD_EDGE, .CAD_OUT_EN, .CAD_OUT_SRC, .CAD_OUT_WIDTH, .CAD_LOCK, .CAD_NOMINAL,
    .CAD_STATE, .CAD_SEEDED, .CAD_CLK_FRO, .CAD_SLIP, .CAD_GLITCH, .CAD_LOST_PULSE, .CAD_RANGE,
    .CAD_ERA_ROLL, .CAD_PERIOD, .CAD_PHASE_ERR, .CAD_STAMP_LO, .CAD_STAMP_HI, .CAD_ERA,
    .CAD_GLITCH_CNT, .CAD_SLIP_CNT, .CAD_LOST_CNT, .CAD_SEED, .HL_BIFUR, .HL_CLKMODE, .HL_PRESENT,
    .HL_MAX_WIDTH, .HL_BIFUR_NEXT, .HL_CLKMODE_NEXT, .HL_CFG_PENDING, .HL_TARGET_SPEED, .HL_L0P_AUTO,
    .HL_L0P_MIN, .HL_HOLD, .HL_RETRAIN, .HL_LOCK, .HL_LTSSM, .HL_CUR_SPEED] : List Fld) ++
  ([
    .HL_CUR_WIDTH, .HL_FLIT, .HL_DL_UP, .HL_PERST, .HL_REFCLK_OK, .HL_CLKREQ, .HL_L1SUB, .HL_REVERSED,
    .HL_DL_DOWN, .HL_SPEED_CHG, .HL_WIDTH_CHG, .HL_EQ_FAIL, .HL_PERST_ASSERT, .HL_HOT_RESET,
    .HL_REFCLK_LOST, .HL_DRS_SENT, .HL_PME_WAKE, .HL_L1_IDLE_TICKS, .HL_L0P_WINDOW, .HL_L0P_LOW,
    .HL_START8, .HL_START16, .HL_START32, .HL_START64, .HL_PRESET_ONLY, .HL_LTR_VALUE, .HL_LTR_SCALE,
    .HL_LTR_IDLE_TICKS, .HL_DOWN_CNT, .HL_RECOV_CNT, .HL_DROP_CNT, .HL_RRS_CNT, .DVSEC_VENDOR,
    .DVSEC_REV, .DVSEC_LEN, .DVSEC_ID, .DVSEC_HL, .DVSEC_TILLER, .DVSEC_MANAGER, .DVSEC_RECOVERY] : List Fld) ++
  ([
    .DVSEC_TNID, .DVSEC_GENERATION, .DVSEC_DIR_GEN, .DVSEC_FW_VERSION, .DVSEC_FW_STATE, .DEV_VENDOR,
    .DEV_DEVICE, .DEV_REVISION, .DEV_DEVID, .DEV_MGR_SEL, .DEV_RECOVERY_STRAP, .DEV_MGR_LINK,
    .DEV_MGR_SMP, .DEV_FW_VERSION, .DEV_DIR_GEN, .DEV_DSN_LO, .DEV_DSN_HI, .OW_LINK, .OW_CLASS,
    .OW_SHEAF, .OW_RD, .OW_WR, .OW_AT, .OW_RO_OK, .OW_IDO_OK, .OW_TNID, .OW_PF_HL, .OW_TO_PF,
    .OW_LOCAL_BASE_LO, .OW_LOCAL_BASE_HI, .OW_SIZE_LO, .OW_SIZE_HI, .OW_HOST_BASE_LO, .OW_HOST_BASE_HI,
    .OW_DEADLINE, .OW_OPEN, .IW_LINK, .IW_FUNC, .IW_RD, .IW_WR] : List Fld) ++
  ([
    .IW_LANE, .IW_HL, .IW_BAR_OFFSET_LO, .IW_BAR_OFFSET_HI, .IW_SIZE_LO, .IW_SIZE_HI,
    .IW_LOCAL_BASE_LO, .IW_LOCAL_BASE_HI, .NW_LINK, .NW_TO_PF, .NW_TNID, .NW_PF_HL, .NW_MSG_BASE,
    .NW_COUNT, .NW_VEC_BASE, .SH_MODE, .SH_DEST_COUNT, .SH_WINDOW, .SH_LAGGING, .SH_EXCUSED,
    .SH_WAITING, .SH_TNID, .SH_TO_PF, .SH_PF_HL, .SH_LAG_BUDGET, .SH_SD_LAG, .SH_HOST_BASE_LO,
    .SH_HOST_BASE_HI, .SH_GAP_EN, .SH_GAP_SIZE, .SH_GAP_BASE_LO, .SH_GAP_BASE_HI, .TI_CONSERVATIVE,
    .TI_BRINGUP, .TI_SELFTEST, .TI_LOST, .TI_RECOVERY, .TI_CB_READY, .TI_SPARE_READY,
    .TI_READS_BLOCKED] : List Fld) ++
  ([
    .TI_CELLS_USED, .TI_UNITS_ALLOTTED, .TI_CONS_OUT, .TI_OUTSTANDING, .TI_QUARANTINED, .TI_CTO_DEF,
    .TI_RQ_CTO_CNT, .TI_RQ_LATE_CNT, .TI_RQ_STALE_CNT, .TI_RQ_DROP_CNT, .TI_RQ_SPEC_CNT,
    .TI_RQ_UNEXP_CNT, .TI_RQ_FLUSH_CNT, .WP_TARGET_RATE, .WP_MIN_WIDTH, .WP_LANE_EN, .WP_DISABLE,
    .WP_TRAIN, .WP_PEER, .WP_STBY_IDLE, .WP_LOOPBACK, .WP_LOCK, .WP_STATE, .WP_CUR_RATE,
    .WP_ACTIVE_MASK, .WP_CLK_LOCK, .WP_ROLE, .WP_DOWNSHIFT, .WP_PARTNER_PEER, .WP_LANE_MAP, .WP_RX_INV,
    .WP_PARTNER_RATES, .WP_TRAIN_FAIL, .WP_CLK_LOST, .WP_LANE_EXCL, .WP_RATE_CHG, .WP_ALIGN_ERR,
    .WP_ROLE_CONFLICT, .WP_BG_FAIL, .WP_LB_REFUSED] : List Fld) ++
  ([
    .WP_BG_ERR_MAX, .WP_TRAIN_CNT, .WP_FAIL_CNT, .WP_CLKLOST_CNT, .WP_ALIGN_CNT, .WP_SWING, .WP_PRE,
    .WP_POST, .WP_ADAPT, .WP_CTLE, .WP_DFE_EN, .WP_LSTATE, .WP_PRBS_SYNC, .WP_PRBS_PEND, .WP_LOGICAL,
    .WP_EYE_W, .WP_EYE_H, .WP_HEALTH, .WP_GEN, .WP_CHK, .WP_INJ_MODE, .WP_INJ_GO, .WP_INJ_STOP,
    .WP_BURST_LEN, .WP_RATE_EXP, .WP_CNT_CLR, .WP_INJ_LIVE, .WP_LN_ERR_CNT, .WP_LN_BITS_CNT,
    .WP_LN_INJ_CNT, .WP_CK_SWING, .WP_CK_DETECT, .WP_CK_LOCK, .WP_CK_FREQ_ERR, .WL_REPLAY_LIMIT,
    .WL_REPLAY_TO, .WL_LOCK, .WL_GRACE, .WL_ERR_LIMIT, .WL_ERR_WINDOW] : List Fld) ++
  ([
    .WL_RESHAPE_TO, .WL_RESHAPE_SET, .WL_RESHAPE_GO, .WL_LINK_RESET, .WL_LSTATE, .WL_RESUMED,
    .WL_PARTNER_HEALTH, .WL_ACTIVE_SET, .WL_RESHAPE_BUSY, .WL_GRACE_RUN, .WL_NEXT_TX, .WL_OLDEST,
    .WL_NEXT_RX, .WL_UNACKED, .WL_REPLAY_COUNT, .WL_AVAIL_P, .WL_AVAIL_N, .WL_AVAIL_C, .WL_ERR_CUR,
    .WL_REPLAY, .WL_RETRAIN_REQ, .WL_DOWN, .WL_RETURNED, .WL_FLUSHED, .WL_ERR_LIMIT_HIT, .WL_ACK_OOW,
    .WL_RESHAPE_DONE, .WL_RESHAPE_FAIL, .WL_HALT_RX, .WL_CREDIT_ERR, .WL_CFG_REFUSED, .WL_INIT_FAIL,
    .WL_TX_CNT, .WL_RX_CNT, .WL_CRC_CNT, .WL_INJ_CNT, .WL_SEQ_CNT, .WL_DUP_CNT, .WL_ACKOOW_CNT,
    .WL_REPLAY_CNT] : List Fld) ++
  ([
    .WL_RETRAIN_CNT, .WL_DOWN_CNT, .WL_RETURN_CNT, .WL_FLUSHPKT_CNT, .WL_RESHAPE_CNT, .WL_NAK_CNT,
    .WL_CREDERR_CNT, .WL_TYPE_CNT, .WL_FRAME_CNT, .WL_HALTRX_CNT, .CH_EN, .CH_LANE, .CH_DATA_RO,
    .CH_RETRY_LIMIT, .CH_RA_DESC, .CH_RA_DATA, .CH_STATE, .CH_DB_PENDING, .CH_DRAINING, .CH_RETRIES,
    .CH_HALF, .CH_FULL, .CH_ERR, .CH_WAITED, .CH_DB_IGNORED, .CH_CODE, .CH_VEC_HALF, .CH_HALF_EN,
    .CH_VEC_FULL, .CH_FULL_EN, .CH_VEC_ERR, .CH_ERR_EN, .CH_DOORBELL, .CH_HEAD_LO, .CH_HEAD_HI,
    .CH_CUR, .CH_BYTES, .CH_GLOBAL, .CH_LOCAL, .CH_TNID] : List Fld) ++
  ([
    .CH_ALLOTTED, .CH_DONE_CNT, .CH_BYTE_CNT, .CH_HALT_CNT, .CH_RETRY_CNT, .CH_ERR_ADDR, .CH_ERR_SPACE,
    .CH_DB_NUM, .TN_TNID, .TN_GENERATION, .TN_STATE, .TN_ELIGIBLE, .TN_VF, .TN_HL, .TN_WEIGHT,
    .TN_VECTORS, .TN_CH_COUNT, .TN_CB_UNITS, .TN_RATE, .TN_DEPTH, .TN_ALLOWANCE, .TN_LIVE_TAGS,
    .TN_QUAR_TAGS, .TN_CELLS_USED, .TN_OUT_ALLOT, .TN_OUT_USED, .TN_IN_ALLOT, .TN_IN_USED,
    .TN_INT_ALLOT, .TN_INT_USED, .TN_PERMIT0, .TN_PERMIT1, .TN_PERMIT2, .TN_BUCKET, .TN_HELD,
    .TN_FREEZE_SET, .TN_LOG_ON, .TN_PENDING_RES, .TN_CHARGED_CNT, .TN_HELD_TICKS] : List Fld) ++
  ([
    .TN_GEN_CNT, .TN_LATE_CNT, .TN_STALE_CNT, .TN_NOREAD_CNT, .HUB_TN_CREATED, .HUB_TN_PENDING,
    .HUB_CH_FREE, .HUB_CH_PENDING, .HUB_VEC_FREE, .HUB_VEC_PENDING, .HUB_UNITS_FREE,
    .HUB_UNITS_PENDING, .HUB_PF_WEIGHT, .HUB_CH_FREE_T, .HUB_UNITS_FREE_T, .FI_REPLY,
    .FI_DEADLINE_MISS, .FI_SHEAF_LAG, .FI_WARD_CORR, .FI_WARD_CONT, .FI_WARD_FATAL, .FI_HOSTLINK,
    .FI_CADENCE, .FI_TENANT_BROKEN, .FI_FN_EVENT_EN, .FI_VEC_REPLY, .FI_VEC_DEADLINE, .FI_VEC_LAG,
    .FI_VEC_WARD, .FI_VEC_HOSTLINK, .FI_VEC_CADENCE, .FI_VEC_TENANT, .FI_VEC_COUNT, .FI_IN_SENT_CNT,
    .FI_IN_COAL_CNT, .FI_IN_DROP_CNT, .FI_MOD_TICKS, .FI_HOLDOFF, .FI_WAITING, .KR_EN] : List Fld) ++
  ([
    .KR_ACTIVE, .KR_STOPPED, .KR_OVERRUN, .KR_FETCH_ERR, .KR_REPLY_FULL, .KR_KEEPER_WAIT,
    .KR_CMD_BASE_LO, .KR_CMD_BASE_HI, .KR_RPL_BASE_LO, .KR_RPL_BASE_HI, .KR_CMD_PI, .KR_CMD_CI,
    .KR_RPL_PI, .KR_RPL_CI, .KR_IN_FLIGHT, .KR_SCHEDULED, .KR_CMD_CNT, .KR_FAIL_CNT, .KP_KSTATE,
    .KP_SLOT, .KP_FW_STATE, .KP_FATAL_HOLD, .KP_CTX_BUSY, .KP_SCHED_ALL, .KP_CMD_CNT, .KP_FAIL_CNT,
    .KP_CANCEL_CNT, .KP_RESTART_CNT, .KP_WDOG_CNT, .KP_SLOW_CNT, .WD_FAULT_WORD, .WD_INJ_WORD,
    .WD_REACT, .WD_FN_DRIVEN, .WD_FN_LEVEL, .WD_FIN_LEVEL, .WD_MINW_RUN, .WD_ASYNC, .WD_INJ_COUNTS,
    .WD_INJ_REACT] : List Fld) ++
  ([
    .WD_SELFTEST_OK, .WD_FAULT_MINW, .WD_REACT_STAMP, .WD_REACT_ERA, .WD_FC_ADDR, .WD_FC_STAMP,
    .WD_FC_MASTER, .WD_ACCESS, .WD_DETAIL, .WD_GROUP, .WD_LINE, .WD_INJECTED, .WD_PRESEED, .WD_VALID,
    .WD_FC_ERA, .WD_LINES, .WD_CLASS_LO, .WD_CLASS_HI, .WD_CORR_CNT, .WD_CONT_CNT, .WD_FATAL_CNT,
    .WD_INJ_CNT, .WD_FAULTIN_CNT, .WD_JR_APPEND_CNT, .WD_JR_LOST_CNT, .WD_JR_NEWEST, .WD_JR_OLDEST,
    .WD_JR_MARK, .WD_JR_QUEUED, .WD_JR_FREE, .CK_AON_SRC, .CK_REF_SRC, .CK_KEEP_SRC, .CK_CORE_SRC,
    .CK_SW_BUSY, .CK_READY, .CK_SW_FORCED, .CK_AON_FALLBACK, .CK_REF_FAILOVER, .CK_FRO_RESTART] : List Fld) ++
  ([
    .CK_PLL_TRIP, .CK_KEEP_FALLBACK, .CK_TRIPPED, .CK_HELD, .CK_DIV, .CK_SEL, .CK_FC_CKID, .CK_START,
    .CK_BUSY, .CK_DONE, .CK_ABORTED, .CK_FC_GATE, .CK_FC_COUNT, .CK_TRIP_CNT, .CK_FORCED_CNT,
    .PW_ON_MAP, .PW_DARK, .PW_PAD_HOLD_MAP, .PW_BANK_LOST_LO, .PW_BANK_LOST_HI, .PW_FN_READY,
    .PW_BOOT_CAUSE, .PW_PREV_REACT, .PW_RECOVERY, .PW_VIN_MV, .PW_DARK_CNT, .PW_WAKE_CNT, .PW_LOST_CNT,
    .PW_VINLOW_CNT, .PW_REG_RDY, .PW_CLK_RDY, .PW_MEM_RDY, .PW_LOGIC_RDY, .PW_STATE, .PW_PENDING,
    .PW_PAD_HOLD, .PW_WAKE_FAIL, .PW_REFCLK_WAIT, .PW_LOST_LAST, .PW_BANK_SIG] : List Fld) ++
  ([
    .TR_STOP_MODE, .TR_STOPPED, .TR_STREAM_ON, .TR_STREAM_PAUSED, .TR_STREAM_HL, .TR_NEXT, .TR_OLDEST,
    .TR_DROP_CNT, .TR_SKIP_CNT, .TR_STREAM_CNT, .CT_WL_WIN_MISS, .CT_WL_MALFORMED, .CT_WL_UNEXP_RSP,
    .CT_WL_LATE_RSP, .CT_WL_RX_PKT, .CT_WL_TX_PKT, .CT_WL_RX_BYTES, .CT_WL_TX_BYTES, .CT_HL_IN_MISS,
    .CT_HL_TX_TLP, .CT_HL_RX_TLP, .CT_HL_TX_PAYLOAD, .CT_HL_RX_PAYLOAD, .CT_TL_LOG_STALL,
    .CT_TL_HUB_TX_BYTES, .CT_TL_HUB_RX_BYTES, .CT_SMP_CRC, .CT_SMP_FRAME, .CT_SMP_OVERFLOW,
    .CT_SMP_CMD, .CT_OW_LATE, .CT_SD_DELIVERED, .CT_SD_LAG, .CT_SD_LATE, .CT_SD_EPISODES, .CT_TN_CTO,
    .CT_TN_UR_CPL, .CT_TN_CA_CPL, .CT_TN_LOG_OUT_RANGE, .CT_TN_DESC_DONE] : List Fld) ++
  ([
    .CT_TN_DESC_BYTES, .CT_TN_HALTS, .CT_TN_RETRIES, .CT_TN_WR_BYTES, .CT_TN_RD_BYTES,
    .CT_TN_MSIX_SENT] : List Fld)

end Sys2Proof.Machine
end

