-- ==== Sys2Proof/Machine/Ops.lean ====
section
/-!
DEFINITION. The named operations over the state: sparse tables, the register file (R2, R4), time (R26 to R28), free
values, outputs, power domains, and the byte and check-sum helpers.  Meanings are built of these.
-/
namespace Sys2Proof.Machine

/-- What a command answers. -/
abbrev Res := Host.Outcome State Fault Refusal

/-! ### Composition -/

/-- Do `f` when `c` holds. -/
def when (c : Bool) (f : State → State) (s : State) : State := if c then f s else s

/-- Do `f` for each element, in order. -/
def each {α : Type} (l : List α) (f : α → State → State) (s : State) : State := l.foldl (fun t a => f a t) s

/-- Do `f` on the value, when there is one. -/
def withSome {α : Type} (o : Option α) (f : α → State → State) (s : State) : State :=
  match o with
  | some a => f a s
  | none => s

/-! ### Sparse tables -/

/-- The entry of key `k`, or the table's default. -/
def tget {α : Type} (d : α) : Tbl α → Nat → α
  | [], _ => d
  | (k', v) :: t, k => if k' = k then v else tget d t k

/-- Put an entry in key order. -/
def tput {α : Type} : Tbl α → Nat → α → Tbl α
  | [], k, v => [(k, v)]
  | (k', v') :: t, k, v =>
    if k' = k then (k, v) :: t
    else if k < k' then (k, v) :: (k', v') :: t
    else (k', v') :: tput t k v

/-- Set an entry: a default entry is not listed. -/
def tset {α : Type} [DecidableEq α] (d : α) (t : Tbl α) (k : Nat) (v : α) : Tbl α :=
  if v = d then t.filter (fun e => !decide (e.1 = k)) else tput t k v

/-! ### Registers -/

/-- The order of the register table: by field, instance and sub-instance. -/
def RegKey.lt (a b : RegKey) : Bool :=
  decide (a.f.ctorIdx < b.f.ctorIdx) ||
    (decide (a.f.ctorIdx = b.f.ctorIdx) && (decide (a.i < b.i) || (decide (a.i = b.i) && decide (a.j < b.j))))

/-- The value listed for a key. -/
def rget : Regs → RegKey → Option Nat
  | [], _ => none
  | (k', v) :: t, k => if k' = k then some v else rget t k

/-- Put a value in key order. -/
def rput : Regs → RegKey → Nat → Regs
  | [], k, v => [(k, v)]
  | (k', v') :: t, k, v =>
    if k' = k then (k, v) :: t
    else if k.lt k' then (k, v) :: (k', v') :: t
    else (k', v') :: rput t k v

/-- Drop a key. -/
def rdel (r : Regs) (k : RegKey) : Regs := r.filter (fun e => !decide (e.1 = k))

/-- Set a value: a field at its reset value is not listed, so equal register files are equal lists. -/
def rset (r : Regs) (k : RegKey) (v : Nat) : Regs :=
  if v = k.f.reset k.i k.j then rdel r k else rput (rdel r k) k v

/-- Read field `f` of instance `i` and sub-instance `j`. -/
def State.rd (s : State) (f : Fld) (i : Nat := 0) (j : Nat := 0) : Nat :=
  (rget s.regs ⟨f, i, j⟩).getD (f.reset i j)

/-- Write a field: the value is cut to the field's width. -/
def State.wr (s : State) (f : Fld) (v : Nat) (i : Nat := 0) (j : Nat := 0) : State :=
  { s with regs := rset s.regs ⟨f, i, j⟩ (v % 2 ^ f.width) }

/-- Whether a field is not 0. -/
def State.on (s : State) (f : Fld) (i : Nat := 0) (j : Nat := 0) : Bool := s.rd f i j != 0

/-- Add to a counter; it wraps at its width (R468). -/
def State.add (s : State) (f : Fld) (n : Nat) (i : Nat := 0) (j : Nat := 0) : State := s.wr f (s.rd f i j + n) i j

/-- Count one. -/
def State.inc (s : State) (f : Fld) (i : Nat := 0) (j : Nat := 0) : State := s.add f 1 i j

/-- Take one from an occupancy; it does not fall below 0. -/
def State.dec (s : State) (f : Fld) (i : Nat := 0) (j : Nat := 0) : State := s.wr f (s.rd f i j - 1) i j

/-- Return the registers that `p` picks to their reset values; the read latches of their blocks are empty (R7). -/
def State.resetRegs (p : RegKey → Bool) (s : State) : State :=
  { s with regs := s.regs.filter (fun e => !p e.1), latches := s.latches.filter (fun l => !p l.key) }

/-- Return a block's instance `i` to its reset values. -/
def State.resetBlk (b : Blk) (i : Nat) (s : State) : State :=
  s.resetRegs (fun k => decide (k.f.blk = b) && decide (k.i = i))

/-- A bit of a register field. -/
def State.bit (s : State) (n : Nat) (f : Fld) (i : Nat := 0) (j : Nat := 0) : Bool := (s.rd f i j).testBit n

/-- Set a bit of a number. -/
def setBit (v n : Nat) : Nat := v ||| 2 ^ n

/-- Clear a bit of a number. -/
def clrBit (v n : Nat) : Nat := if v.testBit n then v - 2 ^ n else v

/-- Give a bit of a number a value. -/
def putBit (v n : Nat) (b : Bool) : Nat := if b then setBit v n else clrBit v n

/-- Set a bit of a register field. -/
def State.setB (s : State) (n : Nat) (f : Fld) (i : Nat := 0) (j : Nat := 0) : State := s.wr f (setBit (s.rd f i j) n) i j

/-- Clear a bit of a register field. -/
def State.clrB (s : State) (n : Nat) (f : Fld) (i : Nat := 0) (j : Nat := 0) : State := s.wr f (clrBit (s.rd f i j) n) i j

/-! ### Typed parts of the state -/

/-- The configuration space of a function, by function index. -/
def State.cf (s : State) (f : Nat) : FnCfg := tget FnCfg.reset s.cfg f
/-- Change the configuration space of a function. -/
def State.modCf (s : State) (f : Nat) (g : FnCfg → FnCfg) : State := { s with cfg := tset FnCfg.reset s.cfg f (g (s.cf f)) }
/-- Vector `v` of function `f`. -/
def State.vec (s : State) (f v : Nat) : Vec := tget Vec.reset s.vecs (f * 128 + v)
/-- Change a vector. -/
def State.modVec (s : State) (f v : Nat) (g : Vec → Vec) : State :=
  { s with vecs := tset Vec.reset s.vecs (f * 128 + v) (g (s.vec f v)) }
/-- A power domain. -/
def State.dom (s : State) (d : Nat) : DomS := tget DomS.reset s.doms d
/-- Change a power domain. -/
def State.modDom (s : State) (d : Nat) (g : DomS → DomS) : State := { s with doms := tset DomS.reset s.doms d (g (s.dom d)) }
/-- A host link. -/
def State.hl (s : State) (h : Nat) : HlS := tget HlS.reset s.hls h
/-- Change a host link. -/
def State.modHl (s : State) (h : Nat) (g : HlS → HlS) : State := { s with hls := tset HlS.reset s.hls h (g (s.hl h)) }
/-- The link layer of a Weaseif link. -/
def State.wl (s : State) (n : Nat) : WlS := tget WlS.reset s.wls n
/-- Change the link layer of a Weaseif link. -/
def State.modWl (s : State) (n : Nat) (g : WlS → WlS) : State := { s with wls := tset WlS.reset s.wls n (g (s.wl n)) }
/-- The physical layer of a Weaseif link. -/
def State.wp (s : State) (n : Nat) : WpS := tget WpS.reset s.wps n
/-- Change the physical layer of a Weaseif link. -/
def State.modWp (s : State) (n : Nat) (g : WpS → WpS) : State := { s with wps := tset WpS.reset s.wps n (g (s.wp n)) }
/-- Destination `d` of sheaf `i`. -/
def State.dest (s : State) (i d : Nat) : DestS := tget DestS.reset s.dests (i * 8 + d)
/-- Change a sheaf destination. -/
def State.modDest (s : State) (i d : Nat) (g : DestS → DestS) : State :=
  { s with dests := tset DestS.reset s.dests (i * 8 + d) (g (s.dest i d)) }
/-- A DMA channel. -/
def State.ch (s : State) (c : Nat) : ChanS := tget ChanS.reset s.chans c
/-- Change a DMA channel. -/
def State.modCh (s : State) (c : Nat) (g : ChanS → ChanS) : State := { s with chans := tset ChanS.reset s.chans c (g (s.ch c)) }
/-- A tenant. -/
def State.ten (s : State) (n : Nat) : TenS := tget TenS.reset s.tens n
/-- Change a tenant. -/
def State.modTen (s : State) (n : Nat) (g : TenS → TenS) : State := { s with tens := tset TenS.reset s.tens n (g (s.ten n)) }
/-- Change the cadence loop. -/
def State.modCad (s : State) (g : CadS → CadS) : State := { s with cad := g s.cad }
/-- Change the trace. -/
def State.modTrace (s : State) (g : TraceS → TraceS) : State := { s with trace := g s.trace }
/-- Change the journal. -/
def State.modJournal (s : State) (g : JournalS → JournalS) : State := { s with journal := g s.journal }
/-- Change the Keeper. -/
def State.modKeeper (s : State) (g : KeeperS → KeeperS) : State := { s with keeper := g s.keeper }
/-- Change the clock controller. -/
def State.modClocks (s : State) (g : ClockS → ClockS) : State := { s with clocks := g s.clocks }
/-- Change the pins. -/
def State.modPins (s : State) (g : PinS → PinS) : State := { s with pins := g s.pins }
/-- Change the configuration store. -/
def State.modStore (s : State) (g : StoreS → StoreS) : State := { s with store := g s.store }
/-- Change the update. -/
def State.modUpd (s : State) (g : UpdS → UpdS) : State := { s with upd := g s.upd }
/-- Dirty logging of a tenant, if it is on. -/
def State.log (s : State) (n : Nat) : Option LogS := (s.logs.find? (fun e => e.1 == n)).map (·.2)
/-- Set or end dirty logging of a tenant. -/
def State.setLog (s : State) (n : Nat) (l : Option LogS) : State :=
  { s with logs := match l with
      | some l => tput s.logs n l
      | none => s.logs.filter (fun e => !decide (e.1 = n)) }
/-- Change dirty logging of a tenant, if it is on. -/
def State.modLog (s : State) (n : Nat) (g : LogS → LogS) : State :=
  match s.log n with
  | some l => s.setLog n (some (g l))
  | none => s

/-- Change every listed link layer. -/
def State.mapWls (s : State) (g : Nat → WlS → WlS) : State := { s with wls := s.wls.map (fun e => (e.1, g e.1 e.2)) }
/-- Change every listed host link. -/
def State.mapHls (s : State) (g : Nat → HlS → HlS) : State := { s with hls := s.hls.map (fun e => (e.1, g e.1 e.2)) }
/-- Change every listed vector. -/
def State.mapVecs (s : State) (g : Nat → Vec → Vec) : State := { s with vecs := s.vecs.map (fun e => (e.1, g e.1 e.2)) }
/-- Keep the waiting host requests that `p` picks. -/
def State.filterHostQ (s : State) (p : HReq → Bool) : State := { s with hostQ := s.hostQ.filter p }
/-- Change every outstanding tag. -/
def State.mapTags (s : State) (g : HTag → HTag) : State := { s with tags := s.tags.map g }

/-- Add to what the block has sent and driven. -/
def emit (o : Out) (s : State) : State := { s with out := s.out ++ [o] }

/-- Place a host request behind those that wait for its link's transmit order. -/
def enqueueHost (r : HReq) (s : State) : State := { s with hostQ := s.hostQ ++ [r] }

/-- Place a packet behind those that wait on Weaseif link `n`. -/
def enqueueLink (n : Nat) (p : WPkt) (s : State) : State := s.modWl n (fun w => { w with linkQ := w.linkQ ++ [p] })

/-! ### Free values -/

/-- Meet a point where the spec leaves a value open (log entry 10): the value is `Config.freeValue` of the count of
points met so far. -/
def draw (s : State) (k : Nat → State → State) : State := k (Config.freeValue s.free) { s with free := s.free + 1 }

/-- Meet a point where the spec leaves a choice open ("may or may not"). -/
def choose (s : State) (k : Bool → State → State) : State := k (Config.freeBit s.free) { s with free := s.free + 1 }

/-! ### Time (R26 to R29) -/

/-- Fine units of a tick. -/
def tickUnits : Nat := 2 ^ 22
/-- The cadence stamp. -/
def State.stamp (s : State) : Nat := s.cad.stamp
/-- EPOCH of the stamp. -/
def State.epoch (s : State) : Nat := s.cad.stamp / 2 ^ 32
/-- PHASE of the stamp. -/
def State.phase (s : State) : Nat := s.cad.stamp / 2 ^ 16 % 2 ^ 16
/-- The era. -/
def State.era (s : State) : Nat := s.rd .CAD_ERA
/-- The pair (era, EPOCH) as one number, by which instants in different eras compare (R29). -/
def State.eraEpoch (s : State) : Nat := s.era * 2 ^ 32 + s.epoch
/-- The pair (era, stamp) as one number. -/
def State.now (s : State) : Nat := s.era * 2 ^ 64 + s.cad.stamp

/-- Set the stamp, and CAD_STAMP_LO with it. -/
def setStamp (v : Nat) (s : State) : State :=
  (s.modCad (fun c => { c with stamp := v % 2 ^ 64 })).wr .CAD_STAMP_LO v

/-- The stamp moves on between events (R28): an event that takes a stamp takes one a fine unit later than the stamp that
stood, unless the tick would end (DESIGN CHOICE, log entry 11). -/
def advance (s : State) : State := if (s.stamp + 1) % tickUnits = 0 then s else setStamp (s.stamp + 1) s

/-! ### Identifiers (R8, R70) -/

/-- The index of a function: 512 places for each host link, the PF first. -/
def fnIdx (f : Fn) : Nat := f.hl.val * 512 + f.vf.val
/-- The index of the PF of a host link. -/
def pfIdx (h : Nat) : Nat := h * 512
/-- The host link of a function index. -/
def fnHl (f : Nat) : Nat := f / 512
/-- The VF number of a function index, 0 for the PF. -/
def fnVf (f : Nat) : Nat := f % 512
/-- The function of an index. -/
def fnOf (i : Nat) : Fn := ⟨⟨i / 512 % 32, Nat.mod_lt _ (by decide)⟩, ⟨i % 512, Nat.mod_lt _ (by decide)⟩⟩
/-- The tiller of a host link. -/
def hlTiller (h : Nat) : Nat := h / 4
/-- The tiller of a Weaseif link. -/
def wlTiller (n : Nat) : Nat := n / 12
/-- The tiller of a channel. -/
def chTiller (c : Nat) : Nat := c / 128

/-- PD_KEEP. -/
def dKeep : Nat := 0
/-- PD_HUB. -/
def dHub : Nat := 1
/-- PD_TLt. -/
def dTl (t : Nat) : Nat := 2 + t
/-- PD_HPHYt. -/
def dHphy (t : Nat) : Nat := 10 + t
/-- PD_WPHYt. -/
def dWphy (t : Nat) : Nat := 18 + t

/-- A domain is ON (Table PW-2). -/
def State.domOn (s : State) (d : Nat) : Bool := s.rd .PW_STATE 0 d == 2
/-- A tiller's logic is ON. -/
def State.tlOn (s : State) (t : Nat) : Bool := s.domOn (dTl t)
/-- A host link is present under its port's bifurcation (R44). -/
def State.present (s : State) (h : Nat) : Bool := decide (h < 32) && s.on .HL_PRESENT h
/-- The host links present. -/
def State.presentHls (s : State) : List Nat := (List.range 32).filter (fun h => s.present h)
/-- The data link of a host link is up. -/
def State.dlUp (s : State) (h : Nat) : Bool := s.on .HL_DL_UP h
/-- PD_AON is out of reset: neither POR nor RESET_N is asserted (R423, R427). -/
def State.aonUp (s : State) : Bool := !s.pins.porLow && !s.pins.resetLow

/-- PD_AON is out of reset and has its clock: R381 gates and holds it from a trip of its source until the FRO is READY.  What it
does of itself and through SMP stops with the clock; accesses to its registers, whose wait for the clock is not modelled, are served
(DESIGN CHOICE, log entry 98). -/
def State.aonRuns (s : State) : Bool := s.aonUp && s.clocks.asyncTrip.isNone
/-- The fatal reaction is in force. -/
def State.react (s : State) : Bool := s.on .WD_REACT
/-- The function that holds manager authority: a PF (R347). -/
def State.isMgr (s : State) (f : Nat) : Bool := !s.keeper.mgrSmp && f == pfIdx s.keeper.mgrHl
/-- The tenant that a VF presents, if any. -/
def State.boundTn (s : State) (f : Nat) : Option Nat :=
  let t := s.rd .DVSEC_TNID f
  if t = 0xFFFF then none else some t
/-- The function that presents a tenant. -/
def State.tnFn (s : State) (n : Nat) : Nat := s.rd .TN_HL n * 512 + s.rd .TN_VF n
/-- The state of a TNID (Table TN-4). -/
def State.tnState (s : State) (n : Nat) : Nat := s.rd .TN_STATE n

/-! ### Bytes -/

/-- A number as `n` little-endian bytes. -/
def le (n v : Nat) : Bytes :=
  match n with
  | 0 => []
  | n + 1 => BitVec.ofNat 8 v :: le n (v / 256)

/-- The number that little-endian bytes spell. -/
def leNat : Bytes → Nat
  | [] => 0
  | b :: r => b.toNat + 256 * leNat r

/-- `n` bytes from offset `o`, zeros beyond the end. -/
def sub (b : Bytes) (o n : Nat) : Bytes := (b.drop o).take n ++ List.replicate (n - (b.drop o).length) 0

/-- The `n`-byte number at offset `o`. -/
def num (b : Bytes) (o n : Nat) : Nat := leNat (sub b o n)

/-- Zero padding to a length. -/
def padTo (n : Nat) (b : Bytes) : Bytes := b ++ List.replicate (n - b.length) 0

/-- Zeros. -/
def zeros (n : Nat) : Bytes := List.replicate n 0

/-- Replace the bytes from offset `o`. -/
def patch (b : Bytes) (o : Nat) (d : Bytes) : Bytes := b.take o ++ d ++ b.drop (o + d.length)

/-- One reflected CRC step of eight bits. -/
def crcByte (poly : Nat) : Nat → Nat → Nat
  | 0, c => c
  | n + 1, c => crcByte poly n (if c % 2 = 1 then (c / 2).xor poly else c / 2)

/-- CRC-32 of R182: reflected polynomial 0xEDB88320, initial value and final XOR all ones. -/
def crc32 (b : Bytes) : Nat :=
  (b.foldl (fun c x => crcByte 0xEDB88320 8 (c.xor x.toNat)) 0xFFFFFFFF).xor 0xFFFFFFFF

/-- Round up to a multiple of `m`. -/
def roundUp (n m : Nat) : Nat := (n + m - 1) / m * m

/-- Saturate at a field's largest value. -/
def sat (w v : Nat) : Nat := min v (2 ^ w - 1)

/-- A signed number of `w` bits read from its two's complement. -/
def toSigned (w v : Nat) : Int := if v % 2 ^ w < 2 ^ (w - 1) then (v % 2 ^ w : Nat) else (v % 2 ^ w : Nat) - (2 ^ w : Nat)

/-- Two's complement of a signed number in `w` bits. -/
def ofSigned (w : Nat) (v : Int) : Nat := (v % (2 ^ w : Nat)).toNat

/-- Number of bits set among the low `n`. -/
def popCount (v n : Nat) : Nat := ((List.range n).filter (fun k => v.testBit k)).length

/-- The lowest set bit below `n`, or `n`. -/
def lowBit (v n : Nat) : Nat := ((List.range n).find? (fun k => v.testBit k)).getD n

end Sys2Proof.Machine
end

