-- ==== Sys2Proof/Machine/Directory.lean ====
section
/-!
DEFINITION. The Resource Directory (R88 to R97): its entries, the image of a link, and its rebuilding.
-/
namespace Sys2Proof.Machine

/-! ### Entries (R92) -/

/-- An entry: TYPE, LEN and its fields, padded to a multiple of 8 bytes. -/
def dirEntry (typ : Nat) (body : Bytes) : Bytes :=
  let n := roundUp (body.length + 4) 8
  le 2 typ ++ le 2 n ++ padTo (n - 4) body

/-- A register block entry: code, BAR, domain of instance 0, offset, stride, count, DOM_DIV, bytes of an instance. -/
def blockEntry (code bar dom off stride count div bytes : Nat) : Bytes :=
  dirEntry 1 (le 2 code ++ le 1 bar ++ le 1 dom ++ le 4 off ++ le 4 stride ++ le 2 count ++ le 2 div ++ le 4 bytes)

/-- The blocks of PF BAR0 (Table CF-6): code, offset, stride, count, domain of instance 0, DOM_DIV, and the bytes of an
instance where the spec states them (0: it does not). -/
def bar0Blocks : List (Nat × Nat × Nat × Nat × Nat × Nat × Nat) :=
  [(0x01, 0x0, 0, 1, 0x00, 0, 0), (0x02, 0x100000, 0, 1, 0x00, 0, 0), (0x03, 0x200000, 0x1000, 32, 0x10, 4, 0),
   (0x04, 0x300000, 0, 1, 0x00, 0, 0), (0x05, 0x310000, 0, 1, 0x00, 0, 0), (0x06, 0x320000, 0, 1, 0x00, 0, 0),
   (0x07, 0x330000, 0, 1, 0x02, 0, 0), (0x08, 0x340000, 0, 1, 0x01, 0, 0), (0x09, 0x400000, 0x1000, 96, 0x10, 12, 0),
   (0x0A, 0x500000, 0x800, 96, 0x30, 12, 0)] ++
  [(0x0B, 0x600000, 0x10000, 8, 0x10, 1, 0), (0x0C, 0x700000, 0, 1, 0x02, 0, 0),
   (0x0D, 0x800000, 0x20, 2048, 0x10, 256, 0x20), (0x0E, 0x810000, 0x20, 1024, 0x10, 128, 0x20),
   (0x0F, 0x820000, 0x10, 1024, 0x10, 128, 0x10), (0x10, 0x830000, 0x100, 256, 0x10, 32, 0x100),
   (0x11, 0x900000, 0x400, 256, 0x02, 0, 0x400), (0x12, 0x1000000, 0x100, 1024, 0x10, 128, 0x100),
   (0x13, 0x2000000, 0, 1, 0x100, 0, 0x2000000)]

/-- A stated value, or the free one. -/
def dirStated (code bar fld stated none_ : Nat) : Nat := if stated = none_ then Config.dirField code bar fld else stated

/-- The register block entries of PF BAR0. -/
def bar0Entries : Bytes :=
  bar0Blocks.flatMap (fun (code, off, stride, count, dom, div, bytes) =>
    blockEntry code 0 (dirStated code 0 1 dom 0x100) off stride count div (dirStated code 0 0 bytes 0))

/-- The register block entries of PF BAR4 of a link (Table CF-8). -/
def bar4Entries (h : Nat) : Bytes :=
  let dom := 0x10 + hlTiller h
  blockEntry 0x14 4 dom 0 0 1 0 512 ++ blockEntry 0x15 4 dom 0x8000 0 1 0 8 ++ blockEntry 0x16 4 dom 0x10000 0 1 0 4096

/-- The register block entries of the VF BARs of a link (Table CF-8). -/
def vfEntries (h : Nat) : Bytes :=
  let dom := 0x10 + hlTiller h
  blockEntry 0x12 0x10 (Config.dirField 0x12 0x10 1) 0 0x100 64 0 0x100 ++
    blockEntry 0x17 0x10 (Config.dirField 0x17 0x10 1) 0x4000 4 64 0 4 ++ blockEntry 0x11 0x10 0x02 0x8000 0 1 0 0x400 ++
    blockEntry 0x14 0x14 dom 0 0 1 0 (Config.dirField 0x14 0x14 0) ++ blockEntry 0x15 0x14 dom 0x2000 0 1 0 16 ++
    blockEntry 0x16 0x14 dom 0x3000 0 1 0 4096

/-- The capability entries (Table CF-12). -/
def capEntries (s : State) : Bytes :=
  let cap (key v : Nat) : Bytes := dirEntry 5 (le 2 key ++ le 2 0 ++ le 8 v)
  cap 1 256 ++ cap 2 1024 ++ cap 3 8192 ++ cap 4 512 ++ cap 5 (2048 + 1024 * 2 ^ 32) ++
    cap 6 (s.presentHls.foldl setBit 0) ++ cap 7 16 ++ cap 8 4

/-- The numbers a register table lists a non-zero value of field `f` for. -/
def listed (s : State) (f : Fld) : List Nat := s.regs.filterMap (fun e => if e.1.f = f ∧ e.2 ≠ 0 then some e.1.i else none)

/-- The enabled entries of a pool, by their SIZE or COUNT fields. -/
def enabledEntries (s : State) (lo hi : Fld) : List Nat := (listed s lo ++ listed s hi).dedup.mergeSort

/-- A number of two register fields: 4 KiB units below bit 32, and the bits above. -/
def wide (s : State) (lo hi : Fld) (i : Nat) (j : Nat := 0) : Nat := s.rd lo i j * 4096 + s.rd hi i j * 2 ^ 32

/-- The functions of a view: link and VF. -/
abbrev View := Nat → Nat → Bool

/-- An outbound window entry for destination function (`h`, `vf`). -/
def outEntry (s : State) (i vf host mode : Nat) : Bytes :=
  dirEntry 3 (le 2 i ++ le 2 vf ++ le 8 host ++ le 8 (wide s .OW_SIZE_LO .OW_SIZE_HI i) ++ le 1 (s.rd .OW_LINK i) ++
    le 1 (s.rd .OW_CLASS i) ++ le 1 mode ++ le 1 0 ++ le 2 (s.rd .OW_DEADLINE i) ++ le 2 0 ++
    le 8 (wide s .OW_LOCAL_BASE_LO .OW_LOCAL_BASE_HI i))

/-- The function a destination names: a tenant's, or a PF. -/
def destFn (s : State) (toPf : Bool) (hl tn : Nat) : Nat × Nat :=
  if toPf then (hl, 0) else (s.rd .TN_HL tn, s.rd .TN_VF tn)

/-- The outbound windows of a view; one of a sheaf appears once for each destination in the view (R93).  In the manager's
view that is each of its destinations, on whatever link (DESIGN CHOICE, log entry 49). -/
def outEntries (s : State) (v : View) : Bytes :=
  (enabledEntries s .OW_SIZE_LO .OW_SIZE_HI).flatMap (fun i =>
    if s.on .OW_SHEAF i then
      let k := s.rd .OW_TNID i
      (List.range (s.rd .SH_DEST_COUNT k)).flatMap (fun d =>
        let f := destFn s (s.on .SH_TO_PF k d) (s.rd .SH_PF_HL k d) (s.rd .SH_TNID k d)
        if v f.1 f.2 then outEntry s i f.2 (wide s .SH_HOST_BASE_LO .SH_HOST_BASE_HI k d) (s.rd .SH_MODE k) else [])
    else
      let f := destFn s (s.on .OW_TO_PF i) (s.rd .OW_PF_HL i) (s.rd .OW_TNID i)
      if v f.1 f.2 then outEntry s i f.2 (wide s .OW_HOST_BASE_LO .OW_HOST_BASE_HI i) 0 else [])

/-- The inbound windows of a view. -/
def inEntries (s : State) (v : View) : Bytes :=
  (enabledEntries s .IW_SIZE_LO .IW_SIZE_HI).flatMap (fun i =>
    if v (s.rd .IW_HL i) (s.rd .IW_FUNC i) then
      dirEntry 2 (le 2 i ++ le 2 (s.rd .IW_FUNC i) ++ le 8 (wide s .IW_BAR_OFFSET_LO .IW_BAR_OFFSET_HI i) ++
        le 8 (wide s .IW_SIZE_LO .IW_SIZE_HI i) ++ le 1 (s.rd .IW_LINK i) ++ le 1 (s.rd .IW_RD i + 2 * s.rd .IW_WR i) ++
        zeros 6)
    else [])

/-- The tenants of a view; a PENDING one presents no function and stands in the manager's view alone. -/
def tenantEntries (s : State) (v : View) : Bytes :=
  (listed s .TN_STATE).mergeSort.flatMap (fun n =>
    if (if s.tnState n = 5 then v 32 0 else v (s.rd .TN_HL n) (s.rd .TN_VF n)) then
      dirEntry 4 (le 1 n ++ le 1 (s.rd .TN_GENERATION n) ++ le 2 (s.rd .TN_VF n) ++ le 1 (s.rd .TN_HL n) ++
        le 1 (s.tnState n) ++ le 1 (s.rd .TN_VECTORS n) ++ le 1 (s.rd .TN_CH_COUNT n) ++ le 2 (s.rd .TN_CB_UNITS n) ++
        le 2 (s.rd .TN_ALLOWANCE n) ++ (s.ten n).chans.flatMap (le 2))
    else [])

/-! ### The image (R90, R91, R97) -/

/-- ROM recovery mode, which BOOT_STATUS shows: from its entry until firmware runs, a restart of the Keeper in it included
(R97, R455). -/
def recovery (s : State) : Bool := s.on .PW_RECOVERY

/-- The entries of a byte string, counted by their LEN. -/
def countEntries : Nat → Bytes → Nat
  | 0, _ => 0
  | _, [] => 0
  | k + 1, b => 1 + countEntries k (b.drop (max 8 (num b 2 2)))

/-- A directory from MAGIC to its end entry. -/
def dirImage (s : State) (h gen flags : Nat) (entries : Bytes) : Bytes :=
  let body := entries ++ dirEntry 0 (le 4 0)
  let hdr (crc : Nat) : Bytes :=
    [0x52, 0x50, 0x52, 0x44] ++ le 2 1 ++ le 2 64 ++ le 4 (64 + body.length) ++ le 4 gen ++ le 8 s.stamp ++ le 2 s.era ++
      le 1 h ++ le 1 flags ++ le 4 s.upd.fwVersion ++ le 4 (countEntries (body.length + 1) body) ++ le 4 crc ++ zeros 24
  hdr (crc32 (hdr 0 ++ body)) ++ body

/-- The view of a link: its own functions, or every one in the manager's view; none in ROM recovery mode. -/
def linkView (s : State) (h : Nat) (mgr : Bool) : View := fun h' _ => !recovery s && (mgr || h' == h)

/-- A view's entries. -/
def viewEntries (s : State) (v : View) : Bytes :=
  (if recovery s then [] else inEntries s v ++ outEntries s v ++ tenantEntries s v) ++ capEntries s

/-- The directory of a link as the state stands (R93). -/
def linkDir (s : State) (h gen : Nat) (mgr : Bool) : Bytes :=
  dirImage s h gen ((if mgr then 1 else 0) + (if recovery s then 2 else 0) +
      (if recovery s || s.store.rom.isEmpty then 0 else 4))
    (bar0Entries ++ bar4Entries h ++ vfEntries h ++ viewEntries s (linkView s h mgr))

/-- A tenant's view of the directory (R96).  GENERATION is that of its link's directory, BUILT the stamp at the read, and FLAGS[1]
and FLAGS[2] are 0 as FLAGS[0] is: a VF has no ROM with an image 1 (DESIGN CHOICE, log entry 50). -/
def tenantDir (s : State) (n : Nat) : Bytes :=
  let h := s.rd .TN_HL n
  dirImage s h (s.hl h).dirGen 0
    (vfEntries h ++ viewEntries s (fun h' vf => h' == h && vf == s.rd .TN_VF n))

/-! ### Rebuilding (R94) -/

/-- The link whose PF holds manager authority. -/
def mgrLink (s : State) : Option Nat := if s.keeper.mgrSmp then none else some s.keeper.mgrHl

/-- The Keeper rebuilds a link's directory: GENERATION, BUILT, and image 1 as the store holds it. -/
def rebuildDir (h : Nat) (s : State) : State :=
  let g := ((s.hl h).dirGen + 1) % 2 ^ 32
  let mgr := mgrLink s == some h
  let s := s.modHl h (fun l => { l with
    dirGen := g
    dir := linkDir s h g mgr
    rom1 := if recovery s then [] else s.store.rom
    dirDue := false })
  when mgr (fun s => s.wr .DEV_DIR_GEN g) (s.wr .DVSEC_DIR_GEN g (pfIdx h))

/-- The Keeper's firmware runs. -/
def dirServed (s : State) : Bool := s.domOn dKeep && s.rd .KP_KSTATE != 0 && s.rd .KP_KSTATE != 4

/-- A change that the directories of the links in `hs` and of the manager show (R94).  A Keeper that does not run
rebuilds them when it does.  While SMP holds authority no link serves the manager's directory, and DEV_DIR_GEN counts the
changes (DESIGN CHOICE, log entry 51). -/
def dirChange (hs : List Nat) (s : State) : State :=
  let all := ((mgrLink s).toList ++ hs).dedup.filter (fun h => s.present h)
  let s := when (s.keeper.mgrSmp && dirServed s) (fun s => s.wr .DEV_DIR_GEN (s.rd .DEV_DIR_GEN + 1)) s
  each all (fun h s => if dirServed s then rebuildDir h s else s.modHl h (fun l => { l with dirDue := true })) s

/-- A change of one link's tenants, windows or allotment. -/
def dirChanged (h : Nat) (s : State) : State := dirChange [h] s

/-- The image 0 that a link serves in its ROM window (R89, R90). -/
def romImage0 (s : State) (h : Nat) : Bytes :=
  let l := s.hl h
  let len := roundUp (0x40 + l.dir.length) 512
  padTo len ([0x55, 0xAA] ++ zeros 22 ++ le 2 0x20 ++ zeros 6 ++ [0x50, 0x43, 0x49, 0x52] ++ le 2 0x1D5E ++
    le 2 (s.rd .DEV_DEVICE) ++ le 2 0 ++ le 2 0x1C ++ le 1 3 ++ [0x00, 0x80, 0x08] ++ le 2 (len / 512) ++ le 2 l.dirGen ++
    le 1 0xE0 ++ le 1 (if l.rom1.isEmpty then 0x80 else 0) ++ zeros 6 ++ zeros 4 ++ l.dir)

/-- The ROM window of a link: image 0, then image 1; bytes beyond read as 0 (R88, R89). -/
def romWindow (s : State) (h : Nat) : Bytes := romImage0 s h ++ (s.hl h).rom1

end Sys2Proof.Machine
end

