-- ==== Sys2Proof/Machine/Grains.lean ====
section
/-!
DEFINITION. What a Weaseif link puts on its lanes (chapters 7 and 8): the check sum and the layouts of alignment blocks,
training blocks and grains, scrambling and striping, and what each transmit lane carries.
-/
namespace Sys2Proof.Machine

/-! ### CRC-16 (R360, Tables WP-4 and WP-5) -/

/-- Steps of the CRC-16 with polynomial 0x1021, most significant bit first. -/
def crc16Steps : Nat → Nat → Nat
  | 0, c => c
  | n + 1, c => crc16Steps n (if c.testBit 15 then (c * 2 % 2 ^ 16).xor 0x1021 else c * 2 % 2 ^ 16)

/-- The CRC-16 of R360 and Tables WP-4 and WP-5: initial value 0xFFFF, nothing reflected, no final XOR (PRESUMED, log entry 58). -/
def crc16 (b : Bytes) : Nat := b.foldl (fun c x => crc16Steps 8 (c.xor (x.toNat * 256))) 0xFFFF

/-! ### Scrambling and striping (R163, R166) -/

/-- The seed of a logical lane (Table WP-3). -/
def scrSeed (l : Nat) : Nat := [0x0A3C59, 0x1596C3, 0x620D1B, 0x7FE44A].getD l 0

/-- A step of the scrambler x^23 + x^21 + x^16 + x^8 + x^5 + x^2 + 1: its register shifts toward bit 22, whose bit is the
step's output (DESIGN CHOICE, log entry 57). -/
def scrStep (r : Nat) : Nat :=
  r * 2 % 2 ^ 23 + popCount (r &&& (2 ^ 22 + 2 ^ 20 + 2 ^ 15 + 2 ^ 7 + 2 ^ 4 + 2 ^ 1)) 23 % 2

/-- The register after `n` steps. -/
def scrRun : Nat → Nat → Nat
  | 0, r => r
  | n + 1, r => scrRun n (scrStep r)

/-- The next `n` output bits, the first in bit 0. -/
def scrBits : Nat → Nat → Nat
  | 0, _ => 0
  | n + 1, r => (if r.testBit 22 then 1 else 0) + 2 * scrBits n (scrStep r)

/-- Bytes scrambled, least significant bit first, by a scrambler whose register stands at `r`. -/
def scramble : Bytes → Nat → Bytes
  | [], _ => []
  | x :: t, r => (x ^^^ BitVec.ofNat 8 (scrBits 8 r)) :: scramble t (scrRun 8 r)

/-- The bytes that go to the `i`-th of `w` active lanes (R163). -/
def striped (b : Bytes) (w i : Nat) : Bytes := (b.zipIdx.filter (fun x => x.2 % w == i)).map (·.1)

/-- Bits of a grain slot on each of `w` lanes. -/
def slotBits (w : Nat) : Nat := 640 / w

/-- The bytes of a grain on each of the lanes `ls`, in logical order, in the slot `slot` after the last alignment block. -/
def onLanes (ls : List Nat) (slot : Nat) (b : Bytes) : List (Nat × Bytes) :=
  ls.zipIdx.map (fun x =>
    (x.1, scramble (striped b ls.length x.2) (scrRun (slot * slotBits ls.length) (scrSeed x.1))))

/-! ### Lanes by number (R163, R164) -/

/-- The logical lane of physical receive lane `k`. -/
def logicalOf (s : State) (n k : Nat) : Nat := s.rd .WP_LANE_MAP n / 4 ^ k % 4

/-- The physical receive lane of a logical one. -/
def physOf (s : State) (n l : Nat) : Nat := ([0, 1, 2, 3].find? (fun k => logicalOf s n k == l)).getD l

/-- The physical lanes of a set of logical lanes. -/
def physMask (s : State) (n set : Nat) : Nat :=
  ((List.range 4).filter (fun k => set.testBit (logicalOf s n k))).foldl (fun m k => m + 2 ^ k) 0

/-- The active transmit lanes of a link, in logical order. -/
def txLanes (s : State) (n : Nat) : List Nat := (List.range 4).filter (fun l => (s.wp n).txSet.testBit l)

/-- A lane is in LANE_EN as it was last applied (Table WP-6). -/
def laneEn (s : State) (n k : Nat) : Bool := (s.wp n).enLanes.testBit k

/-! ### Grains (R181, R182, R207) -/

/-- The bytes of a grain before its CRC (Table WL-1). -/
def grainBytes (g : Grain) : Bytes :=
  sub g.payload 0 64 ++
    [BitVec.ofNat 8 (g.typ % 16 + g.sop % 4 * 16 + g.eop % 4 * 64),
     BitVec.ofNat 8 ((if g.ackV then 1 else 0) + (if g.inj then 2 else 0) + (if g.crV then 4 else 0) + g.rsv % 2 * 8 +
       g.health % 16 * 16)] ++
    le 3 (g.seq % 4096 + g.ack % 4096 * 4096) ++
    le 5 (g.crP % 4096 + g.crN % 4096 * 2 ^ 12 + g.crC % 4096 * 2 ^ 24 + g.rsv / 2 % 16 * 2 ^ 36) ++ le 2 (g.rsv / 32)

/-- A grain with its CRC. -/
def sealGrain (g : Grain) : Grain := { g with crc := crc32 (grainBytes g) }

/-- The link's HEALTH nibble: the least of its ACTIVE receive lanes. -/
def linkHealth (s : State) (n : Nat) : Nat :=
  (((List.range 4).filter (fun k => s.rd .WP_LSTATE n k == 2)).map (fun k => s.rd .WP_HEALTH n k)).foldl min 15

/-- A grain goes out in the slot behind `k` slots without one that the model shows. -/
def sendSlot (n k : Nat) (g : Grain) (s : State) : State :=
  let slot := (s.wp n).txSlot + k
  emit (.grain n g (onLanes (txLanes s n) slot (grainBytes g ++ le 4 g.crc))) (s.modWp n (fun w => { w with txSlot := slot + 1 }))

/-- The HALT grain of the fatal reaction (R207, Table WL-2). -/
def haltGrain (s : State) (n : Nat) : Grain :=
  sealGrain { typ := 4, sop := 0, eop := 0, ackV := false, inj := false, crV := false, health := linkHealth s n, seq := 0, ack := 0
              crP := 0, crN := 0, crC := 0
              payload := padTo 64 (le 8 1 ++ le 8 (s.rd .WD_REACT_STAMP) ++ le 2 (s.rd .WD_REACT_ERA)), crc := 0, rsv := 0 }

/-- HALT in every grain slot from the next one on (R208, Table WL-6): the first of them is shown. -/
def sendHalt (n : Nat) (s : State) : State := draw s (fun k s => sendSlot n k (haltGrain s n) s)

/-! ### Alignment and training blocks (R167, R169) -/

/-- One lane's part of an alignment block at width `w` (Table WP-4). -/
def alignBytes (w lane mask count : Nat) : Bytes :=
  let b := [0xBC, 0x0A] ++ le 1 (lane % 4) ++ le 1 (mask % 16) ++ le 2 (count % 2 ^ 16)
  padTo (80 / w) (b ++ le 2 (crc16 b))

/-- A training block (Table WP-5). -/
def trainBytes (typ lane role rates lanes flags seq : Nat) : Bytes :=
  let b := [0xBC] ++ le 1 typ ++ le 1 (lane % 4) ++ le 1 role ++ le 1 rates ++ le 1 lanes ++ le 1 flags ++ le 1 (seq % 256) ++
    zeros 6
  b ++ le 2 (crc16 b)

/-- ROLE of the bridge's training blocks: its side as WP_STATUS.ROLE shows it (DESIGN CHOICE before it is known, log entry
65), the peer bit, and its DEVID. -/
def roleByte (s : State) (n : Nat) : Nat := s.rd .WP_ROLE n + s.rd .WP_PEER n * 2 + s.pins.straps.devid.val * 4

/-! ### What the lanes carry (R172 to R178) -/

/-- The patterns of Table WP-10: PRBS7, PRBS15 and PRBS31 (R175). -/
def pattern (v : Nat) : LaneTx :=
  match v with
  | 1 => .prbs 7 6
  | 2 => .prbs 15 14
  | 3 => .prbs 31 28
  | _ => .idle

/-- A link's pads are free and its PHY runs. -/
def lanesLive (s : State) (n : Nat) : Bool := s.domOn (dWphy (wlTiller n)) && !s.on .PW_PAD_HOLD 0 (dWphy (wlTiller n))

/-- Loopback as the lanes show it. -/
def loopTx (s : State) (n : Nat) : LaneTx := if s.rd .WP_LOOPBACK n = 2 then .echoed else .fedBack

/-- What transmit lane `k` carries.  Lane `k` transmits logical lane `k`, and follows the state of the lane that receives that
one; in TEST it sends its own pattern.  A FAILED lane is idle (DESIGN CHOICE, log entry 64). -/
def laneTx (s : State) (n k : Nat) : LaneTx :=
  let st := s.rd .WP_LSTATE n (physOf s n k)
  if !lanesLive s n then .idle
  else if s.rd .WP_STATE n = 7 then loopTx s n
  else if s.rd .WP_LSTATE n k = 5 then pattern (s.rd .WP_GEN n k)
  else if st = 1 then (if s.rd .WP_STATE n = 3 then .idle else .training)
  else if st = 2 then .grains
  else if st = 3 then (if s.on .WP_STBY_IDLE n then .idle else .zeros)
  else if st = 4 then .background
  else .idle

/-- What the clock lane carries: in DISABLED a clock only for lanes in TEST (R175). -/
def clockTx (s : State) (n : Nat) : LaneTx :=
  let st := s.rd .WP_STATE n
  if !lanesLive s n then .idle
  else if st = 0 then
    (if [0, 1, 2, 3].any (fun k => s.rd .WP_LSTATE n k == 5) then .clock (s.rd .WP_TARGET_RATE n) else .idle)
  else if st = 1 || st = 2 then .clock 0
  else if st = 3 then .idle
  else if st = 7 then loopTx s n
  else .clock (s.rd .WP_CUR_RATE n)

/-- Show what has changed on the lanes of link `n` since `was`; lane 4 is the clock. -/
def showTx (n : Nat) (was s : State) : State :=
  let s := each [0, 1, 2, 3] (fun k s => when (decide (laneTx was n k ≠ laneTx s n k)) (emit (.lane n k (laneTx s n k))) s) s
  when (decide (clockTx was n ≠ clockTx s n)) (emit (.lane n 4 (clockTx s n))) s

/-- Do `f`, and show what it has changed on the lanes of link `n`. -/
def shown (n : Nat) (f : State → State) (s : State) : State := showTx n s (f s)

/-- The lanes that send training blocks. -/
def trainLanes (s : State) (n : Nat) : List Nat := (List.range 4).filter (fun k => decide (laneTx s n k = .training))

/-- Training blocks of a type on every lane that trains, back to back (R169): the first is shown; SEQ goes on from an open
value.  FLAGS[0] says that the link retrains: it is 1 in RETRAIN, and 0 in FAST also where SWITCH led there from RETRAIN (DESIGN CHOICE,
log entry 87). -/
def sendTrain (n typ rates lanes : Nat) (s : State) : State :=
  draw s (fun q s =>
    emit (.train n ((trainLanes s n).map (fun k =>
      (k, trainBytes typ k (roleByte s n) rates lanes (if s.rd .WP_STATE n = 6 then 1 else 0) q)))) s)

/-- The rates that TS1 and TS2 offer: those up to TARGET_RATE as it was last applied (DEDUCED, log entry 60). -/
def offered (s : State) (n : Nat) : Nat := 2 ^ ((s.wp n).tgtRate + 1) - 1

/-- TS1 (Table WP-5). -/
def sendTs1 (n : Nat) (s : State) : State := sendTrain n 1 (offered s n) 0 s

/-! ### Checkers (R176) -/

/-- One error in how many bits (R177, Table WP-10). -/
def rateBits (s : State) (n k : Nat) : Nat := 2 ^ min 40 (max 8 (s.rd .WP_RATE_EXP n k))

/-- Injection by transmit lane `k` may act: with INJ_LIVE on the grains of an ACTIVE link whose active set holds the lane, without it on
the lane's running generator (R177).  A transmitter is ACTIVE by the set it sends on (DEDUCED, log entry 91). -/
def injMay (s : State) (n k : Nat) : Bool :=
  if s.on .WP_INJ_LIVE n k then s.rd .WP_STATE n == 5 && (s.wp n).txSet.testBit k
  else s.rd .WP_LSTATE n k == 5 && s.on .WP_GEN n k

/-- The bits that a generator under a rate injection has sent since they were last counted, whose number is open, flip one in each
2^RATE_EXP (R177); they are counted at each tick boundary, and when the injection ends (DESIGN CHOICE, log entry 62). -/
def countInj (n k : Nat) (s : State) : State :=
  let acc := (s.wp n).injAcc.getD k 0
  if acc = 0 || s.on .WP_INJ_LIVE n k || !injMay s n k then s
  else draw s (fun m s =>
    let bits := acc - 1 + m
    let every := rateBits s n k
    (s.add .WP_LN_INJ_CNT (bits / every) n k).modWp n (fun w => { w with injAcc := w.injAcc.set k (bits % every + 1) }))

/-- Every rate injection into a generated pattern counts. -/
def countAllInj (s : State) : State :=
  each (s.wps.filter (fun e => e.2.injAcc.any (· != 0) && s.domOn (dWphy (wlTiller e.1)))) (fun e s =>
    each [0, 1, 2, 3] (fun k s => countInj e.1 k s) s) s

/-- The bits checked since they were last counted, and the errors among them, go to the counters of a lane in sync.  Both
are open; they are counted at each tick boundary, and when checking ends (DESIGN CHOICE, log entry 62). -/
def countPrbs (n k : Nat) (s : State) : State :=
  when (s.on .WP_PRBS_SYNC n k) (fun s => draw s (fun b s => draw s (fun e s =>
    (s.add .WP_LN_BITS_CNT b n k).add .WP_LN_ERR_CNT (e % (b + 1)) n k))) s

/-- Every checker in sync counts. -/
def countAllPrbs (s : State) : State :=
  each (s.regs.filter (fun e => decide (e.1.f = .WP_PRBS_SYNC))) (fun e => countPrbs e.1.i e.1.j) s

end Sys2Proof.Machine
end

