-- ==== Sys2Proof/Machine/Flags.lean ====
section
/-!
DEFINITION. What an event does beside its own effect: trace records (R458 to R461), journal records (R390 to R393),
interrupt causes and vectors (R318 to R325), PME (R58), AER (R375), the latching of an error line at the Ward (R371 to
R376, R387) and the fatal reaction (R377).
-/
namespace Sys2Proof.Machine

/-! ### Trace -/

/-- A record passes a filter (R462). -/
def passes (f : TraceFilter) (r : TrRec) : Bool :=
  let cls := r.code / 256
  let id := r.source % 4096
  cls == 0 ||
    (f.classEn.testBit cls &&
      (match r.source / 4096 with
       | 1 => f.tenants.testBit id
       | 2 => f.wlinks.testBit id
       | 3 => f.hlinks.testBit id
       | _ => true))

/-- An event is recorded in the queue of its source unit; a record that finds 16 waiting is discarded and remembered
for the DROPPED record.  With PD_HUB not ON it is discarded uncounted (R461).  The filter in force at its stamp is the one that
will let it through (R462).  A source unit is what one value of SOURCE names (DESIGN CHOICE, log entry 80). -/
def trace (kind id code arg : Nat) (s : State) : State :=
  if s.domOn dHub then
    let s := advance s
    let src := kind * 4096 + id % 4096
    let q := tget ⟨[], 0⟩ s.trace.srcQ src
    let r : TrRec := ⟨s.stamp, src, code, arg % 2 ^ 32⟩
    let q' : SrcQ :=
      if q.recs.length < 16 then { q with recs := q.recs ++ [(r, passes s.trace.filter r)] }
      else { q with dropped := q.dropped + 1 }
    s.modTrace (fun t => { t with srcQ := tset ⟨[], 0⟩ t.srcQ src q' })
  else s

/-- A record without a source (KIND 0). -/
def traceNone (code arg : Nat) (s : State) : State := trace 0 0 code arg s

/-- A record joins the ring; a stream that is on will write it. -/
def ringAppend (r : TrRec) (s : State) : State :=
  let n := s.rd .TR_NEXT
  let s := s.modTrace (fun t => { t with
    ring := tput (t.ring.filter (fun e => decide (n < e.1 + 65536))) n r
    strWaited := if s.on .TR_STREAM_ON then t.strWaited ++ [0] else t.strWaited })
  let s := s.wr .TR_NEXT (n + 1)
  if n + 1 - s.rd .TR_OLDEST > 65536 then s.wr .TR_OLDEST (n + 1 - 65536) else s

/-- A class 0 record that the ring itself begins with: it is appended at once. -/
def ringNote (code arg : Nat) (s : State) : State :=
  let s := advance s
  ringAppend ⟨s.stamp, 0, code, arg % 2 ^ 32⟩ s

/-- How an event of a function names its source in a trace record: a VF by its tenant, a PF by its host link (R459). -/
def fnSource (s : State) (f : Nat) : Nat × Nat :=
  match s.boundTn f with
  | some t => (1, t)
  | none => (3, fnHl f)

/-- A trace record of an event of a function. -/
def traceFn (f code arg : Nat) (s : State) : State := trace (fnSource s f).1 (fnSource s f).2 code arg s

/-- What keeps the stream from writing (R466); D3hot acts as Bus Master Enable 0 (R56). -/
def streamBlocked (s : State) : Bool :=
  let h := s.rd .TR_STREAM_HL
  !s.dlUp h || !(s.cf (pfIdx h)).bme || (s.cf (pfIdx h)).d3 || s.react

/-- A stream that cannot write shows it (R466); it stays paused until STREAM_RESUME. -/
def pauseStream (s : State) : State := when (s.on .TR_STREAM_ON && streamBlocked s) (fun s => s.wr .TR_STREAM_PAUSED 1) s

/-! ### Journal -/

/-- CHECKPOINT and ERA_ROLL records, which have places of their own (R393). -/
def JBody.kept : JBody → Bool
  | .checkpoint _ _ => true
  | .eraRoll _ => true
  | _ => false

/-- A FAULT record of class CORR. -/
def JBody.corrFault : JBody → Bool
  | .fault _ _ c _ _ _ => c == 0
  | _ => false

/-- Whether the queue takes the record (R393). -/
def jTakes (s : State) (b : JBody) : Bool :=
  b.kept ||
    (decide ((s.journal.queue.filter (fun r => !r.body.kept)).length < 62) &&
      (!b.corrFault || decide (s.journal.queue.length < 48)))

/-- Show the queue in JR_QUEUED. -/
def jShow (s : State) : State := s.wr .WD_JR_QUEUED s.journal.queue.length

/-- Queue a journal record of an event that carried a stamp; a record without a place is dropped and counted.  The record of
a reaction goes to the head, behind the record being programmed ("When faults coincide"). -/
def jPut (b : JBody) (injected : Bool) (stamp era : Nat) (s : State) : State :=
  let r : JRec := ⟨b, (if injected then 1 else 0) + (if s.on .CAD_SEEDED then 0 else 2), stamp, era, 0, 0, 0, 0⟩
  if jTakes s b then
    jShow (s.modJournal (fun j => { j with queue :=
      match b with
      | .fatalReaction _ _ => j.queue.take 1 ++ [r] ++ j.queue.drop 1
      | _ => j.queue ++ [r] }))
  else
    (s.modJournal (fun j =>
      if b.corrFault then { j with lostCorr := j.lostCorr + 1 } else { j with lostOther := j.lostOther + 1 })).inc
        .WD_JR_LOST_CNT

/-- Queue a journal record of an event that takes a stamp. -/
def journal (b : JBody) (s : State) : State :=
  let s := advance s
  jPut b false s.stamp s.era s

/-! ### Messages, PME, vectors and causes -/

/-- A TLP with `n` bytes of payload arrives on a link, which is no longer idle (Table OB-5, R53, R54). -/
def rxTlp (h n : Nat) (s : State) : State :=
  ((s.inc .CT_HL_RX_TLP h).add .CT_HL_RX_PAYLOAD n h).modHl h (fun l => { l with idleTicks := 0, rxBytes := l.rxBytes + n })

/-- A TLP with `n` bytes of payload leaves on a link (Table OB-5, R53, R54). -/
def txTlp (h n : Nat) (s : State) : State :=
  ((s.inc .CT_HL_TX_TLP h).add .CT_HL_TX_PAYLOAD n h).modHl h (fun l => { l with idleTicks := 0, txBytes := l.txBytes + n })

/-- Whether the bridge drives CLKREQ_N of a link low (R49, R419): while its PHY is WAKING, ON or HELD, except in L1.1 and
L1.2.  While the pads are latched R49 drives it and R419 does not, and neither yields to the other: the model drives it in
WAKING, whose clock step needs REFCLK, and not in ON and HELD (DESIGN CHOICE, log entry 43). -/
def clkreqLow (s : State) (h : Nat) : Bool :=
  let d := dHphy (hlTiller h)
  let st := s.rd .PW_STATE 0 d
  s.present h && (st == 3 || ((st == 2 || st == 4) && !s.on .PW_PAD_HOLD 0 d)) && decide (s.rd .HL_L1SUB h < 2)

/-- Drive CLKREQ_N of a link and show it. -/
def showClkreq (h : Nat) (s : State) : State :=
  let low := clkreqLow s h
  if s.on .HL_CLKREQ h = low then s
  else emit (.pin (.clkreqN h) (!low)) (s.wr .HL_CLKREQ (if low then 1 else 0) h)

/-- A link in L1 returns to L0 through Recovery (R55). -/
def leaveL1 (h : Nat) (s : State) : State :=
  when (s.rd .HL_LTSSM h == 5) (fun s =>
    let s := s |>.wr .HL_LTSSM 3 h |>.wr .HL_L1SUB 0 h |>.wr .HL_CUR_SPEED (s.hl h).speed h |>.inc .HL_RECOV_CNT h
    showClkreq h (emit (.phy h 5 0) (s.modHl h (fun l => { l with idleTicks := 0 })))) s

/-- Nanoseconds of an LTR value: the latency in [9:0], its scale in [12:10]. -/
def ltrNs (v : Nat) : Nat := v % 1024 * 32 ^ (v / 1024 % 8)

/-- The active latency, capped at a Max Latency of the host (R57). -/
def ltrCapped (v cap : Nat) : Nat := if ltrNs cap < ltrNs v then cap else v

/-- A message TLP leaves on a link in L0. -/
def putMsg (f : Nat) (m : HMsg) (s : State) : State := emit (.msg (fnOf f) m) (txTlp (fnHl f) 0 s)

/-- The LTR message with the active latency of a link (R57). -/
def sendLtr (h : Nat) (s : State) : State :=
  let c := s.cf (pfIdx h)
  let v := s.rd .HL_LTR_VALUE h + s.rd .HL_LTR_SCALE h * 1024
  putMsg (pfIdx h) (.ltr (ltrCapped v c.ltrMaxSnoop) (ltrCapped v c.ltrMaxNoSnoop))
    (s.modHl h (fun l => { l with ltrActive := true }))

/-- What goes before a completion or a message on a link: the exit from L1 (R54, R58), and the active latency after an idle
LTR (R57). -/
def readyTlp (h : Nat) (s : State) : State :=
  let s := leaveL1 h s
  when ((s.cf (pfIdx h)).ltrEn && !(s.hl h).ltrActive) (sendLtr h) s

/-- A message TLP leaves on a link whose data link is up (R54, R57, R58, R377). -/
def sendMsg (f : Nat) (m : HMsg) (s : State) : State :=
  when (s.dlUp (fnHl f)) (fun s => putMsg f m (readyTlp (fnHl f) s)) s

/-- The cause's bit in FN_EVENTS. -/
def Cause.fld : Cause → Fld
  | .reply => .FI_REPLY
  | .deadlineMiss => .FI_DEADLINE_MISS
  | .sheafLag => .FI_SHEAF_LAG
  | .wardCorr => .FI_WARD_CORR
  | .wardCont => .FI_WARD_CONT
  | .wardFatal => .FI_WARD_FATAL
  | .hostlink => .FI_HOSTLINK
  | .cadence => .FI_CADENCE
  | .tenantBroken => .FI_TENANT_BROKEN

/-- The cause's bit number in FN_EVENTS and FN_EVENT_EN (Table IN-3). -/
def Cause.bit : Cause → Nat
  | .reply => 0
  | .deadlineMiss => 1
  | .sheafLag => 2
  | .wardCorr => 8
  | .wardCont => 9
  | .wardFatal => 10
  | .hostlink => 11
  | .cadence => 12
  | .tenantBroken => 13

/-- The cause's vector field. -/
def Cause.vecFld : Cause → Fld
  | .reply => .FI_VEC_REPLY
  | .deadlineMiss => .FI_VEC_DEADLINE
  | .sheafLag => .FI_VEC_LAG
  | .wardCorr | .wardCont | .wardFatal => .FI_VEC_WARD
  | .hostlink => .FI_VEC_HOSTLINK
  | .cadence => .FI_VEC_CADENCE
  | .tenantBroken => .FI_VEC_TENANT

/-- The PF of a function is in D3hot, or in D3cold: its link in L2, or in reset from it (R58, R325). -/
def pfAsleep (s : State) (f : Nat) : Bool := (s.cf (pfIdx (fnHl f))).d3 || (s.hl (fnHl f)).inL2

/-- The function can issue writes: Bus Master Enable 1, in D0, its PF in D0 and no reaction in force (Table IN-2). -/
def canSend (s : State) (f : Nat) : Bool := (s.cf f).bme && !(s.cf f).d3 && !pfAsleep s f && !s.react

/-- The tenant of a function is RESETTING (Table IN-2). -/
def fnResetting (s : State) (f : Nat) : Bool := match s.boundTn f with | some t => s.tnState t == 2 | none => false

/-- The message of vector `v` is passed to the host link and the holdoff begins (R321 step 3, R322).  It stands for whatever
had set the PBA bit, but for a restored one (R326). -/
def sendVec (f v : Nat) (s : State) : State :=
  let n := s.rd .FI_MOD_TICKS f v
  let s := (s.modVec f v (fun x => { x with ticksLeft := n, since := 0, pba := x.pba && x.restored })).wr .FI_HOLDOFF (if n = 0 then 0 else 1) f v
  enqueueHost { fn := fnOf f, kind := .write, addr := 0, len := 4, data := [], ro := false, ido := false, src := .msix v none,
                tn := (s.boundTn f).getD 256, gen := 0, charge := 0, cls := 0, deadline := 0, late := false,
                stalled := false, frozen := false } s

/-- Set a vector's PBA bit; an event that finds it set is counted as merged (IN_COAL_CNT). -/
def pendVec (f v : Nat) (s : State) : State :=
  (when (s.vec f v).pba (fun s => s.inc .FI_IN_COAL_CNT f) s).modVec f v (fun x => { x with pba := true })

/-- A vector is raised (R318, R321, Tables IN-1 and IN-2); `asleep` is what a message that falls due in D3 does. -/
def raiseVecWith (asleep : State → State) (f v : Nat) (s : State) : State :=
  if s.rd .FI_VEC_COUNT f ≤ v then s
  else if !(s.cf f).msixEn then s.inc .FI_IN_DROP_CNT f
  else if fnResetting s f then
    s.modVec f v (fun x => { x with held := true })
  else if s.on .FI_HOLDOFF f v then
    (when (s.on .FI_WAITING f v) (fun s => s.inc .FI_IN_COAL_CNT f) s).wr .FI_WAITING 1 f v
  else if (s.vec f v).masked || (s.cf f).fmask then pendVec f v s
  else if canSend s f then sendVec f v s
  else when (pfAsleep s f) asleep (pendVec f v s)

/-- A cause falls due for a function (R319, R320): it sets its bit and, when enabled, raises its vector once.  For a PF
whose block is dark the always-on block holds it. -/
def raiseCauseWith (asleep : State → State) (f : Nat) (c : Cause) (s : State) : State :=
  if s.tlOn (hlTiller (fnHl f)) then
    let s := s.wr c.fld 1 f
    when (s.bit c.bit .FI_FN_EVENT_EN f) (fun s => raiseVecWith asleep f (s.rd c.vecFld f) s) s
  else if fnVf f = 0 then
    when (!s.heldCauses.contains (f, c)) (fun s => { s with heldCauses := s.heldCauses ++ [(f, c)] }) s
  else s

/-- A message falls due for PF `p` in D3hot or D3cold (R58, R325): with PME_En set it sets PME_Status, which the bridge
signals by PM_PME, or by WAKE_N in L2 or with PERST_N asserted. -/
def pmeSignal (p : Nat) (s : State) : State :=
  if (s.cf p).pmeEn && !(s.cf p).pmeStatus then
    let h := fnHl p
    let s := s.modCf p (fun c => { c with pmeStatus := true })
    if (s.hl h).inL2 || s.pins.perst.testBit h then
      let s := emit (.pin (.wakeN (hlTiller h)) false) (s.modHl h (fun l => { l with wakeDriven := true }))
      raiseCauseWith id p .hostlink (s.wr .HL_PME_WAKE 1 h)
    else sendMsg p .pmPme s
  else s

/-- A vector is raised. -/
def raiseVec (f v : Nat) (s : State) : State := raiseVecWith (pmeSignal (pfIdx (fnHl f))) f v s

/-- A cause falls due for a function. -/
def raiseCause (f : Nat) (c : Cause) (s : State) : State := raiseCauseWith (pmeSignal (pfIdx (fnHl f))) f c s

/-- A cause falls due for every PF (Table IN-1). -/
def raiseAllPfs (c : Cause) (s : State) : State := each s.presentHls (fun h => raiseCause (pfIdx h) c) s

/-- A bit of HL_EVENTS of a link is set (Table IN-1). -/
def hlEvent (h : Nat) (f : Fld) (s : State) : State := raiseCause (pfIdx h) .hostlink (s.wr f 1 h)

/-! ### The Ward -/

/-- An event of an error line (R371 to R374). -/
structure WEv where
  group : Nat
  line : Nat
  master : Master
  access : Nat
  detail : Nat
  addr : Nat
  deriving DecidableEq, Repr

/-- No master. -/
def mNone : Master := ⟨0, 0, 0⟩
/-- A tenant with a request's generation. -/
def mTn (n gen : Nat) : Master := ⟨1, n, gen⟩
/-- A Weaseif link. -/
def mWl (n : Nat) : Master := ⟨2, n, 0⟩
/-- A host link. -/
def mHl (h : Nat) : Master := ⟨3, h, 0⟩
/-- A function. -/
def mFn (f : Nat) : Master := ⟨4, fnHl f, fnVf f⟩
/-- A DMA channel with its tenant. -/
def mCh (c tn : Nat) : Master := ⟨5, c, tn⟩
/-- A bank. -/
def mBank (b : Nat) : Master := ⟨6, b, 0⟩
/-- A power domain, by its bit number in DEVICE_INFO.PD_ON (Table KP-6). -/
def mDom (d : Nat) : Master := ⟨7, d, 0⟩
/-- A host port. -/
def mPort (p : Nat) : Master := ⟨8, p, 0⟩
/-- A clock source. -/
def mCk (k : Nat) : Master := ⟨9, k, 0⟩
/-- The tenant, or the host link for a PF, as master of a requester event (Table WD-2). -/
def mTnOr (tn gen h : Nat) : Master := if tn < 256 then mTn tn gen else mHl h

/-- FC_MASTER as a word (Table WD-3). -/
def masterWord (m : Master) : Nat := m.id % 2 ^ 16 + m.kind % 16 * 2 ^ 16 + m.aux % 2 ^ 12 * 2 ^ 20

/-- The current class of a line: 0 CORR, 1 CONT, 2 FATAL (R370, Table WD-12). -/
def lineClass (s : State) (g l : Nat) : Nat :=
  if l < 16 then s.rd .WD_CLASS_LO 0 g / 4 ^ l % 4 else s.rd .WD_CLASS_HI 0 g / 4 ^ (l - 16) % 4

/-- The manager PF for reports: the PF of HL0 while SMP holds authority (R375). -/
def mgrPf (s : State) : Nat := if s.keeper.mgrSmp then 0 else pfIdx s.keeper.mgrHl

/-- The VF that presents a tenant, if one does. -/
def presenter (s : State) (n : Nat) : List Nat := if s.boundTn (s.tnFn n) = some n then [s.tnFn n] else []

/-- The functions a master names (R375). -/
def namedFns (s : State) (m : Master) : List Nat :=
  match m.kind with
  | 1 => presenter s m.id
  | 3 => [pfIdx m.id]
  | 4 => [m.id * 512 + m.aux]
  | 5 => if s.on .CH_ALLOTTED m.id then presenter s (s.rd .CH_TNID m.id) else []
  | 8 => ((List.range 4).map (fun k => pfIdx (4 * m.id + k))).filter (fun f => s.present (fnHl f))
  | _ => []

/-- A function is enabled: a PF of a present link, or a VF within NumVFs of a PF with VF Enable set. -/
def fnEnabled (s : State) (f : Nat) : Bool :=
  s.present (fnHl f) &&
    (fnVf f == 0 ||
      ((s.cf (pfIdx (fnHl f))).vfEnable && (s.cf (pfIdx (fnHl f))).vfsReady &&
        decide (fnVf f ≤ (s.cf (pfIdx (fnHl f))).numVfs)))

/-- A function reports a correctable internal error (AER bit 14) under its mask and enables. -/
def aerCorr (f : Nat) (s : State) : State :=
  let c := s.cf f
  let s := s.modCf f (fun c => { c with corStatus := setBit c.corStatus 14 })
  when (!c.corMask.testBit 14 && c.corrEn) (sendMsg f .errCor) s

/-- An uncorrectable error is set in a function's status; one that is not masked takes the First Error Pointer and the
Header Log, unless they hold an earlier error.  What header is logged is open (log entry 4). -/
def aerUncSet (bit f : Nat) (s : State) : State :=
  let c := s.cf f
  let s := s.modCf f (fun c => { c with uncStatus := setBit c.uncStatus bit })
  if c.uncMask.testBit bit || c.uncStatus.testBit c.firstErr then s
  else draw s (fun v s => s.modCf f (fun c => { c with firstErr := bit, hdrLog := v % 2 ^ 128 }))

/-- A function reports an uncorrectable internal error (AER bit 22): under its mask, its severity, or as fatal for a
FATAL event, and its enables. -/
def aerUnc (fatal : Bool) (f : Nat) (s : State) : State :=
  let c := s.cf f
  let s := aerUncSet 22 f s
  if c.uncMask.testBit 22 then s
  else if fatal || c.uncSev.testBit 22 then when c.fatalEn (sendMsg f .errFatal) s
  else when c.nonFatalEn (sendMsg f .errNonFatal) s

/-- The AER reports of an event (Table WD-4): each function once, none that is not enabled or whose tiller is dark. -/
def aerReport (cls : Nat) (m : Master) (s : State) : State :=
  let fs := if cls = 2 then s.presentHls.map pfIdx else (mgrPf s :: namedFns s m).dedup
  each (fs.filter (fun f => fnEnabled s f && s.tlOn (hlTiller (fnHl f))))
    (fun f => if cls = 0 then aerCorr f else aerUnc (cls == 2) f) s

/-- The interrupt cause of a class. -/
def wardCause (cls : Nat) : Cause := if cls = 0 then .wardCorr else if cls = 1 then .wardCont else .wardFatal

/-- The capture of a class takes an event with its stamp (R374). -/
def takeCapture (e : WEv) (cls : Nat) (inj : Bool) (stamp era : Nat) (s : State) : State :=
    s |>.wr .WD_FC_ADDR e.addr 0 cls
      |>.wr .WD_FC_STAMP stamp 0 cls
      |>.wr .WD_FC_ERA era 0 cls
      |>.wr .WD_FC_MASTER (masterWord e.master) 0 cls
      |>.wr .WD_ACCESS e.access 0 cls
      |>.wr .WD_DETAIL e.detail 0 cls
      |>.wr .WD_GROUP e.group 0 cls
      |>.wr .WD_LINE e.line 0 cls
      |>.wr .WD_INJECTED (if inj then 1 else 0) 0 cls
      |>.wr .WD_PRESEED (if s.on .CAD_SEEDED then 0 else 1) 0 cls
      |>.wr .WD_VALID 1 0 cls

/-- First capture (R373): taken while the class's capture holds no event. -/
def capture (e : WEv) (cls : Nat) (inj : Bool) (s : State) : State :=
  if s.on .WD_VALID 0 cls then s else takeCapture e cls inj s.stamp s.era s

/-- FC_TYPE as a word (Table WD-12). -/
def fcType (s : State) (e : WEv) (inj : Bool) : Nat :=
  e.access % 256 + e.detail % 256 * 2 ^ 8 + e.group % 16 * 2 ^ 16 + e.line % 32 * 2 ^ 20 + (if inj then 2 ^ 25 else 0) +
    (if s.on .CAD_SEEDED then 0 else 2 ^ 26) + 2 ^ 31

/-- How a master names the source of a trace record; a function by its tenant or host link (R459). -/
def masterSource (s : State) (m : Master) : Nat × Nat :=
  if m.kind = 4 then fnSource s (m.id * 512 + m.aux) else (m.kind, m.id)

/-- FAULT_N is driven low. -/
def pullFaultN (s : State) : State := emit (.pin .faultN false) ((s.wr .WD_FN_DRIVEN 1).wr .WD_FN_LEVEL 1)

/-- FAULT_N is driven low and the minimum pulse starts again (R380). -/
def driveFaultN (s : State) : State := pullFaultN (s.wr .WD_MINW_RUN 1)

/-! ### Channels and the fatal reaction -/

/-- The channel a host request belongs to. -/
def HSrc.chan : HSrc → Option Nat
  | .dmaFetch c _ => some c
  | .dmaReread c _ => some c
  | .dmaRead c _ _ => some c
  | .dmaWrite c _ => some c
  | .dmaFlush c => some c
  | .dmaWriteBack c => some c
  | .runAhead c _ _ => some c
  | .readAhead c _ _ => some c
  | _ => none

/-- The channel a packet toward a local design belongs to. -/
def WSrc.chan : WSrc → Option Nat
  | .dmaRead c _ _ => some c
  | .dmaWrite c _ => some c
  | .peerMrd c _ => some c
  | _ => none

/-- A request of channel `c` is outstanding: issued and not answered, on a host link or a Weaseif link. -/
def chBusy (s : State) (c : Nat) : Bool :=
  s.tags.any (fun t => !t.quarantined && t.req.src.chan == some c) ||
    s.wls.any (fun e => e.2.wlTags.any (fun t => !t.quarantined && t.src.chan == some c))

/-- A request of channel `c` waits, is outstanding, or is still to be made for a descriptor earlier than the one that halted
the channel, which completes normally (R270, R271). -/
def chLeft (s : State) (c : Nat) : Bool :=
  (s.rd .CH_STATE c == 4 && !(s.ch c).noWriteBack && !(s.ch c).descs.isEmpty) || chBusy s c || s.hostQ.any (fun r => r.src.chan == some c) || s.wls.any (fun e => e.2.linkQ.any (fun p => p.src.chan == some c))

/-- The requests of channel `c` that wait in the bridge are discarded; a write-back already passed on is sent
(R156, R270, R271). -/
def dropChanWaiting (c : Nat) (s : State) : State :=
  (s.filterHostQ (fun r => !(r.src.chan == some c) || r.src == .dmaWriteBack c)).mapWls
    (fun _ w => { w with linkQ := w.linkQ.filter (fun p => !(p.src.chan == some c)) })

/-- The request that a halt is tied to: its address, its space (Table DM-4) and its ACCESS (Table WD-11). -/
structure BadReq where
  addr : Nat
  space : Nat
  access : Nat
  deriving DecidableEq, Repr

/-- A cause tied to no request. -/
def noReq : BadReq := ⟨0, 0, 0⟩
/-- A host memory read. -/
def hostRd (addr : Nat) : BadReq := ⟨addr, 0, 4⟩
/-- A read of a local design. -/
def localRd (addr space : Nat) : BadReq := ⟨addr, space, 6⟩
/-- A write to a local design. -/
def localWr (addr space : Nat) : BadReq := ⟨addr, space, 7⟩

/-- Halt (Table DM-7): set CODE and the ERR cause, and apply R270.  IDLE and HALTED channels take only the causes 0x0B
and above, a STOPPING channel only the fatal reaction (R377), a DISABLED one none. -/
def haltCore (c code : Nat) (b : BadReq) (s : State) : State :=
  let st := s.rd .CH_STATE c
  let hard := decide (0x0B ≤ code)
  if st = 2 || st = 3 || (st = 1 && hard) || (st = 5 && code == 0x0D) then
    let tn := s.rd .CH_TNID c
    let s := s |>.wr .CH_STATE 4 c
      |>.wr .CH_CODE code c
      |>.wr .CH_ERR 1 c
      |>.wr .CH_ERR_ADDR b.addr c
      |>.wr .CH_ERR_SPACE b.space c
      |>.inc .CH_HALT_CNT c
      |>.inc .CT_TN_HALTS tn
    let s := s.modCh c (fun x => { x with
      noWriteBack := x.noWriteBack || hard
      ahead := []
      raToken := 0
      raAsked := 0
      fetching := false
      fetchFailed := 0
      goOn := 0
      dbOwed := 0
      flushOut := x.flushOut && !hard
      flushAgain := x.flushAgain && !hard
      curOpen := true
      curAddr := if hard then (x.descs.head?.map (·.addr)).getD (if x.goOn = 0 then x.curAddr else x.goOn) else x.curAddr
      descs := if hard then [] else x.descs })
    let s := s.wr .CH_CUR (s.ch c).curAddr c
    let s := when hard (dropChanWaiting c) s
    let s := s.wr .CH_DRAINING (if chLeft s c then 1 else 0) c
    let s := trace 5 c 0x0601 (code + s.rd .CH_RETRIES c * 256 + tn * 65536) s
    when (s.on .CH_ERR_EN c) (fun s => raiseVec (s.tnFn tn) (s.rd .CH_VEC_ERR c) s) s
  else if st = 4 && hard then
    let s := dropChanWaiting c ((s.wr .CH_CODE code c).modCh c (fun x => { x with noWriteBack := true, descs := [], flushOut := false, flushAgain := false }))
    s.wr .CH_DRAINING (if chLeft s c then 1 else 0) c
  else s

/-- A host request is an outbound host write. -/
def HReq.isWrite (r : HReq) : Bool := r.kind == .write

/-- The Keeper's writes for a PF: exempt from the reaction's block (R364, R377). -/
def HReq.exempt (r : HReq) : Bool :=
  match r.src with
  | .reply _ => r.fn.vf == 0
  | _ => false

/-- The round that a bitmap of the tenant belongs to is marked ALL_DIRTY (R299). -/
def roundDirty (tn bitmap : Nat) (s : State) : State :=
  s.modLog tn (fun l =>
    match l.harvest with
    | some h => if h.harvested = bitmap then { l with harvest := some { h with allDirty := true } } else { l with allDirty := true }
    | none => { l with allDirty := true })

/-- Outbound host writes not yet in a transmit order are discarded; MSI-X messages become PBA bits,
and the round of a discarded bitmap write is ALL_DIRTY (R299, R324, R377). -/
def blockWrites (s : State) : State :=
  let s := each s.hostQ (fun r s =>
    match r.src with
    | .msix v _ => s.modVec (fnIdx r.fn) v (fun x => { x with pba := true })
    | .logWrite tn key => roundDirty tn (key / 2 ^ 32) s
    | _ => s) s
  s.filterHostQ (fun r => !r.isWrite || r.exempt)

/-- The fatal reaction (R377 to R380, R208): REACT with its stamp, host writes blocked, HALT grains on every link that is
physically ACTIVE, FAULT_N, every channel halted, and the journal record.  ERR_FATAL leaves by the event's AER report. -/
def forceReaction (inj : Bool) (s : State) : State :=
  if s.react then s
  else
    let s := s |>.wr .WD_REACT 1
      |>.setB 63 .WD_FAULT_WORD
      |>.wr .WD_REACT_STAMP s.stamp
      |>.wr .WD_REACT_ERA s.era
      |>.wr .KP_FATAL_HOLD 1
    let s := blockWrites s
    let s := each (List.range 96) (fun n s =>
      let s := (s.wr .WL_LSTATE 6 n).wr .WL_GRACE_RUN 0 n
      when (s.rd .WP_STATE n == 5) (sendHalt n) s) s
    let s := driveFaultN s
    let s := each (List.range 1024) (fun c => haltCore c 0x0D noReq) s
    let s := pauseStream s
    jPut (.fatalReaction (s.rd .WD_FAULT_WORD) (s.rd .WD_INJ_WORD)) inj (s.rd .WD_REACT_STAMP) (s.rd .WD_REACT_ERA) s

/-- What latching an event does (R371, R373, R376, R387): LINES, FAULT_WORD, first capture, counter, trace. -/
def latchLine (e : WEv) (inj : Bool) (s : State) : State :=
  let cls := lineClass s e.group e.line
  let s := s |>.setB e.line .WD_LINES 0 e.group
    |>.setB (3 * e.group + cls) .WD_FAULT_WORD
  let s := when inj (fun s => s.setB 62 .WD_FAULT_WORD) s
  let s := capture e cls inj s
  let s := s.inc (if cls = 0 then .WD_CORR_CNT else if cls = 1 then .WD_CONT_CNT else .WD_FATAL_CNT)
  trace (masterSource s e.master).1 (masterSource s e.master).2 0x0901
    (e.group + e.line * 16 + cls * 512 + (if inj then 2048 else 0)) s

/-- The event just latched is the newest. -/
def noteLatch (e : WEv) (inj : Bool) (s : State) : State :=
  s.modJournal (fun j => { j with last := some ⟨e.group, e.line, inj, s.stamp, s.era, s.bit 62 .WD_FAULT_WORD⟩ })

/-- An event of an error line reaches the Ward (R371 to R377, R387, R393).  `fuel` bounds the one event that another can
bring: STORE line 1, when the CORR record of an event finds no place. -/
def wardFuel : Nat → Bool → WEv → State → State
  | 0, _, _, s => s
  | fuel + 1, inj, e, s =>
    let s := advance s
    let stamp := s.stamp
    let era := s.era
    let cls := lineClass s e.group e.line
    let fresh := !s.bit e.line .WD_LINES 0 e.group
    let latches := !inj || (if cls = 2 then s.on .WD_INJ_REACT else s.on .WD_INJ_COUNTS)
    let s := when inj (fun s => (s.setB (3 * e.group + cls) .WD_INJ_WORD).inc .WD_INJ_CNT) s
    let s := when latches (fun s => latchLine e inj (noteLatch e inj s)) s
    let s := when (latches && cls == 2)
      (fun s => if s.react then when fresh driveFaultN s else forceReaction inj s) s
    let s := when (cls != 2 || latches) (aerReport cls e.master) s
    let s := raiseAllPfs (wardCause cls) s
    let rec_ : JBody := .fault e.group e.line cls (masterWord e.master) (fcType s e inj) e.addr
    let lost := latches && fresh && !jTakes s rec_ && cls == 0
    let s := when (latches && fresh) (jPut rec_ inj stamp era) s
    when lost (wardFuel fuel false ⟨13, 1, mNone, 0, 0, 0⟩) s

/-- The newest latched event is one of the same line, real where this one is injected or the other way round, and near enough to lie
in the same AON cycle: 64 CORE cycles are at least 171 fine units (R26, R28). -/
def sameCycle (inj : Bool) (e : WEv) (s : State) : Option Latched :=
  s.journal.last.filter (fun l => l.group == e.group && l.line == e.line && l.inj != inj && l.era == s.era &&
    decide (s.stamp < l.stamp + 171))

/-- A real event joins the latching of an injected one of the same cycle (R388): it is the one captured and recorded, and the line
does not set INJECTED. -/
def realOver (e : WEv) (l : Latched) (s : State) : State :=
  let cls := lineClass s e.group e.line
  let s := when (!l.hadInj) (fun s => s.clrB 62 .WD_FAULT_WORD) s
  let s := when (s.on .WD_INJECTED 0 cls && s.rd .WD_FC_STAMP 0 cls == l.stamp) (takeCapture e cls false l.stamp l.era) s
  let b : JBody := .fault e.group e.line cls (masterWord e.master) (fcType s e false) e.addr
  let its (r : JRec) : Bool := r.stamp == l.stamp && (match r.body with | .fault g x _ _ _ _ => g == e.group && x == e.line | _ => false)
  s.modJournal (fun j => { j with
    last := some { l with inj := false }
    queue := j.queue.map (fun r => if its r then { r with body := b, flags := r.flags / 2 * 2 } else r) })

/-- An injected event joins the latching of a real one of the same cycle (R388): only INJ_WORD and WD_INJ_CNT show it. -/
def injUnder (e : WEv) (s : State) : State :=
  (s.setB (3 * e.group + lineClass s e.group e.line) .WD_INJ_WORD).inc .WD_INJ_CNT

/-- An event of an error line; whether one that may fall in the cycle of another does so is open (R388, log entry 28). -/
def wardEvent (inj : Bool) (e : WEv) (s : State) : State :=
  match sameCycle inj e s with
  | some l => choose s (fun b s => if b then (if inj then injUnder e s else realOver e l s) else wardFuel 3 inj e s)
  | none => wardFuel 3 inj e s

/-- A real event of an error line. -/
def ward (g l : Nat) (m : Master) (access addr : Nat) (s : State) : State := wardEvent false ⟨g, l, m, access, 0, addr⟩ s

/-- A real event with a FC_TYPE.DETAIL. -/
def wardDetail (g l : Nat) (m : Master) (access detail addr : Nat) (s : State) : State :=
  wardEvent false ⟨g, l, m, access, detail, addr⟩ s

/-- A channel halts (Table DM-6); the codes 0x01 to 0x0A reach the Ward as TILLERt line 24. -/
def haltChannel (c code : Nat) (b : BadReq) (s : State) : State :=
  let live := s.rd .CH_STATE c == 2 || s.rd .CH_STATE c == 3
  let tn := s.rd .CH_TNID c
  let s := haltCore c code b s
  when (live && decide (code < 0x0B)) (wardDetail (chTiller c) 24 (mCh c tn) b.access code b.addr) s

/-- A CORR event of the cadence unit and its flag of CAD_STATUS, which raises every PF's CADENCE cause (Table IN-1). -/
def cadFlag (f : Fld) (line : Option Nat) (s : State) : State :=
  let s := raiseAllPfs .cadence (s.wr f 1)
  withSome line (fun l => ward 10 l mNone 0 0) s

/-- A TNID changes state (trace code 0x0701). -/
def traceTnState (n new old : Nat) (s : State) : State := trace 1 n 0x0701 (new + old * 16) s

end Sys2Proof.Machine
end

