-- ==== Sys2Proof/Machine/Operands.lean ====
section
/-!
DEFINITION. What a command names: which function may write a block (R83, R85, R247, R378), and the destination of a request
and whether it can be reached (R114, R115, Table WN-2).
-/
namespace Sys2Proof.Machine

/-! ### Who may write -/

/-- The inbound queues of a host link are full of requests that wait for a held Weaseif link: it withholds flow-control credit,
and no request of its host arrives (R204). -/
def inboundFull (s : State) (h : Nat) : Bool :=
  !(s.hl h).inWait.isEmpty && decide (Config.inboundDepth ≤ (s.hl h).inWait.length)

/-- A register write of the manager PF takes effect: none does while the reaction is in force (R83, R378), and none arrives while
its link withholds credit (R204). -/
def mgrWrites (s : State) (fn : Fn) : Bool := s.isMgr (fnIdx fn) && !s.react && !inboundFull s fn.hl.val

/-- A function's write to its own CMDRING or FNIRQ block takes effect: its tiller is ON, while the reaction is in force it is
a PF's, a VF has a tenant bound to it, and its link takes requests (R73, R204, R378, R421). -/
def fnWrites (s : State) (fn : Fn) : Bool :=
  s.tlOn (hlTiller fn.hl.val) && !inboundFull s fn.hl.val && (if fn.vf.val = 0 then true else !s.react && (s.boundTn (fnIdx fn)).isSome)

/-- A write to channel `c`'s block takes effect: through the manager's view, or the view of the VF that the channel's
tenant presents (R204, R246, R247, R291, R378, R421). -/
def chanWrites (s : State) (fn : Fn) (c : Nat) : Bool :=
  s.on .CH_ALLOTTED c && s.tlOn (chTiller c) && !s.react && !inboundFull s fn.hl.val &&
    (s.isMgr (fnIdx fn) ||
      (fn.vf.val != 0 && s.boundTn (fnIdx fn) == some (s.rd .CH_TNID c) && s.tnState (s.rd .CH_TNID c) != 4))

/-- The running instant in phase units. -/
def phaseNow (s : State) : Nat := s.now / 2 ^ 16

/-! ### Destinations -/

/-- A function can master requests: Bus Master Enable 1 and neither it nor its PF in D3hot (R156). -/
def masters (s : State) (f : Nat) : Bool := (s.cf f).bme && !(s.cf f).d3 && !(s.cf (pfIdx (fnHl f))).d3

/-- Why a request for function `f` cannot be delivered (Table WN-2), as a CAUSE of Table WT-5; 0 when it can. -/
def undeliverable (s : State) (f : Nat) : Nat :=
  if !s.tlOn (hlTiller (fnHl f)) then 6
  else if !s.dlUp (fnHl f) then 4
  else if !masters s f then 5
  else 0

/-- Destination `d` of a sheaf: its function and tenant, 256 for a PF. -/
def shDest (s : State) (i d : Nat) : Nat × Nat :=
  if s.on .SH_TO_PF i d then (pfIdx (s.rd .SH_PF_HL i d), 256) else (s.tnFn (s.rd .SH_TNID i d), s.rd .SH_TNID i d)

/-- A destination of a sheaf is excused (R115). -/
def isExcused (s : State) (i d : Nat) : Bool :=
  let (f, tn) := shDest s i d
  undeliverable s f != 0 || (decide (tn < 256) && s.tnState tn != 1)

/-- A destination has been excused since the last packet its sheaf received, or is (R115). -/
def staysExcused (s : State) (i d : Nat) : Bool := isExcused s i d || s.bit d .SH_EXCUSED i

/-! ### Copies of sheaf packets (R116, R117) -/

/-- The copy is for the destination that place `d` names now: a removed destination's copies count nowhere (R121). -/
def isDest (s : State) (p : SheafPkt) (d : Nat) (r : HReq) : Bool :=
  decide (d < s.rd .SH_DEST_COUNT p.sheaf) && fnIdx r.fn == (shDest s p.sheaf d).1 &&
    (r.addr + r.len) % 2 ^ 64 ==
      (s.rd .SH_HOST_BASE_LO p.sheaf d * 4096 + s.rd .SH_HOST_BASE_HI p.sheaf d * 2 ^ 32 + p.offset + p.pkt.len) % 2 ^ 64

/-- What waits of the copy of a held packet for destination place `d`. -/
def copyReq (s : State) (id d : Nat) : Option HReq :=
  s.hostQ.find? (fun r => match r.src with | .sheafCopy id' d' _ _ => id' == id && d' == d | _ => false)

/-- A held packet's copy waits for the destination that place `d` names now: what is left of it. -/
def copyWaits (s : State) (p : SheafPkt) (d : Nat) : Option HReq :=
  if p.copies.getD d .none = .waiting then (copyReq s p.id d).filter (isDest s p d) else none

/-- Destination `d` holds up held packet `p` of a LEAD sheaf, which another destination that is not excused has accepted, so that its
lag grows (R117). -/
def holdsUp (s : State) (p : SheafPkt) (d : Nat) : Bool :=
  s.rd .SH_MODE p.sheaf == 2 && (copyWaits s p d).isSome && !s.bit d .SH_LAGGING p.sheaf && s.tlOn (p.sheaf / 32) &&
    (List.range 8).any (fun e => e != d && p.copies.getD e .none == .accepted && !staysExcused s p.sheaf e)

/-! ### Dark blocks -/

/-- An access of function `f` to a block whose domain `d` is not ON (R421): DARK, DARK_CNT, and a CORR event that names
the function and carries the offset. -/
def darkHit (d f access off : Nat) (s : State) : State :=
  let s := (s.setB d .PW_DARK).inc .PW_DARK_CNT
  if d = dKeep then ward 9 3 (mFn f) access off s
  else if d = dHub then ward 8 1 (mFn f) access off s
  else ward ((d - 2) % 8) 14 (mFn f) access off s

end Sys2Proof.Machine
end

