-- ==== Sys2Proof/Machine/Cadence.lean ====
section
/-!
DEFINITION. The cadence timebase (chapter 2): the loop, its boundaries, slips, and what a tick boundary drives in the
consumers (R37).
-/
namespace Sys2Proof.Machine

/-! ### Tick boundaries -/

/-- The bucket of a tenant in signed bytes. -/
def bucketOf (s : State) (n : Nat) : Int := (s.ten n).bucket

/-- The bucket of a tenant takes a content, shown in TENANT.BUCKET; of one of 2^31 and above the low 32 bits show there
(DESIGN CHOICE, log entry 92). -/
def setBucket (n : Nat) (b : Int) (s : State) : State := (s.modTen n (fun t => { t with bucket := b })).wr .TN_BUCKET (ofSigned 32 b) n

/-- The bucket depth that a RATE and a DEPTH give: values below RATE act as RATE (Table TN-3). -/
def depthFor (rate depth : Nat) : Nat := if rate = 0xFFFFFFFF then depth else max depth rate

/-- The bucket is kept: RATE is neither 0 nor unlimited (R281). -/
def bucketKept (s : State) (n : Nat) : Bool := s.rd .TN_RATE n != 0 && s.rd .TN_RATE n != 0xFFFFFFFF

/-- A request of the tenant may be admitted against its bucket (R281): `charge` 0 stands for one that is not charged. -/
def admits (s : State) (n charge : Nat) : Bool :=
  256 ≤ n || s.rd .TN_RATE n == 0xFFFFFFFF ||
    (s.rd .TN_RATE n != 0 && (charge == 0 || decide (0 < bucketOf s n)))

/-- A request of the tenant waits for its bucket. -/
def heldNow (s : State) (n : Nat) : Bool :=
  s.hostQ.any (fun r => r.tn == n && !r.frozen && r.charge != 0 && !admits s n r.charge) ||
    s.wls.any (fun e => e.2.linkQ.any (fun p => p.tn == n && p.charge != 0 && !admits s n p.charge))

/-- Show in TENANT.HELD whether a request waits for the bucket. -/
def showHeld (n : Nat) (s : State) : State := s.wr .TN_HELD (if heldNow s n then 1 else 0) n

/-- The refill of a tenant's bucket when `n` tick boundaries pass (R279, R281, R37): the new RATE and DEPTH apply at the
first of them, and a bucket that starts to be kept is 0 there. -/
def refill (n tn : Nat) (s : State) : State :=
  let s := s.wr .TN_HELD_TICKS (s.rd .TN_HELD_TICKS tn + (if heldNow s tn || s.on .TN_HELD tn then n else 0)) tn
  let kept := bucketKept s tn
  let new := (s.ten tn).newRate
  let s := match new with
    | some (r, d) => ((s.wr .TN_RATE r tn).wr .TN_DEPTH (depthFor r d) tn).modTen tn
        (fun t => { t with newRate := none })
    | none => s
  let start := new.isSome && !kept
  let k := if start then n - 1 else n
  let b : Int := if start then 0 else bucketOf s tn
  let b' : Int := min (b + (k * s.rd .TN_RATE tn : Nat)) (s.rd .TN_DEPTH tn : Nat)
  let s := setBucket tn (if bucketKept s tn then b' else 0) s
  showHeld tn s

/-- The payload that `w` lanes of a link can carry in a tick, in bytes: 50 Gbit/s a lane at 64 GT/s, and in proportion at
the other speeds (DESIGN CHOICE, log entry 42). -/
def lanesCap (s : State) (speed w : Nat) : Nat :=
  w * [0, 5, 10, 16, 32, 64, 128].getD speed 0 * s.cad.period * 125 / 1048576

/-- The traffic of each direction in the tick stays below L0P_LOW percent of the halved width's capacity (R53, Table HL-6). -/
def l0pLow (s : State) (h : Nat) (l : HlS) : Bool :=
  let lim := min 90 (s.rd .HL_L0P_LOW h) * lanesCap s l.speed (s.rd .HL_CUR_WIDTH h / 2)
  decide (100 * l.txBytes < lim) && decide (100 * l.rxBytes < lim)

/-- The ticks in a row below L0P_LOW once `n` boundaries have passed (R53): what traffic there was lies in the first of those
ticks. -/
def lowFor (s : State) (h n : Nat) (l : HlS) : Nat :=
  if l0pLow s h l then l.lowTicks + n
  else if l0pLow s h { l with txBytes := 0, rxBytes := 0 } then n - 1
  else 0

/-- The grain payload of a Weaseif link in a tick at its width and speed, in bytes (R117): 64 bytes of every 80. -/
def ingressTick (s : State) (n : Nat) : Nat :=
  popCount (s.wp n).rxSet 4 * [25, 50, 100, 112].getD (s.rd .WP_CUR_RATE n) 0 * s.cad.period / 16384

/-- The lag of a LEAD sheaf's destination that holds up the oldest packet, which another has accepted, has grown over `n`
ticks (R117).  How long it had grown in the tick in which it began is open, and a lag that passes its budget is told by
SHEAF_LAG_EXCEEDED: up to then it stays at the budget (DESIGN CHOICE, log entry 53). -/
def growLag (n : Nat) (p : SheafPkt) (d : Nat) (s : State) : State :=
  let i := p.sheaf
  let grows := holdsUp s p d
  let was := (s.dest i d).growing
  let s := when (was != grows) (fun s => s.modDest i d (fun x => { x with growing := grows })) s
  if grows then
    let g := ingressTick s p.wl
    let put (b : Nat) (s : State) : State :=
      s.wr .SH_SD_LAG (min (s.rd .SH_SD_LAG i d + b) ((s.rd .SH_LAG_BUDGET i d + 1) * 1024)) i d
    if was then put (n * g) s else draw s (fun v => put ((n - 1) * g + v % (g + 1)))
  else s

/-- The lags of every sheaf's destinations grow: those of its oldest held packet. -/
def growLags (n : Nat) (s : State) : State :=
  let first := (s.sheafPkts.map (·.sheaf)).dedup.filterMap (fun i => s.sheafPkts.find? (fun p => p.sheaf == i))
  each first (fun p s => each (List.range 8) (fun d s => growLag n p d s) s) s

/-- What the consumers do when `n` tick boundaries have passed and the stamp stands at the last of them: buckets,
moderation holdoffs, error windows, response timers, reshape waits, idle times, lags, pattern checkers and the stream's wait
(R37, R117, R176, R202, R214, R228, R281, R322, R465).  A domain that is not ON counts no ticks (R418). -/
def ticksPass (n : Nat) (s : State) : State :=
  let s := each (List.range 256)
    (fun tn s => when (s.tnState tn != 0 && s.tlOn (hlTiller (s.rd .TN_HL tn))) (refill n tn) s) s
  let on (k : Nat) : Bool := s.tlOn (hlTiller (fnHl (k / 128)))
  let s := s.mapVecs (fun k v => if on k then { v with ticksLeft := v.ticksLeft - n, since := v.since + n } else v)
  let s := each (List.range 96) (fun w s =>
    let win := min 1024 (max 1 (s.rd .WL_ERR_WINDOW w))
    when (s.tlOn (wlTiller w) && (s.stamp / tickUnits) % win < n) (fun s => s.wr .WL_ERR_CUR 0 w) s) s
  let s := s.mapWls (fun w x => if s.tlOn (wlTiller w) then
    { x with
      wlTags := x.wlTags.map (fun t => { t with ticksLeft := t.ticksLeft - n })
      rsTicks := x.rsTicks - n } else x)
  let s := s.mapHls (fun h l => if s.tlOn (hlTiller h) then
    { l with idleTicks := l.idleTicks + n, txBytes := 0, rxBytes := 0, lowTicks := lowFor s h n l } else l)
  let s := countAllInj (countAllPrbs (growLags n s))
  let s := when s.pins.faultInLow (fun s => (s.modPins (fun p => { p with faultInLow := false })).wr .WD_FIN_LEVEL 0) s
  s.modTrace (fun t => { t with strWaited := t.strWaited.map (· + n) })

/-! ### Epoch boundaries -/

/-- The period CAD_NOMINAL gives, in units of 2.5 ns, with its limits (Table CD-8). -/
def nominalPeriod (s : State) : Nat := 16 * min 25000000 (max 2500 (s.rd .CAD_NOMINAL))

/-- The period in use, shown in CAD_PERIOD. -/
def setPeriod (p : Nat) (s : State) : State := (s.modCad (fun c => { c with period := p })).wr .CAD_PERIOD p

/-- What follows the wrap of EPOCH, once the stamp and the era have moved on (R29). -/
def eraRoll (s : State) : State :=
  let s := journal (.eraRoll s.era) s
  let s := traceNone 0x0005 s.era s
  cadFlag .CAD_ERA_ROLL (some 3) s

/-- The loop's pulse on CADENCE_OUT (R31). -/
def cadenceOut (s : State) : State :=
  when (s.on .CAD_OUT_EN && !s.on .CAD_OUT_SRC && s.on .CAD_OUT_WIDTH)
    (emit (.pulse .cadenceOut (100 * s.rd .CAD_OUT_WIDTH))) s

/-- A CHECKPOINT waits in the journal queue. -/
def checkpointWaits (s : State) : Bool :=
  s.journal.queue.any (fun r => match r.body with | .checkpoint _ _ => true | _ => false)

/-- Queue a CHECKPOINT with the given ceiling. -/
def queueCheckpoint (c : Nat) (s : State) : State :=
  journal (.checkpoint (c % 2 ^ 32) (c / 2 ^ 32 % 2 ^ 16)) (s.modJournal (fun j => { j with ckQueuedAt := s.eraEpoch }))

/-- The running epoch has come within 32,768 epochs of the newest ceiling (R38). -/
def checkpointCheck (s : State) : State :=
  match s.journal.ceiling with
  | some c => when (decide (c ≤ s.eraEpoch + 32768) && !checkpointWaits s) (queueCheckpoint (c + 65536)) s
  | none => s

/-- What an epoch boundary does once the stamp stands at it (R29, R31, R32, R38, R502). -/
def atEpoch (rolled : Bool) (s : State) : State :=
  let s := when rolled eraRoll s
  let s := cadenceOut s
  let s := when (s.cad.onNominal || s.cad.toNominal)
    (fun s => setPeriod (nominalPeriod s) (s.modCad (fun c => { c with onNominal := true, toNominal := false }))) s
  let s := when (s.on .CAD_SEEDED) (fun s => s.wr .WD_SELFTEST_OK 1) s
  checkpointCheck s

/-- Move the stamp to the start of the next epoch (R27, R35): the era moves with a wrap of EPOCH, so that (era, stamp) only
goes forward (R29). -/
def toNextEpoch (s : State) : State :=
  let tick := s.stamp / tickUnits % 1024
  let e := (s.epoch + 1) % 2 ^ 32
  let s := when (e == 0) (fun s => s.inc .CAD_ERA) s
  ticksPass (1024 - tick) (setStamp (e * 2 ^ 32) s)

/-- An epoch boundary of the loop. -/
def epochStep (s : State) : State :=
  let rolled := s.epoch == 2 ^ 32 - 1
  atEpoch rolled (toNextEpoch s)

/-- EPOCH_BOUNDARY (R27): PHASE and FINE wrap to 0 and EPOCH increments.  Ticks of the epoch that no TICK_BOUNDARY has
told of pass with it. -/
def execEpochBoundary (s : State) : Res := .next (when s.aonRuns epochStep s)

/-- TICK_BOUNDARY (R27): PHASE[5:0] wraps to 0.  The last tick of an epoch ends at the epoch boundary. -/
def execTickBoundary (s : State) : Res :=
  .next (when s.aonRuns (fun s =>
    if s.stamp / tickUnits % 1024 = 1023 then epochStep s
    else ticksPass 1 (setStamp ((s.stamp / tickUnits + 1) * tickUnits) s)) s)

/-! ### The loop -/

/-- The loop enters a state (Table CD-3); LOCKED and COASTING are traced. -/
def cadState (n : Nat) (s : State) : State :=
  let old := s.rd .CAD_STATE
  let s := s.wr .CAD_STATE n
  if n = 2 && old != 2 then traceNone 0x0A03 0 s
  else if n = 3 then traceNone 0x0A02 0 s
  else s

/-- A packet received from a Weaseif link is still to be acted on, or is being received. -/
def rxWaits (s : State) : Bool := s.wls.any (fun e => !e.2.rxQ.isEmpty || e.2.rxAsm.isSome)

/-- The deadlines that a jump of the stamp passes count as reached and not missed (R37, R113): those of the requests that
wait, and those that packets already received will have.  `from_` is where the stamp stood, in phase units. -/
def passDeadlines (from_ : Nat) (s : State) : State :=
  let to_ := phaseNow s
  let g (r : HReq) : HReq :=
    if r.cls = 3 ∧ !r.late ∧ from_ ≤ r.deadline ∧ r.deadline < to_ then { r with deadline := 0 } else r
  let s : State := { s with hostQ := s.hostQ.map g }
  s.modCad (fun c => { c with jumps := if rxWaits s then c.jumps ++ [(from_, to_)] else [] })

/-- A slip is remembered (R35).  A slew in progress ends there: R34 and R35 do not say what becomes of it (DESIGN CHOICE, log
entry 39). -/
def noteSlip (s : State) : State :=
  s.modCad (fun c => { c with slew := 0, slewTime := 0, lastSlip := s.eraEpoch + 1 })

/-- An epoch slip (R35). -/
def slip (s : State) : State :=
  let before := s.stamp
  let from_ := s.now / 2 ^ 16
  let rolled := s.epoch == 2 ^ 32 - 1
  let s := toNextEpoch s
  let s := noteSlip s
  let s := s.inc .CAD_SLIP_CNT
  let s := journal (.slip before s.stamp) s
  let s := traceNone 0x0A01 (before / 2 ^ 32) s
  let s := cadFlag .CAD_SLIP (some 0) s
  passDeadlines from_ (atEpoch rolled s)

/-- A quotient whose rounding the spec leaves open: the floor, or one more where the division leaves a remainder. -/
def openDiv (a b : Nat) (s : State) (k : Nat → State → State) : State :=
  if a % b = 0 then k (a / b) s else choose s (fun up s => k (a / b + (if up then 1 else 0)) s)

/-- The pulse is kept as the last one accepted. -/
def accept (s : State) : State := s.modCad (fun c => { c with lastStamp := s.now })

/-- A pulse too soon after the last (R33). -/
def glitch (s : State) : State := traceNone 0x0A04 0 (raiseAllPfs .cadence ((s.inc .CAD_GLITCH_CNT).wr .CAD_GLITCH 1))

/-- An interval lies within 100 µs to 1 s (R36), for `n` boundaries. -/
def inRange (i n : Nat) : Bool := decide (40000 * n ≤ i) && decide (i ≤ 400000000 * n)

/-- A pulse in ACQUIRING that is no glitch (Table CD-3). -/
def pulseAcquiring (i : Nat) (s : State) : State :=
  let p := s.cad.prevInterval
  let agree := s.cad.refs == 2 && decide ((max i p - min i p) * 200 ≤ i + p) && inRange i 1 && inRange p 1
  if agree then
    openDiv (i + p) 2 s (fun m s => accept (cadState 2 (slip (setPeriod m (s.modCad (fun c => { c with refs := 0 }))))))
  else
    let s := accept (s.modCad (fun c => { c with refs := 2, prevInterval := i }))
    when (!inRange i 1) (cadFlag .CAD_RANGE (some 2)) s

/-- A pulse in LOCKED or COASTING that is no glitch (R33 to R36). -/
def pulseLocked (i : Nat) (s : State) : State :=
  let per := max 1 s.cad.period
  let n := max 1 ((2 * i + per) / (2 * per))
  let ph := s.phase
  if 58982 ≤ ph || ph ≤ 6553 then
    let ahead := decide (ph ≤ 6553)
    let e := if ahead then ph else 65536 - ph
    let s := s.wr .CAD_PHASE_ERR (if ahead then e else 2 ^ 32 - e)
    let s := s.modCad (fun c => { c with slew := if e = 0 then 0 else if ahead then 1 else 2, slewTime := 16 * e })
    let s := when (s.rd .CAD_STATE == 3) (fun s => s.add .CAD_LOST_CNT (n - 1)) s
    openDiv (7 * per * n + i) (8 * n) s (fun m s => accept (cadState 2 (setPeriod m s)))
  else if inRange i n then
    openDiv i n (slip s) (fun m s => accept (cadState 2 (setPeriod m s)))
  else
    accept (cadState 1 (cadFlag .CAD_RANGE (some 2) ((slip s).modCad (fun c => { c with refs := 2, prevInterval := i }))))

/-- A pulse that the input filter passes, with the loop following CADENCE_IN (R33). -/
def pulseSeen (i : Nat) (s : State) : State :=
  match s.rd .CAD_STATE with
  | 0 => accept (cadState 1 (s.modCad (fun c => { c with refs := 1, onNominal := false, toNominal := false })))
  | 1 => if 4 * i < s.cad.period then glitch s else pulseAcquiring i s
  | _ => if 4 * i < s.cad.period then glitch s else pulseLocked i s

/-- The level of CADENCE_OUT while it repeats CADENCE_IN: low where the output is off (R31). -/
def cadOutLevel (s : State) : Bool := s.on .CAD_OUT_EN && s.on .CAD_OUT_SRC && s.on .CAD_OUT_WIDTH && s.cad.inLevel

/-- An edge of the filtered CADENCE_IN (R30, R31, R33): CADENCE_OUT repeats the level where OUT_SRC is 1, and the edge of
CAD_CTRL.EDGE is a pulse for the loop. -/
def takeEdge (high : Bool) (i : Nat) (s : State) : State :=
  let s := s.modCad (fun c => { c with inLevel := high })
  let s := when (s.on .CAD_OUT_EN && s.on .CAD_OUT_SRC && s.on .CAD_OUT_WIDTH) (emit (.pin .cadenceOut high)) s
  when (high != s.on .CAD_EDGE && s.on .CAD_EN && !s.on .CAD_SRC) (pulseSeen i) s

/-- A level of CADENCE_IN that the input filter passes: an edge where the filtered level was the other (R30).  While PD_AON is in
reset the pin's level alone is kept. -/
def edgeSeen (high : Bool) (i : Nat) (s : State) : State :=
  if !s.aonRuns then s.modCad (fun c => { c with inLevel := high })
  else when (high != s.cad.inLevel) (takeEdge high i) s

/-- CADENCE_PULSE (R30 to R36): CADENCE_IN goes to a level and holds it for `widthNs`, `interval` units of 2.5 ns after the
last accepted pulse.  A level held under 50 ns is discarded; one of 50 ns to 100 ns may or may
not be seen. -/
def execCadencePulse (widthNs interval : Nat) (edge : InputEdge) (s : State) : Res :=
  let at_ := s.stamp / tickUnits * tickUnits + edge.sub.val
  let s := when (s.aonRuns && decide (s.stamp < at_)) (setStamp at_) s
  .next (
    if widthNs < 50 then s
    else if widthNs < 100 then choose s (fun seen s => when seen (edgeSeen edge.high interval) s)
    else edgeSeen edge.high interval s)

/-- Whether CADENCE_OUT is driven, and by what (R31). -/
def cadOutKind (s : State) : Bool × Bool := (s.on .CAD_OUT_EN && s.on .CAD_OUT_WIDTH, s.on .CAD_OUT_SRC)

/-- A change of CAD_CTRL takes effect at CADENCE_OUT (R31): where it switches the output, whose kind was `was`, the pin takes the
level it now has. -/
def showCadOut (was : Bool × Bool) (s : State) : State :=
  when (was != cadOutKind s) (emit (.pin .cadenceOut (cadOutLevel s))) s

/-- SLEW_END (R34): the phase error is removed and the stamp returns to the rate of the period estimate. -/
def execSlewEnd (s : State) : Res := .next (s.modCad (fun c => { c with slew := 0, slewTime := 0 }))

/-- COASTING_ONSET (R33, R36): the stamp has advanced 1.5 epochs beyond the last accepted pulse.  Before the tick that
holds that instant the event does not arise. -/
def execCoastingOnset (s : State) : Res :=
  let due := s.cad.lastStamp + 98304 * 2 ^ 16
  .next (when (s.rd .CAD_STATE == 2 && decide (due / tickUnits ≤ s.now / tickUnits))
    (fun s =>
      let s := when (decide (s.now < due)) (setStamp (due % 2 ^ 64)) s
      cadState 3 (cadFlag .CAD_LOST_PULSE (some 1) s)) s)

/-- ACQUIRE_TIMEOUT (R36): no pulse for 2 s in ACQUIRING; the loop runs on in FREE on the period in use (R32). -/
def execAcquireTimeout (s : State) : Res :=
  .next (when (s.rd .CAD_STATE == 1) (fun s => cadState 0 (s.modCad (fun c => { c with refs := 0 }))) s)

/-- CHECKPOINT_OVERDUE (R38): a CHECKPOINT is still queued 1,024 epochs after it was queued. -/
def execCheckpointOverdue (s : State) : Res :=
  .next (when (checkpointWaits s && decide (s.journal.ckQueuedAt + 1024 ≤ s.eraEpoch)) (ward 13 19 mNone 0 0) s)

/-! ### Register writes -/

/-- EN changes (Table CD-3): to 0, the loop runs on in FREE on the period in use; a slew in progress ends there, since the
spec keeps none in FREE (DESIGN CHOICE, log entry 39). -/
def setCadEn (en : Bool) (s : State) : State :=
  let s := s.wr .CAD_EN (if en then 1 else 0)
  when (!en && s.rd .CAD_STATE != 0) (fun s => cadState 0 (s.modCad (fun c => { c with refs := 0, slew := 0 }))) s

/-- SRC changes (R32, Table CD-3): to 1, the loop is FREE at once and on CAD_NOMINAL from the next epoch boundary; a slew in
progress ends there (DESIGN CHOICE, log entry 39). -/
def setCadSrc (src : Bool) (s : State) : State :=
  let s := s.wr .CAD_SRC (if src then 1 else 0)
  when src (fun s => cadState 0 (s.modCad (fun c => { c with refs := 0, slew := 0, toNominal := !c.onNominal }))) s

/-- CAD_EN_CHANGE (R36): a write of CAD_CTRL.EN. -/
def execCadEnChange (fn : Fn) (en : Bool) (s : State) : Res :=
  .next (when (mgrWrites s fn && !s.on .CAD_LOCK && (s.on .CAD_EN != en)) (setCadEn en) s)

/-- CAD_SRC_CHANGE (R32): a write of CAD_CTRL.SRC. -/
def execCadSrcChange (fn : Fn) (src : Bool) (s : State) : Res :=
  .next (when (mgrWrites s fn && !s.on .CAD_LOCK && (s.on .CAD_SRC != src)) (setCadSrc src) s)

/-- CAD_NOMINAL_WRITE (R32): the value is stored; it takes effect at the next epoch boundary of a loop that runs on it. -/
def execCadNominalWrite (fn : Fn) (v : BitVec 32) (s : State) : Res :=
  .next (when (mgrWrites s fn && !s.on .CAD_LOCK) (fun s => s.wr .CAD_NOMINAL v.toNat) s)

end Sys2Proof.Machine
end

