-- ==== Sys2Proof/Machine/Interrupts.lean ====
section
/-!
DEFINITION. Interrupts (chapter 13): the end of a holdoff, moderation, enables, unmasking.
-/
namespace Sys2Proof.Machine

/-- A PBA bit that TENANT_RESTORE set waits for the thaw of its tenant (R326). -/
def waitsThaw (s : State) (f v : Nat) : Bool :=
  (s.vec f v).restored && (match s.boundTn f with | some t => s.tnState t == 3 | none => false)

/-- A vector with its PBA bit set sends its message as soon as nothing keeps it back: its PBA bit clears (R321).  One that falls
due while the PF sleeps sets its PME_Status (R325). -/
def releaseVec (f v : Nat) (s : State) : State :=
  when ((s.vec f v).pba && (s.cf f).msixEn && !(s.vec f v).masked && !(s.cf f).fmask && !s.on .FI_HOLDOFF f v &&
      !fnResetting s f && !waitsThaw s f v)
    (fun s =>
      if canSend s f then sendVec f v (s.modVec f v (fun x => { x with pba := false, restored := false }))
      else when (pfAsleep s f) (pmeSignal (pfIdx (fnHl f))) s) s

/-- The holdoff of a vector ends (R321, R322): a waiting vector is raised once, and one held with its PBA bit set is sent
if nothing else keeps it back. -/
def endHoldoff (f v : Nat) (s : State) : State :=
  let waiting := s.on .FI_WAITING f v
  let s := ((s.wr .FI_HOLDOFF 0 f v).wr .FI_WAITING 0 f v).modVec f v (fun x => { x with ticksLeft := 0 })
  if waiting then raiseVec f v s else releaseVec f v s

/-- HOLDOFF_END (R322): MOD_TICKS tick boundaries have passed since the vector's message. -/
def execHoldoffEnd (fn : Fn) (v : Fin 128) (s : State) : Res :=
  let f := fnIdx fn
  .next (when (s.on .FI_HOLDOFF f v && (s.vec f v).ticksLeft == 0 && s.tlOn (hlTiller (fnHl f))) (endHoldoff f v.val) s)

/-- A write of MOD_TICKS (R322): a running holdoff ends at the earlier of its own end and the one the new value gives. -/
def writeModTicks (f v n : Nat) (s : State) : State :=
  let s := s.wr .FI_MOD_TICKS n f v
  if s.on .FI_HOLDOFF f v then
    let s := s.modVec f v (fun x => { x with ticksLeft := min x.ticksLeft (n - x.since) })
    when ((s.vec f v).ticksLeft == 0) (endHoldoff f v) s
  else s

/-- MOD_TICKS_WRITE (R322). -/
def execModTicksWrite (fn : Fn) (v : Fin 128) (ticks : Fin 256) (s : State) : Res :=
  let f := fnIdx fn
  .next (when (fnWrites s fn && decide (v.val < s.rd .FI_VEC_COUNT f)) (writeModTicks f v.val ticks.val) s)

/-- The causes in the order of FN_EVENTS. -/
def allCauses : List Cause :=
  [.reply, .deadlineMiss, .sheafLag, .wardCorr, .wardCont, .wardFatal, .hostlink, .cadence, .tenantBroken]

/-- A write of FN_EVENT_EN (R320): an enable that goes from 0 to 1 while its cause bit is 1 raises the vector once.  The
bits of PF-only causes are not held for a VF. -/
def writeFnEventEn (f v : Nat) (s : State) : State :=
  let old := s.rd .FI_FN_EVENT_EN f
  let new := v &&& (if fnVf f = 0 then 0x3F07 else 0x0007)
  let s := s.wr .FI_FN_EVENT_EN new f
  each allCauses (fun c s =>
    when (new.testBit c.bit && !old.testBit c.bit && s.on c.fld f) (fun s => raiseVec f (s.rd c.vecFld f) s) s) s

/-- FN_EVENT_EN_WRITE (R320). -/
def execFnEventEnWrite (fn : Fn) (v : BitVec 14) (s : State) : Res :=
  .next (when (fnWrites s fn) (writeFnEventEn (fnIdx fn) v.toNat) s)

/-- One of the three causes of a channel: its bit, its enable and its vector field (Table DM-8). -/
def chIrqs : List (Fld × Fld × Fld) :=
  [(.CH_HALF, .CH_HALF_EN, .CH_VEC_HALF), (.CH_FULL, .CH_FULL_EN, .CH_VEC_FULL), (.CH_ERR, .CH_ERR_EN, .CH_VEC_ERR)]

/-- A write of CH_IRQ (R320). -/
def writeChIrq (c v : Nat) (s : State) : State :=
  let was := chIrqs.map (fun e => s.on e.2.1 c)
  let s := s |>.wr .CH_VEC_HALF v c
    |>.wr .CH_HALF_EN (v / 2 ^ 7) c
    |>.wr .CH_VEC_FULL (v / 2 ^ 8) c
    |>.wr .CH_FULL_EN (v / 2 ^ 15) c
    |>.wr .CH_VEC_ERR (v / 2 ^ 16) c
    |>.wr .CH_ERR_EN (v / 2 ^ 23) c
  each (chIrqs.zip was) (fun e s =>
    when (!e.2 && s.on e.1.2.1 c && s.on e.1.1 c)
      (fun s => raiseVec (s.tnFn (s.rd .CH_TNID c)) (s.rd e.1.2.2 c) s) s) s

/-- CH_IRQ_ENABLE_WRITE (R320). -/
def execChIrqEnableWrite (fn : Fn) (ch : Chan) (v : BitVec 24) (s : State) : Res :=
  .next (when (chanWrites s fn ch.val) (writeChIrq ch.val v.toNat) s)

/-- MSIX_UNMASK (R321): the Mask bit of a vector's table entry is cleared; a vector whose PBA bit is set sends its
message unless a holdoff runs. -/
def execMsixUnmask (fn : Fn) (v : Fin 128) (s : State) : Res :=
  let f := fnIdx fn
  .next (when (fnWrites s fn && !s.react && decide (v.val < s.rd .FI_VEC_COUNT f))
    (fun s => releaseVec f v.val (s.modVec f v.val (fun x => { x with masked := false }))) s)

end Sys2Proof.Machine
end

