-- ==== Sys2Proof/Machine/Requests.lean ====
section
/-!
DEFINITION. Host requests (chapter 6): building them, cutting them into TLPs (R138, R144), and the tags and completion
cells they hold (R134 to R140, R149, R150).
-/
namespace Sys2Proof.Machine

/-- A host request of function `f` for tenant `tn` (256 for a PF), under the tenant's current generation.  One of no window has
class 0 (R109; DESIGN CHOICE, log entry 56). -/
def hreq (s : State) (f : Nat) (kind : HKind) (addr len : Nat) (data : Bytes) (src : HSrc) (tn : Nat) : HReq where
  fn := fnOf f
  kind := kind
  addr := addr % 2 ^ 64
  len := len
  data := data
  ro := false
  ido := false
  src := src
  tn := tn
  gen := if tn < 256 then s.rd .TN_GENERATION tn else 0
  charge := 0
  cls := 0
  deadline := 0
  late := false
  stalled := false
  frozen := false

/-- Max_Payload_Size of a function's link: 128, 256 or 512 bytes, in the PF's Device Control. -/
def maxPayload (s : State) (f : Nat) : Nat := 2 ^ (7 + min 2 (s.cf (pfIdx (fnHl f))).maxPayload)

/-- Max_Read_Request_Size of a function, in the PF's Device Control: 128 to 4,096 bytes. -/
def maxRead (s : State) (f : Nat) : Nat := 2 ^ (7 + min 5 (s.cf (pfIdx (fnHl f))).maxReadReq)

/-- A tiller is in conservative mode (R145). -/
def conservative (s : State) (t : Nat) : Bool := s.on .TI_CONSERVATIVE t

/-- The length of the first TLP of a request (R138, R144): none crosses a multiple of the largest size, which divides
4 KiB, so none crosses a 4 KiB boundary and every TLP after the first begins at a multiple of it. -/
def tlpLen (s : State) (r : HReq) : Nat :=
  let f := fnIdx r.fn
  match r.kind with
  | .write => min r.len (maxPayload s f - r.addr % maxPayload s f)
  | .read =>
    let m := if conservative s (hlTiller (fnHl f)) then min 128 (maxRead s f) else maxRead s f
    min r.len (m - r.addr % m)
  | _ => r.len

/-- The place in its source of what remains after `n` bytes. -/
def HSrc.shift (n : Nat) : HSrc → HSrc
  | .window wl lane tag win part ack last => .window wl lane tag win (part + n) ack last
  | .dmaRead ch desc off => .dmaRead ch desc (off + n)
  | .readAhead ch desc off => .readAhead ch desc (off + n)
  | x => x

/-- The first TLP of a request and what remains of it. -/
def cutTlp (s : State) (r : HReq) : HReq × Option HReq :=
  let n := tlpLen s r
  if r.len ≤ n then (r, none)
  else
    ({ r with len := n, data := r.data.take n, charge := min r.charge n },
     some { r with addr := r.addr + n, len := r.len - n, data := r.data.drop n, charge := r.charge - min r.charge n,
                   src := r.src.shift n, stalled := false })

/-- Completion cells a request reserves (R139). -/
def cellsFor (r : HReq) : Nat :=
  match r.kind with
  | .read => if r.len = 0 then 1 else (r.addr % 64 + r.len + 63) / 64
  | .write => 0
  | _ => 1

/-- The cells of a tag are freed; a tag in the spare buffer frees its place there. -/
def freeCells (n : Nat) (t : HTag) (s : State) : State :=
  if t.spare then s
  else
    let til := hlTiller t.req.fn.hl.val
    let s := s.wr .TI_CELLS_USED (s.rd .TI_CELLS_USED til - n) til
    when (decide (t.req.tn < 256)) (fun s => s.wr .TN_CELLS_USED (s.rd .TN_CELLS_USED t.req.tn - n) t.req.tn) s

/-- Show whether a tiller's host reads are blocked (R147). -/
def showBlocked (t : Nat) (s : State) : State :=
  s.wr .TI_READS_BLOCKED (if conservative s t && !s.on .TI_SPARE_READY t then 1 else 0) t

/-- The causes of conservative mode (Table RQ-3). -/
def modeCauses : List Fld := [.TI_BRINGUP, .TI_SELFTEST, .TI_LOST, .TI_RECOVERY]

/-- A cause of conservative mode begins or ends (R145). -/
def setMode (c : Fld) (on : Bool) (t : Nat) (s : State) : State :=
  let s := s.wr c (if on then 1 else 0) t
  showBlocked t (s.wr .TI_CONSERVATIVE (if modeCauses.any (fun f => s.on f t) then 1 else 0) t)

/-- A tag and its cells are freed (R149 to R153). -/
def releaseTag (t : HTag) (s : State) : State :=
  let h := t.req.fn.hl.val
  let s : State := { s with tags := s.tags.erase t }
  let s := freeCells t.cells t s
  if t.quarantined then
    when (decide (t.req.tn < 256)) (fun s => s.dec .TN_QUAR_TAGS t.req.tn) (s.dec .TI_QUARANTINED (hlTiller h) (h % 4))
  else
    let s := when t.spare (fun s => s.dec .TI_CONS_OUT (hlTiller h)) s
    when (decide (t.req.tn < 256)) (fun s => s.dec .TN_LIVE_TAGS t.req.tn) (s.dec .TI_OUTSTANDING (hlTiller h) (h % 4))

/-- A tag moves to quarantine and its cells are freed (R149, R158). -/
def quarantineTag (t : HTag) (timedOut : Bool) (s : State) : State :=
  if t.quarantined then s
  else
    let h := t.req.fn.hl.val
    let s := freeCells t.cells t s
    let s := s.mapTags (fun x => if x = t then { x with quarantined := true, timedOut := timedOut, cells := 0 } else x)
    let s := when t.spare (fun s => s.dec .TI_CONS_OUT (hlTiller h)) s
    let s := (s.dec .TI_OUTSTANDING (hlTiller h) (h % 4)).inc .TI_QUARANTINED (hlTiller h) (h % 4)
    when (decide (t.req.tn < 256)) (fun s => (s.dec .TN_LIVE_TAGS t.req.tn).inc .TN_QUAR_TAGS t.req.tn) s

/-- A tenant's generation is bumped (R158, R286): live tags of the former one go to quarantine. -/
def bumpGeneration (tn : Nat) (s : State) : State :=
  let g := (s.rd .TN_GENERATION tn + 1) % 16
  let s := (s.wr .TN_GENERATION g tn).inc .TN_GEN_CNT tn
  let s := s.wr .DVSEC_GENERATION g (s.tnFn tn)
  let s := trace 1 tn 0x0702 g s
  let s := each (s.tags.filter (fun t => t.req.tn == tn)) (fun t => quarantineTag t false) s
  s.mapTags (fun t => if t.req.tn = tn then { t with timedOut := false, dropped := false } else t)

end Sys2Proof.Machine
end

