-- ==== Sys2Proof/Machine/Keeper.lean ====
section
/-!
DEFINITION. The Keeper's command interface (chapter 14): rings, replies, the order of checks of R338, scheduling under
AT_EPOCH, the sideband management port, and the ring and SMP rows of the table.
-/
namespace Sys2Proof.Machine

/-! ### Issuers and authority -/

/-- The ring number of an issuer: the function's index, or 16,384 for SMP. -/
def ringIdx : Issuer → Nat
  | .fn f => fnIdx f
  | .smp => 16384

/-- The Keeper is draining. -/
def draining (s : State) : Bool := s.rd .KP_KSTATE == 3
/-- Firmware runs commands: PD_KEEP is ON and the Keeper is neither booting nor restarting. -/
def keeperUp (s : State) : Bool := s.domOn dKeep && s.rd .KP_KSTATE != 0 && s.rd .KP_KSTATE != 4

/-- The issuer holds manager authority (R341, R347); in ROM recovery mode the PF of HL0 and SMP both do. -/
def hasMgr (s : State) : Issuer → Bool
  | .fn f => s.isMgr (fnIdx f) || (recovery s && fnIdx f == 0)
  | .smp => s.keeper.mgrSmp || recovery s

/-- The issuer is a PF or SMP. -/
def isPfOrSmp : Issuer → Bool
  | .fn f => f.vf.val == 0
  | .smp => true

/-- Link privilege for host link `h` (R341). -/
def hasLink (s : State) (i : Issuer) (h : Nat) : Bool :=
  hasMgr s i || (match i with | .fn f => fnIdx f == pfIdx h | .smp => false)

/-- The tenant of an issuing VF. -/
def issuerTn (s : State) : Issuer → Option Nat
  | .fn f => if f.vf.val = 0 then none else s.boundTn (fnIdx f)
  | .smp => none

/-- An issuing VF that no tenant is bound to. -/
def unbound (s : State) : Issuer → Bool
  | .fn f => f.vf.val != 0 && (s.boundTn (fnIdx f)).isNone
  | .smp => false

/-- The TNID a command names: 0xFFFF stands for the issuing VF's own tenant (R342), else for the device. -/
def targetOf (s : State) (r : CmdReq) : Nat :=
  if r.target = 0xFFFF then (issuerTn s r.iss).getD 0xFFFF else r.target

/-- Link privilege for the tenant a command names (R341).  Where it names none, 0xFFFF or a FREE tenant, no host link is
concerned and no PF lacks the privilege: R342 and check 9 of R338 then say what a PF is answered (DEDUCED, log entry 35). -/
def hasTenantLink (s : State) (r : CmdReq) : Bool :=
  hasLink s r.iss (s.rd .TN_HL (targetOf s r)) ||
    (decide (r.iss ≠ .smp) && isPfOrSmp r.iss && s.tnState (targetOf s r) == 0)

/-- Tenant privilege for the tenant a command names (R341). -/
def hasTenant (s : State) (r : CmdReq) : Bool :=
  hasTenantLink s r || issuerTn s r.iss == some (targetOf s r)

/-! ### Rings -/

/-- The functions whose RING_CTRL.EN is 1, in rising order. -/
def enabledRings (s : State) : List Nat := s.regs.filterMap (fun e => if e.1.f = .KR_EN then some e.1.i else none)

/-- RING_STATUS.KEEPER_WAIT of every ring: the Keeper does not serve (Table KP-11). -/
def keeperWaits (s : State) : Bool := !(s.domOn dKeep && (s.rd .KP_KSTATE == 1 || s.rd .KP_KSTATE == 2))

/-- The Keeper enters a state (Table KP-12). -/
def setKState (n : Nat) (s : State) : State := s.wr .KP_KSTATE n

/-- How often a ring has been enabled: replies of an earlier enabling are discarded (R366). -/
def ringGen (s : State) (i : Issuer) : Nat := tget 0 s.keeper.ringGen (ringIdx i)

/-- Commands waiting in a ring. -/
def ringWork (s : State) (f : Nat) : Nat := (s.rd .KR_CMD_PI f + 65536 - s.rd .KR_CMD_CI f) % 65536

/-- The opcodes whose command leaves its ring's turn while its reply waits: the waiting commands of R336, and those whose reply slot
the ring hardware keeps across a restart (R449, R451). -/
def asideOps : List Nat := [0x0203, 0x0204, 0x0501, 0x0502, 0x0503, 0x0601, 0x0701, 0x0704, 0x0804, 0x0806]

/-- The context of a command is held. -/
def Ctx.of (c : Ctx) (r : CmdReq) : Bool := decide (c.iss = r.iss) && c.tag == r.tag

/-- Reply slots reserved for the commands of a ring that have not had their final reply.  Those of an earlier enabling, whose replies
are discarded, hold none. -/
def reservedSlots (s : State) (n : Nat) : Nat :=
  let now (i : Issuer) (gen : Nat) : Bool := ringIdx i == n && gen == tget 0 s.keeper.ringGen n
  ((s.keeper.ctxs.filter (fun c => now c.iss c.ringGen)).map (·.slots)).sum +
    (s.keeper.sched.filter (fun c => now c.req.iss c.ringGen)).length +
    (s.keeper.waiting.filter (fun c => now c.req.iss c.ringGen && !s.keeper.ctxs.any (fun x => x.of c.req))).length

/-- Reply slots free in a function's reply ring (R330). -/
def freeSlots (s : State) (f : Nat) : Nat :=
  64 - (s.rd .KR_RPL_PI f + 65536 - s.rd .KR_RPL_CI f) % 65536 - reservedSlots s f

/-- Show the contexts and the schedule in the KEEPER and CMDRING blocks.  After a ring is enabled again its IN_FLIGHT and SCHEDULED
count the commands fetched since (DESIGN CHOICE, log entry 70). -/
def showKeeper (i : Issuer) (s : State) : State :=
  let s := s.wr .KP_CTX_BUSY s.keeper.ctxs.length
  let s := s.wr .KP_SCHED_ALL s.keeper.sched.length
  match i with
  | .fn f => s.wr .KR_SCHEDULED
      (s.keeper.sched.filter (fun c => ringIdx c.req.iss == fnIdx f && c.ringGen == ringGen s i)).length (fnIdx f)
  | .smp => s

/-- A command leaves the Keeper's contexts. -/
def freeCtx (r : CmdReq) (op : Nat) (s : State) : State :=
  showKeeper r.iss (s.modKeeper (fun k => { k with
    ctxs := k.ctxs.eraseP (fun c => decide (c.iss = r.iss) && c.tag == r.tag && (c.opcode == op || !c.fetched)) }))

/-! ### Replies (R332 to R335) -/

/-- The reply header of Table KP-2. -/
def replyHeader (s : State) (r : CmdReq) (op status : Nat) (interim : Bool) (phase len : Nat) : Bytes :=
  le 2 op ++ le 2 r.tag ++ le 1 status ++ le 1 ((if interim then 1 else 0) + 128 * phase) ++ le 2 len ++ le 8 s.stamp

/-- Write a reply: to a function's ring, data first and the header as a separate write behind it (R332), or to the queue
of SMP.  A reply to a ring that is off, or was enabled again meanwhile, is discarded (R366).  One that finds 8 replies queued for
SMP waits for room behind them (DESIGN CHOICE, log entry 95). -/
def sendReply (r : CmdReq) (op status : Nat) (interim : Bool) (data : Bytes) (gen : Nat) (s : State) : State :=
  let s := advance s
  match r.iss with
  | .fn fn =>
    let f := fnIdx fn
    if s.on .KR_EN f && gen == ringGen s r.iss && s.tlOn (hlTiller (fnHl f)) then
      let idx := s.rd .KR_RPL_PI f
      let a := s.rd .KR_RPL_BASE_LO f * 4096 + s.rd .KR_RPL_BASE_HI f * 2 ^ 32 + idx % 64 * 4096
      let hdr := replyHeader s r op status interim (1 - idx / 64 % 2) data.length
      let s := when (!data.isEmpty) (enqueueHost (hreq s f .write (a + 16) data.length data (.reply false) 256)) s
      let s := enqueueHost (hreq s f .write a 16 hdr (.reply true) 256) s
      raiseCause f .reply (s.wr .KR_RPL_PI (idx + 1) f)
    else s
  | .smp =>
    let hdr := replyHeader s r op status interim 0 data.length
    let low := s.keeper.smpReplies.isEmpty
    let s := s.modKeeper (fun k =>
      if k.smpReplies.length < 8 then { k with smpReplies := k.smpReplies ++ [hdr ++ data] }
      else { k with smpLate := k.smpLate ++ [hdr ++ data] })
    when low (emit (.pin .smpIrqN false)) s

/-- How a function is named in a trace record of a command: host link and SMP bit. -/
def issuerArg : Issuer → Nat
  | .fn f => f.hl.val * 2 ^ 24
  | .smp => 2 ^ 31

/-- A command ends with its final reply (R335): counted, traced, written unless it is an OK without data that asked for
no reply, and its context, slot and SMP frame released. -/
def finishCore (r : CmdReq) (op status : Nat) (data : Bytes) (gen : Nat) (s : State) : State :=
  let s := s.inc .KP_CMD_CNT
  let s := when (status != 0) (fun s => s.inc .KP_FAIL_CNT) s
  let s := when (status == 0x14) (fun s => s.inc .KP_CANCEL_CNT) s
  let s := traceNone 0x0801 (op % 65536 + status * 65536 + issuerArg r.iss) s
  let s := if status = 0 && data.isEmpty && !r.ackReq then s else sendReply r op status false data gen s
  let s := freeCtx r op s
  match r.iss with
  | .fn f =>
    when (gen == ringGen s r.iss) (fun s =>
      when (status != 0) (fun s => s.inc .KR_FAIL_CNT (fnIdx f)) (s.dec .KR_IN_FLIGHT (fnIdx f))) s
  | .smp => s.modKeeper (fun k =>
      let i := k.smpCmds.findIdx (fun p => num p 2 2 == r.tag && num p 0 2 == op)
      { k with smpCmds := k.smpCmds.eraseIdx i, smpHeld := if i < k.smpHeld then k.smpHeld - 1 else k.smpHeld })

/-- The opcode of a schedulable command (Table KP-5). -/
def AtCmd.op : AtCmd → Nat
  | .tenantModify _ => 0x0202
  | .outwinSet _ _ => 0x0301
  | .inwinSet _ _ => 0x0302
  | .intwinSet _ _ => 0x0303
  | .sheafSet _ _ => 0x0304
  | .logHarvest => 0x0502
  | .tenantFreeze => 0x0503
  | .tenantThaw => 0x0504
  | .cadenceAnchor _ _ => 0x0601
  | .pdSet _ _ _ => 0x0701
  | .tillerReset _ => 0x0704
  | .updateActivate => 0x0804
  | .traceFilter _ => 0x0901

/-- The update changes state (Table UP-4). -/
def setUpdState (n : Nat) (s : State) : State :=
  let old := s.upd.state
  when (old != n) (fun s => traceNone 0x0C01 (n + old * 16) (s.modUpd (fun u => { u with state := n }))) s

/-- A scheduled command leaves the schedule: what its acceptance set is taken back. -/
def unschedule (e : Sched) (s : State) : State :=
  let s := showKeeper e.req.iss (s.modKeeper (fun k => { k with sched := k.sched.erase e }))
  match e.cmd with
  | .tenantFreeze => s.wr .TN_FREEZE_SET 0 e.req.target
  | .updateActivate => when (s.upd.state == 4) (setUpdState 3) s
  | _ => s

/-- The fetch of a context's command has not ended: its header or its parameters are still to come. -/
def fetchPending (s : State) (c : Ctx) : Bool :=
  !c.fetched || (s.hostQ ++ s.tags.map (·.req)).any (fun r =>
    match r.src, c.iss with
    | .cmdParams _ hdr, .fn f => r.fn == f && num hdr 2 2 == c.tag
    | _, _ => false)

/-- A restart or a drain is for an activation or a revert: the command that asked for it, which the ring hardware keeps a
reply slot for across the restart (R449, R451). -/
def Waiting.kept (w : Waiting) : Bool := w.opcode == 0x0804 || w.opcode == 0x0806

/-- What the Keeper holds: commands fetched and not answered (R362, R363). -/
def holdsCmds (s : State) : Bool := !s.keeper.ctxs.isEmpty || s.keeper.waiting.any (fun w => !w.kept)

/-- A command as far as its context shows it. -/
def Ctx.req (c : Ctx) : CmdReq :=
  { iss := c.iss, tag := c.tag, plen := 0, ackReq := false, atEpoch := false, resv := false, hver := 2, target := 0xFFFF
    notBefore := 0 }

/-- CANCELLED is replied to every command fetched and not answered, and to every scheduled command (R362, R363).  A command
whose fetch has not ended counts as one still in its ring. -/
def cancelAll (s : State) : State :=
  let ws := s.keeper.waiting.filter (fun w => !w.kept)
  let s := s.modKeeper (fun k => { k with waiting := k.waiting.filter (·.kept), anchor := none })
  let s := each ws (fun w => finishCore w.req w.opcode 0x14 [] w.ringGen) s
  let s := each (s.keeper.ctxs.filter (fun c => !fetchPending s c)) (fun c => finishCore c.req c.opcode 0x14 [] c.ringGen) s
  each s.keeper.sched (fun e s => finishCore e.req e.cmd.op 0x14 [] e.ringGen (unschedule e s)) s

/-- The Keeper restarts (R362, R363, Table PW-6); `kind` is that of the RESET record (Table WD-10).  Held halves of chunks
are lost (R442). -/
def enterRestart (kind : Nat) (s : State) : State :=
  let s := cancelAll s
  let s := s.modUpd (fun u => { u with pieces := [] })
  let s := journal (.reset kind 0) (traceNone 0x0802 kind (s.inc .KP_RESTART_CNT))
  setKState 4 s

/-- A drain ends when no command is held (R362 step 2). -/
def drainEnds (s : State) : State := when (draining s && !holdsCmds s) (enterRestart 3) s

/-- A command of an opcode outside Table KP-5 whose turn in its ring has come (R336); one of SMP waits while 8 replies are queued. -/
def unknownTurn (s : State) : Option Ctx :=
  s.keeper.ctxs.find? (fun c => c.unknown != 0 && !fetchPending s c &&
    s.keeper.ctxs.find? (fun x => decide (x.iss = c.iss)) == some c &&
    !s.keeper.waiting.any (fun w => decide (w.req.iss = c.iss) && !asideOps.contains w.opcode) &&
    !(decide (c.iss = .smp) && decide (8 ≤ s.keeper.smpReplies.length)))

/-- Commands of opcodes outside Table KP-5 are answered in their turn.  `k` bounds their number. -/
def answerUnknowns : Nat → State → State
  | 0, s => s
  | k + 1, s =>
    match unknownTurn s with
    | some c => answerUnknowns k (finishCore c.req c.opcode c.unknown [] c.ringGen s)
    | none => s

/-- A command ends with its final reply; the last one that a draining Keeper holds ends the drain. -/
def finishGen (r : CmdReq) (op status : Nat) (data : Bytes) (gen : Nat) (s : State) : State :=
  drainEnds (answerUnknowns 16 (finishCore r op status data gen s))

/-- The enabling of the ring that a command executes under: a scheduled one, that of its acceptance, a fetched one, that of its fetch
(R366). -/
def curGen (s : State) (r : CmdReq) : Nat :=
  s.keeper.actGen.getD (((s.keeper.ctxs.find? (fun c => c.of r)).map (·.ringGen)).getD (ringGen s r.iss))

/-- A command ends. -/
def finish (r : CmdReq) (op status : Nat) (data : Bytes) (s : State) : State :=
  finishGen r op status data (curGen s r) s

/-- RETRY_MS of BUSY_UPDATE (R335, R362): at least 1 and at most the 50 ms bound; what remains of the bound is time that
the model does not hold, so the value is free. -/
def finishBusy (r : CmdReq) (op : Nat) (s : State) : State :=
  draw s (fun v s => finish r op 2 (le 4 (1 + v % 50)) s)

/-! ### Waiting and scheduled commands (R336, R337) -/

/-- A command waits for its reply; one that R336 does not let stand aside keeps its context and its ring's turn. -/
def waitOn (r : CmdReq) (op key : Nat) (s : State) : State :=
  when (asideOps.contains op) (freeCtx r op) (s.modKeeper (fun k => { k with waiting := k.waiting ++ [⟨r, op, key, curGen s r⟩] }))

/-- The waiting commands of an opcode and key end. -/
def finishWaiting (op key status : Nat) (data : Bytes) (s : State) : State :=
  let ws := s.keeper.waiting.filter (fun w => w.opcode == op && w.key == key)
  let s := s.modKeeper (fun k => { k with waiting := k.waiting.filter (fun w => !(w.opcode == op && w.key == key)) })
  each ws (fun w s => finishGen w.req op status data w.ringGen s) s

/-- What takes the place of TARGET when a second command is refused with BUSY (R336). -/
def AtCmd.key (c : AtCmd) (target : Nat) : Nat :=
  match c with
  | .pdSet d _ _ => d
  | .tillerReset t => t
  | .cadenceAnchor _ _ => 0
  | _ => target

/-- A scheduled command is cancelled with a reply. -/
def cancelSched (e : Sched) (s : State) : State := finishGen e.req e.cmd.op 0x14 [] e.ringGen (unschedule e s)

/-- The first scheduled command whose boundary has come and that `p` picks. -/
def dueSched (s : State) (p : Sched → Bool) : Option Sched :=
  s.keeper.sched.find? (fun e => decide (e.due ≤ s.eraEpoch) && p e)

/-- A command with the same opcode and target is scheduled or waiting (R336). -/
def busySame (s : State) (op key : Nat) : Bool :=
  s.keeper.waiting.any (fun w => w.opcode == op && (w.key == key || (op == 0x0704 && (w.key == 8 || key == 8)))) ||
    s.keeper.sched.any (fun e => e.cmd.op == op &&
      (e.cmd.key e.req.target == key || (op == 0x0704 && (e.cmd.key e.req.target == 8 || key == 8))))

/-! ### The checks of R338 -/

/-- What a row of Table KP-5 says of its command: the lengths it takes, who may issue it, whether it acts on a tenant and
accepts AT_EPOCH, its parameter ranges, the blocks it must touch, its own refusals, and its effect. -/
structure Cmd where
  op : Nat
  lenOk : Bool
  priv : State → Bool
  acts : Bool := false
  atOk : Bool := false
  params : State → Bool := fun _ => true
  dark : State → Bool := fun _ => false
  own : State → Nat := fun _ => 0
  key : Option Nat := none
  busy : State → Bool := fun _ => false
  sched : Option AtCmd := none
  onAccept : State → State := id
  act : State → State

/-- The status of the first check that applies, 0 when none does. -/
def firstFail : List (Bool × Nat) → Nat
  | [] => 0
  | (b, c) :: r => if b then c else firstFail r

/-- The command is served while the reaction is in force (R364). -/
def servedInReaction (op : Nat) : Bool :=
  op / 256 == 0x09 || op / 256 == 0x0A || op == 0x0100 || op == 0x0101 || op == 0x0102 || op == 0x0103

/-- The Keeper holds the command already (R362). -/
def heldCmd (s : State) (r : CmdReq) : Bool := s.keeper.ctxs.any (fun c => decide (c.iss = r.iss) && c.tag == r.tag)

/-- The epoch boundary an AT_EPOCH command waits for, as (era, EPOCH), or none for a NOT_BEFORE that R337 refuses. -/
def atDue (s : State) (notBefore : Nat) : Option Nat :=
  let d := (notBefore + 2 ^ 32 - s.epoch) % 2 ^ 32
  if 1 ≤ d && d ≤ 2 ^ 24 then some (s.eraEpoch + d)
  else if d = 0 || 2 ^ 31 < d then some (s.eraEpoch + 1)
  else none

/-- A VF names a TARGET that is neither 0xFFFF nor its own (R342). -/
def foreignTarget (s : State) (r : CmdReq) : Bool :=
  match r.iss with
  | .fn f => f.vf.val != 0 && r.target != 0xFFFF && issuerTn s r.iss != some r.target
  | .smp => false

/-- Checks 5 to 10 of R338, with the authority `mgr` a scheduled command was accepted under (R347). -/
def checks5to10 (c : Cmd) (r : CmdReq) (mgr : Bool) (s : State) : Nat :=
  let t := targetOf s r
  firstFail [
    (unbound s r.iss && c.op != 0x0100 && c.op != 0x0101, 0x0A),
    (!(mgr || c.priv s) || foreignTarget s r, 0x08),
    (s.react && !(servedInReaction c.op && isPfOrSmp r.iss), 0x09),
    (!c.lenOk, 0x06),
    (r.resv || (r.target ≥ 256 && r.target != 0xFFFF) || (c.acts && t == 0xFFFF) ||
      (r.atEpoch && (!c.atOk || (atDue s r.notBefore).isNone)) || !c.params s, 0x05),
    (decide (t < 256) && c.op != 0x0201 && (s.tnState t == 0 || (s.tnState t == 5 && c.op != 0x0205)), 0x0A),
    (c.dark s, 0x0B)]

/-- The commands that wait for an epoch boundary even without AT_EPOCH: LOG_HARVEST, TENANT_FREEZE, CADENCE_ANCHOR and
UPDATE_ACTIVATE (R39, R301, R305, R449). -/
def atBoundary (op : Nat) : Bool := op == 0x0502 || op == 0x0503 || op == 0x0601 || op == 0x0804

/-- What a command's own state checks answer: INVALID_PARAM and INVALID_LENGTH first; a BROKEN tenant refuses every command but its
destruction and TENANT_QUERY (Table TN-5). -/
def stateChecks (c : Cmd) (r : CmdReq) (s : State) : Nat :=
  let o := c.own s
  firstFail [
    (o == 5 || o == 6, o),
    (c.acts && s.tnState (targetOf s r) == 4 && c.op != 0x0204 && c.op != 0x0205, 0x09),
    (o != 0, o)]

/-- The command's own checks (check 11), BUSY last. -/
def ownChecks (c : Cmd) (r : CmdReq) (s : State) : Nat :=
  firstFail [
    (stateChecks c r s != 0, stateChecks c r s),
    (c.busy s || busySame s c.op (c.key.getD (targetOf s r)), 0x01),
    ((r.atEpoch || atBoundary c.op) && decide (256 ≤ s.keeper.sched.length), 0x01)]

/-- The status of the first check of R338 that applies. -/
def checkCmd (c : Cmd) (r : CmdReq) (s : State) : Nat :=
  firstFail [
    (r.hver != 2, 0x15),
    (decide (4064 < r.plen), 0x06),
    (recovery s && c.op / 256 != 8 && c.op != 0x0100 && c.op != 0x0101, 0x13),
    (draining s && !heldCmd s r, 0x02),
    (checks5to10 c r false s != 0, checks5to10 c r false s),
    (ownChecks c r s != 0, ownChecks c r s)]

/-- An accepted AT_EPOCH command waits for its boundary, with an interim reply when one was asked for (R335, R337). -/
def schedule (c : Cmd) (a : AtCmd) (r : CmdReq) (s : State) : State :=
  let due := (atDue s r.notBefore).getD (s.eraEpoch + 1)
  let g := curGen s r
  let s := c.onAccept s
  let s := s.modKeeper (fun k => { k with sched := k.sched ++ [⟨{ r with target := targetOf s r }, a, due, g, hasMgr s r.iss⟩] })
  let s := when r.ackReq (sendReply r c.op 0 true [] g) s
  freeCtx r c.op s

/-- A command that acts at an epoch boundary even without AT_EPOCH waits for the boundary `due`, without an interim reply. -/
def boundaryAt (due op : Nat) (a : AtCmd) (r : CmdReq) (s : State) : State :=
  freeCtx r op (s.modKeeper (fun k => { k with sched := k.sched ++
    [⟨{ r with target := targetOf s r }, a, due, curGen s r, hasMgr s r.iss⟩] }))

/-- It waits for the next one (R301, R305, R449). -/
def nextBoundary (op : Nat) (a : AtCmd) (r : CmdReq) (s : State) : State := boundaryAt (s.eraEpoch + 1) op a r s

/-- Commands of one ring are executed in ring order, one at a time (R336): while the Keeper holds commands of an issuer, its next one is
the one taken first, once its fetch has ended.  A command that no COMMAND_FETCH has taken, from an issuer of which none is held, is taken
as fetched (DESIGN CHOICE, log entry 74). -/
def outOfTurn (s : State) (r : CmdReq) (op : Nat) : Bool :=
  s.keeper.waiting.any (fun w => decide (w.req.iss = r.iss) && !asideOps.contains w.opcode) ||
  match s.keeper.ctxs.find? (fun c => decide (c.iss = r.iss)) with
  | some c => c.tag != r.tag || c.opcode != op || fetchPending s c
  | none => false

/-- A command reaches the Keeper (R336, R338, R361, R363 to R365): one that the Keeper does not fetch stays in its ring. -/
def runCmd (c : Cmd) (r : CmdReq) (s : State) : State :=
  let smp := decide (r.iss = .smp)
  if !s.aonRuns then s
  else if !s.domOn dKeep then
    if smp then finish r c.op (if c.op = 0x0100 then 0 else 0x0B) [] s else s
  else if !keeperUp s then
    if smp then finishBusy r c.op s else s
  else if smp && decide (8 ≤ s.keeper.smpReplies.length) then s
  else if s.react && !isPfOrSmp r.iss && !heldCmd s r then s
  else if recovery s && !smp && ringIdx r.iss != 0 && !heldCmd s r then s
  else if outOfTurn s r c.op then s
  else
    match checkCmd c r s with
    | 0 =>
      match r.atEpoch, c.sched with
      | true, some a => schedule c a r s
      | _, _ => c.act s
    | 2 => finishBusy r c.op s
    | n => finish r c.op n [] s

/-- A scheduled command executes at its boundary: checks 5 to 10 and its own state checks again (R337, R338), by the authority in
force when it was accepted (R367). -/
def runSched (c : Cmd) (e : Sched) (s : State) : State :=
  let s := (unschedule e s).modKeeper (fun k => { k with actGen := some e.ringGen, actMgr := some e.mgr })
  let r := { e.req with atEpoch := false }
  let n := checks5to10 c r e.mgr s
  let n := if n != 0 then n else stateChecks c r s
  let s := if n != 0 then finish e.req c.op n [] s else c.act s
  s.modKeeper (fun k => { k with actGen := none, actMgr := none })

/-! ### Ring rows -/

/-- CMD_PI_WRITE (R328, R329): the doorbell; more than 64 ahead stops the ring. -/
def execCmdPiWrite (fn : Fn) (v : BitVec 16) (s : State) : Res :=
  let f := fnIdx fn
  .next (when (fnWrites s fn && s.on .KR_EN f)
    (fun s =>
      let s := s.wr .KR_CMD_PI v.toNat f
      when (decide (64 < ringWork s f))
        (fun s => ((s.wr .KR_OVERRUN 1 f).wr .KR_STOPPED 1 f).wr .KR_ACTIVE 0 f) s) s)

/-- A change of RING_CTRL.EN (R328, R366). -/
def writeRingEn (f : Nat) (en : Bool) (s : State) : State :=
  let s := s.wr .KR_EN (if en then 1 else 0) f
  if en then
    let s := s.modKeeper (fun k => { k with ringGen := tset 0 k.ringGen f (tget 0 k.ringGen f + 1) })
    s |>.wr .KR_CMD_PI 0 f |>.wr .KR_CMD_CI 0 f |>.wr .KR_RPL_PI 0 f |>.wr .KR_RPL_CI 0 f
      |>.wr .KR_ACTIVE 1 f |>.wr .KR_REPLY_FULL 0 f |>.wr .KR_IN_FLIGHT 0 f |>.wr .KR_SCHEDULED 0 f
  else (s.wr .KR_ACTIVE 0 f).wr .KR_STOPPED 0 f

/-- RING_EN_WRITE (R328). -/
def execRingEnWrite (fn : Fn) (en : Bool) (s : State) : Res :=
  .next (when (fnWrites s fn && (s.on .KR_EN (fnIdx fn) != en)) (writeRingEn (fnIdx fn) en) s)

/-- RPL_CI_WRITE (R328): values more than 64 behind RPL_PI are ignored. -/
def execRplCiWrite (fn : Fn) (v : BitVec 16) (s : State) : Res :=
  let f := fnIdx fn
  .next (when (fnWrites s fn && decide ((s.rd .KR_RPL_PI f + 65536 - v.toNat) % 65536 ≤ 64))
    (fun s =>
      let s := s.wr .KR_RPL_CI v.toNat f
      when (freeSlots s f != 0) (fun s => s.wr .KR_REPLY_FULL 0 f) s) s)

/-- A ring has a command that may be fetched (R329, R364, R365), and the header of the one before has been read, which says how many reply
slots that one takes (R330). -/
def ringReady (s : State) (f : Nat) : Bool :=
  !s.on .KR_STOPPED f && !s.keeper.ctxs.any (fun c => decide (c.iss = .fn (fnOf f)) && !c.fetched) && decide (1 ≤ ringWork s f) && decide (ringWork s f ≤ 64) && s.tlOn (hlTiller (fnHl f)) &&
    (!s.react || fnVf f == 0) && (!recovery s || f == 0)

/-- The ring after the one served last, in round robin (R330). -/
def nextRing (l : List Nat) (rr : Nat) : Option Nat := (l.find? (fun f => decide (rr < f))).or l.head?

/-- The opcodes of Table KP-5. -/
def opcodes : List Nat :=
  [0x0100, 0x0101, 0x0102, 0x0103, 0x0110, 0x0120, 0x0121, 0x0201, 0x0202, 0x0203, 0x0204, 0x0205, 0x0210, 0x0211, 0x0301,
   0x0302, 0x0303, 0x0304, 0x0401, 0x0410, 0x0411, 0x0412, 0x0413] ++
  [0x0501, 0x0502, 0x0503, 0x0504, 0x0505, 0x0506, 0x0601, 0x0610, 0x0611, 0x0701, 0x0702, 0x0703, 0x0704, 0x0801, 0x0802,
   0x0803, 0x0804, 0x0805, 0x0806, 0x0901, 0x0902, 0x0903, 0x0A01, 0x0A02, 0x0A03, 0x0A04, 0x0A05, 0x0A10]

/-- The request part of a packet's header. -/
def headerReq (i : Issuer) (p : Bytes) : CmdReq where
  iss := i
  tag := num p 2 2
  plen := num p 4 2
  ackReq := (num p 6 1).testBit 0
  atEpoch := (num p 6 1).testBit 1
  resv := false
  hver := num p 7 1
  target := num p 8 2
  notBefore := num p 12 4

/-- What answers a packet of an opcode outside Table KP-5: checks 1 and 2 of R338; 0 for one of the table. -/
def unknownStatus (p : Bytes) : Nat :=
  if opcodes.contains (num p 0 2) then 0 else if num p 7 1 != 2 then 0x15 else if 4064 < num p 4 2 then 0x06 else 0x04

/-- A command of SMP is taken into a context. -/
def fetchSmp (s : State) : State :=
  match s.keeper.smpCmds.drop s.keeper.smpHeld with
  | p :: _ =>
    answerUnknowns 16 (showKeeper .smp (s.modKeeper (fun k => { k with
      rr := 16384
      smpHeld := k.smpHeld + 1
      ctxs := k.ctxs ++ [⟨.smp, num p 0 2, num p 2 2, 1, true, 0, unknownStatus p⟩] })))
  | [] => s

/-- A command of function `f` is fetched: its header is read from its slot (R329, R331). -/
def fetchRing (f : Nat) (s : State) : State :=
  if freeSlots s f = 0 then s.modKeeper (fun k => { k with rr := f }) |>.wr .KR_REPLY_FULL 1 f
  else
    let idx := s.rd .KR_CMD_CI f
    let a := s.rd .KR_CMD_BASE_LO f * 4096 + s.rd .KR_CMD_BASE_HI f * 2 ^ 32 + idx % 64 * 4096
    let s := s |>.wr .KR_CMD_CI (idx + 1) f |>.inc .KR_CMD_CNT f |>.wr .KR_IN_FLIGHT (s.rd .KR_IN_FLIGHT f + 1) f
      |>.wr .KR_REPLY_FULL 0 f
    let s := s.modKeeper (fun k => { k with
      rr := f
      ctxs := k.ctxs ++ [⟨.fn (fnOf f), 0, idx % 64, 1, false, tget 0 k.ringGen f, 0⟩] })
    showKeeper (.fn (fnOf f)) (enqueueHost (hreq s f .read a 32 [] (.cmdHeader (idx % 64)) 256) s)

/-- COMMAND_FETCH (R330): with a context free, the next ring in round robin with work has its next command fetched; SMP
counts as one ring. -/
def execCommandFetch (s : State) : Res :=
  .next (
    if !s.domOn dKeep || !(s.rd .KP_KSTATE == 1 || s.rd .KP_KSTATE == 2) || decide (16 ≤ s.keeper.ctxs.length) then s
    else
      let rings := (enabledRings s).filter (ringReady s) ++
        (if s.keeper.smpHeld < s.keeper.smpCmds.length then [16384] else [])
      match nextRing rings s.keeper.rr with
      | some f => if f = 16384 then fetchSmp s else fetchRing f s
      | none => s)

/-- The context of a command of function `f` whose header is being read from slot `slot`. -/
def headerCtx (f slot : Nat) (c : Ctx) : Bool := decide (c.iss = .fn (fnOf f)) && !c.fetched && c.tag == slot

/-- The context of a command of function `f` with header `p`. -/
def paramsCtx (f : Nat) (p : Bytes) (c : Ctx) : Bool :=
  decide (c.iss = .fn (fnOf f)) && c.fetched && c.tag == num p 2 2 && c.opcode == num p 0 2

/-- A command whose header asks for two replies and finds one slot is fetched again once two are free (R330; DESIGN CHOICE, log entry
71). -/
def fetchAgain (f slot : Nat) (s : State) : State :=
  let s := s |>.wr .KR_CMD_CI (s.rd .KR_CMD_CI f + 65535) f |>.wr .KR_CMD_CNT (s.rd .KR_CMD_CNT f - 1) f
    |>.dec .KR_IN_FLIGHT f |>.wr .KR_REPLY_FULL 1 f
  showKeeper (.fn (fnOf f)) (s.modKeeper (fun k => { k with ctxs := k.ctxs.eraseP (headerCtx f slot) }))

/-- A command's header has been read (R329): its parameters are read next; ACK_REQ with AT_EPOCH keeps a second slot (R330). -/
def headerFetched (f slot : Nat) (p : Bytes) (s : State) : State :=
  let r := headerReq (.fn (fnOf f)) p
  let two := r.ackReq && r.atEpoch
  if two && freeSlots s f == 0 && s.keeper.ctxs.any (fun c => headerCtx f slot c && c.ringGen == ringGen s c.iss) then
    fetchAgain f slot s
  else
    let s := s.modKeeper (fun k => { k with ctxs := k.ctxs.map (fun c =>
      if headerCtx f slot c then
        { c with
          opcode := num p 0 2, tag := r.tag, slots := if two then 2 else 1, fetched := true, unknown := unknownStatus p }
      else c) })
    let a := s.rd .KR_CMD_BASE_LO f * 4096 + s.rd .KR_CMD_BASE_HI f * 2 ^ 32 + slot * 4096
    let s := when (decide (0 < r.plen) && decide (r.plen ≤ 4064))
      (enqueueHost (hreq s f .read (a + 32) r.plen [] (.cmdParams slot p) 256)) s
    answerUnknowns 16 s

/-- A command fetch fails (R331): FETCH_ERR, and STOPPED while the ring is on under the enabling that fetched it; the command, whose
context `mine` picks, is skipped, and a CORR fault names the function. -/
def fetchFailed (f : Nat) (mine : Ctx → Bool) (s : State) : State :=
  let live := s.keeper.ctxs.any (fun c => mine c && c.ringGen == ringGen s c.iss)
  let s := when (s.keeper.ctxs.any mine) (fun s => s.wr .KR_FETCH_ERR 1 f) s
  let s := when (live && s.on .KR_EN f) (fun s => (s.wr .KR_STOPPED 1 f).wr .KR_ACTIVE 0 f) s
  let s := s.modKeeper (fun k => { k with ctxs := k.ctxs.eraseP mine })
  let s := showKeeper (.fn (fnOf f)) (when live (fun s => s.dec .KR_IN_FLIGHT f) s)
  ward (hlTiller (fnHl f)) 15 (mFn f) 10 0 s

/-! ### Commands of this chapter -/

/-- NOP (R343). -/
def execNop (r : CmdReq) (s : State) : Res :=
  .next (runCmd { op := 0x0100, lenOk := r.plen == 0, priv := fun _ => true, act := finish r 0x0100 0 [] } r s)

/-- CMD_CANCEL (R346): ends a scheduled command of the same ring that has not begun. -/
def execCmdCancel (r : CmdReq) (tag : Nat) (s : State) : Res :=
  let find (s : State) : Option Sched := s.keeper.sched.find? (fun e => decide (e.req.iss = r.iss) && e.req.tag == tag)
  .next (runCmd
    { op := 0x0103, lenOk := r.plen == 4, priv := fun _ => true
      own := fun s => if (find s).isSome then 0 else 9
      act := fun s => finish r 0x0103 0 [] (withSome (find s) cancelSched s) } r s)

/-! ### The sideband management port -/

/-- A frame that the bridge discards, with the status bit it sets and the counter it adds to. -/
def smpDiscard (bit : Nat) (cnt : Fld) (s : State) : State :=
  (s.modKeeper (fun k => { k with smpFlags := setBit k.smpFlags bit })).inc cnt

/-- SMP_WRITE (R359, R360): the frame is checked for its length, its CRC and the room for it, in that order.  One of an opcode that no
row of the table stands for is answered by the always-on block, or by the Keeper in its turn. -/
def execSmpWrite (len : Nat) (packet : Bytes) (crc : Nat) (s : State) : Res :=
  .next (
    if !s.aonRuns then s
    else if len < 32 || 4096 < len || len < 32 + num packet 4 2 || packet.length ≠ len then smpDiscard 3 .CT_SMP_FRAME s
    else if crc16 (le 2 len ++ packet) ≠ crc then smpDiscard 2 .CT_SMP_CRC s
    else if 8 ≤ s.keeper.smpCmds.length then smpDiscard 4 .CT_SMP_OVERFLOW s
    else
      let s := (s.modKeeper (fun k => { k with smpCmds := k.smpCmds ++ [packet] })).inc .CT_SMP_CMD
      let r := headerReq .smp packet
      if opcodes.contains (num packet 0 2) then s
      else if !s.domOn dKeep then finish r (num packet 0 2) 0x0B [] s
      else if !keeperUp s || draining s then finishBusy r (num packet 0 2) s
      else s)

/-- A frame with its length and CRC as SMP clocks it out (Table KP-9). -/
def smpFrame (p : Bytes) : Bytes := le 2 p.length ++ p ++ le 2 (crc16 (le 2 p.length ++ p))

/-- SMP_READ (R359, R360): the reply at the head of the queue leaves it once its CRC has been clocked out; with none
queued, LEN 0 and its CRC. -/
def execSmpRead (s : State) : Res :=
  .next (when s.aonRuns (fun s =>
    match s.keeper.smpReplies with
    | p :: rest =>
      let s := emit (.smp (0 :: smpFrame p)) (s.modKeeper (fun k => { k with
        smpReplies := rest ++ k.smpLate.take 1, smpLate := k.smpLate.drop 1 }))
      let s := when s.keeper.smpReplies.isEmpty (emit (.pin .smpIrqN true)) s
      when (keeperUp s) (answerUnknowns 16) s
    | [] => emit (.smp (0 :: smpFrame [])) s) s)

/-- The status byte of Table KP-10. -/
def smpStatusByte (s : State) : Nat :=
  s.keeper.smpFlags + (if s.keeper.smpReplies.isEmpty then 0 else 1) + (if 8 ≤ s.keeper.smpCmds.length then 2 else 0) +
    (if keeperUp s && !draining s then 32 else 0) + (if recovery s then 64 else 0) + (if s.react then 128 else 0)

/-- SMP_STATUS (R359): bits [4:2] clear on the read. -/
def execSmpStatus (s : State) : Res :=
  .next (when s.aonRuns (fun s =>
    emit (.smp [0, BitVec.ofNat 8 (smpStatusByte s)]) (s.modKeeper (fun k => { k with smpFlags := 0 }))) s)

/-- SMP_CS_ABORT (R359): a transaction ended early is discarded, and a reply it was reading stays queued. -/
def execSmpCsAbort (op : SmpOp) (s : State) : Res :=
  match op with
  | .write => .next s
  | .read => .next s
  | .status => .next s

end Sys2Proof.Machine
end

