-- ==== Sys2Proof/Machine/Observe.lean ====
section
/-!
DEFINITION. Trace and counters (chapter 19): the ring, its filters and stream, and the JTAG port.
-/
namespace Sys2Proof.Machine

/-! ### The ring -/

/-- A trace bank SB40 to SB43 is LOST: no record is appended (R21, R467). -/
def traceLost (s : State) : Bool := s.rd .PW_BANK_LOST_HI / 2 ^ 8 % 2 ^ 4 != 0

/-- Show whether STOP mode has filled the ring (R458). -/
def showStopped (s : State) : State :=
  s.wr .TR_STOPPED (if s.on .TR_STOP_MODE && decide (s.trace.restart + 65536 ≤ s.rd .TR_NEXT) then 1 else 0)

/-- The ring takes a record, unless STOP mode has filled it (R458). -/
def ringTake (r : TrRec) (s : State) : State :=
  let s := showStopped s
  if s.on .TR_STOPPED then s.inc .TR_DROP_CNT else showStopped (ringAppend r s)

/-- The first record after PD_HUB wakes from RET is RESUME (Table OB-2). -/
def resumeFirst (s : State) : State :=
  if s.trace.hubResumed then
    let s := advance (s.modTrace (fun t => { t with hubResumed := false }))
    ringTake ⟨s.stamp, 0, 0x0006, 0⟩ s
  else s

/-- The next record of the ring. -/
def ringNext (r : TrRec) (s : State) : State := ringTake r (resumeFirst s)

/-- A source with discarded records reports them in one DROPPED record now that its queue has room (R461). -/
def reportDropped (source : Nat) (s : State) : State :=
  let q := tget ⟨[], 0⟩ s.trace.srcQ source
  if q.dropped = 0 then s
  else
    let s := advance s
    let s := s.add .TR_DROP_CNT q.dropped
    s.modTrace (fun t => { t with
      srcQ := tset ⟨[], 0⟩ t.srcQ source ⟨q.recs ++ [(⟨s.stamp, 0, 0x0003, sat 32 q.dropped⟩, true)], 0⟩ })

/-- TRACE_RECORD_APPEND (R458, R461, R462): the oldest record of a source's queue reaches the Hub. -/
def execTraceRecordAppend (source : Nat) (s : State) : Res :=
  let q := tget ⟨[], 0⟩ s.trace.srcQ source
  .next (
    match q.recs with
    | [] => s
    | (r, kept) :: rest =>
      if !s.domOn dHub || traceLost s then s
      else
        let s := s.modTrace (fun t => { t with srcQ := tset ⟨[], 0⟩ t.srcQ source ⟨rest, q.dropped⟩ })
        let s := when kept (ringNext r) s
        reportDropped source s)

/-- The bytes of a record (Table OB-1). -/
def TrRec.bytes (r : TrRec) : Bytes := le 8 r.stamp ++ le 2 r.source ++ le 2 r.code ++ le 4 r.arg

/-- The record of a number, if the ring holds it. -/
def heldRec (s : State) (n : Nat) : Option TrRec :=
  if s.rd .TR_OLDEST ≤ n && n < s.rd .TR_NEXT && s.domOn dHub then (s.trace.ring.find? (fun e => e.1 == n)).map (·.2)
  else none

/-! ### Commands -/

/-- TRACE_FILTER applies (R462).  What a change of mode makes of STOPPED follows from what it shows (Table OB-8). -/
def applyFilter (p : FilterParams) (s : State) : State :=
  let s := advance (when (!traceLost s) resumeFirst s)
  let f : TraceFilter := ⟨setBit p.classEn 0, p.flags.testBit 0, p.tenants, p.wlinks, p.hlinks⟩
  let s := s.modTrace (fun t => { t with filter := f })
  let s := s.wr .TR_STOP_MODE (if p.flags.testBit 0 then 1 else 0)
  let s := when (p.flags.testBit 1) (fun s =>
    (s.wr .TR_OLDEST (s.rd .TR_NEXT)).modTrace (fun t => { t with ring := [], restart := s.rd .TR_NEXT })) s
  let s := showStopped s
  when (!traceLost s) (fun s => ringTake ⟨s.stamp, 0, 0x0002, f.classEn⟩ s) s

/-- The row TRACE_FILTER of Table KP-5. -/
def cmdTraceFilter (r : CmdReq) (p : FilterParams) : Cmd where
  op := 0x0901
  lenOk := r.plen == 64
  priv := fun s => hasMgr s r.iss
  atOk := true
  params := fun _ => decide (p.classEn < 2 ^ 14) && decide (p.flags < 4)
  dark := fun s => !s.domOn dHub
  sched := some (.traceFilter p)
  act := fun s => finish r 0x0901 0 [] (applyFilter p s)

/-- TRACE_FILTER (R462). -/
def execTraceFilter (r : CmdReq) (p : FilterParams) (s : State) : Res := .next (runCmd (cmdTraceFilter r p) r s)

/-- TRACE_READ (R463): records from FROM, or from the oldest held, at most 252. -/
def traceReadReply (s : State) (start : Nat) : Bytes :=
  let first := max start (s.rd .TR_OLDEST)
  let n := min 252 (s.rd .TR_NEXT - first)
  let recs := ((List.range n).filterMap (fun k => heldRec s (first + k))).flatMap TrRec.bytes
  let fin := decide (0 < n) && first + n == s.rd .TR_NEXT
  le 2 n ++ le 2 ((if fin then 1 else 0) + (if start < s.rd .TR_OLDEST then 2 else 0)) ++ le 4 first ++ recs

/-- TRACE_READ (R463). -/
def execTraceRead (r : CmdReq) (start : Nat) (s : State) : Res :=
  .next (runCmd
    { op := 0x0903, lenOk := r.plen == 8, priv := fun _ => isPfOrSmp r.iss, dark := fun s => !s.domOn dHub
      act := fun s => finish r 0x0903 0 (traceReadReply s start) s } r s)

/-! ### The stream -/

/-- Write stream records: record `j` of the stream goes to BASE + 16 × (j mod 2^(SIZE_LOG2 − 4)) (R465). -/
def streamWrite (d : Bytes) (s : State) : State :=
  let h := s.rd .TR_STREAM_HL
  let j := s.trace.strWritten
  let a := s.trace.strBase + 16 * (j % 2 ^ (s.trace.strSize - 4))
  let s := s.modTrace (fun t => { t with strWritten := j + d.length / 16 })
  enqueueHost (hreq s (pfIdx h) .write a d.length d (.stream none) 256) s

/-- The producer count follows the data (R465); `skipped` records went before it uncopied. -/
def streamCount (skipped : Nat) (s : State) : State :=
  let s := s.wr .TR_STREAM_CNT s.trace.strWritten
  enqueueHost (hreq s (pfIdx (s.rd .TR_STREAM_HL)) .write s.trace.strProd 8 (le 8 s.trace.strWritten)
    (.stream (some (s.trace.strNext, skipped))) 256) s

/-- Records overwritten before they were streamed: STREAM_GAP counts them (R466).  It is a batch of its own, which the producer
count follows (DEDUCED, log entry 80). -/
def streamGap (s : State) : State :=
  let skipped := s.rd .TR_OLDEST - s.trace.strNext
  if skipped = 0 then s
  else
    let s := advance s
    let s := s.modTrace (fun t => { t with strNext := s.rd .TR_OLDEST })
    streamCount skipped (streamWrite (TrRec.bytes ⟨s.stamp, 0, 0x0004, sat 32 skipped⟩) s)

/-- Write the next records of the stream's current line, at most `n`.  A line is 64 aligned bytes of the buffer: after a partial
line the next write fills the rest of it (DEDUCED, log entry 80). -/
def streamLine (n : Nat) (s : State) : State :=
  let k := min n (4 - s.trace.strWritten % 4)
  let d := ((List.range k).filterMap (fun i => heldRec s (s.trace.strNext + i))).flatMap TrRec.bytes
  let s := s.modTrace (fun t => { t with strNext := t.strNext + k })
  streamCount 0 (streamWrite d s)

/-- Tick boundaries since the next record to stream was appended. -/
def streamAge (s : State) : Nat := (s.trace.strWaited.drop (s.trace.strNext - s.trace.strSent)).headD 0

/-- STREAM_BATCH_WRITE (R465): a full line of four records, or a partial line that has waited BATCH_TICKS. -/
def execStreamBatchWrite (s : State) : Res :=
  .next (
    if !s.on .TR_STREAM_ON || s.on .TR_STREAM_PAUSED || streamBlocked s then pauseStream s
    else
      let s := streamGap s
      let n := s.rd .TR_NEXT - s.trace.strNext
      let line := 4 - s.trace.strWritten % 4
      when (decide (0 < n) && (decide (line ≤ n) || decide (max 1 s.trace.strBatch ≤ streamAge s))) (streamLine n) s)

/-- The stream goes on behind the last producer count that has left: of the batches that were waiting when it paused, none counts
as written (R466; DEDUCED, log entry 80). -/
def streamBack (s : State) : State :=
  let s := s.filterHostQ (fun r => match r.src with | .stream _ => false | _ => true)
  (s.wr .TR_STREAM_CNT s.trace.strDone).modTrace (fun t => { t with strNext := t.strSent, strWritten := t.strDone })

/-- STREAM_RESUME (R466). -/
def execStreamResume (s : State) : Res :=
  .next (when (s.on .TR_STREAM_ON && s.on .TR_STREAM_PAUSED && !streamBlocked s)
    (fun s => streamGap (streamBack (s.wr .TR_STREAM_PAUSED 0))) s)

/-- The stream starts at TR_NEXT (R465). -/
def streamStart (p : StreamParams) (s : State) : State :=
  let s := (s.wr .TR_STREAM_ON 1).wr .TR_STREAM_HL p.hl
  let s := s.modTrace (fun t => { t with
    strSize := p.sizeLog2, strBatch := p.batchTicks, strBase := p.base, strProd := p.prodAddr
    strNext := s.rd .TR_NEXT, strSent := s.rd .TR_NEXT, strWaited := [], strWritten := 0, strDone := 0 })
  pauseStream s

/-- The stream stops: records that are ready are written, then the producer count (R465). -/
def streamStop (s : State) : State :=
  let s := if s.on .TR_STREAM_ON && !s.on .TR_STREAM_PAUSED && !streamBlocked s then
      let s := streamGap s
      let n := s.rd .TR_NEXT - s.trace.strNext
      if n = 0 then streamCount 0 s
      else each (List.range ((n + 3) / 4 + 1)) (fun _ s => when (decide (s.trace.strNext < s.rd .TR_NEXT))
        (fun s => streamLine (s.rd .TR_NEXT - s.trace.strNext) s) s) s
    else s
  ((s.wr .TR_STREAM_ON 0).wr .TR_STREAM_PAUSED 0).modTrace (fun t => { t with strWaited := [] })

/-- TRACE_STREAM's parameters (R464). -/
def streamParamsOk (p : StreamParams) : Bool :=
  decide (12 ≤ p.sizeLog2) && decide (p.sizeLog2 ≤ 30) && p.base % 2 ^ p.sizeLog2 == 0 && p.prodAddr % 8 == 0 &&
    !(decide (p.base ≤ p.prodAddr) && decide (p.prodAddr < p.base + 2 ^ p.sizeLog2)) && decide (p.enable < 2) &&
    decide (p.hl < 256)

/-- TRACE_STREAM (R464, R465): the state of HL is judged when a stream starts, not when one stops (DEDUCED, log entry 80). -/
def execTraceStream (r : CmdReq) (p : StreamParams) (s : State) : Res :=
  .next (runCmd
    { op := 0x0902, lenOk := r.plen == 24, priv := fun s => hasMgr s r.iss, params := fun _ => streamParamsOk p
      dark := fun s => !s.domOn dHub
      own := fun s => if p.enable == 1 && (s.on .TR_STREAM_ON || !s.present p.hl || !s.dlUp p.hl) then 9 else 0
      act := fun s => finish r 0x0902 0 [] (if p.enable = 1 then streamStart p s else streamStop s) } r s)

/-! ### JTAG -/

/-- A boundary-scan instruction that drives the pads is replaced, and the pads are released (R472). -/
def dropPads (s : State) : State :=
  when s.pins.padDrive.isSome (fun s => emit (.pads none) (s.modPins (fun p => { p with padDrive := none }))) s

/-- JTAG_TRACE_PTR (R471): Capture-DR loads TR_NEXT, Update-DR sets the read pointer.  While PD_HUB is not ON its signals are
clamped (Table PW-2), and Capture-DR loads zeros (DEDUCED, log entry 80). -/
def execJtagTracePtr (number : Nat) (s : State) : Res :=
  .next (emit (.jtag (le 8 (if s.domOn dHub then s.rd .TR_NEXT else 0)))
    ((dropPads s).modTrace (fun t => { t with jtagPtr := number % 2 ^ 64 })))

/-- JTAG_TRACE_DATA (R471): the record at the pointer, zeros when it is not held, and the pointer advances. -/
def execJtagTraceData (s : State) : Res :=
  let d := match heldRec s s.trace.jtagPtr with
    | some r => r.bytes
    | none => zeros 16
  .next (emit (.jtag d) ((dropPads s).modTrace (fun t => { t with jtagPtr := (t.jtagPtr + 1) % 2 ^ 64 })))

/-- JTAG_IDCODE (R471): 0xB809_656F. -/
def execJtagIdcode (s : State) : Res := .next (emit (.jtag (le 4 0xB809656F)) (dropPads s))

/-- JTAG_SAMPLE_PRELOAD (R471): the pins are captured and nothing is driven. -/
def execJtagSamplePreload (pins : Bytes) (s : State) : Res := .next (emit (.jtag pins) (dropPads s))

/-- JTAG_PAD_DRIVE (R472): effective only while RESET_N is low; otherwise the instruction acts as BYPASS. -/
def execJtagPadDrive (instr : PadInstr) (s : State) : Res :=
  .next (when s.pins.resetLow (fun s => emit (.pads (some instr)) (s.modPins (fun p => { p with padDrive := some instr }))) s)

end Sys2Proof.Machine
end

