-- ==== Sys2Proof/Machine/Links.lean ====
section
/-!
DEFINITION. Packets on the Weaseif links as the transaction layer sees them (chapter 9): credits, requests of local
designs and their answers, and what makes a link or a destination available.
-/
namespace Sys2Proof.Machine

/-! ### Packets and credits (R191, R216) -/

/-- The credit class of a packet type (Table WT-1): 0 posted, 1 non-posted, 2 completion, 3 none. -/
def creditClass (typ : Nat) : Nat :=
  match typ with
  | 1 | 7 | 8 => 0
  | 2 | 6 => 1
  | 3 | 4 | 5 => 2
  | _ => 3

/-- The payload length P of a packet (Table WT-1). -/
def payloadLen (p : Pkt) : Nat :=
  match p.typ with
  | 1 | 4 | 6 | 8 => p.len
  | _ => 0

/-- Credits that a payload of `n` bytes costs. -/
def costOf (n : Nat) : Nat := (16 + n + 31) / 32

/-- Credits a packet costs. -/
def pktCost (p : Pkt) : Nat := costOf (payloadLen p)

/-- Add to a running total of a class, modulo 4,096. -/
def bump (l : List Nat) (i n : Nat) : List Nat := l.set i ((l.getD i 0 + n) % 4096)

/-- The TAG that stands for a packet of a link that has started fresh since: no answer and no credit (R205). -/
def freshTag : Nat := 4097

/-- Credits of a packet that has left the receive buffer are released (R192). -/
def releaseCredit (n cls cost : Nat) (s : State) : State :=
  when (decide (cls < 3) && decide (n < 96)) (fun s => s.modWl n (fun w => { w with freed := bump w.freed cls cost })) s

/-- A packet of a local design is taken from the receive buffer to be acted on.  One that no grain has delivered is taken
as delivered with the command. -/
def takePacket (n : Nat) (p : Pkt) (s : State) : State :=
  let s := (s.inc .CT_WL_RX_PKT n).add .CT_WL_RX_BYTES (payloadLen p) n
  match (s.wl n).rxQ.find? (fun x => decide (x.pkt = p)) with
  | some x => s.modWl n (fun w => { w with rxQ := w.rxQ.erase x, arrived := x.first })
  | none => s.modWl n (fun w => { w with taken := bump w.taken (creditClass p.typ) (pktCost p), arrived := phaseNow s })

/-- The TAGs at and above this one are those of requests of a link's former life, whose answers were accepted in it (R205). -/
def formerTag : Nat := 8192

/-- A packet's credits are released. -/
def releasePkt (n : Nat) (p : Pkt) (s : State) : State :=
  when (p.tag != freshTag && decide (p.tag < formerTag)) (releaseCredit n (creditClass p.typ) (pktCost p)) s

/-- A packet as its row acts on it: a request that was accepted before its link started fresh is acted on for nobody, and an answer
for the request of that time (R205). -/
def actedOn (s : State) (n : Nat) (p : Pkt) : Pkt :=
  match (s.wl n).rxQ.find? (fun x => decide (x.pkt = p)) with
  | some x =>
    if !x.old then p
    else if creditClass p.typ = 2 then { p with tag := formerTag + p.tag }
    else { p with tag := freshTag, ackReq := false }
  | none => p

/-- A packet accepted and not yet acted on answers the request with a TAG. -/
def answersTo (tag : Nat) (x : RxPkt) : Bool :=
  creditClass x.pkt.typ == 2 && (if x.old then formerTag + x.pkt.tag else x.pkt.tag) == tag

/-- A packet with every field 0. -/
def pktZero : Pkt :=
  { typ := 0, lane := 0, ackReq := false, ro := false, sub := 0, len := 0, tag := 0, status := 0, cause := 0, addr := 0,
    byteCount := 0, lowerAddr := 0, num := 0, value := 0, payload := [] }

/-! ### Answers to local designs (R225, R230) -/

/-- The STATUS shown against each CAUSE (Table WT-5). -/
def statusOf (cause : Nat) : Nat :=
  match cause with
  | 0 => 0
  | 9 => 2
  | 10 => 3
  | _ => 1

/-- A response of the bridge waits to be sent on the lane of its request (R222). -/
def respond (n lane tag typ cause : Nat) (s : State) : State :=
  when (tag != freshTag) (enqueueLink n ⟨{ pktZero with typ := typ, lane := lane, tag := tag, status := statusOf cause, cause := cause },
    .response, 256, 0, 0⟩) s

/-- A request of a local design gets its final WRSP or CPL. -/
def answerLoc (q : LocReq) (cause : Nat) (s : State) : State :=
  respond q.wl q.lane q.tag (if q.typ = 1 then 5 else 3) cause { s with locReqs := s.locReqs.erase q }

/-- Every request of a local design that `p` picks gets its final answer. -/
def answerLocs (p : LocReq → Bool) (cause : Nat) (s : State) : State :=
  each (s.locReqs.filter p) (fun q => answerLoc q cause) s

/-- The open request with a TAG on a link. -/
def locReq (s : State) (n tag : Nat) : Option LocReq := s.locReqs.find? (fun q => q.wl == n && q.tag == tag)

/-- Change the open request with a TAG on a link. -/
def modLoc (n tag : Nat) (g : LocReq → LocReq) (s : State) : State :=
  { s with locReqs := s.locReqs.map (fun q => if q.wl = n ∧ q.tag = tag then g q else q) }

/-- A TAG is outstanding: its request is open, or its final response has not yet been sent (R224). -/
def tagOpen (s : State) (n tag : Nat) : Bool :=
  (locReq s n tag).isSome ||
    (s.wl n).linkQ.any (fun p => p.src == .response && p.pkt.tag == tag &&
      (p.pkt.typ != 4 || p.pkt.byteCount == p.pkt.len))

/-- The data bytes at the front of a request's answered parts that can be returned now, in ascending order (R226). -/
def gather (parts : List (Nat × Bytes)) : Nat → Nat → Bytes
  | 0, _ => []
  | k + 1, off =>
    match parts.find? (fun e => e.1 == off && !e.2.isEmpty) with
    | some e => e.2 ++ gather parts k (off + e.2.length)
    | none => []

/-- Length of the next CPLD of a request whose next byte lies at `a` with `have_` bytes at hand of `rem` owed: at most
512, and ending at a 64-byte-aligned address unless it is the last. -/
def cpldLen (a have_ rem : Nat) : Nat :=
  let n := min have_ 512
  if n = rem then n else (a + n) / 64 * 64 - a

/-- Send the CPLDs that the data at hand allows; the last ends the request.  `k` bounds their number. -/
def sendCplds (n tag : Nat) : Nat → State → State
  | 0, s => s
  | k + 1, s =>
    match locReq s n tag with
    | none => s
    | some q =>
      let data := gather q.done (q.done.length + 1) q.returned
      let rem := q.len - q.returned
      let m := cpldLen (q.addr + q.returned) data.length rem
      if m = 0 then s
      else
        let p : Pkt := { pktZero with
          typ := 4, lane := q.lane, tag := tag, len := m, byteCount := rem, lowerAddr := (q.addr + q.returned) % 4096
          payload := data.take m }
        let s := enqueueLink n ⟨p, .response, 256, 0, 0⟩ s
        if m = rem then { s with locReqs := s.locReqs.erase q }
        else
          sendCplds n tag k (modLoc n tag (fun q => { q with
            returned := q.returned + m
            done := (q.returned + m, data.drop m) :: q.done.filter (fun e => decide (q.returned + data.length ≤ e.1)) }) s)

/-- Read data of a request arrives from the host. -/
def locData (n tag off : Nat) (d : Bytes) (s : State) : State :=
  sendCplds n tag 65 (modLoc n tag (fun q => { q with done := q.done ++ [(off, d)] }) s)

/-! ### Availability (R16, R62, R204, R205) -/

/-- A tiller is in reset, or its logic is not ON, which requests into it meet in the same way (R422). -/
def tlReset (s : State) (t : Nat) : Bool := !s.tlOn t

/-- A Weaseif link takes requests: it is UP, retraining, or held within GRACE (R204). -/
def linkUsable (s : State) (n : Nat) : Bool :=
  let l := s.rd .WL_LSTATE n
  s.tlOn (wlTiller n) && s.domOn (dWphy (wlTiller n)) &&
    (l == 2 || l == 3 || l == 4 || (l == 1 && s.on .WL_GRACE_RUN n))

/-- The halt code of a DMA request to a link that takes none: TARGET_RESET or LINK_DOWN (Table DM-6). -/
def linkCode (s : State) (n : Nat) : Nat := if tlReset s (wlTiller n) then 0x0A else 0x09

/-- The Weaseif link of a tenant's permission bitmap (R101). -/
def permits (s : State) (tn n : Nat) : Bool :=
  s.bit (n % 32) (if n < 32 then .TN_PERMIT0 else if n < 64 then .TN_PERMIT1 else .TN_PERMIT2) tn

/-- A link is not halted, and its tiller runs: a packet that it received is acted on (R237). -/
def linkTakes (s : State) (n : Nat) : Bool := s.tlOn (wlTiller n) && !s.react && s.rd .WL_LSTATE n != 6

/-- Bytes cross the Hub from a tiller to another (R13).  They cross as soon as their source passes them on, so none waits at a
tiller's Hub port for the choice of R283 (DESIGN CHOICE, log entry 94). -/
def hubCross (src dst n : Nat) (s : State) : State :=
  if src = dst then s else (s.add .CT_TL_HUB_TX_BYTES n src).add .CT_TL_HUB_RX_BYTES n dst

/-! ### Packets not accepted (Table WT-8) -/

/-- A malformed packet: counted, CORR fault naming the link, credits released, and answered when it asks for it. -/
def malformed (n : Nat) (p : Pkt) (s : State) : State :=
  let s := releasePkt n p (s.inc .CT_WL_MALFORMED n)
  let s := wardDetail (wlTiller n) 11 (mWl n) (if p.typ = 1 then 7 else 6) 11 p.addr s
  if p.typ = 1 && p.ackReq then respond n p.lane p.tag 5 11 s
  else if p.typ = 2 || p.typ = 6 then respond n p.lane p.tag 3 11 s
  else s

/-- A request whose TAG is outstanding: discarded without response. -/
def malformedTag (n : Nat) (p : Pkt) (s : State) : State :=
  wardDetail (wlTiller n) 11 (mWl n) (if p.typ = 1 then 7 else 6) 11 p.addr (releasePkt n p (s.inc .CT_WL_MALFORMED n))

/-- An outbound packet that no window translates (Table WN-2 row 1): `cause` is 1 to 3, or 0 for an interrupt MSG. -/
def windowMiss (n : Nat) (p : Pkt) (cause : Nat) (s : State) : State :=
  let s := releasePkt n p (s.inc .CT_WL_WIN_MISS n)
  let s := wardDetail (wlTiller n) 9 (mWl n) (if p.typ = 1 || p.typ = 7 then 7 else 6) cause p.addr s
  if p.typ = 1 && p.ackReq then respond n p.lane p.tag 5 cause s
  else if p.typ = 2 || p.typ = 6 then respond n p.lane p.tag 3 cause s
  else s

/-- An outbound packet whose destination cannot take it (Table WN-2 rows 2 to 4). -/
def destRefuses (n : Nat) (p : Pkt) (hl cause : Nat) (s : State) : State :=
  let s := releasePkt n p (s.inc .HL_DROP_CNT hl)
  if p.typ = 1 && p.ackReq then respond n p.lane p.tag 5 cause s
  else if p.typ = 2 || p.typ = 6 then respond n p.lane p.tag 3 cause s
  else s

/-- A packet of a local design is acted on by its row when its TYPE is one of the row's; one of reserved TYPE is
malformed (Table WT-8). -/
def localPacket (n : Nat) (p : Pkt) (types : List Nat) (k : Pkt → State → State) (s : State) : State :=
  if !linkTakes s n then s
  else if types.contains p.typ then k (actedOn s n p) (takePacket n p s)
  else if p.typ = 0 || 9 ≤ p.typ then malformed n (actedOn s n p) (takePacket n p s)
  else s

end Sys2Proof.Machine
end

