-- ==== Sys2Proof/Machine/Sheaves.lean ====
section
/-!
DEFINITION. Windows as the datapath sees them (R98 to R113) and sheaves (R114 to R121).
-/
namespace Sys2Proof.Machine

/-! ### Entries -/

/-- LOCAL_BASE of an outbound entry. -/
def owBase (s : State) (i : Nat) : Nat := s.rd .OW_LOCAL_BASE_LO i * 4096 + s.rd .OW_LOCAL_BASE_HI i * 2 ^ 32
/-- SIZE of an outbound entry. -/
def owSize (s : State) (i : Nat) : Nat := s.rd .OW_SIZE_LO i * 4096 + s.rd .OW_SIZE_HI i * 2 ^ 32
/-- HOST_BASE of an outbound entry. -/
def owHost (s : State) (i : Nat) : Nat := s.rd .OW_HOST_BASE_LO i * 4096 + s.rd .OW_HOST_BASE_HI i * 2 ^ 32
/-- BAR_OFFSET of an inbound entry. -/
def iwOff (s : State) (i : Nat) : Nat := s.rd .IW_BAR_OFFSET_LO i * 4096 + s.rd .IW_BAR_OFFSET_HI i * 2 ^ 32
/-- SIZE of an inbound entry. -/
def iwSize (s : State) (i : Nat) : Nat := s.rd .IW_SIZE_LO i * 4096 + s.rd .IW_SIZE_HI i * 2 ^ 32
/-- LOCAL_BASE of an inbound entry. -/
def iwBase (s : State) (i : Nat) : Nat := s.rd .IW_LOCAL_BASE_LO i * 4096 + s.rd .IW_LOCAL_BASE_HI i * 2 ^ 32

/-- Entries of a tiller, `per` to a tiller. -/
def tillerEntries (t per : Nat) : List Nat := (List.range per).map (fun k => t * per + k)

/-- The destination of an outbound entry: its function and tenant, 256 for a PF. -/
def owDest (s : State) (i : Nat) : Nat × Nat :=
  if s.on .OW_TO_PF i then (pfIdx (s.rd .OW_PF_HL i), 256) else (s.tnFn (s.rd .OW_TNID i), s.rd .OW_TNID i)

/-- A tenant whose windows act as disabled: BROKEN (R291), or not there. -/
def tnDead (s : State) (tn : Nat) : Bool :=
  decide (tn < 256) && (s.tnState tn == 4 || s.tnState tn == 0 || s.tnState tn == 5)

/-- The outbound entry of WLn that holds local address `a` (R100), if it acts (R291, R353): a sheaf serves the one entry that its WINDOW
names (R114). -/
def findOut (s : State) (n a : Nat) : Option Nat :=
  (tillerEntries (wlTiller n) 256).find? (fun i =>
    s.rd .OW_LINK i == n && owSize s i != 0 && decide (owBase s i ≤ a) && decide (a < owBase s i + owSize s i) &&
      (if s.on .OW_SHEAF i then s.on .SH_MODE (s.rd .OW_TNID i) && s.rd .SH_WINDOW (s.rd .OW_TNID i) == i else !tnDead s (owDest s i).2))

/-- The inbound entry of function `f` that holds BAR2 offset `x` (R105), if it acts (R291). -/
def findIn (s : State) (f x : Nat) : Option Nat :=
  (tillerEntries (hlTiller (fnHl f)) 128).find? (fun i =>
    s.rd .IW_HL i == fnHl f && s.rd .IW_FUNC i == fnVf f && iwSize s i != 0 && decide (iwOff s i ≤ x) &&
      decide (x < iwOff s i + iwSize s i))

/-- The interrupt entry of WLn that maps message `m` (R122), if it acts (R291). -/
def findInt (s : State) (n m : Nat) : Option Nat :=
  (tillerEntries (wlTiller n) 128).find? (fun i =>
    s.rd .NW_LINK i == n && decide (s.rd .NW_MSG_BASE i ≤ m) && decide (m < s.rd .NW_MSG_BASE i + s.rd .NW_COUNT i))

/-! ### Deadlines (R112, R113, R37) -/

/-- The deadline of a packet of class 3 entry `i` whose first grain was received at instant `at_`, in phase units, and whether
it was late on arrival (R112). -/
def deadlineOf (s : State) (at_ i : Nat) : Nat × Bool :=
  let p := at_ % 65536
  let o := s.rd .OW_OPEN i
  let d := s.rd .OW_DEADLINE i
  if o != d && decide ((d + 65536 - o) % 65536 ≤ (p + 65536 - o) % 65536) then (0, true)
  else
    let e := at_ / 65536 * 65536 + d
    (if at_ < e then e else e + 65536, false)

/-- A slip has passed the deadline of a packet that had been received before it (R37). -/
def jumped (s : State) (at_ dl : Nat) : Bool :=
  s.cad.jumps.any (fun j => decide (at_ ≤ j.1) && decide (j.1 ≤ dl) && decide (dl < j.2))

/-- A request gets the class and the deadline of its window (R109, R112), none where a slip has passed it; a late arrival is
traced. -/
def classed (i d : Nat) (r : HReq) (s : State) : HReq × State :=
  let c := s.rd .OW_CLASS i
  if c = 3 then
    let at_ := (s.wl (s.rd .OW_LINK i)).arrived
    let (dl, late) := deadlineOf s at_ i
    ({ r with cls := 3, deadline := if jumped s at_ dl then 0 else dl, late := late },
     when late (traceFn (fnIdx r.fn) 0x0402 (i + d * 2048)) s)
  else ({ r with cls := c }, s)

/-- The last TLP of a cadence-class packet has entered the transmit order: late when its deadline has passed, or when it
was late on arrival (R113).  `count` adds to the late counter of its window or destination. -/
def lateCheck (r : HReq) (win d : Nat) (count : State → State) (s : State) : State :=
  let missed := r.deadline != 0 && decide (r.deadline < phaseNow s)
  if r.cls = 3 && (r.late || missed) then
    let s := count s
    let s := when (decide (r.tn < 256)) (fun s => s.inc .TN_LATE_CNT r.tn) s
    let s := when (!r.late) (traceFn (fnIdx r.fn) 0x0401 (win + d * 2048 + sat 16 (phaseNow s - r.deadline) * 65536)) s
    raiseCause (fnIdx r.fn) .deadlineMiss s
  else s

/-! ### Submitting requests of local designs -/

/-- A translated request waits for its link's transmit order.  One for a frozen tenant is held there, and with it whatever
follows in its order lane to the same host link (Table MG-4, R111, R123). -/
def submitLocal (r : HReq) (s : State) : State :=
  let s := enqueueHost { r with frozen := decide (r.tn < 256) && s.tnState r.tn == 3 } s
  if r.tn < 256 then showHeld r.tn s else s

/-! ### Sheaf state -/

/-- Show which destinations the oldest held packet of a sheaf waits for. -/
def showSheaf (i : Nat) (s : State) : State :=
  let w := match s.sheafPkts.find? (fun p => p.sheaf == i) with
    | some p => ((List.range 8).filter (fun d => p.copies.getD d .none == .waiting)).foldl setBit 0
    | none => 0
  s.wr .SH_WAITING w i

/-- A copy of a held packet ends. -/
def setCopy (id d : Nat) (c : CopyS) (s : State) : State :=
  { s with sheafPkts := s.sheafPkts.map (fun p => if p.id = id then { p with copies := p.copies.set d c } else p) }

/-- The gap record of a destination's episode (Table WN-3). An end below the first byte has no stated SPAN: it is free. -/
def gapBytes (x : DestS) (win d seq span : Nat) : Bytes :=
  le 4 seq ++ le 2 (win + d * 2048) ++ le 2 x.era ++ le 4 x.epochFirst ++ le 4 x.epochLast ++ le 8 x.offset ++
    le 4 (sat 32 span) ++ le 4 (sat 32 x.dropped)

/-- The next record number: it skips 0 on wrap. -/
def nextSeq (n : Nat) : Nat := if (n + 1) % 2 ^ 32 = 0 then 1 else n + 1

/-- One gap record is queued on a destination's path (R118), or the episode is only counted with GAP_EN 0. -/
def queueGap (i d wl lane : Nat) (s : State) : State :=
  let x := s.dest i d
  let (f, tn) := shDest s i d
  let win := s.rd .SH_WINDOW i
  if s.on .SH_GAP_EN i d then
    let put (span : Nat) (s : State) : State :=
      let seq := nextSeq x.gapSeq
      let base := s.rd .SH_GAP_BASE_LO i d * 64 + s.rd .SH_GAP_BASE_HI i d * 2 ^ 32
      let slots := 2 ^ (s.rd .SH_GAP_SIZE i d + 4)
      let slot := x.gapSlot % slots
      let s := s.modDest i d (fun x => { x with
        gapSeq := seq
        gapSlot := (slot + 1) % slots
        first := false
        owed := false
        dropped := 0 })
      let s := enqueueHost (hreq s f .write (base + 32 * slot) 32 (gapBytes x win d seq span) (.gap i d wl lane) tn) s
      traceFn f 0x0502 (seq % 65536) s
    if x.endOff < x.offset then draw s put else put (x.endOff - x.offset) s
  else
    traceFn f 0x0502 0 (s.modDest i d (fun x => { x with first := false, owed := false, dropped := 0 }))

/-- The last `n` bytes of a copy for a LAGGING destination are discarded, all of it or what has not left yet: counted and described
in its episode (R117, R119). -/
def noteDiscard (i d : Nat) (p : SheafPkt) (n : Nat) (s : State) : State :=
  (s.inc .CT_SD_LAG i d).modDest i d (fun x =>
    let x := if x.first then x else
      { x with first := true, era := p.era, epochFirst := p.epoch, offset := p.offset + (p.pkt.len - n), dropped := 0 }
    { x with epochLast := p.epoch, endOff := p.offset + p.pkt.len, dropped := x.dropped + n })

/-- The accepted copies of a lane of a sheaf that a flush covers now; those that no host link can deliver are forgotten
(R120). -/
def coverAccepted (lane sheaf : Nat) (cause : SheafAcc → Nat) (s : State) : State :=
  { s with sheafAcc := s.sheafAcc.filterMap (fun a =>
    if a.sheaf = sheaf ∧ a.lane = lane then (if cause a = 0 then some { a with newer := false } else none) else some a) }

/-- Issue the flush reads of a lane's sheaf flush: one for each host link that took a copy since the last one (R120), whether
or not the tenant whose Requester ID it carries is frozen (DEDUCED, log entry 54).  A link whose function can take no
request fails the flush as it fails an MRD, and counts it (Table WN-2), and the others are read all the same. -/
def startFlush (q : LocReq) (sheaf : Nat) (s : State) : State :=
  let mine := s.sheafAcc.filter (fun a => a.sheaf == sheaf && a.lane == q.lane)
  let cause (a : SheafAcc) : Nat := undeliverable s (fnIdx a.fn)
  let good := mine.filter (fun a => cause a == 0)
  let bad := ((mine.map cause).find? (· != 0)).getD 0
  let s := each (mine.filter (fun a => cause a != 0)) (fun a s => s.inc .HL_DROP_CNT a.fn.hl.val) s
  let s := coverAccepted q.lane sheaf cause s
  if good.isEmpty then answerLoc q bad s
  else
    let s := modLoc q.wl q.tag (fun q => { q with parts := good.length, sentParts := 0, cause := bad }) s
    each good (fun a s =>
      enqueueHost (hreq s (fnIdx a.fn) .flush (a.lastByte / 4 * 4) 0 [] (.sheafFlush sheaf q.wl q.lane q.tag) a.tn) s) s

/-- A sheaf flush may start: no copy of an earlier packet of its lane is still held. -/
def flushReady (s : State) (q : LocReq) : Bool :=
  q.typ == 2 && q.hl == 32 && q.parts == 0 &&
    s.sheafPkts.all (fun p => !(p.sheaf == q.returned && p.wl == q.wl && p.pkt.lane == q.lane && decide (p.id < q.sentParts)))

/-- Held packets that every destination has accepted or discarded are released (R116, R120), and the sheaf flushes that
waited for them start. -/
def settleSheaves (s : State) : State :=
  let isDone (p : SheafPkt) : Bool := p.copies.all (fun c => c != .waiting)
  let fin := s.sheafPkts.filter isDone
  let s : State := { s with sheafPkts := s.sheafPkts.filter (fun p => !isDone p) }
  let s := each fin (fun p s =>
    let s := releasePkt p.wl p.pkt s
    let s := when p.pkt.ackReq (fun s =>
      withSome (locReq s p.wl p.pkt.tag) (fun q s =>
        when (q.typ == 1) (answerLoc q (if p.copies.contains .accepted then 0 else 13)) s) s) s
    showSheaf p.sheaf s) s
  each (s.locReqs.filter (flushReady s)) (fun q s => startFlush q q.returned s) s

/-- The sheaf and destination of a copy. -/
def copyOf (s : State) (id : Nat) : Option SheafPkt := s.sheafPkts.find? (fun p => p.id == id)

/-- The last TLP of a destination's copy has entered its link's transmit order (R116, R117, R120). -/
def copyAccepted (r : HReq) (id d : Nat) (s : State) : State :=
  match copyOf s id with
  | none => s
  | some p =>
    let now := isDest s p d r
    let s := lateCheck r p.win d (fun s => when now (fun s => s.inc .CT_SD_LATE p.sheaf d) s) s
    let oldest := (s.sheafPkts.find? (fun q => q.sheaf == p.sheaf)).any (fun q => q.id == id)
    let s := when now (fun s => when oldest (fun s => s.wr .SH_SD_LAG 0 p.sheaf d) (s.inc .CT_SD_DELIVERED p.sheaf d)) s
    let acc : SheafAcc := ⟨p.sheaf, p.pkt.lane, r.fn, r.tn, r.addr + r.len - 1, true⟩
    let s : State := { s with sheafAcc := s.sheafAcc.filter (fun a =>
      !(a.sheaf == p.sheaf && a.lane == p.pkt.lane && decide (a.fn.hl = r.fn.hl))) ++ [acc] }
    showSheaf p.sheaf (settleSheaves (setCopy id d .accepted s))

/-- A destination's copy is discarded because the destination is excused: counted, and described in no record (R115). -/
def copyDropped (id d : Nat) (s : State) : State :=
  match copyOf s id with
  | none => s
  | some p => showSheaf p.sheaf (settleSheaves (setCopy id d .discarded (s.inc .CT_SD_LAG p.sheaf d)))

/-- Destinations that have become excused are shown so; one stops being excused at the next packet (R115). -/
def showExcused (s : State) : State :=
  let on := s.regs.filterMap (fun e => if e.1.f = .SH_MODE ∧ e.2 ≠ 0 then some e.1.i else none)
  each on (fun i s => each (List.range (s.rd .SH_DEST_COUNT i)) (fun d s =>
    when (isExcused s i d) (fun s => s.setB d .SH_EXCUSED i) s) s) s

/-- A flush read of a sheaf flush ends: the copies it covered need no further flush, and the MRD is completed after the
last (R120). -/
def sheafFlushDone (sheaf n lane tag cause : Nat) (fn : Fn) (s : State) : State :=
  let s : State := { s with sheafAcc := s.sheafAcc.filter (fun a =>
    !(a.sheaf == sheaf && a.lane == lane && decide (a.fn.hl = fn.hl) && !a.newer)) }
  match locReq s n tag with
  | none => s
  | some q =>
    let c := if q.cause = 0 then cause else q.cause
    if q.parts ≤ 1 then answerLoc q c s
    else modLoc n tag (fun q => { q with parts := q.parts - 1, cause := c }) s

/-! ### A packet enters a sheaf -/

/-- What one destination does with an arriving packet (R115 to R118).  One whose tenant does not permit the link (R101) has its
copy discarded and counted in its lag counter (DESIGN CHOICE, log entry 52). -/
def copyFor (i d win : Nat) (p : SheafPkt) (s : State) : State :=
  let (f, tn) := shDest s i d
  let put (s : State) : State :=
    let r := { hreq s f .write (s.rd .SH_HOST_BASE_LO i d * 4096 + s.rd .SH_HOST_BASE_HI i d * 2 ^ 32 + p.offset) p.pkt.len
                 p.pkt.payload (.sheafCopy p.id d p.wl p.pkt.lane) tn with
               charge := if tn < 256 then p.pkt.len else 0
               ro := p.pkt.ro && s.on .OW_RO_OK win && (s.cf f).roEn
               ido := s.on .OW_IDO_OK win && (s.cf f).idoEn }
    let (r, s) := classed win d r s
    setCopy p.id d .waiting (enqueueHost r s)
  if isExcused s i d || (decide (tn < 256) && !permits s tn p.wl) then setCopy p.id d .discarded (when (isExcused s i d) (fun s => s.setB d .SH_EXCUSED i) (s.inc .CT_SD_LAG i d))
  else
    let s := s.clrB d .SH_EXCUSED i
    if s.bit d .SH_LAGGING i then
      let waits := s.hostQ.any (fun r => match r.src with
        | .sheafCopy id d' _ _ => d' == d && (copyOf s id).any (fun q => q.sheaf == i)
        | .gap i' d' _ _ => i' == i && d' == d
        | _ => false)
      -- whether the host link has flow-control credit for the first TLP is the host's affair: an open choice
      choose s (fun credit s =>
        if !waits && credit then put (queueGap i d p.wl p.pkt.lane (s.clrB d .SH_LAGGING i))
        else setCopy p.id d .discarded (noteDiscard i d p p.pkt.len s))
    else put (when (s.dest i d).owed (queueGap i d p.wl p.pkt.lane) s)

/-- The tillers that take a copy of a held packet. -/
def copyTillers (s : State) (i id : Nat) : List Nat :=
  match copyOf s id with
  | some p => (((List.range 8).filter (fun d => p.copies.getD d .none == .waiting)).map
      (fun d => hlTiller (fnHl (shDest s i d).1))).dedup
  | none => []

/-- A packet enters a sheaf: it is held once, copied for each destination, and crosses the Hub once to each tiller that takes a
copy (R13, R114 to R118). -/
def enterSheaf (i win n : Nat) (p : Pkt) (s : State) : State :=
  let s : State := { s with pktCount := s.pktCount + 1 }
  let id := s.pktCount
  let e := (s.wl n).arrived / 2 ^ 16
  let x : SheafPkt := ⟨id, i, p, n, p.addr - owBase s win, e / 2 ^ 32, e % 2 ^ 32, List.replicate 8 .none, win⟩
  let s : State := { s with sheafPkts := s.sheafPkts ++ [x] }
  let s := each (List.range (s.rd .SH_DEST_COUNT i)) (fun d s => copyFor i d win x s) s
  let s := each (copyTillers s i id) (fun t => hubCross (wlTiller n) t p.len) s
  showSheaf i (settleSheaves s)

/-- SHEAF_LAG_EXCEEDED (R117): in LEAD mode, the lag of a destination that holds up the oldest packet, which another
destination has accepted, exceeds its budget.  SD_LAG then reads more than the budget; by how much is open. -/
def execSheafLagExceeded (sheaf : Fin 256) (d : Fin 8) (s : State) : Res :=
  let i := sheaf.val
  let k := d.val
  .next (
    match s.sheafPkts.find? (fun p => p.sheaf == i) with
    | none => s
    | some p =>
      if !holdsUp s p k then s
      else
        let budget := (s.rd .SH_LAG_BUDGET i k + 1) * 1024
        let (f, _) := shDest s i k
        let s := advance s
        draw s (fun v s =>
          let s := s.wr .SH_SD_LAG (sat 32 (budget + 1 + v)) i k
          let s := (s.setB k .SH_LAGGING i).inc .CT_SD_EPISODES i k
          let held := (s.sheafPkts.filter (fun q => q.sheaf == i)).filterMap (fun q => (copyWaits s q k).map (fun r => (q, r)))
          let s := s.filterHostQ (fun r => !held.any (fun x => x.2 == r))
          let s := each held (fun x s => setCopy x.1.id k .discarded (noteDiscard i k x.1 x.2.len s)) s
          let s := traceFn f 0x0501 (s.rd .SH_WINDOW i + k * 2048) s
          showSheaf i (settleSheaves (raiseCause f .sheafLag s))))

end Sys2Proof.Machine
end

