-- ==== Sys2Proof/Machine/DirtyLog.lean ====
section
/-!
DEFINITION. Dirty logging (chapter 12): what is logged, the dirty filters of the tillers, and the write-back of their
lines.
-/
namespace Sys2Proof.Machine

/-- A bank is LOST. -/
def bankLost (s : State) (b : Nat) : Bool :=
  if b < 32 then s.bit b .PW_BANK_LOST_LO else s.bit (b - 32) .PW_BANK_LOST_HI

/-- The home tiller of a tenant. -/
def homeTiller (s : State) (tn : Nat) : Nat := hlTiller (s.rd .TN_HL tn)

/-- A host write is logged for this tenant (R294, R331): one issued with a VF's Requester ID, MSI-X messages excepted. -/
def logTenant (s : State) (r : HReq) : Option Nat :=
  if r.fn.vf.val = 0 then none
  else
    match r.kind, r.src with
    | _, .msix _ _ => none
    | .write, _ => s.boundTn (fnIdx r.fn)
    | .atomic _, _ => s.boundTn (fnIdx r.fn)
    | _, _ => none

/-- Host address of a bitmap. -/
def LogS.bitmap (l : LogS) (b : Nat) : Nat := if b = 0 then l.bitmapA else l.bitmapB

/-- A line and its bitmap as one number. -/
def lineKey (bitmap line : Nat) : Nat := bitmap * 2 ^ 32 + line

/-- The line is that of a key and tenant. -/
def DirtyLine.is (d : DirtyLine) (tn key : Nat) : Bool := d.tn == tn && lineKey d.bitmap d.line == key

/-- Add to the lines written and bits set of the round that a bitmap belongs to. -/
def roundCount (tn bitmap lines bits : Nat) (s : State) : State :=
  s.modLog tn (fun l =>
    let plain : LogS := { l with linesWritten := l.linesWritten + lines, pagesSet := l.pagesSet + bits }
    match l.harvest with
    | some h =>
      if h.harvested = bitmap then
        { l with harvest := some { h with linesWritten := h.linesWritten + lines, pagesSet := h.pagesSet + bits } }
      else plain
    | none => plain)

/-- LOG_HL takes bitmap accesses: DL_Up, and its PF masters requests (R299). -/
def logLinkOk (s : State) (l : LogS) : Bool := undeliverable s (pfIdx l.logHl) == 0

/-- A line leaves the filter, written back when it is modified (R298). -/
def dropLine (d : DirtyLine) (s : State) : State :=
  let s : State := { s with dirty := s.dirty.erase d }
  match s.log d.tn with
  | none => s
  | some l =>
    if !d.modified then s
    else if logLinkOk s l then
      roundCount d.tn d.bitmap 1 0
        (enqueueHost (hreq s (pfIdx l.logHl) .write (l.bitmap d.bitmap + 64 * d.line) 64 (le 64 d.bits)
          (.logWrite d.tn (lineKey d.bitmap d.line)) 256) s)
    else roundDirty d.tn d.bitmap s

/-- The lines of a tiller's filter. -/
def linesOf (s : State) (t : Nat) : List DirtyLine := s.dirty.filter (fun d => d.tiller == t)

/-- A page of the running round is marked dirty (R297). -/
def markPage (tn page : Nat) (s : State) : State :=
  match s.log tn with
  | none => s
  | some l =>
    let t := homeTiller s tn
    let key := lineKey l.active (page / 512)
    match s.dirty.find? (fun d => d.is tn key) with
    | some d =>
      let fresh := !d.bits.testBit (page % 512)
      let d' := { d with bits := setBit d.bits (page % 512), modified := d.modified || (fresh && !d.reading) }
      let s : State := { s with dirty := s.dirty.erase d ++ [d'] }
      when (fresh && !d.reading) (roundCount tn l.active 0 1) s
    | none =>
      if bankLost s (3 * t + 2) || !logLinkOk s l then roundDirty tn l.active s
      else
        let s := if (linesOf s t).length < 256 then s
          else withSome ((linesOf s t).find? (fun d => !d.reading)) dropLine s
        let s : State := { s with dirty := s.dirty ++ [⟨t, tn, l.active, page / 512, 2 ^ (page % 512), false, true⟩] }
        enqueueHost (hreq s (pfIdx l.logHl) .read (l.bitmap l.active + 64 * (page / 512)) 64 [] (.logRead tn key) 256) s

/-- A logged write waits for a line: every line of the filter has a read outstanding (R298). -/
def logStalled (s : State) (r : HReq) : Bool :=
  match logTenant s r with
  | none => false
  | some tn =>
    match s.log tn with
    | none => false
    | some l =>
      let t := homeTiller s tn
      !l.ending && decide (l.base ≤ r.addr) && decide (r.addr < l.base + l.pages * 4096) &&
        !s.dirty.any (fun d => d.is tn (lineKey l.active ((r.addr - l.base) / 4096 / 512))) &&
        decide (256 ≤ (linesOf s t).length) && (linesOf s t).all (·.reading)

/-- A host write enters its link's transmit order: it is logged when its address lies in the range, and counted when it
does not (R294). -/
def logWrite (r : HReq) (s : State) : State :=
  match logTenant s r with
  | none => s
  | some tn =>
    match s.log tn with
    | none => s
    | some l =>
      if l.ending then s else
      let s := s.modLog tn (fun l => { l with idoUsed := l.idoUsed || r.ido })
      if l.base ≤ r.addr ∧ r.addr < l.base + l.pages * 4096 then markPage tn ((r.addr - l.base) / 4096) s
      else (s.inc .CT_TN_LOG_OUT_RANGE tn).modLog tn (fun l => { l with outOfRange := l.outOfRange + 1 })

/-- The flush read behind a harvested bitmap's writes is issued once none of its lines is left (R301 step 4). -/
def harvestAdvance (tn : Nat) (s : State) : State :=
  match s.log tn with
  | none => s
  | some l =>
    match l.harvest with
    | none => s
    | some h =>
      if h.bitmapFlush || s.dirty.any (fun d => d.tn == tn && d.bitmap == h.harvested) then s
      else
        let put (a : Nat) (s : State) : State :=
          enqueueHost (hreq s (pfIdx l.logHl) .flush (a / 4 * 4) 0 [] (.harvestFlush tn true) 256) s
        let s := s.modLog tn (fun l => { l with harvest := some { h with bitmapFlush := true } })
        if logLinkOk s l then
          match l.lastBitmap with
          | some a => put a s
          | none => draw s (fun v s => put v s)
        else
          s.modLog tn (fun l => { l with harvest := some { h with
            bitmapFlush := true, allDirty := true, flushesLeft := h.flushesLeft - 1 } })

/-- Logging that is being turned off ends once the tenant's lines are written back: LOG_CONFIG is answered (R296). -/
def logEnd (tn : Nat) (s : State) : State :=
  match s.log tn with
  | none => s
  | some l =>
    if l.ending && l.harvest.isNone && !s.dirty.any (fun d => d.tn == tn) &&
        !s.hostQ.any (fun r => match r.src with | .logWrite t _ => t == tn | _ => false) then
      finishWaiting 0x0501 tn 0 [] ((s.setLog tn none).wr .TN_LOG_ON 0 tn)
    else s

/-- What follows any change of a tenant's filter lines. -/
def logSettle (tn : Nat) (s : State) : State := logEnd tn (harvestAdvance tn s)

/-- A bitmap line has been read: its bits are merged with those set meanwhile (R297).  A line of a harvested bitmap, or of
logging that is ending, is written back at once. -/
def lineRead (tn key : Nat) (data : Bytes) (s : State) : State :=
  match s.dirty.find? (fun d => d.is tn key && d.reading) with
  | none => s
  | some d =>
    let old := leNat data
    let new := d.bits ||| old
    let s := roundCount tn d.bitmap 0 (popCount new 512 - popCount old 512) s
    let d' := { d with bits := new, modified := true, reading := false }
    let s : State := { s with dirty := s.dirty.map (fun x => if x = d then d' else x) }
    let drop := match s.log tn with
      | some l => l.ending || l.active != d.bitmap
      | none => true
    logSettle tn (when drop (dropLine d') s)

/-- A bitmap access of the tenant failed or was discarded (R299). -/
def lineFailed (tn key : Nat) (s : State) : State :=
  let s := roundDirty tn (key / 2 ^ 32) s
  logSettle tn { s with dirty := s.dirty.filter (fun d => !(d.is tn key && d.reading)) }

/-- A flush read of a harvest ends; one that failed marks the round ALL_DIRTY (R301). -/
def harvestFlushDone (tn : Nat) (ok : Bool) (s : State) : State :=
  s.modLog tn (fun l => { l with harvest := l.harvest.map (fun h =>
    { h with flushesLeft := h.flushesLeft - 1, allDirty := h.allDirty || !ok }) })

end Sys2Proof.Machine
end

