-- ==== Sys2Proof/Machine/Dma.lean ====
section
/-!
DEFINITION. The DMA engine (chapter 10): fetching descriptors, moving their data one request at a time, completion in
chain order, run-ahead, errors, and the rows of the table that act on a channel.
-/
namespace Sys2Proof.Machine

/-! ### Descriptors -/

/-- The tenant of a channel. -/
def chTn (s : State) (c : Nat) : Nat := s.rd .CH_TNID c
/-- The VF of a channel. -/
def chFn (s : State) (c : Nat) : Nat := s.tnFn (chTn s c)
/-- A space byte names a local design (Table DM-4). -/
def isLocal (sp : Nat) : Bool := decide (0x80 ≤ sp) && decide (sp ≤ 0xDF)

/-- The descriptor that 64 bytes spell (Tables DM-1 and DM-2). -/
def parseDesc (id addr : Nat) (b : Bytes) : Desc where
  id := id
  addr := addr
  next := num b 0 8
  src := num b 8 8
  dst := num b 16 8
  len := num b 0x18 4
  ctrl := num b 0x1C 4
  srcSpace := num b 0x1D 1
  dstSpace := num b 0x1E 1
  status := num b 0x20 4
  issued := 0
  arrived := 0
  early := []
  writesOut := 0
  covered := false
  flushed := false
  peerMrd := 0
  retries := 0
  failed := 0
  noAhead := false

/-- A descriptor belongs to the bridge (R252). -/
def Desc.owned (d : Desc) : Bool := d.ctrl.testBit 0 && !d.status.testBit 0
/-- FENCE. -/
def Desc.fence (d : Desc) : Bool := d.ctrl.testBit 3
/-- The destination is local. -/
def Desc.toLocal (d : Desc) : Bool := isLocal d.dstSpace

/-- The check of a descriptor that becomes current (R250): 0 when it passes, or its halt code. -/
def descCheck (s : State) (c : Nat) (d : Desc) : Nat :=
  let okSpace (sp : Nat) : Bool := sp == 0 || isLocal sp
  let okLink (sp : Nat) : Bool := sp == 0 || permits s (chTn s c) (sp - 0x80)
  if d.next % 64 ≠ 0 then 7
  else if d.len = 0 then 0
  else if !okSpace d.srcSpace || !okSpace d.dstSpace || 2 ^ 64 < d.src + d.len || 2 ^ 64 < d.dst + d.len then 7
  else if !okLink d.srcSpace || !okLink d.dstSpace then 8
  else 0

/-- Change a descriptor of the chain or of run-ahead. -/
def modDesc (c id : Nat) (g : Desc → Desc) (s : State) : State :=
  let f (d : Desc) : Desc := if d.id = id then g d else d
  s.modCh c (fun x => { x with descs := x.descs.map f, ahead := x.ahead.map f })

/-- A descriptor of the chain. -/
def descOf (s : State) (c id : Nat) : Option Desc := (s.ch c).descs.find? (fun d => d.id == id)

/-- The descriptor that a host request of a channel moves data of. -/
def HSrc.desc : HSrc → Option Nat
  | .dmaRead _ d _ => some d
  | .dmaWrite _ d => some d
  | .readAhead _ d _ => some d
  | _ => none

/-- The descriptor that a local request of a channel moves data of. -/
def WSrc.desc : WSrc → Option Nat
  | .dmaRead _ d _ => some d
  | .dmaWrite _ d => some d
  | .peerMrd _ d => some d
  | _ => none

/-- Waiting requests of some of a channel's descriptors are dropped. -/
def dropDescWaiting (c : Nat) (ids : List Nat) (s : State) : State :=
  let h (r : HReq) : Bool := !(r.src.chan == some c && (r.src.desc.any (fun d => ids.contains d)))
  (s.filterHostQ h).mapWls (fun _ w => { w with
    linkQ := w.linkQ.filter (fun p => !(p.src.chan == some c && (p.src.desc.any (fun d => ids.contains d)))) })

/-- A request of a descriptor is outstanding. -/
def descBusy (s : State) (c id : Nat) : Bool :=
  s.tags.any (fun t => !t.quarantined && t.req.src.chan == some c && t.req.src.desc == some id) ||
    s.wls.any (fun e => e.2.wlTags.any (fun t => !t.quarantined && t.src.chan == some c && t.src.desc == some id))

/-! ### Errors (R268 to R270) -/

/-- The failing descriptor halts the channel: earlier ones go on to complete, it and later ones end (R270). -/
def haltAt (c : Nat) (id : Option Nat) (code : Nat) (b : BadReq) (s : State) : State :=
  let ds := (s.ch c).descs
  let gone : List Desc := match id with
    | some i => ds.dropWhile (fun d : Desc => d.id != i)
    | none => []
  let s := dropDescWaiting c (gone.map (fun d => d.id)) s
  let s := s.filterHostQ (fun r => match r.src with
    | .dmaFetch ch _ => ch != c
    | .dmaReread ch _ => ch != c
    | .runAhead ch _ _ => ch != c
    | .readAhead ch _ _ => ch != c
    | _ => true)
  let s := s.modCh c (fun x => { x with
    descs := x.descs.filter (fun d => !gone.any (fun g => g.id == d.id))
    curAddr := (gone.head?.map (·.addr)).getD x.curAddr })
  let s := when (s.rd .CH_STATE c == 4) (fun s => s.wr .CH_CUR (s.ch c).curAddr c) s
  haltChannel c code b s

/-- The error of a descriptor behind one that has failed is discarded: it starts again, uncounted, once its requests have
ended; one that is not yet current is fetched again. -/
def discardFault (c : Nat) (id : Option Nat) (s : State) : State :=
  match id with
  | some i => dropDescWaiting c [i] (modDesc c i (fun d => { d with failed := if d.failed = 0 then 16 else d.failed }) s)
  | none => s.modCh c (fun x => { x with fetching := false, fetchFailed := 0, goOn := x.curAddr })

/-- A descriptor that comes before another, or before the one being fetched, has failed and is not yet retried. -/
def failedBefore (s : State) (c : Nat) (id : Option Nat) : Bool :=
  let ds := (s.ch c).descs
  let earlier : List Desc := match id with
    | some i => ds.takeWhile (fun x : Desc => x.id != i)
    | none => ds
  earlier.any (fun x => x.failed != 0)

/-- A descriptor, or with `id` none what is fetched, meets a cause of Table DM-6 that is not retried: the channel halts at it,
unless an earlier descriptor is the failing one (R268). -/
def chFault (c : Nat) (id : Option Nat) (code : Nat) (b : BadReq) (s : State) : State :=
  if failedBefore s c id then discardFault c id s else haltAt c id code b s

/-- A request of a channel fails with a code of Table DM-6: one that is retried waits for the descriptor's requests to
end (R269); the error that finds the limit used up halts the channel.  `id` is none for a fetch, whose `kind` is 1, or a
NEXT re-read, whose `kind` is 2.  The error of a descriptor behind a failed one is discarded, also that of a fetch which
failed before it. -/
def chError (c : Nat) (id : Option Nat) (kind code : Nat) (b : BadReq) (s : State) : State :=
  let lim := s.rd .CH_RETRY_LIMIT c
  let retried := decide (1 ≤ code) && decide (code ≤ 6) && s.rd .CH_STATE c == 2
  match id with
  | some i =>
    match descOf s c i with
    | none => s
    | some d =>
      if retried && decide (d.retries < lim) && !failedBefore s c id then
        let s := dropDescWaiting c [i] (modDesc c i (fun d => { d with failed := if d.failed = 0 then code else d.failed }) s)
        when ((s.ch c).fetchFailed == 1) (discardFault c none) s
      else chFault c id code b s
  | none =>
    if retried && decide ((s.ch c).fetchRetries < lim) && !failedBefore s c none then
      s.modCh c (fun x => { x with fetchFailed := kind, fetching := false })
    else chFault c none code b s

/-! ### Requests -/

/-- The halt code that keeps a channel from issuing, 0 when none does: a request into a tiller in reset is answered
TARGET_RESET (Tables AR-8 and DM-6). -/
def chStop (s : State) (c : Nat) : Nat :=
  let t := chTn s c
  if s.react then 0x0D
  else if s.tnState t == 4 then 0x0C
  else if undeliverable s (chFn s c) == 6 then 0x0A
  else if undeliverable s (chFn s c) != 0 || s.tnState t == 2 then 0x0B
  else 0

/-- A host request of a channel. -/
def chReq (s : State) (c : Nat) (kind : HKind) (addr len : Nat) (data : Bytes) (src : HSrc) (charge : Nat) : HReq :=
  { hreq s (chFn s c) kind addr len data src (chTn s c) with charge := charge }

/-- A fetch or NEXT re-read of a frozen tenant's channel waits for the thaw (R305); `kind` is 1 or 2. -/
def fetchLater (c kind addr : Nat) (s : State) : State :=
  (s.wr .CH_STATE 2 c).modCh c (fun x => { x with fetching := false, fetchFailed := kind, curAddr := addr })

/-- Fetch the descriptor at an address (R249). -/
def startFetch (c addr : Nat) (s : State) : State :=
  if s.tnState (chTn s c) = 3 then fetchLater c 1 addr s else
  let s := (s.wr .CH_STATE 2 c).modCh c (fun x => { x with
    fetching := true, curAddr := addr, noWriteBack := false, fetchFailed := 0, goOn := 0, raFailed := 0 })
  match chStop s c with
  | 0 => enqueueHost (chReq s c .read addr 64 [] (.dmaFetch c addr) 0) s
  | n => chFault c none n noReq s

/-- Read the NEXT field of a completed descriptor again (R254). -/
def startReread (c addr : Nat) (s : State) : State :=
  if s.tnState (chTn s c) = 3 then fetchLater c 2 addr s else
  let s := (s.wr .CH_STATE 2 c).modCh c (fun x => { x with
    fetching := true, curAddr := addr, noWriteBack := false, fetchFailed := 0, goOn := 0 })
  match chStop s c with
  | 0 => enqueueHost (chReq s c .read addr 8 [] (.dmaReread c addr) 0) s
  | n => chFault c none n noReq s

/-- Whether a local design's link of a space takes requests; a descriptor whose link does not halts the channel
(LINK_DOWN class). -/
def withLink (c id : Nat) (b : BadReq) (k : State → State) (s : State) : State :=
  if linkUsable s (b.space - 0x80) then k s else chFault c (some id) (linkCode s (b.space - 0x80)) b s

/-- A packet of a channel toward a local design. -/
def chPkt (s : State) (c sp : Nat) (p : Pkt) (src : WSrc) (charge : Nat) (t : State) : State :=
  enqueueLink (sp - 0x80) ⟨{ p with lane := s.rd .CH_LANE c }, src, chTn s c, s.rd .TN_GENERATION (chTn s c), charge⟩ t

/-- The next read of a descriptor's source (R257). -/
def issueRead (c : Nat) (d : Desc) (s : State) : State :=
  let a := d.src + d.issued
  let rem := d.len - d.issued
  if isLocal d.srcSpace then
    let n := min rem (min (min 4096 (s.wl (d.srcSpace - 0x80)).maxRd) (4096 - a % 4096))
    withLink c d.id (localRd a d.srcSpace) (fun s =>
      chPkt s c d.srcSpace { pktZero with typ := 2, len := n, addr := a } (.dmaRead c d.id d.issued) n
        (modDesc c d.id (fun d => { d with issued := d.issued + n }) s)) s
  else
    let m := maxRead s (chFn s c)
    let n := min rem (m - a % m)
    enqueueHost (chReq s c .read a n [] (.dmaRead c d.id d.issued) n)
      (modDesc c d.id (fun d => { d with issued := d.issued + n }) s)

/-- Bytes of the source from offset `pos` that have arrived without a gap. -/
def gatherAt (l : List (Nat × Bytes)) : Nat → Nat → Bytes
  | 0, _ => []
  | k + 1, pos =>
    match l.find? (fun e => decide (e.1 ≤ pos) && decide (pos < e.1 + e.2.length)) with
    | some e => e.2.drop (pos - e.1) ++ gatherAt l k (e.1 + e.2.length)
    | none => []

/-- Cut data for consecutive local addresses at multiples of 512. -/
def cut512 : Nat → Nat → Bytes → List (Nat × Bytes)
  | 0, _, _ => []
  | k + 1, a, b =>
    if b.isEmpty then []
    else
      let n := min b.length (512 - a % 512)
      (a, b.take n) :: cut512 k (a + n) (b.drop n)

/-- The flush read behind the channel's last host write (R261): one at a time. -/
def maybeFlush (c : Nat) (s : State) : State :=
  let x := s.ch c
  let due := x.descs.any (fun d => !d.toLocal && decide (0 < d.len) && d.arrived == d.len && d.writesOut == 0 &&
    !d.flushed && !d.covered && d.failed == 0)
  if !due || x.noWriteBack || s.tnState (chTn s c) == 3 then s
  else if x.flushOut then s.modCh c (fun x => { x with flushAgain := true })
  else
    enqueueHost (chReq s c .flush (x.lastWrite / 4 * 4) 0 [] (.dmaFlush c) 0)
      (s.modCh c (fun x => { x with flushOut := true, flushAgain := false }))

/-- Data that has arrived in order is written on toward the destination (R257). -/
def writeOn (c id : Nat) (s : State) : State :=
  match descOf s c id with
  | none => s
  | some d =>
    let data := gatherAt d.early (d.early.length + 1) d.arrived
    if data.isEmpty || d.failed != 0 then s
    else
      let a := d.dst + d.arrived
      let upd (n : Nat) (s : State) : State :=
        let s := modDesc c id (fun d => { d with
          arrived := d.arrived + data.length
          writesOut := d.writesOut + n
          early := d.early.filter (fun e => decide (d.arrived + data.length < e.1 + e.2.length)) }) s
        when ((s.ch c).descs.getLast?.any (fun x => x.id == id)) (fun s => s.wr .CH_BYTES (d.arrived + data.length) c) s
      if d.toLocal then
        let parts := cut512 (data.length / 512 + 2) a data
        withLink c id (localWr a d.dstSpace) (fun s =>
          each parts (fun p s =>
            chPkt s c d.dstSpace { pktZero with typ := 1, ackReq := true, len := p.2.length, addr := p.1, payload := p.2 }
              (.dmaWrite c id) 0 s) (upd parts.length s)) s
      else
        let r := { chReq s c .write a data.length data (.dmaWrite c id) 0 with
                   ro := s.on .CH_DATA_RO c && (s.cf (chFn s c)).roEn }
        enqueueHost r (upd 1 s)

/-! ### Completion (R260 to R264) -/

/-- A descriptor has reached its completion point (Table DM-5, R263, R479). -/
def atPoint (s : State) (d : Desc) : Bool :=
  d.len == 0 ||
    (d.failed == 0 && d.arrived == d.len &&
      (if d.toLocal then d.writesOut == 0 && (!(s.wl (d.dstSpace - 0x80)).peerLink || d.peerMrd == 2) else d.flushed))

/-- The marks of a completed descriptor set their causes and raise their vectors; one vector that both name is raised once
(R320). -/
def marks (c : Nat) (half full : Bool) (s : State) : State :=
  let s := when full (fun s => s.wr .CH_FULL 1 c) (when half (fun s => s.wr .CH_HALF 1 c) s)
  let vecs := (if half && s.on .CH_HALF_EN c then [s.rd .CH_VEC_HALF c] else []) ++
    (if full && s.on .CH_FULL_EN c then [s.rd .CH_VEC_FULL c] else [])
  each vecs.dedup (fun v s => raiseVec (chFn s c) v s) s

/-- The first descriptor of the chain is complete at an (era, stamp): write-back, counters, marks, doorbell (R262). -/
def completeDesc (c era stamp : Nat) (d : Desc) (s : State) : State :=
  let t := chTn s c
  let seq := (s.rd .CH_DONE_CNT c + 1) % 65536
  let st := 1 + d.retries % 8 * 2 + s.rd .TN_GENERATION t * 256 + seq * 65536
  let s := enqueueHost (chReq s c .write (d.addr + 0x20) 16 (le 4 st ++ le 2 era ++ le 2 0 ++ le 8 stamp)
    (.dmaWriteBack c) 0) s
  let s := (s.inc .CH_DONE_CNT c).add .CH_BYTE_CNT d.len c
  let s := (s.inc .CT_TN_DESC_DONE t).add .CT_TN_DESC_BYTES d.len t
  let b (n v : Nat) : Nat := if d.ctrl.testBit n then v else 0
  let s := trace 5 c 0x0D01 (seq + b 1 65536 + b 2 131072 + t * 2 ^ 24) s
  let s := s.modCh c (fun x => { x with descs := x.descs.drop 1 })
  let s := marks c (d.ctrl.testBit 1) (d.ctrl.testBit 2) s
  let sp := if d.toLocal then d.dstSpace else d.srcSpace
  when (d.ctrl.testBit 4 && isLocal sp && linkUsable s (sp - 0x80))
    (fun s => chPkt s c sp { pktZero with typ := 7, sub := 2, num := s.rd .CH_DB_NUM c, value := st } .doorbell 0 s) s

/-- What follows the completion of a descriptor with NEXT 0 when nothing else is left (R254, Table DM-7). -/
def chainEnd (c : Nat) (d : Desc) (s : State) : State :=
  if d.next = 0 && s.rd .CH_STATE c == 2 then
    let s := s.modCh c (fun x => { x with resumeNext := true, resume := d.addr })
    if (s.ch c).dbSinceFetch then startReread c d.addr s else s.wr .CH_STATE 1 c
  else s

/-- Descriptors complete in chain order, all of them at one instant: those behind the first had reached their completion
point by then (R260).  `k` bounds their number. -/
def completeFrom (c era stamp : Nat) : Nat → State → State
  | 0, s => s
  | k + 1, s =>
    match (s.ch c).descs.head? with
    | some d =>
      if atPoint s d && !(s.ch c).noWriteBack then
        completeFrom c era stamp k (chainEnd c d (completeDesc c era stamp d s))
      else s
    | none => s

/-- The descriptors at the front of the chain that have reached their completion point complete. -/
def completeAll (c : Nat) (s : State) : State :=
  when ((s.ch c).descs.head?.any (atPoint s) && !(s.ch c).noWriteBack) (fun s =>
    let s := advance s
    completeFrom c s.era s.stamp (s.ch c).descs.length s) s

/-! ### Run-ahead (R265 to R267) -/

/-- An address range lies wholly in one run-ahead region of the tenant. -/
def inRegion (s : State) (tn a n : Nat) : Bool :=
  (s.ten tn).regions.any (fun r => r.2 != 0 && decide (r.1 ≤ a) && decide (a + n ≤ r.1 + r.2))

/-- Slots of 64 bytes that a speculative read fills. -/
def slotsFor : HSrc → Nat → Nat
  | .runAhead _ _ _, _ => 1
  | .readAhead _ _ _, n => (n + 63) / 64
  | _, _ => 0

/-- Slots of a tiller's descriptor prefetch storage in use (R266): those of every speculative read that waits or is
outstanding, wanted or not, and those of the descriptors held, with their data. -/
def prefetchUsed (s : State) (t : Nat) : Nat :=
  let mine (r : HReq) : Nat := if r.src.chan.map chTiller == some t then slotsFor r.src r.len else 0
  let held (d : Desc) : Nat := 1 + (d.early.map (fun e => (e.2.length + 63) / 64)).sum
  (s.hostQ.map mine).sum + ((s.tags.filter (fun x => !x.quarantined)).map (fun x => mine x.req)).sum +
    ((s.chans.filter (fun e => chTiller e.1 == t)).map (fun e => (e.2.ahead.map held).sum)).sum

/-- The channel may issue new reads: ACTIVE, its tenant not frozen, nothing stopping it. -/
def mayRead (s : State) (c : Nat) : Bool := s.rd .CH_STATE c == 2 && s.tnState (chTn s c) != 3 && chStop s c == 0

/-- The channel may go on with the descriptors of its chain: also in WAIT, and in HALTED with those earlier than the failing
one, which complete normally (R270, Table DM-7). -/
def mayMove (s : State) (c : Nat) : Bool :=
  let st := s.rd .CH_STATE c
  (st == 2 || st == 3 || (st == 4 && !(s.ch c).noWriteBack)) && s.tnState (chTn s c) != 3 && chStop s c == 0

/-- The run-ahead depth of a channel: none while the tiller's auxiliary bank is LOST (Table AR-6). -/
def raDesc (s : State) (c : Nat) : Nat := if bankLost s (3 * chTiller c + 2) then 0 else min 8 (s.rd .CH_RA_DESC c)

/-- The channels of a tiller that wait for a full prefetch storage, each with its turn. -/
def askers (s : State) (t : Nat) : List (Nat × Nat) :=
  (s.chans.filter (fun e => chTiller e.1 == t && e.2.raAsked != 0)).map (fun e => (e.2.raAsked, e.1))

/-- `n` slots of the prefetch storage, first come first served: with them `k` runs; without them the channel waits, with the
turn it had, or behind all others where `turn` is 0 (R266). -/
def withSlots (c turn n : Nat) (k : State → State) (s : State) : State :=
  let t := chTiller c
  let first := (askers s t).all (fun a => a.2 == c || (turn != 0 && decide (turn < a.1)))
  if first && decide (prefetchUsed s t + n ≤ 1024) then k s
  else
    let last := ((askers s t).map (·.1)).foldl max 0
    s.modCh c (fun x => { x with raAsked := if turn = 0 then last + 1 else turn })

/-- Fetch one more descriptor ahead of the current one (R265). -/
def aheadFetch (c turn : Nat) (s : State) : State :=
  let x := s.ch c
  match (x.descs ++ x.ahead).getLast? with
  | none => s
  | some d =>
    if mayRead s c && !x.descs.isEmpty && decide (x.ahead.length < raDesc s c) && x.raToken == 0 && d.next != x.raFailed &&
        !x.fetching && x.fetchFailed == 0 && d.next != 0 && d.next % 64 == 0 && d.owned && inRegion s (chTn s c) d.next 64 &&
        !(x.descs ++ x.ahead).any (fun e => e.addr == d.next) then
      withSlots c turn 1 (fun s =>
        enqueueHost (chReq s c .read d.next 64 [] (.runAhead c d.next x.nextId) 0)
          (s.modCh c (fun x => { x with raToken := x.nextId, nextId := x.nextId + 1 }))) s
    else s

/-- Read source data of a descriptor fetched ahead (R265). -/
def aheadData (c turn : Nat) (s : State) : State :=
  let x := s.ch c
  let used := (x.ahead.map (·.issued)).sum
  let lim := if bankLost s (3 * chTiller c + 2) then 0 else s.rd .CH_RA_DATA c * 4096
  let m := maxRead s (chFn s c)
  let next (d : Desc) : Nat × Nat := (d.src + d.issued, min (d.len - d.issued) (m - (d.src + d.issued) % m))
  match x.ahead.find? (fun d => decide (d.issued < d.len) && d.owned && d.srcSpace == 0 && !d.fence && !d.noAhead &&
      inRegion s (chTn s c) (next d).1 (next d).2) with
  | none => s
  | some d =>
    let (a, n) := next d
    let waiting := s.hostQ.any (fun r => match r.src with | .readAhead ch _ _ => ch == c | _ => false)
    if mayRead s c && decide (used + n ≤ lim) && !waiting then
      withSlots c turn ((n + 63) / 64) (fun s =>
        enqueueHost (chReq s c .read a n [] (.readAhead c d.id d.issued) n)
          (modDesc c d.id (fun d => { d with issued := d.issued + n }) s)) s
    else s

/-- The run-ahead of a channel goes on. -/
def speculate (c : Nat) (s : State) : State :=
  let turn := (s.ch c).raAsked
  aheadData c turn (aheadFetch c turn (s.modCh c (fun x => { x with raAsked := 0 })))

/-- The channels that wait for a tiller's prefetch storage go on in the order in which they came, until one must wait again
(R266).  `k` bounds their number. -/
def serveSlots (t : Nat) : Nat → State → State
  | 0, s => s
  | k + 1, s =>
    match (askers s t).map (·.1) with
    | [] => s
    | a :: l =>
      let turn := l.foldl min a
      match (askers s t).find? (fun e => e.1 == turn) with
      | none => s
      | some e =>
        let s := speculate e.2 s
        if (s.ch e.2).raAsked = turn then s else serveSlots t k s

/-- Run-ahead of a channel, and of those of its tiller that wait for what it has given up. -/
def runAheadAll (c : Nat) (s : State) : State := serveSlots (chTiller c) 128 (speculate c s)

/-- Speculation that is no longer wanted is discarded (R256, R267): reads not yet issued are dropped; those issued end
and are counted then (R160). -/
def dropAhead (c : Nat) (s : State) : State :=
  let ids := (s.ch c).ahead.map (fun d => d.id)
  let s := s.filterHostQ (fun r => match r.src with
    | .runAhead ch _ _ => ch != c
    | .readAhead ch d _ => !(ch == c && ids.contains d)
    | _ => true)
  s.modCh c (fun x => { x with ahead := [], raToken := 0, raAsked := 0 })

/-! ### Progress -/

/-- The channel waits at its current descriptor (R255). -/
def enterWait (c : Nat) (addr : Nat) (s : State) : State :=
  let s := ((s.wr .CH_STATE 3 c).wr .CH_WAITED 1 c).wr .CH_CUR addr c
  trace 5 c 0x0603 (chTn s c * 65536) (dropAhead c (s.modCh c (fun x => { x with curAddr := addr, goOn := 0 })))

/-- A fetched descriptor becomes current (R250, R255). -/
def becomeCurrent (c : Nat) (d : Desc) (s : State) : State :=
  if !d.owned then
    if (s.ch c).dbSinceFetch then startFetch c d.addr (dropAhead c s) else enterWait c d.addr s
  else
    let s := ((s.wr .CH_CUR d.addr c).wr .CH_BYTES 0 c).wr .CH_RETRIES d.retries c
    let s := s.modCh c (fun x => { x with curAddr := d.addr, curOpen := false, goOn := d.next })
    match descCheck s c d with
    | 0 => writeOn c d.id (s.modCh c (fun x => { x with descs := x.descs ++ [d] }))
    | n => chFault c none n noReq s

/-- A read of the channel waits to be issued. -/
def readWaits (s : State) (c : Nat) : Bool :=
  s.hostQ.any (fun r => match r.src with | .dmaRead ch _ _ => ch == c | _ => false) ||
    s.wls.any (fun e => e.2.linkQ.any (fun p => match p.src with | .dmaRead ch _ _ => ch == c | _ => false))

/-- A descriptor fetched ahead becomes current: what of its data is not yet asked for is read on demand. -/
def takeAhead (c : Nat) (e : Desc) (s : State) : State :=
  let waiting (r : HReq) : Bool := match r.src with | .readAhead ch d _ => ch == c && d == e.id | _ => false
  let offs := (s.hostQ.filter waiting).filterMap (fun r => match r.src with | .readAhead _ _ off => some off | _ => none)
  becomeCurrent c { e with issued := offs.foldl min e.issued } (s.filterHostQ (fun r => !waiting r))

/-- The channel goes on to the next descriptor once the reads of the current one have all been issued: one fetched ahead,
which came after any doorbell, becomes current, or it is fetched.  A NEXT that names a descriptor not yet complete waits
for its write-back.  A fetch ahead of it that is not yet issued is made on demand instead. -/
def nextDesc (c : Nat) (s : State) : State :=
  let x := s.ch c
  let unissued := s.hostQ.any (fun r => match r.src with | .runAhead ch _ t => ch == c && t == x.raToken | _ => false)
  if x.goOn = 0 || x.fetching || x.fetchFailed != 0 || x.descs.any (fun e => e.addr == x.goOn) then s
  else
    match x.ahead with
    | e :: rest =>
      if e.addr = x.goOn then
        takeAhead c e (s.modCh c (fun x => { x with ahead := rest, dbSinceFetch := false, goOn := 0 }))
      else startFetch c x.goOn (dropAhead c s)
    | [] => if x.raToken != 0 && !unissued then s else startFetch c x.goOn (dropAhead c s)

/-- The next request of the channel (R257, R259): one read at a time, in chain order; a descriptor with FENCE waits for
every earlier one. -/
def pumpOnce (c : Nat) (s : State) : State :=
  if !mayMove s c || readWaits s c then s
  else
    let ds := (s.ch c).descs
    match ds.find? (fun d => decide (d.issued < d.len) && d.failed == 0) with
    | some d => if d.fence && ds.head?.any (fun e => e.id != d.id) then s else issueRead c d s
    | none => if ds.any (fun d => d.failed != 0) then s else when (mayRead s c) (nextDesc c) s

/-- A channel moves on after any event: completions, then its next requests.  A descriptor of LEN 0 is complete as soon
as it is current, so up to one descriptor fetched ahead after another may be taken. -/
def pump (c : Nat) (s : State) : State :=
  let step (s : State) : State := maybeFlush c (pumpOnce c (completeAll c s))
  runAheadAll c (each (List.range 9) (fun _ s => step s) s)

/-- A descriptor fetched since the last doorbell is one fewer to be fetched again; DB_PENDING ends with the last of them, or
with one that nothing is fetched beyond (R256). -/
def refetched (c : Nat) (d : Desc) (s : State) : State :=
  let left := if d.next = 0 || !d.owned then 0 else (s.ch c).dbOwed - 1
  when (left == 0) (fun s => s.wr .CH_DB_PENDING 0 c) (s.modCh c (fun x => { x with dbOwed := left }))

/-- A descriptor has been fetched on demand. -/
def fetched (c addr : Nat) (b : Bytes) (s : State) : State :=
  let x := s.ch c
  if s.rd .CH_STATE c != 2 || !x.fetching || x.curAddr != addr then s
  else
    let d := { parseDesc x.nextId addr b with retries := x.fetchRetries }
    let s := s.modCh c (fun x => { x with fetching := false, fetchRetries := 0, nextId := x.nextId + 1 })
    pump c (becomeCurrent c d (when (!x.dbSinceFetch) (refetched c d) s))

/-- The NEXT field of the last descriptor has been read again (R254). -/
def reread (c addr : Nat) (b : Bytes) (s : State) : State :=
  let x := s.ch c
  if s.rd .CH_STATE c != 2 || !x.fetching || x.curAddr != addr then s
  else
    let again := x.dbSinceFetch
    let s := s.modCh c (fun x => { x with fetching := false, fetchRetries := 0 })
    let s := when (!again) (fun s => (s.wr .CH_DB_PENDING 0 c).modCh c (fun x => { x with dbOwed := 0 })) s
    let n := num b 0 8
    if n = 0 then if again then startReread c addr s else s.wr .CH_STATE 1 c
    else if n % 64 ≠ 0 then chFault c none 7 noReq s
    else startFetch c n s

/-- A descriptor has been fetched ahead; one that is no longer wanted, or whose region has been removed, is discarded and
counted (R160, R267). -/
def ranAhead (c addr token : Nat) (b : Bytes) (s : State) : State :=
  let x := s.ch c
  let cnt (s : State) : State := s.inc .TI_RQ_SPEC_CNT (hlTiller (s.rd .TN_HL (chTn s c)))
  if x.raToken = token && s.rd .CH_STATE c == 2 then
    let s := s.modCh c (fun x => { x with raToken := 0, nextId := x.nextId + 1 })
    if inRegion s (chTn s c) addr 64 then
      let d := parseDesc x.nextId addr b
      pump c (refetched c d (s.modCh c (fun x => { x with ahead := x.ahead ++ [d] })))
    else pump c (cnt s)
  else serveSlots (chTiller c) 128 (cnt s)

/-- A run-ahead fetch has failed: the descriptor is fetched on demand when its turn comes, and nothing beyond it before
(R267). -/
def runAheadFailed (c token : Nat) (s : State) : State :=
  let s := s.inc .TI_RQ_SPEC_CNT (hlTiller (s.rd .TN_HL (chTn s c)))
  let last := ((s.ch c).descs ++ (s.ch c).ahead).getLast?
  if (s.ch c).raToken = token then
    pump c (s.modCh c (fun x => { x with raToken := 0, raFailed := (last.map (fun d : Desc => d.next)).getD 0 }))
  else serveSlots (chTiller c) 128 s

/-- Source data arrives. -/
def dataArrived (c id off : Nat) (b : Bytes) (s : State) : State :=
  let x := s.ch c
  if x.descs.any (fun d => d.id == id && d.failed == 0) then
    pump c (writeOn c id (modDesc c id (fun d => { d with early := d.early ++ [(off, b)] }) s))
  else if x.ahead.any (fun d => d.id == id) then modDesc c id (fun d => { d with early := d.early ++ [(off, b)] }) s
  else s

/-- The descriptor of a read-ahead read is still wanted. -/
def wanted (s : State) (c id : Nat) : Bool := ((s.ch c).descs ++ (s.ch c).ahead).any (fun d => d.id == id)

/-- A read-ahead read that nothing wants any more has completed: its data is discarded and the read counted (R160). -/
def aheadDone (c id : Nat) (s : State) : State :=
  serveSlots (chTiller c) 128
    (when (!wanted s c id) (fun s => s.inc .TI_RQ_SPEC_CNT (hlTiller (s.rd .TN_HL (chTn s c)))) s)

/-- A read-ahead read has failed: the data is read again from there, on demand, once the descriptor is current (R267). -/
def aheadFailed (c id off : Nat) (s : State) : State :=
  let s := s.inc .TI_RQ_SPEC_CNT (hlTiller (s.rd .TN_HL (chTn s c)))
  pump c (modDesc c id (fun d => { d with issued := min d.issued off, noAhead := true }) s)

/-- The last TLP of a host write of a descriptor has entered the transmit order. -/
def chWriteIssued (c id : Nat) (s : State) : State := pump c (modDesc c id (fun d => { d with writesOut := d.writesOut - 1 }) s)

/-- A flush read of a channel enters the transmit order: it covers the descriptors whose host writes are all issued
(R261). -/
def chFlushIssued (c : Nat) (s : State) : State :=
  s.modCh c (fun x => { x with flushAgain := false, descs := x.descs.map (fun d =>
    if !d.toLocal && decide (0 < d.len) && d.arrived == d.len && d.writesOut == 0 && !d.flushed then
      { d with covered := true } else d) })

/-- A flush read of a channel has completed with SC. -/
def chFlushDone (c : Nat) (s : State) : State :=
  pump c (s.modCh c (fun x => { x with flushOut := false, descs := x.descs.map (fun d =>
    if d.covered then { d with covered := false, flushed := true } else d) }))

/-- A flush read of a channel has failed: the earliest descriptor it covered fails. -/
def chFlushFailed (c code addr : Nat) (s : State) : State :=
  let first := (s.ch c).descs.find? (·.covered)
  let s := s.modCh c (fun x => { x with flushOut := false, descs := x.descs.map (fun d => { d with covered := false }) })
  match first with
  | some d => pump c (chError c (some d.id) 0 code (hostRd addr) s)
  | none => s

/-- A WRSP with SC answers an MWR of a descriptor; after the last toward a peer link a zero-length MRD follows (R479). -/
def chWriteAnswered (c id : Nat) (s : State) : State :=
  let s := modDesc c id (fun d => { d with writesOut := d.writesOut - 1 }) s
  match descOf s c id with
  | none => s
  | some d =>
    if d.toLocal && d.arrived == d.len && d.writesOut == 0 && (s.wl (d.dstSpace - 0x80)).peerLink && d.peerMrd == 0 &&
        s.tnState (chTn s c) != 3 then
      withLink c id (localRd d.dst d.dstSpace) (fun s =>
        chPkt s c d.dstSpace { pktZero with typ := 2, len := 0, addr := d.dst } (.peerMrd c id) 0
          (modDesc c id (fun d => { d with peerMrd := 1 }) s)) s
    else pump c s

/-- The zero-length MRD toward a peer link is answered with SC (R479). -/
def chPeerDone (c id : Nat) (s : State) : State := pump c (modDesc c id (fun d => { d with peerMrd := 2 }) s)

/-! ### Rows -/

/-- What a doorbell does in a channel whose tenant is not frozen (R253 to R256, Table DM-7). -/
def doorbell (c : Nat) (s : State) : State :=
  let x := s.ch c
  match s.rd .CH_STATE c with
  | 1 =>
    let s := s.wr .CH_DB_PENDING 0 c
    if x.resumeNext then startReread c x.resume s
    else if x.resume = 0 then s
    else startFetch c x.resume s
  | 2 =>
    let s := s.modCh c (fun x => { x with dbSinceFetch := true, dbOwed := x.dbOwed + x.ahead.length })
    pump c ((dropAhead c s).wr .CH_DB_PENDING 1 c)
  | 3 => startFetch c x.curAddr (s.wr .CH_DB_PENDING 0 c)
  | 4 =>
    if s.on .CH_DRAINING c then s.wr .CH_DB_IGNORED 1 c
    else
      let s := s.modCh c (fun x => { x with fetchRetries := 0, descs := [], flushOut := false, flushAgain := false })
      startFetch c x.curAddr ((s.wr .CH_RETRIES 0 c).wr .CH_DB_PENDING 0 c)
  | _ => s.wr .CH_DB_IGNORED 1 c

/-- A doorbell write (R253); for a frozen tenant it is recorded and acted on at thaw (Table MG-4). -/
def ringChannel (c : Nat) (s : State) : State :=
  if !s.on .CH_EN c then s.wr .CH_DB_IGNORED 1 c
  else if s.tnState (chTn s c) == 3 && s.rd .CH_STATE c != 5 then
    (s.wr .CH_DB_PENDING 1 c).modTen (chTn s c) (fun t => { t with
      doorbells := if t.doorbells.contains c then t.doorbells else t.doorbells ++ [c] })
  else doorbell c s

/-- CHANNEL_DOORBELL (R253). -/
def execChannelDoorbell (fn : Fn) (ch : Chan) (s : State) : Res :=
  .next (when (chanWrites s fn ch.val) (ringChannel ch.val) s)

/-- A channel enters IDLE with CH_HEAD as its resume point (R254, Table DM-7). -/
def chIdle (c : Nat) (s : State) : State :=
  let head := s.rd .CH_HEAD_LO c * 64 + s.rd .CH_HEAD_HI c * 2 ^ 32
  ((s.wr .CH_STATE 1 c).wr .CH_CODE 0 c).modCh c (fun x => { x with
    resumeNext := false, resume := head, descs := [], ahead := [], fetching := false, flushOut := false, flushAgain := false
    dbSinceFetch := false, enAgain := false, fetchRetries := 0, fetchFailed := 0, raToken := 0, noWriteBack := false
    goOn := 0, dbOwed := 0, raFailed := 0, raAsked := 0 })

/-- EN is written 1 where it was 0 (R272). -/
def enableChannel (c : Nat) (s : State) : State :=
  let s := (s.wr .CH_EN 1 c).modCh c (fun x => { x with curOpen := false })
  match s.rd .CH_STATE c with
  | 0 => chIdle c s
  | 5 => s.modCh c (fun x => { x with enAgain := true })
  | _ => s

/-- CHANNEL_ENABLE (R272). -/
def execChannelEnable (fn : Fn) (ch : Chan) (s : State) : Res :=
  .next (when (chanWrites s fn ch.val && !s.on .CH_EN ch.val) (enableChannel ch.val) s)

/-- EN is written 0 where it was 1 (R271): CH_CUR and CH_BYTES become undefined, so they take free values. -/
def disableChannel (c : Nat) (s : State) : State :=
  let s := s.wr .CH_EN 0 c
  let st := s.rd .CH_STATE c
  let s := draw s (fun v s => draw s (fun w s => (s.wr .CH_CUR v c).wr .CH_BYTES w c))
  let s := s.modCh c (fun x => { x with
    descs := [], ahead := [], fetching := false, flushOut := false, flushAgain := false, enAgain := false, raToken := 0
    fetchFailed := 0, noWriteBack := true, curOpen := true, goOn := 0, dbOwed := 0, raFailed := 0, raAsked := 0 })
  let s := when (decide (chTn s c < 256)) (fun s => s.modTen (chTn s c) (fun t => { t with doorbells := t.doorbells.erase c })) s
  let s := s.wr .CH_DB_PENDING 0 c
  if st = 1 then s.wr .CH_STATE 0 c
  else if st = 2 || st = 3 || st = 4 then
    let s := dropChanWaiting c s
    if chLeft s c then (s.wr .CH_STATE 5 c).wr .CH_DRAINING 1 c
    else (s.wr .CH_STATE 0 c).wr .CH_DRAINING 0 c
  else s

/-- CHANNEL_DISABLE (R271). -/
def execChannelDisable (fn : Fn) (ch : Chan) (s : State) : Res :=
  .next (when (chanWrites s fn ch.val && s.on .CH_EN ch.val) (disableChannel ch.val) s)

/-- A retry begins (R269): counted and traced. -/
def countRetry (c code n : Nat) (s : State) : State :=
  let s := ((s.inc .CH_RETRY_CNT c).inc .CT_TN_RETRIES (chTn s c)).wr .CH_RETRIES n c
  trace 5 c 0x0602 (code + n % 8 * 256) s

/-- The first failed descriptor starts again from its first byte once its requests have ended; with code 16 no retry is
counted (R269). -/
def restartDesc (c : Nat) (s : State) : State :=
  match (s.ch c).descs.find? (fun d => d.failed != 0) with
  | some d =>
    if descBusy s c d.id then s
    else
      let n := if d.failed = 16 then d.retries else d.retries + 1
      let s := when (d.failed != 16) (countRetry c d.failed n) s
      pump c (modDesc c d.id (fun d => { d with
        issued := 0, arrived := 0, early := [], writesOut := 0, covered := false, flushed := false, peerMrd := 0
        failed := 0, retries := n }) s)
  | none => s

/-- CHANNEL_RETRY (R269): the failing descriptor's requests have ended, and it starts again from its first byte; a failing
fetch or NEXT re-read is issued again. -/
def execChannelRetry (ch : Chan) (s : State) : Res :=
  let c := ch.val
  let x := s.ch c
  .next (
    if !mayMove s c then s
    else if x.fetchFailed != 0 then
      let n := x.fetchRetries + 1
      let s := countRetry c 0 n (s.modCh c (fun x => { x with fetchRetries := n }))
      if x.fetchFailed = 1 then startFetch c x.curAddr s else startReread c x.curAddr s
    else restartDesc c s)

/-- CHANNEL_DRAINED (R270, Table DM-7): the last outstanding request of a halted or stopping channel has ended. -/
def execChannelDrained (ch : Chan) (s : State) : Res :=
  let c := ch.val
  .next (
    if chLeft s c then s
    else
      match s.rd .CH_STATE c with
      | 4 => s.wr .CH_DRAINING 0 c
      | 5 =>
        let s := s.wr .CH_DRAINING 0 c
        if (s.ch c).enAgain then chIdle c s else s.wr .CH_STATE 0 c
      | _ => s)

end Sys2Proof.Machine
end

