-- ==== Sys2Proof/Machine/Sources.lean ====
section
/-!
DEFINITION. What the end of a host request means to its source (Table RQ-5): data, success, failure, or being discarded
before it was issued; and how a function, a tenant or a link stops (R62, R156, R158, R287).
-/
namespace Sys2Proof.Machine

/-! ### Answers of windows -/

/-- The TAG that stands for a window request already answered toward its local design. -/
def deadTag : Nat := 4096

/-- A window request with a TAG becomes one that nobody waits for. -/
def HSrc.orphan (n tag new : Nat) : HSrc → HSrc
  | .window wl lane t win part ack last =>
    if wl = n ∧ t = tag then .window wl lane new win part false last else .window wl lane t win part ack last
  | x => x

/-- What remains of a request of a local design that has had its final answer: its host requests go on for nobody. -/
def orphan (n tag new : Nat) (s : State) : State :=
  let g (r : HReq) : HReq := { r with src := r.src.orphan n tag new }
  let s := s.mapTags (fun t => { t with req := g t.req })
  { s with hostQ := s.hostQ.map g }

/-- A request of a local design fails. -/
def failLoc (n tag cause : Nat) (s : State) : State :=
  match locReq s n tag with
  | some q => orphan n tag deadTag (answerLoc q cause s)
  | none => s

/-- Credits of a window packet: its class and cost. -/
def windowCredit (r : HReq) : Nat × Nat :=
  match r.kind, r.src with
  | .write, .window _ _ _ _ part _ _ => (0, costOf (part + r.len))
  | .atomic _, _ => (1, costOf r.data.length)
  | _, _ => (1, 1)

/-- A window packet leaves the receive buffer. -/
def releaseWindow (r : HReq) (s : State) : State :=
  match r.src with
  | .window wl _ tag _ _ _ _ => when (tag != freshTag) (releaseCredit wl (windowCredit r).1 (windowCredit r).2) s
  | .intr wl _ _ _ => releaseCredit wl 0 1 s
  | _ => s

/-! ### Interrupt messages of local designs -/

/-- The host link and order lane of a request that follows an order lane; of a message, those of the MSG that raised it. -/
def laneOf (r : HReq) : Option (Nat × Nat × Nat) :=
  match r.src with
  | .window wl l _ _ _ _ _ => some (r.fn.hl.val, wl, l)
  | .sheafCopy _ _ wl l => some (r.fn.hl.val, wl, l)
  | .gap _ _ wl l => some (r.fn.hl.val, wl, l)
  | .sheafFlush _ wl l _ => some (r.fn.hl.val, wl, l)
  | .intr wl l _ _ => some (r.fn.hl.val, wl % 96, l)
  | .msix _ (some k) => some (r.fn.hl.val, k.1, k.2)
  | _ => none

/-- An interrupt MSG raises its vector.  The message that follows at once keeps the MSG's place in its order lane (R123). -/
def intrRaises (r : HReq) (wl lane v : Nat) (s : State) : State :=
  let t := raiseVec (fnIdx r.fn) v s
  { t with hostQ := s.hostQ ++ (t.hostQ.drop s.hostQ.length).map (fun x =>
      match x.src with
      | .msix v none => { x with src := .msix v (some (wl % 96, lane)) }
      | _ => x) }

/-- An interrupt MSG that no earlier packet of its order lane to the same host link is waiting before, nor the message of an earlier
MSG, raises its vector (R123).  `k` bounds their number. -/
def settleIntr : Nat → State → State
  | 0, s => s
  | k + 1, s =>
    let ready (r : HReq) : Bool :=
      match r.src with
      | .intr _ _ _ _ => !r.frozen && (s.hostQ.find? (fun x => laneOf x == laneOf r)).any (fun x => decide (x = r)) &&
          !s.hostQ.any (fun x => match x.src with | .msix _ _ => laneOf x == laneOf r | _ => false)
      | _ => false
    match s.hostQ.find? ready with
    | some r =>
      match r.src with
      | .intr wl l v _ => settleIntr k (intrRaises r wl l v (releaseWindow r { s with hostQ := s.hostQ.erase r }))
      | _ => s
    | none => s

/-! ### Failure and success -/

/-- The halt code of a cause (Tables WT-5 and DM-6), 0 for one that halts the channel by itself. -/
def dmaCode (cause : Nat) : Nat :=
  match cause with
  | 8 => 1
  | 9 => 2
  | 10 => 3
  | 6 => 10
  | _ => 0

/-- A host request that was issued fails toward its source (Table RQ-5); `cause` is a CAUSE of Table WT-5.  A DMA request
of a cause that halts its channel needs nothing more. -/
def failSrc (r : HReq) (cause : Nat) (s : State) : State :=
  let code := dmaCode cause
  match r.src with
  | .window wl _ tag _ _ _ _ => failLoc wl tag cause s
  | .sheafFlush sheaf wl lane tag => sheafFlushDone sheaf wl lane tag cause r.fn s
  | .dmaFetch c _ => if code = 0 then s else pump c (chError c none 1 code (hostRd r.addr) s)
  | .dmaReread c _ => if code = 0 then s else pump c (chError c none 2 code (hostRd r.addr) s)
  | .dmaRead c d _ => if code = 0 then s else pump c (chError c (some d) 0 code (hostRd r.addr) s)
  | .dmaFlush c => if code = 0 then s else chFlushFailed c code r.addr s
  | .runAhead c _ token => if code = 0 then s else runAheadFailed c token s
  | .readAhead c d off => if code = 0 then s else aheadFailed c d off s
  | .cmdHeader slot => fetchFailed (fnIdx r.fn) (headerCtx (fnIdx r.fn) slot) s
  | .cmdParams _ hdr => fetchFailed (fnIdx r.fn) (paramsCtx (fnIdx r.fn) hdr) s
  | .logRead tn key => lineFailed tn key s
  | .harvestFlush tn _ => harvestFlushDone tn false s
  | .freezeFlush tn => when (decide (tn < 256)) (fun s => s.modTen tn (fun t => { t with freezeFlushed := true })) s
  | _ => s

/-- Data of a read arrives at its consumer in ascending order (R141): a window, a channel. -/
def deliverData (r : HReq) (off : Nat) (b : Bytes) (s : State) : State :=
  match r.src with
  | .window wl _ tag _ part _ _ => if r.kind = .read then locData wl tag (part + off) b s else s
  | .dmaRead c d o => dataArrived c d (o + off) b s
  | .readAhead c d o => dataArrived c d (o + off) b s
  | _ => s

/-- A request has been answered in full with success; `b` is the whole of its data. -/
def succeed (r : HReq) (b : Bytes) (s : State) : State :=
  match r.src with
  | .window wl _ tag _ _ _ _ =>
    match r.kind with
    | .flush => withSome (locReq s wl tag) (fun q s => answerLoc q 0 s) s
    | .atomic _ => locData wl tag 0 b s
    | _ => s
  | .sheafFlush sheaf wl lane tag => sheafFlushDone sheaf wl lane tag 0 r.fn s
  | .dmaFetch c a => fetched c a b s
  | .dmaReread c a => reread c a b s
  | .dmaFlush c => chFlushDone c s
  | .runAhead c a token => ranAhead c a token b s
  | .readAhead c d _ => aheadDone c d s
  | .cmdHeader slot => headerFetched (fnIdx r.fn) slot b s
  | .cmdParams _ _ => answerUnknowns 16 s
  | .logRead tn key => lineRead tn key b s
  | .harvestFlush tn _ => harvestFlushDone tn true s
  | .freezeFlush tn => when (decide (tn < 256)) (fun s => s.modTen tn (fun t => { t with freezeFlushed := true })) s
  | _ => s

/-! ### Discarding what waits -/

/-- A waiting request has been taken out of its queue to be discarded (R62, R156, R287, Table WN-2). -/
def discardOne (cause : Nat) (r : HReq) (s : State) : State :=
  match r.src with
  | .window wl _ tag _ _ ack _ =>
    let s := releaseWindow r s
    let s := when (cause == 4 || cause == 5 || cause == 6) (fun s => s.inc .HL_DROP_CNT r.fn.hl.val) s
    when (r.kind != .write || ack) (failLoc wl tag cause) s
  | .sheafFlush _ _ _ _ => failSrc r cause (when (cause == 4 || cause == 5 || cause == 6) (fun s => s.inc .HL_DROP_CNT r.fn.hl.val) s)
  | .sheafCopy pkt d _ _ => copyDropped pkt d s
  | .gap sheaf d _ _ => s.inc .CT_SD_LAG sheaf d
  | .intr _ _ v _ => raiseVec (fnIdx r.fn) v (releaseWindow r s)
  | .msix v _ => s.modVec (fnIdx r.fn) v (fun x => { x with pba := true })
  | .logWrite tn key => logSettle tn (roundDirty tn (key / 2 ^ 32) s)
  | .dmaFetch _ _ | .dmaReread _ _ | .dmaRead _ _ _ | .dmaFlush _ | .runAhead _ _ _ | .readAhead _ _ _ => s
  | _ => failSrc r cause s

/-- The requests that wait and that `p` picks are discarded. -/
def discardWaiting (p : HReq → Bool) (cause : Nat) (s : State) : State :=
  settleIntr 1024 (each (s.hostQ.filter p) (discardOne cause) (s.filterHostQ (fun r => !p r)))

/-- Outstanding requests that `p` picks have their answers dropped from now on, and fail toward their sources (R156). -/
def dropTags (p : HReq → Bool) (cause : Nat) (s : State) : State :=
  let hit := s.tags.filter (fun t => p t.req && !t.quarantined && !t.dropped)
  let s := s.mapTags (fun t => if p t.req && !t.quarantined then { t with dropped := true } else t)
  each hit (fun t s => failSrc t.req cause s) s

/-! ### A function, a tenant, a link stops -/

/-- Every channel of a tenant halts. -/
def haltTenant (tn code : Nat) (s : State) : State :=
  each (s.ten tn).chans (fun c s => haltCore c code noReq s) s

/-- A function masters no further request (R156): what waits is discarded, what is outstanding is dropped, its channels
halt, and sheaves no longer wait for it.  `cause` is 4 to 7. -/
def stopFn (f cause : Nat) (s : State) : State :=
  let mine (r : HReq) : Bool := fnIdx r.fn == f
  let s := withSome (s.boundTn f) (fun tn s => haltTenant tn 0x0B s) s
  showExcused (dropTags mine cause (discardWaiting (fun r => mine r && (match r.src with | .intr _ _ _ _ => false | _ => true))
    cause s))

/-- A function that is to master requests again takes none that waited while it could not. -/
def purgeFn (f cause : Nat) (s : State) : State :=
  discardWaiting (fun r => fnIdx r.fn == f && (match r.src with | .intr _ _ _ _ => false | .msix _ _ => false | _ => true)) cause s

/-- The packets that a freeze of tenant `n` holds go on in the order they came (R308). -/
def releaseHeldOf (n : Nat) (s : State) : State :=
  settleIntr 1024 { s with hostQ := s.hostQ.map (fun r => if r.tn = n then { r with frozen := false } else r) }

/-- The interrupt MSGs that a freeze of tenant `n` holds are discarded: they raise no vector (R308). -/
def dropHeldMsgs (n : Nat) (s : State) : State :=
  let held (r : HReq) : Bool := r.tn == n && r.frozen && (match r.src with | .intr _ _ _ _ => true | _ => false)
  each (s.hostQ.filter held) releaseWindow (s.filterHostQ (fun r => !held r))

/-- A reset of a tenant cuts off its requests (R158, R287): those waiting are discarded, those outstanding answered to
local designs, its tags quarantined, its channels halted with `code`. -/
def cutTenant (tn code : Nat) (bump : Bool) (s : State) : State :=
  let mine (r : HReq) : Bool := r.tn == tn
  let s := dropHeldMsgs tn (haltTenant tn code s)
  let s := discardWaiting (fun r => mine r && (match r.src with | .intr _ _ _ _ => false | .msix _ _ => false | _ => true)) 7 s
  let s := releaseHeldOf tn s
  let hit := s.tags.filter (fun t => mine t.req && !t.quarantined && !t.dropped)
  let s := when bump (bumpGeneration tn) s
  let s := each hit (fun t s => failSrc t.req 7 s) s
  -- requests toward local designs carry the former generation: their answers are discarded on arrival (R286)
  showExcused s

/-! ### A frozen tenant becomes quiet (R305) -/

/-- Nothing that a freeze waits for is left of the tenant but its own flush read: no host request waiting or outstanding,
no request of its channels toward a local design, no channel stopping.  Messages, harvests, the packets it holds and the
flush reads of sheaves that wait are no part of it. -/
def tnQuiet (s : State) (n : Nat) : Bool :=
  let counts (r : HReq) : Bool := r.tn == n &&
    (match r.src with | .msix _ _ | .freezeFlush _ | .harvestFlush _ _ | .intr _ _ _ _ => false | _ => true)
  let flush (r : HReq) : Bool := match r.src with | .sheafFlush _ _ _ _ => true | _ => false
  !s.hostQ.any (fun r => counts r && !r.frozen && !flush r) && !s.tags.any (fun t => !t.quarantined && counts t.req) &&
    !s.wls.any (fun e => e.2.linkQ.any (fun p => p.tn == n && p.src.chan.isSome) ||
      e.2.wlTags.any (fun t => t.tn == n && !t.quarantined && t.src.chan.isSome)) &&
    (s.ten n).chans.all (fun c => s.rd .CH_STATE c != 5)

/-- A tenant's flush read behind its last host write (R301 step 3, R305): with the VF's Requester ID, or the PF's while
the VF masters no request; none on a link that is not up, or whose PF masters none.  The flag says whether the PF
issued it.  Where the tenant has written nothing, no address is stated: it is free. -/
def tnFlush (n : Nat) (src : HSrc) (s : State) : Option Bool × State :=
  let f := s.tnFn n
  let p := pfIdx (fnHl f)
  let vf := undeliverable s f == 0
  if !vf && undeliverable s p != 0 then (none, s)
  else
    let put (a : Nat) (s : State) : State :=
      enqueueHost (hreq s (if vf then f else p) .flush (a / 4 * 4) 0 [] src (if vf then n else 256)) s
    (some (!vf), match (s.ten n).lastByte with
      | some a => put a s
      | none => draw s put)

/-- The flush read of a freeze is issued once the tenant is quiet. -/
def freezeSettle (s : State) : State :=
  each ((listed s .TN_STATE).filter (fun n => s.tnState n == 3 && !(s.ten n).freezeOut)) (fun n s =>
    when (tnQuiet s n) (fun s =>
      let s := s.modTen n (fun t => { t with freezeOut := true })
      let flush := tnFlush n (.freezeFlush n) s
      if flush.1.isSome then flush.2 else flush.2.modTen n (fun t => { t with freezeFlushed := true })) s) s


end Sys2Proof.Machine
end

