-- ==== Sys2Proof/Machine/Issue.lean ====
section
/-!
DEFINITION. The transmit order of a host link (R283, R109 to R111, R123, R137, R144), tags and cells (R134 to R140), and
the rows HOST_READ_ISSUE, HOST_TLP_ISSUE, HOST_COMPLETION, COMPLETION_TIMEOUT and QUARANTINE_EXPIRY.
-/
namespace Sys2Proof.Machine

/-! ### Sources and their order -/

/-- The source a request belongs to (R123, R137): requests of one source leave on a link in the order they came. -/
inductive QKey where
  | lane (wl lane : Nat)
  | chan (ch : Nat)
  | fn (f : Nat)
  | ring (f : Nat)
  | log (tn : Nat)
  | flush (tn : Nat)
  | stream
  deriving DecidableEq, Repr

/-- The source of a request. -/
def qKey (r : HReq) : QKey :=
  match r.src with
  | .window wl l _ _ _ _ _ => .lane wl l
  | .sheafCopy _ _ wl l => .lane wl l
  | .gap _ _ wl l => .lane wl l
  | .sheafFlush _ wl l _ => .lane wl l
  | .intr wl l _ _ => .lane (wl % 96) l
  | .dmaFetch c _ | .dmaReread c _ | .dmaRead c _ _ | .dmaWrite c _ | .dmaFlush c | .dmaWriteBack c => .chan c
  | .runAhead c _ _ | .readAhead c _ _ => .chan c
  | .msix _ _ => .fn (fnIdx r.fn)
  | .cmdHeader _ | .cmdParams _ _ | .reply _ => .ring (fnIdx r.fn)
  | .logRead tn _ | .logWrite tn _ => .log tn
  | .harvestFlush tn true => .log tn
  | .harvestFlush tn false | .freezeFlush tn => .flush tn
  | .stream _ => .stream

/-- What a message of a function must not pass beside its own kind: its earlier writes of channels and its replies, the writes
of the events that raise one (R323). -/
def msixWaits (r x : HReq) : Bool :=
  match r.src, x.src with
  | .msix _ _, .dmaWriteBack _ | .msix _ _, .dmaWrite _ _ | .msix _ _, .reply _ => decide (x.fn = r.fn)
  | _, _ => false

/-- A request of the same link and source, or one that `r` must not pass. -/
def before (r x : HReq) : Bool :=
  decide (x.fn.hl = r.fn.hl) && (decide (qKey x = qKey r) || msixWaits r x)

/-- The requests that wait on a link, in order. -/
def linkQueue (s : State) (h : Nat) : List HReq := s.hostQ.filter (fun r => r.fn.hl.val == h)

/-- A read is speculative (R159). -/
def HSrc.speculative : HSrc → Bool
  | .runAhead _ _ _ | .readAhead _ _ _ => true
  | _ => false

/-- Speculative tags and cells of a tenant. -/
def specUse (s : State) (tn : Nat) : Nat × Nat :=
  let l := s.tags.filter (fun t => t.req.tn == tn && !t.quarantined && t.req.src.speculative)
  (l.length, (l.map (·.cells)).sum)

/-- A read is none of speculation, or one that speculation may hold: in a run-ahead region, and with it at most half of the
tenant's allowance and of its cells (R159). -/
def specMay (s : State) (r : HReq) : Bool :=
  !r.src.speculative ||
    (inRegion s r.tn r.addr r.len && decide (2 * ((specUse s r.tn).1 + 1) ≤ s.rd .TN_ALLOWANCE r.tn) &&
      decide (2 * ((specUse s r.tn).2 + cellsFor r) ≤ s.rd .TN_CB_UNITS r.tn * 64))

/-- The requests of a link that stand first in their source's order. -/
def headsAux (before : HReq → HReq → Bool) : List HReq → List HReq → List HReq
  | _, [] => []
  | seen, r :: rest =>
    if seen.any (before r) then headsAux before (seen ++ [r]) rest else r :: headsAux before (seen ++ [r]) rest

/-- A request of an order lane whose interrupt MSG's message is still to leave: it came after that MSG (R123). -/
def behindMsg (q : List HReq) (r : HReq) : Bool :=
  q.any (fun x => match x.src with | .msix _ (some k) => decide (qKey r = .lane k.1 k.2) | _ => false)

/-- The requests of a link that may leave next as far as order goes.  A speculative read that its half does not admit keeps no
demand of its channel waiting (R137, R159). -/
def heads (s : State) (h : Nat) : List HReq :=
  let q := linkQueue s h
  (headsAux (fun r x => before r x && (specMay s (cutTlp s x).1 || r.src.speculative)) [] q).filter (fun r => !behindMsg q r)

/-- A freeze lets a request pass: it does not hold it, and of its own tenant's it is a write, its flush read or a sheaf's
(R305, R120). -/
def freezePasses (s : State) (r : HReq) : Bool :=
  !r.frozen && (256 ≤ r.tn || s.tnState r.tn != 3 || r.isWrite ||
    (match r.src with | .freezeFlush _ | .harvestFlush _ _ | .sheafFlush _ _ _ _ => true | _ => false))

/-- Requests that no bucket holds back (R281, R331): PF traffic, command fetches, replies and messages. -/
def unpaused (r : HReq) : Bool :=
  256 ≤ r.tn || (match r.src with | .msix _ _ => true | _ => false)

/-- A request carries no read (R274). -/
def HReq.reads (r : HReq) : Bool := match r.kind with | .write => false | _ => true

/-! ### Tags and cells -/

/-- Sum of the allowances of the tenants bound to, or PENDING on, a link (R134, R290). -/
def allowances (s : State) (h : Nat) : Nat :=
  ((List.range 256).map (fun n => if s.tnState n != 0 && s.rd .TN_HL n == h then s.rd .TN_ALLOWANCE n else 0)).sum

/-- The tag values that a function may use now (R136): first and number.  A VF's size is its PF's. -/
def tagSet (s : State) (f : Nat) : Nat × Nat :=
  let c := s.cf (pfIdx (fnHl f))
  if c.tag14 && s.on .HL_FLIT (fnHl f) then (256, 2048)
  else if c.tag10 then (256, 768)
  else if c.extTag then (0, 256)
  else (0, 32)

/-- A tag value is held by a function. -/
def tagHeld (s : State) (f v : Nat) : Bool := s.tags.any (fun t => fnIdx t.req.fn == f && t.tag == v)

/-- A function has a tag value left of the set it may use (R136, R137). -/
def tagFree (s : State) (f : Nat) : Bool :=
  let (lo, n) := tagSet s f
  decide ((s.tags.filter (fun t => fnIdx t.req.fn == f && decide (lo ≤ t.tag) && decide (t.tag < lo + n))).length < n)

/-- Tags held on a link for its PF or for tenants. -/
def tagsOf (s : State) (h : Nat) (pf : Bool) : Nat :=
  (s.tags.filter (fun t => t.req.fn.hl.val == h && (decide (256 ≤ t.req.tn) == pf))).length

/-- Cells of the PF reserve of a tiller in use. -/
def pfCells (s : State) (t : Nat) : Nat :=
  ((s.tags.filter (fun x => hlTiller x.req.fn.hl.val == t && decide (256 ≤ x.req.tn) && !x.spare && !x.quarantined)).map
    (·.cells)).sum

/-- A tag and cells can be had for a read, and a speculative one lies in a run-ahead region (R134 to R137, R139, R140, R144,
R147, R159). -/
def canReserve (s : State) (r : HReq) : Bool :=
  let h := r.fn.hl.val
  let t := hlTiller h
  let n := cellsFor r
  let cons := conservative s t
  let held := tagsOf s h true + tagsOf s h false
  let tags := decide (held < 2048) &&
    (if 256 ≤ r.tn then decide (tagsOf s h true < 64 + (1984 - allowances s h))
     else decide (s.rd .TN_LIVE_TAGS r.tn < s.rd .TN_ALLOWANCE r.tn) && decide (tagsOf s h false < 1984))
  let cells :=
    if cons then decide (s.rd .TI_CONS_OUT t < 32) && !s.on .TI_READS_BLOCKED t
    else if 256 ≤ r.tn then decide (pfCells s t + n ≤ 256)
    else decide (s.rd .TN_CELLS_USED r.tn + n ≤ s.rd .TN_CB_UNITS r.tn * 64)
  tags && tagFree s (fnIdx r.fn) && cells && specMay s r

/-- A tenant that may not read (R274). -/
def noReads (s : State) (r : HReq) : Bool :=
  r.reads && decide (r.tn < 256) && s.rd .TN_ALLOWANCE r.tn == 0 && s.rd .TN_CB_UNITS r.tn == 0

/-! ### The choice of R283 -/

/-- What a tenant's weight is at an arbitration point (R284). -/
def weightOf (s : State) (tn : Nat) : Nat := if 256 ≤ tn then max 1 (s.rd .HUB_PF_WEIGHT) else s.rd .TN_WEIGHT tn

/-- A tenant is eligible for the deadline class (R284). -/
def eligible (s : State) (tn : Nat) : Bool := 256 ≤ tn || s.on .TN_ELIGIBLE tn

/-- The deadline by which a cadence packet is served: one late on arrival goes ahead of all others. -/
def HReq.urgency (r : HReq) : Nat := if r.late then 0 else r.deadline

/-- A head as the choice sees it: the request, its class and urgency with what waits behind it in its source (R111), and
whether a cadence packet of an eligible tenant is among them. -/
structure Head where
  req : HReq
  cls : Nat
  urg : Option Nat
  edf : Bool
  size : Nat

/-- The least of some numbers. -/
def least : List Nat → Option Nat
  | [] => none
  | a :: l => match least l with
    | some b => some (min a b)
    | none => some a

/-- A head with what it inherits. -/
def headOf (s : State) (h : Nat) (r : HReq) : Head :=
  let fifo := match qKey r with
    | .lane _ _ => (linkQueue s h).filter (fun x => decide (qKey x = qKey r))
    | _ => [r]
  let cad := fifo.filter (fun x => x.cls == 3)
  let el := cad.filter (fun x => eligible s x.tn)
  let one := (cutTlp s r).1
  { req := r
    cls := fifo.foldl (fun a x => max a x.cls) 0
    urg := least ((if el.isEmpty then cad else el).map HReq.urgency)
    edf := !el.isEmpty
    size := if one.data.isEmpty then 16 else one.data.length }

/-- The link passes TLPs: its data link is up and it is in L0; a device that has LTR enabled reports the active latency
first (R54, R57). -/
def linkOpen (s : State) (h : Nat) : Bool :=
  s.dlUp h && s.tlOn (hlTiller h) && s.rd .HL_LTSSM h == 3 && (!(s.cf (pfIdx h)).ltrEn || (s.hl h).ltrActive)

/-- A head is admitted: its bucket, the reaction, a freeze, the reset of its tenant and the dirty filter let it go, and a read can have
its tag and cells (R281, R283, R298, R324, R377). -/
def admitted (s : State) (r : HReq) : Bool :=
  (unpaused r || admits s r.tn r.charge) && freezePasses s r && !(s.react && r.isWrite && !r.exempt) && !logStalled s r &&
    (match r.src with | .intr _ _ _ _ => false | .msix _ _ => !fnResetting s (fnIdx r.fn) | _ => true) && (!r.reads || canReserve s (cutTlp s r).1)

/-- Quanta are added, round by round, until a tenant can go.  `k` bounds the rounds. -/
def addQuanta (s : State) (l : List Head) : Nat → Tbl Nat → Tbl Nat
  | 0, d => d
  | k + 1, d =>
    if l.any (fun x => decide (x.size ≤ tget 0 d x.req.tn)) then d
    else
      addQuanta s l k
        ((l.map (·.req.tn)).dedup.foldl (fun d tn => tset 0 d tn (tget 0 d tn + 256 * max 1 (weightOf s tn))) d)

/-- The class group of a tenant that goes first (R109): 3, 2, or 1 for normal and bulk together. -/
def group (x : Head) : Nat := if x.cls = 0 then 1 else x.cls

/-- Of some numbers the one whose turn it is, in cyclic order; `last` is one more than the one served last. -/
def cyclicNext (last : Nat) (l : List Nat) : Option Nat := (least (l.filter (fun f => decide (last ≤ f)))).or (least l)

/-- Within a tenant's turn the head may go (R109): the most urgent class first, the earliest deadline first within it,
normal only while bulk is not owed, and channels in turn (R259). -/
def withinTurn (s : State) (h : Nat) (mine : List Head) (x : Head) : Bool :=
  mine.all (fun y => group y ≤ group x &&
      (group y != 3 || group x != 3 || decide (x.urg.getD 0 ≤ y.urg.getD 0))) &&
    (x.cls != 1 || !mine.any (fun y => y.cls == 0) || decide (tget 0 (s.hl h).bulkOwed x.req.tn ≤ 0)) &&
    (x.req.src.chan.isNone ||
      cyclicNext (tget 0 (s.hl h).chTurn x.req.tn) (mine.filterMap (·.req.src.chan)) == x.req.src.chan)

/-- In conservative mode places go round robin by function (R144): of the functions of the tiller with an admitted read. -/
def consNext (s : State) (t : Nat) (fs : List Nat) : Option Nat := cyclicNext (tget 0 s.consLast t) fs

/-- Functions of a tiller with an admitted read at the head of a source. -/
def consFns (s : State) (t : Nat) : List Nat :=
  (List.range 4).flatMap (fun j =>
    ((heads s (4 * t + j)).filter (fun r => r.reads && linkOpen s (4 * t + j) && admitted s r)).map (fun r => fnIdx r.fn))

/-- The choice allows request `r` to go next on link `h`: the deficits as they stand then, or none.  In conservative mode
reads have their own turn (R144), and the choice among writes knows none of them. -/
def allowed (s : State) (h : Nat) (r : HReq) : Option (Tbl Nat) :=
  let cons := conservative s (hlTiller h)
  let hs := ((heads s h).filter (fun x => admitted s x && (!cons || x.reads == r.reads))).map (headOf s h)
  let d := (s.hl h).deficit
  match hs.find? (fun x => decide (x.req = r)) with
  | none => none
  | some x =>
    if cons && r.reads then
      if consNext s (hlTiller h) (consFns s (hlTiller h)) = some (fnIdx r.fn) &&
          withinTurn s h (hs.filter (fun y => decide (y.req.fn = r.fn))) x then some d else none
    else
      let edf := hs.filter (·.edf)
      if !edf.isEmpty then
        let k (y : Head) : Nat := y.urg.getD 0 * 512 + y.req.tn
        if x.edf && edf.all (fun y => decide (k x ≤ k y)) then some d else none
      else
        let heavy := hs.filter (fun y => weightOf s y.req.tn != 0)
        let cand := if heavy.isEmpty then hs else heavy
        if !cand.any (fun y => decide (y.req = r)) then none
        else
          let d := addQuanta s cand 64 d
          if decide (x.size ≤ tget 0 d r.tn) && withinTurn s h (hs.filter (fun y => y.req.tn == r.tn)) x then
            some (tset 0 d r.tn (tget 0 d r.tn - x.size))
          else none

/-- The bulk account of a tenant after a head has gone (R109). -/
def bulkAccount (s : State) (h : Nat) (r : HReq) : Tbl Int :=
  let hs := (((heads s h).filter (admitted s)).map (headOf s h)).filter (fun y => y.req.tn == r.tn)
  let b := (s.hl h).bulkOwed
  match hs.find? (fun x => decide (x.req = r)) with
  | none => b
  | some x =>
    let both := hs.any (fun y => y.cls == 0) && hs.any (fun y => y.cls == 1)
    if x.cls > 1 then b
    else if !both then tset 0 b r.tn 0
    else tset 0 b r.tn (tget 0 b r.tn + (if x.cls = 1 then (x.size : Int) else -7 * (x.size : Int)))

/-! ### Leaving -/

/-- The tiller from which a request's bytes come or to which its completion data goes, its host link's own for what stays
in it (R13, R17).  A sheaf's bytes have crossed to the tiller when its packet entered the sheaf. -/
def HSrc.tiller (s : State) (h : Nat) : HSrc → Nat
  | .window wl _ _ _ _ _ _ => wlTiller wl
  | .gap _ _ wl _ => wlTiller wl
  | .sheafCopy _ _ _ _ | .intr _ _ _ _ => hlTiller h
  | .logRead tn _ | .logWrite tn _ => homeTiller s tn
  | x => (x.chan.map chTiller).getD (hlTiller h)

/-- The address at which a flush read is made (R154): the DW of the last byte of the writes it covers. -/
def flushAddr (s : State) (r : HReq) : Nat :=
  match r.src with
  | .window wl lane _ _ _ _ _ =>
    match (s.wl wl).laneLast.find? (fun e => e.1 == lane && e.2.1 == fnIdx r.fn) with
    | some e => e.2.2 / 4 * 4
    | none => r.addr / 4 * 4
  | .dmaFlush c => (s.ch c).lastWrite / 4 * 4
  | .harvestFlush tn true => (((s.log tn).bind (·.lastBitmap)).getD r.addr) / 4 * 4
  | .harvestFlush tn false | .freezeFlush tn => ((s.ten tn).lastByte.getD r.addr) / 4 * 4
  | _ => r.addr

/-- A message's address and data as the vector's table entry stands when it is sent (R323). -/
def fillMsix (s : State) (r : HReq) : HReq :=
  match r.src with
  | .msix v _ => { r with addr := (s.vec (fnIdx r.fn) v).addr, data := le 4 (s.vec (fnIdx r.fn) v).data }
  | _ => r

/-- The bucket of the tenant is charged (R280, R281).  A source outside the home tiller obtains a grant of exactly its charge (R282;
DESIGN CHOICE, log entry 69). -/
def chargeBucket (r : HReq) (s : State) : State :=
  if 256 ≤ r.tn || r.charge = 0 || !bucketKept s r.tn then s
  else (setBucket r.tn (bucketOf s r.tn - (r.charge : Nat)) s).add .TN_CHARGED_CNT r.charge r.tn

/-- What the bridge remembers of the last byte written, for flush reads (R154, R301, R305). -/
def noteLast (r : HReq) (s : State) : State :=
  let b := r.addr + r.len - 1
  let s := withSome (if r.isWrite then s.boundTn (fnIdx r.fn) else none)
    (fun tn s => s.modTen tn (fun t => { t with lastByte := some b })) s
  match r.kind, r.src with
  | .write, .window wl lane _ _ _ _ _ => s.modWl wl (fun w => { w with
      laneLast := w.laneLast.filter (fun e => !(e.1 == lane && e.2.1 == fnIdx r.fn)) ++ [(lane, fnIdx r.fn, b)] })
  | .write, .sheafCopy _ _ wl lane => s.modWl wl (fun w => { w with
      laneLast := w.laneLast.filter (fun e => !(e.1 == lane && e.2.1 == fnIdx r.fn)) ++ [(lane, fnIdx r.fn, b)] })
  | .write, .dmaWrite c _ => s.modCh c (fun x => { x with lastWrite := b })
  | .write, .dmaWriteBack c => s.modCh c (fun x => { x with lastWrite := b })
  | .write, .logWrite tn _ => s.modLog tn (fun l => { l with lastBitmap := some b })
  | _, _ => s

/-- The counters of a TLP that enters the transmit order (Table OB-5). -/
def countTlp (r : HReq) (s : State) : State :=
  let h := r.fn.hl.val
  let n := r.data.length
  let s := txTlp h n s
  let s := hubCross (r.src.tiller s h) (hlTiller h) n s
  match s.boundTn (fnIdx r.fn) with
  | some tn =>
    match r.src with
    | .msix _ _ => (s.inc .CT_TN_MSIX_SENT tn).inc .FI_IN_SENT_CNT (fnIdx r.fn)
    | _ => s.add .CT_TN_WR_BYTES n tn
  | none =>
    match r.src with
    | .msix _ _ => s.inc .FI_IN_SENT_CNT (fnIdx r.fn)
    | _ => s

/-- Take `r` out of the queue and leave what remains of it in its place. -/
def replaceReq (r : HReq) (rest : Option HReq) (s : State) : State :=
  { s with hostQ := match rest with
      | some x => s.hostQ.replace r x
      | none => s.hostQ.erase r }

/-- A producer count has left: the stream records before number `upto` are written, but for `skipped` of them (R465, R466). -/
def streamSent (upto skipped count : Nat) (s : State) : State :=
  when (decide (s.trace.strSent < upto)) (fun s => s.modTrace (fun t => { t with
    strSent := upto, strWaited := t.strWaited.drop (upto - t.strSent), strDone := count })) (s.add .TR_SKIP_CNT skipped)

/-- What follows the last TLP of a request entering the transmit order. -/
def lastTlp (r : HReq) (s : State) : State :=
  match r.src with
  | .window wl _ tag win _ ack _ =>
    let s := releaseWindow r s
    let s := lateCheck r win 0 (fun s => s.inc .CT_OW_LATE win) s
    if r.isWrite && ack then withSome (locReq s wl tag) (fun q s => answerLoc q 0 s) s else s
  | .sheafCopy id d _ _ => copyAccepted r id d s
  | .dmaWrite c d => chWriteIssued c d s
  | .dmaFlush c => chFlushIssued c s
  | .dmaFetch c _ | .dmaReread c _ => s.modCh c (fun x => { x with dbSinceFetch := false })
  | .dmaRead c _ _ | .runAhead c _ _ | .readAhead c _ _ => pump c s
  | .logWrite tn _ => logSettle tn s
  | .stream (some (upto, skipped)) => streamSent upto skipped (leNat r.data) s
  | _ => s

/-- A tenant with nothing waiting on a link loses its deficit. -/
def idleDeficit (h tn : Nat) (s : State) : State :=
  if (linkQueue s h).any (fun r => r.tn == tn && !r.frozen) then s
  else s.modHl h (fun l => { l with deficit := tset 0 l.deficit tn 0, bulkOwed := tset 0 l.bulkOwed tn 0 })

/-- A channel has had its turn among those of its tenant (R259). -/
def chanServed (r : HReq) (s : State) : State :=
  withSome r.src.chan (fun c s => s.modHl r.fn.hl.val (fun l => { l with chTurn := tset 0 l.chTurn r.tn (c + 1) })) s

/-- The TLP enters the link's transmit order (R283): charged, sent, counted, logged. -/
def sendTlp (r : HReq) (tag : Nat) (s : State) : State :=
  let h := r.fn.hl.val
  let (r1, rest) := cutTlp s r
  let r1 := fillMsix s { r1 with addr := if r1.kind = .flush then flushAddr s r1 else r1.addr }
  let s := replaceReq r rest (chargeBucket r1 (chanServed r1 s))
  let s := emit (.tlp r1 tag) (noteLast r1 (countTlp r1 s))
  let s := logWrite r1 s
  let s := if rest.isNone then lastTlp r1 s else s
  let s := settleIntr 1024 (idleDeficit h r.tn s)
  when (decide (r.tn < 256)) (showHeld r.tn) s

/-- The request at place `pos` of a link's queue. -/
def atPos (s : State) (h pos : Nat) : Option HReq := (linkQueue s h)[pos]?

/-- A waiting request whose function masters none is discarded when its turn comes (R62, R156). -/
def dropUndeliverable (r : HReq) (s : State) : State :=
  discardWaiting (fun x => decide (x = r)) (undeliverable s (fnIdx r.fn)) s

/-- HOST_TLP_ISSUE (R283, R15): a write that waits on link `hl` at place `pos` enters the transmit order, one TLP of it. -/
def execHostTlpIssue (hl : Hl) (pos : Nat) (s : State) : Res :=
  let h := hl.val
  .next (freezeSettle (
    match atPos s h pos with
    | none => s
    | some r =>
      if r.reads then s
      else if undeliverable s (fnIdx r.fn) != 0 then dropUndeliverable r s
      else if !linkOpen s h then s
      else if logStalled s r && !r.stalled && (heads s h).contains r then
        ({ s with hostQ := s.hostQ.replace r { r with stalled := true } } : State).inc .CT_TL_LOG_STALL (hlTiller h)
      else
        match allowed s h r with
        | none => s
        | some d =>
          let b := bulkAccount s h r
          sendTlp r 0 (s.modHl h (fun l => { l with deficit := d, bulkOwed := b }))))

/-- The tag and cells of a read are taken (R134 to R140, R144). -/
def reserve (r : HReq) (tag : Nat) (s : State) : State :=
  let h := r.fn.hl.val
  let t := hlTiller h
  let cons := conservative s t
  let n := cellsFor r
  let s : State := { s with tags := s.tags ++ [⟨r, tag, 0, [], n, false, false, false, cons⟩] }
  let s := s.inc .TI_OUTSTANDING t (h % 4)
  let s := when (decide (r.tn < 256)) (fun s => s.inc .TN_LIVE_TAGS r.tn) s
  if cons then { (s.inc .TI_CONS_OUT t) with consLast := tset 0 s.consLast t (fnIdx r.fn + 1) }
  else
    let s := s.add .TI_CELLS_USED n t
    when (decide (r.tn < 256)) (fun s => s.add .TN_CELLS_USED n r.tn) s

/-- A read of a tenant that may not read fails at once, as for UR (R274): when its turn comes, without waiting for the link, its bucket
or a tag (DESIGN CHOICE, log entry 68). -/
def refuseRead (r : HReq) (s : State) : State :=
  let s := (replaceReq r none s).inc .TN_NOREAD_CNT r.tn
  settleIntr 1024 (failSrc r 8 (releaseWindow r s))

/-- The next TLP of a read takes its cells and its tag and enters the transmit order; a flush read takes the address of its last
covered byte (R137, R154). -/
def readTlp (r : HReq) (tag : Nat) (s : State) : State :=
  let one := (cutTlp s r).1
  let one := { one with addr := if one.kind = .flush then flushAddr s one else one.addr }
  let s := when (r.kind == .flush) (fun s => s.inc .TI_RQ_FLUSH_CNT (hlTiller r.fn.hl.val)) s
  sendTlp r tag (reserve one tag s)

/-- HOST_READ_ISSUE (R137): a read, flush read or AtomicOp that waits on link `hl` at place `pos` gets the tag value `tag`
and its cells and enters the transmit order.  A speculative read that still waits when its region is removed is dropped and counted
as one that was issued (R160; DESIGN CHOICE, log entry 85). -/
def execHostReadIssue (hl : Hl) (pos tag : Nat) (s : State) : Res :=
  let h := hl.val
  .next (
    match atPos s h pos with
    | none => s
    | some r =>
      let f := fnIdx r.fn
      let (lo, n) := tagSet s f
      if !r.reads then s
      else if undeliverable s f != 0 then dropUndeliverable r s
      else if r.src.speculative && !inRegion s r.tn r.addr r.len then failSrc r 8 (replaceReq r none s)
      else if noReads s r then (if (heads s h).contains r then refuseRead r s else s)
      else if !linkOpen s h || tag < lo || lo + n ≤ tag || tagHeld s f tag then s
      else if logStalled s r && !r.stalled && (heads s h).contains r then
        ({ s with hostQ := s.hostQ.replace r { r with stalled := true } } : State).inc .CT_TL_LOG_STALL (hlTiller h)
      else
        match allowed s h r with
        | none => s
        | some d =>
          let b := bulkAccount s h r
          readTlp r tag (s.modHl h (fun l => { l with deficit := d, bulkOwed := b })))

/-! ### Completions -/

/-- The tag a completion names (R142): held by the function whose Requester ID it carries. -/
def tagOf (s : State) (f tag : Nat) : Option HTag := s.tags.find? (fun t => fnIdx t.req.fn == f && t.tag == tag)

/-- Bytes that a request's completions return. -/
def replyLen (r : HReq) : Nat :=
  match r.kind with
  | .read => r.len
  | .atomic sub => if sub = 2 then r.data.length / 2 else r.data.length
  | _ => 0

/-- The tenant a host request is issued for, a VF's command fetches included, and its generation. -/
def reqTenant (s : State) (r : HReq) : Option (Nat × Nat) :=
  if r.tn < 256 then some (r.tn, r.gen) else (s.boundTn (fnIdx r.fn)).map (fun n => (n, s.rd .TN_GENERATION n))

/-- The master that a requester event names: the tenant, or the host link for a PF's request. -/
def reqMaster (s : State) (r : HReq) : Master :=
  match reqTenant s r with
  | some (n, g) => mTn n g
  | none => mHl r.fn.hl.val

/-- Count in a counter of the request's tenant. -/
def countTenant (c : Fld) (r : HReq) (s : State) : State := withSome (reqTenant s r) (fun e s => s.inc c e.1) s

/-- Bits of Lower Address that a completion on a link carries: seven outside flit mode (PRESUMED, log entry 36); the spec does
not give the width of flit mode. -/
def lowerBits (s : State) (h : Nat) : Nat := if s.on .HL_FLIT h then Config.flitLowerBits else 7

/-- The Read Completion Boundary of a link's host: 64 or 128 bytes, as Link Control says (PRESUMED, log entry 36). -/
def rcb (s : State) (h : Nat) : Nat := if (s.cf (pfIdx h)).rcb128 then 128 else 64

/-- The bytes that a request's completions have still to account for: one for a flush read. -/
def cplRem (t : HTag) : Nat := if t.req.kind = .flush then 1 else replyLen t.req - t.got

/-- A completion's Length, Byte Count and Lower Address are what the PCI Express Base Specification requires of the
completer for the request (R142).  One with an error status carries no data, and its Lower Address is not compared (log
entry 36). -/
def consistent (s : State) (t : HTag) (c : HostCpl) : Bool :=
  let r := t.req
  let h := r.fn.hl.val
  let n := c.data.length
  let low (a : Nat) : Bool := c.lowerAddr % 2 ^ lowerBits s h == a % 2 ^ lowerBits s h
  if c.status != 0 then c.length == 0 && n == 0 && c.byteCount == cplRem t
  else
    match r.kind with
    | .read =>
      let a := r.addr + t.got
      c.byteCount == cplRem t && low a && decide (0 < n) && decide (n ≤ cplRem t) && c.length == (a % 4 + n + 3) / 4 &&
        (n == cplRem t || (a + n) % rcb s h == 0)
    | .flush => c.byteCount == 1 && low r.addr && c.length == 1 && decide (n ≤ 4)
    | .atomic _ => c.byteCount == replyLen r && c.lowerAddr == 0 && n == replyLen r && c.length == (n + 3) / 4
    | .write => false

/-- A completion that matches nothing outstanding, or does not fit its request (R142). -/
def unexpectedCpl (f addr : Nat) (s : State) : State :=
  ward (hlTiller (fnHl f)) 13 (mFn f) 9 addr (s.inc .TI_RQ_UNEXP_CNT (hlTiller (fnHl f)))

/-- An AER error of a function beside internal errors: Completion Timeout (bit 14) or Poisoned TLP (bit 12), under its
mask, severity and enables. -/
def aerErr (f bit : Nat) (s : State) : State :=
  if !fnEnabled s f || !s.tlOn (hlTiller (fnHl f)) then s
  else
    let c := s.cf f
    let s := aerUncSet bit f s
    if c.uncMask.testBit bit then s
    else if c.uncSev.testBit bit then when c.fatalEn (sendMsg f .errFatal) s
    else when c.nonFatalEn (sendMsg f .errNonFatal) s

/-- A tag answered in full, or by an error, is freed; a tiller's frozen channels and halted ones see it. -/
def endTag (t : HTag) (s : State) : State := showBlocked (hlTiller t.req.fn.hl.val) (releaseTag t s)

/-- An error completion (R153).  Status RRS, which the rule does not name, is handled as CA (DESIGN CHOICE, log entry 84). -/
def errorCpl (t : HTag) (c : HostCpl) (s : State) : State :=
  let r := t.req
  let f := fnIdx r.fn
  let ca := c.status != 1 || c.poisoned
  let s := endTag t s
  let s := countTenant (if ca then .CT_TN_CA_CPL else .CT_TN_UR_CPL) r s
  let s := when c.poisoned (aerErr f 12) s
  let s := when ca (ward (hlTiller (fnHl f)) 23 (reqMaster s r) 9 r.addr) s
  failSrc r (if ca then 9 else 8) s

/-- Cells that remain reserved after `got` bytes have been forwarded (R141). -/
def cellsLeft (r : HReq) (got : Nat) : Nat := (r.addr + r.len + 63) / 64 - (r.addr + got) / 64

/-- A completion with SC that fits: its data is forwarded in ascending order, and the last one ends the request. -/
def goodCpl (t : HTag) (c : HostCpl) (s : State) : State :=
  let r := t.req
  let b := if r.kind = .flush then [] else c.data
  let got := t.got + b.length
  let all := t.data ++ b
  let s := withSome (s.boundTn (fnIdx r.fn)) (fun tn s => s.add .CT_TN_RD_BYTES b.length tn) s
  let s := hubCross (hlTiller r.fn.hl.val) (r.src.tiller s r.fn.hl.val) b.length s
  if replyLen r ≤ got then succeed r all (deliverData r t.got b (endTag t s))
  else
    let left := min t.cells (cellsLeft r got)
    let s := freeCells (t.cells - left) t s
    let s := s.mapTags (fun x => if x = t then { x with got := got, data := all, cells := left } else x)
    deliverData r t.got b s

/-- A completion for a tag that is held: one in quarantine, or one whose answers are dropped, is freed by the first that
arrives (R150, R151, R156, R158). -/
def heldCpl (t : HTag) (c : HostCpl) (s : State) : State :=
  let r := t.req
  let f := fnIdx r.fn
  let til := hlTiller (fnHl f)
  if t.quarantined && !t.timedOut then endTag t (countTenant .TN_STALE_CNT r (s.inc .TI_RQ_STALE_CNT til))
  else if t.quarantined then
    let s := s.inc .TI_RQ_LATE_CNT til
    let s := traceFn f 0x0305 (t.tag % 65536) s
    endTag t (ward til 13 (mFn f) 9 r.addr s)
  else if t.dropped then endTag t (s.inc .TI_RQ_DROP_CNT til)
  else if !consistent s t c then unexpectedCpl f r.addr s
  else if c.status != 0 || c.poisoned then errorCpl t c s
  else goodCpl t c s

/-- A completion that no tag waits for: it is stale where its tag was discarded from quarantine with its domain (R412), and
unexpected otherwise (R142). -/
def strayCpl (f tag : Nat) (s : State) : State :=
  match (s.hl (fnHl f)).stale.find? (fun x => fnIdx x.req.fn == f && x.tag == tag) with
  | some x =>
    countTenant .TN_STALE_CNT x.req ((s.inc .TI_RQ_STALE_CNT (hlTiller (fnHl f))).modHl (fnHl f) (fun l => { l with stale := l.stale.erase x }))
  | none => unexpectedCpl f 0 s

/-- HOST_COMPLETION (R141, R142, R151, R153, R156, R158). -/
def execHostCompletion (c : HostCpl) (s : State) : Res :=
  let f := fnIdx c.fn
  let h := fnHl f
  .next (freezeSettle (
    if !s.dlUp h || !s.tlOn (hlTiller h) then s
    else
      let s := rxTlp h c.data.length s
      match tagOf s f c.tag with
      | none => strayCpl f c.tag s
      | some t => heldCpl t c s))

/-- COMPLETION_TIMEOUT (R148, R149): a request's timer has expired; one whose answer is dropped is not reported (R156). -/
def execCompletionTimeout (fn : Fn) (tag : Nat) (s : State) : Res :=
  let f := fnIdx fn
  let til := hlTiller (fnHl f)
  .next (freezeSettle (
    match tagOf s f tag with
    | none => s
    | some t =>
      if t.quarantined then s
      else
        let r := t.req
        let s := showBlocked til (quarantineTag t true s)
        if t.dropped then s
        else
          let s := s.inc .TI_RQ_CTO_CNT til
          let s := countTenant .CT_TN_CTO r s
          let s := traceFn f 0x0304 (tag % 65536) s
          let s := aerErr f 14 s
          let s := ward til 22 (reqMaster s r) 4 r.addr s
          failSrc r 10 s))

/-- QUARANTINE_EXPIRY (R150): twice the completion timeout has passed since the request of a quarantined tag was issued. -/
def execQuarantineExpiry (fn : Fn) (tag : Nat) (s : State) : Res :=
  .next (
    match tagOf s (fnIdx fn) tag with
    | some t => if t.quarantined then endTag t s else s
    | none => s)

end Sys2Proof.Machine
end

