-- ==== Sys2Proof/Machine/Transactions.lean ====
section
/-!
DEFINITION. Packets of local designs and of hosts (chapters 5 and 9): translation through the windows, the answers of
local designs, and host requests to inbound windows.
-/
namespace Sys2Proof.Machine

/-! ### Outbound -/

/-- The payload of a packet, as long as its LEN says. -/
def payloadOf (p : Pkt) : Bytes := sub p.payload 0 p.len

/-- Why an outbound packet is not translated, as a CAUSE (R100, R101): 0 when it is.  `bit` is its access bit. -/
def missCause (s : State) (n i : Nat) (p : Pkt) (bit : Fld) : Nat :=
  let tn := (owDest s i).2
  if owBase s i + owSize s i < p.addr + p.len then 1
  else if !s.on bit i then 2
  else if s.on .OW_SHEAF i then (if p.typ == 1 || (p.typ == 2 && p.len == 0) then 0 else 2)
  else if tn < 256 && !permits s tn n then 3
  else 0

/-- A tenant is being reset. -/
def resetting (s : State) (tn : Nat) : Bool := decide (tn < 256) && s.tnState tn == 2

/-- A request for a tenant that is being reset is answered UR, TENANT_RESET (R287). -/
def resetRefuses (n : Nat) (p : Pkt) (s : State) : State :=
  let s := releasePkt n p s
  if p.typ = 1 then when p.ackReq (respond n p.lane p.tag 5 7) s else respond n p.lane p.tag 3 7 s

/-- Open a request of a local design. -/
def openLoc (q : LocReq) (s : State) : State := { s with locReqs := s.locReqs ++ [q] }

/-- A request of a local design as it is received. -/
def locOf (n : Nat) (p : Pkt) (len tn hl win : Nat) : LocReq :=
  ⟨n, p.tag, p.lane, p.typ, p.addr, len, tn, hl, win, 1, [], 0, 0, 0, 0⟩

/-- A translated packet goes on to its destination through window `i` (R100, R103, R104, R112, R125). -/
def passOn (n i : Nat) (p : Pkt) (kind : HKind) (len charge : Nat) (s : State) : State :=
  let (f, tn) := owDest s i
  let cause := undeliverable s f
  if cause != 0 then destRefuses n p (fnHl f) cause s
  else if resetting s tn then resetRefuses n p s
  else
    let a := owHost s i + (p.addr - owBase s i)
    let ack := p.tag != freshTag && (p.typ != 1 || p.ackReq)
    let data := if p.typ = 2 then [] else payloadOf p
    let flush := kind == .flush
    let r := { hreq s f kind a p.len data (.window n p.lane p.tag i 0 ack true) tn with
               charge := if tn < 256 then charge else 0
               ro := p.ro && (p.typ == 1 || (p.typ == 2 && !flush)) && s.on .OW_RO_OK i && (s.cf f).roEn
               ido := !flush && s.on .OW_IDO_OK i && (s.cf f).idoEn }
    let s := when ack (openLoc (locOf n p len tn (fnHl f) i)) s
    let (r, s) := classed i 0 r s
    if noReads s r then refuseRead r { s with hostQ := s.hostQ ++ [r] }
    else submitLocal r s

/-- LOCAL_MWR's effect (R100, R101, R103, R120). -/
def localMwr (n : Nat) (p : Pkt) (s : State) : State :=
  if p.ackReq && tagOpen s n p.tag then malformedTag n p s
  else if p.len = 0 || 512 < p.len then malformed n p s
  else
    match findOut s n p.addr with
    | none => windowMiss n p 1 s
    | some i =>
      let c := missCause s n i p .OW_WR
      if c != 0 then windowMiss n p c s
      else if s.on .OW_SHEAF i then
        enterSheaf (s.rd .OW_TNID i) i n { p with payload := payloadOf p } (when p.ackReq (openLoc (locOf n p 0 256 32 i)) s)
      else passOn n i p .write 0 p.len s

/-- LOCAL_MWR (R100): an MWR of a local design. -/
def execLocalMwr (wl : Wl) (p : Pkt) (s : State) : Res := .next (localPacket wl.val p [1] (localMwr wl.val) s)

/-- A flush of a sheaf (R120): it waits for the earlier copies of its lane, then reads behind them. -/
def flushSheaf (n i : Nat) (p : Pkt) (s : State) : State :=
  let q : LocReq := { locOf n p 0 256 32 i with parts := 0, returned := s.rd .OW_TNID i, sentParts := s.pktCount + 1 }
  when (p.tag != freshTag) (fun s => settleSheaves (openLoc q (releasePkt n p s))) s

/-- LOCAL_MRD's effect (R100, R120, R155). -/
def localMrd (n : Nat) (p : Pkt) (s : State) : State :=
  if tagOpen s n p.tag then malformedTag n p s
  else if 4096 < p.len then malformed n p s
  else
    match findOut s n p.addr with
    | none => windowMiss n p 1 s
    | some i =>
      let c := missCause s n i p .OW_RD
      if c != 0 then windowMiss n p c s
      else if s.on .OW_SHEAF i then flushSheaf n i p s
      else passOn n i p (if p.len = 0 then .flush else .read) p.len p.len s

/-- LOCAL_MRD (R100): an MRD of a local design; a zero-length one is a flush. -/
def execLocalMrd (wl : Wl) (p : Pkt) (s : State) : Res := .next (localPacket wl.val p [2] (localMrd wl.val) s)

/-- The operations and lengths of Table WT-6. -/
def atomOk (sub len : Nat) : Bool :=
  (sub == 0 && [4, 8].contains len) || (sub == 1 && [4, 8].contains len) || (sub == 2 && [8, 16, 32].contains len)

/-- The conditions of R127: the operand naturally aligned, for CAS both values together, and AtomicOp Requester Enable. -/
def atomMay (s : State) (i : Nat) (p : Pkt) : Bool :=
  (owHost s i + (p.addr - owBase s i)) % p.len == 0 && (s.cf (owDest s i).1).atomicEn

/-- LOCAL_ATOM's effect (R127, R232). -/
def localAtom (n : Nat) (p : Pkt) (s : State) : State :=
  if tagOpen s n p.tag then malformedTag n p s
  else if !atomOk p.sub p.len then malformed n p s
  else
    match findOut s n p.addr with
    | none => windowMiss n p 1 s
    | some i =>
      let c := missCause s n i p .OW_AT
      if c != 0 then windowMiss n p c s
      else if undeliverable s (owDest s i).1 == 0 && !resetting s (owDest s i).2 && !atomMay s i p then
        respond n p.lane p.tag 3 12 (releasePkt n p s)
      else passOn n i p (.atomic p.sub) (if p.sub = 2 then p.len / 2 else p.len) p.len s

/-- LOCAL_ATOM (R127): an ATOM of a local design. -/
def execLocalAtom (wl : Wl) (p : Pkt) (s : State) : Res := .next (localPacket wl.val p [6] (localAtom wl.val) s)

/-! ### Interrupt messages (R122) -/

/-- An interrupt MSG is mapped to a vector, which it raises behind the earlier packets of its lane (R122 to R124). -/
def interruptMsg (n : Nat) (p : Pkt) (s : State) : State :=
  match findInt s n p.num with
  | none => windowMiss n p 0 s
  | some i =>
    let toPf := s.on .NW_TO_PF i
    let tn := if toPf then 256 else s.rd .NW_TNID i
    if tnDead s tn || (decide (tn < 256) && !permits s tn n) then windowMiss n p 0 s
    else
      let f := if toPf then pfIdx (s.rd .NW_PF_HL i) else s.tnFn tn
      if !s.tlOn (hlTiller (fnHl f)) then releasePkt n p s
      else
        let v := s.rd .NW_VEC_BASE i + (p.num - s.rd .NW_MSG_BASE i)
        settleIntr 1024 (submitLocal (hreq s f .write 0 0 [] (.intr (if p.tag = freshTag then n + 96 else n) p.lane v i) tn) s)

/-- A MSG of a local design: INTERRUPT, or a DOORBELL of a peer link, which counts as one (R233, R477); any other is
malformed. -/
def localMsg (n : Nat) (p : Pkt) (s : State) : State :=
  if p.len != 0 then malformed n p s
  else if p.sub = 1 || (p.sub = 2 && (s.wl n).peerLink) then interruptMsg n p s
  else malformed n p s

/-- LOCAL_INTERRUPT_MSG (R122): a MSG of a local design. -/
def execLocalInterruptMsg (wl : Wl) (p : Pkt) (s : State) : Res :=
  .next (localPacket wl.val p [7] (localMsg wl.val) s)

/-- PEER_DOORBELL (R477): a DOORBELL received on a peer link is an interrupt MSG whose MSG_NUM is its DB_NUM. -/
def execPeerDoorbell (wl : Wl) (p : Pkt) (s : State) : Res :=
  .next (when (decide (p.typ = 7) && p.sub == 2) (localPacket wl.val p [7] (localMsg wl.val)) s)

/-! ### IDENT (R235) -/

/-- MAX_RD of an IDENT payload in bytes (Table WT-7). -/
def identMaxRd (b : Bytes) : Nat :=
  let m := num b 8 2 % 128
  if m = 0 then 4096 else min 4096 (64 * m)

/-- A LNK of a local design: the partner's IDENT is held and its MAX_RD applied, unless it came before the link started fresh (R220);
another kind is only counted. -/
def localLnk (n : Nat) (p : Pkt) (s : State) : State :=
  if p.sub != 1 then releasePkt n p (s.inc .CT_WL_MALFORMED n)
  else if p.len != 32 then malformed n p s
  else
    let p := { p with payload := payloadOf p }
    releasePkt n p (when (p.tag != freshTag) (fun s => s.modWl n (fun w => { w with
      ident := some p, maxRd := identMaxRd p.payload })) s)

/-- IDENT_RECEIVED (R235). -/
def execIdentReceived (wl : Wl) (p : Pkt) (s : State) : Res := .next (localPacket wl.val p [8] (localLnk wl.val) s)

/-! ### Host requests to inbound windows (R105 to R107) -/

/-- A completion to a host enters the link's transmit order, if its data link is up (R54, R57). -/
def sendCpl (f hostTag status byteCount : Nat) (data : Bytes) (s : State) : State :=
  let h := fnHl f
  when (s.dlUp h) (fun s =>
    emit (.cpl (fnOf f) hostTag status byteCount data) (txTlp h data.length (readyTlp h s))) s

/-- Bytes of the next completion of a host read: as much as is at hand, at most Max_Payload_Size, ending on a 64-byte
boundary unless it is the last. -/
def cplLen (s : State) (q : InRd) (have_ : Nat) : Nat :=
  let rem := q.req.len - q.sent
  let n := min have_ (maxPayload s (fnIdx q.req.fn))
  if n = rem then n else (q.req.offset + q.sent + n) / 64 * 64 - (q.req.offset + q.sent)

/-- The host read with an identifier. -/
def inRd (s : State) (id : Nat) : Option InRd := s.inRds.find? (fun q => q.id == id)

/-- Send the completions of a host read that its data allows, in ascending order (R107).  `k` bounds their number. -/
def sendHostCpls (id : Nat) : Nat → State → State
  | 0, s => s
  | k + 1, s =>
    match inRd s id with
    | none => s
    | some q =>
      let data := gather q.done (q.done.length + 1) q.sent
      let n := cplLen s q data.length
      if n = 0 then s
      else
        let s := sendCpl (fnIdx q.req.fn) q.req.hostTag 0 (q.req.len - q.sent) (data.take n) s
        if q.sent + n = q.req.len then { s with inRds := s.inRds.erase q }
        else
          let q' := { q with
            sent := q.sent + n
            done := (q.sent + n, data.drop n) :: q.done.filter (fun e => decide (q.sent + data.length ≤ e.1)) }
          sendHostCpls id k { s with inRds := s.inRds.map (fun x => if x = q then q' else x) }

/-- A part of a host read needs nothing more. -/
def partEnds (q : InRd) (s : State) : State :=
  { s with inRds := if q.parts ≤ 1 then s.inRds.erase q
      else s.inRds.map (fun x => if x = q then { q with parts := q.parts - 1 } else x) }

/-- A host read ends with an error status: 1 UR, 4 CA. -/
def failInRd (id status : Nat) (s : State) : State :=
  match inRd s id with
  | none => s
  | some q =>
    if q.failed != 0 then partEnds q s
    else sendCpl (fnIdx q.req.fn) q.req.hostTag status (q.req.len - q.sent) [] { s with inRds := s.inRds.erase q }

/-- A host read ends because its Weaseif link is unavailable: UR, and a CONT fault naming the function (R16). -/
def unavailable (f off : Nat) (write : Bool) (s : State) : State :=
  ward (hlTiller (fnHl f)) 25 (mFn f) (if write then 5 else 4) off s

/-- A part of a host read's data arrives from the local design. -/
def inData (id off : Nat) (b : Bytes) (s : State) : State :=
  match inRd s id with
  | none => s
  | some q =>
    if q.failed != 0 then s
    else
      sendHostCpls id 4096 { s with inRds := s.inRds.map (fun x => if x = q then { q with done := q.done ++ [(off, b)] } else x) }

/-- A part of a host read has been answered in full. -/
def inPart (id : Nat) (s : State) : State :=
  match inRd s id with
  | none => s
  | some q =>
    let s := partEnds q s
    if q.parts ≤ 1 && q.failed == 0 then sendCpl (fnIdx q.req.fn) q.req.hostTag 0 0 [] s else s

/-- Cut a host request for local address `a` at multiples of 512 (R107): offset in the request, address and length of each
packet.  An MRD that the partner's MAX_RD does not admit is cut again when it is sent (R220). -/
def cutIn : Nat → Nat → Nat → Nat → List (Nat × Nat × Nat)
  | 0, _, _, _ => []
  | k + 1, o, a, n =>
    if n = 0 then []
    else
      let c := min n (512 - a % 512)
      (o, a, c) :: cutIn k (o + c) (a + c) (n - c)

/-- BAR2 size of a function in bytes: the PF's BAR Size (R81), or the VF BAR2 size of its link (R71). -/
def bar2Bytes (s : State) (f : Nat) : Nat :=
  if fnVf f = 0 then 2 ^ (20 + (s.cf f).bar2Size) else 2 ^ tget 20 s.store.vfBar2 (fnHl f)

/-- A host request that cannot be delivered: UR (R106).  A posted write has no completion. -/
def inboundUr (m : HostMem) (s : State) : State :=
  if m.write then s else sendCpl (fnIdx m.fn) m.hostTag 1 m.len [] s

/-- A link is held: in HOLD, or in an INIT exchange entered from it (R204). -/
def linkHeld (s : State) (n : Nat) : Bool :=
  s.rd .WL_LSTATE n == 4 || (s.rd .WL_LSTATE n == 1 && s.on .WL_GRACE_RUN n)

/-- A host request as inbound window `i` translates it (R105). -/
def inTranslate (m : HostMem) (i : Nat) (s : State) : InReq :=
  let tn := (s.boundTn (fnIdx m.fn)).getD 256
  { req := m, win := i, link := s.rd .IW_LINK i, lane := s.rd .IW_LANE i, addr := iwBase s i + (m.offset - iwOff s i), tn := tn
    gen := if tn < 256 then s.rd .TN_GENERATION tn else 0 }

/-- A Weaseif link lies in a dark domain (R422). -/
def linkDark (s : State) (n : Nat) : Bool := !s.tlOn (wlTiller n) || !s.domOn (dWphy (wlTiller n))

/-- A translated host request goes to its Weaseif link (R107); it waits in the host link's inbound queues while its link is held
(R204). -/
def inboundPass (x : InReq) (s : State) : State :=
  let m := x.req
  let f := fnIdx m.fn
  let n := x.link
  if !linkUsable s n then
    if m.write then
      let s := when (tlReset s (wlTiller n)) (fun s => s.inc .HL_DROP_CNT (fnHl f)) s
      when (linkDark s n) (unavailable f m.offset true) s
    else unavailable f m.offset false (inboundUr m s)
  else if linkHeld s n then s.modHl (fnHl f) (fun l => { l with inWait := l.inWait ++ [x] })
  else
    let s := hubCross (hlTiller (fnHl f)) (wlTiller n) m.data.length s
    if m.write then
      each (cutIn (m.len / 512 + 2) 0 x.addr m.len) (fun c s =>
        enqueueLink n ⟨{ pktZero with typ := 1, lane := x.lane, len := c.2.2, addr := c.2.1, payload := sub m.data c.1 c.2.2 },
          .hostWrite f x.win, x.tn, x.gen, 0⟩ s) s
    else
      let parts := if m.len = 0 then [(0, x.addr, 0)] else cutIn (m.len / 512 + 2) 0 x.addr m.len
      let s : State := { s with pktCount := s.pktCount + 1 }
      let id := s.pktCount
      let s : State := { s with inRds := s.inRds ++ [⟨id, m, parts.length, [], 0, 0, false, x.win, x.tn⟩] }
      each parts (fun c s =>
        enqueueLink n ⟨{ pktZero with typ := 2, lane := x.lane, len := c.2.2, addr := c.2.1 }, .hostRead f id c.1, x.tn, x.gen, 0⟩ s) s

/-- A memory request at BAR2 of a function (R73, R81, R97, R105, R106, R378).  No window of a VF acts without a tenant, or with a
BROKEN one (R291). -/
def inbound (m : HostMem) (s : State) : State :=
  let f := fnIdx m.fn
  let h := fnHl f
  let tn := s.boundTn f
  let s := rxTlp h m.data.length s
  if recovery s || !fnEnabled s f || !(s.cf f).mse || (s.cf f).d3 || (s.cf (pfIdx h)).d3 || s.react then inboundUr m s
  else if bar2Bytes s f < m.offset + m.len then inboundUr m s
  else
    let dead := fnVf f != 0 && (match tn with | some t => tnDead s t | none => true)
    match (if dead then none else findIn s f m.offset) with
    | none =>
      inboundUr m (ward (hlTiller h) 10 (mFn f) (if m.write then 5 else 4) m.offset (s.inc .CT_HL_IN_MISS h))
    | some i =>
      let ok := decide (m.offset + m.len ≤ iwOff s i + iwSize s i) && !m.atomic &&
        s.on (if m.write then .IW_WR else .IW_RD) i && (match tn with | some t => permits s t (s.rd .IW_LINK i) | none => true)
      if ok then inboundPass (inTranslate m i s) s
      else
        inboundUr m (when (linkDark s (s.rd .IW_LINK i)) (unavailable f m.offset m.write) (s.inc .CT_HL_IN_MISS h))

/-- INBOUND_REQUEST (R105): a host memory request to BAR2 of a function whose link is up. -/
def execInboundRequest (m : HostMem) (s : State) : Res :=
  let h := m.fn.hl.val
  .next (when (s.dlUp h && s.tlOn (hlTiller h) && !inboundFull s h) (inbound m) s)

/-! ### Answers of local designs (R225, R228, R231) -/

/-- A request of the bridge ends without success: 4 UR, 5 CA, 6 no answer in time, 9 or 10 the link unavailable
(Table DM-6). -/
def bridgeFails (n : Nat) (src : WSrc) (addr code : Nat) (s : State) : State :=
  match src with
  | .hostRead _ rd _ =>
    match inRd s rd with
    | none => s
    | some q =>
      let f := fnIdx q.req.fn
      let s := failInRd rd (if code = 5 then 4 else 1) s
      when ((code == 9 || code == 10) && q.failed == 0) (unavailable f q.req.offset false) s
  | .dmaRead c d _ => pump c (chError c (some d) 0 code (localRd addr (0x80 + n)) s)
  | .dmaWrite c d => pump c (chError c (some d) 0 code (localWr addr (0x80 + n)) s)
  | .peerMrd c d => pump c (chError c (some d) 0 code (localRd addr (0x80 + n)) s)
  | _ => s

/-- A request of the bridge is answered with success. -/
def bridgeDone (src : WSrc) (s : State) : State :=
  match src with
  | .hostRead _ rd _ => inPart rd s
  | .dmaWrite c d => chWriteAnswered c d s
  | .peerMrd c d => chPeerDone c d s
  | _ => s

/-- Data of a request of the bridge arrives. -/
def bridgeData (src : WSrc) (got : Nat) (b : Bytes) (s : State) : State :=
  match src with
  | .hostRead _ rd part => inData rd (part + got) b s
  | .dmaRead c d off => dataArrived c d (off + got) b s
  | _ => s

/-- The TAG of a request of the bridge is freed. -/
def freeWTag (n : Nat) (t : WTag) (s : State) : State := s.modWl n (fun w => { w with wlTags := w.wlTags.erase t })

/-- A packet answers a request of the bridge by its type (Table WT-8). -/
def answers (q p : Pkt) : Bool :=
  if q.typ = 1 then p.typ == 5
  else if q.len = 0 then p.typ == 3
  else p.typ == 4 || (p.typ == 3 && p.status != 0)

/-- A CPLD fits its request (R226, Table WT-8). -/
def fits (t : WTag) (p : Pkt) : Bool :=
  decide (1 ≤ p.len) && decide (p.len ≤ 512) && decide (p.len ≤ t.pkt.len - t.got) && p.byteCount == t.pkt.len - t.got &&
    p.lowerAddr % 4096 == (t.pkt.addr + t.got) % 4096

/-- The request's tenant has had its generation bumped since: the response is discarded (R286). -/
def staleRsp (s : State) (t : WTag) : Bool := decide (t.tn < 256) && t.gen != s.rd .TN_GENERATION t.tn && t.src.chan.isSome

/-- A response that nothing awaits, or that does not fit. -/
def unexpectedRsp (n : Nat) (p : Pkt) (cnt : Fld) (s : State) : State :=
  wardDetail (wlTiller n) 11 (mWl n) 9 p.cause 0 (s.inc cnt n)

/-- The host read that a request of the bridge serves. -/
def WSrc.hostRd (s : State) : WSrc → Option InRd
  | .hostRead _ rd _ => inRd s rd
  | _ => none

/-- The tiller that the data of an answer goes to (R13, R17). -/
def WSrc.tiller (s : State) (n : Nat) (x : WSrc) : Nat :=
  match x.hostRd s with
  | some q => hlTiller q.req.fn.hl.val
  | none => (x.chan.map chTiller).getD (wlTiller n)

/-- A response for a request that is outstanding.  A completion for a host read whose link has gone down is discarded and
counted (R63). -/
def answered (n : Nat) (t : WTag) (p : Pkt) (s : State) : State :=
  let last := p.typ != 4 || t.got + p.len == t.pkt.len
  let s := withSome ((t.src.hostRd s).filter (·.down)) (fun q s => s.inc .HL_DROP_CNT q.req.fn.hl.val) s
  let s := when (p.typ == 4) (fun s => hubCross (wlTiller n) (t.src.tiller s n) p.len s) s
  let goOn (s : State) : State := s.modWl n (fun w => { w with
    wlTags := w.wlTags.map (fun x => if x = t then { t with got := t.got + p.len } else x) })
  if staleRsp s t then (if last then freeWTag n t else goOn) (s.inc .TN_STALE_CNT t.tn)
  else if p.typ = 4 then
    let b := payloadOf p
    if last then bridgeDone t.src (bridgeData t.src t.got b (freeWTag n t s))
    else bridgeData t.src t.got b (goOn s)
  else if p.status = 0 then bridgeDone t.src (freeWTag n t s)
  else
    let s := trace 2 n 0x0201 (p.status % 256 + p.cause % 256 * 256 + p.tag % 4096 * 65536) s
    bridgeFails n t.src t.pkt.addr (if p.status = 2 then 5 else 4) (freeWTag n t s)

/-- A request whose link has gone down ends once no answer that was accepted before is left to act on (R205). -/
def endFormer (n tag : Nat) (s : State) : State :=
  match (s.wl n).wlTags.find? (fun t => t.tag == tag) with
  | some t =>
    if t.down != 0 && !(s.wl n).rxQ.any (answersTo t.tag) then bridgeFails n t.src t.pkt.addr t.down (freeWTag n t s) else s
  | none => s

/-- LOCAL_RESPONSE's effect (R225, R228, R231, Table WT-8). -/
def localResponse (n : Nat) (p : Pkt) (s : State) : State :=
  let s := releasePkt n p s
  match (s.wl n).wlTags.find? (fun t => t.tag == p.tag) with
  | none => unexpectedRsp n p .CT_WL_UNEXP_RSP s
  | some t =>
    if t.quarantined then freeWTag n t (unexpectedRsp n p .CT_WL_LATE_RSP s)
    else if !answers t.pkt p then unexpectedRsp n p .CT_WL_UNEXP_RSP s
    else if p.typ = 4 && !fits t p then
      bridgeFails n t.src t.pkt.addr 5 (freeWTag n t (unexpectedRsp n p .CT_WL_UNEXP_RSP s))
    else endFormer n t.tag (answered n t p s)

/-- LOCAL_RESPONSE (R225): a CPL, CPLD or WRSP of a local design. -/
def execLocalResponse (wl : Wl) (p : Pkt) (s : State) : Res :=
  .next (freezeSettle (localPacket wl.val p [3, 4, 5] (localResponse wl.val) s))

/-- LRSP_TIMEOUT (R228): LRSP_TO ticks have passed without the final response: the request fails and its TAG goes to
quarantine. -/
def execLrspTimeout (wl : Wl) (tag : Nat) (s : State) : Res :=
  let n := wl.val
  .next (freezeSettle (
    match (s.wl n).wlTags.find? (fun t => t.tag == tag) with
    | none => s
    | some t =>
      if t.quarantined || t.ticksLeft != 0 || !s.tlOn (wlTiller n) then s
      else
        let s := s.modWl n (fun w => { w with
          wlTags := w.wlTags.map (fun x => if x = t then { t with quarantined := true } else x) })
        let s := trace 2 n 0x0203 (tag % 4096) s
        if staleRsp s t then s else bridgeFails n t.src t.pkt.addr 6 s))

end Sys2Proof.Machine
end

