-- ==== Sys2Proof/Machine/Windows.lean ====
section
/-!
DEFINITION. The window commands: OUTWIN_SET, INWIN_SET, INTWIN_SET (R98, R99, R102, R105, R108, R110, R122, R352) and
SHEAF_SET (R114, R121, R353).
-/
namespace Sys2Proof.Machine

/-! ### Entries in use (R99) -/

/-- An outbound entry is enabled. -/
def owOn (s : State) (i : Nat) : Bool := owSize s i != 0
/-- An inbound entry is enabled. -/
def iwOn (s : State) (i : Nat) : Bool := iwSize s i != 0
/-- An interrupt entry is enabled. -/
def nwOn (s : State) (i : Nat) : Bool := s.on .NW_COUNT i

/-- Whether any host request that waits or is outstanding satisfies `p`. -/
def anyReq (s : State) (p : HSrc → Bool) : Bool :=
  s.hostQ.any (fun r => p r.src) || s.tags.any (fun t => !t.quarantined && p t.req.src)

/-- A packet translated by an outbound entry is in flight. -/
def owFlight (s : State) (i : Nat) : Bool :=
  anyReq s (fun x => match x with | .window _ _ _ w _ _ _ => w == i | _ => false) ||
    s.sheafPkts.any (fun p => p.win == i) ||
    s.locReqs.any (fun q => q.hl == 32 && q.win == i)

/-- A packet translated by an inbound entry is in flight. -/
def iwFlight (s : State) (i : Nat) : Bool :=
  s.inRds.any (fun q => q.win == i) || s.hls.any (fun e => e.2.inWait.any (fun x => x.win == i)) ||
    s.wls.any (fun e => e.2.linkQ.any (fun p => match p.src with | .hostWrite _ w => w == i | _ => false))

/-- A message mapped by an interrupt entry is in flight. -/
def nwFlight (s : State) (i : Nat) : Bool := anyReq s (fun x => match x with | .intr _ _ _ w => w == i | _ => false)

/-- A sheaf holds a packet, or a copy, gap record or flush of it is on its way. -/
def shFlight (s : State) (i : Nat) : Bool :=
  s.sheafPkts.any (fun p => p.sheaf == i) ||
    anyReq s (fun x => match x with | .gap k _ _ _ => k == i | .sheafFlush k _ _ _ => k == i | _ => false)

/-! ### Owners and allotments (R98, R99) -/

/-- The tenant that owns an enabled outbound entry; none for the manager's. -/
def owOwner (s : State) (i : Nat) : Option Nat :=
  if owOn s i && !s.on .OW_SHEAF i && !s.on .OW_TO_PF i then some (s.rd .OW_TNID i) else none
/-- The tenant that owns an enabled inbound entry. -/
def iwOwner (s : State) (i : Nat) : Option Nat :=
  if iwOn s i && s.on .IW_FUNC i then s.boundTn (s.rd .IW_HL i * 512 + s.rd .IW_FUNC i) else none
/-- The tenant that owns an enabled interrupt entry. -/
def nwOwner (s : State) (i : Nat) : Option Nat :=
  if nwOn s i && !s.on .NW_TO_PF i then some (s.rd .NW_TNID i) else none

/-- The outbound entries of a tenant. -/
def outOf (s : State) (n : Nat) : List Nat := (enabledEntries s .OW_SIZE_LO .OW_SIZE_HI).filter (fun i => owOwner s i == some n)
/-- The inbound entries of a tenant. -/
def inOf (s : State) (n : Nat) : List Nat := (enabledEntries s .IW_SIZE_LO .IW_SIZE_HI).filter (fun i => iwOwner s i == some n)
/-- The interrupt entries of a tenant. -/
def intOf (s : State) (n : Nat) : List Nat := (listed s .NW_COUNT).filter (fun i => nwOwner s i == some n)

/-- Show how many entries of each kind a tenant owns. -/
def showUsed (o : Option Nat) (s : State) : State :=
  withSome o (fun n s =>
    ((s.wr .TN_OUT_USED (outOf s n).length n).wr .TN_IN_USED (inOf s n).length n).wr .TN_INT_USED (intOf s n).length n) s

/-! ### The common checks of the three window commands (R98, R352) -/

/-- What a window command says of its entry. -/
structure WinReq where
  index : Nat
  clears : Bool                            -- SIZE or COUNT 0
  tiller : Nat                             -- of the image's LINK or HL
  pool : Nat
  per : Nat
  ranges : Bool                            -- the image's fields lie within their ranges
  enabled : State → Nat → Bool
  flight : State → Nat → Bool
  owner : State → Nat → Option Nat
  newOwner : State → Option Nat
  mine : State → Nat → Fn → Bool           -- the image names the issuing VF's own tenant or function
  ok : State → Nat → Bool                  -- the rules of chapter 5 that are INVALID_PARAM
  gone : State → Nat                       -- TENANT_GONE or WRONG_STATE for the tenant or VF named
  stateOk : State → Nat → Bool             -- the rule of R353
  denied : State → Bool
  allot : Fld
  used : State → Nat → List Nat

/-- The lowest free entry of the tiller. -/
def WinReq.free (w : WinReq) (s : State) : Option Nat :=
  (tillerEntries w.tiller w.per).find? (fun i => !w.enabled s i && !w.flight s i)

/-- The entry the command takes: the one it names, or the lowest free. -/
def WinReq.entry (w : WinReq) (s : State) : Option Nat := if w.index = 0xFFFF then w.free s else some w.index

/-- The checks of R98 and R352, in the order of R338. -/
def WinReq.check (w : WinReq) (s : State) : Nat :=
  let i := (w.entry s).getD w.index
  let draining := (w.entry s).isNone || (!w.enabled s i && w.flight s i)
  if w.clears then (if w.index = 0xFFFF || w.index / w.per != w.tiller then 5 else if draining then 7 else 0)
  else firstFail [
    ((w.index != 0xFFFF && w.index / w.per != w.tiller) || !w.ok s i, 5),
    (w.gone s != 0, w.gone s),
    (!w.stateOk s i, 9),
    (w.denied s, 8),
    ((match w.newOwner s with
      | some n => decide (s.rd w.allot n ≤ ((w.used s n).filter (fun k => k != w.index)).length)
      | none => false), 7),
    (draining, 7)]

/-- The Owner privilege (R341, R352). -/
def WinReq.priv (w : WinReq) (r : CmdReq) (s : State) : Bool :=
  hasMgr s r.iss ||
    (match r.iss, issuerTn s r.iss with
     | .fn f, some t => w.mine s t f && (w.index == 0xFFFF || !w.enabled s w.index || w.owner s w.index == some t)
     | _, _ => false)

/-- The row of a window command in Table KP-5; `put` writes the entry. -/
def WinReq.cmd (w : WinReq) (r : CmdReq) (op plen : Nat) (a : AtCmd) (sheaf : Bool) (put : Nat → State → State) : Cmd where
  op := op
  lenOk := r.plen == plen
  priv := fun s => if sheaf then hasMgr s r.iss else w.priv r s
  atOk := true
  params := fun _ => decide (w.index < w.pool ∨ w.index = 0xFFFF) && w.ranges
  dark := fun s => !s.tlOn (if w.index = 0xFFFF then w.tiller else w.index / w.per)
  own := w.check
  sched := some a
  act := fun s =>
    match w.entry s with
    | some i => finish r op 0 (le 2 i ++ le 2 0) (put i s)
    | none => finish r op 7 [] s

/-- Two ranges overlap. -/
def overlaps (a an b bn : Nat) : Bool := decide (a < b + bn) && decide (b < a + an)

/-- What R352 answers for a named tenant: TENANT_GONE when FREE or PENDING, WRONG_STATE when BROKEN. -/
def namedTn (s : State) (n : Nat) : Nat :=
  if s.tnState n = 0 || s.tnState n = 5 then 0x0A else if s.tnState n = 4 then 9 else 0

/-- A number is a multiple of 4 KiB. -/
def page (n : Nat) : Bool := n % 4096 == 0

/-! ### OUTWIN_SET -/

/-- The tenants among a sheaf's destinations. -/
def shTenants (s : State) (k : Nat) : List Nat :=
  (List.range (s.rd .SH_DEST_COUNT k)).filterMap (fun d => if s.on .SH_TO_PF k d then none else some (s.rd .SH_TNID k d))

/-- A tenant may not take a window of link `n` with class `cls`: not permitted, or class 3 and not eligible (R98, R110). -/
def tnDenies (s : State) (n link cls : Nat) : Bool := !permits s n link || (cls == 3 && !s.on .TN_ELIGIBLE n)

/-- The links whose functions an outbound entry reaches. -/
def owLinks (s : State) (i : Nat) : List Nat :=
  if s.on .OW_SHEAF i then
    (List.range (s.rd .SH_DEST_COUNT (s.rd .OW_TNID i))).map (fun d => fnHl (shDest s (s.rd .OW_TNID i) d).1)
  else [fnHl (owDest s i).1]

/-- Write an outbound entry; a cleared one reads 0 (R99, R108).  Its late counter begins at 0 when it is created. -/
def writeOut (w : OutWin) (i : Nat) (s : State) : State :=
  let old := owOwner s i
  let was := owOn s i
  let s := s.resetBlk .outwin i
  let s := if w.size = 0 then s else
    let s := s |>.wr .OW_LINK w.link i |>.wr .OW_CLASS w.cls i |>.wr .OW_SHEAF w.sheaf i |>.wr .OW_RD w.rd i
      |>.wr .OW_WR w.wr i |>.wr .OW_AT w.at_ i |>.wr .OW_RO_OK w.roOk i |>.wr .OW_IDO_OK w.idoOk i
      |>.wr .OW_TNID w.tnid i |>.wr .OW_PF_HL w.pfHl i |>.wr .OW_TO_PF w.toPf i
      |>.wr .OW_LOCAL_BASE_LO (w.localBase / 4096) i |>.wr .OW_LOCAL_BASE_HI (w.localBase / 2 ^ 32) i
      |>.wr .OW_SIZE_LO (w.size / 4096) i |>.wr .OW_SIZE_HI (w.size / 2 ^ 32) i
      |>.wr .OW_HOST_BASE_LO (w.hostBase / 4096) i |>.wr .OW_HOST_BASE_HI (w.hostBase / 2 ^ 32) i
      |>.wr .OW_DEADLINE w.deadline i |>.wr .OW_OPEN w.open_ i
    when (!was) (fun s => s.wr .CT_OW_LATE 0 i) s
  showUsed (owOwner s i) (showUsed old s)

/-- The links whose directories show an entry, before and after a change of it; nothing changes where it was and stays
disabled (R94). -/
def entryChange (on : State → Nat → Bool) (links : State → Nat → List Nat) (i : Nat) (s t : State) : State :=
  let of (x : State) : List Nat := if on x i then links x i else []
  if on s i || on t i then dirChange (of s ++ of t) t else t

/-- OUTWIN_SET's effect: the entry, then the directories (R94, R108). -/
def putOut (w : OutWin) (i : Nat) (s : State) : State := entryChange owOn owLinks i s (writeOut w i s)

/-- OUTWIN_SET's entry and its rules (R98, R100, R102, R110, R114, R353).  An image whose addresses run past 2^64 is refused
(DESIGN CHOICE, log entry 46). -/
def outReq (index : Nat) (w : OutWin) : WinReq where
  index := index
  clears := w.size == 0
  tiller := w.link / 12
  pool := 2048
  per := 256
  ranges := decide (w.link < 96) && page w.localBase && page w.size && page w.hostBase && decide (w.size ≤ 2 ^ 48) &&
    decide (w.localBase + w.size ≤ 2 ^ 64) && (w.sheaf == 1 || decide (w.hostBase + w.size ≤ 2 ^ 64)) &&
    !(w.sheaf == 1 && w.at_ == 1)
  enabled := owOn
  flight := owFlight
  owner := owOwner
  newOwner := fun _ => if w.sheaf = 1 ∨ w.toPf = 1 then none else some w.tnid
  mine := fun _ t _ => w.tnid == t && w.toPf == 0 && w.sheaf == 0
  ok := fun s i =>
    !(tillerEntries (w.link / 12) 256).any (fun k => k != i && s.rd .OW_LINK k == w.link && owOn s k &&
      overlaps (owBase s k) (owSize s k) w.localBase w.size) &&
    (w.sheaf == 0 || w.tnid / 32 == w.link / 12) && (w.sheaf == 1 || w.toPf == 0 || s.present w.pfHl)
  gone := fun s => if w.sheaf = 1 ∨ w.toPf = 1 then 0 else namedTn s w.tnid
  stateOk := fun s i => w.sheaf == 0 || (s.on .SH_MODE w.tnid && s.rd .SH_WINDOW w.tnid == i)
  denied := fun s =>
    if w.sheaf = 1 then (shTenants s w.tnid).any (fun n => tnDenies s n w.link w.cls)
    else w.toPf == 0 && tnDenies s w.tnid w.link w.cls
  allot := .TN_OUT_ALLOT
  used := outOf

/-- The row OUTWIN_SET of Table KP-5. -/
def cmdOutwin (r : CmdReq) (index : Nat) (w : OutWin) : Cmd :=
  (outReq index w).cmd r 0x0301 40 (.outwinSet index w) (w.sheaf == 1) (putOut w)

/-- OUTWIN_SET (R352). -/
def execOutwinSet (r : CmdReq) (index : Nat) (w : OutWin) (s : State) : Res := .next (runCmd (cmdOutwin r index w) r s)

/-! ### INWIN_SET -/

/-- Write an inbound entry; a cleared one reads 0. -/
def writeIn (w : InWin) (i : Nat) (s : State) : State :=
  let old := iwOwner s i
  let s := s.resetBlk .inwin i
  let s := if w.size = 0 then s else
    s |>.wr .IW_LINK w.link i |>.wr .IW_FUNC w.func i |>.wr .IW_RD w.rd i |>.wr .IW_WR w.wr i |>.wr .IW_LANE w.lane i
      |>.wr .IW_HL w.hl i |>.wr .IW_BAR_OFFSET_LO (w.barOffset / 4096) i |>.wr .IW_BAR_OFFSET_HI (w.barOffset / 2 ^ 32) i
      |>.wr .IW_SIZE_LO (w.size / 4096) i |>.wr .IW_SIZE_HI (w.size / 2 ^ 32) i
      |>.wr .IW_LOCAL_BASE_LO (w.localBase / 4096) i |>.wr .IW_LOCAL_BASE_HI (w.localBase / 2 ^ 32) i
  showUsed (iwOwner s i) (showUsed old s)

/-- INWIN_SET's effect. -/
def putIn (w : InWin) (i : Nat) (s : State) : State := entryChange iwOn (fun s i => [s.rd .IW_HL i]) i s (writeIn w i s)

/-- INWIN_SET's entry and its rules (R98, R105, R81).  An image that runs past 2^40 of BAR2, or past 2^64, is refused
(DESIGN CHOICE, log entry 46). -/
def inReq (index : Nat) (w : InWin) : WinReq where
  index := index
  clears := w.size == 0
  tiller := w.hl / 4
  pool := 1024
  per := 128
  ranges := decide (w.link < 96) && page w.barOffset && page w.size && page w.localBase &&
    decide (w.barOffset + w.size ≤ 2 ^ 40) && decide (w.localBase + w.size ≤ 2 ^ 64)
  enabled := iwOn
  flight := iwFlight
  owner := iwOwner
  newOwner := fun s => if w.func = 0 then none else s.boundTn (w.hl * 512 + w.func)
  mine := fun _ _ f => w.func == f.vf.val && w.hl == f.hl.val
  ok := fun s i =>
    s.present w.hl && decide (w.func ≤ tget 0 s.store.totalVfs w.hl) &&
    (w.func == 0 || decide (w.barOffset + w.size ≤ 2 ^ tget 20 s.store.vfBar2 w.hl)) &&
    !(tillerEntries (w.hl / 4) 128).any (fun k => k != i && s.rd .IW_HL k == w.hl && s.rd .IW_FUNC k == w.func &&
      iwOn s k && overlaps (iwOff s k) (iwSize s k) w.barOffset w.size)
  gone := fun s =>
    if w.func = 0 then 0 else
      match s.boundTn (w.hl * 512 + w.func) with
      | none => 0x0A
      | some n => if s.tnState n = 4 then 9 else 0
  stateOk := fun _ _ => true
  denied := fun s =>
    match (if w.func = 0 then none else s.boundTn (w.hl * 512 + w.func)) with
    | none => false
    | some n => !permits s n w.link
  allot := .TN_IN_ALLOT
  used := inOf

/-- The row INWIN_SET of Table KP-5. -/
def cmdInwin (r : CmdReq) (index : Nat) (w : InWin) : Cmd :=
  (inReq index w).cmd r 0x0302 40 (.inwinSet index w) false (putIn w)

/-- INWIN_SET (R352). -/
def execInwinSet (r : CmdReq) (index : Nat) (w : InWin) (s : State) : Res := .next (runCmd (cmdInwin r index w) r s)

/-! ### INTWIN_SET -/

/-- Write an interrupt entry; a cleared one reads 0. -/
def writeInt (w : IntWin) (i : Nat) (s : State) : State :=
  let old := nwOwner s i
  let s := s.resetBlk .intwin i
  let s := if w.count = 0 then s else
    s |>.wr .NW_LINK w.link i |>.wr .NW_TO_PF w.toPf i |>.wr .NW_TNID w.tnid i |>.wr .NW_PF_HL w.pfHl i
      |>.wr .NW_MSG_BASE w.msgBase i |>.wr .NW_COUNT w.count i |>.wr .NW_VEC_BASE w.vecBase i
  showUsed (nwOwner s i) (showUsed old s)

/-- The link whose function an interrupt entry reaches. -/
def nwLink (s : State) (i : Nat) : Nat := if s.on .NW_TO_PF i then s.rd .NW_PF_HL i else s.rd .TN_HL (s.rd .NW_TNID i)

/-- INTWIN_SET's effect. -/
def putInt (w : IntWin) (i : Nat) (s : State) : State := entryChange nwOn (fun s i => [nwLink s i]) i s (writeInt w i s)

/-- INTWIN_SET's entry and its rules (R98, R122).  An image whose message numbers run past 65,535 is refused (DESIGN CHOICE,
log entry 46). -/
def intReq (index : Nat) (w : IntWin) : WinReq where
  index := index
  clears := w.count == 0
  tiller := w.link / 12
  pool := 1024
  per := 128
  ranges := decide (w.link < 96) && decide (w.count ≤ 128) && decide (w.msgBase + w.count ≤ 0x10000)
  enabled := nwOn
  flight := nwFlight
  owner := nwOwner
  newOwner := fun _ => if w.toPf = 1 then none else some w.tnid
  mine := fun _ t _ => w.tnid == t && w.toPf == 0
  ok := fun s i =>
    !(tillerEntries (w.link / 12) 128).any (fun k => k != i && s.rd .NW_LINK k == w.link && nwOn s k &&
      overlaps (s.rd .NW_MSG_BASE k) (s.rd .NW_COUNT k) w.msgBase w.count) &&
    (if w.toPf = 1 then s.present w.pfHl && decide (w.vecBase + w.count ≤ 32)
     else namedTn s w.tnid != 0 || decide (w.vecBase + w.count ≤ s.rd .TN_VECTORS w.tnid))
  gone := fun s => if w.toPf = 1 then 0 else namedTn s w.tnid
  stateOk := fun _ _ => true
  denied := fun s => w.toPf == 0 && !permits s w.tnid w.link
  allot := .TN_INT_ALLOT
  used := intOf

/-- The row INTWIN_SET of Table KP-5. -/
def cmdIntwin (r : CmdReq) (index : Nat) (w : IntWin) : Cmd :=
  (intReq index w).cmd r 0x0303 24 (.intwinSet index w) false (putInt w)

/-- INTWIN_SET (R352). -/
def execIntwinSet (r : CmdReq) (index : Nat) (w : IntWin) (s : State) : Res := .next (runCmd (cmdIntwin r index w) r s)

/-! ### SHEAF_SET (R114, R121, R353) -/

/-- The function and base that name a destination of an image (R114). -/
def destKey (s : State) (d : SheafDest) : Nat × Nat :=
  (if d.toPf = 1 then pfIdx d.pfHl else s.tnFn d.tnid, d.hostBase)

/-- The function and base of destination `d` of the sheaf as it is. -/
def nowKey (s : State) (i d : Nat) : Nat × Nat :=
  ((shDest s i d).1, s.rd .SH_HOST_BASE_LO i d * 4096 + s.rd .SH_HOST_BASE_HI i d * 2 ^ 32)

/-- A destination leaves a sheaf: a LAGGING one has its gap record written at once, or counted while excused (R121), on order lane 0
of its window's link (DESIGN CHOICE, log entry 83).  A record owed since a change to LOCKSTEP is not written any more (DESIGN
CHOICE, log entry 83). -/
def dropDest (i d : Nat) (s : State) : State :=
  if !s.bit d .SH_LAGGING i then s
  else if staysExcused s i d then s.inc .CT_SD_LAG i d
  else queueGap i d (s.rd .OW_LINK (s.rd .SH_WINDOW i)) 0 s

/-- The counters of a destination's place begin at 0 when a destination is added there (Table OB-5). -/
def zeroDest (i d : Nat) (s : State) : State :=
  s |>.wr .CT_SD_DELIVERED 0 i d |>.wr .CT_SD_LAG 0 i d |>.wr .CT_SD_LATE 0 i d |>.wr .CT_SD_EPISODES 0 i d

/-- Clear what a destination's place shows. -/
def clearDest (i d : Nat) (s : State) : State :=
  let s := ((s.clrB d .SH_LAGGING i).clrB d .SH_EXCUSED i).wr .SH_SD_LAG 0 i d
  let s := s |>.wr .SH_TNID 0 i d |>.wr .SH_TO_PF 0 i d |>.wr .SH_PF_HL 0 i d |>.wr .SH_LAG_BUDGET 0 i d
    |>.wr .SH_HOST_BASE_LO 0 i d |>.wr .SH_HOST_BASE_HI 0 i d |>.wr .SH_GAP_EN 0 i d |>.wr .SH_GAP_SIZE 0 i d
    |>.wr .SH_GAP_BASE_LO 0 i d |>.wr .SH_GAP_BASE_HI 0 i d
  s.modDest i d (fun _ => DestS.reset)

/-- Write a destination of the image. -/
def putDest (i d : Nat) (x : SheafDest) (s : State) : State :=
  s |>.wr .SH_TNID x.tnid i d |>.wr .SH_TO_PF x.toPf i d |>.wr .SH_PF_HL x.pfHl i d |>.wr .SH_LAG_BUDGET x.lagBudget i d
    |>.wr .SH_HOST_BASE_LO (x.hostBase / 4096) i d |>.wr .SH_HOST_BASE_HI (x.hostBase / 2 ^ 32) i d
    |>.wr .SH_GAP_EN x.gapEn i d |>.wr .SH_GAP_SIZE x.gapSize i d |>.wr .SH_GAP_BASE_LO (x.gapBase / 64) i d
    |>.wr .SH_GAP_BASE_HI (x.gapBase / 2 ^ 32) i d

/-- The gap record of a LAGGING destination is owed ahead of its next copy: its episode ends (R121). -/
def endEpisode (i d : Nat) (s : State) : State :=
  when (s.bit d .SH_LAGGING i) (fun s => s.modDest i d (fun x => { x with owed := true }))
    ((s.clrB d .SH_LAGGING i).wr .SH_SD_LAG 0 i d)

/-- The fields of a destination that move with it. -/
def destFlds : List Fld :=
  [.SH_TNID, .SH_TO_PF, .SH_PF_HL, .SH_LAG_BUDGET, .SH_SD_LAG, .SH_HOST_BASE_LO, .SH_HOST_BASE_HI, .SH_GAP_EN, .SH_GAP_SIZE,
   .SH_GAP_BASE_LO, .SH_GAP_BASE_HI, .CT_SD_DELIVERED, .CT_SD_LAG, .CT_SD_LATE, .CT_SD_EPISODES]

/-- The places of a sheaf's destinations in a new image: for each new place its former one.  A destination keeps its
state wherever it stands; a new one takes a place that no destination had, if there is one. -/
def placesOf (s : State) (i n : Nat) (keys : List (Nat × Nat)) : List Nat :=
  let had := s.rd .SH_DEST_COUNT i
  let match_ := (List.range n).map (fun j => (List.range had).find? (fun d => keys[j]? == some (nowKey s i d)))
  let free := (List.range 8).filter (fun d => !match_.contains (some d))
  let free := free.filter (fun d => decide (had ≤ d)) ++ free.filter (fun d => decide (d < had))
  ((List.range 8).foldl (fun (acc : List Nat × List Nat) j =>
    match match_.getD j none with
    | some d => (acc.1 ++ [d], acc.2)
    | none => (acc.1 ++ [acc.2.headD j], acc.2.tail)) (([] : List Nat), free)).1

/-- The packets and requests of sheaf `i` follow their destinations to the new places. -/
def movePackets (i : Nat) (at_ : List Nat) (t : State) : State :=
  let back (d : Nat) : Nat := at_.idxOf d
  { t with
    sheafPkts := t.sheafPkts.map (fun p => if p.sheaf = i then
      { p with copies := (List.range 8).map (fun j => p.copies.getD (at_.getD j j) .none) } else p)
    hostQ := t.hostQ.map (fun r => { r with src :=
      match r.src with
      | .sheafCopy id d wl lane => if (copyOf t id).any (fun p => p.sheaf == i) then .sheafCopy id (back d) wl lane else r.src
      | .gap k d wl lane => if k = i then .gap k (back d) wl lane else r.src
      | x => x }) }

/-- Move the destinations of a sheaf, their state and their copies on the way. -/
def movePlaces (i : Nat) (at_ : List Nat) (s : State) : State :=
  let t := each destFlds (fun f t => each (List.range 8) (fun j t => t.wr f (s.rd f i (at_.getD j j)) i j) t) s
  let bits (f : Fld) : Nat := ((List.range 8).filter (fun j => s.bit (at_.getD j j) f i)).foldl setBit 0
  let t := (t.wr .SH_LAGGING (bits .SH_LAGGING) i).wr .SH_EXCUSED (bits .SH_EXCUSED) i
  movePackets i at_ (each (List.range 8) (fun j t => t.modDest i j (fun _ => s.dest i (at_.getD j j))) t)

/-- Set or clear a sheaf: destinations that stay keep their state, the others leave or begin (R121). -/
def writeSheaf (i : Nat) (img : SheafImg) (s : State) : State :=
  let wasLead := s.rd .SH_MODE i == 2
  let n := if img.mode = 0 then 0 else img.destCount
  let keys := (img.dests.take n).map (destKey s)
  let at_ := placesOf s i n keys
  let had := s.rd .SH_DEST_COUNT i
  let stays (j : Nat) : Bool := decide (j < n) && decide (at_.getD j j < had) && keys[j]? == some (nowKey s i (at_.getD j j))
  let gone := (List.range had).filter (fun d => !(List.range n).any (fun j => stays j && at_.getD j j == d))
  let s := each gone (dropDest i) s
  let s := when (at_ != List.range 8) (movePlaces i at_) s
  let s := each ((List.range 8).filter (fun j => !stays j)) (clearDest i) s
  let s := each ((List.range n).filter (fun j => !stays j)) (zeroDest i) s
  let s := s |>.wr .SH_MODE img.mode i |>.wr .SH_DEST_COUNT n i |>.wr .SH_WINDOW (if img.mode = 0 then 0 else img.window) i
  let s := each ((img.dests.take n).zipIdx) (fun x s => putDest i x.2 x.1 s) s
  showExcused (showSheaf i (when (wasLead && img.mode == 1) (each (List.range n) (endEpisode i)) s))

/-- The links of a sheaf's destinations. -/
def shLinks (s : State) (i : Nat) : List Nat := (List.range (s.rd .SH_DEST_COUNT i)).map (fun d => fnHl (shDest s i d).1)

/-- SHEAF_SET's effect. -/
def putSheaf (i : Nat) (img : SheafImg) (s : State) : State :=
  let t := writeSheaf i img s
  dirChange (shLinks s i ++ shLinks t i) t

/-- SHEAF_SET's own checks, in the groups of R338. -/
def sheafCheck (i : Nat) (img : SheafImg) (s : State) : Nat :=
  let ds := img.dests.take img.destCount
  let keys := ds.map (destKey s)
  let tns := ds.filterMap (fun d => if d.toPf = 1 then none else some d.tnid)
  let w := img.window
  let draining := !s.on .SH_MODE i && shFlight s i
  if img.mode = 0 then (if draining then 7 else 0)
  else firstFail [
    (keys.dedup.length != keys.length ||
      ds.any (fun d => d.toPf == 1 && !s.present d.pfHl) || w / 256 != i / 32, 5),
    (tns.any (fun n => namedTn s n == 0x0A), 0x0A),
    (tns.any (fun n => namedTn s n == 9) || (owOn s w && !(s.on .OW_SHEAF w && s.rd .OW_TNID w == i)), 9),
    (owOn s w && tns.any (fun n => tnDenies s n (s.rd .OW_LINK w) (s.rd .OW_CLASS w)), 8),
    (draining, 7)]

/-- The row SHEAF_SET of Table KP-5. -/
def cmdSheaf (r : CmdReq) (index : Nat) (img : SheafImg) : Cmd where
  op := 0x0304
  lenOk := r.plen == 264
  priv := fun s => hasMgr s r.iss
  atOk := true
  params := fun _ => decide (index < 256) &&
    (img.mode == 0 || (decide (img.mode < 3) && decide (1 ≤ img.destCount) && decide (img.destCount ≤ 8) &&
      decide (img.destCount ≤ img.dests.length) && img.dests.all (fun d => page d.hostBase && d.gapBase % 64 == 0)))
  dark := fun s => !s.tlOn (index / 32)
  own := sheafCheck index img
  sched := some (.sheafSet index img)
  act := fun s => finish r 0x0304 0 (le 2 index ++ le 2 0) (putSheaf index img s)

/-- SHEAF_SET (R353). -/
def execSheafSet (r : CmdReq) (index : Nat) (img : SheafImg) (s : State) : Res := .next (runCmd (cmdSheaf r index img) r s)

end Sys2Proof.Machine
end

