-- ==== Sys2Proof/Machine/Tenants.lean ====
section
/-!
DEFINITION. Tenants (chapter 11): the pools, the tenant commands, generations and resets, and VF_ALLOT and RUNAHEAD_SET
(R350, R351).
-/
namespace Sys2Proof.Machine

/-! ### Pools (R273, R316, Table TN-8) -/

/-- The TNIDs that are not FREE. -/
def heldTns (s : State) : List Nat := listed s .TN_STATE

/-- The channels allotted, PENDING ones included. -/
def ownedChans (s : State) : List Nat := (heldTns s).flatMap (fun n => (s.ten n).chans)

/-- The free channels of a tiller, lowest first. -/
def freeChans (s : State) (t : Nat) : List Nat :=
  let o := ownedChans s
  (List.range 128).filterMap (fun k => if o.contains (128 * t + k) then none else some (128 * t + k))

/-- Vectors free: the pool less those of tenants, and 32 for each PF whose tiller has left reset (R87). -/
def freeVecs (s : State) : Nat :=
  8192 - 32 * (s.presentHls.filter (fun h => (s.hl h).pfVecs)).length - ((heldTns s).map (fun n => s.rd .TN_VECTORS n)).sum

/-- Completion-cell units held by the tenants homed in tiller `t`, but for one. -/
def unitsOf (s : State) (t except : Nat) : Nat :=
  ((heldTns s).filter (fun n => n != except && s.rd .TN_HL n / 4 == t)).map (fun n => s.rd .TN_CB_UNITS n) |>.sum

/-- Allowances of the tenants of link `h`, but for one. -/
def allowOf (s : State) (h except : Nat) : Nat :=
  ((heldTns s).filter (fun n => n != except && s.rd .TN_HL n == h)).map (fun n => s.rd .TN_ALLOWANCE n) |>.sum

/-- Show the pools in the HUB block, and the units of each tiller in its TILLER block. -/
def showPools (s : State) : State :=
  let all := heldTns s
  let pend := all.filter (fun n => s.tnState n == 5)
  let sum (l : List Nat) (f : Fld) : Nat := (l.map (fun n => s.rd f n)).sum
  let chs (l : List Nat) : Nat := (l.map (fun n => (s.ten n).chans.length)).sum
  let s := s |>.wr .HUB_TN_CREATED (all.length - pend.length) |>.wr .HUB_TN_PENDING pend.length
    |>.wr .HUB_CH_FREE (1024 - chs all) |>.wr .HUB_CH_PENDING (chs pend)
    |>.wr .HUB_VEC_FREE (freeVecs s) |>.wr .HUB_VEC_PENDING (sum pend .TN_VECTORS)
    |>.wr .HUB_UNITS_FREE (480 - sum all .TN_CB_UNITS) |>.wr .HUB_UNITS_PENDING (sum pend .TN_CB_UNITS)
  each (List.range 8) (fun t s =>
    (((s.wr .HUB_CH_FREE_T (freeChans s t).length 0 t).wr .HUB_UNITS_FREE_T (60 - unitsOf s t 256) 0 t)).wr
      .TI_UNITS_ALLOTTED (unitsOf s t 256) t) s

/-- A channel is given to a tenant under a local number: its block begins at its reset values, DISABLED. -/
def allotChan (n c lcl : Nat) (s : State) : State :=
  ((((s.resetBlk .channel c).modCh c (fun _ => ChanS.reset)).wr .CH_LOCAL lcl c).wr .CH_TNID n c).wr .CH_ALLOTTED 1 c

/-- A channel is taken from its tenant: reset values, unallocated (Table DM-7). -/
def takeChan (c : Nat) (s : State) : State := (dropChanWaiting c (s.resetBlk .channel c)).modCh c (fun _ => ChanS.reset)

/-- Give a tenant channels of tiller `t` until it holds `want` there (R277). -/
def growIn (n t want : Nat) (s : State) : State :=
  let have_ := ((s.ten n).chans.filter (fun c => chTiller c == t)).length
  each ((freeChans s t).take (want - have_)) (fun c s =>
    let lcl := (s.ten n).chans.length
    allotChan n c lcl (s.modTen n (fun x => { x with chans := x.chans ++ [c] }))) s

/-- Give a tenant the channels of CH_TILLER, in rising tiller order. -/
def growChans (n : Nat) (want : List Nat) (s : State) : State :=
  let s := each (List.range 8) (fun t => growIn n t (want.getD t 0)) s
  s.wr .TN_CH_COUNT (s.ten n).chans.length n

/-! ### Checks (R273, R274, Table TN-3) -/

/-- Per-tenant bounds of the fields that a CHANGE selects; `al` and `cb` are ALLOWANCE and CB_UNITS as they will be. -/
def tnBounds (p : TenantParams) (sel al cb : Nat) : Bool :=
  (!sel.testBit 1 || (decide (1 ≤ p.vectors) && decide (p.vectors ≤ 128))) &&
  (!(sel.testBit 2 || sel.testBit 3) || (decide (al ≤ 1024) && decide (cb ≤ 60) && decide (al = 0 ↔ cb = 0))) &&
  (!sel.testBit 4 || (decide (p.outAllot ≤ 2048) && decide (p.inAllot ≤ 1024) && decide (p.intAllot ≤ 1024))) &&
  (!sel.testBit 7 || decide (p.chTiller.sum ≤ 64))

/-- A pool or sum bound of R273 would be exceeded; `n` is 256 for a tenant not yet created. -/
def tnShort (s : State) (p : TenantParams) (sel n hl : Nat) : Bool :=
  (sel.testBit 1 && decide (freeVecs s + (if n < 256 then s.rd .TN_VECTORS n else 0) < p.vectors)) ||
  (sel.testBit 3 && decide (60 < unitsOf s (hlTiller hl) n + p.cbUnits)) ||
  (sel.testBit 2 && decide (1984 < allowOf s hl n + p.allowance)) ||
  (sel.testBit 7 && (List.range 8).any (fun t =>
    decide ((freeChans s t).length + ((s.ten n).chans.filter (fun c => chTiller c == t)).length < p.chTiller.getD t 0)))

/-- A domain that a tenant command must touch is not ON (R275). -/
def tnDark (s : State) (hl : Nat) (tillers : List Nat) : Bool :=
  !s.domOn dHub || !s.tlOn (hlTiller hl) || tillers.any (fun t => !s.tlOn t)

/-- A context bank is LOST. -/
def ctxLost (s : State) (n : Nat) : Bool := bankLost s (24 + n / 16)

/-! ### TENANT_CREATE (R276, R277) -/

/-- The TNID a TENANT_CREATE takes. -/
def newTnid (s : State) (target : Nat) : Option Nat :=
  if target = 0xFFFF then (List.range 256).find? (fun n => s.tnState n == 0 && !ctxLost s n) else some target

/-- The fields of Table TN-3 that a CHANGE selects are written into the TENANT block. -/
def putTenant (n sel : Nat) (p : TenantParams) (s : State) : State :=
  let f := s.tnFn n
  s |> when (sel.testBit 0) (fun s => s.wr .TN_WEIGHT p.weight n)
    |> when (sel.testBit 1) (fun s => (s.wr .TN_VECTORS p.vectors n).wr .FI_VEC_COUNT p.vectors f)
    |> when (sel.testBit 2) (fun s => s.wr .TN_ALLOWANCE p.allowance n)
    |> when (sel.testBit 3) (fun s => s.wr .TN_CB_UNITS p.cbUnits n)
    |> when (sel.testBit 4) (fun s =>
        ((s.wr .TN_OUT_ALLOT p.outAllot n).wr .TN_IN_ALLOT p.inAllot n).wr .TN_INT_ALLOT p.intAllot n)
    |> when (sel.testBit 6) (fun s =>
        ((s.wr .TN_PERMIT0 p.permit n).wr .TN_PERMIT1 (p.permit / 2 ^ 32) n).wr .TN_PERMIT2 (p.permit / 2 ^ 64) n)
    |> when (sel.testBit 8) (fun s => s.wr .TN_ELIGIBLE (if p.eligible then 1 else 0) n)

/-- The counters of a tenant's rows (Tables TN-7, OB-5). -/
def tnCounters : List Fld :=
  [.CT_TN_CTO, .CT_TN_UR_CPL, .CT_TN_CA_CPL, .CT_TN_LOG_OUT_RANGE, .CT_TN_DESC_DONE, .CT_TN_DESC_BYTES, .CT_TN_HALTS,
   .CT_TN_RETRIES, .CT_TN_WR_BYTES, .CT_TN_RD_BYTES, .CT_TN_MSIX_SENT]

/-- A tenant is created (R277, R279). -/
def createTn (n : Nat) (p : TenantParams) (s : State) : State :=
  let s := (s.resetBlk .tenant n).modTen n (fun _ => { TenS.reset with
    regions := List.replicate 16 (0, 0), homeHl := p.hl })
  let s := each tnCounters (fun f s => s.wr f 0 n) s
  let s := s |>.wr .TN_TNID n n |>.wr .TN_STATE 1 n |>.wr .TN_VF p.vf n |>.wr .TN_HL p.hl n
    |>.wr .TN_RATE p.rate n |>.wr .TN_DEPTH (depthFor p.rate p.depth) n
  let f := s.tnFn n
  let s := (s.wr .DVSEC_TNID n f).wr .DVSEC_GENERATION 0 f
  let s := growChans n p.chTiller (putTenant n 0x1FF p s)
  dirChanged p.hl (showPools (traceTnState n 1 0 s))

/-- TENANT_CREATE (R276, R277). -/
def execTenantCreate (r : CmdReq) (p : TenantParams) (s : State) : Res :=
  .next (runCmd
    { op := 0x0201, lenOk := r.plen == 48, priv := fun s => hasMgr s r.iss
      params := fun s => s.present p.hl && decide (1 ≤ p.vf) && decide (p.vf ≤ tget 0 s.store.totalVfs p.hl) &&
        decide (p.weight < 256) && tnBounds p 0x1FF p.allowance p.cbUnits
      dark := fun s => tnDark s p.hl ((List.range 8).filter (fun t => p.chTiller.getD t 0 != 0))
      own := fun s => firstFail [
        ((s.boundTn (p.hl * 512 + p.vf)).isSome, 9),
        (r.target != 0xFFFF && (s.tnState r.target != 0 || ctxLost s r.target), 9),
        ((newTnid s r.target).isNone || tnShort s p 0x1FF 256 p.hl, 7)]
      act := fun s =>
        match newTnid s r.target with
        | some n =>
          let s := createTn n p s
          let cs := (s.ten n).chans
          finish r 0x0201 0 (le 1 n ++ le 1 0 ++ le 1 cs.length ++ le 1 0 ++ cs.flatMap (le 2)) s
        | none => finish r 0x0201 7 [] s } r s)

/-! ### TENANT_MODIFY (R279, R317) -/

/-- A tenant owns a class 3 window or is a destination of a class 3 sheaf. -/
def hasClass3 (s : State) (n : Nat) : Bool :=
  (enabledEntries s .OW_SIZE_LO .OW_SIZE_HI).any (fun i =>
    s.rd .OW_CLASS i == 3 &&
      (if s.on .OW_SHEAF i then (shTenants s (s.rd .OW_TNID i)).contains n else !s.on .OW_TO_PF i && s.rd .OW_TNID i == n))

/-- The channels a CH_TILLER takes from a tenant: in each tiller those with the highest local numbers. -/
def chansCut (s : State) (n : Nat) (want : List Nat) : List Nat :=
  (s.ten n).chans.filter (fun c =>
    let mine := (s.ten n).chans.filter (fun d => chTiller d == chTiller c)
    decide (want.getD (chTiller c) 0 ≤ mine.idxOf c))

/-- TENANT_MODIFY's own checks. -/
def modifyCheck (n : Nat) (p : TenantParams) (s : State) : Nat :=
  let sel := p.change
  let x := s.ten n
  let cut := chansCut s n p.chTiller
  firstFail [
    (s.tnState n == 2 || s.tnState n == 4, 9),
    (sel.testBit 8 && s.on .TN_ELIGIBLE n && !p.eligible && hasClass3 s n, 9),
    (sel.testBit 1 && decide (p.vectors < s.rd .TN_VECTORS n) &&
      ((s.cf (s.tnFn n)).msixEn ||
        (intOf s n).any (fun i => decide (p.vectors < s.rd .NW_VEC_BASE i + s.rd .NW_COUNT i))), 9),
    (sel.testBit 4 && (decide (p.outAllot < (outOf s n).length) || decide (p.inAllot < (inOf s n).length) ||
      decide (p.intAllot < (intOf s n).length)), 9),
    (sel.testBit 7 && (cut != x.chans.drop (x.chans.length - cut.length) || cut.any (fun c => s.rd .CH_STATE c != 0)), 9),
    (tnShort s p sel n (s.rd .TN_HL n), 7)]

/-- TENANT_MODIFY's effect (R279). -/
def modifyTn (n : Nat) (p : TenantParams) (s : State) : State :=
  let sel := p.change
  let s := putTenant n sel p s
  let s := when (sel.testBit 5) (fun s => s.modTen n (fun x => { x with newRate := some (p.rate, p.depth) })) s
  let s := when (sel.testBit 7) (fun s =>
    let cut := chansCut s n p.chTiller
    let s := each cut takeChan s
    growChans n p.chTiller (s.modTen n (fun x => { x with chans := x.chans.filter (fun c => !cut.contains c) }))) s
  dirChanged (s.rd .TN_HL n) (showPools s)

/-- The row TENANT_MODIFY of Table KP-5. -/
def cmdTenantModify (r : CmdReq) (p : TenantParams) : Cmd where
  op := 0x0202
  lenOk := r.plen == 48
  priv := fun s => hasMgr s r.iss
  acts := true
  atOk := true
  params := fun s =>
    let n := targetOf s r
    let sel := p.change
    decide (sel < 2 ^ 9) && decide (p.weight < 256) &&
      tnBounds p sel (if sel.testBit 2 then p.allowance else s.rd .TN_ALLOWANCE n)
        (if sel.testBit 3 then p.cbUnits else s.rd .TN_CB_UNITS n)
  dark := fun s =>
    let n := targetOf s r
    tnDark s (s.rd .TN_HL n) (if p.change.testBit 7 then (List.range 8).filter (fun t =>
      p.chTiller.getD t 0 != 0 || (s.ten n).chans.any (fun c => chTiller c == t)) else [])
  own := fun s => modifyCheck (targetOf s r) p s
  sched := some (.tenantModify p)
  act := fun s => finish r 0x0202 0 [] (modifyTn (targetOf s r) p s)

/-- TENANT_MODIFY (R279). -/
def execTenantModify (r : CmdReq) (p : TenantParams) (s : State) : Res := .next (runCmd (cmdTenantModify r p) r s)

/-! ### Resets (R286, R287, Table TN-5) -/

/-- The reply of TENANT_RESET and TENANT_DESTROY (R289). -/
def tnReply (s : State) (n flags : Nat) : Bytes := le 1 n ++ le 1 (s.rd .TN_GENERATION n) ++ le 1 flags ++ le 1 0

/-- A tenant is reset by an FLR, a conventional reset or TENANT_RESET: ACTIVE goes to RESETTING, FROZEN keeps the freeze;
a reset in progress takes it in. -/
def resetTn (n : Nat) (s : State) : State :=
  if s.tnState n = 1 then
    let s := cutTenant n 0x0B true (traceTnState n 2 1 (s.wr .TN_STATE 2 n))
    dirChanged (s.rd .TN_HL n) s
  else if s.tnState n = 3 then
    let s := cutTenant n 0x0B true s
    dirChanged (s.rd .TN_HL n) s
  else s

/-- The vectors that a tenant's reset held are raised, and those it kept pending are sent (Table IN-2). -/
def releaseHeld (f : Nat) (s : State) : State :=
  each (List.range (s.rd .FI_VEC_COUNT f)) (fun v s =>
    let s := releaseVec f v s
    when (s.vec f v).held (fun s => raiseVec f v (s.modVec f v (fun x => { x with held := false }))) s) s

/-- TENANT_RESET_COMPLETE (R287): the tenant returns to ACTIVE, held messages leave, and TENANT_RESET replies. -/
def execTenantResetComplete (tn : Tnid) (s : State) : Res :=
  let n := tn.val
  .next (when (s.tnState n == 2) (fun s =>
    let s := releaseHeld (s.tnFn n) (traceTnState n 1 2 (s.wr .TN_STATE 1 n))
    let s := dirChanged (s.rd .TN_HL n) s
    finishWaiting 0x0203 n 0 (tnReply s n 0) s) s)

/-- TENANT_RESET (R287): the reply is sent when the reset completes; a FROZEN tenant's is complete at once. -/
def execTenantReset (r : CmdReq) (s : State) : Res :=
  .next (runCmd
    { op := 0x0203, lenOk := r.plen == 0, acts := true
      priv := fun s => hasTenantLink s r
      dark := fun s => !s.domOn dHub
      act := fun s =>
        let n := targetOf s r
        let s := resetTn n s
        if s.tnState n = 2 then waitOn r 0x0203 n s else finish r 0x0203 0 (tnReply s n 0) s } r s)

/-! ### TENANT_DESTROY (R288 to R290) -/

/-- An outbound image that clears its entry. -/
def noOut : OutWin := ⟨0, 0, 0, 0, 0, 0, 0, 0, 0, 0, 0, 0, 0, 0, 0, 0⟩
/-- An inbound image that clears its entry. -/
def noIn : InWin := ⟨0, 0, 0, 0, 0, 0, 0, 0, 0⟩
/-- An interrupt image that clears its entry. -/
def noInt : IntWin := ⟨0, 0, 0, 0, 0, 0, 0⟩

/-- A sheaf as an image, without the destinations of tenant `n`; with none left it is cleared. -/
def sheafWithout (s : State) (i n : Nat) : SheafImg :=
  let ds := (List.range (s.rd .SH_DEST_COUNT i)).filterMap (fun d =>
    if !s.on .SH_TO_PF i d && s.rd .SH_TNID i d == n then none
    else some (⟨s.rd .SH_TNID i d, s.rd .SH_TO_PF i d, s.rd .SH_PF_HL i d, s.rd .SH_LAG_BUDGET i d,
      wide s .SH_HOST_BASE_LO .SH_HOST_BASE_HI i d, s.rd .SH_GAP_EN i d, s.rd .SH_GAP_SIZE i d,
      s.rd .SH_GAP_BASE_LO i d * 64 + s.rd .SH_GAP_BASE_HI i d * 2 ^ 32⟩ : SheafDest))
  ⟨if ds.isEmpty then 0 else s.rd .SH_MODE i, ds.length, s.rd .SH_WINDOW i, ds⟩

/-- No tag of the tenant is left and none of its requests is in flight, those of hosts to its VF included (R290). -/
def tnDrained (s : State) (n : Nat) : Bool :=
  !(s.tags.any (fun t => t.req.tn == n) || s.hostQ.any (fun r => r.tn == n) || s.inRds.any (fun q => q.tn == n) ||
    s.hls.any (fun e => e.2.inWait.any (fun x => x.tn == n)) ||
    s.wls.any (fun e => e.2.linkQ.any (fun p => p.tn == n) || e.2.wlTags.any (fun t => t.tn == n && !t.quarantined)))

/-- The resources of a PENDING tenant return to their pools and its TNID becomes FREE (R290). -/
def freeTn (n : Nat) (s : State) : State :=
  let h := s.rd .TN_HL n
  let s := traceTnState n 0 5 s
  dirChanged h (showPools ((s.resetBlk .tenant n).modTen n (fun _ => TenS.reset)))

/-- TENANT_PENDING_DRAINED (R290). -/
def execTenantPendingDrained (tn : Tnid) (s : State) : Res :=
  .next (when (s.tnState tn.val == 5 && tnDrained s tn.val) (freeTn tn.val) s)

/-- The scheduled commands for a tenant that is destroyed, those whose TARGET names it, are cancelled (R367). -/
def cancelTarget (n : Nat) (s : State) : State := each (s.keeper.sched.filter (fun e => e.req.target == n)) cancelSched s

/-- Dirty logging of a tenant ends without write-back. -/
def dropLog (n : Nat) (s : State) : State :=
  let s : State := { s with dirty := s.dirty.filter (fun l => l.tn != n) }
  let s := s.filterHostQ (fun r => match r.src with
    | .logRead t _ | .logWrite t _ | .harvestFlush t _ => t != n
    | _ => true)
  (s.setLog n none).wr .TN_LOG_ON 0 n

/-- TENANT_DESTROY's steps (R288); `bump` unless the tenant was RESETTING or BROKEN. -/
def destroyTn (n : Nat) (s : State) : State :=
  let old := s.tnState n
  let f := s.tnFn n
  let h := s.rd .TN_HL n
  let s := cutTenant n 0x0B (old == 1 || old == 3) s
  let s := traceTnState n 5 old (s.wr .TN_STATE 5 n)
  let s := finishWaiting 0x0203 n 0x0A [] s
  let s := each [0x0501, 0x0502, 0x0503] (fun op => finishWaiting op n 0x0A []) (cancelTarget n s)
  let s := dropLog n s
  let links := (outOf s n).flatMap (owLinks s)
  let s := each (outOf s n) (writeOut noOut) s
  let s := each (inOf s n) (writeIn noIn) s
  let s := each (intOf s n) (writeInt noInt) s
  let shs := (listed s .SH_MODE).filter (fun i => (shTenants s i).contains n)
  let links := links ++ shs.flatMap (shLinks s)
  let s := each shs (fun i s => writeSheaf i (sheafWithout s i n) s) s
  let s := each (s.ten n).chans takeChan s
  let s := s |>.wr .DVSEC_TNID 0xFFFF f |>.wr .DVSEC_GENERATION 0 f |>.wr .FI_VEC_COUNT 0 f
  let s := (s.wr .TN_PENDING_RES 1 n).wr .TN_FREEZE_SET 0 n
  let s := s.modTen n (fun x => { TenS.reset with chans := x.chans, homeHl := x.homeHl, bucket := x.bucket })
  let s := dirChange (h :: links) (showPools s)
  if tnDrained s n then freeTn n s else s

/-- A command scheduled for the tenant has reached its boundary: accepted before, it executes first (R367). -/
def dueFirst (s : State) (n : Nat) : Bool := (dueSched s (fun e => e.req.target == n)).isSome

/-- TENANT_DESTROY (R288). -/
def execTenantDestroy (r : CmdReq) (s : State) : Res :=
  .next (runCmd
    { op := 0x0204, lenOk := r.plen == 0, acts := true, priv := fun s => hasMgr s r.iss
      dark := fun s => !s.domOn dHub
      act := fun s =>
        let n := targetOf s r
        if dueFirst s n then s else
        let gen := (s.rd .TN_GENERATION n + (if s.tnState n = 1 || s.tnState n = 3 then 1 else 0)) % 16
        let s := destroyTn n s
        finish r 0x0204 0 (le 1 n ++ le 1 gen ++ le 1 (if s.tnState n = 5 then 1 else 0) ++ le 1 0) s } r s)

/-! ### BROKEN (R291) -/

/-- The context bank of a created tenant is found LOST. -/
def breakTn (n : Nat) (s : State) : State :=
  let old := s.tnState n
  if old = 1 || old = 2 || old = 3 then
    let s := cutTenant n 0x0C (old != 2) s
    let s := showExcused (traceTnState n 4 old (s.wr .TN_STATE 4 n))
    let s := each [0x0203, 0x0501, 0x0502, 0x0503] (fun op => finishWaiting op n 0x14 []) s
    let s := (dropLog n s).modTen n (fun t => { t with snapshot := none, restoreBuf := [], doorbells := [] })
    dirChanged (s.rd .TN_HL n) (raiseCause (pfIdx (s.rd .TN_HL n)) .tenantBroken s)
  else s

/-! ### TENANT_QUERY, VF_ALLOT, RUNAHEAD_SET -/

/-- The bytes of a block's instance that has no sub-instances. -/
def blkBytes (s : State) (b : Blk) (i n : Nat) : Bytes :=
  le n (Fld.all.foldl (fun acc f =>
    if f.info.blk = b then acc + s.rd f i * 2 ^ (8 * f.info.off + f.info.lsb) else acc) 0)

/-- TENANT_QUERY (R275): the TENANT block. -/
def execTenantQuery (r : CmdReq) (s : State) : Res :=
  .next (runCmd
    { op := 0x0205, lenOk := r.plen == 0, acts := true, priv := fun s => hasTenant s r
      dark := fun s => !s.domOn dHub
      act := fun s => finish r 0x0205 0 (blkBytes s .tenant (targetOf s r) 1024) s } r s)

/-- VF_ALLOT (R71, R72, R278, R350). -/
def execVfAllot (r : CmdReq) (hl bar2Log2 totalVfs initialVfs : Nat) (s : State) : Res :=
  .next (runCmd
    { op := 0x0210, lenOk := r.plen == 8, priv := fun s => hasMgr s r.iss
      params := fun s => decide (hl < 32) && s.present hl && decide (20 ≤ bar2Log2) && decide (bar2Log2 ≤ 32) &&
        decide (totalVfs ≤ 256) && decide (initialVfs ≤ totalVfs)
      own := fun s => firstFail [
        ((s.cf (pfIdx hl)).vfEnable, 9),
        ((heldTns s).any (fun n => s.tnState n != 5 && s.rd .TN_HL n == hl && decide (totalVfs < s.rd .TN_VF n)), 9),
        (decide (256 < totalVfs + ((s.store.totalVfs.filter (fun e => e.1 != hl)).map (·.2)).sum), 7)]
      act := fun s =>
        let s := s.modStore (fun c => { c with
          totalVfs := tset 0 c.totalVfs hl totalVfs
          initialVfs := tset 0 c.initialVfs hl initialVfs
          vfBar2 := tset 20 c.vfBar2 hl bar2Log2 })
        finish r 0x0210 0 [] (dirChanged hl s) } r s)

/-- RUNAHEAD_SET (R265, R351). -/
def execRunaheadSet (r : CmdReq) (region base size : Nat) (s : State) : Res :=
  .next (runCmd
    { op := 0x0211, lenOk := r.plen == 24, acts := true, priv := fun s => hasTenant s r
      params := fun _ => decide (region < 16) && page base && page size && decide (base + size ≤ 2 ^ 64)
      dark := fun s => !s.domOn dHub
      act := fun s =>
        finish r 0x0211 0 [] (s.modTen (targetOf s r) (fun x => { x with regions := x.regions.set region (base, size) })) } r s)

end Sys2Proof.Machine
end

