-- ==== Sys2Proof/Machine/Migration.lean ====
section
/-!
DEFINITION. Migration (chapter 12): dirty logging and harvests, freezing and thawing a tenant, and its state blob.
-/
namespace Sys2Proof.Machine

/-! ### Logging (R295, R296) -/

/-- Bytes of a bitmap of `pages` pages (R295). -/
def bitmapBytes (pages : Nat) : Nat := roundUp ((pages + 7) / 8) 64

/-- The INVALID_PARAM checks of LOG_CONFIG (R296). -/
def logParamsOk (p : LogParams) (s : State) : Bool :=
  let n := bitmapBytes p.pages
  page p.base && decide (p.base + p.pages * 4096 ≤ 2 ^ 64) && p.bitmapA % 64 == 0 && p.bitmapB % 64 == 0 &&
    (decide (p.bitmapA + n ≤ p.bitmapB) || decide (p.bitmapB + n ≤ p.bitmapA)) && decide (p.logHl < 32) &&
    s.present p.logHl

/-- Logging is turned on with buffer A active. -/
def logOn (n : Nat) (p : LogParams) (s : State) : State :=
  (s.setLog n (some
    { base := p.base, pages := p.pages, logHl := p.logHl, bitmapA := p.bitmapA, bitmapB := p.bitmapB, active := 0
      startEpoch := s.epoch, allDirty := bankLost s (3 * homeTiller s n + 2), linesWritten := 0, pagesSet := 0, outOfRange := 0
      idoUsed := false, lastBitmap := none, harvest := none, ending := false })).wr .TN_LOG_ON 1 n

/-- The lines of a tenant that no read is outstanding for leave the filter. -/
def dropLines (n : Nat) (p : DirtyLine → Bool) (s : State) : State :=
  each (s.dirty.filter (fun d => d.tn == n && !d.reading && p d)) dropLine s

/-- Logging is being turned off: the tenant's lines are written back; those being read follow when they are. -/
def logOff (n : Nat) (s : State) : State :=
  logSettle n (dropLines n (fun _ => true) (s.modLog n (fun l => { l with ending := true })))

/-- LOG_CONFIG (R296): the reply of one that turns logging off follows the write-back. -/
def execLogConfig (r : CmdReq) (p : LogParams) (s : State) : Res :=
  .next (runCmd
    { op := 0x0501, lenOk := r.plen == 40, acts := true, priv := fun s => hasMgr s r.iss
      params := logParamsOk p
      dark := fun s => tnDark s (s.rd .TN_HL (targetOf s r)) []
      own := fun s =>
        let n := targetOf s r
        if s.tnState n = 2 || (decide (p.pages ≠ 0) && (s.log n).isSome) then 9 else 0
      act := fun s =>
        let n := targetOf s r
        if p.pages ≠ 0 then finish r 0x0501 0 [] (logOn n p s)
        else if (s.log n).isNone then finish r 0x0501 0 [] s
        else logOff n (waitOn r 0x0501 n s) } r s)

/-! ### Harvest (R300 to R303) -/

/-- A harvest boundary (R301): the bitmaps swap, the harvested lines are written back, and the flush reads follow. -/
def startHarvest (r : CmdReq) (n : Nat) (s : State) : State :=
  match s.log n with
  | none => s
  | some l =>
    let up := s.dlUp (s.rd .TN_HL n) && s.tlOn (homeTiller s n)
    let ido := l.idoUsed
    let (flush, s) := tnFlush n (.harvestFlush n false) (waitOn r 0x0502 n s)
    let h : HarvestS :=
      { harvested := l.active, startEpoch := l.startEpoch, endEra := s.era, endEpoch := s.epoch
        linesWritten := l.linesWritten, pagesSet := l.pagesSet, outOfRange := l.outOfRange
        allDirty := l.allDirty || bankLost s (3 * homeTiller s n + 2) || (flush == some true && ido) ||
          (flush.isNone && up)
        pfFlush := flush == some true, bitmapFlush := false, flushesLeft := if flush.isSome then 2 else 1 }
    let s := s.setLog n (some { l with
      active := 1 - l.active, startEpoch := s.epoch, allDirty := bankLost s (3 * homeTiller s n + 2), linesWritten := 0, pagesSet := 0
      outOfRange := 0, idoUsed := false, harvest := some h })
    logSettle n (dropLines n (fun d => d.bitmap == h.harvested) s)

/-- The row LOG_HARVEST of Table KP-5; `go` is what it does when its checks pass. -/
def cmdLogHarvest (r : CmdReq) (go : State → State) : Cmd where
  op := 0x0502
  lenOk := r.plen == 0
  priv := fun s => hasMgr s r.iss
  acts := true
  atOk := true
  dark := fun s => tnDark s (s.rd .TN_HL (targetOf s r)) []
  own := fun s => if (s.log (targetOf s r)).any (fun l => !l.ending) then 0 else 9
  busy := fun s => (s.log (targetOf s r)).any (fun l => l.harvest.isSome)
  sched := some .logHarvest
  act := go

/-- LOG_HARVEST (R301, R303): the round ends at the next epoch boundary, or at the boundary named. -/
def execLogHarvest (r : CmdReq) (s : State) : Res :=
  .next (runCmd (cmdLogHarvest r (nextBoundary 0x0502 .logHarvest r)) r s)

/-- HARVEST_BOUNDARY (R301): a scheduled harvest's boundary has come. -/
def execHarvestBoundary (tn : Tnid) (s : State) : Res :=
  .next (withSome (dueSched s (fun e => decide (e.cmd = .logHarvest) && e.req.target == tn.val))
    (fun e s => runSched (cmdLogHarvest e.req (startHarvest e.req tn.val)) e s) s)

/-- The LOG_HARVEST reply (Table MG-3). -/
def harvestReply (h : HarvestS) : Bytes :=
  le 1 h.harvested ++ le 1 ((if h.allDirty then 1 else 0) + (if h.pfFlush then 2 else 0)) ++ le 2 h.endEra ++
    le 4 h.startEpoch ++ le 4 h.endEpoch ++ le 4 h.linesWritten ++ le 8 h.pagesSet ++ le 8 h.outOfRange

/-- HARVEST_DONE (R301, R302): both flushes have completed, and LOG_HARVEST replies. -/
def execHarvestDone (tn : Tnid) (s : State) : Res :=
  let n := tn.val
  .next (
    match (s.log n).bind (·.harvest) with
    | none => s
    | some h =>
      if !h.bitmapFlush || h.flushesLeft != 0 then s
      else
        let s := s.modLog n (fun l => { l with harvest := none })
        logSettle n (finishWaiting 0x0502 n 0 (harvestReply h) s))

/-! ### Freeze (R305 to R307) -/

/-- A freeze of tenant `n` holds the packets of local designs translated to it that have not begun to leave (Table MG-4). -/
def freezeHolds (n : Nat) (r : HReq) : HReq :=
  let holds : Bool := match r.kind, r.src with
    | .write, .window _ _ _ _ part _ _ => part == 0
    | _, .window _ _ _ _ _ _ _ | _, .intr _ _ _ _ => true
    | _, _ => false
  if r.tn == n && holds then { r with frozen := true } else r

/-- A channel of a frozen tenant keeps its state.  An ACTIVE one is set to begin again at its first descriptor that is not
complete, with its retry count, or to read again the NEXT field it was reading (R307). -/
def parkChan (c : Nat) (s : State) : State :=
  let x := s.ch c
  if s.rd .CH_STATE c != 2 || x.fetchFailed == 2 then s
  else
    let a := (x.descs.head?.map (fun d : Desc => d.addr)).getD (if x.goOn = 0 then x.curAddr else x.goOn)
    let k := (x.descs.head?.map (fun d : Desc => d.retries)).getD x.fetchRetries
    let s := (s.wr .CH_CUR a c).wr .CH_RETRIES k c
    s.modCh c (fun x => { x with
      descs := [], ahead := [], raToken := 0, fetching := false, fetchFailed := 1, fetchRetries := k, curAddr := a
      goOn := 0, dbOwed := 0 })

/-- What a channel waits to read when its tenant is frozen is not read: it is asked for again at thaw (R305). -/
def stopReads (c : Nat) (s : State) : State :=
  let s := dropAhead c s
  let waits (p : HSrc → Bool) : Bool := s.hostQ.any (fun r => p r.src)
  let fetch := waits (fun x => match x with | .dmaFetch ch _ => ch == c | _ => false)
  let again := waits (fun x => match x with | .dmaReread ch _ => ch == c | _ => false)
  let flush := waits (fun x => match x with | .dmaFlush ch => ch == c | _ => false)
  let s := s.modCh c (fun x => { x with
    fetching := x.fetching && !fetch && !again
    fetchFailed := if again then 2 else if fetch then 1 else x.fetchFailed
    flushOut := x.flushOut && !flush })
  let s := s.filterHostQ (fun r => match r.src with
    | .dmaFetch ch _ | .dmaReread ch _ | .dmaRead ch _ _ | .dmaFlush ch | .runAhead ch _ _ | .readAhead ch _ _ => ch != c
    | _ => true)
  s.mapWls (fun _ w => { w with linkQ := w.linkQ.filter (fun p => match p.src with
    | .dmaRead ch _ _ | .peerMrd ch _ => ch != c
    | _ => true) })

/-- A tenant enters FROZEN (R305, Table MG-4). -/
def freezeTn (r : CmdReq) (n : Nat) (s : State) : State :=
  let s := waitOn r 0x0503 n s
  let s := traceTnState n 3 1 ((s.wr .TN_STATE 3 n).wr .TN_FREEZE_SET 0 n)
  let s : State := { s with hostQ := s.hostQ.map (freezeHolds n) }
  let s := s.modTen n (fun t => { t with
    quiesced := false, freezeEra := s.era, freezeEpoch := s.epoch, freezeStamp := 0
    freezeOut := false, freezeFlushed := false, snapshot := none, restoreBuf := [], doorbells := [] })
  let s := each (s.ten n).chans stopReads s
  let s := discardWaiting (fun r => r.tn == n &&
    (match r.src with | .sheafCopy _ _ _ _ | .gap _ _ _ _ => true | _ => false)) 0 s
  dirChanged (s.rd .TN_HL n) (freezeSettle (showExcused s))

/-- The row TENANT_FREEZE of Table KP-5. -/
def cmdTenantFreeze (r : CmdReq) (go : State → State) : Cmd where
  op := 0x0503
  lenOk := r.plen == 0
  priv := fun s => hasMgr s r.iss
  acts := true
  atOk := true
  dark := fun s => tnDark s (s.rd .TN_HL (targetOf s r)) []
  own := fun s => if s.tnState (targetOf s r) = 3 then 9 else 0
  sched := some .tenantFreeze
  onAccept := fun s => s.wr .TN_FREEZE_SET 1 (targetOf s r)
  act := go

/-- TENANT_FREEZE (R305). -/
def execTenantFreeze (r : CmdReq) (s : State) : Res :=
  .next (runCmd (cmdTenantFreeze r (fun s =>
    nextBoundary 0x0503 .tenantFreeze r (s.wr .TN_FREEZE_SET 1 (targetOf s r)))) r s)

/-- FREEZE_POINT (R305, Table TN-5): the freeze boundary; reached while RESETTING it is deferred to the first boundary after
the reset completes. -/
def execFreezePoint (tn : Tnid) (s : State) : Res :=
  let n := tn.val
  .next (withSome (dueSched s (fun e => decide (e.cmd = .tenantFreeze) && e.req.target == n))
    (fun e s =>
      if s.tnState n = 2 then
        s.modKeeper (fun k => { k with sched := k.sched.map (fun x => if x = e then { e with due := s.eraEpoch + 1 } else x) })
      else runSched (cmdTenantFreeze e.req (freezeTn e.req n)) e s) s)

/-- Era of a frozen tenant's STAMP: that of its boundary, or the next when EPOCH has wrapped since. -/
def freezeStampEra (t : TenS) : Nat := t.freezeEra + (if t.freezeStamp / 2 ^ 32 < t.freezeEpoch then 1 else 0)

/-- FREEZE_QUIESCED (R305, R306): nothing of the tenant is outstanding and its flush has completed; the freeze replies. -/
def execFreezeQuiesced (tn : Tnid) (s : State) : Res :=
  let n := tn.val
  let s := freezeSettle s
  let t := s.ten n
  .next (
    if s.tnState n != 3 || t.quiesced || !t.freezeOut || !t.freezeFlushed || !tnQuiet s n then s
    else
      let s := each t.chans parkChan (advance s)
      let s := s.modTen n (fun t => { t with quiesced := true, freezeStamp := s.stamp })
      finishWaiting 0x0503 n 0 (le 2 t.freezeEra ++ le 2 0 ++ le 4 t.freezeEpoch ++ le 8 s.stamp) s)

/-! ### Thaw (R308) -/

/-- The freeze of a tenant that has not been reached. -/
def freezeSched (s : State) (n : Nat) : Option Sched :=
  s.keeper.sched.find? (fun e => decide (e.cmd = .tenantFreeze) && e.req.target == n)

/-- A frozen tenant returns to ACTIVE (R308). -/
def thawTn (n : Nat) (s : State) : State :=
  let s := finishWaiting 0x0503 n 0x14 [] s
  let s := each (s.ten n).chans parkChan s
  let s := traceTnState n 1 3 (s.wr .TN_STATE 1 n)
  let own (r : HReq) : HReq := if r.src = .freezeFlush n then { r with src := .freezeFlush 256 } else r
  let s : State := { s with hostQ := s.hostQ.map own }
  let s := s.mapTags (fun t => { t with req := own t.req })
  let ds := (s.ten n).doorbells
  let s := s.modTen n (fun t => { t with
    quiesced := false, freezeOut := false, freezeFlushed := false, snapshot := none, restoreBuf := [], doorbells := [] })
  let s := releaseHeldOf n s
  let s := each (s.ten n).chans (fun c s =>
    let x := s.ch c
    when (s.rd .CH_STATE c == 2 && x.fetchFailed != 0)
      (if x.fetchFailed = 1 then startFetch c x.curAddr else startReread c x.curAddr) s) s
  let s := each ds (fun c s => doorbell c (s.wr .CH_DB_PENDING 0 c)) s
  let f := s.tnFn n
  let s := each (List.range (s.rd .TN_VECTORS n)) (fun v s =>
    releaseVec f v (s.modVec f v (fun x => { x with restored := false }))) s
  dirChanged (s.rd .TN_HL n) s

/-- The row TENANT_THAW of Table KP-5. -/
def cmdTenantThaw (r : CmdReq) : Cmd where
  op := 0x0504
  lenOk := r.plen == 0
  priv := fun s => hasMgr s r.iss
  acts := true
  atOk := true
  dark := fun s => !s.domOn dHub
  own := fun s => if s.tnState (targetOf s r) = 3 || (freezeSched s (targetOf s r)).isSome then 0 else 9
  sched := some .tenantThaw
  act := fun s =>
    let n := targetOf s r
    finish r 0x0504 0 [] (if s.tnState n = 3 then thawTn n s else withSome (freezeSched s n) cancelSched s)

/-- TENANT_THAW (R308). -/
def execTenantThaw (r : CmdReq) (s : State) : Res := .next (runCmd (cmdTenantThaw r) r s)

/-! ### The state blob (R309, R310) -/

/-- A 32-bit register of a block as it reads. -/
def regImage (s : State) (b : Blk) (i off : Nat) : Nat :=
  Fld.all.foldl (fun acc f =>
    if f.info.blk = b ∧ f.info.off = off ∧ f.info.sub = 0 then acc + s.rd f i * 2 ^ f.info.lsb else acc) 0

/-- A channel record (Table MG-6).  An ACTIVE channel that is to read a NEXT field again has no descriptor that R314 could restart: its
record is that of an IDLE one with that resume point and a doorbell recorded (DESIGN CHOICE, log entry 93). -/
def chanRecord (s : State) (n c : Nat) : Bytes :=
  let x := s.ch c
  let again := s.rd .CH_STATE c == 2 && x.fetchFailed == 2
  let s := when again (fun s => (s.wr .CH_STATE 1 c).wr .CH_DB_PENDING 1 c) s
  padTo 128 (
    le 4 (regImage s .channel c 0x00) ++ le 4 (regImage (s.wr .CH_DRAINING 0 c) .channel c 0x04) ++
    le 4 (regImage s .channel c 0x08) ++ le 4 (regImage s .channel c 0x5C) ++
    le 8 (s.rd .CH_HEAD_LO c * 64 + s.rd .CH_HEAD_HI c * 2 ^ 32) ++ le 8 x.resume ++ le 8 (s.rd .CH_CUR c) ++
    le 8 (s.rd .CH_DONE_CNT c) ++ le 8 (s.rd .CH_BYTE_CNT c) ++ le 8 (s.rd .CH_HALT_CNT c) ++
    le 8 (s.rd .CH_RETRY_CNT c) ++ le 8 (s.rd .CH_ERR_ADDR c) ++ le 1 (s.rd .CH_ERR_SPACE c) ++
    le 1 (if x.resumeNext then 1 else 0) ++ le 1 (if again || (s.ten n).doorbells.contains c then 1 else 0))

/-- The state blob of a tenant (Table MG-5). -/
def stateBlob (s : State) (n : Nat) : Bytes :=
  let t := s.ten n
  let f := s.tnFn n
  let len := 0x200 + 128 * t.chans.length
  let pend := (List.range 128).foldl (fun v k => if (s.vec f k).pba then setBit v k else v) 0
  let hdr (crc : Nat) : Bytes := [0x52, 0x50, 0x54, 0x53] ++ le 2 2 ++ le 2 0 ++ le 4 len ++ le 4 crc
  let rest : Bytes :=
    padTo 0x1B0 (
      padTo 0x30 (le 8 s.upd.dsn ++ le 2 0x8096 ++ le 1 n ++ le 1 (s.rd .TN_GENERATION n) ++ le 1 t.chans.length ++ zeros 3 ++
        le 8 t.freezeStamp ++ le 2 (freezeStampEra t)) ++
      padTo 0x80 (le 1 (s.rd .TN_WEIGHT n) ++ le 1 (s.rd .TN_ELIGIBLE n) ++ le 1 (s.rd .TN_VECTORS n) ++ le 1 0 ++
        le 4 (s.rd .TN_RATE n) ++ le 4 (s.rd .TN_DEPTH n) ++ le 4 (s.rd .TN_BUCKET n) ++ le 16 pend) ++
      (List.range 16).flatMap (fun r => le 8 (t.regions.getD r (0, 0)).1 ++ le 8 (t.regions.getD r (0, 0)).2)) ++
    zeros 0x40 ++ t.chans.flatMap (chanRecord s n)
  hdr (crc32 (hdr 0 ++ rest)) ++ rest

/-- Bytes of a tenant's newest snapshot, or of the one it would take. -/
def blobLen (s : State) (n : Nat) : Nat :=
  match (s.ten n).snapshot with
  | some b => b.length
  | none => 0x200 + 128 * (s.ten n).chans.length

/-- TENANT_SAVE (R309). -/
def execTenantSave (r : CmdReq) (offset : Nat) (s : State) : Res :=
  .next (runCmd
    { op := 0x0505, lenOk := r.plen == 8, acts := true, priv := fun s => hasMgr s r.iss
      dark := fun s => !s.domOn dHub
      own := fun s =>
        let n := targetOf s r
        firstFail [
          (offset != 0 && decide (blobLen s n ≤ offset), 5),
          (s.tnState n != 3 || (offset != 0 && (s.ten n).snapshot.isNone), 9),
          (!(s.ten n).quiesced, 1)]
      act := fun s =>
        let n := targetOf s r
        let s := when (offset == 0) (fun s => s.modTen n (fun t => { t with snapshot := some (stateBlob s n) })) s
        let b := ((s.ten n).snapshot).getD []
        finish r 0x0505 0 (le 4 b.length ++ le 4 offset ++ (b.drop offset).take 4032) s } r s)

/-! ### Restoring (R313, R314) -/

/-- Write a 32-bit image into the fields of a register. -/
def putImage (b : Blk) (i off v : Nat) (s : State) : State :=
  each (Fld.all.filter (fun f => decide (f.info.blk = b) && f.info.off == off && f.info.sub == 0))
    (fun f s => s.wr f (v / 2 ^ f.info.lsb) i) s

/-- A channel is loaded from its record (R314). -/
def loadChan (n c : Nat) (b : Bytes) (s : State) : State :=
  let cur := num b 0x20 8
  let s := s |> putImage .channel c 0x00 (num b 0 4) |> putImage .channel c 0x04 (num b 4 4)
    |> putImage .channel c 0x08 (num b 8 4) |> putImage .channel c 0x5C (num b 0xC 4)
  let s := s |>.wr .CH_DRAINING 0 c |>.wr .CH_HEAD_LO (num b 0x10 4 / 64) c |>.wr .CH_HEAD_HI (num b 0x14 4) c
    |>.wr .CH_CUR cur c |>.wr .CH_DONE_CNT (num b 0x28 8) c |>.wr .CH_BYTE_CNT (num b 0x30 8) c
    |>.wr .CH_HALT_CNT (num b 0x38 8) c |>.wr .CH_RETRY_CNT (num b 0x40 8) c |>.wr .CH_ERR_ADDR (num b 0x48 8) c
    |>.wr .CH_ERR_SPACE (num b 0x50 1) c
  let s := s.modCh c (fun x => { ChanS.reset with
    nextId := x.nextId
    resumeNext := num b 0x51 1 == 1
    resume := num b 0x18 8
    curAddr := cur
    fetchFailed := if s.rd .CH_STATE c = 2 then 1 else 0
    fetchRetries := s.rd .CH_RETRIES c })
  let rung := (num b 0x52 1).testBit 0
  s.modTen n (fun t => { t with doorbells := t.doorbells.erase c ++ (if rung then [c] else []) })

/-- The scheduling fields of a blob as a TENANT_MODIFY of them. -/
def blobSched (b : Bytes) : TenantParams where
  vf := 0
  hl := 0
  eligible := (num b 0x41 1).testBit 0
  weight := num b 0x40 1
  vectors := 0
  allowance := 0
  cbUnits := 0
  outAllot := 0
  inAllot := 0
  intAllot := 0
  rate := num b 0x44 4
  depth := num b 0x48 4
  permit := 0
  chTiller := []
  change := 0x121

/-- The checks of a complete blob (R313, R314, Table MG-6).  A LENGTH too short for its records, and a channel record whose STATE
Table MG-6 does not allow, have no refusal of their own in the spec: they are INVALID_PARAM, and the checks apply in the order
R338 gives their groups (DESIGN CHOICE, log entry 73). -/
def blobCheck (n : Nat) (keep : Bool) (b : Bytes) (s : State) : Nat :=
  let k := num b 0x1C 1
  firstFail [
    (b.take 4 != [0x52, 0x50, 0x54, 0x53] || num b 4 2 != 2 || k != (s.ten n).chans.length ||
      decide (s.rd .TN_VECTORS n < num b 0x42 1) || decide (b.length < 0x200 + 128 * k) ||
      (List.range k).any (fun i => decide (4 < num b (0x200 + 128 * i + 4) 4 % 8)), 5),
    (s.tags.any (fun t => t.req.tn == n) || (!keep && modifyCheck n (blobSched b) s != 0), 9),
    (crc32 (patch b 0xC (le 4 0)) != num b 0xC 4, 0xD)]

/-- A blob is applied (R314). -/
def applyBlob (n : Nat) (keep : Bool) (b : Bytes) (s : State) : State :=
  let f := s.tnFn n
  let s := when (!keep) (modifyTn n (blobSched b)) s
  let g := num b 0x1B 1 % 16
  let s := (s.wr .TN_GENERATION g n).wr .DVSEC_GENERATION g f
  let depth := match (s.ten n).newRate with
    | some (r, d) => depthFor r d
    | none => s.rd .TN_DEPTH n
  let bucket : Int := min (toSigned 32 (num b 0x4C 4)) (depth : Nat)
  let s := setBucket n (if bucketKept s n then bucket else 0) s
  let pend := num b 0x50 16
  let s := each ((List.range (s.rd .TN_VECTORS n)).filter (fun v => pend.testBit v))
    (fun v s => s.modVec f v (fun x => { x with pba := true, restored := true })) s
  let s := s.modTen n (fun t => { t with
    regions := (List.range 16).map (fun r => (num b (0xC0 + 16 * r) 8, num b (0xC8 + 16 * r) 8)) })
  let s := each ((s.ten n).chans.mapIdx (fun i c => (i, c))) (fun e s => loadChan n e.2 (sub b (0x200 + 128 * e.1) 128) s) s
  dirChanged (s.rd .TN_HL n) s

/-- TENANT_RESTORE (R313): pieces in order; the piece that completes LENGTH has the blob checked and applied. -/
def execTenantRestore (r : CmdReq) (offset flags : Nat) (data : Bytes) (s : State) : Res :=
  .next (runCmd
    { op := 0x0506, lenOk := decide (9 ≤ r.plen) && decide (r.plen ≤ 4040) && r.plen == 8 + data.length, acts := true
      priv := fun s => hasMgr s r.iss
      dark := fun s => !s.domOn dHub
      params := fun _ => decide (flags < 2)
      own := fun s =>
        let n := targetOf s r
        firstFail [(offset != 0 && offset != (s.ten n).restoreBuf.length, 5), (s.tnState n != 3, 9)]
      act := fun s =>
        let n := targetOf s r
        let b := (if offset = 0 then [] else (s.ten n).restoreBuf) ++ data
        let len := num b 8 4
        if b.length < 12 || b.length < len then
          finish r 0x0506 0 [] (s.modTen n (fun t => { t with restoreBuf := b }))
        else
          let b := b.take len
          let s := s.modTen n (fun t => { t with restoreBuf := [] })
          match blobCheck n (flags == 1) b s with
          | 0 => finish r 0x0506 0 [] (applyBlob n (flags == 1) b s)
          | k => finish r 0x0506 k [] s } r s)

end Sys2Proof.Machine
end

