-- ==== Sys2Proof/Machine/HostLinks.lean ====
section
/-!
DEFINITION. Host ports and links (chapter 3): reset events of a link and of its functions, readiness, reference clocks,
speed, width, low-power states, LTR, margining; and the function state that configuration writes change (chapter 4).
-/
namespace Sys2Proof.Machine

/-! ### Functions return to reset (R61, R74, R158, R326, R366) -/

/-- A function's configuration space after a reset.  PME_En and PME_Status outlast a conventional reset, since R58 acts on
them while PERST_N is asserted (DEDUCED, log entry 21); an FLR also keeps the AER fields and what else the PCI Express Base
Specification says it does (PRESUMED, log entry 21). -/
def FnCfg.afterReset (flr : Bool) (bar2 : Nat) (c : FnCfg) : FnCfg :=
  { FnCfg.reset with
    pmeEn := c.pmeEn, pmeStatus := c.pmeStatus
    corMask := if flr then c.corMask else FnCfg.reset.corMask
    uncMask := if flr then c.uncMask else FnCfg.reset.uncMask
    uncSev := if flr then c.uncSev else FnCfg.reset.uncSev
    corStatus := if flr then c.corStatus else 0
    uncStatus := if flr then c.uncStatus else 0
    firstErr := if flr then c.firstErr else 0
    hdrLog := if flr then c.hdrLog else 0
    maxPayload := if flr then c.maxPayload else FnCfg.reset.maxPayload
    aspmL1 := flr && c.aspmL1
    bar2Size := bar2 }

/-- The vectors, messages and replies on their way, and VF configuration of the functions that `mine` picks
end with their reset. -/
def fnForget (flr : Bool) (mine : Nat → Bool) (s : State) : State :=
  { s with
    vecs := s.vecs.filter (fun e => !mine (e.1 / 128))
    hostQ := s.hostQ.filter (fun r => !(mine (fnIdx r.fn) && (match r.src with | .msix _ _ | .reply _ => true | _ => false)))
    cfg := s.cfg.filterMap (fun e => if mine e.1 && fnVf e.1 != 0 then
      (let c := e.2.afterReset flr FnCfg.reset.bar2Size; if c = FnCfg.reset then none else some (e.1, c)) else some e) }

/-- Configuration, interrupt and command-ring state of the VFs of link `h` that `p` picks (0 stands for the PF) return to
reset; their scheduled commands end without a reply. -/
def fnReset (h : Nat) (flr : Bool) (p : Nat → Bool) (s : State) : State :=
  let mine (f : Nat) : Bool := fnHl f == h && p (fnVf f)
  let es := s.keeper.sched.filter (fun e => match e.req.iss with | .fn f => mine (fnIdx f) | .smp => false)
  let s := each es unschedule s
  let s := each ((enabledRings s).filter mine) (fun f s =>
    s.modKeeper (fun k => { k with ringGen := tset 0 k.ringGen f (tget 0 k.ringGen f + 1) })) s
  let s := s.resetRegs (fun k => (k.f.blk == .fnirq || k.f.blk == .cmdring) && k.f != .FI_VEC_COUNT && mine k.i)
  let pf := (s.cf (pfIdx h)).afterReset flr (tget 6 s.store.bar2Size h)
  let s := fnForget flr mine s
  if p 0 then pauseStream (s.modCf (pfIdx h) (fun _ => pf)) else s

/-- Commands of the functions that `p` picks whose fetch has not ended are never fetched (R366). -/
def orphanFetch (p : Nat → Bool) (s : State) : State :=
  let half (r : HReq) : Bool := p (fnIdx r.fn) && (match r.src with | .cmdHeader _ | .cmdParams _ _ => true | _ => false)
  let ends (c : Ctx) : Bool :=
    match c.iss with
    | .fn f => p (fnIdx f) && (!c.fetched || (s.hostQ ++ s.tags.map (·.req)).any (fun r =>
        match r.src with
        | .cmdParams _ hdr => r.fn == f && num hdr 2 2 == c.tag
        | _ => false))
    | .smp => false
  let s := s.modKeeper (fun k => { k with ctxs := k.ctxs.filter (fun c => !ends c) })
  let s := s.filterHostQ (fun r => !half r)
  let s := s.mapTags (fun t => if half t.req then { t with req := { t.req with src := .reply false } } else t)
  s.wr .KP_CTX_BUSY s.keeper.ctxs.length

/-- What is left of the requests of the functions that `p` picks ends (R156); a VF's tags, its command fetches included, go to
quarantine (R158). -/
def cutFns (p : Nat → Bool) (cause : Nat) (s : State) : State :=
  let s := discardWaiting (fun r => p (fnIdx r.fn) && (match r.src with | .intr _ _ _ _ => false | _ => true)) cause s
  let s := dropTags (fun r => p (fnIdx r.fn)) cause s
  each (s.tags.filter (fun t => p (fnIdx t.req.fn) && fnVf (fnIdx t.req.fn) != 0)) (fun t => quarantineTag t false) s

/-- Host requests of link `h` that wait for a held Weaseif link and that `p` picks end with their functions. -/
def dropWait (h : Nat) (p : Nat → Bool) (s : State) : State :=
  when ((s.hl h).inWait.any (fun x => p (fnIdx x.req.fn)))
    (fun s => s.modHl h (fun l => { l with inWait := l.inWait.filter (fun x => !p (fnIdx x.req.fn)) })) s

/-- A conventional reset of the functions of link `h` (R61): every tenant presented on the link is reset as by FLR. -/
def convReset (h cause : Nat) (s : State) : State :=
  let mine (f : Nat) : Bool := fnHl f == h
  let s := orphanFetch mine s
  let s := each ((heldTns s).filter (fun n => s.rd .TN_HL n == h)) resetTn s
  let s : State := { s with inRds := s.inRds.map (fun q => if q.req.fn.hl.val = h then { q with failed := 1, down := true } else q) }
  showExcused (fnReset h false (fun _ => true) (cutFns mine cause (dropWait h mine s)))

/-- The tenant that a VF presents is reset, the rest of its requests end, and it returns to reset: FLR of a VF (R74, R158). -/
def flrVf (f : Nat) (s : State) : State :=
  let s := orphanFetch (fun g => g == f) s
  let s := withSome (s.boundTn f) resetTn s
  let s : State := { s with inRds := s.inRds.map (fun q => if fnIdx q.req.fn = f then { q with failed := 1 } else q) }
  showExcused (fnReset (fnHl f) true (fun v => v == fnVf f) (cutFns (fun g => g == f) 5 (dropWait (fnHl f) (fun g => g == f) s)))

/-- VF Enable goes from 1 to 0: an FLR of each VF it removes (R74). -/
def clearVfs (h : Nat) (s : State) : State :=
  let p := pfIdx h
  if (s.cf p).vfEnable then
    let s := each (List.range' 1 (s.cf p).numVfs) (fun k => flrVf (p + k)) s
    (s.modCf p (fun c => { c with vfEnable := false, vfsReady := false })).modHl h (fun l => { l with vfPending := false })
  else s

/-- FLR of a PF (R74). -/
def flrPf (h : Nat) (s : State) : State :=
  let p := pfIdx h
  let s := orphanFetch (fun g => g == p) (clearVfs h s)
  let s : State := { s with inRds := s.inRds.map (fun q => if fnIdx q.req.fn = p then { q with failed := 1 } else q) }
  showExcused (fnReset h true (fun v => v == 0) (cutFns (fun g => g == p) 5 (dropWait h (fun g => g == p) s)))

/-! ### A link stops -/

/-- A run of the link ends: HL_STATUS, and what the bridge holds of the run. -/
def endRun (h ltssm : Nat) (s : State) : State :=
  let s := s |>.wr .HL_DL_UP 0 h |>.wr .HL_CUR_SPEED 0 h |>.wr .HL_CUR_WIDTH 0 h |>.wr .HL_FLIT 0 h |>.wr .HL_L1SUB 0 h
    |>.wr .HL_REVERSED 0 h |>.wr .HL_LTSSM ltssm h
  showClkreq h (s.modHl h (fun l => { l with
    drsSent := false, vfPending := false, ltrActive := false, idleTicks := 0, txBytes := 0, rxBytes := 0, lowTicks := 0
    fullWidth := 0, speed := 0, eqSpeeds := 0, partnerFlit := false }))

/-- A reset event of Table HL-3 takes the link to an LTSSM state with a conventional reset of its functions; `cause` is
what the PF's waiting requests fail with.  A link that was up counts and reports a DL_Down.  Packets of local designs
that waited for the link are counted in HL_DROP_CNT (R62). -/
def linkDown (h ltssm cause : Nat) (s : State) : State :=
  let was := s.dlUp h
  let waits := s.hostQ.filter (fun r => r.fn.hl.val == h && decide (r.tn < 256) &&
    (match r.src with | .window _ _ _ _ _ _ _ => true | _ => false))
  let s := endRun h ltssm (s.add .HL_DROP_CNT waits.length h)
  let s := convReset h cause s
  when was (fun s =>
    ward (hlTiller h) 12 (mHl h) 0 0 (hlEvent h .HL_DL_DOWN (trace 3 h 0x0302 0 (s.inc .HL_DOWN_CNT h)))) s

/-- A host link has its logic ON: its block can be reached and its events act. -/
def hlLive (s : State) (h : Nat) : Bool := s.present h && s.tlOn (hlTiller h)

/-- The pads of a port are released and its PHY is ON. -/
def hphyReady (s : State) (p : Nat) : Bool := s.domOn (dHphy p) && !s.on .PW_PAD_HOLD 0 (dHphy p)

/-- PERST_N asserted holds a link whose logic runs (Table HL-3). -/
def perstHeld (h : Nat) (s : State) : State :=
  hlEvent h .HL_PERST_ASSERT ((linkDown h 10 4 s).modHl h (fun l => { l with disabled := false, margining := [], perstFell := false }))

/-- PERST_ASSERT (R60, R59, R66): PERST_N falls on a link.  Where its tiller is not ON the functions are reset as it wakes. -/
def execPerstAssert (hl : Hl) (s : State) : Res :=
  let h := hl.val
  if s.pins.perst.testBit h then .next s
  else
    let s := s.modPins (fun p => { p with perst := setBit p.perst h })
    let s := when (s.present h) (fun s => s.wr .HL_PERST 1 h) s
    .next (if hlLive s h then perstHeld h s
      else when (s.present h) (fun s => s.modHl h (fun l => { l with perstFell := true })) s)

/-- PERST_DEASSERT (R58, R64, R66): PERST_N rises; WAKE_N of the port is released unless another of its links drives it. -/
def execPerstDeassert (hl : Hl) (s : State) : Res :=
  let h := hl.val
  let s := s.modPins (fun p => { p with perst := clrBit p.perst h })
  let woke := (s.hl h).wakeDriven
  let s := s.modHl h (fun l => { l with wakeDriven := false, inL2 := false })
  let others := (List.range 4).any (fun k => (s.hl (4 * hlTiller h + k)).wakeDriven)
  .next (when (woke && !others) (emit (.pin (.wakeN (hlTiller h)) true)) (when (s.present h) (fun s => s.wr .HL_PERST 0 h) s))

/-- HOT_RESET_RECEIVED (R60). -/
def execHotResetReceived (hl : Hl) (s : State) : Res :=
  let h := hl.val
  .next (when (hlLive s h && s.dlUp h)
    (fun s => hlEvent h .HL_HOT_RESET (emit (.phy h 0 0) (linkDown h 0 4 s))) s)

/-- DL_DOWN (R60): the data link goes down for any other cause. -/
def execDlDown (hl : Hl) (s : State) : Res :=
  let h := hl.val
  .next (when (hlLive s h && s.dlUp h) (fun s => emit (.phy h 0 0) (linkDown h 0 4 s)) s)

/-- LINK_DISABLE (R60): the partner directs Disabled. -/
def execLinkDisable (hl : Hl) (s : State) : Res :=
  let h := hl.val
  let st := s.rd .HL_LTSSM h
  .next (when (hlLive s h && st != 10 && st != 7)
    (fun s => (linkDown h 7 4 s).modHl h (fun l => { l with disabled := true })) s)

/-- LINK_DISABLE_END (R60, R64): the partner directs Disabled no more. -/
def execLinkDisableEnd (hl : Hl) (s : State) : Res :=
  let h := hl.val
  .next (when (hlLive s h && (s.hl h).disabled)
    (fun s => when (s.rd .HL_LTSSM h == 7) (fun s => emit (.phy h 0 0) (s.wr .HL_LTSSM 0 h))
      (s.modHl h (fun l => { l with disabled := false }))) s)

/-- A write of HL_CTRL.HOLD (R64): set, it takes a link that is up down and holds it. -/
def writeHold (h : Nat) (hold : Bool) (s : State) : State :=
  let s := s.wr .HL_HOLD (if hold then 1 else 0) h
  let st := s.rd .HL_LTSSM h
  if !hold || st = 10 then s
  else
    let s := if s.dlUp h || st = 6 then linkDown h 10 4 s else endRun h 10 s
    s.modHl h (fun l => { l with disabled := false })

/-- HL_HOLD_WRITE (R64). -/
def execHlHoldWrite (fn : Fn) (hl : Hl) (hold : Bool) (s : State) : Res :=
  .next (when (mgrWrites s fn && hlLive s hl) (writeHold hl hold) s)

/-! ### A link comes up (R64, R65, R426) -/

/-- DETECT_ENTRY (R64). -/
def execDetectEntry (hl : Hl) (s : State) : Res :=
  let h := hl.val
  .next (when (hlLive s h && hphyReady s (hlTiller h) && !s.on .HL_HOLD h && !s.pins.perst.testBit h && s.rd .HL_LTSSM h == 10)
    (fun s => emit (.phy h 0 0) ((s.wr .HL_LTSSM 0 h).modHl h (fun l => { l with inL2 := false }))) s)

/-- What the trace shows of speed and width (Table OB-2). -/
def linkArg (s : State) (h : Nat) : Nat := s.rd .HL_CUR_SPEED h + s.rd .HL_CUR_WIDTH h * 16

/-- The PF of a link is ready. -/
def pfReady (s : State) (h : Nat) : Bool := s.bit h .PW_FN_READY

/-- A DRS message, once in a run of the link (R65). -/
def sendDrs (h : Nat) (s : State) : State :=
  when (s.dlUp h && !(s.hl h).drsSent) (fun s =>
    hlEvent h .HL_DRS_SENT (sendMsg (pfIdx h) .drs (s.modHl h (fun l => { l with drsSent := true })))) s

/-- DL_UP (R51, R65): the link reaches L0 at 2.5 GT/s with the width it trained. -/
def execDlUp (hl : Hl) (width : Nat) (flit reversed : Bool) (s : State) : Res :=
  let h := hl.val
  let p := hlTiller h
  .next (when (hlLive s h && hphyReady s p && s.rd .HL_LTSSM h == 0 && !s.on .HL_HOLD h && !s.pins.perst.testBit h &&
      [1, 2, 4, 8, 16].contains width && decide (width ≤ s.rd .HL_MAX_WIDTH h)) (fun s =>
    let s := s |>.wr .HL_LTSSM 3 h |>.wr .HL_CUR_SPEED 1 h |>.wr .HL_CUR_WIDTH width h
      |>.wr .HL_FLIT (if flit then 1 else 0) h |>.wr .HL_REVERSED (if reversed then 1 else 0) h |>.wr .HL_DL_UP 1 h
    let s := s.modHl h (fun l => { l with fullWidth := width, speed := 1, partnerFlit := flit, idleTicks := 0, lowTicks := 0, inL2 := false })
    let s := trace 3 h 0x0301 (linkArg s h) s
    let s := when (decide (width < s.rd .HL_MAX_WIDTH h)) (hlEvent h .HL_WIDTH_CHG) s
    when (pfReady s h) (sendDrs h) s) s)

/-- The Keeper loads a link's configuration into its controller and serves its directory (R426). -/
def loadPf (h : Nat) (s : State) : State :=
  let s := when (!(s.hl h).pfLoaded) (fun s =>
    (s.modCf (pfIdx h) (fun c => { c with bar2Size := tget 6 s.store.bar2Size h })).modHl h (fun l => { l with pfLoaded := true })) s
  when ((s.hl h).dirDue || (s.hl h).dir.isEmpty) (rebuildDir h) s

/-- PF_READY (R426, R65). -/
def execPfReady (hl : Hl) (s : State) : Res :=
  let h := hl.val
  .next (when (keeperUp s && hlLive s h && hphyReady s (hlTiller h))
    (fun s => sendDrs h ((loadPf h s).setB h .PW_FN_READY)) s)

/-! ### Clocks that run (R396 to R398, R405, R406) -/

/-- A domain is ON, WAKING or HELD: its clock source runs. -/
def domLive (s : State) (d : Nat) : Bool := [2, 3, 4].contains (s.rd .PW_STATE 0 d)

/-- A PLL is enabled (R397). -/
def pllEnabled (s : State) (k : Nat) : Bool :=
  if k = 4 then domLive s dHub || (List.range 8).any (fun t => domLive s (dTl t))
  else if k = 5 then domLive s dKeep
  else if 16 ≤ k && k < 24 then domLive s (dHphy (k - 16))
  else if 24 ≤ k && k < 32 then domLive s (dWphy (k - 24))
  else false

/-- A clock is READY (R398). -/
def ckReady (s : State) (k : Nat) : Bool := s.bit k .CK_READY

/-- A clock runs: not a PLL that is not enabled, a domain clock whose PLL is not READY, the AON clock while R381 gates it, or a
REFCLK that is absent.  Whether a source that tripped has stopped or only left its limit is not told (log entry 77). -/
def clockRuns (s : State) (k : Nat) : Bool :=
  if k = 3 then s.clocks.asyncTrip.isNone
  else if k = 6 then s.on .CK_CORE_SRC || ckReady s 4
  else if k = 7 then s.on .CK_KEEP_SRC || ckReady s 5
  else if 8 ≤ k && k < 16 then s.pins.refclk.testBit (k - 8)
  else decide (k < 4) || pllEnabled s k

/-- The fixed divider that a clock is measured and observed behind (Table CK-1). -/
def ckFixed (k : Nat) : Nat := if 16 ≤ k && k < 32 then 16 else 1

/-- A clock has started or stopped: CLKOBS carries the one it names while that runs (R405), and a count sees that its clock has
run (R406). -/
def showObs (s : State) : State :=
  let k := s.rd .CK_SEL
  let div := min 4096 (s.rd .CK_DIV)
  let on := div != 0 && decide (k < 32) && clockRuns s k
  let s := when (on != s.clocks.obsOn) (fun s =>
    emit (if on then .clkobs k (ckFixed k * div) else .pin .clkobs false) (s.modClocks (fun c => { c with obsOn := on }))) s
  when (s.on .CK_BUSY && clockRuns s (s.rd .CK_FC_CKID)) (fun s => s.modClocks (fun c => { c with fcRan := true })) s

/-- Show the sources that are READY, and with them the domain clocks AON, CORE and KEEP that run from them (DEDUCED: R398
names no condition of theirs, log entry 32). -/
def showDerived (s : State) : State :=
  let r := s.rd .CK_READY
  let put (b : Nat) (on : Bool) (v : Nat) : Nat := putBit v b on
  showObs (s.wr .CK_READY (put 3 (r.testBit (s.rd .CK_AON_SRC))
    (put 6 (r.testBit (if s.on .CK_CORE_SRC then 2 else 4)) (put 7 (r.testBit (if s.on .CK_KEEP_SRC then 2 else 5)) r))))

/-- A clock becomes READY, or leaves it. -/
def setReady (k : Nat) (on : Bool) (s : State) : State := showDerived (s.wr .CK_READY (putBit (s.rd .CK_READY) k on))

/-! ### Reference clock (R49, R50, R398) -/

/-- Show whether REFCLK of a port is present, on its links and in CK_READY. -/
def showRefclk (p : Nat) (s : State) : State :=
  let on := s.pins.refclk.testBit p
  let hs := (List.range 4).map (4 * p + ·) |>.filter (fun h => hlLive s h)
  let s := each hs (fun h s => s.wr .HL_REFCLK_OK (if on then 1 else 0) h) s
  setReady (8 + p) (on && !hs.isEmpty) s

/-- Drive CLKREQ_N of a port's links. -/
def showClkreqs (p : Nat) (s : State) : State := each ((List.range 4).map (4 * p + ·)) showClkreq s

/-- A link for which a stop of REFCLK is expected (R50): in L1.1, L1.2, L2 or reset.  A link that its tiller, PHY or pads
keep from training is in reset; one held by HOLD alone is not. -/
def refclkRests (s : State) (h : Nat) : Bool :=
  let st := s.rd .HL_LTSSM h
  decide (2 ≤ s.rd .HL_L1SUB h) || st == 6 || (st == 10 && (s.pins.perst.testBit h || !hphyReady s (hlTiller h)))

/-- REFCLK_LOST (R50): a stop while all links of the port are in L1.1, L1.2, L2 or reset is expected. -/
def execRefclkLost (port : Tiller) (s : State) : Res :=
  let p := port.val
  let s := s.modPins (fun x => { x with refclk := clrBit x.refclk p })
  let hs := (List.range 4).map (4 * p + ·) |>.filter (fun h => hlLive s h)
  let expected := hs.all (refclkRests s)
  let s := showRefclk p s
  .next (if expected then s
    else
      let s := each hs (fun h s =>
        let s := hlEvent h .HL_REFCLK_LOST s
        if s.rd .HL_LTSSM h = 10 then s
        else (emit (.phy h 0 0) (linkDown h 0 4 s)).modHl h (fun l => { l with disabled := false })) s
      ward p 21 (mPort p) 0 0 s)

/-- REFCLK_RESTORED (R398): a clock step that waited for it waits no longer (R416). -/
def execRefclkRestored (port : Tiller) (s : State) : Res :=
  .next (showRefclk port.val
    ((s.modPins (fun x => { x with refclk := setBit x.refclk port.val })).wr .PW_REFCLK_WAIT 0 0 (dHphy port.val)))

/-! ### Recovery, speed and width (R51 to R53) -/

/-- HL_RETRAIN_WRITE: the link is taken to Recovery (Table HL-6), from which it returns to L0. -/
def execHlRetrainWrite (fn : Fn) (hl : Hl) (s : State) : Res :=
  let h := hl.val
  .next (when (mgrWrites s fn && hlLive s h && s.dlUp h) (fun s => emit (.phy h 1 0) (s.inc .HL_RECOV_CNT h)) s)

/-- The highest speed HL_CTRL.TARGET_SPEED allows (Table HL-6). -/
def targetSpeed (s : State) (h : Nat) : Nat :=
  let v := s.rd .HL_TARGET_SPEED h
  if 1 ≤ v && v ≤ 6 then v else 6

/-- The speed a change ends at where equalisation at `speed` fails (R51, R52): the highest allowed one that stands equalised,
or one below 8 GT/s when none does. -/
def eqFallback (s : State) (h speed : Nat) : Nat :=
  (([6, 5, 4, 3].filter (fun n => (s.hl h).eqSpeeds.testBit n && n != speed && decide (n ≤ targetSpeed s h))).head?).getD
    (min (min (s.hl h).speed (targetSpeed s h)) 2)

/-- SPEED_CHANGE (R51, R52): 64 GT/s needs flit mode.  `eqOk` false says that equalisation at the speed failed. -/
def execSpeedChange (hl : Hl) (speed : Nat) (eqOk : Bool) (s : State) : Res :=
  let h := hl.val
  .next (when (hlLive s h && s.dlUp h && s.rd .HL_LTSSM h == 3 && decide (1 ≤ speed) && decide (speed ≤ targetSpeed s h) &&
      (speed != 6 || s.on .HL_FLIT h)) (fun s =>
    let failed := decide (3 ≤ speed) && !eqOk
    let to_ := if failed then eqFallback s h speed else speed
    let changed := to_ != (s.hl h).speed
    let s := emit (.phy h 2 to_) (s.inc .HL_RECOV_CNT h)
    let s := (s.wr .HL_CUR_SPEED to_ h).modHl h (fun l => { l with
      speed := to_
      eqSpeeds := if speed < 3 then l.eqSpeeds else putBit l.eqSpeeds speed eqOk })
    let s := when failed (fun s => ward (hlTiller h) 12 (mHl h) 0 0 (hlEvent h .HL_EQ_FAIL s)) s
    when changed (fun s => hlEvent h .HL_SPEED_CHG (trace 3 h 0x0303 (linkArg s h) s)) s) s)

/-- The active width changes (R53). -/
def setWidth (h w : Nat) (s : State) : State :=
  if s.rd .HL_CUR_WIDTH h = w then s
  else
    let s := emit (.phy h 3 w) ((s.wr .HL_CUR_WIDTH w h).modHl h (fun l => { l with lowTicks := 0 }))
    hlEvent h .HL_WIDTH_CHG (trace 3 h 0x0303 (linkArg s h) s)

/-- The link runs in flit mode in L0: L0p may change its width. -/
def l0pRuns (s : State) (h : Nat) : Bool := hlLive s h && s.dlUp h && s.rd .HL_LTSSM h == 3 && s.on .HL_FLIT h

/-- L0P_PARTNER_REQUEST (R53): accepted always. -/
def execL0pPartnerRequest (hl : Hl) (width : Nat) (s : State) : Res :=
  .next (when (l0pRuns s hl && [1, 2, 4, 8, 16].contains width && decide (width ≤ (s.hl hl).fullWidth)) (setWidth hl width) s)

/-- The narrowest L0p width (Table HL-6). -/
def l0pMin (s : State) (h : Nat) : Nat :=
  match s.rd .HL_L0P_MIN h with
  | 1 => 1
  | 2 => 2
  | 3 => 4
  | _ => 8

/-- The bridge requests L0p changes itself (R53, Table HL-6). -/
def l0pAuto (s : State) (h : Nat) : Bool := l0pRuns s h && s.on .HL_L0P_AUTO h && s.on .HL_L0P_WINDOW h

/-- L0P_HALVE (R53): the traffic has stayed low for L0P_WINDOW ticks. -/
def execL0pHalve (hl : Hl) (s : State) : Res :=
  let w := s.rd .HL_CUR_WIDTH hl / 2
  .next (when (l0pAuto s hl && decide (l0pMin s hl ≤ w) && decide (1 ≤ w) &&
    decide (s.rd .HL_L0P_WINDOW hl ≤ (s.hl hl).lowTicks)) (setWidth hl w) s)

/-- Full width is called for (R53): the traffic of a direction in the tick that runs exceeds 90 % of the width's capacity,
or a cadence-class packet waits for the link. -/
def l0pBusy (s : State) (h : Nat) : Bool :=
  let lim := 90 * lanesCap s (s.hl h).speed (s.rd .HL_CUR_WIDTH h)
  decide (lim < 100 * (s.hl h).txBytes) || decide (lim < 100 * (s.hl h).rxBytes) ||
    s.hostQ.any (fun r => r.fn.hl.val == h && !r.frozen && r.cls == 3)

/-- L0P_RESTORE (R53): traffic above 90 %, or a cadence-class packet that waits. -/
def execL0pRestore (hl : Hl) (s : State) : Res :=
  .next (when (l0pAuto s hl && l0pBusy s hl) (setWidth hl (s.hl hl).fullWidth) s)

/-! ### Low-power states, LTR, margining (R54 to R58, R67) -/

/-- The bridge may request ASPM L1 (R54): the host has enabled it, the link has been idle for L1_IDLE_TICKS, nothing is
outstanding and nothing waits. -/
def l1Quiet (s : State) (h : Nat) : Bool :=
  let idle := s.rd .HL_L1_IDLE_TICKS h
  (s.cf (pfIdx h)).aspmL1 && idle != 0 && decide (idle ≤ (s.hl h).idleTicks) &&
    !s.tags.any (fun t => t.req.fn.hl.val == h && !t.quarantined) && !s.hostQ.any (fun r => r.fn.hl.val == h && !r.frozen)

/-- ASPM_L1_ENTRY (R54): the bridge requests L1, or follows a request of the host (`host`), which needs none of the
conditions; `substate` 0 is L1.0, 1 L1.1 and 2 L1.2, entered where the host enables it: for ASPM, or for PCI-PM when the
host asks. -/
def execAspmL1Entry (hl : Hl) (ask : L1Ask) (s : State) : Res :=
  let h := hl.val
  .next (when (hlLive s h && s.dlUp h && s.rd .HL_LTSSM h == 3 && (ask.host || l1Quiet s h)) (fun s =>
    let enable := (if ask.host then 0 else 2) + (2 - ask.substate.val)
    let sub := if ask.substate.val = 0 || (s.cf (pfIdx h)).l1ss.testBit enable then ask.substate.val else 0
    let s := s |>.wr .HL_LTSSM 5 h |>.wr .HL_L1SUB (1 + sub) h |>.wr .HL_CUR_SPEED 0 h
    showClkreq h (emit (.phy h 4 sub) s)) s)

/-- L1_EXIT (R55): the link returns to L0 through Recovery. -/
def execL1Exit (hl : Hl) (s : State) : Res := .next (when (hlLive s hl) (leaveL1 hl) s)

/-- L2_ENTRY (R58): the host takes the link into L2; its functions are not reset. -/
def execL2Entry (hl : Hl) (s : State) : Res :=
  let h := hl.val
  .next (when (hlLive s h && s.dlUp h) (fun s =>
    let s := s |>.wr .HL_LTSSM 6 h |>.wr .HL_L1SUB 0 h |>.wr .HL_CUR_SPEED 0 h |>.wr .HL_DL_UP 0 h
    showExcused (showClkreq h (emit (.phy h 7 0) (s.modHl h (fun l => { l with inL2 := true, ltrActive := false }))))) s)

/-- LTR_ACTIVE (R57): a TLP is queued after an idle LTR. -/
def execLtrActive (hl : Hl) (s : State) : Res :=
  let h := hl.val
  .next (when (hlLive s h && s.dlUp h && (s.cf (pfIdx h)).ltrEn && !(s.hl h).ltrActive &&
    s.hostQ.any (fun r => r.fn.hl.val == h && !r.frozen)) (fun s => sendLtr h (leaveL1 h s)) s)

/-- LTR_NO_REQUIREMENT (R57): no TLP for LTR_IDLE_TICKS ticks. -/
def execLtrNoRequirement (hl : Hl) (s : State) : Res :=
  let h := hl.val
  let idle := s.rd .HL_LTR_IDLE_TICKS h
  .next (when (hlLive s h && s.dlUp h && (s.cf (pfIdx h)).ltrEn && (s.hl h).ltrActive && idle != 0 &&
      decide (idle ≤ (s.hl h).idleTicks)) (fun s =>
    putMsg (pfIdx h) .ltrNone ((leaveL1 h s).modHl h (fun l => { l with ltrActive := false }))) s)

/-- The parameters of Table HL-4 at a speed, by the report payload that asks for them: capabilities, steps, offsets,
sampling rates, lanes.  The payloads and the layout of the capability byte are those of the PCI Express Base Specification
(PRESUMED, log entry 44). -/
def marginReport (speed lanes payload : Nat) : Option Nat :=
  let at_ (l : List Nat) : Option Nat := l[speed - 4]?
  match payload with
  | 0x88 => some 0x1F
  | 0x89 => at_ [64, 64, 32]
  | 0x8A => at_ [32, 32, 16]
  | 0x8B => at_ [40, 35, 30]
  | 0x8C => at_ [30, 25, 15]
  | 0x8D => some 31
  | 0x8E => some 31
  | 0x90 => some (lanes - 1)
  | _ => none

/-- The answer to a margining command, whose payload is in [15:8] and whose type in [5:3]: a report states its parameter,
and what the sampler measures is open (R67). -/
def marginAnswer (s : State) (h command : Nat) (k : Nat → State → State) : State :=
  let head := command % 128
  match (if command / 8 % 8 = 1 then marginReport (s.rd .HL_CUR_SPEED h) (s.hl h).fullWidth (command / 256 % 256) else none) with
  | some v => k (head + v * 256) s
  | none => draw s (fun v => k (head + v % 256 * 256))

/-- LANE_MARGINING_COMMAND (R67): at 16 GT/s and above a lane of the link takes a margining command, which the bridge
answers; nothing else of the link changes. -/
def execLaneMarginingCommand (hl : Hl) (lane command : Nat) (s : State) : Res :=
  let h := hl.val
  .next (when (hlLive s h && s.dlUp h && decide (4 ≤ s.rd .HL_CUR_SPEED h) && decide (lane < s.rd .HL_CUR_WIDTH h)) (fun s =>
    marginAnswer s h command (fun a s =>
      emit (.phy h 6 (lane + (command % 2 ^ 16 + a * 2 ^ 16) * 16))
        (s.modHl h (fun l => { l with margining := tput l.margining lane (command % 2 ^ 16 + a * 2 ^ 16) })))) s)

/-! ### Configuration state of functions (R56, R65, R72, R74, R81, R156, R157) -/

/-- Configuration requests of a function are answered other than with RRS or UR: its link is up and takes requests (R204), it
exists and is ready. -/
def cfgServed (s : State) (f : Nat) : Bool :=
  hlLive s (fnHl f) && s.dlUp (fnHl f) && !inboundFull s (fnHl f) && pfReady s (fnHl f) && fnEnabled s f

/-- VF_ENABLE_SET (R65). -/
def setVfEnable (h : Nat) (s : State) : State :=
  if (s.cf (pfIdx h)).vfEnable then s
  else (s.modCf (pfIdx h) (fun c => { c with vfEnable := true, vfsReady := false })).modHl h (fun l => { l with vfPending := true })

/-- VF_ENABLE_SET (R65): the host sets VF Enable. -/
def execVfEnableSet (hl : Hl) (s : State) : Res := .next (when (cfgServed s (pfIdx hl)) (setVfEnable hl) s)

/-- VF_READY (R65): the VFs are ready, and an FRS message leaves. -/
def execVfReady (hl : Hl) (s : State) : Res :=
  let h := hl.val
  .next (when (hlLive s h && (s.hl h).vfPending && (s.cf (pfIdx h)).vfEnable) (fun s =>
    sendMsg (pfIdx h) .frs ((s.modCf (pfIdx h) (fun c => { c with vfsReady := true })).modHl h
      (fun l => { l with vfPending := false }))) s)

/-- VF_ENABLE_CLEAR (R74): the host clears VF Enable. -/
def execVfEnableClear (hl : Hl) (s : State) : Res := .next (when (cfgServed s (pfIdx hl)) (clearVfs hl) s)

/-- FLR of a function (R74, R158). -/
def flrFn (f : Nat) (s : State) : State := if fnVf f = 0 then flrPf (fnHl f) s else flrVf f s

/-- FLR (R74): a Function Level Reset. -/
def execFlr (fn : Fn) (s : State) : Res := .next (when (cfgServed s (fnIdx fn)) (flrFn (fnIdx fn)) s)

/-- Bus Master Enable goes to 0 (R156). -/
def clearBme (f : Nat) (s : State) : State :=
  if (s.cf f).bme then pauseStream (stopFn f 5 (s.modCf f (fun c => { c with bme := false }))) else s

/-- The vectors of a function whose PBA bits are set send their messages where nothing keeps them back (R324). -/
def releaseVecs (f : Nat) (s : State) : State := each (List.range (s.rd .FI_VEC_COUNT f)) (releaseVec f) s

/-- Bus Master Enable goes to 1 (R157). -/
def setBme (f : Nat) (s : State) : State :=
  if (s.cf f).bme then s else releaseVecs f ((purgeFn f 5 s).modCf f (fun c => { c with bme := true }))

/-- BUS_MASTER_CLEAR (R156). -/
def execBusMasterClear (fn : Fn) (s : State) : Res := .next (when (cfgServed s (fnIdx fn)) (clearBme (fnIdx fn)) s)

/-- BUS_MASTER_SET (R157). -/
def execBusMasterSet (fn : Fn) (s : State) : Res := .next (when (cfgServed s (fnIdx fn)) (setBme (fnIdx fn)) s)

/-- The PF of a link and its enabled VFs. -/
def linkFns (s : State) (h : Nat) : List Nat :=
  pfIdx h :: (if (s.cf (pfIdx h)).vfEnable then (List.range' 1 (s.cf (pfIdx h)).numVfs).map (pfIdx h + ·) else [])

/-- The PF enters D3hot, and its VFs with it (R56, R77). -/
def enterD3 (h : Nat) (s : State) : State :=
  if (s.cf (pfIdx h)).d3 then s
  else pauseStream (each (linkFns s h) (fun f => stopFn f 5) (s.modCf (pfIdx h) (fun c => { c with d3 := true })))

/-- The PF returns to D0 with its state (R56). -/
def leaveD3 (h : Nat) (s : State) : State :=
  if (s.cf (pfIdx h)).d3 then
    each (linkFns s h) releaseVecs
      ((each (linkFns s h) (fun f => purgeFn f 5) s).modCf (pfIdx h) (fun c => { c with d3 := false }))
  else s

/-- D3HOT_ENTRY (R56). -/
def execD3hotEntry (hl : Hl) (s : State) : Res := .next (when (cfgServed s (pfIdx hl)) (enterD3 hl) s)

/-- D0_RETURN (R56). -/
def execD0Return (hl : Hl) (s : State) : Res := .next (when (cfgServed s (pfIdx hl)) (leaveD3 hl) s)

/-- TotalVFs of a link: 0 in ROM recovery mode (R71, R97). -/
def linkVfs (s : State) (h : Nat) : Nat := if recovery s then 0 else tget 0 s.store.totalVfs h

/-- A host write of NumVFs (R72). -/
def writeNumVfs (h v : Nat) (s : State) : State :=
  if (s.cf (pfIdx h)).vfEnable then s
  else s.modCf (pfIdx h) (fun c => { c with numVfs := min v (linkVfs s h) })

/-- NUMVFS_WRITE (R72). -/
def execNumvfsWrite (hl : Hl) (v : BitVec 16) (s : State) : Res :=
  .next (when (cfgServed s (pfIdx hl)) (writeNumVfs hl v.toNat) s)

/-- A host write of the PF's BAR Size (R81): 64 MiB to 1 TiB; another value is not a size the capability offers. -/
def writeBar2Size (h v : Nat) (s : State) : State :=
  when (decide (6 ≤ v) && decide (v ≤ 20)) (fun s => s.modCf (pfIdx h) (fun c => { c with bar2Size := v })) s

/-- REBAR_SIZE_WRITE (R81). -/
def execRebarSizeWrite (hl : Hl) (v : Fin 64) (s : State) : Res :=
  .next (when (cfgServed s (pfIdx hl)) (writeBar2Size hl v.val) s)

/-! ### Expansion ROM (R88, R421) -/

/-- The bytes of a read of the ROM window, or all 1s while PD_KEEP is not ON. -/
def romBytes (s : State) (h off len : Nat) : Bytes :=
  if s.domOn dKeep then sub (romWindow s h) off len else List.replicate len 0xFF

/-- EXPROM_READ (R88): served while the ROM BAR and memory space are enabled; within 1 MiB. -/
def execExpromRead (hl : Hl) (offset len hostTag : Nat) (s : State) : Res :=
  let h := hl.val
  let f := pfIdx h
  let c := s.cf f
  .next (when (hlLive s h && s.dlUp h && !inboundFull s h) (fun s =>
    let s := rxTlp h 0 s
    if !c.mse || !c.romEn || c.d3 || 2 ^ 20 < offset + len then sendCpl f hostTag 1 len [] s
    else
      let s := when (!s.domOn dKeep) (darkHit dKeep f 1 offset) s
      let data := romBytes s h offset len
      if len = 0 then sendCpl f hostTag 0 0 [] s
      else
        let s : State := { s with pktCount := s.pktCount + 1 }
        let id := s.pktCount
        let q : InRd := ⟨id, ⟨fnOf f, false, false, offset, len, [], hostTag⟩, 1, [(0, data)], 0, 0, false, 0, 256⟩
        sendHostCpls id (len / 64 + 2) { s with inRds := s.inRds ++ [q] }) s)

end Sys2Proof.Machine
end

