-- ==== Sys2Proof/Machine/ConfigSpace.lean ====
section
/-!
DEFINITION. Configuration requests (R65): what a read shows of the structures of Tables CF-1, CF-2, CF-4 and CF-5, and
what a write of a field changes.  The places of the standard structures' own fields are those of the PCI Express Base
Specification, to which the chapter refers (PRESUMED, log entry 4); a bit the spec states no value for is
`Config.cfgDword`'s.
-/
namespace Sys2Proof.Machine

/-- A field of a configuration dword: offset, lowest bit, width, value. -/
abbrev CfgBits := Nat × Nat × Nat × Nat

/-- 1 for true. -/
def b2n (b : Bool) : Nat := if b then 1 else 0

/-- The header of an extended capability: identifier, version, next. -/
def extCap (off id ver next : Nat) : List CfgBits := [(off, 0, 16, id), (off, 16, 4, ver), (off, 20, 12, next)]

/-- A 64-bit BAR: its base as far as its size leaves it, and its type bits. -/
def barBits (off size typ base : Nat) : List CfgBits :=
  let v := base % 2 ^ 64 / size * size + typ
  [(off, 0, 32, v % 2 ^ 32), (off + 4, 0, 32, v / 2 ^ 32)]

/-- The BARs of a function (Table CF-5, R80, R81): those of a PF; a VF's are in its PF's SR-IOV structure. -/
def cfgBars (s : State) (f : Nat) : List CfgBits :=
  let c := s.cf f
  if fnVf f = 0 then
    barBits 0x10 (2 ^ 26) 4 c.bar0 ++ barBits 0x18 (2 ^ (20 + c.bar2Size)) 12 c.bar2 ++ barBits 0x20 (2 ^ 20) 4 c.bar4 ++
      [(0x30, 0, 32, c.romBar % 2 ^ 32 / 2 ^ 20 * 2 ^ 20 + b2n c.romEn)]
  else (List.range 6).map (fun k => (0x10 + 4 * k, 0, 32, 0)) ++ [(0x30, 0, 32, 0)]

/-- The VF BARs of a PF's SR-IOV structure (Table CF-5, R71, R80). -/
def cfgVfBars (s : State) (f : Nat) : List CfgBits :=
  let c := s.cf f
  barBits 0x174 (2 ^ 16) 4 c.vfBar0 ++ barBits 0x17C (2 ^ tget 20 s.store.vfBar2 (fnHl f)) 12 c.vfBar2 ++
    barBits 0x184 (if c.sysPage = 0x10 then 2 ^ 16 else 2 ^ 14) 4 c.vfBar4

/-- The header fields that a function shows (Tables CF-1 and CF-5). -/
def cfgHeader (s : State) (f : Nat) : List CfgBits :=
  let c := s.cf f
  let pf := fnVf f == 0
  [(0x00, 0, 16, if pf then 0x1D5E else 0xFFFF), (0x00, 16, 16, if pf then s.rd .DEV_DEVICE else 0xFFFF),
   (0x04, 1, 1, b2n c.mse), (0x04, 2, 1, b2n c.bme), (0x04, 20, 1, 1), (0x08, 0, 8, 0xB0), (0x08, 8, 24, 0x088000),
   (0x0C, 16, 8, 0), (0x2C, 0, 16, (s.hl (fnHl f)).subsysVendor), (0x2C, 16, 16, (s.hl (fnHl f)).subsysId), (0x34, 0, 8, 0x40),
   (0x3C, 8, 8, 0)] ++ cfgBars s f

/-- Power Management and MSI-X of a PF (Table CF-2). -/
def cfgPmMsix (s : State) (f : Nat) : List CfgBits :=
  let c := s.cf f
  [(0x40, 0, 8, 0x01), (0x40, 8, 8, 0x50), (0x40, 16, 3, 3), (0x40, 25, 2, 0), (0x40, 27, 5, 0x19),
   (0x44, 0, 2, if c.d3 then 3 else 0), (0x44, 3, 1, 1), (0x44, 8, 1, b2n c.pmeEn), (0x44, 15, 1, b2n c.pmeStatus),
   (0x50, 0, 8, 0x11), (0x50, 8, 8, 0x70), (0x50, 16, 11, 31), (0x50, 30, 1, b2n c.fmask), (0x50, 31, 1, b2n c.msixEn),
   (0x54, 0, 32, 4), (0x58, 0, 32, 0x8004)]

/-- MSI-X of a VF (R77). -/
def cfgVfMsix (s : State) (f : Nat) : List CfgBits :=
  let c := s.cf f
  [(0x40, 0, 8, 0x11), (0x40, 8, 8, 0x70), (0x40, 16, 11, s.rd .FI_VEC_COUNT f - 1), (0x40, 30, 1, b2n c.fmask),
   (0x40, 31, 1, b2n c.msixEn), (0x44, 0, 32, 4), (0x48, 0, 32, 0x2004)]

/-- The PCI Express structure (Table CF-2). -/
def cfgExpress (s : State) (f : Nat) : List CfgBits :=
  let c := s.cf f
  let h := fnHl f
  [(0x70, 0, 8, 0x10), (0x70, 8, 8, 0), (0x70, 16, 4, 2), (0x70, 20, 4, 0), (0x70, 31, 1, 1),
   (0x74, 0, 3, 2), (0x74, 5, 1, 1), (0x74, 9, 3, 6), (0x74, 15, 1, 1), (0x74, 28, 1, 1),
   (0x78, 0, 1, b2n c.corrEn), (0x78, 1, 1, b2n c.nonFatalEn), (0x78, 2, 1, b2n c.fatalEn), (0x78, 3, 1, b2n c.unsuppEn),
   (0x78, 4, 1, b2n c.roEn), (0x78, 5, 3, c.maxPayload), (0x78, 8, 1, b2n c.extTag), (0x78, 12, 3, c.maxReadReq),
   (0x78, 15, 1, 0)] ++
  [(0x7C, 0, 4, 6), (0x7C, 4, 6, s.rd .HL_MAX_WIDTH h), (0x7C, 10, 2, 2), (0x7C, 15, 3, 4), (0x7C, 18, 1, 1),
   (0x7C, 24, 8, h), (0x80, 0, 2, 2 * b2n c.aspmL1), (0x80, 3, 1, b2n c.rcb128), (0x80, 16, 4, (s.hl h).speed), (0x80, 20, 6, s.rd .HL_CUR_WIDTH h),
   (0x80, 28, 1, b2n (s.rd .HL_CLKMODE h == 0)),
   (0x94, 0, 5, 7), (0x94, 7, 3, 0), (0x94, 11, 1, 1), (0x94, 12, 2, 0), (0x94, 16, 2, 3), (0x94, 18, 2, 0), (0x94, 20, 1, 1),
   (0x94, 21, 1, 0), (0x94, 24, 3, 0), (0x94, 31, 1, 1),
   (0x98, 0, 4, c.ctoValue), (0x98, 6, 1, b2n c.atomicEn), (0x98, 8, 1, b2n c.idoEn), (0x98, 10, 1, b2n c.ltrEn),
   (0x98, 12, 1, b2n c.tag10), (0x9C, 1, 7, 0x3F), (0x9C, 31, 1, 1)]

/-- AER at an offset (Table HL-5, R375): statuses, masks, severity, first error and header log; no ECRC. -/
def cfgAer (s : State) (f off next : Nat) : List CfgBits :=
  let c := s.cf f
  extCap off 0x0001 2 next ++
  [(off + 0x04, 0, 32, c.uncStatus), (off + 0x08, 0, 32, c.uncMask), (off + 0x0C, 0, 32, c.uncSev),
   (off + 0x10, 0, 32, c.corStatus), (off + 0x14, 0, 32, c.corMask), (off + 0x18, 0, 5, c.firstErr), (off + 0x18, 5, 5, 0)] ++
  (List.range 4).map (fun k => (off + 0x1C + 4 * k, 0, 32, c.hdrLog / 2 ^ (32 * (3 - k))))

/-- SR-IOV, Device Serial Number, LTR, L1 PM Substates, PTM and Resizable BAR of a PF (Table CF-2, R76, R81). -/
def cfgPfExtended (s : State) (f : Nat) : List CfgBits :=
  let c := s.cf f
  let h := fnHl f
  extCap 0x150 0x0010 1 0x190 ++
  [(0x154, 0, 1, 0), (0x158, 0, 1, b2n c.vfEnable), (0x15C, 0, 16, tget 0 s.store.initialVfs h),
   (0x15C, 16, 16, linkVfs s h), (0x160, 0, 16, c.numVfs), (0x164, 0, 32, 0x00010001),
   (0x168, 16, 16, 0x8097), (0x16C, 0, 32, 0x11), (0x170, 0, 32, c.sysPage)] ++ cfgVfBars s f ++
  extCap 0x190 0x0003 1 0x1A0 ++ [(0x194, 0, 32, s.rd .DEV_DSN_LO), (0x198, 0, 32, s.rd .DEV_DSN_HI)] ++
  extCap 0x1A0 0x0018 1 0x1A8 ++ [(0x1A4, 0, 13, c.ltrMaxSnoop), (0x1A4, 16, 13, c.ltrMaxNoSnoop)] ++
  extCap 0x1A8 0x001E 1 0x1B8 ++
  [(0x1AC, 0, 5, 0x1F), (0x1AC, 8, 8, 30), (0x1AC, 16, 2, 1), (0x1AC, 19, 5, 5), (0x1B0, 0, 4, c.l1ss)] ++
  extCap 0x1B8 0x001F 1 0x1C4 ++ [(0x1BC, 0, 3, 1), (0x1C0, 0, 1, b2n c.ptmEn)] ++
  extCap 0x1C4 0x0015 1 0x1D0 ++ [(0x1C8, 4, 28, 0x1FFFC0), (0x1CC, 0, 3, 2), (0x1CC, 5, 3, 1), (0x1CC, 8, 6, c.bar2Size)]

/-- The lanes of a PF's structures beyond the link's width read 0, and Lane Margining shows each lane's command in force and
its answer (Table CF-2, R67): with none, both are No Command, 0x9C38 (PRESUMED, log entry 44). -/
def cfgLanes (s : State) (h : Nat) : List CfgBits :=
  let w := s.rd .HL_MAX_WIDTH h
  ((List.range 16).filter (fun k => decide (w ≤ k))).flatMap (fun k =>
    [(0x20C + k / 2 * 4, k % 2 * 16, 16, 0), (0x2E8 + 4 * k, 0, 32, 0)]) ++
  ((List.range 16).filter (fun k => decide (k < w))).map (fun k =>
    (0x2E8 + 4 * k, 0, 32, tget 0x9C389C38 (s.hl h).margining k))

/-- The structures of a PF that hold nothing of the function's own (Table CF-2): among them Readiness Time Reporting, each
time a value and a power of 32 in nanoseconds: 100 ms is 96 × 32⁴, 1 ms is 31 × 32³ (1.016 ms) and 10 µs 313 × 32 (10.016 µs),
the smallest times of that form not below the table's, as far as the value's width goes (PRESUMED, log entry 4). -/
def cfgPfRest : List CfgBits :=
  extCap 0x148 0x000E 1 0x150 ++ [(0x14C, 8, 8, 0)] ++ extCap 0x1D0 0x0025 1 0x1DC ++ [(0x1D4, 0, 1, 1)] ++
  extCap 0x1DC 0x0022 1 0x200 ++
  [(0x1E0, 0, 12, 96 + 4 * 512), (0x1E0, 12, 12, 96 + 4 * 512), (0x1E0, 31, 1, 1), (0x1E4, 0, 12, 31 + 3 * 512),
   (0x1E4, 12, 12, 313 + 512)] ++
  extCap 0x200 0x0019 1 0x230 ++ extCap 0x230 0x0026 1 0x260 ++
  extCap 0x260 0x002A 1 0x2A0 ++ extCap 0x2A0 0x0031 1 0x2E0 ++ extCap 0x2E0 0x0027 1 0x330 ++
  extCap 0x330 0x002F 1 0x340 ++ [(0x334, 1, 2, 3), (0x334, 3, 1, 1), (0x334, 10, 2, 0)]

/-- FW_STATE of Table CF-4: 0 confirmed, 1 in trial period, 2 ROM recovery. -/
def fwState (s : State) : Nat := if recovery s then 2 else if s.upd.state = 5 then 1 else 0

/-- The Tusyn DVSEC of a function at an offset (Table CF-4). -/
def cfgDvsec (s : State) (f off : Nat) : List CfgBits :=
  let h := fnHl f
  extCap off 0x0023 1 0 ++
  [(off + 0x04, 0, 16, 0x1D5E), (off + 0x04, 16, 4, 0), (off + 0x04, 20, 12, 0x020), (off + 0x08, 0, 32, 0x0001),
   (off + 0x0C, 0, 5, h), (off + 0x0C, 5, 3, h / 4), (off + 0x0C, 8, 1, b2n (s.isMgr f)),
   (off + 0x0C, 9, 1, b2n (recovery s)), (off + 0x0C, 10, 6, 0), (off + 0x0C, 16, 16, s.rd .DVSEC_TNID f),
   (off + 0x10, 0, 32, s.rd .DVSEC_GENERATION f), (off + 0x14, 0, 32, (s.hl h).dirGen), (off + 0x18, 0, 32, s.upd.fwVersion),
   (off + 0x1C, 0, 32, fwState s)]

/-- Every field of a function's configuration space that the spec states. -/
def cfgFields (s : State) (f : Nat) : List CfgBits :=
  if fnVf f = 0 then
    cfgHeader s f ++ cfgPmMsix s f ++ cfgExpress s f ++ cfgAer s f 0x100 0x148 ++ cfgPfExtended s f ++ cfgPfRest ++
      cfgLanes s (fnHl f) ++ cfgDvsec s f 0x340
  else
    cfgHeader s f ++ cfgVfMsix s f ++ cfgExpress s f ++ extCap 0x100 0x000E 1 0x110 ++ [(0x104, 8, 8, 0)] ++
      cfgAer s f 0x110 0x160 ++ cfgDvsec s f 0x160

/-- Put a field into a dword. -/
def putField (v lsb width x : Nat) : Nat :=
  v % 2 ^ lsb + x % 2 ^ width * 2 ^ lsb + v / 2 ^ (lsb + width) * 2 ^ (lsb + width)

/-- What a configuration read of the dword at `off` returns. -/
def cfgRead (s : State) (f off : Nat) : Nat :=
  ((cfgFields s f).filter (fun e => e.1 == off)).foldl (fun v e => putField v e.2.1 e.2.2.1 e.2.2.2)
    (Config.cfgDword f off % 2 ^ 32)

/-- Clear the bits of `m`. -/
def w1c (v m : Nat) : Nat := v - (v &&& m)

/-- Write one half of a 64-bit number: `hi` its upper dword. -/
def putHalf (hi : Bool) (v base : Nat) : Nat :=
  if hi then base % 2 ^ 32 + v % 2 ^ 32 * 2 ^ 32 else v % 2 ^ 32 + base / 2 ^ 32 * 2 ^ 32

/-- A write of BAR `k` of a PF, or of its VF BAR `k` (Table CF-5). -/
def FnCfg.writeBar (vf : Bool) (k v : Nat) (c : FnCfg) : FnCfg :=
  let hi := k % 2 == 1
  match vf, k / 2 with
  | false, 0 => { c with bar0 := putHalf hi v c.bar0 }
  | false, 1 => { c with bar2 := putHalf hi v c.bar2 }
  | false, _ => { c with bar4 := putHalf hi v c.bar4 }
  | true, 0 => { c with vfBar0 := putHalf hi v c.vfBar0 }
  | true, 1 => { c with vfBar2 := putHalf hi v c.vfBar2 }
  | true, _ => { c with vfBar4 := putHalf hi v c.vfBar4 }

/-- MSI-X Enable or Function Mask changes: vectors that nothing keeps back now send their messages (R321, R324). -/
def setMsix (f : Nat) (g : FnCfg → FnCfg) (s : State) : State := releaseVecs f (s.modCf f g)

/-- The effect of a configuration write of a field of the PF alone; a VF has none of them. -/
def cfgWritePf (h : Nat) (w : CfgField) (v : Nat) (s : State) : State :=
  let p := pfIdx h
  let b := v.testBit 0
  match w with
  | .pmeEnable => s.modCf p (fun c => { c with pmeEn := b })
  | .pmeStatusClear => when b (fun s => s.modCf p (fun c => { c with pmeStatus := false })) s
  | .pmStatePf => if v % 4 = 3 then enterD3 h s else if v % 4 = 0 then leaveD3 h s else s
  | .maxPayload => s.modCf p (fun c => { c with maxPayload := v % 8 })
  | .maxReadReq => s.modCf p (fun c => { c with maxReadReq := v % 8 })
  | .ctoValue => s.modCf p (fun c => { c with ctoValue := v % 16 })
  | .extTag => s.modCf p (fun c => { c with extTag := b })
  | .tag10 => s.modCf p (fun c => { c with tag10 := b })
  | .tag14 => s.modCf p (fun c => { c with tag14 := b })
  | .aspmL1 => s.modCf p (fun c => { c with aspmL1 := v.testBit 1 })
  | .ltrEnable => s.modCf p (fun c => { c with ltrEn := b })
  | .ltrMaxSnoop => s.modCf p (fun c => { c with ltrMaxSnoop := v % 2 ^ 13 })
  | .ltrMaxNoSnoop => s.modCf p (fun c => { c with ltrMaxNoSnoop := v % 2 ^ 13 })
  | .l1ssEnable => s.modCf p (fun c => { c with l1ss := v % 16 })
  | .ptmEnable => s.modCf p (fun c => { c with ptmEn := b })
  | .romEnable => s.modCf p (fun c => { c with romEn := b })
  | .sysPageSize => when (v == 0x1 || v == 0x10) (fun s => s.modCf p (fun c => { c with sysPage := v })) s
  | .vfEnable => if b then setVfEnable h s else clearVfs h s
  | .numVfs => writeNumVfs h (v % 2 ^ 16) s
  | .bar2Size => writeBar2Size h (v % 64) s
  | .rcb => s.modCf p (fun c => { c with rcb128 := b })
  | .romBar => s.modCf p (fun c => { c with romBar := v % 2 ^ 32, romEn := b })
  | .bar k => s.modCf p (FnCfg.writeBar false k v)
  | .vfBar k => s.modCf p (FnCfg.writeBar true k v)
  | _ => s

/-- The effect of a configuration write of a field that every function has. -/
def cfgWriteFn (f : Nat) (w : CfgField) (v : Nat) (s : State) : State :=
  let b := v.testBit 0
  match w with
  | .memSpaceEnable => s.modCf f (fun c => { c with mse := b })
  | .busMaster => if b then setBme f s else clearBme f s
  | .msixEnable => setMsix f (fun c => { c with msixEn := b }) s
  | .functionMask => setMsix f (fun c => { c with fmask := b }) s
  | .corrEnable => s.modCf f (fun c => { c with corrEn := b })
  | .nonFatalEnable => s.modCf f (fun c => { c with nonFatalEn := b })
  | .fatalEnable => s.modCf f (fun c => { c with fatalEn := b })
  | .unsuppEnable => s.modCf f (fun c => { c with unsuppEn := b })
  | .relaxedOrder => s.modCf f (fun c => { c with roEn := b })
  | .idoReq => s.modCf f (fun c => { c with idoEn := b })
  | .atomicReq => s.modCf f (fun c => { c with atomicEn := b })
  | .corMask => s.modCf f (fun c => { c with corMask := v % 2 ^ 32 })
  | .uncMask => s.modCf f (fun c => { c with uncMask := v % 2 ^ 32 })
  | .uncSeverity => s.modCf f (fun c => { c with uncSev := v % 2 ^ 32 })
  | .uncStatusClear => s.modCf f (fun c => { c with uncStatus := w1c c.uncStatus v })
  | .corStatusClear => s.modCf f (fun c => { c with corStatus := w1c c.corStatus v })
  | .initiateFlr => when b (flrFn f) s
  | _ => if fnVf f = 0 then cfgWritePf (fnHl f) w v s else s

/-- A function of a link exists: the PF, or a VF within NumVFs while VF Enable is 1 (R70). -/
def fnExists (s : State) (f : Nat) : Bool :=
  fnVf f == 0 || ((s.cf (pfIdx (fnHl f))).vfEnable && decide (fnVf f ≤ (s.cf (pfIdx (fnHl f))).numVfs))

/-- CONFIG_REQUEST (R65): UR where no function is, RRS while it is not ready; served during the fatal reaction too (R378). -/
def execConfigRequest (fn : Fn) (hostTag : Nat) (op : CfgOp) (s : State) : Res :=
  let f := fnIdx fn
  let h := fnHl f
  .next (when (hlLive s h && s.dlUp h && !inboundFull s h) (fun s =>
    let s := rxTlp h 0 s
    if !fnExists s f then sendCpl f hostTag 1 0 [] s
    else if !cfgServed s f then sendCpl f hostTag 2 0 [] (s.inc .HL_RRS_CNT h)
    else
      match op with
      | .read off => sendCpl f hostTag 0 4 (le 4 (cfgRead s f (off / 4 * 4))) s
      | .write w v => cfgWriteFn f w v (sendCpl f hostTag 0 0 [] s)) s)

end Sys2Proof.Machine
end

