-- ==== Sys2Proof/Machine/Anchor.lean ====
section
/-!
DEFINITION. Anchoring the cadence to a host's PTM time and to TAI (R39, R40).
-/
namespace Sys2Proof.Machine

/-- The row CADENCE_ANCHOR of Table KP-5, with the checks of R40.  It takes AT_EPOCH, and NOT_BEFORE by R337 whether the flag is
set or not (DEDUCED, log entry 40). -/
def cmdCadenceAnchor (r : CmdReq) (hl taiOffset : Nat) (go : State → State) : Cmd where
  op := 0x0601
  lenOk := r.plen == 16
  priv := fun s => hasLink s r.iss hl
  atOk := true
  params := fun s => s.present hl && (atDue s r.notBefore).isSome
  dark := fun s => !s.tlOn (hlTiller hl) || !s.domOn (dHphy (hlTiller hl))
  own := fun s => if !(s.cf (pfIdx hl)).ptmEn || s.rd .CAD_STATE == 1 then 9 else 0
  key := some 0
  busy := fun s => s.keeper.anchor.isSome
  sched := some (.cadenceAnchor hl taiOffset)
  act := go

/-- CADENCE_ANCHOR (R39): it acts at the first epoch boundary at or after NOT_BEFORE. -/
def execCadenceAnchor (r : CmdReq) (hl taiOffset : Nat) (s : State) : Res :=
  let due := (atDue s r.notBefore).getD (s.eraEpoch + 1)
  .next (runCmd (cmdCadenceAnchor r hl taiOffset (boundaryAt due 0x0601 (.cadenceAnchor hl taiOffset) r)) r s)

/-- FLAGS of the reply (Table CD-4), as they stand at the anchored boundary.  A slip is one of the last 16 epochs when the anchored
epoch lies at most 16 above the one it began (DESIGN CHOICE, log entry 41). -/
def anchorFlags (s : State) : Nat :=
  let recent := s.cad.lastSlip != 0 && decide (s.eraEpoch + 1 ≤ s.cad.lastSlip + 16)
  (if s.rd .CAD_STATE == 3 then 1 else 0) + (if s.rd .CAD_STATE == 0 then 2 else 0) + (if recent then 4 else 0) +
    (if s.on .CAD_CLK_FRO then 8 else 0)

/-- The PTM dialogue starts at the boundary. -/
def startAnchor (r : CmdReq) (hl taiOffset : Nat) (s : State) : State :=
  let s := s.modKeeper (fun k => { k with anchor := some ⟨r, hl, taiOffset, s.era, s.epoch, anchorFlags s⟩ })
  sendMsg (pfIdx hl) .ptmRequest (waitOn r 0x0601 0 s)

/-- A scheduled anchor runs, with its checks made again (R337). -/
def runAnchor (e : Sched) (s : State) : State :=
  match e.cmd with
  | .cadenceAnchor hl tai => runSched (cmdCadenceAnchor e.req hl tai (startAnchor { e.req with atEpoch := false } hl tai)) e s
  | _ => s

/-- ANCHOR_BOUNDARY (R39). -/
def execAnchorBoundary (s : State) : Res :=
  .next (when (keeperUp s) (fun s =>
    withSome (dueSched s (fun e => match e.cmd with | .cadenceAnchor _ _ => true | _ => false)) runAnchor s) s)

/-- The reply of Table CD-4; `ptmNs` is the PTM master time at the boundary, from the dialogue's timestamps.  PHASE_ERR is the
register's value when the reply is formed (DESIGN CHOICE, log entry 41). -/
def anchorReply (s : State) (a : AnchorS) (ptmNs rttNs : Nat) : Bytes :=
  le 2 a.era ++ le 2 a.flags ++ le 4 a.epoch ++ le 8 ptmNs ++ le 8 (ptmNs + a.taiOffset) ++ le 4 rttNs ++
    le 4 (s.rd .CAD_PHASE_ERR)

/-- PTM_RESPONSE (R39): the anchor is journalled and the command replies. -/
def execPtmResponse (ptmNs rttNs : Nat) (s : State) : Res :=
  .next (
    match s.keeper.anchor with
    | some a =>
      let b := anchorReply s a ptmNs rttNs
      finishWaiting 0x0601 0 0 b (journal (.anchor a.hl b) (s.modKeeper (fun k => { k with anchor := none })))
    | none => s)

/-- PTM_TIMEOUT (R40): no response within 1 ms. -/
def execPtmTimeout (s : State) : Res :=
  .next (
    match s.keeper.anchor with
    | some _ => finishWaiting 0x0601 0 0x0C [] (s.modKeeper (fun k => { k with anchor := none }))
    | none => s)

end Sys2Proof.Machine
end

