-- ==== Sys2Proof/Machine/Firmware.lean ====
section
/-!
DEFINITION. Firmware images (R438 to R441), the slots and the ROM's choice among them (R454), what the bridge shows of
its firmware and of manager authority, and the restart of the Keeper (R362, R363, R434).
-/
namespace Sys2Proof.Machine

/-! ### Images -/

/-- A slot: 0 is A, another number B. -/
def UpdS.slot (u : UpdS) (i : Nat) : SlotS := if i = 0 then u.slotA else u.slotB
/-- Change a slot. -/
def UpdS.setSlot (u : UpdS) (i : Nat) (x : SlotS) : UpdS := if i = 0 then { u with slotA := x } else { u with slotB := x }

/-- FLAGS of a header (Table UP-2). -/
def hFlags (h : Bytes) : Nat := num h 0x0B 1
/-- VERSION. -/
def hVersion (h : Bytes) : Nat := num h 0x0C 4
/-- ARB. -/
def hArb (h : Bytes) : Nat := num h 0x10 4
/-- PLAIN_LEN. -/
def hPlain (h : Bytes) : Nat := num h 0x14 4
/-- CHUNK_COUNT. -/
def hChunks (h : Bytes) : Nat := num h 0x1C 4
/-- LOAD_CHUNKS. -/
def hLoad (h : Bytes) : Nat := num h 0x20 2
/-- TRIAL, with its default. -/
def hTrial (h : Bytes) : Nat := if num h 0x24 4 = 0 then 180000 else num h 0x24 4
/-- EXPIRY_ERA and EXPIRY_EPOCH as one number. -/
def hExpiry (h : Bytes) : Nat := num h 0x2C 2 * 2 ^ 32 + num h 0x28 4
/-- IMAGE_ID. -/
def hImageId (h : Bytes) : Bytes := sub h 0x30 16

/-- The signatures of R439: Tusyn's, and the OEM's when the OEM key hash fuses are programmed. -/
def sigsOk (u : UpdS) (h : Bytes) : Bool :=
  let digest := le 48 (Config.sha384 (sub h 0 0x140))
  let oem := sub h 0x080 49
  Config.ecdsaOk 0 digest (sub h 0x140 96) &&
    (match u.oemHash with
     | some k => (hFlags h).testBit 0 && Config.sha384 oem == k && Config.ecdsaOk (1 + leNat oem) digest (sub h 0x1A0 96)
     | none => true)

/-- Step 1 of R440: MAGIC, FORMAT and HDR_LEN. -/
def formOk (h : Bytes) : Bool := sub h 0 4 == [0x52, 0x50, 0x55, 0x49] && num h 4 2 == 1 && num h 6 2 == 512

/-- Step 2 of R440: the image is for this part, this revision and, where it is wrapped for one device, this device. -/
def partOk (u : UpdS) (h : Bytes) : Bool :=
  num h 8 2 == 0x8096 && decide (num h 0x0A 1 ≤ 0xB0) && !(num h 0x48 1 == 2 && num h 0x50 8 != u.dsn)

/-- Steps 1, 2 and 4 of R440 and the signatures: what the ROM checks of a header at every start (R454). -/
def headerRuns (u : UpdS) (h : Bytes) : Bool :=
  formOk h && partOk u h && sigsOk u h && decide (u.arbFuse ≤ hArb h)

/-- The image key (R438). -/
def imageKey (u : UpdS) (h : Bytes) : Option Nat :=
  Config.unwrap (if num h 0x48 1 = 2 then u.deviceKey else u.familyKey) (sub h 0x58 40)

/-- Chunk `i`, ciphertext and tag, authenticates under the image key (R441). -/
def chunkAuth (u : UpdS) (h : Bytes) (i : Nat) (c : Bytes) : Bool :=
  match imageKey u h with
  | some k => (Config.gcmOpen k (sub h 0x40 8 ++ le 4 i) (hImageId h ++ le 4 i ++ le 4 (hVersion h)) (sub c 0 4096)
      (sub c 4096 16)).isSome
  | none => false

/-- A chunk of a slot is stored. -/
def SlotS.chunk (x : SlotS) (i : Nat) : Option Bytes := (x.chunks.find? (fun e => e.1 == i)).map (·.2)

/-- The offset in its slot of the place of chunk `i` (R437): its own, or the spare place that the granary index records. -/
def SlotS.place (x : SlotS) (i : Nat) : Nat :=
  match x.spare.idxOf? i with
  | some k => 0x02830000 + k * 0x1010
  | none => 0x1000 + i * 0x1010

/-- Every chunk of a slot's image is stored. -/
def SlotS.complete (x : SlotS) : Bool := (List.range (hChunks x.header)).all (fun i => (x.chunk i).isSome)

/-- The ROM can start slot `i` (R454). -/
def slotRuns (u : UpdS) (i : Nat) : Bool :=
  let x := u.slot i
  headerRuns u x.header && x.complete &&
    (List.range (hLoad x.header)).all (fun k => (x.chunk k).any (chunkAuth u x.header k))

/-! ### What the bridge shows -/

/-- Show the firmware in the DEVINFO and KEEPER blocks and in the DVSEC of every function of a present link. -/
def showFw (s : State) : State :=
  let v := s.upd.fwVersion
  let st := fwState s
  let rec_ := if recovery s then 1 else 0
  let s := s |>.wr .DEV_FW_VERSION v |>.wr .DEV_DEVICE (if recovery s then 0x80FE else 0x8096) |>.wr .KP_FW_STATE st
    |>.wr .KP_SLOT s.upd.active
  each (List.range 32) (fun h s =>
    ((s.wr .DVSEC_FW_VERSION v (pfIdx h)).wr .DVSEC_FW_STATE st (pfIdx h)).wr .DVSEC_RECOVERY rec_ (pfIdx h)) s

/-- Show manager authority (Tables CF-4, CF-7). -/
def showMgr (s : State) : State :=
  let k := s.keeper
  let s := (s.wr .DEV_MGR_LINK k.mgrHl).wr .DEV_MGR_SMP (if k.mgrSmp then 1 else 0)
  each (List.range 32) (fun h s => s.wr .DVSEC_MANAGER (if !k.mgrSmp && k.mgrHl == h then 1 else 0) (pfIdx h)) s

/-- An UPDATE journal record of the image in a slot (Table WD-10). -/
def journalUpd (event slot : Nat) (s : State) : State :=
  let h := (s.upd.slot slot).header
  journal (.update event slot (hVersion h) (hArb h)) s

/-! ### The ROM's choice of slot (R449, R451, R454) -/

/-- Run a slot. -/
def runSlot (i : Nat) (s : State) : State :=
  s.modUpd (fun u => { u with running := i, fwVersion := hVersion (u.slot i).header })

/-- No slot runs: the ROM goes on alone, and what it shows as the version of the running image is open. -/
def runNone (s : State) : State :=
  draw s (fun v s => s.modUpd (fun u => { u with running := 2, fwVersion := v % 2 ^ 32 }))

/-- The trial slot leaves the record of slots; `keep` leaves its image in place. -/
def endTrial (keep : Bool) (s : State) : State :=
  s.modUpd (fun u =>
    let u := { u with trial := false, trialBooted := false }
    if keep then u else u.setSlot u.recvSlot { u.slot u.recvSlot with valid := false })

/-- The other slot. -/
def otherSlot (i : Nat) : Nat := 1 - i

/-- The ROM chooses and starts a slot (R454): the trial slot once, then the active slot, then the other if it is valid. -/
def bootSlot (s : State) : State :=
  let u := s.upd
  let t := u.recvSlot
  if u.trial && !u.trialBooted then
    if slotRuns u t then
      journalUpd 3 t (setUpdState 5 (runSlot t (s.modUpd (fun u => { u with trialBooted := true }))))
    else
      let s := journalUpd 5 t (setUpdState 3 (endTrial true s))
      if u.active < 2 && slotRuns u u.active then runSlot u.active s else runNone s
  else if u.trial then
    if u.active < 2 && slotRuns u u.active then
      journalUpd 5 t (setUpdState 0 (endTrial false (runSlot u.active s)))
    else if slotRuns u t then runSlot t (s.modUpd (fun u => { u with revertFailed := true }))
    else runNone (journalUpd 5 t (setUpdState 0 (endTrial false s)))
  else if u.active < 2 && slotRuns u u.active then runSlot u.active s
  else
    let o := if u.active < 2 then otherSlot u.active else if u.slotA.valid then 0 else 1
    if (u.slot o).valid && slotRuns u o then runSlot o s else runNone s

/-- No slot is started, whatever the slots hold: RECOVERY_N was captured low, or a Keeper bank fails (R455).  A trial that has
booted ends as in a revert, and an activation on its way leaves its slot READY (DEDUCED, log entry 79). -/
def bootNone (s : State) : State :=
  let t := s.upd.recvSlot
  if s.upd.trial && s.upd.trialBooted then runNone (journalUpd 5 t (setUpdState 0 (endTrial false s)))
  else if s.upd.trial && s.upd.state == 4 then runNone (journalUpd 5 t (setUpdState 3 (endTrial true s)))
  else runNone s

/-! ### Restart of the Keeper -/

/-- A Keeper bank is LOST. -/
def keeperBankLost (s : State) : Bool := [44, 45, 46, 47].any (bankLost s)

/-- Mark or clear a bank in BANK_LOST. -/
def setBankLost (b : Nat) (lost : Bool) (s : State) : State :=
  if b < 32 then s.wr .PW_BANK_LOST_LO (putBit (s.rd .PW_BANK_LOST_LO) b lost)
  else s.wr .PW_BANK_LOST_HI (putBit (s.rd .PW_BANK_LOST_HI) (b - 32) lost)

/-- The bifurcation, clock mode and target speed of a port are applied (R44, R45), and the vectors of a PF that is absent return
to the pool (R87); in ROM recovery mode the ROM presents
HL0 alone. -/
def applyPort (p : Nat) (s : State) : State :=
  let b := if recovery s then 0 else tget 0 s.store.bifur p
  let c := if recovery s then 0 else tget 0 s.store.clkmode p
  let there (k : Nat) : Bool := if recovery s then p == 0 && k == 0 else k == 0 || b == 2 || (b == 1 && k == 2)
  let width (k : Nat) : Nat := if there k then 16 / 2 ^ b else 0
  each [0, 1, 2, 3] (fun k s =>
    let h := 4 * p + k
    s |>.wr .HL_BIFUR b h |>.wr .HL_CLKMODE c h |>.wr .HL_BIFUR_NEXT b h |>.wr .HL_CLKMODE_NEXT c h
      |>.wr .HL_CFG_PENDING 0 h |>.wr .HL_PRESENT (if there k then 1 else 0) h |>.wr .HL_MAX_WIDTH (width k) h
      |>.wr .HL_TARGET_SPEED (tget 6 s.store.speed p) h
      |>.modHl h (fun l => { l with pfVecs := l.pfVecs && there k })) s

/-- A link is kept from training (R64). -/
def keptDown (s : State) (h : Nat) : Bool :=
  s.on .HL_HOLD h || s.pins.perst.testBit h || !hphyReady s (hlTiller h)

/-- HL0 trains again, or is held where something keeps it from training (R64). -/
def retrainHl0 (s : State) : State :=
  if keptDown s 0 then linkDown 0 10 4 s else emit (.phy 0 0 0) (linkDown 0 0 4 s)

/-- In ROM recovery mode HL0 alone is present, in x16 mode with the common clock and without VFs (R97): the other links go down and
are absent, and HL0 trains again where its port ran in another mode.  A Keeper that comes back without firmware brings this
about at once (DEDUCED, log entry 48). -/
def recoveryPorts (s : State) : State :=
  let live := s.presentHls.filter (fun h => s.tlOn (hlTiller h))
  let s := each (live.filter (· != 0)) (fun h => linkDown h 10 4) s
  let s := when (live.contains 0)
    (fun s => when (s.on .HL_BIFUR 0 || s.on .HL_CLKMODE 0) retrainHl0 (clearVfs 0 s)) s
  let gone := s.presentHls.filter (· != 0)
  let s := each (List.range 8) applyPort s
  let s := each gone (fun h s => showClkreq h (s.wr .HL_LTSSM 10 h)) s
  showPools (each (List.range 8) showRefclk s)

/-- The ROM goes on without firmware: ROM recovery mode (R455), in which tiller 0 runs in conservative mode (R145) and the
PF of HL0 holds manager authority, with SMP. -/
def enterRecovery (s : State) : State :=
  let s := s.modKeeper (fun k => { k with mgrHl := 0, mgrSmp := false })
  recoveryPorts (setMode .TI_RECOVERY true 0 (setKState 1 (s.wr .PW_RECOVERY 1)))

/-- The Keeper runs, from the slot that the ROM has started (R449, R454). -/
def keeperStarts (s : State) : State :=
  if s.upd.running < 2 then setKState 2 (s.wr .PW_RECOVERY 0) else enterRecovery s

/-- The directories that wait for the Keeper, or every one after a change of image (R94, R449). -/
def rebuildDirs (all : Bool) (s : State) : State :=
  each (s.presentHls.filter (fun h => all || (s.hl h).dirDue)) rebuildDir s

/-- The ROM tests banks SB44 to SB47 before it restarts a Keeper with a LOST mark on one of them (R417): whether they pass
is open.  The flag says whether firmware may be loaded. -/
def testKeeperBanks (s : State) (k : Bool → State → State) : State :=
  if keeperBankLost s then
    choose s (fun ok s => k ok (if ok then each [44, 45, 46, 47] (fun b => setBankLost b false) s else s))
  else k true s

/-- The restart completes (R434, R449, R451): a slot is started, directories are rebuilt, and the activation or revert
that asked for the restart is answered.  In ROM recovery mode with RECOVERY_N captured low none is started (R428; DEDUCED, log
entry 79). -/
def restartDone (s : State) : State :=
  testKeeperBanks s (fun ok s =>
    let old := s.upd.fwVersion
    let s := keeperStarts (if ok && !(recovery s && s.pins.straps.recoveryLow) then bootSlot s else bootNone s)
    let s := showMgr (showFw (s.modKeeper (fun k => { k with drainKind := 0 })))
    let s := rebuildDirs (s.upd.fwVersion != old || recovery s) s
    let s := finishWaiting 0x0804 0 (if s.upd.state = 5 then 0 else 0x0D) [] s
    finishWaiting 0x0806 0 0 [] s)

/-- KEEPER_WATCHDOG (R363): the Keeper has exceeded every bound; it restarts. -/
def execKeeperWatchdog (s : State) : Res :=
  .next (when (keeperUp s) (fun s => enterRestart 2 (ward 9 1 mNone 0 0 (s.inc .KP_WDOG_CNT))) s)

/-- DRAIN_TIMEOUT (R362): 20 ms have passed; what is still held is answered CANCELLED. -/
def execDrainTimeout (s : State) : Res := .next (when (draining s && s.domOn dKeep) (enterRestart 3) s)

/-- KEEPER_RESTART_DONE (R434). -/
def execKeeperRestartDone (s : State) : Res :=
  .next (when (s.domOn dKeep && s.rd .KP_KSTATE == 4) restartDone s)

end Sys2Proof.Machine
end

