-- ==== Sys2Proof/Machine/LinkOps.lean ====
section
/-!
DEFINITION. The Weaseif link layer and the lanes under it (chapters 7 and 8): grains, acknowledgement, replay, link-down,
flush and reset, the training states and the reshape exchange.  The rows of both chapters are built of these.
-/
namespace Sys2Proof.Machine

/-! ### Grains (R177, R181 to R184, R189, R192) -/

/-- A grain with the link's current ACK, credit and HEALTH fields (R189, R192, R196).  CR_V is 1 in every grain but HALT
(DESIGN CHOICE, log entry 67). -/
def newGrain (s : State) (n typ sop eop seq : Nat) (payload : Bytes) : Grain :=
  let w := s.wl n
  { typ := typ, sop := sop, eop := eop, ackV := w.accAny, inj := false, crV := true, health := linkHealth s n, seq := seq
    ack := if w.accAny then (s.rd .WL_NEXT_RX n + 4095) % 4096 else 0
    crP := w.freed.getD 0 0, crN := w.freed.getD 1 0, crC := w.freed.getD 2 0, payload := payload, crc := 0, rsv := 0 }

/-- Flip a bit of a byte string. -/
def flipBit (b : Bytes) (bit : Nat) : Bytes :=
  match b[bit / 8]? with
  | some x => b.set (bit / 8) (x ^^^ BitVec.ofNat 8 (2 ^ (bit % 8)))
  | none => b

/-- The payload bytes of a grain that lane `l` of the lanes `ls` carries. -/
def ownBytes (ls : List Nat) (l : Nat) : List Nat := (List.range 64).filter (fun i => ls[i % ls.length]? == some l)

/-- Bits are flipped in a grain from place `start` of the bytes `own` on; the grain is marked (R177). -/
def flipOwn (own : List Nat) (start m : Nat) (g : Grain) : Grain :=
  let bits := (List.range m).map (fun j => own.getD ((start + j) / 8) 0 * 8 + (start + j) % 8)
  { g with inj := true, payload := bits.foldl flipBit g.payload }

/-- Injection by transmit lane `k` into a new grain that goes out behind `idle` slots the model does not show (R177): at a
place among the lane's payload bytes that the spec leaves open.  A single injection or burst ends with those bytes; a rate
injection flips a bit each time its bits have passed, at most one to a grain, in the grains not shown too. -/
def injectLane (n idle k : Nat) (sg : State × Grain) : State × Grain :=
  let (s, g) := sg
  let ls := txLanes s n
  let own := ownBytes ls k
  let pend := (s.wp n).injPend.getD k 0
  let acc := (s.wp n).injAcc.getD k 0
  if own.isEmpty || !s.on .WP_INJ_LIVE n k || (pend = 0 && acc = 0) then (s, g)
  else
    let start := Config.freeValue s.free % (8 * own.length)
    let s : State := { s with free := s.free + 1 }
    if acc != 0 then
      let bits := acc - 1 + (idle + 1) * slotBits ls.length
      let every := rateBits s n k
      let s := (s.add .WP_LN_INJ_CNT (min (idle + 1) (bits / every)) n k).modWp n (fun w => { w with
        injAcc := w.injAcc.set k (bits % every + 1) })
      if (acc - 1 + idle * slotBits ls.length) / every < bits / every then (s, flipOwn own start 1 g) else (s, g)
    else
      let m := min pend (8 * own.length - start)
      ((s.add .WP_LN_INJ_CNT m n k).modWp n (fun w => { w with injPend := w.injPend.set k 0 }), flipOwn own start m g)

/-- A grain leaves on the link: its CRC is that of the grain before any bit is flipped, with the injection mark in place
(R177, R182), and its ACK is the newest.  How many slots with IDLE grains have passed is open (log entry 57). -/
def emitGrain (n : Nat) (inject : Bool) (g : Grain) (s : State) : State :=
  draw s (fun idle s =>
    let (s, g') := if inject then (List.range 4).foldl (fun sg k => injectLane n idle k sg) (s, g) else (s, g)
    sendSlot n idle { g' with crc := (sealGrain { g with inj := g'.inj }).crc } (s.modWl n (fun w => { w with ackPending := 0 })))

/-- A sequenced grain is sent and kept for replay (R183, R186). -/
def sendSeq (n typ sop eop : Nat) (payload : Bytes) (counted : Nat) (s : State) : State :=
  let q := s.rd .WL_NEXT_TX n
  let s := s.modWl n (fun w => { w with replay := w.replay ++ [⟨typ, sop, eop, q, counted, payload⟩] })
  let s := s |>.wr .WL_NEXT_TX ((q + 1) % 4096) n
    |>.wr .WL_UNACKED (s.wl n).replay.length n
    |>.inc .WL_TX_CNT n
  emitGrain n true (newGrain s n typ sop eop q payload) s

/-- A DATA grain that waits for a packet to fill its second half goes out as it is (R184). -/
def flushHalf (n : Nat) (s : State) : State :=
  match (s.wl n).txHalf with
  | some g =>
    if (s.wl n).replay.length < 512 && s.rd .WL_LSTATE n == 2 then
      sendSeq n g.typ g.sop g.eop g.payload g.counted (s.modWl n (fun w => { w with txHalf := none }))
    else s
  | none => s

/-- A grain carries the new ACK value, an IDLE grain when nothing else is ready (R189). -/
def sendAck (n : Nat) (s : State) : State :=
  let s := flushHalf n s
  if 0 < (s.wl n).ackPending then emitGrain n true (newGrain s n 0 0 0 0 (zeros 64)) s else s

/-- Link messages that wait are sent as far as the replay buffer has places (R186, R210).  The wait for an answer to LANE_REQ begins
when it is sent (R214). -/
def drainMsgs (n : Nat) : Nat → State → State
  | 0, s => s
  | k + 1, s =>
    let w := s.wl n
    match w.msgQ with
    | m :: rest =>
      if w.replay.length < 512 && s.rd .WL_LSTATE n == 2 then
        let wait := max 1 (s.rd .WL_RESHAPE_TO n)
        drainMsgs n k (sendSeq n 2 0 0 (padTo 64 m) 0 (s.modWl n (fun w => { w with
          msgQ := rest, rsTicks := if m.head? = some 1 then wait else w.rsTicks })))
      else s
    | [] => s

/-- Send a link message (Table WL-4). -/
def sendLinkMsg (n msg id set reason : Nat) (s : State) : State :=
  drainMsgs n 16 (s.modWl n (fun w => { w with
    msgQ := w.msgQ ++ [[BitVec.ofNat 8 msg, BitVec.ofNat 8 id, BitVec.ofNat 8 set, BitVec.ofNat 8 reason]] }))

/-! ### Credits (R191) -/

/-- The available-credit field of a class. -/
def availFld (c : Nat) : Fld := if c = 0 then .WL_AVAIL_P else if c = 1 then .WL_AVAIL_N else .WL_AVAIL_C

/-- Show the credits available to the bridge. -/
def showCredits (n : Nat) (s : State) : State :=
  let w := s.wl n
  each [0, 1, 2] (fun c s =>
    s.wr (availFld c) ((w.credInit.getD c 0 + w.partnerRet.getD c 0 + 4096 - w.used.getD c 0) % 4096) n) s

/-- A packet's credits are available. -/
def creditFor (s : State) (n : Nat) (p : Pkt) : Bool := decide (pktCost p ≤ s.rd (availFld (creditClass p.typ)) n)

/-! ### Acknowledgement and replay (R188, R195 to R197) -/

/-- Free the `d` oldest grains. -/
def freeGrains (n d : Nat) (s : State) : State :=
  if d = 0 then s
  else
    let s := s.modWl n (fun w => { w with replay := w.replay.drop d, replayRetrained := false, rtHeld := w.rtHeld - d })
    let s := s |>.wr .WL_OLDEST ((s.rd .WL_OLDEST n + d) % 4096) n
      |>.wr .WL_UNACKED (s.wl n).replay.length n
      |>.wr .WL_REPLAY_COUNT 0 n
    drainMsgs n 16 s

/-- How far an ACK value reaches beyond OLDEST: 0 repeats an earlier one. -/
def ackReach (s : State) (n a : Nat) : Nat := (a + 4097 - s.rd .WL_OLDEST n) % 4096

/-- An event of a link reaches the Ward. -/
def linkLine (line n : Nat) (s : State) : State := ward (wlTiller n) line (mWl n) 8 0 s

/-- A received ACK is applied (R188). -/
def applyAck (n a : Nat) (s : State) : State :=
  let d := ackReach s n a
  if d ≤ (s.wl n).replay.length then freeGrains n d s
  else linkLine 5 n ((s.wr .WL_ACK_OOW 1 n).inc .WL_ACKOOW_CNT n)

/-- Every unacknowledged grain is sent again, in order (R195, R196). -/
def replayAll (n : Nat) (s : State) : State :=
  each (s.wl n).replay (fun g s => emitGrain n false (newGrain s n g.typ g.sop g.eop g.seq g.payload) s) s

/-- A replay begins (R195, Table WL-11): REPLAY reaches the Ward, and nothing is sent once that has forced the fatal reaction
(R208). -/
def startReplay (n : Nat) (s : State) : State :=
  if (s.wl n).replay.isEmpty then s
  else
    let s := trace 2 n 0x0101 (s.rd .WL_OLDEST n) s
    let s := linkLine 2 n ((s.wr .WL_REPLAY 1 n).inc .WL_REPLAY_CNT n)
    when (s.rd .WL_LSTATE n == 2) (replayAll n) s

/-- The replay count of the grain at OLDEST goes up with a replay (R195, R197). -/
def countReplay (n : Nat) (s : State) : State :=
  if (s.wl n).replay.isEmpty then s else s.wr .WL_REPLAY_COUNT (sat 4 (s.rd .WL_REPLAY_COUNT n + 1)) n

/-- A received running credit total is applied when it is ahead (R192). -/
def applyCredit (n c total : Nat) (s : State) : State :=
  let d := (total + 4096 - (s.wl n).partnerRet.getD c 0) % 4096
  when (decide (1 ≤ d) && decide (d ≤ 2047))
    (fun s => s.modWl n (fun w => { w with partnerRet := w.partnerRet.set c (total % 4096) })) s

/-! ### Lanes (R172, R173, R175) -/

/-- LANE_EN, TARGET_RATE and MIN_WIDTH as they stand are applied: when the link leaves DISABLED (DESIGN CHOICE, log entry 61),
and at each SLOW and RETRAIN (Table WP-6). -/
def applyCtl (n : Nat) (s : State) : State :=
  let en := s.rd .WP_LANE_EN n
  let r := s.rd .WP_TARGET_RATE n
  let m := s.rd .WP_MIN_WIDTH n
  s.modWp n (fun w => { w with enLanes := en, tgtRate := r, minW := m })

/-- A PRBS setting takes effect on a lane that may run it, and waits on another (R175). -/
def settlePrbs (n k : Nat) (s : State) : State :=
  let st := s.rd .WP_LSTATE n k
  if !s.on .WP_GEN n k && !s.on .WP_CHK n k then
    let s := s.wr .WP_PRBS_PEND 0 n k
    if st = 5 then ((countPrbs n k s).wr .WP_LSTATE ((s.wp n).prevL.getD k 0) n k).wr .WP_PRBS_SYNC 0 n k else s
  else if st = 5 then s
  else if st = 3 || (st = 0 && s.on .WP_DISABLE n) then
    ((s.wr .WP_PRBS_PEND 0 n k).modWp n (fun w => { w with prevL := w.prevL.set k st })).wr .WP_LSTATE 5 n k
  else s.wr .WP_PRBS_PEND 1 n k

/-- A lane goes to a state of Table WP-7; one in TEST stays there, and goes to that state when its test ends.  Its eye is
measured while it is ACTIVE. -/
def setLane (n k st : Nat) (s : State) : State :=
  if s.rd .WP_LSTATE n k = 5 then s.modWp n (fun w => { w with prevL := w.prevL.set k st })
  else
    let s := settlePrbs n k (s.wr .WP_LSTATE st n k)
    if st = 2 then
      draw s (fun e s => draw s (fun h s =>
        ((s.wr .WP_EYE_W e n k).wr .WP_EYE_H h n k).wr .WP_HEALTH (min 15 (e % 256 / 4)) n k))
    else s.wr .WP_HEALTH 0 n k

/-- A lane goes to a state of Table WP-7, and its transmitter follows. -/
def moveLane (n k st : Nat) (s : State) : State := shown n (setLane n k st) s

/-- Every lane goes to a state given by its number. -/
def setLanes (n : Nat) (f : Nat → Nat) (s : State) : State := each [0, 1, 2, 3] (fun k s => setLane n k (f k) s) s

/-! ### Reshape (R210 to R215) -/

/-- A reshape ends. -/
def endReshape (n : Nat) (s : State) : State :=
  let s := s.modWl n (fun w => { w with
    rsRole := 0, rsStage := 0, rsTicks := 0, rsTxSwitched := false, rsRxSwitched := false, rsReadySent := false
    rsReadyRcvd := false })
  let s := s.modWp n (fun w => { w with bgPassed := 0 })
  s.wr .WL_RESHAPE_BUSY 0 n

/-- Lanes in background training return to STANDBY. -/
def dropBackground (n : Nat) (s : State) : State :=
  each [0, 1, 2, 3] (fun k s => when (s.rd .WP_LSTATE n k == 4) (moveLane n k 3) s) s

/-- The old set stays (Table WL-10): a direction that has switched returns at once to the set that the other still uses (DESIGN CHOICE,
log entry 91). -/
def keepOldSet (n : Nat) (s : State) : State :=
  let w := s.wl n
  if w.rsTxSwitched && !w.rsRxSwitched then shown n (fun s => s.modWp n (fun w => { w with txSet := w.rxSet })) s
  else if w.rsRxSwitched && !w.rsTxSwitched then
    let set := (s.wp n).txSet
    let s := (s.modWp n (fun w => { w with rxSet := set })).wr .WP_ACTIVE_MASK (physMask s n set) n
    each [0, 1, 2, 3] (fun k s =>
      when (!set.testBit (logicalOf s n k) && s.rd .WP_LSTATE n k == 2) (moveLane n k 3) s) (s.wr .WL_ACTIVE_SET set n)
  else s

/-- A reshape fails for a reason of Table WL-4; the old set stays. -/
def failReshape (n reason : Nat) (s : State) : State :=
  trace 2 n 0x0107 reason ((endReshape n (dropBackground n (keepOldSet n s))).wr .WL_RESHAPE_FAIL 1 n)

/-- A reshape in progress ends with the link's retrain or loss: no further message of it is acted on (R215). -/
def dropReshape (n : Nat) (s : State) : State :=
  (endReshape n (dropBackground n s)).modWl n (fun w => { w with msgQ := [] })

/-! ### Flush and link-down (R201, R204, R205) -/

/-- A packet that a flush discards and counts: a host write, or an answer of the bridge (Table WL-9). -/
def flushCounts (p : Pkt) : Bool := (p.typ == 1 && !p.ackReq) || p.typ == 3 || p.typ == 4 || p.typ == 5

/-- The requests of the bridge on a link end with the link unavailable (Table WL-9), one whose answers were accepted before when those
have been acted on (R205). -/
def failBridge (n code : Nat) (s : State) : State :=
  let w := s.wl n
  let answered (t : WTag) : Bool := !t.quarantined && w.rxQ.any (answersTo t.tag)
  let out := (w.wlTags.filter (fun t => !t.quarantined && !answered t && !staleRsp s t)).map (fun t => (t.src, t.pkt.addr)) ++
    w.linkQ.map (fun p => (p.src, p.pkt.addr))
  let s := s.modWl n (fun w => { w with
    wlTags := (w.wlTags.filter (fun t => t.quarantined || answered t)).map (fun t =>
      if answered t && t.down = 0 then { t with down := code } else t)
    linkQ := [] })
  each out (fun x s => bridgeFails n x.1 x.2 code s) s

/-- The host requests that wait for link `n` (R204). -/
def waiting (s : State) (n : Nat) : List InReq :=
  (List.range 32).flatMap (fun h => (s.hl h).inWait.filter (fun x => x.link == n))

/-- The host requests that wait for link `n` wait no longer: `k` says what becomes of each. -/
def endWait (n : Nat) (k : InReq → State → State) (s : State) : State :=
  each (List.range 32) (fun h s =>
    let mine := (s.hl h).inWait.filter (fun x => x.link == n)
    let rest := (s.hl h).inWait.filter (fun x => x.link != n)
    if mine.isEmpty then s else each mine k (s.modHl h (fun l => { l with inWait := rest }))) s

/-- Held traffic is disposed of (R205, Table WL-9).  `event`: FLUSHED is set and reported. -/
def flushLink (n : Nat) (event : Bool) (s : State) : State :=
  let w := s.wl n
  let cnt := (w.linkQ.filter (fun p => flushCounts p.pkt)).length + (w.replay.map (·.counted)).sum +
    (w.txHalf.map (·.counted)).getD 0 + ((waiting s n).filter (·.req.write)).length
  let s := (s.add .WL_FLUSHPKT_CNT cnt n).modWl n (fun w => { w with
    replay := w.replay.map (fun g => { g with counted := 0 }), msgQ := [], txHalf := none })
  let s := failBridge n (if tlReset s (wlTiller n) then 10 else 9) s
  let s := endWait n (fun x s => if x.req.write then s else unavailable (fnIdx x.req.fn) x.req.offset false (inboundUr x.req s)) s
  when event (fun s => linkLine 18 n ((trace 2 n 0x0105 cnt s).wr .WL_FLUSHED 1 n)) s

/-- GRACE in units of 10 µs. -/
def graceOf (s : State) (n : Nat) : Nat := min 100000 (s.rd .WL_GRACE n)

/-- The GRACE timer stops. -/
def stopGrace (n : Nat) (s : State) : State := s.wr .WL_GRACE_RUN 0 n

/-- The link is declared down (R201 step 3): traffic is held while GRACE runs, and flushed at once with GRACE 0. -/
def declareDown (n : Nat) (s : State) : State :=
  let s := dropReshape n s
  let s := trace 2 n 0x0103 0 s
  let hold := graceOf s n != 0
  let s := (s.wr .WL_LSTATE (if hold then 4 else 0) n).wr .WL_GRACE_RUN (if hold then 1 else 0) n
  let s := linkLine 4 n ((s.wr .WL_DOWN 1 n).inc .WL_DOWN_CNT n)
  when (!hold && !s.react) (flushLink n true) s

/-- The physical layer has left ACTIVE for DETECT, DISABLED or LOOPBACK (Table WL-6). -/
def linkPhysDown (n : Nat) (s : State) : State :=
  match s.rd .WL_LSTATE n with
  | 1 => s.wr .WL_LSTATE (if s.on .WL_GRACE_RUN n then 4 else 0) n
  | 2 | 3 => declareDown n s
  | 5 => s.wr .WL_LSTATE 0 n
  | _ => s

/-! ### Training states (Table WP-6) -/

/-- The lanes may leave DISABLED: DISABLE 0, domain ON, pads released, link-buffer bank not LOST (R180, R203). -/
def phyCan (s : State) (n : Nat) : Bool :=
  let t := wlTiller n
  s.domOn (dWphy t) && !s.on .PW_PAD_HOLD 0 (dWphy t) && !s.on .WP_DISABLE n && !bankLost s (3 * t + 1)

/-- What every entry to a state in which the partner's clock is not locked clears. -/
def clearTraining (n st : Nat) (s : State) : State :=
  s |>.wr .WP_STATE st n
    |>.wr .WP_CLK_LOCK 0 n
    |>.wr .WP_CK_LOCK 0 n
    |>.wr .WP_CUR_RATE 0 n
    |>.wr .WP_ACTIVE_MASK 0 n
    |>.wr .WL_ACTIVE_SET 0 n

/-- The tiller's SELFTEST cause follows its links in loopback (R178, Table RQ-3). -/
def showSelftest (t : Nat) (s : State) : State :=
  setMode .TI_SELFTEST ((List.range 12).any (fun k => s.rd .WP_STATE (12 * t + k) == 7)) t s

/-- The lanes go to electrical idle: DISABLED.  The partner's clock is no longer known. -/
def enterDisabled (n : Nat) (s : State) : State :=
  showSelftest (wlTiller n) (shown n (fun s =>
    let s := (clearTraining n 0 s).wr .WP_CK_DETECT 0 n
    setLanes n (fun _ => 0) (s.modWp n (fun w => { w with clockSeen := false, roleReported := false, ts2 := none, chose := false }))) s)

/-- Loopback (R178): no lane takes part in training.  Table WP-7 has no row for a lane in loopback: LSTATE shows OFF (DESIGN CHOICE, log
entry 88). -/
def enterLoopback (n : Nat) (s : State) : State :=
  showSelftest (wlTiller n) (shown n (fun s => setLanes n (fun _ => 0) (clearTraining n 7 s)) s)

/-- DETECT: forwarded clock and TS1 at 6.25 Gbit/s on every lane in LANE_EN. -/
def enterDetect (n : Nat) (s : State) : State :=
  let s := shown n (fun s =>
    let s := when (s.rd .WP_STATE n == 0) (applyCtl n) s
    let s := (clearTraining n 1 s).modWp n (fun w => { w with ts2 := none, chose := false })
    let en := (s.wp n).enLanes
    setLanes n (fun k => if en.testBit k then 1 else 0) s) s
  showSelftest (wlTiller n) (sendTs1 n s)

/-- A link in DISABLED leaves it when nothing holds it there. -/
def leaveDisabled (n : Nat) (s : State) : State :=
  if s.rd .WP_STATE n != 0 || !phyCan s n then s
  else if s.rd .WP_LOOPBACK n = 1 || s.rd .WP_LOOPBACK n = 2 then enterLoopback n s
  else enterDetect n s

/-- The physical layer restarts in DETECT, or stays DISABLED when something holds it there. -/
def restartPhy (n : Nat) (s : State) : State := if phyCan s n then enterDetect n s else enterDisabled n s

/-- Training restarts in DETECT; a link that was up is declared down. -/
def goDetect (n : Nat) (s : State) : State := linkPhysDown n (restartPhy n s)

/-- The lanes go to DISABLED; a link that was up is declared down. -/
def goDisabled (n : Nat) (s : State) : State :=
  when (s.rd .WP_STATE n != 0) (fun s => linkPhysDown n (enterDisabled n s)) s

/-- A report of the lanes to the Ward (TILLERt line 8). -/
def laneFault (n : Nat) (s : State) : State := ward (wlTiller n) 8 (mWl n) 0 0 s

/-- An attempt at a rate has failed: after two in a row the key side goes on to the next lower rate (R170). -/
def countFail (n : Nat) (s : State) : State :=
  let w := s.wp n
  let f := if w.failRate = w.chosenRate then w.fails + 1 else 1
  if 2 ≤ f && 0 < w.chosenRate && !s.on .WP_ROLE n then
    (s.modWp n (fun w => { w with fails := 0, rateCap := w.chosenRate - 1 })).wr .WP_DOWNSHIFT 1 n
  else s.modWp n (fun w => { w with fails := f, failRate := w.chosenRate })

/-- A training attempt fails (R170 to R172). -/
def failAttempt (n : Nat) (conflict : Bool) (s : State) : State :=
  let w := s.wp n
  let s := (s.wr .WP_TRAIN_FAIL 1 n).inc .WP_FAIL_CNT n
  let s := when (!conflict || !w.roleReported) (laneFault n) s
  let s := when conflict (fun s => s.modWp n (fun w => { w with roleReported := true })) s
  goDetect n (when w.chose (countFail n) s)

/-- The full choice of rates is restored (R170). -/
def fullChoice (n : Nat) (s : State) : State :=
  (s.modWp n (fun w => { w with rateCap := 3, fails := 0 })).wr .WP_DOWNSHIFT 0 n

/-! ### Retrain -/

/-- The link layer stops for a retrain (Table WL-6). -/
def linkRetrain (n : Nat) (s : State) : State :=
  match s.rd .WL_LSTATE n with
  | 2 =>
    let s := dropReshape n s
    let s := s.modWl n (fun w => { w with rtHeld := w.replay.length })
    trace 2 n 0x0102 0 ((s.wr .WL_LSTATE 3 n).inc .WL_RETRAIN_CNT n)
  | 1 | 5 => linkPhysDown n s
  | _ => s

/-- The physical layer retrains at the current rate (Table WP-6), on the lanes of the key side's transmit set (R215): the
others that are in use go to STANDBY, those no longer in LANE_EN to OFF. -/
def enterRetrain (n : Nat) (s : State) : State :=
  if s.rd .WP_STATE n != 5 then s
  else
    let s := shown n (fun s =>
      let set := if s.on .WP_ROLE n then (s.wp n).rxSet else (s.wp n).txSet
      let r := s.rd .WP_CUR_RATE n
      let s := applyCtl n ((linkRetrain n s).wr .WP_STATE 6 n)
      let s := s.modWp n (fun w => { w with chosenRate := r, chosenSet := set, chose := true, ts2 := none })
      each [0, 1, 2, 3] (fun k s =>
        let st := s.rd .WP_LSTATE n k
        if !laneEn s n k then setLane n k 0 s
        else if set.testBit (logicalOf s n k) && [2, 3, 4].contains st then setLane n k 1 s
        else if st = 2 || st = 4 then setLane n k 3 s
        else s) s) s
    sendTs1 n s

/-! ### Starting a link (R198 to R200) -/

/-- Credits that the bridge advertises, by class (Table WL-7). -/
def advertised : List Nat := [576, 64, 320]

/-- The bytes of an INIT body (Table WL-3). -/
def initBytes (b : InitBody) : Bytes :=
  padTo 64 (le 2 b.version ++
    le 2 ((if b.resume then 1 else 0) + (if b.initSeen then 2 else 0) + (if b.peer then 4 else 0)) ++ le 2 b.linkId ++
    le 2 b.peerLinkId ++ le 2 b.nextRx ++ le 2 b.crP ++ le 2 b.crN ++ le 2 b.crC)

/-- The bridge's INIT body (Table WL-3): its sender is a bridge. -/
def initBody (s : State) (n : Nat) : InitBody :=
  let w := s.wl n
  { version := 1, resume := w.resume, initSeen := w.initSeen, peer := true, linkId := w.linkId, peerLinkId := w.peerLinkId
    nextRx := s.rd .WL_NEXT_RX n, crP := 576, crN := 64, crC := 320 }

/-- Send an INIT grain (R198). -/
def sendInit (n : Nat) (s : State) : State := emitGrain n true (newGrain s n 3 0 0 0 (initBytes (initBody s n))) s

/-- A new LINK_ID: never 0 and never the previous one; which one is open (R200). -/
def newLinkId (n : Nat) (s : State) : State :=
  draw s (fun k s =>
    let old := (s.wl n).linkId
    let v := if old = 0 then 1 + k % 65535 else (let v := 1 + k % 65534; if old ≤ v then v + 1 else v)
    s.modWl n (fun w => { w with linkId := v }))

/-- The INIT exchange starts. -/
def startInit (n : Nat) (resume : Bool) (s : State) : State :=
  let s := if resume then s else newLinkId n s
  let s := s.modWl n (fun w => { w with resume := resume, initSeen := false, initDone := false, accAny := false })
  sendInit n (s.wr .WL_LSTATE 1 n)

/-- The physical layer reaches ACTIVE (Table WL-6). -/
def linkPhysActive (n : Nat) (s : State) : State :=
  match s.rd .WL_LSTATE n with
  | 0 => startInit n false s
  | 3 => startReplay n ((s.wr .WL_LSTATE 2 n).wr .WL_REPLAY_COUNT 0 n)
  | 4 => startInit n true s
  | 6 => sendHalt n s
  | _ => s

/-- The payload of the bridge's IDENT (Table WT-7). -/
def identBytes (s : State) (n : Nat) : Bytes :=
  le 2 0x1D5E ++ le 2 0x8096 ++ le 2 0x00B0 ++ [0x0F] ++ [if s.on .WP_PEER n then 3 else 1] ++ le 2 0 ++ le 2 0 ++
    le 4 s.pins.straps.devid.val ++ le 8 s.upd.dsn ++ zeros 8

/-- The packets of a link that starts fresh which wait in the bridge are answered by nobody and return no credit (R205,
R225): a TAG, or for an interrupt MSG its link, that says so. -/
def forgetLink (n : Nat) (s : State) : State :=
  let f : HSrc → HSrc
    | .window wl lane tag win part ack last =>
      if wl = n then .window wl lane freshTag win part false last else .window wl lane tag win part ack last
    | .intr wl lane v win => if wl = n then .intr (n + 96) lane v win else .intr wl lane v win
    | x => x
  let g (r : HReq) : HReq := { r with src := f r.src }
  let s := s.mapTags (fun t => { t with req := g t.req })
  { s with
    hostQ := s.hostQ.map g
    locReqs := s.locReqs.filter (fun q => q.wl != n)
    sheafPkts := s.sheafPkts.map (fun p =>
      if p.wl = n then { p with pkt := { p.pkt with tag := freshTag, ackReq := false } } else p) }

/-- The link starts fresh (R199, R235): sequence and credits begin anew, and IDENT goes first.  Packets accepted before stay to
be acted on (R205). -/
def startFresh (n : Nat) (b : InitBody) (s : State) : State :=
  let s := forgetLink n s
  let s := s.modWl n (fun w => { w with
    replay := [], replayRetrained := false, rtHeld := 0, msgQ := [], used := [0, 0, 0], partnerRet := [0, 0, 0]
    credInit := [b.crP, b.crN, b.crC], freed := [0, 0, 0], taken := [0, 0, 0], ackPending := 0
    wlTags := (w.wlTags.filter (fun t => t.down != 0)).map (fun t => { t with tag := if t.tag < formerTag then formerTag + t.tag else t.tag })
    rxAsm := none, rxQ := w.rxQ.map (fun x => { x with old := true }), ident := none, maxRd := 512
    peerLink := s.on .WP_PEER n, txHalf := none, rsGone := []
    linkQ := [⟨{ pktZero with typ := 8, sub := 1, len := 32, payload := identBytes s n }, .ident, 256, 0, 0⟩] })
  let s := each [.WL_NEXT_TX, .WL_OLDEST, .WL_NEXT_RX, .WL_UNACKED, .WL_REPLAY_COUNT, .WL_RESUMED] (fun f s => s.wr f 0 n) s
  trace 2 n 0x0109 (s.wl n).linkId (showCredits n s)

/-- The link resets (R203): flush, no replay buffer, and the lanes start again from DISABLED.  Nothing more is done once the
flush's event has forced the fatal reaction (R208). -/
def linkReset (n : Nat) (s : State) : State :=
  if s.rd .WL_LSTATE n = 6 then s
  else
    let used := s.rd .WL_LSTATE n != 0
    let s := flushLink n used (stopGrace n (dropReshape n s))
    if s.rd .WL_LSTATE n = 6 then s
    else
      let s := s.modWl n (fun w => { w with replay := [], replayRetrained := false, rtHeld := 0, peerLinkId := 0 })
      let s := ((s.wr .WL_LSTATE 0 n).wr .WL_OLDEST (s.rd .WL_NEXT_TX n) n).wr .WL_UNACKED 0 n
      let s := s.wr .WL_REPLAY_COUNT 0 n
      leaveDisabled n (enterDisabled n (fullChoice n s))

/-- The exchange is a resume (R199). -/
def resumes (s : State) (n : Nat) (b : InitBody) : Bool :=
  let w := s.wl n
  w.resume && b.resume && b.peerLinkId == w.linkId && w.peerLinkId == b.linkId

/-- Host requests that waited for the link go on to it (R204). -/
def endHold (n : Nat) (s : State) : State := endWait n inboundPass s

/-- The exchange completes (R199, Table WL-6): a resume replays as in R195, and a fresh start flushes what is held. -/
def linkUp (n : Nat) (b : InitBody) (s : State) : State :=
  let w := s.wl n
  let held := s.on .WL_GRACE_RUN n
  if resumes s n b then
    let d := ackReach s n ((b.nextRx + 4095) % 4096)
    if w.replay.length < d then linkReset n s
    else
      let s := freeGrains n d (stopGrace n s)
      let s := (s.wr .WL_LSTATE 2 n).wr .WL_RESUMED 1 n
      let s := trace 2 n 0x0104 0 ((s.wr .WL_RETURNED 1 n).inc .WL_RETURN_CNT n)
      endHold n (startReplay n (countReplay n (s.modWl n (fun w => { w with accAny := false, ackPending := 0 }))))
  else
    let s := when held (flushLink n true) s
    if s.rd .WL_LSTATE n = 6 then s
    else
      let s := startFresh n b (stopGrace n s)
      let s := s.wr .WL_LSTATE 2 n
      s.modWl n (fun w => { w with peerLinkId := b.linkId, accAny := false })

/-! ### Reaching ACTIVE -/

/-- The set and rate are in use: of the lanes that took part in training those in the set are ACTIVE, others that trained
STANDBY, those left out FAILED (R173, Table WP-6).  The scrambler begins from its seeds (DESIGN CHOICE, log entry 57), COUNT of the
alignment blocks from 0 (DESIGN CHOICE, log entry 86), and RATE_CHG is set when the rate is not that of the last entry, never at the
first (DESIGN CHOICE, log entry 89). -/
def enterActive (n rate set : Nat) (s : State) : State :=
  let w := s.wp n
  let own := match w.ts2 with | some t => t.ownLanes.val &&& t.partnerLanes.val | none => 15
  let changed := w.lastRate != 4 && w.lastRate != rate
  let s := shown n (fun s =>
    let s := when changed (fun s => s.wr .WP_RATE_CHG 1 n) s
    let s := s.modWp n (fun w => { w with
      txSet := set, rxSet := set, txAlign := 0, rxAlign := [65536, 65536, 65536, 65536], badRun := [0, 0, 0, 0], fails := 0
      lastRate := rate, bgPassed := 0, chose := false, txSlot := 0 })
    let s := s |>.wr .WP_STATE 5 n
      |>.wr .WP_CUR_RATE rate n
      |>.wr .WP_CLK_LOCK 1 n
      |>.wr .WP_CK_LOCK 1 n
      |>.wr .WP_ACTIVE_MASK (physMask s n set) n
      |>.wr .WL_ACTIVE_SET set n
      |>.inc .WP_TRAIN_CNT n
    each [0, 1, 2, 3] (fun k s =>
      let l := logicalOf s n k
      let st := if s.rd .WP_LSTATE n k = 5 then (s.wp n).prevL.getD k 0 else s.rd .WP_LSTATE n k
      if st != 1 then s else setLane n k (if set.testBit l then 2 else if own.testBit l then 3 else 6) s) s) s
  linkPhysActive n s

end Sys2Proof.Machine
end

