-- ==== Sys2Proof/Machine/WLink.lean ====
section
/-!
DEFINITION. The rows of the Weaseif link layer (chapter 8) and the sending of packets (chapter 9): grains received,
acknowledgement, packets sent, replay, the INIT exchange, GRACE, reset, HALT and the reshape exchange.
-/
namespace Sys2Proof.Machine

/-! ### Packets and bytes (R184, R217, R218) -/

/-- The bytes of a packet: its header and payload. -/
def pktBytes (p : Pkt) : Bytes :=
  [BitVec.ofNat 8 (p.typ % 16 + p.lane % 4 * 16 + (if p.ackReq then 64 else 0) + (if p.ro then 128 else 0)),
   BitVec.ofNat 8 p.sub] ++ le 2 (p.len % 8192) ++ le 2 (p.tag % 4096) ++ le 1 p.status ++ le 1 p.cause ++
    (match p.typ with
      | 1 | 2 | 6 => le 8 p.addr
      | 3 => zeros 8
      | 4 => le 2 p.byteCount ++ le 2 (p.lowerAddr % 4096) ++ zeros 4
      | 7 => le 2 p.num ++ zeros 2 ++ le 4 p.value
      | _ => zeros 8) ++ sub p.payload 0 (payloadLen p)

/-- The packet that bytes spell: reserved bits are ignored (R217). -/
def pktOf (b : Bytes) : Pkt :=
  let b0 := num b 0 1
  let typ := b0 % 16
  let len := num b 2 2 % 8192
  let p : Pkt := { pktZero with
    typ := typ, lane := b0 / 16 % 4, ackReq := typ == 1 && b0.testBit 6, ro := (typ == 1 || typ == 2) && b0.testBit 7
    sub := if typ = 6 || typ = 7 || typ = 8 then num b 1 1 else 0
    len := len, tag := num b 4 2 % 4096 }
  let p := match typ with
    | 1 | 2 | 6 => { p with addr := num b 8 8 }
    | 3 | 5 => { p with status := num b 6 1, cause := num b 7 1 }
    | 4 => { p with status := num b 6 1, cause := num b 7 1, byteCount := num b 8 2 % 8192, lowerAddr := num b 10 2 % 4096 }
    | 7 => { p with num := num b 8 2, value := num b 12 4 }
    | _ => p
  { p with payload := sub b 16 (payloadLen p) }

/-- A DATA grain that is not yet sent, from the halves of packets it carries: SOP, EOP, counted packets and bytes. -/
def dataGrain (sop eop counted : Nat) (b : Bytes) : TxGrain := ⟨1, sop, eop, 0, counted, padTo 64 b⟩

/-- The grains of a packet's halves from one at the start of a grain on (R184). -/
def packetGrains : Nat → Bool → Nat → Bytes → Nat → List TxGrain
  | 0, _, _, _, _ => []
  | k + 1, first, halves, b, counted =>
    let sop := if first then 1 else 0
    if halves = 0 then []
    else if halves ≤ 2 then [dataGrain sop (if halves = 1 then 1 else 2) counted b]
    else dataGrain sop 0 0 (b.take 64) :: packetGrains k false (halves - 2) (b.drop 64) counted

/-- The grains of a packet (R184): it begins in the second half of the DATA grain that waits for it, when there is one. -/
def grainsOf (half : Option TxGrain) (halves : Nat) (b : Bytes) (counted : Nat) : List TxGrain :=
  match half with
  | none => packetGrains (halves + 1) true halves b counted
  | some g =>
    let one := halves = 1
    dataGrain (g.sop + 2) (g.eop + if one then 2 else 0) (g.counted + if one then counted else 0) (g.payload.take 32 ++ padTo 32 (b.take 32)) ::
      packetGrains (halves + 1) false (halves - 1) (b.drop 32) counted

/-- A DATA grain whose second half is empty. -/
def TxGrain.halfFull (g : TxGrain) : Bool := g.eop == 1

/-! ### Choosing the packet that goes next (R191, R221, R283, R284) -/

/-- A packet answers the local design, or is not a request. -/
def WPkt.answer (p : WPkt) : Bool := match p.src with | .response | .ident | .doorbell => true | _ => false

/-- A packet needs a TAG of the bridge. -/
def WPkt.tagged (p : WPkt) : Bool := !p.answer && (p.pkt.typ == 2 || p.pkt.ackReq)

/-- The function whose host request a packet carries. -/
def WPkt.hostFn (p : WPkt) : Option Nat := match p.src with | .hostWrite f _ | .hostRead f _ _ => some f | _ => none

/-- The source of a packet: a channel, host requests of a function, or the bridge's answers. -/
def WPkt.source (p : WPkt) : Nat × Nat :=
  match p.src.chan with
  | some c => (1, c)
  | none => if p.answer then (0, 0) else (2, p.hostFn.getD 0)

/-- The arbitration points admit a packet: its bucket and the TAGs allow it. -/
def wAdmitted (s : State) (n : Nat) (p : WPkt) : Bool :=
  admits s p.tn p.charge && (!p.tagged || decide ((s.wl n).wlTags.length < 2048))

/-- A packet may go now as far as credit, bucket and TAGs allow. -/
def wReady (s : State) (n : Nat) (p : WPkt) : Bool :=
  creditFor s n p.pkt && wAdmitted s n p

/-- Whether a packet may be sent ahead of an earlier one of its lane that waits for credit (R221). -/
def mayPass (later earlier : Nat) : Bool :=
  (creditClass later == 0 && creditClass earlier != 0) || (creditClass later == 2 && creditClass earlier == 1)

/-- The packet may go ahead of every earlier one of its lane (R221): requests of other sources have no order among them up to
the arbitration that issues them, but once one waits only for credit it is issued, and no other source passes it.  Host requests of
one function go in the order they arrived in, whatever waits for credit (R126). -/
def orderAllows (s : State) (n : Nat) (earlier : List WPkt) (p : WPkt) : Bool :=
  earlier.all (fun e => e.pkt.lane != p.pkt.lane ||
    (e.source != p.source && e.answer == p.answer && (creditFor s n e.pkt || !wAdmitted s n e)) ||
    (mayPass p.pkt.typ e.pkt.typ && !creditFor s n e.pkt && (p.hostFn.isNone || e.hostFn != p.hostFn)))

/-- The packets of a link that may go next, with their places. -/
def wHeads (s : State) (n : Nat) : List (Nat × WPkt) :=
  let q := (s.wl n).linkQ
  if q.any (fun p => p.src == .ident) then
    (q.zipIdx.filter (fun x => x.1.src == .ident && creditFor s n x.1.pkt)).map (fun x => (x.2, x.1))
  else
    (q.zipIdx.filter (fun x => wReady s n x.1 && orderAllows s n (q.take x.2) x.1)).map (fun x => (x.2, x.1))

/-- Payload bytes that arbitration counts for a packet (R283). -/
def wSize (p : WPkt) : Nat := if payloadLen p.pkt = 0 then 16 else payloadLen p.pkt

/-- Quanta are added, round by round, until a tenant can go.  `k` bounds the rounds. -/
def wQuanta (s : State) (l : List WPkt) : Nat → Tbl Nat → Tbl Nat
  | 0, d => d
  | k + 1, d =>
    if l.any (fun x => decide (wSize x ≤ tget 0 d x.tn)) then d
    else
      wQuanta s l k
        ((l.map (·.tn)).dedup.foldl (fun d tn => tset 0 d tn (tget 0 d tn + 256 * max 1 (weightOf s tn))) d)

/-- The choice allows the packet at place `pos`: the deficits afterwards.  The bridge's answers have no tenant and no
deficit. -/
def wAllowed (s : State) (n pos : Nat) : Option (WPkt × Tbl Nat) :=
  let hs := wHeads s n
  let d := (s.wl n).deficit
  match hs.find? (fun x => x.1 == pos) with
  | none => none
  | some (_, p) =>
    if p.answer then some (p, d)
    else
      let reqs := (hs.map (·.2)).filter (fun x => !x.answer)
      let heavy := reqs.filter (fun x => weightOf s x.tn != 0)
      let cand := if heavy.isEmpty then reqs else heavy
      if !cand.any (fun x => x == p) then none
      else
        let d := wQuanta s cand 8 d
        let turn := p.src.chan.isNone ||
          cyclicNext (tget 0 (s.wl n).chTurn p.tn) ((cand.filter (fun x => x.tn == p.tn)).filterMap (·.src.chan)) == p.src.chan
        if wSize p ≤ tget 0 d p.tn && turn then some (p, tset 0 d p.tn (tget 0 d p.tn - wSize p)) else none

/-- A tenant with nothing waiting on a link loses its deficit. -/
def wIdle (n tn : Nat) (s : State) : State :=
  s.modWl n (fun w => if w.linkQ.any (fun p => p.tn == tn && !p.answer) then w else { w with deficit := tset 0 w.deficit tn 0 })

/-- The bucket of the tenant is charged for a DMA read of a local design (R280). -/
def wCharge (p : WPkt) (s : State) : State :=
  if 256 ≤ p.tn || p.charge = 0 || !bucketKept s p.tn then s
  else (setBucket p.tn (bucketOf s p.tn - (p.charge : Nat)) s).add .TN_CHARGED_CNT p.charge p.tn

/-- What follows a packet of the bridge on its link: its TAG and timer, its counters and its trace (R224, R228). -/
def wSent (n tag : Nat) (p : WPkt) (s : State) : State :=
  let s := when p.tagged (fun s => s.modWl n (fun w => { w with wlTags := w.wlTags ++
    [⟨tag, { p.pkt with tag := tag }, p.src, p.tn, p.gen, 0, [], max 1 w.lrspTo, false, 0⟩] })) s
  let s := match p.src with
    | .dmaWrite c _ => hubCross (chTiller c) (wlTiller n) (payloadLen p.pkt) s
    | _ => s
  let s := (s.inc .CT_WL_TX_PKT n).add .CT_WL_TX_BYTES (payloadLen p.pkt) n
  let s := withSome p.src.chan (fun c s => s.modWl n (fun w => { w with chTurn := tset 0 w.chTurn p.tn (c + 1) })) s
  let s := match p.src with
    | .dmaRead c _ _ => pump c s
    | _ => s
  when (p.src == .response && p.pkt.status != 0)
    (trace 2 n 0x0202 (p.pkt.status % 256 + p.pkt.cause % 256 * 256 + p.pkt.tag % 4096 * 65536)) s

/-- An MRD that the partner's MAX_RD does not admit is cut (R220): the part that goes now, and what stays in its place. -/
def cutRead (s : State) (n : Nat) (p : WPkt) : WPkt × Option WPkt :=
  let m := (s.wl n).maxRd
  let part (o l : Nat) : WPkt := { p with
    pkt := { p.pkt with addr := p.pkt.addr + o, len := l }, charge := p.charge * l / p.pkt.len
    src := match p.src with
      | .hostRead f rd x => .hostRead f rd (x + o)
      | .dmaRead c d x => .dmaRead c d (x + o)
      | x => x }
  if p.pkt.typ = 2 && m < p.pkt.len && !p.answer then (part 0 m, some { part m (p.pkt.len - m) with charge := p.charge - p.charge * m / p.pkt.len })
  else (p, none)

/-- A host read has one part more. -/
def morePart (src : WSrc) (s : State) : State :=
  match src with
  | .hostRead _ rd _ => { s with inRds := s.inRds.map (fun q => if q.id = rd then { q with parts := q.parts + 1 } else q) }
  | _ => s

/-- What is left of an MRD that was cut waits in its place (R220). -/
def putRest (n pos : Nat) (rest : Option WPkt) (s : State) : State :=
  withSome rest (fun r s => morePart r.src (s.modWl n (fun w => { w with linkQ := w.linkQ.insertIdx pos r }))) s

/-- The packet at place `pos` starts (R191): its credit is taken and its grains follow.  A last grain with an empty half waits
for the next packet while one can go (R184); where none can go, one that waits is sent. -/
def sendPacket (n pos tag : Nat) (s : State) : State :=
  match wAllowed s n pos with
  | none => when (wHeads s n).isEmpty (flushHalf n) s
  | some (p, d) =>
    let (p, rest) := cutRead s n p
    let halves := pktCost p.pkt
    let half := (s.wl n).txHalf
    let free := 512 - (s.wl n).replay.length
    if free < (halves + 2) / 2 then s
    else if p.tagged && (4096 ≤ tag || (s.wl n).wlTags.any (fun t => t.tag == tag)) then s
    else
      let pkt := if p.tagged then { p.pkt with tag := tag } else p.pkt
      let s := wCharge p s
      let s := s.modWl n (fun w => { w with
        linkQ := w.linkQ.eraseIdx pos, deficit := d, used := bump w.used (creditClass pkt.typ) halves, txHalf := none })
      let s := showCredits n (wIdle n p.tn (putRest n pos rest s))
      let gs := grainsOf half halves (pktBytes pkt) (if flushCounts pkt then 1 else 0)
      let keep := (gs.getLast?.filter (·.halfFull)).filter (fun _ => !(wHeads s n).isEmpty)
      let s := each (if keep.isSome then gs.dropLast else gs) (fun g s => sendSeq n 1 g.sop g.eop g.payload g.counted s) s
      let s := wSent n tag p (s.modWl n (fun w => { w with txHalf := keep }))
      when (decide (p.tn < 256)) (showHeld p.tn) s

/-- LINK_PACKET_SEND (R191): the packet at place `pos` of those that wait on a link that is UP starts, a request with a
TAG that is free.  Where the rules of order, credit and arbitration do not let it go, no packet starts. -/
def execLinkPacketSend (wl : Wl) (pos tag : Nat) (s : State) : Res :=
  let n := wl.val
  .next (when (s.rd .WL_LSTATE n == 2 && s.tlOn (wlTiller n)) (sendPacket n pos tag) s)

/-! ### Reshape (R210 to R215) -/

/-- The width that a MIN_WIDTH field asks for. -/
def widthOf (v : Nat) : Nat := if v = 0 then 1 else if v = 1 then 2 else 4

/-- The larger of the two MIN_WIDTH values. -/
def minWidth (s : State) (n : Nat) : Nat :=
  max (widthOf (s.wp n).minW) (match (s.wp n).ts2 with | some t => widthOf t.minWidth.val | none => 1)

/-- A lane of a requested set can be used: in LANE_EN, and not OFF, FAILED or in TEST (R174, R212). -/
def laneUsable (s : State) (n l : Nat) : Bool :=
  let k := physOf s n l
  laneEn s n k && [2, 3, 4].contains (s.rd .WP_LSTATE n k)

/-- A set that R163 allows, not below the minimum width, of usable lanes (R212). -/
def setOk (s : State) (n set : Nat) : Bool :=
  [1, 2, 4].contains (popCount set 4) && decide (minWidth s n ≤ popCount set 4) &&
    [0, 1, 2, 3].all (fun l => !set.testBit l || laneUsable s n l)

/-- Lanes that a reshape adds to the bridge's receive set. -/
def added (s : State) (n set : Nat) : List Nat :=
  (List.range 4).filter (fun l => set.testBit l && !(s.wp n).rxSet.testBit l)

/-- A reshape is requested (R210); the bridge asks for no lane that it cannot use (R174). -/
def startReshape (n set : Nat) (s : State) : State :=
  if [0, 1, 2, 3].any (fun l => set.testBit l && !laneUsable s n l) then trace 2 n 0x0107 3 (s.wr .WL_RESHAPE_FAIL 1 n)
  else
    let id := (s.wl n).rsNextId
    let s := s.modWl n (fun w => { w with
      rsRole := 1, rsId := id, rsSet := set, rsStage := 1
      rsNextId := (id + 1) % 256, rsGone := w.rsGone.filter (fun x => x != id) })
    sendLinkMsg n 1 id set 0 (s.wr .WL_RESHAPE_BUSY 1 n)

/-- A reshape is agreed: the lanes to be added, which are in STANDBY, train in the background (R211, R174). -/
def agreeReshape (n set : Nat) (s : State) : State :=
  let add := added s n set
  let s := s.modWl n (fun w => { w with
    rsStage := 2, rsSet := set, rsTxSwitched := false, rsRxSwitched := false, rsReadySent := add.isEmpty
    rsReadyRcvd := add.isEmpty })
  let s := s.modWp n (fun w => { w with bgPassed := 0 })
  each add (fun l s => when (s.rd .WP_LSTATE n (physOf s n l) == 3) (moveLane n (physOf s n l) 4) s) s

/-- Send LANE_NAK. -/
def sendNak (n id reason : Nat) (s : State) : State := sendLinkMsg n 3 id 0 reason (s.inc .WL_NAK_CNT n)

/-- A LANE_REQ is received on a link that is UP (R212, R213). -/
def laneReqRcvd (n id set : Nat) (s : State) : State :=
  let w := s.wl n
  let mine := w.rsRole == 1 && w.rsStage == 1
  if mine && !s.on .WP_ROLE n then sendNak n id 1 s
  else
    let s := when mine (failReshape n 1) s
    if !setOk s n set then sendNak n id 3 s
    else if (s.wl n).rsRole != 0 then sendNak n id 4 s
    else if (s.wl n).rtHeld != 0 then sendNak n id 2 s
    else
      let s := s.modWl n (fun w => { w with rsRole := 2, rsId := id })
      sendLinkMsg n 2 id set 0 (agreeReshape n set (s.wr .WL_RESHAPE_BUSY 1 n))

/-- A LANE_ACK is received: the answer to the request that waits starts the reshape, and one to an abandoned request is
answered LANE_NAK, ABANDONED (R211, R214).  One of a reshape that a retrain has ended is not acted on (R215). -/
def laneAckRcvd (n id : Nat) (s : State) : State :=
  let w := s.wl n
  if w.rsRole = 1 && w.rsId == id && w.rsStage == 1 then agreeReshape n w.rsSet s
  else if w.rsGone.contains id then sendNak n id 6 (s.modWl n (fun w => { w with rsGone := w.rsGone.filter (fun x => x != id) }))
  else s

/-- A LANE_NAK of a reason is for the reshape in progress: a refusal for a request that waits, BG_FAIL for one that trains, and
ABANDONED for one that the partner asked for (R211 to R214). -/
def nakFits (w : WlS) (reason : Nat) : Bool :=
  if reason = 5 then w.rsStage == 2 else if reason = 6 then w.rsRole == 2 else w.rsRole == 1 && w.rsStage == 1

/-- A LANE_NAK is received: the reshape it names ends and the old set stays (R211). -/
def laneNakRcvd (n id reason : Nat) (s : State) : State :=
  let s := s.inc .WL_NAK_CNT n
  when ((s.wl n).rsRole != 0 && (s.wl n).rsId == id && nakFits (s.wl n) reason) (failReshape n reason) s

/-- A LANE_READY is received: the partner's receivers on the added lanes have passed (R211). -/
def laneReadyRcvd (n id : Nat) (s : State) : State :=
  when ((s.wl n).rsStage == 2 && (s.wl n).rsId == id) (fun s => s.modWl n (fun w => { w with rsReadyRcvd := true })) s

/-- The link message of an accepted grain is acted on; a reserved one is ignored (Table WL-4). -/
def linkMsgRcvd (n : Nat) (b : Bytes) (s : State) : State :=
  let id := num b 1 1
  match num b 0 1 with
  | 1 => laneReqRcvd n id (num b 2 1 % 16) s
  | 2 => laneAckRcvd n id s
  | 3 => laneNakRcvd n id (num b 3 1) s
  | 4 => laneReadyRcvd n id s
  | _ => s

/-! ### Receiving (R185, R187, R194) -/

/-- Halves that the packet being received occupies, 0 for a reserved TYPE, which its EOP ends. -/
def rxNeed (b : Bytes) : Nat :=
  let p := pktOf b
  if creditClass p.typ < 3 then pktCost { p with payload := [] } else 0

/-- A framing error (R185): the packet being received is discarded and its credits return.  It is counted and reported once for a grain:
`was` is WL_FRAME_CNT as it stood before the grain. -/
def framing (n was : Nat) (s : State) : State :=
  let s := match (s.wl n).rxAsm with
    | some b => releaseCredit n (creditClass (pktOf b).typ) (rxNeed b) s
    | none => s
  let s := s.modWl n (fun w => { w with rxAsm := none })
  when (s.rd .WL_FRAME_CNT n == was) (fun s => linkLine 7 n (s.inc .WL_FRAME_CNT n)) s

/-- Credit is advertised for a packet that starts (R194). -/
def creditHeld (s : State) (n : Nat) (b : Bytes) : Bool :=
  let c := creditClass (pktOf b).typ
  let w := s.wl n
  let occ := (w.taken.getD c 0 + 4096 - w.freed.getD c 0) % 4096
  3 ≤ c || decide (occ + rxNeed b ≤ advertised.getD c 0)

/-- After a half of a packet: it ends where its length and EOP agree; where only one says so it is a framing error. -/
def rxCheck (n was : Nat) (eop : Bool) (s : State) : State :=
  match (s.wl n).rxAsm with
  | none => s
  | some b =>
    let need := rxNeed b
    if need != 0 && (decide (b.length = 32 * need) != eop) then framing n was s
    else if eop then s.modWl n (fun w => { w with rxAsm := none, rxQ := w.rxQ ++ [⟨w.rxFirst, pktOf b, false⟩] })
    else s

/-- One half of an accepted DATA grain (R184, R185). -/
def rxHalf (n was : Nat) (b : Bytes) (sop eop : Bool) (s : State) : State :=
  if sop then
    let s := when (s.wl n).rxAsm.isSome (framing n was) s
    if !creditHeld s n b then
      linkReset n (linkLine 20 n ((s.wr .WL_CREDIT_ERR 1 n).inc .WL_CREDERR_CNT n))
    else
      let c := creditClass (pktOf b).typ
      rxCheck n was eop (s.modWl n (fun w => { w with rxAsm := some b, rxFirst := phaseNow s, taken := bump w.taken c (rxNeed b) }))
  else
    match (s.wl n).rxAsm with
    | some a => rxCheck n was eop (s.modWl n (fun w => { w with rxAsm := some (a ++ b) }))
    | none => when eop (framing n was) s

/-- The halves of an accepted DATA grain; nothing more is taken once the link has been reset. -/
def rxData (n : Nat) (g : Grain) (s : State) : State :=
  let was := s.rd .WL_FRAME_CNT n
  let s := rxHalf n was (g.payload.take 32) (g.sop.testBit 0) (g.eop.testBit 0) s
  when (s.rd .WL_LSTATE n == 2) (rxHalf n was (sub g.payload 32 32) (g.sop.testBit 1) (g.eop.testBit 1)) s

/-- The ACK and credit fields of a grain are applied. -/
def applyFields (n : Nat) (g : Grain) (s : State) : State :=
  let s := when g.ackV (applyAck n g.ack) s
  when g.crV (fun s => showCredits n (applyCredit n 2 g.crC (applyCredit n 1 g.crN (applyCredit n 0 g.crP s)))) s

/-- A grain whose CRC fails (R187, R202, R209). -/
def badCrc (n : Nat) (g : Grain) (s : State) : State :=
  let counts := !g.inj || s.on .WD_INJ_COUNTS
  let s := when g.inj (fun s => s.inc .WL_INJ_CNT n) s
  let s := wardEvent g.inj ⟨wlTiller n, 1, mWl n, 8, 0, 0⟩ s
  if !counts then s
  else
    let s := (s.inc .WL_CRC_CNT n).wr .WL_ERR_CUR (sat 16 (s.rd .WL_ERR_CUR n + 1)) n
    let lim := s.rd .WL_ERR_LIMIT n
    if lim != 0 && lim < s.rd .WL_ERR_CUR n && s.rd .WL_LSTATE n == 2 then
      restartPhy n (declareDown n (s.wr .WL_ERR_LIMIT_HIT 1 n))
    else s

/-! ### INIT and HALT (R193, R198, R207) -/

/-- An exchange fails (R198, Table WL-6). -/
def initFails (n : Nat) (s : State) : State :=
  linkLine 6 n ((s.wr .WL_LSTATE (if s.on .WL_GRACE_RUN n then 4 else 0) n).wr .WL_INIT_FAIL 1 n)

/-- An INIT is valid: its version, and credits of 17 to 2,047 in each class (R193, Table WL-3). -/
def initOk (b : InitBody) : Bool :=
  b.version == 1 && [b.crP, b.crN, b.crC].all (fun c => decide (17 ≤ c) && decide (c ≤ 2047))

/-- An INIT grain is received (Table WL-6).  An exchange that the bridge began as a resume, and that the partner's INIT makes a
fresh start, goes on with a new LINK_ID (R200). -/
def initRcvd (n : Nat) (b : InitBody) (s : State) : State :=
  match s.rd .WL_LSTATE n with
  | 1 =>
    if !initOk b then initFails n s
    else
      let s := when ((s.wl n).resume && !resumes s n b) (fun s => newLinkId n (s.modWl n (fun w => { w with resume := false }))) s
      let s := sendInit n (s.modWl n (fun w => { w with initSeen := true, initDone := w.initDone || b.initSeen }))
      when (s.wl n).initDone (linkUp n b) s
  | 2 => restartPhy n (declareDown n s)
  | _ => s

/-- The INIT body of a payload (Table WL-3). -/
def initOf (b : Bytes) : InitBody :=
  let f := num b 2 1
  { version := num b 0 2, resume := f.testBit 0, initSeen := f.testBit 1, peer := f.testBit 2, linkId := num b 4 2
    peerLinkId := num b 6 2, nextRx := num b 8 2 % 4096, crP := num b 10 2 % 4096, crN := num b 12 2 % 4096
    crC := num b 14 2 % 4096 }

/-- A HALT grain is received (R207, Table WL-6): what is held is flushed, whatever GRACE holds.  FLUSHED is not set for it, and the
flush is neither reported nor traced beside HALT_RX (DESIGN CHOICE, log entry 90). -/
def haltRcvd (n : Nat) (s : State) : State :=
  if s.rd .WL_LSTATE n = 1 || s.rd .WL_LSTATE n = 2 then
    let s := flushLink n false (stopGrace n (dropReshape n s))
    let s := when (s.rd .WL_LSTATE n != 6) (fun s => trace 2 n 0x0108 0 (s.wr .WL_LSTATE 5 n)) s
    linkLine 19 n ((s.wr .WL_HALT_RX 1 n).inc .WL_HALTRX_CNT n)
  else s

/-- An accepted grain (R187, R189, R210). -/
def acceptGrain (n : Nat) (g : Grain) (s : State) : State :=
  let s := (s.wr .WL_NEXT_RX ((s.rd .WL_NEXT_RX n + 1) % 4096) n).inc .WL_RX_CNT n
  let s := s.modWl n (fun w => { w with accAny := true, ackPending := w.ackPending + 1 })
  let s := applyFields n g s
  let s := when (s.rd .WL_LSTATE n == 2) (if g.typ = 1 then rxData n g else linkMsgRcvd n g.payload) s
  when (s.rd .WL_LSTATE n == 2 && decide (32 ≤ (s.wl n).ackPending)) (sendAck n) s

/-- A grain whose CRC is right (Table WL-5). -/
def goodGrain (n : Nat) (g : Grain) (s : State) : State :=
  let s := s.wr .WL_PARTNER_HEALTH g.health n
  let st := s.rd .WL_LSTATE n
  if st != 1 && st != 2 then s
  else if g.typ = 4 then haltRcvd n s
  else if g.typ = 3 then initRcvd n (initOf g.payload) s
  else if 5 ≤ g.typ then s.inc .WL_TYPE_CNT n
  else if g.typ = 0 then applyFields n g s
  else if st != 2 then s
  else
    let d := (s.rd .WL_NEXT_RX n + 4096 - g.seq) % 4096
    if d = 0 then acceptGrain n g s
    else applyFields n g (s.inc (if d ≤ 2048 then .WL_DUP_CNT else .WL_SEQ_CNT) n)

/-- Whether a grain's CRC is right. -/
def crcOk (g : Grain) : Bool := crc32 (grainBytes g) == g.crc

/-- Grains pass on a link: its lanes are ACTIVE and its tiller is ON, and it is not HALTED (R208). -/
def grainsPass (s : State) (n : Nat) : Bool :=
  s.rd .WP_STATE n == 5 && s.tlOn (wlTiller n) && s.rd .WL_LSTATE n != 6

/-- GRAIN_RECEIVED (R187): a grain of 64 payload bytes is received. -/
def execGrainReceived (wl : Wl) (g : Grain) (s : State) : Res :=
  let n := wl.val
  if g.payload.length ≠ 64 then .fault (.illFormed "grain payload")
  else .next (when (grainsPass s n) (if crcOk g then goodGrain n g else badCrc n g) s)

/-- ACK_SEND (R189): a grain carries the new ACK value; an IDLE grain when nothing else is ready. -/
def execAckSend (wl : Wl) (s : State) : Res :=
  let n := wl.val
  .next (when (grainsPass s n && s.rd .WL_LSTATE n == 2 && decide (0 < (s.wl n).ackPending))
    (sendAck n) s)

/-- REPLAY_TIMEOUT (R195, R201, Table WL-6): the replay timer of a link that is UP expires. -/
def replayExpires (n : Nat) (s : State) : State :=
  if s.rd .WL_REPLAY_COUNT n < s.rd .WL_REPLAY_LIMIT n then startReplay n (countReplay n s)
  else if (s.wl n).replayRetrained then restartPhy n (declareDown n s)
  else
    let s := s.modWl n (fun w => { w with replayRetrained := true })
    let s := linkLine 3 n (s.wr .WL_RETRAIN_REQ 1 n)
    when (s.rd .WL_LSTATE n == 2) (enterRetrain n) s

/-- REPLAY_TIMEOUT (R195). -/
def execReplayTimeout (wl : Wl) (s : State) : Res :=
  let n := wl.val
  .next (when (s.rd .WL_LSTATE n == 2 && s.tlOn (wlTiller n) && !(s.wl n).replay.isEmpty) (replayExpires n) s)

/-- INIT_RECEIVED (R198): an INIT grain whose CRC is right is received. -/
def execInitReceived (wl : Wl) (b : InitBody) (s : State) : Res :=
  .next (when (grainsPass s wl.val) (initRcvd wl.val b) s)

/-- INIT_TIMEOUT (R198): the exchange has not completed within 2 ms of ACTIVE. -/
def execInitTimeout (wl : Wl) (s : State) : Res :=
  .next (when (s.rd .WL_LSTATE wl.val == 1 && s.tlOn (wlTiller wl.val)) (initFails wl.val) s)

/-- GRACE_EXPIRY (R201, Table WL-6): what is held is flushed; an INIT exchange goes on as a fresh start. -/
def execGraceExpiry (wl : Wl) (s : State) : Res :=
  let n := wl.val
  .next (when (s.on .WL_GRACE_RUN n && s.tlOn (wlTiller n)) (fun s =>
    let s := flushLink n true (stopGrace n s)
    match s.rd .WL_LSTATE n with
    | 4 => s.wr .WL_LSTATE 0 n
    | 1 => sendInit n (newLinkId n (s.modWl n (fun w => { w with resume := false })))
    | _ => s) s)

/-- A register write of the manager PF to a block of a Weaseif link's tiller takes effect. -/
def wlWrites (s : State) (fn : Fn) (n : Nat) : Bool := mgrWrites s fn && s.tlOn (wlTiller n)

/-- WL_LINK_RESET_WRITE (R203): WL_CMD.LINK_RESET is written 1. -/
def execWlLinkResetWrite (fn : Fn) (wl : Wl) (s : State) : Res :=
  .next (when (wlWrites s fn wl.val) (linkReset wl.val) s)

/-- HALT_RECEIVED (R207): a HALT grain whose CRC is right is received. -/
def execHaltReceived (wl : Wl) (s : State) : Res := .next (when (grainsPass s wl.val) (haltRcvd wl.val) s)

/-- REPLAY_LIMIT_ZERO_WRITE (R201): the field keeps its value and WL_EVENTS.CFG_REFUSED is set. -/
def execReplayLimitZeroWrite (fn : Fn) (wl : Wl) (s : State) : Res :=
  .next (when (wlWrites s fn wl.val && !s.on .WL_LOCK wl.val) (fun s => s.wr .WL_CFG_REFUSED 1 wl.val) s)

/-! ### Rows of the reshape -/

/-- RESHAPE_GO_WRITE (R210): RESHAPE_SET is written, and LANE_REQ sent on a link that is UP with no reshape in progress. -/
def execReshapeGoWrite (fn : Fn) (wl : Wl) (set : Fin 16) (s : State) : Res :=
  let n := wl.val
  .next (when (wlWrites s fn n) (fun s =>
    let s := s.wr .WL_RESHAPE_SET set.val n
    when (s.rd .WL_LSTATE n == 2 && !s.on .WL_RESHAPE_BUSY n) (startReshape n set.val) s) s)

/-- Link messages are acted on: the link is UP. -/
def msgsPass (s : State) (n : Nat) : Bool := grainsPass s n && s.rd .WL_LSTATE n == 2

/-- LANE_REQ (R212). -/
def execLaneReq (wl : Wl) (id : Fin 256) (set : Fin 16) (s : State) : Res :=
  .next (when (msgsPass s wl.val) (laneReqRcvd wl.val id.val set.val) s)

/-- LANE_ACK (R211, R214). -/
def execLaneAck (wl : Wl) (id : Fin 256) (s : State) : Res := .next (when (msgsPass s wl.val) (laneAckRcvd wl.val id.val) s)

/-- LANE_NAK (R211). -/
def execLaneNak (wl : Wl) (id : Fin 256) (reason : Nat) (s : State) : Res :=
  .next (when (msgsPass s wl.val) (laneNakRcvd wl.val id.val reason) s)

/-- LANE_READY (R211). -/
def execLaneReady (wl : Wl) (id : Fin 256) (s : State) : Res := .next (when (msgsPass s wl.val) (laneReadyRcvd wl.val id.val) s)

/-- RESHAPE_TIMEOUT (R214): no answer within RESHAPE_TO ticks of LANE_REQ: the request is abandoned. -/
def execReshapeTimeout (wl : Wl) (s : State) : Res :=
  let n := wl.val
  .next (when ((s.wl n).rsRole == 1 && (s.wl n).rsStage == 1 && (s.wl n).rsTicks == 0 && !(s.wl n).msgQ.any (fun m => m.head? == some 1))
    (fun s => failReshape n 6 (s.modWl n (fun w => { w with rsGone := w.rsGone ++ [w.rsId] }))) s)

end Sys2Proof.Machine
end

