-- ==== Sys2Proof/Machine/Lanes.lean ====
section
/-!
DEFINITION. The rows of the Weaseif lanes (chapter 7): training, retrain, loopback, test patterns, error injection,
alignment blocks and background training.
-/
namespace Sys2Proof.Machine

/-- A lane event needs its PHY domain ON. -/
def phyOn (s : State) (n : Nat) : Bool := s.domOn (dWphy (wlTiller n))

/-- A register write of the manager PF to a WLANE block takes effect. -/
def wpWrites (s : State) (fn : Fn) (n : Nat) : Bool := mgrWrites s fn && phyOn s n

/-! ### Choice of rate and set (R170, R171, R476) -/

/-- The bridge's role: on a peer link the key side is the bridge with the lower DEVID. -/
def claimsKey (s : State) (n : Nat) (t : Ts2) : Bool := !s.on .WP_PEER n || decide (s.pins.straps.devid.val ≤ t.devid.val)

/-- Both ends claim the key side, or they differ on whether the link is a peer link. -/
def roleConflict (s : State) (n : Nat) (t : Ts2) : Bool :=
  (claimsKey s n t && !t.lockSide) || (t.peer != s.on .WP_PEER n)

/-- A logical lane qualifies: word lock in both directions, within LANE_EN, not in TEST, and in `among`. -/
def qualifies (s : State) (n : Nat) (t : Ts2) (among l : Nat) : Bool :=
  let k := physOf s n l
  t.partnerLanes.val.testBit l && t.ownLanes.val.testBit l && laneEn s n k && s.rd .WP_LSTATE n k != 5 && among.testBit l

/-- The set chosen of the qualifying lanes (R170). -/
def chooseSet (l : List Nat) : List Nat := if 4 ≤ l.length then l else if 2 ≤ l.length then l.take 2 else l.take 1

/-- The key side's choice of rate and set, if there is one (R170). -/
def choice (s : State) (n : Nat) (t : Ts2) (among : Nat) : Option (Nat × Nat) :=
  let top := min (s.wp n).tgtRate (s.wp n).rateCap
  let rate := [3, 2, 1, 0].find? (fun r => decide (r ≤ top) && t.rates.val.testBit r)
  let set := chooseSet ((List.range 4).filter (qualifies s n t among))
  match rate with
  | some r =>
    if set.isEmpty || set.length < minWidth s n then none else some (r, set.foldl (fun m l => m + 2 ^ l) 0)
  | none => none

/-- A lane within LANE_EN is not in the chosen set. -/
def markExcluded (n set : Nat) (s : State) : State :=
  when ([0, 1, 2, 3].any (fun k => laneEn s n k && !set.testBit (logicalOf s n k))) (fun s => s.wr .WP_LANE_EXCL 1 n) s

/-- A received training block of a type as it was sent: accepted with its CRC16 right, and inverted when its SYNC reads 0x43
(R169). -/
def blockOf (typ : Nat) (x : Fin 4 × Bytes) : Option (Nat × Bool × Bytes) :=
  let inv := num x.2 0 1 == 0x43
  let b := if inv then x.2.map (fun y => ~~~y) else x.2
  if b.length = 16 && num b 0 1 == 0xBC && num b 1 1 == typ && num b 14 2 == crc16 (b.take 14) then some (x.1.val, inv, b) else none

/-- The logical lanes of the physical lanes by the blocks accepted: a lane that none was accepted on takes the lowest number
left over (DESIGN CHOICE, log entry 66). -/
def mapLanes (bs : List (Nat × Bool × Bytes)) : List Nat :=
  let known (k : Nat) : Option Nat := (bs.find? (fun x => x.1 == k)).map (fun x => num x.2.2 2 1 % 4)
  let spare := [0, 1, 2, 3].filter (fun l => !bs.any (fun x => num x.2.2 2 1 % 4 == l))
  [0, 1, 2, 3].map (fun k => (known k).getD (spare.getD ([0, 1, 2, 3].filter (fun j => decide (j < k) && (known j).isNone)).length 0))

/-- The bits of a list of places. -/
def maskOf (l : List Nat) : Nat := l.foldl setBit 0

/-- What the TS2 blocks received on the physical lanes show (R164, R169, Table WP-5); nothing when none is accepted. -/
def ts2Of (blocks : List (Fin 4 × Bytes)) : Option Ts2 :=
  let bs := blocks.filterMap (blockOf 2)
  match bs with
  | [] => none
  | (_, _, b) :: _ =>
    let four (n : Nat) : Fin 4 := ⟨n % 4, Nat.mod_lt _ (by decide)⟩
    let half (n : Nat) : Fin 16 := ⟨n % 16, Nat.mod_lt _ (by decide)⟩
    let role := num b 3 1
    some {
      lockSide := role.testBit 0, peer := role.testBit 1, devid := four (role / 4), rates := half (num b 4 1)
      minWidth := four (num b 5 1 / 16), partnerLanes := half (num b 5 1)
      ownLanes := half (maskOf (bs.map (fun x => num x.2.2 2 1 % 4)))
      laneMap := ⟨((mapLanes bs).zipIdx.map (fun x => x.1 * 4 ^ x.2)).sum % 256, Nat.mod_lt _ (by decide)⟩
      rxInv := half (maskOf ((bs.filter (·.2.1)).map (·.1))) }

/-- What the TS2 exchange shows is kept (R164, R170). -/
def keepTs2 (n : Nat) (t : Ts2) (s : State) : State :=
  let s := s.modWp n (fun w => { w with ts2 := some t })
  let s := s |>.wr .WP_PARTNER_RATES t.rates.val n
    |>.wr .WP_PARTNER_PEER (if t.peer then 1 else 0) n
    |>.wr .WP_LANE_MAP t.laneMap.val n
    |>.wr .WP_RX_INV t.rxInv.val n
    |>.wr .WP_ROLE (if claimsKey s n t then 0 else 1) n
  each [0, 1, 2, 3] (fun k s => s.wr .WP_LOGICAL (logicalOf s n k) n k) s

/-- TS2, with the lanes that the bridge receives with word lock (Table WP-5). -/
def sendTs2 (n : Nat) (s : State) : State :=
  let own := match (s.wp n).ts2 with | some t => t.ownLanes.val | none => 0
  sendTrain n 2 (offered s n) (own + (s.wp n).minW * 16) s

/-- TS3, with the rate and set chosen (Table WP-5). -/
def sendTs3 (n : Nat) (s : State) : State := sendTrain n 3 (s.wp n).chosenRate (s.wp n).chosenSet s

/-- A rate and set are chosen, or adopted, for the attempt in progress. -/
def takeChoice (n rate set : Nat) (s : State) : State :=
  s.modWp n (fun w => { w with chosenRate := rate, chosenSet := set, chose := true })

/-- Transmission stops for 1 µs (Table WP-6). -/
def enterSwitch (n : Nat) (s : State) : State := shown n (fun s => s.wr .WP_STATE 3 n) s

/-! ### Training rows (Table WP-6) -/

/-- SLOW is entered: the controls are applied, and a lane that they take out is OFF, one that they bring in trains (Table
WP-6). -/
def enterSlow (n : Nat) (s : State) : State :=
  shown n (fun s =>
    let s := applyCtl n (s.wr .WP_STATE 2 n)
    each [0, 1, 2, 3] (fun k s =>
      let en := laneEn s n k
      if !en && s.rd .WP_LSTATE n k != 0 then setLane n k 0 s
      else if en && s.rd .WP_LSTATE n k == 0 then setLane n k 1 s
      else s) s) s

/-- PARTNER_CLOCK_STABLE (R172): the partner's clock has been stable for 1,024 cycles in DETECT. -/
def execPartnerClockStable (wl : Wl) (s : State) : Res :=
  let n := wl.val
  .next (when (s.rd .WP_STATE n == 1 && phyOn s n) (fun s =>
    let s := enterSlow n (s.modWp n (fun w => { w with clockSeen := true }))
    let s := ((s.wr .WP_CLK_LOCK 1 n).wr .WP_CK_LOCK 1 n).wr .WP_CK_DETECT 1 n
    draw s (fun k s => s.wr .WP_CK_FREQ_ERR k n)) s)

/-- The exchange of TS2 in SLOW: the key side chooses and sends TS3, the lock side waits for TS3. -/
def slowTs2 (n : Nat) (t : Ts2) (s : State) : State :=
  let s := sendTs2 n (keepTs2 n t s)
  if roleConflict s n t then failAttempt n true (s.wr .WP_ROLE_CONFLICT 1 n)
  else if !claimsKey s n t then s
  else
    match choice s n t 15 with
    | none => failAttempt n false s
    | some (r, set) => sendTs3 n (takeChoice n r set (markExcluded n set s))

/-- TS2_EXCHANGED (R169, R172): word lock and deskew are done and TS2 exchanged, in SLOW or while the link retrains; `blocks`
are those received on the physical lanes.  Where none is accepted there is no exchange. -/
def execTs2Exchanged (wl : Wl) (blocks : List (Fin 4 × Bytes)) (s : State) : Res :=
  let n := wl.val
  .next (
    match ts2Of blocks with
    | none => s
    | some t =>
      if !phyOn s n then s
      else if s.rd .WP_STATE n = 2 then slowTs2 n t s
      else if s.rd .WP_STATE n = 6 then sendTs2 n (keepTs2 n t s)
      else s)

/-- The rate and set of a TS3 stand: the key side's own choice echoed, or the partner's adopted by the lock side. -/
def ts3Agrees (s : State) (n rate set : Nat) : Bool :=
  s.on .WP_ROLE n || ((s.wp n).chosenRate == rate && (s.wp n).chosenSet == set)

/-- The lock side echoes the TS3 that it adopts. -/
def adoptTs3 (n rate set : Nat) (s : State) : State :=
  let s := takeChoice n rate set s
  when (s.on .WP_ROLE n) (fun s => sendTs3 n (markExcluded n set s)) s

/-- TS3_ECHOED (R172): TS3 is sent or received, and echoed; transmission stops for 1 µs. -/
def execTs3Echoed (wl : Wl) (rate : Fin 4) (set : Fin 16) (s : State) : Res :=
  let n := wl.val
  .next (when (s.rd .WP_STATE n == 2 && (s.wp n).ts2.isSome && ts3Agrees s n rate.val set.val)
    (fun s => enterSwitch n (adoptTs3 n rate.val set.val s)) s)

/-- SWITCH_DONE (R172): after 1 µs the lanes run at the chosen rate and send TS1. -/
def execSwitchDone (wl : Wl) (s : State) : Res :=
  let n := wl.val
  .next (when (s.rd .WP_STATE n == 3)
    (fun s => sendTs1 n (shown n (fun s => (s.wr .WP_STATE 4 n).wr .WP_CUR_RATE (s.wp n).chosenRate n) s)) s)

/-- FAST_CONFIRMED (R172): adaptation is done and TS2 and TS3 confirm the choice: ACTIVE, with scrambling and alignment
blocks. -/
def execFastConfirmed (wl : Wl) (s : State) : Res :=
  let n := wl.val
  .next (when (s.rd .WP_STATE n == 4)
    (fun s => enterActive n (s.wp n).chosenRate (s.wp n).chosenSet (sendTs3 n (sendTs2 n s))) s)

/-- TRAIN_ATTEMPT_TIMEOUT (R172): an attempt from DETECT or RETRAIN has taken 2 ms.  In DETECT no attempt is counted
before a partner clock has been seen. -/
def execTrainAttemptTimeout (wl : Wl) (s : State) : Res :=
  let n := wl.val
  let st := s.rd .WP_STATE n
  .next (when ([2, 3, 4, 6].contains st || (st == 1 && (s.wp n).clockSeen)) (failAttempt n false) s)

/-- PARTNER_CLOCK_LOST (R172): the partner's clock has been lost for 64 cycles. -/
def execPartnerClockLost (wl : Wl) (s : State) : Res :=
  let n := wl.val
  let st := s.rd .WP_STATE n
  let gone (s : State) : State := ((s.wr .WP_CLK_LOCK 0 n).wr .WP_CK_LOCK 0 n).wr .WP_CK_DETECT 0 n
  .next (
    if [2, 3, 4].contains st then failAttempt n false (gone s)
    else if st = 5 then
      enterRetrain n (laneFault n (((gone s).wr .WP_CLK_LOST 1 n).inc .WP_CLKLOST_CNT n))
    else if st = 0 then s
    else gone s)

/-- PHY_RETRAIN (R172): a retrain cause stops grains and sends TS1 with FLAGS[0]. -/
def execPhyRetrain (wl : Wl) (s : State) : Res := .next (enterRetrain wl.val s)

/-- PARTNER_RETRAIN (R172): the partner's TS1 with FLAGS[0] starts a retrain; one in progress takes it in. -/
def execPartnerRetrain (wl : Wl) (s : State) : Res := .next (enterRetrain wl.val s)

/-- The retrain's choice: the key side's by R170 among the lanes that take part, or the partner's (R215). -/
def retrainChoice (s : State) (n rate set : Nat) : Option (Nat × Nat) :=
  match (s.wp n).ts2 with
  | some t => if s.on .WP_ROLE n then some (rate, set) else choice s n t (s.wp n).chosenSet
  | none => some (rate, set)

/-- RETRAIN_DONE (R172): TS2 and TS3 confirm the retrain.  At the current rate grains resume; another rate goes through
SWITCH.  A key side whose choice fails fails the attempt; its TS3 shows its own choice. -/
def execRetrainDone (wl : Wl) (rate : Fin 4) (set : Fin 16) (s : State) : Res :=
  let n := wl.val
  .next (when (s.rd .WP_STATE n == 6 && phyOn s n) (fun s =>
    match retrainChoice s n rate.val set.val with
    | none => failAttempt n false s
    | some (r, m) =>
      if r != rate.val || m != set.val then s
      else
        let s := sendTs3 n (takeChoice n r m (markExcluded n m s))
        if r = s.rd .WP_CUR_RATE n then enterActive n r m s else enterSwitch n s) s)

/-! ### Control writes -/

/-- WLANE.DISABLE takes a value. -/
def setDisable (n : Nat) (v : Bool) (s : State) : State :=
  let s := s.wr .WP_DISABLE (if v then 1 else 0) n
  let s := if v then goDisabled n s else leaveDisabled n s
  shown n (each [0, 1, 2, 3] (fun k s => settlePrbs n k s)) s

/-- WLANE_DISABLE_WRITE (R172): 1 idles the lanes, 0 lets the link leave DISABLED. -/
def execWlaneDisableWrite (fn : Fn) (wl : Wl) (v : Bool) (s : State) : Res :=
  .next (when (wpWrites s fn wl.val) (setDisable wl.val v) s)

/-- WLANE_TRAIN_WRITE (R172): training restarts in DETECT with the full choice of rates (R170). -/
def execWlaneTrainWrite (fn : Fn) (wl : Wl) (s : State) : Res :=
  let n := wl.val
  .next (when (wpWrites s fn n && s.rd .WP_STATE n != 0 && s.rd .WP_STATE n != 7)
    (fun s => goDetect n (fullChoice n s)) s)

/-- LOOPBACK is written (R178): 3 acts as 0. -/
def writeLoopback (n v : Nat) (s : State) : State :=
  let st := s.rd .WP_STATE n
  if v = 1 || v = 2 then
    if st = 1 then enterLoopback n (s.wr .WP_LOOPBACK v n)
    else if st = 0 then s.wr .WP_LOOPBACK v n
    else s.wr .WP_LB_REFUSED 1 n
  else
    let s := s.wr .WP_LOOPBACK v n
    when (st == 7) (restartPhy n) s

/-- STBY_IDLE takes a value: the STANDBY lanes follow it (Table WP-7). -/
def setStbyIdle (n : Nat) (v : Bool) (s : State) : State := shown n (fun s => s.wr .WP_STBY_IDLE (if v then 1 else 0) n) s

/-- TARGET_RATE takes a value: the clock of a DISABLED link with a lane in TEST follows it (R175); training does later (Table
WP-6). -/
def setTargetRate (n v : Nat) (s : State) : State := shown n (fun s => s.wr .WP_TARGET_RATE v n) s

/-- LOOPBACK_WRITE (R178): in DISABLED the value is accepted whether or not the domain is ON. -/
def execLoopbackWrite (fn : Fn) (wl : Wl) (v : Fin 4) (s : State) : Res :=
  .next (when (mgrWrites s fn && (phyOn s wl.val || s.rd .WP_STATE wl.val == 0)) (writeLoopback wl.val v.val) s)

/-! ### Test patterns and injection (R175 to R177) -/

/-- GEN and CHK of a physical lane take values: the lane's pattern follows, and a checker that is turned off, or set to another
pattern, is out of sync (R175, R176). -/
def setPrbs (n k gen chk : Nat) (s : State) : State :=
  shown n (fun s =>
    let s := when (s.rd .WP_CHK n k != chk) (fun s => (countPrbs n k s).wr .WP_PRBS_SYNC 0 n k) s
    settlePrbs n k ((s.wr .WP_GEN gen n k).wr .WP_CHK chk n k)) s

/-- LANE_PRBS_WRITE (R175): GEN and CHK of a physical lane. -/
def execLanePrbsWrite (fn : Fn) (wl : Wl) (lane gen chk : Fin 4) (s : State) : Res :=
  .next (when (wpWrites s fn wl.val) (setPrbs wl.val lane.val gen.val chk.val) s)

/-- PRBS_SYNC_GAIN (R176): 64 consecutive bits agree with the checker's pattern. -/
def execPrbsSyncGain (wl : Wl) (lane : Fin 4) (s : State) : Res :=
  let n := wl.val
  .next (when (s.rd .WP_LSTATE n lane.val == 5 && s.on .WP_CHK n lane.val) (fun s => s.wr .WP_PRBS_SYNC 1 n lane.val) s)

/-- PRBS_SYNC_LOSS (R176): 64 errors in 1,024 bits; `bits` and `errors` are what the checker has counted since the last tick
boundary, or since it came into sync. -/
def execPrbsSyncLoss (wl : Wl) (lane : Fin 4) (bits errors : Nat) (s : State) : Res :=
  let n := wl.val
  let k := lane.val
  .next (when (s.on .WP_PRBS_SYNC n k)
    (fun s => ((s.add .WP_LN_BITS_CNT bits n k).add .WP_LN_ERR_CNT errors n k).wr .WP_PRBS_SYNC 0 n k) s)

/-- CNT_CLR (R176): both counters of the checker are zeroed. -/
def execCntClr (fn : Fn) (wl : Wl) (lane : Fin 4) (s : State) : Res :=
  let n := wl.val
  .next (when (wpWrites s fn n) (fun s => (s.wr .WP_LN_ERR_CNT 0 n lane.val).wr .WP_LN_BITS_CNT 0 n lane.val) s)

/-- Bits of a single injection or burst, 0 in the other modes. -/
def injBits (s : State) (n k : Nat) : Nat :=
  match s.rd .WP_INJ_MODE n k with
  | 1 => 1
  | 2 => max 1 (s.rd .WP_BURST_LEN n k)
  | _ => 0

/-- Injection starts (R177), unless a single injection or burst is still pending.  With INJ_LIVE it waits for the next grain;
without, a single injection or burst acts at once. -/
def startInject (n k : Nat) (s : State) : State :=
  let m := injBits s n k
  if !injMay s n k || (s.wp n).injPend.getD k 0 != 0 then s
  else if s.rd .WP_INJ_MODE n k = 3 then
    s.modWp n (fun w => if w.injAcc.getD k 0 = 0 then { w with injAcc := w.injAcc.set k 1 } else w)
  else if m = 0 then s
  else if s.on .WP_INJ_LIVE n k then s.modWp n (fun w => { w with injPend := w.injPend.set k m })
  else s.add .WP_LN_INJ_CNT m n k

/-- INJ_GO (R177). -/
def execInjGo (fn : Fn) (wl : Wl) (lane : Fin 4) (s : State) : Res :=
  .next (when (wpWrites s fn wl.val) (startInject wl.val lane.val) s)

/-- A rate injection ends (R177). -/
def stopInject (n k : Nat) (s : State) : State :=
  (countInj n k s).modWp n (fun w => { w with injAcc := w.injAcc.set k 0 })

/-- INJ_MODE takes a value: a change ends a rate injection (R177). -/
def setInjMode (n k v : Nat) (s : State) : State :=
  if s.rd .WP_INJ_MODE n k = v then s else (stopInject n k s).wr .WP_INJ_MODE v n k

/-- INJ_STOP (R177). -/
def execInjStop (fn : Fn) (wl : Wl) (lane : Fin 4) (s : State) : Res :=
  .next (when (wpWrites s fn wl.val) (stopInject wl.val lane.val) s)

/-! ### Alignment blocks and the switch of a reshape (R167, R168, R211) -/

/-- A reshape agreed by LANE_ACK is in progress. -/
def agreed (s : State) (n : Nat) : Bool := (s.wl n).rsStage == 2

/-- Both directions have switched: lanes outside the set go to STANDBY and the reshape is over. -/
def reshapeOver (n : Nat) (s : State) : State :=
  let w := s.wl n
  if w.rsTxSwitched && w.rsRxSwitched then
    let set := w.rsSet
    let s := endReshape n s
    each [0, 1, 2, 3] (fun k s =>
      when (!set.testBit (logicalOf s n k) && [2, 4].contains (s.rd .WP_LSTATE n k)) (moveLane n k 3) s) s
  else s

/-- The bridge's receive direction uses the agreed set. -/
def switchRx (n : Nat) (s : State) : State :=
  let set := (s.wl n).rsSet
  let s := s.modWl n (fun w => { w with rsRxSwitched := true })
  let s := s.modWp n (fun w => { w with rxSet := set, badRun := [0, 0, 0, 0] })
  let s := (s.wr .WP_ACTIVE_MASK (physMask s n set) n).wr .WL_ACTIVE_SET set n
  let s := each [0, 1, 2, 3] (fun k s => when (set.testBit (logicalOf s n k)) (moveLane n k 2) s) s
  let s := (s.wr .WL_RESHAPE_DONE 1 n).inc .WL_RESHAPE_CNT n
  reshapeOver n (trace 2 n 0x0106 set s)

/-- The transmitter may switch at its next alignment block: it has sent or received LANE_ACK, and LANE_READY where lanes are
added (Table WL-10), and the packet that it sent last has ended (R211). -/
def maySwitchTx (s : State) (n : Nat) : Bool :=
  let w := s.wl n
  agreed s n && w.rsReadyRcvd && !w.rsTxSwitched && w.txHalf.isNone && !w.msgQ.any (fun m => m.head? == some 2)

/-- The transmit lanes that carry alignment blocks: those of the sets given, in background training, and in STANDBY while
they send (R167, R174, Table WP-7). -/
def alignLanes (s : State) (n sets : Nat) : List Nat :=
  (List.range 4).filter (fun k => sets.testBit k || decide (laneTx s n k = .background) || decide (laneTx s n k = .zeros))

/-- ALIGNMENT_BLOCK_SEND (R167, R211): every 16,384th grain slot.  A transmitter that may switch does so at this block, which it
sends on every lane of the old set and the new one, at the width of the old (DESIGN CHOICE, log entry 57).  The scramblers
begin again from their seeds (R166). -/
def execAlignmentBlockSend (wl : Wl) (s : State) : Res :=
  let n := wl.val
  .next (when (s.rd .WP_STATE n == 5) (fun s =>
    let s := flushHalf n s
    let old := (s.wp n).txSet
    let sw := maySwitchTx s n
    let set := if sw then (s.wl n).rsSet else old
    let w := (txLanes s n).length
    let s := emit (.align n ((alignLanes s n (old ||| set)).map (fun k => (k, alignBytes w k set (s.wp n).txAlign)))) s
    let s := s.modWp n (fun x => { x with txAlign := (x.txAlign + 1) % 65536, txSet := set, txSlot := 0 })
    when sw (fun s => reshapeOver n (s.modWl n (fun w => { w with rsTxSwitched := true }))) s) s)

/-- COUNT that an alignment block of a logical lane must show, none before the first. -/
def wantCount (s : State) (n l : Nat) : Option Nat :=
  let c := (s.wp n).rxAlign.getD l 65536
  if c = 65536 then none else some ((c + 1) % 65536)

/-- A lane's part of an alignment block is in place, but for its MASK (R168): SYNC, TYPE, CRC16, COUNT and LANE. -/
def blockFits (s : State) (n l : Nat) (b : Bytes) : Bool :=
  num b 0 1 == 0xBC && num b 1 1 == 0x0A && num b 6 2 == crc16 (sub b 0 6) && num b 2 1 % 4 == l &&
    (match wantCount s n l with | some c => num b 4 2 == c | none => true)

/-- The block received on a logical lane that is in place, if there is one (R168, R211). -/
def inPlace (s : State) (n l : Nat) (blocks : List (Fin 4 × Bytes)) : Option Bytes :=
  (blocks.find? (fun x => x.1.val == physOf s n l && blockFits s n l x.2 &&
    (num x.2 3 1 % 16 == (s.wp n).rxSet || (agreed s n && num x.2 3 1 % 16 == (s.wl n).rsSet)))).map (·.2)

/-- The alignment blocks of the active lanes are checked (R168).  The COUNT expected on a lane goes on from its last block in
place, one for each slot (DESIGN CHOICE, log entry 59). -/
def alignCheck (n : Nat) (blocks : List (Fin 4 × Bytes)) (s : State) : State :=
  let ls := (List.range 4).filter (fun l => (s.wp n).rxSet.testBit l)
  let got := ls.map (fun l => (l, inPlace s n l blocks))
  let sw := agreed s n && !(s.wl n).rsRxSwitched && got.all (fun g => g.2.any (fun b => num b 3 1 % 16 == (s.wl n).rsSet))
  let s := s.add .WP_ALIGN_CNT (got.filter (fun g => g.2.isNone)).length n
  let count (l : Nat) : Nat := match got.find? (fun g => g.1 == l) with
    | some (_, some b) => num b 4 2
    | _ => (wantCount s n l).getD 65536
  let s := s.modWp n (fun w => { w with
    badRun := (List.range 4).map (fun l => if got.contains (l, none) then w.badRun.getD l 0 + 1 else 0)
    rxAlign := (List.range 4).map count })
  if sw then switchRx n s
  else if (s.wp n).badRun.any (fun k => decide (3 ≤ k)) then
    let s := s.modWp n (fun w => { w with badRun := [0, 0, 0, 0] })
    enterRetrain n (laneFault n (s.wr .WP_ALIGN_ERR 1 n))
  else s

/-- ALIGNMENT_BLOCK_RECEIVE (R168): the bytes received at an alignment slot, by physical lane. -/
def execAlignmentBlockReceive (wl : Wl) (blocks : List (Fin 4 × Bytes)) (s : State) : Res :=
  .next (when (s.rd .WP_STATE wl.val == 5) (alignCheck wl.val blocks) s)

/-! ### Background training (R174, R211) -/

/-- BACKGROUND_TRAIN_PASS (R174).  A lane that passes waits in BACKGROUND; LANE_READY is
sent once every added lane has passed. -/
def execBackgroundTrainPass (wl : Wl) (run : BackgroundRun) (s : State) : Res :=
  let n := wl.val
  .next (when (s.rd .WP_LSTATE n run.lane.val == 4 && decide (run.errors ≤ s.rd .WP_BG_ERR_MAX n) &&
      decide (run.skew ≤ 32)) (fun s =>
    let s := s.modWp n (fun w => { w with bgPassed := setBit w.bgPassed run.lane.val })
    let all := [0, 1, 2, 3].all (fun k => s.rd .WP_LSTATE n k != 4 || (s.wp n).bgPassed.testBit k)
    when (all && agreed s n && !(s.wl n).rsReadySent)
      (fun s => sendLinkMsg n 4 (s.wl n).rsId 0 0 (s.modWl n (fun w => { w with rsReadySent := true }))) s) s)

/-- BACKGROUND_TRAIN_FAIL (R174): the lane has not passed within 2 ms. -/
def execBackgroundTrainFail (wl : Wl) (lane : Fin 4) (s : State) : Res :=
  let n := wl.val
  .next (when (s.rd .WP_LSTATE n lane.val == 4) (fun s =>
    let s := (moveLane n lane.val 6 s).wr .WP_BG_FAIL 1 n
    when (agreed s n) (fun s => failReshape n 5 (sendNak n (s.wl n).rsId 5 s)) s) s)

end Sys2Proof.Machine
end

