-- ==== Sys2Proof/Machine/Clocks.lean ====
section
/-!
DEFINITION. Clock sources, selectors, the clock monitor and the clock instruments (chapter 16), and the state of a power
domain as the registers show it.
-/
namespace Sys2Proof.Machine

/-! ### Domains and PLLs (R397, R398, R404, R410) -/

/-- A PLL that is not enabled is not READY. -/
def showPlls (s : State) : State :=
  each ([4, 5] ++ List.range' 16 16) (fun k s => when (ckReady s k && !pllEnabled s k) (setReady k false) s) s

/-- A domain enters a state of Table PW-2.  A PF loses readiness as its PD_TL or
PD_HPHY is reset, from the removal of power or the start of a tiller reset on, and keeps it through RET and HELD (R426; DEDUCED,
log entry 100). -/
def setPd (d st : Nat) (s : State) : State :=
  if s.rd .PW_STATE 0 d = st then s
  else
    let resets := st == 0 || (st == 3 && s.rd .PW_STATE 0 d != 1)
    let s := (s.wr .PW_STATE st 0 d).wr .PW_ON_MAP (putBit (s.rd .PW_ON_MAP) d (st == 2))
    let s := s.wr .CK_HELD (putBit (s.rd .CK_HELD) d (st == 4))
    let s := showObs (showPlls (trace 7 d 0x0B01 st s))
    let s := when (resets && decide (2 ≤ d) && decide (d < 18))
      (each ((List.range 4).map (4 * ((d - 2) % 8) + ·)) (fun h s => s.clrB h .PW_FN_READY)) s
    when (decide (10 ≤ d) && decide (d < 18)) (showClkreqs (d - 10)) s

/-- A domain that is ON is held by a trip (R404): CLOCK line 16 names it. -/
def holdDomain (d : Nat) (s : State) : State :=
  when (s.rd .PW_STATE 0 d == 2) (fun s => ward 11 16 (mDom d) 0 0 ((setPd d 4 s).wr .CK_PLL_TRIP 1)) s

/-! ### Selectors (R397, R400, R401) -/

/-- The source of a selector, by CKID (Table CK-2). -/
def selSource (s : State) (sel : Nat) : Nat :=
  if sel = 0 then s.rd .CK_AON_SRC
  else if sel = 1 then s.rd .CK_REF_SRC
  else if sel = 2 then (if s.on .CK_KEEP_SRC then 2 else 5)
  else (if s.on .CK_CORE_SRC then 2 else 4)

/-- The sources a selector allows. -/
def selAllows (sel k : Nat) : Bool :=
  match sel with
  | 0 => k == 0 || k == 1 || k == 2
  | 1 => k == 0 || k == 1
  | 2 => k == 5 || k == 2
  | 3 => k == 4 || k == 2
  | _ => false

/-- The source a selector will have once the automatic switches in progress are done: a CLOCK_SWITCH is checked against
that ("When events coincide"). -/
def selNext (s : State) (sel : Nat) : Nat :=
  match (s.clocks.switching.filter (fun e => e.1 == sel && e.2.2)).getLast? with
  | some e => e.2.1
  | none => selSource s sel

/-- Show whether a switch is in progress. -/
def showSwBusy (s : State) : State := s.wr .CK_SW_BUSY (if s.clocks.switching.isEmpty then 0 else 1)

/-- A switch begins; `auto` for one of Table CK-3. -/
def startSwitch (sel k : Nat) (auto : Bool) (s : State) : State :=
  showSwBusy (s.modClocks (fun c => { c with switching := c.switching ++ [(sel, k, auto)] }))

/-- Point a selector at a source. -/
def putSource (sel k : Nat) (s : State) : State :=
  showDerived (
    if sel = 0 then (s.wr .CK_AON_SRC k).wr .CAD_CLK_FRO (if k = 2 then 1 else 0)
    else if sel = 1 then s.wr .CK_REF_SRC k
    else if sel = 2 then s.wr .CK_KEEP_SRC (if k = 2 then 1 else 0)
    else s.wr .CK_CORE_SRC (if k = 2 then 1 else 0))

/-- What an automatic switch sets in CK_EVENTS once it is done. -/
def fallbackFlag (sel k : Nat) : Option Fld :=
  if sel = 0 && k = 2 then some .CK_AON_FALLBACK
  else if sel = 1 then some .CK_REF_FAILOVER
  else if sel = 2 && k = 2 then some .CK_KEEP_FALLBACK
  else none

/-- A blamed FRO restarts once AON and KEEP have left it (R403, "When events coincide"); with no other source READY for AON it does
not, and AON stays on it. -/
def leaveFro (s : State) : State :=
  let moves (sel : Nat) : Bool := s.clocks.switching.any (fun e => e.1 == sel)
  if !s.clocks.froDue || moves 0 || (s.on .CK_KEEP_SRC && moves 2) then s
  else if s.rd .CK_AON_SRC = 2 then
    match [0, 1].find? (ckReady s) with
    | some k => startSwitch 0 k true s
    | none => s.modClocks (fun c => { c with froDue := false })
  else (s.wr .CK_FRO_RESTART 1).modClocks (fun c => { c with froDue := false, froRestarting := true })

/-- A selector reaches its new source (R401); a forced switch is an event of CLOCK line 0 that names the old one. -/
def reachSource (sel k : Nat) (auto forced : Bool) (s : State) : State :=
  let old := selSource s sel
  let s := s.modClocks (fun c => { c with switching := c.switching.erase (sel, k, auto) })
  let s := trace 9 k 0x0B02 (sel + if forced then 256 else 0) (putSource sel k (showSwBusy s))
  let s := when auto (fun s => withSome (fallbackFlag sel k) (fun f s => s.wr f 1) s) s
  let s := when forced (fun s => ward 11 0 (mCk old) 0 0 ((s.wr .CK_SW_FORCED 1).inc .CK_FORCED_CNT)) s
  leaveFro (when (!auto) (finishWaiting 0x0610 sel 0 []) s)

/-- The first switch in progress of a selector completes. -/
def endSwitch (sel : Nat) (forced : Bool) (s : State) : State :=
  match s.clocks.switching.find? (fun e => e.1 == sel) with
  | some e => reachSource sel e.2.1 e.2.2 forced s
  | none => s

/-- CLOCK_SWITCH (R400): it replies once the switch has completed. -/
def execClockSwitch (r : CmdReq) (selector source : Nat) (s : State) : Res :=
  .next (runCmd
    { op := 0x0610, lenOk := r.plen == 8, priv := fun s => hasMgr s r.iss
      params := fun _ => selAllows selector source
      own := fun s => firstFail [
        (!ckReady s source, 3),
        (selector == 3 && source == 2 && (List.range' 10 16).any (fun d => s.domOn d), 9)]
      key := some selector
      act := fun s =>
        if selNext s selector = source then finish r 0x0610 0 [] s
        else waitOn r 0x0610 selector (startSwitch selector source false s) } r s)

/-! ### Becoming READY (R398, R399) -/

/-- The selectors that the ROM moves off the FRO's and the XO's default when a source is READY (R399 step 2). -/
def bootClocks (s : State) : State :=
  let k := if ckReady s 1 then 1 else 0
  let s := when (selNext s 0 != k) (startSwitch 0 k false) s
  when (selNext s 1 != k) (startSwitch 1 k false) s

/-- A step of a wake has its clock: the domain's clock source is READY (R398, R415). -/
def clockFor (s : State) (d : Nat) : Bool :=
  if d = 0 then ckReady s 7
  else if d < 10 then ckReady s 6
  else if d < 18 then ckReady s (16 + (d - 10))
  else ckReady s (24 + (d - 18))

/-! ### The monitor (R402, R403) -/

/-- Each trip (R402). -/
def tripped (k : Nat) (s : State) : State :=
  trace 9 k 0x0B03 0 ((setReady k false (s.setB k .CK_TRIPPED)).inc .CK_TRIP_CNT)

/-- A CLOCK_SWITCH that moves to a source which trips is abandoned. -/
def abandonSwitches (k : Nat) (s : State) : State :=
  let es := s.clocks.switching.filter (fun e => e.2.1 == k)
  let s := s.modClocks (fun c => { c with switching := c.switching.filter (fun e => e.2.1 != k) })
  each es (fun e s => when (!e.2.2) (finishWaiting 0x0610 e.1 3 []) s) (showSwBusy s)

/-- The switches in progress of the selectors on a source that trips complete as forced; the selectors that none is in
progress of are given. -/
def forceOff (k : Nat) (s : State) : List Nat × State :=
  let on := [0, 1, 2, 3].filter (fun sel => selSource s sel == k)
  let moving := on.filter (fun sel => s.clocks.switching.any (fun e => e.1 == sel))
  (on.filter (fun sel => !moving.contains sel), each moving (fun sel => endSwitch sel true) s)

/-- A register frequency count ends when XO leaves READY (R406). -/
def abortCount (s : State) : State := when (s.on .CK_BUSY) (fun s => (s.wr .CK_BUSY 0).wr .CK_ABORTED 1) s

/-- XO or EXTCLK_IN trips.  While the FRO is not READY and AON runs on it, R381 applies. -/
def tripSource (k : Nat) (s : State) : State :=
  let async := s.rd .CK_AON_SRC == k && !ckReady s 2
  let s := when (k == 0) abortCount (abandonSwitches k (tripped k s))
  let (sels, s) := forceOff k s
  let s := when (sels.contains 0 && ckReady s 2) (startSwitch 0 2 true) s
  let s := when (sels.contains 1 && ckReady s (1 - k)) (startSwitch 1 (1 - k) true) s
  let s := leaveFro s
  if async && sels.contains 0 then
    pullFaultN ((showObs (s.modClocks (fun c => { c with asyncTrip := some k }))).wr .WD_ASYNC 1)
  else ward 11 1 (mCk k) 0 0 s

/-- The FRO is blamed (R403): AON and KEEP leave it where they can, and it restarts unless AON stays on it. -/
def tripFro (s : State) : State :=
  let s := abandonSwitches 2 (tripped 2 s)
  let (sels, s) := forceOff 2 s
  let s := when (sels.contains 2 && ckReady s 5) (startSwitch 2 5 true) s
  leaveFro ((ward 11 2 (mCk 2) 0 0 s).modClocks (fun c => { c with froDue := true }))

/-- CLOCK line 16 for a domain that is ON and loses its clock (Table CK-3). -/
def lostClock (d : Nat) (s : State) : State := when (s.domOn d) (fun s => ward 11 16 (mDom d) 0 0 s) s

/-- A PLL trips: the domains it clocks are gated and held (R404); the Keeper goes on from the FRO, restarted.  A selector that was
leaving the PLL completes as forced, and no fallback is applied to it: its domains go on, and are named on line 16 alone.  A trip of
the CORE or KEEP PLL that the selector does not use holds nothing; that of the KEEP PLL names PD_KEEP all the same (DEDUCED, log
entry 77). -/
def tripPll (k : Nat) (s : State) : State :=
  let s := leaveFro (abandonSwitches k (tripped k s))
  if k = 4 then
    let core := dHub :: (List.range 8).map dTl
    let moves := s.clocks.switching.any (fun e => e.1 == 3)
    let used := selSource s 3 == 4
    let s := (forceOff 4 s).2
    when used (each core (if moves then lostClock else holdDomain)) s
  else if k = 5 then
    let used := selSource s 2 == 5
    let (sels, s) := forceOff 5 s
    let s := lostClock dKeep (when (sels.contains 2) (startSwitch 2 2 true) s)
    when (used && s.domOn dKeep && s.rd .KP_KSTATE != 0) (enterRestart 5) s
  else if k < 24 then
    let p := k - 16
    let was := s.domOn (dHphy p)
    let s := holdDomain (dHphy p) s
    when was (fun s => each ((List.range 4).map (4 * p + ·)) (fun h s =>
      when (hlLive s h && s.rd .HL_LTSSM h != 10) (linkDown h 10 4) s) s) s
  else
    let t := k - 24
    let was := s
    let s := holdDomain (dWphy t) s
    when (was.domOn (dWphy t)) (fun s => each ((List.range 12).map (12 * t + ·)) (fun n s => showTx n was (goDisabled n s)) s) s

/-! ### Instruments (R405 to R407) -/

/-- FREQ_COUNT_START (R406): ignored while a count runs; without XO it ends at once. -/
def execFreqCountStart (fn : Fn) (ckid : Fin 256) (s : State) : Res :=
  .next (when (mgrWrites s fn) (fun s =>
    let s := s.wr .CK_FC_CKID ckid.val
    if s.on .CK_BUSY then s
    else if ckReady s 0 then
      (s.wr .CK_BUSY 1).modClocks (fun c => { c with fcRan := clockRuns s ckid.val })
    else s.wr .CK_ABORTED 1) s)

/-- FREQ_COUNT_END (R396, R406): the gate has passed; `edges` are those of the clock itself, from the fixed divider's last edge on.
A clock that has been stopped throughout counts 0. -/
def execFreqCountEnd (edges : Nat) (s : State) : Res :=
  let n := if s.clocks.fcRan then edges / ckFixed (s.rd .CK_FC_CKID) % 2 ^ 48 else 0
  .next (when (s.on .CK_BUSY) (fun s => ((s.wr .CK_FC_COUNT n).wr .CK_BUSY 0).wr .CK_DONE 1) s)

/-- CLKOBS after a change of its setting (R405): low for a period, then the clock divided. -/
def driveClkobs (s : State) : State := showObs ((emit (.pin .clkobs false) s).modClocks (fun c => { c with obsOn := false }))

/-- CLKOBS_WRITE (R405). -/
def execClkobsWrite (fn : Fn) (sel : Fin 256) (div : Fin 8192) (s : State) : Res :=
  .next (when (mgrWrites s fn) (fun s => driveClkobs ((s.wr .CK_SEL sel.val).wr .CK_DIV div.val)) s)

/-- CLOCK_MEASURE (R396, R407): `count` is how many edges the clock itself has over the gate, from the fixed divider's last edge
on. -/
def execClockMeasure (r : CmdReq) (ckid gate count : Nat) (s : State) : Res :=
  .next (runCmd
    { op := 0x0611, lenOk := r.plen == 8, priv := fun _ => isPfOrSmp r.iss
      params := fun _ => decide (ckid < 32) && decide (25 ≤ gate) && decide (gate ≤ 37500)
      own := fun s => if ckReady s 0 && ckReady s ckid then 0 else 3
      act := finish r 0x0611 0 (le 8 (count / ckFixed ckid)) } r s)

end Sys2Proof.Machine
end

