-- ==== Sys2Proof/Machine/Power.lean ====
section
/-!
DEFINITION. Power domains (chapter 17): what lies in each domain, requests pending, retention and the LOST mark, pad hold,
the wake steps, PD_SET, PAD_RELEASE, BANK_TEST, and the tiller and datapath resets.
-/
namespace Sys2Proof.Machine

/-! ### Tables PW-1 and PW-7 -/

/-- A PHY domain has pads. -/
def hasPads (d : Nat) : Bool := decide (10 ≤ d) && decide (d < 26)

/-- The tiller of a domain other than PD_KEEP and PD_HUB. -/
def domTiller (d : Nat) : Nat := (d - 2) % 8

/-- The domain that must be ON for another to be ON (R411). -/
def parentOf (d : Nat) : Option Nat := if d < 2 then none else if d < 10 then some dHub else some (dTl (domTiller d))

/-- The domains that need a domain ON (R411). -/
def depsOf (d : Nat) : List Nat :=
  if d = dHub then (List.range 8).map dTl
  else if 2 ≤ d && d < 10 then [dHphy (d - 2), dWphy (d - 2)]
  else []

/-- The SRAM banks of a domain. -/
def banksOf (d : Nat) : List Nat :=
  if d = dKeep then [44, 45, 46, 47]
  else if d = dHub then List.range' 24 20
  else if d < 10 then [3 * (d - 2), 3 * (d - 2) + 1, 3 * (d - 2) + 2]
  else []

/-- The domain of a bank. -/
def bankDom (b : Nat) : Nat := if b < 24 then dTl (b / 3) else if b < 44 then dHub else dKeep

/-- The Ward group of a bank (R417). -/
def bankGroup (b : Nat) : Nat := if b < 24 then b / 3 else if b < 44 then 8 else 9

/-- The Host and Weaseif links of a tiller. -/
def tlHls (t : Nat) : List Nat := (List.range 4).map (4 * t + ·)
/-- The Weaseif links of a tiller. -/
def tlWls (t : Nat) : List Nat := (List.range 12).map (12 * t + ·)

/-- The domain that a register lies in; none in PD_AON and in configuration space, which the Keeper serves. -/
def keyDomain (k : RegKey) : Option Nat :=
  match k.f.info.blk with
  | .devinfo | .ward | .cadence | .clock | .power | .dvsec => none
  | .keeper => some dKeep
  | .hub | .tenant | .trace => some dHub
  | .hostlink => some (dTl (k.i / 4))
  | .weaseif => some (dTl (k.i / 12))
  | .tiller => some (dTl k.i)
  | .outwin => some (dTl (k.i / 256))
  | .inwin | .intwin | .channel => some (dTl (k.i / 128))
  | .sheaf => some (dTl (k.i / 32))
  | .fnirq | .cmdring => some (dTl (k.i / 2048))
  | .wlane => some (dWphy (k.i / 12))
  | .counters =>
    let o := k.f.info.off
    if o < 0x2000 then some (dTl (k.i / 12))
    else if o < 0x3000 then some (dTl (k.i / 4))
    else if o < 0x3400 then some (dTl k.i)
    else if o < 0x4000 then none
    else if o < 0x8000 then some (dTl (k.i / 256))
    else if o < 0x20000 then some (dTl (k.i / 32))
    else some dHub

/-- What the Keeper rewrites from its records after a reset of PD_TL, or keeps there itself: window, sheaf and interrupt
entries, allotted channels and vectors (R431 step 5). -/
def keptInReset (f : Fld) : Bool :=
  match f.info.blk with
  | .outwin | .inwin | .intwin => true
  | .sheaf => !([.SH_LAGGING, .SH_EXCUSED, .SH_WAITING, .SH_SD_LAG] : List Fld).contains f
  | .channel => ([.CH_LOCAL, .CH_TNID, .CH_ALLOTTED] : List Fld).contains f
  | .fnirq => f == .FI_VEC_COUNT
  | _ => false

/-! ### Requests pending (Table PW-3) -/

/-- The tiller that a host request comes from; none for those of the Keeper, the Hub and the function itself. -/
def srcTiller : HSrc → Option Nat
  | .window wl _ _ _ _ _ _ => some (wlTiller (wl % 96))
  | .sheafCopy _ _ wl _ => some (wlTiller (wl % 96))
  | .gap _ _ wl _ => some (wlTiller (wl % 96))
  | .sheafFlush _ wl _ _ => some (wlTiller (wl % 96))
  | .intr wl _ _ _ => some (wlTiller (wl % 96))
  | x => x.chan.map chTiller

/-- The tiller that a packet toward a local design comes from. -/
def pktTiller (s : State) : WSrc → Option Nat
  | .hostWrite f _ | .hostRead f _ _ => some (hlTiller (fnHl f))
  | x => x.chan.map chTiller

/-- Host requests that wait or are outstanding, those held by a freeze or quarantined apart. -/
def liveReqs (s : State) : List HReq := s.hostQ.filter (fun r => !r.frozen) ++ (s.tags.filter (fun t => !t.quarantined)).map (·.req)

/-- A request of another tiller is in flight into tiller `t`. -/
def intoTiller (s : State) (t : Nat) : Bool :=
  let other (o : Option Nat) : Bool := o.isSome && o != some t
  (liveReqs s).any (fun r => hlTiller r.fn.hl.val == t && other (srcTiller r.src)) ||
    s.wls.any (fun e => wlTiller e.1 == t &&
      (e.2.linkQ.any (fun p => other (pktTiller s p.src)) ||
        e.2.wlTags.any (fun x => !x.quarantined && other (pktTiller s x.src))))

/-- A request crosses the Hub: from one tiller to another, or between the Keeper or the trace and a tiller. -/
def crossesHub (s : State) : Bool :=
  (List.range 8).any (intoTiller s) ||
    (liveReqs s).any (fun r => match r.src with
      | .cmdHeader _ | .cmdParams _ _ | .reply _ | .stream _ => true
      | _ => false)

/-- A freeze or a harvest of tenant `n` is scheduled or in progress. -/
def tnMoving (s : State) (n : Nat) : Bool :=
  s.on .TN_FREEZE_SET n || (s.tnState n == 3 && !(s.ten n).quiesced) || (s.log n).any (fun l => l.harvest.isSome) ||
    s.keeper.sched.any (fun e => e.req.target == n && (e.cmd.op == 0x0502 || e.cmd.op == 0x0503))

/-- Requests are pending in a domain (Table PW-3); `own` picks the context of the PD_SET that asks. -/
def pendingDom (s : State) (own : Ctx → Bool) (d : Nat) : Bool :=
  let t := domTiller d
  if d = dKeep then s.keeper.ctxs.any (fun c => !own c) || s.upd.state == 1
  else if d = dHub then crossesHub s
  else if d < 10 then
    (List.range 128).any (fun k =>
      let c := 128 * t + k
      [2, 3, 5].contains (s.rd .CH_STATE c) || (s.rd .CH_STATE c == 4 && s.on .CH_DRAINING c)) ||
    (List.range 4).any (fun j => s.on .TI_OUTSTANDING t j) ||
    (tlWls t).any (fun n => s.rd .WL_LSTATE n == 4) ||
    s.sheafPkts.any (fun p => p.sheaf / 32 == t) ||
    (heldTns s).any (fun n => homeTiller s n == t && (s.tnState n == 2 || s.tnState n == 5 || tnMoving s n)) ||
    intoTiller s t
  else if d < 18 then (tlHls t).any (fun h => s.present h && s.rd .HL_LTSSM h != 6 && s.rd .HL_LTSSM h != 10)
  else (tlWls t).any (fun n =>
    (s.rd .WL_LSTATE n != 0 && s.rd .WL_LSTATE n != 5) || s.rd .WP_STATE n == 7 ||
      (List.range 4).any (fun k => s.rd .WP_LSTATE n k == 5))

/-! ### Banks (R417, Table AR-6) -/

/-- A request nobody waits for any longer: its completion is dropped when it comes (Table PW-8). -/
def forsake (p : HReq → Bool) (s : State) : State :=
  s.mapTags (fun x => if p x.req then { x with dropped := true, req := { x.req with src := .reply false } } else x)

/-- Every round of a tenant's log, the running one and one being harvested, is marked ALL_DIRTY. -/
def allRoundsDirty (n : Nat) (s : State) : State :=
  s.modLog n (fun l => { l with allDirty := true, harvest := l.harvest.map (fun h => { h with allDirty := true }) })

/-- The dirty lines of tiller `t` are lost, with the bitmap accesses of the tenants homed in it, whose rounds are all marked
ALL_DIRTY (R299, R432, Table AR-6). -/
def loseLines (t : Nat) (s : State) : State :=
  let s := each (linesOf s t) (fun d => roundDirty d.tn d.bitmap) s
  let homed := (s.logs.map (·.1)).filter (fun n => homeTiller s n == t)
  let line (r : HReq) : Bool := match r.src with
    | .logRead n _ => homed.contains n
    | .logWrite n _ => homed.contains n
    | _ => false
  let s := forsake line (s.filterHostQ (fun r => !line r))
  let s : State := { s with dirty := s.dirty.filter (fun d => d.tiller != t) }
  each homed (fun n s => logSettle n (allRoundsDirty n s)) s

/-- The records of the ring that a trace bank holds read as zeros: SB40 + k holds places 16,384 k to 16,384 k + 16,383 of its 65,536
(DESIGN CHOICE, log entry 55). -/
def loseRecords (b : Nat) (s : State) : State :=
  s.modTrace (fun t => { t with ring := t.ring.map (fun e => if e.1 % 65536 / 16384 + 40 = b then (e.1, ⟨0, 0, 0, 0⟩) else e) })

/-- The receive buffers of tiller `t` hold zeros (R22): the packets in them, held sheaf packets among them, are not acted on. -/
def loseReceived (t : Nat) (s : State) : State :=
  let its (n : Nat) : Bool := wlTiller (n % 96) == t
  let lost (r : HReq) : Bool :=
    match r.src with
    | .window wl _ _ _ _ _ _ => its wl
    | .sheafCopy _ _ wl _ => its wl
    | .intr wl _ _ _ => its wl
    | _ => false
  let held := s.sheafPkts.filter (fun p => its p.wl)
  let s := s.filterHostQ (fun r => !lost r)
  let s : State := { s with sheafPkts := s.sheafPkts.filter (fun p => !its p.wl) }
  let s := each (held.map (·.sheaf)).dedup showSheaf s
  s.mapWls (fun n w => if wlTiller n = t then { w with rxQ := [], rxAsm := none } else w)

/-- What a bank found LOST on a wake from RET brings (Table AR-6, R22).  A trace bank stops the ring by its mark, and a Keeper
bank restarts the Keeper at the end of the wake. -/
def bankEffect (b : Nat) (s : State) : State :=
  if b < 24 then
    let t := b / 3
    if b % 3 = 0 then (setMode .TI_LOST true t s).wr .TI_CB_READY 0 t
    else if b % 3 = 1 then each (tlWls t) linkReset (loseReceived t s)
    else
      let s := each ((List.range 128).map (128 * t + ·)) dropAhead s
      showBlocked t ((loseLines t s).wr .TI_SPARE_READY 0 t)
  else if b < 40 then each ((List.range 16).map (16 * (b - 24) + ·)) breakTn s
  else if b < 44 then loseRecords b s
  else s

/-- A bank is marked LOST (R417); the failing offset is open. -/
def loseBank (b : Nat) (s : State) : State :=
  draw ((setBankLost b true s).inc .PW_LOST_CNT) (fun a s => ward (bankGroup b) 17 (mBank b) 11 a s)

/-- The trace ring restarts empty with a RING_LOST record (R467). -/
def restartRing (s : State) : State :=
  let s := (s.modTrace (fun t => { t with ring := [], restart := s.rd .TR_NEXT, hubResumed := false })).wr .TR_OLDEST (s.rd .TR_NEXT)
  ringNote 0x0001 0 (s.wr .TR_STOPPED 0)

/-- What ends when a bank of a running domain passes its test (R358, Tables AR-6 and RQ-3). -/
def bankPasses (b : Nat) (s : State) : State :=
  let s := setBankLost b false s
  if b < 24 then
    let t := b / 3
    if b % 3 = 0 then (setMode .TI_BRINGUP false t (setMode .TI_LOST false t s)).wr .TI_CB_READY 1 t
    else if b % 3 = 1 then each (tlWls t) leaveDisabled s
    else showBlocked t (s.wr .TI_SPARE_READY 1 t)
  else if 40 ≤ b then when (!traceLost s) restartRing s
  else s

/-! ### Pads (R419, R420) -/

/-- Show whether a domain's pads are latched. -/
def showPads (d : Nat) (held : Bool) (s : State) : State :=
  (s.wr .PW_PAD_HOLD (if held then 1 else 0) 0 d).wr .PW_PAD_HOLD_MAP (putBit (s.rd .PW_PAD_HOLD_MAP) d held)

/-- A PHY domain's pads are latched: its lanes go to electrical idle, and its links are kept from training (R64, R419). -/
def holdPads (d : Nat) (s : State) : State :=
  if !hasPads d then s
  else
    let was := s
    let s := showPads d true s
    if d < 18 then
      showClkreqs (d - 10) (each (tlHls (d - 10)) (fun h s => when (s.rd .HL_LTSSM h != 10) (endRun h 10) s) s)
    else each (tlWls (d - 18)) (fun n s => showTx n was (goDisabled n s)) s

/-- A PHY domain's pads are released: its links follow R64, or leave DISABLED. -/
def releasePads (d : Nat) (s : State) : State :=
  if !hasPads d || !s.on .PW_PAD_HOLD 0 d then s
  else
    let was := s
    let s := showPads d false s
    if d < 18 then showClkreqs (d - 10) s else each (tlWls (d - 18)) (fun n s => leaveDisabled n (showTx n was s)) s

/-! ### What a reset of a tiller does (R431, R432) -/

/-- A host read has packets waiting or outstanding on a link of another tiller than `t`, whose answers are counted when they come
(R63). -/
def awaited (s : State) (t : Nat) (q : InRd) : Bool :=
  let its (x : WSrc) : Bool := match x with | .hostRead _ rd _ => rd == q.id | _ => false
  s.wls.any (fun e => wlTiller e.1 != t && (e.2.linkQ.any (fun p => its p.src) || e.2.wlTags.any (fun x => its x.src)))

/-- Tiller `t` issues nothing further, and holds nothing (R431 step 1, R432): what its hosts, links and channels have in
flight anywhere, and the dirty lines of the tenants homed in it. -/
def cutTiller (t : Nat) (s : State) : State :=
  let inT (r : HReq) : Bool := hlTiller r.fn.hl.val == t
  let fromT (r : HReq) : Bool := srcTiller r.src == some t
  let s := each (s.tags.filter (fun x => inT x.req)) releaseTag s
  let s := forsake fromT (s.filterHostQ (fun r => !(inT r || fromT r)))
  let s : State := { s with
    locReqs := s.locReqs.filter (fun q => wlTiller q.wl != t)
    inRds := s.inRds.filter (fun q => hlTiller q.req.fn.hl.val != t || awaited s t q)
    sheafPkts := s.sheafPkts.filter (fun p => p.sheaf / 32 != t)
    sheafAcc := s.sheafAcc.filter (fun a => a.sheaf / 32 != t) }
  let mine (x : WSrc) : Bool := x.chan.map chTiller == some t
  let s := s.mapWls (fun n w =>
    if wlTiller n = t then { WlS.reset with linkId := w.linkId, rsNextId := w.rsNextId }
    else { w with
      linkQ := w.linkQ.filter (fun p => !mine p.src)
      wlTags := w.wlTags.map (fun x => if mine x.src then { x with quarantined := true } else x) })
  loseLines t s

/-- The channels of other tillers that have a request waiting or outstanding on a link of the tillers in `tls`. -/
def foreignChans (tls : List Nat) (s : State) : List Nat :=
  (((liveReqs s).filter (fun r => tls.contains (hlTiller r.fn.hl.val))).filterMap (·.src.chan)).dedup.filter
    (fun c => !tls.contains (chTiller c))

/-- The Hub closes the ports of the tillers in `tls`, and their host links go down (R431 steps 1 and 2).  What local designs
ask of them is answered TARGET_RESET, and a channel of another tiller halts with TARGET_RESET (Tables AR-8 and PW-8), which
the HALT_MASTER of its tenant's reset does not replace (DEDUCED, log entry 45). -/
def closePorts (tls : List Nat) (s : State) : State :=
  let cs := foreignChans tls s
  let asked (r : HReq) : Bool := tls.contains (hlTiller r.fn.hl.val) &&
    (match r.src with | .window _ _ _ _ _ _ _ | .sheafFlush _ _ _ _ => true | _ => false)
  let s := discardWaiting asked 6 s
  let s := each (s.tags.filter (fun x => asked x.req && !x.quarantined && !x.dropped)) (fun x => failSrc x.req 6) s
  let s := each cs (fun c => haltChannel c 0x0A noReq) s
  let s := each (tls.flatMap tlHls |>.filter (fun h => s.present h)) (fun h => linkDown h 10 6) s
  each cs (fun c s => when (s.rd .CH_STATE c == 4) (fun s => s.wr .CH_CODE 0x0A c) s) s

/-- Host links go down and Weaseif links are reset (R431 steps 1 to 3). -/
def downTiller (t : Nat) (s : State) : State := cutTiller t (each (tlWls t) linkReset (closePorts [t] s))

/-- Quarantined tags of a tiller's links are discarded with its domain; completions that later come for them are stale (R412). -/
def dropQuarantine (t : Nat) (s : State) : State :=
  each (s.tags.filter (fun x => x.quarantined && hlTiller x.req.fn.hl.val == t))
    (fun x s => (releaseTag x s).modHl x.req.fn.hl.val (fun l => { l with stale := l.stale ++ [x] })) s

/-! ### Values loaded at a reset (R44, R349, R355, Table PW-7) -/

/-- The register of a SELECT bit of WLINK_CONFIG (Table KP-7); LRSP_TO has none. -/
def wlCfgFld : Nat → Option Fld
  | 0 => some .WP_TARGET_RATE
  | 1 => some .WP_MIN_WIDTH
  | 2 => some .WP_LANE_EN
  | 3 => some .WP_DISABLE
  | 4 => some .WP_PEER
  | 5 => some .WL_REPLAY_LIMIT
  | 6 => some .WL_REPLAY_TO
  | 7 => some .WL_GRACE
  | 8 => some .WL_ERR_LIMIT
  | 9 => some .WL_ERR_WINDOW
  | 11 => some .WL_RESHAPE_TO
  | _ => none

/-- Give a field of WLINK_CONFIG a value. -/
def putWlCfg (n bit v : Nat) (s : State) : State :=
  match wlCfgFld bit with
  | some f => s.wr f v n
  | none => s.modWl n (fun w => { w with lrspTo := v })

/-- The stored link configuration of one domain of a tiller is loaded: the WLANE fields, or those of PD_TL. -/
def loadWlCfg (lanes : Bool) (t : Nat) (s : State) : State :=
  each (s.store.wlink.filter (fun e => wlTiller e.1 == t && (decide (e.2.1 < 5) == lanes))) (fun e => putWlCfg e.1 e.2.1 e.2.2) s

/-- A PD_WPHY domain returns to reset values. -/
def wphyClear (t : Nat) (s : State) : State :=
  let s := s.resetRegs (fun k => keyDomain k == some (dWphy t))
  { s with wps := s.wps.filter (fun e => wlTiller e.1 != t) }

/-- A PD_WPHY domain begins again from reset values, with the stored link configuration. -/
def wphyFresh (t : Nat) (s : State) : State := loadWlCfg true t (wphyClear t s)

/-- A PD_TL domain returns to reset values, but for what the Keeper keeps; its banks' marks give the modes of its host
reads (R145, R147), and a fatal reaction in force holds its links HALTED (R377). -/
def tlFresh (t : Nat) (s : State) : State :=
  let s := s.resetRegs (fun k => keyDomain k == some (dTl t) && !keptInReset k.f)
  let s : State := { s with
    cfg := s.cfg.filter (fun e => e.1 / 2048 != t)
    vecs := s.vecs.filter (fun e => e.1 / 128 / 2048 != t)
    chans := s.chans.filter (fun e => chTiller e.1 != t)
    dests := s.dests.filter (fun e => e.1 / 8 / 32 != t)
    consLast := s.consLast.filter (fun e => e.1 != t) }
  let s := each (tlHls t) (fun h s => s.modHl h (fun l => { HlS.reset with
    dirGen := l.dirGen, pfVecs := l.pfVecs, stale := l.stale, inL2 := l.inL2, wakeDriven := l.wakeDriven, dirDue := true
    subsysVendor := s.store.subsysVendor, subsysId := s.store.subsysId })) s
  let s := applyPort t s
  let s := each (tlHls t) (fun h s =>
    (s.wr .HL_PERST (if s.pins.perst.testBit h then 1 else 0) h).clrB h .PW_FN_READY) s
  let s := s.wr .TI_CB_READY (if bankLost s (3 * t) then 0 else 1) t
  let s := s.wr .TI_SPARE_READY (if bankLost s (3 * t + 2) then 0 else 1) t
  let s := setMode .TI_BRINGUP (bankLost s (3 * t)) t s
  let s := setMode .TI_LOST (bankLost s (3 * t)) t s
  let s := setMode .TI_RECOVERY (recovery s && t == 0) t s
  let s := loadWlCfg false t s
  when s.react (fun s => each (tlWls t) (fun n s => s.wr .WL_LSTATE 6 n) s) s

/-- Causes held for a tiller's PFs while their block was dark fall due (R319). -/
def giveHeldCauses (t : Nat) (s : State) : State :=
  let mine (e : Nat × Cause) : Bool := e.1 / 2048 == t
  let due := s.heldCauses.filter (fun e => mine e && s.present (fnHl e.1))
  each due (fun e => raiseCause e.1 e.2) { s with heldCauses := s.heldCauses.filter (fun e => !mine e) }

/-- A stream through a link of tiller `t` ends with its reset (R467). -/
def endStream (t : Nat) (s : State) : State :=
  when (s.on .TR_STREAM_ON && hlTiller (s.rd .TR_STREAM_HL) == t) (fun s =>
    ((s.wr .TR_STREAM_ON 0).wr .TR_STREAM_PAUSED 0).modTrace (fun x => { x with strWaited := [] })) s

/-- The Keeper restores a tiller (R431 step 5): buckets at 0, the configuration and directory of each PF, whose vectors are drawn
from the pool (R87). -/
def tlRestore (t : Nat) (s : State) : State :=
  let s := each ((heldTns s).filter (fun n => homeTiller s n == t)) (fun n s => setBucket n 0 s) s
  let s := each ((tlHls t).filter (fun h => s.present h)) (fun h s => s.modHl h (fun l => { l with pfVecs := true })) s
  let s := showExcused (showPools (showRefclk t (endStream t s)))
  let s := when (dirServed s) (fun s => each ((tlHls t).filter (fun h => s.present h)) (fun h s =>
    when (hphyReady s t) (fun s => s.setB h .PW_FN_READY) (loadPf h s)) s) s
  giveHeldCauses t s

/-! ### Reset of PD_HUB (R418, R433, Table TN-5) -/

/-- A tenant ends without PENDING. -/
def endTenant (n : Nat) (s : State) : State :=
  let f := s.tnFn n
  let s := each [0x0203, 0x0501, 0x0502, 0x0503] (fun op => finishWaiting op n 0x0A []) s
  let s := dropLog n s
  let s := each (outOf s n) (writeOut noOut) s
  let s := each (inOf s n) (writeIn noIn) s
  let s := each (intOf s n) (writeInt noInt) s
  let s := each ((listed s .SH_MODE).filter (fun i => (shTenants s i).contains n)) (fun i s =>
    writeSheaf i (sheafWithout s i n) s) s
  let s := each (s.ten n).chans takeChan s
  let s := s |>.wr .DVSEC_TNID 0xFFFF f |>.wr .DVSEC_GENERATION 0 f |>.wr .FI_VEC_COUNT 0 f
  (s.resetBlk .tenant n).modTen n (fun _ => TenS.reset)

/-- PD_HUB returns to reset values: every tenant ends, and the trace ring begins again with RING_LOST.  Window entries of PFs stay
(R433's "the manager's PFs"; DEDUCED, log entry 101). -/
def hubFresh (s : State) : State :=
  let s := each (heldTns s) endTenant s
  let s := s.resetRegs (fun k => keyDomain k == some dHub)
  let s := s.modTrace (fun t => { State.reset.trace with jtagPtr := t.jtagPtr })
  let s := when (!traceLost s) (ringNote 0x0001 0) s
  dirChange s.presentHls (showPools s)

/-! ### Leaving ON (Table PW-4, R417) -/

/-- The step bits of a domain. -/
def clearSteps (d : Nat) (s : State) : State :=
  each [.PW_REG_RDY, .PW_CLK_RDY, .PW_MEM_RDY, .PW_LOGIC_RDY, .PW_REFCLK_WAIT] (fun f s => s.wr f 0 0 d) s

/-- A domain enters RET.  The contents of its banks are not all in the state, so their signatures are open. -/
def toRet (d : Nat) (s : State) : State :=
  let s := each (banksOf d) (fun b s => draw s (fun v s => s.wr .PW_BANK_SIG v 0 b)) s
  let s := when (decide (2 ≤ d) && decide (d < 10)) (dropQuarantine (d - 2)) (holdPads d s)
  let s := clearSteps d (setPd d 1 s)
  when (decide (2 ≤ d) && decide (d < 10)) (showRefclk (d - 2)) s

/-- A PHY domain goes OFF. -/
def phyOff (d : Nat) (s : State) : State :=
  let s := clearSteps d (setPd d 0 (holdPads d s))
  when (decide (18 ≤ d)) (wphyClear (d - 18)) s

/-- A domain goes OFF, from ON, RET or HELD.  A PD_TL domain that was HELD may have anything in flight, and takes the PHY domains
that need it with it (R411; DEDUCED, log entry 99). -/
def toOff (d : Nat) (s : State) : State :=
  let tl := decide (2 ≤ d) && decide (d < 10)
  let held := s.rd .PW_STATE 0 d == 4
  let s := when tl (dropQuarantine (d - 2)) (holdPads d s)
  let s := when (tl && held) (fun s =>
    each ((depsOf d).filter (fun e => s.rd .PW_STATE 0 e == 2 || s.rd .PW_STATE 0 e == 4)) phyOff (downTiller (d - 2) s)) s
  let s := clearSteps d (setPd d 0 s)
  let s := when (decide (18 ≤ d)) (wphyClear (d - 18)) s
  when tl (fun s => showRefclk (d - 2) (cutTiller (d - 2) s)) s

/-! ### Waking (R415 to R418) -/

/-- The regulator steps of at most two domains run at once; the one of the lowest index is next (DESIGN CHOICE, log
entry 31). -/
def regNext (s : State) : State :=
  let waking := (List.range 26).filter (fun d => s.rd .PW_STATE 0 d == 3 && !s.on .PW_REG_RDY 0 d)
  let running := waking.filter (fun d => (s.dom d).regStarted)
  let next := (waking.filter (fun d => !(s.dom d).regStarted)).take (2 - running.length)
  each next (fun d s => s.modDom d (fun x => { x with regStarted := true })) s

/-- A domain in OFF or RET begins to wake. -/
def startWake (d : Nat) (release boot : Bool) (s : State) : State :=
  let ret := s.rd .PW_STATE 0 d == 1
  let s := s.modDom d (fun _ => { fromRet := ret, release := release, regStarted := false, bootWake := boot, inReset := none })
  regNext (setPd d 3 (clearSteps d s))

/-- The reply of PD_SET (R413). -/
def pdReply (d st lost flags : Nat) : Bytes := le 1 d ++ le 1 st ++ le 1 lost ++ le 1 flags

/-- A PD_HPHY domain's clock step waits for REFCLK (Table PW-4). -/
def refclkWait (d : Nat) (s : State) : State :=
  finishWaiting 0x0701 d 0 (pdReply d 3 0 2) (s.wr .PW_REFCLK_WAIT 1 0 d)

/-- REFCLK of a domain's port is needed and absent. -/
def lacksRefclk (s : State) (d : Nat) : Bool := decide (10 ≤ d) && decide (d < 18) && !s.pins.refclk.testBit (d - 10)

/-- The memory step (R417): after RET the banks in `bad` fail their signatures; after OFF, or in a reset, they fail the
march test and the others pass it. -/
def memoryStep (d : Nat) (bad : List Nat) (s : State) : State :=
  let ret := (s.dom d).fromRet && (s.dom d).inReset.isNone
  let lost := (banksOf d).filter (fun b => bad.contains b)
  let s := each lost (fun b s => when ret (bankEffect b) (loseBank b s)) s
  let s := when (!ret) (each ((banksOf d).filter (fun b => !bad.contains b)) (fun b => setBankLost b false)) s
  (s.wr .PW_LOST_LAST lost.length 0 d).wr .PW_MEM_RDY 1 0 d

/-- The domains that bring-up wakes once one has reached ON (R423, R424): PD_HUB, then every PD_TL, then its PHY domains
with RELEASE.  In ROM recovery mode only tiller 0 and its host port. -/
def bootNext (s : State) (d : Nat) : List Nat :=
  if d = dKeep then []
  else if d = dHub then (if recovery s then [dTl 0] else (List.range 8).map dTl)
  else if d < 10 then
    let t := d - 2
    let off (n : Nat) : Bool := s.store.wlink.any (fun e => e.1 == n && e.2.1 == 3 && e.2.2 == 1)
    dHphy t :: (if recovery s || (tlWls t).all off then [] else [dWphy t])
  else []

/-- A domain that wakes is ON (R418): from OFF it has been reset, from RET it goes on as it was. -/
def domainWoke (d : Nat) (fromRet : Bool) (s : State) : State :=
  if d = dKeep then
    if fromRet then when (keeperBankLost s && s.keeper.bootStage == 0) (enterRestart 4) s
    else if s.keeper.bootStage != 0 then s
    else
      let s := s.modKeeper (fun k => { k with snapshots := [], exprom := [], expromTotal := 0 })
      let st := s.rd .KP_KSTATE
      let s := s.resetRegs (fun k => keyDomain k == some dKeep)
      enterRestart 5 ((s.wr .KP_KSTATE st).wr .KP_FATAL_HOLD (if s.react then 1 else 0))
  else if d = dHub then
    if fromRet then s.modTrace (fun t => { t with hubResumed := true }) else hubFresh s
  else if d < 10 then
    let t := d - 2
    if fromRet then
      let s := each ((tlHls t).filter (fun h => s.present h && (s.hl h).perstFell)) perstHeld s
      giveHeldCauses t (showRefclk t s)
    else tlRestore t (tlFresh t (downTiller t (journal (.reset 1 t) s)))
  else if d < 18 then s
  else if fromRet then s
  else loadWlCfg true (d - 18) s

/-- The firmware is up (steps 10 and 11 of Timing PW-1), or the ROM goes on without: the ports and manager authority are set up. -/
def firmwareUp (s : State) : State :=
  let sel := s.pins.straps.mgrSel.val
  let s := keeperStarts (s.modKeeper (fun k => { k with bootStage := 0, bootTorn := false, bootBad := false }))
  let s := each (List.range 8) applyPort s
  let s := when (!recovery s) (fun s =>
    s.modKeeper (fun k => { k with mgrHl := if s.present sel then sel else 0, mgrSmp := !s.present sel })) s
  showMgr (showFw s)

/-- At boot the wake of PD_HUB has ended, one way or the other. -/
def hubWoke (d : Nat) (s : State) : State := when (d == dHub && s.keeper.bootStage == 6) firmwareUp s

/-- The last step of a wake. -/
def wakeEnds (d : Nat) (s : State) : State :=
  let x := s.dom d
  let s := (s.modDom d (fun _ => DomS.reset)).inc .PW_WAKE_CNT
  let lost := s.rd .PW_LOST_LAST 0 d
  let s := hubWoke d (domainWoke d x.fromRet (setPd d 2 s))
  let s := finishWaiting 0x0701 d 0 (pdReply d 2 lost 0) (when x.release (releasePads d) s)
  when x.bootWake (each (bootNext s d) (fun e => startWake e (hasPads e) true)) s

/-! ### Tiller and datapath reset (R431 to R433) -/

/-- The domains that a TILLER_RESET may cover, its base domain first. -/
def resetScope (k : Nat) : List Nat :=
  if k = 8 then dHub :: (List.range' 2 24) else [dTl k, dHphy k, dWphy k]

/-- The base domain of a TILLER_RESET. -/
def resetBase (k : Nat) : Nat := if k = 8 then dHub else dTl k

/-- A domain is ON or HELD. -/
def onOrHeld (s : State) (d : Nat) : Bool := s.rd .PW_STATE 0 d == 2 || s.rd .PW_STATE 0 d == 4

/-- The covered domains of the reset in progress of tiller `k`. -/
def coveredBy (s : State) (k : Nat) : List Nat :=
  (resetScope k).filter (fun d => s.rd .PW_STATE 0 d == 3 && (s.dom d).inReset == some k)

/-- A covered domain enters WAKING with its rails up; pads that were released are remembered. -/
def coverDomain (k d : Nat) (s : State) : State :=
  let rel := hasPads d && !s.on .PW_PAD_HOLD 0 d
  let s := clearSteps d (holdPads d s)
  let s := s.modDom d (fun _ => { fromRet := false, release := rel, regStarted := true, bootWake := false, inReset := some k })
  setPd d 3 ((s.wr .PW_REG_RDY 1 0 d).wr .PW_REFCLK_WAIT (if lacksRefclk s d then 1 else 0) 0 d)

/-- A tiller reset begins (R431 steps 1 to 3). -/
def startReset (k : Nat) (s : State) : State :=
  let s := journal (.reset 1 k) s
  let cov := (resetScope k).filter (onOrHeld s)
  let tls := (List.range 8).filter (fun t => cov.contains (dTl t))
  let s := each cov (coverDomain k) (closePorts tls s)
  each tls (fun t s => showRefclk t (endStream t (cutTiller t (each (tlWls t) linkReset s)))) s

/-- Every covered domain has run its steps: registers are restored, pads are released again, and the command replies (R431
steps 4 to 6). -/
def resetEnds (k : Nat) (s : State) : State :=
  let cov := coveredBy s k
  let tls := (List.range 8).filter (fun t => cov.contains (dTl t))
  let rel := cov.filter (fun d => (s.dom d).release)
  let s := each cov (fun d s => (setPd d 2 s).modDom d (fun _ => DomS.reset) |>.inc .PW_WAKE_CNT) s
  let s := when (cov.contains dHub) hubFresh s
  let s := each tls tlFresh s
  let s := each ((List.range 8).filter (fun t => cov.contains (dWphy t))) wphyFresh s
  let s := each rel releasePads s
  let s := each tls tlRestore s
  finishWaiting 0x0704 k 0 [] s

/-- A domain's parent is ON, or leaves WAKING in the same reset (R24, R411). -/
def parentUp (s : State) (k : Option Nat) (d : Nat) : Bool :=
  (parentOf d).all (fun p => s.domOn p || (k.isSome && (s.dom p).inReset == k))

/-- The reset ends once every domain it still covers has run its logic step and may be ON. -/
def resetMaybeEnds (k : Nat) (s : State) : State :=
  when ((coveredBy s k).all (fun d => s.on .PW_LOGIC_RDY 0 d && parentUp s (some k) d)) (resetEnds k) s

/-- The last step of a wake, and of the tiller resets that waited for PD_HUB (R24). -/
def wakeDone (d : Nat) (s : State) : State :=
  let s := wakeEnds d s
  when (d == dHub) (each ((List.range 8).filter (fun k => !(coveredBy s k).isEmpty)) resetMaybeEnds) s

/-! ### The rows of the wake -/

/-- The step that a waking domain is at reports ready (R415).  The logic step waits for the parent (R24, R411), and so
does the end of a reset whose parent a trip has taken out of ON since. -/
def stepReady (d : Nat) (bad : List Nat) (s : State) : State :=
  if !s.on .PW_REG_RDY 0 d then
    when (s.dom d).regStarted (fun s =>
      let s := regNext (s.wr .PW_REG_RDY 1 0 d)
      when (lacksRefclk s d) (refclkWait d) s) s
  else if !s.on .PW_CLK_RDY 0 d then
    when (clockFor s d && !lacksRefclk s d) (fun s => (s.wr .PW_CLK_RDY 1 0 d).wr .PW_REFCLK_WAIT 0 0 d) s
  else if !s.on .PW_MEM_RDY 0 d then memoryStep d bad s
  else if !s.on .PW_LOGIC_RDY 0 d then
    when (parentUp s (s.dom d).inReset d) (fun s =>
      let s := s.wr .PW_LOGIC_RDY 1 0 d
      match (s.dom d).inReset with
      | some k => resetMaybeEnds k s
      | none => wakeDone d s) s
  else withSome (s.dom d).inReset resetMaybeEnds s

/-- WAKE_STEP_READY (R415): `badBanks` are those that fail in the memory step. -/
def execWakeStepReady (dom : Dom) (badBanks : List Nat) (s : State) : Res :=
  .next (when (s.rd .PW_STATE 0 dom == 3) (stepReady dom badBanks) s)

/-- A wake fails: power is removed. -/
def cutDomain (d : Nat) (s : State) : State :=
  let s := (clearSteps d (holdPads d s)).modDom d (fun _ => DomS.reset)
  when (decide (18 ≤ d)) (wphyClear (d - 18)) (regNext (setPd d 0 s))

/-- A wake step has exceeded its maximum (R416).  In a tiller reset the domains that need it go with it, and the reset
ends for the others. -/
def wakeFails (d : Nat) (s : State) : State :=
  let k := (s.dom d).inReset
  let lost := if s.on .PW_MEM_RDY 0 d then s.rd .PW_LOST_LAST 0 d else 0
  let s := (cutDomain d s).wr .PW_WAKE_FAIL 1 0 d
  let s := ward 12 16 (mDom d) 0 0 s
  let s := finishWaiting 0x0701 d 0 (pdReply d 0 lost 1) s
  let s := hubWoke d s
  withSome k (fun k s =>
    let gone := (coveredBy s k).filter (fun e => (depsOf d).contains e || (depsOf d).any (fun x => (depsOf x).contains e))
    resetMaybeEnds k (each gone cutDomain s)) s

/-- WAKE_STEP_TIMEOUT (R416): a domain that waits its turn for a regulator, or for REFCLK, has no limit. -/
def execWakeStepTimeout (dom : Dom) (s : State) : Res :=
  let d := dom.val
  .next (
    if s.rd .PW_STATE 0 d != 3 || (!s.on .PW_REG_RDY 0 d && !(s.dom d).regStarted) then s
    else if s.on .PW_REG_RDY 0 d && !s.on .PW_CLK_RDY 0 d && lacksRefclk s d then
      when (!s.on .PW_REFCLK_WAIT 0 d) (refclkWait d) s
    else if s.on .PW_LOGIC_RDY 0 d then s
    else wakeFails d s)

/-! ### PD_SET, PAD_RELEASE, BANK_TEST, TILLER_RESET -/

/-- A PD_SET of the domain waits. -/
def pdWaits (s : State) (d : Nat) : Bool := s.keeper.waiting.any (fun w => w.opcode == 0x0701 && w.key == d)

/-- The refusals of PD_SET (R24, R361, R411 to R413); 0 where it may act. -/
def pdCheck (r : CmdReq) (d want : Nat) (s : State) : Nat :=
  let st := s.rd .PW_STATE 0 d
  let own (c : Ctx) : Bool := decide (c.iss = r.iss) && c.tag == r.tag
  let leaves := st == 2 && want != 0
  let bad := (s.dom d).inReset.isSome ||
    (d == dKeep && leaves && !(decide (r.iss = .smp) && s.keeper.actMgr.getD s.keeper.mgrSmp)) ||
    (st == 4 && want != 2) ||
    (st == 0 && want == 1) ||
    (st == 3 && want != 0) ||
    ((st == 0 || st == 1) && want == 0 && !(parentOf d).all s.domOn) ||
    (d == dHub && want != 0 && (List.range 8).any s.tlOn) ||
    (leaves && ((depsOf d).any (fun e => [2, 3, 4].contains (s.rd .PW_STATE 0 e)) || pendingDom s own d))
  if bad then 9 else 0

/-- The PLL that clocks a domain which a trip of it holds (Table CK-3). -/
def holdPll (s : State) (d : Nat) : Option Nat :=
  if d = dKeep then none
  else if d < 10 then (if s.on .CK_CORE_SRC then none else some 4)
  else some (16 + (d - 10))

/-- Entry into RET (Table PW-4) with the reply of PD_SET.  Where a trip of the domain's PLL waits next in the queue it may fall during
the entry, which is then abandoned and leaves the domain HELD ("If a clock monitor trip falls during entry to RET"). -/
def enterRet (r : CmdReq) (d : Nat) (s : State) : State :=
  let ends (st : Nat) (s : State) : State := finish r 0x0701 0 (pdReply d st 0 0) s
  let trips : Bool := match s.pending with
    | .clockMonitorTrip k :: _ => holdPll s d == some k.val && ckReady s k.val && pllEnabled s k.val
    | _ => false
  if trips then choose s (fun b s => if b then ends 4 (holdDomain d s) else ends 1 (toRet d s)) else ends 1 (toRet d s)

/-- PD_SET acts (Table PW-4). -/
def pdAct (r : CmdReq) (d want flags : Nat) (s : State) : State :=
  let st := s.rd .PW_STATE 0 d
  let now_ (st : Nat) (s : State) : State := finish r 0x0701 0 (pdReply d st 0 0) s
  if pdWaits s d then finish r 0x0701 1 [] s
  else if st = 3 then
    waitOn r 0x0701 d (when (flags == 1) (fun s => s.modDom d (fun x => { x with release := true })) s)
  else if want = 0 then
    if st = 2 then now_ 2 s else waitOn r 0x0701 d (startWake d (flags == 1) false s)
  else if want = 1 then
    if st = 1 then now_ 1 s else enterRet r d s
  else if st = 0 then now_ 0 s
  else now_ 0 (toOff d s)

/-- The row PD_SET of Table KP-5. -/
def cmdPdSet (r : CmdReq) (dom state flags : Nat) : Cmd where
  op := 0x0701
  lenOk := r.plen == 4
  priv := fun s => hasMgr s r.iss
  atOk := true
  params := fun _ => decide (dom ≤ 25) && decide (state ≤ 2) && decide (flags ≤ 1) && (flags == 0 || hasPads dom)
  own := pdCheck r dom state
  key := some dom
  sched := some (.pdSet dom state flags)
  act := pdAct r dom state flags

/-- PD_SET (R413).  While PD_KEEP is not ON the always-on block acts on one from SMP that takes it ON (R361). -/
def execPdSet (r : CmdReq) (dom state flags : Nat) (s : State) : Res :=
  .next (
    if decide (r.iss = .smp) && dom == dKeep && state == 0 && !s.domOn dKeep then
      if !s.aonRuns || s.keeper.bootStage = 1 then s else pdAct r dom 0 0 s
    else runCmd (cmdPdSet r dom state flags) r s)

/-- PAD_RELEASE (R420). -/
def execPadRelease (r : CmdReq) (dom : Nat) (s : State) : Res :=
  .next (runCmd
    { op := 0x0702, lenOk := r.plen == 4, priv := fun s => hasMgr s r.iss, params := fun _ => hasPads dom
      own := fun s => if s.domOn dom && s.on .PW_PAD_HOLD 0 dom then 0 else 9
      key := some dom
      act := fun s => finish r 0x0702 0 [] (releasePads dom s) } r s)

/-- BANK_TEST (R358): `failOffset` is the first failing word that the test finds, none when it passes. -/
def execBankTest (r : CmdReq) (bank : Nat) (failOffset : Option Nat) (s : State) : Res :=
  .next (runCmd
    { op := 0x0703, lenOk := r.plen == 4, priv := fun s => hasMgr s r.iss, params := fun _ => decide (bank < 44)
      dark := fun s => !s.domOn (bankDom bank)
      own := fun s =>
        let broken := decide (24 ≤ bank) && decide (bank < 40) &&
          (List.range 16).any (fun k => s.tnState (16 * (bank - 24) + k) == 4)
        if !bankLost s bank || broken then 9 else 0
      key := some bank
      act := fun s =>
        match failOffset with
        | some o => finish r 0x0703 0 (le 1 1 ++ zeros 3 ++ le 4 o) s
        | none => finish r 0x0703 0 (zeros 4 ++ le 4 0xFFFFFFFF) (bankPasses bank s) } r s)

/-- A TILLER_RESET of the tiller, or of one that covers or is covered, waits (R336). -/
def resetWaits (s : State) (k : Nat) : Bool :=
  s.keeper.waiting.any (fun w => w.opcode == 0x0704 && (w.key == k || w.key == 8 || k == 8))

/-- The row TILLER_RESET of Table KP-5. -/
def cmdTillerReset (r : CmdReq) (tiller : Nat) : Cmd where
  op := 0x0704
  lenOk := r.plen == 4
  priv := fun s => hasMgr s r.iss
  atOk := true
  params := fun _ => decide (tiller ≤ 8)
  own := fun s =>
    if resetWaits s tiller then 0
    else if !onOrHeld s (resetBase tiller) ||
      (resetScope tiller).any (fun d => s.rd .PW_STATE 0 d == 3 || pdWaits s d) || !ckReady s 4 then 9
    else 0
  key := some tiller
  sched := some (.tillerReset tiller)
  act := fun s =>
    if resetWaits s tiller then finish r 0x0704 1 [] s else startReset tiller (waitOn r 0x0704 tiller s)

/-- TILLER_RESET (R431, R433). -/
def execTillerReset (r : CmdReq) (tiller : Nat) (s : State) : Res := .next (runCmd (cmdTillerReset r tiller) r s)

/-! ### Supply -/

/-- VIN_LOW (R488): VIN has stayed below 6 V, and not below the POR threshold, for 10 µs.  VIN_MV shows this sample until the
next (DESIGN CHOICE, log entry 81). -/
def execVinLow (mv : Nat) (s : State) : Res :=
  .next (when (decide (5000 ≤ mv) && decide (mv < 6000) && !s.pins.porLow && !s.pins.resetLow) (fun s =>
    ward 12 0 mNone 0 0 ((s.wr .PW_VIN_MV mv).inc .PW_VINLOW_CNT)) s)

end Sys2Proof.Machine
end

