-- ==== Sys2Proof/Machine/WardCmds.lean ====
section
/-!
DEFINITION. The rows of the Ward (chapter 15): error lines, the pins FAULT_N and FAULT_IN_N, the device journal in flash,
and the Ward's commands.
-/
namespace Sys2Proof.Machine

/-! ### Lines -/

/-- The line types of Table WD-2, by group: tillers, then groups 8 to 15. -/
def definedLines : List (List Nat) :=
  List.replicate 8 [0, 1, 2, 3, 4, 5, 6, 7, 8, 9, 10, 11, 12, 13, 14, 15, 16, 17, 18, 19, 20, 21, 22, 23, 24, 25, 28, 29] ++
  [[0, 1, 16, 17, 28, 29], [0, 1, 2, 3, 16, 17, 28], [0, 1, 2, 3, 28], [0, 1, 2, 16, 28], [0, 16, 28],
   [0, 1, 16, 17, 18, 19, 28], [0], [0, 28]]

/-- A line that is not reserved (R372). -/
def lineDefined (g l : Nat) : Bool := (definedLines.getD g []).contains l

/-- The default class of a line (R370). -/
def defaultClass (g l : Nat) : Nat := if g = 14 && l = 0 then 1 else if l < 16 then 0 else if l < 28 then 1 else 2

/-- An uncorrectable error in the bank that holds the dirty filter of tiller `t` may lie in one of its lines, which is then lost and
marks its round ALL_DIRTY (R299); which one, if any, is open.  What the reader of a struck word of any other kind does without
it is left out (UNVERIFIED, log entry 47). -/
def strikeLine (t : Nat) (s : State) : State :=
  let l := linesOf s t
  if l.isEmpty then s
  else draw s (fun v s => withSome (l[v % (l.length + 1)]?) (fun d s =>
    logSettle d.tn (roundDirty d.tn d.bitmap { s with dirty := s.dirty.erase d })) s)

/-- ERROR_LINE_EVENT (R371 to R377): a block's error line reaches the Ward.  A reserved line is never set.  A late reply is counted
(Table KP-12). -/
def execErrorLineEvent (e : Ev) (s : State) : Res :=
  .next (when (s.aonUp && lineDefined e.group.val e.line.val)
    (fun s =>
      let s := when (e.group.val == 15 && e.line.val == 28) (fun s => s.wr .WD_SELFTEST_OK 0) s
      let s := when (decide (e.group.val < 8) && e.line.val == 16 && e.master.kind == 6 && e.master.id == 3 * e.group.val + 2)
        (strikeLine e.group.val) s
      let s := when (e.group.val == 9 && e.line.val == 2) (fun s => s.inc .KP_SLOW_CNT) s
      wardEvent false ⟨e.group.val, e.line.val, e.master, e.access, e.detail, e.addr⟩ s) s)

/-- FAULT_MINW_EXPIRY (R380): the minimum pulse has elapsed; FAULT_N stays low until FAULT_RELEASE. -/
def execFaultMinwExpiry (s : State) : Res := .next (s.wr .WD_MINW_RUN 0)

/-- FAULT_IN_N takes a level, which FIN_LEVEL shows (R382). -/
def setFaultIn (low : Bool) (s : State) : State :=
  (s.modPins (fun p => { p with faultInLow := low })).wr .WD_FIN_LEVEL (if low then 1 else 0)

/-- FAULT_IN_EVENT (R382): FAULT_IN_N falls and stays low for `widthNs`.  Ignored while the bridge drives FAULT_N, and
below 0.5 µs; from 0.5 µs to 1 µs it may or may not be seen.  No row tells of the rise: whether the pin is still low at the next
command is open, and it is high again from the next epoch or tick boundary on (DESIGN CHOICE, log entry 96). -/
def execFaultInEvent (widthNs : Nat) (s : State) : Res :=
  let seen (s : State) : State := ward 14 0 mNone 0 0 (s.inc .WD_FAULTIN_CNT)
  let s := choose s setFaultIn
  .next (
    if !s.aonRuns || s.on .WD_FN_DRIVEN || widthNs < 500 then s
    else if widthNs < 1000 then choose s (fun b s => when b seen s)
    else seen s)

/-! ### The journal in flash -/

/-- FAULT_CONFIG parameters as bytes (Table WD-6). -/
def FaultCfg.bytes (p : FaultCfg) : Bytes := le 1 p.select ++ le 1 p.group ++ le 1 p.line ++ le 1 p.cls ++ le 4 p.minw ++ zeros 8

/-- TYPE and BODY of a record (Table WD-10). -/
def JBody.encode : JBody → Nat × Bytes
  | .genesis dsn fw => (0x0001, le 8 dsn ++ le 4 fw)
  | .boot cause slot flags fw se sr devid mgr =>
    (0x0002, le 1 cause ++ le 1 slot ++ le 1 flags ++ zeros 1 ++ le 4 fw ++ le 4 se ++ le 2 sr ++ le 1 devid ++ le 1 mgr)
  | .fault g l c m t a => (0x0010, le 1 g ++ le 1 l ++ le 1 c ++ zeros 1 ++ le 4 m ++ le 4 t ++ zeros 4 ++ le 8 a)
  | .fatalReaction f i => (0x0011, le 8 f ++ le 8 i)
  | .faultClear m i => (0x0012, le 8 m ++ le 1 i)
  | .faultRelease => (0x0013, [])
  | .faultConfig p => (0x0014, FaultCfg.bytes p)
  | .injMode m => (0x0015, le 1 m)
  | .queueLost c o => (0x0016, le 4 c ++ le 4 o)
  | .reset k t => (0x0020, le 1 k ++ le 1 t ++ zeros 2)
  | .manager n f => (0x0021, le 1 n ++ le 1 f)
  | .update e sl v c => (0x0030, le 1 e ++ le 1 sl ++ zeros 2 ++ le 4 v ++ le 4 c)
  | .checkpoint e a => (0x0040, le 4 e ++ le 2 a)
  | .eraRoll e => (0x0041, le 2 e)
  | .slip b a => (0x0042, le 8 b ++ le 8 a)
  | .anchor h r => (0x0043, le 1 h ++ zeros 7 ++ r)
  | .truncate o c => (0x0050, le 8 o ++ le 48 c)
  | .exportMark m i => (0x0051, le 8 m ++ le 1 i)

/-- LEN of a record (R390). -/
def JRec.len (r : JRec) : Nat := roundUp (80 + r.body.encode.2.length) 16

/-- Bytes 0 to LEN − 49 of a record (Table WD-9). -/
def JRec.head (r : JRec) : Bytes :=
  le 2 0x574A ++ le 2 r.body.encode.1 ++ le 2 r.len ++ le 2 r.flags ++ le 8 r.seq ++ le 8 r.stamp ++ le 2 r.era ++
    le 2 r.boot ++ zeros 4 ++ padTo (r.len - 80) r.body.encode.2

/-- A record as it lies in flash. -/
def JRec.bytes (r : JRec) : Bytes := r.head ++ le 48 r.chain

/-- CHAIN of a record after the chain value `prev` (R390). -/
def chainOf (prev : Nat) (r : JRec) : Nat := Config.sha384 (le 48 prev ++ r.head)

/-- Bytes the head can take before the next sector erase: the region has 128 sectors of 64 KiB, one kept erased. -/
def jFree (headSector used : Nat) : Nat := (126 - headSector) * 65536 + (65536 - used)

/-- The ceiling that a record carries (R38). -/
def JBody.ceiling : JBody → Option Nat
  | .checkpoint e a => some (a * 2 ^ 32 + e)
  | _ => none

/-- Program a record: one that does not fit the rest of its sector begins the next (DESIGN CHOICE, log entry 76).  It takes the next SEQ and chains to the newest record (R390, R392); a CHECKPOINT's
ceiling is the newest from then on, whatever becomes of its sector (R38). -/
def program (r : JRec) (s : State) : State :=
  let j := s.journal
  let prev := match j.recs.getLast? with | some p => p.chain | none => j.chainBefore
  let n := s.rd .WD_JR_NEWEST + 1
  let r := { r with seq := n, boot := j.boots % 65536 }
  let enters := decide (65536 < j.sector + r.len)
  let sec := if enters then j.headSector + 1 else j.headSector
  let used := if enters then r.len else j.sector + r.len
  let r := { r with chain := chainOf prev r, sector := sec }
  let s := s.modJournal (fun j => { j with
    recs := j.recs ++ [r], sector := used, headSector := sec, erasing := j.erasing || (enters && decide (127 ≤ sec)),
    ceiling := r.body.ceiling.or j.ceiling })
  let s := when (decide (s.rd .WD_JR_OLDEST = 0)) (fun s => s.wr .WD_JR_OLDEST n) s
  ((s.wr .WD_JR_NEWEST n).inc .WD_JR_APPEND_CNT).wr .WD_JR_FREE (jFree sec used)

/-- Dropped records are reported by one QUEUE_LOST record once it finds a place (R393). -/
def reportLost (s : State) : State :=
  let b : JBody := .queueLost (sat 32 s.journal.lostCorr) (sat 32 s.journal.lostOther)
  when (decide (0 < s.journal.lostCorr + s.journal.lostOther) && jTakes s b)
    (fun s => journal b (s.modJournal (fun j => { j with lostCorr := 0, lostOther := 0 }))) s

/-- JOURNAL_APPEND (R393): the record at the head of the queue is programmed, once the cadence is seeded (R38). -/
def execJournalAppend (s : State) : Res :=
  .next (when (s.on .CAD_SEEDED) (fun s =>
    match s.journal.queue with
    | [] => s
    | r :: rest =>
      let s := program r (jShow (s.modJournal (fun j => { j with queue := rest })))
      checkpointCheck (reportLost s)) s)

/-- JOURNAL_ERASE_DONE (R392): the oldest sector's records are gone; a TRUNCATE record follows, and STORE line 17 when
records beyond the export mark went with it. -/
def execJournalEraseDone (s : State) : Res :=
  .next (
    if !s.journal.erasing then s
    else
      match s.journal.recs with
      | [] => s.modJournal (fun j => { j with erasing := false })
      | first :: _ =>
        let gone := s.journal.recs.filter (fun r => r.sector == first.sector)
        let kept := s.journal.recs.filter (fun r => r.sector != first.sector)
        let chain := (gone.getLast?.map (·.chain)).getD s.journal.chainBefore
        let oldest := (kept.head?.map (·.seq)).getD (s.rd .WD_JR_NEWEST + 1)
        let s := s.modJournal (fun j => { j with recs := kept, erasing := false, chainBefore := chain })
        let s := s.wr .WD_JR_OLDEST oldest
        let s := when (gone.any (fun r => decide (s.rd .WD_JR_MARK < r.seq))) (ward 13 17 mNone 0 0) s
        journal (.truncate oldest chain) s)

/-! ### Commands -/

/-- The MANAGER byte of Table KP-6. -/
def managerByte (s : State) : Nat := s.keeper.mgrHl + (if s.keeper.mgrSmp then 128 else 0)

/-- The issuer of a command as a MANAGER byte. -/
def issuerByte : Issuer → Nat
  | .fn f => f.hl.val
  | .smp => 128

/-- WARD.STATUS as a word (Table WD-12). -/
def wardStatus (s : State) : Nat :=
  s.rd .WD_REACT + s.rd .WD_FN_DRIVEN * 2 + s.rd .WD_FN_LEVEL * 4 + s.rd .WD_FIN_LEVEL * 8 + s.rd .WD_MINW_RUN * 16 +
    s.rd .WD_ASYNC * 32 + s.rd .WD_INJ_COUNTS * 64 + s.rd .WD_INJ_REACT * 128 + s.rd .WD_SELFTEST_OK * 256

/-- FC_TYPE of a class's capture as a word. -/
def fcTypeWord (s : State) (c : Nat) : Nat :=
  s.rd .WD_ACCESS 0 c + s.rd .WD_DETAIL 0 c * 2 ^ 8 + s.rd .WD_GROUP 0 c * 2 ^ 16 + s.rd .WD_LINE 0 c * 2 ^ 20 +
    s.rd .WD_INJECTED 0 c * 2 ^ 25 + s.rd .WD_PRESEED 0 c * 2 ^ 26 + s.rd .WD_VALID 0 c * 2 ^ 31

/-- FIRST_CAPTURE of a class as FAULT_READ gives it. -/
def captureBytes (s : State) (c : Nat) : Bytes :=
  le 8 (s.rd .WD_FC_ADDR 0 c) ++ le 8 (s.rd .WD_FC_STAMP 0 c) ++ le 4 (s.rd .WD_FC_MASTER 0 c) ++ le 4 (fcTypeWord s c) ++
    le 2 (s.rd .WD_FC_ERA 0 c) ++ zeros 6

/-- The reply of Table WD-5. -/
def faultReadReply (s : State) : Bytes :=
  le 8 (s.rd .WD_FAULT_WORD) ++ le 8 (s.rd .WD_INJ_WORD) ++ le 4 (wardStatus s) ++ le 4 (s.rd .WD_FAULT_MINW) ++
    le 8 (s.rd .WD_REACT_STAMP) ++ le 2 (s.rd .WD_REACT_ERA) ++ zeros 6 ++ le 8 (s.rd .WD_JR_NEWEST) ++
    captureBytes s 0 ++ captureBytes s 1 ++ captureBytes s 2 ++
    (List.range 16).flatMap (fun g => le 4 (s.rd .WD_LINES 0 g)) ++ zeros 48

/-- FAULT_READ (R383). -/
def execFaultRead (r : CmdReq) (s : State) : Res :=
  .next (runCmd { op := 0x0A01, lenOk := r.plen == 0, priv := fun _ => isPfOrSmp r.iss
                  act := fun s => finish r 0x0A01 0 (faultReadReply s) s } r s)

/-- Clear one FAULT_WORD bit of class CORR or CONT and the LINES bits behind it (R384). -/
def clearBit (b : Nat) (s : State) : State :=
  let g := b / 3
  let c := b % 3
  if c = 2 then s
  else
    let keep := (List.range 32).foldl
      (fun v l => if v.testBit l && lineClass s g l == c then clrBit v l else v) (s.rd .WD_LINES 0 g)
    (s.clrB b .WD_FAULT_WORD).wr .WD_LINES keep 0 g

/-- A class's capture is armed again when FAULT_CLEAR leaves no FAULT_WORD bit of the class set (R373). -/
def rearm (c : Nat) (s : State) : State :=
  when ((List.range 16).all (fun g => !s.bit (3 * g + c) .WD_FAULT_WORD)) (fun s => s.wr .WD_VALID 0 0 c) s

/-- FAULT_CLEAR's effect (R384). -/
def faultClearAct (mask : Nat) (i : Issuer) (s : State) : State :=
  let s := each ((List.range 48).filter (fun b => mask.testBit b)) clearBit s
  let s := when (mask.testBit 62) (fun s => (s.clrB 62 .WD_FAULT_WORD).wr .WD_INJ_WORD 0) s
  let s := each [0, 1, 2] rearm s
  journal (.faultClear mask (issuerByte i)) s

/-- FAULT_CLEAR (R384). -/
def execFaultClear (r : CmdReq) (mask : Nat) (s : State) : Res :=
  .next (runCmd { op := 0x0A02, lenOk := r.plen == 8, priv := fun s => hasMgr s r.iss
                  act := fun s => finish r 0x0A02 0 [] (faultClearAct mask r.iss s) } r s)

/-- FAULT_RELEASE (R380). -/
def execFaultRelease (r : CmdReq) (s : State) : Res :=
  .next (runCmd
    { op := 0x0A03, lenOk := r.plen == 0, priv := fun s => hasMgr s r.iss
      own := fun s => if !s.on .WD_FN_DRIVEN || s.on .WD_MINW_RUN then 9 else 0
      act := fun s => finish r 0x0A03 0 []
        (journal .faultRelease (emit (.pin .faultN true) ((s.wr .WD_FN_DRIVEN 0).wr .WD_FN_LEVEL 0))) } r s)

/-- The partition of a group is dark (R386). -/
def groupDark (s : State) (g : Nat) : Bool :=
  if g < 8 then !s.tlOn g else if g = 8 then !s.domOn dHub else if g = 9 then !s.domOn dKeep else false

/-- FAULT_INJECT's effect: modes first, then the event (R386, R387). -/
def faultInjectAct (p : FaultInj) (s : State) : State :=
  let old := s.rd .WD_INJ_COUNTS + 2 * s.rd .WD_INJ_REACT
  let s := when (p.modes.testBit 7) (fun s =>
    let s := (s.wr .WD_INJ_COUNTS (p.modes % 2)).wr .WD_INJ_REACT (p.modes / 2)
    when (old != p.modes % 4) (journal (.injMode (p.modes % 4))) s) s
  when (p.op == 1) (wardEvent true
    ⟨p.group, p.line, ⟨p.master / 2 ^ 16 % 16, p.master % 2 ^ 16, p.master / 2 ^ 20⟩, 0, 0, p.addr⟩) s

/-- FAULT_INJECT (R386): GROUP and LINE are judged only where OP raises an event (DEDUCED, log entry 75). -/
def execFaultInject (r : CmdReq) (p : FaultInj) (s : State) : Res :=
  .next (runCmd
    { op := 0x0A04, lenOk := r.plen == 16, priv := fun s => hasMgr s r.iss
      params := fun _ => decide (p.op ≤ 1) && (p.op == 0 || lineDefined p.group p.line) && p.modes / 4 % 32 == 0
      dark := fun s => p.op == 1 && groupDark s p.group
      own := fun s => if s.react then 9 else 0
      act := fun s => finish r 0x0A04 0 [] (faultInjectAct p s) } r s)

/-- Give a line a class (R370, R385). -/
def setClass (g l c : Nat) (s : State) : State :=
  if l < 16 then
    let v := s.rd .WD_CLASS_LO 0 g
    s.wr .WD_CLASS_LO (v - v / 4 ^ l % 4 * 4 ^ l + c * 4 ^ l) 0 g
  else
    let v := s.rd .WD_CLASS_HI 0 g
    let k := l - 16
    s.wr .WD_CLASS_HI (v - v / 4 ^ k % 4 * 4 ^ k + c * 4 ^ k) 0 g

/-- FAULT_CONFIG's effect: the class and the minimum pulse apply and are stored (R385). -/
def faultConfigAct (p : FaultCfg) (s : State) : State :=
  let s := when (p.select.testBit 0) (fun s =>
    (setClass p.group p.line p.cls s).modStore (fun st => { st with
      classes := st.classes.filter (fun e => !(e.1 == p.group && e.2.1 == p.line)) ++ [(p.group, p.line, p.cls)] })) s
  let s := when (p.select.testBit 1) (fun s =>
    (s.wr .WD_FAULT_MINW p.minw).modStore (fun st => { st with minw := some p.minw })) s
  journal (.faultConfig p) s

/-- FAULT_CONFIG's parameter ranges (R385): only those of what SELECT applies are judged (DEDUCED, log entry 75). -/
def faultConfigOk (p : FaultCfg) : Bool :=
  decide (p.select < 4) &&
    (!p.select.testBit 0 ||
      (lineDefined p.group p.line && decide (p.cls ≤ 2) &&
        (decide (defaultClass p.group p.line ≤ p.cls) || (p.group == 14 && p.line == 0)))) &&
    (!p.select.testBit 1 || (decide (10 ≤ p.minw) && decide (p.minw ≤ 10000)))

/-- FAULT_CONFIG (R385). -/
def execFaultConfig (r : CmdReq) (p : FaultCfg) (s : State) : Res :=
  .next (runCmd { op := 0x0A05, lenOk := r.plen == 16, priv := fun s => hasMgr s r.iss, params := fun _ => faultConfigOk p
                  act := fun s => finish r 0x0A05 0 [] (faultConfigAct p s) } r s)

/-- A record can be read and passes the check against its predecessor's CHAIN (R394). -/
def recOk (s : State) (r : JRec) : Bool :=
  let prev := match s.journal.recs.find? (fun p => p.seq + 1 == r.seq) with
    | some p => p.chain
    | none => s.journal.chainBefore
  !s.journal.bad.contains r.seq && r.chain == chainOf prev r

/-- The flash may fail to give one of the records that a read begins with, from then on; which, if any, is open (log entry 97). -/
def agesRec (avail : List JRec) (s : State) : State :=
  draw s (fun v s =>
    match avail[v % (avail.length + 1)]? with
    | some r => s.modJournal (fun j => { j with bad := r.seq :: j.bad.filter (fun q => q != r.seq && j.recs.any (fun x => x.seq == q)) })
    | none => s)

/-- Whole records in order, up to `room` bytes and to the first that fails its check. -/
def takeRecs (s : State) : Nat → List JRec → List JRec
  | _, [] => []
  | room, r :: rest => if r.len ≤ room && recOk s r then r :: takeRecs s (room - r.len) rest else []

/-- MARK advances the export mark (R394). -/
def advanceMark (seq : Nat) (i : Issuer) (s : State) : State :=
  let m := min (seq - 1) (s.rd .WD_JR_NEWEST)
  when (decide (s.rd .WD_JR_MARK < m)) (fun s => journal (.exportMark m (issuerByte i)) (s.wr .WD_JR_MARK m)) s

/-- JOURNAL_READ's effect and reply (R394, Table WD-11). -/
def journalReadAct (r : CmdReq) (start : Nat) (s : State) : State :=
  let seq := start % 2 ^ 63
  let s := when (start.testBit 63) (advanceMark seq r.iss) s
  let avail := s.journal.recs.filter (fun x => decide (seq ≤ x.seq))
  match avail with
  | x :: _ =>
    let s := agesRec avail s
    if !recOk s x then finish r 0x0A10 0x0D [] (ward 13 16 mNone 0 0 s)
    else
      let recs := takeRecs s 4032 avail
      let last := (recs.getLast?.map (·.seq)).getD 0
      let fin := avail.all (fun y => decide (y.seq ≤ last))
      let body := recs.flatMap JRec.bytes
      finish r 0x0A10 0 (le 2 recs.length ++
        le 2 ((if fin then 1 else 0) + (if seq < s.rd .WD_JR_OLDEST then 2 else 0)) ++ le 4 body.length ++ body) s
  | [] => finish r 0x0A10 0 (le 2 0 ++ le 2 (1 + (if seq < s.rd .WD_JR_OLDEST then 2 else 0)) ++ le 4 0) s

/-- JOURNAL_READ (R394). -/
def execJournalRead (r : CmdReq) (start : Nat) (s : State) : Res :=
  .next (runCmd { op := 0x0A10, lenOk := r.plen == 8, priv := fun _ => isPfOrSmp r.iss
                  act := journalReadAct r start } r s)

end Sys2Proof.Machine
end

