-- ==== Sys2Proof/Machine/BringUp.lean ====
section
/-!
DEFINITION. POR, RESET_N and bring-up (R38, R399, R423 to R428, R455), and the clock rows that bring-up waits on.
-/
namespace Sys2Proof.Machine

/-! ### Reset of the die (R427, Table PW-6) -/

/-- The pins that the bridge drives are let go (R427). -/
def releasePins (s : State) : State :=
  let s := when (s.on .WD_FN_DRIVEN) (emit (.pin .faultN true)) s
  let s := each ((List.range 8).filter (fun p => (tlHls p).any (fun h => (s.hl h).wakeDriven)))
    (fun p => emit (.pin (.wakeN p) true)) s
  let s := each ((List.range 32).filter (fun h => s.on .HL_CLKREQ h)) (fun h => emit (.pin (.clkreqN h) true)) s
  let s := when (!s.keeper.smpReplies.isEmpty) (emit (.pin .smpIrqN true)) s
  let s := when (cadOutLevel s) (emit (.pin .cadenceOut false)) s
  when s.clocks.obsOn (emit (.pin .clkobs false)) s

/-- What the flash keeps of the journal, and how the last run ended. -/
def journalKept (s : State) : JournalS :=
  { JournalS.empty with
    recs := s.journal.recs
    sector := s.journal.sector
    headSector := s.journal.headSector
    erasing := s.journal.erasing
    ceiling := s.journal.ceiling
    bad := s.journal.bad
    chainBefore := s.journal.chainBefore
    boots := s.journal.boots + 1
    reactLast := s.react }

/-- What the flash and the fuses keep of the slots and the update (Table UP-5): held halves are lost, and a scheduled
activation with them. -/
def updKept (s : State) : UpdS :=
  { s.upd with pieces := [], state := if s.upd.state = 4 then 3 else s.upd.state, running := 2 }

/-- Every domain and register goes to reset; flash, fuses, pins and what has been sent stay. -/
def dieReset (s : State) : State :=
  let s := releasePins s
  { State.reset with
    pending := s.pending
    out := s.out
    free := s.free
    pins := s.pins
    store := s.store
    cad := { State.reset.cad with inLevel := s.cad.inLevel }
    journal := journalKept s
    upd := updKept s }

/-- POWER_ON_RESET (R423, R488): POR is asserted; a dip of VIN that is ignored is no command (log entry 102).  A reset already in force goes on. -/
def execPowerOnReset (s : State) : Res :=
  .next ((when s.aonUp dieReset s).modPins (fun p => { p with porLow := true }))

/-- RESET_N_ASSERT (R427): RESET_N has been low for 10 µs. -/
def execResetNAssert (s : State) : Res :=
  .next ((when s.aonUp dieReset s).modPins (fun p => { p with resetLow := true }))

/-- PD_AON leaves reset (R428, step 1 of Timing PW-1), once neither POR nor RESET_N is asserted. -/
def leaveReset (cause : Nat) (s : State) : State :=
  when s.aonUp (fun s =>
    let x := s.pins.straps
    let s := s |>.wr .PW_BOOT_CAUSE cause
      |>.wr .PW_PREV_REACT (if s.journal.reactLast then 1 else 0)
      |>.wr .DEV_DEVID x.devid.val
      |>.wr .DEV_MGR_SEL x.mgrSel.val
      |>.wr .DEV_RECOVERY_STRAP (if x.recoveryLow then 1 else 0)
      |>.wr .DEV_DSN_LO s.upd.dsn
      |>.wr .DEV_DSN_HI (s.upd.dsn / 2 ^ 32)
      |>.wr .WD_FIN_LEVEL (if s.pins.faultInLow then 1 else 0)
    s.modKeeper (fun k => { k with bootStage := 2 })) s

/-- POR_RELEASE (R423, R428, R488, R489): POR ends once VIN has risen through 5.6 V and VIO is at 1.5 V or more; the range of VIO is
detected.  VIN_MV shows this sample until the next (DESIGN CHOICE, log entry 81). -/
def execPorRelease (up : PowerUp) (s : State) : Res :=
  .next (when (s.pins.porLow && decide (5600 ≤ up.vinMv) && decide (1500 ≤ up.vioMv)) (fun s =>
    let s := s.modPins (fun p => { p with porLow := false, straps := up.straps, vio33 := decide (2500 ≤ up.vioMv) })
    leaveReset 1 (when s.aonUp (fun s => s.wr .PW_VIN_MV up.vinMv) s)) s)

/-- RESET_N_RELEASE (R427, R428): pads that boundary scan drives are released before PD_AON leaves reset (R472). -/
def execResetNRelease (straps : Straps) (s : State) : Res :=
  .next (when s.pins.resetLow
    (fun s => leaveReset 2 ((dropPads s).modPins (fun p => { p with resetLow := false, straps := straps }))) s)

/-! ### Firmware and datapath (steps 7 to 11 of Timing PW-1) -/

/-- The ROM starts a slot, or none where RECOVERY_N was captured low or a Keeper bank has failed (R454 to R456). -/
def bootChoose (s : State) : State :=
  if (s.pins.straps.recoveryLow && !s.upd.keepStrap) || s.keeper.bootBad then bootNone s else bootSlot s

/-- The BOOT record (Table WD-10) of a boot that ends in the state `t`. -/
def bootRecord (s t : State) : JBody :=
  .boot (s.rd .PW_BOOT_CAUSE) (if t.upd.running < 2 then t.upd.running else 0xFF)
    ((if s.keeper.bootTorn then 1 else 0) + (if s.on .PW_PREV_REACT then 2 else 0) + (if t.upd.running < 2 then 0 else 4))
    t.upd.fwVersion (s.rd .CAD_SEED) s.era s.pins.straps.devid.val s.pins.straps.mgrSel.val

/-- The BOOT record is queued and a slot is started; PD_HUB begins to wake, before the firmware is up and the other domains follow
(R423, R424).  Without a clock source no domain is taken ON (R399). -/
def bootFirmware (datapath : Bool) (s : State) : State :=
  let s := (bootChoose (journal (bootRecord s (bootChoose s)) s)).modUpd (fun u => { u with keepStrap := false })
  if datapath then startWake dHub false true (s.modKeeper (fun k => { k with bootStage := 6 })) else firmwareUp s

/-! ### The ROM (step 4 of Timing PW-1) -/

/-- The export mark that a record carries (R394). -/
def JBody.mark : JBody → Option Nat
  | .exportMark m _ => some m
  | _ => none

/-- The journal's registers after its tail is verified (R393): the mark is that of the newest EXPORT_MARK record held. -/
def showJournal (s : State) : State :=
  let j := s.journal
  s |>.wr .WD_JR_NEWEST ((j.recs.getLast?.map (·.seq)).getD 0)
    |>.wr .WD_JR_OLDEST ((j.recs.head?.map (·.seq)).getD 0)
    |>.wr .WD_JR_MARK (((j.recs.filter (fun r => !j.bad.contains r.seq)).filterMap (·.body.mark)).getLast?.getD 0)
    |>.wr .WD_JR_FREE (jFree j.headSector j.sector)

/-- The journal is read; one that cannot be read is formatted anew. -/
def readJournal (readable : Bool) (s : State) : State :=
  showJournal (when (!readable)
    (fun s => s.modJournal (fun j => { JournalS.empty with queue := j.queue, lostCorr := j.lostCorr, lostOther := j.lostOther, reactLast := j.reactLast })) s)

/-- A record as the ROM programs it itself. -/
def romRecord (b : JBody) (s : State) : State :=
  let s := advance s
  program ⟨b, 0, s.stamp, s.era, 0, 0, 0, 0⟩ s

/-- The cadence is seeded (R38): the seed applies only above the running (era, EPOCH), before any record is programmed; an empty
journal then begins with GENESIS, and a CHECKPOINT 65,536 epochs above the seed in effect is programmed before anything else. -/
def seedCadence (s : State) : State :=
  let seed := s.journal.ceiling.getD 1
  let s := when (decide (s.eraEpoch < seed)) (fun s =>
    setStamp (seed % 2 ^ 32 * 2 ^ 32 + s.stamp % 2 ^ 32) (s.wr .CAD_ERA (seed / 2 ^ 32))) s
  let s := s.wr .CAD_SEED s.epoch
  let s := when s.journal.recs.isEmpty
    (fun s => draw s (fun v s => romRecord (.genesis s.upd.dsn (v % 2 ^ 32)) (s.modJournal (fun j => { j with boots := 0 })))) s
  let top := s.eraEpoch + 65536
  let s := romRecord (.checkpoint (top % 2 ^ 32) (top / 2 ^ 32 % 2 ^ 16)) s
  s.wr .CAD_SEEDED 1

/-- The stored classes and minimum pulse are loaded (R385). -/
def loadWard (s : State) : State :=
  let s := each s.store.classes (fun e => setClass e.1 e.2.1 e.2.2) s
  withSome s.store.minw (fun m s => s.wr .WD_FAULT_MINW m) s

/-- Bring-up goes on where what it waits for has come (R399): a source, the switches of AON and REF, then the KEEP PLL.  A switch
whose source trips before it is done begins again once a source is READY. -/
def advanceBoot (s : State) : State :=
  let s := when (s.keeper.bootStage == 4 && (ckReady s 0 || ckReady s 1))
    (fun s => bootClocks (s.modKeeper (fun k => { k with bootStage := 5 }))) s
  if s.keeper.bootStage != 5 || s.clocks.switching.any (fun e => decide (e.1 < 2)) then s
  else if s.rd .CK_AON_SRC = 2 || !ckReady s (s.rd .CK_REF_SRC) then when (ckReady s 0 || ckReady s 1) bootClocks s
  else if !s.on .CK_KEEP_SRC then bootFirmware true s
  else when (ckReady s 5 && !s.clocks.switching.any (fun e => e.1 == 2)) (startSwitch 2 5 false) s

/-- The ROM tests the Keeper's banks where one is LOST (R417). -/
def bootBanks (bad : Bool) (s : State) : State :=
  if !keeperBankLost s then s
  else if bad then s.modKeeper (fun k => { k with bootBad := true })
  else each [44, 45, 46, 47] (fun b => setBankLost b false) s

/-- ROM_BOOT (R423, R38, R385, R393): PD_KEEP is ON and the ROM runs.  A torn tail is a record whose program the reset cut
short: it never counted as programmed. -/
def execRomBoot (found : RomFindings) (s : State) : Res :=
  .next (when (s.aonUp && s.keeper.bootStage == 3 && s.domOn dKeep) (fun s =>
    let s := when (!found.fusesOk) (ward 13 28 mNone 0 0) s
    let s := when (!found.storeReadable) (fun s => ward 13 18 mNone 0 0 (s.modStore (fun _ => StoreS.empty))) s
    let s := seedCadence (readJournal found.journalReadable s)
    let s := loadWard (s.wr .WD_SELFTEST_OK 1)
    let s := bootBanks found.badKeeperBank s
    advanceBoot (s.modKeeper (fun k => { k with bootStage := 4, bootTorn := found.tornTail }))) s)

/-- BOOT_CLOCK_TIMEOUT (R399): 20 ms without XO or EXTCLK_IN READY. -/
def execBootClockTimeout (s : State) : Res :=
  .next (when ((s.keeper.bootStage == 4 || s.keeper.bootStage == 5) && !ckReady s 0 && !ckReady s 1)
    (fun s => bootFirmware false (ward 11 1 (mCk 0) 0 0 s)) s)

/-! ### Sources, PLLs and switches -/

/-- A source in use by AON tripped before the FRO was READY (R381): AON moves to the FRO, and CLOCK line 28 follows. -/
def lateTrip (s : State) : State :=
  withSome s.clocks.asyncTrip (fun k s =>
    showObs (ward 11 28 (mCk k) 0 0 (startSwitch 0 2 true (s.modClocks (fun c => { c with asyncTrip := none }))))) s

/-- FRO_READY (R398): after POR or a restart.  After POR, PD_KEEP then wakes from OFF (step 2 of Timing PW-1). -/
def execFroReady (s : State) : Res :=
  .next (when (s.aonUp && !ckReady s 2 && (s.keeper.bootStage == 2 || s.clocks.froRestarting)) (fun s =>
    let s := lateTrip (setReady 2 true (s.modClocks (fun c => { c with froRestarting := false })))
    when (s.keeper.bootStage == 2)
      (fun s => startWake dKeep false true (s.modKeeper (fun k => { k with bootStage := 3 }))) s) s)

/-- SOURCE_READY (R398): XO or EXTCLK_IN, while the FRO is READY. -/
def execSourceReady (ckid : Fin 2) (s : State) : Res :=
  .next (when (s.aonUp && ckReady s 2 && !ckReady s ckid.val) (fun s => advanceBoot (setReady ckid.val true s)) s)

/-- PLL_READY (R398): the PLL is enabled, its reference READY, and it has locked. -/
def execPllReady (ckid : Fin 32) (s : State) : Res :=
  let k := ckid.val
  let ref : Bool :=
    if 16 ≤ k && k < 24 then ckReady s (8 + (k - 16)) || s.pins.refclk.testBit (k - 16) else ckReady s (s.rd .CK_REF_SRC)
  .next (when (pllEnabled s k && ref && !ckReady s k) (fun s => advanceBoot (setReady k true s)) s)

/-- CLOCK_SWITCH_DONE (R401): the handshake. -/
def execClockSwitchDone (selector : Fin 4) (s : State) : Res := .next (advanceBoot (endSwitch selector.val false s))

/-- FORCED_CLOCK_SWITCH (R401): no handshake within 64 cycles of the new clock. -/
def execForcedClockSwitch (selector : Fin 4) (s : State) : Res := .next (advanceBoot (endSwitch selector.val true s))

/-- CLOCK_MONITOR_TRIP (R402, Table CK-3): of a source that is READY; for a PLL, one that is enabled.  A source leaves READY when it
trips or is disabled: neither FRO's restart nor a reference that trips takes READY from those that depend on it (DEDUCED, log
entry 77). -/
def execClockMonitorTrip (ckid : Fin 32) (s : State) : Res :=
  let k := ckid.val
  .next (
    if !ckReady s k then s
    else if k < 2 then advanceBoot (tripSource k s)
    else if k = 2 then advanceBoot (tripFro s)
    else if pllEnabled s k then tripPll k s
    else s)

end Sys2Proof.Machine
end

