-- ==== Sys2Proof/Machine/Update.lean ====
section
/-!
DEFINITION. Firmware update (chapter 18): delivery of an image, activation, trial, confirmation and revert (R440 to R453,
R456).
-/
namespace Sys2Proof.Machine

/-! ### The image in delivery -/

/-- The slot that receives the next image (R440). -/
def recvOf (u : UpdS) : Nat := if u.active < 2 then otherSlot u.active else 0

/-- Chunks of a slot's image that are not stored, from an index on. -/
def missingFrom (x : SlotS) (start : Nat) : List Nat :=
  (List.range (hChunks x.header)).filter (fun i => decide (start ≤ i) && (x.chunk i).isNone)

/-- MISSING. -/
def missing (x : SlotS) : Nat := (missingFrom x 0).length

/-- The expiry of an image has passed (R440 step 8). -/
def expired (s : State) (h : Bytes) : Bool := (hFlags h).testBit 1 && decide (hExpiry h ≤ s.eraEpoch)

/-- The fields of R440 step 6. -/
def fieldsOk (h : Bytes) : Bool :=
  let mode := num h 0x48 1
  decide (hArb h ≤ 64) && hPlain h != 0 && num h 0x18 4 == 4096 && hChunks h == (hPlain h + 4095) / 4096 &&
    decide (1 ≤ hLoad h) && decide (hLoad h ≤ 384) && decide (hLoad h ≤ hChunks h) && (mode == 1 || mode == 2) &&
    num h 0x22 2 == 0 && num h 0x2E 2 == 0 && num h 0x49 7 == 0 && num h 0xB1 143 == 0

/-- The checks of R440 in their order. -/
def headerCheck (s : State) (h : Bytes) : Nat :=
  firstFail [
    (!formOk h, 0x05),
    (!partOk s.upd h, 0x0F),
    (!sigsOk s.upd h, 0x0D),
    (decide (hArb h < s.upd.arbFuse), 0x0E),
    (decide (10240 < hChunks h) || decide (41943040 < hPlain h), 0x12),
    (!fieldsOk h, 0x05),
    ((imageKey s.upd h).isNone, 0x0D),
    (expired s h, 0x11)]

/-- The header is that of the image in ERASING or RECEIVING. -/
def sameImage (s : State) (h : Bytes) : Bool :=
  (s.upd.state == 1 || s.upd.state == 2) && (s.upd.slot s.upd.recvSlot).header == h

/-- The reply of UPDATE_BEGIN. -/
def beginReply (s : State) (resumed : Nat) : Bytes :=
  le 1 s.upd.recvSlot ++ le 1 resumed ++ zeros 2 ++ le 4 (missing (s.upd.slot s.upd.recvSlot))

/-- A new header is accepted: the slot is marked invalid and its erase begins. -/
def acceptHeader (h : Bytes) (s : State) : State :=
  let i := recvOf s.upd
  let s := s.modUpd (fun u => { u.setSlot i ⟨false, h, [], []⟩ with recvSlot := i, pieces := [] })
  setUpdState 1 (journalUpd 1 i s)

/-- UPDATE_BEGIN (R440). -/
def execUpdateBegin (r : CmdReq) (hdr : Bytes) (s : State) : Res :=
  let h := sub hdr 0 512
  .next (runCmd
    { op := 0x0801, lenOk := r.plen == 512, priv := fun s => hasMgr s r.iss
      own := fun s => if sameImage s h then 0 else if s.upd.state != 0 then 9 else headerCheck s h
      act := fun s =>
        if sameImage s h then finish r 0x0801 0 (beginReply s 1) s
        else
          let s := acceptHeader h s
          finish r 0x0801 0 (beginReply s 0) s } r s)

/-- ERASE_DONE (R447). -/
def execEraseDone (s : State) : Res :=
  .next (when (s.upd.state == 1 && s.domOn dKeep && keeperUp s) (setUpdState 2) s)

/-! ### Chunks (R441 to R445) -/

/-- The bytes of a half within its chunk's ciphertext and tag. -/
def halfOf (c : Bytes) (piece : Nat) : Bytes := if piece = 0 then sub c 0 2048 else sub c 2048 2064

/-- Place a half among those held: it replaces the one held for its chunk and piece, or as the 33rd discards the one held
longest.  The flag says whether one was discarded. -/
def holdHalf (l : List (Nat × Nat × Bytes)) (i p : Nat) (d : Bytes) : Bool × List (Nat × Nat × Bytes) :=
  let rest := l.filter (fun e => !(e.1 == i && e.2.1 == p))
  let full := decide (32 ≤ rest.length)
  (full, (if full then rest.drop 1 else rest) ++ [(i, p, d)])

/-- The half held for a chunk and piece. -/
def heldHalf (l : List (Nat × Nat × Bytes)) (i p : Nat) : Option Bytes :=
  (l.find? (fun e => e.1 == i && e.2.1 == p)).map (·.2.2)

/-- The reply of UPDATE_CHUNK (R445). -/
def chunkReply (s : State) (result disc : Nat) : Bytes :=
  le 1 result ++ le 1 disc ++ le 2 (missing (s.upd.slot s.upd.recvSlot))

/-- A slot with chunk `i` stored: in its own place, or in the next spare one when its own is found not erased. -/
def SlotS.store (x : SlotS) (i : Nat) (c : Bytes) (soiled : Bool) : SlotS :=
  { x with
    chunks := x.chunks ++ [(i, c)]
    spare := if soiled && decide (x.spare.length < 1992) then x.spare ++ [i] else x.spare }

/-- Store chunk `i` (R443); the last one makes the update READY.  Whether its own place is found erased is open (R437). -/
def storeChunk (r : CmdReq) (i disc : Nat) (c : Bytes) (s : State) : State :=
  let n := s.upd.recvSlot
  let s := choose s (fun soiled s => s.modUpd (fun u => u.setSlot n ((u.slot n).store i c soiled)))
  if missing (s.upd.slot n) = 0 then
    finish r 0x0802 0 (chunkReply s 3 disc) (journalUpd 2 n (setUpdState 3 s))
  else finish r 0x0802 0 (chunkReply s 1 disc) s

/-- A half of a chunk not yet stored (R442). -/
def takeHalf (r : CmdReq) (i p : Nat) (d : Bytes) (s : State) : State :=
  let (full, held) := holdHalf s.upd.pieces i p d
  let disc := if full then 1 else 0
  match heldHalf held i 0, heldHalf held i 1 with
  | some a, some b =>
    let s := s.modUpd (fun u => { u with pieces := held.filter (fun e => e.1 != i) })
    if chunkAuth s.upd (s.upd.slot s.upd.recvSlot).header i (a ++ b) then storeChunk r i disc (a ++ b) s
    else finish r 0x0802 0x0D [] s
  | _, _ =>
    let s := s.modUpd (fun u => { u with pieces := held })
    finish r 0x0802 0 (chunkReply s 0 disc) s

/-- UPDATE_CHUNK (R442 to R445). -/
def execUpdateChunk (r : CmdReq) (index piece : Nat) (data : Bytes) (s : State) : Res :=
  let d := sub data 0 (r.plen - 8)
  let stored (s : State) : Option Bytes := ((s.upd.slot s.upd.recvSlot).chunk index).map (fun c => halfOf c piece)
  .next (runCmd
    { op := 0x0802, lenOk := r.plen == 2056 + 16 * min piece 1, priv := fun s => hasMgr s r.iss
      params := fun s => decide (piece ≤ 1) && (s.upd.state == 0 ||
        decide (index < hChunks (s.upd.slot s.upd.recvSlot).header))
      own := fun s => firstFail [
        (s.upd.state != 2 && s.upd.state != 3, 0x09),
        ((stored s).any (fun c => c != d), 0x10)]
      act := fun s =>
        if (stored s).isSome then finish r 0x0802 0 (chunkReply s 2 0) s else takeHalf r index piece d s } r s)

/-! ### Status (R446) -/

/-- Runs of consecutive indices, as first index and count. -/
def ranges : List Nat → List (Nat × Nat)
  | [] => []
  | i :: t =>
    match ranges t with
    | (f, c) :: u => if i + 1 = f then (i, c + 1) :: u else (i, 1) :: (f, c) :: u
    | [] => [(i, 1)]

/-- Epochs left in the trial (R450). -/
def trialLeft (s : State) : Nat := if s.upd.state = 5 then s.upd.trialEnd - s.eraEpoch else 0

/-- Sectors that the erase covers (R440). -/
def eraseSectors (h : Bytes) : Nat := (4096 + hChunks h * 4112 + 65535) / 65536 + 4

/-- The header that UPDATE_STATUS describes: of the image in progress or on trial, or of the running one in IDLE. -/
def statusHeader (s : State) : Bytes :=
  if s.upd.state != 0 then (s.upd.slot s.upd.recvSlot).header
  else if s.upd.running < 2 then (s.upd.slot s.upd.running).header
  else []

/-- The reply of Table UP-3; `image` is VERSION, ARB, CHUNK_COUNT and IMAGE_ID.  UFLAGS[0] is of that image too, in IDLE the
running one (DEDUCED, log entry 78). -/
def statusReply (s : State) (start progress : Nat) (image : Bytes × Bytes) : Bytes :=
  let idle := s.upd.state == 0
  let h := statusHeader s
  let x := s.upd.slot s.upd.recvSlot
  let rs := if idle then [] else ranges (missingFrom x start)
  let told := rs.take 499
  let next := if told.length < rs.length then (told.getLast?.map (fun e => e.1 + e.2)).getD 0 else num image.1 8 4
  let flags := (if expired s h then 1 else 0) + (if s.upd.revertFailed then 2 else 0) +
    (if recovery s then 4 else 0)
  le 1 s.upd.state ++ le 1 (if idle then 0xFF else s.upd.recvSlot) ++ le 1 flags ++ zeros 1 ++
    le 4 (if idle then 0 else missing x) ++ image.1 ++ le 4 progress ++ image.2 ++ le 4 next ++ le 4 told.length ++
    told.flatMap (fun e => le 4 e.1 ++ le 4 e.2)

/-- UPDATE_STATUS's effect.  The sectors still to erase, and the image of a bridge in IDLE that runs none, are open. -/
def statusAct (r : CmdReq) (start : Nat) (s : State) : State :=
  let h := statusHeader s
  let go (progress : Nat) (image : Bytes × Bytes) (s : State) : State :=
    finish r 0x0803 0 (statusReply s start progress image) s
  if s.upd.state = 0 && s.upd.running = 2 then
    draw s (fun v s => go 0 (le 12 v, le 16 (v / 2 ^ 96)) s)
  else
    let image : Bytes × Bytes := (le 4 (hVersion h) ++ le 4 (hArb h) ++ le 4 (hChunks h), hImageId h)
    if s.upd.state = 1 then draw s (fun v s => go (1 + v % eraseSectors h) image s)
    else go (trialLeft s) image s

/-- UPDATE_STATUS (R446). -/
def execUpdateStatus (r : CmdReq) (start : Nat) (s : State) : Res :=
  .next (runCmd { op := 0x0803, lenOk := r.plen == 8, priv := fun _ => isPfOrSmp r.iss, act := statusAct r start } r s)

/-! ### Activation (R448, R449, R456) -/

/-- The row UPDATE_ACTIVATE of Table KP-5. -/
def cmdUpdateActivate (r : CmdReq) : Cmd where
  op := 0x0804
  lenOk := r.plen == 0
  priv := fun s => hasMgr s r.iss
  atOk := true
  own := fun s => firstFail [
    (s.upd.state != 3, 0x09),
    (expired s (s.upd.slot s.upd.recvSlot).header, 0x11)]
  sched := some .updateActivate
  onAccept := setUpdState 4
  act := fun s => nextBoundary 0x0804 .updateActivate r (setUpdState 4 s)

/-- UPDATE_ACTIVATE (R448). -/
def execUpdateActivate (r : CmdReq) (s : State) : Res := .next (runCmd (cmdUpdateActivate r) r s)

/-- The Keeper drains for an activation or a revert (R362). -/
def startDrain (kind : Nat) (s : State) : State :=
  drainEnds (setKState 3 (s.modKeeper (fun k => { k with drainKind := kind })))

/-- The trial slot is recorded (R449 step 1, R450). -/
def recordTrial (s : State) : State :=
  s.modUpd (fun u => { u with
    trial := true, trialBooted := false, revertFailed := false
    trialEnd := s.eraEpoch + hTrial (u.slot u.recvSlot).header })

/-- The replies that wait on a link which takes them are written before the reset (R456 step 1; DEDUCED, log entry 103).
`k` bounds the number of TLPs. -/
def writeReplies : Nat → State → State
  | 0, s => s
  | k + 1, s =>
    let ready (r : HReq) : Bool :=
      (match r.src with | .reply _ => true | _ => false) && linkOpen s r.fn.hl.val && undeliverable s (fnIdx r.fn) == 0
    match s.hostQ.find? ready with
    | some r => writeReplies k (sendTlp r 0 s)
    | none => s

/-- The activation leaves the schedule and goes ahead: in ROM recovery mode by a reset of the die, in which RECOVERY_N is
ignored (R456), else by a drain (R449). -/
def activate (e : Sched) (s : State) : State :=
  let s := showKeeper e.req.iss (s.modKeeper (fun k => { k with sched := k.sched.erase e }))
  if recovery s then
    let s := finishGen e.req 0x0804 0 [] e.ringGen s
    let s := dieReset (recordTrial (writeReplies (32 * s.hostQ.length) s))
    leaveReset 2 (s.modUpd (fun u => { u with keepStrap := true }))
  else
    let s := recordTrial s
    startDrain 1 (s.modKeeper (fun k => { k with waiting := k.waiting ++ [⟨e.req, 0x0804, 0, e.ringGen⟩] }))

/-- An activation whose boundary has come: its checks are made again (R448). -/
def activationDue (e : Sched) (s : State) : State :=
  let n := firstFail [
    (checks5to10 (cmdUpdateActivate e.req) { e.req with atEpoch := false } e.mgr s != 0,
      checks5to10 (cmdUpdateActivate e.req) { e.req with atEpoch := false } e.mgr s),
    (expired s (s.upd.slot s.upd.recvSlot).header, 0x11)]
  if n != 0 then finishGen e.req 0x0804 n [] e.ringGen (unschedule e s) else activate e s

/-- ACTIVATION_BOUNDARY (R448, R449). -/
def execActivationBoundary (s : State) : Res :=
  .next (when (keeperUp s && !draining s) (fun s =>
    match dueSched s (fun e => e.cmd == .updateActivate) with
    | some e => activationDue e s
    | none => s) s)

/-! ### Trial (R450 to R453) -/

/-- TRIAL_END (R451): the epoch boundary at which the trial period ends. -/
def execTrialEnd (s : State) : Res :=
  .next (when (s.upd.state == 5 && decide (s.upd.trialEnd ≤ s.eraEpoch) && keeperUp s && !draining s) (startDrain 2) s)

/-- The trial image is confirmed (R452). -/
def confirm (s : State) : State :=
  let u := s.upd
  let t := u.recvSlot
  let fuse := max u.arbFuse (hArb (u.slot t).header)
  let o := otherSlot t
  let old := u.slot o
  let s := s.modUpd (fun u =>
    { (u.setSlot t { u.slot t with valid := true }).setSlot o { old with valid := old.valid && decide (fuse ≤ hArb old.header) } with
      arbFuse := fuse, active := t, trial := false, trialBooted := false, revertFailed := false })
  let s := setUpdState 0 s
  showFw (journal (.update 4 t (hVersion (s.upd.slot t).header) fuse) s)

/-- UPDATE_CONFIRM (R452). -/
def execUpdateConfirm (r : CmdReq) (s : State) : Res :=
  .next (runCmd
    { op := 0x0805, lenOk := r.plen == 0, priv := fun s => hasMgr s r.iss
      own := fun s => if s.upd.state == 5 then 0 else 9
      act := fun s => finish r 0x0805 0 [] (confirm s) } r s)

/-- An update in delivery is given up (R453). -/
def abandon (s : State) : State :=
  let s := withSome (s.keeper.sched.find? (fun e => e.cmd == .updateActivate)) cancelSched s
  let n := s.upd.recvSlot
  let s := journalUpd 6 n s
  setUpdState 0 (s.modUpd (fun u => { u.setSlot n SlotS.empty with pieces := [], trial := false, trialBooted := false }))

/-- UPDATE_ABORT (R453): in TRIAL it reverts, and is answered after the restart (R451). -/
def execUpdateAbort (r : CmdReq) (s : State) : Res :=
  .next (runCmd
    { op := 0x0806, lenOk := r.plen == 0, priv := fun s => hasMgr s r.iss
      own := fun s => if s.upd.state == 0 then 9 else 0
      act := fun s =>
        if s.upd.state = 5 then startDrain 2 (waitOn r 0x0806 0 s) else finish r 0x0806 0 [] (abandon s) } r s)

end Sys2Proof.Machine
end

