-- ==== Sys2Proof/Machine/Registers.lean ====
section
/-!
DEFINITION. Register accesses: what an offset of a BAR names (R82, R85), what a read shows (R4, R7, R83) and what a write
does (R2 to R6, Tables CF-6, CF-8, DM-8, HL-6, IN-3, KP-11, WL-11, WP-10), and accesses to dark blocks (R421).
-/
namespace Sys2Proof.Machine

/-! ### Places -/

/-- A 32-bit word of a register block: the block, its instance and the offset in it. -/
structure Place where
  blk : Blk
  i : Nat
  off : Nat
  deriving DecidableEq, Repr

/-- The blocks of PF BAR0. -/
def bar0Blks : List Blk :=
  [.devinfo, .ward, .hostlink, .cadence, .clock, .power, .trace, .keeper, .weaseif, .wlane, .tiller, .hub, .outwin, .inwin,
   .intwin, .sheaf, .tenant, .channel, .counters]

/-- The bytes that a block of PF BAR0 takes up.  The table gives a single block no size; one of 64 KiB, the distance of the
closest of them, is taken (DESIGN CHOICE, log entry 30). -/
def blkExtent (b : Blk) : Nat :=
  if b = .counters then 0x2000000 else if b.info.stride = 0 then 0x10000 else b.info.stride * b.info.count

/-- What an offset of PF BAR0 names. -/
def placeBar0 (off : Nat) : Option Place :=
  match bar0Blks.find? (fun b => decide (b.info.base ≤ off) && decide (off < b.info.base + blkExtent b)) with
  | some b =>
    let o := off - b.info.base
    some (if b.info.stride = 0 then ⟨b, 0, o⟩ else ⟨b, o / b.info.stride, o % b.info.stride⟩)
  | none => none

/-- What an offset in a function's CMDRING region names. -/
def placeRing (f o : Nat) : Option Place :=
  if o < 0xC00 then some ⟨.cmdring, f, o⟩ else if o < 0x1000 then some ⟨.fnirq, f, o - 0xC00⟩ else none

/-- The blocks that PF BAR0 decodes in ROM recovery mode (R97). -/
def recoveryBlk (b : Blk) : Bool := ([.devinfo, .ward, .cadence, .clock, .power, .keeper] : List Blk).contains b

/-- What an offset of a BAR of a function names; nothing for the MSI-X tables, the doorbell aliases and what is outside
every block. -/
def place (s : State) (fn : Fn) (bar off : Nat) : Option Place :=
  let f := fnIdx fn
  if fn.vf.val = 0 then
    if bar = 0 then (placeBar0 off).filter (fun p => !recovery s || recoveryBlk p.blk)
    else if bar = 4 && decide (0x10000 ≤ off) then placeRing f (off - 0x10000)
    else none
  else
    match s.boundTn f with
    | some n =>
      if bar = 0 then
        if off < 0x4000 then ((s.ten n).chans[off / 0x100]?).map (fun c => ⟨.channel, c, off % 0x100⟩)
        else if 0x8000 ≤ off && off < 0x8400 then some ⟨.tenant, n, off - 0x8000⟩
        else none
      else if bar = 4 && decide (0x3000 ≤ off) then placeRing f (off - 0x3000)
      else none
    | none => if bar = 4 && decide (0x3000 ≤ off) then placeRing f (off - 0x3000) else none

/-! ### Fields of a word -/

/-- Sub-instances of a field (lanes, groups, classes, domains, banks, links, vectors, destinations). -/
def subCount (f : Fld) : Nat :=
  if f.info.sub = 0 then 1
  else match f.info.blk with
    | .sheaf | .hub | .counters => 8
    | .tiller | .wlane => 4
    | .fnirq => 128
    | .ward => if f.info.sub = 32 then 3 else 16
    | .power => if f = .PW_BANK_SIG then 48 else 26
    | _ => 1

/-- Where the counters of COUNTERS repeat: the first offset, the distance and the number of instances (Table OB-5). -/
def counterRegion (o : Nat) : Nat × Nat × Nat :=
  if o < 0x2000 then (0, 0x40, 96)
  else if o < 0x3000 then (0x2000, 0x40, 32)
  else if o < 0x3400 then (0x3000, 0x40, 8)
  else if o < 0x4000 then (0x3400, 0x40, 1)
  else if o < 0x8000 then (0x4000, 8, 2048)
  else if o < 0x20000 then (0x8000, 0x100, 256)
  else (0x20000, 0x100, 256)

/-- The sub-instance of field `f` whose register holds the word at offset `o`, when there is one. -/
def subAt (f : Fld) (o : Nat) : Option Nat :=
  let x := f.info
  let hit (j : Nat) : Bool := o == x.off + j * x.sub || (decide (32 < x.width) && o == x.off + j * x.sub + 4)
  let j := if x.sub = 0 then 0 else (o - x.off) / x.sub
  if x.off ≤ o && j < subCount f && hit j then some j else none

/-- The fields of the register that holds the word at a place, each with its key. -/
def fieldsAt (p : Place) : List RegKey :=
  if p.blk = .counters then
    let (first, step, n) := counterRegion p.off
    let i := (p.off - first) / step
    if n ≤ i then []
    else (Fld.all.filter (fun f => f.info.blk = .counters && counterRegion f.info.off == (first, step, n))).filterMap
      (fun f => (subAt f (first + (p.off - first) % step)).map (fun j => ⟨f, i, j⟩))
  else (Fld.all.filter (fun f => f.info.blk = p.blk)).filterMap (fun f => (subAt f p.off).map (fun j => ⟨f, p.i, j⟩))

/-- The domain of a place (R421); none in PD_AON. -/
def placeDomain (p : Place) : Option Nat :=
  match fieldsAt p with
  | k :: _ => keyDomain k
  | [] => match p.blk with
    | .devinfo | .ward | .cadence | .clock | .power | .dvsec => none
    | .keeper => some dKeep
    | .hub | .tenant | .trace => some dHub
    | .hostlink => some (dTl (p.i / 4))
    | .weaseif => some (dTl (p.i / 12))
    | .tiller => some (dTl p.i)
    | .outwin => some (dTl (p.i / 256))
    | .inwin | .intwin | .channel => some (dTl (p.i / 128))
    | .sheaf => some (dTl (p.i / 32))
    | .fnirq | .cmdring => some (dTl (p.i / 2048))
    | .wlane => some (dWphy (p.i / 12))
    | .counters => none

/-- The block at a place is dark. -/
def placeDark (s : State) (p : Place) : Option Nat := (placeDomain p).filter (fun d => !s.domOn d)

/-! ### Reads -/

/-- What a read of a field shows (R4, Table HL-6, Table PW-3): write-only fields read 0, so do those of an absent link but
for HP_CFG and LTSSM, and PENDING and KEEPER_WAIT show the condition of the moment. -/
def readField (s : State) (k : RegKey) : Nat :=
  if k.f.info.acc = .wo then 0
  else if k.f.info.blk = .hostlink && !s.present k.i && k.f.info.off != 0 && k.f != .HL_LTSSM then 0
  else if k.f = .PW_PENDING then (if pendingDom s (fun _ => false) k.j then 1 else 0)
  else if k.f = .KR_KEEPER_WAIT then (if keeperWaits s then 1 else 0)
  else s.rd k.f k.i k.j

/-- A word of the image of Table OB-3 that the TRACE block shows, FLAGS[1] read 0 (R474). -/
def filterWord (f : TraceFilter) (w : Nat) : Nat :=
  if w = 0 then f.classEn
  else if w = 1 then (if f.stop then 1 else 0)
  else if w < 10 then f.tenants / 2 ^ (32 * (w - 2)) % 2 ^ 32
  else if w < 13 then f.wlinks / 2 ^ (32 * (w - 10)) % 2 ^ 32
  else if w = 13 then f.hlinks
  else 0

/-- What a read of the register that holds a word shows, before R83.  The block of a channel that is not allotted reads 0 in
every view (R246). -/
def readReg (s : State) (p : Place) : Nat :=
  if p.blk = .channel && !s.on .CH_ALLOTTED p.i then 0
  else if decide (p.blk = .trace) && decide (0x40 ≤ p.off) && decide (p.off < 0x80) then filterWord s.trace.filter ((p.off - 0x40) / 4)
  else (fieldsAt p).foldl (fun v k => v + readField s k * 2 ^ k.f.info.lsb) 0

/-- The host link that a tenant is presented on, none for a PENDING one; no entry where there is no tenant. -/
def tenantLink (s : State) (n : Nat) : List (Option Nat) :=
  if s.tnState n = 0 then [] else [if s.tnState n = 5 then none else some (s.rd .TN_HL n)]

/-- The host link that the tenant of a sheaf's destination is presented on; no entry for a PF's. -/
def destLink (s : State) (i d : Nat) : List (Option Nat) :=
  if s.rd .SH_DEST_COUNT i ≤ d || s.on .SH_TO_PF i d then [] else tenantLink s (s.rd .SH_TNID i d)

/-- The host links that the tenants of a sheaf are presented on. -/
def sheafLinks (s : State) (i : Nat) : List (Option Nat) := (List.range 8).flatMap (destLink s i)

/-- The host links that the tenants of a place are presented on; nothing for a place that belongs to no tenant (R83).  A sheaf,
and the window in front of it, belongs to each of the tenants it leads to: it is read by the PF of any of their links
(DEDUCED, log entry 37). -/
def placeLinks (s : State) (p : Place) : List (Option Nat) :=
  let tn := tenantLink s
  let out (i : Nat) : List (Option Nat) :=
    if s.on .OW_SHEAF i then sheafLinks s (s.rd .OW_TNID i) else if s.on .OW_TO_PF i then [] else tn (s.rd .OW_TNID i)
  match p.blk with
  | .tenant => tn p.i
  | .channel => if s.on .CH_ALLOTTED p.i then tn (s.rd .CH_TNID p.i) else []
  | .outwin => out p.i
  | .intwin => if s.on .NW_TO_PF p.i then [] else tn (s.rd .NW_TNID p.i)
  | .inwin => match s.boundTn (s.rd .IW_HL p.i * 512 + s.rd .IW_FUNC p.i) with
    | some n => tn n
    | none => []
  | .sheaf => sheafLinks s p.i
  | .counters =>
    if 0x20000 ≤ p.off then tn ((p.off - 0x20000) / 0x100)
    else if 0x8000 ≤ p.off then destLink s ((p.off - 0x8000) / 0x100) ((p.off - 0x8000) % 0x100 / 32)
    else if 0x4000 ≤ p.off then out ((p.off - 0x4000) / 8)
    else []
  | _ => []

/-- A PF other than the manager reads 0 from what belongs to tenants not presented on its own link (R83). -/
def hidden (s : State) (fn : Fn) (p : Place) : Bool :=
  let ls := placeLinks s p
  fn.vf.val == 0 && !s.isMgr (fnIdx fn) && !ls.isEmpty && !ls.contains (some fn.hl.val)

/-- The latch of a function and block (R7).  'Block' is read as one instance of a row of Table CF-6, such as the HOSTLINK block
of one link, and COUNTERS, which has no instances, as one block (DESIGN CHOICE, log entry 38). -/
def latchOf (s : State) (f : Nat) (k : RegKey) : Option Latch :=
  s.latches.find? (fun l => l.fn == f && l.key.f.info.blk == k.f.info.blk && (l.key.i == k.i || k.f.info.blk == .counters))

/-- What a 32-bit read of the high word of a 64-bit register returns (R7). -/
def highWord (s : State) (f : Nat) (k : RegKey) : Nat :=
  match (latchOf s f k).filter (fun l => l.key == k) with
  | some l => l.high
  | none => s.rd k.f k.i k.j / 2 ^ 32

/-- The 64-bit register that a place lies in. -/
def wideAt (p : Place) : Option RegKey := (fieldsAt p).find? (fun k => decide (32 < k.f.info.width))

/-- What a 32-bit read of the word at a place shows (R4, R7, R83): of a 64-bit register the low word, or the high word as the
latch has it. -/
def readPlace (s : State) (fn : Fn) (p : Place) : Nat :=
  let f := fnIdx fn
  match (wideAt p).filter (fun _ => p.off % 8 == 4) with
  | some k => if hidden s fn p && !((latchOf s f k).any (fun l => l.key == k)) then 0 else highWord s f k % 2 ^ 32
  | none => if hidden s fn p then 0 else readReg s p % 2 ^ 32

/-- Load a latch. -/
def setLatch (l : Latch) (s : State) : State :=
  let other (m : Latch) : Bool :=
    !(m.fn == l.fn && m.key.f.info.blk == l.key.f.info.blk && (m.key.i == l.key.i || l.key.f.info.blk == .counters))
  { s with latches := s.latches.filter other ++ [l] }

/-- A read of CAD_STAMP_LO takes a stamp and latches its upper half into CAD_STAMP_HI (R28, Table CD-8). -/
def stampRead (p : Place) (s : State) : State :=
  when (decide (p = ⟨.cadence, 0, 0x18⟩)) (fun s =>
    let s := advance s
    s.wr .CAD_STAMP_HI (s.stamp / 2 ^ 32)) s

/-- A low-word read of the register at a place: a 64-bit register loads the latch. -/
def lowRead (fn : Fn) (p : Place) (s : State) : State :=
  let s := stampRead p s
  match wideAt p with
  | some k =>
    when (p.off % 8 == 0)
      (setLatch ⟨fnIdx fn, k, if hidden s fn p then 0 else s.rd k.f k.i k.j / 2 ^ 32⟩) s
  | none => s

/-- The MSI-X table entry and word that an offset of BAR4 names. -/
def msixAt (fn : Fn) (bar off : Nat) : Option (Nat × Nat) :=
  if bar = 4 && decide (off < (if fn.vf.val = 0 then 512 else 2048)) then some (off / 16, off % 16 / 4) else none

/-- What a read of a word of an MSI-X table entry shows: message address and data, and the mask bit (R318). -/
def readMsix (s : State) (f v w : Nat) : Nat :=
  if s.rd .FI_VEC_COUNT f ≤ v then 0
  else
    let e := s.vec f v
    match w with
    | 0 => e.addr % 2 ^ 32
    | 1 => e.addr / 2 ^ 32 % 2 ^ 32
    | 2 => e.data
    | _ => if e.masked then 1 else 0

/-- The word of the MSI-X pending bit array that an offset of BAR4 names: 8 bytes of a PF at 0x8000, 16 bytes of a VF at
0x2000 (Table CF-8). -/
def pbaAt (fn : Fn) (bar off : Nat) : Option Nat :=
  let b := if fn.vf.val = 0 then 0x8000 else 0x2000
  if bar = 4 && decide (b ≤ off) && decide (off < b + (if fn.vf.val = 0 then 8 else 16)) then some ((off - b) / 4) else none

/-- What a read of a word of the pending bit array shows: one bit for each vector of the function. -/
def readPba (s : State) (f w : Nat) : Nat :=
  ((List.range 32).map (fun b =>
    let v := 32 * w + b
    if decide (v < s.rd .FI_VEC_COUNT f) && (s.vec f v).pba then 2 ^ b else 0)).sum

/-- What a 32-bit read at an offset of a BAR that is not dark shows; 0 where nothing is listed (R83, R85, R86). -/
def readWord (s : State) (fn : Fn) (bar off : Nat) : Nat :=
  match msixAt fn bar off, pbaAt fn bar off, place s fn bar off with
  | some (v, w), _, _ => readMsix s (fnIdx fn) v w
  | none, some w, _ => readPba s (fnIdx fn) w
  | none, none, some p => readPlace s fn p
  | none, none, none => 0

/-- What a 64-bit read at an offset of a BAR that is not dark shows (R2, R7): a 64-bit register as it stands, or two words. -/
def readPair (s : State) (fn : Fn) (bar off : Nat) : Nat :=
  match (place s fn bar off).filter (fun p => (wideAt p).isSome && p.off % 8 == 0) with
  | some p => if hidden s fn p then 0 else readReg s p % 2 ^ 64
  | none => readWord s fn bar off + readWord s fn bar (off + 4) * 2 ^ 32

/-- A register access with `n` bytes of payload arrives on its function's link, which is no longer idle (R53, R54, Table OB-5). -/
def accessIn (fn : Fn) (n : Nat) (s : State) : State := when (s.dlUp fn.hl.val) (rxTlp fn.hl.val n) s

/-- The completion of a read of a register region leaves on its function's link (R54, R57). -/
def accessOut (fn : Fn) (bar off status : Nat) (data : Bytes) (s : State) : State :=
  let h := fn.hl.val
  emit (.reg fn bar off status data) (when (s.dlUp h) (fun s => txTlp h data.length (readyTlp h s)) s)

/-- The bridge completes an access to a function's BARs with UR: one that R2 does not admit, or any to a VF that no tenant is
bound to (R2, R73). -/
def accessUr (s : State) (fn : Fn) (off size : Nat) : Bool :=
  !((size == 4 || size == 8) && off % size == 0) || (fn.vf.val != 0 && (s.boundTn (fnIdx fn)).isNone)

/-- A read is completed with UR and not applied. -/
def answerUr (fn : Fn) (bar off : Nat) : State → State := accessOut fn bar off 1 []

/-- The dark domain that an offset of a BAR names (R421): that of its place, or of the MSI-X table and pending bits, which lie in the
tiller of the function's link (Table PW-7). -/
def darkAt (s : State) (fn : Fn) (bar off : Nat) (p : Option Place) : Option Nat :=
  if (msixAt fn bar off).isSome || (pbaAt fn bar off).isSome then
    some (dTl (hlTiller fn.hl.val)) |>.filter (fun d => !s.domOn d)
  else p.bind (placeDark s)

/-- A read of `n` bytes that a dark block answers (R421): all bits 1. -/
def darkRead (fn : Fn) (bar off n d : Nat) (s : State) : State :=
  darkHit d (fnIdx fn) 1 off (accessOut fn bar off 0 (le n (2 ^ (8 * n) - 1)) s)

/-- A 32-bit read that has arrived (R4, R7, R73, R83, R85, R421): it shows the word and, of the low word of a 64-bit register,
loads the latch. -/
def read32 (fn : Fn) (bar off : Nat) (s : State) : State :=
  match darkAt s fn bar off (place s fn bar off) with
  | some d => darkRead fn bar off 4 d s
  | none =>
    let s := withSome (place s fn bar off) (lowRead fn) s
    accessOut fn bar off 0 (le 4 (readWord s fn bar off)) s

/-- A 64-bit read that has arrived (R7, R421): one consistent value, and no latch is loaded. -/
def read64 (fn : Fn) (bar off : Nat) (s : State) : State :=
  match darkAt s fn bar off (place s fn bar off) with
  | some d => darkRead fn bar off 8 d s
  | none =>
    let s := withSome (place s fn bar off) stampRead s
    accessOut fn bar off 0 (le 8 (readPair s fn bar off)) s

/-- LOW_WORD_READ (R2, R7): a 32-bit read.  One of a host link that withholds credit does not arrive (R204). -/
def execLowWordRead (fn : Fn) (bar : Fin 8) (off : Nat) (s : State) : Res :=
  .next (when (!inboundFull s fn.hl.val) (fun s =>
    let s := accessIn fn 0 s
    if accessUr s fn off 4 then answerUr fn bar.val off s else read32 fn bar.val off s) s)

/-! ### Writes -/

/-- What a command of a row leaves, for a register write that acts as that row. -/
def after (r : State → Res) (s : State) : State :=
  match r s with
  | .next t => t
  | _ => s

/-- The LOCK bit of a block's instance. -/
def lockOf (b : Blk) : Option Fld :=
  match b with
  | .cadence => some .CAD_LOCK
  | .hostlink => some .HL_LOCK
  | .wlane => some .WP_LOCK
  | .weaseif => some .WL_LOCK
  | _ => none

/-- The RWL fields of a block's instance are frozen (R6). -/
def locked (s : State) (b : Blk) (i : Nat) : Bool := (lockOf b).any (fun f => s.on f i)

/-- The part of a written word that a field takes. -/
def fieldPart (f : Fld) (v : Nat) : Nat := v / 2 ^ f.info.lsb % 2 ^ f.info.width

/-- A write of a field acts as its access code defines (Table SC-3); a write-only field acts through its row. -/
def storeField (v : Nat) (k : RegKey) (s : State) : State :=
  let x := fieldPart k.f v
  match k.f.info.acc with
  | .rw => s.wr k.f x k.i k.j
  | .rwl => if locked s k.f.info.blk k.i then s else s.wr k.f x k.i k.j
  | .w1c => s.wr k.f (s.rd k.f k.i k.j - (s.rd k.f k.i k.j &&& x)) k.i k.j
  | .w1s => if x = 0 then s else s.wr k.f (s.rd k.f k.i k.j ||| x) k.i k.j
  | _ => s

/-- The fields whose writes do more than Table SC-3 says: they act through their rows. -/
def ownRow (f : Fld) : Bool :=
  ([.CAD_EN, .CAD_SRC, .HL_HOLD, .WP_DISABLE, .WP_LOOPBACK, .WP_STBY_IDLE, .WP_TARGET_RATE, .WP_GEN, .WP_CHK, .WP_INJ_MODE, .WL_REPLAY_LIMIT, .WL_RESHAPE_SET, .CH_EN,
    .CH_VEC_HALF, .CH_HALF_EN, .CH_VEC_FULL, .CH_FULL_EN, .CH_VEC_ERR, .CH_ERR_EN, .FI_FN_EVENT_EN, .FI_MOD_TICKS, .KR_EN,
    .KR_CMD_PI, .KR_RPL_CI, .CK_SEL, .CK_DIV] : List Fld).contains f

/-- The field takes no write now: the ring bases while EN is 1 (R328), and the PF-only vectors of a VF (Table IN-3). -/
def shut (s : State) (k : RegKey) : Bool :=
  (([.KR_CMD_BASE_LO, .KR_CMD_BASE_HI, .KR_RPL_BASE_LO, .KR_RPL_BASE_HI] : List Fld).contains k.f && s.on .KR_EN k.i) ||
    (([.FI_VEC_WARD, .FI_VEC_HOSTLINK, .FI_VEC_CADENCE, .FI_VEC_TENANT] : List Fld).contains k.f && fnVf k.i != 0)

/-- The fields of a word that have no row of their own: all but LOCK, which comes last. -/
def putPlain (p : Place) (v : Nat) (s : State) : State :=
  each ((fieldsAt p).filter (fun k => !ownRow k.f && k.f.info.acc != .w1s && !shut s k)) (storeField v) s

/-- Bits of a written word. -/
def bits (v lo n : Nat) : Nat := v / 2 ^ lo % 2 ^ n

/-- What a written word does through the rows of its fields, in the blocks of PF BAR0.  A field that the write leaves as it
is does nothing. -/
def putRows (fn : Fn) (p : Place) (v : Nat) (s : State) : State :=
  let i := p.i
  let wl : Wl := ⟨i % 96, Nat.mod_lt _ (by decide)⟩
  let hl : Hl := ⟨i % 32, Nat.mod_lt _ (by decide)⟩
  let ch : Chan := ⟨i % 1024, Nat.mod_lt _ (by decide)⟩
  let lane : Fin 4 := ⟨(p.off / 0x100 - 1) % 4, Nat.mod_lt _ (by decide)⟩
  let four (n : Nat) : Fin 4 := ⟨n % 4, Nat.mod_lt _ (by decide)⟩
  match p.blk, p.off with
  | .cadence, 0x0 => after (execCadSrcChange fn (v.testBit 1)) (after (execCadEnChange fn (v.testBit 0)) s)
  | .hostlink, 0x4 =>
    let s := when (s.on .HL_HOLD i != v.testBit 8) (after (execHlHoldWrite fn hl (v.testBit 8))) s
    when (v.testBit 9) (after (execHlRetrainWrite fn hl)) s
  | .wlane, 0x0 =>
    let s := when (s.on .WP_DISABLE i != v.testBit 8) (after (execWlaneDisableWrite fn wl (v.testBit 8))) s
    let s := setStbyIdle i (v.testBit 11) s
    let s := when (!locked s .wlane i) (setTargetRate i (bits v 0 2)) s
    let s := when (s.rd .WP_LOOPBACK i != bits v 12 2 || bits v 12 2 == 1 || bits v 12 2 == 2)
      (after (execLoopbackWrite fn wl (four (bits v 12 2)))) s
    when (v.testBit 9) (after (execWlaneTrainWrite fn wl)) s
  | .weaseif, 0x0 =>
    if bits v 0 4 = 0 then after (execReplayLimitZeroWrite fn wl) s else storeField v ⟨.WL_REPLAY_LIMIT, i, 0⟩ s
  | .weaseif, 0x10 =>
    let s := if v.testBit 4 then after (execReshapeGoWrite fn wl ⟨v % 16, Nat.mod_lt _ (by decide)⟩) s
      else storeField v ⟨.WL_RESHAPE_SET, i, 0⟩ s
    when (v.testBit 5) (after (execWlLinkResetWrite fn wl)) s
  | .channel, 0x0 => if v.testBit 0 then after (execChannelEnable fn ch) s else after (execChannelDisable fn ch) s
  | .channel, 0x8 => after (execChIrqEnableWrite fn ch (BitVec.ofNat 24 v)) s
  | .channel, 0xC => after (execChannelDoorbell fn ch) s
  | .clock, 0x20 =>
    after (execClkobsWrite fn ⟨bits v 16 8 % 256, Nat.mod_lt _ (by decide)⟩ ⟨bits v 0 13 % 8192, Nat.mod_lt _ (by decide)⟩) s
  | .clock, 0x30 => when (v.testBit 8) (after (execFreqCountStart fn ⟨v % 256, Nat.mod_lt _ (by decide)⟩)) s
  | .fnirq, 0x4 => after (execFnEventEnWrite fn (BitVec.ofNat 14 v)) s
  | .cmdring, 0x0 => after (execRingEnWrite fn (v.testBit 0)) s
  | .cmdring, 0x18 => after (execCmdPiWrite fn (BitVec.ofNat 16 v)) s
  | .cmdring, 0x24 => after (execRplCiWrite fn (BitVec.ofNat 16 v)) s
  | .wlane, o =>
    if decide (0x100 ≤ o) && decide (o < 0x500) && o % 0x100 == 0xC then
      let k := lane.val
      let s := when (s.rd .WP_GEN i k != bits v 0 2 || s.rd .WP_CHK i k != bits v 2 2)
        (after (execLanePrbsWrite fn wl lane (four (bits v 0 2)) (four (bits v 2 2)))) s
      let s := setInjMode i k (bits v 4 2) s
      let s := when (v.testBit 22) (after (execCntClr fn wl lane)) s
      let s := when (v.testBit 7) (after (execInjStop fn wl lane)) s
      when (v.testBit 6) (after (execInjGo fn wl lane)) s
    else s
  | .fnirq, o =>
    if decide (0x100 ≤ o) && decide (o < 0x300) then
      after (execModTicksWrite fn ⟨(o - 0x100) / 4 % 128, Nat.mod_lt _ (by decide)⟩ ⟨v % 256, Nat.mod_lt _ (by decide)⟩) s
    else s
  | _, _ => s

/-- A write of a word reaches its block: the fields without a row, then the rows (R6); CADENCE_OUT follows CAD_CTRL (R31). -/
def writeReg (fn : Fn) (p : Place) (v : Nat) (s : State) : State :=
  let was := cadOutKind s
  let s := putRows fn p v (putPlain p v s)
  when (decide (p = ⟨.cadence, 0, 0⟩)) (showCadOut was) s

/-- The LOCK bit that a written word carries: it freezes the block from the next access on (R6). -/
def writeLock (p : Place) (v : Nat) (s : State) : State :=
  each ((fieldsAt p).filter (fun k => k.f.info.acc == .w1s)) (storeField v) s

/-- A write to a block takes effect (R83, R85, R247, R378): the manager's in PF BAR0, a tenant's in its own channels, any
function's in its own CMDRING and FNIRQ; none in the block of an absent link. -/
def mayWrite (s : State) (fn : Fn) (p : Place) : Bool :=
  match p.blk with
  | .cmdring | .fnirq => fnWrites s fn
  | .channel => chanWrites s fn p.i
  | .hostlink => mgrWrites s fn && s.present p.i
  | .tenant => fn.vf.val == 0 && mgrWrites s fn
  | _ => mgrWrites s fn

/-- A write to the MSI-X table (R318, R323): entry `v`, word `w`.  An unmasked vector that is pending sends its message. -/
def writeMsix (fn : Fn) (v w x : Nat) (s : State) : State :=
  let f := fnIdx fn
  if !fnWrites s fn || s.react || s.rd .FI_VEC_COUNT f ≤ v then s
  else match w with
    | 0 => s.modVec f v (fun e => { e with addr := e.addr / 2 ^ 32 * 2 ^ 32 + x / 4 * 4 })
    | 1 => s.modVec f v (fun e => { e with addr := e.addr % 2 ^ 32 + x * 2 ^ 32 })
    | 2 => s.modVec f v (fun e => { e with data := x })
    | _ =>
      if x.testBit 0 then s.modVec f v (fun e => { e with masked := true })
      else if (s.vec f v).masked then after (execMsixUnmask fn ⟨v % 128, Nat.mod_lt _ (by decide)⟩) s
      else s

/-- What a write names: the doorbell aliases of a VF stand for its channels' doorbells (Table CF-8). -/
def writePlace (s : State) (fn : Fn) (bar off : Nat) : Option Place :=
  if fn.vf.val != 0 && bar == 0 && decide (0x4000 ≤ off) && decide (off < 0x4100)
  then place s fn 0 ((off - 0x4000) / 4 * 0x100 + 0xC) else place s fn bar off

/-- A 32-bit write to a block that is not dark. -/
def writeWord (fn : Fn) (bar off v : Nat) (s : State) : State :=
  match msixAt fn bar off, writePlace s fn bar off with
  | some (e, w), _ => writeMsix fn e w v s
  | none, some p => when (mayWrite s fn p) (writeReg fn p v) s
  | none, none => s

/-- The words of a write access of `n` words: their offsets and values. -/
def wordsOf (off n v : Nat) : List (Nat × Nat) := (List.range n).map (fun k => (off + 4 * k, v / 2 ^ (32 * k) % 2 ^ 32))

/-- The LOCK bits of the words of an access, which may write where `s0` says so. -/
def lockWord (s0 : State) (fn : Fn) (bar : Nat) (w : Nat × Nat) (s : State) : State :=
  withSome ((writePlace s0 fn bar w.1).filter (mayWrite s0 fn)) (fun p => writeLock p w.2) s

/-- What a write to a dark WLANE block does beside being discarded: LOOPBACK is accepted while the link is DISABLED, whether or
not its domain is ON (R178; DEDUCED, log entry 63). -/
def darkLoopback (fn : Fn) (p : Option Place) (v : Nat) (s : State) : State :=
  withSome (p.filter (fun p => p.blk == .wlane && p.off == 0)) (fun p =>
    after (execLoopbackWrite fn ⟨p.i % 96, Nat.mod_lt _ (by decide)⟩ ⟨v / 2 ^ 12 % 4, Nat.mod_lt _ (by decide)⟩)) s

/-- A write access: of `n` words, from the low one; LOCK takes effect behind the whole access (R6). -/
def writeAccess (fn : Fn) (bar off n v : Nat) (s : State) : State :=
  match darkAt s fn bar off (writePlace s fn bar off) with
  | some d => darkLoopback fn (writePlace s fn bar off) v (darkHit d (fnIdx fn) 2 off s)
  | none =>
    each (wordsOf off n v) (lockWord s fn bar) (each (wordsOf off n v) (fun w => writeWord fn bar w.1 w.2) s)

/-- REGISTER_WRITE (R2, R4, R73): a 64-bit write is that of both words.  An access that R2 does not admit, and one to a VF that
no tenant is bound to, is completed with UR and not applied. -/
def execRegisterWrite (a : RegAccess) (s : State) : Res :=
  .next (when (!inboundFull s a.fn.hl.val) (fun s =>
    let s := accessIn a.fn a.size s
    if accessUr s a.fn a.off a.size then emit (.reg a.fn a.bar.val a.off 1 []) s
    else writeAccess a.fn a.bar.val a.off (a.size / 4) a.value s) s)

/-- The offset in PF BAR0 of the register that holds a block's LOCK bit. -/
def lockReg : LockBlk → Nat
  | .cadence => Blk.cadence.info.base
  | .hostlink h => Blk.hostlink.info.base + h.val * 0x1000 + 4
  | .wlane n => Blk.wlane.info.base + n.val * 0x800
  | .weaseif n => Blk.weaseif.info.base + n.val * 0x1000

/-- LOCK_SET (R6): a write that sets LOCK applies the RWL fields it carries, then freezes them. -/
def execLockSet (fn : Fn) (blk : LockBlk) (value : BitVec 32) (s : State) : Res :=
  .next (when (value.toNat.testBit 31 && !inboundFull s fn.hl.val)
    (fun s => writeAccess fn 0 (lockReg blk) 1 value.toNat (accessIn fn 4 s)) s)

/-- DARK_ACCESS (R421, R7): a read shows all bits 1 of a dark block; of any other it is a read of its size, 64-bit reads among
them, which no row of the table has (DESIGN CHOICE, log entry 82).  A write to a block that is not dark is no event of this
row. -/
def execDarkAccess (a : RegAccess) (write : Bool) (s : State) : Res :=
  .next (when (!inboundFull s a.fn.hl.val) (fun s =>
    if write then
      if accessUr s a.fn a.off a.size then emit (.reg a.fn a.bar.val a.off 1 []) (accessIn a.fn a.size s)
      else withSome (darkAt s a.fn a.bar.val a.off (writePlace s a.fn a.bar.val a.off))
        (fun d s => darkHit d (fnIdx a.fn) 2 a.off (accessIn a.fn a.size s)) s
    else
      let s := accessIn a.fn 0 s
      if accessUr s a.fn a.off a.size then answerUr a.fn a.bar.val a.off s
      else if a.size = 8 then read64 a.fn a.bar.val a.off s
      else read32 a.fn a.bar.val a.off s) s)

end Sys2Proof.Machine
end

