-- ==== Sys2Proof/Machine/Manage.lean ====
section
/-!
DEFINITION. The Keeper's commands of information, authority, the configuration store and Weaseif links (R344 to R349, R354
to R357), and the execution of scheduled commands (R337).
-/
namespace Sys2Proof.Machine

/-! ### Scheduled commands -/

/-- The row of Table KP-5 of a command that waits for its boundary; none for those whose boundary has a row of its own
(LOG_HARVEST, TENANT_FREEZE, CADENCE_ANCHOR, UPDATE_ACTIVATE). -/
def schedCmd (e : Sched) : Option Cmd :=
  let r := { e.req with atEpoch := false }
  match e.cmd with
  | .tenantModify p => some (cmdTenantModify r p)
  | .outwinSet i w => some (cmdOutwin r i w)
  | .inwinSet i w => some (cmdInwin r i w)
  | .intwinSet i w => some (cmdIntwin r i w)
  | .sheafSet i m => some (cmdSheaf r i m)
  | .tenantThaw => some (cmdTenantThaw r)
  | .pdSet d st f => some (cmdPdSet r d st f)
  | .tillerReset t => some (cmdTillerReset r t)
  | .traceFilter p => some (cmdTraceFilter r p)
  | .logHarvest | .tenantFreeze | .cadenceAnchor _ _ | .updateActivate => none

/-- SCHEDULED_COMMAND_EXEC (R337, R367): the first command, in the order of acceptance, whose boundary has come. -/
def execScheduledCommandExec (s : State) : Res :=
  .next (when (keeperUp s) (fun s =>
    match dueSched s (fun e => (schedCmd e).isSome) with
    | some e => withSome (schedCmd e) (fun c => runSched c e) s
    | none => s) s)

/-! ### Information (R344, R345) -/

/-- FW_OTHER: the version of the image in the slot that is not active, 0 if that slot is not valid. -/
def fwOther (u : UpdS) : Nat :=
  let x := u.slot (recvOf u)
  if x.valid then hVersion x.header else 0

/-- SLOT: the active slot. -/
def slotByte (u : UpdS) : Nat := if u.active < 2 then u.active else 0xFF

/-- The 64 bytes of Table KP-6. -/
def deviceInfoReply (s : State) (i : Issuer) : Bytes :=
  let flags := (if hasMgr s i then 1 else 0) + (if decide (i = .smp) then 2 else 0) + (if s.react then 4 else 0) +
    (if s.store.smpTake then 8 else 0)
  le 2 0x1D5E ++ le 2 (if recovery s then 0x80FE else 0x8096) ++ le 1 0xB0 ++ le 1 (fwState s) ++
    le 1 (slotByte s.upd) ++ le 1 flags ++ le 4 s.upd.fwVersion ++ le 4 (fwOther s.upd) ++ le 8 s.upd.dsn ++
    le 4 (s.presentHls.foldl setBit 0) ++ le 1 (managerByte s) ++ le 1 (s.rd .DEV_DEVID) ++ le 1 (s.rd .CAD_STATE) ++
    zeros 1 ++ le 2 s.era ++ zeros 2 ++ le 4 (trialLeft s) ++ le 4 (s.rd .PW_ON_MAP) ++ le 4 (s.rd .WD_JR_NEWEST) ++
    zeros 16

/-- DEVICE_INFO (R344). -/
def execDeviceInfo (r : CmdReq) (s : State) : Res :=
  .next (runCmd { op := 0x0101, lenOk := r.plen == 0, priv := fun _ => true
                  act := fun s => finish r 0x0101 0 (deviceInfoReply s r.iss) s } r s)

/-- The directory of an issuer: its link's as served, its tenant's view (R96), or for SMP the manager's view. -/
def issuerDir (s : State) : Issuer → Bytes
  | .fn f =>
    if f.vf.val = 0 then (s.hl f.hl.val).dir
    else match s.boundTn (fnIdx f) with
      | some n => tenantDir s n
      | none => []
  | .smp => linkDir s s.keeper.mgrHl (s.rd .DEV_DIR_GEN) true

/-- The newest snapshot of an issuer. -/
def snapshotOf (s : State) (i : Issuer) : Option Bytes :=
  (s.keeper.snapshots.find? (fun e => e.1 == ringIdx i)).map (·.2)

/-- What DIRECTORY_READ reads from: at OFFSET 0 a new snapshot, else the newest. -/
def snapshotAt (s : State) (i : Issuer) (offset : Nat) : Option Bytes :=
  if offset = 0 then some (issuerDir s i) else snapshotOf s i

/-- DIRECTORY_READ (R345). -/
def execDirectoryRead (r : CmdReq) (offset : Nat) (s : State) : Res :=
  .next (runCmd
    { op := 0x0102, lenOk := r.plen == 8, priv := fun _ => true
      own := fun s =>
        match snapshotAt s r.iss offset with
        | some d => if d.length ≤ offset then 5 else 0
        | none => 9
      act := fun s => withSome (snapshotAt s r.iss offset) (fun d s =>
        let s := s.modKeeper (fun k => { k with
          snapshots := k.snapshots.filter (fun e => e.1 != ringIdx r.iss) ++ [(ringIdx r.iss, d)] })
        finish r 0x0102 0 (le 4 d.length ++ le 4 offset ++ (d.drop offset).take 4032) s) s } r s)

/-! ### Authority and the configuration store (R347 to R349, R354) -/

/-- Manager authority moves. -/
def moveMgr (hl : Nat) (smp : Bool) (s : State) : State :=
  let old := managerByte s
  let was := mgrLink s
  let s := showMgr (s.modKeeper (fun k => { k with mgrHl := if smp then 0 else hl, mgrSmp := smp }))
  dirChange was.toList (journal (.manager (managerByte s) old) s)

/-- MGR_HANDOVER (R347). -/
def execMgrHandover (r : CmdReq) (new policy : Nat) (s : State) : Res :=
  let smp := new.testBit 7
  let hl := new % 32
  .next (runCmd
    { op := 0x0110, lenOk := r.plen == 4
      priv := fun s => hasMgr s r.iss || (decide (r.iss = .smp) && s.store.smpTake)
      params := fun _ => decide (new < 256) && new / 32 % 4 == 0 && decide (policy < 256) && policy / 2 % 64 == 0
      own := fun s => if smp || (s.present hl && s.dlUp hl) then 0 else 9
      act := fun s =>
        let s := when (policy.testBit 7) (fun s => s.modStore (fun c => { c with smpTake := policy.testBit 0 })) s
        moveMgr hl smp (finish r 0x0110 0 (le 1 (if smp then 128 else hl) ++ zeros 3) s) } r s)

/-- The pieces of an incomplete image are discarded. -/
def dropPieces (s : State) : State := s.modKeeper (fun k => { k with exprom := [], expromTotal := 0, expromEpoch := 0 })

/-- A piece of an expansion ROM image is taken (R348); the last one makes it image 1. -/
def takePiece (r : CmdReq) (offset total : Nat) (d : Bytes) (s : State) : State :=
  let img := (if offset = 0 then [] else s.keeper.exprom) ++ d
  let s :=
    if img.length = total then (dropPieces s).modStore (fun c => { c with rom := img })
    else s.modKeeper (fun k => { k with exprom := img, expromTotal := total, expromEpoch := s.eraEpoch })
  finish r 0x0120 0 (le 4 img.length) s

/-- EXPROM_STORE (R348). -/
def execExpromStore (r : CmdReq) (offset total : Nat) (data : Bytes) (s : State) : Res :=
  let d := sub data 0 (r.plen - 8)
  .next (runCmd
    { op := 0x0120, lenOk := decide (8 ≤ r.plen) && decide (r.plen ≤ 4064), priv := fun s => hasMgr s r.iss
      own := fun s => firstFail [
        (offset != 0 && (offset != s.keeper.exprom.length || total != s.keeper.expromTotal), 0x05),
        (decide (total < offset + d.length), 0x05),
        (decide (524288 < total), 0x12)]
      act := takePiece r offset total d } r s)

/-- EXPROM_PIECES_EXPIRE (R348): 64 epochs without a further piece. -/
def execExpromPiecesExpire (s : State) : Res :=
  .next (when (s.keeper.expromTotal != 0 && decide (s.keeper.expromEpoch + 64 ≤ s.eraEpoch)) dropPieces s)

/-- SUBSYS_SET (R349). -/
def execSubsysSet (r : CmdReq) (vendor id : Nat) (s : State) : Res :=
  .next (runCmd
    { op := 0x0121, lenOk := r.plen == 4, priv := fun s => hasMgr s r.iss
      act := fun s => finish r 0x0121 0 []
        (s.modStore (fun c => { c with subsysVendor := vendor % 2 ^ 16, subsysId := id % 2 ^ 16 })) } r s)

/-- The links that a bifurcation makes absent (Table HL-1). -/
def absentUnder (port bifur : Nat) : List Nat :=
  ((List.range 4).filter (fun k => !(k == 0 || bifur == 2 || (bifur == 1 && k == 2)))).map (4 * port + ·)

/-- HPORT_CONFIG's effect (R44): stored, and shown as what the next reset of PD_TLp applies.  CFG_PENDING compares the target
speed with HL_CTRL.TARGET_SPEED. -/
def hportAct (port bifur clkmode speed : Nat) (s : State) : State :=
  let s := s.modStore (fun c => { c with
    bifur := tset 0 c.bifur port bifur, clkmode := tset 0 c.clkmode port clkmode, speed := tset 6 c.speed port speed })
  each [0, 1, 2, 3] (fun k s =>
    let h := 4 * port + k
    let differs := s.rd .HL_BIFUR h != bifur || s.rd .HL_CLKMODE h != clkmode || s.rd .HL_TARGET_SPEED h != speed
    ((s.wr .HL_BIFUR_NEXT bifur h).wr .HL_CLKMODE_NEXT clkmode h).wr .HL_CFG_PENDING (if differs then 1 else 0) h) s

/-- HPORT_CONFIG (R354). -/
def execHportConfig (r : CmdReq) (port bifur clkmode speed : Nat) (s : State) : Res :=
  .next (runCmd
    { op := 0x0401, lenOk := r.plen == 4, priv := fun s => hasMgr s r.iss
      params := fun _ => decide (port ≤ 7) && decide (bifur ≤ 2) && decide (clkmode ≤ 2) && decide (1 ≤ speed) &&
        decide (speed ≤ 6)
      own := fun s =>
        if (absentUnder port bifur).any (fun h => mgrLink s == some h || tget 0 s.store.totalVfs h != 0) then 9 else 0
      act := fun s => finish r 0x0401 0 [] (hportAct port bifur clkmode speed s) } r s)

/-! ### Weaseif links (R355 to R357) -/

/-- The value of a SELECT bit, and whether it lies in its field's range (Table KP-7). -/
def wlinkVal (p : WlinkParams) : Nat → Nat × Bool
  | 0 => (p.targetRate, decide (p.targetRate ≤ 3))
  | 1 => (p.minWidth, decide (p.minWidth ≤ 3))
  | 2 => (p.laneEn, decide (p.laneEn ≤ 15))
  | 3 => (p.disable, decide (p.disable ≤ 1))
  | 4 => (p.peer, decide (p.peer ≤ 1))
  | 5 => (p.replayLimit, decide (1 ≤ p.replayLimit) && decide (p.replayLimit ≤ 15))
  | 6 => (p.replayTo, decide (1 ≤ p.replayTo) && decide (p.replayTo ≤ 64))
  | 7 => (p.grace, decide (p.grace ≤ 100000))
  | 8 => (p.errLimit, decide (p.errLimit ≤ 65535))
  | 9 => (p.errWindow, decide (1 ≤ p.errWindow) && decide (p.errWindow ≤ 1024))
  | 10 => (p.lrspTo, decide (1 ≤ p.lrspTo) && decide (p.lrspTo ≤ 65535))
  | 11 => (p.reshapeTo, decide (1 ≤ p.reshapeTo) && decide (p.reshapeTo ≤ 65535))
  | _ => (0, false)

/-- The SELECT bits set. -/
def wlinkSel (p : WlinkParams) : List Nat := (List.range 16).filter (fun b => p.select.testBit b)

/-- The block of a SELECT bit is dark: WLANE for the first five, PD_TL for the others. -/
def wlinkDark (s : State) (n b : Nat) : Bool := !s.domOn (if b < 5 then dWphy (wlTiller n) else dTl (wlTiller n))

/-- The registers of a domain stand: it is ON, HELD or in RET, or wakes from RET. -/
def regsStand (s : State) (d : Nat) : Bool :=
  [1, 2, 4].contains (s.rd .PW_STATE 0 d) || (s.rd .PW_STATE 0 d == 3 && (s.dom d).fromRet)

/-- A SELECT bit's field is held by a LOCK bit that is set, also in a block that is dark and keeps its registers. -/
def wlinkLocked (s : State) (n b : Nat) : Bool :=
  if b < 5 then b != 3 && s.on .WP_LOCK n && regsStand s (dWphy (wlTiller n))
  else decide (b < 10) && s.on .WL_LOCK n && regsStand s (dTl (wlTiller n))

/-- A selected field takes effect as its register does, and is stored with PERSIST. -/
def wlinkPut (p : WlinkParams) (b : Nat) (s : State) : State :=
  let n := p.link
  let v := (wlinkVal p b).1
  let s := when (p.persist == 1) (fun s => s.modStore (fun c => { c with
    wlink := c.wlink.filter (fun e => !(e.1 == n && e.2.1 == b)) ++ [(n, b, v)] })) s
  if wlinkDark s n b then s
  else if b = 3 then when (s.rd .WP_DISABLE n != v) (setDisable n (v == 1)) s
  else if b = 0 then setTargetRate n v s
  else putWlCfg n b v s

/-- WLINK_CONFIG (R355). -/
def execWlinkConfig (r : CmdReq) (p : WlinkParams) (s : State) : Res :=
  .next (runCmd
    { op := 0x0410, lenOk := r.plen == 24, priv := fun s => hasMgr s r.iss
      params := fun _ => decide (p.link < 96) && decide (p.persist ≤ 1) && (wlinkSel p).all (fun b => (wlinkVal p b).2)
      dark := fun s => p.persist == 0 && (wlinkSel p).any (fun b => wlinkDark s p.link b)
      own := fun s => if (wlinkSel p).any (wlinkLocked s p.link) then 9 else 0
      act := fun s => finish r 0x0410 0 [] (each (wlinkSel p) (wlinkPut p) s) } r s)

/-- WLINK_RESET (R356). -/
def execWlinkReset (r : CmdReq) (link : Nat) (s : State) : Res :=
  .next (runCmd
    { op := 0x0411, lenOk := r.plen == 4, priv := fun s => hasMgr s r.iss, params := fun _ => decide (link < 96)
      dark := fun s => !s.tlOn (wlTiller link)
      act := fun s => finish r 0x0411 0 [] (linkReset link s) } r s)

/-- WLINK_RESHAPE (R356): a write of RESHAPE_SET and RESHAPE_GO.  It replies in the step that hands LANE_REQ to the link: R336 does not
list it among the commands whose reply waits (DEDUCED, log entry 72). -/
def execWlinkReshape (r : CmdReq) (link set : Nat) (s : State) : Res :=
  .next (runCmd
    { op := 0x0412, lenOk := r.plen == 4, priv := fun s => hasMgr s r.iss
      params := fun _ => decide (link < 96) && decide (set < 16)
      dark := fun s => !s.tlOn (wlTiller link)
      own := fun s => if s.rd .WL_LSTATE link == 2 && !s.on .WL_RESHAPE_BUSY link then 0 else 9
      act := fun s => finish r 0x0412 0 [] (startReshape link set (s.wr .WL_RESHAPE_SET set link)) } r s)

/-- The 64 bytes of Table KP-8. -/
def wlinkInfoReply (s : State) (n : Nat) : Bytes :=
  let w := s.wl n
  le 1 (s.rd .WL_LSTATE n) ++ le 1 (s.rd .WP_STATE n) ++ le 1 (s.rd .WP_CUR_RATE n) ++ le 1 (s.rd .WL_ACTIVE_SET n) ++
    le 1 ((if w.ident.isSome then 1 else 0) + (if s.on .WP_PARTNER_PEER n then 2 else 0)) ++ zeros 3 ++ le 2 w.lrspTo ++
    le 2 (s.rd .WL_RESHAPE_TO n) ++ le 4 (s.rd .WL_GRACE n) ++
    (match w.ident with | some p => sub p.payload 0 32 | none => zeros 32) ++ le 2 w.linkId ++ le 2 w.peerLinkId ++ zeros 12

/-- WLINK_INFO (R357). -/
def execWlinkInfo (r : CmdReq) (link : Nat) (s : State) : Res :=
  .next (runCmd
    { op := 0x0413, lenOk := r.plen == 4, priv := fun _ => isPfOrSmp r.iss, params := fun _ => decide (link < 96)
      dark := fun s => !s.tlOn (wlTiller link) || !s.domOn (dWphy (wlTiller link))
      act := fun s => finish r 0x0413 0 (wlinkInfoReply s link) s } r s)

end Sys2Proof.Machine
end

