-- ==== Sys2Proof/Machine/Dispatch.lean ====
section
/-!
DEFINITION. The meaning of every command, one arm for each row of the table.
-/
namespace Sys2Proof.Machine

/-- The effect of a command on everything but the queue. -/
def exec (i : Instr) (s : State) : Host.Outcome State Fault Refusal :=
  match i with
  | .registerWrite a => Sys2Proof.Machine.execRegisterWrite a s
  | .lockSet fn blk value => Sys2Proof.Machine.execLockSet fn blk value s
  | .lowWordRead fn bar off => Sys2Proof.Machine.execLowWordRead fn bar off s
  | .darkAccess a write => Sys2Proof.Machine.execDarkAccess a write s
  | .cmdPiWrite fn v => Sys2Proof.Machine.execCmdPiWrite fn v s
  | .ringEnWrite fn en => Sys2Proof.Machine.execRingEnWrite fn en s
  | .rplCiWrite fn v => Sys2Proof.Machine.execRplCiWrite fn v s
  | .commandFetch => Sys2Proof.Machine.execCommandFetch s
  | .scheduledCommandExec => Sys2Proof.Machine.execScheduledCommandExec s
  | .nop r => Sys2Proof.Machine.execNop r s
  | .deviceInfo r => Sys2Proof.Machine.execDeviceInfo r s
  | .directoryRead r offset => Sys2Proof.Machine.execDirectoryRead r offset s
  | .cmdCancel r tag => Sys2Proof.Machine.execCmdCancel r tag s
  | .mgrHandover r new policy => Sys2Proof.Machine.execMgrHandover r new policy s
  | .expromStore r offset total data => Sys2Proof.Machine.execExpromStore r offset total data s
  | .expromPiecesExpire => Sys2Proof.Machine.execExpromPiecesExpire s
  | .subsysSet r vendor id => Sys2Proof.Machine.execSubsysSet r vendor id s
  | .tenantCreate r p => Sys2Proof.Machine.execTenantCreate r p s
  | .tenantModify r p => Sys2Proof.Machine.execTenantModify r p s
  | .tenantReset r => Sys2Proof.Machine.execTenantReset r s
  | .tenantDestroy r => Sys2Proof.Machine.execTenantDestroy r s
  | .tenantQuery r => Sys2Proof.Machine.execTenantQuery r s
  | .vfAllot r hl bar2Log2 totalVfs initialVfs => Sys2Proof.Machine.execVfAllot r hl bar2Log2 totalVfs initialVfs s
  | .runaheadSet r region base size => Sys2Proof.Machine.execRunaheadSet r region base size s
  | .outwinSet r index w => Sys2Proof.Machine.execOutwinSet r index w s
  | .inwinSet r index w => Sys2Proof.Machine.execInwinSet r index w s
  | .intwinSet r index w => Sys2Proof.Machine.execIntwinSet r index w s
  | .sheafSet r index img => Sys2Proof.Machine.execSheafSet r index img s
  | .hportConfig r port bifur clkmode speed => Sys2Proof.Machine.execHportConfig r port bifur clkmode speed s
  | .wlinkConfig r p => Sys2Proof.Machine.execWlinkConfig r p s
  | .wlinkReset r link => Sys2Proof.Machine.execWlinkReset r link s
  | .wlinkReshape r link set => Sys2Proof.Machine.execWlinkReshape r link set s
  | .wlinkInfo r link => Sys2Proof.Machine.execWlinkInfo r link s
  | .logConfig r p => Sys2Proof.Machine.execLogConfig r p s
  | .logHarvest r => Sys2Proof.Machine.execLogHarvest r s
  | .tenantFreeze r => Sys2Proof.Machine.execTenantFreeze r s
  | .tenantThaw r => Sys2Proof.Machine.execTenantThaw r s
  | .tenantSave r offset => Sys2Proof.Machine.execTenantSave r offset s
  | .tenantRestore r offset flags data => Sys2Proof.Machine.execTenantRestore r offset flags data s
  | .cadenceAnchor r hl taiOffset => Sys2Proof.Machine.execCadenceAnchor r hl taiOffset s
  | .anchorBoundary => Sys2Proof.Machine.execAnchorBoundary s
  | .ptmResponse ptmNs rttNs => Sys2Proof.Machine.execPtmResponse ptmNs rttNs s
  | .ptmTimeout => Sys2Proof.Machine.execPtmTimeout s
  | .clockSwitch r selector source => Sys2Proof.Machine.execClockSwitch r selector source s
  | .clockMeasure r ckid gate count => Sys2Proof.Machine.execClockMeasure r ckid gate count s
  | .pdSet r dom state flags => Sys2Proof.Machine.execPdSet r dom state flags s
  | .padRelease r dom => Sys2Proof.Machine.execPadRelease r dom s
  | .bankTest r bank failOffset => Sys2Proof.Machine.execBankTest r bank failOffset s
  | .tillerReset r tiller => Sys2Proof.Machine.execTillerReset r tiller s
  | .updateBegin r hdr => Sys2Proof.Machine.execUpdateBegin r hdr s
  | .updateChunk r index piece data => Sys2Proof.Machine.execUpdateChunk r index piece data s
  | .updateStatus r start => Sys2Proof.Machine.execUpdateStatus r start s
  | .updateActivate r => Sys2Proof.Machine.execUpdateActivate r s
  | .updateConfirm r => Sys2Proof.Machine.execUpdateConfirm r s
  | .updateAbort r => Sys2Proof.Machine.execUpdateAbort r s
  | .traceFilter r p => Sys2Proof.Machine.execTraceFilter r p s
  | .traceStream r p => Sys2Proof.Machine.execTraceStream r p s
  | .traceRead r start => Sys2Proof.Machine.execTraceRead r start s
  | .faultRead r => Sys2Proof.Machine.execFaultRead r s
  | .faultClear r mask => Sys2Proof.Machine.execFaultClear r mask s
  | .faultRelease r => Sys2Proof.Machine.execFaultRelease r s
  | .faultInject r p => Sys2Proof.Machine.execFaultInject r p s
  | .faultConfig r p => Sys2Proof.Machine.execFaultConfig r p s
  | .journalRead r start => Sys2Proof.Machine.execJournalRead r start s
  | .keeperWatchdog => Sys2Proof.Machine.execKeeperWatchdog s
  | .drainTimeout => Sys2Proof.Machine.execDrainTimeout s
  | .keeperRestartDone => Sys2Proof.Machine.execKeeperRestartDone s
  | .smpWrite len packet crc => Sys2Proof.Machine.execSmpWrite len packet crc s
  | .smpRead => Sys2Proof.Machine.execSmpRead s
  | .smpStatus => Sys2Proof.Machine.execSmpStatus s
  | .smpCsAbort op => Sys2Proof.Machine.execSmpCsAbort op s
  | .cadencePulse widthNs interval edge => Sys2Proof.Machine.execCadencePulse widthNs interval edge s
  | .slewEnd => Sys2Proof.Machine.execSlewEnd s
  | .tickBoundary => Sys2Proof.Machine.execTickBoundary s
  | .epochBoundary => Sys2Proof.Machine.execEpochBoundary s
  | .checkpointOverdue => Sys2Proof.Machine.execCheckpointOverdue s
  | .coastingOnset => Sys2Proof.Machine.execCoastingOnset s
  | .acquireTimeout => Sys2Proof.Machine.execAcquireTimeout s
  | .cadEnChange fn en => Sys2Proof.Machine.execCadEnChange fn en s
  | .cadSrcChange fn src => Sys2Proof.Machine.execCadSrcChange fn src s
  | .cadNominalWrite fn v => Sys2Proof.Machine.execCadNominalWrite fn v s
  | .powerOnReset => Sys2Proof.Machine.execPowerOnReset s
  | .porRelease up => Sys2Proof.Machine.execPorRelease up s
  | .resetNAssert => Sys2Proof.Machine.execResetNAssert s
  | .resetNRelease straps => Sys2Proof.Machine.execResetNRelease straps s
  | .romBoot found => Sys2Proof.Machine.execRomBoot found s
  | .bootClockTimeout => Sys2Proof.Machine.execBootClockTimeout s
  | .perstAssert hl => Sys2Proof.Machine.execPerstAssert hl s
  | .perstDeassert hl => Sys2Proof.Machine.execPerstDeassert hl s
  | .hotResetReceived hl => Sys2Proof.Machine.execHotResetReceived hl s
  | .dlDown hl => Sys2Proof.Machine.execDlDown hl s
  | .linkDisable hl => Sys2Proof.Machine.execLinkDisable hl s
  | .linkDisableEnd hl => Sys2Proof.Machine.execLinkDisableEnd hl s
  | .detectEntry hl => Sys2Proof.Machine.execDetectEntry hl s
  | .dlUp hl width flit reversed => Sys2Proof.Machine.execDlUp hl width flit reversed s
  | .pfReady hl => Sys2Proof.Machine.execPfReady hl s
  | .refclkLost port => Sys2Proof.Machine.execRefclkLost port s
  | .hlHoldWrite fn hl hold => Sys2Proof.Machine.execHlHoldWrite fn hl hold s
  | .hlRetrainWrite fn hl => Sys2Proof.Machine.execHlRetrainWrite fn hl s
  | .speedChange hl speed eqOk => Sys2Proof.Machine.execSpeedChange hl speed eqOk s
  | .l0pPartnerRequest hl width => Sys2Proof.Machine.execL0pPartnerRequest hl width s
  | .l0pHalve hl => Sys2Proof.Machine.execL0pHalve hl s
  | .l0pRestore hl => Sys2Proof.Machine.execL0pRestore hl s
  | .aspmL1Entry hl ask => Sys2Proof.Machine.execAspmL1Entry hl ask s
  | .l1Exit hl => Sys2Proof.Machine.execL1Exit hl s
  | .ltrActive hl => Sys2Proof.Machine.execLtrActive hl s
  | .ltrNoRequirement hl => Sys2Proof.Machine.execLtrNoRequirement hl s
  | .configRequest fn hostTag op => Sys2Proof.Machine.execConfigRequest fn hostTag op s
  | .vfEnableSet hl => Sys2Proof.Machine.execVfEnableSet hl s
  | .vfReady hl => Sys2Proof.Machine.execVfReady hl s
  | .vfEnableClear hl => Sys2Proof.Machine.execVfEnableClear hl s
  | .flr fn => Sys2Proof.Machine.execFlr fn s
  | .busMasterClear fn => Sys2Proof.Machine.execBusMasterClear fn s
  | .busMasterSet fn => Sys2Proof.Machine.execBusMasterSet fn s
  | .d3hotEntry hl => Sys2Proof.Machine.execD3hotEntry hl s
  | .d0Return hl => Sys2Proof.Machine.execD0Return hl s
  | .numvfsWrite hl v => Sys2Proof.Machine.execNumvfsWrite hl v s
  | .rebarSizeWrite hl v => Sys2Proof.Machine.execRebarSizeWrite hl v s
  | .msixUnmask fn v => Sys2Proof.Machine.execMsixUnmask fn v s
  | .inboundRequest m => Sys2Proof.Machine.execInboundRequest m s
  | .expromRead hl offset len hostTag => Sys2Proof.Machine.execExpromRead hl offset len hostTag s
  | .hostReadIssue hl pos tag => Sys2Proof.Machine.execHostReadIssue hl pos tag s
  | .hostTlpIssue hl pos => Sys2Proof.Machine.execHostTlpIssue hl pos s
  | .hostCompletion c => Sys2Proof.Machine.execHostCompletion c s
  | .completionTimeout fn tag => Sys2Proof.Machine.execCompletionTimeout fn tag s
  | .quarantineExpiry fn tag => Sys2Proof.Machine.execQuarantineExpiry fn tag s
  | .localMwr wl p => Sys2Proof.Machine.execLocalMwr wl p s
  | .sheafLagExceeded sheaf d => Sys2Proof.Machine.execSheafLagExceeded sheaf d s
  | .localMrd wl p => Sys2Proof.Machine.execLocalMrd wl p s
  | .localAtom wl p => Sys2Proof.Machine.execLocalAtom wl p s
  | .localInterruptMsg wl p => Sys2Proof.Machine.execLocalInterruptMsg wl p s
  | .peerDoorbell wl p => Sys2Proof.Machine.execPeerDoorbell wl p s
  | .identReceived wl p => Sys2Proof.Machine.execIdentReceived wl p s
  | .localResponse wl p => Sys2Proof.Machine.execLocalResponse wl p s
  | .lrspTimeout wl tag => Sys2Proof.Machine.execLrspTimeout wl tag s
  | .partnerClockStable wl => Sys2Proof.Machine.execPartnerClockStable wl s
  | .ts2Exchanged wl blocks => Sys2Proof.Machine.execTs2Exchanged wl blocks s
  | .ts3Echoed wl rate set => Sys2Proof.Machine.execTs3Echoed wl rate set s
  | .switchDone wl => Sys2Proof.Machine.execSwitchDone wl s
  | .fastConfirmed wl => Sys2Proof.Machine.execFastConfirmed wl s
  | .trainAttemptTimeout wl => Sys2Proof.Machine.execTrainAttemptTimeout wl s
  | .partnerClockLost wl => Sys2Proof.Machine.execPartnerClockLost wl s
  | .phyRetrain wl => Sys2Proof.Machine.execPhyRetrain wl s
  | .partnerRetrain wl => Sys2Proof.Machine.execPartnerRetrain wl s
  | .retrainDone wl rate set => Sys2Proof.Machine.execRetrainDone wl rate set s
  | .wlaneDisableWrite fn wl v => Sys2Proof.Machine.execWlaneDisableWrite fn wl v s
  | .wlaneTrainWrite fn wl => Sys2Proof.Machine.execWlaneTrainWrite fn wl s
  | .loopbackWrite fn wl v => Sys2Proof.Machine.execLoopbackWrite fn wl v s
  | .lanePrbsWrite fn wl lane gen chk => Sys2Proof.Machine.execLanePrbsWrite fn wl lane gen chk s
  | .prbsSyncGain wl lane => Sys2Proof.Machine.execPrbsSyncGain wl lane s
  | .prbsSyncLoss wl lane bits errors => Sys2Proof.Machine.execPrbsSyncLoss wl lane bits errors s
  | .cntClr fn wl lane => Sys2Proof.Machine.execCntClr fn wl lane s
  | .injGo fn wl lane => Sys2Proof.Machine.execInjGo fn wl lane s
  | .injStop fn wl lane => Sys2Proof.Machine.execInjStop fn wl lane s
  | .alignmentBlockSend wl => Sys2Proof.Machine.execAlignmentBlockSend wl s
  | .alignmentBlockReceive wl blocks => Sys2Proof.Machine.execAlignmentBlockReceive wl blocks s
  | .backgroundTrainPass wl run => Sys2Proof.Machine.execBackgroundTrainPass wl run s
  | .backgroundTrainFail wl lane => Sys2Proof.Machine.execBackgroundTrainFail wl lane s
  | .grainReceived wl g => Sys2Proof.Machine.execGrainReceived wl g s
  | .ackSend wl => Sys2Proof.Machine.execAckSend wl s
  | .linkPacketSend wl pos tag => Sys2Proof.Machine.execLinkPacketSend wl pos tag s
  | .replayTimeout wl => Sys2Proof.Machine.execReplayTimeout wl s
  | .initReceived wl b => Sys2Proof.Machine.execInitReceived wl b s
  | .initTimeout wl => Sys2Proof.Machine.execInitTimeout wl s
  | .graceExpiry wl => Sys2Proof.Machine.execGraceExpiry wl s
  | .wlLinkResetWrite fn wl => Sys2Proof.Machine.execWlLinkResetWrite fn wl s
  | .haltReceived wl => Sys2Proof.Machine.execHaltReceived wl s
  | .reshapeGoWrite fn wl set => Sys2Proof.Machine.execReshapeGoWrite fn wl set s
  | .laneReq wl id set => Sys2Proof.Machine.execLaneReq wl id set s
  | .laneAck wl id => Sys2Proof.Machine.execLaneAck wl id s
  | .laneNak wl id reason => Sys2Proof.Machine.execLaneNak wl id reason s
  | .laneReady wl id => Sys2Proof.Machine.execLaneReady wl id s
  | .reshapeTimeout wl => Sys2Proof.Machine.execReshapeTimeout wl s
  | .channelDoorbell fn ch => Sys2Proof.Machine.execChannelDoorbell fn ch s
  | .channelEnable fn ch => Sys2Proof.Machine.execChannelEnable fn ch s
  | .channelDisable fn ch => Sys2Proof.Machine.execChannelDisable fn ch s
  | .channelRetry ch => Sys2Proof.Machine.execChannelRetry ch s
  | .channelDrained ch => Sys2Proof.Machine.execChannelDrained ch s
  | .tenantResetComplete tn => Sys2Proof.Machine.execTenantResetComplete tn s
  | .tenantPendingDrained tn => Sys2Proof.Machine.execTenantPendingDrained tn s
  | .freezePoint tn => Sys2Proof.Machine.execFreezePoint tn s
  | .freezeQuiesced tn => Sys2Proof.Machine.execFreezeQuiesced tn s
  | .harvestBoundary tn => Sys2Proof.Machine.execHarvestBoundary tn s
  | .harvestDone tn => Sys2Proof.Machine.execHarvestDone tn s
  | .holdoffEnd fn v => Sys2Proof.Machine.execHoldoffEnd fn v s
  | .modTicksWrite fn v ticks => Sys2Proof.Machine.execModTicksWrite fn v ticks s
  | .fnEventEnWrite fn v => Sys2Proof.Machine.execFnEventEnWrite fn v s
  | .chIrqEnableWrite fn ch v => Sys2Proof.Machine.execChIrqEnableWrite fn ch v s
  | .errorLineEvent e => Sys2Proof.Machine.execErrorLineEvent e s
  | .faultMinwExpiry => Sys2Proof.Machine.execFaultMinwExpiry s
  | .faultInEvent widthNs => Sys2Proof.Machine.execFaultInEvent widthNs s
  | .journalAppend => Sys2Proof.Machine.execJournalAppend s
  | .journalEraseDone => Sys2Proof.Machine.execJournalEraseDone s
  | .clockMonitorTrip ckid => Sys2Proof.Machine.execClockMonitorTrip ckid s
  | .froReady => Sys2Proof.Machine.execFroReady s
  | .sourceReady ckid => Sys2Proof.Machine.execSourceReady ckid s
  | .pllReady ckid => Sys2Proof.Machine.execPllReady ckid s
  | .clockSwitchDone selector => Sys2Proof.Machine.execClockSwitchDone selector s
  | .forcedClockSwitch selector => Sys2Proof.Machine.execForcedClockSwitch selector s
  | .freqCountStart fn ckid => Sys2Proof.Machine.execFreqCountStart fn ckid s
  | .freqCountEnd edges => Sys2Proof.Machine.execFreqCountEnd edges s
  | .clkobsWrite fn sel div => Sys2Proof.Machine.execClkobsWrite fn sel div s
  | .wakeStepReady dom badBanks => Sys2Proof.Machine.execWakeStepReady dom badBanks s
  | .wakeStepTimeout dom => Sys2Proof.Machine.execWakeStepTimeout dom s
  | .vinLow mv => Sys2Proof.Machine.execVinLow mv s
  | .eraseDone => Sys2Proof.Machine.execEraseDone s
  | .activationBoundary => Sys2Proof.Machine.execActivationBoundary s
  | .trialEnd => Sys2Proof.Machine.execTrialEnd s
  | .traceRecordAppend source => Sys2Proof.Machine.execTraceRecordAppend source s
  | .streamBatchWrite => Sys2Proof.Machine.execStreamBatchWrite s
  | .streamResume => Sys2Proof.Machine.execStreamResume s
  | .jtagTracePtr number => Sys2Proof.Machine.execJtagTracePtr number s
  | .jtagTraceData => Sys2Proof.Machine.execJtagTraceData s
  | .jtagIdcode => Sys2Proof.Machine.execJtagIdcode s
  | .jtagSamplePreload pins => Sys2Proof.Machine.execJtagSamplePreload pins s
  | .jtagPadDrive instr => Sys2Proof.Machine.execJtagPadDrive instr s
  | .refclkRestored port => Sys2Proof.Machine.execRefclkRestored port s
  | .laneMarginingCommand hl lane command => Sys2Proof.Machine.execLaneMarginingCommand hl lane command s
  | .l2Entry hl => Sys2Proof.Machine.execL2Entry hl s
  | .replayLimitZeroWrite fn wl => Sys2Proof.Machine.execReplayLimitZeroWrite fn wl s

end Sys2Proof.Machine
end

