-- ==== Sys2Proof/Laws/PerInstr.lean ====
section
/-!
SUPPORT. One lemma per command: a well-formed command of the Keeper carries a well-formed header, whose fields fit Table
KP-1.
-/
namespace Sys2Proof.Laws

/-- The header of a Keeper command; the other rows carry none (Table KP-1). -/
def header : Instr → Option CmdReq
  | .registerWrite _ => none
  | .lockSet _ _ _ => none
  | .lowWordRead _ _ _ => none
  | .darkAccess _ _ => none
  | .cmdPiWrite _ _ => none
  | .ringEnWrite _ _ => none
  | .rplCiWrite _ _ => none
  | .commandFetch => none
  | .scheduledCommandExec => none
  | .nop r => some r
  | .deviceInfo r => some r
  | .directoryRead r _ => some r
  | .cmdCancel r _ => some r
  | .mgrHandover r _ _ => some r
  | .expromStore r _ _ _ => some r
  | .expromPiecesExpire => none
  | .subsysSet r _ _ => some r
  | .tenantCreate r _ => some r
  | .tenantModify r _ => some r
  | .tenantReset r => some r
  | .tenantDestroy r => some r
  | .tenantQuery r => some r
  | .vfAllot r _ _ _ _ => some r
  | .runaheadSet r _ _ _ => some r
  | .outwinSet r _ _ => some r
  | .inwinSet r _ _ => some r
  | .intwinSet r _ _ => some r
  | .sheafSet r _ _ => some r
  | .hportConfig r _ _ _ _ => some r
  | .wlinkConfig r _ => some r
  | .wlinkReset r _ => some r
  | .wlinkReshape r _ _ => some r
  | .wlinkInfo r _ => some r
  | .logConfig r _ => some r
  | .logHarvest r => some r
  | .tenantFreeze r => some r
  | .tenantThaw r => some r
  | .tenantSave r _ => some r
  | .tenantRestore r _ _ _ => some r
  | .cadenceAnchor r _ _ => some r
  | .anchorBoundary => none
  | .ptmResponse _ _ => none
  | .ptmTimeout => none
  | .clockSwitch r _ _ => some r
  | .clockMeasure r _ _ _ => some r
  | .pdSet r _ _ _ => some r
  | .padRelease r _ => some r
  | .bankTest r _ _ => some r
  | .tillerReset r _ => some r
  | .updateBegin r _ => some r
  | .updateChunk r _ _ _ => some r
  | .updateStatus r _ => some r
  | .updateActivate r => some r
  | .updateConfirm r => some r
  | .updateAbort r => some r
  | .traceFilter r _ => some r
  | .traceStream r _ => some r
  | .traceRead r _ => some r
  | .faultRead r => some r
  | .faultClear r _ => some r
  | .faultRelease r => some r
  | .faultInject r _ => some r
  | .faultConfig r _ => some r
  | .journalRead r _ => some r
  | .keeperWatchdog => none
  | .drainTimeout => none
  | .keeperRestartDone => none
  | .smpWrite _ _ _ => none
  | .smpRead => none
  | .smpStatus => none
  | .smpCsAbort _ => none
  | .cadencePulse _ _ _ => none
  | .slewEnd => none
  | .tickBoundary => none
  | .epochBoundary => none
  | .checkpointOverdue => none
  | .coastingOnset => none
  | .acquireTimeout => none
  | .cadEnChange _ _ => none
  | .cadSrcChange _ _ => none
  | .cadNominalWrite _ _ => none
  | .powerOnReset => none
  | .porRelease _ => none
  | .resetNAssert => none
  | .resetNRelease _ => none
  | .romBoot _ => none
  | .bootClockTimeout => none
  | .perstAssert _ => none
  | .perstDeassert _ => none
  | .hotResetReceived _ => none
  | .dlDown _ => none
  | .linkDisable _ => none
  | .linkDisableEnd _ => none
  | .detectEntry _ => none
  | .dlUp _ _ _ _ => none
  | .pfReady _ => none
  | .refclkLost _ => none
  | .hlHoldWrite _ _ _ => none
  | .hlRetrainWrite _ _ => none
  | .speedChange _ _ _ => none
  | .l0pPartnerRequest _ _ => none
  | .l0pHalve _ => none
  | .l0pRestore _ => none
  | .aspmL1Entry _ _ => none
  | .l1Exit _ => none
  | .ltrActive _ => none
  | .ltrNoRequirement _ => none
  | .configRequest _ _ _ => none
  | .vfEnableSet _ => none
  | .vfReady _ => none
  | .vfEnableClear _ => none
  | .flr _ => none
  | .busMasterClear _ => none
  | .busMasterSet _ => none
  | .d3hotEntry _ => none
  | .d0Return _ => none
  | .numvfsWrite _ _ => none
  | .rebarSizeWrite _ _ => none
  | .msixUnmask _ _ => none
  | .inboundRequest _ => none
  | .expromRead _ _ _ _ => none
  | .hostReadIssue _ _ _ => none
  | .hostTlpIssue _ _ => none
  | .hostCompletion _ => none
  | .completionTimeout _ _ => none
  | .quarantineExpiry _ _ => none
  | .localMwr _ _ => none
  | .sheafLagExceeded _ _ => none
  | .localMrd _ _ => none
  | .localAtom _ _ => none
  | .localInterruptMsg _ _ => none
  | .peerDoorbell _ _ => none
  | .identReceived _ _ => none
  | .localResponse _ _ => none
  | .lrspTimeout _ _ => none
  | .partnerClockStable _ => none
  | .ts2Exchanged _ _ => none
  | .ts3Echoed _ _ _ => none
  | .switchDone _ => none
  | .fastConfirmed _ => none
  | .trainAttemptTimeout _ => none
  | .partnerClockLost _ => none
  | .phyRetrain _ => none
  | .partnerRetrain _ => none
  | .retrainDone _ _ _ => none
  | .wlaneDisableWrite _ _ _ => none
  | .wlaneTrainWrite _ _ => none
  | .loopbackWrite _ _ _ => none
  | .lanePrbsWrite _ _ _ _ _ => none
  | .prbsSyncGain _ _ => none
  | .prbsSyncLoss _ _ _ _ => none
  | .cntClr _ _ _ => none
  | .injGo _ _ _ => none
  | .injStop _ _ _ => none
  | .alignmentBlockSend _ => none
  | .alignmentBlockReceive _ _ => none
  | .backgroundTrainPass _ _ => none
  | .backgroundTrainFail _ _ => none
  | .grainReceived _ _ => none
  | .ackSend _ => none
  | .linkPacketSend _ _ _ => none
  | .replayTimeout _ => none
  | .initReceived _ _ => none
  | .initTimeout _ => none
  | .graceExpiry _ => none
  | .wlLinkResetWrite _ _ => none
  | .haltReceived _ => none
  | .reshapeGoWrite _ _ _ => none
  | .laneReq _ _ _ => none
  | .laneAck _ _ => none
  | .laneNak _ _ _ => none
  | .laneReady _ _ => none
  | .reshapeTimeout _ => none
  | .channelDoorbell _ _ => none
  | .channelEnable _ _ => none
  | .channelDisable _ _ => none
  | .channelRetry _ => none
  | .channelDrained _ => none
  | .tenantResetComplete _ => none
  | .tenantPendingDrained _ => none
  | .freezePoint _ => none
  | .freezeQuiesced _ => none
  | .harvestBoundary _ => none
  | .harvestDone _ => none
  | .holdoffEnd _ _ => none
  | .modTicksWrite _ _ _ => none
  | .fnEventEnWrite _ _ => none
  | .chIrqEnableWrite _ _ _ => none
  | .errorLineEvent _ => none
  | .faultMinwExpiry => none
  | .faultInEvent _ => none
  | .journalAppend => none
  | .journalEraseDone => none
  | .clockMonitorTrip _ => none
  | .froReady => none
  | .sourceReady _ => none
  | .pllReady _ => none
  | .clockSwitchDone _ => none
  | .forcedClockSwitch _ => none
  | .freqCountStart _ _ => none
  | .freqCountEnd _ => none
  | .clkobsWrite _ _ _ => none
  | .wakeStepReady _ _ => none
  | .wakeStepTimeout _ => none
  | .vinLow _ => none
  | .eraseDone => none
  | .activationBoundary => none
  | .trialEnd => none
  | .traceRecordAppend _ => none
  | .streamBatchWrite => none
  | .streamResume => none
  | .jtagTracePtr _ => none
  | .jtagTraceData => none
  | .jtagIdcode => none
  | .jtagSamplePreload _ => none
  | .jtagPadDrive _ => none
  | .refclkRestored _ => none
  | .laneMarginingCommand _ _ _ => none
  | .l2Entry _ => none
  | .replayLimitZeroWrite _ _ => none

theorem left {a b : Bool} (h : (a && b) = true) : a = true := (Bool.and_eq_true_iff.mp h).1

namespace Wire

/-- A well-formed command's header, where it has one, is well-formed. -/
def Statement (i : Instr) : Prop := i.wf = true → ∀ r, header i = some r → r.wf = true

theorem registerWrite (a : RegAccess) : Statement (.registerWrite a) := fun _ _ h => nomatch h
theorem lockSet (fn : Fn) (blk : LockBlk) (value : BitVec 32) : Statement (.lockSet fn blk value) := fun _ _ h => nomatch h
theorem lowWordRead (fn : Fn) (bar : Fin 8) (off : Nat) : Statement (.lowWordRead fn bar off) := fun _ _ h => nomatch h
theorem darkAccess (a : RegAccess) (write : Bool) : Statement (.darkAccess a write) := fun _ _ h => nomatch h
theorem cmdPiWrite (fn : Fn) (v : BitVec 16) : Statement (.cmdPiWrite fn v) := fun _ _ h => nomatch h
theorem ringEnWrite (fn : Fn) (en : Bool) : Statement (.ringEnWrite fn en) := fun _ _ h => nomatch h
theorem rplCiWrite (fn : Fn) (v : BitVec 16) : Statement (.rplCiWrite fn v) := fun _ _ h => nomatch h
theorem commandFetch : Statement (.commandFetch) := fun _ _ h => nomatch h
theorem scheduledCommandExec : Statement (.scheduledCommandExec) := fun _ _ h => nomatch h
theorem nop (r : CmdReq) : Statement (.nop r) := fun h _ e => Option.some.inj e ▸ h
theorem deviceInfo (r : CmdReq) : Statement (.deviceInfo r) := fun h _ e => Option.some.inj e ▸ h
theorem directoryRead (r : CmdReq) (offset : Nat) : Statement (.directoryRead r offset) := fun h _ e => Option.some.inj e ▸ left (h)
theorem cmdCancel (r : CmdReq) (tag : Nat) : Statement (.cmdCancel r tag) := fun h _ e => Option.some.inj e ▸ left (h)
theorem mgrHandover (r : CmdReq) (new : Nat) (policy : Nat) : Statement (.mgrHandover r new policy) := fun h _ e => Option.some.inj e ▸ left (left (h))
theorem expromStore (r : CmdReq) (offset : Nat) (total : Nat) (data : Bytes) : Statement (.expromStore r offset total data) := fun h _ e => Option.some.inj e ▸ left (left (left (h)))
theorem expromPiecesExpire : Statement (.expromPiecesExpire) := fun _ _ h => nomatch h
theorem subsysSet (r : CmdReq) (vendor : Nat) (id : Nat) : Statement (.subsysSet r vendor id) := fun h _ e => Option.some.inj e ▸ left (left (h))
theorem tenantCreate (r : CmdReq) (p : TenantParams) : Statement (.tenantCreate r p) := fun h _ e => Option.some.inj e ▸ left (h)
theorem tenantModify (r : CmdReq) (p : TenantParams) : Statement (.tenantModify r p) := fun h _ e => Option.some.inj e ▸ left (h)
theorem tenantReset (r : CmdReq) : Statement (.tenantReset r) := fun h _ e => Option.some.inj e ▸ h
theorem tenantDestroy (r : CmdReq) : Statement (.tenantDestroy r) := fun h _ e => Option.some.inj e ▸ h
theorem tenantQuery (r : CmdReq) : Statement (.tenantQuery r) := fun h _ e => Option.some.inj e ▸ h
theorem vfAllot (r : CmdReq) (hl : Nat) (bar2Log2 : Nat) (totalVfs : Nat) (initialVfs : Nat) : Statement (.vfAllot r hl bar2Log2 totalVfs initialVfs) := fun h _ e => Option.some.inj e ▸ left (left (left (left (h))))
theorem runaheadSet (r : CmdReq) (region : Nat) (base : Nat) (size : Nat) : Statement (.runaheadSet r region base size) := fun h _ e => Option.some.inj e ▸ left (left (left (h)))
theorem outwinSet (r : CmdReq) (index : Nat) (w : OutWin) : Statement (.outwinSet r index w) := fun h _ e => Option.some.inj e ▸ left (left (h))
theorem inwinSet (r : CmdReq) (index : Nat) (w : InWin) : Statement (.inwinSet r index w) := fun h _ e => Option.some.inj e ▸ left (left (h))
theorem intwinSet (r : CmdReq) (index : Nat) (w : IntWin) : Statement (.intwinSet r index w) := fun h _ e => Option.some.inj e ▸ left (left (h))
theorem sheafSet (r : CmdReq) (index : Nat) (img : SheafImg) : Statement (.sheafSet r index img) := fun h _ e => Option.some.inj e ▸ left (left (h))
theorem hportConfig (r : CmdReq) (port : Nat) (bifur : Nat) (clkmode : Nat) (speed : Nat) : Statement (.hportConfig r port bifur clkmode speed) := fun h _ e => Option.some.inj e ▸ left (left (left (left (h))))
theorem wlinkConfig (r : CmdReq) (p : WlinkParams) : Statement (.wlinkConfig r p) := fun h _ e => Option.some.inj e ▸ left (h)
theorem wlinkReset (r : CmdReq) (link : Nat) : Statement (.wlinkReset r link) := fun h _ e => Option.some.inj e ▸ left (h)
theorem wlinkReshape (r : CmdReq) (link : Nat) (set : Nat) : Statement (.wlinkReshape r link set) := fun h _ e => Option.some.inj e ▸ left (left (h))
theorem wlinkInfo (r : CmdReq) (link : Nat) : Statement (.wlinkInfo r link) := fun h _ e => Option.some.inj e ▸ left (h)
theorem logConfig (r : CmdReq) (p : LogParams) : Statement (.logConfig r p) := fun h _ e => Option.some.inj e ▸ left (h)
theorem logHarvest (r : CmdReq) : Statement (.logHarvest r) := fun h _ e => Option.some.inj e ▸ h
theorem tenantFreeze (r : CmdReq) : Statement (.tenantFreeze r) := fun h _ e => Option.some.inj e ▸ h
theorem tenantThaw (r : CmdReq) : Statement (.tenantThaw r) := fun h _ e => Option.some.inj e ▸ h
theorem tenantSave (r : CmdReq) (offset : Nat) : Statement (.tenantSave r offset) := fun h _ e => Option.some.inj e ▸ left (h)
theorem tenantRestore (r : CmdReq) (offset : Nat) (flags : Nat) (data : Bytes) : Statement (.tenantRestore r offset flags data) := fun h _ e => Option.some.inj e ▸ left (left (left (h)))
theorem cadenceAnchor (r : CmdReq) (hl : Nat) (taiOffset : Nat) : Statement (.cadenceAnchor r hl taiOffset) := fun h _ e => Option.some.inj e ▸ left (left (h))
theorem anchorBoundary : Statement (.anchorBoundary) := fun _ _ h => nomatch h
theorem ptmResponse (ptmNs : Nat) (rttNs : Nat) : Statement (.ptmResponse ptmNs rttNs) := fun _ _ h => nomatch h
theorem ptmTimeout : Statement (.ptmTimeout) := fun _ _ h => nomatch h
theorem clockSwitch (r : CmdReq) (selector : Nat) (source : Nat) : Statement (.clockSwitch r selector source) := fun h _ e => Option.some.inj e ▸ left (left (h))
theorem clockMeasure (r : CmdReq) (ckid : Nat) (gate : Nat) (count : Nat) : Statement (.clockMeasure r ckid gate count) := fun h _ e => Option.some.inj e ▸ left (left (left (h)))
theorem pdSet (r : CmdReq) (dom : Nat) (state : Nat) (flags : Nat) : Statement (.pdSet r dom state flags) := fun h _ e => Option.some.inj e ▸ left (left (left (h)))
theorem padRelease (r : CmdReq) (dom : Nat) : Statement (.padRelease r dom) := fun h _ e => Option.some.inj e ▸ left (h)
theorem bankTest (r : CmdReq) (bank : Nat) (failOffset : Option Nat) : Statement (.bankTest r bank failOffset) := fun h _ e => Option.some.inj e ▸ left (h)
theorem tillerReset (r : CmdReq) (tiller : Nat) : Statement (.tillerReset r tiller) := fun h _ e => Option.some.inj e ▸ left (h)
theorem updateBegin (r : CmdReq) (hdr : Bytes) : Statement (.updateBegin r hdr) := fun h _ e => Option.some.inj e ▸ left (h)
theorem updateChunk (r : CmdReq) (index : Nat) (piece : Nat) (data : Bytes) : Statement (.updateChunk r index piece data) := fun h _ e => Option.some.inj e ▸ left (left (left (h)))
theorem updateStatus (r : CmdReq) (start : Nat) : Statement (.updateStatus r start) := fun h _ e => Option.some.inj e ▸ left (h)
theorem updateActivate (r : CmdReq) : Statement (.updateActivate r) := fun h _ e => Option.some.inj e ▸ h
theorem updateConfirm (r : CmdReq) : Statement (.updateConfirm r) := fun h _ e => Option.some.inj e ▸ h
theorem updateAbort (r : CmdReq) : Statement (.updateAbort r) := fun h _ e => Option.some.inj e ▸ h
theorem traceFilter (r : CmdReq) (p : FilterParams) : Statement (.traceFilter r p) := fun h _ e => Option.some.inj e ▸ left (h)
theorem traceStream (r : CmdReq) (p : StreamParams) : Statement (.traceStream r p) := fun h _ e => Option.some.inj e ▸ left (h)
theorem traceRead (r : CmdReq) (start : Nat) : Statement (.traceRead r start) := fun h _ e => Option.some.inj e ▸ left (h)
theorem faultRead (r : CmdReq) : Statement (.faultRead r) := fun h _ e => Option.some.inj e ▸ h
theorem faultClear (r : CmdReq) (mask : Nat) : Statement (.faultClear r mask) := fun h _ e => Option.some.inj e ▸ left (h)
theorem faultRelease (r : CmdReq) : Statement (.faultRelease r) := fun h _ e => Option.some.inj e ▸ h
theorem faultInject (r : CmdReq) (p : FaultInj) : Statement (.faultInject r p) := fun h _ e => Option.some.inj e ▸ left (h)
theorem faultConfig (r : CmdReq) (p : FaultCfg) : Statement (.faultConfig r p) := fun h _ e => Option.some.inj e ▸ left (h)
theorem journalRead (r : CmdReq) (start : Nat) : Statement (.journalRead r start) := fun h _ e => Option.some.inj e ▸ left (h)
theorem keeperWatchdog : Statement (.keeperWatchdog) := fun _ _ h => nomatch h
theorem drainTimeout : Statement (.drainTimeout) := fun _ _ h => nomatch h
theorem keeperRestartDone : Statement (.keeperRestartDone) := fun _ _ h => nomatch h
theorem smpWrite (len : Nat) (packet : Bytes) (crc : Nat) : Statement (.smpWrite len packet crc) := fun _ _ h => nomatch h
theorem smpRead : Statement (.smpRead) := fun _ _ h => nomatch h
theorem smpStatus : Statement (.smpStatus) := fun _ _ h => nomatch h
theorem smpCsAbort (op : SmpOp) : Statement (.smpCsAbort op) := fun _ _ h => nomatch h
theorem cadencePulse (widthNs : Nat) (interval : Nat) (edge : InputEdge) : Statement (.cadencePulse widthNs interval edge) := fun _ _ h => nomatch h
theorem slewEnd : Statement (.slewEnd) := fun _ _ h => nomatch h
theorem tickBoundary : Statement (.tickBoundary) := fun _ _ h => nomatch h
theorem epochBoundary : Statement (.epochBoundary) := fun _ _ h => nomatch h
theorem checkpointOverdue : Statement (.checkpointOverdue) := fun _ _ h => nomatch h
theorem coastingOnset : Statement (.coastingOnset) := fun _ _ h => nomatch h
theorem acquireTimeout : Statement (.acquireTimeout) := fun _ _ h => nomatch h
theorem cadEnChange (fn : Fn) (en : Bool) : Statement (.cadEnChange fn en) := fun _ _ h => nomatch h
theorem cadSrcChange (fn : Fn) (src : Bool) : Statement (.cadSrcChange fn src) := fun _ _ h => nomatch h
theorem cadNominalWrite (fn : Fn) (v : BitVec 32) : Statement (.cadNominalWrite fn v) := fun _ _ h => nomatch h
theorem powerOnReset : Statement (.powerOnReset) := fun _ _ h => nomatch h
theorem porRelease (up : PowerUp) : Statement (.porRelease up) := fun _ _ h => nomatch h
theorem resetNAssert : Statement (.resetNAssert) := fun _ _ h => nomatch h
theorem resetNRelease (straps : Straps) : Statement (.resetNRelease straps) := fun _ _ h => nomatch h
theorem romBoot (found : RomFindings) : Statement (.romBoot found) := fun _ _ h => nomatch h
theorem bootClockTimeout : Statement (.bootClockTimeout) := fun _ _ h => nomatch h
theorem perstAssert (hl : Hl) : Statement (.perstAssert hl) := fun _ _ h => nomatch h
theorem perstDeassert (hl : Hl) : Statement (.perstDeassert hl) := fun _ _ h => nomatch h
theorem hotResetReceived (hl : Hl) : Statement (.hotResetReceived hl) := fun _ _ h => nomatch h
theorem dlDown (hl : Hl) : Statement (.dlDown hl) := fun _ _ h => nomatch h
theorem linkDisable (hl : Hl) : Statement (.linkDisable hl) := fun _ _ h => nomatch h
theorem linkDisableEnd (hl : Hl) : Statement (.linkDisableEnd hl) := fun _ _ h => nomatch h
theorem detectEntry (hl : Hl) : Statement (.detectEntry hl) := fun _ _ h => nomatch h
theorem dlUp (hl : Hl) (width : Nat) (flit : Bool) (reversed : Bool) : Statement (.dlUp hl width flit reversed) := fun _ _ h => nomatch h
theorem pfReady (hl : Hl) : Statement (.pfReady hl) := fun _ _ h => nomatch h
theorem refclkLost (port : Tiller) : Statement (.refclkLost port) := fun _ _ h => nomatch h
theorem hlHoldWrite (fn : Fn) (hl : Hl) (hold : Bool) : Statement (.hlHoldWrite fn hl hold) := fun _ _ h => nomatch h
theorem hlRetrainWrite (fn : Fn) (hl : Hl) : Statement (.hlRetrainWrite fn hl) := fun _ _ h => nomatch h
theorem speedChange (hl : Hl) (speed : Nat) (eqOk : Bool) : Statement (.speedChange hl speed eqOk) := fun _ _ h => nomatch h
theorem l0pPartnerRequest (hl : Hl) (width : Nat) : Statement (.l0pPartnerRequest hl width) := fun _ _ h => nomatch h
theorem l0pHalve (hl : Hl) : Statement (.l0pHalve hl) := fun _ _ h => nomatch h
theorem l0pRestore (hl : Hl) : Statement (.l0pRestore hl) := fun _ _ h => nomatch h
theorem aspmL1Entry (hl : Hl) (ask : L1Ask) : Statement (.aspmL1Entry hl ask) := fun _ _ h => nomatch h
theorem l1Exit (hl : Hl) : Statement (.l1Exit hl) := fun _ _ h => nomatch h
theorem ltrActive (hl : Hl) : Statement (.ltrActive hl) := fun _ _ h => nomatch h
theorem ltrNoRequirement (hl : Hl) : Statement (.ltrNoRequirement hl) := fun _ _ h => nomatch h
theorem configRequest (fn : Fn) (hostTag : Nat) (op : CfgOp) : Statement (.configRequest fn hostTag op) := fun _ _ h => nomatch h
theorem vfEnableSet (hl : Hl) : Statement (.vfEnableSet hl) := fun _ _ h => nomatch h
theorem vfReady (hl : Hl) : Statement (.vfReady hl) := fun _ _ h => nomatch h
theorem vfEnableClear (hl : Hl) : Statement (.vfEnableClear hl) := fun _ _ h => nomatch h
theorem flr (fn : Fn) : Statement (.flr fn) := fun _ _ h => nomatch h
theorem busMasterClear (fn : Fn) : Statement (.busMasterClear fn) := fun _ _ h => nomatch h
theorem busMasterSet (fn : Fn) : Statement (.busMasterSet fn) := fun _ _ h => nomatch h
theorem d3hotEntry (hl : Hl) : Statement (.d3hotEntry hl) := fun _ _ h => nomatch h
theorem d0Return (hl : Hl) : Statement (.d0Return hl) := fun _ _ h => nomatch h
theorem numvfsWrite (hl : Hl) (v : BitVec 16) : Statement (.numvfsWrite hl v) := fun _ _ h => nomatch h
theorem rebarSizeWrite (hl : Hl) (v : Fin 64) : Statement (.rebarSizeWrite hl v) := fun _ _ h => nomatch h
theorem msixUnmask (fn : Fn) (v : Fin 128) : Statement (.msixUnmask fn v) := fun _ _ h => nomatch h
theorem inboundRequest (m : HostMem) : Statement (.inboundRequest m) := fun _ _ h => nomatch h
theorem expromRead (hl : Hl) (offset : Nat) (len : Nat) (hostTag : Nat) : Statement (.expromRead hl offset len hostTag) := fun _ _ h => nomatch h
theorem hostReadIssue (hl : Hl) (pos : Nat) (tag : Nat) : Statement (.hostReadIssue hl pos tag) := fun _ _ h => nomatch h
theorem hostTlpIssue (hl : Hl) (pos : Nat) : Statement (.hostTlpIssue hl pos) := fun _ _ h => nomatch h
theorem hostCompletion (c : HostCpl) : Statement (.hostCompletion c) := fun _ _ h => nomatch h
theorem completionTimeout (fn : Fn) (tag : Nat) : Statement (.completionTimeout fn tag) := fun _ _ h => nomatch h
theorem quarantineExpiry (fn : Fn) (tag : Nat) : Statement (.quarantineExpiry fn tag) := fun _ _ h => nomatch h
theorem localMwr (wl : Wl) (p : Pkt) : Statement (.localMwr wl p) := fun _ _ h => nomatch h
theorem sheafLagExceeded (sheaf : Fin 256) (d : Fin 8) : Statement (.sheafLagExceeded sheaf d) := fun _ _ h => nomatch h
theorem localMrd (wl : Wl) (p : Pkt) : Statement (.localMrd wl p) := fun _ _ h => nomatch h
theorem localAtom (wl : Wl) (p : Pkt) : Statement (.localAtom wl p) := fun _ _ h => nomatch h
theorem localInterruptMsg (wl : Wl) (p : Pkt) : Statement (.localInterruptMsg wl p) := fun _ _ h => nomatch h
theorem peerDoorbell (wl : Wl) (p : Pkt) : Statement (.peerDoorbell wl p) := fun _ _ h => nomatch h
theorem identReceived (wl : Wl) (p : Pkt) : Statement (.identReceived wl p) := fun _ _ h => nomatch h
theorem localResponse (wl : Wl) (p : Pkt) : Statement (.localResponse wl p) := fun _ _ h => nomatch h
theorem lrspTimeout (wl : Wl) (tag : Nat) : Statement (.lrspTimeout wl tag) := fun _ _ h => nomatch h
theorem partnerClockStable (wl : Wl) : Statement (.partnerClockStable wl) := fun _ _ h => nomatch h
theorem ts2Exchanged (wl : Wl) (blocks : List (Fin 4 × Bytes)) : Statement (.ts2Exchanged wl blocks) := fun _ _ h => nomatch h
theorem ts3Echoed (wl : Wl) (rate : Fin 4) (set : Fin 16) : Statement (.ts3Echoed wl rate set) := fun _ _ h => nomatch h
theorem switchDone (wl : Wl) : Statement (.switchDone wl) := fun _ _ h => nomatch h
theorem fastConfirmed (wl : Wl) : Statement (.fastConfirmed wl) := fun _ _ h => nomatch h
theorem trainAttemptTimeout (wl : Wl) : Statement (.trainAttemptTimeout wl) := fun _ _ h => nomatch h
theorem partnerClockLost (wl : Wl) : Statement (.partnerClockLost wl) := fun _ _ h => nomatch h
theorem phyRetrain (wl : Wl) : Statement (.phyRetrain wl) := fun _ _ h => nomatch h
theorem partnerRetrain (wl : Wl) : Statement (.partnerRetrain wl) := fun _ _ h => nomatch h
theorem retrainDone (wl : Wl) (rate : Fin 4) (set : Fin 16) : Statement (.retrainDone wl rate set) := fun _ _ h => nomatch h
theorem wlaneDisableWrite (fn : Fn) (wl : Wl) (v : Bool) : Statement (.wlaneDisableWrite fn wl v) := fun _ _ h => nomatch h
theorem wlaneTrainWrite (fn : Fn) (wl : Wl) : Statement (.wlaneTrainWrite fn wl) := fun _ _ h => nomatch h
theorem loopbackWrite (fn : Fn) (wl : Wl) (v : Fin 4) : Statement (.loopbackWrite fn wl v) := fun _ _ h => nomatch h
theorem lanePrbsWrite (fn : Fn) (wl : Wl) (lane : Fin 4) (gen : Fin 4) (chk : Fin 4) : Statement (.lanePrbsWrite fn wl lane gen chk) := fun _ _ h => nomatch h
theorem prbsSyncGain (wl : Wl) (lane : Fin 4) : Statement (.prbsSyncGain wl lane) := fun _ _ h => nomatch h
theorem prbsSyncLoss (wl : Wl) (lane : Fin 4) (bits : Nat) (errors : Nat) : Statement (.prbsSyncLoss wl lane bits errors) := fun _ _ h => nomatch h
theorem cntClr (fn : Fn) (wl : Wl) (lane : Fin 4) : Statement (.cntClr fn wl lane) := fun _ _ h => nomatch h
theorem injGo (fn : Fn) (wl : Wl) (lane : Fin 4) : Statement (.injGo fn wl lane) := fun _ _ h => nomatch h
theorem injStop (fn : Fn) (wl : Wl) (lane : Fin 4) : Statement (.injStop fn wl lane) := fun _ _ h => nomatch h
theorem alignmentBlockSend (wl : Wl) : Statement (.alignmentBlockSend wl) := fun _ _ h => nomatch h
theorem alignmentBlockReceive (wl : Wl) (blocks : List (Fin 4 × Bytes)) : Statement (.alignmentBlockReceive wl blocks) := fun _ _ h => nomatch h
theorem backgroundTrainPass (wl : Wl) (run : BackgroundRun) : Statement (.backgroundTrainPass wl run) := fun _ _ h => nomatch h
theorem backgroundTrainFail (wl : Wl) (lane : Fin 4) : Statement (.backgroundTrainFail wl lane) := fun _ _ h => nomatch h
theorem grainReceived (wl : Wl) (g : Grain) : Statement (.grainReceived wl g) := fun _ _ h => nomatch h
theorem ackSend (wl : Wl) : Statement (.ackSend wl) := fun _ _ h => nomatch h
theorem linkPacketSend (wl : Wl) (pos : Nat) (tag : Nat) : Statement (.linkPacketSend wl pos tag) := fun _ _ h => nomatch h
theorem replayTimeout (wl : Wl) : Statement (.replayTimeout wl) := fun _ _ h => nomatch h
theorem initReceived (wl : Wl) (b : InitBody) : Statement (.initReceived wl b) := fun _ _ h => nomatch h
theorem initTimeout (wl : Wl) : Statement (.initTimeout wl) := fun _ _ h => nomatch h
theorem graceExpiry (wl : Wl) : Statement (.graceExpiry wl) := fun _ _ h => nomatch h
theorem wlLinkResetWrite (fn : Fn) (wl : Wl) : Statement (.wlLinkResetWrite fn wl) := fun _ _ h => nomatch h
theorem haltReceived (wl : Wl) : Statement (.haltReceived wl) := fun _ _ h => nomatch h
theorem reshapeGoWrite (fn : Fn) (wl : Wl) (set : Fin 16) : Statement (.reshapeGoWrite fn wl set) := fun _ _ h => nomatch h
theorem laneReq (wl : Wl) (id : Fin 256) (set : Fin 16) : Statement (.laneReq wl id set) := fun _ _ h => nomatch h
theorem laneAck (wl : Wl) (id : Fin 256) : Statement (.laneAck wl id) := fun _ _ h => nomatch h
theorem laneNak (wl : Wl) (id : Fin 256) (reason : Nat) : Statement (.laneNak wl id reason) := fun _ _ h => nomatch h
theorem laneReady (wl : Wl) (id : Fin 256) : Statement (.laneReady wl id) := fun _ _ h => nomatch h
theorem reshapeTimeout (wl : Wl) : Statement (.reshapeTimeout wl) := fun _ _ h => nomatch h
theorem channelDoorbell (fn : Fn) (ch : Chan) : Statement (.channelDoorbell fn ch) := fun _ _ h => nomatch h
theorem channelEnable (fn : Fn) (ch : Chan) : Statement (.channelEnable fn ch) := fun _ _ h => nomatch h
theorem channelDisable (fn : Fn) (ch : Chan) : Statement (.channelDisable fn ch) := fun _ _ h => nomatch h
theorem channelRetry (ch : Chan) : Statement (.channelRetry ch) := fun _ _ h => nomatch h
theorem channelDrained (ch : Chan) : Statement (.channelDrained ch) := fun _ _ h => nomatch h
theorem tenantResetComplete (tn : Tnid) : Statement (.tenantResetComplete tn) := fun _ _ h => nomatch h
theorem tenantPendingDrained (tn : Tnid) : Statement (.tenantPendingDrained tn) := fun _ _ h => nomatch h
theorem freezePoint (tn : Tnid) : Statement (.freezePoint tn) := fun _ _ h => nomatch h
theorem freezeQuiesced (tn : Tnid) : Statement (.freezeQuiesced tn) := fun _ _ h => nomatch h
theorem harvestBoundary (tn : Tnid) : Statement (.harvestBoundary tn) := fun _ _ h => nomatch h
theorem harvestDone (tn : Tnid) : Statement (.harvestDone tn) := fun _ _ h => nomatch h
theorem holdoffEnd (fn : Fn) (v : Fin 128) : Statement (.holdoffEnd fn v) := fun _ _ h => nomatch h
theorem modTicksWrite (fn : Fn) (v : Fin 128) (ticks : Fin 256) : Statement (.modTicksWrite fn v ticks) := fun _ _ h => nomatch h
theorem fnEventEnWrite (fn : Fn) (v : BitVec 14) : Statement (.fnEventEnWrite fn v) := fun _ _ h => nomatch h
theorem chIrqEnableWrite (fn : Fn) (ch : Chan) (v : BitVec 24) : Statement (.chIrqEnableWrite fn ch v) := fun _ _ h => nomatch h
theorem errorLineEvent (e : Ev) : Statement (.errorLineEvent e) := fun _ _ h => nomatch h
theorem faultMinwExpiry : Statement (.faultMinwExpiry) := fun _ _ h => nomatch h
theorem faultInEvent (widthNs : Nat) : Statement (.faultInEvent widthNs) := fun _ _ h => nomatch h
theorem journalAppend : Statement (.journalAppend) := fun _ _ h => nomatch h
theorem journalEraseDone : Statement (.journalEraseDone) := fun _ _ h => nomatch h
theorem clockMonitorTrip (ckid : Fin 32) : Statement (.clockMonitorTrip ckid) := fun _ _ h => nomatch h
theorem froReady : Statement (.froReady) := fun _ _ h => nomatch h
theorem sourceReady (ckid : Fin 2) : Statement (.sourceReady ckid) := fun _ _ h => nomatch h
theorem pllReady (ckid : Fin 32) : Statement (.pllReady ckid) := fun _ _ h => nomatch h
theorem clockSwitchDone (selector : Fin 4) : Statement (.clockSwitchDone selector) := fun _ _ h => nomatch h
theorem forcedClockSwitch (selector : Fin 4) : Statement (.forcedClockSwitch selector) := fun _ _ h => nomatch h
theorem freqCountStart (fn : Fn) (ckid : Fin 256) : Statement (.freqCountStart fn ckid) := fun _ _ h => nomatch h
theorem freqCountEnd (edges : Nat) : Statement (.freqCountEnd edges) := fun _ _ h => nomatch h
theorem clkobsWrite (fn : Fn) (sel : Fin 256) (div : Fin 8192) : Statement (.clkobsWrite fn sel div) := fun _ _ h => nomatch h
theorem wakeStepReady (dom : Dom) (badBanks : List Nat) : Statement (.wakeStepReady dom badBanks) := fun _ _ h => nomatch h
theorem wakeStepTimeout (dom : Dom) : Statement (.wakeStepTimeout dom) := fun _ _ h => nomatch h
theorem vinLow (mv : Nat) : Statement (.vinLow mv) := fun _ _ h => nomatch h
theorem eraseDone : Statement (.eraseDone) := fun _ _ h => nomatch h
theorem activationBoundary : Statement (.activationBoundary) := fun _ _ h => nomatch h
theorem trialEnd : Statement (.trialEnd) := fun _ _ h => nomatch h
theorem traceRecordAppend (source : Nat) : Statement (.traceRecordAppend source) := fun _ _ h => nomatch h
theorem streamBatchWrite : Statement (.streamBatchWrite) := fun _ _ h => nomatch h
theorem streamResume : Statement (.streamResume) := fun _ _ h => nomatch h
theorem jtagTracePtr (number : Nat) : Statement (.jtagTracePtr number) := fun _ _ h => nomatch h
theorem jtagTraceData : Statement (.jtagTraceData) := fun _ _ h => nomatch h
theorem jtagIdcode : Statement (.jtagIdcode) := fun _ _ h => nomatch h
theorem jtagSamplePreload (pins : Bytes) : Statement (.jtagSamplePreload pins) := fun _ _ h => nomatch h
theorem jtagPadDrive (instr : PadInstr) : Statement (.jtagPadDrive instr) := fun _ _ h => nomatch h
theorem refclkRestored (port : Tiller) : Statement (.refclkRestored port) := fun _ _ h => nomatch h
theorem laneMarginingCommand (hl : Hl) (lane : Nat) (command : Nat) : Statement (.laneMarginingCommand hl lane command) := fun _ _ h => nomatch h
theorem l2Entry (hl : Hl) : Statement (.l2Entry hl) := fun _ _ h => nomatch h
theorem replayLimitZeroWrite (fn : Fn) (wl : Wl) : Statement (.replayLimitZeroWrite fn wl) := fun _ _ h => nomatch h

end Wire

end Sys2Proof.Laws
end

