-- ==== Sys2Proof/Machine/Parts.lean ====
section
/-!
DEFINITION. The parts of the state, and what holds of every state that a run reaches: the canonical form of the register
table, the width of the stamp, and what no command takes back in the fuses.
-/
namespace Sys2Proof.Machine

/-- The register table is in its canonical form: keys rising, values within their fields' widths (Table SC-3, R4), and no
field listed that holds its reset value. -/
def RegsOk (r : Regs) : Prop :=
  r.Pairwise (fun a b => a.1.lt b.1 = true) ∧ ∀ e ∈ r, e.2 < 2 ^ e.1.f.width ∧ e.2 ≠ e.1.f.reset e.1.i e.1.j

/-- The invariant of every state a run reaches: the register table in its canonical form, and a 64-bit stamp (R27). -/
structure Inv (s : State) : Prop where
  table : RegsOk s.regs
  stamp : s.cad.stamp < 2 ^ 64

/-- The fuses that are programmed at manufacture are the same, and the anti-rollback fuses have not gone back (R439,
R452). -/
def FusesKept (u v : UpdS) : Prop :=
  v.dsn = u.dsn ∧ v.familyKey = u.familyKey ∧ v.deviceKey = u.deviceKey ∧ v.oemHash = u.oemHash ∧ u.arbFuse ≤ v.arbFuse

/-- The parts of the state beside the queue, the registers, what was sent and the counter of free values. -/
inductive Part where
    | latches | cfg | vecs | heldCauses | trace | journal | cad | doms | clocks | pins | hls | hostQ | tags | locReqs
    | wls | wps | inRds | sheafPkts | pktCount | dests | sheafAcc | consLast | chans | tens | logs | dirty | keeper |
    store | upd
  deriving DecidableEq, Repr

/-- A part is the same in two states. -/
def Part.same (s t : State) : Part → Prop
  | .latches => t.latches = s.latches
  | .cfg => t.cfg = s.cfg
  | .vecs => t.vecs = s.vecs
  | .heldCauses => t.heldCauses = s.heldCauses
  | .trace => t.trace = s.trace
  | .journal => t.journal = s.journal
  | .cad => t.cad = s.cad
  | .doms => t.doms = s.doms
  | .clocks => t.clocks = s.clocks
  | .pins => t.pins = s.pins
  | .hls => t.hls = s.hls
  | .hostQ => t.hostQ = s.hostQ
  | .tags => t.tags = s.tags
  | .locReqs => t.locReqs = s.locReqs
  | .wls => t.wls = s.wls
  | .wps => t.wps = s.wps
  | .inRds => t.inRds = s.inRds
  | .sheafPkts => t.sheafPkts = s.sheafPkts
  | .pktCount => t.pktCount = s.pktCount
  | .dests => t.dests = s.dests
  | .sheafAcc => t.sheafAcc = s.sheafAcc
  | .consLast => t.consLast = s.consLast
  | .chans => t.chans = s.chans
  | .tens => t.tens = s.tens
  | .logs => t.logs = s.logs
  | .dirty => t.dirty = s.dirty
  | .keeper => t.keeper = s.keeper
  | .store => t.store = s.store
  | .upd => t.upd = s.upd

end Sys2Proof.Machine
end

