-- ==== Sys2Proof/Safety.lean ====
section
/-!
DEFINITION. What counts as a sound run of the block, in the terms the statements use: that a command completes, its frame,
and that a command of the Keeper is served and answered.
-/
namespace Sys2Proof.Machine

/-- Command `c` completes in state `s` with a next state of which `p` holds. -/
def Completes (c : Instr) (s : State) (p : State → Prop) : Prop := ∃ t, exec c s = .next t ∧ p t

/-- `t` differs from `s` at most in the register fields of `fl`, the registers of the blocks of `bl` and the parts of
`pl`; the queue of commands is the same, and what was sent stays sent. -/
structure Keeps (fl : List Fld) (bl : List Blk) (pl : List Part) (s t : State) : Prop where
  fields : ∀ f i j, f ∉ fl → f.info.blk ∉ bl → t.rd f i j = s.rd f i j
  parts : ∀ p, p ∉ pl → p.same s t
  queue : t.pending = s.pending
  sent : s.out <+: t.out

/-- The frame of a command: a next state that it answers differs at most in the register fields of `fl`, the blocks of
`bl` and the parts of `pl`; the other commands wait as before, and what was sent stays sent. -/
def Frame (c : Instr) (fl : List Fld) (bl : List Blk) (pl : List Part) : Prop :=
  ∀ s t, exec c s = .next t → Keeps fl bl pl s t

/-! ### What many commands share -/

/-- The register fields that an event of an error line may move (R371 to R378): the Ward's own, the cause bits, counters
and messages of the functions it is reported to, and, where its class calls the fatal reaction, the channels halted, the
links taken down and the stream paused. -/
def wardFlds : List Fld :=
  [.CAD_STAMP_LO, .CH_CODE, .CH_CUR, .CH_DRAINING, .CH_ERR, .CH_ERR_ADDR, .CH_ERR_SPACE, .CH_HALT_CNT, .CH_STATE,
    .CT_HL_TX_PAYLOAD, .CT_HL_TX_TLP, .CT_TN_HALTS, .FI_CADENCE, .FI_DEADLINE_MISS, .FI_HOLDOFF, .FI_HOSTLINK,
    .FI_IN_COAL_CNT, .FI_IN_DROP_CNT, .FI_REPLY, .FI_SHEAF_LAG, .FI_TENANT_BROKEN, .FI_WAITING, .FI_WARD_CONT,
    .FI_WARD_CORR, .FI_WARD_FATAL, .HL_CLKREQ, .HL_CUR_SPEED, .HL_L1SUB, .HL_LTSSM, .HL_PME_WAKE, .HL_RECOV_CNT,
    .KP_FATAL_HOLD, .TR_STREAM_PAUSED, .WD_ACCESS, .WD_CONT_CNT, .WD_CORR_CNT, .WD_DETAIL, .WD_FATAL_CNT,
    .WD_FAULT_WORD, .WD_FC_ADDR, .WD_FC_ERA, .WD_FC_MASTER, .WD_FC_STAMP, .WD_FN_DRIVEN, .WD_FN_LEVEL, .WD_GROUP,
    .WD_INJECTED, .WD_INJ_CNT, .WD_INJ_WORD, .WD_JR_LOST_CNT, .WD_JR_QUEUED, .WD_LINE, .WD_LINES, .WD_MINW_RUN,
    .WD_PRESEED, .WD_REACT, .WD_REACT_ERA, .WD_REACT_STAMP, .WD_VALID, .WL_GRACE_RUN, .WL_LSTATE]

/-- The parts that an event of an error line may move. -/
def wardParts : List Part :=
  [.cad, .cfg, .chans, .heldCauses, .hls, .hostQ, .journal, .logs, .trace, .vecs, .wls, .wps]

/-- The register fields that the end of a Keeper command may move (R332 to R336, R362): its ring, the Keeper's counters, the
cause REPLY and the message it calls for, and, where it ends a drain, the restart of the Keeper. -/
def replyFlds : List Fld :=
  [.CAD_STAMP_LO, .CT_HL_TX_PAYLOAD, .CT_HL_TX_TLP, .FI_CADENCE, .FI_DEADLINE_MISS, .FI_HOLDOFF, .FI_HOSTLINK,
    .FI_IN_COAL_CNT, .FI_IN_DROP_CNT, .FI_REPLY, .FI_SHEAF_LAG, .FI_TENANT_BROKEN, .FI_WAITING, .FI_WARD_CONT,
    .FI_WARD_CORR, .FI_WARD_FATAL, .HL_CLKREQ, .HL_CUR_SPEED, .HL_L1SUB, .HL_LTSSM, .HL_PME_WAKE, .HL_RECOV_CNT,
    .KP_CANCEL_CNT, .KP_CMD_CNT, .KP_CTX_BUSY, .KP_FAIL_CNT, .KP_KSTATE, .KP_RESTART_CNT, .KP_SCHED_ALL, .KR_FAIL_CNT,
    .KR_IN_FLIGHT, .KR_RPL_PI, .KR_SCHEDULED, .TN_FREEZE_SET, .WD_JR_LOST_CNT, .WD_JR_QUEUED]

/-- The parts that the end of a Keeper command may move. -/
def replyParts : List Part :=
  [.cad, .cfg, .heldCauses, .hls, .hostQ, .journal, .keeper, .trace, .upd, .vecs]

/-! ### What the frames share

Register fields and parts that several commands may move together, each the reach of one event of the spec. -/

/-- The register fields that a message of a vector may move (R320 to R323). -/
def vecFlds : List Fld :=
  [.CT_HL_TX_PAYLOAD, .CT_HL_TX_TLP, .FI_CADENCE, .FI_DEADLINE_MISS, .FI_HOLDOFF, .FI_HOSTLINK, .FI_IN_COAL_CNT,
    .FI_IN_DROP_CNT, .FI_REPLY, .FI_SHEAF_LAG, .FI_TENANT_BROKEN, .FI_WAITING, .FI_WARD_CONT, .FI_WARD_CORR,
    .FI_WARD_FATAL, .HL_CLKREQ, .HL_CUR_SPEED, .HL_L1SUB, .HL_LTSSM, .HL_PME_WAKE, .HL_RECOV_CNT]

/-- The register fields that a change of state of a lane may move (R170, Table WP-4). -/
def laneFlds : List Fld :=
  [.WP_EYE_H, .WP_EYE_W, .WP_HEALTH, .WP_LN_BITS_CNT, .WP_LN_ERR_CNT, .WP_LSTATE, .WP_PRBS_PEND, .WP_PRBS_SYNC]

/-- The register fields that the start of a wake may move (R415). -/
def wakeFlds : List Fld :=
  [.CAD_STAMP_LO, .CK_HELD, .CK_READY, .HL_CLKREQ, .PW_CLK_RDY, .PW_FN_READY, .PW_LOGIC_RDY, .PW_MEM_RDY, .PW_ON_MAP,
    .PW_REFCLK_WAIT, .PW_REG_RDY, .PW_STATE]

/-- The register fields that the end of work of a channel may move, and the messages and events it calls for (R252, R269). -/
def chanFlds : List Fld :=
  [.CAD_STAMP_LO, .CH_BYTES, .CH_BYTE_CNT, .CH_CODE, .CH_CUR, .CH_DONE_CNT, .CH_DRAINING, .CH_ERR, .CH_ERR_ADDR,
    .CH_ERR_SPACE, .CH_FULL, .CH_HALF, .CH_HALT_CNT, .CH_RETRIES, .CH_STATE, .CH_WAITED, .CT_HL_TX_PAYLOAD,
    .CT_HL_TX_TLP, .CT_TN_DESC_BYTES, .CT_TN_DESC_DONE, .CT_TN_HALTS, .FI_CADENCE, .FI_DEADLINE_MISS, .FI_HOLDOFF,
    .FI_HOSTLINK, .FI_IN_COAL_CNT, .FI_IN_DROP_CNT, .FI_REPLY, .FI_SHEAF_LAG, .FI_TENANT_BROKEN, .FI_WAITING,
    .FI_WARD_CONT, .FI_WARD_CORR, .FI_WARD_FATAL, .HL_CLKREQ, .HL_CUR_SPEED, .HL_L1SUB, .HL_LTSSM, .HL_PME_WAKE,
    .HL_RECOV_CNT, .KP_FATAL_HOLD, .TR_STREAM_PAUSED, .WD_ACCESS, .WD_CONT_CNT, .WD_CORR_CNT, .WD_DETAIL,
    .WD_FATAL_CNT, .WD_FAULT_WORD, .WD_FC_ADDR, .WD_FC_ERA, .WD_FC_MASTER, .WD_FC_STAMP, .WD_FN_DRIVEN, .WD_FN_LEVEL,
    .WD_GROUP, .WD_INJECTED, .WD_INJ_CNT, .WD_INJ_WORD, .WD_JR_LOST_CNT, .WD_JR_QUEUED, .WD_LINE, .WD_LINES,
    .WD_MINW_RUN, .WD_PRESEED, .WD_REACT, .WD_REACT_ERA, .WD_REACT_STAMP, .WD_VALID, .WL_GRACE_RUN, .WL_LSTATE]

/-- The register fields that the return of a Weaseif link to DETECT may move (R170, Table WP-6). -/
def detectFlds : List Fld :=
  [.TI_CONSERVATIVE, .TI_READS_BLOCKED, .TI_SELFTEST, .WL_ACTIVE_SET, .WP_ACTIVE_MASK, .WP_CK_LOCK, .WP_CLK_LOCK,
    .WP_CUR_RATE, .WP_EYE_H, .WP_EYE_W, .WP_HEALTH, .WP_LN_BITS_CNT, .WP_LN_ERR_CNT, .WP_LSTATE, .WP_PRBS_PEND,
    .WP_PRBS_SYNC, .WP_STATE]

/-- The register fields that the start of the firmware may move (R423, R426). -/
def bootFlds : List Fld :=
  [.CAD_STAMP_LO, .CH_BYTES, .CH_BYTE_CNT, .CH_CODE, .CH_CUR, .CH_DONE_CNT, .CH_DRAINING, .CH_ERR, .CH_ERR_ADDR,
    .CH_ERR_SPACE, .CH_FULL, .CH_HALF, .CH_HALT_CNT, .CH_RETRIES, .CH_STATE, .CH_WAITED, .CK_HELD, .CK_READY,
    .CT_HL_TX_PAYLOAD, .CT_HL_TX_TLP, .CT_SD_LAG, .CT_TN_DESC_BYTES, .CT_TN_DESC_DONE, .CT_TN_HALTS, .DEV_DEVICE,
    .DEV_DIR_GEN, .DEV_FW_VERSION, .DEV_MGR_LINK, .DEV_MGR_SMP, .DVSEC_DIR_GEN, .DVSEC_FW_STATE, .DVSEC_FW_VERSION,
    .DVSEC_GENERATION, .DVSEC_MANAGER, .DVSEC_RECOVERY, .FI_CADENCE, .FI_DEADLINE_MISS, .FI_FN_EVENT_EN, .FI_HOLDOFF,
    .FI_HOSTLINK, .FI_IN_COAL_CNT, .FI_IN_DROP_CNT, .FI_IN_SENT_CNT, .FI_MOD_TICKS, .FI_REPLY, .FI_SHEAF_LAG,
    .FI_TENANT_BROKEN, .FI_VEC_CADENCE, .FI_VEC_COUNT, .FI_VEC_DEADLINE, .FI_VEC_HOSTLINK, .FI_VEC_LAG, .FI_VEC_REPLY,
    .FI_VEC_TENANT, .FI_VEC_WARD, .FI_WAITING, .FI_WARD_CONT, .FI_WARD_CORR, .FI_WARD_FATAL, .HL_BIFUR, .HL_BIFUR_NEXT,
    .HL_CFG_PENDING, .HL_CLKMODE, .HL_CLKMODE_NEXT, .HL_CLKREQ, .HL_CUR_SPEED, .HL_CUR_WIDTH, .HL_DL_DOWN, .HL_DL_UP,
    .HL_DOWN_CNT, .HL_DROP_CNT, .HL_FLIT, .HL_L1SUB, .HL_LTSSM, .HL_MAX_WIDTH, .HL_PME_WAKE, .HL_PRESENT,
    .HL_RECOV_CNT, .HL_REFCLK_OK, .HL_REVERSED, .HL_TARGET_SPEED, .HUB_CH_FREE, .HUB_CH_FREE_T, .HUB_CH_PENDING,
    .HUB_TN_CREATED, .HUB_TN_PENDING, .HUB_UNITS_FREE, .HUB_UNITS_FREE_T, .HUB_UNITS_PENDING, .HUB_VEC_FREE,
    .HUB_VEC_PENDING, .KP_CANCEL_CNT, .KP_CMD_CNT, .KP_CTX_BUSY, .KP_FAIL_CNT, .KP_FATAL_HOLD, .KP_FW_STATE,
    .KP_KSTATE, .KP_RESTART_CNT, .KP_SCHED_ALL, .KP_SLOT, .KR_ACTIVE, .KR_CMD_BASE_HI, .KR_CMD_BASE_LO, .KR_CMD_CI,
    .KR_CMD_CNT, .KR_CMD_PI, .KR_EN, .KR_FAIL_CNT, .KR_FETCH_ERR, .KR_IN_FLIGHT, .KR_KEEPER_WAIT, .KR_OVERRUN,
    .KR_REPLY_FULL, .KR_RPL_BASE_HI, .KR_RPL_BASE_LO, .KR_RPL_CI, .KR_RPL_PI, .KR_SCHEDULED, .KR_STOPPED, .PW_CLK_RDY,
    .PW_FN_READY, .PW_LOGIC_RDY, .PW_MEM_RDY, .PW_ON_MAP, .PW_RECOVERY, .PW_REFCLK_WAIT, .PW_REG_RDY, .PW_STATE,
    .SH_EXCUSED, .SH_WAITING, .TI_CELLS_USED, .TI_CONSERVATIVE, .TI_CONS_OUT, .TI_OUTSTANDING, .TI_QUARANTINED,
    .TI_READS_BLOCKED, .TI_RECOVERY, .TI_RQ_SPEC_CNT, .TI_UNITS_ALLOTTED, .TN_CELLS_USED, .TN_FREEZE_SET,
    .TN_GENERATION, .TN_GEN_CNT, .TN_LIVE_TAGS, .TN_LOG_ON, .TN_QUAR_TAGS, .TN_STATE, .TR_STREAM_PAUSED, .WD_ACCESS,
    .WD_CONT_CNT, .WD_CORR_CNT, .WD_DETAIL, .WD_FATAL_CNT, .WD_FAULT_WORD, .WD_FC_ADDR, .WD_FC_ERA, .WD_FC_MASTER,
    .WD_FC_STAMP, .WD_FN_DRIVEN, .WD_FN_LEVEL, .WD_GROUP, .WD_INJECTED, .WD_INJ_CNT, .WD_INJ_WORD, .WD_JR_LOST_CNT,
    .WD_JR_QUEUED, .WD_LINE, .WD_LINES, .WD_MINW_RUN, .WD_PRESEED, .WD_REACT, .WD_REACT_ERA, .WD_REACT_STAMP,
    .WD_VALID, .WL_GRACE_RUN, .WL_LSTATE]

/-- The register fields that a change of the allotments of a tenant may move (R276, R279). -/
def modifyFlds : List Fld :=
  [.CH_ALLOTTED, .CH_BYTES, .CH_BYTE_CNT, .CH_CODE, .CH_CUR, .CH_DATA_RO, .CH_DB_IGNORED, .CH_DB_NUM, .CH_DB_PENDING,
    .CH_DONE_CNT, .CH_DOORBELL, .CH_DRAINING, .CH_EN, .CH_ERR, .CH_ERR_ADDR, .CH_ERR_EN, .CH_ERR_SPACE, .CH_FULL,
    .CH_FULL_EN, .CH_GLOBAL, .CH_HALF, .CH_HALF_EN, .CH_HALT_CNT, .CH_HEAD_HI, .CH_HEAD_LO, .CH_LANE, .CH_LOCAL,
    .CH_RA_DATA, .CH_RA_DESC, .CH_RETRIES, .CH_RETRY_CNT, .CH_RETRY_LIMIT, .CH_STATE, .CH_TNID, .CH_VEC_ERR,
    .CH_VEC_FULL, .CH_VEC_HALF, .CH_WAITED, .DEV_DIR_GEN, .DVSEC_DIR_GEN, .FI_VEC_COUNT, .HUB_CH_FREE, .HUB_CH_FREE_T,
    .HUB_CH_PENDING, .HUB_TN_CREATED, .HUB_TN_PENDING, .HUB_UNITS_FREE, .HUB_UNITS_FREE_T, .HUB_UNITS_PENDING,
    .HUB_VEC_FREE, .HUB_VEC_PENDING, .TI_UNITS_ALLOTTED, .TN_ALLOWANCE, .TN_CB_UNITS, .TN_CH_COUNT, .TN_ELIGIBLE,
    .TN_INT_ALLOT, .TN_IN_ALLOT, .TN_OUT_ALLOT, .TN_PERMIT0, .TN_PERMIT1, .TN_PERMIT2, .TN_VECTORS, .TN_WEIGHT]

/-- The register fields that the loss of a Weaseif link may move (R203, Table WL-9). -/
def downFlds : List Fld :=
  [.CAD_STAMP_LO, .CH_BYTES, .CH_BYTE_CNT, .CH_CODE, .CH_CUR, .CH_DONE_CNT, .CH_DRAINING, .CH_ERR, .CH_ERR_ADDR,
    .CH_ERR_SPACE, .CH_FULL, .CH_HALF, .CH_HALT_CNT, .CH_RETRIES, .CH_STATE, .CH_WAITED, .CT_HL_TX_PAYLOAD,
    .CT_HL_TX_TLP, .CT_TL_HUB_RX_BYTES, .CT_TL_HUB_TX_BYTES, .CT_TN_DESC_BYTES, .CT_TN_DESC_DONE, .CT_TN_HALTS,
    .FI_CADENCE, .FI_DEADLINE_MISS, .FI_HOLDOFF, .FI_HOSTLINK, .FI_IN_COAL_CNT, .FI_IN_DROP_CNT, .FI_REPLY,
    .FI_SHEAF_LAG, .FI_TENANT_BROKEN, .FI_WAITING, .FI_WARD_CONT, .FI_WARD_CORR, .FI_WARD_FATAL, .HL_CLKREQ,
    .HL_CUR_SPEED, .HL_DROP_CNT, .HL_L1SUB, .HL_LTSSM, .HL_PME_WAKE, .HL_RECOV_CNT, .KP_FATAL_HOLD, .TN_STALE_CNT,
    .TR_STREAM_PAUSED, .WD_ACCESS, .WD_CONT_CNT, .WD_CORR_CNT, .WD_DETAIL, .WD_FATAL_CNT, .WD_FAULT_WORD, .WD_FC_ADDR,
    .WD_FC_ERA, .WD_FC_MASTER, .WD_FC_STAMP, .WD_FN_DRIVEN, .WD_FN_LEVEL, .WD_GROUP, .WD_INJECTED, .WD_INJ_CNT,
    .WD_INJ_WORD, .WD_JR_LOST_CNT, .WD_JR_QUEUED, .WD_LINE, .WD_LINES, .WD_MINW_RUN, .WD_PRESEED, .WD_REACT,
    .WD_REACT_ERA, .WD_REACT_STAMP, .WD_VALID, .WL_DOWN, .WL_DOWN_CNT, .WL_FLUSHED, .WL_FLUSHPKT_CNT, .WL_GRACE_RUN,
    .WL_LSTATE, .WL_RESHAPE_BUSY, .WP_EYE_H, .WP_EYE_W, .WP_HEALTH, .WP_LN_BITS_CNT, .WP_LN_ERR_CNT, .WP_LSTATE,
    .WP_PRBS_PEND, .WP_PRBS_SYNC]

/-- The register fields that the end of a generation of a tenant may move (R286, R287). -/
def cutFlds : List Fld :=
  [.CAD_STAMP_LO, .CH_BYTES, .CH_BYTE_CNT, .CH_CODE, .CH_CUR, .CH_DONE_CNT, .CH_DRAINING, .CH_ERR, .CH_ERR_ADDR,
    .CH_ERR_SPACE, .CH_FULL, .CH_HALF, .CH_HALT_CNT, .CH_RETRIES, .CH_STATE, .CH_WAITED, .CT_HL_TX_PAYLOAD,
    .CT_HL_TX_TLP, .CT_SD_LAG, .CT_TN_DESC_BYTES, .CT_TN_DESC_DONE, .CT_TN_HALTS, .DVSEC_GENERATION, .FI_CADENCE,
    .FI_DEADLINE_MISS, .FI_HOLDOFF, .FI_HOSTLINK, .FI_IN_COAL_CNT, .FI_IN_DROP_CNT, .FI_REPLY, .FI_SHEAF_LAG,
    .FI_TENANT_BROKEN, .FI_WAITING, .FI_WARD_CONT, .FI_WARD_CORR, .FI_WARD_FATAL, .HL_CLKREQ, .HL_CUR_SPEED,
    .HL_DROP_CNT, .HL_L1SUB, .HL_LTSSM, .HL_PME_WAKE, .HL_RECOV_CNT, .KP_CANCEL_CNT, .KP_CMD_CNT, .KP_CTX_BUSY,
    .KP_FAIL_CNT, .KP_FATAL_HOLD, .KP_KSTATE, .KP_RESTART_CNT, .KP_SCHED_ALL, .KR_ACTIVE, .KR_FAIL_CNT, .KR_FETCH_ERR,
    .KR_IN_FLIGHT, .KR_RPL_PI, .KR_SCHEDULED, .KR_STOPPED, .SH_EXCUSED, .SH_WAITING, .TI_CELLS_USED, .TI_CONS_OUT,
    .TI_OUTSTANDING, .TI_QUARANTINED, .TI_RQ_SPEC_CNT, .TN_CELLS_USED, .TN_FREEZE_SET, .TN_GENERATION, .TN_GEN_CNT,
    .TN_LIVE_TAGS, .TN_LOG_ON, .TN_QUAR_TAGS, .TR_STREAM_PAUSED, .WD_ACCESS, .WD_CONT_CNT, .WD_CORR_CNT, .WD_DETAIL,
    .WD_FATAL_CNT, .WD_FAULT_WORD, .WD_FC_ADDR, .WD_FC_ERA, .WD_FC_MASTER, .WD_FC_STAMP, .WD_FN_DRIVEN, .WD_FN_LEVEL,
    .WD_GROUP, .WD_INJECTED, .WD_INJ_CNT, .WD_INJ_WORD, .WD_JR_LOST_CNT, .WD_JR_QUEUED, .WD_LINE, .WD_LINES,
    .WD_MINW_RUN, .WD_PRESEED, .WD_REACT, .WD_REACT_ERA, .WD_REACT_STAMP, .WD_VALID, .WL_GRACE_RUN, .WL_LSTATE]

/-- The parts that the loss of a Weaseif link may move. -/
def downParts : List Part :=
  [.cad, .cfg, .chans, .heldCauses, .hls, .hostQ, .inRds, .journal, .logs, .trace, .vecs, .wls, .wps]

/-- The parts that the end of a generation of a tenant may move. -/
def cutParts : List Part :=
  [.cad, .cfg, .chans, .dirty, .heldCauses, .hls, .hostQ, .journal, .keeper, .locReqs, .logs, .sheafAcc, .sheafPkts,
    .tags, .tens, .trace, .upd, .vecs, .wls, .wps]

/-- The register blocks, all of them. -/
def allBlks : List Blk :=
  [.cadence, .channel, .clock, .cmdring, .counters, .devinfo, .dvsec, .fnirq, .hostlink, .hub, .intwin, .inwin,
    .keeper, .outwin, .power, .sheaf, .tenant, .tiller, .trace, .ward, .weaseif, .wlane]

/-! ### Premises of the statements about packets -/

/-- A function answers memory requests at its BAR2 (R73, R81, R97, R106, R378). -/
abbrev TakesBar2 (m : HostMem) (s : State) : Prop :=
  s.dlUp m.fn.hl = true ∧ s.tlOn (hlTiller m.fn.hl) = true ∧ recovery s = false ∧ fnEnabled s (fnIdx m.fn) = true ∧
  (s.cf (fnIdx m.fn)).mse = true ∧ (s.cf (fnIdx m.fn)).d3 = false ∧ (s.cf (pfIdx m.fn.hl)).d3 = false ∧ s.react = false ∧
  (m.fn.vf.val = 0 ∨ ∃ tn, s.boundTn (fnIdx m.fn) = some tn ∧ tnDead s tn = false) ∧ inboundFull s m.fn.hl = false ∧
  m.offset + m.len ≤ bar2Bytes s (fnIdx m.fn)

/-- WLn takes packet `p`, whose TAG Table WT-1 can hold and which was not accepted before the link started fresh (R205,
R237). -/
abbrev Taken (s : State) (n : Nat) (p : Pkt) : Prop := linkTakes s n = true ∧ actedOn s n p = p ∧ p.tag < 4096

/-- An event of line `l` of WLn forces no fatal reaction, nor does the record of it that finds no place (R371, R393). -/
abbrev Calm (s : State) (n l : Nat) : Prop := lineClass s (wlTiller n) l ≠ 2 ∧ lineClass s 13 1 ≠ 2

/-- Nothing of the bridge or of a host waits on WLn. -/
abbrev NoneWaits (s : State) (n : Nat) : Prop := (s.wl n).linkQ = [] ∧ (s.wl n).wlTags = [] ∧ waiting s n = []

/-- A packet of WLn passes outbound window `i`, which is no sheaf window, to a destination that takes it. -/
abbrev Passes (s : State) (n i : Nat) (p : Pkt) (bit : Fld) : Prop :=
  findOut s n p.addr = some i ∧ missCause s n i p bit = 0 ∧ s.on .OW_SHEAF i = false ∧
  undeliverable s (owDest s i).1 = 0 ∧ resetting s (owDest s i).2 = false ∧
  ((owDest s i).2 < 256 → s.tnState (owDest s i).2 ≠ 3)

/-! ### Commands of the Keeper -/

/-- The tenant that a command names is there for it: it is not FREE, and PENDING only for TENANT_QUERY (R338). -/
def tenantThere (op : Nat) (r : CmdReq) (s : State) : Bool :=
  decide (256 ≤ targetOf s r) || op == 0x0201 ||
    !(s.tnState (targetOf s r) == 0 || (s.tnState (targetOf s r) == 5 && op != 0x0205))

/-- The checks of R338 that are common to all commands find nothing against a command of opcode `op` that is to run at
once: the always-on block and PD_KEEP are up and the Keeper runs (in ROM recovery mode only what R365 serves), no
reaction is in force but for what R364 serves, a place is left in the reply queue of SMP, the header is well formed,
`allowed` (the privilege of Table KP-5) holds, the target is one that the issuer may name, no command of the same
opcode waits on the same target `key` (R336), no other command of the issuer is taken before it (R361), and there is a place
for a command that always waits for a boundary (R337). -/
abbrev Served (op key : Nat) (allowed : Bool) (r : CmdReq) (s : State) : Prop :=
  s.aonRuns = true ∧ s.domOn dKeep = true ∧ (s.rd .KP_KSTATE = 1 ∨ s.rd .KP_KSTATE = 2) ∧
  (recovery s = false ∨ ((op / 256 = 8 ∨ op = 0x0100 ∨ op = 0x0101) ∧ (r.iss = .smp ∨ ringIdx r.iss = 0))) ∧
  (s.react = false ∨ (servedInReaction op = true ∧ isPfOrSmp r.iss = true)) ∧
  (r.iss = .smp → s.keeper.smpReplies.length < 8) ∧
  r.hver = 2 ∧ r.plen ≤ 4064 ∧ r.resv = false ∧ r.atEpoch = false ∧
  allowed = true ∧ foreignTarget s r = false ∧ (unbound s r.iss = false ∨ op = 0x0100 ∨ op = 0x0101) ∧
  (r.target < 256 ∨ r.target = 0xFFFF) ∧ tenantThere op r s = true ∧ busySame s op key = false ∧
  outOfTurn s r op = false ∧ (atBoundary op = true → s.keeper.sched.length < 256)

/-- A command acts on a tenant that is there and not BROKEN (R291, R342). -/
abbrev Acts (r : CmdReq) (s : State) : Prop := targetOf s r ≠ 0xFFFF ∧ s.tnState (targetOf s r) ≠ 4

/-- The final reply of a command, with its status and data, is the last thing that happened on the way to `t`. -/
def Answered (r : CmdReq) (op status : Nat) (data : Bytes) (t : State) : Prop := ∃ u, t = finish r op status data u

/-- The final reply of a command, with its status and data, is sent from a state of which `p` holds, on the way to `t`. -/
def Replies (r : CmdReq) (op status : Nat) (data : Bytes) (p : State → Prop) (t : State) : Prop :=
  ∃ u, p u ∧ t = finish r op status data u

end Sys2Proof.Machine
end

