-- ==== Sys2Proof/Certificates/Slice0/Obligations.lean ====
section
/-!
DEFINITION. The statements for the provers.  Each is a proposition over the model alone; its docstring says what it states
and which rules of the spec it rests on.  A clause that rests on a choice of the model names the log entry.
-/
open Sys2Proof Sys2Proof.Machine

/-- A step runs the command at the front of the queue: it is `exec` of that command on the state with the queue's
rest. On an empty queue the block idles, which is the model's choice (log entry 12). Every command completes,
whatever its operands and whatever the state: `exec` answers a next state, with the queue as it was and all that was
sent still sent. The one operand that cannot occur on the wire, a grain whose payload is not 64 bytes (R181), is
excepted. -/
def Obligations.StepRunsFront : Prop :=
  (∀ (c : Instr) (rest : List Instr) (s : State), s.pending = c :: rest → step s = exec c { s with pending := rest }) ∧
  (∀ s : State, s.pending = [] → step s = .next s) ∧
  (∀ (c : Instr) (s : State), (∀ wl g, c = .grainReceived wl g → g.payload.length = 64) →
    ∃ t, exec c s = .next t ∧ t.pending = s.pending ∧ s.out <+: t.out)

/-- Every step keeps the invariant: the register table stays in its canonical form, sorted, with every entry within
its field's width and different from the field's reset value, and the stamp stays a 64-bit number (R27). -/
def Obligations.StepKeepsInvariant : Prop :=
  ∀ s t : State, Inv s → step s = .next t → Inv t

/-- No step, whatever the command, changes a fuse that is programmed at manufacture (the serial number, the keys and
the OEM key hash), and none lowers the anti-rollback counter (R439, R452). -/
def Obligations.FusesNeverChange : Prop :=
  ∀ s t : State, step s = .next t → FusesKept s.upd t.upd

/-- The state after reset meets the invariant, its queue is empty, and every register field reads the reset value of
its table, of which some are written out. The flash is that of a module as shipped (R500): a valid image in slot A
and none in slot B, an empty configuration store and a journal that starts with its GENESIS record; the anti-rollback
counter is 0. A field whose reset value the spec does not give reads what log entries 3 and 5 name. -/
def Obligations.ResetState : Prop :=
  Inv State.reset ∧ State.reset.pending = [] ∧ State.reset.hostQ = [] ∧
  (∀ (f : Fld) (i j : Nat), State.reset.rd f i j = f.reset i j) ∧
  State.reset.rd .CAD_EN = 1 ∧ State.reset.rd .CAD_NOMINAL = 250000 ∧ State.reset.rd .CAD_STATE = 0 ∧
  State.reset.rd .CAD_OUT_WIDTH = 10 ∧
  (∀ hl : Nat, State.reset.rd .HL_TARGET_SPEED hl = 6 ∧ State.reset.rd .HL_LTSSM hl = 10 ∧
    State.reset.rd .HL_L0P_WINDOW hl = 64 ∧ State.reset.rd .HL_LTR_IDLE_TICKS hl = 128) ∧
  (∀ n : Nat, State.reset.rd .WL_REPLAY_LIMIT n = 4 ∧ State.reset.rd .WL_LSTATE n = 0 ∧ State.reset.rd .WP_STATE n = 0 ∧
    State.reset.rd .WP_TARGET_RATE n = 3 ∧ State.reset.rd .WP_LANE_EN n = 15) ∧
  (∀ n : Nat, State.reset.rd .TN_STATE n = 0 ∧ State.reset.rd .CH_STATE n = 0 ∧ State.reset.rd .DVSEC_TNID n = 0xFFFF) ∧
  State.reset.rd .DEV_VENDOR = 0x1D5E ∧ State.reset.rd .WD_FAULT_WORD = 0 ∧
  State.reset.upd.active = 0 ∧ State.reset.upd.slotA.valid = true ∧ State.reset.upd.slotB.valid = false ∧
  State.reset.upd.arbFuse = 0 ∧ State.reset.store = StoreS.empty ∧ State.reset.journal.recs.map (·.seq) = [1]

/-- A well-formed command of the Keeper carries a well-formed header: TAG, TARGET and NOT_BEFORE within the fields of
Table KP-1 (R330). -/
def Obligations.KeeperHeaders : Prop :=
  ∀ i : Instr, Sys2Proof.Laws.Wire.Statement i

/-- Boundaries of the stamp (R27): a tick boundary that does not end an epoch moves the stamp to the start of the
next tick; one that does, and an epoch boundary, move it to the first tick of the next epoch; with no era roll and no
CHECKPOINT due it stands at PHASE 0 and FINE 0. At the wrap of EPOCH the era count rises by one and ERA_ROLL is set
(R29), whether a tick boundary or an epoch boundary tells of it. -/
def Obligations.StampAndEra : Prop :=
  (∀ s : State, s.aonRuns = true → s.cad.stamp < 2 ^ 64 → s.cad.stamp / tickUnits % 1024 ≠ 1023 →
    Completes .tickBoundary s (fun t => t.cad.stamp = (s.cad.stamp / tickUnits + 1) * tickUnits ∧
      t.rd .CAD_ERA = s.rd .CAD_ERA ∧ t.rd .CAD_STATE = s.rd .CAD_STATE)) ∧
  (∀ s : State, s.aonRuns = true → s.cad.stamp / tickUnits % 1024 = 1023 →
    Completes .tickBoundary s (fun t => t.epoch = (s.epoch + 1) % 2 ^ 32 ∧ t.cad.stamp / tickUnits % 1024 = 0 ∧
      t.rd .CAD_STATE = s.rd .CAD_STATE)) ∧
  (∀ s : State, s.aonRuns = true →
    Completes .epochBoundary s (fun t => t.epoch = (s.epoch + 1) % 2 ^ 32 ∧ t.cad.stamp / tickUnits % 1024 = 0 ∧
      t.rd .CAD_STATE = s.rd .CAD_STATE)) ∧
  (∀ s : State, s.aonRuns = true → s.cad.stamp < 2 ^ 64 → s.epoch ≠ 2 ^ 32 - 1 →
    (∀ c, s.journal.ceiling = some c → s.eraEpoch + 32769 < c) →
    Completes .epochBoundary s (fun t => t.cad.stamp % 2 ^ 32 = 0 ∧ t.rd .CAD_ERA = s.rd .CAD_ERA)) ∧
  (∀ s : State, s.aonRuns = true → s.epoch = 2 ^ 32 - 1 →
    Completes .epochBoundary s (fun t => t.rd .CAD_ERA = (s.rd .CAD_ERA + 1) % 2 ^ 16 ∧ t.rd .CAD_ERA_ROLL = 1) ∧
    (s.cad.stamp / tickUnits % 1024 = 1023 →
      Completes .tickBoundary s (fun t => t.rd .CAD_ERA = (s.rd .CAD_ERA + 1) % 2 ^ 16 ∧ t.rd .CAD_ERA_ROLL = 1)))

/-- The loop's events (R33 to R36, Table CD-3). A level held under 50 ns is no pulse. Of a pulse that is one: the
first takes FREE to ACQUIRING with one reference; the one that makes two agreeing intervals takes it to LOCKED with
their mean as the period and a slip; in LOCKED one near a boundary gives the phase error and the direction of the
slew. 1.5 epochs of stamp without one take LOCKED to COASTING with LOST_PULSE; 2 s without one take ACQUIRING to
FREE; a slew ends; an overdue CHECKPOINT latches STORE line 19 at the Ward. The manager's writes of the cadence unit
(R32, R36): EN and SRC take their new value and the loop goes to FREE where they say so; CAD_NOMINAL is always
stored. -/
def Obligations.CadenceUnit : Prop :=
  (∀ (high : Bool) (w i : Nat) (sub : Fin 4194304) (s : State), s.aonRuns = true → w < 50 →
    Completes (.cadencePulse w i ⟨high, sub⟩) s (fun t => t.rd .CAD_STATE = s.rd .CAD_STATE ∧ t.cad.refs = s.cad.refs ∧
      t.cad.lastStamp = s.cad.lastStamp)) ∧
  (∀ (high : Bool) (w i : Nat) (sub : Fin 4194304) (s : State), s.aonRuns = true → 100 ≤ w → s.rd .CAD_EN = 1 → s.rd .CAD_SRC = 0 →
    high ≠ s.on .CAD_EDGE → high ≠ s.cad.inLevel →
    (s.rd .CAD_STATE = 0 → Completes (.cadencePulse w i ⟨high, sub⟩) s (fun t => t.rd .CAD_STATE = 1 ∧ t.cad.refs = 1 ∧
      t.cad.onNominal = false)) ∧
    (s.rd .CAD_STATE = 1 → s.cad.period ≤ 4 * i → s.cad.refs = 2 → inRange i 1 = true → inRange s.cad.prevInterval 1 = true →
      200 * (max i s.cad.prevInterval - min i s.cad.prevInterval) ≤ i + s.cad.prevInterval → (i + s.cad.prevInterval) % 2 = 0 →
      s.cad.onNominal = false → s.cad.toNominal = false →
      Completes (.cadencePulse w i ⟨high, sub⟩) s (fun t => t.rd .CAD_STATE = 2 ∧ t.rd .CAD_SLIP = 1 ∧
        t.rd .CAD_PERIOD = (i + s.cad.prevInterval) / 2)) ∧
    (s.rd .CAD_STATE = 2 → s.cad.period ≤ 4 * i → s.stamp / tickUnits * tickUnits + sub.val ≤ s.stamp →
      (s.phase ≤ 6553 → Completes (.cadencePulse w i ⟨high, sub⟩) s (fun t => t.rd .CAD_STATE = 2 ∧
        t.rd .CAD_PHASE_ERR = s.phase ∧ t.cad.slew = (if s.phase = 0 then 0 else 1))) ∧
      (58982 ≤ s.phase → Completes (.cadencePulse w i ⟨high, sub⟩) s (fun t => t.rd .CAD_STATE = 2 ∧
        t.rd .CAD_PHASE_ERR = 2 ^ 32 - (65536 - s.phase) ∧ t.cad.slew = 2)))) ∧
  (∀ s : State, s.rd .CAD_STATE = 2 → s.cad.lastStamp + 98304 * 2 ^ 16 ≤ s.now →
    Completes .coastingOnset s (fun t => t.rd .CAD_STATE = 3 ∧ t.rd .CAD_LOST_PULSE = 1 ∧ t.rd .CAD_PERIOD = s.rd .CAD_PERIOD)) ∧
  (∀ s : State, s.rd .CAD_STATE = 1 →
    Completes .acquireTimeout s (fun t => t.rd .CAD_STATE = 0 ∧ t.rd .CAD_PERIOD = s.rd .CAD_PERIOD)) ∧
  (∀ s : State, Completes .slewEnd s (fun t => t.cad.slew = 0 ∧ t.cad.stamp = s.cad.stamp)) ∧
  (∀ s : State, checkpointWaits s = true → s.journal.ckQueuedAt + 1024 ≤ s.eraEpoch →
    Completes .checkpointOverdue s (fun t => (t.rd .WD_LINES 0 13).testBit 19 = true)) ∧
  (∀ (fn : Fn) (en : Bool) (s : State), mgrWrites s fn = true → s.rd .CAD_LOCK = 0 → s.on .CAD_EN ≠ en →
    Completes (.cadEnChange fn en) s (fun t => t.rd .CAD_EN = (if en then 1 else 0) ∧ (en = false → t.rd .CAD_STATE = 0) ∧
      t.rd .CAD_PERIOD = s.rd .CAD_PERIOD)) ∧
  (∀ (fn : Fn) (src : Bool) (s : State), mgrWrites s fn = true → s.rd .CAD_LOCK = 0 → s.on .CAD_SRC ≠ src →
    Completes (.cadSrcChange fn src) s (fun t => t.rd .CAD_SRC = (if src then 1 else 0) ∧ (src = true → t.rd .CAD_STATE = 0) ∧
      t.rd .CAD_PERIOD = s.rd .CAD_PERIOD)) ∧
  (∀ (fn : Fn) (v : BitVec 32) (s : State), mgrWrites s fn = true → s.rd .CAD_LOCK = 0 →
    Completes (.cadNominalWrite fn v) s (fun t => t.rd .CAD_NOMINAL = v.toNat ∧ t.rd .CAD_PERIOD = s.rd .CAD_PERIOD))

/-- Anchoring the cadence to PTM time (R39, R40): CADENCE_ANCHOR waits for the first boundary that NOT_BEFORE admits;
there the bridge notes era and EPOCH and asks for PTM time; the response is journalled with the reply and ends the
anchor; so does 1 ms without one. -/
def Obligations.CadenceAnchors : Prop :=
  (∀ (r : CmdReq) (hl tai : Nat) (s : State), Served 0x0601 0 (hasLink s r.iss hl) r s → r.plen = 16 → s.present hl = true →
    s.tlOn (hlTiller hl) = true → s.domOn (dHphy (hlTiller hl)) = true → (s.cf (pfIdx hl)).ptmEn = true →
    s.rd .CAD_STATE ≠ 1 → s.keeper.anchor = none →
    let d := (r.notBefore + 2 ^ 32 - s.epoch) % 2 ^ 32
    (d ≤ 2 ^ 24 ∨ 2 ^ 31 < d) →
    Completes (.cadenceAnchor r hl tai) s (fun t => ∃ e, t.keeper.sched = s.keeper.sched ++ [e] ∧
      e.cmd = .cadenceAnchor hl tai ∧ e.due = s.eraEpoch + (if 1 ≤ d ∧ d ≤ 2 ^ 24 then d else 1))) ∧
  (∀ (hl tai : Nat) (e : Sched) (s : State), keeperUp s = true →
    dueSched s (fun e => match e.cmd with | .cadenceAnchor _ _ => true | _ => false) = some e →
    e.cmd = .cadenceAnchor hl tai → e.mgr = true → e.req.plen = 16 → e.req.resv = false → unbound s e.req.iss = false →
    foreignTarget s e.req = false → s.react = false → (e.req.target < 256 ∨ e.req.target = 0xFFFF) →
    tenantThere 0x0601 e.req s = true → (atDue s e.req.notBefore).isSome = true → s.present hl = true → s.tlOn (hlTiller hl) = true →
    s.domOn (dHphy (hlTiller hl)) = true → (s.cf (pfIdx hl)).ptmEn = true → s.rd .CAD_STATE ≠ 1 →
    Completes .anchorBoundary s (fun t => t.keeper.sched = s.keeper.sched.erase e ∧
      (∃ a, t.keeper.anchor = some a ∧ a.hl = hl ∧ a.era = s.era ∧ a.epoch = s.epoch ∧ a.taiOffset = tai) ∧
      (s.dlUp hl = true → Out.msg (fnOf (pfIdx hl)) .ptmRequest ∈ t.out))) ∧
  (∀ (a : AnchorS) (ptm rtt : Nat) (s : State), s.keeper.anchor = some a → draining s = false →
    Completes (.ptmResponse ptm rtt) s (fun t => t.keeper.anchor = none ∧
      (jTakes s (.anchor a.hl (anchorReply s a ptm rtt)) = true →
        ∃ x ∈ t.journal.queue, x.body = .anchor a.hl (anchorReply s a ptm rtt)))) ∧
  (∀ (a : AnchorS) (s : State), s.keeper.anchor = some a → draining s = false →
    Completes .ptmTimeout s (fun t => t.keeper.anchor = none ∧ t.journal = s.journal))

/-- The reset events of Table HL-3 (R60, R64): where each leaves the link, that the data link is down, and the event
bits and the DL_Down count. A conventional reset of a link's functions (R61) clears the PF's Bus Master Enable and VF
Enable, keeps TARGET_SPEED and HOLD of the link, and leaves manager authority where it was. -/
def Obligations.HostLinkResets : Prop :=
  (∀ (hl : Hl) (s : State), s.pins.perst.testBit hl = false → hlLive s hl = true →
    Completes (.perstAssert hl) s (fun t => t.pins.perst.testBit hl = true ∧ t.rd .HL_PERST hl = 1 ∧ t.rd .HL_LTSSM hl = 10 ∧
      t.rd .HL_DL_UP hl = 0 ∧ t.rd .HL_PERST_ASSERT hl = 1)) ∧
  (∀ (hl : Hl) (s : State),
    Completes (.perstDeassert hl) s (fun t => t.pins.perst.testBit hl = false ∧ (t.hl hl).wakeDriven = false ∧
      (hlLive s hl = true → t.rd .HL_PERST hl = 0))) ∧
  (∀ (hl : Hl) (s : State), hlLive s hl = true → s.dlUp hl = true →
    Completes (.hotResetReceived hl) s (fun t => t.rd .HL_LTSSM hl = 0 ∧ t.rd .HL_DL_UP hl = 0 ∧ t.rd .HL_HOT_RESET hl = 1 ∧
      t.rd .HL_DL_DOWN hl = 1 ∧ t.rd .HL_DOWN_CNT hl = (s.rd .HL_DOWN_CNT hl + 1) % 2 ^ 64) ∧
    Completes (.dlDown hl) s (fun t => t.rd .HL_LTSSM hl = 0 ∧ t.rd .HL_DL_UP hl = 0 ∧
      t.rd .HL_DL_DOWN hl = 1 ∧ t.rd .HL_DOWN_CNT hl = (s.rd .HL_DOWN_CNT hl + 1) % 2 ^ 64)) ∧
  (∀ (hl : Hl) (s : State), hlLive s hl = true → s.rd .HL_LTSSM hl ≠ 10 → s.rd .HL_LTSSM hl ≠ 7 →
    Completes (.linkDisable hl) s (fun t => t.rd .HL_LTSSM hl = 7 ∧ t.rd .HL_DL_UP hl = 0 ∧ (t.hl hl).disabled = true)) ∧
  (∀ (hl : Hl) (s : State), hlLive s hl = true → (s.hl hl).disabled = true → s.rd .HL_LTSSM hl = 7 →
    Completes (.linkDisableEnd hl) s (fun t => t.rd .HL_LTSSM hl = 0 ∧ (t.hl hl).disabled = false)) ∧
  (∀ (fn : Fn) (hl : Hl) (hold : Bool) (s : State), mgrWrites s fn = true → hlLive s hl = true →
    Completes (.hlHoldWrite fn hl hold) s (fun t => t.rd .HL_HOLD hl = (if hold then 1 else 0) ∧
      (hold = true → t.rd .HL_LTSSM hl = 10))) ∧
  (∀ (hl : Hl) (s t : State), hlLive s hl = true → s.dlUp hl = true → exec (.dlDown hl) s = .next t →
    (t.cf (pfIdx hl)).bme = false ∧ (t.cf (pfIdx hl)).vfEnable = false ∧
    t.rd .HL_TARGET_SPEED hl = s.rd .HL_TARGET_SPEED hl ∧ t.rd .HL_HOLD hl = s.rd .HL_HOLD hl ∧
    t.keeper.mgrHl = s.keeper.mgrHl ∧ t.keeper.mgrSmp = s.keeper.mgrSmp)

/-- A link comes up (R64, R65, R426): Detect, L0 at 2.5 GT/s with the width trained, and readiness of the PF with its
DRS message. REFCLK of a port (R50, R398): a stop shows on every live link of the port, and outside L1.1, L1.2, L2
and reset takes the link to Detect with REFCLK_LOST; its return shows on every live link and in CK_READY. -/
def Obligations.HostLinkBringUp : Prop :=
  (∀ (hl : Hl) (s : State), hlLive s hl = true → hphyReady s (hlTiller hl) = true → s.rd .HL_HOLD hl = 0 →
    s.pins.perst.testBit hl = false → s.rd .HL_LTSSM hl = 10 →
    Completes (.detectEntry hl) s (fun t => t.rd .HL_LTSSM hl = 0)) ∧
  (∀ (hl : Hl) (width : Nat) (flit reversed : Bool) (s : State), hlLive s hl = true → hphyReady s (hlTiller hl) = true →
    s.rd .HL_LTSSM hl = 0 → s.pins.perst.testBit hl = false → width ∈ [1, 2, 4, 8, 16] → width ≤ s.rd .HL_MAX_WIDTH hl →
    Completes (.dlUp hl width flit reversed) s (fun t => t.rd .HL_LTSSM hl = 3 ∧ t.rd .HL_DL_UP hl = 1 ∧
      t.rd .HL_CUR_SPEED hl = 1 ∧ t.rd .HL_CUR_WIDTH hl = width ∧ t.rd .HL_FLIT hl = (if flit then 1 else 0) ∧
      (width < s.rd .HL_MAX_WIDTH hl → t.rd .HL_WIDTH_CHG hl = 1) ∧
      (pfReady s hl = true → (s.hl hl).drsSent = false →
        t.rd .HL_DRS_SENT hl = 1 ∧ Out.msg (fnOf (pfIdx hl)) .drs ∈ t.out))) ∧
  (∀ (hl : Hl) (s : State), keeperUp s = true → hlLive s hl = true → hphyReady s (hlTiller hl) = true →
    Completes (.pfReady hl) s (fun t => pfReady t hl = true ∧
      (s.dlUp hl = true → (s.hl hl).drsSent = false →
        t.rd .HL_DRS_SENT hl = 1 ∧ Out.msg (fnOf (pfIdx hl)) .drs ∈ t.out))) ∧
  (∀ (port : Tiller) (hl : Hl) (s : State), hlTiller hl = port → hlLive s hl = true →
    Completes (.refclkLost port) s (fun t => t.rd .HL_REFCLK_OK hl = 0 ∧ t.pins.refclk.testBit port = false ∧
      (s.rd .HL_L1SUB hl < 2 → s.rd .HL_LTSSM hl ≠ 6 → s.rd .HL_LTSSM hl ≠ 10 →
        t.rd .HL_REFCLK_LOST hl = 1 ∧ t.rd .HL_LTSSM hl = 0))) ∧
  (∀ (port : Tiller) (hl : Hl) (s : State), hlTiller hl = port → hlLive s hl = true →
    Completes (.refclkRestored port) s (fun t => t.rd .HL_REFCLK_OK hl = 1 ∧ (t.rd .CK_READY).testBit (8 + port) = true))

/-- Speed and width (R51 to R53): a retrain enters Recovery; a speed change ends at the speed asked for, or with
EQ_FAIL at the highest that equalised; L0p takes the width to what the partner asks, to half after L0P_WINDOW ticks
of low traffic, or back to the full width when the traffic or a cadence-class packet calls for it. Low-power states,
LTR and margining (R54 to R58, R67): ASPM L1 of an idle link, L1 on the host's request with the substate that it
enables, and their ends; a margining command is answered without disturbing the link, a report by the parameter that
Table HL-4 gives (payloads: log entry 44). -/
def Obligations.HostLinkModes : Prop :=
  (∀ (fn : Fn) (hl : Hl) (s : State), mgrWrites s fn = true → hlLive s hl = true → s.dlUp hl = true →
    Completes (.hlRetrainWrite fn hl) s (fun t => t.rd .HL_RECOV_CNT hl = (s.rd .HL_RECOV_CNT hl + 1) % 2 ^ 64 ∧
      t.out = s.out ++ [.phy hl 1 0])) ∧
  (∀ (hl : Hl) (speed : Nat) (s : State), hlLive s hl = true → s.dlUp hl = true → s.rd .HL_LTSSM hl = 3 → 1 ≤ speed →
    speed ≤ targetSpeed s hl → (speed = 6 → s.rd .HL_FLIT hl = 1) →
    Completes (.speedChange hl speed true) s (fun t => t.rd .HL_CUR_SPEED hl = speed ∧
      t.rd .HL_RECOV_CNT hl = (s.rd .HL_RECOV_CNT hl + 1) % 2 ^ 64 ∧
      (speed ≠ (s.hl hl).speed → t.rd .HL_SPEED_CHG hl = 1)) ∧
    (∀ n ∈ [3, 4, 5, 6], 3 ≤ speed → n ≠ speed → (s.hl hl).eqSpeeds.testBit n = true →
      (∀ m ∈ [3, 4, 5, 6], n < m → m ≠ speed → (s.hl hl).eqSpeeds.testBit m = false) →
      Completes (.speedChange hl speed false) s (fun t => t.rd .HL_CUR_SPEED hl = n ∧ t.rd .HL_EQ_FAIL hl = 1))) ∧
  (∀ (hl : Hl) (width : Nat) (s : State), l0pRuns s hl = true → width ∈ [1, 2, 4, 8, 16] → width ≤ (s.hl hl).fullWidth →
    Completes (.l0pPartnerRequest hl width) s (fun t => t.rd .HL_CUR_WIDTH hl = width ∧
      (s.rd .HL_CUR_WIDTH hl ≠ width → t.rd .HL_WIDTH_CHG hl = 1))) ∧
  (∀ (hl : Hl) (s : State), RegsOk s.regs → l0pAuto s hl = true → l0pMin s hl ≤ s.rd .HL_CUR_WIDTH hl / 2 →
    s.rd .HL_L0P_WINDOW hl ≤ (s.hl hl).lowTicks →
    Completes (.l0pHalve hl) s (fun t => t.rd .HL_CUR_WIDTH hl = s.rd .HL_CUR_WIDTH hl / 2 ∧ t.rd .HL_WIDTH_CHG hl = 1)) ∧
  (∀ (hl : Hl) (s : State), l0pAuto s hl = true → l0pBusy s hl = true → (s.hl hl).fullWidth ≤ 16 →
    Completes (.l0pRestore hl) s (fun t => t.rd .HL_CUR_WIDTH hl = (s.hl hl).fullWidth)) ∧
  (∀ (hl : Hl) (s : State), hlLive s hl = true → s.dlUp hl = true → s.rd .HL_LTSSM hl = 3 →
    (s.cf (pfIdx hl)).aspmL1 = true → s.rd .HL_L1_IDLE_TICKS hl ≠ 0 → s.rd .HL_L1_IDLE_TICKS hl ≤ (s.hl hl).idleTicks →
    (∀ g ∈ s.tags, g.req.fn.hl = hl → g.quarantined = true) → (∀ q ∈ s.hostQ, q.fn.hl = hl → q.frozen = true) →
    Completes (.aspmL1Entry hl ⟨0, false⟩) s (fun t => t.rd .HL_LTSSM hl = 5 ∧ t.rd .HL_L1SUB hl = 1 ∧
      t.rd .HL_CUR_SPEED hl = 0 ∧ t.rd .HL_DL_UP hl = s.rd .HL_DL_UP hl)) ∧
  (∀ (hl : Hl) (substate : Fin 3) (s : State), hlLive s hl = true → s.dlUp hl = true → s.rd .HL_LTSSM hl = 3 →
    (substate.val ≠ 0 → (s.cf (pfIdx hl)).l1ss.testBit (2 - substate.val) = true) →
    Completes (.aspmL1Entry hl ⟨substate, true⟩) s (fun t => t.rd .HL_LTSSM hl = 5 ∧ t.rd .HL_L1SUB hl = 1 + substate.val ∧
      t.rd .HL_CUR_SPEED hl = 0 ∧ t.rd .HL_DL_UP hl = s.rd .HL_DL_UP hl)) ∧
  (∀ (hl : Hl) (s : State), hlLive s hl = true → s.rd .HL_LTSSM hl = 5 →
    Completes (.l1Exit hl) s (fun t => t.rd .HL_LTSSM hl = 3 ∧ t.rd .HL_L1SUB hl = 0 ∧
      t.rd .HL_CUR_SPEED hl = (s.hl hl).speed % 8)) ∧
  (∀ (hl : Hl) (s : State), hlLive s hl = true → s.dlUp hl = true →
    Completes (.l2Entry hl) s (fun t => t.rd .HL_LTSSM hl = 6 ∧ t.rd .HL_DL_UP hl = 0 ∧ (t.hl hl).inL2 = true ∧
      t.rd .HL_DOWN_CNT hl = s.rd .HL_DOWN_CNT hl)) ∧
  (∀ (hl : Hl) (s : State), hlLive s hl = true → s.dlUp hl = true → (s.cf (pfIdx hl)).ltrEn = true →
    (s.hl hl).ltrActive = false → (∃ q ∈ s.hostQ, q.fn.hl = hl ∧ q.frozen = false) →
    Completes (.ltrActive hl) s (fun t => (t.hl hl).ltrActive = true ∧
      Out.msg (fnOf (pfIdx hl)) (.ltr
        (ltrCapped (s.rd .HL_LTR_VALUE hl + s.rd .HL_LTR_SCALE hl * 1024) (s.cf (pfIdx hl)).ltrMaxSnoop)
        (ltrCapped (s.rd .HL_LTR_VALUE hl + s.rd .HL_LTR_SCALE hl * 1024) (s.cf (pfIdx hl)).ltrMaxNoSnoop)) ∈ t.out)) ∧
  (∀ (hl : Hl) (s : State), hlLive s hl = true → s.dlUp hl = true → (s.cf (pfIdx hl)).ltrEn = true →
    (s.hl hl).ltrActive = true → s.rd .HL_LTR_IDLE_TICKS hl ≠ 0 → s.rd .HL_LTR_IDLE_TICKS hl ≤ (s.hl hl).idleTicks →
    Completes (.ltrNoRequirement hl) s (fun t => (t.hl hl).ltrActive = false ∧ Out.msg (fnOf (pfIdx hl)) .ltrNone ∈ t.out)) ∧
  (∀ (hl : Hl) (lane command : Nat) (s : State), hlLive s hl = true → s.dlUp hl = true → 4 ≤ s.rd .HL_CUR_SPEED hl →
    lane < s.rd .HL_CUR_WIDTH hl →
    Completes (.laneMarginingCommand hl lane command) s (fun t => ∃ a,
      tget 0 (t.hl hl).margining lane = command % 2 ^ 16 + a * 2 ^ 16 ∧
      t.out = s.out ++ [.phy hl 6 (lane + (command % 2 ^ 16 + a * 2 ^ 16) * 16)] ∧ t.rd .HL_LTSSM hl = s.rd .HL_LTSSM hl ∧
      ∀ v, command / 8 % 8 = 1 →
        marginReport (s.rd .HL_CUR_SPEED hl) (s.hl hl).fullWidth (command / 256 % 256) = some v → a = command % 128 + v * 256))

/-- What configuration writes do to functions (R56, R65, R72, R74, R81, R156 to R158). -/
def Obligations.FunctionControl : Prop :=
  (∀ (hl : Hl) (s : State), cfgServed s (pfIdx hl) = true → (s.cf (pfIdx hl)).vfEnable = false →
    Completes (.vfEnableSet hl) s (fun t => (t.cf (pfIdx hl)).vfEnable = true ∧ (t.cf (pfIdx hl)).vfsReady = false ∧
      (t.hl hl).vfPending = true)) ∧
  (∀ (hl : Hl) (s : State), cfgServed s (pfIdx hl) = true →
    Completes (.vfEnableSet hl) s (fun t => (t.cf (pfIdx hl)).vfEnable = true) ∧
    Completes (.vfEnableClear hl) s (fun t => (t.cf (pfIdx hl)).vfEnable = false ∧
      ((s.cf (pfIdx hl)).vfEnable = true → (t.cf (pfIdx hl)).vfsReady = false ∧ (t.hl hl).vfPending = false)) ∧
    Completes (.d3hotEntry hl) s (fun t => (t.cf (pfIdx hl)).d3 = true) ∧
    Completes (.d0Return hl) s (fun t => (t.cf (pfIdx hl)).d3 = false)) ∧
  (∀ (hl : Hl) (s : State), hlLive s hl = true → (s.hl hl).vfPending = true → (s.cf (pfIdx hl)).vfEnable = true →
    Completes (.vfReady hl) s (fun t => (t.cf (pfIdx hl)).vfsReady = true ∧
      (s.dlUp hl = true → Out.msg (fnOf (pfIdx hl)) .frs ∈ t.out))) ∧
  (∀ (fn : Fn) (s : State), cfgServed s (fnIdx fn) = true →
    Completes (.flr fn) s (fun t => (t.cf (fnIdx fn)).bme = false ∧ (t.cf (fnIdx fn)).mse = false ∧
      (t.cf (fnIdx fn)).msixEn = false ∧ t.rd .FI_FN_EVENT_EN (fnIdx fn) = 0 ∧ t.rd .KR_EN (fnIdx fn) = 0) ∧
    Completes (.busMasterClear fn) s (fun t => (t.cf (fnIdx fn)).bme = false) ∧
    Completes (.busMasterSet fn) s (fun t => (t.cf (fnIdx fn)).bme = true)) ∧
  (∀ (hl : Hl) (v : BitVec 16) (s : State), cfgServed s (pfIdx hl) = true →
    Completes (.numvfsWrite hl v) s (fun t => (t.cf (pfIdx hl)).numVfs =
      if (s.cf (pfIdx hl)).vfEnable then (s.cf (pfIdx hl)).numVfs else min v.toNat (if recovery s then 0 else tget 0 s.store.totalVfs hl))) ∧
  (∀ (hl : Hl) (v : Fin 64) (s : State), cfgServed s (pfIdx hl) = true → 6 ≤ v.val → v.val ≤ 20 →
    Completes (.rebarSizeWrite hl v) s (fun t => (t.cf (pfIdx hl)).bar2Size = v))

/-- NumVFs (R72): a host write stores the value, or TotalVFs (0 in ROM recovery, R97) where the value is above it,
and is ignored while VF Enable is 1; the write changes nothing else of the PF, and no other function. -/
def Obligations.NumVfsWrites : Prop :=
  ∀ (hl : Hl) (v : BitVec 16) (s : State), cfgServed s (pfIdx hl) = true →
    let total := if recovery s then 0 else tget 0 s.store.totalVfs hl
    ((s.cf (pfIdx hl)).vfEnable = false → Completes (.numvfsWrite hl v) s (fun t =>
      (t.cf (pfIdx hl)).numVfs = (if total < v.toNat then total else v.toNat) ∧
      t.cf (pfIdx hl) = { s.cf (pfIdx hl) with numVfs := (t.cf (pfIdx hl)).numVfs } ∧
      ∀ k, k ≠ pfIdx hl → t.cf k = s.cf k)) ∧
    ((s.cf (pfIdx hl)).vfEnable = true → exec (.numvfsWrite hl v) s = .next s)

/-- Configuration requests (R65): UR where no function is, RRS (counted) while one is not ready; a read of the first
dword of a ready PF answers its vendor and device identifiers, at the places of PCI Express (log entry 4); a write of
Memory Space Enable is stored and completed. Reads of the expansion ROM window (R88): UR unless memory space and the
ROM BAR are enabled, the PF is in D0 and the read lies within 1 MiB; otherwise the bytes of the window. -/
def Obligations.ConfigurationAndRom : Prop :=
  (∀ (fn : Fn) (tag : Nat) (op : CfgOp) (s : State), hlLive s fn.hl = true → s.dlUp fn.hl = true → inboundFull s fn.hl = false →
    fnExists s (fnIdx fn) = false →
    Completes (.configRequest fn tag op) s (fun t => Out.cpl fn tag 1 0 [] ∈ t.out ∧ t.cfg = s.cfg)) ∧
  (∀ (fn : Fn) (tag : Nat) (op : CfgOp) (s : State), hlLive s fn.hl = true → s.dlUp fn.hl = true → inboundFull s fn.hl = false →
    fnExists s (fnIdx fn) = true → cfgServed s (fnIdx fn) = false →
    Completes (.configRequest fn tag op) s (fun t => Out.cpl fn tag 2 0 [] ∈ t.out ∧ t.cfg = s.cfg ∧
      t.rd .HL_RRS_CNT fn.hl = (s.rd .HL_RRS_CNT fn.hl + 1) % 2 ^ Fld.HL_RRS_CNT.width)) ∧
  (∀ (fn : Fn) (tag off : Nat) (s : State), fn.vf.val = 0 → cfgServed s (fnIdx fn) = true → off < 4 →
    Completes (.configRequest fn tag (.read off)) s (fun t => t.cfg = s.cfg ∧
      ∃ d, Out.cpl fn tag 0 4 d ∈ t.out ∧ num d 0 2 = 0x1D5E ∧ num d 2 2 = s.rd .DEV_DEVICE % 2 ^ 16)) ∧
  (∀ (fn : Fn) (tag v : Nat) (s : State), fnExists s (fnIdx fn) = true → cfgServed s (fnIdx fn) = true →
    Completes (.configRequest fn tag (.write .memSpaceEnable v)) s (fun t => Out.cpl fn tag 0 0 [] ∈ t.out ∧
      (t.cf (fnIdx fn)).mse = v.testBit 0 ∧ (t.cf (fnIdx fn)).bme = (s.cf (fnIdx fn)).bme)) ∧
  (∀ (hl : Hl) (off len tag : Nat) (s : State), hlLive s hl = true → s.dlUp hl = true → inboundFull s hl = false →
    ((s.cf (pfIdx hl)).mse = false ∨ (s.cf (pfIdx hl)).romEn = false ∨ (s.cf (pfIdx hl)).d3 = true ∨ 2 ^ 20 < off + len) →
    Completes (.expromRead hl off len tag) s (fun t => Out.cpl (fnOf (pfIdx hl)) tag 1 len [] ∈ t.out)) ∧
  (∀ (hl : Hl) (off len tag : Nat) (s : State), hlLive s hl = true → s.dlUp hl = true → inboundFull s hl = false → s.domOn dKeep = true →
    (s.cf (pfIdx hl)).mse = true → (s.cf (pfIdx hl)).romEn = true → (s.cf (pfIdx hl)).d3 = false → off + len ≤ 2 ^ 20 →
    1 ≤ len → len ≤ 128 → (∀ q ∈ s.inRds, q.id ≤ s.pktCount) →
    Completes (.expromRead hl off len tag) s (fun t =>
      Out.cpl (fnOf (pfIdx hl)) tag 0 len (sub (romWindow s hl) off len) ∈ t.out))

/-- Register accesses (R2, R4, R6, R73, R83, R328): an access that R2 does not admit, and one of a VF that is bound
to no tenant, is completed with UR and not applied; a PF that is not the manager writes nothing in PF BAR0; a write
acts as the field's access code says; a 64-bit write that sets LOCK applies both its words; and no access arrives on
a link that withholds credit (R204). -/
def Obligations.RegisterWrites : Prop :=
  (∀ (a : RegAccess) (s : State), ((a.size ≠ 4 ∧ a.size ≠ 8) ∨ a.off % a.size ≠ 0 ∨
      (a.fn.vf.val ≠ 0 ∧ s.boundTn (fnIdx a.fn) = none)) → inboundFull s a.fn.hl = false →
    exec (.registerWrite a) s = .next (emit (.reg a.fn a.bar.val a.off 1 []) (accessIn a.fn a.size s))) ∧
  (∀ (a : RegAccess) (s : State), a.fn.vf.val = 0 → a.bar = 0 → s.isMgr (fnIdx a.fn) = false →
    (writePlace s a.fn 0 a.off).bind (placeDark s) = none → accessUr s a.fn a.off a.size = false →
    inboundFull s a.fn.hl = false → exec (.registerWrite a) s = .next (accessIn a.fn a.size s)) ∧
  (∀ (a : RegAccess) (s : State), inboundFull s a.fn.hl = true → exec (.registerWrite a) s = .next s) ∧
  (∀ (fn : Fn) (hl : Hl) (v : Nat) (s : State), mgrWrites s fn = true → recovery s = false → s.present hl = true →
    s.tlOn (hlTiller hl) = true →
    Completes (.registerWrite ⟨fn, 0, 0x200018 + hl * 0x1000, 4, v⟩) s (fun t => t.rd .HL_LTR_VALUE hl = v % 1024 ∧
      t.rd .HL_LTR_SCALE hl = v / 1024 % 8 ∧ t.rd .HL_LTR_IDLE_TICKS hl = v / 65536 % 256 ∧
      t.rd .HL_HOLD hl = s.rd .HL_HOLD hl)) ∧
  (∀ (fn : Fn) (v : Nat) (s : State), mgrWrites s fn = true →
    Completes (.registerWrite ⟨fn, 0, 0x320004, 4, v⟩) s (fun t => ∀ d < 26, (t.rd .PW_DARK).testBit d =
      ((s.rd .PW_DARK).testBit d && !v.testBit d))) ∧
  (∀ (fn : Fn) (v : Nat) (s : State), fn.vf.val = 0 → fnWrites s fn = true →
    Completes (.registerWrite ⟨fn, 4, 0x10008, 4, v⟩) s (fun t => t.rd .KR_CMD_BASE_LO (fnIdx fn) =
      if s.on .KR_EN (fnIdx fn) then s.rd .KR_CMD_BASE_LO (fnIdx fn) else v / 4096 % 2 ^ 20)) ∧
  (∀ (fn : Fn) (v : Nat) (s : State), mgrWrites s fn = true → s.rd .CAD_LOCK = 0 → v.testBit 31 = true →
    Completes (.registerWrite ⟨fn, 0, 0x300000, 8, v⟩) s (fun t => t.rd .CAD_LOCK = 1 ∧
      t.rd .CAD_NOMINAL = v / 2 ^ 32 % 2 ^ 32))

/-- LOCK (R6): once set it stays, and the fields it freezes ignore writes. Reads of 64-bit registers (R7) and of the
stamp (Table CD-8): a low-word read latches the high word, for its own function alone; a 64-bit read shows one value
and loads no latch (it has no row of the table, log entry 82); and dark accesses (R421). -/
def Obligations.LocksAndLatches : Prop :=
  (∀ (fn : Fn) (v : BitVec 32) (s : State), mgrWrites s fn = true → v.toNat.testBit 31 = true →
    Completes (.lockSet fn .cadence v) s (fun t => t.rd .CAD_LOCK = 1)) ∧
  (∀ (fn : Fn) (v : BitVec 32) (s : State), mgrWrites s fn = true → v.toNat.testBit 31 = true → s.rd .CAD_LOCK = 0 →
    RegsOk s.regs →
    Completes (.lockSet fn .cadence v) s (fun t => t.rd .CAD_EN = (if v.toNat.testBit 0 then 1 else 0) ∧
      t.rd .CAD_EDGE = (if v.toNat.testBit 2 then 1 else 0))) ∧
  (∀ (fn : Fn) (v : BitVec 32) (s : State), mgrWrites s fn = true → s.rd .CAD_LOCK = 1 →
    Completes (.registerWrite ⟨fn, 0, 0x300000, 4, v.toNat⟩) s (fun t => t.rd .CAD_LOCK = 1 ∧ t.rd .CAD_EN = s.rd .CAD_EN ∧
      t.rd .CAD_SRC = s.rd .CAD_SRC ∧ t.rd .CAD_EDGE = s.rd .CAD_EDGE) ∧
    Completes (.cadNominalWrite fn v) s (fun t => t.rd .CAD_NOMINAL = s.rd .CAD_NOMINAL)) ∧
  (∀ (fn : Fn) (s : State), fn.vf.val = 0 → s.cad.stamp < 2 ^ 64 → inboundFull s fn.hl = false →
    Completes (.lowWordRead fn 0 0x300018) s (fun t => t.rd .CAD_STAMP_HI = (advance s).cad.stamp / 2 ^ 32 ∧
      Out.reg fn 0 0x300018 0 (le 4 ((advance s).rd .CAD_STAMP_LO)) ∈ t.out ∧
      ((s.cad.stamp + 1) % tickUnits ≠ 0 → (advance s).rd .CAD_STAMP_LO = (s.cad.stamp + 1) % 2 ^ 32))) ∧
  (∀ (fn : Fn) (s : State), fn.vf.val = 0 → inboundFull s fn.hl = false → s.domOn dKeep = true →
    Completes (.darkAccess ⟨fn, 0, 0x340010, 8, 0⟩ false) s (fun t => t.latches = s.latches ∧
      Out.reg fn 0 0x340010 0 (le 8 (s.rd .KP_CMD_CNT)) ∈ t.out)) ∧
  (∀ (fn : Fn) (s : State), fn.vf.val = 0 → inboundFull s fn.hl = false →
    Completes (.lowWordRead fn 0 0x340010) s (fun t => s.domOn dKeep = true →
      (∀ u, u.latches = t.latches → highWord u (fnIdx fn) ⟨.KP_CMD_CNT, 0, 0⟩ = s.rd .KP_CMD_CNT / 2 ^ 32) ∧
      (∀ f k, f ≠ fnIdx fn → latchOf t f k = latchOf s f k))) ∧
  (∀ (a : RegAccess) (write : Bool) (d : Nat) (s : State), accessUr s a.fn a.off a.size = false →
    darkAt s a.fn a.bar.val a.off ((if write then writePlace else place) s a.fn a.bar.val a.off) = some d → d < 26 →
    inboundFull s a.fn.hl = false →
    Completes (.darkAccess a write) s (fun t => (t.rd .PW_DARK).testBit d = true ∧
      t.rd .PW_DARK_CNT = (s.rd .PW_DARK_CNT + 1) % 2 ^ 64))

/-- Command rings (R328 to R331): enabling sets all four indices to 0; the doorbell stores CMD_PI and stops a ring
that runs more than 64 ahead; RPL_CI is taken only within 64 of RPL_PI; a fetch takes the next ring in round robin
and reads the 32-byte header of its next slot, or takes the next frame of the sideband port. -/
def Obligations.CommandRings : Prop :=
  (∀ (fn : Fn) (s : State), fnWrites s fn = true → s.on .KR_EN (fnIdx fn) = false →
    Completes (.ringEnWrite fn true) s (fun t => t.rd .KR_EN (fnIdx fn) = 1 ∧ t.rd .KR_CMD_PI (fnIdx fn) = 0 ∧
      t.rd .KR_CMD_CI (fnIdx fn) = 0 ∧ t.rd .KR_RPL_PI (fnIdx fn) = 0 ∧ t.rd .KR_RPL_CI (fnIdx fn) = 0)) ∧
  (∀ (fn : Fn) (s : State), fnWrites s fn = true → s.on .KR_EN (fnIdx fn) = true →
    Completes (.ringEnWrite fn false) s (fun t => t.rd .KR_EN (fnIdx fn) = 0 ∧ t.rd .KR_STOPPED (fnIdx fn) = 0)) ∧
  (∀ (fn : Fn) (v : BitVec 16) (s : State), fnWrites s fn = true → s.on .KR_EN (fnIdx fn) = true →
    Completes (.cmdPiWrite fn v) s (fun t => t.rd .KR_CMD_PI (fnIdx fn) = v.toNat ∧
      (64 < (v.toNat + 65536 - s.rd .KR_CMD_CI (fnIdx fn)) % 65536 →
        t.rd .KR_OVERRUN (fnIdx fn) = 1 ∧ t.rd .KR_STOPPED (fnIdx fn) = 1))) ∧
  (∀ (fn : Fn) (v : BitVec 16) (s : State), fnWrites s fn = true →
    Completes (.rplCiWrite fn v) s (fun t => t.rd .KR_RPL_CI (fnIdx fn) =
      if (s.rd .KR_RPL_PI (fnIdx fn) + 65536 - v.toNat) % 65536 ≤ 64 then v.toNat else s.rd .KR_RPL_CI (fnIdx fn))) ∧
  (∀ (f : Nat) (s : State), s.domOn dKeep = true → (s.rd .KP_KSTATE = 1 ∨ s.rd .KP_KSTATE = 2) → s.keeper.ctxs.length < 16 →
    nextRing ((enabledRings s).filter (ringReady s) ++ (if s.keeper.smpHeld < s.keeper.smpCmds.length then [16384] else []))
      s.keeper.rr = some f → f < 16384 → freeSlots s f ≠ 0 →
    Completes .commandFetch s (fun t => t.rd .KR_CMD_CI f = (s.rd .KR_CMD_CI f + 1) % 65536 ∧
      t.keeper.ctxs.length = s.keeper.ctxs.length + 1 ∧
      ∃ r, t.hostQ = s.hostQ ++ [r] ∧ r.fn = fnOf f ∧ r.kind = .read ∧ r.len = 32 ∧
        r.addr = (s.rd .KR_CMD_BASE_LO f * 4096 + s.rd .KR_CMD_BASE_HI f * 2 ^ 32 + s.rd .KR_CMD_CI f % 64 * 4096) % 2 ^ 64)) ∧
  (∀ (p : Bytes) (rest : List Bytes) (s : State), s.domOn dKeep = true → (s.rd .KP_KSTATE = 1 ∨ s.rd .KP_KSTATE = 2) →
    s.keeper.ctxs.length < 16 →
    nextRing ((enabledRings s).filter (ringReady s) ++ (if s.keeper.smpHeld < s.keeper.smpCmds.length then [16384] else []))
      s.keeper.rr = some 16384 → (∀ c ∈ s.keeper.ctxs, c.unknown = 0) →
    s.keeper.smpCmds.drop s.keeper.smpHeld = p :: rest → num p 0 2 ∈ opcodes →
    Completes .commandFetch s (fun t => t.keeper.smpHeld = s.keeper.smpHeld + 1 ∧
      ∃ c, t.keeper.ctxs = s.keeper.ctxs ++ [c] ∧ c.iss = .smp ∧ c.opcode = num p 0 2 ∧ c.tag = num p 2 2))

/-- A reply to a function's ring (R332): the data first, then the header as a write of its own behind it, in slot
RPL_PI mod 64, with the PHASE of the index; RPL_PI advances. -/
def Obligations.ReplyWritten : Prop :=
  ∀ (fn : Fn) (r : CmdReq) (op status : Nat) (data : Bytes) (s : State), r.iss = .fn fn → data ≠ [] →
    s.on .KR_EN (fnIdx fn) = true → s.tlOn (hlTiller fn.hl) = true → draining s = false →
    (∀ c ∈ s.keeper.ctxs, c.unknown = 0) →
    let f := fnIdx fn
    let slot := s.rd .KR_RPL_BASE_LO f * 4096 + s.rd .KR_RPL_BASE_HI f * 2 ^ 32 + s.rd .KR_RPL_PI f % 64 * 4096
    let t := finishGen r op status data (ringGen s r.iss) s
    t.rd .KR_RPL_PI f = (s.rd .KR_RPL_PI f + 1) % 65536 ∧
    t.rd .KP_CMD_CNT = (s.rd .KP_CMD_CNT + 1) % 2 ^ 64 ∧
    (status ≠ 0 → t.rd .KP_FAIL_CNT = (s.rd .KP_FAIL_CNT + 1) % 2 ^ 64) ∧
    ∃ a b rest, t.hostQ = s.hostQ ++ a :: b :: rest ∧ a.fn = fn ∧ a.kind = .write ∧ a.addr = (slot + 16) % 2 ^ 64 ∧
      a.data = data ∧ b.fn = fn ∧ b.kind = .write ∧ b.addr = slot % 2 ^ 64 ∧ b.ro = false ∧ b.data.length = 16 ∧
      num b.data 0 2 = op % 65536 ∧ num b.data 2 2 = r.tag % 65536 ∧ num b.data 4 1 = status % 256 ∧
      num b.data 5 1 = 128 * (1 - s.rd .KR_RPL_PI f / 64 % 2) ∧ num b.data 6 2 = data.length % 65536

/-- The Keeper's watchdog, the end of a drain and the end of a restart (R362, R363, R434, R449). A scheduled
TRACE_FILTER runs at its boundary under the authority it was accepted with, and leaves the schedule (R337). -/
def Obligations.KeeperRestarts : Prop :=
  (∀ s : State, keeperUp s = true →
    Completes .keeperWatchdog s (fun t => t.rd .KP_KSTATE = 4 ∧ t.rd .KP_WDOG_CNT = (s.rd .KP_WDOG_CNT + 1) % 2 ^ 64 ∧
      t.upd.pieces = [] ∧ t.keeper.sched = [] ∧ ∀ w ∈ t.keeper.waiting, w.kept = true)) ∧
  (∀ s : State, s.domOn dKeep = true → s.rd .KP_KSTATE = 3 →
    Completes .drainTimeout s (fun t => t.rd .KP_KSTATE = 4 ∧ t.upd.pieces = [] ∧ t.keeper.sched = [])) ∧
  (∀ s : State, s.domOn dKeep = true → s.rd .KP_KSTATE = 4 →
    Completes .keeperRestartDone s (fun t => (t.upd.running < 2 → t.rd .KP_KSTATE = 2) ∧
      (¬ t.upd.running < 2 → t.rd .KP_KSTATE = 1 ∧ t.rd .TI_RECOVERY = 1))) ∧
  (∀ (p : FilterParams) (e : Sched) (s : State), s.domOn dKeep = true → s.rd .KP_KSTATE = 2 → s.domOn dHub = true → s.react = false →
    dueSched s (fun e => (schedCmd e).isSome) = some e → e.cmd = .traceFilter p → e.mgr = true →
    e.req.plen = 64 → e.req.resv = false → unbound s e.req.iss = false → foreignTarget s e.req = false →
    (e.req.target < 256 ∨ e.req.target = 0xFFFF) → tenantThere 0x0901 e.req s = true → p.classEn < 2 ^ 14 → p.flags < 4 →
    Completes .scheduledCommandExec s (fun t => t.keeper.sched = s.keeper.sched.erase e ∧
      t.rd .TR_STOP_MODE = p.flags % 2 ∧ t.trace.filter.tenants = p.tenants ∧
      ((∀ c ∈ s.keeper.ctxs, c.unknown = 0) → t.rd .KP_CMD_CNT = (s.rd .KP_CMD_CNT + 1) % 2 ^ 64)))

/-- The sideband management port (R359, R360): a WRITE is taken, or discarded with FRAME_ERR, CRC_ERR or OVERFLOW;
READ gives the reply at the head of the queue and lets it go (one that waits for its place follows, log entry 95);
STATUS clears its error bits; a transaction ended early changes nothing. -/
def Obligations.SidebandPort : Prop :=
  (∀ (len : Nat) (p : Bytes) (crc : Nat) (s : State), s.aonRuns = true →
    ((len < 32 ∨ 4096 < len ∨ len < 32 + num p 4 2) →
      Completes (.smpWrite len p crc) s (fun t => t.keeper.smpFlags.testBit 3 = true ∧
        t.keeper.smpCmds = s.keeper.smpCmds ∧ t.rd .CT_SMP_FRAME = (s.rd .CT_SMP_FRAME + 1) % 2 ^ 64)) ∧
    (32 ≤ len → len ≤ 4096 → 32 + num p 4 2 ≤ len → p.length = len → crc16 (le 2 len ++ p) ≠ crc →
      Completes (.smpWrite len p crc) s (fun t => t.keeper.smpFlags.testBit 2 = true ∧
        t.keeper.smpCmds = s.keeper.smpCmds ∧ t.rd .CT_SMP_CRC = (s.rd .CT_SMP_CRC + 1) % 2 ^ 64)) ∧
    (32 ≤ len → len ≤ 4096 → 32 + num p 4 2 ≤ len → p.length = len → crc16 (le 2 len ++ p) = crc →
      8 ≤ s.keeper.smpCmds.length →
      Completes (.smpWrite len p crc) s (fun t => t.keeper.smpFlags.testBit 4 = true ∧ t.keeper.smpCmds = s.keeper.smpCmds)) ∧
    (32 ≤ len → len ≤ 4096 → 32 + num p 4 2 ≤ len → p.length = len → crc16 (le 2 len ++ p) = crc →
      s.keeper.smpCmds.length < 8 → num p 0 2 ∈ opcodes →
      Completes (.smpWrite len p crc) s (fun t => t.keeper.smpCmds = s.keeper.smpCmds ++ [p] ∧
        t.rd .CT_SMP_CMD = (s.rd .CT_SMP_CMD + 1) % 2 ^ 64))) ∧
  (∀ (p : Bytes) (rest : List Bytes) (s : State), s.aonRuns = true → s.keeper.smpReplies = p :: rest →
    Completes .smpRead s (fun t =>
      Out.smp (0 :: (le 2 p.length ++ p ++ le 2 (crc16 (le 2 p.length ++ p)))) ∈ t.out ∧
      (rest = [] → s.keeper.smpLate = [] → Out.pin .smpIrqN true ∈ t.out) ∧
      ((∀ c ∈ s.keeper.ctxs, c.unknown = 0) → t.keeper.smpReplies = rest ++ s.keeper.smpLate.take 1 ∧
        t.keeper.smpLate = s.keeper.smpLate.drop 1))) ∧
  (∀ s : State, s.aonRuns = true → s.keeper.smpReplies = [] →
    Completes .smpRead s (fun t => t.out = s.out ++ [.smp (0 :: (le 2 0 ++ le 2 (crc16 (le 2 0))))])) ∧
  (∀ s : State, s.aonRuns = true →
    Completes .smpStatus s (fun t => t.keeper.smpFlags = 0 ∧ t.out = s.out ++ [.smp [0, BitVec.ofNat 8 (smpStatusByte s)]])) ∧
  (∀ (op : SmpOp) (s : State), exec (.smpCsAbort op) s = .next s)

/-- Information and cancelling (R343 to R346). Authority, the expansion ROM and the subsystem identifiers (R347 to
R349). -/
def Obligations.KeeperInformation : Prop :=
  (∀ (r : CmdReq) (s : State), Served 0x0100 (targetOf s r) true r s → r.plen = 0 →
    Completes (.nop r) s (Replies r 0x0100 0 [] (· = s))) ∧
  (∀ (r : CmdReq) (s : State), Served 0x0101 (targetOf s r) true r s → r.plen = 0 →
    Completes (.deviceInfo r) s (fun t => ∃ d, Replies r 0x0101 0 d (· = s) t ∧ d.length = 64 ∧ num d 0 2 = 0x1D5E ∧
      num d 2 2 = (if recovery s then 0x80FE else 0x8096) ∧ num d 4 1 = 0xB0 ∧ num d 0x10 8 = s.upd.dsn % 2 ^ 64 ∧
      num d 0x28 4 = s.rd .PW_ON_MAP % 2 ^ 32 ∧ num d 0x2C 4 = s.rd .WD_JR_NEWEST % 2 ^ 32)) ∧
  (∀ (r : CmdReq) (s : State), Served 0x0102 (targetOf s r) true r s → r.plen = 8 → issuerDir s r.iss ≠ [] →
    Completes (.directoryRead r 0) s (Replies r 0x0102 0
      (le 4 (issuerDir s r.iss).length ++ le 4 0 ++ (issuerDir s r.iss).take 4032)
      (fun u => snapshotOf u r.iss = some (issuerDir s r.iss)))) ∧
  (∀ (r : CmdReq) (offset : Nat) (d : Bytes) (s : State), Served 0x0102 (targetOf s r) true r s → r.plen = 8 → offset ≠ 0 →
    snapshotOf s r.iss = some d → offset < d.length →
    Completes (.directoryRead r offset) s (Replies r 0x0102 0
      (le 4 d.length ++ le 4 offset ++ (d.drop offset).take 4032) (fun u => snapshotOf u r.iss = some d))) ∧
  (∀ (r : CmdReq) (tag : Nat) (e : Sched) (s : State), Served 0x0103 (targetOf s r) true r s → r.plen = 4 →
    s.keeper.sched.find? (fun e => decide (e.req.iss = r.iss) && e.req.tag == tag) = some e →
    Completes (.cmdCancel r tag) s (Replies r 0x0103 0 [] (fun u => u.keeper.sched = s.keeper.sched.erase e ∧
      u.rd .KP_CANCEL_CNT = (s.rd .KP_CANCEL_CNT + 1) % 2 ^ 64))) ∧
  (∀ (r : CmdReq) (new policy : Nat) (s : State),
    Served 0x0110 (targetOf s r) (hasMgr s r.iss || (decide (r.iss = .smp) && s.store.smpTake)) r s → r.plen = 4 →
    new < 256 → new / 32 % 4 = 0 → policy < 256 → policy / 2 % 64 = 0 →
    (new.testBit 7 = true ∨ (s.present (new % 32) = true ∧ s.dlUp (new % 32) = true)) →
    Completes (.mgrHandover r new policy) s (fun t => t.keeper.mgrSmp = new.testBit 7 ∧
      t.keeper.mgrHl = (if new.testBit 7 then 0 else new % 32) ∧
      t.store.smpTake = (if policy.testBit 7 then policy.testBit 0 else s.store.smpTake) ∧
      ((∀ c ∈ s.keeper.ctxs, c.unknown = 0) → t.rd .KP_CMD_CNT = (s.rd .KP_CMD_CNT + 1) % 2 ^ 64))) ∧
  (∀ (r : CmdReq) (offset total : Nat) (data : Bytes) (s : State), Served 0x0120 (targetOf s r) (hasMgr s r.iss) r s →
    8 ≤ r.plen → (offset = 0 ∨ (offset = s.keeper.exprom.length ∧ total = s.keeper.expromTotal)) →
    offset + (r.plen - 8) ≤ total → total ≤ 524288 →
    let img := (if offset = 0 then [] else s.keeper.exprom) ++ sub data 0 (r.plen - 8)
    Completes (.expromStore r offset total data) s (Replies r 0x0120 0 (le 4 (offset + (r.plen - 8))) (fun u =>
      if offset + (r.plen - 8) = total then u.store.rom = img ∧ u.keeper.exprom = [] ∧ u.keeper.expromTotal = 0
      else u.keeper.exprom = img ∧ u.keeper.expromTotal = total ∧ u.store.rom = s.store.rom))) ∧
  (∀ s : State, s.keeper.expromTotal ≠ 0 → s.keeper.expromEpoch + 64 ≤ s.eraEpoch →
    Completes .expromPiecesExpire s (fun t => t.keeper.exprom = [] ∧ t.keeper.expromTotal = 0 ∧ t.store.rom = s.store.rom)) ∧
  (∀ (r : CmdReq) (vendor id : Nat) (s : State), Served 0x0121 (targetOf s r) (hasMgr s r.iss) r s → r.plen = 4 →
    Completes (.subsysSet r vendor id) s (Replies r 0x0121 0 [] (fun u => u.store.subsysVendor = vendor % 2 ^ 16 ∧
      u.store.subsysId = id % 2 ^ 16)))

/-- TENANT_CREATE (R276, R277): the tenant is ACTIVE with generation 0 in the TNID named, or the lowest free one; its
VF presents it, and the reply names it. The other tenant commands (R71, R275, R279, R287 to R290, R350, R351). -/
def Obligations.TenantCommands : Prop :=
  (∀ (r : CmdReq) (p : TenantParams) (n : Nat) (s : State), Served 0x0201 (targetOf s r) (hasMgr s r.iss) r s → r.plen = 48 →
    s.present p.hl = true → 1 ≤ p.vf → p.vf ≤ 256 → p.vf ≤ tget 0 s.store.totalVfs p.hl → p.weight < 256 →
    tnBounds p 0x1FF p.allowance p.cbUnits = true →
    tnDark s p.hl ((List.range 8).filter (fun t => p.chTiller.getD t 0 != 0)) = false →
    s.boundTn (p.hl * 512 + p.vf) = none → (r.target ≠ 0xFFFF → s.tnState r.target = 0 ∧ ctxLost s r.target = false) →
    newTnid s r.target = some n → tnShort s p 0x1FF 256 p.hl = false →
    Completes (.tenantCreate r p) s (fun t => ∃ d, num d 0 1 = n % 256 ∧ Replies r 0x0201 0 d (fun u =>
      u.rd .TN_STATE n = 1 ∧ u.rd .TN_GENERATION n = 0 ∧ u.rd .TN_HL n = p.hl ∧ u.rd .TN_VF n = p.vf ∧
      u.rd .TN_WEIGHT n = p.weight ∧ u.rd .DVSEC_TNID (p.hl * 512 + p.vf) = n % 2 ^ 16) t)) ∧
  (∀ (r : CmdReq) (p : TenantParams) (s : State), Served 0x0202 (targetOf s r) (hasMgr s r.iss) r s → Acts r s →
    r.plen = 48 → (cmdTenantModify r p).params s = true → (cmdTenantModify r p).dark s = false →
    modifyCheck (targetOf s r) p s = 0 →
    Completes (.tenantModify r p) s (Replies r 0x0202 0 [] (fun u => let n := targetOf s r
      u.rd .TN_WEIGHT n = (if p.change.testBit 0 then p.weight else s.rd .TN_WEIGHT n) ∧
      (p.change.testBit 1 = true → u.rd .TN_VECTORS n = p.vectors % 2 ^ 8) ∧
      (p.change.testBit 5 = true → (u.ten n).newRate = some (p.rate, p.depth)) ∧ u.rd .TN_STATE n = s.rd .TN_STATE n))) ∧
  (∀ (r : CmdReq) (s : State), Served 0x0203 (targetOf s r) (hasLink s r.iss (s.rd .TN_HL (targetOf s r))) r s → Acts r s →
    r.plen = 0 → s.domOn dHub = true → s.tnState (targetOf s r) = 1 →
    Completes (.tenantReset r) s (fun t => t.rd .TN_STATE (targetOf s r) = 2 ∧
      t.rd .TN_GENERATION (targetOf s r) = (s.rd .TN_GENERATION (targetOf s r) + 1) % 16 ∧
      ∃ w ∈ t.keeper.waiting, w.req = r ∧ w.opcode = 0x0203 ∧ w.key = targetOf s r)) ∧
  (∀ (r : CmdReq) (s : State), Served 0x0203 (targetOf s r) (hasLink s r.iss (s.rd .TN_HL (targetOf s r))) r s → Acts r s →
    r.plen = 0 → s.domOn dHub = true → s.tnState (targetOf s r) = 3 →
    Completes (.tenantReset r) s (fun t => ∃ d, Replies r 0x0203 0 d (fun u => u.rd .TN_STATE (targetOf s r) = 3 ∧
      u.rd .TN_GENERATION (targetOf s r) = (s.rd .TN_GENERATION (targetOf s r) + 1) % 16) t)) ∧
  (∀ (tn : Tnid) (s : State), s.tnState tn = 2 →
    Completes (.tenantResetComplete tn) s (fun t => t.rd .TN_STATE tn = 1 ∧ t.rd .TN_GENERATION tn = s.rd .TN_GENERATION tn)) ∧
  (∀ (r : CmdReq) (s : State), Served 0x0204 (targetOf s r) (hasMgr s r.iss) r s → targetOf s r ≠ 0xFFFF → r.plen = 0 →
    s.domOn dHub = true → dueFirst s (targetOf s r) = false →
    Completes (.tenantDestroy r) s (fun t => (t.rd .TN_STATE (targetOf s r) = 5 ∨ t.rd .TN_STATE (targetOf s r) = 0) ∧
      t.rd .DVSEC_TNID (s.tnFn (targetOf s r)) = 0xFFFF)) ∧
  (∀ (tn : Tnid) (s : State), s.tnState tn = 5 → tnDrained s tn = true →
    Completes (.tenantPendingDrained tn) s (fun t => t.rd .TN_STATE tn = 0 ∧ t.rd .TN_CH_COUNT tn = 0)) ∧
  (∀ (r : CmdReq) (s : State), Served 0x0205 (targetOf s r) (hasTenant s r) r s → targetOf s r ≠ 0xFFFF → r.plen = 0 →
    s.domOn dHub = true →
    Completes (.tenantQuery r) s (Replies r 0x0205 0 (blkBytes s .tenant (targetOf s r) 1024) (· = s))) ∧
  (∀ (r : CmdReq) (hl b total init : Nat) (s : State), Served 0x0210 (targetOf s r) (hasMgr s r.iss) r s → r.plen = 8 →
    s.present hl = true → 20 ≤ b → b ≤ 32 → init ≤ total → (s.cf (pfIdx hl)).vfEnable = false →
    (∀ n ∈ heldTns s, s.tnState n ≠ 5 → s.rd .TN_HL n = hl → s.rd .TN_VF n ≤ total) →
    total + ((s.store.totalVfs.filter (fun e => e.1 != hl)).map (·.2)).sum ≤ 256 →
    Completes (.vfAllot r hl b total init) s (Replies r 0x0210 0 [] (fun u => tget 0 u.store.totalVfs hl = total ∧
      tget 0 u.store.initialVfs hl = init ∧ tget 20 u.store.vfBar2 hl = b))) ∧
  (∀ (r : CmdReq) (region base size : Nat) (s : State), Served 0x0211 (targetOf s r) (hasTenant s r) r s → Acts r s →
    r.plen = 24 → region < 16 → base % 4096 = 0 → size % 4096 = 0 → base + size ≤ 2 ^ 64 → s.domOn dHub = true →
    Completes (.runaheadSet r region base size) s (Replies r 0x0211 0 [] (fun u =>
      (u.ten (targetOf s r)).regions = (s.ten (targetOf s r)).regions.set region (base, size))))

/-- The window commands and SHEAF_SET (R98, R99, R352, R353): the entry takes the image, or is cleared by SIZE or
COUNT 0, and the reply names it. OUTWIN_SET for a named tenant that may not use the link is DENIED (R98, R352), and
nothing but the reply happens. -/
def Obligations.WindowCommands : Prop :=
  (∀ (r : CmdReq) (index i : Nat) (w : OutWin) (s : State),
    Served 0x0301 (targetOf s r) ((cmdOutwin r index w).priv s) r s → r.plen = 40 → (index < 2048 ∨ index = 0xFFFF) →
    (outReq index w).ranges = true → (cmdOutwin r index w).dark s = false → (outReq index w).check s = 0 →
    (outReq index w).entry s = some i →
    Completes (.outwinSet r index w) s (Replies r 0x0301 0 (le 2 i ++ le 2 0) (fun u =>
      u.rd .OW_SIZE_LO i = w.size / 4096 % 2 ^ 20 ∧ u.rd .OW_SIZE_HI i = w.size / 2 ^ 32 % 2 ^ 17 ∧
      u.rd .OW_LINK i = (if w.size = 0 then 0 else w.link % 2 ^ 7) ∧
      u.rd .OW_CLASS i = (if w.size = 0 then 0 else w.cls % 2 ^ 2) ∧
      u.rd .OW_TNID i = (if w.size = 0 then 0 else w.tnid % 2 ^ 8) ∧
      u.rd .OW_LOCAL_BASE_LO i = (if w.size = 0 then 0 else w.localBase / 4096 % 2 ^ 20) ∧
      u.rd .OW_HOST_BASE_LO i = (if w.size = 0 then 0 else w.hostBase / 4096 % 2 ^ 20) ∧
      u.rd .OW_HOST_BASE_HI i = (if w.size = 0 then 0 else w.hostBase / 2 ^ 32 % 2 ^ 32) ∧
      ∀ k, k ≠ i → u.rd .OW_SIZE_LO k = s.rd .OW_SIZE_LO k ∧ u.rd .OW_HOST_BASE_LO k = s.rd .OW_HOST_BASE_LO k))) ∧
  (∀ (r : CmdReq) (index i : Nat) (w : InWin) (s : State),
    Served 0x0302 (targetOf s r) ((cmdInwin r index w).priv s) r s → r.plen = 40 → (index < 1024 ∨ index = 0xFFFF) →
    (inReq index w).ranges = true → (cmdInwin r index w).dark s = false → (inReq index w).check s = 0 →
    (inReq index w).entry s = some i →
    Completes (.inwinSet r index w) s (Replies r 0x0302 0 (le 2 i ++ le 2 0) (fun u =>
      u.rd .IW_SIZE_LO i = w.size / 4096 % 2 ^ 20 ∧ u.rd .IW_SIZE_HI i = w.size / 2 ^ 32 % 2 ^ 9 ∧
      u.rd .IW_LINK i = (if w.size = 0 then 0 else w.link % 2 ^ 7) ∧
      u.rd .IW_FUNC i = (if w.size = 0 then 0 else w.func % 2 ^ 9) ∧
      u.rd .IW_BAR_OFFSET_LO i = (if w.size = 0 then 0 else w.barOffset / 4096 % 2 ^ 20) ∧
      u.rd .IW_LOCAL_BASE_LO i = (if w.size = 0 then 0 else w.localBase / 4096 % 2 ^ 20) ∧
      ∀ k, k ≠ i → u.rd .IW_SIZE_LO k = s.rd .IW_SIZE_LO k ∧ u.rd .IW_LOCAL_BASE_LO k = s.rd .IW_LOCAL_BASE_LO k))) ∧
  (∀ (r : CmdReq) (index i : Nat) (w : IntWin) (s : State),
    Served 0x0303 (targetOf s r) ((cmdIntwin r index w).priv s) r s → r.plen = 24 → (index < 1024 ∨ index = 0xFFFF) →
    (intReq index w).ranges = true → (cmdIntwin r index w).dark s = false → (intReq index w).check s = 0 →
    (intReq index w).entry s = some i →
    Completes (.intwinSet r index w) s (Replies r 0x0303 0 (le 2 i ++ le 2 0) (fun u =>
      u.rd .NW_COUNT i = w.count % 2 ^ 8 ∧ u.rd .NW_LINK i = (if w.count = 0 then 0 else w.link % 2 ^ 7) ∧
      u.rd .NW_MSG_BASE i = (if w.count = 0 then 0 else w.msgBase % 2 ^ 16) ∧
      u.rd .NW_VEC_BASE i = (if w.count = 0 then 0 else w.vecBase % 2 ^ 7) ∧
      ∀ k, k ≠ i → u.rd .NW_COUNT k = s.rd .NW_COUNT k ∧ u.rd .NW_VEC_BASE k = s.rd .NW_VEC_BASE k))) ∧
  (∀ (r : CmdReq) (index : Nat) (img : SheafImg) (s : State), Served 0x0304 (targetOf s r) (hasMgr s r.iss) r s →
    r.plen = 264 → (cmdSheaf r index img).params s = true → s.tlOn (index / 32) = true → sheafCheck index img s = 0 →
    Completes (.sheafSet r index img) s (Replies r 0x0304 0 (le 2 index ++ le 2 0) (fun u =>
      u.rd .SH_MODE index = img.mode ∧ u.rd .SH_DEST_COUNT index = (if img.mode = 0 then 0 else img.destCount) ∧
      u.rd .SH_WINDOW index = (if img.mode = 0 then 0 else img.window % 2 ^ 11) ∧
      (img.mode ≠ 0 → ∀ d x, (img.dests.take img.destCount)[d]? = some x → u.rd .SH_TNID index d = x.tnid % 2 ^ 8)))) ∧
  (∀ (r : CmdReq) (index : Nat) (w : OutWin) (s : State),
    Served 0x0301 (targetOf s r) ((cmdOutwin r index w).priv s) r s → r.plen = 40 → (index < 2048 ∨ index = 0xFFFF) →
    (outReq index w).ranges = true → (cmdOutwin r index w).dark s = false → w.size ≠ 0 →
    (index ≠ 0xFFFF → index / 256 = w.link / 12) → (outReq index w).ok s (((outReq index w).entry s).getD index) = true →
    namedTn s w.tnid = 0 → w.sheaf = 0 → w.toPf = 0 → permits s w.tnid w.link = false →
    Completes (.outwinSet r index w) s (Replies r 0x0301 8 [] (· = s)))

/-- Class 3 windows (R110): OUTWIN_SET of a class 3 window for a tenant that is not eligible, or of a class 3 sheaf
window with a destination tenant that is not, answers DENIED and does nothing else; one that passes the checks names
an eligible tenant; and for a window of the manager's own PF the class plays no part in them. -/
def Obligations.DeadlineWindows : Prop :=
  (∀ (r : CmdReq) (index : Nat) (w : OutWin) (s : State),
    Served 0x0301 (targetOf s r) ((cmdOutwin r index w).priv s) r s → r.plen = 40 → (index < 2048 ∨ index = 0xFFFF) →
    (outReq index w).ranges = true → (cmdOutwin r index w).dark s = false → w.size ≠ 0 → w.cls = 3 →
    (index ≠ 0xFFFF → index / 256 = w.link / 12) → (outReq index w).ok s (((outReq index w).entry s).getD index) = true →
    (w.sheaf = 0 → w.toPf = 0 → namedTn s w.tnid = 0 → s.rd .TN_ELIGIBLE w.tnid = 0 →
      Completes (.outwinSet r index w) s (Replies r 0x0301 8 [] (· = s))) ∧
    (w.sheaf = 1 → s.rd .SH_MODE w.tnid ≠ 0 → s.rd .SH_WINDOW w.tnid = ((outReq index w).entry s).getD index →
      (∃ d < s.rd .SH_DEST_COUNT w.tnid, s.rd .SH_TO_PF w.tnid d = 0 ∧
        s.rd .TN_ELIGIBLE (s.rd .SH_TNID w.tnid d) = 0) →
      Completes (.outwinSet r index w) s (Replies r 0x0301 8 [] (· = s)))) ∧
  (∀ (index : Nat) (w : OutWin) (s : State), w.size ≠ 0 → w.cls = 3 → (outReq index w).check s = 0 →
    (w.sheaf = 0 → w.toPf = 0 → s.rd .TN_ELIGIBLE w.tnid ≠ 0) ∧
    (w.sheaf = 1 → ∀ d < s.rd .SH_DEST_COUNT w.tnid, s.rd .SH_TO_PF w.tnid d = 0 →
      s.rd .TN_ELIGIBLE (s.rd .SH_TNID w.tnid d) ≠ 0)) ∧
  (∀ (index : Nat) (w : OutWin) (s : State), w.sheaf = 0 → w.toPf = 1 →
    (outReq index w).check s = (outReq index { w with cls := 0 }).check s)

/-- Host ports and Weaseif links (R44, R354 to R357). -/
def Obligations.LinkCommands : Prop :=
  (∀ (r : CmdReq) (port bifur clkmode speed : Nat) (s : State), Served 0x0401 (targetOf s r) (hasMgr s r.iss) r s →
    r.plen = 4 → port ≤ 7 → bifur ≤ 2 → clkmode ≤ 2 → 1 ≤ speed → speed ≤ 6 →
    (∀ h ∈ absentUnder port bifur, mgrLink s ≠ some h ∧ tget 0 s.store.totalVfs h = 0) →
    Completes (.hportConfig r port bifur clkmode speed) s (Replies r 0x0401 0 [] (fun u =>
      tget 0 u.store.bifur port = bifur ∧ tget 0 u.store.clkmode port = clkmode ∧ tget 6 u.store.speed port = speed ∧
      ∀ k < 4, u.rd .HL_BIFUR_NEXT (4 * port + k) = bifur ∧ u.rd .HL_CLKMODE_NEXT (4 * port + k) = clkmode ∧
        u.rd .HL_BIFUR (4 * port + k) = s.rd .HL_BIFUR (4 * port + k)))) ∧
  (∀ (r : CmdReq) (p : WlinkParams) (s : State), Served 0x0410 (targetOf s r) (hasMgr s r.iss) r s → r.plen = 24 →
    p.link < 96 → p.persist ≤ 1 → p.select = 0x21 → p.targetRate ≤ 3 → 1 ≤ p.replayLimit → p.replayLimit ≤ 15 →
    s.domOn (dWphy (wlTiller p.link)) = true → s.tlOn (wlTiller p.link) = true → s.rd .WP_LOCK p.link = 0 →
    s.rd .WL_LOCK p.link = 0 →
    Completes (.wlinkConfig r p) s (Replies r 0x0410 0 [] (fun u => u.rd .WP_TARGET_RATE p.link = p.targetRate ∧
      u.rd .WL_REPLAY_LIMIT p.link = p.replayLimit ∧ (p.persist = 0 → u.store = s.store) ∧
      (p.persist = 1 → (p.link, 0, p.targetRate) ∈ u.store.wlink ∧ (p.link, 5, p.replayLimit) ∈ u.store.wlink)))) ∧
  (∀ (r : CmdReq) (link : Nat) (s : State), Served 0x0411 (targetOf s r) (hasMgr s r.iss) r s → r.plen = 4 → link < 96 →
    s.tlOn (wlTiller link) = true → s.rd .WL_LSTATE link ≠ 6 →
    Completes (.wlinkReset r link) s (Replies r 0x0411 0 [] (fun u => u.rd .WL_LSTATE link = 6 ∨
      (u.rd .WL_LSTATE link = 0 ∧ u.rd .WL_UNACKED link = 0 ∧ (u.wl link).replay = [])))) ∧
  (∀ (r : CmdReq) (link set : Nat) (s : State), Served 0x0412 (targetOf s r) (hasMgr s r.iss) r s → r.plen = 4 →
    link < 96 → set < 16 → s.tlOn (wlTiller link) = true → s.rd .WL_LSTATE link = 2 → s.rd .WL_RESHAPE_BUSY link = 0 →
    Completes (.wlinkReshape r link set) s (Replies r 0x0412 0 [] (fun u => u.rd .WL_RESHAPE_SET link = set ∧
      (u.rd .WL_RESHAPE_BUSY link = 1 ∨ u.rd .WL_RESHAPE_FAIL link = 1)))) ∧
  (∀ (r : CmdReq) (link : Nat) (s : State), Served 0x0413 (targetOf s r) (isPfOrSmp r.iss) r s → r.plen = 4 → link < 96 →
    s.tlOn (wlTiller link) = true → s.domOn (dWphy (wlTiller link)) = true →
    Completes (.wlinkInfo r link) s (fun t => ∃ d, Replies r 0x0413 0 d (· = s) t ∧ d.length = 64 ∧
      num d 0 1 = s.rd .WL_LSTATE link % 256 ∧ num d 3 1 = s.rd .WL_ACTIVE_SET link % 256))

/-- Dirty logging and harvests (R295, R296, R300 to R302). -/
def Obligations.DirtyLogging : Prop :=
  (∀ (r : CmdReq) (p : LogParams) (s : State), Served 0x0501 (targetOf s r) (hasMgr s r.iss) r s → Acts r s → r.plen = 40 →
    logParamsOk p s = true → tnDark s (s.rd .TN_HL (targetOf s r)) [] = false → s.tnState (targetOf s r) ≠ 2 →
    s.log (targetOf s r) = none →
    Completes (.logConfig r p) s (Replies r 0x0501 0 [] (fun u =>
      if p.pages = 0 then u = s else u.rd .TN_LOG_ON (targetOf s r) = 1 ∧
        ∃ l, u.log (targetOf s r) = some l ∧ l.base = p.base ∧ l.pages = p.pages ∧ l.bitmapA = p.bitmapA ∧
          l.bitmapB = p.bitmapB ∧ l.active = 0))) ∧
  (∀ (r : CmdReq) (l : LogS) (s : State), Served 0x0502 (targetOf s r) (hasMgr s r.iss) r s → Acts r s → r.plen = 0 →
    tnDark s (s.rd .TN_HL (targetOf s r)) [] = false → s.log (targetOf s r) = some l → l.ending = false →
    Completes (.logHarvest r) s (fun t => ∃ e, t.keeper.sched = s.keeper.sched ++ [e] ∧ e.cmd = .logHarvest ∧
      e.req.target = targetOf s r ∧ e.due = s.eraEpoch + 1)) ∧
  (∀ (tn : Tnid) (e : Sched) (l : LogS) (s : State),
    dueSched s (fun e => decide (e.cmd = .logHarvest) && e.req.target == tn.val) = some e → e.mgr = true →
    e.req.plen = 0 → e.req.resv = false → unbound s e.req.iss = false → foreignTarget s e.req = false → s.react = false →
    tenantThere 0x0502 e.req s = true → s.tnState tn ≠ 4 → tnDark s (s.rd .TN_HL tn) [] = false → s.log tn = some l → l.ending = false →
    Completes (.harvestBoundary tn) s (fun t => ∃ l', t.log tn = some l' ∧ l'.active = 1 - l.active ∧
      l'.startEpoch = s.epoch)) ∧
  (∀ (tn : Tnid) (l : LogS) (h : HarvestS) (s : State), s.log tn = some l → l.harvest = some h → h.bitmapFlush = true →
    h.flushesLeft = 0 →
    Completes (.harvestDone tn) s (fun t => (t.log tn).bind (·.harvest) = none ∧ t.tens = s.tens))

/-- Freezing, thawing, saving and restoring a tenant (R305 to R309, R313, R314). -/
def Obligations.Migration : Prop :=
  (∀ (r : CmdReq) (s : State), Served 0x0503 (targetOf s r) (hasMgr s r.iss) r s → Acts r s → r.plen = 0 →
    tnDark s (s.rd .TN_HL (targetOf s r)) [] = false → s.tnState (targetOf s r) ≠ 3 →
    Completes (.tenantFreeze r) s (fun t => t.rd .TN_FREEZE_SET (targetOf s r) = 1 ∧
      ∃ e, t.keeper.sched = s.keeper.sched ++ [e] ∧ e.cmd = .tenantFreeze ∧ e.req.target = targetOf s r ∧
        e.due = s.eraEpoch + 1)) ∧
  (∀ (tn : Tnid) (e : Sched) (s : State),
    dueSched s (fun e => decide (e.cmd = .tenantFreeze) && e.req.target == tn.val) = some e →
    (s.tnState tn = 2 → Completes (.freezePoint tn) s (fun t => t.rd .TN_STATE tn = 2 ∧
      { e with due := s.eraEpoch + 1 } ∈ t.keeper.sched)) ∧
    (s.tnState tn = 1 → e.mgr = true → e.req.plen = 0 → e.req.resv = false → unbound s e.req.iss = false →
      foreignTarget s e.req = false → s.react = false → tnDark s (s.rd .TN_HL tn) [] = false →
      Completes (.freezePoint tn) s (fun t => t.rd .TN_STATE tn = 3 ∧ t.rd .TN_FREEZE_SET tn = 0))) ∧
  (∀ (tn : Tnid) (s : State), s.tnState tn = 3 → (s.ten tn).quiesced = false → (s.ten tn).freezeOut = true →
    (s.ten tn).freezeFlushed = true → tnQuiet s tn = true →
    Completes (.freezeQuiesced tn) s (fun t => (t.ten tn).quiesced = true ∧ t.rd .TN_STATE tn = 3)) ∧
  (∀ (r : CmdReq) (s : State), Served 0x0504 (targetOf s r) (hasMgr s r.iss) r s → Acts r s → r.plen = 0 →
    s.domOn dHub = true →
    (s.tnState (targetOf s r) = 3 →
      Completes (.tenantThaw r) s (Replies r 0x0504 0 [] (fun u => u.rd .TN_STATE (targetOf s r) = 1))) ∧
    (∀ e, s.tnState (targetOf s r) ≠ 3 → freezeSched s (targetOf s r) = some e →
      Completes (.tenantThaw r) s (Replies r 0x0504 0 [] (fun u => u.keeper.sched = s.keeper.sched.erase e ∧
        u.rd .TN_FREEZE_SET (targetOf s r) = 0)))) ∧
  (∀ (r : CmdReq) (offset : Nat) (s : State), Served 0x0505 (targetOf s r) (hasMgr s r.iss) r s → Acts r s → r.plen = 8 →
    s.domOn dHub = true → s.tnState (targetOf s r) = 3 → (s.ten (targetOf s r)).quiesced = true →
    (offset = 0 → let b := stateBlob s (targetOf s r)
      Completes (.tenantSave r offset) s (Replies r 0x0505 0 (le 4 b.length ++ le 4 0 ++ b.take 4032)
        (fun u => (u.ten (targetOf s r)).snapshot = some b))) ∧
    (∀ b, offset ≠ 0 → (s.ten (targetOf s r)).snapshot = some b → offset < b.length →
      Completes (.tenantSave r offset) s (Replies r 0x0505 0 (le 4 b.length ++ le 4 offset ++ (b.drop offset).take 4032)
        (· = s)))) ∧
  (∀ (r : CmdReq) (offset flags : Nat) (data : Bytes) (s : State), Served 0x0506 (targetOf s r) (hasMgr s r.iss) r s →
    Acts r s → 9 ≤ r.plen → r.plen ≤ 4040 → r.plen = 8 + data.length → s.domOn dHub = true → flags < 2 →
    (offset = 0 ∨ offset = (s.ten (targetOf s r)).restoreBuf.length) → s.tnState (targetOf s r) = 3 →
    let b := (if offset = 0 then [] else (s.ten (targetOf s r)).restoreBuf) ++ data
    let n := targetOf s r
    ((b.length < 12 ∨ b.length < num b 8 4) →
      Completes (.tenantRestore r offset flags data) s (Replies r 0x0506 0 [] (fun u => (u.ten n).restoreBuf = b ∧
        u.rd .TN_GENERATION n = s.rd .TN_GENERATION n))) ∧
    (12 ≤ b.length → num b 8 4 ≤ b.length →
      blobCheck n (flags == 1) (b.take (num b 8 4)) (s.modTen n (fun t => { t with restoreBuf := [] })) = 0 →
      Completes (.tenantRestore r offset flags data) s (Replies r 0x0506 0 [] (fun u =>
        u.rd .TN_GENERATION n = num (b.take (num b 8 4)) 0x1B 1 % 16 ∧ u.rd .TN_STATE n = 3))))

/-- Clock commands and instruments (R400, R405 to R407): CLOCK_SWITCH starts a switch and waits, or answers at once
when the selector has the source; CLOCK_MEASURE answers the count; the register counter counts while XO is READY;
CLKOBS starts the divided clock from a low level. The clock monitor and the clock events after bring-up (R398, R401
to R404): a trip is marked and counted; FRO, a source and a PLL become READY; a selector reaches its source, and a
forced switch is flagged and counted. -/
def Obligations.Clocks : Prop :=
  (∀ (r : CmdReq) (sel src : Nat) (s : State), Served 0x0610 sel (hasMgr s r.iss) r s → r.plen = 8 →
    selAllows sel src = true → ckReady s src = true →
    ¬(sel = 3 ∧ src = 2 ∧ (List.range' 10 16).any (fun d => s.domOn d) = true) →
    (selNext s sel = src → Completes (.clockSwitch r sel src) s (Replies r 0x0610 0 [] (· = s))) ∧
    (selNext s sel ≠ src → Completes (.clockSwitch r sel src) s (fun t =>
      t.clocks.switching = s.clocks.switching ++ [(sel, src, false)] ∧ t.rd .CK_SW_BUSY = 1 ∧ selSource t sel = selSource s sel ∧
      ∃ w ∈ t.keeper.waiting, w.req = r ∧ w.opcode = 0x0610 ∧ w.key = sel))) ∧
  (∀ (r : CmdReq) (ckid gate count : Nat) (s : State), Served 0x0611 (targetOf s r) (isPfOrSmp r.iss) r s → r.plen = 8 →
    ckid < 32 → 25 ≤ gate → gate ≤ 37500 → ckReady s 0 = true → ckReady s ckid = true →
    Completes (.clockMeasure r ckid gate count) s (Replies r 0x0611 0 (le 8 count) (· = s))) ∧
  (∀ (fn : Fn) (ckid : Fin 256) (s : State), mgrWrites s fn = true → s.rd .CK_BUSY = 0 →
    Completes (.freqCountStart fn ckid) s (fun t => t.rd .CK_FC_CKID = ckid.val ∧
      (ckReady s 0 = true → t.rd .CK_BUSY = 1) ∧ (ckReady s 0 = false → t.rd .CK_BUSY = 0 ∧ t.rd .CK_ABORTED = 1))) ∧
  (∀ (edges : Nat) (s : State), s.rd .CK_BUSY = 1 → edges < 2 ^ 48 →
    Completes (.freqCountEnd edges) s (fun t => t.rd .CK_FC_COUNT = edges ∧ t.rd .CK_BUSY = 0 ∧ t.rd .CK_DONE = 1)) ∧
  (∀ (fn : Fn) (sel : Fin 256) (div : Fin 8192) (s : State), mgrWrites s fn = true →
    Completes (.clkobsWrite fn sel div) s (fun t => t.rd .CK_SEL = sel.val ∧ t.rd .CK_DIV = div.val ∧
      t.out = s.out ++ [.pin .clkobs false] ++
        (if div.val ≠ 0 ∧ sel.val < 32 then [.clkobs sel.val (min 4096 div.val)] else []))) ∧
  (∀ (k : Fin 32) (s : State), ckReady s k = true → (k.val < 3 ∨ pllEnabled s k = true) →
    Completes (.clockMonitorTrip k) s (fun t => (t.rd .CK_TRIPPED).testBit k = true ∧
      t.rd .CK_TRIP_CNT = (s.rd .CK_TRIP_CNT + 1) % 2 ^ 64)) ∧
  (∀ s : State, s.aonUp = true → ckReady s 2 = false → s.clocks.asyncTrip = none →
    (s.keeper.bootStage = 2 → s.rd .PW_STATE 0 dKeep = 0 →
      Completes .froReady s (fun t => ckReady t 2 = true ∧ t.keeper.bootStage = 3 ∧ t.rd .PW_STATE 0 dKeep = 3)) ∧
    (s.keeper.bootStage ≠ 2 → s.clocks.froRestarting = true →
      Completes .froReady s (fun t => ckReady t 2 = true ∧ t.clocks.froRestarting = false))) ∧
  (∀ (k : Fin 2) (s : State), s.aonUp = true → ckReady s 2 = true → ckReady s k = false → s.keeper.bootStage = 0 →
    Completes (.sourceReady k) s (fun t => ckReady t k = true ∧ ckReady t (1 - k.val) = ckReady s (1 - k.val))) ∧
  (∀ (k : Fin 32) (s : State), pllEnabled s k = true → ckReady s k = false → s.keeper.bootStage = 0 →
    (if 16 ≤ k.val ∧ k.val < 24 then ckReady s (k.val - 8) = true ∨ s.pins.refclk.testBit (k.val - 16) = true
      else ckReady s (s.rd .CK_REF_SRC) = true) →
    Completes (.pllReady k) s (fun t => ckReady t k = true ∧ t.keeper = s.keeper)) ∧
  (∀ (sel : Fin 4) (k : Nat) (auto : Bool) (s : State), s.keeper.bootStage = 0 → draining s = false →
    selAllows sel k = true → s.clocks.switching.find? (fun e => e.1 == sel.val) = some (sel.val, k, auto) →
    Completes (.clockSwitchDone sel) s (fun t => selSource t sel = k ∧
      t.clocks.switching = s.clocks.switching.erase (sel.val, k, auto) ∧ t.rd .CK_SW_FORCED = s.rd .CK_SW_FORCED) ∧
    Completes (.forcedClockSwitch sel) s (fun t => selSource t sel = k ∧ t.rd .CK_SW_FORCED = 1 ∧
      t.rd .CK_FORCED_CNT = (s.rd .CK_FORCED_CNT + 1) % 2 ^ 64))

/-- Power commands (R358, R411 to R413, R420, R431): PD_SET wakes a domain and waits, answers at once where the
domain is as asked, and takes one that may leave ON to RET or OFF; PAD_RELEASE, BANK_TEST and TILLER_RESET. -/
def Obligations.PowerCommands : Prop :=
  (∀ (r : CmdReq) (d want flags : Nat) (s : State), Served 0x0701 d (hasMgr s r.iss) r s → r.plen = 4 → d ≤ 25 →
    flags ≤ 1 → (flags = 0 ∨ hasPads d = true) → pdCheck r d want s = 0 →
    (want = 0 → s.rd .PW_STATE 0 d = 2 →
      Completes (.pdSet r d want flags) s (Replies r 0x0701 0 (pdReply d 2 0 0) (· = s))) ∧
    (want = 0 → s.rd .PW_STATE 0 d < 2 →
      Completes (.pdSet r d want flags) s (fun t => t.rd .PW_STATE 0 d = 3 ∧ (t.dom d).release = (flags == 1) ∧
        ∃ w ∈ t.keeper.waiting, w.req = r ∧ w.opcode = 0x0701 ∧ w.key = d)) ∧
    (want = 1 → s.rd .PW_STATE 0 d = 2 →
      Completes (.pdSet r d want flags) s (Replies r 0x0701 0 (pdReply d 1 0 0) (fun u => u.rd .PW_STATE 0 d = 1))) ∧
    (want = 2 → s.rd .PW_STATE 0 d = 2 →
      Completes (.pdSet r d want flags) s (Replies r 0x0701 0 (pdReply d 0 0 0) (fun u => u.rd .PW_STATE 0 d = 0)))) ∧
  (∀ (r : CmdReq) (d : Nat) (s : State), Served 0x0702 d (hasMgr s r.iss) r s → r.plen = 4 → hasPads d = true →
    s.domOn d = true → s.rd .PW_PAD_HOLD 0 d = 1 →
    Completes (.padRelease r d) s (Replies r 0x0702 0 [] (fun u => u.rd .PW_PAD_HOLD 0 d = 0 ∧
      (u.rd .PW_PAD_HOLD_MAP).testBit d = false))) ∧
  (∀ (r : CmdReq) (bank : Nat) (s : State), Served 0x0703 bank (hasMgr s r.iss) r s → r.plen = 4 → bank < 44 →
    s.domOn (bankDom bank) = true → bankLost s bank = true →
    (24 ≤ bank → bank < 40 → ∀ k < 16, s.tnState (16 * (bank - 24) + k) ≠ 4) →
    Completes (.bankTest r bank none) s (Replies r 0x0703 0 (zeros 4 ++ le 4 0xFFFFFFFF) (fun u =>
      bankLost u bank = false)) ∧
    ∀ o, Completes (.bankTest r bank (some o)) s (Replies r 0x0703 0 (le 1 1 ++ zeros 3 ++ le 4 o) (· = s))) ∧
  (∀ (r : CmdReq) (k : Nat) (s : State), Served 0x0704 k (hasMgr s r.iss) r s → r.plen = 4 → k ≤ 8 →
    onOrHeld s (resetBase k) = true → (∀ d ∈ resetScope k, s.rd .PW_STATE 0 d ≠ 3 ∧ pdWaits s d = false) →
    ckReady s 4 = true →
    Completes (.tillerReset r k) s (fun t => ∀ d ∈ resetScope k, onOrHeld s d = true → t.rd .PW_STATE 0 d = 3))

/-- The steps of a wake, its failure, and a low supply (R415, R416, R488). -/
def Obligations.WakeSteps : Prop :=
  (∀ (d : Dom) (bad : List Nat) (s : State), s.rd .PW_STATE 0 d = 3 →
    (s.rd .PW_REG_RDY 0 d = 0 → (s.dom d).regStarted = true →
      Completes (.wakeStepReady d bad) s (fun t => t.rd .PW_REG_RDY 0 d = 1 ∧ t.rd .PW_STATE 0 d = 3)) ∧
    (s.rd .PW_REG_RDY 0 d = 1 → s.rd .PW_CLK_RDY 0 d = 0 → clockFor s d = true → lacksRefclk s d = false →
      Completes (.wakeStepReady d bad) s (fun t => t.rd .PW_CLK_RDY 0 d = 1 ∧ t.rd .PW_REFCLK_WAIT 0 d = 0)) ∧
    (s.rd .PW_REG_RDY 0 d = 1 → s.rd .PW_CLK_RDY 0 d = 1 → s.rd .PW_MEM_RDY 0 d = 0 →
      Completes (.wakeStepReady d bad) s (fun t => t.rd .PW_MEM_RDY 0 d = 1 ∧
        t.rd .PW_LOST_LAST 0 d = ((banksOf d).filter (fun b => bad.contains b)).length)) ∧
    (s.rd .PW_REG_RDY 0 d = 1 → s.rd .PW_CLK_RDY 0 d = 1 → s.rd .PW_MEM_RDY 0 d = 1 → s.rd .PW_LOGIC_RDY 0 d = 0 →
      (s.dom d).inReset = none → (∀ p, parentOf d = some p → s.domOn p = true) →
      Completes (.wakeStepReady d bad) s (fun t => t.rd .PW_STATE 0 d = 2 ∧
        t.rd .PW_WAKE_CNT = (s.rd .PW_WAKE_CNT + 1) % 2 ^ 64))) ∧
  (∀ (d : Dom) (s : State), s.rd .PW_STATE 0 d = 3 → (s.rd .PW_REG_RDY 0 d = 1 ∨ (s.dom d).regStarted = true) →
    (lacksRefclk s d = true → s.rd .PW_REG_RDY 0 d = 1 → s.rd .PW_CLK_RDY 0 d = 0 →
      Completes (.wakeStepTimeout d) s (fun t => t.rd .PW_REFCLK_WAIT 0 d ≠ 0 ∧ t.rd .PW_STATE 0 d = 3)) ∧
    (lacksRefclk s d = false → s.rd .PW_LOGIC_RDY 0 d = 0 → (s.dom d).inReset = none →
      Completes (.wakeStepTimeout d) s (fun t => t.rd .PW_STATE 0 d = 0 ∧ t.rd .PW_WAKE_FAIL 0 d = 1))) ∧
  (∀ (mv : Nat) (s : State), 5000 ≤ mv → mv < 6000 → s.aonUp = true →
    Completes (.vinLow mv) s (fun t => t.rd .PW_VIN_MV = mv ∧
      t.rd .PW_VINLOW_CNT = (s.rd .PW_VINLOW_CNT + 1) % 2 ^ 64))

/-- Resets of the die and bring-up (R38, R399, R423, R427, R428): POR and RESET_N return every register to its reset
value and leave flash, fuses and straps; their release captures the straps and the boot cause; the ROM seeds the
cadence; without a clock source the Keeper runs alone. -/
def Obligations.BringUp : Prop :=
  (∀ s : State, s.aonUp = true →
    Completes .powerOnReset s (fun t => (∀ f i j, t.rd f i j = f.reset i j) ∧ t.pins.porLow = true ∧ t.store = s.store ∧
      t.journal.recs = s.journal.recs ∧ FusesKept s.upd t.upd) ∧
    Completes .resetNAssert s (fun t => (∀ f i j, t.rd f i j = f.reset i j) ∧ t.pins.resetLow = true ∧ t.store = s.store ∧
      t.journal.recs = s.journal.recs ∧ FusesKept s.upd t.upd)) ∧
  (∀ (x : PowerUp) (s : State), s.pins.porLow = true → s.pins.resetLow = false → 5600 ≤ x.vinMv → 1500 ≤ x.vioMv →
    Completes (.porRelease x) s (fun t => t.aonUp = true ∧ t.rd .PW_BOOT_CAUSE = 1 ∧
      t.rd .DEV_DEVID = x.straps.devid.val ∧ t.rd .DEV_MGR_SEL = x.straps.mgrSel.val ∧
      t.rd .DEV_DSN_LO = s.upd.dsn % 2 ^ 32 ∧ t.keeper.bootStage = 2 ∧ t.pins.vio33 = decide (2500 ≤ x.vioMv))) ∧
  (∀ (x : PowerUp) (s : State), s.pins.porLow = true → s.pins.resetLow = true → 5600 ≤ x.vinMv → 1500 ≤ x.vioMv →
    Completes (.porRelease x) s (fun t => t.aonUp = false ∧ t.regs = s.regs ∧ t.pins.porLow = false)) ∧
  (∀ (x : PowerUp) (s : State), x.vinMv < 5600 ∨ x.vioMv < 1500 → exec (.porRelease x) s = .next s) ∧
  (∀ (x : Straps) (s : State), s.pins.resetLow = true → s.pins.porLow = false →
    Completes (.resetNRelease x) s (fun t => t.aonUp = true ∧ t.rd .PW_BOOT_CAUSE = 2 ∧ t.rd .DEV_DEVID = x.devid.val ∧
      t.rd .DEV_MGR_SEL = x.mgrSel.val ∧ t.keeper.bootStage = 2)) ∧
  (∀ (found : RomFindings) (s : State), s.aonUp = true → s.keeper.bootStage = 3 → s.domOn dKeep = true →
    Completes (.romBoot found) s (fun t => t.rd .CAD_SEEDED = 1 ∧ t.rd .WD_SELFTEST_OK = 1)) ∧
  (∀ s : State, s.keeper.bootStage = 4 → ckReady s 0 = false → ckReady s 1 = false →
    Completes .bootClockTimeout s (fun t => t.keeper.bootStage = 0 ∧ ∀ d, t.rd .PW_STATE 0 d = s.rd .PW_STATE 0 d))

/-- Firmware update (R440 to R453): delivery of an image, activation at its boundary, trial, confirmation and abort. -/
def Obligations.FirmwareUpdate : Prop :=
  (∀ (r : CmdReq) (hdr : Bytes) (s : State), Served 0x0801 (targetOf s r) (hasMgr s r.iss) r s → r.plen = 512 →
    (sameImage s (sub hdr 0 512) = true →
      Completes (.updateBegin r hdr) s (Replies r 0x0801 0 (beginReply s 1) (· = s))) ∧
    (s.upd.state = 0 → sameImage s (sub hdr 0 512) = false → Completes (.updateBegin r hdr) s (fun t =>
      if headerCheck s (sub hdr 0 512) = 0 then ∃ d, Replies r 0x0801 0 d (fun u => u.upd.state = 1 ∧
        u.upd.recvSlot = recvOf s.upd ∧ u.upd.slot (recvOf s.upd) = ⟨false, sub hdr 0 512, [], []⟩) t
      else Replies r 0x0801 (headerCheck s (sub hdr 0 512)) [] (· = s) t))) ∧
  (∀ s : State, s.upd.state = 1 → keeperUp s = true →
    Completes .eraseDone s (fun t => t.upd.state = 2 ∧ t.upd.pieces = s.upd.pieces)) ∧
  (∀ (r : CmdReq) (i p : Nat) (data : Bytes) (s : State), Served 0x0802 (targetOf s r) (hasMgr s r.iss) r s → p ≤ 1 →
    r.plen = 2056 + 16 * p → (s.upd.state = 2 ∨ s.upd.state = 3) → i < hChunks (s.upd.slot s.upd.recvSlot).header →
    let d := sub data 0 (r.plen - 8)
    (((s.upd.slot s.upd.recvSlot).chunk i).map (fun c => halfOf c p) = some d →
      Completes (.updateChunk r i p data) s (Replies r 0x0802 0 (chunkReply s 2 0) (· = s))) ∧
    ((s.upd.slot s.upd.recvSlot).chunk i = none → heldHalf s.upd.pieces i (1 - p) = none →
      Completes (.updateChunk r i p data) s (fun t => ∃ b, Replies r 0x0802 0 b (fun u =>
        heldHalf u.upd.pieces i p = some d ∧ u.upd.state = s.upd.state) t))) ∧
  (∀ (r : CmdReq) (start : Nat) (s : State), Served 0x0803 (targetOf s r) (isPfOrSmp r.iss) r s → r.plen = 8 →
    (s.upd.state = 0 → s.upd.running < 2 → Completes (.updateStatus r start) s (fun t => ∃ d,
      Replies r 0x0803 0 d (· = s) t ∧ num d 0 2 = 0xFF00)) ∧
    (2 ≤ s.upd.state → s.upd.state < 256 → Completes (.updateStatus r start) s (fun t => ∃ d,
      Replies r 0x0803 0 d (· = s) t ∧ num d 0 1 = s.upd.state ∧ num d 1 1 = s.upd.recvSlot % 256))) ∧
  (∀ (r : CmdReq) (s : State), Served 0x0804 (targetOf s r) (hasMgr s r.iss) r s → r.plen = 0 → s.upd.state = 3 →
    expired s (s.upd.slot s.upd.recvSlot).header = false → s.cad.stamp < 2 ^ 64 →
    Completes (.updateActivate r) s (fun t => t.upd.state = 4 ∧ ∃ e, t.keeper.sched = s.keeper.sched ++ [e] ∧
      e.cmd = .updateActivate ∧ e.due = s.eraEpoch + 1)) ∧
  (∀ (e : Sched) (s : State), keeperUp s = true → draining s = false →
    dueSched s (fun e => e.cmd == .updateActivate) = some e → e.mgr = true → e.req.plen = 0 → e.req.resv = false →
    unbound s e.req.iss = false → foreignTarget s e.req = false → s.react = false →
    (e.req.target < 256 ∨ e.req.target = 0xFFFF) → tenantThere 0x0804 e.req s = true →
    expired s (s.upd.slot s.upd.recvSlot).header = false → s.cad.stamp < 2 ^ 64 →
    Completes .activationBoundary s (fun t => t.upd.trial = true ∧
      t.upd.trialEnd = s.eraEpoch + hTrial (s.upd.slot s.upd.recvSlot).header ∧
      (recovery s = true → s.aonUp = true → t.upd.keepStrap = true ∧ t.rd .PW_BOOT_CAUSE = 2) ∧
      (recovery s = false → t.keeper.drainKind = 1 ∧ (t.rd .KP_KSTATE = 3 ∨ t.rd .KP_KSTATE = 4)))) ∧
  (∀ s : State, s.upd.state = 5 → s.upd.trialEnd ≤ s.eraEpoch → keeperUp s = true → draining s = false →
    Completes .trialEnd s (fun t => t.keeper.drainKind = 2 ∧ (t.rd .KP_KSTATE = 3 ∨ t.rd .KP_KSTATE = 4))) ∧
  (∀ (r : CmdReq) (s : State), Served 0x0805 (targetOf s r) (hasMgr s r.iss) r s → r.plen = 0 → s.upd.state = 5 →
    Completes (.updateConfirm r) s (Replies r 0x0805 0 [] (fun u => u.upd.state = 0 ∧ u.upd.active = s.upd.recvSlot ∧
      u.upd.trial = false ∧ u.upd.arbFuse = max s.upd.arbFuse (hArb (s.upd.slot s.upd.recvSlot).header)))) ∧
  (∀ (r : CmdReq) (s : State), Served 0x0806 (targetOf s r) (hasMgr s r.iss) r s → r.plen = 0 →
    (s.upd.state = 5 → Completes (.updateAbort r) s (fun t => t.keeper.drainKind = 2 ∧
      (t.rd .KP_KSTATE = 3 ∨ t.rd .KP_KSTATE = 4))) ∧
    (s.upd.state ≠ 0 → s.upd.state ≠ 5 → Completes (.updateAbort r) s (Replies r 0x0806 0 [] (fun u =>
      u.upd.state = 0 ∧ u.upd.slot s.upd.recvSlot = SlotS.empty ∧ u.upd.pieces = []))))

/-- The trace ring and its stream (R458, R462 to R466): TRACE_FILTER sets mode and filters; a record that passes is
appended under under the next number, one that did not pass when it arose is not; TRACE_STREAM starts at the next
record; a full line of four records is written with the producer count behind it; STREAM_RESUME ends a pause. The
JTAG port (R471, R472): IDCODE, the trace pointer and data registers, the captured pins, and pads driven only while
RESET_N is low, and only until the next instruction. -/
def Obligations.TraceAndJtag : Prop :=
  (∀ (r : CmdReq) (p : FilterParams) (s : State), Served 0x0901 (targetOf s r) (hasMgr s r.iss) r s → r.plen = 64 →
    p.classEn < 2 ^ 14 → p.flags < 4 → s.domOn dHub = true →
    Completes (.traceFilter r p) s (Replies r 0x0901 0 [] (fun u => u.rd .TR_STOP_MODE = p.flags % 2 ∧
      u.trace.filter = ⟨setBit p.classEn 0, p.flags.testBit 0, p.tenants, p.wlinks, p.hlinks⟩))) ∧
  (∀ (r : CmdReq) (p : StreamParams) (s : State), Served 0x0902 (targetOf s r) (hasMgr s r.iss) r s → r.plen = 24 →
    streamParamsOk p = true → s.domOn dHub = true →
    (p.enable = 1 → s.rd .TR_STREAM_ON = 0 → s.present p.hl = true → s.dlUp p.hl = true →
      Completes (.traceStream r p) s (Replies r 0x0902 0 [] (fun u => u.rd .TR_STREAM_ON = 1 ∧ u.rd .TR_STREAM_HL = p.hl ∧
        u.trace.strNext = s.rd .TR_NEXT ∧ u.trace.strBase = p.base ∧ u.trace.strWritten = 0))) ∧
    (p.enable = 0 → Completes (.traceStream r p) s (Replies r 0x0902 0 [] (fun u => u.rd .TR_STREAM_ON = 0)))) ∧
  (∀ (r : CmdReq) (start : Nat) (s : State), Served 0x0903 (targetOf s r) (isPfOrSmp r.iss) r s → r.plen = 8 →
    s.domOn dHub = true →
    Completes (.traceRead r start) s (fun t => ∃ d, Replies r 0x0903 0 d (· = s) t ∧
      num d 0 2 = min 252 (s.rd .TR_NEXT - max start (s.rd .TR_OLDEST)) ∧
      num d 4 4 = max start (s.rd .TR_OLDEST) % 2 ^ 32)) ∧
  (∀ (src : Nat) (x : TrRec) (kept : Bool) (rest : List (TrRec × Bool)) (s : State),
    (tget ⟨[], 0⟩ s.trace.srcQ src).recs = (x, kept) :: rest → s.domOn dHub = true → traceLost s = false →
    (kept = true → s.rd .TR_STOP_MODE = 0 → s.trace.hubResumed = false →
      Completes (.traceRecordAppend src) s (fun t => t.rd .TR_NEXT = (s.rd .TR_NEXT + 1) % 2 ^ 64 ∧
        t.trace.ring.find? (fun e => e.1 == s.rd .TR_NEXT) = some (s.rd .TR_NEXT, x))) ∧
    (kept = false →
      Completes (.traceRecordAppend src) s (fun t => t.rd .TR_NEXT = s.rd .TR_NEXT ∧ t.trace.ring = s.trace.ring))) ∧
  (∀ s : State, s.rd .TR_STREAM_ON = 1 → s.rd .TR_STREAM_PAUSED = 0 → streamBlocked s = false →
    s.rd .TR_OLDEST ≤ s.trace.strNext → s.trace.strWritten % 4 = 0 →
    (∀ i < 4, (heldRec s (s.trace.strNext + i)).isSome = true) →
    Completes .streamBatchWrite s (fun t => t.trace.strNext = s.trace.strNext + 4 ∧
      t.rd .TR_STREAM_CNT = (s.trace.strWritten + 4) % 2 ^ Fld.TR_STREAM_CNT.width ∧
      ∃ a b, t.hostQ = s.hostQ ++ [a, b] ∧ a.kind = .write ∧ a.data.length = 64 ∧
        a.addr = s.trace.strBase + 16 * (s.trace.strWritten % 2 ^ (s.trace.strSize - 4)) ∧ b.kind = .write ∧
        b.addr = s.trace.strProd ∧ b.data = le 8 (s.trace.strWritten + 4))) ∧
  (∀ s : State, s.rd .TR_STREAM_ON = 1 → s.rd .TR_STREAM_PAUSED = 1 → streamBlocked s = false →
    Completes .streamResume s (fun t => t.rd .TR_STREAM_PAUSED = 0 ∧ t.rd .TR_STREAM_ON = 1)) ∧
  (∀ s : State, Completes .jtagIdcode s (fun t =>
    t.out = s.out ++ (if s.pins.padDrive.isSome then [.pads none] else []) ++ [.jtag (le 4 0xB809656F)] ∧
    t.pins = { s.pins with padDrive := none } ∧ t.regs = s.regs ∧ t.trace = s.trace)) ∧
  (∀ (n : Nat) (s : State), Completes (.jtagTracePtr n) s (fun t =>
    Out.jtag (le 8 (if s.domOn dHub then s.rd .TR_NEXT else 0)) ∈ t.out ∧ t.trace.jtagPtr = n % 2 ^ 64 ∧
    t.pins.padDrive = none ∧ t.regs = s.regs)) ∧
  (∀ s : State, Completes .jtagTraceData s (fun t => t.trace.jtagPtr = (s.trace.jtagPtr + 1) % 2 ^ 64 ∧
    t.pins.padDrive = none ∧ t.regs = s.regs ∧
    t.out = s.out ++ (if s.pins.padDrive.isSome then [.pads none] else []) ++
      [.jtag (match heldRec s s.trace.jtagPtr with | some x => x.bytes | none => zeros 16)])) ∧
  (∀ (pins : Bytes) (s : State), Completes (.jtagSamplePreload pins) s (fun t =>
    t.out = s.out ++ (if s.pins.padDrive.isSome then [.pads none] else []) ++ [.jtag pins] ∧
    t.pins = { s.pins with padDrive := none } ∧ t.regs = s.regs ∧ t.trace = s.trace)) ∧
  (∀ (i : PadInstr) (s : State), Completes (.jtagPadDrive i) s (fun t =>
    if s.pins.resetLow then t.out = s.out ++ [.pads (some i)] ∧ t.pins = { s.pins with padDrive := some i } ∧ t.regs = s.regs
    else t = s))

/-- Events at the Ward (R371 to R374, R377, R380, R382): an event sets its LINES and FAULT_WORD bits, is captured
while its class holds no capture, and one of class FATAL puts the reaction in force; a reserved line and a short
pulse of FAULT_IN_N do nothing; the minimum pulse elapses without releasing FAULT_N. The Ward's commands (R380, R383
to R387). -/
def Obligations.Ward : Prop :=
  (∀ (e : Ev) (s : State), s.aonRuns = true → lineDefined e.group e.line = true →
    let cls := lineClass s e.group e.line
    Completes (.errorLineEvent e) s (fun t => (t.rd .WD_LINES 0 e.group).testBit e.line = true ∧
      (t.rd .WD_FAULT_WORD).testBit (3 * e.group + cls) = true ∧
      (s.rd .WD_VALID 0 cls = 0 → t.rd .WD_VALID 0 cls = 1 ∧ t.rd .WD_GROUP 0 cls = e.group ∧ t.rd .WD_LINE 0 cls = e.line ∧
        t.rd .WD_FC_ADDR 0 cls = e.addr % 2 ^ 64) ∧
      (cls = 2 → t.react = true))) ∧
  (∀ (e : Ev) (s : State), lineDefined e.group e.line = false → exec (.errorLineEvent e) s = .next s) ∧
  (∀ s : State, Completes .faultMinwExpiry s (fun t => t.rd .WD_MINW_RUN = 0 ∧ t.rd .WD_FN_DRIVEN = s.rd .WD_FN_DRIVEN ∧
    t.out = s.out)) ∧
  (∀ (w : Nat) (s : State), s.aonRuns = true → s.rd .WD_FN_DRIVEN = 0 → 1000 ≤ w →
    Completes (.faultInEvent w) s (fun t => t.rd .WD_FAULTIN_CNT = (s.rd .WD_FAULTIN_CNT + 1) % 2 ^ 64 ∧
      (t.rd .WD_LINES 0 14).testBit 0 = true)) ∧
  (∀ (w : Nat) (s : State), (s.rd .WD_FN_DRIVEN = 1 ∨ w < 500) →
    Completes (.faultInEvent w) s (fun t => t.out = s.out ∧ ∀ f i j, f ≠ .WD_FIN_LEVEL → t.rd f i j = s.rd f i j)) ∧
  (∀ (r : CmdReq) (s : State), Served 0x0A01 (targetOf s r) (isPfOrSmp r.iss) r s → r.plen = 0 →
    Completes (.faultRead r) s (fun t => ∃ d, Replies r 0x0A01 0 d (· = s) t ∧ d.length = 256 ∧
      num d 0 8 = s.rd .WD_FAULT_WORD % 2 ^ 64 ∧ num d 8 8 = s.rd .WD_INJ_WORD % 2 ^ 64)) ∧
  (∀ (r : CmdReq) (mask : Nat) (s : State), Served 0x0A02 (targetOf s r) (hasMgr s r.iss) r s → r.plen = 8 →
    Completes (.faultClear r mask) s (Replies r 0x0A02 0 [] (fun u =>
      (∀ b < 48, (u.rd .WD_FAULT_WORD).testBit b =
        ((s.rd .WD_FAULT_WORD).testBit b && !(mask.testBit b && b % 3 != 2))) ∧
      (mask.testBit 62 = true → u.rd .WD_INJ_WORD = 0) ∧ u.rd .WD_REACT = s.rd .WD_REACT))) ∧
  (∀ (r : CmdReq) (s : State), Served 0x0A03 (targetOf s r) (hasMgr s r.iss) r s → r.plen = 0 → s.rd .WD_FN_DRIVEN = 1 →
    s.rd .WD_MINW_RUN = 0 →
    Completes (.faultRelease r) s (Replies r 0x0A03 0 [] (fun u => u.rd .WD_FN_DRIVEN = 0 ∧ u.rd .WD_FN_LEVEL = 0 ∧
      Out.pin .faultN true ∈ u.out))) ∧
  (∀ (r : CmdReq) (p : FaultInj) (s : State), Served 0x0A04 (targetOf s r) (hasMgr s r.iss) r s → r.plen = 16 →
    p.modes / 4 % 32 = 0 → s.react = false →
    (p.op = 0 → p.modes.testBit 7 = true → Completes (.faultInject r p) s (Replies r 0x0A04 0 [] (fun u =>
      u.rd .WD_INJ_COUNTS = p.modes % 2 ∧ u.rd .WD_INJ_REACT = p.modes / 2 % 2))) ∧
    (p.op = 1 → p.modes = 0 → lineDefined p.group p.line = true → groupDark s p.group = false →
      s.rd .WD_INJ_COUNTS = 0 → s.rd .WD_INJ_REACT = 0 →
      Completes (.faultInject r p) s (Replies r 0x0A04 0 [] (fun u =>
        u.rd .WD_INJ_CNT = (s.rd .WD_INJ_CNT + 1) % 2 ^ 64 ∧
        (u.rd .WD_INJ_WORD).testBit (3 * p.group + lineClass s p.group p.line) = true ∧
        (∀ g, u.rd .WD_LINES 0 g = s.rd .WD_LINES 0 g) ∧ u.rd .WD_FAULT_WORD = s.rd .WD_FAULT_WORD)))) ∧
  (∀ (r : CmdReq) (p : FaultCfg) (s : State), Served 0x0A05 (targetOf s r) (hasMgr s r.iss) r s → r.plen = 16 →
    faultConfigOk p = true →
    Completes (.faultConfig r p) s (Replies r 0x0A05 0 [] (fun u =>
      (p.select.testBit 0 = true → lineClass u p.group p.line = p.cls ∧ (p.group, p.line, p.cls) ∈ u.store.classes) ∧
      (p.select.testBit 1 = true → u.rd .WD_FAULT_MINW = p.minw ∧ u.store.minw = some p.minw))))

/-- The device journal (R390 to R394): the record at the head of the queue is programmed with the next number,
chained to the newest; the erase of the oldest sector takes its records; JOURNAL_READ gives records in order, and
advances the export mark. -/
def Obligations.DeviceJournal : Prop :=
  (∀ (x : JRec) (rest : List JRec) (s : State), s.rd .CAD_SEEDED = 1 → s.journal.queue = x :: rest →
    Completes .journalAppend s (fun t => t.rd .WD_JR_NEWEST = (s.rd .WD_JR_NEWEST + 1) % 2 ^ 64 ∧
      t.rd .WD_JR_APPEND_CNT = (s.rd .WD_JR_APPEND_CNT + 1) % 2 ^ 64 ∧
      ∃ y, t.journal.recs = s.journal.recs ++ [y] ∧ y.body = x.body ∧ y.stamp = x.stamp ∧
        y.seq = s.rd .WD_JR_NEWEST + 1 ∧
        y.chain = chainOf (match s.journal.recs.getLast? with | some p => p.chain | none => s.journal.chainBefore) y)) ∧
  (∀ (x : JRec) (rest : List JRec) (s : State), s.journal.erasing = true → s.journal.recs = x :: rest →
    Completes .journalEraseDone s (fun t => t.journal.erasing = false ∧
      t.journal.recs = s.journal.recs.filter (fun r => r.sector != x.sector))) ∧
  (∀ (r : CmdReq) (start : Nat) (s : State), Served 0x0A10 (targetOf s r) (isPfOrSmp r.iss) r s → r.plen = 8 →
    start < 2 ^ 63 →
    ((∀ x ∈ s.journal.recs, x.seq < start) →
      Completes (.journalRead r start) s (Replies r 0x0A10 0
        (le 2 0 ++ le 2 (1 + (if start < s.rd .WD_JR_OLDEST then 2 else 0)) ++ le 4 0) (· = s)) ∧
      Completes (.journalRead r (2 ^ 63 + start)) s (fun t => ∃ d, Replies r 0x0A10 0 d (fun u =>
        u.rd .WD_JR_MARK = max (s.rd .WD_JR_MARK) (min (start - 1) (s.rd .WD_JR_NEWEST))) t)) ∧
    (∀ x rest, s.journal.recs.filter (fun x => decide (start ≤ x.seq)) = x :: rest →
      (recOk s x = true → Completes (.journalRead r start) s (fun t => ∃ u, u.regs = s.regs ∧
        u.journal.recs = s.journal.recs ∧
        ((recOk u x = true ∧ ∃ d, t = finish r 0x0A10 0 d u ∧
            num d 0 2 = (takeRecs u 4032 (x :: rest)).length % 2 ^ 16) ∨
          (x.seq ∈ u.journal.bad ∧ t = finish r 0x0A10 0x0D [] (ward 13 16 mNone 0 0 u))))) ∧
      (recOk s x = false → Completes (.journalRead r start) s (fun t => ∃ u, u.regs = s.regs ∧
        u.journal.recs = s.journal.recs ∧ t = finish r 0x0A10 0x0D [] (ward 13 16 mNone 0 0 u)))))

/-- Interrupts (R320 to R324): a vector whose message waited sends it when its holdoff ends, and begins the next;
MOD_TICKS, FN_EVENT_EN and CH_IRQ take what is written; an unmasked vector with its PBA bit set sends its message. -/
def Obligations.Interrupts : Prop :=
  (∀ (fn : Fn) (v : Fin 128) (s : State), s.rd .FI_HOLDOFF (fnIdx fn) v = 1 → (s.vec (fnIdx fn) v).ticksLeft = 0 →
    s.tlOn (hlTiller fn.hl) = true →
    (s.rd .FI_WAITING (fnIdx fn) v = 0 → (s.vec (fnIdx fn) v).pba = false →
      Completes (.holdoffEnd fn v) s (fun t => t.rd .FI_HOLDOFF (fnIdx fn) v = 0 ∧ t.hostQ = s.hostQ)) ∧
    (s.rd .FI_WAITING (fnIdx fn) v = 1 → v.val < s.rd .FI_VEC_COUNT (fnIdx fn) → (s.cf (fnIdx fn)).msixEn = true →
      (∀ n, s.boundTn (fnIdx fn) = some n → s.tnState n ≠ 2) → (s.vec (fnIdx fn) v).masked = false →
      (s.cf (fnIdx fn)).fmask = false → canSend s (fnIdx fn) = true →
      Completes (.holdoffEnd fn v) s (fun t => t.rd .FI_WAITING (fnIdx fn) v = 0 ∧
        t.rd .FI_HOLDOFF (fnIdx fn) v = (if s.rd .FI_MOD_TICKS (fnIdx fn) v = 0 then 0 else 1) ∧
        ∃ q, t.hostQ = s.hostQ ++ [q] ∧ q.fn = fn ∧ q.kind = .write ∧ q.src = .msix v none))) ∧
  (∀ (fn : Fn) (v : Fin 128) (k : Fin 256) (s : State), fnWrites s fn = true → v.val < s.rd .FI_VEC_COUNT (fnIdx fn) →
    Completes (.modTicksWrite fn v k) s (fun t => t.rd .FI_MOD_TICKS (fnIdx fn) v = k.val)) ∧
  (∀ (fn : Fn) (v : BitVec 14) (s : State), fnWrites s fn = true →
    Completes (.fnEventEnWrite fn v) s (fun t => t.rd .FI_FN_EVENT_EN (fnIdx fn) =
      v.toNat &&& (if fn.vf.val = 0 then 0x3F07 else 0x0007))) ∧
  (∀ (fn : Fn) (ch : Chan) (v : BitVec 24) (s : State), chanWrites s fn ch = true →
    Completes (.chIrqEnableWrite fn ch v) s (fun t => t.rd .CH_VEC_HALF ch = v.toNat % 128 ∧
      t.rd .CH_HALF_EN ch = v.toNat / 2 ^ 7 % 2 ∧ t.rd .CH_VEC_FULL ch = v.toNat / 2 ^ 8 % 128 ∧
      t.rd .CH_FULL_EN ch = v.toNat / 2 ^ 15 % 2 ∧ t.rd .CH_VEC_ERR ch = v.toNat / 2 ^ 16 % 128 ∧
      t.rd .CH_ERR_EN ch = v.toNat / 2 ^ 23 % 2)) ∧
  (∀ (fn : Fn) (v : Fin 128) (s : State), fnWrites s fn = true → s.react = false → v.val < s.rd .FI_VEC_COUNT (fnIdx fn) →
    Completes (.msixUnmask fn v) s (fun t => (t.vec (fnIdx fn) v).masked = false ∧
      ((s.vec (fnIdx fn) v).pba = true → (s.cf (fnIdx fn)).msixEn = true → (s.cf (fnIdx fn)).fmask = false →
        s.rd .FI_HOLDOFF (fnIdx fn) v = 0 → fnResetting s (fnIdx fn) = false → canSend s (fnIdx fn) = true →
        waitsThaw s (fnIdx fn) v = false → (t.vec (fnIdx fn) v).pba = false ∧
        ∃ q, t.hostQ = s.hostQ ++ [q] ∧ q.fn = fn ∧ q.src = .msix v none)))

/-- How the windows are searched and a packet is checked (R100, R101, R105, R122): an entry found is one of the link
or function whose range holds the address, an acting entry that holds it is never missed, and a packet that is passed
lies wholly in its window, with the access bit of its type and the permission of the destination tenant. -/
def Obligations.WindowLookup : Prop :=
  (∀ (s : State) (n a i : Nat), findOut s n a = some i → i / 256 = wlTiller n ∧ s.rd .OW_LINK i = n ∧ owBase s i ≤ a ∧
    a < owBase s i + owSize s i) ∧
  (∀ (s : State) (n a i : Nat), i / 256 = wlTiller n → s.rd .OW_LINK i = n → owBase s i ≤ a → a < owBase s i + owSize s i →
    s.on .OW_SHEAF i = false → tnDead s (owDest s i).2 = false → (findOut s n a).isSome = true) ∧
  (∀ (s : State) (f x i : Nat), findIn s f x = some i → i / 128 = hlTiller (fnHl f) ∧ s.rd .IW_HL i = fnHl f ∧
    s.rd .IW_FUNC i = fnVf f ∧ iwOff s i ≤ x ∧ x < iwOff s i + iwSize s i) ∧
  (∀ (s : State) (f x i : Nat), i / 128 = hlTiller (fnHl f) → s.rd .IW_HL i = fnHl f → s.rd .IW_FUNC i = fnVf f →
    iwOff s i ≤ x → x < iwOff s i + iwSize s i → (findIn s f x).isSome = true) ∧
  (∀ (s : State) (n m i : Nat), findInt s n m = some i → i / 128 = wlTiller n ∧ s.rd .NW_LINK i = n ∧
    s.rd .NW_MSG_BASE i ≤ m ∧ m < s.rd .NW_MSG_BASE i + s.rd .NW_COUNT i) ∧
  (∀ (s : State) (n i : Nat) (p : Pkt) (bit : Fld), missCause s n i p bit = 0 ↔
    p.addr + p.len ≤ owBase s i + owSize s i ∧ s.rd bit i ≠ 0 ∧
    (s.on .OW_SHEAF i = true → p.typ = 1 ∨ (p.typ = 2 ∧ p.len = 0)) ∧
    (s.on .OW_SHEAF i = false → (owDest s i).2 < 256 → permits s (owDest s i).2 n = true))

/-- How requests are cut (R104, R107, R138, R144): a TLP does not cross a multiple of the largest size, what is cut
and what remains make up the request, and what remains starts at such a multiple; the packets of a host write start
where the last ended and cross no multiple of 512, and together they are the write. -/
def Obligations.RequestCuts : Prop :=
  (∀ (s : State) (r : HReq), r.kind = .write → r.data.length = r.len →
    let x := (cutTlp s r).1
    x.addr = r.addr ∧ x.addr % maxPayload s (fnIdx r.fn) + x.len ≤ maxPayload s (fnIdx r.fn) ∧ x.data = r.data.take x.len ∧
    (∀ y, (cutTlp s r).2 = some y → 0 < x.len ∧ y.addr = r.addr + x.len ∧ y.addr % maxPayload s (fnIdx r.fn) = 0 ∧
      x.len + y.len = r.len ∧ y.data = r.data.drop x.len) ∧
    ((cutTlp s r).2 = none → x = r)) ∧
  (∀ (s : State) (r : HReq), r.kind = .read →
    let x := (cutTlp s r).1
    let m := if conservative s (hlTiller (fnHl (fnIdx r.fn))) then min 128 (maxRead s (fnIdx r.fn)) else maxRead s (fnIdx r.fn)
    x.addr = r.addr ∧ x.addr % m + x.len ≤ m ∧
    (∀ y, (cutTlp s r).2 = some y → y.addr = r.addr + x.len ∧ y.addr % m = 0 ∧ x.len + y.len = r.len)) ∧
  (∀ a n : Nat, let l := cutIn (n / 512 + 2) 0 a n
    (l.map (fun c => c.2.2)).sum = n ∧ (∀ c ∈ l, 0 < c.2.2 ∧ c.2.1 % 512 + c.2.2 ≤ 512 ∧ c.2.1 = a + c.1) ∧
    l.Pairwise (fun c d => c.1 + c.2.2 ≤ d.1))

/-- Host requests to inbound windows (R105 to R107, R204): one that no entry holds, or that its entry or the tenant's
permissions forbid, is counted, and a read of it is completed UR; a write goes out as MWR packets and a read as MRD
packets on the entry's link and order lane, at LOCAL_BASE + (X − BAR_OFFSET); while the link is held, the request
waits (R204). -/
def Obligations.InboundRequests : Prop :=
  (∀ (m : HostMem) (s : State), TakesBar2 m s → findIn s (fnIdx m.fn) m.offset = none →
    Completes (.inboundRequest m) s (fun t =>
      t.rd .CT_HL_IN_MISS m.fn.hl = (s.rd .CT_HL_IN_MISS m.fn.hl + 1) % 2 ^ 64 ∧
      (m.write = false → Out.cpl m.fn m.hostTag 1 m.len [] ∈ t.out))) ∧
  (∀ (m : HostMem) (i : Nat) (s : State), TakesBar2 m s → findIn s (fnIdx m.fn) m.offset = some i →
    (iwOff s i + iwSize s i < m.offset + m.len ∨ m.atomic = true ∨ (m.write = true ∧ s.rd .IW_WR i = 0) ∨
      (m.write = false ∧ s.rd .IW_RD i = 0) ∨
      ∃ tn, s.boundTn (fnIdx m.fn) = some tn ∧ permits s tn (s.rd .IW_LINK i) = false) →
    Completes (.inboundRequest m) s (fun t => (linkDark s (s.rd .IW_LINK i) = false → t.wls = s.wls ∧ t.inRds = s.inRds) ∧
      t.rd .CT_HL_IN_MISS m.fn.hl = (s.rd .CT_HL_IN_MISS m.fn.hl + 1) % 2 ^ 64 ∧
      (m.write = false → Out.cpl m.fn m.hostTag 1 m.len [] ∈ t.out))) ∧
  (∀ (m : HostMem) (i : Nat) (s : State), TakesBar2 m s → findIn s (fnIdx m.fn) m.offset = some i →
    m.offset + m.len ≤ iwOff s i + iwSize s i → m.atomic = false →
    (∀ tn, s.boundTn (fnIdx m.fn) = some tn → permits s tn (s.rd .IW_LINK i) = true) →
    linkUsable s (s.rd .IW_LINK i) = true →
    let n := s.rd .IW_LINK i
    let a := iwBase s i + (m.offset - iwOff s i)
    (linkHeld s n = true → (if m.write then s.rd .IW_WR i else s.rd .IW_RD i) ≠ 0 →
      Completes (.inboundRequest m) s (fun t => (t.hl m.fn.hl.val).inWait = (s.hl m.fn.hl.val).inWait ++ [inTranslate m i s] ∧
        t.wls = s.wls ∧ t.inRds = s.inRds)) ∧
    (linkHeld s n = false → m.write = true → s.rd .IW_WR i ≠ 0 →
      Completes (.inboundRequest m) s (fun t => ∃ ps : List WPkt, (t.wl n).linkQ = (s.wl n).linkQ ++ ps ∧
        (∀ p ∈ ps, p.pkt.typ = 1 ∧ p.pkt.lane = s.rd .IW_LANE i ∧ p.src = .hostWrite (fnIdx m.fn) i) ∧
        ps.map (fun p => (p.pkt.addr, p.pkt.len, p.pkt.payload)) =
          (cutIn (m.len / 512 + 2) 0 a m.len).map (fun c => (c.2.1, c.2.2, sub m.data c.1 c.2.2)))) ∧
    (linkHeld s n = false → m.write = false → s.rd .IW_RD i ≠ 0 →
      Completes (.inboundRequest m) s (fun t => ∃ ps : List WPkt, (t.wl n).linkQ = (s.wl n).linkQ ++ ps ∧
        (∀ p ∈ ps, p.pkt.typ = 2 ∧ p.pkt.lane = s.rd .IW_LANE i ∧ ∃ k, p.src = .hostRead (fnIdx m.fn) (s.pktCount + 1) k) ∧
        (0 < m.len → a % 512 + m.len ≤ 512 →
          ps.map (fun p => (p.pkt.addr, p.pkt.len)) = [(a, m.len)]) ∧
        ∃ q, t.inRds = s.inRds ++ [q] ∧ q.req = m ∧ q.parts = ps.length)))

/-- Requests enter a host link's transmit order (R15, R134, R136, R137, R283): the request that the choice allows
leaves, one TLP of it, a read with the tag value it was given, which it then holds. -/
def Obligations.HostRequestsLeave : Prop :=
  (∀ (hl : Hl) (pos : Nat) (r : HReq) (d : Tbl Nat) (s : State), atPos s hl pos = some r → r.reads = false →
    undeliverable s (fnIdx r.fn) = 0 → linkOpen s hl = true → logStalled s r = false → allowed s hl r = some d →
    Completes (.hostTlpIssue hl pos) s (fun t =>
      ∃ l, t.out = s.out ++ Out.tlp (fillMsix s (cutTlp s r).1) 0 :: l)) ∧
  (∀ (hl : Hl) (pos : Nat) (r : HReq) (s : State), atPos s hl pos = some r → r.reads = false →
    undeliverable s (fnIdx r.fn) = 0 → linkOpen s hl = true → logStalled s r = false → allowed s hl r = none →
    exec (.hostTlpIssue hl pos) s = .next (freezeSettle s)) ∧
  (∀ (hl : Hl) (pos tag : Nat) (r : HReq) (d : Tbl Nat) (s : State), atPos s hl pos = some r → r.reads = true →
    undeliverable s (fnIdx r.fn) = 0 → (r.src.speculative = true → inRegion s r.tn r.addr r.len = true) →
    noReads s r = false → linkOpen s hl = true → (tagSet s (fnIdx r.fn)).1 ≤ tag →
    tag < (tagSet s (fnIdx r.fn)).1 + (tagSet s (fnIdx r.fn)).2 → tagHeld s (fnIdx r.fn) tag = false →
    logStalled s r = false → allowed s hl r = some d → (∀ v lane, r.src ≠ .msix v lane) →
    Completes (.hostReadIssue hl pos tag) s (fun t =>
      (∃ x l, t.out = s.out ++ Out.tlp x tag :: l ∧ x.fn = r.fn ∧ x.kind = r.kind ∧
        (r.kind = .read → x.addr = r.addr ∧ x.len = tlpLen s r)) ∧
      (∃ e ∈ t.tags, fnIdx e.req.fn = fnIdx r.fn ∧ e.tag = tag ∧ e.quarantined = false) ∧
      t.rd .TI_OUTSTANDING (hlTiller hl) (hl.val % 4) = (s.rd .TI_OUTSTANDING (hlTiller hl) (hl.val % 4) + 1) % 2 ^ 12)) ∧
  (∀ (hl : Hl) (pos tag : Nat) (r : HReq) (s : State), atPos s hl pos = some r → r.reads = true →
    undeliverable s (fnIdx r.fn) = 0 → (r.src.speculative = true → inRegion s r.tn r.addr r.len = true) →
    noReads s r = false → tagHeld s (fnIdx r.fn) tag = true →
    exec (.hostReadIssue hl pos tag) s = .next s)

/-- Completions from hosts (R142, R150, R151, R153, R156, R158): one that matches nothing, or does not fit its
request, is counted and discarded; one for a tag in quarantine, of a former generation, or dropped is counted and
frees the tag; an error completion, and the last of the data, free the tag. The timer of a request (R149, R150): when
it expires the tag goes to quarantine and the request fails, counted; a tag in quarantine is freed at its expiry. -/
def Obligations.HostCompletions : Prop :=
  (∀ (c : HostCpl) (s : State), s.dlUp c.fn.hl = true → s.tlOn (hlTiller c.fn.hl) = true →
    let til := hlTiller c.fn.hl
    (tagOf s (fnIdx c.fn) c.tag = none → Completes (.hostCompletion c) s (fun t => t.tags = s.tags ∧
      t.rd .TI_RQ_UNEXP_CNT til = (s.rd .TI_RQ_UNEXP_CNT til + 1) % 2 ^ 64)) ∧
    ∀ e, tagOf s (fnIdx c.fn) c.tag = some e →
      (e.quarantined = true → e.timedOut = false → Completes (.hostCompletion c) s (fun t =>
        t.rd .TI_RQ_STALE_CNT til = (s.rd .TI_RQ_STALE_CNT til + 1) % 2 ^ 64 ∧ t.tags = s.tags.erase e)) ∧
      (e.quarantined = true → e.timedOut = true → Completes (.hostCompletion c) s (fun t =>
        t.rd .TI_RQ_LATE_CNT til = (s.rd .TI_RQ_LATE_CNT til + 1) % 2 ^ 64 ∧ t.tags = s.tags.erase e)) ∧
      (e.quarantined = false → e.dropped = true → Completes (.hostCompletion c) s (fun t =>
        t.rd .TI_RQ_DROP_CNT til = (s.rd .TI_RQ_DROP_CNT til + 1) % 2 ^ 64 ∧ t.tags = s.tags.erase e)) ∧
      (e.quarantined = false → e.dropped = false →
        (consistent s e c = false → Completes (.hostCompletion c) s (fun t => t.tags = s.tags ∧
          t.rd .TI_RQ_UNEXP_CNT til = (s.rd .TI_RQ_UNEXP_CNT til + 1) % 2 ^ 64)) ∧
        (consistent s e c = true → (c.status ≠ 0 ∨ c.poisoned = true) → Completes (.hostCompletion c) s (fun t =>
          t.rd .TI_OUTSTANDING til (c.fn.hl.val % 4) = (s.rd .TI_OUTSTANDING til (c.fn.hl.val % 4) - 1) % 2 ^ 12 ∧
          (e.req.tn < 256 → c.status = 1 → c.poisoned = false →
            t.rd .CT_TN_UR_CPL e.req.tn = (s.rd .CT_TN_UR_CPL e.req.tn + 1) % 2 ^ 64))) ∧
        (c.status = 0 → c.poisoned = false → consistent s e c = true →
          (e.req.kind = .flush ∨ replyLen e.req ≤ e.got + c.data.length) → Completes (.hostCompletion c) s (fun t =>
            t.tags = s.tags.erase e ∧
            t.rd .TI_OUTSTANDING til (c.fn.hl.val % 4) = (s.rd .TI_OUTSTANDING til (c.fn.hl.val % 4) - 1) % 2 ^ 12)))) ∧
  (∀ (fn : Fn) (tag : Nat) (e : HTag) (s : State), tagOf s (fnIdx fn) tag = some e → e.quarantined = false →
    e.dropped = false → Completes (.completionTimeout fn tag) s (fun t =>
      t.rd .TI_RQ_CTO_CNT (hlTiller fn.hl) = (s.rd .TI_RQ_CTO_CNT (hlTiller fn.hl) + 1) % 2 ^ 64 ∧
      t.rd .TI_OUTSTANDING (hlTiller fn.hl) (fn.hl.val % 4) = (s.rd .TI_OUTSTANDING (hlTiller fn.hl) (fn.hl.val % 4) - 1) % 2 ^ 12 ∧
      t.rd .TI_QUARANTINED (hlTiller fn.hl) (fn.hl.val % 4) =
        (s.rd .TI_QUARANTINED (hlTiller fn.hl) (fn.hl.val % 4) + 1) % 2 ^ 12 ∧
      ∃ x ∈ t.tags, x.tag = e.tag ∧ x.quarantined = true ∧ x.timedOut = true)) ∧
  (∀ (fn : Fn) (tag : Nat) (e : HTag) (s : State), tagOf s (fnIdx fn) tag = some e → e.quarantined = true →
    Completes (.quarantineExpiry fn tag) s (fun t => t.tags = s.tags.erase e ∧ t.out = s.out ∧
      t.rd .TI_QUARANTINED (hlTiller fn.hl) (fn.hl.val % 4) =
        (s.rd .TI_QUARANTINED (hlTiller fn.hl) (fn.hl.val % 4) - 1) % 2 ^ 12)) ∧
  (∀ (fn : Fn) (tag : Nat) (s : State), tagOf s (fnIdx fn) tag = none →
    exec (.quarantineExpiry fn tag) s = .next s)

/-- What a packet from a local design becomes (R100, R103, R104, R127): a host request at HOST_BASE + (A −
LOCAL_BASE) of the destination's function behind what waits; one that no window translates is counted and, unless it
is an MWR that asks for no answer, answered UR with its cause. What the other packets of a local design do, and the
time-out of an answer (R122, R225, R228, R235, R477): a MSG, or a DOORBELL of a peer link, whose vector is not masked
and whose function may send puts that vector's message in the host link's order; an IDENT is held and its MAX_RD
applied; a WRSP with SC frees the TAG of the host write it answers, and a CPLD with all the data of a host read
completes that read; a TAG that no answer reaches in time goes to quarantine. -/
def Obligations.OutboundPackets : Prop :=
  (∀ (wl : Wl) (p : Pkt) (i : Nat) (s : State), Taken s wl p → p.typ = 1 →
    (p.ackReq = true → tagOpen s wl p.tag = false) → 0 < p.len → p.len ≤ 512 → Passes s wl i p .OW_WR →
    Completes (.localMwr wl p) s (fun t => ∃ r, t.hostQ = s.hostQ ++ [r] ∧ r.fn = fnOf (owDest s i).1 ∧ r.kind = .write ∧
      r.addr = (owHost s i + (p.addr - owBase s i)) % 2 ^ 64 ∧ r.len = p.len ∧ r.data = payloadOf p ∧
      r.src = .window wl p.lane p.tag i 0 p.ackReq true ∧ r.tn = (owDest s i).2 ∧ r.cls = s.rd .OW_CLASS i)) ∧
  (∀ (wl : Wl) (p : Pkt) (s : State), Taken s wl p → p.typ = 1 → (p.ackReq = true → tagOpen s wl p.tag = false) →
    0 < p.len → p.len ≤ 512 → findOut s wl p.addr = none →
    Completes (.localMwr wl p) s (fun t => t.rd .CT_WL_WIN_MISS wl = (s.rd .CT_WL_WIN_MISS wl + 1) % 2 ^ 64 ∧
      (p.ackReq = true → ∃ x, (t.wl wl).linkQ.getLast? = some x ∧ x.pkt.typ = 5 ∧ x.pkt.tag = p.tag ∧ x.pkt.status = 1 ∧
        x.pkt.cause = 1))) ∧
  (∀ (wl : Wl) (p : Pkt) (i : Nat) (s : State), Taken s wl p → p.typ = 2 → tagOpen s wl p.tag = false →
    p.len ≤ 4096 → Passes s wl i p .OW_RD →
    ((owDest s i).2 < 256 → s.rd .TN_ALLOWANCE (owDest s i).2 ≠ 0 ∨ s.rd .TN_CB_UNITS (owDest s i).2 ≠ 0) →
    Completes (.localMrd wl p) s (fun t => (∃ r, t.hostQ = s.hostQ ++ [r] ∧ r.fn = fnOf (owDest s i).1 ∧
        r.kind = (if p.len = 0 then .flush else .read) ∧ r.addr = (owHost s i + (p.addr - owBase s i)) % 2 ^ 64 ∧
        r.len = p.len ∧ r.src = .window wl p.lane p.tag i 0 true true) ∧
      ∃ q, t.locReqs = s.locReqs ++ [q] ∧ q.wl = wl.val ∧ q.tag = p.tag ∧ q.len = p.len)) ∧
  (∀ (wl : Wl) (p : Pkt) (s : State), Taken s wl p → p.typ = 2 → tagOpen s wl p.tag = false → p.len ≤ 4096 →
    findOut s wl p.addr = none →
    Completes (.localMrd wl p) s (fun t => t.rd .CT_WL_WIN_MISS wl = (s.rd .CT_WL_WIN_MISS wl + 1) % 2 ^ 64 ∧
      ∃ x, (t.wl wl).linkQ.getLast? = some x ∧ x.pkt.typ = 3 ∧ x.pkt.tag = p.tag ∧ x.pkt.status = 1 ∧ x.pkt.cause = 1)) ∧
  (∀ (wl : Wl) (p : Pkt) (i : Nat) (s : State), Taken s wl p → p.typ = 6 → tagOpen s wl p.tag = false →
    atomOk p.sub p.len = true → Passes s wl i p .OW_AT →
    (atomMay s i p = true → ((owDest s i).2 < 256 → s.rd .TN_ALLOWANCE (owDest s i).2 ≠ 0 ∨ s.rd .TN_CB_UNITS (owDest s i).2 ≠ 0) →
      Completes (.localAtom wl p) s (fun t => ∃ r, t.hostQ = s.hostQ ++ [r] ∧ r.fn = fnOf (owDest s i).1 ∧
        r.kind = .atomic p.sub ∧ r.addr = (owHost s i + (p.addr - owBase s i)) % 2 ^ 64 ∧ r.data = payloadOf p)) ∧
    (atomMay s i p = false → Completes (.localAtom wl p) s (fun t => t.hostQ = s.hostQ ∧
      ∃ x, (t.wl wl).linkQ.getLast? = some x ∧ x.pkt.typ = 3 ∧ x.pkt.tag = p.tag ∧ x.pkt.cause = 12))) ∧
  (∀ (wl : Wl) (p : Pkt) (i : Nat) (s : State), Taken s wl p → p.typ = 7 → p.len = 0 → findInt s wl p.num = some i →
    s.rd .NW_TO_PF i = 1 → s.rd .NW_PF_HL i < 32 → s.tlOn (hlTiller (s.rd .NW_PF_HL i)) = true → s.hostQ = [] →
    let f := pfIdx (s.rd .NW_PF_HL i)
    let v := s.rd .NW_VEC_BASE i + (p.num - s.rd .NW_MSG_BASE i)
    v < s.rd .FI_VEC_COUNT f → (s.cf f).msixEn = true → s.boundTn f = none → s.rd .FI_HOLDOFF f v = 0 →
    (s.vec f v).masked = false → (s.cf f).fmask = false → canSend s f = true →
    (p.sub = 1 → Completes (.localInterruptMsg wl p) s (fun t => t.hostQ.map (fun r => (r.fn, r.kind, r.src)) =
      [(fnOf f, .write, .msix v (some (wl, p.lane)))])) ∧
    (p.sub = 2 → (s.wl wl).peerLink = true → Completes (.peerDoorbell wl p) s (fun t =>
      t.hostQ.map (fun r => (r.fn, r.kind, r.src)) = [(fnOf f, .write, .msix v (some (wl, p.lane)))]))) ∧
  (∀ (wl : Wl) (p : Pkt) (s : State), Taken s wl p → p.typ = 8 → p.sub = 1 → p.len = 32 →
    Completes (.identReceived wl p) s (fun t => (t.wl wl).maxRd = identMaxRd (payloadOf p) ∧ (t.wl wl).ident.isSome = true)) ∧
  (∀ (wl : Wl) (p : Pkt) (e : WTag) (s : State), Taken s wl p →
    (s.wl wl).wlTags.filter (fun t => t.tag == p.tag) = [e] → e.quarantined = false →
    (∀ f i, e.src = .hostWrite f i → e.pkt.typ = 1 → p.typ = 5 → p.status = 0 →
      Completes (.localResponse wl p) s (fun t => (t.wl wl).wlTags = (s.wl wl).wlTags.erase e)) ∧
    (∀ f rd q, e.src = .hostRead f rd 0 → e.pkt.typ = 2 → p.typ = 4 → fits e p = true → e.got = 0 → p.len = e.pkt.len →
      s.inRds.filter (fun x => x.id == rd) = [q] → q.parts = 1 → q.done = [] → q.sent = 0 → q.failed = 0 → q.req.len = p.len →
      p.len ≤ maxPayload s (fnIdx q.req.fn) → s.dlUp q.req.fn.hl = true →
      Completes (.localResponse wl p) s (fun t =>
        Out.cpl q.req.fn q.req.hostTag 0 q.req.len (payloadOf p) ∈ t.out ∧ t.inRds = s.inRds.erase q))) ∧
  (∀ (wl : Wl) (tag : Nat) (e : WTag) (s : State), (s.wl wl).wlTags.find? (fun t => t.tag == tag) = some e →
    e.quarantined = false → e.ticksLeft = 0 → s.tlOn (wlTiller wl) = true →
    (∀ f i, e.src = .hostWrite f i → Completes (.lrspTimeout wl tag) s (fun t =>
      ∃ x ∈ (t.wl wl).wlTags, x.tag = tag ∧ x.quarantined = true)) ∧
    (∀ f rd part, e.src = .hostRead f rd part → Completes (.lrspTimeout wl tag) s (fun t =>
      ∃ x ∈ (t.wl wl).wlTags, x.tag = tag ∧ x.quarantined = true)))

/-- Sheaves (R114 to R117): a packet that enters a sheaf is copied to each destination that is neither excused nor
LAGGING, at its own base; a destination whose lag exceeds its budget becomes LAGGING, and what is held for it is
discarded. -/
def Obligations.Sheaves : Prop :=
  (∀ (wl : Wl) (p : Pkt) (i d : Nat) (s : State), Taken s wl p → p.typ = 1 →
    (p.ackReq = true → tagOpen s wl p.tag = false) → 0 < p.len → p.len ≤ 512 → findOut s wl p.addr = some i →
    missCause s wl i p .OW_WR = 0 → s.on .OW_SHEAF i = true →
    let k := s.rd .OW_TNID i
    d < s.rd .SH_DEST_COUNT k → isExcused s k d = false → ((shDest s k d).2 < 256 → permits s (shDest s k d).2 wl = true) →
    s.bit d .SH_LAGGING k = false →
    Completes (.localMwr wl p) s (fun t => t.pktCount = s.pktCount + 1 ∧ ∃ r ∈ t.hostQ, r.fn = fnOf (shDest s k d).1 ∧
      r.kind = .write ∧ r.data = payloadOf p ∧ r.src = .sheafCopy (s.pktCount + 1) d wl p.lane ∧
      r.addr = (s.rd .SH_HOST_BASE_LO k d * 4096 + s.rd .SH_HOST_BASE_HI k d * 2 ^ 32 + (p.addr - owBase s i)) % 2 ^ 64)) ∧
  (∀ (sheaf : Fin 256) (d : Fin 8) (p : SheafPkt) (s : State), s.sheafPkts.find? (fun p => p.sheaf == sheaf.val) = some p →
    holdsUp s p d = true →
    Completes (.sheafLagExceeded sheaf d) s (fun t => t.bit d .SH_LAGGING sheaf = true ∧
      t.rd .CT_SD_EPISODES sheaf d = (s.rd .CT_SD_EPISODES sheaf d + 1) % 2 ^ 64 ∧
      (∀ q ∈ t.sheafPkts, q.sheaf = sheaf → copyWaits t q d = none) ∧
      (∀ q ∈ s.sheafPkts, q.sheaf = sheaf → ∀ r, copyWaits s q d = some r → r ∉ t.hostQ)))

/-- Messages and identification of a local design (R122, R123, R235, R477): a message maps to vector VEC_BASE + (MSG
− MSG_BASE), which is raised behind the earlier packets of its lane; one that no window maps is counted; an IDENT is
held and its MAX_RD applied. Answers of local designs (R225, R228, R231): one for no outstanding request is counted
as unexpected, one for a TAG in quarantine as late and frees it; a final one with SC frees its TAG; a request without
an answer in LRSP_TO ticks fails and its TAG goes to quarantine. -/
def Obligations.LocalMessagesAndAnswers : Prop :=
  (∀ (wl : Wl) (p : Pkt) (s : State), Taken s wl p → p.typ = 7 → p.sub = 1 → p.len = 0 → findInt s wl p.num = none →
    Completes (.localInterruptMsg wl p) s (fun t =>
      t.rd .CT_WL_WIN_MISS wl = (s.rd .CT_WL_WIN_MISS wl + 1) % 2 ^ 64)) ∧
  (∀ (wl : Wl) (p : Pkt) (i : Nat) (s : State), Taken s wl p → p.typ = 7 → p.len = 0 → findInt s wl p.num = some i →
    s.rd .NW_TO_PF i = 1 → s.rd .NW_PF_HL i < 32 → s.tlOn (hlTiller (s.rd .NW_PF_HL i)) = true → s.hostQ = [] →
    let f := pfIdx (s.rd .NW_PF_HL i)
    let v := s.rd .NW_VEC_BASE i + (p.num - s.rd .NW_MSG_BASE i)
    v < s.rd .FI_VEC_COUNT f → (s.cf f).msixEn = true → s.boundTn f = none → s.rd .FI_HOLDOFF f v = 0 →
    (s.vec f v).masked = true →
    (p.sub = 1 → Completes (.localInterruptMsg wl p) s (fun t => (t.vec f v).pba = true ∧ t.hostQ = [])) ∧
    (p.sub = 2 → (s.wl wl).peerLink = true →
      Completes (.peerDoorbell wl p) s (fun t => (t.vec f v).pba = true ∧ t.hostQ = []))) ∧
  (∀ (wl : Wl) (p : Pkt) (s : State), Taken s wl p → p.typ = 8 → p.sub = 1 → p.len = 32 →
    Completes (.identReceived wl p) s (fun t => t.out = s.out ∧ (t.wl wl).maxRd = identMaxRd (payloadOf p) ∧
      ∃ q, (t.wl wl).ident = some q ∧ q.payload = payloadOf p)) ∧
  (∀ (wl : Wl) (p : Pkt) (s : State), Taken s wl p → (p.typ = 3 ∨ p.typ = 4 ∨ p.typ = 5) →
    (s.wl wl).wlTags.find? (fun t => t.tag == p.tag) = none →
    Completes (.localResponse wl p) s (fun t =>
      t.rd .CT_WL_UNEXP_RSP wl = (s.rd .CT_WL_UNEXP_RSP wl + 1) % 2 ^ 64)) ∧
  (∀ (wl : Wl) (p : Pkt) (e : WTag) (s : State), Taken s wl p → (p.typ = 3 ∨ p.typ = 4 ∨ p.typ = 5) →
    (s.wl wl).wlTags.find? (fun t => t.tag == p.tag) = some e →
    (e.quarantined = true → Completes (.localResponse wl p) s (fun t =>
      t.rd .CT_WL_LATE_RSP wl = (s.rd .CT_WL_LATE_RSP wl + 1) % 2 ^ 64)) ∧
    (∀ f rd part, e.src = .hostRead f rd part → e.quarantined = false → answers e.pkt p = true →
      (s.wl wl).wlTags.filter (fun t => t.tag == p.tag) = [e] →
      ((p.typ ≠ 4 ∧ p.status = 0) ∨ (p.typ = 4 ∧ fits e p = true ∧ e.got + p.len = e.pkt.len)) →
      Completes (.localResponse wl p) s (fun t => (t.wl wl).wlTags = (s.wl wl).wlTags.erase e))) ∧
  (∀ (wl : Wl) (tag : Nat) (e : WTag) (s : State), (s.wl wl).wlTags.find? (fun t => t.tag == tag) = some e →
    e.quarantined = false → e.ticksLeft = 0 → s.tlOn (wlTiller wl) = true →
    (staleRsp s e = true → Completes (.lrspTimeout wl tag) s (fun t =>
      ∃ x ∈ (t.wl wl).wlTags, x.tag = tag ∧ x.quarantined = true)) ∧
    (∀ f rd part q, e.src = .hostRead f rd part → staleRsp s e = false → inRd s rd = some q → q.failed = 0 →
      s.dlUp q.req.fn.hl = true → Completes (.lrspTimeout wl tag) s (fun t =>
        (∃ x ∈ (t.wl wl).wlTags, x.tag = tag ∧ x.quarantined = true) ∧
        Out.cpl q.req.fn q.req.hostTag 1 (q.req.len - q.sent) [] ∈ t.out))) ∧
  (∀ (wl : Wl) (tag : Nat) (s : State), (s.wl wl).wlTags.find? (fun t => t.tag == tag) = none →
    exec (.lrspTimeout wl tag) s = .next (freezeSettle s))

/-- Doorbells and enables of a DMA channel (R253 to R256, R271, R272, Table DM-7): a doorbell starts an IDLE channel
at its resume point, fetches again for one that waits or is HALTED and drained, is noted by an ACTIVE one and for a
frozen tenant, and is ignored where EN is 0; EN 1 takes a DISABLED channel to IDLE with CH_HEAD as its resume point;
EN 0 stops it. -/
def Obligations.ChannelControl : Prop :=
  (∀ (fn : Fn) (ch : Chan) (s : State), chanWrites s fn ch = true → s.on .CH_EN ch = true → s.tnState (chTn s ch) ≠ 3 →
    (chStop s ch = 0 → s.rd .CH_STATE ch = 1 → (s.ch ch).resumeNext = false → (s.ch ch).resume ≠ 0 →
      Completes (.channelDoorbell fn ch) s (fun t => t.rd .CH_STATE ch = 2 ∧
        t.hostQ = s.hostQ ++ [chReq s ch .read (s.ch ch).resume 64 [] (.dmaFetch ch (s.ch ch).resume) 0])) ∧
    (chStop s ch = 0 → s.rd .CH_STATE ch = 1 → (s.ch ch).resumeNext = true →
      Completes (.channelDoorbell fn ch) s (fun t => t.rd .CH_STATE ch = 2 ∧
        t.hostQ = s.hostQ ++ [chReq s ch .read (s.ch ch).resume 8 [] (.dmaReread ch (s.ch ch).resume) 0])) ∧
    (s.rd .CH_STATE ch = 1 → (s.ch ch).resumeNext = false → (s.ch ch).resume = 0 →
      exec (.channelDoorbell fn ch) s = .next (s.wr .CH_DB_PENDING 0 ch)) ∧
    (s.rd .CH_STATE ch = 2 → (s.ch ch).descs = [] → (s.ch ch).fetching = true →
      Completes (.channelDoorbell fn ch) s (fun t => t.rd .CH_DB_PENDING ch = 1 ∧ (t.ch ch).dbSinceFetch = true ∧
        (t.ch ch).ahead = [] ∧ t.rd .CH_STATE ch = 2)) ∧
    (chStop s ch = 0 → (s.rd .CH_STATE ch = 3 ∨ (s.rd .CH_STATE ch = 4 ∧ s.rd .CH_DRAINING ch = 0)) →
      Completes (.channelDoorbell fn ch) s (fun t => t.rd .CH_STATE ch = 2 ∧
        t.hostQ = s.hostQ ++ [chReq s ch .read (s.ch ch).curAddr 64 [] (.dmaFetch ch (s.ch ch).curAddr) 0])) ∧
    ((s.rd .CH_STATE ch = 4 ∧ s.rd .CH_DRAINING ch ≠ 0 ∨ s.rd .CH_STATE ch = 5) →
      exec (.channelDoorbell fn ch) s = .next (s.wr .CH_DB_IGNORED 1 ch))) ∧
  (∀ (fn : Fn) (ch : Chan) (s : State), chanWrites s fn ch = true → s.on .CH_EN ch = false →
    exec (.channelDoorbell fn ch) s = .next (s.wr .CH_DB_IGNORED 1 ch)) ∧
  (∀ (fn : Fn) (ch : Chan) (s : State), chanWrites s fn ch = true → s.on .CH_EN ch = true → s.tnState (chTn s ch) = 3 →
    s.rd .CH_STATE ch ≠ 5 → Completes (.channelDoorbell fn ch) s (fun t => t.rd .CH_DB_PENDING ch = 1 ∧
      t.rd .CH_STATE ch = s.rd .CH_STATE ch ∧ t.hostQ = s.hostQ ∧ ch.val ∈ (t.ten (chTn s ch)).doorbells)) ∧
  (∀ (fn : Fn) (ch : Chan) (s : State), chanWrites s fn ch = true → s.on .CH_EN ch = false →
    (s.rd .CH_STATE ch = 0 → Completes (.channelEnable fn ch) s (fun t => t.rd .CH_EN ch = 1 ∧ t.rd .CH_STATE ch = 1 ∧
      t.rd .CH_CODE ch = 0 ∧ (t.ch ch).resumeNext = false ∧
      (t.ch ch).resume = s.rd .CH_HEAD_LO ch * 64 + s.rd .CH_HEAD_HI ch * 2 ^ 32)) ∧
    (s.rd .CH_STATE ch = 5 → Completes (.channelEnable fn ch) s (fun t => t.rd .CH_EN ch = 1 ∧ t.rd .CH_STATE ch = 5 ∧
      (t.ch ch).enAgain = true))) ∧
  (∀ (fn : Fn) (ch : Chan) (s : State), chanWrites s fn ch = true → s.on .CH_EN ch = true →
    (s.rd .CH_STATE ch = 1 → Completes (.channelDisable fn ch) s (fun t => t.rd .CH_EN ch = 0 ∧ t.rd .CH_STATE ch = 0)) ∧
    ((s.rd .CH_STATE ch = 2 ∨ s.rd .CH_STATE ch = 3 ∨ s.rd .CH_STATE ch = 4) →
      Completes (.channelDisable fn ch) s (fun t => t.rd .CH_EN ch = 0 ∧ (t.ch ch).descs = [] ∧
        t.rd .CH_STATE ch = 5 * t.rd .CH_DRAINING ch ∧ (chBusy s ch = true → t.rd .CH_DRAINING ch = 1) ∧
        (∀ r ∈ t.hostQ, r.src.chan = some ch.val → r.src = .dmaWriteBack ch))))

/-- Retry, drain and completion of a channel's descriptors (R252, R262, R269, R270): a retried fetch or descriptor is
counted and starts again; the last outstanding request of a halted or stopping channel ends its draining; a
descriptor completes with a write-back of 16 bytes at its STATUS that carries DONE, the sequence number and the (era,
stamp) of its completion, behind what waits. -/
def Obligations.ChannelProgress : Prop :=
  (∀ (ch : Chan) (s : State), mayRead s ch = true → (s.ch ch).fetchFailed = 1 →
    Completes (.channelRetry ch) s (fun t => t.rd .CH_RETRY_CNT ch = (s.rd .CH_RETRY_CNT ch + 1) % 2 ^ 64 ∧
      t.rd .CT_TN_RETRIES (chTn s ch) = (s.rd .CT_TN_RETRIES (chTn s ch) + 1) % 2 ^ 64 ∧
      t.hostQ = s.hostQ ++ [chReq s ch .read (s.ch ch).curAddr 64 [] (.dmaFetch ch (s.ch ch).curAddr) 0])) ∧
  (∀ (ch : Chan) (d : Desc) (s : State), mayRead s ch = true → (s.ch ch).fetchFailed = 0 →
    (s.ch ch).descs.find? (fun d => d.failed != 0) = some d → descBusy s ch d.id = false →
    Completes (.channelRetry ch) s (fun t => t.rd .CH_RETRY_CNT ch = (s.rd .CH_RETRY_CNT ch + 1) % 2 ^ 64 ∧
      t.rd .CT_TN_RETRIES (chTn s ch) = (s.rd .CT_TN_RETRIES (chTn s ch) + 1) % 2 ^ 64)) ∧
  (∀ (ch : Chan) (s : State), chLeft s ch = false →
    (s.rd .CH_STATE ch = 4 → exec (.channelDrained ch) s = .next (s.wr .CH_DRAINING 0 ch)) ∧
    (s.rd .CH_STATE ch = 5 → Completes (.channelDrained ch) s (fun t => t.rd .CH_DRAINING ch = 0 ∧
      t.rd .CH_STATE ch = if (s.ch ch).enAgain then 1 else 0))) ∧
  (∀ (c era stamp : Nat) (d : Desc) (s : State), s.rd .TN_GENERATION (chTn s c) < 16 →
    let t := completeDesc c era stamp d s
    t.rd .CH_DONE_CNT c = (s.rd .CH_DONE_CNT c + 1) % 2 ^ 64 ∧ t.rd .CH_BYTE_CNT c = (s.rd .CH_BYTE_CNT c + d.len) % 2 ^ 64 ∧
    (t.ch c).descs = (s.ch c).descs.drop 1 ∧
    ∃ x l, t.hostQ = s.hostQ ++ x :: l ∧ x.kind = .write ∧ x.addr = (d.addr + 0x20) % 2 ^ 64 ∧ x.len = 16 ∧
      x.data.length = 16 ∧ (num x.data 0 4).testBit 0 = true ∧ num x.data 2 2 = (s.rd .CH_DONE_CNT c + 1) % 65536 ∧
      num x.data 4 2 = era % 2 ^ 16 ∧ num x.data 8 8 = stamp % 2 ^ 64)

/-- Training of a Weaseif link's lanes (R170 to R172, Table WP-6): from DETECT to SLOW with a stable partner clock;
the key side's choice goes out in TS3, and without a choice, or with a conflict of roles, the attempt fails; SWITCH,
FAST and ACTIVE follow; an attempt that takes too long fails and training restarts. -/
def Obligations.LaneTraining : Prop :=
  (∀ (wl : Wl) (s : State), s.rd .WP_STATE wl = 1 → phyOn s wl = true →
    Completes (.partnerClockStable wl) s (fun t => t.rd .WP_STATE wl = 2 ∧ t.rd .WP_CLK_LOCK wl = 1 ∧
      t.rd .WP_CK_LOCK wl = 1 ∧ t.rd .WP_CK_DETECT wl = 1 ∧ (t.wp wl).clockSeen = true)) ∧
  (∀ (wl : Wl) (blocks : List (Fin 4 × Bytes)) (x : Ts2) (s : State), ts2Of blocks = some x → phyOn s wl = true →
    s.rd .WP_STATE wl = 2 →
    (roleConflict s wl x = false → claimsKey s wl x = true →
      (∀ r set, choice (sendTs2 wl (keepTs2 wl x s)) wl x 15 = some (r, set) →
        Completes (.ts2Exchanged wl blocks) s (fun t => (t.wp wl).chosenRate = r ∧ (t.wp wl).chosenSet = set ∧
          (t.wp wl).ts2 = some x ∧ t.rd .WP_STATE wl = 2 ∧ ∃ bs, t.out.getLast? = some (.train wl bs) ∧
            ∀ b ∈ bs, num b.2 1 1 = 3 ∧ num b.2 4 1 = r ∧ num b.2 5 1 = set)) ∧
      (choice (sendTs2 wl (keepTs2 wl x s)) wl x 15 = none →
        Completes (.ts2Exchanged wl blocks) s (fun t => t.rd .WP_TRAIN_FAIL wl = 1 ∧
          t.rd .WP_FAIL_CNT wl = (s.rd .WP_FAIL_CNT wl + 1) % 2 ^ 64))) ∧
    (roleConflict s wl x = true → Completes (.ts2Exchanged wl blocks) s (fun t => t.rd .WP_ROLE_CONFLICT wl = 1 ∧
      t.rd .WP_FAIL_CNT wl = (s.rd .WP_FAIL_CNT wl + 1) % 2 ^ 64))) ∧
  (∀ (wl : Wl) (blocks : List (Fin 4 × Bytes)) (s : State), ts2Of blocks = none →
    exec (.ts2Exchanged wl blocks) s = .next s) ∧
  (∀ (wl : Wl) (rate : Fin 4) (set : Fin 16) (s : State), s.rd .WP_STATE wl = 2 → (s.wp wl).ts2.isSome = true →
    ts3Agrees s wl rate set = true → Completes (.ts3Echoed wl rate set) s (fun t => t.rd .WP_STATE wl = 3 ∧
      (t.wp wl).chosenRate = rate ∧ (t.wp wl).chosenSet = set)) ∧
  (∀ (wl : Wl) (rate : Fin 4) (set : Fin 16) (s : State), ts3Agrees s wl rate set = false →
    exec (.ts3Echoed wl rate set) s = .next s) ∧
  (∀ (wl : Wl) (s : State), s.rd .WP_STATE wl = 3 → (s.wp wl).chosenRate < 4 →
    Completes (.switchDone wl) s (fun t => t.rd .WP_STATE wl = 4 ∧ t.rd .WP_CUR_RATE wl = (s.wp wl).chosenRate ∧
      ∃ bs, t.out.getLast? = some (.train wl bs) ∧ ∀ b ∈ bs, num b.2 1 1 = 1)) ∧
  (∀ (wl : Wl) (s : State), s.rd .WP_STATE wl = 4 → (s.wp wl).chosenRate < 4 →
    Completes (.fastConfirmed wl) s (fun t => t.rd .WP_STATE wl = 5 ∧ t.rd .WP_CUR_RATE wl = (s.wp wl).chosenRate ∧
      (t.wp wl).txSet = (s.wp wl).chosenSet ∧ (t.wp wl).rxSet = (s.wp wl).chosenSet ∧
      t.rd .WP_TRAIN_CNT wl = (s.rd .WP_TRAIN_CNT wl + 1) % 2 ^ 64 ∧ (s.rd .WL_LSTATE wl = 0 → t.rd .WL_LSTATE wl = 1) ∧
      (s.rd .WL_LSTATE wl = 4 → t.rd .WL_LSTATE wl = 1 ∧ (t.wl wl).resume = true))) ∧
  (∀ (wl : Wl) (s : State), (s.rd .WP_STATE wl = 2 ∨ s.rd .WP_STATE wl = 3 ∨ s.rd .WP_STATE wl = 4 ∨ s.rd .WP_STATE wl = 6 ∨
      (s.rd .WP_STATE wl = 1 ∧ (s.wp wl).clockSeen = true)) →
    Completes (.trainAttemptTimeout wl) s (fun t => t.rd .WP_FAIL_CNT wl = (s.rd .WP_FAIL_CNT wl + 1) % 2 ^ 64 ∧
      t.rd .WP_TRAIN_FAIL wl = 1 ∧ t.rd .WP_STATE wl = if phyCan s wl then 1 else 0)) ∧
  (∀ (wl : Wl) (s : State), s.rd .WP_STATE wl = 5 →
    Completes (.partnerClockLost wl) s (fun t => t.rd .WP_STATE wl = 6 ∧ t.rd .WP_CLK_LOST wl = 1 ∧
      t.rd .WP_CLKLOST_CNT wl = (s.rd .WP_CLKLOST_CNT wl + 1) % 2 ^ 64))

/-- Retrain and control of the lanes (R170, R172, R178): a retrain stops grains and, confirmed at the current rate,
resumes them; DISABLE idles the lanes and lets them leave; TRAIN restarts in DETECT with the full choice of rates;
LOOPBACK is entered from DETECT, held in DISABLED and refused elsewhere. -/
def Obligations.LaneControl : Prop :=
  (∀ (wl : Wl) (c : Instr) (s : State), (c = .phyRetrain wl ∨ c = .partnerRetrain wl) → s.rd .WP_STATE wl = 5 →
    s.rd .WL_LSTATE wl = 2 →
    Completes c s (fun t => t.rd .WP_STATE wl = 6 ∧ t.rd .WL_LSTATE wl = 3 ∧
      t.rd .WL_RETRAIN_CNT wl = (s.rd .WL_RETRAIN_CNT wl + 1) % 2 ^ 64 ∧ (t.wl wl).rtHeld = (s.wl wl).replay.length ∧
      ∃ bs, t.out.getLast? = some (.train wl bs) ∧ ∀ b ∈ bs, num b.2 1 1 = 1 ∧ num b.2 6 1 = 1)) ∧
  (∀ (wl : Wl) (s : State), s.rd .WP_STATE wl ≠ 5 → exec (.partnerRetrain wl) s = .next s) ∧
  (∀ (wl : Wl) (rate : Fin 4) (set : Fin 16) (s : State), s.rd .WP_STATE wl = 6 → phyOn s wl = true →
    retrainChoice s wl rate set = some (rate.val, set.val) →
    (rate.val = s.rd .WP_CUR_RATE wl → s.rd .WL_LSTATE wl = 3 →
      Completes (.retrainDone wl rate set) s (fun t => t.rd .WP_STATE wl = 5 ∧ (t.wp wl).txSet = set ∧
        (Calm s wl 2 → t.rd .WL_LSTATE wl = 2))) ∧
    (rate.val ≠ s.rd .WP_CUR_RATE wl →
      Completes (.retrainDone wl rate set) s (fun t => t.rd .WP_STATE wl = 3 ∧ (t.wp wl).chosenRate = rate ∧
        (t.wp wl).chosenSet = set))) ∧
  (∀ (fn : Fn) (wl : Wl) (s : State), wpWrites s fn wl = true →
    Completes (.wlaneDisableWrite fn wl true) s (fun t => t.rd .WP_DISABLE wl = 1 ∧ t.rd .WP_STATE wl = 0) ∧
    (s.rd .WP_STATE wl = 0 → phyCan (s.wr .WP_DISABLE 0 wl) wl = true → s.rd .WP_LOOPBACK wl = 0 →
      Completes (.wlaneDisableWrite fn wl false) s (fun t => t.rd .WP_DISABLE wl = 0 ∧ t.rd .WP_STATE wl = 1)) ∧
    (s.rd .WP_STATE wl ≠ 0 → s.rd .WP_STATE wl ≠ 7 →
      Completes (.wlaneTrainWrite fn wl) s (fun t => t.rd .WP_STATE wl = (if phyCan s wl then 1 else 0) ∧
        (t.wp wl).rateCap = 3 ∧ t.rd .WP_DOWNSHIFT wl = 0))) ∧
  (∀ (fn : Fn) (wl : Wl) (v : Fin 4) (s : State), mgrWrites s fn = true →
    ((v.val = 1 ∨ v.val = 2) → s.rd .WP_STATE wl = 1 → phyOn s wl = true →
      Completes (.loopbackWrite fn wl v) s (fun t => t.rd .WP_STATE wl = 7 ∧ t.rd .WP_LOOPBACK wl = v)) ∧
    ((v.val = 1 ∨ v.val = 2) → s.rd .WP_STATE wl = 0 → exec (.loopbackWrite fn wl v) s = .next (s.wr .WP_LOOPBACK v wl)) ∧
    ((v.val = 1 ∨ v.val = 2) → s.rd .WP_STATE wl ≠ 0 → s.rd .WP_STATE wl ≠ 1 → phyOn s wl = true →
      exec (.loopbackWrite fn wl v) s = .next (s.wr .WP_LB_REFUSED 1 wl)) ∧
    (v.val ≠ 1 → v.val ≠ 2 → s.rd .WP_STATE wl = 7 → phyOn s wl = true → phyCan s wl = true →
      Completes (.loopbackWrite fn wl v) s (fun t => t.rd .WP_STATE wl = 1 ∧ t.rd .WP_LOOPBACK wl = v)))

/-- Test patterns and error injection (R175 to R177): a lane in STANDBY with a generator or checker goes to TEST, and
back with neither; an ACTIVE lane waits; sync is gained and lost with its counts; CNT_CLR zeroes the counters; a
single and a burst injection flip their bits, a live one waits for the next grain, and INJ_STOP ends a rate
injection. -/
def Obligations.LaneTests : Prop :=
  (∀ (fn : Fn) (wl : Wl) (lane gen chk : Fin 4) (s : State), wpWrites s fn wl = true →
    ((gen.val ≠ 0 ∨ chk.val ≠ 0) → s.rd .WP_LSTATE wl lane = 3 → Completes (.lanePrbsWrite fn wl lane gen chk) s (fun t =>
      t.rd .WP_LSTATE wl lane = 5 ∧ t.rd .WP_GEN wl lane = gen ∧ t.rd .WP_CHK wl lane = chk ∧
      (gen.val ≠ 0 → lanesLive s wl = true → s.rd .WP_STATE wl ≠ 7 → Out.lane wl lane (pattern gen) ∈ t.out))) ∧
    ((gen.val ≠ 0 ∨ chk.val ≠ 0) → s.rd .WP_LSTATE wl lane = 2 → Completes (.lanePrbsWrite fn wl lane gen chk) s (fun t =>
      t.rd .WP_LSTATE wl lane = 2 ∧ t.rd .WP_PRBS_PEND wl lane = 1 ∧ t.out = s.out)) ∧
    (gen.val = 0 → chk.val = 0 → s.rd .WP_LSTATE wl lane = 5 → (s.wp wl).prevL.getD lane 0 = 3 →
      Completes (.lanePrbsWrite fn wl lane gen chk) s (fun t => t.rd .WP_LSTATE wl lane = 3 ∧
        t.rd .WP_PRBS_SYNC wl lane = 0))) ∧
  (∀ (wl : Wl) (lane : Fin 4) (s : State), s.rd .WP_LSTATE wl lane = 5 → s.on .WP_CHK wl lane = true →
    Completes (.prbsSyncGain wl lane) s (fun t => t.rd .WP_PRBS_SYNC wl lane = 1)) ∧
  (∀ (wl : Wl) (lane : Fin 4) (bits errors : Nat) (s : State), s.on .WP_PRBS_SYNC wl lane = true →
    Completes (.prbsSyncLoss wl lane bits errors) s (fun t => t.rd .WP_PRBS_SYNC wl lane = 0 ∧
      t.rd .WP_LN_BITS_CNT wl lane = (s.rd .WP_LN_BITS_CNT wl lane + bits) % 2 ^ 64 ∧
      t.rd .WP_LN_ERR_CNT wl lane = (s.rd .WP_LN_ERR_CNT wl lane + errors) % 2 ^ 64)) ∧
  (∀ (fn : Fn) (wl : Wl) (lane : Fin 4) (s : State), wpWrites s fn wl = true →
    Completes (.cntClr fn wl lane) s (fun t => t.rd .WP_LN_ERR_CNT wl lane = 0 ∧ t.rd .WP_LN_BITS_CNT wl lane = 0)) ∧
  (∀ (fn : Fn) (wl : Wl) (lane : Fin 4) (s : State), wpWrites s fn wl = true → (s.wp wl).injPend.getD lane 0 = 0 →
    (s.rd .WP_INJ_LIVE wl lane = 0 → s.rd .WP_LSTATE wl lane = 5 → s.on .WP_GEN wl lane = true →
      (s.rd .WP_INJ_MODE wl lane = 1 → Completes (.injGo fn wl lane) s (fun t =>
        t.rd .WP_LN_INJ_CNT wl lane = (s.rd .WP_LN_INJ_CNT wl lane + 1) % 2 ^ 64)) ∧
      (s.rd .WP_INJ_MODE wl lane = 2 → Completes (.injGo fn wl lane) s (fun t =>
        t.rd .WP_LN_INJ_CNT wl lane = (s.rd .WP_LN_INJ_CNT wl lane + max 1 (s.rd .WP_BURST_LEN wl lane)) % 2 ^ 64))) ∧
    (s.rd .WP_INJ_LIVE wl lane ≠ 0 → s.rd .WP_STATE wl = 5 → (s.wp wl).txSet.testBit lane = true → (s.wp wl).injPend.length = 4 →
      s.rd .WP_INJ_MODE wl lane = 2 → Completes (.injGo fn wl lane) s (fun t => t.regs = s.regs ∧
        (t.wp wl).injPend.getD lane 0 = max 1 (s.rd .WP_BURST_LEN wl lane))) ∧
    (injMay s wl lane = true → (s.wp wl).injAcc.length = 4 → s.rd .WP_INJ_MODE wl lane = 3 →
      Completes (.injGo fn wl lane) s (fun t => t.regs = s.regs ∧ (t.wp wl).injAcc.getD lane 0 ≠ 0))) ∧
  (∀ (fn : Fn) (wl : Wl) (lane : Fin 4) (s : State), wpWrites s fn wl = true → (s.wp wl).injAcc.getD lane 0 ≠ 0 →
    Completes (.injStop fn wl lane) s (fun t => (t.wp wl).injAcc.getD lane 0 = 0 ∧
      (s.rd .WP_INJ_LIVE wl lane ≠ 0 → t.regs = s.regs)))

/-- Alignment blocks and background training (R167, R168, R174, R211): a block goes out with its set and COUNT, on
the agreed set once the transmitter may switch; blocks in place leave the link as it is, a third bad block on a lane
retrains it, and blocks that show the agreed set on every lane switch the receiver; a lane that passes waits, one
that fails is FAILED. -/
def Obligations.AlignmentBlocks : Prop :=
  (∀ (wl : Wl) (s : State), s.rd .WP_STATE wl = 5 → (s.wl wl).txHalf = none →
    let w := (txLanes s wl).length
    let count := (s.wp wl).txAlign
    (maySwitchTx s wl = false → Completes (.alignmentBlockSend wl) s (fun t =>
      t.out = s.out ++ [.align wl ((alignLanes s wl (s.wp wl).txSet).map (fun k =>
        (k, alignBytes w k (s.wp wl).txSet count)))] ∧
      (t.wp wl).txAlign = (count + 1) % 65536 ∧ (t.wp wl).txSet = (s.wp wl).txSet ∧ (t.wp wl).txSlot = 0)) ∧
    (maySwitchTx s wl = true → Completes (.alignmentBlockSend wl) s (fun t =>
      (∃ l, t.out = s.out ++ Out.align wl ((alignLanes s wl ((s.wp wl).txSet ||| (s.wl wl).rsSet)).map (fun k =>
        (k, alignBytes w k (s.wl wl).rsSet count))) :: l) ∧ (t.wp wl).txSet = (s.wl wl).rsSet))) ∧
  (∀ (wl : Wl) (bs : List (Fin 4 × Bytes)) (s : State), s.rd .WP_STATE wl = 5 →
    let ls := (List.range 4).filter (fun l => (s.wp wl).rxSet.testBit l)
    ((∀ l ∈ ls, (inPlace s wl l bs).isSome = true) → (s.wl wl).rsStage ≠ 2 → Completes (.alignmentBlockReceive wl bs) s (fun t =>
      t.rd .WP_STATE wl = 5 ∧ t.rd .WP_ALIGN_CNT wl = s.rd .WP_ALIGN_CNT wl % 2 ^ 64 ∧
      (t.wp wl).badRun = [0, 0, 0, 0] ∧ t.out = s.out)) ∧
    (∀ l ∈ ls, inPlace s wl l bs = none → (s.wp wl).badRun.getD l 0 = 2 → (s.wl wl).rsStage ≠ 2 →
      Completes (.alignmentBlockReceive wl bs) s (fun t => t.rd .WP_STATE wl = 6 ∧ t.rd .WP_ALIGN_ERR wl = 1)) ∧
    ((∀ l ∈ ls, ∃ b, inPlace s wl l bs = some b ∧ num b 3 1 % 16 = (s.wl wl).rsSet) → (s.wl wl).rsStage = 2 →
      (s.wl wl).rsRxSwitched = false → (s.wl wl).rsSet < 16 → Completes (.alignmentBlockReceive wl bs) s (fun t =>
        (t.wp wl).rxSet = (s.wl wl).rsSet ∧ t.rd .WL_ACTIVE_SET wl = (s.wl wl).rsSet ∧ t.rd .WL_RESHAPE_DONE wl = 1 ∧
        t.rd .WL_RESHAPE_CNT wl = (s.rd .WL_RESHAPE_CNT wl + 1) % 2 ^ 64))) ∧
  (∀ (wl : Wl) (lane : Fin 4) (s : State), s.rd .WP_LSTATE wl lane = 4 →
    (∀ errors skew, errors ≤ s.rd .WP_BG_ERR_MAX wl → skew ≤ 32 →
      Completes (.backgroundTrainPass wl ⟨lane, errors, skew⟩) s (fun t => (t.wp wl).bgPassed.testBit lane = true ∧
        t.rd .WP_LSTATE wl lane = 4 ∧ (agreed s wl = true → (∀ k < 4, k ≠ lane.val → s.rd .WP_LSTATE wl k ≠ 4) →
          (t.wl wl).rsReadySent = true))) ∧
    (∀ errors skew, (s.rd .WP_BG_ERR_MAX wl < errors ∨ 32 < skew) →
      exec (.backgroundTrainPass wl ⟨lane, errors, skew⟩) s = .next s) ∧
    Completes (.backgroundTrainFail wl lane) s (fun t => t.rd .WP_LSTATE wl lane = 6 ∧ t.rd .WP_BG_FAIL wl = 1 ∧
      (agreed s wl = true → t.rd .WL_RESHAPE_FAIL wl = 1 ∧ t.rd .WL_RESHAPE_BUSY wl = 0)))

/-- Grains received (R187, R189, R192, R198, R207): a bad CRC is counted and nothing of the grain used; the next in
sequence is accepted, a repeated one and one out of sequence are counted and not accepted; a DATA grain that is one
whole packet hands it on; a payload that is not 64 bytes cannot occur on the wire. What starts and stops a link, in
short (R193, R199, R200, R202, R203, R207): an INIT that is not valid fails the exchange, and one that confirms a
fresh exchange brings the link up; a time-out fails the exchange; GRACE's end and LINK_RESET flush the link; HALT is
noted; REPLAY_LIMIT is never 0. -/
def Obligations.GrainsReceived : Prop :=
  (∀ (wl : Wl) (g : Grain) (s : State), g.payload.length ≠ 64 →
    exec (.grainReceived wl g) s = .fault (.illFormed "grain payload")) ∧
  (∀ (wl : Wl) (g : Grain) (s : State), g.payload.length = 64 → grainsPass s wl = true → s.rd .WL_LSTATE wl = 2 →
    (crcOk g = false → g.inj = false → Completes (.grainReceived wl g) s (fun t =>
      t.rd .WL_CRC_CNT wl = (s.rd .WL_CRC_CNT wl + 1) % 2 ^ 64 ∧ t.rd .WL_NEXT_RX wl = s.rd .WL_NEXT_RX wl)) ∧
    (crcOk g = true → (g.typ = 1 ∨ g.typ = 2) →
      (g.seq = s.rd .WL_NEXT_RX wl → g.seq < 4096 → Completes (.grainReceived wl g) s (fun t =>
        t.rd .WL_NEXT_RX wl = (g.seq + 1) % 4096 ∧ t.rd .WL_RX_CNT wl = (s.rd .WL_RX_CNT wl + 1) % 2 ^ 64)) ∧
      (∀ k, 1 ≤ k → k ≤ 2048 → s.rd .WL_NEXT_RX wl < 4096 → g.seq = (s.rd .WL_NEXT_RX wl + 4096 - k) % 4096 →
        Completes (.grainReceived wl g) s (fun t => t.rd .WL_NEXT_RX wl = s.rd .WL_NEXT_RX wl ∧
          t.rd .WL_DUP_CNT wl = (s.rd .WL_DUP_CNT wl + 1) % 2 ^ 64 ∧ t.rd .WL_RX_CNT wl = s.rd .WL_RX_CNT wl)) ∧
      (∀ k, 1 ≤ k → k < 2048 → s.rd .WL_NEXT_RX wl < 4096 → g.seq = (s.rd .WL_NEXT_RX wl + k) % 4096 →
        Completes (.grainReceived wl g) s (fun t => t.rd .WL_NEXT_RX wl = s.rd .WL_NEXT_RX wl ∧
          t.rd .WL_SEQ_CNT wl = (s.rd .WL_SEQ_CNT wl + 1) % 2 ^ 64 ∧ t.rd .WL_RX_CNT wl = s.rd .WL_RX_CNT wl))) ∧
    (crcOk g = true → g.typ = 1 → g.seq = s.rd .WL_NEXT_RX wl → g.seq < 4096 → g.ackV = false → g.crV = false →
      g.sop = 1 → g.eop = 1 → (s.wl wl).rxAsm = none → creditHeld s wl (g.payload.take 32) = true →
      rxNeed (g.payload.take 32) = 1 →
      Completes (.grainReceived wl g) s (fun t => (t.wl wl).rxAsm = none ∧
        (t.wl wl).rxQ = (s.wl wl).rxQ ++ [⟨phaseNow s, pktOf (g.payload.take 32), false⟩]))) ∧
  (∀ (wl : Wl) (b : InitBody) (s : State), grainsPass s wl = true → s.rd .WL_LSTATE wl = 1 →
    (initOk b = false → Completes (.initReceived wl b) s (fun t => t.rd .WL_INIT_FAIL wl = 1)) ∧
    (initOk b = true → b.initSeen = true → (s.wl wl).resume = false → s.rd .WL_GRACE_RUN wl = 0 →
      Completes (.initReceived wl b) s (fun t => t.rd .WL_LSTATE wl = 2 ∧ (t.wl wl).peerLinkId = b.linkId))) ∧
  (∀ (wl : Wl) (s : State), s.tlOn (wlTiller wl) = true →
    (s.rd .WL_LSTATE wl = 1 → Completes (.initTimeout wl) s (fun t => t.rd .WL_INIT_FAIL wl = 1)) ∧
    (s.on .WL_GRACE_RUN wl = true → Completes (.graceExpiry wl) s (fun t => t.rd .WL_FLUSHED wl = 1))) ∧
  (∀ (fn : Fn) (wl : Wl) (s : State), wlWrites s fn wl = true →
    (s.rd .WL_LSTATE wl ≠ 6 → Completes (.wlLinkResetWrite fn wl) s (fun t =>
      t.rd .WL_LSTATE wl = 6 ∨ t.rd .WL_LSTATE wl = 0)) ∧
    (s.rd .WL_LOCK wl = 0 → Completes (.replayLimitZeroWrite fn wl) s (fun t =>
      t.rd .WL_REPLAY_LIMIT wl = s.rd .WL_REPLAY_LIMIT wl ∧ t.rd .WL_CFG_REFUSED wl = 1))) ∧
  (∀ (wl : Wl) (s : State), grainsPass s wl = true → (s.rd .WL_LSTATE wl = 1 ∨ s.rd .WL_LSTATE wl = 2) →
    Completes (.haltReceived wl) s (fun t => t.rd .WL_HALT_RX wl = 1))

/-- The sender (R183, R189, R191, R195, R222): an ACK goes out in a grain of its own; a packet that order, credit and
arbitration let go takes its credit, a TAG where it needs one, and the next sequence numbers; a replay sends every
unacknowledged grain again in order, and after REPLAY_LIMIT of them the link asks for a retrain. -/
def Obligations.GrainsSent : Prop :=
  (∀ (wl : Wl) (s : State), grainsPass s wl = true → s.rd .WL_LSTATE wl = 2 → 0 < (s.wl wl).ackPending →
    (s.wl wl).txHalf = none →
    Completes (.ackSend wl) s (fun t => (t.wl wl).ackPending = 0 ∧ t.rd .WL_NEXT_TX wl = s.rd .WL_NEXT_TX wl ∧
      ∃ g ls, t.out = s.out ++ [.grain wl g ls] ∧ g.typ = 0 ∧ g.ackV = (s.wl wl).accAny ∧
        ((s.wl wl).accAny = true → g.ack = (s.rd .WL_NEXT_RX wl + 4095) % 4096))) ∧
  (∀ (wl : Wl) (pos tag : Nat) (p : WPkt) (d : Tbl Nat) (s : State), s.rd .WL_LSTATE wl = 2 → s.tlOn (wlTiller wl) = true →
    wAllowed s wl pos = some (p, d) → cutRead s wl p = (p, none) → (s.wl wl).txHalf = none → s.rd .WL_NEXT_TX wl < 4096 →
    (s.wl wl).replay.length + (pktCost p.pkt + 2) / 2 ≤ 512 →
    (p.tagged = true → tag < 4096 ∧ ∀ t ∈ (s.wl wl).wlTags, t.tag ≠ tag) →
    Completes (.linkPacketSend wl pos tag) s (fun t =>
      t.rd .CT_WL_TX_PKT wl = (s.rd .CT_WL_TX_PKT wl + 1) % 2 ^ 64 ∧
      (∃ m, ((m = (pktCost p.pkt + 1) / 2 ∧ (t.wl wl).txHalf = none) ∨
          (m + 1 = (pktCost p.pkt + 1) / 2 ∧ pktCost p.pkt % 2 = 1 ∧ (t.wl wl).txHalf.isSome = true)) ∧
        t.rd .WL_NEXT_TX wl = (s.rd .WL_NEXT_TX wl + m) % 4096 ∧
        (t.wl wl).replay.length = (s.wl wl).replay.length + m) ∧
      ((∀ c d x, p.src ≠ .dmaRead c d x) → (t.wl wl).linkQ = (s.wl wl).linkQ.eraseIdx pos ∧
        (p.tagged = true → ∃ e ∈ (t.wl wl).wlTags, e.tag = tag ∧ e.quarantined = false ∧ e.src = p.src)))) ∧
  (∀ (wl : Wl) (pos tag : Nat) (s : State), s.rd .WL_LSTATE wl = 2 → s.tlOn (wlTiller wl) = true →
    wAllowed s wl pos = none → ((s.wl wl).txHalf = none ∨ wHeads s wl ≠ []) →
    exec (.linkPacketSend wl pos tag) s = .next s) ∧
  (∀ (wl : Wl) (s : State), s.rd .WL_LSTATE wl = 2 → s.tlOn (wlTiller wl) = true → (s.wl wl).replay ≠ [] →
    (s.rd .WL_REPLAY_COUNT wl < s.rd .WL_REPLAY_LIMIT wl → s.rd .WL_REPLAY_LIMIT wl < 2 ^ Fld.WL_REPLAY_COUNT.width →
      Completes (.replayTimeout wl) s (fun t => t.rd .WL_REPLAY_COUNT wl = s.rd .WL_REPLAY_COUNT wl + 1 ∧
        t.rd .WL_REPLAY_CNT wl = (s.rd .WL_REPLAY_CNT wl + 1) % 2 ^ 64 ∧
        (Calm s wl 2 → ∃ u, t = replayAll wl u ∧ (u.wl wl).replay = (s.wl wl).replay))) ∧
    (s.rd .WL_REPLAY_LIMIT wl ≤ s.rd .WL_REPLAY_COUNT wl → (s.wl wl).replayRetrained = false → s.rd .WP_STATE wl = 5 →
      Completes (.replayTimeout wl) s (fun t => t.rd .WL_RETRAIN_REQ wl = 1 ∧ (Calm s wl 3 → t.rd .WP_STATE wl = 6))) ∧
    (s.rd .WL_REPLAY_LIMIT wl ≤ s.rd .WL_REPLAY_COUNT wl → (s.wl wl).replayRetrained = true →
      Completes (.replayTimeout wl) s (fun t => t.rd .WL_DOWN wl = 1 ∧
        t.rd .WL_DOWN_CNT wl = (s.rd .WL_DOWN_CNT wl + 1) % 2 ^ 64 ∧ t.rd .WP_STATE wl = if phyCan s wl then 1 else 0))) ∧
  (∀ (n : Nat) (s : State), ∃ gs : List (Grain × List (Nat × Bytes)),
    (replayAll n s).out = s.out ++ gs.map (fun g => Out.grain n g.1 g.2) ∧
    gs.map (fun g => (g.1.typ, g.1.seq, g.1.payload)) = (s.wl n).replay.map (fun g => (g.typ, g.seq, g.payload)) ∧
    (replayAll n s).regs = s.regs)

/-- Replayed grains (R196): a replay sends the unacknowledged grains in order, each with its TYPE, SOP, EOP, SEQ and
payload as first sent; ACK, ACK_V, the credit fields and HEALTH carry the current values, INJ is 0, and the CRC is
that of the grain as sent, so that no bit of it is flipped. -/
def Obligations.ReplayedGrains : Prop :=
  ∀ (n : Nat) (s : State), ∃ gs : List (Grain × List (Nat × Bytes)),
    (replayAll n s).out = s.out ++ gs.map (fun x => Out.grain n x.1 x.2) ∧ gs.length = (s.wl n).replay.length ∧
    ∀ (i : Nat) (g : Grain) (ls : List (Nat × Bytes)) (h : TxGrain), gs[i]? = some (g, ls) → (s.wl n).replay[i]? = some h →
      g.typ = h.typ ∧ g.sop = h.sop ∧ g.eop = h.eop ∧ g.seq = h.seq ∧ g.payload = h.payload ∧
      g.ackV = (s.wl n).accAny ∧ ((s.wl n).accAny = true → g.ack = (s.rd .WL_NEXT_RX n + 4095) % 4096) ∧ g.crV = true ∧
      g.crP = (s.wl n).freed.getD 0 0 ∧ g.crN = (s.wl n).freed.getD 1 0 ∧ g.crC = (s.wl n).freed.getD 2 0 ∧
      g.health = linkHealth s n ∧ g.inj = false ∧ crcOk g = true

/-- Starting and losing a link (R193, R198 to R203, R207): an INIT that is not valid fails the exchange; a valid one
is answered, and the partner's confirmation brings the link up, fresh, with IDENT first; an INIT on a link that is UP
takes it down; a time-out, GRACE's end, LINK_RESET and HALT do what Table WL-6 says. -/
def Obligations.LinkStarts : Prop :=
  (∀ (wl : Wl) (b : InitBody) (s : State), grainsPass s wl = true → s.rd .WL_LSTATE wl = 1 →
    (initOk b = false → Completes (.initReceived wl b) s (fun t => t.rd .WL_INIT_FAIL wl = 1)) ∧
    (initOk b = true → b.initSeen = false → (s.wl wl).initDone = false → Completes (.initReceived wl b) s (fun t =>
      t.rd .WL_LSTATE wl = 1 ∧ (t.wl wl).initSeen = true ∧
      (((s.wl wl).resume = false ∨ resumes s wl b = true) → (t.wl wl).linkId = (s.wl wl).linkId) ∧
      ∃ g ls, t.out = s.out ++ [.grain wl g ls] ∧ g.typ = 3 ∧ (g.inj = false → g.payload = initBytes (initBody t wl)))) ∧
    (initOk b = true → (b.initSeen = true ∨ (s.wl wl).initDone = true) → resumes s wl b = true →
      ackReach s wl ((b.nextRx + 4095) % 4096) ≤ (s.wl wl).replay.length → waiting s wl = [] → Calm s wl 2 →
      Completes (.initReceived wl b) s (fun t => t.rd .WL_LSTATE wl = 2 ∧ t.rd .WL_RESUMED wl = 1 ∧
        t.rd .WL_GRACE_RUN wl = 0 ∧ t.rd .WL_RETURN_CNT wl = (s.rd .WL_RETURN_CNT wl + 1) % 2 ^ 64)) ∧
    (initOk b = true → (b.initSeen = true ∨ (s.wl wl).initDone = true) → (s.wl wl).resume = false →
      s.rd .WL_GRACE_RUN wl = 0 →
      Completes (.initReceived wl b) s (fun t => t.rd .WL_LSTATE wl = 2 ∧ t.rd .WL_NEXT_TX wl = 0 ∧ t.rd .WL_NEXT_RX wl = 0 ∧
        t.rd .WL_OLDEST wl = 0 ∧ (t.wl wl).replay = [] ∧ (t.wl wl).wlTags = [] ∧ (t.wl wl).peerLinkId = b.linkId ∧
        (t.wl wl).credInit = [b.crP, b.crN, b.crC] ∧
        ∃ x, (t.wl wl).linkQ = [x] ∧ x.src = .ident ∧ x.pkt.typ = 8 ∧ x.pkt.payload.length = 32))) ∧
  (∀ (wl : Wl) (b : InitBody) (s : State), grainsPass s wl = true → s.rd .WL_LSTATE wl = 2 →
    Completes (.initReceived wl b) s (fun t => t.rd .WL_DOWN wl = 1 ∧
      t.rd .WL_DOWN_CNT wl = (s.rd .WL_DOWN_CNT wl + 1) % 2 ^ 64)) ∧
  (∀ (wl : Wl) (s : State), s.rd .WL_LSTATE wl = 1 → s.tlOn (wlTiller wl) = true →
    Completes (.initTimeout wl) s (fun t => t.rd .WL_INIT_FAIL wl = 1 ∧
      (Calm s wl 6 → t.rd .WL_LSTATE wl = if s.on .WL_GRACE_RUN wl then 4 else 0))) ∧
  (∀ (wl : Wl) (s : State), s.on .WL_GRACE_RUN wl = true → s.tlOn (wlTiller wl) = true →
    Completes (.graceExpiry wl) s (fun t => t.rd .WL_FLUSHED wl = 1 ∧
      t.rd .WL_FLUSHPKT_CNT wl = (s.rd .WL_FLUSHPKT_CNT wl + (((s.wl wl).linkQ.filter (fun p => flushCounts p.pkt)).length +
        ((s.wl wl).replay.map (·.counted)).sum + (((s.wl wl).txHalf.map (·.counted)).getD 0) +
        ((waiting s wl).filter (·.req.write)).length)) % 2 ^ 64 ∧
      (NoneWaits s wl → Calm s wl 18 → t.rd .WL_GRACE_RUN wl = 0 ∧ (s.rd .WL_LSTATE wl = 4 → t.rd .WL_LSTATE wl = 0) ∧
        (s.rd .WL_LSTATE wl = 1 → t.rd .WL_LSTATE wl = 1 ∧ (t.wl wl).resume = false)))) ∧
  (∀ (fn : Fn) (wl : Wl) (s : State), wlWrites s fn wl = true → s.rd .WL_LSTATE wl ≠ 6 →
    Completes (.wlLinkResetWrite fn wl) s (fun t =>
      (t.rd .WL_LSTATE wl = 6 ∨ (t.rd .WL_LSTATE wl = 0 ∧ (t.wl wl).replay = [] ∧ t.rd .WL_UNACKED wl = 0 ∧
        t.rd .WL_REPLAY_COUNT wl = 0)) ∧
      (NoneWaits s wl → Calm s wl 18 → t.rd .WL_LSTATE wl = 0))) ∧
  (∀ (wl : Wl) (s : State), grainsPass s wl = true → (s.rd .WL_LSTATE wl = 1 ∨ s.rd .WL_LSTATE wl = 2) →
    Completes (.haltReceived wl) s (fun t => t.rd .WL_HALT_RX wl = 1 ∧
      t.rd .WL_HALTRX_CNT wl = (s.rd .WL_HALTRX_CNT wl + 1) % 2 ^ 64 ∧
      (NoneWaits s wl → Calm s wl 19 → t.rd .WL_LSTATE wl = 5))) ∧
  (∀ (fn : Fn) (wl : Wl) (s : State), wlWrites s fn wl = true → s.rd .WL_LOCK wl = 0 →
    Completes (.replayLimitZeroWrite fn wl) s (fun t => t.rd .WL_CFG_REFUSED wl = 1 ∧
      t.rd .WL_REPLAY_LIMIT wl = s.rd .WL_REPLAY_LIMIT wl))

/-- Reshaping a link (R210 to R214): RESHAPE_GO sends LANE_REQ with the set; a request that can be met is agreed and
one that cannot is answered LANE_NAK; LANE_ACK starts the switch, LANE_NAK and the time-out end it with the old set,
and LANE_READY lets the transmitter switch. -/
def Obligations.Reshape : Prop :=
  (∀ (fn : Fn) (wl : Wl) (set : Fin 16) (s : State), wlWrites s fn wl = true →
    (s.rd .WL_LSTATE wl = 2 → s.rd .WL_RESHAPE_BUSY wl = 0 →
      (∀ l < 4, set.val.testBit l = true → laneUsable s wl l = true) →
      Completes (.reshapeGoWrite fn wl set) s (fun t => t.rd .WL_RESHAPE_BUSY wl = 1 ∧ t.rd .WL_RESHAPE_SET wl = set ∧
        (t.wl wl).rsRole = 1 ∧ (t.wl wl).rsStage = 1 ∧ (t.wl wl).rsId = (s.wl wl).rsNextId ∧ (t.wl wl).rsSet = set)) ∧
    (∀ l < 4, s.rd .WL_LSTATE wl = 2 → s.rd .WL_RESHAPE_BUSY wl = 0 → set.val.testBit l = true →
      laneUsable s wl l = false →
      Completes (.reshapeGoWrite fn wl set) s (fun t => t.rd .WL_RESHAPE_FAIL wl = 1 ∧ t.rd .WL_RESHAPE_BUSY wl = 0)) ∧
    (s.rd .WL_LSTATE wl ≠ 2 → exec (.reshapeGoWrite fn wl set) s = .next (s.wr .WL_RESHAPE_SET set wl))) ∧
  (∀ (wl : Wl) (id : Fin 256) (set : Fin 16) (s : State), grainsPass s wl = true → s.rd .WL_LSTATE wl = 2 →
    (s.wl wl).rsRole = 0 →
    (setOk s wl set = true → (s.wl wl).rtHeld = 0 → Completes (.laneReq wl id set) s (fun t =>
      t.rd .WL_RESHAPE_BUSY wl = 1 ∧ (t.wl wl).rsRole = 2 ∧ (t.wl wl).rsStage = 2 ∧ (t.wl wl).rsSet = set ∧
      (t.wl wl).rsId = id)) ∧
    ((setOk s wl set = false ∨ (s.wl wl).rtHeld ≠ 0) → Completes (.laneReq wl id set) s (fun t =>
      t.rd .WL_NAK_CNT wl = (s.rd .WL_NAK_CNT wl + 1) % 2 ^ 64 ∧ (t.wl wl).rsRole = 0))) ∧
  (∀ (wl : Wl) (id : Fin 256) (s : State), grainsPass s wl = true → s.rd .WL_LSTATE wl = 2 →
    ((s.wl wl).rsRole = 1 → (s.wl wl).rsId = id → (s.wl wl).rsStage = 1 → Completes (.laneAck wl id) s (fun t =>
      (t.wl wl).rsStage = 2 ∧ (t.wl wl).rsSet = (s.wl wl).rsSet ∧
      ∀ l ∈ added s wl (s.wl wl).rsSet, s.rd .WP_LSTATE wl (physOf s wl l) = 3 → t.rd .WP_LSTATE wl (physOf s wl l) = 4)) ∧
    (((s.wl wl).rsRole ≠ 1 ∨ (s.wl wl).rsId ≠ id ∨ (s.wl wl).rsStage ≠ 1) →
      ((s.wl wl).rsGone.contains id.val = true → Completes (.laneAck wl id) s (fun t =>
        t.rd .WL_NAK_CNT wl = (s.rd .WL_NAK_CNT wl + 1) % 2 ^ 64)) ∧
      ((s.wl wl).rsGone.contains id.val = false → exec (.laneAck wl id) s = .next s)) ∧
    (∀ reason, (s.wl wl).rsRole ≠ 0 → (s.wl wl).rsId = id → nakFits (s.wl wl) reason = true →
      Completes (.laneNak wl id reason) s (fun t =>
        t.rd .WL_NAK_CNT wl = (s.rd .WL_NAK_CNT wl + 1) % 2 ^ 64 ∧ t.rd .WL_RESHAPE_FAIL wl = 1 ∧
        t.rd .WL_RESHAPE_BUSY wl = 0 ∧ (t.wl wl).rsRole = 0)) ∧
    (∀ reason, ((s.wl wl).rsRole = 0 ∨ (s.wl wl).rsId ≠ id ∨ nakFits (s.wl wl) reason = false) →
      exec (.laneNak wl id reason) s = .next (s.inc .WL_NAK_CNT wl)) ∧
    ((s.wl wl).rsStage = 2 → (s.wl wl).rsId = id → Completes (.laneReady wl id) s (fun t =>
      (t.wl wl).rsReadyRcvd = true ∧ t.regs = s.regs))) ∧
  (∀ (wl : Wl) (s : State), (s.wl wl).rsRole = 1 → (s.wl wl).rsStage = 1 → (s.wl wl).rsTicks = 0 →
    (∀ m ∈ (s.wl wl).msgQ, m.head? ≠ some 1) →
    Completes (.reshapeTimeout wl) s (fun t => t.rd .WL_RESHAPE_FAIL wl = 1 ∧ t.rd .WL_RESHAPE_BUSY wl = 0 ∧
      (t.wl wl).rsRole = 0 ∧ (s.wl wl).rsId ∈ (t.wl wl).rsGone))

/-- The frames of the commands of the Keeper: the register fields, blocks and parts that each may move, beside which
a next state keeps every register field of every instance, every part, the queue and what was sent. -/
def Obligations.KeeperCommandFrames : Prop :=
  (∀ a, Frame (.nop a) replyFlds [] replyParts) ∧
  (∀ a, Frame (.deviceInfo a) replyFlds [] replyParts) ∧
  (∀ a b, Frame (.directoryRead a b) replyFlds [] replyParts) ∧
  (∀ a b, Frame (.cmdCancel a b) replyFlds [] replyParts) ∧
  (∀ a, Frame (.tenantQuery a) replyFlds [] replyParts) ∧
  (∀ a b, Frame (.wlinkInfo a b) replyFlds [] replyParts) ∧
  (∀ a, Frame (.logHarvest a) replyFlds [] replyParts) ∧
  (∀ a, Frame (.tenantFreeze a) replyFlds [] replyParts) ∧
  (∀ a b c, Frame (.cadenceAnchor a b c) replyFlds [] replyParts) ∧
  (∀ a b c d, Frame (.clockMeasure a b c d) replyFlds [] replyParts) ∧
  (∀ a b, Frame (.updateBegin a b) replyFlds [] replyParts) ∧
  (∀ a b c d, Frame (.updateChunk a b c d) replyFlds [] replyParts) ∧
  (∀ a b, Frame (.updateStatus a b) replyFlds [] replyParts) ∧
  (∀ a, Frame (.updateActivate a) replyFlds [] replyParts) ∧
  (∀ a, Frame (.updateAbort a) replyFlds [] replyParts) ∧
  (∀ a b, Frame (.traceRead a b) replyFlds [] replyParts) ∧
  (∀ a, Frame (.faultRead a) replyFlds [] replyParts) ∧
  (∀ a b c, Frame (.mgrHandover a b c) (replyFlds.append [.DEV_DIR_GEN, .DEV_MGR_LINK, .DEV_MGR_SMP, .DVSEC_DIR_GEN,
    .DVSEC_MANAGER]) [] (replyParts.append [.store])) ∧
  (∀ a b c d, Frame (.expromStore a b c d) replyFlds [] (replyParts.append [.store])) ∧
  (∀ a b c, Frame (.subsysSet a b c) replyFlds [] (replyParts.append [.store])) ∧
  (∀ a b, Frame (.tenantCreate a b) (replyFlds.append (modifyFlds.append [.CT_TN_CA_CPL, .CT_TN_CTO, .CT_TN_DESC_BYTES,
    .CT_TN_DESC_DONE, .CT_TN_HALTS, .CT_TN_LOG_OUT_RANGE, .CT_TN_MSIX_SENT, .CT_TN_RD_BYTES, .CT_TN_RETRIES, .CT_TN_UR_CPL,
    .CT_TN_WR_BYTES, .DVSEC_GENERATION, .DVSEC_TNID])) [.channel, .tenant] (replyParts.append [.chans, .latches, .tens])) ∧
  (∀ a b, Frame (.tenantModify a b) (replyFlds.append modifyFlds) [.channel] (replyParts.append [.chans, .latches, .tens,
    .wls])) ∧
  (∀ a, Frame (.tenantReset a) (cutFlds.append [.DEV_DIR_GEN, .DVSEC_DIR_GEN, .TN_STATE]) [] cutParts) ∧
  (∀ a, Frame (.tenantDestroy a) (cutFlds.append (modifyFlds.append [.CT_OW_LATE, .CT_SD_DELIVERED, .CT_SD_EPISODES,
    .CT_SD_LATE, .DVSEC_TNID])) [.outwin, .inwin, .intwin, .sheaf, .channel, .tenant] (cutParts.append [.dests, .latches])) ∧
  (∀ a b c d e, Frame (.vfAllot a b c d e) (replyFlds.append [.DEV_DIR_GEN, .DVSEC_DIR_GEN]) [] (replyParts.append
    [.store])) ∧
  (∀ a b c d, Frame (.runaheadSet a b c d) replyFlds [] (replyParts.append [.tens])) ∧
  (∀ a b, Frame (.tenantSave a b) replyFlds [] (replyParts.append [.tens])) ∧
  (∀ a b c, Frame (.outwinSet a b c) (replyFlds.append [.CT_OW_LATE, .DEV_DIR_GEN, .DVSEC_DIR_GEN, .TN_INT_USED,
    .TN_IN_USED, .TN_OUT_USED]) [.outwin] (replyParts.append [.latches])) ∧
  (∀ a b c, Frame (.inwinSet a b c) (replyFlds.append [.DEV_DIR_GEN, .DVSEC_DIR_GEN, .TN_INT_USED, .TN_IN_USED,
    .TN_OUT_USED]) [.inwin] (replyParts.append [.latches])) ∧
  (∀ a b c, Frame (.intwinSet a b c) (replyFlds.append [.DEV_DIR_GEN, .DVSEC_DIR_GEN, .TN_INT_USED, .TN_IN_USED,
    .TN_OUT_USED]) [.intwin] (replyParts.append [.latches])) ∧
  (∀ a b c, Frame (.sheafSet a b c) (replyFlds.append [.CT_SD_DELIVERED, .CT_SD_EPISODES, .CT_SD_LAG, .CT_SD_LATE,
    .DEV_DIR_GEN, .DVSEC_DIR_GEN]) [.sheaf] (replyParts.append [.dests, .sheafPkts])) ∧
  (∀ a b c d e, Frame (.hportConfig a b c d e) (replyFlds.append [.HL_BIFUR_NEXT, .HL_CFG_PENDING, .HL_CLKMODE_NEXT]) []
    (replyParts.append [.store])) ∧
  (∀ a b, Frame (.wlinkConfig a b) (downFlds.append (replyFlds.append (detectFlds.append [.WL_ERR_LIMIT, .WL_ERR_WINDOW,
    .WL_GRACE, .WL_REPLAY_LIMIT, .WL_REPLAY_TO, .WL_RESHAPE_TO, .WP_CK_DETECT, .WP_DISABLE, .WP_LANE_EN, .WP_MIN_WIDTH,
    .WP_PEER, .WP_TARGET_RATE]))) [] (downParts.append [.keeper, .store, .upd])) ∧
  (∀ a b, Frame (.wlinkReset a b) (chanFlds.append (detectFlds.append (replyFlds.append [.CT_TL_HUB_RX_BYTES,
    .CT_TL_HUB_TX_BYTES, .HL_DROP_CNT, .TN_STALE_CNT, .WL_FLUSHED, .WL_FLUSHPKT_CNT, .WL_OLDEST, .WL_REPLAY_COUNT,
    .WL_RESHAPE_BUSY, .WL_UNACKED, .WP_CK_DETECT, .WP_DOWNSHIFT]))) [] (downParts.append [.keeper, .upd])) ∧
  (∀ a b c, Frame (.wlinkReshape a b c) (replyFlds.append [.WL_NEXT_TX, .WL_RESHAPE_BUSY, .WL_RESHAPE_FAIL,
    .WL_RESHAPE_SET, .WL_TX_CNT, .WL_UNACKED, .WP_LN_INJ_CNT]) [] (replyParts.append [.wls, .wps])) ∧
  (∀ a b, Frame (.logConfig a b) (replyFlds.append [.TN_LOG_ON]) [] (replyParts.append [.dirty, .logs])) ∧
  (∀ a, Frame (.tenantThaw a) (chanFlds.append (replyFlds.append [.CH_DB_IGNORED, .CH_DB_PENDING, .DEV_DIR_GEN,
    .DVSEC_DIR_GEN, .TN_STATE])) [] (wardParts.append [.keeper, .tags, .tens, .upd])) ∧
  (∀ a b c d, Frame (.tenantRestore a b c d) (replyFlds.append (modifyFlds.append [.DVSEC_GENERATION, .TN_BUCKET,
    .TN_GENERATION])) [.channel] (replyParts.append [.chans, .latches, .tens, .wls])) ∧
  (∀ a b c, Frame (.clockSwitch a b c) (replyFlds.append [.CK_SW_BUSY]) [] (replyParts.append [.clocks])) ∧
  (∀ a b c d, Frame (.pdSet a b c d) (cutFlds.append (wakeFlds.append [.CK_PLL_TRIP, .DEV_DIR_GEN, .DVSEC_DIR_GEN,
    .PW_BANK_SIG, .PW_PAD_HOLD, .PW_PAD_HOLD_MAP])) [.hostlink, .outwin, .inwin, .intwin, .sheaf, .tiller, .wlane,
    .weaseif, .channel, .tenant, .hub, .fnirq, .cmdring, .keeper, .trace, .counters] (cutParts.append [.clocks, .doms,
    .inRds, .latches])) ∧
  (∀ a b, Frame (.padRelease a b) (replyFlds.append (detectFlds.append [.PW_PAD_HOLD, .PW_PAD_HOLD_MAP])) []
    (replyParts.append [.wps])) ∧
  (∀ a b c, Frame (.bankTest a b c) (replyFlds.append (detectFlds.append [.PW_BANK_LOST_HI, .PW_BANK_LOST_LO, .TI_BRINGUP,
    .TI_CB_READY, .TI_LOST, .TI_SPARE_READY, .TR_NEXT, .TR_OLDEST, .TR_STOPPED])) [] (replyParts.append [.wps])) ∧
  (∀ a b, Frame (.tillerReset a b) (cutFlds.append (detectFlds.append (wakeFlds.append (downFlds.append [.DEV_DIR_GEN,
    .DVSEC_DIR_GEN, .HL_CUR_WIDTH, .HL_DL_DOWN, .HL_DL_UP, .HL_DOWN_CNT, .HL_FLIT, .HL_REFCLK_OK, .HL_REVERSED,
    .PW_PAD_HOLD, .PW_PAD_HOLD_MAP, .TN_STATE, .TR_STREAM_ON, .WL_OLDEST, .WL_REPLAY_COUNT, .WL_UNACKED, .WP_CK_DETECT,
    .WP_DOWNSHIFT])))) [.fnirq, .cmdring] (cutParts.append [.clocks, .doms, .inRds, .latches])) ∧
  (∀ a, Frame (.updateConfirm a) (replyFlds.append [.DEV_DEVICE, .DEV_FW_VERSION, .DVSEC_FW_STATE, .DVSEC_FW_VERSION,
    .DVSEC_RECOVERY, .KP_FW_STATE, .KP_SLOT]) [] replyParts) ∧
  (∀ a b, Frame (.traceFilter a b) (replyFlds.append [.TR_DROP_CNT, .TR_NEXT, .TR_OLDEST, .TR_STOPPED, .TR_STOP_MODE]) []
    replyParts) ∧
  (∀ a b, Frame (.traceStream a b) (replyFlds.append [.TR_STREAM_CNT, .TR_STREAM_HL, .TR_STREAM_ON, .TR_STREAM_PAUSED]) []
    replyParts) ∧
  (∀ a b, Frame (.faultClear a b) (replyFlds.append [.WD_FAULT_WORD, .WD_INJ_WORD, .WD_LINES, .WD_VALID]) [] replyParts) ∧
  (∀ a, Frame (.faultRelease a) (replyFlds.append [.WD_FN_DRIVEN, .WD_FN_LEVEL]) [] replyParts) ∧
  (∀ a b, Frame (.faultInject a b) (wardFlds.append (replyFlds.append [.WD_INJ_COUNTS, .WD_INJ_REACT])) []
    (wardParts.append [.keeper, .upd])) ∧
  (∀ a b, Frame (.faultConfig a b) (replyFlds.append [.WD_CLASS_HI, .WD_CLASS_LO, .WD_FAULT_MINW]) [] (replyParts.append
    [.store])) ∧
  (∀ a b, Frame (.journalRead a b) (wardFlds.append (replyFlds.append [.WD_JR_MARK])) [] (wardParts.append [.keeper,
    .upd]))

/-- The frames of the register accesses, the events of the Keeper, the cadence, the clocks, power and bring-up,
firmware update, the host links, configuration and interrupts: the register fields, blocks and parts that each may
move. -/
def Obligations.ManagementFrames : Prop :=
  (∀ a, Frame (.registerWrite a) [] allBlks (cutParts.append [.clocks, .inRds, .latches])) ∧
  (∀ a b c, Frame (.lockSet a b c) [] allBlks (cutParts.append [.clocks, .inRds, .latches])) ∧
  (∀ a b c, Frame (.lowWordRead a b c) (wardFlds.append [.CAD_STAMP_HI, .CT_HL_RX_PAYLOAD, .CT_HL_RX_TLP, .PW_DARK,
    .PW_DARK_CNT]) [] (wardParts.append [.latches])) ∧
  (∀ a b, Frame (.darkAccess a b) (wardFlds.append [.CAD_STAMP_HI, .CT_HL_RX_PAYLOAD, .CT_HL_RX_TLP, .PW_DARK,
    .PW_DARK_CNT]) [] (wardParts.append [.latches])) ∧
  (∀ a b, Frame (.cmdPiWrite a b) [.KR_ACTIVE, .KR_CMD_PI, .KR_OVERRUN, .KR_STOPPED] [] []) ∧
  (∀ a b, Frame (.ringEnWrite a b) [.KR_ACTIVE, .KR_CMD_CI, .KR_CMD_PI, .KR_EN, .KR_IN_FLIGHT, .KR_REPLY_FULL, .KR_RPL_CI,
    .KR_RPL_PI, .KR_SCHEDULED, .KR_STOPPED] [] [.keeper]) ∧
  (∀ a b, Frame (.rplCiWrite a b) [.KR_REPLY_FULL, .KR_RPL_CI] [] []) ∧
  (Frame .commandFetch (vecFlds.append [.CAD_STAMP_LO, .KP_CANCEL_CNT, .KP_CMD_CNT, .KP_CTX_BUSY, .KP_FAIL_CNT,
    .KP_SCHED_ALL, .KR_CMD_CI, .KR_CMD_CNT, .KR_FAIL_CNT, .KR_IN_FLIGHT, .KR_REPLY_FULL, .KR_RPL_PI, .KR_SCHEDULED]) []
    [.cad, .cfg, .heldCauses, .hls, .hostQ, .keeper, .trace, .vecs]) ∧
  (Frame .scheduledCommandExec (cutFlds.append (wakeFlds.append [.CK_PLL_TRIP, .DEV_DIR_GEN, .DVSEC_DIR_GEN, .PW_BANK_SIG,
    .PW_PAD_HOLD, .PW_PAD_HOLD_MAP])) [.hostlink, .outwin, .inwin, .intwin, .sheaf, .tiller, .wlane, .weaseif, .channel,
    .tenant, .hub, .fnirq, .cmdring, .keeper, .trace, .counters] (cutParts.append [.clocks, .dests, .doms, .inRds,
    .latches])) ∧
  (Frame .expromPiecesExpire [] [] [.keeper]) ∧
  (Frame .smpStatus [] [] [.keeper]) ∧
  (Frame .anchorBoundary replyFlds [] replyParts) ∧
  (∀ a b, Frame (.ptmResponse a b) replyFlds [] replyParts) ∧
  (Frame .ptmTimeout replyFlds [] replyParts) ∧
  (Frame .drainTimeout replyFlds [] replyParts) ∧
  (Frame .trialEnd replyFlds [] replyParts) ∧
  (Frame .keeperWatchdog (wardFlds.append (replyFlds.append [.KP_WDOG_CNT])) [] (wardParts.append [.keeper, .upd])) ∧
  (Frame .keeperRestartDone (cutFlds.append [.CK_READY, .DEV_DEVICE, .DEV_DIR_GEN, .DEV_FW_VERSION, .DEV_MGR_LINK,
    .DEV_MGR_SMP, .DVSEC_DIR_GEN, .DVSEC_FW_STATE, .DVSEC_FW_VERSION, .DVSEC_MANAGER, .DVSEC_RECOVERY, .HL_BIFUR,
    .HL_BIFUR_NEXT, .HL_CFG_PENDING, .HL_CLKMODE, .HL_CLKMODE_NEXT, .HL_CUR_WIDTH, .HL_DL_DOWN, .HL_DL_UP, .HL_DOWN_CNT,
    .HL_FLIT, .HL_MAX_WIDTH, .HL_PRESENT, .HL_REFCLK_OK, .HL_REVERSED, .HL_TARGET_SPEED, .HUB_CH_FREE, .HUB_CH_FREE_T,
    .HUB_CH_PENDING, .HUB_TN_CREATED, .HUB_TN_PENDING, .HUB_UNITS_FREE, .HUB_UNITS_FREE_T, .HUB_UNITS_PENDING,
    .HUB_VEC_FREE, .HUB_VEC_PENDING, .KP_FW_STATE, .KP_SLOT, .PW_BANK_LOST_HI, .PW_BANK_LOST_LO, .PW_RECOVERY,
    .TI_CONSERVATIVE, .TI_READS_BLOCKED, .TI_RECOVERY, .TI_UNITS_ALLOTTED, .TN_STATE]) [.fnirq, .cmdring] (cutParts.append
    [.clocks, .inRds, .latches])) ∧
  (∀ a b c, Frame (.smpWrite a b c) (replyFlds.append [.CT_SMP_CMD, .CT_SMP_CRC, .CT_SMP_FRAME, .CT_SMP_OVERFLOW]) []
    replyParts) ∧
  (Frame .smpRead (vecFlds.append [.CAD_STAMP_LO, .KP_CANCEL_CNT, .KP_CMD_CNT, .KP_CTX_BUSY, .KP_FAIL_CNT, .KP_SCHED_ALL,
    .KR_FAIL_CNT, .KR_IN_FLIGHT, .KR_RPL_PI, .KR_SCHEDULED]) [] [.cad, .cfg, .heldCauses, .hls, .hostQ, .keeper, .trace,
    .vecs]) ∧
  (∀ a, Frame (.smpCsAbort a) [] [] []) ∧
  (∀ a b c, Frame (.cadencePulse a b c) (wardFlds.append [.CAD_ERA, .CAD_ERA_ROLL, .CAD_GLITCH, .CAD_GLITCH_CNT,
    .CAD_LOST_CNT, .CAD_PERIOD, .CAD_PHASE_ERR, .CAD_RANGE, .CAD_SLIP, .CAD_SLIP_CNT, .CAD_STATE, .SH_SD_LAG, .TN_BUCKET,
    .TN_DEPTH, .TN_HELD, .TN_HELD_TICKS, .TN_RATE, .WD_FIN_LEVEL, .WD_SELFTEST_OK, .WL_ERR_CUR, .WP_LN_BITS_CNT,
    .WP_LN_ERR_CNT, .WP_LN_INJ_CNT]) [] (wardParts.append [.dests, .pins, .tens])) ∧
  (Frame .slewEnd [] [] [.cad]) ∧
  (Frame .tickBoundary (wardFlds.append [.CAD_ERA, .CAD_ERA_ROLL, .CAD_PERIOD, .SH_SD_LAG, .TN_BUCKET, .TN_DEPTH, .TN_HELD,
    .TN_HELD_TICKS, .TN_RATE, .WD_FIN_LEVEL, .WD_SELFTEST_OK, .WL_ERR_CUR, .WP_LN_BITS_CNT, .WP_LN_ERR_CNT,
    .WP_LN_INJ_CNT]) [] (wardParts.append [.dests, .pins, .tens])) ∧
  (Frame .epochBoundary (wardFlds.append [.CAD_ERA, .CAD_ERA_ROLL, .CAD_PERIOD, .SH_SD_LAG, .TN_BUCKET, .TN_DEPTH,
    .TN_HELD, .TN_HELD_TICKS, .TN_RATE, .WD_FIN_LEVEL, .WD_SELFTEST_OK, .WL_ERR_CUR, .WP_LN_BITS_CNT, .WP_LN_ERR_CNT,
    .WP_LN_INJ_CNT]) [] (wardParts.append [.dests, .pins, .tens])) ∧
  (Frame .checkpointOverdue wardFlds [] wardParts) ∧
  (Frame .coastingOnset (wardFlds.append [.CAD_LOST_PULSE, .CAD_STATE]) [] wardParts) ∧
  (Frame .acquireTimeout [.CAD_STAMP_LO, .CAD_STATE] [] [.cad, .trace]) ∧
  (∀ a b, Frame (.cadEnChange a b) [.CAD_EN, .CAD_STAMP_LO, .CAD_STATE] [] [.cad, .trace]) ∧
  (∀ a b, Frame (.cadSrcChange a b) [.CAD_SRC, .CAD_STAMP_LO, .CAD_STATE] [] [.cad, .trace]) ∧
  (∀ a b, Frame (.cadNominalWrite a b) [.CAD_NOMINAL] [] []) ∧
  (Frame .powerOnReset [] allBlks (cutParts.append [.clocks, .consLast, .dests, .doms, .inRds, .latches, .pins, .pktCount,
    .store])) ∧
  (Frame .resetNAssert [] allBlks (cutParts.append [.clocks, .consLast, .dests, .doms, .inRds, .latches, .pins, .pktCount,
    .store])) ∧
  (Frame .activationBoundary [] allBlks (cutParts.append [.clocks, .consLast, .dests, .doms, .inRds, .latches, .pins,
    .pktCount, .store])) ∧
  (∀ a, Frame (.porRelease a) [.DEV_DEVID, .DEV_DSN_HI, .DEV_DSN_LO, .DEV_MGR_SEL, .DEV_RECOVERY_STRAP, .PW_BOOT_CAUSE,
    .PW_PREV_REACT, .PW_VIN_MV, .WD_FIN_LEVEL] [] [.keeper, .pins]) ∧
  (∀ a, Frame (.resetNRelease a) [.DEV_DEVID, .DEV_DSN_HI, .DEV_DSN_LO, .DEV_MGR_SEL, .DEV_RECOVERY_STRAP, .PW_BOOT_CAUSE,
    .PW_PREV_REACT, .WD_FIN_LEVEL] [] [.keeper, .pins]) ∧
  (∀ a, Frame (.romBoot a) (bootFlds.append [.CAD_ERA, .CAD_SEED, .CAD_SEEDED, .CK_SW_BUSY, .PW_BANK_LOST_HI,
    .PW_BANK_LOST_LO, .WD_CLASS_HI, .WD_CLASS_LO, .WD_FAULT_MINW, .WD_JR_APPEND_CNT, .WD_JR_FREE, .WD_JR_MARK,
    .WD_JR_NEWEST, .WD_JR_OLDEST, .WD_SELFTEST_OK]) [.fnirq, .cmdring] (cutParts.append [.clocks, .doms, .inRds, .latches,
    .store])) ∧
  (Frame .bootClockTimeout bootFlds [.fnirq, .cmdring] (cutParts.append [.clocks, .doms, .inRds, .latches])) ∧
  (∀ a, Frame (.perstAssert a) (cutFlds.append [.DEV_DIR_GEN, .DVSEC_DIR_GEN, .HL_CUR_WIDTH, .HL_DL_DOWN, .HL_DL_UP,
    .HL_DOWN_CNT, .HL_FLIT, .HL_PERST, .HL_PERST_ASSERT, .HL_REVERSED, .TN_STATE]) [.fnirq, .cmdring] (cutParts.append
    [.inRds, .latches, .pins])) ∧
  (∀ a, Frame (.perstDeassert a) [.HL_PERST] [] [.hls, .pins]) ∧
  (∀ a, Frame (.hotResetReceived a) (cutFlds.append [.DEV_DIR_GEN, .DVSEC_DIR_GEN, .HL_CUR_WIDTH, .HL_DL_DOWN, .HL_DL_UP,
    .HL_DOWN_CNT, .HL_FLIT, .HL_HOT_RESET, .HL_REVERSED, .TN_STATE]) [.fnirq, .cmdring] (cutParts.append [.inRds,
    .latches])) ∧
  (∀ a, Frame (.dlDown a) (cutFlds.append [.DEV_DIR_GEN, .DVSEC_DIR_GEN, .HL_CUR_WIDTH, .HL_DL_DOWN, .HL_DL_UP,
    .HL_DOWN_CNT, .HL_FLIT, .HL_REVERSED, .TN_STATE]) [.fnirq, .cmdring] (cutParts.append [.inRds, .latches])) ∧
  (∀ a, Frame (.linkDisable a) (cutFlds.append [.DEV_DIR_GEN, .DVSEC_DIR_GEN, .HL_CUR_WIDTH, .HL_DL_DOWN, .HL_DL_UP,
    .HL_DOWN_CNT, .HL_FLIT, .HL_REVERSED, .TN_STATE]) [.fnirq, .cmdring] (cutParts.append [.inRds, .latches])) ∧
  (∀ a, Frame (.linkDisableEnd a) [.HL_LTSSM] [] [.hls]) ∧
  (∀ a, Frame (.detectEntry a) [.HL_LTSSM] [] [.hls]) ∧
  (∀ a b c d, Frame (.dlUp a b c d) (vecFlds.append [.CAD_STAMP_LO, .HL_CUR_WIDTH, .HL_DL_UP, .HL_DRS_SENT, .HL_FLIT,
    .HL_REVERSED, .HL_WIDTH_CHG]) [] [.cad, .cfg, .heldCauses, .hls, .hostQ, .trace, .vecs]) ∧
  (∀ a, Frame (.pfReady a) (vecFlds.append [.DEV_DIR_GEN, .DVSEC_DIR_GEN, .HL_DRS_SENT, .PW_FN_READY]) [] [.cfg,
    .heldCauses, .hls, .hostQ, .vecs]) ∧
  (∀ a, Frame (.refclkLost a) (cutFlds.append [.CK_READY, .DEV_DIR_GEN, .DVSEC_DIR_GEN, .HL_CUR_WIDTH, .HL_DL_DOWN,
    .HL_DL_UP, .HL_DOWN_CNT, .HL_FLIT, .HL_REFCLK_LOST, .HL_REFCLK_OK, .HL_REVERSED, .TN_STATE]) [.fnirq, .cmdring]
    (cutParts.append [.clocks, .inRds, .latches, .pins])) ∧
  (∀ a b c, Frame (.hlHoldWrite a b c) (cutFlds.append [.DEV_DIR_GEN, .DVSEC_DIR_GEN, .HL_CUR_WIDTH, .HL_DL_DOWN,
    .HL_DL_UP, .HL_DOWN_CNT, .HL_FLIT, .HL_HOLD, .HL_REVERSED, .TN_STATE]) [.fnirq, .cmdring] (cutParts.append [.inRds,
    .latches])) ∧
  (∀ a b, Frame (.hlRetrainWrite a b) [.HL_RECOV_CNT] [] []) ∧
  (∀ a b c, Frame (.speedChange a b c) (wardFlds.append [.HL_EQ_FAIL, .HL_SPEED_CHG]) [] wardParts) ∧
  (∀ a b, Frame (.l0pPartnerRequest a b) (vecFlds.append [.CAD_STAMP_LO, .HL_CUR_WIDTH, .HL_WIDTH_CHG]) [] [.cad, .cfg,
    .heldCauses, .hls, .hostQ, .trace, .vecs]) ∧
  (∀ a, Frame (.l0pHalve a) (vecFlds.append [.CAD_STAMP_LO, .HL_CUR_WIDTH, .HL_WIDTH_CHG]) [] [.cad, .cfg, .heldCauses,
    .hls, .hostQ, .trace, .vecs]) ∧
  (∀ a, Frame (.l0pRestore a) (vecFlds.append [.CAD_STAMP_LO, .HL_CUR_WIDTH, .HL_WIDTH_CHG]) [] [.cad, .cfg, .heldCauses,
    .hls, .hostQ, .trace, .vecs]) ∧
  (∀ a b, Frame (.aspmL1Entry a b) [.HL_CLKREQ, .HL_CUR_SPEED, .HL_L1SUB, .HL_LTSSM] [] []) ∧
  (∀ a, Frame (.l1Exit a) [.HL_CLKREQ, .HL_CUR_SPEED, .HL_L1SUB, .HL_LTSSM, .HL_RECOV_CNT] [] [.hls]) ∧
  (∀ a, Frame (.ltrActive a) [.CT_HL_TX_PAYLOAD, .CT_HL_TX_TLP, .HL_CLKREQ, .HL_CUR_SPEED, .HL_L1SUB, .HL_LTSSM,
    .HL_RECOV_CNT] [] [.hls]) ∧
  (∀ a, Frame (.ltrNoRequirement a) [.CT_HL_TX_PAYLOAD, .CT_HL_TX_TLP, .HL_CLKREQ, .HL_CUR_SPEED, .HL_L1SUB, .HL_LTSSM,
    .HL_RECOV_CNT] [] [.hls]) ∧
  (∀ a b c, Frame (.configRequest a b c) (cutFlds.append [.CT_HL_RX_PAYLOAD, .CT_HL_RX_TLP, .DEV_DIR_GEN, .DVSEC_DIR_GEN,
    .HL_RRS_CNT, .TN_STATE]) [.fnirq, .cmdring] (cutParts.append [.inRds, .latches])) ∧
  (∀ a, Frame (.vfEnableSet a) [] [] [.cfg, .hls]) ∧
  (∀ a, Frame (.vfReady a) [.CT_HL_TX_PAYLOAD, .CT_HL_TX_TLP, .HL_CLKREQ, .HL_CUR_SPEED, .HL_L1SUB, .HL_LTSSM,
    .HL_RECOV_CNT] [] [.cfg, .hls]) ∧
  (∀ a, Frame (.vfEnableClear a) (cutFlds.append [.DEV_DIR_GEN, .DVSEC_DIR_GEN, .TN_STATE]) [.fnirq, .cmdring]
    (cutParts.append [.inRds, .latches])) ∧
  (∀ a, Frame (.flr a) (cutFlds.append [.DEV_DIR_GEN, .DVSEC_DIR_GEN, .TN_STATE]) [.fnirq, .cmdring] (cutParts.append
    [.inRds, .latches])) ∧
  (∀ a, Frame (.busMasterClear a) (chanFlds.append (replyFlds.append [.CT_SD_LAG, .HL_DROP_CNT, .KR_ACTIVE, .KR_FETCH_ERR,
    .KR_STOPPED, .SH_EXCUSED, .SH_WAITING, .TI_RQ_SPEC_CNT, .TN_LOG_ON])) [] cutParts) ∧
  (∀ a, Frame (.d3hotEntry a) (chanFlds.append (replyFlds.append [.CT_SD_LAG, .HL_DROP_CNT, .KR_ACTIVE, .KR_FETCH_ERR,
    .KR_STOPPED, .SH_EXCUSED, .SH_WAITING, .TI_RQ_SPEC_CNT, .TN_LOG_ON])) [] cutParts) ∧
  (∀ a, Frame (.busMasterSet a) (chanFlds.append (replyFlds.append [.CT_SD_LAG, .HL_DROP_CNT, .KR_ACTIVE, .KR_FETCH_ERR,
    .KR_STOPPED, .SH_WAITING, .TI_RQ_SPEC_CNT, .TN_LOG_ON])) [] cutParts) ∧
  (∀ a, Frame (.d0Return a) (chanFlds.append (replyFlds.append [.CT_SD_LAG, .HL_DROP_CNT, .KR_ACTIVE, .KR_FETCH_ERR,
    .KR_STOPPED, .SH_WAITING, .TI_RQ_SPEC_CNT, .TN_LOG_ON])) [] cutParts) ∧
  (∀ a b, Frame (.numvfsWrite a b) [] [] [.cfg]) ∧
  (∀ a b, Frame (.rebarSizeWrite a b) [] [] [.cfg]) ∧
  (∀ a b, Frame (.msixUnmask a b) vecFlds [] [.cfg, .heldCauses, .hls, .hostQ, .vecs]) ∧
  (∀ a b, Frame (.holdoffEnd a b) vecFlds [] [.cfg, .heldCauses, .hls, .hostQ, .vecs]) ∧
  (∀ a b c d, Frame (.expromRead a b c d) (wardFlds.append [.CT_HL_RX_PAYLOAD, .CT_HL_RX_TLP, .PW_DARK, .PW_DARK_CNT]) []
    (downParts.append [.pktCount])) ∧
  (∀ a b c, Frame (.modTicksWrite a b c) (vecFlds.append [.FI_MOD_TICKS]) [] [.cfg, .heldCauses, .hls, .hostQ, .vecs]) ∧
  (∀ a b, Frame (.fnEventEnWrite a b) (vecFlds.append [.FI_FN_EVENT_EN]) [] [.cfg, .heldCauses, .hls, .hostQ, .vecs]) ∧
  (∀ a b c, Frame (.chIrqEnableWrite a b c) (vecFlds.append [.CH_ERR_EN, .CH_FULL_EN, .CH_HALF_EN, .CH_VEC_ERR,
    .CH_VEC_FULL, .CH_VEC_HALF]) [] [.cfg, .heldCauses, .hls, .hostQ, .vecs]) ∧
  (∀ a, Frame (.clockMonitorTrip a) (bootFlds.append (downFlds.append (detectFlds.append [.CAD_CLK_FRO, .CK_ABORTED,
    .CK_AON_FALLBACK, .CK_AON_SRC, .CK_BUSY, .CK_CORE_SRC, .CK_FORCED_CNT, .CK_FRO_RESTART, .CK_KEEP_FALLBACK,
    .CK_KEEP_SRC, .CK_PLL_TRIP, .CK_REF_FAILOVER, .CK_REF_SRC, .CK_SW_BUSY, .CK_SW_FORCED, .CK_TRIPPED, .CK_TRIP_CNT,
    .WD_ASYNC, .WP_CK_DETECT]))) [.fnirq, .cmdring] (cutParts.append [.clocks, .doms, .inRds, .latches])) ∧
  (Frame .froReady (wardFlds.append (wakeFlds.append [.CK_SW_BUSY])) [] (wardParts.append [.clocks, .doms, .keeper])) ∧
  (∀ a, Frame (.sourceReady a) (bootFlds.append [.CK_SW_BUSY]) [.fnirq, .cmdring] (cutParts.append [.clocks, .doms, .inRds,
    .latches])) ∧
  (∀ a, Frame (.pllReady a) (bootFlds.append [.CK_SW_BUSY]) [.fnirq, .cmdring] (cutParts.append [.clocks, .doms, .inRds,
    .latches])) ∧
  (∀ a, Frame (.clockSwitchDone a) (bootFlds.append [.CAD_CLK_FRO, .CK_AON_FALLBACK, .CK_AON_SRC, .CK_CORE_SRC,
    .CK_FORCED_CNT, .CK_FRO_RESTART, .CK_KEEP_FALLBACK, .CK_KEEP_SRC, .CK_REF_FAILOVER, .CK_REF_SRC, .CK_SW_BUSY,
    .CK_SW_FORCED]) [.fnirq, .cmdring] (cutParts.append [.clocks, .doms, .inRds, .latches])) ∧
  (∀ a, Frame (.forcedClockSwitch a) (bootFlds.append [.CAD_CLK_FRO, .CK_AON_FALLBACK, .CK_AON_SRC, .CK_CORE_SRC,
    .CK_FORCED_CNT, .CK_FRO_RESTART, .CK_KEEP_FALLBACK, .CK_KEEP_SRC, .CK_REF_FAILOVER, .CK_REF_SRC, .CK_SW_BUSY,
    .CK_SW_FORCED]) [.fnirq, .cmdring] (cutParts.append [.clocks, .doms, .inRds, .latches])) ∧
  (∀ a b, Frame (.freqCountStart a b) [.CK_ABORTED, .CK_BUSY, .CK_FC_CKID] [] [.clocks]) ∧
  (∀ a, Frame (.freqCountEnd a) [.CK_BUSY, .CK_DONE, .CK_FC_COUNT] [] []) ∧
  (∀ a b c, Frame (.clkobsWrite a b c) [.CK_DIV, .CK_SEL] [] [.clocks]) ∧
  (∀ a b, Frame (.wakeStepReady a b) (bootFlds.append [.DVSEC_TNID, .PW_BANK_LOST_HI, .PW_BANK_LOST_LO, .PW_LOST_CNT,
    .PW_LOST_LAST, .PW_PAD_HOLD, .PW_PAD_HOLD_MAP, .PW_WAKE_CNT]) [.hostlink, .outwin, .inwin, .intwin, .sheaf, .tiller,
    .wlane, .weaseif, .channel, .tenant, .hub, .fnirq, .cmdring, .keeper, .trace, .counters] (cutParts.append [.clocks,
    .consLast, .dests, .doms, .inRds, .latches])) ∧
  (∀ a, Frame (.wakeStepTimeout a) (bootFlds.append [.DVSEC_TNID, .PW_PAD_HOLD, .PW_PAD_HOLD_MAP, .PW_WAKE_CNT,
    .PW_WAKE_FAIL]) [.hostlink, .outwin, .inwin, .intwin, .sheaf, .tiller, .wlane, .weaseif, .channel, .tenant, .hub,
    .fnirq, .cmdring, .keeper, .trace, .counters] (cutParts.append [.clocks, .consLast, .dests, .doms, .inRds, .latches])) ∧
  (∀ a, Frame (.vinLow a) (wardFlds.append [.PW_VINLOW_CNT, .PW_VIN_MV]) [] wardParts) ∧
  (Frame .eraseDone [.CAD_STAMP_LO] [] [.cad, .trace, .upd]) ∧
  (∀ a, Frame (.refclkRestored a) [.CK_READY, .HL_REFCLK_OK, .PW_REFCLK_WAIT] [] [.clocks, .pins]) ∧
  (∀ a b c, Frame (.laneMarginingCommand a b c) [] [] [.hls]) ∧
  (∀ a, Frame (.l2Entry a) [.HL_CLKREQ, .HL_CUR_SPEED, .HL_DL_UP, .HL_L1SUB, .HL_LTSSM, .SH_EXCUSED] [] [.hls])

/-- The frames of host requests and completions, packets of local designs, the DMA channels, and the events of
tenants and migration: the register fields, blocks and parts that each may move. -/
def Obligations.DatapathFrames : Prop :=
  (∀ a, Frame (.inboundRequest a) (wardFlds.append [.CT_HL_IN_MISS, .CT_HL_RX_PAYLOAD, .CT_HL_RX_TLP, .CT_TL_HUB_RX_BYTES,
    .CT_TL_HUB_TX_BYTES, .HL_DROP_CNT]) [] (downParts.append [.pktCount])) ∧
  (∀ a b c, Frame (.hostReadIssue a b c) (chanFlds.append (replyFlds.append [.CT_OW_LATE, .CT_SD_DELIVERED, .CT_SD_LAG,
    .CT_SD_LATE, .CT_TL_HUB_RX_BYTES, .CT_TL_HUB_TX_BYTES, .CT_TL_LOG_STALL, .CT_TN_LOG_OUT_RANGE, .CT_TN_MSIX_SENT,
    .CT_TN_WR_BYTES, .FI_IN_SENT_CNT, .HL_DROP_CNT, .KR_ACTIVE, .KR_FETCH_ERR, .KR_STOPPED, .SH_SD_LAG, .SH_WAITING,
    .TI_CELLS_USED, .TI_CONS_OUT, .TI_OUTSTANDING, .TI_RQ_FLUSH_CNT, .TI_RQ_SPEC_CNT, .TN_BUCKET, .TN_CELLS_USED,
    .TN_CHARGED_CNT, .TN_HELD, .TN_LATE_CNT, .TN_LIVE_TAGS, .TN_LOG_ON, .TN_NOREAD_CNT, .TR_SKIP_CNT])) [] (cutParts.append
    [.consLast])) ∧
  (∀ a b, Frame (.hostTlpIssue a b) (chanFlds.append (replyFlds.append [.CT_OW_LATE, .CT_SD_DELIVERED, .CT_SD_LAG,
    .CT_SD_LATE, .CT_TL_HUB_RX_BYTES, .CT_TL_HUB_TX_BYTES, .CT_TL_LOG_STALL, .CT_TN_LOG_OUT_RANGE, .CT_TN_MSIX_SENT,
    .CT_TN_WR_BYTES, .FI_IN_SENT_CNT, .HL_DROP_CNT, .KR_ACTIVE, .KR_FETCH_ERR, .KR_STOPPED, .SH_SD_LAG, .SH_WAITING,
    .TI_RQ_SPEC_CNT, .TN_BUCKET, .TN_CHARGED_CNT, .TN_HELD, .TN_LATE_CNT, .TN_LOG_ON, .TR_SKIP_CNT])) [] cutParts) ∧
  (∀ a, Frame (.hostCompletion a) (chanFlds.append (replyFlds.append [.CH_DB_PENDING, .CT_HL_RX_PAYLOAD, .CT_HL_RX_TLP,
    .CT_TL_HUB_RX_BYTES, .CT_TL_HUB_TX_BYTES, .CT_TN_CA_CPL, .CT_TN_RD_BYTES, .CT_TN_UR_CPL, .KR_ACTIVE, .KR_CMD_CI,
    .KR_CMD_CNT, .KR_FETCH_ERR, .KR_REPLY_FULL, .KR_STOPPED, .TI_CELLS_USED, .TI_CONS_OUT, .TI_OUTSTANDING,
    .TI_QUARANTINED, .TI_READS_BLOCKED, .TI_RQ_DROP_CNT, .TI_RQ_LATE_CNT, .TI_RQ_SPEC_CNT, .TI_RQ_STALE_CNT,
    .TI_RQ_UNEXP_CNT, .TN_CELLS_USED, .TN_LIVE_TAGS, .TN_LOG_ON, .TN_QUAR_TAGS, .TN_STALE_CNT])) [] (wardParts.append
    [.dirty, .keeper, .locReqs, .sheafAcc, .tags, .tens, .upd])) ∧
  (∀ a b, Frame (.completionTimeout a b) (chanFlds.append (replyFlds.append [.CT_TN_CTO, .KR_ACTIVE, .KR_FETCH_ERR,
    .KR_STOPPED, .TI_CELLS_USED, .TI_CONS_OUT, .TI_OUTSTANDING, .TI_QUARANTINED, .TI_READS_BLOCKED, .TI_RQ_CTO_CNT,
    .TI_RQ_SPEC_CNT, .TN_CELLS_USED, .TN_LIVE_TAGS, .TN_LOG_ON, .TN_QUAR_TAGS])) [] (wardParts.append [.dirty, .keeper,
    .locReqs, .sheafAcc, .tags, .tens, .upd])) ∧
  (∀ a b, Frame (.quarantineExpiry a b) [.TI_CELLS_USED, .TI_CONS_OUT, .TI_OUTSTANDING, .TI_QUARANTINED, .TI_READS_BLOCKED,
    .TN_CELLS_USED, .TN_LIVE_TAGS, .TN_QUAR_TAGS] [] [.tags]) ∧
  (∀ a b, Frame (.localMwr a b) (chanFlds.append (replyFlds.append [.CT_SD_LAG, .CT_TL_HUB_RX_BYTES, .CT_TL_HUB_TX_BYTES,
    .CT_WL_MALFORMED, .CT_WL_RX_BYTES, .CT_WL_RX_PKT, .CT_WL_WIN_MISS, .HL_DROP_CNT, .KR_ACTIVE, .KR_FETCH_ERR,
    .KR_STOPPED, .SH_EXCUSED, .SH_LAGGING, .SH_WAITING, .TI_RQ_SPEC_CNT, .TN_HELD, .TN_LOG_ON, .TN_NOREAD_CNT])) []
    (cutParts.append [.dests, .pktCount])) ∧
  (∀ a b, Frame (.sheafLagExceeded a b) (vecFlds.append [.CAD_STAMP_LO, .CT_SD_EPISODES, .CT_SD_LAG, .HL_DROP_CNT,
    .SH_LAGGING, .SH_SD_LAG, .SH_WAITING]) [] [.cad, .cfg, .dests, .heldCauses, .hls, .hostQ, .locReqs, .sheafAcc,
    .sheafPkts, .trace, .vecs, .wls]) ∧
  (∀ a b, Frame (.localMrd a b) (chanFlds.append (replyFlds.append [.CT_WL_MALFORMED, .CT_WL_RX_BYTES, .CT_WL_RX_PKT,
    .CT_WL_WIN_MISS, .HL_DROP_CNT, .KR_ACTIVE, .KR_FETCH_ERR, .KR_STOPPED, .SH_WAITING, .TI_RQ_SPEC_CNT, .TN_HELD,
    .TN_LOG_ON, .TN_NOREAD_CNT])) [] cutParts) ∧
  (∀ a b, Frame (.localAtom a b) (chanFlds.append (replyFlds.append [.CT_WL_MALFORMED, .CT_WL_RX_BYTES, .CT_WL_RX_PKT,
    .CT_WL_WIN_MISS, .HL_DROP_CNT, .KR_ACTIVE, .KR_FETCH_ERR, .KR_STOPPED, .TI_RQ_SPEC_CNT, .TN_HELD, .TN_LOG_ON,
    .TN_NOREAD_CNT])) [] (wardParts.append [.dirty, .keeper, .locReqs, .sheafAcc, .tags, .tens, .upd])) ∧
  (∀ a b, Frame (.localInterruptMsg a b) (wardFlds.append [.CT_WL_MALFORMED, .CT_WL_RX_BYTES, .CT_WL_RX_PKT,
    .CT_WL_WIN_MISS, .TN_HELD]) [] wardParts) ∧
  (∀ a b, Frame (.peerDoorbell a b) (wardFlds.append [.CT_WL_MALFORMED, .CT_WL_RX_BYTES, .CT_WL_RX_PKT, .CT_WL_WIN_MISS,
    .TN_HELD]) [] wardParts) ∧
  (∀ a b, Frame (.identReceived a b) (wardFlds.append [.CT_WL_MALFORMED, .CT_WL_RX_BYTES, .CT_WL_RX_PKT]) [] wardParts) ∧
  (∀ a b, Frame (.localResponse a b) (chanFlds.append [.CT_TL_HUB_RX_BYTES, .CT_TL_HUB_TX_BYTES, .CT_WL_LATE_RSP,
    .CT_WL_MALFORMED, .CT_WL_RX_BYTES, .CT_WL_RX_PKT, .CT_WL_UNEXP_RSP, .HL_DROP_CNT, .TN_STALE_CNT]) [] (downParts.append
    [.tens])) ∧
  (∀ a b, Frame (.lrspTimeout a b) chanFlds [] (downParts.append [.tens])) ∧
  (∀ a b, Frame (.channelDoorbell a b) (chanFlds.append [.CH_DB_IGNORED, .CH_DB_PENDING]) [] (wardParts.append [.tens])) ∧
  (∀ a b, Frame (.channelEnable a b) [.CH_CODE, .CH_EN, .CH_STATE] [] [.chans]) ∧
  (∀ a b, Frame (.channelDisable a b) [.CH_BYTES, .CH_CUR, .CH_DB_PENDING, .CH_DRAINING, .CH_EN, .CH_STATE] [] [.chans,
    .hostQ, .tens, .wls]) ∧
  (∀ a, Frame (.channelRetry a) (chanFlds.append [.CH_RETRY_CNT, .CT_TN_RETRIES]) [] wardParts) ∧
  (∀ a, Frame (.channelDrained a) [.CH_CODE, .CH_DRAINING, .CH_STATE] [] [.chans]) ∧
  (∀ a, Frame (.tenantResetComplete a) (replyFlds.append [.DEV_DIR_GEN, .DVSEC_DIR_GEN, .TN_STATE]) [] replyParts) ∧
  (∀ a, Frame (.tenantPendingDrained a) [.CAD_STAMP_LO, .DEV_DIR_GEN, .DVSEC_DIR_GEN, .HUB_CH_FREE, .HUB_CH_FREE_T,
    .HUB_CH_PENDING, .HUB_TN_CREATED, .HUB_TN_PENDING, .HUB_UNITS_FREE, .HUB_UNITS_FREE_T, .HUB_UNITS_PENDING,
    .HUB_VEC_FREE, .HUB_VEC_PENDING, .TI_UNITS_ALLOTTED] [.tenant] [.cad, .hls, .latches, .tens, .trace]) ∧
  (∀ a, Frame (.freezePoint a) (chanFlds.append (replyFlds.append [.CT_SD_LAG, .DEV_DIR_GEN, .DVSEC_DIR_GEN, .HL_DROP_CNT,
    .KR_ACTIVE, .KR_FETCH_ERR, .KR_STOPPED, .SH_EXCUSED, .SH_WAITING, .TI_RQ_SPEC_CNT, .TN_LOG_ON, .TN_STATE])) []
    cutParts) ∧
  (∀ a, Frame (.freezeQuiesced a) (replyFlds.append [.CH_CUR, .CH_RETRIES]) [] (replyParts.append [.chans, .tens])) ∧
  (∀ a, Frame (.harvestBoundary a) (replyFlds.append [.TN_LOG_ON]) [] (replyParts.append [.dirty, .logs])) ∧
  (∀ a, Frame (.harvestDone a) (replyFlds.append [.TN_LOG_ON]) [] (replyParts.append [.logs]))

/-- The frames of the events of the Weaseif lanes and links, of the Ward, the journal, the trace and the JTAG port:
the register fields, blocks and parts that each may move. -/
def Obligations.WeaseifAndObservationFrames : Prop :=
  (∀ a, Frame (.partnerClockStable a) (laneFlds.append [.WP_CK_DETECT, .WP_CK_FREQ_ERR, .WP_CK_LOCK, .WP_CLK_LOCK,
    .WP_STATE]) [] [.wps]) ∧
  (∀ a b, Frame (.ts2Exchanged a b) (downFlds.append (detectFlds.append [.WP_CK_DETECT, .WP_DOWNSHIFT, .WP_FAIL_CNT,
    .WP_LANE_EXCL, .WP_LANE_MAP, .WP_LOGICAL, .WP_PARTNER_PEER, .WP_PARTNER_RATES, .WP_ROLE, .WP_ROLE_CONFLICT, .WP_RX_INV,
    .WP_TRAIN_FAIL])) [] downParts) ∧
  (∀ a b c, Frame (.ts3Echoed a b c) [.WP_LANE_EXCL, .WP_STATE] [] [.wps]) ∧
  (∀ a, Frame (.switchDone a) [.WP_CUR_RATE, .WP_STATE] [] []) ∧
  (∀ a, Frame (.fastConfirmed a) (wardFlds.append (laneFlds.append [.WL_ACTIVE_SET, .WL_REPLAY, .WL_REPLAY_CNT,
    .WL_REPLAY_COUNT, .WP_ACTIVE_MASK, .WP_CK_LOCK, .WP_CLK_LOCK, .WP_CUR_RATE, .WP_LN_INJ_CNT, .WP_RATE_CHG, .WP_STATE,
    .WP_TRAIN_CNT])) [] wardParts) ∧
  (∀ a, Frame (.trainAttemptTimeout a) (downFlds.append (detectFlds.append [.WP_CK_DETECT, .WP_DOWNSHIFT, .WP_FAIL_CNT,
    .WP_TRAIN_FAIL])) [] downParts) ∧
  (∀ a, Frame (.partnerClockLost a) (downFlds.append (detectFlds.append [.WL_RETRAIN_CNT, .WP_CK_DETECT, .WP_CLKLOST_CNT,
    .WP_CLK_LOST, .WP_DOWNSHIFT, .WP_FAIL_CNT, .WP_TRAIN_FAIL])) [] downParts) ∧
  (∀ a, Frame (.phyRetrain a) (downFlds.append [.WL_RETRAIN_CNT, .WP_STATE]) [] downParts) ∧
  (∀ a, Frame (.partnerRetrain a) (downFlds.append [.WL_RETRAIN_CNT, .WP_STATE]) [] downParts) ∧
  (∀ a b c, Frame (.retrainDone a b c) (downFlds.append (detectFlds.append [.WL_REPLAY, .WL_REPLAY_CNT, .WL_REPLAY_COUNT,
    .WP_CK_DETECT, .WP_DOWNSHIFT, .WP_FAIL_CNT, .WP_LANE_EXCL, .WP_LN_INJ_CNT, .WP_RATE_CHG, .WP_TRAIN_CNT,
    .WP_TRAIN_FAIL])) [] downParts) ∧
  (∀ a b c, Frame (.wlaneDisableWrite a b c) (downFlds.append (detectFlds.append [.WP_CK_DETECT, .WP_DISABLE])) []
    downParts) ∧
  (∀ a b, Frame (.wlaneTrainWrite a b) (downFlds.append (detectFlds.append [.WP_CK_DETECT, .WP_DOWNSHIFT])) [] downParts) ∧
  (∀ a b c, Frame (.loopbackWrite a b c) (detectFlds.append [.WP_CK_DETECT, .WP_LB_REFUSED, .WP_LOOPBACK]) [] [.wps]) ∧
  (∀ a b c d e, Frame (.lanePrbsWrite a b c d e) [.WP_CHK, .WP_GEN, .WP_LN_BITS_CNT, .WP_LN_ERR_CNT, .WP_LSTATE,
    .WP_PRBS_PEND, .WP_PRBS_SYNC] [] [.wps]) ∧
  (∀ a b, Frame (.prbsSyncGain a b) [.WP_PRBS_SYNC] [] []) ∧
  (∀ a b c d, Frame (.prbsSyncLoss a b c d) [.WP_LN_BITS_CNT, .WP_LN_ERR_CNT, .WP_PRBS_SYNC] [] []) ∧
  (∀ a b c, Frame (.cntClr a b c) [.WP_LN_BITS_CNT, .WP_LN_ERR_CNT] [] []) ∧
  (∀ a b c, Frame (.injGo a b c) [.WP_LN_INJ_CNT] [] [.wps]) ∧
  (∀ a b c, Frame (.injStop a b c) [.WP_LN_INJ_CNT] [] [.wps]) ∧
  (∀ a, Frame (.alignmentBlockSend a) (laneFlds.append [.WL_NEXT_TX, .WL_RESHAPE_BUSY, .WL_TX_CNT, .WL_UNACKED,
    .WP_LN_INJ_CNT]) [] [.wls, .wps]) ∧
  (∀ a b, Frame (.alignmentBlockReceive a b) (downFlds.append [.WL_ACTIVE_SET, .WL_RESHAPE_CNT, .WL_RESHAPE_DONE,
    .WL_RETRAIN_CNT, .WP_ACTIVE_MASK, .WP_ALIGN_CNT, .WP_ALIGN_ERR, .WP_STATE]) [] downParts) ∧
  (∀ a b, Frame (.backgroundTrainPass a b) [.WL_NEXT_TX, .WL_TX_CNT, .WL_UNACKED, .WP_LN_INJ_CNT] [] [.wls, .wps]) ∧
  (∀ a, Frame (.ackSend a) [.WL_NEXT_TX, .WL_TX_CNT, .WL_UNACKED, .WP_LN_INJ_CNT] [] [.wls, .wps]) ∧
  (∀ a b, Frame (.backgroundTrainFail a b) (laneFlds.append [.CAD_STAMP_LO, .WL_ACTIVE_SET, .WL_NAK_CNT, .WL_NEXT_TX,
    .WL_RESHAPE_BUSY, .WL_RESHAPE_FAIL, .WL_TX_CNT, .WL_UNACKED, .WP_ACTIVE_MASK, .WP_BG_FAIL, .WP_LN_INJ_CNT]) [] [.cad,
    .trace, .wls, .wps]) ∧
  (∀ a b, Frame (.grainReceived a b) (downFlds.append (detectFlds.append [.WL_ACKOOW_CNT, .WL_ACK_OOW, .WL_AVAIL_C,
    .WL_AVAIL_N, .WL_AVAIL_P, .WL_CRC_CNT, .WL_CREDERR_CNT, .WL_CREDIT_ERR, .WL_DUP_CNT, .WL_ERR_CUR, .WL_ERR_LIMIT_HIT,
    .WL_FRAME_CNT, .WL_HALTRX_CNT, .WL_HALT_RX, .WL_INIT_FAIL, .WL_INJ_CNT, .WL_NAK_CNT, .WL_NEXT_RX, .WL_NEXT_TX,
    .WL_OLDEST, .WL_PARTNER_HEALTH, .WL_REPLAY, .WL_REPLAY_CNT, .WL_REPLAY_COUNT, .WL_RESHAPE_FAIL, .WL_RESUMED,
    .WL_RETURNED, .WL_RETURN_CNT, .WL_RX_CNT, .WL_SEQ_CNT, .WL_TX_CNT, .WL_TYPE_CNT, .WL_UNACKED, .WP_CK_DETECT,
    .WP_DOWNSHIFT, .WP_LN_INJ_CNT])) [] (downParts.append [.locReqs, .pktCount, .sheafPkts, .tags])) ∧
  (∀ a b c, Frame (.linkPacketSend a b c) (chanFlds.append [.CT_TL_HUB_RX_BYTES, .CT_TL_HUB_TX_BYTES, .CT_WL_TX_BYTES,
    .CT_WL_TX_PKT, .TN_BUCKET, .TN_CHARGED_CNT, .TN_HELD, .WL_AVAIL_C, .WL_AVAIL_N, .WL_AVAIL_P, .WL_NEXT_TX, .WL_TX_CNT,
    .WL_UNACKED, .WP_LN_INJ_CNT]) [] (downParts.append [.tens])) ∧
  (∀ a, Frame (.replayTimeout a) (downFlds.append (detectFlds.append [.WL_REPLAY, .WL_REPLAY_CNT, .WL_REPLAY_COUNT,
    .WL_RETRAIN_CNT, .WL_RETRAIN_REQ, .WP_CK_DETECT, .WP_LN_INJ_CNT])) [] downParts) ∧
  (∀ a b, Frame (.initReceived a b) (downFlds.append (detectFlds.append [.WL_AVAIL_C, .WL_AVAIL_N, .WL_AVAIL_P,
    .WL_INIT_FAIL, .WL_NEXT_RX, .WL_NEXT_TX, .WL_OLDEST, .WL_REPLAY, .WL_REPLAY_CNT, .WL_REPLAY_COUNT, .WL_RESUMED,
    .WL_RETURNED, .WL_RETURN_CNT, .WL_TX_CNT, .WL_UNACKED, .WP_CK_DETECT, .WP_DOWNSHIFT, .WP_LN_INJ_CNT])) []
    (downParts.append [.locReqs, .pktCount, .sheafPkts, .tags])) ∧
  (∀ a, Frame (.initTimeout a) (wardFlds.append [.WL_INIT_FAIL]) [] wardParts) ∧
  (∀ a, Frame (.graceExpiry a) (chanFlds.append [.CT_TL_HUB_RX_BYTES, .CT_TL_HUB_TX_BYTES, .HL_DROP_CNT, .TN_STALE_CNT,
    .WL_FLUSHED, .WL_FLUSHPKT_CNT, .WP_LN_INJ_CNT]) [] downParts) ∧
  (∀ a b, Frame (.wlLinkResetWrite a b) (chanFlds.append (detectFlds.append [.CT_TL_HUB_RX_BYTES, .CT_TL_HUB_TX_BYTES,
    .HL_DROP_CNT, .TN_STALE_CNT, .WL_FLUSHED, .WL_FLUSHPKT_CNT, .WL_OLDEST, .WL_REPLAY_COUNT, .WL_RESHAPE_BUSY,
    .WL_UNACKED, .WP_CK_DETECT, .WP_DOWNSHIFT])) [] downParts) ∧
  (∀ a, Frame (.haltReceived a) (chanFlds.append (laneFlds.append [.CT_TL_HUB_RX_BYTES, .CT_TL_HUB_TX_BYTES, .HL_DROP_CNT,
    .TN_STALE_CNT, .WL_FLUSHED, .WL_FLUSHPKT_CNT, .WL_HALTRX_CNT, .WL_HALT_RX, .WL_RESHAPE_BUSY])) [] downParts) ∧
  (∀ a b c, Frame (.reshapeGoWrite a b c) [.CAD_STAMP_LO, .WL_NEXT_TX, .WL_RESHAPE_BUSY, .WL_RESHAPE_FAIL, .WL_RESHAPE_SET,
    .WL_TX_CNT, .WL_UNACKED, .WP_LN_INJ_CNT] [] [.cad, .trace, .wls, .wps]) ∧
  (∀ a b c, Frame (.laneReq a b c) (laneFlds.append [.CAD_STAMP_LO, .WL_ACTIVE_SET, .WL_NAK_CNT, .WL_NEXT_TX,
    .WL_RESHAPE_BUSY, .WL_RESHAPE_FAIL, .WL_TX_CNT, .WL_UNACKED, .WP_ACTIVE_MASK, .WP_LN_INJ_CNT]) [] [.cad, .trace, .wls,
    .wps]) ∧
  (∀ a b, Frame (.laneAck a b) (laneFlds.append [.WL_NAK_CNT, .WL_NEXT_TX, .WL_TX_CNT, .WL_UNACKED, .WP_LN_INJ_CNT]) []
    [.wls, .wps]) ∧
  (∀ a b c, Frame (.laneNak a b c) (laneFlds.append [.CAD_STAMP_LO, .WL_ACTIVE_SET, .WL_NAK_CNT, .WL_RESHAPE_BUSY,
    .WL_RESHAPE_FAIL, .WP_ACTIVE_MASK]) [] [.cad, .trace, .wls, .wps]) ∧
  (∀ a b, Frame (.laneReady a b) [] [] [.wls]) ∧
  (∀ a, Frame (.reshapeTimeout a) (laneFlds.append [.CAD_STAMP_LO, .WL_ACTIVE_SET, .WL_RESHAPE_BUSY, .WL_RESHAPE_FAIL,
    .WP_ACTIVE_MASK]) [] [.cad, .trace, .wls, .wps]) ∧
  (∀ a, Frame (.errorLineEvent a) (wardFlds.append (replyFlds.append [.KP_SLOW_CNT, .TN_LOG_ON, .WD_SELFTEST_OK])) []
    (wardParts.append [.dirty, .keeper, .upd])) ∧
  (Frame .faultMinwExpiry [.WD_MINW_RUN] [] []) ∧
  (∀ a, Frame (.faultInEvent a) (wardFlds.append [.WD_FAULTIN_CNT, .WD_FIN_LEVEL]) [] (wardParts.append [.pins])) ∧
  (Frame .journalAppend [.CAD_STAMP_LO, .WD_JR_APPEND_CNT, .WD_JR_FREE, .WD_JR_LOST_CNT, .WD_JR_NEWEST, .WD_JR_OLDEST,
    .WD_JR_QUEUED] [] [.cad, .journal]) ∧
  (Frame .journalEraseDone (wardFlds.append [.WD_JR_OLDEST]) [] wardParts) ∧
  (∀ a, Frame (.traceRecordAppend a) [.CAD_STAMP_LO, .TR_DROP_CNT, .TR_NEXT, .TR_OLDEST, .TR_STOPPED] [] [.cad, .trace]) ∧
  (Frame .streamBatchWrite [.CAD_STAMP_LO, .TR_STREAM_CNT, .TR_STREAM_PAUSED] [] [.cad, .hostQ, .trace]) ∧
  (Frame .streamResume [.CAD_STAMP_LO, .TR_STREAM_CNT, .TR_STREAM_PAUSED] [] [.cad, .hostQ, .trace]) ∧
  (∀ a, Frame (.jtagTracePtr a) [] [] [.pins, .trace]) ∧
  (Frame .jtagTraceData [] [] [.pins, .trace]) ∧
  (Frame .jtagIdcode [] [] [.pins]) ∧
  (∀ a, Frame (.jtagSamplePreload a) [] [] [.pins]) ∧
  (∀ a, Frame (.jtagPadDrive a) [] [] [.pins]) ∧
  (∀ a b, Frame (.replayLimitZeroWrite a b) [.WL_CFG_REFUSED] [] [])

/-- A command acts on the instance that it names and on no other: the other lanes, links, rings, channels, vectors
and functions keep what they hold. -/
def Obligations.OtherInstancesKept : Prop :=
  (∀ (fn : Fn) (wl : Wl) (lane gen chk : Fin 4) (bits errors : Nat) (c : Instr) (s t : State),
    c ∈ [.cntClr fn wl lane, .injGo fn wl lane, .injStop fn wl lane, .prbsSyncGain wl lane, .prbsSyncLoss wl lane bits errors,
      .lanePrbsWrite fn wl lane gen chk] → exec c s = .next t →
    (∀ f i j, (i ≠ wl.val ∨ j ≠ lane.val) → t.rd f i j = s.rd f i j) ∧ (∀ n, n ≠ wl.val → t.wp n = s.wp n)) ∧
  (∀ (fn : Fn) (wl : Wl) (lane rate : Fin 4) (set : Fin 16) (id : Fin 256) (reason errors skew : Nat) (c : Instr) (s t : State),
    (c ∈ [.partnerClockStable wl, .ts3Echoed wl rate set, .switchDone wl, .loopbackWrite fn wl rate,
      .alignmentBlockSend wl, .backgroundTrainPass wl ⟨lane, errors, skew⟩, .backgroundTrainFail wl lane, .ackSend wl,
      .reshapeGoWrite fn wl set, .laneReq wl id set, .laneAck wl id, .laneNak wl id reason, .laneReady wl id,
      .reshapeTimeout wl, .replayLimitZeroWrite fn wl] ∨
      (c = .fastConfirmed wl ∧ (s.rd .WL_LSTATE wl ≠ 3 ∨ Calm s wl 2))) → exec c s = .next t →
    (∀ f i j, (f.info.blk = .wlane ∨ f.info.blk = .weaseif) → i ≠ wl.val → t.rd f i j = s.rd f i j) ∧
    (∀ n, n ≠ wl.val → t.wl n = s.wl n ∧ t.wp n = s.wp n)) ∧
  (∀ (fn : Fn) (v : BitVec 16) (en : Bool) (c : Instr) (s t : State),
    c ∈ [.cmdPiWrite fn v, .rplCiWrite fn v, .ringEnWrite fn en] → exec c s = .next t →
    ∀ f i j, f ≠ .KR_KEEPER_WAIT → i ≠ fnIdx fn → t.rd f i j = s.rd f i j) ∧
  (∀ (fn : Fn) (ch : Chan) (v : BitVec 24) (c : Instr) (s t : State),
    c ∈ [.channelEnable fn ch, .channelDrained ch, .chIrqEnableWrite fn ch v] → exec c s = .next t →
    ∀ f i j, f.info.blk = .channel → i ≠ ch.val → t.rd f i j = s.rd f i j) ∧
  (∀ (fn : Fn) (v : Fin 128) (ticks : Fin 256) (s t : State), exec (.modTicksWrite fn v ticks) s = .next t →
    ∀ i j, (i ≠ fnIdx fn ∨ j ≠ v.val) → t.rd .FI_MOD_TICKS i j = s.rd .FI_MOD_TICKS i j) ∧
  (∀ (fn : Fn) (v : BitVec 14) (s t : State), exec (.fnEventEnWrite fn v) s = .next t →
    ∀ i j, i ≠ fnIdx fn → t.rd .FI_FN_EVENT_EN i j = s.rd .FI_FN_EVENT_EN i j) ∧
  (∀ (fn : Fn) (v : Fin 128) (s t : State), exec (.msixUnmask fn v) s = .next t →
    ∀ i j, (i ≠ fnIdx fn ∨ j ≠ v.val) → t.vec i j = s.vec i j) ∧
  (∀ (hl : Hl) (v : Fin 64) (s t : State), exec (.rebarSizeWrite hl v) s = .next t →
    ∀ k, k ≠ pfIdx hl → t.cf k = s.cf k)
end

