-- ==== Sys2Proof/Laws/Moves.lean ====
section
/-!
SUPPORT. What an operation may do to the state, said once: `Moves m s t` says that `t` comes from `s` by changes of the
register fields and parts that the mask `m` names, with the queue of commands untouched, what was sent kept, the
register table in form, and the fuses as they were.
-/
namespace Sys2Proof.Machine

/-- The bit of a part in a mask. -/
def Part.bit (p : Part) : Nat := 2 ^ p.ctorIdx

theorem Part.same_refl (p : Part) (s : State) : p.same s s := by cases p <;> rfl

theorem Part.same_trans (p : Part) {s t u : State} (h : p.same s t) (h' : p.same t u) : p.same s u := by
  cases p <;> exact Eq.trans h' h

end Sys2Proof.Machine

namespace Sys2Proof.Laws
open Sys2Proof.Machine

/-- The bit number of a register field. -/
def fbit (f : Fld) : Nat := 32 + f.ctorIdx
/-- The mask of one register field. -/
def fm (f : Fld) : Nat := 2 ^ fbit f
/-- The mask of a list of register fields. -/
def fms : List Fld → Nat
  | [] => 0
  | f :: l => fm f ||| fms l
/-- The mask of a list of parts. -/
def pms : List Part → Nat
  | [] => 0
  | p :: l => p.bit ||| pms l

/-- Every bit of `a` is in `m`. -/
def Within (a m : Nat) : Prop := a &&& m = a

theorem within_or {a b m : Nat} : Within (a ||| b) m ↔ Within a m ∧ Within b m := by
  simp only [Within]
  constructor
  · intro h
    constructor <;> apply Nat.eq_of_testBit_eq <;> intro i <;> have := congrArg (fun x => x.testBit i) h <;>
      simp only [Nat.testBit_and, Nat.testBit_or] at this ⊢ <;>
      cases ha : a.testBit i <;> cases hb : b.testBit i <;> cases hm : m.testBit i <;> simp_all
  · rintro ⟨ha, hb⟩
    rw [Nat.and_or_distrib_right, ha, hb]

theorem within_self (a : Nat) : Within a a := Nat.and_self a

theorem within_zero {m : Nat} : Within 0 m := Nat.zero_and m

theorem within_trans {a b c : Nat} (h : Within a b) (h' : Within b c) : Within a c := by
  simp only [Within] at *
  rw [← h, Nat.and_assoc, h']

theorem testBit_of_within {n m : Nat} (h : Within (2 ^ n) m) : m.testBit n = true := by
  have := congrArg (fun x => x.testBit n) h
  simpa [Nat.testBit_and, Nat.testBit_two_pow] using this

/-- `t` comes from `s` by changes of what the mask `m` names. -/
structure Moves (m : Nat) (s t : State) : Prop where
  queue : t.pending = s.pending
  sent : s.out <+: t.out
  count : s.free ≤ t.free
  table : RegsOk s.regs → RegsOk t.regs
  stamp : s.cad.stamp < 2 ^ 64 → t.cad.stamp < 2 ^ 64
  fuses : FusesKept s.upd t.upd
  reg : ∀ f i j, m.testBit (fbit f) = false → t.rd f i j = s.rd f i j
  part : ∀ p : Part, m.testBit p.ctorIdx = false → p.same s t

/-- A command that answers a next state answers one that comes from `r` so. -/
def Goes (m : Nat) (r : State) (x : Res) : Prop := ∀ t, x = .next t → Moves m r t

theorem fuses_refl (u : UpdS) : FusesKept u u := ⟨rfl, rfl, rfl, rfl, Nat.le_refl _⟩

theorem fuses_trans {u v w : UpdS} (h : FusesKept u v) (h' : FusesKept v w) : FusesKept u w :=
  ⟨h'.1.trans h.1, h'.2.1.trans h.2.1, h'.2.2.1.trans h.2.2.1, h'.2.2.2.1.trans h.2.2.2.1,
    h.2.2.2.2.trans h'.2.2.2.2⟩

theorem Moves.refl (m : Nat) (s : State) : Moves m s s :=
  ⟨rfl, List.prefix_rfl, Nat.le_refl _, id, id, fuses_refl _, fun _ _ _ _ => rfl, fun p _ => p.same_refl s⟩

theorem Moves.trans {m : Nat} {s t u : State} (h : Moves m s t) (h' : Moves m t u) : Moves m s u :=
  ⟨h'.queue.trans h.queue, h.sent.trans h'.sent, h.count.trans h'.count, fun x => h'.table (h.table x),
    fun x => h'.stamp (h.stamp x), fuses_trans h.fuses h'.fuses, fun f i j x => (h'.reg f i j x).trans (h.reg f i j x),
    fun p x => p.same_trans (h.part p x) (h'.part p x)⟩

theorem goes_next {m : Nat} {r s : State} (h : Moves m r s) : Goes m r (.next s) := by
  intro t ht
  cases ht
  exact h

theorem goes_fault {m : Nat} {r : State} (e : Fault) : Goes m r (.fault e) := by intro t ht; cases ht

/-! ### One part -/

/-- A change of one part. -/
theorem Moves.one {m : Nat} {r s t : State} (p : Part) (hm : Within p.bit m) (h : Moves m r s)
    (hq : t.pending = s.pending) (ho : t.out = s.out) (hf : t.free = s.free) (hr : t.regs = s.regs)
    (hc : s.cad.stamp < 2 ^ 64 → t.cad.stamp < 2 ^ 64) (hu : FusesKept s.upd t.upd)
    (hp : ∀ q, q ≠ p → q.same s t) : Moves m r t := by
  refine h.trans ⟨hq, by rw [ho], by rw [hf], by rw [hr]; exact id, hc, hu, ?_, ?_⟩
  · intro f i j _
    simp only [State.rd, hr]
  · intro q hq
    refine hp q ?_
    rintro rfl
    simp only [Part.bit] at hm
    rw [testBit_of_within hm] at hq
    cases hq

theorem moves_part_cfg {m : Nat} {r s : State} {x} (h : Moves m r s) (hm : Within Part.cfg.bit m) :
    Moves m r { s with cfg := x } :=
  h.one .cfg hm rfl rfl rfl rfl id (fuses_refl _) (fun q hq => by cases q <;> first | rfl | exact absurd rfl hq)
theorem moves_part_vecs {m : Nat} {r s : State} {x} (h : Moves m r s) (hm : Within Part.vecs.bit m) :
    Moves m r { s with vecs := x } :=
  h.one .vecs hm rfl rfl rfl rfl id (fuses_refl _) (fun q hq => by cases q <;> first | rfl | exact absurd rfl hq)
theorem moves_part_heldCauses {m : Nat} {r s : State} {x} (h : Moves m r s) (hm : Within Part.heldCauses.bit m) :
    Moves m r { s with heldCauses := x } :=
  h.one .heldCauses hm rfl rfl rfl rfl id (fuses_refl _) (fun q hq => by cases q <;> first | rfl | exact absurd rfl hq)
theorem moves_part_trace {m : Nat} {r s : State} {x} (h : Moves m r s) (hm : Within Part.trace.bit m) :
    Moves m r { s with trace := x } :=
  h.one .trace hm rfl rfl rfl rfl id (fuses_refl _) (fun q hq => by cases q <;> first | rfl | exact absurd rfl hq)
theorem moves_part_journal {m : Nat} {r s : State} {x} (h : Moves m r s) (hm : Within Part.journal.bit m) :
    Moves m r { s with journal := x } :=
  h.one .journal hm rfl rfl rfl rfl id (fuses_refl _) (fun q hq => by cases q <;> first | rfl | exact absurd rfl hq)
theorem moves_part_doms {m : Nat} {r s : State} {x} (h : Moves m r s) (hm : Within Part.doms.bit m) :
    Moves m r { s with doms := x } :=
  h.one .doms hm rfl rfl rfl rfl id (fuses_refl _) (fun q hq => by cases q <;> first | rfl | exact absurd rfl hq)
theorem moves_part_clocks {m : Nat} {r s : State} {x} (h : Moves m r s) (hm : Within Part.clocks.bit m) :
    Moves m r { s with clocks := x } :=
  h.one .clocks hm rfl rfl rfl rfl id (fuses_refl _) (fun q hq => by cases q <;> first | rfl | exact absurd rfl hq)
theorem moves_part_pins {m : Nat} {r s : State} {x} (h : Moves m r s) (hm : Within Part.pins.bit m) :
    Moves m r { s with pins := x } :=
  h.one .pins hm rfl rfl rfl rfl id (fuses_refl _) (fun q hq => by cases q <;> first | rfl | exact absurd rfl hq)
theorem moves_part_hls {m : Nat} {r s : State} {x} (h : Moves m r s) (hm : Within Part.hls.bit m) :
    Moves m r { s with hls := x } :=
  h.one .hls hm rfl rfl rfl rfl id (fuses_refl _) (fun q hq => by cases q <;> first | rfl | exact absurd rfl hq)
theorem moves_part_hostQ {m : Nat} {r s : State} {x} (h : Moves m r s) (hm : Within Part.hostQ.bit m) :
    Moves m r { s with hostQ := x } :=
  h.one .hostQ hm rfl rfl rfl rfl id (fuses_refl _) (fun q hq => by cases q <;> first | rfl | exact absurd rfl hq)
theorem moves_part_tags {m : Nat} {r s : State} {x} (h : Moves m r s) (hm : Within Part.tags.bit m) :
    Moves m r { s with tags := x } :=
  h.one .tags hm rfl rfl rfl rfl id (fuses_refl _) (fun q hq => by cases q <;> first | rfl | exact absurd rfl hq)
theorem moves_part_locReqs {m : Nat} {r s : State} {x} (h : Moves m r s) (hm : Within Part.locReqs.bit m) :
    Moves m r { s with locReqs := x } :=
  h.one .locReqs hm rfl rfl rfl rfl id (fuses_refl _) (fun q hq => by cases q <;> first | rfl | exact absurd rfl hq)
theorem moves_part_wls {m : Nat} {r s : State} {x} (h : Moves m r s) (hm : Within Part.wls.bit m) :
    Moves m r { s with wls := x } :=
  h.one .wls hm rfl rfl rfl rfl id (fuses_refl _) (fun q hq => by cases q <;> first | rfl | exact absurd rfl hq)
theorem moves_part_wps {m : Nat} {r s : State} {x} (h : Moves m r s) (hm : Within Part.wps.bit m) :
    Moves m r { s with wps := x } :=
  h.one .wps hm rfl rfl rfl rfl id (fuses_refl _) (fun q hq => by cases q <;> first | rfl | exact absurd rfl hq)
theorem moves_part_inRds {m : Nat} {r s : State} {x} (h : Moves m r s) (hm : Within Part.inRds.bit m) :
    Moves m r { s with inRds := x } :=
  h.one .inRds hm rfl rfl rfl rfl id (fuses_refl _) (fun q hq => by cases q <;> first | rfl | exact absurd rfl hq)
theorem moves_part_sheafPkts {m : Nat} {r s : State} {x} (h : Moves m r s) (hm : Within Part.sheafPkts.bit m) :
    Moves m r { s with sheafPkts := x } :=
  h.one .sheafPkts hm rfl rfl rfl rfl id (fuses_refl _) (fun q hq => by cases q <;> first | rfl | exact absurd rfl hq)
theorem moves_part_pktCount {m : Nat} {r s : State} {x} (h : Moves m r s) (hm : Within Part.pktCount.bit m) :
    Moves m r { s with pktCount := x } :=
  h.one .pktCount hm rfl rfl rfl rfl id (fuses_refl _) (fun q hq => by cases q <;> first | rfl | exact absurd rfl hq)
theorem moves_part_dests {m : Nat} {r s : State} {x} (h : Moves m r s) (hm : Within Part.dests.bit m) :
    Moves m r { s with dests := x } :=
  h.one .dests hm rfl rfl rfl rfl id (fuses_refl _) (fun q hq => by cases q <;> first | rfl | exact absurd rfl hq)
theorem moves_part_sheafAcc {m : Nat} {r s : State} {x} (h : Moves m r s) (hm : Within Part.sheafAcc.bit m) :
    Moves m r { s with sheafAcc := x } :=
  h.one .sheafAcc hm rfl rfl rfl rfl id (fuses_refl _) (fun q hq => by cases q <;> first | rfl | exact absurd rfl hq)
theorem moves_part_consLast {m : Nat} {r s : State} {x} (h : Moves m r s) (hm : Within Part.consLast.bit m) :
    Moves m r { s with consLast := x } :=
  h.one .consLast hm rfl rfl rfl rfl id (fuses_refl _) (fun q hq => by cases q <;> first | rfl | exact absurd rfl hq)
theorem moves_part_chans {m : Nat} {r s : State} {x} (h : Moves m r s) (hm : Within Part.chans.bit m) :
    Moves m r { s with chans := x } :=
  h.one .chans hm rfl rfl rfl rfl id (fuses_refl _) (fun q hq => by cases q <;> first | rfl | exact absurd rfl hq)
theorem moves_part_tens {m : Nat} {r s : State} {x} (h : Moves m r s) (hm : Within Part.tens.bit m) :
    Moves m r { s with tens := x } :=
  h.one .tens hm rfl rfl rfl rfl id (fuses_refl _) (fun q hq => by cases q <;> first | rfl | exact absurd rfl hq)
theorem moves_part_logs {m : Nat} {r s : State} {x} (h : Moves m r s) (hm : Within Part.logs.bit m) :
    Moves m r { s with logs := x } :=
  h.one .logs hm rfl rfl rfl rfl id (fuses_refl _) (fun q hq => by cases q <;> first | rfl | exact absurd rfl hq)
theorem moves_part_dirty {m : Nat} {r s : State} {x} (h : Moves m r s) (hm : Within Part.dirty.bit m) :
    Moves m r { s with dirty := x } :=
  h.one .dirty hm rfl rfl rfl rfl id (fuses_refl _) (fun q hq => by cases q <;> first | rfl | exact absurd rfl hq)
theorem moves_part_keeper {m : Nat} {r s : State} {x} (h : Moves m r s) (hm : Within Part.keeper.bit m) :
    Moves m r { s with keeper := x } :=
  h.one .keeper hm rfl rfl rfl rfl id (fuses_refl _) (fun q hq => by cases q <;> first | rfl | exact absurd rfl hq)
theorem moves_part_store {m : Nat} {r s : State} {x} (h : Moves m r s) (hm : Within Part.store.bit m) :
    Moves m r { s with store := x } :=
  h.one .store hm rfl rfl rfl rfl id (fuses_refl _) (fun q hq => by cases q <;> first | rfl | exact absurd rfl hq)
theorem moves_part_latches {m : Nat} {r s : State} {x} (h : Moves m r s) (hm : Within Part.latches.bit m) :
    Moves m r { s with latches := x } :=
  h.one .latches hm rfl rfl rfl rfl id (fuses_refl _) (fun q hq => by cases q <;> first | rfl | exact absurd rfl hq)
theorem moves_part_cad {m : Nat} {r s : State} {x} (hs : x.stamp = s.cad.stamp ∨ x.stamp < 2 ^ 64) (h : Moves m r s)
    (hm : Within Part.cad.bit m) : Moves m r { s with cad := x } :=
  h.one .cad hm rfl rfl rfl rfl (fun hc => hs.elim (fun e => e ▸ hc) id) (fuses_refl _) (fun q hq => by cases q <;> first | rfl | exact absurd rfl hq)
theorem moves_part_upd {m : Nat} {r s : State} {x} (hs : FusesKept s.upd x) (h : Moves m r s)
    (hm : Within Part.upd.bit m) : Moves m r { s with upd := x } :=
  h.one .upd hm rfl rfl rfl rfl id hs (fun q hq => by cases q <;> first | rfl | exact absurd rfl hq)

/-- A change of several parts at once. -/
theorem moves_parts {m : Nat} {r s : State} {x_latches x_cfg x_vecs x_heldCauses x_trace x_journal x_doms x_clocks
    x_pins x_hls x_hostQ x_tags x_locReqs x_wls x_wps x_inRds x_sheafPkts x_pktCount x_dests x_sheafAcc x_consLast
    x_chans x_tens x_logs x_dirty x_keeper x_store} (h : Moves m r s)
    (h_latches : x_latches = s.latches ∨ Within Part.latches.bit m)
    (h_cfg : x_cfg = s.cfg ∨ Within Part.cfg.bit m)
    (h_vecs : x_vecs = s.vecs ∨ Within Part.vecs.bit m)
    (h_heldCauses : x_heldCauses = s.heldCauses ∨ Within Part.heldCauses.bit m)
    (h_trace : x_trace = s.trace ∨ Within Part.trace.bit m)
    (h_journal : x_journal = s.journal ∨ Within Part.journal.bit m)
    (h_doms : x_doms = s.doms ∨ Within Part.doms.bit m)
    (h_clocks : x_clocks = s.clocks ∨ Within Part.clocks.bit m)
    (h_pins : x_pins = s.pins ∨ Within Part.pins.bit m)
    (h_hls : x_hls = s.hls ∨ Within Part.hls.bit m)
    (h_hostQ : x_hostQ = s.hostQ ∨ Within Part.hostQ.bit m)
    (h_tags : x_tags = s.tags ∨ Within Part.tags.bit m)
    (h_locReqs : x_locReqs = s.locReqs ∨ Within Part.locReqs.bit m)
    (h_wls : x_wls = s.wls ∨ Within Part.wls.bit m)
    (h_wps : x_wps = s.wps ∨ Within Part.wps.bit m)
    (h_inRds : x_inRds = s.inRds ∨ Within Part.inRds.bit m)
    (h_sheafPkts : x_sheafPkts = s.sheafPkts ∨ Within Part.sheafPkts.bit m)
    (h_pktCount : x_pktCount = s.pktCount ∨ Within Part.pktCount.bit m)
    (h_dests : x_dests = s.dests ∨ Within Part.dests.bit m)
    (h_sheafAcc : x_sheafAcc = s.sheafAcc ∨ Within Part.sheafAcc.bit m)
    (h_consLast : x_consLast = s.consLast ∨ Within Part.consLast.bit m)
    (h_chans : x_chans = s.chans ∨ Within Part.chans.bit m)
    (h_tens : x_tens = s.tens ∨ Within Part.tens.bit m)
    (h_logs : x_logs = s.logs ∨ Within Part.logs.bit m)
    (h_dirty : x_dirty = s.dirty ∨ Within Part.dirty.bit m)
    (h_keeper : x_keeper = s.keeper ∨ Within Part.keeper.bit m)
    (h_store : x_store = s.store ∨ Within Part.store.bit m) :
    Moves m r { s with
      latches := x_latches, cfg := x_cfg, vecs := x_vecs, heldCauses := x_heldCauses, trace :=
      x_trace, journal := x_journal, doms := x_doms, clocks := x_clocks, pins := x_pins, hls := x_hls, hostQ :=
      x_hostQ, tags := x_tags, locReqs := x_locReqs, wls := x_wls, wps := x_wps, inRds := x_inRds, sheafPkts :=
      x_sheafPkts, pktCount := x_pktCount, dests := x_dests, sheafAcc := x_sheafAcc, consLast := x_consLast, chans :=
      x_chans, tens := x_tens, logs := x_logs, dirty := x_dirty, keeper := x_keeper, store := x_store } := by
  refine h.trans ⟨rfl, List.prefix_rfl, Nat.le_refl _, id, id, fuses_refl _, fun _ _ _ _ => rfl, ?_⟩
  intro p hp
  have key : ∀ {q : Part}, m.testBit q.ctorIdx = false → ¬ Within q.bit m := fun hq hw => by
    rw [testBit_of_within hw] at hq
    cases hq
  cases p
  case latches => exact h_latches.resolve_right (key (q := .latches) hp)
  case cfg => exact h_cfg.resolve_right (key (q := .cfg) hp)
  case vecs => exact h_vecs.resolve_right (key (q := .vecs) hp)
  case heldCauses => exact h_heldCauses.resolve_right (key (q := .heldCauses) hp)
  case trace => exact h_trace.resolve_right (key (q := .trace) hp)
  case journal => exact h_journal.resolve_right (key (q := .journal) hp)
  case cad => exact rfl
  case doms => exact h_doms.resolve_right (key (q := .doms) hp)
  case clocks => exact h_clocks.resolve_right (key (q := .clocks) hp)
  case pins => exact h_pins.resolve_right (key (q := .pins) hp)
  case hls => exact h_hls.resolve_right (key (q := .hls) hp)
  case hostQ => exact h_hostQ.resolve_right (key (q := .hostQ) hp)
  case tags => exact h_tags.resolve_right (key (q := .tags) hp)
  case locReqs => exact h_locReqs.resolve_right (key (q := .locReqs) hp)
  case wls => exact h_wls.resolve_right (key (q := .wls) hp)
  case wps => exact h_wps.resolve_right (key (q := .wps) hp)
  case inRds => exact h_inRds.resolve_right (key (q := .inRds) hp)
  case sheafPkts => exact h_sheafPkts.resolve_right (key (q := .sheafPkts) hp)
  case pktCount => exact h_pktCount.resolve_right (key (q := .pktCount) hp)
  case dests => exact h_dests.resolve_right (key (q := .dests) hp)
  case sheafAcc => exact h_sheafAcc.resolve_right (key (q := .sheafAcc) hp)
  case consLast => exact h_consLast.resolve_right (key (q := .consLast) hp)
  case chans => exact h_chans.resolve_right (key (q := .chans) hp)
  case tens => exact h_tens.resolve_right (key (q := .tens) hp)
  case logs => exact h_logs.resolve_right (key (q := .logs) hp)
  case dirty => exact h_dirty.resolve_right (key (q := .dirty) hp)
  case keeper => exact h_keeper.resolve_right (key (q := .keeper) hp)
  case store => exact h_store.resolve_right (key (q := .store) hp)
  case upd => exact rfl

end Sys2Proof.Laws
end

