-- ==== Sys2Proof/Laws/Regs.lean ====
section
/-!
SUPPORT. The register file: what a write changes and what it leaves, and that it keeps the table in its canonical form.
-/
namespace Sys2Proof.Laws
open Sys2Proof.Machine

theorem fld_ctorIdx_inj {f g : Fld} (h : f.ctorIdx = g.ctorIdx) : f = g := by
  rw [← Fld.ofNat_ctorIdx f, ← Fld.ofNat_ctorIdx g, h]

theorem regKey_lt_iff {a b : RegKey} : a.lt b = true ↔
    a.f.ctorIdx < b.f.ctorIdx ∨ (a.f.ctorIdx = b.f.ctorIdx ∧ (a.i < b.i ∨ (a.i = b.i ∧ a.j < b.j))) := by
  simp [RegKey.lt]

theorem regKey_lt_trans {a b c : RegKey} (h : a.lt b = true) (h' : b.lt c = true) : a.lt c = true := by
  rw [regKey_lt_iff] at *
  omega

theorem regKey_ne_of_lt {a b : RegKey} (h : a.lt b = true) : a ≠ b := by
  rintro rfl
  rw [regKey_lt_iff] at h
  omega

theorem regKey_lt_of_not {a b : RegKey} (hn : a ≠ b) (h : ¬ a.lt b = true) : b.lt a = true := by
  rw [regKey_lt_iff] at *
  have : ¬ (a.f.ctorIdx = b.f.ctorIdx ∧ a.i = b.i ∧ a.j = b.j) := by
    rintro ⟨hf, hi, hj⟩
    apply hn
    obtain ⟨f, i, j⟩ := a
    obtain ⟨g, k, l⟩ := b
    obtain rfl := fld_ctorIdx_inj hf
    obtain rfl : i = k := hi
    obtain rfl : j = l := hj
    rfl
  omega

/-! ### Reading after writing -/

theorem rget_rdel_ne {r : Regs} {k k' : RegKey} (h : k' ≠ k) : rget (rdel r k) k' = rget r k' := by
  induction r with
  | nil => rfl
  | cons e t ih =>
    obtain ⟨a, v⟩ := e
    simp only [rdel, List.filter_cons] at ih ⊢
    by_cases ha : a = k
    · subst ha
      simpa [rget, Ne.symm h] using ih
    · simp only [ha, decide_false, Bool.not_false, if_true, rget, ih]

theorem rget_rdel_same {r : Regs} {k : RegKey} : rget (rdel r k) k = none := by
  induction r with
  | nil => rfl
  | cons e t ih =>
    obtain ⟨a, v⟩ := e
    simp only [rdel, List.filter_cons] at ih ⊢
    by_cases ha : a = k
    · simpa [ha] using ih
    · simp only [ha, decide_false, Bool.not_false, if_true, rget, if_false, ih]

theorem rget_rput_same {r : Regs} {k : RegKey} {v : Nat} : rget (rput r k v) k = some v := by
  induction r with
  | nil => simp [rput, rget]
  | cons e t ih =>
    obtain ⟨a, w⟩ := e
    simp only [rput]
    split
    · simp [rget]
    · split
      · simp [rget]
      · rename_i h _
        simpa [rget, h] using ih

theorem rget_rput_ne {r : Regs} {k k' : RegKey} {v : Nat} (h : k' ≠ k) : rget (rput r k v) k' = rget r k' := by
  induction r with
  | nil => simp [rput, rget, Ne.symm h]
  | cons e t ih =>
    obtain ⟨a, w⟩ := e
    simp only [rput]
    split
    · rename_i ha
      subst ha
      simp [rget, Ne.symm h]
    · split
      · simp [rget, Ne.symm h]
      · simp only [rget, ih]

/-- A field reads as the value last written, cut to its width. -/
theorem rd_wr (s : State) (f : Fld) (v i j : Nat) : (s.wr f v i j).rd f i j = v % 2 ^ f.width := by
  simp only [State.rd, State.wr, rset]
  split
  · rename_i h
    rw [rget_rdel_same]
    exact h.symm
  · rw [rget_rput_same]
    rfl

/-- A write leaves every other field and every other instance as it was. -/
theorem rd_wr_ne (s : State) {f g : Fld} {v i j i' j' : Nat} (h : ¬ (g = f ∧ i' = i ∧ j' = j)) :
    (s.wr f v i j).rd g i' j' = s.rd g i' j' := by
  have hk : (⟨g, i', j'⟩ : RegKey) ≠ ⟨f, i, j⟩ := by
    intro e
    cases e
    exact h ⟨rfl, rfl, rfl⟩
  simp only [State.rd, State.wr, rset]
  split
  · rw [rget_rdel_ne hk]
  · rw [rget_rput_ne hk, rget_rdel_ne hk]

/-- Reading after writing, in one rule. -/
theorem rd_wr_ite (s : State) (f g : Fld) (v i j i' j' : Nat) :
    (s.wr f v i j).rd g i' j' = if g = f ∧ i' = i ∧ j' = j then v % 2 ^ f.width else s.rd g i' j' := by
  split
  · rename_i h
    obtain ⟨rfl, rfl, rfl⟩ := h
    exact rd_wr ..
  · rename_i h
    exact rd_wr_ne s h

/-- A field that a reset does not pick reads as before. -/
theorem rd_resetRegs_keep (s : State) (p : RegKey → Bool) {f : Fld} {i j : Nat} (h : p ⟨f, i, j⟩ = false) :
    (s.resetRegs p).rd f i j = s.rd f i j := by
  simp only [State.rd, State.resetRegs]
  congr 1
  induction s.regs with
  | nil => rfl
  | cons e t ih =>
    obtain ⟨a, v⟩ := e
    simp only [List.filter_cons, rget]
    by_cases ha : a = ⟨f, i, j⟩
    · subst ha
      simp [h, rget]
    · cases hp : p a <;> simp [ha, rget, ih]

/-- A field that a reset picks reads as its reset value. -/
theorem rd_resetRegs (s : State) (p : RegKey → Bool) {f : Fld} {i j : Nat} (h : p ⟨f, i, j⟩ = true) :
    (s.resetRegs p).rd f i j = f.reset i j := by
  have : rget (s.regs.filter (fun e => !p e.1)) ⟨f, i, j⟩ = none := by
    induction s.regs with
    | nil => rfl
    | cons e t ih =>
      obtain ⟨a, v⟩ := e
      simp only [List.filter_cons]
      by_cases ha : a = ⟨f, i, j⟩
      · subst ha
        simpa [h] using ih
      · cases hp : p a <;> simp [ha, rget, ih]
  simp only [State.rd, State.resetRegs, this, Option.getD_none]

/-! ### The canonical form -/

theorem regsOk_nil : RegsOk [] := ⟨List.Pairwise.nil, by simp⟩

theorem regsOk_filter {r : Regs} (p : RegKey × Nat → Bool) (h : RegsOk r) : RegsOk (r.filter p) :=
  ⟨h.1.filter p, fun e he => h.2 e (List.mem_of_mem_filter he)⟩

theorem mem_rput {r : Regs} {k : RegKey} {v : Nat} {e : RegKey × Nat} (h : e ∈ rput r k v) : e = (k, v) ∨ e ∈ r := by
  induction r with
  | nil => simpa [rput] using h
  | cons x t ih =>
    obtain ⟨a, w⟩ := x
    simp only [rput] at h
    split at h
    · simp only [List.mem_cons] at h ⊢; tauto
    · split at h
      · simp only [List.mem_cons] at h ⊢; tauto
      · simp only [List.mem_cons] at h ⊢
        rcases h with h | h
        · exact .inr (.inl h)
        · rcases ih h with h | h
          · exact .inl h
          · exact .inr (.inr h)

theorem sorted_rput {r : Regs} {k : RegKey} {v : Nat} (hs : r.Pairwise (fun a b => a.1.lt b.1 = true))
    (hk : ∀ e ∈ r, e.1 ≠ k) : (rput r k v).Pairwise (fun a b => a.1.lt b.1 = true) := by
  induction r with
  | nil => simp [rput]
  | cons x t ih =>
    obtain ⟨a, w⟩ := x
    have ha : a ≠ k := hk (a, w) (by simp)
    rw [List.pairwise_cons] at hs
    simp only [rput, ha, if_false]
    split
    · rename_i hlt
      refine List.pairwise_cons.2 ⟨?_, List.pairwise_cons.2 hs⟩
      intro e he
      rcases List.mem_cons.1 he with rfl | he
      · exact hlt
      · exact regKey_lt_trans hlt (hs.1 e he)
    · rename_i hlt
      refine List.pairwise_cons.2 ⟨?_, ih hs.2 (fun e he => hk e (List.mem_cons_of_mem _ he))⟩
      intro e he
      rcases mem_rput he with rfl | he
      · exact regKey_lt_of_not (Ne.symm ha) hlt
      · exact hs.1 e he

theorem regsOk_rset {r : Regs} {k : RegKey} {v : Nat} (h : RegsOk r) (hv : v < 2 ^ k.f.width) : RegsOk (rset r k v) := by
  simp only [rset]
  have hd : RegsOk (rdel r k) := regsOk_filter _ h
  split
  · exact hd
  · rename_i hne
    refine ⟨sorted_rput hd.1 ?_, ?_⟩
    · intro e he hk
      simp [rdel, hk] at he
    · intro e he
      rcases mem_rput he with rfl | he
      · exact ⟨hv, hne⟩
      · exact hd.2 e he

/-- A register table in canonical form is settled by what it reads as: two such tables that read alike are equal. -/
theorem rd_lt_of_regsOk {s : State} (h : RegsOk s.regs) (f : Fld) (i j : Nat) (hr : f.reset i j < 2 ^ f.width) :
    s.rd f i j < 2 ^ f.width := by
  simp only [State.rd]
  have : ∀ (r : Regs), (∀ e ∈ r, e.2 < 2 ^ e.1.f.width ∧ e.2 ≠ e.1.f.reset e.1.i e.1.j) →
      (rget r ⟨f, i, j⟩).getD (f.reset i j) < 2 ^ f.width := by
    intro r
    induction r with
    | nil => intro _; exact hr
    | cons x t ih =>
      intro hall
      obtain ⟨a, w⟩ := x
      simp only [rget]
      split
      · rename_i ha
        have := (hall (a, w) (by simp)).1
        subst ha
        exact this
      · exact ih (fun e he => hall e (List.mem_cons_of_mem _ he))
  exact this _ h.2

/-! ### What a register operation moves -/

theorem fbit_ne {f g : Fld} (h : g ≠ f) : fbit g ≠ fbit f := by
  intro e
  exact h (fld_ctorIdx_inj (by simpa [fbit] using e))

theorem Part.ctorIdx_lt (p : Part) : p.ctorIdx < 32 := by cases p <;> decide

theorem moves_wr {m : Nat} {r s : State} {f : Fld} {v i j : Nat} (h : Moves m r s) (hm : Within (fm f) m) :
    Moves m r (s.wr f v i j) := by
  refine h.trans ⟨rfl, List.prefix_rfl, Nat.le_refl _, fun hr => regsOk_rset hr (Nat.mod_lt _ (Nat.two_pow_pos _)), id,
    fuses_refl _, ?_, fun p _ => by cases p <;> rfl⟩
  intro g i' j' hg
  refine rd_wr_ne s ?_
  rintro ⟨rfl, -, -⟩
  rw [testBit_of_within hm] at hg
  cases hg

/-- A reset of registers, all of whose fields the mask names. -/
theorem moves_resetRegs {m : Nat} {r s : State} {p : RegKey → Bool} (h : Moves m r s)
    (hp : ∀ k, p k = true → m.testBit (fbit k.f) = true) (hl : Within Part.latches.bit m) :
    Moves m r (s.resetRegs p) := by
  refine h.trans ⟨rfl, List.prefix_rfl, Nat.le_refl _, fun hr => regsOk_filter _ hr, id, fuses_refl _, ?_, ?_⟩
  · intro g i' j' hg
    refine rd_resetRegs_keep s p ?_
    cases hb : p ⟨g, i', j'⟩ with
    | false => rfl
    | true => rw [hp _ hb] at hg; cases hg
  · intro q hq
    cases q <;> first | rfl | (rw [testBit_of_within (n := Part.latches.ctorIdx) hl] at hq; cases hq)

end Sys2Proof.Laws
end

