-- ==== Sys2Proof/Laws/Ops.lean ====
section
/-!
SUPPORT. What the named operations of Machine/Ops.lean move, and the rules by which their compositions move no more than
their parts.
-/
namespace Sys2Proof.Laws
open Sys2Proof.Machine

/-! ### Compositions -/

theorem moves_ite {m : Nat} {r a b : State} {c : Prop} [Decidable c] (ha : Moves m r a) (hb : Moves m r b) :
    Moves m r (if c then a else b) := by split <;> assumption

theorem goes_ite {m : Nat} {r : State} {a b : Res} {c : Prop} [Decidable c] (ha : Goes m r a) (hb : Goes m r b) :
    Goes m r (if c then a else b) := by split <;> assumption

theorem moves_when {m : Nat} {r s : State} {c : Bool} {f : State → State} (h : Moves m r s)
    (hf : ∀ z, Moves m r z → Moves m r (f z)) : Moves m r (when c f s) := by
  unfold when
  split
  · exact hf s h
  · exact h

theorem moves_each {m : Nat} {r s : State} {α : Type} {l : List α} {f : α → State → State} (h : Moves m r s)
    (hf : ∀ a z, Moves m r z → Moves m r (f a z)) : Moves m r (each l f s) := by
  unfold each
  induction l generalizing s with
  | nil => exact h
  | cons a t ih => exact ih (hf a s h)

/-- As `moves_each`, for a body that moves no more on the elements of the list. -/
theorem moves_each_mem {m : Nat} {r s : State} {α : Type} {l : List α} {f : α → State → State} (h : Moves m r s)
    (hf : ∀ a ∈ l, ∀ z, Moves m r z → Moves m r (f a z)) : Moves m r (each l f s) := by
  unfold each
  induction l generalizing s with
  | nil => exact h
  | cons a t ih => exact ih (hf a (by simp) s h) (fun b hb => hf b (List.mem_cons_of_mem _ hb))

theorem moves_withSome {m : Nat} {r s : State} {α : Type} {o : Option α} {f : α → State → State} (h : Moves m r s)
    (hf : ∀ a z, Moves m r z → Moves m r (f a z)) : Moves m r (withSome o f s) := by
  unfold withSome
  split
  · exact hf _ s h
  · exact h

theorem moves_count {m : Nat} {r s : State} {n : Nat} (h : Moves m r s) (hn : s.free ≤ n) :
    Moves m r { s with free := n } :=
  h.trans ⟨rfl, List.prefix_rfl, hn, id, id, fuses_refl _, fun _ _ _ _ => rfl, fun p _ => by cases p <;> rfl⟩

theorem moves_draw {m : Nat} {r s : State} {k : Nat → State → State} (h : Moves m r s)
    (hf : ∀ a z, Moves m r z → Moves m r (k a z)) : Moves m r (draw s k) :=
  hf _ _ (moves_count h (Nat.le_succ _))

theorem moves_choose {m : Nat} {r s : State} {k : Bool → State → State} (h : Moves m r s)
    (hf : ∀ a z, Moves m r z → Moves m r (k a z)) : Moves m r (choose s k) :=
  hf _ _ (moves_count h (Nat.le_succ _))

theorem moves_emit {m : Nat} {r s : State} {o : Out} (h : Moves m r s) : Moves m r (emit o s) :=
  h.trans ⟨rfl, List.prefix_append _ _, Nat.le_refl _, id, id, fuses_refl _, fun _ _ _ _ => rfl,
    fun p _ => by cases p <;> rfl⟩

/-! ### Parts of the state -/

theorem moves_modCf {m : Nat} {r s : State} {f : Nat} {g : FnCfg → FnCfg} (h : Moves m r s)
    (hm : Within Part.cfg.bit m) : Moves m r (s.modCf f g) := moves_part_cfg h hm
theorem moves_modDom {m : Nat} {r s : State} {d : Nat} {g : DomS → DomS} (h : Moves m r s)
    (hm : Within Part.doms.bit m) : Moves m r (s.modDom d g) := moves_part_doms h hm
theorem moves_modHl {m : Nat} {r s : State} {n : Nat} {g : HlS → HlS} (h : Moves m r s)
    (hm : Within Part.hls.bit m) : Moves m r (s.modHl n g) := moves_part_hls h hm
theorem moves_modWl {m : Nat} {r s : State} {n : Nat} {g : WlS → WlS} (h : Moves m r s)
    (hm : Within Part.wls.bit m) : Moves m r (s.modWl n g) := moves_part_wls h hm
theorem moves_modWp {m : Nat} {r s : State} {n : Nat} {g : WpS → WpS} (h : Moves m r s)
    (hm : Within Part.wps.bit m) : Moves m r (s.modWp n g) := moves_part_wps h hm
theorem moves_modVec {m : Nat} {r s : State} {f v : Nat} {g : Vec → Vec} (h : Moves m r s)
    (hm : Within Part.vecs.bit m) : Moves m r (s.modVec f v g) := moves_part_vecs h hm
theorem moves_modDest {m : Nat} {r s : State} {i d : Nat} {g : DestS → DestS} (h : Moves m r s)
    (hm : Within Part.dests.bit m) : Moves m r (s.modDest i d g) := moves_part_dests h hm
theorem moves_modCh {m : Nat} {r s : State} {c : Nat} {g : ChanS → ChanS} (h : Moves m r s)
    (hm : Within Part.chans.bit m) : Moves m r (s.modCh c g) := moves_part_chans h hm
theorem moves_modTen {m : Nat} {r s : State} {n : Nat} {g : TenS → TenS} (h : Moves m r s)
    (hm : Within Part.tens.bit m) : Moves m r (s.modTen n g) := moves_part_tens h hm
theorem moves_modTrace {m : Nat} {r s : State} {g : TraceS → TraceS} (h : Moves m r s)
    (hm : Within Part.trace.bit m) : Moves m r (s.modTrace g) := moves_part_trace h hm
theorem moves_modJournal {m : Nat} {r s : State} {g : JournalS → JournalS} (h : Moves m r s)
    (hm : Within Part.journal.bit m) : Moves m r (s.modJournal g) := moves_part_journal h hm
theorem moves_modKeeper {m : Nat} {r s : State} {g : KeeperS → KeeperS} (h : Moves m r s)
    (hm : Within Part.keeper.bit m) : Moves m r (s.modKeeper g) := moves_part_keeper h hm
theorem moves_modClocks {m : Nat} {r s : State} {g : ClockS → ClockS} (h : Moves m r s)
    (hm : Within Part.clocks.bit m) : Moves m r (s.modClocks g) := moves_part_clocks h hm
theorem moves_modPins {m : Nat} {r s : State} {g : PinS → PinS} (h : Moves m r s)
    (hm : Within Part.pins.bit m) : Moves m r (s.modPins g) := moves_part_pins h hm
theorem moves_modStore {m : Nat} {r s : State} {g : StoreS → StoreS} (h : Moves m r s)
    (hm : Within Part.store.bit m) : Moves m r (s.modStore g) := moves_part_store h hm
theorem moves_setLog {m : Nat} {r s : State} {n : Nat} {l : Option LogS} (h : Moves m r s)
    (hm : Within Part.logs.bit m) : Moves m r (s.setLog n l) := moves_part_logs h hm
theorem moves_mapWls {m : Nat} {r s : State} {g : Nat → WlS → WlS} (h : Moves m r s)
    (hm : Within Part.wls.bit m) : Moves m r (s.mapWls g) := moves_part_wls h hm
theorem moves_mapHls {m : Nat} {r s : State} {g : Nat → HlS → HlS} (h : Moves m r s)
    (hm : Within Part.hls.bit m) : Moves m r (s.mapHls g) := moves_part_hls h hm
theorem moves_mapVecs {m : Nat} {r s : State} {g : Nat → Vec → Vec} (h : Moves m r s)
    (hm : Within Part.vecs.bit m) : Moves m r (s.mapVecs g) := moves_part_vecs h hm
theorem moves_filterHostQ {m : Nat} {r s : State} {p : HReq → Bool} (h : Moves m r s)
    (hm : Within Part.hostQ.bit m) : Moves m r (s.filterHostQ p) := moves_part_hostQ h hm
theorem moves_mapTags {m : Nat} {r s : State} {g : HTag → HTag} (h : Moves m r s)
    (hm : Within Part.tags.bit m) : Moves m r (s.mapTags g) := moves_part_tags h hm
theorem moves_modCad {m : Nat} {r s : State} {g : CadS → CadS} (h : Moves m r s) (hm : Within Part.cad.bit m)
    (hs : (g s.cad).stamp = s.cad.stamp ∨ (g s.cad).stamp < 2 ^ 64) : Moves m r (s.modCad g) := moves_part_cad hs h hm
theorem moves_modUpd {m : Nat} {r s : State} {g : UpdS → UpdS} (h : Moves m r s) (hm : Within Part.upd.bit m)
    (hs : FusesKept s.upd (g s.upd)) : Moves m r (s.modUpd g) := moves_part_upd hs h hm
theorem fuses_same {u v : UpdS} (h1 : v.dsn = u.dsn) (h2 : v.familyKey = u.familyKey) (h3 : v.deviceKey = u.deviceKey)
    (h4 : v.oemHash = u.oemHash) (h5 : v.arbFuse = u.arbFuse) : FusesKept u v := ⟨h1, h2, h3, h4, Nat.le_of_eq h5.symm⟩
theorem moves_modLog {m : Nat} {r s : State} {n : Nat} {g : LogS → LogS} (h : Moves m r s)
    (hm : Within Part.logs.bit m) : Moves m r (s.modLog n g) := by
  unfold State.modLog
  split
  · exact moves_setLog h hm
  · exact h
theorem moves_enqueueHost {m : Nat} {r s : State} {q : HReq} (h : Moves m r s) (hm : Within Part.hostQ.bit m) :
    Moves m r (enqueueHost q s) := moves_part_hostQ h hm
theorem moves_enqueueLink {m : Nat} {r s : State} {n : Nat} {p : WPkt} (h : Moves m r s)
    (hm : Within Part.wls.bit m) : Moves m r (enqueueLink n p s) := moves_part_wls h hm

/-! ### Registers and time -/

theorem moves_add {m : Nat} {r s : State} {f : Fld} {v i j : Nat} (h : Moves m r s) (hm : Within (fm f) m) :
    Moves m r (s.add f v i j) := moves_wr h hm
theorem moves_inc {m : Nat} {r s : State} {f : Fld} {i j : Nat} (h : Moves m r s) (hm : Within (fm f) m) :
    Moves m r (s.inc f i j) := moves_wr h hm
theorem moves_dec {m : Nat} {r s : State} {f : Fld} {i j : Nat} (h : Moves m r s) (hm : Within (fm f) m) :
    Moves m r (s.dec f i j) := moves_wr h hm
theorem moves_setB {m : Nat} {r s : State} {v : Nat} {f : Fld} {i j : Nat} (h : Moves m r s) (hm : Within (fm f) m) :
    Moves m r (s.setB v f i j) := moves_wr h hm
theorem moves_clrB {m : Nat} {r s : State} {v : Nat} {f : Fld} {i j : Nat} (h : Moves m r s) (hm : Within (fm f) m) :
    Moves m r (s.clrB v f i j) := moves_wr h hm

theorem testBit_fms {l : List Fld} {f : Fld} {m : Nat} (h : f ∈ l) (hm : Within (fms l) m) : m.testBit (fbit f) = true := by
  induction l with
  | nil => cases h
  | cons a t ih =>
    rw [fms, within_or] at hm
    rcases List.mem_cons.1 h with rfl | h
    · exact testBit_of_within hm.1
    · exact ih h hm.2

theorem within_fms {l : List Fld} {f : Fld} {m : Nat} (h : f ∈ l) (hm : Within (fms l) m) : Within (fm f) m := by
  induction l with
  | nil => cases h
  | cons a t ih =>
    rw [fms, within_or] at hm
    rcases List.mem_cons.1 h with rfl | h
    · exact hm.1
    · exact ih h hm.2

/-- The fields of some blocks. -/
def foot_blks (l : List Blk) : Nat := fms (Fld.all.filter (fun f => l.contains f.blk))

theorem fld_ctorIdx_lt (f : Fld) : f.ctorIdx < 566 := by cases f <;> decide

theorem mem_all (f : Fld) : f ∈ Fld.all := by
  have h : Fld.all = (List.range 566).map Fld.ofNat := by decide +kernel
  rw [h, List.mem_map]
  exact ⟨f.ctorIdx, List.mem_range.2 (fld_ctorIdx_lt f), Fld.ofNat_ctorIdx f⟩

theorem testBit_blks {l : List Blk} {f : Fld} {m : Nat} (hf : l.contains f.blk = true) (hm : Within (foot_blks l) m) :
    m.testBit (fbit f) = true := testBit_fms (List.mem_filter.2 ⟨mem_all f, hf⟩) hm

theorem within_blks {l : List Blk} {f : Fld} {m : Nat} (hf : l.contains f.blk = true) (hm : Within (foot_blks l) m) :
    Within (fm f) m := within_fms (List.mem_filter.2 ⟨mem_all f, hf⟩) hm

def foot_resetBlk (b : Blk) : Nat := foot_blks [b] ||| pms [.latches]
theorem moves_resetBlk {m : Nat} {r s : State} {b : Blk} {i : Nat} (h : Moves m r s)
    (hm : Within (foot_resetBlk b) m) : Moves m r (s.resetBlk b i) := by
  simp only [foot_resetBlk, pms, within_or, within_zero, and_true] at hm
  refine moves_resetRegs h ?_ hm.2
  intro k hk
  simp only [Bool.and_eq_true, decide_eq_true_eq] at hk
  exact testBit_blks (by simp [hk.1]) hm.1

def foot_setStamp : Nat := pms [.cad] ||| fms [.CAD_STAMP_LO]
theorem moves_setStamp {m : Nat} {r s : State} {v : Nat} (h : Moves m r s) (hm : Within foot_setStamp m) :
    Moves m r (setStamp v s) := by
  simp only [foot_setStamp, fms, pms, within_or, within_zero, and_true] at hm
  exact moves_wr (moves_modCad h hm.1 (.inr (Nat.mod_lt _ (by decide)))) hm.2

def foot_advance : Nat := foot_setStamp
theorem moves_advance {m : Nat} {r s : State} (h : Moves m r s) (hm : Within foot_advance m) :
    Moves m r (advance s) := by
  unfold advance
  split
  · exact h
  · exact moves_setStamp h hm

end Sys2Proof.Laws
end

