-- ==== Sys2Proof/Laws/FootDirectory.lean ====
section
/-!
SUPPORT. The footprint of each operation of Machine/Directory.lean: which register fields and parts of the state it may change.
-/
namespace Sys2Proof.Laws
open Sys2Proof.Machine

def foot_rebuildDir : Nat := pms [.hls] ||| fms [.DEV_DIR_GEN, .DVSEC_DIR_GEN]
theorem moves_rebuildDir {m : Nat} {r : State} {h' : ℕ} {s : State} (h : Moves m r s)
    (hm : Within foot_rebuildDir m) : Moves m r (rebuildDir h' s) := by
  simp only [foot_rebuildDir, fms, pms, within_or, within_zero, and_true] at hm
  unfold rebuildDir
  try dsimp only
  repeat' (first
    | with_reducible assumption | with_reducible apply moves_when | with_reducible apply moves_modHl |
    with_reducible apply moves_wr | with_reducible apply moves_ite | split | intro _ | simp only [hm])

def foot_dirChange : Nat := foot_rebuildDir ||| pms [.hls] ||| fms [.DEV_DIR_GEN]
theorem moves_dirChange {m : Nat} {r : State} {hs : List ℕ} {s : State} (h : Moves m r s)
    (hm : Within foot_dirChange m) : Moves m r (dirChange hs s) := by
  simp only [foot_dirChange, fms, pms, within_or, within_zero, and_true] at hm
  unfold dirChange
  try dsimp only
  repeat' (first
    | with_reducible assumption | with_reducible apply moves_when | with_reducible apply moves_each |
    with_reducible apply moves_wr | with_reducible apply moves_rebuildDir | with_reducible apply moves_modHl |
    with_reducible apply moves_ite | split | intro _ | simp only [hm])

def foot_dirChanged : Nat := foot_dirChange
theorem moves_dirChanged {m : Nat} {r : State} {h' : ℕ} {s : State} (h : Moves m r s)
    (hm : Within foot_dirChanged m) : Moves m r (dirChanged h' s) := by
  simp only [foot_dirChanged] at hm
  unfold dirChanged
  try dsimp only
  repeat' (first
    | with_reducible assumption | with_reducible apply moves_dirChange)

end Sys2Proof.Laws
end

