-- ==== Sys2Proof/Laws/FootGrains.lean ====
section
/-!
SUPPORT. The footprint of each operation of Machine/Grains.lean: which register fields and parts of the state it may change.
-/
namespace Sys2Proof.Laws
open Sys2Proof.Machine

def foot_sendSlot : Nat := pms [.wps]
theorem moves_sendSlot {m : Nat} {r : State} {n k : Nat} {g : Grain} {s : State} (h : Moves m r s)
    (hm : Within foot_sendSlot m) : Moves m r (sendSlot n k g s) := by
  simp only [foot_sendSlot, pms, within_or, within_zero, and_true] at hm
  unfold sendSlot
  try dsimp only
  repeat' (first
    | with_reducible assumption | with_reducible apply moves_modWp | with_reducible apply moves_emit |
    with_reducible apply moves_ite | split | intro _ | simp only [hm])

def foot_sendHalt : Nat := foot_sendSlot
theorem moves_sendHalt {m : Nat} {r : State} {n : Nat} {s : State} (h : Moves m r s)
    (hm : Within foot_sendHalt m) : Moves m r (sendHalt n s) := by
  simp only [foot_sendHalt] at hm
  unfold sendHalt
  try dsimp only
  repeat' (first
    | with_reducible assumption | with_reducible apply moves_draw | with_reducible apply moves_sendSlot |
    with_reducible apply moves_ite | split | intro _ | simp only [hm])

def foot_showTx : Nat := 0
theorem moves_showTx {m : Nat} {r : State} {n : Nat} {was s : State} (h : Moves m r s)
    (_ : Within foot_showTx m) : Moves m r (showTx n was s) := by
  unfold showTx
  try dsimp only
  repeat' (first
    | with_reducible assumption | with_reducible apply moves_when | with_reducible apply moves_each |
    with_reducible apply moves_emit | with_reducible apply moves_ite | split | intro _)

def foot_shown : Nat := foot_showTx
theorem moves_shown {m : Nat} {r : State} {n : Nat} {f : State → State} {s : State} (hf : ∀ z, Moves m r z → Moves m
    r (f z)) (h : Moves m r s)
    (hm : Within foot_shown m) : Moves m r (shown n f s) := by
  simp only [foot_shown] at hm
  unfold shown
  try dsimp only
  repeat' (first
    | with_reducible assumption | with_reducible apply moves_showTx | with_reducible apply hf |
    with_reducible apply moves_ite | split | intro _ | simp only [hm])

def foot_sendTrain : Nat := 0
theorem moves_sendTrain {m : Nat} {r : State} {n typ rates lanes : Nat} {s : State} (h : Moves m r s)
    (_ : Within foot_sendTrain m) : Moves m r (sendTrain n typ rates lanes s) := by
  unfold sendTrain
  try dsimp only
  repeat' (first
    | with_reducible assumption | with_reducible apply moves_draw | with_reducible apply moves_emit |
    with_reducible apply moves_ite | split | intro _)

def foot_sendTs1 : Nat := foot_sendTrain
theorem moves_sendTs1 {m : Nat} {r : State} {n : Nat} {s : State} (h : Moves m r s)
    (hm : Within foot_sendTs1 m) : Moves m r (sendTs1 n s) := by
  simp only [foot_sendTs1] at hm
  unfold sendTs1
  try dsimp only
  repeat' (first
    | with_reducible assumption | with_reducible apply moves_sendTrain | with_reducible apply moves_ite | split |
    intro _ | simp only [hm])

def foot_countInj : Nat := pms [.wps] ||| fms [.WP_LN_INJ_CNT]
theorem moves_countInj {m : Nat} {r : State} {n k : Nat} {s : State} (h : Moves m r s)
    (hm : Within foot_countInj m) : Moves m r (countInj n k s) := by
  simp only [foot_countInj, fms, pms, within_or, within_zero, and_true] at hm
  unfold countInj
  try dsimp only
  repeat' (first
    | with_reducible assumption | with_reducible intro _ | with_reducible apply moves_draw |
    with_reducible apply moves_add | with_reducible apply moves_modWp | with_reducible apply moves_ite | split |
    simp only [hm])

def foot_countAllInj : Nat := foot_countInj
theorem moves_countAllInj {m : Nat} {r : State} {s : State} (h : Moves m r s)
    (hm : Within foot_countAllInj m) : Moves m r (countAllInj s) := by
  simp only [foot_countAllInj] at hm
  unfold countAllInj
  try dsimp only
  repeat' (first
    | with_reducible assumption | with_reducible intro _ | with_reducible apply moves_each |
    with_reducible apply moves_countInj | with_reducible apply moves_ite | split | simp only [hm])

def foot_countPrbs : Nat := fms [.WP_LN_BITS_CNT, .WP_LN_ERR_CNT]
theorem moves_countPrbs {m : Nat} {r : State} {n k : Nat} {s : State} (h : Moves m r s)
    (hm : Within foot_countPrbs m) : Moves m r (countPrbs n k s) := by
  simp only [foot_countPrbs, fms, within_or, within_zero, and_true] at hm
  unfold countPrbs
  try dsimp only
  repeat' (first
    | with_reducible assumption | with_reducible apply moves_when | with_reducible apply moves_draw |
    with_reducible apply moves_add | with_reducible apply moves_ite | split | intro _ | simp only [hm])

def foot_countAllPrbs : Nat := foot_countPrbs
theorem moves_countAllPrbs {m : Nat} {r : State} {s : State} (h : Moves m r s)
    (hm : Within foot_countAllPrbs m) : Moves m r (countAllPrbs s) := by
  simp only [foot_countAllPrbs] at hm
  unfold countAllPrbs
  try dsimp only
  repeat' (first
    | with_reducible assumption | with_reducible apply moves_each | with_reducible apply moves_countPrbs |
    with_reducible apply moves_ite | split | intro _ | simp only [hm])

end Sys2Proof.Laws
end

