-- ==== Sys2Proof/Laws/FootFlags.lean ====
section
/-!
SUPPORT. The footprint of each operation of Machine/Flags.lean: which register fields and parts of the state it may change.
-/
namespace Sys2Proof.Laws
open Sys2Proof.Machine

def foot_trace : Nat := foot_advance ||| pms [.trace]
theorem moves_trace {m : Nat} {r : State} {kind id code arg : Nat} {s : State} (h : Moves m r s)
    (hm : Within foot_trace m) : Moves m r (trace kind id code arg s) := by
  simp only [foot_trace, pms, within_or, within_zero, and_true] at hm
  unfold trace
  try dsimp only
  repeat' (first
    | with_reducible assumption | with_reducible apply moves_modTrace | with_reducible apply moves_advance |
    with_reducible apply moves_ite | split | intro _ | simp only [hm])

def foot_traceNone : Nat := foot_trace
theorem moves_traceNone {m : Nat} {r : State} {code arg : ℕ} {s : State} (h : Moves m r s)
    (hm : Within foot_traceNone m) : Moves m r (traceNone code arg s) := by
  simp only [foot_traceNone] at hm
  unfold traceNone
  try dsimp only
  repeat' (first
    | with_reducible assumption | with_reducible apply moves_trace)

def foot_ringAppend : Nat := pms [.trace] ||| fms [.TR_NEXT, .TR_OLDEST]
theorem moves_ringAppend {m : Nat} {r : State} {r' : TrRec} {s : State} (h : Moves m r s)
    (hm : Within foot_ringAppend m) : Moves m r (ringAppend r' s) := by
  simp only [foot_ringAppend, fms, pms, within_or, within_zero, and_true] at hm
  unfold ringAppend
  try dsimp only
  repeat' (first
    | with_reducible assumption | with_reducible apply moves_wr | with_reducible apply moves_modTrace |
    with_reducible apply moves_ite | split | intro _ | simp only [hm])

def foot_ringNote : Nat := foot_advance ||| foot_ringAppend
theorem moves_ringNote {m : Nat} {r : State} {code arg : ℕ} {s : State} (h : Moves m r s)
    (hm : Within foot_ringNote m) : Moves m r (ringNote code arg s) := by
  simp only [foot_ringNote, within_or] at hm
  unfold ringNote
  try dsimp only
  repeat' (first
    | with_reducible assumption | with_reducible apply moves_advance | with_reducible apply moves_ringAppend |
    with_reducible apply moves_ite | split | intro _ | simp only [hm])

def foot_traceFn : Nat := foot_trace
theorem moves_traceFn {m : Nat} {r : State} {f code arg : ℕ} {s : State} (h : Moves m r s)
    (hm : Within foot_traceFn m) : Moves m r (traceFn f code arg s) := by
  simp only [foot_traceFn] at hm
  unfold traceFn
  try dsimp only
  repeat' (first
    | with_reducible assumption | with_reducible apply moves_trace)

def foot_pauseStream : Nat := fms [.TR_STREAM_PAUSED]
theorem moves_pauseStream {m : Nat} {r : State} {s : State} (h : Moves m r s)
    (hm : Within foot_pauseStream m) : Moves m r (pauseStream s) := by
  simp only [foot_pauseStream, fms, within_or, within_zero, and_true] at hm
  unfold pauseStream
  try dsimp only
  repeat' (first
    | with_reducible assumption | with_reducible apply moves_when | with_reducible apply moves_wr |
    with_reducible apply moves_ite | split | intro _)

def foot_jShow : Nat := fms [.WD_JR_QUEUED]
theorem moves_jShow {m : Nat} {r : State} {s : State} (h : Moves m r s)
    (hm : Within foot_jShow m) : Moves m r (jShow s) := by
  simp only [foot_jShow, fms, within_or, within_zero, and_true] at hm
  unfold jShow
  try dsimp only
  repeat' (first
    | with_reducible assumption | with_reducible apply moves_wr)

def foot_jPut : Nat := foot_jShow ||| pms [.journal] ||| fms [.WD_JR_LOST_CNT]
theorem moves_jPut {m : Nat} {r : State} {b : JBody} {injected : Bool} {stamp era : Nat} {s : State} (h : Moves m r
    s)
    (hm : Within foot_jPut m) : Moves m r (jPut b injected stamp era s) := by
  simp only [foot_jPut, fms, pms, within_or, within_zero, and_true] at hm
  unfold jPut
  try dsimp only
  repeat' (first
    | with_reducible assumption | with_reducible intro _ | with_reducible apply moves_inc |
    with_reducible apply moves_modJournal | with_reducible apply moves_jShow | with_reducible apply moves_ite | split |
    simp only [hm])

def foot_journal : Nat := foot_advance ||| foot_jPut
theorem moves_journal {m : Nat} {r : State} {b : JBody} {s : State} (h : Moves m r s)
    (hm : Within foot_journal m) : Moves m r (journal b s) := by
  simp only [foot_journal, within_or] at hm
  unfold journal
  try dsimp only
  repeat' (first
    | with_reducible assumption | with_reducible intro _ | with_reducible apply moves_advance |
    with_reducible apply moves_jPut | with_reducible apply moves_ite | split | simp only [hm])

def foot_rxTlp : Nat := pms [.hls] ||| fms [.CT_HL_RX_TLP, .CT_HL_RX_PAYLOAD]
theorem moves_rxTlp {m : Nat} {r : State} {h' n : Nat} {s : State} (h : Moves m r s)
    (hm : Within foot_rxTlp m) : Moves m r (rxTlp h' n s) := by
  simp only [foot_rxTlp, fms, pms, within_or, within_zero, and_true] at hm
  unfold rxTlp
  try dsimp only
  repeat' (first
    | with_reducible assumption | with_reducible apply moves_inc | with_reducible apply moves_add |
    with_reducible apply moves_modHl | with_reducible apply moves_ite | split | intro _ | simp only [hm])

def foot_txTlp : Nat := pms [.hls] ||| fms [.CT_HL_TX_TLP, .CT_HL_TX_PAYLOAD]
theorem moves_txTlp {m : Nat} {r : State} {h' n : Nat} {s : State} (h : Moves m r s)
    (hm : Within foot_txTlp m) : Moves m r (txTlp h' n s) := by
  simp only [foot_txTlp, fms, pms, within_or, within_zero, and_true] at hm
  unfold txTlp
  try dsimp only
  repeat' (first
    | with_reducible assumption | with_reducible apply moves_inc | with_reducible apply moves_add |
    with_reducible apply moves_modHl | with_reducible apply moves_ite | split | intro _ | simp only [hm])

def foot_showClkreq : Nat := fms [.HL_CLKREQ]
theorem moves_showClkreq {m : Nat} {r : State} {h' : ℕ} {s : State} (h : Moves m r s)
    (hm : Within foot_showClkreq m) : Moves m r (showClkreq h' s) := by
  simp only [foot_showClkreq, fms, within_or, within_zero, and_true] at hm
  unfold showClkreq
  try dsimp only
  repeat' (first
    | with_reducible assumption | with_reducible apply moves_emit | with_reducible apply moves_wr |
    with_reducible apply moves_ite)

def foot_leaveL1 : Nat := foot_showClkreq ||| pms [.hls] ||| fms [.HL_LTSSM, .HL_L1SUB, .HL_CUR_SPEED,
    .HL_RECOV_CNT]
theorem moves_leaveL1 {m : Nat} {r : State} {h' : Nat} {s : State} (h : Moves m r s)
    (hm : Within foot_leaveL1 m) : Moves m r (leaveL1 h' s) := by
  simp only [foot_leaveL1, fms, pms, within_or, within_zero, and_true] at hm
  unfold leaveL1
  try dsimp only
  repeat' (first
    | with_reducible assumption | with_reducible apply moves_when | with_reducible apply moves_wr |
    with_reducible apply moves_inc | with_reducible apply moves_modHl | with_reducible apply moves_emit |
    with_reducible apply moves_showClkreq | with_reducible apply moves_ite | split | intro _ | simp only [hm])

def foot_putMsg : Nat := foot_txTlp
theorem moves_putMsg {m : Nat} {r : State} {f : Nat} {m' : HMsg} {s : State} (h : Moves m r s)
    (hm : Within foot_putMsg m) : Moves m r (putMsg f m' s) := by
  simp only [foot_putMsg] at hm
  unfold putMsg
  try dsimp only
  repeat' (first
    | with_reducible assumption | with_reducible apply moves_emit | with_reducible apply moves_txTlp |
    with_reducible apply moves_ite | split | intro _ | simp only [hm])

def foot_sendLtr : Nat := foot_putMsg ||| pms [.hls]
theorem moves_sendLtr {m : Nat} {r : State} {h' : Nat} {s : State} (h : Moves m r s)
    (hm : Within foot_sendLtr m) : Moves m r (sendLtr h' s) := by
  simp only [foot_sendLtr, pms, within_or, within_zero, and_true] at hm
  unfold sendLtr
  try dsimp only
  repeat' (first
    | with_reducible assumption | with_reducible apply moves_modHl | with_reducible apply moves_putMsg |
    with_reducible apply moves_ite | split | intro _ | simp only [hm])

def foot_readyTlp : Nat := foot_leaveL1 ||| foot_sendLtr
theorem moves_readyTlp {m : Nat} {r : State} {h' : Nat} {s : State} (h : Moves m r s)
    (hm : Within foot_readyTlp m) : Moves m r (readyTlp h' s) := by
  simp only [foot_readyTlp, within_or] at hm
  unfold readyTlp
  try dsimp only
  repeat' (first
    | with_reducible assumption | with_reducible apply moves_when | with_reducible apply moves_leaveL1 |
    with_reducible apply moves_sendLtr | with_reducible apply moves_ite | split | intro _ | simp only [hm])

def foot_sendMsg : Nat := foot_putMsg ||| foot_readyTlp
theorem moves_sendMsg {m : Nat} {r : State} {f : Nat} {m' : HMsg} {s : State} (h : Moves m r s)
    (hm : Within foot_sendMsg m) : Moves m r (sendMsg f m' s) := by
  simp only [foot_sendMsg, within_or] at hm
  unfold sendMsg
  try dsimp only
  repeat' (first
    | with_reducible assumption | with_reducible apply moves_when | with_reducible apply moves_putMsg |
    with_reducible apply moves_readyTlp | with_reducible apply moves_ite | split | intro _ | simp only [hm])

def foot_sendVec : Nat := pms [.vecs, .hostQ] ||| fms [.FI_HOLDOFF]
theorem moves_sendVec {m : Nat} {r : State} {f v : Nat} {s : State} (h : Moves m r s)
    (hm : Within foot_sendVec m) : Moves m r (sendVec f v s) := by
  simp only [foot_sendVec, fms, pms, within_or, within_zero, and_true] at hm
  unfold sendVec
  try dsimp only
  repeat' (first
    | with_reducible assumption | with_reducible intro _ | with_reducible apply moves_wr |
    with_reducible apply moves_modVec | with_reducible apply moves_enqueueHost | with_reducible apply moves_ite | split
    | simp only [hm])

def foot_pendVec : Nat := pms [.vecs] ||| fms [.FI_IN_COAL_CNT]
theorem moves_pendVec {m : Nat} {r : State} {f v : ℕ} {s : State} (h : Moves m r s)
    (hm : Within foot_pendVec m) : Moves m r (pendVec f v s) := by
  simp only [foot_pendVec, fms, pms, within_or, within_zero, and_true] at hm
  unfold pendVec
  try dsimp only
  repeat' (first
    | with_reducible assumption | with_reducible apply moves_when | with_reducible apply moves_modVec |
    with_reducible apply moves_inc | with_reducible apply moves_ite | split | intro _ | simp only [hm])

def foot_raiseVecWith : Nat := foot_pendVec ||| foot_sendVec ||| pms [.vecs] ||| fms [.FI_IN_DROP_CNT,
    .FI_IN_COAL_CNT, .FI_WAITING]
theorem moves_raiseVecWith {m : Nat} {r : State} {asleep : State → State} {f v : Nat} {s : State} (hasleep : ∀ z,
    Moves m r z → Moves m r (asleep z)) (h : Moves m r s)
    (hm : Within foot_raiseVecWith m) : Moves m r (raiseVecWith asleep f v s) := by
  simp only [foot_raiseVecWith, fms, pms, within_or, within_zero, and_true] at hm
  unfold raiseVecWith
  try dsimp only
  repeat' (first
    | with_reducible assumption | with_reducible intro _ | with_reducible apply moves_when |
    with_reducible apply moves_inc | with_reducible apply moves_wr | with_reducible apply moves_modVec |
    with_reducible apply moves_pendVec | with_reducible apply moves_sendVec | with_reducible apply hasleep |
    with_reducible apply moves_ite | split | simp only [hm])

def foot_raiseCauseWith : Nat := foot_raiseVecWith ||| pms [.heldCauses] |||
  fms [.FI_REPLY, .FI_DEADLINE_MISS,
    .FI_SHEAF_LAG, .FI_WARD_CORR, .FI_WARD_CONT, .FI_WARD_FATAL, .FI_HOSTLINK,
    .FI_CADENCE, .FI_TENANT_BROKEN]
theorem moves_raiseCauseWith {m : Nat} {r : State} {asleep : State → State} {f : Nat} {c : Cause} {s : State}
    (hasleep : ∀ z, Moves m r z → Moves m r (asleep z)) (h : Moves m r s) (hm : Within foot_raiseCauseWith m) :
    Moves m r (raiseCauseWith asleep f c s) := by
  simp only [foot_raiseCauseWith, pms, within_or, within_zero, and_true] at hm
  unfold raiseCauseWith
  dsimp only
  have hc : Within (fm c.fld) m := within_fms (by cases c <;> simp [Cause.fld]) hm.2
  repeat' (first
    | with_reducible assumption | with_reducible apply moves_when | with_reducible apply moves_raiseVecWith
    | with_reducible apply moves_wr | with_reducible apply moves_ite | with_reducible apply hasleep
    | with_reducible apply moves_part_heldCauses | intro _ | simp only [hm])

def foot_pmeSignal : Nat := foot_raiseCauseWith ||| foot_sendMsg ||| pms [.cfg, .hls] ||| fms [.HL_PME_WAKE]
theorem moves_pmeSignal {m : Nat} {r : State} {p : ℕ} {s : State} (h : Moves m r s)
    (hm : Within foot_pmeSignal m) : Moves m r (pmeSignal p s) := by
  simp only [foot_pmeSignal, fms, pms, within_or, within_zero, and_true] at hm
  unfold pmeSignal
  try dsimp only
  repeat' (first
    | with_reducible assumption | with_reducible apply moves_emit | with_reducible apply moves_modCf |
    with_reducible apply moves_modHl | with_reducible apply moves_raiseCauseWith | with_reducible apply moves_wr |
    with_reducible apply moves_sendMsg | with_reducible apply moves_ite | split | intro _ | simp only [hm] |
    simp only [id_eq])

def foot_raiseVec : Nat := foot_raiseVecWith ||| foot_pmeSignal
theorem moves_raiseVec {m : Nat} {r : State} {f v : ℕ} {s : State} (h : Moves m r s)
    (hm : Within foot_raiseVec m) : Moves m r (raiseVec f v s) := by
  simp only [foot_raiseVec, within_or] at hm
  unfold raiseVec
  try dsimp only
  repeat' (first
    | with_reducible assumption | with_reducible apply moves_raiseVecWith | with_reducible apply moves_pmeSignal |
    with_reducible apply moves_ite | split | intro _ | simp only [hm])

def foot_raiseCause : Nat := foot_raiseCauseWith ||| foot_pmeSignal
theorem moves_raiseCause {m : Nat} {r : State} {f : ℕ} {c : Cause} {s : State} (h : Moves m r s)
    (hm : Within foot_raiseCause m) : Moves m r (raiseCause f c s) := by
  simp only [foot_raiseCause, within_or] at hm
  unfold raiseCause
  try dsimp only
  repeat' (first
    | with_reducible assumption | with_reducible apply moves_raiseCauseWith | with_reducible apply moves_pmeSignal |
    with_reducible apply moves_ite | split | intro _ | simp only [hm])

def foot_raiseAllPfs : Nat := foot_raiseCause
theorem moves_raiseAllPfs {m : Nat} {r : State} {c : Cause} {s : State} (h : Moves m r s)
    (hm : Within foot_raiseAllPfs m) : Moves m r (raiseAllPfs c s) := by
  simp only [foot_raiseAllPfs] at hm
  unfold raiseAllPfs
  try dsimp only
  repeat' (first
    | with_reducible assumption | with_reducible apply moves_each | with_reducible apply moves_raiseCause |
    with_reducible apply moves_ite | split | intro _)

def foot_hlEvent (f : Fld) : Nat := foot_raiseCause ||| (fm f)
theorem moves_hlEvent {m : Nat} {r : State} {h' : ℕ} {f : Fld} {s : State} (h : Moves m r s)
    (hm : Within (foot_hlEvent f) m) : Moves m r (hlEvent h' f s) := by
  simp only [foot_hlEvent, within_or] at hm
  unfold hlEvent
  try dsimp only
  repeat' (first
    | with_reducible assumption | with_reducible apply moves_raiseCause | with_reducible apply moves_wr |
    with_reducible apply moves_ite | split | intro _ | simp only [hm])

def foot_aerCorr : Nat := foot_sendMsg ||| pms [.cfg]
theorem moves_aerCorr {m : Nat} {r : State} {f : ℕ} {s : State} (h : Moves m r s)
    (hm : Within foot_aerCorr m) : Moves m r (aerCorr f s) := by
  simp only [foot_aerCorr, pms, within_or, within_zero, and_true] at hm
  unfold aerCorr
  try dsimp only
  repeat' (first
    | with_reducible assumption | with_reducible apply moves_when | with_reducible apply moves_modCf |
    with_reducible apply moves_sendMsg | with_reducible apply moves_ite | split | intro _ | simp only [hm])

def foot_aerUncSet : Nat := pms [.cfg]
theorem moves_aerUncSet {m : Nat} {r : State} {bit f : Nat} {s : State} (h : Moves m r s)
    (hm : Within foot_aerUncSet m) : Moves m r (aerUncSet bit f s) := by
  simp only [foot_aerUncSet, pms, within_or, within_zero, and_true] at hm
  unfold aerUncSet
  try dsimp only
  repeat' (first
    | with_reducible assumption | with_reducible apply moves_draw | with_reducible apply moves_modCf |
    with_reducible apply moves_ite | split | intro _ | simp only [hm])

def foot_aerUnc : Nat := foot_aerUncSet ||| foot_sendMsg
theorem moves_aerUnc {m : Nat} {r : State} {fatal : Bool} {f : Nat} {s : State} (h : Moves m r s)
    (hm : Within foot_aerUnc m) : Moves m r (aerUnc fatal f s) := by
  simp only [foot_aerUnc, within_or] at hm
  unfold aerUnc
  try dsimp only
  repeat' (first
    | with_reducible assumption | with_reducible apply moves_when | with_reducible apply moves_aerUncSet |
    with_reducible apply moves_sendMsg | with_reducible apply moves_ite | split | intro _ | simp only [hm])

def foot_aerReport : Nat := foot_aerCorr ||| foot_aerUnc
theorem moves_aerReport {m : Nat} {r : State} {cls : ℕ} {m' : Master} {s : State} (h : Moves m r s)
    (hm : Within foot_aerReport m) : Moves m r (aerReport cls m' s) := by
  simp only [foot_aerReport, within_or] at hm
  unfold aerReport
  try dsimp only
  repeat' (first
    | with_reducible assumption | with_reducible apply moves_each | with_reducible apply moves_aerCorr |
    with_reducible apply moves_aerUnc | with_reducible apply moves_ite | split | intro _ | simp only [hm])

def foot_takeCapture : Nat := fms [.WD_FC_ADDR, .WD_FC_STAMP, .WD_FC_ERA, .WD_FC_MASTER, .WD_ACCESS, .WD_DETAIL,
    .WD_GROUP, .WD_LINE, .WD_INJECTED, .WD_PRESEED, .WD_VALID]
theorem moves_takeCapture {m : Nat} {r : State} {e : WEv} {cls : Nat} {inj : Bool} {stamp era : Nat} {s : State} (h
    : Moves m r s)
    (hm : Within foot_takeCapture m) : Moves m r (takeCapture e cls inj stamp era s) := by
  simp only [foot_takeCapture, fms, within_or, within_zero, and_true] at hm
  unfold takeCapture
  try dsimp only
  repeat' (first
    | with_reducible assumption | with_reducible intro _ | with_reducible apply moves_wr |
    with_reducible apply moves_ite | split | simp only [hm])

def foot_capture : Nat := foot_takeCapture
theorem moves_capture {m : Nat} {r : State} {e : WEv} {cls : Nat} {inj : Bool} {s : State} (h : Moves m r s)
    (hm : Within foot_capture m) : Moves m r (capture e cls inj s) := by
  simp only [foot_capture] at hm
  unfold capture
  try dsimp only
  repeat' (first
    | with_reducible assumption | with_reducible intro _ | with_reducible apply moves_takeCapture |
    with_reducible apply moves_ite | split | simp only [hm])

def foot_pullFaultN : Nat := fms [.WD_FN_DRIVEN, .WD_FN_LEVEL]
theorem moves_pullFaultN {m : Nat} {r : State} {s : State} (h : Moves m r s)
    (hm : Within foot_pullFaultN m) : Moves m r (pullFaultN s) := by
  simp only [foot_pullFaultN, fms, within_or, within_zero, and_true] at hm
  unfold pullFaultN
  try dsimp only
  repeat' (first
    | with_reducible assumption | with_reducible intro _ | exact goes_fault _ | with_reducible apply moves_wr |
    with_reducible apply moves_emit | with_reducible apply moves_ite | split | simp only [hm])

def foot_driveFaultN : Nat := foot_pullFaultN ||| fms [.WD_MINW_RUN]
theorem moves_driveFaultN {m : Nat} {r : State} {s : State} (h : Moves m r s)
    (hm : Within foot_driveFaultN m) : Moves m r (driveFaultN s) := by
  simp only [foot_driveFaultN, fms, within_or, within_zero, and_true] at hm
  unfold driveFaultN
  try dsimp only
  repeat' (first
    | with_reducible assumption | with_reducible intro _ | with_reducible apply moves_wr |
    with_reducible apply moves_pullFaultN | with_reducible apply moves_ite | split | simp only [hm])

def foot_dropChanWaiting : Nat := pms [.wls, .hostQ]
theorem moves_dropChanWaiting {m : Nat} {r : State} {c : ℕ} {s : State} (h : Moves m r s)
    (hm : Within foot_dropChanWaiting m) : Moves m r (dropChanWaiting c s) := by
  simp only [foot_dropChanWaiting, pms, within_or, within_zero, and_true] at hm
  unfold dropChanWaiting
  try dsimp only
  repeat' (first
    | with_reducible assumption | with_reducible apply moves_mapWls | with_reducible apply moves_filterHostQ |
    with_reducible apply moves_ite | split | intro _ | simp only [hm])

def foot_haltCore : Nat := foot_dropChanWaiting ||| foot_trace ||| foot_raiseVec ||| pms [.chans] ||| fms
    [.CH_STATE, .CH_CODE, .CH_ERR, .CH_ERR_ADDR, .CH_ERR_SPACE, .CH_HALT_CNT, .CT_TN_HALTS, .CH_CUR, .CH_DRAINING]
theorem moves_haltCore {m : Nat} {r : State} {c code : Nat} {b : BadReq} {s : State} (h : Moves m r s)
    (hm : Within foot_haltCore m) : Moves m r (haltCore c code b s) := by
  simp only [foot_haltCore, fms, pms, within_or, within_zero, and_true] at hm
  unfold haltCore
  try dsimp only
  repeat' (first
    | with_reducible assumption | with_reducible intro _ | with_reducible apply moves_when |
    with_reducible apply moves_wr | with_reducible apply moves_inc | with_reducible apply moves_modCh |
    with_reducible apply moves_dropChanWaiting | with_reducible apply moves_trace | with_reducible apply moves_raiseVec
    | with_reducible apply moves_ite | split | simp only [hm])

def foot_roundDirty : Nat := pms [.logs]
theorem moves_roundDirty {m : Nat} {r : State} {tn bitmap : ℕ} {s : State} (h : Moves m r s)
    (hm : Within foot_roundDirty m) : Moves m r (roundDirty tn bitmap s) := by
  simp only [foot_roundDirty, pms, within_or, within_zero, and_true] at hm
  unfold roundDirty
  try dsimp only
  repeat' (first
    | with_reducible assumption | with_reducible apply moves_modLog)

def foot_blockWrites : Nat := foot_roundDirty ||| pms [.vecs, .hostQ]
theorem moves_blockWrites {m : Nat} {r : State} {s : State} (h : Moves m r s)
    (hm : Within foot_blockWrites m) : Moves m r (blockWrites s) := by
  simp only [foot_blockWrites, pms, within_or, within_zero, and_true] at hm
  unfold blockWrites
  try dsimp only
  repeat' (first
    | with_reducible assumption | with_reducible intro _ | with_reducible apply moves_each |
    with_reducible apply moves_modVec | with_reducible apply moves_filterHostQ | with_reducible apply moves_roundDirty |
    with_reducible apply moves_ite | split | simp only [hm])

def foot_forceReaction : Nat := foot_blockWrites ||| foot_sendHalt ||| foot_driveFaultN ||| foot_haltCore |||
    foot_pauseStream ||| foot_jPut ||| fms [.WD_REACT, .WD_REACT_STAMP, .WD_REACT_ERA, .KP_FATAL_HOLD, .WL_LSTATE,
    .WL_GRACE_RUN, .WD_FAULT_WORD]
theorem moves_forceReaction {m : Nat} {r : State} {inj : Bool} {s : State} (h : Moves m r s)
    (hm : Within foot_forceReaction m) : Moves m r (forceReaction inj s) := by
  simp only [foot_forceReaction, fms, within_or, within_zero, and_true] at hm
  unfold forceReaction
  try dsimp only
  repeat' (first
    | with_reducible assumption | with_reducible intro _ | with_reducible apply moves_when |
    with_reducible apply moves_each | with_reducible apply moves_wr | with_reducible apply moves_setB |
    with_reducible apply moves_blockWrites | with_reducible apply moves_sendHalt |
    with_reducible apply moves_driveFaultN | with_reducible apply moves_haltCore |
    with_reducible apply moves_pauseStream | with_reducible apply moves_jPut | with_reducible apply moves_ite | split |
    simp only [hm])

def foot_latchLine : Nat := foot_capture ||| foot_trace ||| fms [.WD_LINES, .WD_FAULT_WORD, .WD_CORR_CNT,
    .WD_CONT_CNT, .WD_FATAL_CNT]
theorem moves_latchLine {m : Nat} {r : State} {e : WEv} {inj : Bool} {s : State} (h : Moves m r s)
    (hm : Within foot_latchLine m) : Moves m r (latchLine e inj s) := by
  simp only [foot_latchLine, fms, within_or, within_zero, and_true] at hm
  unfold latchLine
  dsimp only
  repeat' (first
    | with_reducible assumption | with_reducible apply moves_when | with_reducible apply moves_trace
    | with_reducible apply moves_capture | with_reducible apply moves_inc | with_reducible apply moves_setB
    | intro _ | simp only [hm] | split)

def foot_noteLatch : Nat := pms [.journal]
theorem moves_noteLatch {m : Nat} {r : State} {e : WEv} {inj : Bool} {s : State} (h : Moves m r s)
    (hm : Within foot_noteLatch m) : Moves m r (noteLatch e inj s) := by
  simp only [foot_noteLatch, pms, within_or, within_zero, and_true] at hm
  unfold noteLatch
  try dsimp only
  repeat' (first
    | with_reducible assumption | with_reducible intro _ | with_reducible apply moves_modJournal |
    with_reducible apply moves_ite | split | simp only [hm])

def foot_wardFuel : Nat := foot_advance ||| foot_noteLatch ||| foot_latchLine ||| foot_driveFaultN ||| foot_forceReaction |||
    foot_aerReport ||| foot_raiseAllPfs ||| foot_jPut ||| fms [.WD_INJ_CNT, .WD_INJ_WORD]
theorem moves_wardFuel {m : Nat} {r : State} {fuel : Nat} {inj : Bool} {e : WEv} {s : State} (h : Moves m r s)
    (hm : Within foot_wardFuel m) : Moves m r (wardFuel fuel inj e s) := by
  induction fuel generalizing inj e s with
  | zero => exact h
  | succ n ih =>
    have hm' := hm
    simp only [foot_wardFuel, fms, within_or, within_zero, and_true] at hm
    unfold wardFuel
    dsimp only
    repeat' (first
      | with_reducible assumption | with_reducible apply moves_when | with_reducible apply moves_jPut
      | with_reducible apply moves_raiseAllPfs | with_reducible apply moves_aerReport
      | with_reducible apply moves_driveFaultN | with_reducible apply moves_forceReaction
      | with_reducible apply moves_latchLine | with_reducible apply moves_noteLatch | with_reducible apply moves_inc | with_reducible apply moves_setB
      | with_reducible apply moves_advance | with_reducible apply moves_ite | with_reducible apply ih | intro _ | simp only [hm])


def foot_realOver : Nat := foot_takeCapture ||| pms [.journal] ||| fms [.WD_FAULT_WORD]
theorem moves_realOver {m : Nat} {r : State} {e : WEv} {l : Latched} {s : State} (h : Moves m r s)
    (hm : Within foot_realOver m) : Moves m r (realOver e l s) := by
  simp only [foot_realOver, fms, pms, within_or, within_zero, and_true] at hm
  unfold realOver
  try dsimp only
  repeat' (first
    | with_reducible assumption | with_reducible intro _ | exact goes_fault _ | with_reducible apply moves_when |
    with_reducible apply moves_clrB | with_reducible apply moves_modJournal | with_reducible apply moves_takeCapture |
    with_reducible apply moves_ite | split | simp only [hm])

def foot_injUnder : Nat := fms [.WD_INJ_CNT, .WD_INJ_WORD]
theorem moves_injUnder {m : Nat} {r : State} {e : WEv} {s : State} (h : Moves m r s)
    (hm : Within foot_injUnder m) : Moves m r (injUnder e s) := by
  simp only [foot_injUnder, fms, within_or, within_zero, and_true] at hm
  unfold injUnder
  try dsimp only
  repeat' (first
    | with_reducible assumption | with_reducible intro _ | with_reducible apply moves_inc |
    with_reducible apply moves_setB | with_reducible apply moves_ite | split | simp only [hm])

def foot_wardEvent : Nat := foot_injUnder ||| foot_realOver ||| foot_wardFuel
theorem moves_wardEvent {m : Nat} {r : State} {inj : Bool} {e : WEv} {s : State} (h : Moves m r s)
    (hm : Within foot_wardEvent m) : Moves m r (wardEvent inj e s) := by
  simp only [foot_wardEvent, within_or] at hm
  unfold wardEvent
  try dsimp only
  repeat' (first
    | with_reducible assumption | with_reducible intro _ | with_reducible apply moves_choose |
    with_reducible apply moves_injUnder | with_reducible apply moves_realOver | with_reducible apply moves_wardFuel |
    with_reducible apply moves_ite | split | simp only [hm])

def foot_ward : Nat := foot_wardEvent
theorem moves_ward {m : Nat} {r : State} {g l : Nat} {m' : Master} {access addr : Nat} {s : State} (h : Moves m r s)
    (hm : Within foot_ward m) : Moves m r (ward g l m' access addr s) := by
  simp only [foot_ward] at hm
  unfold ward
  try dsimp only
  repeat' (first
    | with_reducible assumption | with_reducible intro _ | with_reducible apply moves_wardEvent |
    with_reducible apply moves_ite | split | simp only [hm])

def foot_wardDetail : Nat := foot_wardEvent
theorem moves_wardDetail {m : Nat} {r : State} {g l : Nat} {m' : Master} {access detail addr : Nat} {s : State} (h :
    Moves m r s)
    (hm : Within foot_wardDetail m) : Moves m r (wardDetail g l m' access detail addr s) := by
  simp only [foot_wardDetail] at hm
  unfold wardDetail
  try dsimp only
  repeat' (first
    | with_reducible assumption | with_reducible intro _ | with_reducible apply moves_wardEvent |
    with_reducible apply moves_ite | split | simp only [hm])

def foot_haltChannel : Nat := foot_haltCore ||| foot_wardDetail
theorem moves_haltChannel {m : Nat} {r : State} {c code : Nat} {b : BadReq} {s : State} (h : Moves m r s)
    (hm : Within foot_haltChannel m) : Moves m r (haltChannel c code b s) := by
  simp only [foot_haltChannel, within_or] at hm
  unfold haltChannel
  try dsimp only
  repeat' (first
    | with_reducible assumption | with_reducible intro _ | with_reducible apply moves_when |
    with_reducible apply moves_haltCore | with_reducible apply moves_wardDetail | with_reducible apply moves_ite | split
    | simp only [hm])

def foot_cadFlag (f : Fld) : Nat := foot_raiseAllPfs ||| foot_ward ||| (fm f)
theorem moves_cadFlag {m : Nat} {r : State} {f : Fld} {line : Option ℕ} {s : State} (h : Moves m r s)
    (hm : Within (foot_cadFlag f) m) : Moves m r (cadFlag f line s) := by
  simp only [foot_cadFlag, within_or] at hm
  unfold cadFlag
  try dsimp only
  repeat' (first
    | with_reducible assumption | with_reducible apply moves_withSome | with_reducible apply moves_raiseAllPfs |
    with_reducible apply moves_wr | with_reducible apply moves_ward | with_reducible apply moves_ite | split | intro _
    | simp only [hm])

def foot_traceTnState : Nat := foot_trace
theorem moves_traceTnState {m : Nat} {r : State} {n new old : ℕ} {s : State} (h : Moves m r s)
    (hm : Within foot_traceTnState m) : Moves m r (traceTnState n new old s) := by
  simp only [foot_traceTnState] at hm
  unfold traceTnState
  try dsimp only
  repeat' (first
    | with_reducible assumption | with_reducible apply moves_trace)

end Sys2Proof.Laws
end

