-- ==== Sys2Proof/Laws/FootOperands.lean ====
section
/-!
SUPPORT. The footprint of each operation of Machine/Operands.lean: which register fields and parts of the state it may change.
-/
namespace Sys2Proof.Laws
open Sys2Proof.Machine

def foot_darkHit : Nat := foot_ward ||| fms [.PW_DARK_CNT, .PW_DARK]
theorem moves_darkHit {m : Nat} {r : State} {d f access off : ℕ} {s : State} (h : Moves m r s)
    (hm : Within foot_darkHit m) : Moves m r (darkHit d f access off s) := by
  simp only [foot_darkHit, fms, within_or, within_zero, and_true] at hm
  unfold darkHit
  try dsimp only
  repeat' (first
    | with_reducible assumption | with_reducible apply moves_inc | with_reducible apply moves_setB |
    with_reducible apply moves_ward | with_reducible apply moves_ite | split | intro _ | simp only [hm])

end Sys2Proof.Laws
end

