-- ==== Sys2Proof/Laws/FootCadence.lean ====
section
/-!
SUPPORT. The footprint of each operation of Machine/Cadence.lean: which register fields and parts of the state it may change.
-/
namespace Sys2Proof.Laws
open Sys2Proof.Machine

def foot_setBucket : Nat := pms [.tens] ||| fms [.TN_BUCKET]
theorem moves_setBucket {m : Nat} {r : State} {n : Nat} {b : Int} {s : State} (h : Moves m r s)
    (hm : Within foot_setBucket m) : Moves m r (setBucket n b s) := by
  simp only [foot_setBucket, fms, pms, within_or, within_zero, and_true] at hm
  unfold setBucket
  try dsimp only
  repeat' (first
    | with_reducible assumption | with_reducible intro _ | with_reducible apply moves_wr |
    with_reducible apply moves_modTen | with_reducible apply moves_ite | split | simp only [hm])

def foot_showHeld : Nat := fms [.TN_HELD]
theorem moves_showHeld {m : Nat} {r : State} {n : ℕ} {s : State} (h : Moves m r s)
    (hm : Within foot_showHeld m) : Moves m r (showHeld n s) := by
  simp only [foot_showHeld, fms, within_or, within_zero, and_true] at hm
  unfold showHeld
  try dsimp only
  repeat' (first
    | with_reducible assumption | with_reducible apply moves_wr)

def foot_refill : Nat := foot_setBucket ||| foot_showHeld ||| pms [.tens] ||| fms [.TN_HELD_TICKS, .TN_RATE,
    .TN_DEPTH]
theorem moves_refill {m : Nat} {r : State} {n tn : Nat} {s : State} (h : Moves m r s)
    (hm : Within foot_refill m) : Moves m r (refill n tn s) := by
  simp only [foot_refill, fms, pms, within_or, within_zero, and_true] at hm
  unfold refill
  try dsimp only
  repeat' (first
    | with_reducible assumption | with_reducible intro _ | with_reducible apply moves_wr |
    with_reducible apply moves_modTen | with_reducible apply moves_setBucket | with_reducible apply moves_showHeld |
    with_reducible apply moves_ite | split | simp only [hm])

def foot_growLag : Nat := pms [.dests] ||| fms [.SH_SD_LAG]
theorem moves_growLag {m : Nat} {r : State} {n : Nat} {p : SheafPkt} {d : Nat} {s : State} (h : Moves m r s)
    (hm : Within foot_growLag m) : Moves m r (growLag n p d s) := by
  simp only [foot_growLag, fms, pms, within_or, within_zero, and_true] at hm
  unfold growLag
  try dsimp only
  repeat' (first
    | with_reducible assumption | with_reducible intro _ | with_reducible apply moves_when |
    with_reducible apply moves_draw | with_reducible apply moves_wr | with_reducible apply moves_modDest |
    with_reducible apply moves_ite | split | simp only [hm])

def foot_growLags : Nat := foot_growLag
theorem moves_growLags {m : Nat} {r : State} {n : Nat} {s : State} (h : Moves m r s)
    (hm : Within foot_growLags m) : Moves m r (growLags n s) := by
  simp only [foot_growLags] at hm
  unfold growLags
  try dsimp only
  repeat' (first
    | with_reducible assumption | with_reducible apply moves_each | with_reducible apply moves_growLag |
    with_reducible apply moves_ite | split | intro _ | simp only [hm])

def foot_ticksPass : Nat := foot_refill ||| foot_countAllInj ||| foot_countAllPrbs ||| foot_growLags ||| pms [.vecs,
    .wls, .hls, .pins, .trace] ||| fms [.WL_ERR_CUR, .WD_FIN_LEVEL]
theorem moves_ticksPass {m : Nat} {r : State} {n : Nat} {s : State} (h : Moves m r s)
    (hm : Within foot_ticksPass m) : Moves m r (ticksPass n s) := by
  simp only [foot_ticksPass, fms, pms, within_or, within_zero, and_true] at hm
  unfold ticksPass
  try dsimp only
  repeat' (first
    | with_reducible assumption | with_reducible intro _ | exact goes_fault _ | with_reducible apply moves_when |
    with_reducible apply moves_each | with_reducible apply moves_wr | with_reducible apply moves_mapVecs |
    with_reducible apply moves_mapWls | with_reducible apply moves_mapHls | with_reducible apply moves_modPins |
    with_reducible apply moves_modTrace | with_reducible apply moves_refill | with_reducible apply moves_countAllInj |
    with_reducible apply moves_countAllPrbs | with_reducible apply moves_growLags | with_reducible apply moves_ite |
    split | simp only [hm])

def foot_setPeriod : Nat := pms [.cad] ||| fms [.CAD_PERIOD]
theorem moves_setPeriod {m : Nat} {r : State} {p : ℕ} {s : State} (h : Moves m r s)
    (hm : Within foot_setPeriod m) : Moves m r (setPeriod p s) := by
  simp only [foot_setPeriod, fms, pms, within_or, within_zero, and_true] at hm
  unfold setPeriod
  try dsimp only
  repeat' (first
    | with_reducible assumption | with_reducible apply moves_wr | with_reducible apply moves_modCad |
    with_reducible apply moves_ite | split | intro _ | with_reducible exact Or.inl rfl | simp only [hm])

def foot_eraRoll : Nat := foot_journal ||| foot_traceNone ||| (foot_cadFlag .CAD_ERA_ROLL)
theorem moves_eraRoll {m : Nat} {r : State} {s : State} (h : Moves m r s)
    (hm : Within foot_eraRoll m) : Moves m r (eraRoll s) := by
  simp only [foot_eraRoll, within_or] at hm
  unfold eraRoll
  try dsimp only
  repeat' (first
    | with_reducible assumption | with_reducible apply moves_journal | with_reducible apply moves_traceNone |
    with_reducible apply moves_cadFlag | with_reducible apply moves_ite | split | intro _ | simp only [hm])

def foot_cadenceOut : Nat := 0
theorem moves_cadenceOut {m : Nat} {r : State} {s : State} (h : Moves m r s)
    (_ : Within foot_cadenceOut m) : Moves m r (cadenceOut s) := by
  unfold cadenceOut
  try dsimp only
  repeat' (first
    | with_reducible assumption | with_reducible apply moves_when | with_reducible apply moves_emit |
    with_reducible apply moves_ite | split | intro _)

def foot_queueCheckpoint : Nat := foot_journal ||| pms [.journal]
theorem moves_queueCheckpoint {m : Nat} {r : State} {c : ℕ} {s : State} (h : Moves m r s)
    (hm : Within foot_queueCheckpoint m) : Moves m r (queueCheckpoint c s) := by
  simp only [foot_queueCheckpoint, pms, within_or, within_zero, and_true] at hm
  unfold queueCheckpoint
  try dsimp only
  repeat' (first
    | with_reducible assumption | with_reducible apply moves_journal | with_reducible apply moves_modJournal |
    with_reducible apply moves_ite | split | intro _ | simp only [hm])

def foot_checkpointCheck : Nat := foot_queueCheckpoint
theorem moves_checkpointCheck {m : Nat} {r : State} {s : State} (h : Moves m r s)
    (hm : Within foot_checkpointCheck m) : Moves m r (checkpointCheck s) := by
  simp only [foot_checkpointCheck] at hm
  unfold checkpointCheck
  try dsimp only
  repeat' (first
    | with_reducible assumption | with_reducible apply moves_when | with_reducible apply moves_queueCheckpoint |
    with_reducible apply moves_ite | split | intro _ | simp only [hm])

def foot_atEpoch : Nat := foot_eraRoll ||| foot_cadenceOut ||| foot_setPeriod ||| foot_checkpointCheck ||| pms [.cad]
    ||| fms [.WD_SELFTEST_OK]
theorem moves_atEpoch {m : Nat} {r : State} {rolled : Bool} {s : State} (h : Moves m r s)
    (hm : Within foot_atEpoch m) : Moves m r (atEpoch rolled s) := by
  simp only [foot_atEpoch, fms, pms, within_or, within_zero, and_true] at hm
  unfold atEpoch
  try dsimp only
  repeat' (first
    | with_reducible assumption | with_reducible apply moves_when | with_reducible apply moves_eraRoll |
    with_reducible apply moves_cadenceOut | with_reducible apply moves_setPeriod | with_reducible apply moves_modCad |
    with_reducible apply moves_wr | with_reducible apply moves_checkpointCheck | with_reducible apply moves_ite |
    split | intro _ | with_reducible exact Or.inl rfl | simp only [hm])

def foot_toNextEpoch : Nat := foot_ticksPass ||| foot_setStamp ||| fms [.CAD_ERA]
theorem moves_toNextEpoch {m : Nat} {r : State} {s : State} (h : Moves m r s)
    (hm : Within foot_toNextEpoch m) : Moves m r (toNextEpoch s) := by
  simp only [foot_toNextEpoch, fms, within_or, within_zero, and_true] at hm
  unfold toNextEpoch
  try dsimp only
  repeat' (first
    | with_reducible assumption | with_reducible apply moves_when | with_reducible apply moves_inc |
    with_reducible apply moves_ticksPass | with_reducible apply moves_setStamp | with_reducible apply moves_ite | split
    | intro _ | simp only [hm])

def foot_epochStep : Nat := foot_atEpoch ||| foot_toNextEpoch
theorem moves_epochStep {m : Nat} {r : State} {s : State} (h : Moves m r s)
    (hm : Within foot_epochStep m) : Moves m r (epochStep s) := by
  simp only [foot_epochStep, within_or] at hm
  unfold epochStep
  try dsimp only
  repeat' (first
    | with_reducible assumption | with_reducible apply moves_atEpoch | with_reducible apply moves_toNextEpoch |
    with_reducible apply moves_ite | split | intro _ | simp only [hm])

def foot_execEpochBoundary : Nat := foot_epochStep
theorem moves_execEpochBoundary {m : Nat} {r : State} {s : State} (h : Moves m r s)
    (hm : Within foot_execEpochBoundary m) : Goes m r (execEpochBoundary s) := by
  simp only [foot_execEpochBoundary] at hm
  unfold execEpochBoundary
  try dsimp only
  repeat' (first
    | with_reducible assumption | with_reducible intro _ | refine goes_next ?_ | with_reducible apply moves_when |
    with_reducible apply moves_epochStep | with_reducible apply goes_ite | with_reducible apply moves_ite | split |
    simp only [hm])

def foot_execTickBoundary : Nat := foot_epochStep ||| foot_ticksPass ||| foot_setStamp
theorem moves_execTickBoundary {m : Nat} {r : State} {s : State} (h : Moves m r s)
    (hm : Within foot_execTickBoundary m) : Goes m r (execTickBoundary s) := by
  simp only [foot_execTickBoundary, within_or] at hm
  unfold execTickBoundary
  try dsimp only
  repeat' (first
    | with_reducible assumption | with_reducible intro _ | refine goes_next ?_ | with_reducible apply moves_when |
    with_reducible apply moves_epochStep | with_reducible apply moves_ticksPass | with_reducible apply moves_setStamp |
    with_reducible apply goes_ite | with_reducible apply moves_ite | split | simp only [hm])

def foot_cadState : Nat := foot_traceNone ||| fms [.CAD_STATE]
theorem moves_cadState {m : Nat} {r : State} {n : ℕ} {s : State} (h : Moves m r s)
    (hm : Within foot_cadState m) : Moves m r (cadState n s) := by
  simp only [foot_cadState, fms, within_or, within_zero, and_true] at hm
  unfold cadState
  try dsimp only
  repeat' (first
    | with_reducible assumption | with_reducible apply moves_wr | with_reducible apply moves_traceNone |
    with_reducible apply moves_ite | split | intro _ | simp only [hm])

def foot_passDeadlines : Nat := pms [.cad, .hostQ]
theorem moves_passDeadlines {m : Nat} {r : State} {from_ : Nat} {s : State} (h : Moves m r s)
    (hm : Within foot_passDeadlines m) : Moves m r (passDeadlines from_ s) := by
  simp only [foot_passDeadlines, pms, within_or, within_zero, and_true] at hm
  unfold passDeadlines
  try dsimp only
  repeat' (first
    | with_reducible assumption | with_reducible intro _ | with_reducible apply moves_modCad |
    with_reducible apply moves_ite | split | with_reducible apply moves_part_hostQ | with_reducible exact Or.inl rfl |
    simp only [hm])

def foot_noteSlip : Nat := pms [.cad]
theorem moves_noteSlip {m : Nat} {r : State} {s : State} (h : Moves m r s)
    (hm : Within foot_noteSlip m) : Moves m r (noteSlip s) := by
  simp only [foot_noteSlip, pms, within_or, within_zero, and_true] at hm
  unfold noteSlip
  try dsimp only
  repeat' (first
    | with_reducible assumption | with_reducible apply moves_modCad | with_reducible apply moves_ite | split | intro _
    | with_reducible exact Or.inl rfl)

def foot_slip : Nat := foot_toNextEpoch ||| foot_noteSlip ||| foot_journal ||| foot_traceNone ||| (foot_cadFlag
    .CAD_SLIP) ||| foot_passDeadlines ||| foot_atEpoch ||| fms [.CAD_SLIP_CNT]
theorem moves_slip {m : Nat} {r : State} {s : State} (h : Moves m r s)
    (hm : Within foot_slip m) : Moves m r (slip s) := by
  simp only [foot_slip, fms, within_or, within_zero, and_true] at hm
  unfold slip
  try dsimp only
  repeat' (first
    | with_reducible assumption | with_reducible apply moves_toNextEpoch | with_reducible apply moves_noteSlip |
    with_reducible apply moves_inc | with_reducible apply moves_journal | with_reducible apply moves_traceNone |
    with_reducible apply moves_cadFlag | with_reducible apply moves_passDeadlines | with_reducible apply moves_atEpoch
    | with_reducible apply moves_ite | split | intro _ | simp only [hm])

def foot_openDiv : Nat := 0
theorem moves_openDiv {m : Nat} {r : State} {a b : ℕ} {s : State} {k : ℕ → State → State} (hk : ∀ y z, Moves m r z →
    Moves m r (k y z)) (h : Moves m r s)
    (_ : Within foot_openDiv m) : Moves m r (openDiv a b s k) := by
  unfold openDiv
  try dsimp only
  repeat' (first
    | with_reducible assumption | with_reducible apply moves_choose | with_reducible apply hk |
    with_reducible apply moves_ite | split | intro _)

def foot_accept : Nat := pms [.cad]
theorem moves_accept {m : Nat} {r : State} {s : State} (h : Moves m r s)
    (hm : Within foot_accept m) : Moves m r (accept s) := by
  simp only [foot_accept, pms, within_or, within_zero, and_true] at hm
  unfold accept
  try dsimp only
  repeat' (first
    | with_reducible assumption | with_reducible apply moves_modCad | with_reducible apply moves_ite | split | intro _
    | with_reducible exact Or.inl rfl)

def foot_glitch : Nat := foot_traceNone ||| foot_raiseAllPfs ||| fms [.CAD_GLITCH, .CAD_GLITCH_CNT]
theorem moves_glitch {m : Nat} {r : State} {s : State} (h : Moves m r s)
    (hm : Within foot_glitch m) : Moves m r (glitch s) := by
  simp only [foot_glitch, fms, within_or, within_zero, and_true] at hm
  unfold glitch
  try dsimp only
  repeat' (first
    | with_reducible assumption | with_reducible apply moves_traceNone | with_reducible apply moves_raiseAllPfs |
    with_reducible apply moves_wr | with_reducible apply moves_inc | with_reducible apply moves_ite | split | intro _
    | simp only [hm])

def foot_pulseAcquiring : Nat := foot_openDiv ||| foot_accept ||| foot_cadState ||| foot_slip ||| foot_setPeriod |||
    (foot_cadFlag .CAD_RANGE) ||| pms [.cad]
theorem moves_pulseAcquiring {m : Nat} {r : State} {i : ℕ} {s : State} (h : Moves m r s)
    (hm : Within foot_pulseAcquiring m) : Moves m r (pulseAcquiring i s) := by
  simp only [foot_pulseAcquiring, pms, within_or, within_zero, and_true] at hm
  unfold pulseAcquiring
  try dsimp only
  repeat' (first
    | with_reducible assumption | with_reducible apply moves_when | with_reducible apply moves_openDiv |
    with_reducible apply moves_accept | with_reducible apply moves_cadState | with_reducible apply moves_slip |
    with_reducible apply moves_setPeriod | with_reducible apply moves_modCad | with_reducible apply moves_cadFlag |
    with_reducible apply moves_ite | split | intro _ | with_reducible exact Or.inl rfl | simp only [hm])

def foot_pulseLocked : Nat := foot_openDiv ||| foot_accept ||| foot_cadState ||| foot_setPeriod ||| foot_slip |||
    (foot_cadFlag .CAD_RANGE) ||| pms [.cad] ||| fms [.CAD_PHASE_ERR, .CAD_LOST_CNT]
theorem moves_pulseLocked {m : Nat} {r : State} {i : Nat} {s : State} (h : Moves m r s)
    (hm : Within foot_pulseLocked m) : Moves m r (pulseLocked i s) := by
  simp only [foot_pulseLocked, fms, pms, within_or, within_zero, and_true] at hm
  unfold pulseLocked
  try dsimp only
  repeat' (first
    | with_reducible assumption | with_reducible apply moves_when | with_reducible apply moves_wr |
    with_reducible apply moves_add | with_reducible apply moves_modCad | with_reducible apply moves_openDiv |
    with_reducible apply moves_accept | with_reducible apply moves_cadState | with_reducible apply moves_setPeriod |
    with_reducible apply moves_slip | with_reducible apply moves_cadFlag | with_reducible apply moves_ite | split |
    intro _ | with_reducible exact Or.inl rfl | simp only [hm])

def foot_pulseSeen : Nat := foot_accept ||| foot_cadState ||| foot_glitch ||| foot_pulseAcquiring ||| foot_pulseLocked
    ||| pms [.cad]
theorem moves_pulseSeen {m : Nat} {r : State} {i : ℕ} {s : State} (h : Moves m r s)
    (hm : Within foot_pulseSeen m) : Moves m r (pulseSeen i s) := by
  simp only [foot_pulseSeen, pms, within_or, within_zero, and_true] at hm
  unfold pulseSeen
  try dsimp only
  repeat' (first
    | with_reducible assumption | with_reducible apply moves_accept | with_reducible apply moves_cadState |
    with_reducible apply moves_modCad | with_reducible apply moves_glitch | with_reducible apply moves_pulseAcquiring
    | with_reducible apply moves_pulseLocked | with_reducible apply moves_ite | split | intro _ |
    with_reducible exact Or.inl rfl | simp only [hm])

def foot_takeEdge : Nat := foot_pulseSeen ||| pms [.cad]
theorem moves_takeEdge {m : Nat} {r : State} {high : Bool} {i : Nat} {s : State} (h : Moves m r s)
    (hm : Within foot_takeEdge m) : Moves m r (takeEdge high i s) := by
  simp only [foot_takeEdge, pms, within_or, within_zero, and_true] at hm
  unfold takeEdge
  try dsimp only
  repeat' (first
    | with_reducible assumption | with_reducible intro _ | with_reducible apply moves_when |
    with_reducible apply moves_modCad | with_reducible apply moves_emit | with_reducible apply moves_pulseSeen |
    with_reducible apply moves_ite | split | with_reducible exact Or.inl rfl | simp only [hm])

def foot_edgeSeen : Nat := foot_takeEdge ||| pms [.cad]
theorem moves_edgeSeen {m : Nat} {r : State} {high : Bool} {i : Nat} {s : State} (h : Moves m r s)
    (hm : Within foot_edgeSeen m) : Moves m r (edgeSeen high i s) := by
  simp only [foot_edgeSeen, pms, within_or, within_zero, and_true] at hm
  unfold edgeSeen
  try dsimp only
  repeat' (first
    | with_reducible assumption | with_reducible intro _ | with_reducible apply moves_when |
    with_reducible apply moves_modCad | with_reducible apply moves_takeEdge | with_reducible apply moves_ite | split |
    with_reducible exact Or.inl rfl | simp only [hm])

def foot_execCadencePulse : Nat := foot_setStamp ||| foot_edgeSeen
theorem moves_execCadencePulse {m : Nat} {r : State} {widthNs interval : Nat} {edge : InputEdge} {s : State} (h :
    Moves m r s)
    (hm : Within foot_execCadencePulse m) : Goes m r (execCadencePulse widthNs interval edge s) := by
  simp only [foot_execCadencePulse, within_or] at hm
  unfold execCadencePulse
  try dsimp only
  repeat' (first
    | with_reducible assumption | with_reducible intro _ | refine goes_next ?_ | with_reducible apply moves_when |
    with_reducible apply moves_choose | with_reducible apply moves_setStamp | with_reducible apply moves_edgeSeen |
    with_reducible apply goes_ite | with_reducible apply moves_ite | split | simp only [hm])

def foot_showCadOut : Nat := 0
theorem moves_showCadOut {m : Nat} {r : State} {was : Bool × Bool} {s : State} (h : Moves m r s)
    (_ : Within foot_showCadOut m) : Moves m r (showCadOut was s) := by
  unfold showCadOut
  try dsimp only
  repeat' (first
    | with_reducible assumption | with_reducible apply moves_when | with_reducible apply moves_emit |
    with_reducible apply moves_ite | split | intro _)

def foot_execSlewEnd : Nat := pms [.cad]
theorem moves_execSlewEnd {m : Nat} {r : State} {s : State} (h : Moves m r s)
    (hm : Within foot_execSlewEnd m) : Goes m r (execSlewEnd s) := by
  simp only [foot_execSlewEnd, pms, within_or, within_zero, and_true] at hm
  unfold execSlewEnd
  try dsimp only
  repeat' (first
    | with_reducible assumption | refine goes_next ?_ | with_reducible apply moves_modCad |
    with_reducible apply goes_ite | with_reducible apply moves_ite | split | intro _ |
    with_reducible exact Or.inl rfl)

def foot_execCoastingOnset : Nat := foot_setStamp ||| foot_cadState ||| (foot_cadFlag .CAD_LOST_PULSE)
theorem moves_execCoastingOnset {m : Nat} {r : State} {s : State} (h : Moves m r s)
    (hm : Within foot_execCoastingOnset m) : Goes m r (execCoastingOnset s) := by
  simp only [foot_execCoastingOnset, within_or] at hm
  unfold execCoastingOnset
  try dsimp only
  repeat' (first
    | with_reducible assumption | refine goes_next ?_ | with_reducible apply moves_when |
    with_reducible apply moves_setStamp | with_reducible apply moves_cadState | with_reducible apply moves_cadFlag |
    with_reducible apply goes_ite | with_reducible apply moves_ite | split | intro _ | simp only [hm])

def foot_execAcquireTimeout : Nat := foot_cadState ||| pms [.cad]
theorem moves_execAcquireTimeout {m : Nat} {r : State} {s : State} (h : Moves m r s)
    (hm : Within foot_execAcquireTimeout m) : Goes m r (execAcquireTimeout s) := by
  simp only [foot_execAcquireTimeout, pms, within_or, within_zero, and_true] at hm
  unfold execAcquireTimeout
  try dsimp only
  repeat' (first
    | with_reducible assumption | refine goes_next ?_ | with_reducible apply moves_when |
    with_reducible apply moves_cadState | with_reducible apply moves_modCad | with_reducible apply goes_ite |
    with_reducible apply moves_ite | split | intro _ | with_reducible exact Or.inl rfl | simp only [hm])

def foot_execCheckpointOverdue : Nat := foot_ward
theorem moves_execCheckpointOverdue {m : Nat} {r : State} {s : State} (h : Moves m r s)
    (hm : Within foot_execCheckpointOverdue m) : Goes m r (execCheckpointOverdue s) := by
  simp only [foot_execCheckpointOverdue] at hm
  unfold execCheckpointOverdue
  try dsimp only
  repeat' (first
    | with_reducible assumption | refine goes_next ?_ | with_reducible apply moves_when |
    with_reducible apply moves_ward | with_reducible apply goes_ite | with_reducible apply moves_ite | split |
    intro _)

def foot_setCadEn : Nat := foot_cadState ||| pms [.cad] ||| fms [.CAD_EN]
theorem moves_setCadEn {m : Nat} {r : State} {en : Bool} {s : State} (h : Moves m r s)
    (hm : Within foot_setCadEn m) : Moves m r (setCadEn en s) := by
  simp only [foot_setCadEn, fms, pms, within_or, within_zero, and_true] at hm
  unfold setCadEn
  try dsimp only
  repeat' (first
    | with_reducible assumption | with_reducible apply moves_when | with_reducible apply moves_wr |
    with_reducible apply moves_cadState | with_reducible apply moves_modCad | with_reducible apply moves_ite | split |
    intro _ | with_reducible exact Or.inl rfl | simp only [hm])

def foot_setCadSrc : Nat := foot_cadState ||| pms [.cad] ||| fms [.CAD_SRC]
theorem moves_setCadSrc {m : Nat} {r : State} {src : Bool} {s : State} (h : Moves m r s)
    (hm : Within foot_setCadSrc m) : Moves m r (setCadSrc src s) := by
  simp only [foot_setCadSrc, fms, pms, within_or, within_zero, and_true] at hm
  unfold setCadSrc
  try dsimp only
  repeat' (first
    | with_reducible assumption | with_reducible apply moves_when | with_reducible apply moves_wr |
    with_reducible apply moves_cadState | with_reducible apply moves_modCad | with_reducible apply moves_ite | split |
    intro _ | with_reducible exact Or.inl rfl | simp only [hm])

def foot_execCadEnChange : Nat := foot_setCadEn
theorem moves_execCadEnChange {m : Nat} {r : State} {fn : Fn} {en : Bool} {s : State} (h : Moves m r s)
    (hm : Within foot_execCadEnChange m) : Goes m r (execCadEnChange fn en s) := by
  simp only [foot_execCadEnChange] at hm
  unfold execCadEnChange
  try dsimp only
  repeat' (first
    | with_reducible assumption | refine goes_next ?_ | with_reducible apply moves_when |
    with_reducible apply moves_setCadEn | with_reducible apply goes_ite | with_reducible apply moves_ite | split |
    intro _)

def foot_execCadSrcChange : Nat := foot_setCadSrc
theorem moves_execCadSrcChange {m : Nat} {r : State} {fn : Fn} {src : Bool} {s : State} (h : Moves m r s)
    (hm : Within foot_execCadSrcChange m) : Goes m r (execCadSrcChange fn src s) := by
  simp only [foot_execCadSrcChange] at hm
  unfold execCadSrcChange
  try dsimp only
  repeat' (first
    | with_reducible assumption | refine goes_next ?_ | with_reducible apply moves_when |
    with_reducible apply moves_setCadSrc | with_reducible apply goes_ite | with_reducible apply moves_ite | split |
    intro _)

def foot_execCadNominalWrite : Nat := fms [.CAD_NOMINAL]
theorem moves_execCadNominalWrite {m : Nat} {r : State} {fn : Fn} {v : BitVec 32} {s : State} (h : Moves m r s)
    (hm : Within foot_execCadNominalWrite m) : Goes m r (execCadNominalWrite fn v s) := by
  simp only [foot_execCadNominalWrite, fms, within_or, within_zero, and_true] at hm
  unfold execCadNominalWrite
  try dsimp only
  repeat' (first
    | with_reducible assumption | refine goes_next ?_ | with_reducible apply moves_when |
    with_reducible apply moves_wr | with_reducible apply goes_ite | with_reducible apply moves_ite | split | intro _)

end Sys2Proof.Laws
end

