-- ==== Sys2Proof/Laws/FootInterrupts.lean ====
section
/-!
SUPPORT. The footprint of each operation of Machine/Interrupts.lean: which register fields and parts of the state it may change.
-/
namespace Sys2Proof.Laws
open Sys2Proof.Machine

def foot_releaseVec : Nat := foot_sendVec ||| foot_pmeSignal ||| pms [.vecs]
theorem moves_releaseVec {m : Nat} {r : State} {f v : Nat} {s : State} (h : Moves m r s)
    (hm : Within foot_releaseVec m) : Moves m r (releaseVec f v s) := by
  simp only [foot_releaseVec, pms, within_or, within_zero, and_true] at hm
  unfold releaseVec
  try dsimp only
  repeat' (first
    | with_reducible assumption | with_reducible intro _ | with_reducible apply moves_when |
    with_reducible apply moves_modVec | with_reducible apply moves_sendVec | with_reducible apply moves_pmeSignal |
    with_reducible apply moves_ite | split | simp only [hm])

def foot_endHoldoff : Nat := foot_raiseVec ||| foot_releaseVec ||| pms [.vecs] ||| fms [.FI_WAITING, .FI_HOLDOFF]
theorem moves_endHoldoff {m : Nat} {r : State} {f v : ℕ} {s : State} (h : Moves m r s)
    (hm : Within foot_endHoldoff m) : Moves m r (endHoldoff f v s) := by
  simp only [foot_endHoldoff, fms, pms, within_or, within_zero, and_true] at hm
  unfold endHoldoff
  try dsimp only
  repeat' (first
    | with_reducible assumption | with_reducible apply moves_modVec | with_reducible apply moves_wr |
    with_reducible apply moves_raiseVec | with_reducible apply moves_releaseVec | with_reducible apply moves_ite |
    split | intro _ | simp only [hm])

def foot_execHoldoffEnd : Nat := foot_endHoldoff
theorem moves_execHoldoffEnd {m : Nat} {r : State} {fn : Fn} {v : Fin 128} {s : State} (h : Moves m r s)
    (hm : Within foot_execHoldoffEnd m) : Goes m r (execHoldoffEnd fn v s) := by
  simp only [foot_execHoldoffEnd] at hm
  unfold execHoldoffEnd
  try dsimp only
  repeat' (first
    | with_reducible assumption | refine goes_next ?_ | with_reducible apply moves_when |
    with_reducible apply moves_endHoldoff | with_reducible apply goes_ite | with_reducible apply moves_ite | split |
    intro _)

def foot_writeModTicks : Nat := foot_endHoldoff ||| pms [.vecs] ||| fms [.FI_MOD_TICKS]
theorem moves_writeModTicks {m : Nat} {r : State} {f v n : ℕ} {s : State} (h : Moves m r s)
    (hm : Within foot_writeModTicks m) : Moves m r (writeModTicks f v n s) := by
  simp only [foot_writeModTicks, fms, pms, within_or, within_zero, and_true] at hm
  unfold writeModTicks
  try dsimp only
  repeat' (first
    | with_reducible assumption | with_reducible apply moves_when | with_reducible apply moves_wr |
    with_reducible apply moves_modVec | with_reducible apply moves_endHoldoff | with_reducible apply moves_ite | split
    | intro _ | simp only [hm])

def foot_execModTicksWrite : Nat := foot_writeModTicks
theorem moves_execModTicksWrite {m : Nat} {r : State} {fn : Fn} {v : Fin 128} {ticks : Fin 256} {s : State} (h : Moves
    m r s)
    (hm : Within foot_execModTicksWrite m) : Goes m r (execModTicksWrite fn v ticks s) := by
  simp only [foot_execModTicksWrite] at hm
  unfold execModTicksWrite
  try dsimp only
  repeat' (first
    | with_reducible assumption | refine goes_next ?_ | with_reducible apply moves_when |
    with_reducible apply moves_writeModTicks | with_reducible apply goes_ite | with_reducible apply moves_ite | split
    | intro _)

def foot_writeFnEventEn : Nat := foot_raiseVec ||| fms [.FI_FN_EVENT_EN]
theorem moves_writeFnEventEn {m : Nat} {r : State} {f v : ℕ} {s : State} (h : Moves m r s)
    (hm : Within foot_writeFnEventEn m) : Moves m r (writeFnEventEn f v s) := by
  simp only [foot_writeFnEventEn, fms, within_or, within_zero, and_true] at hm
  unfold writeFnEventEn
  try dsimp only
  repeat' (first
    | with_reducible assumption | with_reducible apply moves_each | with_reducible apply moves_when |
    with_reducible apply moves_wr | with_reducible apply moves_raiseVec | with_reducible apply moves_ite | split |
    intro _ | simp only [hm])

def foot_execFnEventEnWrite : Nat := foot_writeFnEventEn
theorem moves_execFnEventEnWrite {m : Nat} {r : State} {fn : Fn} {v : BitVec 14} {s : State} (h : Moves m r s)
    (hm : Within foot_execFnEventEnWrite m) : Goes m r (execFnEventEnWrite fn v s) := by
  simp only [foot_execFnEventEnWrite] at hm
  unfold execFnEventEnWrite
  try dsimp only
  repeat' (first
    | with_reducible assumption | refine goes_next ?_ | with_reducible apply moves_when |
    with_reducible apply moves_writeFnEventEn | with_reducible apply goes_ite | with_reducible apply moves_ite | split
    | intro _)

def foot_writeChIrq : Nat := foot_raiseVec ||| fms [.CH_ERR_EN, .CH_VEC_ERR, .CH_FULL_EN, .CH_VEC_FULL, .CH_HALF_EN,
    .CH_VEC_HALF]
theorem moves_writeChIrq {m : Nat} {r : State} {c v : ℕ} {s : State} (h : Moves m r s)
    (hm : Within foot_writeChIrq m) : Moves m r (writeChIrq c v s) := by
  simp only [foot_writeChIrq, fms, within_or, within_zero, and_true] at hm
  unfold writeChIrq
  try dsimp only
  repeat' (first
    | with_reducible assumption | with_reducible apply moves_each | with_reducible apply moves_when |
    with_reducible apply moves_wr | with_reducible apply moves_raiseVec | with_reducible apply moves_ite | split |
    intro _ | simp only [hm])

def foot_execChIrqEnableWrite : Nat := foot_writeChIrq
theorem moves_execChIrqEnableWrite {m : Nat} {r : State} {fn : Fn} {ch : Chan} {v : BitVec 24} {s : State} (h : Moves
    m r s)
    (hm : Within foot_execChIrqEnableWrite m) : Goes m r (execChIrqEnableWrite fn ch v s) := by
  simp only [foot_execChIrqEnableWrite] at hm
  unfold execChIrqEnableWrite
  try dsimp only
  repeat' (first
    | with_reducible assumption | refine goes_next ?_ | with_reducible apply moves_when |
    with_reducible apply moves_writeChIrq | with_reducible apply goes_ite | with_reducible apply moves_ite | split |
    intro _)

def foot_execMsixUnmask : Nat := foot_releaseVec ||| pms [.vecs]
theorem moves_execMsixUnmask {m : Nat} {r : State} {fn : Fn} {v : Fin 128} {s : State} (h : Moves m r s)
    (hm : Within foot_execMsixUnmask m) : Goes m r (execMsixUnmask fn v s) := by
  simp only [foot_execMsixUnmask, pms, within_or, within_zero, and_true] at hm
  unfold execMsixUnmask
  try dsimp only
  repeat' (first
    | with_reducible assumption | refine goes_next ?_ | with_reducible apply moves_when |
    with_reducible apply moves_releaseVec | with_reducible apply moves_modVec | with_reducible apply goes_ite |
    with_reducible apply moves_ite | split | intro _ | simp only [hm])

end Sys2Proof.Laws
end

