-- ==== Sys2Proof/Laws/FootRequests.lean ====
section
/-!
SUPPORT. The footprint of each operation of Machine/Requests.lean: which register fields and parts of the state it may change.
-/
namespace Sys2Proof.Laws
open Sys2Proof.Machine

def foot_freeCells : Nat := fms [.TI_CELLS_USED, .TN_CELLS_USED]
theorem moves_freeCells {m : Nat} {r : State} {n : ℕ} {t : HTag} {s : State} (h : Moves m r s)
    (hm : Within foot_freeCells m) : Moves m r (freeCells n t s) := by
  simp only [foot_freeCells, fms, within_or, within_zero, and_true] at hm
  unfold freeCells
  try dsimp only
  repeat' (first
    | with_reducible assumption | with_reducible apply moves_when | with_reducible apply moves_wr |
    with_reducible apply moves_ite | split | intro _ | simp only [hm])

def foot_showBlocked : Nat := fms [.TI_READS_BLOCKED]
theorem moves_showBlocked {m : Nat} {r : State} {t : ℕ} {s : State} (h : Moves m r s)
    (hm : Within foot_showBlocked m) : Moves m r (showBlocked t s) := by
  simp only [foot_showBlocked, fms, within_or, within_zero, and_true] at hm
  unfold showBlocked
  try dsimp only
  repeat' (first
    | with_reducible assumption | with_reducible apply moves_wr)

def foot_setMode (c : Fld) : Nat := foot_showBlocked ||| (fm c) ||| fms [.TI_CONSERVATIVE]
theorem moves_setMode {m : Nat} {r : State} {c : Fld} {on : Bool} {t : ℕ} {s : State} (h : Moves m r s)
    (hm : Within (foot_setMode c) m) : Moves m r (setMode c on t s) := by
  simp only [foot_setMode, fms, within_or, within_zero, and_true] at hm
  unfold setMode
  try dsimp only
  repeat' (first
    | with_reducible assumption | with_reducible apply moves_wr | with_reducible apply moves_showBlocked |
    with_reducible apply moves_ite | split | intro _ | simp only [hm])

def foot_releaseTag : Nat := foot_freeCells ||| pms [.tags] ||| fms [.TN_QUAR_TAGS, .TI_QUARANTINED, .TI_CONS_OUT,
    .TN_LIVE_TAGS, .TI_OUTSTANDING]
theorem moves_releaseTag {m : Nat} {r : State} {t : HTag} {s : State} (h : Moves m r s)
    (hm : Within foot_releaseTag m) : Moves m r (releaseTag t s) := by
  simp only [foot_releaseTag, fms, pms, within_or, within_zero, and_true] at hm
  unfold releaseTag
  try dsimp only
  repeat' (first
    | with_reducible assumption | with_reducible apply moves_when | with_reducible apply moves_freeCells |
    with_reducible apply moves_dec | with_reducible apply moves_ite | split | with_reducible apply moves_part_tags |
    intro _ | simp only [hm])

def foot_quarantineTag : Nat := foot_freeCells ||| pms [.tags] ||| fms [.TI_CONS_OUT, .TI_QUARANTINED,
    .TI_OUTSTANDING, .TN_QUAR_TAGS, .TN_LIVE_TAGS]
theorem moves_quarantineTag {m : Nat} {r : State} {t : HTag} {timedOut : Bool} {s : State} (h : Moves m r s)
    (hm : Within foot_quarantineTag m) : Moves m r (quarantineTag t timedOut s) := by
  simp only [foot_quarantineTag, fms, pms, within_or, within_zero, and_true] at hm
  unfold quarantineTag
  try dsimp only
  repeat' (first
    | with_reducible assumption | with_reducible apply moves_when | with_reducible apply moves_freeCells |
    with_reducible apply moves_mapTags | with_reducible apply moves_dec | with_reducible apply moves_inc |
    with_reducible apply moves_ite | split | intro _ | simp only [hm])

def foot_bumpGeneration : Nat := foot_trace ||| foot_quarantineTag ||| pms [.tags] ||| fms [.TN_GEN_CNT,
    .TN_GENERATION, .DVSEC_GENERATION]
theorem moves_bumpGeneration {m : Nat} {r : State} {tn : ℕ} {s : State} (h : Moves m r s)
    (hm : Within foot_bumpGeneration m) : Moves m r (bumpGeneration tn s) := by
  simp only [foot_bumpGeneration, fms, pms, within_or, within_zero, and_true] at hm
  unfold bumpGeneration
  try dsimp only
  repeat' (first
    | with_reducible assumption | with_reducible apply moves_each | with_reducible apply moves_inc |
    with_reducible apply moves_wr | with_reducible apply moves_trace | with_reducible apply moves_quarantineTag |
    with_reducible apply moves_mapTags | with_reducible apply moves_ite | split | intro _ | simp only [hm])

end Sys2Proof.Laws
end

