-- ==== Sys2Proof/Laws/FootKeeper.lean ====
section
/-!
SUPPORT. The footprint of each operation of Machine/Keeper.lean: which register fields and parts of the state it may change.
-/
namespace Sys2Proof.Laws
open Sys2Proof.Machine

/-- A Keeper command's effects move no more than the mask names. -/
def CmdMoves (m : Nat) (r : State) (c : Cmd) : Prop :=
  (∀ z, Moves m r z → Moves m r (c.act z)) ∧ ∀ z, Moves m r z → Moves m r (c.onAccept z)

theorem cmd_mk {m : Nat} {r : State} {op lenOk priv acts atOk params dark own key busy sched onAccept act}
    (ha : ∀ z, Moves m r z → Moves m r (act z)) (ho : ∀ z, Moves m r z → Moves m r (onAccept z)) :
    CmdMoves m r ⟨op, lenOk, priv, acts, atOk, params, dark, own, key, busy, sched, onAccept, act⟩ := ⟨ha, ho⟩

def foot_setKState : Nat := fms [.KP_KSTATE]
theorem moves_setKState {m : Nat} {r : State} {n : Nat} {s : State} (h : Moves m r s)
    (hm : Within foot_setKState m) : Moves m r (setKState n s) := by
  simp only [foot_setKState, fms, within_or, within_zero, and_true] at hm
  unfold setKState
  try dsimp only
  repeat' (first
    | with_reducible assumption | with_reducible intro _ | with_reducible apply moves_wr |
    with_reducible apply moves_ite | split | simp only [hm])

def foot_showKeeper : Nat := fms [.KP_CTX_BUSY, .KP_SCHED_ALL, .KR_SCHEDULED]
theorem moves_showKeeper {m : Nat} {r : State} {i : Issuer} {s : State} (h : Moves m r s)
    (hm : Within foot_showKeeper m) : Moves m r (showKeeper i s) := by
  simp only [foot_showKeeper, fms, within_or, within_zero, and_true] at hm
  unfold showKeeper
  try dsimp only
  repeat' (first
    | with_reducible assumption | with_reducible apply moves_wr | with_reducible apply moves_ite | split | intro _ |
    simp only [hm])

def foot_freeCtx : Nat := foot_showKeeper ||| pms [.keeper]
theorem moves_freeCtx {m : Nat} {r : State} {r' : CmdReq} {op : ℕ} {s : State} (h : Moves m r s)
    (hm : Within foot_freeCtx m) : Moves m r (freeCtx r' op s) := by
  simp only [foot_freeCtx, pms, within_or, within_zero, and_true] at hm
  unfold freeCtx
  try dsimp only
  repeat' (first
    | with_reducible assumption | with_reducible apply moves_showKeeper | with_reducible apply moves_modKeeper |
    with_reducible apply moves_ite | split | intro _ | simp only [hm])

def foot_sendReply : Nat := foot_advance ||| foot_raiseCause ||| pms [.keeper, .hostQ] ||| fms [.KR_RPL_PI]
theorem moves_sendReply {m : Nat} {r : State} {r' : CmdReq} {op status : Nat} {interim : Bool} {data : Bytes} {gen :
    Nat} {s : State} (h : Moves m r s)
    (hm : Within foot_sendReply m) : Moves m r (sendReply r' op status interim data gen s) := by
  simp only [foot_sendReply, fms, pms, within_or, within_zero, and_true] at hm
  unfold sendReply
  try dsimp only
  repeat' (first
    | with_reducible assumption | with_reducible intro _ | with_reducible apply moves_when |
    with_reducible apply moves_wr | with_reducible apply moves_modKeeper | with_reducible apply moves_enqueueHost |
    with_reducible apply moves_emit | with_reducible apply moves_advance | with_reducible apply moves_raiseCause |
    with_reducible apply moves_ite | split | simp only [hm])

def foot_finishCore : Nat := foot_traceNone ||| foot_sendReply ||| foot_freeCtx ||| pms [.keeper] ||| fms
    [.KP_CMD_CNT, .KP_FAIL_CNT, .KP_CANCEL_CNT, .KR_FAIL_CNT, .KR_IN_FLIGHT]
theorem moves_finishCore {m : Nat} {r : State} {r' : CmdReq} {op status : Nat} {data : Bytes} {gen : Nat} {s :
    State} (h : Moves m r s)
    (hm : Within foot_finishCore m) : Moves m r (finishCore r' op status data gen s) := by
  simp only [foot_finishCore, fms, pms, within_or, within_zero, and_true] at hm
  unfold finishCore
  try dsimp only
  repeat' (first
    | with_reducible assumption | with_reducible intro _ | with_reducible apply moves_when |
    with_reducible apply moves_inc | with_reducible apply moves_dec | with_reducible apply moves_modKeeper |
    with_reducible apply moves_traceNone | with_reducible apply moves_sendReply | with_reducible apply moves_freeCtx |
    with_reducible apply moves_ite | split | simp only [hm])

def foot_setUpdState : Nat := foot_traceNone ||| pms [.upd]
theorem moves_setUpdState {m : Nat} {r : State} {n : ℕ} {s : State} (h : Moves m r s)
    (hm : Within foot_setUpdState m) : Moves m r (setUpdState n s) := by
  simp only [foot_setUpdState, pms, within_or, within_zero, and_true] at hm
  unfold setUpdState
  try dsimp only
  repeat' (first
    | with_reducible assumption | with_reducible apply moves_when | with_reducible apply moves_traceNone |
    with_reducible apply moves_modUpd | with_reducible apply moves_ite | split | intro _ |
    (with_reducible exact fuses_same rfl rfl rfl rfl rfl) | simp only [hm])

def foot_unschedule : Nat := foot_showKeeper ||| foot_setUpdState ||| pms [.keeper] ||| fms [.TN_FREEZE_SET]
theorem moves_unschedule {m : Nat} {r : State} {e : Sched} {s : State} (h : Moves m r s)
    (hm : Within foot_unschedule m) : Moves m r (unschedule e s) := by
  simp only [foot_unschedule, fms, pms, within_or, within_zero, and_true] at hm
  unfold unschedule
  try dsimp only
  repeat' (first
    | with_reducible assumption | with_reducible apply moves_when | with_reducible apply moves_showKeeper |
    with_reducible apply moves_modKeeper | with_reducible apply moves_wr | with_reducible apply moves_setUpdState |
    with_reducible apply moves_ite | split | intro _ | simp only [hm])

def foot_cancelAll : Nat := foot_finishCore ||| foot_unschedule ||| pms [.keeper]
theorem moves_cancelAll {m : Nat} {r : State} {s : State} (h : Moves m r s)
    (hm : Within foot_cancelAll m) : Moves m r (cancelAll s) := by
  simp only [foot_cancelAll, pms, within_or, within_zero, and_true] at hm
  unfold cancelAll
  try dsimp only
  repeat' (first
    | with_reducible assumption | with_reducible intro _ | with_reducible apply moves_each |
    with_reducible apply moves_modKeeper | with_reducible apply moves_finishCore | with_reducible apply moves_unschedule
    | with_reducible apply moves_ite | split | simp only [hm])

def foot_enterRestart : Nat := foot_cancelAll ||| foot_journal ||| foot_traceNone ||| foot_setKState ||| pms [.upd]
    ||| fms [.KP_RESTART_CNT]
theorem moves_enterRestart {m : Nat} {r : State} {kind : ℕ} {s : State} (h : Moves m r s)
    (hm : Within foot_enterRestart m) : Moves m r (enterRestart kind s) := by
  simp only [foot_enterRestart, fms, pms, within_or, within_zero, and_true] at hm
  unfold enterRestart
  try dsimp only
  repeat' (first
    | with_reducible assumption | with_reducible apply moves_cancelAll | with_reducible apply moves_modUpd |
    with_reducible apply moves_journal | with_reducible apply moves_traceNone | with_reducible apply moves_inc |
    with_reducible apply moves_setKState | with_reducible apply moves_ite | split | intro _ |
    (with_reducible exact fuses_same rfl rfl rfl rfl rfl) | simp only [hm])

def foot_drainEnds : Nat := foot_enterRestart
theorem moves_drainEnds {m : Nat} {r : State} {s : State} (h : Moves m r s)
    (hm : Within foot_drainEnds m) : Moves m r (drainEnds s) := by
  simp only [foot_drainEnds] at hm
  unfold drainEnds
  try dsimp only
  repeat' (first
    | with_reducible assumption | with_reducible apply moves_when | with_reducible apply moves_enterRestart |
    with_reducible apply moves_ite | split | intro _)

def foot_answerUnknowns : Nat := foot_finishCore
theorem moves_answerUnknowns {m : Nat} {r : State} {a0 : Nat} {a1 : State} (h : Moves m r a1)
    (hm : Within foot_answerUnknowns m) : Moves m r (answerUnknowns a0 a1) := by
  simp only [foot_answerUnknowns] at hm
  induction a0 generalizing a1 with
  | zero => exact h
  | succ k ih =>
    unfold answerUnknowns
    try dsimp only
    repeat' (first
      | with_reducible assumption | with_reducible intro _ | with_reducible apply ih |
      with_reducible apply moves_finishCore | with_reducible apply moves_ite | split | simp only [hm])

def foot_finishGen : Nat := foot_drainEnds ||| foot_answerUnknowns ||| foot_finishCore
theorem moves_finishGen {m : Nat} {r : State} {r' : CmdReq} {op status : Nat} {data : Bytes} {gen : Nat} {s : State}
    (h : Moves m r s)
    (hm : Within foot_finishGen m) : Moves m r (finishGen r' op status data gen s) := by
  simp only [foot_finishGen, within_or] at hm
  unfold finishGen
  try dsimp only
  repeat' (first
    | with_reducible assumption | with_reducible intro _ | with_reducible apply moves_drainEnds |
    with_reducible apply moves_answerUnknowns | with_reducible apply moves_finishCore | with_reducible apply moves_ite |
    split | simp only [hm])

def foot_finish : Nat := foot_finishGen
theorem moves_finish {m : Nat} {r : State} {r' : CmdReq} {op status : ℕ} {data : Bytes} {s : State} (h : Moves m r s)
    (hm : Within foot_finish m) : Moves m r (finish r' op status data s) := by
  simp only [foot_finish] at hm
  unfold finish
  try dsimp only
  repeat' (first
    | with_reducible assumption | with_reducible apply moves_finishGen)

def foot_finishBusy : Nat := foot_finish
theorem moves_finishBusy {m : Nat} {r : State} {r' : CmdReq} {op : ℕ} {s : State} (h : Moves m r s)
    (hm : Within foot_finishBusy m) : Moves m r (finishBusy r' op s) := by
  simp only [foot_finishBusy] at hm
  unfold finishBusy
  try dsimp only
  repeat' (first
    | with_reducible assumption | with_reducible apply moves_draw | with_reducible apply moves_finish |
    with_reducible apply moves_ite | split | intro _)

def foot_waitOn : Nat := foot_freeCtx ||| pms [.keeper]
theorem moves_waitOn {m : Nat} {r : State} {r' : CmdReq} {op key : Nat} {s : State} (h : Moves m r s)
    (hm : Within foot_waitOn m) : Moves m r (waitOn r' op key s) := by
  simp only [foot_waitOn, pms, within_or, within_zero, and_true] at hm
  unfold waitOn
  try dsimp only
  repeat' (first
    | with_reducible assumption | with_reducible intro _ | with_reducible apply moves_when |
    with_reducible apply moves_modKeeper | with_reducible apply moves_freeCtx | with_reducible apply moves_ite | split |
    simp only [hm])

def foot_finishWaiting : Nat := foot_finishGen ||| pms [.keeper]
theorem moves_finishWaiting {m : Nat} {r : State} {op key status : ℕ} {data : Bytes} {s : State} (h : Moves m r s)
    (hm : Within foot_finishWaiting m) : Moves m r (finishWaiting op key status data s) := by
  simp only [foot_finishWaiting, pms, within_or, within_zero, and_true] at hm
  unfold finishWaiting
  try dsimp only
  repeat' (first
    | with_reducible assumption | with_reducible apply moves_each | with_reducible apply moves_modKeeper |
    with_reducible apply moves_finishGen | with_reducible apply moves_ite | split | intro _ | simp only [hm])

def foot_cancelSched : Nat := foot_finishGen ||| foot_unschedule
theorem moves_cancelSched {m : Nat} {r : State} {e : Sched} {s : State} (h : Moves m r s)
    (hm : Within foot_cancelSched m) : Moves m r (cancelSched e s) := by
  simp only [foot_cancelSched, within_or] at hm
  unfold cancelSched
  try dsimp only
  repeat' (first
    | with_reducible assumption | with_reducible apply moves_finishGen | with_reducible apply moves_unschedule |
    with_reducible apply moves_ite | split | intro _ | simp only [hm])

def foot_schedule : Nat := foot_sendReply ||| foot_freeCtx ||| pms [.keeper]
theorem moves_schedule {m : Nat} {r : State} {c : Cmd} {a : AtCmd} {r' : CmdReq} {s : State} (h : Moves m r s)
    (hc : CmdMoves m r c) (hm : Within foot_schedule m) : Moves m r (schedule c a r' s) := by
  simp only [foot_schedule, pms, within_or, within_zero, and_true] at hm
  have hact := hc.1
  have hon := hc.2
  unfold schedule
  dsimp only
  repeat' (first
    | with_reducible assumption | with_reducible apply moves_when | with_reducible apply hon
    | with_reducible apply moves_modKeeper | with_reducible apply moves_sendReply | with_reducible apply moves_freeCtx
    | with_reducible apply moves_ite | split | intro _ | simp only [hm])

def foot_boundaryAt : Nat := foot_freeCtx ||| pms [.keeper]
theorem moves_boundaryAt {m : Nat} {r : State} {due op : Nat} {a : AtCmd} {r' : CmdReq} {s : State} (h : Moves m r
    s)
    (hm : Within foot_boundaryAt m) : Moves m r (boundaryAt due op a r' s) := by
  simp only [foot_boundaryAt, pms, within_or, within_zero, and_true] at hm
  unfold boundaryAt
  try dsimp only
  repeat' (first
    | with_reducible assumption | with_reducible intro _ | with_reducible apply moves_modKeeper |
    with_reducible apply moves_freeCtx | with_reducible apply moves_ite | split | simp only [hm])

def foot_nextBoundary : Nat := foot_boundaryAt
theorem moves_nextBoundary {m : Nat} {r : State} {op : Nat} {a : AtCmd} {r' : CmdReq} {s : State} (h : Moves m r s)
    (hm : Within foot_nextBoundary m) : Moves m r (nextBoundary op a r' s) := by
  simp only [foot_nextBoundary] at hm
  unfold nextBoundary
  try dsimp only
  repeat' (first
    | with_reducible assumption | with_reducible apply moves_boundaryAt | with_reducible apply moves_ite | split |
    intro _ | simp only [hm])

def foot_runCmd : Nat := foot_finish ||| foot_finishBusy ||| foot_schedule
theorem moves_runCmd {m : Nat} {r : State} {c : Cmd} {r' : CmdReq} {s : State} (h : Moves m r s) (hc : CmdMoves m r c)
    (hm : Within foot_runCmd m) : Moves m r (runCmd c r' s) := by
  simp only [foot_runCmd, within_or] at hm
  have hact := hc.1
  have hon := hc.2
  unfold runCmd
  dsimp only
  repeat' (first
    | with_reducible assumption | with_reducible apply moves_finish | with_reducible apply moves_finishBusy
    | with_reducible apply moves_schedule | with_reducible apply hact | with_reducible apply moves_ite | split | intro _
    | simp only [hm])


def foot_runSched : Nat := foot_unschedule ||| foot_finish ||| pms [.keeper]
theorem moves_runSched {m : Nat} {r : State} {c : Cmd} {e : Sched} {s : State} (h : Moves m r s) (hc : CmdMoves m r c)
    (hm : Within foot_runSched m) : Moves m r (runSched c e s) := by
  simp only [foot_runSched, pms, within_or, within_zero, and_true] at hm
  have hact := hc.1
  have hon := hc.2
  unfold runSched
  dsimp only
  repeat' (first
    | with_reducible assumption | with_reducible apply moves_unschedule | with_reducible apply moves_finish
    | with_reducible apply moves_modKeeper | with_reducible apply hact | with_reducible apply moves_ite | split
    | intro _ | simp only [hm])


def foot_execCmdPiWrite : Nat := fms [.KR_CMD_PI, .KR_ACTIVE, .KR_STOPPED, .KR_OVERRUN]
theorem moves_execCmdPiWrite {m : Nat} {r : State} {fn : Fn} {v : BitVec 16} {s : State} (h : Moves m r s)
    (hm : Within foot_execCmdPiWrite m) : Goes m r (execCmdPiWrite fn v s) := by
  simp only [foot_execCmdPiWrite, fms, within_or, within_zero, and_true] at hm
  unfold execCmdPiWrite
  try dsimp only
  repeat' (first
    | with_reducible assumption | refine goes_next ?_ | with_reducible apply moves_when |
    with_reducible apply moves_wr | with_reducible apply goes_ite | with_reducible apply moves_ite | split | intro _ |
    simp only [hm])

def foot_writeRingEn : Nat := pms [.keeper] ||| fms [.KR_EN, .KR_CMD_PI, .KR_CMD_CI, .KR_RPL_PI, .KR_RPL_CI,
    .KR_ACTIVE, .KR_REPLY_FULL, .KR_IN_FLIGHT, .KR_SCHEDULED, .KR_STOPPED]
theorem moves_writeRingEn {m : Nat} {r : State} {f : Nat} {en : Bool} {s : State} (h : Moves m r s)
    (hm : Within foot_writeRingEn m) : Moves m r (writeRingEn f en s) := by
  simp only [foot_writeRingEn, fms, pms, within_or, within_zero, and_true] at hm
  unfold writeRingEn
  try dsimp only
  repeat' (first
    | with_reducible assumption | with_reducible intro _ | with_reducible apply moves_wr |
    with_reducible apply moves_modKeeper | with_reducible apply moves_ite | split | simp only [hm])

def foot_execRingEnWrite : Nat := foot_writeRingEn
theorem moves_execRingEnWrite {m : Nat} {r : State} {fn : Fn} {en : Bool} {s : State} (h : Moves m r s)
    (hm : Within foot_execRingEnWrite m) : Goes m r (execRingEnWrite fn en s) := by
  simp only [foot_execRingEnWrite] at hm
  unfold execRingEnWrite
  try dsimp only
  repeat' (first
    | with_reducible assumption | refine goes_next ?_ | with_reducible apply moves_when |
    with_reducible apply moves_writeRingEn | with_reducible apply goes_ite | with_reducible apply moves_ite | split |
    intro _)

def foot_execRplCiWrite : Nat := fms [.KR_RPL_CI, .KR_REPLY_FULL]
theorem moves_execRplCiWrite {m : Nat} {r : State} {fn : Fn} {v : BitVec 16} {s : State} (h : Moves m r s)
    (hm : Within foot_execRplCiWrite m) : Goes m r (execRplCiWrite fn v s) := by
  simp only [foot_execRplCiWrite, fms, within_or, within_zero, and_true] at hm
  unfold execRplCiWrite
  try dsimp only
  repeat' (first
    | with_reducible assumption | refine goes_next ?_ | with_reducible apply moves_when | with_reducible apply moves_wr
    | with_reducible apply goes_ite | with_reducible apply moves_ite | split | intro _ | simp only [hm])

def foot_fetchSmp : Nat := foot_answerUnknowns ||| foot_showKeeper ||| pms [.keeper]
theorem moves_fetchSmp {m : Nat} {r : State} {s : State} (h : Moves m r s)
    (hm : Within foot_fetchSmp m) : Moves m r (fetchSmp s) := by
  simp only [foot_fetchSmp, pms, within_or, within_zero, and_true] at hm
  unfold fetchSmp
  try dsimp only
  repeat' (first
    | with_reducible assumption | with_reducible intro _ | with_reducible apply moves_modKeeper |
    with_reducible apply moves_answerUnknowns | with_reducible apply moves_showKeeper | with_reducible apply moves_ite |
    split | simp only [hm])

def foot_fetchRing : Nat := foot_showKeeper ||| pms [.keeper, .hostQ] ||| fms [.KR_REPLY_FULL, .KR_CMD_CI,
    .KR_CMD_CNT, .KR_IN_FLIGHT]
theorem moves_fetchRing {m : Nat} {r : State} {f : Nat} {s : State} (h : Moves m r s)
    (hm : Within foot_fetchRing m) : Moves m r (fetchRing f s) := by
  simp only [foot_fetchRing, fms, pms, within_or, within_zero, and_true] at hm
  unfold fetchRing
  try dsimp only
  repeat' (first
    | with_reducible assumption | with_reducible intro _ | with_reducible apply moves_wr |
    with_reducible apply moves_inc | with_reducible apply moves_modKeeper | with_reducible apply moves_enqueueHost |
    with_reducible apply moves_showKeeper | with_reducible apply moves_ite | split | simp only [hm])

def foot_execCommandFetch : Nat := foot_fetchSmp ||| foot_fetchRing
theorem moves_execCommandFetch {m : Nat} {r : State} {s : State} (h : Moves m r s)
    (hm : Within foot_execCommandFetch m) : Goes m r (execCommandFetch s) := by
  simp only [foot_execCommandFetch, within_or] at hm
  unfold execCommandFetch
  try dsimp only
  repeat' (first
    | with_reducible assumption | refine goes_next ?_ | with_reducible apply moves_fetchSmp |
    with_reducible apply moves_fetchRing | with_reducible apply goes_ite | with_reducible apply moves_ite | split |
    intro _ | simp only [hm])

def foot_fetchAgain : Nat := foot_showKeeper ||| pms [.keeper] ||| fms [.KR_CMD_CI, .KR_CMD_CNT, .KR_IN_FLIGHT,
    .KR_REPLY_FULL]
theorem moves_fetchAgain {m : Nat} {r : State} {f slot : Nat} {s : State} (h : Moves m r s)
    (hm : Within foot_fetchAgain m) : Moves m r (fetchAgain f slot s) := by
  simp only [foot_fetchAgain, fms, pms, within_or, within_zero, and_true] at hm
  unfold fetchAgain
  try dsimp only
  repeat' (first
    | with_reducible assumption | with_reducible apply moves_wr | with_reducible apply moves_dec |
    with_reducible apply moves_modKeeper | with_reducible apply moves_showKeeper | with_reducible apply moves_ite |
    split | intro _ | simp only [hm])

def foot_headerFetched : Nat := foot_fetchAgain ||| foot_answerUnknowns ||| pms [.keeper, .hostQ]
theorem moves_headerFetched {m : Nat} {r : State} {f slot : Nat} {p : Bytes} {s : State} (h : Moves m r s)
    (hm : Within foot_headerFetched m) : Moves m r (headerFetched f slot p s) := by
  simp only [foot_headerFetched, pms, within_or, within_zero, and_true] at hm
  unfold headerFetched
  try dsimp only
  repeat' (first
    | with_reducible assumption | with_reducible intro _ | with_reducible apply moves_when |
    with_reducible apply moves_modKeeper | with_reducible apply moves_enqueueHost |
    with_reducible apply moves_fetchAgain | with_reducible apply moves_answerUnknowns | with_reducible apply moves_ite |
    split | simp only [hm])

def foot_fetchFailed : Nat := foot_showKeeper ||| foot_ward ||| pms [.keeper] ||| fms [.KR_FETCH_ERR, .KR_STOPPED,
    .KR_ACTIVE, .KR_IN_FLIGHT]
theorem moves_fetchFailed {m : Nat} {r : State} {f : Nat} {mine : Ctx → Bool} {s : State} (h : Moves m r s)
    (hm : Within foot_fetchFailed m) : Moves m r (fetchFailed f mine s) := by
  simp only [foot_fetchFailed, fms, pms, within_or, within_zero, and_true] at hm
  unfold fetchFailed
  try dsimp only
  repeat' (first
    | with_reducible assumption | with_reducible intro _ | with_reducible apply moves_when |
    with_reducible apply moves_wr | with_reducible apply moves_dec | with_reducible apply moves_modKeeper |
    with_reducible apply moves_showKeeper | with_reducible apply moves_ward | with_reducible apply moves_ite | split |
    simp only [hm])

def foot_execNop : Nat := foot_runCmd ||| foot_finish
theorem moves_execNop {m : Nat} {r : State} {r' : CmdReq} {s : State} (h : Moves m r s)
    (hm : Within foot_execNop m) : Goes m r (execNop r' s) := by
  simp only [foot_execNop, within_or] at hm
  unfold execNop
  try dsimp only
  repeat' (first
    | with_reducible assumption | refine goes_next ?_ | with_reducible apply moves_runCmd |
    with_reducible apply moves_finish | with_reducible apply cmd_mk | with_reducible apply goes_ite |
    with_reducible apply moves_ite | split | intro _ | simp only [hm] | simp only [id_eq])

def foot_execCmdCancel : Nat := foot_runCmd ||| foot_finish ||| foot_cancelSched
theorem moves_execCmdCancel {m : Nat} {r : State} {r' : CmdReq} {tag : ℕ} {s : State} (h : Moves m r s)
    (hm : Within foot_execCmdCancel m) : Goes m r (execCmdCancel r' tag s) := by
  simp only [foot_execCmdCancel, within_or] at hm
  unfold execCmdCancel
  try dsimp only
  repeat' (first
    | with_reducible assumption | refine goes_next ?_ | with_reducible apply moves_withSome |
    with_reducible apply moves_runCmd | with_reducible apply moves_finish | with_reducible apply moves_cancelSched |
    with_reducible apply cmd_mk | with_reducible apply goes_ite | with_reducible apply moves_ite | split | intro _ |
    simp only [hm] | simp only [id_eq])

def foot_smpDiscard (cnt : Fld) : Nat := (fm cnt) ||| pms [.keeper]
theorem moves_smpDiscard {m : Nat} {r : State} {bit : ℕ} {cnt : Fld} {s : State} (h : Moves m r s)
    (hm : Within (foot_smpDiscard cnt) m) : Moves m r (smpDiscard bit cnt s) := by
  simp only [foot_smpDiscard, pms, within_or, within_zero, and_true] at hm
  unfold smpDiscard
  try dsimp only
  repeat' (first
    | with_reducible assumption | with_reducible apply moves_inc | with_reducible apply moves_modKeeper |
    with_reducible apply moves_ite | split | intro _ | simp only [hm])

def foot_execSmpWrite : Nat := (foot_smpDiscard .CT_SMP_CRC) ||| (foot_smpDiscard .CT_SMP_FRAME) |||
    (foot_smpDiscard .CT_SMP_OVERFLOW) ||| foot_finish ||| foot_finishBusy ||| pms [.keeper] ||| fms [.CT_SMP_CMD]
theorem moves_execSmpWrite {m : Nat} {r : State} {len : Nat} {packet : Bytes} {crc : Nat} {s : State} (h : Moves m r
    s)
    (hm : Within foot_execSmpWrite m) : Goes m r (execSmpWrite len packet crc s) := by
  simp only [foot_execSmpWrite, fms, pms, within_or, within_zero, and_true] at hm
  unfold execSmpWrite
  try dsimp only
  repeat' (first
    | with_reducible assumption | with_reducible intro _ | refine goes_next ?_ | with_reducible apply moves_inc |
    with_reducible apply moves_modKeeper | with_reducible apply moves_smpDiscard | with_reducible apply moves_finish |
    with_reducible apply moves_finishBusy | with_reducible apply goes_ite | with_reducible apply moves_ite | split |
    simp only [hm])

def foot_execSmpRead : Nat := foot_answerUnknowns ||| pms [.keeper]
theorem moves_execSmpRead {m : Nat} {r : State} {s : State} (h : Moves m r s)
    (hm : Within foot_execSmpRead m) : Goes m r (execSmpRead s) := by
  simp only [foot_execSmpRead, pms, within_or, within_zero, and_true] at hm
  unfold execSmpRead
  try dsimp only
  repeat' (first
    | with_reducible assumption | with_reducible intro _ | refine goes_next ?_ | with_reducible apply moves_when |
    with_reducible apply moves_modKeeper | with_reducible apply moves_emit | with_reducible apply moves_answerUnknowns |
    with_reducible apply goes_ite | with_reducible apply moves_ite | split | simp only [hm])

def foot_execSmpStatus : Nat := pms [.keeper]
theorem moves_execSmpStatus {m : Nat} {r : State} {s : State} (h : Moves m r s)
    (hm : Within foot_execSmpStatus m) : Goes m r (execSmpStatus s) := by
  simp only [foot_execSmpStatus, pms, within_or, within_zero, and_true] at hm
  unfold execSmpStatus
  try dsimp only
  repeat' (first
    | with_reducible assumption | with_reducible intro _ | refine goes_next ?_ | with_reducible apply moves_when |
    with_reducible apply moves_modKeeper | with_reducible apply moves_emit | with_reducible apply goes_ite |
    with_reducible apply moves_ite | split | simp only [hm])

def foot_execSmpCsAbort : Nat := 0
theorem moves_execSmpCsAbort {m : Nat} {r : State} {op : SmpOp} {s : State} (h : Moves m r s)
    (_ : Within foot_execSmpCsAbort m) : Goes m r (execSmpCsAbort op s) := by
  unfold execSmpCsAbort
  try dsimp only
  repeat' (first
    | with_reducible assumption | refine goes_next ?_ | with_reducible apply goes_ite | with_reducible apply moves_ite
    | split)

end Sys2Proof.Laws
end

