-- ==== Sys2Proof/Laws/FootObserve.lean ====
section
/-!
SUPPORT. The footprint of each operation of Machine/Observe.lean: which register fields and parts of the state it may change.
-/
namespace Sys2Proof.Laws
open Sys2Proof.Machine

def foot_showStopped : Nat := fms [.TR_STOPPED]
theorem moves_showStopped {m : Nat} {r : State} {s : State} (h : Moves m r s)
    (hm : Within foot_showStopped m) : Moves m r (showStopped s) := by
  simp only [foot_showStopped, fms, within_or, within_zero, and_true] at hm
  unfold showStopped
  try dsimp only
  repeat' (first
    | with_reducible assumption | with_reducible apply moves_wr | with_reducible apply moves_ite | split | intro _ |
    simp only [hm])

def foot_ringTake : Nat := foot_showStopped ||| foot_ringAppend ||| fms [.TR_DROP_CNT]
theorem moves_ringTake {m : Nat} {r : State} {r' : TrRec} {s : State} (h : Moves m r s)
    (hm : Within foot_ringTake m) : Moves m r (ringTake r' s) := by
  simp only [foot_ringTake, fms, within_or, within_zero, and_true] at hm
  unfold ringTake
  try dsimp only
  repeat' (first
    | with_reducible assumption | with_reducible apply moves_inc | with_reducible apply moves_showStopped |
    with_reducible apply moves_ringAppend | with_reducible apply moves_ite | split | intro _ | simp only [hm])

def foot_resumeFirst : Nat := foot_advance ||| foot_ringTake ||| pms [.trace]
theorem moves_resumeFirst {m : Nat} {r : State} {s : State} (h : Moves m r s)
    (hm : Within foot_resumeFirst m) : Moves m r (resumeFirst s) := by
  simp only [foot_resumeFirst, pms, within_or, within_zero, and_true] at hm
  unfold resumeFirst
  try dsimp only
  repeat' (first
    | with_reducible assumption | with_reducible apply moves_advance | with_reducible apply moves_modTrace |
    with_reducible apply moves_ringTake | with_reducible apply moves_ite | split | intro _ | simp only [hm])

def foot_ringNext : Nat := foot_ringTake ||| foot_resumeFirst
theorem moves_ringNext {m : Nat} {r : State} {r' : TrRec} {s : State} (h : Moves m r s)
    (hm : Within foot_ringNext m) : Moves m r (ringNext r' s) := by
  simp only [foot_ringNext, within_or] at hm
  unfold ringNext
  try dsimp only
  repeat' (first
    | with_reducible assumption | with_reducible apply moves_ringTake | with_reducible apply moves_resumeFirst |
    with_reducible apply moves_ite | split | intro _ | simp only [hm])

def foot_reportDropped : Nat := foot_advance ||| pms [.trace] ||| fms [.TR_DROP_CNT]
theorem moves_reportDropped {m : Nat} {r : State} {source : Nat} {s : State} (h : Moves m r s)
    (hm : Within foot_reportDropped m) : Moves m r (reportDropped source s) := by
  simp only [foot_reportDropped, fms, pms, within_or, within_zero, and_true] at hm
  unfold reportDropped
  try dsimp only
  repeat' (first
    | with_reducible assumption | with_reducible apply moves_add | with_reducible apply moves_modTrace |
    with_reducible apply moves_advance | with_reducible apply moves_ite | split | intro _ | simp only [hm])

def foot_execTraceRecordAppend : Nat := foot_ringNext ||| foot_reportDropped ||| pms [.trace]
theorem moves_execTraceRecordAppend {m : Nat} {r : State} {source : Nat} {s : State} (h : Moves m r s)
    (hm : Within foot_execTraceRecordAppend m) : Goes m r (execTraceRecordAppend source s) := by
  simp only [foot_execTraceRecordAppend, pms, within_or, within_zero, and_true] at hm
  unfold execTraceRecordAppend
  try dsimp only
  repeat' (first
    | with_reducible assumption | refine goes_next ?_ | with_reducible apply moves_when |
    with_reducible apply moves_modTrace | with_reducible apply moves_ringNext | with_reducible apply moves_reportDropped
    | with_reducible apply goes_ite | with_reducible apply moves_ite | split | intro _ | simp only [hm])

def foot_applyFilter : Nat := foot_advance ||| foot_resumeFirst ||| foot_showStopped ||| foot_ringTake ||| pms
    [.trace] ||| fms [.TR_STOP_MODE, .TR_OLDEST]
theorem moves_applyFilter {m : Nat} {r : State} {p : FilterParams} {s : State} (h : Moves m r s)
    (hm : Within foot_applyFilter m) : Moves m r (applyFilter p s) := by
  simp only [foot_applyFilter, fms, pms, within_or, within_zero, and_true] at hm
  unfold applyFilter
  try dsimp only
  repeat' (first
    | with_reducible assumption | with_reducible apply moves_when | with_reducible apply moves_wr |
    with_reducible apply moves_modTrace | with_reducible apply moves_advance | with_reducible apply moves_resumeFirst |
    with_reducible apply moves_showStopped | with_reducible apply moves_ringTake | with_reducible apply moves_ite |
    split | intro _ | simp only [hm])

def foot_cmdTraceFilter : Nat := foot_finish ||| foot_applyFilter
theorem moves_cmdTraceFilter {m : Nat} {r : State} {r' : CmdReq} {p : FilterParams}
    (hm : Within foot_cmdTraceFilter m) : CmdMoves m r (cmdTraceFilter r' p) := by
  simp only [foot_cmdTraceFilter, within_or] at hm
  unfold cmdTraceFilter
  try dsimp only
  repeat' (first
    | with_reducible assumption | with_reducible apply moves_finish | with_reducible apply moves_applyFilter |
    with_reducible apply cmd_mk | with_reducible apply moves_ite | split | intro _ | simp only [hm] |
    simp only [id_eq])

def foot_execTraceFilter : Nat := foot_runCmd ||| foot_cmdTraceFilter
theorem moves_execTraceFilter {m : Nat} {r : State} {r' : CmdReq} {p : FilterParams} {s : State} (h : Moves m r s)
    (hm : Within foot_execTraceFilter m) : Goes m r (execTraceFilter r' p s) := by
  simp only [foot_execTraceFilter, within_or] at hm
  unfold execTraceFilter
  try dsimp only
  repeat' (first
    | with_reducible assumption | refine goes_next ?_ | with_reducible apply moves_runCmd |
    with_reducible apply moves_cmdTraceFilter | with_reducible apply cmd_mk | with_reducible apply goes_ite |
    with_reducible apply moves_ite | split | intro _ | simp only [hm])

def foot_execTraceRead : Nat := foot_runCmd ||| foot_finish
theorem moves_execTraceRead {m : Nat} {r : State} {r' : CmdReq} {start : ℕ} {s : State} (h : Moves m r s)
    (hm : Within foot_execTraceRead m) : Goes m r (execTraceRead r' start s) := by
  simp only [foot_execTraceRead, within_or] at hm
  unfold execTraceRead
  try dsimp only
  repeat' (first
    | with_reducible assumption | refine goes_next ?_ | with_reducible apply moves_runCmd |
    with_reducible apply moves_finish | with_reducible apply cmd_mk | with_reducible apply goes_ite |
    with_reducible apply moves_ite | split | intro _ | simp only [hm] | simp only [id_eq])

def foot_streamWrite : Nat := pms [.trace, .hostQ]
theorem moves_streamWrite {m : Nat} {r : State} {d : Bytes} {s : State} (h : Moves m r s)
    (hm : Within foot_streamWrite m) : Moves m r (streamWrite d s) := by
  simp only [foot_streamWrite, pms, within_or, within_zero, and_true] at hm
  unfold streamWrite
  try dsimp only
  repeat' (first
    | with_reducible assumption | with_reducible intro _ | with_reducible apply moves_modTrace |
    with_reducible apply moves_enqueueHost | with_reducible apply moves_ite | split | simp only [hm])

def foot_streamCount : Nat := pms [.hostQ] ||| fms [.TR_STREAM_CNT]
theorem moves_streamCount {m : Nat} {r : State} {skipped : Nat} {s : State} (h : Moves m r s)
    (hm : Within foot_streamCount m) : Moves m r (streamCount skipped s) := by
  simp only [foot_streamCount, fms, pms, within_or, within_zero, and_true] at hm
  unfold streamCount
  try dsimp only
  repeat' (first
    | with_reducible assumption | with_reducible intro _ | with_reducible apply moves_wr |
    with_reducible apply moves_enqueueHost | with_reducible apply moves_ite | split | simp only [hm])

def foot_streamGap : Nat := foot_advance ||| foot_streamCount ||| foot_streamWrite ||| pms [.trace]
theorem moves_streamGap {m : Nat} {r : State} {s : State} (h : Moves m r s)
    (hm : Within foot_streamGap m) : Moves m r (streamGap s) := by
  simp only [foot_streamGap, pms, within_or, within_zero, and_true] at hm
  unfold streamGap
  try dsimp only
  repeat' (first
    | with_reducible assumption | with_reducible intro _ | with_reducible apply moves_modTrace |
    with_reducible apply moves_advance | with_reducible apply moves_streamCount | with_reducible apply moves_streamWrite
    | with_reducible apply moves_ite | split | simp only [hm])

def foot_streamLine : Nat := foot_streamCount ||| foot_streamWrite ||| pms [.trace]
theorem moves_streamLine {m : Nat} {r : State} {n : Nat} {s : State} (h : Moves m r s)
    (hm : Within foot_streamLine m) : Moves m r (streamLine n s) := by
  simp only [foot_streamLine, pms, within_or, within_zero, and_true] at hm
  unfold streamLine
  try dsimp only
  repeat' (first
    | with_reducible assumption | with_reducible intro _ | with_reducible apply moves_modTrace |
    with_reducible apply moves_streamCount | with_reducible apply moves_streamWrite | with_reducible apply moves_ite |
    split | simp only [hm])

def foot_execStreamBatchWrite : Nat := foot_pauseStream ||| foot_streamGap ||| foot_streamLine
theorem moves_execStreamBatchWrite {m : Nat} {r : State} {s : State} (h : Moves m r s)
    (hm : Within foot_execStreamBatchWrite m) : Goes m r (execStreamBatchWrite s) := by
  simp only [foot_execStreamBatchWrite, within_or] at hm
  unfold execStreamBatchWrite
  try dsimp only
  repeat' (first
    | with_reducible assumption | with_reducible intro _ | refine goes_next ?_ | with_reducible apply moves_when |
    with_reducible apply moves_pauseStream | with_reducible apply moves_streamGap |
    with_reducible apply moves_streamLine | with_reducible apply goes_ite | with_reducible apply moves_ite | split |
    simp only [hm])

def foot_streamBack : Nat := pms [.hostQ, .trace] ||| fms [.TR_STREAM_CNT]
theorem moves_streamBack {m : Nat} {r : State} {s : State} (h : Moves m r s)
    (hm : Within foot_streamBack m) : Moves m r (streamBack s) := by
  simp only [foot_streamBack, fms, pms, within_or, within_zero, and_true] at hm
  unfold streamBack
  try dsimp only
  repeat' (first
    | with_reducible assumption | with_reducible intro _ | with_reducible apply moves_wr |
    with_reducible apply moves_filterHostQ | with_reducible apply moves_modTrace | with_reducible apply moves_ite |
    split | simp only [hm])

def foot_execStreamResume : Nat := foot_streamGap ||| foot_streamBack ||| fms [.TR_STREAM_PAUSED]
theorem moves_execStreamResume {m : Nat} {r : State} {s : State} (h : Moves m r s)
    (hm : Within foot_execStreamResume m) : Goes m r (execStreamResume s) := by
  simp only [foot_execStreamResume, fms, within_or, within_zero, and_true] at hm
  unfold execStreamResume
  try dsimp only
  repeat' (first
    | with_reducible assumption | with_reducible intro _ | refine goes_next ?_ | with_reducible apply moves_when |
    with_reducible apply moves_wr | with_reducible apply moves_streamGap | with_reducible apply moves_streamBack |
    with_reducible apply goes_ite | with_reducible apply moves_ite | split | simp only [hm])

def foot_streamStart : Nat := foot_pauseStream ||| pms [.trace] ||| fms [.TR_STREAM_ON, .TR_STREAM_HL]
theorem moves_streamStart {m : Nat} {r : State} {p : StreamParams} {s : State} (h : Moves m r s)
    (hm : Within foot_streamStart m) : Moves m r (streamStart p s) := by
  simp only [foot_streamStart, fms, pms, within_or, within_zero, and_true] at hm
  unfold streamStart
  try dsimp only
  repeat' (first
    | with_reducible assumption | with_reducible intro _ | with_reducible apply moves_wr |
    with_reducible apply moves_modTrace | with_reducible apply moves_pauseStream | with_reducible apply moves_ite |
    split | simp only [hm])

def foot_streamStop : Nat := foot_streamGap ||| foot_streamCount ||| foot_streamLine ||| pms [.trace] ||| fms
    [.TR_STREAM_ON, .TR_STREAM_PAUSED]
theorem moves_streamStop {m : Nat} {r : State} {s : State} (h : Moves m r s)
    (hm : Within foot_streamStop m) : Moves m r (streamStop s) := by
  simp only [foot_streamStop, fms, pms, within_or, within_zero, and_true] at hm
  unfold streamStop
  try dsimp only
  repeat' (first
    | with_reducible assumption | with_reducible intro _ | with_reducible apply moves_when |
    with_reducible apply moves_each | with_reducible apply moves_wr | with_reducible apply moves_modTrace |
    with_reducible apply moves_streamGap | with_reducible apply moves_streamCount |
    with_reducible apply moves_streamLine | with_reducible apply moves_ite | split | simp only [hm])

def foot_execTraceStream : Nat := foot_runCmd ||| foot_finish ||| foot_streamStart ||| foot_streamStop
theorem moves_execTraceStream {m : Nat} {r : State} {r' : CmdReq} {p : StreamParams} {s : State} (h : Moves m r s)
    (hm : Within foot_execTraceStream m) : Goes m r (execTraceStream r' p s) := by
  simp only [foot_execTraceStream, within_or] at hm
  unfold execTraceStream
  try dsimp only
  repeat' (first
    | with_reducible assumption | refine goes_next ?_ | with_reducible apply moves_runCmd |
    with_reducible apply moves_finish | with_reducible apply moves_streamStart | with_reducible apply moves_streamStop
    | with_reducible apply cmd_mk | with_reducible apply goes_ite | with_reducible apply moves_ite | split | intro _ |
    simp only [hm] | simp only [id_eq])

def foot_dropPads : Nat := pms [.pins]
theorem moves_dropPads {m : Nat} {r : State} {s : State} (h : Moves m r s)
    (hm : Within foot_dropPads m) : Moves m r (dropPads s) := by
  simp only [foot_dropPads, pms, within_or, within_zero, and_true] at hm
  unfold dropPads
  try dsimp only
  repeat' (first
    | with_reducible assumption | with_reducible apply moves_when | with_reducible apply moves_modPins |
    with_reducible apply moves_emit | with_reducible apply moves_ite | split | intro _ | simp only [hm])

def foot_execJtagTracePtr : Nat := foot_dropPads ||| pms [.trace]
theorem moves_execJtagTracePtr {m : Nat} {r : State} {number : Nat} {s : State} (h : Moves m r s)
    (hm : Within foot_execJtagTracePtr m) : Goes m r (execJtagTracePtr number s) := by
  simp only [foot_execJtagTracePtr, pms, within_or, within_zero, and_true] at hm
  unfold execJtagTracePtr
  try dsimp only
  repeat' (first
    | with_reducible assumption | refine goes_next ?_ | with_reducible apply moves_modTrace |
    with_reducible apply moves_emit | with_reducible apply moves_dropPads | with_reducible apply goes_ite |
    with_reducible apply moves_ite | split | intro _ | simp only [hm])

def foot_execJtagTraceData : Nat := foot_dropPads ||| pms [.trace]
theorem moves_execJtagTraceData {m : Nat} {r : State} {s : State} (h : Moves m r s)
    (hm : Within foot_execJtagTraceData m) : Goes m r (execJtagTraceData s) := by
  simp only [foot_execJtagTraceData, pms, within_or, within_zero, and_true] at hm
  unfold execJtagTraceData
  try dsimp only
  repeat' (first
    | with_reducible assumption | refine goes_next ?_ | with_reducible apply moves_modTrace |
    with_reducible apply moves_emit | with_reducible apply moves_dropPads | with_reducible apply goes_ite |
    with_reducible apply moves_ite | split | intro _ | simp only [hm])

def foot_execJtagIdcode : Nat := foot_dropPads
theorem moves_execJtagIdcode {m : Nat} {r : State} {s : State} (h : Moves m r s)
    (hm : Within foot_execJtagIdcode m) : Goes m r (execJtagIdcode s) := by
  simp only [foot_execJtagIdcode] at hm
  unfold execJtagIdcode
  try dsimp only
  repeat' (first
    | with_reducible assumption | refine goes_next ?_ | with_reducible apply moves_emit |
    with_reducible apply moves_dropPads | with_reducible apply goes_ite | with_reducible apply moves_ite | split |
    intro _ | simp only [hm])

def foot_execJtagSamplePreload : Nat := foot_dropPads
theorem moves_execJtagSamplePreload {m : Nat} {r : State} {pins : Bytes} {s : State} (h : Moves m r s)
    (hm : Within foot_execJtagSamplePreload m) : Goes m r (execJtagSamplePreload pins s) := by
  simp only [foot_execJtagSamplePreload] at hm
  unfold execJtagSamplePreload
  try dsimp only
  repeat' (first
    | with_reducible assumption | refine goes_next ?_ | with_reducible apply moves_emit |
    with_reducible apply moves_dropPads | with_reducible apply goes_ite | with_reducible apply moves_ite | split |
    intro _ | simp only [hm])

def foot_execJtagPadDrive : Nat := pms [.pins]
theorem moves_execJtagPadDrive {m : Nat} {r : State} {instr : PadInstr} {s : State} (h : Moves m r s)
    (hm : Within foot_execJtagPadDrive m) : Goes m r (execJtagPadDrive instr s) := by
  simp only [foot_execJtagPadDrive, pms, within_or, within_zero, and_true] at hm
  unfold execJtagPadDrive
  try dsimp only
  repeat' (first
    | with_reducible assumption | refine goes_next ?_ | with_reducible apply moves_when |
    with_reducible apply moves_modPins | with_reducible apply moves_emit | with_reducible apply goes_ite |
    with_reducible apply moves_ite | split | intro _ | simp only [hm])

end Sys2Proof.Laws
end

