-- ==== Sys2Proof/Laws/FootLinks.lean ====
section
/-!
SUPPORT. The footprint of each operation of Machine/Links.lean: which register fields and parts of the state it may change.
-/
namespace Sys2Proof.Laws
open Sys2Proof.Machine

def foot_releaseCredit : Nat := pms [.wls]
theorem moves_releaseCredit {m : Nat} {r : State} {n cls cost : ℕ} {s : State} (h : Moves m r s)
    (hm : Within foot_releaseCredit m) : Moves m r (releaseCredit n cls cost s) := by
  simp only [foot_releaseCredit, pms, within_or, within_zero, and_true] at hm
  unfold releaseCredit
  try dsimp only
  repeat' (first
    | with_reducible assumption | with_reducible apply moves_when | with_reducible apply moves_modWl |
    with_reducible apply moves_ite | split | intro _)

def foot_takePacket : Nat := pms [.wls] ||| fms [.CT_WL_RX_PKT, .CT_WL_RX_BYTES]
theorem moves_takePacket {m : Nat} {r : State} {n : Nat} {p : Pkt} {s : State} (h : Moves m r s)
    (hm : Within foot_takePacket m) : Moves m r (takePacket n p s) := by
  simp only [foot_takePacket, fms, pms, within_or, within_zero, and_true] at hm
  unfold takePacket
  try dsimp only
  repeat' (first
    | with_reducible assumption | with_reducible apply moves_inc | with_reducible apply moves_add |
    with_reducible apply moves_modWl | with_reducible apply moves_ite | split | intro _ | simp only [hm])

def foot_releasePkt : Nat := foot_releaseCredit
theorem moves_releasePkt {m : Nat} {r : State} {n : Nat} {p : Pkt} {s : State} (h : Moves m r s)
    (hm : Within foot_releasePkt m) : Moves m r (releasePkt n p s) := by
  simp only [foot_releasePkt] at hm
  unfold releasePkt
  try dsimp only
  repeat' (first
    | with_reducible assumption | with_reducible intro _ | with_reducible apply moves_when |
    with_reducible apply moves_releaseCredit | with_reducible apply moves_ite | split | simp only [hm])

def foot_respond : Nat := pms [.wls]
theorem moves_respond {m : Nat} {r : State} {n lane tag typ cause : Nat} {s : State} (h : Moves m r s)
    (hm : Within foot_respond m) : Moves m r (respond n lane tag typ cause s) := by
  simp only [foot_respond, pms, within_or, within_zero, and_true] at hm
  unfold respond
  try dsimp only
  repeat' (first
    | with_reducible assumption | with_reducible apply moves_when | with_reducible apply moves_enqueueLink |
    with_reducible apply moves_ite | split | intro _ | simp only [hm])

def foot_answerLoc : Nat := foot_respond ||| pms [.locReqs]
theorem moves_answerLoc {m : Nat} {r : State} {q : LocReq} {cause : ℕ} {s : State} (h : Moves m r s)
    (hm : Within foot_answerLoc m) : Moves m r (answerLoc q cause s) := by
  simp only [foot_answerLoc, pms, within_or, within_zero, and_true] at hm
  unfold answerLoc
  try dsimp only
  repeat' (first
    | with_reducible assumption | with_reducible apply moves_respond | with_reducible apply moves_ite | split |
    with_reducible apply moves_part_locReqs | intro _ | simp only [hm])

def foot_answerLocs : Nat := foot_answerLoc
theorem moves_answerLocs {m : Nat} {r : State} {p : LocReq → Bool} {cause : ℕ} {s : State} (h : Moves m r s)
    (hm : Within foot_answerLocs m) : Moves m r (answerLocs p cause s) := by
  simp only [foot_answerLocs] at hm
  unfold answerLocs
  try dsimp only
  repeat' (first
    | with_reducible assumption | with_reducible apply moves_each | with_reducible apply moves_answerLoc |
    with_reducible apply moves_ite | split | intro _)

def foot_modLoc : Nat := pms [.locReqs]
theorem moves_modLoc {m : Nat} {r : State} {n tag : ℕ} {g : LocReq → LocReq} {s : State} (h : Moves m r s)
    (hm : Within foot_modLoc m) : Moves m r (modLoc n tag g s) := by
  simp only [foot_modLoc, pms, within_or, within_zero, and_true] at hm
  unfold modLoc
  try dsimp only
  repeat' (first
    | with_reducible assumption | with_reducible apply moves_ite | split | with_reducible apply moves_part_locReqs)

def foot_sendCplds : Nat := foot_modLoc ||| pms [.wls, .locReqs]
theorem moves_sendCplds {m : Nat} {r : State} {n tag a2 : ℕ} {a3 : State} (h : Moves m r a3)
    (hm : Within foot_sendCplds m) : Moves m r (sendCplds n tag a2 a3) := by
  simp only [foot_sendCplds, pms, within_or, within_zero, and_true] at hm
  induction a2 generalizing a3 with
  | zero => exact h
  | succ k ih =>
    unfold sendCplds
    try dsimp only
    repeat' (first
      | with_reducible assumption | with_reducible apply moves_enqueueLink | with_reducible apply moves_modLoc |
      with_reducible apply moves_ite | with_reducible apply ih | split | with_reducible apply moves_part_locReqs | intro _ | simp only [hm])

def foot_locData : Nat := foot_sendCplds ||| foot_modLoc
theorem moves_locData {m : Nat} {r : State} {n tag off : ℕ} {d : Bytes} {s : State} (h : Moves m r s)
    (hm : Within foot_locData m) : Moves m r (locData n tag off d s) := by
  simp only [foot_locData, within_or] at hm
  unfold locData
  try dsimp only
  repeat' (first
    | with_reducible assumption | with_reducible apply moves_sendCplds | with_reducible apply moves_modLoc |
    with_reducible apply moves_ite | split | intro _ | simp only [hm])

def foot_hubCross : Nat := fms [.CT_TL_HUB_RX_BYTES, .CT_TL_HUB_TX_BYTES]
theorem moves_hubCross {m : Nat} {r : State} {src dst n : ℕ} {s : State} (h : Moves m r s)
    (hm : Within foot_hubCross m) : Moves m r (hubCross src dst n s) := by
  simp only [foot_hubCross, fms, within_or, within_zero, and_true] at hm
  unfold hubCross
  try dsimp only
  repeat' (first
    | with_reducible assumption | with_reducible apply moves_add | with_reducible apply moves_ite | split | intro _ |
    simp only [hm])

def foot_malformed : Nat := foot_releasePkt ||| foot_wardDetail ||| foot_respond ||| fms [.CT_WL_MALFORMED]
theorem moves_malformed {m : Nat} {r : State} {n : ℕ} {p : Pkt} {s : State} (h : Moves m r s)
    (hm : Within foot_malformed m) : Moves m r (malformed n p s) := by
  simp only [foot_malformed, fms, within_or, within_zero, and_true] at hm
  unfold malformed
  try dsimp only
  repeat' (first
    | with_reducible assumption | with_reducible apply moves_releasePkt | with_reducible apply moves_inc |
    with_reducible apply moves_wardDetail | with_reducible apply moves_respond | with_reducible apply moves_ite |
    split | intro _ | simp only [hm])

def foot_malformedTag : Nat := foot_wardDetail ||| foot_releasePkt ||| fms [.CT_WL_MALFORMED]
theorem moves_malformedTag {m : Nat} {r : State} {n : ℕ} {p : Pkt} {s : State} (h : Moves m r s)
    (hm : Within foot_malformedTag m) : Moves m r (malformedTag n p s) := by
  simp only [foot_malformedTag, fms, within_or, within_zero, and_true] at hm
  unfold malformedTag
  try dsimp only
  repeat' (first
    | with_reducible assumption | with_reducible apply moves_wardDetail | with_reducible apply moves_releasePkt |
    with_reducible apply moves_inc | with_reducible apply moves_ite | split | intro _ | simp only [hm])

def foot_windowMiss : Nat := foot_releasePkt ||| foot_wardDetail ||| foot_respond ||| fms [.CT_WL_WIN_MISS]
theorem moves_windowMiss {m : Nat} {r : State} {n : ℕ} {p : Pkt} {cause : ℕ} {s : State} (h : Moves m r s)
    (hm : Within foot_windowMiss m) : Moves m r (windowMiss n p cause s) := by
  simp only [foot_windowMiss, fms, within_or, within_zero, and_true] at hm
  unfold windowMiss
  try dsimp only
  repeat' (first
    | with_reducible assumption | with_reducible apply moves_releasePkt | with_reducible apply moves_inc |
    with_reducible apply moves_wardDetail | with_reducible apply moves_respond | with_reducible apply moves_ite |
    split | intro _ | simp only [hm])

def foot_destRefuses : Nat := foot_releasePkt ||| foot_respond ||| fms [.HL_DROP_CNT]
theorem moves_destRefuses {m : Nat} {r : State} {n : ℕ} {p : Pkt} {hl cause : ℕ} {s : State} (h : Moves m r s)
    (hm : Within foot_destRefuses m) : Moves m r (destRefuses n p hl cause s) := by
  simp only [foot_destRefuses, fms, within_or, within_zero, and_true] at hm
  unfold destRefuses
  try dsimp only
  repeat' (first
    | with_reducible assumption | with_reducible apply moves_releasePkt | with_reducible apply moves_inc |
    with_reducible apply moves_respond | with_reducible apply moves_ite | split | intro _ | simp only [hm])

def foot_localPacket : Nat := foot_takePacket ||| foot_malformed
theorem moves_localPacket {m : Nat} {r : State} {n : Nat} {p : Pkt} {types : List Nat} {k : Pkt → State → State} {s
    : State} (hk : ∀ y0 z, Moves m r z → Moves m r (k y0 z)) (h : Moves m r s)
    (hm : Within foot_localPacket m) : Moves m r (localPacket n p types k s) := by
  simp only [foot_localPacket, within_or] at hm
  unfold localPacket
  try dsimp only
  repeat' (first
    | with_reducible assumption | with_reducible apply moves_takePacket | with_reducible apply moves_malformed |
    with_reducible apply hk | with_reducible apply moves_ite | split | intro _ | simp only [hm])

end Sys2Proof.Laws
end

