-- ==== Sys2Proof/Laws/FootSheaves.lean ====
section
/-!
SUPPORT. The footprint of each operation of Machine/Sheaves.lean: which register fields and parts of the state it may change.
-/
namespace Sys2Proof.Laws
open Sys2Proof.Machine

def foot_classed : Nat := foot_traceFn
theorem moves_classed {m : Nat} {r : State} {i d : Nat} {r' : HReq} {s : State} (h : Moves m r s)
    (hm : Within foot_classed m) : Moves m r (classed i d r' s).2 := by
  simp only [foot_classed] at hm
  unfold classed
  try dsimp only
  repeat' (first
    | with_reducible assumption | with_reducible intro _ | with_reducible apply moves_when |
    with_reducible apply moves_traceFn | with_reducible apply moves_ite | split | simp only [hm])

def foot_lateCheck : Nat := foot_traceFn ||| foot_raiseCause ||| fms [.TN_LATE_CNT]
theorem moves_lateCheck {m : Nat} {r : State} {r' : HReq} {win d : ℕ} {count : State → State} {s : State} (hcount : ∀
    z, Moves m r z → Moves m r (count z)) (h : Moves m r s)
    (hm : Within foot_lateCheck m) : Moves m r (lateCheck r' win d count s) := by
  simp only [foot_lateCheck, fms, within_or, within_zero, and_true] at hm
  unfold lateCheck
  try dsimp only
  repeat' (first
    | with_reducible assumption | with_reducible apply moves_when | with_reducible apply moves_inc |
    with_reducible apply moves_traceFn | with_reducible apply moves_raiseCause | with_reducible apply hcount |
    with_reducible apply moves_ite | split | intro _ | simp only [hm])

def foot_submitLocal : Nat := foot_showHeld ||| pms [.hostQ]
theorem moves_submitLocal {m : Nat} {r : State} {r' : HReq} {s : State} (h : Moves m r s)
    (hm : Within foot_submitLocal m) : Moves m r (submitLocal r' s) := by
  simp only [foot_submitLocal, pms, within_or, within_zero, and_true] at hm
  unfold submitLocal
  try dsimp only
  repeat' (first
    | with_reducible assumption | with_reducible apply moves_enqueueHost | with_reducible apply moves_showHeld |
    with_reducible apply moves_ite | split | intro _ | simp only [hm])

def foot_showSheaf : Nat := fms [.SH_WAITING]
theorem moves_showSheaf {m : Nat} {r : State} {i : ℕ} {s : State} (h : Moves m r s)
    (hm : Within foot_showSheaf m) : Moves m r (showSheaf i s) := by
  simp only [foot_showSheaf, fms, within_or, within_zero, and_true] at hm
  unfold showSheaf
  try dsimp only
  repeat' (first
    | with_reducible assumption | with_reducible apply moves_wr)

def foot_setCopy : Nat := pms [.sheafPkts]
theorem moves_setCopy {m : Nat} {r : State} {id d : ℕ} {c : CopyS} {s : State} (h : Moves m r s)
    (hm : Within foot_setCopy m) : Moves m r (setCopy id d c s) := by
  simp only [foot_setCopy, pms, within_or, within_zero, and_true] at hm
  unfold setCopy
  try dsimp only
  repeat' (first
    | with_reducible assumption | with_reducible apply moves_ite | split | with_reducible apply moves_part_sheafPkts)

def foot_queueGap : Nat := foot_traceFn ||| pms [.dests, .hostQ]
theorem moves_queueGap {m : Nat} {r : State} {i d wl lane : Nat} {s : State} (h : Moves m r s)
    (hm : Within foot_queueGap m) : Moves m r (queueGap i d wl lane s) := by
  simp only [foot_queueGap, pms, within_or, within_zero, and_true] at hm
  unfold queueGap
  try dsimp only
  repeat' (first
    | with_reducible assumption | with_reducible intro _ | with_reducible apply moves_draw |
    with_reducible apply moves_modDest | with_reducible apply moves_enqueueHost | with_reducible apply moves_traceFn |
    with_reducible apply moves_ite | split | simp only [hm])

def foot_noteDiscard : Nat := pms [.dests] ||| fms [.CT_SD_LAG]
theorem moves_noteDiscard {m : Nat} {r : State} {i d : Nat} {p : SheafPkt} {n : Nat} {s : State} (h : Moves m r s)
    (hm : Within foot_noteDiscard m) : Moves m r (noteDiscard i d p n s) := by
  simp only [foot_noteDiscard, fms, pms, within_or, within_zero, and_true] at hm
  unfold noteDiscard
  try dsimp only
  repeat' (first
    | with_reducible assumption | with_reducible intro _ | with_reducible apply moves_inc |
    with_reducible apply moves_modDest | with_reducible apply moves_ite | split | simp only [hm])

def foot_coverAccepted : Nat := pms [.sheafAcc]
theorem moves_coverAccepted {m : Nat} {r : State} {lane sheaf : Nat} {cause : SheafAcc → Nat} {s : State} (h : Moves
    m r s)
    (hm : Within foot_coverAccepted m) : Moves m r (coverAccepted lane sheaf cause s) := by
  simp only [foot_coverAccepted, pms, within_or, within_zero, and_true] at hm
  unfold coverAccepted
  try dsimp only
  repeat' (first
    | with_reducible assumption | with_reducible apply moves_ite | split | with_reducible apply moves_part_sheafAcc |
    intro _ | simp only [hm])

def foot_startFlush : Nat := foot_coverAccepted ||| foot_answerLoc ||| foot_modLoc ||| pms [.hostQ] ||| fms
    [.HL_DROP_CNT]
theorem moves_startFlush {m : Nat} {r : State} {q : LocReq} {sheaf : Nat} {s : State} (h : Moves m r s)
    (hm : Within foot_startFlush m) : Moves m r (startFlush q sheaf s) := by
  simp only [foot_startFlush, fms, pms, within_or, within_zero, and_true] at hm
  unfold startFlush
  try dsimp only
  repeat' (first
    | with_reducible assumption | with_reducible intro _ | with_reducible apply moves_each |
    with_reducible apply moves_inc | with_reducible apply moves_enqueueHost | with_reducible apply moves_coverAccepted |
    with_reducible apply moves_answerLoc | with_reducible apply moves_modLoc | with_reducible apply moves_ite | split |
    simp only [hm])

def foot_settleSheaves : Nat := foot_releasePkt ||| foot_answerLoc ||| foot_showSheaf ||| foot_startFlush ||| pms
    [.sheafPkts]
theorem moves_settleSheaves {m : Nat} {r : State} {s : State} (h : Moves m r s)
    (hm : Within foot_settleSheaves m) : Moves m r (settleSheaves s) := by
  simp only [foot_settleSheaves, pms, within_or, within_zero, and_true] at hm
  unfold settleSheaves
  try dsimp only
  repeat' (first
    | with_reducible assumption | with_reducible apply moves_each | with_reducible apply moves_when |
    with_reducible apply moves_withSome | with_reducible apply moves_releasePkt | with_reducible apply moves_answerLoc
    | with_reducible apply moves_showSheaf | with_reducible apply moves_startFlush | with_reducible apply moves_ite |
    split | with_reducible apply moves_part_sheafPkts | intro _ | simp only [hm])

def foot_copyAccepted : Nat := foot_lateCheck ||| foot_showSheaf ||| foot_settleSheaves ||| foot_setCopy ||| pms
    [.sheafAcc] ||| fms [.CT_SD_LATE, .SH_SD_LAG, .CT_SD_DELIVERED]
theorem moves_copyAccepted {m : Nat} {r : State} {r' : HReq} {id d : Nat} {s : State} (h : Moves m r s)
    (hm : Within foot_copyAccepted m) : Moves m r (copyAccepted r' id d s) := by
  simp only [foot_copyAccepted, fms, pms, within_or, within_zero, and_true] at hm
  unfold copyAccepted
  try dsimp only
  repeat' (first
    | with_reducible assumption | with_reducible intro _ | with_reducible apply moves_when |
    with_reducible apply moves_inc | with_reducible apply moves_wr | with_reducible apply moves_lateCheck |
    with_reducible apply moves_showSheaf | with_reducible apply moves_settleSheaves | with_reducible apply moves_setCopy
    | with_reducible apply moves_ite | split | with_reducible apply moves_part_sheafAcc | simp only [hm])

def foot_copyDropped : Nat := foot_showSheaf ||| foot_settleSheaves ||| foot_setCopy ||| fms [.CT_SD_LAG]
theorem moves_copyDropped {m : Nat} {r : State} {id d : ℕ} {s : State} (h : Moves m r s)
    (hm : Within foot_copyDropped m) : Moves m r (copyDropped id d s) := by
  simp only [foot_copyDropped, fms, within_or, within_zero, and_true] at hm
  unfold copyDropped
  try dsimp only
  repeat' (first
    | with_reducible assumption | with_reducible apply moves_showSheaf | with_reducible apply moves_settleSheaves |
    with_reducible apply moves_setCopy | with_reducible apply moves_inc | with_reducible apply moves_ite | split |
    intro _ | simp only [hm])

def foot_showExcused : Nat := fms [.SH_EXCUSED]
theorem moves_showExcused {m : Nat} {r : State} {s : State} (h : Moves m r s)
    (hm : Within foot_showExcused m) : Moves m r (showExcused s) := by
  simp only [foot_showExcused, fms, within_or, within_zero, and_true] at hm
  unfold showExcused
  try dsimp only
  repeat' (first
    | with_reducible assumption | with_reducible apply moves_each | with_reducible apply moves_when |
    with_reducible apply moves_setB | with_reducible apply moves_ite | split | intro _)

def foot_sheafFlushDone : Nat := foot_answerLoc ||| foot_modLoc ||| pms [.sheafAcc]
theorem moves_sheafFlushDone {m : Nat} {r : State} {sheaf n lane tag cause : ℕ} {fn : Fn} {s : State} (h : Moves m r
    s)
    (hm : Within foot_sheafFlushDone m) : Moves m r (sheafFlushDone sheaf n lane tag cause fn s) := by
  simp only [foot_sheafFlushDone, pms, within_or, within_zero, and_true] at hm
  unfold sheafFlushDone
  try dsimp only
  repeat' (first
    | with_reducible assumption | with_reducible apply moves_answerLoc | with_reducible apply moves_modLoc |
    with_reducible apply moves_ite | split | with_reducible apply moves_part_sheafAcc | intro _ | simp only [hm])

def foot_copyFor : Nat := foot_classed ||| foot_setCopy ||| foot_queueGap ||| foot_noteDiscard ||| pms [.hostQ] |||
    fms [.CT_SD_LAG, .SH_EXCUSED, .SH_LAGGING]
theorem moves_copyFor {m : Nat} {r : State} {i d win : Nat} {p : SheafPkt} {s : State} (h : Moves m r s)
    (hm : Within foot_copyFor m) : Moves m r (copyFor i d win p s) := by
  simp only [foot_copyFor, fms, pms, within_or, within_zero, and_true] at hm
  unfold copyFor
  try dsimp only
  repeat' (first
    | with_reducible assumption | with_reducible intro _ | with_reducible apply moves_when |
    with_reducible apply moves_choose | with_reducible apply moves_inc | with_reducible apply moves_setB |
    with_reducible apply moves_clrB | with_reducible apply moves_enqueueHost | with_reducible apply moves_classed |
    with_reducible apply moves_setCopy | with_reducible apply moves_queueGap | with_reducible apply moves_noteDiscard |
    with_reducible apply moves_ite | split | simp only [hm])

def foot_enterSheaf : Nat := foot_copyFor ||| foot_hubCross ||| foot_showSheaf ||| foot_settleSheaves ||| pms
    [.pktCount, .sheafPkts]
theorem moves_enterSheaf {m : Nat} {r : State} {i win n : Nat} {p : Pkt} {s : State} (h : Moves m r s)
    (hm : Within foot_enterSheaf m) : Moves m r (enterSheaf i win n p s) := by
  simp only [foot_enterSheaf, pms, within_or, within_zero, and_true] at hm
  unfold enterSheaf
  try dsimp only
  repeat' (first
    | with_reducible assumption | with_reducible apply moves_each | with_reducible apply moves_copyFor |
    with_reducible apply moves_hubCross | with_reducible apply moves_showSheaf |
    with_reducible apply moves_settleSheaves | with_reducible apply moves_ite | split |
    with_reducible apply moves_part_pktCount | with_reducible apply moves_part_sheafPkts | intro _ |
    with_reducible apply moves_parts | with_reducible exact Or.inl rfl | (refine Or.inr ?_; simp only [hm]) |
    simp only [hm])

def foot_execSheafLagExceeded : Nat := foot_advance ||| foot_setCopy ||| foot_noteDiscard ||| foot_traceFn |||
    foot_showSheaf ||| foot_settleSheaves ||| foot_raiseCause ||| pms [.hostQ] ||| fms [.SH_SD_LAG, .CT_SD_EPISODES,
    .SH_LAGGING]
theorem moves_execSheafLagExceeded {m : Nat} {r : State} {sheaf : Fin 256} {d : Fin 8} {s : State} (h : Moves m r s)
    (hm : Within foot_execSheafLagExceeded m) : Goes m r (execSheafLagExceeded sheaf d s) := by
  simp only [foot_execSheafLagExceeded, fms, pms, within_or, within_zero, and_true] at hm
  unfold execSheafLagExceeded
  try dsimp only
  repeat' (first
    | with_reducible assumption | with_reducible intro _ | refine goes_next ?_ | with_reducible apply moves_each |
    with_reducible apply moves_draw | with_reducible apply moves_wr | with_reducible apply moves_inc |
    with_reducible apply moves_setB | with_reducible apply moves_filterHostQ | with_reducible apply moves_advance |
    with_reducible apply moves_setCopy | with_reducible apply moves_noteDiscard | with_reducible apply moves_traceFn |
    with_reducible apply moves_showSheaf | with_reducible apply moves_settleSheaves |
    with_reducible apply moves_raiseCause | with_reducible apply goes_ite | with_reducible apply moves_ite | split |
    simp only [hm])

end Sys2Proof.Laws
end

