-- ==== Sys2Proof/Laws/FootDirtyLog.lean ====
section
/-!
SUPPORT. The footprint of each operation of Machine/DirtyLog.lean: which register fields and parts of the state it may change.
-/
namespace Sys2Proof.Laws
open Sys2Proof.Machine

def foot_roundCount : Nat := pms [.logs]
theorem moves_roundCount {m : Nat} {r : State} {tn bitmap lines bits : ℕ} {s : State} (h : Moves m r s)
    (hm : Within foot_roundCount m) : Moves m r (roundCount tn bitmap lines bits s) := by
  simp only [foot_roundCount, pms, within_or, within_zero, and_true] at hm
  unfold roundCount
  try dsimp only
  repeat' (first
    | with_reducible assumption | with_reducible apply moves_modLog)

def foot_dropLine : Nat := foot_roundCount ||| foot_roundDirty ||| pms [.dirty, .hostQ]
theorem moves_dropLine {m : Nat} {r : State} {d : DirtyLine} {s : State} (h : Moves m r s)
    (hm : Within foot_dropLine m) : Moves m r (dropLine d s) := by
  simp only [foot_dropLine, pms, within_or, within_zero, and_true] at hm
  unfold dropLine
  try dsimp only
  repeat' (first
    | with_reducible assumption | with_reducible apply moves_roundCount | with_reducible apply moves_enqueueHost |
    with_reducible apply moves_roundDirty | with_reducible apply moves_ite | split |
    with_reducible apply moves_part_dirty | intro _ | simp only [hm])

def foot_markPage : Nat := foot_roundCount ||| foot_roundDirty ||| foot_dropLine ||| pms [.dirty, .hostQ]
theorem moves_markPage {m : Nat} {r : State} {tn page : ℕ} {s : State} (h : Moves m r s)
    (hm : Within foot_markPage m) : Moves m r (markPage tn page s) := by
  simp only [foot_markPage, pms, within_or, within_zero, and_true] at hm
  unfold markPage
  try dsimp only
  repeat' (first
    | with_reducible assumption | with_reducible apply moves_when | with_reducible apply moves_withSome |
    with_reducible apply moves_roundCount | with_reducible apply moves_roundDirty |
    with_reducible apply moves_dropLine | with_reducible apply moves_enqueueHost | with_reducible apply moves_ite |
    split | with_reducible apply moves_part_dirty | intro _ | simp only [hm])

def foot_logWrite : Nat := foot_markPage ||| pms [.logs] ||| fms [.CT_TN_LOG_OUT_RANGE]
theorem moves_logWrite {m : Nat} {r : State} {r' : HReq} {s : State} (h : Moves m r s)
    (hm : Within foot_logWrite m) : Moves m r (logWrite r' s) := by
  simp only [foot_logWrite, fms, pms, within_or, within_zero, and_true] at hm
  unfold logWrite
  try dsimp only
  repeat' (first
    | with_reducible assumption | with_reducible apply moves_modLog | with_reducible apply moves_markPage |
    with_reducible apply moves_inc | with_reducible apply moves_ite | split | intro _ | simp only [hm])

def foot_harvestAdvance : Nat := pms [.hostQ, .logs]
theorem moves_harvestAdvance {m : Nat} {r : State} {tn : ℕ} {s : State} (h : Moves m r s)
    (hm : Within foot_harvestAdvance m) : Moves m r (harvestAdvance tn s) := by
  simp only [foot_harvestAdvance, pms, within_or, within_zero, and_true] at hm
  unfold harvestAdvance
  try dsimp only
  repeat' (first
    | with_reducible assumption | with_reducible apply moves_draw | with_reducible apply moves_enqueueHost |
    with_reducible apply moves_modLog | with_reducible apply moves_ite | split | intro _ | simp only [hm])

def foot_logEnd : Nat := foot_finishWaiting ||| pms [.logs] ||| fms [.TN_LOG_ON]
theorem moves_logEnd {m : Nat} {r : State} {tn : ℕ} {s : State} (h : Moves m r s)
    (hm : Within foot_logEnd m) : Moves m r (logEnd tn s) := by
  simp only [foot_logEnd, fms, pms, within_or, within_zero, and_true] at hm
  unfold logEnd
  try dsimp only
  repeat' (first
    | with_reducible assumption | with_reducible apply moves_finishWaiting | with_reducible apply moves_wr |
    with_reducible apply moves_setLog | with_reducible apply moves_ite | split | intro _ | simp only [hm])

def foot_logSettle : Nat := foot_logEnd ||| foot_harvestAdvance
theorem moves_logSettle {m : Nat} {r : State} {tn : ℕ} {s : State} (h : Moves m r s)
    (hm : Within foot_logSettle m) : Moves m r (logSettle tn s) := by
  simp only [foot_logSettle, within_or] at hm
  unfold logSettle
  try dsimp only
  repeat' (first
    | with_reducible assumption | with_reducible apply moves_logEnd | with_reducible apply moves_harvestAdvance |
    with_reducible apply moves_ite | split | intro _ | simp only [hm])

def foot_lineRead : Nat := foot_roundCount ||| foot_logSettle ||| foot_dropLine ||| pms [.dirty]
theorem moves_lineRead {m : Nat} {r : State} {tn key : ℕ} {data : Bytes} {s : State} (h : Moves m r s)
    (hm : Within foot_lineRead m) : Moves m r (lineRead tn key data s) := by
  simp only [foot_lineRead, pms, within_or, within_zero, and_true] at hm
  unfold lineRead
  try dsimp only
  repeat' (first
    | with_reducible assumption | with_reducible apply moves_when | with_reducible apply moves_roundCount |
    with_reducible apply moves_logSettle | with_reducible apply moves_dropLine | with_reducible apply moves_ite |
    split | with_reducible apply moves_part_dirty | intro _ | simp only [hm])

def foot_lineFailed : Nat := foot_roundDirty ||| foot_logSettle ||| pms [.dirty]
theorem moves_lineFailed {m : Nat} {r : State} {tn key : ℕ} {s : State} (h : Moves m r s)
    (hm : Within foot_lineFailed m) : Moves m r (lineFailed tn key s) := by
  simp only [foot_lineFailed, pms, within_or, within_zero, and_true] at hm
  unfold lineFailed
  try dsimp only
  repeat' (first
    | with_reducible assumption | with_reducible apply moves_roundDirty | with_reducible apply moves_logSettle |
    with_reducible apply moves_ite | split | with_reducible apply moves_part_dirty | intro _ | simp only [hm])

def foot_harvestFlushDone : Nat := pms [.logs]
theorem moves_harvestFlushDone {m : Nat} {r : State} {tn : ℕ} {ok : Bool} {s : State} (h : Moves m r s)
    (hm : Within foot_harvestFlushDone m) : Moves m r (harvestFlushDone tn ok s) := by
  simp only [foot_harvestFlushDone, pms, within_or, within_zero, and_true] at hm
  unfold harvestFlushDone
  try dsimp only
  repeat' (first
    | with_reducible assumption | with_reducible apply moves_modLog)

end Sys2Proof.Laws
end

