-- ==== Sys2Proof/Laws/FootDma.lean ====
section
/-!
SUPPORT. The footprint of each operation of Machine/Dma.lean: which register fields and parts of the state it may change.
-/
namespace Sys2Proof.Laws
open Sys2Proof.Machine

def foot_modDesc : Nat := pms [.chans]
theorem moves_modDesc {m : Nat} {r : State} {c id : ℕ} {g : Desc → Desc} {s : State} (h : Moves m r s)
    (hm : Within foot_modDesc m) : Moves m r (modDesc c id g s) := by
  simp only [foot_modDesc, pms, within_or, within_zero, and_true] at hm
  unfold modDesc
  try dsimp only
  repeat' (first
    | with_reducible assumption | with_reducible apply moves_modCh)

def foot_dropDescWaiting : Nat := pms [.wls, .hostQ]
theorem moves_dropDescWaiting {m : Nat} {r : State} {c : ℕ} {ids : List ℕ} {s : State} (h : Moves m r s)
    (hm : Within foot_dropDescWaiting m) : Moves m r (dropDescWaiting c ids s) := by
  simp only [foot_dropDescWaiting, pms, within_or, within_zero, and_true] at hm
  unfold dropDescWaiting
  try dsimp only
  repeat' (first
    | with_reducible assumption | with_reducible apply moves_mapWls | with_reducible apply moves_filterHostQ |
    with_reducible apply moves_ite | split | intro _ | simp only [hm])

def foot_haltAt : Nat := foot_dropDescWaiting ||| foot_haltChannel ||| pms [.hostQ, .chans] ||| fms [.CH_CUR]
theorem moves_haltAt {m : Nat} {r : State} {c : Nat} {id : Option Nat} {code : Nat} {b : BadReq} {s : State} (h :
    Moves m r s)
    (hm : Within foot_haltAt m) : Moves m r (haltAt c id code b s) := by
  simp only [foot_haltAt, fms, pms, within_or, within_zero, and_true] at hm
  unfold haltAt
  try dsimp only
  repeat' (first
    | with_reducible assumption | with_reducible intro _ | with_reducible apply moves_when |
    with_reducible apply moves_wr | with_reducible apply moves_filterHostQ | with_reducible apply moves_modCh |
    with_reducible apply moves_dropDescWaiting | with_reducible apply moves_haltChannel | with_reducible apply moves_ite
    | split | simp only [hm])

def foot_discardFault : Nat := foot_dropDescWaiting ||| foot_modDesc ||| pms [.chans]
theorem moves_discardFault {m : Nat} {r : State} {c : Nat} {id : Option Nat} {s : State} (h : Moves m r s)
    (hm : Within foot_discardFault m) : Moves m r (discardFault c id s) := by
  simp only [foot_discardFault, pms, within_or, within_zero, and_true] at hm
  unfold discardFault
  try dsimp only
  repeat' (first
    | with_reducible assumption | with_reducible intro _ | with_reducible apply moves_modCh |
    with_reducible apply moves_dropDescWaiting | with_reducible apply moves_modDesc | with_reducible apply moves_ite |
    split | simp only [hm])

def foot_chFault : Nat := foot_discardFault ||| foot_haltAt
theorem moves_chFault {m : Nat} {r : State} {c : Nat} {id : Option Nat} {code : Nat} {b : BadReq} {s : State} (h :
    Moves m r s)
    (hm : Within foot_chFault m) : Moves m r (chFault c id code b s) := by
  simp only [foot_chFault, within_or] at hm
  unfold chFault
  try dsimp only
  repeat' (first
    | with_reducible assumption | with_reducible intro _ | with_reducible apply moves_discardFault |
    with_reducible apply moves_haltAt | with_reducible apply moves_ite | split | simp only [hm])

def foot_chError : Nat := foot_dropDescWaiting ||| foot_modDesc ||| foot_discardFault ||| foot_chFault ||| pms
    [.chans]
theorem moves_chError {m : Nat} {r : State} {c : Nat} {id : Option Nat} {kind code : Nat} {b : BadReq} {s : State}
    (h : Moves m r s)
    (hm : Within foot_chError m) : Moves m r (chError c id kind code b s) := by
  simp only [foot_chError, pms, within_or, within_zero, and_true] at hm
  unfold chError
  try dsimp only
  repeat' (first
    | with_reducible assumption | with_reducible intro _ | with_reducible apply moves_when |
    with_reducible apply moves_modCh | with_reducible apply moves_dropDescWaiting | with_reducible apply moves_modDesc |
    with_reducible apply moves_discardFault | with_reducible apply moves_chFault | with_reducible apply moves_ite |
    split | simp only [hm])

def foot_fetchLater : Nat := pms [.chans] ||| fms [.CH_STATE]
theorem moves_fetchLater {m : Nat} {r : State} {c kind addr : ℕ} {s : State} (h : Moves m r s)
    (hm : Within foot_fetchLater m) : Moves m r (fetchLater c kind addr s) := by
  simp only [foot_fetchLater, fms, pms, within_or, within_zero, and_true] at hm
  unfold fetchLater
  try dsimp only
  repeat' (first
    | with_reducible assumption | with_reducible apply moves_modCh | with_reducible apply moves_wr |
    with_reducible apply moves_ite | split | intro _ | simp only [hm])

def foot_startFetch : Nat := foot_fetchLater ||| foot_chFault ||| pms [.chans, .hostQ] ||| fms [.CH_STATE]
theorem moves_startFetch {m : Nat} {r : State} {c addr : Nat} {s : State} (h : Moves m r s)
    (hm : Within foot_startFetch m) : Moves m r (startFetch c addr s) := by
  simp only [foot_startFetch, fms, pms, within_or, within_zero, and_true] at hm
  unfold startFetch
  try dsimp only
  repeat' (first
    | with_reducible assumption | with_reducible intro _ | with_reducible apply moves_wr |
    with_reducible apply moves_modCh | with_reducible apply moves_enqueueHost | with_reducible apply moves_fetchLater |
    with_reducible apply moves_chFault | with_reducible apply moves_ite | split | simp only [hm])

def foot_startReread : Nat := foot_fetchLater ||| foot_chFault ||| pms [.chans, .hostQ] ||| fms [.CH_STATE]
theorem moves_startReread {m : Nat} {r : State} {c addr : Nat} {s : State} (h : Moves m r s)
    (hm : Within foot_startReread m) : Moves m r (startReread c addr s) := by
  simp only [foot_startReread, fms, pms, within_or, within_zero, and_true] at hm
  unfold startReread
  try dsimp only
  repeat' (first
    | with_reducible assumption | with_reducible intro _ | with_reducible apply moves_wr |
    with_reducible apply moves_modCh | with_reducible apply moves_enqueueHost | with_reducible apply moves_fetchLater |
    with_reducible apply moves_chFault | with_reducible apply moves_ite | split | simp only [hm])

def foot_withLink : Nat := foot_chFault
theorem moves_withLink {m : Nat} {r : State} {c id : Nat} {b : BadReq} {k : State → State} {s : State} (hk : ∀ z,
    Moves m r z → Moves m r (k z)) (h : Moves m r s)
    (hm : Within foot_withLink m) : Moves m r (withLink c id b k s) := by
  simp only [foot_withLink] at hm
  unfold withLink
  try dsimp only
  repeat' (first
    | with_reducible assumption | with_reducible intro _ | with_reducible apply moves_chFault | with_reducible apply hk
    | with_reducible apply moves_ite | split | simp only [hm])

def foot_chPkt : Nat := pms [.wls]
theorem moves_chPkt {m : Nat} {r : State} {s : State} {c sp : ℕ} {p : Pkt} {src : WSrc} {charge : ℕ} {t : State} (h :
    Moves m r t)
    (hm : Within foot_chPkt m) : Moves m r (chPkt s c sp p src charge t) := by
  simp only [foot_chPkt, pms, within_or, within_zero, and_true] at hm
  unfold chPkt
  try dsimp only
  repeat' (first
    | with_reducible assumption | with_reducible apply moves_enqueueLink)

def foot_issueRead : Nat := foot_withLink ||| foot_chPkt ||| foot_modDesc ||| pms [.hostQ]
theorem moves_issueRead {m : Nat} {r : State} {c : Nat} {d : Desc} {s : State} (h : Moves m r s)
    (hm : Within foot_issueRead m) : Moves m r (issueRead c d s) := by
  simp only [foot_issueRead, pms, within_or, within_zero, and_true] at hm
  unfold issueRead
  try dsimp only
  repeat' (first
    | with_reducible assumption | with_reducible intro _ | with_reducible apply moves_enqueueHost |
    with_reducible apply moves_withLink | with_reducible apply moves_chPkt | with_reducible apply moves_modDesc |
    with_reducible apply moves_ite | split | simp only [hm])

def foot_maybeFlush : Nat := pms [.chans, .hostQ]
theorem moves_maybeFlush {m : Nat} {r : State} {c : ℕ} {s : State} (h : Moves m r s)
    (hm : Within foot_maybeFlush m) : Moves m r (maybeFlush c s) := by
  simp only [foot_maybeFlush, pms, within_or, within_zero, and_true] at hm
  unfold maybeFlush
  try dsimp only
  repeat' (first
    | with_reducible assumption | with_reducible apply moves_modCh | with_reducible apply moves_enqueueHost |
    with_reducible apply moves_ite | split | intro _ | simp only [hm])

def foot_writeOn : Nat := foot_modDesc ||| foot_withLink ||| foot_chPkt ||| pms [.hostQ] ||| fms [.CH_BYTES]
theorem moves_writeOn {m : Nat} {r : State} {c id : Nat} {s : State} (h : Moves m r s)
    (hm : Within foot_writeOn m) : Moves m r (writeOn c id s) := by
  simp only [foot_writeOn, fms, pms, within_or, within_zero, and_true] at hm
  unfold writeOn
  try dsimp only
  repeat' (first
    | with_reducible assumption | with_reducible intro _ | with_reducible apply moves_when |
    with_reducible apply moves_each | with_reducible apply moves_wr | with_reducible apply moves_enqueueHost |
    with_reducible apply moves_modDesc | with_reducible apply moves_withLink | with_reducible apply moves_chPkt |
    with_reducible apply moves_ite | split | simp only [hm])

def foot_marks : Nat := foot_raiseVec ||| fms [.CH_FULL, .CH_HALF]
theorem moves_marks {m : Nat} {r : State} {c : Nat} {half full : Bool} {s : State} (h : Moves m r s)
    (hm : Within foot_marks m) : Moves m r (marks c half full s) := by
  simp only [foot_marks, fms, within_or, within_zero, and_true] at hm
  unfold marks
  try dsimp only
  repeat' (first
    | with_reducible assumption | with_reducible intro _ | with_reducible apply moves_when |
    with_reducible apply moves_each | with_reducible apply moves_wr | with_reducible apply moves_raiseVec |
    with_reducible apply moves_ite | split | simp only [hm])

def foot_completeDesc : Nat := foot_trace ||| foot_marks ||| foot_chPkt ||| pms [.chans, .hostQ] ||| fms
    [.CH_DONE_CNT, .CH_BYTE_CNT, .CT_TN_DESC_DONE, .CT_TN_DESC_BYTES]
theorem moves_completeDesc {m : Nat} {r : State} {c era stamp : Nat} {d : Desc} {s : State} (h : Moves m r s)
    (hm : Within foot_completeDesc m) : Moves m r (completeDesc c era stamp d s) := by
  simp only [foot_completeDesc, fms, pms, within_or, within_zero, and_true] at hm
  unfold completeDesc
  try dsimp only
  repeat' (first
    | with_reducible assumption | with_reducible intro _ | with_reducible apply moves_when |
    with_reducible apply moves_inc | with_reducible apply moves_add | with_reducible apply moves_modCh |
    with_reducible apply moves_enqueueHost | with_reducible apply moves_trace | with_reducible apply moves_marks |
    with_reducible apply moves_chPkt | with_reducible apply moves_ite | split | simp only [hm])

def foot_chainEnd : Nat := foot_startReread ||| pms [.chans] ||| fms [.CH_STATE]
theorem moves_chainEnd {m : Nat} {r : State} {c : ℕ} {d : Desc} {s : State} (h : Moves m r s)
    (hm : Within foot_chainEnd m) : Moves m r (chainEnd c d s) := by
  simp only [foot_chainEnd, fms, pms, within_or, within_zero, and_true] at hm
  unfold chainEnd
  try dsimp only
  repeat' (first
    | with_reducible assumption | with_reducible apply moves_modCh | with_reducible apply moves_startReread |
    with_reducible apply moves_wr | with_reducible apply moves_ite | split | intro _ | simp only [hm])

def foot_completeFrom : Nat := foot_chainEnd ||| foot_completeDesc
theorem moves_completeFrom {m : Nat} {r : State} {c era stamp k : Nat} {s : State} (h : Moves m r s)
    (hm : Within foot_completeFrom m) : Moves m r (completeFrom c era stamp k s) := by
  induction k generalizing s with
  | zero => exact h
  | succ n ih =>
    have hm' := hm
    simp only [foot_completeFrom, within_or] at hm
    unfold completeFrom
    repeat' (first
      | with_reducible assumption | with_reducible apply ih | with_reducible apply moves_chainEnd
      | with_reducible apply moves_completeDesc | split | simp only [hm])


def foot_completeAll : Nat := foot_advance ||| foot_completeFrom
theorem moves_completeAll {m : Nat} {r : State} {c : Nat} {s : State} (h : Moves m r s)
    (hm : Within foot_completeAll m) : Moves m r (completeAll c s) := by
  simp only [foot_completeAll, within_or] at hm
  unfold completeAll
  try dsimp only
  repeat' (first
    | with_reducible assumption | with_reducible apply moves_when | with_reducible apply moves_advance |
    with_reducible apply moves_completeFrom | with_reducible apply moves_ite | split | intro _ | simp only [hm])

def foot_withSlots : Nat := pms [.chans]
theorem moves_withSlots {m : Nat} {r : State} {c turn n : Nat} {k : State → State} {s : State} (hk : ∀ z, Moves m r
    z → Moves m r (k z)) (h : Moves m r s)
    (hm : Within foot_withSlots m) : Moves m r (withSlots c turn n k s) := by
  simp only [foot_withSlots, pms, within_or, within_zero, and_true] at hm
  unfold withSlots
  try dsimp only
  repeat' (first
    | with_reducible assumption | with_reducible intro _ | with_reducible apply moves_modCh | with_reducible apply hk |
    with_reducible apply moves_ite | split | simp only [hm])

def foot_aheadFetch : Nat := foot_withSlots ||| pms [.chans, .hostQ]
theorem moves_aheadFetch {m : Nat} {r : State} {c turn : Nat} {s : State} (h : Moves m r s)
    (hm : Within foot_aheadFetch m) : Moves m r (aheadFetch c turn s) := by
  simp only [foot_aheadFetch, pms, within_or, within_zero, and_true] at hm
  unfold aheadFetch
  try dsimp only
  repeat' (first
    | with_reducible assumption | with_reducible intro _ | with_reducible apply moves_modCh |
    with_reducible apply moves_enqueueHost | with_reducible apply moves_withSlots | with_reducible apply moves_ite |
    split | simp only [hm])

def foot_aheadData : Nat := foot_withSlots ||| foot_modDesc ||| pms [.hostQ]
theorem moves_aheadData {m : Nat} {r : State} {c turn : Nat} {s : State} (h : Moves m r s)
    (hm : Within foot_aheadData m) : Moves m r (aheadData c turn s) := by
  simp only [foot_aheadData, pms, within_or, within_zero, and_true] at hm
  unfold aheadData
  try dsimp only
  repeat' (first
    | with_reducible assumption | with_reducible intro _ | with_reducible apply moves_enqueueHost |
    with_reducible apply moves_withSlots | with_reducible apply moves_modDesc | with_reducible apply moves_ite | split |
    simp only [hm])

def foot_speculate : Nat := foot_aheadData ||| foot_aheadFetch ||| pms [.chans]
theorem moves_speculate {m : Nat} {r : State} {c : Nat} {s : State} (h : Moves m r s)
    (hm : Within foot_speculate m) : Moves m r (speculate c s) := by
  simp only [foot_speculate, pms, within_or, within_zero, and_true] at hm
  unfold speculate
  try dsimp only
  repeat' (first
    | with_reducible assumption | with_reducible intro _ | with_reducible apply moves_modCh |
    with_reducible apply moves_aheadData | with_reducible apply moves_aheadFetch | with_reducible apply moves_ite |
    split | simp only [hm])

def foot_serveSlots : Nat := foot_speculate
theorem moves_serveSlots {m : Nat} {r : State} {t a0 : Nat} {a1 : State} (h : Moves m r a1)
    (hm : Within foot_serveSlots m) : Moves m r (serveSlots t a0 a1) := by
  simp only [foot_serveSlots] at hm
  induction a0 generalizing a1 with
  | zero => exact h
  | succ k ih =>
    unfold serveSlots
    try dsimp only
    repeat' (first
      | with_reducible assumption | with_reducible intro _ | with_reducible apply ih |
      with_reducible apply moves_speculate | with_reducible apply moves_ite | split | simp only [hm])

def foot_runAheadAll : Nat := foot_serveSlots ||| foot_speculate
theorem moves_runAheadAll {m : Nat} {r : State} {c : Nat} {s : State} (h : Moves m r s)
    (hm : Within foot_runAheadAll m) : Moves m r (runAheadAll c s) := by
  simp only [foot_runAheadAll, within_or] at hm
  unfold runAheadAll
  try dsimp only
  repeat' (first
    | with_reducible assumption | with_reducible intro _ | with_reducible apply moves_serveSlots |
    with_reducible apply moves_speculate | with_reducible apply moves_ite | split | simp only [hm])

def foot_dropAhead : Nat := pms [.hostQ, .chans]
theorem moves_dropAhead {m : Nat} {r : State} {c : Nat} {s : State} (h : Moves m r s)
    (hm : Within foot_dropAhead m) : Moves m r (dropAhead c s) := by
  simp only [foot_dropAhead, pms, within_or, within_zero, and_true] at hm
  unfold dropAhead
  try dsimp only
  repeat' (first
    | with_reducible assumption | with_reducible intro _ | with_reducible apply moves_filterHostQ |
    with_reducible apply moves_modCh | with_reducible apply moves_ite | split | simp only [hm])

def foot_enterWait : Nat := foot_trace ||| foot_dropAhead ||| pms [.chans] ||| fms [.CH_STATE, .CH_WAITED, .CH_CUR]
theorem moves_enterWait {m : Nat} {r : State} {c addr : Nat} {s : State} (h : Moves m r s)
    (hm : Within foot_enterWait m) : Moves m r (enterWait c addr s) := by
  simp only [foot_enterWait, fms, pms, within_or, within_zero, and_true] at hm
  unfold enterWait
  try dsimp only
  repeat' (first
    | with_reducible assumption | with_reducible apply moves_wr | with_reducible apply moves_modCh |
    with_reducible apply moves_trace | with_reducible apply moves_dropAhead | with_reducible apply moves_ite | split |
    intro _ | simp only [hm])

def foot_becomeCurrent : Nat := foot_startFetch ||| foot_dropAhead ||| foot_enterWait ||| foot_writeOn |||
    foot_chFault ||| pms [.chans] ||| fms [.CH_CUR, .CH_BYTES, .CH_RETRIES]
theorem moves_becomeCurrent {m : Nat} {r : State} {c : Nat} {d : Desc} {s : State} (h : Moves m r s)
    (hm : Within foot_becomeCurrent m) : Moves m r (becomeCurrent c d s) := by
  simp only [foot_becomeCurrent, fms, pms, within_or, within_zero, and_true] at hm
  unfold becomeCurrent
  try dsimp only
  repeat' (first
    | with_reducible assumption | with_reducible intro _ | with_reducible apply moves_wr |
    with_reducible apply moves_modCh | with_reducible apply moves_startFetch | with_reducible apply moves_dropAhead |
    with_reducible apply moves_enterWait | with_reducible apply moves_writeOn | with_reducible apply moves_chFault |
    with_reducible apply moves_ite | split | simp only [hm])

def foot_takeAhead : Nat := foot_becomeCurrent ||| pms [.hostQ]
theorem moves_takeAhead {m : Nat} {r : State} {c : Nat} {e : Desc} {s : State} (h : Moves m r s)
    (hm : Within foot_takeAhead m) : Moves m r (takeAhead c e s) := by
  simp only [foot_takeAhead, pms, within_or, within_zero, and_true] at hm
  unfold takeAhead
  try dsimp only
  repeat' (first
    | with_reducible assumption | with_reducible intro _ | with_reducible apply moves_filterHostQ |
    with_reducible apply moves_becomeCurrent | with_reducible apply moves_ite | split | simp only [hm])

def foot_nextDesc : Nat := foot_takeAhead ||| foot_startFetch ||| foot_dropAhead ||| pms [.chans]
theorem moves_nextDesc {m : Nat} {r : State} {c : Nat} {s : State} (h : Moves m r s)
    (hm : Within foot_nextDesc m) : Moves m r (nextDesc c s) := by
  simp only [foot_nextDesc, pms, within_or, within_zero, and_true] at hm
  unfold nextDesc
  try dsimp only
  repeat' (first
    | with_reducible assumption | with_reducible intro _ | with_reducible apply moves_modCh |
    with_reducible apply moves_takeAhead | with_reducible apply moves_startFetch | with_reducible apply moves_dropAhead
    | with_reducible apply moves_ite | split | simp only [hm])

def foot_pumpOnce : Nat := foot_issueRead ||| foot_nextDesc
theorem moves_pumpOnce {m : Nat} {r : State} {c : Nat} {s : State} (h : Moves m r s)
    (hm : Within foot_pumpOnce m) : Moves m r (pumpOnce c s) := by
  simp only [foot_pumpOnce, within_or] at hm
  unfold pumpOnce
  try dsimp only
  repeat' (first
    | with_reducible assumption | with_reducible intro _ | with_reducible apply moves_when |
    with_reducible apply moves_issueRead | with_reducible apply moves_nextDesc | with_reducible apply moves_ite | split
    | simp only [hm])

def foot_pump : Nat := foot_maybeFlush ||| foot_pumpOnce ||| foot_completeAll ||| foot_runAheadAll
theorem moves_pump {m : Nat} {r : State} {c : Nat} {s : State} (h : Moves m r s)
    (hm : Within foot_pump m) : Moves m r (pump c s) := by
  simp only [foot_pump, within_or] at hm
  unfold pump
  try dsimp only
  repeat' (first
    | with_reducible assumption | with_reducible intro _ | with_reducible apply moves_each |
    with_reducible apply moves_maybeFlush | with_reducible apply moves_pumpOnce | with_reducible apply moves_completeAll
    | with_reducible apply moves_runAheadAll | with_reducible apply moves_ite | split | simp only [hm])

def foot_refetched : Nat := pms [.chans] ||| fms [.CH_DB_PENDING]
theorem moves_refetched {m : Nat} {r : State} {c : Nat} {d : Desc} {s : State} (h : Moves m r s)
    (hm : Within foot_refetched m) : Moves m r (refetched c d s) := by
  simp only [foot_refetched, fms, pms, within_or, within_zero, and_true] at hm
  unfold refetched
  try dsimp only
  repeat' (first
    | with_reducible assumption | with_reducible apply moves_when | with_reducible apply moves_wr |
    with_reducible apply moves_modCh | with_reducible apply moves_ite | split | intro _ | simp only [hm])

def foot_fetched : Nat := foot_pump ||| foot_becomeCurrent ||| foot_refetched ||| pms [.chans]
theorem moves_fetched {m : Nat} {r : State} {c addr : Nat} {b : Bytes} {s : State} (h : Moves m r s)
    (hm : Within foot_fetched m) : Moves m r (fetched c addr b s) := by
  simp only [foot_fetched, pms, within_or, within_zero, and_true] at hm
  unfold fetched
  try dsimp only
  repeat' (first
    | with_reducible assumption | with_reducible apply moves_when | with_reducible apply moves_modCh |
    with_reducible apply moves_pump | with_reducible apply moves_becomeCurrent | with_reducible apply moves_refetched |
    with_reducible apply moves_ite | split | intro _ | simp only [hm])

def foot_reread : Nat := foot_startReread ||| foot_chFault ||| foot_startFetch ||| pms [.chans] ||| fms
    [.CH_DB_PENDING, .CH_STATE]
theorem moves_reread {m : Nat} {r : State} {c addr : Nat} {b : Bytes} {s : State} (h : Moves m r s)
    (hm : Within foot_reread m) : Moves m r (reread c addr b s) := by
  simp only [foot_reread, fms, pms, within_or, within_zero, and_true] at hm
  unfold reread
  try dsimp only
  repeat' (first
    | with_reducible assumption | with_reducible intro _ | with_reducible apply moves_when |
    with_reducible apply moves_wr | with_reducible apply moves_modCh | with_reducible apply moves_startReread |
    with_reducible apply moves_chFault | with_reducible apply moves_startFetch | with_reducible apply moves_ite | split
    | simp only [hm])

def foot_ranAhead : Nat := foot_pump ||| foot_refetched ||| foot_serveSlots ||| pms [.chans] ||| fms
    [.TI_RQ_SPEC_CNT]
theorem moves_ranAhead {m : Nat} {r : State} {c addr token : Nat} {b : Bytes} {s : State} (h : Moves m r s)
    (hm : Within foot_ranAhead m) : Moves m r (ranAhead c addr token b s) := by
  simp only [foot_ranAhead, fms, pms, within_or, within_zero, and_true] at hm
  unfold ranAhead
  try dsimp only
  repeat' (first
    | with_reducible assumption | with_reducible intro _ | with_reducible apply moves_inc |
    with_reducible apply moves_modCh | with_reducible apply moves_pump | with_reducible apply moves_refetched |
    with_reducible apply moves_serveSlots | with_reducible apply moves_ite | split | simp only [hm])

def foot_runAheadFailed : Nat := foot_pump ||| foot_serveSlots ||| pms [.chans] ||| fms [.TI_RQ_SPEC_CNT]
theorem moves_runAheadFailed {m : Nat} {r : State} {c token : Nat} {s : State} (h : Moves m r s)
    (hm : Within foot_runAheadFailed m) : Moves m r (runAheadFailed c token s) := by
  simp only [foot_runAheadFailed, fms, pms, within_or, within_zero, and_true] at hm
  unfold runAheadFailed
  try dsimp only
  repeat' (first
    | with_reducible assumption | with_reducible intro _ | with_reducible apply moves_inc |
    with_reducible apply moves_modCh | with_reducible apply moves_pump | with_reducible apply moves_serveSlots |
    with_reducible apply moves_ite | split | simp only [hm])

def foot_dataArrived : Nat := foot_pump ||| foot_writeOn ||| foot_modDesc
theorem moves_dataArrived {m : Nat} {r : State} {c id off : ℕ} {b : Bytes} {s : State} (h : Moves m r s)
    (hm : Within foot_dataArrived m) : Moves m r (dataArrived c id off b s) := by
  simp only [foot_dataArrived, within_or] at hm
  unfold dataArrived
  try dsimp only
  repeat' (first
    | with_reducible assumption | with_reducible apply moves_pump | with_reducible apply moves_writeOn |
    with_reducible apply moves_modDesc | with_reducible apply moves_ite | split | intro _ | simp only [hm])

def foot_aheadDone : Nat := foot_serveSlots ||| fms [.TI_RQ_SPEC_CNT]
theorem moves_aheadDone {m : Nat} {r : State} {c id : Nat} {s : State} (h : Moves m r s)
    (hm : Within foot_aheadDone m) : Moves m r (aheadDone c id s) := by
  simp only [foot_aheadDone, fms, within_or, within_zero, and_true] at hm
  unfold aheadDone
  try dsimp only
  repeat' (first
    | with_reducible assumption | with_reducible intro _ | with_reducible apply moves_when |
    with_reducible apply moves_inc | with_reducible apply moves_serveSlots | with_reducible apply moves_ite | split |
    simp only [hm])

def foot_aheadFailed : Nat := foot_pump ||| foot_modDesc ||| fms [.TI_RQ_SPEC_CNT]
theorem moves_aheadFailed {m : Nat} {r : State} {c id off : Nat} {s : State} (h : Moves m r s)
    (hm : Within foot_aheadFailed m) : Moves m r (aheadFailed c id off s) := by
  simp only [foot_aheadFailed, fms, within_or, within_zero, and_true] at hm
  unfold aheadFailed
  try dsimp only
  repeat' (first
    | with_reducible assumption | with_reducible intro _ | with_reducible apply moves_inc |
    with_reducible apply moves_pump | with_reducible apply moves_modDesc | with_reducible apply moves_ite | split |
    simp only [hm])

def foot_chWriteIssued : Nat := foot_pump ||| foot_modDesc
theorem moves_chWriteIssued {m : Nat} {r : State} {c id : ℕ} {s : State} (h : Moves m r s)
    (hm : Within foot_chWriteIssued m) : Moves m r (chWriteIssued c id s) := by
  simp only [foot_chWriteIssued, within_or] at hm
  unfold chWriteIssued
  try dsimp only
  repeat' (first
    | with_reducible assumption | with_reducible apply moves_pump | with_reducible apply moves_modDesc |
    with_reducible apply moves_ite | split | intro _ | simp only [hm])

def foot_chFlushIssued : Nat := pms [.chans]
theorem moves_chFlushIssued {m : Nat} {r : State} {c : Nat} {s : State} (h : Moves m r s)
    (hm : Within foot_chFlushIssued m) : Moves m r (chFlushIssued c s) := by
  simp only [foot_chFlushIssued, pms, within_or, within_zero, and_true] at hm
  unfold chFlushIssued
  try dsimp only
  repeat' (first
    | with_reducible assumption | with_reducible intro _ | with_reducible apply moves_modCh |
    with_reducible apply moves_ite | split | simp only [hm])

def foot_chFlushDone : Nat := foot_pump ||| pms [.chans]
theorem moves_chFlushDone {m : Nat} {r : State} {c : ℕ} {s : State} (h : Moves m r s)
    (hm : Within foot_chFlushDone m) : Moves m r (chFlushDone c s) := by
  simp only [foot_chFlushDone, pms, within_or, within_zero, and_true] at hm
  unfold chFlushDone
  try dsimp only
  repeat' (first
    | with_reducible assumption | with_reducible apply moves_pump | with_reducible apply moves_modCh |
    with_reducible apply moves_ite | split | intro _ | simp only [hm])

def foot_chFlushFailed : Nat := foot_pump ||| foot_chError ||| pms [.chans]
theorem moves_chFlushFailed {m : Nat} {r : State} {c code addr : Nat} {s : State} (h : Moves m r s)
    (hm : Within foot_chFlushFailed m) : Moves m r (chFlushFailed c code addr s) := by
  simp only [foot_chFlushFailed, pms, within_or, within_zero, and_true] at hm
  unfold chFlushFailed
  try dsimp only
  repeat' (first
    | with_reducible assumption | with_reducible intro _ | with_reducible apply moves_modCh |
    with_reducible apply moves_pump | with_reducible apply moves_chError | with_reducible apply moves_ite | split |
    simp only [hm])

def foot_chWriteAnswered : Nat := foot_modDesc ||| foot_withLink ||| foot_chPkt ||| foot_pump
theorem moves_chWriteAnswered {m : Nat} {r : State} {c id : Nat} {s : State} (h : Moves m r s)
    (hm : Within foot_chWriteAnswered m) : Moves m r (chWriteAnswered c id s) := by
  simp only [foot_chWriteAnswered, within_or] at hm
  unfold chWriteAnswered
  try dsimp only
  repeat' (first
    | with_reducible assumption | with_reducible intro _ | with_reducible apply moves_modDesc |
    with_reducible apply moves_withLink | with_reducible apply moves_chPkt | with_reducible apply moves_pump |
    with_reducible apply moves_ite | split | simp only [hm])

def foot_chPeerDone : Nat := foot_pump ||| foot_modDesc
theorem moves_chPeerDone {m : Nat} {r : State} {c id : ℕ} {s : State} (h : Moves m r s)
    (hm : Within foot_chPeerDone m) : Moves m r (chPeerDone c id s) := by
  simp only [foot_chPeerDone, within_or] at hm
  unfold chPeerDone
  try dsimp only
  repeat' (first
    | with_reducible assumption | with_reducible apply moves_pump | with_reducible apply moves_modDesc |
    with_reducible apply moves_ite | split | intro _ | simp only [hm])

def foot_doorbell : Nat := foot_startReread ||| foot_startFetch ||| foot_pump ||| foot_dropAhead ||| pms [.chans]
    ||| fms [.CH_DB_PENDING, .CH_DB_IGNORED, .CH_RETRIES]
theorem moves_doorbell {m : Nat} {r : State} {c : Nat} {s : State} (h : Moves m r s)
    (hm : Within foot_doorbell m) : Moves m r (doorbell c s) := by
  simp only [foot_doorbell, fms, pms, within_or, within_zero, and_true] at hm
  unfold doorbell
  try dsimp only
  repeat' (first
    | with_reducible assumption | with_reducible apply moves_wr | with_reducible apply moves_modCh |
    with_reducible apply moves_startReread | with_reducible apply moves_startFetch | with_reducible apply moves_pump |
    with_reducible apply moves_dropAhead | with_reducible apply moves_ite | split | intro _ | simp only [hm])

def foot_ringChannel : Nat := foot_doorbell ||| pms [.tens] ||| fms [.CH_DB_IGNORED, .CH_DB_PENDING]
theorem moves_ringChannel {m : Nat} {r : State} {c : ℕ} {s : State} (h : Moves m r s)
    (hm : Within foot_ringChannel m) : Moves m r (ringChannel c s) := by
  simp only [foot_ringChannel, fms, pms, within_or, within_zero, and_true] at hm
  unfold ringChannel
  try dsimp only
  repeat' (first
    | with_reducible assumption | with_reducible apply moves_wr | with_reducible apply moves_modTen |
    with_reducible apply moves_doorbell | with_reducible apply moves_ite | split | intro _ | simp only [hm])

def foot_execChannelDoorbell : Nat := foot_ringChannel
theorem moves_execChannelDoorbell {m : Nat} {r : State} {fn : Fn} {ch : Chan} {s : State} (h : Moves m r s)
    (hm : Within foot_execChannelDoorbell m) : Goes m r (execChannelDoorbell fn ch s) := by
  simp only [foot_execChannelDoorbell] at hm
  unfold execChannelDoorbell
  try dsimp only
  repeat' (first
    | with_reducible assumption | refine goes_next ?_ | with_reducible apply moves_when |
    with_reducible apply moves_ringChannel | with_reducible apply goes_ite | with_reducible apply moves_ite | split |
    intro _)

def foot_chIdle : Nat := pms [.chans] ||| fms [.CH_STATE, .CH_CODE]
theorem moves_chIdle {m : Nat} {r : State} {c : Nat} {s : State} (h : Moves m r s)
    (hm : Within foot_chIdle m) : Moves m r (chIdle c s) := by
  simp only [foot_chIdle, fms, pms, within_or, within_zero, and_true] at hm
  unfold chIdle
  try dsimp only
  repeat' (first
    | with_reducible assumption | with_reducible intro _ | with_reducible apply moves_wr |
    with_reducible apply moves_modCh | with_reducible apply moves_ite | split | simp only [hm])

def foot_enableChannel : Nat := foot_chIdle ||| pms [.chans] ||| fms [.CH_EN]
theorem moves_enableChannel {m : Nat} {r : State} {c : ℕ} {s : State} (h : Moves m r s)
    (hm : Within foot_enableChannel m) : Moves m r (enableChannel c s) := by
  simp only [foot_enableChannel, fms, pms, within_or, within_zero, and_true] at hm
  unfold enableChannel
  try dsimp only
  repeat' (first
    | with_reducible assumption | with_reducible apply moves_modCh | with_reducible apply moves_wr |
    with_reducible apply moves_chIdle | with_reducible apply moves_ite | split | intro _ | simp only [hm])

def foot_execChannelEnable : Nat := foot_enableChannel
theorem moves_execChannelEnable {m : Nat} {r : State} {fn : Fn} {ch : Chan} {s : State} (h : Moves m r s)
    (hm : Within foot_execChannelEnable m) : Goes m r (execChannelEnable fn ch s) := by
  simp only [foot_execChannelEnable] at hm
  unfold execChannelEnable
  try dsimp only
  repeat' (first
    | with_reducible assumption | refine goes_next ?_ | with_reducible apply moves_when |
    with_reducible apply moves_enableChannel | with_reducible apply goes_ite | with_reducible apply moves_ite | split
    | intro _)

def foot_disableChannel : Nat := foot_dropChanWaiting ||| pms [.chans, .tens] ||| fms [.CH_EN, .CH_CUR, .CH_BYTES,
    .CH_DB_PENDING, .CH_STATE, .CH_DRAINING]
theorem moves_disableChannel {m : Nat} {r : State} {c : Nat} {s : State} (h : Moves m r s)
    (hm : Within foot_disableChannel m) : Moves m r (disableChannel c s) := by
  simp only [foot_disableChannel, fms, pms, within_or, within_zero, and_true] at hm
  unfold disableChannel
  try dsimp only
  repeat' (first
    | with_reducible assumption | with_reducible intro _ | with_reducible apply moves_when |
    with_reducible apply moves_draw | with_reducible apply moves_wr | with_reducible apply moves_modCh |
    with_reducible apply moves_modTen | with_reducible apply moves_dropChanWaiting | with_reducible apply moves_ite |
    split | simp only [hm])

def foot_execChannelDisable : Nat := foot_disableChannel
theorem moves_execChannelDisable {m : Nat} {r : State} {fn : Fn} {ch : Chan} {s : State} (h : Moves m r s)
    (hm : Within foot_execChannelDisable m) : Goes m r (execChannelDisable fn ch s) := by
  simp only [foot_execChannelDisable] at hm
  unfold execChannelDisable
  try dsimp only
  repeat' (first
    | with_reducible assumption | refine goes_next ?_ | with_reducible apply moves_when |
    with_reducible apply moves_disableChannel | with_reducible apply goes_ite | with_reducible apply moves_ite | split
    | intro _)

def foot_countRetry : Nat := foot_trace ||| fms [.CH_RETRIES, .CT_TN_RETRIES, .CH_RETRY_CNT]
theorem moves_countRetry {m : Nat} {r : State} {c code n : ℕ} {s : State} (h : Moves m r s)
    (hm : Within foot_countRetry m) : Moves m r (countRetry c code n s) := by
  simp only [foot_countRetry, fms, within_or, within_zero, and_true] at hm
  unfold countRetry
  try dsimp only
  repeat' (first
    | with_reducible assumption | with_reducible apply moves_wr | with_reducible apply moves_inc |
    with_reducible apply moves_trace | with_reducible apply moves_ite | split | intro _ | simp only [hm])

def foot_restartDesc : Nat := foot_countRetry ||| foot_pump ||| foot_modDesc
theorem moves_restartDesc {m : Nat} {r : State} {c : Nat} {s : State} (h : Moves m r s)
    (hm : Within foot_restartDesc m) : Moves m r (restartDesc c s) := by
  simp only [foot_restartDesc, within_or] at hm
  unfold restartDesc
  try dsimp only
  repeat' (first
    | with_reducible assumption | with_reducible intro _ | with_reducible apply moves_when |
    with_reducible apply moves_countRetry | with_reducible apply moves_pump | with_reducible apply moves_modDesc |
    with_reducible apply moves_ite | split | simp only [hm])

def foot_execChannelRetry : Nat := foot_countRetry ||| foot_startFetch ||| foot_startReread ||| foot_restartDesc |||
    pms [.chans]
theorem moves_execChannelRetry {m : Nat} {r : State} {ch : Chan} {s : State} (h : Moves m r s)
    (hm : Within foot_execChannelRetry m) : Goes m r (execChannelRetry ch s) := by
  simp only [foot_execChannelRetry, pms, within_or, within_zero, and_true] at hm
  unfold execChannelRetry
  try dsimp only
  repeat' (first
    | with_reducible assumption | with_reducible intro _ | refine goes_next ?_ | with_reducible apply moves_modCh |
    with_reducible apply moves_countRetry | with_reducible apply moves_startFetch |
    with_reducible apply moves_startReread | with_reducible apply moves_restartDesc | with_reducible apply goes_ite |
    with_reducible apply moves_ite | split | simp only [hm])

def foot_execChannelDrained : Nat := foot_chIdle ||| fms [.CH_DRAINING, .CH_STATE]
theorem moves_execChannelDrained {m : Nat} {r : State} {ch : Chan} {s : State} (h : Moves m r s)
    (hm : Within foot_execChannelDrained m) : Goes m r (execChannelDrained ch s) := by
  simp only [foot_execChannelDrained, fms, within_or, within_zero, and_true] at hm
  unfold execChannelDrained
  try dsimp only
  repeat' (first
    | with_reducible assumption | refine goes_next ?_ | with_reducible apply moves_wr |
    with_reducible apply moves_chIdle | with_reducible apply goes_ite | with_reducible apply moves_ite | split | intro _
    | simp only [hm])

end Sys2Proof.Laws
end

