-- ==== Sys2Proof/Laws/FootSources.lean ====
section
/-!
SUPPORT. The footprint of each operation of Machine/Sources.lean: which register fields and parts of the state it may change.
-/
namespace Sys2Proof.Laws
open Sys2Proof.Machine

def foot_orphan : Nat := pms [.tags, .hostQ]
theorem moves_orphan {m : Nat} {r : State} {n tag new : Nat} {s : State} (h : Moves m r s)
    (hm : Within foot_orphan m) : Moves m r (orphan n tag new s) := by
  simp only [foot_orphan, pms, within_or, within_zero, and_true] at hm
  unfold orphan
  try dsimp only
  repeat' (first
    | with_reducible assumption | with_reducible apply moves_mapTags | with_reducible apply moves_part_hostQ |
    with_reducible apply moves_ite | split | intro _ | simp only [hm])

def foot_failLoc : Nat := foot_orphan ||| foot_answerLoc
theorem moves_failLoc {m : Nat} {r : State} {n tag cause : ℕ} {s : State} (h : Moves m r s)
    (hm : Within foot_failLoc m) : Moves m r (failLoc n tag cause s) := by
  simp only [foot_failLoc, within_or] at hm
  unfold failLoc
  try dsimp only
  repeat' (first
    | with_reducible assumption | with_reducible apply moves_orphan | with_reducible apply moves_answerLoc |
    with_reducible apply moves_ite | split | intro _ | simp only [hm])

def foot_releaseWindow : Nat := foot_releaseCredit
theorem moves_releaseWindow {m : Nat} {r : State} {r' : HReq} {s : State} (h : Moves m r s)
    (hm : Within foot_releaseWindow m) : Moves m r (releaseWindow r' s) := by
  simp only [foot_releaseWindow] at hm
  unfold releaseWindow
  try dsimp only
  repeat' (first
    | with_reducible assumption | with_reducible apply moves_when | with_reducible apply moves_releaseCredit |
    with_reducible apply moves_ite | split | intro _)

def foot_intrRaises : Nat := foot_raiseVec ||| pms [.hostQ]
theorem moves_intrRaises {m : Nat} {r : State} {r' : HReq} {wl lane v : Nat} {s : State} (h : Moves m r s)
    (hm : Within foot_intrRaises m) : Moves m r (intrRaises r' wl lane v s) := by
  simp only [foot_intrRaises, pms, within_or, within_zero, and_true] at hm
  unfold intrRaises
  try dsimp only
  repeat' (first
    | with_reducible assumption | with_reducible intro _ | with_reducible apply moves_raiseVec |
    with_reducible apply moves_ite | split | with_reducible apply moves_part_hostQ | simp only [hm])

def foot_settleIntr : Nat := foot_intrRaises ||| foot_releaseWindow ||| pms [.hostQ]
theorem moves_settleIntr {m : Nat} {r : State} {k : Nat} {s : State} (h : Moves m r s)
    (hm : Within foot_settleIntr m) : Moves m r (settleIntr k s) := by
  induction k generalizing s with
  | zero => exact h
  | succ n ih =>
    simp only [foot_settleIntr, pms, within_or, within_zero, and_true] at hm
    unfold settleIntr
    dsimp only
    split
    · split
      · refine ih (moves_intrRaises (moves_releaseWindow (moves_part_hostQ h ?_) ?_) ?_) <;> simp only [hm]
      · exact h
    · exact h


def foot_failSrc : Nat := foot_failLoc ||| foot_sheafFlushDone ||| foot_pump ||| foot_chError ||| foot_chFlushFailed
    ||| foot_runAheadFailed ||| foot_aheadFailed ||| foot_fetchFailed ||| foot_lineFailed ||| foot_harvestFlushDone |||
    pms [.tens]
theorem moves_failSrc {m : Nat} {r : State} {r' : HReq} {cause : Nat} {s : State} (h : Moves m r s)
    (hm : Within foot_failSrc m) : Moves m r (failSrc r' cause s) := by
  simp only [foot_failSrc, pms, within_or, within_zero, and_true] at hm
  unfold failSrc
  try dsimp only
  repeat' (first
    | with_reducible assumption | with_reducible intro _ | with_reducible apply moves_when |
    with_reducible apply moves_modTen | with_reducible apply moves_failLoc | with_reducible apply moves_sheafFlushDone |
    with_reducible apply moves_pump | with_reducible apply moves_chError | with_reducible apply moves_chFlushFailed |
    with_reducible apply moves_runAheadFailed | with_reducible apply moves_aheadFailed |
    with_reducible apply moves_fetchFailed | with_reducible apply moves_lineFailed |
    with_reducible apply moves_harvestFlushDone | with_reducible apply moves_ite | split | simp only [hm])

def foot_deliverData : Nat := foot_locData ||| foot_dataArrived
theorem moves_deliverData {m : Nat} {r : State} {r' : HReq} {off : Nat} {b : Bytes} {s : State} (h : Moves m r s)
    (hm : Within foot_deliverData m) : Moves m r (deliverData r' off b s) := by
  simp only [foot_deliverData, within_or] at hm
  unfold deliverData
  try dsimp only
  repeat' (first
    | with_reducible assumption | with_reducible apply moves_locData | with_reducible apply moves_dataArrived |
    with_reducible apply moves_ite | split | intro _ | simp only [hm])

def foot_succeed : Nat := foot_answerLoc ||| foot_locData ||| foot_sheafFlushDone ||| foot_fetched ||| foot_reread
    ||| foot_chFlushDone ||| foot_ranAhead ||| foot_aheadDone ||| foot_headerFetched ||| foot_answerUnknowns |||
    foot_lineRead ||| foot_harvestFlushDone ||| pms [.tens]
theorem moves_succeed {m : Nat} {r : State} {r' : HReq} {b : Bytes} {s : State} (h : Moves m r s)
    (hm : Within foot_succeed m) : Moves m r (succeed r' b s) := by
  simp only [foot_succeed, pms, within_or, within_zero, and_true] at hm
  unfold succeed
  try dsimp only
  repeat' (first
    | with_reducible assumption | with_reducible intro _ | with_reducible apply moves_when |
    with_reducible apply moves_withSome | with_reducible apply moves_modTen | with_reducible apply moves_answerLoc |
    with_reducible apply moves_locData | with_reducible apply moves_sheafFlushDone | with_reducible apply moves_fetched
    | with_reducible apply moves_reread | with_reducible apply moves_chFlushDone | with_reducible apply moves_ranAhead |
    with_reducible apply moves_aheadDone | with_reducible apply moves_headerFetched |
    with_reducible apply moves_answerUnknowns | with_reducible apply moves_lineRead |
    with_reducible apply moves_harvestFlushDone | with_reducible apply moves_ite | split | simp only [hm])

def foot_discardOne : Nat := foot_releaseWindow ||| foot_failLoc ||| foot_failSrc ||| foot_copyDropped |||
    foot_raiseVec ||| foot_logSettle ||| foot_roundDirty ||| pms [.vecs] ||| fms [.HL_DROP_CNT, .CT_SD_LAG]
theorem moves_discardOne {m : Nat} {r : State} {cause : Nat} {r' : HReq} {s : State} (h : Moves m r s)
    (hm : Within foot_discardOne m) : Moves m r (discardOne cause r' s) := by
  simp only [foot_discardOne, fms, pms, within_or, within_zero, and_true] at hm
  unfold discardOne
  try dsimp only
  repeat' (first
    | with_reducible assumption | with_reducible intro _ | with_reducible apply moves_when |
    with_reducible apply moves_inc | with_reducible apply moves_modVec | with_reducible apply moves_releaseWindow |
    with_reducible apply moves_failLoc | with_reducible apply moves_failSrc | with_reducible apply moves_copyDropped |
    with_reducible apply moves_raiseVec | with_reducible apply moves_logSettle | with_reducible apply moves_roundDirty |
    with_reducible apply moves_ite | split | simp only [hm])

def foot_discardWaiting : Nat := foot_settleIntr ||| foot_discardOne ||| pms [.hostQ]
theorem moves_discardWaiting {m : Nat} {r : State} {p : HReq → Bool} {cause : Nat} {s : State} (h : Moves m r s)
    (hm : Within foot_discardWaiting m) : Moves m r (discardWaiting p cause s) := by
  simp only [foot_discardWaiting, pms, within_or, within_zero, and_true] at hm
  unfold discardWaiting
  try dsimp only
  repeat' (first
    | with_reducible assumption | with_reducible apply moves_each | with_reducible apply moves_filterHostQ |
    with_reducible apply moves_settleIntr | with_reducible apply moves_discardOne | with_reducible apply moves_ite |
    split | intro _ | simp only [hm])

def foot_dropTags : Nat := foot_failSrc ||| pms [.tags]
theorem moves_dropTags {m : Nat} {r : State} {p : HReq → Bool} {cause : ℕ} {s : State} (h : Moves m r s)
    (hm : Within foot_dropTags m) : Moves m r (dropTags p cause s) := by
  simp only [foot_dropTags, pms, within_or, within_zero, and_true] at hm
  unfold dropTags
  try dsimp only
  repeat' (first
    | with_reducible assumption | with_reducible apply moves_each | with_reducible apply moves_mapTags |
    with_reducible apply moves_failSrc | with_reducible apply moves_ite | split | intro _ | simp only [hm])

def foot_haltTenant : Nat := foot_haltCore
theorem moves_haltTenant {m : Nat} {r : State} {tn code : Nat} {s : State} (h : Moves m r s)
    (hm : Within foot_haltTenant m) : Moves m r (haltTenant tn code s) := by
  simp only [foot_haltTenant] at hm
  unfold haltTenant
  try dsimp only
  repeat' (first
    | with_reducible assumption | with_reducible intro _ | with_reducible apply moves_each |
    with_reducible apply moves_haltCore | with_reducible apply moves_ite | split | simp only [hm])

def foot_stopFn : Nat := foot_haltTenant ||| foot_showExcused ||| foot_dropTags ||| foot_discardWaiting
theorem moves_stopFn {m : Nat} {r : State} {f cause : ℕ} {s : State} (h : Moves m r s)
    (hm : Within foot_stopFn m) : Moves m r (stopFn f cause s) := by
  simp only [foot_stopFn, within_or] at hm
  unfold stopFn
  try dsimp only
  repeat' (first
    | with_reducible assumption | with_reducible apply moves_withSome | with_reducible apply moves_haltTenant |
    with_reducible apply moves_showExcused | with_reducible apply moves_dropTags |
    with_reducible apply moves_discardWaiting | with_reducible apply moves_ite | split | intro _ | simp only [hm])

def foot_purgeFn : Nat := foot_discardWaiting
theorem moves_purgeFn {m : Nat} {r : State} {f cause : Nat} {s : State} (h : Moves m r s)
    (hm : Within foot_purgeFn m) : Moves m r (purgeFn f cause s) := by
  simp only [foot_purgeFn] at hm
  unfold purgeFn
  try dsimp only
  repeat' (first
    | with_reducible assumption | with_reducible intro _ | with_reducible apply moves_discardWaiting |
    with_reducible apply moves_ite | split | simp only [hm])

def foot_releaseHeldOf : Nat := foot_settleIntr ||| pms [.hostQ]
theorem moves_releaseHeldOf {m : Nat} {r : State} {n : Nat} {s : State} (h : Moves m r s)
    (hm : Within foot_releaseHeldOf m) : Moves m r (releaseHeldOf n s) := by
  simp only [foot_releaseHeldOf, pms, within_or, within_zero, and_true] at hm
  unfold releaseHeldOf
  try dsimp only
  repeat' (first
    | with_reducible assumption | with_reducible apply moves_settleIntr | with_reducible apply moves_part_hostQ |
    with_reducible apply moves_ite | split | intro _ | simp only [hm])

def foot_dropHeldMsgs : Nat := foot_releaseWindow ||| pms [.hostQ]
theorem moves_dropHeldMsgs {m : Nat} {r : State} {n : Nat} {s : State} (h : Moves m r s)
    (hm : Within foot_dropHeldMsgs m) : Moves m r (dropHeldMsgs n s) := by
  simp only [foot_dropHeldMsgs, pms, within_or, within_zero, and_true] at hm
  unfold dropHeldMsgs
  try dsimp only
  repeat' (first
    | with_reducible assumption | with_reducible intro _ | with_reducible apply moves_each |
    with_reducible apply moves_filterHostQ | with_reducible apply moves_releaseWindow | with_reducible apply moves_ite |
    split | simp only [hm])

def foot_cutTenant : Nat := foot_dropHeldMsgs ||| foot_haltTenant ||| foot_discardWaiting ||| foot_releaseHeldOf |||
    foot_bumpGeneration ||| foot_failSrc ||| foot_showExcused
theorem moves_cutTenant {m : Nat} {r : State} {tn code : Nat} {bump : Bool} {s : State} (h : Moves m r s)
    (hm : Within foot_cutTenant m) : Moves m r (cutTenant tn code bump s) := by
  simp only [foot_cutTenant, within_or] at hm
  unfold cutTenant
  try dsimp only
  repeat' (first
    | with_reducible assumption | with_reducible intro _ | with_reducible apply moves_when |
    with_reducible apply moves_each | with_reducible apply moves_dropHeldMsgs | with_reducible apply moves_haltTenant |
    with_reducible apply moves_discardWaiting | with_reducible apply moves_releaseHeldOf |
    with_reducible apply moves_bumpGeneration | with_reducible apply moves_failSrc |
    with_reducible apply moves_showExcused | with_reducible apply moves_ite | split | simp only [hm])

def foot_tnFlush : Nat := pms [.hostQ]
theorem moves_tnFlush {m : Nat} {r : State} {n : ℕ} {src : HSrc} {s : State} (h : Moves m r s)
    (hm : Within foot_tnFlush m) : Moves m r (tnFlush n src s).2 := by
  simp only [foot_tnFlush, pms, within_or, within_zero, and_true] at hm
  unfold tnFlush
  try dsimp only
  repeat' (first
    | with_reducible assumption | with_reducible apply moves_draw | with_reducible apply moves_enqueueHost |
    with_reducible apply moves_ite | split | intro _)

def foot_freezeSettle : Nat := foot_tnFlush ||| pms [.tens]
theorem moves_freezeSettle {m : Nat} {r : State} {s : State} (h : Moves m r s)
    (hm : Within foot_freezeSettle m) : Moves m r (freezeSettle s) := by
  simp only [foot_freezeSettle, pms, within_or, within_zero, and_true] at hm
  unfold freezeSettle
  try dsimp only
  repeat' (first
    | with_reducible assumption | with_reducible apply moves_each | with_reducible apply moves_when |
    with_reducible apply moves_modTen | with_reducible apply moves_tnFlush | with_reducible apply moves_ite | split |
    intro _ | simp only [hm])

end Sys2Proof.Laws
end

