-- ==== Sys2Proof/Laws/FootIssue.lean ====
section
/-!
SUPPORT. The footprint of each operation of Machine/Issue.lean: which register fields and parts of the state it may change.
-/
namespace Sys2Proof.Laws
open Sys2Proof.Machine

def foot_chargeBucket : Nat := foot_setBucket ||| fms [.TN_CHARGED_CNT]
theorem moves_chargeBucket {m : Nat} {r : State} {r' : HReq} {s : State} (h : Moves m r s)
    (hm : Within foot_chargeBucket m) : Moves m r (chargeBucket r' s) := by
  simp only [foot_chargeBucket, fms, within_or, within_zero, and_true] at hm
  unfold chargeBucket
  try dsimp only
  repeat' (first
    | with_reducible assumption | with_reducible intro _ | with_reducible apply moves_add |
    with_reducible apply moves_setBucket | with_reducible apply moves_ite | split | simp only [hm])

def foot_noteLast : Nat := pms [.tens, .wls, .chans, .logs]
theorem moves_noteLast {m : Nat} {r : State} {r' : HReq} {s : State} (h : Moves m r s)
    (hm : Within foot_noteLast m) : Moves m r (noteLast r' s) := by
  simp only [foot_noteLast, pms, within_or, within_zero, and_true] at hm
  unfold noteLast
  try dsimp only
  repeat' (first
    | with_reducible assumption | with_reducible apply moves_withSome | with_reducible apply moves_modTen |
    with_reducible apply moves_modWl | with_reducible apply moves_modCh | with_reducible apply moves_modLog |
    with_reducible apply moves_ite | split | intro _ | simp only [hm])

def foot_countTlp : Nat := foot_txTlp ||| foot_hubCross ||| fms [.CT_TN_MSIX_SENT, .FI_IN_SENT_CNT, .CT_TN_WR_BYTES]
theorem moves_countTlp {m : Nat} {r : State} {r' : HReq} {s : State} (h : Moves m r s)
    (hm : Within foot_countTlp m) : Moves m r (countTlp r' s) := by
  simp only [foot_countTlp, fms, within_or, within_zero, and_true] at hm
  unfold countTlp
  try dsimp only
  repeat' (first
    | with_reducible assumption | with_reducible intro _ | with_reducible apply moves_inc |
    with_reducible apply moves_add | with_reducible apply moves_txTlp | with_reducible apply moves_hubCross |
    with_reducible apply moves_ite | split | simp only [hm])

def foot_replaceReq : Nat := pms [.hostQ]
theorem moves_replaceReq {m : Nat} {r : State} {r' : HReq} {rest : Option HReq} {s : State} (h : Moves m r s)
    (hm : Within foot_replaceReq m) : Moves m r (replaceReq r' rest s) := by
  simp only [foot_replaceReq, pms, within_or, within_zero, and_true] at hm
  unfold replaceReq
  try dsimp only
  repeat' (first
    | with_reducible assumption | with_reducible apply moves_ite | split | with_reducible apply moves_part_hostQ)

def foot_streamSent : Nat := pms [.trace] ||| fms [.TR_SKIP_CNT]
theorem moves_streamSent {m : Nat} {r : State} {upto skipped count : Nat} {s : State} (h : Moves m r s)
    (hm : Within foot_streamSent m) : Moves m r (streamSent upto skipped count s) := by
  simp only [foot_streamSent, fms, pms, within_or, within_zero, and_true] at hm
  unfold streamSent
  try dsimp only
  repeat' (first
    | with_reducible assumption | with_reducible intro _ | with_reducible apply moves_when |
    with_reducible apply moves_add | with_reducible apply moves_modTrace | with_reducible apply moves_ite | split |
    simp only [hm])

def foot_lastTlp : Nat := foot_releaseWindow ||| foot_lateCheck ||| foot_answerLoc ||| foot_copyAccepted |||
    foot_chWriteIssued ||| foot_chFlushIssued ||| foot_pump ||| foot_logSettle ||| foot_streamSent ||| pms [.chans] |||
    fms [.CT_OW_LATE]
theorem moves_lastTlp {m : Nat} {r : State} {r' : HReq} {s : State} (h : Moves m r s)
    (hm : Within foot_lastTlp m) : Moves m r (lastTlp r' s) := by
  simp only [foot_lastTlp, fms, pms, within_or, within_zero, and_true] at hm
  unfold lastTlp
  try dsimp only
  repeat' (first
    | with_reducible assumption | with_reducible intro _ | with_reducible apply moves_withSome |
    with_reducible apply moves_inc | with_reducible apply moves_modCh | with_reducible apply moves_releaseWindow |
    with_reducible apply moves_lateCheck | with_reducible apply moves_answerLoc |
    with_reducible apply moves_copyAccepted | with_reducible apply moves_chWriteIssued |
    with_reducible apply moves_chFlushIssued | with_reducible apply moves_pump | with_reducible apply moves_logSettle |
    with_reducible apply moves_streamSent | with_reducible apply moves_ite | split | simp only [hm])

def foot_idleDeficit : Nat := pms [.hls]
theorem moves_idleDeficit {m : Nat} {r : State} {h' tn : Nat} {s : State} (h : Moves m r s)
    (hm : Within foot_idleDeficit m) : Moves m r (idleDeficit h' tn s) := by
  simp only [foot_idleDeficit, pms, within_or, within_zero, and_true] at hm
  unfold idleDeficit
  try dsimp only
  repeat' (first
    | with_reducible assumption | with_reducible apply moves_modHl | with_reducible apply moves_ite | split | intro _ |
    simp only [hm])

def foot_chanServed : Nat := pms [.hls]
theorem moves_chanServed {m : Nat} {r : State} {r' : HReq} {s : State} (h : Moves m r s)
    (hm : Within foot_chanServed m) : Moves m r (chanServed r' s) := by
  simp only [foot_chanServed, pms, within_or, within_zero, and_true] at hm
  unfold chanServed
  try dsimp only
  repeat' (first
    | with_reducible assumption | with_reducible apply moves_withSome | with_reducible apply moves_modHl |
    with_reducible apply moves_ite | split | intro _ | simp only [hm])

def foot_sendTlp : Nat := foot_replaceReq ||| foot_chargeBucket ||| foot_chanServed ||| foot_noteLast |||
    foot_countTlp ||| foot_logWrite ||| foot_lastTlp ||| foot_settleIntr ||| foot_idleDeficit ||| foot_showHeld
theorem moves_sendTlp {m : Nat} {r : State} {r' : HReq} {tag : Nat} {s : State} (h : Moves m r s)
    (hm : Within foot_sendTlp m) : Moves m r (sendTlp r' tag s) := by
  simp only [foot_sendTlp, within_or] at hm
  unfold sendTlp
  try dsimp only
  repeat' (first
    | with_reducible assumption | with_reducible apply moves_when | with_reducible apply moves_emit |
    with_reducible apply moves_replaceReq | with_reducible apply moves_chargeBucket |
    with_reducible apply moves_chanServed | with_reducible apply moves_noteLast | with_reducible apply moves_countTlp |
    with_reducible apply moves_logWrite | with_reducible apply moves_lastTlp | with_reducible apply moves_settleIntr |
    with_reducible apply moves_idleDeficit | with_reducible apply moves_showHeld | with_reducible apply moves_ite |
    split | intro _ | simp only [hm])

def foot_dropUndeliverable : Nat := foot_discardWaiting
theorem moves_dropUndeliverable {m : Nat} {r : State} {r' : HReq} {s : State} (h : Moves m r s)
    (hm : Within foot_dropUndeliverable m) : Moves m r (dropUndeliverable r' s) := by
  simp only [foot_dropUndeliverable] at hm
  unfold dropUndeliverable
  try dsimp only
  repeat' (first
    | with_reducible assumption | with_reducible apply moves_discardWaiting)

def foot_execHostTlpIssue : Nat := foot_freezeSettle ||| foot_dropUndeliverable ||| foot_sendTlp ||| pms [.hostQ,
    .hls] ||| fms [.CT_TL_LOG_STALL]
theorem moves_execHostTlpIssue {m : Nat} {r : State} {hl : Hl} {pos : ℕ} {s : State} (h : Moves m r s)
    (hm : Within foot_execHostTlpIssue m) : Goes m r (execHostTlpIssue hl pos s) := by
  simp only [foot_execHostTlpIssue, fms, pms, within_or, within_zero, and_true] at hm
  unfold execHostTlpIssue
  try dsimp only
  repeat' (first
    | with_reducible assumption | refine goes_next ?_ | with_reducible apply moves_freezeSettle |
    with_reducible apply moves_dropUndeliverable | with_reducible apply moves_inc | with_reducible apply moves_sendTlp
    | with_reducible apply moves_modHl | with_reducible apply goes_ite | with_reducible apply moves_ite | split |
    with_reducible apply moves_part_hostQ | intro _ | simp only [hm])

def foot_reserve : Nat := pms [.tags, .consLast] ||| fms [.TI_OUTSTANDING, .TN_LIVE_TAGS, .TI_CONS_OUT,
    .TI_CELLS_USED, .TN_CELLS_USED]
theorem moves_reserve {m : Nat} {r : State} {r' : HReq} {tag : ℕ} {s : State} (h : Moves m r s)
    (hm : Within foot_reserve m) : Moves m r (reserve r' tag s) := by
  simp only [foot_reserve, fms, pms, within_or, within_zero, and_true] at hm
  unfold reserve
  try dsimp only
  repeat' (first
    | with_reducible assumption | with_reducible apply moves_when | with_reducible apply moves_inc |
    with_reducible apply moves_add | with_reducible apply moves_ite | split | with_reducible apply moves_part_tags |
    with_reducible apply moves_part_consLast | intro _ | with_reducible apply moves_parts |
    with_reducible exact Or.inl rfl | (refine Or.inr ?_; simp only [hm]) | simp only [hm])

def foot_refuseRead : Nat := foot_replaceReq ||| foot_settleIntr ||| foot_failSrc ||| foot_releaseWindow ||| fms
    [.TN_NOREAD_CNT]
theorem moves_refuseRead {m : Nat} {r : State} {r' : HReq} {s : State} (h : Moves m r s)
    (hm : Within foot_refuseRead m) : Moves m r (refuseRead r' s) := by
  simp only [foot_refuseRead, fms, within_or, within_zero, and_true] at hm
  unfold refuseRead
  try dsimp only
  repeat' (first
    | with_reducible assumption | with_reducible apply moves_inc | with_reducible apply moves_replaceReq |
    with_reducible apply moves_settleIntr | with_reducible apply moves_failSrc |
    with_reducible apply moves_releaseWindow | with_reducible apply moves_ite | split | intro _ | simp only [hm])

def foot_readTlp : Nat := foot_sendTlp ||| foot_reserve ||| fms [.TI_RQ_FLUSH_CNT]
theorem moves_readTlp {m : Nat} {r : State} {r' : HReq} {tag : Nat} {s : State} (h : Moves m r s)
    (hm : Within foot_readTlp m) : Moves m r (readTlp r' tag s) := by
  simp only [foot_readTlp, fms, within_or, within_zero, and_true] at hm
  unfold readTlp
  try dsimp only
  repeat' (first
    | with_reducible assumption | with_reducible apply moves_when | with_reducible apply moves_inc |
    with_reducible apply moves_sendTlp | with_reducible apply moves_reserve | with_reducible apply moves_ite | split |
    intro _ | simp only [hm])

def foot_execHostReadIssue : Nat := foot_dropUndeliverable ||| foot_failSrc ||| foot_replaceReq ||| foot_refuseRead
    ||| foot_readTlp ||| pms [.hls, .hostQ] ||| fms [.CT_TL_LOG_STALL]
theorem moves_execHostReadIssue {m : Nat} {r : State} {hl : Hl} {pos tag : Nat} {s : State} (h : Moves m r s)
    (hm : Within foot_execHostReadIssue m) : Goes m r (execHostReadIssue hl pos tag s) := by
  simp only [foot_execHostReadIssue, fms, pms, within_or, within_zero, and_true] at hm
  unfold execHostReadIssue
  refine goes_next ?_
  dsimp only
  split
  · exact h
  · repeat' with_reducible apply moves_ite
    all_goals first
      | with_reducible exact h
      | exact moves_dropUndeliverable h (by simp only [hm])
      | exact moves_failSrc (moves_replaceReq h (by simp only [hm])) (by simp only [hm])
      | exact moves_refuseRead h (by simp only [hm])
      | exact moves_inc (moves_part_hostQ h (by simp only [hm])) (by simp only [hm])
      | skip
    split
    · exact h
    · exact moves_readTlp (moves_modHl h (by simp only [hm])) (by simp only [hm])


def foot_countTenant (c : Fld) : Nat := (fm c)
theorem moves_countTenant {m : Nat} {r : State} {c : Fld} {r' : HReq} {s : State} (h : Moves m r s)
    (hm : Within (foot_countTenant c) m) : Moves m r (countTenant c r' s) := by
  simp only [foot_countTenant] at hm
  unfold countTenant
  try dsimp only
  repeat' (first
    | with_reducible assumption | with_reducible apply moves_withSome | with_reducible apply moves_inc |
    with_reducible apply moves_ite | split | intro _)

def foot_unexpectedCpl : Nat := foot_ward ||| fms [.TI_RQ_UNEXP_CNT]
theorem moves_unexpectedCpl {m : Nat} {r : State} {f addr : ℕ} {s : State} (h : Moves m r s)
    (hm : Within foot_unexpectedCpl m) : Moves m r (unexpectedCpl f addr s) := by
  simp only [foot_unexpectedCpl, fms, within_or, within_zero, and_true] at hm
  unfold unexpectedCpl
  try dsimp only
  repeat' (first
    | with_reducible assumption | with_reducible apply moves_ward | with_reducible apply moves_inc |
    with_reducible apply moves_ite | split | intro _ | simp only [hm])

def foot_aerErr : Nat := foot_aerUncSet ||| foot_sendMsg
theorem moves_aerErr {m : Nat} {r : State} {f bit : Nat} {s : State} (h : Moves m r s)
    (hm : Within foot_aerErr m) : Moves m r (aerErr f bit s) := by
  simp only [foot_aerErr, within_or] at hm
  unfold aerErr
  try dsimp only
  repeat' (first
    | with_reducible assumption | with_reducible apply moves_when | with_reducible apply moves_aerUncSet |
    with_reducible apply moves_sendMsg | with_reducible apply moves_ite | split | intro _ | simp only [hm])

def foot_endTag : Nat := foot_showBlocked ||| foot_releaseTag
theorem moves_endTag {m : Nat} {r : State} {t : HTag} {s : State} (h : Moves m r s)
    (hm : Within foot_endTag m) : Moves m r (endTag t s) := by
  simp only [foot_endTag, within_or] at hm
  unfold endTag
  try dsimp only
  repeat' (first
    | with_reducible assumption | with_reducible apply moves_showBlocked | with_reducible apply moves_releaseTag |
    with_reducible apply moves_ite | split | intro _ | simp only [hm])

def foot_errorCpl : Nat := foot_endTag ||| foot_aerErr ||| foot_ward ||| foot_failSrc ||| foot_countTenant
    .CT_TN_CA_CPL |||
    foot_countTenant .CT_TN_UR_CPL
theorem moves_errorCpl {m : Nat} {r : State} {t : HTag} {c : HostCpl} {s : State} (h : Moves m r s)
    (hm : Within foot_errorCpl m) : Moves m r (errorCpl t c s) := by
  simp only [foot_errorCpl, within_or] at hm
  unfold errorCpl
  dsimp only
  have hc : Within (foot_countTenant (if (c.status != 1 || c.poisoned) = true then .CT_TN_CA_CPL else .CT_TN_UR_CPL)) m := by
    split <;> simp only [hm]
  repeat' (first
    | with_reducible assumption | with_reducible apply moves_when | with_reducible apply moves_endTag
    | with_reducible apply moves_countTenant | with_reducible apply moves_aerErr | with_reducible apply moves_ward
    | with_reducible apply moves_failSrc | intro _ | simp only [hm])

def foot_goodCpl : Nat := foot_hubCross ||| foot_succeed ||| foot_deliverData ||| foot_endTag ||| foot_freeCells |||
    pms [.tags] ||| fms [.CT_TN_RD_BYTES]
theorem moves_goodCpl {m : Nat} {r : State} {t : HTag} {c : HostCpl} {s : State} (h : Moves m r s)
    (hm : Within foot_goodCpl m) : Moves m r (goodCpl t c s) := by
  simp only [foot_goodCpl, fms, pms, within_or, within_zero, and_true] at hm
  unfold goodCpl
  try dsimp only
  repeat' (first
    | with_reducible assumption | with_reducible apply moves_withSome | with_reducible apply moves_add |
    with_reducible apply moves_mapTags | with_reducible apply moves_hubCross | with_reducible apply moves_succeed |
    with_reducible apply moves_deliverData | with_reducible apply moves_endTag | with_reducible apply moves_freeCells |
    with_reducible apply moves_ite | split | intro _ | simp only [hm])

def foot_heldCpl : Nat := foot_endTag ||| (foot_countTenant .TN_STALE_CNT) ||| foot_traceFn ||| foot_ward |||
    foot_unexpectedCpl ||| foot_errorCpl ||| foot_goodCpl ||| fms [.TI_RQ_STALE_CNT, .TI_RQ_LATE_CNT, .TI_RQ_DROP_CNT]
theorem moves_heldCpl {m : Nat} {r : State} {t : HTag} {c : HostCpl} {s : State} (h : Moves m r s)
    (hm : Within foot_heldCpl m) : Moves m r (heldCpl t c s) := by
  simp only [foot_heldCpl, fms, within_or, within_zero, and_true] at hm
  unfold heldCpl
  try dsimp only
  repeat' (first
    | with_reducible assumption | with_reducible apply moves_inc | with_reducible apply moves_endTag |
    with_reducible apply moves_countTenant | with_reducible apply moves_traceFn | with_reducible apply moves_ward |
    with_reducible apply moves_unexpectedCpl | with_reducible apply moves_errorCpl | with_reducible apply moves_goodCpl
    | with_reducible apply moves_ite | split | intro _ | simp only [hm])

def foot_strayCpl : Nat := (foot_countTenant .TN_STALE_CNT) ||| foot_unexpectedCpl ||| pms [.hls] ||| fms
    [.TI_RQ_STALE_CNT]
theorem moves_strayCpl {m : Nat} {r : State} {f tag : Nat} {s : State} (h : Moves m r s)
    (hm : Within foot_strayCpl m) : Moves m r (strayCpl f tag s) := by
  simp only [foot_strayCpl, fms, pms, within_or, within_zero, and_true] at hm
  unfold strayCpl
  try dsimp only
  repeat' (first
    | with_reducible assumption | with_reducible intro _ | with_reducible apply moves_inc |
    with_reducible apply moves_modHl | with_reducible apply moves_countTenant | with_reducible apply moves_unexpectedCpl
    | with_reducible apply moves_ite | split | simp only [hm])

def foot_execHostCompletion : Nat := foot_freezeSettle ||| foot_rxTlp ||| foot_strayCpl ||| foot_heldCpl
theorem moves_execHostCompletion {m : Nat} {r : State} {c : HostCpl} {s : State} (h : Moves m r s)
    (hm : Within foot_execHostCompletion m) : Goes m r (execHostCompletion c s) := by
  simp only [foot_execHostCompletion, within_or] at hm
  unfold execHostCompletion
  try dsimp only
  repeat' (first
    | with_reducible assumption | with_reducible intro _ | refine goes_next ?_ | with_reducible apply moves_freezeSettle
    | with_reducible apply moves_rxTlp | with_reducible apply moves_strayCpl | with_reducible apply moves_heldCpl |
    with_reducible apply goes_ite | with_reducible apply moves_ite | split | simp only [hm])

def foot_execCompletionTimeout : Nat := foot_freezeSettle ||| foot_showBlocked ||| foot_quarantineTag |||
    (foot_countTenant .CT_TN_CTO) ||| foot_traceFn ||| foot_aerErr ||| foot_ward ||| foot_failSrc ||| fms
    [.TI_RQ_CTO_CNT]
theorem moves_execCompletionTimeout {m : Nat} {r : State} {fn : Fn} {tag : ℕ} {s : State} (h : Moves m r s)
    (hm : Within foot_execCompletionTimeout m) : Goes m r (execCompletionTimeout fn tag s) := by
  simp only [foot_execCompletionTimeout, fms, within_or, within_zero, and_true] at hm
  unfold execCompletionTimeout
  try dsimp only
  repeat' (first
    | with_reducible assumption | refine goes_next ?_ | with_reducible apply moves_freezeSettle |
    with_reducible apply moves_showBlocked | with_reducible apply moves_quarantineTag | with_reducible apply moves_inc
    | with_reducible apply moves_countTenant | with_reducible apply moves_traceFn | with_reducible apply moves_aerErr
    | with_reducible apply moves_ward | with_reducible apply moves_failSrc | with_reducible apply goes_ite |
    with_reducible apply moves_ite | split | intro _ | simp only [hm])

def foot_execQuarantineExpiry : Nat := foot_endTag
theorem moves_execQuarantineExpiry {m : Nat} {r : State} {fn : Fn} {tag : ℕ} {s : State} (h : Moves m r s)
    (hm : Within foot_execQuarantineExpiry m) : Goes m r (execQuarantineExpiry fn tag s) := by
  simp only [foot_execQuarantineExpiry] at hm
  unfold execQuarantineExpiry
  try dsimp only
  repeat' (first
    | with_reducible assumption | refine goes_next ?_ | with_reducible apply moves_endTag |
    with_reducible apply goes_ite | with_reducible apply moves_ite | split)

end Sys2Proof.Laws
end

