-- ==== Sys2Proof/Laws/FootTransactions.lean ====
section
/-!
SUPPORT. The footprint of each operation of Machine/Transactions.lean: which register fields and parts of the state it may change.
-/
namespace Sys2Proof.Laws
open Sys2Proof.Machine

def foot_resetRefuses : Nat := foot_releasePkt ||| foot_respond
theorem moves_resetRefuses {m : Nat} {r : State} {n : ℕ} {p : Pkt} {s : State} (h : Moves m r s)
    (hm : Within foot_resetRefuses m) : Moves m r (resetRefuses n p s) := by
  simp only [foot_resetRefuses, within_or] at hm
  unfold resetRefuses
  try dsimp only
  repeat' (first
    | with_reducible assumption | with_reducible apply moves_when | with_reducible apply moves_releasePkt |
    with_reducible apply moves_respond | with_reducible apply moves_ite | split | intro _ | simp only [hm])

def foot_openLoc : Nat := pms [.locReqs]
theorem moves_openLoc {m : Nat} {r : State} {q : LocReq} {s : State} (h : Moves m r s)
    (hm : Within foot_openLoc m) : Moves m r (openLoc q s) := by
  simp only [foot_openLoc, pms, within_or, within_zero, and_true] at hm
  unfold openLoc
  try dsimp only
  repeat' (first
    | with_reducible assumption | with_reducible apply moves_ite | split | with_reducible apply moves_part_locReqs)

def foot_passOn : Nat := foot_destRefuses ||| foot_resetRefuses ||| foot_openLoc ||| foot_classed |||
    foot_refuseRead ||| foot_submitLocal ||| pms [.hostQ]
theorem moves_passOn {m : Nat} {r : State} {n i : Nat} {p : Pkt} {kind : HKind} {len charge : Nat} {s : State} (h :
    Moves m r s)
    (hm : Within foot_passOn m) : Moves m r (passOn n i p kind len charge s) := by
  simp only [foot_passOn, pms, within_or, within_zero, and_true] at hm
  unfold passOn
  try dsimp only
  repeat' (first
    | with_reducible assumption | with_reducible apply moves_when | with_reducible apply moves_destRefuses |
    with_reducible apply moves_resetRefuses | with_reducible apply moves_openLoc | with_reducible apply moves_classed |
    with_reducible apply moves_refuseRead | with_reducible apply moves_submitLocal | with_reducible apply moves_ite |
    split | with_reducible apply moves_part_hostQ | intro _ | simp only [hm])

def foot_localMwr : Nat := foot_malformedTag ||| foot_malformed ||| foot_windowMiss ||| foot_enterSheaf |||
    foot_openLoc ||| foot_passOn
theorem moves_localMwr {m : Nat} {r : State} {n : Nat} {p : Pkt} {s : State} (h : Moves m r s)
    (hm : Within foot_localMwr m) : Moves m r (localMwr n p s) := by
  simp only [foot_localMwr, within_or] at hm
  unfold localMwr
  try dsimp only
  repeat' (first
    | with_reducible assumption | with_reducible apply moves_when | with_reducible apply moves_malformedTag |
    with_reducible apply moves_malformed | with_reducible apply moves_windowMiss | with_reducible apply moves_enterSheaf
    | with_reducible apply moves_openLoc | with_reducible apply moves_passOn | with_reducible apply moves_ite | split |
    intro _ | simp only [hm])

def foot_execLocalMwr : Nat := foot_localPacket ||| foot_localMwr
theorem moves_execLocalMwr {m : Nat} {r : State} {wl : Wl} {p : Pkt} {s : State} (h : Moves m r s)
    (hm : Within foot_execLocalMwr m) : Goes m r (execLocalMwr wl p s) := by
  simp only [foot_execLocalMwr, within_or] at hm
  unfold execLocalMwr
  try dsimp only
  repeat' (first
    | with_reducible assumption | refine goes_next ?_ | with_reducible apply moves_localPacket |
    with_reducible apply moves_localMwr | with_reducible apply goes_ite | with_reducible apply moves_ite | split |
    intro _ | simp only [hm])

def foot_flushSheaf : Nat := foot_settleSheaves ||| foot_openLoc ||| foot_releasePkt
theorem moves_flushSheaf {m : Nat} {r : State} {n i : Nat} {p : Pkt} {s : State} (h : Moves m r s)
    (hm : Within foot_flushSheaf m) : Moves m r (flushSheaf n i p s) := by
  simp only [foot_flushSheaf, within_or] at hm
  unfold flushSheaf
  try dsimp only
  repeat' (first
    | with_reducible assumption | with_reducible apply moves_when | with_reducible apply moves_settleSheaves |
    with_reducible apply moves_openLoc | with_reducible apply moves_releasePkt | with_reducible apply moves_ite | split
    | intro _ | simp only [hm])

def foot_localMrd : Nat := foot_malformedTag ||| foot_malformed ||| foot_windowMiss ||| foot_flushSheaf |||
    foot_passOn
theorem moves_localMrd {m : Nat} {r : State} {n : ℕ} {p : Pkt} {s : State} (h : Moves m r s)
    (hm : Within foot_localMrd m) : Moves m r (localMrd n p s) := by
  simp only [foot_localMrd, within_or] at hm
  unfold localMrd
  try dsimp only
  repeat' (first
    | with_reducible assumption | with_reducible apply moves_malformedTag | with_reducible apply moves_malformed |
    with_reducible apply moves_windowMiss | with_reducible apply moves_flushSheaf | with_reducible apply moves_passOn
    | with_reducible apply moves_ite | split | intro _ | simp only [hm])

def foot_execLocalMrd : Nat := foot_localPacket ||| foot_localMrd
theorem moves_execLocalMrd {m : Nat} {r : State} {wl : Wl} {p : Pkt} {s : State} (h : Moves m r s)
    (hm : Within foot_execLocalMrd m) : Goes m r (execLocalMrd wl p s) := by
  simp only [foot_execLocalMrd, within_or] at hm
  unfold execLocalMrd
  try dsimp only
  repeat' (first
    | with_reducible assumption | refine goes_next ?_ | with_reducible apply moves_localPacket |
    with_reducible apply moves_localMrd | with_reducible apply goes_ite | with_reducible apply moves_ite | split |
    intro _ | simp only [hm])

def foot_localAtom : Nat := foot_malformedTag ||| foot_malformed ||| foot_windowMiss ||| foot_respond |||
    foot_releasePkt ||| foot_passOn
theorem moves_localAtom {m : Nat} {r : State} {n : ℕ} {p : Pkt} {s : State} (h : Moves m r s)
    (hm : Within foot_localAtom m) : Moves m r (localAtom n p s) := by
  simp only [foot_localAtom, within_or] at hm
  unfold localAtom
  try dsimp only
  repeat' (first
    | with_reducible assumption | with_reducible apply moves_malformedTag | with_reducible apply moves_malformed |
    with_reducible apply moves_windowMiss | with_reducible apply moves_respond | with_reducible apply moves_releasePkt
    | with_reducible apply moves_passOn | with_reducible apply moves_ite | split | intro _ | simp only [hm])

def foot_execLocalAtom : Nat := foot_localPacket ||| foot_localAtom
theorem moves_execLocalAtom {m : Nat} {r : State} {wl : Wl} {p : Pkt} {s : State} (h : Moves m r s)
    (hm : Within foot_execLocalAtom m) : Goes m r (execLocalAtom wl p s) := by
  simp only [foot_execLocalAtom, within_or] at hm
  unfold execLocalAtom
  try dsimp only
  repeat' (first
    | with_reducible assumption | refine goes_next ?_ | with_reducible apply moves_localPacket |
    with_reducible apply moves_localAtom | with_reducible apply goes_ite | with_reducible apply moves_ite | split |
    intro _ | simp only [hm])

def foot_interruptMsg : Nat := foot_windowMiss ||| foot_releasePkt ||| foot_settleIntr ||| foot_submitLocal
theorem moves_interruptMsg {m : Nat} {r : State} {n : Nat} {p : Pkt} {s : State} (h : Moves m r s)
    (hm : Within foot_interruptMsg m) : Moves m r (interruptMsg n p s) := by
  simp only [foot_interruptMsg, within_or] at hm
  unfold interruptMsg
  try dsimp only
  repeat' (first
    | with_reducible assumption | with_reducible apply moves_windowMiss | with_reducible apply moves_releasePkt |
    with_reducible apply moves_settleIntr | with_reducible apply moves_submitLocal | with_reducible apply moves_ite |
    split | intro _ | simp only [hm])

def foot_localMsg : Nat := foot_malformed ||| foot_interruptMsg
theorem moves_localMsg {m : Nat} {r : State} {n : ℕ} {p : Pkt} {s : State} (h : Moves m r s)
    (hm : Within foot_localMsg m) : Moves m r (localMsg n p s) := by
  simp only [foot_localMsg, within_or] at hm
  unfold localMsg
  try dsimp only
  repeat' (first
    | with_reducible assumption | with_reducible apply moves_malformed | with_reducible apply moves_interruptMsg |
    with_reducible apply moves_ite | split | intro _ | simp only [hm])

def foot_execLocalInterruptMsg : Nat := foot_localPacket ||| foot_localMsg
theorem moves_execLocalInterruptMsg {m : Nat} {r : State} {wl : Wl} {p : Pkt} {s : State} (h : Moves m r s)
    (hm : Within foot_execLocalInterruptMsg m) : Goes m r (execLocalInterruptMsg wl p s) := by
  simp only [foot_execLocalInterruptMsg, within_or] at hm
  unfold execLocalInterruptMsg
  try dsimp only
  repeat' (first
    | with_reducible assumption | refine goes_next ?_ | with_reducible apply moves_localPacket |
    with_reducible apply moves_localMsg | with_reducible apply goes_ite | with_reducible apply moves_ite | split |
    intro _ | simp only [hm])

def foot_execPeerDoorbell : Nat := foot_localPacket ||| foot_localMsg
theorem moves_execPeerDoorbell {m : Nat} {r : State} {wl : Wl} {p : Pkt} {s : State} (h : Moves m r s)
    (hm : Within foot_execPeerDoorbell m) : Goes m r (execPeerDoorbell wl p s) := by
  simp only [foot_execPeerDoorbell, within_or] at hm
  unfold execPeerDoorbell
  try dsimp only
  repeat' (first
    | with_reducible assumption | refine goes_next ?_ | with_reducible apply moves_when |
    with_reducible apply moves_localPacket | with_reducible apply moves_localMsg | with_reducible apply goes_ite |
    with_reducible apply moves_ite | split | intro _ | simp only [hm])

def foot_localLnk : Nat := foot_releasePkt ||| foot_malformed ||| pms [.wls] ||| fms [.CT_WL_MALFORMED]
theorem moves_localLnk {m : Nat} {r : State} {n : Nat} {p : Pkt} {s : State} (h : Moves m r s)
    (hm : Within foot_localLnk m) : Moves m r (localLnk n p s) := by
  simp only [foot_localLnk, fms, pms, within_or, within_zero, and_true] at hm
  unfold localLnk
  try dsimp only
  repeat' (first
    | with_reducible assumption | with_reducible intro _ | with_reducible apply moves_when |
    with_reducible apply moves_inc | with_reducible apply moves_modWl | with_reducible apply moves_releasePkt |
    with_reducible apply moves_malformed | with_reducible apply moves_ite | split | simp only [hm])

def foot_execIdentReceived : Nat := foot_localPacket ||| foot_localLnk
theorem moves_execIdentReceived {m : Nat} {r : State} {wl : Wl} {p : Pkt} {s : State} (h : Moves m r s)
    (hm : Within foot_execIdentReceived m) : Goes m r (execIdentReceived wl p s) := by
  simp only [foot_execIdentReceived, within_or] at hm
  unfold execIdentReceived
  try dsimp only
  repeat' (first
    | with_reducible assumption | refine goes_next ?_ | with_reducible apply moves_localPacket |
    with_reducible apply moves_localLnk | with_reducible apply goes_ite | with_reducible apply moves_ite | split |
    intro _ | simp only [hm])

def foot_sendCpl : Nat := foot_txTlp ||| foot_readyTlp
theorem moves_sendCpl {m : Nat} {r : State} {f hostTag status byteCount : Nat} {data : Bytes} {s : State} (h : Moves
    m r s)
    (hm : Within foot_sendCpl m) : Moves m r (sendCpl f hostTag status byteCount data s) := by
  simp only [foot_sendCpl, within_or] at hm
  unfold sendCpl
  try dsimp only
  repeat' (first
    | with_reducible assumption | with_reducible apply moves_when | with_reducible apply moves_emit |
    with_reducible apply moves_txTlp | with_reducible apply moves_readyTlp | with_reducible apply moves_ite | split |
    intro _ | simp only [hm])

def foot_sendHostCpls : Nat := foot_sendCpl ||| pms [.inRds]
theorem moves_sendHostCpls {m : Nat} {r : State} {id a1 : ℕ} {a2 : State} (h : Moves m r a2)
    (hm : Within foot_sendHostCpls m) : Moves m r (sendHostCpls id a1 a2) := by
  simp only [foot_sendHostCpls, pms, within_or, within_zero, and_true] at hm
  induction a1 generalizing a2 with
  | zero => exact h
  | succ k ih =>
    unfold sendHostCpls
    try dsimp only
    repeat' (first
      | with_reducible assumption | with_reducible apply moves_sendCpl | with_reducible apply moves_ite | with_reducible apply ih | split |
      with_reducible apply moves_part_inRds | intro _ | simp only [hm])

def foot_partEnds : Nat := pms [.inRds]
theorem moves_partEnds {m : Nat} {r : State} {q : InRd} {s : State} (h : Moves m r s)
    (hm : Within foot_partEnds m) : Moves m r (partEnds q s) := by
  simp only [foot_partEnds, pms, within_or, within_zero, and_true] at hm
  unfold partEnds
  try dsimp only
  repeat' (first
    | with_reducible assumption | with_reducible apply moves_ite | split | with_reducible apply moves_part_inRds |
    intro _ | simp only [hm])

def foot_failInRd : Nat := foot_partEnds ||| foot_sendCpl ||| pms [.inRds]
theorem moves_failInRd {m : Nat} {r : State} {id status : Nat} {s : State} (h : Moves m r s)
    (hm : Within foot_failInRd m) : Moves m r (failInRd id status s) := by
  simp only [foot_failInRd, pms, within_or, within_zero, and_true] at hm
  unfold failInRd
  try dsimp only
  repeat' (first
    | with_reducible assumption | with_reducible apply moves_partEnds | with_reducible apply moves_sendCpl |
    with_reducible apply moves_ite | split | with_reducible apply moves_part_inRds | intro _ | simp only [hm])

def foot_unavailable : Nat := foot_ward
theorem moves_unavailable {m : Nat} {r : State} {f off : ℕ} {write : Bool} {s : State} (h : Moves m r s)
    (hm : Within foot_unavailable m) : Moves m r (unavailable f off write s) := by
  simp only [foot_unavailable] at hm
  unfold unavailable
  try dsimp only
  repeat' (first
    | with_reducible assumption | with_reducible apply moves_ward)

def foot_inData : Nat := foot_sendHostCpls ||| pms [.inRds]
theorem moves_inData {m : Nat} {r : State} {id off : Nat} {b : Bytes} {s : State} (h : Moves m r s)
    (hm : Within foot_inData m) : Moves m r (inData id off b s) := by
  simp only [foot_inData, pms, within_or, within_zero, and_true] at hm
  unfold inData
  try dsimp only
  repeat' (first
    | with_reducible assumption | with_reducible apply moves_sendHostCpls | with_reducible apply moves_ite | split |
    with_reducible apply moves_part_inRds | intro _ | simp only [hm])

def foot_inPart : Nat := foot_partEnds ||| foot_sendCpl
theorem moves_inPart {m : Nat} {r : State} {id : Nat} {s : State} (h : Moves m r s)
    (hm : Within foot_inPart m) : Moves m r (inPart id s) := by
  simp only [foot_inPart, within_or] at hm
  unfold inPart
  try dsimp only
  repeat' (first
    | with_reducible assumption | with_reducible apply moves_partEnds | with_reducible apply moves_sendCpl |
    with_reducible apply moves_ite | split | intro _ | simp only [hm])

def foot_inboundUr : Nat := foot_sendCpl
theorem moves_inboundUr {m : Nat} {r : State} {m' : HostMem} {s : State} (h : Moves m r s)
    (hm : Within foot_inboundUr m) : Moves m r (inboundUr m' s) := by
  simp only [foot_inboundUr] at hm
  unfold inboundUr
  try dsimp only
  repeat' (first
    | with_reducible assumption | with_reducible apply moves_sendCpl | with_reducible apply moves_ite)

def foot_inboundPass : Nat := foot_unavailable ||| foot_inboundUr ||| foot_hubCross ||| pms [.hls, .pktCount,
    .inRds, .wls] ||| fms [.HL_DROP_CNT]
theorem moves_inboundPass {m : Nat} {r : State} {x : InReq} {s : State} (h : Moves m r s)
    (hm : Within foot_inboundPass m) : Moves m r (inboundPass x s) := by
  simp only [foot_inboundPass, fms, pms, within_or, within_zero, and_true] at hm
  unfold inboundPass
  try dsimp only
  repeat' (first
    | with_reducible assumption | with_reducible intro _ | with_reducible apply moves_when |
    with_reducible apply moves_each | with_reducible apply moves_inc | with_reducible apply moves_modHl |
    with_reducible apply moves_enqueueLink | with_reducible apply moves_unavailable |
    with_reducible apply moves_inboundUr | with_reducible apply moves_hubCross | with_reducible apply moves_ite | split
    | with_reducible apply moves_part_pktCount | with_reducible apply moves_part_inRds |
    with_reducible apply moves_parts | with_reducible exact Or.inl rfl | (refine Or.inr ?_; simp only [hm]) |
    simp only [hm])

def foot_inbound : Nat := foot_rxTlp ||| foot_inboundUr ||| foot_ward ||| foot_inboundPass ||| foot_unavailable |||
    fms [.CT_HL_IN_MISS]
theorem moves_inbound {m : Nat} {r : State} {m' : HostMem} {s : State} (h : Moves m r s)
    (hm : Within foot_inbound m) : Moves m r (inbound m' s) := by
  simp only [foot_inbound, fms, within_or, within_zero, and_true] at hm
  unfold inbound
  try dsimp only
  repeat' (first
    | with_reducible assumption | with_reducible intro _ | with_reducible apply moves_when |
    with_reducible apply moves_inc | with_reducible apply moves_rxTlp | with_reducible apply moves_inboundUr |
    with_reducible apply moves_ward | with_reducible apply moves_inboundPass | with_reducible apply moves_unavailable |
    with_reducible apply moves_ite | split | simp only [hm])

def foot_execInboundRequest : Nat := foot_inbound
theorem moves_execInboundRequest {m : Nat} {r : State} {m' : HostMem} {s : State} (h : Moves m r s)
    (hm : Within foot_execInboundRequest m) : Goes m r (execInboundRequest m' s) := by
  simp only [foot_execInboundRequest] at hm
  unfold execInboundRequest
  try dsimp only
  repeat' (first
    | with_reducible assumption | refine goes_next ?_ | with_reducible apply moves_when |
    with_reducible apply moves_inbound | with_reducible apply goes_ite | with_reducible apply moves_ite | split |
    intro _ | simp only [hm])

def foot_bridgeFails : Nat := foot_failInRd ||| foot_unavailable ||| foot_pump ||| foot_chError
theorem moves_bridgeFails {m : Nat} {r : State} {n : Nat} {src : WSrc} {addr code : Nat} {s : State} (h : Moves m r
    s)
    (hm : Within foot_bridgeFails m) : Moves m r (bridgeFails n src addr code s) := by
  simp only [foot_bridgeFails, within_or] at hm
  unfold bridgeFails
  try dsimp only
  repeat' (first
    | with_reducible assumption | with_reducible intro _ | with_reducible apply moves_when |
    with_reducible apply moves_failInRd | with_reducible apply moves_unavailable | with_reducible apply moves_pump |
    with_reducible apply moves_chError | with_reducible apply moves_ite | split | simp only [hm])

def foot_bridgeDone : Nat := foot_inPart ||| foot_chWriteAnswered ||| foot_chPeerDone
theorem moves_bridgeDone {m : Nat} {r : State} {src : WSrc} {s : State} (h : Moves m r s)
    (hm : Within foot_bridgeDone m) : Moves m r (bridgeDone src s) := by
  simp only [foot_bridgeDone, within_or] at hm
  unfold bridgeDone
  try dsimp only
  repeat' (first
    | with_reducible assumption | with_reducible intro _ | with_reducible apply moves_inPart |
    with_reducible apply moves_chWriteAnswered | with_reducible apply moves_chPeerDone | with_reducible apply moves_ite
    | split | simp only [hm])

def foot_bridgeData : Nat := foot_inData ||| foot_dataArrived
theorem moves_bridgeData {m : Nat} {r : State} {src : WSrc} {got : Nat} {b : Bytes} {s : State} (h : Moves m r s)
    (hm : Within foot_bridgeData m) : Moves m r (bridgeData src got b s) := by
  simp only [foot_bridgeData, within_or] at hm
  unfold bridgeData
  try dsimp only
  repeat' (first
    | with_reducible assumption | with_reducible intro _ | with_reducible apply moves_inData |
    with_reducible apply moves_dataArrived | with_reducible apply moves_ite | split | simp only [hm])

def foot_freeWTag : Nat := pms [.wls]
theorem moves_freeWTag {m : Nat} {r : State} {n : ℕ} {t : WTag} {s : State} (h : Moves m r s)
    (hm : Within foot_freeWTag m) : Moves m r (freeWTag n t s) := by
  simp only [foot_freeWTag, pms, within_or, within_zero, and_true] at hm
  unfold freeWTag
  try dsimp only
  repeat' (first
    | with_reducible assumption | with_reducible apply moves_modWl)

def foot_unexpectedRsp (cnt : Fld) : Nat := foot_wardDetail ||| (fm cnt)
theorem moves_unexpectedRsp {m : Nat} {r : State} {n : ℕ} {p : Pkt} {cnt : Fld} {s : State} (h : Moves m r s)
    (hm : Within (foot_unexpectedRsp cnt) m) : Moves m r (unexpectedRsp n p cnt s) := by
  simp only [foot_unexpectedRsp, within_or] at hm
  unfold unexpectedRsp
  try dsimp only
  repeat' (first
    | with_reducible assumption | with_reducible apply moves_wardDetail | with_reducible apply moves_inc |
    with_reducible apply moves_ite | split | intro _ | simp only [hm])

def foot_answered : Nat := foot_hubCross ||| foot_freeWTag ||| foot_bridgeDone ||| foot_bridgeData ||| foot_trace
    ||| foot_bridgeFails ||| pms [.wls] ||| fms [.HL_DROP_CNT, .TN_STALE_CNT]
theorem moves_answered {m : Nat} {r : State} {n : Nat} {t : WTag} {p : Pkt} {s : State} (h : Moves m r s)
    (hm : Within foot_answered m) : Moves m r (answered n t p s) := by
  simp only [foot_answered, fms, pms, within_or, within_zero, and_true] at hm
  unfold answered
  try dsimp only
  repeat' (first
    | with_reducible assumption | with_reducible intro _ | with_reducible apply moves_when |
    with_reducible apply moves_withSome | with_reducible apply moves_inc | with_reducible apply moves_modWl |
    with_reducible apply moves_hubCross | with_reducible apply moves_freeWTag | with_reducible apply moves_bridgeDone |
    with_reducible apply moves_bridgeData | with_reducible apply moves_trace | with_reducible apply moves_bridgeFails |
    with_reducible apply moves_ite | split | simp only [hm])

def foot_endFormer : Nat := foot_bridgeFails ||| foot_freeWTag
theorem moves_endFormer {m : Nat} {r : State} {n tag : Nat} {s : State} (h : Moves m r s)
    (hm : Within foot_endFormer m) : Moves m r (endFormer n tag s) := by
  simp only [foot_endFormer, within_or] at hm
  unfold endFormer
  try dsimp only
  repeat' (first
    | with_reducible assumption | with_reducible intro _ | with_reducible apply moves_bridgeFails |
    with_reducible apply moves_freeWTag | with_reducible apply moves_ite | split | simp only [hm])

def foot_localResponse : Nat := foot_releasePkt ||| (foot_unexpectedRsp .CT_WL_LATE_RSP) ||| (foot_unexpectedRsp
    .CT_WL_UNEXP_RSP) ||| foot_freeWTag ||| foot_bridgeFails ||| foot_endFormer ||| foot_answered
theorem moves_localResponse {m : Nat} {r : State} {n : Nat} {p : Pkt} {s : State} (h : Moves m r s)
    (hm : Within foot_localResponse m) : Moves m r (localResponse n p s) := by
  simp only [foot_localResponse, within_or] at hm
  unfold localResponse
  try dsimp only
  repeat' (first
    | with_reducible assumption | with_reducible intro _ | with_reducible apply moves_releasePkt |
    with_reducible apply moves_unexpectedRsp | with_reducible apply moves_freeWTag |
    with_reducible apply moves_bridgeFails | with_reducible apply moves_endFormer | with_reducible apply moves_answered
    | with_reducible apply moves_ite | split | simp only [hm])

def foot_execLocalResponse : Nat := foot_freezeSettle ||| foot_localPacket ||| foot_localResponse
theorem moves_execLocalResponse {m : Nat} {r : State} {wl : Wl} {p : Pkt} {s : State} (h : Moves m r s)
    (hm : Within foot_execLocalResponse m) : Goes m r (execLocalResponse wl p s) := by
  simp only [foot_execLocalResponse, within_or] at hm
  unfold execLocalResponse
  try dsimp only
  repeat' (first
    | with_reducible assumption | refine goes_next ?_ | with_reducible apply moves_freezeSettle |
    with_reducible apply moves_localPacket | with_reducible apply moves_localResponse | with_reducible apply goes_ite |
    with_reducible apply moves_ite | split | intro _ | simp only [hm])

def foot_execLrspTimeout : Nat := foot_freezeSettle ||| foot_trace ||| foot_bridgeFails ||| pms [.wls]
theorem moves_execLrspTimeout {m : Nat} {r : State} {wl : Wl} {tag : ℕ} {s : State} (h : Moves m r s)
    (hm : Within foot_execLrspTimeout m) : Goes m r (execLrspTimeout wl tag s) := by
  simp only [foot_execLrspTimeout, pms, within_or, within_zero, and_true] at hm
  unfold execLrspTimeout
  try dsimp only
  repeat' (first
    | with_reducible assumption | refine goes_next ?_ | with_reducible apply moves_freezeSettle |
    with_reducible apply moves_modWl | with_reducible apply moves_trace | with_reducible apply moves_bridgeFails |
    with_reducible apply goes_ite | with_reducible apply moves_ite | split | intro _ | simp only [hm])

end Sys2Proof.Laws
end

