-- ==== Sys2Proof/Laws/FootWindows.lean ====
section
/-!
SUPPORT. The footprint of each operation of Machine/Windows.lean: which register fields and parts of the state it may change.
-/
namespace Sys2Proof.Laws
open Sys2Proof.Machine

def foot_showUsed : Nat := fms [.TN_INT_USED, .TN_IN_USED, .TN_OUT_USED]
theorem moves_showUsed {m : Nat} {r : State} {o : Option ℕ} {s : State} (h : Moves m r s)
    (hm : Within foot_showUsed m) : Moves m r (showUsed o s) := by
  simp only [foot_showUsed, fms, within_or, within_zero, and_true] at hm
  unfold showUsed
  try dsimp only
  repeat' (first
    | with_reducible assumption | with_reducible apply moves_withSome | with_reducible apply moves_wr |
    with_reducible apply moves_ite | split | intro _ | simp only [hm])

def foot_WinReq_cmd : Nat := foot_finish
theorem moves_WinReq_cmd {m : Nat} {r : State} {w : WinReq} {r' : CmdReq} {op plen : ℕ} {a : AtCmd} {sheaf : Bool}
    {put : ℕ → State → State} (hput : ∀ y z, Moves m r z → Moves m r (put y z))
    (hm : Within foot_WinReq_cmd m) : CmdMoves m r (WinReq.cmd w r' op plen a sheaf put) := by
  simp only [foot_WinReq_cmd] at hm
  unfold WinReq.cmd
  try dsimp only
  repeat' (first
    | with_reducible assumption | with_reducible apply moves_finish | with_reducible apply cmd_mk |
    with_reducible apply hput | with_reducible apply moves_ite | split | intro _ | simp only [hm] | simp only [id_eq])

def foot_writeOut : Nat := (foot_resetBlk .outwin) ||| foot_showUsed ||| fms [.OW_OPEN, .OW_DEADLINE,
    .OW_HOST_BASE_HI, .OW_HOST_BASE_LO, .OW_SIZE_HI, .OW_SIZE_LO, .OW_LOCAL_BASE_HI, .OW_LOCAL_BASE_LO, .OW_TO_PF,
    .OW_PF_HL, .OW_TNID, .OW_IDO_OK, .OW_RO_OK, .OW_AT, .OW_WR, .OW_RD, .OW_SHEAF, .OW_CLASS, .OW_LINK, .CT_OW_LATE]
theorem moves_writeOut {m : Nat} {r : State} {w : OutWin} {i : ℕ} {s : State} (h : Moves m r s)
    (hm : Within foot_writeOut m) : Moves m r (writeOut w i s) := by
  simp only [foot_writeOut, fms, within_or, within_zero, and_true] at hm
  unfold writeOut
  try dsimp only
  repeat' (first
    | with_reducible assumption | with_reducible apply moves_when | with_reducible apply moves_resetBlk |
    with_reducible apply moves_wr | with_reducible apply moves_showUsed | with_reducible apply moves_ite | split |
    intro _ | simp only [hm])

def foot_entryChange : Nat := foot_dirChange
theorem moves_entryChange {m : Nat} {r : State} {on : State → Nat → Bool} {links : State → Nat → List Nat} {i : Nat}
    {s t : State} (h : Moves m r t)
    (hm : Within foot_entryChange m) : Moves m r (entryChange on links i s t) := by
  simp only [foot_entryChange] at hm
  unfold entryChange
  try dsimp only
  repeat' (first
    | with_reducible assumption | with_reducible intro _ | with_reducible apply moves_dirChange |
    with_reducible apply moves_ite | split | simp only [hm])

def foot_putOut : Nat := foot_entryChange ||| foot_writeOut
theorem moves_putOut {m : Nat} {r : State} {w : OutWin} {i : Nat} {s : State} (h : Moves m r s)
    (hm : Within foot_putOut m) : Moves m r (putOut w i s) := by
  simp only [foot_putOut, within_or] at hm
  unfold putOut
  try dsimp only
  repeat' (first
    | with_reducible assumption | with_reducible intro _ | with_reducible apply moves_entryChange |
    with_reducible apply moves_writeOut | with_reducible apply moves_ite | split | simp only [hm])

def foot_cmdOutwin : Nat := foot_WinReq_cmd ||| foot_putOut
theorem moves_cmdOutwin {m : Nat} {r : State} {r' : CmdReq} {index : ℕ} {w : OutWin}
    (hm : Within foot_cmdOutwin m) : CmdMoves m r (cmdOutwin r' index w) := by
  simp only [foot_cmdOutwin, within_or] at hm
  unfold cmdOutwin
  try dsimp only
  repeat' (first
    | with_reducible assumption | with_reducible apply moves_WinReq_cmd | with_reducible apply moves_putOut |
    with_reducible apply cmd_mk | with_reducible apply moves_ite | split | intro _ | simp only [hm])

def foot_execOutwinSet : Nat := foot_runCmd ||| foot_cmdOutwin
theorem moves_execOutwinSet {m : Nat} {r : State} {r' : CmdReq} {index : ℕ} {w : OutWin} {s : State} (h : Moves m r s)
    (hm : Within foot_execOutwinSet m) : Goes m r (execOutwinSet r' index w s) := by
  simp only [foot_execOutwinSet, within_or] at hm
  unfold execOutwinSet
  try dsimp only
  repeat' (first
    | with_reducible assumption | refine goes_next ?_ | with_reducible apply moves_runCmd |
    with_reducible apply moves_cmdOutwin | with_reducible apply cmd_mk | with_reducible apply goes_ite |
    with_reducible apply moves_ite | split | intro _ | simp only [hm])

def foot_writeIn : Nat := (foot_resetBlk .inwin) ||| foot_showUsed ||| fms [.IW_LOCAL_BASE_HI, .IW_LOCAL_BASE_LO,
    .IW_SIZE_HI, .IW_SIZE_LO, .IW_BAR_OFFSET_HI, .IW_BAR_OFFSET_LO, .IW_HL, .IW_LANE, .IW_WR, .IW_RD, .IW_FUNC,
    .IW_LINK]
theorem moves_writeIn {m : Nat} {r : State} {w : InWin} {i : ℕ} {s : State} (h : Moves m r s)
    (hm : Within foot_writeIn m) : Moves m r (writeIn w i s) := by
  simp only [foot_writeIn, fms, within_or, within_zero, and_true] at hm
  unfold writeIn
  try dsimp only
  repeat' (first
    | with_reducible assumption | with_reducible apply moves_resetBlk | with_reducible apply moves_wr |
    with_reducible apply moves_showUsed | with_reducible apply moves_ite | split | intro _ | simp only [hm])

def foot_putIn : Nat := foot_entryChange ||| foot_writeIn
theorem moves_putIn {m : Nat} {r : State} {w : InWin} {i : Nat} {s : State} (h : Moves m r s)
    (hm : Within foot_putIn m) : Moves m r (putIn w i s) := by
  simp only [foot_putIn, within_or] at hm
  unfold putIn
  try dsimp only
  repeat' (first
    | with_reducible assumption | with_reducible intro _ | with_reducible apply moves_entryChange |
    with_reducible apply moves_writeIn | with_reducible apply moves_ite | split | simp only [hm])

def foot_cmdInwin : Nat := foot_WinReq_cmd ||| foot_putIn
theorem moves_cmdInwin {m : Nat} {r : State} {r' : CmdReq} {index : ℕ} {w : InWin}
    (hm : Within foot_cmdInwin m) : CmdMoves m r (cmdInwin r' index w) := by
  simp only [foot_cmdInwin, within_or] at hm
  unfold cmdInwin
  try dsimp only
  repeat' (first
    | with_reducible assumption | with_reducible apply moves_WinReq_cmd | with_reducible apply moves_putIn |
    with_reducible apply cmd_mk | with_reducible apply moves_ite | split | intro _ | simp only [hm])

def foot_execInwinSet : Nat := foot_runCmd ||| foot_cmdInwin
theorem moves_execInwinSet {m : Nat} {r : State} {r' : CmdReq} {index : ℕ} {w : InWin} {s : State} (h : Moves m r s)
    (hm : Within foot_execInwinSet m) : Goes m r (execInwinSet r' index w s) := by
  simp only [foot_execInwinSet, within_or] at hm
  unfold execInwinSet
  try dsimp only
  repeat' (first
    | with_reducible assumption | refine goes_next ?_ | with_reducible apply moves_runCmd |
    with_reducible apply moves_cmdInwin | with_reducible apply cmd_mk | with_reducible apply goes_ite |
    with_reducible apply moves_ite | split | intro _ | simp only [hm])

def foot_writeInt : Nat := (foot_resetBlk .intwin) ||| foot_showUsed ||| fms [.NW_VEC_BASE, .NW_COUNT, .NW_MSG_BASE,
    .NW_PF_HL, .NW_TNID, .NW_TO_PF, .NW_LINK]
theorem moves_writeInt {m : Nat} {r : State} {w : IntWin} {i : ℕ} {s : State} (h : Moves m r s)
    (hm : Within foot_writeInt m) : Moves m r (writeInt w i s) := by
  simp only [foot_writeInt, fms, within_or, within_zero, and_true] at hm
  unfold writeInt
  try dsimp only
  repeat' (first
    | with_reducible assumption | with_reducible apply moves_resetBlk | with_reducible apply moves_wr |
    with_reducible apply moves_showUsed | with_reducible apply moves_ite | split | intro _ | simp only [hm])

def foot_putInt : Nat := foot_entryChange ||| foot_writeInt
theorem moves_putInt {m : Nat} {r : State} {w : IntWin} {i : Nat} {s : State} (h : Moves m r s)
    (hm : Within foot_putInt m) : Moves m r (putInt w i s) := by
  simp only [foot_putInt, within_or] at hm
  unfold putInt
  try dsimp only
  repeat' (first
    | with_reducible assumption | with_reducible intro _ | with_reducible apply moves_entryChange |
    with_reducible apply moves_writeInt | with_reducible apply moves_ite | split | simp only [hm])

def foot_cmdIntwin : Nat := foot_WinReq_cmd ||| foot_putInt
theorem moves_cmdIntwin {m : Nat} {r : State} {r' : CmdReq} {index : ℕ} {w : IntWin}
    (hm : Within foot_cmdIntwin m) : CmdMoves m r (cmdIntwin r' index w) := by
  simp only [foot_cmdIntwin, within_or] at hm
  unfold cmdIntwin
  try dsimp only
  repeat' (first
    | with_reducible assumption | with_reducible apply moves_WinReq_cmd | with_reducible apply moves_putInt |
    with_reducible apply cmd_mk | with_reducible apply moves_ite | split | intro _ | simp only [hm])

def foot_execIntwinSet : Nat := foot_runCmd ||| foot_cmdIntwin
theorem moves_execIntwinSet {m : Nat} {r : State} {r' : CmdReq} {index : ℕ} {w : IntWin} {s : State} (h : Moves m r s)
    (hm : Within foot_execIntwinSet m) : Goes m r (execIntwinSet r' index w s) := by
  simp only [foot_execIntwinSet, within_or] at hm
  unfold execIntwinSet
  try dsimp only
  repeat' (first
    | with_reducible assumption | refine goes_next ?_ | with_reducible apply moves_runCmd |
    with_reducible apply moves_cmdIntwin | with_reducible apply cmd_mk | with_reducible apply goes_ite |
    with_reducible apply moves_ite | split | intro _ | simp only [hm])

def foot_dropDest : Nat := foot_queueGap ||| fms [.CT_SD_LAG]
theorem moves_dropDest {m : Nat} {r : State} {i d : Nat} {s : State} (h : Moves m r s)
    (hm : Within foot_dropDest m) : Moves m r (dropDest i d s) := by
  simp only [foot_dropDest, fms, within_or, within_zero, and_true] at hm
  unfold dropDest
  try dsimp only
  repeat' (first
    | with_reducible assumption | with_reducible intro _ | with_reducible apply moves_inc |
    with_reducible apply moves_queueGap | with_reducible apply moves_ite | split | simp only [hm])

def foot_zeroDest : Nat := fms [.CT_SD_DELIVERED, .CT_SD_LAG, .CT_SD_LATE, .CT_SD_EPISODES]
theorem moves_zeroDest {m : Nat} {r : State} {i d : Nat} {s : State} (h : Moves m r s)
    (hm : Within foot_zeroDest m) : Moves m r (zeroDest i d s) := by
  simp only [foot_zeroDest, fms, within_or, within_zero, and_true] at hm
  unfold zeroDest
  try dsimp only
  repeat' (first
    | with_reducible assumption | with_reducible intro _ | with_reducible apply moves_wr |
    with_reducible apply moves_ite | split | simp only [hm])

def foot_clearDest : Nat := pms [.dests] ||| fms [.SH_SD_LAG, .SH_TNID, .SH_TO_PF, .SH_PF_HL, .SH_LAG_BUDGET,
    .SH_HOST_BASE_LO, .SH_HOST_BASE_HI, .SH_GAP_EN, .SH_GAP_SIZE, .SH_GAP_BASE_LO, .SH_GAP_BASE_HI, .SH_LAGGING,
    .SH_EXCUSED]
theorem moves_clearDest {m : Nat} {r : State} {i d : Nat} {s : State} (h : Moves m r s)
    (hm : Within foot_clearDest m) : Moves m r (clearDest i d s) := by
  simp only [foot_clearDest, fms, pms, within_or, within_zero, and_true] at hm
  unfold clearDest
  try dsimp only
  repeat' (first
    | with_reducible assumption | with_reducible intro _ | with_reducible apply moves_wr |
    with_reducible apply moves_clrB | with_reducible apply moves_modDest | with_reducible apply moves_ite | split |
    simp only [hm])

def foot_putDest : Nat := fms [.SH_GAP_BASE_HI, .SH_GAP_BASE_LO, .SH_GAP_SIZE, .SH_GAP_EN, .SH_HOST_BASE_HI,
    .SH_HOST_BASE_LO, .SH_LAG_BUDGET, .SH_PF_HL, .SH_TO_PF, .SH_TNID]
theorem moves_putDest {m : Nat} {r : State} {i d : ℕ} {a2 : SheafDest} {s : State} (h : Moves m r s)
    (hm : Within foot_putDest m) : Moves m r (putDest i d a2 s) := by
  simp only [foot_putDest, fms, within_or, within_zero, and_true] at hm
  unfold putDest
  try dsimp only
  repeat' (first
    | with_reducible assumption | with_reducible apply moves_wr | with_reducible apply moves_ite | split | intro _ |
    simp only [hm])

def foot_endEpisode : Nat := pms [.dests] ||| fms [.SH_SD_LAG, .SH_LAGGING]
theorem moves_endEpisode {m : Nat} {r : State} {i d : ℕ} {s : State} (h : Moves m r s)
    (hm : Within foot_endEpisode m) : Moves m r (endEpisode i d s) := by
  simp only [foot_endEpisode, fms, pms, within_or, within_zero, and_true] at hm
  unfold endEpisode
  try dsimp only
  repeat' (first
    | with_reducible assumption | with_reducible apply moves_when | with_reducible apply moves_modDest |
    with_reducible apply moves_wr | with_reducible apply moves_clrB | with_reducible apply moves_ite | split | intro _
    | simp only [hm])

def foot_movePackets : Nat := pms [.hostQ, .sheafPkts]
theorem moves_movePackets {m : Nat} {r : State} {i : ℕ} {at_ : List ℕ} {t : State} (h : Moves m r t)
    (hm : Within foot_movePackets m) : Moves m r (movePackets i at_ t) := by
  simp only [foot_movePackets, pms, within_or, within_zero, and_true] at hm
  unfold movePackets
  try dsimp only
  repeat' (first
    | with_reducible assumption | with_reducible apply moves_ite | split | with_reducible apply moves_part_hostQ |
    with_reducible apply moves_part_sheafPkts | intro _ | with_reducible apply moves_parts |
    with_reducible exact Or.inl rfl | (refine Or.inr ?_; simp only [hm]) | simp only [hm])

def foot_movePlaces : Nat := foot_movePackets ||| pms [.dests] ||| fms [.SH_LAGGING, .SH_EXCUSED] ||| fms destFlds
theorem moves_movePlaces {m : Nat} {r : State} {i : Nat} {at_ : List Nat} {s : State} (h : Moves m r s)
    (hm : Within foot_movePlaces m) : Moves m r (movePlaces i at_ s) := by
  have hd : Within (fms destFlds) m := by
    simp only [foot_movePlaces, within_or] at hm
    exact hm.2
  simp only [foot_movePlaces, pms, fms, within_or, within_zero, and_true] at hm
  unfold movePlaces
  dsimp only
  refine moves_movePackets (moves_each (moves_wr (moves_wr ?_ (by simp only [hm])) (by simp only [hm]))
    (fun _ _ hz => moves_modDest hz (by simp only [hm]))) (by simp only [hm])
  exact moves_each_mem h (fun f hf z hz => moves_each hz (fun j y hy => moves_wr hy (within_fms hf hd)))

def foot_writeSheaf : Nat := foot_dropDest ||| foot_movePlaces ||| foot_clearDest ||| foot_zeroDest ||| foot_putDest
    ||| foot_showExcused ||| foot_showSheaf ||| foot_endEpisode ||| fms [.SH_MODE, .SH_DEST_COUNT, .SH_WINDOW]
theorem moves_writeSheaf {m : Nat} {r : State} {i : Nat} {img : SheafImg} {s : State} (h : Moves m r s)
    (hm : Within foot_writeSheaf m) : Moves m r (writeSheaf i img s) := by
  simp only [foot_writeSheaf, fms, within_or, within_zero, and_true] at hm
  unfold writeSheaf
  try dsimp only
  repeat' (first
    | with_reducible assumption | with_reducible intro _ | with_reducible apply moves_when |
    with_reducible apply moves_each | with_reducible apply moves_wr | with_reducible apply moves_dropDest |
    with_reducible apply moves_movePlaces | with_reducible apply moves_clearDest | with_reducible apply moves_zeroDest |
    with_reducible apply moves_putDest | with_reducible apply moves_showExcused | with_reducible apply moves_showSheaf |
    with_reducible apply moves_endEpisode | with_reducible apply moves_ite | split | simp only [hm])

def foot_putSheaf : Nat := foot_writeSheaf ||| foot_dirChange
theorem moves_putSheaf {m : Nat} {r : State} {i : ℕ} {img : SheafImg} {s : State} (h : Moves m r s)
    (hm : Within foot_putSheaf m) : Moves m r (putSheaf i img s) := by
  simp only [foot_putSheaf, within_or] at hm
  unfold putSheaf
  try dsimp only
  repeat' (first
    | with_reducible assumption | with_reducible apply moves_writeSheaf | with_reducible apply moves_dirChange |
    with_reducible apply moves_ite | split | intro _ | simp only [hm])

def foot_cmdSheaf : Nat := foot_finish ||| foot_putSheaf
theorem moves_cmdSheaf {m : Nat} {r : State} {r' : CmdReq} {index : ℕ} {img : SheafImg}
    (hm : Within foot_cmdSheaf m) : CmdMoves m r (cmdSheaf r' index img) := by
  simp only [foot_cmdSheaf, within_or] at hm
  unfold cmdSheaf
  try dsimp only
  repeat' (first
    | with_reducible assumption | with_reducible apply moves_finish | with_reducible apply moves_putSheaf |
    with_reducible apply cmd_mk | with_reducible apply moves_ite | split | intro _ | simp only [hm] |
    simp only [id_eq])

def foot_execSheafSet : Nat := foot_runCmd ||| foot_cmdSheaf
theorem moves_execSheafSet {m : Nat} {r : State} {r' : CmdReq} {index : ℕ} {img : SheafImg} {s : State} (h : Moves m r
    s)
    (hm : Within foot_execSheafSet m) : Goes m r (execSheafSet r' index img s) := by
  simp only [foot_execSheafSet, within_or] at hm
  unfold execSheafSet
  try dsimp only
  repeat' (first
    | with_reducible assumption | refine goes_next ?_ | with_reducible apply moves_runCmd |
    with_reducible apply moves_cmdSheaf | with_reducible apply cmd_mk | with_reducible apply goes_ite |
    with_reducible apply moves_ite | split | intro _ | simp only [hm])

end Sys2Proof.Laws
end

