-- ==== Sys2Proof/Laws/FootTenants.lean ====
section
/-!
SUPPORT. The footprint of each operation of Machine/Tenants.lean: which register fields and parts of the state it may change.
-/
namespace Sys2Proof.Laws
open Sys2Proof.Machine

def foot_showPools : Nat := fms [.HUB_UNITS_PENDING, .HUB_UNITS_FREE, .HUB_VEC_PENDING, .HUB_VEC_FREE,
    .HUB_CH_PENDING, .HUB_CH_FREE, .HUB_TN_PENDING, .HUB_TN_CREATED, .TI_UNITS_ALLOTTED, .HUB_UNITS_FREE_T,
    .HUB_CH_FREE_T]
theorem moves_showPools {m : Nat} {r : State} {s : State} (h : Moves m r s)
    (hm : Within foot_showPools m) : Moves m r (showPools s) := by
  simp only [foot_showPools, fms, within_or, within_zero, and_true] at hm
  unfold showPools
  try dsimp only
  repeat' (first
    | with_reducible assumption | with_reducible apply moves_each | with_reducible apply moves_wr |
    with_reducible apply moves_ite | split | intro _ | simp only [hm])

def foot_allotChan : Nat := (foot_resetBlk .channel) ||| pms [.chans] ||| fms [.CH_ALLOTTED, .CH_TNID, .CH_LOCAL]
theorem moves_allotChan {m : Nat} {r : State} {n c lcl : ℕ} {s : State} (h : Moves m r s)
    (hm : Within foot_allotChan m) : Moves m r (allotChan n c lcl s) := by
  simp only [foot_allotChan, fms, pms, within_or, within_zero, and_true] at hm
  unfold allotChan
  try dsimp only
  repeat' (first
    | with_reducible assumption | with_reducible apply moves_wr | with_reducible apply moves_modCh |
    with_reducible apply moves_resetBlk | with_reducible apply moves_ite | split | intro _ | simp only [hm])

def foot_takeChan : Nat := foot_dropChanWaiting ||| (foot_resetBlk .channel) ||| pms [.chans]
theorem moves_takeChan {m : Nat} {r : State} {c : ℕ} {s : State} (h : Moves m r s)
    (hm : Within foot_takeChan m) : Moves m r (takeChan c s) := by
  simp only [foot_takeChan, pms, within_or, within_zero, and_true] at hm
  unfold takeChan
  try dsimp only
  repeat' (first
    | with_reducible assumption | with_reducible apply moves_modCh | with_reducible apply moves_dropChanWaiting |
    with_reducible apply moves_resetBlk | with_reducible apply moves_ite | split | intro _ | simp only [hm])

def foot_growIn : Nat := foot_allotChan ||| pms [.tens]
theorem moves_growIn {m : Nat} {r : State} {n t want : ℕ} {s : State} (h : Moves m r s)
    (hm : Within foot_growIn m) : Moves m r (growIn n t want s) := by
  simp only [foot_growIn, pms, within_or, within_zero, and_true] at hm
  unfold growIn
  try dsimp only
  repeat' (first
    | with_reducible assumption | with_reducible apply moves_each | with_reducible apply moves_allotChan |
    with_reducible apply moves_modTen | with_reducible apply moves_ite | split | intro _ | simp only [hm])

def foot_growChans : Nat := foot_growIn ||| fms [.TN_CH_COUNT]
theorem moves_growChans {m : Nat} {r : State} {n : ℕ} {want : List ℕ} {s : State} (h : Moves m r s)
    (hm : Within foot_growChans m) : Moves m r (growChans n want s) := by
  simp only [foot_growChans, fms, within_or, within_zero, and_true] at hm
  unfold growChans
  try dsimp only
  repeat' (first
    | with_reducible assumption | with_reducible apply moves_each | with_reducible apply moves_growIn |
    with_reducible apply moves_wr | with_reducible apply moves_ite | split | intro _ | simp only [hm])

def foot_putTenant : Nat := fms [.TN_ELIGIBLE, .TN_PERMIT2, .TN_PERMIT1, .TN_PERMIT0, .TN_INT_ALLOT, .TN_IN_ALLOT,
    .TN_OUT_ALLOT, .TN_CB_UNITS, .TN_ALLOWANCE, .FI_VEC_COUNT, .TN_VECTORS, .TN_WEIGHT]
theorem moves_putTenant {m : Nat} {r : State} {n sel : ℕ} {p : TenantParams} {s : State} (h : Moves m r s)
    (hm : Within foot_putTenant m) : Moves m r (putTenant n sel p s) := by
  simp only [foot_putTenant, fms, within_or, within_zero, and_true] at hm
  unfold putTenant
  try dsimp only
  repeat' (first
    | with_reducible assumption | with_reducible apply moves_when | with_reducible apply moves_wr |
    with_reducible apply moves_ite | split | intro _ | simp only [hm])

def foot_createTn : Nat := foot_resetBlk .tenant ||| foot_growChans ||| foot_putTenant ||| foot_dirChanged |||
    foot_showPools |||
    foot_traceTnState ||| pms [.tens] ||| fms tnCounters |||
    fms [.TN_TNID, .TN_STATE,
    .TN_VF, .TN_HL, .TN_RATE, .TN_DEPTH, .DVSEC_TNID, .DVSEC_GENERATION]
theorem moves_createTn {m : Nat} {r : State} {n : Nat} {p : TenantParams} {s : State} (h : Moves m r s)
    (hm : Within foot_createTn m) : Moves m r (createTn n p s) := by
  have hc : Within (fms tnCounters) m := by
    simp only [foot_createTn, within_or] at hm
    exact hm.1.2
  simp only [foot_createTn, pms, fms, within_or, within_zero, and_true] at hm
  unfold createTn
  dsimp only
  have h1 : ∀ z, Moves m r z → Moves m r (each tnCounters (fun f s => s.wr f 0 n) z) :=
    fun z hz => moves_each_mem hz (fun f hf y hy => moves_wr hy (within_fms hf hc))
  repeat' (first
    | with_reducible assumption | with_reducible apply moves_dirChanged | with_reducible apply moves_showPools
    | with_reducible apply moves_traceTnState | with_reducible apply moves_growChans
    | with_reducible apply moves_putTenant | with_reducible apply h1 | with_reducible apply moves_wr
    | with_reducible apply moves_modTen | with_reducible apply moves_resetBlk | intro _ | simp only [hm])

def foot_execTenantCreate : Nat := foot_runCmd ||| foot_createTn ||| foot_finish
theorem moves_execTenantCreate {m : Nat} {r : State} {r' : CmdReq} {p : TenantParams} {s : State} (h : Moves m r s)
    (hm : Within foot_execTenantCreate m) : Goes m r (execTenantCreate r' p s) := by
  simp only [foot_execTenantCreate, within_or] at hm
  unfold execTenantCreate
  try dsimp only
  repeat' (first
    | with_reducible assumption | refine goes_next ?_ | with_reducible apply moves_runCmd |
    with_reducible apply moves_createTn | with_reducible apply moves_finish | with_reducible apply cmd_mk |
    with_reducible apply goes_ite | with_reducible apply moves_ite | split | intro _ | simp only [hm] |
    simp only [id_eq])

def foot_modifyTn : Nat := foot_putTenant ||| foot_takeChan ||| foot_growChans ||| foot_dirChanged ||| foot_showPools
    ||| pms [.tens]
theorem moves_modifyTn {m : Nat} {r : State} {n : ℕ} {p : TenantParams} {s : State} (h : Moves m r s)
    (hm : Within foot_modifyTn m) : Moves m r (modifyTn n p s) := by
  simp only [foot_modifyTn, pms, within_or, within_zero, and_true] at hm
  unfold modifyTn
  try dsimp only
  repeat' (first
    | with_reducible assumption | with_reducible apply moves_when | with_reducible apply moves_each |
    with_reducible apply moves_putTenant | with_reducible apply moves_modTen | with_reducible apply moves_takeChan |
    with_reducible apply moves_growChans | with_reducible apply moves_dirChanged |
    with_reducible apply moves_showPools | with_reducible apply moves_ite | split | intro _ | simp only [hm])

def foot_cmdTenantModify : Nat := foot_finish ||| foot_modifyTn
theorem moves_cmdTenantModify {m : Nat} {r : State} {r' : CmdReq} {p : TenantParams}
    (hm : Within foot_cmdTenantModify m) : CmdMoves m r (cmdTenantModify r' p) := by
  simp only [foot_cmdTenantModify, within_or] at hm
  unfold cmdTenantModify
  try dsimp only
  repeat' (first
    | with_reducible assumption | with_reducible apply moves_finish | with_reducible apply moves_modifyTn |
    with_reducible apply cmd_mk | with_reducible apply moves_ite | split | intro _ | simp only [hm] |
    simp only [id_eq])

def foot_execTenantModify : Nat := foot_runCmd ||| foot_cmdTenantModify
theorem moves_execTenantModify {m : Nat} {r : State} {r' : CmdReq} {p : TenantParams} {s : State} (h : Moves m r s)
    (hm : Within foot_execTenantModify m) : Goes m r (execTenantModify r' p s) := by
  simp only [foot_execTenantModify, within_or] at hm
  unfold execTenantModify
  try dsimp only
  repeat' (first
    | with_reducible assumption | refine goes_next ?_ | with_reducible apply moves_runCmd |
    with_reducible apply moves_cmdTenantModify | with_reducible apply cmd_mk | with_reducible apply goes_ite |
    with_reducible apply moves_ite | split | intro _ | simp only [hm])

def foot_resetTn : Nat := foot_cutTenant ||| foot_traceTnState ||| foot_dirChanged ||| fms [.TN_STATE]
theorem moves_resetTn {m : Nat} {r : State} {n : Nat} {s : State} (h : Moves m r s)
    (hm : Within foot_resetTn m) : Moves m r (resetTn n s) := by
  simp only [foot_resetTn, fms, within_or, within_zero, and_true] at hm
  unfold resetTn
  try dsimp only
  repeat' (first
    | with_reducible assumption | with_reducible intro _ | with_reducible apply moves_wr |
    with_reducible apply moves_cutTenant | with_reducible apply moves_traceTnState |
    with_reducible apply moves_dirChanged | with_reducible apply moves_ite | split | simp only [hm])

def foot_releaseHeld : Nat := foot_releaseVec ||| foot_raiseVec ||| pms [.vecs]
theorem moves_releaseHeld {m : Nat} {r : State} {f : Nat} {s : State} (h : Moves m r s)
    (hm : Within foot_releaseHeld m) : Moves m r (releaseHeld f s) := by
  simp only [foot_releaseHeld, pms, within_or, within_zero, and_true] at hm
  unfold releaseHeld
  try dsimp only
  repeat' (first
    | with_reducible assumption | with_reducible intro _ | with_reducible apply moves_when |
    with_reducible apply moves_each | with_reducible apply moves_modVec | with_reducible apply moves_releaseVec |
    with_reducible apply moves_raiseVec | with_reducible apply moves_ite | split | simp only [hm])

def foot_execTenantResetComplete : Nat := foot_releaseHeld ||| foot_traceTnState ||| foot_dirChanged |||
    foot_finishWaiting ||| fms [.TN_STATE]
theorem moves_execTenantResetComplete {m : Nat} {r : State} {tn : Tnid} {s : State} (h : Moves m r s)
    (hm : Within foot_execTenantResetComplete m) : Goes m r (execTenantResetComplete tn s) := by
  simp only [foot_execTenantResetComplete, fms, within_or, within_zero, and_true] at hm
  unfold execTenantResetComplete
  try dsimp only
  repeat' (first
    | with_reducible assumption | refine goes_next ?_ | with_reducible apply moves_when |
    with_reducible apply moves_releaseHeld | with_reducible apply moves_traceTnState | with_reducible apply moves_wr |
    with_reducible apply moves_dirChanged | with_reducible apply moves_finishWaiting | with_reducible apply goes_ite |
    with_reducible apply moves_ite | split | intro _ | simp only [hm])

def foot_execTenantReset : Nat := foot_runCmd ||| foot_resetTn ||| foot_waitOn ||| foot_finish
theorem moves_execTenantReset {m : Nat} {r : State} {r' : CmdReq} {s : State} (h : Moves m r s)
    (hm : Within foot_execTenantReset m) : Goes m r (execTenantReset r' s) := by
  simp only [foot_execTenantReset, within_or] at hm
  unfold execTenantReset
  try dsimp only
  repeat' (first
    | with_reducible assumption | refine goes_next ?_ | with_reducible apply moves_runCmd |
    with_reducible apply moves_resetTn | with_reducible apply moves_waitOn | with_reducible apply moves_finish |
    with_reducible apply cmd_mk | with_reducible apply goes_ite | with_reducible apply moves_ite | split | intro _ |
    simp only [hm] | simp only [id_eq])

def foot_freeTn : Nat := foot_traceTnState ||| foot_dirChanged ||| foot_showPools ||| (foot_resetBlk .tenant) ||| pms
    [.tens]
theorem moves_freeTn {m : Nat} {r : State} {n : ℕ} {s : State} (h : Moves m r s)
    (hm : Within foot_freeTn m) : Moves m r (freeTn n s) := by
  simp only [foot_freeTn, pms, within_or, within_zero, and_true] at hm
  unfold freeTn
  try dsimp only
  repeat' (first
    | with_reducible assumption | with_reducible apply moves_traceTnState | with_reducible apply moves_dirChanged |
    with_reducible apply moves_showPools | with_reducible apply moves_modTen | with_reducible apply moves_resetBlk |
    with_reducible apply moves_ite | split | intro _ | simp only [hm])

def foot_execTenantPendingDrained : Nat := foot_freeTn
theorem moves_execTenantPendingDrained {m : Nat} {r : State} {tn : Tnid} {s : State} (h : Moves m r s)
    (hm : Within foot_execTenantPendingDrained m) : Goes m r (execTenantPendingDrained tn s) := by
  simp only [foot_execTenantPendingDrained] at hm
  unfold execTenantPendingDrained
  try dsimp only
  repeat' (first
    | with_reducible assumption | refine goes_next ?_ | with_reducible apply moves_when |
    with_reducible apply moves_freeTn | with_reducible apply goes_ite | with_reducible apply moves_ite | split |
    intro _)

def foot_cancelTarget : Nat := foot_cancelSched
theorem moves_cancelTarget {m : Nat} {r : State} {n : Nat} {s : State} (h : Moves m r s)
    (hm : Within foot_cancelTarget m) : Moves m r (cancelTarget n s) := by
  simp only [foot_cancelTarget] at hm
  unfold cancelTarget
  try dsimp only
  repeat' (first
    | with_reducible assumption | with_reducible intro _ | with_reducible apply moves_each |
    with_reducible apply moves_cancelSched | with_reducible apply moves_ite | split | simp only [hm])

def foot_dropLog : Nat := pms [.dirty, .hostQ, .logs] ||| fms [.TN_LOG_ON]
theorem moves_dropLog {m : Nat} {r : State} {n : ℕ} {s : State} (h : Moves m r s)
    (hm : Within foot_dropLog m) : Moves m r (dropLog n s) := by
  simp only [foot_dropLog, fms, pms, within_or, within_zero, and_true] at hm
  unfold dropLog
  try dsimp only
  repeat' (first
    | with_reducible assumption | with_reducible apply moves_filterHostQ | with_reducible apply moves_wr |
    with_reducible apply moves_setLog | with_reducible apply moves_ite | split | with_reducible apply moves_part_dirty
    | intro _ | simp only [hm])

def foot_destroyTn : Nat := foot_cutTenant ||| foot_traceTnState ||| foot_finishWaiting ||| foot_cancelTarget |||
    foot_dropLog ||| foot_writeOut ||| foot_writeIn ||| foot_writeInt ||| foot_writeSheaf ||| foot_takeChan |||
    foot_dirChange ||| foot_showPools ||| foot_freeTn ||| pms [.tens] ||| fms [.TN_STATE, .DVSEC_TNID,
    .DVSEC_GENERATION, .FI_VEC_COUNT, .TN_PENDING_RES, .TN_FREEZE_SET]
theorem moves_destroyTn {m : Nat} {r : State} {n : Nat} {s : State} (h : Moves m r s)
    (hm : Within foot_destroyTn m) : Moves m r (destroyTn n s) := by
  simp only [foot_destroyTn, fms, pms, within_or, within_zero, and_true] at hm
  unfold destroyTn
  try dsimp only
  repeat' (first
    | with_reducible assumption | with_reducible intro _ | with_reducible apply moves_each |
    with_reducible apply moves_wr | with_reducible apply moves_modTen | with_reducible apply moves_cutTenant |
    with_reducible apply moves_traceTnState | with_reducible apply moves_finishWaiting |
    with_reducible apply moves_cancelTarget | with_reducible apply moves_dropLog | with_reducible apply moves_writeOut |
    with_reducible apply moves_writeIn | with_reducible apply moves_writeInt | with_reducible apply moves_writeSheaf |
    with_reducible apply moves_takeChan | with_reducible apply moves_dirChange | with_reducible apply moves_showPools |
    with_reducible apply moves_freeTn | with_reducible apply moves_ite | split | simp only [hm])

def foot_execTenantDestroy : Nat := foot_runCmd ||| foot_destroyTn ||| foot_finish
theorem moves_execTenantDestroy {m : Nat} {r : State} {r' : CmdReq} {s : State} (h : Moves m r s)
    (hm : Within foot_execTenantDestroy m) : Goes m r (execTenantDestroy r' s) := by
  simp only [foot_execTenantDestroy, within_or] at hm
  unfold execTenantDestroy
  try dsimp only
  repeat' (first
    | with_reducible assumption | with_reducible intro _ | refine goes_next ?_ | with_reducible apply moves_runCmd |
    with_reducible apply moves_destroyTn | with_reducible apply moves_finish | with_reducible apply cmd_mk |
    with_reducible apply goes_ite | with_reducible apply moves_ite | split | simp only [hm] | simp only [id_eq])

def foot_breakTn : Nat := foot_cutTenant ||| foot_showExcused ||| foot_traceTnState ||| foot_finishWaiting |||
    foot_dropLog ||| foot_dirChanged ||| foot_raiseCause ||| pms [.tens] ||| fms [.TN_STATE]
theorem moves_breakTn {m : Nat} {r : State} {n : ℕ} {s : State} (h : Moves m r s)
    (hm : Within foot_breakTn m) : Moves m r (breakTn n s) := by
  simp only [foot_breakTn, fms, pms, within_or, within_zero, and_true] at hm
  unfold breakTn
  try dsimp only
  repeat' (first
    | with_reducible assumption | with_reducible apply moves_each | with_reducible apply moves_cutTenant |
    with_reducible apply moves_showExcused | with_reducible apply moves_traceTnState | with_reducible apply moves_wr |
    with_reducible apply moves_finishWaiting | with_reducible apply moves_modTen | with_reducible apply moves_dropLog
    | with_reducible apply moves_dirChanged | with_reducible apply moves_raiseCause | with_reducible apply moves_ite |
    split | intro _ | simp only [hm])

def foot_execTenantQuery : Nat := foot_runCmd ||| foot_finish
theorem moves_execTenantQuery {m : Nat} {r : State} {r' : CmdReq} {s : State} (h : Moves m r s)
    (hm : Within foot_execTenantQuery m) : Goes m r (execTenantQuery r' s) := by
  simp only [foot_execTenantQuery, within_or] at hm
  unfold execTenantQuery
  try dsimp only
  repeat' (first
    | with_reducible assumption | refine goes_next ?_ | with_reducible apply moves_runCmd |
    with_reducible apply moves_finish | with_reducible apply cmd_mk | with_reducible apply goes_ite |
    with_reducible apply moves_ite | split | intro _ | simp only [hm] | simp only [id_eq])

def foot_execVfAllot : Nat := foot_runCmd ||| foot_finish ||| foot_dirChanged ||| pms [.store]
theorem moves_execVfAllot {m : Nat} {r : State} {r' : CmdReq} {hl bar2Log2 totalVfs initialVfs : ℕ} {s : State} (h :
    Moves m r s)
    (hm : Within foot_execVfAllot m) : Goes m r (execVfAllot r' hl bar2Log2 totalVfs initialVfs s) := by
  simp only [foot_execVfAllot, pms, within_or, within_zero, and_true] at hm
  unfold execVfAllot
  try dsimp only
  repeat' (first
    | with_reducible assumption | refine goes_next ?_ | with_reducible apply moves_runCmd |
    with_reducible apply moves_modStore | with_reducible apply moves_finish | with_reducible apply moves_dirChanged |
    with_reducible apply cmd_mk | with_reducible apply goes_ite | with_reducible apply moves_ite | split | intro _ |
    simp only [hm] | simp only [id_eq])

def foot_execRunaheadSet : Nat := foot_runCmd ||| foot_finish ||| pms [.tens]
theorem moves_execRunaheadSet {m : Nat} {r : State} {r' : CmdReq} {region base size : ℕ} {s : State} (h : Moves m r s)
    (hm : Within foot_execRunaheadSet m) : Goes m r (execRunaheadSet r' region base size s) := by
  simp only [foot_execRunaheadSet, pms, within_or, within_zero, and_true] at hm
  unfold execRunaheadSet
  try dsimp only
  repeat' (first
    | with_reducible assumption | refine goes_next ?_ | with_reducible apply moves_runCmd |
    with_reducible apply moves_finish | with_reducible apply moves_modTen | with_reducible apply cmd_mk |
    with_reducible apply goes_ite | with_reducible apply moves_ite | split | intro _ | simp only [hm] |
    simp only [id_eq])

end Sys2Proof.Laws
end

