-- ==== Sys2Proof/Laws/FootMigration.lean ====
section
/-!
SUPPORT. The footprint of each operation of Machine/Migration.lean: which register fields and parts of the state it may change.
-/
namespace Sys2Proof.Laws
open Sys2Proof.Machine

def foot_logOn : Nat := pms [.logs] ||| fms [.TN_LOG_ON]
theorem moves_logOn {m : Nat} {r : State} {n : Nat} {p : LogParams} {s : State} (h : Moves m r s)
    (hm : Within foot_logOn m) : Moves m r (logOn n p s) := by
  simp only [foot_logOn, fms, pms, within_or, within_zero, and_true] at hm
  unfold logOn
  try dsimp only
  repeat' (first
    | with_reducible assumption | with_reducible intro _ | with_reducible apply moves_wr |
    with_reducible apply moves_setLog | with_reducible apply moves_ite | split | simp only [hm])

def foot_dropLines : Nat := foot_dropLine
theorem moves_dropLines {m : Nat} {r : State} {n : ℕ} {p : DirtyLine → Bool} {s : State} (h : Moves m r s)
    (hm : Within foot_dropLines m) : Moves m r (dropLines n p s) := by
  simp only [foot_dropLines] at hm
  unfold dropLines
  try dsimp only
  repeat' (first
    | with_reducible assumption | with_reducible apply moves_each | with_reducible apply moves_dropLine |
    with_reducible apply moves_ite | split | intro _)

def foot_logOff : Nat := foot_logSettle ||| foot_dropLines ||| pms [.logs]
theorem moves_logOff {m : Nat} {r : State} {n : ℕ} {s : State} (h : Moves m r s)
    (hm : Within foot_logOff m) : Moves m r (logOff n s) := by
  simp only [foot_logOff, pms, within_or, within_zero, and_true] at hm
  unfold logOff
  try dsimp only
  repeat' (first
    | with_reducible assumption | with_reducible apply moves_logSettle | with_reducible apply moves_dropLines |
    with_reducible apply moves_modLog | with_reducible apply moves_ite | split | intro _ | simp only [hm])

def foot_execLogConfig : Nat := foot_runCmd ||| foot_finish ||| foot_logOn ||| foot_logOff ||| foot_waitOn
theorem moves_execLogConfig {m : Nat} {r : State} {r' : CmdReq} {p : LogParams} {s : State} (h : Moves m r s)
    (hm : Within foot_execLogConfig m) : Goes m r (execLogConfig r' p s) := by
  simp only [foot_execLogConfig, within_or] at hm
  unfold execLogConfig
  try dsimp only
  repeat' (first
    | with_reducible assumption | refine goes_next ?_ | with_reducible apply moves_runCmd |
    with_reducible apply moves_finish | with_reducible apply moves_logOn | with_reducible apply moves_logOff |
    with_reducible apply moves_waitOn | with_reducible apply cmd_mk | with_reducible apply goes_ite |
    with_reducible apply moves_ite | split | intro _ | simp only [hm] | simp only [id_eq])

def foot_startHarvest : Nat := foot_tnFlush ||| foot_waitOn ||| foot_logSettle ||| foot_dropLines ||| pms [.logs]
theorem moves_startHarvest {m : Nat} {r : State} {r' : CmdReq} {n : Nat} {s : State} (h : Moves m r s)
    (hm : Within foot_startHarvest m) : Moves m r (startHarvest r' n s) := by
  simp only [foot_startHarvest, pms, within_or, within_zero, and_true] at hm
  unfold startHarvest
  try dsimp only
  repeat' (first
    | with_reducible assumption | with_reducible intro _ | with_reducible apply moves_setLog |
    with_reducible apply moves_tnFlush | with_reducible apply moves_waitOn | with_reducible apply moves_logSettle |
    with_reducible apply moves_dropLines | with_reducible apply moves_ite | split | simp only [hm])

def foot_cmdLogHarvest : Nat := 0
theorem moves_cmdLogHarvest {m : Nat} {r : State} {r' : CmdReq} {go : State → State} (hgo : ∀ z, Moves m r z → Moves m
    r (go z))
    (_ : Within foot_cmdLogHarvest m) : CmdMoves m r (cmdLogHarvest r' go) := by
  unfold cmdLogHarvest
  try dsimp only
  repeat' (first
    | with_reducible assumption | with_reducible apply cmd_mk | with_reducible apply hgo |
    with_reducible apply moves_ite | split | intro _ | simp only [hm] | simp only [id_eq])

def foot_execLogHarvest : Nat := foot_runCmd ||| foot_cmdLogHarvest ||| foot_nextBoundary
theorem moves_execLogHarvest {m : Nat} {r : State} {r' : CmdReq} {s : State} (h : Moves m r s)
    (hm : Within foot_execLogHarvest m) : Goes m r (execLogHarvest r' s) := by
  simp only [foot_execLogHarvest, within_or] at hm
  unfold execLogHarvest
  try dsimp only
  repeat' (first
    | with_reducible assumption | refine goes_next ?_ | with_reducible apply moves_runCmd |
    with_reducible apply moves_cmdLogHarvest | with_reducible apply moves_nextBoundary | with_reducible apply cmd_mk |
    with_reducible apply goes_ite | with_reducible apply moves_ite | split | intro _ | simp only [hm])

def foot_execHarvestBoundary : Nat := foot_runSched ||| foot_cmdLogHarvest ||| foot_startHarvest
theorem moves_execHarvestBoundary {m : Nat} {r : State} {tn : Tnid} {s : State} (h : Moves m r s)
    (hm : Within foot_execHarvestBoundary m) : Goes m r (execHarvestBoundary tn s) := by
  simp only [foot_execHarvestBoundary, within_or] at hm
  unfold execHarvestBoundary
  try dsimp only
  repeat' (first
    | with_reducible assumption | refine goes_next ?_ | with_reducible apply moves_withSome |
    with_reducible apply moves_runSched | with_reducible apply moves_cmdLogHarvest |
    with_reducible apply moves_startHarvest | with_reducible apply cmd_mk | with_reducible apply goes_ite |
    with_reducible apply moves_ite | split | intro _ | simp only [hm])

def foot_execHarvestDone : Nat := foot_logSettle ||| foot_finishWaiting ||| pms [.logs]
theorem moves_execHarvestDone {m : Nat} {r : State} {tn : Tnid} {s : State} (h : Moves m r s)
    (hm : Within foot_execHarvestDone m) : Goes m r (execHarvestDone tn s) := by
  simp only [foot_execHarvestDone, pms, within_or, within_zero, and_true] at hm
  unfold execHarvestDone
  try dsimp only
  repeat' (first
    | with_reducible assumption | refine goes_next ?_ | with_reducible apply moves_modLog |
    with_reducible apply moves_logSettle | with_reducible apply moves_finishWaiting | with_reducible apply goes_ite |
    with_reducible apply moves_ite | split | intro _ | simp only [hm])

def foot_parkChan : Nat := pms [.chans] ||| fms [.CH_CUR, .CH_RETRIES]
theorem moves_parkChan {m : Nat} {r : State} {c : Nat} {s : State} (h : Moves m r s)
    (hm : Within foot_parkChan m) : Moves m r (parkChan c s) := by
  simp only [foot_parkChan, fms, pms, within_or, within_zero, and_true] at hm
  unfold parkChan
  try dsimp only
  repeat' (first
    | with_reducible assumption | with_reducible intro _ | with_reducible apply moves_wr |
    with_reducible apply moves_modCh | with_reducible apply moves_ite | split | simp only [hm])

def foot_stopReads : Nat := foot_dropAhead ||| pms [.chans, .hostQ, .wls]
theorem moves_stopReads {m : Nat} {r : State} {c : ℕ} {s : State} (h : Moves m r s)
    (hm : Within foot_stopReads m) : Moves m r (stopReads c s) := by
  simp only [foot_stopReads, pms, within_or, within_zero, and_true] at hm
  unfold stopReads
  try dsimp only
  repeat' (first
    | with_reducible assumption | with_reducible apply moves_dropAhead | with_reducible apply moves_modCh |
    with_reducible apply moves_filterHostQ | with_reducible apply moves_mapWls | with_reducible apply moves_ite |
    split | intro _ | simp only [hm])

def foot_freezeTn : Nat := foot_waitOn ||| foot_traceTnState ||| foot_stopReads ||| foot_discardWaiting |||
    foot_dirChanged ||| foot_freezeSettle ||| foot_showExcused ||| pms [.tens, .hostQ] ||| fms [.TN_STATE,
    .TN_FREEZE_SET]
theorem moves_freezeTn {m : Nat} {r : State} {r' : CmdReq} {n : Nat} {s : State} (h : Moves m r s)
    (hm : Within foot_freezeTn m) : Moves m r (freezeTn r' n s) := by
  simp only [foot_freezeTn, fms, pms, within_or, within_zero, and_true] at hm
  unfold freezeTn
  try dsimp only
  repeat' (first
    | with_reducible assumption | with_reducible intro _ | with_reducible apply moves_each |
    with_reducible apply moves_wr | with_reducible apply moves_modTen | with_reducible apply moves_waitOn |
    with_reducible apply moves_traceTnState | with_reducible apply moves_stopReads |
    with_reducible apply moves_discardWaiting | with_reducible apply moves_dirChanged |
    with_reducible apply moves_freezeSettle | with_reducible apply moves_showExcused | with_reducible apply moves_ite |
    split | with_reducible apply moves_part_hostQ | simp only [hm])

def foot_cmdTenantFreeze : Nat := fms [.TN_FREEZE_SET]
theorem moves_cmdTenantFreeze {m : Nat} {r : State} {r' : CmdReq} {go : State → State} (hgo : ∀ z, Moves m r z → Moves
    m r (go z))
    (hm : Within foot_cmdTenantFreeze m) : CmdMoves m r (cmdTenantFreeze r' go) := by
  simp only [foot_cmdTenantFreeze, fms, within_or, within_zero, and_true] at hm
  unfold cmdTenantFreeze
  try dsimp only
  repeat' (first
    | with_reducible assumption | with_reducible apply moves_wr | with_reducible apply cmd_mk |
    with_reducible apply hgo | with_reducible apply moves_ite | split | intro _)

def foot_execTenantFreeze : Nat := foot_runCmd ||| foot_cmdTenantFreeze ||| foot_nextBoundary ||| fms [.TN_FREEZE_SET]
theorem moves_execTenantFreeze {m : Nat} {r : State} {r' : CmdReq} {s : State} (h : Moves m r s)
    (hm : Within foot_execTenantFreeze m) : Goes m r (execTenantFreeze r' s) := by
  simp only [foot_execTenantFreeze, fms, within_or, within_zero, and_true] at hm
  unfold execTenantFreeze
  try dsimp only
  repeat' (first
    | with_reducible assumption | refine goes_next ?_ | with_reducible apply moves_runCmd |
    with_reducible apply moves_cmdTenantFreeze | with_reducible apply moves_nextBoundary |
    with_reducible apply moves_wr | with_reducible apply cmd_mk | with_reducible apply goes_ite |
    with_reducible apply moves_ite | split | intro _ | simp only [hm])

def foot_execFreezePoint : Nat := foot_runSched ||| foot_cmdTenantFreeze ||| foot_freezeTn ||| pms [.keeper]
theorem moves_execFreezePoint {m : Nat} {r : State} {tn : Tnid} {s : State} (h : Moves m r s)
    (hm : Within foot_execFreezePoint m) : Goes m r (execFreezePoint tn s) := by
  simp only [foot_execFreezePoint, pms, within_or, within_zero, and_true] at hm
  unfold execFreezePoint
  try dsimp only
  repeat' (first
    | with_reducible assumption | refine goes_next ?_ | with_reducible apply moves_withSome |
    with_reducible apply moves_modKeeper | with_reducible apply moves_runSched |
    with_reducible apply moves_cmdTenantFreeze | with_reducible apply moves_freezeTn | with_reducible apply cmd_mk |
    with_reducible apply goes_ite | with_reducible apply moves_ite | split | intro _ | simp only [hm])

def foot_execFreezeQuiesced : Nat := foot_freezeSettle ||| foot_parkChan ||| foot_advance ||| foot_finishWaiting |||
    pms [.tens]
theorem moves_execFreezeQuiesced {m : Nat} {r : State} {tn : Tnid} {s : State} (h : Moves m r s)
    (hm : Within foot_execFreezeQuiesced m) : Goes m r (execFreezeQuiesced tn s) := by
  simp only [foot_execFreezeQuiesced, pms, within_or, within_zero, and_true] at hm
  unfold execFreezeQuiesced
  try dsimp only
  repeat' (first
    | with_reducible assumption | with_reducible intro _ | refine goes_next ?_ | with_reducible apply moves_each |
    with_reducible apply moves_modTen | with_reducible apply moves_freezeSettle | with_reducible apply moves_parkChan |
    with_reducible apply moves_advance | with_reducible apply moves_finishWaiting | with_reducible apply goes_ite |
    with_reducible apply moves_ite | split | simp only [hm])

def foot_thawTn : Nat := foot_finishWaiting ||| foot_parkChan ||| foot_traceTnState ||| foot_releaseHeldOf |||
    foot_startFetch ||| foot_startReread ||| foot_doorbell ||| foot_releaseVec ||| foot_dirChanged ||| pms [.tags,
    .tens, .vecs, .hostQ] ||| fms [.TN_STATE, .CH_DB_PENDING]
theorem moves_thawTn {m : Nat} {r : State} {n : Nat} {s : State} (h : Moves m r s)
    (hm : Within foot_thawTn m) : Moves m r (thawTn n s) := by
  simp only [foot_thawTn, fms, pms, within_or, within_zero, and_true] at hm
  unfold thawTn
  try dsimp only
  repeat' (first
    | with_reducible assumption | with_reducible intro _ | with_reducible apply moves_when |
    with_reducible apply moves_each | with_reducible apply moves_wr | with_reducible apply moves_mapTags |
    with_reducible apply moves_modTen | with_reducible apply moves_modVec | with_reducible apply moves_finishWaiting |
    with_reducible apply moves_parkChan | with_reducible apply moves_traceTnState |
    with_reducible apply moves_releaseHeldOf | with_reducible apply moves_startFetch |
    with_reducible apply moves_startReread | with_reducible apply moves_doorbell | with_reducible apply moves_releaseVec
    | with_reducible apply moves_dirChanged | with_reducible apply moves_ite | split |
    with_reducible apply moves_part_hostQ | simp only [hm])

def foot_cmdTenantThaw : Nat := foot_finish ||| foot_thawTn ||| foot_cancelSched
theorem moves_cmdTenantThaw {m : Nat} {r : State} {r' : CmdReq}
    (hm : Within foot_cmdTenantThaw m) : CmdMoves m r (cmdTenantThaw r') := by
  simp only [foot_cmdTenantThaw, within_or] at hm
  unfold cmdTenantThaw
  try dsimp only
  repeat' (first
    | with_reducible assumption | with_reducible apply moves_withSome | with_reducible apply moves_finish |
    with_reducible apply moves_thawTn | with_reducible apply moves_cancelSched | with_reducible apply cmd_mk |
    with_reducible apply moves_ite | split | intro _ | simp only [hm] | simp only [id_eq])

def foot_execTenantThaw : Nat := foot_runCmd ||| foot_cmdTenantThaw
theorem moves_execTenantThaw {m : Nat} {r : State} {r' : CmdReq} {s : State} (h : Moves m r s)
    (hm : Within foot_execTenantThaw m) : Goes m r (execTenantThaw r' s) := by
  simp only [foot_execTenantThaw, within_or] at hm
  unfold execTenantThaw
  try dsimp only
  repeat' (first
    | with_reducible assumption | refine goes_next ?_ | with_reducible apply moves_runCmd |
    with_reducible apply moves_cmdTenantThaw | with_reducible apply cmd_mk | with_reducible apply goes_ite |
    with_reducible apply moves_ite | split | intro _ | simp only [hm])

def foot_execTenantSave : Nat := foot_runCmd ||| foot_finish ||| pms [.tens]
theorem moves_execTenantSave {m : Nat} {r : State} {r' : CmdReq} {offset : ℕ} {s : State} (h : Moves m r s)
    (hm : Within foot_execTenantSave m) : Goes m r (execTenantSave r' offset s) := by
  simp only [foot_execTenantSave, pms, within_or, within_zero, and_true] at hm
  unfold execTenantSave
  try dsimp only
  repeat' (first
    | with_reducible assumption | refine goes_next ?_ | with_reducible apply moves_when |
    with_reducible apply moves_runCmd | with_reducible apply moves_modTen | with_reducible apply moves_finish |
    with_reducible apply cmd_mk | with_reducible apply goes_ite | with_reducible apply moves_ite | split | intro _ |
    simp only [hm] | simp only [id_eq])

def foot_putImage (b : Blk) : Nat := foot_blks [b]
theorem moves_putImage {m : Nat} {r : State} {b : Blk} {i off v : Nat} {s : State} (h : Moves m r s)
    (hm : Within (foot_putImage b) m) : Moves m r (putImage b i off v s) := by
  refine moves_each_mem h (fun f hf _ hz => moves_wr hz (within_blks ?_ hm))
  simp only [List.mem_filter, Bool.and_eq_true, decide_eq_true_eq] at hf
  simp [Fld.blk, hf.2.1.1]

def foot_loadChan : Nat := (foot_putImage .channel) ||| pms [.chans, .tens] ||| fms [.CH_ERR_SPACE, .CH_ERR_ADDR,
    .CH_RETRY_CNT, .CH_HALT_CNT, .CH_BYTE_CNT, .CH_DONE_CNT, .CH_CUR, .CH_HEAD_HI, .CH_HEAD_LO, .CH_DRAINING]
theorem moves_loadChan {m : Nat} {r : State} {n c : ℕ} {b : Bytes} {s : State} (h : Moves m r s)
    (hm : Within foot_loadChan m) : Moves m r (loadChan n c b s) := by
  simp only [foot_loadChan, fms, pms, within_or, within_zero, and_true] at hm
  unfold loadChan
  try dsimp only
  repeat' (first
    | with_reducible assumption | with_reducible apply moves_putImage | with_reducible apply moves_wr |
    with_reducible apply moves_modCh | with_reducible apply moves_modTen | with_reducible apply moves_ite | split |
    intro _ | simp only [hm])

def foot_applyBlob : Nat := foot_modifyTn ||| foot_setBucket ||| foot_loadChan ||| foot_dirChanged ||| pms [.vecs,
    .tens] ||| fms [.TN_GENERATION, .DVSEC_GENERATION]
theorem moves_applyBlob {m : Nat} {r : State} {n : Nat} {keep : Bool} {b : Bytes} {s : State} (h : Moves m r s)
    (hm : Within foot_applyBlob m) : Moves m r (applyBlob n keep b s) := by
  simp only [foot_applyBlob, fms, pms, within_or, within_zero, and_true] at hm
  unfold applyBlob
  try dsimp only
  repeat' (first
    | with_reducible assumption | with_reducible intro _ | with_reducible apply moves_when |
    with_reducible apply moves_each | with_reducible apply moves_wr | with_reducible apply moves_modVec |
    with_reducible apply moves_modTen | with_reducible apply moves_modifyTn | with_reducible apply moves_setBucket |
    with_reducible apply moves_loadChan | with_reducible apply moves_dirChanged | with_reducible apply moves_ite | split
    | simp only [hm])

def foot_execTenantRestore : Nat := foot_runCmd ||| foot_finish ||| foot_applyBlob ||| pms [.tens]
theorem moves_execTenantRestore {m : Nat} {r : State} {r' : CmdReq} {offset flags : ℕ} {data : Bytes} {s : State} (h :
    Moves m r s)
    (hm : Within foot_execTenantRestore m) : Goes m r (execTenantRestore r' offset flags data s) := by
  simp only [foot_execTenantRestore, pms, within_or, within_zero, and_true] at hm
  unfold execTenantRestore
  try dsimp only
  repeat' (first
    | with_reducible assumption | refine goes_next ?_ | with_reducible apply moves_runCmd |
    with_reducible apply moves_finish | with_reducible apply moves_modTen | with_reducible apply moves_applyBlob |
    with_reducible apply cmd_mk | with_reducible apply goes_ite | with_reducible apply moves_ite | split | intro _ |
    simp only [hm] | simp only [id_eq])

end Sys2Proof.Laws
end

