-- ==== Sys2Proof/Laws/FootHostLinks.lean ====
section
/-!
SUPPORT. The footprint of each operation of Machine/HostLinks.lean: which register fields and parts of the state it may change.
-/
namespace Sys2Proof.Laws
open Sys2Proof.Machine

def foot_fnForget : Nat := pms [.vecs, .hostQ, .cfg]
theorem moves_fnForget {m : Nat} {r : State} {flr : Bool} {mine : Nat → Bool} {s : State} (h : Moves m r s)
    (hm : Within foot_fnForget m) : Moves m r (fnForget flr mine s) := by
  simp only [foot_fnForget, pms, within_or, within_zero, and_true] at hm
  unfold fnForget
  try dsimp only
  repeat' (first
    | with_reducible assumption | with_reducible intro _ | with_reducible apply moves_ite | split |
    with_reducible apply moves_part_vecs | with_reducible apply moves_part_hostQ | with_reducible apply moves_part_cfg |
    with_reducible apply moves_parts | with_reducible exact Or.inl rfl | (refine Or.inr ?_; simp only [hm]) |
    simp only [hm])

def foot_fnReset : Nat := foot_unschedule ||| foot_fnForget ||| foot_pauseStream ||| foot_blks [.fnirq, .cmdring] ||| pms [.latches,
    .keeper, .cfg]
theorem moves_fnReset {m : Nat} {r : State} {l : Nat} {flr : Bool} {p : Nat → Bool} {s : State} (h : Moves m r s)
    (hm : Within foot_fnReset m) : Moves m r (fnReset l flr p s) := by
  have hb : Within (foot_blks [.fnirq, .cmdring]) m := by
    simp only [foot_fnReset, within_or] at hm
    exact hm.1.2
  simp only [foot_fnReset, pms, within_or, within_zero, and_true] at hm
  unfold fnReset
  dsimp only
  have hr : ∀ z, Moves m r z → Moves m r (z.resetRegs
      (fun k => (k.f.blk == .fnirq || k.f.blk == .cmdring) && k.f != .FI_VEC_COUNT && (fnHl k.i == l && p (fnVf k.i)))) := by
    intro z hz
    refine moves_resetRegs hz (fun k hk => testBit_blks ?_ hb) (by simp only [hm])
    simp only [Bool.and_eq_true, Bool.or_eq_true, beq_iff_eq] at hk
    rcases hk.1.1 with e | e <;> simp [e]
  repeat' (first
    | with_reducible assumption | with_reducible apply moves_each | with_reducible apply moves_unschedule
    | with_reducible apply moves_modKeeper | with_reducible apply hr | with_reducible apply moves_modCf
    | with_reducible apply moves_fnForget | with_reducible apply moves_pauseStream | with_reducible apply moves_ite | intro _ | simp only [hm])


def foot_orphanFetch : Nat := pms [.keeper, .hostQ, .tags] ||| fms [.KP_CTX_BUSY]
theorem moves_orphanFetch {m : Nat} {r : State} {p : ℕ → Bool} {s : State} (h : Moves m r s)
    (hm : Within foot_orphanFetch m) : Moves m r (orphanFetch p s) := by
  simp only [foot_orphanFetch, fms, pms, within_or, within_zero, and_true] at hm
  unfold orphanFetch
  try dsimp only
  repeat' (first
    | with_reducible assumption | with_reducible apply moves_modKeeper | with_reducible apply moves_filterHostQ |
    with_reducible apply moves_mapTags | with_reducible apply moves_wr | with_reducible apply moves_ite | split |
    intro _ | simp only [hm])

def foot_cutFns : Nat := foot_discardWaiting ||| foot_dropTags ||| foot_quarantineTag
theorem moves_cutFns {m : Nat} {r : State} {p : Nat → Bool} {cause : Nat} {s : State} (h : Moves m r s)
    (hm : Within foot_cutFns m) : Moves m r (cutFns p cause s) := by
  simp only [foot_cutFns, within_or] at hm
  unfold cutFns
  try dsimp only
  repeat' (first
    | with_reducible assumption | with_reducible intro _ | with_reducible apply moves_each |
    with_reducible apply moves_discardWaiting | with_reducible apply moves_dropTags |
    with_reducible apply moves_quarantineTag | with_reducible apply moves_ite | split | simp only [hm])

def foot_dropWait : Nat := pms [.hls]
theorem moves_dropWait {m : Nat} {r : State} {h' : Nat} {p : Nat → Bool} {s : State} (h : Moves m r s)
    (hm : Within foot_dropWait m) : Moves m r (dropWait h' p s) := by
  simp only [foot_dropWait, pms, within_or, within_zero, and_true] at hm
  unfold dropWait
  try dsimp only
  repeat' (first
    | with_reducible assumption | with_reducible intro _ | with_reducible apply moves_when |
    with_reducible apply moves_modHl | with_reducible apply moves_ite | split | simp only [hm])

def foot_convReset : Nat := foot_orphanFetch ||| foot_resetTn ||| foot_showExcused ||| foot_fnReset ||| foot_cutFns
    ||| foot_dropWait ||| pms [.inRds]
theorem moves_convReset {m : Nat} {r : State} {h' cause : Nat} {s : State} (h : Moves m r s)
    (hm : Within foot_convReset m) : Moves m r (convReset h' cause s) := by
  simp only [foot_convReset, pms, within_or, within_zero, and_true] at hm
  unfold convReset
  try dsimp only
  repeat' (first
    | with_reducible assumption | with_reducible intro _ | with_reducible apply moves_each |
    with_reducible apply moves_orphanFetch | with_reducible apply moves_resetTn | with_reducible apply moves_showExcused
    | with_reducible apply moves_fnReset | with_reducible apply moves_cutFns | with_reducible apply moves_dropWait |
    with_reducible apply moves_ite | split | with_reducible apply moves_part_inRds | simp only [hm])

def foot_flrVf : Nat := foot_orphanFetch ||| foot_resetTn ||| foot_showExcused ||| foot_fnReset ||| foot_cutFns |||
    foot_dropWait ||| pms [.inRds]
theorem moves_flrVf {m : Nat} {r : State} {f : Nat} {s : State} (h : Moves m r s)
    (hm : Within foot_flrVf m) : Moves m r (flrVf f s) := by
  simp only [foot_flrVf, pms, within_or, within_zero, and_true] at hm
  unfold flrVf
  try dsimp only
  repeat' (first
    | with_reducible assumption | with_reducible intro _ | with_reducible apply moves_withSome |
    with_reducible apply moves_orphanFetch | with_reducible apply moves_resetTn | with_reducible apply moves_showExcused
    | with_reducible apply moves_fnReset | with_reducible apply moves_cutFns | with_reducible apply moves_dropWait |
    with_reducible apply moves_ite | split | with_reducible apply moves_part_inRds | simp only [hm])

def foot_clearVfs : Nat := foot_flrVf ||| pms [.hls, .cfg]
theorem moves_clearVfs {m : Nat} {r : State} {h' : ℕ} {s : State} (h : Moves m r s)
    (hm : Within foot_clearVfs m) : Moves m r (clearVfs h' s) := by
  simp only [foot_clearVfs, pms, within_or, within_zero, and_true] at hm
  unfold clearVfs
  try dsimp only
  repeat' (first
    | with_reducible assumption | with_reducible apply moves_each | with_reducible apply moves_flrVf |
    with_reducible apply moves_modHl | with_reducible apply moves_modCf | with_reducible apply moves_ite | split |
    intro _ | simp only [hm])

def foot_flrPf : Nat := foot_orphanFetch ||| foot_clearVfs ||| foot_showExcused ||| foot_fnReset ||| foot_cutFns |||
    foot_dropWait ||| pms [.inRds]
theorem moves_flrPf {m : Nat} {r : State} {h' : Nat} {s : State} (h : Moves m r s)
    (hm : Within foot_flrPf m) : Moves m r (flrPf h' s) := by
  simp only [foot_flrPf, pms, within_or, within_zero, and_true] at hm
  unfold flrPf
  try dsimp only
  repeat' (first
    | with_reducible assumption | with_reducible intro _ | with_reducible apply moves_orphanFetch |
    with_reducible apply moves_clearVfs | with_reducible apply moves_showExcused | with_reducible apply moves_fnReset |
    with_reducible apply moves_cutFns | with_reducible apply moves_dropWait | with_reducible apply moves_ite | split |
    with_reducible apply moves_part_inRds | simp only [hm])

def foot_endRun : Nat := foot_showClkreq ||| pms [.hls] ||| fms [.HL_DL_UP, .HL_CUR_SPEED, .HL_CUR_WIDTH, .HL_FLIT,
    .HL_L1SUB, .HL_REVERSED, .HL_LTSSM]
theorem moves_endRun {m : Nat} {r : State} {h' ltssm : Nat} {s : State} (h : Moves m r s)
    (hm : Within foot_endRun m) : Moves m r (endRun h' ltssm s) := by
  simp only [foot_endRun, fms, pms, within_or, within_zero, and_true] at hm
  unfold endRun
  try dsimp only
  repeat' (first
    | with_reducible assumption | with_reducible intro _ | with_reducible apply moves_wr |
    with_reducible apply moves_modHl | with_reducible apply moves_showClkreq | with_reducible apply moves_ite | split |
    simp only [hm])

def foot_linkDown : Nat := foot_endRun ||| foot_convReset ||| foot_ward ||| (foot_hlEvent .HL_DL_DOWN) ||| foot_trace
    ||| fms [.HL_DROP_CNT, .HL_DOWN_CNT]
theorem moves_linkDown {m : Nat} {r : State} {h' ltssm cause : ℕ} {s : State} (h : Moves m r s)
    (hm : Within foot_linkDown m) : Moves m r (linkDown h' ltssm cause s) := by
  simp only [foot_linkDown, fms, within_or, within_zero, and_true] at hm
  unfold linkDown
  try dsimp only
  repeat' (first
    | with_reducible assumption | with_reducible apply moves_when | with_reducible apply moves_endRun |
    with_reducible apply moves_add | with_reducible apply moves_convReset | with_reducible apply moves_ward |
    with_reducible apply moves_hlEvent | with_reducible apply moves_trace | with_reducible apply moves_inc |
    with_reducible apply moves_ite | split | intro _ | simp only [hm])

def foot_perstHeld : Nat := (foot_hlEvent .HL_PERST_ASSERT) ||| foot_linkDown ||| pms [.hls]
theorem moves_perstHeld {m : Nat} {r : State} {h' : Nat} {s : State} (h : Moves m r s)
    (hm : Within foot_perstHeld m) : Moves m r (perstHeld h' s) := by
  simp only [foot_perstHeld, pms, within_or, within_zero, and_true] at hm
  unfold perstHeld
  try dsimp only
  repeat' (first
    | with_reducible assumption | with_reducible intro _ | with_reducible apply moves_modHl |
    with_reducible apply moves_hlEvent | with_reducible apply moves_linkDown | with_reducible apply moves_ite | split |
    simp only [hm])

def foot_execPerstAssert : Nat := foot_perstHeld ||| pms [.pins, .hls] ||| fms [.HL_PERST]
theorem moves_execPerstAssert {m : Nat} {r : State} {hl : Hl} {s : State} (h : Moves m r s)
    (hm : Within foot_execPerstAssert m) : Goes m r (execPerstAssert hl s) := by
  simp only [foot_execPerstAssert, fms, pms, within_or, within_zero, and_true] at hm
  unfold execPerstAssert
  try dsimp only
  repeat' (first
    | with_reducible assumption | with_reducible intro _ | refine goes_next ?_ | with_reducible apply moves_when |
    with_reducible apply moves_wr | with_reducible apply moves_modPins | with_reducible apply moves_modHl |
    with_reducible apply moves_perstHeld | with_reducible apply goes_ite | with_reducible apply moves_ite | split |
    simp only [hm])

def foot_execPerstDeassert : Nat := pms [.pins, .hls] ||| fms [.HL_PERST]
theorem moves_execPerstDeassert {m : Nat} {r : State} {hl : Hl} {s : State} (h : Moves m r s)
    (hm : Within foot_execPerstDeassert m) : Goes m r (execPerstDeassert hl s) := by
  simp only [foot_execPerstDeassert, fms, pms, within_or, within_zero, and_true] at hm
  unfold execPerstDeassert
  try dsimp only
  repeat' (first
    | with_reducible assumption | with_reducible intro _ | refine goes_next ?_ | with_reducible apply moves_when |
    with_reducible apply moves_wr | with_reducible apply moves_modPins | with_reducible apply moves_modHl |
    with_reducible apply moves_emit | with_reducible apply goes_ite | with_reducible apply moves_ite | split |
    simp only [hm])

def foot_execHotResetReceived : Nat := (foot_hlEvent .HL_HOT_RESET) ||| foot_linkDown
theorem moves_execHotResetReceived {m : Nat} {r : State} {hl : Hl} {s : State} (h : Moves m r s)
    (hm : Within foot_execHotResetReceived m) : Goes m r (execHotResetReceived hl s) := by
  simp only [foot_execHotResetReceived, within_or] at hm
  unfold execHotResetReceived
  try dsimp only
  repeat' (first
    | with_reducible assumption | refine goes_next ?_ | with_reducible apply moves_when |
    with_reducible apply moves_emit | with_reducible apply moves_hlEvent | with_reducible apply moves_linkDown |
    with_reducible apply goes_ite | with_reducible apply moves_ite | split | intro _ | simp only [hm])

def foot_execDlDown : Nat := foot_linkDown
theorem moves_execDlDown {m : Nat} {r : State} {hl : Hl} {s : State} (h : Moves m r s)
    (hm : Within foot_execDlDown m) : Goes m r (execDlDown hl s) := by
  simp only [foot_execDlDown] at hm
  unfold execDlDown
  try dsimp only
  repeat' (first
    | with_reducible assumption | refine goes_next ?_ | with_reducible apply moves_when |
    with_reducible apply moves_emit | with_reducible apply moves_linkDown | with_reducible apply goes_ite |
    with_reducible apply moves_ite | split | intro _)

def foot_execLinkDisable : Nat := foot_linkDown ||| pms [.hls]
theorem moves_execLinkDisable {m : Nat} {r : State} {hl : Hl} {s : State} (h : Moves m r s)
    (hm : Within foot_execLinkDisable m) : Goes m r (execLinkDisable hl s) := by
  simp only [foot_execLinkDisable, pms, within_or, within_zero, and_true] at hm
  unfold execLinkDisable
  try dsimp only
  repeat' (first
    | with_reducible assumption | refine goes_next ?_ | with_reducible apply moves_when |
    with_reducible apply moves_modHl | with_reducible apply moves_linkDown | with_reducible apply goes_ite |
    with_reducible apply moves_ite | split | intro _ | simp only [hm])

def foot_execLinkDisableEnd : Nat := pms [.hls] ||| fms [.HL_LTSSM]
theorem moves_execLinkDisableEnd {m : Nat} {r : State} {hl : Hl} {s : State} (h : Moves m r s)
    (hm : Within foot_execLinkDisableEnd m) : Goes m r (execLinkDisableEnd hl s) := by
  simp only [foot_execLinkDisableEnd, fms, pms, within_or, within_zero, and_true] at hm
  unfold execLinkDisableEnd
  try dsimp only
  repeat' (first
    | with_reducible assumption | with_reducible intro _ | refine goes_next ?_ | with_reducible apply moves_when |
    with_reducible apply moves_wr | with_reducible apply moves_modHl | with_reducible apply moves_emit |
    with_reducible apply goes_ite | with_reducible apply moves_ite | split | simp only [hm])

def foot_writeHold : Nat := foot_linkDown ||| foot_endRun ||| pms [.hls] ||| fms [.HL_HOLD]
theorem moves_writeHold {m : Nat} {r : State} {h' : ℕ} {hold : Bool} {s : State} (h : Moves m r s)
    (hm : Within foot_writeHold m) : Moves m r (writeHold h' hold s) := by
  simp only [foot_writeHold, fms, pms, within_or, within_zero, and_true] at hm
  unfold writeHold
  try dsimp only
  repeat' (first
    | with_reducible assumption | with_reducible apply moves_wr | with_reducible apply moves_linkDown |
    with_reducible apply moves_endRun | with_reducible apply moves_modHl | with_reducible apply moves_ite | split |
    intro _ | simp only [hm])

def foot_execHlHoldWrite : Nat := foot_writeHold
theorem moves_execHlHoldWrite {m : Nat} {r : State} {fn : Fn} {hl : Hl} {hold : Bool} {s : State} (h : Moves m r s)
    (hm : Within foot_execHlHoldWrite m) : Goes m r (execHlHoldWrite fn hl hold s) := by
  simp only [foot_execHlHoldWrite] at hm
  unfold execHlHoldWrite
  try dsimp only
  repeat' (first
    | with_reducible assumption | refine goes_next ?_ | with_reducible apply moves_when |
    with_reducible apply moves_writeHold | with_reducible apply goes_ite | with_reducible apply moves_ite | split |
    intro _)

def foot_execDetectEntry : Nat := pms [.hls] ||| fms [.HL_LTSSM]
theorem moves_execDetectEntry {m : Nat} {r : State} {hl : Hl} {s : State} (h : Moves m r s)
    (hm : Within foot_execDetectEntry m) : Goes m r (execDetectEntry hl s) := by
  simp only [foot_execDetectEntry, fms, pms, within_or, within_zero, and_true] at hm
  unfold execDetectEntry
  try dsimp only
  repeat' (first
    | with_reducible assumption | refine goes_next ?_ | with_reducible apply moves_when |
    with_reducible apply moves_emit | with_reducible apply moves_modHl | with_reducible apply moves_wr |
    with_reducible apply goes_ite | with_reducible apply moves_ite | split | intro _ | simp only [hm])

def foot_sendDrs : Nat := (foot_hlEvent .HL_DRS_SENT) ||| foot_sendMsg ||| pms [.hls]
theorem moves_sendDrs {m : Nat} {r : State} {h' : ℕ} {s : State} (h : Moves m r s)
    (hm : Within foot_sendDrs m) : Moves m r (sendDrs h' s) := by
  simp only [foot_sendDrs, pms, within_or, within_zero, and_true] at hm
  unfold sendDrs
  try dsimp only
  repeat' (first
    | with_reducible assumption | with_reducible apply moves_when | with_reducible apply moves_hlEvent |
    with_reducible apply moves_sendMsg | with_reducible apply moves_modHl | with_reducible apply moves_ite | split |
    intro _ | simp only [hm])

def foot_execDlUp : Nat := foot_trace ||| (foot_hlEvent .HL_WIDTH_CHG) ||| foot_sendDrs ||| pms [.hls] ||| fms
    [.HL_LTSSM, .HL_CUR_SPEED, .HL_CUR_WIDTH, .HL_FLIT, .HL_REVERSED, .HL_DL_UP]
theorem moves_execDlUp {m : Nat} {r : State} {hl : Hl} {width : Nat} {flit reversed : Bool} {s : State} (h : Moves m
    r s)
    (hm : Within foot_execDlUp m) : Goes m r (execDlUp hl width flit reversed s) := by
  simp only [foot_execDlUp, fms, pms, within_or, within_zero, and_true] at hm
  unfold execDlUp
  try dsimp only
  repeat' (first
    | with_reducible assumption | with_reducible intro _ | refine goes_next ?_ | with_reducible apply moves_when |
    with_reducible apply moves_wr | with_reducible apply moves_modHl | with_reducible apply moves_trace |
    with_reducible apply moves_hlEvent | with_reducible apply moves_sendDrs | with_reducible apply goes_ite |
    with_reducible apply moves_ite | split | simp only [hm])

def foot_loadPf : Nat := foot_rebuildDir ||| pms [.hls, .cfg]
theorem moves_loadPf {m : Nat} {r : State} {h' : ℕ} {s : State} (h : Moves m r s)
    (hm : Within foot_loadPf m) : Moves m r (loadPf h' s) := by
  simp only [foot_loadPf, pms, within_or, within_zero, and_true] at hm
  unfold loadPf
  try dsimp only
  repeat' (first
    | with_reducible assumption | with_reducible apply moves_when | with_reducible apply moves_modHl |
    with_reducible apply moves_modCf | with_reducible apply moves_rebuildDir | with_reducible apply moves_ite | split
    | intro _ | simp only [hm])

def foot_execPfReady : Nat := foot_sendDrs ||| foot_loadPf ||| fms [.PW_FN_READY]
theorem moves_execPfReady {m : Nat} {r : State} {hl : Hl} {s : State} (h : Moves m r s)
    (hm : Within foot_execPfReady m) : Goes m r (execPfReady hl s) := by
  simp only [foot_execPfReady, fms, within_or, within_zero, and_true] at hm
  unfold execPfReady
  try dsimp only
  repeat' (first
    | with_reducible assumption | refine goes_next ?_ | with_reducible apply moves_when |
    with_reducible apply moves_sendDrs | with_reducible apply moves_setB | with_reducible apply moves_loadPf |
    with_reducible apply goes_ite | with_reducible apply moves_ite | split | intro _ | simp only [hm])

def foot_showObs : Nat := pms [.clocks]
theorem moves_showObs {m : Nat} {r : State} {s : State} (h : Moves m r s)
    (hm : Within foot_showObs m) : Moves m r (showObs s) := by
  simp only [foot_showObs, pms, within_or, within_zero, and_true] at hm
  unfold showObs
  try dsimp only
  repeat' (first
    | with_reducible assumption | with_reducible intro _ | with_reducible apply moves_when |
    with_reducible apply moves_modClocks | with_reducible apply moves_emit | with_reducible apply moves_ite | split |
    simp only [hm])

def foot_showDerived : Nat := foot_showObs ||| fms [.CK_READY]
theorem moves_showDerived {m : Nat} {r : State} {s : State} (h : Moves m r s)
    (hm : Within foot_showDerived m) : Moves m r (showDerived s) := by
  simp only [foot_showDerived, fms, within_or, within_zero, and_true] at hm
  unfold showDerived
  try dsimp only
  repeat' (first
    | with_reducible assumption | with_reducible intro _ | with_reducible apply moves_wr |
    with_reducible apply moves_showObs | with_reducible apply moves_ite | split | simp only [hm])

def foot_setReady : Nat := foot_showDerived ||| fms [.CK_READY]
theorem moves_setReady {m : Nat} {r : State} {k : ℕ} {on : Bool} {s : State} (h : Moves m r s)
    (hm : Within foot_setReady m) : Moves m r (setReady k on s) := by
  simp only [foot_setReady, fms, within_or, within_zero, and_true] at hm
  unfold setReady
  try dsimp only
  repeat' (first
    | with_reducible assumption | with_reducible apply moves_showDerived | with_reducible apply moves_wr |
    with_reducible apply moves_ite | split | intro _ | simp only [hm])

def foot_showRefclk : Nat := foot_setReady ||| fms [.HL_REFCLK_OK]
theorem moves_showRefclk {m : Nat} {r : State} {p : Nat} {s : State} (h : Moves m r s)
    (hm : Within foot_showRefclk m) : Moves m r (showRefclk p s) := by
  simp only [foot_showRefclk, fms, within_or, within_zero, and_true] at hm
  unfold showRefclk
  try dsimp only
  repeat' (first
    | with_reducible assumption | with_reducible intro _ | with_reducible apply moves_each |
    with_reducible apply moves_wr | with_reducible apply moves_setReady | with_reducible apply moves_ite | split |
    simp only [hm])

def foot_showClkreqs : Nat := foot_showClkreq
theorem moves_showClkreqs {m : Nat} {r : State} {p : ℕ} {s : State} (h : Moves m r s)
    (hm : Within foot_showClkreqs m) : Moves m r (showClkreqs p s) := by
  simp only [foot_showClkreqs] at hm
  unfold showClkreqs
  try dsimp only
  repeat' (first
    | with_reducible assumption | with_reducible apply moves_each | with_reducible apply moves_showClkreq |
    with_reducible apply moves_ite | split | intro _)

def foot_execRefclkLost : Nat := foot_showRefclk ||| (foot_hlEvent .HL_REFCLK_LOST) ||| foot_linkDown ||| foot_ward
    ||| pms [.pins, .hls]
theorem moves_execRefclkLost {m : Nat} {r : State} {port : Tiller} {s : State} (h : Moves m r s)
    (hm : Within foot_execRefclkLost m) : Goes m r (execRefclkLost port s) := by
  simp only [foot_execRefclkLost, pms, within_or, within_zero, and_true] at hm
  unfold execRefclkLost
  try dsimp only
  repeat' (first
    | with_reducible assumption | with_reducible intro _ | refine goes_next ?_ | with_reducible apply moves_each |
    with_reducible apply moves_modPins | with_reducible apply moves_modHl | with_reducible apply moves_emit |
    with_reducible apply moves_showRefclk | with_reducible apply moves_hlEvent | with_reducible apply moves_linkDown |
    with_reducible apply moves_ward | with_reducible apply goes_ite | with_reducible apply moves_ite | split |
    simp only [hm])

def foot_execRefclkRestored : Nat := foot_showRefclk ||| pms [.pins] ||| fms [.PW_REFCLK_WAIT]
theorem moves_execRefclkRestored {m : Nat} {r : State} {port : Tiller} {s : State} (h : Moves m r s)
    (hm : Within foot_execRefclkRestored m) : Goes m r (execRefclkRestored port s) := by
  simp only [foot_execRefclkRestored, fms, pms, within_or, within_zero, and_true] at hm
  unfold execRefclkRestored
  try dsimp only
  repeat' (first
    | with_reducible assumption | with_reducible intro _ | refine goes_next ?_ | with_reducible apply moves_wr |
    with_reducible apply moves_modPins | with_reducible apply moves_showRefclk | with_reducible apply goes_ite |
    with_reducible apply moves_ite | split | simp only [hm])

def foot_execHlRetrainWrite : Nat := fms [.HL_RECOV_CNT]
theorem moves_execHlRetrainWrite {m : Nat} {r : State} {fn : Fn} {hl : Hl} {s : State} (h : Moves m r s)
    (hm : Within foot_execHlRetrainWrite m) : Goes m r (execHlRetrainWrite fn hl s) := by
  simp only [foot_execHlRetrainWrite, fms, within_or, within_zero, and_true] at hm
  unfold execHlRetrainWrite
  try dsimp only
  repeat' (first
    | with_reducible assumption | refine goes_next ?_ | with_reducible apply moves_when |
    with_reducible apply moves_emit | with_reducible apply moves_inc | with_reducible apply goes_ite |
    with_reducible apply moves_ite | split | intro _)

def foot_execSpeedChange : Nat := foot_ward ||| (foot_hlEvent .HL_EQ_FAIL) ||| (foot_hlEvent .HL_SPEED_CHG) |||
    foot_trace ||| pms [.hls] ||| fms [.HL_RECOV_CNT, .HL_CUR_SPEED]
theorem moves_execSpeedChange {m : Nat} {r : State} {hl : Hl} {speed : Nat} {eqOk : Bool} {s : State} (h : Moves m r
    s)
    (hm : Within foot_execSpeedChange m) : Goes m r (execSpeedChange hl speed eqOk s) := by
  simp only [foot_execSpeedChange, fms, pms, within_or, within_zero, and_true] at hm
  unfold execSpeedChange
  try dsimp only
  repeat' (first
    | with_reducible assumption | with_reducible intro _ | refine goes_next ?_ | with_reducible apply moves_when |
    with_reducible apply moves_inc | with_reducible apply moves_wr | with_reducible apply moves_modHl |
    with_reducible apply moves_emit | with_reducible apply moves_ward | with_reducible apply moves_hlEvent |
    with_reducible apply moves_trace | with_reducible apply goes_ite | with_reducible apply moves_ite | split |
    simp only [hm])

def foot_setWidth : Nat := (foot_hlEvent .HL_WIDTH_CHG) ||| foot_trace ||| pms [.hls] ||| fms [.HL_CUR_WIDTH]
theorem moves_setWidth {m : Nat} {r : State} {h' w : Nat} {s : State} (h : Moves m r s)
    (hm : Within foot_setWidth m) : Moves m r (setWidth h' w s) := by
  simp only [foot_setWidth, fms, pms, within_or, within_zero, and_true] at hm
  unfold setWidth
  try dsimp only
  repeat' (first
    | with_reducible assumption | with_reducible intro _ | with_reducible apply moves_wr |
    with_reducible apply moves_modHl | with_reducible apply moves_emit | with_reducible apply moves_hlEvent |
    with_reducible apply moves_trace | with_reducible apply moves_ite | split | simp only [hm])

def foot_execL0pPartnerRequest : Nat := foot_setWidth
theorem moves_execL0pPartnerRequest {m : Nat} {r : State} {hl : Hl} {width : ℕ} {s : State} (h : Moves m r s)
    (hm : Within foot_execL0pPartnerRequest m) : Goes m r (execL0pPartnerRequest hl width s) := by
  simp only [foot_execL0pPartnerRequest] at hm
  unfold execL0pPartnerRequest
  try dsimp only
  repeat' (first
    | with_reducible assumption | refine goes_next ?_ | with_reducible apply moves_when |
    with_reducible apply moves_setWidth | with_reducible apply goes_ite | with_reducible apply moves_ite | split |
    intro _)

def foot_execL0pHalve : Nat := foot_setWidth
theorem moves_execL0pHalve {m : Nat} {r : State} {hl : Hl} {s : State} (h : Moves m r s)
    (hm : Within foot_execL0pHalve m) : Goes m r (execL0pHalve hl s) := by
  simp only [foot_execL0pHalve] at hm
  unfold execL0pHalve
  try dsimp only
  repeat' (first
    | with_reducible assumption | with_reducible intro _ | refine goes_next ?_ | with_reducible apply moves_when |
    with_reducible apply moves_setWidth | with_reducible apply goes_ite | with_reducible apply moves_ite | split |
    simp only [hm])

def foot_execL0pRestore : Nat := foot_setWidth
theorem moves_execL0pRestore {m : Nat} {r : State} {hl : Hl} {s : State} (h : Moves m r s)
    (hm : Within foot_execL0pRestore m) : Goes m r (execL0pRestore hl s) := by
  simp only [foot_execL0pRestore] at hm
  unfold execL0pRestore
  try dsimp only
  repeat' (first
    | with_reducible assumption | with_reducible intro _ | refine goes_next ?_ | with_reducible apply moves_when |
    with_reducible apply moves_setWidth | with_reducible apply goes_ite | with_reducible apply moves_ite | split |
    simp only [hm])

def foot_execAspmL1Entry : Nat := foot_showClkreq ||| fms [.HL_LTSSM, .HL_L1SUB, .HL_CUR_SPEED]
theorem moves_execAspmL1Entry {m : Nat} {r : State} {hl : Hl} {ask : L1Ask} {s : State} (h : Moves m r s)
    (hm : Within foot_execAspmL1Entry m) : Goes m r (execAspmL1Entry hl ask s) := by
  simp only [foot_execAspmL1Entry, fms, within_or, within_zero, and_true] at hm
  unfold execAspmL1Entry
  try dsimp only
  repeat' (first
    | with_reducible assumption | with_reducible intro _ | refine goes_next ?_ | with_reducible apply moves_when |
    with_reducible apply moves_wr | with_reducible apply moves_emit | with_reducible apply moves_showClkreq |
    with_reducible apply goes_ite | with_reducible apply moves_ite | split | simp only [hm])

def foot_execL1Exit : Nat := foot_leaveL1
theorem moves_execL1Exit {m : Nat} {r : State} {hl : Hl} {s : State} (h : Moves m r s)
    (hm : Within foot_execL1Exit m) : Goes m r (execL1Exit hl s) := by
  simp only [foot_execL1Exit] at hm
  unfold execL1Exit
  try dsimp only
  repeat' (first
    | with_reducible assumption | with_reducible intro _ | refine goes_next ?_ | with_reducible apply moves_when |
    with_reducible apply moves_leaveL1 | with_reducible apply goes_ite | with_reducible apply moves_ite | split |
    simp only [hm])

def foot_execL2Entry : Nat := foot_showExcused ||| foot_showClkreq ||| pms [.hls] ||| fms [.HL_DL_UP, .HL_CUR_SPEED,
    .HL_L1SUB, .HL_LTSSM]
theorem moves_execL2Entry {m : Nat} {r : State} {hl : Hl} {s : State} (h : Moves m r s)
    (hm : Within foot_execL2Entry m) : Goes m r (execL2Entry hl s) := by
  simp only [foot_execL2Entry, fms, pms, within_or, within_zero, and_true] at hm
  unfold execL2Entry
  try dsimp only
  repeat' (first
    | with_reducible assumption | refine goes_next ?_ | with_reducible apply moves_when |
    with_reducible apply moves_emit | with_reducible apply moves_wr | with_reducible apply moves_showExcused |
    with_reducible apply moves_showClkreq | with_reducible apply moves_modHl | with_reducible apply goes_ite |
    with_reducible apply moves_ite | split | intro _ | simp only [hm])

def foot_execLtrActive : Nat := foot_sendLtr ||| foot_leaveL1
theorem moves_execLtrActive {m : Nat} {r : State} {hl : Hl} {s : State} (h : Moves m r s)
    (hm : Within foot_execLtrActive m) : Goes m r (execLtrActive hl s) := by
  simp only [foot_execLtrActive, within_or] at hm
  unfold execLtrActive
  try dsimp only
  repeat' (first
    | with_reducible assumption | with_reducible intro _ | refine goes_next ?_ | with_reducible apply moves_when |
    with_reducible apply moves_sendLtr | with_reducible apply moves_leaveL1 | with_reducible apply goes_ite |
    with_reducible apply moves_ite | split | simp only [hm])

def foot_execLtrNoRequirement : Nat := foot_putMsg ||| foot_leaveL1 ||| pms [.hls]
theorem moves_execLtrNoRequirement {m : Nat} {r : State} {hl : Hl} {s : State} (h : Moves m r s)
    (hm : Within foot_execLtrNoRequirement m) : Goes m r (execLtrNoRequirement hl s) := by
  simp only [foot_execLtrNoRequirement, pms, within_or, within_zero, and_true] at hm
  unfold execLtrNoRequirement
  try dsimp only
  repeat' (first
    | with_reducible assumption | with_reducible intro _ | refine goes_next ?_ | with_reducible apply moves_when |
    with_reducible apply moves_modHl | with_reducible apply moves_putMsg | with_reducible apply moves_leaveL1 |
    with_reducible apply goes_ite | with_reducible apply moves_ite | split | simp only [hm])

def foot_marginAnswer : Nat := 0
theorem moves_marginAnswer {m : Nat} {r : State} {s : State} {h' command : Nat} {k : Nat → State → State} (hk : ∀ y0
    z, Moves m r z → Moves m r (k y0 z)) (h : Moves m r s)
    (_ : Within foot_marginAnswer m) : Moves m r (marginAnswer s h' command k) := by
  unfold marginAnswer
  try dsimp only
  repeat' (first
    | with_reducible assumption | with_reducible intro _ | with_reducible apply moves_draw | with_reducible apply hk |
    with_reducible apply moves_ite | split)

def foot_execLaneMarginingCommand : Nat := foot_marginAnswer ||| pms [.hls]
theorem moves_execLaneMarginingCommand {m : Nat} {r : State} {hl : Hl} {lane command : Nat} {s : State} (h : Moves m
    r s)
    (hm : Within foot_execLaneMarginingCommand m) : Goes m r (execLaneMarginingCommand hl lane command s) := by
  simp only [foot_execLaneMarginingCommand, pms, within_or, within_zero, and_true] at hm
  unfold execLaneMarginingCommand
  try dsimp only
  repeat' (first
    | with_reducible assumption | with_reducible intro _ | refine goes_next ?_ | with_reducible apply moves_when |
    with_reducible apply moves_modHl | with_reducible apply moves_emit | with_reducible apply moves_marginAnswer |
    with_reducible apply goes_ite | with_reducible apply moves_ite | split | simp only [hm])

def foot_setVfEnable : Nat := pms [.hls, .cfg]
theorem moves_setVfEnable {m : Nat} {r : State} {h' : ℕ} {s : State} (h : Moves m r s)
    (hm : Within foot_setVfEnable m) : Moves m r (setVfEnable h' s) := by
  simp only [foot_setVfEnable, pms, within_or, within_zero, and_true] at hm
  unfold setVfEnable
  try dsimp only
  repeat' (first
    | with_reducible assumption | with_reducible apply moves_modHl | with_reducible apply moves_modCf |
    with_reducible apply moves_ite | split | intro _ | simp only [hm])

def foot_execVfEnableSet : Nat := foot_setVfEnable
theorem moves_execVfEnableSet {m : Nat} {r : State} {hl : Hl} {s : State} (h : Moves m r s)
    (hm : Within foot_execVfEnableSet m) : Goes m r (execVfEnableSet hl s) := by
  simp only [foot_execVfEnableSet] at hm
  unfold execVfEnableSet
  try dsimp only
  repeat' (first
    | with_reducible assumption | refine goes_next ?_ | with_reducible apply moves_when |
    with_reducible apply moves_setVfEnable | with_reducible apply goes_ite | with_reducible apply moves_ite | split |
    intro _)

def foot_execVfReady : Nat := foot_sendMsg ||| pms [.hls, .cfg]
theorem moves_execVfReady {m : Nat} {r : State} {hl : Hl} {s : State} (h : Moves m r s)
    (hm : Within foot_execVfReady m) : Goes m r (execVfReady hl s) := by
  simp only [foot_execVfReady, pms, within_or, within_zero, and_true] at hm
  unfold execVfReady
  try dsimp only
  repeat' (first
    | with_reducible assumption | refine goes_next ?_ | with_reducible apply moves_when |
    with_reducible apply moves_sendMsg | with_reducible apply moves_modHl | with_reducible apply moves_modCf |
    with_reducible apply goes_ite | with_reducible apply moves_ite | split | intro _ | simp only [hm])

def foot_execVfEnableClear : Nat := foot_clearVfs
theorem moves_execVfEnableClear {m : Nat} {r : State} {hl : Hl} {s : State} (h : Moves m r s)
    (hm : Within foot_execVfEnableClear m) : Goes m r (execVfEnableClear hl s) := by
  simp only [foot_execVfEnableClear] at hm
  unfold execVfEnableClear
  try dsimp only
  repeat' (first
    | with_reducible assumption | refine goes_next ?_ | with_reducible apply moves_when |
    with_reducible apply moves_clearVfs | with_reducible apply goes_ite | with_reducible apply moves_ite | split |
    intro _)

def foot_flrFn : Nat := foot_flrPf ||| foot_flrVf
theorem moves_flrFn {m : Nat} {r : State} {f : ℕ} {s : State} (h : Moves m r s)
    (hm : Within foot_flrFn m) : Moves m r (flrFn f s) := by
  simp only [foot_flrFn, within_or] at hm
  unfold flrFn
  try dsimp only
  repeat' (first
    | with_reducible assumption | with_reducible apply moves_flrPf | with_reducible apply moves_flrVf |
    with_reducible apply moves_ite | split | intro _ | simp only [hm])

def foot_execFlr : Nat := foot_flrFn
theorem moves_execFlr {m : Nat} {r : State} {fn : Fn} {s : State} (h : Moves m r s)
    (hm : Within foot_execFlr m) : Goes m r (execFlr fn s) := by
  simp only [foot_execFlr] at hm
  unfold execFlr
  try dsimp only
  repeat' (first
    | with_reducible assumption | refine goes_next ?_ | with_reducible apply moves_when |
    with_reducible apply moves_flrFn | with_reducible apply goes_ite | with_reducible apply moves_ite | split |
    intro _)

def foot_clearBme : Nat := foot_pauseStream ||| foot_stopFn ||| pms [.cfg]
theorem moves_clearBme {m : Nat} {r : State} {f : Nat} {s : State} (h : Moves m r s)
    (hm : Within foot_clearBme m) : Moves m r (clearBme f s) := by
  simp only [foot_clearBme, pms, within_or, within_zero, and_true] at hm
  unfold clearBme
  try dsimp only
  repeat' (first
    | with_reducible assumption | with_reducible intro _ | with_reducible apply moves_modCf |
    with_reducible apply moves_pauseStream | with_reducible apply moves_stopFn | with_reducible apply moves_ite | split
    | simp only [hm])

def foot_releaseVecs : Nat := foot_releaseVec
theorem moves_releaseVecs {m : Nat} {r : State} {f : ℕ} {s : State} (h : Moves m r s)
    (hm : Within foot_releaseVecs m) : Moves m r (releaseVecs f s) := by
  simp only [foot_releaseVecs] at hm
  unfold releaseVecs
  try dsimp only
  repeat' (first
    | with_reducible assumption | with_reducible apply moves_each | with_reducible apply moves_releaseVec |
    with_reducible apply moves_ite | split | intro _)

def foot_setBme : Nat := foot_releaseVecs ||| foot_purgeFn ||| pms [.cfg]
theorem moves_setBme {m : Nat} {r : State} {f : ℕ} {s : State} (h : Moves m r s)
    (hm : Within foot_setBme m) : Moves m r (setBme f s) := by
  simp only [foot_setBme, pms, within_or, within_zero, and_true] at hm
  unfold setBme
  try dsimp only
  repeat' (first
    | with_reducible assumption | with_reducible apply moves_releaseVecs | with_reducible apply moves_modCf |
    with_reducible apply moves_purgeFn | with_reducible apply moves_ite | split | intro _ | simp only [hm])

def foot_execBusMasterClear : Nat := foot_clearBme
theorem moves_execBusMasterClear {m : Nat} {r : State} {fn : Fn} {s : State} (h : Moves m r s)
    (hm : Within foot_execBusMasterClear m) : Goes m r (execBusMasterClear fn s) := by
  simp only [foot_execBusMasterClear] at hm
  unfold execBusMasterClear
  try dsimp only
  repeat' (first
    | with_reducible assumption | refine goes_next ?_ | with_reducible apply moves_when |
    with_reducible apply moves_clearBme | with_reducible apply goes_ite | with_reducible apply moves_ite | split |
    intro _)

def foot_execBusMasterSet : Nat := foot_setBme
theorem moves_execBusMasterSet {m : Nat} {r : State} {fn : Fn} {s : State} (h : Moves m r s)
    (hm : Within foot_execBusMasterSet m) : Goes m r (execBusMasterSet fn s) := by
  simp only [foot_execBusMasterSet] at hm
  unfold execBusMasterSet
  try dsimp only
  repeat' (first
    | with_reducible assumption | refine goes_next ?_ | with_reducible apply moves_when |
    with_reducible apply moves_setBme | with_reducible apply goes_ite | with_reducible apply moves_ite | split |
    intro _)

def foot_enterD3 : Nat := foot_pauseStream ||| foot_stopFn ||| pms [.cfg]
theorem moves_enterD3 {m : Nat} {r : State} {h' : Nat} {s : State} (h : Moves m r s)
    (hm : Within foot_enterD3 m) : Moves m r (enterD3 h' s) := by
  simp only [foot_enterD3, pms, within_or, within_zero, and_true] at hm
  unfold enterD3
  try dsimp only
  repeat' (first
    | with_reducible assumption | with_reducible intro _ | with_reducible apply moves_each |
    with_reducible apply moves_modCf | with_reducible apply moves_pauseStream | with_reducible apply moves_stopFn |
    with_reducible apply moves_ite | split | simp only [hm])

def foot_leaveD3 : Nat := foot_releaseVecs ||| foot_purgeFn ||| pms [.cfg]
theorem moves_leaveD3 {m : Nat} {r : State} {h' : ℕ} {s : State} (h : Moves m r s)
    (hm : Within foot_leaveD3 m) : Moves m r (leaveD3 h' s) := by
  simp only [foot_leaveD3, pms, within_or, within_zero, and_true] at hm
  unfold leaveD3
  try dsimp only
  repeat' (first
    | with_reducible assumption | with_reducible apply moves_each | with_reducible apply moves_releaseVecs |
    with_reducible apply moves_modCf | with_reducible apply moves_purgeFn | with_reducible apply moves_ite | split |
    intro _ | simp only [hm])

def foot_execD3hotEntry : Nat := foot_enterD3
theorem moves_execD3hotEntry {m : Nat} {r : State} {hl : Hl} {s : State} (h : Moves m r s)
    (hm : Within foot_execD3hotEntry m) : Goes m r (execD3hotEntry hl s) := by
  simp only [foot_execD3hotEntry] at hm
  unfold execD3hotEntry
  try dsimp only
  repeat' (first
    | with_reducible assumption | refine goes_next ?_ | with_reducible apply moves_when |
    with_reducible apply moves_enterD3 | with_reducible apply goes_ite | with_reducible apply moves_ite | split |
    intro _)

def foot_execD0Return : Nat := foot_leaveD3
theorem moves_execD0Return {m : Nat} {r : State} {hl : Hl} {s : State} (h : Moves m r s)
    (hm : Within foot_execD0Return m) : Goes m r (execD0Return hl s) := by
  simp only [foot_execD0Return] at hm
  unfold execD0Return
  try dsimp only
  repeat' (first
    | with_reducible assumption | refine goes_next ?_ | with_reducible apply moves_when |
    with_reducible apply moves_leaveD3 | with_reducible apply goes_ite | with_reducible apply moves_ite | split |
    intro _)

def foot_writeNumVfs : Nat := pms [.cfg]
theorem moves_writeNumVfs {m : Nat} {r : State} {h' v : Nat} {s : State} (h : Moves m r s)
    (hm : Within foot_writeNumVfs m) : Moves m r (writeNumVfs h' v s) := by
  simp only [foot_writeNumVfs, pms, within_or, within_zero, and_true] at hm
  unfold writeNumVfs
  try dsimp only
  repeat' (first
    | with_reducible assumption | with_reducible intro _ | with_reducible apply moves_modCf |
    with_reducible apply moves_ite | split | simp only [hm])

def foot_execNumvfsWrite : Nat := foot_writeNumVfs
theorem moves_execNumvfsWrite {m : Nat} {r : State} {hl : Hl} {v : BitVec 16} {s : State} (h : Moves m r s)
    (hm : Within foot_execNumvfsWrite m) : Goes m r (execNumvfsWrite hl v s) := by
  simp only [foot_execNumvfsWrite] at hm
  unfold execNumvfsWrite
  try dsimp only
  repeat' (first
    | with_reducible assumption | refine goes_next ?_ | with_reducible apply moves_when |
    with_reducible apply moves_writeNumVfs | with_reducible apply goes_ite | with_reducible apply moves_ite | split |
    intro _)

def foot_writeBar2Size : Nat := pms [.cfg]
theorem moves_writeBar2Size {m : Nat} {r : State} {h' v : ℕ} {s : State} (h : Moves m r s)
    (hm : Within foot_writeBar2Size m) : Moves m r (writeBar2Size h' v s) := by
  simp only [foot_writeBar2Size, pms, within_or, within_zero, and_true] at hm
  unfold writeBar2Size
  try dsimp only
  repeat' (first
    | with_reducible assumption | with_reducible apply moves_when | with_reducible apply moves_modCf |
    with_reducible apply moves_ite | split | intro _)

def foot_execRebarSizeWrite : Nat := foot_writeBar2Size
theorem moves_execRebarSizeWrite {m : Nat} {r : State} {hl : Hl} {v : Fin 64} {s : State} (h : Moves m r s)
    (hm : Within foot_execRebarSizeWrite m) : Goes m r (execRebarSizeWrite hl v s) := by
  simp only [foot_execRebarSizeWrite] at hm
  unfold execRebarSizeWrite
  try dsimp only
  repeat' (first
    | with_reducible assumption | refine goes_next ?_ | with_reducible apply moves_when |
    with_reducible apply moves_writeBar2Size | with_reducible apply goes_ite | with_reducible apply moves_ite | split
    | intro _)

def foot_execExpromRead : Nat := foot_rxTlp ||| foot_sendCpl ||| foot_darkHit ||| foot_sendHostCpls ||| pms
    [.pktCount, .inRds]
theorem moves_execExpromRead {m : Nat} {r : State} {hl : Hl} {offset len hostTag : Nat} {s : State} (h : Moves m r
    s)
    (hm : Within foot_execExpromRead m) : Goes m r (execExpromRead hl offset len hostTag s) := by
  simp only [foot_execExpromRead, pms, within_or, within_zero, and_true] at hm
  unfold execExpromRead
  try dsimp only
  repeat' (first
    | with_reducible assumption | with_reducible intro _ | refine goes_next ?_ | with_reducible apply moves_when |
    with_reducible apply moves_rxTlp | with_reducible apply moves_sendCpl | with_reducible apply moves_darkHit |
    with_reducible apply moves_sendHostCpls | with_reducible apply goes_ite | with_reducible apply moves_ite | split |
    with_reducible apply moves_part_pktCount | with_reducible apply moves_part_inRds | with_reducible apply moves_parts
    | with_reducible exact Or.inl rfl | (refine Or.inr ?_; simp only [hm]) | simp only [hm])

end Sys2Proof.Laws
end

