-- ==== Sys2Proof/Laws/FootConfigSpace.lean ====
section
/-!
SUPPORT. The footprint of each operation of Machine/ConfigSpace.lean: which register fields and parts of the state it may change.
-/
namespace Sys2Proof.Laws
open Sys2Proof.Machine

def foot_setMsix : Nat := foot_releaseVecs ||| pms [.cfg]
theorem moves_setMsix {m : Nat} {r : State} {f : ℕ} {g : FnCfg → FnCfg} {s : State} (h : Moves m r s)
    (hm : Within foot_setMsix m) : Moves m r (setMsix f g s) := by
  simp only [foot_setMsix, pms, within_or, within_zero, and_true] at hm
  unfold setMsix
  try dsimp only
  repeat' (first
    | with_reducible assumption | with_reducible apply moves_releaseVecs | with_reducible apply moves_modCf |
    with_reducible apply moves_ite | split | intro _ | simp only [hm])

def foot_cfgWritePf : Nat := foot_enterD3 ||| foot_leaveD3 ||| foot_setVfEnable ||| foot_clearVfs |||
    foot_writeNumVfs ||| foot_writeBar2Size ||| pms [.cfg]
theorem moves_cfgWritePf {m : Nat} {r : State} {h' : Nat} {w : CfgField} {v : Nat} {s : State} (h : Moves m r s)
    (hm : Within foot_cfgWritePf m) : Moves m r (cfgWritePf h' w v s) := by
  simp only [foot_cfgWritePf, pms, within_or, within_zero, and_true] at hm
  unfold cfgWritePf
  try dsimp only
  repeat' (first
    | with_reducible assumption | with_reducible intro _ | with_reducible apply moves_when |
    with_reducible apply moves_modCf | with_reducible apply moves_enterD3 | with_reducible apply moves_leaveD3 |
    with_reducible apply moves_setVfEnable | with_reducible apply moves_clearVfs |
    with_reducible apply moves_writeNumVfs | with_reducible apply moves_writeBar2Size | with_reducible apply moves_ite |
    split | simp only [hm])

def foot_cfgWriteFn : Nat := foot_setBme ||| foot_clearBme ||| foot_setMsix ||| foot_flrFn ||| foot_cfgWritePf ||| pms
    [.cfg]
theorem moves_cfgWriteFn {m : Nat} {r : State} {f : ℕ} {w : CfgField} {v : ℕ} {s : State} (h : Moves m r s)
    (hm : Within foot_cfgWriteFn m) : Moves m r (cfgWriteFn f w v s) := by
  simp only [foot_cfgWriteFn, pms, within_or, within_zero, and_true] at hm
  unfold cfgWriteFn
  try dsimp only
  repeat' (first
    | with_reducible assumption | with_reducible apply moves_when | with_reducible apply moves_modCf |
    with_reducible apply moves_setBme | with_reducible apply moves_clearBme | with_reducible apply moves_setMsix |
    with_reducible apply moves_flrFn | with_reducible apply moves_cfgWritePf | with_reducible apply moves_ite | split
    | intro _ | simp only [hm])

def foot_execConfigRequest : Nat := foot_rxTlp ||| foot_sendCpl ||| foot_cfgWriteFn ||| fms [.HL_RRS_CNT]
theorem moves_execConfigRequest {m : Nat} {r : State} {fn : Fn} {hostTag : Nat} {op : CfgOp} {s : State} (h : Moves
    m r s)
    (hm : Within foot_execConfigRequest m) : Goes m r (execConfigRequest fn hostTag op s) := by
  simp only [foot_execConfigRequest, fms, within_or, within_zero, and_true] at hm
  unfold execConfigRequest
  try dsimp only
  repeat' (first
    | with_reducible assumption | with_reducible intro _ | refine goes_next ?_ | with_reducible apply moves_when |
    with_reducible apply moves_inc | with_reducible apply moves_rxTlp | with_reducible apply moves_sendCpl |
    with_reducible apply moves_cfgWriteFn | with_reducible apply goes_ite | with_reducible apply moves_ite | split |
    simp only [hm])

end Sys2Proof.Laws
end

