-- ==== Sys2Proof/Laws/FootAnchor.lean ====
section
/-!
SUPPORT. The footprint of each operation of Machine/Anchor.lean: which register fields and parts of the state it may change.
-/
namespace Sys2Proof.Laws
open Sys2Proof.Machine

def foot_cmdCadenceAnchor : Nat := 0
theorem moves_cmdCadenceAnchor {m : Nat} {r : State} {r' : CmdReq} {hl taiOffset : ℕ} {go : State → State} (hgo : ∀ z,
    Moves m r z → Moves m r (go z))
    (_ : Within foot_cmdCadenceAnchor m) : CmdMoves m r (cmdCadenceAnchor r' hl taiOffset go) := by
  unfold cmdCadenceAnchor
  try dsimp only
  repeat' (first
    | with_reducible assumption | with_reducible apply cmd_mk | with_reducible apply hgo |
    with_reducible apply moves_ite | split | intro _ | simp only [hm] | simp only [id_eq])

def foot_execCadenceAnchor : Nat := foot_runCmd ||| foot_cmdCadenceAnchor ||| foot_boundaryAt
theorem moves_execCadenceAnchor {m : Nat} {r : State} {r' : CmdReq} {hl taiOffset : Nat} {s : State} (h : Moves m r
    s)
    (hm : Within foot_execCadenceAnchor m) : Goes m r (execCadenceAnchor r' hl taiOffset s) := by
  simp only [foot_execCadenceAnchor, within_or] at hm
  unfold execCadenceAnchor
  try dsimp only
  repeat' (first
    | with_reducible assumption | with_reducible intro _ | refine goes_next ?_ | with_reducible apply moves_runCmd |
    with_reducible apply moves_cmdCadenceAnchor | with_reducible apply moves_boundaryAt | with_reducible apply cmd_mk |
    with_reducible apply goes_ite | with_reducible apply moves_ite | split | simp only [hm])

def foot_startAnchor : Nat := foot_sendMsg ||| foot_waitOn ||| pms [.keeper]
theorem moves_startAnchor {m : Nat} {r : State} {r' : CmdReq} {hl taiOffset : ℕ} {s : State} (h : Moves m r s)
    (hm : Within foot_startAnchor m) : Moves m r (startAnchor r' hl taiOffset s) := by
  simp only [foot_startAnchor, pms, within_or, within_zero, and_true] at hm
  unfold startAnchor
  try dsimp only
  repeat' (first
    | with_reducible assumption | with_reducible apply moves_modKeeper | with_reducible apply moves_sendMsg |
    with_reducible apply moves_waitOn | with_reducible apply moves_ite | split | intro _ | simp only [hm])

def foot_runAnchor : Nat := foot_runSched ||| foot_cmdCadenceAnchor ||| foot_startAnchor
theorem moves_runAnchor {m : Nat} {r : State} {e : Sched} {s : State} (h : Moves m r s)
    (hm : Within foot_runAnchor m) : Moves m r (runAnchor e s) := by
  simp only [foot_runAnchor, within_or] at hm
  unfold runAnchor
  try dsimp only
  repeat' (first
    | with_reducible assumption | with_reducible apply moves_runSched | with_reducible apply moves_cmdCadenceAnchor |
    with_reducible apply moves_startAnchor | with_reducible apply cmd_mk | with_reducible apply moves_ite | split |
    intro _ | simp only [hm])

def foot_execAnchorBoundary : Nat := foot_runAnchor
theorem moves_execAnchorBoundary {m : Nat} {r : State} {s : State} (h : Moves m r s)
    (hm : Within foot_execAnchorBoundary m) : Goes m r (execAnchorBoundary s) := by
  simp only [foot_execAnchorBoundary] at hm
  unfold execAnchorBoundary
  try dsimp only
  repeat' (first
    | with_reducible assumption | refine goes_next ?_ | with_reducible apply moves_when |
    with_reducible apply moves_withSome | with_reducible apply moves_runAnchor | with_reducible apply goes_ite |
    with_reducible apply moves_ite | split | intro _)

def foot_execPtmResponse : Nat := foot_finishWaiting ||| foot_journal ||| pms [.keeper]
theorem moves_execPtmResponse {m : Nat} {r : State} {ptmNs rttNs : ℕ} {s : State} (h : Moves m r s)
    (hm : Within foot_execPtmResponse m) : Goes m r (execPtmResponse ptmNs rttNs s) := by
  simp only [foot_execPtmResponse, pms, within_or, within_zero, and_true] at hm
  unfold execPtmResponse
  try dsimp only
  repeat' (first
    | with_reducible assumption | refine goes_next ?_ | with_reducible apply moves_finishWaiting |
    with_reducible apply moves_journal | with_reducible apply moves_modKeeper | with_reducible apply goes_ite |
    with_reducible apply moves_ite | split | intro _ | simp only [hm])

def foot_execPtmTimeout : Nat := foot_finishWaiting ||| pms [.keeper]
theorem moves_execPtmTimeout {m : Nat} {r : State} {s : State} (h : Moves m r s)
    (hm : Within foot_execPtmTimeout m) : Goes m r (execPtmTimeout s) := by
  simp only [foot_execPtmTimeout, pms, within_or, within_zero, and_true] at hm
  unfold execPtmTimeout
  try dsimp only
  repeat' (first
    | with_reducible assumption | refine goes_next ?_ | with_reducible apply moves_finishWaiting |
    with_reducible apply moves_modKeeper | with_reducible apply goes_ite | with_reducible apply moves_ite | split |
    intro _ | simp only [hm])

end Sys2Proof.Laws
end

