-- ==== Sys2Proof/Laws/FootFirmware.lean ====
section
/-!
SUPPORT. The footprint of each operation of Machine/Firmware.lean: which register fields and parts of the state it may change.
-/
namespace Sys2Proof.Laws
open Sys2Proof.Machine

def foot_showFw : Nat := fms [.DEV_FW_VERSION, .DEV_DEVICE, .KP_FW_STATE, .KP_SLOT, .DVSEC_FW_VERSION,
    .DVSEC_FW_STATE, .DVSEC_RECOVERY]
theorem moves_showFw {m : Nat} {r : State} {s : State} (h : Moves m r s)
    (hm : Within foot_showFw m) : Moves m r (showFw s) := by
  simp only [foot_showFw, fms, within_or, within_zero, and_true] at hm
  unfold showFw
  try dsimp only
  repeat' (first
    | with_reducible assumption | with_reducible intro _ | with_reducible apply moves_each |
    with_reducible apply moves_wr | with_reducible apply moves_ite | split | simp only [hm])

def foot_showMgr : Nat := fms [.DEV_MGR_SMP, .DEV_MGR_LINK, .DVSEC_MANAGER]
theorem moves_showMgr {m : Nat} {r : State} {s : State} (h : Moves m r s)
    (hm : Within foot_showMgr m) : Moves m r (showMgr s) := by
  simp only [foot_showMgr, fms, within_or, within_zero, and_true] at hm
  unfold showMgr
  try dsimp only
  repeat' (first
    | with_reducible assumption | with_reducible apply moves_each | with_reducible apply moves_wr |
    with_reducible apply moves_ite | split | intro _ | simp only [hm])

def foot_journalUpd : Nat := foot_journal
theorem moves_journalUpd {m : Nat} {r : State} {event slot : ℕ} {s : State} (h : Moves m r s)
    (hm : Within foot_journalUpd m) : Moves m r (journalUpd event slot s) := by
  simp only [foot_journalUpd] at hm
  unfold journalUpd
  try dsimp only
  repeat' (first
    | with_reducible assumption | with_reducible apply moves_journal)

def foot_runSlot : Nat := pms [.upd]
theorem moves_runSlot {m : Nat} {r : State} {i : ℕ} {s : State} (h : Moves m r s)
    (hm : Within foot_runSlot m) : Moves m r (runSlot i s) := by
  simp only [foot_runSlot, pms, within_or, within_zero, and_true] at hm
  unfold runSlot
  try dsimp only
  repeat' (first
    | with_reducible assumption | with_reducible apply moves_modUpd | with_reducible apply moves_ite | split | intro _
    | (with_reducible exact fuses_same rfl rfl rfl rfl rfl))

def foot_runNone : Nat := pms [.upd]
theorem moves_runNone {m : Nat} {r : State} {s : State} (h : Moves m r s)
    (hm : Within foot_runNone m) : Moves m r (runNone s) := by
  simp only [foot_runNone, pms, within_or, within_zero, and_true] at hm
  unfold runNone
  try dsimp only
  repeat' (first
    | with_reducible assumption | with_reducible apply moves_draw | with_reducible apply moves_modUpd |
    with_reducible apply moves_ite | split | intro _ | (with_reducible exact fuses_same rfl rfl rfl rfl rfl))

def foot_endTrial : Nat := pms [.upd]
theorem moves_endTrial {m : Nat} {r : State} {keep : Bool} {s : State} (h : Moves m r s)
    (hm : Within foot_endTrial m) : Moves m r (endTrial keep s) := by
  simp only [foot_endTrial, pms, within_or, within_zero, and_true] at hm
  unfold endTrial
  try dsimp only
  repeat' (first
    | with_reducible assumption | with_reducible apply moves_modUpd | with_reducible apply moves_ite | split | intro _
    | (with_reducible exact fuses_same rfl rfl rfl rfl rfl) |
    (unfold UpdS.setSlot; (repeat' split) <;> first | exact fuses_same rfl rfl rfl rfl rfl | exact ⟨rfl, rfl, rfl, rfl, Nat.le_max_left _ _⟩))

def foot_bootSlot : Nat := foot_journalUpd ||| foot_setUpdState ||| foot_runSlot ||| foot_endTrial ||| foot_runNone
    ||| pms [.upd]
theorem moves_bootSlot {m : Nat} {r : State} {s : State} (h : Moves m r s)
    (hm : Within foot_bootSlot m) : Moves m r (bootSlot s) := by
  simp only [foot_bootSlot, pms, within_or, within_zero, and_true] at hm
  unfold bootSlot
  try dsimp only
  repeat' (first
    | with_reducible assumption | with_reducible apply moves_journalUpd | with_reducible apply moves_setUpdState |
    with_reducible apply moves_runSlot | with_reducible apply moves_modUpd | with_reducible apply moves_endTrial |
    with_reducible apply moves_runNone | with_reducible apply moves_ite | split | intro _ |
    (with_reducible exact fuses_same rfl rfl rfl rfl rfl) |
    (unfold UpdS.setSlot; (repeat' split) <;> first | exact fuses_same rfl rfl rfl rfl rfl | exact ⟨rfl, rfl, rfl, rfl, Nat.le_max_left _ _⟩)
    | simp only [hm])

def foot_bootNone : Nat := foot_runNone ||| foot_journalUpd ||| foot_setUpdState ||| foot_endTrial
theorem moves_bootNone {m : Nat} {r : State} {s : State} (h : Moves m r s)
    (hm : Within foot_bootNone m) : Moves m r (bootNone s) := by
  simp only [foot_bootNone, within_or] at hm
  unfold bootNone
  try dsimp only
  repeat' (first
    | with_reducible assumption | with_reducible intro _ | with_reducible apply moves_runNone |
    with_reducible apply moves_journalUpd | with_reducible apply moves_setUpdState | with_reducible apply moves_endTrial
    | with_reducible apply moves_ite | split | simp only [hm])

def foot_setBankLost : Nat := fms [.PW_BANK_LOST_LO, .PW_BANK_LOST_HI]
theorem moves_setBankLost {m : Nat} {r : State} {b : ℕ} {lost : Bool} {s : State} (h : Moves m r s)
    (hm : Within foot_setBankLost m) : Moves m r (setBankLost b lost s) := by
  simp only [foot_setBankLost, fms, within_or, within_zero, and_true] at hm
  unfold setBankLost
  try dsimp only
  repeat' (first
    | with_reducible assumption | with_reducible apply moves_wr | with_reducible apply moves_ite | split | intro _ |
    simp only [hm])

def foot_applyPort : Nat := pms [.hls] ||| fms [.HL_BIFUR, .HL_CLKMODE, .HL_BIFUR_NEXT, .HL_CLKMODE_NEXT,
    .HL_CFG_PENDING, .HL_PRESENT, .HL_MAX_WIDTH, .HL_TARGET_SPEED]
theorem moves_applyPort {m : Nat} {r : State} {p : Nat} {s : State} (h : Moves m r s)
    (hm : Within foot_applyPort m) : Moves m r (applyPort p s) := by
  simp only [foot_applyPort, fms, pms, within_or, within_zero, and_true] at hm
  unfold applyPort
  try dsimp only
  repeat' (first
    | with_reducible assumption | with_reducible intro _ | with_reducible apply moves_each |
    with_reducible apply moves_wr | with_reducible apply moves_modHl | with_reducible apply moves_ite | split |
    simp only [hm])

def foot_retrainHl0 : Nat := foot_linkDown
theorem moves_retrainHl0 {m : Nat} {r : State} {s : State} (h : Moves m r s)
    (hm : Within foot_retrainHl0 m) : Moves m r (retrainHl0 s) := by
  simp only [foot_retrainHl0] at hm
  unfold retrainHl0
  try dsimp only
  repeat' (first
    | with_reducible assumption | with_reducible intro _ | with_reducible apply moves_emit |
    with_reducible apply moves_linkDown | with_reducible apply moves_ite | split | simp only [hm])

def foot_recoveryPorts : Nat := foot_linkDown ||| foot_retrainHl0 ||| foot_clearVfs ||| foot_applyPort |||
    foot_showClkreq ||| foot_showPools ||| foot_showRefclk ||| fms [.HL_LTSSM]
theorem moves_recoveryPorts {m : Nat} {r : State} {s : State} (h : Moves m r s)
    (hm : Within foot_recoveryPorts m) : Moves m r (recoveryPorts s) := by
  simp only [foot_recoveryPorts, fms, within_or, within_zero, and_true] at hm
  unfold recoveryPorts
  try dsimp only
  repeat' (first
    | with_reducible assumption | with_reducible intro _ | with_reducible apply moves_when |
    with_reducible apply moves_each | with_reducible apply moves_wr | with_reducible apply moves_linkDown |
    with_reducible apply moves_retrainHl0 | with_reducible apply moves_clearVfs | with_reducible apply moves_applyPort |
    with_reducible apply moves_showClkreq | with_reducible apply moves_showPools | with_reducible apply moves_showRefclk
    | with_reducible apply moves_ite | split | simp only [hm])

def foot_enterRecovery : Nat := foot_recoveryPorts ||| (foot_setMode .TI_RECOVERY) ||| foot_setKState ||| pms
    [.keeper] ||| fms [.PW_RECOVERY]
theorem moves_enterRecovery {m : Nat} {r : State} {s : State} (h : Moves m r s)
    (hm : Within foot_enterRecovery m) : Moves m r (enterRecovery s) := by
  simp only [foot_enterRecovery, fms, pms, within_or, within_zero, and_true] at hm
  unfold enterRecovery
  try dsimp only
  repeat' (first
    | with_reducible assumption | with_reducible intro _ | with_reducible apply moves_wr |
    with_reducible apply moves_modKeeper | with_reducible apply moves_recoveryPorts | with_reducible apply moves_setMode
    | with_reducible apply moves_setKState | with_reducible apply moves_ite | split | simp only [hm])

def foot_keeperStarts : Nat := foot_setKState ||| foot_enterRecovery ||| fms [.PW_RECOVERY]
theorem moves_keeperStarts {m : Nat} {r : State} {s : State} (h : Moves m r s)
    (hm : Within foot_keeperStarts m) : Moves m r (keeperStarts s) := by
  simp only [foot_keeperStarts, fms, within_or, within_zero, and_true] at hm
  unfold keeperStarts
  try dsimp only
  repeat' (first
    | with_reducible assumption | with_reducible intro _ | with_reducible apply moves_wr |
    with_reducible apply moves_setKState | with_reducible apply moves_enterRecovery | with_reducible apply moves_ite |
    split | simp only [hm])

def foot_rebuildDirs : Nat := foot_rebuildDir
theorem moves_rebuildDirs {m : Nat} {r : State} {all : Bool} {s : State} (h : Moves m r s)
    (hm : Within foot_rebuildDirs m) : Moves m r (rebuildDirs all s) := by
  simp only [foot_rebuildDirs] at hm
  unfold rebuildDirs
  try dsimp only
  repeat' (first
    | with_reducible assumption | with_reducible apply moves_each | with_reducible apply moves_rebuildDir |
    with_reducible apply moves_ite | split | intro _)

def foot_testKeeperBanks : Nat := foot_setBankLost
theorem moves_testKeeperBanks {m : Nat} {r : State} {s : State} {k : Bool → State → State} (hk : ∀ y z, Moves m r z →
    Moves m r (k y z)) (h : Moves m r s)
    (hm : Within foot_testKeeperBanks m) : Moves m r (testKeeperBanks s k) := by
  simp only [foot_testKeeperBanks] at hm
  unfold testKeeperBanks
  try dsimp only
  repeat' (first
    | with_reducible assumption | with_reducible apply moves_choose | with_reducible apply moves_each |
    with_reducible apply moves_setBankLost | with_reducible apply hk | with_reducible apply moves_ite | split |
    intro _)

def foot_restartDone : Nat := foot_testKeeperBanks ||| foot_keeperStarts ||| foot_bootSlot ||| foot_bootNone |||
    foot_showMgr ||| foot_showFw ||| foot_rebuildDirs ||| foot_finishWaiting ||| pms [.keeper]
theorem moves_restartDone {m : Nat} {r : State} {s : State} (h : Moves m r s)
    (hm : Within foot_restartDone m) : Moves m r (restartDone s) := by
  simp only [foot_restartDone, pms, within_or, within_zero, and_true] at hm
  unfold restartDone
  try dsimp only
  repeat' (first
    | with_reducible assumption | with_reducible intro _ | with_reducible apply moves_modKeeper |
    with_reducible apply moves_testKeeperBanks | with_reducible apply moves_keeperStarts |
    with_reducible apply moves_bootSlot | with_reducible apply moves_bootNone | with_reducible apply moves_showMgr |
    with_reducible apply moves_showFw | with_reducible apply moves_rebuildDirs |
    with_reducible apply moves_finishWaiting | with_reducible apply moves_ite | split | simp only [hm])

def foot_execKeeperWatchdog : Nat := foot_enterRestart ||| foot_ward ||| fms [.KP_WDOG_CNT]
theorem moves_execKeeperWatchdog {m : Nat} {r : State} {s : State} (h : Moves m r s)
    (hm : Within foot_execKeeperWatchdog m) : Goes m r (execKeeperWatchdog s) := by
  simp only [foot_execKeeperWatchdog, fms, within_or, within_zero, and_true] at hm
  unfold execKeeperWatchdog
  try dsimp only
  repeat' (first
    | with_reducible assumption | refine goes_next ?_ | with_reducible apply moves_when |
    with_reducible apply moves_enterRestart | with_reducible apply moves_ward | with_reducible apply moves_inc |
    with_reducible apply goes_ite | with_reducible apply moves_ite | split | intro _ | simp only [hm])

def foot_execDrainTimeout : Nat := foot_enterRestart
theorem moves_execDrainTimeout {m : Nat} {r : State} {s : State} (h : Moves m r s)
    (hm : Within foot_execDrainTimeout m) : Goes m r (execDrainTimeout s) := by
  simp only [foot_execDrainTimeout] at hm
  unfold execDrainTimeout
  try dsimp only
  repeat' (first
    | with_reducible assumption | refine goes_next ?_ | with_reducible apply moves_when |
    with_reducible apply moves_enterRestart | with_reducible apply goes_ite | with_reducible apply moves_ite | split |
    intro _)

def foot_execKeeperRestartDone : Nat := foot_restartDone
theorem moves_execKeeperRestartDone {m : Nat} {r : State} {s : State} (h : Moves m r s)
    (hm : Within foot_execKeeperRestartDone m) : Goes m r (execKeeperRestartDone s) := by
  simp only [foot_execKeeperRestartDone] at hm
  unfold execKeeperRestartDone
  try dsimp only
  repeat' (first
    | with_reducible assumption | refine goes_next ?_ | with_reducible apply moves_when |
    with_reducible apply moves_restartDone | with_reducible apply goes_ite | with_reducible apply moves_ite | split |
    intro _)

end Sys2Proof.Laws
end

