-- ==== Sys2Proof/Laws/FootLinkOps.lean ====
section
/-!
SUPPORT. The footprint of each operation of Machine/LinkOps.lean: which register fields and parts of the state it may change.
-/
namespace Sys2Proof.Laws
open Sys2Proof.Machine

def foot_emitGrain : Nat := foot_sendSlot ||| pms [.wls, .wps] ||| fms [.WP_LN_INJ_CNT]
theorem moves_emitGrain {m : Nat} {r : State} {n : Nat} {inject : Bool} {g : Grain} {s : State} (h : Moves m r s)
    (hm : Within foot_emitGrain m) : Moves m r (emitGrain n inject g s) := by
  simp only [foot_emitGrain, pms, fms, within_or, within_zero, and_true] at hm
  have h1 : ∀ i k (sg : State × Grain), Moves m r sg.1 → Moves m r (injectLane n i k sg).1 := by
    intro i k sg hs
    unfold injectLane
    dsimp only
    have hc : Moves m r { sg.1 with free := sg.1.free + 1 } := moves_count hs (Nat.le_succ _)
    repeat' (first
      | with_reducible assumption | split | with_reducible apply moves_modWp | with_reducible apply moves_add
      | exact hc | simp only [hm])
  have h2 : ∀ i (l : List Nat) (sg : State × Grain), Moves m r sg.1 →
      Moves m r (l.foldl (fun sg k => injectLane n i k sg) sg).1 := by
    intro i l
    induction l with
    | nil => exact fun _ hs => hs
    | cons a t ih => exact fun sg hs => ih _ (h1 i a sg hs)
  unfold emitGrain
  refine moves_draw h (fun i z hz => ?_)
  dsimp only
  refine moves_sendSlot (moves_modWl ?_ (by simp only [hm])) (by simp only [hm])
  split
  · exact h2 _ _ _ hz
  · exact hz

def foot_sendSeq : Nat := foot_emitGrain ||| pms [.wls] ||| fms [.WL_NEXT_TX, .WL_UNACKED, .WL_TX_CNT]
theorem moves_sendSeq {m : Nat} {r : State} {n typ sop eop : Nat} {payload : Bytes} {counted : Nat} {s : State} (h :
    Moves m r s)
    (hm : Within foot_sendSeq m) : Moves m r (sendSeq n typ sop eop payload counted s) := by
  simp only [foot_sendSeq, fms, pms, within_or, within_zero, and_true] at hm
  unfold sendSeq
  try dsimp only
  repeat' (first
    | with_reducible assumption | with_reducible intro _ | with_reducible apply moves_wr |
    with_reducible apply moves_inc | with_reducible apply moves_modWl | with_reducible apply moves_emitGrain |
    with_reducible apply moves_ite | split | simp only [hm])

def foot_flushHalf : Nat := foot_sendSeq ||| pms [.wls]
theorem moves_flushHalf {m : Nat} {r : State} {n : Nat} {s : State} (h : Moves m r s)
    (hm : Within foot_flushHalf m) : Moves m r (flushHalf n s) := by
  simp only [foot_flushHalf, pms, within_or, within_zero, and_true] at hm
  unfold flushHalf
  try dsimp only
  repeat' (first
    | with_reducible assumption | with_reducible intro _ | with_reducible apply moves_modWl |
    with_reducible apply moves_sendSeq | with_reducible apply moves_ite | split | simp only [hm])

def foot_sendAck : Nat := foot_flushHalf ||| foot_emitGrain
theorem moves_sendAck {m : Nat} {r : State} {n : Nat} {s : State} (h : Moves m r s)
    (hm : Within foot_sendAck m) : Moves m r (sendAck n s) := by
  simp only [foot_sendAck, within_or] at hm
  unfold sendAck
  try dsimp only
  repeat' (first
    | with_reducible assumption | with_reducible intro _ | with_reducible apply moves_flushHalf |
    with_reducible apply moves_emitGrain | with_reducible apply moves_ite | split | simp only [hm])

def foot_drainMsgs : Nat := foot_sendSeq ||| pms [.wls]
theorem moves_drainMsgs {m : Nat} {r : State} {n a0 : Nat} {a1 : State} (h : Moves m r a1)
    (hm : Within foot_drainMsgs m) : Moves m r (drainMsgs n a0 a1) := by
  simp only [foot_drainMsgs, pms, within_or, within_zero, and_true] at hm
  induction a0 generalizing a1 with
  | zero => exact h
  | succ k ih =>
    unfold drainMsgs
    try dsimp only
    repeat' (first
      | with_reducible assumption | with_reducible intro _ | with_reducible apply ih | with_reducible apply moves_modWl |
      with_reducible apply moves_sendSeq | with_reducible apply moves_ite | split | simp only [hm])

def foot_sendLinkMsg : Nat := foot_drainMsgs ||| pms [.wls]
theorem moves_sendLinkMsg {m : Nat} {r : State} {n msg id set reason : ℕ} {s : State} (h : Moves m r s)
    (hm : Within foot_sendLinkMsg m) : Moves m r (sendLinkMsg n msg id set reason s) := by
  simp only [foot_sendLinkMsg, pms, within_or, within_zero, and_true] at hm
  unfold sendLinkMsg
  try dsimp only
  repeat' (first
    | with_reducible assumption | with_reducible apply moves_drainMsgs | with_reducible apply moves_modWl |
    with_reducible apply moves_ite | split | intro _ | simp only [hm])

def foot_showCredits : Nat := fms [.WL_AVAIL_P, .WL_AVAIL_N, .WL_AVAIL_C]
theorem moves_showCredits {m : Nat} {r : State} {n : Nat} {s : State} (h : Moves m r s)
    (hm : Within foot_showCredits m) : Moves m r (showCredits n s) := by
  unfold showCredits
  dsimp only
  refine moves_each h (fun c z hz => moves_wr hz (within_fms ?_ hm))
  unfold availFld
  split <;> [skip; split] <;> simp

def foot_freeGrains : Nat := foot_drainMsgs ||| pms [.wls] ||| fms [.WL_REPLAY_COUNT, .WL_UNACKED, .WL_OLDEST]
theorem moves_freeGrains {m : Nat} {r : State} {n d : ℕ} {s : State} (h : Moves m r s)
    (hm : Within foot_freeGrains m) : Moves m r (freeGrains n d s) := by
  simp only [foot_freeGrains, fms, pms, within_or, within_zero, and_true] at hm
  unfold freeGrains
  try dsimp only
  repeat' (first
    | with_reducible assumption | with_reducible apply moves_modWl | with_reducible apply moves_wr |
    with_reducible apply moves_drainMsgs | with_reducible apply moves_ite | split | intro _ | simp only [hm])

def foot_linkLine : Nat := foot_ward
theorem moves_linkLine {m : Nat} {r : State} {line n : ℕ} {s : State} (h : Moves m r s)
    (hm : Within foot_linkLine m) : Moves m r (linkLine line n s) := by
  simp only [foot_linkLine] at hm
  unfold linkLine
  try dsimp only
  repeat' (first
    | with_reducible assumption | with_reducible apply moves_ward)

def foot_applyAck : Nat := foot_freeGrains ||| foot_linkLine ||| fms [.WL_ACKOOW_CNT, .WL_ACK_OOW]
theorem moves_applyAck {m : Nat} {r : State} {n a : ℕ} {s : State} (h : Moves m r s)
    (hm : Within foot_applyAck m) : Moves m r (applyAck n a s) := by
  simp only [foot_applyAck, fms, within_or, within_zero, and_true] at hm
  unfold applyAck
  try dsimp only
  repeat' (first
    | with_reducible assumption | with_reducible apply moves_freeGrains | with_reducible apply moves_linkLine |
    with_reducible apply moves_inc | with_reducible apply moves_wr | with_reducible apply moves_ite | split | intro _
    | simp only [hm])

def foot_replayAll : Nat := foot_emitGrain
theorem moves_replayAll {m : Nat} {r : State} {n : ℕ} {s : State} (h : Moves m r s)
    (hm : Within foot_replayAll m) : Moves m r (replayAll n s) := by
  simp only [foot_replayAll] at hm
  unfold replayAll
  try dsimp only
  repeat' (first
    | with_reducible assumption | with_reducible apply moves_each | with_reducible apply moves_emitGrain |
    with_reducible apply moves_ite | split | intro _)

def foot_startReplay : Nat := foot_trace ||| foot_linkLine ||| foot_replayAll ||| fms [.WL_REPLAY, .WL_REPLAY_CNT]
theorem moves_startReplay {m : Nat} {r : State} {n : Nat} {s : State} (h : Moves m r s)
    (hm : Within foot_startReplay m) : Moves m r (startReplay n s) := by
  simp only [foot_startReplay, fms, within_or, within_zero, and_true] at hm
  unfold startReplay
  try dsimp only
  repeat' (first
    | with_reducible assumption | with_reducible intro _ | with_reducible apply moves_when |
    with_reducible apply moves_wr | with_reducible apply moves_inc | with_reducible apply moves_trace |
    with_reducible apply moves_linkLine | with_reducible apply moves_replayAll | with_reducible apply moves_ite | split
    | simp only [hm])

def foot_countReplay : Nat := fms [.WL_REPLAY_COUNT]
theorem moves_countReplay {m : Nat} {r : State} {n : Nat} {s : State} (h : Moves m r s)
    (hm : Within foot_countReplay m) : Moves m r (countReplay n s) := by
  simp only [foot_countReplay, fms, within_or, within_zero, and_true] at hm
  unfold countReplay
  try dsimp only
  repeat' (first
    | with_reducible assumption | with_reducible intro _ | with_reducible apply moves_wr |
    with_reducible apply moves_ite | split | simp only [hm])

def foot_applyCredit : Nat := pms [.wls]
theorem moves_applyCredit {m : Nat} {r : State} {n c total : ℕ} {s : State} (h : Moves m r s)
    (hm : Within foot_applyCredit m) : Moves m r (applyCredit n c total s) := by
  simp only [foot_applyCredit, pms, within_or, within_zero, and_true] at hm
  unfold applyCredit
  try dsimp only
  repeat' (first
    | with_reducible assumption | with_reducible apply moves_when | with_reducible apply moves_modWl |
    with_reducible apply moves_ite | split | intro _)

def foot_applyCtl : Nat := pms [.wps]
theorem moves_applyCtl {m : Nat} {r : State} {n : Nat} {s : State} (h : Moves m r s)
    (hm : Within foot_applyCtl m) : Moves m r (applyCtl n s) := by
  simp only [foot_applyCtl, pms, within_or, within_zero, and_true] at hm
  unfold applyCtl
  try dsimp only
  repeat' (first
    | with_reducible assumption | with_reducible intro _ | with_reducible apply moves_modWp |
    with_reducible apply moves_ite | split | simp only [hm])

def foot_settlePrbs : Nat := foot_countPrbs ||| pms [.wps] ||| fms [.WP_PRBS_PEND, .WP_LSTATE, .WP_PRBS_SYNC]
theorem moves_settlePrbs {m : Nat} {r : State} {n k : Nat} {s : State} (h : Moves m r s)
    (hm : Within foot_settlePrbs m) : Moves m r (settlePrbs n k s) := by
  simp only [foot_settlePrbs, fms, pms, within_or, within_zero, and_true] at hm
  unfold settlePrbs
  try dsimp only
  repeat' (first
    | with_reducible assumption | with_reducible intro _ | with_reducible apply moves_wr |
    with_reducible apply moves_modWp | with_reducible apply moves_countPrbs | with_reducible apply moves_ite | split |
    simp only [hm])

def foot_setLane : Nat := foot_settlePrbs ||| pms [.wps] ||| fms [.WP_LSTATE, .WP_HEALTH, .WP_EYE_H, .WP_EYE_W]
theorem moves_setLane {m : Nat} {r : State} {n k st : ℕ} {s : State} (h : Moves m r s)
    (hm : Within foot_setLane m) : Moves m r (setLane n k st s) := by
  simp only [foot_setLane, fms, pms, within_or, within_zero, and_true] at hm
  unfold setLane
  try dsimp only
  repeat' (first
    | with_reducible assumption | with_reducible apply moves_draw | with_reducible apply moves_modWp |
    with_reducible apply moves_settlePrbs | with_reducible apply moves_wr | with_reducible apply moves_ite | split |
    intro _ | simp only [hm])

def foot_moveLane : Nat := foot_shown ||| foot_setLane
theorem moves_moveLane {m : Nat} {r : State} {n k st : Nat} {s : State} (h : Moves m r s)
    (hm : Within foot_moveLane m) : Moves m r (moveLane n k st s) := by
  simp only [foot_moveLane, within_or] at hm
  unfold moveLane
  try dsimp only
  repeat' (first
    | with_reducible assumption | with_reducible intro _ | with_reducible apply moves_shown |
    with_reducible apply moves_setLane | with_reducible apply moves_ite | split | simp only [hm])

def foot_setLanes : Nat := foot_setLane
theorem moves_setLanes {m : Nat} {r : State} {n : ℕ} {f : ℕ → ℕ} {s : State} (h : Moves m r s)
    (hm : Within foot_setLanes m) : Moves m r (setLanes n f s) := by
  simp only [foot_setLanes] at hm
  unfold setLanes
  try dsimp only
  repeat' (first
    | with_reducible assumption | with_reducible apply moves_each | with_reducible apply moves_setLane |
    with_reducible apply moves_ite | split | intro _)

def foot_endReshape : Nat := pms [.wls, .wps] ||| fms [.WL_RESHAPE_BUSY]
theorem moves_endReshape {m : Nat} {r : State} {n : ℕ} {s : State} (h : Moves m r s)
    (hm : Within foot_endReshape m) : Moves m r (endReshape n s) := by
  simp only [foot_endReshape, fms, pms, within_or, within_zero, and_true] at hm
  unfold endReshape
  try dsimp only
  repeat' (first
    | with_reducible assumption | with_reducible apply moves_modWl | with_reducible apply moves_modWp |
    with_reducible apply moves_wr | with_reducible apply moves_ite | split | intro _ | simp only [hm])

def foot_dropBackground : Nat := foot_moveLane
theorem moves_dropBackground {m : Nat} {r : State} {n : Nat} {s : State} (h : Moves m r s)
    (hm : Within foot_dropBackground m) : Moves m r (dropBackground n s) := by
  simp only [foot_dropBackground] at hm
  unfold dropBackground
  try dsimp only
  repeat' (first
    | with_reducible assumption | with_reducible intro _ | with_reducible apply moves_when |
    with_reducible apply moves_each | with_reducible apply moves_moveLane | with_reducible apply moves_ite | split |
    simp only [hm])

def foot_keepOldSet : Nat := foot_shown ||| foot_moveLane ||| pms [.wps] ||| fms [.WP_ACTIVE_MASK, .WL_ACTIVE_SET]
theorem moves_keepOldSet {m : Nat} {r : State} {n : Nat} {s : State} (h : Moves m r s)
    (hm : Within foot_keepOldSet m) : Moves m r (keepOldSet n s) := by
  simp only [foot_keepOldSet, fms, pms, within_or, within_zero, and_true] at hm
  unfold keepOldSet
  try dsimp only
  repeat' (first
    | with_reducible assumption | with_reducible intro _ | with_reducible apply moves_when |
    with_reducible apply moves_each | with_reducible apply moves_wr | with_reducible apply moves_modWp |
    with_reducible apply moves_shown | with_reducible apply moves_moveLane | with_reducible apply moves_ite | split |
    simp only [hm])

def foot_failReshape : Nat := foot_trace ||| foot_endReshape ||| foot_dropBackground ||| foot_keepOldSet ||| fms
    [.WL_RESHAPE_FAIL]
theorem moves_failReshape {m : Nat} {r : State} {n reason : Nat} {s : State} (h : Moves m r s)
    (hm : Within foot_failReshape m) : Moves m r (failReshape n reason s) := by
  simp only [foot_failReshape, fms, within_or, within_zero, and_true] at hm
  unfold failReshape
  try dsimp only
  repeat' (first
    | with_reducible assumption | with_reducible intro _ | with_reducible apply moves_wr |
    with_reducible apply moves_trace | with_reducible apply moves_endReshape | with_reducible apply moves_dropBackground
    | with_reducible apply moves_keepOldSet | with_reducible apply moves_ite | split | simp only [hm])

def foot_dropReshape : Nat := foot_endReshape ||| foot_dropBackground ||| pms [.wls]
theorem moves_dropReshape {m : Nat} {r : State} {n : ℕ} {s : State} (h : Moves m r s)
    (hm : Within foot_dropReshape m) : Moves m r (dropReshape n s) := by
  simp only [foot_dropReshape, pms, within_or, within_zero, and_true] at hm
  unfold dropReshape
  try dsimp only
  repeat' (first
    | with_reducible assumption | with_reducible apply moves_modWl | with_reducible apply moves_endReshape |
    with_reducible apply moves_dropBackground | with_reducible apply moves_ite | split | intro _ | simp only [hm])

def foot_failBridge : Nat := foot_answered ||| foot_bridgeFails ||| pms [.wls]
theorem moves_failBridge {m : Nat} {r : State} {n code : Nat} {s : State} (h : Moves m r s)
    (hm : Within foot_failBridge m) : Moves m r (failBridge n code s) := by
  simp only [foot_failBridge, pms, within_or, within_zero, and_true] at hm
  unfold failBridge
  try dsimp only
  repeat' (first
    | with_reducible assumption | with_reducible intro _ | with_reducible apply moves_each |
    with_reducible apply moves_modWl | with_reducible apply moves_answered | with_reducible apply moves_bridgeFails |
    with_reducible apply moves_ite | split | simp only [hm])

def foot_endWait : Nat := pms [.hls]
theorem moves_endWait {m : Nat} {r : State} {n : Nat} {k : InReq → State → State} {s : State} (hk : ∀ y0 z, Moves m
    r z → Moves m r (k y0 z)) (h : Moves m r s)
    (hm : Within foot_endWait m) : Moves m r (endWait n k s) := by
  simp only [foot_endWait, pms, within_or, within_zero, and_true] at hm
  unfold endWait
  try dsimp only
  repeat' (first
    | with_reducible assumption | with_reducible intro _ | with_reducible apply moves_each |
    with_reducible apply moves_modHl | with_reducible apply hk | with_reducible apply moves_ite | split | simp only [hm])

def foot_flushLink : Nat := foot_failBridge ||| foot_endWait ||| foot_unavailable ||| foot_inboundUr |||
    foot_linkLine ||| foot_trace ||| pms [.wls] ||| fms [.WL_FLUSHPKT_CNT, .WL_FLUSHED]
theorem moves_flushLink {m : Nat} {r : State} {n : Nat} {event : Bool} {s : State} (h : Moves m r s)
    (hm : Within foot_flushLink m) : Moves m r (flushLink n event s) := by
  simp only [foot_flushLink, fms, pms, within_or, within_zero, and_true] at hm
  unfold flushLink
  try dsimp only
  repeat' (first
    | with_reducible assumption | with_reducible intro _ | with_reducible apply moves_when |
    with_reducible apply moves_add | with_reducible apply moves_wr | with_reducible apply moves_modWl |
    with_reducible apply moves_failBridge | with_reducible apply moves_endWait | with_reducible apply moves_unavailable
    | with_reducible apply moves_inboundUr | with_reducible apply moves_linkLine | with_reducible apply moves_trace |
    with_reducible apply moves_ite | split | simp only [hm])

def foot_stopGrace : Nat := fms [.WL_GRACE_RUN]
theorem moves_stopGrace {m : Nat} {r : State} {n : ℕ} {s : State} (h : Moves m r s)
    (hm : Within foot_stopGrace m) : Moves m r (stopGrace n s) := by
  simp only [foot_stopGrace, fms, within_or, within_zero, and_true] at hm
  unfold stopGrace
  try dsimp only
  repeat' (first
    | with_reducible assumption | with_reducible apply moves_wr)

def foot_declareDown : Nat := foot_dropReshape ||| foot_trace ||| foot_linkLine ||| foot_flushLink ||| fms
    [.WL_LSTATE, .WL_GRACE_RUN, .WL_DOWN, .WL_DOWN_CNT]
theorem moves_declareDown {m : Nat} {r : State} {n : Nat} {s : State} (h : Moves m r s)
    (hm : Within foot_declareDown m) : Moves m r (declareDown n s) := by
  simp only [foot_declareDown, fms, within_or, within_zero, and_true] at hm
  unfold declareDown
  try dsimp only
  repeat' (first
    | with_reducible assumption | with_reducible intro _ | with_reducible apply moves_when |
    with_reducible apply moves_wr | with_reducible apply moves_inc | with_reducible apply moves_dropReshape |
    with_reducible apply moves_trace | with_reducible apply moves_linkLine | with_reducible apply moves_flushLink |
    with_reducible apply moves_ite | split | simp only [hm])

def foot_linkPhysDown : Nat := foot_declareDown ||| fms [.WL_LSTATE]
theorem moves_linkPhysDown {m : Nat} {r : State} {n : ℕ} {s : State} (h : Moves m r s)
    (hm : Within foot_linkPhysDown m) : Moves m r (linkPhysDown n s) := by
  simp only [foot_linkPhysDown, fms, within_or, within_zero, and_true] at hm
  unfold linkPhysDown
  try dsimp only
  repeat' (first
    | with_reducible assumption | with_reducible apply moves_wr | with_reducible apply moves_declareDown |
    with_reducible apply moves_ite | split | intro _ | simp only [hm])

def foot_clearTraining : Nat := fms [.WL_ACTIVE_SET, .WP_ACTIVE_MASK, .WP_CUR_RATE, .WP_CK_LOCK, .WP_CLK_LOCK,
    .WP_STATE]
theorem moves_clearTraining {m : Nat} {r : State} {n st : ℕ} {s : State} (h : Moves m r s)
    (hm : Within foot_clearTraining m) : Moves m r (clearTraining n st s) := by
  simp only [foot_clearTraining, fms, within_or, within_zero, and_true] at hm
  unfold clearTraining
  try dsimp only
  repeat' (first
    | with_reducible assumption | with_reducible apply moves_wr | with_reducible apply moves_ite | split | intro _ |
    simp only [hm])

def foot_showSelftest : Nat := (foot_setMode .TI_SELFTEST)
theorem moves_showSelftest {m : Nat} {r : State} {t : ℕ} {s : State} (h : Moves m r s)
    (hm : Within foot_showSelftest m) : Moves m r (showSelftest t s) := by
  simp only [foot_showSelftest] at hm
  unfold showSelftest
  try dsimp only
  repeat' (first
    | with_reducible assumption | with_reducible apply moves_setMode)

def foot_enterDisabled : Nat := foot_showSelftest ||| foot_shown ||| foot_clearTraining ||| foot_setLanes ||| pms
    [.wps] ||| fms [.WP_CK_DETECT]
theorem moves_enterDisabled {m : Nat} {r : State} {n : Nat} {s : State} (h : Moves m r s)
    (hm : Within foot_enterDisabled m) : Moves m r (enterDisabled n s) := by
  simp only [foot_enterDisabled, fms, pms, within_or, within_zero, and_true] at hm
  unfold enterDisabled
  try dsimp only
  repeat' (first
    | with_reducible assumption | with_reducible intro _ | with_reducible apply moves_wr |
    with_reducible apply moves_modWp | with_reducible apply moves_showSelftest | with_reducible apply moves_shown |
    with_reducible apply moves_clearTraining | with_reducible apply moves_setLanes | with_reducible apply moves_ite |
    split | simp only [hm])

def foot_enterLoopback : Nat := foot_showSelftest ||| foot_shown ||| foot_setLanes ||| foot_clearTraining
theorem moves_enterLoopback {m : Nat} {r : State} {n : Nat} {s : State} (h : Moves m r s)
    (hm : Within foot_enterLoopback m) : Moves m r (enterLoopback n s) := by
  simp only [foot_enterLoopback, within_or] at hm
  unfold enterLoopback
  try dsimp only
  repeat' (first
    | with_reducible assumption | with_reducible intro _ | with_reducible apply moves_showSelftest |
    with_reducible apply moves_shown | with_reducible apply moves_setLanes | with_reducible apply moves_clearTraining |
    with_reducible apply moves_ite | split | simp only [hm])

def foot_enterDetect : Nat := foot_shown ||| foot_applyCtl ||| foot_clearTraining ||| foot_setLanes |||
    foot_showSelftest ||| foot_sendTs1 ||| pms [.wps]
theorem moves_enterDetect {m : Nat} {r : State} {n : Nat} {s : State} (h : Moves m r s)
    (hm : Within foot_enterDetect m) : Moves m r (enterDetect n s) := by
  simp only [foot_enterDetect, pms, within_or, within_zero, and_true] at hm
  unfold enterDetect
  try dsimp only
  repeat' (first
    | with_reducible assumption | with_reducible intro _ | with_reducible apply moves_when |
    with_reducible apply moves_modWp | with_reducible apply moves_shown | with_reducible apply moves_applyCtl |
    with_reducible apply moves_clearTraining | with_reducible apply moves_setLanes |
    with_reducible apply moves_showSelftest | with_reducible apply moves_sendTs1 | with_reducible apply moves_ite |
    split | simp only [hm])

def foot_leaveDisabled : Nat := foot_enterLoopback ||| foot_enterDetect
theorem moves_leaveDisabled {m : Nat} {r : State} {n : ℕ} {s : State} (h : Moves m r s)
    (hm : Within foot_leaveDisabled m) : Moves m r (leaveDisabled n s) := by
  simp only [foot_leaveDisabled, within_or] at hm
  unfold leaveDisabled
  try dsimp only
  repeat' (first
    | with_reducible assumption | with_reducible apply moves_enterLoopback | with_reducible apply moves_enterDetect |
    with_reducible apply moves_ite | split | intro _ | simp only [hm])

def foot_restartPhy : Nat := foot_enterDetect ||| foot_enterDisabled
theorem moves_restartPhy {m : Nat} {r : State} {n : ℕ} {s : State} (h : Moves m r s)
    (hm : Within foot_restartPhy m) : Moves m r (restartPhy n s) := by
  simp only [foot_restartPhy, within_or] at hm
  unfold restartPhy
  try dsimp only
  repeat' (first
    | with_reducible assumption | with_reducible apply moves_enterDetect | with_reducible apply moves_enterDisabled |
    with_reducible apply moves_ite | split | intro _ | simp only [hm])

def foot_goDetect : Nat := foot_linkPhysDown ||| foot_restartPhy
theorem moves_goDetect {m : Nat} {r : State} {n : ℕ} {s : State} (h : Moves m r s)
    (hm : Within foot_goDetect m) : Moves m r (goDetect n s) := by
  simp only [foot_goDetect, within_or] at hm
  unfold goDetect
  try dsimp only
  repeat' (first
    | with_reducible assumption | with_reducible apply moves_linkPhysDown | with_reducible apply moves_restartPhy |
    with_reducible apply moves_ite | split | intro _ | simp only [hm])

def foot_goDisabled : Nat := foot_linkPhysDown ||| foot_enterDisabled
theorem moves_goDisabled {m : Nat} {r : State} {n : ℕ} {s : State} (h : Moves m r s)
    (hm : Within foot_goDisabled m) : Moves m r (goDisabled n s) := by
  simp only [foot_goDisabled, within_or] at hm
  unfold goDisabled
  try dsimp only
  repeat' (first
    | with_reducible assumption | with_reducible apply moves_when | with_reducible apply moves_linkPhysDown |
    with_reducible apply moves_enterDisabled | with_reducible apply moves_ite | split | intro _ | simp only [hm])

def foot_laneFault : Nat := foot_ward
theorem moves_laneFault {m : Nat} {r : State} {n : ℕ} {s : State} (h : Moves m r s)
    (hm : Within foot_laneFault m) : Moves m r (laneFault n s) := by
  simp only [foot_laneFault] at hm
  unfold laneFault
  try dsimp only
  repeat' (first
    | with_reducible assumption | with_reducible apply moves_ward)

def foot_countFail : Nat := pms [.wps] ||| fms [.WP_DOWNSHIFT]
theorem moves_countFail {m : Nat} {r : State} {n : Nat} {s : State} (h : Moves m r s)
    (hm : Within foot_countFail m) : Moves m r (countFail n s) := by
  simp only [foot_countFail, fms, pms, within_or, within_zero, and_true] at hm
  unfold countFail
  try dsimp only
  repeat' (first
    | with_reducible assumption | with_reducible intro _ | with_reducible apply moves_wr |
    with_reducible apply moves_modWp | with_reducible apply moves_ite | split | simp only [hm])

def foot_failAttempt : Nat := foot_laneFault ||| foot_goDetect ||| foot_countFail ||| pms [.wps] ||| fms
    [.WP_TRAIN_FAIL, .WP_FAIL_CNT]
theorem moves_failAttempt {m : Nat} {r : State} {n : Nat} {conflict : Bool} {s : State} (h : Moves m r s)
    (hm : Within foot_failAttempt m) : Moves m r (failAttempt n conflict s) := by
  simp only [foot_failAttempt, fms, pms, within_or, within_zero, and_true] at hm
  unfold failAttempt
  try dsimp only
  repeat' (first
    | with_reducible assumption | with_reducible intro _ | with_reducible apply moves_when |
    with_reducible apply moves_wr | with_reducible apply moves_inc | with_reducible apply moves_modWp |
    with_reducible apply moves_laneFault | with_reducible apply moves_goDetect | with_reducible apply moves_countFail |
    with_reducible apply moves_ite | split | simp only [hm])

def foot_fullChoice : Nat := pms [.wps] ||| fms [.WP_DOWNSHIFT]
theorem moves_fullChoice {m : Nat} {r : State} {n : ℕ} {s : State} (h : Moves m r s)
    (hm : Within foot_fullChoice m) : Moves m r (fullChoice n s) := by
  simp only [foot_fullChoice, fms, pms, within_or, within_zero, and_true] at hm
  unfold fullChoice
  try dsimp only
  repeat' (first
    | with_reducible assumption | with_reducible apply moves_wr | with_reducible apply moves_modWp |
    with_reducible apply moves_ite | split | intro _ | simp only [hm])

def foot_linkRetrain : Nat := foot_dropReshape ||| foot_trace ||| foot_linkPhysDown ||| pms [.wls] ||| fms
    [.WL_LSTATE, .WL_RETRAIN_CNT]
theorem moves_linkRetrain {m : Nat} {r : State} {n : Nat} {s : State} (h : Moves m r s)
    (hm : Within foot_linkRetrain m) : Moves m r (linkRetrain n s) := by
  simp only [foot_linkRetrain, fms, pms, within_or, within_zero, and_true] at hm
  unfold linkRetrain
  try dsimp only
  repeat' (first
    | with_reducible assumption | with_reducible intro _ | with_reducible apply moves_wr |
    with_reducible apply moves_inc | with_reducible apply moves_modWl | with_reducible apply moves_dropReshape |
    with_reducible apply moves_trace | with_reducible apply moves_linkPhysDown | with_reducible apply moves_ite | split
    | simp only [hm])

def foot_enterRetrain : Nat := foot_shown ||| foot_applyCtl ||| foot_linkRetrain ||| foot_setLane ||| foot_sendTs1
    ||| pms [.wps] ||| fms [.WP_STATE]
theorem moves_enterRetrain {m : Nat} {r : State} {n : Nat} {s : State} (h : Moves m r s)
    (hm : Within foot_enterRetrain m) : Moves m r (enterRetrain n s) := by
  simp only [foot_enterRetrain, fms, pms, within_or, within_zero, and_true] at hm
  unfold enterRetrain
  try dsimp only
  repeat' (first
    | with_reducible assumption | with_reducible intro _ | with_reducible apply moves_each |
    with_reducible apply moves_wr | with_reducible apply moves_modWp | with_reducible apply moves_shown |
    with_reducible apply moves_applyCtl | with_reducible apply moves_linkRetrain | with_reducible apply moves_setLane |
    with_reducible apply moves_sendTs1 | with_reducible apply moves_ite | split | simp only [hm])

def foot_sendInit : Nat := foot_emitGrain
theorem moves_sendInit {m : Nat} {r : State} {n : Nat} {s : State} (h : Moves m r s)
    (hm : Within foot_sendInit m) : Moves m r (sendInit n s) := by
  simp only [foot_sendInit] at hm
  unfold sendInit
  try dsimp only
  repeat' (first
    | with_reducible assumption | with_reducible intro _ | with_reducible apply moves_emitGrain |
    with_reducible apply moves_ite | split | simp only [hm])

def foot_newLinkId : Nat := pms [.wls]
theorem moves_newLinkId {m : Nat} {r : State} {n : ℕ} {s : State} (h : Moves m r s)
    (hm : Within foot_newLinkId m) : Moves m r (newLinkId n s) := by
  simp only [foot_newLinkId, pms, within_or, within_zero, and_true] at hm
  unfold newLinkId
  try dsimp only
  repeat' (first
    | with_reducible assumption | with_reducible apply moves_draw | with_reducible apply moves_modWl |
    with_reducible apply moves_ite | split | intro _)

def foot_startInit : Nat := foot_newLinkId ||| foot_sendInit ||| pms [.wls] ||| fms [.WL_LSTATE]
theorem moves_startInit {m : Nat} {r : State} {n : ℕ} {resume : Bool} {s : State} (h : Moves m r s)
    (hm : Within foot_startInit m) : Moves m r (startInit n resume s) := by
  simp only [foot_startInit, fms, pms, within_or, within_zero, and_true] at hm
  unfold startInit
  try dsimp only
  repeat' (first
    | with_reducible assumption | with_reducible apply moves_newLinkId | with_reducible apply moves_modWl |
    with_reducible apply moves_sendInit | with_reducible apply moves_wr | with_reducible apply moves_ite | split |
    intro _ | simp only [hm])

def foot_linkPhysActive : Nat := foot_startInit ||| foot_startReplay ||| foot_sendHalt ||| fms [.WL_LSTATE,
    .WL_REPLAY_COUNT]
theorem moves_linkPhysActive {m : Nat} {r : State} {n : Nat} {s : State} (h : Moves m r s)
    (hm : Within foot_linkPhysActive m) : Moves m r (linkPhysActive n s) := by
  simp only [foot_linkPhysActive, fms, within_or, within_zero, and_true] at hm
  unfold linkPhysActive
  try dsimp only
  repeat' (first
    | with_reducible assumption | with_reducible intro _ | with_reducible apply moves_wr |
    with_reducible apply moves_startInit | with_reducible apply moves_startReplay | with_reducible apply moves_sendHalt
    | with_reducible apply moves_ite | split | simp only [hm])

def foot_forgetLink : Nat := pms [.tags, .hostQ, .locReqs, .sheafPkts]
theorem moves_forgetLink {m : Nat} {r : State} {n : Nat} {s : State} (h : Moves m r s)
    (hm : Within foot_forgetLink m) : Moves m r (forgetLink n s) := by
  simp only [foot_forgetLink, pms, within_or, within_zero, and_true] at hm
  unfold forgetLink
  try dsimp only
  repeat' (first
    | with_reducible assumption | with_reducible intro _ | with_reducible apply moves_mapTags |
    with_reducible apply moves_ite | split | with_reducible apply moves_part_hostQ |
    with_reducible apply moves_part_locReqs | with_reducible apply moves_part_sheafPkts |
    with_reducible apply moves_parts | with_reducible exact Or.inl rfl | (refine Or.inr ?_; simp only [hm]) |
    simp only [hm])

def foot_startFresh : Nat := foot_forgetLink ||| foot_trace ||| foot_showCredits ||| pms [.wls] |||
    fms
    [.WL_NEXT_TX, .WL_OLDEST, .WL_NEXT_RX, .WL_UNACKED, .WL_REPLAY_COUNT, .WL_RESUMED]
theorem moves_startFresh {m : Nat} {r : State} {n : Nat} {b : InitBody} {s : State} (h : Moves m r s)
    (hm : Within foot_startFresh m) : Moves m r (startFresh n b s) := by
  simp only [foot_startFresh, pms, within_or, within_zero, and_true] at hm
  unfold startFresh
  dsimp only
  refine moves_trace (moves_showCredits (moves_each_mem (moves_modWl (moves_forgetLink h ?_) ?_)
    (fun f hf z hz => moves_wr hz (within_fms hf hm.2))) ?_) ?_ <;> simp only [hm]


def foot_linkReset : Nat := foot_flushLink ||| foot_stopGrace ||| foot_dropReshape ||| foot_leaveDisabled |||
    foot_enterDisabled ||| foot_fullChoice ||| pms [.wls] ||| fms [.WL_LSTATE, .WL_OLDEST, .WL_UNACKED,
    .WL_REPLAY_COUNT]
theorem moves_linkReset {m : Nat} {r : State} {n : Nat} {s : State} (h : Moves m r s)
    (hm : Within foot_linkReset m) : Moves m r (linkReset n s) := by
  simp only [foot_linkReset, fms, pms, within_or, within_zero, and_true] at hm
  unfold linkReset
  try dsimp only
  repeat' (first
    | with_reducible assumption | with_reducible intro _ | with_reducible apply moves_wr |
    with_reducible apply moves_modWl | with_reducible apply moves_flushLink | with_reducible apply moves_stopGrace |
    with_reducible apply moves_dropReshape | with_reducible apply moves_leaveDisabled |
    with_reducible apply moves_enterDisabled | with_reducible apply moves_fullChoice | with_reducible apply moves_ite |
    split | simp only [hm])

def foot_endHold : Nat := foot_endWait ||| foot_inboundPass
theorem moves_endHold {m : Nat} {r : State} {n : Nat} {s : State} (h : Moves m r s)
    (hm : Within foot_endHold m) : Moves m r (endHold n s) := by
  simp only [foot_endHold, within_or] at hm
  unfold endHold
  try dsimp only
  repeat' (first
    | with_reducible assumption | with_reducible intro _ | with_reducible apply moves_endWait |
    with_reducible apply moves_inboundPass | with_reducible apply moves_ite | split | simp only [hm])

def foot_linkUp : Nat := foot_linkReset ||| foot_freeGrains ||| foot_stopGrace ||| foot_trace ||| foot_endHold |||
    foot_startReplay ||| foot_countReplay ||| foot_flushLink ||| foot_startFresh ||| pms [.wls] ||| fms [.WL_LSTATE,
    .WL_RESUMED, .WL_RETURNED, .WL_RETURN_CNT]
theorem moves_linkUp {m : Nat} {r : State} {n : Nat} {b : InitBody} {s : State} (h : Moves m r s)
    (hm : Within foot_linkUp m) : Moves m r (linkUp n b s) := by
  simp only [foot_linkUp, fms, pms, within_or, within_zero, and_true] at hm
  unfold linkUp
  try dsimp only
  repeat' (first
    | with_reducible assumption | with_reducible intro _ | with_reducible apply moves_when |
    with_reducible apply moves_wr | with_reducible apply moves_inc | with_reducible apply moves_modWl |
    with_reducible apply moves_linkReset | with_reducible apply moves_freeGrains | with_reducible apply moves_stopGrace
    | with_reducible apply moves_trace | with_reducible apply moves_endHold | with_reducible apply moves_startReplay |
    with_reducible apply moves_countReplay | with_reducible apply moves_flushLink |
    with_reducible apply moves_startFresh | with_reducible apply moves_ite | split | simp only [hm])

def foot_enterActive : Nat := foot_shown ||| foot_setLane ||| foot_linkPhysActive ||| pms [.wps] ||| fms
    [.WP_RATE_CHG, .WP_STATE, .WP_CUR_RATE, .WP_CLK_LOCK, .WP_CK_LOCK, .WP_ACTIVE_MASK, .WL_ACTIVE_SET, .WP_TRAIN_CNT]
theorem moves_enterActive {m : Nat} {r : State} {n rate set : Nat} {s : State} (h : Moves m r s)
    (hm : Within foot_enterActive m) : Moves m r (enterActive n rate set s) := by
  simp only [foot_enterActive, fms, pms, within_or, within_zero, and_true] at hm
  unfold enterActive
  try dsimp only
  repeat' (first
    | with_reducible assumption | with_reducible intro _ | with_reducible apply moves_when |
    with_reducible apply moves_each | with_reducible apply moves_wr | with_reducible apply moves_inc |
    with_reducible apply moves_modWp | with_reducible apply moves_shown | with_reducible apply moves_setLane |
    with_reducible apply moves_linkPhysActive | with_reducible apply moves_ite | split | simp only [hm])

end Sys2Proof.Laws
end

