-- ==== Sys2Proof/Laws/FootWLink.lean ====
section
/-!
SUPPORT. The footprint of each operation of Machine/WLink.lean: which register fields and parts of the state it may change.
-/
namespace Sys2Proof.Laws
open Sys2Proof.Machine

def foot_wIdle : Nat := pms [.wls]
theorem moves_wIdle {m : Nat} {r : State} {n tn : ℕ} {s : State} (h : Moves m r s)
    (hm : Within foot_wIdle m) : Moves m r (wIdle n tn s) := by
  simp only [foot_wIdle, pms, within_or, within_zero, and_true] at hm
  unfold wIdle
  try dsimp only
  repeat' (first
    | with_reducible assumption | with_reducible apply moves_modWl)

def foot_wCharge : Nat := foot_setBucket ||| fms [.TN_CHARGED_CNT]
theorem moves_wCharge {m : Nat} {r : State} {p : WPkt} {s : State} (h : Moves m r s)
    (hm : Within foot_wCharge m) : Moves m r (wCharge p s) := by
  simp only [foot_wCharge, fms, within_or, within_zero, and_true] at hm
  unfold wCharge
  try dsimp only
  repeat' (first
    | with_reducible assumption | with_reducible intro _ | with_reducible apply moves_add |
    with_reducible apply moves_setBucket | with_reducible apply moves_ite | split | simp only [hm])

def foot_wSent : Nat := foot_hubCross ||| foot_pump ||| foot_trace ||| pms [.wls] ||| fms [.CT_WL_TX_PKT,
    .CT_WL_TX_BYTES]
theorem moves_wSent {m : Nat} {r : State} {n tag : Nat} {p : WPkt} {s : State} (h : Moves m r s)
    (hm : Within foot_wSent m) : Moves m r (wSent n tag p s) := by
  simp only [foot_wSent, fms, pms, within_or, within_zero, and_true] at hm
  unfold wSent
  try dsimp only
  repeat' (first
    | with_reducible assumption | with_reducible intro _ | with_reducible apply moves_when |
    with_reducible apply moves_withSome | with_reducible apply moves_inc | with_reducible apply moves_add |
    with_reducible apply moves_modWl | with_reducible apply moves_hubCross | with_reducible apply moves_pump |
    with_reducible apply moves_trace | with_reducible apply moves_ite | split | simp only [hm])

def foot_morePart : Nat := pms [.inRds]
theorem moves_morePart {m : Nat} {r : State} {src : WSrc} {s : State} (h : Moves m r s)
    (hm : Within foot_morePart m) : Moves m r (morePart src s) := by
  simp only [foot_morePart, pms, within_or, within_zero, and_true] at hm
  unfold morePart
  try dsimp only
  repeat' (first
    | with_reducible assumption | with_reducible intro _ | with_reducible apply moves_ite | split |
    with_reducible apply moves_part_inRds | simp only [hm])

def foot_putRest : Nat := foot_morePart ||| pms [.wls]
theorem moves_putRest {m : Nat} {r : State} {n pos : Nat} {rest : Option WPkt} {s : State} (h : Moves m r s)
    (hm : Within foot_putRest m) : Moves m r (putRest n pos rest s) := by
  simp only [foot_putRest, pms, within_or, within_zero, and_true] at hm
  unfold putRest
  try dsimp only
  repeat' (first
    | with_reducible assumption | with_reducible intro _ | with_reducible apply moves_withSome |
    with_reducible apply moves_modWl | with_reducible apply moves_morePart | with_reducible apply moves_ite | split |
    simp only [hm])

def foot_sendPacket : Nat := foot_flushHalf ||| foot_wCharge ||| foot_showCredits ||| foot_wIdle ||| foot_putRest
    ||| foot_sendSeq ||| foot_wSent ||| foot_showHeld ||| pms [.wls]
theorem moves_sendPacket {m : Nat} {r : State} {n pos tag : Nat} {s : State} (h : Moves m r s)
    (hm : Within foot_sendPacket m) : Moves m r (sendPacket n pos tag s) := by
  simp only [foot_sendPacket, pms, within_or, within_zero, and_true] at hm
  unfold sendPacket
  try dsimp only
  repeat' (first
    | with_reducible assumption | with_reducible intro _ | with_reducible apply moves_when |
    with_reducible apply moves_each | with_reducible apply moves_modWl | with_reducible apply moves_flushHalf |
    with_reducible apply moves_wCharge | with_reducible apply moves_showCredits | with_reducible apply moves_wIdle |
    with_reducible apply moves_putRest | with_reducible apply moves_sendSeq | with_reducible apply moves_wSent |
    with_reducible apply moves_showHeld | with_reducible apply moves_ite | split | simp only [hm])

def foot_execLinkPacketSend : Nat := foot_sendPacket
theorem moves_execLinkPacketSend {m : Nat} {r : State} {wl : Wl} {pos tag : ℕ} {s : State} (h : Moves m r s)
    (hm : Within foot_execLinkPacketSend m) : Goes m r (execLinkPacketSend wl pos tag s) := by
  simp only [foot_execLinkPacketSend] at hm
  unfold execLinkPacketSend
  try dsimp only
  repeat' (first
    | with_reducible assumption | refine goes_next ?_ | with_reducible apply moves_when |
    with_reducible apply moves_sendPacket | with_reducible apply goes_ite | with_reducible apply moves_ite | split |
    intro _)

def foot_startReshape : Nat := foot_trace ||| foot_sendLinkMsg ||| pms [.wls] ||| fms [.WL_RESHAPE_FAIL,
    .WL_RESHAPE_BUSY]
theorem moves_startReshape {m : Nat} {r : State} {n set : Nat} {s : State} (h : Moves m r s)
    (hm : Within foot_startReshape m) : Moves m r (startReshape n set s) := by
  simp only [foot_startReshape, fms, pms, within_or, within_zero, and_true] at hm
  unfold startReshape
  try dsimp only
  repeat' (first
    | with_reducible assumption | with_reducible intro _ | with_reducible apply moves_wr |
    with_reducible apply moves_modWl | with_reducible apply moves_trace | with_reducible apply moves_sendLinkMsg |
    with_reducible apply moves_ite | split | simp only [hm])

def foot_agreeReshape : Nat := foot_moveLane ||| pms [.wls, .wps]
theorem moves_agreeReshape {m : Nat} {r : State} {n set : Nat} {s : State} (h : Moves m r s)
    (hm : Within foot_agreeReshape m) : Moves m r (agreeReshape n set s) := by
  simp only [foot_agreeReshape, pms, within_or, within_zero, and_true] at hm
  unfold agreeReshape
  try dsimp only
  repeat' (first
    | with_reducible assumption | with_reducible intro _ | with_reducible apply moves_when |
    with_reducible apply moves_each | with_reducible apply moves_modWl | with_reducible apply moves_modWp |
    with_reducible apply moves_moveLane | with_reducible apply moves_ite | split | simp only [hm])

def foot_sendNak : Nat := foot_sendLinkMsg ||| fms [.WL_NAK_CNT]
theorem moves_sendNak {m : Nat} {r : State} {n id reason : ℕ} {s : State} (h : Moves m r s)
    (hm : Within foot_sendNak m) : Moves m r (sendNak n id reason s) := by
  simp only [foot_sendNak, fms, within_or, within_zero, and_true] at hm
  unfold sendNak
  try dsimp only
  repeat' (first
    | with_reducible assumption | with_reducible apply moves_sendLinkMsg | with_reducible apply moves_inc |
    with_reducible apply moves_ite | split | intro _ | simp only [hm])

def foot_laneReqRcvd : Nat := foot_sendNak ||| foot_failReshape ||| foot_sendLinkMsg ||| foot_agreeReshape ||| pms
    [.wls] ||| fms [.WL_RESHAPE_BUSY]
theorem moves_laneReqRcvd {m : Nat} {r : State} {n id set : ℕ} {s : State} (h : Moves m r s)
    (hm : Within foot_laneReqRcvd m) : Moves m r (laneReqRcvd n id set s) := by
  simp only [foot_laneReqRcvd, fms, pms, within_or, within_zero, and_true] at hm
  unfold laneReqRcvd
  try dsimp only
  repeat' (first
    | with_reducible assumption | with_reducible apply moves_when | with_reducible apply moves_sendNak |
    with_reducible apply moves_failReshape | with_reducible apply moves_modWl | with_reducible apply moves_sendLinkMsg
    | with_reducible apply moves_agreeReshape | with_reducible apply moves_wr | with_reducible apply moves_ite | split
    | intro _ | simp only [hm])

def foot_laneAckRcvd : Nat := foot_agreeReshape ||| foot_sendNak ||| pms [.wls]
theorem moves_laneAckRcvd {m : Nat} {r : State} {n id : Nat} {s : State} (h : Moves m r s)
    (hm : Within foot_laneAckRcvd m) : Moves m r (laneAckRcvd n id s) := by
  simp only [foot_laneAckRcvd, pms, within_or, within_zero, and_true] at hm
  unfold laneAckRcvd
  try dsimp only
  repeat' (first
    | with_reducible assumption | with_reducible intro _ | with_reducible apply moves_modWl |
    with_reducible apply moves_agreeReshape | with_reducible apply moves_sendNak | with_reducible apply moves_ite |
    split | simp only [hm])

def foot_laneNakRcvd : Nat := foot_failReshape ||| fms [.WL_NAK_CNT]
theorem moves_laneNakRcvd {m : Nat} {r : State} {n id reason : Nat} {s : State} (h : Moves m r s)
    (hm : Within foot_laneNakRcvd m) : Moves m r (laneNakRcvd n id reason s) := by
  simp only [foot_laneNakRcvd, fms, within_or, within_zero, and_true] at hm
  unfold laneNakRcvd
  try dsimp only
  repeat' (first
    | with_reducible assumption | with_reducible intro _ | with_reducible apply moves_when |
    with_reducible apply moves_inc | with_reducible apply moves_failReshape | with_reducible apply moves_ite | split |
    simp only [hm])

def foot_laneReadyRcvd : Nat := pms [.wls]
theorem moves_laneReadyRcvd {m : Nat} {r : State} {n id : Nat} {s : State} (h : Moves m r s)
    (hm : Within foot_laneReadyRcvd m) : Moves m r (laneReadyRcvd n id s) := by
  simp only [foot_laneReadyRcvd, pms, within_or, within_zero, and_true] at hm
  unfold laneReadyRcvd
  try dsimp only
  repeat' (first
    | with_reducible assumption | with_reducible intro _ | with_reducible apply moves_when |
    with_reducible apply moves_modWl | with_reducible apply moves_ite | split | simp only [hm])

def foot_linkMsgRcvd : Nat := foot_laneReqRcvd ||| foot_laneAckRcvd ||| foot_laneNakRcvd ||| foot_laneReadyRcvd
theorem moves_linkMsgRcvd {m : Nat} {r : State} {n : Nat} {b : Bytes} {s : State} (h : Moves m r s)
    (hm : Within foot_linkMsgRcvd m) : Moves m r (linkMsgRcvd n b s) := by
  simp only [foot_linkMsgRcvd, within_or] at hm
  unfold linkMsgRcvd
  try dsimp only
  repeat' (first
    | with_reducible assumption | with_reducible intro _ | with_reducible apply moves_laneReqRcvd |
    with_reducible apply moves_laneAckRcvd | with_reducible apply moves_laneNakRcvd |
    with_reducible apply moves_laneReadyRcvd | with_reducible apply moves_ite | split | simp only [hm])

def foot_framing : Nat := foot_releaseCredit ||| foot_linkLine ||| pms [.wls] ||| fms [.WL_FRAME_CNT]
theorem moves_framing {m : Nat} {r : State} {n was : Nat} {s : State} (h : Moves m r s)
    (hm : Within foot_framing m) : Moves m r (framing n was s) := by
  simp only [foot_framing, fms, pms, within_or, within_zero, and_true] at hm
  unfold framing
  try dsimp only
  repeat' (first
    | with_reducible assumption | with_reducible intro _ | with_reducible apply moves_when |
    with_reducible apply moves_inc | with_reducible apply moves_modWl | with_reducible apply moves_releaseCredit |
    with_reducible apply moves_linkLine | with_reducible apply moves_ite | split | simp only [hm])

def foot_rxCheck : Nat := foot_framing ||| pms [.wls]
theorem moves_rxCheck {m : Nat} {r : State} {n was : Nat} {eop : Bool} {s : State} (h : Moves m r s)
    (hm : Within foot_rxCheck m) : Moves m r (rxCheck n was eop s) := by
  simp only [foot_rxCheck, pms, within_or, within_zero, and_true] at hm
  unfold rxCheck
  try dsimp only
  repeat' (first
    | with_reducible assumption | with_reducible intro _ | with_reducible apply moves_modWl |
    with_reducible apply moves_framing | with_reducible apply moves_ite | split | simp only [hm])

def foot_rxHalf : Nat := foot_framing ||| foot_linkReset ||| foot_linkLine ||| foot_rxCheck ||| pms [.wls] ||| fms
    [.WL_CREDIT_ERR, .WL_CREDERR_CNT]
theorem moves_rxHalf {m : Nat} {r : State} {n was : Nat} {b : Bytes} {sop eop : Bool} {s : State} (h : Moves m r s)
    (hm : Within foot_rxHalf m) : Moves m r (rxHalf n was b sop eop s) := by
  simp only [foot_rxHalf, fms, pms, within_or, within_zero, and_true] at hm
  unfold rxHalf
  try dsimp only
  repeat' (first
    | with_reducible assumption | with_reducible intro _ | with_reducible apply moves_when |
    with_reducible apply moves_wr | with_reducible apply moves_inc | with_reducible apply moves_modWl |
    with_reducible apply moves_framing | with_reducible apply moves_linkReset | with_reducible apply moves_linkLine |
    with_reducible apply moves_rxCheck | with_reducible apply moves_ite | split | simp only [hm])

def foot_rxData : Nat := foot_rxHalf
theorem moves_rxData {m : Nat} {r : State} {n : Nat} {g : Grain} {s : State} (h : Moves m r s)
    (hm : Within foot_rxData m) : Moves m r (rxData n g s) := by
  simp only [foot_rxData] at hm
  unfold rxData
  try dsimp only
  repeat' (first
    | with_reducible assumption | with_reducible intro _ | with_reducible apply moves_when |
    with_reducible apply moves_rxHalf | with_reducible apply moves_ite | split | simp only [hm])

def foot_applyFields : Nat := foot_applyAck ||| foot_showCredits ||| foot_applyCredit
theorem moves_applyFields {m : Nat} {r : State} {n : ℕ} {g : Grain} {s : State} (h : Moves m r s)
    (hm : Within foot_applyFields m) : Moves m r (applyFields n g s) := by
  simp only [foot_applyFields, within_or] at hm
  unfold applyFields
  try dsimp only
  repeat' (first
    | with_reducible assumption | with_reducible apply moves_when | with_reducible apply moves_applyAck |
    with_reducible apply moves_showCredits | with_reducible apply moves_applyCredit | with_reducible apply moves_ite |
    split | intro _ | simp only [hm])

def foot_badCrc : Nat := foot_wardEvent ||| foot_restartPhy ||| foot_declareDown ||| fms [.WL_INJ_CNT, .WL_CRC_CNT,
    .WL_ERR_CUR, .WL_ERR_LIMIT_HIT]
theorem moves_badCrc {m : Nat} {r : State} {n : Nat} {g : Grain} {s : State} (h : Moves m r s)
    (hm : Within foot_badCrc m) : Moves m r (badCrc n g s) := by
  simp only [foot_badCrc, fms, within_or, within_zero, and_true] at hm
  unfold badCrc
  try dsimp only
  repeat' (first
    | with_reducible assumption | with_reducible intro _ | with_reducible apply moves_when |
    with_reducible apply moves_inc | with_reducible apply moves_wr | with_reducible apply moves_wardEvent |
    with_reducible apply moves_restartPhy | with_reducible apply moves_declareDown | with_reducible apply moves_ite |
    split | simp only [hm])

def foot_initFails : Nat := foot_linkLine ||| fms [.WL_INIT_FAIL, .WL_LSTATE]
theorem moves_initFails {m : Nat} {r : State} {n : ℕ} {s : State} (h : Moves m r s)
    (hm : Within foot_initFails m) : Moves m r (initFails n s) := by
  simp only [foot_initFails, fms, within_or, within_zero, and_true] at hm
  unfold initFails
  try dsimp only
  repeat' (first
    | with_reducible assumption | with_reducible apply moves_linkLine | with_reducible apply moves_wr |
    with_reducible apply moves_ite | split | intro _ | simp only [hm])

def foot_initRcvd : Nat := foot_initFails ||| foot_newLinkId ||| foot_sendInit ||| foot_linkUp ||| foot_restartPhy
    ||| foot_declareDown ||| pms [.wls]
theorem moves_initRcvd {m : Nat} {r : State} {n : Nat} {b : InitBody} {s : State} (h : Moves m r s)
    (hm : Within foot_initRcvd m) : Moves m r (initRcvd n b s) := by
  simp only [foot_initRcvd, pms, within_or, within_zero, and_true] at hm
  unfold initRcvd
  try dsimp only
  repeat' (first
    | with_reducible assumption | with_reducible intro _ | with_reducible apply moves_when |
    with_reducible apply moves_modWl | with_reducible apply moves_initFails | with_reducible apply moves_newLinkId |
    with_reducible apply moves_sendInit | with_reducible apply moves_linkUp | with_reducible apply moves_restartPhy |
    with_reducible apply moves_declareDown | with_reducible apply moves_ite | split | simp only [hm])

def foot_haltRcvd : Nat := foot_flushLink ||| foot_stopGrace ||| foot_dropReshape ||| foot_linkLine ||| foot_trace |||
    fms [.WL_HALTRX_CNT, .WL_HALT_RX, .WL_LSTATE]
theorem moves_haltRcvd {m : Nat} {r : State} {n : ℕ} {s : State} (h : Moves m r s)
    (hm : Within foot_haltRcvd m) : Moves m r (haltRcvd n s) := by
  simp only [foot_haltRcvd, fms, within_or, within_zero, and_true] at hm
  unfold haltRcvd
  try dsimp only
  repeat' (first
    | with_reducible assumption | with_reducible apply moves_when | with_reducible intro _ |
    with_reducible apply moves_flushLink | with_reducible apply moves_stopGrace |
    with_reducible apply moves_dropReshape | with_reducible apply moves_linkLine | with_reducible apply moves_inc |
    with_reducible apply moves_wr | with_reducible apply moves_trace | with_reducible apply moves_ite | split |
    intro _ | simp only [hm])

def foot_acceptGrain : Nat := foot_applyFields ||| foot_rxData ||| foot_linkMsgRcvd ||| foot_sendAck ||| pms [.wls]
    ||| fms [.WL_NEXT_RX, .WL_RX_CNT]
theorem moves_acceptGrain {m : Nat} {r : State} {n : Nat} {g : Grain} {s : State} (h : Moves m r s)
    (hm : Within foot_acceptGrain m) : Moves m r (acceptGrain n g s) := by
  simp only [foot_acceptGrain, fms, pms, within_or, within_zero, and_true] at hm
  unfold acceptGrain
  try dsimp only
  repeat' (first
    | with_reducible assumption | with_reducible intro _ | with_reducible apply moves_when |
    with_reducible apply moves_wr | with_reducible apply moves_inc | with_reducible apply moves_modWl |
    with_reducible apply moves_applyFields | with_reducible apply moves_rxData | with_reducible apply moves_linkMsgRcvd
    | with_reducible apply moves_sendAck | with_reducible apply moves_ite | split | simp only [hm])

def foot_goodGrain : Nat := foot_haltRcvd ||| foot_initRcvd ||| foot_applyFields ||| foot_acceptGrain ||| fms
    [.WL_PARTNER_HEALTH, .WL_TYPE_CNT, .WL_DUP_CNT, .WL_SEQ_CNT]
theorem moves_goodGrain {m : Nat} {r : State} {n : Nat} {g : Grain} {s : State} (h : Moves m r s)
    (hm : Within foot_goodGrain m) : Moves m r (goodGrain n g s) := by
  simp only [foot_goodGrain, fms, within_or, within_zero, and_true] at hm
  unfold goodGrain
  try dsimp only
  repeat' (first
    | with_reducible assumption | with_reducible intro _ | with_reducible apply moves_wr |
    with_reducible apply moves_inc | with_reducible apply moves_haltRcvd | with_reducible apply moves_initRcvd |
    with_reducible apply moves_applyFields | with_reducible apply moves_acceptGrain | with_reducible apply moves_ite |
    split | simp only [hm])

def foot_execGrainReceived : Nat := foot_goodGrain ||| foot_badCrc
theorem moves_execGrainReceived {m : Nat} {r : State} {wl : Wl} {g : Grain} {s : State} (h : Moves m r s)
    (hm : Within foot_execGrainReceived m) : Goes m r (execGrainReceived wl g s) := by
  simp only [foot_execGrainReceived, within_or] at hm
  unfold execGrainReceived
  try dsimp only
  repeat' (first
    | with_reducible assumption | exact goes_fault _ | refine goes_next ?_ | with_reducible apply moves_when |
    with_reducible apply moves_goodGrain | with_reducible apply moves_badCrc | with_reducible apply goes_ite |
    with_reducible apply moves_ite | split | intro _ | simp only [hm])

def foot_execAckSend : Nat := foot_sendAck
theorem moves_execAckSend {m : Nat} {r : State} {wl : Wl} {s : State} (h : Moves m r s)
    (hm : Within foot_execAckSend m) : Goes m r (execAckSend wl s) := by
  simp only [foot_execAckSend] at hm
  unfold execAckSend
  try dsimp only
  repeat' (first
    | with_reducible assumption | with_reducible intro _ | refine goes_next ?_ | with_reducible apply moves_when |
    with_reducible apply moves_sendAck | with_reducible apply goes_ite | with_reducible apply moves_ite | split |
    simp only [hm])

def foot_replayExpires : Nat := foot_startReplay ||| foot_countReplay ||| foot_restartPhy ||| foot_declareDown |||
    foot_linkLine ||| foot_enterRetrain ||| pms [.wls] ||| fms [.WL_RETRAIN_REQ]
theorem moves_replayExpires {m : Nat} {r : State} {n : Nat} {s : State} (h : Moves m r s)
    (hm : Within foot_replayExpires m) : Moves m r (replayExpires n s) := by
  simp only [foot_replayExpires, fms, pms, within_or, within_zero, and_true] at hm
  unfold replayExpires
  try dsimp only
  repeat' (first
    | with_reducible assumption | with_reducible intro _ | with_reducible apply moves_when |
    with_reducible apply moves_wr | with_reducible apply moves_modWl | with_reducible apply moves_startReplay |
    with_reducible apply moves_countReplay | with_reducible apply moves_restartPhy |
    with_reducible apply moves_declareDown | with_reducible apply moves_linkLine |
    with_reducible apply moves_enterRetrain | with_reducible apply moves_ite | split | simp only [hm])

def foot_execReplayTimeout : Nat := foot_replayExpires
theorem moves_execReplayTimeout {m : Nat} {r : State} {wl : Wl} {s : State} (h : Moves m r s)
    (hm : Within foot_execReplayTimeout m) : Goes m r (execReplayTimeout wl s) := by
  simp only [foot_execReplayTimeout] at hm
  unfold execReplayTimeout
  try dsimp only
  repeat' (first
    | with_reducible assumption | refine goes_next ?_ | with_reducible apply moves_when |
    with_reducible apply moves_replayExpires | with_reducible apply goes_ite | with_reducible apply moves_ite | split
    | intro _)

def foot_execInitReceived : Nat := foot_initRcvd
theorem moves_execInitReceived {m : Nat} {r : State} {wl : Wl} {b : InitBody} {s : State} (h : Moves m r s)
    (hm : Within foot_execInitReceived m) : Goes m r (execInitReceived wl b s) := by
  simp only [foot_execInitReceived] at hm
  unfold execInitReceived
  try dsimp only
  repeat' (first
    | with_reducible assumption | refine goes_next ?_ | with_reducible apply moves_when |
    with_reducible apply moves_initRcvd | with_reducible apply goes_ite | with_reducible apply moves_ite | split |
    intro _)

def foot_execInitTimeout : Nat := foot_initFails
theorem moves_execInitTimeout {m : Nat} {r : State} {wl : Wl} {s : State} (h : Moves m r s)
    (hm : Within foot_execInitTimeout m) : Goes m r (execInitTimeout wl s) := by
  simp only [foot_execInitTimeout] at hm
  unfold execInitTimeout
  try dsimp only
  repeat' (first
    | with_reducible assumption | refine goes_next ?_ | with_reducible apply moves_when |
    with_reducible apply moves_initFails | with_reducible apply goes_ite | with_reducible apply moves_ite | split |
    intro _)

def foot_execGraceExpiry : Nat := foot_flushLink ||| foot_stopGrace ||| foot_sendInit ||| foot_newLinkId ||| pms
    [.wls] ||| fms [.WL_LSTATE]
theorem moves_execGraceExpiry {m : Nat} {r : State} {wl : Wl} {s : State} (h : Moves m r s)
    (hm : Within foot_execGraceExpiry m) : Goes m r (execGraceExpiry wl s) := by
  simp only [foot_execGraceExpiry, fms, pms, within_or, within_zero, and_true] at hm
  unfold execGraceExpiry
  try dsimp only
  repeat' (first
    | with_reducible assumption | refine goes_next ?_ | with_reducible apply moves_when |
    with_reducible apply moves_flushLink | with_reducible apply moves_stopGrace | with_reducible apply moves_wr |
    with_reducible apply moves_sendInit | with_reducible apply moves_newLinkId | with_reducible apply moves_modWl |
    with_reducible apply goes_ite | with_reducible apply moves_ite | split | intro _ | simp only [hm])

def foot_execWlLinkResetWrite : Nat := foot_linkReset
theorem moves_execWlLinkResetWrite {m : Nat} {r : State} {fn : Fn} {wl : Wl} {s : State} (h : Moves m r s)
    (hm : Within foot_execWlLinkResetWrite m) : Goes m r (execWlLinkResetWrite fn wl s) := by
  simp only [foot_execWlLinkResetWrite] at hm
  unfold execWlLinkResetWrite
  try dsimp only
  repeat' (first
    | with_reducible assumption | refine goes_next ?_ | with_reducible apply moves_when |
    with_reducible apply moves_linkReset | with_reducible apply goes_ite | with_reducible apply moves_ite | split |
    intro _)

def foot_execHaltReceived : Nat := foot_haltRcvd
theorem moves_execHaltReceived {m : Nat} {r : State} {wl : Wl} {s : State} (h : Moves m r s)
    (hm : Within foot_execHaltReceived m) : Goes m r (execHaltReceived wl s) := by
  simp only [foot_execHaltReceived] at hm
  unfold execHaltReceived
  try dsimp only
  repeat' (first
    | with_reducible assumption | refine goes_next ?_ | with_reducible apply moves_when |
    with_reducible apply moves_haltRcvd | with_reducible apply goes_ite | with_reducible apply moves_ite | split |
    intro _)

def foot_execReplayLimitZeroWrite : Nat := fms [.WL_CFG_REFUSED]
theorem moves_execReplayLimitZeroWrite {m : Nat} {r : State} {fn : Fn} {wl : Wl} {s : State} (h : Moves m r s)
    (hm : Within foot_execReplayLimitZeroWrite m) : Goes m r (execReplayLimitZeroWrite fn wl s) := by
  simp only [foot_execReplayLimitZeroWrite, fms, within_or, within_zero, and_true] at hm
  unfold execReplayLimitZeroWrite
  try dsimp only
  repeat' (first
    | with_reducible assumption | refine goes_next ?_ | with_reducible apply moves_when |
    with_reducible apply moves_wr | with_reducible apply goes_ite | with_reducible apply moves_ite | split | intro _)

def foot_execReshapeGoWrite : Nat := foot_startReshape ||| fms [.WL_RESHAPE_SET]
theorem moves_execReshapeGoWrite {m : Nat} {r : State} {fn : Fn} {wl : Wl} {set : Fin 16} {s : State} (h : Moves m r
    s)
    (hm : Within foot_execReshapeGoWrite m) : Goes m r (execReshapeGoWrite fn wl set s) := by
  simp only [foot_execReshapeGoWrite, fms, within_or, within_zero, and_true] at hm
  unfold execReshapeGoWrite
  try dsimp only
  repeat' (first
    | with_reducible assumption | refine goes_next ?_ | with_reducible apply moves_when |
    with_reducible apply moves_wr | with_reducible apply moves_startReshape | with_reducible apply goes_ite |
    with_reducible apply moves_ite | split | intro _ | simp only [hm])

def foot_execLaneReq : Nat := foot_laneReqRcvd
theorem moves_execLaneReq {m : Nat} {r : State} {wl : Wl} {id : Fin 256} {set : Fin 16} {s : State} (h : Moves m r
    s)
    (hm : Within foot_execLaneReq m) : Goes m r (execLaneReq wl id set s) := by
  simp only [foot_execLaneReq] at hm
  unfold execLaneReq
  try dsimp only
  repeat' (first
    | with_reducible assumption | with_reducible intro _ | refine goes_next ?_ | with_reducible apply moves_when |
    with_reducible apply moves_laneReqRcvd | with_reducible apply goes_ite | with_reducible apply moves_ite | split |
    simp only [hm])

def foot_execLaneAck : Nat := foot_laneAckRcvd
theorem moves_execLaneAck {m : Nat} {r : State} {wl : Wl} {id : Fin 256} {s : State} (h : Moves m r s)
    (hm : Within foot_execLaneAck m) : Goes m r (execLaneAck wl id s) := by
  simp only [foot_execLaneAck] at hm
  unfold execLaneAck
  try dsimp only
  repeat' (first
    | with_reducible assumption | with_reducible intro _ | refine goes_next ?_ | with_reducible apply moves_when |
    with_reducible apply moves_laneAckRcvd | with_reducible apply goes_ite | with_reducible apply moves_ite | split |
    simp only [hm])

def foot_execLaneNak : Nat := foot_laneNakRcvd
theorem moves_execLaneNak {m : Nat} {r : State} {wl : Wl} {id : Fin 256} {reason : Nat} {s : State} (h : Moves m r
    s)
    (hm : Within foot_execLaneNak m) : Goes m r (execLaneNak wl id reason s) := by
  simp only [foot_execLaneNak] at hm
  unfold execLaneNak
  try dsimp only
  repeat' (first
    | with_reducible assumption | with_reducible intro _ | refine goes_next ?_ | with_reducible apply moves_when |
    with_reducible apply moves_laneNakRcvd | with_reducible apply goes_ite | with_reducible apply moves_ite | split |
    simp only [hm])

def foot_execLaneReady : Nat := foot_laneReadyRcvd
theorem moves_execLaneReady {m : Nat} {r : State} {wl : Wl} {id : Fin 256} {s : State} (h : Moves m r s)
    (hm : Within foot_execLaneReady m) : Goes m r (execLaneReady wl id s) := by
  simp only [foot_execLaneReady] at hm
  unfold execLaneReady
  try dsimp only
  repeat' (first
    | with_reducible assumption | with_reducible intro _ | refine goes_next ?_ | with_reducible apply moves_when |
    with_reducible apply moves_laneReadyRcvd | with_reducible apply goes_ite | with_reducible apply moves_ite | split |
    simp only [hm])

def foot_execReshapeTimeout : Nat := foot_failReshape ||| pms [.wls]
theorem moves_execReshapeTimeout {m : Nat} {r : State} {wl : Wl} {s : State} (h : Moves m r s)
    (hm : Within foot_execReshapeTimeout m) : Goes m r (execReshapeTimeout wl s) := by
  simp only [foot_execReshapeTimeout, pms, within_or, within_zero, and_true] at hm
  unfold execReshapeTimeout
  try dsimp only
  repeat' (first
    | with_reducible assumption | with_reducible intro _ | refine goes_next ?_ | with_reducible apply moves_when |
    with_reducible apply moves_modWl | with_reducible apply moves_failReshape | with_reducible apply goes_ite |
    with_reducible apply moves_ite | split | simp only [hm])

end Sys2Proof.Laws
end

