-- ==== Sys2Proof/Laws/FootLanes.lean ====
section
/-!
SUPPORT. The footprint of each operation of Machine/Lanes.lean: which register fields and parts of the state it may change.
-/
namespace Sys2Proof.Laws
open Sys2Proof.Machine

def foot_markExcluded : Nat := fms [.WP_LANE_EXCL]
theorem moves_markExcluded {m : Nat} {r : State} {n set : ℕ} {s : State} (h : Moves m r s)
    (hm : Within foot_markExcluded m) : Moves m r (markExcluded n set s) := by
  simp only [foot_markExcluded, fms, within_or, within_zero, and_true] at hm
  unfold markExcluded
  try dsimp only
  repeat' (first
    | with_reducible assumption | with_reducible apply moves_when | with_reducible apply moves_wr |
    with_reducible apply moves_ite | split | intro _)

def foot_keepTs2 : Nat := pms [.wps] ||| fms [.WP_ROLE, .WP_RX_INV, .WP_LANE_MAP, .WP_PARTNER_PEER, .WP_PARTNER_RATES,
    .WP_LOGICAL]
theorem moves_keepTs2 {m : Nat} {r : State} {n : ℕ} {t : Ts2} {s : State} (h : Moves m r s)
    (hm : Within foot_keepTs2 m) : Moves m r (keepTs2 n t s) := by
  simp only [foot_keepTs2, fms, pms, within_or, within_zero, and_true] at hm
  unfold keepTs2
  try dsimp only
  repeat' (first
    | with_reducible assumption | with_reducible apply moves_each | with_reducible apply moves_modWp |
    with_reducible apply moves_wr | with_reducible apply moves_ite | split | intro _ | simp only [hm])

def foot_sendTs2 : Nat := foot_sendTrain
theorem moves_sendTs2 {m : Nat} {r : State} {n : Nat} {s : State} (h : Moves m r s)
    (hm : Within foot_sendTs2 m) : Moves m r (sendTs2 n s) := by
  simp only [foot_sendTs2] at hm
  unfold sendTs2
  try dsimp only
  repeat' (first
    | with_reducible assumption | with_reducible intro _ | with_reducible apply moves_sendTrain |
    with_reducible apply moves_ite | split | simp only [hm])

def foot_sendTs3 : Nat := foot_sendTrain
theorem moves_sendTs3 {m : Nat} {r : State} {n : Nat} {s : State} (h : Moves m r s)
    (hm : Within foot_sendTs3 m) : Moves m r (sendTs3 n s) := by
  simp only [foot_sendTs3] at hm
  unfold sendTs3
  try dsimp only
  repeat' (first
    | with_reducible assumption | with_reducible intro _ | with_reducible apply moves_sendTrain |
    with_reducible apply moves_ite | split | simp only [hm])

def foot_takeChoice : Nat := pms [.wps]
theorem moves_takeChoice {m : Nat} {r : State} {n rate set : Nat} {s : State} (h : Moves m r s)
    (hm : Within foot_takeChoice m) : Moves m r (takeChoice n rate set s) := by
  simp only [foot_takeChoice, pms, within_or, within_zero, and_true] at hm
  unfold takeChoice
  try dsimp only
  repeat' (first
    | with_reducible assumption | with_reducible intro _ | with_reducible apply moves_modWp |
    with_reducible apply moves_ite | split | simp only [hm])

def foot_enterSwitch : Nat := foot_shown ||| fms [.WP_STATE]
theorem moves_enterSwitch {m : Nat} {r : State} {n : Nat} {s : State} (h : Moves m r s)
    (hm : Within foot_enterSwitch m) : Moves m r (enterSwitch n s) := by
  simp only [foot_enterSwitch, fms, within_or, within_zero, and_true] at hm
  unfold enterSwitch
  try dsimp only
  repeat' (first
    | with_reducible assumption | with_reducible intro _ | with_reducible apply moves_wr |
    with_reducible apply moves_shown | with_reducible apply moves_ite | split | simp only [hm])

def foot_enterSlow : Nat := foot_shown ||| foot_applyCtl ||| foot_setLane ||| fms [.WP_STATE]
theorem moves_enterSlow {m : Nat} {r : State} {n : Nat} {s : State} (h : Moves m r s)
    (hm : Within foot_enterSlow m) : Moves m r (enterSlow n s) := by
  simp only [foot_enterSlow, fms, within_or, within_zero, and_true] at hm
  unfold enterSlow
  try dsimp only
  repeat' (first
    | with_reducible assumption | with_reducible intro _ | with_reducible apply moves_each |
    with_reducible apply moves_wr | with_reducible apply moves_shown | with_reducible apply moves_applyCtl |
    with_reducible apply moves_setLane | with_reducible apply moves_ite | split | simp only [hm])

def foot_execPartnerClockStable : Nat := foot_enterSlow ||| pms [.wps] ||| fms [.WP_CLK_LOCK, .WP_CK_LOCK,
    .WP_CK_DETECT, .WP_CK_FREQ_ERR]
theorem moves_execPartnerClockStable {m : Nat} {r : State} {wl : Wl} {s : State} (h : Moves m r s)
    (hm : Within foot_execPartnerClockStable m) : Goes m r (execPartnerClockStable wl s) := by
  simp only [foot_execPartnerClockStable, fms, pms, within_or, within_zero, and_true] at hm
  unfold execPartnerClockStable
  try dsimp only
  repeat' (first
    | with_reducible assumption | with_reducible intro _ | refine goes_next ?_ | with_reducible apply moves_when |
    with_reducible apply moves_draw | with_reducible apply moves_wr | with_reducible apply moves_modWp |
    with_reducible apply moves_enterSlow | with_reducible apply goes_ite | with_reducible apply moves_ite | split |
    simp only [hm])

def foot_slowTs2 : Nat := foot_sendTs2 ||| foot_keepTs2 ||| foot_failAttempt ||| foot_sendTs3 ||| foot_takeChoice
    ||| foot_markExcluded ||| fms [.WP_ROLE_CONFLICT]
theorem moves_slowTs2 {m : Nat} {r : State} {n : Nat} {t : Ts2} {s : State} (h : Moves m r s)
    (hm : Within foot_slowTs2 m) : Moves m r (slowTs2 n t s) := by
  simp only [foot_slowTs2, fms, within_or, within_zero, and_true] at hm
  unfold slowTs2
  try dsimp only
  repeat' (first
    | with_reducible assumption | with_reducible intro _ | with_reducible apply moves_wr |
    with_reducible apply moves_sendTs2 | with_reducible apply moves_keepTs2 | with_reducible apply moves_failAttempt |
    with_reducible apply moves_sendTs3 | with_reducible apply moves_takeChoice | with_reducible apply moves_markExcluded
    | with_reducible apply moves_ite | split | simp only [hm])

def foot_execTs2Exchanged : Nat := foot_slowTs2 ||| foot_sendTs2 ||| foot_keepTs2
theorem moves_execTs2Exchanged {m : Nat} {r : State} {wl : Wl} {blocks : List (Fin 4 × Bytes)} {s : State} (h :
    Moves m r s)
    (hm : Within foot_execTs2Exchanged m) : Goes m r (execTs2Exchanged wl blocks s) := by
  simp only [foot_execTs2Exchanged, within_or] at hm
  unfold execTs2Exchanged
  try dsimp only
  repeat' (first
    | with_reducible assumption | with_reducible intro _ | refine goes_next ?_ | with_reducible apply moves_slowTs2 |
    with_reducible apply moves_sendTs2 | with_reducible apply moves_keepTs2 | with_reducible apply goes_ite |
    with_reducible apply moves_ite | split | simp only [hm])

def foot_adoptTs3 : Nat := foot_takeChoice ||| foot_sendTs3 ||| foot_markExcluded
theorem moves_adoptTs3 {m : Nat} {r : State} {n rate set : Nat} {s : State} (h : Moves m r s)
    (hm : Within foot_adoptTs3 m) : Moves m r (adoptTs3 n rate set s) := by
  simp only [foot_adoptTs3, within_or] at hm
  unfold adoptTs3
  try dsimp only
  repeat' (first
    | with_reducible assumption | with_reducible intro _ | with_reducible apply moves_when |
    with_reducible apply moves_takeChoice | with_reducible apply moves_sendTs3 | with_reducible apply moves_markExcluded
    | with_reducible apply moves_ite | split | simp only [hm])

def foot_execTs3Echoed : Nat := foot_enterSwitch ||| foot_adoptTs3
theorem moves_execTs3Echoed {m : Nat} {r : State} {wl : Wl} {rate : Fin 4} {set : Fin 16} {s : State} (h : Moves m r
    s)
    (hm : Within foot_execTs3Echoed m) : Goes m r (execTs3Echoed wl rate set s) := by
  simp only [foot_execTs3Echoed, within_or] at hm
  unfold execTs3Echoed
  try dsimp only
  repeat' (first
    | with_reducible assumption | with_reducible intro _ | refine goes_next ?_ | with_reducible apply moves_when |
    with_reducible apply moves_enterSwitch | with_reducible apply moves_adoptTs3 | with_reducible apply goes_ite |
    with_reducible apply moves_ite | split | simp only [hm])

def foot_execSwitchDone : Nat := foot_sendTs1 ||| foot_shown ||| fms [.WP_STATE, .WP_CUR_RATE]
theorem moves_execSwitchDone {m : Nat} {r : State} {wl : Wl} {s : State} (h : Moves m r s)
    (hm : Within foot_execSwitchDone m) : Goes m r (execSwitchDone wl s) := by
  simp only [foot_execSwitchDone, fms, within_or, within_zero, and_true] at hm
  unfold execSwitchDone
  try dsimp only
  repeat' (first
    | with_reducible assumption | with_reducible intro _ | refine goes_next ?_ | with_reducible apply moves_when |
    with_reducible apply moves_wr | with_reducible apply moves_sendTs1 | with_reducible apply moves_shown |
    with_reducible apply goes_ite | with_reducible apply moves_ite | split | simp only [hm])

def foot_execFastConfirmed : Nat := foot_enterActive ||| foot_sendTs3 ||| foot_sendTs2
theorem moves_execFastConfirmed {m : Nat} {r : State} {wl : Wl} {s : State} (h : Moves m r s)
    (hm : Within foot_execFastConfirmed m) : Goes m r (execFastConfirmed wl s) := by
  simp only [foot_execFastConfirmed, within_or] at hm
  unfold execFastConfirmed
  try dsimp only
  repeat' (first
    | with_reducible assumption | with_reducible intro _ | refine goes_next ?_ | with_reducible apply moves_when |
    with_reducible apply moves_enterActive | with_reducible apply moves_sendTs3 | with_reducible apply moves_sendTs2 |
    with_reducible apply goes_ite | with_reducible apply moves_ite | split | simp only [hm])

def foot_execTrainAttemptTimeout : Nat := foot_failAttempt
theorem moves_execTrainAttemptTimeout {m : Nat} {r : State} {wl : Wl} {s : State} (h : Moves m r s)
    (hm : Within foot_execTrainAttemptTimeout m) : Goes m r (execTrainAttemptTimeout wl s) := by
  simp only [foot_execTrainAttemptTimeout] at hm
  unfold execTrainAttemptTimeout
  try dsimp only
  repeat' (first
    | with_reducible assumption | refine goes_next ?_ | with_reducible apply moves_when |
    with_reducible apply moves_failAttempt | with_reducible apply goes_ite | with_reducible apply moves_ite | split |
    intro _)

def foot_execPartnerClockLost : Nat := foot_failAttempt ||| foot_enterRetrain ||| foot_laneFault ||| fms
    [.WP_CK_DETECT, .WP_CK_LOCK, .WP_CLK_LOCK, .WP_CLKLOST_CNT, .WP_CLK_LOST]
theorem moves_execPartnerClockLost {m : Nat} {r : State} {wl : Wl} {s : State} (h : Moves m r s)
    (hm : Within foot_execPartnerClockLost m) : Goes m r (execPartnerClockLost wl s) := by
  simp only [foot_execPartnerClockLost, fms, within_or, within_zero, and_true] at hm
  unfold execPartnerClockLost
  try dsimp only
  repeat' (first
    | with_reducible assumption | refine goes_next ?_ | with_reducible apply moves_wr |
    with_reducible apply moves_failAttempt | with_reducible apply moves_enterRetrain |
    with_reducible apply moves_laneFault | with_reducible apply moves_inc | with_reducible apply goes_ite |
    with_reducible apply moves_ite | split | intro _ | simp only [hm])

def foot_execPhyRetrain : Nat := foot_enterRetrain
theorem moves_execPhyRetrain {m : Nat} {r : State} {wl : Wl} {s : State} (h : Moves m r s)
    (hm : Within foot_execPhyRetrain m) : Goes m r (execPhyRetrain wl s) := by
  simp only [foot_execPhyRetrain] at hm
  unfold execPhyRetrain
  try dsimp only
  repeat' (first
    | with_reducible assumption | refine goes_next ?_ | with_reducible apply moves_enterRetrain)

def foot_execPartnerRetrain : Nat := foot_enterRetrain
theorem moves_execPartnerRetrain {m : Nat} {r : State} {wl : Wl} {s : State} (h : Moves m r s)
    (hm : Within foot_execPartnerRetrain m) : Goes m r (execPartnerRetrain wl s) := by
  simp only [foot_execPartnerRetrain] at hm
  unfold execPartnerRetrain
  try dsimp only
  repeat' (first
    | with_reducible assumption | refine goes_next ?_ | with_reducible apply moves_enterRetrain)

def foot_execRetrainDone : Nat := foot_failAttempt ||| foot_sendTs3 ||| foot_takeChoice ||| foot_markExcluded |||
    foot_enterActive ||| foot_enterSwitch
theorem moves_execRetrainDone {m : Nat} {r : State} {wl : Wl} {rate : Fin 4} {set : Fin 16} {s : State} (h : Moves m
    r s)
    (hm : Within foot_execRetrainDone m) : Goes m r (execRetrainDone wl rate set s) := by
  simp only [foot_execRetrainDone, within_or] at hm
  unfold execRetrainDone
  try dsimp only
  repeat' (first
    | with_reducible assumption | with_reducible intro _ | refine goes_next ?_ | with_reducible apply moves_when |
    with_reducible apply moves_failAttempt | with_reducible apply moves_sendTs3 | with_reducible apply moves_takeChoice
    | with_reducible apply moves_markExcluded | with_reducible apply moves_enterActive |
    with_reducible apply moves_enterSwitch | with_reducible apply goes_ite | with_reducible apply moves_ite | split |
    simp only [hm])

def foot_setDisable : Nat := foot_goDisabled ||| foot_leaveDisabled ||| foot_shown ||| foot_settlePrbs ||| fms
    [.WP_DISABLE]
theorem moves_setDisable {m : Nat} {r : State} {n : Nat} {v : Bool} {s : State} (h : Moves m r s)
    (hm : Within foot_setDisable m) : Moves m r (setDisable n v s) := by
  simp only [foot_setDisable, fms, within_or, within_zero, and_true] at hm
  unfold setDisable
  try dsimp only
  repeat' (first
    | with_reducible assumption | with_reducible intro _ | with_reducible apply moves_each |
    with_reducible apply moves_wr | with_reducible apply moves_goDisabled | with_reducible apply moves_leaveDisabled |
    with_reducible apply moves_shown | with_reducible apply moves_settlePrbs | with_reducible apply moves_ite | split |
    simp only [hm])

def foot_execWlaneDisableWrite : Nat := foot_setDisable
theorem moves_execWlaneDisableWrite {m : Nat} {r : State} {fn : Fn} {wl : Wl} {v : Bool} {s : State} (h : Moves m r s)
    (hm : Within foot_execWlaneDisableWrite m) : Goes m r (execWlaneDisableWrite fn wl v s) := by
  simp only [foot_execWlaneDisableWrite] at hm
  unfold execWlaneDisableWrite
  try dsimp only
  repeat' (first
    | with_reducible assumption | refine goes_next ?_ | with_reducible apply moves_when |
    with_reducible apply moves_setDisable | with_reducible apply goes_ite | with_reducible apply moves_ite | split |
    intro _)

def foot_execWlaneTrainWrite : Nat := foot_goDetect ||| foot_fullChoice
theorem moves_execWlaneTrainWrite {m : Nat} {r : State} {fn : Fn} {wl : Wl} {s : State} (h : Moves m r s)
    (hm : Within foot_execWlaneTrainWrite m) : Goes m r (execWlaneTrainWrite fn wl s) := by
  simp only [foot_execWlaneTrainWrite, within_or] at hm
  unfold execWlaneTrainWrite
  try dsimp only
  repeat' (first
    | with_reducible assumption | refine goes_next ?_ | with_reducible apply moves_when |
    with_reducible apply moves_goDetect | with_reducible apply moves_fullChoice | with_reducible apply goes_ite |
    with_reducible apply moves_ite | split | intro _ | simp only [hm])

def foot_writeLoopback : Nat := foot_enterLoopback ||| foot_restartPhy ||| fms [.WP_LOOPBACK, .WP_LB_REFUSED]
theorem moves_writeLoopback {m : Nat} {r : State} {n v : ℕ} {s : State} (h : Moves m r s)
    (hm : Within foot_writeLoopback m) : Moves m r (writeLoopback n v s) := by
  simp only [foot_writeLoopback, fms, within_or, within_zero, and_true] at hm
  unfold writeLoopback
  try dsimp only
  repeat' (first
    | with_reducible assumption | with_reducible apply moves_when | with_reducible apply moves_enterLoopback |
    with_reducible apply moves_wr | with_reducible apply moves_restartPhy | with_reducible apply moves_ite | split |
    intro _ | simp only [hm])

def foot_setStbyIdle : Nat := foot_shown ||| fms [.WP_STBY_IDLE]
theorem moves_setStbyIdle {m : Nat} {r : State} {n : Nat} {v : Bool} {s : State} (h : Moves m r s)
    (hm : Within foot_setStbyIdle m) : Moves m r (setStbyIdle n v s) := by
  simp only [foot_setStbyIdle, fms, within_or, within_zero, and_true] at hm
  unfold setStbyIdle
  try dsimp only
  repeat' (first
    | with_reducible assumption | with_reducible intro _ | with_reducible apply moves_wr |
    with_reducible apply moves_shown | with_reducible apply moves_ite | split | simp only [hm])

def foot_setTargetRate : Nat := foot_shown ||| fms [.WP_TARGET_RATE]
theorem moves_setTargetRate {m : Nat} {r : State} {n v : Nat} {s : State} (h : Moves m r s)
    (hm : Within foot_setTargetRate m) : Moves m r (setTargetRate n v s) := by
  simp only [foot_setTargetRate, fms, within_or, within_zero, and_true] at hm
  unfold setTargetRate
  try dsimp only
  repeat' (first
    | with_reducible assumption | with_reducible intro _ | with_reducible apply moves_wr |
    with_reducible apply moves_shown | with_reducible apply moves_ite | split | simp only [hm])

def foot_execLoopbackWrite : Nat := foot_writeLoopback
theorem moves_execLoopbackWrite {m : Nat} {r : State} {fn : Fn} {wl : Wl} {v : Fin 4} {s : State} (h : Moves m r s)
    (hm : Within foot_execLoopbackWrite m) : Goes m r (execLoopbackWrite fn wl v s) := by
  simp only [foot_execLoopbackWrite] at hm
  unfold execLoopbackWrite
  try dsimp only
  repeat' (first
    | with_reducible assumption | refine goes_next ?_ | with_reducible apply moves_when |
    with_reducible apply moves_writeLoopback | with_reducible apply goes_ite | with_reducible apply moves_ite | split
    | intro _)

def foot_setPrbs : Nat := foot_shown ||| foot_countPrbs ||| foot_settlePrbs ||| fms [.WP_PRBS_SYNC, .WP_GEN,
    .WP_CHK]
theorem moves_setPrbs {m : Nat} {r : State} {n k gen chk : Nat} {s : State} (h : Moves m r s)
    (hm : Within foot_setPrbs m) : Moves m r (setPrbs n k gen chk s) := by
  simp only [foot_setPrbs, fms, within_or, within_zero, and_true] at hm
  unfold setPrbs
  try dsimp only
  repeat' (first
    | with_reducible assumption | with_reducible intro _ | with_reducible apply moves_when |
    with_reducible apply moves_wr | with_reducible apply moves_shown | with_reducible apply moves_countPrbs |
    with_reducible apply moves_settlePrbs | with_reducible apply moves_ite | split | simp only [hm])

def foot_execLanePrbsWrite : Nat := foot_setPrbs
theorem moves_execLanePrbsWrite {m : Nat} {r : State} {fn : Fn} {wl : Wl} {lane gen chk : Fin 4} {s : State} (h :
    Moves m r s)
    (hm : Within foot_execLanePrbsWrite m) : Goes m r (execLanePrbsWrite fn wl lane gen chk s) := by
  simp only [foot_execLanePrbsWrite] at hm
  unfold execLanePrbsWrite
  try dsimp only
  repeat' (first
    | with_reducible assumption | with_reducible intro _ | refine goes_next ?_ | with_reducible apply moves_when |
    with_reducible apply moves_setPrbs | with_reducible apply goes_ite | with_reducible apply moves_ite | split |
    simp only [hm])

def foot_execPrbsSyncGain : Nat := fms [.WP_PRBS_SYNC]
theorem moves_execPrbsSyncGain {m : Nat} {r : State} {wl : Wl} {lane : Fin 4} {s : State} (h : Moves m r s)
    (hm : Within foot_execPrbsSyncGain m) : Goes m r (execPrbsSyncGain wl lane s) := by
  simp only [foot_execPrbsSyncGain, fms, within_or, within_zero, and_true] at hm
  unfold execPrbsSyncGain
  try dsimp only
  repeat' (first
    | with_reducible assumption | refine goes_next ?_ | with_reducible apply moves_when |
    with_reducible apply moves_wr | with_reducible apply goes_ite | with_reducible apply moves_ite | split | intro _)

def foot_execPrbsSyncLoss : Nat := fms [.WP_PRBS_SYNC, .WP_LN_ERR_CNT, .WP_LN_BITS_CNT]
theorem moves_execPrbsSyncLoss {m : Nat} {r : State} {wl : Wl} {lane : Fin 4} {bits errors : ℕ} {s : State} (h : Moves
    m r s)
    (hm : Within foot_execPrbsSyncLoss m) : Goes m r (execPrbsSyncLoss wl lane bits errors s) := by
  simp only [foot_execPrbsSyncLoss, fms, within_or, within_zero, and_true] at hm
  unfold execPrbsSyncLoss
  try dsimp only
  repeat' (first
    | with_reducible assumption | refine goes_next ?_ | with_reducible apply moves_when |
    with_reducible apply moves_wr | with_reducible apply moves_add | with_reducible apply goes_ite |
    with_reducible apply moves_ite | split | intro _ | simp only [hm])

def foot_execCntClr : Nat := fms [.WP_LN_BITS_CNT, .WP_LN_ERR_CNT]
theorem moves_execCntClr {m : Nat} {r : State} {fn : Fn} {wl : Wl} {lane : Fin 4} {s : State} (h : Moves m r s)
    (hm : Within foot_execCntClr m) : Goes m r (execCntClr fn wl lane s) := by
  simp only [foot_execCntClr, fms, within_or, within_zero, and_true] at hm
  unfold execCntClr
  try dsimp only
  repeat' (first
    | with_reducible assumption | refine goes_next ?_ | with_reducible apply moves_when |
    with_reducible apply moves_wr | with_reducible apply goes_ite | with_reducible apply moves_ite | split | intro _ |
    simp only [hm])

def foot_startInject : Nat := pms [.wps] ||| fms [.WP_LN_INJ_CNT]
theorem moves_startInject {m : Nat} {r : State} {n k : Nat} {s : State} (h : Moves m r s)
    (hm : Within foot_startInject m) : Moves m r (startInject n k s) := by
  simp only [foot_startInject, fms, pms, within_or, within_zero, and_true] at hm
  unfold startInject
  try dsimp only
  repeat' (first
    | with_reducible assumption | with_reducible intro _ | with_reducible apply moves_add |
    with_reducible apply moves_modWp | with_reducible apply moves_ite | split | simp only [hm])

def foot_execInjGo : Nat := foot_startInject
theorem moves_execInjGo {m : Nat} {r : State} {fn : Fn} {wl : Wl} {lane : Fin 4} {s : State} (h : Moves m r s)
    (hm : Within foot_execInjGo m) : Goes m r (execInjGo fn wl lane s) := by
  simp only [foot_execInjGo] at hm
  unfold execInjGo
  try dsimp only
  repeat' (first
    | with_reducible assumption | refine goes_next ?_ | with_reducible apply moves_when |
    with_reducible apply moves_startInject | with_reducible apply goes_ite | with_reducible apply moves_ite | split |
    intro _)

def foot_stopInject : Nat := foot_countInj ||| pms [.wps]
theorem moves_stopInject {m : Nat} {r : State} {n k : Nat} {s : State} (h : Moves m r s)
    (hm : Within foot_stopInject m) : Moves m r (stopInject n k s) := by
  simp only [foot_stopInject, pms, within_or, within_zero, and_true] at hm
  unfold stopInject
  try dsimp only
  repeat' (first
    | with_reducible assumption | with_reducible intro _ | with_reducible apply moves_modWp |
    with_reducible apply moves_countInj | with_reducible apply moves_ite | split | simp only [hm])

def foot_setInjMode : Nat := foot_stopInject ||| fms [.WP_INJ_MODE]
theorem moves_setInjMode {m : Nat} {r : State} {n k v : Nat} {s : State} (h : Moves m r s)
    (hm : Within foot_setInjMode m) : Moves m r (setInjMode n k v s) := by
  simp only [foot_setInjMode, fms, within_or, within_zero, and_true] at hm
  unfold setInjMode
  try dsimp only
  repeat' (first
    | with_reducible assumption | with_reducible intro _ | with_reducible apply moves_wr |
    with_reducible apply moves_stopInject | with_reducible apply moves_ite | split | simp only [hm])

def foot_execInjStop : Nat := foot_stopInject
theorem moves_execInjStop {m : Nat} {r : State} {fn : Fn} {wl : Wl} {lane : Fin 4} {s : State} (h : Moves m r s)
    (hm : Within foot_execInjStop m) : Goes m r (execInjStop fn wl lane s) := by
  simp only [foot_execInjStop] at hm
  unfold execInjStop
  try dsimp only
  repeat' (first
    | with_reducible assumption | refine goes_next ?_ | with_reducible apply moves_when |
    with_reducible apply moves_stopInject | with_reducible apply goes_ite | with_reducible apply moves_ite | split |
    intro _)

def foot_reshapeOver : Nat := foot_endReshape ||| foot_moveLane
theorem moves_reshapeOver {m : Nat} {r : State} {n : Nat} {s : State} (h : Moves m r s)
    (hm : Within foot_reshapeOver m) : Moves m r (reshapeOver n s) := by
  simp only [foot_reshapeOver, within_or] at hm
  unfold reshapeOver
  try dsimp only
  repeat' (first
    | with_reducible assumption | with_reducible intro _ | with_reducible apply moves_when |
    with_reducible apply moves_each | with_reducible apply moves_endReshape | with_reducible apply moves_moveLane |
    with_reducible apply moves_ite | split | simp only [hm])

def foot_switchRx : Nat := foot_moveLane ||| foot_reshapeOver ||| foot_trace ||| pms [.wls, .wps] ||| fms
    [.WP_ACTIVE_MASK, .WL_ACTIVE_SET, .WL_RESHAPE_DONE, .WL_RESHAPE_CNT]
theorem moves_switchRx {m : Nat} {r : State} {n : Nat} {s : State} (h : Moves m r s)
    (hm : Within foot_switchRx m) : Moves m r (switchRx n s) := by
  simp only [foot_switchRx, fms, pms, within_or, within_zero, and_true] at hm
  unfold switchRx
  try dsimp only
  repeat' (first
    | with_reducible assumption | with_reducible intro _ | with_reducible apply moves_when |
    with_reducible apply moves_each | with_reducible apply moves_wr | with_reducible apply moves_inc |
    with_reducible apply moves_modWl | with_reducible apply moves_modWp | with_reducible apply moves_moveLane |
    with_reducible apply moves_reshapeOver | with_reducible apply moves_trace | with_reducible apply moves_ite | split |
    simp only [hm])

def foot_execAlignmentBlockSend : Nat := foot_flushHalf ||| foot_reshapeOver ||| pms [.wps, .wls]
theorem moves_execAlignmentBlockSend {m : Nat} {r : State} {wl : Wl} {s : State} (h : Moves m r s)
    (hm : Within foot_execAlignmentBlockSend m) : Goes m r (execAlignmentBlockSend wl s) := by
  simp only [foot_execAlignmentBlockSend, pms, within_or, within_zero, and_true] at hm
  unfold execAlignmentBlockSend
  try dsimp only
  repeat' (first
    | with_reducible assumption | with_reducible intro _ | refine goes_next ?_ | with_reducible apply moves_when |
    with_reducible apply moves_modWp | with_reducible apply moves_modWl | with_reducible apply moves_emit |
    with_reducible apply moves_flushHalf | with_reducible apply moves_reshapeOver | with_reducible apply goes_ite |
    with_reducible apply moves_ite | split | simp only [hm])

def foot_alignCheck : Nat := foot_switchRx ||| foot_enterRetrain ||| foot_laneFault ||| pms [.wps] ||| fms
    [.WP_ALIGN_CNT, .WP_ALIGN_ERR]
theorem moves_alignCheck {m : Nat} {r : State} {n : Nat} {blocks : List (Fin 4 × Bytes)} {s : State} (h : Moves m r
    s)
    (hm : Within foot_alignCheck m) : Moves m r (alignCheck n blocks s) := by
  simp only [foot_alignCheck, fms, pms, within_or, within_zero, and_true] at hm
  unfold alignCheck
  try dsimp only
  repeat' (first
    | with_reducible assumption | with_reducible intro _ | with_reducible apply moves_add |
    with_reducible apply moves_wr | with_reducible apply moves_modWp | with_reducible apply moves_switchRx |
    with_reducible apply moves_enterRetrain | with_reducible apply moves_laneFault | with_reducible apply moves_ite |
    split | simp only [hm])

def foot_execAlignmentBlockReceive : Nat := foot_alignCheck
theorem moves_execAlignmentBlockReceive {m : Nat} {r : State} {wl : Wl} {blocks : List (Fin 4 × Bytes)} {s : State}
    (h : Moves m r s)
    (hm : Within foot_execAlignmentBlockReceive m) : Goes m r (execAlignmentBlockReceive wl blocks s) := by
  simp only [foot_execAlignmentBlockReceive] at hm
  unfold execAlignmentBlockReceive
  try dsimp only
  repeat' (first
    | with_reducible assumption | with_reducible intro _ | refine goes_next ?_ | with_reducible apply moves_when |
    with_reducible apply moves_alignCheck | with_reducible apply goes_ite | with_reducible apply moves_ite | split |
    simp only [hm])

def foot_execBackgroundTrainPass : Nat := foot_sendLinkMsg ||| pms [.wps, .wls]
theorem moves_execBackgroundTrainPass {m : Nat} {r : State} {wl : Wl} {run : BackgroundRun} {s : State}
    (h : Moves m r s)
    (hm : Within foot_execBackgroundTrainPass m) : Goes m r (execBackgroundTrainPass wl run s) := by
  simp only [foot_execBackgroundTrainPass, pms, within_or, within_zero, and_true] at hm
  unfold execBackgroundTrainPass
  try dsimp only
  repeat' (first
    | with_reducible assumption | with_reducible intro _ | refine goes_next ?_ | with_reducible apply moves_when |
    with_reducible apply moves_modWp | with_reducible apply moves_modWl | with_reducible apply moves_sendLinkMsg |
    with_reducible apply goes_ite | with_reducible apply moves_ite | split | simp only [hm])

def foot_execBackgroundTrainFail : Nat := foot_moveLane ||| foot_failReshape ||| foot_sendNak ||| fms [.WP_BG_FAIL]
theorem moves_execBackgroundTrainFail {m : Nat} {r : State} {wl : Wl} {lane : Fin 4} {s : State} (h : Moves m r s)
    (hm : Within foot_execBackgroundTrainFail m) : Goes m r (execBackgroundTrainFail wl lane s) := by
  simp only [foot_execBackgroundTrainFail, fms, within_or, within_zero, and_true] at hm
  unfold execBackgroundTrainFail
  try dsimp only
  repeat' (first
    | with_reducible assumption | with_reducible intro _ | refine goes_next ?_ | with_reducible apply moves_when |
    with_reducible apply moves_wr | with_reducible apply moves_moveLane | with_reducible apply moves_failReshape |
    with_reducible apply moves_sendNak | with_reducible apply goes_ite | with_reducible apply moves_ite | split |
    simp only [hm])

end Sys2Proof.Laws
end

