-- ==== Sys2Proof/Laws/FootClocks.lean ====
section
/-!
SUPPORT. The footprint of each operation of Machine/Clocks.lean: which register fields and parts of the state it may change.
-/
namespace Sys2Proof.Laws
open Sys2Proof.Machine

def foot_showPlls : Nat := foot_setReady
theorem moves_showPlls {m : Nat} {r : State} {s : State} (h : Moves m r s)
    (hm : Within foot_showPlls m) : Moves m r (showPlls s) := by
  simp only [foot_showPlls] at hm
  unfold showPlls
  try dsimp only
  repeat' (first
    | with_reducible assumption | with_reducible apply moves_each | with_reducible apply moves_when |
    with_reducible apply moves_setReady | with_reducible apply moves_ite | split | intro _)

def foot_setPd : Nat := foot_showObs ||| foot_showPlls ||| foot_trace ||| foot_showClkreqs ||| fms [.PW_STATE,
    .PW_ON_MAP, .CK_HELD, .PW_FN_READY]
theorem moves_setPd {m : Nat} {r : State} {d st : Nat} {s : State} (h : Moves m r s)
    (hm : Within foot_setPd m) : Moves m r (setPd d st s) := by
  simp only [foot_setPd, fms, within_or, within_zero, and_true] at hm
  unfold setPd
  try dsimp only
  repeat' (first
    | with_reducible assumption | with_reducible intro _ | with_reducible apply moves_when |
    with_reducible apply moves_each | with_reducible apply moves_wr | with_reducible apply moves_clrB |
    with_reducible apply moves_showObs | with_reducible apply moves_showPlls | with_reducible apply moves_trace |
    with_reducible apply moves_showClkreqs | with_reducible apply moves_ite | split | simp only [hm])

def foot_holdDomain : Nat := foot_ward ||| foot_setPd ||| fms [.CK_PLL_TRIP]
theorem moves_holdDomain {m : Nat} {r : State} {d : ℕ} {s : State} (h : Moves m r s)
    (hm : Within foot_holdDomain m) : Moves m r (holdDomain d s) := by
  simp only [foot_holdDomain, fms, within_or, within_zero, and_true] at hm
  unfold holdDomain
  try dsimp only
  repeat' (first
    | with_reducible assumption | with_reducible apply moves_when | with_reducible apply moves_ward |
    with_reducible apply moves_wr | with_reducible apply moves_setPd | with_reducible apply moves_ite | split |
    intro _ | simp only [hm])

def foot_showSwBusy : Nat := fms [.CK_SW_BUSY]
theorem moves_showSwBusy {m : Nat} {r : State} {s : State} (h : Moves m r s)
    (hm : Within foot_showSwBusy m) : Moves m r (showSwBusy s) := by
  simp only [foot_showSwBusy, fms, within_or, within_zero, and_true] at hm
  unfold showSwBusy
  try dsimp only
  repeat' (first
    | with_reducible assumption | with_reducible apply moves_wr)

def foot_startSwitch : Nat := foot_showSwBusy ||| pms [.clocks]
theorem moves_startSwitch {m : Nat} {r : State} {sel k : ℕ} {auto : Bool} {s : State} (h : Moves m r s)
    (hm : Within foot_startSwitch m) : Moves m r (startSwitch sel k auto s) := by
  simp only [foot_startSwitch, pms, within_or, within_zero, and_true] at hm
  unfold startSwitch
  try dsimp only
  repeat' (first
    | with_reducible assumption | with_reducible apply moves_showSwBusy | with_reducible apply moves_modClocks |
    with_reducible apply moves_ite | split | intro _ | simp only [hm])

def foot_putSource : Nat := foot_showDerived ||| fms [.CAD_CLK_FRO, .CK_AON_SRC, .CK_REF_SRC, .CK_KEEP_SRC,
    .CK_CORE_SRC]
theorem moves_putSource {m : Nat} {r : State} {sel k : ℕ} {s : State} (h : Moves m r s)
    (hm : Within foot_putSource m) : Moves m r (putSource sel k s) := by
  simp only [foot_putSource, fms, within_or, within_zero, and_true] at hm
  unfold putSource
  try dsimp only
  repeat' (first
    | with_reducible assumption | with_reducible apply moves_showDerived | with_reducible apply moves_wr |
    with_reducible apply moves_ite | split | intro _ | simp only [hm])

def foot_leaveFro : Nat := foot_startSwitch ||| pms [.clocks] ||| fms [.CK_FRO_RESTART]
theorem moves_leaveFro {m : Nat} {r : State} {s : State} (h : Moves m r s)
    (hm : Within foot_leaveFro m) : Moves m r (leaveFro s) := by
  simp only [foot_leaveFro, fms, pms, within_or, within_zero, and_true] at hm
  unfold leaveFro
  try dsimp only
  repeat' (first
    | with_reducible assumption | with_reducible intro _ | with_reducible apply moves_wr |
    with_reducible apply moves_modClocks | with_reducible apply moves_startSwitch | with_reducible apply moves_ite |
    split | simp only [hm])

def foot_reachSource : Nat := foot_trace ||| foot_putSource ||| foot_showSwBusy ||| foot_ward ||| foot_leaveFro ||| foot_finishWaiting
    ||| pms [.clocks] |||
    fms [.CK_SW_FORCED, .CK_FORCED_CNT, .CK_AON_FALLBACK, .CK_REF_FAILOVER,
    .CK_KEEP_FALLBACK]
theorem moves_reachSource {m : Nat} {r : State} {sel k : Nat} {auto forced : Bool} {s : State} (h : Moves m r s)
    (hm : Within foot_reachSource m) : Moves m r (reachSource sel k auto forced s) := by
  have hf : ∀ f, fallbackFlag sel k = some f → Within (fm f) m := by
    intro f hf
    refine within_fms ?_ (within_or.1 hm).2
    unfold fallbackFlag at hf
    split at hf
    · cases hf; simp
    · split at hf
      · cases hf; simp
      · split at hf
        · cases hf; simp
        · cases hf
  simp only [foot_reachSource, pms, fms, within_or, within_zero, and_true] at hm
  unfold reachSource
  dsimp only
  have hw : ∀ z, Moves m r z → Moves m r (withSome (fallbackFlag sel k) (fun f s => s.wr f 1) z) := by
    intro z hz
    unfold withSome
    split
    · exact moves_wr hz (hf _ (by assumption))
    · exact hz
  repeat' (first
    | with_reducible assumption | with_reducible apply moves_when | with_reducible apply moves_finishWaiting | with_reducible apply moves_leaveFro
    | with_reducible apply moves_ward | with_reducible apply moves_inc | with_reducible apply moves_wr
    | with_reducible apply hw | with_reducible apply moves_trace | with_reducible apply moves_putSource
    | with_reducible apply moves_showSwBusy | with_reducible apply moves_modClocks | intro _ | simp only [hm])


def foot_endSwitch : Nat := foot_reachSource
theorem moves_endSwitch {m : Nat} {r : State} {sel : ℕ} {forced : Bool} {s : State} (h : Moves m r s)
    (hm : Within foot_endSwitch m) : Moves m r (endSwitch sel forced s) := by
  simp only [foot_endSwitch] at hm
  unfold endSwitch
  try dsimp only
  repeat' (first
    | with_reducible assumption | with_reducible apply moves_reachSource | with_reducible apply moves_ite | split)

def foot_execClockSwitch : Nat := foot_runCmd ||| foot_finish ||| foot_waitOn ||| foot_startSwitch
theorem moves_execClockSwitch {m : Nat} {r : State} {r' : CmdReq} {selector source : ℕ} {s : State} (h : Moves m r s)
    (hm : Within foot_execClockSwitch m) : Goes m r (execClockSwitch r' selector source s) := by
  simp only [foot_execClockSwitch, within_or] at hm
  unfold execClockSwitch
  try dsimp only
  repeat' (first
    | with_reducible assumption | refine goes_next ?_ | with_reducible apply moves_runCmd |
    with_reducible apply moves_finish | with_reducible apply moves_waitOn | with_reducible apply moves_startSwitch |
    with_reducible apply cmd_mk | with_reducible apply goes_ite | with_reducible apply moves_ite | split | intro _ |
    simp only [hm] | simp only [id_eq])

def foot_bootClocks : Nat := foot_startSwitch
theorem moves_bootClocks {m : Nat} {r : State} {s : State} (h : Moves m r s)
    (hm : Within foot_bootClocks m) : Moves m r (bootClocks s) := by
  simp only [foot_bootClocks] at hm
  unfold bootClocks
  try dsimp only
  repeat' (first
    | with_reducible assumption | with_reducible apply moves_when | with_reducible apply moves_startSwitch |
    with_reducible apply moves_ite | split | intro _)

def foot_tripped : Nat := foot_trace ||| foot_setReady ||| fms [.CK_TRIP_CNT, .CK_TRIPPED]
theorem moves_tripped {m : Nat} {r : State} {k : ℕ} {s : State} (h : Moves m r s)
    (hm : Within foot_tripped m) : Moves m r (tripped k s) := by
  simp only [foot_tripped, fms, within_or, within_zero, and_true] at hm
  unfold tripped
  try dsimp only
  repeat' (first
    | with_reducible assumption | with_reducible apply moves_trace | with_reducible apply moves_inc |
    with_reducible apply moves_setReady | with_reducible apply moves_setB | with_reducible apply moves_ite | split |
    intro _ | simp only [hm])

def foot_abandonSwitches : Nat := foot_finishWaiting ||| foot_showSwBusy ||| pms [.clocks]
theorem moves_abandonSwitches {m : Nat} {r : State} {k : ℕ} {s : State} (h : Moves m r s)
    (hm : Within foot_abandonSwitches m) : Moves m r (abandonSwitches k s) := by
  simp only [foot_abandonSwitches, pms, within_or, within_zero, and_true] at hm
  unfold abandonSwitches
  try dsimp only
  repeat' (first
    | with_reducible assumption | with_reducible apply moves_each | with_reducible apply moves_when |
    with_reducible apply moves_modClocks | with_reducible apply moves_finishWaiting |
    with_reducible apply moves_showSwBusy | with_reducible apply moves_ite | split | intro _ | simp only [hm])

def foot_forceOff : Nat := foot_endSwitch
theorem moves_forceOff {m : Nat} {r : State} {k : ℕ} {s : State} (h : Moves m r s)
    (hm : Within foot_forceOff m) : Moves m r (forceOff k s).2 := by
  simp only [foot_forceOff] at hm
  unfold forceOff
  try dsimp only
  repeat' (first
    | with_reducible assumption | with_reducible apply moves_each | with_reducible apply moves_endSwitch |
    with_reducible apply moves_ite | split | intro _)

def foot_abortCount : Nat := fms [.CK_ABORTED, .CK_BUSY]
theorem moves_abortCount {m : Nat} {r : State} {s : State} (h : Moves m r s)
    (hm : Within foot_abortCount m) : Moves m r (abortCount s) := by
  simp only [foot_abortCount, fms, within_or, within_zero, and_true] at hm
  unfold abortCount
  try dsimp only
  repeat' (first
    | with_reducible assumption | with_reducible apply moves_when | with_reducible apply moves_wr |
    with_reducible apply moves_ite | split | intro _ | simp only [hm])

def foot_tripSource : Nat := foot_abortCount ||| foot_abandonSwitches ||| foot_tripped ||| foot_forceOff |||
    foot_startSwitch ||| foot_leaveFro ||| foot_pullFaultN ||| foot_showObs ||| foot_ward ||| pms [.clocks] ||| fms
    [.WD_ASYNC]
theorem moves_tripSource {m : Nat} {r : State} {k : Nat} {s : State} (h : Moves m r s)
    (hm : Within foot_tripSource m) : Moves m r (tripSource k s) := by
  simp only [foot_tripSource, fms, pms, within_or, within_zero, and_true] at hm
  unfold tripSource
  try dsimp only
  repeat' (first
    | with_reducible assumption | with_reducible intro _ | with_reducible apply moves_when |
    with_reducible apply moves_wr | with_reducible apply moves_modClocks | with_reducible apply moves_abortCount |
    with_reducible apply moves_abandonSwitches | with_reducible apply moves_tripped |
    with_reducible apply moves_forceOff | with_reducible apply moves_startSwitch | with_reducible apply moves_leaveFro |
    with_reducible apply moves_pullFaultN | with_reducible apply moves_showObs | with_reducible apply moves_ward |
    with_reducible apply moves_ite | split | simp only [hm])

def foot_tripFro : Nat := foot_abandonSwitches ||| foot_tripped ||| foot_forceOff ||| foot_startSwitch |||
    foot_leaveFro ||| foot_ward ||| pms [.clocks]
theorem moves_tripFro {m : Nat} {r : State} {s : State} (h : Moves m r s)
    (hm : Within foot_tripFro m) : Moves m r (tripFro s) := by
  simp only [foot_tripFro, pms, within_or, within_zero, and_true] at hm
  unfold tripFro
  try dsimp only
  repeat' (first
    | with_reducible assumption | with_reducible intro _ | with_reducible apply moves_when |
    with_reducible apply moves_modClocks | with_reducible apply moves_abandonSwitches |
    with_reducible apply moves_tripped | with_reducible apply moves_forceOff | with_reducible apply moves_startSwitch |
    with_reducible apply moves_leaveFro | with_reducible apply moves_ward | with_reducible apply moves_ite | split |
    simp only [hm])

def foot_lostClock : Nat := foot_ward
theorem moves_lostClock {m : Nat} {r : State} {d : Nat} {s : State} (h : Moves m r s)
    (hm : Within foot_lostClock m) : Moves m r (lostClock d s) := by
  simp only [foot_lostClock] at hm
  unfold lostClock
  try dsimp only
  repeat' (first
    | with_reducible assumption | with_reducible intro _ | with_reducible apply moves_when |
    with_reducible apply moves_ward | with_reducible apply moves_ite | split | simp only [hm])

def foot_tripPll : Nat := foot_leaveFro ||| foot_abandonSwitches ||| foot_tripped ||| foot_forceOff |||
    foot_lostClock ||| foot_holdDomain ||| foot_startSwitch ||| foot_enterRestart ||| foot_linkDown ||| foot_showTx |||
    foot_goDisabled
theorem moves_tripPll {m : Nat} {r : State} {k : Nat} {s : State} (h : Moves m r s)
    (hm : Within foot_tripPll m) : Moves m r (tripPll k s) := by
  simp only [foot_tripPll, within_or] at hm
  unfold tripPll
  try dsimp only
  repeat' (first
    | with_reducible assumption | with_reducible intro _ | with_reducible apply moves_when |
    with_reducible apply moves_each | with_reducible apply moves_leaveFro | with_reducible apply moves_abandonSwitches |
    with_reducible apply moves_tripped | with_reducible apply moves_forceOff | with_reducible apply moves_lostClock |
    with_reducible apply moves_holdDomain | with_reducible apply moves_startSwitch |
    with_reducible apply moves_enterRestart | with_reducible apply moves_linkDown | with_reducible apply moves_showTx |
    with_reducible apply moves_goDisabled | with_reducible apply moves_ite | split | simp only [hm])

def foot_execFreqCountStart : Nat := pms [.clocks] ||| fms [.CK_FC_CKID, .CK_BUSY, .CK_ABORTED]
theorem moves_execFreqCountStart {m : Nat} {r : State} {fn : Fn} {ckid : Fin 256} {s : State} (h : Moves m r s)
    (hm : Within foot_execFreqCountStart m) : Goes m r (execFreqCountStart fn ckid s) := by
  simp only [foot_execFreqCountStart, fms, pms, within_or, within_zero, and_true] at hm
  unfold execFreqCountStart
  try dsimp only
  repeat' (first
    | with_reducible assumption | with_reducible intro _ | refine goes_next ?_ | with_reducible apply moves_when |
    with_reducible apply moves_wr | with_reducible apply moves_modClocks | with_reducible apply goes_ite |
    with_reducible apply moves_ite | split | simp only [hm])

def foot_execFreqCountEnd : Nat := fms [.CK_FC_COUNT, .CK_BUSY, .CK_DONE]
theorem moves_execFreqCountEnd {m : Nat} {r : State} {edges : Nat} {s : State} (h : Moves m r s)
    (hm : Within foot_execFreqCountEnd m) : Goes m r (execFreqCountEnd edges s) := by
  simp only [foot_execFreqCountEnd, fms, within_or, within_zero, and_true] at hm
  unfold execFreqCountEnd
  try dsimp only
  repeat' (first
    | with_reducible assumption | with_reducible intro _ | refine goes_next ?_ | with_reducible apply moves_when |
    with_reducible apply moves_wr | with_reducible apply goes_ite | with_reducible apply moves_ite | split |
    simp only [hm])

def foot_driveClkobs : Nat := foot_showObs ||| pms [.clocks]
theorem moves_driveClkobs {m : Nat} {r : State} {s : State} (h : Moves m r s)
    (hm : Within foot_driveClkobs m) : Moves m r (driveClkobs s) := by
  simp only [foot_driveClkobs, pms, within_or, within_zero, and_true] at hm
  unfold driveClkobs
  try dsimp only
  repeat' (first
    | with_reducible assumption | with_reducible intro _ | with_reducible apply moves_modClocks |
    with_reducible apply moves_emit | with_reducible apply moves_showObs | with_reducible apply moves_ite | split |
    simp only [hm])

def foot_execClkobsWrite : Nat := foot_driveClkobs ||| fms [.CK_DIV, .CK_SEL]
theorem moves_execClkobsWrite {m : Nat} {r : State} {fn : Fn} {sel : Fin 256} {div : Fin 8192} {s : State} (h : Moves
    m r s)
    (hm : Within foot_execClkobsWrite m) : Goes m r (execClkobsWrite fn sel div s) := by
  simp only [foot_execClkobsWrite, fms, within_or, within_zero, and_true] at hm
  unfold execClkobsWrite
  try dsimp only
  repeat' (first
    | with_reducible assumption | refine goes_next ?_ | with_reducible apply moves_when |
    with_reducible apply moves_driveClkobs | with_reducible apply moves_wr | with_reducible apply goes_ite |
    with_reducible apply moves_ite | split | intro _ | simp only [hm])

def foot_execClockMeasure : Nat := foot_runCmd ||| foot_finish
theorem moves_execClockMeasure {m : Nat} {r : State} {r' : CmdReq} {ckid gate count : Nat} {s : State} (h : Moves m
    r s)
    (hm : Within foot_execClockMeasure m) : Goes m r (execClockMeasure r' ckid gate count s) := by
  simp only [foot_execClockMeasure, within_or] at hm
  unfold execClockMeasure
  try dsimp only
  repeat' (first
    | with_reducible assumption | with_reducible intro _ | refine goes_next ?_ | with_reducible apply moves_runCmd |
    with_reducible apply moves_finish | with_reducible apply cmd_mk | with_reducible apply goes_ite |
    with_reducible apply moves_ite | split | simp only [hm] | simp only [id_eq])

end Sys2Proof.Laws
end

