-- ==== Sys2Proof/Laws/FootPower.lean ====
section
/-!
SUPPORT. The footprint of each operation of Machine/Power.lean: which register fields and parts of the state it may change.
-/
namespace Sys2Proof.Laws
open Sys2Proof.Machine

/-- The blocks that a switchable domain holds registers of. -/
def domBlks : List Blk :=
  [.keeper, .hub, .tenant, .trace, .hostlink, .weaseif, .tiller, .outwin, .inwin, .intwin, .channel, .sheaf, .fnirq,
   .cmdring, .wlane, .counters]

theorem keyDomain_blk {k : RegKey} {x : Nat} (h : (keyDomain k == some x) = true) : domBlks.contains k.f.blk = true := by
  obtain ⟨f, i, j⟩ := k
  simp only [keyDomain] at h
  simp only [Fld.blk]
  generalize f.info.blk = b at h
  cases b <;> first | rfl | cases h

/-- The footprint of a domain's return to reset values. -/
def foot_domReset : Nat := foot_blks domBlks ||| pms [.latches]
theorem moves_domReset1 {m : Nat} {r s : State} {x : Nat} (h : Moves m r s) (hm : Within foot_domReset m) :
    Moves m r (s.resetRegs (fun k => keyDomain k == some x)) := by
  simp only [foot_domReset, pms, within_or, within_zero, and_true] at hm
  exact moves_resetRegs h (fun k hk => testBit_blks (keyDomain_blk hk) hm.1) hm.2
theorem moves_domReset2 {m : Nat} {r s : State} {x : Nat} {q : RegKey → Bool} (h : Moves m r s)
    (hm : Within foot_domReset m) : Moves m r (s.resetRegs (fun k => keyDomain k == some x && q k)) := by
  simp only [foot_domReset, pms, within_or, within_zero, and_true] at hm
  exact moves_resetRegs h (fun k hk => testBit_blks (keyDomain_blk (Bool.and_eq_true_iff.1 hk).1) hm.1) hm.2


def foot_forsake : Nat := pms [.tags]
theorem moves_forsake {m : Nat} {r : State} {p : HReq → Bool} {s : State} (h : Moves m r s)
    (hm : Within foot_forsake m) : Moves m r (forsake p s) := by
  simp only [foot_forsake, pms, within_or, within_zero, and_true] at hm
  unfold forsake
  try dsimp only
  repeat' (first
    | with_reducible assumption | with_reducible apply moves_mapTags)

def foot_allRoundsDirty : Nat := pms [.logs]
theorem moves_allRoundsDirty {m : Nat} {r : State} {n : Nat} {s : State} (h : Moves m r s)
    (hm : Within foot_allRoundsDirty m) : Moves m r (allRoundsDirty n s) := by
  simp only [foot_allRoundsDirty, pms, within_or, within_zero, and_true] at hm
  unfold allRoundsDirty
  try dsimp only
  repeat' (first
    | with_reducible assumption | with_reducible intro _ | with_reducible apply moves_modLog |
    with_reducible apply moves_ite | split | simp only [hm])

def foot_loseLines : Nat := foot_roundDirty ||| foot_forsake ||| foot_logSettle ||| foot_allRoundsDirty ||| pms
    [.hostQ, .dirty]
theorem moves_loseLines {m : Nat} {r : State} {t : Nat} {s : State} (h : Moves m r s)
    (hm : Within foot_loseLines m) : Moves m r (loseLines t s) := by
  simp only [foot_loseLines, pms, within_or, within_zero, and_true] at hm
  unfold loseLines
  try dsimp only
  repeat' (first
    | with_reducible assumption | with_reducible intro _ | with_reducible apply moves_each |
    with_reducible apply moves_filterHostQ | with_reducible apply moves_roundDirty | with_reducible apply moves_forsake
    | with_reducible apply moves_logSettle | with_reducible apply moves_allRoundsDirty | with_reducible apply moves_ite
    | split | with_reducible apply moves_part_dirty | simp only [hm])

def foot_loseRecords : Nat := pms [.trace]
theorem moves_loseRecords {m : Nat} {r : State} {b : Nat} {s : State} (h : Moves m r s)
    (hm : Within foot_loseRecords m) : Moves m r (loseRecords b s) := by
  simp only [foot_loseRecords, pms, within_or, within_zero, and_true] at hm
  unfold loseRecords
  try dsimp only
  repeat' (first
    | with_reducible assumption | with_reducible intro _ | with_reducible apply moves_modTrace |
    with_reducible apply moves_ite | split | simp only [hm])

def foot_loseReceived : Nat := foot_showSheaf ||| pms [.hostQ, .wls, .sheafPkts]
theorem moves_loseReceived {m : Nat} {r : State} {t : Nat} {s : State} (h : Moves m r s)
    (hm : Within foot_loseReceived m) : Moves m r (loseReceived t s) := by
  simp only [foot_loseReceived, pms, within_or, within_zero, and_true] at hm
  unfold loseReceived
  try dsimp only
  repeat' (first
    | with_reducible assumption | with_reducible intro _ | with_reducible apply moves_each |
    with_reducible apply moves_filterHostQ | with_reducible apply moves_mapWls | with_reducible apply moves_showSheaf |
    with_reducible apply moves_ite | split | with_reducible apply moves_part_sheafPkts | simp only [hm])

def foot_bankEffect : Nat := (foot_setMode .TI_LOST) ||| foot_linkReset ||| foot_loseReceived ||| foot_dropAhead |||
    foot_showBlocked ||| foot_loseLines ||| foot_breakTn ||| foot_loseRecords ||| fms [.TI_CB_READY, .TI_SPARE_READY]
theorem moves_bankEffect {m : Nat} {r : State} {b : Nat} {s : State} (h : Moves m r s)
    (hm : Within foot_bankEffect m) : Moves m r (bankEffect b s) := by
  simp only [foot_bankEffect, fms, within_or, within_zero, and_true] at hm
  unfold bankEffect
  try dsimp only
  repeat' (first
    | with_reducible assumption | with_reducible intro _ | with_reducible apply moves_each |
    with_reducible apply moves_wr | with_reducible apply moves_setMode | with_reducible apply moves_linkReset |
    with_reducible apply moves_loseReceived | with_reducible apply moves_dropAhead |
    with_reducible apply moves_showBlocked | with_reducible apply moves_loseLines | with_reducible apply moves_breakTn |
    with_reducible apply moves_loseRecords | with_reducible apply moves_ite | split | simp only [hm])

def foot_loseBank : Nat := foot_setBankLost ||| foot_ward ||| fms [.PW_LOST_CNT]
theorem moves_loseBank {m : Nat} {r : State} {b : ℕ} {s : State} (h : Moves m r s)
    (hm : Within foot_loseBank m) : Moves m r (loseBank b s) := by
  simp only [foot_loseBank, fms, within_or, within_zero, and_true] at hm
  unfold loseBank
  try dsimp only
  repeat' (first
    | with_reducible assumption | with_reducible apply moves_draw | with_reducible apply moves_inc |
    with_reducible apply moves_setBankLost | with_reducible apply moves_ward | with_reducible apply moves_ite | split
    | intro _ | simp only [hm])

def foot_restartRing : Nat := foot_ringNote ||| pms [.trace] ||| fms [.TR_OLDEST, .TR_STOPPED]
theorem moves_restartRing {m : Nat} {r : State} {s : State} (h : Moves m r s)
    (hm : Within foot_restartRing m) : Moves m r (restartRing s) := by
  simp only [foot_restartRing, fms, pms, within_or, within_zero, and_true] at hm
  unfold restartRing
  try dsimp only
  repeat' (first
    | with_reducible assumption | with_reducible intro _ | with_reducible apply moves_wr |
    with_reducible apply moves_modTrace | with_reducible apply moves_ringNote | with_reducible apply moves_ite | split |
    simp only [hm])

def foot_bankPasses : Nat := foot_setBankLost ||| (foot_setMode .TI_BRINGUP) ||| (foot_setMode .TI_LOST) |||
    foot_leaveDisabled ||| foot_showBlocked ||| foot_restartRing ||| fms [.TI_CB_READY, .TI_SPARE_READY]
theorem moves_bankPasses {m : Nat} {r : State} {b : ℕ} {s : State} (h : Moves m r s)
    (hm : Within foot_bankPasses m) : Moves m r (bankPasses b s) := by
  simp only [foot_bankPasses, fms, within_or, within_zero, and_true] at hm
  unfold bankPasses
  try dsimp only
  repeat' (first
    | with_reducible assumption | with_reducible apply moves_each | with_reducible apply moves_when |
    with_reducible apply moves_setBankLost | with_reducible apply moves_wr | with_reducible apply moves_setMode |
    with_reducible apply moves_leaveDisabled | with_reducible apply moves_showBlocked |
    with_reducible apply moves_restartRing | with_reducible apply moves_ite | split | intro _ | simp only [hm])

def foot_showPads : Nat := fms [.PW_PAD_HOLD_MAP, .PW_PAD_HOLD]
theorem moves_showPads {m : Nat} {r : State} {d : ℕ} {held : Bool} {s : State} (h : Moves m r s)
    (hm : Within foot_showPads m) : Moves m r (showPads d held s) := by
  simp only [foot_showPads, fms, within_or, within_zero, and_true] at hm
  unfold showPads
  try dsimp only
  repeat' (first
    | with_reducible assumption | with_reducible apply moves_wr | with_reducible apply moves_ite | split | intro _ |
    simp only [hm])

def foot_holdPads : Nat := foot_showPads ||| foot_showClkreqs ||| foot_endRun ||| foot_showTx ||| foot_goDisabled
theorem moves_holdPads {m : Nat} {r : State} {d : Nat} {s : State} (h : Moves m r s)
    (hm : Within foot_holdPads m) : Moves m r (holdPads d s) := by
  simp only [foot_holdPads, within_or] at hm
  unfold holdPads
  try dsimp only
  repeat' (first
    | with_reducible assumption | with_reducible intro _ | with_reducible apply moves_when |
    with_reducible apply moves_each | with_reducible apply moves_showPads | with_reducible apply moves_showClkreqs |
    with_reducible apply moves_endRun | with_reducible apply moves_showTx | with_reducible apply moves_goDisabled |
    with_reducible apply moves_ite | split | simp only [hm])

def foot_releasePads : Nat := foot_showPads ||| foot_showClkreqs ||| foot_leaveDisabled ||| foot_showTx
theorem moves_releasePads {m : Nat} {r : State} {d : Nat} {s : State} (h : Moves m r s)
    (hm : Within foot_releasePads m) : Moves m r (releasePads d s) := by
  simp only [foot_releasePads, within_or] at hm
  unfold releasePads
  try dsimp only
  repeat' (first
    | with_reducible assumption | with_reducible intro _ | with_reducible apply moves_each |
    with_reducible apply moves_showPads | with_reducible apply moves_showClkreqs |
    with_reducible apply moves_leaveDisabled | with_reducible apply moves_showTx | with_reducible apply moves_ite |
    split | simp only [hm])

def foot_cutTiller : Nat := foot_releaseTag ||| foot_forsake ||| foot_loseLines ||| pms [.hostQ, .wls, .locReqs,
    .inRds, .sheafPkts, .sheafAcc]
theorem moves_cutTiller {m : Nat} {r : State} {t : Nat} {s : State} (h : Moves m r s)
    (hm : Within foot_cutTiller m) : Moves m r (cutTiller t s) := by
  simp only [foot_cutTiller, pms, within_or, within_zero, and_true] at hm
  unfold cutTiller
  try dsimp only
  repeat' (first
    | with_reducible assumption | with_reducible intro _ | with_reducible apply moves_each |
    with_reducible apply moves_filterHostQ | with_reducible apply moves_mapWls | with_reducible apply moves_releaseTag |
    with_reducible apply moves_forsake | with_reducible apply moves_loseLines | with_reducible apply moves_ite | split |
    with_reducible apply moves_part_locReqs | with_reducible apply moves_part_inRds |
    with_reducible apply moves_part_sheafPkts | with_reducible apply moves_part_sheafAcc |
    with_reducible apply moves_parts | with_reducible exact Or.inl rfl | (refine Or.inr ?_; simp only [hm]) |
    simp only [hm])

def foot_closePorts : Nat := foot_discardWaiting ||| foot_failSrc ||| foot_haltChannel ||| foot_linkDown ||| fms
    [.CH_CODE]
theorem moves_closePorts {m : Nat} {r : State} {tls : List Nat} {s : State} (h : Moves m r s)
    (hm : Within foot_closePorts m) : Moves m r (closePorts tls s) := by
  simp only [foot_closePorts, fms, within_or, within_zero, and_true] at hm
  unfold closePorts
  try dsimp only
  repeat' (first
    | with_reducible assumption | with_reducible intro _ | with_reducible apply moves_when |
    with_reducible apply moves_each | with_reducible apply moves_wr | with_reducible apply moves_discardWaiting |
    with_reducible apply moves_failSrc | with_reducible apply moves_haltChannel | with_reducible apply moves_linkDown |
    with_reducible apply moves_ite | split | simp only [hm])

def foot_downTiller : Nat := foot_cutTiller ||| foot_linkReset ||| foot_closePorts
theorem moves_downTiller {m : Nat} {r : State} {t : Nat} {s : State} (h : Moves m r s)
    (hm : Within foot_downTiller m) : Moves m r (downTiller t s) := by
  simp only [foot_downTiller, within_or] at hm
  unfold downTiller
  try dsimp only
  repeat' (first
    | with_reducible assumption | with_reducible intro _ | with_reducible apply moves_each |
    with_reducible apply moves_cutTiller | with_reducible apply moves_linkReset | with_reducible apply moves_closePorts
    | with_reducible apply moves_ite | split | simp only [hm])

def foot_dropQuarantine : Nat := foot_releaseTag ||| pms [.hls]
theorem moves_dropQuarantine {m : Nat} {r : State} {t : Nat} {s : State} (h : Moves m r s)
    (hm : Within foot_dropQuarantine m) : Moves m r (dropQuarantine t s) := by
  simp only [foot_dropQuarantine, pms, within_or, within_zero, and_true] at hm
  unfold dropQuarantine
  try dsimp only
  repeat' (first
    | with_reducible assumption | with_reducible intro _ | with_reducible apply moves_each |
    with_reducible apply moves_modHl | with_reducible apply moves_releaseTag | with_reducible apply moves_ite | split |
    simp only [hm])

def foot_putWlCfg : Nat := pms [.wls] |||
  fms [.WP_TARGET_RATE, .WP_MIN_WIDTH, .WP_LANE_EN, .WP_DISABLE, .WP_PEER,
    .WL_REPLAY_LIMIT, .WL_REPLAY_TO,
    .WL_GRACE, .WL_ERR_LIMIT, .WL_ERR_WINDOW, .WL_RESHAPE_TO]
theorem moves_putWlCfg {m : Nat} {r : State} {n bit v : Nat} {s : State} (h : Moves m r s)
    (hm : Within foot_putWlCfg m) : Moves m r (putWlCfg n bit v s) := by
  simp only [foot_putWlCfg, pms, within_or, within_zero, and_true] at hm
  unfold putWlCfg
  split
  · rename_i f hf
    refine moves_wr h (within_fms ?_ hm.2)
    unfold wlCfgFld at hf
    split at hf <;> cases hf <;> simp
  · exact moves_modWl h hm.1

def foot_loadWlCfg : Nat := foot_putWlCfg
theorem moves_loadWlCfg {m : Nat} {r : State} {lanes : Bool} {t : ℕ} {s : State} (h : Moves m r s)
    (hm : Within foot_loadWlCfg m) : Moves m r (loadWlCfg lanes t s) := by
  simp only [foot_loadWlCfg] at hm
  unfold loadWlCfg
  try dsimp only
  repeat' (first
    | with_reducible assumption | with_reducible apply moves_each | with_reducible apply moves_putWlCfg |
    with_reducible apply moves_ite | split | intro _)

def foot_wphyClear : Nat := foot_domReset ||| pms [.wps]
theorem moves_wphyClear {m : Nat} {r : State} {t : Nat} {s : State} (h : Moves m r s)
    (hm : Within foot_wphyClear m) : Moves m r (wphyClear t s) := by
  simp only [foot_wphyClear, pms, within_or, within_zero, and_true] at hm
  unfold wphyClear
  try dsimp only
  repeat' (first
    | with_reducible assumption | with_reducible intro _ | with_reducible apply moves_domReset1 |
    with_reducible apply moves_domReset2 | with_reducible apply moves_ite | split | with_reducible apply moves_part_wps
    | simp only [hm])

def foot_wphyFresh : Nat := foot_loadWlCfg ||| foot_wphyClear
theorem moves_wphyFresh {m : Nat} {r : State} {t : Nat} {s : State} (h : Moves m r s)
    (hm : Within foot_wphyFresh m) : Moves m r (wphyFresh t s) := by
  simp only [foot_wphyFresh, within_or] at hm
  unfold wphyFresh
  try dsimp only
  repeat' (first
    | with_reducible assumption | with_reducible intro _ | with_reducible apply moves_loadWlCfg |
    with_reducible apply moves_wphyClear | with_reducible apply moves_ite | split | simp only [hm])

def foot_tlFresh : Nat := foot_applyPort ||| (foot_setMode .TI_BRINGUP) ||| (foot_setMode .TI_LOST) |||
    (foot_setMode .TI_RECOVERY) ||| foot_loadWlCfg ||| foot_domReset ||| pms [.hls, .cfg, .vecs, .chans, .dests,
    .consLast] ||| fms [.HL_PERST, .TI_CB_READY, .TI_SPARE_READY, .WL_LSTATE, .PW_FN_READY]
theorem moves_tlFresh {m : Nat} {r : State} {t : Nat} {s : State} (h : Moves m r s)
    (hm : Within foot_tlFresh m) : Moves m r (tlFresh t s) := by
  simp only [foot_tlFresh, fms, pms, within_or, within_zero, and_true] at hm
  unfold tlFresh
  try dsimp only
  repeat' (first
    | with_reducible assumption | with_reducible intro _ | with_reducible apply moves_when |
    with_reducible apply moves_each | with_reducible apply moves_wr | with_reducible apply moves_clrB |
    with_reducible apply moves_modHl | with_reducible apply moves_applyPort | with_reducible apply moves_setMode |
    with_reducible apply moves_loadWlCfg | with_reducible apply moves_domReset1 | with_reducible apply moves_domReset2 |
    with_reducible apply moves_ite | split | with_reducible apply moves_part_cfg | with_reducible apply moves_part_vecs
    | with_reducible apply moves_part_chans | with_reducible apply moves_part_dests |
    with_reducible apply moves_part_consLast | with_reducible apply moves_parts | with_reducible exact Or.inl rfl |
    (refine Or.inr ?_; simp only [hm]) | simp only [hm])

def foot_giveHeldCauses : Nat := foot_raiseCause ||| pms [.heldCauses]
theorem moves_giveHeldCauses {m : Nat} {r : State} {t : Nat} {s : State} (h : Moves m r s)
    (hm : Within foot_giveHeldCauses m) : Moves m r (giveHeldCauses t s) := by
  simp only [foot_giveHeldCauses, pms, within_or, within_zero, and_true] at hm
  unfold giveHeldCauses
  try dsimp only
  repeat' (first
    | with_reducible assumption | with_reducible intro _ | with_reducible apply moves_each |
    with_reducible apply moves_raiseCause | with_reducible apply moves_ite | split |
    with_reducible apply moves_part_heldCauses | simp only [hm])

def foot_endStream : Nat := pms [.trace] ||| fms [.TR_STREAM_ON, .TR_STREAM_PAUSED]
theorem moves_endStream {m : Nat} {r : State} {t : Nat} {s : State} (h : Moves m r s)
    (hm : Within foot_endStream m) : Moves m r (endStream t s) := by
  simp only [foot_endStream, fms, pms, within_or, within_zero, and_true] at hm
  unfold endStream
  try dsimp only
  repeat' (first
    | with_reducible assumption | with_reducible intro _ | with_reducible apply moves_when |
    with_reducible apply moves_wr | with_reducible apply moves_modTrace | with_reducible apply moves_ite | split |
    simp only [hm])

def foot_tlRestore : Nat := foot_setBucket ||| foot_showExcused ||| foot_showPools ||| foot_showRefclk |||
    foot_endStream ||| foot_loadPf ||| foot_giveHeldCauses ||| pms [.hls] ||| fms [.PW_FN_READY]
theorem moves_tlRestore {m : Nat} {r : State} {t : Nat} {s : State} (h : Moves m r s)
    (hm : Within foot_tlRestore m) : Moves m r (tlRestore t s) := by
  simp only [foot_tlRestore, fms, pms, within_or, within_zero, and_true] at hm
  unfold tlRestore
  try dsimp only
  repeat' (first
    | with_reducible assumption | with_reducible intro _ | with_reducible apply moves_when |
    with_reducible apply moves_each | with_reducible apply moves_setB | with_reducible apply moves_modHl |
    with_reducible apply moves_setBucket | with_reducible apply moves_showExcused | with_reducible apply moves_showPools
    | with_reducible apply moves_showRefclk | with_reducible apply moves_endStream | with_reducible apply moves_loadPf |
    with_reducible apply moves_giveHeldCauses | with_reducible apply moves_ite | split | simp only [hm])

def foot_endTenant : Nat := foot_finishWaiting ||| foot_dropLog ||| foot_writeOut ||| foot_writeIn ||| foot_writeInt
    ||| foot_writeSheaf ||| foot_takeChan ||| (foot_resetBlk .tenant) ||| pms [.tens] ||| fms [.FI_VEC_COUNT,
    .DVSEC_GENERATION, .DVSEC_TNID]
theorem moves_endTenant {m : Nat} {r : State} {n : ℕ} {s : State} (h : Moves m r s)
    (hm : Within foot_endTenant m) : Moves m r (endTenant n s) := by
  simp only [foot_endTenant, fms, pms, within_or, within_zero, and_true] at hm
  unfold endTenant
  try dsimp only
  repeat' (first
    | with_reducible assumption | with_reducible apply moves_each | with_reducible apply moves_finishWaiting |
    with_reducible apply moves_dropLog | with_reducible apply moves_writeOut | with_reducible apply moves_writeIn |
    with_reducible apply moves_writeInt | with_reducible apply moves_writeSheaf | with_reducible apply moves_takeChan
    | with_reducible apply moves_wr | with_reducible apply moves_modTen | with_reducible apply moves_resetBlk |
    with_reducible apply moves_ite | split | intro _ | simp only [hm])

def foot_hubFresh : Nat := foot_endTenant ||| foot_domReset ||| foot_ringNote ||| foot_dirChange ||| foot_showPools
    ||| pms [.trace]
theorem moves_hubFresh {m : Nat} {r : State} {s : State} (h : Moves m r s)
    (hm : Within foot_hubFresh m) : Moves m r (hubFresh s) := by
  simp only [foot_hubFresh, pms, within_or, within_zero, and_true] at hm
  unfold hubFresh
  try dsimp only
  repeat' (first
    | with_reducible assumption | with_reducible apply moves_each | with_reducible apply moves_when |
    with_reducible apply moves_endTenant | with_reducible apply moves_domReset1 | with_reducible apply moves_domReset2
    | with_reducible apply moves_modTrace | with_reducible apply moves_ringNote | with_reducible apply moves_dirChange
    | with_reducible apply moves_showPools | with_reducible apply moves_ite | split | intro _ | simp only [hm])

def foot_clearSteps : Nat := fms [.PW_REG_RDY, .PW_CLK_RDY, .PW_MEM_RDY, .PW_LOGIC_RDY, .PW_REFCLK_WAIT]
theorem moves_clearSteps {m : Nat} {r : State} {d : Nat} {s : State} (h : Moves m r s)
    (hm : Within foot_clearSteps m) : Moves m r (clearSteps d s) :=
  moves_each_mem h (fun _ hf _ hz => moves_wr hz (within_fms hf hm))

def foot_toRet : Nat := foot_dropQuarantine ||| foot_holdPads ||| foot_clearSteps ||| foot_setPd ||| foot_showRefclk
    ||| fms [.PW_BANK_SIG]
theorem moves_toRet {m : Nat} {r : State} {d : ℕ} {s : State} (h : Moves m r s)
    (hm : Within foot_toRet m) : Moves m r (toRet d s) := by
  simp only [foot_toRet, fms, within_or, within_zero, and_true] at hm
  unfold toRet
  try dsimp only
  repeat' (first
    | with_reducible assumption | with_reducible apply moves_each | with_reducible apply moves_draw |
    with_reducible apply moves_when | with_reducible apply moves_wr | with_reducible apply moves_dropQuarantine |
    with_reducible apply moves_holdPads | with_reducible apply moves_clearSteps | with_reducible apply moves_setPd |
    with_reducible apply moves_showRefclk | with_reducible apply moves_ite | split | intro _ | simp only [hm])

def foot_phyOff : Nat := foot_clearSteps ||| foot_setPd ||| foot_holdPads ||| foot_wphyClear
theorem moves_phyOff {m : Nat} {r : State} {d : Nat} {s : State} (h : Moves m r s)
    (hm : Within foot_phyOff m) : Moves m r (phyOff d s) := by
  simp only [foot_phyOff, within_or] at hm
  unfold phyOff
  try dsimp only
  repeat' (first
    | with_reducible assumption | with_reducible intro _ | with_reducible apply moves_when |
    with_reducible apply moves_clearSteps | with_reducible apply moves_setPd | with_reducible apply moves_holdPads |
    with_reducible apply moves_wphyClear | with_reducible apply moves_ite | split | simp only [hm])

def foot_toOff : Nat := foot_dropQuarantine ||| foot_holdPads ||| foot_phyOff ||| foot_downTiller |||
    foot_clearSteps ||| foot_setPd ||| foot_wphyClear ||| foot_showRefclk ||| foot_cutTiller
theorem moves_toOff {m : Nat} {r : State} {d : Nat} {s : State} (h : Moves m r s)
    (hm : Within foot_toOff m) : Moves m r (toOff d s) := by
  simp only [foot_toOff, within_or] at hm
  unfold toOff
  try dsimp only
  repeat' (first
    | with_reducible assumption | with_reducible intro _ | with_reducible apply moves_when |
    with_reducible apply moves_each | with_reducible apply moves_dropQuarantine | with_reducible apply moves_holdPads |
    with_reducible apply moves_phyOff | with_reducible apply moves_downTiller | with_reducible apply moves_clearSteps |
    with_reducible apply moves_setPd | with_reducible apply moves_wphyClear | with_reducible apply moves_showRefclk |
    with_reducible apply moves_cutTiller | with_reducible apply moves_ite | split | simp only [hm])

def foot_regNext : Nat := pms [.doms]
theorem moves_regNext {m : Nat} {r : State} {s : State} (h : Moves m r s)
    (hm : Within foot_regNext m) : Moves m r (regNext s) := by
  simp only [foot_regNext, pms, within_or, within_zero, and_true] at hm
  unfold regNext
  try dsimp only
  repeat' (first
    | with_reducible assumption | with_reducible apply moves_each | with_reducible apply moves_modDom |
    with_reducible apply moves_ite | split | intro _)

def foot_startWake : Nat := foot_regNext ||| foot_setPd ||| foot_clearSteps ||| pms [.doms]
theorem moves_startWake {m : Nat} {r : State} {d : ℕ} {release boot : Bool} {s : State} (h : Moves m r s)
    (hm : Within foot_startWake m) : Moves m r (startWake d release boot s) := by
  simp only [foot_startWake, pms, within_or, within_zero, and_true] at hm
  unfold startWake
  try dsimp only
  repeat' (first
    | with_reducible assumption | with_reducible apply moves_modDom | with_reducible apply moves_regNext |
    with_reducible apply moves_setPd | with_reducible apply moves_clearSteps | with_reducible apply moves_ite | split
    | intro _ | simp only [hm])

def foot_refclkWait : Nat := foot_finishWaiting ||| fms [.PW_REFCLK_WAIT]
theorem moves_refclkWait {m : Nat} {r : State} {d : Nat} {s : State} (h : Moves m r s)
    (hm : Within foot_refclkWait m) : Moves m r (refclkWait d s) := by
  simp only [foot_refclkWait, fms, within_or, within_zero, and_true] at hm
  unfold refclkWait
  try dsimp only
  repeat' (first
    | with_reducible assumption | with_reducible intro _ | with_reducible apply moves_wr |
    with_reducible apply moves_finishWaiting | with_reducible apply moves_ite | split | simp only [hm])

def foot_memoryStep : Nat := foot_bankEffect ||| foot_loseBank ||| foot_setBankLost ||| fms [.PW_MEM_RDY,
    .PW_LOST_LAST]
theorem moves_memoryStep {m : Nat} {r : State} {d : ℕ} {bad : List ℕ} {s : State} (h : Moves m r s)
    (hm : Within foot_memoryStep m) : Moves m r (memoryStep d bad s) := by
  simp only [foot_memoryStep, fms, within_or, within_zero, and_true] at hm
  unfold memoryStep
  try dsimp only
  repeat' (first
    | with_reducible assumption | with_reducible apply moves_each | with_reducible apply moves_when |
    with_reducible apply moves_bankEffect | with_reducible apply moves_loseBank |
    with_reducible apply moves_setBankLost | with_reducible apply moves_wr | with_reducible apply moves_ite | split |
    intro _ | simp only [hm])

def foot_domainWoke : Nat := foot_enterRestart ||| foot_hubFresh ||| foot_perstHeld ||| foot_giveHeldCauses |||
    foot_showRefclk ||| foot_tlRestore ||| foot_tlFresh ||| foot_downTiller ||| foot_journal ||| foot_loadWlCfg |||
    foot_domReset ||| pms [.keeper, .trace] ||| fms [.KP_KSTATE, .KP_FATAL_HOLD]
theorem moves_domainWoke {m : Nat} {r : State} {d : Nat} {fromRet : Bool} {s : State} (h : Moves m r s)
    (hm : Within foot_domainWoke m) : Moves m r (domainWoke d fromRet s) := by
  simp only [foot_domainWoke, fms, pms, within_or, within_zero, and_true] at hm
  unfold domainWoke
  try dsimp only
  repeat' (first
    | with_reducible assumption | with_reducible intro _ | with_reducible apply moves_when |
    with_reducible apply moves_each | with_reducible apply moves_wr | with_reducible apply moves_modKeeper |
    with_reducible apply moves_modTrace | with_reducible apply moves_enterRestart | with_reducible apply moves_hubFresh
    | with_reducible apply moves_perstHeld | with_reducible apply moves_giveHeldCauses |
    with_reducible apply moves_showRefclk | with_reducible apply moves_tlRestore | with_reducible apply moves_tlFresh |
    with_reducible apply moves_downTiller | with_reducible apply moves_journal | with_reducible apply moves_loadWlCfg |
    with_reducible apply moves_domReset1 | with_reducible apply moves_domReset2 | with_reducible apply moves_ite | split
    | simp only [hm])

def foot_firmwareUp : Nat := foot_keeperStarts ||| foot_applyPort ||| foot_showMgr ||| foot_showFw ||| pms [.keeper]
theorem moves_firmwareUp {m : Nat} {r : State} {s : State} (h : Moves m r s)
    (hm : Within foot_firmwareUp m) : Moves m r (firmwareUp s) := by
  simp only [foot_firmwareUp, pms, within_or, within_zero, and_true] at hm
  unfold firmwareUp
  try dsimp only
  repeat' (first
    | with_reducible assumption | with_reducible intro _ | with_reducible apply moves_when |
    with_reducible apply moves_each | with_reducible apply moves_modKeeper | with_reducible apply moves_keeperStarts |
    with_reducible apply moves_applyPort | with_reducible apply moves_showMgr | with_reducible apply moves_showFw |
    with_reducible apply moves_ite | split | simp only [hm])

def foot_hubWoke : Nat := foot_firmwareUp
theorem moves_hubWoke {m : Nat} {r : State} {d : Nat} {s : State} (h : Moves m r s)
    (hm : Within foot_hubWoke m) : Moves m r (hubWoke d s) := by
  simp only [foot_hubWoke] at hm
  unfold hubWoke
  try dsimp only
  repeat' (first
    | with_reducible assumption | with_reducible intro _ | with_reducible apply moves_when |
    with_reducible apply moves_firmwareUp | with_reducible apply moves_ite | split | simp only [hm])

def foot_wakeEnds : Nat := foot_hubWoke ||| foot_domainWoke ||| foot_setPd ||| foot_finishWaiting |||
    foot_releasePads ||| foot_startWake ||| pms [.doms] ||| fms [.PW_WAKE_CNT]
theorem moves_wakeEnds {m : Nat} {r : State} {d : Nat} {s : State} (h : Moves m r s)
    (hm : Within foot_wakeEnds m) : Moves m r (wakeEnds d s) := by
  simp only [foot_wakeEnds, fms, pms, within_or, within_zero, and_true] at hm
  unfold wakeEnds
  try dsimp only
  repeat' (first
    | with_reducible assumption | with_reducible intro _ | with_reducible apply moves_when |
    with_reducible apply moves_each | with_reducible apply moves_inc | with_reducible apply moves_modDom |
    with_reducible apply moves_hubWoke | with_reducible apply moves_domainWoke | with_reducible apply moves_setPd |
    with_reducible apply moves_finishWaiting | with_reducible apply moves_releasePads |
    with_reducible apply moves_startWake | with_reducible apply moves_ite | split | simp only [hm])

def foot_coverDomain : Nat := foot_clearSteps ||| foot_holdPads ||| foot_setPd ||| pms [.doms] ||| fms [.PW_REG_RDY,
    .PW_REFCLK_WAIT]
theorem moves_coverDomain {m : Nat} {r : State} {k d : Nat} {s : State} (h : Moves m r s)
    (hm : Within foot_coverDomain m) : Moves m r (coverDomain k d s) := by
  simp only [foot_coverDomain, fms, pms, within_or, within_zero, and_true] at hm
  unfold coverDomain
  try dsimp only
  repeat' (first
    | with_reducible assumption | with_reducible intro _ | with_reducible apply moves_wr |
    with_reducible apply moves_modDom | with_reducible apply moves_clearSteps | with_reducible apply moves_holdPads |
    with_reducible apply moves_setPd | with_reducible apply moves_ite | split | simp only [hm])

def foot_startReset : Nat := foot_journal ||| foot_coverDomain ||| foot_closePorts ||| foot_showRefclk |||
    foot_endStream ||| foot_cutTiller ||| foot_linkReset
theorem moves_startReset {m : Nat} {r : State} {k : Nat} {s : State} (h : Moves m r s)
    (hm : Within foot_startReset m) : Moves m r (startReset k s) := by
  simp only [foot_startReset, within_or] at hm
  unfold startReset
  try dsimp only
  repeat' (first
    | with_reducible assumption | with_reducible intro _ | with_reducible apply moves_each |
    with_reducible apply moves_journal | with_reducible apply moves_coverDomain | with_reducible apply moves_closePorts
    | with_reducible apply moves_showRefclk | with_reducible apply moves_endStream |
    with_reducible apply moves_cutTiller | with_reducible apply moves_linkReset | with_reducible apply moves_ite | split
    | simp only [hm])

def foot_resetEnds : Nat := foot_setPd ||| foot_hubFresh ||| foot_tlFresh ||| foot_wphyFresh ||| foot_releasePads |||
    foot_tlRestore ||| foot_finishWaiting ||| pms [.doms] ||| fms [.PW_WAKE_CNT]
theorem moves_resetEnds {m : Nat} {r : State} {k : ℕ} {s : State} (h : Moves m r s)
    (hm : Within foot_resetEnds m) : Moves m r (resetEnds k s) := by
  simp only [foot_resetEnds, fms, pms, within_or, within_zero, and_true] at hm
  unfold resetEnds
  try dsimp only
  repeat' (first
    | with_reducible assumption | with_reducible apply moves_each | with_reducible apply moves_when |
    with_reducible apply moves_inc | with_reducible apply moves_modDom | with_reducible apply moves_setPd |
    with_reducible apply moves_hubFresh | with_reducible apply moves_tlFresh | with_reducible apply moves_wphyFresh |
    with_reducible apply moves_releasePads | with_reducible apply moves_tlRestore |
    with_reducible apply moves_finishWaiting | with_reducible apply moves_ite | split | intro _ | simp only [hm])

def foot_resetMaybeEnds : Nat := foot_resetEnds
theorem moves_resetMaybeEnds {m : Nat} {r : State} {k : Nat} {s : State} (h : Moves m r s)
    (hm : Within foot_resetMaybeEnds m) : Moves m r (resetMaybeEnds k s) := by
  simp only [foot_resetMaybeEnds] at hm
  unfold resetMaybeEnds
  try dsimp only
  repeat' (first
    | with_reducible assumption | with_reducible intro _ | with_reducible apply moves_when |
    with_reducible apply moves_resetEnds | with_reducible apply moves_ite | split | simp only [hm])

def foot_wakeDone : Nat := foot_wakeEnds ||| foot_resetMaybeEnds
theorem moves_wakeDone {m : Nat} {r : State} {d : Nat} {s : State} (h : Moves m r s)
    (hm : Within foot_wakeDone m) : Moves m r (wakeDone d s) := by
  simp only [foot_wakeDone, within_or] at hm
  unfold wakeDone
  try dsimp only
  repeat' (first
    | with_reducible assumption | with_reducible intro _ | with_reducible apply moves_when |
    with_reducible apply moves_each | with_reducible apply moves_wakeEnds | with_reducible apply moves_resetMaybeEnds |
    with_reducible apply moves_ite | split | simp only [hm])

def foot_stepReady : Nat := foot_regNext ||| foot_refclkWait ||| foot_memoryStep ||| foot_resetMaybeEnds |||
    foot_wakeDone ||| fms [.PW_REG_RDY, .PW_CLK_RDY, .PW_REFCLK_WAIT, .PW_LOGIC_RDY]
theorem moves_stepReady {m : Nat} {r : State} {d : Nat} {bad : List Nat} {s : State} (h : Moves m r s)
    (hm : Within foot_stepReady m) : Moves m r (stepReady d bad s) := by
  simp only [foot_stepReady, fms, within_or, within_zero, and_true] at hm
  unfold stepReady
  try dsimp only
  repeat' (first
    | with_reducible assumption | with_reducible intro _ | with_reducible apply moves_when |
    with_reducible apply moves_withSome | with_reducible apply moves_wr | with_reducible apply moves_regNext |
    with_reducible apply moves_refclkWait | with_reducible apply moves_memoryStep |
    with_reducible apply moves_resetMaybeEnds | with_reducible apply moves_wakeDone | with_reducible apply moves_ite |
    split | simp only [hm])

def foot_execWakeStepReady : Nat := foot_stepReady
theorem moves_execWakeStepReady {m : Nat} {r : State} {dom : Dom} {badBanks : List ℕ} {s : State} (h : Moves m r s)
    (hm : Within foot_execWakeStepReady m) : Goes m r (execWakeStepReady dom badBanks s) := by
  simp only [foot_execWakeStepReady] at hm
  unfold execWakeStepReady
  try dsimp only
  repeat' (first
    | with_reducible assumption | refine goes_next ?_ | with_reducible apply moves_when |
    with_reducible apply moves_stepReady | with_reducible apply goes_ite | with_reducible apply moves_ite | split |
    intro _)

def foot_cutDomain : Nat := foot_clearSteps ||| foot_holdPads ||| foot_wphyClear ||| foot_regNext ||| foot_setPd |||
    pms [.doms]
theorem moves_cutDomain {m : Nat} {r : State} {d : Nat} {s : State} (h : Moves m r s)
    (hm : Within foot_cutDomain m) : Moves m r (cutDomain d s) := by
  simp only [foot_cutDomain, pms, within_or, within_zero, and_true] at hm
  unfold cutDomain
  try dsimp only
  repeat' (first
    | with_reducible assumption | with_reducible intro _ | with_reducible apply moves_when |
    with_reducible apply moves_modDom | with_reducible apply moves_clearSteps | with_reducible apply moves_holdPads |
    with_reducible apply moves_wphyClear | with_reducible apply moves_regNext | with_reducible apply moves_setPd |
    with_reducible apply moves_ite | split | simp only [hm])

def foot_wakeFails : Nat := foot_cutDomain ||| foot_ward ||| foot_finishWaiting ||| foot_hubWoke |||
    foot_resetMaybeEnds ||| fms [.PW_WAKE_FAIL]
theorem moves_wakeFails {m : Nat} {r : State} {d : Nat} {s : State} (h : Moves m r s)
    (hm : Within foot_wakeFails m) : Moves m r (wakeFails d s) := by
  simp only [foot_wakeFails, fms, within_or, within_zero, and_true] at hm
  unfold wakeFails
  try dsimp only
  repeat' (first
    | with_reducible assumption | with_reducible intro _ | with_reducible apply moves_each |
    with_reducible apply moves_withSome | with_reducible apply moves_wr | with_reducible apply moves_cutDomain |
    with_reducible apply moves_ward | with_reducible apply moves_finishWaiting | with_reducible apply moves_hubWoke |
    with_reducible apply moves_resetMaybeEnds | with_reducible apply moves_ite | split | simp only [hm])

def foot_execWakeStepTimeout : Nat := foot_refclkWait ||| foot_wakeFails
theorem moves_execWakeStepTimeout {m : Nat} {r : State} {dom : Dom} {s : State} (h : Moves m r s)
    (hm : Within foot_execWakeStepTimeout m) : Goes m r (execWakeStepTimeout dom s) := by
  simp only [foot_execWakeStepTimeout, within_or] at hm
  unfold execWakeStepTimeout
  try dsimp only
  repeat' (first
    | with_reducible assumption | refine goes_next ?_ | with_reducible apply moves_when |
    with_reducible apply moves_refclkWait | with_reducible apply moves_wakeFails | with_reducible apply goes_ite |
    with_reducible apply moves_ite | split | intro _ | simp only [hm])

def foot_enterRet : Nat := foot_finish ||| foot_holdDomain ||| foot_toRet
theorem moves_enterRet {m : Nat} {r : State} {r' : CmdReq} {d : Nat} {s : State} (h : Moves m r s)
    (hm : Within foot_enterRet m) : Moves m r (enterRet r' d s) := by
  simp only [foot_enterRet, within_or] at hm
  unfold enterRet
  try dsimp only
  repeat' (first
    | with_reducible assumption | with_reducible intro _ | with_reducible apply moves_choose |
    with_reducible apply moves_finish | with_reducible apply moves_holdDomain | with_reducible apply moves_toRet |
    with_reducible apply moves_ite | split | simp only [hm])

def foot_pdAct : Nat := foot_finish ||| foot_waitOn ||| foot_startWake ||| foot_enterRet ||| foot_toOff ||| pms
    [.doms]
theorem moves_pdAct {m : Nat} {r : State} {r' : CmdReq} {d want flags : Nat} {s : State} (h : Moves m r s)
    (hm : Within foot_pdAct m) : Moves m r (pdAct r' d want flags s) := by
  simp only [foot_pdAct, pms, within_or, within_zero, and_true] at hm
  unfold pdAct
  try dsimp only
  repeat' (first
    | with_reducible assumption | with_reducible intro _ | with_reducible apply moves_when |
    with_reducible apply moves_modDom | with_reducible apply moves_finish | with_reducible apply moves_waitOn |
    with_reducible apply moves_startWake | with_reducible apply moves_enterRet | with_reducible apply moves_toOff |
    with_reducible apply moves_ite | split | simp only [hm])

def foot_cmdPdSet : Nat := foot_pdAct
theorem moves_cmdPdSet {m : Nat} {r : State} {r' : CmdReq} {dom state flags : ℕ}
    (hm : Within foot_cmdPdSet m) : CmdMoves m r (cmdPdSet r' dom state flags) := by
  simp only [foot_cmdPdSet] at hm
  unfold cmdPdSet
  try dsimp only
  repeat' (first
    | with_reducible assumption | with_reducible apply moves_pdAct | with_reducible apply cmd_mk |
    with_reducible apply moves_ite | split | intro _ | simp only [hm] | simp only [id_eq])

def foot_execPdSet : Nat := foot_pdAct ||| foot_runCmd ||| foot_cmdPdSet
theorem moves_execPdSet {m : Nat} {r : State} {r' : CmdReq} {dom state flags : Nat} {s : State} (h : Moves m r s)
    (hm : Within foot_execPdSet m) : Goes m r (execPdSet r' dom state flags s) := by
  simp only [foot_execPdSet, within_or] at hm
  unfold execPdSet
  try dsimp only
  repeat' (first
    | with_reducible assumption | with_reducible intro _ | refine goes_next ?_ | with_reducible apply moves_pdAct |
    with_reducible apply moves_runCmd | with_reducible apply moves_cmdPdSet | with_reducible apply cmd_mk |
    with_reducible apply goes_ite | with_reducible apply moves_ite | split | simp only [hm] | simp only [id_eq])

def foot_execPadRelease : Nat := foot_runCmd ||| foot_finish ||| foot_releasePads
theorem moves_execPadRelease {m : Nat} {r : State} {r' : CmdReq} {dom : ℕ} {s : State} (h : Moves m r s)
    (hm : Within foot_execPadRelease m) : Goes m r (execPadRelease r' dom s) := by
  simp only [foot_execPadRelease, within_or] at hm
  unfold execPadRelease
  try dsimp only
  repeat' (first
    | with_reducible assumption | refine goes_next ?_ | with_reducible apply moves_runCmd |
    with_reducible apply moves_finish | with_reducible apply moves_releasePads | with_reducible apply cmd_mk |
    with_reducible apply goes_ite | with_reducible apply moves_ite | split | intro _ | simp only [hm] |
    simp only [id_eq])

def foot_execBankTest : Nat := foot_runCmd ||| foot_finish ||| foot_bankPasses
theorem moves_execBankTest {m : Nat} {r : State} {r' : CmdReq} {bank : ℕ} {failOffset : Option ℕ} {s : State} (h :
    Moves m r s)
    (hm : Within foot_execBankTest m) : Goes m r (execBankTest r' bank failOffset s) := by
  simp only [foot_execBankTest, within_or] at hm
  unfold execBankTest
  try dsimp only
  repeat' (first
    | with_reducible assumption | refine goes_next ?_ | with_reducible apply moves_runCmd |
    with_reducible apply moves_finish | with_reducible apply moves_bankPasses | with_reducible apply cmd_mk |
    with_reducible apply goes_ite | with_reducible apply moves_ite | split | intro _ | simp only [hm] |
    simp only [id_eq])

def foot_cmdTillerReset : Nat := foot_finish ||| foot_startReset ||| foot_waitOn
theorem moves_cmdTillerReset {m : Nat} {r : State} {r' : CmdReq} {tiller : ℕ}
    (hm : Within foot_cmdTillerReset m) : CmdMoves m r (cmdTillerReset r' tiller) := by
  simp only [foot_cmdTillerReset, within_or] at hm
  unfold cmdTillerReset
  try dsimp only
  repeat' (first
    | with_reducible assumption | with_reducible apply moves_finish | with_reducible apply moves_startReset |
    with_reducible apply moves_waitOn | with_reducible apply cmd_mk | with_reducible apply moves_ite | split | intro _
    | simp only [hm] | simp only [id_eq])

def foot_execTillerReset : Nat := foot_runCmd ||| foot_cmdTillerReset
theorem moves_execTillerReset {m : Nat} {r : State} {r' : CmdReq} {tiller : ℕ} {s : State} (h : Moves m r s)
    (hm : Within foot_execTillerReset m) : Goes m r (execTillerReset r' tiller s) := by
  simp only [foot_execTillerReset, within_or] at hm
  unfold execTillerReset
  try dsimp only
  repeat' (first
    | with_reducible assumption | refine goes_next ?_ | with_reducible apply moves_runCmd |
    with_reducible apply moves_cmdTillerReset | with_reducible apply cmd_mk | with_reducible apply goes_ite |
    with_reducible apply moves_ite | split | intro _ | simp only [hm])

def foot_execVinLow : Nat := foot_ward ||| fms [.PW_VINLOW_CNT, .PW_VIN_MV]
theorem moves_execVinLow {m : Nat} {r : State} {mv : ℕ} {s : State} (h : Moves m r s)
    (hm : Within foot_execVinLow m) : Goes m r (execVinLow mv s) := by
  simp only [foot_execVinLow, fms, within_or, within_zero, and_true] at hm
  unfold execVinLow
  try dsimp only
  repeat' (first
    | with_reducible assumption | refine goes_next ?_ | with_reducible apply moves_when |
    with_reducible apply moves_ward | with_reducible apply moves_inc | with_reducible apply moves_wr |
    with_reducible apply goes_ite | with_reducible apply moves_ite | split | intro _ | simp only [hm])

end Sys2Proof.Laws
end

