-- ==== Sys2Proof/Laws/FootWardCmds.lean ====
section
/-!
SUPPORT. The footprint of each operation of Machine/WardCmds.lean: which register fields and parts of the state it may change.
-/
namespace Sys2Proof.Laws
open Sys2Proof.Machine

def foot_strikeLine : Nat := foot_logSettle ||| foot_roundDirty ||| pms [.dirty]
theorem moves_strikeLine {m : Nat} {r : State} {t : Nat} {s : State} (h : Moves m r s)
    (hm : Within foot_strikeLine m) : Moves m r (strikeLine t s) := by
  simp only [foot_strikeLine, pms, within_or, within_zero, and_true] at hm
  unfold strikeLine
  dsimp only
  apply moves_ite h
  apply moves_draw h
  intro v z hz
  apply moves_withSome hz
  intro d z hz
  apply moves_logSettle _ (by simp only [hm])
  apply moves_roundDirty _ (by simp only [hm])
  exact moves_part_dirty hz (by simp only [hm])


def foot_execErrorLineEvent : Nat := foot_strikeLine ||| foot_wardEvent ||| fms [.WD_SELFTEST_OK, .KP_SLOW_CNT]
theorem moves_execErrorLineEvent {m : Nat} {r : State} {e : Ev} {s : State} (h : Moves m r s)
    (hm : Within foot_execErrorLineEvent m) : Goes m r (execErrorLineEvent e s) := by
  simp only [foot_execErrorLineEvent, fms, within_or, within_zero, and_true] at hm
  unfold execErrorLineEvent
  try dsimp only
  repeat' (first
    | with_reducible assumption | with_reducible intro _ | refine goes_next ?_ | with_reducible apply moves_when |
    with_reducible apply moves_wr | with_reducible apply moves_inc | with_reducible apply moves_strikeLine |
    with_reducible apply moves_wardEvent | with_reducible apply goes_ite | with_reducible apply moves_ite | split |
    simp only [hm])

def foot_execFaultMinwExpiry : Nat := fms [.WD_MINW_RUN]
theorem moves_execFaultMinwExpiry {m : Nat} {r : State} {s : State} (h : Moves m r s)
    (hm : Within foot_execFaultMinwExpiry m) : Goes m r (execFaultMinwExpiry s) := by
  simp only [foot_execFaultMinwExpiry, fms, within_or, within_zero, and_true] at hm
  unfold execFaultMinwExpiry
  try dsimp only
  repeat' (first
    | with_reducible assumption | refine goes_next ?_ | with_reducible apply moves_wr)

def foot_setFaultIn : Nat := pms [.pins] ||| fms [.WD_FIN_LEVEL]
theorem moves_setFaultIn {m : Nat} {r : State} {low : Bool} {s : State} (h : Moves m r s)
    (hm : Within foot_setFaultIn m) : Moves m r (setFaultIn low s) := by
  simp only [foot_setFaultIn, fms, pms, within_or, within_zero, and_true] at hm
  unfold setFaultIn
  try dsimp only
  repeat' (first
    | with_reducible assumption | with_reducible intro _ | exact goes_fault _ | with_reducible apply moves_wr |
    with_reducible apply moves_modPins | with_reducible apply moves_ite | split | simp only [hm])

def foot_execFaultInEvent : Nat := foot_ward ||| foot_setFaultIn ||| fms [.WD_FAULTIN_CNT]
theorem moves_execFaultInEvent {m : Nat} {r : State} {widthNs : Nat} {s : State} (h : Moves m r s)
    (hm : Within foot_execFaultInEvent m) : Goes m r (execFaultInEvent widthNs s) := by
  simp only [foot_execFaultInEvent, fms, within_or, within_zero, and_true] at hm
  unfold execFaultInEvent
  try dsimp only
  repeat' (first
    | with_reducible assumption | with_reducible intro _ | refine goes_next ?_ | with_reducible apply moves_when |
    with_reducible apply moves_choose | with_reducible apply moves_inc | with_reducible apply moves_ward |
    with_reducible apply moves_setFaultIn | with_reducible apply goes_ite | with_reducible apply moves_ite | split |
    simp only [hm])

def foot_program : Nat := pms [.journal] ||| fms [.WD_JR_OLDEST, .WD_JR_NEWEST, .WD_JR_APPEND_CNT, .WD_JR_FREE]
theorem moves_program {m : Nat} {r : State} {r' : JRec} {s : State} (h : Moves m r s)
    (hm : Within foot_program m) : Moves m r (program r' s) := by
  simp only [foot_program, fms, pms, within_or, within_zero, and_true] at hm
  unfold program
  try dsimp only
  repeat' (first
    | with_reducible assumption | with_reducible intro _ | with_reducible apply moves_when |
    with_reducible apply moves_wr | with_reducible apply moves_inc | with_reducible apply moves_modJournal |
    with_reducible apply moves_ite | split | simp only [hm])

def foot_reportLost : Nat := foot_journal ||| pms [.journal]
theorem moves_reportLost {m : Nat} {r : State} {s : State} (h : Moves m r s)
    (hm : Within foot_reportLost m) : Moves m r (reportLost s) := by
  simp only [foot_reportLost, pms, within_or, within_zero, and_true] at hm
  unfold reportLost
  try dsimp only
  repeat' (first
    | with_reducible assumption | with_reducible apply moves_when | with_reducible apply moves_journal |
    with_reducible apply moves_modJournal | with_reducible apply moves_ite | split | intro _ | simp only [hm])

def foot_execJournalAppend : Nat := foot_program ||| foot_jShow ||| foot_checkpointCheck ||| foot_reportLost ||| pms
    [.journal]
theorem moves_execJournalAppend {m : Nat} {r : State} {s : State} (h : Moves m r s)
    (hm : Within foot_execJournalAppend m) : Goes m r (execJournalAppend s) := by
  simp only [foot_execJournalAppend, pms, within_or, within_zero, and_true] at hm
  unfold execJournalAppend
  try dsimp only
  repeat' (first
    | with_reducible assumption | refine goes_next ?_ | with_reducible apply moves_when |
    with_reducible apply moves_program | with_reducible apply moves_jShow | with_reducible apply moves_modJournal |
    with_reducible apply moves_checkpointCheck | with_reducible apply moves_reportLost | with_reducible apply goes_ite
    | with_reducible apply moves_ite | split | intro _ | simp only [hm])

def foot_execJournalEraseDone : Nat := foot_ward ||| foot_journal ||| pms [.journal] ||| fms [.WD_JR_OLDEST]
theorem moves_execJournalEraseDone {m : Nat} {r : State} {s : State} (h : Moves m r s)
    (hm : Within foot_execJournalEraseDone m) : Goes m r (execJournalEraseDone s) := by
  simp only [foot_execJournalEraseDone, fms, pms, within_or, within_zero, and_true] at hm
  unfold execJournalEraseDone
  try dsimp only
  repeat' (first
    | with_reducible assumption | refine goes_next ?_ | with_reducible apply moves_when |
    with_reducible apply moves_modJournal | with_reducible apply moves_wr | with_reducible apply moves_ward |
    with_reducible apply moves_journal | with_reducible apply goes_ite | with_reducible apply moves_ite | split |
    intro _ | simp only [hm])

def foot_execFaultRead : Nat := foot_runCmd ||| foot_finish
theorem moves_execFaultRead {m : Nat} {r : State} {r' : CmdReq} {s : State} (h : Moves m r s)
    (hm : Within foot_execFaultRead m) : Goes m r (execFaultRead r' s) := by
  simp only [foot_execFaultRead, within_or] at hm
  unfold execFaultRead
  try dsimp only
  repeat' (first
    | with_reducible assumption | refine goes_next ?_ | with_reducible apply moves_runCmd |
    with_reducible apply moves_finish | with_reducible apply cmd_mk | with_reducible apply goes_ite |
    with_reducible apply moves_ite | split | intro _ | simp only [hm] | simp only [id_eq])

def foot_clearBit : Nat := fms [.WD_LINES, .WD_FAULT_WORD]
theorem moves_clearBit {m : Nat} {r : State} {b : ℕ} {s : State} (h : Moves m r s)
    (hm : Within foot_clearBit m) : Moves m r (clearBit b s) := by
  simp only [foot_clearBit, fms, within_or, within_zero, and_true] at hm
  unfold clearBit
  try dsimp only
  repeat' (first
    | with_reducible assumption | with_reducible apply moves_wr | with_reducible apply moves_clrB |
    with_reducible apply moves_ite | split | intro _ | simp only [hm])

def foot_rearm : Nat := fms [.WD_VALID]
theorem moves_rearm {m : Nat} {r : State} {c : ℕ} {s : State} (h : Moves m r s)
    (hm : Within foot_rearm m) : Moves m r (rearm c s) := by
  simp only [foot_rearm, fms, within_or, within_zero, and_true] at hm
  unfold rearm
  try dsimp only
  repeat' (first
    | with_reducible assumption | with_reducible apply moves_when | with_reducible apply moves_wr |
    with_reducible apply moves_ite | split | intro _)

def foot_faultClearAct : Nat := foot_clearBit ||| foot_rearm ||| foot_journal ||| fms [.WD_INJ_WORD, .WD_FAULT_WORD]
theorem moves_faultClearAct {m : Nat} {r : State} {mask : ℕ} {i : Issuer} {s : State} (h : Moves m r s)
    (hm : Within foot_faultClearAct m) : Moves m r (faultClearAct mask i s) := by
  simp only [foot_faultClearAct, fms, within_or, within_zero, and_true] at hm
  unfold faultClearAct
  try dsimp only
  repeat' (first
    | with_reducible assumption | with_reducible apply moves_each | with_reducible apply moves_when |
    with_reducible apply moves_clearBit | with_reducible apply moves_wr | with_reducible apply moves_clrB |
    with_reducible apply moves_rearm | with_reducible apply moves_journal | with_reducible apply moves_ite | split |
    intro _ | simp only [hm])

def foot_execFaultClear : Nat := foot_runCmd ||| foot_finish ||| foot_faultClearAct
theorem moves_execFaultClear {m : Nat} {r : State} {r' : CmdReq} {mask : ℕ} {s : State} (h : Moves m r s)
    (hm : Within foot_execFaultClear m) : Goes m r (execFaultClear r' mask s) := by
  simp only [foot_execFaultClear, within_or] at hm
  unfold execFaultClear
  try dsimp only
  repeat' (first
    | with_reducible assumption | refine goes_next ?_ | with_reducible apply moves_runCmd |
    with_reducible apply moves_finish | with_reducible apply moves_faultClearAct | with_reducible apply cmd_mk |
    with_reducible apply goes_ite | with_reducible apply moves_ite | split | intro _ | simp only [hm] |
    simp only [id_eq])

def foot_execFaultRelease : Nat := foot_runCmd ||| foot_finish ||| foot_journal ||| fms [.WD_FN_LEVEL, .WD_FN_DRIVEN]
theorem moves_execFaultRelease {m : Nat} {r : State} {r' : CmdReq} {s : State} (h : Moves m r s)
    (hm : Within foot_execFaultRelease m) : Goes m r (execFaultRelease r' s) := by
  simp only [foot_execFaultRelease, fms, within_or, within_zero, and_true] at hm
  unfold execFaultRelease
  try dsimp only
  repeat' (first
    | with_reducible assumption | refine goes_next ?_ | with_reducible apply moves_emit |
    with_reducible apply moves_runCmd | with_reducible apply moves_finish | with_reducible apply moves_journal |
    with_reducible apply moves_wr | with_reducible apply cmd_mk | with_reducible apply goes_ite |
    with_reducible apply moves_ite | split | intro _ | simp only [hm] | simp only [id_eq])

def foot_faultInjectAct : Nat := foot_journal ||| foot_wardEvent ||| fms [.WD_INJ_COUNTS, .WD_INJ_REACT]
theorem moves_faultInjectAct {m : Nat} {r : State} {p : FaultInj} {s : State} (h : Moves m r s)
    (hm : Within foot_faultInjectAct m) : Moves m r (faultInjectAct p s) := by
  simp only [foot_faultInjectAct, fms, within_or, within_zero, and_true] at hm
  unfold faultInjectAct
  try dsimp only
  repeat' (first
    | with_reducible assumption | with_reducible intro _ | with_reducible apply moves_when |
    with_reducible apply moves_wr | with_reducible apply moves_journal | with_reducible apply moves_wardEvent |
    with_reducible apply moves_ite | split | simp only [hm])

def foot_execFaultInject : Nat := foot_runCmd ||| foot_finish ||| foot_faultInjectAct
theorem moves_execFaultInject {m : Nat} {r : State} {r' : CmdReq} {p : FaultInj} {s : State} (h : Moves m r s)
    (hm : Within foot_execFaultInject m) : Goes m r (execFaultInject r' p s) := by
  simp only [foot_execFaultInject, within_or] at hm
  unfold execFaultInject
  try dsimp only
  repeat' (first
    | with_reducible assumption | refine goes_next ?_ | with_reducible apply moves_runCmd |
    with_reducible apply moves_finish | with_reducible apply moves_faultInjectAct | with_reducible apply cmd_mk |
    with_reducible apply goes_ite | with_reducible apply moves_ite | split | intro _ | simp only [hm] |
    simp only [id_eq])

def foot_setClass : Nat := fms [.WD_CLASS_LO, .WD_CLASS_HI]
theorem moves_setClass {m : Nat} {r : State} {g l c : ℕ} {s : State} (h : Moves m r s)
    (hm : Within foot_setClass m) : Moves m r (setClass g l c s) := by
  simp only [foot_setClass, fms, within_or, within_zero, and_true] at hm
  unfold setClass
  try dsimp only
  repeat' (first
    | with_reducible assumption | with_reducible apply moves_wr | with_reducible apply moves_ite | split | intro _ |
    simp only [hm])

def foot_faultConfigAct : Nat := foot_setClass ||| foot_journal ||| pms [.store] ||| fms [.WD_FAULT_MINW]
theorem moves_faultConfigAct {m : Nat} {r : State} {p : FaultCfg} {s : State} (h : Moves m r s)
    (hm : Within foot_faultConfigAct m) : Moves m r (faultConfigAct p s) := by
  simp only [foot_faultConfigAct, fms, pms, within_or, within_zero, and_true] at hm
  unfold faultConfigAct
  try dsimp only
  repeat' (first
    | with_reducible assumption | with_reducible apply moves_when | with_reducible apply moves_modStore |
    with_reducible apply moves_setClass | with_reducible apply moves_wr | with_reducible apply moves_journal |
    with_reducible apply moves_ite | split | intro _ | simp only [hm])

def foot_execFaultConfig : Nat := foot_runCmd ||| foot_finish ||| foot_faultConfigAct
theorem moves_execFaultConfig {m : Nat} {r : State} {r' : CmdReq} {p : FaultCfg} {s : State} (h : Moves m r s)
    (hm : Within foot_execFaultConfig m) : Goes m r (execFaultConfig r' p s) := by
  simp only [foot_execFaultConfig, within_or] at hm
  unfold execFaultConfig
  try dsimp only
  repeat' (first
    | with_reducible assumption | refine goes_next ?_ | with_reducible apply moves_runCmd |
    with_reducible apply moves_finish | with_reducible apply moves_faultConfigAct | with_reducible apply cmd_mk |
    with_reducible apply goes_ite | with_reducible apply moves_ite | split | intro _ | simp only [hm] |
    simp only [id_eq])

def foot_agesRec : Nat := pms [.journal]
theorem moves_agesRec {m : Nat} {r : State} {avail : List JRec} {s : State} (h : Moves m r s)
    (hm : Within foot_agesRec m) : Moves m r (agesRec avail s) := by
  simp only [foot_agesRec, pms, within_or, within_zero, and_true] at hm
  unfold agesRec
  try dsimp only
  repeat' (first
    | with_reducible assumption | with_reducible intro _ | with_reducible apply moves_draw |
    with_reducible apply moves_modJournal | with_reducible apply moves_ite | split | simp only [hm])

def foot_advanceMark : Nat := foot_journal ||| fms [.WD_JR_MARK]
theorem moves_advanceMark {m : Nat} {r : State} {seq : ℕ} {i : Issuer} {s : State} (h : Moves m r s)
    (hm : Within foot_advanceMark m) : Moves m r (advanceMark seq i s) := by
  simp only [foot_advanceMark, fms, within_or, within_zero, and_true] at hm
  unfold advanceMark
  try dsimp only
  repeat' (first
    | with_reducible assumption | with_reducible apply moves_when | with_reducible apply moves_journal |
    with_reducible apply moves_wr | with_reducible apply moves_ite | split | intro _ | simp only [hm])

def foot_journalReadAct : Nat := foot_advanceMark ||| foot_agesRec ||| foot_finish ||| foot_ward
theorem moves_journalReadAct {m : Nat} {r : State} {r' : CmdReq} {start : Nat} {s : State} (h : Moves m r s)
    (hm : Within foot_journalReadAct m) : Moves m r (journalReadAct r' start s) := by
  simp only [foot_journalReadAct, within_or] at hm
  unfold journalReadAct
  try dsimp only
  repeat' (first
    | with_reducible assumption | with_reducible intro _ | with_reducible apply moves_when |
    with_reducible apply moves_advanceMark | with_reducible apply moves_agesRec | with_reducible apply moves_finish |
    with_reducible apply moves_ward | with_reducible apply moves_ite | split | simp only [hm])

def foot_execJournalRead : Nat := foot_runCmd ||| foot_journalReadAct
theorem moves_execJournalRead {m : Nat} {r : State} {r' : CmdReq} {start : ℕ} {s : State} (h : Moves m r s)
    (hm : Within foot_execJournalRead m) : Goes m r (execJournalRead r' start s) := by
  simp only [foot_execJournalRead, within_or] at hm
  unfold execJournalRead
  try dsimp only
  repeat' (first
    | with_reducible assumption | refine goes_next ?_ | with_reducible apply moves_runCmd |
    with_reducible apply moves_journalReadAct | with_reducible apply cmd_mk | with_reducible apply goes_ite |
    with_reducible apply moves_ite | split | intro _ | simp only [hm] | simp only [id_eq])

end Sys2Proof.Laws
end

