-- ==== Sys2Proof/Laws/FootBringUp.lean ====
section
/-!
SUPPORT. The footprint of each operation of Machine/BringUp.lean: which register fields and parts of the state it may change.
-/
namespace Sys2Proof.Laws
open Sys2Proof.Machine

theorem testBit_low {w n m : Nat} (h : Within (2 ^ w - 1) m) (hn : n < w) : m.testBit n = true := by
  have := congrArg (fun x => x.testBit n) h
  simpa [Nat.testBit_and, Nat.testBit_two_pow_sub_one, hn] using this

def foot_releasePins : Nat := 0
theorem moves_releasePins {m : Nat} {r : State} {s : State} (h : Moves m r s)
    (_ : Within foot_releasePins m) : Moves m r (releasePins s) := by
  unfold releasePins
  try dsimp only
  repeat' (first
    | with_reducible assumption | with_reducible intro _ | exact goes_fault _ | with_reducible apply moves_when |
    with_reducible apply moves_each | with_reducible apply moves_emit | with_reducible apply moves_ite | split)

def foot_dieReset : Nat := 2 ^ 640 - 1
theorem moves_dieReset {m : Nat} {r s : State} (h : Moves m r s) (hm : Within foot_dieReset m) :
    Moves m r (dieReset s) := by
  have hr : Moves m r (releasePins s) := moves_releasePins h within_zero
  unfold dieReset
  dsimp only
  generalize releasePins s = z at hr ⊢
  refine hr.trans ⟨rfl, List.prefix_rfl, Nat.le_refl _, fun _ => regsOk_nil, fun _ => Nat.two_pow_pos 64,
    ⟨rfl, rfl, rfl, rfl, Nat.le_refl _⟩, ?_, ?_⟩
  · intro f i j hf
    have := fld_ctorIdx_lt f
    rw [testBit_low hm (by simp only [fbit]; omega)] at hf
    cases hf
  · intro p hp
    rw [testBit_low hm (Nat.lt_trans (Part.ctorIdx_lt p) (by decide))] at hp
    cases hp


def foot_execPowerOnReset : Nat := foot_dieReset ||| pms [.pins]
theorem moves_execPowerOnReset {m : Nat} {r : State} {s : State} (h : Moves m r s)
    (hm : Within foot_execPowerOnReset m) : Goes m r (execPowerOnReset s) := by
  simp only [foot_execPowerOnReset, pms, within_or, within_zero, and_true] at hm
  unfold execPowerOnReset
  try dsimp only
  repeat' (first
    | with_reducible assumption | refine goes_next ?_ | with_reducible apply moves_when |
    with_reducible apply moves_modPins | with_reducible apply moves_dieReset | with_reducible apply goes_ite |
    with_reducible apply moves_ite | split | intro _ | simp only [hm])

def foot_execResetNAssert : Nat := foot_dieReset ||| pms [.pins]
theorem moves_execResetNAssert {m : Nat} {r : State} {s : State} (h : Moves m r s)
    (hm : Within foot_execResetNAssert m) : Goes m r (execResetNAssert s) := by
  simp only [foot_execResetNAssert, pms, within_or, within_zero, and_true] at hm
  unfold execResetNAssert
  try dsimp only
  repeat' (first
    | with_reducible assumption | refine goes_next ?_ | with_reducible apply moves_when |
    with_reducible apply moves_modPins | with_reducible apply moves_dieReset | with_reducible apply goes_ite |
    with_reducible apply moves_ite | split | intro _ | simp only [hm])

def foot_leaveReset : Nat := pms [.keeper] ||| fms [.WD_FIN_LEVEL, .DEV_DSN_HI, .DEV_DSN_LO, .DEV_RECOVERY_STRAP,
    .DEV_MGR_SEL, .DEV_DEVID, .PW_PREV_REACT, .PW_BOOT_CAUSE]
theorem moves_leaveReset {m : Nat} {r : State} {cause : ℕ} {s : State} (h : Moves m r s)
    (hm : Within foot_leaveReset m) : Moves m r (leaveReset cause s) := by
  simp only [foot_leaveReset, fms, pms, within_or, within_zero, and_true] at hm
  unfold leaveReset
  try dsimp only
  repeat' (first
    | with_reducible assumption | with_reducible apply moves_when | with_reducible apply moves_wr |
    with_reducible apply moves_modKeeper | with_reducible apply moves_ite | split | intro _ | simp only [hm])

def foot_execPorRelease : Nat := foot_leaveReset ||| pms [.pins] ||| fms [.PW_VIN_MV]
theorem moves_execPorRelease {m : Nat} {r : State} {up : PowerUp} {s : State} (h : Moves m r s)
    (hm : Within foot_execPorRelease m) : Goes m r (execPorRelease up s) := by
  simp only [foot_execPorRelease, fms, pms, within_or, within_zero, and_true] at hm
  unfold execPorRelease
  try dsimp only
  repeat' (first
    | with_reducible assumption | with_reducible intro _ | refine goes_next ?_ | with_reducible apply moves_when |
    with_reducible apply moves_wr | with_reducible apply moves_modPins | with_reducible apply moves_leaveReset |
    with_reducible apply goes_ite | with_reducible apply moves_ite | split | simp only [hm])

def foot_execResetNRelease : Nat := foot_leaveReset ||| foot_dropPads ||| pms [.pins]
theorem moves_execResetNRelease {m : Nat} {r : State} {straps : Straps} {s : State} (h : Moves m r s)
    (hm : Within foot_execResetNRelease m) : Goes m r (execResetNRelease straps s) := by
  simp only [foot_execResetNRelease, pms, within_or, within_zero, and_true] at hm
  unfold execResetNRelease
  try dsimp only
  repeat' (first
    | with_reducible assumption | with_reducible intro _ | refine goes_next ?_ | with_reducible apply moves_when |
    with_reducible apply moves_modPins | with_reducible apply moves_leaveReset | with_reducible apply moves_dropPads |
    with_reducible apply goes_ite | with_reducible apply moves_ite | split | simp only [hm])

def foot_bootChoose : Nat := foot_bootNone ||| foot_bootSlot
theorem moves_bootChoose {m : Nat} {r : State} {s : State} (h : Moves m r s)
    (hm : Within foot_bootChoose m) : Moves m r (bootChoose s) := by
  simp only [foot_bootChoose, within_or] at hm
  unfold bootChoose
  try dsimp only
  repeat' (first
    | with_reducible assumption | with_reducible intro _ | with_reducible apply moves_bootNone |
    with_reducible apply moves_bootSlot | with_reducible apply moves_ite | split | simp only [hm])

def foot_bootFirmware : Nat := foot_bootChoose ||| foot_journal ||| foot_startWake ||| foot_firmwareUp ||| pms
    [.upd, .keeper]
theorem moves_bootFirmware {m : Nat} {r : State} {datapath : Bool} {s : State} (h : Moves m r s)
    (hm : Within foot_bootFirmware m) : Moves m r (bootFirmware datapath s) := by
  simp only [foot_bootFirmware, pms, within_or, within_zero, and_true] at hm
  unfold bootFirmware
  try dsimp only
  repeat' (first
    | with_reducible assumption | with_reducible intro _ | with_reducible apply moves_modUpd |
    with_reducible apply moves_modKeeper | with_reducible apply moves_bootChoose | with_reducible apply moves_journal |
    with_reducible apply moves_startWake | with_reducible apply moves_firmwareUp | with_reducible apply moves_ite |
    split | with_reducible exact fuses_same rfl rfl rfl rfl rfl | simp only [hm])

def foot_showJournal : Nat := fms [.WD_JR_NEWEST, .WD_JR_OLDEST, .WD_JR_MARK, .WD_JR_FREE]
theorem moves_showJournal {m : Nat} {r : State} {s : State} (h : Moves m r s)
    (hm : Within foot_showJournal m) : Moves m r (showJournal s) := by
  simp only [foot_showJournal, fms, within_or, within_zero, and_true] at hm
  unfold showJournal
  try dsimp only
  repeat' (first
    | with_reducible assumption | with_reducible intro _ | with_reducible apply moves_wr |
    with_reducible apply moves_ite | split | simp only [hm])

def foot_readJournal : Nat := foot_showJournal ||| pms [.journal]
theorem moves_readJournal {m : Nat} {r : State} {readable : Bool} {s : State} (h : Moves m r s)
    (hm : Within foot_readJournal m) : Moves m r (readJournal readable s) := by
  simp only [foot_readJournal, pms, within_or, within_zero, and_true] at hm
  unfold readJournal
  try dsimp only
  repeat' (first
    | with_reducible assumption | with_reducible intro _ | with_reducible apply moves_when |
    with_reducible apply moves_modJournal | with_reducible apply moves_showJournal | with_reducible apply moves_ite |
    split | simp only [hm])

def foot_romRecord : Nat := foot_advance ||| foot_program
theorem moves_romRecord {m : Nat} {r : State} {b : JBody} {s : State} (h : Moves m r s)
    (hm : Within foot_romRecord m) : Moves m r (romRecord b s) := by
  simp only [foot_romRecord, within_or] at hm
  unfold romRecord
  try dsimp only
  repeat' (first
    | with_reducible assumption | with_reducible intro _ | with_reducible apply moves_advance |
    with_reducible apply moves_program | with_reducible apply moves_ite | split | simp only [hm])

def foot_seedCadence : Nat := foot_setStamp ||| foot_romRecord ||| pms [.journal] ||| fms [.CAD_ERA, .CAD_SEED,
    .CAD_SEEDED]
theorem moves_seedCadence {m : Nat} {r : State} {s : State} (h : Moves m r s)
    (hm : Within foot_seedCadence m) : Moves m r (seedCadence s) := by
  simp only [foot_seedCadence, fms, pms, within_or, within_zero, and_true] at hm
  unfold seedCadence
  try dsimp only
  repeat' (first
    | with_reducible assumption | with_reducible intro _ | with_reducible apply moves_when |
    with_reducible apply moves_draw | with_reducible apply moves_wr | with_reducible apply moves_modJournal |
    with_reducible apply moves_setStamp | with_reducible apply moves_romRecord | with_reducible apply moves_ite | split
    | simp only [hm])

def foot_loadWard : Nat := foot_setClass ||| fms [.WD_FAULT_MINW]
theorem moves_loadWard {m : Nat} {r : State} {s : State} (h : Moves m r s)
    (hm : Within foot_loadWard m) : Moves m r (loadWard s) := by
  simp only [foot_loadWard, fms, within_or, within_zero, and_true] at hm
  unfold loadWard
  try dsimp only
  repeat' (first
    | with_reducible assumption | with_reducible apply moves_each | with_reducible apply moves_withSome |
    with_reducible apply moves_setClass | with_reducible apply moves_wr | with_reducible apply moves_ite | split |
    intro _ | simp only [hm])

def foot_advanceBoot : Nat := foot_bootClocks ||| foot_bootFirmware ||| foot_startSwitch ||| pms [.keeper]
theorem moves_advanceBoot {m : Nat} {r : State} {s : State} (h : Moves m r s)
    (hm : Within foot_advanceBoot m) : Moves m r (advanceBoot s) := by
  simp only [foot_advanceBoot, pms, within_or, within_zero, and_true] at hm
  unfold advanceBoot
  try dsimp only
  repeat' (first
    | with_reducible assumption | with_reducible intro _ | with_reducible apply moves_when |
    with_reducible apply moves_modKeeper | with_reducible apply moves_bootClocks |
    with_reducible apply moves_bootFirmware | with_reducible apply moves_startSwitch | with_reducible apply moves_ite |
    split | simp only [hm])

def foot_bootBanks : Nat := foot_setBankLost ||| pms [.keeper]
theorem moves_bootBanks {m : Nat} {r : State} {bad : Bool} {s : State} (h : Moves m r s)
    (hm : Within foot_bootBanks m) : Moves m r (bootBanks bad s) := by
  simp only [foot_bootBanks, pms, within_or, within_zero, and_true] at hm
  unfold bootBanks
  try dsimp only
  repeat' (first
    | with_reducible assumption | with_reducible apply moves_each | with_reducible apply moves_modKeeper |
    with_reducible apply moves_setBankLost | with_reducible apply moves_ite | split | intro _ | simp only [hm])

def foot_execRomBoot : Nat := foot_ward ||| foot_seedCadence ||| foot_readJournal ||| foot_loadWard ||| foot_bootBanks
    ||| foot_advanceBoot ||| pms [.store, .keeper] ||| fms [.WD_SELFTEST_OK]
theorem moves_execRomBoot {m : Nat} {r : State} {found : RomFindings} {s : State} (h : Moves m r s)
    (hm : Within foot_execRomBoot m) : Goes m r (execRomBoot found s) := by
  simp only [foot_execRomBoot, fms, pms, within_or, within_zero, and_true] at hm
  unfold execRomBoot
  try dsimp only
  repeat' (first
    | with_reducible assumption | refine goes_next ?_ | with_reducible apply moves_when |
    with_reducible apply moves_ward | with_reducible apply moves_modStore | with_reducible apply moves_seedCadence |
    with_reducible apply moves_readJournal | with_reducible apply moves_loadWard | with_reducible apply moves_wr |
    with_reducible apply moves_bootBanks | with_reducible apply moves_advanceBoot |
    with_reducible apply moves_modKeeper | with_reducible apply goes_ite | with_reducible apply moves_ite | split |
    intro _ | simp only [hm])

def foot_execBootClockTimeout : Nat := foot_bootFirmware ||| foot_ward
theorem moves_execBootClockTimeout {m : Nat} {r : State} {s : State} (h : Moves m r s)
    (hm : Within foot_execBootClockTimeout m) : Goes m r (execBootClockTimeout s) := by
  simp only [foot_execBootClockTimeout, within_or] at hm
  unfold execBootClockTimeout
  try dsimp only
  repeat' (first
    | with_reducible assumption | refine goes_next ?_ | with_reducible apply moves_when |
    with_reducible apply moves_bootFirmware | with_reducible apply moves_ward | with_reducible apply goes_ite |
    with_reducible apply moves_ite | split | intro _ | simp only [hm])

def foot_lateTrip : Nat := foot_showObs ||| foot_ward ||| foot_startSwitch ||| pms [.clocks]
theorem moves_lateTrip {m : Nat} {r : State} {s : State} (h : Moves m r s)
    (hm : Within foot_lateTrip m) : Moves m r (lateTrip s) := by
  simp only [foot_lateTrip, pms, within_or, within_zero, and_true] at hm
  unfold lateTrip
  try dsimp only
  repeat' (first
    | with_reducible assumption | with_reducible intro _ | with_reducible apply moves_withSome |
    with_reducible apply moves_modClocks | with_reducible apply moves_showObs | with_reducible apply moves_ward |
    with_reducible apply moves_startSwitch | with_reducible apply moves_ite | split | simp only [hm])

def foot_execFroReady : Nat := foot_lateTrip ||| foot_setReady ||| foot_startWake ||| pms [.clocks, .keeper]
theorem moves_execFroReady {m : Nat} {r : State} {s : State} (h : Moves m r s)
    (hm : Within foot_execFroReady m) : Goes m r (execFroReady s) := by
  simp only [foot_execFroReady, pms, within_or, within_zero, and_true] at hm
  unfold execFroReady
  try dsimp only
  repeat' (first
    | with_reducible assumption | refine goes_next ?_ | with_reducible apply moves_when |
    with_reducible apply moves_lateTrip | with_reducible apply moves_setReady | with_reducible apply moves_modClocks |
    with_reducible apply moves_startWake | with_reducible apply moves_modKeeper | with_reducible apply goes_ite |
    with_reducible apply moves_ite | split | intro _ | simp only [hm])

def foot_execSourceReady : Nat := foot_advanceBoot ||| foot_setReady
theorem moves_execSourceReady {m : Nat} {r : State} {ckid : Fin 2} {s : State} (h : Moves m r s)
    (hm : Within foot_execSourceReady m) : Goes m r (execSourceReady ckid s) := by
  simp only [foot_execSourceReady, within_or] at hm
  unfold execSourceReady
  try dsimp only
  repeat' (first
    | with_reducible assumption | refine goes_next ?_ | with_reducible apply moves_when |
    with_reducible apply moves_advanceBoot | with_reducible apply moves_setReady | with_reducible apply goes_ite |
    with_reducible apply moves_ite | split | intro _ | simp only [hm])

def foot_execPllReady : Nat := foot_advanceBoot ||| foot_setReady
theorem moves_execPllReady {m : Nat} {r : State} {ckid : Fin 32} {s : State} (h : Moves m r s)
    (hm : Within foot_execPllReady m) : Goes m r (execPllReady ckid s) := by
  simp only [foot_execPllReady, within_or] at hm
  unfold execPllReady
  try dsimp only
  repeat' (first
    | with_reducible assumption | refine goes_next ?_ | with_reducible apply moves_when |
    with_reducible apply moves_advanceBoot | with_reducible apply moves_setReady | with_reducible apply goes_ite |
    with_reducible apply moves_ite | split | intro _ | simp only [hm])

def foot_execClockSwitchDone : Nat := foot_advanceBoot ||| foot_endSwitch
theorem moves_execClockSwitchDone {m : Nat} {r : State} {selector : Fin 4} {s : State} (h : Moves m r s)
    (hm : Within foot_execClockSwitchDone m) : Goes m r (execClockSwitchDone selector s) := by
  simp only [foot_execClockSwitchDone, within_or] at hm
  unfold execClockSwitchDone
  try dsimp only
  repeat' (first
    | with_reducible assumption | refine goes_next ?_ | with_reducible apply moves_advanceBoot |
    with_reducible apply moves_endSwitch | with_reducible apply goes_ite | with_reducible apply moves_ite | split |
    intro _ | simp only [hm])

def foot_execForcedClockSwitch : Nat := foot_advanceBoot ||| foot_endSwitch
theorem moves_execForcedClockSwitch {m : Nat} {r : State} {selector : Fin 4} {s : State} (h : Moves m r s)
    (hm : Within foot_execForcedClockSwitch m) : Goes m r (execForcedClockSwitch selector s) := by
  simp only [foot_execForcedClockSwitch, within_or] at hm
  unfold execForcedClockSwitch
  try dsimp only
  repeat' (first
    | with_reducible assumption | refine goes_next ?_ | with_reducible apply moves_advanceBoot |
    with_reducible apply moves_endSwitch | with_reducible apply goes_ite | with_reducible apply moves_ite | split |
    intro _ | simp only [hm])

def foot_execClockMonitorTrip : Nat := foot_advanceBoot ||| foot_tripSource ||| foot_tripFro ||| foot_tripPll
theorem moves_execClockMonitorTrip {m : Nat} {r : State} {ckid : Fin 32} {s : State} (h : Moves m r s)
    (hm : Within foot_execClockMonitorTrip m) : Goes m r (execClockMonitorTrip ckid s) := by
  simp only [foot_execClockMonitorTrip, within_or] at hm
  unfold execClockMonitorTrip
  try dsimp only
  repeat' (first
    | with_reducible assumption | refine goes_next ?_ | with_reducible apply moves_advanceBoot |
    with_reducible apply moves_tripSource | with_reducible apply moves_tripFro | with_reducible apply moves_tripPll |
    with_reducible apply goes_ite | with_reducible apply moves_ite | split | intro _ | simp only [hm])

end Sys2Proof.Laws
end

