-- ==== Sys2Proof/Laws/FootUpdate.lean ====
section
/-!
SUPPORT. The footprint of each operation of Machine/Update.lean: which register fields and parts of the state it may change.
-/
namespace Sys2Proof.Laws
open Sys2Proof.Machine

def foot_acceptHeader : Nat := foot_setUpdState ||| foot_journalUpd ||| pms [.upd]
theorem moves_acceptHeader {m : Nat} {r : State} {h' : Bytes} {s : State} (h : Moves m r s)
    (hm : Within foot_acceptHeader m) : Moves m r (acceptHeader h' s) := by
  simp only [foot_acceptHeader, pms, within_or, within_zero, and_true] at hm
  unfold acceptHeader
  try dsimp only
  repeat' (first
    | with_reducible assumption | with_reducible intro _ | with_reducible apply moves_modUpd |
    with_reducible apply moves_setUpdState | with_reducible apply moves_journalUpd | with_reducible apply moves_ite |
    split | with_reducible exact fuses_same rfl rfl rfl rfl rfl |
    (unfold UpdS.setSlot; (repeat' split) <;> first | exact fuses_same rfl rfl rfl rfl rfl | exact ⟨rfl, rfl, rfl, rfl, Nat.le_max_left _ _⟩)
    | simp only [hm])

def foot_execUpdateBegin : Nat := foot_runCmd ||| foot_finish ||| foot_acceptHeader
theorem moves_execUpdateBegin {m : Nat} {r : State} {r' : CmdReq} {hdr : Bytes} {s : State} (h : Moves m r s)
    (hm : Within foot_execUpdateBegin m) : Goes m r (execUpdateBegin r' hdr s) := by
  simp only [foot_execUpdateBegin, within_or] at hm
  unfold execUpdateBegin
  try dsimp only
  repeat' (first
    | with_reducible assumption | refine goes_next ?_ | with_reducible apply moves_runCmd |
    with_reducible apply moves_finish | with_reducible apply moves_acceptHeader | with_reducible apply cmd_mk |
    with_reducible apply goes_ite | with_reducible apply moves_ite | split | intro _ | simp only [hm] |
    simp only [id_eq])

def foot_execEraseDone : Nat := foot_setUpdState
theorem moves_execEraseDone {m : Nat} {r : State} {s : State} (h : Moves m r s)
    (hm : Within foot_execEraseDone m) : Goes m r (execEraseDone s) := by
  simp only [foot_execEraseDone] at hm
  unfold execEraseDone
  try dsimp only
  repeat' (first
    | with_reducible assumption | refine goes_next ?_ | with_reducible apply moves_when |
    with_reducible apply moves_setUpdState | with_reducible apply goes_ite | with_reducible apply moves_ite | split |
    intro _)

def foot_storeChunk : Nat := foot_finish ||| foot_journalUpd ||| foot_setUpdState ||| pms [.upd]
theorem moves_storeChunk {m : Nat} {r : State} {r' : CmdReq} {i disc : Nat} {c : Bytes} {s : State} (h : Moves m r
    s)
    (hm : Within foot_storeChunk m) : Moves m r (storeChunk r' i disc c s) := by
  simp only [foot_storeChunk, pms, within_or, within_zero, and_true] at hm
  unfold storeChunk
  try dsimp only
  repeat' (first
    | with_reducible assumption | with_reducible intro _ | with_reducible apply moves_choose |
    with_reducible apply moves_modUpd | with_reducible apply moves_finish | with_reducible apply moves_journalUpd |
    with_reducible apply moves_setUpdState | with_reducible apply moves_ite | split |
    with_reducible exact fuses_same rfl rfl rfl rfl rfl |
    (unfold UpdS.setSlot; (repeat' split) <;> first | exact fuses_same rfl rfl rfl rfl rfl | exact ⟨rfl, rfl, rfl, rfl, Nat.le_max_left _ _⟩)
    | simp only [hm])

def foot_takeHalf : Nat := foot_storeChunk ||| foot_finish ||| pms [.upd]
theorem moves_takeHalf {m : Nat} {r : State} {r' : CmdReq} {i p : ℕ} {d : Bytes} {s : State} (h : Moves m r s)
    (hm : Within foot_takeHalf m) : Moves m r (takeHalf r' i p d s) := by
  simp only [foot_takeHalf, pms, within_or, within_zero, and_true] at hm
  unfold takeHalf
  try dsimp only
  repeat' (first
    | with_reducible assumption | with_reducible apply moves_modUpd | with_reducible apply moves_storeChunk |
    with_reducible apply moves_finish | with_reducible apply moves_ite | split | intro _ |
    (with_reducible exact fuses_same rfl rfl rfl rfl rfl) |
    (unfold UpdS.setSlot; (repeat' split) <;> first | exact fuses_same rfl rfl rfl rfl rfl | exact ⟨rfl, rfl, rfl, rfl, Nat.le_max_left _ _⟩)
    | simp only [hm])

def foot_execUpdateChunk : Nat := foot_runCmd ||| foot_finish ||| foot_takeHalf
theorem moves_execUpdateChunk {m : Nat} {r : State} {r' : CmdReq} {index piece : Nat} {data : Bytes} {s : State} (h
    : Moves m r s)
    (hm : Within foot_execUpdateChunk m) : Goes m r (execUpdateChunk r' index piece data s) := by
  simp only [foot_execUpdateChunk, within_or] at hm
  unfold execUpdateChunk
  try dsimp only
  repeat' (first
    | with_reducible assumption | with_reducible intro _ | refine goes_next ?_ | with_reducible apply moves_runCmd |
    with_reducible apply moves_finish | with_reducible apply moves_takeHalf | with_reducible apply cmd_mk |
    with_reducible apply goes_ite | with_reducible apply moves_ite | split | simp only [hm] | simp only [id_eq])

def foot_statusAct : Nat := foot_finish
theorem moves_statusAct {m : Nat} {r : State} {r' : CmdReq} {start : ℕ} {s : State} (h : Moves m r s)
    (hm : Within foot_statusAct m) : Moves m r (statusAct r' start s) := by
  simp only [foot_statusAct] at hm
  unfold statusAct
  try dsimp only
  repeat' (first
    | with_reducible assumption | with_reducible apply moves_draw | with_reducible apply moves_finish |
    with_reducible apply moves_ite | split | intro _)

def foot_execUpdateStatus : Nat := foot_runCmd ||| foot_statusAct
theorem moves_execUpdateStatus {m : Nat} {r : State} {r' : CmdReq} {start : ℕ} {s : State} (h : Moves m r s)
    (hm : Within foot_execUpdateStatus m) : Goes m r (execUpdateStatus r' start s) := by
  simp only [foot_execUpdateStatus, within_or] at hm
  unfold execUpdateStatus
  try dsimp only
  repeat' (first
    | with_reducible assumption | refine goes_next ?_ | with_reducible apply moves_runCmd |
    with_reducible apply moves_statusAct | with_reducible apply cmd_mk | with_reducible apply goes_ite |
    with_reducible apply moves_ite | split | intro _ | simp only [hm] | simp only [id_eq])

def foot_cmdUpdateActivate : Nat := foot_setUpdState ||| foot_nextBoundary
theorem moves_cmdUpdateActivate {m : Nat} {r : State} {r' : CmdReq}
    (hm : Within foot_cmdUpdateActivate m) : CmdMoves m r (cmdUpdateActivate r') := by
  simp only [foot_cmdUpdateActivate, within_or] at hm
  unfold cmdUpdateActivate
  try dsimp only
  repeat' (first
    | with_reducible assumption | with_reducible apply moves_setUpdState | with_reducible apply moves_nextBoundary |
    with_reducible apply cmd_mk | with_reducible apply moves_ite | split | intro _ | simp only [hm])

def foot_execUpdateActivate : Nat := foot_runCmd ||| foot_cmdUpdateActivate
theorem moves_execUpdateActivate {m : Nat} {r : State} {r' : CmdReq} {s : State} (h : Moves m r s)
    (hm : Within foot_execUpdateActivate m) : Goes m r (execUpdateActivate r' s) := by
  simp only [foot_execUpdateActivate, within_or] at hm
  unfold execUpdateActivate
  try dsimp only
  repeat' (first
    | with_reducible assumption | refine goes_next ?_ | with_reducible apply moves_runCmd |
    with_reducible apply moves_cmdUpdateActivate | with_reducible apply cmd_mk | with_reducible apply goes_ite |
    with_reducible apply moves_ite | split | intro _ | simp only [hm])

def foot_startDrain : Nat := foot_drainEnds ||| foot_setKState ||| pms [.keeper]
theorem moves_startDrain {m : Nat} {r : State} {kind : ℕ} {s : State} (h : Moves m r s)
    (hm : Within foot_startDrain m) : Moves m r (startDrain kind s) := by
  simp only [foot_startDrain, pms, within_or, within_zero, and_true] at hm
  unfold startDrain
  try dsimp only
  repeat' (first
    | with_reducible assumption | with_reducible apply moves_drainEnds | with_reducible apply moves_setKState |
    with_reducible apply moves_modKeeper | with_reducible apply moves_ite | split | intro _ | simp only [hm])

def foot_recordTrial : Nat := pms [.upd]
theorem moves_recordTrial {m : Nat} {r : State} {s : State} (h : Moves m r s)
    (hm : Within foot_recordTrial m) : Moves m r (recordTrial s) := by
  simp only [foot_recordTrial, pms, within_or, within_zero, and_true] at hm
  unfold recordTrial
  try dsimp only
  repeat' (first
    | with_reducible assumption | with_reducible apply moves_modUpd | with_reducible apply moves_ite | split | intro _
    | (with_reducible exact fuses_same rfl rfl rfl rfl rfl))

def foot_writeReplies : Nat := foot_sendTlp
theorem moves_writeReplies {m : Nat} {r : State} {a0 : Nat} {a1 : State} (h : Moves m r a1)
    (hm : Within foot_writeReplies m) : Moves m r (writeReplies a0 a1) := by
  simp only [foot_writeReplies] at hm
  induction a0 generalizing a1 with
  | zero => exact h
  | succ k ih =>
    unfold writeReplies
    try dsimp only
    repeat' (first
      | with_reducible assumption | with_reducible intro _ | with_reducible apply ih | with_reducible apply moves_sendTlp
      | with_reducible apply moves_ite | split | simp only [hm])

def foot_activate : Nat := foot_showKeeper ||| foot_finishGen ||| foot_dieReset ||| foot_recordTrial |||
    foot_writeReplies ||| foot_leaveReset ||| foot_startDrain ||| pms [.keeper, .upd]
theorem moves_activate {m : Nat} {r : State} {e : Sched} {s : State} (h : Moves m r s)
    (hm : Within foot_activate m) : Moves m r (activate e s) := by
  simp only [foot_activate, pms, within_or, within_zero, and_true] at hm
  unfold activate
  try dsimp only
  repeat' (first
    | with_reducible assumption | with_reducible intro _ | with_reducible apply moves_modKeeper |
    with_reducible apply moves_modUpd | with_reducible apply moves_showKeeper | with_reducible apply moves_finishGen |
    with_reducible apply moves_dieReset | with_reducible apply moves_recordTrial |
    with_reducible apply moves_writeReplies | with_reducible apply moves_leaveReset |
    with_reducible apply moves_startDrain | with_reducible apply moves_ite | split |
    with_reducible exact fuses_same rfl rfl rfl rfl rfl | simp only [hm])

def foot_activationDue : Nat := foot_cmdUpdateActivate ||| foot_finishGen ||| foot_unschedule ||| foot_activate
theorem moves_activationDue {m : Nat} {r : State} {e : Sched} {s : State} (h : Moves m r s)
    (hm : Within foot_activationDue m) : Moves m r (activationDue e s) := by
  simp only [foot_activationDue, within_or] at hm
  unfold activationDue
  try dsimp only
  repeat' (first
    | with_reducible assumption | with_reducible apply moves_cmdUpdateActivate | with_reducible apply moves_finishGen
    | with_reducible apply moves_unschedule | with_reducible apply moves_activate | with_reducible apply moves_ite |
    split | intro _ | simp only [hm])

def foot_execActivationBoundary : Nat := foot_activationDue
theorem moves_execActivationBoundary {m : Nat} {r : State} {s : State} (h : Moves m r s)
    (hm : Within foot_execActivationBoundary m) : Goes m r (execActivationBoundary s) := by
  simp only [foot_execActivationBoundary] at hm
  unfold execActivationBoundary
  try dsimp only
  repeat' (first
    | with_reducible assumption | refine goes_next ?_ | with_reducible apply moves_when |
    with_reducible apply moves_activationDue | with_reducible apply goes_ite | with_reducible apply moves_ite | split
    | intro _)

def foot_execTrialEnd : Nat := foot_startDrain
theorem moves_execTrialEnd {m : Nat} {r : State} {s : State} (h : Moves m r s)
    (hm : Within foot_execTrialEnd m) : Goes m r (execTrialEnd s) := by
  simp only [foot_execTrialEnd] at hm
  unfold execTrialEnd
  try dsimp only
  repeat' (first
    | with_reducible assumption | refine goes_next ?_ | with_reducible apply moves_when |
    with_reducible apply moves_startDrain | with_reducible apply goes_ite | with_reducible apply moves_ite | split |
    intro _)

def foot_confirm : Nat := foot_setUpdState ||| foot_showFw ||| foot_journal ||| pms [.upd]
theorem moves_confirm {m : Nat} {r : State} {s : State} (h : Moves m r s)
    (hm : Within foot_confirm m) : Moves m r (confirm s) := by
  simp only [foot_confirm, pms, within_or, within_zero, and_true] at hm
  unfold confirm
  try dsimp only
  repeat' (first
    | with_reducible assumption | with_reducible apply moves_modUpd | with_reducible apply moves_setUpdState |
    with_reducible apply moves_showFw | with_reducible apply moves_journal | with_reducible apply moves_ite | split |
    intro _ | (with_reducible exact fuses_same rfl rfl rfl rfl rfl) |
    (unfold UpdS.setSlot; (repeat' split) <;> first | exact fuses_same rfl rfl rfl rfl rfl | exact ⟨rfl, rfl, rfl, rfl, Nat.le_max_left _ _⟩)
    | simp only [hm])

def foot_execUpdateConfirm : Nat := foot_runCmd ||| foot_finish ||| foot_confirm
theorem moves_execUpdateConfirm {m : Nat} {r : State} {r' : CmdReq} {s : State} (h : Moves m r s)
    (hm : Within foot_execUpdateConfirm m) : Goes m r (execUpdateConfirm r' s) := by
  simp only [foot_execUpdateConfirm, within_or] at hm
  unfold execUpdateConfirm
  try dsimp only
  repeat' (first
    | with_reducible assumption | refine goes_next ?_ | with_reducible apply moves_runCmd |
    with_reducible apply moves_finish | with_reducible apply moves_confirm | with_reducible apply cmd_mk |
    with_reducible apply goes_ite | with_reducible apply moves_ite | split | intro _ | simp only [hm] |
    simp only [id_eq])

def foot_abandon : Nat := foot_cancelSched ||| foot_journalUpd ||| foot_setUpdState ||| pms [.upd]
theorem moves_abandon {m : Nat} {r : State} {s : State} (h : Moves m r s)
    (hm : Within foot_abandon m) : Moves m r (abandon s) := by
  simp only [foot_abandon, pms, within_or, within_zero, and_true] at hm
  unfold abandon
  try dsimp only
  repeat' (first
    | with_reducible assumption | with_reducible intro _ | with_reducible apply moves_withSome |
    with_reducible apply moves_modUpd | with_reducible apply moves_cancelSched | with_reducible apply moves_journalUpd |
    with_reducible apply moves_setUpdState | with_reducible apply moves_ite | split |
    with_reducible exact fuses_same rfl rfl rfl rfl rfl |
    (unfold UpdS.setSlot; (repeat' split) <;> first | exact fuses_same rfl rfl rfl rfl rfl | exact ⟨rfl, rfl, rfl, rfl, Nat.le_max_left _ _⟩)
    | simp only [hm])

def foot_execUpdateAbort : Nat := foot_runCmd ||| foot_startDrain ||| foot_waitOn ||| foot_finish ||| foot_abandon
theorem moves_execUpdateAbort {m : Nat} {r : State} {r' : CmdReq} {s : State} (h : Moves m r s)
    (hm : Within foot_execUpdateAbort m) : Goes m r (execUpdateAbort r' s) := by
  simp only [foot_execUpdateAbort, within_or] at hm
  unfold execUpdateAbort
  try dsimp only
  repeat' (first
    | with_reducible assumption | refine goes_next ?_ | with_reducible apply moves_runCmd |
    with_reducible apply moves_startDrain | with_reducible apply moves_waitOn | with_reducible apply moves_finish |
    with_reducible apply moves_abandon | with_reducible apply cmd_mk | with_reducible apply goes_ite |
    with_reducible apply moves_ite | split | intro _ | simp only [hm] | simp only [id_eq])

end Sys2Proof.Laws
end

