-- ==== Sys2Proof/Laws/FootRegisters.lean ====
section
/-!
SUPPORT. The footprint of each operation of Machine/Registers.lean: which register fields and parts of the state it may change.
-/
namespace Sys2Proof.Laws
open Sys2Proof.Machine

def foot_setLatch : Nat := pms [.latches]
theorem moves_setLatch {m : Nat} {r : State} {l : Latch} {s : State} (h : Moves m r s)
    (hm : Within foot_setLatch m) : Moves m r (setLatch l s) := by
  simp only [foot_setLatch, pms, within_or, within_zero, and_true] at hm
  unfold setLatch
  try dsimp only
  repeat' (first
    | with_reducible assumption | with_reducible apply moves_ite | split | with_reducible apply moves_part_latches)

def foot_stampRead : Nat := foot_advance ||| fms [.CAD_STAMP_HI]
theorem moves_stampRead {m : Nat} {r : State} {p : Place} {s : State} (h : Moves m r s)
    (hm : Within foot_stampRead m) : Moves m r (stampRead p s) := by
  simp only [foot_stampRead, fms, within_or, within_zero, and_true] at hm
  unfold stampRead
  try dsimp only
  repeat' (first
    | with_reducible assumption | with_reducible intro _ | with_reducible apply moves_when |
    with_reducible apply moves_wr | with_reducible apply moves_advance | with_reducible apply moves_ite | split |
    simp only [hm])

def foot_lowRead : Nat := foot_stampRead ||| foot_setLatch
theorem moves_lowRead {m : Nat} {r : State} {fn : Fn} {p : Place} {s : State} (h : Moves m r s)
    (hm : Within foot_lowRead m) : Moves m r (lowRead fn p s) := by
  simp only [foot_lowRead, within_or] at hm
  unfold lowRead
  try dsimp only
  repeat' (first
    | with_reducible assumption | with_reducible intro _ | with_reducible apply moves_when |
    with_reducible apply moves_stampRead | with_reducible apply moves_setLatch | with_reducible apply moves_ite | split
    | simp only [hm])

def foot_accessIn : Nat := foot_rxTlp
theorem moves_accessIn {m : Nat} {r : State} {fn : Fn} {n : Nat} {s : State} (h : Moves m r s)
    (hm : Within foot_accessIn m) : Moves m r (accessIn fn n s) := by
  simp only [foot_accessIn] at hm
  unfold accessIn
  try dsimp only
  repeat' (first
    | with_reducible assumption | with_reducible intro _ | with_reducible apply moves_when |
    with_reducible apply moves_rxTlp | with_reducible apply moves_ite | split | simp only [hm])

def foot_accessOut : Nat := foot_txTlp ||| foot_readyTlp
theorem moves_accessOut {m : Nat} {r : State} {fn : Fn} {bar off status : Nat} {data : Bytes} {s : State} (h : Moves
    m r s)
    (hm : Within foot_accessOut m) : Moves m r (accessOut fn bar off status data s) := by
  simp only [foot_accessOut, within_or] at hm
  unfold accessOut
  try dsimp only
  repeat' (first
    | with_reducible assumption | with_reducible intro _ | with_reducible apply moves_when |
    with_reducible apply moves_emit | with_reducible apply moves_txTlp | with_reducible apply moves_readyTlp |
    with_reducible apply moves_ite | split | simp only [hm])

def foot_answerUr : Nat := foot_accessOut
theorem moves_answerUr {m : Nat} {r : State} {fn : Fn} {bar off : Nat} {a0 : State} (h : Moves m r a0)
    (hm : Within foot_answerUr m) : Moves m r (answerUr fn bar off a0) := by
  simp only [foot_answerUr] at hm
  unfold answerUr
  try dsimp only
  repeat' (first
    | with_reducible assumption | with_reducible intro _ | with_reducible apply moves_accessOut |
    with_reducible apply moves_ite | split | simp only [hm])

def foot_darkRead : Nat := foot_darkHit ||| foot_accessOut
theorem moves_darkRead {m : Nat} {r : State} {fn : Fn} {bar off n d : Nat} {s : State} (h : Moves m r s)
    (hm : Within foot_darkRead m) : Moves m r (darkRead fn bar off n d s) := by
  simp only [foot_darkRead, within_or] at hm
  unfold darkRead
  try dsimp only
  repeat' (first
    | with_reducible assumption | with_reducible intro _ | with_reducible apply moves_darkHit |
    with_reducible apply moves_accessOut | with_reducible apply moves_ite | split | simp only [hm])

def foot_read32 : Nat := foot_darkRead ||| foot_lowRead ||| foot_accessOut
theorem moves_read32 {m : Nat} {r : State} {fn : Fn} {bar off : Nat} {s : State} (h : Moves m r s)
    (hm : Within foot_read32 m) : Moves m r (read32 fn bar off s) := by
  simp only [foot_read32, within_or] at hm
  unfold read32
  try dsimp only
  repeat' (first
    | with_reducible assumption | with_reducible intro _ | with_reducible apply moves_withSome |
    with_reducible apply moves_darkRead | with_reducible apply moves_lowRead | with_reducible apply moves_accessOut |
    with_reducible apply moves_ite | split | simp only [hm])

def foot_read64 : Nat := foot_darkRead ||| foot_stampRead ||| foot_accessOut
theorem moves_read64 {m : Nat} {r : State} {fn : Fn} {bar off : Nat} {s : State} (h : Moves m r s)
    (hm : Within foot_read64 m) : Moves m r (read64 fn bar off s) := by
  simp only [foot_read64, within_or] at hm
  unfold read64
  try dsimp only
  repeat' (first
    | with_reducible assumption | with_reducible intro _ | with_reducible apply moves_withSome |
    with_reducible apply moves_darkRead | with_reducible apply moves_stampRead | with_reducible apply moves_accessOut |
    with_reducible apply moves_ite | split | simp only [hm])

def foot_execLowWordRead : Nat := foot_accessIn ||| foot_answerUr ||| foot_read32
theorem moves_execLowWordRead {m : Nat} {r : State} {fn : Fn} {bar : Fin 8} {off : Nat} {s : State} (h : Moves m r
    s)
    (hm : Within foot_execLowWordRead m) : Goes m r (execLowWordRead fn bar off s) := by
  simp only [foot_execLowWordRead, within_or] at hm
  unfold execLowWordRead
  try dsimp only
  repeat' (first
    | with_reducible assumption | with_reducible intro _ | refine goes_next ?_ | with_reducible apply moves_when |
    with_reducible apply moves_accessIn | with_reducible apply moves_answerUr | with_reducible apply moves_read32 |
    with_reducible apply goes_ite | with_reducible apply moves_ite | split | simp only [hm])

def foot_after : Nat := 0
theorem moves_after {m : Nat} {r s : State} {f : State → Res} (h : Moves m r s)
    (hf : ∀ z, Moves m r z → Goes m r (f z)) (_ : Within foot_after m) : Moves m r (after f s) := by
  unfold after
  split
  · exact hf s h _ (by assumption)
  · exact h

def foot_storeField : Nat := fms Fld.all
theorem moves_storeField {m : Nat} {r : State} {v : Nat} {k : RegKey} {s : State} (h : Moves m r s)
    (hm : Within foot_storeField m) : Moves m r (storeField v k s) := by
  have hk : Within (fm k.f) m := within_fms (mem_all k.f) hm
  unfold storeField
  dsimp only
  repeat' (first | with_reducible assumption | with_reducible apply moves_wr | split)

def foot_putPlain : Nat := foot_storeField
theorem moves_putPlain {m : Nat} {r : State} {p : Place} {v : ℕ} {s : State} (h : Moves m r s)
    (hm : Within foot_putPlain m) : Moves m r (putPlain p v s) := by
  simp only [foot_putPlain] at hm
  unfold putPlain
  try dsimp only
  repeat' (first
    | with_reducible assumption | with_reducible apply moves_each | with_reducible apply moves_storeField |
    with_reducible apply moves_ite | split | intro _)

def foot_putRows : Nat := foot_after ||| foot_execCadSrcChange ||| foot_execCadEnChange ||| foot_execHlHoldWrite |||
    foot_execHlRetrainWrite ||| foot_execWlaneDisableWrite ||| foot_setStbyIdle ||| foot_setTargetRate |||
    foot_execLoopbackWrite ||| foot_execWlaneTrainWrite ||| foot_execReplayLimitZeroWrite ||| foot_storeField |||
    foot_execReshapeGoWrite ||| foot_execWlLinkResetWrite ||| foot_execChannelEnable ||| foot_execChannelDisable |||
    foot_execChIrqEnableWrite ||| foot_execChannelDoorbell ||| foot_execClkobsWrite ||| foot_execFreqCountStart |||
    foot_execFnEventEnWrite ||| foot_execRingEnWrite ||| foot_execCmdPiWrite ||| foot_execRplCiWrite |||
    foot_execLanePrbsWrite ||| foot_setInjMode ||| foot_execCntClr ||| foot_execInjStop ||| foot_execInjGo |||
    foot_execModTicksWrite
theorem moves_putRows {m : Nat} {r : State} {fn : Fn} {p : Place} {v : Nat} {s : State} (h : Moves m r s)
    (hm : Within foot_putRows m) : Moves m r (putRows fn p v s) := by
  simp only [foot_putRows, within_or] at hm
  unfold putRows
  try dsimp only
  repeat' (first
    | with_reducible assumption | with_reducible intro _ | with_reducible apply moves_when |
    with_reducible apply moves_after | with_reducible apply moves_execCadSrcChange |
    with_reducible apply moves_execCadEnChange | with_reducible apply moves_execHlHoldWrite |
    with_reducible apply moves_execHlRetrainWrite | with_reducible apply moves_execWlaneDisableWrite |
    with_reducible apply moves_setStbyIdle | with_reducible apply moves_setTargetRate |
    with_reducible apply moves_execLoopbackWrite | with_reducible apply moves_execWlaneTrainWrite |
    with_reducible apply moves_execReplayLimitZeroWrite | with_reducible apply moves_storeField |
    with_reducible apply moves_execReshapeGoWrite | with_reducible apply moves_execWlLinkResetWrite |
    with_reducible apply moves_execChannelEnable | with_reducible apply moves_execChannelDisable |
    with_reducible apply moves_execChIrqEnableWrite | with_reducible apply moves_execChannelDoorbell |
    with_reducible apply moves_execClkobsWrite | with_reducible apply moves_execFreqCountStart |
    with_reducible apply moves_execFnEventEnWrite | with_reducible apply moves_execRingEnWrite |
    with_reducible apply moves_execCmdPiWrite | with_reducible apply moves_execRplCiWrite |
    with_reducible apply moves_execLanePrbsWrite | with_reducible apply moves_setInjMode |
    with_reducible apply moves_execCntClr | with_reducible apply moves_execInjStop |
    with_reducible apply moves_execInjGo | with_reducible apply moves_execModTicksWrite | with_reducible apply moves_ite
    | split | simp only [hm])

def foot_writeReg : Nat := foot_putRows ||| foot_putPlain ||| foot_showCadOut
theorem moves_writeReg {m : Nat} {r : State} {fn : Fn} {p : Place} {v : Nat} {s : State} (h : Moves m r s)
    (hm : Within foot_writeReg m) : Moves m r (writeReg fn p v s) := by
  simp only [foot_writeReg, within_or] at hm
  unfold writeReg
  try dsimp only
  repeat' (first
    | with_reducible assumption | with_reducible intro _ | with_reducible apply moves_when |
    with_reducible apply moves_putRows | with_reducible apply moves_putPlain | with_reducible apply moves_showCadOut |
    with_reducible apply moves_ite | split | simp only [hm])

def foot_writeLock : Nat := foot_storeField
theorem moves_writeLock {m : Nat} {r : State} {p : Place} {v : Nat} {s : State} (h : Moves m r s)
    (hm : Within foot_writeLock m) : Moves m r (writeLock p v s) := by
  simp only [foot_writeLock] at hm
  unfold writeLock
  try dsimp only
  repeat' (first
    | with_reducible assumption | with_reducible intro _ | with_reducible apply moves_each |
    with_reducible apply moves_storeField | with_reducible apply moves_ite | split | simp only [hm])

def foot_writeMsix : Nat := foot_after ||| foot_execMsixUnmask ||| pms [.vecs]
theorem moves_writeMsix {m : Nat} {r : State} {fn : Fn} {v w a3 : ℕ} {s : State} (h : Moves m r s)
    (hm : Within foot_writeMsix m) : Moves m r (writeMsix fn v w a3 s) := by
  simp only [foot_writeMsix, pms, within_or, within_zero, and_true] at hm
  unfold writeMsix
  try dsimp only
  repeat' (first
    | with_reducible assumption | with_reducible apply moves_modVec | with_reducible apply moves_after |
    with_reducible apply moves_execMsixUnmask | with_reducible apply moves_ite | split | intro _ | simp only [hm])

def foot_writeWord : Nat := foot_writeMsix ||| foot_writeReg
theorem moves_writeWord {m : Nat} {r : State} {fn : Fn} {bar off v : ℕ} {s : State} (h : Moves m r s)
    (hm : Within foot_writeWord m) : Moves m r (writeWord fn bar off v s) := by
  simp only [foot_writeWord, within_or] at hm
  unfold writeWord
  try dsimp only
  repeat' (first
    | with_reducible assumption | with_reducible apply moves_when | with_reducible apply moves_writeMsix |
    with_reducible apply moves_writeReg | with_reducible apply moves_ite | split | intro _ | simp only [hm])

def foot_lockWord : Nat := foot_writeLock
theorem moves_lockWord {m : Nat} {r : State} {s0 : State} {fn : Fn} {bar : Nat} {w : Nat × Nat} {s : State} (h :
    Moves m r s)
    (hm : Within foot_lockWord m) : Moves m r (lockWord s0 fn bar w s) := by
  simp only [foot_lockWord] at hm
  unfold lockWord
  try dsimp only
  repeat' (first
    | with_reducible assumption | with_reducible intro _ | with_reducible apply moves_withSome |
    with_reducible apply moves_writeLock | with_reducible apply moves_ite | split | simp only [hm])

def foot_darkLoopback : Nat := foot_after ||| foot_execLoopbackWrite
theorem moves_darkLoopback {m : Nat} {r : State} {fn : Fn} {p : Option Place} {v : Nat} {s : State} (h : Moves m r
    s)
    (hm : Within foot_darkLoopback m) : Moves m r (darkLoopback fn p v s) := by
  simp only [foot_darkLoopback, within_or] at hm
  unfold darkLoopback
  try dsimp only
  repeat' (first
    | with_reducible assumption | with_reducible intro _ | with_reducible apply moves_withSome |
    with_reducible apply moves_after | with_reducible apply moves_execLoopbackWrite | with_reducible apply moves_ite |
    split | simp only [hm])

def foot_writeAccess : Nat := foot_darkLoopback ||| foot_darkHit ||| foot_lockWord ||| foot_writeWord
theorem moves_writeAccess {m : Nat} {r : State} {fn : Fn} {bar off n v : Nat} {s : State} (h : Moves m r s)
    (hm : Within foot_writeAccess m) : Moves m r (writeAccess fn bar off n v s) := by
  simp only [foot_writeAccess, within_or] at hm
  unfold writeAccess
  try dsimp only
  repeat' (first
    | with_reducible assumption | with_reducible intro _ | with_reducible apply moves_each |
    with_reducible apply moves_darkLoopback | with_reducible apply moves_darkHit | with_reducible apply moves_lockWord |
    with_reducible apply moves_writeWord | with_reducible apply moves_ite | split | simp only [hm])

def foot_execRegisterWrite : Nat := foot_accessIn ||| foot_writeAccess
theorem moves_execRegisterWrite {m : Nat} {r : State} {a : RegAccess} {s : State} (h : Moves m r s)
    (hm : Within foot_execRegisterWrite m) : Goes m r (execRegisterWrite a s) := by
  simp only [foot_execRegisterWrite, within_or] at hm
  unfold execRegisterWrite
  try dsimp only
  repeat' (first
    | with_reducible assumption | with_reducible intro _ | refine goes_next ?_ | with_reducible apply moves_when |
    with_reducible apply moves_emit | with_reducible apply moves_accessIn | with_reducible apply moves_writeAccess |
    with_reducible apply goes_ite | with_reducible apply moves_ite | split | simp only [hm])

def foot_execLockSet : Nat := foot_writeAccess ||| foot_accessIn
theorem moves_execLockSet {m : Nat} {r : State} {fn : Fn} {blk : LockBlk} {value : BitVec 32} {s : State} (h : Moves
    m r s)
    (hm : Within foot_execLockSet m) : Goes m r (execLockSet fn blk value s) := by
  simp only [foot_execLockSet, within_or] at hm
  unfold execLockSet
  try dsimp only
  repeat' (first
    | with_reducible assumption | with_reducible intro _ | refine goes_next ?_ | with_reducible apply moves_when |
    with_reducible apply moves_writeAccess | with_reducible apply moves_accessIn | with_reducible apply goes_ite |
    with_reducible apply moves_ite | split | simp only [hm])

def foot_execDarkAccess : Nat := foot_accessIn ||| foot_darkHit ||| foot_answerUr ||| foot_read64 ||| foot_read32
theorem moves_execDarkAccess {m : Nat} {r : State} {a : RegAccess} {write : Bool} {s : State} (h : Moves m r s)
    (hm : Within foot_execDarkAccess m) : Goes m r (execDarkAccess a write s) := by
  simp only [foot_execDarkAccess, within_or] at hm
  unfold execDarkAccess
  try dsimp only
  repeat' (first
    | with_reducible assumption | with_reducible intro _ | refine goes_next ?_ | with_reducible apply moves_when |
    with_reducible apply moves_withSome | with_reducible apply moves_emit | with_reducible apply moves_accessIn |
    with_reducible apply moves_darkHit | with_reducible apply moves_answerUr | with_reducible apply moves_read64 |
    with_reducible apply moves_read32 | with_reducible apply goes_ite | with_reducible apply moves_ite | split |
    simp only [hm])

end Sys2Proof.Laws
end

