-- ==== Sys2Proof/Laws/FootManage.lean ====
section
/-!
SUPPORT. The footprint of each operation of Machine/Manage.lean: which register fields and parts of the state it may change.
-/
namespace Sys2Proof.Laws
open Sys2Proof.Machine

def foot_execScheduledCommandExec : Nat := foot_runSched ||| foot_cmdTenantModify ||| foot_cmdOutwin ||| foot_cmdInwin
    |||
    foot_cmdIntwin ||| foot_cmdSheaf ||| foot_cmdTenantThaw ||| foot_cmdPdSet ||| foot_cmdTillerReset |||
    foot_cmdTraceFilter
theorem moves_execScheduledCommandExec {m : Nat} {r s : State} (h : Moves m r s)
    (hm : Within foot_execScheduledCommandExec m) : Goes m r (execScheduledCommandExec s) := by
  simp only [foot_execScheduledCommandExec, within_or] at hm
  have hc : ∀ e c, schedCmd e = some c → CmdMoves m r c := by
    intro e c he
    unfold schedCmd at he
    dsimp only at he
    split at he <;> cases he <;> first
      | with_reducible apply moves_cmdTenantModify
      | with_reducible apply moves_cmdOutwin
      | with_reducible apply moves_cmdInwin
      | with_reducible apply moves_cmdIntwin
      | with_reducible apply moves_cmdSheaf
      | with_reducible apply moves_cmdTenantThaw
      | with_reducible apply moves_cmdPdSet
      | with_reducible apply moves_cmdTillerReset
      | with_reducible apply moves_cmdTraceFilter
    all_goals simp only [hm]
  refine goes_next (moves_when h (fun z hz => ?_))
  split
  · unfold withSome
    split
    · exact moves_runSched hz (hc _ _ (by assumption)) (by simp only [hm])
    · exact hz
  · exact hz

def foot_execDeviceInfo : Nat := foot_runCmd ||| foot_finish
theorem moves_execDeviceInfo {m : Nat} {r : State} {r' : CmdReq} {s : State} (h : Moves m r s)
    (hm : Within foot_execDeviceInfo m) : Goes m r (execDeviceInfo r' s) := by
  simp only [foot_execDeviceInfo, within_or] at hm
  unfold execDeviceInfo
  try dsimp only
  repeat' (first
    | with_reducible assumption | refine goes_next ?_ | with_reducible apply moves_runCmd |
    with_reducible apply moves_finish | with_reducible apply cmd_mk | with_reducible apply goes_ite |
    with_reducible apply moves_ite | split | intro _ | simp only [hm] | simp only [id_eq])

def foot_execDirectoryRead : Nat := foot_runCmd ||| foot_finish ||| pms [.keeper]
theorem moves_execDirectoryRead {m : Nat} {r : State} {r' : CmdReq} {offset : ℕ} {s : State} (h : Moves m r s)
    (hm : Within foot_execDirectoryRead m) : Goes m r (execDirectoryRead r' offset s) := by
  simp only [foot_execDirectoryRead, pms, within_or, within_zero, and_true] at hm
  unfold execDirectoryRead
  try dsimp only
  repeat' (first
    | with_reducible assumption | refine goes_next ?_ | with_reducible apply moves_withSome |
    with_reducible apply moves_runCmd | with_reducible apply moves_modKeeper | with_reducible apply moves_finish |
    with_reducible apply cmd_mk | with_reducible apply goes_ite | with_reducible apply moves_ite | split | intro _ |
    simp only [hm] | simp only [id_eq])

def foot_moveMgr : Nat := foot_showMgr ||| foot_dirChange ||| foot_journal ||| pms [.keeper]
theorem moves_moveMgr {m : Nat} {r : State} {hl : ℕ} {smp : Bool} {s : State} (h : Moves m r s)
    (hm : Within foot_moveMgr m) : Moves m r (moveMgr hl smp s) := by
  simp only [foot_moveMgr, pms, within_or, within_zero, and_true] at hm
  unfold moveMgr
  try dsimp only
  repeat' (first
    | with_reducible assumption | with_reducible apply moves_showMgr | with_reducible apply moves_modKeeper |
    with_reducible apply moves_dirChange | with_reducible apply moves_journal | with_reducible apply moves_ite | split
    | intro _ | simp only [hm])

def foot_execMgrHandover : Nat := foot_runCmd ||| foot_moveMgr ||| foot_finish ||| pms [.store]
theorem moves_execMgrHandover {m : Nat} {r : State} {r' : CmdReq} {new policy : ℕ} {s : State} (h : Moves m r s)
    (hm : Within foot_execMgrHandover m) : Goes m r (execMgrHandover r' new policy s) := by
  simp only [foot_execMgrHandover, pms, within_or, within_zero, and_true] at hm
  unfold execMgrHandover
  try dsimp only
  repeat' (first
    | with_reducible assumption | refine goes_next ?_ | with_reducible apply moves_when |
    with_reducible apply moves_runCmd | with_reducible apply moves_modStore | with_reducible apply moves_moveMgr |
    with_reducible apply moves_finish | with_reducible apply cmd_mk | with_reducible apply goes_ite |
    with_reducible apply moves_ite | split | intro _ | simp only [hm] | simp only [id_eq])

def foot_dropPieces : Nat := pms [.keeper]
theorem moves_dropPieces {m : Nat} {r : State} {s : State} (h : Moves m r s)
    (hm : Within foot_dropPieces m) : Moves m r (dropPieces s) := by
  simp only [foot_dropPieces, pms, within_or, within_zero, and_true] at hm
  unfold dropPieces
  try dsimp only
  repeat' (first
    | with_reducible assumption | with_reducible apply moves_modKeeper)

def foot_takePiece : Nat := foot_dropPieces ||| foot_finish ||| pms [.store, .keeper]
theorem moves_takePiece {m : Nat} {r : State} {r' : CmdReq} {offset total : ℕ} {d : Bytes} {s : State} (h : Moves m r
    s)
    (hm : Within foot_takePiece m) : Moves m r (takePiece r' offset total d s) := by
  simp only [foot_takePiece, pms, within_or, within_zero, and_true] at hm
  unfold takePiece
  try dsimp only
  repeat' (first
    | with_reducible assumption | with_reducible apply moves_modStore | with_reducible apply moves_dropPieces |
    with_reducible apply moves_modKeeper | with_reducible apply moves_finish | with_reducible apply moves_ite | split
    | intro _ | simp only [hm])

def foot_execExpromStore : Nat := foot_runCmd ||| foot_takePiece
theorem moves_execExpromStore {m : Nat} {r : State} {r' : CmdReq} {offset total : ℕ} {data : Bytes} {s : State} (h :
    Moves m r s)
    (hm : Within foot_execExpromStore m) : Goes m r (execExpromStore r' offset total data s) := by
  simp only [foot_execExpromStore, within_or] at hm
  unfold execExpromStore
  try dsimp only
  repeat' (first
    | with_reducible assumption | refine goes_next ?_ | with_reducible apply moves_runCmd |
    with_reducible apply moves_takePiece | with_reducible apply cmd_mk | with_reducible apply goes_ite |
    with_reducible apply moves_ite | split | intro _ | simp only [hm] | simp only [id_eq])

def foot_execExpromPiecesExpire : Nat := foot_dropPieces
theorem moves_execExpromPiecesExpire {m : Nat} {r : State} {s : State} (h : Moves m r s)
    (hm : Within foot_execExpromPiecesExpire m) : Goes m r (execExpromPiecesExpire s) := by
  simp only [foot_execExpromPiecesExpire] at hm
  unfold execExpromPiecesExpire
  try dsimp only
  repeat' (first
    | with_reducible assumption | refine goes_next ?_ | with_reducible apply moves_when |
    with_reducible apply moves_dropPieces | with_reducible apply goes_ite | with_reducible apply moves_ite | split |
    intro _)

def foot_execSubsysSet : Nat := foot_runCmd ||| foot_finish ||| pms [.store]
theorem moves_execSubsysSet {m : Nat} {r : State} {r' : CmdReq} {vendor id : ℕ} {s : State} (h : Moves m r s)
    (hm : Within foot_execSubsysSet m) : Goes m r (execSubsysSet r' vendor id s) := by
  simp only [foot_execSubsysSet, pms, within_or, within_zero, and_true] at hm
  unfold execSubsysSet
  try dsimp only
  repeat' (first
    | with_reducible assumption | refine goes_next ?_ | with_reducible apply moves_runCmd |
    with_reducible apply moves_finish | with_reducible apply moves_modStore | with_reducible apply cmd_mk |
    with_reducible apply goes_ite | with_reducible apply moves_ite | split | intro _ | simp only [hm] |
    simp only [id_eq])

def foot_hportAct : Nat := pms [.store] ||| fms [.HL_BIFUR_NEXT, .HL_CLKMODE_NEXT, .HL_CFG_PENDING]
theorem moves_hportAct {m : Nat} {r : State} {port bifur clkmode speed : Nat} {s : State} (h : Moves m r s)
    (hm : Within foot_hportAct m) : Moves m r (hportAct port bifur clkmode speed s) := by
  simp only [foot_hportAct, fms, pms, within_or, within_zero, and_true] at hm
  unfold hportAct
  try dsimp only
  repeat' (first
    | with_reducible assumption | with_reducible intro _ | with_reducible apply moves_each |
    with_reducible apply moves_wr | with_reducible apply moves_modStore | with_reducible apply moves_ite | split |
    simp only [hm])

def foot_execHportConfig : Nat := foot_runCmd ||| foot_finish ||| foot_hportAct
theorem moves_execHportConfig {m : Nat} {r : State} {r' : CmdReq} {port bifur clkmode speed : ℕ} {s : State} (h :
    Moves m r s)
    (hm : Within foot_execHportConfig m) : Goes m r (execHportConfig r' port bifur clkmode speed s) := by
  simp only [foot_execHportConfig, within_or] at hm
  unfold execHportConfig
  try dsimp only
  repeat' (first
    | with_reducible assumption | refine goes_next ?_ | with_reducible apply moves_runCmd |
    with_reducible apply moves_finish | with_reducible apply moves_hportAct | with_reducible apply cmd_mk |
    with_reducible apply goes_ite | with_reducible apply moves_ite | split | intro _ | simp only [hm] |
    simp only [id_eq])

def foot_wlinkPut : Nat := foot_setDisable ||| foot_setTargetRate ||| foot_putWlCfg ||| pms [.store]
theorem moves_wlinkPut {m : Nat} {r : State} {p : WlinkParams} {b : Nat} {s : State} (h : Moves m r s)
    (hm : Within foot_wlinkPut m) : Moves m r (wlinkPut p b s) := by
  simp only [foot_wlinkPut, pms, within_or, within_zero, and_true] at hm
  unfold wlinkPut
  try dsimp only
  repeat' (first
    | with_reducible assumption | with_reducible intro _ | with_reducible apply moves_when |
    with_reducible apply moves_modStore | with_reducible apply moves_setDisable |
    with_reducible apply moves_setTargetRate | with_reducible apply moves_putWlCfg | with_reducible apply moves_ite |
    split | simp only [hm])

def foot_execWlinkConfig : Nat := foot_runCmd ||| foot_finish ||| foot_wlinkPut
theorem moves_execWlinkConfig {m : Nat} {r : State} {r' : CmdReq} {p : WlinkParams} {s : State} (h : Moves m r s)
    (hm : Within foot_execWlinkConfig m) : Goes m r (execWlinkConfig r' p s) := by
  simp only [foot_execWlinkConfig, within_or] at hm
  unfold execWlinkConfig
  try dsimp only
  repeat' (first
    | with_reducible assumption | with_reducible intro _ | refine goes_next ?_ | with_reducible apply moves_each |
    with_reducible apply moves_runCmd | with_reducible apply moves_finish | with_reducible apply moves_wlinkPut |
    with_reducible apply cmd_mk | with_reducible apply goes_ite | with_reducible apply moves_ite | split |
    simp only [hm] | simp only [id_eq])

def foot_execWlinkReset : Nat := foot_runCmd ||| foot_finish ||| foot_linkReset
theorem moves_execWlinkReset {m : Nat} {r : State} {r' : CmdReq} {link : ℕ} {s : State} (h : Moves m r s)
    (hm : Within foot_execWlinkReset m) : Goes m r (execWlinkReset r' link s) := by
  simp only [foot_execWlinkReset, within_or] at hm
  unfold execWlinkReset
  try dsimp only
  repeat' (first
    | with_reducible assumption | refine goes_next ?_ | with_reducible apply moves_runCmd |
    with_reducible apply moves_finish | with_reducible apply moves_linkReset | with_reducible apply cmd_mk |
    with_reducible apply goes_ite | with_reducible apply moves_ite | split | intro _ | simp only [hm] |
    simp only [id_eq])

def foot_execWlinkReshape : Nat := foot_runCmd ||| foot_finish ||| foot_startReshape ||| fms [.WL_RESHAPE_SET]
theorem moves_execWlinkReshape {m : Nat} {r : State} {r' : CmdReq} {link set : ℕ} {s : State} (h : Moves m r s)
    (hm : Within foot_execWlinkReshape m) : Goes m r (execWlinkReshape r' link set s) := by
  simp only [foot_execWlinkReshape, fms, within_or, within_zero, and_true] at hm
  unfold execWlinkReshape
  try dsimp only
  repeat' (first
    | with_reducible assumption | refine goes_next ?_ | with_reducible apply moves_runCmd |
    with_reducible apply moves_finish | with_reducible apply moves_startReshape | with_reducible apply moves_wr |
    with_reducible apply cmd_mk | with_reducible apply goes_ite | with_reducible apply moves_ite | split | intro _ |
    simp only [hm] | simp only [id_eq])

def foot_execWlinkInfo : Nat := foot_runCmd ||| foot_finish
theorem moves_execWlinkInfo {m : Nat} {r : State} {r' : CmdReq} {link : ℕ} {s : State} (h : Moves m r s)
    (hm : Within foot_execWlinkInfo m) : Goes m r (execWlinkInfo r' link s) := by
  simp only [foot_execWlinkInfo, within_or] at hm
  unfold execWlinkInfo
  try dsimp only
  repeat' (first
    | with_reducible assumption | refine goes_next ?_ | with_reducible apply moves_runCmd |
    with_reducible apply moves_finish | with_reducible apply cmd_mk | with_reducible apply goes_ite |
    with_reducible apply moves_ite | split | intro _ | simp only [hm] | simp only [id_eq])

end Sys2Proof.Laws
end

