-- ==== Sys2Proof/Laws/FootExec.lean ====
section
/-!
SUPPORT. What each command may change: the footprint of every constructor, and that `exec` keeps within it.
-/
namespace Sys2Proof.Laws
open Sys2Proof.Machine

/-- The footprint of a command. -/
def foot : Instr → Nat
  | .registerWrite _ => foot_execRegisterWrite
  | .lockSet _ _ _ => foot_execLockSet
  | .lowWordRead _ _ _ => foot_execLowWordRead
  | .darkAccess _ _ => foot_execDarkAccess
  | .cmdPiWrite _ _ => foot_execCmdPiWrite
  | .ringEnWrite _ _ => foot_execRingEnWrite
  | .rplCiWrite _ _ => foot_execRplCiWrite
  | .commandFetch => foot_execCommandFetch
  | .scheduledCommandExec => foot_execScheduledCommandExec
  | .nop _ => foot_execNop
  | .deviceInfo _ => foot_execDeviceInfo
  | .directoryRead _ _ => foot_execDirectoryRead
  | .cmdCancel _ _ => foot_execCmdCancel
  | .mgrHandover _ _ _ => foot_execMgrHandover
  | .expromStore _ _ _ _ => foot_execExpromStore
  | .expromPiecesExpire => foot_execExpromPiecesExpire
  | .subsysSet _ _ _ => foot_execSubsysSet
  | .tenantCreate _ _ => foot_execTenantCreate
  | .tenantModify _ _ => foot_execTenantModify
  | .tenantReset _ => foot_execTenantReset
  | .tenantDestroy _ => foot_execTenantDestroy
  | .tenantQuery _ => foot_execTenantQuery
  | .vfAllot _ _ _ _ _ => foot_execVfAllot
  | .runaheadSet _ _ _ _ => foot_execRunaheadSet
  | .outwinSet _ _ _ => foot_execOutwinSet
  | .inwinSet _ _ _ => foot_execInwinSet
  | .intwinSet _ _ _ => foot_execIntwinSet
  | .sheafSet _ _ _ => foot_execSheafSet
  | .hportConfig _ _ _ _ _ => foot_execHportConfig
  | .wlinkConfig _ _ => foot_execWlinkConfig
  | .wlinkReset _ _ => foot_execWlinkReset
  | .wlinkReshape _ _ _ => foot_execWlinkReshape
  | .wlinkInfo _ _ => foot_execWlinkInfo
  | .logConfig _ _ => foot_execLogConfig
  | .logHarvest _ => foot_execLogHarvest
  | .tenantFreeze _ => foot_execTenantFreeze
  | .tenantThaw _ => foot_execTenantThaw
  | .tenantSave _ _ => foot_execTenantSave
  | .tenantRestore _ _ _ _ => foot_execTenantRestore
  | .cadenceAnchor _ _ _ => foot_execCadenceAnchor
  | .anchorBoundary => foot_execAnchorBoundary
  | .ptmResponse _ _ => foot_execPtmResponse
  | .ptmTimeout => foot_execPtmTimeout
  | .clockSwitch _ _ _ => foot_execClockSwitch
  | .clockMeasure _ _ _ _ => foot_execClockMeasure
  | .pdSet _ _ _ _ => foot_execPdSet
  | .padRelease _ _ => foot_execPadRelease
  | .bankTest _ _ _ => foot_execBankTest
  | .tillerReset _ _ => foot_execTillerReset
  | .updateBegin _ _ => foot_execUpdateBegin
  | .updateChunk _ _ _ _ => foot_execUpdateChunk
  | .updateStatus _ _ => foot_execUpdateStatus
  | .updateActivate _ => foot_execUpdateActivate
  | .updateConfirm _ => foot_execUpdateConfirm
  | .updateAbort _ => foot_execUpdateAbort
  | .traceFilter _ _ => foot_execTraceFilter
  | .traceStream _ _ => foot_execTraceStream
  | .traceRead _ _ => foot_execTraceRead
  | .faultRead _ => foot_execFaultRead
  | .faultClear _ _ => foot_execFaultClear
  | .faultRelease _ => foot_execFaultRelease
  | .faultInject _ _ => foot_execFaultInject
  | .faultConfig _ _ => foot_execFaultConfig
  | .journalRead _ _ => foot_execJournalRead
  | .keeperWatchdog => foot_execKeeperWatchdog
  | .drainTimeout => foot_execDrainTimeout
  | .keeperRestartDone => foot_execKeeperRestartDone
  | .smpWrite _ _ _ => foot_execSmpWrite
  | .smpRead => foot_execSmpRead
  | .smpStatus => foot_execSmpStatus
  | .smpCsAbort _ => foot_execSmpCsAbort
  | .cadencePulse _ _ _ => foot_execCadencePulse
  | .slewEnd => foot_execSlewEnd
  | .tickBoundary => foot_execTickBoundary
  | .epochBoundary => foot_execEpochBoundary
  | .checkpointOverdue => foot_execCheckpointOverdue
  | .coastingOnset => foot_execCoastingOnset
  | .acquireTimeout => foot_execAcquireTimeout
  | .cadEnChange _ _ => foot_execCadEnChange
  | .cadSrcChange _ _ => foot_execCadSrcChange
  | .cadNominalWrite _ _ => foot_execCadNominalWrite
  | .powerOnReset => foot_execPowerOnReset
  | .porRelease _ => foot_execPorRelease
  | .resetNAssert => foot_execResetNAssert
  | .resetNRelease _ => foot_execResetNRelease
  | .romBoot _ => foot_execRomBoot
  | .bootClockTimeout => foot_execBootClockTimeout
  | .perstAssert _ => foot_execPerstAssert
  | .perstDeassert _ => foot_execPerstDeassert
  | .hotResetReceived _ => foot_execHotResetReceived
  | .dlDown _ => foot_execDlDown
  | .linkDisable _ => foot_execLinkDisable
  | .linkDisableEnd _ => foot_execLinkDisableEnd
  | .detectEntry _ => foot_execDetectEntry
  | .dlUp _ _ _ _ => foot_execDlUp
  | .pfReady _ => foot_execPfReady
  | .refclkLost _ => foot_execRefclkLost
  | .hlHoldWrite _ _ _ => foot_execHlHoldWrite
  | .hlRetrainWrite _ _ => foot_execHlRetrainWrite
  | .speedChange _ _ _ => foot_execSpeedChange
  | .l0pPartnerRequest _ _ => foot_execL0pPartnerRequest
  | .l0pHalve _ => foot_execL0pHalve
  | .l0pRestore _ => foot_execL0pRestore
  | .aspmL1Entry _ _ => foot_execAspmL1Entry
  | .l1Exit _ => foot_execL1Exit
  | .ltrActive _ => foot_execLtrActive
  | .ltrNoRequirement _ => foot_execLtrNoRequirement
  | .configRequest _ _ _ => foot_execConfigRequest
  | .vfEnableSet _ => foot_execVfEnableSet
  | .vfReady _ => foot_execVfReady
  | .vfEnableClear _ => foot_execVfEnableClear
  | .flr _ => foot_execFlr
  | .busMasterClear _ => foot_execBusMasterClear
  | .busMasterSet _ => foot_execBusMasterSet
  | .d3hotEntry _ => foot_execD3hotEntry
  | .d0Return _ => foot_execD0Return
  | .numvfsWrite _ _ => foot_execNumvfsWrite
  | .rebarSizeWrite _ _ => foot_execRebarSizeWrite
  | .msixUnmask _ _ => foot_execMsixUnmask
  | .inboundRequest _ => foot_execInboundRequest
  | .expromRead _ _ _ _ => foot_execExpromRead
  | .hostReadIssue _ _ _ => foot_execHostReadIssue
  | .hostTlpIssue _ _ => foot_execHostTlpIssue
  | .hostCompletion _ => foot_execHostCompletion
  | .completionTimeout _ _ => foot_execCompletionTimeout
  | .quarantineExpiry _ _ => foot_execQuarantineExpiry
  | .localMwr _ _ => foot_execLocalMwr
  | .sheafLagExceeded _ _ => foot_execSheafLagExceeded
  | .localMrd _ _ => foot_execLocalMrd
  | .localAtom _ _ => foot_execLocalAtom
  | .localInterruptMsg _ _ => foot_execLocalInterruptMsg
  | .peerDoorbell _ _ => foot_execPeerDoorbell
  | .identReceived _ _ => foot_execIdentReceived
  | .localResponse _ _ => foot_execLocalResponse
  | .lrspTimeout _ _ => foot_execLrspTimeout
  | .partnerClockStable _ => foot_execPartnerClockStable
  | .ts2Exchanged _ _ => foot_execTs2Exchanged
  | .ts3Echoed _ _ _ => foot_execTs3Echoed
  | .switchDone _ => foot_execSwitchDone
  | .fastConfirmed _ => foot_execFastConfirmed
  | .trainAttemptTimeout _ => foot_execTrainAttemptTimeout
  | .partnerClockLost _ => foot_execPartnerClockLost
  | .phyRetrain _ => foot_execPhyRetrain
  | .partnerRetrain _ => foot_execPartnerRetrain
  | .retrainDone _ _ _ => foot_execRetrainDone
  | .wlaneDisableWrite _ _ _ => foot_execWlaneDisableWrite
  | .wlaneTrainWrite _ _ => foot_execWlaneTrainWrite
  | .loopbackWrite _ _ _ => foot_execLoopbackWrite
  | .lanePrbsWrite _ _ _ _ _ => foot_execLanePrbsWrite
  | .prbsSyncGain _ _ => foot_execPrbsSyncGain
  | .prbsSyncLoss _ _ _ _ => foot_execPrbsSyncLoss
  | .cntClr _ _ _ => foot_execCntClr
  | .injGo _ _ _ => foot_execInjGo
  | .injStop _ _ _ => foot_execInjStop
  | .alignmentBlockSend _ => foot_execAlignmentBlockSend
  | .alignmentBlockReceive _ _ => foot_execAlignmentBlockReceive
  | .backgroundTrainPass _ _ => foot_execBackgroundTrainPass
  | .backgroundTrainFail _ _ => foot_execBackgroundTrainFail
  | .grainReceived _ _ => foot_execGrainReceived
  | .ackSend _ => foot_execAckSend
  | .linkPacketSend _ _ _ => foot_execLinkPacketSend
  | .replayTimeout _ => foot_execReplayTimeout
  | .initReceived _ _ => foot_execInitReceived
  | .initTimeout _ => foot_execInitTimeout
  | .graceExpiry _ => foot_execGraceExpiry
  | .wlLinkResetWrite _ _ => foot_execWlLinkResetWrite
  | .haltReceived _ => foot_execHaltReceived
  | .reshapeGoWrite _ _ _ => foot_execReshapeGoWrite
  | .laneReq _ _ _ => foot_execLaneReq
  | .laneAck _ _ => foot_execLaneAck
  | .laneNak _ _ _ => foot_execLaneNak
  | .laneReady _ _ => foot_execLaneReady
  | .reshapeTimeout _ => foot_execReshapeTimeout
  | .channelDoorbell _ _ => foot_execChannelDoorbell
  | .channelEnable _ _ => foot_execChannelEnable
  | .channelDisable _ _ => foot_execChannelDisable
  | .channelRetry _ => foot_execChannelRetry
  | .channelDrained _ => foot_execChannelDrained
  | .tenantResetComplete _ => foot_execTenantResetComplete
  | .tenantPendingDrained _ => foot_execTenantPendingDrained
  | .freezePoint _ => foot_execFreezePoint
  | .freezeQuiesced _ => foot_execFreezeQuiesced
  | .harvestBoundary _ => foot_execHarvestBoundary
  | .harvestDone _ => foot_execHarvestDone
  | .holdoffEnd _ _ => foot_execHoldoffEnd
  | .modTicksWrite _ _ _ => foot_execModTicksWrite
  | .fnEventEnWrite _ _ => foot_execFnEventEnWrite
  | .chIrqEnableWrite _ _ _ => foot_execChIrqEnableWrite
  | .errorLineEvent _ => foot_execErrorLineEvent
  | .faultMinwExpiry => foot_execFaultMinwExpiry
  | .faultInEvent _ => foot_execFaultInEvent
  | .journalAppend => foot_execJournalAppend
  | .journalEraseDone => foot_execJournalEraseDone
  | .clockMonitorTrip _ => foot_execClockMonitorTrip
  | .froReady => foot_execFroReady
  | .sourceReady _ => foot_execSourceReady
  | .pllReady _ => foot_execPllReady
  | .clockSwitchDone _ => foot_execClockSwitchDone
  | .forcedClockSwitch _ => foot_execForcedClockSwitch
  | .freqCountStart _ _ => foot_execFreqCountStart
  | .freqCountEnd _ => foot_execFreqCountEnd
  | .clkobsWrite _ _ _ => foot_execClkobsWrite
  | .wakeStepReady _ _ => foot_execWakeStepReady
  | .wakeStepTimeout _ => foot_execWakeStepTimeout
  | .vinLow _ => foot_execVinLow
  | .eraseDone => foot_execEraseDone
  | .activationBoundary => foot_execActivationBoundary
  | .trialEnd => foot_execTrialEnd
  | .traceRecordAppend _ => foot_execTraceRecordAppend
  | .streamBatchWrite => foot_execStreamBatchWrite
  | .streamResume => foot_execStreamResume
  | .jtagTracePtr _ => foot_execJtagTracePtr
  | .jtagTraceData => foot_execJtagTraceData
  | .jtagIdcode => foot_execJtagIdcode
  | .jtagSamplePreload _ => foot_execJtagSamplePreload
  | .jtagPadDrive _ => foot_execJtagPadDrive
  | .refclkRestored _ => foot_execRefclkRestored
  | .laneMarginingCommand _ _ _ => foot_execLaneMarginingCommand
  | .l2Entry _ => foot_execL2Entry
  | .replayLimitZeroWrite _ _ => foot_execReplayLimitZeroWrite

/-- A command that answers a next state changes no more than its footprint names. -/
theorem exec_goes (c : Instr) (s : State) : Goes (foot c) s (exec c s) := by
  cases c
  · exact moves_execRegisterWrite (m := foot_execRegisterWrite) (Moves.refl _ s) (within_self _)
  · exact moves_execLockSet (m := foot_execLockSet) (Moves.refl _ s) (within_self _)
  · exact moves_execLowWordRead (m := foot_execLowWordRead) (Moves.refl _ s) (within_self _)
  · exact moves_execDarkAccess (m := foot_execDarkAccess) (Moves.refl _ s) (within_self _)
  · exact moves_execCmdPiWrite (m := foot_execCmdPiWrite) (Moves.refl _ s) (within_self _)
  · exact moves_execRingEnWrite (m := foot_execRingEnWrite) (Moves.refl _ s) (within_self _)
  · exact moves_execRplCiWrite (m := foot_execRplCiWrite) (Moves.refl _ s) (within_self _)
  · exact moves_execCommandFetch (m := foot_execCommandFetch) (Moves.refl _ s) (within_self _)
  · exact moves_execScheduledCommandExec (m := foot_execScheduledCommandExec) (Moves.refl _ s) (within_self _)
  · exact moves_execNop (m := foot_execNop) (Moves.refl _ s) (within_self _)
  · exact moves_execDeviceInfo (m := foot_execDeviceInfo) (Moves.refl _ s) (within_self _)
  · exact moves_execDirectoryRead (m := foot_execDirectoryRead) (Moves.refl _ s) (within_self _)
  · exact moves_execCmdCancel (m := foot_execCmdCancel) (Moves.refl _ s) (within_self _)
  · exact moves_execMgrHandover (m := foot_execMgrHandover) (Moves.refl _ s) (within_self _)
  · exact moves_execExpromStore (m := foot_execExpromStore) (Moves.refl _ s) (within_self _)
  · exact moves_execExpromPiecesExpire (m := foot_execExpromPiecesExpire) (Moves.refl _ s) (within_self _)
  · exact moves_execSubsysSet (m := foot_execSubsysSet) (Moves.refl _ s) (within_self _)
  · exact moves_execTenantCreate (m := foot_execTenantCreate) (Moves.refl _ s) (within_self _)
  · exact moves_execTenantModify (m := foot_execTenantModify) (Moves.refl _ s) (within_self _)
  · exact moves_execTenantReset (m := foot_execTenantReset) (Moves.refl _ s) (within_self _)
  · exact moves_execTenantDestroy (m := foot_execTenantDestroy) (Moves.refl _ s) (within_self _)
  · exact moves_execTenantQuery (m := foot_execTenantQuery) (Moves.refl _ s) (within_self _)
  · exact moves_execVfAllot (m := foot_execVfAllot) (Moves.refl _ s) (within_self _)
  · exact moves_execRunaheadSet (m := foot_execRunaheadSet) (Moves.refl _ s) (within_self _)
  · exact moves_execOutwinSet (m := foot_execOutwinSet) (Moves.refl _ s) (within_self _)
  · exact moves_execInwinSet (m := foot_execInwinSet) (Moves.refl _ s) (within_self _)
  · exact moves_execIntwinSet (m := foot_execIntwinSet) (Moves.refl _ s) (within_self _)
  · exact moves_execSheafSet (m := foot_execSheafSet) (Moves.refl _ s) (within_self _)
  · exact moves_execHportConfig (m := foot_execHportConfig) (Moves.refl _ s) (within_self _)
  · exact moves_execWlinkConfig (m := foot_execWlinkConfig) (Moves.refl _ s) (within_self _)
  · exact moves_execWlinkReset (m := foot_execWlinkReset) (Moves.refl _ s) (within_self _)
  · exact moves_execWlinkReshape (m := foot_execWlinkReshape) (Moves.refl _ s) (within_self _)
  · exact moves_execWlinkInfo (m := foot_execWlinkInfo) (Moves.refl _ s) (within_self _)
  · exact moves_execLogConfig (m := foot_execLogConfig) (Moves.refl _ s) (within_self _)
  · exact moves_execLogHarvest (m := foot_execLogHarvest) (Moves.refl _ s) (within_self _)
  · exact moves_execTenantFreeze (m := foot_execTenantFreeze) (Moves.refl _ s) (within_self _)
  · exact moves_execTenantThaw (m := foot_execTenantThaw) (Moves.refl _ s) (within_self _)
  · exact moves_execTenantSave (m := foot_execTenantSave) (Moves.refl _ s) (within_self _)
  · exact moves_execTenantRestore (m := foot_execTenantRestore) (Moves.refl _ s) (within_self _)
  · exact moves_execCadenceAnchor (m := foot_execCadenceAnchor) (Moves.refl _ s) (within_self _)
  · exact moves_execAnchorBoundary (m := foot_execAnchorBoundary) (Moves.refl _ s) (within_self _)
  · exact moves_execPtmResponse (m := foot_execPtmResponse) (Moves.refl _ s) (within_self _)
  · exact moves_execPtmTimeout (m := foot_execPtmTimeout) (Moves.refl _ s) (within_self _)
  · exact moves_execClockSwitch (m := foot_execClockSwitch) (Moves.refl _ s) (within_self _)
  · exact moves_execClockMeasure (m := foot_execClockMeasure) (Moves.refl _ s) (within_self _)
  · exact moves_execPdSet (m := foot_execPdSet) (Moves.refl _ s) (within_self _)
  · exact moves_execPadRelease (m := foot_execPadRelease) (Moves.refl _ s) (within_self _)
  · exact moves_execBankTest (m := foot_execBankTest) (Moves.refl _ s) (within_self _)
  · exact moves_execTillerReset (m := foot_execTillerReset) (Moves.refl _ s) (within_self _)
  · exact moves_execUpdateBegin (m := foot_execUpdateBegin) (Moves.refl _ s) (within_self _)
  · exact moves_execUpdateChunk (m := foot_execUpdateChunk) (Moves.refl _ s) (within_self _)
  · exact moves_execUpdateStatus (m := foot_execUpdateStatus) (Moves.refl _ s) (within_self _)
  · exact moves_execUpdateActivate (m := foot_execUpdateActivate) (Moves.refl _ s) (within_self _)
  · exact moves_execUpdateConfirm (m := foot_execUpdateConfirm) (Moves.refl _ s) (within_self _)
  · exact moves_execUpdateAbort (m := foot_execUpdateAbort) (Moves.refl _ s) (within_self _)
  · exact moves_execTraceFilter (m := foot_execTraceFilter) (Moves.refl _ s) (within_self _)
  · exact moves_execTraceStream (m := foot_execTraceStream) (Moves.refl _ s) (within_self _)
  · exact moves_execTraceRead (m := foot_execTraceRead) (Moves.refl _ s) (within_self _)
  · exact moves_execFaultRead (m := foot_execFaultRead) (Moves.refl _ s) (within_self _)
  · exact moves_execFaultClear (m := foot_execFaultClear) (Moves.refl _ s) (within_self _)
  · exact moves_execFaultRelease (m := foot_execFaultRelease) (Moves.refl _ s) (within_self _)
  · exact moves_execFaultInject (m := foot_execFaultInject) (Moves.refl _ s) (within_self _)
  · exact moves_execFaultConfig (m := foot_execFaultConfig) (Moves.refl _ s) (within_self _)
  · exact moves_execJournalRead (m := foot_execJournalRead) (Moves.refl _ s) (within_self _)
  · exact moves_execKeeperWatchdog (m := foot_execKeeperWatchdog) (Moves.refl _ s) (within_self _)
  · exact moves_execDrainTimeout (m := foot_execDrainTimeout) (Moves.refl _ s) (within_self _)
  · exact moves_execKeeperRestartDone (m := foot_execKeeperRestartDone) (Moves.refl _ s) (within_self _)
  · exact moves_execSmpWrite (m := foot_execSmpWrite) (Moves.refl _ s) (within_self _)
  · exact moves_execSmpRead (m := foot_execSmpRead) (Moves.refl _ s) (within_self _)
  · exact moves_execSmpStatus (m := foot_execSmpStatus) (Moves.refl _ s) (within_self _)
  · exact moves_execSmpCsAbort (m := foot_execSmpCsAbort) (Moves.refl _ s) (within_self _)
  · exact moves_execCadencePulse (m := foot_execCadencePulse) (Moves.refl _ s) (within_self _)
  · exact moves_execSlewEnd (m := foot_execSlewEnd) (Moves.refl _ s) (within_self _)
  · exact moves_execTickBoundary (m := foot_execTickBoundary) (Moves.refl _ s) (within_self _)
  · exact moves_execEpochBoundary (m := foot_execEpochBoundary) (Moves.refl _ s) (within_self _)
  · exact moves_execCheckpointOverdue (m := foot_execCheckpointOverdue) (Moves.refl _ s) (within_self _)
  · exact moves_execCoastingOnset (m := foot_execCoastingOnset) (Moves.refl _ s) (within_self _)
  · exact moves_execAcquireTimeout (m := foot_execAcquireTimeout) (Moves.refl _ s) (within_self _)
  · exact moves_execCadEnChange (m := foot_execCadEnChange) (Moves.refl _ s) (within_self _)
  · exact moves_execCadSrcChange (m := foot_execCadSrcChange) (Moves.refl _ s) (within_self _)
  · exact moves_execCadNominalWrite (m := foot_execCadNominalWrite) (Moves.refl _ s) (within_self _)
  · exact moves_execPowerOnReset (m := foot_execPowerOnReset) (Moves.refl _ s) (within_self _)
  · exact moves_execPorRelease (m := foot_execPorRelease) (Moves.refl _ s) (within_self _)
  · exact moves_execResetNAssert (m := foot_execResetNAssert) (Moves.refl _ s) (within_self _)
  · exact moves_execResetNRelease (m := foot_execResetNRelease) (Moves.refl _ s) (within_self _)
  · exact moves_execRomBoot (m := foot_execRomBoot) (Moves.refl _ s) (within_self _)
  · exact moves_execBootClockTimeout (m := foot_execBootClockTimeout) (Moves.refl _ s) (within_self _)
  · exact moves_execPerstAssert (m := foot_execPerstAssert) (Moves.refl _ s) (within_self _)
  · exact moves_execPerstDeassert (m := foot_execPerstDeassert) (Moves.refl _ s) (within_self _)
  · exact moves_execHotResetReceived (m := foot_execHotResetReceived) (Moves.refl _ s) (within_self _)
  · exact moves_execDlDown (m := foot_execDlDown) (Moves.refl _ s) (within_self _)
  · exact moves_execLinkDisable (m := foot_execLinkDisable) (Moves.refl _ s) (within_self _)
  · exact moves_execLinkDisableEnd (m := foot_execLinkDisableEnd) (Moves.refl _ s) (within_self _)
  · exact moves_execDetectEntry (m := foot_execDetectEntry) (Moves.refl _ s) (within_self _)
  · exact moves_execDlUp (m := foot_execDlUp) (Moves.refl _ s) (within_self _)
  · exact moves_execPfReady (m := foot_execPfReady) (Moves.refl _ s) (within_self _)
  · exact moves_execRefclkLost (m := foot_execRefclkLost) (Moves.refl _ s) (within_self _)
  · exact moves_execHlHoldWrite (m := foot_execHlHoldWrite) (Moves.refl _ s) (within_self _)
  · exact moves_execHlRetrainWrite (m := foot_execHlRetrainWrite) (Moves.refl _ s) (within_self _)
  · exact moves_execSpeedChange (m := foot_execSpeedChange) (Moves.refl _ s) (within_self _)
  · exact moves_execL0pPartnerRequest (m := foot_execL0pPartnerRequest) (Moves.refl _ s) (within_self _)
  · exact moves_execL0pHalve (m := foot_execL0pHalve) (Moves.refl _ s) (within_self _)
  · exact moves_execL0pRestore (m := foot_execL0pRestore) (Moves.refl _ s) (within_self _)
  · exact moves_execAspmL1Entry (m := foot_execAspmL1Entry) (Moves.refl _ s) (within_self _)
  · exact moves_execL1Exit (m := foot_execL1Exit) (Moves.refl _ s) (within_self _)
  · exact moves_execLtrActive (m := foot_execLtrActive) (Moves.refl _ s) (within_self _)
  · exact moves_execLtrNoRequirement (m := foot_execLtrNoRequirement) (Moves.refl _ s) (within_self _)
  · exact moves_execConfigRequest (m := foot_execConfigRequest) (Moves.refl _ s) (within_self _)
  · exact moves_execVfEnableSet (m := foot_execVfEnableSet) (Moves.refl _ s) (within_self _)
  · exact moves_execVfReady (m := foot_execVfReady) (Moves.refl _ s) (within_self _)
  · exact moves_execVfEnableClear (m := foot_execVfEnableClear) (Moves.refl _ s) (within_self _)
  · exact moves_execFlr (m := foot_execFlr) (Moves.refl _ s) (within_self _)
  · exact moves_execBusMasterClear (m := foot_execBusMasterClear) (Moves.refl _ s) (within_self _)
  · exact moves_execBusMasterSet (m := foot_execBusMasterSet) (Moves.refl _ s) (within_self _)
  · exact moves_execD3hotEntry (m := foot_execD3hotEntry) (Moves.refl _ s) (within_self _)
  · exact moves_execD0Return (m := foot_execD0Return) (Moves.refl _ s) (within_self _)
  · exact moves_execNumvfsWrite (m := foot_execNumvfsWrite) (Moves.refl _ s) (within_self _)
  · exact moves_execRebarSizeWrite (m := foot_execRebarSizeWrite) (Moves.refl _ s) (within_self _)
  · exact moves_execMsixUnmask (m := foot_execMsixUnmask) (Moves.refl _ s) (within_self _)
  · exact moves_execInboundRequest (m := foot_execInboundRequest) (Moves.refl _ s) (within_self _)
  · exact moves_execExpromRead (m := foot_execExpromRead) (Moves.refl _ s) (within_self _)
  · exact moves_execHostReadIssue (m := foot_execHostReadIssue) (Moves.refl _ s) (within_self _)
  · exact moves_execHostTlpIssue (m := foot_execHostTlpIssue) (Moves.refl _ s) (within_self _)
  · exact moves_execHostCompletion (m := foot_execHostCompletion) (Moves.refl _ s) (within_self _)
  · exact moves_execCompletionTimeout (m := foot_execCompletionTimeout) (Moves.refl _ s) (within_self _)
  · exact moves_execQuarantineExpiry (m := foot_execQuarantineExpiry) (Moves.refl _ s) (within_self _)
  · exact moves_execLocalMwr (m := foot_execLocalMwr) (Moves.refl _ s) (within_self _)
  · exact moves_execSheafLagExceeded (m := foot_execSheafLagExceeded) (Moves.refl _ s) (within_self _)
  · exact moves_execLocalMrd (m := foot_execLocalMrd) (Moves.refl _ s) (within_self _)
  · exact moves_execLocalAtom (m := foot_execLocalAtom) (Moves.refl _ s) (within_self _)
  · exact moves_execLocalInterruptMsg (m := foot_execLocalInterruptMsg) (Moves.refl _ s) (within_self _)
  · exact moves_execPeerDoorbell (m := foot_execPeerDoorbell) (Moves.refl _ s) (within_self _)
  · exact moves_execIdentReceived (m := foot_execIdentReceived) (Moves.refl _ s) (within_self _)
  · exact moves_execLocalResponse (m := foot_execLocalResponse) (Moves.refl _ s) (within_self _)
  · exact moves_execLrspTimeout (m := foot_execLrspTimeout) (Moves.refl _ s) (within_self _)
  · exact moves_execPartnerClockStable (m := foot_execPartnerClockStable) (Moves.refl _ s) (within_self _)
  · exact moves_execTs2Exchanged (m := foot_execTs2Exchanged) (Moves.refl _ s) (within_self _)
  · exact moves_execTs3Echoed (m := foot_execTs3Echoed) (Moves.refl _ s) (within_self _)
  · exact moves_execSwitchDone (m := foot_execSwitchDone) (Moves.refl _ s) (within_self _)
  · exact moves_execFastConfirmed (m := foot_execFastConfirmed) (Moves.refl _ s) (within_self _)
  · exact moves_execTrainAttemptTimeout (m := foot_execTrainAttemptTimeout) (Moves.refl _ s) (within_self _)
  · exact moves_execPartnerClockLost (m := foot_execPartnerClockLost) (Moves.refl _ s) (within_self _)
  · exact moves_execPhyRetrain (m := foot_execPhyRetrain) (Moves.refl _ s) (within_self _)
  · exact moves_execPartnerRetrain (m := foot_execPartnerRetrain) (Moves.refl _ s) (within_self _)
  · exact moves_execRetrainDone (m := foot_execRetrainDone) (Moves.refl _ s) (within_self _)
  · exact moves_execWlaneDisableWrite (m := foot_execWlaneDisableWrite) (Moves.refl _ s) (within_self _)
  · exact moves_execWlaneTrainWrite (m := foot_execWlaneTrainWrite) (Moves.refl _ s) (within_self _)
  · exact moves_execLoopbackWrite (m := foot_execLoopbackWrite) (Moves.refl _ s) (within_self _)
  · exact moves_execLanePrbsWrite (m := foot_execLanePrbsWrite) (Moves.refl _ s) (within_self _)
  · exact moves_execPrbsSyncGain (m := foot_execPrbsSyncGain) (Moves.refl _ s) (within_self _)
  · exact moves_execPrbsSyncLoss (m := foot_execPrbsSyncLoss) (Moves.refl _ s) (within_self _)
  · exact moves_execCntClr (m := foot_execCntClr) (Moves.refl _ s) (within_self _)
  · exact moves_execInjGo (m := foot_execInjGo) (Moves.refl _ s) (within_self _)
  · exact moves_execInjStop (m := foot_execInjStop) (Moves.refl _ s) (within_self _)
  · exact moves_execAlignmentBlockSend (m := foot_execAlignmentBlockSend) (Moves.refl _ s) (within_self _)
  · exact moves_execAlignmentBlockReceive (m := foot_execAlignmentBlockReceive) (Moves.refl _ s) (within_self _)
  · exact moves_execBackgroundTrainPass (m := foot_execBackgroundTrainPass) (Moves.refl _ s) (within_self _)
  · exact moves_execBackgroundTrainFail (m := foot_execBackgroundTrainFail) (Moves.refl _ s) (within_self _)
  · exact moves_execGrainReceived (m := foot_execGrainReceived) (Moves.refl _ s) (within_self _)
  · exact moves_execAckSend (m := foot_execAckSend) (Moves.refl _ s) (within_self _)
  · exact moves_execLinkPacketSend (m := foot_execLinkPacketSend) (Moves.refl _ s) (within_self _)
  · exact moves_execReplayTimeout (m := foot_execReplayTimeout) (Moves.refl _ s) (within_self _)
  · exact moves_execInitReceived (m := foot_execInitReceived) (Moves.refl _ s) (within_self _)
  · exact moves_execInitTimeout (m := foot_execInitTimeout) (Moves.refl _ s) (within_self _)
  · rename_i wl
    change Goes foot_execGraceExpiry s (execGraceExpiry wl s)
    exact moves_execGraceExpiry (Moves.refl _ s) (within_self _)
  · exact moves_execWlLinkResetWrite (m := foot_execWlLinkResetWrite) (Moves.refl _ s) (within_self _)
  · exact moves_execHaltReceived (m := foot_execHaltReceived) (Moves.refl _ s) (within_self _)
  · exact moves_execReshapeGoWrite (m := foot_execReshapeGoWrite) (Moves.refl _ s) (within_self _)
  · exact moves_execLaneReq (m := foot_execLaneReq) (Moves.refl _ s) (within_self _)
  · exact moves_execLaneAck (m := foot_execLaneAck) (Moves.refl _ s) (within_self _)
  · exact moves_execLaneNak (m := foot_execLaneNak) (Moves.refl _ s) (within_self _)
  · exact moves_execLaneReady (m := foot_execLaneReady) (Moves.refl _ s) (within_self _)
  · exact moves_execReshapeTimeout (m := foot_execReshapeTimeout) (Moves.refl _ s) (within_self _)
  · exact moves_execChannelDoorbell (m := foot_execChannelDoorbell) (Moves.refl _ s) (within_self _)
  · exact moves_execChannelEnable (m := foot_execChannelEnable) (Moves.refl _ s) (within_self _)
  · exact moves_execChannelDisable (m := foot_execChannelDisable) (Moves.refl _ s) (within_self _)
  · exact moves_execChannelRetry (m := foot_execChannelRetry) (Moves.refl _ s) (within_self _)
  · exact moves_execChannelDrained (m := foot_execChannelDrained) (Moves.refl _ s) (within_self _)
  · exact moves_execTenantResetComplete (m := foot_execTenantResetComplete) (Moves.refl _ s) (within_self _)
  · exact moves_execTenantPendingDrained (m := foot_execTenantPendingDrained) (Moves.refl _ s) (within_self _)
  · exact moves_execFreezePoint (m := foot_execFreezePoint) (Moves.refl _ s) (within_self _)
  · exact moves_execFreezeQuiesced (m := foot_execFreezeQuiesced) (Moves.refl _ s) (within_self _)
  · exact moves_execHarvestBoundary (m := foot_execHarvestBoundary) (Moves.refl _ s) (within_self _)
  · exact moves_execHarvestDone (m := foot_execHarvestDone) (Moves.refl _ s) (within_self _)
  · exact moves_execHoldoffEnd (m := foot_execHoldoffEnd) (Moves.refl _ s) (within_self _)
  · exact moves_execModTicksWrite (m := foot_execModTicksWrite) (Moves.refl _ s) (within_self _)
  · exact moves_execFnEventEnWrite (m := foot_execFnEventEnWrite) (Moves.refl _ s) (within_self _)
  · exact moves_execChIrqEnableWrite (m := foot_execChIrqEnableWrite) (Moves.refl _ s) (within_self _)
  · exact moves_execErrorLineEvent (m := foot_execErrorLineEvent) (Moves.refl _ s) (within_self _)
  · exact moves_execFaultMinwExpiry (m := foot_execFaultMinwExpiry) (Moves.refl _ s) (within_self _)
  · exact moves_execFaultInEvent (m := foot_execFaultInEvent) (Moves.refl _ s) (within_self _)
  · exact moves_execJournalAppend (m := foot_execJournalAppend) (Moves.refl _ s) (within_self _)
  · exact moves_execJournalEraseDone (m := foot_execJournalEraseDone) (Moves.refl _ s) (within_self _)
  · exact moves_execClockMonitorTrip (m := foot_execClockMonitorTrip) (Moves.refl _ s) (within_self _)
  · exact moves_execFroReady (m := foot_execFroReady) (Moves.refl _ s) (within_self _)
  · exact moves_execSourceReady (m := foot_execSourceReady) (Moves.refl _ s) (within_self _)
  · exact moves_execPllReady (m := foot_execPllReady) (Moves.refl _ s) (within_self _)
  · exact moves_execClockSwitchDone (m := foot_execClockSwitchDone) (Moves.refl _ s) (within_self _)
  · exact moves_execForcedClockSwitch (m := foot_execForcedClockSwitch) (Moves.refl _ s) (within_self _)
  · exact moves_execFreqCountStart (m := foot_execFreqCountStart) (Moves.refl _ s) (within_self _)
  · exact moves_execFreqCountEnd (m := foot_execFreqCountEnd) (Moves.refl _ s) (within_self _)
  · exact moves_execClkobsWrite (m := foot_execClkobsWrite) (Moves.refl _ s) (within_self _)
  · exact moves_execWakeStepReady (m := foot_execWakeStepReady) (Moves.refl _ s) (within_self _)
  · exact moves_execWakeStepTimeout (m := foot_execWakeStepTimeout) (Moves.refl _ s) (within_self _)
  · exact moves_execVinLow (m := foot_execVinLow) (Moves.refl _ s) (within_self _)
  · exact moves_execEraseDone (m := foot_execEraseDone) (Moves.refl _ s) (within_self _)
  · exact moves_execActivationBoundary (m := foot_execActivationBoundary) (Moves.refl _ s) (within_self _)
  · exact moves_execTrialEnd (m := foot_execTrialEnd) (Moves.refl _ s) (within_self _)
  · exact moves_execTraceRecordAppend (m := foot_execTraceRecordAppend) (Moves.refl _ s) (within_self _)
  · exact moves_execStreamBatchWrite (m := foot_execStreamBatchWrite) (Moves.refl _ s) (within_self _)
  · exact moves_execStreamResume (m := foot_execStreamResume) (Moves.refl _ s) (within_self _)
  · exact moves_execJtagTracePtr (m := foot_execJtagTracePtr) (Moves.refl _ s) (within_self _)
  · exact moves_execJtagTraceData (m := foot_execJtagTraceData) (Moves.refl _ s) (within_self _)
  · exact moves_execJtagIdcode (m := foot_execJtagIdcode) (Moves.refl _ s) (within_self _)
  · exact moves_execJtagSamplePreload (m := foot_execJtagSamplePreload) (Moves.refl _ s) (within_self _)
  · exact moves_execJtagPadDrive (m := foot_execJtagPadDrive) (Moves.refl _ s) (within_self _)
  · exact moves_execRefclkRestored (m := foot_execRefclkRestored) (Moves.refl _ s) (within_self _)
  · exact moves_execLaneMarginingCommand (m := foot_execLaneMarginingCommand) (Moves.refl _ s) (within_self _)
  · exact moves_execL2Entry (m := foot_execL2Entry) (Moves.refl _ s) (within_self _)
  · exact moves_execReplayLimitZeroWrite (m := foot_execReplayLimitZeroWrite) (Moves.refl _ s) (within_self _)

theorem exec_moves {c : Instr} {s t : State} (h : exec c s = .next t) : Moves (foot c) s t := exec_goes c s t h

/-- A step with a command at the front of the queue moves what the command moves, from the state with the queue's rest. -/
theorem step_moves {c : Instr} {l : List Instr} {s t : State} (hp : s.pending = c :: l) (h : step s = .next t) :
    Moves (foot c) { s with pending := l } t := by
  simp only [step, hp] at h
  exact exec_moves h

end Sys2Proof.Laws
end

