-- ==== Sys2Proof/Laws/Served.lean ====
section
/-!
SUPPORT. What the statements about commands are proved from: that a command within its footprint has its frame, that a
served command takes its effect, and what a reply leaves as it is.
-/
namespace Sys2Proof.Laws
open Sys2Proof.Machine

/-! ### Frames -/

theorem testBit_pms {l : List Part} {p : Part} (h : (pms l).testBit p.ctorIdx = true) : p ∈ l := by
  induction l with
  | nil => simp [pms] at h
  | cons q l ih =>
    simp only [pms, Nat.testBit_or, Bool.or_eq_true] at h
    rcases h with h | h
    · have hq : q = p := by
        simp only [Part.bit, Nat.testBit_two_pow] at h
        have := of_decide_eq_true h
        cases p <;> cases q <;> first | rfl | (exfalso; revert this; decide)
      simp [hq]
    · simp [ih h]

theorem testBit_fms_mem {l : List Fld} {f : Fld} (h : (fms l).testBit (fbit f) = true) : f ∈ l := by
  induction l with
  | nil => simp [fms] at h
  | cons g l ih =>
    simp only [fms, Nat.testBit_or, Bool.or_eq_true] at h
    rcases h with h | h
    · have : fbit g = fbit f := by simpa [fm, Nat.testBit_two_pow] using h
      have hg : g = f := by
        by_contra hne
        exact fbit_ne hne this
      simp [hg]
    · simp [ih h]

theorem fms_part {l : List Fld} {p : Part} : (fms l).testBit p.ctorIdx = false := by
  induction l with
  | nil => simp [fms]
  | cons g l ih =>
    have h : fbit g ≠ p.ctorIdx := by
      have := Part.ctorIdx_lt p
      simp only [fbit]
      omega
    simp [fms, ih, fm, h]

theorem pms_fld {l : List Part} {f : Fld} : (pms l).testBit (fbit f) = false := by
  induction l with
  | nil => simp [pms]
  | cons q l ih =>
    have h : q.ctorIdx ≠ fbit f := by
      have := Part.ctorIdx_lt q
      simp only [fbit]
      omega
    simp [pms, ih, Part.bit, h]

theorem testBit_of_sub {a b n : Nat} (h : Within a b) (ha : a.testBit n = true) : b.testBit n = true := by
  have := congrArg (fun x => x.testBit n) h
  simpa [Nat.testBit_and, ha] using this

/-- A command whose footprint lies in the named fields, blocks and parts has them as its frame. -/
theorem frame_of_foot {c : Instr} {fl : List Fld} {bl : List Blk} {pl : List Part}
    (h : Within (foot c) (fms fl ||| foot_blks bl ||| pms pl)) : Frame c fl bl pl := by
  intro s t ht
  have hm := exec_moves ht
  refine ⟨?_, ?_, hm.queue, hm.sent⟩
  · intro f i j hf hb
    refine hm.reg f i j ?_
    by_contra hn
    have hn : (foot c).testBit (fbit f) = true := by simpa using hn
    have := testBit_of_sub h hn
    simp only [Nat.testBit_or, pms_fld, Bool.or_false, Bool.or_eq_true] at this
    rcases this with h1 | h1
    · exact hf (testBit_fms_mem h1)
    · have := testBit_fms_mem h1
      simp only [List.mem_filter, List.contains_iff_mem] at this
      exact hb this.2
  · intro p hp
    refine hm.part p ?_
    by_contra hn
    have hn : (foot c).testBit p.ctorIdx = true := by simpa using hn
    have := testBit_of_sub h hn
    simp only [Nat.testBit_or, fms_part, foot_blks, Bool.false_or] at this
    exact hp (testBit_pms this)

/-! ### Commands of the Keeper -/

/-- What a moved field reads after a reply. -/
theorem finish_rd {r : CmdReq} {op status : Nat} {d : Bytes} {s : State} {f : Fld} {i j : Nat}
    (h : foot_finish.testBit (fbit f) = false) : (finish r op status d s).rd f i j = s.rd f i j :=
  (moves_finish (Moves.refl _ s) (within_self _)).reg f i j h

/-- A reply changes the Keeper's contexts, of which none is added, and what lies at the sideband port, and nothing else of the
Keeper. -/
theorem finishCore_keeper {r : CmdReq} {op status gen : Nat} {d : Bytes} {s : State} :
    ∃ a b l c e, (finishCore r op status d gen s).keeper =
      { s.keeper with ctxs := a, smpReplies := b, smpLate := l, smpCmds := c, smpHeld := e } ∧ a.Sublist s.keeper.ctxs := by
  have hreply : ∀ s : State, ∃ b l,
      (sendReply r op status false d gen s).keeper = { s.keeper with smpReplies := b, smpLate := l } := by
    intro s
    have ha : (advance s).keeper = s.keeper :=
      (moves_advance (Moves.refl _ s) (within_self _)).part .keeper (by decide +kernel)
    unfold sendReply
    cases hr : r.iss with
    | fn f =>
      refine ⟨s.keeper.smpReplies, s.keeper.smpLate, ?_⟩
      dsimp only
      split
      · refine Eq.trans ((moves_raiseCause (Moves.refl _ _) (within_self _)).part .keeper (by decide +kernel)) ?_
        simp only [State.wr, enqueueHost, when]
        split <;> simpa using ha
      · simpa using ha
    | smp =>
      by_cases hl : s.keeper.smpReplies.length < 8
      · refine ⟨s.keeper.smpReplies ++ [replyHeader (advance s) r op status false 0 d.length ++ d], s.keeper.smpLate, ?_⟩
        dsimp only [when]
        split <;> simp [emit, State.modKeeper, ha, hl]
      · refine ⟨s.keeper.smpReplies, s.keeper.smpLate ++ [replyHeader (advance s) r op status false 0 d.length ++ d], ?_⟩
        dsimp only [when]
        split <;> simp [emit, State.modKeeper, ha, hl]
  have hfree : ∀ (s : State), ∃ a, (freeCtx r op s).keeper = { s.keeper with ctxs := a } ∧ a.Sublist s.keeper.ctxs := by
    intro s
    refine ⟨s.keeper.ctxs.eraseP (fun c => decide (c.iss = r.iss) && c.tag == r.tag && (c.opcode == op || !c.fetched)), ?_,
      List.eraseP_sublist⟩
    unfold freeCtx
    refine Eq.trans ((moves_showKeeper (Moves.refl _ _) (within_self _)).part .keeper (by decide +kernel)) ?_
    rfl
  unfold finishCore
  dsimp only
  generalize hu : traceNone 2049 _ _ = u
  have huk : u.keeper = s.keeper := by
    rw [← hu]
    refine Eq.trans ((moves_traceNone (Moves.refl _ _) (within_self _)).part .keeper (by decide +kernel)) ?_
    simp only [when]
    split <;> split <;> rfl
  have : ∃ b l, (if status = 0 && d.isEmpty && !r.ackReq then u else sendReply r op status false d gen u).keeper =
      { s.keeper with smpReplies := b, smpLate := l } := by
    split
    · exact ⟨s.keeper.smpReplies, s.keeper.smpLate, huk⟩
    · obtain ⟨b, l, hb⟩ := hreply u
      exact ⟨b, l, by rw [hb, huk]⟩
  generalize hw : (if status = 0 && d.isEmpty && !r.ackReq then u else sendReply r op status false d gen u) = w at this
  obtain ⟨b, l, hb⟩ := this
  obtain ⟨a, ha, hsub⟩ := hfree w
  have hsub : a.Sublist s.keeper.ctxs := by simpa [hb] using hsub
  cases hr : r.iss with
  | fn f =>
    refine ⟨a, b, l, s.keeper.smpCmds, s.keeper.smpHeld, ?_, hsub⟩
    dsimp only [when]
    split
    · split <;> simpa [State.inc, State.add, State.dec, State.wr, hb] using ha
    · simpa [hb] using ha
  | smp =>
    let i := s.keeper.smpCmds.findIdx (fun p => num p 2 2 == r.tag && num p 0 2 == op)
    refine ⟨a, b, l, s.keeper.smpCmds.eraseIdx i, if i < s.keeper.smpHeld then s.keeper.smpHeld - 1 else s.keeper.smpHeld, ?_, hsub⟩
    dsimp only [State.modKeeper]
    rw [ha, hb]

/-- A Keeper that does not drain and holds no command of an opcode outside Table KP-5 goes on after a reply. -/
theorem finishGen_eq {r : CmdReq} {op status gen : Nat} {d : Bytes} {s : State} (h : draining s = false)
    (hu : ∀ c ∈ s.keeper.ctxs, c.unknown = 0) : finishGen r op status d gen s = finishCore r op status d gen s := by
  have : (finishCore r op status d gen s).rd .KP_KSTATE = s.rd .KP_KSTATE :=
    (moves_finishCore (Moves.refl _ s) (within_self _)).reg _ _ _ (by decide +kernel)
  have hd : draining (finishCore r op status d gen s) = false := by
    simpa only [draining, this] using h
  obtain ⟨a, b, l, c, e, hk, hs⟩ := @finishCore_keeper r op status gen d s
  have ht : unknownTurn (finishCore r op status d gen s) = none := by
    simp only [unknownTurn, List.find?_eq_none, hk]
    intro x hx
    simp [hu x (hs.subset hx)]
  simp [finishGen, answerUnknowns, ht, drainEnds, hd, when]

theorem finish_eq {r : CmdReq} {op status : Nat} {d : Bytes} {s : State} (h : draining s = false)
    (hu : ∀ c ∈ s.keeper.ctxs, c.unknown = 0) :
    finish r op status d s = finishCore r op status d (curGen s r) s := finishGen_eq h hu

theorem isMgr_vf {s : State} {f : Fn} (h : s.isMgr (fnIdx f) = true) : f.vf.val = 0 := by
  simp only [State.isMgr, fnIdx, pfIdx, Bool.and_eq_true, beq_iff_eq] at h
  omega

/-- Of a served command only its own checks are left. -/
theorem checkCmd_served {c : Cmd} {r : CmdReq} {s : State} {key : Nat} (h : Served c.op key (c.priv s) r s)
    (hl : c.lenOk = true) (hp : c.params s = true) (hd : c.dark s = false)
    (ha : c.acts = true → targetOf s r ≠ 0xFFFF) : checkCmd c r s = ownChecks c r s := by
  obtain ⟨h1, h2, h3, hr, h4, h5, h6, h7, h8, h9, h10, h11, h12, h13, h14, -⟩ := h
  have hdr : draining s = false := by
    simp only [draining]
    rcases h3 with h | h <;> simp [h]
  have hrec : (recovery s && c.op / 256 != 8 && c.op != 0x0100 && c.op != 0x0101) = false := by
    rcases hr with h | ⟨h, -⟩
    · simp [h]
    · rcases h with h | h | h <;> simp [h]
  have h5to : checks5to10 c r false s = 0 := by
    have ht : ¬ (256 ≤ r.target ∧ r.target ≠ 65535) := by rcases h13 with h | h <;> omega
    have hact : (c.acts && targetOf s r == 0xFFFF) = false := by
      by_cases hc : c.acts = true
      · simp [ha hc]
      · simp [Bool.not_eq_true _ ▸ hc]
    have hre : (s.react && !(servedInReaction c.op && isPfOrSmp r.iss)) = false := by
      rcases h4 with h | h <;> simp [h]
    have hun : (unbound s r.iss && c.op != 0x0100 && c.op != 0x0101) = false := by
      rcases h12 with h | h | h <;> simp [h]
    have hth : (decide (targetOf s r < 256) && c.op != 0x0201 && (s.tnState (targetOf s r) == 0 ||
        (s.tnState (targetOf s r) == 5 && c.op != 0x0205))) = false := by
      simp only [tenantThere, Bool.or_eq_true, Bool.not_eq_true', decide_eq_true_eq, beq_iff_eq] at h14
      rcases h14 with (h | h) | h
      · simp [Nat.not_lt.2 h]
      · simp [h]
      · rw [h, Bool.and_false]
    have htg : ((r.target ≥ 256 && r.target != 0xFFFF) : Bool) = false := by
      rcases h13 with h | h
      · simp [Nat.not_le.2 h]
      · simp [h]
    simp only [checks5to10, firstFail, hun, Bool.false_eq_true, if_false, Bool.false_or, h10, Bool.not_true, h11, hre, hl,
      h8, htg, hact, h9, Bool.false_and, hp, hth, hd]
  by_cases ho : ownChecks c r s = 0 <;> simp [checkCmd, firstFail, h6, Nat.not_lt.2 h7, hrec, hdr, h5to, ho]

/-- A served command is decided by its checks. -/
theorem runCmd_checked {c : Cmd} {r : CmdReq} {s : State} {key : Nat} {allowed : Bool} (h : Served c.op key allowed r s) :
    runCmd c r s = if checkCmd c r s = 0 then c.act s
      else if checkCmd c r s = 2 then finishBusy r c.op s
      else finish r c.op (checkCmd c r s) [] s := by
  obtain ⟨h1, h2, h3, hr, h4, h5, -, -, -, h9, -, -, -, -, -, -, h16, -⟩ := h
  have hup : keeperUp s = true := by
    simp only [keeperUp, h2, Bool.true_and, Bool.and_eq_true, bne_iff_ne]
    rcases h3 with h | h <;> simp [h]
  have hsm : (decide (r.iss = Issuer.smp) && decide (8 ≤ s.keeper.smpReplies.length)) = false := by
    by_cases h : r.iss = .smp
    · simp [Nat.not_le.2 (h5 h)]
    · simp [h]
  have hrc : (s.react && !isPfOrSmp r.iss && !heldCmd s r) = false := by
    rcases h4 with h | h <;> simp [h]
  have hrg : (recovery s && !decide (r.iss = Issuer.smp) && ringIdx r.iss != 0 && !heldCmd s r) = false := by
    rcases hr with h | ⟨-, h | h⟩ <;> simp [h]
  simp only [runCmd, h1, h2, hup, hsm, hrc, hrg, h9, h16, Bool.not_true, Bool.false_eq_true, if_false]
  split
  · rw [if_pos ‹_›]
  · rw [if_neg (by omega), if_pos ‹_›]
  · rw [if_neg ‹_›, if_neg ‹_›]

/-- A served command that nothing of its own speaks against takes its effect. -/
theorem runCmd_served {c : Cmd} {r : CmdReq} {s : State}
    (h : Served c.op (c.key.getD (targetOf s r)) (c.priv s) r s) (hl : c.lenOk = true) (hp : c.params s = true)
    (hd : c.dark s = false) (ho : c.own s = 0) (hb : c.busy s = false)
    (ha : c.acts = true → targetOf s r ≠ 0xFFFF ∧ (s.tnState (targetOf s r) ≠ 4 ∨ c.op = 0x0204 ∨ c.op = 0x0205)) :
    runCmd c r s = c.act s := by
  have hbr : (c.acts && s.tnState (targetOf s r) == 4 && c.op != 0x0204 && c.op != 0x0205) = false := by
    by_cases hc : c.acts = true
    · rcases (ha hc).2 with h | h | h <;> simp [h]
    · simp [Bool.not_eq_true _ ▸ hc]
  have hown : ownChecks c r s = 0 := by
    obtain ⟨-, -, -, -, -, -, -, -, -, h9, -, -, -, -, -, h15, -, h17⟩ := h
    have hsc : (atBoundary c.op && decide (256 ≤ s.keeper.sched.length)) = false := by
      by_cases h : atBoundary c.op = true
      · simp [Nat.not_le.2 (h17 h)]
      · simp [h]
    simp [ownChecks, stateChecks, firstFail, hbr, ho, hb, h15, h9, hsc]
  rw [runCmd_checked h, checkCmd_served h hl hp hd (fun hc => (ha hc).1), hown, if_pos rfl]

/-- A served command that a check of its own speaks against is refused with that check's status. -/
theorem runCmd_refused {c : Cmd} {r : CmdReq} {s : State} {key : Nat}
    (h : Served c.op key (c.priv s) r s) (hl : c.lenOk = true) (hp : c.params s = true)
    (hd : c.dark s = false) (ho : c.own s ≠ 0) (ho' : c.own s ≠ 2)
    (ha : c.acts = true → targetOf s r ≠ 0xFFFF ∧ (s.tnState (targetOf s r) ≠ 4 ∨ c.op = 0x0204 ∨ c.op = 0x0205)) :
    runCmd c r s = finish r c.op (c.own s) [] s := by
  have hbr : (c.acts && s.tnState (targetOf s r) == 4 && c.op != 0x0204 && c.op != 0x0205) = false := by
    by_cases hc : c.acts = true
    · rcases (ha hc).2 with h | h | h <;> simp [h]
    · simp [Bool.not_eq_true _ ▸ hc]
  have hown : ownChecks c r s = c.own s := by
    by_cases h5 : c.own s = 5
    · simp [ownChecks, stateChecks, firstFail, h5]
    · by_cases h6 : c.own s = 6
      · simp [ownChecks, stateChecks, firstFail, h6]
      · simp [ownChecks, stateChecks, firstFail, hbr, ho, h5, h6]
  rw [runCmd_checked h, checkCmd_served h hl hp hd (fun hc => (ha hc).1), hown, if_neg ho, if_neg ho']

end Sys2Proof.Laws
end

