-- ==== Sys2Proof/Laws/State.lean ====
section
/-!
SUPPORT. What each update of the state leaves: one rule per update, its clauses one per field, each true by definition; and
reading a part after changing it.
-/
namespace Sys2Proof.Laws
open Sys2Proof.Machine

/-! ### What an update leaves -/

@[simp] theorem wr_keeps (s : State) (f : Fld) (v i j : Nat) :
    (s.wr f v i j).pending = s.pending ∧ (s.wr f v i j).out = s.out ∧ (s.wr f v i j).free = s.free ∧ (s.wr f v i
    j).latches = s.latches ∧ (s.wr f v i j).cfg = s.cfg ∧ (s.wr f v i j).vecs = s.vecs ∧ (s.wr f v i j).heldCauses =
    s.heldCauses ∧ (s.wr f v i j).trace = s.trace ∧ (s.wr f v i j).journal = s.journal ∧ (s.wr f v i j).cad = s.cad
    ∧ (s.wr f v i j).doms = s.doms ∧ (s.wr f v i j).clocks = s.clocks ∧ (s.wr f v i j).pins = s.pins ∧ (s.wr f v i
    j).hls = s.hls ∧ (s.wr f v i j).hostQ = s.hostQ ∧ (s.wr f v i j).tags = s.tags ∧ (s.wr f v i j).locReqs =
    s.locReqs ∧ (s.wr f v i j).wls = s.wls ∧ (s.wr f v i j).wps = s.wps ∧ (s.wr f v i j).inRds = s.inRds ∧ (s.wr f v
    i j).sheafPkts = s.sheafPkts ∧ (s.wr f v i j).pktCount = s.pktCount ∧ (s.wr f v i j).dests = s.dests ∧ (s.wr f v
    i j).sheafAcc = s.sheafAcc ∧ (s.wr f v i j).consLast = s.consLast ∧ (s.wr f v i j).chans = s.chans ∧ (s.wr f v i
    j).tens = s.tens ∧ (s.wr f v i j).logs = s.logs ∧ (s.wr f v i j).dirty = s.dirty ∧ (s.wr f v i j).keeper =
    s.keeper ∧ (s.wr f v i j).store = s.store ∧ (s.wr f v i j).upd = s.upd := by
  and_intros <;> rfl

@[simp] theorem resetRegs_keeps (s : State) (p : RegKey → Bool) :
    (s.resetRegs p).pending = s.pending ∧ (s.resetRegs p).out = s.out ∧ (s.resetRegs p).free = s.free ∧ (s.resetRegs
    p).cfg = s.cfg ∧ (s.resetRegs p).vecs = s.vecs ∧ (s.resetRegs p).heldCauses = s.heldCauses ∧ (s.resetRegs
    p).trace = s.trace ∧ (s.resetRegs p).journal = s.journal ∧ (s.resetRegs p).cad = s.cad ∧ (s.resetRegs p).doms =
    s.doms ∧ (s.resetRegs p).clocks = s.clocks ∧ (s.resetRegs p).pins = s.pins ∧ (s.resetRegs p).hls = s.hls ∧
    (s.resetRegs p).hostQ = s.hostQ ∧ (s.resetRegs p).tags = s.tags ∧ (s.resetRegs p).locReqs = s.locReqs ∧
    (s.resetRegs p).wls = s.wls ∧ (s.resetRegs p).wps = s.wps ∧ (s.resetRegs p).inRds = s.inRds ∧ (s.resetRegs
    p).sheafPkts = s.sheafPkts ∧ (s.resetRegs p).pktCount = s.pktCount ∧ (s.resetRegs p).dests = s.dests ∧
    (s.resetRegs p).sheafAcc = s.sheafAcc ∧ (s.resetRegs p).consLast = s.consLast ∧ (s.resetRegs p).chans = s.chans
    ∧ (s.resetRegs p).tens = s.tens ∧ (s.resetRegs p).logs = s.logs ∧ (s.resetRegs p).dirty = s.dirty ∧ (s.resetRegs
    p).keeper = s.keeper ∧ (s.resetRegs p).store = s.store ∧ (s.resetRegs p).upd = s.upd := by
  and_intros <;> rfl

@[simp] theorem modCf_keeps (s : State) (f : Nat) (g : FnCfg → FnCfg) :
    (s.modCf f g).pending = s.pending ∧ (s.modCf f g).regs = s.regs ∧ (s.modCf f g).out = s.out ∧ (s.modCf f g).free
    = s.free ∧ (s.modCf f g).latches = s.latches ∧ (s.modCf f g).vecs = s.vecs ∧ (s.modCf f g).heldCauses =
    s.heldCauses ∧ (s.modCf f g).trace = s.trace ∧ (s.modCf f g).journal = s.journal ∧ (s.modCf f g).cad = s.cad ∧
    (s.modCf f g).doms = s.doms ∧ (s.modCf f g).clocks = s.clocks ∧ (s.modCf f g).pins = s.pins ∧ (s.modCf f g).hls
    = s.hls ∧ (s.modCf f g).hostQ = s.hostQ ∧ (s.modCf f g).tags = s.tags ∧ (s.modCf f g).locReqs = s.locReqs ∧
    (s.modCf f g).wls = s.wls ∧ (s.modCf f g).wps = s.wps ∧ (s.modCf f g).inRds = s.inRds ∧ (s.modCf f g).sheafPkts
    = s.sheafPkts ∧ (s.modCf f g).pktCount = s.pktCount ∧ (s.modCf f g).dests = s.dests ∧ (s.modCf f g).sheafAcc =
    s.sheafAcc ∧ (s.modCf f g).consLast = s.consLast ∧ (s.modCf f g).chans = s.chans ∧ (s.modCf f g).tens = s.tens ∧
    (s.modCf f g).logs = s.logs ∧ (s.modCf f g).dirty = s.dirty ∧ (s.modCf f g).keeper = s.keeper ∧ (s.modCf f
    g).store = s.store ∧ (s.modCf f g).upd = s.upd := by
  and_intros <;> rfl
@[simp] theorem modCf_rd (s : State) (f : Nat) (g : FnCfg → FnCfg) (x : Fld) (i' j' : Nat) : (s.modCf f g).rd x i' j' = s.rd x i' j' := rfl

@[simp] theorem modVec_keeps (s : State) (f v : Nat) (g : Vec → Vec) :
    (s.modVec f v g).pending = s.pending ∧ (s.modVec f v g).regs = s.regs ∧ (s.modVec f v g).out = s.out ∧ (s.modVec
    f v g).free = s.free ∧ (s.modVec f v g).latches = s.latches ∧ (s.modVec f v g).cfg = s.cfg ∧ (s.modVec f v
    g).heldCauses = s.heldCauses ∧ (s.modVec f v g).trace = s.trace ∧ (s.modVec f v g).journal = s.journal ∧
    (s.modVec f v g).cad = s.cad ∧ (s.modVec f v g).doms = s.doms ∧ (s.modVec f v g).clocks = s.clocks ∧ (s.modVec f
    v g).pins = s.pins ∧ (s.modVec f v g).hls = s.hls ∧ (s.modVec f v g).hostQ = s.hostQ ∧ (s.modVec f v g).tags =
    s.tags ∧ (s.modVec f v g).locReqs = s.locReqs ∧ (s.modVec f v g).wls = s.wls ∧ (s.modVec f v g).wps = s.wps ∧
    (s.modVec f v g).inRds = s.inRds ∧ (s.modVec f v g).sheafPkts = s.sheafPkts ∧ (s.modVec f v g).pktCount =
    s.pktCount ∧ (s.modVec f v g).dests = s.dests ∧ (s.modVec f v g).sheafAcc = s.sheafAcc ∧ (s.modVec f v
    g).consLast = s.consLast ∧ (s.modVec f v g).chans = s.chans ∧ (s.modVec f v g).tens = s.tens ∧ (s.modVec f v
    g).logs = s.logs ∧ (s.modVec f v g).dirty = s.dirty ∧ (s.modVec f v g).keeper = s.keeper ∧ (s.modVec f v
    g).store = s.store ∧ (s.modVec f v g).upd = s.upd := by
  and_intros <;> rfl
@[simp] theorem modVec_rd (s : State) (f v : Nat) (g : Vec → Vec) (x : Fld) (i' j' : Nat) : (s.modVec f v g).rd x i' j' = s.rd x i' j' := rfl

@[simp] theorem modDom_keeps (s : State) (d : Nat) (g : DomS → DomS) :
    (s.modDom d g).pending = s.pending ∧ (s.modDom d g).regs = s.regs ∧ (s.modDom d g).out = s.out ∧ (s.modDom d
    g).free = s.free ∧ (s.modDom d g).latches = s.latches ∧ (s.modDom d g).cfg = s.cfg ∧ (s.modDom d g).vecs =
    s.vecs ∧ (s.modDom d g).heldCauses = s.heldCauses ∧ (s.modDom d g).trace = s.trace ∧ (s.modDom d g).journal =
    s.journal ∧ (s.modDom d g).cad = s.cad ∧ (s.modDom d g).clocks = s.clocks ∧ (s.modDom d g).pins = s.pins ∧
    (s.modDom d g).hls = s.hls ∧ (s.modDom d g).hostQ = s.hostQ ∧ (s.modDom d g).tags = s.tags ∧ (s.modDom d
    g).locReqs = s.locReqs ∧ (s.modDom d g).wls = s.wls ∧ (s.modDom d g).wps = s.wps ∧ (s.modDom d g).inRds =
    s.inRds ∧ (s.modDom d g).sheafPkts = s.sheafPkts ∧ (s.modDom d g).pktCount = s.pktCount ∧ (s.modDom d g).dests =
    s.dests ∧ (s.modDom d g).sheafAcc = s.sheafAcc ∧ (s.modDom d g).consLast = s.consLast ∧ (s.modDom d g).chans =
    s.chans ∧ (s.modDom d g).tens = s.tens ∧ (s.modDom d g).logs = s.logs ∧ (s.modDom d g).dirty = s.dirty ∧
    (s.modDom d g).keeper = s.keeper ∧ (s.modDom d g).store = s.store ∧ (s.modDom d g).upd = s.upd := by
  and_intros <;> rfl
@[simp] theorem modDom_rd (s : State) (d : Nat) (g : DomS → DomS) (x : Fld) (i' j' : Nat) : (s.modDom d g).rd x i' j' = s.rd x i' j' := rfl

@[simp] theorem modHl_keeps (s : State) (n : Nat) (g : HlS → HlS) :
    (s.modHl n g).pending = s.pending ∧ (s.modHl n g).regs = s.regs ∧ (s.modHl n g).out = s.out ∧ (s.modHl n g).free
    = s.free ∧ (s.modHl n g).latches = s.latches ∧ (s.modHl n g).cfg = s.cfg ∧ (s.modHl n g).vecs = s.vecs ∧
    (s.modHl n g).heldCauses = s.heldCauses ∧ (s.modHl n g).trace = s.trace ∧ (s.modHl n g).journal = s.journal ∧
    (s.modHl n g).cad = s.cad ∧ (s.modHl n g).doms = s.doms ∧ (s.modHl n g).clocks = s.clocks ∧ (s.modHl n g).pins =
    s.pins ∧ (s.modHl n g).hostQ = s.hostQ ∧ (s.modHl n g).tags = s.tags ∧ (s.modHl n g).locReqs = s.locReqs ∧
    (s.modHl n g).wls = s.wls ∧ (s.modHl n g).wps = s.wps ∧ (s.modHl n g).inRds = s.inRds ∧ (s.modHl n g).sheafPkts
    = s.sheafPkts ∧ (s.modHl n g).pktCount = s.pktCount ∧ (s.modHl n g).dests = s.dests ∧ (s.modHl n g).sheafAcc =
    s.sheafAcc ∧ (s.modHl n g).consLast = s.consLast ∧ (s.modHl n g).chans = s.chans ∧ (s.modHl n g).tens = s.tens ∧
    (s.modHl n g).logs = s.logs ∧ (s.modHl n g).dirty = s.dirty ∧ (s.modHl n g).keeper = s.keeper ∧ (s.modHl n
    g).store = s.store ∧ (s.modHl n g).upd = s.upd := by
  and_intros <;> rfl
@[simp] theorem modHl_rd (s : State) (n : Nat) (g : HlS → HlS) (x : Fld) (i' j' : Nat) : (s.modHl n g).rd x i' j' = s.rd x i' j' := rfl

@[simp] theorem modWl_keeps (s : State) (n : Nat) (g : WlS → WlS) :
    (s.modWl n g).pending = s.pending ∧ (s.modWl n g).regs = s.regs ∧ (s.modWl n g).out = s.out ∧ (s.modWl n g).free
    = s.free ∧ (s.modWl n g).latches = s.latches ∧ (s.modWl n g).cfg = s.cfg ∧ (s.modWl n g).vecs = s.vecs ∧
    (s.modWl n g).heldCauses = s.heldCauses ∧ (s.modWl n g).trace = s.trace ∧ (s.modWl n g).journal = s.journal ∧
    (s.modWl n g).cad = s.cad ∧ (s.modWl n g).doms = s.doms ∧ (s.modWl n g).clocks = s.clocks ∧ (s.modWl n g).pins =
    s.pins ∧ (s.modWl n g).hls = s.hls ∧ (s.modWl n g).hostQ = s.hostQ ∧ (s.modWl n g).tags = s.tags ∧ (s.modWl n
    g).locReqs = s.locReqs ∧ (s.modWl n g).wps = s.wps ∧ (s.modWl n g).inRds = s.inRds ∧ (s.modWl n g).sheafPkts =
    s.sheafPkts ∧ (s.modWl n g).pktCount = s.pktCount ∧ (s.modWl n g).dests = s.dests ∧ (s.modWl n g).sheafAcc =
    s.sheafAcc ∧ (s.modWl n g).consLast = s.consLast ∧ (s.modWl n g).chans = s.chans ∧ (s.modWl n g).tens = s.tens ∧
    (s.modWl n g).logs = s.logs ∧ (s.modWl n g).dirty = s.dirty ∧ (s.modWl n g).keeper = s.keeper ∧ (s.modWl n
    g).store = s.store ∧ (s.modWl n g).upd = s.upd := by
  and_intros <;> rfl
@[simp] theorem modWl_rd (s : State) (n : Nat) (g : WlS → WlS) (x : Fld) (i' j' : Nat) : (s.modWl n g).rd x i' j' = s.rd x i' j' := rfl

@[simp] theorem modWp_keeps (s : State) (n : Nat) (g : WpS → WpS) :
    (s.modWp n g).pending = s.pending ∧ (s.modWp n g).regs = s.regs ∧ (s.modWp n g).out = s.out ∧ (s.modWp n g).free
    = s.free ∧ (s.modWp n g).latches = s.latches ∧ (s.modWp n g).cfg = s.cfg ∧ (s.modWp n g).vecs = s.vecs ∧
    (s.modWp n g).heldCauses = s.heldCauses ∧ (s.modWp n g).trace = s.trace ∧ (s.modWp n g).journal = s.journal ∧
    (s.modWp n g).cad = s.cad ∧ (s.modWp n g).doms = s.doms ∧ (s.modWp n g).clocks = s.clocks ∧ (s.modWp n g).pins =
    s.pins ∧ (s.modWp n g).hls = s.hls ∧ (s.modWp n g).hostQ = s.hostQ ∧ (s.modWp n g).tags = s.tags ∧ (s.modWp n
    g).locReqs = s.locReqs ∧ (s.modWp n g).wls = s.wls ∧ (s.modWp n g).inRds = s.inRds ∧ (s.modWp n g).sheafPkts =
    s.sheafPkts ∧ (s.modWp n g).pktCount = s.pktCount ∧ (s.modWp n g).dests = s.dests ∧ (s.modWp n g).sheafAcc =
    s.sheafAcc ∧ (s.modWp n g).consLast = s.consLast ∧ (s.modWp n g).chans = s.chans ∧ (s.modWp n g).tens = s.tens ∧
    (s.modWp n g).logs = s.logs ∧ (s.modWp n g).dirty = s.dirty ∧ (s.modWp n g).keeper = s.keeper ∧ (s.modWp n
    g).store = s.store ∧ (s.modWp n g).upd = s.upd := by
  and_intros <;> rfl
@[simp] theorem modWp_rd (s : State) (n : Nat) (g : WpS → WpS) (x : Fld) (i' j' : Nat) : (s.modWp n g).rd x i' j' = s.rd x i' j' := rfl

@[simp] theorem modDest_keeps (s : State) (i d : Nat) (g : DestS → DestS) :
    (s.modDest i d g).pending = s.pending ∧ (s.modDest i d g).regs = s.regs ∧ (s.modDest i d g).out = s.out ∧
    (s.modDest i d g).free = s.free ∧ (s.modDest i d g).latches = s.latches ∧ (s.modDest i d g).cfg = s.cfg ∧
    (s.modDest i d g).vecs = s.vecs ∧ (s.modDest i d g).heldCauses = s.heldCauses ∧ (s.modDest i d g).trace =
    s.trace ∧ (s.modDest i d g).journal = s.journal ∧ (s.modDest i d g).cad = s.cad ∧ (s.modDest i d g).doms =
    s.doms ∧ (s.modDest i d g).clocks = s.clocks ∧ (s.modDest i d g).pins = s.pins ∧ (s.modDest i d g).hls = s.hls ∧
    (s.modDest i d g).hostQ = s.hostQ ∧ (s.modDest i d g).tags = s.tags ∧ (s.modDest i d g).locReqs = s.locReqs ∧
    (s.modDest i d g).wls = s.wls ∧ (s.modDest i d g).wps = s.wps ∧ (s.modDest i d g).inRds = s.inRds ∧ (s.modDest i
    d g).sheafPkts = s.sheafPkts ∧ (s.modDest i d g).pktCount = s.pktCount ∧ (s.modDest i d g).sheafAcc = s.sheafAcc
    ∧ (s.modDest i d g).consLast = s.consLast ∧ (s.modDest i d g).chans = s.chans ∧ (s.modDest i d g).tens = s.tens
    ∧ (s.modDest i d g).logs = s.logs ∧ (s.modDest i d g).dirty = s.dirty ∧ (s.modDest i d g).keeper = s.keeper ∧
    (s.modDest i d g).store = s.store ∧ (s.modDest i d g).upd = s.upd := by
  and_intros <;> rfl
@[simp] theorem modDest_rd (s : State) (i d : Nat) (g : DestS → DestS) (x : Fld) (i' j' : Nat) : (s.modDest i d g).rd x i' j' = s.rd x i' j' := rfl

@[simp] theorem modCh_keeps (s : State) (c : Nat) (g : ChanS → ChanS) :
    (s.modCh c g).pending = s.pending ∧ (s.modCh c g).regs = s.regs ∧ (s.modCh c g).out = s.out ∧ (s.modCh c g).free
    = s.free ∧ (s.modCh c g).latches = s.latches ∧ (s.modCh c g).cfg = s.cfg ∧ (s.modCh c g).vecs = s.vecs ∧
    (s.modCh c g).heldCauses = s.heldCauses ∧ (s.modCh c g).trace = s.trace ∧ (s.modCh c g).journal = s.journal ∧
    (s.modCh c g).cad = s.cad ∧ (s.modCh c g).doms = s.doms ∧ (s.modCh c g).clocks = s.clocks ∧ (s.modCh c g).pins =
    s.pins ∧ (s.modCh c g).hls = s.hls ∧ (s.modCh c g).hostQ = s.hostQ ∧ (s.modCh c g).tags = s.tags ∧ (s.modCh c
    g).locReqs = s.locReqs ∧ (s.modCh c g).wls = s.wls ∧ (s.modCh c g).wps = s.wps ∧ (s.modCh c g).inRds = s.inRds ∧
    (s.modCh c g).sheafPkts = s.sheafPkts ∧ (s.modCh c g).pktCount = s.pktCount ∧ (s.modCh c g).dests = s.dests ∧
    (s.modCh c g).sheafAcc = s.sheafAcc ∧ (s.modCh c g).consLast = s.consLast ∧ (s.modCh c g).tens = s.tens ∧
    (s.modCh c g).logs = s.logs ∧ (s.modCh c g).dirty = s.dirty ∧ (s.modCh c g).keeper = s.keeper ∧ (s.modCh c
    g).store = s.store ∧ (s.modCh c g).upd = s.upd := by
  and_intros <;> rfl
@[simp] theorem modCh_rd (s : State) (c : Nat) (g : ChanS → ChanS) (x : Fld) (i' j' : Nat) : (s.modCh c g).rd x i' j' = s.rd x i' j' := rfl

@[simp] theorem modTen_keeps (s : State) (n : Nat) (g : TenS → TenS) :
    (s.modTen n g).pending = s.pending ∧ (s.modTen n g).regs = s.regs ∧ (s.modTen n g).out = s.out ∧ (s.modTen n
    g).free = s.free ∧ (s.modTen n g).latches = s.latches ∧ (s.modTen n g).cfg = s.cfg ∧ (s.modTen n g).vecs =
    s.vecs ∧ (s.modTen n g).heldCauses = s.heldCauses ∧ (s.modTen n g).trace = s.trace ∧ (s.modTen n g).journal =
    s.journal ∧ (s.modTen n g).cad = s.cad ∧ (s.modTen n g).doms = s.doms ∧ (s.modTen n g).clocks = s.clocks ∧
    (s.modTen n g).pins = s.pins ∧ (s.modTen n g).hls = s.hls ∧ (s.modTen n g).hostQ = s.hostQ ∧ (s.modTen n g).tags
    = s.tags ∧ (s.modTen n g).locReqs = s.locReqs ∧ (s.modTen n g).wls = s.wls ∧ (s.modTen n g).wps = s.wps ∧
    (s.modTen n g).inRds = s.inRds ∧ (s.modTen n g).sheafPkts = s.sheafPkts ∧ (s.modTen n g).pktCount = s.pktCount ∧
    (s.modTen n g).dests = s.dests ∧ (s.modTen n g).sheafAcc = s.sheafAcc ∧ (s.modTen n g).consLast = s.consLast ∧
    (s.modTen n g).chans = s.chans ∧ (s.modTen n g).logs = s.logs ∧ (s.modTen n g).dirty = s.dirty ∧ (s.modTen n
    g).keeper = s.keeper ∧ (s.modTen n g).store = s.store ∧ (s.modTen n g).upd = s.upd := by
  and_intros <;> rfl
@[simp] theorem modTen_rd (s : State) (n : Nat) (g : TenS → TenS) (x : Fld) (i' j' : Nat) : (s.modTen n g).rd x i' j' = s.rd x i' j' := rfl

@[simp] theorem modCad_keeps (s : State) (g : CadS → CadS) :
    (s.modCad g).pending = s.pending ∧ (s.modCad g).regs = s.regs ∧ (s.modCad g).out = s.out ∧ (s.modCad g).free =
    s.free ∧ (s.modCad g).latches = s.latches ∧ (s.modCad g).cfg = s.cfg ∧ (s.modCad g).vecs = s.vecs ∧ (s.modCad
    g).heldCauses = s.heldCauses ∧ (s.modCad g).trace = s.trace ∧ (s.modCad g).journal = s.journal ∧ (s.modCad
    g).doms = s.doms ∧ (s.modCad g).clocks = s.clocks ∧ (s.modCad g).pins = s.pins ∧ (s.modCad g).hls = s.hls ∧
    (s.modCad g).hostQ = s.hostQ ∧ (s.modCad g).tags = s.tags ∧ (s.modCad g).locReqs = s.locReqs ∧ (s.modCad g).wls
    = s.wls ∧ (s.modCad g).wps = s.wps ∧ (s.modCad g).inRds = s.inRds ∧ (s.modCad g).sheafPkts = s.sheafPkts ∧
    (s.modCad g).pktCount = s.pktCount ∧ (s.modCad g).dests = s.dests ∧ (s.modCad g).sheafAcc = s.sheafAcc ∧
    (s.modCad g).consLast = s.consLast ∧ (s.modCad g).chans = s.chans ∧ (s.modCad g).tens = s.tens ∧ (s.modCad
    g).logs = s.logs ∧ (s.modCad g).dirty = s.dirty ∧ (s.modCad g).keeper = s.keeper ∧ (s.modCad g).store = s.store
    ∧ (s.modCad g).upd = s.upd := by
  and_intros <;> rfl
@[simp] theorem modCad_cad (s : State) (g : CadS → CadS) : (s.modCad g).cad = g s.cad := rfl
@[simp] theorem modCad_rd (s : State) (g : CadS → CadS) (x : Fld) (i' j' : Nat) : (s.modCad g).rd x i' j' = s.rd x i' j' := rfl

@[simp] theorem modTrace_keeps (s : State) (g : TraceS → TraceS) :
    (s.modTrace g).pending = s.pending ∧ (s.modTrace g).regs = s.regs ∧ (s.modTrace g).out = s.out ∧ (s.modTrace
    g).free = s.free ∧ (s.modTrace g).latches = s.latches ∧ (s.modTrace g).cfg = s.cfg ∧ (s.modTrace g).vecs =
    s.vecs ∧ (s.modTrace g).heldCauses = s.heldCauses ∧ (s.modTrace g).journal = s.journal ∧ (s.modTrace g).cad =
    s.cad ∧ (s.modTrace g).doms = s.doms ∧ (s.modTrace g).clocks = s.clocks ∧ (s.modTrace g).pins = s.pins ∧
    (s.modTrace g).hls = s.hls ∧ (s.modTrace g).hostQ = s.hostQ ∧ (s.modTrace g).tags = s.tags ∧ (s.modTrace
    g).locReqs = s.locReqs ∧ (s.modTrace g).wls = s.wls ∧ (s.modTrace g).wps = s.wps ∧ (s.modTrace g).inRds =
    s.inRds ∧ (s.modTrace g).sheafPkts = s.sheafPkts ∧ (s.modTrace g).pktCount = s.pktCount ∧ (s.modTrace g).dests =
    s.dests ∧ (s.modTrace g).sheafAcc = s.sheafAcc ∧ (s.modTrace g).consLast = s.consLast ∧ (s.modTrace g).chans =
    s.chans ∧ (s.modTrace g).tens = s.tens ∧ (s.modTrace g).logs = s.logs ∧ (s.modTrace g).dirty = s.dirty ∧
    (s.modTrace g).keeper = s.keeper ∧ (s.modTrace g).store = s.store ∧ (s.modTrace g).upd = s.upd := by
  and_intros <;> rfl
@[simp] theorem modTrace_trace (s : State) (g : TraceS → TraceS) : (s.modTrace g).trace = g s.trace := rfl
@[simp] theorem modTrace_rd (s : State) (g : TraceS → TraceS) (x : Fld) (i' j' : Nat) : (s.modTrace g).rd x i' j' = s.rd x i' j' := rfl

@[simp] theorem modJournal_keeps (s : State) (g : JournalS → JournalS) :
    (s.modJournal g).pending = s.pending ∧ (s.modJournal g).regs = s.regs ∧ (s.modJournal g).out = s.out ∧
    (s.modJournal g).free = s.free ∧ (s.modJournal g).latches = s.latches ∧ (s.modJournal g).cfg = s.cfg ∧
    (s.modJournal g).vecs = s.vecs ∧ (s.modJournal g).heldCauses = s.heldCauses ∧ (s.modJournal g).trace = s.trace ∧
    (s.modJournal g).cad = s.cad ∧ (s.modJournal g).doms = s.doms ∧ (s.modJournal g).clocks = s.clocks ∧
    (s.modJournal g).pins = s.pins ∧ (s.modJournal g).hls = s.hls ∧ (s.modJournal g).hostQ = s.hostQ ∧ (s.modJournal
    g).tags = s.tags ∧ (s.modJournal g).locReqs = s.locReqs ∧ (s.modJournal g).wls = s.wls ∧ (s.modJournal g).wps =
    s.wps ∧ (s.modJournal g).inRds = s.inRds ∧ (s.modJournal g).sheafPkts = s.sheafPkts ∧ (s.modJournal g).pktCount
    = s.pktCount ∧ (s.modJournal g).dests = s.dests ∧ (s.modJournal g).sheafAcc = s.sheafAcc ∧ (s.modJournal
    g).consLast = s.consLast ∧ (s.modJournal g).chans = s.chans ∧ (s.modJournal g).tens = s.tens ∧ (s.modJournal
    g).logs = s.logs ∧ (s.modJournal g).dirty = s.dirty ∧ (s.modJournal g).keeper = s.keeper ∧ (s.modJournal
    g).store = s.store ∧ (s.modJournal g).upd = s.upd := by
  and_intros <;> rfl
@[simp] theorem modJournal_journal (s : State) (g : JournalS → JournalS) : (s.modJournal g).journal = g s.journal := rfl
@[simp] theorem modJournal_rd (s : State) (g : JournalS → JournalS) (x : Fld) (i' j' : Nat) : (s.modJournal g).rd x i' j' = s.rd x i' j' := rfl

@[simp] theorem modKeeper_keeps (s : State) (g : KeeperS → KeeperS) :
    (s.modKeeper g).pending = s.pending ∧ (s.modKeeper g).regs = s.regs ∧ (s.modKeeper g).out = s.out ∧ (s.modKeeper
    g).free = s.free ∧ (s.modKeeper g).latches = s.latches ∧ (s.modKeeper g).cfg = s.cfg ∧ (s.modKeeper g).vecs =
    s.vecs ∧ (s.modKeeper g).heldCauses = s.heldCauses ∧ (s.modKeeper g).trace = s.trace ∧ (s.modKeeper g).journal =
    s.journal ∧ (s.modKeeper g).cad = s.cad ∧ (s.modKeeper g).doms = s.doms ∧ (s.modKeeper g).clocks = s.clocks ∧
    (s.modKeeper g).pins = s.pins ∧ (s.modKeeper g).hls = s.hls ∧ (s.modKeeper g).hostQ = s.hostQ ∧ (s.modKeeper
    g).tags = s.tags ∧ (s.modKeeper g).locReqs = s.locReqs ∧ (s.modKeeper g).wls = s.wls ∧ (s.modKeeper g).wps =
    s.wps ∧ (s.modKeeper g).inRds = s.inRds ∧ (s.modKeeper g).sheafPkts = s.sheafPkts ∧ (s.modKeeper g).pktCount =
    s.pktCount ∧ (s.modKeeper g).dests = s.dests ∧ (s.modKeeper g).sheafAcc = s.sheafAcc ∧ (s.modKeeper g).consLast
    = s.consLast ∧ (s.modKeeper g).chans = s.chans ∧ (s.modKeeper g).tens = s.tens ∧ (s.modKeeper g).logs = s.logs ∧
    (s.modKeeper g).dirty = s.dirty ∧ (s.modKeeper g).store = s.store ∧ (s.modKeeper g).upd = s.upd := by
  and_intros <;> rfl
@[simp] theorem modKeeper_keeper (s : State) (g : KeeperS → KeeperS) : (s.modKeeper g).keeper = g s.keeper := rfl
@[simp] theorem modKeeper_rd (s : State) (g : KeeperS → KeeperS) (x : Fld) (i' j' : Nat) : (s.modKeeper g).rd x i' j' = s.rd x i' j' := rfl

@[simp] theorem modClocks_keeps (s : State) (g : ClockS → ClockS) :
    (s.modClocks g).pending = s.pending ∧ (s.modClocks g).regs = s.regs ∧ (s.modClocks g).out = s.out ∧ (s.modClocks
    g).free = s.free ∧ (s.modClocks g).latches = s.latches ∧ (s.modClocks g).cfg = s.cfg ∧ (s.modClocks g).vecs =
    s.vecs ∧ (s.modClocks g).heldCauses = s.heldCauses ∧ (s.modClocks g).trace = s.trace ∧ (s.modClocks g).journal =
    s.journal ∧ (s.modClocks g).cad = s.cad ∧ (s.modClocks g).doms = s.doms ∧ (s.modClocks g).pins = s.pins ∧
    (s.modClocks g).hls = s.hls ∧ (s.modClocks g).hostQ = s.hostQ ∧ (s.modClocks g).tags = s.tags ∧ (s.modClocks
    g).locReqs = s.locReqs ∧ (s.modClocks g).wls = s.wls ∧ (s.modClocks g).wps = s.wps ∧ (s.modClocks g).inRds =
    s.inRds ∧ (s.modClocks g).sheafPkts = s.sheafPkts ∧ (s.modClocks g).pktCount = s.pktCount ∧ (s.modClocks
    g).dests = s.dests ∧ (s.modClocks g).sheafAcc = s.sheafAcc ∧ (s.modClocks g).consLast = s.consLast ∧
    (s.modClocks g).chans = s.chans ∧ (s.modClocks g).tens = s.tens ∧ (s.modClocks g).logs = s.logs ∧ (s.modClocks
    g).dirty = s.dirty ∧ (s.modClocks g).keeper = s.keeper ∧ (s.modClocks g).store = s.store ∧ (s.modClocks g).upd =
    s.upd := by
  and_intros <;> rfl
@[simp] theorem modClocks_clocks (s : State) (g : ClockS → ClockS) : (s.modClocks g).clocks = g s.clocks := rfl
@[simp] theorem modClocks_rd (s : State) (g : ClockS → ClockS) (x : Fld) (i' j' : Nat) : (s.modClocks g).rd x i' j' = s.rd x i' j' := rfl

@[simp] theorem modPins_keeps (s : State) (g : PinS → PinS) :
    (s.modPins g).pending = s.pending ∧ (s.modPins g).regs = s.regs ∧ (s.modPins g).out = s.out ∧ (s.modPins g).free
    = s.free ∧ (s.modPins g).latches = s.latches ∧ (s.modPins g).cfg = s.cfg ∧ (s.modPins g).vecs = s.vecs ∧
    (s.modPins g).heldCauses = s.heldCauses ∧ (s.modPins g).trace = s.trace ∧ (s.modPins g).journal = s.journal ∧
    (s.modPins g).cad = s.cad ∧ (s.modPins g).doms = s.doms ∧ (s.modPins g).clocks = s.clocks ∧ (s.modPins g).hls =
    s.hls ∧ (s.modPins g).hostQ = s.hostQ ∧ (s.modPins g).tags = s.tags ∧ (s.modPins g).locReqs = s.locReqs ∧
    (s.modPins g).wls = s.wls ∧ (s.modPins g).wps = s.wps ∧ (s.modPins g).inRds = s.inRds ∧ (s.modPins g).sheafPkts
    = s.sheafPkts ∧ (s.modPins g).pktCount = s.pktCount ∧ (s.modPins g).dests = s.dests ∧ (s.modPins g).sheafAcc =
    s.sheafAcc ∧ (s.modPins g).consLast = s.consLast ∧ (s.modPins g).chans = s.chans ∧ (s.modPins g).tens = s.tens ∧
    (s.modPins g).logs = s.logs ∧ (s.modPins g).dirty = s.dirty ∧ (s.modPins g).keeper = s.keeper ∧ (s.modPins
    g).store = s.store ∧ (s.modPins g).upd = s.upd := by
  and_intros <;> rfl
@[simp] theorem modPins_pins (s : State) (g : PinS → PinS) : (s.modPins g).pins = g s.pins := rfl
@[simp] theorem modPins_rd (s : State) (g : PinS → PinS) (x : Fld) (i' j' : Nat) : (s.modPins g).rd x i' j' = s.rd x i' j' := rfl

@[simp] theorem modStore_keeps (s : State) (g : StoreS → StoreS) :
    (s.modStore g).pending = s.pending ∧ (s.modStore g).regs = s.regs ∧ (s.modStore g).out = s.out ∧ (s.modStore
    g).free = s.free ∧ (s.modStore g).latches = s.latches ∧ (s.modStore g).cfg = s.cfg ∧ (s.modStore g).vecs =
    s.vecs ∧ (s.modStore g).heldCauses = s.heldCauses ∧ (s.modStore g).trace = s.trace ∧ (s.modStore g).journal =
    s.journal ∧ (s.modStore g).cad = s.cad ∧ (s.modStore g).doms = s.doms ∧ (s.modStore g).clocks = s.clocks ∧
    (s.modStore g).pins = s.pins ∧ (s.modStore g).hls = s.hls ∧ (s.modStore g).hostQ = s.hostQ ∧ (s.modStore g).tags
    = s.tags ∧ (s.modStore g).locReqs = s.locReqs ∧ (s.modStore g).wls = s.wls ∧ (s.modStore g).wps = s.wps ∧
    (s.modStore g).inRds = s.inRds ∧ (s.modStore g).sheafPkts = s.sheafPkts ∧ (s.modStore g).pktCount = s.pktCount ∧
    (s.modStore g).dests = s.dests ∧ (s.modStore g).sheafAcc = s.sheafAcc ∧ (s.modStore g).consLast = s.consLast ∧
    (s.modStore g).chans = s.chans ∧ (s.modStore g).tens = s.tens ∧ (s.modStore g).logs = s.logs ∧ (s.modStore
    g).dirty = s.dirty ∧ (s.modStore g).keeper = s.keeper ∧ (s.modStore g).upd = s.upd := by
  and_intros <;> rfl
@[simp] theorem modStore_store (s : State) (g : StoreS → StoreS) : (s.modStore g).store = g s.store := rfl
@[simp] theorem modStore_rd (s : State) (g : StoreS → StoreS) (x : Fld) (i' j' : Nat) : (s.modStore g).rd x i' j' = s.rd x i' j' := rfl

@[simp] theorem modUpd_keeps (s : State) (g : UpdS → UpdS) :
    (s.modUpd g).pending = s.pending ∧ (s.modUpd g).regs = s.regs ∧ (s.modUpd g).out = s.out ∧ (s.modUpd g).free =
    s.free ∧ (s.modUpd g).latches = s.latches ∧ (s.modUpd g).cfg = s.cfg ∧ (s.modUpd g).vecs = s.vecs ∧ (s.modUpd
    g).heldCauses = s.heldCauses ∧ (s.modUpd g).trace = s.trace ∧ (s.modUpd g).journal = s.journal ∧ (s.modUpd
    g).cad = s.cad ∧ (s.modUpd g).doms = s.doms ∧ (s.modUpd g).clocks = s.clocks ∧ (s.modUpd g).pins = s.pins ∧
    (s.modUpd g).hls = s.hls ∧ (s.modUpd g).hostQ = s.hostQ ∧ (s.modUpd g).tags = s.tags ∧ (s.modUpd g).locReqs =
    s.locReqs ∧ (s.modUpd g).wls = s.wls ∧ (s.modUpd g).wps = s.wps ∧ (s.modUpd g).inRds = s.inRds ∧ (s.modUpd
    g).sheafPkts = s.sheafPkts ∧ (s.modUpd g).pktCount = s.pktCount ∧ (s.modUpd g).dests = s.dests ∧ (s.modUpd
    g).sheafAcc = s.sheafAcc ∧ (s.modUpd g).consLast = s.consLast ∧ (s.modUpd g).chans = s.chans ∧ (s.modUpd g).tens
    = s.tens ∧ (s.modUpd g).logs = s.logs ∧ (s.modUpd g).dirty = s.dirty ∧ (s.modUpd g).keeper = s.keeper ∧
    (s.modUpd g).store = s.store := by
  and_intros <;> rfl
@[simp] theorem modUpd_upd (s : State) (g : UpdS → UpdS) : (s.modUpd g).upd = g s.upd := rfl
@[simp] theorem modUpd_rd (s : State) (g : UpdS → UpdS) (x : Fld) (i' j' : Nat) : (s.modUpd g).rd x i' j' = s.rd x i' j' := rfl

@[simp] theorem setLog_keeps (s : State) (n : Nat) (l : Option LogS) :
    (s.setLog n l).pending = s.pending ∧ (s.setLog n l).regs = s.regs ∧ (s.setLog n l).out = s.out ∧ (s.setLog n
    l).free = s.free ∧ (s.setLog n l).latches = s.latches ∧ (s.setLog n l).cfg = s.cfg ∧ (s.setLog n l).vecs =
    s.vecs ∧ (s.setLog n l).heldCauses = s.heldCauses ∧ (s.setLog n l).trace = s.trace ∧ (s.setLog n l).journal =
    s.journal ∧ (s.setLog n l).cad = s.cad ∧ (s.setLog n l).doms = s.doms ∧ (s.setLog n l).clocks = s.clocks ∧
    (s.setLog n l).pins = s.pins ∧ (s.setLog n l).hls = s.hls ∧ (s.setLog n l).hostQ = s.hostQ ∧ (s.setLog n l).tags
    = s.tags ∧ (s.setLog n l).locReqs = s.locReqs ∧ (s.setLog n l).wls = s.wls ∧ (s.setLog n l).wps = s.wps ∧
    (s.setLog n l).inRds = s.inRds ∧ (s.setLog n l).sheafPkts = s.sheafPkts ∧ (s.setLog n l).pktCount = s.pktCount ∧
    (s.setLog n l).dests = s.dests ∧ (s.setLog n l).sheafAcc = s.sheafAcc ∧ (s.setLog n l).consLast = s.consLast ∧
    (s.setLog n l).chans = s.chans ∧ (s.setLog n l).tens = s.tens ∧ (s.setLog n l).dirty = s.dirty ∧ (s.setLog n
    l).keeper = s.keeper ∧ (s.setLog n l).store = s.store ∧ (s.setLog n l).upd = s.upd := by
  and_intros <;> rfl
@[simp] theorem setLog_rd (s : State) (n : Nat) (l : Option LogS) (x : Fld) (i' j' : Nat) : (s.setLog n l).rd x i' j' = s.rd x i' j' := rfl

@[simp] theorem mapWls_keeps (s : State) (g : Nat → WlS → WlS) :
    (s.mapWls g).pending = s.pending ∧ (s.mapWls g).regs = s.regs ∧ (s.mapWls g).out = s.out ∧ (s.mapWls g).free =
    s.free ∧ (s.mapWls g).latches = s.latches ∧ (s.mapWls g).cfg = s.cfg ∧ (s.mapWls g).vecs = s.vecs ∧ (s.mapWls
    g).heldCauses = s.heldCauses ∧ (s.mapWls g).trace = s.trace ∧ (s.mapWls g).journal = s.journal ∧ (s.mapWls
    g).cad = s.cad ∧ (s.mapWls g).doms = s.doms ∧ (s.mapWls g).clocks = s.clocks ∧ (s.mapWls g).pins = s.pins ∧
    (s.mapWls g).hls = s.hls ∧ (s.mapWls g).hostQ = s.hostQ ∧ (s.mapWls g).tags = s.tags ∧ (s.mapWls g).locReqs =
    s.locReqs ∧ (s.mapWls g).wps = s.wps ∧ (s.mapWls g).inRds = s.inRds ∧ (s.mapWls g).sheafPkts = s.sheafPkts ∧
    (s.mapWls g).pktCount = s.pktCount ∧ (s.mapWls g).dests = s.dests ∧ (s.mapWls g).sheafAcc = s.sheafAcc ∧
    (s.mapWls g).consLast = s.consLast ∧ (s.mapWls g).chans = s.chans ∧ (s.mapWls g).tens = s.tens ∧ (s.mapWls
    g).logs = s.logs ∧ (s.mapWls g).dirty = s.dirty ∧ (s.mapWls g).keeper = s.keeper ∧ (s.mapWls g).store = s.store
    ∧ (s.mapWls g).upd = s.upd := by
  and_intros <;> rfl
@[simp] theorem mapWls_rd (s : State) (g : Nat → WlS → WlS) (x : Fld) (i' j' : Nat) : (s.mapWls g).rd x i' j' = s.rd x i' j' := rfl

@[simp] theorem mapHls_keeps (s : State) (g : Nat → HlS → HlS) :
    (s.mapHls g).pending = s.pending ∧ (s.mapHls g).regs = s.regs ∧ (s.mapHls g).out = s.out ∧ (s.mapHls g).free =
    s.free ∧ (s.mapHls g).latches = s.latches ∧ (s.mapHls g).cfg = s.cfg ∧ (s.mapHls g).vecs = s.vecs ∧ (s.mapHls
    g).heldCauses = s.heldCauses ∧ (s.mapHls g).trace = s.trace ∧ (s.mapHls g).journal = s.journal ∧ (s.mapHls
    g).cad = s.cad ∧ (s.mapHls g).doms = s.doms ∧ (s.mapHls g).clocks = s.clocks ∧ (s.mapHls g).pins = s.pins ∧
    (s.mapHls g).hostQ = s.hostQ ∧ (s.mapHls g).tags = s.tags ∧ (s.mapHls g).locReqs = s.locReqs ∧ (s.mapHls g).wls
    = s.wls ∧ (s.mapHls g).wps = s.wps ∧ (s.mapHls g).inRds = s.inRds ∧ (s.mapHls g).sheafPkts = s.sheafPkts ∧
    (s.mapHls g).pktCount = s.pktCount ∧ (s.mapHls g).dests = s.dests ∧ (s.mapHls g).sheafAcc = s.sheafAcc ∧
    (s.mapHls g).consLast = s.consLast ∧ (s.mapHls g).chans = s.chans ∧ (s.mapHls g).tens = s.tens ∧ (s.mapHls
    g).logs = s.logs ∧ (s.mapHls g).dirty = s.dirty ∧ (s.mapHls g).keeper = s.keeper ∧ (s.mapHls g).store = s.store
    ∧ (s.mapHls g).upd = s.upd := by
  and_intros <;> rfl
@[simp] theorem mapHls_rd (s : State) (g : Nat → HlS → HlS) (x : Fld) (i' j' : Nat) : (s.mapHls g).rd x i' j' = s.rd x i' j' := rfl

@[simp] theorem mapVecs_keeps (s : State) (g : Nat → Vec → Vec) :
    (s.mapVecs g).pending = s.pending ∧ (s.mapVecs g).regs = s.regs ∧ (s.mapVecs g).out = s.out ∧ (s.mapVecs g).free
    = s.free ∧ (s.mapVecs g).latches = s.latches ∧ (s.mapVecs g).cfg = s.cfg ∧ (s.mapVecs g).heldCauses =
    s.heldCauses ∧ (s.mapVecs g).trace = s.trace ∧ (s.mapVecs g).journal = s.journal ∧ (s.mapVecs g).cad = s.cad ∧
    (s.mapVecs g).doms = s.doms ∧ (s.mapVecs g).clocks = s.clocks ∧ (s.mapVecs g).pins = s.pins ∧ (s.mapVecs g).hls
    = s.hls ∧ (s.mapVecs g).hostQ = s.hostQ ∧ (s.mapVecs g).tags = s.tags ∧ (s.mapVecs g).locReqs = s.locReqs ∧
    (s.mapVecs g).wls = s.wls ∧ (s.mapVecs g).wps = s.wps ∧ (s.mapVecs g).inRds = s.inRds ∧ (s.mapVecs g).sheafPkts
    = s.sheafPkts ∧ (s.mapVecs g).pktCount = s.pktCount ∧ (s.mapVecs g).dests = s.dests ∧ (s.mapVecs g).sheafAcc =
    s.sheafAcc ∧ (s.mapVecs g).consLast = s.consLast ∧ (s.mapVecs g).chans = s.chans ∧ (s.mapVecs g).tens = s.tens ∧
    (s.mapVecs g).logs = s.logs ∧ (s.mapVecs g).dirty = s.dirty ∧ (s.mapVecs g).keeper = s.keeper ∧ (s.mapVecs
    g).store = s.store ∧ (s.mapVecs g).upd = s.upd := by
  and_intros <;> rfl
@[simp] theorem mapVecs_rd (s : State) (g : Nat → Vec → Vec) (x : Fld) (i' j' : Nat) : (s.mapVecs g).rd x i' j' = s.rd x i' j' := rfl

@[simp] theorem filterHostQ_keeps (s : State) (p : HReq → Bool) :
    (s.filterHostQ p).pending = s.pending ∧ (s.filterHostQ p).regs = s.regs ∧ (s.filterHostQ p).out = s.out ∧
    (s.filterHostQ p).free = s.free ∧ (s.filterHostQ p).latches = s.latches ∧ (s.filterHostQ p).cfg = s.cfg ∧
    (s.filterHostQ p).vecs = s.vecs ∧ (s.filterHostQ p).heldCauses = s.heldCauses ∧ (s.filterHostQ p).trace =
    s.trace ∧ (s.filterHostQ p).journal = s.journal ∧ (s.filterHostQ p).cad = s.cad ∧ (s.filterHostQ p).doms =
    s.doms ∧ (s.filterHostQ p).clocks = s.clocks ∧ (s.filterHostQ p).pins = s.pins ∧ (s.filterHostQ p).hls = s.hls ∧
    (s.filterHostQ p).tags = s.tags ∧ (s.filterHostQ p).locReqs = s.locReqs ∧ (s.filterHostQ p).wls = s.wls ∧
    (s.filterHostQ p).wps = s.wps ∧ (s.filterHostQ p).inRds = s.inRds ∧ (s.filterHostQ p).sheafPkts = s.sheafPkts ∧
    (s.filterHostQ p).pktCount = s.pktCount ∧ (s.filterHostQ p).dests = s.dests ∧ (s.filterHostQ p).sheafAcc =
    s.sheafAcc ∧ (s.filterHostQ p).consLast = s.consLast ∧ (s.filterHostQ p).chans = s.chans ∧ (s.filterHostQ
    p).tens = s.tens ∧ (s.filterHostQ p).logs = s.logs ∧ (s.filterHostQ p).dirty = s.dirty ∧ (s.filterHostQ
    p).keeper = s.keeper ∧ (s.filterHostQ p).store = s.store ∧ (s.filterHostQ p).upd = s.upd := by
  and_intros <;> rfl
@[simp] theorem filterHostQ_hostQ (s : State) (p : HReq → Bool) : (s.filterHostQ p).hostQ = s.hostQ.filter p := rfl
@[simp] theorem filterHostQ_rd (s : State) (p : HReq → Bool) (x : Fld) (i' j' : Nat) : (s.filterHostQ p).rd x i' j' = s.rd x i' j' := rfl

@[simp] theorem mapTags_keeps (s : State) (g : HTag → HTag) :
    (s.mapTags g).pending = s.pending ∧ (s.mapTags g).regs = s.regs ∧ (s.mapTags g).out = s.out ∧ (s.mapTags g).free
    = s.free ∧ (s.mapTags g).latches = s.latches ∧ (s.mapTags g).cfg = s.cfg ∧ (s.mapTags g).vecs = s.vecs ∧
    (s.mapTags g).heldCauses = s.heldCauses ∧ (s.mapTags g).trace = s.trace ∧ (s.mapTags g).journal = s.journal ∧
    (s.mapTags g).cad = s.cad ∧ (s.mapTags g).doms = s.doms ∧ (s.mapTags g).clocks = s.clocks ∧ (s.mapTags g).pins =
    s.pins ∧ (s.mapTags g).hls = s.hls ∧ (s.mapTags g).hostQ = s.hostQ ∧ (s.mapTags g).locReqs = s.locReqs ∧
    (s.mapTags g).wls = s.wls ∧ (s.mapTags g).wps = s.wps ∧ (s.mapTags g).inRds = s.inRds ∧ (s.mapTags g).sheafPkts
    = s.sheafPkts ∧ (s.mapTags g).pktCount = s.pktCount ∧ (s.mapTags g).dests = s.dests ∧ (s.mapTags g).sheafAcc =
    s.sheafAcc ∧ (s.mapTags g).consLast = s.consLast ∧ (s.mapTags g).chans = s.chans ∧ (s.mapTags g).tens = s.tens ∧
    (s.mapTags g).logs = s.logs ∧ (s.mapTags g).dirty = s.dirty ∧ (s.mapTags g).keeper = s.keeper ∧ (s.mapTags
    g).store = s.store ∧ (s.mapTags g).upd = s.upd := by
  and_intros <;> rfl
@[simp] theorem mapTags_tags (s : State) (g : HTag → HTag) : (s.mapTags g).tags = s.tags.map g := rfl
@[simp] theorem mapTags_rd (s : State) (g : HTag → HTag) (x : Fld) (i' j' : Nat) : (s.mapTags g).rd x i' j' = s.rd x i' j' := rfl

@[simp] theorem emit_keeps (s : State) (o : Out) :
    (emit o s).pending = s.pending ∧ (emit o s).regs = s.regs ∧ (emit o s).free = s.free ∧ (emit o s).latches =
    s.latches ∧ (emit o s).cfg = s.cfg ∧ (emit o s).vecs = s.vecs ∧ (emit o s).heldCauses = s.heldCauses ∧ (emit o
    s).trace = s.trace ∧ (emit o s).journal = s.journal ∧ (emit o s).cad = s.cad ∧ (emit o s).doms = s.doms ∧ (emit
    o s).clocks = s.clocks ∧ (emit o s).pins = s.pins ∧ (emit o s).hls = s.hls ∧ (emit o s).hostQ = s.hostQ ∧ (emit
    o s).tags = s.tags ∧ (emit o s).locReqs = s.locReqs ∧ (emit o s).wls = s.wls ∧ (emit o s).wps = s.wps ∧ (emit o
    s).inRds = s.inRds ∧ (emit o s).sheafPkts = s.sheafPkts ∧ (emit o s).pktCount = s.pktCount ∧ (emit o s).dests =
    s.dests ∧ (emit o s).sheafAcc = s.sheafAcc ∧ (emit o s).consLast = s.consLast ∧ (emit o s).chans = s.chans ∧
    (emit o s).tens = s.tens ∧ (emit o s).logs = s.logs ∧ (emit o s).dirty = s.dirty ∧ (emit o s).keeper = s.keeper
    ∧ (emit o s).store = s.store ∧ (emit o s).upd = s.upd := by
  and_intros <;> rfl
@[simp] theorem emit_out (s : State) (o : Out) : (emit o s).out = s.out ++ [o] := rfl
@[simp] theorem emit_rd (s : State) (o : Out) (x : Fld) (i' j' : Nat) : (emit o s).rd x i' j' = s.rd x i' j' := rfl

@[simp] theorem enqueueHost_keeps (s : State) (r : HReq) :
    (enqueueHost r s).pending = s.pending ∧ (enqueueHost r s).regs = s.regs ∧ (enqueueHost r s).out = s.out ∧
    (enqueueHost r s).free = s.free ∧ (enqueueHost r s).latches = s.latches ∧ (enqueueHost r s).cfg = s.cfg ∧
    (enqueueHost r s).vecs = s.vecs ∧ (enqueueHost r s).heldCauses = s.heldCauses ∧ (enqueueHost r s).trace =
    s.trace ∧ (enqueueHost r s).journal = s.journal ∧ (enqueueHost r s).cad = s.cad ∧ (enqueueHost r s).doms =
    s.doms ∧ (enqueueHost r s).clocks = s.clocks ∧ (enqueueHost r s).pins = s.pins ∧ (enqueueHost r s).hls = s.hls ∧
    (enqueueHost r s).tags = s.tags ∧ (enqueueHost r s).locReqs = s.locReqs ∧ (enqueueHost r s).wls = s.wls ∧
    (enqueueHost r s).wps = s.wps ∧ (enqueueHost r s).inRds = s.inRds ∧ (enqueueHost r s).sheafPkts = s.sheafPkts ∧
    (enqueueHost r s).pktCount = s.pktCount ∧ (enqueueHost r s).dests = s.dests ∧ (enqueueHost r s).sheafAcc =
    s.sheafAcc ∧ (enqueueHost r s).consLast = s.consLast ∧ (enqueueHost r s).chans = s.chans ∧ (enqueueHost r
    s).tens = s.tens ∧ (enqueueHost r s).logs = s.logs ∧ (enqueueHost r s).dirty = s.dirty ∧ (enqueueHost r
    s).keeper = s.keeper ∧ (enqueueHost r s).store = s.store ∧ (enqueueHost r s).upd = s.upd := by
  and_intros <;> rfl
@[simp] theorem enqueueHost_hostQ (s : State) (r : HReq) : (enqueueHost r s).hostQ = s.hostQ ++ [r] := rfl
@[simp] theorem enqueueHost_rd (s : State) (r : HReq) (x : Fld) (i' j' : Nat) : (enqueueHost r s).rd x i' j' = s.rd x i' j' := rfl

@[simp] theorem enqueueLink_keeps (s : State) (n : Nat) (p : WPkt) :
    (enqueueLink n p s).pending = s.pending ∧ (enqueueLink n p s).regs = s.regs ∧ (enqueueLink n p s).out = s.out ∧
    (enqueueLink n p s).free = s.free ∧ (enqueueLink n p s).latches = s.latches ∧ (enqueueLink n p s).cfg = s.cfg ∧
    (enqueueLink n p s).vecs = s.vecs ∧ (enqueueLink n p s).heldCauses = s.heldCauses ∧ (enqueueLink n p s).trace =
    s.trace ∧ (enqueueLink n p s).journal = s.journal ∧ (enqueueLink n p s).cad = s.cad ∧ (enqueueLink n p s).doms =
    s.doms ∧ (enqueueLink n p s).clocks = s.clocks ∧ (enqueueLink n p s).pins = s.pins ∧ (enqueueLink n p s).hls =
    s.hls ∧ (enqueueLink n p s).hostQ = s.hostQ ∧ (enqueueLink n p s).tags = s.tags ∧ (enqueueLink n p s).locReqs =
    s.locReqs ∧ (enqueueLink n p s).wps = s.wps ∧ (enqueueLink n p s).inRds = s.inRds ∧ (enqueueLink n p
    s).sheafPkts = s.sheafPkts ∧ (enqueueLink n p s).pktCount = s.pktCount ∧ (enqueueLink n p s).dests = s.dests ∧
    (enqueueLink n p s).sheafAcc = s.sheafAcc ∧ (enqueueLink n p s).consLast = s.consLast ∧ (enqueueLink n p
    s).chans = s.chans ∧ (enqueueLink n p s).tens = s.tens ∧ (enqueueLink n p s).logs = s.logs ∧ (enqueueLink n p
    s).dirty = s.dirty ∧ (enqueueLink n p s).keeper = s.keeper ∧ (enqueueLink n p s).store = s.store ∧ (enqueueLink
    n p s).upd = s.upd := by
  and_intros <;> rfl
@[simp] theorem enqueueLink_rd (s : State) (n : Nat) (p : WPkt) (x : Fld) (i' j' : Nat) : (enqueueLink n p s).rd x i' j' = s.rd x i' j' := rfl

/-! ### Sparse tables -/

theorem tget_tput {α : Type} (d : α) (t : Tbl α) (k v k') : tget d (tput t k v) k' = if k' = k then v else tget d t k' := by
  induction t with
  | nil =>
    simp only [tput, tget]
    by_cases hk : k = k'
    · rw [if_pos hk, if_pos hk.symm]
    · rw [if_neg hk, if_neg (Ne.symm hk)]
  | cons e r ih =>
    obtain ⟨a, w⟩ := e
    simp only [tput]
    by_cases hk : k' = k
    · subst hk
      rw [if_pos rfl] at ih ⊢
      by_cases ha : a = k'
      · rw [if_pos ha, tget, if_pos rfl]
      · rw [if_neg ha]
        split
        · rw [tget, if_pos rfl]
        · rw [tget, if_neg ha, ih]
    · rw [if_neg hk] at ih ⊢
      by_cases ha : a = k
      · rw [if_pos ha, tget, if_neg (Ne.symm hk), tget, if_neg (fun e => hk (e.symm.trans ha))]
      · rw [if_neg ha]
        split
        · rw [tget, if_neg (Ne.symm hk)]
        · rw [tget, ih, tget]

theorem tget_filter {α : Type} (d : α) (t : Tbl α) (k k') :
    tget d (t.filter (fun e => !decide (e.1 = k))) k' = if k' = k then d else tget d t k' := by
  induction t with
  | nil => simp [tget]
  | cons e r ih =>
    obtain ⟨a, w⟩ := e
    by_cases ha : a = k <;> by_cases hk : k' = k <;> by_cases hb : a = k' <;>
      simp_all [tget]

/-- An entry reads as last set; every other entry reads as before. -/
theorem tget_tset {α : Type} [DecidableEq α] (d : α) (t : Tbl α) (k v k') :
    tget d (tset d t k v) k' = if k' = k then v else tget d t k' := by
  unfold tset
  split
  · rename_i h
    rw [tget_filter, h]
  · exact tget_tput ..

theorem modCf_cf (s : State) (k : Nat) (g) (k' : Nat) :
    (s.modCf k g).cf k' = if k' = k then g (s.cf k) else s.cf k' := tget_tset ..
theorem modDom_dom (s : State) (k : Nat) (g) (k' : Nat) :
    (s.modDom k g).dom k' = if k' = k then g (s.dom k) else s.dom k' := tget_tset ..
theorem modHl_hl (s : State) (k : Nat) (g) (k' : Nat) :
    (s.modHl k g).hl k' = if k' = k then g (s.hl k) else s.hl k' := tget_tset ..
theorem modWl_wl (s : State) (k : Nat) (g) (k' : Nat) :
    (s.modWl k g).wl k' = if k' = k then g (s.wl k) else s.wl k' := tget_tset ..
theorem modWp_wp (s : State) (k : Nat) (g) (k' : Nat) :
    (s.modWp k g).wp k' = if k' = k then g (s.wp k) else s.wp k' := tget_tset ..
theorem modCh_ch (s : State) (k : Nat) (g) (k' : Nat) :
    (s.modCh k g).ch k' = if k' = k then g (s.ch k) else s.ch k' := tget_tset ..
theorem modTen_ten (s : State) (k : Nat) (g) (k' : Nat) :
    (s.modTen k g).ten k' = if k' = k then g (s.ten k) else s.ten k' := tget_tset ..

end Sys2Proof.Laws
end

