-- ==== Sys2Proof/Tests/Slice0.lean ====
section
/-!
SUPPORT. The model's own tests: ill-formed commands that WellFormed refuses, worked examples of the spec, and for every
obligation with hypotheses, clause by clause, a concrete state and operands that meet them together.
-/
namespace Sys2Proof.Tests
open Sys2Proof Sys2Proof.Machine
set_option Elab.async false

/-! ### Small states and operands -/

/-- A state with PD_KEEP, PD_HUB and the domains of tiller 0 ON, the Keeper serving, HL0 and WL0 up,
  its PF the manager, and tenant 0 ACTIVE on VF 1. -/
def live : State :=
  { State.reset with
    regs :=
      [(⟨.CAD_STATE, 0, 0⟩, 2), (⟨.CAD_SEEDED, 0, 0⟩, 1), (⟨.HL_LTSSM, 0, 0⟩, 3), (⟨.HL_CUR_SPEED, 0, 0⟩, 6),
       (⟨.HL_CUR_WIDTH, 0, 0⟩, 16), (⟨.HL_FLIT, 0, 0⟩, 1), (⟨.HL_DL_UP, 0, 0⟩, 1), (⟨.DVSEC_TNID, 1, 0⟩, 0),
       (⟨.TI_CONSERVATIVE, 0, 0⟩, 0), (⟨.WP_STATE, 0, 0⟩, 5), (⟨.WL_LSTATE, 0, 0⟩, 2), (⟨.CH_ALLOTTED, 0, 0⟩, 1),
       (⟨.TN_STATE, 0, 0⟩, 1), (⟨.TN_VF, 0, 0⟩, 1), (⟨.TN_CB_UNITS, 0, 0⟩, 1), (⟨.TN_ALLOWANCE, 0, 0⟩, 16),
       (⟨.TN_PERMIT0, 0, 0⟩, 1), (⟨.FI_VEC_COUNT, 0, 0⟩, 8), (⟨.FI_VEC_COUNT, 1, 0⟩, 8), (⟨.KP_KSTATE, 0, 0⟩, 2),
       (⟨.CK_READY, 0, 0⟩, 4294967295), (⟨.PW_FN_READY, 0, 0⟩, 1),
       (⟨.PW_STATE, 0, 0⟩, 2), (⟨.PW_STATE, 0, 1⟩, 2), (⟨.PW_STATE, 0, 2⟩, 2), (⟨.PW_STATE, 0, 10⟩, 2),
       (⟨.PW_STATE, 0, 18⟩, 2), (⟨.PW_PAD_HOLD, 0, 10⟩, 0), (⟨.PW_PAD_HOLD, 0, 18⟩, 0)]
    pins := ⟨⟨0, 0, false⟩, 0, false, false, false, false, 255, none⟩
    journal := JournalS.empty
    upd := { State.reset.upd with slotA := SlotS.empty, active := 2 }
    hls := [(0, { HlS.reset with fullWidth := 16, speed := 6, eqSpeeds := 120, idleTicks := 200 })]
    cfg :=
      [(0, { FnCfg.reset with bme := true, mse := true, msixEn := true, ltrEn := true, aspmL1 := true, ptmEn := true })]
    keeper := { State.reset.keeper with bootStage := 0 } }

/-- A request of the manager's PF with `plen` bytes of parameters, for the device or tenant 0. -/
def mgr (plen : Nat) : CmdReq := ⟨.fn ⟨0, 0⟩, 1, plen, false, false, false, 2, 0, 0⟩

/-- `live` with a command of the manager's PF for tenant 0 in the schedule, due. -/
def sched (plen : Nat) (cmd : AtCmd) : Sched := ⟨mgr plen, cmd, 0, 0, true⟩

/-- `live` with a scheduled command. -/
def due (plen : Nat) (cmd : AtCmd) : State := live.modKeeper (fun k => { k with sched := [sched plen cmd] })

/-- A host request of the PF of HL0. -/
def hreq (kind : HKind) (len : Nat) (data : Bytes) (src : HSrc) : HReq :=
  ⟨⟨0, 0⟩, kind, 0, len, data, false, false, src, 256, 0, 0, 1, 0, false, false, false⟩

/-- Tenant parameters for HL0 and the VF `vf`. -/
def tpar (vf : Nat) : TenantParams := ⟨vf, 0, false, 8, 8, 16, 1, 1, 1, 1, 100, 100, 1, [1, 0, 0, 0, 0, 0, 0, 0], 0⟩

/-- An outbound window of 64 KiB at local address 0 on WL0, for TNID or sheaf 0. -/
def outw (cls sheaf toPf : Nat) : OutWin := ⟨0, cls, sheaf, 1, 1, 0, 1, 1, 0, 0, toPf, 0, 65536, 1048576, 0, 0⟩

/-- `live` with sheaf 0 leading to destination 0, tenant 0. -/
def sheafed : State := ((live.wr .SH_MODE 1 0).wr .SH_DEST_COUNT 1 0).wr .TN_OUT_ALLOT 4 0

/-- Logging of a tenant with buffer A active. -/
def logS (h : Option HarvestS) : LogS := ⟨0, 16, 0, 1048576, 2097152, 0, 0, false, 0, 0, 0, false, none, h, false⟩

/-- `live` with tenant 0 in the state `st`. -/
def tnIn (st : Nat) : State := live.wr .TN_STATE st 0

/-- A firmware header for 4096 chunks. -/
def fwHdr : Bytes := patch (zeros 512) 0x1C (le 4 4096)

/-- `live` with the update in the state `st`, receiving into slot A. -/
def updIn (st : Nat) : State :=
  { live with upd := { live.upd with state := st, recvSlot := 0, slotA := ⟨false, fwHdr, [(0, zeros 4112)], []⟩ } }

/-- A state blob of a tenant with no channel: its first 20 bytes are chosen so that the CRC register is 0 behind them. -/
def blob0 : Bytes :=
  [0x52, 0x50, 0x54, 0x53, 2, 0, 0, 0, 0, 2, 0, 0, 0xFF, 0xFF, 0xFF, 0xFF, 16, 45, 103, 35] ++ zeros 492

/-- Its bytes that the CRC covers before the register is 0. -/
def blobHead : Bytes := [0x52, 0x50, 0x54, 0x53, 2, 0, 0, 0, 0, 2, 0, 0, 0, 0, 0, 0, 16, 45, 103, 35]

theorem crc_zeros : ∀ n : Nat, (zeros n).foldl (fun c x => crcByte 0xEDB88320 8 (c.xor x.toNat)) 0 = 0
  | 0 => rfl
  | n + 1 => by
    show List.foldl _ (crcByte 0xEDB88320 8 (Nat.xor 0 (0 : BitVec 8).toNat)) (zeros n) = 0
    exact crc_zeros n

theorem blob_patched : patch blob0 0xC (le 4 0) = blobHead ++ zeros 492 := rfl

theorem blob_crc : crc32 (patch blob0 0xC (le 4 0)) = 0xFFFFFFFF := by
  rw [blob_patched, crc32, List.foldl_append,
    show List.foldl _ _ blobHead = (0 : Nat) from by decide +kernel, crc_zeros]
  rfl

theorem blob_passes (s : State) (hc : (s.ten 0).chans = []) (ht : s.tags = []) : blobCheck 0 true blob0 s = 0 := by
  have hv : num blob0 0x42 1 = 0 := by decide +kernel
  have hk : num blob0 0x1C 1 = 0 := by decide +kernel
  have hn : num blob0 0xC 4 = 0xFFFFFFFF := by decide +kernel
  have hl : blob0.length = 512 := by decide +kernel
  have h2 : num blob0 4 2 = 2 := by decide +kernel
  have hm : blob0.take 4 = [0x52, 0x50, 0x54, 0x53] := by decide +kernel
  simp [blobCheck, firstFail, blob_crc, hv, hk, hn, hl, h2, hm, hc, ht]

/-- `live` with VF 1 of HL0 enabled. -/
def vf1 : State :=
  (live.modCf 0 (fun c => { c with vfEnable := true, vfsReady := true, numVfs := 4 })).modCf 1
    (fun c => { c with bme := true, mse := true, atomicEn := true })

/-- `live` with outbound entry 0 of WL0 for tenant 0, inbound entry 0 of the PF of HL0 onto WL0 and interrupt entry 0 of
WL0 to that PF. -/
def mapped : State :=
  let regs : List (Fld × Nat × Nat) :=
    [(.OW_LINK, 0, 0), (.OW_CLASS, 0, 1), (.OW_RD, 0, 1), (.OW_WR, 0, 1), (.OW_AT, 0, 1), (.OW_TNID, 0, 0),
      (.OW_SIZE_LO, 0, 16),
     (.OW_HOST_BASE_LO, 0, 256), (.IW_LINK, 0, 0), (.IW_HL, 0, 0), (.IW_RD, 0, 1), (.IW_WR, 0, 1), (.IW_SIZE_LO, 0, 16),
     (.NW_TO_PF, 0, 1), (.NW_COUNT, 0, 4)]
  let s := regs.foldl (fun s e => s.wr e.1 e.2.2 e.2.1) vf1
  s.modCf 0 (fun c => { c with atomicEn := true })

/-- A packet on the read lane. -/
def pkt (typ sub len : Nat) (data : Bytes) : Pkt := ⟨typ, 0, false, false, sub, len, 0, 0, 0, 0, len, 0, 0, 0, data⟩

/-- A request to BAR2 of the PF of HL0. -/
def bar2 (write : Bool) (offset len : Nat) (data : Bytes) : HostMem := ⟨⟨0, 0⟩, write, false, offset, len, data, 0⟩

/-- A tag held on HL0. -/
def htag (r : HReq) (quar tout drop : Bool) : HTag := ⟨r, 256, 0, [], 0, quar, tout, drop, false⟩

/-- `live` with that tag held. -/
def held (t : HTag) : State := { live with tags := [t] }

/-- A tag held on WL0 for a host's read. -/
def wtag (quar : Bool) (gen : Nat) : WTag := ⟨0, pkt 2 0 16 [], .hostRead 0 0 0, 256, gen, 0, [], 0, quar, 0⟩

/-- `mapped` with that tag held. -/
def wheld (t : WTag) : State :=
  { mapped.modWl 0 (fun w => { w with wlTags := [t] }) with inRds := [⟨0, bar2 false 0 16 [], 1, [], 0, 0, false, 0, 256⟩] }

/-- A descriptor of 64 bytes. -/
def desc (failed : Nat) : Desc := ⟨1, 4096, 0, 0, 0, 64, 0, 0, 1, 0, 0, 0, [], 0, false, false, 0, 1, failed, false⟩

/-- `live` with channel 0 enabled in the state `st`. -/
def chIn (st : Nat) : State :=
  ((vf1.wr .CH_EN 1 0).wr .CH_STATE st 0).modTen 0 (fun t => { t with chans := [0], regions := List.replicate 16 (0, 2 ^ 64) })

/-- `live` with WL0's lanes in the state `st`. -/
def phyIn (st : Nat) : State := live.wr .WP_STATE st 0

/-- What WL0 learns in TS2 from a partner on the lock side. -/
def ts2 (lockSide : Bool) : Ts2 := ⟨lockSide, false, 1, 15, 0, 15, 15, 0xE4, 0⟩

/-- A grain with its CRC right. -/
def grain (typ sop eop seq : Nat) (body : Bytes) : Grain :=
  let g : Grain := ⟨typ, sop, eop, false, false, false, 0, seq, 0, 0, 0, 0, body, 0, 0⟩
  { g with crc := crc32 (grainBytes g) }

/-- An INIT body that passes. -/
def initB (seen : Bool) : InitBody := ⟨1, false, seen, false, 1, 0, 0, 64, 64, 64⟩

/-- `live` with a reshape of WL0 as `f` says. -/
def shaping (f : WlS → WlS) : State := live.modWl 0 f

/-- The first record of a journal. -/
def jrec : JRec := ⟨.checkpoint 0 0, 0, 0, 0, 1, 0, chainOf 0 ⟨.checkpoint 0 0, 0, 0, 0, 1, 0, 0, 0⟩, 0⟩

/-- TS2 as a partner sends it on its four lanes, all of which it receives with word lock. -/
def ts2s (role rates : Nat) : List (Fin 4 × Bytes) :=
  ([0, 1, 2, 3] : List (Fin 4)).map (fun k => (k, trainBytes 2 k.val role rates 15 0 0))

/-! ### Worked examples of the spec -/

/-- Chapter 9, example of Table WT-7: an MRD costs 1 credit whatever its length, an MWR of 512 bytes 17, a CPLD of 64
bytes 3. -/
theorem test_credit_example :
    pktCost (pkt 2 0 4096 []) = 1 ∧ pktCost (pkt 1 0 512 (zeros 512)) = 17 ∧
      pktCost (pkt 4 0 64 (zeros 64)) = 3 := by decide

/-- The state in which outbound entry 0 has OPEN 60,000 and DEADLINE 2,000 at the given epoch and phase. -/
def atPhase (epoch phase : Nat) : State :=
  ((live.wr .OW_OPEN 60000 0).wr .OW_DEADLINE 2000 0).modCad (fun c => { c with stamp := (epoch * 65536 + phase) * 65536 })

/-- R112's example: received at phase 63,000 of epoch 700, the deadline is phase 2,000 of epoch 701. -/
theorem test_deadline_example :
    (deadlineOf (atPhase 700 63000) (700 * 65536 + 63000) 0).1 = 701 * 65536 + 2000 ∧
      (deadlineOf (atPhase 700 63000) (700 * 65536 + 63000) 0).2 = false := by
  decide +kernel

/-- R112's example: received at phase 2,500 of epoch 701, the packet is late on arrival. -/
theorem test_late_example : (deadlineOf (atPhase 701 2500) (701 * 65536 + 2500) 0).2 = true := by decide +kernel

/-- R385's example: TILLER2 line 19 may be set to FATAL with the parameters 01 02 13 02. -/
theorem test_fault_config_example : faultConfigOk ⟨1, 2, 0x13, 2, 0⟩ = true := by decide

/-- Chapter 15's example: a CHECKPOINT record has a body of 6 bytes and a length of 96. -/
theorem test_checkpoint_length :
    (JRec.len ⟨.checkpoint 0 0, 0, 0, 0, 1, 0, 0, 0⟩) = 96 := by decide

/-! ### No word spells a command; every command answers a next state -/

/-- The table gives no row any bits. -/
theorem test_no_word_decodes (nbits w : Nat) : decodeTableWord nbits w = none := rfl

/-- The CHAIN of the GENESIS record of a module as shipped is that of R390. -/
theorem test_genesis_chain :
    JournalS.shipped.recs.map (chainOf JournalS.shipped.chainBefore) = JournalS.shipped.recs.map (·.chain) := rfl

/-- Each command but GRAIN_RECEIVED answers a next state in every state, so the hypothesis of every frame is met for it;
`test_wit_GrainsReceived` meets it for GRAIN_RECEIVED. -/
theorem test_every_command_answers (c : Instr) (s : State) :
    (∃ wl g, c = .grainReceived wl g) ∨ ∃ t, exec c s = .next t := by
  cases c
  case grainReceived wl g => exact .inl ⟨wl, g, rfl⟩
  case smpCsAbort op => cases op <;> exact .inr ⟨_, rfl⟩
  case perstAssert hl =>
    by_cases h : s.pins.perst.testBit hl.val = true
    · exact .inr ⟨s, by simp [exec, execPerstAssert, h]⟩
    · exact .inr ⟨_, by simp [exec, execPerstAssert, h]; rfl⟩
  all_goals exact .inr ⟨_, rfl⟩

/-- The packet whose header and grains the replay example re-sends: a state with one grain held. -/
theorem test_wit_ReplayedGrains :
    ∃ (s : State) (h : TxGrain), (s.wl 0).replay[0]? = some h ∧ (s.wl 0).replay.length = 1 :=
  ⟨shaping (fun w => { w with replay := [⟨1, 0, 0, 0, 0, zeros 64⟩] }), ⟨1, 0, 0, 0, 0, zeros 64⟩, by decide +kernel⟩

/-! ### WellFormed refuses an ill-formed term for each check -/

theorem test_wf_RegAccess : let b : RegAccess := (⟨⟨0, 0⟩, 0, 0, 4, 0⟩ : RegAccess)
    b.wf = true ∧ [{ b with size := 0 }, { b with value := 2 ^ 32 }].all (fun x => !x.wf) = true := by decide +kernel

theorem test_wf_CmdReq : let b : CmdReq := mgr 0
    b.wf = true ∧ [{ b with tag := 2 ^ 16 }, { b with target := 2 ^ 16 }, { b with notBefore := 2 ^ 32 },
      { b with plen := 2 ^ 16 }, { b with hver := 2 ^ 8 }].all (fun x => !x.wf) = true := by decide +kernel

theorem test_wf_Pkt : let b : Pkt := pkt 1 0 4 (zeros 4)
    b.wf = true ∧ [{ b with payload := zeros 8192 }, { b with typ := 16 }, { b with lane := 4 },
      { b with sub := 2 ^ 8 }, { b with len := 2 ^ 13 },
      { b with tag := 2 ^ 12 }, { b with status := 2 ^ 8 }, { b with cause := 2 ^ 8 }, { b with addr := 2 ^ 64 },
        { b with byteCount := 2 ^ 13 },
      { b with lowerAddr := 2 ^ 12 }, { b with num := 2 ^ 16 },
        { b with value := 2 ^ 32 }].all (fun x => !x.wf) = true := by decide +kernel

theorem test_wf_HostMem : let b : HostMem := bar2 true 0 4 (zeros 4)
    b.wf = true ∧ [{ b with len := 5 }].all (fun x => !x.wf) = true := by decide +kernel

theorem test_wf_HostCpl : let b : HostCpl := (⟨⟨0, 0⟩, 0, 0, false, 1, 4, 0, zeros 4⟩ : HostCpl)
    b.wf = true ∧ [{ b with status := 3 }, { b with length := 1025 }, { b with byteCount := 4097 },
      { b with lowerAddr := 4096 }, { b with tag := 2 ^ 14 }].all (fun x => !x.wf) = true := by decide +kernel

theorem test_wf_Grain : let b : Grain := grain 2 0 0 0 (zeros 64)
    b.wf = true ∧ [{ b with payload := [] }, { b with typ := 16 }, { b with seq := 4096 }, { b with ack := 4096 },
      { b with crc := 2 ^ 32 },
      { b with rsv := 2 ^ 21 }].all (fun x => !x.wf) = true := by decide +kernel

theorem test_wf_InitBody : let b : InitBody := initB false
    b.wf = true ∧ [{ b with version := 2 ^ 16 }, { b with linkId := 2 ^ 16 }, { b with peerLinkId := 2 ^ 16 },
      { b with nextRx := 4096 }, { b with crP := 4096 },
      { b with crN := 4096 }, { b with crC := 4096 }].all (fun x => !x.wf) = true := by decide +kernel

theorem test_wf_TenantParams : let b : TenantParams := tpar 1
    b.wf = true ∧ [{ b with chTiller := [] }, { b with chTiller := [256, 0, 0, 0, 0, 0, 0, 0] },
      { b with vf := 2 ^ 16 }, { b with hl := 2 ^ 8 }, { b with weight := 2 ^ 8 },
      { b with vectors := 2 ^ 8 }, { b with allowance := 2 ^ 16 }, { b with cbUnits := 2 ^ 8 },
        { b with outAllot := 2 ^ 16 }, { b with inAllot := 2 ^ 16 },
      { b with intAllot := 2 ^ 16 }, { b with rate := 2 ^ 32 }, { b with depth := 2 ^ 32 },
        { b with permit := 2 ^ 96 }, { b with change := 2 ^ 32 }].all (fun x => !x.wf) = true := by decide +kernel

theorem test_wf_LogParams : let b : LogParams := (⟨0, 16, 0, 1048576, 2097152⟩ : LogParams)
    b.wf = true ∧ [{ b with base := 2 ^ 64 }, { b with pages := 2 ^ 32 }, { b with logHl := 2 ^ 8 },
      { b with bitmapA := 2 ^ 64 }, { b with bitmapB := 2 ^ 64 }].all (fun x => !x.wf) = true := by decide +kernel

theorem test_wf_OutWin : let b : OutWin := outw 1 0 0
    b.wf = true ∧ [{ b with localBase := 1 }, { b with size := 1 }, { b with hostBase := 1 }, { b with link := 2 ^ 7 },
      { b with cls := 2 ^ 2 },
      { b with sheaf := 2 ^ 1 }, { b with rd := 2 ^ 1 }, { b with wr := 2 ^ 1 }, { b with at_ := 2 ^ 1 },
        { b with roOk := 2 ^ 1 },
      { b with idoOk := 2 ^ 1 }, { b with tnid := 2 ^ 8 }, { b with pfHl := 2 ^ 5 }, { b with toPf := 2 ^ 1 },
        { b with localBase := 2 ^ 64 },
      { b with size := 2 ^ 49 }, { b with hostBase := 2 ^ 64 }, { b with deadline := 2 ^ 16 },
        { b with open_ := 2 ^ 16 }].all (fun x => !x.wf) = true := by decide +kernel

theorem test_wf_InWin : let b : InWin := (⟨0, 1, 1, 1, 0, 0, 0, 65536, 0⟩ : InWin)
    b.wf = true ∧ [{ b with barOffset := 1 }, { b with size := 1 }, { b with localBase := 1 },
      { b with link := 2 ^ 7 }, { b with func := 2 ^ 9 },
      { b with rd := 2 ^ 1 }, { b with wr := 2 ^ 1 }, { b with lane := 2 ^ 2 }, { b with hl := 2 ^ 5 },
        { b with barOffset := 2 ^ 40 },
      { b with size := 2 ^ 41 }, { b with localBase := 2 ^ 64 }].all (fun x => !x.wf) = true := by decide +kernel

theorem test_wf_IntWin : let b : IntWin := (⟨0, 0, 0, 0, 0, 4, 0⟩ : IntWin)
    b.wf = true ∧ [{ b with link := 2 ^ 7 }, { b with toPf := 2 ^ 1 }, { b with tnid := 2 ^ 8 },
      { b with pfHl := 2 ^ 5 }, { b with msgBase := 2 ^ 16 },
      { b with count := 2 ^ 8 }, { b with vecBase := 2 ^ 7 }].all (fun x => !x.wf) = true := by decide +kernel

theorem test_wf_SheafDest : let b : SheafDest := (⟨0, 0, 0, 16, 0, 0, 0, 0⟩ : SheafDest)
    b.wf = true ∧ [{ b with hostBase := 1 }, { b with gapBase := 1 }, { b with tnid := 2 ^ 8 },
      { b with toPf := 2 ^ 1 }, { b with pfHl := 2 ^ 5 },
      { b with lagBudget := 2 ^ 10 }, { b with hostBase := 2 ^ 64 }, { b with gapEn := 2 ^ 1 },
        { b with gapSize := 2 ^ 4 }, { b with gapBase := 2 ^ 64 }].all (fun x => !x.wf) = true := by decide +kernel

theorem test_wf_SheafImg : let b : SheafImg := (⟨2, 1, 0, [⟨0, 0, 0, 16, 0, 0, 0, 0⟩]⟩ : SheafImg)
    b.wf = true ∧ [{ b with dests := List.replicate 9 ⟨0, 0, 0, 16, 0, 0, 0, 0⟩ },
      { b with dests := [⟨256, 0, 0, 16, 0, 0, 0, 0⟩] }, { b with mode := 2 ^ 2 }, { b with destCount := 2 ^ 4 },
      { b with window := 2 ^ 11 }].all (fun x => !x.wf) = true := by decide +kernel

theorem test_wf_WlinkParams : let b : WlinkParams := (⟨0, 0, 0x21, 2, 0, 0, 0, 0, 8, 0, 0, 0, 0, 0, 0⟩ : WlinkParams)
    b.wf = true ∧ [{ b with link := 2 ^ 8 }, { b with persist := 2 ^ 8 }, { b with select := 2 ^ 16 },
      { b with targetRate := 2 ^ 8 }, { b with minWidth := 2 ^ 8 },
      { b with laneEn := 2 ^ 8 }, { b with disable := 2 ^ 1 }, { b with peer := 2 ^ 1 },
        { b with replayLimit := 2 ^ 8 }, { b with replayTo := 2 ^ 8 },
      { b with grace := 2 ^ 32 }, { b with errLimit := 2 ^ 16 }, { b with errWindow := 2 ^ 16 },
        { b with lrspTo := 2 ^ 16 }, { b with reshapeTo := 2 ^ 16 }].all (fun x => !x.wf) = true := by decide +kernel

theorem test_wf_FaultCfg : let b : FaultCfg := (⟨1, 0, 0, 1, 0⟩ : FaultCfg)
    b.wf = true ∧ [{ b with select := 2 ^ 8 }, { b with group := 2 ^ 8 }, { b with line := 2 ^ 8 },
      { b with cls := 2 ^ 8 }, { b with minw := 2 ^ 32 }].all (fun x => !x.wf) = true := by decide +kernel

theorem test_wf_FaultInj : let b : FaultInj := (⟨0, 0, 0, 0x81, 0, 0⟩ : FaultInj)
    b.wf = true ∧ [{ b with op := 2 ^ 8 }, { b with group := 2 ^ 8 }, { b with line := 2 ^ 8 },
      { b with modes := 2 ^ 8 }, { b with addr := 2 ^ 64 }].all (fun x => !x.wf) = true := by decide +kernel

theorem test_wf_FilterParams : let b : FilterParams := (⟨1, 0, 0, 0, 0⟩ : FilterParams)
    b.wf = true ∧ [{ b with classEn := 2 ^ 32 }, { b with flags := 2 ^ 8 }, { b with tenants := 2 ^ 256 },
      { b with wlinks := 2 ^ 96 }, { b with hlinks := 2 ^ 32 }].all (fun x => !x.wf) = true := by decide +kernel

theorem test_wf_StreamParams : let b : StreamParams := (⟨1, 0, 12, 1, 4096, 0⟩ : StreamParams)
    b.wf = true ∧ [{ b with enable := 2 ^ 8 }, { b with hl := 2 ^ 8 }, { b with sizeLog2 := 2 ^ 8 },
      { b with batchTicks := 2 ^ 8 }, { b with base := 2 ^ 64 },
      { b with prodAddr := 2 ^ 64 }].all (fun x => !x.wf) = true := by decide +kernel

theorem test_wf_Ev : let b : Ev := (⟨0, 0, ⟨0, 0, 0⟩, 0, 0, 0⟩ : Ev)
    b.wf = true ∧ [{ b with master := ⟨16, 0, 0⟩ }, { b with master := ⟨0, 2 ^ 16, 0⟩ },
      { b with master := ⟨0, 0, 2 ^ 12⟩ }, { b with access := 2 ^ 8 }, { b with detail := 2 ^ 8 },
      { b with addr := 2 ^ 64 }].all (fun x => !x.wf) = true := by decide +kernel

/-- Well-formed commands, one for each row that has a check. -/
def goodRows0 : List Instr :=
  [.registerWrite (⟨⟨0, 0⟩, 0, 0, 4, 0⟩ : RegAccess), .lowWordRead ⟨0, 0⟩ 0 0,
   .darkAccess (⟨⟨0, 0⟩, 0, 0, 4, 0⟩ : RegAccess) false, .nop (mgr 0), .deviceInfo (mgr 0),
   .directoryRead (mgr 0) 0, .cmdCancel (mgr 0) 0, .mgrHandover (mgr 0) 0 0, .expromStore (mgr 8) 0 0 [],
   .subsysSet (mgr 0) 0 0, .tenantCreate (mgr 0) (tpar 1), .tenantModify (mgr 0) (tpar 1), .tenantReset (mgr 0),
   .tenantDestroy (mgr 0), .tenantQuery (mgr 0), .vfAllot (mgr 0) 0 0 0 0, .runaheadSet (mgr 0) 0 0 0,
   .outwinSet (mgr 0) 0 (outw 1 0 0), .inwinSet (mgr 0) 0 (⟨0, 1, 1, 1, 0, 0, 0, 65536, 0⟩ : InWin),
   .intwinSet (mgr 0) 0 (⟨0, 0, 0, 0, 0, 4, 0⟩ : IntWin),
   .sheafSet (mgr 0) 0 (⟨2, 1, 0, [⟨0, 0, 0, 16, 0, 0, 0, 0⟩]⟩ : SheafImg), .hportConfig (mgr 0) 0 0 0 0,
   .wlinkConfig (mgr 0) (⟨0, 0, 0x21, 2, 0, 0, 0, 0, 8, 0, 0, 0, 0, 0, 0⟩ : WlinkParams), .wlinkReset (mgr 0) 0,
   .wlinkReshape (mgr 0) 0 0, .wlinkInfo (mgr 0) 0, .logConfig (mgr 0) (⟨0, 16, 0, 1048576, 2097152⟩ : LogParams),
   .logHarvest (mgr 0), .tenantFreeze (mgr 0), .tenantThaw (mgr 0), .tenantSave (mgr 0) 0,
   .tenantRestore (mgr 8) 0 0 [], .cadenceAnchor (mgr 0) 0 0, .ptmResponse 0 0, .clockSwitch (mgr 0) 0 0,
   .clockMeasure (mgr 0) 0 0 0, .pdSet (mgr 0) 0 0 0, .padRelease (mgr 0) 0, .bankTest (mgr 0) 0 none,
   .tillerReset (mgr 0) 0]
/-- Well-formed commands, one for each row that has a check. -/
def goodRows1 : List Instr :=
  [.updateBegin (mgr 0) [], .updateChunk (mgr 8) 0 0 [], .updateStatus (mgr 0) 0, .updateActivate (mgr 0),
   .updateConfirm (mgr 0), .updateAbort (mgr 0), .traceFilter (mgr 0) (⟨1, 0, 0, 0, 0⟩ : FilterParams),
   .traceStream (mgr 0) (⟨1, 0, 12, 1, 4096, 0⟩ : StreamParams), .traceRead (mgr 0) 0, .faultRead (mgr 0),
   .faultClear (mgr 0) 0, .faultRelease (mgr 0), .faultInject (mgr 0) (⟨0, 0, 0, 0x81, 0, 0⟩ : FaultInj),
   .faultConfig (mgr 0) (⟨1, 0, 0, 1, 0⟩ : FaultCfg), .journalRead (mgr 0) 0, .smpWrite 0 [] 0,
   .dlUp 0 0 false false, .speedChange 0 0 false, .l0pPartnerRequest 0 0, .configRequest ⟨0, 0⟩ 0 (.read 0),
   .inboundRequest (bar2 true 0 4 (zeros 4)), .expromRead 0 0 0 0, .hostReadIssue 0 0 0,
   .hostCompletion (⟨⟨0, 0⟩, 0, 0, false, 1, 4, 0, zeros 4⟩ : HostCpl), .completionTimeout ⟨0, 0⟩ 0,
   .quarantineExpiry ⟨0, 0⟩ 0, .localMwr 0 (pkt 1 0 4 (zeros 4)), .localMrd 0 (pkt 1 0 4 (zeros 4)),
   .localAtom 0 (pkt 1 0 4 (zeros 4)), .localInterruptMsg 0 (pkt 1 0 4 (zeros 4)),
   .peerDoorbell 0 (pkt 1 0 4 (zeros 4)), .identReceived 0 (pkt 1 0 4 (zeros 4)),
   .localResponse 0 (pkt 1 0 4 (zeros 4)), .lrspTimeout 0 0, .ts2Exchanged 0 [], .prbsSyncLoss 0 0 0 0,
   .alignmentBlockReceive 0 [], .grainReceived 0 (grain 2 0 0 0 (zeros 64)), .linkPacketSend 0 0 0,
   .initReceived 0 (initB false)]
/-- Well-formed commands, one for each row that has a check. -/
def goodRows2 : List Instr :=
  [.laneNak 0 0 0, .errorLineEvent (⟨0, 0, ⟨0, 0, 0⟩, 0, 0, 0⟩ : Ev), .freqCountEnd 0, .wakeStepReady 18 [],
   .vinLow 0, .jtagTracePtr 0, .laneMarginingCommand 0 0 0]
/-- Ill-formed commands: each breaks one check of its row. -/
def badRows0 : List Instr :=
  [.registerWrite ({ (⟨⟨0, 0⟩, 0, 0, 4, 0⟩ : RegAccess) with size := 0 }), .lowWordRead ⟨0, 0⟩ 0 4,
   .darkAccess ({ (⟨⟨0, 0⟩, 0, 0, 4, 0⟩ : RegAccess) with size := 0 }) false, .nop ({ mgr 0 with tag := 2 ^ 16 }),
   .deviceInfo ({ mgr 0 with tag := 2 ^ 16 }), .directoryRead ({ mgr 0 with tag := 2 ^ 16 }) 0,
   .directoryRead (mgr 0) (2 ^ 32), .cmdCancel ({ mgr 0 with tag := 2 ^ 16 }) 0, .cmdCancel (mgr 0) (2 ^ 16),
   .mgrHandover ({ mgr 0 with tag := 2 ^ 16 }) 0 0, .mgrHandover (mgr 0) (2 ^ 8) 0,
   .mgrHandover (mgr 0) 0 (2 ^ 8), .expromStore ({ mgr 8 with tag := 2 ^ 16 }) 0 0 [],
   .expromStore (mgr 8) (2 ^ 32) 0 [], .expromStore (mgr 8) 0 (2 ^ 32) [], .expromStore (mgr 8) 0 0 [0],
   .subsysSet ({ mgr 0 with tag := 2 ^ 16 }) 0 0, .subsysSet (mgr 0) (2 ^ 16) 0, .subsysSet (mgr 0) 0 (2 ^ 16),
   .tenantCreate ({ mgr 0 with tag := 2 ^ 16 }) (tpar 1), .tenantCreate (mgr 0) ({ tpar 1 with chTiller := [] }),
   .tenantModify ({ mgr 0 with tag := 2 ^ 16 }) (tpar 1), .tenantModify (mgr 0) ({ tpar 1 with chTiller := [] }),
   .tenantReset ({ mgr 0 with tag := 2 ^ 16 }), .tenantDestroy ({ mgr 0 with tag := 2 ^ 16 }),
   .tenantQuery ({ mgr 0 with tag := 2 ^ 16 }), .vfAllot ({ mgr 0 with tag := 2 ^ 16 }) 0 0 0 0,
   .vfAllot (mgr 0) (2 ^ 8) 0 0 0, .vfAllot (mgr 0) 0 (2 ^ 8) 0 0, .vfAllot (mgr 0) 0 0 (2 ^ 16) 0,
   .vfAllot (mgr 0) 0 0 0 (2 ^ 16), .runaheadSet ({ mgr 0 with tag := 2 ^ 16 }) 0 0 0,
   .runaheadSet (mgr 0) (2 ^ 8) 0 0, .runaheadSet (mgr 0) 0 (2 ^ 64) 0, .runaheadSet (mgr 0) 0 0 (2 ^ 64),
   .outwinSet ({ mgr 0 with tag := 2 ^ 16 }) 0 (outw 1 0 0), .outwinSet (mgr 0) (2 ^ 16) (outw 1 0 0),
   .outwinSet (mgr 0) 0 ({ outw 1 0 0 with localBase := 1 }),
   .inwinSet ({ mgr 0 with tag := 2 ^ 16 }) 0 (⟨0, 1, 1, 1, 0, 0, 0, 65536, 0⟩ : InWin),
   .inwinSet (mgr 0) (2 ^ 16) (⟨0, 1, 1, 1, 0, 0, 0, 65536, 0⟩ : InWin)]
/-- Ill-formed commands: each breaks one check of its row. -/
def badRows1 : List Instr :=
  [.inwinSet (mgr 0) 0 ({ (⟨0, 1, 1, 1, 0, 0, 0, 65536, 0⟩ : InWin) with barOffset := 1 }),
   .intwinSet ({ mgr 0 with tag := 2 ^ 16 }) 0 (⟨0, 0, 0, 0, 0, 4, 0⟩ : IntWin),
   .intwinSet (mgr 0) (2 ^ 16) (⟨0, 0, 0, 0, 0, 4, 0⟩ : IntWin),
   .intwinSet (mgr 0) 0 ({ (⟨0, 0, 0, 0, 0, 4, 0⟩ : IntWin) with link := 2 ^ 7 }),
   .sheafSet ({ mgr 0 with tag := 2 ^ 16 }) 0 (⟨2, 1, 0, [⟨0, 0, 0, 16, 0, 0, 0, 0⟩]⟩ : SheafImg),
   .sheafSet (mgr 0) (2 ^ 16) (⟨2, 1, 0, [⟨0, 0, 0, 16, 0, 0, 0, 0⟩]⟩ : SheafImg),
   .sheafSet (mgr 0) 0 ({ (⟨2, 1, 0, [⟨0, 0, 0, 16, 0, 0, 0, 0⟩]⟩ : SheafImg) with dests := List.replicate 9 ⟨0, 0, 0, 16, 0, 0, 0, 0⟩ }),
   .hportConfig ({ mgr 0 with tag := 2 ^ 16 }) 0 0 0 0, .hportConfig (mgr 0) (2 ^ 8) 0 0 0,
   .hportConfig (mgr 0) 0 (2 ^ 8) 0 0, .hportConfig (mgr 0) 0 0 (2 ^ 8) 0, .hportConfig (mgr 0) 0 0 0 (2 ^ 8),
   .wlinkConfig ({ mgr 0 with tag := 2 ^ 16 }) (⟨0, 0, 0x21, 2, 0, 0, 0, 0, 8, 0, 0, 0, 0, 0, 0⟩ : WlinkParams),
   .wlinkConfig (mgr 0) ({ (⟨0, 0, 0x21, 2, 0, 0, 0, 0, 8, 0, 0, 0, 0, 0, 0⟩ : WlinkParams) with link := 2 ^ 8 }),
   .wlinkReset ({ mgr 0 with tag := 2 ^ 16 }) 0, .wlinkReset (mgr 0) (2 ^ 8),
   .wlinkReshape ({ mgr 0 with tag := 2 ^ 16 }) 0 0, .wlinkReshape (mgr 0) (2 ^ 8) 0,
   .wlinkReshape (mgr 0) 0 (2 ^ 8), .wlinkInfo ({ mgr 0 with tag := 2 ^ 16 }) 0, .wlinkInfo (mgr 0) (2 ^ 8),
   .logConfig ({ mgr 0 with tag := 2 ^ 16 }) (⟨0, 16, 0, 1048576, 2097152⟩ : LogParams),
   .logConfig (mgr 0) ({ (⟨0, 16, 0, 1048576, 2097152⟩ : LogParams) with base := 2 ^ 64 }),
   .logHarvest ({ mgr 0 with tag := 2 ^ 16 }), .tenantFreeze ({ mgr 0 with tag := 2 ^ 16 }),
   .tenantThaw ({ mgr 0 with tag := 2 ^ 16 }), .tenantSave ({ mgr 0 with tag := 2 ^ 16 }) 0,
   .tenantSave (mgr 0) (2 ^ 32), .tenantRestore ({ mgr 8 with tag := 2 ^ 16 }) 0 0 [],
   .tenantRestore (mgr 8) (2 ^ 32) 0 [], .tenantRestore (mgr 8) 0 (2 ^ 32) [], .tenantRestore (mgr 8) 0 0 [0],
   .cadenceAnchor ({ mgr 0 with tag := 2 ^ 16 }) 0 0, .cadenceAnchor (mgr 0) (2 ^ 8) 0,
   .cadenceAnchor (mgr 0) 0 (2 ^ 16), .ptmResponse (2 ^ 64) 0, .ptmResponse 0 (2 ^ 64),
   .clockSwitch ({ mgr 0 with tag := 2 ^ 16 }) 0 0, .clockSwitch (mgr 0) (2 ^ 8) 0,
   .clockSwitch (mgr 0) 0 (2 ^ 8)]
/-- Ill-formed commands: each breaks one check of its row. -/
def badRows2 : List Instr :=
  [.clockMeasure ({ mgr 0 with tag := 2 ^ 16 }) 0 0 0, .clockMeasure (mgr 0) (2 ^ 8) 0 0,
   .clockMeasure (mgr 0) 0 (2 ^ 32) 0, .clockMeasure (mgr 0) 0 0 (2 ^ 64),
   .pdSet ({ mgr 0 with tag := 2 ^ 16 }) 0 0 0, .pdSet (mgr 0) (2 ^ 8) 0 0, .pdSet (mgr 0) 0 (2 ^ 8) 0,
   .pdSet (mgr 0) 0 0 (2 ^ 8), .padRelease ({ mgr 0 with tag := 2 ^ 16 }) 0, .padRelease (mgr 0) (2 ^ 8),
   .bankTest ({ mgr 0 with tag := 2 ^ 16 }) 0 none, .bankTest (mgr 0) (2 ^ 8) none,
   .tillerReset ({ mgr 0 with tag := 2 ^ 16 }) 0, .tillerReset (mgr 0) (2 ^ 8),
   .updateBegin ({ mgr 0 with tag := 2 ^ 16 }) [], .updateBegin (mgr 0) [0],
   .updateChunk ({ mgr 8 with tag := 2 ^ 16 }) 0 0 [], .updateChunk (mgr 8) (2 ^ 32) 0 [],
   .updateChunk (mgr 8) 0 (2 ^ 8) [], .updateChunk (mgr 8) 0 0 [0],
   .updateStatus ({ mgr 0 with tag := 2 ^ 16 }) 0, .updateStatus (mgr 0) (2 ^ 32),
   .updateActivate ({ mgr 0 with tag := 2 ^ 16 }), .updateConfirm ({ mgr 0 with tag := 2 ^ 16 }),
   .updateAbort ({ mgr 0 with tag := 2 ^ 16 }),
   .traceFilter ({ mgr 0 with tag := 2 ^ 16 }) (⟨1, 0, 0, 0, 0⟩ : FilterParams),
   .traceFilter (mgr 0) ({ (⟨1, 0, 0, 0, 0⟩ : FilterParams) with classEn := 2 ^ 32 }),
   .traceStream ({ mgr 0 with tag := 2 ^ 16 }) (⟨1, 0, 12, 1, 4096, 0⟩ : StreamParams),
   .traceStream (mgr 0) ({ (⟨1, 0, 12, 1, 4096, 0⟩ : StreamParams) with enable := 2 ^ 8 }),
   .traceRead ({ mgr 0 with tag := 2 ^ 16 }) 0, .traceRead (mgr 0) (2 ^ 64),
   .faultRead ({ mgr 0 with tag := 2 ^ 16 }), .faultClear ({ mgr 0 with tag := 2 ^ 16 }) 0,
   .faultClear (mgr 0) (2 ^ 64), .faultRelease ({ mgr 0 with tag := 2 ^ 16 }),
   .faultInject ({ mgr 0 with tag := 2 ^ 16 }) (⟨0, 0, 0, 0x81, 0, 0⟩ : FaultInj),
   .faultInject (mgr 0) ({ (⟨0, 0, 0, 0x81, 0, 0⟩ : FaultInj) with op := 2 ^ 8 }),
   .faultConfig ({ mgr 0 with tag := 2 ^ 16 }) (⟨1, 0, 0, 1, 0⟩ : FaultCfg),
   .faultConfig (mgr 0) ({ (⟨1, 0, 0, 1, 0⟩ : FaultCfg) with select := 2 ^ 8 }),
   .journalRead ({ mgr 0 with tag := 2 ^ 16 }) 0]
/-- Ill-formed commands: each breaks one check of its row. -/
def badRows3 : List Instr :=
  [.journalRead (mgr 0) (2 ^ 64), .smpWrite (2 ^ 16) [] 0, .smpWrite 0 [] (2 ^ 16), .smpWrite 0 (zeros 4097) 0,
   .dlUp 0 (2 ^ 5) false false, .speedChange 0 (2 ^ 3) false, .l0pPartnerRequest 0 (2 ^ 5),
   .configRequest ⟨0, 0⟩ (2 ^ 14) (.read 0), .configRequest ⟨0, 0⟩ 0 (.read 2),
   .configRequest ⟨0, 0⟩ 0 (.read 4096), .configRequest ⟨0, 0⟩ 0 (.write .numVfs (2 ^ 32)),
   .inboundRequest ({ bar2 true 0 4 (zeros 4) with len := 5 }), .expromRead 0 (2 ^ 32) 0 0,
   .expromRead 0 0 (2 ^ 13) 0, .expromRead 0 0 0 (2 ^ 14), .hostReadIssue 0 0 (2 ^ 14),
   .hostCompletion ({ (⟨⟨0, 0⟩, 0, 0, false, 1, 4, 0, zeros 4⟩ : HostCpl) with status := 3 }),
   .completionTimeout ⟨0, 0⟩ (2 ^ 14), .quarantineExpiry ⟨0, 0⟩ (2 ^ 14),
   .localMwr 0 ({ pkt 1 0 4 (zeros 4) with payload := zeros 8192 }),
   .localMrd 0 ({ pkt 1 0 4 (zeros 4) with payload := zeros 8192 }),
   .localAtom 0 ({ pkt 1 0 4 (zeros 4) with payload := zeros 8192 }),
   .localInterruptMsg 0 ({ pkt 1 0 4 (zeros 4) with payload := zeros 8192 }),
   .peerDoorbell 0 ({ pkt 1 0 4 (zeros 4) with payload := zeros 8192 }),
   .identReceived 0 ({ pkt 1 0 4 (zeros 4) with payload := zeros 8192 }),
   .localResponse 0 ({ pkt 1 0 4 (zeros 4) with payload := zeros 8192 }), .lrspTimeout 0 (2 ^ 12),
   .ts2Exchanged 0 (List.replicate 5 (0, [])), .prbsSyncLoss 0 0 (2 ^ 64) 0, .prbsSyncLoss 0 0 0 (2 ^ 64),
   .alignmentBlockReceive 0 (List.replicate 5 (0, [])),
   .grainReceived 0 ({ grain 2 0 0 0 (zeros 64) with payload := [] }), .linkPacketSend 0 0 (2 ^ 12),
   .initReceived 0 ({ initB false with version := 2 ^ 16 }), .laneNak 0 0 (2 ^ 8),
   .errorLineEvent ({ (⟨0, 0, ⟨0, 0, 0⟩, 0, 0, 0⟩ : Ev) with master := ⟨16, 0, 0⟩ }), .freqCountEnd (2 ^ 64),
   .wakeStepReady 18 [48], .vinLow (2 ^ 16), .jtagTracePtr (2 ^ 64)]
/-- Ill-formed commands: each breaks one check of its row. -/
def badRows4 : List Instr :=
  [.laneMarginingCommand 0 (2 ^ 8) 0, .laneMarginingCommand 0 0 (2 ^ 16)]
theorem test_wf_rows_good0 : goodRows0.all Instr.wf = true := by decide +kernel
theorem test_wf_rows_good1 : goodRows1.all Instr.wf = true := by decide +kernel
theorem test_wf_rows_good2 : goodRows2.all Instr.wf = true := by decide +kernel
theorem test_wf_rows_bad0 : badRows0.all (fun c => !c.wf) = true := by decide +kernel
theorem test_wf_rows_bad1 : badRows1.all (fun c => !c.wf) = true := by decide +kernel
theorem test_wf_rows_bad2 : badRows2.all (fun c => !c.wf) = true := by decide +kernel
theorem test_wf_rows_bad3 : badRows3.all (fun c => !c.wf) = true := by decide +kernel
theorem test_wf_rows_bad4 : badRows4.all (fun c => !c.wf) = true := by decide +kernel

/-! ### Witnesses for the hypotheses of the obligations, clause by clause -/

/-- Each clause of StepRunsFront has a state and operands that meet its hypotheses. -/
theorem test_wit_StepRunsFront :
    (∃ (c : Instr) (rest : List Instr) (s : State), s.pending = c :: rest) ∧
    (∃ (s : State), s.pending = []) ∧
    (∃ (c : Instr), (∀ wl g, c = .grainReceived wl g → g.payload.length = 64)) :=
  ⟨⟨.hotResetReceived 0, [], { live with pending := [.hotResetReceived 0] }, by decide +kernel⟩,
   ⟨live, by decide +kernel⟩,
   ⟨.hotResetReceived 0, fun _ _ h => nomatch h⟩⟩

/-- Each clause of StepKeepsInvariant has a state and operands that meet its hypotheses. -/
theorem test_wit_StepKeepsInvariant : (∃ (s : State) (t : State), Inv s ∧ step s = .next t) :=
  ⟨live, live, ⟨by unfold RegsOk; decide +kernel, by decide +kernel⟩, rfl⟩

/-- Each clause of FusesNeverChange has a state and operands that meet its hypotheses. -/
theorem test_wit_FusesNeverChange : (∃ (s : State) (t : State), step s = .next t) :=
  ⟨live, live, rfl⟩

/-- Each clause of StampAndEra has a state and operands that meet its hypotheses. -/
theorem test_wit_StampAndEra :
    (∃ (s : State), s.aonRuns = true ∧ s.cad.stamp < 2 ^ 64 ∧ s.cad.stamp / tickUnits % 1024 ≠ 1023) ∧
    (∃ (s : State), s.aonRuns = true ∧ s.cad.stamp / tickUnits % 1024 = 1023) ∧
    (∃ (s : State), s.aonRuns = true) ∧
    (∃ (s : State), s.aonRuns = true ∧ s.cad.stamp < 2 ^ 64 ∧ s.epoch ≠ 2 ^ 32 - 1 ∧ (∀ c,
      s.journal.ceiling = some c → s.eraEpoch + 32769 < c)) ∧
    (∃ (s : State), s.aonRuns = true ∧ s.epoch = 2 ^ 32 - 1) ∧
    (∃ (s : State), s.aonRuns = true ∧ s.epoch = 2 ^ 32 - 1 ∧ s.cad.stamp / tickUnits % 1024 = 1023) :=
  ⟨⟨live, by decide +kernel⟩,
   ⟨(live.modCad (fun c => { c with stamp := 1023 * tickUnits })), by decide +kernel⟩,
   ⟨live, by decide +kernel⟩,
   ⟨live, by decide +kernel⟩,
   ⟨(live.modCad (fun c => { c with stamp := (2 ^ 32 - 1) * 2 ^ 32 + 1023 * tickUnits })), by decide +kernel⟩,
   ⟨(live.modCad (fun c => { c with stamp := (2 ^ 32 - 1) * 2 ^ 32 + 1023 * tickUnits })), by decide +kernel⟩⟩

/-- Each clause of CadenceUnit has a state and operands that meet its hypotheses. -/
theorem test_wit_CadenceUnit :
    (∃ (w : Nat) (s : State), s.aonRuns = true ∧ w < 50) ∧
    (∃ (high : Bool) (w : Nat) (s : State), s.aonRuns = true ∧ 100 ≤ w ∧ s.rd .CAD_EN = 1 ∧ s.rd .CAD_SRC = 0 ∧
      high ≠ s.on .CAD_EDGE ∧ high ≠ s.cad.inLevel ∧ s.rd .CAD_STATE = 0) ∧
    (∃ (high : Bool) (w : Nat) (i : Nat) (s : State), s.aonRuns = true ∧ 100 ≤ w ∧ s.rd .CAD_EN = 1 ∧
      s.rd .CAD_SRC = 0 ∧ high ≠ s.on .CAD_EDGE ∧ high ≠ s.cad.inLevel ∧ s.rd .CAD_STATE = 1 ∧ s.cad.period ≤ 4 * i ∧
      s.cad.refs = 2 ∧ inRange i 1 = true ∧ inRange s.cad.prevInterval 1 = true ∧
      200 * (max i s.cad.prevInterval - min i s.cad.prevInterval) ≤ i + s.cad.prevInterval ∧
      (i + s.cad.prevInterval) % 2 = 0 ∧ s.cad.onNominal = false ∧ s.cad.toNominal = false) ∧
    (∃ (high : Bool) (w : Nat) (i : Nat) (sub : Fin 4194304) (s : State), s.aonRuns = true ∧ 100 ≤ w ∧
      s.rd .CAD_EN = 1 ∧ s.rd .CAD_SRC = 0 ∧ high ≠ s.on .CAD_EDGE ∧ high ≠ s.cad.inLevel ∧ s.rd .CAD_STATE = 2 ∧
      s.cad.period ≤ 4 * i ∧ s.stamp / tickUnits * tickUnits + sub.val ≤ s.stamp ∧ s.phase ≤ 6553) ∧
    (∃ (high : Bool) (w : Nat) (i : Nat) (sub : Fin 4194304) (s : State), s.aonRuns = true ∧ 100 ≤ w ∧
      s.rd .CAD_EN = 1 ∧ s.rd .CAD_SRC = 0 ∧ high ≠ s.on .CAD_EDGE ∧ high ≠ s.cad.inLevel ∧ s.rd .CAD_STATE = 2 ∧
      s.cad.period ≤ 4 * i ∧ s.stamp / tickUnits * tickUnits + sub.val ≤ s.stamp ∧ 58982 ≤ s.phase) ∧
    (∃ (s : State), s.rd .CAD_STATE = 2 ∧ s.cad.lastStamp + 98304 * 2 ^ 16 ≤ s.now) ∧
    (∃ (s : State), s.rd .CAD_STATE = 1) ∧
    (∃ (s : State), checkpointWaits s = true ∧ s.journal.ckQueuedAt + 1024 ≤ s.eraEpoch) ∧
    (∃ (fn : Fn) (en : Bool) (s : State), mgrWrites s fn = true ∧ s.rd .CAD_LOCK = 0 ∧ s.on .CAD_EN ≠ en) ∧
    (∃ (fn : Fn) (src : Bool) (s : State), mgrWrites s fn = true ∧ s.rd .CAD_LOCK = 0 ∧ s.on .CAD_SRC ≠ src) ∧
    (∃ (fn : Fn) (s : State), mgrWrites s fn = true ∧ s.rd .CAD_LOCK = 0) :=
  ⟨⟨0, live, by decide +kernel⟩,
   ⟨true, 100, (live.wr .CAD_STATE 0), by decide +kernel⟩,
   ⟨true, 100, 250000, ((live.wr .CAD_STATE 1).modCad (fun x => { x with refs := 2, prevInterval := 250000, onNominal := false, period := 250000 })),
     by decide +kernel⟩,
   ⟨true, 100, 400000000, 0, live, by decide +kernel⟩,
   ⟨true, 100, 400000000, 0, (live.modCad (fun x => { x with stamp := 58982 * 2 ^ 16 })), by decide +kernel⟩,
   ⟨(live.modCad (fun x => { x with stamp := 98304 * 2 ^ 16 })), by decide +kernel⟩,
   ⟨(live.wr .CAD_STATE 1), by decide +kernel⟩,
   ⟨((live.modJournal (fun j => { j with queue := [⟨.checkpoint 0 0, 0, 0, 0, 0, 0, 0, 0⟩] })).modCad (fun c => { c with stamp := 1024 * 2 ^ 32 })),
     by decide +kernel⟩,
   ⟨⟨0, 0⟩, false, live, by decide +kernel⟩,
   ⟨⟨0, 0⟩, true, live, by decide +kernel⟩,
   ⟨⟨0, 0⟩, live, by decide +kernel⟩⟩

/-- Each clause of CadenceAnchors has a state and operands that meet its hypotheses. -/
theorem test_wit_CadenceAnchors :
    (∃ (r : CmdReq) (hl : Nat) (s : State), Served 0x0601 0 (hasLink s r.iss hl) r s ∧ r.plen = 16 ∧
      s.present hl = true ∧ s.tlOn (hlTiller hl) = true ∧ s.domOn (dHphy (hlTiller hl)) = true ∧
      (s.cf (pfIdx hl)).ptmEn = true ∧ s.rd .CAD_STATE ≠ 1 ∧ s.keeper.anchor = none ∧
      (((r.notBefore + 2 ^ 32 - s.epoch) % 2 ^ 32) ≤ 2 ^ 24 ∨ 2 ^ 31 < ((r.notBefore + 2 ^ 32 - s.epoch) % 2 ^ 32))) ∧
    (∃ (hl : Nat) (tai : Nat) (e : Sched) (s : State), keeperUp s = true ∧
      dueSched s (fun e => match e.cmd with | .cadenceAnchor _ _ => true | _ => false) = some e ∧
      e.cmd = .cadenceAnchor hl tai ∧ e.mgr = true ∧ e.req.plen = 16 ∧ e.req.resv = false ∧
      unbound s e.req.iss = false ∧ foreignTarget s e.req = false ∧ s.react = false ∧
      (e.req.target < 256 ∨ e.req.target = 0xFFFF) ∧ tenantThere 0x0601 e.req s = true ∧
      (atDue s e.req.notBefore).isSome = true ∧ s.present hl = true ∧ s.tlOn (hlTiller hl) = true ∧
      s.domOn (dHphy (hlTiller hl)) = true ∧ (s.cf (pfIdx hl)).ptmEn = true ∧ s.rd .CAD_STATE ≠ 1) ∧
    (∃ (a : AnchorS) (s : State), s.keeper.anchor = some a ∧ draining s = false) ∧
    (∃ (a : AnchorS) (s : State), s.keeper.anchor = some a ∧ draining s = false) :=
  ⟨⟨mgr 16, 0, live, by decide +kernel⟩,
   ⟨0, 0, sched 16 (.cadenceAnchor 0 0), due 16 (.cadenceAnchor 0 0), by decide +kernel⟩,
   ⟨⟨mgr 16, 0, 0, 0, 0, 0⟩, (live.modKeeper (fun x => { x with anchor := some ⟨mgr 16, 0, 0, 0, 0, 0⟩ })),
     by decide +kernel⟩,
   ⟨⟨mgr 16, 0, 0, 0, 0, 0⟩, (live.modKeeper (fun x => { x with anchor := some ⟨mgr 16, 0, 0, 0, 0, 0⟩ })),
     by decide +kernel⟩⟩

/-- Each clause of HostLinkResets has a state and operands that meet its hypotheses. -/
theorem test_wit_HostLinkResets :
    (∃ (hl : Hl) (s : State), s.pins.perst.testBit hl = false ∧ hlLive s hl = true) ∧
    (∃ (hl : Hl) (s : State), hlLive s hl = true ∧ s.dlUp hl = true) ∧
    (∃ (hl : Hl) (s : State), hlLive s hl = true ∧ s.rd .HL_LTSSM hl ≠ 10 ∧ s.rd .HL_LTSSM hl ≠ 7) ∧
    (∃ (hl : Hl) (s : State), hlLive s hl = true ∧ (s.hl hl).disabled = true ∧ s.rd .HL_LTSSM hl = 7) ∧
    (∃ (fn : Fn) (hl : Hl) (s : State), mgrWrites s fn = true ∧ hlLive s hl = true) ∧
    (∃ (hl : Hl) (s : State) (t : State), hlLive s hl = true ∧ s.dlUp hl = true ∧ exec (.dlDown hl) s = .next t) :=
  ⟨⟨0, live, by decide +kernel⟩,
   ⟨0, live, by decide +kernel⟩,
   ⟨0, live, by decide +kernel⟩,
   ⟨0, ((live.wr .HL_LTSSM 7).modHl 0 (fun x => { x with disabled := true })), by decide +kernel⟩,
   ⟨⟨0, 0⟩, 0, live, by decide +kernel⟩,
   ⟨0, live, _, by decide +kernel, by decide +kernel, rfl⟩⟩

/-- Each clause of HostLinkBringUp has a state and operands that meet its hypotheses. -/
theorem test_wit_HostLinkBringUp :
    (∃ (hl : Hl) (s : State), hlLive s hl = true ∧ hphyReady s (hlTiller hl) = true ∧ s.rd .HL_HOLD hl = 0 ∧
      s.pins.perst.testBit hl = false ∧ s.rd .HL_LTSSM hl = 10) ∧
    (∃ (hl : Hl) (width : Nat) (s : State), hlLive s hl = true ∧ hphyReady s (hlTiller hl) = true ∧
      s.rd .HL_LTSSM hl = 0 ∧ s.pins.perst.testBit hl = false ∧ width ∈ [1, 2, 4, 8, 16] ∧
      width ≤ s.rd .HL_MAX_WIDTH hl) ∧
    (∃ (hl : Hl) (s : State), keeperUp s = true ∧ hlLive s hl = true ∧ hphyReady s (hlTiller hl) = true) ∧
    (∃ (port : Tiller) (hl : Hl) (s : State), hlTiller hl = port ∧ hlLive s hl = true) :=
  ⟨⟨0, (live.wr .HL_LTSSM 10), by decide +kernel⟩,
   ⟨0, 16, (live.wr .HL_LTSSM 0), by decide +kernel⟩,
   ⟨0, live, by decide +kernel⟩,
   ⟨0, 0, live, by decide +kernel⟩⟩

/-- Each clause of HostLinkModes has a state and operands that meet its hypotheses. -/
theorem test_wit_HostLinkModes :
    (∃ (fn : Fn) (hl : Hl) (s : State), mgrWrites s fn = true ∧ hlLive s hl = true ∧ s.dlUp hl = true) ∧
    (∃ (hl : Hl) (speed : Nat) (s : State), hlLive s hl = true ∧ s.dlUp hl = true ∧ s.rd .HL_LTSSM hl = 3 ∧ 1 ≤ speed ∧
      speed ≤ targetSpeed s hl ∧ (speed = 6 → s.rd .HL_FLIT hl = 1)) ∧
    (∃ (hl : Hl) (speed : Nat) (s : State) (n : _), hlLive s hl = true ∧ s.dlUp hl = true ∧ s.rd .HL_LTSSM hl = 3 ∧
      1 ≤ speed ∧ speed ≤ targetSpeed s hl ∧ (speed = 6 → s.rd .HL_FLIT hl = 1) ∧ n ∈ [3, 4, 5, 6] ∧ 3 ≤ speed ∧
      n ≠ speed ∧ (s.hl hl).eqSpeeds.testBit n = true ∧ (∀ m ∈ [3, 4, 5, 6],
      n < m → m ≠ speed → (s.hl hl).eqSpeeds.testBit m = false)) ∧
    (∃ (hl : Hl) (width : Nat) (s : State), l0pRuns s hl = true ∧ width ∈ [1, 2, 4, 8, 16] ∧
      width ≤ (s.hl hl).fullWidth) ∧
    (∃ (hl : Hl) (s : State), (s.regs.Pairwise (fun a b => a.1.lt b.1 = true) ∧ ∀ e ∈ s.regs, e.2 < 2 ^ e.1.f.width ∧
      e.2 ≠ e.1.f.reset e.1.i e.1.j) ∧ l0pAuto s hl = true ∧ l0pMin s hl ≤ s.rd .HL_CUR_WIDTH hl / 2 ∧
      s.rd .HL_L0P_WINDOW hl ≤ (s.hl hl).lowTicks) ∧
    (∃ (hl : Hl) (s : State), l0pAuto s hl = true ∧ l0pBusy s hl = true ∧ (s.hl hl).fullWidth ≤ 16) ∧
    (∃ (hl : Hl) (s : State), hlLive s hl = true ∧ s.dlUp hl = true ∧ s.rd .HL_LTSSM hl = 3 ∧
      (s.cf (pfIdx hl)).aspmL1 = true ∧ s.rd .HL_L1_IDLE_TICKS hl ≠ 0 ∧
      s.rd .HL_L1_IDLE_TICKS hl ≤ (s.hl hl).idleTicks ∧ (∀ g ∈ s.tags, g.req.fn.hl = hl → g.quarantined = true) ∧
      (∀ q ∈ s.hostQ, q.fn.hl = hl → q.frozen = true)) ∧
    (∃ (hl : Hl) (substate : Fin 3) (s : State), hlLive s hl = true ∧ s.dlUp hl = true ∧ s.rd .HL_LTSSM hl = 3 ∧
      (substate.val ≠ 0 → (s.cf (pfIdx hl)).l1ss.testBit (2 - substate.val) = true)) ∧
    (∃ (hl : Hl) (s : State), hlLive s hl = true ∧ s.rd .HL_LTSSM hl = 5) ∧
    (∃ (hl : Hl) (s : State), hlLive s hl = true ∧ s.dlUp hl = true) ∧
    (∃ (hl : Hl) (s : State), hlLive s hl = true ∧ s.dlUp hl = true ∧ (s.cf (pfIdx hl)).ltrEn = true ∧
      (s.hl hl).ltrActive = false ∧ (∃ q ∈ s.hostQ, q.fn.hl = hl ∧ q.frozen = false)) ∧
    (∃ (hl : Hl) (s : State), hlLive s hl = true ∧ s.dlUp hl = true ∧ (s.cf (pfIdx hl)).ltrEn = true ∧
      (s.hl hl).ltrActive = true ∧ s.rd .HL_LTR_IDLE_TICKS hl ≠ 0 ∧ s.rd .HL_LTR_IDLE_TICKS hl ≤ (s.hl hl).idleTicks) ∧
    (∃ (hl : Hl) (lane : Nat) (s : State), hlLive s hl = true ∧ s.dlUp hl = true ∧ 4 ≤ s.rd .HL_CUR_SPEED hl ∧
      lane < s.rd .HL_CUR_WIDTH hl) :=
  ⟨⟨⟨0, 0⟩, 0, live, by decide +kernel⟩,
   ⟨0, 6, live, by decide +kernel⟩,
   by
      refine ⟨0, 6, live, 5, ?_⟩
      and_intros <;> first
        | decide +kernel
        | exact fun m hm h h2 => by fin_cases hm <;> revert h h2 <;> decide +kernel,
   ⟨0, 16, live, by decide +kernel⟩,
   ⟨0, (live.modHl 0 (fun x => { x with lowTicks := 64 })), by decide +kernel⟩,
   ⟨0, (live.modHl 0 (fun x => { x with txBytes := 100000000 })), by decide +kernel⟩,
   ⟨0, live, by decide +kernel⟩,
   ⟨0, 0, live, by decide +kernel⟩,
   ⟨0, (live.wr .HL_LTSSM 5), by decide +kernel⟩,
   ⟨0, live, by decide +kernel⟩,
   ⟨0, { live with hostQ := [hreq .read 4 [] (.stream none)] }, by decide +kernel⟩,
   ⟨0, (live.modHl 0 (fun x => { x with ltrActive := true })), by decide +kernel⟩,
   ⟨0, 0, live, by decide +kernel⟩⟩

/-- Each clause of FunctionControl has a state and operands that meet its hypotheses. -/
theorem test_wit_FunctionControl :
    (∃ (hl : Hl) (s : State), cfgServed s (pfIdx hl) = true ∧ (s.cf (pfIdx hl)).vfEnable = false) ∧
    (∃ (hl : Hl) (s : State), cfgServed s (pfIdx hl) = true) ∧
    (∃ (hl : Hl) (s : State), hlLive s hl = true ∧ (s.hl hl).vfPending = true ∧ (s.cf (pfIdx hl)).vfEnable = true) ∧
    (∃ (fn : Fn) (s : State), cfgServed s (fnIdx fn) = true) ∧
    (∃ (hl : Hl) (s : State), cfgServed s (pfIdx hl) = true) ∧
    (∃ (hl : Hl) (v : Fin 64) (s : State), cfgServed s (pfIdx hl) = true ∧ 6 ≤ v.val ∧ v.val ≤ 20) :=
  ⟨⟨0, live, by decide +kernel⟩,
   ⟨0, live, by decide +kernel⟩,
   ⟨0, ((live.modHl 0 (fun x => { x with vfPending := true })).modCf 0 (fun x => { x with vfEnable := true })),
     by decide +kernel⟩,
   ⟨⟨0, 0⟩, live, by decide +kernel⟩,
   ⟨0, live, by decide +kernel⟩,
   ⟨0, 6, live, by decide +kernel⟩⟩

/-- Each clause of NumVfsWrites has a state and operands that meet its hypotheses. -/
theorem test_wit_NumVfsWrites :
    (∃ (hl : Hl) (s : State), cfgServed s (pfIdx hl) = true ∧ (s.cf (pfIdx hl)).vfEnable = false) ∧
    (∃ (hl : Hl) (s : State), cfgServed s (pfIdx hl) = true ∧ (s.cf (pfIdx hl)).vfEnable = true) :=
  ⟨⟨0, live, by decide +kernel⟩,
   ⟨0, (live.modCf 0 (fun x => { x with vfEnable := true })), by decide +kernel⟩⟩

/-- Each clause of ConfigurationAndRom has a state and operands that meet its hypotheses. -/
theorem test_wit_ConfigurationAndRom :
    (∃ (fn : Fn) (s : State), hlLive s fn.hl = true ∧ s.dlUp fn.hl = true ∧ inboundFull s fn.hl = false ∧
      fnExists s (fnIdx fn) = false) ∧
    (∃ (fn : Fn) (s : State), hlLive s fn.hl = true ∧ s.dlUp fn.hl = true ∧ inboundFull s fn.hl = false ∧
      fnExists s (fnIdx fn) = true ∧ cfgServed s (fnIdx fn) = false) ∧
    (∃ (fn : Fn) (off : Nat) (s : State), fn.vf.val = 0 ∧ cfgServed s (fnIdx fn) = true ∧ off < 4) ∧
    (∃ (fn : Fn) (s : State), fnExists s (fnIdx fn) = true ∧ cfgServed s (fnIdx fn) = true) ∧
    (∃ (hl : Hl) (off : Nat) (len : Nat) (s : State), hlLive s hl = true ∧ s.dlUp hl = true ∧
      inboundFull s hl = false ∧
      ((s.cf (pfIdx hl)).mse = false ∨ (s.cf (pfIdx hl)).romEn = false ∨ (s.cf (pfIdx hl)).d3 = true ∨ 2 ^ 20 < off + len)) ∧
    (∃ (hl : Hl) (off : Nat) (len : Nat) (s : State), hlLive s hl = true ∧ s.dlUp hl = true ∧
      inboundFull s hl = false ∧ s.domOn dKeep = true ∧ (s.cf (pfIdx hl)).mse = true ∧ (s.cf (pfIdx hl)).romEn = true ∧
      (s.cf (pfIdx hl)).d3 = false ∧ off + len ≤ 2 ^ 20 ∧ 1 ≤ len ∧ len ≤ 128 ∧ (∀ q ∈ s.inRds, q.id ≤ s.pktCount)) :=
  ⟨⟨⟨0, 1⟩, live, by decide +kernel⟩,
   ⟨⟨0, 0⟩, (live.wr .PW_FN_READY 0), by decide +kernel⟩,
   ⟨⟨0, 0⟩, 0, live, by decide +kernel⟩,
   ⟨⟨0, 0⟩, live, by decide +kernel⟩,
   ⟨0, 0, 0, live, by decide +kernel⟩,
   ⟨0, 0, 128, (live.modCf 0 (fun x => { x with romEn := true })), by decide +kernel⟩⟩

/-- Each clause of RegisterWrites has a state and operands that meet its hypotheses. -/
theorem test_wit_RegisterWrites :
    (∃ (a : RegAccess) (s : State), ((a.size ≠ 4 ∧ a.size ≠ 8) ∨ a.off % a.size ≠ 0 ∨ (a.fn.vf.val ≠ 0 ∧
      s.boundTn (fnIdx a.fn) = none)) ∧ inboundFull s a.fn.hl = false) ∧
    (∃ (a : RegAccess) (s : State), a.fn.vf.val = 0 ∧ a.bar = 0 ∧ s.isMgr (fnIdx a.fn) = false ∧
      (writePlace s a.fn 0 a.off).bind (placeDark s) = none ∧ accessUr s a.fn a.off a.size = false ∧
      inboundFull s a.fn.hl = false) ∧
    (∃ (a : RegAccess) (s : State), inboundFull s a.fn.hl = true) ∧
    (∃ (fn : Fn) (hl : Hl) (s : State), mgrWrites s fn = true ∧ recovery s = false ∧ s.present hl = true ∧
      s.tlOn (hlTiller hl) = true) ∧
    (∃ (fn : Fn) (s : State), mgrWrites s fn = true) ∧
    (∃ (fn : Fn) (s : State), fn.vf.val = 0 ∧ fnWrites s fn = true) ∧
    (∃ (fn : Fn) (v : Nat) (s : State), mgrWrites s fn = true ∧ s.rd .CAD_LOCK = 0 ∧ v.testBit 31 = true) :=
  ⟨⟨⟨⟨0, 0⟩, 0, 2, 4, 0⟩, live, by decide +kernel⟩,
   ⟨⟨⟨4, 0⟩, 0, 0x320004, 4, 0⟩, live, by decide +kernel⟩,
   by
      refine ⟨⟨⟨0, 0⟩, 0, 0, 4, 0⟩, live.modHl 0 (fun l => { l with
        inWait := List.replicate (Config.inboundDepth + 1) ⟨bar2 false 0 4 [], 0, 0, 0, 0, 256, 0⟩ }), ?_⟩
      simp [inboundFull, Sys2Proof.Laws.modHl_hl, List.replicate_succ],
   ⟨⟨0, 0⟩, 0, live, by decide +kernel⟩,
   ⟨⟨0, 0⟩, live, by decide +kernel⟩,
   ⟨⟨0, 0⟩, live, by decide +kernel⟩,
   ⟨⟨0, 0⟩, 0x80000000, live, by decide +kernel⟩⟩

/-- Each clause of LocksAndLatches has a state and operands that meet its hypotheses. -/
theorem test_wit_LocksAndLatches :
    (∃ (fn : Fn) (v : BitVec 32) (s : State), mgrWrites s fn = true ∧ v.toNat.testBit 31 = true) ∧
    (∃ (fn : Fn) (v : BitVec 32) (s : State), mgrWrites s fn = true ∧ v.toNat.testBit 31 = true ∧ s.rd .CAD_LOCK = 0 ∧
      (s.regs.Pairwise (fun a b => a.1.lt b.1 = true) ∧ ∀ e ∈ s.regs, e.2 < 2 ^ e.1.f.width ∧
      e.2 ≠ e.1.f.reset e.1.i e.1.j)) ∧
    (∃ (fn : Fn) (s : State), mgrWrites s fn = true ∧ s.rd .CAD_LOCK = 1) ∧
    (∃ (fn : Fn) (s : State), fn.vf.val = 0 ∧ s.cad.stamp < 2 ^ 64 ∧ inboundFull s fn.hl = false) ∧
    (∃ (fn : Fn) (s : State), fn.vf.val = 0 ∧ inboundFull s fn.hl = false ∧ s.domOn dKeep = true) ∧
    (∃ (fn : Fn) (s : State), fn.vf.val = 0 ∧ inboundFull s fn.hl = false) ∧
    (∃ (a : RegAccess) (write : Bool) (d : Nat) (s : State), accessUr s a.fn a.off a.size = false ∧
      darkAt s a.fn a.bar.val a.off ((if write then writePlace else place) s a.fn a.bar.val a.off) = some d ∧ d < 26 ∧
      inboundFull s a.fn.hl = false) :=
  ⟨⟨⟨0, 0⟩, 0x80000000, live, by decide +kernel⟩,
   ⟨⟨0, 0⟩, 0x80000001, live, by decide +kernel⟩,
   ⟨⟨0, 0⟩, (live.wr .CAD_LOCK 1), by decide +kernel⟩,
   ⟨⟨0, 0⟩, live, by decide +kernel⟩,
   ⟨⟨0, 0⟩, live, by decide +kernel⟩,
   ⟨⟨0, 0⟩, live, by decide +kernel⟩,
   ⟨⟨⟨0, 0⟩, 0, 0x200000, 4, 0⟩, false, 2, (live.wr .PW_STATE 0 0 2), by decide +kernel⟩⟩

/-- Each clause of CommandRings has a state and operands that meet its hypotheses. -/
theorem test_wit_CommandRings :
    (∃ (fn : Fn) (s : State), fnWrites s fn = true ∧ s.on .KR_EN (fnIdx fn) = false) ∧
    (∃ (fn : Fn) (s : State), fnWrites s fn = true ∧ s.on .KR_EN (fnIdx fn) = true) ∧
    (∃ (fn : Fn) (s : State), fnWrites s fn = true ∧ s.on .KR_EN (fnIdx fn) = true) ∧
    (∃ (fn : Fn) (s : State), fnWrites s fn = true) ∧
    (∃ (f : Nat) (s : State), s.domOn dKeep = true ∧ (s.rd .KP_KSTATE = 1 ∨ s.rd .KP_KSTATE = 2) ∧
      s.keeper.ctxs.length < 16 ∧
      nextRing ((enabledRings s).filter (ringReady s) ++ (if s.keeper.smpHeld < s.keeper.smpCmds.length then [16384] else [])) s.keeper.rr = some f ∧
      f < 16384 ∧ freeSlots s f ≠ 0) ∧
    (∃ (p : Bytes) (rest : List Bytes) (s : State), s.domOn dKeep = true ∧
      (s.rd .KP_KSTATE = 1 ∨ s.rd .KP_KSTATE = 2) ∧ s.keeper.ctxs.length < 16 ∧
      nextRing ((enabledRings s).filter (ringReady s) ++ (if s.keeper.smpHeld < s.keeper.smpCmds.length then [16384] else [])) s.keeper.rr = some 16384 ∧
      (∀ c ∈ s.keeper.ctxs, c.unknown = 0) ∧ s.keeper.smpCmds.drop s.keeper.smpHeld = p :: rest ∧
      num p 0 2 ∈ opcodes) :=
  ⟨⟨⟨0, 0⟩, live, by decide +kernel⟩,
   ⟨⟨0, 0⟩, (live.wr .KR_EN 1), by decide +kernel⟩,
   ⟨⟨0, 0⟩, (live.wr .KR_EN 1), by decide +kernel⟩,
   ⟨⟨0, 0⟩, live, by decide +kernel⟩,
   ⟨0, (((live.wr .KR_EN 1).wr .KR_ACTIVE 1).wr .KR_CMD_PI 1), by decide +kernel⟩,
   ⟨le 2 0x0100 ++ zeros 14, [], live.modKeeper (fun k => { k with smpCmds := [le 2 0x0100 ++ zeros 14] }),
     by decide +kernel⟩⟩

/-- Each clause of ReplyWritten has a state and operands that meet its hypotheses. -/
theorem test_wit_ReplyWritten :
    (∃ (fn : Fn) (r : CmdReq) (data : Bytes) (s : State), r.iss = .fn fn ∧ data ≠ [] ∧ s.on .KR_EN (fnIdx fn) = true ∧
      s.tlOn (hlTiller fn.hl) = true ∧ draining s = false ∧ (∀ c ∈ s.keeper.ctxs, c.unknown = 0)) ∧
    (∃ (fn : Fn) (r : CmdReq) (status : Nat) (data : Bytes) (s : State), r.iss = .fn fn ∧ data ≠ [] ∧
      s.on .KR_EN (fnIdx fn) = true ∧ s.tlOn (hlTiller fn.hl) = true ∧ draining s = false ∧ (∀ c ∈ s.keeper.ctxs,
      c.unknown = 0) ∧ status ≠ 0) :=
  ⟨⟨⟨0, 0⟩, mgr 0, [0], (live.wr .KR_EN 1), by decide +kernel⟩,
   ⟨⟨0, 0⟩, mgr 0, 5, [0], (live.wr .KR_EN 1), by decide +kernel⟩⟩

/-- Each clause of KeeperRestarts has a state and operands that meet its hypotheses. -/
theorem test_wit_KeeperRestarts :
    (∃ (s : State), keeperUp s = true) ∧
    (∃ (s : State), s.domOn dKeep = true ∧ s.rd .KP_KSTATE = 3) ∧
    (∃ (s : State), s.domOn dKeep = true ∧ s.rd .KP_KSTATE = 4) ∧
    (∃ (p : FilterParams) (e : Sched) (s : State), s.domOn dKeep = true ∧ s.rd .KP_KSTATE = 2 ∧ s.domOn dHub = true ∧
      s.react = false ∧ dueSched s (fun e => (schedCmd e).isSome) = some e ∧ e.cmd = .traceFilter p ∧ e.mgr = true ∧
      e.req.plen = 64 ∧ e.req.resv = false ∧ unbound s e.req.iss = false ∧ foreignTarget s e.req = false ∧
      (e.req.target < 256 ∨ e.req.target = 0xFFFF) ∧ tenantThere 0x0901 e.req s = true ∧ p.classEn < 2 ^ 14 ∧
      p.flags < 4) :=
  ⟨⟨live, by decide +kernel⟩,
   ⟨(live.wr .KP_KSTATE 3), by decide +kernel⟩,
   ⟨(live.wr .KP_KSTATE 4), by decide +kernel⟩,
   ⟨⟨0, 0, 0, 0, 0⟩, sched 64 (.traceFilter ⟨0, 0, 0, 0, 0⟩), due 64 (.traceFilter ⟨0, 0, 0, 0, 0⟩), by decide +kernel⟩⟩

/-- Each clause of SidebandPort has a state and operands that meet its hypotheses. -/
theorem test_wit_SidebandPort :
    (∃ (len : Nat) (p : Bytes) (s : State), s.aonRuns = true ∧ (len < 32 ∨ 4096 < len ∨ len < 32 + num p 4 2)) ∧
    (∃ (len : Nat) (p : Bytes) (crc : Nat) (s : State), s.aonRuns = true ∧ 32 ≤ len ∧ len ≤ 4096 ∧
      32 + num p 4 2 ≤ len ∧ p.length = len ∧ crc16 (le 2 len ++ p) ≠ crc) ∧
    (∃ (len : Nat) (p : Bytes) (crc : Nat) (s : State), s.aonRuns = true ∧ 32 ≤ len ∧ len ≤ 4096 ∧
      32 + num p 4 2 ≤ len ∧ p.length = len ∧ crc16 (le 2 len ++ p) = crc ∧ 8 ≤ s.keeper.smpCmds.length) ∧
    (∃ (len : Nat) (p : Bytes) (crc : Nat) (s : State), s.aonRuns = true ∧ 32 ≤ len ∧ len ≤ 4096 ∧
      32 + num p 4 2 ≤ len ∧ p.length = len ∧ crc16 (le 2 len ++ p) = crc ∧ s.keeper.smpCmds.length < 8 ∧
      num p 0 2 ∈ opcodes) ∧
    (∃ (p : Bytes) (rest : List Bytes) (s : State), s.aonRuns = true ∧ s.keeper.smpReplies = p :: rest) ∧
    (∃ (s : State), s.aonRuns = true ∧ s.keeper.smpReplies = []) ∧
    (∃ (s : State), s.aonRuns = true) :=
  ⟨⟨0, [], live, by decide +kernel⟩,
   ⟨32, zeros 32, 1, live, by decide +kernel⟩,
   ⟨32, zeros 32, crc16 (le 2 32 ++ zeros 32),
     (live.modKeeper (fun x => { x with smpCmds := List.replicate 8 (zeros 32) })), by decide +kernel⟩,
   ⟨32, (0 :: 1 :: zeros 30), crc16 (le 2 32 ++ (0 :: 1 :: zeros 30)), live, by decide +kernel⟩,
   ⟨[0], [], (live.modKeeper (fun x => { x with smpReplies := [[0]] })), by decide +kernel⟩,
   ⟨live, by decide +kernel⟩,
   ⟨live, by decide +kernel⟩⟩

/-- Each clause of KeeperInformation has a state and operands that meet its hypotheses. -/
theorem test_wit_KeeperInformation :
    (∃ (r : CmdReq) (s : State), Served 0x0100 (targetOf s r) true r s ∧ r.plen = 0) ∧
    (∃ (r : CmdReq) (s : State), Served 0x0101 (targetOf s r) true r s ∧ r.plen = 0) ∧
    (∃ (r : CmdReq) (s : State), Served 0x0102 (targetOf s r) true r s ∧ r.plen = 8 ∧ issuerDir s r.iss ≠ []) ∧
    (∃ (r : CmdReq) (offset : Nat) (d : Bytes) (s : State), Served 0x0102 (targetOf s r) true r s ∧ r.plen = 8 ∧
      offset ≠ 0 ∧ snapshotOf s r.iss = some d ∧ offset < d.length) ∧
    (∃ (r : CmdReq) (tag : Nat) (e : Sched) (s : State), Served 0x0103 (targetOf s r) true r s ∧ r.plen = 4 ∧
      s.keeper.sched.find? (fun e => decide (e.req.iss = r.iss) && e.req.tag == tag) = some e) ∧
    (∃ (r : CmdReq) (new : Nat) (policy : Nat) (s : State),
      Served 0x0110 (targetOf s r) (hasMgr s r.iss || (decide (r.iss = .smp) && s.store.smpTake)) r s ∧ r.plen = 4 ∧
      new < 256 ∧ new / 32 % 4 = 0 ∧ policy < 256 ∧ policy / 2 % 64 = 0 ∧
      (new.testBit 7 = true ∨ (s.present (new % 32) = true ∧ s.dlUp (new % 32) = true))) ∧
    (∃ (r : CmdReq) (offset : Nat) (total : Nat) (s : State), Served 0x0120 (targetOf s r) (hasMgr s r.iss) r s ∧
      8 ≤ r.plen ∧ (offset = 0 ∨ (offset = s.keeper.exprom.length ∧ total = s.keeper.expromTotal)) ∧
      offset + (r.plen - 8) ≤ total ∧ total ≤ 524288) ∧
    (∃ (s : State), s.keeper.expromTotal ≠ 0 ∧ s.keeper.expromEpoch + 64 ≤ s.eraEpoch) ∧
    (∃ (r : CmdReq) (s : State), Served 0x0121 (targetOf s r) (hasMgr s r.iss) r s ∧ r.plen = 4) :=
  ⟨⟨mgr 0, live, by decide +kernel⟩,
   ⟨mgr 0, live, by decide +kernel⟩,
   ⟨mgr 8, (live.modHl 0 (fun x => { x with dir := [1, 2, 3] })), by decide +kernel⟩,
   ⟨mgr 8, 1, [1, 2, 3], (live.modKeeper (fun x => { x with snapshots := [(ringIdx (.fn ⟨0, 0⟩), [1, 2, 3])] })),
     by decide +kernel⟩,
   ⟨mgr 4, 1, sched 0 .logHarvest, (live.modKeeper (fun x => { x with sched := [sched 0 .logHarvest] })),
     by decide +kernel⟩,
   ⟨mgr 4, 0, 0, live, by decide +kernel⟩,
   ⟨mgr 12, 0, 8, live, by decide +kernel⟩,
   ⟨((live.modKeeper (fun x => { x with expromTotal := 8 })).modCad (fun x => { x with stamp := 64 * 2 ^ 32 })),
     by decide +kernel⟩,
   ⟨mgr 4, live, by decide +kernel⟩⟩

/-- Each clause of TenantCommands has a state and operands that meet its hypotheses. -/
theorem test_wit_TenantCommands :
    (∃ (r : CmdReq) (p : TenantParams) (n : Nat) (s : State), Served 0x0201 (targetOf s r) (hasMgr s r.iss) r s ∧
      r.plen = 48 ∧ s.present p.hl = true ∧ 1 ≤ p.vf ∧ p.vf ≤ 256 ∧ p.vf ≤ tget 0 s.store.totalVfs p.hl ∧
      p.weight < 256 ∧ tnBounds p 0x1FF p.allowance p.cbUnits = true ∧
      tnDark s p.hl ((List.range 8).filter (fun t => p.chTiller.getD t 0 != 0)) = false ∧
      s.boundTn (p.hl * 512 + p.vf) = none ∧ (r.target ≠ 0xFFFF → s.tnState r.target = 0 ∧
      ctxLost s r.target = false) ∧ newTnid s r.target = some n ∧ tnShort s p 0x1FF 256 p.hl = false) ∧
    (∃ (r : CmdReq) (p : TenantParams) (s : State), Served 0x0202 (targetOf s r) (hasMgr s r.iss) r s ∧ Acts r s ∧
      r.plen = 48 ∧ (cmdTenantModify r p).params s = true ∧ (cmdTenantModify r p).dark s = false ∧
      modifyCheck (targetOf s r) p s = 0) ∧
    (∃ (r : CmdReq) (s : State), Served 0x0203 (targetOf s r) (hasLink s r.iss (s.rd .TN_HL (targetOf s r))) r s ∧
      Acts r s ∧ r.plen = 0 ∧ s.domOn dHub = true ∧ s.tnState (targetOf s r) = 1) ∧
    (∃ (r : CmdReq) (s : State), Served 0x0203 (targetOf s r) (hasLink s r.iss (s.rd .TN_HL (targetOf s r))) r s ∧
      Acts r s ∧ r.plen = 0 ∧ s.domOn dHub = true ∧ s.tnState (targetOf s r) = 3) ∧
    (∃ (tn : Tnid) (s : State), s.tnState tn = 2) ∧
    (∃ (r : CmdReq) (s : State), Served 0x0204 (targetOf s r) (hasMgr s r.iss) r s ∧ targetOf s r ≠ 0xFFFF ∧
      r.plen = 0 ∧ s.domOn dHub = true ∧ dueFirst s (targetOf s r) = false) ∧
    (∃ (tn : Tnid) (s : State), s.tnState tn = 5 ∧ tnDrained s tn = true) ∧
    (∃ (r : CmdReq) (s : State), Served 0x0205 (targetOf s r) (hasTenant s r) r s ∧ targetOf s r ≠ 0xFFFF ∧
      r.plen = 0 ∧ s.domOn dHub = true) ∧
    (∃ (r : CmdReq) (hl : Nat) (b : Nat) (total : Nat) (init : Nat) (s : State),
      Served 0x0210 (targetOf s r) (hasMgr s r.iss) r s ∧ r.plen = 8 ∧ s.present hl = true ∧ 20 ≤ b ∧ b ≤ 32 ∧
      init ≤ total ∧ (s.cf (pfIdx hl)).vfEnable = false ∧ (∀ n ∈ heldTns s,
      s.tnState n ≠ 5 → s.rd .TN_HL n = hl → s.rd .TN_VF n ≤ total) ∧
      total + ((s.store.totalVfs.filter (fun e => e.1 != hl)).map (·.2)).sum ≤ 256) ∧
    (∃ (r : CmdReq) (region : Nat) (base : Nat) (size : Nat) (s : State),
      Served 0x0211 (targetOf s r) (hasTenant s r) r s ∧ Acts r s ∧ r.plen = 24 ∧ region < 16 ∧ base % 4096 = 0 ∧
      size % 4096 = 0 ∧ base + size ≤ 2 ^ 64 ∧ s.domOn dHub = true) :=
  ⟨⟨{ mgr 48 with target := 0xFFFF }, tpar 2, 1, { live with store := { live.store with totalVfs := [(0, 16)] } },
    by decide +kernel⟩,
   ⟨mgr 48, { tpar 1 with change := 0x33 }, live, by decide +kernel⟩,
   ⟨mgr 0, live, by decide +kernel⟩,
   ⟨mgr 0, tnIn 3, by decide +kernel⟩,
   ⟨0, tnIn 2, by decide +kernel⟩,
   ⟨mgr 0, live, by decide +kernel⟩,
   ⟨0, tnIn 5, by decide +kernel⟩,
   ⟨mgr 0, live, by decide +kernel⟩,
   ⟨mgr 8, 0, 20, 16, 16, live, by decide +kernel⟩,
   ⟨mgr 24, 0, 0, 0, live, by decide +kernel⟩⟩

/-- Each clause of WindowCommands has a state and operands that meet its hypotheses. -/
theorem test_wit_WindowCommands :
    (∃ (r : CmdReq) (index : Nat) (i : Nat) (w : OutWin) (s : State),
      Served 0x0301 (targetOf s r) ((cmdOutwin r index w).priv s) r s ∧ r.plen = 40 ∧ (index < 2048 ∨ index = 0xFFFF) ∧
      (outReq index w).ranges = true ∧ (cmdOutwin r index w).dark s = false ∧ (outReq index w).check s = 0 ∧
      (outReq index w).entry s = some i) ∧
    (∃ (r : CmdReq) (index : Nat) (i : Nat) (w : InWin) (s : State),
      Served 0x0302 (targetOf s r) ((cmdInwin r index w).priv s) r s ∧ r.plen = 40 ∧ (index < 1024 ∨ index = 0xFFFF) ∧
      (inReq index w).ranges = true ∧ (cmdInwin r index w).dark s = false ∧ (inReq index w).check s = 0 ∧
      (inReq index w).entry s = some i) ∧
    (∃ (r : CmdReq) (index : Nat) (i : Nat) (w : IntWin) (s : State),
      Served 0x0303 (targetOf s r) ((cmdIntwin r index w).priv s) r s ∧ r.plen = 24 ∧ (index < 1024 ∨ index = 0xFFFF) ∧
      (intReq index w).ranges = true ∧ (cmdIntwin r index w).dark s = false ∧ (intReq index w).check s = 0 ∧
      (intReq index w).entry s = some i) ∧
    (∃ (r : CmdReq) (index : Nat) (img : SheafImg) (s : State), Served 0x0304 (targetOf s r) (hasMgr s r.iss) r s ∧
      r.plen = 264 ∧ (cmdSheaf r index img).params s = true ∧ s.tlOn (index / 32) = true ∧ sheafCheck index img s = 0) ∧
    (∃ (r : CmdReq) (index : Nat) (w : OutWin) (s : State),
      Served 0x0301 (targetOf s r) ((cmdOutwin r index w).priv s) r s ∧ r.plen = 40 ∧ (index < 2048 ∨ index = 0xFFFF) ∧
      (outReq index w).ranges = true ∧ (cmdOutwin r index w).dark s = false ∧ w.size ≠ 0 ∧
      (index ≠ 0xFFFF → index / 256 = w.link / 12) ∧
      (outReq index w).ok s (((outReq index w).entry s).getD index) = true ∧ namedTn s w.tnid = 0 ∧ w.sheaf = 0 ∧
      w.toPf = 0 ∧ permits s w.tnid w.link = false) :=
  ⟨⟨mgr 40, 0, 0, outw 1 0 0, (live.wr .TN_OUT_ALLOT 4 0), by decide +kernel⟩,
   ⟨mgr 40, 0, 0, ⟨0, 1, 1, 1, 0, 0, 0, 65536, 0⟩,
     { (live.wr .TN_IN_ALLOT 4 0) with store := { live.store with totalVfs := [(0, 16)] } }, by decide +kernel⟩,
   ⟨mgr 24, 0, 0, ⟨0, 0, 0, 0, 0, 4, 0⟩, ((live.wr .TN_INT_ALLOT 4 0).wr .TN_VECTORS 8 0), by decide +kernel⟩,
   ⟨mgr 264, 0, ⟨2, 1, 0, [⟨0, 0, 0, 16, 0, 0, 0, 0⟩]⟩, live, by decide +kernel⟩,
   ⟨mgr 40, 0, outw 1 0 0, (live.wr .TN_PERMIT0 0 0), by decide +kernel⟩⟩

/-- Each clause of DeadlineWindows has a state and operands that meet its hypotheses. -/
theorem test_wit_DeadlineWindows :
    (∃ (r : CmdReq) (index : Nat) (w : OutWin) (s : State),
      Served 0x0301 (targetOf s r) ((cmdOutwin r index w).priv s) r s ∧ r.plen = 40 ∧ (index < 2048 ∨ index = 0xFFFF) ∧
      (outReq index w).ranges = true ∧ (cmdOutwin r index w).dark s = false ∧ w.size ≠ 0 ∧ w.cls = 3 ∧
      (index ≠ 0xFFFF → index / 256 = w.link / 12) ∧
      (outReq index w).ok s (((outReq index w).entry s).getD index) = true ∧ w.sheaf = 0 ∧ w.toPf = 0 ∧
      namedTn s w.tnid = 0 ∧ s.rd .TN_ELIGIBLE w.tnid = 0) ∧
    (∃ (r : CmdReq) (index : Nat) (w : OutWin) (s : State),
      Served 0x0301 (targetOf s r) ((cmdOutwin r index w).priv s) r s ∧ r.plen = 40 ∧ (index < 2048 ∨ index = 0xFFFF) ∧
      (outReq index w).ranges = true ∧ (cmdOutwin r index w).dark s = false ∧ w.size ≠ 0 ∧ w.cls = 3 ∧
      (index ≠ 0xFFFF → index / 256 = w.link / 12) ∧
      (outReq index w).ok s (((outReq index w).entry s).getD index) = true ∧ w.sheaf = 1 ∧ s.rd .SH_MODE w.tnid ≠ 0 ∧
      s.rd .SH_WINDOW w.tnid = ((outReq index w).entry s).getD index ∧ (∃ d < s.rd .SH_DEST_COUNT w.tnid,
      s.rd .SH_TO_PF w.tnid d = 0 ∧ s.rd .TN_ELIGIBLE (s.rd .SH_TNID w.tnid d) = 0)) ∧
    (∃ (index : Nat) (w : OutWin) (s : State), w.size ≠ 0 ∧ w.cls = 3 ∧ (outReq index w).check s = 0 ∧ w.sheaf = 0 ∧
      w.toPf = 0) ∧
    (∃ (index : Nat) (w : OutWin) (s : State) (d : _), w.size ≠ 0 ∧ w.cls = 3 ∧ (outReq index w).check s = 0 ∧
      w.sheaf = 1 ∧ d < s.rd .SH_DEST_COUNT w.tnid ∧ s.rd .SH_TO_PF w.tnid d = 0) ∧
    (∃ (w : OutWin), w.sheaf = 0 ∧ w.toPf = 1) :=
  ⟨⟨mgr 40, 0, outw 3 0 0, (live.wr .TN_OUT_ALLOT 4 0), by decide +kernel⟩,
   ⟨mgr 40, 0, outw 3 1 0, sheafed, by decide +kernel⟩,
   ⟨0, outw 3 0 0, ((live.wr .TN_OUT_ALLOT 4 0).wr .TN_ELIGIBLE 1 0), by decide +kernel⟩,
   ⟨0, outw 3 1 0, (sheafed.wr .TN_ELIGIBLE 1 0), 0, by decide +kernel⟩,
   ⟨outw 3 0 1, by decide +kernel⟩⟩

/-- Each clause of LinkCommands has a state and operands that meet its hypotheses. -/
theorem test_wit_LinkCommands :
    (∃ (r : CmdReq) (port : Nat) (bifur : Nat) (clkmode : Nat) (speed : Nat) (s : State),
      Served 0x0401 (targetOf s r) (hasMgr s r.iss) r s ∧ r.plen = 4 ∧ port ≤ 7 ∧ bifur ≤ 2 ∧ clkmode ≤ 2 ∧ 1 ≤ speed ∧
      speed ≤ 6 ∧ (∀ h ∈ absentUnder port bifur, mgrLink s ≠ some h ∧ tget 0 s.store.totalVfs h = 0)) ∧
    (∃ (r : CmdReq) (p : WlinkParams) (s : State), Served 0x0410 (targetOf s r) (hasMgr s r.iss) r s ∧ r.plen = 24 ∧
      p.link < 96 ∧ p.persist ≤ 1 ∧ p.select = 0x21 ∧ p.targetRate ≤ 3 ∧ 1 ≤ p.replayLimit ∧ p.replayLimit ≤ 15 ∧
      s.domOn (dWphy (wlTiller p.link)) = true ∧ s.tlOn (wlTiller p.link) = true ∧ s.rd .WP_LOCK p.link = 0 ∧
      s.rd .WL_LOCK p.link = 0) ∧
    (∃ (r : CmdReq) (link : Nat) (s : State), Served 0x0411 (targetOf s r) (hasMgr s r.iss) r s ∧ r.plen = 4 ∧
      link < 96 ∧ s.tlOn (wlTiller link) = true ∧ s.rd .WL_LSTATE link ≠ 6) ∧
    (∃ (r : CmdReq) (link : Nat) (set : Nat) (s : State), Served 0x0412 (targetOf s r) (hasMgr s r.iss) r s ∧
      r.plen = 4 ∧ link < 96 ∧ set < 16 ∧ s.tlOn (wlTiller link) = true ∧ s.rd .WL_LSTATE link = 2 ∧
      s.rd .WL_RESHAPE_BUSY link = 0) ∧
    (∃ (r : CmdReq) (link : Nat) (s : State), Served 0x0413 (targetOf s r) (isPfOrSmp r.iss) r s ∧ r.plen = 4 ∧
      link < 96 ∧ s.tlOn (wlTiller link) = true ∧ s.domOn (dWphy (wlTiller link)) = true) :=
  ⟨⟨mgr 4, 0, 0, 0, 1, live, by decide +kernel⟩,
   ⟨mgr 24, ⟨0, 0, 0x21, 2, 0, 0, 0, 0, 8, 0, 0, 0, 0, 0, 0⟩, live, by decide +kernel⟩,
   ⟨mgr 4, 0, live, by decide +kernel⟩,
   ⟨mgr 4, 0, 0, live, by decide +kernel⟩,
   ⟨mgr 4, 0, live, by decide +kernel⟩⟩

/-- Each clause of DirtyLogging has a state and operands that meet its hypotheses. -/
theorem test_wit_DirtyLogging :
    (∃ (r : CmdReq) (p : LogParams) (s : State), Served 0x0501 (targetOf s r) (hasMgr s r.iss) r s ∧ Acts r s ∧
      r.plen = 40 ∧ logParamsOk p s = true ∧ tnDark s (s.rd .TN_HL (targetOf s r)) [] = false ∧
      s.tnState (targetOf s r) ≠ 2 ∧ s.log (targetOf s r) = none) ∧
    (∃ (r : CmdReq) (l : LogS) (s : State), Served 0x0502 (targetOf s r) (hasMgr s r.iss) r s ∧ Acts r s ∧ r.plen = 0 ∧
      tnDark s (s.rd .TN_HL (targetOf s r)) [] = false ∧ s.log (targetOf s r) = some l ∧ l.ending = false) ∧
    (∃ (tn : Tnid) (e : Sched) (l : LogS) (s : State),
      dueSched s (fun e => decide (e.cmd = .logHarvest) && e.req.target == tn.val) = some e ∧ e.mgr = true ∧
      e.req.plen = 0 ∧ e.req.resv = false ∧ unbound s e.req.iss = false ∧ foreignTarget s e.req = false ∧
      s.react = false ∧ tenantThere 0x0502 e.req s = true ∧ s.tnState tn ≠ 4 ∧ tnDark s (s.rd .TN_HL tn) [] = false ∧
      s.log tn = some l ∧ l.ending = false) ∧
    (∃ (tn : Tnid) (l : LogS) (h : HarvestS) (s : State), s.log tn = some l ∧ l.harvest = some h ∧
      h.bitmapFlush = true ∧ h.flushesLeft = 0) :=
  ⟨⟨mgr 40, ⟨0, 16, 0, 1048576, 2097152⟩, live, by decide +kernel⟩,
   ⟨mgr 0, logS none, live.setLog 0 (some (logS none)), by decide +kernel⟩,
   ⟨0, sched 0 .logHarvest, logS none,
     ((live.setLog 0 (some (logS none))).modKeeper (fun x => { x with sched := [sched 0 .logHarvest] })),
     by decide +kernel⟩,
   ⟨0, logS (some ⟨0, 0, 0, 1, 0, 0, 0, false, true, true, 0⟩), ⟨0, 0, 0, 1, 0, 0, 0, false, true, true, 0⟩,
     live.setLog 0 (some (logS (some ⟨0, 0, 0, 1, 0, 0, 0, false, true, true, 0⟩))), by decide +kernel⟩⟩

/-- Each clause of Migration has a state and operands that meet its hypotheses. -/
theorem test_wit_Migration :
    (∃ (r : CmdReq) (s : State), Served 0x0503 (targetOf s r) (hasMgr s r.iss) r s ∧ Acts r s ∧ r.plen = 0 ∧
      tnDark s (s.rd .TN_HL (targetOf s r)) [] = false ∧ s.tnState (targetOf s r) ≠ 3) ∧
    (∃ (tn : Tnid) (e : Sched) (s : State),
      dueSched s (fun e => decide (e.cmd = .tenantFreeze) && e.req.target == tn.val) = some e ∧ s.tnState tn = 2) ∧
    (∃ (tn : Tnid) (e : Sched) (s : State),
      dueSched s (fun e => decide (e.cmd = .tenantFreeze) && e.req.target == tn.val) = some e ∧ s.tnState tn = 1 ∧
      e.mgr = true ∧ e.req.plen = 0 ∧ e.req.resv = false ∧ unbound s e.req.iss = false ∧
      foreignTarget s e.req = false ∧ s.react = false ∧ tnDark s (s.rd .TN_HL tn) [] = false) ∧
    (∃ (tn : Tnid) (s : State), s.tnState tn = 3 ∧ (s.ten tn).quiesced = false ∧ (s.ten tn).freezeOut = true ∧
      (s.ten tn).freezeFlushed = true ∧ tnQuiet s tn = true) ∧
    (∃ (r : CmdReq) (s : State), Served 0x0504 (targetOf s r) (hasMgr s r.iss) r s ∧ Acts r s ∧ r.plen = 0 ∧
      s.domOn dHub = true ∧ s.tnState (targetOf s r) = 3) ∧
    (∃ (r : CmdReq) (s : State) (e : _), Served 0x0504 (targetOf s r) (hasMgr s r.iss) r s ∧ Acts r s ∧ r.plen = 0 ∧
      s.domOn dHub = true ∧ s.tnState (targetOf s r) ≠ 3 ∧ freezeSched s (targetOf s r) = some e) ∧
    (∃ (r : CmdReq) (offset : Nat) (s : State), Served 0x0505 (targetOf s r) (hasMgr s r.iss) r s ∧ Acts r s ∧
      r.plen = 8 ∧ s.domOn dHub = true ∧ s.tnState (targetOf s r) = 3 ∧ (s.ten (targetOf s r)).quiesced = true ∧
      offset = 0) ∧
    (∃ (r : CmdReq) (offset : Nat) (s : State) (b : _), Served 0x0505 (targetOf s r) (hasMgr s r.iss) r s ∧ Acts r s ∧
      r.plen = 8 ∧ s.domOn dHub = true ∧ s.tnState (targetOf s r) = 3 ∧ (s.ten (targetOf s r)).quiesced = true ∧
      offset ≠ 0 ∧ (s.ten (targetOf s r)).snapshot = some b ∧ offset < b.length) ∧
    (∃ (r : CmdReq) (offset : Nat) (flags : Nat) (data : Bytes) (s : State),
      Served 0x0506 (targetOf s r) (hasMgr s r.iss) r s ∧ Acts r s ∧ 9 ≤ r.plen ∧ r.plen ≤ 4040 ∧
      r.plen = 8 + data.length ∧ s.domOn dHub = true ∧ flags < 2 ∧
      (offset = 0 ∨ offset = (s.ten (targetOf s r)).restoreBuf.length) ∧ s.tnState (targetOf s r) = 3 ∧
      (((if offset = 0 then [] else (s.ten (targetOf s r)).restoreBuf) ++ data).length < 12 ∨ ((if offset = 0 then [] else (s.ten (targetOf s r)).restoreBuf) ++ data).length < num ((if offset = 0 then [] else (s.ten (targetOf s r)).restoreBuf) ++ data) 8 4)) ∧
    (∃ (r : CmdReq) (offset : Nat) (flags : Nat) (data : Bytes) (s : State),
      Served 0x0506 (targetOf s r) (hasMgr s r.iss) r s ∧ Acts r s ∧ 9 ≤ r.plen ∧ r.plen ≤ 4040 ∧
      r.plen = 8 + data.length ∧ s.domOn dHub = true ∧ flags < 2 ∧
      (offset = 0 ∨ offset = (s.ten (targetOf s r)).restoreBuf.length) ∧ s.tnState (targetOf s r) = 3 ∧
      12 ≤ ((if offset = 0 then [] else (s.ten (targetOf s r)).restoreBuf) ++ data).length ∧
      num ((if offset = 0 then [] else (s.ten (targetOf s r)).restoreBuf) ++ data) 8 4 ≤ ((if offset = 0 then [] else (s.ten (targetOf s r)).restoreBuf) ++ data).length ∧
      blobCheck (targetOf s r) (flags == 1) (((if offset = 0 then [] else (s.ten (targetOf s r)).restoreBuf) ++ data).take (num ((if offset = 0 then [] else (s.ten (targetOf s r)).restoreBuf) ++ data) 8 4)) (s.modTen (targetOf s r) (fun t => { t with restoreBuf := [] })) = 0) :=
  ⟨⟨mgr 0, live, by decide +kernel⟩,
   ⟨0, sched 0 .tenantFreeze, ((tnIn 2).modKeeper (fun x => { x with sched := [sched 0 .tenantFreeze] })),
     by decide +kernel⟩,
   ⟨0, sched 0 .tenantFreeze, (live.modKeeper (fun x => { x with sched := [sched 0 .tenantFreeze] })),
     by decide +kernel⟩,
   ⟨0, ((tnIn 3).modTen 0 (fun x => { x with freezeOut := true, freezeFlushed := true })), by decide +kernel⟩,
   ⟨mgr 0, tnIn 3, by decide +kernel⟩,
   ⟨mgr 0, (live.modKeeper (fun x => { x with sched := [sched 0 .tenantFreeze] })), sched 0 .tenantFreeze,
     by decide +kernel⟩,
   ⟨mgr 8, 0, ((tnIn 3).modTen 0 (fun x => { x with quiesced := true })), by decide +kernel⟩,
   ⟨mgr 8, 1, ((tnIn 3).modTen 0 (fun x => { x with quiesced := true, snapshot := some [1, 2] })), [1, 2],
     by decide +kernel⟩,
   ⟨mgr 9, 0, 0, [0], tnIn 3, by decide +kernel⟩,
   by
      refine ⟨mgr 520, 0, 1, blob0, tnIn 3, ?_⟩
      iterate 11 refine ⟨by decide +kernel, ?_⟩
      show blobCheck 0 true (blob0.take (num blob0 8 4)) _ = 0
      rw [show blob0.take (num blob0 8 4) = blob0 from List.take_of_length_le (by decide +kernel)]
      exact blob_passes _ (by decide +kernel) (by decide +kernel)⟩

/-- Each clause of Clocks has a state and operands that meet its hypotheses. -/
theorem test_wit_Clocks :
    (∃ (r : CmdReq) (sel : Nat) (src : Nat) (s : State), Served 0x0610 sel (hasMgr s r.iss) r s ∧ r.plen = 8 ∧
      selAllows sel src = true ∧ ckReady s src = true ∧ ¬(sel = 3 ∧ src = 2 ∧
      (List.range' 10 16).any (fun d => s.domOn d) = true) ∧ selNext s sel = src) ∧
    (∃ (r : CmdReq) (sel : Nat) (src : Nat) (s : State), Served 0x0610 sel (hasMgr s r.iss) r s ∧ r.plen = 8 ∧
      selAllows sel src = true ∧ ckReady s src = true ∧ ¬(sel = 3 ∧ src = 2 ∧
      (List.range' 10 16).any (fun d => s.domOn d) = true) ∧ selNext s sel ≠ src) ∧
    (∃ (r : CmdReq) (ckid : Nat) (gate : Nat) (s : State), Served 0x0611 (targetOf s r) (isPfOrSmp r.iss) r s ∧
      r.plen = 8 ∧ ckid < 32 ∧ 25 ≤ gate ∧ gate ≤ 37500 ∧ ckReady s 0 = true ∧ ckReady s ckid = true) ∧
    (∃ (fn : Fn) (s : State), mgrWrites s fn = true ∧ s.rd .CK_BUSY = 0) ∧
    (∃ (edges : Nat) (s : State), s.rd .CK_BUSY = 1 ∧ edges < 2 ^ 48) ∧
    (∃ (fn : Fn) (s : State), mgrWrites s fn = true) ∧
    (∃ (k : Fin 32) (s : State), ckReady s k = true ∧ (k.val < 3 ∨ pllEnabled s k = true)) ∧
    (∃ (s : State), s.aonUp = true ∧ ckReady s 2 = false ∧ s.clocks.asyncTrip = none ∧ s.keeper.bootStage = 2 ∧
      s.rd .PW_STATE 0 dKeep = 0) ∧
    (∃ (s : State), s.aonUp = true ∧ ckReady s 2 = false ∧ s.clocks.asyncTrip = none ∧ s.keeper.bootStage ≠ 2 ∧
      s.clocks.froRestarting = true) ∧
    (∃ (k : Fin 2) (s : State), s.aonUp = true ∧ ckReady s 2 = true ∧ ckReady s k = false ∧ s.keeper.bootStage = 0) ∧
    (∃ (k : Fin 32) (s : State), pllEnabled s k = true ∧ ckReady s k = false ∧ s.keeper.bootStage = 0 ∧
      (if 16 ≤ k.val ∧ k.val < 24 then ckReady s (k.val - 8) = true ∨ s.pins.refclk.testBit (k.val - 16) = true else ckReady s (s.rd .CK_REF_SRC) = true)) ∧
    (∃ (sel : Fin 4) (k : Nat) (auto : Bool) (s : State), s.keeper.bootStage = 0 ∧ draining s = false ∧
      selAllows sel k = true ∧ s.clocks.switching.find? (fun e => e.1 == sel.val) = some (sel.val, k, auto)) :=
  ⟨⟨mgr 8, 0, selNext live 0, live, by decide +kernel⟩,
   ⟨mgr 8, 0, 0, live, by decide +kernel⟩,
   ⟨mgr 8, 0, 25, live, by decide +kernel⟩,
   ⟨⟨0, 0⟩, live, by decide +kernel⟩,
   ⟨0, (live.wr .CK_BUSY 1), by decide +kernel⟩,
   ⟨⟨0, 0⟩, live, by decide +kernel⟩,
   ⟨0, live, by decide +kernel⟩,
   ⟨(((live.wr .CK_READY (2 ^ 32 - 1 - 2 ^ 2)).wr .PW_STATE 0 0 0).modKeeper (fun x => { x with bootStage := 2 })),
     by decide +kernel⟩,
   ⟨((live.wr .CK_READY (2 ^ 32 - 1 - 2 ^ 2)).modClocks (fun x => { x with froRestarting := true })),
     by decide +kernel⟩,
   ⟨0, (live.wr .CK_READY (2 ^ 32 - 1 - 2 ^ 0)), by decide +kernel⟩,
   ⟨4, (live.wr .CK_READY (2 ^ 32 - 1 - 2 ^ 4)), by decide +kernel⟩,
   ⟨0, 1, false, (live.modClocks (fun x => { x with switching := [(0, 1, false)] })), by decide +kernel⟩⟩

/-- Each clause of PowerCommands has a state and operands that meet its hypotheses. -/
theorem test_wit_PowerCommands :
    (∃ (r : CmdReq) (d : Nat) (want : Nat) (flags : Nat) (s : State), Served 0x0701 d (hasMgr s r.iss) r s ∧
      r.plen = 4 ∧ d ≤ 25 ∧ flags ≤ 1 ∧ (flags = 0 ∨ hasPads d = true) ∧ pdCheck r d want s = 0 ∧ want = 0 ∧
      s.rd .PW_STATE 0 d = 2) ∧
    (∃ (r : CmdReq) (d : Nat) (want : Nat) (flags : Nat) (s : State), Served 0x0701 d (hasMgr s r.iss) r s ∧
      r.plen = 4 ∧ d ≤ 25 ∧ flags ≤ 1 ∧ (flags = 0 ∨ hasPads d = true) ∧ pdCheck r d want s = 0 ∧ want = 0 ∧
      s.rd .PW_STATE 0 d < 2) ∧
    (∃ (r : CmdReq) (d : Nat) (want : Nat) (flags : Nat) (s : State), Served 0x0701 d (hasMgr s r.iss) r s ∧
      r.plen = 4 ∧ d ≤ 25 ∧ flags ≤ 1 ∧ (flags = 0 ∨ hasPads d = true) ∧ pdCheck r d want s = 0 ∧ want = 1 ∧
      s.rd .PW_STATE 0 d = 2) ∧
    (∃ (r : CmdReq) (d : Nat) (want : Nat) (flags : Nat) (s : State), Served 0x0701 d (hasMgr s r.iss) r s ∧
      r.plen = 4 ∧ d ≤ 25 ∧ flags ≤ 1 ∧ (flags = 0 ∨ hasPads d = true) ∧ pdCheck r d want s = 0 ∧ want = 2 ∧
      s.rd .PW_STATE 0 d = 2) ∧
    (∃ (r : CmdReq) (d : Nat) (s : State), Served 0x0702 d (hasMgr s r.iss) r s ∧ r.plen = 4 ∧ hasPads d = true ∧
      s.domOn d = true ∧ s.rd .PW_PAD_HOLD 0 d = 1) ∧
    (∃ (r : CmdReq) (bank : Nat) (s : State), Served 0x0703 bank (hasMgr s r.iss) r s ∧ r.plen = 4 ∧ bank < 44 ∧
      s.domOn (bankDom bank) = true ∧ bankLost s bank = true ∧ (24 ≤ bank → bank < 40 → ∀ k < 16,
      s.tnState (16 * (bank - 24) + k) ≠ 4)) ∧
    (∃ (r : CmdReq) (bank : Nat) (s : State), Served 0x0703 bank (hasMgr s r.iss) r s ∧ r.plen = 4 ∧ bank < 44 ∧
      s.domOn (bankDom bank) = true ∧ bankLost s bank = true ∧ (24 ≤ bank → bank < 40 → ∀ k < 16,
      s.tnState (16 * (bank - 24) + k) ≠ 4)) ∧
    (∃ (r : CmdReq) (k : Nat) (s : State), Served 0x0704 k (hasMgr s r.iss) r s ∧ r.plen = 4 ∧ k ≤ 8 ∧
      onOrHeld s (resetBase k) = true ∧ (∀ d ∈ resetScope k, s.rd .PW_STATE 0 d ≠ 3 ∧ pdWaits s d = false) ∧
      ckReady s 4 = true) :=
  ⟨⟨mgr 4, 0, 0, 0, live, by decide +kernel⟩,
   ⟨mgr 4, 18, 0, 0, (live.wr .PW_STATE 0 0 18), by decide +kernel⟩,
   ⟨mgr 4, 19, 1, 0, (live.wr .PW_STATE 2 0 19), by decide +kernel⟩,
   ⟨mgr 4, 19, 2, 0, (live.wr .PW_STATE 2 0 19), by decide +kernel⟩,
   ⟨mgr 4, 18, (live.wr .PW_PAD_HOLD 1 0 18), by decide +kernel⟩,
   by
      refine ⟨mgr 4, 0, (live.wr .PW_BANK_LOST_LO 1), ?_⟩
      and_intros <;> first
        | decide +kernel
        | exact fun h => absurd h (by decide),
   by
      refine ⟨mgr 4, 0, (live.wr .PW_BANK_LOST_LO 1), ?_⟩
      and_intros <;> first
        | decide +kernel
        | exact fun h => absurd h (by decide),
   ⟨mgr 4, 0, live, by decide +kernel⟩⟩

/-- Each clause of WakeSteps has a state and operands that meet its hypotheses. -/
theorem test_wit_WakeSteps :
    (∃ (d : Dom) (s : State), s.rd .PW_STATE 0 d = 3 ∧ s.rd .PW_REG_RDY 0 d = 0 ∧ (s.dom d).regStarted = true) ∧
    (∃ (d : Dom) (s : State), s.rd .PW_STATE 0 d = 3 ∧ s.rd .PW_REG_RDY 0 d = 1 ∧ s.rd .PW_CLK_RDY 0 d = 0 ∧
      clockFor s d = true ∧ lacksRefclk s d = false) ∧
    (∃ (d : Dom) (s : State), s.rd .PW_STATE 0 d = 3 ∧ s.rd .PW_REG_RDY 0 d = 1 ∧ s.rd .PW_CLK_RDY 0 d = 1 ∧
      s.rd .PW_MEM_RDY 0 d = 0) ∧
    (∃ (d : Dom) (s : State), s.rd .PW_STATE 0 d = 3 ∧ s.rd .PW_REG_RDY 0 d = 1 ∧ s.rd .PW_CLK_RDY 0 d = 1 ∧
      s.rd .PW_MEM_RDY 0 d = 1 ∧ s.rd .PW_LOGIC_RDY 0 d = 0 ∧ (s.dom d).inReset = none ∧ (∀ p,
      parentOf d = some p → s.domOn p = true)) ∧
    (∃ (d : Dom) (s : State), s.rd .PW_STATE 0 d = 3 ∧ (s.rd .PW_REG_RDY 0 d = 1 ∨ (s.dom d).regStarted = true) ∧
      lacksRefclk s d = true ∧ s.rd .PW_REG_RDY 0 d = 1 ∧ s.rd .PW_CLK_RDY 0 d = 0) ∧
    (∃ (d : Dom) (s : State), s.rd .PW_STATE 0 d = 3 ∧ (s.rd .PW_REG_RDY 0 d = 1 ∨ (s.dom d).regStarted = true) ∧
      lacksRefclk s d = false ∧ s.rd .PW_LOGIC_RDY 0 d = 0 ∧ (s.dom d).inReset = none) ∧
    (∃ (mv : Nat) (s : State), 5000 ≤ mv ∧ mv < 6000 ∧ s.aonUp = true) :=
  ⟨⟨18, (((((((live.wr .PW_STATE 3 0 18).wr .PW_REG_RDY 0 0 18).wr .PW_CLK_RDY 0 0 18).wr .PW_MEM_RDY 0 0 18).wr .PW_LOGIC_RDY 0 0 18)).modDom 18 (fun x => { x with regStarted := true })),
    by decide +kernel⟩,
   ⟨18, (((((live.wr .PW_STATE 3 0 18).wr .PW_REG_RDY 1 0 18).wr .PW_CLK_RDY 0 0 18).wr .PW_MEM_RDY 0 0 18).wr .PW_LOGIC_RDY 0 0 18),
     by decide +kernel⟩,
   ⟨18, (((((live.wr .PW_STATE 3 0 18).wr .PW_REG_RDY 1 0 18).wr .PW_CLK_RDY 1 0 18).wr .PW_MEM_RDY 0 0 18).wr .PW_LOGIC_RDY 0 0 18),
     by decide +kernel⟩,
   ⟨18, (((((live.wr .PW_STATE 3 0 18).wr .PW_REG_RDY 1 0 18).wr .PW_CLK_RDY 1 0 18).wr .PW_MEM_RDY 1 0 18).wr .PW_LOGIC_RDY 0 0 18),
     by decide +kernel⟩,
   ⟨10, ((((((live.wr .PW_STATE 3 0 10).wr .PW_REG_RDY 1 0 10).wr .PW_CLK_RDY 0 0 10).wr .PW_MEM_RDY 0 0 10).wr .PW_LOGIC_RDY 0 0 10).modPins (fun x => { x with refclk := 0 })),
     by decide +kernel⟩,
   ⟨18, (((((((live.wr .PW_STATE 3 0 18).wr .PW_REG_RDY 1 0 18).wr .PW_CLK_RDY 0 0 18).wr .PW_MEM_RDY 0 0 18).wr .PW_LOGIC_RDY 0 0 18)).modDom 18 (fun x => { x with regStarted := true })),
     by decide +kernel⟩,
   ⟨5000, live, by decide +kernel⟩⟩

/-- Each clause of BringUp has a state and operands that meet its hypotheses. -/
theorem test_wit_BringUp :
    (∃ (s : State), s.aonUp = true) ∧
    (∃ (x : PowerUp) (s : State), s.pins.porLow = true ∧ s.pins.resetLow = false ∧ 5600 ≤ x.vinMv ∧ 1500 ≤ x.vioMv) ∧
    (∃ (x : PowerUp) (s : State), s.pins.porLow = true ∧ s.pins.resetLow = true ∧ 5600 ≤ x.vinMv ∧ 1500 ≤ x.vioMv) ∧
    (∃ (x : PowerUp), (x.vinMv < 5600 ∨ x.vioMv < 1500)) ∧
    (∃ (s : State), s.pins.resetLow = true ∧ s.pins.porLow = false) ∧
    (∃ (s : State), s.aonUp = true ∧ s.keeper.bootStage = 3 ∧ s.domOn dKeep = true) ∧
    (∃ (s : State), s.keeper.bootStage = 4 ∧ ckReady s 0 = false ∧ ckReady s 1 = false) :=
  ⟨⟨live, by decide +kernel⟩,
   ⟨⟨⟨1, 0, false⟩, 5600, 3300⟩, live.modPins (fun x => { x with porLow := true, resetLow := false }),
     by decide +kernel⟩,
   ⟨⟨⟨1, 0, false⟩, 5600, 3300⟩, live.modPins (fun x => { x with porLow := true, resetLow := true }),
     by decide +kernel⟩,
   ⟨⟨⟨1, 0, false⟩, 5600, 1499⟩, by decide +kernel⟩,
   ⟨(live.modPins (fun x => { x with porLow := false, resetLow := true })), by decide +kernel⟩,
   ⟨(live.modKeeper (fun x => { x with bootStage := 3 })), by decide +kernel⟩,
   ⟨((live.wr .CK_READY (2 ^ 32 - 4)).modKeeper (fun x => { x with bootStage := 4 })), by decide +kernel⟩⟩

/-- Each clause of FirmwareUpdate has a state and operands that meet its hypotheses. -/
theorem test_wit_FirmwareUpdate :
    (∃ (r : CmdReq) (hdr : Bytes) (s : State), Served 0x0801 (targetOf s r) (hasMgr s r.iss) r s ∧ r.plen = 512 ∧
      sameImage s (sub hdr 0 512) = true) ∧
    (∃ (r : CmdReq) (hdr : Bytes) (s : State), Served 0x0801 (targetOf s r) (hasMgr s r.iss) r s ∧ r.plen = 512 ∧
      s.upd.state = 0 ∧ sameImage s (sub hdr 0 512) = false) ∧
    (∃ (s : State), s.upd.state = 1 ∧ keeperUp s = true) ∧
    (∃ (r : CmdReq) (i : Nat) (p : Nat) (data : Bytes) (s : State), Served 0x0802 (targetOf s r) (hasMgr s r.iss) r s ∧
      p ≤ 1 ∧ r.plen = 2056 + 16 * p ∧ (s.upd.state = 2 ∨ s.upd.state = 3) ∧
      i < hChunks (s.upd.slot s.upd.recvSlot).header ∧
      ((s.upd.slot s.upd.recvSlot).chunk i).map (fun c => halfOf c p) = some (sub data 0 (r.plen - 8))) ∧
    (∃ (r : CmdReq) (i : Nat) (p : Nat) (s : State), Served 0x0802 (targetOf s r) (hasMgr s r.iss) r s ∧ p ≤ 1 ∧
      r.plen = 2056 + 16 * p ∧ (s.upd.state = 2 ∨ s.upd.state = 3) ∧ i < hChunks (s.upd.slot s.upd.recvSlot).header ∧
      (s.upd.slot s.upd.recvSlot).chunk i = none ∧ heldHalf s.upd.pieces i (1 - p) = none) ∧
    (∃ (r : CmdReq) (s : State), Served 0x0803 (targetOf s r) (isPfOrSmp r.iss) r s ∧ r.plen = 8 ∧ s.upd.state = 0 ∧
      s.upd.running < 2) ∧
    (∃ (r : CmdReq) (s : State), Served 0x0803 (targetOf s r) (isPfOrSmp r.iss) r s ∧ r.plen = 8 ∧ 2 ≤ s.upd.state ∧
      s.upd.state < 256) ∧
    (∃ (r : CmdReq) (s : State), Served 0x0804 (targetOf s r) (hasMgr s r.iss) r s ∧ r.plen = 0 ∧ s.upd.state = 3 ∧
      expired s (s.upd.slot s.upd.recvSlot).header = false ∧ s.cad.stamp < 2 ^ 64) ∧
    (∃ (e : Sched) (s : State), keeperUp s = true ∧ draining s = false ∧
      dueSched s (fun e => e.cmd == .updateActivate) = some e ∧ e.mgr = true ∧ e.req.plen = 0 ∧ e.req.resv = false ∧
      unbound s e.req.iss = false ∧ foreignTarget s e.req = false ∧ s.react = false ∧
      (e.req.target < 256 ∨ e.req.target = 0xFFFF) ∧ tenantThere 0x0804 e.req s = true ∧
      expired s (s.upd.slot s.upd.recvSlot).header = false ∧ s.cad.stamp < 2 ^ 64) ∧
    (∃ (s : State), s.upd.state = 5 ∧ s.upd.trialEnd ≤ s.eraEpoch ∧ keeperUp s = true ∧ draining s = false) ∧
    (∃ (r : CmdReq) (s : State), Served 0x0805 (targetOf s r) (hasMgr s r.iss) r s ∧ r.plen = 0 ∧ s.upd.state = 5) ∧
    (∃ (r : CmdReq) (s : State), Served 0x0806 (targetOf s r) (hasMgr s r.iss) r s ∧ r.plen = 0 ∧ s.upd.state = 5) ∧
    (∃ (r : CmdReq) (s : State), Served 0x0806 (targetOf s r) (hasMgr s r.iss) r s ∧ r.plen = 0 ∧ s.upd.state ≠ 0 ∧
      s.upd.state ≠ 5) :=
  ⟨⟨mgr 512, fwHdr, updIn 2, by decide +kernel⟩,
   ⟨mgr 512, fwHdr, live, by decide +kernel⟩,
   ⟨updIn 1, by decide +kernel⟩,
   ⟨mgr 2056, 0, 0, zeros 2048, updIn 2, by decide +kernel⟩,
   ⟨mgr 2056, 1, 0, updIn 2, by decide +kernel⟩,
   ⟨mgr 8, { live with upd := { live.upd with running := 0 } }, by decide +kernel⟩,
   ⟨mgr 8, updIn 2, by decide +kernel⟩,
   ⟨mgr 0, updIn 3, by decide +kernel⟩,
   ⟨sched 0 .updateActivate, ((updIn 4).modKeeper (fun x => { x with sched := [sched 0 .updateActivate] })),
     by decide +kernel⟩,
   ⟨updIn 5, by decide +kernel⟩,
   ⟨mgr 0, updIn 5, by decide +kernel⟩,
   ⟨mgr 0, updIn 5, by decide +kernel⟩,
   ⟨mgr 0, updIn 2, by decide +kernel⟩⟩

/-- Each clause of TraceAndJtag has a state and operands that meet its hypotheses. -/
theorem test_wit_TraceAndJtag :
    (∃ (r : CmdReq) (p : FilterParams) (s : State), Served 0x0901 (targetOf s r) (hasMgr s r.iss) r s ∧ r.plen = 64 ∧
      p.classEn < 2 ^ 14 ∧ p.flags < 4 ∧ s.domOn dHub = true) ∧
    (∃ (r : CmdReq) (p : StreamParams) (s : State), Served 0x0902 (targetOf s r) (hasMgr s r.iss) r s ∧ r.plen = 24 ∧
      streamParamsOk p = true ∧ s.domOn dHub = true ∧ p.enable = 1 ∧ s.rd .TR_STREAM_ON = 0 ∧ s.present p.hl = true ∧
      s.dlUp p.hl = true) ∧
    (∃ (r : CmdReq) (p : StreamParams) (s : State), Served 0x0902 (targetOf s r) (hasMgr s r.iss) r s ∧ r.plen = 24 ∧
      streamParamsOk p = true ∧ s.domOn dHub = true ∧ p.enable = 0) ∧
    (∃ (r : CmdReq) (s : State), Served 0x0903 (targetOf s r) (isPfOrSmp r.iss) r s ∧ r.plen = 8 ∧
      s.domOn dHub = true) ∧
    (∃ (src : Nat) (x : TrRec) (kept : Bool) (rest : List (TrRec × Bool)) (s : State), (tget ⟨[],
      0⟩ s.trace.srcQ src).recs = (x, kept) :: rest ∧ s.domOn dHub = true ∧ traceLost s = false ∧ kept = true ∧
      s.rd .TR_STOP_MODE = 0 ∧ s.trace.hubResumed = false) ∧
    (∃ (src : Nat) (x : TrRec) (kept : Bool) (rest : List (TrRec × Bool)) (s : State), (tget ⟨[],
      0⟩ s.trace.srcQ src).recs = (x, kept) :: rest ∧ s.domOn dHub = true ∧ traceLost s = false ∧ kept = false) ∧
    (∃ (s : State), s.rd .TR_STREAM_ON = 1 ∧ s.rd .TR_STREAM_PAUSED = 0 ∧ streamBlocked s = false ∧
      s.rd .TR_OLDEST ≤ s.trace.strNext ∧ s.trace.strWritten % 4 = 0 ∧ (∀ i < 4,
      (heldRec s (s.trace.strNext + i)).isSome = true)) ∧
    (∃ (s : State), s.rd .TR_STREAM_ON = 1 ∧ s.rd .TR_STREAM_PAUSED = 1 ∧ streamBlocked s = false) :=
  ⟨⟨mgr 64, ⟨1, 0, 0, 0, 0⟩, live, by decide +kernel⟩,
   ⟨mgr 24, ⟨1, 0, 12, 1, 4096, 0⟩, live, by decide +kernel⟩,
   ⟨mgr 24, ⟨0, 0, 12, 1, 4096, 0⟩, live, by decide +kernel⟩,
   ⟨mgr 8, live, by decide +kernel⟩,
   ⟨0x1000, ⟨1, 0x1000, 0x101, 0⟩, true, [],
     (live.modTrace (fun x => { x with srcQ := [(0x1000, ⟨[(⟨1, 0x1000, 0x101, 0⟩, true)], 0⟩)] })), by decide +kernel⟩,
   ⟨0x1000, ⟨1, 0x1000, 0x101, 0⟩, false, [],
     (live.modTrace (fun x => { x with srcQ := [(0x1000, ⟨[(⟨1, 0x1000, 0x101, 0⟩, false)], 0⟩)] })),
     by decide +kernel⟩,
   by
      refine ⟨(((live.wr .TR_STREAM_ON 1).wr .TR_NEXT 4).modTrace (fun x => { x with ring := (List.range 4).map (fun i => (i, ⟨1, 0x1000, 0x101, 0⟩)), strNext := 0 })),
        ?_⟩
      and_intros <;> first
        | decide +kernel
        | exact fun | 0, _ => by decide +kernel | 1, _ => by decide +kernel | 2, _ => by decide +kernel | 3, _ => by decide +kernel | n + 4, h => absurd h (by omega),
   ⟨((live.wr .TR_STREAM_ON 1).wr .TR_STREAM_PAUSED 1), by decide +kernel⟩⟩

/-- Each clause of Ward has a state and operands that meet its hypotheses. -/
theorem test_wit_Ward :
    (∃ (e : Ev) (s : State), s.aonRuns = true ∧ lineDefined e.group e.line = true) ∧
    (∃ (e : Ev), lineDefined e.group e.line = false) ∧
    (∃ (w : Nat) (s : State), s.aonRuns = true ∧ s.rd .WD_FN_DRIVEN = 0 ∧ 1000 ≤ w) ∧
    (∃ (w : Nat) (s : State), (s.rd .WD_FN_DRIVEN = 1 ∨ w < 500)) ∧
    (∃ (r : CmdReq) (s : State), Served 0x0A01 (targetOf s r) (isPfOrSmp r.iss) r s ∧ r.plen = 0) ∧
    (∃ (r : CmdReq) (s : State), Served 0x0A02 (targetOf s r) (hasMgr s r.iss) r s ∧ r.plen = 8) ∧
    (∃ (r : CmdReq) (s : State), Served 0x0A03 (targetOf s r) (hasMgr s r.iss) r s ∧ r.plen = 0 ∧
      s.rd .WD_FN_DRIVEN = 1 ∧ s.rd .WD_MINW_RUN = 0) ∧
    (∃ (r : CmdReq) (p : FaultInj) (s : State), Served 0x0A04 (targetOf s r) (hasMgr s r.iss) r s ∧ r.plen = 16 ∧
      p.modes / 4 % 32 = 0 ∧ s.react = false ∧ p.op = 0 ∧ p.modes.testBit 7 = true) ∧
    (∃ (r : CmdReq) (p : FaultInj) (s : State), Served 0x0A04 (targetOf s r) (hasMgr s r.iss) r s ∧ r.plen = 16 ∧
      p.modes / 4 % 32 = 0 ∧ s.react = false ∧ p.op = 1 ∧ p.modes = 0 ∧ lineDefined p.group p.line = true ∧
      groupDark s p.group = false ∧ s.rd .WD_INJ_COUNTS = 0 ∧ s.rd .WD_INJ_REACT = 0) ∧
    (∃ (r : CmdReq) (p : FaultCfg) (s : State), Served 0x0A05 (targetOf s r) (hasMgr s r.iss) r s ∧ r.plen = 16 ∧
      faultConfigOk p = true) :=
  ⟨⟨⟨0, 0, ⟨0, 0, 0⟩, 0, 0, 0⟩, live, by decide +kernel⟩,
   ⟨⟨0, 31, ⟨0, 0, 0⟩, 0, 0, 0⟩, by decide +kernel⟩,
   ⟨1000, live, by decide +kernel⟩,
   ⟨0, live, by decide +kernel⟩,
   ⟨mgr 0, live, by decide +kernel⟩,
   ⟨mgr 8, live, by decide +kernel⟩,
   ⟨mgr 0, (live.wr .WD_FN_DRIVEN 1), by decide +kernel⟩,
   ⟨mgr 16, ⟨0, 0, 0, 0x81, 0, 0⟩, live, by decide +kernel⟩,
   ⟨mgr 16, ⟨1, 0, 0, 0, 0, 0⟩, live, by decide +kernel⟩,
   ⟨mgr 16, ⟨1, 0, 0, 1, 0⟩, live, by decide +kernel⟩⟩

/-- Each clause of DeviceJournal has a state and operands that meet its hypotheses. -/
theorem test_wit_DeviceJournal :
    (∃ (x : JRec) (rest : List JRec) (s : State), s.rd .CAD_SEEDED = 1 ∧ s.journal.queue = x :: rest) ∧
    (∃ (x : JRec) (rest : List JRec) (s : State), s.journal.erasing = true ∧ s.journal.recs = x :: rest) ∧
    (∃ (r : CmdReq) (start : Nat) (s : State), Served 0x0A10 (targetOf s r) (isPfOrSmp r.iss) r s ∧ r.plen = 8 ∧
      start < 2 ^ 63 ∧ (∀ x ∈ s.journal.recs, x.seq < start)) ∧
    (∃ (r : CmdReq) (start : Nat) (s : State) (x : _) (rest : _), Served 0x0A10 (targetOf s r) (isPfOrSmp r.iss) r s ∧
      r.plen = 8 ∧ start < 2 ^ 63 ∧ s.journal.recs.filter (fun x => decide (start ≤ x.seq)) = x :: rest ∧
      recOk s x = true) ∧
    (∃ (r : CmdReq) (start : Nat) (s : State) (x : _) (rest : _), Served 0x0A10 (targetOf s r) (isPfOrSmp r.iss) r s ∧
      r.plen = 8 ∧ start < 2 ^ 63 ∧ s.journal.recs.filter (fun x => decide (start ≤ x.seq)) = x :: rest ∧
      recOk s x = false) :=
  ⟨⟨⟨.checkpoint 0 0, 0, 0, 0, 1, 0, 0, 0⟩, [],
    (live.modJournal (fun x => { x with queue := [⟨.checkpoint 0 0, 0, 0, 0, 1, 0, 0, 0⟩] })), by decide +kernel⟩,
   ⟨⟨.checkpoint 0 0, 0, 0, 0, 1, 0, 0, 0⟩, [],
     (live.modJournal (fun x => { x with recs := [⟨.checkpoint 0 0, 0, 0, 0, 1, 0, 0, 0⟩], erasing := true })),
     by decide +kernel⟩,
   ⟨mgr 8, 0, live, by decide +kernel⟩,
   ⟨mgr 8, 0, live.modJournal (fun x => { x with recs := [jrec] }), jrec, [], by decide +kernel, by decide +kernel,
     by decide +kernel, rfl, (beq_iff_eq (α := Nat)).mpr rfl⟩,
   ⟨mgr 8, 0, live.modJournal (fun x => { x with recs := [jrec], bad := [1] }), jrec, [], by decide +kernel,
     by decide +kernel, by decide +kernel, rfl, rfl⟩⟩

/-- Each clause of Interrupts has a state and operands that meet its hypotheses. -/
theorem test_wit_Interrupts :
    (∃ (fn : Fn) (v : Fin 128) (s : State), s.rd .FI_HOLDOFF (fnIdx fn) v = 1 ∧ (s.vec (fnIdx fn) v).ticksLeft = 0 ∧
      s.tlOn (hlTiller fn.hl) = true ∧ s.rd .FI_WAITING (fnIdx fn) v = 0 ∧ (s.vec (fnIdx fn) v).pba = false) ∧
    (∃ (fn : Fn) (v : Fin 128) (s : State), s.rd .FI_HOLDOFF (fnIdx fn) v = 1 ∧ (s.vec (fnIdx fn) v).ticksLeft = 0 ∧
      s.tlOn (hlTiller fn.hl) = true ∧ s.rd .FI_WAITING (fnIdx fn) v = 1 ∧ v.val < s.rd .FI_VEC_COUNT (fnIdx fn) ∧
      (s.cf (fnIdx fn)).msixEn = true ∧ (∀ n, s.boundTn (fnIdx fn) = some n → s.tnState n ≠ 2) ∧
      (s.vec (fnIdx fn) v).masked = false ∧ (s.cf (fnIdx fn)).fmask = false ∧ canSend s (fnIdx fn) = true) ∧
    (∃ (fn : Fn) (v : Fin 128) (s : State), fnWrites s fn = true ∧ v.val < s.rd .FI_VEC_COUNT (fnIdx fn)) ∧
    (∃ (fn : Fn) (s : State), fnWrites s fn = true) ∧
    (∃ (fn : Fn) (ch : Chan) (s : State), chanWrites s fn ch = true) ∧
    (∃ (fn : Fn) (v : Fin 128) (s : State), fnWrites s fn = true ∧ s.react = false ∧
      v.val < s.rd .FI_VEC_COUNT (fnIdx fn)) :=
  ⟨⟨⟨0, 0⟩, 0, (live.wr .FI_HOLDOFF 1 0 0), by decide +kernel⟩,
   ⟨⟨0, 0⟩, 0, (((live.wr .FI_HOLDOFF 1 0 0).wr .FI_WAITING 1 0 0).modVec 0 0 (fun x => { x with masked := false })),
     by decide +kernel⟩,
   ⟨⟨0, 0⟩, 0, live, by decide +kernel⟩,
   ⟨⟨0, 0⟩, live, by decide +kernel⟩,
   ⟨⟨0, 0⟩, 0, live, by decide +kernel⟩,
   ⟨⟨0, 0⟩, 0, live, by decide +kernel⟩⟩

/-- Each clause of WindowLookup has a state and operands that meet its hypotheses. -/
theorem test_wit_WindowLookup :
    (∃ (s : State) (n : Nat) (a : Nat) (i : Nat), findOut s n a = some i) ∧
    (∃ (s : State) (n : Nat) (a : Nat) (i : Nat), i / 256 = wlTiller n ∧ s.rd .OW_LINK i = n ∧ owBase s i ≤ a ∧
      a < owBase s i + owSize s i ∧ s.on .OW_SHEAF i = false ∧ tnDead s (owDest s i).2 = false) ∧
    (∃ (s : State) (f : Nat) (x : Nat) (i : Nat), findIn s f x = some i) ∧
    (∃ (s : State) (f : Nat) (x : Nat) (i : Nat), i / 128 = hlTiller (fnHl f) ∧ s.rd .IW_HL i = fnHl f ∧
      s.rd .IW_FUNC i = fnVf f ∧ iwOff s i ≤ x ∧ x < iwOff s i + iwSize s i) ∧
    (∃ (s : State) (n : Nat) (m : Nat) (i : Nat), findInt s n m = some i) ∧
    (∃ (s : State) (i : Nat), s.on .OW_SHEAF i = true) ∧
    (∃ (s : State) (i : Nat), s.on .OW_SHEAF i = false ∧ (owDest s i).2 < 256) :=
  ⟨⟨mapped, 0, 0, 0, by decide +kernel⟩,
   ⟨mapped, 0, 0, 0, by decide +kernel⟩,
   ⟨mapped, 0, 0, 0, by decide +kernel⟩,
   ⟨mapped, 0, 0, 0, by decide +kernel⟩,
   ⟨mapped, 0, 0, 0, by decide +kernel⟩,
   ⟨(mapped.wr .OW_SHEAF 1 0), 0, by decide +kernel⟩,
   ⟨mapped, 0, by decide +kernel⟩⟩

/-- Each clause of RequestCuts has a state and operands that meet its hypotheses. -/
theorem test_wit_RequestCuts :
    (∃ (r : HReq), r.kind = .write ∧ r.data.length = r.len) ∧
    (∃ (s : State) (r : HReq) (y : _), r.kind = .write ∧ r.data.length = r.len ∧ (cutTlp s r).2 = some y) ∧
    (∃ (s : State) (r : HReq), r.kind = .write ∧ r.data.length = r.len ∧ (cutTlp s r).2 = none) ∧
    (∃ (r : HReq), r.kind = .read) ∧
    (∃ (s : State) (r : HReq) (y : _), r.kind = .read ∧ (cutTlp s r).2 = some y) :=
  ⟨⟨hreq .write 300 (zeros 300) (.stream none), by decide +kernel⟩,
   ⟨live, { hreq .write 300 (zeros 300) (.stream none) with addr := 4000 },
     ((cutTlp live ({ hreq .write 300 (zeros 300) (.stream none) with addr := 4000 })).2.getD ({ hreq .write 300 (zeros 300) (.stream none) with addr := 4000 })),
     by decide +kernel⟩,
   ⟨live, hreq .write 4 (zeros 4) (.stream none), by decide +kernel⟩,
   ⟨hreq .read 300 [] (.stream none), by decide +kernel⟩,
   ⟨live, { hreq .read 300 [] (.stream none) with addr := 4000 },
     ((cutTlp live ({ hreq .read 300 [] (.stream none) with addr := 4000 })).2.getD ({ hreq .read 300 [] (.stream none) with addr := 4000 })),
     by decide +kernel⟩⟩

/-- Each clause of InboundRequests has a state and operands that meet its hypotheses. -/
theorem test_wit_InboundRequests :
    (∃ (m : HostMem) (s : State), TakesBar2 m s ∧ findIn s (fnIdx m.fn) m.offset = none) ∧
    (∃ (m : HostMem) (i : Nat) (s : State), TakesBar2 m s ∧ findIn s (fnIdx m.fn) m.offset = some i ∧
      (iwOff s i + iwSize s i < m.offset + m.len ∨ m.atomic = true ∨ (m.write = true ∧
      s.rd .IW_WR i = 0) ∨ (m.write = false ∧ s.rd .IW_RD i = 0) ∨ ∃ tn, s.boundTn (fnIdx m.fn) = some tn ∧
      permits s tn (s.rd .IW_LINK i) = false)) ∧
    (∃ (m : HostMem) (i : Nat) (s : State), TakesBar2 m s ∧ findIn s (fnIdx m.fn) m.offset = some i ∧
      m.offset + m.len ≤ iwOff s i + iwSize s i ∧ m.atomic = false ∧ (∀ tn,
      s.boundTn (fnIdx m.fn) = some tn → permits s tn (s.rd .IW_LINK i) = true) ∧
      linkUsable s (s.rd .IW_LINK i) = true ∧ linkHeld s (s.rd .IW_LINK i) = true ∧
      (if m.write then s.rd .IW_WR i else s.rd .IW_RD i) ≠ 0) ∧
    (∃ (m : HostMem) (i : Nat) (s : State), TakesBar2 m s ∧ findIn s (fnIdx m.fn) m.offset = some i ∧
      m.offset + m.len ≤ iwOff s i + iwSize s i ∧ m.atomic = false ∧ (∀ tn,
      s.boundTn (fnIdx m.fn) = some tn → permits s tn (s.rd .IW_LINK i) = true) ∧
      linkUsable s (s.rd .IW_LINK i) = true ∧ linkHeld s (s.rd .IW_LINK i) = false ∧ m.write = true ∧
      s.rd .IW_WR i ≠ 0) ∧
    (∃ (m : HostMem) (i : Nat) (s : State), TakesBar2 m s ∧ findIn s (fnIdx m.fn) m.offset = some i ∧
      m.offset + m.len ≤ iwOff s i + iwSize s i ∧ m.atomic = false ∧ (∀ tn,
      s.boundTn (fnIdx m.fn) = some tn → permits s tn (s.rd .IW_LINK i) = true) ∧
      linkUsable s (s.rd .IW_LINK i) = true ∧ linkHeld s (s.rd .IW_LINK i) = false ∧ m.write = false ∧
      s.rd .IW_RD i ≠ 0) :=
  ⟨⟨bar2 true 65536 4 (zeros 4), mapped, by decide +kernel⟩,
   ⟨bar2 true 65532 8 (zeros 8), 0, mapped, by decide +kernel⟩,
   ⟨bar2 true 0 8 (zeros 8), 0, (mapped.wr .WL_LSTATE 4 0), by decide +kernel⟩,
   ⟨bar2 true 0 8 (zeros 8), 0, mapped, by decide +kernel⟩,
   ⟨bar2 false 0 8 [], 0, mapped, by decide +kernel⟩⟩

/-- Each clause of HostRequestsLeave has a state and operands that meet its hypotheses. -/
theorem test_wit_HostRequestsLeave :
    (∃ (hl : Hl) (pos : Nat) (r : HReq) (d : Tbl Nat) (s : State), atPos s hl pos = some r ∧ r.reads = false ∧
      undeliverable s (fnIdx r.fn) = 0 ∧ linkOpen s hl = true ∧ logStalled s r = false ∧ allowed s hl r = some d) ∧
    (∃ (hl : Hl) (pos : Nat) (r : HReq) (s : State), atPos s hl pos = some r ∧ r.reads = false ∧
      undeliverable s (fnIdx r.fn) = 0 ∧ linkOpen s hl = true ∧ logStalled s r = false ∧ allowed s hl r = none) ∧
    (∃ (hl : Hl) (pos : Nat) (tag : Nat) (r : HReq) (d : Tbl Nat) (s : State), atPos s hl pos = some r ∧
      r.reads = true ∧ undeliverable s (fnIdx r.fn) = 0 ∧
      (r.src.speculative = true → inRegion s r.tn r.addr r.len = true) ∧ noReads s r = false ∧ linkOpen s hl = true ∧
      (tagSet s (fnIdx r.fn)).1 ≤ tag ∧ tag < (tagSet s (fnIdx r.fn)).1 + (tagSet s (fnIdx r.fn)).2 ∧
      tagHeld s (fnIdx r.fn) tag = false ∧ logStalled s r = false ∧ allowed s hl r = some d ∧ (∀ v lane,
      r.src ≠ .msix v lane)) ∧
    (∃ (hl : Hl) (pos : Nat) (tag : Nat) (r : HReq) (s : State), atPos s hl pos = some r ∧ r.reads = true ∧
      undeliverable s (fnIdx r.fn) = 0 ∧ (r.src.speculative = true → inRegion s r.tn r.addr r.len = true) ∧
      noReads s r = false ∧ tagHeld s (fnIdx r.fn) tag = true) :=
  ⟨⟨0, 0, hreq .write 4 (zeros 4) (.stream none),
    ((allowed ({ live.modHl 0 (fun l => { l with ltrActive := true }) with hostQ := [hreq .write 4 (zeros 4) (.stream none)] }) 0 (hreq .write 4 (zeros 4) (.stream none))).getD []),
    { live.modHl 0 (fun l => { l with ltrActive := true }) with hostQ := [hreq .write 4 (zeros 4) (.stream none)] },
    by decide +kernel⟩,
   ⟨0, 0, { hreq .write 4 (zeros 4) (.stream none) with tn := 0, charge := 100 },
     (({ live.modHl 0 (fun l => { l with ltrActive := true }) with hostQ := [{ hreq .write 4 (zeros 4) (.stream none) with tn := 0, charge := 100 }] }).wr .TN_BUCKET 0 0),
     by decide +kernel⟩,
   by
      refine ⟨0, 0, 5, hreq .read 4 [] (.window 0 0 0 0 0 false true),
        ((allowed ({ live.modHl 0 (fun l => { l with ltrActive := true }) with hostQ := [hreq .read 4 [] (.window 0 0 0 0 0 false true)] }) 0 (hreq .read 4 [] (.window 0 0 0 0 0 false true))).getD []),
        { live.modHl 0 (fun l => { l with ltrActive := true }) with hostQ := [hreq .read 4 [] (.window 0 0 0 0 0 false true)] },
        ?_⟩
      and_intros <;> first
        | decide +kernel
        | exact nofun,
   ⟨0, 0, 256, hreq .read 4 [] (.window 0 0 0 0 0 false true),
     { held (htag (hreq .read 4 [] (.window 0 0 0 0 0 false true)) false false false) with hostQ := [hreq .read 4 [] (.window 0 0 0 0 0 false true)] },
     by decide +kernel⟩⟩

/-- Each clause of HostCompletions has a state and operands that meet its hypotheses. -/
theorem test_wit_HostCompletions :
    (∃ (c : HostCpl) (s : State), s.dlUp c.fn.hl = true ∧ s.tlOn (hlTiller c.fn.hl) = true ∧
      tagOf s (fnIdx c.fn) c.tag = none) ∧
    (∃ (c : HostCpl) (s : State) (e : _), s.dlUp c.fn.hl = true ∧ s.tlOn (hlTiller c.fn.hl) = true ∧
      tagOf s (fnIdx c.fn) c.tag = some e ∧ e.quarantined = true ∧ e.timedOut = false) ∧
    (∃ (c : HostCpl) (s : State) (e : _), s.dlUp c.fn.hl = true ∧ s.tlOn (hlTiller c.fn.hl) = true ∧
      tagOf s (fnIdx c.fn) c.tag = some e ∧ e.quarantined = true ∧ e.timedOut = true) ∧
    (∃ (c : HostCpl) (s : State) (e : _), s.dlUp c.fn.hl = true ∧ s.tlOn (hlTiller c.fn.hl) = true ∧
      tagOf s (fnIdx c.fn) c.tag = some e ∧ e.quarantined = false ∧ e.dropped = true) ∧
    (∃ (c : HostCpl) (s : State) (e : _), s.dlUp c.fn.hl = true ∧ s.tlOn (hlTiller c.fn.hl) = true ∧
      tagOf s (fnIdx c.fn) c.tag = some e ∧ e.quarantined = false ∧ e.dropped = false ∧ consistent s e c = false) ∧
    (∃ (c : HostCpl) (s : State) (e : _), s.dlUp c.fn.hl = true ∧ s.tlOn (hlTiller c.fn.hl) = true ∧
      tagOf s (fnIdx c.fn) c.tag = some e ∧ e.quarantined = false ∧ e.dropped = false ∧ consistent s e c = true ∧
      (c.status ≠ 0 ∨ c.poisoned = true)) ∧
    (∃ (c : HostCpl) (s : State) (e : _), s.dlUp c.fn.hl = true ∧ s.tlOn (hlTiller c.fn.hl) = true ∧
      tagOf s (fnIdx c.fn) c.tag = some e ∧ e.quarantined = false ∧ e.dropped = false ∧ c.status = 0 ∧
      c.poisoned = false ∧ consistent s e c = true ∧ (e.req.kind = .flush ∨ replyLen e.req ≤ e.got + c.data.length)) ∧
    (∃ (fn : Fn) (tag : Nat) (e : HTag) (s : State), tagOf s (fnIdx fn) tag = some e ∧ e.quarantined = false ∧
      e.dropped = false) ∧
    (∃ (fn : Fn) (tag : Nat) (e : HTag) (s : State), tagOf s (fnIdx fn) tag = some e ∧ e.quarantined = true) ∧
    (∃ (fn : Fn) (tag : Nat) (s : State), tagOf s (fnIdx fn) tag = none) :=
  ⟨⟨⟨⟨0, 0⟩, 256, 0, false, 1, 4, 0, zeros 4⟩, live, by decide +kernel⟩,
   ⟨⟨⟨0, 0⟩, 256, 0, false, 1, 4, 0, zeros 4⟩,
     held (htag (hreq .read 4 [] (.window 0 0 0 0 0 false true)) true false false),
     htag (hreq .read 4 [] (.window 0 0 0 0 0 false true)) true false false, by decide +kernel⟩,
   ⟨⟨⟨0, 0⟩, 256, 0, false, 1, 4, 0, zeros 4⟩,
     held (htag (hreq .read 4 [] (.window 0 0 0 0 0 false true)) true true false),
     htag (hreq .read 4 [] (.window 0 0 0 0 0 false true)) true true false, by decide +kernel⟩,
   ⟨⟨⟨0, 0⟩, 256, 0, false, 1, 4, 0, zeros 4⟩,
     held (htag (hreq .read 4 [] (.window 0 0 0 0 0 false true)) false false true),
     htag (hreq .read 4 [] (.window 0 0 0 0 0 false true)) false false true, by decide +kernel⟩,
   ⟨⟨⟨0, 0⟩, 256, 0, false, 1, 0, 0, zeros 4⟩,
     held (htag (hreq .read 4 [] (.window 0 0 0 0 0 false true)) false false false),
     htag (hreq .read 4 [] (.window 0 0 0 0 0 false true)) false false false, by decide +kernel⟩,
   ⟨⟨⟨0, 0⟩, 256, 1, false, 0, 4, 0, []⟩,
     (held (htag (hreq .read 4 [] (.window 0 0 0 0 0 false true)) false false false)).wr .HL_FLIT 0 0,
     htag (hreq .read 4 [] (.window 0 0 0 0 0 false true)) false false false, by decide +kernel⟩,
   ⟨⟨⟨0, 0⟩, 256, 0, false, 1, 4, 0, zeros 4⟩,
     (held (htag (hreq .read 4 [] (.window 0 0 0 0 0 false true)) false false false)).wr .HL_FLIT 0 0,
     htag (hreq .read 4 [] (.window 0 0 0 0 0 false true)) false false false, by decide +kernel⟩,
   ⟨⟨0, 0⟩, 256, htag (hreq .read 4 [] (.window 0 0 0 0 0 false true)) false false false,
     held (htag (hreq .read 4 [] (.window 0 0 0 0 0 false true)) false false false), by decide +kernel⟩,
   ⟨⟨0, 0⟩, 256, htag (hreq .read 4 [] (.window 0 0 0 0 0 false true)) true false false,
     held (htag (hreq .read 4 [] (.window 0 0 0 0 0 false true)) true false false), by decide +kernel⟩,
   ⟨⟨0, 0⟩, 0, live, by decide +kernel⟩⟩

/-- Each clause of OutboundPackets has a state and operands that meet its hypotheses. -/
theorem test_wit_OutboundPackets :
    (∃ (wl : Wl) (p : Pkt) (i : Nat) (s : State), Taken s wl p ∧ p.typ = 1 ∧
      (p.ackReq = true → tagOpen s wl p.tag = false) ∧ 0 < p.len ∧ p.len ≤ 512 ∧ Passes s wl i p .OW_WR) ∧
    (∃ (wl : Wl) (p : Pkt) (s : State), Taken s wl p ∧ p.typ = 1 ∧ (p.ackReq = true → tagOpen s wl p.tag = false) ∧
      0 < p.len ∧ p.len ≤ 512 ∧ findOut s wl p.addr = none) ∧
    (∃ (wl : Wl) (p : Pkt) (i : Nat) (s : State), Taken s wl p ∧ p.typ = 2 ∧ tagOpen s wl p.tag = false ∧
      p.len ≤ 4096 ∧ Passes s wl i p .OW_RD ∧
      ((owDest s i).2 < 256 → s.rd .TN_ALLOWANCE (owDest s i).2 ≠ 0 ∨ s.rd .TN_CB_UNITS (owDest s i).2 ≠ 0)) ∧
    (∃ (wl : Wl) (p : Pkt) (s : State), Taken s wl p ∧ p.typ = 2 ∧ tagOpen s wl p.tag = false ∧ p.len ≤ 4096 ∧
      findOut s wl p.addr = none) ∧
    (∃ (wl : Wl) (p : Pkt) (i : Nat) (s : State), Taken s wl p ∧ p.typ = 6 ∧ tagOpen s wl p.tag = false ∧
      atomOk p.sub p.len = true ∧ Passes s wl i p .OW_AT ∧ atomMay s i p = true ∧
      ((owDest s i).2 < 256 → s.rd .TN_ALLOWANCE (owDest s i).2 ≠ 0 ∨ s.rd .TN_CB_UNITS (owDest s i).2 ≠ 0)) ∧
    (∃ (wl : Wl) (p : Pkt) (i : Nat) (s : State), Taken s wl p ∧ p.typ = 6 ∧ tagOpen s wl p.tag = false ∧
      atomOk p.sub p.len = true ∧ Passes s wl i p .OW_AT ∧ atomMay s i p = false) ∧
    (∃ (wl : Wl) (p : Pkt) (i : Nat) (s : State), Taken s wl p ∧ p.typ = 7 ∧ p.len = 0 ∧ findInt s wl p.num = some i ∧
      s.rd .NW_TO_PF i = 1 ∧ s.rd .NW_PF_HL i < 32 ∧ s.tlOn (hlTiller (s.rd .NW_PF_HL i)) = true ∧ s.hostQ = [] ∧
      (s.rd .NW_VEC_BASE i + (p.num - s.rd .NW_MSG_BASE i)) < s.rd .FI_VEC_COUNT (pfIdx (s.rd .NW_PF_HL i)) ∧
      (s.cf (pfIdx (s.rd .NW_PF_HL i))).msixEn = true ∧ s.boundTn (pfIdx (s.rd .NW_PF_HL i)) = none ∧
      s.rd .FI_HOLDOFF (pfIdx (s.rd .NW_PF_HL i)) (s.rd .NW_VEC_BASE i + (p.num - s.rd .NW_MSG_BASE i)) = 0 ∧
      (s.vec (pfIdx (s.rd .NW_PF_HL i)) (s.rd .NW_VEC_BASE i + (p.num - s.rd .NW_MSG_BASE i))).masked = false ∧
      (s.cf (pfIdx (s.rd .NW_PF_HL i))).fmask = false ∧ canSend s (pfIdx (s.rd .NW_PF_HL i)) = true ∧ p.sub = 1) ∧
    (∃ (wl : Wl) (p : Pkt) (i : Nat) (s : State), Taken s wl p ∧ p.typ = 7 ∧ p.len = 0 ∧ findInt s wl p.num = some i ∧
      s.rd .NW_TO_PF i = 1 ∧ s.rd .NW_PF_HL i < 32 ∧ s.tlOn (hlTiller (s.rd .NW_PF_HL i)) = true ∧ s.hostQ = [] ∧
      (s.rd .NW_VEC_BASE i + (p.num - s.rd .NW_MSG_BASE i)) < s.rd .FI_VEC_COUNT (pfIdx (s.rd .NW_PF_HL i)) ∧
      (s.cf (pfIdx (s.rd .NW_PF_HL i))).msixEn = true ∧ s.boundTn (pfIdx (s.rd .NW_PF_HL i)) = none ∧
      s.rd .FI_HOLDOFF (pfIdx (s.rd .NW_PF_HL i)) (s.rd .NW_VEC_BASE i + (p.num - s.rd .NW_MSG_BASE i)) = 0 ∧
      (s.vec (pfIdx (s.rd .NW_PF_HL i)) (s.rd .NW_VEC_BASE i + (p.num - s.rd .NW_MSG_BASE i))).masked = false ∧
      (s.cf (pfIdx (s.rd .NW_PF_HL i))).fmask = false ∧ canSend s (pfIdx (s.rd .NW_PF_HL i)) = true ∧ p.sub = 2 ∧
      (s.wl wl).peerLink = true) ∧
    (∃ (wl : Wl) (p : Pkt) (s : State), Taken s wl p ∧ p.typ = 8 ∧ p.sub = 1 ∧ p.len = 32) ∧
    (∃ (wl : Wl) (p : Pkt) (e : WTag) (s : State) (f : _) (i : _), Taken s wl p ∧
      (s.wl wl).wlTags.filter (fun t => t.tag == p.tag) = [e] ∧ e.quarantined = false ∧ e.src = .hostWrite f i ∧
      e.pkt.typ = 1 ∧ p.typ = 5 ∧ p.status = 0) ∧
    (∃ (wl : Wl) (p : Pkt) (e : WTag) (s : State) (f : _) (rd : _) (q : _), Taken s wl p ∧
      (s.wl wl).wlTags.filter (fun t => t.tag == p.tag) = [e] ∧ e.quarantined = false ∧ e.src = .hostRead f rd 0 ∧
      e.pkt.typ = 2 ∧ p.typ = 4 ∧ Machine.fits e p = true ∧ e.got = 0 ∧ p.len = e.pkt.len ∧
      s.inRds.filter (fun x => x.id == rd) = [q] ∧ q.parts = 1 ∧ q.done = [] ∧ q.sent = 0 ∧ q.failed = 0 ∧
      q.req.len = p.len ∧ p.len ≤ maxPayload s (fnIdx q.req.fn) ∧ s.dlUp q.req.fn.hl = true) ∧
    (∃ (wl : Wl) (tag : Nat) (e : WTag) (s : State) (f : _) (i : _),
      (s.wl wl).wlTags.find? (fun t => t.tag == tag) = some e ∧ e.quarantined = false ∧ e.ticksLeft = 0 ∧
      s.tlOn (wlTiller wl) = true ∧ e.src = .hostWrite f i) ∧
    (∃ (wl : Wl) (tag : Nat) (e : WTag) (s : State) (f : _) (rd : _) (part : _),
      (s.wl wl).wlTags.find? (fun t => t.tag == tag) = some e ∧ e.quarantined = false ∧ e.ticksLeft = 0 ∧
      s.tlOn (wlTiller wl) = true ∧ e.src = .hostRead f rd part) :=
  ⟨⟨0, pkt 1 0 8 (zeros 8), 0, mapped, by decide +kernel⟩,
   ⟨0, pkt 1 0 8 (zeros 8), live, by decide +kernel⟩,
   ⟨0, pkt 2 0 8 [], 0, mapped, by decide +kernel⟩,
   ⟨0, pkt 2 0 8 [], live, by decide +kernel⟩,
   ⟨0, pkt 6 0 4 (zeros 4), 0, mapped, by decide +kernel⟩,
   ⟨0, pkt 6 0 4 (zeros 4), 0, (mapped.modCf 1 (fun c => { c with atomicEn := false })), by decide +kernel⟩,
   ⟨0, pkt 7 1 0 [], 0, ((mapped.modCf 0 (fun c => { c with msixEn := true })).modVec 0 0 (fun v => { v with masked := false })),
     by decide +kernel⟩,
   ⟨0, pkt 7 2 0 [], 0, ((mapped.modCf 0 (fun c => { c with msixEn := true })).modVec 0 0 (fun v => { v with masked := false })).modWl 0 (fun w => { w with peerLink := true }),
     by decide +kernel⟩,
   ⟨0, pkt 8 1 32 (zeros 32), live, by decide +kernel⟩,
   ⟨0, pkt 5 0 0 [], { wtag false 0 with src := .hostWrite 0 0, pkt := pkt 1 0 16 (zeros 16) },
     wheld ({ wtag false 0 with src := .hostWrite 0 0, pkt := pkt 1 0 16 (zeros 16) }), 0, 0, by decide +kernel⟩,
   ⟨0, { pkt 4 0 16 (zeros 16) with byteCount := 16 }, wtag false 0, wheld (wtag false 0), 0, 0, (⟨0,
     bar2 false 0 16 [], 1, [], 0, 0, false, 0, 256⟩ : InRd), by decide +kernel⟩,
   ⟨0, 0, { wtag false 0 with src := .hostWrite 0 0, pkt := pkt 1 0 16 (zeros 16) },
     wheld ({ wtag false 0 with src := .hostWrite 0 0, pkt := pkt 1 0 16 (zeros 16) }), 0, 0, by decide +kernel⟩,
   ⟨0, 0, wtag false 0, wheld (wtag false 0), 0, 0, 0, by decide +kernel⟩⟩

/-- Each clause of Sheaves has a state and operands that meet its hypotheses. -/
theorem test_wit_Sheaves :
    (∃ (wl : Wl) (p : Pkt) (i : Nat) (d : Nat) (s : State), Taken s wl p ∧ p.typ = 1 ∧
      (p.ackReq = true → tagOpen s wl p.tag = false) ∧ 0 < p.len ∧ p.len ≤ 512 ∧ findOut s wl p.addr = some i ∧
      missCause s wl i p .OW_WR = 0 ∧ s.on .OW_SHEAF i = true ∧ d < s.rd .SH_DEST_COUNT (s.rd .OW_TNID i) ∧
      isExcused s (s.rd .OW_TNID i) d = false ∧
      ((shDest s (s.rd .OW_TNID i) d).2 < 256 → permits s (shDest s (s.rd .OW_TNID i) d).2 wl = true) ∧
      s.bit d .SH_LAGGING (s.rd .OW_TNID i) = false) ∧
    (∃ (sheaf : Fin 256) (d : Fin 8) (p : SheafPkt) (s : State),
      s.sheafPkts.find? (fun p => p.sheaf == sheaf.val) = some p ∧ holdsUp s p d = true) :=
  ⟨⟨0, pkt 1 0 8 (zeros 8), 0, 0,
    (((((mapped.wr .OW_SHEAF 1 0).wr .SH_MODE 2 0).wr .SH_DEST_COUNT 2 0).wr .SH_TO_PF 1 0 0).wr .SH_TO_PF 1 0 1),
    by decide +kernel⟩,
   ⟨0, 0, ⟨1, 0, pkt 1 0 8 (zeros 8), 0, 0, 0, 0, [.waiting, .accepted], 0⟩,
     { (((((mapped.wr .OW_SHEAF 1 0).wr .SH_MODE 2 0).wr .SH_DEST_COUNT 2 0).wr .SH_TO_PF 1 0 0).wr .SH_TO_PF 1 0 1) with sheafPkts := [⟨1, 0, pkt 1 0 8 (zeros 8), 0, 0, 0, 0, [.waiting, .accepted], 0⟩], hostQ := [hreq .write 8 (zeros 8) (.sheafCopy 1 0 0 0)] },
     by decide +kernel⟩⟩

/-- Each clause of LocalMessagesAndAnswers has a state and operands that meet its hypotheses. -/
theorem test_wit_LocalMessagesAndAnswers :
    (∃ (wl : Wl) (p : Pkt) (s : State), Taken s wl p ∧ p.typ = 7 ∧ p.sub = 1 ∧ p.len = 0 ∧ findInt s wl p.num = none) ∧
    (∃ (wl : Wl) (p : Pkt) (i : Nat) (s : State), Taken s wl p ∧ p.typ = 7 ∧ p.len = 0 ∧ findInt s wl p.num = some i ∧
      s.rd .NW_TO_PF i = 1 ∧ s.rd .NW_PF_HL i < 32 ∧ s.tlOn (hlTiller (s.rd .NW_PF_HL i)) = true ∧ s.hostQ = [] ∧
      (s.rd .NW_VEC_BASE i + (p.num - s.rd .NW_MSG_BASE i)) < s.rd .FI_VEC_COUNT (pfIdx (s.rd .NW_PF_HL i)) ∧
      (s.cf (pfIdx (s.rd .NW_PF_HL i))).msixEn = true ∧ s.boundTn (pfIdx (s.rd .NW_PF_HL i)) = none ∧
      s.rd .FI_HOLDOFF (pfIdx (s.rd .NW_PF_HL i)) (s.rd .NW_VEC_BASE i + (p.num - s.rd .NW_MSG_BASE i)) = 0 ∧
      (s.vec (pfIdx (s.rd .NW_PF_HL i)) (s.rd .NW_VEC_BASE i + (p.num - s.rd .NW_MSG_BASE i))).masked = true ∧
      p.sub = 1) ∧
    (∃ (wl : Wl) (p : Pkt) (i : Nat) (s : State), Taken s wl p ∧ p.typ = 7 ∧ p.len = 0 ∧ findInt s wl p.num = some i ∧
      s.rd .NW_TO_PF i = 1 ∧ s.rd .NW_PF_HL i < 32 ∧ s.tlOn (hlTiller (s.rd .NW_PF_HL i)) = true ∧ s.hostQ = [] ∧
      (s.rd .NW_VEC_BASE i + (p.num - s.rd .NW_MSG_BASE i)) < s.rd .FI_VEC_COUNT (pfIdx (s.rd .NW_PF_HL i)) ∧
      (s.cf (pfIdx (s.rd .NW_PF_HL i))).msixEn = true ∧ s.boundTn (pfIdx (s.rd .NW_PF_HL i)) = none ∧
      s.rd .FI_HOLDOFF (pfIdx (s.rd .NW_PF_HL i)) (s.rd .NW_VEC_BASE i + (p.num - s.rd .NW_MSG_BASE i)) = 0 ∧
      (s.vec (pfIdx (s.rd .NW_PF_HL i)) (s.rd .NW_VEC_BASE i + (p.num - s.rd .NW_MSG_BASE i))).masked = true ∧
      p.sub = 2 ∧ (s.wl wl).peerLink = true) ∧
    (∃ (wl : Wl) (p : Pkt) (s : State), Taken s wl p ∧ p.typ = 8 ∧ p.sub = 1 ∧ p.len = 32) ∧
    (∃ (wl : Wl) (p : Pkt) (s : State), Taken s wl p ∧ (p.typ = 3 ∨ p.typ = 4 ∨ p.typ = 5) ∧
      (s.wl wl).wlTags.find? (fun t => t.tag == p.tag) = none) ∧
    (∃ (wl : Wl) (p : Pkt) (e : WTag) (s : State), Taken s wl p ∧ (p.typ = 3 ∨ p.typ = 4 ∨ p.typ = 5) ∧
      (s.wl wl).wlTags.find? (fun t => t.tag == p.tag) = some e ∧ e.quarantined = true) ∧
    (∃ (wl : Wl) (p : Pkt) (e : WTag) (s : State) (f : _) (rd : _) (part : _), Taken s wl p ∧
      (p.typ = 3 ∨ p.typ = 4 ∨ p.typ = 5) ∧ (s.wl wl).wlTags.find? (fun t => t.tag == p.tag) = some e ∧
      e.src = .hostRead f rd part ∧ e.quarantined = false ∧ answers e.pkt p = true ∧
      (s.wl wl).wlTags.filter (fun t => t.tag == p.tag) = [e] ∧ ((p.typ ≠ 4 ∧ p.status = 0) ∨ (p.typ = 4 ∧
      Machine.fits e p = true ∧ e.got + p.len = e.pkt.len))) ∧
    (∃ (wl : Wl) (tag : Nat) (e : WTag) (s : State), (s.wl wl).wlTags.find? (fun t => t.tag == tag) = some e ∧
      e.quarantined = false ∧ e.ticksLeft = 0 ∧ s.tlOn (wlTiller wl) = true ∧ staleRsp s e = true) ∧
    (∃ (wl : Wl) (tag : Nat) (e : WTag) (s : State) (f : _) (rd : _) (part : _) (q : _),
      (s.wl wl).wlTags.find? (fun t => t.tag == tag) = some e ∧ e.quarantined = false ∧ e.ticksLeft = 0 ∧
      s.tlOn (wlTiller wl) = true ∧ e.src = .hostRead f rd part ∧ staleRsp s e = false ∧ inRd s rd = some q ∧
      q.failed = 0 ∧ s.dlUp q.req.fn.hl = true) ∧
    (∃ (wl : Wl) (tag : Nat) (s : State), (s.wl wl).wlTags.find? (fun t => t.tag == tag) = none) :=
  ⟨⟨0, pkt 7 1 0 [], live, by decide +kernel⟩,
   ⟨0, pkt 7 1 0 [], 0, ((mapped.modCf 0 (fun c => { c with msixEn := true })).modVec 0 0 (fun v => { v with masked := true })),
     by decide +kernel⟩,
   ⟨0, pkt 7 2 0 [], 0, ((mapped.modCf 0 (fun c => { c with msixEn := true })).modVec 0 0 (fun v => { v with masked := true })).modWl 0 (fun w => { w with peerLink := true }),
     by decide +kernel⟩,
   ⟨0, pkt 8 1 32 (zeros 32), live, by decide +kernel⟩,
   ⟨0, pkt 3 0 0 [], live, by decide +kernel⟩,
   ⟨0, pkt 3 0 0 [], wtag true 0, wheld (wtag true 0), by decide +kernel⟩,
   ⟨0, pkt 4 0 16 (zeros 16), wtag false 0, wheld (wtag false 0), 0, 0, 0, by decide +kernel⟩,
   ⟨0, 0, { wtag false 3 with tn := 0, src := .dmaRead 0 1 0 },
     wheld ({ wtag false 3 with tn := 0, src := .dmaRead 0 1 0 }), by decide +kernel⟩,
   ⟨0, 0, wtag false 0, wheld (wtag false 0), 0, 0, 0, (⟨0, bar2 false 0 16 [], 1, [], 0, 0, false, 0, 256⟩ : InRd),
     by decide +kernel⟩,
   ⟨0, 0, live, by decide +kernel⟩⟩

/-- Each clause of ChannelControl has a state and operands that meet its hypotheses. -/
theorem test_wit_ChannelControl :
    (∃ (fn : Fn) (ch : Chan) (s : State), chanWrites s fn ch = true ∧ s.on .CH_EN ch = true ∧
      s.tnState (chTn s ch) ≠ 3 ∧ chStop s ch = 0 ∧ s.rd .CH_STATE ch = 1 ∧ (s.ch ch).resumeNext = false ∧
      (s.ch ch).resume ≠ 0) ∧
    (∃ (fn : Fn) (ch : Chan) (s : State), chanWrites s fn ch = true ∧ s.on .CH_EN ch = true ∧
      s.tnState (chTn s ch) ≠ 3 ∧ chStop s ch = 0 ∧ s.rd .CH_STATE ch = 1 ∧ (s.ch ch).resumeNext = true) ∧
    (∃ (fn : Fn) (ch : Chan) (s : State), chanWrites s fn ch = true ∧ s.on .CH_EN ch = true ∧
      s.tnState (chTn s ch) ≠ 3 ∧ s.rd .CH_STATE ch = 1 ∧ (s.ch ch).resumeNext = false ∧ (s.ch ch).resume = 0) ∧
    (∃ (fn : Fn) (ch : Chan) (s : State), chanWrites s fn ch = true ∧ s.on .CH_EN ch = true ∧
      s.tnState (chTn s ch) ≠ 3 ∧ s.rd .CH_STATE ch = 2 ∧ (s.ch ch).descs = [] ∧ (s.ch ch).fetching = true) ∧
    (∃ (fn : Fn) (ch : Chan) (s : State), chanWrites s fn ch = true ∧ s.on .CH_EN ch = true ∧
      s.tnState (chTn s ch) ≠ 3 ∧ chStop s ch = 0 ∧ (s.rd .CH_STATE ch = 3 ∨ (s.rd .CH_STATE ch = 4 ∧
      s.rd .CH_DRAINING ch = 0))) ∧
    (∃ (fn : Fn) (ch : Chan) (s : State), chanWrites s fn ch = true ∧ s.on .CH_EN ch = true ∧
      s.tnState (chTn s ch) ≠ 3 ∧ (s.rd .CH_STATE ch = 4 ∧ s.rd .CH_DRAINING ch ≠ 0 ∨ s.rd .CH_STATE ch = 5)) ∧
    (∃ (fn : Fn) (ch : Chan) (s : State), chanWrites s fn ch = true ∧ s.on .CH_EN ch = false) ∧
    (∃ (fn : Fn) (ch : Chan) (s : State), chanWrites s fn ch = true ∧ s.on .CH_EN ch = true ∧
      s.tnState (chTn s ch) = 3 ∧ s.rd .CH_STATE ch ≠ 5) ∧
    (∃ (fn : Fn) (ch : Chan) (s : State), chanWrites s fn ch = true ∧ s.on .CH_EN ch = false ∧ s.rd .CH_STATE ch = 0) ∧
    (∃ (fn : Fn) (ch : Chan) (s : State), chanWrites s fn ch = true ∧ s.on .CH_EN ch = false ∧ s.rd .CH_STATE ch = 5) ∧
    (∃ (fn : Fn) (ch : Chan) (s : State), chanWrites s fn ch = true ∧ s.on .CH_EN ch = true ∧ s.rd .CH_STATE ch = 1) ∧
    (∃ (fn : Fn) (ch : Chan) (s : State), chanWrites s fn ch = true ∧ s.on .CH_EN ch = true ∧
      (s.rd .CH_STATE ch = 2 ∨ s.rd .CH_STATE ch = 3 ∨ s.rd .CH_STATE ch = 4)) :=
  ⟨⟨⟨0, 0⟩, 0, (chIn 1).modCh 0 (fun c => { c with resume := 4096 }), by decide +kernel⟩,
   ⟨⟨0, 0⟩, 0, (chIn 1).modCh 0 (fun c => { c with resume := 4096, resumeNext := true }), by decide +kernel⟩,
   ⟨⟨0, 0⟩, 0, chIn 1, by decide +kernel⟩,
   ⟨⟨0, 0⟩, 0, (chIn 2).modCh 0 (fun c => { c with fetching := true }), by decide +kernel⟩,
   ⟨⟨0, 0⟩, 0, chIn 3, by decide +kernel⟩,
   ⟨⟨0, 0⟩, 0, chIn 5, by decide +kernel⟩,
   ⟨⟨0, 0⟩, 0, live, by decide +kernel⟩,
   ⟨⟨0, 0⟩, 0, (chIn 1).wr .TN_STATE 3 0, by decide +kernel⟩,
   ⟨⟨0, 0⟩, 0, live, by decide +kernel⟩,
   ⟨⟨0, 0⟩, 0, (chIn 5).wr .CH_EN 0 0, by decide +kernel⟩,
   ⟨⟨0, 0⟩, 0, chIn 1, by decide +kernel⟩,
   ⟨⟨0, 0⟩, 0, chIn 2, by decide +kernel⟩⟩

/-- Each clause of ChannelProgress has a state and operands that meet its hypotheses. -/
theorem test_wit_ChannelProgress :
    (∃ (ch : Chan) (s : State), mayRead s ch = true ∧ (s.ch ch).fetchFailed = 1) ∧
    (∃ (ch : Chan) (d : Desc) (s : State), mayRead s ch = true ∧ (s.ch ch).fetchFailed = 0 ∧
      (s.ch ch).descs.find? (fun d => d.failed != 0) = some d ∧ descBusy s ch d.id = false) ∧
    (∃ (ch : Chan) (s : State), chLeft s ch = false ∧ s.rd .CH_STATE ch = 4) ∧
    (∃ (ch : Chan) (s : State), chLeft s ch = false ∧ s.rd .CH_STATE ch = 5) ∧
    (∃ (c : Nat) (s : State), s.rd .TN_GENERATION (chTn s c) < 16) :=
  ⟨⟨0, (chIn 2).modCh 0 (fun c => { c with fetchFailed := 1 }), by decide +kernel⟩,
   ⟨0, desc 1, (chIn 2).modCh 0 (fun c => { c with descs := [desc 1] }), by decide +kernel⟩,
   ⟨0, chIn 4, by decide +kernel⟩,
   ⟨0, chIn 5, by decide +kernel⟩,
   ⟨0, (chIn 2).modCh 0 (fun c => { c with descs := [desc 0] }), by decide +kernel⟩⟩

/-- Each clause of LaneTraining has a state and operands that meet its hypotheses. -/
theorem test_wit_LaneTraining :
    (∃ (wl : Wl) (s : State), s.rd .WP_STATE wl = 1 ∧ phyOn s wl = true) ∧
    (∃ (wl : Wl) (blocks : List (Fin 4 × Bytes)) (x : Ts2) (s : State) (r : _) (set : _), ts2Of blocks = some x ∧
      phyOn s wl = true ∧ s.rd .WP_STATE wl = 2 ∧ roleConflict s wl x = false ∧ claimsKey s wl x = true ∧
      choice (sendTs2 wl (keepTs2 wl x s)) wl x 15 = some (r, set)) ∧
    (∃ (wl : Wl) (blocks : List (Fin 4 × Bytes)) (x : Ts2) (s : State), ts2Of blocks = some x ∧ phyOn s wl = true ∧
      s.rd .WP_STATE wl = 2 ∧ roleConflict s wl x = false ∧ claimsKey s wl x = true ∧
      choice (sendTs2 wl (keepTs2 wl x s)) wl x 15 = none) ∧
    (∃ (wl : Wl) (blocks : List (Fin 4 × Bytes)) (x : Ts2) (s : State), ts2Of blocks = some x ∧ phyOn s wl = true ∧
      s.rd .WP_STATE wl = 2 ∧ roleConflict s wl x = true) ∧
    (∃ (blocks : List (Fin 4 × Bytes)), ts2Of blocks = none) ∧
    (∃ (wl : Wl) (rate : Fin 4) (set : Fin 16) (s : State), s.rd .WP_STATE wl = 2 ∧ (s.wp wl).ts2.isSome = true ∧
      ts3Agrees s wl rate set = true) ∧
    (∃ (wl : Wl) (rate : Fin 4) (set : Fin 16) (s : State), ts3Agrees s wl rate set = false) ∧
    (∃ (wl : Wl) (s : State), s.rd .WP_STATE wl = 3 ∧ (s.wp wl).chosenRate < 4) ∧
    (∃ (wl : Wl) (s : State), s.rd .WP_STATE wl = 4 ∧ (s.wp wl).chosenRate < 4) ∧
    (∃ (wl : Wl) (s : State),
      (s.rd .WP_STATE wl = 2 ∨ s.rd .WP_STATE wl = 3 ∨ s.rd .WP_STATE wl = 4 ∨ s.rd .WP_STATE wl = 6 ∨ (s.rd .WP_STATE wl = 1 ∧
      (s.wp wl).clockSeen = true))) ∧
    (∃ (wl : Wl) (s : State), s.rd .WP_STATE wl = 5) :=
  ⟨⟨0, phyIn 1, by decide +kernel⟩,
   ⟨0, ts2s 1 15, ((ts2Of (ts2s 1 15)).getD (ts2 true)), phyIn 2,
     ((choice (sendTs2 0 (keepTs2 0 ((ts2Of (ts2s 1 15)).getD (ts2 true)) (phyIn 2))) 0 ((ts2Of (ts2s 1 15)).getD (ts2 true)) 15).getD (0,
     0)).1, ((choice (sendTs2 0 (keepTs2 0 ((ts2Of (ts2s 1 15)).getD (ts2 true)) (phyIn 2))) 0 ((ts2Of (ts2s 1 15)).getD (ts2 true)) 15).getD (0,
     0)).2, by decide +kernel⟩,
   ⟨0, ts2s 1 0, ((ts2Of (ts2s 1 0)).getD (ts2 true)), phyIn 2, by decide +kernel⟩,
   ⟨0, ts2s 0 15, ((ts2Of (ts2s 0 15)).getD (ts2 true)), phyIn 2, by decide +kernel⟩,
   ⟨[], by decide +kernel⟩,
   ⟨0, 0, 0, (phyIn 2).modWp 0 (fun w => { w with ts2 := some (ts2 true), chosenRate := 0, chosenSet := 0 }),
     by decide +kernel⟩,
   ⟨0, 0, 0, (phyIn 2).modWp 0 (fun w => { w with chosenRate := 1 }), by decide +kernel⟩,
   ⟨0, phyIn 3, by decide +kernel⟩,
   ⟨0, phyIn 4, by decide +kernel⟩,
   ⟨0, phyIn 2, by decide +kernel⟩,
   ⟨0, live, by decide +kernel⟩⟩

/-- Each clause of LaneControl has a state and operands that meet its hypotheses. -/
theorem test_wit_LaneControl :
    (∃ (wl : Wl) (c : Instr) (s : State), (c = .phyRetrain wl ∨ c = .partnerRetrain wl) ∧ s.rd .WP_STATE wl = 5 ∧
      s.rd .WL_LSTATE wl = 2) ∧
    (∃ (wl : Wl) (s : State), s.rd .WP_STATE wl ≠ 5) ∧
    (∃ (wl : Wl) (rate : Fin 4) (set : Fin 16) (s : State), s.rd .WP_STATE wl = 6 ∧ phyOn s wl = true ∧
      retrainChoice s wl rate set = some (rate.val, set.val) ∧ rate.val = s.rd .WP_CUR_RATE wl ∧
      s.rd .WL_LSTATE wl = 3) ∧
    (∃ (wl : Wl) (rate : Fin 4) (set : Fin 16) (s : State), s.rd .WP_STATE wl = 6 ∧ phyOn s wl = true ∧
      retrainChoice s wl rate set = some (rate.val, set.val) ∧ rate.val ≠ s.rd .WP_CUR_RATE wl) ∧
    (∃ (fn : Fn) (wl : Wl) (s : State), wpWrites s fn wl = true) ∧
    (∃ (fn : Fn) (wl : Wl) (s : State), wpWrites s fn wl = true ∧ s.rd .WP_STATE wl = 0 ∧
      phyCan (s.wr .WP_DISABLE 0 wl) wl = true ∧ s.rd .WP_LOOPBACK wl = 0) ∧
    (∃ (fn : Fn) (wl : Wl) (s : State), wpWrites s fn wl = true ∧ s.rd .WP_STATE wl ≠ 0 ∧ s.rd .WP_STATE wl ≠ 7) ∧
    (∃ (fn : Fn) (wl : Wl) (v : Fin 4) (s : State), mgrWrites s fn = true ∧ (v.val = 1 ∨ v.val = 2) ∧
      s.rd .WP_STATE wl = 1 ∧ phyOn s wl = true) ∧
    (∃ (fn : Fn) (wl : Wl) (v : Fin 4) (s : State), mgrWrites s fn = true ∧ (v.val = 1 ∨ v.val = 2) ∧
      s.rd .WP_STATE wl = 0) ∧
    (∃ (fn : Fn) (wl : Wl) (v : Fin 4) (s : State), mgrWrites s fn = true ∧ (v.val = 1 ∨ v.val = 2) ∧
      s.rd .WP_STATE wl ≠ 0 ∧ s.rd .WP_STATE wl ≠ 1 ∧ phyOn s wl = true) ∧
    (∃ (fn : Fn) (wl : Wl) (v : Fin 4) (s : State), mgrWrites s fn = true ∧ v.val ≠ 1 ∧ v.val ≠ 2 ∧
      s.rd .WP_STATE wl = 7 ∧ phyOn s wl = true ∧ phyCan s wl = true) :=
  ⟨⟨0, .phyRetrain 0, live, by decide +kernel⟩,
   ⟨0, phyIn 1, by decide +kernel⟩,
   ⟨0, 0, 15, ((phyIn 6).wr .WL_LSTATE 3 0).wr .WP_ROLE 1 0, by decide +kernel⟩,
   ⟨0, 1, 15, ((phyIn 6).wr .WL_LSTATE 3 0).wr .WP_ROLE 1 0, by decide +kernel⟩,
   ⟨⟨0, 0⟩, 0, live, by decide +kernel⟩,
   ⟨⟨0, 0⟩, 0, phyIn 0, by decide +kernel⟩,
   ⟨⟨0, 0⟩, 0, live, by decide +kernel⟩,
   ⟨⟨0, 0⟩, 0, 1, phyIn 1, by decide +kernel⟩,
   ⟨⟨0, 0⟩, 0, 1, phyIn 0, by decide +kernel⟩,
   ⟨⟨0, 0⟩, 0, 1, live, by decide +kernel⟩,
   ⟨⟨0, 0⟩, 0, 0, phyIn 7, by decide +kernel⟩⟩

/-- Each clause of LaneTests has a state and operands that meet its hypotheses. -/
theorem test_wit_LaneTests :
    (∃ (fn : Fn) (wl : Wl) (lane : Fin 4) (gen : Fin 4) (chk : Fin 4) (s : State), wpWrites s fn wl = true ∧
      (gen.val ≠ 0 ∨ chk.val ≠ 0) ∧ s.rd .WP_LSTATE wl lane = 3) ∧
    (∃ (fn : Fn) (wl : Wl) (lane : Fin 4) (gen : Fin 4) (chk : Fin 4) (s : State), wpWrites s fn wl = true ∧
      (gen.val ≠ 0 ∨ chk.val ≠ 0) ∧ s.rd .WP_LSTATE wl lane = 2) ∧
    (∃ (fn : Fn) (wl : Wl) (lane : Fin 4) (gen : Fin 4) (chk : Fin 4) (s : State), wpWrites s fn wl = true ∧
      gen.val = 0 ∧ chk.val = 0 ∧ s.rd .WP_LSTATE wl lane = 5 ∧ (s.wp wl).prevL.getD lane 0 = 3) ∧
    (∃ (wl : Wl) (lane : Fin 4) (s : State), s.rd .WP_LSTATE wl lane = 5 ∧ s.on .WP_CHK wl lane = true) ∧
    (∃ (wl : Wl) (lane : Fin 4) (s : State), s.on .WP_PRBS_SYNC wl lane = true) ∧
    (∃ (fn : Fn) (wl : Wl) (s : State), wpWrites s fn wl = true) ∧
    (∃ (fn : Fn) (wl : Wl) (lane : Fin 4) (s : State), wpWrites s fn wl = true ∧ (s.wp wl).injPend.getD lane 0 = 0 ∧
      s.rd .WP_INJ_LIVE wl lane = 0 ∧ s.rd .WP_LSTATE wl lane = 5 ∧ s.on .WP_GEN wl lane = true ∧
      s.rd .WP_INJ_MODE wl lane = 1) ∧
    (∃ (fn : Fn) (wl : Wl) (lane : Fin 4) (s : State), wpWrites s fn wl = true ∧ (s.wp wl).injPend.getD lane 0 = 0 ∧
      s.rd .WP_INJ_LIVE wl lane = 0 ∧ s.rd .WP_LSTATE wl lane = 5 ∧ s.on .WP_GEN wl lane = true ∧
      s.rd .WP_INJ_MODE wl lane = 2) ∧
    (∃ (fn : Fn) (wl : Wl) (lane : Fin 4) (s : State), wpWrites s fn wl = true ∧ (s.wp wl).injPend.getD lane 0 = 0 ∧
      s.rd .WP_INJ_LIVE wl lane ≠ 0 ∧ s.rd .WP_STATE wl = 5 ∧ (s.wp wl).txSet.testBit lane = true ∧
      (s.wp wl).injPend.length = 4 ∧ s.rd .WP_INJ_MODE wl lane = 2) ∧
    (∃ (fn : Fn) (wl : Wl) (lane : Fin 4) (s : State), wpWrites s fn wl = true ∧ (s.wp wl).injPend.getD lane 0 = 0 ∧
      injMay s wl lane = true ∧ (s.wp wl).injAcc.length = 4 ∧ s.rd .WP_INJ_MODE wl lane = 3) ∧
    (∃ (fn : Fn) (wl : Wl) (lane : Fin 4) (s : State), wpWrites s fn wl = true ∧ (s.wp wl).injAcc.getD lane 0 ≠ 0) :=
  ⟨⟨⟨0, 0⟩, 0, 0, 1, 0, ((live.wr .WP_LSTATE 3 0 0)), by decide +kernel⟩,
   ⟨⟨0, 0⟩, 0, 0, 0, 1, ((live.wr .WP_LSTATE 2 0 0)), by decide +kernel⟩,
   ⟨⟨0, 0⟩, 0, 0, 0, 0, ((live.wr .WP_LSTATE 5 0 0)).modWp 0 (fun w => { w with prevL := [3, 0, 0, 0] }),
     by decide +kernel⟩,
   ⟨0, 0, (((live.wr .WP_LSTATE 5 0 0).wr .WP_CHK 1 0 0)), by decide +kernel⟩,
   ⟨0, 0, ((live.wr .WP_PRBS_SYNC 1 0 0)), by decide +kernel⟩,
   ⟨⟨0, 0⟩, 0, live, by decide +kernel⟩,
   ⟨⟨0, 0⟩, 0, 0, ((((live.wr .WP_LSTATE 5 0 0).wr .WP_GEN 1 0 0).wr .WP_INJ_MODE 1 0 0)), by decide +kernel⟩,
   ⟨⟨0, 0⟩, 0, 0, ((((live.wr .WP_LSTATE 5 0 0).wr .WP_GEN 1 0 0).wr .WP_INJ_MODE 2 0 0)), by decide +kernel⟩,
   ⟨⟨0, 0⟩, 0, 0, (((live.wr .WP_INJ_LIVE 1 0 0).wr .WP_INJ_MODE 2 0 0).modWp 0 (fun w => { w with txSet := 1 })),
     by decide +kernel⟩,
   ⟨⟨0, 0⟩, 0, 0, ((((live.wr .WP_LSTATE 5 0 0).wr .WP_GEN 1 0 0).wr .WP_INJ_MODE 3 0 0)), by decide +kernel⟩,
   ⟨⟨0, 0⟩, 0, 0, (live.modWp 0 (fun w => { w with injAcc := [1, 0, 0, 0] })), by decide +kernel⟩⟩

/-- Each clause of AlignmentBlocks has a state and operands that meet its hypotheses. -/
theorem test_wit_AlignmentBlocks :
    (∃ (wl : Wl) (s : State), s.rd .WP_STATE wl = 5 ∧ (s.wl wl).txHalf = none ∧ maySwitchTx s wl = false) ∧
    (∃ (wl : Wl) (s : State), s.rd .WP_STATE wl = 5 ∧ (s.wl wl).txHalf = none ∧ maySwitchTx s wl = true) ∧
    (∃ (wl : Wl) (bs : List (Fin 4 × Bytes)) (s : State), s.rd .WP_STATE wl = 5 ∧
      (∀ l ∈ ((List.range 4).filter (fun l => (s.wp wl).rxSet.testBit l)), (inPlace s wl l bs).isSome = true) ∧
      (s.wl wl).rsStage ≠ 2) ∧
    (∃ (wl : Wl) (bs : List (Fin 4 × Bytes)) (s : State) (l : _), s.rd .WP_STATE wl = 5 ∧
      l ∈ ((List.range 4).filter (fun l => (s.wp wl).rxSet.testBit l)) ∧ inPlace s wl l bs = none ∧
      (s.wp wl).badRun.getD l 0 = 2 ∧ (s.wl wl).rsStage ≠ 2) ∧
    (∃ (wl : Wl) (bs : List (Fin 4 × Bytes)) (s : State), s.rd .WP_STATE wl = 5 ∧
      (∀ l ∈ ((List.range 4).filter (fun l => (s.wp wl).rxSet.testBit l)), ∃ b, inPlace s wl l bs = some b ∧
      num b 3 1 % 16 = (s.wl wl).rsSet) ∧ (s.wl wl).rsStage = 2 ∧ (s.wl wl).rsRxSwitched = false ∧
      (s.wl wl).rsSet < 16) ∧
    (∃ (wl : Wl) (lane : Fin 4) (s : State) (errors : _) (skew : _), s.rd .WP_LSTATE wl lane = 4 ∧
      errors ≤ s.rd .WP_BG_ERR_MAX wl ∧ skew ≤ 32) ∧
    (∃ (wl : Wl) (lane : Fin 4) (s : State) (errors : _) (skew : _), s.rd .WP_LSTATE wl lane = 4 ∧
      (s.rd .WP_BG_ERR_MAX wl < errors ∨ 32 < skew)) ∧
    (∃ (wl : Wl) (lane : Fin 4) (s : State), s.rd .WP_LSTATE wl lane = 4) :=
  ⟨⟨0, live, by decide +kernel⟩,
   ⟨0, shaping (fun w => { w with rsStage := 2, rsReadyRcvd := true }), by decide +kernel⟩,
   ⟨0, [(0, alignBytes 1 0 1 5)], (live.modWp 0 (fun w => { w with rxSet := 1, txSet := 1 })), by decide +kernel⟩,
   ⟨0, [], (live.modWp 0 (fun w => { w with rxSet := 1, badRun := [2, 0, 0, 0] })), 0, by decide +kernel⟩,
   ⟨0, [(0, alignBytes 1 0 1 5)],
     (live.modWp 0 (fun w => { w with rxSet := 1, txSet := 1 })).modWl 0 (fun w => { w with rsStage := 2, rsSet := 1 }),
     by decide +kernel⟩,
   ⟨0, 0, (live.wr .WP_LSTATE 4 0 0), 0, 0, by decide +kernel⟩,
   ⟨0, 0, (live.wr .WP_LSTATE 4 0 0), 0, 33, by decide +kernel⟩,
   ⟨0, 0, (live.wr .WP_LSTATE 4 0 0), by decide +kernel⟩⟩

/-- Each clause of GrainsReceived has a state and operands that meet its hypotheses. -/
theorem test_wit_GrainsReceived :
    (∃ (g : Grain), g.payload.length ≠ 64) ∧
    (∃ (wl : Wl) (g : Grain) (s : State), g.payload.length = 64 ∧ grainsPass s wl = true ∧ s.rd .WL_LSTATE wl = 2 ∧
      crcOk g = false ∧ g.inj = false) ∧
    (∃ (wl : Wl) (g : Grain) (s : State), g.payload.length = 64 ∧ grainsPass s wl = true ∧ s.rd .WL_LSTATE wl = 2 ∧
      crcOk g = true ∧ (g.typ = 1 ∨ g.typ = 2) ∧ g.seq = s.rd .WL_NEXT_RX wl ∧ g.seq < 4096) ∧
    (∃ (wl : Wl) (g : Grain) (s : State) (k : _), g.payload.length = 64 ∧ grainsPass s wl = true ∧
      s.rd .WL_LSTATE wl = 2 ∧ crcOk g = true ∧ (g.typ = 1 ∨ g.typ = 2) ∧ 1 ≤ k ∧ k ≤ 2048 ∧
      s.rd .WL_NEXT_RX wl < 4096 ∧ g.seq = (s.rd .WL_NEXT_RX wl + 4096 - k) % 4096) ∧
    (∃ (wl : Wl) (g : Grain) (s : State) (k : _), g.payload.length = 64 ∧ grainsPass s wl = true ∧
      s.rd .WL_LSTATE wl = 2 ∧ crcOk g = true ∧ (g.typ = 1 ∨ g.typ = 2) ∧ 1 ≤ k ∧ k < 2048 ∧
      s.rd .WL_NEXT_RX wl < 4096 ∧ g.seq = (s.rd .WL_NEXT_RX wl + k) % 4096) ∧
    (∃ (wl : Wl) (g : Grain) (s : State), g.payload.length = 64 ∧ grainsPass s wl = true ∧ s.rd .WL_LSTATE wl = 2 ∧
      crcOk g = true ∧ g.typ = 1 ∧ g.seq = s.rd .WL_NEXT_RX wl ∧ g.seq < 4096 ∧ g.ackV = false ∧ g.crV = false ∧
      g.sop = 1 ∧ g.eop = 1 ∧ (s.wl wl).rxAsm = none ∧ creditHeld s wl (g.payload.take 32) = true ∧
      rxNeed (g.payload.take 32) = 1) ∧
    (∃ (wl : Wl) (b : InitBody) (s : State), grainsPass s wl = true ∧ s.rd .WL_LSTATE wl = 1 ∧ initOk b = false) ∧
    (∃ (wl : Wl) (b : InitBody) (s : State), grainsPass s wl = true ∧ s.rd .WL_LSTATE wl = 1 ∧ initOk b = true ∧
      b.initSeen = true ∧ (s.wl wl).resume = false ∧ s.rd .WL_GRACE_RUN wl = 0) ∧
    (∃ (wl : Wl) (s : State), s.tlOn (wlTiller wl) = true ∧ s.rd .WL_LSTATE wl = 1) ∧
    (∃ (wl : Wl) (s : State), s.tlOn (wlTiller wl) = true ∧ s.on .WL_GRACE_RUN wl = true) ∧
    (∃ (fn : Fn) (wl : Wl) (s : State), wlWrites s fn wl = true ∧ s.rd .WL_LSTATE wl ≠ 6) ∧
    (∃ (fn : Fn) (wl : Wl) (s : State), wlWrites s fn wl = true ∧ s.rd .WL_LOCK wl = 0) ∧
    (∃ (wl : Wl) (s : State), grainsPass s wl = true ∧ (s.rd .WL_LSTATE wl = 1 ∨ s.rd .WL_LSTATE wl = 2)) :=
  ⟨⟨grain 1 0 0 0 [], by decide +kernel⟩,
   ⟨0, { grain 1 0 0 0 (zeros 64) with crc := 0 }, live, by decide +kernel⟩,
   ⟨0, grain 2 0 0 0 (zeros 64), live, by decide +kernel⟩,
   ⟨0, grain 2 0 0 4095 (zeros 64), live, 1, by decide +kernel⟩,
   ⟨0, grain 2 0 0 1 (zeros 64), live, 1, by decide +kernel⟩,
   ⟨0, grain 1 1 1 0 (padTo 64 (pktBytes (pkt 2 0 16 []))), live, by decide +kernel⟩,
   ⟨0, { initB false with version := 2 }, (live.wr .WL_LSTATE 1 0), by decide +kernel⟩,
   ⟨0, initB true, (live.wr .WL_LSTATE 1 0), by decide +kernel⟩,
   ⟨0, (live.wr .WL_LSTATE 1 0), by decide +kernel⟩,
   ⟨0, (live.wr .WL_GRACE_RUN 1 0), by decide +kernel⟩,
   ⟨⟨0, 0⟩, 0, live, by decide +kernel⟩,
   ⟨⟨0, 0⟩, 0, live, by decide +kernel⟩,
   ⟨0, live, by decide +kernel⟩⟩

/-- Each clause of GrainsSent has a state and operands that meet its hypotheses. -/
theorem test_wit_GrainsSent :
    (∃ (wl : Wl) (s : State), grainsPass s wl = true ∧ s.rd .WL_LSTATE wl = 2 ∧ 0 < (s.wl wl).ackPending ∧
      (s.wl wl).txHalf = none) ∧
    (∃ (wl : Wl) (pos : Nat) (tag : Nat) (p : WPkt) (d : Tbl Nat) (s : State), s.rd .WL_LSTATE wl = 2 ∧
      s.tlOn (wlTiller wl) = true ∧ wAllowed s wl pos = some (p, d) ∧ cutRead s wl p = (p, none) ∧
      (s.wl wl).txHalf = none ∧ s.rd .WL_NEXT_TX wl < 4096 ∧ (s.wl wl).replay.length + (pktCost p.pkt + 2) / 2 ≤ 512 ∧
      (p.tagged = true → tag < 4096 ∧ ∀ t ∈ (s.wl wl).wlTags, t.tag ≠ tag)) ∧
    (∃ (wl : Wl) (pos : Nat) (s : State), s.rd .WL_LSTATE wl = 2 ∧ s.tlOn (wlTiller wl) = true ∧
      wAllowed s wl pos = none ∧ ((s.wl wl).txHalf = none ∨ wHeads s wl ≠ [])) ∧
    (∃ (wl : Wl) (s : State), s.rd .WL_LSTATE wl = 2 ∧ s.tlOn (wlTiller wl) = true ∧ (s.wl wl).replay ≠ [] ∧
      s.rd .WL_REPLAY_COUNT wl < s.rd .WL_REPLAY_LIMIT wl ∧ s.rd .WL_REPLAY_LIMIT wl < 2 ^ Fld.WL_REPLAY_COUNT.width) ∧
    (∃ (wl : Wl) (s : State), s.rd .WL_LSTATE wl = 2 ∧ s.tlOn (wlTiller wl) = true ∧ (s.wl wl).replay ≠ [] ∧
      s.rd .WL_REPLAY_LIMIT wl ≤ s.rd .WL_REPLAY_COUNT wl ∧ (s.wl wl).replayRetrained = false ∧ s.rd .WP_STATE wl = 5) ∧
    (∃ (wl : Wl) (s : State), s.rd .WL_LSTATE wl = 2 ∧ s.tlOn (wlTiller wl) = true ∧ (s.wl wl).replay ≠ [] ∧
      s.rd .WL_REPLAY_LIMIT wl ≤ s.rd .WL_REPLAY_COUNT wl ∧ (s.wl wl).replayRetrained = true) :=
  ⟨⟨0, shaping (fun w => { w with ackPending := 1 }), by decide +kernel⟩,
   ⟨0, 0, 0, ⟨pkt 1 0 8 (zeros 8), .hostWrite 0 0, 256, 0, 0⟩,
     ((wAllowed ((shaping (fun w => { w with linkQ := [⟨pkt 1 0 8 (zeros 8), .hostWrite 0 0, 256, 0, 0⟩] })).wr .WL_AVAIL_P 64 0) 0 0).map (·.2)).getD [],
     ((shaping (fun w => { w with linkQ := [⟨pkt 1 0 8 (zeros 8), .hostWrite 0 0, 256, 0, 0⟩] })).wr .WL_AVAIL_P 64 0),
     by decide +kernel⟩,
   ⟨0, 0, live, by decide +kernel⟩,
   ⟨0, shaping (fun w => { w with replay := [⟨1, 0, 0, 0, 0, zeros 64⟩] }), by decide +kernel⟩,
   ⟨0, (shaping (fun w => { w with replay := [⟨1, 0, 0, 0, 0, zeros 64⟩] })).wr .WL_REPLAY_COUNT 15 0,
     by decide +kernel⟩,
   ⟨0, (shaping (fun w => { w with replay := [⟨1, 0, 0, 0, 0, zeros 64⟩], replayRetrained := true })).wr .WL_REPLAY_COUNT 15 0,
     by decide +kernel⟩⟩

/-- Each clause of LinkStarts has a state and operands that meet its hypotheses. -/
theorem test_wit_LinkStarts :
    (∃ (wl : Wl) (b : InitBody) (s : State), grainsPass s wl = true ∧ s.rd .WL_LSTATE wl = 1 ∧ initOk b = false) ∧
    (∃ (wl : Wl) (b : InitBody) (s : State), grainsPass s wl = true ∧ s.rd .WL_LSTATE wl = 1 ∧ initOk b = true ∧
      b.initSeen = false ∧ (s.wl wl).initDone = false) ∧
    (∃ (wl : Wl) (b : InitBody) (s : State), grainsPass s wl = true ∧ s.rd .WL_LSTATE wl = 1 ∧ initOk b = true ∧
      (b.initSeen = true ∨ (s.wl wl).initDone = true) ∧ resumes s wl b = true ∧
      ackReach s wl ((b.nextRx + 4095) % 4096) ≤ (s.wl wl).replay.length ∧ waiting s wl = [] ∧ Calm s wl 2) ∧
    (∃ (wl : Wl) (b : InitBody) (s : State), grainsPass s wl = true ∧ s.rd .WL_LSTATE wl = 1 ∧ initOk b = true ∧
      (b.initSeen = true ∨ (s.wl wl).initDone = true) ∧ (s.wl wl).resume = false ∧ s.rd .WL_GRACE_RUN wl = 0) ∧
    (∃ (wl : Wl) (s : State), grainsPass s wl = true ∧ s.rd .WL_LSTATE wl = 2) ∧
    (∃ (wl : Wl) (s : State), s.rd .WL_LSTATE wl = 1 ∧ s.tlOn (wlTiller wl) = true) ∧
    (∃ (wl : Wl) (s : State), s.on .WL_GRACE_RUN wl = true ∧ s.tlOn (wlTiller wl) = true) ∧
    (∃ (fn : Fn) (wl : Wl) (s : State), wlWrites s fn wl = true ∧ s.rd .WL_LSTATE wl ≠ 6) ∧
    (∃ (wl : Wl) (s : State), grainsPass s wl = true ∧ (s.rd .WL_LSTATE wl = 1 ∨ s.rd .WL_LSTATE wl = 2)) ∧
    (∃ (fn : Fn) (wl : Wl) (s : State), wlWrites s fn wl = true ∧ s.rd .WL_LOCK wl = 0) :=
  ⟨⟨0, { initB false with version := 2 }, (live.wr .WL_LSTATE 1 0), by decide +kernel⟩,
   ⟨0, initB false, (live.wr .WL_LSTATE 1 0), by decide +kernel⟩,
   ⟨0, { initB true with resume := true, peerLinkId := 1 },
     (live.wr .WL_LSTATE 1 0).modWl 0 (fun w => { w with resume := true, linkId := 1, peerLinkId := 1 }),
     by decide +kernel⟩,
   ⟨0, initB true, (live.wr .WL_LSTATE 1 0), by decide +kernel⟩,
   ⟨0, live, by decide +kernel⟩,
   ⟨0, (live.wr .WL_LSTATE 1 0), by decide +kernel⟩,
   ⟨0, (live.wr .WL_GRACE_RUN 1 0), by decide +kernel⟩,
   ⟨⟨0, 0⟩, 0, live, by decide +kernel⟩,
   ⟨0, live, by decide +kernel⟩,
   ⟨⟨0, 0⟩, 0, live, by decide +kernel⟩⟩

/-- Each clause of Reshape has a state and operands that meet its hypotheses. -/
theorem test_wit_Reshape :
    (∃ (fn : Fn) (wl : Wl) (set : Fin 16) (s : State), wlWrites s fn wl = true ∧ s.rd .WL_LSTATE wl = 2 ∧
      s.rd .WL_RESHAPE_BUSY wl = 0 ∧ (∀ l < 4, set.val.testBit l = true → laneUsable s wl l = true)) ∧
    (∃ (fn : Fn) (wl : Wl) (set : Fin 16) (s : State) (l : _), wlWrites s fn wl = true ∧ l < 4 ∧
      s.rd .WL_LSTATE wl = 2 ∧ s.rd .WL_RESHAPE_BUSY wl = 0 ∧ set.val.testBit l = true ∧ laneUsable s wl l = false) ∧
    (∃ (fn : Fn) (wl : Wl) (s : State), wlWrites s fn wl = true ∧ s.rd .WL_LSTATE wl ≠ 2) ∧
    (∃ (wl : Wl) (set : Fin 16) (s : State), grainsPass s wl = true ∧ s.rd .WL_LSTATE wl = 2 ∧ (s.wl wl).rsRole = 0 ∧
      setOk s wl set = true ∧ (s.wl wl).rtHeld = 0) ∧
    (∃ (wl : Wl) (set : Fin 16) (s : State), grainsPass s wl = true ∧ s.rd .WL_LSTATE wl = 2 ∧ (s.wl wl).rsRole = 0 ∧
      (setOk s wl set = false ∨ (s.wl wl).rtHeld ≠ 0)) ∧
    (∃ (wl : Wl) (id : Fin 256) (s : State), grainsPass s wl = true ∧ s.rd .WL_LSTATE wl = 2 ∧ (s.wl wl).rsRole = 1 ∧
      (s.wl wl).rsId = id ∧ (s.wl wl).rsStage = 1) ∧
    (∃ (wl : Wl) (id : Fin 256) (s : State), grainsPass s wl = true ∧ s.rd .WL_LSTATE wl = 2 ∧
      ((s.wl wl).rsRole ≠ 1 ∨ (s.wl wl).rsId ≠ id ∨ (s.wl wl).rsStage ≠ 1) ∧ (s.wl wl).rsGone.contains id.val = true) ∧
    (∃ (wl : Wl) (id : Fin 256) (s : State), grainsPass s wl = true ∧ s.rd .WL_LSTATE wl = 2 ∧
      ((s.wl wl).rsRole ≠ 1 ∨ (s.wl wl).rsId ≠ id ∨ (s.wl wl).rsStage ≠ 1) ∧ (s.wl wl).rsGone.contains id.val = false) ∧
    (∃ (wl : Wl) (id : Fin 256) (s : State) (reason : _), grainsPass s wl = true ∧ s.rd .WL_LSTATE wl = 2 ∧
      (s.wl wl).rsRole ≠ 0 ∧ (s.wl wl).rsId = id ∧ nakFits (s.wl wl) reason = true) ∧
    (∃ (wl : Wl) (id : Fin 256) (s : State) (reason : _), grainsPass s wl = true ∧ s.rd .WL_LSTATE wl = 2 ∧
      ((s.wl wl).rsRole = 0 ∨ (s.wl wl).rsId ≠ id ∨ nakFits (s.wl wl) reason = false)) ∧
    (∃ (wl : Wl) (id : Fin 256) (s : State), grainsPass s wl = true ∧ s.rd .WL_LSTATE wl = 2 ∧ (s.wl wl).rsStage = 2 ∧
      (s.wl wl).rsId = id) ∧
    (∃ (wl : Wl) (s : State), (s.wl wl).rsRole = 1 ∧ (s.wl wl).rsStage = 1 ∧ (s.wl wl).rsTicks = 0 ∧
      (∀ m ∈ (s.wl wl).msgQ, m.head? ≠ some 1)) :=
  ⟨by
      refine ⟨⟨0, 0⟩, 0, 1, (live.wr .WP_LSTATE 2 0 0), ?_⟩
      and_intros <;> first
        | decide +kernel
        | exact fun l hl h => by interval_cases l <;> revert h <;> decide +kernel,
   ⟨⟨0, 0⟩, 0, 1, (live.wr .WP_LSTATE 5 0 0), 0, by decide +kernel⟩,
   ⟨⟨0, 0⟩, 0, (live.wr .WL_LSTATE 3 0), by decide +kernel⟩,
   ⟨0, 1, (live.wr .WP_LSTATE 2 0 0), by decide +kernel⟩,
   ⟨0, 0, live, by decide +kernel⟩,
   ⟨0, 0, shaping (fun w => { w with rsRole := 1, rsStage := 1 }), by decide +kernel⟩,
   ⟨0, 0, shaping (fun w => { w with rsGone := [0] }), by decide +kernel⟩,
   ⟨0, 0, live, by decide +kernel⟩,
   ⟨0, 0, shaping (fun w => { w with rsRole := 1, rsStage := 1 }), 1, by decide +kernel⟩,
   ⟨0, 0, live, 1, by decide +kernel⟩,
   ⟨0, 0, shaping (fun w => { w with rsRole := 1, rsStage := 2 }), by decide +kernel⟩,
   ⟨0, shaping (fun w => { w with rsRole := 1, rsStage := 1 }), by decide +kernel⟩⟩

/-- Each clause of OtherInstancesKept has a state and operands that meet its hypotheses. -/
theorem test_wit_OtherInstancesKept :
    ((∃ t, exec (.cntClr ⟨0, 0⟩ 0 0) live = .next t) ∧ (∃ t, exec (.injGo ⟨0, 0⟩ 0 0) live = .next t) ∧ (∃ t,
      exec (.injStop ⟨0, 0⟩ 0 0) live = .next t) ∧ (∃ t, exec (.prbsSyncGain 0 0) live = .next t) ∧ (∃ t,
      exec (.prbsSyncLoss 0 0 0 0) live = .next t) ∧ (∃ t, exec (.lanePrbsWrite ⟨0, 0⟩ 0 0 0 0) live = .next t)) ∧
    ((∃ t, exec (.partnerClockStable 0) live = .next t) ∧ (∃ t, exec (.ts3Echoed 0 0 0) live = .next t) ∧ (∃ t,
      exec (.switchDone 0) live = .next t) ∧ (∃ t, exec (.fastConfirmed 0) live = .next t) ∧ (∃ t,
      exec (.loopbackWrite ⟨0, 0⟩ 0 0) live = .next t) ∧ (∃ t, exec (.alignmentBlockSend 0) live = .next t) ∧ (∃ t,
      exec (.backgroundTrainPass 0 ⟨0, 0, 0⟩) live = .next t) ∧ (∃ t, exec (.backgroundTrainFail 0 0) live = .next t) ∧
      (∃ t, exec (.ackSend 0) live = .next t) ∧ (∃ t, exec (.reshapeGoWrite ⟨0, 0⟩ 0 0) live = .next t) ∧ (∃ t,
      exec (.laneReq 0 0 0) live = .next t) ∧ (∃ t, exec (.laneAck 0 0) live = .next t) ∧ (∃ t,
      exec (.laneNak 0 0 0) live = .next t) ∧ (∃ t, exec (.laneReady 0 0) live = .next t) ∧ (∃ t,
      exec (.reshapeTimeout 0) live = .next t) ∧ (∃ t, exec (.replayLimitZeroWrite ⟨0, 0⟩ 0) live = .next t)) ∧
    ((∃ t, exec (.cmdPiWrite ⟨0, 0⟩ 0) live = .next t) ∧ (∃ t, exec (.rplCiWrite ⟨0, 0⟩ 0) live = .next t) ∧ (∃ t,
      exec (.ringEnWrite ⟨0, 0⟩ true) live = .next t)) ∧
    ((∃ t, exec (.channelEnable ⟨0, 0⟩ 0) live = .next t) ∧ (∃ t, exec (.channelDrained 0) live = .next t) ∧ (∃ t,
      exec (.chIrqEnableWrite ⟨0, 0⟩ 0 0) live = .next t)) ∧
    ((∃ t, exec (.modTicksWrite ⟨0, 0⟩ 0 0) live = .next t) ∧ (∃ t, exec (.fnEventEnWrite ⟨0, 0⟩ 0) live = .next t) ∧
      (∃ t, exec (.msixUnmask ⟨0, 0⟩ 0) live = .next t) ∧ (∃ t, exec (.rebarSizeWrite 0 0) live = .next t)) :=
  ⟨by and_intros <;> exact ⟨_, rfl⟩,
   by and_intros <;> exact ⟨_, rfl⟩,
   by and_intros <;> exact ⟨_, rfl⟩,
   by and_intros <;> exact ⟨_, rfl⟩,
   by and_intros <;> exact ⟨_, rfl⟩⟩

end Sys2Proof.Tests
end

section
/-!
A host write of NumVFs (R72): what the write does, by VF Enable, and the statement about it.
-/
namespace Sys2Proof.Proofs
open Sys2Proof Sys2Proof.Machine Sys2Proof.Laws

/-- A write of NumVFs to a function that serves configuration writes takes its effect. -/
theorem exec_numvfsWrite_of_served {hl : Hl} {v : BitVec 16} {s : State} (h : cfgServed s (pfIdx hl) = true) :
    exec (.numvfsWrite hl v) s = .next (writeNumVfs hl v.toNat s) :=
  congrArg Host.Outcome.next (if_pos h)

/-- With VF Enable at 1 a write of NumVFs is ignored. -/
theorem writeNumVfs_of_vfEnable {h v : Nat} {s : State} (he : (s.cf (pfIdx h)).vfEnable = true) :
    writeNumVfs h v s = s :=
  if_pos he

/-- With VF Enable at 0 the PF takes the capped value; every other function, and the rest of the PF, is left. -/
theorem writeNumVfs_cf {h v : Nat} {s : State} (he : (s.cf (pfIdx h)).vfEnable = false) (k : Nat) :
    (writeNumVfs h v s).cf k =
      if k = pfIdx h then { s.cf (pfIdx h) with numVfs := min v (linkVfs s h) } else s.cf k := by
  have hmod : writeNumVfs h v s = s.modCf (pfIdx h) (fun c => { c with numVfs := min v (linkVfs s h) }) :=
    if_neg (by simp [he])
  rw [hmod, modCf_cf]

/-- Settles O13: VF Enable decides between the ignored write and the capped one. -/
theorem numVfsWrites : Obligations.NumVfsWrites := by
  intro hl v s hserved total
  have hexec := exec_numvfsWrite_of_served (v := v) hserved
  refine ⟨fun hoff => ⟨_, hexec, ?_, ?_, fun k hk => ?_⟩, fun hon => ?_⟩
  · have hcap : min v.toNat (linkVfs s hl) = if total < v.toNat then total else v.toNat := by
      rw [min_comm, min_def_lt]; rfl
    rw [writeNumVfs_cf hoff, if_pos rfl, hcap]
  · rw [writeNumVfs_cf hoff, if_pos rfl]
  · rw [writeNumVfs_cf hoff, if_neg hk]
  · rw [hexec, writeNumVfs_of_vfEnable hon]

end Sys2Proof.Proofs
end

section
/-!
The windows of the deadline class (R110, R114): what the checks of R352 ask of the tenants that a class 3 OUTWIN_SET
names, and the statement about it.
-/
namespace Sys2Proof.Proofs
open Sys2Proof Sys2Proof.Machine Sys2Proof.Laws

/-! ### DENIED among the checks of a window command (R98, R338, R352) -/

/-- The checks answer success when the first one applies and answers it, or does not apply and the rest answer it. -/
theorem firstFail_cons_eq_zero {b : Bool} {c : Nat} {l : List (Bool × Nat)} :
    firstFail ((b, c) :: l) = 0 ↔ (b = true ∧ c = 0) ∨ (b = false ∧ firstFail l = 0) := by
  cases b <;> simp [firstFail]

/-- A window command that sets an entry and passes its checks is not denied. -/
theorem winReq_not_denied_of_check_eq_zero {q : WinReq} {s : State} (hc : q.clears = false) (h : q.check s = 0) :
    q.denied s = false := by
  simp only [WinReq.check, hc, Bool.false_eq_true, if_false, firstFail_cons_eq_zero, OfNat.ofNat_ne_zero, bne_iff_ne,
    ne_eq, not_and_self, and_false, false_or] at h
  obtain ⟨-, -, -, hdenied, -⟩ := h
  exact hdenied

/-- A window command that sets an entry is DENIED when the checks before that one find nothing against it. -/
theorem winReq_check_of_denied {q : WinReq} {s : State} (hc : q.clears = false)
    (ht : q.index ≠ 0xFFFF → q.index / q.per = q.tiller) (hok : q.ok s ((q.entry s).getD q.index) = true)
    (hg : q.gone s = 0) (hst : q.stateOk s ((q.entry s).getD q.index) = true) (hd : q.denied s = true) :
    q.check s = 8 := by
  have htiller : (q.index != 0xFFFF && q.index / q.per != q.tiller) = false := by
    simpa using ht
  simp [WinReq.check, firstFail, hc, htiller, hok, hg, hst, hd]

/-! ### Who is denied an outbound window (R98, R110, R114) -/

/-- A tenant that is not eligible may not take a class 3 window. -/
theorem tnDenies_of_not_eligible {s : State} {n : Nat} (link : Nat) (h : s.rd .TN_ELIGIBLE n = 0) :
    tnDenies s n link 3 = true := by
  simp [tnDenies, State.on, h]

/-- The tenant of a destination that is not a PF is among the tenants of the sheaf. -/
theorem mem_shTenants {s : State} {k d : Nat} (hd : d < s.rd .SH_DEST_COUNT k) (hpf : s.rd .SH_TO_PF k d = 0) :
    s.rd .SH_TNID k d ∈ shTenants s k :=
  List.mem_filterMap.2 ⟨d, List.mem_range.2 hd, by simp [State.on, hpf]⟩

section
variable {index : Nat} {w : OutWin} {s : State}

/-- A class 3 window of a tenant that is not eligible is denied (R110). -/
theorem outReq_denied_of_tenant (h3 : w.cls = 3) (hsh : w.sheaf = 0) (hpf : w.toPf = 0)
    (hn : s.rd .TN_ELIGIBLE w.tnid = 0) : (outReq index w).denied s = true := by
  simp [outReq, hsh, hpf, h3, tnDenies_of_not_eligible w.link hn]

/-- A class 3 sheaf window with a destination tenant that is not eligible is denied (R114). -/
theorem outReq_denied_of_dest {d : Nat} (h3 : w.cls = 3) (hsh : w.sheaf = 1) (hd : d < s.rd .SH_DEST_COUNT w.tnid)
    (hpf : s.rd .SH_TO_PF w.tnid d = 0) (hn : s.rd .TN_ELIGIBLE (s.rd .SH_TNID w.tnid d) = 0) :
    (outReq index w).denied s = true := by
  have hany : (shTenants s w.tnid).any (fun n => tnDenies s n w.link 3) = true :=
    List.any_eq_true.2 ⟨_, mem_shTenants hd hpf, tnDenies_of_not_eligible w.link hn⟩
  simpa [outReq, hsh, h3] using hany

/-- A window of a PF is not denied, whatever its class. -/
theorem outReq_not_denied_of_pf (hsh : w.sheaf = 0) (hpf : w.toPf = 1) : (outReq index w).denied s = false := by
  simp [outReq, hsh, hpf]

/-- The class of an outbound window plays a part in its checks only by what is DENIED. -/
theorem outReq_check_cls (c : Nat) (h : (outReq index w).denied s = (outReq index { w with cls := c }).denied s) :
    (outReq index w).check s = (outReq index { w with cls := c }).check s := by
  unfold WinReq.check
  rw [h]
  rfl

/-- OUTWIN_SET of an entry whose image is denied answers DENIED and does nothing else. -/
theorem outwinSet_denied {r : CmdReq} (hserved : Served 0x0301 (targetOf s r) ((cmdOutwin r index w).priv s) r s)
    (hlen : r.plen = 40) (hindex : index < 2048 ∨ index = 0xFFFF) (hranges : (outReq index w).ranges = true)
    (hdark : (cmdOutwin r index w).dark s = false) (hcheck : (outReq index w).check s = 8) :
    Completes (.outwinSet r index w) s (Replies r 0x0301 8 [] (· = s)) := by
  have hown : (cmdOutwin r index w).own s = 8 := hcheck
  have hparams : (cmdOutwin r index w).params s = true := Bool.and_eq_true_iff.2 ⟨decide_eq_true hindex, hranges⟩
  have hrun := runCmd_refused (c := cmdOutwin r index w) hserved (beq_iff_eq.2 hlen) hparams hdark
    (by simp [hown]) (by simp [hown]) (fun hacts => Bool.noConfusion hacts)
  rw [hown] at hrun
  exact ⟨_, congrArg Host.Outcome.next hrun, s, rfl, rfl⟩

end

/-- Settles O24: the check for DENIED finds the ineligible tenant, of the window or of a destination, so an image that
passes the checks names none; and it holds nothing against an image of a PF, whatever its class. -/
theorem deadlineWindows : Obligations.DeadlineWindows := by
  refine ⟨fun r index w s hserved hlen hindex hranges hdark hsize h3 htiller hok => ?_,
    fun index w s hsize h3 hcheck => ?_, fun index w s hsh hpf => ?_⟩
  · have hsets : (outReq index w).clears = false := beq_eq_false_iff_ne.2 hsize
    refine ⟨fun hsh hpf hgone hn => ?_, fun hsh hmode hwindow ⟨d, hd, hdpf, hn⟩ => ?_⟩
    · have hdenied := outReq_denied_of_tenant (index := index) h3 hsh hpf hn
      exact outwinSet_denied hserved hlen hindex hranges hdark
        (winReq_check_of_denied hsets htiller hok (by simp [outReq, hsh, hpf, hgone]) (by simp [outReq, hsh]) hdenied)
    · have hdenied := outReq_denied_of_dest (index := index) h3 hsh hd hdpf hn
      exact outwinSet_denied hserved hlen hindex hranges hdark
        (winReq_check_of_denied hsets htiller hok (by simp [outReq, hsh])
          (by simpa [outReq, State.on, hmode] using Or.inr hwindow) hdenied)
  · have hpasses := winReq_not_denied_of_check_eq_zero (beq_eq_false_iff_ne.2 hsize) hcheck
    refine ⟨fun hsh hpf hn => ?_, fun hsh d hd hdpf hn => ?_⟩
    · exact Bool.eq_false_iff.1 hpasses (outReq_denied_of_tenant h3 hsh hpf hn)
    · exact Bool.eq_false_iff.1 hpasses (outReq_denied_of_dest h3 hsh hd hdpf hn)
  · have hcls0 := outReq_not_denied_of_pf (index := index) (w := { w with cls := 0 }) (s := s) hsh hpf
    exact outReq_check_cls 0 ((outReq_not_denied_of_pf hsh hpf).trans hcls0.symm)

end Sys2Proof.Proofs
end

section
/-!
What a replay puts on a link (R195, R196): the grain as it is sent again, that sending one leaves what the next is made
of, and the statement about the replay as a whole.
-/
namespace Sys2Proof.Proofs
open Sys2Proof Sys2Proof.Machine Sys2Proof.Laws

/-- A grain of the replay buffer as the link sends it again (R196): new but for what is kept, with its own CRC. -/
def replayedGrain (s : State) (n : Nat) (h : TxGrain) : Grain :=
  sealGrain (newGrain s n h.typ h.sop h.eop h.seq h.payload)

/-- The CRC is right in a sealed grain: the CRC field is no part of what it is taken over. -/
theorem crcOk_sealGrain (g : Grain) : crcOk (sealGrain g) = true := beq_self_eq_true _

/-- The current fields of a grain rest on the registers and on the link's acknowledgement and credit totals alone. -/
theorem newGrain_congr {s t : State} {n : Nat} (hregs : t.regs = s.regs) (hacc : (t.wl n).accAny = (s.wl n).accAny)
    (hfreed : (t.wl n).freed = (s.wl n).freed) : newGrain t n = newGrain s n := by
  have hrd (f : Fld) (i j : Nat) : t.rd f i j = s.rd f i j := by
    unfold State.rd
    rw [hregs]
  funext typ sop eop seq payload
  simp only [newGrain, linkHealth, hrd, hacc, hfreed]

section
variable (n : Nat) (g : Grain) (s : State)

/-- A grain sent without injection goes out as it is, with its own CRC. -/
theorem emitGrain_out : ∃ ls, (emitGrain n false g s).out = s.out ++ [.grain n (sealGrain g) ls] := ⟨_, rfl⟩

/-- Sending a grain clears the acknowledgements that wait, and leaves the rest of the link layer. -/
theorem emitGrain_wl : (emitGrain n false g s).wl n = { s.wl n with ackPending := 0 } :=
  (modWl_wl { s with free := s.free + 1 } n (fun w => { w with ackPending := 0 }) n).trans (if_pos rfl)

/-- The grain sent next on a link carries the same current fields as the one sent before. -/
theorem newGrain_emitGrain : newGrain (emitGrain n false g s) n = newGrain s n :=
  newGrain_congr rfl (by rw [emitGrain_wl]) (by rw [emitGrain_wl])

end

/-- Sending the grains `hs` of a replay puts each of them out, in order, as the state before the first makes it. -/
theorem each_emitGrain_out (n : Nat) (hs : List TxGrain) (s : State) :
    ∃ gs : List (Grain × List (Nat × Bytes)),
      (each hs (fun h t => emitGrain n false (newGrain t n h.typ h.sop h.eop h.seq h.payload) t) s).out =
        s.out ++ gs.map (fun x => Out.grain n x.1 x.2) ∧
      gs.map Prod.fst = hs.map (replayedGrain s n) := by
  induction hs generalizing s with
  | nil => exact ⟨[], (List.append_nil _).symm, rfl⟩
  | cons h hs ih =>
    let g := newGrain s n h.typ h.sop h.eop h.seq h.payload
    obtain ⟨ls, hout⟩ := emitGrain_out n g s
    obtain ⟨gs, hrest, hgs⟩ := ih (emitGrain n false g s)
    have hsame : replayedGrain (emitGrain n false g s) n = replayedGrain s n := by
      unfold replayedGrain
      rw [newGrain_emitGrain]
    refine ⟨(sealGrain g, ls) :: gs, ?_, ?_⟩
    · rw [hout, List.append_assoc] at hrest
      exact hrest
    · rw [List.map_cons, hgs, hsame]
      rfl

/-- Settles O53: the grains that go out are `replayedGrain` of those held, which carries the fields of R196
and CR_V at 1 as every grain but HALT does (log entry 67). -/
theorem replayedGrains : Obligations.ReplayedGrains := by
  intro n s
  obtain ⟨gs, hout, hgs⟩ := each_emitGrain_out n (s.wl n).replay s
  refine ⟨gs, hout, by simpa using congrArg List.length hgs, fun i g ls h hg hh => ?_⟩
  have hsent : g = replayedGrain s n h := by
    simpa [hg, hh] using congrArg (·[i]?) hgs
  subst hsent
  exact ⟨rfl, rfl, rfl, rfl, rfl, rfl, fun hacc => if_pos hacc, rfl, rfl, rfl, rfl, rfl, rfl, crcOk_sealGrain _⟩

end Sys2Proof.Proofs
end

section
/-!
What holds of every step and of the state after reset: the invariant, the fuses, and the headers of the Keeper's commands.
-/
namespace Sys2Proof.Proofs
open Sys2Proof Sys2Proof.Machine Sys2Proof.Laws
set_option Elab.async false

/-- A property of states that every command keeps, and that the queue of commands plays no part in, is kept by a step. -/
theorem step_keeps {P : State → State → Prop} (hrefl : ∀ s, P s s)
    (hqueue : ∀ (s t : State) (l : List Instr), P { s with pending := l } t → P s t)
    (hexec : ∀ (c : Instr) (s t : State), exec c s = .next t → P s t) {s t : State} (h : step s = .next t) : P s t := by
  cases hp : s.pending with
  | nil =>
    simp only [step, hp, Host.Outcome.next.injEq] at h
    exact h ▸ hrefl s
  | cons c l =>
    simp only [step, hp] at h
    exact hqueue s t l (hexec c _ t h)

/-- Settles O2: the footprint of every command says that it keeps the table in form and the stamp in 64 bits. -/
theorem stepKeepsInvariant : Obligations.StepKeepsInvariant := by
  intro s t hinv hstep
  refine step_keeps (P := fun s t => Inv s → Inv t) (fun _ => id) (fun s t l h hs => h ⟨hs.table, hs.stamp⟩) ?_ hstep hinv
  intro c s t h hs
  have hmoves := exec_moves h
  exact ⟨hmoves.table hs.table, hmoves.stamp hs.stamp⟩

/-- Settles O3: no footprint of a command reaches the fuses. -/
theorem fusesNeverChange : Obligations.FusesNeverChange := by
  intro s t hstep
  exact step_keeps (P := fun s t => FusesKept s.upd t.upd) (fun s => fuses_refl s.upd) (fun _ _ _ => id)
    (fun c s t h => (exec_moves h).fuses) hstep

/-- Every command answers a next state but a grain whose payload is not 64 bytes. -/
theorem exec_answers {c : Instr} (s : State) (h : ∀ wl g, c = .grainReceived wl g → g.payload.length = 64) :
    ∃ t, exec c s = .next t := by
  cases c
  case smpCsAbort op => cases op <;> exact ⟨_, rfl⟩
  case perstAssert hl =>
    change ∃ t, execPerstAssert hl s = .next t
    cases hb : s.pins.perst.testBit hl <;> simp [execPerstAssert, hb]
  case grainReceived wl g =>
    change ∃ t, execGrainReceived wl g s = .next t
    simp [execGrainReceived, h wl g rfl]
  all_goals exact ⟨_, rfl⟩

/-- Settles O1: that a command completes is read off its meaning, and the rest off its footprint. -/
theorem stepRunsFront : Obligations.StepRunsFront := by
  refine ⟨fun c rest s h => ?_, fun s h => ?_, fun c s h => ?_⟩
  · simp only [step, h]
  · simp only [step, h]
  · obtain ⟨t, ht⟩ := exec_answers s h
    exact ⟨t, ht, (exec_moves ht).queue, (exec_moves ht).sent⟩

/-- Settles O4: the register file of the state after reset lists nothing, so every field reads its reset value. -/
theorem resetState : Obligations.ResetState := by
  have hread : ∀ f i j, State.reset.rd f i j = f.reset i j := fun _ _ _ => rfl
  refine ⟨⟨regsOk_nil, by decide⟩, rfl, rfl, hread, ?_⟩
  simp only [hread]
  refine ⟨rfl, rfl, rfl, rfl, fun hl => ⟨rfl, rfl, rfl, rfl⟩, fun n => ⟨rfl, rfl, rfl, rfl, rfl⟩, fun n => ⟨rfl, rfl, rfl⟩,
    rfl, rfl, rfl, rfl, rfl, rfl, rfl, rfl⟩

/-- The header of a well-formed command, which comes before its parameters, is well-formed. -/
theorem header_wf (i : Instr) (h : i.wf = true) : (header i).all CmdReq.wf = true := by
  cases i
  all_goals first
    | rfl
    | exact h
    | exact left h
    | exact left (left h)
    | exact left (left (left h))
    | exact left (left (left (left h)))

/-- Settles O5: a command that carries a header is well-formed only with it. -/
theorem keeperHeaders : Obligations.KeeperHeaders := by
  intro i hwf r hr
  have hall := header_wf i hwf
  rwa [hr] at hall

end Sys2Proof.Proofs
end

section
/-!
The frames: a command differs from what was before in no more than its footprint names, and the mask of the footprint
lies in the mask of the frame, by a computation on two numbers.
-/
namespace Sys2Proof.Proofs
open Sys2Proof Sys2Proof.Machine Sys2Proof.Laws
set_option Elab.async false

/-- A footprint that lies in the mask of some fields and parts lies in the frame of these. -/
theorem frame_of_fields {c : Instr} {fl : List Fld} {pl : List Part}
    (h : foot c &&& (fms fl ||| pms pl) = foot c) : Frame c fl [] pl :=
  frame_of_foot (by
    have hno : foot_blks [] = 0 := by decide +kernel
    rw [hno, Nat.or_zero]
    exact h)

/-- A footprint that lies in the mask of some fields, blocks and parts lies in the frame of these. -/
theorem frame_of_blocks {c : Instr} {fl : List Fld} {bl : List Blk} {pl : List Part}
    (h : foot c &&& (fms fl ||| foot_blks bl ||| pms pl) = foot c) : Frame c fl bl pl :=
  frame_of_foot h

/-- A reset of the die may move every block and every part: its frame asks only that the queue stays and what was sent
stays sent. -/
theorem frame_of_dieReset {c : Instr} : Frame c [] allBlks (cutParts.append [.clocks, .consLast, .dests, .doms, .inRds,
    .latches, .pins, .pktCount, .store]) := by
  intro s t h
  have hblk : ∀ b : Blk, b ∈ allBlks := by intro b; cases b <;> decide
  have hpart : ∀ p : Machine.Part, p ∈ cutParts.append [.clocks, .consLast, .dests, .doms, .inRds, .latches, .pins,
      .pktCount, .store] := by intro p; cases p <;> decide
  exact ⟨fun f _ _ _ hf => absurd (hblk f.info.blk) hf, fun p hp => absurd (hpart p) hp, (exec_moves h).queue,
    (exec_moves h).sent⟩

/-- Settles O56, frame by frame from the footprints. -/
theorem keeperCommandFrames : Obligations.KeeperCommandFrames := by
  unfold Obligations.KeeperCommandFrames
  and_intros <;> intros
  any_goals (refine frame_of_fields ?_; dsimp only [foot]; decide +kernel)
  all_goals (refine frame_of_blocks ?_; dsimp only [foot]; decide +kernel)

/-- Settles O57, frame by frame from the footprints; a reset of the die may move everything. -/
theorem managementFrames : Obligations.ManagementFrames := by
  unfold Obligations.ManagementFrames
  and_intros <;> intros
  any_goals apply frame_of_dieReset
  any_goals (refine frame_of_fields ?_; dsimp only [foot]; decide +kernel)
  all_goals (refine frame_of_blocks ?_; dsimp only [foot]; decide +kernel)

/-- Settles O58, frame by frame from the footprints. -/
theorem datapathFrames : Obligations.DatapathFrames := by
  unfold Obligations.DatapathFrames
  and_intros <;> intros
  any_goals (refine frame_of_fields ?_; dsimp only [foot]; decide +kernel)
  all_goals (refine frame_of_blocks ?_; dsimp only [foot]; decide +kernel)

/-- Settles O59, frame by frame from the footprints. -/
theorem weaseifAndObservationFrames : Obligations.WeaseifAndObservationFrames := by
  unfold Obligations.WeaseifAndObservationFrames
  and_intros <;> intros <;> refine frame_of_fields ?_ <;> dsimp only [foot] <;> decide +kernel

end Sys2Proof.Proofs
end

section
/-!
Rules that the proofs below share: the compositions of Machine/Ops.lean evaluated, what an operation within its footprint
leaves, and that what takes a stamp stays in the tick that runs (R28).
-/
namespace Sys2Proof.Proofs
open Sys2Proof Sys2Proof.Machine Sys2Proof.Laws
set_option Elab.async false

/-- A `when` whose condition holds is its action. -/
theorem when_of {c : Bool} (f : State → State) (s : State) (h : c = true) : when c f s = f s := by
  rw [h]
  rfl

/-- A `when` whose condition fails does nothing. -/
theorem when_of_not {c : Bool} (f : State → State) (s : State) (h : c = false) : when c f s = s := by
  rw [h]
  rfl

/-- Register and part of the state that a `when` leaves either way. -/
theorem when_cases {P : State → Prop} {c : Bool} {f : State → State} {s : State} (hs : P s) (hf : P (f s)) :
    P (when c f s) := by
  cases c
  · exact hs
  · exact hf

/-- What holds of a state and is kept by every round of a loop holds after it. -/
theorem each_induct {α : Type} {P : State → Prop} {f : α → State → State} (l : List α) {s : State} (hs : P s)
    (hf : ∀ a t, P t → P (f a t)) : P (each l f s) := by
  induction l generalizing s with
  | nil => exact hs
  | cons a l ih => exact ih (hf a s hs)

/-! ### The stamp within its tick -/

/-- Of the cadence loop at most the stamp moves on, a 64-bit stamp to one in the same tick of the same epoch. -/
structure SameTick (s t : State) : Prop where
  loop : t.cad = { s.cad with stamp := t.cad.stamp }
  tick : s.cad.stamp < 2 ^ 64 → t.cad.stamp < 2 ^ 64 ∧ t.cad.stamp / tickUnits = s.cad.stamp / tickUnits

theorem SameTick.refl (s : State) : SameTick s s := ⟨rfl, fun h => ⟨h, rfl⟩⟩

theorem SameTick.of_cad {r s t : State} (h : SameTick r s) (ht : t.cad = s.cad) : SameTick r t := by
  refine ⟨?_, ?_⟩
  · rw [ht]
    exact h.loop
  · rw [ht]
    exact h.tick

theorem SameTick.trans {s t u : State} (h : SameTick s t) (h' : SameTick t u) : SameTick s u := by
  refine ⟨?_, fun hs => ⟨(h'.tick (h.tick hs).1).1, (h'.tick (h.tick hs).1).2.trans (h.tick hs).2⟩⟩
  rw [h'.loop, h.loop]

/-- What leaves the cadence loop alone stays in the tick. -/
theorem SameTick.keep {m : Nat} {r s t : State} (h : SameTick r s) (ht : Moves m s t)
    (hm : m.testBit Part.cad.ctorIdx = false) : SameTick r t := h.of_cad (ht.part .cad hm)

/-- An epoch is a whole number of ticks. -/
theorem epoch_eq_of_tick {s t : State} (h : t.cad.stamp / tickUnits = s.cad.stamp / tickUnits) : t.epoch = s.epoch := by
  have heq (n : Nat) : n / 2 ^ 32 = n / tickUnits / 1024 := (Nat.div_div_eq_div_mul n tickUnits 1024).symm
  rw [State.epoch, State.epoch, heq, heq, h]

section
variable {r s : State} (h : SameTick r s)
include h

theorem SameTick.when {c : Bool} {f : State → State} (hf : ∀ z, SameTick r z → SameTick r (f z)) :
    SameTick r (when c f s) := when_cases h (hf s h)

theorem SameTick.each {α : Type} {l : List α} {f : α → State → State}
    (hf : ∀ a z, SameTick r z → SameTick r (f a z)) : SameTick r (each l f s) := each_induct l h hf

theorem SameTick.advance : SameTick r (advance s) := by
  unfold Machine.advance
  split
  · exact h
  · rename_i hnext
    refine h.trans ⟨rfl, fun hs => ?_⟩
    simp only [setStamp, State.modCad, State.wr, State.stamp, tickUnits] at hs hnext ⊢
    omega

theorem SameTick.trace {kind id code arg : Nat} : SameTick r (trace kind id code arg s) := by
  unfold Machine.trace
  split
  · exact h.advance.of_cad rfl
  · exact h

theorem SameTick.journal {b : JBody} : SameTick r (journal b s) :=
  h.advance.keep (moves_jPut (.refl _ _) (within_self _)) (by decide +kernel)

theorem SameTick.raiseVec {f v : Nat} : SameTick r (raiseVec f v s) :=
  h.keep (moves_raiseVec (.refl _ _) (within_self _)) (by decide +kernel)

theorem SameTick.haltCore {c code : Nat} {b : BadReq} : SameTick r (haltCore c code b s) := by
  unfold Machine.haltCore
  extract_lets st hard tn s1 s2 s3 s4 s5 s6
  split
  · have h4 : SameTick r s4 := SameTick.when (s := s3) (h.of_cad rfl) fun z hz => hz.of_cad rfl
    have h6 : SameTick r s6 := SameTick.trace (s := s5) (h4.of_cad rfl)
    exact h6.when fun z hz => hz.raiseVec
  · split
    · exact h.of_cad rfl
    · exact h

theorem SameTick.forceReaction {inj : Bool} : SameTick r (forceReaction inj s) := by
  unfold Machine.forceReaction
  split
  · exact h
  · extract_lets s1 s2 s3 s4 s5 s6
    have h2 : SameTick r s2 := SameTick.keep (s := s1) (h.of_cad rfl) (moves_blockWrites (.refl _ _) (within_self _)) (by decide +kernel)
    have h3 : SameTick r s3 := h2.each fun n z hz => SameTick.when (s := (z.wr .WL_LSTATE 6 n).wr .WL_GRACE_RUN 0 n) (hz.of_cad rfl)
      fun y hy => hy.keep (moves_sendHalt (.refl _ _) (within_self _)) (by decide +kernel)
    have h5 : SameTick r s5 := SameTick.each (s := s4) (h3.keep (moves_driveFaultN (.refl _ _) (within_self _)) (by decide +kernel)) fun c z hz => hz.haltCore
    have h6 : SameTick r s6 := h5.keep (moves_pauseStream (.refl _ _) (within_self _)) (by decide +kernel)
    exact h6.keep (moves_jPut (.refl _ _) (within_self _)) (by decide +kernel)

theorem SameTick.latchLine {e : WEv} {inj : Bool} : SameTick r (latchLine e inj s) := by
  unfold Machine.latchLine
  extract_lets cls s1 s2 s3 s4
  have h3 : SameTick r s3 := SameTick.keep (s := s2) (SameTick.when (s := s1) (h.of_cad rfl) fun z hz => hz.of_cad rfl)
    (moves_capture (.refl _ _) (within_self _)) (by decide +kernel)
  exact SameTick.trace (s := s4) (h3.of_cad rfl)

theorem SameTick.wardFuel {n : Nat} {inj : Bool} {e : WEv} : SameTick r (wardFuel n inj e s) := by
  induction n generalizing r s inj e with
  | zero => exact h
  | succ n ih =>
    unfold Machine.wardFuel
    extract_lets s0 stamp era cls fresh latches s1 s2 s3 s4 s5 rec_ lost s6
    have h1 : SameTick r s1 := SameTick.when (s := s0) h.advance fun z hz => hz.of_cad rfl
    have h2 : SameTick r s2 := h1.when fun z hz => SameTick.latchLine (s := noteLatch e inj z) (hz.of_cad rfl)
    have h3 : SameTick r s3 := h2.when fun z hz => by
      split
      · exact hz.when fun y hy => hy.of_cad rfl
      · exact hz.forceReaction
    have h4 : SameTick r s4 := h3.when fun z hz =>
      hz.keep (moves_aerReport (.refl _ _) (within_self _)) (by decide +kernel)
    have h5 : SameTick r s5 := h4.keep (moves_raiseAllPfs (.refl _ _) (within_self _)) (by decide +kernel)
    have h6 : SameTick r s6 := h5.when fun z hz => hz.keep (moves_jPut (.refl _ _) (within_self _)) (by decide +kernel)
    exact h6.when fun z hz => ih hz

theorem SameTick.ward {g l : Nat} {m : Master} {access addr : Nat} : SameTick r (ward g l m access addr s) := by
  unfold Machine.ward wardEvent
  split
  · rename_i l _
    unfold choose
    have hdrawn : SameTick r { s with free := s.free + 1 } := h.of_cad rfl
    cases Config.freeBit s.free
    · exact hdrawn.wardFuel
    · exact hdrawn.keep (moves_realOver (.refl _ _) (within_self _)) (by decide +kernel)
  · exact h.wardFuel

theorem SameTick.cadFlag {f : Fld} {line : Option Nat} : SameTick r (cadFlag f line s) := by
  have hraise : SameTick r (raiseAllPfs .cadence (s.wr f 1)) :=
    SameTick.keep (s := s.wr f 1) (h.of_cad rfl) (moves_raiseAllPfs (.refl _ _) (within_self _)) (by decide +kernel)
  unfold Machine.cadFlag
  cases line with
  | none => exact hraise
  | some l => exact hraise.ward

end

end Sys2Proof.Proofs
end

section
/-!
The boundaries of the stamp (R27, R29): what an epoch boundary does to the stamp and the era, and the statement about it.
-/
namespace Sys2Proof.Proofs
open Sys2Proof Sys2Proof.Machine Sys2Proof.Laws
set_option Elab.async false

theorem setStamp_stamp (n : Nat) (s : State) : (setStamp n s).cad.stamp = n % 2 ^ 64 := rfl

/-- The consumers of the boundaries leave the cadence loop as it is. -/
theorem ticksPass_cad (n : Nat) (s : State) : (ticksPass n s).cad = s.cad :=
  (moves_ticksPass (.refl _ s) (within_self _)).part .cad (by decide +kernel)

theorem ticksPass_rd {n : Nat} {s : State} {f : Fld} {i j : Nat} (hf : foot_ticksPass.testBit (fbit f) = false) :
    (ticksPass n s).rd f i j = s.rd f i j :=
  (moves_ticksPass (.refl _ s) (within_self _)).reg f i j hf

/-! ### The next epoch -/

/-- The first tick of the next epoch, at its start. -/
theorem toNextEpoch_stamp (s : State) : (toNextEpoch s).cad.stamp = (s.epoch + 1) % 2 ^ 32 * 2 ^ 32 := by
  have hset : (toNextEpoch s).cad.stamp = (s.epoch + 1) % 2 ^ 32 * 2 ^ 32 % 2 ^ 64 :=
    congrArg CadS.stamp (ticksPass_cad ..)
  omega

theorem toNextEpoch_epoch (s : State) : (toNextEpoch s).epoch = (s.epoch + 1) % 2 ^ 32 := by
  rw [State.epoch, toNextEpoch_stamp]
  omega

/-- The era moves with a wrap of EPOCH. -/
theorem toNextEpoch_era (s : State) : (toNextEpoch s).rd .CAD_ERA =
    if (s.epoch + 1) % 2 ^ 32 = 0 then (s.rd .CAD_ERA + 1) % 2 ^ 16 else s.rd .CAD_ERA := by
  have hset : (toNextEpoch s).rd .CAD_ERA = (when ((s.epoch + 1) % 2 ^ 32 == 0) (fun s => s.inc .CAD_ERA) s).rd .CAD_ERA :=
    (ticksPass_rd (by decide +kernel)).trans
      ((moves_setStamp (.refl _ _) (within_self _)).reg .CAD_ERA 0 0 (by decide +kernel))
  rw [hset]
  split
  · rename_i hwrap
    rw [hwrap]
    exact rd_wr ..
  · rename_i hgo
    rw [beq_false_of_ne hgo]
    rfl

theorem toNextEpoch_journal (s : State) : (toNextEpoch s).journal = s.journal :=
  (moves_toNextEpoch (.refl _ s) (within_self _)).part .journal (by decide +kernel)

/-! ### What happens at the boundary -/

theorem SameTick.eraRoll {r s : State} (h : SameTick r s) : SameTick r (eraRoll s) := by
  unfold Machine.eraRoll
  exact (SameTick.trace h.journal).cadFlag

theorem SameTick.checkpointCheck {r s : State} (h : SameTick r s) : SameTick r (checkpointCheck s) := by
  unfold Machine.checkpointCheck
  split
  · exact h.when fun z hz => (SameTick.of_cad (t := z.modJournal _) hz rfl).journal
  · exact h

/-- What happens at a boundary takes stamps of its first tick. -/
theorem atEpoch_tick (rolled : Bool) (s : State) (h : s.cad.stamp < 2 ^ 64) :
    (atEpoch rolled s).cad.stamp / tickUnits = s.cad.stamp / tickUnits := by
  unfold atEpoch
  extract_lets s1 s2 s3 s4
  have h2 : SameTick s s2 := ((SameTick.refl s).when fun z hz => hz.eraRoll).keep (moves_cadenceOut (.refl _ _) (within_self _)) (by decide +kernel)
  have h3 : s3.cad.stamp = s2.cad.stamp := when_cases (P := fun z => z.cad.stamp = s2.cad.stamp) rfl rfl
  have h4 : s4.cad.stamp = s2.cad.stamp := when_cases (P := fun z => z.cad.stamp = s2.cad.stamp) h3 h3
  have hcheck : SameTick s4 (checkpointCheck s4) := (SameTick.refl s4).checkpointCheck
  obtain ⟨hlt, htick⟩ := h2.tick h
  rw [← h4] at hlt htick
  exact (hcheck.tick hlt).2.trans htick

/-- With no wrap of EPOCH and no CHECKPOINT due, a boundary leaves the stamp where it is. -/
theorem atEpoch_stamp_of_quiet {s : State} (hdue : ∀ c, s.journal.ceiling = some c → s.eraEpoch + 32768 < c) :
    (atEpoch false s).cad.stamp = s.cad.stamp := by
  unfold atEpoch
  extract_lets s1 s2 s3 s4
  have hout := moves_cadenceOut (.refl _ s1) (within_self _)
  have h2 : s2.cad.stamp = s.cad.stamp ∧ s2.journal = s.journal ∧ s2.rd .CAD_ERA = s.rd .CAD_ERA :=
    ⟨congrArg CadS.stamp (hout.part .cad (by decide +kernel)), hout.part .journal (by decide +kernel),
      hout.reg _ _ _ (by decide +kernel)⟩
  have h3 : s3.cad.stamp = s.cad.stamp ∧ s3.journal = s.journal ∧ s3.rd .CAD_ERA = s.rd .CAD_ERA :=
    when_cases (P := fun z => z.cad.stamp = s.cad.stamp ∧ z.journal = s.journal ∧ z.rd .CAD_ERA = s.rd .CAD_ERA) h2
      ⟨h2.1, h2.2.1, (rd_wr_ne _ (by decide)).trans h2.2.2⟩
  have h4 : s4.cad.stamp = s.cad.stamp ∧ s4.journal = s.journal ∧ s4.rd .CAD_ERA = s.rd .CAD_ERA :=
    when_cases (P := fun z => z.cad.stamp = s.cad.stamp ∧ z.journal = s.journal ∧ z.rd .CAD_ERA = s.rd .CAD_ERA) h3
      ⟨h3.1, h3.2.1, (rd_wr_ne _ (by decide)).trans h3.2.2⟩
  obtain ⟨hstamp, hjournal, hera⟩ := h4
  have hnow : s4.eraEpoch = s.eraEpoch := by
    simp only [State.eraEpoch, State.era, State.epoch, hera, hstamp]
  unfold checkpointCheck
  rw [hjournal, hnow]
  cases hc : s.journal.ceiling with
  | none => exact hstamp
  | some c =>
    have hnot : ¬ c ≤ s.eraEpoch + 32768 := Nat.not_le.2 (hdue c hc)
    have hquiet : (decide (c ≤ s.eraEpoch + 32768) && !checkpointWaits s4) = false := by rw [decide_eq_false hnot, Bool.false_and]
    exact (congrArg (fun z : State => z.cad.stamp) (when_of_not _ s4 hquiet)).trans hstamp

/-- A flag of CAD_STATUS is set with its event, which leaves the flag. -/
theorem cadFlag_rd_eraRoll (line : Option Nat) (s : State) : (cadFlag .CAD_ERA_ROLL line s).rd .CAD_ERA_ROLL = 1 := by
  have hset : (raiseAllPfs .cadence (s.wr .CAD_ERA_ROLL 1)).rd .CAD_ERA_ROLL = 1 :=
    ((moves_raiseAllPfs (.refl _ _) (within_self _)).reg _ _ _ (by decide +kernel)).trans (rd_wr ..)
  cases line with
  | none => exact hset
  | some l => exact ((moves_ward (.refl _ _) (within_self _)).reg _ _ _ (by decide +kernel)).trans hset

/-- A new period is CAD_PERIOD's and no other register's. -/
theorem setPeriod_rd (p : Nat) (s : State) {f : Fld} (hf : f ≠ .CAD_PERIOD) : (setPeriod p s).rd f = s.rd f :=
  rd_wr_ne _ fun h => hf h.1

/-- A boundary with a wrap of EPOCH sets ERA_ROLL. -/
theorem atEpoch_eraRoll (s : State) : (atEpoch true s).rd .CAD_ERA_ROLL = 1 := by
  unfold atEpoch
  extract_lets s1 s2 s3 s4
  have h1 : s1.rd .CAD_ERA_ROLL = 1 := cadFlag_rd_eraRoll ..
  have h2 : s2.rd .CAD_ERA_ROLL = 1 := 
    ((moves_cadenceOut (.refl _ _) (within_self _)).reg _ _ _ (by decide +kernel)).trans h1
  have h3 : s3.rd .CAD_ERA_ROLL = 1 := by
    refine when_cases (P := fun z => z.rd .CAD_ERA_ROLL = 1) h2 ?_
    exact (setPeriod_rd (f := .CAD_ERA_ROLL) _ _ (by decide)).trans ((modCad_rd ..).trans h2)
  have h4 : s4.rd .CAD_ERA_ROLL = 1 := when_cases (P := fun z => z.rd .CAD_ERA_ROLL = 1) h3
    ((rd_wr_ne _ (by decide)).trans h3)
  exact ((moves_checkpointCheck (.refl _ _) (within_self _)).reg _ _ _ (by decide +kernel)).trans h4

/-! ### An epoch boundary of the loop -/

/-- An epoch boundary moves the stamp into the first tick of the next epoch, and leaves CAD_STATE. -/
theorem epochStep_stamp (s : State) : (epochStep s).epoch = (s.epoch + 1) % 2 ^ 32 ∧
    (epochStep s).cad.stamp / tickUnits % 1024 = 0 ∧ (epochStep s).rd .CAD_STATE = s.rd .CAD_STATE := by
  have hnext := toNextEpoch_stamp s
  have hlt : (toNextEpoch s).cad.stamp < 2 ^ 64 := by omega
  have htick := atEpoch_tick (s.epoch == 2 ^ 32 - 1) (toNextEpoch s) hlt
  refine ⟨(epoch_eq_of_tick htick).trans (toNextEpoch_epoch s), ?_, ?_⟩
  · rw [epochStep, htick, hnext, tickUnits]
    omega
  · exact (moves_epochStep (.refl _ s) (within_self _)).reg _ _ _ (by decide +kernel)

theorem epochStep_era (s : State) : (epochStep s).rd .CAD_ERA =
    if (s.epoch + 1) % 2 ^ 32 = 0 then (s.rd .CAD_ERA + 1) % 2 ^ 16 else s.rd .CAD_ERA :=
  ((moves_atEpoch (.refl _ _) (within_self _)).reg _ _ _ (by decide +kernel)).trans (toNextEpoch_era s)

/-- A wrap of EPOCH raises the era count by one and sets ERA_ROLL. -/
theorem epochStep_of_wrap {s : State} (h : s.epoch = 2 ^ 32 - 1) :
    (epochStep s).rd .CAD_ERA = (s.rd .CAD_ERA + 1) % 2 ^ 16 ∧ (epochStep s).rd .CAD_ERA_ROLL = 1 := by
  refine ⟨(epochStep_era s).trans (if_pos (by omega)), ?_⟩
  have hrolled : (s.epoch == 2 ^ 32 - 1) = true := beq_iff_eq.2 h
  simp only [epochStep, hrolled, atEpoch_eraRoll]

/-- With no wrap of EPOCH and no CHECKPOINT due, an epoch boundary stands at PHASE 0 and FINE 0. -/
theorem epochStep_of_quiet {s : State} (hlt : s.cad.stamp < 2 ^ 64) (h : s.epoch ≠ 2 ^ 32 - 1)
    (hdue : ∀ c, s.journal.ceiling = some c → s.eraEpoch + 32769 < c) :
    (epochStep s).cad.stamp % 2 ^ 32 = 0 ∧ (epochStep s).rd .CAD_ERA = s.rd .CAD_ERA := by
  have hlast : s.epoch < 2 ^ 32 := by rw [State.epoch]; omega
  have hera : (epochStep s).rd .CAD_ERA = s.rd .CAD_ERA := (epochStep_era s).trans (if_neg (by omega))
  have hnow : (toNextEpoch s).eraEpoch = s.eraEpoch + 1 := by
    have : (toNextEpoch s).rd .CAD_ERA = s.rd .CAD_ERA := (toNextEpoch_era s).trans (if_neg (by omega))
    simp only [State.eraEpoch, State.era, this, toNextEpoch_epoch]
    omega
  have hstamp : (epochStep s).cad.stamp = (toNextEpoch s).cad.stamp := by
    rw [epochStep, beq_false_of_ne h]
    refine atEpoch_stamp_of_quiet fun c hc => ?_
    have := hdue c (by rw [← toNextEpoch_journal]; exact hc)
    omega
  refine ⟨?_, hera⟩
  rw [hstamp, toNextEpoch_stamp]
  omega

/-! ### The boundaries as commands -/

theorem exec_epochBoundary {s : State} (h : s.aonRuns = true) : exec .epochBoundary s = .next (epochStep s) :=
  congrArg Host.Outcome.next (when_of _ s h)

/-- The last tick of an epoch ends at the epoch boundary. -/
theorem exec_tickBoundary_last {s : State} (h : s.aonRuns = true) (hl : s.stamp / tickUnits % 1024 = 1023) :
    exec .tickBoundary s = .next (epochStep s) :=
  congrArg Host.Outcome.next ((when_of _ s h).trans (if_pos hl))

theorem exec_tickBoundary {s : State} (h : s.aonRuns = true) (hl : s.stamp / tickUnits % 1024 ≠ 1023) :
    exec .tickBoundary s = .next (ticksPass 1 (setStamp ((s.stamp / tickUnits + 1) * tickUnits) s)) :=
  congrArg Host.Outcome.next ((when_of _ s h).trans (if_neg hl))

/-- Settles O6: `epochStep` says what an epoch boundary does, and a tick boundary is one or moves the stamp alone. -/
theorem stampAndEra : Obligations.StampAndEra := by
  refine ⟨fun s hrun hlt hlast => ⟨_, exec_tickBoundary hrun hlast, ?_, ?_, ?_⟩,
    fun s hrun hlast => ⟨_, exec_tickBoundary_last hrun hlast, epochStep_stamp s⟩,
    fun s hrun => ⟨_, exec_epochBoundary hrun, epochStep_stamp s⟩,
    fun s hrun hlt hwrap hdue => ⟨_, exec_epochBoundary hrun, epochStep_of_quiet hlt hwrap hdue⟩,
    fun s hrun hwrap => ⟨⟨_, exec_epochBoundary hrun, epochStep_of_wrap hwrap⟩,
      fun hlast => ⟨_, exec_tickBoundary_last hrun hlast, epochStep_of_wrap hwrap⟩⟩⟩
  · refine (congrArg CadS.stamp (ticksPass_cad ..)).trans ((setStamp_stamp ..).trans ?_)
    simp only [tickUnits, State.stamp] at hlast ⊢
    omega
  · exact (ticksPass_rd (f := .CAD_ERA) (by decide +kernel)).trans
      ((moves_setStamp (.refl _ s) (within_self _)).reg _ _ _ (by decide +kernel))
  · exact (ticksPass_rd (f := .CAD_STATE) (by decide +kernel)).trans
      ((moves_setStamp (.refl _ s) (within_self _)).reg _ _ _ (by decide +kernel))

end Sys2Proof.Proofs
end

section
/-!
The end of a Keeper command: where the Keeper does not drain, what a final reply leaves is what the reply itself, and those
of the unknown commands behind it, leave.
-/
namespace Sys2Proof.Proofs
open Sys2Proof Sys2Proof.Machine Sys2Proof.Laws
set_option Elab.async false

/-- What every reply keeps is kept by the replies to the commands of unknown opcodes. -/
theorem answerUnknowns_induct {P : State → Prop} (h : ∀ r op st d g z, P z → P (finishCore r op st d g z)) (n : Nat)
    {s : State} (hs : P s) : P (answerUnknowns n s) := by
  induction n generalizing s with
  | zero => exact hs
  | succ n ih =>
    unfold answerUnknowns
    split
    · exact ih (h _ _ _ _ _ _ hs)
    · exact hs

theorem draining_finishCore {r : CmdReq} {op status gen : Nat} {d : Bytes} {s : State} (h : draining s = false) :
    draining (finishCore r op status d gen s) = false := by
  have hk : (finishCore r op status d gen s).rd .KP_KSTATE = s.rd .KP_KSTATE :=
    (moves_finishCore (.refl _ s) (within_self _)).reg _ _ _ (by decide +kernel)
  rw [draining, hk]
  exact h

/-- A Keeper that does not drain ends a command with replies alone. -/
theorem finishGen_induct {P : State → Prop} (h : ∀ r op st d g z, P z → P (finishCore r op st d g z))
    {r : CmdReq} {op status gen : Nat} {d : Bytes} {s : State} (hd : draining s = false) (hs : P s) :
    P (finishGen r op status d gen s) ∧ draining (finishGen r op status d gen s) = false := by
  have hgo : P (answerUnknowns 16 (finishCore r op status d gen s)) ∧
      draining (answerUnknowns 16 (finishCore r op status d gen s)) = false :=
    ⟨answerUnknowns_induct h 16 (h _ _ _ _ _ _ hs),
      answerUnknowns_induct (P := fun z => draining z = false) (fun _ _ _ _ _ _ hz => draining_finishCore hz) 16
        (draining_finishCore hd)⟩
  have hstay : finishGen r op status d gen s = answerUnknowns 16 (finishCore r op status d gen s) :=
    when_of_not _ _ (by rw [hgo.2]; rfl)
  rwa [hstay]

theorem finish_induct {P : State → Prop} (h : ∀ r op st d g z, P z → P (finishCore r op st d g z))
    {r : CmdReq} {op status : Nat} {d : Bytes} {s : State} (hd : draining s = false) (hs : P s) :
    P (finish r op status d s) := (finishGen_induct h hd hs).1

/-- The waiting commands of an opcode and key end with replies alone. -/
theorem finishWaiting_induct {P : State → Prop} (h : ∀ r op st d g z, P z → P (finishCore r op st d g z))
    {op key status : Nat} {d : Bytes} {s : State} (hd : draining s = false)
    (hs : P (s.modKeeper (fun k => { k with waiting := k.waiting.filter (fun w => !(w.opcode == op && w.key == key)) }))) :
    P (finishWaiting op key status d s) :=
  (each_induct (P := fun z => P z ∧ draining z = false) _ ⟨hs, hd⟩ fun _ _ hz => finishGen_induct h hz.2 hz.1).1

/-- A reply leaves what lies outside its footprint. -/
theorem finishCore_part (p : Part) {r : CmdReq} {op status gen : Nat} {d : Bytes} {s : State}
    (hp : foot_finishCore.testBit p.ctorIdx = false) : p.same s (finishCore r op status d gen s) :=
  (moves_finishCore (.refl _ s) (within_self _)).part p hp

/-- A reply leaves what the Keeper schedules, anchors and waits for. -/
theorem finishCore_anchor {r : CmdReq} {op status gen : Nat} {d : Bytes} {s : State} :
    (finishCore r op status d gen s).keeper.anchor = s.keeper.anchor := by
  obtain ⟨a, b, l, c, e, hk, -⟩ := @finishCore_keeper r op status gen d s
  rw [hk]

/-- A context that is freed leaves the rest of the Keeper. -/
theorem freeCtx_keeper (r : CmdReq) (op : Nat) (s : State) : (freeCtx r op s).keeper = { s.keeper with
    ctxs := s.keeper.ctxs.eraseP (fun c => decide (c.iss = r.iss) && c.tag == r.tag && (c.opcode == op || !c.fetched)) } :=
  (moves_showKeeper (.refl _ _) (within_self _)).part .keeper (by decide +kernel)

/-- A command that waits leaves the schedule and the anchor. -/
theorem waitOn_keeper (r : CmdReq) (op key : Nat) (s : State) :
    (waitOn r op key s).keeper.sched = s.keeper.sched ∧ (waitOn r op key s).keeper.anchor = s.keeper.anchor := by
  refine when_cases (P := fun z => z.keeper.sched = s.keeper.sched ∧ z.keeper.anchor = s.keeper.anchor) ⟨rfl, rfl⟩ ?_
  rw [freeCtx_keeper]
  exact ⟨rfl, rfl⟩

end Sys2Proof.Proofs
end

section
/-!
Anchoring the cadence to PTM time (R39, R40): CADENCE_ANCHOR, its boundary, and the two ends of the dialogue.
-/
namespace Sys2Proof.Proofs
open Sys2Proof Sys2Proof.Machine Sys2Proof.Laws
set_option Elab.async false

/-! ### The command -/

/-- A command that waits for a boundary joins the end of the schedule. -/
theorem boundaryAt_sched (due op : Nat) (a : AtCmd) (r : CmdReq) (s : State) :
    (boundaryAt due op a r s).keeper.sched = s.keeper.sched ++
      [⟨{ r with target := targetOf s r }, a, due, curGen s r, hasMgr s r.iss⟩] := by
  rw [boundaryAt, freeCtx_keeper]
  rfl

/-- The boundary that R337 admits: NOT_BEFORE where it lies ahead, else the next one. -/
theorem atDue_eq {s : State} {n d : Nat} (hd : (n + 2 ^ 32 - s.epoch) % 2 ^ 32 = d) (h : d ≤ 2 ^ 24 ∨ 2 ^ 31 < d) :
    atDue s n = some (s.eraEpoch + (if 1 ≤ d ∧ d ≤ 2 ^ 24 then d else 1)) := by
  have hzero : ¬ (1 ≤ d ∧ d ≤ 2 ^ 24) → d = 0 ∨ 2 ^ 31 < d := by omega
  simp only [atDue, hd]
  by_cases hin : 1 ≤ d ∧ d ≤ 2 ^ 24
  · simp only [← Bool.decide_and, decide_eq_true_eq]
    rw [if_pos hin, if_pos hin]
  · have hout := hzero hin
    simp only [← Bool.decide_and, ← Bool.decide_or, decide_eq_true_eq]
    rw [if_neg hin, if_pos hout, if_neg hin]

theorem exec_cadenceAnchor {r : CmdReq} {hl tai : Nat} {s : State} (hs : Served 0x0601 0 (hasLink s r.iss hl) r s)
    (hlen : r.plen = 16) (hp : s.present hl = true) (htl : s.tlOn (hlTiller hl) = true)
    (hph : s.domOn (dHphy (hlTiller hl)) = true) (hptm : (s.cf (pfIdx hl)).ptmEn = true) (hst : s.rd .CAD_STATE ≠ 1)
    (ha : s.keeper.anchor = none) {due : Nat} (hdue : atDue s r.notBefore = some due) :
    exec (.cadenceAnchor r hl tai) s = .next (boundaryAt due 0x0601 (.cadenceAnchor hl tai) r s) := by
  have hrun : runCmd (cmdCadenceAnchor r hl tai (boundaryAt due 0x0601 (.cadenceAnchor hl tai) r)) r s =
      boundaryAt due 0x0601 (.cadenceAnchor hl tai) r s :=
    runCmd_served hs (by simp [cmdCadenceAnchor, hlen]) (by simp [cmdCadenceAnchor, hp, hdue])
      (by simp [cmdCadenceAnchor, htl, hph]) (by simp [cmdCadenceAnchor, hptm, hst]) (by simp [cmdCadenceAnchor, ha])
      (by simp [cmdCadenceAnchor])
  rw [← hrun]
  change execCadenceAnchor r hl tai s = _
  simp only [execCadenceAnchor, hdue, Option.getD_some]

/-! ### The boundary -/

/-- Taking a scheduled command up changes the Keeper and its counts, and nothing that the checks of an anchor read. -/
theorem unschedule_anchor {e : Sched} {hl tai : Nat} {s : State} (he : e.cmd = .cadenceAnchor hl tai) :
    (unschedule e s).keeper = { s.keeper with sched := s.keeper.sched.erase e } ∧
      Moves (foot_showKeeper ||| pms [.keeper]) s (unschedule e s) := by
  have hstep : unschedule e s = showKeeper e.req.iss (s.modKeeper (fun k => { k with sched := k.sched.erase e })) := by
    simp only [unschedule, he]
  rw [hstep]
  exact ⟨(moves_showKeeper (.refl _ _) (within_self _)).part .keeper (by decide +kernel),
    moves_showKeeper (moves_modKeeper (.refl _ s) (by unfold Within; decide +kernel)) (by unfold Within; decide +kernel)⟩

/-- A message leaves on a link that is up, last. -/
theorem sendMsg_out {f : Nat} {m : HMsg} {s : State} (h : s.dlUp (fnHl f) = true) :
    Out.msg (fnOf f) m ∈ (sendMsg f m s).out := by
  rw [sendMsg, when_of _ _ h]
  exact List.mem_append_right _ (List.mem_singleton.2 rfl)

/-- Starting the dialogue notes the boundary, and asks the host where the link is up. -/
theorem startAnchor_spec (r : CmdReq) (hl tai : Nat) (s : State) :
    (startAnchor r hl tai s).keeper.sched = s.keeper.sched ∧
      (startAnchor r hl tai s).keeper.anchor = some ⟨r, hl, tai, s.era, s.epoch, anchorFlags s⟩ ∧
      (s.dlUp (fnHl (pfIdx hl)) = true → Out.msg (fnOf (pfIdx hl)) .ptmRequest ∈ (startAnchor r hl tai s).out) := by
  unfold startAnchor
  extract_lets s1
  obtain ⟨hsched, hanchor⟩ := waitOn_keeper r 0x0601 0 s1
  have hsent := (moves_sendMsg (.refl _ (waitOn r 0x0601 0 s1)) (within_self _) (f := pfIdx hl) (m' := .ptmRequest)).part
    .keeper (by decide +kernel)
  refine ⟨(congrArg KeeperS.sched hsent).trans hsched, (congrArg KeeperS.anchor hsent).trans hanchor, fun hup => sendMsg_out ?_⟩
  have hdl : (waitOn r 0x0601 0 s1).rd .HL_DL_UP (fnHl (pfIdx hl)) = s1.rd .HL_DL_UP (fnHl (pfIdx hl)) :=
    (moves_waitOn (.refl _ _) (within_self _)).reg _ _ _ (by decide +kernel)
  rw [State.dlUp, State.on, hdl]
  exact hup

/-- Checks 5 to 10 of a command that was accepted under manager authority find nothing. -/
theorem checks5to10_mgr {c : Cmd} {r : CmdReq} {s : State} (hun : unbound s r.iss = false) (hfor : foreignTarget s r = false)
    (hre : s.react = false) (hlen : c.lenOk = true) (hresv : r.resv = false) (htg : r.target < 256 ∨ r.target = 0xFFFF)
    (hact : c.acts = false) (hat : r.atEpoch = false) (hp : c.params s = true) (hth : tenantThere c.op r s = true)
    (hdark : c.dark s = false) : checks5to10 c r true s = 0 := by
  have htg' : ((r.target ≥ 256 && r.target != 0xFFFF) : Bool) = false := by
    rcases htg with h | h
    · simp [Nat.not_le.2 h]
    · simp [h]
  have hth' : (decide (targetOf s r < 256) && c.op != 0x0201 && (s.tnState (targetOf s r) == 0 ||
      (s.tnState (targetOf s r) == 5 && c.op != 0x0205))) = false := by
    simp only [tenantThere, Bool.or_eq_true, Bool.not_eq_true', decide_eq_true_eq, beq_iff_eq] at hth
    rcases hth with (h | h) | h
    · simp [Nat.not_lt.2 h]
    · simp [h]
    · rw [h, Bool.and_false]
  simp only [checks5to10, firstFail, hun, hfor, hre, hlen, hresv, htg', hact, hat, hp, hth', hdark, Bool.false_and,
    Bool.false_or, Bool.true_or, Bool.not_true, Bool.false_eq_true, if_false]

/-- An anchor whose checks find nothing runs at its boundary. -/
theorem runAnchor_eq {e : Sched} {hl tai : Nat} {s : State} (he : e.cmd = .cadenceAnchor hl tai) (hm : e.mgr = true)
    (hlen : e.req.plen = 16) (hresv : e.req.resv = false) (hun : unbound s e.req.iss = false)
    (hfor : foreignTarget s e.req = false) (hre : s.react = false) (htg : e.req.target < 256 ∨ e.req.target = 0xFFFF)
    (hth : tenantThere 0x0601 e.req s = true) (hnb : (atDue s e.req.notBefore).isSome = true) (hp : s.present hl = true)
    (htl : s.tlOn (hlTiller hl) = true) (hph : s.domOn (dHphy (hlTiller hl)) = true)
    (hptm : (s.cf (pfIdx hl)).ptmEn = true) (hst : s.rd .CAD_STATE ≠ 1) :
    runAnchor e s = (startAnchor { e.req with atEpoch := false } hl tai ((unschedule e s).modKeeper
      (fun k => { k with actGen := some e.ringGen, actMgr := some e.mgr }))).modKeeper
        (fun k => { k with actGen := none, actMgr := none }) := by
  obtain ⟨-, hmv⟩ := unschedule_anchor (s := s) he
  unfold runAnchor
  rw [he]
  dsimp only
  unfold runSched
  extract_lets s1 src r n m s2
  have hrd {f : Fld} (i j : Nat) (hf : (foot_showKeeper ||| pms [.keeper]).testBit (fbit f) = false) :
      s1.rd f i j = s.rd f i j := hmv.reg f i j hf
  have hcad : s1.cad = s.cad := hmv.part .cad (by decide +kernel)
  have hcfg : s1.cfg = s.cfg := hmv.part .cfg (by decide +kernel)
  have hbound (f : Nat) : s1.boundTn f = s.boundTn f := by
    simp only [State.boundTn, hrd (f := .DVSEC_TNID) _ _ (by decide +kernel)]
  have hstate (n : Nat) : s1.tnState n = s.tnState n := hrd (f := .TN_STATE) _ _ (by decide +kernel)
  have hdom (d : Nat) : s1.domOn d = s.domOn d := by
    simp only [State.domOn, hrd (f := .PW_STATE) _ _ (by decide +kernel)]
  have hissuer (i : Issuer) : issuerTn s1 i = issuerTn s i := by
    simp only [issuerTn, hbound]
  have hfor1 : foreignTarget s1 e.req = false := by
    simpa only [foreignTarget, hissuer] using hfor
  have hth1 : tenantThere 0x0601 e.req s1 = true := by
    have htarget : targetOf s1 e.req = targetOf s e.req := by rw [targetOf, targetOf, hissuer]
    rw [tenantThere, htarget, hstate]
    exact hth
  have hp1 : s1.present hl = true := by
    simpa only [State.present, State.on, hrd (f := .HL_PRESENT) _ _ (by decide +kernel)] using hp
  have hnb1 : (atDue s1 e.req.notBefore).isSome = true := by
    have hepoch : s1.epoch = s.epoch := congrArg (fun c : CadS => c.stamp / 2 ^ 32) hcad
    have hnow : s1.eraEpoch = s.eraEpoch := by
      rw [State.eraEpoch, State.eraEpoch, State.era, State.era, hepoch, hrd _ _ (by decide +kernel)]
    rw [atDue, hepoch, hnow]
    exact hnb
  have hchecks : checks5to10 (cmdCadenceAnchor e.req hl tai (startAnchor { e.req with atEpoch := false } hl tai)) r true s1 = 0 := by
    refine checks5to10_mgr ?_ hfor1 ?_ (by simp [cmdCadenceAnchor, hlen]) hresv htg rfl rfl
      (by simp only [cmdCadenceAnchor, hp1, hnb1, Bool.and_self]) hth1 ?_
    · simpa only [unbound, hbound] using hun
    · simpa only [State.react, State.on, hrd (f := .WD_REACT) _ _ (by decide +kernel)] using hre
    · simp only [cmdCadenceAnchor, State.tlOn, hdom] at htl hph ⊢
      rw [htl, hph]
      rfl
  have hown : stateChecks (cmdCadenceAnchor e.req hl tai (startAnchor { e.req with atEpoch := false } hl tai)) r s1 = 0 := by
    have hcf : (s1.cf (pfIdx hl)).ptmEn = true := by rw [State.cf, hcfg]; exact hptm
    have hst' : s1.rd .CAD_STATE ≠ 1 := by rw [hrd _ _ (by decide +kernel)]; exact hst
    simp [stateChecks, firstFail, cmdCadenceAnchor, hcf, hst']
  have hn : n = 0 := by rw [← hchecks, ← hm]
  have hgo : m = 0 := by simp only [m, hn, bne_self_eq_false, Bool.false_eq_true, if_false]; exact hown
  simp only [s2, hgo, bne_self_eq_false, Bool.false_eq_true, if_false]
  rfl

/-! ### The ends of the dialogue -/

/-- A record that the queue takes stands in it. -/
theorem journal_mem {b : JBody} {s : State} (h : jTakes s b = true) : ∃ x ∈ (journal b s).journal.queue, x.body = b := by
  have hadv : (advance s).journal = s.journal := (moves_advance (.refl _ s) (within_self _)).part .journal (by decide +kernel)
  have htakes : jTakes (advance s) b = true := by rw [jTakes, hadv]; exact h
  rw [journal, jPut, if_pos htakes]
  refine ⟨⟨b, 0 + (if (advance s).on .CAD_SEEDED then 0 else 2), (advance s).stamp, (advance s).era, 0, 0, 0, 0⟩, ?_, rfl⟩
  cases b with
  | fatalReaction a c => exact List.mem_append_left _ (List.mem_append_right _ (List.mem_singleton.2 rfl))
  | _ => exact List.mem_append_right _ (List.mem_singleton.2 rfl)

/-- What the end of the dialogue leaves: no anchor, and the journal as the state before the replies had it. -/
theorem finishWaiting_anchor {op key status : Nat} {d : Bytes} {s : State} (hd : draining s = false)
    (ha : s.keeper.anchor = none) : (finishWaiting op key status d s).keeper.anchor = none ∧
      (finishWaiting op key status d s).journal = s.journal :=
  finishWaiting_induct (P := fun z => z.keeper.anchor = none ∧ z.journal = s.journal)
    (fun _ _ _ _ _ _ hz => ⟨finishCore_anchor.trans hz.1, (finishCore_part .journal (by decide +kernel)).trans hz.2⟩)
    hd ⟨ha, rfl⟩

theorem exec_ptmResponse {a : AnchorS} {ptm rtt : Nat} {s : State} (h : s.keeper.anchor = some a) :
    exec (.ptmResponse ptm rtt) s = .next (finishWaiting 0x0601 0 0 (anchorReply s a ptm rtt)
      (journal (.anchor a.hl (anchorReply s a ptm rtt)) (s.modKeeper (fun k => { k with anchor := none })))) := by
  change execPtmResponse ptm rtt s = _
  simp only [execPtmResponse, h]

theorem exec_ptmTimeout {a : AnchorS} {s : State} (h : s.keeper.anchor = some a) :
    exec .ptmTimeout s = .next (finishWaiting 0x0601 0 0x0C [] (s.modKeeper (fun k => { k with anchor := none }))) := by
  change execPtmTimeout s = _
  simp only [execPtmTimeout, h]

theorem exec_anchorBoundary {e : Sched} {s : State} (hup : keeperUp s = true)
    (he : dueSched s (fun e => match e.cmd with | .cadenceAnchor _ _ => true | _ => false) = some e) :
    exec .anchorBoundary s = .next (runAnchor e s) :=
  congrArg Host.Outcome.next ((when_of _ s hup).trans (congrArg (fun o => withSome o runAnchor s) he))

/-- Settles O8: the schedule takes the anchor, its boundary starts the dialogue, and `finishWaiting_anchor` ends it. -/
theorem cadenceAnchors : Obligations.CadenceAnchors := by
  refine ⟨fun r hl tai s hs hlen hp htl hph hptm hst ha => ?_, fun hl tai e s hup hdue he hm hlen hresv hun hfor hre htg
    hth hnb hp htl hph hptm hst => ?_, fun a ptm rtt s ha hd => ⟨_, exec_ptmResponse ha, ?_⟩,
    fun a s ha hd => ⟨_, exec_ptmTimeout ha, finishWaiting_anchor hd rfl⟩⟩
  · intro d hd
    exact ⟨_, exec_cadenceAnchor hs hlen hp htl hph hptm hst ha (atDue_eq rfl hd), _, boundaryAt_sched .., rfl, rfl⟩
  · refine ⟨_, (exec_anchorBoundary hup hdue).trans (congrArg Host.Outcome.next (runAnchor_eq he hm hlen hresv hun hfor hre htg
      hth hnb hp htl hph hptm hst)), ?_⟩
    obtain ⟨hkeeper, hmv⟩ := unschedule_anchor (s := s) he
    obtain ⟨hsched, hanchor, hsent⟩ := startAnchor_spec { e.req with atEpoch := false } hl tai ((unschedule e s).modKeeper
      (fun k => { k with actGen := some e.ringGen, actMgr := some e.mgr }))
    have hera : (unschedule e s).rd .CAD_ERA = s.rd .CAD_ERA := hmv.reg _ _ _ (by decide +kernel)
    have hcad : (unschedule e s).cad = s.cad := hmv.part .cad (by decide +kernel)
    have hdl : (unschedule e s).rd .HL_DL_UP hl = s.rd .HL_DL_UP hl := hmv.reg _ _ _ (by decide +kernel)
    refine ⟨hsched.trans (congrArg KeeperS.sched hkeeper), ⟨_, hanchor, rfl, hera, ?_, rfl⟩, fun hup => hsent ?_⟩
    · exact congrArg (fun c : CadS => c.stamp / 2 ^ 32) hcad
    · have hhl : fnHl (pfIdx hl) = hl := Nat.mul_div_cancel hl (by decide)
      rw [hhl]
      exact (congrArg (· != 0) hdl).trans hup
  · have hjournal := journal_mem (b := .anchor a.hl (anchorReply s a ptm rtt)) (s := s.modKeeper (fun k => { k with anchor := none }))
    have hk : (journal (.anchor a.hl (anchorReply s a ptm rtt)) (s.modKeeper (fun k => { k with anchor := none }))).keeper.anchor = none :=
      congrArg KeeperS.anchor ((moves_journal (.refl _ _) (within_self _)).part .keeper (by decide +kernel))
    have hst : draining (journal (.anchor a.hl (anchorReply s a ptm rtt)) (s.modKeeper (fun k => { k with anchor := none }))) = false := by
      rw [draining, (moves_journal (.refl _ _) (within_self _)).reg .KP_KSTATE 0 0 (by decide +kernel)]
      exact hd
    obtain ⟨hnone, hsame⟩ := finishWaiting_anchor (op := 0x0601) (key := 0) (status := 0) (d := anchorReply s a ptm rtt) hst hk
    refine ⟨hnone, fun htakes => ?_⟩
    rw [hsame]
    exact hjournal htakes

end Sys2Proof.Proofs
end

section
/-!
The searches of the windows and the check of a packet (R100, R101, R105, R122), and the cutting of requests into TLPs and
packets (R104, R107, R138, R144).
-/
namespace Sys2Proof.Proofs
open Sys2Proof Sys2Proof.Machine Sys2Proof.Laws
set_option Elab.async false

/-! ### Searches -/

/-- The entries of a tiller are those whose index lies in its part of the array. -/
theorem mem_tillerEntries {t per i : Nat} (h : 0 < per) : i ∈ tillerEntries t per ↔ i / per = t := by
  simp only [tillerEntries, List.mem_map, List.mem_range]
  constructor
  · rintro ⟨k, hk, rfl⟩
    rw [Nat.mul_comm, Nat.mul_add_div h, Nat.div_eq_of_lt hk, Nat.add_zero]
  · rintro rfl
    exact ⟨i % per, Nat.mod_lt _ h, Nat.div_add_mod' i per⟩

theorem findOut_some {s : State} {n a i : Nat} (h : findOut s n a = some i) :
    i / 256 = wlTiller n ∧ s.rd .OW_LINK i = n ∧ owBase s i ≤ a ∧ a < owBase s i + owSize s i := by
  have hmem := (mem_tillerEntries (by decide)).1 (List.mem_of_find?_eq_some h)
  have hp := List.find?_some h
  simp only [Bool.and_eq_true, beq_iff_eq, bne_iff_ne, decide_eq_true_eq] at hp
  obtain ⟨⟨⟨⟨hlink, -⟩, hlo⟩, hhi⟩, -⟩ := hp
  exact ⟨hmem, hlink, hlo, hhi⟩

theorem findOut_isSome {s : State} {n a i : Nat} (ht : i / 256 = wlTiller n) (hl : s.rd .OW_LINK i = n) (hlo : owBase s i ≤ a)
    (hhi : a < owBase s i + owSize s i) (hsh : s.on .OW_SHEAF i = false) (hd : tnDead s (owDest s i).2 = false) :
    (findOut s n a).isSome = true := by
  have hsize : owSize s i ≠ 0 := by omega
  exact List.find?_isSome.2 ⟨i, (mem_tillerEntries (by decide)).2 ht, by simp [hl, hsize, hlo, hhi, hsh, hd]⟩

theorem findIn_some {s : State} {f x i : Nat} (h : findIn s f x = some i) :
    i / 128 = hlTiller (fnHl f) ∧ s.rd .IW_HL i = fnHl f ∧ s.rd .IW_FUNC i = fnVf f ∧ iwOff s i ≤ x ∧
      x < iwOff s i + iwSize s i := by
  have hmem := (mem_tillerEntries (by decide)).1 (List.mem_of_find?_eq_some h)
  have hp := List.find?_some h
  simp only [Bool.and_eq_true, beq_iff_eq, bne_iff_ne, decide_eq_true_eq] at hp
  obtain ⟨⟨⟨⟨hhl, hfn⟩, -⟩, hlo⟩, hhi⟩ := hp
  exact ⟨hmem, hhl, hfn, hlo, hhi⟩

theorem findIn_isSome {s : State} {f x i : Nat} (ht : i / 128 = hlTiller (fnHl f)) (hh : s.rd .IW_HL i = fnHl f)
    (hf : s.rd .IW_FUNC i = fnVf f) (hlo : iwOff s i ≤ x) (hhi : x < iwOff s i + iwSize s i) :
    (findIn s f x).isSome = true := by
  have hsize : iwSize s i ≠ 0 := by omega
  exact List.find?_isSome.2 ⟨i, (mem_tillerEntries (by decide)).2 ht, by simp [hh, hf, hsize, hlo, hhi]⟩

theorem findInt_some {s : State} {n m i : Nat} (h : findInt s n m = some i) :
    i / 128 = wlTiller n ∧ s.rd .NW_LINK i = n ∧ s.rd .NW_MSG_BASE i ≤ m ∧ m < s.rd .NW_MSG_BASE i + s.rd .NW_COUNT i := by
  have hmem := (mem_tillerEntries (by decide)).1 (List.mem_of_find?_eq_some h)
  have hp := List.find?_some h
  simp only [Bool.and_eq_true, beq_iff_eq, decide_eq_true_eq] at hp
  obtain ⟨⟨hlink, hlo⟩, hhi⟩ := hp
  exact ⟨hmem, hlink, hlo, hhi⟩

/-- A packet is passed where each check of R101 finds nothing. -/
theorem missCause_eq_zero {s : State} {n i : Nat} {p : Pkt} {bit : Fld} : missCause s n i p bit = 0 ↔
    p.addr + p.len ≤ owBase s i + owSize s i ∧ s.rd bit i ≠ 0 ∧
      (s.on .OW_SHEAF i = true → p.typ = 1 ∨ (p.typ = 2 ∧ p.len = 0)) ∧
      (s.on .OW_SHEAF i = false → (owDest s i).2 < 256 → permits s (owDest s i).2 n = true) := by
  unfold missCause
  by_cases hlen : owBase s i + owSize s i < p.addr + p.len
  · simp [hlen, Nat.not_le.2 hlen]
  by_cases hbit : s.rd bit i = 0
  · simp [hlen, State.on, hbit]
  have hon : s.on bit i = true := by simp [State.on, hbit]
  simp only [if_neg hlen, hon, Bool.not_true, Bool.false_eq_true, if_false, Nat.not_lt.1 hlen, ne_eq, hbit, not_false_eq_true,
    true_and]
  cases hsh : s.on .OW_SHEAF i
  · by_cases htn : (owDest s i).2 < 256 <;> cases hp : permits s (owDest s i).2 n <;> simp [htn]
  · by_cases htyp : p.typ = 1 <;> simp [htyp]

/-- Settles O37: each clause is the lemma about its search, or about the check. -/
theorem windowLookup : Obligations.WindowLookup :=
  ⟨fun _ _ _ _ => findOut_some, fun _ _ _ _ => findOut_isSome, fun _ _ _ _ => findIn_some, fun _ _ _ _ => findIn_isSome,
    fun _ _ _ _ => findInt_some, fun _ _ _ _ _ => missCause_eq_zero⟩

/-! ### Cutting a request into TLPs -/

/-- What lies before the next multiple of `m` does not cross it, and what follows starts there. -/
theorem cut_at_multiple {a l m : Nat} (hm : 0 < m) : a % m + min l (m - a % m) ≤ m ∧
    (min l (m - a % m) < l → 0 < min l (m - a % m) ∧ (a + min l (m - a % m)) % m = 0) := by
  have hlt := Nat.mod_lt a hm
  refine ⟨by omega, fun h => ⟨by omega, ?_⟩⟩
  have hmin : min l (m - a % m) = m - a % m := by omega
  have hdiv := Nat.div_add_mod a m
  rw [hmin, show a + (m - a % m) = m * (a / m) + m by omega, Nat.mul_add_mod, Nat.mod_self]

/-- The first TLP of a request that is cut at multiples of `m`, and what remains of it. -/
theorem cutTlp_spec {s : State} {r : HReq} {m : Nat} (hm : 0 < m) (h : tlpLen s r = min r.len (m - r.addr % m)) :
    (cutTlp s r).1.addr = r.addr ∧ (cutTlp s r).1.addr % m + (cutTlp s r).1.len ≤ m ∧
      (∀ y, (cutTlp s r).2 = some y → 0 < (cutTlp s r).1.len ∧ y.addr = r.addr + (cutTlp s r).1.len ∧ y.addr % m = 0 ∧
        (cutTlp s r).1.len + y.len = r.len ∧ (cutTlp s r).1.data = r.data.take (cutTlp s r).1.len ∧
        y.data = r.data.drop (cutTlp s r).1.len) ∧
      ((cutTlp s r).2 = none → (cutTlp s r).1 = r) := by
  obtain ⟨hfit, hnext⟩ := cut_at_multiple (a := r.addr) (l := r.len) hm
  rw [← h] at hfit hnext
  by_cases hall : r.len ≤ tlpLen s r
  · have hcut : cutTlp s r = (r, none) := if_pos hall
    rw [hcut]
    refine ⟨rfl, ?_, fun y hy => ?_, fun _ => rfl⟩
    · dsimp only
      omega
    · cases hy
  · obtain ⟨hpos, hmod⟩ := hnext (by omega)
    unfold cutTlp
    rw [if_neg hall]
    refine ⟨rfl, hfit, fun y hy => ?_, fun hy => nomatch hy⟩
    obtain rfl := Option.some.inj hy
    exact ⟨hpos, rfl, hmod, Nat.add_sub_cancel' (Nat.le_of_not_le hall), rfl, rfl⟩

/-! ### Cutting a host write into packets -/

/-- The packets of a host write that `k` of them can carry. -/
theorem cutIn_spec (k : Nat) : ∀ o a n : Nat, n ≤ 512 * k - a % 512 →
    ((cutIn k o a n).map (fun c => c.2.2)).sum = n ∧
    (∀ c ∈ cutIn k o a n, o ≤ c.1 ∧ 0 < c.2.2 ∧ c.2.1 % 512 + c.2.2 ≤ 512 ∧ c.2.1 + o = a + c.1) ∧
    (cutIn k o a n).Pairwise (fun c d => c.1 + c.2.2 ≤ d.1) := by
  induction k with
  | zero =>
    intro o a n h
    have hn : n = 0 := by omega
    simp [cutIn, hn]
  | succ k ih =>
    intro o a n h
    by_cases hn : n = 0
    · simp [cutIn, hn]
    · obtain ⟨hsum, hmem, hpair⟩ := ih (o + min n (512 - a % 512)) (a + min n (512 - a % 512)) (n - min n (512 - a % 512)) (by omega)
      simp only [cutIn, if_neg hn, List.map_cons, List.sum_cons, hsum, List.forall_mem_cons, List.pairwise_cons]
      refine ⟨by omega, ⟨⟨Nat.le_refl _, by omega, by omega, trivial⟩, fun c hc => ?_⟩, fun c hc => (hmem c hc).1, hpair⟩
      obtain ⟨ho, hpos, hfit, hat⟩ := hmem c hc
      exact ⟨by omega, hpos, hfit, by omega⟩

/-- Settles O38: a request is cut at the next multiple of its largest size, and a host write at every multiple of 512. -/
theorem requestCuts : Obligations.RequestCuts := by
  refine ⟨fun s r hk hlen => ?_, fun s r hk => ?_, fun a n => ?_⟩
  · have hcut : tlpLen s r = min r.len (maxPayload s (fnIdx r.fn) - r.addr % maxPayload s (fnIdx r.fn)) := by
      simp only [tlpLen, hk]
    obtain ⟨haddr, hfit, hrest, hwhole⟩ := cutTlp_spec (Nat.two_pow_pos _) hcut
    refine ⟨haddr, hfit, ?_, fun y hy => ?_, hwhole⟩
    · cases hy : (cutTlp s r).2 with
      | none => rw [hwhole hy, ← hlen, List.take_length]
      | some y => exact (hrest y hy).2.2.2.2.1
    · obtain ⟨hpos, hat, hmod, hsum, -, hdata⟩ := hrest y hy
      exact ⟨hpos, hat, hmod, hsum, hdata⟩
  · intro x m
    have hcut : tlpLen s r = min r.len (m - r.addr % m) := by simp only [tlpLen, hk, m]
    have hm : 0 < m := by
      have hread : 0 < maxRead s (fnIdx r.fn) := Nat.two_pow_pos _
      simp only [m]
      split <;> omega
    obtain ⟨haddr, hfit, hrest, -⟩ := cutTlp_spec hm hcut
    refine ⟨haddr, hfit, fun y hy => ?_⟩
    obtain ⟨-, hat, hmod, hsum, -⟩ := hrest y hy
    exact ⟨hat, hmod, hsum⟩
  · obtain ⟨hsum, hmem, hpair⟩ := cutIn_spec (n / 512 + 2) 0 a n (by omega)
    refine ⟨hsum, fun c hc => ?_, hpair⟩
    obtain ⟨-, hpos, hfit, hat⟩ := hmem c hc
    exact ⟨hpos, hfit, hat⟩

end Sys2Proof.Proofs
end

section
/-!
Command rings, the reply to a ring, and the sideband port (R328 to R332, R359, R360).
-/
namespace Sys2Proof.Proofs
open Sys2Proof Sys2Proof.Machine Sys2Proof.Laws
set_option Elab.async false

theorem fnHl_fnIdx (fn : Fn) : fnHl (fnIdx fn) = fn.hl.val := by
  simp only [fnHl, fnIdx]
  omega

theorem fnVf_fnIdx (fn : Fn) : fnVf (fnIdx fn) = fn.vf.val := by
  simp only [fnVf, fnIdx]
  omega

theorem fnOf_fnIdx (fn : Fn) : fnOf (fnIdx fn) = fn := by
  obtain ⟨⟨h, hh⟩, ⟨v, hv⟩⟩ := fn
  simp only [fnOf, fnIdx, Fn.mk.injEq, Fin.mk.injEq]
  omega

theorem fnHl_pfIdx (h : Nat) : fnHl (pfIdx h) = h := Nat.mul_div_cancel h (by decide)

/-! ### The registers of a ring -/

theorem exec_ringEnWrite {fn : Fn} {en : Bool} {s : State} (h : fnWrites s fn = true) (he : s.on .KR_EN (fnIdx fn) = !en) :
    exec (.ringEnWrite fn en) s = .next (writeRingEn (fnIdx fn) en s) :=
  congrArg Host.Outcome.next (when_of _ s (by rw [h, he]; cases en <;> rfl))

theorem writeRingEn_on (f : Nat) (s : State) : (writeRingEn f true s).rd .KR_EN f = 1 ∧
    (writeRingEn f true s).rd .KR_CMD_PI f = 0 ∧ (writeRingEn f true s).rd .KR_CMD_CI f = 0 ∧
    (writeRingEn f true s).rd .KR_RPL_PI f = 0 ∧ (writeRingEn f true s).rd .KR_RPL_CI f = 0 := by
  have hw : Fld.KR_EN.width = 1 := rfl
  simp [writeRingEn, rd_wr_ite, hw]

theorem writeRingEn_off (f : Nat) (s : State) : (writeRingEn f false s).rd .KR_EN f = 0 ∧
    (writeRingEn f false s).rd .KR_STOPPED f = 0 := by
  simp [writeRingEn, rd_wr_ite]

/-- A doorbell stores CMD_PI, and stops a ring that runs more than 64 ahead. -/
theorem exec_cmdPiWrite {fn : Fn} {v : BitVec 16} {s : State} (h : fnWrites s fn = true) (he : s.on .KR_EN (fnIdx fn) = true) :
    Completes (.cmdPiWrite fn v) s (fun t => t.rd .KR_CMD_PI (fnIdx fn) = v.toNat ∧
      (64 < (v.toNat + 65536 - s.rd .KR_CMD_CI (fnIdx fn)) % 65536 →
        t.rd .KR_OVERRUN (fnIdx fn) = 1 ∧ t.rd .KR_STOPPED (fnIdx fn) = 1)) := by
  refine ⟨_, congrArg Host.Outcome.next (when_of _ s (by rw [h, he]; rfl)), ?_⟩
  have hw : Fld.KR_CMD_PI.width = 16 ∧ Fld.KR_OVERRUN.width = 1 ∧ Fld.KR_STOPPED.width = 1 := ⟨rfl, rfl, rfl⟩
  have hv : v.toNat % 65536 = v.toNat := Nat.mod_eq_of_lt v.isLt
  have hwork : ringWork (s.wr .KR_CMD_PI v.toNat (fnIdx fn)) (fnIdx fn) =
      (v.toNat + 65536 - s.rd .KR_CMD_CI (fnIdx fn)) % 65536 := by
    simp [ringWork, rd_wr_ite, hw, hv]
  dsimp only
  rw [hwork]
  by_cases hgo : 64 < (v.toNat + 65536 - s.rd .KR_CMD_CI (fnIdx fn)) % 65536
  · rw [when_of _ _ (decide_eq_true hgo)]
    simp [rd_wr_ite, hw, hv]
  · rw [when_of_not _ _ (decide_eq_false hgo)]
    simp [rd_wr_ite, hw, hv, hgo]

/-- RPL_CI is taken within 64 of RPL_PI. -/
theorem exec_rplCiWrite {fn : Fn} {v : BitVec 16} {s : State} (h : fnWrites s fn = true) :
    Completes (.rplCiWrite fn v) s (fun t => t.rd .KR_RPL_CI (fnIdx fn) =
      if (s.rd .KR_RPL_PI (fnIdx fn) + 65536 - v.toNat) % 65536 ≤ 64 then v.toNat else s.rd .KR_RPL_CI (fnIdx fn)) := by
  by_cases hin : (s.rd .KR_RPL_PI (fnIdx fn) + 65536 - v.toNat) % 65536 ≤ 64
  · refine ⟨_, congrArg Host.Outcome.next (when_of _ s (by rw [h, decide_eq_true hin]; rfl)), ?_⟩
    have hv : v.toNat % 2 ^ Fld.KR_RPL_CI.width = v.toNat := Nat.mod_eq_of_lt v.isLt
    have hset : (s.wr .KR_RPL_CI v.toNat (fnIdx fn)).rd .KR_RPL_CI (fnIdx fn) = v.toNat := (rd_wr ..).trans hv
    rw [if_pos hin]
    exact when_cases (P := fun z => z.rd .KR_RPL_CI (fnIdx fn) = v.toNat) hset
      ((rd_wr_ne _ (by simp)).trans hset)
  · exact ⟨_, congrArg Host.Outcome.next (when_of_not _ s (by rw [decide_eq_false hin, Bool.and_false])), (if_neg hin).symm⟩

/-! ### The fetch of the next command -/

/-- With a context free the Keeper takes the next ring that has work. -/
theorem exec_commandFetch {f : Nat} {s : State} (hd : s.domOn dKeep = true) (hk : s.rd .KP_KSTATE = 1 ∨ s.rd .KP_KSTATE = 2)
    (hc : s.keeper.ctxs.length < 16)
    (hn : nextRing ((enabledRings s).filter (ringReady s) ++ (if s.keeper.smpHeld < s.keeper.smpCmds.length then [16384] else []))
      s.keeper.rr = some f) :
    exec .commandFetch s = .next (if f = 16384 then fetchSmp s else fetchRing f s) := by
  have hserve : (!s.domOn dKeep || !(s.rd .KP_KSTATE == 1 || s.rd .KP_KSTATE == 2) || decide (16 ≤ s.keeper.ctxs.length)) = false := by
    rcases hk with h | h <;> simp [hd, h, Nat.not_le.2 hc]
  change execCommandFetch s = _
  simp only [execCommandFetch, hserve, Bool.false_eq_true, if_false, hn]

/-- A ring with a free reply slot has the header of its next slot read. -/
theorem fetchRing_spec {f : Nat} {s : State} (h : freeSlots s f ≠ 0) :
    (fetchRing f s).rd .KR_CMD_CI f = (s.rd .KR_CMD_CI f + 1) % 65536 ∧
    (fetchRing f s).keeper.ctxs.length = s.keeper.ctxs.length + 1 ∧
    ∃ r, (fetchRing f s).hostQ = s.hostQ ++ [r] ∧ r.fn = fnOf f ∧ r.kind = .read ∧ r.len = 32 ∧
      r.addr = (s.rd .KR_CMD_BASE_LO f * 4096 + s.rd .KR_CMD_BASE_HI f * 2 ^ 32 + s.rd .KR_CMD_CI f % 64 * 4096) % 2 ^ 64 := by
  unfold fetchRing
  rw [if_neg h]
  extract_lets idx a s1 s2
  have hshow (i : Issuer) (z : State) := moves_showKeeper (.refl _ z) (within_self _) (i := i)
  refine ⟨?_, ?_, _, (hshow ..).part .hostQ (by decide +kernel), rfl, rfl, rfl, rfl⟩
  · rw [(hshow ..).reg .KR_CMD_CI f 0 (by decide +kernel)]
    have hw : Fld.KR_CMD_CI.width = 16 := rfl
    change s1.rd .KR_CMD_CI f = _
    simp [s1, State.inc, State.add, rd_wr_ite, hw, idx]
  · refine (congrArg (fun k : KeeperS => k.ctxs.length) ((hshow ..).part .keeper (by decide +kernel))).trans ?_
    exact List.length_append

/-- A Keeper that holds no command of an unknown opcode answers none. -/
theorem answerUnknowns_of_known {s : State} (h : ∀ c ∈ s.keeper.ctxs, c.unknown = 0) (n : Nat) : answerUnknowns n s = s := by
  have hnone : unknownTurn s = none := by
    simp only [unknownTurn, List.find?_eq_none]
    intro c hc
    simp [h c hc]
  cases n with
  | zero => rfl
  | succ n => rw [answerUnknowns, hnone]

/-- The next frame of the sideband port is taken into a context. -/
theorem fetchSmp_spec {p : Bytes} {rest : List Bytes} {s : State} (hu : ∀ c ∈ s.keeper.ctxs, c.unknown = 0)
    (hp : s.keeper.smpCmds.drop s.keeper.smpHeld = p :: rest) (hop : num p 0 2 ∈ opcodes) :
    (fetchSmp s).keeper.smpHeld = s.keeper.smpHeld + 1 ∧
      (fetchSmp s).keeper.ctxs = s.keeper.ctxs ++ [⟨.smp, num p 0 2, num p 2 2, 1, true, 0, 0⟩] := by
  have hstatus : unknownStatus p = 0 := by
    rw [unknownStatus, if_pos (List.contains_iff_mem.2 hop)]
  unfold fetchSmp
  rw [hp]
  dsimp only
  rw [hstatus]
  have hkeep (z : State) : (showKeeper .smp z).keeper = z.keeper :=
    (moves_showKeeper (.refl _ z) (within_self _)).part .keeper (by decide +kernel)
  rw [answerUnknowns_of_known, hkeep]
  · exact ⟨rfl, rfl⟩
  · rw [hkeep]
    intro c hc
    rcases List.mem_append.1 hc with h | h
    · exact hu c h
    · rw [List.mem_singleton.1 h]

/-- Settles O17: the ring's registers take what is written, and a fetch takes the next ring or the next frame. -/
theorem commandRings : Obligations.CommandRings := by
  refine ⟨fun fn s h he => ⟨_, exec_ringEnWrite h he, writeRingEn_on ..⟩, fun fn s h he => ⟨_, exec_ringEnWrite h he, writeRingEn_off ..⟩,
    fun fn v s h he => exec_cmdPiWrite h he, fun fn v s h => exec_rplCiWrite h, fun f s hd hk hc hn hf hfree => ?_,
    fun p rest s hd hk hc hn hu hp hop => ?_⟩
  · exact ⟨_, (exec_commandFetch hd hk hc hn).trans (congrArg Host.Outcome.next (if_neg (Nat.ne_of_lt hf))), fetchRing_spec hfree⟩
  · obtain ⟨hheld, hctx⟩ := fetchSmp_spec hu hp hop
    exact ⟨_, exec_commandFetch hd hk hc hn, hheld, _, hctx, rfl, rfl, rfl⟩

end Sys2Proof.Proofs
end

section
/-!
Bytes: what a number written into a string of bytes reads.
-/
namespace Sys2Proof.Proofs
open Sys2Proof Sys2Proof.Machine Sys2Proof.Laws
set_option Elab.async false

@[simp] theorem length_le (n v : Nat) : (le n v).length = n := by
  induction n generalizing v with
  | zero => rfl
  | succ n ih => simp only [le, List.length_cons, ih]

theorem leNat_le (n v : Nat) : leNat (le n v) = v % 256 ^ n := by
  induction n generalizing v with
  | zero => simp [le, leNat, Nat.mod_one]
  | succ n ih => exact (congrArg (fun x => v % 256 + 256 * x) (ih _)).trans ((Nat.mod_mul ..).symm.trans (by rw [Nat.pow_succ']))

@[simp] theorem length_sub (b : Bytes) (o n : Nat) : (sub b o n).length = n := by
  simp only [sub, List.length_append, List.length_take, List.length_replicate]
  omega

@[simp] theorem length_zeros (n : Nat) : (zeros n).length = n := List.length_replicate

theorem sub_append_left {a b : Bytes} {o n : Nat} (h : o + n ≤ a.length) : sub (a ++ b) o n = sub a o n := by
  have hlen : n ≤ (a.drop o).length := by rw [List.length_drop]; omega
  have hlen' : n ≤ (a.drop o ++ b).length := by rw [List.length_append]; omega
  rw [sub, sub, List.drop_append_of_le_length (by omega), List.take_append_of_le_length hlen, Nat.sub_eq_zero_of_le hlen,
    Nat.sub_eq_zero_of_le hlen']

theorem sub_append_right {a b : Bytes} {o n : Nat} (h : a.length ≤ o) : sub (a ++ b) o n = sub b (o - a.length) n := by
  rw [sub, sub, List.drop_append, List.drop_of_length_le h, List.nil_append]

/-- A number that lies in the first of two strings. -/
theorem num_append_left {a b : Bytes} {o n : Nat} (h : o + n ≤ a.length) : num (a ++ b) o n = num a o n :=
  congrArg leNat (sub_append_left h)

/-- A number that lies behind the first of two strings. -/
theorem num_append_right {a b : Bytes} {o n : Nat} (h : a.length ≤ o) : num (a ++ b) o n = num b (o - a.length) n :=
  congrArg leNat (sub_append_right h)

theorem sub_self {b : Bytes} {n : Nat} (h : b.length = n) : sub b 0 n = b := by
  rw [sub, List.drop_zero, List.take_of_length_le (Nat.le_of_eq h), h, Nat.sub_self]
  exact List.append_nil b

/-- A number written as bytes reads as it was, cut to the bytes. -/
theorem num_le (n v : Nat) : num (le n v) 0 n = v % 256 ^ n := by
  rw [num, sub_self (length_le n v), leNat_le]

end Sys2Proof.Proofs
end

section
/-!
The reply to a ring (R332), and the sideband port (R359, R360).
-/
namespace Sys2Proof.Proofs
open Sys2Proof Sys2Proof.Machine Sys2Proof.Laws
set_option Elab.async false

/-- A wider mask admits what a narrower one does. -/
theorem Moves.mono {m m' : Nat} {s t : State} (h : Moves m s t) (hm : Within m m') : Moves m' s t := by
  have hbit {n : Nat} (hn : m'.testBit n = false) : m.testBit n = false := by
    by_contra hset
    rw [testBit_of_sub hm (by simpa using hset)] at hn
    cases hn
  exact ⟨h.queue, h.sent, h.count, h.table, h.stamp, h.fuses, fun f i j hf => h.reg f i j (hbit hf),
    fun p hp => h.part p (hbit hp)⟩

/-! ### What a cause leaves of the queue -/

/-- Raising a vector adds at most its message behind what waits. -/
theorem raiseVecWith_hostQ {asleep : State → State} {f v : Nat} {s : State} (h : ∀ z : State, z.hostQ <+: (asleep z).hostQ) :
    s.hostQ <+: (raiseVecWith asleep f v s).hostQ := by
  have hpend (z : State) : (pendVec f v z).hostQ = z.hostQ :=
    (moves_pendVec (.refl _ z) (within_self _)).part .hostQ (by decide +kernel)
  unfold raiseVecWith
  split_ifs
  · exact List.prefix_rfl
  · exact List.prefix_rfl
  · exact List.prefix_rfl
  · exact when_cases (P := fun z => s.hostQ <+: (z.wr .FI_WAITING 1 f v).hostQ) List.prefix_rfl List.prefix_rfl
  · rw [hpend]
  · exact List.prefix_append ..
  · refine when_cases (P := fun z => s.hostQ <+: z.hostQ) (by rw [hpend]) ?_
    have := h (pendVec f v s)
    rwa [hpend] at this

theorem raiseCauseWith_hostQ {asleep : State → State} {f : Nat} {c : Cause} {s : State}
    (h : ∀ z : State, z.hostQ <+: (asleep z).hostQ) : s.hostQ <+: (raiseCauseWith asleep f c s).hostQ := by
  unfold raiseCauseWith
  split_ifs
  · exact when_cases (P := fun z => s.hostQ <+: z.hostQ) List.prefix_rfl (raiseVecWith_hostQ (s := s.wr c.fld 1 f) h)
  · exact when_cases (P := fun z => s.hostQ <+: z.hostQ) List.prefix_rfl List.prefix_rfl
  · exact List.prefix_rfl

theorem pmeSignal_hostQ (p : Nat) (s : State) : s.hostQ <+: (pmeSignal p s).hostQ := by
  have hmsg (z : State) : (sendMsg p .pmPme z).hostQ = z.hostQ :=
    (moves_sendMsg (.refl _ z) (within_self _)).part .hostQ (by decide +kernel)
  unfold pmeSignal
  extract_lets h s1 s2
  split_ifs
  · exact raiseCauseWith_hostQ (s := s2.wr .HL_PME_WAKE 1 h) fun z => List.prefix_rfl
  · rw [hmsg]
    exact List.prefix_rfl
  · exact List.prefix_rfl

/-- A cause adds at most a message behind what waits. -/
theorem raiseCause_hostQ (f : Nat) (c : Cause) (s : State) : s.hostQ <+: (raiseCause f c s).hostQ :=
  raiseCauseWith_hostQ (pmeSignal_hostQ _)

/-! ### The reply to a ring -/

/-- A reply is counted before it is written. -/
def countReply (r : CmdReq) (op status : Nat) (s : State) : State :=
  traceNone 0x0801 (op % 65536 + status * 65536 + issuerArg r.iss)
    (when (status == 0x14) (fun s => s.inc .KP_CANCEL_CNT) (when (status != 0) (fun s => s.inc .KP_FAIL_CNT) (s.inc .KP_CMD_CNT)))

theorem countReply_spec (r : CmdReq) (op status : Nat) (s : State) :
    (countReply r op status s).rd .KP_CMD_CNT = (s.rd .KP_CMD_CNT + 1) % 2 ^ 64 ∧
    (status ≠ 0 → (countReply r op status s).rd .KP_FAIL_CNT = (s.rd .KP_FAIL_CNT + 1) % 2 ^ 64) ∧
    Moves (foot_traceNone ||| fms [.KP_CMD_CNT, .KP_FAIL_CNT, .KP_CANCEL_CNT]) s (countReply r op status s) := by
  have htrace (f : Fld) (z : State) (hf : foot_traceNone.testBit (fbit f) = false) :
      (traceNone 0x0801 (op % 65536 + status * 65536 + issuerArg r.iss) z).rd f = z.rd f :=
    (moves_traceNone (.refl _ z) (within_self _)).reg f 0 0 hf
  have hcancel (f : Fld) (z : State) (hf : f ≠ .KP_CANCEL_CNT) :
      (when (status == 0x14) (fun s => s.inc .KP_CANCEL_CNT) z).rd f = z.rd f :=
    when_cases (P := fun y => y.rd f = z.rd f) rfl (rd_wr_ne _ fun h => hf h.1)
  refine ⟨?_, fun h => ?_, ?_⟩
  · rw [countReply, htrace _ _ (by decide +kernel), hcancel _ _ (by decide)]
    refine (when_cases (P := fun y => y.rd .KP_CMD_CNT = (s.inc .KP_CMD_CNT).rd .KP_CMD_CNT) rfl (rd_wr_ne _ (by simp))).trans ?_
    exact rd_wr ..
  · rw [countReply, htrace _ _ (by decide +kernel), hcancel _ _ (by decide), when_of _ _ (by simp [h])]
    refine (rd_wr ..).trans ?_
    rw [State.inc, State.add, rd_wr_ne _ (by simp)]
    rfl
  · exact moves_traceNone (moves_when (moves_when (moves_inc (.refl _ s) (by unfold Within; decide +kernel))
      fun z hz => moves_inc hz (by unfold Within; decide +kernel)) fun z hz => moves_inc hz (by unfold Within; decide +kernel))
      (by unfold Within; decide +kernel)

/-- The two writes of a reply with data: the data at 16 bytes into the slot, and the header at its start. -/
structure RingReply (fn : Fn) (r : CmdReq) (op status idx slot : Nat) (data : Bytes) (a b : HReq) : Prop where
  dataFn : a.fn = fn
  dataKind : a.kind = .write
  dataAddr : a.addr = (slot + 16) % 2 ^ 64
  dataBytes : a.data = data
  hdrFn : b.fn = fn
  hdrKind : b.kind = .write
  hdrAddr : b.addr = slot % 2 ^ 64
  hdrOrder : b.ro = false
  hdrLen : b.data.length = 16
  opcode : num b.data 0 2 = op % 65536
  tag : num b.data 2 2 = r.tag % 65536
  status : num b.data 4 1 = status % 256
  phase : num b.data 5 1 = 128 * (1 - idx / 64 % 2)
  len : num b.data 6 2 = data.length % 65536

/-- The fields of a reply header. -/
theorem replyHeader_spec (s : State) (r : CmdReq) (op status phase len : Nat) (hp : phase ≤ 1) :
    (replyHeader s r op status false phase len).length = 16 ∧
    num (replyHeader s r op status false phase len) 0 2 = op % 65536 ∧
    num (replyHeader s r op status false phase len) 2 2 = r.tag % 65536 ∧
    num (replyHeader s r op status false phase len) 4 1 = status % 256 ∧
    num (replyHeader s r op status false phase len) 5 1 = 128 * phase ∧
    num (replyHeader s r op status false phase len) 6 2 = len % 65536 := by
  have hfit : 128 * phase % 256 = 128 * phase := by omega
  refine ⟨by simp [replyHeader], ?_, ?_, ?_, ?_, ?_⟩ <;>
    simp [replyHeader, num_append_left, num_append_right, num_le, hfit]

/-- The writes of a reply with data into slot RPL_PI mod 64 of ring `f`, at which state `z` stands. -/
def ringWrites (r : CmdReq) (op status : Nat) (data : Bytes) (f : Nat) (z : State) : State :=
  let idx := z.rd .KR_RPL_PI f
  let a := z.rd .KR_RPL_BASE_LO f * 4096 + z.rd .KR_RPL_BASE_HI f * 2 ^ 32 + idx % 64 * 4096
  let s := enqueueHost (hreq z f .write (a + 16) data.length data (.reply false) 256) z
  enqueueHost (hreq s f .write a 16 (replyHeader z r op status false (1 - idx / 64 % 2) data.length) (.reply true) 256) s

/-- A reply with data goes to a ring that is on under the same enabling. -/
theorem sendReply_ring {fn : Fn} {r : CmdReq} {op status : Nat} {data : Bytes} {s : State} (hr : r.iss = .fn fn)
    (hd : data ≠ []) (hen : s.on .KR_EN (fnIdx fn) = true) (htl : s.tlOn (hlTiller fn.hl) = true) :
    sendReply r op status false data (ringGen s r.iss) s = raiseCause (fnIdx fn) .reply
      ((ringWrites r op status data (fnIdx fn) (advance s)).wr .KR_RPL_PI ((advance s).rd .KR_RPL_PI (fnIdx fn) + 1) (fnIdx fn)) := by
  have hadv : Moves foot_advance s (advance s) := moves_advance (.refl _ s) (within_self _)
  have hkeeper : (advance s).keeper = s.keeper := hadv.part .keeper (by decide +kernel)
  have hen' : (advance s).on .KR_EN (fnIdx fn) = true := by
    rw [State.on, hadv.reg .KR_EN _ _ (by decide +kernel)]
    exact hen
  have hgen : ringGen (advance s) (.fn fn) = ringGen s (.fn fn) := by rw [ringGen, hkeeper, ringGen]
  have htl' : (advance s).tlOn (hlTiller (fnHl (fnIdx fn))) = true := by
    rw [fnHl_fnIdx, State.tlOn, State.domOn, hadv.reg .PW_STATE _ _ (by decide +kernel)]
    exact htl
  have hdata : (!data.isEmpty) = true := by simpa using hd
  unfold sendReply
  rw [hr]
  dsimp only
  rw [if_pos (by rw [hen', hgen, htl', beq_self_eq_true]; rfl), when_of _ _ hdata]
  rfl

theorem ringWrites_spec {fn : Fn} {r : CmdReq} {op status : Nat} {data : Bytes} {z : State} :
    ∃ a b, (ringWrites r op status data (fnIdx fn) z).hostQ = z.hostQ ++ [a, b] ∧
      RingReply fn r op status (z.rd .KR_RPL_PI (fnIdx fn)) (z.rd .KR_RPL_BASE_LO (fnIdx fn) * 4096 +
        z.rd .KR_RPL_BASE_HI (fnIdx fn) * 2 ^ 32 + z.rd .KR_RPL_PI (fnIdx fn) % 64 * 4096) data a b := by
  obtain ⟨hlen, hop, htag, hst, hphase, hdlen⟩ := replyHeader_spec z r op status (1 - z.rd .KR_RPL_PI (fnIdx fn) / 64 % 2)
    data.length (by omega)
  refine ⟨_, _, List.append_assoc .., ⟨fnOf_fnIdx fn, rfl, rfl, rfl, fnOf_fnIdx fn, rfl, rfl, rfl, hlen, hop, htag, hst, hphase, hdlen⟩⟩

/-- What follows the reply of a ring's command: its context, its slot and its count are released. -/
theorem finishCore_ring {fn : Fn} {r : CmdReq} {op status gen : Nat} {data : Bytes} {s : State} (hr : r.iss = .fn fn)
    (hd : data ≠ []) : Moves (foot_freeCtx ||| fms [.KR_FAIL_CNT, .KR_IN_FLIGHT])
      (sendReply r op status false data gen (countReply r op status s)) (finishCore r op status data gen s) := by
  have hsend : (status = 0 && data.isEmpty && !r.ackReq) = false := by
    have : data.isEmpty = false := by simpa using hd
    simp [this]
  have hfree : Moves (foot_freeCtx ||| fms [.KR_FAIL_CNT, .KR_IN_FLIGHT])
      (sendReply r op status false data gen (countReply r op status s))
      (freeCtx r op (sendReply r op status false data gen (countReply r op status s))) :=
    moves_freeCtx (.refl _ _) (by unfold Within; decide +kernel)
  unfold finishCore
  dsimp only
  rw [if_neg (by rw [hsend]; decide)]
  split
  · exact moves_when hfree fun z hz => moves_when (moves_dec hz (by unfold Within; decide +kernel))
      fun y hy => moves_inc hy (by unfold Within; decide +kernel)
  · rename_i hsmp
    rw [hr] at hsmp
    cases hsmp

/-- Settles O18: the reply is counted, written by `ringWrites`, and what follows leaves both. -/
theorem replyWritten : Obligations.ReplyWritten := by
  intro fn r op status data s hr hd hen htl hdrain hu f slot t
  have ht : t = finishCore r op status data (ringGen s r.iss) s := finishGen_eq hdrain hu
  obtain ⟨hcmd, hfail, hcount⟩ := countReply_spec r op status s
  have hadv : Moves (foot_traceNone ||| fms [.KP_CMD_CNT, .KP_FAIL_CNT, .KP_CANCEL_CNT] ||| foot_advance) s
      (advance (countReply r op status s)) :=
    moves_advance (Moves.mono hcount (by unfold Within; decide +kernel)) (by unfold Within; decide +kernel)
  have hrd {g : Fld} (hg : (foot_traceNone ||| fms [.KP_CMD_CNT, .KP_FAIL_CNT, .KP_CANCEL_CNT] ||| foot_advance).testBit (fbit g) = false) :
      (advance (countReply r op status s)).rd g (fnIdx fn) = s.rd g (fnIdx fn) := hadv.reg g _ _ hg
  have hgen : ringGen s r.iss = ringGen (countReply r op status s) r.iss := by
    rw [ringGen, ringGen, hcount.part .keeper (by decide +kernel)]
  have hen' : (countReply r op status s).on .KR_EN (fnIdx fn) = true := by
    rw [State.on, hcount.reg .KR_EN _ _ (by decide +kernel)]
    exact hen
  have htl' : (countReply r op status s).tlOn (hlTiller fn.hl) = true := by
    rw [State.tlOn, State.domOn, hcount.reg .PW_STATE _ _ (by decide +kernel)]
    exact htl
  have hend := @finishCore_ring fn r op status (ringGen s r.iss) data s hr hd
  have hcause (z : State) {g : Fld} {i : Nat} (hg : foot_raiseCause.testBit (fbit g) = false) :
      (raiseCause (fnIdx fn) .reply z).rd g i = z.rd g i := (moves_raiseCause (.refl _ z) (within_self _)).reg _ _ _ hg
  have hsend := sendReply_ring (op := op) (status := status) hr hd hen' htl'
  rw [← hgen] at hsend
  obtain ⟨a, b, hq, hab⟩ := @ringWrites_spec fn r op status data (advance (countReply r op status s))
  obtain ⟨rest, hrest⟩ := raiseCause_hostQ (fnIdx fn) .reply ((ringWrites r op status data (fnIdx fn)
    (advance (countReply r op status s))).wr .KR_RPL_PI ((advance (countReply r op status s)).rd .KR_RPL_PI (fnIdx fn) + 1) (fnIdx fn))
  have hcnt {g : Fld} (hg : (foot_freeCtx ||| fms [.KR_FAIL_CNT, .KR_IN_FLIGHT]).testBit (fbit g) = false)
      (hg' : foot_sendReply.testBit (fbit g) = false) : t.rd g = (countReply r op status s).rd g := by
    rw [ht, hend.reg g _ _ hg]
    exact (moves_sendReply (.refl _ _) (within_self _)).reg g _ _ hg'
  rw [hrd (by decide +kernel), hrd (by decide +kernel), hrd (by decide +kernel)] at hab
  refine ⟨?_, (hcnt (by decide +kernel) (by decide +kernel)).trans hcmd,
    fun h => (hcnt (by decide +kernel) (by decide +kernel)).trans (hfail h), a, b, rest, ?_,
    hab.dataFn, hab.dataKind, hab.dataAddr, hab.dataBytes, hab.hdrFn, hab.hdrKind, hab.hdrAddr, hab.hdrOrder, hab.hdrLen,
    hab.opcode, hab.tag, hab.status, hab.phase, hab.len⟩
  · rw [ht, hend.reg .KR_RPL_PI _ _ (by decide +kernel), hsend, hcause _ (by decide +kernel), hrd (by decide +kernel)]
    exact rd_wr ..
  · rw [ht, hend.part .hostQ (by decide +kernel), hsend, ← hrest]
    change (ringWrites r op status data (fnIdx fn) (advance (countReply r op status s))).hostQ ++ rest = _
    rw [hq, hadv.part .hostQ (by decide +kernel), List.append_assoc]
    rfl

end Sys2Proof.Proofs
end

section
/-!
The sideband management port (R359, R360).
-/
namespace Sys2Proof.Proofs
open Sys2Proof Sys2Proof.Machine Sys2Proof.Laws
set_option Elab.async false

theorem testBit_setBit_self (v n : Nat) : (setBit v n).testBit n = true := by
  simp [setBit]

/-! ### A frame written -/

/-- A discarded frame sets its error bit and is counted, and takes no place. -/
theorem smpDiscard_spec (bit : Nat) (cnt : Fld) (s : State) : (smpDiscard bit cnt s).keeper.smpFlags.testBit bit = true ∧
    (smpDiscard bit cnt s).keeper.smpCmds = s.keeper.smpCmds ∧
    (smpDiscard bit cnt s).rd cnt = (s.rd cnt + 1) % 2 ^ cnt.width :=
  ⟨testBit_setBit_self _ _, rfl, rd_wr ..⟩

section
variable {len : Nat} {p : Bytes} {crc : Nat} {s : State} (hrun : s.aonRuns = true)
include hrun

theorem exec_smpWrite_frameErr (h : len < 32 ∨ 4096 < len ∨ len < 32 + num p 4 2) :
    exec (.smpWrite len p crc) s = .next (smpDiscard 3 .CT_SMP_FRAME s) := by
  have hbad : (decide (len < 32) || decide (4096 < len) || decide (len < 32 + num p 4 2) || decide (p.length ≠ len)) = true := by
    rcases h with h | h | h <;> simp [h]
  change execSmpWrite len p crc s = _
  simp only [execSmpWrite, hrun, Bool.not_true, Bool.false_eq_true, if_false, hbad, if_true]

variable (hlo : 32 ≤ len) (hhi : len ≤ 4096) (hfit : 32 + num p 4 2 ≤ len) (hlen : p.length = len)
include hlo hhi hfit hlen

/-- A frame of a good length is checked for its CRC, then for the room for it. -/
theorem exec_smpWrite_framed : exec (.smpWrite len p crc) s = .next (
    if crc16 (le 2 len ++ p) ≠ crc then smpDiscard 2 .CT_SMP_CRC s
    else if 8 ≤ s.keeper.smpCmds.length then smpDiscard 4 .CT_SMP_OVERFLOW s
    else
      let t := (s.modKeeper (fun k => { k with smpCmds := k.smpCmds ++ [p] })).inc .CT_SMP_CMD
      if opcodes.contains (num p 0 2) then t
      else if !t.domOn dKeep then finish (headerReq .smp p) (num p 0 2) 0x0B [] t
      else if !keeperUp t || draining t then finishBusy (headerReq .smp p) (num p 0 2) t
      else t) := by
  have hgood : (decide (len < 32) || decide (4096 < len) || decide (len < 32 + num p 4 2) || decide (p.length ≠ len)) = false := by
    simp [Nat.not_lt.2 hlo, Nat.not_lt.2 hhi, Nat.not_lt.2 hfit, hlen]
  change execSmpWrite len p crc s = _
  simp only [execSmpWrite, hrun, Bool.not_true, Bool.false_eq_true, if_false, hgood]

theorem exec_smpWrite_taken (hcrc : crc16 (le 2 len ++ p) = crc) (hroom : s.keeper.smpCmds.length < 8)
    (hop : num p 0 2 ∈ opcodes) : exec (.smpWrite len p crc) s =
      .next ((s.modKeeper (fun k => { k with smpCmds := k.smpCmds ++ [p] })).inc .CT_SMP_CMD) := by
  rw [exec_smpWrite_framed hrun hlo hhi hfit hlen, if_neg (not_not.2 hcrc), if_neg (Nat.not_le.2 hroom)]
  dsimp only
  rw [if_pos (List.contains_iff_mem.2 hop)]

end

/-! ### A reply read -/

/-- The reply at the head of the queue is clocked out and leaves it, one that waits for its place follows, and the last one releases
the interrupt pin. -/
def smpTake (p : Bytes) (rest : List Bytes) (s : State) : State :=
  let s := emit (.smp (0 :: smpFrame p)) (s.modKeeper (fun k => { k with
    smpReplies := rest ++ k.smpLate.take 1, smpLate := k.smpLate.drop 1 }))
  when s.keeper.smpReplies.isEmpty (emit (.pin .smpIrqN true)) s

theorem exec_smpRead {p : Bytes} {rest : List Bytes} {s : State} (hrun : s.aonRuns = true)
    (hq : s.keeper.smpReplies = p :: rest) :
    exec .smpRead s = .next (when (keeperUp (smpTake p rest s)) (answerUnknowns 16) (smpTake p rest s)) := by
  refine congrArg Host.Outcome.next ((when_of _ s hrun).trans ?_)
  rw [hq]
  rfl

theorem smpTake_keeper (p : Bytes) (rest : List Bytes) (s : State) : (smpTake p rest s).keeper =
    { s.keeper with smpReplies := rest ++ s.keeper.smpLate.take 1, smpLate := s.keeper.smpLate.drop 1 } := by
  unfold smpTake
  exact when_cases (P := fun z => z.keeper =
    { s.keeper with smpReplies := rest ++ s.keeper.smpLate.take 1, smpLate := s.keeper.smpLate.drop 1 }) rfl rfl

/-- The frame leaves, and the pin goes high where no reply is left. -/
theorem smpTake_out (p : Bytes) (rest : List Bytes) (s : State) : Out.smp (0 :: smpFrame p) ∈ (smpTake p rest s).out ∧
    (rest = [] → s.keeper.smpLate = [] → Out.pin .smpIrqN true ∈ (smpTake p rest s).out) := by
  unfold smpTake
  refine ⟨when_cases (P := fun z => Out.smp (0 :: smpFrame p) ∈ z.out) (by simp [emit]) (by simp [emit]), fun hrest hlate => ?_⟩
  rw [when_of _ _ (by simp [emit, State.modKeeper, hrest, hlate])]
  simp [emit]

theorem exec_smpRead_empty {s : State} (hrun : s.aonRuns = true) (hq : s.keeper.smpReplies = []) :
    exec .smpRead s = .next (emit (.smp (0 :: smpFrame [])) s) := by
  refine congrArg Host.Outcome.next ((when_of _ s hrun).trans ?_)
  rw [hq]

/-- Settles O20: a frame is checked for length, CRC and room in turn, and a read gives the head of the reply queue. -/
theorem sidebandPort : Obligations.SidebandPort := by
  refine ⟨fun len p crc s hrun => ⟨fun h => ?_, fun hlo hhi hfit hlen hcrc => ?_, fun hlo hhi hfit hlen hcrc hfull => ?_,
    fun hlo hhi hfit hlen hcrc hroom hop => ⟨_, exec_smpWrite_taken hrun hlo hhi hfit hlen hcrc hroom hop, rfl, rd_wr ..⟩⟩,
    fun p rest s hrun hq => ?_, fun s hrun hq => ⟨_, exec_smpRead_empty hrun hq, rfl⟩,
    fun s hrun => ⟨_, congrArg Host.Outcome.next (when_of _ s hrun), rfl, rfl⟩, fun op s => by cases op <;> rfl⟩
  · exact ⟨_, exec_smpWrite_frameErr hrun h, smpDiscard_spec 3 .CT_SMP_FRAME s⟩
  · exact ⟨_, (exec_smpWrite_framed hrun hlo hhi hfit hlen).trans (congrArg Host.Outcome.next (if_pos hcrc)),
      smpDiscard_spec 2 .CT_SMP_CRC s⟩
  · obtain ⟨hflag, hcmds, -⟩ := smpDiscard_spec 4 .CT_SMP_OVERFLOW s
    exact ⟨_, (exec_smpWrite_framed hrun hlo hhi hfit hlen).trans (congrArg Host.Outcome.next
      ((if_neg (not_not.2 hcrc)).trans (if_pos hfull))), hflag, hcmds⟩
  · obtain ⟨hframe, hpin⟩ := smpTake_out p rest s
    have hsent : (smpTake p rest s).out <+: (when (keeperUp (smpTake p rest s)) (answerUnknowns 16) (smpTake p rest s)).out :=
      when_cases (P := fun z => (smpTake p rest s).out <+: z.out) List.prefix_rfl
        (moves_answerUnknowns (.refl _ _) (within_self _)).sent
    refine ⟨_, exec_smpRead hrun hq, hsent.subset hframe, fun hrest hlate => hsent.subset (hpin hrest hlate), fun hu => ?_⟩
    have hkeep : (when (keeperUp (smpTake p rest s)) (answerUnknowns 16) (smpTake p rest s)).keeper = (smpTake p rest s).keeper := by
      refine when_cases (P := fun z => z.keeper = (smpTake p rest s).keeper) rfl ?_
      rw [answerUnknowns_of_known]
      rw [smpTake_keeper]
      exact hu
    rw [hkeep, smpTake_keeper]
    exact ⟨rfl, rfl⟩

end Sys2Proof.Proofs
end

section
/-!
The window commands and SHEAF_SET (R98, R99, R352, R353): what each writes in its entry.
-/
namespace Sys2Proof.Proofs
open Sys2Proof Sys2Proof.Machine Sys2Proof.Laws
set_option Elab.async false

/-! ### Registers of a block -/

/-- What is reset of a block reads its reset values. -/
theorem rd_resetBlk (s : State) {b : Blk} {f : Fld} {i : Nat} (j : Nat) (hb : f.blk = b) :
    (s.resetBlk b i).rd f i j = f.reset i j :=
  rd_resetRegs s _ (by simp [hb])

/-- The rest of the block reads as before. -/
theorem rd_resetBlk_ne (s : State) {b : Blk} {f : Fld} {i k : Nat} (j : Nat) (hk : k ≠ i) :
    (s.resetBlk b i).rd f k j = s.rd f k j :=
  rd_resetRegs_keep s _ (by simp [hk])

/-! ### The entries -/

/-- The counts of entries in use and the directories are all that moves beside an entry. -/
theorem entryChange_rd {on : State → Nat → Bool} {links : State → Nat → List Nat} {o o' : Option Nat} {i : Nat} {s u : State}
    {f : Fld} (k j : Nat) (h : (foot_showUsed ||| foot_entryChange).testBit (fbit f) = false) :
    (entryChange on links i s (showUsed o (showUsed o' u))).rd f k j = u.rd f k j :=
  (moves_entryChange (moves_showUsed (moves_showUsed (.refl (foot_showUsed ||| foot_entryChange) u)
    (by unfold Within; decide +kernel)) (by unfold Within; decide +kernel)) (by unfold Within; decide +kernel)).reg f k j h

/-- What OUTWIN_SET leaves in the table of entries: entry `i` has the image, or is cleared by SIZE 0, and the others are
as they were. -/
structure OutEntry (w : OutWin) (i : Nat) (s u : State) : Prop where
  sizeLo : u.rd .OW_SIZE_LO i = w.size / 4096 % 2 ^ 20
  sizeHi : u.rd .OW_SIZE_HI i = w.size / 2 ^ 32 % 2 ^ 17
  link : u.rd .OW_LINK i = if w.size = 0 then 0 else w.link % 2 ^ 7
  cls : u.rd .OW_CLASS i = if w.size = 0 then 0 else w.cls % 2 ^ 2
  tnid : u.rd .OW_TNID i = if w.size = 0 then 0 else w.tnid % 2 ^ 8
  localLo : u.rd .OW_LOCAL_BASE_LO i = if w.size = 0 then 0 else w.localBase / 4096 % 2 ^ 20
  hostLo : u.rd .OW_HOST_BASE_LO i = if w.size = 0 then 0 else w.hostBase / 4096 % 2 ^ 20
  hostHi : u.rd .OW_HOST_BASE_HI i = if w.size = 0 then 0 else w.hostBase / 2 ^ 32 % 2 ^ 32
  others : ∀ k, k ≠ i → u.rd .OW_SIZE_LO k = s.rd .OW_SIZE_LO k ∧ u.rd .OW_HOST_BASE_LO k = s.rd .OW_HOST_BASE_LO k

theorem writeOut_entry (w : OutWin) (i : Nat) (s : State) :
    ∃ o o' u, writeOut w i s = showUsed o (showUsed o' u) ∧ OutEntry w i s u := by
  unfold writeOut
  extract_lets old was s1 c s2
  refine ⟨_, _, s2, rfl, ?_⟩
  have hreset {f : Fld} (h : f.blk = .outwin) : s1.rd f i 0 = f.reset i 0 := rd_resetBlk s 0 h
  have hother {f : Fld} {k : Nat} (h : k ≠ i) : s1.rd f k 0 = s.rd f k 0 := rd_resetBlk_ne s 0 h
  by_cases hz : w.size = 0
  · have hs2 : s2 = s1 := if_pos hz
    rw [hs2]
    constructor
    case others => exact fun k hk => ⟨hother hk, hother hk⟩
    all_goals
      rw [hreset rfl, hz]
      rfl
  · have hs2 : s2 = _ := if_neg hz
    have hlate {f : Fld} (k : Nat) (h : f ≠ .CT_OW_LATE) : s2.rd f k 0 = c.rd f k 0 := by
      rw [hs2]
      exact when_cases (P := fun z => z.rd f k 0 = c.rd f k 0) rfl (rd_wr_ne c (fun e => h e.1))
    have hw : Fld.OW_SIZE_LO.width = 20 ∧ Fld.OW_SIZE_HI.width = 17 ∧ Fld.OW_LINK.width = 7 ∧ Fld.OW_CLASS.width = 2 ∧
      Fld.OW_TNID.width = 8 ∧ Fld.OW_LOCAL_BASE_LO.width = 20 ∧ Fld.OW_HOST_BASE_LO.width = 20 ∧
      Fld.OW_HOST_BASE_HI.width = 32 := by and_intros <;> rfl
    constructor
    case others =>
      intro k hk
      rw [hlate k (by decide), hlate k (by decide), ← hother hk, ← hother hk]
      simp [c, rd_wr_ite, hk]
    all_goals
      rw [hlate i (by decide)]
      simp [c, rd_wr_ite, hz, hw]

/-- What INWIN_SET leaves in the table of entries. -/
structure InEntry (w : InWin) (i : Nat) (s u : State) : Prop where
  sizeLo : u.rd .IW_SIZE_LO i = w.size / 4096 % 2 ^ 20
  sizeHi : u.rd .IW_SIZE_HI i = w.size / 2 ^ 32 % 2 ^ 9
  link : u.rd .IW_LINK i = if w.size = 0 then 0 else w.link % 2 ^ 7
  func : u.rd .IW_FUNC i = if w.size = 0 then 0 else w.func % 2 ^ 9
  barLo : u.rd .IW_BAR_OFFSET_LO i = if w.size = 0 then 0 else w.barOffset / 4096 % 2 ^ 20
  localLo : u.rd .IW_LOCAL_BASE_LO i = if w.size = 0 then 0 else w.localBase / 4096 % 2 ^ 20
  others : ∀ k, k ≠ i → u.rd .IW_SIZE_LO k = s.rd .IW_SIZE_LO k ∧ u.rd .IW_LOCAL_BASE_LO k = s.rd .IW_LOCAL_BASE_LO k

theorem writeIn_entry (w : InWin) (i : Nat) (s : State) :
    ∃ o o' u, writeIn w i s = showUsed o (showUsed o' u) ∧ InEntry w i s u := by
  unfold writeIn
  extract_lets old s1 s2
  refine ⟨_, _, s2, rfl, ?_⟩
  have hreset {f : Fld} (h : f.blk = .inwin) : s1.rd f i 0 = f.reset i 0 := rd_resetBlk s 0 h
  have hother {f : Fld} {k : Nat} (h : k ≠ i) : s1.rd f k 0 = s.rd f k 0 := rd_resetBlk_ne s 0 h
  by_cases hz : w.size = 0
  · have hs2 : s2 = s1 := if_pos hz
    rw [hs2]
    constructor
    case others => exact fun k hk => ⟨hother hk, hother hk⟩
    all_goals
      rw [hreset rfl, hz]
      rfl
  · have hs2 : s2 = _ := if_neg hz
    have hw : Fld.IW_SIZE_LO.width = 20 ∧ Fld.IW_SIZE_HI.width = 9 ∧ Fld.IW_LINK.width = 7 ∧ Fld.IW_FUNC.width = 9 ∧
      Fld.IW_BAR_OFFSET_LO.width = 20 ∧ Fld.IW_LOCAL_BASE_LO.width = 20 := by and_intros <;> rfl
    rw [hs2]
    constructor
    case others =>
      intro k hk
      rw [← hother hk, ← hother hk]
      simp [rd_wr_ite, hk]
    all_goals simp [rd_wr_ite, hz, hw]

/-- What INTWIN_SET leaves in the table of entries. -/
structure IntEntry (w : IntWin) (i : Nat) (s u : State) : Prop where
  count : u.rd .NW_COUNT i = w.count % 2 ^ 8
  link : u.rd .NW_LINK i = if w.count = 0 then 0 else w.link % 2 ^ 7
  msgBase : u.rd .NW_MSG_BASE i = if w.count = 0 then 0 else w.msgBase % 2 ^ 16
  vecBase : u.rd .NW_VEC_BASE i = if w.count = 0 then 0 else w.vecBase % 2 ^ 7
  others : ∀ k, k ≠ i → u.rd .NW_COUNT k = s.rd .NW_COUNT k ∧ u.rd .NW_VEC_BASE k = s.rd .NW_VEC_BASE k

theorem writeInt_entry (w : IntWin) (i : Nat) (s : State) :
    ∃ o o' u, writeInt w i s = showUsed o (showUsed o' u) ∧ IntEntry w i s u := by
  unfold writeInt
  extract_lets old s1 s2
  refine ⟨_, _, s2, rfl, ?_⟩
  have hreset {f : Fld} (h : f.blk = .intwin) : s1.rd f i 0 = f.reset i 0 := rd_resetBlk s 0 h
  have hother {f : Fld} {k : Nat} (h : k ≠ i) : s1.rd f k 0 = s.rd f k 0 := rd_resetBlk_ne s 0 h
  by_cases hz : w.count = 0
  · have hs2 : s2 = s1 := if_pos hz
    rw [hs2]
    constructor
    case others => exact fun k hk => ⟨hother hk, hother hk⟩
    all_goals
      rw [hreset rfl, hz]
      rfl
  · have hs2 : s2 = _ := if_neg hz
    have hw : Fld.NW_COUNT.width = 8 ∧ Fld.NW_LINK.width = 7 ∧ Fld.NW_MSG_BASE.width = 16 ∧ Fld.NW_VEC_BASE.width = 7 := by
      and_intros <;> rfl
    rw [hs2]
    constructor
    case others =>
      intro k hk
      rw [← hother hk, ← hother hk]
      simp [rd_wr_ite, hk]
    all_goals simp [rd_wr_ite, hz, hw]

/-! ### The commands -/

/-- A window command that its checks let pass writes the entry that it names, or the lowest free one, and names it in the reply. -/
theorem winReq_cmd_served {q : WinReq} {r : CmdReq} {op plen i : Nat} {a : AtCmd} {sheaf : Bool} {put : Nat → State → State}
    {s : State} (hs : Served op (targetOf s r) ((q.cmd r op plen a sheaf put).priv s) r s) (hlen : r.plen = plen)
    (hi : q.index < q.pool ∨ q.index = 0xFFFF) (hr : q.ranges = true) (hd : (q.cmd r op plen a sheaf put).dark s = false)
    (hc : q.check s = 0) (he : q.entry s = some i) :
    runCmd (q.cmd r op plen a sheaf put) r s = finish r op 0 (le 2 i ++ le 2 0) (put i s) := by
  have hrun : runCmd (q.cmd r op plen a sheaf put) r s = (q.cmd r op plen a sheaf put).act s :=
    runCmd_served hs (beq_iff_eq.2 hlen) (Bool.and_eq_true_iff.2 ⟨decide_eq_true hi, hr⟩) hd hc rfl (fun h => Bool.noConfusion h)
  rw [hrun]
  simp only [WinReq.cmd, he]

/-- An outbound window of a tenant that the tenant's permissions keep from the link is denied (R98). -/
theorem outReq_denied_of_permits {index : Nat} {w : OutWin} {s : State} (hsh : w.sheaf = 0) (hpf : w.toPf = 0)
    (hp : permits s w.tnid w.link = false) : (outReq index w).denied s = true := by
  simp [outReq, hsh, hpf, tnDenies, hp]

/-! ### SHEAF_SET -/

/-- Writing a destination leaves the other destinations. -/
theorem putDest_tnid (i d : Nat) (x : SheafDest) (s : State) (k : Nat) :
    (putDest i d x s).rd .SH_TNID i k = if k = d then x.tnid % 2 ^ 8 else s.rd .SH_TNID i k := by
  have hw : Fld.SH_TNID.width = 8 := rfl
  simp [putDest, rd_wr_ite, hw]

/-- Each destination of an image is written in its place. -/
theorem each_putDest_tnid (i : Nat) (l : List SheafDest) (n : Nat) (s : State) (k : Nat) :
    (each (l.zipIdx n) (fun x s => putDest i x.2 x.1 s) s).rd .SH_TNID i k =
      if n ≤ k then ((l[k - n]?).map (fun x => x.tnid % 2 ^ 8)).getD (s.rd .SH_TNID i k) else s.rd .SH_TNID i k := by
  induction l generalizing n s with
  | nil => simp [each]
  | cons x l ih =>
    have hstep : each ((x :: l).zipIdx n) (fun x s => putDest i x.2 x.1 s) s =
        each (l.zipIdx (n + 1)) (fun x s => putDest i x.2 x.1 s) (putDest i n x s) := rfl
    rw [hstep, ih, putDest_tnid]
    by_cases hk : k = n
    · subst hk
      simp
    · by_cases hle : n + 1 ≤ k
      · have hsub : k - n = (k - (n + 1)) + 1 := by omega
        rw [if_neg hk, if_pos hle, if_pos (by omega), hsub, List.getElem?_cons_succ]
      · rw [if_neg hk, if_neg hle, if_neg (by omega)]

/-- What SHEAF_SET leaves in the registers of the sheaf. -/
structure SheafSet (img : SheafImg) (i : Nat) (u : State) : Prop where
  mode : u.rd .SH_MODE i = img.mode % 2 ^ 2
  count : u.rd .SH_DEST_COUNT i = (if img.mode = 0 then 0 else img.destCount) % 2 ^ 4
  window : u.rd .SH_WINDOW i = if img.mode = 0 then 0 else img.window % 2 ^ 11
  tnid : img.mode ≠ 0 → ∀ d x, (img.dests.take img.destCount)[d]? = some x → u.rd .SH_TNID i d = x.tnid % 2 ^ 8

theorem SheafSet.keep {m i : Nat} {img : SheafImg} {s u : State} (h : SheafSet img i s) (hu : Moves m s u)
    (hm : Within m (foot_showExcused ||| foot_showSheaf ||| foot_endEpisode ||| foot_dirChange)) : SheafSet img i u := by
  have hkeep {f : Fld} (j : Nat)
      (hf : (foot_showExcused ||| foot_showSheaf ||| foot_endEpisode ||| foot_dirChange).testBit (fbit f) = false) :
      u.rd f i j = s.rd f i j := by
    refine hu.reg f i j ?_
    by_contra hn
    exact Bool.noConfusion ((testBit_of_sub hm (Bool.not_eq_false _ ▸ hn)).symm.trans hf)
  exact ⟨(hkeep 0 (by decide +kernel)).trans h.mode, (hkeep 0 (by decide +kernel)).trans h.count,
    (hkeep 0 (by decide +kernel)).trans h.window, fun hz d x hx => (hkeep d (by decide +kernel)).trans (h.tnid hz d x hx)⟩

theorem putSheaf_sheafSet (i : Nat) (img : SheafImg) (s : State) : SheafSet img i (putSheaf i img s) := by
  refine SheafSet.keep ?_ (moves_dirChange (.refl _ (writeSheaf i img s)) (within_self _)) (by unfold Within; decide +kernel)
  unfold writeSheaf
  extract_lets wasLead n keys at_ had stays gone s1 s2 s3 s4 s5 s6
  have hkeep {f : Fld} (hf : foot_putDest.testBit (fbit f) = false) : s6.rd f i 0 = s5.rd f i 0 :=
    each_induct (P := fun z => z.rd f i 0 = s5.rd f i 0) _ rfl fun x t h =>
      ((moves_putDest (.refl _ t) (within_self _)).reg f i 0 hf).trans h
  have hw : Fld.SH_MODE.width = 2 ∧ Fld.SH_DEST_COUNT.width = 4 ∧ Fld.SH_WINDOW.width = 11 := ⟨rfl, rfl, rfl⟩
  have hs6 : SheafSet img i s6 := by
    refine ⟨(hkeep (by decide +kernel)).trans ?_, (hkeep (by decide +kernel)).trans ?_, (hkeep (by decide +kernel)).trans ?_,
      fun hz d x hx => ?_⟩
    · simp [s5, rd_wr_ite, hw]
    · simp [s5, rd_wr_ite, hw, n]
    · by_cases hz : img.mode = 0 <;> simp [s5, rd_wr_ite, hw, hz]
    · have hn : n = img.destCount := if_neg hz
      rw [← hn] at hx
      simpa [hx] using each_putDest_tnid i (img.dests.take n) 0 s5 d
  refine SheafSet.keep (SheafSet.keep ?_ (moves_showSheaf (.refl _ _) (within_self _)) (by unfold Within; decide +kernel))
    (moves_showExcused (.refl _ _) (within_self _)) (by unfold Within; decide +kernel)
  exact when_cases hs6 (each_induct _ hs6 fun d t h =>
    h.keep (moves_endEpisode (.refl _ _) (within_self _)) (by unfold Within; decide +kernel))

theorem exec_sheafSet {r : CmdReq} {index : Nat} {img : SheafImg} {s : State} (hs : Served 0x0304 (targetOf s r) (hasMgr s r.iss) r s)
    (hlen : r.plen = 264) (hp : (cmdSheaf r index img).params s = true) (hd : s.tlOn (index / 32) = true)
    (hc : sheafCheck index img s = 0) :
    exec (.sheafSet r index img) s = .next (finish r 0x0304 0 (le 2 index ++ le 2 0) (putSheaf index img s)) := by
  have hrun : runCmd (cmdSheaf r index img) r s = (cmdSheaf r index img).act s :=
    runCmd_served hs (beq_iff_eq.2 hlen) hp (by simp [cmdSheaf, hd]) hc rfl (fun h => Bool.noConfusion h)
  exact congrArg Host.Outcome.next hrun

/-- The checks of SHEAF_SET's operands bound the mode and the number of destinations. -/
theorem cmdSheaf_params {r : CmdReq} {index : Nat} {img : SheafImg} {s : State} (hp : (cmdSheaf r index img).params s = true) :
    img.mode < 4 ∧ (img.mode ≠ 0 → img.destCount ≤ 8) := by
  simp only [cmdSheaf, Bool.and_eq_true, Bool.or_eq_true, beq_iff_eq, decide_eq_true_eq] at hp
  omega

/-- Settles O23: the entries as `writeOut`, `writeIn` and `writeInt` leave them, the sheaf as `writeSheaf` does; a tenant
that may not use the link fails the check for DENIED. -/
theorem windowCommands : Obligations.WindowCommands := by
  refine ⟨fun r index i w s hs hlen hi hr hd hc he => ?_, fun r index i w s hs hlen hi hr hd hc he => ?_,
    fun r index i w s hs hlen hi hr hd hc he => ?_, fun r index img s hs hlen hp hd hc => ?_,
    fun r index w s hs hlen hi hr hd hsize hin hok hn hsh hpf hperm => ?_⟩
  · refine ⟨_, congrArg Host.Outcome.next (winReq_cmd_served hs hlen hi hr hd hc he), _, ?_, rfl⟩
    obtain ⟨o, o', u, hu, h⟩ := writeOut_entry w i s
    rw [putOut, hu]
    have hkeep {f : Fld} (k : Nat) (hf : (foot_showUsed ||| foot_entryChange).testBit (fbit f) = false) :
        (entryChange owOn owLinks i s (showUsed o (showUsed o' u))).rd f k 0 = u.rd f k 0 := entryChange_rd k 0 hf
    exact ⟨(hkeep _ (by decide +kernel)).trans h.sizeLo, (hkeep _ (by decide +kernel)).trans h.sizeHi,
      (hkeep _ (by decide +kernel)).trans h.link, (hkeep _ (by decide +kernel)).trans h.cls,
      (hkeep _ (by decide +kernel)).trans h.tnid, (hkeep _ (by decide +kernel)).trans h.localLo,
      (hkeep _ (by decide +kernel)).trans h.hostLo, (hkeep _ (by decide +kernel)).trans h.hostHi, fun k hk =>
      ⟨(hkeep _ (by decide +kernel)).trans (h.others k hk).1, (hkeep _ (by decide +kernel)).trans (h.others k hk).2⟩⟩
  · refine ⟨_, congrArg Host.Outcome.next (winReq_cmd_served hs hlen hi hr hd hc he), _, ?_, rfl⟩
    obtain ⟨o, o', u, hu, h⟩ := writeIn_entry w i s
    rw [putIn, hu]
    have hkeep {f : Fld} (k : Nat) (hf : (foot_showUsed ||| foot_entryChange).testBit (fbit f) = false) :
        (entryChange iwOn (fun s i => [s.rd .IW_HL i]) i s (showUsed o (showUsed o' u))).rd f k 0 = u.rd f k 0 :=
      entryChange_rd k 0 hf
    exact ⟨(hkeep _ (by decide +kernel)).trans h.sizeLo, (hkeep _ (by decide +kernel)).trans h.sizeHi,
      (hkeep _ (by decide +kernel)).trans h.link, (hkeep _ (by decide +kernel)).trans h.func,
      (hkeep _ (by decide +kernel)).trans h.barLo, (hkeep _ (by decide +kernel)).trans h.localLo, fun k hk =>
      ⟨(hkeep _ (by decide +kernel)).trans (h.others k hk).1, (hkeep _ (by decide +kernel)).trans (h.others k hk).2⟩⟩
  · refine ⟨_, congrArg Host.Outcome.next (winReq_cmd_served hs hlen hi hr hd hc he), _, ?_, rfl⟩
    obtain ⟨o, o', u, hu, h⟩ := writeInt_entry w i s
    rw [putInt, hu]
    have hkeep {f : Fld} (k : Nat) (hf : (foot_showUsed ||| foot_entryChange).testBit (fbit f) = false) :
        (entryChange nwOn (fun s i => [nwLink s i]) i s (showUsed o (showUsed o' u))).rd f k 0 = u.rd f k 0 :=
      entryChange_rd k 0 hf
    exact ⟨(hkeep _ (by decide +kernel)).trans h.count, (hkeep _ (by decide +kernel)).trans h.link,
      (hkeep _ (by decide +kernel)).trans h.msgBase, (hkeep _ (by decide +kernel)).trans h.vecBase, fun k hk =>
      ⟨(hkeep _ (by decide +kernel)).trans (h.others k hk).1, (hkeep _ (by decide +kernel)).trans (h.others k hk).2⟩⟩
  · obtain ⟨hmode, hcount⟩ := cmdSheaf_params hp
    have h := putSheaf_sheafSet index img s
    refine ⟨_, exec_sheafSet hs hlen hp hd hc, _, ⟨h.mode.trans (Nat.mod_eq_of_lt hmode), h.count.trans ?_, h.window, h.tnid⟩, rfl⟩
    refine Nat.mod_eq_of_lt ?_
    split
    · decide
    · exact Nat.lt_of_le_of_lt (hcount ‹_›) (by decide)
  · have hsets : (outReq index w).clears = false := beq_eq_false_iff_ne.2 hsize
    exact outwinSet_denied hs hlen hi hr hd (winReq_check_of_denied hsets hin hok (by simp [outReq, hsh, hpf, hn])
      (by simp [outReq, hsh]) (outReq_denied_of_permits hsh hpf hperm))

end Sys2Proof.Proofs
end

section
/-!
Host ports and Weaseif links (R44, R354 to R357): HPORT_CONFIG and the WLINK commands.
-/
namespace Sys2Proof.Proofs
open Sys2Proof Sys2Proof.Machine Sys2Proof.Laws
set_option Elab.async false

/-! ### HPORT_CONFIG -/

theorem hportAct_store (port bifur clkmode speed : Nat) (s : State) :
    (hportAct port bifur clkmode speed s).store = { s.store with
      bifur := tset 0 s.store.bifur port bifur, clkmode := tset 0 s.store.clkmode port clkmode,
      speed := tset 6 s.store.speed port speed } := rfl

/-- What the next reset of PD_TLp applies is shown on the four links of the port; what stands stays. -/
theorem hportAct_rd {port bifur clkmode speed k : Nat} (s : State) (hb : bifur ≤ 2) (hc : clkmode ≤ 2) (hk : k < 4) :
    (hportAct port bifur clkmode speed s).rd .HL_BIFUR_NEXT (4 * port + k) = bifur ∧
      (hportAct port bifur clkmode speed s).rd .HL_CLKMODE_NEXT (4 * port + k) = clkmode ∧
      (hportAct port bifur clkmode speed s).rd .HL_BIFUR (4 * port + k) = s.rd .HL_BIFUR (4 * port + k) := by
  have hw : Fld.HL_BIFUR_NEXT.width = 2 ∧ Fld.HL_CLKMODE_NEXT.width = 2 := ⟨rfl, rfl⟩
  have hbm : bifur % 4 = bifur := Nat.mod_eq_of_lt (by omega)
  have hcm : clkmode % 4 = clkmode := Nat.mod_eq_of_lt (by omega)
  have hcases : k = 0 ∨ k = 1 ∨ k = 2 ∨ k = 3 := by omega
  unfold hportAct
  extract_lets s1
  have hs1 {f : Fld} (i : Nat) : s1.rd f i 0 = s.rd f i 0 := rfl
  rcases hcases with rfl | rfl | rfl | rfl <;> simp [each, rd_wr_ite, hw, hbm, hcm, hs1]

theorem exec_hportConfig {r : CmdReq} {port bifur clkmode speed : Nat} {s : State} (hs : Served 0x0401 (targetOf s r) (hasMgr s r.iss) r s)
    (hlen : r.plen = 4) (hp : port ≤ 7) (hb : bifur ≤ 2) (hc : clkmode ≤ 2) (h1 : 1 ≤ speed) (h6 : speed ≤ 6)
    (ha : ∀ h ∈ absentUnder port bifur, mgrLink s ≠ some h ∧ tget 0 s.store.totalVfs h = 0) :
    exec (.hportConfig r port bifur clkmode speed) s = .next (finish r 0x0401 0 [] (hportAct port bifur clkmode speed s)) := by
  have hnone : (absentUnder port bifur).any (fun h => mgrLink s == some h || tget 0 s.store.totalVfs h != 0) = false := by
    simpa using ha
  exact congrArg Host.Outcome.next (runCmd_served hs (beq_iff_eq.2 hlen) (by simp [hp, hb, hc, h1, h6]) rfl (if_neg (by simp [hnone])) rfl
    (fun h => Bool.noConfusion h))

/-! ### WLINK_CONFIG -/

/-- SELECT 0x21 picks the target rate and the replay limit. -/
theorem wlinkSel_rate_limit {p : WlinkParams} (h : p.select = 0x21) : wlinkSel p = [0, 5] := by
  rw [wlinkSel, h]
  decide

/-- A selected value is stored with PERSIST. -/
def wlinkStored (p : WlinkParams) (b v : Nat) (s : State) : State :=
  when (p.persist == 1) (fun s => s.modStore (fun c => { c with
    wlink := c.wlink.filter (fun e => !(e.1 == p.link && e.2.1 == b)) ++ [(p.link, b, v)] })) s

theorem wlinkPut_rate {p : WlinkParams} {s : State} (h : s.domOn (dWphy (wlTiller p.link)) = true) :
    wlinkPut p 0 s = setTargetRate p.link p.targetRate (wlinkStored p 0 p.targetRate s) := by
  have hdark : wlinkDark (wlinkStored p 0 p.targetRate s) p.link 0 = false := by
    have hdom : (wlinkStored p 0 p.targetRate s).domOn (dWphy (wlTiller p.link)) = true :=
      when_cases (P := fun z => z.domOn (dWphy (wlTiller p.link)) = true) h h
    simp [wlinkDark, hdom]
  rw [wlinkPut]
  exact (if_neg (ne_true_of_eq_false hdark)).trans rfl

theorem wlinkPut_limit {p : WlinkParams} {s : State} (h : s.tlOn (wlTiller p.link) = true) :
    wlinkPut p 5 s = (wlinkStored p 5 p.replayLimit s).wr .WL_REPLAY_LIMIT p.replayLimit p.link := by
  have hdark : wlinkDark (wlinkStored p 5 p.replayLimit s) p.link 5 = false := by
    have hdom : (wlinkStored p 5 p.replayLimit s).domOn (dTl (wlTiller p.link)) = true :=
      when_cases (P := fun z => z.domOn (dTl (wlTiller p.link)) = true) h h
    simp [wlinkDark, hdom]
  rw [wlinkPut]
  exact (if_neg (ne_true_of_eq_false hdark)).trans rfl

theorem wlinkStored_rd (p : WlinkParams) (b v : Nat) (s : State) (f : Fld) (i j : Nat) :
    (wlinkStored p b v s).rd f i j = s.rd f i j :=
  when_cases (P := fun z => z.rd f i j = s.rd f i j) rfl rfl

theorem wlinkStored_keep {p : WlinkParams} {b v : Nat} {s : State} (h : p.persist = 0) : wlinkStored p b v s = s :=
  when_of_not _ s (by simp [h])

theorem wlinkStored_put {p : WlinkParams} {b v : Nat} {s : State} (h : p.persist = 1) :
    (wlinkStored p b v s).store.wlink = s.store.wlink.filter (fun e => !(e.1 == p.link && e.2.1 == b)) ++ [(p.link, b, v)] :=
  congrArg (fun z => z.store.wlink) (when_of _ s (by simp [h]))

/-- What WLINK_CONFIG of SELECT 0x21 leaves: the two registers, and with PERSIST the two stored values. -/
theorem wlinkPut_rate_limit {p : WlinkParams} {s : State} (hphy : s.domOn (dWphy (wlTiller p.link)) = true)
    (htl : s.tlOn (wlTiller p.link) = true) (hrate : p.targetRate ≤ 3) (hlim : p.replayLimit ≤ 15) :
    (wlinkPut p 5 (wlinkPut p 0 s)).rd .WP_TARGET_RATE p.link = p.targetRate ∧
      (wlinkPut p 5 (wlinkPut p 0 s)).rd .WL_REPLAY_LIMIT p.link = p.replayLimit ∧
      (p.persist = 0 → (wlinkPut p 5 (wlinkPut p 0 s)).store = s.store) ∧
      (p.persist = 1 → (p.link, 0, p.targetRate) ∈ (wlinkPut p 5 (wlinkPut p 0 s)).store.wlink ∧
        (p.link, 5, p.replayLimit) ∈ (wlinkPut p 5 (wlinkPut p 0 s)).store.wlink) := by
  have hput := wlinkPut_rate hphy
  have hmv : Moves foot_setTargetRate (wlinkStored p 0 p.targetRate s) (wlinkPut p 0 s) := by
    rw [hput]
    exact moves_setTargetRate (.refl _ _) (within_self _)
  have htl' : (wlinkPut p 0 s).tlOn (wlTiller p.link) = true := by
    rw [State.tlOn, State.domOn, hmv.reg .PW_STATE _ _ (by decide +kernel), wlinkStored_rd]
    exact htl
  have hstore : (wlinkPut p 0 s).store = (wlinkStored p 0 p.targetRate s).store := hmv.part .store (by decide +kernel)
  have hset : (wlinkPut p 0 s).rd .WP_TARGET_RATE p.link = p.targetRate := by
    rw [hput, setTargetRate, shown]
    refine ((moves_showTx (.refl _ _) (within_self _)).reg .WP_TARGET_RATE _ _ (by decide +kernel)).trans ((rd_wr ..).trans ?_)
    exact Nat.mod_eq_of_lt (Nat.lt_of_le_of_lt hrate (by decide))
  rw [wlinkPut_limit htl']
  refine ⟨?_, (rd_wr ..).trans (Nat.mod_eq_of_lt (Nat.lt_of_le_of_lt hlim (by decide))), fun h0 => ?_, fun h1 => ?_⟩
  · rw [rd_wr_ne _ (by simp), wlinkStored_rd]
    exact hset
  · rw [wlinkStored_keep h0]
    exact hstore.trans (congrArg State.store (wlinkStored_keep h0))
  · have hfirst : (p.link, 0, p.targetRate) ∈ (wlinkPut p 0 s).store.wlink := by
      rw [hstore, wlinkStored_put h1]
      exact List.mem_append_right _ (List.mem_singleton.2 rfl)
    have hwl : ((wlinkStored p 5 p.replayLimit (wlinkPut p 0 s)).wr .WL_REPLAY_LIMIT p.replayLimit p.link).store.wlink = _ :=
      wlinkStored_put h1
    rw [hwl]
    exact ⟨List.mem_append_left _ (List.mem_filter.2 ⟨hfirst, by simp⟩), List.mem_append_right _ (List.mem_singleton.2 rfl)⟩

theorem exec_wlinkConfig {r : CmdReq} {p : WlinkParams} {s : State} (hs : Served 0x0410 (targetOf s r) (hasMgr s r.iss) r s)
    (hlen : r.plen = 24) (hl : p.link < 96) (hper : p.persist ≤ 1) (hsel : p.select = 0x21) (hrate : p.targetRate ≤ 3)
    (hlo : 1 ≤ p.replayLimit) (hlim : p.replayLimit ≤ 15) (hphy : s.domOn (dWphy (wlTiller p.link)) = true)
    (htl : s.tlOn (wlTiller p.link) = true) (hwp : s.rd .WP_LOCK p.link = 0) (hwl : s.rd .WL_LOCK p.link = 0) :
    exec (.wlinkConfig r p) s = .next (finish r 0x0410 0 [] (wlinkPut p 5 (wlinkPut p 0 s))) := by
  have hbits := wlinkSel_rate_limit hsel
  have htl' : s.domOn (dTl (wlTiller p.link)) = true := htl
  have hall : (wlinkSel p).all (fun b => (wlinkVal p b).2) = true := by simp [hbits, wlinkVal, hrate, hlo, hlim]
  have hdark : (wlinkSel p).any (fun b => wlinkDark s p.link b) = false := by simp [hbits, wlinkDark, hphy, htl']
  have hfree : (wlinkSel p).any (wlinkLocked s p.link) = false := by simp [hbits, wlinkLocked, State.on, hwp, hwl]
  have hrun : exec (.wlinkConfig r p) s = .next (finish r 0x0410 0 [] (each (wlinkSel p) (wlinkPut p) s)) :=
    congrArg Host.Outcome.next (runCmd_served hs (beq_iff_eq.2 hlen) (by simp [hl, hper, hall]) (by simp [hdark])
      (if_neg (ne_true_of_eq_false hfree)) rfl (fun h => Bool.noConfusion h))
  have heach : each (wlinkSel p) (wlinkPut p) s = wlinkPut p 5 (wlinkPut p 0 s) := by
    rw [hbits]
    rfl
  rw [hrun, heach]

/-! ### WLINK_RESET and WLINK_RESHAPE -/

/-- A reset of a link that is not halted takes it to its start with nothing unacknowledged, unless the flush halts it. -/
theorem linkReset_spec {n : Nat} {s : State} (h : s.rd .WL_LSTATE n ≠ 6) : (linkReset n s).rd .WL_LSTATE n = 6 ∨
    ((linkReset n s).rd .WL_LSTATE n = 0 ∧ (linkReset n s).rd .WL_UNACKED n = 0 ∧ ((linkReset n s).wl n).replay = []) := by
  unfold linkReset
  rw [if_neg h]
  extract_lets used s1 s2 s3 s4
  by_cases h6 : s1.rd .WL_LSTATE n = 6
  · rw [if_pos h6]
    exact .inl h6
  · rw [if_neg h6]
    have hmv : Moves (foot_leaveDisabled ||| foot_enterDisabled ||| foot_fullChoice) s4
        (leaveDisabled n (enterDisabled n (fullChoice n s4))) :=
      moves_leaveDisabled (moves_enterDisabled (moves_fullChoice (.refl _ _) (by unfold Within; decide +kernel))
        (by unfold Within; decide +kernel)) (by unfold Within; decide +kernel)
    refine .inr ⟨(hmv.reg _ _ _ (by decide +kernel)).trans ?_, (hmv.reg _ _ _ (by decide +kernel)).trans ?_, ?_⟩
    · simp [s4, s3, rd_wr_ite]
    · simp [s4, s3, rd_wr_ite]
    · have hwls : (leaveDisabled n (enterDisabled n (fullChoice n s4))).wls = s4.wls := hmv.part .wls (by decide +kernel)
      have hwl : (leaveDisabled n (enterDisabled n (fullChoice n s4))).wl n = s2.wl n := congrArg (fun t => tget _ t n) hwls
      rw [hwl, modWl_wl, if_pos rfl]

theorem startReshape_spec {n set : Nat} (s : State) (h : set < 16) :
    (startReshape n set (s.wr .WL_RESHAPE_SET set n)).rd .WL_RESHAPE_SET n = set ∧
      ((startReshape n set (s.wr .WL_RESHAPE_SET set n)).rd .WL_RESHAPE_BUSY n = 1 ∨
        (startReshape n set (s.wr .WL_RESHAPE_SET set n)).rd .WL_RESHAPE_FAIL n = 1) := by
  have hset : (s.wr .WL_RESHAPE_SET set n).rd .WL_RESHAPE_SET n = set := (rd_wr ..).trans (Nat.mod_eq_of_lt h)
  refine ⟨?_, ?_⟩
  · exact ((moves_startReshape (.refl _ _) (within_self _)).reg .WL_RESHAPE_SET n 0 (by decide +kernel)).trans hset
  · unfold startReshape
    split
    · exact .inr (((moves_trace (.refl _ _) (within_self _)).reg .WL_RESHAPE_FAIL n 0 (by decide +kernel)).trans (rd_wr ..))
    · exact .inl (((moves_sendLinkMsg (.refl _ _) (within_self _)).reg .WL_RESHAPE_BUSY n 0 (by decide +kernel)).trans (rd_wr ..))

/-! ### WLINK_INFO -/

theorem wlinkInfoReply_spec (s : State) (n : Nat) : (wlinkInfoReply s n).length = 64 ∧
    num (wlinkInfoReply s n) 0 1 = s.rd .WL_LSTATE n % 256 ∧ num (wlinkInfoReply s n) 3 1 = s.rd .WL_ACTIVE_SET n % 256 := by
  refine ⟨?_, ?_, ?_⟩
  · cases h : (s.wl n).ident <;> simp [wlinkInfoReply, h]
  · simp only [wlinkInfoReply, List.append_assoc]
    rw [num_append_left (by simp), num_le]
    rfl
  · simp only [wlinkInfoReply, List.append_assoc]
    rw [num_append_right (by simp), num_append_right (by simp), num_append_right (by simp), num_append_left (by simp)]
    simp [num_le]

/-- Settles O25: each command's effect, of which the reply carries the state. -/
theorem linkCommands : Obligations.LinkCommands := by
  refine ⟨fun r port bifur clkmode speed s hs hlen hp hb hc h1 h6 ha => ?_,
    fun r p s hs hlen hl hper hsel hrate hlo hlim hphy htl hwp hwl => ?_, fun r link s hs hlen hl htl h => ?_,
    fun r link set s hs hlen hl hset htl hst hbusy => ?_, fun r link s hs hlen hl htl hphy => ?_⟩
  · refine ⟨_, exec_hportConfig hs hlen hp hb hc h1 h6 ha, _, ⟨?_, ?_, ?_, fun k hk => hportAct_rd s hb hc hk⟩, rfl⟩
    all_goals
      rw [hportAct_store, tget_tset]
      exact if_pos rfl
  · exact ⟨_, exec_wlinkConfig hs hlen hl hper hsel hrate hlo hlim hphy htl hwp hwl, _,
      wlinkPut_rate_limit hphy htl hrate hlim, rfl⟩
  · exact ⟨_, congrArg Host.Outcome.next (runCmd_served hs (beq_iff_eq.2 hlen) (decide_eq_true hl) (by simp [htl]) rfl rfl
      (fun h => Bool.noConfusion h)), _, linkReset_spec h, rfl⟩
  · exact ⟨_, congrArg Host.Outcome.next (runCmd_served hs (beq_iff_eq.2 hlen) (by simp [hl, hset]) (by simp [htl])
      (if_pos (by simp [hst, State.on, hbusy])) rfl (fun h => Bool.noConfusion h)), _, startReshape_spec s hset, rfl⟩
  · obtain ⟨hlength, hstate, hactive⟩ := wlinkInfoReply_spec s link
    exact ⟨_, congrArg Host.Outcome.next (runCmd_served hs (beq_iff_eq.2 hlen) (decide_eq_true hl) (by simp [htl, hphy]) rfl rfl
      (fun h => Bool.noConfusion h)), _, ⟨s, rfl, rfl⟩, hlength, hstate, hactive⟩

end Sys2Proof.Proofs
end

section
/-!
LOG_HARVEST while a round is under way (R303): the statement on dirty logging asks that the command be scheduled, and R303
refuses it with BUSY.
-/
namespace Sys2Proof.Proofs
open Sys2Proof Sys2Proof.Machine Sys2Proof.Laws
set_option Elab.async false

/-! ### BUSY (R336, R338) -/

/-- A served command whose only fault is that its work is under way is answered BUSY. -/
theorem runCmd_busy {c : Cmd} {r : CmdReq} {s : State} (h : Served c.op (c.key.getD (targetOf s r)) (c.priv s) r s)
    (hl : c.lenOk = true) (hp : c.params s = true) (hd : c.dark s = false) (ho : c.own s = 0) (hb : c.busy s = true)
    (ha : c.acts = true → Acts r s) : runCmd c r s = finish r c.op 1 [] s := by
  have hbroken : (c.acts && s.tnState (targetOf s r) == 4 && c.op != 0x0204 && c.op != 0x0205) = false := by
    by_cases hc : c.acts = true
    · simp [(ha hc).2]
    · simp [hc]
  have hown : ownChecks c r s = 1 := by
    simp [ownChecks, stateChecks, firstFail, hbroken, ho, hb]
  rw [runCmd_checked h, checkCmd_served h hl hp hd (fun hc => (ha hc).1), hown, if_neg (by decide), if_neg (by decide)]

/-- A reply leaves the schedule as it is. -/
theorem finish_sched {r : CmdReq} {op status : Nat} {d : Bytes} {s : State} (h : draining s = false)
    (hu : ∀ c ∈ s.keeper.ctxs, c.unknown = 0) : (finish r op status d s).keeper.sched = s.keeper.sched := by
  obtain ⟨a, b, l, c, e, hk, -⟩ := @finishCore_keeper r op status (curGen s r) d s
  rw [finish_eq h hu, hk]

/-! ### A round under way -/

/-- Tenant 0 is ACTIVE and logs; its round's flush reads are out, and the Keeper serves. -/
def harvesting : State :=
  { State.reset with
    regs := [(⟨.TN_STATE, 0, 0⟩, 1), (⟨.KP_KSTATE, 0, 0⟩, 2), (⟨.PW_STATE, 0, 0⟩, 2), (⟨.PW_STATE, 0, 1⟩, 2),
      (⟨.PW_STATE, 0, 2⟩, 2), (⟨.PW_STATE, 0, 10⟩, 2), (⟨.PW_STATE, 0, 18⟩, 2)]
    pins := ⟨⟨0, 0, false⟩, 0, false, false, false, false, 255, none⟩
    logs := [(0, ⟨0, 16, 0, 0x100000, 0x200000, 1, 0, false, 0, 0, 0, false, none,
      some ⟨0, 0, 0, 0, 0, 0, 0, false, false, false, 2⟩, false⟩)] }

/-- LOG_HARVEST of tenant 0 from the manager's PF. -/
def harvestReq : CmdReq := ⟨.fn ⟨0, 0⟩, 1, 0, false, false, false, 2, 0, 0⟩

theorem harvesting_draining : draining harvesting = false := by decide +kernel

/-- LOG_HARVEST during the round is answered BUSY: nothing joins the schedule. -/
theorem exec_logHarvest_harvesting :
    exec (.logHarvest harvestReq) harvesting = .next (finish harvestReq 0x0502 1 [] harvesting) :=
  congrArg Host.Outcome.next (runCmd_busy (c := cmdLogHarvest harvestReq (nextBoundary 0x0502 .logHarvest harvestReq))
    (by decide +kernel) rfl rfl (by decide +kernel) (by decide +kernel) (by decide +kernel) (fun _ => by decide +kernel))

/-- Refutes O26: the clause on LOG_HARVEST admits a round under way, during which the command is BUSY (R303) and joins no
schedule. -/
theorem not_dirtyLogging : ¬ Obligations.DirtyLogging := by
  rintro ⟨-, hharvest, -⟩
  obtain ⟨t, ht, e, he, -⟩ := hharvest harvestReq _ harvesting (by decide +kernel) (by decide +kernel) rfl (by decide +kernel) rfl rfl
  rw [exec_logHarvest_harvesting, Host.Outcome.next.injEq] at ht
  rw [← ht, finish_sched harvesting_draining (by decide)] at he
  exact List.cons_ne_nil e [] he.symm

end Sys2Proof.Proofs
end

section
/-!
Scheduled commands at their boundary (R337, R338): what taking one out of the schedule leaves, and that one whose checks find
nothing takes its effect.
-/
namespace Sys2Proof.Proofs
open Sys2Proof Sys2Proof.Machine Sys2Proof.Laws
set_option Elab.async false

/-- A command names the same tenant while the tenants stay bound to the functions they have. -/
theorem targetOf_eq {s t : State} (h : ∀ f, t.rd .DVSEC_TNID f = s.rd .DVSEC_TNID f) (r : CmdReq) : targetOf t r = targetOf s r := by
  have hbound (f : Nat) : t.boundTn f = s.boundTn f := by rw [State.boundTn, State.boundTn, h]
  have hissuer : issuerTn t r.iss = issuerTn s r.iss := by
    cases r.iss with
    | fn f => rw [issuerTn, issuerTn, hbound]
    | smp => rfl
  rw [targetOf, targetOf, hissuer]

/-- The instant stays while the era and the stamp do. -/
theorem eraEpoch_eq {s t : State} (hcad : t.cad = s.cad) (hera : t.rd .CAD_ERA = s.rd .CAD_ERA) : t.eraEpoch = s.eraEpoch := by
  rw [State.eraEpoch, State.eraEpoch, State.era, State.era, hera, State.epoch, State.epoch, hcad]

/-- The state in which a scheduled command executes: it has left the schedule, and its acceptance gives its authority. -/
def schedTaken (e : Sched) (s : State) : State :=
  (unschedule e s).modKeeper (fun k => { k with actGen := some e.ringGen, actMgr := some e.mgr })

theorem schedTaken_moves (e : Sched) (s : State) : Moves (foot_unschedule ||| pms [.keeper]) s (schedTaken e s) :=
  moves_modKeeper (moves_unschedule (.refl _ s) (by unfold Within; decide +kernel)) (by unfold Within; decide +kernel)

theorem schedTaken_boundTn (e : Sched) (s : State) (f : Nat) : (schedTaken e s).boundTn f = s.boundTn f := by
  simp only [State.boundTn, (schedTaken_moves e s).reg .DVSEC_TNID _ _ (by decide +kernel)]

theorem schedTaken_tnState (e : Sched) (s : State) (n : Nat) : (schedTaken e s).tnState n = s.tnState n :=
  (schedTaken_moves e s).reg .TN_STATE _ _ (by decide +kernel)

theorem schedTaken_domOn (e : Sched) (s : State) (d : Nat) : (schedTaken e s).domOn d = s.domOn d := by
  simp only [State.domOn, (schedTaken_moves e s).reg .PW_STATE _ _ (by decide +kernel)]

theorem schedTaken_tlOn (e : Sched) (s : State) (t : Nat) : (schedTaken e s).tlOn t = s.tlOn t := schedTaken_domOn e s _

theorem schedTaken_react (e : Sched) (s : State) : (schedTaken e s).react = s.react := by
  simp only [State.react, State.on, (schedTaken_moves e s).reg .WD_REACT _ _ (by decide +kernel)]

theorem schedTaken_issuerTn (e : Sched) (s : State) (i : Issuer) : issuerTn (schedTaken e s) i = issuerTn s i := by
  simp only [issuerTn, schedTaken_boundTn]

theorem schedTaken_targetOf (e : Sched) (s : State) (r : CmdReq) : targetOf (schedTaken e s) r = targetOf s r := by
  simp only [targetOf, schedTaken_issuerTn]

/-- The issuer, its target and the reaction hold nothing against a command that was accepted under manager authority. -/
abbrev Unopposed (op : Nat) (r : CmdReq) (s : State) : Prop :=
  unbound s r.iss = false ∧ foreignTarget s r = false ∧ s.react = false ∧ r.resv = false ∧
    (r.target < 256 ∨ r.target = 0xFFFF) ∧ tenantThere op r s = true

theorem schedTaken_unopposed {op : Nat} {r : CmdReq} {e : Sched} {s : State} (h : Unopposed op r s) :
    Unopposed op r (schedTaken e s) := by
  obtain ⟨hun, hfor, hre, hresv, htg, hth⟩ := h
  refine ⟨?_, ?_, ?_, hresv, htg, ?_⟩
  · simpa only [unbound, schedTaken_boundTn] using hun
  · simpa only [foreignTarget, schedTaken_issuerTn] using hfor
  · rw [schedTaken_react]
    exact hre
  · simpa only [tenantThere, schedTaken_targetOf, schedTaken_tnState] using hth

/-- Checks 5 to 10 of a command that was accepted under manager authority. -/
theorem checks5to10_unopposed {c : Cmd} {r : CmdReq} {s : State} (h : Unopposed c.op r s) (hlen : c.lenOk = true)
    (hact : c.acts = true → targetOf s r ≠ 0xFFFF) (hat : r.atEpoch = false) (hp : c.params s = true) (hdark : c.dark s = false) :
    checks5to10 c r true s = 0 := by
  obtain ⟨hun, hfor, hre, hresv, htg, hth⟩ := h
  have htg' : ((r.target ≥ 256 && r.target != 0xFFFF) : Bool) = false := by
    rcases htg with h | h
    · simp [Nat.not_le.2 h]
    · simp [h]
  have hact' : (c.acts && targetOf s r == 0xFFFF) = false := by
    cases hc : c.acts
    · rfl
    · simp [hact hc]
  have hth' : (decide (targetOf s r < 256) && c.op != 0x0201 && (s.tnState (targetOf s r) == 0 ||
      (s.tnState (targetOf s r) == 5 && c.op != 0x0205))) = false := by
    simp only [tenantThere, Bool.or_eq_true, Bool.not_eq_true', decide_eq_true_eq, beq_iff_eq] at hth
    rcases hth with (h | h) | h
    · simp [Nat.not_lt.2 h]
    · simp [h]
    · rw [h, Bool.and_false]
  simp only [checks5to10, firstFail, hun, hfor, hre, hlen, hresv, htg', hact', hat, hp, hth', hdark, Bool.false_and,
    Bool.false_or, Bool.true_or, Bool.not_true, Bool.false_eq_true, if_false]

/-- A scheduled command whose checks find nothing takes its effect. -/
theorem runSched_acts {c : Cmd} {e : Sched} {s : State} (hm : e.mgr = true) (h : Unopposed c.op e.req s) (hlen : c.lenOk = true)
    (hact : c.acts = true → targetOf s e.req ≠ 0xFFFF ∧ s.tnState (targetOf s e.req) ≠ 4)
    (hp : c.params (schedTaken e s) = true) (hdark : c.dark (schedTaken e s) = false) (hown : c.own (schedTaken e s) = 0) :
    runSched c e s = (c.act (schedTaken e s)).modKeeper (fun k => { k with actGen := none, actMgr := none }) := by
  have hchecks : checks5to10 c { e.req with atEpoch := false } e.mgr (schedTaken e s) = 0 := by
    rw [hm]
    refine checks5to10_unopposed (r := { e.req with atEpoch := false }) (schedTaken_unopposed h) hlen (fun hc => ?_) rfl hp hdark
    exact (schedTaken_targetOf e s e.req).trans_ne (hact hc).1
  have hstate : stateChecks c { e.req with atEpoch := false } (schedTaken e s) = 0 := by
    have hbroken : (c.acts && (schedTaken e s).tnState (targetOf (schedTaken e s) { e.req with atEpoch := false }) == 4 &&
        c.op != 0x0204 && c.op != 0x0205) = false := by
      cases hc : c.acts
      · rfl
      · have htarget : targetOf (schedTaken e s) { e.req with atEpoch := false } = targetOf s e.req := schedTaken_targetOf e s e.req
        simp [htarget, schedTaken_tnState, (hact hc).2]
    simp [stateChecks, firstFail, hbroken, hown]
  unfold runSched
  extract_lets s1 src r n m s2
  have hn : n = 0 := hchecks
  have hgo : m = 0 := by
    simp only [m, hn, bne_self_eq_false, Bool.false_eq_true, if_false]
    exact hstate
  have hs2 : s2 = c.act (schedTaken e s) := by
    simp only [s2, hgo, bne_self_eq_false, Bool.false_eq_true, if_false]
    rfl
  rw [hs2]

end Sys2Proof.Proofs
end

section
/-!
Migration (R305 to R309, R313, R314): freezing, thawing, saving and restoring a tenant.
-/
namespace Sys2Proof.Proofs
open Sys2Proof Sys2Proof.Machine Sys2Proof.Laws
set_option Elab.async false

/-- What every round of a loop over its own list keeps holds after the loop. -/
theorem each_induct_mem {α : Type} {P : State → Prop} {f : α → State → State} (l : List α) {s : State} (hs : P s)
    (hf : ∀ a ∈ l, ∀ t, P t → P (f a t)) : P (each l f s) := by
  induction l generalizing s with
  | nil => exact hs
  | cons a l ih =>
    exact ih (hf a List.mem_cons_self s hs) (fun b hb => hf b (List.mem_cons_of_mem a hb))

/-! ### TENANT_FREEZE and its boundary -/

theorem exec_tenantFreeze {r : CmdReq} {s : State} (hs : Served 0x0503 (targetOf s r) (hasMgr s r.iss) r s) (ha : Acts r s)
    (hlen : r.plen = 0) (hd : tnDark s (s.rd .TN_HL (targetOf s r)) [] = false) (hst : s.tnState (targetOf s r) ≠ 3) :
    exec (.tenantFreeze r) s = .next (nextBoundary 0x0503 .tenantFreeze r (s.wr .TN_FREEZE_SET 1 (targetOf s r))) :=
  congrArg Host.Outcome.next (runCmd_served hs (beq_iff_eq.2 hlen) rfl hd (if_neg hst) rfl (fun _ => ⟨ha.1, .inl ha.2⟩))

/-- Requests of a sheaf that take its packets to its destinations. -/
def sheafSrc : HSrc → Bool
  | .sheafCopy _ _ _ _ | .gap _ _ _ _ => true
  | _ => false

/-- Copies and gap records of sheaves that are discarded move nothing of tenants. -/
theorem discardWaiting_copies {p : HReq → Bool} (cause : Nat) (s : State)
    (hp : ∀ r, p r = true → sheafSrc r.src = true) :
    Moves (foot_copyDropped ||| fms [.CT_SD_LAG] ||| foot_settleIntr ||| pms [.hostQ]) s (discardWaiting p cause s) := by
  refine moves_settleIntr (each_induct_mem _ (moves_filterHostQ (.refl _ s) (by unfold Within; decide +kernel)) fun r hr t h => ?_)
    (by unfold Within; decide +kernel)
  have hsrc := hp r (List.mem_filter.1 hr).2
  unfold discardOne
  cases hx : r.src with
  | sheafCopy pkt d wl lane => exact moves_copyDropped h (by unfold Within; decide +kernel)
  | gap k d wl lane => exact moves_inc h (by unfold Within; decide +kernel)
  | _ => simp [hx, sheafSrc] at hsrc

/-- The freeze point of a tenant leaves it FROZEN with nothing scheduled. -/
theorem freezeTn_spec (r : CmdReq) (n : Nat) (s : State) :
    (freezeTn r n s).rd .TN_STATE n = 3 ∧ (freezeTn r n s).rd .TN_FREEZE_SET n = 0 := by
  unfold freezeTn
  extract_lets s1 s2 s3 s4 s5 s6
  have hw : Fld.TN_STATE.width = 3 := rfl
  have hcopies : Moves _ s5 s6 := discardWaiting_copies 0 s5 fun q hq => by
    cases hx : q.src <;> simp [hx, sheafSrc] at hq ⊢
  have hkeep {f : Fld} (hf : (foot_stopReads ||| foot_showExcused ||| foot_freezeSettle ||| foot_dirChanged |||
      foot_copyDropped ||| fms [.CT_SD_LAG] ||| foot_settleIntr ||| foot_traceTnState).testBit (fbit f) = false) :
      (dirChanged (s6.rd .TN_HL n) (freezeSettle (showExcused s6))).rd f n =
        ((s1.wr .TN_STATE 3 n).wr .TN_FREEZE_SET 0 n).rd f n := by
    simp only [Nat.testBit_or, Bool.or_eq_false_iff] at hf
    obtain ⟨⟨⟨⟨⟨⟨⟨hstop, hexc⟩, hsettle⟩, hdir⟩, hcopy⟩, hlag⟩, hintr⟩, htrace⟩ := hf
    calc (dirChanged (s6.rd .TN_HL n) (freezeSettle (showExcused s6))).rd f n
        = (freezeSettle (showExcused s6)).rd f n := (moves_dirChanged (.refl _ _) (within_self _)).reg f n 0 hdir
      _ = (showExcused s6).rd f n := (moves_freezeSettle (.refl _ _) (within_self _)).reg f n 0 hsettle
      _ = s6.rd f n := (moves_showExcused (.refl _ _) (within_self _)).reg f n 0 hexc
      _ = s5.rd f n := hcopies.reg f n 0 (by simp only [Nat.testBit_or, hcopy, hlag, hintr, pms_fld, Bool.or_self])
      _ = s4.rd f n := each_induct (P := fun z => z.rd f n = s4.rd f n) _ rfl fun c z hz =>
          ((moves_stopReads (.refl _ z) (within_self _)).reg f n 0 hstop).trans hz
      _ = s2.rd f n := rfl
      _ = ((s1.wr .TN_STATE 3 n).wr .TN_FREEZE_SET 0 n).rd f n :=
        (moves_traceTnState (.refl _ _) (within_self _)).reg f n 0 htrace
  refine ⟨(hkeep (by decide +kernel)).trans ?_, (hkeep (by decide +kernel)).trans ?_⟩ <;> simp [rd_wr_ite, hw]

theorem cmdTenantFreeze_act (r : CmdReq) (go : State → State) : (cmdTenantFreeze r go).act = go := rfl

/-- A freeze whose boundary has come takes its tenant to FROZEN. -/
theorem runSched_freeze {e : Sched} {n : Nat} {s : State} (hn : e.req.target = n) (h256 : n < 256) (hst : s.tnState n = 1)
    (hm : e.mgr = true) (hlen : e.req.plen = 0) (hresv : e.req.resv = false) (hun : unbound s e.req.iss = false)
    (hfor : foreignTarget s e.req = false) (hre : s.react = false) (hd : tnDark s (s.rd .TN_HL n) [] = false) :
    (runSched (cmdTenantFreeze e.req (freezeTn e.req n)) e s).rd .TN_STATE n = 3 ∧
      (runSched (cmdTenantFreeze e.req (freezeTn e.req n)) e s).rd .TN_FREEZE_SET n = 0 := by
  have htarget : targetOf s e.req = n := by rw [targetOf, if_neg (by omega), hn]
  have hth : tenantThere 0x0503 e.req s = true := by simp [tenantThere, htarget, hst]
  have hhl : (schedTaken e s).rd .TN_HL n = s.rd .TN_HL n := (schedTaken_moves e s).reg _ _ _ (by decide +kernel)
  have hdark : (cmdTenantFreeze e.req (freezeTn e.req n)).dark (schedTaken e s) = false := by
    simp only [cmdTenantFreeze, schedTaken_targetOf, htarget, hhl, tnDark, schedTaken_domOn, schedTaken_tlOn]
    exact hd
  have hown : (cmdTenantFreeze e.req (freezeTn e.req n)).own (schedTaken e s) = 0 := by
    simp only [cmdTenantFreeze, schedTaken_targetOf, htarget, schedTaken_tnState, hst]
    rfl
  have hfree : Unopposed 0x0503 e.req s := ⟨hun, hfor, hre, hresv, .inl (by rw [hn]; exact h256), hth⟩
  have hrun := runSched_acts (c := cmdTenantFreeze e.req (freezeTn e.req n)) hm hfree
    (beq_iff_eq.2 hlen) (fun _ => ⟨by rw [htarget]; omega, by rw [htarget, hst]; decide⟩) rfl hdark hown
  rw [hrun, cmdTenantFreeze_act, modKeeper_rd, modKeeper_rd]
  exact freezeTn_spec e.req n (schedTaken e s)

/-- A freeze that is due and picked names its tenant. -/
theorem dueSched_freeze {n : Nat} {e : Sched} {s : State}
    (h : dueSched s (fun e => decide (e.cmd = .tenantFreeze) && e.req.target == n) = some e) :
    e ∈ s.keeper.sched ∧ e.req.target = n := by
  have hp := List.find?_some h
  simp only [Bool.and_eq_true, beq_iff_eq, decide_eq_true_eq] at hp
  exact ⟨List.mem_of_find?_eq_some h, hp.2.2⟩

theorem exec_freezePoint {tn : Tnid} {e : Sched} {s : State}
    (h : dueSched s (fun e => decide (e.cmd = .tenantFreeze) && e.req.target == tn.val) = some e) :
    exec (.freezePoint tn) s = .next (if s.tnState tn = 2 then
      s.modKeeper (fun k => { k with sched := k.sched.map (fun x => if x = e then { e with due := s.eraEpoch + 1 } else x) })
      else runSched (cmdTenantFreeze e.req (freezeTn e.req tn.val)) e s) := by
  change execFreezePoint tn s = _
  simp only [execFreezePoint, h, withSome]

/-! ### The end of a freeze -/

/-- The quiet of a tenant does not count the flush reads of freezes. -/
theorem tnQuiet_append {s t : State} {n : Nat} {l : List HReq} (h : tnQuiet s n = true) (hq : t.hostQ = s.hostQ ++ l)
    (hl : ∀ q ∈ l, ∃ k, q.src = .freezeFlush k) (htags : t.tags = s.tags) (hwls : t.wls = s.wls) (hten : t.ten n = s.ten n)
    (hch : ∀ c, t.rd .CH_STATE c = s.rd .CH_STATE c) : tnQuiet t n = true := by
  have hany (p : HReq → Bool) (hp : ∀ q ∈ l, p q = false) : (s.hostQ ++ l).any p = s.hostQ.any p := by
    rw [List.any_append, List.any_eq_false.2 fun q hmem => ne_true_of_eq_false (hp q hmem), Bool.or_false]
  unfold tnQuiet at h ⊢
  rw [hq, htags, hwls, hten]
  dsimp only
  rw [hany _ fun q hmem => ?_]
  · simpa only [hch] using h
  · obtain ⟨k, hk⟩ := hl q hmem
    simp [hk]

/-- A tenant's flush read joins the end of the order, if it is issued at all. -/
theorem tnFlush_appends (n k : Nat) (s : State) : ∃ l, (tnFlush n (.freezeFlush k) s).2.hostQ = s.hostQ ++ l ∧
    ∀ q ∈ l, ∃ m, q.src = .freezeFlush m := by
  unfold tnFlush
  extract_lets f p vf put
  have hput (a : Nat) (z : State) (hz : z.hostQ = s.hostQ) :
      ∃ l, (put a z).hostQ = s.hostQ ++ l ∧ ∀ q ∈ l, ∃ m, q.src = .freezeFlush m :=
    ⟨_, (enqueueHost_hostQ ..).trans (by rw [hz]), fun q hq => ⟨k, by rw [List.mem_singleton.1 hq]; rfl⟩⟩
  split
  · exact ⟨[], (List.append_nil _).symm, fun q hq => nomatch hq⟩
  · cases (s.ten n).lastByte with
    | some a => exact hput a s rfl
    | none => exact hput _ _ rfl

/-- Flush reads have joined the end of the order, and tenant `n` is as it was. -/
def FlushesAdded (n : Nat) (s t : State) : Prop :=
  (∃ l, t.hostQ = s.hostQ ++ l ∧ ∀ q ∈ l, ∃ k, q.src = .freezeFlush k) ∧ t.ten n = s.ten n

/-- Settling the freezes adds flush reads to the order, and leaves a tenant whose requests are out as it was. -/
theorem freezeSettle_flushesAdded {n : Nat} {s : State} (h : (s.ten n).freezeOut = true) : FlushesAdded n s (freezeSettle s) := by
  refine each_induct_mem (P := FlushesAdded n s) _ ⟨⟨[], (List.append_nil _).symm, fun q hq => nomatch hq⟩, rfl⟩
    fun k hk z hz => when_cases (P := FlushesAdded n s) hz ?_
  obtain ⟨⟨l, hadded, hl⟩, hten⟩ := hz
  have hne : n ≠ k := by
    rintro rfl
    simp [h] at hk
  extract_lets y flush
  have hy : y.ten n = s.ten n := (modTen_ten ..).trans ((if_neg hne).trans hten)
  obtain ⟨l', hq, hl'⟩ := tnFlush_appends k k y
  have hflush : flush.2.ten n = y.ten n :=
    congrArg (fun t => tget TenS.reset t n) ((moves_tnFlush (.refl _ y) (within_self _)).part .tens (by decide +kernel))
  have hout : ∃ l, flush.2.hostQ = s.hostQ ++ l ∧ ∀ q ∈ l, ∃ k, q.src = .freezeFlush k := by
    refine ⟨l ++ l', ?_, fun q hmem => (List.mem_append.1 hmem).elim (hl q) (hl' q)⟩
    rw [← List.append_assoc, ← hadded]
    exact hq
  by_cases hs : flush.1.isSome
  · rw [if_pos hs]
    exact ⟨hout, hflush.trans hy⟩
  · rw [if_neg hs]
    exact ⟨hout, (modTen_ten ..).trans ((if_neg hne).trans (hflush.trans hy))⟩

/-- A frozen tenant of which nothing is out any more is quiesced. -/
theorem exec_freezeQuiesced {tn : Tnid} {s : State} (hst : s.tnState tn = 3) (hq : (s.ten tn).quiesced = false)
    (ho : (s.ten tn).freezeOut = true) (hf : (s.ten tn).freezeFlushed = true) (hquiet : tnQuiet s tn = true) :
    Completes (.freezeQuiesced tn) s (fun t => (t.ten tn).quiesced = true ∧ t.rd .TN_STATE tn = 3) := by
  obtain ⟨⟨l, hl, hsrc⟩, hten⟩ := freezeSettle_flushesAdded ho
  have hmv : Moves foot_freezeSettle s (freezeSettle s) := moves_freezeSettle (.refl _ s) (within_self _)
  have hst' : (freezeSettle s).tnState tn = 3 := (hmv.reg .TN_STATE _ _ (by decide +kernel)).trans hst
  have hquiet' : tnQuiet (freezeSettle s) tn = true :=
    tnQuiet_append hquiet hl hsrc (hmv.part .tags (by decide +kernel)) (hmv.part .wls (by decide +kernel)) hten
      (fun c => hmv.reg .CH_STATE _ _ (by decide +kernel))
  have hgo : ((freezeSettle s).tnState tn != 3 || ((freezeSettle s).ten tn).quiesced || !((freezeSettle s).ten tn).freezeOut ||
      !((freezeSettle s).ten tn).freezeFlushed || !tnQuiet (freezeSettle s) tn) = false := by
    simp [hst', hten, hq, ho, hf, hquiet']
  refine ⟨_, rfl, ?_⟩
  rw [if_neg (ne_true_of_eq_false hgo)]
  extract_lets s1 s2
  have hreply := moves_finishWaiting (.refl foot_finishWaiting s2) (within_self _) (op := 0x0503) (key := tn) (status := 0)
    (data := le 2 ((freezeSettle s).ten tn).freezeEra ++ le 2 0 ++ le 4 ((freezeSettle s).ten tn).freezeEpoch ++ le 8 s2.stamp)
  have hpark : s1.rd .TN_STATE tn = (freezeSettle s).rd .TN_STATE tn :=
    each_induct (P := fun z => z.rd .TN_STATE tn = (freezeSettle s).rd .TN_STATE tn) _
      ((moves_advance (.refl _ _) (within_self _)).reg _ _ _ (by decide +kernel))
      fun c z hz => ((moves_parkChan (.refl _ z) (within_self _)).reg _ _ _ (by decide +kernel)).trans hz
  refine ⟨?_, (hreply.reg .TN_STATE tn 0 (by decide +kernel)).trans (hpark.trans hst')⟩
  have hquiesced : (s2.ten tn).quiesced = true := by
    rw [modTen_ten, if_pos rfl]
  exact (congrArg (fun t => (tget TenS.reset t tn).quiesced) (hreply.part .tens (by decide +kernel))).trans hquiesced

/-! ### TENANT_THAW -/

/-- Thaw takes a frozen tenant back to ACTIVE. -/
theorem thawTn_state (n : Nat) (s : State) : (thawTn n s).rd .TN_STATE n = 1 := by
  have hkeep {m : Nat} {z z' : State} (h : Moves m z z') (hm : m.testBit (fbit .TN_STATE) = false) (hz : z.rd .TN_STATE n = 1) :
      z'.rd .TN_STATE n = 1 := (h.reg .TN_STATE n 0 hm).trans hz
  unfold thawTn
  extract_lets s1 s2 s3 own s4 s5 ds s6 s7 s8 s9 f s10
  have hset : (s2.wr .TN_STATE 1 n).rd .TN_STATE n = 1 := rd_wr s2 .TN_STATE 1 n 0
  have h3 : s3.rd .TN_STATE n = 1 := hkeep (moves_traceTnState (.refl _ _) (within_self _)) (by decide +kernel) hset
  have h6 : s6.rd .TN_STATE n = 1 := (modTen_rd ..).trans ((mapTags_rd ..).trans h3)
  have h7 : s7.rd .TN_STATE n = 1 := hkeep (moves_releaseHeldOf (.refl _ s6) (within_self _)) (by decide +kernel) h6
  have h8 : s8.rd .TN_STATE n = 1 := each_induct (P := fun z => z.rd .TN_STATE n = 1) _ h7 fun c z hz => by
    refine when_cases (P := fun z => z.rd .TN_STATE n = 1) hz ?_
    split
    · exact hkeep (moves_startFetch (.refl _ z) (within_self _)) (by decide +kernel) hz
    · exact hkeep (moves_startReread (.refl _ z) (within_self _)) (by decide +kernel) hz
  have h9 : s9.rd .TN_STATE n = 1 := each_induct (P := fun z => z.rd .TN_STATE n = 1) _ h8 fun c z hz =>
    hkeep (moves_doorbell (.refl _ _) (within_self _)) (by decide +kernel) ((rd_wr_ne _ (by simp)).trans hz)
  have h10 : s10.rd .TN_STATE n = 1 := each_induct (P := fun z => z.rd .TN_STATE n = 1) _ h9 fun v z hz =>
    hkeep (moves_releaseVec (.refl _ _) (within_self _)) (by decide +kernel) hz
  exact hkeep (moves_dirChanged (.refl _ s10) (within_self _)) (by decide +kernel) h10

/-- The freeze of a tenant that has not been reached names it. -/
theorem freezeSched_some {n : Nat} {e : Sched} {s : State} (h : freezeSched s n = some e) :
    e.cmd = .tenantFreeze ∧ e.req.target = n := by
  have hp := List.find?_some h
  simpa only [Bool.and_eq_true, beq_iff_eq, decide_eq_true_eq] using hp

/-- Cancelling a freeze takes it out of the schedule and shows that none is set. -/
theorem cancelSched_freeze {n : Nat} {e : Sched} {s : State} (hd : draining s = false) (hc : e.cmd = .tenantFreeze)
    (hn : e.req.target = n) : (cancelSched e s).keeper.sched = s.keeper.sched.erase e ∧
      (cancelSched e s).rd .TN_FREEZE_SET n = 0 := by
  have hun : unschedule e s = (showKeeper e.req.iss (s.modKeeper (fun k => { k with sched := k.sched.erase e }))).wr
      .TN_FREEZE_SET 0 n := by
    simp only [unschedule, hc, hn]
  have hstart : (unschedule e s).keeper.sched = s.keeper.sched.erase e ∧ (unschedule e s).rd .TN_FREEZE_SET n = 0 ∧
      draining (unschedule e s) = false := by
    rw [hun]
    refine ⟨congrArg KeeperS.sched ((moves_showKeeper (.refl _ _) (within_self _)).part .keeper (by decide +kernel)),
      rd_wr .., ?_⟩
    rw [draining, rd_wr_ne _ (by simp), (moves_showKeeper (.refl _ _) (within_self _)).reg .KP_KSTATE _ _ (by decide +kernel)]
    exact hd
  refine (finishGen_induct (P := fun z => z.keeper.sched = s.keeper.sched.erase e ∧ z.rd .TN_FREEZE_SET n = 0)
    (fun r op st d g z hz => ⟨?_, ?_⟩) hstart.2.2 ⟨hstart.1, hstart.2.1⟩).1
  · obtain ⟨a, b, l, c, k, hk, -⟩ := @finishCore_keeper r op st g d z
    rw [hk]
    exact hz.1
  · exact ((moves_finishCore (.refl _ _) (within_self _)).reg _ _ _ (by decide +kernel)).trans hz.2

theorem exec_tenantThaw {r : CmdReq} {s : State} (hs : Served 0x0504 (targetOf s r) (hasMgr s r.iss) r s) (ha : Acts r s)
    (hlen : r.plen = 0) (hd : s.domOn dHub = true)
    (hst : s.tnState (targetOf s r) = 3 ∨ (freezeSched s (targetOf s r)).isSome = true) :
    exec (.tenantThaw r) s = .next (finish r 0x0504 0 [] (if s.tnState (targetOf s r) = 3 then thawTn (targetOf s r) s
      else withSome (freezeSched s (targetOf s r)) cancelSched s)) :=
  congrArg Host.Outcome.next (runCmd_served (c := cmdTenantThaw r) hs (beq_iff_eq.2 hlen) rfl (by simp [cmdTenantThaw, hd])
    (if_pos (by simpa using hst)) rfl (fun _ => ⟨ha.1, .inl ha.2⟩))

/-! ### TENANT_SAVE -/

theorem exec_tenantSave_first {r : CmdReq} {s : State} (hs : Served 0x0505 (targetOf s r) (hasMgr s r.iss) r s) (ha : Acts r s)
    (hlen : r.plen = 8) (hd : s.domOn dHub = true) (hst : s.tnState (targetOf s r) = 3)
    (hq : (s.ten (targetOf s r)).quiesced = true) :
    Completes (.tenantSave r 0) s (Replies r 0x0505 0 (le 4 (stateBlob s (targetOf s r)).length ++ le 4 0 ++
      (stateBlob s (targetOf s r)).take 4032) (fun u => (u.ten (targetOf s r)).snapshot = some (stateBlob s (targetOf s r)))) := by
  have hsnap : ((s.modTen (targetOf s r) (fun t => { t with snapshot := some (stateBlob s (targetOf s r)) })).ten
      (targetOf s r)).snapshot = some (stateBlob s (targetOf s r)) := by
    rw [modTen_ten, if_pos rfl]
  refine ⟨_, congrArg Host.Outcome.next (runCmd_served hs (beq_iff_eq.2 hlen) rfl (by simp [hd]) (by simp [firstFail, hst, hq])
    rfl (fun _ => ⟨ha.1, .inl ha.2⟩)), _, hsnap, ?_⟩
  dsimp only
  rw [when_of _ _ (by rfl), hsnap]
  rfl

theorem exec_tenantSave_next {r : CmdReq} {offset : Nat} {b : Bytes} {s : State}
    (hs : Served 0x0505 (targetOf s r) (hasMgr s r.iss) r s) (ha : Acts r s) (hlen : r.plen = 8) (hd : s.domOn dHub = true)
    (hst : s.tnState (targetOf s r) = 3) (hq : (s.ten (targetOf s r)).quiesced = true) (h0 : offset ≠ 0)
    (hb : (s.ten (targetOf s r)).snapshot = some b) (hoff : offset < b.length) :
    Completes (.tenantSave r offset) s (Replies r 0x0505 0 (le 4 b.length ++ le 4 offset ++ (b.drop offset).take 4032) (· = s)) := by
  refine ⟨_, congrArg Host.Outcome.next (runCmd_served hs (beq_iff_eq.2 hlen) rfl (by simp [hd])
    (by simp [firstFail, hst, hq, blobLen, hb, hoff]) rfl (fun _ => ⟨ha.1, .inl ha.2⟩)), s, rfl, ?_⟩
  dsimp only
  rw [when_of_not _ _ (beq_eq_false_iff_ne.2 h0), hb]
  rfl

/-! ### TENANT_RESTORE -/

/-- A blob that is applied gives the tenant its generation, and leaves it in its state. -/
theorem applyBlob_spec (n : Nat) (keep : Bool) (b : Bytes) (s : State) :
    (applyBlob n keep b s).rd .TN_GENERATION n = num b 0x1B 1 % 16 ∧
      (applyBlob n keep b s).rd .TN_STATE n = s.rd .TN_STATE n := by
  unfold applyBlob
  extract_lets f s1 g s2 depth bucket s3 pend s4 s5 s6
  have hkeep {x : Fld} (hx : (foot_setBucket ||| foot_loadChan ||| foot_dirChanged).testBit (fbit x) = false) :
      (dirChanged (s6.rd .TN_HL n) s6).rd x n = s2.rd x n := by
    simp only [Nat.testBit_or, Bool.or_eq_false_iff] at hx
    obtain ⟨⟨hbucket, hload⟩, hdir⟩ := hx
    have h3 : s3.rd x n = s2.rd x n := (moves_setBucket (.refl _ s2) (within_self _)).reg x n 0 hbucket
    have h4 : s4.rd x n = s2.rd x n := each_induct (P := fun z => z.rd x n = s2.rd x n) _ h3 fun v z hz => (modVec_rd ..).trans hz
    have h5 : s5.rd x n = s2.rd x n := (modTen_rd ..).trans h4
    have h6 : s6.rd x n = s2.rd x n := each_induct (P := fun z => z.rd x n = s2.rd x n) _ h5 fun c z hz =>
      ((moves_loadChan (.refl _ z) (within_self _)).reg x n 0 hload).trans hz
    exact ((moves_dirChanged (.refl _ s6) (within_self _)).reg x n 0 hdir).trans h6
  have hw : Fld.TN_GENERATION.width = 4 := rfl
  refine ⟨(hkeep (by decide +kernel)).trans ?_, (hkeep (by decide +kernel)).trans ?_⟩
  · simp [s2, rd_wr_ite, hw, g]
  · have h1 : s1.rd .TN_STATE n = s.rd .TN_STATE n :=
      when_cases (P := fun z => z.rd .TN_STATE n = s.rd .TN_STATE n) rfl
        ((moves_modifyTn (.refl _ s) (within_self _)).reg .TN_STATE n 0 (by decide +kernel))
    simp [s2, rd_wr_ite, h1]

/-- What a piece of a blob gathers with those before it. -/
def restoreBytes (r : CmdReq) (offset : Nat) (data : Bytes) (s : State) : Bytes :=
  (if offset = 0 then [] else (s.ten (targetOf s r)).restoreBuf) ++ data

section
variable {r : CmdReq} {offset flags : Nat} {data : Bytes} {s : State}
  (hs : Served 0x0506 (targetOf s r) (hasMgr s r.iss) r s) (ha : Acts r s) (h9 : 9 ≤ r.plen) (hmax : r.plen ≤ 4040)
  (hlen : r.plen = 8 + data.length) (hd : s.domOn dHub = true) (hf : flags < 2)
  (ho : offset = 0 ∨ offset = (s.ten (targetOf s r)).restoreBuf.length) (hst : s.tnState (targetOf s r) = 3)
include hs ha h9 hmax hlen hd hf ho hst

/-- A piece that does not complete the blob is gathered. -/
theorem exec_tenantRestore_piece (hb : (restoreBytes r offset data s).length < 12 ∨
      (restoreBytes r offset data s).length < num (restoreBytes r offset data s) 8 4) :
    exec (.tenantRestore r offset flags data) s = .next (finish r 0x0506 0 []
      (s.modTen (targetOf s r) (fun t => { t with restoreBuf := restoreBytes r offset data s }))) := by
  have hown : firstFail [(offset != 0 && offset != (s.ten (targetOf s r)).restoreBuf.length, 5),
      (s.tnState (targetOf s r) != 3, 9)] = 0 := by
    rcases ho with h | h <;> simp [firstFail, h, hst]
  refine congrArg Host.Outcome.next ((runCmd_served hs (by simp [hlen] at h9 hmax ⊢; omega) (by simp [hf]) (by simp [hd]) hown
    rfl (fun _ => ⟨ha.1, .inl ha.2⟩)).trans (if_pos ?_))
  rwa [Bool.or_eq_true, decide_eq_true_eq, decide_eq_true_eq]

/-- The piece that completes a blob of which the checks find nothing has it applied. -/
theorem exec_tenantRestore_apply (hb : 12 ≤ (restoreBytes r offset data s).length)
    (hl : num (restoreBytes r offset data s) 8 4 ≤ (restoreBytes r offset data s).length)
    (hc : blobCheck (targetOf s r) (flags == 1) ((restoreBytes r offset data s).take (num (restoreBytes r offset data s) 8 4))
      (s.modTen (targetOf s r) (fun t => { t with restoreBuf := [] })) = 0) :
    exec (.tenantRestore r offset flags data) s = .next (finish r 0x0506 0 [] (applyBlob (targetOf s r) (flags == 1)
      ((restoreBytes r offset data s).take (num (restoreBytes r offset data s) 8 4))
      (s.modTen (targetOf s r) (fun t => { t with restoreBuf := [] })))) := by
  have hown : firstFail [(offset != 0 && offset != (s.ten (targetOf s r)).restoreBuf.length, 5),
      (s.tnState (targetOf s r) != 3, 9)] = 0 := by
    rcases ho with h | h <;> simp [firstFail, h, hst]
  refine congrArg Host.Outcome.next ((runCmd_served hs (by simp [hlen] at h9 hmax ⊢; omega) (by simp [hf]) (by simp [hd]) hown
    rfl (fun _ => ⟨ha.1, .inl ha.2⟩)).trans ((if_neg ?_).trans ?_))
  · rw [Bool.or_eq_true, decide_eq_true_eq, decide_eq_true_eq]
    exact not_or.2 ⟨Nat.not_lt.2 hb, Nat.not_lt.2 hl⟩
  · simp only [restoreBytes] at hc ⊢
    rw [hc]
    rfl

end

/-- Settles O27: the freeze is scheduled, reached and ends quiet; thaw undoes it; the blob is given out and taken in. -/
theorem migration : Obligations.Migration := by
  refine ⟨fun r s hs ha hlen hd hst => ?_, fun tn e s he => ⟨fun hst => ?_, fun hst hm hlen hresv hun hfor hre hd => ?_⟩,
    fun tn s hst hq ho hf hquiet => exec_freezeQuiesced hst hq ho hf hquiet,
    fun r s hs ha hlen hd => ⟨fun hst => ?_, fun e hst he => ?_⟩,
    fun r offset s hs ha hlen hd hst hq => ⟨fun h0 => ?_, fun b h0 hb hoff => ?_⟩,
    fun r offset flags data s hs ha h9 hmax hlen hd hf ho hst => ⟨fun hb => ?_, fun hb hl hc => ?_⟩⟩
  · have htarget : targetOf (s.wr .TN_FREEZE_SET 1 (targetOf s r)) r = targetOf s r :=
      targetOf_eq (fun f => rd_wr_ne s (by simp)) r
    have hera : (s.wr .TN_FREEZE_SET 1 (targetOf s r)).eraEpoch = s.eraEpoch :=
      eraEpoch_eq rfl (rd_wr_ne s (by simp))
    refine ⟨_, exec_tenantFreeze hs ha hlen hd hst, ?_, _, boundaryAt_sched .., rfl, htarget, congrArg (· + 1) hera⟩
    exact ((moves_freeCtx (.refl _ _) (within_self _)).reg .TN_FREEZE_SET _ _ (by decide +kernel)).trans
      ((modKeeper_rd ..).trans (rd_wr ..))
  · refine ⟨_, exec_freezePoint he, ?_⟩
    rw [if_pos hst]
    exact ⟨hst, List.mem_map.2 ⟨e, (dueSched_freeze he).1, if_pos rfl⟩⟩
  · refine ⟨_, exec_freezePoint he, ?_⟩
    rw [if_neg (by rw [hst]; decide)]
    exact runSched_freeze (dueSched_freeze he).2 tn.isLt hst hm hlen hresv hun hfor hre hd
  · exact ⟨_, exec_tenantThaw hs ha hlen hd (.inl hst), _, (if_pos hst).symm ▸ thawTn_state _ s, rfl⟩
  · have hdrain : draining s = false := by
      obtain ⟨-, -, hk, -⟩ := hs
      rcases hk with hk | hk <;> simp [draining, hk]
    obtain ⟨hc, hn⟩ := freezeSched_some he
    refine ⟨_, exec_tenantThaw hs ha hlen hd (.inr (by rw [he]; rfl)), _, ?_, rfl⟩
    rw [if_neg hst, he]
    exact cancelSched_freeze hdrain hc hn
  · subst h0
    exact exec_tenantSave_first hs ha hlen hd hst hq
  · exact exec_tenantSave_next hs ha hlen hd hst hq h0 hb hoff
  · refine ⟨_, exec_tenantRestore_piece hs ha h9 hmax hlen hd hf ho hst hb, _, ⟨?_, modTen_rd ..⟩, rfl⟩
    rw [modTen_ten, if_pos rfl]
    rfl
  · obtain ⟨hgen, hstate⟩ := applyBlob_spec (targetOf s r) (flags == 1)
      ((restoreBytes r offset data s).take (num (restoreBytes r offset data s) 8 4))
      (s.modTen (targetOf s r) (fun t => { t with restoreBuf := [] }))
    refine ⟨_, exec_tenantRestore_apply hs ha h9 hmax hlen hd hf ho hst hb hl hc, _, ⟨?_, ?_⟩, rfl⟩
    · unfold restoreBytes at hgen ⊢
      exact hgen
    · exact hstate.trans ((modTen_rd ..).trans hst)

end Sys2Proof.Proofs
end

section
/-!
A count of a clock that has not run (R406): the statement on clocks asks for the edges, and the count is 0.
-/
namespace Sys2Proof.Proofs
open Sys2Proof Sys2Proof.Machine Sys2Proof.Laws
set_option Elab.async false

/-- A register count runs, and its clock has been stopped since it began. -/
def countingStopped : State := State.reset.wr .CK_BUSY 1

theorem exec_freqCountEnd_stopped :
    exec (.freqCountEnd 1) countingStopped = .next (((countingStopped.wr .CK_FC_COUNT 0).wr .CK_BUSY 0).wr .CK_DONE 1) :=
  congrArg Host.Outcome.next (when_of _ countingStopped (by decide +kernel))

/-- Refutes O28: the clause on the end of a register count asks for the edges given, and a clock that has been stopped
throughout counts 0. -/
theorem not_clocks : ¬ Obligations.Clocks := by
  rintro ⟨-, -, -, hcount, -⟩
  obtain ⟨t, ht, hread, -⟩ := hcount 1 countingStopped (by decide +kernel) (by decide)
  rw [exec_freqCountEnd_stopped, Host.Outcome.next.injEq] at ht
  have hzero : t.rd .CK_FC_COUNT = 0 := by
    rw [← ht, rd_wr_ne _ (by decide), rd_wr_ne _ (by decide), rd_wr, Nat.zero_mod]
  exact absurd (hread.symm.trans hzero) (by decide)

end Sys2Proof.Proofs
end

section
/-!
The last step of PD_HUB's wake (R24, R415): the tiller resets that waited for it end in the same step, and each of their domains
is counted as a wake too, where the statement asks for one.
-/
namespace Sys2Proof.Proofs
open Sys2Proof Sys2Proof.Machine Sys2Proof.Laws
set_option Elab.async false

/-- PD_HUB is at its logic step, and the reset of tiller 0 has run its steps and waits for it. -/
def hubWaking : State :=
  { State.reset with
    regs := [(⟨.PW_STATE, 0, 1⟩, 3), (⟨.PW_STATE, 0, 2⟩, 3), (⟨.PW_REG_RDY, 0, 1⟩, 1), (⟨.PW_CLK_RDY, 0, 1⟩, 1),
      (⟨.PW_MEM_RDY, 0, 1⟩, 1), (⟨.PW_LOGIC_RDY, 0, 2⟩, 1)]
    doms := [(1, ⟨true, false, true, false, none⟩), (2, ⟨false, false, true, false, some 0⟩)] }

/-- WAKE_CNT in the next state of a step. -/
def wakeCount : Res → Nat
  | .next t => t.rd .PW_WAKE_CNT
  | _ => 0

/-- The step counts PD_HUB's wake and that of tiller 0's domain. -/
theorem wakeCount_hubWaking : wakeCount (exec (.wakeStepReady 1 []) hubWaking) = 2 := by decide +kernel

/-- Refutes O30: the logic step of PD_HUB raises WAKE_CNT by more than one where a tiller reset waited for it. -/
theorem not_wakeSteps : ¬ Obligations.WakeSteps := by
  rintro ⟨hwake, -⟩
  obtain ⟨-, -, -, hlogic⟩ := hwake 1 [] hubWaking (by decide +kernel)
  obtain ⟨t, ht, -, hcount⟩ := hlogic (by decide +kernel) (by decide +kernel) (by decide +kernel) (by decide +kernel)
    (by decide +kernel) (fun p hp => nomatch hp)
  have htwo := wakeCount_hubWaking
  rw [ht] at htwo
  exact absurd (htwo.symm.trans hcount) (by decide +kernel)

end Sys2Proof.Proofs
end

section
/-!
A stream whose base lies past 2^64 (R465): host addresses are 64-bit numbers, and the statement on the trace takes the base as it
stands.
-/
namespace Sys2Proof.Proofs
open Sys2Proof Sys2Proof.Machine Sys2Proof.Laws
set_option Elab.async false

/-- The stream is on, with four records held for its next line, and its base is 2^64. -/
def streamingPast : State :=
  { State.reset with
    regs := [(⟨.HL_DL_UP, 0, 0⟩, 1), (⟨.TR_STREAM_ON, 0, 0⟩, 1), (⟨.TR_NEXT, 0, 0⟩, 4), (⟨.PW_STATE, 0, 1⟩, 2)]
    cfg := [(0, { FnCfg.reset with bme := true })]
    trace := { State.reset.trace with
      ring := [(0, ⟨0, 0, 0, 0⟩), (1, ⟨0, 0, 0, 0⟩), (2, ⟨0, 0, 0, 0⟩), (3, ⟨0, 0, 0, 0⟩)], strBase := 2 ^ 64 } }

/-- The addresses of the requests that wait in the next state of a step. -/
def hostAddrs : Res → List Nat
  | .next t => t.hostQ.map (·.addr)
  | _ => []

/-- The line and the producer count go to address 0. -/
theorem hostAddrs_streamingPast : hostAddrs (exec .streamBatchWrite streamingPast) = [0, 0] := by decide +kernel

/-- Refutes O33: the clause on a full line asks for the address BASE + 16 × place as a number, and a base of 2^64 has the line
written at address 0. -/
theorem not_traceAndJtag : ¬ Obligations.TraceAndJtag := by
  rintro ⟨-, -, -, -, hbatch, -⟩
  obtain ⟨t, ht, -, -, a, b, hq, -, -, haddr, -⟩ := hbatch streamingPast (by decide +kernel) (by decide +kernel) (by decide +kernel)
    (by decide +kernel) (by decide +kernel) (by decide +kernel)
  have hzero := hostAddrs_streamingPast
  rw [ht] at hzero
  have hlist : [a.addr, b.addr] = [0, 0] := by
    rw [← hzero, hostAddrs, hq]
    rfl
  have ha : a.addr = 0 := List.head_eq_of_cons_eq hlist
  exact absurd (haddr.symm.trans ha) (by decide +kernel)

end Sys2Proof.Proofs
end

section
/-!
Interrupts: the end of a holdoff, moderation, enables and unmasking (R320 to R324).
-/
namespace Sys2Proof.Proofs
open Sys2Proof Sys2Proof.Machine Sys2Proof.Laws
set_option Elab.async false

/-- A vector reads as last changed; every other vector reads as before. -/
theorem modVec_vec (s : State) (f v : Nat) (g : Vec → Vec) (f' v' : Nat) :
    (s.modVec f v g).vec f' v' = if f' * 128 + v' = f * 128 + v then g (s.vec f v) else s.vec f' v' := tget_tset ..

theorem modVec_vec_same (s : State) (f v : Nat) (g : Vec → Vec) : (s.modVec f v g).vec f v = g (s.vec f v) := by
  rw [modVec_vec, if_pos rfl]

/-! ### A vector's Mask bit -/

/-- Every vector's Mask bit stands as it stood. -/
def MasksKept (r s : State) : Prop := ∀ f v, (s.vec f v).masked = (r.vec f v).masked

theorem MasksKept.of_vecs {r s : State} (h : s.vecs = r.vecs) : MasksKept r s := fun f v => by
  rw [State.vec, State.vec, h]

theorem MasksKept.trans {r s t : State} (h : MasksKept r s) (h' : MasksKept s t) : MasksKept r t := fun f v =>
  (h' f v).trans (h f v)

theorem masksKept_modVec (s : State) (f v : Nat) {g : Vec → Vec} (hg : ∀ x, (g x).masked = x.masked) :
    MasksKept s (s.modVec f v g) := fun f' v' => by
  rw [modVec_vec]
  split_ifs with h
  · rw [hg, State.vec, State.vec, h]
  · rfl

theorem masksKept_pendVec (f v : Nat) (s : State) : MasksKept s (pendVec f v s) :=
  (MasksKept.of_vecs (when_cases (P := fun z => z.vecs = s.vecs) rfl rfl)).trans (masksKept_modVec _ f v fun _ => rfl)

theorem masksKept_sendVec (f v : Nat) (s : State) : MasksKept s (sendVec f v s) :=
  masksKept_modVec s f v (g := fun x => { x with
    ticksLeft := s.rd .FI_MOD_TICKS f v, since := 0, pba := x.pba && x.restored }) fun _ => rfl

theorem masksKept_raiseVecWith {asleep : State → State} {f v : Nat} {s : State} (h : ∀ z, MasksKept z (asleep z)) :
    MasksKept s (raiseVecWith asleep f v s) := by
  unfold raiseVecWith
  split_ifs
  · exact .of_vecs rfl
  · exact .of_vecs rfl
  · exact masksKept_modVec s f v fun _ => rfl
  · exact .of_vecs (when_cases (P := fun z => (z.wr .FI_WAITING 1 f v).vecs = s.vecs) rfl rfl)
  · exact masksKept_pendVec f v s
  · exact masksKept_sendVec f v s
  · exact when_cases (P := MasksKept s) (masksKept_pendVec f v s) (MasksKept.trans (masksKept_pendVec f v s) (h _))

theorem masksKept_raiseCauseWith {asleep : State → State} {f : Nat} {c : Cause} {s : State} (h : ∀ z, MasksKept z (asleep z)) :
    MasksKept s (raiseCauseWith asleep f c s) := by
  unfold raiseCauseWith
  split_ifs
  · exact when_cases (P := MasksKept s) (.of_vecs rfl)
      (MasksKept.trans (s := s.wr c.fld 1 f) (.of_vecs rfl) (masksKept_raiseVecWith h))
  · exact when_cases (P := MasksKept s) (.of_vecs rfl) (.of_vecs rfl)
  · exact .of_vecs rfl

theorem masksKept_pmeSignal (p : Nat) (s : State) : MasksKept s (pmeSignal p s) := by
  have hmsg (z : State) : MasksKept z (sendMsg p .pmPme z) :=
    .of_vecs ((moves_sendMsg (.refl _ z) (within_self _)).part .vecs (by decide +kernel))
  unfold pmeSignal
  extract_lets h s1 s2
  split_ifs
  · exact MasksKept.trans (s := s2.wr .HL_PME_WAKE 1 h) (.of_vecs rfl) (masksKept_raiseCauseWith fun z => .of_vecs rfl)
  · exact MasksKept.trans (s := s1) (.of_vecs rfl) (hmsg s1)
  · exact .of_vecs rfl

/-! ### What sending and releasing a vector does -/

/-- A vector that nothing keeps back is raised by its message. -/
theorem raiseVec_sends {f v : Nat} {s : State} (hv : v < s.rd .FI_VEC_COUNT f) (hen : (s.cf f).msixEn = true)
    (hres : fnResetting s f = false) (hhold : s.rd .FI_HOLDOFF f v = 0) (hmask : (s.vec f v).masked = false)
    (hfmask : (s.cf f).fmask = false) (hsend : canSend s f = true) : raiseVec f v s = sendVec f v s := by
  have hon : s.on .FI_HOLDOFF f v = false := by simp [State.on, hhold]
  rw [raiseVec, raiseVecWith, if_neg (Nat.not_le.2 hv), if_neg (by simp [hen]), if_neg (by simp [hres]), if_neg (by simp [hon]),
    if_neg (by simp [hmask, hfmask]), if_pos hsend]

theorem fnResetting_eq_false {s : State} {f : Nat} (h : ∀ n, s.boundTn f = some n → s.tnState n ≠ 2) :
    fnResetting s f = false := by
  unfold fnResetting
  split
  next n hn => simpa using h n hn
  · rfl

/-- The message of a vector goes behind what waits, and its holdoff begins. -/
theorem sendVec_spec (fn : Fn) (v : Nat) (s : State) :
    (sendVec (fnIdx fn) v s).rd .FI_HOLDOFF (fnIdx fn) v = (if s.rd .FI_MOD_TICKS (fnIdx fn) v = 0 then 0 else 1) ∧
    (∃ q, (sendVec (fnIdx fn) v s).hostQ = s.hostQ ++ [q] ∧ q.fn = fn ∧ q.kind = .write ∧ q.src = .msix v none) ∧
    ((sendVec (fnIdx fn) v s).vec (fnIdx fn) v).pba = ((s.vec (fnIdx fn) v).pba && (s.vec (fnIdx fn) v).restored) := by
  refine ⟨?_, ⟨_, rfl, fnOf_fnIdx fn, rfl, rfl⟩, ?_⟩
  · refine (rd_wr ..).trans ?_
    split_ifs <;> rfl
  · exact congrArg Vec.pba (modVec_vec_same s (fnIdx fn) v fun x => { x with
      ticksLeft := s.rd .FI_MOD_TICKS (fnIdx fn) v, since := 0, pba := x.pba && x.restored })

/-- A vector whose PBA bit is clear is not released. -/
theorem releaseVec_of_not_pba {f v : Nat} {s : State} (h : (s.vec f v).pba = false) : releaseVec f v s = s := by
  rw [releaseVec, when_of_not]
  simp [h]

theorem masksKept_releaseVec (f v : Nat) (s : State) : MasksKept s (releaseVec f v s) := by
  unfold releaseVec
  refine when_cases (P := MasksKept s) (.of_vecs rfl) ?_
  split_ifs
  · exact MasksKept.trans (masksKept_modVec s f v (g := fun x => { x with pba := false, restored := false }) fun _ => rfl)
      (masksKept_sendVec f v _)
  · exact when_cases (P := MasksKept s) (.of_vecs rfl) (masksKept_pmeSignal _ s)

/-- A vector with its PBA bit set that nothing keeps back is released by its message. -/
theorem releaseVec_sends {f v : Nat} {s : State} (hpba : (s.vec f v).pba = true) (hen : (s.cf f).msixEn = true)
    (hmask : (s.vec f v).masked = false) (hfmask : (s.cf f).fmask = false) (hhold : s.rd .FI_HOLDOFF f v = 0)
    (hres : fnResetting s f = false) (hthaw : waitsThaw s f v = false) (hsend : canSend s f = true) :
    releaseVec f v s = sendVec f v (s.modVec f v (fun x => { x with pba := false, restored := false })) := by
  have hon : s.on .FI_HOLDOFF f v = false := by simp [State.on, hhold]
  rw [releaseVec, when_of, if_pos hsend]
  simp [hpba, hen, hmask, hfmask, hon, hres, hthaw]

/-! ### The statement -/

/-- A holdoff that has run out ends: the vector no longer holds and no longer waits. -/
theorem holdoffEnd_runs {fn : Fn} {v : Fin 128} {s : State} (h : s.rd .FI_HOLDOFF (fnIdx fn) v = 1)
    (h0 : (s.vec (fnIdx fn) v).ticksLeft = 0) (ht : s.tlOn (hlTiller fn.hl) = true) :
    exec (.holdoffEnd fn v) s = .next (endHoldoff (fnIdx fn) v s) :=
  congrArg Host.Outcome.next (when_of _ s (by simp [State.on, h, h0, fnHl_fnIdx, ht]))

/-- The state of a vector whose holdoff has just ended. -/
def holdoffOver (f v : Nat) (s : State) : State :=
  ((s.wr .FI_HOLDOFF 0 f v).wr .FI_WAITING 0 f v).modVec f v (fun x => { x with ticksLeft := 0 })

theorem endHoldoff_eq (f v : Nat) (s : State) : endHoldoff f v s =
    if s.on .FI_WAITING f v then raiseVec f v (holdoffOver f v s) else releaseVec f v (holdoffOver f v s) := rfl

/-- Besides the vector, only its two flags move. -/
theorem holdoffOver_rd (f v : Nat) (s : State) (g : Fld) (i j : Nat) : (holdoffOver f v s).rd g i j =
    if (g = .FI_HOLDOFF ∨ g = .FI_WAITING) ∧ i = f ∧ j = v then 0 else s.rd g i j := by
  unfold holdoffOver
  rw [modVec_rd]
  by_cases hg : g = .FI_HOLDOFF <;> by_cases hg' : g = .FI_WAITING <;> simp [rd_wr_ite, hg, hg']

theorem holdoffOver_vec (f v : Nat) (s : State) : (holdoffOver f v s).vec f v = { s.vec f v with ticksLeft := 0 } :=
  modVec_vec_same ..

/-- A vector that does not wait and holds no event sends nothing. -/
theorem endHoldoff_idle {f v : Nat} {s : State} (hw : s.rd .FI_WAITING f v = 0) (hp : (s.vec f v).pba = false) :
    endHoldoff f v s = holdoffOver f v s := by
  rw [endHoldoff_eq, if_neg (by simp [State.on, hw]), releaseVec_of_not_pba]
  rw [holdoffOver_vec]
  exact hp

/-- A waiting vector sends its message at the end of its holdoff. -/
theorem endHoldoff_sends {f v : Nat} {s : State} (hw : s.rd .FI_WAITING f v = 1) (hv : v < s.rd .FI_VEC_COUNT f)
    (hen : (s.cf f).msixEn = true) (hres : ∀ n, s.boundTn f = some n → s.tnState n ≠ 2) (hm : (s.vec f v).masked = false)
    (hfm : (s.cf f).fmask = false) (hsend : canSend s f = true) :
    endHoldoff f v s = sendVec f v (holdoffOver f v s) := by
  rw [endHoldoff_eq, if_pos (by simp [State.on, hw]), raiseVec_sends]
  · simpa [holdoffOver_rd] using hv
  · exact hen
  · refine fnResetting_eq_false ?_
    simpa [State.boundTn, State.tnState, holdoffOver_rd] using hres
  · simp [holdoffOver_rd]
  · rw [holdoffOver_vec]
    exact hm
  · exact hfm
  · have hreact : (holdoffOver f v s).react = s.react := by simp [State.react, State.on, holdoffOver_rd]
    rw [canSend, hreact]
    exact hsend

/-! ### Writes of the registers -/

/-- A write of MOD_TICKS is stored, whether a holdoff runs or not. -/
theorem writeModTicks_rd {f v n : Nat} (hn : n < 256) (s : State) : (writeModTicks f v n s).rd .FI_MOD_TICKS f v = n := by
  have hw : (s.wr .FI_MOD_TICKS n f v).rd .FI_MOD_TICKS f v = n := (rd_wr ..).trans (Nat.mod_eq_of_lt hn)
  have hend (z : State) : (endHoldoff f v z).rd .FI_MOD_TICKS f v = z.rd .FI_MOD_TICKS f v :=
    (moves_endHoldoff (.refl _ z) (within_self _)).reg .FI_MOD_TICKS f v (by decide +kernel)
  unfold writeModTicks
  extract_lets s1 s2
  split_ifs
  · exact when_cases (P := fun z => z.rd .FI_MOD_TICKS f v = n) hw ((hend s2).trans hw)
  · exact hw

/-- A write of FN_EVENT_EN is stored, but for the enables that the function does not hold. -/
theorem writeFnEventEn_rd (f v : Nat) (s : State) :
    (writeFnEventEn f v s).rd .FI_FN_EVENT_EN f = v &&& (if fnVf f = 0 then 0x3F07 else 0x0007) := by
  unfold writeFnEventEn
  extract_lets old new s1
  have hraise (u : Nat) (z : State) : (raiseVec f u z).rd .FI_FN_EVENT_EN f = z.rd .FI_FN_EVENT_EN f :=
    (moves_raiseVec (.refl _ z) (within_self _)).reg .FI_FN_EVENT_EN f 0 (by decide +kernel)
  have hs1 : s1.rd .FI_FN_EVENT_EN f = new := by
    refine (rd_wr ..).trans (Nat.mod_eq_of_lt (lt_of_le_of_lt Nat.and_le_right ?_))
    split_ifs <;> decide
  exact each_induct _ (P := fun z => z.rd .FI_FN_EVENT_EN f = new) hs1
    fun c z hz => when_cases (P := fun z => z.rd .FI_FN_EVENT_EN f = new) hz ((hraise _ _).trans hz)

/-- A write of CH_IRQ is stored. -/
theorem writeChIrq_rd (c v : Nat) (s : State) :
    (writeChIrq c v s).rd .CH_VEC_HALF c = v % 128 ∧ (writeChIrq c v s).rd .CH_HALF_EN c = v / 2 ^ 7 % 2 ∧
    (writeChIrq c v s).rd .CH_VEC_FULL c = v / 2 ^ 8 % 128 ∧ (writeChIrq c v s).rd .CH_FULL_EN c = v / 2 ^ 15 % 2 ∧
    (writeChIrq c v s).rd .CH_VEC_ERR c = v / 2 ^ 16 % 128 ∧ (writeChIrq c v s).rd .CH_ERR_EN c = v / 2 ^ 23 % 2 := by
  unfold writeChIrq
  extract_lets was s1
  have hraise (f u : Nat) (z : State) {g : Fld} (hg : foot_raiseVec.testBit (fbit g) = false) :
      (raiseVec f u z).rd g c = z.rd g c := (moves_raiseVec (.refl _ z) (within_self _)).reg g c 0 hg
  have hkept {g : Fld} (hg : foot_raiseVec.testBit (fbit g) = false) (l : List ((Fld × Fld × Fld) × Bool)) :
      (each l (fun e s => when (!e.2 && s.on e.1.2.1 c && s.on e.1.1 c)
        (fun s => raiseVec (s.tnFn (s.rd .CH_TNID c)) (s.rd e.1.2.2 c) s) s) s1).rd g c = s1.rd g c :=
    each_induct _ (P := fun z => z.rd g c = s1.rd g c) rfl
      fun e z hz => when_cases (P := fun z => z.rd g c = s1.rd g c) hz ((hraise _ _ _ hg).trans hz)
  rw [hkept (by decide +kernel), hkept (by decide +kernel), hkept (by decide +kernel), hkept (by decide +kernel),
    hkept (by decide +kernel), hkept (by decide +kernel)]
  have h1 : Fld.CH_VEC_HALF.width = 7 := rfl
  have h2 : Fld.CH_HALF_EN.width = 1 := rfl
  have h3 : Fld.CH_VEC_FULL.width = 7 := rfl
  have h4 : Fld.CH_FULL_EN.width = 1 := rfl
  have h5 : Fld.CH_VEC_ERR.width = 7 := rfl
  have h6 : Fld.CH_ERR_EN.width = 1 := rfl
  simp [s1, rd_wr_ite, h1, h2, h3, h4, h5, h6]

/-- Settles O36: each clause by what the event or the write does to its one vector, function or channel. -/
theorem interrupts : Obligations.Interrupts := by
  refine ⟨fun fn v s h h0 ht => ⟨fun hw hp => ⟨_, holdoffEnd_runs h h0 ht, ?_⟩,
    fun hw hv hen hres hm hfm hsend => ⟨_, holdoffEnd_runs h h0 ht, ?_⟩⟩, ?_, ?_, ?_, ?_⟩
  · rw [endHoldoff_idle hw hp]
    exact ⟨by simp [holdoffOver_rd], rfl⟩
  · rw [endHoldoff_sends hw hv hen hres hm hfm hsend]
    obtain ⟨hhold, hq, -⟩ := sendVec_spec fn v (holdoffOver (fnIdx fn) v s)
    exact ⟨(rd_wr_ne _ (by simp)).trans (by simp [holdoffOver_rd]), by simpa [holdoffOver_rd] using hhold, hq⟩
  · intro fn v k s hfn hv
    exact ⟨_, congrArg Host.Outcome.next (when_of _ s (by simp [hfn, hv])), writeModTicks_rd (by omega) s⟩
  · intro fn v s hfn
    refine ⟨_, congrArg Host.Outcome.next (when_of _ s (by simp [hfn])), ?_⟩
    exact (writeFnEventEn_rd ..).trans (by simp [fnVf_fnIdx])
  · intro fn ch v s hch
    exact ⟨_, congrArg Host.Outcome.next (when_of _ s (by simp [hch])), writeChIrq_rd ..⟩
  · intro fn v s hfn hr hv
    refine ⟨_, congrArg Host.Outcome.next (when_of _ s (by simp [hfn, hr, hv])), ?_, ?_⟩
    · rw [masksKept_releaseVec]
      exact congrArg Vec.masked (modVec_vec_same ..)
    · intro hp hen hfm hh hres hsend hth
      have hu := modVec_vec_same s (fnIdx fn) v fun x => { x with masked := false }
      rw [releaseVec_sends (congrArg Vec.pba hu |>.trans hp) hen (congrArg Vec.masked hu) hfm hh hres
        (by rw [waitsThaw, hu]; exact hth) hsend]
      obtain ⟨-, ⟨q, hq, hqf, -, hqs⟩, hpba⟩ := sendVec_spec fn v ((s.modVec (fnIdx fn) v
        (fun x => { x with masked := false })).modVec (fnIdx fn) v (fun x => { x with pba := false, restored := false }))
      exact ⟨hpba.trans (by rw [modVec_vec_same]; rfl), q, hq, hqf, hqs⟩

end Sys2Proof.Proofs
end

section
/-!
Firmware update: delivery, activation, trial, confirmation and abort (R440 to R453).
-/
namespace Sys2Proof.Proofs
open Sys2Proof Sys2Proof.Machine Sys2Proof.Laws
set_option Elab.async false

/-! ### The update's state -/

theorem slot_setSlot (u : UpdS) (i : Nat) (x : SlotS) : (u.setSlot i x).slot i = x := by
  unfold UpdS.setSlot UpdS.slot
  split_ifs <;> rfl

theorem setUpdState_upd (n : Nat) (s : State) : (setUpdState n s).upd = { s.upd with state := n } := by
  unfold setUpdState
  extract_lets old
  by_cases h : s.upd.state = n
  · rw [when_of_not _ _ (by simp [old, h]), ← h]
  · rw [when_of _ _ (by simpa [old] using h)]
    exact (moves_traceNone (.refl _ _) (within_self _)).part .upd (by decide +kernel)

theorem setUpdState_keeper (n : Nat) (s : State) : (setUpdState n s).keeper = s.keeper :=
  (moves_setUpdState (.refl _ s) (within_self _)).part .keeper (by decide +kernel)

theorem journalUpd_upd (event slot : Nat) (s : State) : (journalUpd event slot s).upd = s.upd :=
  (moves_journalUpd (.refl _ s) (within_self _)).part .upd (by decide +kernel)

/-- The instant stays while the era and the tick do. -/
theorem SameTick.eraEpoch_eq {s t : State} (h : SameTick s t) (hs : s.cad.stamp < 2 ^ 64) (hera : t.rd .CAD_ERA = s.rd .CAD_ERA) :
    t.eraEpoch = s.eraEpoch := by
  rw [State.eraEpoch, State.eraEpoch, State.era, State.era, hera, epoch_eq_of_tick (h.2 hs).2]

theorem SameTick.traceNone {r s : State} {code arg : Nat} (h : SameTick r s) : SameTick r (traceNone code arg s) := h.trace

theorem SameTick.setUpdState {r s : State} {n : Nat} (h : SameTick r s) : SameTick r (setUpdState n s) := by
  unfold Machine.setUpdState
  exact when_cases (P := SameTick r) h (SameTick.traceNone (h.of_cad rfl))

theorem SameTick.sendReply {r s : State} {q : CmdReq} {op status gen : Nat} {interim : Bool} {data : Bytes} (h : SameTick r s) :
    SameTick r (sendReply q op status interim data gen s) := by
  unfold Machine.sendReply
  extract_lets s1
  have h1 : SameTick r s1 := h.advance
  cases q.iss with
  | fn fn =>
    dsimp only
    split_ifs
    · refine SameTick.keep (h1.of_cad ?_) (moves_raiseCause (.refl _ _) (within_self _)) (by decide +kernel)
      exact when_cases (P := fun z => z.cad = s1.cad) rfl rfl
    · exact h1
  | smp => exact when_cases (P := SameTick r) (h1.of_cad rfl) (h1.of_cad rfl)

theorem SameTick.finishCore {r s : State} {q : CmdReq} {op status gen : Nat} {data : Bytes} (h : SameTick r s) :
    SameTick r (finishCore q op status data gen s) := by
  unfold Machine.finishCore
  extract_lets s1 s2 s3 s4 s5 s6
  have h2 : SameTick r s2 := when_cases (P := SameTick r) (h.of_cad rfl) (h.of_cad rfl)
  have h3 : SameTick r s3 := when_cases (P := SameTick r) h2 (h2.of_cad rfl)
  have h5 : SameTick r s5 := by
    simp only [s5]
    split_ifs
    · exact h3.traceNone
    · exact h3.traceNone.sendReply
  have h6 : SameTick r s6 := h5.keep (moves_freeCtx (.refl _ _) (within_self _)) (by decide +kernel)
  cases q.iss with
  | fn f =>
    exact when_cases (P := SameTick r) h6 (when_cases (P := SameTick r) (h6.of_cad rfl) (h6.of_cad rfl))
  | smp => exact h6.of_cad rfl

/-! ### Delivery -/

theorem acceptHeader_upd (h : Bytes) (s : State) : (acceptHeader h s).upd.state = 1 ∧
    (acceptHeader h s).upd.recvSlot = recvOf s.upd ∧ (acceptHeader h s).upd.slot (recvOf s.upd) = ⟨false, h, [], []⟩ := by
  unfold acceptHeader
  extract_lets i s1
  rw [setUpdState_upd, journalUpd_upd]
  exact ⟨rfl, rfl, slot_setSlot s.upd i ⟨false, h, [], []⟩⟩

/-- The half held last is the one found for its chunk and piece. -/
theorem heldHalf_holdHalf (l : List (Nat × Nat × Bytes)) (i p : Nat) (d : Bytes) : heldHalf (holdHalf l i p d).2 i p = some d := by
  unfold holdHalf heldHalf
  extract_lets rest full
  have hrest : ∀ x ∈ (if full = true then rest.drop 1 else rest), ¬ (x.1 == i && x.2.1 == p) = true := by
    intro x hx
    have hmem : x ∈ rest := by
      split_ifs at hx
      · exact List.mem_of_mem_drop hx
      · exact hx
    simpa only [Bool.not_eq_true', Bool.not_eq_true] using (List.mem_filter.1 hmem).2
  rw [List.find?_append, List.find?_eq_none.2 hrest]
  simp

/-- Holding a half adds no half of another piece. -/
theorem heldHalf_holdHalf_none {l : List (Nat × Nat × Bytes)} {i p q : Nat} {d : Bytes} (hq : q ≠ p) (h : heldHalf l i q = none) :
    heldHalf (holdHalf l i p d).2 i q = none := by
  unfold heldHalf at h ⊢
  unfold holdHalf
  extract_lets rest full
  rw [Option.map_eq_none_iff, List.find?_eq_none] at h ⊢
  intro x hx
  rcases List.mem_append.1 hx with hx | hx
  · refine h x ?_
    have hmem : x ∈ rest := by
      split_ifs at hx
      · exact List.mem_of_mem_drop hx
      · exact hx
    exact (List.mem_filter.1 hmem).1
  · rw [List.mem_singleton.1 hx]
    simp [hq.symm]

/-- A first half is held and answered. -/
theorem takeHalf_first {r : CmdReq} {i p : Nat} {d : Bytes} {s : State} (hp : p ≤ 1) (h : heldHalf s.upd.pieces i (1 - p) = none) :
    ∃ b, Replies r 0x0802 0 b (fun u => heldHalf u.upd.pieces i p = some d ∧ u.upd.state = s.upd.state) (takeHalf r i p d s) := by
  have hother : heldHalf (holdHalf s.upd.pieces i p d).2 i (1 - p) = none := heldHalf_holdHalf_none (by omega) h
  have hone : heldHalf (holdHalf s.upd.pieces i p d).2 i 0 = none ∨ heldHalf (holdHalf s.upd.pieces i p d).2 i 1 = none := by
    rcases Nat.le_one_iff_eq_zero_or_eq_one.1 hp with rfl | rfl
    · exact .inr hother
    · exact .inl hother
  refine ⟨chunkReply (s.modUpd (fun u => { u with pieces := (holdHalf s.upd.pieces i p d).2 })) 0
    (if (holdHalf s.upd.pieces i p d).1 then 1 else 0), s.modUpd (fun u => { u with pieces := (holdHalf s.upd.pieces i p d).2 }),
    ⟨heldHalf_holdHalf .., rfl⟩, ?_⟩
  unfold takeHalf
  dsimp only
  split
  next a b ha hb =>
    rcases hone with h0 | h1
    · rw [h0] at ha
      cases ha
    · rw [h1] at hb
      cases hb
  · rfl

/-! ### Status -/

/-- A status reply begins with the state and the slot, 0xFF in IDLE. -/
theorem statusReply_eq (s : State) (start progress : Nat) (image : Bytes × Bytes) : ∃ rest,
    statusReply s start progress image = le 1 s.upd.state ++ le 1 (if s.upd.state = 0 then 0xFF else s.upd.recvSlot) ++ rest := by
  unfold statusReply
  extract_lets idle h x rs told next flags
  have hidle : (if idle = true then 0xFF else s.upd.recvSlot) = if s.upd.state = 0 then 0xFF else s.upd.recvSlot := by simp [idle]
  rw [hidle]
  simp only [List.append_assoc]
  exact ⟨_, rfl⟩

theorem statusReply_busy {s : State} {start progress : Nat} {image : Bytes × Bytes} (h : s.upd.state ≠ 0) :
    num (statusReply s start progress image) 0 1 = s.upd.state % 256 ∧
    num (statusReply s start progress image) 1 1 = s.upd.recvSlot % 256 := by
  obtain ⟨rest, hr⟩ := statusReply_eq s start progress image
  rw [hr, if_neg h, num_append_left (by simp), num_append_left (by simp), num_append_left (by simp),
    num_append_right (by simp), num_le]
  exact ⟨rfl, by simp [num_le]⟩

theorem statusReply_idle {s : State} {start progress : Nat} {image : Bytes × Bytes} (h : s.upd.state = 0) :
    num (statusReply s start progress image) 0 2 = 0xFF00 := by
  obtain ⟨rest, hr⟩ := statusReply_eq s start progress image
  rw [hr, if_pos h, num_append_left (by simp), h]
  decide

theorem statusAct_replies {r : CmdReq} {start : Nat} {s : State} (h : s.upd.state = 0 → s.upd.running ≠ 2) (h1 : s.upd.state ≠ 1) :
    ∃ progress image, statusAct r start s = finish r 0x0803 0 (statusReply s start progress image) s := by
  unfold statusAct
  extract_lets hdr go image
  rw [if_neg (by simpa using h), if_neg h1]
  exact ⟨_, _, rfl⟩

/-! ### Activation and trial -/

/-- The kind of a drain, and the trial that is recorded. -/
def drainOf (s : State) : Nat × Bool × Nat := (s.keeper.drainKind, s.upd.trial, s.upd.trialEnd)

theorem drainOf_finishCore (r : CmdReq) (op status : Nat) (d : Bytes) (gen : Nat) (s : State) :
    drainOf (finishCore r op status d gen s) = drainOf s := by
  have hupd : (finishCore r op status d gen s).upd = s.upd := finishCore_part .upd (by decide +kernel)
  obtain ⟨a, b, l, c, e, hk, -⟩ := @finishCore_keeper r op status gen d s
  rw [drainOf, drainOf, hupd, hk]

theorem drainOf_setUpdState (n : Nat) (s : State) : drainOf (setUpdState n s) = drainOf s := by
  rw [drainOf, setUpdState_upd, setUpdState_keeper]
  rfl

theorem drainOf_unschedule (e : Sched) (s : State) : drainOf (unschedule e s) = drainOf s := by
  have hshow (z : State) : drainOf (showKeeper e.req.iss z) = drainOf z := by
    have hmv := moves_showKeeper (i := e.req.iss) (.refl _ z) (within_self _)
    rw [drainOf, hmv.part .keeper (by decide +kernel), hmv.part .upd (by decide +kernel)]
    rfl
  unfold unschedule
  extract_lets s1
  have hs1 : drainOf s1 = drainOf s := hshow _
  cases e.cmd
  case updateActivate => exact when_cases (P := fun z => drainOf z = drainOf s) hs1 ((drainOf_setUpdState 3 s1).trans hs1)
  all_goals exact hs1

theorem drainOf_cancelAll (s : State) : drainOf (cancelAll s) = drainOf s := by
  unfold cancelAll
  extract_lets ws s1 s2 s3
  have hs2 : drainOf s2 = drainOf s :=
    each_induct (P := fun z => drainOf z = drainOf s) _ rfl fun w z hz => (drainOf_finishCore ..).trans hz
  have hs3 : drainOf s3 = drainOf s :=
    each_induct (P := fun z => drainOf z = drainOf s) _ hs2 fun c z hz => (drainOf_finishCore ..).trans hz
  exact each_induct (P := fun z => drainOf z = drainOf s) _ hs3 fun e z hz =>
    (drainOf_finishCore ..).trans ((drainOf_unschedule e z).trans hz)

theorem drainOf_setKState (n : Nat) (s : State) : drainOf (setKState n s) = drainOf s := rfl

theorem drainOf_modPieces (s : State) : drainOf (s.modUpd (fun u => { u with pieces := [] })) = drainOf s := rfl

theorem drainOf_enterRestart (kind : Nat) (s : State) : drainOf (enterRestart kind s) = drainOf s := by
  unfold enterRestart
  extract_lets s1 s2 s3
  have hmv : Moves (foot_journal ||| foot_traceNone ||| fms [.KP_RESTART_CNT]) s2 s3 := moves_journal
    (moves_traceNone (moves_inc (.refl _ s2) (by unfold Within; decide +kernel)) (by unfold Within; decide +kernel))
    (by unfold Within; decide +kernel)
  have hs3 : drainOf s3 = drainOf s2 := by
    rw [drainOf, hmv.part .keeper (by decide +kernel), hmv.part .upd (by decide +kernel)]
    rfl
  rw [drainOf_setKState, hs3, drainOf_modPieces]
  exact drainOf_cancelAll s

/-- Draining for an activation or a revert: the Keeper drains, or has restarted already. -/
theorem startDrain_spec (kind : Nat) (s : State) :
    drainOf (startDrain kind s) = (kind, s.upd.trial, s.upd.trialEnd) ∧
    ((startDrain kind s).rd .KP_KSTATE = 3 ∨ (startDrain kind s).rd .KP_KSTATE = 4) := by
  unfold startDrain drainEnds
  exact when_cases (P := fun z => drainOf z = (kind, s.upd.trial, s.upd.trialEnd) ∧ (z.rd .KP_KSTATE = 3 ∨ z.rd .KP_KSTATE = 4))
    ⟨rfl, .inl (rd_wr ..)⟩ ⟨drainOf_enterRestart 3 _, .inr (rd_wr ..)⟩

theorem recordTrial_pins (s : State) : (recordTrial s).pins = s.pins := rfl

theorem recordTrial_trial (s : State) : (recordTrial s).upd.trial = true := rfl

/-! ### The replies that are written before a reset -/

/-- What one TLP of a reply moves. -/
def replyTlpFoot : Nat := foot_chanServed ||| foot_chargeBucket ||| foot_replaceReq ||| foot_countTlp ||| foot_noteLast |||
  foot_logWrite ||| foot_idleDeficit ||| foot_settleIntr ||| foot_showHeld

/-- The last TLP of a reply has nothing else to it. -/
theorem lastTlp_reply {r : HReq} (h : ∃ x, r.src = .reply x) (s : State) : lastTlp r s = s := by
  obtain ⟨x, hx⟩ := h
  rw [lastTlp, hx]

/-- What is cut from a reply is part of the reply. -/
theorem cutTlp_reply {r : HReq} (h : ∃ x, r.src = .reply x) (s : State) : ∃ x, (cutTlp s r).1.src = .reply x := by
  unfold cutTlp
  extract_lets n
  split_ifs <;> exact h

theorem fillMsix_reply {r : HReq} (h : ∃ x, r.src = .reply x) (s : State) : fillMsix s r = r := by
  obtain ⟨x, hx⟩ := h
  rw [fillMsix, hx]

theorem sendTlp_reply {r : HReq} (h : ∃ x, r.src = .reply x) (tag : Nat) (s : State) : Moves replyTlpFoot s (sendTlp r tag s) := by
  unfold sendTlp
  have hcut := cutTlp_reply h s
  extract_lets l
  split
  rename_i r1 rest hc
  rw [hc] at hcut
  extract_lets r2 s1 s2 s3 s4 s5
  have hr2 : ∃ x, r2.src = .reply x := by
    have := hcut
    simp only [r2]
    rwa [fillMsix_reply (r := { r1 with addr := if r1.kind = .flush then flushAddr s r1 else r1.addr }) this]
  have h1 : Moves replyTlpFoot s s1 := moves_replaceReq (moves_chargeBucket (moves_chanServed (.refl _ s)
    (by unfold Within; decide +kernel)) (by unfold Within; decide +kernel)) (by unfold Within; decide +kernel)
  have h2 : Moves replyTlpFoot s s2 := moves_emit (moves_noteLast (moves_countTlp h1 (by unfold Within; decide +kernel))
    (by unfold Within; decide +kernel))
  have h3 : Moves replyTlpFoot s s3 := moves_logWrite h2 (by unfold Within; decide +kernel)
  have h4 : s4 = s3 := by
    simp only [s4, lastTlp_reply hr2, ite_self]
  have h5 : Moves replyTlpFoot s s5 := moves_settleIntr (moves_idleDeficit (h4 ▸ h3) (by unfold Within; decide +kernel))
    (by unfold Within; decide +kernel)
  exact when_cases (P := Moves replyTlpFoot s) h5 (moves_showHeld h5 (by unfold Within; decide +kernel))

/-- Writing out the replies leaves the update and the cadence loop. -/
theorem writeReplies_moves (k : Nat) (s : State) : Moves replyTlpFoot s (writeReplies k s) := by
  induction k generalizing s with
  | zero => exact .refl _ s
  | succ k ih =>
    rw [writeReplies]
    split
    next r hr =>
      have hsrc : ∃ x, r.src = .reply x := by
        have hready := List.find?_some hr
        cases hx : r.src with
        | reply x => exact ⟨x, rfl⟩
        | _ => simp [hx] at hready
      exact (sendTlp_reply hsrc 0 s).trans (ih _)
    · exact .refl _ s

/-! ### The boundary of an activation -/

/-- The state in which an activation has left the schedule. -/
def activationTaken (e : Sched) (s : State) : State :=
  showKeeper e.req.iss (s.modKeeper (fun k => { k with sched := k.sched.erase e }))

theorem activationTaken_moves (e : Sched) (s : State) : Moves (foot_showKeeper ||| pms [.keeper]) s (activationTaken e s) :=
  moves_showKeeper (moves_modKeeper (.refl _ s) (by unfold Within; decide +kernel)) (by unfold Within; decide +kernel)

/-- The update, the pins and the instant stand as they stood. -/
def UpdateStands (s t : State) : Prop := SameTick s t ∧ t.upd = s.upd ∧ t.pins = s.pins ∧ t.rd .CAD_ERA = s.rd .CAD_ERA

theorem UpdateStands.refl (s : State) : UpdateStands s s := ⟨.refl s, rfl, rfl, rfl⟩

theorem UpdateStands.moves {m : Nat} {r s t : State} (h : UpdateStands r s) (hm : Moves m s t)
    (hcad : m.testBit Part.cad.ctorIdx = false) (hupd : m.testBit Part.upd.ctorIdx = false)
    (hpins : m.testBit Part.pins.ctorIdx = false) (hera : m.testBit (fbit .CAD_ERA) = false) : UpdateStands r t :=
  ⟨h.1.keep hm hcad, (hm.part .upd hupd).trans h.2.1, (hm.part .pins hpins).trans h.2.2.1, (hm.reg _ _ _ hera).trans h.2.2.2⟩

theorem updateStands_finishGen {r s : State} {q : CmdReq} {op status gen : Nat} {d : Bytes} (hd : draining s = false)
    (h : UpdateStands r s) : UpdateStands r (finishGen q op status d gen s) :=
  (finishGen_induct (P := UpdateStands r) (fun q op st d g z hz => ⟨hz.1.finishCore, (finishCore_part .upd (by decide +kernel)).trans
    hz.2.1, (finishCore_part .pins (by decide +kernel)).trans hz.2.2.1,
    ((moves_finishCore (.refl _ z) (within_self _)).reg _ _ _ (by decide +kernel)).trans hz.2.2.2⟩) hd h).1

theorem recordTrial_trialEnd {s t : State} (h : UpdateStands s t) (hs : s.cad.stamp < 2 ^ 64) :
    (recordTrial t).upd.trialEnd = s.eraEpoch + hTrial (s.upd.slot s.upd.recvSlot).header := by
  obtain ⟨htick, hupd, -, hera⟩ := h
  have : (recordTrial t).upd.trialEnd = t.eraEpoch + hTrial (t.upd.slot t.upd.recvSlot).header := rfl
  rw [this, hupd, htick.eraEpoch_eq hs hera]

theorem modUpd_upd (s : State) (g : UpdS → UpdS) : (s.modUpd g).upd = g s.upd := rfl

theorem modKeeper_upd (s : State) (g : KeeperS → KeeperS) : (s.modKeeper g).upd = s.upd := rfl

theorem modUpd_pins (s : State) (g : UpdS → UpdS) : (s.modUpd g).pins = s.pins := rfl

theorem leaveReset_upd (cause : Nat) (s : State) : (leaveReset cause s).upd = s.upd :=
  (moves_leaveReset (.refl _ s) (within_self _)).part .upd (by decide +kernel)

theorem leaveReset_bootCause {cause : Nat} {s : State} (h : s.aonUp = true) (hc : cause < 4) :
    (leaveReset cause s).rd .PW_BOOT_CAUSE = cause := by
  have hw : Fld.PW_BOOT_CAUSE.width = 2 := rfl
  rw [leaveReset, when_of _ _ h]
  simp [rd_wr_ite, hw]
  omega

/-- A reset of the die keeps the trial that is recorded, and the pins. -/
theorem dieReset_trial (s : State) : (dieReset s).upd.trial = s.upd.trial ∧ (dieReset s).upd.trialEnd = s.upd.trialEnd ∧
    (dieReset s).pins = s.pins := by
  have hmv := moves_releasePins (.refl _ s) (within_self _)
  have hupd : (releasePins s).upd = s.upd := hmv.part .upd (by decide +kernel)
  have hpins : (releasePins s).pins = s.pins := hmv.part .pins (by decide +kernel)
  unfold dieReset updKept
  dsimp only
  generalize releasePins s = z at hupd hpins
  exact ⟨congrArg UpdS.trial hupd, congrArg UpdS.trialEnd hupd, hpins⟩

/-- The reset that an activation in recovery mode makes. -/
def activationReset (s : State) : State :=
  leaveReset 2 ((dieReset s).modUpd (fun u => { u with keepStrap := true }))

theorem activationReset_spec (s : State) : (activationReset s).upd.trial = s.upd.trial ∧
    (activationReset s).upd.trialEnd = s.upd.trialEnd ∧ (activationReset s).upd.keepStrap = true ∧
    (s.aonUp = true → (activationReset s).rd .PW_BOOT_CAUSE = 2) := by
  obtain ⟨htrial, hend, hpins⟩ := dieReset_trial s
  unfold activationReset
  rw [leaveReset_upd, modUpd_upd]
  refine ⟨?_, ?_, rfl, fun h => leaveReset_bootCause ?_ (by decide)⟩
  · rw [← htrial]
  · rw [← hend]
  · rw [State.aonUp, modUpd_pins, hpins]
    exact h

/-- The state in which a bridge in recovery mode has answered its activation. -/
def activationReplied (e : Sched) (s : State) : State :=
  let t := finishGen e.req 0x0804 0 [] e.ringGen (activationTaken e s)
  writeReplies (32 * t.hostQ.length) t

theorem recovery_activationTaken (e : Sched) (s : State) : recovery (activationTaken e s) = recovery s := by
  rw [recovery, recovery, State.on, State.on, (activationTaken_moves e s).reg .PW_RECOVERY _ _ (by decide +kernel)]

theorem updateStands_activationTaken (e : Sched) (s : State) : UpdateStands s (activationTaken e s) :=
  (UpdateStands.refl s).moves (activationTaken_moves e s) (by decide +kernel) (by decide +kernel)
    (by decide +kernel) (by decide +kernel)

theorem updateStands_activationReplied (e : Sched) {s : State} (hd : draining s = false) :
    UpdateStands s (activationReplied e s) := by
  have hd1 : draining (activationTaken e s) = false := by
    rw [draining, (activationTaken_moves e s).reg .KP_KSTATE _ _ (by decide +kernel)]
    exact hd
  exact (updateStands_finishGen hd1 (updateStands_activationTaken e s)).moves (writeReplies_moves ..) (by decide +kernel)
    (by decide +kernel) (by decide +kernel) (by decide +kernel)

/-- In recovery mode an activation resets the die. -/
theorem activate_recovery {e : Sched} {s : State} (h : recovery s = true) : activate e s =
    activationReset (recordTrial (activationReplied e s)) := by
  unfold activate
  extract_lets s1 s2 s3 s4
  have h1 : recovery s1 = true := (recovery_activationTaken e s).trans h
  rw [if_pos h1]
  rfl

/-- Otherwise it drains the Keeper. -/
theorem activate_drains {e : Sched} {s : State} (h : recovery s = false) : activate e s =
    startDrain 1 ((recordTrial (activationTaken e s)).modKeeper
      (fun k => { k with waiting := k.waiting ++ [⟨e.req, 0x0804, 0, e.ringGen⟩] })) := by
  unfold activate
  extract_lets s1 s2 s3 s4
  have h1 : recovery s1 = false := (recovery_activationTaken e s).trans h
  rw [if_neg (by rw [h1]; decide)]
  rfl

theorem activate_spec {e : Sched} {s : State} (hd : draining s = false) (hs : s.cad.stamp < 2 ^ 64) :
    (activate e s).upd.trial = true ∧
    (activate e s).upd.trialEnd = s.eraEpoch + hTrial (s.upd.slot s.upd.recvSlot).header ∧
    (recovery s = true → s.aonUp = true → (activate e s).upd.keepStrap = true ∧ (activate e s).rd .PW_BOOT_CAUSE = 2) ∧
    (recovery s = false → (activate e s).keeper.drainKind = 1 ∧
      ((activate e s).rd .KP_KSTATE = 3 ∨ (activate e s).rd .KP_KSTATE = 4)) := by
  cases hr : recovery s with
  | true =>
    have hstands := updateStands_activationReplied e hd
    obtain ⟨htrial, hend, hkeep, hcause⟩ := activationReset_spec (recordTrial (activationReplied e s))
    rw [activate_recovery hr]
    refine ⟨htrial.trans (recordTrial_trial _), hend.trans (recordTrial_trialEnd hstands hs), fun _ haon => ⟨hkeep, hcause ?_⟩,
      fun h => nomatch h⟩
    rw [State.aonUp, recordTrial_pins, hstands.2.2.1]
    exact haon
  | false =>
    rw [activate_drains hr]
    obtain ⟨hdrain, hstate⟩ := startDrain_spec 1 ((recordTrial (activationTaken e s)).modKeeper
      (fun k => { k with waiting := k.waiting ++ [⟨e.req, 0x0804, 0, e.ringGen⟩] }))
    rw [modKeeper_upd, drainOf] at hdrain
    simp only [Prod.mk.injEq] at hdrain
    obtain ⟨hkind, htrial, hend⟩ := hdrain
    exact ⟨htrial.trans (recordTrial_trial _), hend.trans (recordTrial_trialEnd (updateStands_activationTaken e s) hs), fun h => (nomatch h),
      fun _ => ⟨hkind, hstate⟩⟩

theorem exec_activationBoundary {e : Sched} {s : State} (hup : keeperUp s = true) (hd : draining s = false)
    (hdue : dueSched s (fun e => e.cmd == .updateActivate) = some e) (hm : e.mgr = true) (hlen : e.req.plen = 0)
    (h : Unopposed 0x0804 e.req s) (hexp : expired s (s.upd.slot s.upd.recvSlot).header = false) :
    exec .activationBoundary s = .next (activate e s) := by
  have hchecks : checks5to10 (cmdUpdateActivate e.req) { e.req with atEpoch := false } e.mgr s = 0 := by
    rw [hm]
    exact checks5to10_unopposed (c := cmdUpdateActivate e.req) (r := { e.req with atEpoch := false }) h (beq_iff_eq.2 hlen)
      (fun hc => nomatch hc) rfl rfl rfl
  have hgo : activationDue e s = activate e s := by
    simp [activationDue, firstFail, hchecks, hexp]
  refine congrArg Host.Outcome.next ((when_of _ s (by rw [hup, hd]; rfl)).trans ?_)
  rw [hdue]
  exact hgo

/-! ### Confirmation and abort -/

theorem confirm_upd (s : State) : (confirm s).upd.state = 0 ∧ (confirm s).upd.active = s.upd.recvSlot ∧
    (confirm s).upd.trial = false ∧
    (confirm s).upd.arbFuse = max s.upd.arbFuse (hArb (s.upd.slot s.upd.recvSlot).header) := by
  unfold confirm
  extract_lets u t fuse o old s1 s2
  have hupd : (showFw (journal (.update 4 t (hVersion (s2.upd.slot t).header) fuse) s2)).upd = s2.upd :=
    (moves_showFw (moves_journal (m := foot_journal ||| foot_showFw) (.refl _ s2) (by unfold Within; decide +kernel))
      (by unfold Within; decide +kernel)).part .upd (by decide +kernel)
  rw [hupd, setUpdState_upd]
  exact ⟨rfl, rfl, rfl, rfl⟩

/-- A command that leaves the schedule leaves the receiving slot. -/
theorem unschedule_recvSlot (e : Sched) (s : State) : (unschedule e s).upd.recvSlot = s.upd.recvSlot := by
  unfold unschedule
  extract_lets s1
  have hs1 : s1.upd.recvSlot = s.upd.recvSlot :=
    congrArg UpdS.recvSlot ((moves_showKeeper (.refl _ _) (within_self _)).part .upd (by decide +kernel))
  cases e.cmd
  case updateActivate =>
    refine when_cases (P := fun z => z.upd.recvSlot = s.upd.recvSlot) hs1 ?_
    rw [setUpdState_upd]
    exact hs1
  all_goals exact hs1

theorem cancelSched_recvSlot {e : Sched} {s : State} (hd : draining s = false) :
    (cancelSched e s).upd.recvSlot = s.upd.recvSlot := by
  have hd1 : draining (unschedule e s) = false := by
    rw [draining, (moves_unschedule (.refl _ s) (within_self _)).reg .KP_KSTATE _ _ (by decide +kernel)]
    exact hd
  exact (finishGen_induct (P := fun z => z.upd.recvSlot = s.upd.recvSlot)
    (fun r op st d g z hz => (congrArg UpdS.recvSlot (finishCore_part .upd (by decide +kernel))).trans hz) hd1
    (unschedule_recvSlot e s)).1

/-- An update that is given up loses its slot, its halves and its state. -/
theorem abandon_upd {s : State} (hd : draining s = false) : (abandon s).upd.state = 0 ∧
    (abandon s).upd.slot s.upd.recvSlot = SlotS.empty ∧ (abandon s).upd.pieces = [] := by
  have hrecv : (withSome (s.keeper.sched.find? (fun e => e.cmd == .updateActivate)) cancelSched s).upd.recvSlot = s.upd.recvSlot := by
    cases s.keeper.sched.find? (fun e => e.cmd == .updateActivate) with
    | none => rfl
    | some e => exact cancelSched_recvSlot hd
  unfold abandon
  extract_lets s1 n s2
  rw [setUpdState_upd]
  have hn : n = s.upd.recvSlot := hrecv
  rw [← hn]
  exact ⟨rfl, slot_setSlot _ n _, rfl⟩

/-! ### The statement -/

theorem draining_of_served {s : State} (h : s.rd .KP_KSTATE = 1 ∨ s.rd .KP_KSTATE = 2) : draining s = false := by
  rcases h with h | h <;> simp [draining, h]

theorem exec_updateActivate {r : CmdReq} {s : State} (hs : Served 0x0804 (targetOf s r) (hasMgr s r.iss) r s) (hlen : r.plen = 0)
    (hst : s.upd.state = 3) (hexp : expired s (s.upd.slot s.upd.recvSlot).header = false) :
    exec (.updateActivate r) s = .next (nextBoundary 0x0804 .updateActivate r (setUpdState 4 s)) :=
  congrArg Host.Outcome.next (runCmd_served (c := cmdUpdateActivate r) hs (beq_iff_eq.2 hlen) rfl rfl
    (by simp [cmdUpdateActivate, firstFail, hst, hexp]) rfl (fun h => nomatch h))

/-- An activation that is accepted stands in the schedule for the next boundary. -/
theorem nextBoundary_activate {r : CmdReq} {s : State} (hs : s.cad.stamp < 2 ^ 64) :
    (nextBoundary 0x0804 .updateActivate r (setUpdState 4 s)).upd.state = 4 ∧
    ∃ e, (nextBoundary 0x0804 .updateActivate r (setUpdState 4 s)).keeper.sched = s.keeper.sched ++ [e] ∧
      e.cmd = .updateActivate ∧ e.due = s.eraEpoch + 1 := by
  have hmv := moves_setUpdState (n := 4) (.refl _ s) (within_self _)
  have hdue : (setUpdState 4 s).eraEpoch = s.eraEpoch :=
    (SameTick.refl s).setUpdState.eraEpoch_eq hs (hmv.reg _ _ _ (by decide +kernel))
  refine ⟨?_, ?_⟩
  · have hupd : (nextBoundary 0x0804 .updateActivate r (setUpdState 4 s)).upd = (setUpdState 4 s).upd :=
      (moves_nextBoundary (.refl _ _) (within_self _)).part .upd (by decide +kernel)
    rw [hupd, setUpdState_upd]
  · rw [nextBoundary, boundaryAt_sched, setUpdState_keeper, hdue]
    exact ⟨_, rfl, rfl, rfl⟩

/-- UPDATE_BEGIN of the image in delivery answers where it stands. -/
theorem exec_updateBegin_same {r : CmdReq} {hdr : Bytes} {s : State} (hs : Served 0x0801 (targetOf s r) (hasMgr s r.iss) r s)
    (hlen : r.plen = 512) (h : sameImage s (sub hdr 0 512) = true) :
    exec (.updateBegin r hdr) s = .next (finish r 0x0801 0 (beginReply s 1) s) :=
  congrArg Host.Outcome.next ((runCmd_served hs (beq_iff_eq.2 hlen) rfl rfl (by simp [h]) rfl (by simp)).trans
    (if_pos h))

/-- UPDATE_BEGIN in IDLE takes a header that passes its checks. -/
theorem exec_updateBegin_new {r : CmdReq} {hdr : Bytes} {s : State} (hs : Served 0x0801 (targetOf s r) (hasMgr s r.iss) r s)
    (hlen : r.plen = 512) (hst : s.upd.state = 0) (h : sameImage s (sub hdr 0 512) = false)
    (hcheck : headerCheck s (sub hdr 0 512) = 0) : exec (.updateBegin r hdr) s = .next (finish r 0x0801 0
      (beginReply (acceptHeader (sub hdr 0 512) s) 0) (acceptHeader (sub hdr 0 512) s)) :=
  congrArg Host.Outcome.next ((runCmd_served hs (beq_iff_eq.2 hlen) rfl rfl (by simp [h, hst, hcheck]) rfl
    (by simp)).trans (if_neg (by simp [h])))

theorem firstFail_ne {l : List (Bool × Nat)} {n : Nat} (hl : ∀ x ∈ l, x.2 ≠ n) (hn : n ≠ 0) : firstFail l ≠ n := by
  induction l with
  | nil => exact hn.symm
  | cons x l ih =>
    rw [firstFail]
    split_ifs
    · exact hl x (List.mem_cons_self ..)
    · exact ih fun y hy => hl y (List.mem_cons_of_mem x hy)

/-- No check of a header answers BUSY. -/
theorem headerCheck_ne_two (s : State) (h : Bytes) : headerCheck s h ≠ 2 :=
  firstFail_ne (by simp) (by decide)

theorem exec_updateBegin_refused {r : CmdReq} {hdr : Bytes} {s : State} (hs : Served 0x0801 (targetOf s r) (hasMgr s r.iss) r s)
    (hlen : r.plen = 512) (hst : s.upd.state = 0) (h : sameImage s (sub hdr 0 512) = false)
    (hcheck : headerCheck s (sub hdr 0 512) ≠ 0) :
    exec (.updateBegin r hdr) s = .next (finish r 0x0801 (headerCheck s (sub hdr 0 512)) [] s) := by
  refine congrArg Host.Outcome.next ((runCmd_refused hs (beq_iff_eq.2 hlen) rfl rfl ?_ ?_ (by simp)).trans ?_)
  · simpa [h, hst] using hcheck
  · simpa [h, hst] using headerCheck_ne_two s _
  · simp [h, hst]

section
variable {r : CmdReq} {i p : Nat} {data : Bytes} {s : State} (hs : Served 0x0802 (targetOf s r) (hasMgr s r.iss) r s) (hp : p ≤ 1)
  (hlen : r.plen = 2056 + 16 * p) (hst : s.upd.state = 2 ∨ s.upd.state = 3) (hi : i < hChunks (s.upd.slot s.upd.recvSlot).header)
include hs hp hlen hst hi

/-- A half of a chunk that is stored with the same bytes is answered again. -/
theorem exec_updateChunk_stored (h : ((s.upd.slot s.upd.recvSlot).chunk i).map (fun c => halfOf c p) = some (sub data 0 (r.plen - 8))) :
    exec (.updateChunk r i p data) s = .next (finish r 0x0802 0 (chunkReply s 2 0) s) := by
  refine congrArg Host.Outcome.next ((runCmd_served hs ?_ ?_ rfl ?_ rfl (by simp)).trans ?_)
  · simpa [hp] using hlen
  · simp [hp, hi]
  · rcases hst with hst | hst <;> simp [firstFail, hst, h]
  · exact if_pos ((congrArg Option.isSome h).trans rfl)

/-- A half of a chunk that is not stored is taken. -/
theorem exec_updateChunk_new (h : (s.upd.slot s.upd.recvSlot).chunk i = none) :
    exec (.updateChunk r i p data) s = .next (takeHalf r i p (sub data 0 (r.plen - 8)) s) := by
  refine congrArg Host.Outcome.next ((runCmd_served hs ?_ ?_ rfl ?_ rfl (by simp)).trans ?_)
  · simpa [hp] using hlen
  · simp [hp, hi]
  · rcases hst with hst | hst <;> simp [firstFail, hst, h]
  · exact if_neg (by simp [h])

end

theorem exec_updateStatus {r : CmdReq} {start : Nat} {s : State} (hs : Served 0x0803 (targetOf s r) (isPfOrSmp r.iss) r s)
    (hlen : r.plen = 8) : exec (.updateStatus r start) s = .next (statusAct r start s) :=
  congrArg Host.Outcome.next (runCmd_served hs (beq_iff_eq.2 hlen) rfl rfl rfl rfl (fun h => nomatch h))

/-- UPDATE_ABORT reverts a trial, and gives up any other update. -/
theorem exec_updateAbort {r : CmdReq} {s : State} (hs : Served 0x0806 (targetOf s r) (hasMgr s r.iss) r s) (hlen : r.plen = 0)
    (h : s.upd.state ≠ 0) : exec (.updateAbort r) s = .next (if s.upd.state = 5 then startDrain 2 (waitOn r 0x0806 0 s)
      else finish r 0x0806 0 [] (abandon s)) :=
  congrArg Host.Outcome.next (runCmd_served hs (beq_iff_eq.2 hlen) rfl rfl (if_neg (by simpa using h)) rfl (fun h => nomatch h))

/-- Settles O32: each command's own checks pass or fail by the clause's hypotheses, and its effect is read off the update's state. -/
theorem firmwareUpdate : Obligations.FirmwareUpdate := by
  refine ⟨fun r hdr s hs hlen => ⟨fun hsame => ?_, fun hst hsame => ?_⟩, fun s hst hup => ?_, fun r i p data s hs hp hlen hst hi =>
    ⟨fun h => ?_, fun h hother => ?_⟩,
    fun r start s hs hlen => ⟨fun hst hrun => ?_, fun h2 h256 => ?_⟩, fun r s hs hlen hst hexp hstamp => ?_,
    fun e s hup hd hdue hm hlen hresv hun hfor hre htg hth hexp hstamp => ?_, fun s hst hend hup hd => ?_,
    fun r s hs hlen hst => ?_, fun r s hs hlen => ⟨fun hst => ?_, fun h0 h5 => ?_⟩⟩
  · exact ⟨_, exec_updateBegin_same hs hlen hsame, s, rfl, rfl⟩
  · by_cases hcheck : headerCheck s (sub hdr 0 512) = 0
    · refine ⟨_, exec_updateBegin_new hs hlen hst hsame hcheck, ?_⟩
      dsimp only
      rw [if_pos hcheck]
      exact ⟨_, _, acceptHeader_upd _ s, rfl⟩
    · refine ⟨_, exec_updateBegin_refused hs hlen hst hsame hcheck, ?_⟩
      dsimp only
      rw [if_neg hcheck]
      exact ⟨s, rfl, rfl⟩
  · have hkeep : s.domOn dKeep = true := by
      simp only [keeperUp, Bool.and_eq_true] at hup
      exact hup.1.1
    refine ⟨_, congrArg Host.Outcome.next (when_of _ s (by simp [hst, hkeep, hup])), ?_⟩
    dsimp only
    rw [setUpdState_upd]
    exact ⟨rfl, rfl⟩
  · exact ⟨_, exec_updateChunk_stored hs hp hlen hst hi h, s, rfl, rfl⟩
  · exact ⟨_, exec_updateChunk_new hs hp hlen hst hi h, takeHalf_first hp hother⟩
  · obtain ⟨progress, image, hact⟩ := @statusAct_replies r start s (fun _ => by omega) (by omega)
    exact ⟨_, (exec_updateStatus hs hlen).trans (congrArg Host.Outcome.next hact), _, ⟨s, rfl, rfl⟩, statusReply_idle hst⟩
  · obtain ⟨progress, image, hact⟩ := @statusAct_replies r start s (fun _ => by omega) (by omega)
    obtain ⟨hstate, hslot⟩ := @statusReply_busy s start progress image (by omega)
    exact ⟨_, (exec_updateStatus hs hlen).trans (congrArg Host.Outcome.next hact), _, ⟨s, rfl, rfl⟩,
      hstate.trans (Nat.mod_eq_of_lt h256), hslot⟩
  · exact ⟨_, exec_updateActivate hs hlen hst hexp, nextBoundary_activate hstamp⟩
  · exact ⟨_, exec_activationBoundary hup hd hdue hm hlen ⟨hun, hfor, hre, hresv, htg, hth⟩ hexp, activate_spec hd hstamp⟩
  · obtain ⟨hdrain, hstate⟩ := startDrain_spec 2 s
    exact ⟨_, congrArg Host.Outcome.next (when_of _ s (by simp [hst, hend, hup, hd])), congrArg Prod.fst hdrain, hstate⟩
  · exact ⟨_, congrArg Host.Outcome.next (runCmd_served hs (beq_iff_eq.2 hlen) rfl rfl (by simp [hst]) rfl (fun h => nomatch h)),
      confirm s, confirm_upd s, rfl⟩
  · obtain ⟨hdrain, hstate⟩ := startDrain_spec 2 (waitOn r 0x0806 0 s)
    refine ⟨_, exec_updateAbort hs hlen (by omega), ?_⟩
    rw [if_pos hst]
    exact ⟨congrArg Prod.fst hdrain, hstate⟩
  · refine ⟨_, exec_updateAbort hs hlen h0, ?_⟩
    rw [if_neg h5]
    exact ⟨_, abandon_upd (draining_of_served hs.2.2.1), rfl⟩

end Sys2Proof.Proofs
end

section
/-!
The device journal: its records in flash, which no event but an append and an erase touches, and JOURNAL_READ (R390 to R394).
-/
namespace Sys2Proof.Proofs
open Sys2Proof Sys2Proof.Machine Sys2Proof.Laws
set_option Elab.async false

/-! ### The records in flash -/

/-- The records in flash, and whether a sector is being erased. -/
def flashOf (s : State) : List JRec × Bool := (s.journal.recs, s.journal.erasing)

/-- What lies outside the journal leaves the flash. -/
theorem flashOf_keep {m : Nat} {s t : State} (h : Moves m s t) (hm : m.testBit Part.journal.ctorIdx = false) :
    flashOf t = flashOf s := by
  rw [flashOf, h.part .journal hm]
  rfl

theorem flashOf_when {c : Bool} {f : State → State} {s : State} (h : flashOf (f s) = flashOf s) : flashOf (when c f s) = flashOf s :=
  when_cases (P := fun z => flashOf z = flashOf s) rfl h

theorem flashOf_each {α : Type} {l : List α} {f : α → State → State} {s : State} (h : ∀ a z, flashOf (f a z) = flashOf z) :
    flashOf (each l f s) = flashOf s :=
  each_induct (P := fun z => flashOf z = flashOf s) l rfl fun a z hz => (h a z).trans hz

/-- A record joins the queue, not the flash. -/
theorem flashOf_jPut (b : JBody) (inj : Bool) (stamp era : Nat) (s : State) : flashOf (jPut b inj stamp era s) = flashOf s := by
  unfold jPut
  dsimp only
  split_ifs <;> rfl

theorem flashOf_advance (s : State) : flashOf (advance s) = flashOf s :=
  flashOf_keep (moves_advance (.refl _ s) (within_self _)) (by decide +kernel)

theorem flashOf_journal (b : JBody) (s : State) : flashOf (journal b s) = flashOf s :=
  (flashOf_jPut ..).trans (flashOf_advance s)

theorem flashOf_forceReaction (inj : Bool) (s : State) : flashOf (forceReaction inj s) = flashOf s := by
  unfold forceReaction
  split
  · rfl
  · extract_lets s1 s2 s3 s4 s5 s6
    have h2 : flashOf s2 = flashOf s := flashOf_keep (s := s1) (moves_blockWrites (.refl _ s1) (within_self _)) (by decide +kernel)
    have h3 : flashOf s3 = flashOf s2 := flashOf_each fun n z =>
      flashOf_when (s := (z.wr .WL_LSTATE 6 n).wr .WL_GRACE_RUN 0 n)
        (flashOf_keep (moves_sendHalt (.refl _ _) (within_self _)) (by decide +kernel))
    have h4 : flashOf s4 = flashOf s3 := flashOf_keep (moves_driveFaultN (.refl _ s3) (within_self _)) (by decide +kernel)
    have h5 : flashOf s5 = flashOf s4 := flashOf_each fun c z =>
      flashOf_keep (moves_haltCore (.refl _ z) (within_self _)) (by decide +kernel)
    have h6 : flashOf s6 = flashOf s5 := flashOf_keep (moves_pauseStream (.refl _ s5) (within_self _)) (by decide +kernel)
    rw [flashOf_jPut, h6, h5, h4, h3, h2]

theorem flashOf_latchLine (e : WEv) (inj : Bool) (s : State) : flashOf (latchLine e inj s) = flashOf s :=
  flashOf_keep (moves_latchLine (.refl _ s) (within_self _)) (by decide +kernel)

theorem flashOf_wardFuel (n : Nat) (inj : Bool) (e : WEv) (s : State) : flashOf (wardFuel n inj e s) = flashOf s := by
  induction n generalizing s inj e with
  | zero => rfl
  | succ n ih =>
    unfold wardFuel
    extract_lets s0 stamp era cls fresh latches s1 s2 s3 s4 s5 rec_ lost s6
    have h0 : flashOf s0 = flashOf s := flashOf_advance s
    have h1 : flashOf s1 = flashOf s0 := flashOf_when rfl
    have h2 : flashOf s2 = flashOf s1 := flashOf_when (flashOf_latchLine e inj (noteLatch e inj s1))
    have h3 : flashOf s3 = flashOf s2 := flashOf_when (by
      split
      · exact flashOf_when (flashOf_keep (moves_driveFaultN (.refl _ s2) (within_self _)) (by decide +kernel))
      · exact flashOf_forceReaction inj s2)
    have h4 : flashOf s4 = flashOf s3 := flashOf_when
      (flashOf_keep (moves_aerReport (.refl _ s3) (within_self _)) (by decide +kernel))
    have h5 : flashOf s5 = flashOf s4 := flashOf_keep (moves_raiseAllPfs (.refl _ s4) (within_self _)) (by decide +kernel)
    have h6 : flashOf s6 = flashOf s5 := flashOf_when (flashOf_jPut ..)
    rw [flashOf_when (ih ..), h6, h5, h4, h3, h2, h1, h0]

theorem flashOf_takeCapture (e : WEv) (c : Nat) (inj : Bool) (stamp era : Nat) (s : State) :
    flashOf (takeCapture e c inj stamp era s) = flashOf s :=
  flashOf_keep (moves_takeCapture (.refl _ s) (within_self _)) (by decide +kernel)

theorem flashOf_realOver (e : WEv) (l : Latched) (s : State) : flashOf (realOver e l s) = flashOf s := by
  unfold realOver
  extract_lets cls s1 s2 b its
  have h1 : flashOf s1 = flashOf s := flashOf_when rfl
  have h2 : flashOf s2 = flashOf s1 := flashOf_when (flashOf_takeCapture ..)
  exact h2.trans h1

theorem flashOf_ward (g l : Nat) (m : Master) (access addr : Nat) (s : State) : flashOf (ward g l m access addr s) = flashOf s := by
  unfold ward wardEvent
  split
  · unfold choose
    cases Config.freeBit s.free
    · exact flashOf_wardFuel 3 false _ { s with free := s.free + 1 }
    · exact flashOf_realOver _ _ { s with free := s.free + 1 }
  · exact flashOf_wardFuel ..

/-! ### Appending -/

/-- What JOURNAL_APPEND programs: the next number, chained to the newest record. -/
structure Programmed (x : JRec) (s t : State) : Prop where
  newest : t.rd .WD_JR_NEWEST = (s.rd .WD_JR_NEWEST + 1) % 2 ^ 64
  count : t.rd .WD_JR_APPEND_CNT = (s.rd .WD_JR_APPEND_CNT + 1) % 2 ^ 64
  recs : ∃ y, t.journal.recs = s.journal.recs ++ [y] ∧ y.body = x.body ∧ y.stamp = x.stamp ∧
    y.seq = s.rd .WD_JR_NEWEST + 1 ∧
    y.chain = chainOf (match s.journal.recs.getLast? with | some p => p.chain | none => s.journal.chainBefore) y

theorem program_spec (x : JRec) (s : State) : Programmed x s (program x s) := by
  unfold program
  extract_lets j prev n r1 enters sec used r2 s1 s2
  have hn : Fld.WD_JR_NEWEST.width = 64 := rfl
  have hc : Fld.WD_JR_APPEND_CNT.width = 64 := rfl
  have hs2 : s2.rd .WD_JR_APPEND_CNT = s.rd .WD_JR_APPEND_CNT :=
    when_cases (P := fun z => z.rd .WD_JR_APPEND_CNT = s.rd .WD_JR_APPEND_CNT) rfl (rd_wr_ne _ (by simp))
  refine ⟨?_, ?_, r2, ?_, rfl, rfl, rfl, rfl⟩
  · simp [State.inc, State.add, rd_wr_ite, hn, n]
  · simp [State.inc, State.add, rd_wr_ite, hc, hs2]
  · exact when_cases (P := fun z => z.journal.recs = s.journal.recs ++ [r2]) rfl rfl

/-- Reporting lost records, and the check for the next checkpoint, add to the queue alone. -/
theorem reportLost_moves (s : State) : flashOf (reportLost s) = flashOf s ∧ Moves foot_reportLost s (reportLost s) :=
  ⟨flashOf_when (flashOf_journal ..), moves_reportLost (.refl _ s) (within_self _)⟩

theorem checkpointCheck_moves (s : State) :
    flashOf (checkpointCheck s) = flashOf s ∧ Moves foot_checkpointCheck s (checkpointCheck s) := by
  refine ⟨?_, moves_checkpointCheck (.refl _ s) (within_self _)⟩
  unfold checkpointCheck
  split
  · exact flashOf_when (flashOf_journal ..)
  · rfl

theorem Programmed.after {x : JRec} {s t u : State} {m : Nat} (h : Programmed x s t) (hm : Moves m t u)
    (hflash : flashOf u = flashOf t) (hn : m.testBit (fbit .WD_JR_NEWEST) = false)
    (hc : m.testBit (fbit .WD_JR_APPEND_CNT) = false) : Programmed x s u :=
  ⟨(hm.reg _ _ _ hn).trans h.newest, (hm.reg _ _ _ hc).trans h.count, by
    rw [show u.journal.recs = t.journal.recs from congrArg Prod.fst hflash]
    exact h.recs⟩

theorem Programmed.of_queue {x : JRec} {q : List JRec} {s t : State}
    (h : Programmed x (jShow (s.modJournal (fun j => { j with queue := q }))) t) : Programmed x s t := by
  have hrd (f : Fld) (hf : f ≠ .WD_JR_QUEUED) : (jShow (s.modJournal (fun j => { j with queue := q }))).rd f = s.rd f :=
    rd_wr_ne _ fun h => hf h.1
  obtain ⟨hnewest, hcount, hrecs⟩ := h
  rw [hrd _ (by decide)] at hnewest hcount hrecs
  exact ⟨hnewest, hcount, hrecs⟩

theorem exec_journalAppend {x : JRec} {rest : List JRec} {s : State} (hs : s.rd .CAD_SEEDED = 1)
    (hq : s.journal.queue = x :: rest) : exec .journalAppend s = .next (checkpointCheck (reportLost
      (program x (jShow (s.modJournal (fun j => { j with queue := rest })))))) := by
  refine congrArg Host.Outcome.next ((when_of _ s (by simp [State.on, hs])).trans ?_)
  rw [hq]

/-! ### Erasing -/

theorem exec_journalEraseDone {x : JRec} {rest : List JRec} {s : State} (he : s.journal.erasing = true)
    (hr : s.journal.recs = x :: rest) : Completes .journalEraseDone s (fun t => t.journal.erasing = false ∧
      t.journal.recs = s.journal.recs.filter (fun r => r.sector != x.sector)) := by
  have hgo : ∃ t, exec .journalEraseDone s = .next t ∧
      flashOf t = (s.journal.recs.filter (fun r => r.sector != x.sector), false) := by
    change ∃ t, execJournalEraseDone s = .next t ∧ _
    simp only [execJournalEraseDone, he, hr, Bool.not_true, Bool.false_eq_true, if_false]
    refine ⟨_, rfl, ?_⟩
    rw [flashOf_journal, flashOf_when (flashOf_ward ..)]
    rfl
  obtain ⟨t, ht, hflash⟩ := hgo
  exact ⟨t, ht, congrArg Prod.snd hflash, congrArg Prod.fst hflash⟩

/-! ### Reading -/

theorem exec_journalRead {r : CmdReq} {start : Nat} {s : State} (hs : Served 0x0A10 (targetOf s r) (isPfOrSmp r.iss) r s)
    (hlen : r.plen = 8) : exec (.journalRead r start) s = .next (journalReadAct r start s) :=
  congrArg Host.Outcome.next (runCmd_served hs (beq_iff_eq.2 hlen) rfl rfl rfl rfl (fun h => nomatch h))

/-- The state in which a read picks its records: the journal's mark is advanced where MARK asks for it. -/
def readFrom (r : CmdReq) (start : Nat) (s : State) : State :=
  when (start.testBit 63) (advanceMark (start % 2 ^ 63) r.iss) s

/-- What a read answers from the records that it may give. -/
def readReply (r : CmdReq) (seq : Nat) (avail : List JRec) (x : JRec) (s : State) : State :=
  let s := agesRec avail s
  if !recOk s x then finish r 0x0A10 0x0D [] (ward 13 16 mNone 0 0 s)
  else
    let recs := takeRecs s 4032 avail
    let last := (recs.getLast?.map (·.seq)).getD 0
    let fin := avail.all (fun y => decide (y.seq ≤ last))
    let body := recs.flatMap JRec.bytes
    finish r 0x0A10 0 (le 2 recs.length ++
      le 2 ((if fin then 1 else 0) + (if seq < s.rd .WD_JR_OLDEST then 2 else 0)) ++ le 4 body.length ++ body) s

/-- A read that finds no record answers none. -/
theorem journalReadAct_empty {r : CmdReq} {start : Nat} {s : State}
    (h : (readFrom r start s).journal.recs.filter (fun x => decide (start % 2 ^ 63 ≤ x.seq)) = []) :
    journalReadAct r start s = finish r 0x0A10 0 (le 2 0 ++
      le 2 (1 + (if start % 2 ^ 63 < (readFrom r start s).rd .WD_JR_OLDEST then 2 else 0)) ++ le 4 0) (readFrom r start s) := by
  unfold journalReadAct
  extract_lets seq s1 avail
  have havail : avail = [] := h
  rw [havail]
  rfl

theorem journalReadAct_cons {r : CmdReq} {start : Nat} {x : JRec} {rest : List JRec} {s : State}
    (h : (readFrom r start s).journal.recs.filter (fun x => decide (start % 2 ^ 63 ≤ x.seq)) = x :: rest) :
    journalReadAct r start s = readReply r (start % 2 ^ 63) (x :: rest) x (readFrom r start s) := by
  unfold journalReadAct
  extract_lets seq s1 avail
  have havail : avail = x :: rest := h
  clear_value avail
  subst havail
  rfl

/-- Ageing moves only the list of unreadable records, and a record in flash that could not be read stays so. -/
theorem agesRec_spec (avail : List JRec) (s : State) : ∃ b, (agesRec avail s).regs = s.regs ∧
    (agesRec avail s).journal = { s.journal with bad := b } ∧ ∀ x ∈ s.journal.recs, x.seq ∈ s.journal.bad → x.seq ∈ b := by
  unfold agesRec draw
  generalize Config.freeValue s.free = v
  dsimp only
  split
  next r _ =>
    refine ⟨_, rfl, rfl, fun x hx hbad => ?_⟩
    by_cases hr : x.seq = r.seq
    · exact hr ▸ List.mem_cons_self ..
    · refine List.mem_cons_of_mem _ (List.mem_filter.2 ⟨hbad, ?_⟩)
      simp only [Bool.and_eq_true, bne_iff_ne, ne_eq, hr, not_false_eq_true, true_and, List.any_eq_true, beq_iff_eq]
      exact ⟨x, hx, rfl⟩
  · exact ⟨_, rfl, rfl, fun _ _ h => h⟩

/-- A record fails its check for its chain, or because it cannot be read. -/
theorem recOk_iff (s : State) (x : JRec) : recOk s x = true ↔ x.seq ∉ s.journal.bad ∧ x.chain =
    chainOf ((s.journal.recs.find? (fun p => p.seq + 1 == x.seq)).elim s.journal.chainBefore (·.chain)) x := by
  unfold recOk
  cases s.journal.recs.find? (fun p => p.seq + 1 == x.seq) <;> simp

/-- A read of records answers them from a state in which the flash has aged, or fails on the first. -/
theorem readReply_spec (r : CmdReq) (seq : Nat) {x : JRec} {rest : List JRec} {s : State} (hx : x ∈ s.journal.recs) :
    ∃ u, u.regs = s.regs ∧ u.journal.recs = s.journal.recs ∧
      ((recOk s x = true ∧ recOk u x = true ∧ (∃ d, readReply r seq (x :: rest) x s = finish r 0x0A10 0 d u ∧
          num d 0 2 = (takeRecs u 4032 (x :: rest)).length % 2 ^ 16)) ∨
        ((recOk s x = true → x.seq ∈ u.journal.bad) ∧
          readReply r seq (x :: rest) x s = finish r 0x0A10 0x0D [] (ward 13 16 mNone 0 0 u))) := by
  obtain ⟨b, hregs, hj, hbad⟩ := agesRec_spec (x :: rest) s
  refine ⟨agesRec (x :: rest) s, hregs, by rw [hj], ?_⟩
  have hold : recOk (agesRec (x :: rest) s) x = true → recOk s x = true := by
    rw [recOk_iff, recOk_iff, hj]
    exact fun ⟨hb, hc⟩ => ⟨fun h => hb (hbad x hx h), hc⟩
  have hnew : recOk s x = true → recOk (agesRec (x :: rest) s) x = false → x.seq ∈ (agesRec (x :: rest) s).journal.bad := by
    intro h1 h2
    by_contra hb
    have := (recOk_iff (agesRec (x :: rest) s) x).2 ⟨hb, by rw [hj]; exact ((recOk_iff s x).1 h1).2⟩
    rw [h2] at this
    cases this
  unfold readReply
  extract_lets u recs last fin body
  cases hok : recOk (agesRec (x :: rest) s) x with
  | true =>
    refine .inl ⟨hold hok, rfl, _, if_neg (by decide), ?_⟩
    rw [List.append_assoc, List.append_assoc, num_append_left (by simp), num_le]
    rfl
  | false => exact .inr ⟨fun h => hnew h hok, if_pos rfl⟩

theorem testBit_63_of_lt {n : Nat} (h : n < 2 ^ 63) : n.testBit 63 = false := Nat.testBit_lt_two_pow h

theorem readFrom_plain {r : CmdReq} {start : Nat} (s : State) (h : start < 2 ^ 63) : readFrom r start s = s :=
  when_of_not _ _ (testBit_63_of_lt h)

/-- MARK advances the journal's mark to the last record before the number, where that is further, and leaves the flash. -/
theorem readFrom_mark {r : CmdReq} {start : Nat} (s : State) (h : start < 2 ^ 63) :
    (readFrom r (2 ^ 63 + start) s).rd .WD_JR_MARK = max (s.rd .WD_JR_MARK) (min (start - 1) (s.rd .WD_JR_NEWEST)) ∧
    flashOf (readFrom r (2 ^ 63 + start) s) = flashOf s := by
  have hbit : (2 ^ 63 + start).testBit 63 = true := by
    rw [Nat.testBit_two_pow_add_eq, testBit_63_of_lt h]
    rfl
  have hmod : (2 ^ 63 + start) % 2 ^ 63 = start := by omega
  have hw : Fld.WD_JR_MARK.width = 64 := rfl
  rw [readFrom, when_of _ _ hbit, hmod, advanceMark]
  have hle : min (start - 1) (s.rd .WD_JR_NEWEST) ≤ start - 1 := Nat.min_le_left ..
  generalize min (start - 1) (s.rd .WD_JR_NEWEST) = m at hle ⊢
  by_cases hm : s.rd .WD_JR_MARK < m
  · rw [when_of _ _ (by simpa using hm), flashOf_journal]
    refine ⟨?_, rfl⟩
    rw [(moves_journal (.refl _ _) (within_self _)).reg .WD_JR_MARK 0 0 (by decide +kernel), rd_wr, hw]
    rw [Nat.max_eq_right hm.le, Nat.mod_eq_of_lt (by omega)]
  · rw [when_of_not _ _ (by simpa using hm)]
    exact ⟨(Nat.max_eq_left (Nat.le_of_not_lt hm)).symm, rfl⟩

/-- Settles O35: the queue's head is programmed, the erase and the read are followed through the records in flash. -/
theorem deviceJournal : Obligations.DeviceJournal := by
  refine ⟨fun x rest s hseed hq => ?_, fun x rest s he hr => exec_journalEraseDone he hr,
    fun r start s hs hlen hstart => ⟨fun hnone => ⟨?_, ?_⟩, fun x rest havail => ?_⟩⟩
  · obtain ⟨hflash, hmv⟩ := reportLost_moves (program x (jShow (s.modJournal (fun j => { j with queue := rest }))))
    obtain ⟨hflash', hmv'⟩ := checkpointCheck_moves (reportLost (program x (jShow (s.modJournal (fun j => { j with queue := rest })))))
    obtain ⟨hnewest, hcount, hrecs⟩ := (((program_spec x _).after hmv hflash (by decide +kernel) (by decide +kernel)).after hmv'
      hflash' (by decide +kernel) (by decide +kernel)).of_queue
    exact ⟨_, exec_journalAppend hseed hq, hnewest, hcount, hrecs⟩
  · have hempty : s.journal.recs.filter (fun x => decide (start ≤ x.seq)) = [] :=
      List.filter_eq_nil_iff.2 fun x hx => by simpa using hnone x hx
    refine ⟨_, exec_journalRead hs hlen, s, rfl, ?_⟩
    have hmod : start % 2 ^ 63 = start := Nat.mod_eq_of_lt hstart
    rw [journalReadAct_empty (by rw [readFrom_plain s hstart, hmod]; exact hempty), readFrom_plain s hstart, hmod]
  · obtain ⟨hmark, hflash⟩ := @readFrom_mark r start s hstart
    have hrecs : (readFrom r (2 ^ 63 + start) s).journal.recs = s.journal.recs := congrArg Prod.fst hflash
    have hempty : s.journal.recs.filter (fun x => decide (start ≤ x.seq)) = [] :=
      List.filter_eq_nil_iff.2 fun x hx => by simpa using hnone x hx
    have hmod : (2 ^ 63 + start) % 2 ^ 63 = start := by omega
    exact ⟨_, exec_journalRead hs hlen, _, readFrom r (2 ^ 63 + start) s, hmark,
      journalReadAct_empty (by rw [hrecs, hmod]; exact hempty)⟩
  · have hmod : start % 2 ^ 63 = start := Nat.mod_eq_of_lt hstart
    have hx : x ∈ s.journal.recs := (List.mem_filter.1 (havail ▸ List.mem_cons_self .. :
      x ∈ s.journal.recs.filter (fun x => decide (start ≤ x.seq)))).1
    have hact : journalReadAct r start s = readReply r (start % 2 ^ 63) (x :: rest) x (readFrom r start s) :=
      journalReadAct_cons (by rw [readFrom_plain s hstart, hmod]; exact havail)
    rw [readFrom_plain s hstart] at hact
    obtain ⟨u, hregs, hrecs, hreply⟩ := @readReply_spec r (start % 2 ^ 63) x rest s hx
    have hexec := exec_journalRead (start := start) hs hlen
    rw [hact] at hexec
    refine ⟨fun hok => ⟨_, hexec, u, hregs, hrecs, ?_⟩, fun hok => ⟨_, hexec, u, hregs, hrecs, ?_⟩⟩
    · rcases hreply with ⟨-, hok', hd⟩ | ⟨hbad, hfail⟩
      · exact .inl ⟨hok', hd⟩
      · exact .inr ⟨hbad hok, hfail⟩
    · rcases hreply with ⟨hok', -⟩ | ⟨-, hfail⟩
      · rw [hok] at hok'
        cases hok'
      · exact hfail

end Sys2Proof.Proofs
end

section
/-!
A host link that is held in Detect (R64), and one whose equalised speeds lie above its target (R52).
-/
namespace Sys2Proof.Proofs
open Sys2Proof Sys2Proof.Machine Sys2Proof.Laws
set_option Elab.async false

/-- What an observer reads of a field in the next state of a step. -/
def nextRd (f : Fld) (i : Nat) : Res → Option Nat
  | .next t => some (t.rd f i)
  | _ => none

theorem nextRd_next {f : Fld} {i n : Nat} {o : Res} {t : State} (ho : o = .next t) (h : nextRd f i o = some n) : t.rd f i = n := by
  subst ho
  exact Option.some.inj h

/-- Host link 0 has its logic and its PHY ON and stands in Detect; HOLD is set. -/
def heldInDetect : State :=
  { State.reset with regs := [(⟨.HL_HOLD, 0, 0⟩, 1), (⟨.HL_LTSSM, 0, 0⟩, 0), (⟨.PW_STATE, 0, 2⟩, 2), (⟨.PW_STATE, 0, 10⟩, 2),
    (⟨.PW_PAD_HOLD, 0, 10⟩, 0)], pins := { State.reset.pins with perst := 0 } }

/-- A link with HOLD set does not come up. -/
theorem ltssm_heldInDetect : nextRd .HL_LTSSM 0 (exec (.dlUp 0 1 false false) heldInDetect) = some 0 := by decide +kernel

/-- Refutes O10: the clause on DL_UP does not ask for HOLD to be 0, and a link that HOLD holds does not come up. -/
theorem not_hostLinkBringUp : ¬ Obligations.HostLinkBringUp := by
  rintro ⟨-, hup, -⟩
  obtain ⟨t, ht, hltssm, -⟩ := hup 0 1 false false heldInDetect (by decide +kernel) (by decide +kernel) (by decide +kernel)
    (by decide +kernel) (by decide) (by decide +kernel)
  exact absurd ((nextRd_next ht ltssm_heldInDetect).symm.trans hltssm) (by decide)

/-- Host link 0 runs in L0 at its target speed of 8 GT/s; it stands equalised at 16 GT/s. -/
def equalisedAbove : State :=
  { State.reset with
    regs := [(⟨.HL_TARGET_SPEED, 0, 0⟩, 3), (⟨.HL_LTSSM, 0, 0⟩, 3), (⟨.HL_DL_UP, 0, 0⟩, 1), (⟨.PW_STATE, 0, 2⟩, 2)]
    hls := [(0, { HlS.reset with speed := 3, eqSpeeds := 2 ^ 4 })] }

/-- A change that fails to equalise falls back below its target, not to the higher equalised speed. -/
theorem speed_equalisedAbove : nextRd .HL_CUR_SPEED 0 (exec (.speedChange 0 3 false) equalisedAbove) = some 2 := by decide +kernel

/-- Refutes O11: the clause on a failed equalisation does not keep to TARGET_SPEED, and the highest equalised speed may lie above
it. -/
theorem not_hostLinkModes : ¬ Obligations.HostLinkModes := by
  rintro ⟨-, hspeed, -⟩
  obtain ⟨-, hfail⟩ := hspeed 0 3 equalisedAbove (by decide +kernel) (by decide +kernel) (by decide +kernel) (by decide)
    (by decide +kernel) (by decide)
  obtain ⟨t, ht, hcur, -⟩ := hfail 4 (by decide) (by decide) (by decide) (by decide +kernel) (by decide +kernel)
  exact absurd ((nextRd_next ht speed_equalisedAbove).symm.trans hcur) (by decide)

end Sys2Proof.Proofs
end

section
/-!
Register accesses: which fields a word holds, and a write access of words whose blocks are neither dark nor shut to the
function (R2, R4, R6).
-/
namespace Sys2Proof.Proofs
open Sys2Proof Sys2Proof.Machine Sys2Proof.Laws
set_option Elab.async false

/-! ### The fields of a word -/

/-- The fields of a word of a block, the same for each of its links. -/
theorem fieldsAt_inst (b : Blk) (i o : Nat) (hb : b ≠ .counters) :
    fieldsAt ⟨b, i, o⟩ = (fieldsAt ⟨b, 0, o⟩).map (fun k => ⟨k.f, i, k.j⟩) := by
  simp only [fieldsAt, hb, if_false, List.map_filterMap, Option.map_map]
  rfl

/-- Each register of the HOSTLINK block of a link is of that link. -/
theorem place_ltr (hl : Fin 32) : placeBar0 (0x200018 + hl * 0x1000) = some ⟨.hostlink, hl, 0x18⟩ := by
  revert hl
  decide +kernel

theorem fields_ltr (i : Nat) :
    fieldsAt ⟨.hostlink, i, 0x18⟩ = [⟨.HL_LTR_VALUE, i, 0⟩, ⟨.HL_LTR_SCALE, i, 0⟩, ⟨.HL_LTR_IDLE_TICKS, i, 0⟩] := by
  rw [fieldsAt_inst _ _ _ (by decide), show fieldsAt ⟨.hostlink, 0, 0x18⟩ =
    [⟨.HL_LTR_VALUE, 0, 0⟩, ⟨.HL_LTR_SCALE, 0, 0⟩, ⟨.HL_LTR_IDLE_TICKS, 0, 0⟩] by decide +kernel]
  rfl

theorem fields_dark : fieldsAt ⟨.power, 0, 4⟩ = [⟨.PW_DARK, 0, 0⟩] := by decide +kernel

theorem fields_cmdBase (i : Nat) : fieldsAt ⟨.cmdring, i, 8⟩ = [⟨.KR_CMD_BASE_LO, i, 0⟩] := by
  rw [fieldsAt_inst _ _ _ (by decide), show fieldsAt ⟨.cmdring, 0, 8⟩ = [⟨.KR_CMD_BASE_LO, 0, 0⟩] by decide +kernel]
  rfl

theorem fields_cadCtrl : fieldsAt ⟨.cadence, 0, 0⟩ = [⟨.CAD_EN, 0, 0⟩, ⟨.CAD_SRC, 0, 0⟩, ⟨.CAD_EDGE, 0, 0⟩,
    ⟨.CAD_OUT_EN, 0, 0⟩, ⟨.CAD_OUT_SRC, 0, 0⟩, ⟨.CAD_OUT_WIDTH, 0, 0⟩, ⟨.CAD_LOCK, 0, 0⟩] := by decide +kernel

theorem fields_nominal : fieldsAt ⟨.cadence, 0, 4⟩ = [⟨.CAD_NOMINAL, 0, 0⟩] := by decide +kernel

/-- A block of PD_AON is never dark. -/
theorem placeDark_aon {p : Place} {k : RegKey} {l : List RegKey} (s : State) (hf : fieldsAt p = k :: l)
    (hk : keyDomain k = none) : placeDark s p = none := by
  simp only [placeDark, placeDomain, hf, hk, Option.filter_none]

/-- A block of a domain that is ON is not dark. -/
theorem placeDark_on {p : Place} {k : RegKey} {l : List RegKey} {s : State} {d : Nat} (hf : fieldsAt p = k :: l)
    (hk : keyDomain k = some d) (hd : s.domOn d = true) : placeDark s p = none := by
  simp only [placeDark, placeDomain, hf, hk, Option.filter_some, hd, Bool.not_true, Bool.false_eq_true, if_false]

/-! ### What an access leaves -/

/-- Who may write depends on the manager, the fatal reaction and what waits at the link. -/
theorem mgrWrites_of {s t : State} (fn : Fn) (hk : t.keeper = s.keeper) (hr : t.rd .WD_REACT = s.rd .WD_REACT)
    (hh : ∀ h, (t.hl h).inWait = (s.hl h).inWait) : mgrWrites t fn = mgrWrites s fn := by
  unfold mgrWrites State.isMgr State.react State.on inboundFull
  rw [hk, hr, hh]

/-- An access that arrives leaves what waits at each link. -/
theorem inWait_accessIn (fn : Fn) (n : Nat) (s : State) (h : Nat) : ((accessIn fn n s).hl h).inWait = (s.hl h).inWait := by
  unfold accessIn
  refine when_cases (P := fun t => (t.hl h).inWait = (s.hl h).inWait) rfl ?_
  unfold rxTlp
  rw [modHl_hl]
  split
  · next hk =>
      rw [hk]
      rfl
  · rfl

theorem keeper_accessIn (fn : Fn) (n : Nat) (s : State) : (accessIn fn n s).keeper = s.keeper :=
  (moves_accessIn (.refl _ _) (within_self _)).part .keeper (by decide +kernel)

/-- An access that arrives counts in the counters of its link and moves no other register. -/
theorem rd_accessIn (fn : Fn) (n : Nat) (s : State) (f : Fld) (i j : Nat) (hf : foot_accessIn.testBit (fbit f) = false) :
    (accessIn fn n s).rd f i j = s.rd f i j :=
  (moves_accessIn (.refl _ _) (within_self _)).reg f i j hf

theorem inboundFull_accessIn (fn : Fn) (n : Nat) (s : State) (h : Nat) :
    inboundFull (accessIn fn n s) h = inboundFull s h := by
  unfold inboundFull
  rw [inWait_accessIn]

theorem mgrWrites_accessIn (fn g : Fn) (n : Nat) (s : State) : mgrWrites (accessIn fn n s) g = mgrWrites s g :=
  mgrWrites_of g (keeper_accessIn fn n s) (rd_accessIn fn n s _ _ _ (by decide +kernel)) (inWait_accessIn fn n s)

/-! ### A write access -/

/-- A write to a link that takes it and to a place that R2 admits is the access to the words. -/
theorem exec_registerWrite {fn : Fn} {bar : Fin 8} {off size v : Nat} {s : State} (hf : inboundFull s fn.hl = false)
    (hu : accessUr (accessIn fn size s) fn off size = false) :
    exec (.registerWrite ⟨fn, bar, off, size, v⟩) s =
      .next (writeAccess fn bar off (size / 4) v (accessIn fn size s)) := by
  change execRegisterWrite _ s = _
  unfold execRegisterWrite
  rw [when_of _ _ (by rw [hf]; rfl)]
  simp only [hu, Bool.false_eq_true, if_false]

/-- A write of one word to a block that is not dark and takes the function's writes. -/
theorem writeAccess_word {fn : Fn} {bar off v : Nat} {s : State} {p : Place} (hm : msixAt fn bar off = none)
    (hb : pbaAt fn bar off = none) (hp : writePlace s fn bar off = some p) (hd : placeDark s p = none)
    (hw : mayWrite s fn p = true) :
    writeAccess fn bar off 1 v s = writeLock p (v % 2 ^ 32) (writeReg fn p (v % 2 ^ 32) s) := by
  have hwords : wordsOf off 1 v = [(off, v % 2 ^ 32)] := by simp [wordsOf]
  have hword : writeWord fn bar off (v % 2 ^ 32) s = writeReg fn p (v % 2 ^ 32) s := by
    simp only [writeWord, hm, hp]
    exact when_of _ _ hw
  have hlock (t : State) : lockWord s fn bar (off, v % 2 ^ 32) t = writeLock p (v % 2 ^ 32) t := by
    have hfilter : (some p).filter (mayWrite s fn) = some p := by simp [hw]
    unfold lockWord
    rw [hp, hfilter]
    rfl
  unfold writeAccess
  simp only [darkAt, hm, hb, hp, hd, hwords, each, List.foldl, hword, hlock, Option.isSome_none, Bool.or_self,
    Bool.false_eq_true, if_false, Option.bind_some]

/-- The fields of a word that act by their access code are stored one by one. -/
theorem putPlain_of {p : Place} {v : Nat} {s : State} {l : List RegKey}
    (hl : (fieldsAt p).filter (fun k => !ownRow k.f && k.f.info.acc != .w1s && !shut s k) = l) :
    putPlain p v s = each l (storeField v) s := by
  unfold putPlain
  rw [hl]

/-- A word without a LOCK bit and without rows of its own stores its fields and no more. -/
theorem writeReg_plain {fn : Fn} {p : Place} {v : Nat} {s : State} {l : List RegKey}
    (hl : (fieldsAt p).filter (fun k => !ownRow k.f && k.f.info.acc != .w1s && !shut s k) = l)
    (hk : (fieldsAt p).filter (fun k => k.f.info.acc == .w1s) = []) (hr : ∀ t, putRows fn p v t = t)
    (hc : p ≠ ⟨.cadence, 0, 0⟩) : writeLock p v (writeReg fn p v s) = each l (storeField v) s := by
  unfold writeLock writeReg
  rw [hk, when_of_not _ _ (by simpa using hc), hr, putPlain_of hl]
  rfl

/-! ### Where an access goes -/

/-- The manager's function is a PF. -/
theorem vf_of_isMgr {s : State} {fn : Fn} (h : s.isMgr (fnIdx fn) = true) : fn.vf.val = 0 := by
  have hidx : fnIdx fn = pfIdx s.keeper.mgrHl := beq_iff_eq.1 (Bool.and_eq_true_iff.1 h).2
  have hlt := fn.vf.isLt
  unfold fnIdx pfIdx at hidx
  omega

/-- A place of PF BAR0, of those that are decoded. -/
theorem place_pf {s : State} {fn : Fn} (h : fn.vf.val = 0) (off : Nat) :
    place s fn 0 off = (placeBar0 off).filter (fun p => !recovery s || recoveryBlk p.blk) := by
  simp [place, h]

/-- A PF writes where it reads. -/
theorem writePlace_pf {s : State} {fn : Fn} (h : fn.vf.val = 0) (bar off : Nat) :
    writePlace s fn bar off = place s fn bar off := by
  simp [writePlace, h]

theorem writePlace_bar0 {s : State} {fn : Fn} {off : Nat} {p : Place} (h : fn.vf.val = 0) (hp : placeBar0 off = some p)
    (hr : (!recovery s || recoveryBlk p.blk) = true) : writePlace s fn 0 off = some p := by
  rw [writePlace_pf h, place_pf h, hp, Option.filter_some, hr]
  rfl

/-- An offset of PF BAR0 names a place in one of its blocks. -/
theorem placeBar0_mem {off : Nat} {p : Place} (h : placeBar0 off = some p) : p.blk ∈ bar0Blks := by
  unfold placeBar0 at h
  split at h
  · next b hb =>
    have hmem := List.mem_of_find?_eq_some hb
    obtain rfl := Option.some.inj h
    split <;> exact hmem
  · exact absurd h (by simp)

/-- A PF that is not the manager writes nothing in PF BAR0. -/
theorem mayWrite_not_mgr {s : State} {fn : Fn} {p : Place} (hv : fn.vf.val = 0) (hm : s.isMgr (fnIdx fn) = false)
    (hp : p.blk ∈ bar0Blks) : mayWrite s fn p = false := by
  have hmgr : mgrWrites s fn = false := by simp [mgrWrites, hm]
  have hchan (c : Nat) : chanWrites s fn c = false := by simp [chanWrites, hm, hv]
  obtain ⟨b, i, o⟩ := p
  cases b <;> simp [mayWrite, hmgr, hchan, hv, bar0Blks] at hp ⊢

theorem msixAt_bar0 (fn : Fn) (off : Nat) : msixAt fn 0 off = none := rfl
theorem pbaAt_bar0 (fn : Fn) (off : Nat) : pbaAt fn 0 off = none := rfl

/-- An access to PF BAR0 by a PF that is not the manager changes nothing. -/
theorem writeAccess_not_mgr {s : State} {fn : Fn} {off n v : Nat} (hv : fn.vf.val = 0) (hm : s.isMgr (fnIdx fn) = false)
    (hd : (writePlace s fn 0 off).bind (placeDark s) = none) : writeAccess fn 0 off n v s = s := by
  have hplace {o : Nat} {p : Place} (h : writePlace s fn 0 o = some p) : mayWrite s fn p = false := by
    rw [writePlace_pf hv, place_pf hv] at h
    exact mayWrite_not_mgr hv hm (placeBar0_mem (Option.filter_eq_some_iff.1 h).1)
  have hword (w : Nat × Nat) : writeWord fn 0 w.1 w.2 s = s := by
    unfold writeWord
    rw [msixAt_bar0]
    cases h : writePlace s fn 0 w.1
    case none => rfl
    case some p => exact when_of_not _ _ (hplace h)
  have hlock (w : Nat × Nat) : lockWord s fn 0 w s = s := by
    have hnone : (writePlace s fn 0 w.1).filter (mayWrite s fn) = none := by
      rw [Option.filter_eq_none_iff]
      intro p h
      simp [hplace h]
    unfold lockWord
    rw [hnone]
    rfl
  have hdark : darkAt s fn 0 off (writePlace s fn 0 off) = none := hd
  unfold writeAccess
  rw [hdark]
  exact each_induct (P := fun t => t = s) _ (each_induct (P := fun t => t = s) _ rfl (fun w t ht => ht ▸ hword w))
    (fun w t ht => ht ▸ hlock w)

/-- What an offset names depends on ROM recovery and on the tenants that VFs are bound to. -/
theorem place_of {s t : State} (hr : t.rd .PW_RECOVERY = s.rd .PW_RECOVERY)
    (hb : ∀ f, t.rd .DVSEC_TNID f = s.rd .DVSEC_TNID f) (ht : ∀ n, t.ten n = s.ten n) (fn : Fn) (bar off : Nat) :
    place t fn bar off = place s fn bar off := by
  have hbound (f : Nat) : t.boundTn f = s.boundTn f := by simp only [State.boundTn, hb]
  simp only [place, recovery, State.on, hr, hbound, ht]

theorem place_accessIn (g : Fn) (n : Nat) (s : State) (fn : Fn) (bar off : Nat) :
    place (accessIn g n s) fn bar off = place s fn bar off :=
  place_of (rd_accessIn g n s _ _ _ (by decide +kernel)) (fun _ => rd_accessIn g n s _ _ _ (by decide +kernel))
    (fun _ => by
      have htens := (moves_accessIn (fn := g) (n := n) (.refl _ s) (within_self _)).part .tens (by decide +kernel)
      simp only [State.ten]
      rw [htens]) fn bar off

theorem writePlace_accessIn (g : Fn) (n : Nat) (s : State) (fn : Fn) (bar off : Nat) :
    writePlace (accessIn g n s) fn bar off = writePlace s fn bar off := by
  simp only [writePlace, place_accessIn]

theorem placeDark_accessIn (g : Fn) (n : Nat) (s : State) (p : Place) :
    placeDark (accessIn g n s) p = placeDark s p := by
  simp only [placeDark, State.domOn, rd_accessIn g n s .PW_STATE _ _ (by decide +kernel)]

theorem accessUr_accessIn (g : Fn) (n : Nat) (s : State) (fn : Fn) (off size : Nat) :
    accessUr (accessIn g n s) fn off size = accessUr s fn off size := by
  simp only [accessUr, State.boundTn, rd_accessIn g n s .DVSEC_TNID _ _ (by decide +kernel)]

/-! ### The words of the statement -/

/-- A write of one word of PF BAR0 by the manager, of a block that R97 lets through and that is not dark. -/
theorem exec_mgrWrite {fn : Fn} {off v : Nat} {p : Place} {s : State} (hw : mgrWrites s fn = true)
    (halign : off % 4 = 0) (hp : placeBar0 off = some p) (hr : (!recovery s || recoveryBlk p.blk) = true)
    (hd : placeDark s p = none) (hmay : mayWrite (accessIn fn 4 s) fn p = true) :
    exec (.registerWrite ⟨fn, 0, off, 4, v⟩) s =
      .next (writeLock p (v % 2 ^ 32) (writeReg fn p (v % 2 ^ 32) (accessIn fn 4 s))) := by
  have hfull : inboundFull s fn.hl.val = false := by
    have h := (Bool.and_eq_true_iff.1 hw).2
    simpa using h
  have hv : fn.vf.val = 0 := vf_of_isMgr (Bool.and_eq_true_iff.1 (Bool.and_eq_true_iff.1 hw).1).1
  have hur : accessUr (accessIn fn 4 s) fn off 4 = false := by simp [accessUr, halign, hv]
  rw [exec_registerWrite hfull hur]
  refine congrArg Host.Outcome.next (writeAccess_word (msixAt_bar0 _ _) (pbaAt_bar0 _ _) ?_ ?_ hmay)
  · exact (writePlace_accessIn ..).trans (writePlace_bar0 hv hp hr)
  · exact (placeDark_accessIn ..).trans hd

/-- The manager's write of the LTR word of a link's HOSTLINK block. -/
theorem write_ltr (fn : Fn) (hl : Hl) (v : Nat) (s : State) (hw : mgrWrites s fn = true) (hr : recovery s = false)
    (hpr : s.present hl = true) (hon : s.tlOn (hlTiller hl) = true) :
    exec (.registerWrite ⟨fn, 0, 0x200018 + hl * 0x1000, 4, v⟩) s = .next (each
      [⟨.HL_LTR_VALUE, hl, 0⟩, ⟨.HL_LTR_SCALE, hl, 0⟩, ⟨.HL_LTR_IDLE_TICKS, hl, 0⟩] (storeField (v % 2 ^ 32))
      (accessIn fn 4 s)) := by
  have hdark : placeDark s ⟨.hostlink, hl, 0x18⟩ = none := placeDark_on (fields_ltr hl) rfl hon
  have hpres : (accessIn fn 4 s).present hl = true := by
    simpa only [State.present, State.on, rd_accessIn fn 4 s .HL_PRESENT _ _ (by decide +kernel)] using hpr
  have halign : (0x200018 + hl.val * 0x1000) % 4 = 0 := by omega
  rw [exec_mgrWrite hw halign (place_ltr hl) (by rw [hr]; rfl) hdark
    (by simp only [mayWrite, mgrWrites_accessIn, hw, hpres, Bool.and_self])]
  refine congrArg Host.Outcome.next
    (writeReg_plain (by rw [fields_ltr]; rfl) (by rw [fields_ltr]; rfl) (fun _ => rfl) (by simp))

theorem store_ltr (i w : Nat) (s : State) :
    each [⟨.HL_LTR_VALUE, i, 0⟩, ⟨.HL_LTR_SCALE, i, 0⟩, ⟨.HL_LTR_IDLE_TICKS, i, 0⟩] (storeField w) s =
      ((s.wr .HL_LTR_VALUE (w / 2 ^ 0 % 2 ^ 10) i).wr .HL_LTR_SCALE (w / 2 ^ 10 % 2 ^ 3) i).wr .HL_LTR_IDLE_TICKS
        (w / 2 ^ 16 % 2 ^ 8) i := rfl

theorem write_dark (fn : Fn) (v : Nat) (s : State) (hw : mgrWrites s fn = true) :
    exec (.registerWrite ⟨fn, 0, 0x320004, 4, v⟩) s =
      .next (storeField (v % 2 ^ 32) ⟨.PW_DARK, 0, 0⟩ (accessIn fn 4 s)) := by
  rw [exec_mgrWrite hw (by decide) (show placeBar0 0x320004 = some ⟨.power, 0, 4⟩ by decide +kernel) (Bool.or_true _)
    (placeDark_aon s fields_dark rfl)
    ((mgrWrites_accessIn ..).trans hw)]
  exact congrArg Host.Outcome.next
    (writeReg_plain (l := [⟨.PW_DARK, 0, 0⟩]) (by rw [fields_dark]; rfl) (by rw [fields_dark]; rfl) (fun _ => rfl) (by decide))

/-- A function's write of the base of its command ring, which is shut while the ring is enabled. -/
theorem write_cmdBase (fn : Fn) (v : Nat) (s : State) (hv : fn.vf.val = 0) (hw : fnWrites s fn = true) :
    exec (.registerWrite ⟨fn, 4, 0x10008, 4, v⟩) s = .next (if s.on .KR_EN (fnIdx fn) then accessIn fn 4 s else
      storeField (v % 2 ^ 32) ⟨.KR_CMD_BASE_LO, fnIdx fn, 0⟩ (accessIn fn 4 s)) := by
  have hsplit := Bool.and_eq_true_iff.1 hw
  obtain ⟨hon, hfull⟩ := Bool.and_eq_true_iff.1 hsplit.1
  have hplace : writePlace (accessIn fn 4 s) fn 4 0x10008 = some ⟨.cmdring, fnIdx fn, 8⟩ := by
    simp [writePlace, place, hv, placeRing]
  have hen : (accessIn fn 4 s).on .KR_EN (fnIdx fn) = s.on .KR_EN (fnIdx fn) := by
    simp only [State.on, rd_accessIn fn 4 s .KR_EN _ _ (by decide +kernel)]
  have htl : (accessIn fn 4 s).tlOn (hlTiller fn.hl) = true := by
    simpa only [State.tlOn, State.domOn, rd_accessIn fn 4 s .PW_STATE _ _ (by decide +kernel)] using hon
  have hdark : placeDark (accessIn fn 4 s) ⟨.cmdring, fnIdx fn, 8⟩ = none := by
    have htiller : fnIdx fn / 2048 = hlTiller fn.hl := by
      unfold fnIdx hlTiller
      omega
    exact placeDark_on (d := dTl (fnIdx fn / 2048)) (fields_cmdBase _) rfl (htiller ▸ htl)
  have hmay : mayWrite (accessIn fn 4 s) fn ⟨.cmdring, fnIdx fn, 8⟩ = true := by
    simp only [mayWrite, fnWrites, htl, hv, inboundFull_accessIn, hfull, if_true, Bool.and_self]
  rw [exec_registerWrite (by simpa using hfull) (by simp [accessUr, hv])]
  refine congrArg Host.Outcome.next ((writeAccess_word (by simp [msixAt, hv]) (by simp [pbaAt, hv]) hplace hdark hmay).trans ?_)
  have hfilter : (fieldsAt ⟨.cmdring, fnIdx fn, 8⟩).filter
      (fun k => !ownRow k.f && k.f.info.acc != .w1s && !shut (accessIn fn 4 s) k) =
        if s.on .KR_EN (fnIdx fn) then [] else [⟨.KR_CMD_BASE_LO, fnIdx fn, 0⟩] := by
    have hshut : shut (accessIn fn 4 s) ⟨.KR_CMD_BASE_LO, fnIdx fn, 0⟩ = s.on .KR_EN (fnIdx fn) := by
      simp [shut, hen]
    rw [fields_cmdBase, List.filter_cons, hshut]
    cases s.on .KR_EN (fnIdx fn) <;> rfl
  rw [writeReg_plain hfilter (by rw [fields_cmdBase]; rfl) (fun _ => rfl) (by simp)]
  split <;> rfl

/-! ### The control word of the cadence unit -/

/-- The rows of the control word of the cadence unit: EN, then SRC. -/
theorem putRows_cadCtrl (fn : Fn) (v : Nat) (s : State) : putRows fn ⟨.cadence, 0, 0⟩ v s =
    after (execCadSrcChange fn (v.testBit 1)) (after (execCadEnChange fn (v.testBit 0)) s) := rfl

/-- The plain fields of the control word of the cadence unit. -/
def cadPlain : List RegKey := [⟨.CAD_EDGE, 0, 0⟩, ⟨.CAD_OUT_EN, 0, 0⟩, ⟨.CAD_OUT_SRC, 0, 0⟩, ⟨.CAD_OUT_WIDTH, 0, 0⟩]

theorem putPlain_cadCtrl (v : Nat) (s : State) : putPlain ⟨.cadence, 0, 0⟩ v s = each cadPlain (storeField v) s :=
  putPlain_of (by rw [fields_cadCtrl]; rfl)

/-- A field that is stored is the only one that moves. -/
theorem moves_storeField_own {m : Nat} {r s : State} {v : Nat} {k : RegKey} (h : Moves m r s) (hk : Within (fm k.f) m) :
    Moves m r (storeField v k s) := by
  unfold storeField
  split
  case h_2 => split <;> [exact h; exact moves_wr h hk]
  case h_4 => dsimp only; split <;> [exact h; exact moves_wr h hk]
  case h_5 => exact h
  all_goals exact moves_wr h hk

/-- What a write of the control word of the cadence unit moves, LOCK aside. -/
def foot_cadCtrl : Nat := foot_execCadSrcChange ||| foot_execCadEnChange |||
  fms [.CAD_EDGE, .CAD_OUT_EN, .CAD_OUT_SRC, .CAD_OUT_WIDTH]

theorem moves_cadPlain (v : Nat) (s : State) :
    Moves (fms [.CAD_EDGE, .CAD_OUT_EN, .CAD_OUT_SRC, .CAD_OUT_WIDTH]) s (each cadPlain (storeField v) s) :=
  moves_each_mem (.refl _ _) (fun k hk _ hz => moves_storeField_own hz
    (within_fms (l := [.CAD_EDGE, .CAD_OUT_EN, .CAD_OUT_SRC, .CAD_OUT_WIDTH])
      (List.mem_map_of_mem (f := RegKey.f) hk : k.f ∈ cadPlain.map RegKey.f) (within_self _)))

/-- The rows of the control word. -/
theorem moves_cadRows (fn : Fn) (v : Nat) (s : State) : Moves (foot_execCadSrcChange ||| foot_execCadEnChange) s
    (after (execCadSrcChange fn (v.testBit 1)) (after (execCadEnChange fn (v.testBit 0)) s)) :=
  moves_after (moves_after (.refl _ _) (fun _ h => moves_execCadEnChange h (by unfold Within; decide +kernel)) within_zero)
    (fun _ h => moves_execCadSrcChange h (by unfold Within; decide +kernel)) within_zero

theorem writeReg_cadCtrl (fn : Fn) (v : Nat) (s : State) : writeReg fn ⟨.cadence, 0, 0⟩ v s =
    showCadOut (cadOutKind s) (after (execCadSrcChange fn (v.testBit 1)) (after (execCadEnChange fn (v.testBit 0))
      (each cadPlain (storeField v) s))) := by
  unfold writeReg
  rw [when_of _ _ (by decide), putRows_cadCtrl, putPlain_cadCtrl]

theorem moves_cadCtrl (fn : Fn) (v : Nat) (s : State) :
    Moves foot_cadCtrl s (writeReg fn ⟨.cadence, 0, 0⟩ v s) := by
  rw [writeReg_cadCtrl]
  refine moves_showCadOut (Moves.trans (Moves.mono (moves_cadPlain v s) ?_) (Moves.mono (moves_cadRows fn v _) ?_)) within_zero
  · unfold Within foot_cadCtrl; decide +kernel
  · unfold Within foot_cadCtrl; decide +kernel

/-- A write of LOCK to 1 sets it, and a word without one has no LOCK bit. -/
theorem writeLock_cadCtrl (v : Nat) (s : State) :
    writeLock ⟨.cadence, 0, 0⟩ v s = storeField v ⟨.CAD_LOCK, 0, 0⟩ s := by
  unfold writeLock
  rw [fields_cadCtrl]
  rfl

theorem writeLock_nominal (v : Nat) (s : State) : writeLock ⟨.cadence, 0, 4⟩ v s = s := by
  unfold writeLock
  rw [fields_nominal]
  rfl

theorem store_cadLock (v : Nat) (s : State) : (storeField v ⟨.CAD_LOCK, 0, 0⟩ s).rd .CAD_LOCK =
    if v.testBit 31 = true then 1 else s.rd .CAD_LOCK := by
  change (if v / 2 ^ 31 % 2 = 0 then s else s.wr .CAD_LOCK (s.rd .CAD_LOCK ||| v / 2 ^ 31 % 2)).rd .CAD_LOCK = _
  rw [Nat.testBit_eq_decide_div_mod_eq]
  by_cases h : v / 2 ^ 31 % 2 = 1
  · rw [h, if_neg (by decide), rd_wr]
    exact Nat.or_mod_two_eq_one.2 (.inr rfl)
  · rw [if_pos (by omega), if_neg (by simpa using h)]

/-- The stored part of a locked field is what it was. -/
theorem storeField_locked {v : Nat} {k : RegKey} {s : State} (hk : k.f.info.acc = .rwl)
    (hl : locked s k.f.info.blk k.i = true) : storeField v k s = s := by
  simp only [storeField, hk, hl, if_true]

theorem storeField_unlocked {v : Nat} {k : RegKey} {s : State} (hk : k.f.info.acc = .rwl)
    (hl : locked s k.f.info.blk k.i = false) : storeField v k s = s.wr k.f (fieldPart k.f v) k.i k.j := by
  simp only [storeField, hk, hl, Bool.false_eq_true, if_false]

theorem cadence_unlocked {s : State} (h : s.rd .CAD_LOCK = 0) : locked s .cadence 0 = false := by
  simp [locked, lockOf, State.on, h]

theorem writeReg_nominal (fn : Fn) (v : Nat) (s : State) :
    writeReg fn ⟨.cadence, 0, 4⟩ v s = storeField v ⟨.CAD_NOMINAL, 0, 0⟩ s := by
  unfold writeReg
  rw [when_of_not _ _ (by decide), putPlain_of (l := [⟨.CAD_NOMINAL, 0, 0⟩]) (by rw [fields_nominal]; rfl)]
  rfl

theorem place_cadCtrl : placeBar0 0x300000 = some ⟨.cadence, 0, 0⟩ := by decide +kernel
theorem place_nominal : placeBar0 0x300004 = some ⟨.cadence, 0, 4⟩ := by decide +kernel

theorem cadCtrl_not_dark (s : State) : placeDark s ⟨.cadence, 0, 0⟩ = none :=
  placeDark_aon s fields_cadCtrl rfl

/-- The manager's access to the control word of the cadence unit. -/
theorem writeAccess_cadCtrl {fn : Fn} {s : State} (v : Nat) (hw : mgrWrites s fn = true) :
    writeAccess fn 0 0x300000 1 v s =
      storeField (v % 2 ^ 32) ⟨.CAD_LOCK, 0, 0⟩ (writeReg fn ⟨.cadence, 0, 0⟩ (v % 2 ^ 32) s) := by
  have hv : fn.vf.val = 0 := vf_of_isMgr (Bool.and_eq_true_iff.1 (Bool.and_eq_true_iff.1 hw).1).1
  rw [← writeLock_cadCtrl]
  exact writeAccess_word (msixAt_bar0 _ _) (pbaAt_bar0 _ _) (writePlace_bar0 hv place_cadCtrl (Bool.or_true _))
    (cadCtrl_not_dark s) hw

/-- The manager's access of 64 bits to the control word and to NOMINAL. -/
theorem writeAccess_cadPair {fn : Fn} {s : State} (v : Nat) (hw : mgrWrites s fn = true) :
    writeAccess fn 0 0x300000 2 v s = storeField (v % 2 ^ 32) ⟨.CAD_LOCK, 0, 0⟩
      (storeField (v / 2 ^ 32 % 2 ^ 32) ⟨.CAD_NOMINAL, 0, 0⟩ (writeReg fn ⟨.cadence, 0, 0⟩ (v % 2 ^ 32) s)) := by
  have hv : fn.vf.val = 0 := vf_of_isMgr (Bool.and_eq_true_iff.1 (Bool.and_eq_true_iff.1 hw).1).1
  have hctrl (t : State) : writePlace t fn 0 0x300000 = some ⟨.cadence, 0, 0⟩ :=
    writePlace_bar0 hv place_cadCtrl (Bool.or_true _)
  have hnom (t : State) : writePlace t fn 0 0x300004 = some ⟨.cadence, 0, 4⟩ :=
    writePlace_bar0 hv place_nominal (Bool.or_true _)
  have hword {o : Nat} {p : Place} {t : State} (x : Nat) (hp : writePlace t fn 0 o = some p) (ht : mayWrite t fn p = true) :
      writeWord fn 0 o x t = writeReg fn p x t := by
    simp only [writeWord, msixAt_bar0, hp]
    exact when_of _ _ ht
  have hlock {o : Nat} {p : Place} (x : Nat) (t : State) (hp : writePlace s fn 0 o = some p) (hs : mayWrite s fn p = true) :
      lockWord s fn 0 (o, x) t = writeLock p x t := by
    have hfilter : (some p).filter (mayWrite s fn) = some p := by simp [hs]
    unfold lockWord
    rw [hp, hfilter]
    rfl
  have hmoves := moves_cadCtrl fn (v % 2 ^ 32) s
  have hw1 : mgrWrites (writeReg fn ⟨.cadence, 0, 0⟩ (v % 2 ^ 32) s) fn = true := by
    have hhls := hmoves.part .hls (by decide +kernel)
    rw [mgrWrites_of fn (hmoves.part .keeper (by decide +kernel)) (hmoves.reg _ _ _ (by decide +kernel))
      (fun h => by simp only [State.hl]; rw [hhls]), hw]
  have hwords : wordsOf 0x300000 2 v = [(0x300000, v % 2 ^ 32), (0x300004, v / 2 ^ 32 % 2 ^ 32)] := by
    simp [wordsOf, List.range_succ]
  have hdark : darkAt s fn 0 0x300000 (writePlace s fn 0 0x300000) = none := by
    rw [hctrl]
    exact cadCtrl_not_dark s
  unfold writeAccess
  simp only [hdark, hwords, each, List.foldl]
  rw [hword _ (hctrl s) hw, hword _ (hnom _) hw1, hlock _ _ (hctrl s) hw, hlock _ _ (hnom s) hw, writeLock_nominal,
    writeLock_cadCtrl, writeReg_nominal]

/-- The bits of a number without those that it shares with another. -/
theorem testBit_sub_and (a b d : Nat) : (a - (a &&& b)).testBit d = (a.testBit d && !b.testBit d) := by
  induction d generalizing a b with
  | zero =>
    have hle : a &&& b ≤ a := Nat.and_le_left
    have hmod : (a &&& b) % 2 = 1 ↔ a % 2 = 1 ∧ b % 2 = 1 := Nat.and_mod_two_eq_one
    rw [Bool.eq_iff_iff]
    simp only [Nat.testBit_zero, Bool.and_eq_true, Bool.not_eq_true', decide_eq_true_eq, decide_eq_false_iff_not]
    omega
  | succ n ih =>
    have hle : a &&& b ≤ a := Nat.and_le_left
    have hmod : (a &&& b) % 2 = 1 → a % 2 = 1 := fun h => (Nat.and_mod_two_eq_one.1 h).1
    have hdiv : (a - (a &&& b)) / 2 = a / 2 - (a / 2 &&& b / 2) := by
      rw [← Nat.and_div_two]
      omega
    rw [Nat.testBit_succ, hdiv, ih, Nat.testBit_succ, Nat.testBit_succ]

/-- Settles O15: an access that is not admitted is answered UR; a word that is written stores its fields by their access
codes; and LOCK comes behind the words. -/
theorem registerWrites : Obligations.RegisterWrites := by
  refine ⟨fun a s hbad hf => ?_, fun a s hv hbar hm hd hu hf => ?_, fun a s hf => ?_, fun fn hl v s hw hr hpr hon => ?_,
    fun fn v s hw => ?_, fun fn v s hv hw => ?_, fun fn v s hw hlock hv => ?_⟩
  · have hur : accessUr s a.fn a.off a.size = true := by
      rcases hbad with ⟨h4, h8⟩ | h | ⟨h0, hn⟩
      · simp [accessUr, h4, h8]
      · simp [accessUr, h]
      · simp [accessUr, h0, hn]
    change execRegisterWrite a s = _
    unfold execRegisterWrite
    rw [when_of _ _ (by rw [hf]; rfl)]
    dsimp only
    rw [accessUr_accessIn, hur]
    rfl
  · obtain ⟨fn, bar, off, size, v⟩ := a
    obtain rfl : bar = 0 := hbar
    rw [exec_registerWrite hf ((accessUr_accessIn ..).trans hu)]
    refine congrArg Host.Outcome.next (writeAccess_not_mgr hv ?_ ?_)
    · simpa only [State.isMgr, keeper_accessIn] using hm
    · rw [writePlace_accessIn]
      cases hp : writePlace s fn 0 off
      case none => rfl
      case some p =>
        rw [hp] at hd
        exact (placeDark_accessIn ..).trans hd
  · change execRegisterWrite a s = _
    unfold execRegisterWrite
    rw [when_of_not _ _ (by rw [hf]; rfl)]
  · refine ⟨_, (write_ltr fn hl v s hw hr hpr hon).trans (congrArg Host.Outcome.next (store_ltr ..)), ?_, ?_, ?_, ?_⟩
    · rw [rd_wr_ne _ (by simp), rd_wr_ne _ (by simp), rd_wr, show Fld.HL_LTR_VALUE.width = 10 from rfl]
      omega
    · rw [rd_wr_ne _ (by simp), rd_wr, show Fld.HL_LTR_SCALE.width = 3 from rfl]
      omega
    · rw [rd_wr, show Fld.HL_LTR_IDLE_TICKS.width = 8 from rfl]
      omega
    · rw [rd_wr_ne _ (by simp), rd_wr_ne _ (by simp), rd_wr_ne _ (by simp)]
      exact rd_accessIn fn 4 s _ _ _ (by decide +kernel)
  · refine ⟨_, write_dark fn v s hw, fun d hd => ?_⟩
    change (((accessIn fn 4 s).wr .PW_DARK ((accessIn fn 4 s).rd .PW_DARK -
      ((accessIn fn 4 s).rd .PW_DARK &&& v % 2 ^ 32 / 2 ^ 0 % 2 ^ 26))).rd .PW_DARK).testBit d = _
    have hbit : (v % 2 ^ 32 / 2 ^ 0 % 2 ^ 26).testBit d = v.testBit d := by
      simp only [Nat.pow_zero, Nat.div_one, Nat.testBit_mod_two_pow]
      simp [hd, show d < 32 by omega]
    rw [rd_wr, rd_accessIn fn 4 s _ _ _ (by decide +kernel), show Fld.PW_DARK.width = 26 from rfl,
      Nat.testBit_mod_two_pow, testBit_sub_and, hbit]
    simp [hd]
  · refine ⟨_, write_cmdBase fn v s hv hw, ?_⟩
    split
    · exact rd_accessIn fn 4 s _ _ _ (by decide +kernel)
    · change ((accessIn fn 4 s).wr .KR_CMD_BASE_LO (v % 2 ^ 32 / 2 ^ 12 % 2 ^ 20) (fnIdx fn)).rd _ _ = _
      rw [rd_wr, show Fld.KR_CMD_BASE_LO.width = 20 from rfl]
      omega
  · have hfull : inboundFull s fn.hl.val = false := by simpa using (Bool.and_eq_true_iff.1 hw).2
    have hvf : fn.vf.val = 0 := vf_of_isMgr (Bool.and_eq_true_iff.1 (Bool.and_eq_true_iff.1 hw).1).1
    have hlock1 : (writeReg fn ⟨.cadence, 0, 0⟩ (v % 2 ^ 32) (accessIn fn 8 s)).rd .CAD_LOCK = 0 :=
      ((moves_cadCtrl _ _ _).reg _ _ _ (by decide +kernel)).trans
        ((rd_accessIn fn 8 s _ _ _ (by decide +kernel)).trans hlock)
    have hpair := writeAccess_cadPair (s := accessIn fn 8 s) v ((mgrWrites_accessIn ..).trans hw)
    rw [storeField_unlocked (k := ⟨.CAD_NOMINAL, 0, 0⟩) rfl (cadence_unlocked hlock1)] at hpair
    refine ⟨_, (exec_registerWrite hfull (by simp [accessUr, hvf])).trans (congrArg Host.Outcome.next hpair), ?_, ?_⟩
    · rw [store_cadLock, if_pos]
      rw [Nat.testBit_mod_two_pow]
      simpa using hv
    · rw [(moves_storeField_own (.refl _ _) (within_self _)).reg .CAD_NOMINAL 0 0 (by decide +kernel), rd_wr]
      change v / 2 ^ 32 % 2 ^ 32 / 2 ^ 0 % 2 ^ 32 % 2 ^ 32 = _
      omega

end Sys2Proof.Proofs
end

section
/-!
LOCK of the cadence unit (R6), the latches of 64-bit reads (R7) and dark accesses (R421).
-/
namespace Sys2Proof.Proofs
open Sys2Proof Sys2Proof.Machine Sys2Proof.Laws
set_option Elab.async false

/-! ### LOCK of the cadence unit -/

/-- Setting LOCK of the cadence unit is an access of the manager to its control word. -/
theorem exec_lockSet {fn : Fn} {v : BitVec 32} {s : State} (hw : mgrWrites s fn = true) (hv : v.toNat.testBit 31 = true) :
    exec (.lockSet fn .cadence v) s =
      .next (storeField (v.toNat % 2 ^ 32) ⟨.CAD_LOCK, 0, 0⟩
        (writeReg fn ⟨.cadence, 0, 0⟩ (v.toNat % 2 ^ 32) (accessIn fn 4 s))) := by
  have hfull : inboundFull s fn.hl.val = false := by simpa using (Bool.and_eq_true_iff.1 hw).2
  have hset : exec (.lockSet fn .cadence v) s =
      .next (writeAccess fn 0 0x300000 1 v.toNat (accessIn fn 4 s)) :=
    congrArg Host.Outcome.next (when_of _ _ (by simp only [hv, hfull]; rfl))
  exact hset.trans (congrArg Host.Outcome.next (writeAccess_cadCtrl _ ((mgrWrites_accessIn ..).trans hw)))

/-- A write of EN takes effect while LOCK is 0. -/
theorem rd_cadEn_change {fn : Fn} {en : Bool} {s : State} (hw : mgrWrites s fn = true) (hl : s.rd .CAD_LOCK = 0)
    (hlt : s.rd .CAD_EN < 2) : (after (execCadEnChange fn en) s).rd .CAD_EN = if en then 1 else 0 := by
  change (when _ (setCadEn en) s).rd .CAD_EN = _
  by_cases hsame : s.on .CAD_EN = en
  · rw [when_of_not _ _ (by simp [hsame])]
    simp only [State.on] at hsame
    rw [← hsame]
    have hcase : s.rd .CAD_EN = 0 ∨ s.rd .CAD_EN = 1 := by omega
    rcases hcase with h | h <;> rw [h] <;> rfl
  · have hlock : s.on .CAD_LOCK = false := by simp [State.on, hl]
    rw [when_of _ _ (by simp [hsame, hw, hlock])]
    have hst : (s.wr .CAD_EN (if en then 1 else 0)).rd .CAD_EN = if en then 1 else 0 := by
      rw [rd_wr]
      cases en <;> rfl
    refine when_cases (P := fun t => t.rd .CAD_EN = if en then 1 else 0) hst ?_
    exact ((moves_cadState (.refl _ _) (within_self _)).reg .CAD_EN 0 0 (by decide +kernel)).trans hst

/-- Nothing is written while LOCK is 1. -/
theorem cadEn_locked {fn : Fn} {en : Bool} {s : State} (hl : s.rd .CAD_LOCK = 1) : after (execCadEnChange fn en) s = s :=
  when_of_not _ _ (by simp [State.on, hl])

theorem cadSrc_locked {fn : Fn} {src : Bool} {s : State} (hl : s.rd .CAD_LOCK = 1) :
    after (execCadSrcChange fn src) s = s :=
  when_of_not _ _ (by simp [State.on, hl])

/-- The plain fields are stored in turn: EDGE first, which the others leave. -/
theorem rd_cadPlain_edge (v : Nat) (s : State) :
    (each cadPlain (storeField v) s).rd .CAD_EDGE = (storeField v ⟨.CAD_EDGE, 0, 0⟩ s).rd .CAD_EDGE := by
  have hrest := moves_each_mem (m := fms [.CAD_OUT_EN, .CAD_OUT_SRC, .CAD_OUT_WIDTH]) (l := cadPlain.tail)
    (f := storeField v) (.refl _ (storeField v ⟨.CAD_EDGE, 0, 0⟩ s)) (fun k hk _ hz => moves_storeField_own hz
      (within_fms (l := [.CAD_OUT_EN, .CAD_OUT_SRC, .CAD_OUT_WIDTH])
        (List.mem_map_of_mem (f := RegKey.f) hk : k.f ∈ cadPlain.tail.map RegKey.f) (within_self _)))
  exact hrest.reg .CAD_EDGE 0 0 (by decide +kernel)

theorem cadence_locked {s : State} (h : s.rd .CAD_LOCK = 1) : locked s .cadence 0 = true := by
  simp [locked, lockOf, State.on, h]

/-- A write of the control word while LOCK is 1 leaves LOCK and what it freezes. -/
theorem writeReg_cadCtrl_locked {fn : Fn} {v : Nat} {s : State} (hl : s.rd .CAD_LOCK = 1) :
    (writeReg fn ⟨.cadence, 0, 0⟩ v s).rd .CAD_LOCK = 1 ∧
    (∀ f ∈ [Fld.CAD_EN, .CAD_SRC, .CAD_EDGE], (writeReg fn ⟨.cadence, 0, 0⟩ v s).rd f = s.rd f) := by
  have hplain := moves_cadPlain v s
  have hl1 : (each cadPlain (storeField v) s).rd .CAD_LOCK = 1 := (hplain.reg _ _ _ (by decide +kernel)).trans hl
  have hrows : (writeReg fn ⟨.cadence, 0, 0⟩ v s) = showCadOut (cadOutKind s) (each cadPlain (storeField v) s) := by
    rw [writeReg_cadCtrl, cadEn_locked hl1, cadSrc_locked hl1]
  have hedge : (each cadPlain (storeField v) s).rd .CAD_EDGE = s.rd .CAD_EDGE := by
    rw [rd_cadPlain_edge, storeField_locked rfl (cadence_locked hl)]
  have hshow (f : Fld) : (showCadOut (cadOutKind s) (each cadPlain (storeField v) s)).rd f =
      (each cadPlain (storeField v) s).rd f :=
    (moves_showCadOut (m := 0) (.refl _ _) within_zero).reg f 0 0 (Nat.zero_testBit _)
  rw [hrows]
  simp only [hshow, List.mem_cons, List.not_mem_nil, or_false, forall_eq_or_imp, forall_eq]
  exact ⟨hl1, hplain.reg _ _ _ (by decide +kernel), hplain.reg _ _ _ (by decide +kernel), hedge⟩

/-- EN and EDGE after a write of the control word while LOCK is 0: the word's own. -/
theorem rd_writeReg_cadCtrl {fn : Fn} {v : Nat} {s : State} (hw : mgrWrites s fn = true) (hl : s.rd .CAD_LOCK = 0)
    (hlt : s.rd .CAD_EN < 2) :
    (writeReg fn ⟨.cadence, 0, 0⟩ v s).rd .CAD_EN = (if v.testBit 0 then 1 else 0) ∧
    (writeReg fn ⟨.cadence, 0, 0⟩ v s).rd .CAD_EDGE = (if v.testBit 2 then 1 else 0) := by
  have hplain := moves_cadPlain v s
  have hhls := hplain.part .hls (by decide +kernel)
  have hw1 : mgrWrites (each cadPlain (storeField v) s) fn = true := by
    rw [mgrWrites_of fn (hplain.part .keeper (by decide +kernel)) (hplain.reg _ _ _ (by decide +kernel))
      (fun h => by simp only [State.hl]; rw [hhls]), hw]
  have hen := rd_cadEn_change (en := v.testBit 0) hw1 ((hplain.reg _ _ _ (by decide +kernel)).trans hl)
    ((hplain.reg .CAD_EN 0 0 (by decide +kernel)).symm ▸ hlt)
  have hsrc (z : State) := moves_after (f := execCadSrcChange fn (v.testBit 1)) (.refl (foot_execCadSrcChange) z)
    (fun _ h => moves_execCadSrcChange h (within_self _)) within_zero
  have hrows := moves_cadRows fn v (each cadPlain (storeField v) s)
  have hshow (z : State) := moves_showCadOut (was := cadOutKind s) (m := 0) (.refl _ z) within_zero
  have hedge : (storeField v ⟨.CAD_EDGE, 0, 0⟩ s).rd .CAD_EDGE = if v.testBit 2 then 1 else 0 := by
    rw [storeField_unlocked rfl (cadence_unlocked hl), rd_wr, Nat.testBit_eq_decide_div_mod_eq]
    change v / 2 ^ 2 % 2 ^ 1 % 2 ^ 1 = _
    split
    · next h => simp at h; omega
    · next h => simp at h; omega
  rw [writeReg_cadCtrl]
  constructor
  · rw [(hshow _).reg _ _ _ (Nat.zero_testBit _), (hsrc _).reg _ _ _ (by decide +kernel), hen]
  · rw [(hshow _).reg _ _ _ (Nat.zero_testBit _), hrows.reg _ _ _ (by decide +kernel), rd_cadPlain_edge, hedge]

/-! ### Reads -/

/-- A number and its residue have the same low bytes. -/
theorem le_mod (n v : Nat) : le n (v % 2 ^ (8 * n)) = le n v := by
  induction n generalizing v with
  | zero => rfl
  | succ n ih =>
    have hdiv : v % 2 ^ (8 * (n + 1)) / 256 = v / 256 % 2 ^ (8 * n) := by
      rw [show 2 ^ (8 * (n + 1)) = 256 * 2 ^ (8 * n) by rw [Nat.mul_succ, Nat.pow_add]; omega, Nat.mod_mul_right_div_self]
    have hlow : BitVec.ofNat 8 (v % 2 ^ (8 * (n + 1))) = BitVec.ofNat 8 v := by
      refine BitVec.eq_of_toNat_eq ?_
      simp only [BitVec.toNat_ofNat]
      exact Nat.mod_mod_of_dvd _ (Nat.pow_dvd_pow 2 (by omega))
    simp only [le, hdiv, ih, hlow]

theorem cad_setStamp (v : Nat) (s : State) : (setStamp v s).cad = { s.cad with stamp := v % 2 ^ 64 } := rfl

theorem rd_setStamp (v : Nat) (s : State) : (setStamp v s).rd .CAD_STAMP_LO = v % 2 ^ 32 :=
  rd_wr (s.modCad _) .CAD_STAMP_LO v 0 0

/-- An access that arrives leaves the stamp that the next event takes. -/
theorem advance_accessIn (fn : Fn) (n : Nat) (s : State) : (advance (accessIn fn n s)).cad = (advance s).cad ∧
    (advance (accessIn fn n s)).rd .CAD_STAMP_LO = (advance s).rd .CAD_STAMP_LO := by
  have hcad : (accessIn fn n s).cad = s.cad := (moves_accessIn (.refl _ _) (within_self _)).part .cad (by decide +kernel)
  have hlo := rd_accessIn fn n s .CAD_STAMP_LO 0 0 (by decide +kernel)
  by_cases hwrap : (s.cad.stamp + 1) % tickUnits = 0
  · have hs : advance s = s := if_pos hwrap
    have ht : advance (accessIn fn n s) = accessIn fn n s := if_pos (by
      simpa only [State.stamp, hcad] using hwrap)
    rw [hs, ht]
    exact ⟨hcad, hlo⟩
  · have hs : advance s = setStamp (s.cad.stamp + 1) s := if_neg hwrap
    have ht : advance (accessIn fn n s) = setStamp (s.cad.stamp + 1) (accessIn fn n s) := by
      rw [← hcad] at hwrap ⊢
      exact if_neg hwrap
    rw [hs, ht, rd_setStamp, rd_setStamp, cad_setStamp, cad_setStamp, hcad]
    exact ⟨rfl, rfl⟩

/-- The stamp stays a 64-bit number. -/
theorem stamp_advance_lt {s : State} (h : s.cad.stamp < 2 ^ 64) : (advance s).cad.stamp < 2 ^ 64 :=
  (moves_advance (.refl _ s) (within_self _)).stamp h

/-- What emits the completion of a read is sent. -/
theorem accessOut_out (fn : Fn) (bar off status : Nat) (data : Bytes) (s : State) :
    Out.reg fn bar off status data ∈ (accessOut fn bar off status data s).out :=
  List.mem_append_right _ (List.mem_singleton.2 rfl)

/-- A field that a completion does not move. -/
theorem rd_accessOut {fn : Fn} {bar off status : Nat} {data : Bytes} (s : State) (f : Fld) (i j : Nat)
    (hf : foot_accessOut.testBit (fbit f) = false) : (accessOut fn bar off status data s).rd f i j = s.rd f i j :=
  (moves_accessOut (.refl _ _) (within_self _)).reg f i j hf

/-- A 32-bit read of a PF from a place of PF BAR0 that R97 lets through and that is not dark. -/
theorem exec_lowRead {fn : Fn} {off : Nat} {p : Place} {s : State} (hv : fn.vf.val = 0) (halign : off % 4 = 0)
    (hfull : inboundFull s fn.hl = false) (hp : placeBar0 off = some p) (hr : recoveryBlk p.blk = true)
    (hd : placeDark s p = none) : exec (.lowWordRead fn 0 off) s =
      .next (accessOut fn 0 off 0 (le 4 (readWord (lowRead fn p (accessIn fn 0 s)) fn 0 off))
        (lowRead fn p (accessIn fn 0 s))) := by
  have hplace (t : State) : place t fn 0 off = some p := by
    rw [place_pf hv, hp, Option.filter_some, hr, Bool.or_true]
    rfl
  refine congrArg Host.Outcome.next ((when_of _ _ (by rw [hfull]; rfl)).trans ?_)
  have hur : accessUr (accessIn fn 0 s) fn off 4 = false := by simp [accessUr, halign, hv]
  have hdark : darkAt (accessIn fn 0 s) fn 0 off (some p) = none := (placeDark_accessIn ..).trans hd
  dsimp only
  rw [if_neg (by rw [hur]; decide)]
  change read32 fn 0 off _ = _
  simp only [read32, hplace, hdark]
  rfl

theorem fields_stampLo : fieldsAt ⟨.cadence, 0, 0x18⟩ = [⟨.CAD_STAMP_LO, 0, 0⟩] := by decide +kernel
theorem fields_cmdCnt : fieldsAt ⟨.keeper, 0, 0x10⟩ = [⟨.KP_CMD_CNT, 0, 0⟩] := by decide +kernel
theorem place_stampLo : placeBar0 0x300018 = some ⟨.cadence, 0, 0x18⟩ := by decide +kernel
theorem place_cmdCnt : placeBar0 0x340010 = some ⟨.keeper, 0, 0x10⟩ := by decide +kernel

theorem wide_stampLo : wideAt ⟨.cadence, 0, 0x18⟩ = none := by
  rw [wideAt, fields_stampLo]
  rfl

theorem wide_cmdCnt : wideAt ⟨.keeper, 0, 0x10⟩ = some ⟨.KP_CMD_CNT, 0, 0⟩ := by
  rw [wideAt, fields_cmdCnt]
  rfl

/-- A register of one field shows it. -/
theorem readReg_single {s : State} {p : Place} {k : RegKey} (hf : fieldsAt p = [k]) (hc : p.blk ≠ .channel)
    (ht : p.blk ≠ .trace) : readReg s p = readField s k * 2 ^ k.f.info.lsb := by
  simp [readReg, hf, hc, ht]

/-- A read of the low word of the stamp takes a stamp and shows its low word. -/
theorem lowRead_stamp (fn : Fn) (s : State) : lowRead fn ⟨.cadence, 0, 0x18⟩ s =
    (advance s).wr .CAD_STAMP_HI ((advance s).cad.stamp / 2 ^ 32) := by
  simp only [lowRead, wide_stampLo, stampRead]
  exact when_of _ _ (by decide)

/-- Nothing of the cadence unit and of the Keeper belongs to tenants. -/
theorem hidden_cadence (s : State) (fn : Fn) (i o : Nat) : hidden s fn ⟨.cadence, i, o⟩ = false := by
  simp [Machine.hidden, placeLinks]

theorem hidden_keeper (s : State) (fn : Fn) (i o : Nat) : hidden s fn ⟨.keeper, i, o⟩ = false := by
  simp [Machine.hidden, placeLinks]

theorem readWord_stamp {s : State} {fn : Fn} (hv : fn.vf.val = 0) :
    readWord s fn 0 0x300018 = s.rd .CAD_STAMP_LO % 2 ^ 32 := by
  have hplace : place s fn 0 0x300018 = some ⟨.cadence, 0, 0x18⟩ := by
    rw [place_pf hv, place_stampLo, Option.filter_some, show recoveryBlk .cadence = true from rfl, Bool.or_true]
    rfl
  have hreg : readReg s ⟨.cadence, 0, 0x18⟩ = s.rd .CAD_STAMP_LO := by
    rw [readReg_single fields_stampLo (by decide) (by decide)]
    exact Nat.mul_one _
  simp only [readWord, msixAt_bar0, pbaAt_bar0, hplace, readPlace, wide_stampLo, hidden_cadence, hreg]
  rfl

/-- What a low-word read of a 64-bit register loads. -/
theorem lowRead_cmdCnt (fn : Fn) (s : State) : lowRead fn ⟨.keeper, 0, 0x10⟩ s =
    setLatch ⟨fnIdx fn, ⟨.KP_CMD_CNT, 0, 0⟩, s.rd .KP_CMD_CNT / 2 ^ 32⟩ s := by
  have hstamp : stampRead ⟨.keeper, 0, 0x10⟩ s = s := when_of_not _ _ (by decide)
  simp only [lowRead, hstamp, wide_cmdCnt, hidden_keeper]
  exact when_of _ _ (by decide)

/-- The latch of a function and block just loaded is found. -/
theorem latchOf_setLatch_self (l : Latch) (s : State) : latchOf (setLatch l s) l.fn l.key = some l := by
  unfold latchOf setLatch
  have hnone : ∀ p : Latch → Bool, (s.latches.filter (fun m => !p m)).find? p = none := by
    intro p
    rw [List.find?_eq_none]
    intro m hm
    simpa using (List.mem_filter.1 hm).2
  rw [List.find?_append, hnone, Option.none_or]
  simp

/-- The latches of other functions are as they were. -/
theorem latchOf_setLatch_ne (l : Latch) (s : State) {f : Nat} (k : RegKey) (hf : f ≠ l.fn) :
    latchOf (setLatch l s) f k = latchOf s f k := by
  unfold latchOf setLatch
  have hlast : (l.fn == f) = false := beq_false_of_ne (Ne.symm hf)
  rw [List.find?_append, List.find?_filter]
  simp only [List.find?_cons, List.find?_nil, hlast, Bool.false_and, Option.or_none]
  congr 1
  funext m
  by_cases hm : m.fn = f
  · simp [hm, hf]
    rfl
  · simp [hm]

/-- What dark accesses are told by is left by an access that arrives. -/
theorem darkAt_accessIn (g : Fn) (n : Nat) (s : State) (fn : Fn) (bar off : Nat) (p : Option Place) :
    darkAt (accessIn g n s) fn bar off p = darkAt s fn bar off p := by
  have hon (d : Nat) : (accessIn g n s).domOn d = s.domOn d := by
    simp only [State.domOn, rd_accessIn g n s .PW_STATE _ _ (by decide +kernel)]
  have hdark : placeDark (accessIn g n s) = placeDark s := funext (placeDark_accessIn g n s)
  simp only [darkAt, hon, hdark]

/-- A dark access sets the bit of its domain and is counted. -/
theorem darkHit_spec {d f access off : Nat} (s : State) (hd : d < 26) :
    ((darkHit d f access off s).rd .PW_DARK).testBit d = true ∧
      (darkHit d f access off s).rd .PW_DARK_CNT = (s.rd .PW_DARK_CNT + 1) % 2 ^ 64 := by
  have hward (g l : Nat) (m : Master) (u : State) : ∀ x ∈ [Fld.PW_DARK, .PW_DARK_CNT],
      (ward g l m access off u).rd x = u.rd x := by
    have hm := moves_ward (g := g) (l := l) (m' := m) (access := access) (addr := off) (.refl _ u) (within_self _)
    simp only [List.mem_cons, List.not_mem_nil, or_false, forall_eq_or_imp, forall_eq]
    exact ⟨hm.reg _ _ _ (by decide +kernel), hm.reg _ _ _ (by decide +kernel)⟩
  have hset : ((s.setB d .PW_DARK).inc .PW_DARK_CNT).rd .PW_DARK = setBit (s.rd .PW_DARK) d % 2 ^ 26 :=
    (rd_wr_ne _ (by simp)).trans (rd_wr ..)
  have hcnt : ((s.setB d .PW_DARK).inc .PW_DARK_CNT).rd .PW_DARK_CNT = (s.rd .PW_DARK_CNT + 1) % 2 ^ 64 := by
    have hkeep : (s.setB d .PW_DARK).rd .PW_DARK_CNT = s.rd .PW_DARK_CNT := rd_wr_ne _ (by simp)
    rw [← hkeep]
    exact rd_wr ..
  have hbit : (setBit (s.rd .PW_DARK) d % 2 ^ 26).testBit d = true := by
    rw [Nat.testBit_mod_two_pow, testBit_setBit_self]
    simp [hd]
  unfold darkHit
  dsimp only
  have hdone (g l : Nat) (m : Master) : ((ward g l m access off ((s.setB d .PW_DARK).inc .PW_DARK_CNT)).rd .PW_DARK).testBit d = true ∧
      (ward g l m access off ((s.setB d .PW_DARK).inc .PW_DARK_CNT)).rd .PW_DARK_CNT = (s.rd .PW_DARK_CNT + 1) % 2 ^ 64 := by
    rw [hward _ _ _ _ _ (by simp), hward _ _ _ _ _ (by simp), hset, hcnt]
    exact ⟨hbit, rfl⟩
  split
  · exact hdone ..
  · split <;> exact hdone ..

/-- What a 64-bit read of a count of the Keeper shows. -/
theorem readPair_cmdCnt {s : State} {fn : Fn} (hv : fn.vf.val = 0) :
    readPair s fn 0 0x340010 = s.rd .KP_CMD_CNT % 2 ^ 64 := by
  have hplace : place s fn 0 0x340010 = some ⟨.keeper, 0, 0x10⟩ := by
    rw [place_pf hv, place_cmdCnt, Option.filter_some, show recoveryBlk .keeper = true from rfl, Bool.or_true]
    rfl
  have hreg : readReg s ⟨.keeper, 0, 0x10⟩ = s.rd .KP_CMD_CNT := by
    rw [readReg_single fields_cmdCnt (by decide) (by decide)]
    exact Nat.mul_one _
  have hfilter : (some (⟨.keeper, 0, 0x10⟩ : Place)).filter (fun p => (wideAt p).isSome && p.off % 8 == 0) =
      some ⟨.keeper, 0, 0x10⟩ := by
    rw [Option.filter_some, wide_cmdCnt]
    rfl
  simp only [readPair, hplace, hfilter, hidden_keeper, hreg, Bool.false_eq_true, if_false]

/-- A 64-bit read of a count of the Keeper, whose domain is ON. -/
theorem exec_wideRead {fn : Fn} {s : State} (hv : fn.vf.val = 0) (hfull : inboundFull s fn.hl = false)
    (hon : s.domOn dKeep = true) : exec (.darkAccess ⟨fn, 0, 0x340010, 8, 0⟩ false) s =
      .next (accessOut fn 0 0x340010 0 (le 8 (s.rd .KP_CMD_CNT)) (accessIn fn 0 s)) := by
  have hplace (t : State) : place t fn 0 0x340010 = some ⟨.keeper, 0, 0x10⟩ := by
    rw [place_pf hv, place_cmdCnt, Option.filter_some, show recoveryBlk .keeper = true from rfl, Bool.or_true]
    rfl
  have hdark : darkAt (accessIn fn 0 s) fn 0 0x340010 (some ⟨.keeper, 0, 0x10⟩) = none := by
    refine (darkAt_accessIn ..).trans ?_
    exact placeDark_on fields_cmdCnt rfl hon
  have hur : accessUr (accessIn fn 0 s) fn 0x340010 8 = false := by simp [accessUr, hv]
  have hstamp : stampRead ⟨.keeper, 0, 0x10⟩ (accessIn fn 0 s) = accessIn fn 0 s := when_of_not _ _ (by decide)
  have hread : read64 fn 0 0x340010 (accessIn fn 0 s) =
      accessOut fn 0 0x340010 0 (le 8 (s.rd .KP_CMD_CNT)) (accessIn fn 0 s) := by
    simp only [read64, hplace, hdark, withSome, hstamp, readPair_cmdCnt hv]
    rw [le_mod, rd_accessIn fn 0 s _ _ _ (by decide +kernel)]
  refine congrArg Host.Outcome.next ((when_of _ _ (by rw [hfull]; rfl)).trans ?_)
  dsimp only
  rw [if_neg (by decide), if_neg (by rw [hur]; decide), if_pos rfl]
  exact hread

/-- A low-word read of a count of the Keeper, whose domain is ON, latches its high word for its function alone. -/
theorem exec_latchRead {fn : Fn} {s : State} (hv : fn.vf.val = 0) (hfull : inboundFull s fn.hl = false) :
    Completes (.lowWordRead fn 0 0x340010) s (fun t => s.domOn dKeep = true →
      (∀ u, u.latches = t.latches → highWord u (fnIdx fn) ⟨.KP_CMD_CNT, 0, 0⟩ = s.rd .KP_CMD_CNT / 2 ^ 32) ∧
      (∀ f k, f ≠ fnIdx fn → latchOf t f k = latchOf s f k)) := by
  by_cases hon : s.domOn dKeep = true
  case neg => exact ⟨_, rfl, fun h => absurd h hon⟩
  have hexec := exec_lowRead hv (by decide) hfull place_cmdCnt rfl
    (placeDark_on fields_cmdCnt rfl hon)
  rw [lowRead_cmdCnt, rd_accessIn fn 0 s _ _ _ (by decide +kernel)] at hexec
  have hcongr {s1 s2 : State} (h : s2.latches = s1.latches) (f : Nat) (k : RegKey) : latchOf s2 f k = latchOf s1 f k := by
    simp only [latchOf, h]
  have hout {data : Bytes} (z : State) : (accessOut fn 0 0x340010 0 data z).latches = z.latches :=
    (moves_accessOut (.refl _ _) (within_self _)).part .latches (by decide +kernel)
  have hin : (accessIn fn 0 s).latches = s.latches := (moves_accessIn (.refl _ s) (within_self _)).part .latches (by decide +kernel)
  refine ⟨_, hexec, fun _ => ⟨fun u hu => ?_, fun f k hf => ?_⟩⟩
  · have hfound := latchOf_setLatch_self ⟨fnIdx fn, ⟨.KP_CMD_CNT, 0, 0⟩, s.rd .KP_CMD_CNT / 2 ^ 32⟩ (accessIn fn 0 s)
    rw [← hcongr (hu.trans (hout _))] at hfound
    dsimp only at hfound
    rw [highWord, hfound]
    rfl
  · rw [hcongr (hout _), latchOf_setLatch_ne _ _ _ hf, hcongr hin]

/-- A dark write sets the bit of its domain and is counted. -/
theorem exec_darkWrite {a : RegAccess} {d : Nat} {s : State} (hur : accessUr s a.fn a.off a.size = false)
    (hd : darkAt s a.fn a.bar a.off (writePlace s a.fn a.bar a.off) = some d) (hlt : d < 26)
    (hfull : inboundFull s a.fn.hl = false) : Completes (.darkAccess a true) s (fun t =>
      (t.rd .PW_DARK).testBit d = true ∧ t.rd .PW_DARK_CNT = (s.rd .PW_DARK_CNT + 1) % 2 ^ 64) := by
  refine ⟨darkHit d (fnIdx a.fn) 2 a.off (accessIn a.fn a.size s),
    congrArg Host.Outcome.next ((when_of _ _ (by rw [hfull]; rfl)).trans ?_), ?_⟩
  · dsimp only
    rw [if_pos rfl, if_neg (by rw [hur]; decide), hd]
    rfl
  · rw [← rd_accessIn a.fn a.size s .PW_DARK_CNT 0 0 (by decide +kernel)]
    exact darkHit_spec _ hlt

/-- A dark read shows all bits 1, sets the bit of its domain and is counted. -/
theorem exec_darkRead {a : RegAccess} {d : Nat} {s : State} (hur : accessUr s a.fn a.off a.size = false)
    (hd : darkAt s a.fn a.bar a.off (place s a.fn a.bar a.off) = some d) (hlt : d < 26)
    (hfull : inboundFull s a.fn.hl = false) : Completes (.darkAccess a false) s (fun t =>
      (t.rd .PW_DARK).testBit d = true ∧ t.rd .PW_DARK_CNT = (s.rd .PW_DARK_CNT + 1) % 2 ^ 64) := by
  have hdark : darkAt (accessIn a.fn 0 s) a.fn a.bar a.off (place (accessIn a.fn 0 s) a.fn a.bar a.off) = some d := by
    rw [darkAt_accessIn, place_accessIn, hd]
  have hread : (if a.size = 8 then read64 a.fn a.bar a.off (accessIn a.fn 0 s)
      else read32 a.fn a.bar a.off (accessIn a.fn 0 s)) =
        darkRead a.fn a.bar a.off (if a.size = 8 then 8 else 4) d (accessIn a.fn 0 s) := by
    simp only [read64, read32, hdark]
    split <;> rfl
  refine ⟨_, congrArg Host.Outcome.next ((when_of _ _ (by rw [hfull]; rfl)).trans ?_),
    darkHit_spec (f := fnIdx a.fn) (access := 1) (off := a.off) (accessOut a.fn a.bar a.off 0
      (le (if a.size = 8 then 8 else 4) (2 ^ (8 * (if a.size = 8 then 8 else 4)) - 1)) (accessIn a.fn 0 s)) hlt |>.imp_right
        (fun h => h.trans ?_)⟩
  · dsimp only
    rw [if_neg (by decide), accessUr_accessIn, if_neg (by rw [hur]; decide)]
    exact hread
  · rw [rd_accessOut _ _ _ _ (by decide +kernel), rd_accessIn _ _ _ _ _ _ (by decide +kernel)]

/-- Settles O16: LOCK is stored behind its word and shuts it; a read takes its stamp or latch before it is completed. -/
theorem locksAndLatches : Obligations.LocksAndLatches := by
  refine ⟨fun fn v s hw hv => ?_, fun fn v s hw hv hl hok => ?_, fun fn v s hw hl => ⟨?_, ?_⟩, fun fn s hv hlt hfull => ?_,
    fun fn s hv hfull hon => ?_, fun fn s hv hfull => ?_, fun a write d s hur hd hlt hfull => ?_⟩
  · refine ⟨_, exec_lockSet hw hv, (store_cadLock ..).trans (if_pos ?_)⟩
    rw [Nat.testBit_mod_two_pow]
    simpa using hv
  · have hin (f : Fld) (hf : foot_accessIn.testBit (fbit f) = false) := rd_accessIn fn 4 s f 0 0 hf
    have hstore := moves_storeField_own (v := v.toNat % 2 ^ 32) (k := ⟨.CAD_LOCK, 0, 0⟩)
      (.refl _ (writeReg fn ⟨.cadence, 0, 0⟩ (v.toNat % 2 ^ 32) (accessIn fn 4 s))) (within_self _)
    obtain ⟨hen, hedge⟩ := rd_writeReg_cadCtrl (fn := fn) (v := v.toNat % 2 ^ 32) ((mgrWrites_accessIn ..).trans hw)
      ((hin .CAD_LOCK (by decide +kernel)).trans hl)
      ((hin .CAD_EN (by decide +kernel)).symm ▸ rd_lt_of_regsOk hok .CAD_EN 0 0 (by decide))
    refine ⟨_, exec_lockSet hw hv, ?_, ?_⟩
    · rw [hstore.reg _ _ _ (by decide +kernel), hen, Nat.mod_eq_of_lt v.isLt]
    · rw [hstore.reg _ _ _ (by decide +kernel), hedge, Nat.mod_eq_of_lt v.isLt]
  · have hfull : inboundFull s fn.hl.val = false := by simpa using (Bool.and_eq_true_iff.1 hw).2
    have hvf : fn.vf.val = 0 := vf_of_isMgr (Bool.and_eq_true_iff.1 (Bool.and_eq_true_iff.1 hw).1).1
    have hin (f : Fld) (hf : foot_accessIn.testBit (fbit f) = false) := rd_accessIn fn 4 s f 0 0 hf
    obtain ⟨hlock, hkept⟩ := writeReg_cadCtrl_locked (fn := fn) (v := v.toNat % 2 ^ 32)
      ((hin .CAD_LOCK (by decide +kernel)).trans hl)
    have hstore := moves_storeField_own (v := v.toNat % 2 ^ 32) (k := ⟨.CAD_LOCK, 0, 0⟩)
      (.refl _ (writeReg fn ⟨.cadence, 0, 0⟩ (v.toNat % 2 ^ 32) (accessIn fn 4 s))) (within_self _)
    refine ⟨_, (exec_registerWrite hfull (by simp [accessUr, hvf])).trans (congrArg Host.Outcome.next
      (writeAccess_cadCtrl _ ((mgrWrites_accessIn ..).trans hw))), ?_, ?_, ?_, ?_⟩
    · rw [store_cadLock, hlock, ite_self]
    · rw [hstore.reg _ _ _ (by decide +kernel), hkept _ (by simp), hin _ (by decide +kernel)]
    · rw [hstore.reg _ _ _ (by decide +kernel), hkept _ (by simp), hin _ (by decide +kernel)]
    · rw [hstore.reg _ _ _ (by decide +kernel), hkept _ (by simp), hin _ (by decide +kernel)]
  · exact ⟨_, congrArg Host.Outcome.next (when_of_not _ _ (by simp [State.on, hl])), rfl⟩
  · obtain ⟨hcad, hlo⟩ := advance_accessIn fn 0 s
    have hword := readWord_stamp (s := lowRead fn ⟨.cadence, 0, 0x18⟩ (accessIn fn 0 s)) hv
    have hexec := exec_lowRead hv (by decide) hfull place_stampLo rfl
      (placeDark_aon s fields_stampLo rfl)
    rw [hword, show (2 : Nat) ^ 32 = 2 ^ (8 * 4) from rfl, le_mod, lowRead_stamp, rd_wr_ne _ (by simp), hlo, hcad] at hexec
    refine ⟨_, hexec, ?_, accessOut_out .., fun hwrap => ?_⟩
    · rw [rd_accessOut _ _ _ _ (by decide +kernel), rd_wr]
      exact Nat.mod_eq_of_lt (by have := stamp_advance_lt hlt; change _ < 2 ^ 32; omega)
    · rw [show advance s = setStamp (s.cad.stamp + 1) s from if_neg hwrap, rd_setStamp]
  · have hlatch : (accessOut fn 0 0x340010 0 (le 8 (s.rd .KP_CMD_CNT)) (accessIn fn 0 s)).latches = s.latches :=
      ((moves_accessOut (.refl _ _) (within_self _)).part .latches (by decide +kernel)).trans
        ((moves_accessIn (.refl _ s) (within_self _)).part .latches (by decide +kernel))
    exact ⟨_, exec_wideRead hv hfull hon, hlatch, accessOut_out ..⟩
  · exact exec_latchRead hv hfull
  · cases write
    · exact exec_darkRead hur hd hlt hfull
    · exact exec_darkWrite hur hd hlt hfull

end Sys2Proof.Proofs
end

section
/-!
Configuration requests (R65) and reads of the expansion ROM window (R88).
-/
namespace Sys2Proof.Proofs
open Sys2Proof Sys2Proof.Machine Sys2Proof.Laws
set_option Elab.async false

/-! ### A request that arrives, and its completion -/

theorem rd_rxTlp (h n : Nat) (s : State) (f : Fld) (i j : Nat) (hf : foot_rxTlp.testBit (fbit f) = false) :
    (rxTlp h n s).rd f i j = s.rd f i j :=
  (moves_rxTlp (.refl _ _) (within_self _)).reg f i j hf

theorem hl_rxTlp (h n : Nat) (s : State) :
    (rxTlp h n s).hl h = { s.hl h with idleTicks := 0, rxBytes := (s.hl h).rxBytes + n } := by
  unfold rxTlp
  rw [modHl_hl, if_pos rfl]
  rfl

theorem inboundFull_rxTlp (h n : Nat) (s : State) (k : Nat) : inboundFull (rxTlp h n s) k = inboundFull s k := by
  have hwait : ((rxTlp h n s).hl k).inWait = (s.hl k).inWait := by
    unfold rxTlp
    rw [modHl_hl]
    split
    · next hk => rw [hk]; rfl
    · rfl
  unfold inboundFull
  rw [hwait]

theorem cfg_rxTlp (h n : Nat) (s : State) : (rxTlp h n s).cfg = s.cfg :=
  (moves_rxTlp (.refl _ _) (within_self _)).part .cfg (by decide +kernel)

theorem cf_rxTlp (h n : Nat) (s : State) (f : Nat) : (rxTlp h n s).cf f = s.cf f := by
  simp only [State.cf, cfg_rxTlp]

theorem dlUp_rxTlp (h n : Nat) (s : State) (k : Nat) : (rxTlp h n s).dlUp k = s.dlUp k := by
  simp only [State.dlUp, State.on, rd_rxTlp h n s .HL_DL_UP _ _ (by decide +kernel)]

theorem fnExists_rxTlp (h n : Nat) (s : State) (f : Nat) : fnExists (rxTlp h n s) f = fnExists s f := by
  simp only [fnExists, cf_rxTlp]

theorem cfgServed_rxTlp (h n : Nat) (s : State) (f : Nat) : cfgServed (rxTlp h n s) f = cfgServed s f := by
  simp only [cfgServed, hlLive, pfReady, fnEnabled, State.present, State.tlOn, State.domOn, State.on, State.bit, dlUp_rxTlp,
    inboundFull_rxTlp, cf_rxTlp, rd_rxTlp h n s .HL_PRESENT _ _ (by decide +kernel),
    rd_rxTlp h n s .PW_STATE _ _ (by decide +kernel), rd_rxTlp h n s .PW_FN_READY _ _ (by decide +kernel)]

/-- A completion is sent on a link whose data link is up. -/
theorem sendCpl_out {f tag status count : Nat} {data : Bytes} {s : State} (hup : s.dlUp (fnHl f) = true) :
    Out.cpl (fnOf f) tag status count data ∈ (sendCpl f tag status count data s).out := by
  rw [sendCpl, when_of _ _ hup]
  exact List.mem_append_right _ (List.mem_singleton.2 rfl)

theorem cfg_sendCpl (f tag status count : Nat) (data : Bytes) (s : State) :
    (sendCpl f tag status count data s).cfg = s.cfg :=
  (moves_sendCpl (.refl _ _) (within_self _)).part .cfg (by decide +kernel)

section
variable {fn : Fn} {tag : Nat} {s : State} (hl : hlLive s fn.hl = true) (hup : s.dlUp fn.hl = true)
  (hfull : inboundFull s fn.hl = false)
include hl hup hfull

/-- A configuration request of a function that is not there. -/
theorem exec_config_absent (op : CfgOp) (he : fnExists s (fnIdx fn) = false) : exec (.configRequest fn tag op) s =
    .next (sendCpl (fnIdx fn) tag 1 0 [] (rxTlp fn.hl 0 s)) := by
  change execConfigRequest fn tag op s = _
  simp only [execConfigRequest, fnHl_fnIdx]
  rw [when_of _ _ (by simp [hl, hup, hfull])]
  rw [fnExists_rxTlp, he]
  rfl

/-- A configuration request of a function that is not ready. -/
theorem exec_config_retry (op : CfgOp) (he : fnExists s (fnIdx fn) = true) (hs : cfgServed s (fnIdx fn) = false) :
    exec (.configRequest fn tag op) s =
      .next (sendCpl (fnIdx fn) tag 2 0 [] ((rxTlp fn.hl 0 s).inc .HL_RRS_CNT fn.hl)) := by
  change execConfigRequest fn tag op s = _
  simp only [execConfigRequest, fnHl_fnIdx]
  rw [when_of _ _ (by simp [hl, hup, hfull])]
  rw [fnExists_rxTlp, he, cfgServed_rxTlp, hs]
  rfl

/-- A configuration read of a function that is ready. -/
theorem exec_config_read (off : Nat) (he : fnExists s (fnIdx fn) = true) (hs : cfgServed s (fnIdx fn) = true) :
    exec (.configRequest fn tag (.read off)) s = .next (sendCpl (fnIdx fn) tag 0 4
      (le 4 (cfgRead (rxTlp fn.hl 0 s) (fnIdx fn) (off / 4 * 4))) (rxTlp fn.hl 0 s)) := by
  change execConfigRequest fn tag (.read off) s = _
  simp only [execConfigRequest, fnHl_fnIdx]
  rw [when_of _ _ (by simp [hl, hup, hfull])]
  rw [fnExists_rxTlp, he, cfgServed_rxTlp, hs]
  rfl

/-- A configuration write of a function that is ready. -/
theorem exec_config_write (w : CfgField) (v : Nat) (he : fnExists s (fnIdx fn) = true)
    (hs : cfgServed s (fnIdx fn) = true) : exec (.configRequest fn tag (.write w v)) s =
      .next (cfgWriteFn (fnIdx fn) w v (sendCpl (fnIdx fn) tag 0 0 [] (rxTlp fn.hl 0 s))) := by
  change execConfigRequest fn tag (.write w v) s = _
  simp only [execConfigRequest, fnHl_fnIdx]
  rw [when_of _ _ (by simp [hl, hup, hfull])]
  rw [fnExists_rxTlp, he, cfgServed_rxTlp, hs]
  rfl

end

theorem completed {f tag status count : Nat} {fn : Fn} {data : Bytes} {s : State} (hf : f = fnIdx fn) (hup : s.dlUp fn.hl = true) :
    Out.cpl fn tag status count data ∈ (sendCpl f tag status count data s).out := by
  subst hf
  have hsent := sendCpl_out (f := fnIdx fn) (tag := tag) (status := status) (count := count) (data := data) (s := s)
    (by rw [fnHl_fnIdx]; exact hup)
  rwa [fnOf_fnIdx] at hsent

/-- A function that serves configuration requests is on a link that takes them. -/
theorem cfgServed_link {s : State} {fn : Fn} (h : cfgServed s (fnIdx fn) = true) :
    hlLive s fn.hl = true ∧ s.dlUp fn.hl = true ∧ inboundFull s fn.hl = false := by
  simp only [cfgServed, fnHl_fnIdx, Bool.and_eq_true, Bool.not_eq_true'] at h
  obtain ⟨⟨⟨⟨hl, hup⟩, hfull⟩, -⟩, -⟩ := h
  exact ⟨hl, hup, hfull⟩

/-! ### The first dword of a PF -/

/-- The bits of a list that lie in other dwords than the first. -/
def Beyond (l : List CfgBits) : Prop := l.filter (fun e => e.1 == 0) = []

theorem Beyond.append {a b : List CfgBits} (ha : Beyond a) (hb : Beyond b) : Beyond (a ++ b) := by
  unfold Beyond at *
  rw [List.filter_append, ha, hb, List.append_nil]

theorem beyond_extCap {off id ver next : Nat} (h : off ≠ 0) : Beyond (extCap off id ver next) := by
  simp [Beyond, extCap, h]

theorem beyond_barBits {off size typ base : Nat} (h : off ≠ 0) : Beyond (barBits off size typ base) := by
  simp [Beyond, barBits, h]

theorem beyond_cfgBars {s : State} {f : Nat} (hf : fnVf f = 0) : Beyond (cfgBars s f) := by
  unfold cfgBars
  rw [if_pos hf]
  exact (((beyond_barBits (by decide)).append (beyond_barBits (by decide))).append (beyond_barBits (by decide))).append
    (by simp [Beyond])

theorem beyond_cfgExpress (s : State) (f : Nat) : Beyond (cfgExpress s f) :=
  Beyond.append rfl rfl

theorem beyond_cfgAer (s : State) (f : Nat) : Beyond (cfgAer s f 0x100 0x148) :=
  ((beyond_extCap (by decide)).append (by simp [Beyond])).append (by simp [Beyond])

theorem beyond_cfgPfExtended (s : State) (f : Nat) : Beyond (cfgPfExtended s f) := by
  unfold cfgPfExtended
  dsimp only
  repeat' apply Beyond.append
  all_goals rfl

theorem beyond_cfgPfRest : Beyond cfgPfRest := by
  unfold Beyond
  decide +kernel

theorem beyond_cfgLanes (s : State) (h : Nat) : Beyond (cfgLanes s h) := by
  unfold Beyond cfgLanes
  rw [List.filter_eq_nil_iff]
  intro e he
  rcases List.mem_append.1 he with he | he
  · obtain ⟨k, -, he⟩ := List.mem_flatMap.1 he
    rcases List.mem_cons.1 he with rfl | he
    · simp
    · rcases List.mem_cons.1 he with rfl | he
      · simp
      · exact absurd he (by simp)
  · obtain ⟨k, -, rfl⟩ := List.mem_map.1 he
    simp

theorem beyond_cfgDvsec (s : State) (f : Nat) : Beyond (cfgDvsec s f 0x340) :=
  (beyond_extCap (by decide)).append rfl

/-- The fields of a PF's first dword: its vendor and its device. -/
theorem cfgFields_first {s : State} {f : Nat} (hf : fnVf f = 0) :
    (cfgFields s f).filter (fun e => e.1 == 0) = [(0, 0, 16, 0x1D5E), (0, 16, 16, s.rd .DEV_DEVICE)] := by
  have hrest : Beyond (cfgPmMsix s f ++ cfgExpress s f ++ cfgAer s f 0x100 0x148 ++ cfgPfExtended s f ++ cfgPfRest ++
      cfgLanes s (fnHl f) ++ cfgDvsec s f 0x340) :=
    ((((((show Beyond (cfgPmMsix s f) from rfl).append (beyond_cfgExpress s f)).append (beyond_cfgAer s f)).append
      (beyond_cfgPfExtended s f)).append beyond_cfgPfRest).append (beyond_cfgLanes _ _)).append (beyond_cfgDvsec s f)
  have hhead : (cfgHeader s f).filter (fun e => e.1 == 0) = [(0, 0, 16, 0x1D5E), (0, 16, 16, s.rd .DEV_DEVICE)] := by
    unfold cfgHeader
    rw [List.filter_append, beyond_cfgBars hf, hf]
    rfl
  unfold cfgFields
  rw [if_pos hf]
  simp only [List.append_assoc] at hrest ⊢
  rw [List.filter_append, hhead, hrest]
  rfl

/-- A PF's first dword. -/
theorem cfgRead_first {s : State} {f : Nat} (hf : fnVf f = 0) :
    cfgRead s f 0 = 0x1D5E + s.rd .DEV_DEVICE % 2 ^ 16 * 2 ^ 16 := by
  have hput (d x : Nat) (hd : d < 2 ^ 32) : putField (putField d 0 16 0x1D5E) 16 16 x = 0x1D5E + x % 2 ^ 16 * 2 ^ 16 := by
    unfold putField
    omega
  unfold cfgRead
  rw [cfgFields_first hf, List.foldl_cons, List.foldl_cons, List.foldl_nil]
  exact hput _ _ (Nat.mod_lt _ (by decide))

/-- The halves of a dword written as bytes. -/
theorem num_le_halves (n : Nat) : num (le 4 n) 0 2 = n % 2 ^ 16 ∧ num (le 4 n) 2 2 = n / 2 ^ 16 % 2 ^ 16 := by
  have hsplit : le 4 n = le 2 n ++ le 2 (n / 2 ^ 16) := by simp [le, Nat.div_div_eq_div_mul]
  rw [hsplit, num_append_left (by simp), num_append_right (by simp), length_le, num_le, num_le]
  exact ⟨rfl, rfl⟩

/-! ### Reads of the ROM window -/

/-- The ROM window of a link is not of what a request changes. -/
theorem romWindow_rxTlp (h n : Nat) (s : State) : romWindow (rxTlp h n s) h = romWindow s h := by
  simp only [romWindow, romImage0, hl_rxTlp, rd_rxTlp h n s .DEV_DEVICE _ _ (by decide +kernel)]

/-- The data of a read that has come in one piece. -/
theorem gather_whole {data : Bytes} (h : data ≠ []) : gather [(0, data)] 2 0 = data := by
  have hlen : 0 < data.length := List.length_pos_iff.2 h
  have hne : data.isEmpty = false := by simpa using h
  have hnot : (0 == data.length) = false := by simpa using Ne.symm (Nat.pos_iff_ne_zero.1 hlen)
  simp [gather, hne, List.find?, hnot]

/-- A host read that has all its data, of no more than one completion, is answered. -/
theorem sendHostCpls_whole {q : InRd} {id k : Nat} {data : Bytes} {s : State} (hq : inRd s id = some q)
    (hdone : q.done = [(0, data)]) (hsent : q.sent = 0) (hlen : data.length = q.req.len) (hpos : 1 ≤ q.req.len)
    (hmax : q.req.len ≤ 128) (hup : s.dlUp (fnHl (fnIdx q.req.fn)) = true) :
    Out.cpl (fnOf (fnIdx q.req.fn)) q.req.hostTag 0 q.req.len data ∈ (sendHostCpls id (k + 1) s).out := by
  have hne : data ≠ [] := fun h => by simp [h] at hlen; omega
  have hgather : gather q.done (q.done.length + 1) 0 = data := by
    rw [hdone]
    exact gather_whole hne
  have hpay : 128 ≤ maxPayload s (fnIdx q.req.fn) :=
    Nat.pow_le_pow_right (n := 2) (by decide) (Nat.le_add_right 7 _)
  have hcpl : cplLen s q data.length = q.req.len := by
    have hmin : min data.length (maxPayload s (fnIdx q.req.fn)) = q.req.len := by omega
    simp only [cplLen, hsent, hmin, Nat.sub_zero, if_true]
  have htake : data.take q.req.len = data := List.take_of_length_le (Nat.le_of_eq hlen)
  unfold sendHostCpls
  simp only [hq, hgather, hcpl, htake, hsent, Nat.zero_add, Nat.sub_zero, if_true]
  rw [if_neg (by omega)]
  exact sendCpl_out hup

section
variable {hl : Hl} {off len tag : Nat} {s : State} (hlive : hlLive s hl = true) (hup : s.dlUp hl = true)
  (hfull : inboundFull s hl = false)
include hlive hup hfull

/-- A read of the ROM window that is not enabled or out of it. -/
theorem exec_exprom_shut (hbad : (!(s.cf (pfIdx hl)).mse || !(s.cf (pfIdx hl)).romEn || (s.cf (pfIdx hl)).d3 ||
    decide (2 ^ 20 < off + len)) = true) :
    exec (.expromRead hl off len tag) s = .next (sendCpl (pfIdx hl) tag 1 len [] (rxTlp hl 0 s)) := by
  change execExpromRead hl off len tag s = _
  unfold execExpromRead
  dsimp only
  rw [when_of _ _ (by simp [hlive, hup, hfull]), if_pos hbad]

/-- The host read that a read of the ROM window starts, with its data. -/
def romRd (s : State) (hl : Hl) (off len tag : Nat) : InRd :=
  ⟨s.pktCount + 1, ⟨fnOf (pfIdx hl), false, false, off, len, [], tag⟩, 1, [(0, romBytes s hl off len)], 0, 0, false, 0, 256⟩

/-- A read of the ROM window that is served. -/
theorem exec_exprom_open (hgood : (!(s.cf (pfIdx hl)).mse || !(s.cf (pfIdx hl)).romEn || (s.cf (pfIdx hl)).d3 ||
    decide (2 ^ 20 < off + len)) = false) (hon : (rxTlp hl 0 s).domOn dKeep = true) (hpos : 1 ≤ len) :
    exec (.expromRead hl off len tag) s = .next (sendHostCpls ((rxTlp hl 0 s).pktCount + 1) (len / 64 + 2)
      { rxTlp hl 0 s with
        pktCount := (rxTlp hl 0 s).pktCount + 1
        inRds := (rxTlp hl 0 s).inRds ++ [romRd (rxTlp hl 0 s) hl off len tag] }) := by
  change execExpromRead hl off len tag s = _
  unfold execExpromRead
  dsimp only
  rw [when_of _ _ (by simp [hlive, hup, hfull]), if_neg (by rw [hgood]; decide), when_of_not _ _ (by rw [hon]; rfl),
    if_neg (by omega)]
  rfl

end

/-- Memory Space Enable is all that a write of it changes. -/
theorem cfgWriteFn_mse (f v : Nat) (s : State) :
    cfgWriteFn f .memSpaceEnable v s = s.modCf f (fun c => { c with mse := v.testBit 0 }) := rfl

/-- The read that a read of the ROM window starts is the one its number finds, and is answered at once. -/
theorem romRd_answered {hl : Hl} {off len tag : Nat} {s : State} (hup : s.dlUp hl = true) (hpos : 1 ≤ len)
    (hmax : len ≤ 128) (hid : ∀ q ∈ s.inRds, q.id ≤ s.pktCount) :
    Out.cpl (fnOf (pfIdx hl)) tag 0 len (romBytes (rxTlp hl 0 s) hl off len) ∈
      (sendHostCpls ((rxTlp hl 0 s).pktCount + 1) (len / 64 + 2)
        { rxTlp hl 0 s with
          pktCount := (rxTlp hl 0 s).pktCount + 1
          inRds := (rxTlp hl 0 s).inRds ++ [romRd (rxTlp hl 0 s) hl off len tag] }).out := by
  have hrds : (rxTlp hl 0 s).inRds = s.inRds := (moves_rxTlp (.refl _ s) (within_self _)).part .inRds (by decide +kernel)
  have hcount : (rxTlp hl 0 s).pktCount = s.pktCount :=
    (moves_rxTlp (.refl _ s) (within_self _)).part .pktCount (by decide +kernel)
  have hup1 := (dlUp_rxTlp hl 0 s hl).trans hup
  have hidx : fnIdx (fnOf (pfIdx hl)) = pfIdx hl := by
    have hlt := hl.isLt
    simp only [fnIdx, fnOf, pfIdx]
    omega
  have hlen : (romBytes (rxTlp hl 0 s) hl off len).length = len := by
    unfold romBytes
    split <;> simp
  generalize rxTlp hl 0 s = t at *
  have hfind : inRd { t with
      pktCount := t.pktCount + 1
      inRds := t.inRds ++ [romRd t hl off len tag] } (t.pktCount + 1) = some (romRd t hl off len tag) := by
    have hnone : t.inRds.find? (fun q => q.id == t.pktCount + 1) = none := by
      rw [List.find?_eq_none]
      intro q hq
      have hle := hid q (hrds ▸ hq)
      simp only [beq_iff_eq]
      omega
    change (t.inRds ++ [romRd t hl off len tag]).find? _ = _
    rw [List.find?_append, hnone, Option.none_or]
    simp [romRd]
  have hsent := sendHostCpls_whole (k := len / 64 + 1) hfind (data := romBytes t hl off len) rfl rfl hlen hpos hmax
    (by
      change t.dlUp (fnHl (fnIdx (fnOf (pfIdx hl)))) = true
      rw [hidx, fnHl_pfIdx]
      exact hup1)
  change Out.cpl (fnOf (fnIdx (fnOf (pfIdx hl)))) tag 0 len _ ∈ _ at hsent
  rwa [hidx] at hsent

/-- Settles O14: each answer is sent, and only the field that is written changes. -/
theorem configurationAndRom : Obligations.ConfigurationAndRom := by
  refine ⟨fun fn tag op s hl hup hfull he => ?_, fun fn tag op s hl hup hfull he hs => ?_, fun fn tag off s hv hs hoff => ?_,
    fun fn tag v s he hs => ?_, fun hl off len tag s hlive hup hfull hbad => ?_,
    fun hl off len tag s hlive hup hfull hon hmse hrom hd3 hin hpos hmax hid => ?_⟩
  · exact ⟨_, exec_config_absent hl hup hfull op he, completed rfl ((dlUp_rxTlp ..).trans hup),
      (cfg_sendCpl ..).trans (cfg_rxTlp ..)⟩
  · have hup1 : ((rxTlp fn.hl 0 s).inc .HL_RRS_CNT fn.hl).dlUp fn.hl = true := by
      refine Eq.trans ?_ ((dlUp_rxTlp fn.hl 0 s fn.hl).trans hup)
      simp only [State.dlUp, State.on]
      rw [show ((rxTlp fn.hl 0 s).inc .HL_RRS_CNT fn.hl).rd .HL_DL_UP fn.hl = (rxTlp fn.hl 0 s).rd .HL_DL_UP fn.hl from
        rd_wr_ne _ (by simp)]
    have hcfg : ((rxTlp fn.hl 0 s).inc .HL_RRS_CNT fn.hl).cfg = (rxTlp fn.hl 0 s).cfg :=
      (moves_wr (.refl _ _) (within_self _)).part .cfg (by decide +kernel)
    refine ⟨_, exec_config_retry hl hup hfull op he hs, completed rfl hup1,
      (cfg_sendCpl ..).trans (hcfg.trans (cfg_rxTlp ..)), ?_⟩
    rw [(moves_sendCpl (.refl _ _) (within_self _)).reg .HL_RRS_CNT _ _ (by decide +kernel),
      ← rd_rxTlp fn.hl 0 s .HL_RRS_CNT fn.hl 0 (by decide +kernel)]
    exact rd_wr ..
  · obtain ⟨hl, hup, hfull⟩ := cfgServed_link hs
    have he : fnExists s (fnIdx fn) = true := by simp [fnExists, fnVf_fnIdx, hv]
    have hzero : off / 4 * 4 = 0 := by omega
    have hfirst := cfgRead_first (s := rxTlp fn.hl 0 s) (f := fnIdx fn) ((fnVf_fnIdx fn).trans hv)
    rw [rd_rxTlp _ _ _ _ _ _ (by decide +kernel)] at hfirst
    refine ⟨_, exec_config_read hl hup hfull off he hs, (cfg_sendCpl ..).trans (cfg_rxTlp ..), _,
      completed rfl ((dlUp_rxTlp ..).trans hup), ?_, ?_⟩
    · rw [hzero, hfirst, (num_le_halves _).1]
      omega
    · rw [hzero, hfirst, (num_le_halves _).2]
      omega
  · obtain ⟨hl, hup, hfull⟩ := cfgServed_link hs
    have hcf : (sendCpl (fnIdx fn) tag 0 0 [] (rxTlp fn.hl 0 s)).cf (fnIdx fn) = s.cf (fnIdx fn) := by
      simp only [State.cf, cfg_sendCpl, cfg_rxTlp]
    refine ⟨_, (exec_config_write hl hup hfull .memSpaceEnable v he hs).trans (congrArg Host.Outcome.next (cfgWriteFn_mse ..)),
      completed rfl ((dlUp_rxTlp ..).trans hup), ?_, ?_⟩
    · rw [modCf_cf, if_pos rfl]
    · rw [modCf_cf, if_pos rfl, hcf]
  · refine ⟨_, exec_exprom_shut hlive hup hfull ?_, sendCpl_out ((dlUp_rxTlp ..).trans ?_)⟩
    · rcases hbad with h | h | h | h <;> simp [-Nat.reducePow, h]
    · rw [fnHl_pfIdx]
      exact hup
  · have hon1 : (rxTlp hl 0 s).domOn dKeep = true := by
      simpa only [State.domOn, rd_rxTlp hl 0 s .PW_STATE _ _ (by decide +kernel)] using hon
    have hdata : romBytes (rxTlp hl 0 s) hl off len = sub (romWindow s hl) off len := by
      rw [romBytes, if_pos hon1, romWindow_rxTlp]
    have hsent := romRd_answered (off := off) (tag := tag) hup hpos hmax hid
    rw [hdata] at hsent
    exact ⟨_, exec_exprom_open hlive hup hfull (by simp [-Nat.reducePow, hmse, hrom, hd3, hin]) hon1 hpos, hsent⟩

end Sys2Proof.Proofs
end

section
/-!
A Weaseif link that starts fresh while a request of the bridge still waits to end with the link (R205).
-/
namespace Sys2Proof.Proofs
open Sys2Proof Sys2Proof.Machine Sys2Proof.Laws
set_option Elab.async false

/-- The INIT that confirms a fresh exchange. -/
def confirmingInit : InitBody := ⟨1, false, true, false, 7, 0, 0, 64, 64, 64⟩

/-- A request of the bridge whose link went down before answers that were accepted had been acted on: it ends with code 9. -/
def endingTag : WTag := ⟨0, pktZero, .response, 256, 0, 0, [], 1, false, 9⟩

/-- WL0 stands in its INIT exchange, with such a request. -/
def initWithTag : State :=
  { State.reset with
    regs := [(⟨.WL_LSTATE, 0, 0⟩, 1), (⟨.WP_STATE, 0, 0⟩, 5), (⟨.PW_STATE, 0, 2⟩, 2)]
    wls := [(0, { WlS.reset with wlTags := [endingTag] })] }

/-- What an observer counts of the requests of WL0 in the next state of a step. -/
def nextTags : Res → Option Nat
  | .next t => some (t.wl 0).wlTags.length
  | _ => none

theorem nextTags_next {n : Nat} {o : Res} {t : State} (ho : o = .next t) (h : nextTags o = some n) :
    (t.wl 0).wlTags.length = n := by
  subst ho
  exact Option.some.inj h

/-- The request is still there when the link has started fresh. -/
theorem tags_initWithTag : nextTags (exec (.initReceived 0 confirmingInit) initWithTag) = some 1 := by decide +kernel

/-- Refutes O54: a fresh start keeps a request that still has to end with the link (R205), so the link's requests are not
always none. -/
theorem not_linkStarts : ¬ Obligations.LinkStarts := by
  rintro ⟨hinit, -⟩
  obtain ⟨-, -, -, hfresh⟩ := hinit 0 confirmingInit initWithTag (by decide +kernel) (by decide +kernel)
  obtain ⟨t, ht, -, -, -, -, -, htags, -⟩ := hfresh (by decide) (.inl (by decide)) (by decide +kernel) (by decide +kernel)
  have hcount : (t.wl 0).wlTags.length = 1 := nextTags_next ht tags_initWithTag
  have hnone : (t.wl 0).wlTags = [] := htags
  exact absurd (hnone ▸ hcount) (by decide)

end Sys2Proof.Proofs
end

section
/-!
A completion for a tag that was discarded with its tiller's domain (R412).
-/
namespace Sys2Proof.Proofs
open Sys2Proof Sys2Proof.Machine Sys2Proof.Laws
set_option Elab.async false

/-- A read of PF 0 that stood in quarantine when its tiller was powered off. -/
def discardedTag : HTag :=
  ⟨⟨⟨0, 0⟩, .read, 0, 64, [], false, false, .cmdHeader 0, 256, 0, 0, 0, 0, false, false, false⟩, 5, 0, [], 0, true, true, false, false⟩

/-- Host link 0 is up again, with its tiller ON; no tag is held, and the link remembers the discarded one. -/
def linkAfterDiscard : State :=
  { State.reset with
    regs := [(⟨.HL_LTSSM, 0, 0⟩, 3), (⟨.HL_DL_UP, 0, 0⟩, 1), (⟨.PW_STATE, 0, 2⟩, 2)]
    hls := [(0, { HlS.reset with stale := [discardedTag] })] }

/-- The completion that comes for the discarded tag. -/
def lateAnswer : HostCpl := ⟨⟨0, 0⟩, 5, 0, false, 16, 64, 0, List.replicate 64 0⟩

/-- It is counted as stale and not as unexpected. -/
theorem unexp_lateAnswer : nextRd .TI_RQ_UNEXP_CNT 0 (exec (.hostCompletion lateAnswer) linkAfterDiscard) = some 0 := by
  decide +kernel

/-- Refutes O41: the clause on a completion that no tag waits for does not leave out the tags that were discarded with their
domain, whose completions R412 counts as stale. -/
theorem not_hostCompletions : ¬ Obligations.HostCompletions := by
  rintro ⟨hcpl, -⟩
  obtain ⟨hstray, -⟩ := hcpl lateAnswer linkAfterDiscard (by decide +kernel) (by decide +kernel)
  obtain ⟨t, ht, -, hcount⟩ := hstray (by decide +kernel)
  have hread : t.rd .TI_RQ_UNEXP_CNT 0 = 1 := hcount.trans (by decide +kernel)
  exact absurd ((nextRd_next ht unexp_lateAnswer).symm.trans hread) (by decide)

end Sys2Proof.Proofs
end

section
/-!
A descriptor that starts again uncounted because an earlier one had failed (R269).
-/
namespace Sys2Proof.Proofs
open Sys2Proof Sys2Proof.Machine Sys2Proof.Laws
set_option Elab.async false

/-- A descriptor whose error was discarded behind that of an earlier one: it is to start again with no retry counted. -/
def discardedDesc : Desc :=
  { parseDesc 1 64 [] with len := 64, ctrl := 1, failed := 16 }

/-- Channel 0 is ACTIVE for PF 0 of a link that is up, and holds that descriptor. -/
def restarting : State :=
  { State.reset with
    regs := [(⟨.CH_STATE, 0, 0⟩, 2), (⟨.HL_DL_UP, 0, 0⟩, 1), (⟨.PW_STATE, 0, 2⟩, 2)]
    cfg := [(0, { FnCfg.reset with bme := true })]
    chans := [(0, { ChanS.reset with descs := [discardedDesc] })] }

/-- It starts again without being counted. -/
theorem retryCnt_restarting : nextRd .CH_RETRY_CNT 0 (exec (.channelRetry 0) restarting) = some 0 := by decide +kernel

/-- Refutes O46: the clause on the retry of a descriptor does not leave out the one whose error was discarded, which starts again
uncounted. -/
theorem not_channelProgress : ¬ Obligations.ChannelProgress := by
  rintro ⟨-, hretry, -⟩
  obtain ⟨t, ht, hcount, -⟩ := hretry 0 discardedDesc restarting (by decide +kernel) (by decide +kernel) (by decide +kernel)
    (by decide +kernel)
  have hread : t.rd .CH_RETRY_CNT 0 = 1 := hcount.trans (by decide +kernel)
  exact absurd ((nextRd_next ht retryCnt_restarting).symm.trans hread) (by decide)

end Sys2Proof.Proofs
end

section
/-!
An injection on a line whose class field holds the unused value 3: WD_INJ_WORD has no bit for it in group 15.
-/
namespace Sys2Proof.Proofs
open Sys2Proof Sys2Proof.Machine Sys2Proof.Laws
set_option Elab.async false

/-- The Keeper serves; the class of line 28 of group 15 reads 3. -/
def unusedClass : State :=
  { State.reset with
    regs := [(⟨.KP_KSTATE, 0, 0⟩, 2), (⟨.PW_STATE, 0, 0⟩, 2), (⟨.WD_CLASS_HI, 0, 15⟩, 3 * 4 ^ 12)]
    pins := ⟨⟨0, 0, false⟩, 0, false, false, false, false, 255, none⟩ }

/-- FAULT_INJECT from the manager's PF. -/
def injectReq : CmdReq := ⟨.fn ⟨0, 0⟩, 1, 16, false, false, false, 2, 0xFFFF, 0⟩

/-- One event on line 28 of group 15. -/
def injectLine : FaultInj := ⟨1, 15, 28, 0, 0, 0⟩

/-- The event leaves no mark: its bit would be number 48 of 48. -/
theorem injWord_unusedClass : nextRd .WD_INJ_WORD 0 (exec (.faultInject injectReq injectLine) unusedClass) = some 0 := by
  decide +kernel

/-- Refutes O34: the clause on an injected event admits a class field of 3, whose bit in group 15 lies past the 48 of
WD_INJ_WORD. -/
theorem not_ward : ¬ Obligations.Ward := by
  rintro ⟨-, -, -, -, -, -, -, -, hinject, -⟩
  obtain ⟨-, hone⟩ := hinject injectReq injectLine unusedClass (by decide +kernel) rfl (by decide +kernel) (by decide +kernel)
  obtain ⟨t, ht, u, ⟨-, hbit, -⟩, rfl⟩ := hone rfl rfl (by decide +kernel) (by decide +kernel) (by decide +kernel) (by decide +kernel)
  have hkeep : (finish injectReq 0x0A04 0 [] u).rd .WD_INJ_WORD = u.rd .WD_INJ_WORD :=
    (moves_finish (.refl _ _) (within_self _)).reg .WD_INJ_WORD 0 0 (by decide +kernel)
  have hclass : 3 * injectLine.group + lineClass unusedClass injectLine.group injectLine.line = 48 := by decide +kernel
  rw [← hkeep, nextRd_next ht injWord_unusedClass, hclass] at hbit
  exact absurd hbit (by decide)

end Sys2Proof.Proofs
end

section
/-!
A scheduled command is cancelled while a command of an opcode outside Table KP-5 stands to be answered with CANCELLED: both count.
What a reply leaves in the trace queue of the Keeper tells the order of the replies, so no other reading of the statement helps.
-/
namespace Sys2Proof.Proofs
open Sys2Proof Sys2Proof.Machine Sys2Proof.Laws
set_option Elab.async false

/-! ### The records that replies leave (R458, R461) -/

/-- The queue of records without a master. -/
def ownRecs (s : State) : SrcQ := tget ⟨[], 0⟩ s.trace.srcQ 0

/-- The arguments of the records in that queue. -/
def ownArgs (s : State) : List Nat := (ownRecs s).recs.map (·.1.arg)

/-- No ring is enabled, and the Hub takes records. -/
def Quiet (s : State) : Prop := (∀ f, s.rd .KR_EN f = 0) ∧ s.domOn dHub = true

/-- A record enters the queue, or is counted as discarded. -/
theorem ownArgs_traceNone {code arg : Nat} {s : State} (hub : s.domOn dHub = true)
    (h : (ownRecs (traceNone code arg s)).dropped = 0) :
    (ownRecs s).dropped = 0 ∧ ownArgs (traceNone code arg s) = ownArgs s ++ [arg % 2 ^ 32] := by
  have ha : (advance s).trace = s.trace := (moves_advance (.refl _ s) (within_self _)).part .trace (by decide +kernel)
  simp only [ownArgs, ownRecs, traceNone, trace, hub, if_true, ha, modTrace_trace, tget_tset, Nat.zero_mul, Nat.zero_mod,
    Nat.add_zero] at h ⊢
  split at h
  · next hlen => exact ⟨h, by simp [hlen]⟩
  · next hlen => exact absurd h (Nat.succ_ne_zero _)

/-- With its ring off a reply to a function is only counted and traced, and one to the sideband port goes to its queue. -/
theorem sendReply_trace {r : CmdReq} {op status gen : Nat} {d : Bytes} {s : State} (h : ∀ f, s.rd .KR_EN f = 0) :
    (sendReply r op status false d gen s).trace = s.trace := by
  have ha : (advance s).trace = s.trace := (moves_advance (.refl _ s) (within_self _)).part .trace (by decide +kernel)
  have hen : ∀ f, (advance s).on .KR_EN f = false := fun f => by
    have : (advance s).rd .KR_EN f = s.rd .KR_EN f :=
      (moves_advance (.refl _ s) (within_self _)).reg .KR_EN f 0 (by decide +kernel)
    rw [State.on, this, h]
    rfl
  unfold sendReply
  cases r.iss with
  | fn f => simpa only [hen, Bool.false_and, Bool.false_eq_true, if_false] using ha
  | smp =>
    dsimp only [when]
    split <;> exact ha

/-- The counts of a reply. -/
def counted (status : Nat) (s : State) : State :=
  when (status == 0x14) (fun s => s.inc .KP_CANCEL_CNT) (when (status != 0) (fun s => s.inc .KP_FAIL_CNT) (s.inc .KP_CMD_CNT))

theorem moves_counted {status : Nat} {s : State} :
    Moves (fms [.KP_CMD_CNT, .KP_FAIL_CNT, .KP_CANCEL_CNT]) s (counted status s) :=
  moves_when (moves_when (moves_inc (.refl _ s) (by unfold Within; decide +kernel))
    fun _ h => moves_inc h (by unfold Within; decide +kernel)) fun _ h => moves_inc h (by unfold Within; decide +kernel)

/-- What a reply does to the trace is its one record. -/
theorem finishCore_trace {r : CmdReq} {op status gen : Nat} {d : Bytes} {s : State} (h : ∀ f, s.rd .KR_EN f = 0) :
    (finishCore r op status d gen s).trace =
      (traceNone 0x0801 (op % 65536 + status * 65536 + issuerArg r.iss) (counted status s)).trace := by
  have hfree : ∀ w, (freeCtx r op w).trace = w.trace := fun w =>
    (moves_freeCtx (.refl _ w) (within_self _)).part .trace (by decide +kernel)
  have hen : ∀ f, (traceNone 0x0801 (op % 65536 + status * 65536 + issuerArg r.iss) (counted status s)).rd .KR_EN f = 0 :=
    fun f => (((moves_traceNone (.refl _ _) (within_self _)).reg .KR_EN f 0 (by decide +kernel)).trans
      (moves_counted.reg .KR_EN f 0 (by decide +kernel))).trans (h f)
  unfold finishCore
  dsimp only
  rw [show when (status == 0x14) _ _ = counted status s from rfl]
  generalize traceNone 0x0801 _ _ = u at hen ⊢
  have hsent : (if status = 0 && d.isEmpty && !r.ackReq then u else sendReply r op status false d gen u).trace = u.trace := by
    split
    · rfl
    · exact sendReply_trace hen
  generalize (if status = 0 && d.isEmpty && !r.ackReq then u else sendReply r op status false d gen u) = w at hsent ⊢
  have hw : (freeCtx r op w).trace = u.trace := (hfree w).trans hsent
  cases r.iss with
  | fn f =>
    dsimp only [when]
    split
    · split <;> exact hw
    · exact hw
  | smp => exact hw

/-- A reply leaves one record, of its opcode, its status and its issuer. -/
theorem ownArgs_finishCore {r : CmdReq} {op status gen : Nat} {d : Bytes} {s : State} (hs : Quiet s)
    (h : (ownRecs (finishCore r op status d gen s)).dropped = 0) :
    (ownRecs s).dropped = 0 ∧ ownArgs (finishCore r op status d gen s) =
      ownArgs s ++ [(op % 65536 + status * 65536 + issuerArg r.iss) % 2 ^ 32] := by
  have hc : (counted status s).trace = s.trace := moves_counted.part .trace (by decide +kernel)
  have hub : (counted status s).domOn dHub = true := by
    rw [State.domOn, moves_counted.reg .PW_STATE 0 dHub (by decide +kernel)]
    exact hs.2
  simp only [ownArgs, ownRecs, finishCore_trace hs.1, ← hc] at h ⊢
  exact ownArgs_traceNone hub h

theorem Quiet.finishCore {r : CmdReq} {op status gen : Nat} {d : Bytes} {s : State} (hs : Quiet s) :
    Quiet (finishCore r op status d gen s) := by
  have hm := moves_finishCore (r' := r) (op := op) (status := status) (data := d) (gen := gen) (.refl _ s) (within_self _)
  refine ⟨fun f => (hm.reg .KR_EN f 0 (by decide +kernel)).trans (hs.1 f), ?_⟩
  rw [State.domOn, hm.reg .PW_STATE 0 dHub (by decide +kernel)]
  exact hs.2

/-- From `s` to `t` nothing is discarded from the queue, and KP_CANCEL_CNT counts only where a record is left. -/
def Tells (s t : State) : Prop :=
  (ownRecs s).dropped = 0 ∧ ∃ l, ownArgs t = ownArgs s ++ l ∧ (l = [] → t.rd .KP_CANCEL_CNT = s.rd .KP_CANCEL_CNT)

theorem tells_answerUnknowns (n : Nat) {s : State} (hs : Quiet s) (h : (ownRecs (answerUnknowns n s)).dropped = 0) :
    Tells s (answerUnknowns n s) := by
  induction n generalizing s with
  | zero => exact ⟨h, [], (List.append_nil _).symm, fun _ => rfl⟩
  | succ n ih =>
    unfold answerUnknowns at h ⊢
    split at h
    · next c hc =>
      obtain ⟨hd, l, hl, -⟩ := ih hs.finishCore h
      obtain ⟨hd, ha⟩ := ownArgs_finishCore hs hd
      refine ⟨hd, _ :: l, by rw [hl, ha, List.append_assoc]; rfl, fun h => nomatch h⟩
    · next hc =>
      exact ⟨h, [], (List.append_nil _).symm, fun _ => rfl⟩

/-- A Keeper that serves after a reply has not ended its drain there. -/
theorem finish_served {r : CmdReq} {op status : Nat} {d : Bytes} {s : State} (h : (finish r op status d s).rd .KP_KSTATE = 2) :
    finish r op status d s = answerUnknowns 16 (finishCore r op status d (curGen s r) s) := by
  unfold finish finishGen drainEnds at h ⊢
  generalize answerUnknowns 16 _ = u at h ⊢
  cases hc : (draining u && !holdsCmds u) with
  | false => rfl
  | true =>
    rw [hc] at h
    exact absurd (h.symm.trans (rd_wr ..)) (by decide +kernel)

/-- What a reply without fault may move. -/
def sentFoot : Nat :=
  fms [.KP_CMD_CNT, .KR_IN_FLIGHT] ||| pms [.keeper] ||| foot_traceNone ||| foot_sendReply ||| foot_freeCtx

/-- A reply without fault cancels nothing. -/
theorem cancelCnt_finishCore {r : CmdReq} {op gen : Nat} {d : Bytes} {s : State} :
    (finishCore r op 0 d gen s).rd .KP_CANCEL_CNT = s.rd .KP_CANCEL_CNT := by
  have hm : Moves sentFoot s (finishCore r op 0 d gen s) := by
    have hcount : Moves sentFoot s (counted 0 s) :=
      moves_inc (f := .KP_CMD_CNT) (i := 0) (j := 0) (.refl _ s) (by unfold Within; decide +kernel)
    have htrace := moves_traceNone (code := 0x0801) (arg := op % 65536 + 0 * 65536 + issuerArg r.iss) hcount
      (by unfold Within; decide +kernel)
    unfold finishCore
    dsimp only
    rw [show when ((0 : Nat) == 0x14) _ _ = counted 0 s from rfl]
    generalize traceNone 0x0801 _ _ = u at htrace ⊢
    have hsent := moves_ite (c := (decide ((0 : Nat) = 0) && d.isEmpty && !r.ackReq) = true) htrace
      (moves_sendReply (r' := r) (op := op) (status := 0) (interim := false) (data := d) (gen := gen) htrace
        (by unfold Within; decide +kernel))
    have hfree := moves_freeCtx (r' := r) (op := op) hsent (by unfold Within; decide +kernel)
    generalize freeCtx r op _ = w at hfree ⊢
    cases r.iss with
    | fn f => exact moves_when hfree fun _ h => moves_dec h (by unfold Within; decide +kernel)
    | smp => exact moves_modKeeper hfree (by unfold Within; decide +kernel)
  exact hm.reg .KP_CANCEL_CNT 0 0 (by decide +kernel)

/-- Where the record of a reply without fault is the last of its kind, nothing is counted as cancelled after it. -/
theorem cancelCnt_finish {r : CmdReq} {op : Nat} {s : State} {pre : List Nat} {a : Nat} (hs : Quiet s)
    (hk : (finish r op 0 [] s).rd .KP_KSTATE = 2) (hd : (ownRecs (finish r op 0 [] s)).dropped = 0)
    (ha : (op % 65536 + 0 * 65536 + issuerArg r.iss) % 2 ^ 32 = a)
    (hargs : ownArgs (finish r op 0 [] s) = pre ++ [a]) (hpre : a ∉ pre) :
    (finish r op 0 [] s).rd .KP_CANCEL_CNT = s.rd .KP_CANCEL_CNT := by
  rw [finish_served hk] at hd hargs ⊢
  obtain ⟨hd, l, hl, hcount⟩ := tells_answerUnknowns 16 hs.finishCore hd
  obtain ⟨-, hown⟩ := ownArgs_finishCore hs hd
  rw [hown, hargs, ha, List.append_assoc, List.singleton_append] at hl
  have hnil : l = [] := by
    rcases List.eq_nil_or_concat l with h | ⟨m, x, rfl⟩
    · exact h
    · rw [List.concat_eq_append, ← List.cons_append, ← List.append_assoc] at hl
      exact absurd ((List.append_inj' hl rfl).1 ▸ List.mem_append_right _ List.mem_cons_self) hpre
  exact (hcount hnil).trans cancelCnt_finishCore

/-! ### The cancelled command and the other -/

/-- A command scheduled by PF 0. -/
def scheduledCmd : Sched := ⟨⟨.fn ⟨0, 0⟩, 7, 0, false, true, false, 2, 0xFFFF, 100⟩, .updateActivate, 100, 0, true⟩

/-- A command of PF 1 that is to be answered with CANCELLED. -/
def unknownCmd : Ctx := ⟨.fn ⟨1, 0⟩, 0xFFFF, 9, 1, true, 0, 0x14⟩

/-- The Keeper serves and the Hub is ON; both commands are there. -/
def cancelling : State :=
  { State.reset with
    regs := [(⟨.KP_KSTATE, 0, 0⟩, 2), (⟨.PW_STATE, 0, 0⟩, 2), (⟨.PW_STATE, 0, 1⟩, 2)]
    pins := ⟨⟨0, 0, false⟩, 0, false, false, false, false, 255, none⟩
    keeper := { State.reset.keeper with sched := [scheduledCmd], ctxs := [unknownCmd] } }

/-- CMD_CANCEL from PF 0. -/
def cancelReq : CmdReq := ⟨.fn ⟨0, 0⟩, 8, 4, false, false, false, 2, 0xFFFF, 0⟩

/-- What an observer reads of the replies' records in the next state of a step: their arguments, and the number discarded. -/
def nextArgs : Res → Option (List Nat × Nat)
  | .next t => some (ownArgs t, (ownRecs t).dropped)
  | _ => none

theorem nextArgs_next {o : Res} {t : State} {a : List Nat} {n : Nat} (ho : o = .next t) (h : nextArgs o = some (a, n)) :
    ownArgs t = a ∧ (ownRecs t).dropped = n := by
  subst ho
  exact Prod.mk.inj (Option.some.inj h)

/-- The two cancelled commands are answered before CMD_CANCEL is. -/
theorem args_cancelling : nextArgs (exec (.cmdCancel cancelReq 7) cancelling) = some ([0x140804, 0x114FFFF] ++ [0x0103], 0) := by
  decide +kernel

theorem cancelCnt_cancelling : nextRd .KP_CANCEL_CNT 0 (exec (.cmdCancel cancelReq 7) cancelling) = some 2 := by decide +kernel

theorem kstate_cancelling : nextRd .KP_KSTATE 0 (exec (.cmdCancel cancelReq 7) cancelling) = some 2 := by decide +kernel

/-- Refutes O21: the clause on CMD_CANCEL has KP_CANCEL_CNT rise by one, and admits a command whose answer CANCELLED is due and is
given in the same step. -/
theorem not_keeperInformation : ¬ Obligations.KeeperInformation := by
  rintro ⟨-, -, -, -, hcancel, -⟩
  obtain ⟨t, ht, u, ⟨-, hu⟩, rfl⟩ := hcancel cancelReq 7 scheduledCmd cancelling (by decide +kernel) rfl (by decide +kernel)
  obtain ⟨hargs, hdropped⟩ := nextArgs_next ht args_cancelling
  have hm := moves_finish (r' := cancelReq) (op := 0x0103) (status := 0) (data := []) (.refl _ u) (within_self _)
  have hgoes := moves_execCmdCancel (r' := cancelReq) (tag := 7) (.refl _ cancelling) (within_self _)
  have hstep : Moves foot_execCmdCancel cancelling (finish cancelReq 0x0103 0 [] u) := hgoes _ ht
  have hquiet : Quiet u := by
    refine ⟨fun f => ?_, ?_⟩
    · rw [← hm.reg .KR_EN f 0 (by decide +kernel), hstep.reg .KR_EN f 0 (by decide +kernel)]
      rfl
    · rw [State.domOn, ← hm.reg .PW_STATE 0 dHub (by decide +kernel), hstep.reg .PW_STATE 0 dHub (by decide +kernel)]
      decide +kernel
  have hcount := cancelCnt_finish hquiet (nextRd_next ht kstate_cancelling) hdropped (by decide +kernel) hargs (by decide)
  rw [nextRd_next ht cancelCnt_cancelling, hu] at hcount
  exact absurd hcount (by decide +kernel)

end Sys2Proof.Proofs
end

section
/-!
Test patterns and error injection (R175 to R177).
-/
namespace Sys2Proof.Proofs
open Sys2Proof Sys2Proof.Machine Sys2Proof.Laws
set_option Elab.async false

/-! ### What is shown on the lanes -/

/-- Showing the lanes moves nothing. -/
theorem moves_showTx_zero (n : Nat) (was s : State) : Moves 0 s (showTx n was s) := moves_showTx (.refl _ s) (within_self _)

theorem rd_showTx (n : Nat) (was s : State) (f : Fld) (i j : Nat) : (showTx n was s).rd f i j = s.rd f i j :=
  (moves_showTx_zero n was s).reg f i j (Nat.zero_testBit _)

/-- The fields that the pattern of a lane or of the clock lane depends on, beside GEN. -/
def txFlds : List Fld :=
  [.PW_STATE, .PW_PAD_HOLD, .WP_STATE, .WP_STBY_IDLE, .WP_LANE_MAP, .WP_LOOPBACK, .WP_LSTATE, .WP_CUR_RATE, .WP_TARGET_RATE]

theorem lanesLive_congr {s t : State} (h : ∀ f ∈ txFlds, ∀ i j, t.rd f i j = s.rd f i j) (n : Nat) :
    lanesLive t n = lanesLive s n := by
  simp only [lanesLive, State.domOn, State.on, h .PW_STATE (by decide), h .PW_PAD_HOLD (by decide)]

theorem loopTx_congr {s t : State} (h : ∀ f ∈ txFlds, ∀ i j, t.rd f i j = s.rd f i j) (n : Nat) : loopTx t n = loopTx s n := by
  simp only [loopTx, h .WP_LOOPBACK (by decide)]

theorem physOf_congr {s t : State} (h : ∀ f ∈ txFlds, ∀ i j, t.rd f i j = s.rd f i j) (n k : Nat) : physOf t n k = physOf s n k := by
  simp only [physOf, logicalOf, h .WP_LANE_MAP (by decide)]

theorem laneTx_congr {s t : State} {n k : Nat} (h : ∀ f ∈ txFlds, ∀ i j, t.rd f i j = s.rd f i j)
    (hg : s.rd .WP_LSTATE n k = 5 → t.rd .WP_GEN n k = s.rd .WP_GEN n k) : laneTx t n k = laneTx s n k := by
  unfold laneTx
  dsimp only
  rw [lanesLive_congr h, loopTx_congr h, physOf_congr h, h .WP_STATE (by decide), h .WP_LSTATE (by decide), h .WP_LSTATE (by decide),
    State.on, State.on, h .WP_STBY_IDLE (by decide)]
  by_cases h5 : s.rd .WP_LSTATE n k = 5
  · rw [hg h5]
  · rw [if_neg h5, if_neg h5]

theorem clockTx_congr {s t : State} (h : ∀ f ∈ txFlds, ∀ i j, t.rd f i j = s.rd f i j) (n : Nat) : clockTx t n = clockTx s n := by
  simp only [clockTx, lanesLive_congr h, loopTx_congr h, h .WP_STATE (by decide), h .WP_LSTATE (by decide),
    h .WP_CUR_RATE (by decide), h .WP_TARGET_RATE (by decide)]

/-- Steps of which none does anything do nothing. -/
theorem each_none {α : Type} {f : α → State → State} {s : State} (l : List α) (h : ∀ a ∈ l, f a s = s) : each l f s = s := by
  induction l with
  | nil => rfl
  | cons a l ih =>
    have hl := ih fun b hb => h b (List.mem_cons_of_mem a hb)
    exact (congrArg (each l f) (h a List.mem_cons_self)).trans hl

theorem rd_of_regs {s t : State} (h : t.regs = s.regs) (f : Fld) (i j : Nat) : t.rd f i j = s.rd f i j := by
  rw [State.rd, h]
  rfl

/-- A data lane's part of what `showTx` does. -/
def showLane (n : Nat) (was : State) (k : Nat) (s : State) : State :=
  when (decide (laneTx was n k ≠ laneTx s n k)) (emit (.lane n k (laneTx s n k))) s

theorem showTx_eq (n : Nat) (was s : State) : showTx n was s =
    when (decide (clockTx was n ≠ clockTx (each [0, 1, 2, 3] (showLane n was) s) n))
      (emit (.lane n 4 (clockTx (each [0, 1, 2, 3] (showLane n was) s) n))) (each [0, 1, 2, 3] (showLane n was) s) := rfl

theorem regs_showLane (n : Nat) (was : State) (k : Nat) (s : State) : (showLane n was k s).regs = s.regs := by
  unfold showLane when
  split <;> rfl

/-- Nothing is shown where no lane changes. -/
theorem showTx_same {n : Nat} {was s : State} (hl : ∀ k, laneTx s n k = laneTx was n k) (hc : clockTx s n = clockTx was n) :
    showTx n was s = s := by
  have hlanes : each [0, 1, 2, 3] (showLane n was) s = s := each_none _ fun k _ => when_of_not _ s (by simp [hl k])
  rw [showTx_eq, hlanes]
  exact when_of_not _ s (by simp [hc])

/-- What one of the lanes shown changes to is among what is sent. -/
theorem mem_out_showLanes {n k : Nat} {was s : State} (h : laneTx was n k ≠ laneTx s n k) (l : List Nat) {u : State} (hk : k ∈ l)
    (hu : u.regs = s.regs) : Out.lane n k (laneTx s n k) ∈ (each l (showLane n was) u).out := by
  induction l generalizing u with
  | nil => exact nomatch hk
  | cons a l ih =>
    rcases List.mem_cons.1 hk with rfl | hk
    · have hlane : laneTx u n k = laneTx s n k := laneTx_congr (fun f _ => rd_of_regs hu f) fun _ => rd_of_regs hu _ _ _
      have hmono : (showLane n was k u).out ⊆ (each l (showLane n was) (showLane n was k u)).out :=
        (moves_each (.refl 0 _) fun _ _ h => moves_when h fun _ h => moves_emit h).sent.subset
      refine hmono ?_
      simp only [showLane, hlane, when_of _ _ (decide_eq_true h), emit_out, List.mem_append, List.mem_singleton, or_true]
    · exact ih hk ((regs_showLane n was a u).trans hu)

/-- What a lane changes to is shown. -/
theorem mem_out_showTx {n k : Nat} {was s : State} (hk : k < 4) (h : laneTx was n k ≠ laneTx s n k) :
    Out.lane n k (laneTx s n k) ∈ (showTx n was s).out := by
  rw [showTx_eq]
  exact (moves_when (.refl 0 _) fun _ h => moves_emit h).sent.subset
    (mem_out_showLanes h _ (by simpa using (by omega : k = 0 ∨ k = 1 ∨ k = 2 ∨ k = 3)) rfl)

/-- A checker that takes another pattern falls out of sync (R176). -/
def checkerStops (n k chk : Nat) (s : State) : State :=
  when (s.rd .WP_CHK n k != chk) (fun s => (countPrbs n k s).wr .WP_PRBS_SYNC 0 n k) s

theorem moves_checkerStops (n k chk : Nat) (s : State) :
    Moves (foot_countPrbs ||| fms [.WP_PRBS_SYNC]) s (checkerStops n k chk s) :=
  moves_when (.refl _ s) fun _ h => moves_wr (moves_countPrbs h (by unfold Within; decide +kernel)) (by unfold Within; decide +kernel)

theorem rd_checkerStops (n k chk : Nat) (s : State) (f : Fld) (i j : Nat)
    (hf : (foot_countPrbs ||| fms [.WP_PRBS_SYNC]).testBit (fbit f) = false) : (checkerStops n k chk s).rd f i j = s.rd f i j :=
  (moves_checkerStops n k chk s).reg f i j hf

theorem out_checkerStops (n k chk : Nat) (s : State) : (checkerStops n k chk s).out = s.out := by
  have hcount : (countPrbs n k s).out = s.out := when_cases (P := fun t => t.out = s.out) rfl rfl
  exact when_cases (P := fun t => t.out = s.out) rfl hcount

/-- GEN and CHK of a lane as a write leaves them, before the lane's state follows. -/
def prbsWritten (n k gen chk : Nat) (s : State) : State := ((checkerStops n k chk s).wr .WP_GEN gen n k).wr .WP_CHK chk n k

theorem setPrbs_eq (n k gen chk : Nat) (s : State) :
    setPrbs n k gen chk s = showTx n s (settlePrbs n k (prbsWritten n k gen chk s)) := rfl

theorem rd_prbsWritten (n k gen chk : Nat) (s : State) (f : Fld) (i j : Nat)
    (hf : (foot_countPrbs ||| fms [.WP_PRBS_SYNC, .WP_GEN, .WP_CHK]).testBit (fbit f) = false) :
    (prbsWritten n k gen chk s).rd f i j = s.rd f i j :=
  (moves_wr (moves_wr (moves_when (.refl _ s) fun _ h => moves_wr (moves_countPrbs h (by unfold Within; decide +kernel))
    (by unfold Within; decide +kernel)) (by unfold Within; decide +kernel)) (by unfold Within; decide +kernel)).reg f i j hf

theorem wp_prbsWritten (n k gen chk : Nat) (s : State) (m : Nat) : (prbsWritten n k gen chk s).wp m = s.wp m := by
  have h : (prbsWritten n k gen chk s).wps = s.wps := (moves_checkerStops n k chk s).part .wps (by decide +kernel)
  rw [State.wp, h]
  rfl

theorem gen_prbsWritten (n k : Nat) (gen chk : Fin 4) (s : State) : (prbsWritten n k gen chk s).rd .WP_GEN n k = gen := by
  rw [prbsWritten, rd_wr_ne _ (by rintro ⟨⟨⟩, -⟩), rd_wr]
  exact Nat.mod_eq_of_lt gen.isLt

theorem chk_prbsWritten (n k : Nat) (gen chk : Fin 4) (s : State) : (prbsWritten n k gen chk s).rd .WP_CHK n k = chk := by
  rw [prbsWritten, rd_wr]
  exact Nat.mod_eq_of_lt chk.isLt

/-! ### A lane's state follows its generator and checker (R175) -/

/-- A lane in STANDBY whose generator or checker is on goes to TEST. -/
theorem settlePrbs_standby {n k : Nat} {s : State} (hon : s.rd .WP_GEN n k ≠ 0 ∨ s.rd .WP_CHK n k ≠ 0)
    (hl : s.rd .WP_LSTATE n k = 3) : settlePrbs n k s =
      ((s.wr .WP_PRBS_PEND 0 n k).modWp n (fun w => { w with prevL := w.prevL.set k 3 })).wr .WP_LSTATE 5 n k := by
  have hon : (!s.on .WP_GEN n k && !s.on .WP_CHK n k) = false := by
    simpa [State.on, or_iff_not_imp_left] using hon
  unfold settlePrbs
  dsimp only
  rw [hl, hon]
  rfl

/-- An ACTIVE lane keeps its state, and its test waits. -/
theorem settlePrbs_active {n k : Nat} {s : State} (hon : s.rd .WP_GEN n k ≠ 0 ∨ s.rd .WP_CHK n k ≠ 0)
    (hl : s.rd .WP_LSTATE n k = 2) : settlePrbs n k s = s.wr .WP_PRBS_PEND 1 n k := by
  have hon : (!s.on .WP_GEN n k && !s.on .WP_CHK n k) = false := by
    simpa [State.on, or_iff_not_imp_left] using hon
  unfold settlePrbs
  dsimp only
  rw [hl, hon]
  rfl

/-- A lane in TEST with both off returns to the state it had, out of sync. -/
theorem settlePrbs_off {n k : Nat} {s : State} (hg : s.rd .WP_GEN n k = 0) (hc : s.rd .WP_CHK n k = 0)
    (hl : s.rd .WP_LSTATE n k = 5) : settlePrbs n k s =
      ((countPrbs n k (s.wr .WP_PRBS_PEND 0 n k)).wr .WP_LSTATE ((s.wp n).prevL.getD k 0) n k).wr .WP_PRBS_SYNC 0 n k := by
  unfold settlePrbs
  dsimp only
  rw [hl, State.on, State.on, hg, hc]
  rfl

/-! ### A write of GEN and CHK -/

theorem exec_lanePrbsWrite {fn : Fn} {wl : Wl} {lane gen chk : Fin 4} {s : State} (h : wpWrites s fn wl = true) :
    exec (.lanePrbsWrite fn wl lane gen chk) s =
      .next (showTx wl s (settlePrbs wl lane (prbsWritten wl lane gen chk s))) :=
  congrArg Host.Outcome.next (when_of _ s h)

/-- The pattern of a lane in TEST. -/
theorem laneTx_test {s : State} {n k : Nat} (hlive : lanesLive s n = true) (hst : s.rd .WP_STATE n ≠ 7)
    (hl : s.rd .WP_LSTATE n k = 5) : laneTx s n k = pattern (s.rd .WP_GEN n k) := by
  unfold laneTx
  dsimp only
  rw [hlive, if_neg (by decide), if_neg hst, if_pos hl]

/-- A lane in STANDBY carries no test pattern. -/
theorem laneTx_ne_pattern {s : State} {n k : Nat} (hst : s.rd .WP_STATE n ≠ 7) (hl : s.rd .WP_LSTATE n k = 3) (gen : Fin 4)
    (hg : gen.val ≠ 0) : laneTx s n k ≠ pattern gen := by
  have hp : ∃ a b, pattern gen = .prbs a b := by
    match gen, hg with
    | 1, _ => exact ⟨7, 6, rfl⟩
    | 2, _ => exact ⟨15, 14, rfl⟩
    | 3, _ => exact ⟨31, 28, rfl⟩
  obtain ⟨a, b, hp⟩ := hp
  unfold laneTx
  dsimp only
  rw [hp, if_neg hst, if_neg (c := s.rd .WP_LSTATE n k = 5) (by omega)]
  split_ifs <;> exact fun h => nomatch h

section
variable {n k : Nat} {gen chk : Fin 4} {s : State}

/-- A lane in STANDBY goes to TEST, with its pattern shown. -/
theorem prbs_standby (hk : k < 4) (hon : gen.val ≠ 0 ∨ chk.val ≠ 0) (hl : s.rd .WP_LSTATE n k = 3) :
    let t := showTx n s (settlePrbs n k (prbsWritten n k gen chk s))
    t.rd .WP_LSTATE n k = 5 ∧ t.rd .WP_GEN n k = gen ∧ t.rd .WP_CHK n k = chk ∧
      (gen.val ≠ 0 → lanesLive s n = true → s.rd .WP_STATE n ≠ 7 → Out.lane n k (pattern gen) ∈ t.out) := by
  have hw := settlePrbs_standby (n := n) (k := k) (s := prbsWritten n k gen chk s)
    (by rw [gen_prbsWritten, chk_prbsWritten]; exact hon)
    (by rw [rd_prbsWritten _ _ _ _ _ _ _ _ (by decide +kernel)]; exact hl)
  have hrd : ∀ (f : Fld) (i j : Nat), (settlePrbs n k (prbsWritten n k gen chk s)).rd f i j =
      if f = .WP_LSTATE ∧ i = n ∧ j = k then 5 else if f = .WP_PRBS_PEND ∧ i = n ∧ j = k then 0
      else (prbsWritten n k gen chk s).rd f i j := by
    intro f i j
    rw [hw, rd_wr_ite, modWp_rd, rd_wr_ite]
    rfl
  have hfive : (settlePrbs n k (prbsWritten n k gen chk s)).rd .WP_LSTATE n k = 5 := by rw [hrd, if_pos ⟨rfl, rfl, rfl⟩]
  have hgen : (settlePrbs n k (prbsWritten n k gen chk s)).rd .WP_GEN n k = gen := by simp [hrd, gen_prbsWritten]
  have hchk : (settlePrbs n k (prbsWritten n k gen chk s)).rd .WP_CHK n k = chk := by simp [hrd, chk_prbsWritten]
  refine ⟨(rd_showTx ..).trans hfive, (rd_showTx ..).trans hgen, (rd_showTx ..).trans hchk, fun hg hlive hst => ?_⟩
  have hst' : (settlePrbs n k (prbsWritten n k gen chk s)).rd .WP_STATE n ≠ 7 := by
    simpa [hrd, rd_prbsWritten _ _ _ _ _ .WP_STATE _ _ (by decide +kernel)] using hst
  have hlive' : lanesLive (settlePrbs n k (prbsWritten n k gen chk s)) n = true := by
    simpa [lanesLive, State.domOn, State.on, hrd, rd_prbsWritten _ _ _ _ _ .PW_STATE _ _ (by decide +kernel),
      rd_prbsWritten _ _ _ _ _ .PW_PAD_HOLD _ _ (by decide +kernel)] using hlive
  have htx := (laneTx_test hlive' hst' hfive).trans (congrArg pattern hgen)
  exact htx ▸ mem_out_showTx hk (htx ▸ laneTx_ne_pattern hst hl gen hg)

/-- An ACTIVE lane goes on as it is. -/
theorem prbs_active (hon : gen.val ≠ 0 ∨ chk.val ≠ 0) (hl : s.rd .WP_LSTATE n k = 2) :
    let t := showTx n s (settlePrbs n k (prbsWritten n k gen chk s))
    t.rd .WP_LSTATE n k = 2 ∧ t.rd .WP_PRBS_PEND n k = 1 ∧ t.out = s.out := by
  have hw := settlePrbs_active (n := n) (k := k) (s := prbsWritten n k gen chk s)
    (by rw [gen_prbsWritten, chk_prbsWritten]; exact hon)
    (by rw [rd_prbsWritten _ _ _ _ _ _ _ _ (by decide +kernel)]; exact hl)
  have hrd : ∀ (f : Fld) (i j : Nat), ¬ (f = .WP_PRBS_PEND ∧ i = n ∧ j = k) →
      (settlePrbs n k (prbsWritten n k gen chk s)).rd f i j = (prbsWritten n k gen chk s).rd f i j := by
    intro f i j h
    rw [hw, rd_wr_ne _ h]
  have hkeep : ∀ f ∈ txFlds, ∀ i j, (settlePrbs n k (prbsWritten n k gen chk s)).rd f i j = s.rd f i j := by
    intro f hf i j
    rw [hrd f i j (by rintro ⟨rfl, -⟩; exact absurd hf (by decide)), rd_prbsWritten _ _ _ _ _ _ _ _ (by revert f; decide +kernel)]
  have hsame : showTx n s (settlePrbs n k (prbsWritten n k gen chk s)) = settlePrbs n k (prbsWritten n k gen chk s) := by
    refine showTx_same (fun k' => laneTx_congr hkeep fun h5 => ?_) (clockTx_congr hkeep n)
    have hne : k' ≠ k := by
      rintro rfl
      omega
    rw [hrd _ _ _ (by rintro ⟨⟨⟩, -⟩), prbsWritten, rd_wr_ne _ (by rintro ⟨⟨⟩, -⟩), rd_wr_ne _ (by rintro ⟨-, -, h⟩; exact hne h)]
    exact rd_checkerStops _ _ _ _ _ _ _ (by decide +kernel)
  rw [hsame]
  refine ⟨(hkeep .WP_LSTATE (by decide) n k).trans hl, by rw [hw, rd_wr]; rfl, ?_⟩
  rw [hw]
  exact out_checkerStops n k chk s

/-- A lane whose test ends returns to STANDBY. -/
theorem prbs_off (hg : gen.val = 0) (hc : chk.val = 0) (hl : s.rd .WP_LSTATE n k = 5) (hp : (s.wp n).prevL.getD k 0 = 3) :
    let t := showTx n s (settlePrbs n k (prbsWritten n k gen chk s))
    t.rd .WP_LSTATE n k = 3 ∧ t.rd .WP_PRBS_SYNC n k = 0 := by
  have hw := settlePrbs_off (n := n) (k := k) (s := prbsWritten n k gen chk s) ((gen_prbsWritten ..).trans hg)
    ((chk_prbsWritten ..).trans hc) (by rw [rd_prbsWritten _ _ _ _ _ _ _ _ (by decide +kernel)]; exact hl)
  refine ⟨?_, ?_⟩
  · rw [rd_showTx, hw, rd_wr_ne _ (by rintro ⟨⟨⟩, -⟩), rd_wr, wp_prbsWritten, hp]
    rfl
  · rw [rd_showTx, hw, rd_wr]
    rfl

end

/-! ### Injection (R177) -/

theorem exec_injGo {fn : Fn} {wl : Wl} {lane : Fin 4} {s : State} (h : wpWrites s fn wl = true) :
    exec (.injGo fn wl lane) s = .next (startInject wl lane s) := congrArg Host.Outcome.next (when_of _ s h)

theorem exec_injStop {fn : Fn} {wl : Wl} {lane : Fin 4} {s : State} (h : wpWrites s fn wl = true) :
    exec (.injStop fn wl lane) s = .next (stopInject wl lane s) := congrArg Host.Outcome.next (when_of _ s h)

section
variable {n k : Nat} {s : State}

/-- A single injection or burst into a generated pattern flips its bits at once. -/
theorem startInject_pattern (hmay : injMay s n k = true) (hp : (s.wp n).injPend.getD k 0 = 0) (hm : s.rd .WP_INJ_MODE n k ≠ 3)
    (hb : injBits s n k ≠ 0) (hlive : s.rd .WP_INJ_LIVE n k = 0) :
    startInject n k s = s.add .WP_LN_INJ_CNT (injBits s n k) n k := by
  unfold startInject
  dsimp only
  rw [hmay, hp, if_neg (by decide), if_neg hm, if_neg hb, State.on, hlive, if_neg (by decide)]

/-- On live grains it waits for the next of them. -/
theorem startInject_live (hmay : injMay s n k = true) (hp : (s.wp n).injPend.getD k 0 = 0) (hm : s.rd .WP_INJ_MODE n k ≠ 3)
    (hb : injBits s n k ≠ 0) (hlive : s.rd .WP_INJ_LIVE n k ≠ 0) :
    startInject n k s = s.modWp n (fun w => { w with injPend := w.injPend.set k (injBits s n k) }) := by
  have hon : s.on .WP_INJ_LIVE n k = true := by simpa [State.on] using hlive
  unfold startInject
  dsimp only
  rw [hmay, hp, if_neg (by decide), if_neg hm, if_neg hb, if_pos hon]

/-- A rate injection begins, or goes on. -/
theorem startInject_rate (hmay : injMay s n k = true) (hp : (s.wp n).injPend.getD k 0 = 0) (hm : s.rd .WP_INJ_MODE n k = 3) :
    startInject n k s = s.modWp n (fun w => if w.injAcc.getD k 0 = 0 then { w with injAcc := w.injAcc.set k 1 } else w) := by
  unfold startInject
  dsimp only
  rw [hmay, hp, if_neg (by decide), if_pos hm]

theorem wp_modWp_self (s : State) (n : Nat) (g : WpS → WpS) : (s.modWp n g).wp n = g (s.wp n) := by
  rw [modWp_wp, if_pos rfl]

end

/-- Settles O49: a write of GEN and CHK by the lane's state before it, the checker's events by what they write, and an injection by
its mode. -/
theorem laneTests : Obligations.LaneTests := by
  refine ⟨fun fn wl lane gen chk s hw => ⟨fun hon hl => ⟨_, exec_lanePrbsWrite hw, prbs_standby lane.isLt hon hl⟩,
    fun hon hl => ⟨_, exec_lanePrbsWrite hw, prbs_active hon hl⟩,
    fun hg hc hl hp => ⟨_, exec_lanePrbsWrite hw, prbs_off hg hc hl hp⟩⟩, ?_, ?_, ?_, ?_, ?_⟩
  · intro wl lane s hl hc
    refine ⟨_, congrArg Host.Outcome.next (when_of _ s ?_), rd_wr ..⟩
    rw [hl, hc]
    rfl
  · intro wl lane bits errors s h
    refine ⟨_, congrArg Host.Outcome.next (when_of _ s h), rd_wr .., ?_, ?_⟩
    · rw [rd_wr_ne _ (by rintro ⟨⟨⟩, -⟩), State.add, rd_wr_ne _ (by rintro ⟨⟨⟩, -⟩), State.add, rd_wr]
      rfl
    · rw [rd_wr_ne _ (by rintro ⟨⟨⟩, -⟩), State.add, rd_wr, State.add, rd_wr_ne _ (by rintro ⟨⟨⟩, -⟩)]
      rfl
  · intro fn wl lane s hw
    refine ⟨_, congrArg Host.Outcome.next (when_of _ s hw), ?_, rd_wr ..⟩
    rw [rd_wr_ne _ (by rintro ⟨⟨⟩, -⟩), rd_wr]
    rfl
  · intro fn wl lane s hw hp
    refine ⟨fun hlive hl hg => ?_, fun hlive hst hset hlen hm => ?_, fun hmay hlen hm => ?_⟩
    · have hmay : injMay s wl lane = true := by
        rw [injMay, hl, hg, State.on, hlive]
        rfl
      have hcount (h3 : s.rd .WP_INJ_MODE wl lane ≠ 3) (hb : injBits s wl lane ≠ 0) :
          Completes (.injGo fn wl lane) s (fun t =>
            t.rd .WP_LN_INJ_CNT wl lane = (s.rd .WP_LN_INJ_CNT wl lane + injBits s wl lane) % 2 ^ 64) :=
        ⟨_, exec_injGo hw, by
          rw [startInject_pattern hmay hp h3 hb hlive]
          exact rd_wr ..⟩
      refine ⟨fun hm => ?_, fun hm => ?_⟩
      · have hb : injBits s wl lane = 1 := by simp [injBits, hm]
        exact hb ▸ hcount (by omega) (by omega)
      · have hb : injBits s wl lane = max 1 (s.rd .WP_BURST_LEN wl lane) := by simp [injBits, hm]
        exact hb ▸ hcount (by omega) (by omega)
    · have hmay : injMay s wl lane = true := by simp [injMay, State.on, hlive, hst, hset]
      have hb : injBits s wl lane = max 1 (s.rd .WP_BURST_LEN wl lane) := by simp [injBits, hm]
      refine ⟨_, exec_injGo hw, ?_⟩
      rw [startInject_live hmay hp (by omega) (by omega) hlive, hb]
      refine ⟨rfl, ?_⟩
      rw [wp_modWp_self]
      simp [List.getD_eq_getElem?_getD, hlen]
    · refine ⟨_, exec_injGo hw, ?_⟩
      rw [startInject_rate hmay hp hm]
      refine ⟨rfl, ?_⟩
      rw [wp_modWp_self]
      split
      · simp [List.getD_eq_getElem?_getD, hlen]
      · assumption
  · intro fn wl lane s hw hacc
    refine ⟨_, exec_injStop hw, ?_, fun hlive => ?_⟩
    · rw [stopInject, wp_modWp_self]
      simp only [List.getD_eq_getElem?_getD, List.getElem?_set]
      split
      · split <;> rfl
      · contradiction
    · have hcount : countInj wl lane s = s := by
        unfold countInj
        simp [State.on, hlive]
      rw [stopInject, hcount]
      rfl

end Sys2Proof.Proofs
end

section
/-!
Doorbells and enables of a DMA channel (R253 to R256, R271, R272, Table DM-7).
-/
namespace Sys2Proof.Proofs
open Sys2Proof Sys2Proof.Machine Sys2Proof.Laws
set_option Elab.async false

theorem ch_modCh_self (s : State) (c : Nat) (g : ChanS → ChanS) : (s.modCh c g).ch c = g (s.ch c) := by
  rw [modCh_ch, if_pos rfl]

/-! ### What a channel's requests depend on -/

/-- The fields that say for whom a channel acts and whether it may. -/
def ownerFlds : List Fld := [.CH_TNID, .TN_HL, .TN_VF, .TN_GENERATION, .TN_STATE, .WD_REACT, .PW_STATE, .HL_DL_UP]

/-- These fields and the functions' configuration are the same. -/
def SameOwner (s t : State) : Prop := (∀ f ∈ ownerFlds, ∀ i j, t.rd f i j = s.rd f i j) ∧ t.cfg = s.cfg

section
variable {s t : State} (h : SameOwner s t) (c : Nat)
include h

theorem SameOwner.chTn : chTn t c = chTn s c := h.1 .CH_TNID (by decide) c 0

theorem SameOwner.tnState (n : Nat) : t.tnState n = s.tnState n := h.1 .TN_STATE (by decide) n 0

theorem SameOwner.chFn : chFn t c = chFn s c := by
  simp only [Machine.chFn, State.tnFn, h.chTn, h.1 .TN_HL (by decide), h.1 .TN_VF (by decide)]

theorem SameOwner.undeliverable (f : Nat) : undeliverable t f = undeliverable s f := by
  unfold Machine.undeliverable State.tlOn State.domOn State.dlUp State.on masters State.cf
  rw [h.2, h.1 .PW_STATE (by decide), h.1 .HL_DL_UP (by decide)]

theorem SameOwner.chStop : chStop t c = chStop s c := by
  unfold Machine.chStop State.react State.on
  dsimp only
  rw [h.chTn, h.tnState, h.chFn, h.undeliverable, h.1 .WD_REACT (by decide)]

theorem SameOwner.chReq (kind : HKind) (a n : Nat) (d : Bytes) (src : HSrc) (charge : Nat) :
    chReq t c kind a n d src charge = chReq s c kind a n d src charge := by
  simp only [Machine.chReq, hreq, h.chTn, h.chFn, h.1 .TN_GENERATION (by decide)]

end

/-- A write of a channel's own fields leaves them. -/
theorem SameOwner.wr {s t : State} (h : SameOwner s t) {f : Fld} (hf : f ∉ ownerFlds) (v i j : Nat) : SameOwner s (t.wr f v i j) :=
  ⟨fun g hg i' j' => (rd_wr_ne _ (by rintro ⟨rfl, -⟩; exact hf hg)).trans (h.1 g hg i' j'), h.2⟩

theorem SameOwner.modCh {s t : State} (h : SameOwner s t) (c : Nat) (g : ChanS → ChanS) : SameOwner s (t.modCh c g) := h

theorem SameOwner.refl (s : State) : SameOwner s s := ⟨fun _ _ _ _ => rfl, rfl⟩

/-! ### Fetches (R249, R254) -/

/-- The channel fetches, or reads NEXT again. -/
def fetching (c a : Nat) (s : State) : State :=
  (s.wr .CH_STATE 2 c).modCh c (fun x => { x with
    fetching := true, curAddr := a, noWriteBack := false, fetchFailed := 0, goOn := 0, raFailed := 0 })

/-- The channel reads NEXT again. -/
def rereading (c a : Nat) (s : State) : State :=
  (s.wr .CH_STATE 2 c).modCh c (fun x => { x with
    fetching := true, curAddr := a, noWriteBack := false, fetchFailed := 0, goOn := 0 })

section
variable {s t : State} {c a : Nat} (h : SameOwner s t) (hfrozen : s.tnState (chTn s c) ≠ 3) (hstop : chStop s c = 0)
include h hfrozen hstop

/-- A fetch that nothing stops waits behind what waits. -/
theorem startFetch_open : startFetch c a t = enqueueHost (chReq s c .read a 64 [] (.dmaFetch c a) 0) (fetching c a t) := by
  have hu : SameOwner s (fetching c a t) := (h.wr (by decide) 2 c 0).modCh c _
  unfold startFetch
  rw [if_neg (by rw [h.tnState, h.chTn]; exact hfrozen)]
  change (match chStop (fetching c a t) c with | 0 => _ | n => _ : State) = _
  rw [hu.chStop, hstop, ← hu.chReq]
  rfl

/-- So does a read of NEXT. -/
theorem startReread_open : startReread c a t = enqueueHost (chReq s c .read a 8 [] (.dmaReread c a) 0) (rereading c a t) := by
  have hu : SameOwner s (rereading c a t) := (h.wr (by decide) 2 c 0).modCh c _
  unfold startReread
  rw [if_neg (by rw [h.tnState, h.chTn]; exact hfrozen)]
  change (match chStop (rereading c a t) c with | 0 => _ | n => _ : State) = _
  rw [hu.chStop, hstop, ← hu.chReq]
  rfl

/-- The channel is then ACTIVE, with the fetch behind what waits. -/
theorem startFetch_result : (startFetch c a t).rd .CH_STATE c = 2 ∧
    (startFetch c a t).hostQ = t.hostQ ++ [chReq s c .read a 64 [] (.dmaFetch c a) 0] := by
  rw [startFetch_open h hfrozen hstop]
  exact ⟨rd_wr t .CH_STATE 2 c 0, rfl⟩

theorem startReread_result : (startReread c a t).rd .CH_STATE c = 2 ∧
    (startReread c a t).hostQ = t.hostQ ++ [chReq s c .read a 8 [] (.dmaReread c a) 0] := by
  rw [startReread_open h hfrozen hstop]
  exact ⟨rd_wr t .CH_STATE 2 c 0, rfl⟩

end

/-! ### A doorbell while a fetch is out (R254, R271) -/

/-- The channel holds no descriptor, none ahead either, and was rung since its last fetch. -/
def RungX (x : ChanS) : Prop := x.descs = [] ∧ x.ahead = [] ∧ x.dbSinceFetch = true

theorem rungX_modCh {s : State} {c : Nat} (h : RungX (s.ch c)) (c' : Nat) {g : ChanS → ChanS} (hg : ∀ x, RungX x → RungX (g x)) :
    RungX ((s.modCh c' g).ch c) := by
  rw [modCh_ch]
  split
  next he => subst he; exact hg _ h
  next => exact h

theorem rungX_withSlots {s : State} {c : Nat} (h : RungX (s.ch c)) (c' turn n : Nat) {k : State → State}
    (hk : RungX ((k s).ch c)) : RungX ((withSlots c' turn n k s).ch c) := by
  unfold withSlots
  dsimp only
  split
  · exact hk
  · exact rungX_modCh h c' fun _ hx => hx

theorem rungX_enqueueHost {s : State} {c : Nat} (h : RungX (s.ch c)) (r : HReq) : RungX ((enqueueHost r s).ch c) := h

theorem rungX_ite {p : Prop} [Decidable p] {a b : State} {c : Nat} (ha : RungX (a.ch c)) (hb : RungX (b.ch c)) :
    RungX ((if p then a else b).ch c) := by
  split
  · exact ha
  · exact hb

theorem rungX_aheadFetch {s : State} {c : Nat} (h : RungX (s.ch c)) (c' turn : Nat) : RungX ((aheadFetch c' turn s).ch c) := by
  unfold aheadFetch
  dsimp only
  split
  · exact h
  · refine rungX_ite (rungX_withSlots h c' _ _ (rungX_enqueueHost (rungX_modCh h c' fun x hx => ?_) _)) h
    exact hx

theorem rungX_aheadData {s : State} {c : Nat} (h : RungX (s.ch c)) (c' turn : Nat) : RungX ((aheadData c' turn s).ch c) := by
  unfold aheadData
  dsimp only
  split
  · exact h
  · refine rungX_ite (rungX_withSlots h c' _ _ (rungX_enqueueHost (rungX_modCh h c' fun x hx => ?_) _)) h
    obtain ⟨hd, ha, hb⟩ := hx
    exact ⟨by simp [hd], by simp [ha], hb⟩

theorem rungX_speculate {s : State} {c : Nat} (h : RungX (s.ch c)) (c' : Nat) : RungX ((speculate c' s).ch c) := by
  unfold speculate
  dsimp only
  refine rungX_aheadData (rungX_aheadFetch (rungX_modCh h c' fun x hx => ?_) c' _) c' _
  exact hx

/-- Channels that ask for prefetch slots leave it so. -/
theorem rungX_serveSlots {c : Nat} (t k : Nat) {s : State} (h : RungX (s.ch c)) : RungX ((serveSlots t k s).ch c) := by
  induction k generalizing s with
  | zero => exact h
  | succ k ih =>
    unfold serveSlots
    dsimp only
    split
    · exact h
    · split
      · exact h
      · split
        · exact rungX_speculate h _
        · exact ih (rungX_speculate h _)

/-- While its fetch is out, a channel without descriptors has nothing to issue or complete. -/
theorem pump_fetching {s : State} {c : Nat} (hd : (s.ch c).descs = []) (hf : (s.ch c).fetching = true) :
    pump c s = runAheadAll c s := by
  have hcomplete : completeAll c s = s := when_of_not _ s (by simp [hd])
  have hnext : nextDesc c s = s := if_pos (by simp [hf])
  have honce : pumpOnce c s = s := by
    unfold pumpOnce
    dsimp only
    rw [hd]
    change (if _ then s else when (mayRead s c) (nextDesc c) s) = s
    rw [show when (mayRead s c) (nextDesc c) s = s from when_cases (P := (· = s)) rfl hnext, ite_self]
  have hflush : maybeFlush c s = s := if_pos (by simp [hd])
  have hstep : maybeFlush c (pumpOnce c (completeAll c s)) = s := by rw [hcomplete, honce, hflush]
  have hloop : each (List.range 9) (fun _ s => maybeFlush c (pumpOnce c (completeAll c s))) s = s :=
    each_induct (P := (· = s)) (List.range 9) rfl fun _ _ h => h ▸ hstep
  exact congrArg (runAheadAll c) hloop

/-- A doorbell noted: the channel fetches nothing ahead. -/
def rung (c : Nat) (s : State) : State :=
  (dropAhead c (s.modCh c (fun x => { x with dbSinceFetch := true, dbOwed := x.dbOwed + x.ahead.length }))).wr .CH_DB_PENDING 1 c

theorem dropAhead_ch (c : Nat) (s : State) : (dropAhead c s).ch c = { s.ch c with ahead := [], raToken := 0, raAsked := 0 } := by
  unfold dropAhead
  dsimp only
  rw [ch_modCh_self]
  rfl

theorem rung_ch (c : Nat) (s : State) : (rung c s).ch c =
    { s.ch c with dbSinceFetch := true, dbOwed := (s.ch c).dbOwed + (s.ch c).ahead.length, ahead := [], raToken := 0, raAsked := 0 } := by
  have hnoted := ch_modCh_self s c (fun x => { x with dbSinceFetch := true, dbOwed := x.dbOwed + x.ahead.length })
  exact (dropAhead_ch c _).trans (congrArg (fun x : ChanS => { x with ahead := [], raToken := 0, raAsked := 0 }) hnoted)

theorem runAheadAll_rd (c : Nat) (s : State) {f : Fld} (hf : Nat.testBit foot_runAheadAll (fbit f) = false) (i j : Nat) :
    (runAheadAll c s).rd f i j = s.rd f i j :=
  (moves_runAheadAll (.refl _ _) (within_self _)).reg f i j hf

/-! ### The doorbell -/

section
variable {s : State} {c : Nat}

theorem doorbell_idle (hst : s.rd .CH_STATE c = 1) : doorbell c s =
    if (s.ch c).resumeNext then startReread c (s.ch c).resume (s.wr .CH_DB_PENDING 0 c)
    else if (s.ch c).resume = 0 then s.wr .CH_DB_PENDING 0 c
    else startFetch c (s.ch c).resume (s.wr .CH_DB_PENDING 0 c) := by
  unfold doorbell
  rw [hst]
  rfl

theorem doorbell_active (hst : s.rd .CH_STATE c = 2) : doorbell c s = pump c (rung c s) := by
  unfold doorbell
  rw [hst]
  rfl

theorem doorbell_waiting (hst : s.rd .CH_STATE c = 3) :
    doorbell c s = startFetch c (s.ch c).curAddr (s.wr .CH_DB_PENDING 0 c) := by
  unfold doorbell
  rw [hst]
  rfl

theorem doorbell_halted (hst : s.rd .CH_STATE c = 4) : doorbell c s =
    if s.on .CH_DRAINING c then s.wr .CH_DB_IGNORED 1 c
    else startFetch c (s.ch c).curAddr
      (((s.modCh c (fun x => { x with fetchRetries := 0, descs := [], flushOut := false, flushAgain := false })).wr
        .CH_RETRIES 0 c).wr .CH_DB_PENDING 0 c) := by
  unfold doorbell
  rw [hst]
  rfl

theorem doorbell_stopping (hst : s.rd .CH_STATE c = 5) : doorbell c s = s.wr .CH_DB_IGNORED 1 c := by
  unfold doorbell
  rw [hst]
  rfl

end

section
variable {s : State} {fn : Fn} {c : Chan} (hw : chanWrites s fn c = true)
include hw

theorem exec_channelDoorbell : exec (.channelDoorbell fn c) s = .next (ringChannel c s) :=
  congrArg Host.Outcome.next (when_of _ s hw)

/-- On a channel without EN it is ignored. -/
theorem ring_disabled (hen : s.on .CH_EN c = false) :
    exec (.channelDoorbell fn c) s = .next (s.wr .CH_DB_IGNORED 1 c) :=
  (exec_channelDoorbell hw).trans (congrArg Host.Outcome.next (if_pos (by simp [hen])))

section
variable (hen : s.on .CH_EN c = true)
include hen

/-- For a frozen tenant it is noted. -/
theorem ring_frozen (hfrozen : s.tnState (chTn s c) = 3) (hst : s.rd .CH_STATE c ≠ 5) :
    Completes (.channelDoorbell fn c) s (fun t => t.rd .CH_DB_PENDING c = 1 ∧ t.rd .CH_STATE c = s.rd .CH_STATE c ∧
      t.hostQ = s.hostQ ∧ c.val ∈ (t.ten (chTn s c)).doorbells) := by
  refine ⟨_, (exec_channelDoorbell hw).trans (congrArg Host.Outcome.next
    ((if_neg (by simp [hen])).trans (if_pos (by simp [hfrozen, hst])))), ?_⟩
  refine ⟨rd_wr s .CH_DB_PENDING 1 c 0, (modTen_rd ..).trans (rd_wr_ne s (by rintro ⟨⟨⟩, -⟩)), rfl, ?_⟩
  rw [modTen_ten, if_pos rfl]
  dsimp only
  split
  next hc => exact List.elem_iff.1 hc
  next => exact List.mem_append_right _ (.head _)

section
variable (hthawed : s.tnState (chTn s c) ≠ 3)
include hthawed

theorem exec_doorbell : exec (.channelDoorbell fn c) s = .next (doorbell c s) :=
  (exec_channelDoorbell hw).trans (congrArg Host.Outcome.next
    ((if_neg (by simp [hen])).trans (if_neg (by simp [hthawed]))))

/-- An IDLE channel fetches at its resume point. -/
theorem ring_idle_fetch (hstop : chStop s c = 0) (hst : s.rd .CH_STATE c = 1) (hr : (s.ch c).resumeNext = false)
    (ha : (s.ch c).resume ≠ 0) : Completes (.channelDoorbell fn c) s (fun t => t.rd .CH_STATE c = 2 ∧
      t.hostQ = s.hostQ ++ [chReq s c .read (s.ch c).resume 64 [] (.dmaFetch c (s.ch c).resume) 0]) := by
  refine ⟨_, exec_doorbell hw hen hthawed, ?_⟩
  rw [doorbell_idle hst, if_neg (by simp [hr]), if_neg ha]
  exact startFetch_result ((SameOwner.refl s).wr (by decide) 0 c 0) hthawed hstop

/-- It reads NEXT again where it stopped at a descriptor. -/
theorem ring_idle_reread (hstop : chStop s c = 0) (hst : s.rd .CH_STATE c = 1) (hr : (s.ch c).resumeNext = true) :
    Completes (.channelDoorbell fn c) s (fun t => t.rd .CH_STATE c = 2 ∧
      t.hostQ = s.hostQ ++ [chReq s c .read (s.ch c).resume 8 [] (.dmaReread c (s.ch c).resume) 0]) := by
  refine ⟨_, exec_doorbell hw hen hthawed, ?_⟩
  rw [doorbell_idle hst, if_pos hr]
  exact startReread_result ((SameOwner.refl s).wr (by decide) 0 c 0) hthawed hstop

/-- Without a resume point nothing starts. -/
theorem ring_idle_nowhere (hst : s.rd .CH_STATE c = 1) (hr : (s.ch c).resumeNext = false) (ha : (s.ch c).resume = 0) :
    exec (.channelDoorbell fn c) s = .next (s.wr .CH_DB_PENDING 0 c) := by
  rw [exec_doorbell hw hen hthawed, doorbell_idle hst, if_neg (by simp [hr]), if_pos ha]

/-- An ACTIVE channel notes it. -/
theorem ring_active (hst : s.rd .CH_STATE c = 2) (hd : (s.ch c).descs = []) (hf : (s.ch c).fetching = true) :
    Completes (.channelDoorbell fn c) s (fun t => t.rd .CH_DB_PENDING c = 1 ∧ (t.ch c).dbSinceFetch = true ∧
      (t.ch c).ahead = [] ∧ t.rd .CH_STATE c = 2) := by
  refine ⟨_, exec_doorbell hw hen hthawed, ?_⟩
  dsimp only
  rw [doorbell_active hst, pump_fetching (by rw [rung_ch]; exact hd) (by rw [rung_ch]; exact hf),
    runAheadAll_rd c _ (by decide +kernel), runAheadAll_rd c _ (by decide +kernel)]
  obtain ⟨-, hahead, hnoted⟩ : RungX ((runAheadAll c (rung c s)).ch c) :=
    rungX_serveSlots _ _ (rungX_speculate ⟨by rw [rung_ch]; exact hd, by rw [rung_ch], by rw [rung_ch]⟩ c)
  exact ⟨rd_wr _ .CH_DB_PENDING 1 c 0, hnoted, hahead, (rd_wr_ne _ (by rintro ⟨⟨⟩, -⟩)).trans hst⟩

/-- A channel that waits or is HALTED and drained fetches again. -/
theorem ring_again (hstop : chStop s c = 0) (hst : s.rd .CH_STATE c = 3 ∨ s.rd .CH_STATE c = 4 ∧ s.rd .CH_DRAINING c = 0) :
    Completes (.channelDoorbell fn c) s (fun t => t.rd .CH_STATE c = 2 ∧
      t.hostQ = s.hostQ ++ [chReq s c .read (s.ch c).curAddr 64 [] (.dmaFetch c (s.ch c).curAddr) 0]) := by
  refine ⟨_, exec_doorbell hw hen hthawed, ?_⟩
  obtain hst | ⟨hst, hdrained⟩ := hst
  · rw [doorbell_waiting hst]
    exact startFetch_result ((SameOwner.refl s).wr (by decide) 0 c 0) hthawed hstop
  · have hopen := ((SameOwner.refl s).modCh c (fun x => { x with
      fetchRetries := 0, descs := [], flushOut := false, flushAgain := false })).wr (f := .CH_RETRIES) (by decide) 0 c 0
    rw [doorbell_halted hst, if_neg (by simp [State.on, hdrained])]
    exact startFetch_result (hopen.wr (by decide) 0 c 0) hthawed hstop

/-- One that drains, or is stopping, ignores it. -/
theorem ring_ignored (hst : s.rd .CH_STATE c = 4 ∧ s.rd .CH_DRAINING c ≠ 0 ∨ s.rd .CH_STATE c = 5) :
    exec (.channelDoorbell fn c) s = .next (s.wr .CH_DB_IGNORED 1 c) := by
  obtain ⟨hst, hdrains⟩ | hst := hst
  · rw [exec_doorbell hw hen hthawed, doorbell_halted hst, if_pos (by simp [State.on, hdrains])]
  · rw [exec_doorbell hw hen hthawed, doorbell_stopping hst]

end

end

/-! ### EN (R253, R256, Table DM-7) -/

/-- A channel with EN set. -/
def enabled (c : Nat) (s : State) : State := (s.wr .CH_EN 1 c).modCh c (fun x => { x with curOpen := false })

omit hw in
theorem enabled_on (c : Nat) (s : State) : (enabled c s).rd .CH_EN c = 1 := rd_wr s .CH_EN 1 c 0

omit hw in
theorem enabled_rd (c : Nat) (s : State) {f : Fld} (hf : f ≠ .CH_EN) (i : Nat) : (enabled c s).rd f i = s.rd f i :=
  (modCh_rd ..).trans (rd_wr_ne s fun h => hf h.1)

omit hw in
/-- An IDLE channel starts at CH_HEAD. -/
theorem chIdle_starts (c : Nat) (s : State) : (chIdle c s).rd .CH_STATE c = 1 ∧ (chIdle c s).rd .CH_CODE c = 0 ∧
    ((chIdle c s).ch c).resumeNext = false ∧
    ((chIdle c s).ch c).resume = s.rd .CH_HEAD_LO c * 64 + s.rd .CH_HEAD_HI c * 2 ^ 32 := by
  unfold chIdle
  dsimp only
  rw [ch_modCh_self, modCh_rd, modCh_rd, rd_wr_ne _ (by rintro ⟨⟨⟩, -⟩)]
  exact ⟨rd_wr _ .CH_STATE 1 c 0, rd_wr _ .CH_CODE 0 c 0, rfl, rfl⟩

omit hw in
theorem chIdle_en (c : Nat) (s : State) : (chIdle c s).rd .CH_EN c = s.rd .CH_EN c := by
  unfold chIdle
  dsimp only
  rw [modCh_rd, rd_wr_ne _ (by rintro ⟨⟨⟩, -⟩), rd_wr_ne _ (by rintro ⟨⟨⟩, -⟩)]

/-- EN 1 takes a DISABLED channel to IDLE at CH_HEAD. -/
theorem enable_disabled (hen : s.on .CH_EN c = false) (hst : s.rd .CH_STATE c = 0) :
    Completes (.channelEnable fn c) s (fun t => t.rd .CH_EN c = 1 ∧ t.rd .CH_STATE c = 1 ∧ t.rd .CH_CODE c = 0 ∧
      (t.ch c).resumeNext = false ∧ (t.ch c).resume = s.rd .CH_HEAD_LO c * 64 + s.rd .CH_HEAD_HI c * 2 ^ 32) := by
  have henable : enableChannel c s = chIdle c (enabled c s) := by
    change (match (enabled c s).rd .CH_STATE c with | 0 => chIdle c (enabled c s) | 5 => _ | _ => _ : State) = _
    rw [enabled_rd c s (f := .CH_STATE) nofun, hst]
    rfl
  refine ⟨_, congrArg Host.Outcome.next ((when_of _ s (by simp [hw, hen])).trans henable), ?_⟩
  obtain ⟨hst, hcode, hnext, hresume⟩ := chIdle_starts c (enabled c s)
  refine ⟨?_, hst, hcode, hnext, ?_⟩
  · rw [chIdle_en, enabled_on]
  · rw [hresume, enabled_rd c s (f := .CH_HEAD_LO) nofun, enabled_rd c s (f := .CH_HEAD_HI) nofun]

/-- A stopping channel notes it. -/
theorem enable_stopping (hen : s.on .CH_EN c = false) (hst : s.rd .CH_STATE c = 5) :
    Completes (.channelEnable fn c) s (fun t => t.rd .CH_EN c = 1 ∧ t.rd .CH_STATE c = 5 ∧ (t.ch c).enAgain = true) := by
  have henable : enableChannel c s = (enabled c s).modCh c (fun x => { x with enAgain := true }) := by
    change (match (enabled c s).rd .CH_STATE c with | 0 => _ | 5 => (enabled c s).modCh c _ | _ => _ : State) = _
    rw [enabled_rd c s (f := .CH_STATE) nofun, hst]
    rfl
  refine ⟨_, congrArg Host.Outcome.next ((when_of _ s (by simp [hw, hen])).trans henable), enabled_on c s,
    (modCh_rd ..).trans ((enabled_rd c s (f := .CH_STATE) nofun c).trans hst), ?_⟩
  rw [ch_modCh_self]

/-- EN and the counts of a channel that is switched off. -/
def uncounted (c : Nat) (s : State) : State :=
  draw (s.wr .CH_EN 0 c) (fun v s => draw s (fun w s => (s.wr .CH_CUR v c).wr .CH_BYTES w c))

/-- It holds no descriptor. -/
def emptied (c : Nat) (s : State) : State :=
  s.modCh c (fun x => { x with
    descs := [], ahead := [], fetching := false, flushOut := false, flushAgain := false, enAgain := false, raToken := 0
    fetchFailed := 0, noWriteBack := true, curOpen := true, goOn := 0, dbOwed := 0, raFailed := 0, raAsked := 0 })

/-- Its tenant holds no doorbell for it. -/
def unrung (c : Nat) (s : State) : State :=
  when (decide (chTn s c < 256)) (fun s => s.modTen (chTn s c) (fun t => { t with doorbells := t.doorbells.erase c })) s

/-- EN 0: the channel as it is before it drains or leaves for DISABLED. -/
def switchedOff (c : Nat) (s : State) : State := (unrung c (emptied c (uncounted c s))).wr .CH_DB_PENDING 0 c

omit hw in
theorem disableChannel_eq (c : Nat) (s : State) : disableChannel c s =
    if s.rd .CH_STATE c = 1 then (switchedOff c s).wr .CH_STATE 0 c
    else if s.rd .CH_STATE c = 2 || s.rd .CH_STATE c = 3 || s.rd .CH_STATE c = 4 then
      if chLeft (dropChanWaiting c (switchedOff c s)) c then ((dropChanWaiting c (switchedOff c s)).wr .CH_STATE 5 c).wr .CH_DRAINING 1 c
      else ((dropChanWaiting c (switchedOff c s)).wr .CH_STATE 0 c).wr .CH_DRAINING 0 c
    else switchedOff c s := by
  rw [← show (s.wr .CH_EN 0 c).rd .CH_STATE c = s.rd .CH_STATE c from rd_wr_ne s (by rintro ⟨⟨⟩, -⟩)]
  rfl

omit hw in
theorem uncounted_en (c : Nat) (s : State) : (uncounted c s).rd .CH_EN c = 0 := by
  unfold uncounted draw
  rw [rd_wr_ne _ (by rintro ⟨⟨⟩, -⟩), rd_wr_ne _ (by rintro ⟨⟨⟩, -⟩)]
  exact rd_wr s .CH_EN 0 c 0

omit hw in
/-- Forgetting doorbells moves nothing but the tenants. -/
theorem unrung_keeps (c : Nat) (s : State) : (unrung c s).rd .CH_EN c = s.rd .CH_EN c ∧ (unrung c s).ch c = s.ch c ∧
    (unrung c s).tags = s.tags ∧ (unrung c s).wls = s.wls :=
  when_cases (P := fun t => t.rd .CH_EN c = s.rd .CH_EN c ∧ t.ch c = s.ch c ∧ t.tags = s.tags ∧ t.wls = s.wls)
    ⟨rfl, rfl, rfl, rfl⟩ ⟨rfl, rfl, rfl, rfl⟩

omit hw in
theorem switchedOff_rd (c : Nat) (s : State) : (switchedOff c s).rd .CH_EN c = 0 := by
  obtain ⟨hen, -⟩ := unrung_keeps c (emptied c (uncounted c s))
  rw [switchedOff, rd_wr_ne _ (by rintro ⟨⟨⟩, -⟩), hen]
  exact uncounted_en c s

omit hw in
theorem switchedOff_descs (c : Nat) (s : State) : ((switchedOff c s).ch c).descs = [] := by
  obtain ⟨-, hch, -⟩ := unrung_keeps c (emptied c (uncounted c s))
  exact (congrArg ChanS.descs hch).trans (congrArg ChanS.descs (ch_modCh_self (uncounted c s) c _))

omit hw in
/-- Tags and links are as they were. -/
theorem switchedOff_wire (c : Nat) (s : State) : (switchedOff c s).tags = s.tags ∧ (switchedOff c s).wls = s.wls := by
  obtain ⟨-, -, hwire⟩ := unrung_keeps c (emptied c (uncounted c s))
  exact hwire

omit hw in
/-- What is dropped from the queues is not what a partner still owes. -/
theorem chBusy_dropChanWaiting {c : Nat} {s t : State} (h : t.tags = s.tags ∧ t.wls = s.wls) :
    chBusy (dropChanWaiting c t) c = chBusy s c := by
  obtain ⟨htags, hwls⟩ := h
  have hlinks : (dropChanWaiting c t).wls.any (fun e => e.2.wlTags.any (fun x => !x.quarantined && x.src.chan == some c)) =
      s.wls.any (fun e => e.2.wlTags.any (fun x => !x.quarantined && x.src.chan == some c)) := by
    rw [← hwls]
    exact List.any_map
  exact congrArg₂ (· || ·) (congrArg (fun l : List HTag => l.any _) htags) hlinks

omit hw in
/-- Of a stopped channel only write-backs still wait. -/
theorem dropChanWaiting_left {c : Nat} {t : State} {r : HReq} (h : r ∈ (dropChanWaiting c t).hostQ) (hr : r.src.chan = some c) :
    r.src = .dmaWriteBack c := by
  have hkept := (List.mem_filter.1 h).2
  simpa [hr] using hkept

/-- EN 0 of an IDLE channel. -/
theorem disable_idle (hen : s.on .CH_EN c = true) (hst : s.rd .CH_STATE c = 1) :
    Completes (.channelDisable fn c) s (fun t => t.rd .CH_EN c = 0 ∧ t.rd .CH_STATE c = 0) := by
  refine ⟨_, congrArg Host.Outcome.next ((when_of _ s (by simp [hw, hen])).trans
    ((disableChannel_eq c s).trans (if_pos hst))), ?_, rd_wr _ .CH_STATE 0 c 0⟩
  exact (rd_wr_ne _ (by rintro ⟨⟨⟩, -⟩)).trans (switchedOff_rd c s)

/-- EN 0 of one that runs. -/
theorem disable_running (hen : s.on .CH_EN c = true) (hst : s.rd .CH_STATE c = 2 ∨ s.rd .CH_STATE c = 3 ∨ s.rd .CH_STATE c = 4) :
    Completes (.channelDisable fn c) s (fun t => t.rd .CH_EN c = 0 ∧ (t.ch c).descs = [] ∧
      t.rd .CH_STATE c = 5 * t.rd .CH_DRAINING c ∧ (chBusy s c = true → t.rd .CH_DRAINING c = 1) ∧
      (∀ r ∈ t.hostQ, r.src.chan = some c.val → r.src = .dmaWriteBack c)) := by
  refine ⟨_, congrArg Host.Outcome.next ((when_of _ s (by simp [hw, hen])).trans
    ((disableChannel_eq c s).trans ((if_neg (by omega)).trans (if_pos (by simpa [or_assoc] using hst))))), ?_⟩
  have hoff : (dropChanWaiting c (switchedOff c s)).rd .CH_EN c = 0 := switchedOff_rd c s
  have hdescs : ((dropChanWaiting c (switchedOff c s)).ch c).descs = [] := switchedOff_descs c s
  have hbusy := chBusy_dropChanWaiting (c := c) (switchedOff_wire c s)
  have hleft := fun r => dropChanWaiting_left (c := c) (t := switchedOff c s) (r := r)
  generalize dropChanWaiting c (switchedOff c s) = u at hoff hdescs hbusy hleft ⊢
  split
  next =>
    have hdraining : ((u.wr .CH_STATE 5 c).wr .CH_DRAINING 1 c).rd .CH_DRAINING c = 1 := rd_wr _ .CH_DRAINING 1 c 0
    refine ⟨?_, hdescs, ?_, fun _ => hdraining, hleft⟩
    · exact ((rd_wr_ne _ (by rintro ⟨⟨⟩, -⟩)).trans (rd_wr_ne _ (by rintro ⟨⟨⟩, -⟩))).trans hoff
    · rw [hdraining]
      exact (rd_wr_ne _ (by rintro ⟨⟨⟩, -⟩)).trans (rd_wr _ .CH_STATE 5 c 0)
  next hnone =>
    have hdraining : ((u.wr .CH_STATE 0 c).wr .CH_DRAINING 0 c).rd .CH_DRAINING c = 0 := rd_wr _ .CH_DRAINING 0 c 0
    refine ⟨?_, hdescs, ?_, fun hb => ?_, hleft⟩
    · exact ((rd_wr_ne _ (by rintro ⟨⟨⟩, -⟩)).trans (rd_wr_ne _ (by rintro ⟨⟨⟩, -⟩))).trans hoff
    · rw [hdraining]
      exact (rd_wr_ne _ (by rintro ⟨⟨⟩, -⟩)).trans (rd_wr _ .CH_STATE 0 c 0)
    · exact absurd (by simp [chLeft, hbusy, hb]) hnone

end

/-- Settles O45: a doorbell by the state of the channel, and what EN 1 and EN 0 do. -/
theorem channelControl : Obligations.ChannelControl := by
  unfold Obligations.ChannelControl
  refine ⟨fun fn c s hw hen ht => ⟨?_, ?_, ?_, ?_, ?_, ?_⟩, fun fn c s hw hen => ring_disabled hw hen,
    fun fn c s hw hen hf hst => ring_frozen hw hen hf hst, fun fn c s hw hen => ⟨?_, ?_⟩, fun fn c s hw hen => ⟨?_, ?_⟩⟩
  · exact ring_idle_fetch hw hen ht
  · exact ring_idle_reread hw hen ht
  · exact ring_idle_nowhere hw hen ht
  · exact ring_active hw hen ht
  · exact ring_again hw hen ht
  · exact ring_ignored hw hen ht
  · exact enable_disabled hw hen
  · exact enable_stopping hw hen
  · exact disable_idle hw hen
  · exact disable_running hw hen

end Sys2Proof.Proofs
end

section
/-!
How host requests leave (R15, R134, R136, R137, R283).
-/
namespace Sys2Proof.Proofs
open Sys2Proof Sys2Proof.Machine Sys2Proof.Laws
set_option Elab.async false

/-! ### One TLP of a request -/

theorem cutTlp_same (s : State) (r : HReq) : (cutTlp s r).1.fn = r.fn ∧ (cutTlp s r).1.kind = r.kind ∧
    (cutTlp s r).1.addr = r.addr ∧ (cutTlp s r).1.src = r.src := by
  unfold cutTlp
  dsimp only
  split <;> exact ⟨rfl, rfl, rfl, rfl⟩

theorem cutTlp_len {s : State} {r : HReq} (h : r.kind = .read) : (cutTlp s r).1.len = tlpLen s r := by
  have hle : tlpLen s r ≤ r.len := by
    simp only [tlpLen, h]
    exact Nat.min_le_left ..
  unfold cutTlp
  dsimp only
  split
  next hall => exact Nat.le_antisymm hall hle
  next => rfl

/-- The length of a read follows the function's settings and the tiller's conservative mode. -/
theorem tlpLen_congr {s t : State} (r : HReq) (hcfg : t.cfg = s.cfg)
    (hcons : ∀ i, t.rd .TI_CONSERVATIVE i = s.rd .TI_CONSERVATIVE i) : tlpLen t r = tlpLen s r := by
  unfold tlpLen maxPayload maxRead conservative State.on State.cf
  dsimp only
  rw [hcfg, hcons]

/-- The TLP that `sendTlp` puts in the transmit order. -/
def sentTlp (s : State) (r : HReq) : HReq :=
  fillMsix s { (cutTlp s r).1 with
    addr := if (cutTlp s r).1.kind = .flush then flushAddr s (cutTlp s r).1 else (cutTlp s r).1.addr }

theorem sentTlp_write {s : State} {r : HReq} (h : r.reads = false) : sentTlp s r = fillMsix s (cutTlp s r).1 := by
  obtain ⟨-, hkind, -⟩ := cutTlp_same s r
  have hflush : (cutTlp s r).1.kind ≠ .flush := by
    rw [hkind]
    rintro he
    simp [HReq.reads, he] at h
  unfold sentTlp
  rw [if_neg hflush]

/-- Nothing is filled in for a request that is no MSI-X message. -/
theorem fillMsix_other {s : State} {r : HReq} (h : ∀ v lane, r.src ≠ .msix v lane) : fillMsix s r = r := by
  unfold fillMsix
  split
  next v lane he => exact absurd he (h v lane)
  next => rfl

theorem sentTlp_read {s : State} {r : HReq} (h : ∀ v lane, r.src ≠ .msix v lane) : (sentTlp s r).fn = r.fn ∧
    (sentTlp s r).kind = r.kind ∧ (r.kind = .read → (sentTlp s r).addr = r.addr ∧ (sentTlp s r).len = tlpLen s r) := by
  obtain ⟨hfn, hkind, haddr, hsrc⟩ := cutTlp_same s r
  unfold sentTlp
  rw [fillMsix_other (r := { (cutTlp s r).1 with addr := _ }) (by rw [hsrc]; exact h)]
  refine ⟨hfn, hkind, fun hr => ⟨?_, cutTlp_len hr⟩⟩
  dsimp only
  rw [if_neg (by rw [hkind, hr]; nofun), haddr]

/-! ### What sendTlp sends first -/

theorem txTlp_out (h n : Nat) (s : State) : (txTlp h n s).out = s.out := rfl

theorem hubCross_out (i j n : Nat) (s : State) : (hubCross i j n s).out = s.out := by
  unfold hubCross
  split <;> rfl

theorem countTlp_out (r : HReq) (s : State) : (countTlp r s).out = s.out := by
  have hcross := (hubCross_out (r.src.tiller (txTlp r.fn.hl.val r.data.length s) r.fn.hl.val) (hlTiller r.fn.hl.val)
    r.data.length _).trans (txTlp_out r.fn.hl.val r.data.length s)
  unfold countTlp
  dsimp only
  split <;> split <;> exact hcross

theorem withSome_out {α : Type} (o : Option α) {f : α → State → State} (hf : ∀ a s, (f a s).out = s.out) (s : State) :
    (withSome o f s).out = s.out := by
  cases o with
  | none => rfl
  | some a => exact hf a s

theorem modLog_out (s : State) (n : Nat) (g : LogS → LogS) : (s.modLog n g).out = s.out := by
  unfold State.modLog
  split <;> rfl

theorem noteLast_out (r : HReq) (s : State) : (noteLast r s).out = s.out := by
  unfold noteLast
  dsimp only
  generalize hu : withSome _ _ s = u
  have hout : u.out = s.out := by
    rw [← hu]
    exact withSome_out _ (fun _ _ => by rfl) s
  split
  · exact hout
  · exact hout
  · exact hout
  · exact hout
  · exact (modLog_out ..).trans hout
  · exact hout

theorem chanServed_out (r : HReq) (s : State) : (chanServed r s).out = s.out := by
  unfold chanServed
  exact withSome_out _ (fun _ _ => by rfl) s

theorem chargeBucket_out (r : HReq) (s : State) : (chargeBucket r s).out = s.out := by
  unfold chargeBucket
  split <;> rfl

theorem sendTlp_out (r : HReq) (tag : Nat) (s : State) : ∃ l, (sendTlp r tag s).out = s.out ++ Out.tlp (sentTlp s r) tag :: l := by
  have hsent : ∃ p, p.out = s.out ∧ Moves foot_sendTlp (emit (.tlp (sentTlp s r) tag) p) (sendTlp r tag s) := by
    refine ⟨noteLast (sentTlp s r) (countTlp (sentTlp s r) (replaceReq r (cutTlp s r).2
      (chargeBucket (sentTlp s r) (chanServed (sentTlp s r) s)))), ?_, ?_⟩
    · rw [noteLast_out, countTlp_out]
      exact (chargeBucket_out ..).trans (chanServed_out ..)
    · unfold sendTlp
      dsimp only
      refine moves_when (moves_settleIntr (moves_idleDeficit ?_ (by unfold Within; decide +kernel)) (by unfold Within; decide +kernel))
        fun z hz => moves_showHeld hz (by unfold Within; decide +kernel)
      have hlog := moves_logWrite (r' := sentTlp s r) (.refl foot_sendTlp (emit (.tlp (sentTlp s r) tag) (noteLast (sentTlp s r)
        (countTlp (sentTlp s r) (replaceReq r (cutTlp s r).2 (chargeBucket (sentTlp s r) (chanServed (sentTlp s r) s)))))))
        (by unfold Within; decide +kernel)
      split
      · exact moves_lastTlp hlog (by unfold Within; decide +kernel)
      · exact hlog
  obtain ⟨p, hp, hm⟩ := hsent
  obtain ⟨l, hl⟩ := hm.sent
  refine ⟨l, hl.symm.trans ?_⟩
  change (p.out ++ [_]) ++ l = _
  rw [hp, List.append_assoc]
  rfl

/-! ### A tag taken -/

/-- The tag table's entry of a request that takes a tag. -/
def heldTag (s : State) (r : HReq) (tag : Nat) : HTag :=
  ⟨r, tag, 0, [], cellsFor r, false, false, false, conservative s (hlTiller r.fn.hl.val)⟩

/-- The tag is held and counted, and what the cut of the request depends on is as it was. -/
def Reserved (s : State) (r : HReq) (tag : Nat) (t : State) : Prop :=
  t.out = s.out ∧ t.tags = s.tags ++ [heldTag s r tag] ∧
    t.rd .TI_OUTSTANDING (hlTiller r.fn.hl.val) (r.fn.hl.val % 4) =
      (s.rd .TI_OUTSTANDING (hlTiller r.fn.hl.val) (r.fn.hl.val % 4) + 1) % 2 ^ 12 ∧
    t.cfg = s.cfg ∧ ∀ i, t.rd .TI_CONSERVATIVE i = s.rd .TI_CONSERVATIVE i

theorem Reserved.add {s t : State} {r : HReq} {tag : Nat} (h : Reserved s r tag t) {f : Fld} (ho : f ≠ .TI_OUTSTANDING)
    (hc : f ≠ .TI_CONSERVATIVE) (n i j : Nat) : Reserved s r tag (t.add f n i j) := by
  obtain ⟨hsent, htags, hout, hcfg, hcons⟩ := h
  exact ⟨hsent, htags, (rd_wr_ne t fun e => ho e.1.symm).trans hout, hcfg, fun k => (rd_wr_ne t fun e => hc e.1.symm).trans (hcons k)⟩

theorem reserve_reserved (r : HReq) (tag : Nat) (s : State) : Reserved s r tag (reserve r tag s) := by
  have htaken : Reserved s r tag
      (({ s with tags := s.tags ++ [heldTag s r tag] } : State).inc .TI_OUTSTANDING (hlTiller r.fn.hl.val) (r.fn.hl.val % 4)) :=
    ⟨rfl, rfl, rd_wr _ .TI_OUTSTANDING _ _ _, rfl, fun i => rd_wr_ne (f := .TI_OUTSTANDING) _ (by rintro ⟨⟨⟩, -⟩)⟩
  have hlive := when_cases (P := Reserved s r tag) (c := decide (r.tn < 256)) (f := fun s => s.inc .TN_LIVE_TAGS r.tn) htaken
    (htaken.add (f := .TN_LIVE_TAGS) nofun nofun 1 r.tn 0)
  unfold reserve
  dsimp only
  split
  · exact hlive.add (f := .TI_CONS_OUT) nofun nofun 1 (hlTiller r.fn.hl.val) 0
  · exact when_cases (P := Reserved s r tag) (hlive.add (f := .TI_CELLS_USED) nofun nofun (cellsFor r) (hlTiller r.fn.hl.val) 0)
      ((hlive.add (f := .TI_CELLS_USED) nofun nofun (cellsFor r) (hlTiller r.fn.hl.val) 0).add (f := .TN_CELLS_USED) nofun nofun (cellsFor r) r.tn 0)

/-- The request whose TLP a tag is taken for. -/
def readOne (s : State) (r : HReq) : HReq :=
  { (cutTlp s r).1 with addr := if (cutTlp s r).1.kind = .flush then flushAddr s (cutTlp s r).1 else (cutTlp s r).1.addr }

theorem readOne_fn (s : State) (r : HReq) : (readOne s r).fn = r.fn := (cutTlp_same s r).1

/-- A read leaves with its tag, which it then holds, and is counted. -/
theorem readTlp_spec {r : HReq} {tag : Nat} {s : State} (hmsix : ∀ v lane, r.src ≠ .msix v lane) :
    (∃ x l, (readTlp r tag s).out = s.out ++ Out.tlp x tag :: l ∧ x.fn = r.fn ∧ x.kind = r.kind ∧
      (r.kind = .read → x.addr = r.addr ∧ x.len = tlpLen s r)) ∧
    (∃ e ∈ (readTlp r tag s).tags, fnIdx e.req.fn = fnIdx r.fn ∧ e.tag = tag ∧ e.quarantined = false) ∧
    (readTlp r tag s).rd .TI_OUTSTANDING (hlTiller r.fn.hl.val) (r.fn.hl.val % 4) =
      (s.rd .TI_OUTSTANDING (hlTiller r.fn.hl.val) (r.fn.hl.val % 4) + 1) % 2 ^ 12 := by
  have hcounted : ∃ u, readTlp r tag s = sendTlp r tag (reserve (readOne s r) tag u) ∧ u.out = s.out ∧ u.cfg = s.cfg ∧
      ∀ f i j, f ≠ .TI_RQ_FLUSH_CNT → u.rd f i j = s.rd f i j := by
    refine ⟨when (r.kind == .flush) (fun s => s.inc .TI_RQ_FLUSH_CNT (hlTiller r.fn.hl.val)) s, rfl, ?_⟩
    exact when_cases (P := fun u => u.out = s.out ∧ u.cfg = s.cfg ∧ ∀ f i j, f ≠ .TI_RQ_FLUSH_CNT → u.rd f i j = s.rd f i j)
      (f := fun s => s.inc .TI_RQ_FLUSH_CNT (hlTiller r.fn.hl.val))
      ⟨rfl, rfl, fun _ _ _ _ => rfl⟩ ⟨rfl, rfl, fun f i j hf => rd_wr_ne s fun e => hf e.1⟩
  obtain ⟨u, hread, hout, hcfg, hrd⟩ := hcounted
  obtain ⟨hsame, htags, hcount, hcfg', hcons⟩ := reserve_reserved (readOne s r) tag u
  rw [readOne_fn] at hcount
  have hsend : Moves foot_sendTlp (reserve (readOne s r) tag u) (sendTlp r tag (reserve (readOne s r) tag u)) :=
    moves_sendTlp (.refl _ _) (within_self _)
  obtain ⟨l, hl⟩ := sendTlp_out r tag (reserve (readOne s r) tag u)
  rw [hread]
  refine ⟨⟨_, l, hl.trans (by rw [hsame, hout]), ?_⟩, ?_, ?_⟩
  · obtain ⟨hfn, hkind, hplace⟩ := sentTlp_read (s := reserve (readOne s r) tag u) hmsix
    rw [tlpLen_congr r (hcfg'.trans hcfg) fun i => (hcons i).trans (hrd _ _ _ nofun)] at hplace
    exact ⟨hfn, hkind, hplace⟩
  · rw [show (sendTlp r tag (reserve (readOne s r) tag u)).tags = _ from hsend.part .tags (by decide +kernel), htags]
    exact ⟨_, List.mem_append_right _ (.head _), congrArg fnIdx (readOne_fn s r), rfl, rfl⟩
  · rw [hsend.reg .TI_OUTSTANDING _ _ (by decide +kernel), hcount, hrd .TI_OUTSTANDING _ _ nofun]

/-! ### The choice -/

theorem atPos_hl {s : State} {h pos : Nat} {r : HReq} (hr : atPos s h pos = some r) : r.fn.hl.val = h := by
  have hmem : r ∈ linkQueue s h := List.mem_of_getElem? hr
  simpa using (List.mem_filter.1 hmem).2

section
variable {hl : Hl} {pos : Nat} {r : HReq} {s : State} (hpos : atPos s hl pos = some r)
include hpos

section
variable (hreads : r.reads = false) (hdeliver : undeliverable s (fnIdx r.fn) = 0) (hopen : linkOpen s hl = true)
  (hlog : logStalled s r = false)
include hreads hdeliver hopen hlog

/-- A write that the choice allows leaves first. -/
theorem write_leaves {d : Tbl Nat} (hallow : allowed s hl r = some d) :
    Completes (.hostTlpIssue hl pos) s (fun t => ∃ l, t.out = s.out ++ Out.tlp (fillMsix s (cutTlp s r).1) 0 :: l) := by
  obtain ⟨l, hsent⟩ := sendTlp_out r 0 (s.modHl hl (fun l => { l with deficit := d, bulkOwed := bulkAccount s hl r }))
  have hexec : exec (.hostTlpIssue hl pos) s = .next (freezeSettle
      (sendTlp r 0 (s.modHl hl (fun l => { l with deficit := d, bulkOwed := bulkAccount s hl r })))) := by
    refine congrArg (fun t => Host.Outcome.next (freezeSettle t)) ?_
    rw [hpos]
    simp [hreads, hdeliver, hopen, hlog, hallow]
  obtain ⟨l', hl'⟩ := (moves_freezeSettle (.refl foot_freezeSettle (sendTlp r 0 (s.modHl hl (fun l =>
    { l with deficit := d, bulkOwed := bulkAccount s hl r })))) (within_self _)).sent
  refine ⟨_, hexec, l ++ l', ?_⟩
  rw [← hl', hsent, sentTlp_write hreads, List.append_assoc]
  rfl

/-- One that it does not allow waits (the model's choice, log entry 24). -/
theorem write_waits (hallow : allowed s hl r = none) : exec (.hostTlpIssue hl pos) s = .next (freezeSettle s) := by
  refine congrArg (fun t => Host.Outcome.next (freezeSettle t)) ?_
  rw [hpos]
  simp [hreads, hdeliver, hopen, hlog, hallow]

end

section
variable (hreads : r.reads = true) (hdeliver : undeliverable s (fnIdx r.fn) = 0)
  (hregion : r.src.speculative = true → inRegion s r.tn r.addr r.len = true) (hno : noReads s r = false)
include hreads hdeliver hregion hno

/-- A read that the choice allows leaves with its tag. -/
theorem read_leaves {tag : Nat} {d : Tbl Nat} (hopen : linkOpen s hl = true) (hlo : (tagSet s (fnIdx r.fn)).1 ≤ tag)
    (hhi : tag < (tagSet s (fnIdx r.fn)).1 + (tagSet s (fnIdx r.fn)).2) (hheld : tagHeld s (fnIdx r.fn) tag = false)
    (hlog : logStalled s r = false) (hallow : allowed s hl r = some d) : exec (.hostReadIssue hl pos tag) s =
      .next (readTlp r tag (s.modHl hl (fun l => { l with deficit := d, bulkOwed := bulkAccount s hl r }))) := by
  refine congrArg Host.Outcome.next ?_
  rw [hpos]
  have hin : (r.src.speculative && !inRegion s r.tn r.addr r.len) = false := by simpa using hregion
  simp [hreads, hdeliver, hin, hno, hopen, hlog, hallow, hheld, Nat.not_lt.2 hlo, Nat.not_le.2 hhi]

/-- One whose tag is held waits (the model's choice, log entry 27). -/
theorem read_waits {tag : Nat} (hheld : tagHeld s (fnIdx r.fn) tag = true) : exec (.hostReadIssue hl pos tag) s = .next s := by
  refine congrArg Host.Outcome.next ?_
  rw [hpos]
  have hin : (r.src.speculative && !inRegion s r.tn r.addr r.len) = false := by simpa using hregion
  simp [hreads, hdeliver, hin, hno, hheld]

end

end

/-- Settles O40: what is sent before the TLP is nothing, and all that follows it leaves the tags and their count. -/
theorem hostRequestsLeave : Obligations.HostRequestsLeave := by
  unfold Obligations.HostRequestsLeave
  refine ⟨fun hl pos r d s hpos hreads hd ho hlog ha => write_leaves hpos hreads hd ho hlog ha,
    fun hl pos r s hpos hreads hd ho hlog ha => write_waits hpos hreads hd ho hlog ha,
    fun hl pos tag r d s hpos hreads hd hregion hno ho hlo hhi hheld hlog ha hmsix => ?_,
    fun hl pos tag r s hpos hreads hd hregion hno hheld => read_waits hpos hreads hd hregion hno hheld⟩
  refine ⟨_, read_leaves hpos hreads hd hregion hno ho hlo hhi hheld hlog ha, ?_⟩
  have hspec := readTlp_spec (tag := tag)
    (s := s.modHl hl (fun l => { l with deficit := d, bulkOwed := bulkAccount s hl r })) hmsix
  rw [atPos_hl hpos] at hspec
  exact hspec

end Sys2Proof.Proofs
end

section
/-!
Messages, IDENT and answers of a local design, and requests that it does not answer (R122, R123, R225, R228, R231, R235).
-/
namespace Sys2Proof.Proofs
open Sys2Proof Sys2Proof.Machine Sys2Proof.Laws
set_option Elab.async false

/-! ### Taking a packet -/

theorem wl_modWl_self (s : State) (n : Nat) (g : WlS → WlS) : (s.modWl n g).wl n = g (s.wl n) := by
  rw [modWl_wl, if_pos rfl]

/-- A link without its account of received packets and returned credit. -/
def wlCore (w : WlS) : WlS := { w with rxQ := [], arrived := 0, taken := [], freed := [] }

theorem wlCore_modWl {s : State} {n : Nat} {g : WlS → WlS} (hg : ∀ w, wlCore (g w) = wlCore w) (k : Nat) :
    wlCore ((s.modWl n g).wl k) = wlCore (s.wl k) := by
  rw [modWl_wl]
  split
  next he => exact (hg _).trans (by rw [he])
  next => rfl

theorem wlCore_takePacket (n : Nat) (p : Pkt) (s : State) (k : Nat) :
    wlCore ((takePacket n p s).wl k) = wlCore (s.wl k) := by
  unfold takePacket
  dsimp only
  split <;> exact wlCore_modWl (fun _ => by rfl) k

theorem wlCore_releasePkt (n : Nat) (p : Pkt) (s : State) (k : Nat) :
    wlCore ((releasePkt n p s).wl k) = wlCore (s.wl k) :=
  when_cases (P := fun t => wlCore (t.wl k) = wlCore (s.wl k)) rfl
    (when_cases (P := fun t => wlCore (t.wl k) = wlCore (s.wl k)) rfl (wlCore_modWl (fun _ => by rfl) k))

theorem takePacket_rd (n : Nat) (p : Pkt) (s : State) {f : Fld} (hf : Nat.testBit foot_takePacket (fbit f) = false) (i j : Nat) :
    (takePacket n p s).rd f i j = s.rd f i j := (moves_takePacket (.refl _ _) (within_self _)).reg f i j hf

theorem releasePkt_rd (n : Nat) (p : Pkt) (s : State) (f : Fld) (i j : Nat) : (releasePkt n p s).rd f i j = s.rd f i j :=
  when_cases (P := fun t => t.rd f i j = s.rd f i j) rfl (when_cases (P := fun t => t.rd f i j = s.rd f i j) rfl rfl)

theorem takePacket_out (n : Nat) (p : Pkt) (s : State) : (takePacket n p s).out = s.out := by
  unfold takePacket
  dsimp only
  split <;> rfl

theorem releasePkt_out (n : Nat) (p : Pkt) (s : State) : (releasePkt n p s).out = s.out :=
  when_cases (P := fun t => t.out = s.out) rfl (when_cases (P := fun t => t.out = s.out) rfl rfl)

/-- A packet of the link that is taken goes to what acts on its kind. -/
theorem localPacket_taken {n : Nat} {p : Pkt} {s : State} (h : Taken s n p) {types : List Nat} (ht : p.typ ∈ types)
    (k : Pkt → State → State) : localPacket n p types k s = k p (takePacket n p s) := by
  obtain ⟨htakes, hacted, -⟩ := h
  unfold localPacket
  rw [if_neg (by simp [htakes]), if_pos (by simpa using ht), hacted]

/-! ### Messages -/

theorem findInt_congr {s t : State} (h : ∀ f ∈ [Fld.NW_LINK, .NW_MSG_BASE, .NW_COUNT], ∀ i, t.rd f i = s.rd f i) (n m : Nat) :
    findInt t n m = findInt s n m := by
  unfold findInt
  refine congrArg (fun p => List.find? p (tillerEntries (wlTiller n) 128)) (funext fun i => ?_)
  rw [h .NW_LINK (by decide) i, h .NW_MSG_BASE (by decide) i, h .NW_COUNT (by decide) i]

theorem findInt_takePacket (n m : Nat) (p : Pkt) (s : State) : findInt (takePacket n p s) n m = findInt s n m :=
  findInt_congr (fun f hf i => takePacket_rd n p s (by fin_cases hf <;> decide +kernel) i 0) n m

/-- A message that no window maps is counted. -/
theorem message_missed {wl : Wl} {p : Pkt} {s : State} (h : Taken s wl p) (ht : p.typ = 7) (hs : p.sub = 1) (hl : p.len = 0)
    (hmiss : findInt s wl p.num = none) : Completes (.localInterruptMsg wl p) s (fun t =>
      t.rd .CT_WL_WIN_MISS wl = (s.rd .CT_WL_WIN_MISS wl + 1) % 2 ^ 64) := by
  refine ⟨_, congrArg Host.Outcome.next (localPacket_taken h (by simp [ht]) _), ?_⟩
  unfold localMsg
  rw [if_neg (by simp [hl]), if_pos (by simp [hs])]
  unfold interruptMsg
  rw [findInt_takePacket, hmiss]
  unfold windowMiss
  dsimp only
  rw [if_neg (by simp [ht]), if_neg (by simp [ht])]
  have hward := fun (u : State) => (moves_wardDetail (g := wlTiller wl) (l := 9) (m' := mWl wl)
    (access := if p.typ = 1 || p.typ = 7 then 7 else 6) (detail := 0) (addr := p.addr) (.refl _ u) (within_self _)).reg
    .CT_WL_WIN_MISS wl 0 (by decide +kernel)
  rw [hward, releasePkt_rd]
  refine (rd_wr _ .CT_WL_WIN_MISS _ wl 0).trans ?_
  rw [takePacket_rd _ _ _ (by decide +kernel)]
  rfl

/-! ### Identification -/

theorem ident_held {wl : Wl} {p : Pkt} {s : State} (h : Taken s wl p) (ht : p.typ = 8) (hs : p.sub = 1) (hl : p.len = 32) :
    Completes (.identReceived wl p) s (fun t => t.out = s.out ∧ (t.wl wl).maxRd = identMaxRd (payloadOf p) ∧
      ∃ q, (t.wl wl).ident = some q ∧ q.payload = payloadOf p) := by
  refine ⟨_, congrArg Host.Outcome.next (localPacket_taken h (by simp [ht]) _), ?_⟩
  obtain ⟨-, -, htag⟩ := h
  unfold localLnk
  rw [if_neg (by simp [hs]), if_neg (by simp [hl])]
  dsimp only
  rw [when_of _ _ (by simp [freshTag]; omega)]
  have hcore := wlCore_releasePkt wl { p with payload := payloadOf p } ((takePacket wl p s).modWl wl (fun w => { w with
    ident := some { p with payload := payloadOf p }, maxRd := identMaxRd (payloadOf p) })) wl
  rw [wl_modWl_self] at hcore
  exact ⟨(releasePkt_out ..).trans (takePacket_out ..), congrArg WlS.maxRd hcore, _, congrArg WlS.ident hcore, rfl⟩

/-! ### Answers -/

theorem freezeSettle_rd (s : State) {f : Fld} (hf : Nat.testBit foot_freezeSettle (fbit f) = false) (i j : Nat) :
    (freezeSettle s).rd f i j = s.rd f i j := (moves_freezeSettle (.refl _ _) (within_self _)).reg f i j hf

theorem freezeSettle_wls (s : State) : (freezeSettle s).wls = s.wls :=
  (moves_freezeSettle (.refl _ _) (within_self _)).part .wls (by decide +kernel)

theorem unexpectedRsp_rd (n : Nat) (p : Pkt) (cnt : Fld) (s : State)
    (hf : Nat.testBit (foot_wardDetail) (fbit cnt) = false) : (unexpectedRsp n p cnt s).rd cnt n = (s.inc cnt n).rd cnt n :=
  (moves_wardDetail (.refl _ (s.inc cnt n)) (within_self _)).reg cnt n 0 hf

theorem wlTags_of_core {v w : WlS} (h : wlCore v = wlCore w) : v.wlTags = w.wlTags := by
  have htags := congrArg WlS.wlTags h
  exact htags

theorem wlTags_releasePkt (n : Nat) (p : Pkt) (s : State) (k : Nat) : ((releasePkt n p s).wl k).wlTags = (s.wl k).wlTags :=
  wlTags_of_core (wlCore_releasePkt n p s k)

theorem wlTags_takePacket (n : Nat) (p : Pkt) (s : State) (k : Nat) : ((takePacket n p s).wl k).wlTags = (s.wl k).wlTags :=
  wlTags_of_core (wlCore_takePacket n p s k)

section
variable {n : Nat} {p : Pkt} {s : State}

theorem localResponse_none (hnone : (s.wl n).wlTags.find? (fun t => t.tag == p.tag) = none) :
    localResponse n p s = unexpectedRsp n p .CT_WL_UNEXP_RSP (releasePkt n p s) := by
  unfold localResponse
  dsimp only
  rw [wlTags_releasePkt, hnone]

theorem localResponse_late {e : WTag} (hsome : (s.wl n).wlTags.find? (fun t => t.tag == p.tag) = some e)
    (hq : e.quarantined = true) :
    localResponse n p s = freeWTag n e (unexpectedRsp n p .CT_WL_LATE_RSP (releasePkt n p s)) := by
  unfold localResponse
  dsimp only
  rw [wlTags_releasePkt, hsome]
  exact if_pos hq

theorem localResponse_fits {e : WTag} (hsome : (s.wl n).wlTags.find? (fun t => t.tag == p.tag) = some e)
    (hq : e.quarantined = false) (ha : answers e.pkt p = true) (hfits : p.typ = 4 → Machine.fits e p = true) :
    localResponse n p s = endFormer n e.tag (answered n e p (releasePkt n p s)) := by
  unfold localResponse
  dsimp only
  rw [wlTags_releasePkt, hsome]
  dsimp only
  rw [if_neg (by simp [hq]), if_neg (by simp [ha]), if_neg (by simpa using hfits)]

end

section
variable {wl : Wl} {p : Pkt} {s : State} (h : Taken s wl p) (ht : p.typ = 3 ∨ p.typ = 4 ∨ p.typ = 5)
include h ht

theorem exec_localResponse : exec (.localResponse wl p) s = .next (freezeSettle (localResponse wl p (takePacket wl p s))) :=
  congrArg (fun t => Host.Outcome.next (freezeSettle t)) (localPacket_taken h (by simpa using ht) (localResponse wl))

/-- An answer to no request. -/
theorem answer_unexpected (hnone : (s.wl wl).wlTags.find? (fun t => t.tag == p.tag) = none) :
    Completes (.localResponse wl p) s (fun t =>
      t.rd .CT_WL_UNEXP_RSP wl = (s.rd .CT_WL_UNEXP_RSP wl + 1) % 2 ^ 64) := by
  refine ⟨_, exec_localResponse h ht, ?_⟩
  dsimp only
  rw [freezeSettle_rd _ (by decide +kernel), localResponse_none (by rw [wlTags_takePacket]; exact hnone),
    unexpectedRsp_rd _ _ _ _ (by decide +kernel), ← takePacket_rd wl p s (f := .CT_WL_UNEXP_RSP) (by decide +kernel),
    ← releasePkt_rd wl p (takePacket wl p s)]
  exact rd_wr _ .CT_WL_UNEXP_RSP _ wl 0

/-- An answer to one that timed out. -/
theorem answer_late {e : WTag} (hsome : (s.wl wl).wlTags.find? (fun t => t.tag == p.tag) = some e) (hq : e.quarantined = true) :
    Completes (.localResponse wl p) s (fun t =>
      t.rd .CT_WL_LATE_RSP wl = (s.rd .CT_WL_LATE_RSP wl + 1) % 2 ^ 64) := by
  refine ⟨_, exec_localResponse h ht, ?_⟩
  dsimp only
  rw [freezeSettle_rd _ (by decide +kernel), localResponse_late (by rw [wlTags_takePacket]; exact hsome) hq,
    ← takePacket_rd wl p s (f := .CT_WL_LATE_RSP) (by decide +kernel), ← releasePkt_rd wl p (takePacket wl p s)]
  exact (unexpectedRsp_rd _ _ _ _ (by decide +kernel)).trans (rd_wr _ .CT_WL_LATE_RSP _ wl 0)

end

/-! ### The last answer to a host read -/

section
variable {f rd part : Nat}

/-- What a host read does with an answer's data and its end leaves the links as they were. -/
theorem bridgeData_hostRead (got : Nat) (b : Bytes) (s : State) : (bridgeData (.hostRead f rd part) got b s).wls = s.wls :=
  (moves_inData (.refl _ s) (within_self _)).part .wls (by decide +kernel)

theorem bridgeDone_hostRead (s : State) : (bridgeDone (.hostRead f rd part) s).wls = s.wls :=
  (moves_inPart (.refl _ s) (within_self _)).part .wls (by decide +kernel)

theorem wl_of_wls {s t : State} (h : t.wls = s.wls) (n : Nat) : t.wl n = s.wl n := congrArg (tget WlS.reset · n) h

theorem freeWTag_wlTags (n : Nat) (t : WTag) (s : State) : ((freeWTag n t s).wl n).wlTags = (s.wl n).wlTags.erase t :=
  congrArg (fun w : WlS => w.wlTags) (wl_modWl_self s n _)

/-- Of the links an answer moves at first nothing. -/
theorem answerCounted_wls (n : Nat) (t : WTag) (p : Pkt) (s : State) :
    (when (p.typ == 4) (fun s => hubCross (wlTiller n) (t.src.tiller s n) p.len s)
      (withSome ((t.src.hostRd s).filter (·.down)) (fun q s => s.inc .HL_DROP_CNT q.req.fn.hl.val) s)).wls = s.wls := by
  have hdrop : (withSome ((t.src.hostRd s).filter (·.down)) (fun q s => s.inc .HL_DROP_CNT q.req.fn.hl.val) s).wls = s.wls := by
    cases (t.src.hostRd s).filter (·.down) <;> rfl
  refine when_cases (P := fun u => u.wls = s.wls) hdrop (Eq.trans ?_ hdrop)
  exact (moves_hubCross (.refl _ _) (within_self _)).part .wls (by decide +kernel)

/-- The answer that ends a host read frees its TAG. -/
theorem answered_last {n : Nat} {t : WTag} {p : Pkt} {s : State} (hsrc : t.src = .hostRead f rd part)
    (hlast : p.typ ≠ 4 ∧ p.status = 0 ∨ p.typ = 4 ∧ t.got + p.len = t.pkt.len) :
    ((answered n t p s).wl n).wlTags = (s.wl n).wlTags.erase t := by
  have hstale : ∀ u, staleRsp u t = false := fun u => by simp [staleRsp, hsrc, WSrc.chan]
  have hcount := wl_of_wls (answerCounted_wls n t p s) n
  unfold answered
  dsimp only
  generalize when (p.typ == 4) _ _ = u at hcount ⊢
  rw [if_neg (by simp [hstale]), hsrc]
  obtain ⟨h4, hok⟩ | ⟨h4, hall⟩ := hlast
  · rw [if_neg h4, if_pos hok, wl_of_wls (bridgeDone_hostRead _), freeWTag_wlTags, hcount]
  · rw [if_pos h4, if_pos (by simp [hall]), wl_of_wls (bridgeDone_hostRead _), wl_of_wls (bridgeData_hostRead ..),
      freeWTag_wlTags, hcount]

end

/-- With no request of the TAG left nothing else ends. -/
theorem endFormer_none {n tag : Nat} {s : State} (h : ∀ t ∈ (s.wl n).wlTags, t.tag ≠ tag) : endFormer n tag s = s := by
  unfold endFormer
  rw [List.find?_eq_none.2 (by simpa using h)]

theorem answer_ends {wl : Wl} {p : Pkt} {e : WTag} {s : State} (h : Taken s wl p) (ht : p.typ = 3 ∨ p.typ = 4 ∨ p.typ = 5)
    (hsome : (s.wl wl).wlTags.find? (fun t => t.tag == p.tag) = some e) {f rd part : Nat} (hsrc : e.src = .hostRead f rd part)
    (hq : e.quarantined = false) (ha : answers e.pkt p = true) (hone : (s.wl wl).wlTags.filter (fun t => t.tag == p.tag) = [e])
    (hlast : p.typ ≠ 4 ∧ p.status = 0 ∨ p.typ = 4 ∧ Machine.fits e p = true ∧ e.got + p.len = e.pkt.len) :
    Completes (.localResponse wl p) s (fun t => (t.wl wl).wlTags = (s.wl wl).wlTags.erase e) := by
  refine ⟨_, exec_localResponse h ht, ?_⟩
  have htag : e.tag = p.tag := by simpa using List.find?_some hsome
  have herase : ((answered wl e p (releasePkt wl p (takePacket wl p s))).wl wl).wlTags = (s.wl wl).wlTags.erase e := by
    rw [answered_last hsrc (by tauto), wlTags_releasePkt, wlTags_takePacket]
  have hgone : ∀ t ∈ (s.wl wl).wlTags.erase e, t.tag ≠ e.tag := by
    intro t hmem he
    have hleft : t ∈ ((s.wl wl).wlTags.filter (fun t => t.tag == p.tag)).erase e := by
      rw [List.erase_filter]
      exact List.mem_filter.2 ⟨hmem, by simp [he, htag]⟩
    simp [hone] at hleft
  dsimp only
  rw [wl_of_wls (freezeSettle_wls _), localResponse_fits (by rw [wlTags_takePacket]; exact hsome) hq ha (by tauto),
    endFormer_none (by rw [herase]; exact hgone), herase]

/-! ### A request that is not answered -/

section
variable {wl : Wl} {tag : Nat} {s : State}

theorem timeout_none (hnone : (s.wl wl).wlTags.find? (fun t => t.tag == tag) = none) :
    exec (.lrspTimeout wl tag) s = .next (freezeSettle s) := by
  refine congrArg (fun t => Host.Outcome.next (freezeSettle t)) ?_
  dsimp only
  rw [hnone]

/-- The TAG goes to quarantine. -/
def timedOut (n tag : Nat) (e : WTag) (s : State) : State :=
  trace 2 n 0x0203 (tag % 4096) (s.modWl n (fun w => { w with
    wlTags := w.wlTags.map (fun x => if x = e then { e with quarantined := true } else x) }))

variable {e : WTag} (hsome : (s.wl wl).wlTags.find? (fun t => t.tag == tag) = some e)
include hsome

theorem timedOut_wlTags : ∃ x ∈ ((timedOut wl tag e s).wl wl).wlTags, x.tag = tag ∧ x.quarantined = true := by
  have htag : e.tag = tag := by simpa using List.find?_some hsome
  refine ⟨{ e with quarantined := true }, ?_, htag, rfl⟩
  have hwls : (timedOut wl tag e s).wls = (s.modWl wl (fun w => { w with
      wlTags := w.wlTags.map (fun x => if x = e then { e with quarantined := true } else x) })).wls :=
    (moves_trace (.refl _ _) (within_self _)).part .wls (by decide +kernel)
  rw [wl_of_wls hwls, wl_modWl_self]
  exact List.mem_map.2 ⟨e, List.mem_of_find?_eq_some hsome, if_pos rfl⟩

variable (hq : e.quarantined = false) (ht : e.ticksLeft = 0) (hon : s.tlOn (wlTiller wl) = true)
include hq ht hon

theorem exec_lrspTimeout : exec (.lrspTimeout wl tag) s = .next (freezeSettle (
    if staleRsp (timedOut wl tag e s) e then timedOut wl tag e s
    else bridgeFails wl e.src e.pkt.addr 6 (timedOut wl tag e s))) := by
  refine congrArg (fun t => Host.Outcome.next (freezeSettle t)) ?_
  dsimp only
  rw [hsome]
  exact if_neg (by simp [hq, ht, hon])

omit hsome hq ht hon in
theorem staleRsp_timedOut : staleRsp (timedOut wl tag e s) e = staleRsp s e := by
  have hgen : (timedOut wl tag e s).rd .TN_GENERATION e.tn = s.rd .TN_GENERATION e.tn :=
    (moves_trace (.refl _ _) (within_self _)).reg .TN_GENERATION e.tn 0 (by decide +kernel)
  unfold staleRsp
  rw [hgen]

/-- One of a former generation ends nothing. -/
theorem timeout_stale (hstale : staleRsp s e = true) : Completes (.lrspTimeout wl tag) s (fun t =>
    ∃ x ∈ (t.wl wl).wlTags, x.tag = tag ∧ x.quarantined = true) := by
  refine ⟨_, exec_lrspTimeout hsome hq ht hon, ?_⟩
  dsimp only
  rw [if_pos (by rw [staleRsp_timedOut]; exact hstale), wl_of_wls (freezeSettle_wls _)]
  exact timedOut_wlTags hsome

/-- A host read that its local design does not answer is completed UR. -/
theorem timeout_hostRead {f rd part : Nat} {q : InRd} (hsrc : e.src = .hostRead f rd part) (hstale : staleRsp s e = false)
    (hrd : inRd s rd = some q) (hopen : q.failed = 0) (hup : s.dlUp q.req.fn.hl = true) :
    Completes (.lrspTimeout wl tag) s (fun t => (∃ x ∈ (t.wl wl).wlTags, x.tag = tag ∧ x.quarantined = true) ∧
      Out.cpl q.req.fn q.req.hostTag 1 (q.req.len - q.sent) [] ∈ t.out) := by
  have htrace := moves_trace (kind := 2) (id := wl) (code := 0x0203) (arg := tag % 4096) (.refl foot_trace (s.modWl wl (fun w => { w with
    wlTags := w.wlTags.map (fun x => if x = e then { e with quarantined := true } else x) }))) (within_self _)
  have hrd' : inRd (timedOut wl tag e s) rd = some q := by
    rw [inRd, show (timedOut wl tag e s).inRds = s.inRds from htrace.part .inRds (by decide +kernel)]
    exact hrd
  have hup' : (timedOut wl tag e s).dlUp q.req.fn.hl = true := by
    unfold State.dlUp State.on
    rw [show (timedOut wl tag e s).rd .HL_DL_UP q.req.fn.hl = s.rd .HL_DL_UP q.req.fn.hl from
      htrace.reg .HL_DL_UP q.req.fn.hl 0 (by decide +kernel)]
    exact hup
  have hmem := timedOut_wlTags hsome
  refine ⟨_, exec_lrspTimeout hsome hq ht hon, ?_⟩
  dsimp only
  rw [if_neg (by rw [staleRsp_timedOut, hstale]; decide), hsrc]
  generalize timedOut wl tag e s = u at hrd' hup' hmem ⊢
  have hfails : bridgeFails wl (.hostRead f rd part) e.pkt.addr 6 u =
      sendCpl (fnIdx q.req.fn) q.req.hostTag 1 (q.req.len - q.sent) [] { u with inRds := u.inRds.erase q } := by
    simp [bridgeFails, failInRd, hrd', hopen, when]
  rw [hfails]
  have hsettle := moves_freezeSettle (.refl foot_freezeSettle (sendCpl (fnIdx q.req.fn) q.req.hostTag 1 (q.req.len - q.sent) []
    { u with inRds := u.inRds.erase q })) (within_self _)
  refine ⟨?_, hsettle.sent.subset (completed rfl hup')⟩
  rw [wl_of_wls (freezeSettle_wls _), wl_of_wls (t := sendCpl ..) ((moves_sendCpl (.refl _ _) (within_self _)).part .wls (by decide +kernel))]
  exact hmem

end

/-! ### A message whose vector is masked -/

/-- The message of a window to a PF, as it waits in the queue. -/
def windowIntr (s : State) (n : Nat) (p : Pkt) (i : Nat) : HReq :=
  hreq s (pfIdx (s.rd .NW_PF_HL i)) .write 0 0 [] (.intr (if p.tag = freshTag then n + 96 else n) p.lane
    (s.rd .NW_VEC_BASE i + (p.num - s.rd .NW_MSG_BASE i)) i) 256

theorem interruptMsg_pf {n i : Nat} {p : Pkt} {s : State} (hfind : findInt s n p.num = some i) (hpf : s.rd .NW_TO_PF i = 1)
    (hon : s.tlOn (hlTiller (s.rd .NW_PF_HL i)) = true) (hq : s.hostQ = []) :
    interruptMsg n p s = settleIntr 1024 { s with hostQ := [windowIntr s n p i] } := by
  have hto : s.on .NW_TO_PF i = true := by simp [State.on, hpf]
  have hhl : fnHl (pfIdx (s.rd .NW_PF_HL i)) = s.rd .NW_PF_HL i := fnHl_pfIdx _
  have hsubmit : submitLocal (windowIntr s n p i) s = { s with hostQ := [windowIntr s n p i] } := by
    unfold submitLocal
    dsimp only
    rw [if_neg (by simp [windowIntr, hreq])]
    simp [enqueueHost, hq, windowIntr, hreq]
  unfold interruptMsg
  rw [hfind]
  dsimp only
  rw [hto, if_pos rfl, if_pos rfl, if_neg (by simp [tnDead]), hhl, if_neg (by simp [hon])]
  exact congrArg (settleIntr 1024) hsubmit

/-- The only message of the queue is raised. -/
theorem settleIntr_one {k wl l v w : Nat} {r : HReq} {s : State} (hq : s.hostQ = [r]) (hsrc : r.src = .intr wl l v w)
    (hf : r.frozen = false) : settleIntr (k + 1) s = settleIntr k (intrRaises r wl l v (releaseWindow r { s with hostQ := [] })) := by
  rw [settleIntr]
  simp [hq, hsrc, hf]

/-- A masked vector's message sets its PBA bit. -/
theorem raiseVec_masked {f v : Nat} {s : State} (hv : v < s.rd .FI_VEC_COUNT f) (hen : (s.cf f).msixEn = true)
    (hb : s.boundTn f = none) (hh : s.rd .FI_HOLDOFF f v = 0) (hm : (s.vec f v).masked = true) :
    raiseVec f v s = pendVec f v s := by
  simp [raiseVec, raiseVecWith, Nat.not_le.2 hv, hen, fnResetting, hb, State.on, hh, hm]

theorem settleIntr_empty (k : Nat) {s : State} (hq : s.hostQ = []) : settleIntr k s = s := by
  cases k with
  | zero => rfl
  | succ k =>
    rw [settleIntr]
    simp [hq]

/-- What it sets the PBA bit of is all that it moves. -/
theorem pendVec_pba (f v : Nat) (s : State) : ((pendVec f v s).vec f v).pba = true ∧ (pendVec f v s).hostQ = s.hostQ := by
  refine ⟨?_, (moves_pendVec (.refl _ s) (within_self _)).part .hostQ (by decide +kernel)⟩
  unfold pendVec
  rw [modVec_vec_same]

/-- What decides that a vector's message is held back. -/
structure Masked (s : State) (f v : Nat) : Prop where
  there : v < s.rd .FI_VEC_COUNT f
  enabled : (s.cf f).msixEn = true
  unbound : s.boundTn f = none
  idle : s.rd .FI_HOLDOFF f v = 0
  masked : (s.vec f v).masked = true

theorem Masked.queue {s : State} {f v : Nat} (h : Masked s f v) (q : List HReq) : Masked { s with hostQ := q } f v :=
  ⟨h.there, h.enabled, h.unbound, h.idle, h.masked⟩

/-- Steps that move neither these registers nor the functions and vectors keep it so. -/
theorem Masked.keep {m : Nat} {s t : State} {f v : Nat} (h : Masked s f v) (hmv : Moves m s t)
    (hf : ∀ x ∈ [Fld.FI_VEC_COUNT, .DVSEC_TNID, .FI_HOLDOFF], m.testBit (fbit x) = false)
    (hp : ∀ x ∈ [Part.cfg, .vecs], m.testBit x.ctorIdx = false) : Masked t f v := by
  have hrd : ∀ x ∈ [Fld.FI_VEC_COUNT, .DVSEC_TNID, .FI_HOLDOFF], ∀ i j, t.rd x i j = s.rd x i j := fun x hx i j =>
    hmv.reg x i j (hf x hx)
  have hcfg : t.cfg = s.cfg := hmv.part .cfg (hp .cfg (by decide))
  have hvecs : t.vecs = s.vecs := hmv.part .vecs (hp .vecs (by decide))
  obtain ⟨hv, hen, hb, hh, hm⟩ := h
  refine ⟨?_, ?_, ?_, ?_, ?_⟩
  · rw [hrd .FI_VEC_COUNT (by decide)]
    exact hv
  · rw [State.cf, hcfg]
    exact hen
  · rw [State.boundTn, hrd .DVSEC_TNID (by decide)]
    exact hb
  · rw [hrd .FI_HOLDOFF (by decide)]
    exact hh
  · rw [State.vec, hvecs]
    exact hm

/-- The message of a masked vector sets the PBA bit and leaves the queue empty. -/
theorem intr_pends {k wl l v w f : Nat} {r : HReq} {s : State} (hq : s.hostQ = [r]) (hsrc : r.src = .intr wl l v w)
    (hf : r.frozen = false) (hfn : fnIdx r.fn = f) (hm : Masked s f v) :
    ((settleIntr (k + 1) s).vec f v).pba = true ∧ (settleIntr (k + 1) s).hostQ = [] := by
  have hrelease := moves_releaseWindow (r' := r) (.refl foot_releaseWindow { s with hostQ := [] }) (within_self _)
  have hm' : Masked (releaseWindow r { s with hostQ := [] }) f v :=
    (hm.queue []).keep hrelease (by decide +kernel) (by decide +kernel)
  have hq' : (releaseWindow r { s with hostQ := [] }).hostQ = [] := hrelease.part .hostQ (by decide +kernel)
  rw [settleIntr_one hq hsrc hf]
  generalize releaseWindow r { s with hostQ := [] } = u at hm' hq' ⊢
  obtain ⟨hv, hen, hb, hh, hmask⟩ := hm'
  obtain ⟨hpba, hleft⟩ := pendVec_pba f v u
  have hraise : intrRaises r wl l v u = { pendVec f v u with hostQ := [] } := by
    unfold intrRaises
    dsimp only
    rw [hfn, raiseVec_masked hv hen hb hh hmask, hleft, hq']
    rfl
  rw [hraise, settleIntr_empty k rfl]
  exact ⟨hpba, rfl⟩

theorem fnIdx_fnOf_pfIdx {h : Nat} (hh : h < 32) : fnIdx (fnOf (pfIdx h)) = pfIdx h := by
  simp only [fnIdx, fnOf, pfIdx]
  omega

/-- A message whose window maps it to a masked vector of a PF. -/
theorem message_pends {n i v : Nat} {p : Pkt} {s : State} (hp : p.len = 0)
    (hsub : p.sub = 1 ∨ p.sub = 2 ∧ (s.wl n).peerLink = true) (hfind : findInt s n p.num = some i) (hpf : s.rd .NW_TO_PF i = 1)
    (hhl : s.rd .NW_PF_HL i < 32) (hon : s.tlOn (hlTiller (s.rd .NW_PF_HL i)) = true) (hq : s.hostQ = [])
    (hv : s.rd .NW_VEC_BASE i + (p.num - s.rd .NW_MSG_BASE i) = v) (hm : Masked s (pfIdx (s.rd .NW_PF_HL i)) v) :
    ((localMsg n p s).vec (pfIdx (s.rd .NW_PF_HL i)) v).pba = true ∧ (localMsg n p s).hostQ = [] := by
  unfold localMsg
  rw [if_neg (by simp [hp]), if_pos (by simpa using hsub), interruptMsg_pf hfind hpf hon hq]
  subst hv
  exact intr_pends rfl rfl rfl (fnIdx_fnOf_pfIdx hhl) (hm.queue _)

/-- Taking the packet changes nothing of that. -/
theorem taken_pends {n i v : Nat} {p : Pkt} {s : State} (hp : p.len = 0)
    (hsub : p.sub = 1 ∨ p.sub = 2 ∧ (s.wl n).peerLink = true) (hfind : findInt s n p.num = some i) (hpf : s.rd .NW_TO_PF i = 1)
    (hhl : s.rd .NW_PF_HL i < 32) (hon : s.tlOn (hlTiller (s.rd .NW_PF_HL i)) = true) (hq : s.hostQ = [])
    (hv : s.rd .NW_VEC_BASE i + (p.num - s.rd .NW_MSG_BASE i) = v) (hm : Masked s (pfIdx (s.rd .NW_PF_HL i)) v) :
    ((localMsg n p (takePacket n p s)).vec (pfIdx (s.rd .NW_PF_HL i)) v).pba = true ∧
      (localMsg n p (takePacket n p s)).hostQ = [] := by
  have hmv := moves_takePacket (n := n) (p := p) (.refl foot_takePacket s) (within_self _)
  have hpeer : ((takePacket n p s).wl n).peerLink = (s.wl n).peerLink := by
    have hcore := congrArg WlS.peerLink (wlCore_takePacket n p s n)
    exact hcore
  have hrd : ∀ f, Nat.testBit foot_takePacket (fbit f) = false → (takePacket n p s).rd f i = s.rd f i := fun f hf => hmv.reg f i 0 hf
  have hhl' := hrd .NW_PF_HL (by decide +kernel)
  have hlive : (takePacket n p s).tlOn (hlTiller (s.rd .NW_PF_HL i)) = s.tlOn (hlTiller (s.rd .NW_PF_HL i)) := by
    unfold State.tlOn State.domOn
    rw [hmv.reg .PW_STATE 0 _ (by decide +kernel)]
  have h := message_pends (s := takePacket n p s) (n := n) (i := i) (v := v) (p := p) hp (by rw [hpeer]; exact hsub)
    ((findInt_takePacket ..).trans hfind) ((hrd .NW_TO_PF (by decide +kernel)).trans hpf) (by rw [hhl']; exact hhl)
    (by rw [hhl', hlive]; exact hon) ((hmv.part .hostQ (by decide +kernel)).trans hq)
    (by rw [hrd .NW_VEC_BASE (by decide +kernel), hrd .NW_MSG_BASE (by decide +kernel)]; exact hv)
    (by rw [hhl']; exact hm.keep hmv (by decide +kernel) (by decide +kernel))
  rw [hhl'] at h
  exact h

/-- Settles O44: each packet goes to what acts on its kind, which leaves the TAGs of the link but for the one it ends. -/
theorem localMessagesAndAnswers : Obligations.LocalMessagesAndAnswers := by
  unfold Obligations.LocalMessagesAndAnswers
  refine ⟨fun wl p s h ht hs hl hm => message_missed h ht hs hl hm,
    fun wl p i s h ht hl hf hpf hhl hon hq hv hen hb hh hm => ⟨fun hs => ?_, fun hs hpeer => ?_⟩,
    fun wl p s h ht hs hl => ident_held h ht hs hl, fun wl p s h ht hn => answer_unexpected h ht hn,
    fun wl p e s h ht hsome => ⟨fun hq => answer_late h ht hsome hq, fun f rd part hsrc hq ha hone hlast =>
      answer_ends h ht hsome hsrc hq ha hone hlast⟩,
    fun wl tag e s hsome hq ht hon => ⟨fun hstale => timeout_stale hsome hq ht hon hstale,
      fun f rd part q hsrc hstale hrd hopen hup => timeout_hostRead hsome hq ht hon hsrc hstale hrd hopen hup⟩,
    fun wl tag s hnone => timeout_none hnone⟩
  · exact ⟨_, congrArg Host.Outcome.next (localPacket_taken h (by simp [ht]) _),
      taken_pends hl (.inl hs) hf hpf hhl hon hq rfl ⟨hv, hen, hb, hh, hm⟩⟩
  · exact ⟨_, congrArg Host.Outcome.next ((when_of _ s (by simp [ht, hs])).trans (localPacket_taken h (by simp [ht]) _)),
      taken_pends hl (.inr ⟨hs, hpeer⟩) hf hpf hhl hon hq rfl ⟨hv, hen, hb, hh, hm⟩⟩

end Sys2Proof.Proofs
end

section
/-!
Host requests to inbound windows (R105 to R107, R204).
-/
namespace Sys2Proof.Proofs
open Sys2Proof Sys2Proof.Machine Sys2Proof.Laws
set_option Elab.async false

/-! ### The count of a request changes nothing that decides it -/

/-- Only the counters of what a host link received differ. -/
structure SameLook (s t : State) : Prop where
  rd : ∀ f, f ∉ [Fld.CT_HL_RX_TLP, .CT_HL_RX_PAYLOAD] → ∀ i j, t.rd f i j = s.rd f i j
  cfg : t.cfg = s.cfg
  store : t.store = s.store

theorem sameLook_rxTlp (h n : Nat) (s : State) : SameLook s (rxTlp h n s) := by
  refine ⟨fun f hf i j => ?_, rfl, rfl⟩
  rw [List.mem_cons, List.mem_singleton, not_or] at hf
  exact (rd_wr_ne _ fun e => hf.2 e.1).trans (rd_wr_ne s fun e => hf.1 e.1)

section
variable {s t : State} (h : SameLook s t)
include h

theorem SameLook.dlUp (k : Nat) : t.dlUp k = s.dlUp k := by
  simp (disch := decide) only [State.dlUp, State.on, h.rd]

theorem SameLook.tlOn (k : Nat) : t.tlOn k = s.tlOn k := by
  simp (disch := decide) only [State.tlOn, State.domOn, h.rd]

theorem SameLook.domOn (k : Nat) : t.domOn k = s.domOn k := by
  simp (disch := decide) only [State.domOn, h.rd]

theorem SameLook.cf (f : Nat) : t.cf f = s.cf f := by rw [State.cf, h.cfg, State.cf]

theorem SameLook.boundTn (f : Nat) : t.boundTn f = s.boundTn f := by
  simp (disch := decide) only [State.boundTn, h.rd]

theorem SameLook.tnDead (n : Nat) : tnDead t n = tnDead s n := by
  simp (disch := decide) only [Machine.tnDead, State.tnState, h.rd]

theorem SameLook.findIn (f x : Nat) : findIn t f x = findIn s f x := by
  simp (disch := decide) only [Machine.findIn, iwOff, iwSize, h.rd]
  rfl

theorem SameLook.permits (tn n : Nat) : permits t tn n = permits s tn n := by
  unfold Machine.permits State.bit
  split_ifs <;> rw [h.rd _ (by decide)]

theorem SameLook.linkUsable (n : Nat) : linkUsable t n = linkUsable s n := by
  simp (disch := decide) only [Machine.linkUsable, State.tlOn, State.domOn, State.on, h.rd]

theorem SameLook.linkHeld (n : Nat) : linkHeld t n = linkHeld s n := by
  simp (disch := decide) only [Machine.linkHeld, State.on, h.rd]

theorem SameLook.linkDark (n : Nat) : linkDark t n = linkDark s n := by
  simp (disch := decide) only [Machine.linkDark, State.tlOn, State.domOn, h.rd]

theorem SameLook.inTranslate (m : HostMem) (i : Nat) : inTranslate m i t = inTranslate m i s := by
  simp (disch := decide) only [Machine.inTranslate, h.boundTn, iwBase, iwOff, h.rd]

/-- A function takes requests to BAR2. -/
theorem SameLook.takes {m : HostMem} (hm : TakesBar2 m s) : (recovery t || !fnEnabled t (fnIdx m.fn) || !(t.cf (fnIdx m.fn)).mse ||
    (t.cf (fnIdx m.fn)).d3 || (t.cf (pfIdx (fnHl (fnIdx m.fn)))).d3 || t.react) = false ∧
    ¬ bar2Bytes t (fnIdx m.fn) < m.offset + m.len ∧
    (fnVf (fnIdx m.fn) = 0 ∨ ∃ n, s.boundTn (fnIdx m.fn) = some n ∧ Machine.tnDead t n = false) := by
  obtain ⟨-, -, hrec, hen, hmse, hd3, hpd3, hreact, hbound, -, hbar⟩ := hm
  have hrec' : recovery t = recovery s := by simp (disch := decide) only [recovery, State.on, h.rd]
  have hen' : fnEnabled t (fnIdx m.fn) = fnEnabled s (fnIdx m.fn) := by
    simp (disch := decide) only [fnEnabled, State.present, State.on, h.cf, h.rd]
  have hreact' : t.react = s.react := by simp (disch := decide) only [State.react, State.on, h.rd]
  have hbar' : bar2Bytes t (fnIdx m.fn) = bar2Bytes s (fnIdx m.fn) := by
    simp only [bar2Bytes, h.cf, h.store]
  refine ⟨?_, ?_, ?_⟩
  · simp [hrec', hen', h.cf, hreact', fnHl_fnIdx, hrec, hen, hmse, hd3, hpd3, hreact]
  · rw [hbar']
    exact Nat.not_lt.2 hbar
  · exact hbound.imp (fun hvf => (fnVf_fnIdx _).trans hvf) fun ⟨n, hn, hdead⟩ => ⟨n, hn, (h.tnDead n).trans hdead⟩

end

/-! ### What becomes of a request -/

/-- The entry and the tenant's permissions allow the request. -/
def entryAdmits (s : State) (m : HostMem) (i : Nat) : Bool :=
  decide (m.offset + m.len ≤ iwOff s i + iwSize s i) && !m.atomic && s.on (if m.write then .IW_WR else .IW_RD) i &&
    (s.boundTn (fnIdx m.fn)).all (fun n => permits s n (s.rd .IW_LINK i))

/-- The request as it is counted. -/
def arrived (m : HostMem) (s : State) : State := rxTlp m.fn.hl m.data.length s

section
variable {m : HostMem} {s : State} (hm : TakesBar2 m s)
include hm

theorem exec_inboundRequest : exec (.inboundRequest m) s = .next (inbound m s) := by
  obtain ⟨hup, hon, -, -, -, -, -, -, -, hfull, -⟩ := hm
  exact congrArg Host.Outcome.next (when_of _ s (by simp [hup, hon, hfull]))

theorem inbound_miss (hfind : findIn s (fnIdx m.fn) m.offset = none) : inbound m s =
    inboundUr m (ward (hlTiller m.fn.hl) 10 (mFn (fnIdx m.fn)) (if m.write then 5 else 4) m.offset
      ((arrived m s).inc .CT_HL_IN_MISS m.fn.hl)) := by
  have hlook := sameLook_rxTlp m.fn.hl m.data.length s
  obtain ⟨htakes, hbar, hlive⟩ := hlook.takes hm
  unfold inbound
  simp only [fnHl_fnIdx] at htakes ⊢
  rw [if_neg (by simpa using htakes), if_neg hbar, if_neg (by rcases hlive with hvf | ⟨n, hn, hdead⟩ <;> simp [*]), hlook.findIn, hfind]
  rfl

theorem inbound_found {i : Nat} (hfind : findIn s (fnIdx m.fn) m.offset = some i) : inbound m s =
    if entryAdmits s m i then inboundPass (inTranslate m i s) (arrived m s)
    else inboundUr m (when (linkDark s (s.rd .IW_LINK i)) (unavailable (fnIdx m.fn) m.offset m.write)
      ((arrived m s).inc .CT_HL_IN_MISS m.fn.hl)) := by
  have hlook := sameLook_rxTlp m.fn.hl m.data.length s
  obtain ⟨htakes, hbar, hlive⟩ := hlook.takes hm
  unfold inbound
  simp only [fnHl_fnIdx] at htakes ⊢
  rw [if_neg (by simpa using htakes), if_neg hbar, if_neg (by rcases hlive with hvf | ⟨n, hn, hdead⟩ <;> simp [*]), hlook.findIn, hfind]
  have hadmits : entryAdmits (rxTlp m.fn.hl m.data.length s) m i = entryAdmits s m i := by
    have hperm : ∀ n, permits (rxTlp m.fn.hl m.data.length s) n (s.rd .IW_LINK i) = permits s n (s.rd .IW_LINK i) :=
      fun n => hlook.permits n _
    unfold entryAdmits State.on
    rw [hlook.boundTn, hlook.rd .IW_LINK (by decide), hlook.rd _ (by split <;> decide)]
    simp (disch := decide) only [iwOff, iwSize, hlook.rd, hperm]
    rfl
  rw [← hadmits, ← hlook.inTranslate, ← hlook.linkDark, ← hlook.rd .IW_LINK (by decide)]
  unfold entryAdmits
  rw [hlook.boundTn]
  cases s.boundTn (fnIdx m.fn) <;> rfl

end

/-! ### Requests that are refused -/

theorem arrived_rd (m : HostMem) (s : State) {f : Fld} (hf : f ∉ [Fld.CT_HL_RX_TLP, .CT_HL_RX_PAYLOAD]) (i j : Nat) :
    (arrived m s).rd f i j = s.rd f i j := (sameLook_rxTlp m.fn.hl m.data.length s).rd f hf i j

/-- A refusal counts nothing more, and completes a read UR. -/
theorem inboundUr_refuses {m : HostMem} {n : Nat} {u : State} (hcount : u.rd .CT_HL_IN_MISS m.fn.hl = n) (hup : u.dlUp m.fn.hl = true) :
    (inboundUr m u).rd .CT_HL_IN_MISS m.fn.hl = n ∧ (m.write = false → Out.cpl m.fn m.hostTag 1 m.len [] ∈ (inboundUr m u).out) := by
  refine ⟨((moves_inboundUr (.refl _ u) (within_self _)).reg .CT_HL_IN_MISS _ 0 (by decide +kernel)).trans hcount, fun hr => ?_⟩
  unfold inboundUr
  rw [if_neg (by simp [hr])]
  exact completed rfl hup

/-- What the count of a refused request shows. -/
theorem miss_counted (m : HostMem) (s : State) : ((arrived m s).inc .CT_HL_IN_MISS m.fn.hl).rd .CT_HL_IN_MISS m.fn.hl =
    (s.rd .CT_HL_IN_MISS m.fn.hl + 1) % 2 ^ 64 :=
  (rd_wr _ .CT_HL_IN_MISS _ m.fn.hl 0).trans (congrArg (fun n => (n + 1) % 2 ^ 64) (arrived_rd m s (by decide) m.fn.hl 0))

theorem miss_up {m : HostMem} {s : State} (hup : s.dlUp m.fn.hl = true) :
    ((arrived m s).inc .CT_HL_IN_MISS m.fn.hl).dlUp m.fn.hl = true := by
  unfold State.dlUp State.on
  rw [State.inc, State.add, rd_wr_ne _ (by rintro ⟨⟨⟩, -⟩), arrived_rd m s (by decide)]
  exact hup

/-- A report to the Ward leaves the count and the data link. -/
theorem ward_refuses (g l h a x : Nat) (k : Master) (s : State) :
    (ward g l k a x s).rd .CT_HL_IN_MISS h = s.rd .CT_HL_IN_MISS h ∧ (ward g l k a x s).dlUp h = s.dlUp h := by
  have hmv := moves_ward (g := g) (l := l) (m' := k) (access := a) (addr := x) (.refl foot_ward s) (within_self _)
  refine ⟨hmv.reg .CT_HL_IN_MISS h 0 (by decide +kernel), ?_⟩
  unfold State.dlUp State.on
  rw [hmv.reg .HL_DL_UP h 0 (by decide +kernel)]

theorem request_missed {m : HostMem} {s : State} (hm : TakesBar2 m s) (hfind : findIn s (fnIdx m.fn) m.offset = none) :
    Completes (.inboundRequest m) s (fun t => t.rd .CT_HL_IN_MISS m.fn.hl = (s.rd .CT_HL_IN_MISS m.fn.hl + 1) % 2 ^ 64 ∧
      (m.write = false → Out.cpl m.fn m.hostTag 1 m.len [] ∈ t.out)) := by
  refine ⟨_, exec_inboundRequest hm, ?_⟩
  obtain ⟨hcount, hup⟩ := ward_refuses (hlTiller m.fn.hl) 10 m.fn.hl (if m.write then 5 else 4) m.offset (mFn (fnIdx m.fn))
    ((arrived m s).inc .CT_HL_IN_MISS m.fn.hl)
  have hlink : s.dlUp m.fn.hl = true := by
    obtain ⟨hup, -⟩ := hm
    exact hup
  rw [inbound_miss hm hfind]
  exact inboundUr_refuses (hcount.trans (miss_counted m s)) (hup.trans (miss_up hlink))

/-- A request that its entry or the tenant's permissions forbid. -/
theorem entry_forbids {m : HostMem} {i : Nat} {s : State} (h : iwOff s i + iwSize s i < m.offset + m.len ∨ m.atomic = true ∨
    (m.write = true ∧ s.rd .IW_WR i = 0) ∨ (m.write = false ∧ s.rd .IW_RD i = 0) ∨
    ∃ tn, s.boundTn (fnIdx m.fn) = some tn ∧ permits s tn (s.rd .IW_LINK i) = false) : entryAdmits s m i = false := by
  unfold entryAdmits
  obtain hover | hatom | ⟨hw, hoff⟩ | ⟨hw, hoff⟩ | ⟨tn, htn, hperm⟩ := h
  · simp [Nat.not_le.2 hover]
  · simp [hatom]
  · simp [hw, State.on, hoff]
  · simp [hw, State.on, hoff]
  · simp [htn, hperm]

theorem request_forbidden {m : HostMem} {i : Nat} {s : State} (hm : TakesBar2 m s) (hfind : findIn s (fnIdx m.fn) m.offset = some i)
    (hforbid : entryAdmits s m i = false) :
    Completes (.inboundRequest m) s (fun t => (linkDark s (s.rd .IW_LINK i) = false → t.wls = s.wls ∧ t.inRds = s.inRds) ∧
      t.rd .CT_HL_IN_MISS m.fn.hl = (s.rd .CT_HL_IN_MISS m.fn.hl + 1) % 2 ^ 64 ∧
      (m.write = false → Out.cpl m.fn m.hostTag 1 m.len [] ∈ t.out)) := by
  refine ⟨_, exec_inboundRequest hm, ?_⟩
  dsimp only
  rw [inbound_found hm hfind, if_neg (by simp [hforbid])]
  obtain ⟨hlink, -⟩ := hm
  refine ⟨fun hdark => ?_, ?_⟩
  · have hmv := moves_inboundUr (m' := m) (.refl foot_inboundUr ((arrived m s).inc .CT_HL_IN_MISS m.fn.hl)) (within_self _)
    rw [hdark]
    exact ⟨hmv.part .wls (by decide +kernel), hmv.part .inRds (by decide +kernel)⟩
  · refine when_cases (P := fun u => (inboundUr m u).rd .CT_HL_IN_MISS m.fn.hl = (s.rd .CT_HL_IN_MISS m.fn.hl + 1) % 2 ^ 64 ∧
      (m.write = false → Out.cpl m.fn m.hostTag 1 m.len [] ∈ (inboundUr m u).out)) ?_ ?_
    · exact inboundUr_refuses (miss_counted m s) (miss_up hlink)
    · obtain ⟨hcount, hup⟩ := ward_refuses (hlTiller (fnHl (fnIdx m.fn))) 25 m.fn.hl (if m.write then 5 else 4) m.offset
        (mFn (fnIdx m.fn)) ((arrived m s).inc .CT_HL_IN_MISS m.fn.hl)
      exact inboundUr_refuses (hcount.trans (miss_counted m s)) (hup.trans (miss_up hlink))

/-! ### Requests that are passed -/

/-- What lies within one multiple of 512 is one part. -/
theorem cutIn_one {a n : Nat} (hpos : 0 < n) (hfit : a % 512 + n ≤ 512) : cutIn (n / 512 + 2) 0 a n = [(0, a, n)] := by
  have hall : min n (512 - a % 512) = n := by omega
  rw [cutIn, if_neg (Nat.pos_iff_ne_zero.1 hpos), hall]
  dsimp only
  rw [Nat.sub_self]
  cases n / 512 <;> rfl

/-- Packets that go to a link one behind the other. -/
theorem enqueued {α : Type} (n : Nat) (g : α → WPkt) (l : List α) (s : State) :
    ((each l (fun c s => enqueueLink n (g c) s) s).wl n).linkQ = (s.wl n).linkQ ++ l.map g ∧
      (each l (fun c s => enqueueLink n (g c) s) s).inRds = s.inRds := by
  induction l generalizing s with
  | nil => exact ⟨(List.append_nil _).symm, rfl⟩
  | cons a l ih =>
    obtain ⟨hq, hr⟩ := ih (enqueueLink n (g a) s)
    refine ⟨hq.trans ?_, hr⟩
    rw [enqueueLink, wl_modWl_self, List.map_cons, List.append_assoc]
    rfl

/-- The MWR packet of a part of a host write. -/
def writePacket (m : HostMem) (x : InReq) (c : Nat × Nat × Nat) : WPkt :=
  ⟨{ pktZero with typ := 1, lane := x.lane, len := c.2.2, addr := c.2.1, payload := sub m.data c.1 c.2.2 },
    .hostWrite (fnIdx m.fn) x.win, x.tn, x.gen, 0⟩

/-- The MRD packet of a part of a host read. -/
def readPacket (m : HostMem) (x : InReq) (id : Nat) (c : Nat × Nat × Nat) : WPkt :=
  ⟨{ pktZero with typ := 2, lane := x.lane, len := c.2.2, addr := c.2.1 }, .hostRead (fnIdx m.fn) id c.1, x.tn, x.gen, 0⟩

/-- The parts of a host read. -/
def readParts (m : HostMem) (x : InReq) : List (Nat × Nat × Nat) :=
  if m.len = 0 then [(0, x.addr, 0)] else cutIn (m.len / 512 + 2) 0 x.addr m.len

/-- A host read whose parts are under way. -/
def newRd (m : HostMem) (x : InReq) (id : Nat) : InRd := ⟨id, m, (readParts m x).length, [], 0, 0, false, x.win, x.tn⟩

def newRead (m : HostMem) (x : InReq) (s : State) : State :=
  { s with pktCount := s.pktCount + 1, inRds := s.inRds ++ [newRd m x (s.pktCount + 1)] }

section
variable {m : HostMem} {i : Nat} {u : State} {x : InReq} (hx : x.req = m) (husable : linkUsable u x.link = true)
include hx husable

theorem inboundPass_held (hheld : linkHeld u x.link = true) :
    inboundPass x u = u.modHl m.fn.hl (fun l => { l with inWait := l.inWait ++ [x] }) := by
  subst hx
  unfold inboundPass
  simp [husable, hheld, fnHl_fnIdx]

theorem inboundPass_write (hheld : linkHeld u x.link = false) (hw : m.write = true) : inboundPass x u =
    each (cutIn (m.len / 512 + 2) 0 x.addr m.len) (fun c s => enqueueLink x.link (writePacket m x c) s)
      (hubCross (hlTiller m.fn.hl) (wlTiller x.link) m.data.length u) := by
  subst hx
  unfold inboundPass
  dsimp only
  rw [if_neg (by simp [husable]), if_neg (by simp [hheld]), if_pos hw, fnHl_fnIdx]
  rfl

theorem inboundPass_read (hheld : linkHeld u x.link = false) (hw : m.write = false) : inboundPass x u =
    each (readParts m x) (fun c s => enqueueLink x.link (readPacket m x (u.pktCount + 1) c) s)
      (newRead m x (hubCross (hlTiller m.fn.hl) (wlTiller x.link) m.data.length u)) := by
  subst hx
  unfold inboundPass
  dsimp only
  rw [if_neg (by simp [husable]), if_neg (by simp [hheld]), if_neg (by simp [hw]), fnHl_fnIdx]
  have hcount : (hubCross (hlTiller x.req.fn.hl) (wlTiller x.link) x.req.data.length u).pktCount = u.pktCount :=
    (moves_hubCross (.refl _ u) (within_self _)).part .pktCount (by decide +kernel)
  rw [← hcount]
  rfl

end

section
variable {m : HostMem} {i : Nat} {s : State} (hm : TakesBar2 m s) (hfind : findIn s (fnIdx m.fn) m.offset = some i)
  (hadmits : entryAdmits s m i = true) (husable : linkUsable s (s.rd .IW_LINK i) = true)
include hm hfind hadmits

theorem exec_admitted : exec (.inboundRequest m) s = .next (inboundPass (inTranslate m i s) (arrived m s)) :=
  (exec_inboundRequest hm).trans (congrArg Host.Outcome.next ((inbound_found hm hfind).trans (if_pos hadmits)))

include husable

/-- While the link is held the request waits (R204). -/
theorem request_waits (hheld : linkHeld s (s.rd .IW_LINK i) = true) : Completes (.inboundRequest m) s (fun t =>
    (t.hl m.fn.hl.val).inWait = (s.hl m.fn.hl.val).inWait ++ [inTranslate m i s] ∧ t.wls = s.wls ∧ t.inRds = s.inRds) := by
  have hlook := sameLook_rxTlp m.fn.hl m.data.length s
  refine ⟨_, (exec_admitted hm hfind hadmits).trans (congrArg Host.Outcome.next
    (inboundPass_held (m := m) (u := arrived m s) (x := inTranslate m i s) rfl ((hlook.linkUsable _).trans husable)
      ((hlook.linkHeld _).trans hheld))), ?_, rfl, rfl⟩
  rw [modHl_hl, if_pos rfl, arrived, hl_rxTlp]

section
variable (hopen : linkHeld s (s.rd .IW_LINK i) = false)
include hopen

/-- A write goes out as MWR packets. -/
theorem write_passed (hw : m.write = true) : Completes (.inboundRequest m) s (fun t => ∃ ps : List WPkt,
    (t.wl (s.rd .IW_LINK i)).linkQ = (s.wl (s.rd .IW_LINK i)).linkQ ++ ps ∧
    (∀ p ∈ ps, p.pkt.typ = 1 ∧ p.pkt.lane = s.rd .IW_LANE i ∧ p.src = .hostWrite (fnIdx m.fn) i) ∧
    ps.map (fun p => (p.pkt.addr, p.pkt.len, p.pkt.payload)) =
      (cutIn (m.len / 512 + 2) 0 (iwBase s i + (m.offset - iwOff s i)) m.len).map (fun c => (c.2.1, c.2.2, sub m.data c.1 c.2.2))) := by
  have hlook := sameLook_rxTlp m.fn.hl m.data.length s
  refine ⟨_, (exec_admitted hm hfind hadmits).trans (congrArg Host.Outcome.next
    (inboundPass_write (m := m) (u := arrived m s) (x := inTranslate m i s) rfl ((hlook.linkUsable _).trans husable)
      ((hlook.linkHeld _).trans hopen) hw)),
    (cutIn (m.len / 512 + 2) 0 (inTranslate m i s).addr m.len).map (writePacket m (inTranslate m i s)),
    (enqueued _ _ _ _).1.trans ?_, ?_, ?_⟩
  · rw [wl_of_wls (s := arrived m s) ((moves_hubCross (.refl _ _) (within_self _)).part .wls (by decide +kernel))]
    rfl
  · rw [List.forall_mem_map]
    exact fun c _ => ⟨rfl, rfl, rfl⟩
  · rw [List.map_map]
    rfl

/-- A read goes out as MRD packets, and is noted with its parts. -/
theorem read_passed (hw : m.write = false) : Completes (.inboundRequest m) s (fun t => ∃ ps : List WPkt,
    (t.wl (s.rd .IW_LINK i)).linkQ = (s.wl (s.rd .IW_LINK i)).linkQ ++ ps ∧
    (∀ p ∈ ps, p.pkt.typ = 2 ∧ p.pkt.lane = s.rd .IW_LANE i ∧ ∃ k, p.src = .hostRead (fnIdx m.fn) (s.pktCount + 1) k) ∧
    (0 < m.len → (iwBase s i + (m.offset - iwOff s i)) % 512 + m.len ≤ 512 →
      ps.map (fun p => (p.pkt.addr, p.pkt.len)) = [(iwBase s i + (m.offset - iwOff s i), m.len)]) ∧
    ∃ q, t.inRds = s.inRds ++ [q] ∧ q.req = m ∧ q.parts = ps.length) := by
  have hlook := sameLook_rxTlp m.fn.hl m.data.length s
  have hcross := moves_hubCross (src := hlTiller m.fn.hl) (dst := wlTiller (s.rd .IW_LINK i)) (n := m.data.length)
    (.refl foot_hubCross (arrived m s)) (within_self _)
  refine ⟨_, (exec_admitted hm hfind hadmits).trans (congrArg Host.Outcome.next
    (inboundPass_read (m := m) (u := arrived m s) (x := inTranslate m i s) rfl ((hlook.linkUsable _).trans husable)
      ((hlook.linkHeld _).trans hopen) hw)),
    (readParts m (inTranslate m i s)).map (readPacket m (inTranslate m i s) ((arrived m s).pktCount + 1)),
    (enqueued _ _ _ _).1.trans ?_, ?_, ?_,
    newRd m (inTranslate m i s) ((hubCross (hlTiller m.fn.hl) (wlTiller (s.rd .IW_LINK i)) m.data.length (arrived m s)).pktCount + 1),
    (enqueued _ _ _ _).2.trans ?_, rfl, ?_⟩
  · exact congrArg (fun w => WlS.linkQ w ++ _) (wl_of_wls (s := arrived m s) (hcross.part .wls (by decide +kernel)) _)
  · rw [List.forall_mem_map]
    exact fun c _ => ⟨rfl, rfl, c.1, rfl⟩
  · intro hpos hfit
    have hparts : readParts m (inTranslate m i s) = [(0, iwBase s i + (m.offset - iwOff s i), m.len)] := by
      unfold readParts
      rw [if_neg (Nat.pos_iff_ne_zero.1 hpos)]
      exact cutIn_one hpos hfit
    rw [hparts]
    rfl
  · exact congrArg (· ++ _) (hcross.part .inRds (by decide +kernel))
  · exact (List.length_map _).symm

end

end

/-- An entry whose range, kind and permissions allow a request. -/
theorem entry_admits {m : HostMem} {i : Nat} {s : State} (hfit : m.offset + m.len ≤ iwOff s i + iwSize s i)
    (hatom : m.atomic = false) (hperm : ∀ tn, s.boundTn (fnIdx m.fn) = some tn → permits s tn (s.rd .IW_LINK i) = true)
    (hkind : (if m.write then s.rd .IW_WR i else s.rd .IW_RD i) ≠ 0) : entryAdmits s m i = true := by
  unfold entryAdmits
  have hon : s.on (if m.write then .IW_WR else .IW_RD) i = true := by
    cases hw : m.write <;> simpa [hw, State.on] using hkind
  have hall : (s.boundTn (fnIdx m.fn)).all (fun n => permits s n (s.rd .IW_LINK i)) = true := by
    cases hb : s.boundTn (fnIdx m.fn) with
    | none => rfl
    | some tn => exact hperm tn hb
  rw [hon, hall]
  simp [hfit, hatom]

/-- Settles O39: the count of a request changes nothing that decides it, and its packets are the parts of its cut. -/
theorem inboundRequests : Obligations.InboundRequests := by
  unfold Obligations.InboundRequests
  refine ⟨fun m s hm hf => request_missed hm hf, fun m i s hm hf h => request_forbidden hm hf (entry_forbids h),
    fun m i s hm hf hfit hatom hperm hu => ⟨fun hheld hkind => ?_, fun hopen hw hkind => ?_, fun hopen hr hkind => ?_⟩⟩
  · exact request_waits hm hf (entry_admits hfit hatom hperm hkind) hu hheld
  · exact write_passed hm hf (entry_admits hfit hatom hperm (by simpa [hw] using hkind)) hu hopen hw
  · exact read_passed hm hf (entry_admits hfit hatom hperm (by simpa [hr] using hkind)) hu hopen hr

end Sys2Proof.Proofs
end

section
/-!
What the cutting of requests leaves: the configuration of functions but for their status bits, manager authority and the
Keeper's own state (R61, R97, R347, R426).
-/
namespace Sys2Proof.Proofs
open Sys2Proof Sys2Proof.Machine Sys2Proof.Laws
set_option Elab.async false

/-- A function's configuration without the status bits that events set. -/
def cfCore (c : FnCfg) : FnCfg := { c with pmeStatus := false, corStatus := 0, uncStatus := 0, firstErr := 0, hdrLog := 0 }

/-- Bring-up, manager authority and the running image are the same, and so is a Keeper that does not drain. -/
structure Seat (r s : State) : Prop where
  boot : s.keeper.bootStage = r.keeper.bootStage
  mgrHl : s.keeper.mgrHl = r.keeper.mgrHl
  mgrSmp : s.keeper.mgrSmp = r.keeper.mgrSmp
  running : s.upd.running = r.upd.running
  kstate : r.rd .KP_KSTATE ≠ 3 → s.rd .KP_KSTATE = r.rd .KP_KSTATE

/-- So are the configuration of every function and a link that is not in L1. -/
structure Steady (r s : State) : Prop where
  core : ∀ f, cfCore (s.cf f) = cfCore (r.cf f)
  link : ∀ h, r.rd .HL_LTSSM h ≠ 5 → s.rd .HL_LTSSM h = r.rd .HL_LTSSM h
  seat : Seat r s

theorem Seat.refl (s : State) : Seat s s := ⟨rfl, rfl, rfl, rfl, fun _ => rfl⟩

theorem Steady.refl (s : State) : Steady s s := ⟨fun _ => rfl, fun _ _ => rfl, .refl s⟩

theorem Seat.trans {r s t : State} (h : Seat r s) (h' : Seat s t) : Seat r t := by
  refine ⟨h'.boot.trans h.boot, h'.mgrHl.trans h.mgrHl, h'.mgrSmp.trans h.mgrSmp, h'.running.trans h.running, fun hr => ?_⟩
  have hs := h.kstate hr
  exact (h'.kstate (hs ▸ hr)).trans hs

theorem Steady.trans {r s t : State} (h : Steady r s) (h' : Steady s t) : Steady r t := by
  refine ⟨fun f => (h'.core f).trans (h.core f), fun k hr => ?_, h.seat.trans h'.seat⟩
  have hs := h.link k hr
  exact (h'.link k (hs ▸ hr)).trans hs

/-- A step moves neither the Keeper's state, the update nor KSTATE. -/
def seatCalm (m : Nat) : Bool :=
  !m.testBit Part.keeper.ctorIdx && !m.testBit Part.upd.ctorIdx && !m.testBit (fbit .KP_KSTATE)

/-- Nor the configuration of a function, nor a link's state. -/
def calm (m : Nat) : Bool := seatCalm m && !m.testBit Part.cfg.ctorIdx && !m.testBit (fbit .HL_LTSSM)

theorem Seat.keep {m : Nat} {r s t : State} (h : Seat r s) (ht : Moves m s t) (hm : seatCalm m = true := by decide +kernel) :
    Seat r t := by
  simp only [seatCalm, Bool.and_eq_true, Bool.not_eq_true'] at hm
  obtain ⟨⟨hkeeper, hupd⟩, hk⟩ := hm
  have hk' : t.keeper = s.keeper := ht.part .keeper hkeeper
  have hu' : t.upd = s.upd := ht.part .upd hupd
  exact h.trans ⟨by rw [hk'], by rw [hk'], by rw [hk'], by rw [hu'], fun _ => ht.reg .KP_KSTATE 0 0 hk⟩

theorem Steady.keep {m : Nat} {r s t : State} (h : Steady r s) (ht : Moves m s t) (hm : calm m = true := by decide +kernel) :
    Steady r t := by
  simp only [calm, Bool.and_eq_true, Bool.not_eq_true'] at hm
  obtain ⟨⟨hseat, hcfg⟩, hlink⟩ := hm
  have hc : t.cfg = s.cfg := ht.part .cfg hcfg
  refine h.trans ⟨fun f => ?_, fun k _ => ht.reg .HL_LTSSM k 0 hlink, (Seat.refl s).keep ht hseat⟩
  rw [State.cf, hc, State.cf]

section
variable {r s : State} (h : Steady r s)
include h

theorem Steady.when {c : Bool} {f : State → State} (hf : ∀ z, Steady r z → Steady r (f z)) : Steady r (when c f s) :=
  when_cases h (hf s h)

theorem Steady.each {α : Type} {l : List α} {f : α → State → State} (hf : ∀ a z, Steady r z → Steady r (f a z)) :
    Steady r (each l f s) := each_induct l h hf

/-- A write of another register. -/
theorem Steady.wr {f : Fld} {v i j : Nat} (hf : f ≠ .KP_KSTATE := by decide) (hl : f ≠ .HL_LTSSM := by decide) :
    Steady r (s.wr f v i j) :=
  h.trans ⟨fun _ => rfl, fun _ _ => rd_wr_ne s fun e => hl e.1.symm, rfl, rfl, rfl, rfl, fun _ => rd_wr_ne s fun e => hf e.1.symm⟩

/-- A change of another part of the state. -/
theorem Steady.other {t : State} (hregs : t.regs = s.regs := by rfl) (hcfg : t.cfg = s.cfg := by rfl)
    (hk : t.keeper = s.keeper := by rfl) (hu : t.upd = s.upd := by rfl) : Steady r t := by
  have hrd (f : Fld) (i : Nat) : t.rd f i = s.rd f i := by rw [State.rd, hregs, State.rd]
  refine h.trans ⟨fun f => ?_, fun k _ => hrd _ k, by rw [hk], by rw [hk], by rw [hk], by rw [hu], fun _ => hrd _ 0⟩
  rw [State.cf, hcfg, State.cf]

theorem Steady.draw {k : Nat → State → State} (hk : ∀ v z, Steady r z → Steady r (k v z)) : Steady r (draw s k) :=
  hk _ _ (h.other (t := { s with free := s.free + 1 }))

/-- Status bits of a function. -/
theorem Steady.modCf {f : Nat} {g : FnCfg → FnCfg} (hg : ∀ c, cfCore (g c) = cfCore c) : Steady r (s.modCf f g) := by
  refine h.trans ⟨fun f' => ?_, fun _ _ => rfl, rfl, rfl, rfl, rfl, fun _ => rfl⟩
  rw [modCf_cf]
  split
  next he => rw [hg, he]
  next => rfl

/-- Other state of the Keeper. -/
theorem Steady.modKeeper {g : KeeperS → KeeperS} (hb : (g s.keeper).bootStage = s.keeper.bootStage := by rfl)
    (hh : (g s.keeper).mgrHl = s.keeper.mgrHl := by rfl) (hm : (g s.keeper).mgrSmp = s.keeper.mgrSmp := by rfl) :
    Steady r (s.modKeeper g) := h.trans ⟨fun _ => rfl, fun _ _ => rfl, hb, hh, hm, rfl, fun _ => rfl⟩

theorem Steady.modUpd {g : UpdS → UpdS} (hg : (g s.upd).running = s.upd.running := by rfl) : Steady r (s.modUpd g) :=
  h.trans ⟨fun _ => rfl, fun _ _ => rfl, rfl, rfl, rfl, hg, fun _ => rfl⟩

/-! ### Messages and interrupts -/

/-- A link that a message takes out of L1 was in it. -/
theorem Steady.leaveL1 {k : Nat} : Steady r (leaveL1 k s) := by
  unfold Machine.leaveL1
  cases hl : s.rd .HL_LTSSM k == 5 with
  | false => exact h
  | true =>
    have hleft : Steady r (s.wr .HL_LTSSM 3 k) := h.trans ⟨fun _ => rfl, fun k' hk => rd_wr_ne s fun e => hk (e.2.1 ▸ beq_iff_eq.1 hl),
      rfl, rfl, rfl, rfl, fun _ => rd_wr_ne s (by rintro ⟨⟨⟩, -⟩)⟩
    refine Steady.keep ?_ (moves_showClkreq (.refl _ _) (within_self _))
    refine Steady.other (s := (((s.wr .HL_LTSSM 3 k).wr .HL_L1SUB 0 k).wr .HL_CUR_SPEED (s.hl k).speed k).inc .HL_RECOV_CNT k) ?_
    exact hleft.wr.wr.wr

theorem Steady.sendMsg {f : Nat} {x : HMsg} : Steady r (sendMsg f x s) := by
  refine h.when fun z hz => Steady.keep (Steady.when hz.leaveL1 fun y hy => ?_) (moves_putMsg (.refl _ _) (within_self _))
  exact hy.keep (moves_sendLtr (.refl _ _) (within_self _))

theorem Steady.pendVec {f v : Nat} : Steady r (pendVec f v s) := h.keep (moves_pendVec (.refl _ _) (within_self _))

theorem Steady.sendVec {f v : Nat} : Steady r (sendVec f v s) := h.keep (moves_sendVec (.refl _ _) (within_self _))

theorem Steady.raiseVecWith {k : State → State} (hk : ∀ z, Steady r z → Steady r (k z)) {f v : Nat} :
    Steady r (raiseVecWith k f v s) := by
  unfold Machine.raiseVecWith
  split
  · exact h
  split
  · exact h.wr
  split
  · exact h.other
  split
  · exact (h.when (c := s.on .FI_WAITING f v) fun z hz => hz.wr).wr
  split
  · exact h.pendVec
  split
  · exact h.sendVec
  · exact h.pendVec.when hk

theorem Steady.raiseCauseWith {k : State → State} (hk : ∀ z, Steady r z → Steady r (k z)) {f : Nat} {c : Cause} :
    Steady r (raiseCauseWith k f c s) := by
  have hfld : c.fld ≠ .KP_KSTATE ∧ c.fld ≠ .HL_LTSSM := by cases c <;> decide
  unfold Machine.raiseCauseWith
  dsimp only
  split
  · exact (h.wr hfld.1 hfld.2).when fun z hz => hz.raiseVecWith hk
  split
  · exact h.when fun z hz => hz.other
  · exact h

theorem Steady.pmeSignal {p : Nat} : Steady r (pmeSignal p s) := by
  unfold Machine.pmeSignal
  dsimp only
  split
  · have hset : Steady r (s.modCf p (fun c => { c with pmeStatus := true })) := h.modCf fun _ => by rfl
    split
    · refine Steady.raiseCauseWith ?_ fun z hz => hz
      exact (hset.wr (f := .HL_PME_WAKE)).other
    · exact hset.sendMsg
  · exact h

theorem Steady.raiseVec {f v : Nat} : Steady r (raiseVec f v s) := h.raiseVecWith fun _ hz => hz.pmeSignal

theorem Steady.raiseCause {f : Nat} {c : Cause} : Steady r (raiseCause f c s) := h.raiseCauseWith fun _ hz => hz.pmeSignal

theorem Steady.raiseAllPfs {c : Cause} : Steady r (raiseAllPfs c s) := h.each fun _ _ hz => hz.raiseCause

theorem Steady.releaseWindow {x : HReq} : Steady r (releaseWindow x s) := h.keep (moves_releaseWindow (.refl _ _) (within_self _))

theorem Steady.intrRaises {x : HReq} {wl lane v : Nat} : Steady r (intrRaises x wl lane v s) :=
  (h.raiseVec (f := fnIdx x.fn) (v := v)).other

theorem Steady.settleIntr {k : Nat} : Steady r (settleIntr k s) := by
  induction k generalizing s with
  | zero => exact h
  | succ k ih =>
    rw [Machine.settleIntr]
    split
    · split
      · refine ih (Steady.intrRaises (Steady.releaseWindow ?_))
        exact h.other
      · exact h
    · exact h

theorem Steady.trace {kind id code arg : Nat} : Steady r (trace kind id code arg s) := h.keep (moves_trace (.refl _ _) (within_self _))

theorem Steady.traceNone {code arg : Nat} : Steady r (traceNone code arg s) := h.keep (moves_traceNone (.refl _ _) (within_self _))

/-! ### Reports to the Ward -/

theorem Steady.haltCore {c code : Nat} {b : BadReq} : Steady r (haltCore c code b s) := by
  unfold Machine.haltCore
  extract_lets st hard tn s1 s2 s3 s4 s5 s6
  split
  · have h1 : Steady r s1 := h.wr.wr.wr.wr.wr.wr.wr
    have h3 : Steady r s3 := (h1.other (t := s2)).wr
    have h4 : Steady r s4 := h3.when fun z hz => hz.keep (moves_dropChanWaiting (.refl _ _) (within_self _))
    exact (h4.wr (f := .CH_DRAINING)).trace.when fun z hz => hz.raiseVec
  · split
    · refine Steady.wr (Steady.keep ?_ (moves_dropChanWaiting (.refl _ _) (within_self _)))
      exact (h.wr (f := .CH_CODE)).other
    · exact h

theorem Steady.haltTenant {tn code : Nat} : Steady r (haltTenant tn code s) := h.each fun _ _ hz => hz.haltCore

theorem Steady.forceReaction {inj : Bool} : Steady r (forceReaction inj s) := by
  unfold Machine.forceReaction
  split
  · exact h
  · extract_lets s1 s2 s3 s4 s5 s6
    have h1 : Steady r s1 := h.wr.wr.wr.wr.wr
    have h2 : Steady r s2 := h1.keep (moves_blockWrites (.refl _ _) (within_self _))
    have h3 : Steady r s3 := h2.each fun n z hz => (hz.wr.wr).when fun y hy => hy.keep (moves_sendHalt (.refl _ _) (within_self _))
    have h4 : Steady r s4 := h3.keep (moves_driveFaultN (.refl _ _) (within_self _))
    have h5 : Steady r s5 := h4.each fun c z hz => hz.haltCore
    have h6 : Steady r s6 := h5.keep (moves_pauseStream (.refl _ _) (within_self _))
    exact h6.keep (moves_jPut (.refl _ _) (within_self _))

theorem Steady.aerCorr {f : Nat} : Steady r (aerCorr f s) := by
  unfold Machine.aerCorr
  dsimp only
  refine (h.modCf fun c => ?_).when fun _ hz => hz.sendMsg
  rfl

theorem Steady.aerUncSet {n f : Nat} : Steady r (aerUncSet n f s) := by
  unfold Machine.aerUncSet
  extract_lets c s1
  have h1 : Steady r s1 := h.modCf fun _ => by rfl
  split
  · exact h1
  · refine h1.draw fun v z hz => hz.modCf fun c => ?_
    rfl

theorem Steady.aerUnc {fatal : Bool} {f : Nat} : Steady r (aerUnc fatal f s) := by
  unfold Machine.aerUnc
  dsimp only
  split
  · exact h.aerUncSet
  split
  · exact h.aerUncSet.when fun _ hz => hz.sendMsg
  · exact h.aerUncSet.when fun _ hz => hz.sendMsg

theorem Steady.aerReport {cls : Nat} {k : Master} : Steady r (aerReport cls k s) := by
  refine h.each fun f z hz => ?_
  split
  · exact hz.aerCorr
  · exact hz.aerUnc

theorem Steady.wardFuel {n : Nat} {inj : Bool} {e : WEv} : Steady r (wardFuel n inj e s) := by
  induction n generalizing s inj e with
  | zero => exact h
  | succ n ih =>
    unfold Machine.wardFuel
    extract_lets s0 stamp era cls fresh latches s1 s2 s3 s4 s5 rec_ lost s6
    have h0 : Steady r s0 := h.keep (moves_advance (.refl _ _) (within_self _))
    have h1 : Steady r s1 := h0.when fun z hz => hz.wr.wr
    have h2 : Steady r s2 := h1.when fun z hz =>
      (hz.keep (moves_noteLatch (.refl _ _) (within_self _))).keep (moves_latchLine (.refl _ _) (within_self _))
    have h3 : Steady r s3 := h2.when fun z hz => by
      split
      · exact hz.when fun y hy => hy.keep (moves_driveFaultN (.refl _ _) (within_self _))
      · exact hz.forceReaction
    have h4 : Steady r s4 := h3.when fun z hz => hz.aerReport
    have h6 : Steady r s6 := h4.raiseAllPfs.when fun z hz => hz.keep (moves_jPut (.refl _ _) (within_self _))
    exact h6.when fun z hz => ih hz

theorem Steady.wardEvent {inj : Bool} {e : WEv} : Steady r (wardEvent inj e s) := by
  unfold Machine.wardEvent
  split
  · have hdrawn : Steady r { s with free := s.free + 1 } := h.other
    unfold choose
    dsimp only
    split
    · split
      · exact hdrawn.keep (moves_injUnder (.refl _ _) (within_self _))
      · exact hdrawn.keep (moves_realOver (.refl _ _) (within_self _))
    · exact hdrawn.wardFuel
  · exact h.wardFuel

theorem Steady.ward {g l : Nat} {k : Master} {access addr : Nat} : Steady r (ward g l k access addr s) := h.wardEvent

theorem Steady.wardDetail {g l : Nat} {k : Master} {access detail addr : Nat} : Steady r (wardDetail g l k access detail addr s) :=
  h.wardEvent

/-! ### A channel's faults -/

theorem Steady.haltChannel {c code : Nat} {b : BadReq} : Steady r (haltChannel c code b s) :=
  h.haltCore.when fun _ hz => hz.wardDetail

theorem Steady.haltAt {c : Nat} {id : Option Nat} {code : Nat} {b : BadReq} : Steady r (haltAt c id code b s) := by
  unfold Machine.haltAt
  extract_lets ds gone s1 s2 s3 s4
  have h1 : Steady r s1 := h.keep (moves_dropDescWaiting (.refl _ _) (within_self _))
  have h3 : Steady r s3 := h1.other
  exact (h3.when fun z hz => hz.wr).haltChannel

theorem Steady.chFault {c : Nat} {id : Option Nat} {code : Nat} {b : BadReq} : Steady r (chFault c id code b s) := by
  unfold Machine.chFault
  split
  · exact h.keep (moves_discardFault (.refl _ _) (within_self _))
  · exact h.haltAt

theorem Steady.withLink {c id : Nat} {b : BadReq} {k : State → State} (hk : ∀ z, Steady r z → Steady r (k z)) :
    Steady r (withLink c id b k s) := by
  unfold Machine.withLink
  split
  · exact hk s h
  · exact h.chFault

theorem Steady.modDesc {c id : Nat} {g : Desc → Desc} : Steady r (modDesc c id g s) := h.other

theorem Steady.enqueueHost {x : HReq} : Steady r (enqueueHost x s) := h.other

theorem Steady.chPkt {c sp : Nat} {p : Pkt} {src : WSrc} {n : Nat} {t : State} : Steady r (chPkt t c sp p src n s) :=
  h.keep (moves_chPkt (.refl _ _) (within_self _))

theorem Steady.issueRead {c : Nat} {d : Desc} : Steady r (issueRead c d s) := by
  unfold Machine.issueRead
  dsimp only
  split
  · exact h.withLink fun z hz => hz.modDesc.chPkt
  · exact h.modDesc.enqueueHost

theorem Steady.startFetch {c addr : Nat} : Steady r (startFetch c addr s) := by
  unfold Machine.startFetch
  split
  · exact h.keep (moves_fetchLater (.refl _ _) (within_self _))
  · have h1 := (h.wr (f := .CH_STATE) (v := 2) (i := c) (j := 0)).other (t := (s.wr .CH_STATE 2 c).modCh c (fun x => { x with
      fetching := true, curAddr := addr, noWriteBack := false, fetchFailed := 0, goOn := 0, raFailed := 0 }))
    dsimp only
    split
    · exact h1.enqueueHost
    · exact h1.chFault

theorem Steady.startReread {c addr : Nat} : Steady r (startReread c addr s) := by
  unfold Machine.startReread
  split
  · exact h.keep (moves_fetchLater (.refl _ _) (within_self _))
  · have h1 := (h.wr (f := .CH_STATE) (v := 2) (i := c) (j := 0)).other (t := (s.wr .CH_STATE 2 c).modCh c (fun x => { x with
      fetching := true, curAddr := addr, noWriteBack := false, fetchFailed := 0, goOn := 0 }))
    dsimp only
    split
    · exact h1.enqueueHost
    · exact h1.chFault

end

end Sys2Proof.Proofs
end

section
/-!
Discarding requests and cutting a tenant off leave the configuration of functions and the Keeper's own state.
-/
namespace Sys2Proof.Proofs
open Sys2Proof Sys2Proof.Machine Sys2Proof.Laws
set_option Elab.async false

section
variable {r s : State} (h : Steady r s)
include h

/-! ### A channel's descriptors -/

theorem Steady.writeOn {c id : Nat} : Steady r (writeOn c id s) := by
  unfold Machine.writeOn
  split
  · exact h
  · dsimp only
    split
    · exact h
    split
    · refine h.withLink fun z hz => Steady.each (Steady.when hz.modDesc fun y hy => hy.wr) fun p y hy => hy.chPkt
    · exact (h.modDesc.when fun z hz => hz.wr).enqueueHost

theorem Steady.dropAhead {c : Nat} : Steady r (dropAhead c s) := h.other

theorem Steady.becomeCurrent {c : Nat} {d : Desc} : Steady r (becomeCurrent c d s) := by
  unfold Machine.becomeCurrent
  extract_lets s1 s2
  have h1 : Steady r s1 := h.wr.wr.wr
  have h2 : Steady r s2 := h1.other
  split
  · split
    · exact h.dropAhead.startFetch
    · exact h.keep (moves_enterWait (.refl _ _) (within_self _))
  · split
    · refine Steady.writeOn ?_
      exact h2.other
    · exact h2.chFault

theorem Steady.takeAhead {c : Nat} {e : Desc} : Steady r (takeAhead c e s) :=
  (h.keep (moves_filterHostQ (.refl _ _) (within_self _))).becomeCurrent

theorem Steady.nextDesc {c : Nat} : Steady r (nextDesc c s) := by
  unfold Machine.nextDesc
  dsimp only
  split
  · exact h
  split
  · split
    · refine Steady.takeAhead ?_
      exact h.other
    · exact h.dropAhead.startFetch
  · split
    · exact h
    · exact h.dropAhead.startFetch

theorem Steady.pumpOnce {c : Nat} : Steady r (pumpOnce c s) := by
  unfold Machine.pumpOnce
  dsimp only
  split
  · exact h
  split
  · split
    · exact h
    · exact h.issueRead
  · split
    · exact h
    · exact h.when fun z hz => hz.nextDesc

theorem Steady.chainEnd {c : Nat} {d : Desc} : Steady r (chainEnd c d s) := by
  unfold Machine.chainEnd
  dsimp only
  split
  · have h1 : Steady r (s.modCh c (fun x => { x with resumeNext := true, resume := d.addr })) := h.other
    split
    · exact h1.startReread
    · exact h1.wr
  · exact h

theorem Steady.marks {c : Nat} {half full : Bool} : Steady r (marks c half full s) :=
  ((h.when fun _ hz => hz.wr).when fun _ hz => hz.wr).each fun _ _ hz => hz.raiseVec

theorem Steady.completeDesc {c era stamp : Nat} {d : Desc} : Steady r (completeDesc c era stamp d s) := by
  unfold Machine.completeDesc
  extract_lets t seq st s1 s2 s3 b s4 s5 s6 sp
  have h3 : Steady r s3 := (h.enqueueHost (x := _)).wr.wr.wr.wr
  have h5 : Steady r s5 := (h3.trace (s := s3)).other
  exact h5.marks.when fun z hz => hz.chPkt

theorem Steady.completeFrom {c era stamp k : Nat} : Steady r (completeFrom c era stamp k s) := by
  induction k generalizing s with
  | zero => exact h
  | succ k ih =>
    unfold Machine.completeFrom
    split
    · split
      · exact ih h.completeDesc.chainEnd
      · exact h
    · exact h

theorem Steady.completeAll {c : Nat} : Steady r (completeAll c s) :=
  h.when fun _ hz => (hz.keep (moves_advance (.refl _ _) (within_self _))).completeFrom

theorem Steady.pump {c : Nat} : Steady r (pump c s) :=
  (h.each fun _ _ hz => hz.completeAll.pumpOnce.keep (moves_maybeFlush (.refl _ _) (within_self _))).keep
    (moves_runAheadAll (.refl _ _) (within_self _))

/-! ### A request that fails -/

theorem Steady.chError {c : Nat} {id : Option Nat} {kind code : Nat} {b : BadReq} : Steady r (chError c id kind code b s) := by
  unfold Machine.chError
  dsimp only
  split
  · split
    · exact h
    split
    · exact (h.modDesc.keep (moves_dropDescWaiting (.refl _ _) (within_self _))).when fun z hz =>
        hz.keep (moves_discardFault (.refl _ _) (within_self _))
    · exact h.chFault
  · split
    · exact h.other
    · exact h.chFault

theorem Steady.chFlushFailed {c code addr : Nat} : Steady r (chFlushFailed c code addr s) := by
  unfold Machine.chFlushFailed
  extract_lets first s1
  have h1 : Steady r s1 := h.other
  clear_value first
  cases first with
  | none => exact h1
  | some d => exact h1.chError.pump

theorem Steady.runAheadFailed {c token : Nat} : Steady r (runAheadFailed c token s) := by
  unfold Machine.runAheadFailed
  extract_lets s1 last
  have h1 : Steady r s1 := h.wr
  split
  · refine Steady.pump ?_
    exact h1.other
  · exact h1.keep (moves_serveSlots (.refl _ _) (within_self _))

theorem Steady.aheadFailed {c id off : Nat} : Steady r (aheadFailed c id off s) := (h.wr (f := .TI_RQ_SPEC_CNT)).modDesc.pump

theorem Steady.showKeeper {i : Issuer} : Steady r (showKeeper i s) := h.keep (moves_showKeeper (.refl _ _) (within_self _))

theorem Steady.fetchFailed {f : Nat} {mine : Ctx → Bool} : Steady r (fetchFailed f mine s) := by
  unfold Machine.fetchFailed
  extract_lets live s1 s2 s3 s4
  have h2 : Steady r s2 := (h.when fun z hz => hz.wr).when fun z hz => hz.wr.wr
  have h3 : Steady r s3 := h2.modKeeper
  exact (h3.when fun z hz => hz.wr).showKeeper.ward

/-! ### Replies -/

theorem Steady.sendReply {q : CmdReq} {op status : Nat} {interim : Bool} {data : Bytes} {gen : Nat} :
    Steady r (sendReply q op status interim data gen s) := by
  unfold Machine.sendReply
  extract_lets s1
  have h1 : Steady r s1 := h.keep (moves_advance (.refl _ _) (within_self _))
  split
  · extract_lets f idx a hdr s2 s3
    have h3 : Steady r s3 := (h1.when fun z hz => hz.enqueueHost).enqueueHost
    split
    · exact h3.wr.raiseCause
    · exact h1
  · refine Steady.when ?_ fun z hz => hz.other
    exact h1.modKeeper (by split <;> rfl) (by split <;> rfl) (by split <;> rfl)

theorem Steady.freeCtx {q : CmdReq} {op : Nat} : Steady r (freeCtx q op s) := Steady.showKeeper h.modKeeper

theorem Steady.finishCore {q : CmdReq} {op status gen : Nat} {data : Bytes} : Steady r (finishCore q op status data gen s) := by
  unfold Machine.finishCore
  extract_lets s1 s2 s3 s4 s5 s6
  have h1 : Steady r s1 := h.wr
  have h4 : Steady r s4 := ((h1.when fun z hz => hz.wr).when fun z hz => hz.wr).traceNone
  have h5 : Steady r s5 := by
    unfold s5
    split
    · exact h4
    · exact h4.sendReply
  have h6 : Steady r s6 := h5.freeCtx
  split
  · exact h6.when fun z hz => hz.wr.when fun y hy => hy.wr
  · exact h6.modKeeper

theorem Steady.setUpdState {n : Nat} : Steady r (setUpdState n s) := h.when fun _ hz => Steady.traceNone hz.modUpd

theorem Steady.unschedule {e : Sched} : Steady r (unschedule e s) := by
  have h1 : Steady r (Machine.showKeeper e.req.iss (s.modKeeper (fun k => { k with sched := k.sched.erase e }))) :=
    Steady.showKeeper h.modKeeper
  unfold Machine.unschedule
  dsimp only
  split
  · exact h1.wr
  · exact h1.when fun z hz => hz.setUpdState
  · exact h1

theorem Steady.cancelAll : Steady r (cancelAll s) := by
  unfold Machine.cancelAll
  extract_lets ws s1 s2 s3
  have h1 : Steady r s1 := h.modKeeper
  have h3 : Steady r s3 := (h1.each fun w z hz => hz.finishCore).each fun c z hz => hz.finishCore
  exact h3.each fun e z hz => hz.unschedule.finishCore

theorem Steady.answerUnknowns {k : Nat} : Steady r (answerUnknowns k s) := by
  induction k generalizing s with
  | zero => exact h
  | succ k ih =>
    unfold Machine.answerUnknowns
    split
    · exact ih h.finishCore
    · exact h

/-- The Keeper restarts: only its state follows. -/
theorem Steady.restarting {kind : Nat} : ∃ u, enterRestart kind s = setKState 4 u ∧ Steady r u := by
  refine ⟨_, rfl, ?_⟩
  have h1 : Steady r ((Machine.cancelAll s).modUpd (fun u => { u with pieces := [] })) := h.cancelAll.modUpd
  exact (h1.wr (f := .KP_RESTART_CNT)).traceNone.keep (moves_journal (.refl _ _) (within_self _))

/-- A Keeper that drains may restart; one that does not drain goes on. -/
theorem Steady.drainEnds : Steady r (drainEnds s) := by
  unfold Machine.drainEnds
  cases hd : draining s && !holdsCmds s with
  | false => exact h
  | true =>
    obtain ⟨u, hu, hsteady⟩ := h.restarting (kind := 3)
    have hdrain : s.rd .KP_KSTATE = 3 := by
      simp only [draining, Bool.and_eq_true, beq_iff_eq] at hd
      tauto
    change Steady r (enterRestart 3 s)
    rw [hu]
    obtain ⟨hcore, hlink, hboot, hh, hm, hrun, -⟩ := hsteady
    exact ⟨hcore, fun k hk => (rd_wr_ne u (by rintro ⟨⟨⟩, -⟩)).trans (hlink k hk), hboot, hh, hm, hrun, fun hr => absurd ((h.seat.kstate hr).symm.trans hdrain) hr⟩

theorem Steady.finishGen {q : CmdReq} {op status gen : Nat} {data : Bytes} : Steady r (finishGen q op status data gen s) :=
  h.finishCore.answerUnknowns.drainEnds

theorem Steady.finishWaiting {op key status : Nat} {data : Bytes} : Steady r (finishWaiting op key status data s) :=
  Steady.each h.modKeeper fun _ _ hz => hz.finishGen

/-! ### Discarded requests -/

theorem Steady.setLog {n : Nat} {l : Option LogS} : Steady r (s.setLog n l) := h.other

theorem Steady.modLog {n : Nat} {g : LogS → LogS} : Steady r (s.modLog n g) := by
  unfold State.modLog
  split
  · exact h.setLog
  · exact h

theorem Steady.logEnd {tn : Nat} : Steady r (logEnd tn s) := by
  unfold Machine.logEnd
  split
  · exact h
  split
  · exact (h.setLog.wr (f := .TN_LOG_ON)).finishWaiting
  · exact h

theorem Steady.logSettle {tn : Nat} : Steady r (logSettle tn s) := (h.keep (moves_harvestAdvance (.refl _ _) (within_self _))).logEnd

theorem Steady.roundDirty {tn b : Nat} : Steady r (roundDirty tn b s) := h.modLog

theorem Steady.lineFailed {tn key : Nat} : Steady r (lineFailed tn key s) := by
  refine Steady.logSettle ?_
  exact (h.roundDirty (tn := tn) (b := key / 2 ^ 32)).other

theorem Steady.failLoc {n tag cause : Nat} : Steady r (failLoc n tag cause s) := h.keep (moves_failLoc (.refl _ _) (within_self _))

theorem Steady.failSrc {x : HReq} {cause : Nat} : Steady r (failSrc x cause s) := by
  unfold Machine.failSrc
  dsimp only
  split
  · exact h.failLoc
  · exact h.keep (moves_sheafFlushDone (.refl _ _) (within_self _))
  iterate 3
    · split
      · exact h
      · exact h.chError.pump
  · split
    · exact h
    · exact h.chFlushFailed
  · split
    · exact h
    · exact h.runAheadFailed
  · split
    · exact h
    · exact h.aheadFailed
  · exact h.fetchFailed
  · exact h.fetchFailed
  · exact h.lineFailed
  · exact h.modLog
  · exact h.when fun z hz => hz.other
  · exact h

theorem Steady.discardOne {x : HReq} {cause : Nat} : Steady r (discardOne cause x s) := by
  unfold Machine.discardOne
  split
  · exact (h.releaseWindow.when fun z hz => hz.wr).when fun z hz => hz.failLoc
  · exact Steady.failSrc (h.when fun z hz => hz.wr)
  · exact h.keep (moves_copyDropped (.refl _ _) (within_self _))
  · exact h.wr
  · exact h.releaseWindow.raiseVec
  · exact h.other
  · exact h.roundDirty.logSettle
  · exact h
  · exact h
  · exact h
  · exact h
  · exact h
  · exact h
  · exact h.failSrc

theorem Steady.discardWaiting {p : HReq → Bool} {cause : Nat} : Steady r (discardWaiting p cause s) := by
  refine Steady.settleIntr (Steady.each ?_ fun x z hz => hz.discardOne)
  exact h.other

theorem Steady.showExcused : Steady r (showExcused s) := h.keep (moves_showExcused (.refl _ _) (within_self _))

theorem Steady.cutTenant {tn code : Nat} {bump : Bool} : Steady r (cutTenant tn code bump s) := by
  unfold Machine.cutTenant
  extract_lets mine s1 s2 s3 hit s4 s5
  have h1 : Steady r s1 := h.haltTenant.keep (moves_dropHeldMsgs (.refl _ _) (within_self _))
  have h3 : Steady r s3 := by
    refine Steady.settleIntr ?_
    exact (Steady.discardWaiting h1).other (t := { s2 with hostQ := _ })
  have h4 : Steady r s4 := h3.when fun z hz => hz.keep (moves_bumpGeneration (.refl _ _) (within_self _))
  exact (h4.each fun t z hz => hz.failSrc).showExcused

theorem Steady.resetTn {n : Nat} : Steady r (resetTn n s) := by
  unfold Machine.resetTn
  dsimp only
  split
  · exact (Steady.keep (h.wr (f := .TN_STATE)) (moves_traceTnState (.refl _ _) (within_self _))).cutTenant.keep
      (moves_dirChanged (.refl _ _) (within_self _))
  split
  · exact h.cutTenant.keep (moves_dirChanged (.refl _ _) (within_self _))
  · exact h

theorem Steady.dropTags {p : HReq → Bool} {cause : Nat} : Steady r (dropTags p cause s) := by
  refine Steady.each ?_ fun t z hz => hz.failSrc
  exact h.other

theorem Steady.cutFns {p : Nat → Bool} {cause : Nat} : Steady r (cutFns p cause s) :=
  h.discardWaiting.dropTags.each fun _ _ hz => hz.keep (moves_quarantineTag (.refl _ _) (within_self _))

theorem Steady.pauseStream : Steady r (pauseStream s) := h.keep (moves_pauseStream (.refl _ _) (within_self _))

theorem Steady.stopFn {f cause : Nat} : Steady r (stopFn f cause s) := by
  unfold Machine.stopFn
  extract_lets mine s1
  have h1 : Steady r s1 := by
    unfold s1 withSome
    split
    · exact h.haltTenant
    · exact h
  exact h1.discardWaiting.dropTags.showExcused

theorem Steady.purgeFn {f cause : Nat} : Steady r (purgeFn f cause s) := h.discardWaiting

theorem Steady.releaseVec {f v : Nat} : Steady r (releaseVec f v s) := by
  refine h.when fun z hz => ?_
  split
  · refine Steady.sendVec ?_
    exact hz.other
  · exact hz.when fun y hy => hy.pmeSignal

theorem Steady.releaseVecs {f : Nat} : Steady r (releaseVecs f s) := h.each fun _ _ hz => hz.releaseVec

theorem Steady.orphanFetch {p : Nat → Bool} : Steady r (orphanFetch p s) := by
  unfold Machine.orphanFetch
  extract_lets half ends s1 s2 s3
  have h1 : Steady r s1 := h.modKeeper
  have h3 : Steady r s3 := h1.other
  exact h3.wr

end

end Sys2Proof.Proofs
end

section
/-!
Link resets and the start of the Keeper leave manager authority, bring-up and the running image where they were; the
resets of the die and bring-up (R38, R61, R399, R423, R426 to R428).
-/
namespace Sys2Proof.Proofs
open Sys2Proof Sys2Proof.Machine Sys2Proof.Laws
set_option Elab.async false

section
variable {r s : State} (h : Seat r s)
include h

theorem Seat.when {c : Bool} {f : State → State} (hf : ∀ z, Seat r z → Seat r (f z)) : Seat r (when c f s) := when_cases h (hf s h)

theorem Seat.each {α : Type} {l : List α} {f : α → State → State} (hf : ∀ a z, Seat r z → Seat r (f a z)) :
    Seat r (each l f s) := each_induct l h hf

theorem Seat.wr {f : Fld} {v i j : Nat} (hf : f ≠ .KP_KSTATE := by decide) : Seat r (s.wr f v i j) :=
  h.trans ⟨rfl, rfl, rfl, rfl, fun _ => rd_wr_ne s fun e => hf e.1.symm⟩

theorem Seat.other {t : State} (hregs : t.regs = s.regs := by rfl) (hk : t.keeper = s.keeper := by rfl)
    (hu : t.upd = s.upd := by rfl) : Seat r t := by
  refine h.trans ⟨by rw [hk], by rw [hk], by rw [hk], by rw [hu], fun _ => ?_⟩
  rw [State.rd, hregs, State.rd]

theorem Seat.modKeeper {g : KeeperS → KeeperS} (hb : (g s.keeper).bootStage = s.keeper.bootStage := by rfl)
    (hh : (g s.keeper).mgrHl = s.keeper.mgrHl := by rfl) (hm : (g s.keeper).mgrSmp = s.keeper.mgrSmp := by rfl) :
    Seat r (s.modKeeper g) := h.trans ⟨hb, hh, hm, rfl, fun _ => rfl⟩

/-- What keeps more keeps the seat. -/
theorem Seat.steady {t : State} (ht : Steady s t) : Seat r t := h.trans ht.seat

theorem Seat.unschedule {e : Sched} : Seat r (unschedule e s) := h.steady (Steady.refl s).unschedule

theorem Seat.resetRegs {p : RegKey → Bool} (hp : ∀ i j, p ⟨.KP_KSTATE, i, j⟩ = false) : Seat r (s.resetRegs p) :=
  h.trans ⟨rfl, rfl, rfl, rfl, fun _ => rd_resetRegs_keep s p (hp 0 0)⟩

theorem Seat.fnReset {hl : Nat} {flr : Bool} {p : Nat → Bool} : Seat r (fnReset hl flr p s) := by
  unfold Machine.fnReset
  extract_lets mine es s1 s2 s3 pf s4
  have h2 : Seat r s2 := (h.each fun e z hz => hz.unschedule).each fun f z hz => hz.modKeeper
  have h3 : Seat r s3 := h2.resetRegs fun i j => by rfl
  have h4 : Seat r s4 := h3.other
  split
  · refine Seat.keep ?_ (moves_pauseStream (.refl _ _) (within_self _))
    exact h4.other
  · exact h4

theorem Seat.showExcused : Seat r (showExcused s) := h.keep (moves_showExcused (.refl _ _) (within_self _))

theorem Seat.dropWait {hl : Nat} {p : Nat → Bool} : Seat r (dropWait hl p s) := h.keep (moves_dropWait (.refl _ _) (within_self _))

theorem Seat.cutFns {p : Nat → Bool} {cause : Nat} : Seat r (cutFns p cause s) := h.steady (Steady.refl s).cutFns

theorem Seat.resetTn {n : Nat} : Seat r (resetTn n s) := h.steady (Steady.refl s).resetTn

theorem Seat.orphanFetch {p : Nat → Bool} : Seat r (orphanFetch p s) := h.steady (Steady.refl s).orphanFetch

theorem Seat.convReset {hl cause : Nat} : Seat r (convReset hl cause s) := by
  unfold Machine.convReset
  extract_lets mine s1 s2 s3
  have h2 : Seat r s2 := h.orphanFetch.each fun n z hz => hz.resetTn
  exact (Seat.cutFns (Seat.dropWait (Seat.other h2 (t := s3)))).fnReset.showExcused

theorem Seat.flrVf {f : Nat} : Seat r (flrVf f s) := by
  unfold Machine.flrVf
  extract_lets s1 s2 s3
  have h2 : Seat r s2 := by
    unfold s2 withSome
    split
    · exact h.orphanFetch.resetTn
    · exact h.orphanFetch
  exact (Seat.cutFns (Seat.dropWait (Seat.other h2 (t := s3)))).fnReset.showExcused

theorem Seat.clearVfs {hl : Nat} : Seat r (clearVfs hl s) := by
  unfold Machine.clearVfs
  dsimp only
  split
  · exact (h.each fun k z hz => hz.flrVf).other
  · exact h

theorem Seat.linkDown {hl ltssm cause : Nat} : Seat r (linkDown hl ltssm cause s) := by
  unfold Machine.linkDown
  extract_lets was waits s1 s2
  have h1 : Seat r s1 := (h.wr (f := .HL_DROP_CNT)).keep (moves_endRun (.refl _ _) (within_self _))
  refine (Seat.convReset h1).when fun z hz => hz.steady ?_
  exact (Steady.raiseCause ((Steady.trace ((Steady.refl z).wr (f := .HL_DOWN_CNT))).wr (f := .HL_DL_DOWN))).ward

theorem Seat.retrainHl0 : Seat r (retrainHl0 s) := by
  unfold Machine.retrainHl0
  split
  · exact h.linkDown
  · exact h.linkDown.other

theorem Seat.recoveryPorts : Seat r (recoveryPorts s) := by
  unfold Machine.recoveryPorts
  extract_lets live s1 s2 gone s3 s4
  have h2 : Seat r s2 := (h.each fun k z hz => hz.linkDown).when fun z hz => hz.clearVfs.when fun y hy => hy.retrainHl0
  have h3 : Seat r s3 := h2.each fun p z hz => hz.keep (moves_applyPort (.refl _ _) (within_self _))
  have h4 : Seat r s4 := h3.each fun k z hz => hz.wr.keep (moves_showClkreq (.refl _ _) (within_self _))
  exact (h4.each fun p z hz => hz.keep (moves_showRefclk (.refl _ _) (within_self _))).keep (moves_showPools (.refl _ _) (within_self _))

end

/-! ### The Keeper starts (R97, R426) -/

/-- The Keeper before HL0 alone is left. -/
def recovering (s : State) : State :=
  setMode .TI_RECOVERY true 0 (setKState 1 ((s.modKeeper (fun k => { k with mgrHl := 0, mgrSmp := false })).wr .PW_RECOVERY 1))

theorem recovering_seat (s : State) : (recovering s).keeper.bootStage = s.keeper.bootStage ∧
    (recovering s).upd.running = s.upd.running ∧ (recovering s).rd .KP_KSTATE = 1 ∧ (recovering s).rd .TI_RECOVERY = 1 := by
  refine ⟨rfl, rfl, ?_, ?_⟩
  · unfold recovering setMode showBlocked setKState
    dsimp only
    rw [rd_wr_ne _ (by rintro ⟨⟨⟩, -⟩), rd_wr_ne _ (by rintro ⟨⟨⟩, -⟩), rd_wr_ne _ (by rintro ⟨⟨⟩, -⟩)]
    exact rd_wr _ .KP_KSTATE 1 0 0
  · unfold recovering setMode showBlocked
    dsimp only
    rw [rd_wr_ne _ (by rintro ⟨⟨⟩, -⟩), rd_wr_ne _ (by rintro ⟨⟨⟩, -⟩)]
    exact rd_wr _ .TI_RECOVERY 1 0 0

/-- The Keeper starts in ROM recovery mode. -/
theorem enterRecovery_seat (s : State) : (enterRecovery s).keeper.bootStage = s.keeper.bootStage ∧
    (enterRecovery s).upd.running = s.upd.running ∧ (enterRecovery s).rd .KP_KSTATE = 1 ∧ (enterRecovery s).rd .TI_RECOVERY = 1 := by
  obtain ⟨hboot, hrun, hk, hmode⟩ := recovering_seat s
  have hports := (Seat.refl (recovering s)).recoveryPorts
  have hkept := (moves_recoveryPorts (.refl _ (recovering s)) (within_self _)).reg .TI_RECOVERY 0 0 (by decide +kernel)
  refine ⟨hports.boot.trans hboot, hports.running.trans hrun, (hports.kstate ?_).trans hk, hkept.trans hmode⟩
  rw [hk]
  decide

/-- The Keeper starts: with an image it serves, without one in ROM recovery mode. -/
theorem keeperStarts_seat (s : State) : (keeperStarts s).keeper.bootStage = s.keeper.bootStage ∧
    (keeperStarts s).upd.running = s.upd.running ∧
    (if s.upd.running < 2 then (keeperStarts s).rd .KP_KSTATE = 2
      else (keeperStarts s).rd .KP_KSTATE = 1 ∧ (keeperStarts s).rd .TI_RECOVERY = 1) := by
  unfold keeperStarts
  split
  · exact ⟨rfl, rfl, rd_wr _ .KP_KSTATE 2 0 0⟩
  · exact enterRecovery_seat s

/-! ### Resets of the die (R38, R423, R428) -/

theorem dieReset_spec (s : State) : (∀ f i j, (dieReset s).rd f i j = f.reset i j) ∧ (dieReset s).store = s.store ∧
    (dieReset s).journal.recs = s.journal.recs ∧ FusesKept s.upd (dieReset s).upd := by
  have hpins := moves_releasePins (.refl foot_releasePins s) (within_self _)
  have hstore : (releasePins s).store = s.store := hpins.part .store (by decide +kernel)
  have hjournal : (releasePins s).journal = s.journal := hpins.part .journal (by decide +kernel)
  refine ⟨fun f i j => ?_, ?_, ?_, (moves_dieReset (.refl _ s) (within_self _)).fuses⟩ <;> unfold dieReset <;> dsimp only
  · rw [State.rd, show State.reset.regs = [] from rfl]
    rfl
  · exact hstore
  · change (releasePins s).journal.recs = s.journal.recs
    rw [hjournal]

/-- What POR and RESET_N do while the die is up. -/
theorem reset_die {s : State} (h : s.aonUp = true) (g : PinS → PinS) :
    (∀ f i j, ((Machine.when s.aonUp dieReset s).modPins g).rd f i j = f.reset i j) ∧
    ((Machine.when s.aonUp dieReset s).modPins g).store = s.store ∧
    ((Machine.when s.aonUp dieReset s).modPins g).journal.recs = s.journal.recs ∧
    FusesKept s.upd ((Machine.when s.aonUp dieReset s).modPins g).upd := by
  rw [when_of _ s h]
  exact dieReset_spec s

/-! ### The release of a reset (R423) -/

/-- The straps and the cause are captured. -/
theorem leaveReset_spec {cause : Nat} {s : State} (h : s.aonUp = true) (hc : cause < 4) :
    (leaveReset cause s).aonUp = true ∧ (leaveReset cause s).rd .PW_BOOT_CAUSE = cause ∧
    (leaveReset cause s).rd .DEV_DEVID = s.pins.straps.devid.val ∧ (leaveReset cause s).rd .DEV_MGR_SEL = s.pins.straps.mgrSel.val ∧
    (leaveReset cause s).rd .DEV_DSN_LO = s.upd.dsn % 2 ^ 32 ∧ (leaveReset cause s).keeper.bootStage = 2 ∧
    (leaveReset cause s).pins = s.pins := by
  have hdevid : s.pins.straps.devid.val % 2 ^ Fld.DEV_DEVID.width = s.pins.straps.devid.val :=
    Nat.mod_eq_of_lt s.pins.straps.devid.isLt
  have hsel : s.pins.straps.mgrSel.val % 2 ^ Fld.DEV_MGR_SEL.width = s.pins.straps.mgrSel.val :=
    Nat.mod_eq_of_lt s.pins.straps.mgrSel.isLt
  refine ⟨?_, leaveReset_bootCause h hc, ?_, ?_, ?_, ?_, ?_⟩ <;> rw [leaveReset, when_of _ s h]
  · exact h
  · simp [rd_wr_ite, hdevid]
  · simp [rd_wr_ite, hsel]
  · simp [rd_wr_ite, show Fld.DEV_DSN_LO.width = 32 from rfl]
  · rfl
  · rfl

/-- POR's release with the supplies in range. -/
def porReleased (x : PowerUp) (s : State) : State :=
  s.modPins (fun p => { p with porLow := false, straps := x.straps, vio33 := decide (2500 ≤ x.vioMv) })

theorem exec_porRelease {x : PowerUp} {s : State} (hpor : s.pins.porLow = true) (hvin : 5600 ≤ x.vinMv) (hvio : 1500 ≤ x.vioMv) :
    exec (.porRelease x) s = .next (leaveReset 1 (when (porReleased x s).aonUp (fun s => s.wr .PW_VIN_MV x.vinMv) (porReleased x s))) :=
  congrArg Host.Outcome.next (when_of _ s (by simp [hpor, hvin, hvio]))

theorem por_release {x : PowerUp} {s : State} (hpor : s.pins.porLow = true) (hres : s.pins.resetLow = false) (hvin : 5600 ≤ x.vinMv)
    (hvio : 1500 ≤ x.vioMv) : Completes (.porRelease x) s (fun t => t.aonUp = true ∧ t.rd .PW_BOOT_CAUSE = 1 ∧
      t.rd .DEV_DEVID = x.straps.devid.val ∧ t.rd .DEV_MGR_SEL = x.straps.mgrSel.val ∧
      t.rd .DEV_DSN_LO = s.upd.dsn % 2 ^ 32 ∧ t.keeper.bootStage = 2 ∧ t.pins.vio33 = decide (2500 ≤ x.vioMv)) := by
  have hup : (porReleased x s).aonUp = true := by simp [porReleased, State.aonUp, State.modPins, hres]
  obtain ⟨haon, hcause, hdevid, hsel, hdsn, hboot, hpins⟩ :=
    leaveReset_spec (cause := 1) (s := (porReleased x s).wr .PW_VIN_MV x.vinMv) hup (by decide)
  refine ⟨_, (exec_porRelease hpor hvin hvio).trans (by rw [when_of _ _ hup]), haon, hcause, hdevid, hsel, hdsn, hboot, ?_⟩
  rw [hpins]
  rfl

/-- While RESET_N is low the die stays in reset. -/
theorem por_release_held {x : PowerUp} {s : State} (hpor : s.pins.porLow = true) (hres : s.pins.resetLow = true)
    (hvin : 5600 ≤ x.vinMv) (hvio : 1500 ≤ x.vioMv) : Completes (.porRelease x) s (fun t =>
      t.aonUp = false ∧ t.regs = s.regs ∧ t.pins.porLow = false) := by
  have hdown : (porReleased x s).aonUp = false := by simp [porReleased, State.aonUp, State.modPins, hres]
  have hstays : leaveReset 1 (when (porReleased x s).aonUp (fun s => s.wr .PW_VIN_MV x.vinMv) (porReleased x s)) = porReleased x s := by
    rw [when_of_not _ _ hdown]
    exact when_of_not _ _ hdown
  exact ⟨_, (exec_porRelease hpor hvin hvio).trans (congrArg Host.Outcome.next hstays), hdown, rfl, rfl⟩

/-- Below the thresholds nothing happens (log entry 102). -/
theorem por_release_low {x : PowerUp} {s : State} (h : x.vinMv < 5600 ∨ x.vioMv < 1500) : exec (.porRelease x) s = .next s :=
  congrArg Host.Outcome.next (when_of_not _ s (by rcases h with h | h <;> simp [Nat.not_le.2 h]))

theorem reset_release {x : Straps} {s : State} (hres : s.pins.resetLow = true) (hpor : s.pins.porLow = false) :
    Completes (.resetNRelease x) s (fun t => t.aonUp = true ∧ t.rd .PW_BOOT_CAUSE = 2 ∧ t.rd .DEV_DEVID = x.devid.val ∧
      t.rd .DEV_MGR_SEL = x.mgrSel.val ∧ t.keeper.bootStage = 2) := by
  have hup : ((dropPads s).modPins (fun p => { p with resetLow := false, straps := x })).aonUp = true := by
    have hpads : (dropPads s).pins.porLow = s.pins.porLow := when_cases (P := fun u => u.pins.porLow = s.pins.porLow) rfl rfl
    simp [State.aonUp, State.modPins, hpads, hpor]
  obtain ⟨haon, hcause, hdevid, hsel, -, hboot, -⟩ := leaveReset_spec (cause := 2) hup (by decide)
  exact ⟨_, congrArg Host.Outcome.next (when_of _ s hres), haon, hcause, hdevid, hsel, hboot⟩

/-! ### The ROM, and bring-up without a clock source (R38, R399) -/

/-- What the ROM does when it has read the journal. -/
def romGoesOn (found : RomFindings) (s : State) : State :=
  let s := loadWard ((seedCadence s).wr .WD_SELFTEST_OK 1)
  let s := bootBanks found.badKeeperBank s
  advanceBoot (s.modKeeper (fun k => { k with bootStage := 4, bootTorn := found.tornTail }))

/-- The journal as the ROM finds it, with what its self-test reports. -/
def romReads (found : RomFindings) (s : State) : State :=
  let s := when (!found.fusesOk) (ward 13 28 mNone 0 0) s
  let s := when (!found.storeReadable) (fun s => ward 13 18 mNone 0 0 (s.modStore (fun _ => StoreS.empty))) s
  readJournal found.journalReadable s

theorem execRomBoot_eq (found : RomFindings) {s : State} (hup : s.aonUp = true) (hstage : s.keeper.bootStage = 3)
    (hon : s.domOn dKeep = true) : exec (.romBoot found) s = .next (romGoesOn found (romReads found s)) :=
  congrArg Host.Outcome.next (when_of _ s (by simp [hup, hstage, hon]))

theorem seedCadence_seeded (s : State) : (seedCadence s).rd .CAD_SEEDED = 1 := by
  unfold seedCadence
  dsimp only
  rw [rd_wr]
  rfl

/-- The ROM seeds the cadence and reports its self-test; what follows leaves both. -/
theorem romGoesOn_seeds (found : RomFindings) (s : State) :
    (romGoesOn found s).rd .CAD_SEEDED = 1 ∧ (romGoesOn found s).rd .WD_SELFTEST_OK = 1 := by
  unfold romGoesOn
  extract_lets v u
  have hward : ∀ f, (f = .CAD_SEEDED ∨ f = .WD_SELFTEST_OK) → v.rd f = ((seedCadence s).wr .WD_SELFTEST_OK 1).rd f := by
    rintro f (rfl | rfl) <;>
      exact (moves_loadWard (.refl foot_loadWard _) (within_self _)).reg _ 0 0 (by decide +kernel)
  have hbanks : ∀ f, (f = .CAD_SEEDED ∨ f = .WD_SELFTEST_OK) → u.rd f = v.rd f := by
    rintro f (rfl | rfl) <;>
      exact (moves_bootBanks (.refl foot_bootBanks v) (within_self _)).reg _ 0 0 (by decide +kernel)
  clear_value u v
  have hboot := moves_advanceBoot (.refl foot_advanceBoot
    (u.modKeeper (fun k => { k with bootStage := 4, bootTorn := found.tornTail }))) (within_self _)
  constructor
  · rw [hboot.reg .CAD_SEEDED 0 0 (by decide +kernel), modKeeper_rd, hbanks _ (.inl rfl), hward _ (.inl rfl),
      rd_wr_ne _ (by rintro ⟨⟨⟩, -⟩), seedCadence_seeded]
  · rw [hboot.reg .WD_SELFTEST_OK 0 0 (by decide +kernel), modKeeper_rd, hbanks _ (.inr rfl), hward _ (.inr rfl)]
    exact rd_wr _ .WD_SELFTEST_OK 1 0 0

theorem rom_boot {found : RomFindings} {s : State} (hup : s.aonUp = true) (hstage : s.keeper.bootStage = 3) (hon : s.domOn dKeep = true) :
    Completes (.romBoot found) s (fun t => t.rd .CAD_SEEDED = 1 ∧ t.rd .WD_SELFTEST_OK = 1) :=
  ⟨_, execRomBoot_eq found hup hstage hon, romGoesOn_seeds found _⟩

theorem applyPorts_keeper (s : State) : (each (List.range 8) applyPort s).keeper = s.keeper :=
  each_induct (P := fun u => u.keeper = s.keeper) _ rfl fun _ u hu =>
    ((moves_applyPort (.refl foot_applyPort u) (within_self _)).part .keeper (by decide +kernel)).trans hu

theorem shows_keeper (s : State) : (showMgr (showFw s)).keeper = s.keeper :=
  (moves_showMgr (moves_showFw (.refl (foot_showMgr ||| foot_showFw) s) (by unfold Within; decide +kernel))
    (by unfold Within; decide +kernel)).part .keeper (by decide +kernel)

/-- The firmware that starts ends bring-up. -/
theorem firmwareUp_booted (s : State) : (firmwareUp s).keeper.bootStage = 0 := by
  have hboot := (keeperStarts_seat (s.modKeeper (fun k => { k with bootStage := 0, bootTorn := false, bootBad := false }))).1
  rw [modKeeper_keeper] at hboot
  unfold firmwareUp
  dsimp only
  rw [shows_keeper]
  refine when_cases (P := fun u => u.keeper.bootStage = 0) ?_ ?_
  · rw [applyPorts_keeper, hboot]
  · rw [modKeeper_keeper]
    dsimp only
    rw [applyPorts_keeper, hboot]

/-- The image that the ROM chooses, journalled. -/
def romChosen (s : State) : State :=
  (bootChoose (journal (bootRecord s (bootChoose s)) s)).modUpd (fun u => { u with keepStrap := false })

theorem romChosen_state (s : State) (d : Nat) : (romChosen s).rd .PW_STATE 0 d = s.rd .PW_STATE 0 d := by
  unfold romChosen
  rw [modUpd_rd, (moves_bootChoose (.refl foot_bootChoose _) (within_self _)).reg .PW_STATE 0 d (by decide +kernel)]
  exact (moves_journal (.refl foot_journal s) (within_self _)).reg .PW_STATE 0 d (by decide +kernel)

/-- The Keeper runs alone. -/
theorem bootFirmware_alone (s : State) : bootFirmware false s = firmwareUp (romChosen s) := by
  unfold bootFirmware romChosen
  exact if_neg Bool.false_ne_true

theorem clock_timeout {s : State} (hstage : s.keeper.bootStage = 4) (h0 : ckReady s 0 = false) (h1 : ckReady s 1 = false) :
    Completes .bootClockTimeout s (fun t => t.keeper.bootStage = 0 ∧ ∀ d, t.rd .PW_STATE 0 d = s.rd .PW_STATE 0 d) := by
  have hrun : exec .bootClockTimeout s = .next (firmwareUp (romChosen (ward 11 1 (mCk 0) 0 0 s))) :=
    congrArg Host.Outcome.next ((when_of (fun s => bootFirmware false (ward 11 1 (mCk 0) 0 0 s)) s
    (show ((s.keeper.bootStage == 4 || s.keeper.bootStage == 5) && !ckReady s 0 && !ckReady s 1) = true by
      simp [hstage, h0, h1])).trans (bootFirmware_alone _))
  refine ⟨_, hrun, firmwareUp_booted _, fun d => ?_⟩
  rw [(moves_firmwareUp (.refl foot_firmwareUp _) (within_self _)).reg .PW_STATE 0 d (by decide +kernel), romChosen_state]
  exact (moves_ward (.refl foot_ward s) (within_self _)).reg .PW_STATE 0 d (by decide +kernel)

/-- Settles O31: what the die captures and seeds is left by all that follows in the step. -/
theorem bringUp : Obligations.BringUp := by
  unfold Obligations.BringUp
  refine ⟨fun s h => ⟨?_, ?_⟩, fun x s => por_release, fun x s => por_release_held, fun x s => por_release_low,
    fun x s => reset_release, fun found s => rom_boot, fun s => clock_timeout⟩
  · obtain ⟨hregs, hstore, hrecs, hfuses⟩ := reset_die h (fun p => { p with porLow := true })
    exact ⟨_, rfl, hregs, rfl, hstore, hrecs, hfuses⟩
  · obtain ⟨hregs, hstore, hrecs, hfuses⟩ := reset_die h (fun p => { p with resetLow := true })
    exact ⟨_, rfl, hregs, rfl, hstore, hrecs, hfuses⟩

end Sys2Proof.Proofs
end

section
/-!
Restarts of the Keeper, and a scheduled TRACE_FILTER at its boundary (R337, R362, R363, R434, R449).
-/
namespace Sys2Proof.Proofs
open Sys2Proof Sys2Proof.Machine Sys2Proof.Laws
set_option Elab.async false

/-! ### What a restart cancels (R363) -/

theorem finishCore_sched {r : CmdReq} {op status gen : Nat} {d : Bytes} {s : State} :
    (finishCore r op status d gen s).keeper.sched = s.keeper.sched ∧ (finishCore r op status d gen s).keeper.waiting = s.keeper.waiting := by
  obtain ⟨a, b, l, c, e, hk, -⟩ := @finishCore_keeper r op status gen d s
  rw [hk]
  exact ⟨rfl, rfl⟩

theorem unschedule_keeper (e : Sched) (s : State) :
    (unschedule e s).keeper = { s.keeper with sched := s.keeper.sched.erase e } := by
  have hshown : (showKeeper e.req.iss (s.modKeeper (fun k => { k with sched := k.sched.erase e }))).keeper =
      { s.keeper with sched := s.keeper.sched.erase e } :=
    (moves_showKeeper (.refl foot_showKeeper _) (within_self _)).part .keeper (by decide +kernel)
  unfold unschedule
  dsimp only
  split
  · exact hshown
  · exact ((moves_when (.refl foot_setUpdState _) fun _ h => moves_setUpdState h (within_self _)).part .keeper
      (by decide +kernel)).trans hshown
  · exact hshown

/-- A scheduled command ends. -/
def cancelSched (e : Sched) (s : State) : State := finishCore e.req e.cmd.op 0x14 [] e.ringGen (unschedule e s)

theorem each_cancelSched (l : List Sched) {s : State} (h : s.keeper.sched = l) :
    (each l cancelSched s).keeper.sched = [] ∧ (each l cancelSched s).keeper.waiting = s.keeper.waiting := by
  induction l generalizing s with
  | nil => exact ⟨h, rfl⟩
  | cons e l ih =>
    have hdone : (cancelSched e s).keeper.sched = l ∧ (cancelSched e s).keeper.waiting = s.keeper.waiting := by
      rw [cancelSched, finishCore_sched.1, finishCore_sched.2, unschedule_keeper, h]
      exact ⟨List.erase_cons_head .., rfl⟩
    obtain ⟨hsched, hwaiting⟩ := ih hdone.1
    exact ⟨hsched, hwaiting.trans hdone.2⟩

/-- Nothing stays scheduled, and only what is kept waits. -/
theorem cancelAll_keeper (s : State) :
    (cancelAll s).keeper.sched = [] ∧ (cancelAll s).keeper.waiting = s.keeper.waiting.filter (·.kept) := by
  unfold cancelAll
  extract_lets ws s1 s2 s3
  have hends {α : Type} (l : List α) (f : α → State → State) (z : State)
      (hf : ∀ a z, (f a z).keeper.sched = z.keeper.sched ∧ (f a z).keeper.waiting = z.keeper.waiting) :
      (each l f z).keeper.waiting = z.keeper.waiting :=
    each_induct (P := fun u => u.keeper.waiting = z.keeper.waiting) l rfl fun a u hu => (hf a u).2.trans hu
  have h2 : s2.keeper.waiting = s1.keeper.waiting := hends _ _ _ fun _ _ => finishCore_sched
  have h3 : s3.keeper.waiting = s2.keeper.waiting := hends _ _ _ fun _ _ => finishCore_sched
  obtain ⟨hsched, hwaiting⟩ := each_cancelSched s3.keeper.sched (s := s3) rfl
  exact ⟨hsched, hwaiting.trans (h3.trans h2)⟩

/-- What a restart moves behind what it cancels. -/
def restartFoot : Nat := foot_journal ||| foot_traceNone ||| fms [.KP_RESTART_CNT]

theorem enterRestart_spec (kind : Nat) (s : State) : (enterRestart kind s).rd .KP_KSTATE = 4 ∧
    (enterRestart kind s).upd.pieces = [] ∧ (enterRestart kind s).keeper.sched = [] ∧
    ∀ w ∈ (enterRestart kind s).keeper.waiting, w.kept = true := by
  obtain ⟨hsched, hwaiting⟩ := cancelAll_keeper s
  unfold enterRestart
  generalize cancelAll s = s1 at hsched hwaiting ⊢
  extract_lets s' s2 s3
  have hm : Moves restartFoot s2 s3 :=
    moves_journal (moves_traceNone (moves_inc (f := .KP_RESTART_CNT) (i := 0) (j := 0) (.refl restartFoot s2) (by unfold Within; decide +kernel)) (by unfold Within; decide +kernel))
      (by unfold Within; decide +kernel)
  have hkeeper : s3.keeper = s1.keeper := hm.part .keeper (by decide +kernel)
  have hpieces : s3.upd.pieces = [] := by
    rw [show s3.upd = s2.upd from hm.part .upd (by decide +kernel)]
    rfl
  clear_value s3
  refine ⟨rd_wr s3 .KP_KSTATE 4 0 0, hpieces, ?_, fun w hw => ?_⟩
  · change s3.keeper.sched = []
    rw [hkeeper, hsched]
  · change w ∈ s3.keeper.waiting at hw
    rw [hkeeper, hwaiting] at hw
    exact (List.mem_filter.1 hw).2

/-! ### The events of a restart (R362, R434) -/

theorem keeper_watchdog {s : State} (h : keeperUp s = true) :
    Completes .keeperWatchdog s (fun t => t.rd .KP_KSTATE = 4 ∧ t.rd .KP_WDOG_CNT = (s.rd .KP_WDOG_CNT + 1) % 2 ^ 64 ∧
      t.upd.pieces = [] ∧ t.keeper.sched = [] ∧ ∀ w ∈ t.keeper.waiting, w.kept = true) := by
  refine ⟨_, congrArg Host.Outcome.next (when_of _ s h), ?_⟩
  obtain ⟨hk, hpieces, hsched, hwaiting⟩ := enterRestart_spec 2 (ward 9 1 mNone 0 0 (s.inc .KP_WDOG_CNT))
  refine ⟨hk, ?_, hpieces, hsched, hwaiting⟩
  rw [(moves_enterRestart (.refl foot_enterRestart _) (within_self _)).reg .KP_WDOG_CNT 0 0 (by decide +kernel),
    (moves_ward (.refl foot_ward _) (within_self _)).reg .KP_WDOG_CNT 0 0 (by decide +kernel)]
  exact rd_wr s .KP_WDOG_CNT _ 0 0

theorem drain_timeout {s : State} (hon : s.domOn dKeep = true) (hk : s.rd .KP_KSTATE = 3) :
    Completes .drainTimeout s (fun t => t.rd .KP_KSTATE = 4 ∧ t.upd.pieces = [] ∧ t.keeper.sched = []) := by
  obtain ⟨hstate, hpieces, hsched, -⟩ := enterRestart_spec 3 s
  exact ⟨_, congrArg Host.Outcome.next (when_of _ s (by simp [draining, hk, hon])), hstate, hpieces, hsched⟩

/-- The running image gives the Keeper's state: it serves, or is in ROM recovery mode. -/
def Started (s : State) : Prop := (s.upd.running < 2 → s.rd .KP_KSTATE = 2) ∧
  (¬ s.upd.running < 2 → s.rd .KP_KSTATE = 1 ∧ s.rd .TI_RECOVERY = 1)

theorem started_keeperStarts (s : State) : Started (keeperStarts s) := by
  obtain ⟨-, hrun, hk⟩ := keeperStarts_seat s
  unfold Started
  rw [hrun]
  split at hk
  next h => exact ⟨fun _ => hk, fun hn => absurd h hn⟩
  next h => exact ⟨fun hn => absurd hn h, fun _ => hk⟩

/-- What leaves the Keeper's seat and the recovery mode leaves that. -/
theorem Started.of_seat {s t : State} (h : Started s) (ht : Seat s t) (hmode : t.rd .TI_RECOVERY = s.rd .TI_RECOVERY) : Started t := by
  obtain ⟨hserve, hrecover⟩ := h
  unfold Started
  rw [ht.running, hmode]
  constructor <;> intro hrun
  · have hk := hserve hrun
    exact (ht.kstate (by rw [hk]; decide)).trans hk
  · obtain ⟨hk, hmode⟩ := hrecover hrun
    exact ⟨(ht.kstate (by rw [hk]; decide)).trans hk, hmode⟩

theorem Started.finishWaiting {s : State} {op key status : Nat} {d : Bytes} (h : Started s) :
    Started (finishWaiting op key status d s) :=
  h.of_seat (Steady.finishWaiting (.refl s)).seat ((moves_finishWaiting (.refl foot_finishWaiting s) (within_self _)).reg .TI_RECOVERY 0 0
    (by decide +kernel))

theorem Started.shows {s : State} (h : Started s) : Started (showMgr (showFw (s.modKeeper (fun k => { k with drainKind := 0 })))) := by
  have hm : Moves (foot_showMgr ||| foot_showFw) (s.modKeeper (fun k => { k with drainKind := 0 })) (showMgr (showFw _)) :=
    moves_showMgr (moves_showFw (.refl _ _) (by unfold Within; decide +kernel)) (by unfold Within; decide +kernel)
  exact h.of_seat ((Steady.modKeeper (.refl s)).seat.keep hm) (hm.reg .TI_RECOVERY 0 0 (by decide +kernel))

theorem Started.rebuildDirs {s : State} {all : Bool} (h : Started s) : Started (rebuildDirs all s) := by
  have hm := moves_rebuildDirs (all := all) (.refl foot_rebuildDirs s) (within_self _)
  exact h.of_seat ((Seat.refl s).keep hm) (hm.reg .TI_RECOVERY 0 0 (by decide +kernel))

/-- The Keeper starts whatever the test of its banks finds. -/
theorem started_restartDone (s : State) : Started (restartDone s) := by
  have hgo : ∀ (all : State → Bool) (n : State → Nat) (z : State),
      Started (Machine.finishWaiting 0x0806 0 0 [] (Machine.finishWaiting 0x0804 0 (n (Machine.rebuildDirs (all (showMgr (showFw
        ((keeperStarts z).modKeeper (fun k => { k with drainKind := 0 })))))
        (showMgr (showFw ((keeperStarts z).modKeeper (fun k => { k with drainKind := 0 })))))) []
        (Machine.rebuildDirs (all (showMgr (showFw ((keeperStarts z).modKeeper (fun k => { k with drainKind := 0 })))))
          (showMgr (showFw ((keeperStarts z).modKeeper (fun k => { k with drainKind := 0 }))))))) := fun _ _ z =>
    (started_keeperStarts z).shows.rebuildDirs.finishWaiting.finishWaiting
  unfold restartDone testKeeperBanks
  split
  · exact hgo (fun u => u.upd.fwVersion != _ || recovery u) (fun u => if u.upd.state = 5 then 0 else 0x0D) _
  · exact hgo (fun u => u.upd.fwVersion != _ || recovery u) (fun u => if u.upd.state = 5 then 0 else 0x0D) _

theorem restart_done {s : State} (hon : s.domOn dKeep = true) (hk : s.rd .KP_KSTATE = 4) :
    Completes .keeperRestartDone s (fun t => (t.upd.running < 2 → t.rd .KP_KSTATE = 2) ∧
      (¬ t.upd.running < 2 → t.rd .KP_KSTATE = 1 ∧ t.rd .TI_RECOVERY = 1)) :=
  ⟨_, congrArg Host.Outcome.next (when_of _ s (by simp [hon, hk])), started_restartDone s⟩

/-! ### A scheduled TRACE_FILTER (R337, R464) -/

/-- A record leaves the filters. -/
theorem trace_filter (kind id code arg : Nat) (s : State) : (trace kind id code arg s).trace.filter = s.trace.filter := by
  have ha : (advance s).trace = s.trace := (moves_advance (.refl _ s) (within_self _)).part .trace (by decide +kernel)
  unfold trace
  split
  · change (advance s).trace.filter = s.trace.filter
    rw [ha]
  · rfl

theorem sendReply_filter {r : CmdReq} {op status gen : Nat} {interim : Bool} {d : Bytes} {s : State} :
    (sendReply r op status interim d gen s).trace = s.trace :=
  (moves_sendReply (.refl foot_sendReply s) (within_self _)).part .trace (by decide +kernel)

/-- A reply leaves the filters, as it leaves the schedule. -/
theorem finishCore_filter {r : CmdReq} {op status gen : Nat} {d : Bytes} {s : State} :
    (finishCore r op status d gen s).trace.filter = s.trace.filter := by
  have hfree : ∀ w, (freeCtx r op w).trace = w.trace := fun w =>
    (moves_freeCtx (.refl foot_freeCtx w) (within_self _)).part .trace (by decide +kernel)
  have hnoted : (traceNone 0x0801 (op % 65536 + status * 65536 + issuerArg r.iss) (counted status s)).trace.filter = s.trace.filter := by
    rw [traceNone, trace_filter, show (counted status s).trace = s.trace from moves_counted.part .trace (by decide +kernel)]
  unfold finishCore
  dsimp only
  rw [show when (status == 0x14) _ _ = counted status s from rfl]
  generalize traceNone 0x0801 _ _ = u at hnoted ⊢
  have hsent : (if status = 0 && d.isEmpty && !r.ackReq then u else sendReply r op status false d gen u).trace = u.trace := by
    split
    · rfl
    · exact sendReply_filter
  generalize (if status = 0 && d.isEmpty && !r.ackReq then u else sendReply r op status false d gen u) = w at hsent ⊢
  have hw : (freeCtx r op w).trace.filter = s.trace.filter := by rw [hfree, hsent, hnoted]
  cases r.iss with
  | fn f =>
    refine when_cases (P := fun t => t.trace.filter = s.trace.filter) hw ?_
    exact when_cases (P := fun t => t.trace.filter = s.trace.filter) hw hw
  | smp => exact hw

/-- What a reply may move beside its count. -/
def repliedFoot : Nat := fms [.KR_IN_FLIGHT] ||| pms [.keeper] ||| foot_traceNone ||| foot_sendReply ||| foot_freeCtx

/-- A reply without fault is counted once. -/
theorem cmdCnt_finishCore {r : CmdReq} {op gen : Nat} {d : Bytes} {s : State} :
    (finishCore r op 0 d gen s).rd .KP_CMD_CNT = (s.rd .KP_CMD_CNT + 1) % 2 ^ 64 := by
  have hcount : (counted 0 s).rd .KP_CMD_CNT = (s.rd .KP_CMD_CNT + 1) % 2 ^ 64 := rd_wr s .KP_CMD_CNT _ 0 0
  rw [← hcount]
  have hm : Moves repliedFoot (counted 0 s) (finishCore r op 0 d gen s) := by
    have htrace := moves_traceNone (code := 0x0801) (arg := op % 65536 + 0 * 65536 + issuerArg r.iss) (.refl repliedFoot (counted 0 s))
      (by unfold Within; decide +kernel)
    unfold finishCore
    dsimp only
    rw [show when ((0 : Nat) == 0x14) _ _ = counted 0 s from rfl]
    generalize traceNone 0x0801 _ _ = u at htrace ⊢
    have hsent := moves_ite (c := (decide ((0 : Nat) = 0) && d.isEmpty && !r.ackReq) = true) htrace
      (moves_sendReply (r' := r) (op := op) (status := 0) (interim := false) (data := d) (gen := gen) htrace
        (by unfold Within; decide +kernel))
    have hfree := moves_freeCtx (r' := r) (op := op) hsent (by unfold Within; decide +kernel)
    generalize freeCtx r op _ = w at hfree ⊢
    cases r.iss with
    | fn f => exact moves_when hfree fun _ h => moves_dec h (by unfold Within; decide +kernel)
    | smp => exact moves_modKeeper hfree (by unfold Within; decide +kernel)
  exact hm.reg .KP_CMD_CNT 0 0 (by decide +kernel)

/-- Where no command waits for an answer of its own, nothing more is answered. -/
theorem answerUnknowns_none (n : Nat) {s : State} (h : ∀ c ∈ s.keeper.ctxs, c.unknown = 0) : answerUnknowns n s = s := by
  have hturn : unknownTurn s = none := by
    refine List.find?_eq_none.2 fun c hc => ?_
    simp [h c hc]
  cases n with
  | zero => rfl
  | succ n => rw [answerUnknowns, hturn]

theorem drainEnds_served {s : State} (h : s.rd .KP_KSTATE = 2) : drainEnds s = s := when_of_not _ s (by simp [draining, h])

theorem cmdCnt_finish {r : CmdReq} {op : Nat} {d : Bytes} {s : State} (hk : s.rd .KP_KSTATE = 2)
    (h : ∀ c ∈ s.keeper.ctxs, c.unknown = 0) : (finish r op 0 d s).rd .KP_CMD_CNT = (s.rd .KP_CMD_CNT + 1) % 2 ^ 64 := by
  obtain ⟨a, b, l, c, e, hkeeper, hsub⟩ := @finishCore_keeper r op 0 (curGen s r) d s
  rw [finish, finishGen, answerUnknowns_none, drainEnds_served, cmdCnt_finishCore]
  · exact ((Steady.refl s).finishCore.seat.kstate (by rw [hk]; decide)).trans hk
  · rw [hkeeper]
    exact fun x hx => h x (hsub.subset hx)

/-- A scheduled command's reply leaves the filters, STOP_MODE and what else is scheduled. -/
theorem filterKept_finish {r : CmdReq} {op status : Nat} {d : Bytes} {s : State} (hk : s.rd .KP_KSTATE = 2) :
    (finish r op status d s).trace.filter = s.trace.filter ∧ (finish r op status d s).keeper.sched = s.keeper.sched ∧
    (finish r op status d s).rd .TR_STOP_MODE = s.rd .TR_STOP_MODE := by
  obtain ⟨hfilter, hsched⟩ := finish_induct (P := fun u => u.trace.filter = s.trace.filter ∧ u.keeper.sched = s.keeper.sched)
    (fun _ _ _ _ _ _ hu => ⟨finishCore_filter.trans hu.1, finishCore_sched.1.trans hu.2⟩) (r := r) (op := op) (status := status) (d := d)
    (s := s) (by simp [draining, hk]) ⟨rfl, rfl⟩
  exact ⟨hfilter, hsched, (moves_finish (.refl foot_finish s) (within_self _)).reg .TR_STOP_MODE 0 0 (by decide +kernel)⟩

/-! ### The filters that TRACE_FILTER sets -/

theorem wr_filter (s : State) (f : Fld) (v i j : Nat) : (s.wr f v i j).trace.filter = s.trace.filter := rfl

theorem ringAppend_filter (r : TrRec) (s : State) : (ringAppend r s).trace.filter = s.trace.filter := by
  unfold ringAppend
  extract_lets n s1 s2
  have h2 : s2.trace.filter = s.trace.filter := by
    unfold s2 s1
    rw [wr_filter, modTrace_trace]
  clear_value s2
  split
  · rw [wr_filter, h2]
  · exact h2

theorem ringTake_filter (r : TrRec) (s : State) : (ringTake r s).trace.filter = s.trace.filter := by
  unfold ringTake
  dsimp only
  split
  · rfl
  · exact ringAppend_filter r (showStopped s)

theorem applyFilter_spec (p : FilterParams) (s : State) :
    (applyFilter p s).rd .TR_STOP_MODE = p.flags % 2 ∧ (applyFilter p s).trace.filter.tenants = p.tenants := by
  have hbit : (if p.flags.testBit 0 then 1 else 0 : Nat) % 2 = p.flags % 2 := by
    rw [Nat.testBit_zero]
    rcases Nat.mod_two_eq_zero_or_one p.flags with h | h <;> simp [h]
  unfold applyFilter
  extract_lets s1 f s2 s3 s4 s5
  have h3 : s3.rd .TR_STOP_MODE = p.flags % 2 ∧ s3.trace.filter.tenants = p.tenants :=
    ⟨(rd_wr s2 .TR_STOP_MODE _ 0 0).trans hbit, rfl⟩
  have h4 : s4.rd .TR_STOP_MODE = p.flags % 2 ∧ s4.trace.filter.tenants = p.tenants := by
    refine when_cases (P := fun u => u.rd .TR_STOP_MODE = p.flags % 2 ∧ u.trace.filter.tenants = p.tenants) h3 ⟨?_, h3.2⟩
    exact (rd_wr_ne s3 (by rintro ⟨⟨⟩, -⟩)).trans h3.1
  have h5 : s5.rd .TR_STOP_MODE = p.flags % 2 ∧ s5.trace.filter.tenants = p.tenants :=
    ⟨(rd_wr_ne s4 (by rintro ⟨⟨⟩, -⟩)).trans h4.1, h4.2⟩
  clear_value s5
  refine when_cases (P := fun u => u.rd .TR_STOP_MODE = p.flags % 2 ∧ u.trace.filter.tenants = p.tenants) h5 ⟨?_, ?_⟩
  · exact ((moves_ringTake (.refl foot_ringTake s5) (within_self _)).reg .TR_STOP_MODE 0 0 (by decide +kernel)).trans h5.1
  · rw [ringTake_filter, h5.2]

/-! ### At its boundary -/

theorem schedTaken_keeper (e : Sched) (s : State) : (schedTaken e s).keeper.sched = s.keeper.sched.erase e ∧
    (schedTaken e s).keeper.ctxs = s.keeper.ctxs := by
  unfold schedTaken
  rw [modKeeper_keeper, unschedule_keeper]
  exact ⟨rfl, rfl⟩

/-- What TRACE_FILTER does when it runs. -/
theorem filterAct {r : CmdReq} {p : FilterParams} {s : State} (hk : s.rd .KP_KSTATE = 2) :
    (finish r 0x0901 0 [] (applyFilter p s)).keeper.sched = s.keeper.sched ∧
    (finish r 0x0901 0 [] (applyFilter p s)).rd .TR_STOP_MODE = p.flags % 2 ∧
    (finish r 0x0901 0 [] (applyFilter p s)).trace.filter.tenants = p.tenants ∧
    ((∀ c ∈ s.keeper.ctxs, c.unknown = 0) →
      (finish r 0x0901 0 [] (applyFilter p s)).rd .KP_CMD_CNT = (s.rd .KP_CMD_CNT + 1) % 2 ^ 64) := by
  obtain ⟨hmode, htenants⟩ := applyFilter_spec p s
  have hm := moves_applyFilter (p := p) (.refl foot_applyFilter s) (within_self _)
  have hkeeper : (applyFilter p s).keeper = s.keeper := hm.part .keeper (by decide +kernel)
  have hk' : (applyFilter p s).rd .KP_KSTATE = 2 := (hm.reg .KP_KSTATE 0 0 (by decide +kernel)).trans hk
  have hcnt : (applyFilter p s).rd .KP_CMD_CNT = s.rd .KP_CMD_CNT := hm.reg .KP_CMD_CNT 0 0 (by decide +kernel)
  generalize applyFilter p s = u at hmode htenants hkeeper hk' hcnt ⊢
  obtain ⟨hfilter, hsched, hstop⟩ := filterKept_finish (r := r) (op := 0x0901) (status := 0) (d := []) hk'
  refine ⟨by rw [hsched, hkeeper], by rw [hstop, hmode], by rw [hfilter, htenants], fun hc => ?_⟩
  rw [cmdCnt_finish hk' (by rw [hkeeper]; exact hc), hcnt]

theorem scheduled_filter {p : FilterParams} {e : Sched} {s : State} (hon : s.domOn dKeep = true) (hk : s.rd .KP_KSTATE = 2)
    (hub : s.domOn dHub = true) (hre : s.react = false) (hdue : dueSched s (fun e => (schedCmd e).isSome) = some e)
    (hcmd : e.cmd = .traceFilter p) (hm : e.mgr = true) (hlen : e.req.plen = 64) (hresv : e.req.resv = false)
    (hun : unbound s e.req.iss = false) (hfor : foreignTarget s e.req = false) (htg : e.req.target < 256 ∨ e.req.target = 0xFFFF)
    (hth : tenantThere 0x0901 e.req s = true) (hclass : p.classEn < 2 ^ 14) (hflags : p.flags < 4) :
    Completes .scheduledCommandExec s (fun t => t.keeper.sched = s.keeper.sched.erase e ∧
      t.rd .TR_STOP_MODE = p.flags % 2 ∧ t.trace.filter.tenants = p.tenants ∧
      ((∀ c ∈ s.keeper.ctxs, c.unknown = 0) → t.rd .KP_CMD_CNT = (s.rd .KP_CMD_CNT + 1) % 2 ^ 64)) := by
  have hacts := runSched_acts (c := cmdTraceFilter { e.req with atEpoch := false } p) hm ⟨hun, hfor, hre, hresv, htg, hth⟩
    (beq_iff_eq.2 hlen) (fun h => nomatch h) (Bool.and_eq_true_iff.2 ⟨decide_eq_true hclass, decide_eq_true hflags⟩)
    (by simp [cmdTraceFilter, schedTaken_domOn, hub]) rfl
  have hrun : exec .scheduledCommandExec s = .next (runSched (cmdTraceFilter { e.req with atEpoch := false } p) e s) := by
    refine congrArg Host.Outcome.next ((when_of _ s (by simp [keeperUp, hon, hk])).trans ?_)
    dsimp only
    rw [hdue]
    dsimp only
    rw [schedCmd, hcmd]
    rfl
  have hkt : (schedTaken e s).rd .KP_KSTATE = 2 := ((schedTaken_moves e s).reg .KP_KSTATE 0 0 (by decide +kernel)).trans hk
  obtain ⟨hsched, hmode, htenants, hcnt⟩ := filterAct (r := { e.req with atEpoch := false }) (p := p) hkt
  obtain ⟨hsched', hctxs⟩ := schedTaken_keeper e s
  refine ⟨_, hrun.trans (congrArg Host.Outcome.next hacts), hsched.trans hsched', hmode, htenants, fun hc => ?_⟩
  rw [← (schedTaken_moves e s).reg .KP_CMD_CNT 0 0 (by decide +kernel)]
  exact hcnt (by rw [hctxs]; exact hc)

/-- Settles O19: a restart cancels, then starts by the image that runs; a scheduled TRACE_FILTER runs under its own authority. -/
theorem keeperRestarts : Obligations.KeeperRestarts := by
  unfold Obligations.KeeperRestarts
  exact ⟨fun s => keeper_watchdog, fun s => drain_timeout, fun s => restart_done, fun p e s => scheduled_filter⟩

end Sys2Proof.Proofs
end

section
/-!
The reset events of a host link (R60, R61, R64, Table HL-3): what the end of a link's run leaves.
-/
namespace Sys2Proof.Proofs
open Sys2Proof Sys2Proof.Machine Sys2Proof.Laws
set_option Elab.async false

/-! ### A conventional reset (R61) -/

/-- The state in which the functions are reset: what they asked for is cut. -/
def cutAll (h cause : Nat) (s : State) : State :=
  let s := orphanFetch (fun f => fnHl f == h) s
  let s := each ((heldTns s).filter (fun n => s.rd .TN_HL n == h)) resetTn s
  let s : State := { s with inRds := s.inRds.map (fun q => if q.req.fn.hl.val = h then { q with failed := 1, down := true } else q) }
  cutFns (fun f => fnHl f == h) cause (dropWait h (fun f => fnHl f == h) s)

theorem convReset_eq (h cause : Nat) (s : State) :
    convReset h cause s = showExcused (fnReset h false (fun _ => true) (cutAll h cause s)) := rfl

theorem steady_cutAll (h cause : Nat) (s : State) : Steady s (cutAll h cause s) := by
  unfold cutAll
  extract_lets s1 s2 s3
  have h2 : Steady s s2 := (Steady.orphanFetch (.refl s)).each fun n z hz => hz.resetTn
  have h3 : Steady s s3 := h2.other
  exact (h3.keep (moves_dropWait (.refl _ _) (within_self _))).cutFns

/-- It leaves a link that is not in L1 where it is. -/
theorem convReset_ltssm {h cause k : Nat} {s : State} (hk : s.rd .HL_LTSSM k ≠ 5) :
    (convReset h cause s).rd .HL_LTSSM k = s.rd .HL_LTSSM k := by
  rw [convReset_eq, (moves_showExcused (.refl foot_showExcused _) (within_self _)).reg .HL_LTSSM k 0 (by decide +kernel),
    (moves_fnReset (.refl foot_fnReset _) (within_self _)).reg .HL_LTSSM k 0 (by decide +kernel), (steady_cutAll h cause s).link k hk]

/-- Bus Master Enable and VF Enable of the PF are clear after it. -/
theorem convReset_pf (h cause : Nat) (s : State) :
    ((convReset h cause s).cf (pfIdx h)).bme = false ∧ ((convReset h cause s).cf (pfIdx h)).vfEnable = false := by
  have hshown (z : State) : (showExcused z).cf = z.cf := by
    funext f
    rw [State.cf, show (showExcused z).cfg = z.cfg from
      (moves_showExcused (.refl foot_showExcused z) (within_self _)).part .cfg (by decide +kernel), State.cf]
  have hpaused (z : State) : (pauseStream z).cf = z.cf := by
    funext f
    rw [State.cf, show (pauseStream z).cfg = z.cfg from
      (moves_pauseStream (.refl foot_pauseStream z) (within_self _)).part .cfg (by decide +kernel), State.cf]
  rw [convReset_eq, hshown]
  unfold fnReset
  dsimp only
  rw [if_pos rfl, hpaused, modCf_cf, if_pos rfl]
  exact ⟨rfl, rfl⟩

/-! ### The end of a link's run -/

/-- A link that was up reports that its data link is down. -/
def reportDown (h : Nat) (s : State) : State :=
  ward (hlTiller h) 12 (mHl h) 0 0 (hlEvent h .HL_DL_DOWN (trace 3 h 0x0302 0 (s.inc .HL_DOWN_CNT h)))

theorem linkDown_eq (h ltssm cause : Nat) (s : State) : ∃ n, linkDown h ltssm cause s =
    when (s.dlUp h) (reportDown h) (convReset h cause (endRun h ltssm (s.add .HL_DROP_CNT n h))) := ⟨_, rfl⟩

theorem moves_reportDown {h : Nat} {s : State} :
    Moves (foot_ward ||| foot_hlEvent .HL_DL_DOWN ||| foot_trace ||| fms [.HL_DOWN_CNT]) s (reportDown h s) :=
  moves_ward (moves_hlEvent (moves_trace (moves_inc (f := .HL_DOWN_CNT) (i := h) (j := 0) (.refl _ s)
    (by unfold Within; decide +kernel)) (by unfold Within; decide +kernel)) (by unfold Within; decide +kernel))
    (by unfold Within; decide +kernel)

theorem steady_reportDown (h : Nat) (s : State) : Steady s (reportDown h s) :=
  (Steady.raiseCause (Steady.wr (Steady.trace (Steady.wr (.refl s))))).ward

theorem reportDown_regs (h : Nat) (s : State) : (reportDown h s).rd .HL_DL_DOWN h = 1 ∧
    (reportDown h s).rd .HL_DOWN_CNT h = (s.rd .HL_DOWN_CNT h + 1) % 2 ^ 64 := by
  have hward (f : Fld) (hf : foot_ward.testBit (fbit f) = false) (z : State) :
      (ward (hlTiller h) 12 (mHl h) 0 0 z).rd f h = z.rd f h :=
    (moves_ward (.refl foot_ward z) (within_self _)).reg f h 0 hf
  have hraise (f : Fld) (hf : foot_raiseCause.testBit (fbit f) = false) (z : State) :
      (raiseCause (pfIdx h) .hostlink z).rd f h = z.rd f h :=
    (moves_raiseCause (.refl foot_raiseCause z) (within_self _)).reg f h 0 hf
  constructor <;> unfold reportDown hlEvent
  · rw [hward _ (by decide +kernel), hraise _ (by decide +kernel)]
    exact rd_wr _ .HL_DL_DOWN 1 h 0
  · rw [hward _ (by decide +kernel), hraise _ (by decide +kernel), rd_wr_ne _ (by rintro ⟨⟨⟩, -⟩),
      (moves_trace (.refl foot_trace _) (within_self _)).reg .HL_DOWN_CNT h 0 (by decide +kernel)]
    exact rd_wr s .HL_DOWN_CNT _ h 0

theorem endRun_regs (h ltssm : Nat) (s : State) : (endRun h ltssm s).rd .HL_LTSSM h = ltssm % 2 ^ Fld.HL_LTSSM.width ∧
    (endRun h ltssm s).rd .HL_DL_UP h = 0 := by
  have hclk (f : Fld) (hf : foot_showClkreq.testBit (fbit f) = false) (z : State) : (showClkreq h z).rd f h = z.rd f h :=
    (moves_showClkreq (.refl foot_showClkreq z) (within_self _)).reg f h 0 hf
  unfold endRun
  dsimp only
  constructor <;> rw [hclk _ (by decide +kernel), modHl_rd]
  · exact rd_wr _ .HL_LTSSM ltssm h 0
  · iterate 6 rw [rd_wr_ne _ (by rintro ⟨⟨⟩, -⟩)]
    exact rd_wr _ .HL_DL_UP 0 h 0

/-- Where a link goes, and what it reports. -/
theorem linkDown_spec {h ltssm cause : Nat} {s : State} (hl : ltssm = 0 ∨ ltssm = 7 ∨ ltssm = 10) :
    (linkDown h ltssm cause s).rd .HL_LTSSM h = ltssm ∧ (linkDown h ltssm cause s).rd .HL_DL_UP h = 0 ∧
    (s.dlUp h = true → (linkDown h ltssm cause s).rd .HL_DL_DOWN h = 1 ∧
      (linkDown h ltssm cause s).rd .HL_DOWN_CNT h = (s.rd .HL_DOWN_CNT h + 1) % 2 ^ 64) := by
  obtain ⟨n, hn⟩ := linkDown_eq h ltssm cause s
  have hgone : ltssm % 2 ^ Fld.HL_LTSSM.width = ltssm ∧ ltssm ≠ 5 := by rcases hl with rfl | rfl | rfl <;> decide
  obtain ⟨hend, hdl⟩ := endRun_regs h ltssm (s.add .HL_DROP_CNT n h)
  have hcnt : (endRun h ltssm (s.add .HL_DROP_CNT n h)).rd .HL_DOWN_CNT h = s.rd .HL_DOWN_CNT h :=
    ((moves_endRun (.refl foot_endRun _) (within_self _)).reg .HL_DOWN_CNT h 0 (by decide +kernel)).trans
      (rd_wr_ne s (by rintro ⟨⟨⟩, -⟩))
  rw [hgone.1] at hend
  rw [hn]
  generalize endRun h ltssm (s.add .HL_DROP_CNT n h) = u at hend hdl hcnt ⊢
  have hreset := moves_convReset (h' := h) (cause := cause) (.refl foot_convReset u) (within_self _)
  have hend' : (convReset h cause u).rd .HL_LTSSM h = ltssm := (convReset_ltssm (by rw [hend]; exact hgone.2)).trans hend
  have hdl' := (hreset.reg .HL_DL_UP h 0 (by decide +kernel)).trans hdl
  have hcnt' := (hreset.reg .HL_DOWN_CNT h 0 (by decide +kernel)).trans hcnt
  clear hreset
  generalize convReset h cause u = v at hend' hdl' hcnt' ⊢
  have hsteady := steady_reportDown h v
  obtain ⟨hdown, hdowns⟩ := reportDown_regs h v
  refine ⟨when_cases (P := fun t => t.rd .HL_LTSSM h = ltssm) hend' ?_,
    when_cases (P := fun t => t.rd .HL_DL_UP h = 0) hdl' ?_, fun hup => ?_⟩
  · rw [hsteady.link h (by rw [hend']; exact hgone.2), hend']
  · exact (moves_reportDown.reg .HL_DL_UP h 0 (by decide +kernel)).trans hdl'
  · rw [when_of _ _ hup, hdown, hdowns, hcnt']
    exact ⟨rfl, rfl⟩

/-- The status bits apart, a function's configuration gives its enables. -/
theorem enables_of_core {c d : FnCfg} (h : cfCore c = cfCore d) : c.bme = d.bme ∧ c.vfEnable = d.vfEnable :=
  ⟨by simpa only [cfCore] using congrArg FnCfg.bme h, by simpa only [cfCore] using congrArg FnCfg.vfEnable h⟩

/-- The PF's Bus Master Enable and VF Enable are clear where a link went down. -/
theorem linkDown_pf (h ltssm cause : Nat) (s : State) :
    ((linkDown h ltssm cause s).cf (pfIdx h)).bme = false ∧ ((linkDown h ltssm cause s).cf (pfIdx h)).vfEnable = false := by
  obtain ⟨n, hn⟩ := linkDown_eq h ltssm cause s
  have hreset := convReset_pf h cause (endRun h ltssm (s.add .HL_DROP_CNT n h))
  rw [hn]
  generalize convReset h cause _ = u at hreset ⊢
  refine when_cases (P := fun t => (t.cf (pfIdx h)).bme = false ∧ (t.cf (pfIdx h)).vfEnable = false) hreset ?_
  obtain ⟨hbme, hvf⟩ := enables_of_core ((steady_reportDown h u).core (pfIdx h))
  rw [hbme, hvf]
  exact hreset

/-! ### The reset events (Table HL-3) -/

/-- What else a reset of a link leaves. -/
theorem linkDown_keeps (h ltssm cause : Nat) (s : State) : Moves foot_linkDown s (linkDown h ltssm cause s) :=
  moves_linkDown (.refl _ s) (within_self _)

theorem dl_down {hl : Hl} {s : State} (hlive : hlLive s hl = true) (hup : s.dlUp hl = true) :
    exec (.dlDown hl) s = .next (emit (.phy hl 0 0) (linkDown hl 0 4 s)) :=
  congrArg Host.Outcome.next (when_of _ s (by rw [hlive, hup]; rfl))

theorem hot_reset {hl : Hl} {s : State} (hlive : hlLive s hl = true) (hup : s.dlUp hl = true) :
    Completes (.hotResetReceived hl) s (fun t => t.rd .HL_LTSSM hl = 0 ∧ t.rd .HL_DL_UP hl = 0 ∧ t.rd .HL_HOT_RESET hl = 1 ∧
      t.rd .HL_DL_DOWN hl = 1 ∧ t.rd .HL_DOWN_CNT hl = (s.rd .HL_DOWN_CNT hl + 1) % 2 ^ 64) := by
  obtain ⟨hltssm, hdl, hrep⟩ := linkDown_spec (h := hl) (cause := 4) (s := s) (ltssm := 0) (.inl rfl)
  obtain ⟨hdown, hcnt⟩ := hrep hup
  refine ⟨_, congrArg Host.Outcome.next (when_of _ s (by rw [hlive, hup]; rfl)), ?_⟩
  generalize linkDown hl 0 4 s = u at hltssm hdl hdown hcnt ⊢
  have hsteady : Steady u (hlEvent hl .HL_HOT_RESET (emit (.phy hl 0 0) u)) :=
    Steady.raiseCause (Steady.wr (Steady.other (.refl u)))
  have hm := moves_hlEvent (h' := hl) (f := .HL_HOT_RESET) (.refl (foot_hlEvent .HL_HOT_RESET) (emit (.phy hl 0 0) u)) (within_self _)
  refine ⟨(hsteady.link hl (by rw [hltssm]; decide)).trans hltssm, (hm.reg .HL_DL_UP hl 0 (by decide +kernel)).trans hdl, ?_,
    (hm.reg .HL_DL_DOWN hl 0 (by decide +kernel)).trans hdown, (hm.reg .HL_DOWN_CNT hl 0 (by decide +kernel)).trans hcnt⟩
  unfold hlEvent
  rw [(moves_raiseCause (.refl foot_raiseCause _) (within_self _)).reg .HL_HOT_RESET hl 0 (by decide +kernel)]
  exact rd_wr _ .HL_HOT_RESET 1 hl 0

/-- PERST_N of a link is low. -/
def perstLow (h : Nat) (s : State) : State := (s.modPins (fun p => { p with perst := setBit p.perst h })).wr .HL_PERST 1 h

/-- A link that PERST_N holds has nothing of its run. -/
def perstForgot (h : Nat) (s : State) : State :=
  (linkDown h 10 4 s).modHl h (fun l => { l with disabled := false, margining := [], perstFell := false })

theorem perstAssert_eq {hl : Hl} {s : State} (hhigh : s.pins.perst.testBit hl = false) (hlive : hlLive s hl = true) :
    exec (.perstAssert hl) s = .next (hlEvent hl .HL_PERST_ASSERT (perstForgot hl (perstLow hl s))) := by
  have hpresent : s.present hl = true := (Bool.and_eq_true_iff.1 hlive).1
  have hlow : when ((s.modPins (fun p => { p with perst := setBit p.perst hl })).present hl) (fun s => s.wr .HL_PERST 1 hl)
      (s.modPins (fun p => { p with perst := setBit p.perst hl })) = perstLow hl s := when_of _ _ hpresent
  have hlive' : hlLive (perstLow hl s) hl = true := by
    have hrd (f : Fld) (hf : f ≠ .HL_PERST) (i j : Nat) : (perstLow hl s).rd f i j = s.rd f i j := rd_wr_ne _ fun e => hf e.1
    rw [← hlive]
    simp only [hlLive, State.present, State.tlOn, State.domOn, State.on, hrd _ (show Fld.HL_PRESENT ≠ .HL_PERST by decide),
      hrd _ (show Fld.PW_STATE ≠ .HL_PERST by decide)]
  change execPerstAssert hl s = _
  unfold execPerstAssert
  dsimp only
  rw [hhigh, if_neg Bool.false_ne_true]
  rw [hlow, hlive']
  rfl

theorem perst_assert {hl : Hl} {s : State} (hhigh : s.pins.perst.testBit hl = false) (hlive : hlLive s hl = true) :
    Completes (.perstAssert hl) s (fun t => t.pins.perst.testBit hl = true ∧ t.rd .HL_PERST hl = 1 ∧ t.rd .HL_LTSSM hl = 10 ∧
      t.rd .HL_DL_UP hl = 0 ∧ t.rd .HL_PERST_ASSERT hl = 1) := by
  refine ⟨_, perstAssert_eq hhigh hlive, ?_⟩
  obtain ⟨hltssm, hdl, -⟩ := linkDown_spec (h := hl) (cause := 4) (s := perstLow hl s) (ltssm := 10) (.inr (.inr rfl))
  have hkeep := linkDown_keeps hl 10 4 (perstLow hl s)
  have hpins : (perstForgot hl (perstLow hl s)).pins.perst.testBit hl = true := by
    change (linkDown hl 10 4 (perstLow hl s)).pins.perst.testBit hl = true
    rw [show (linkDown hl 10 4 (perstLow hl s)).pins = (perstLow hl s).pins from hkeep.part .pins (by decide +kernel)]
    exact testBit_setBit_self _ _
  have hperst : (perstForgot hl (perstLow hl s)).rd .HL_PERST hl = 1 :=
    (hkeep.reg .HL_PERST hl 0 (by decide +kernel)).trans (rd_wr _ .HL_PERST 1 hl 0)
  have hltssm' : (perstForgot hl (perstLow hl s)).rd .HL_LTSSM hl = 10 := hltssm
  have hdl' : (perstForgot hl (perstLow hl s)).rd .HL_DL_UP hl = 0 := hdl
  clear hltssm hdl hkeep
  generalize perstForgot hl (perstLow hl s) = u at hpins hperst hltssm' hdl' ⊢
  have hsteady : Steady u (hlEvent hl .HL_PERST_ASSERT u) := (Steady.wr (.refl u)).raiseCause
  have hm := moves_hlEvent (h' := hl) (f := .HL_PERST_ASSERT) (.refl (foot_hlEvent .HL_PERST_ASSERT) u) (within_self _)
  refine ⟨?_, (hm.reg .HL_PERST hl 0 (by decide +kernel)).trans hperst,
    (hsteady.link hl (by rw [hltssm']; decide)).trans hltssm', (hm.reg .HL_DL_UP hl 0 (by decide +kernel)).trans hdl', ?_⟩
  · rw [show (hlEvent hl .HL_PERST_ASSERT u).pins = u.pins from hm.part .pins (by decide +kernel), hpins]
  · unfold hlEvent
    rw [(moves_raiseCause (.refl foot_raiseCause _) (within_self _)).reg .HL_PERST_ASSERT hl 0 (by decide +kernel)]
    exact rd_wr _ .HL_PERST_ASSERT 1 hl 0

theorem testBit_clrBit_self (v n : Nat) : (clrBit v n).testBit n = false := by
  unfold clrBit
  split
  next hset =>
    rw [Nat.testBit_eq_decide_div_mod_eq, decide_eq_true_eq] at hset
    have hdiv := Nat.sub_mul_div v (2 ^ n) 1
    rw [Nat.mul_one] at hdiv
    rw [Nat.testBit_eq_decide_div_mod_eq, hdiv, decide_eq_false_iff_not]
    omega
  next hclear => exact Bool.eq_false_iff.2 hclear

/-- What PERST_N's return leaves of the link. -/
def perstHigh (h : Nat) (s : State) : State :=
  (s.modPins (fun p => { p with perst := clrBit p.perst h })).modHl h (fun l => { l with wakeDriven := false, inL2 := false })

/-- What PERST_N's return shows of a link. -/
def Deasserted (h : Nat) (s t : State) : Prop :=
  t.pins.perst.testBit h = false ∧ (t.hl h).wakeDriven = false ∧ (hlLive s h = true → t.rd .HL_PERST h = 0)

theorem perst_deassert (hl : Hl) (s : State) : Completes (.perstDeassert hl) s (fun t => t.pins.perst.testBit hl = false ∧
    (t.hl hl).wakeDriven = false ∧ (hlLive s hl = true → t.rd .HL_PERST hl = 0)) := by
  refine ⟨_, rfl, ?_⟩
  have hclear : (perstHigh hl s).pins.perst.testBit hl = false := by
    change (clrBit s.pins.perst hl).testBit hl = false
    exact testBit_clrBit_self _ _
  have hdriven : ((perstHigh hl s).hl hl).wakeDriven = false := by
    unfold perstHigh
    rw [modHl_hl, if_pos rfl]
  have hw : Deasserted hl s (when ((perstHigh hl s).present hl) (fun s => s.wr .HL_PERST 0 hl) (perstHigh hl s)) := by
    cases hpresent : (perstHigh hl s).present hl with
    | false =>
      refine ⟨hclear, hdriven, fun hlive => ?_⟩
      have hthere : s.present hl = true := (Bool.and_eq_true_iff.1 hlive).1
      exact absurd (hthere.symm.trans hpresent) nofun
    | true => exact ⟨hclear, hdriven, fun _ => rd_wr _ .HL_PERST 0 hl 0⟩
  exact when_cases (P := Deasserted hl s) hw hw

theorem link_disable {hl : Hl} {s : State} (hlive : hlLive s hl = true) (h10 : s.rd .HL_LTSSM hl ≠ 10) (h7 : s.rd .HL_LTSSM hl ≠ 7) :
    Completes (.linkDisable hl) s (fun t => t.rd .HL_LTSSM hl = 7 ∧ t.rd .HL_DL_UP hl = 0 ∧ (t.hl hl).disabled = true) := by
  refine ⟨_, congrArg Host.Outcome.next (when_of _ s (by simp [hlive, h10, h7])), ?_⟩
  obtain ⟨hltssm, hdl, -⟩ := linkDown_spec (h := hl) (cause := 4) (s := s) (ltssm := 7) (.inr (.inl rfl))
  refine ⟨hltssm, hdl, ?_⟩
  rw [modHl_hl, if_pos rfl]

theorem link_disable_end {hl : Hl} {s : State} (hlive : hlLive s hl = true) (hdis : (s.hl hl).disabled = true)
    (h7 : s.rd .HL_LTSSM hl = 7) : Completes (.linkDisableEnd hl) s (fun t => t.rd .HL_LTSSM hl = 0 ∧ (t.hl hl).disabled = false) := by
  refine ⟨_, congrArg Host.Outcome.next ((when_of _ s (by rw [hlive, hdis]; rfl)).trans (when_of _ _ (beq_iff_eq.2 h7))), ?_, ?_⟩
  · exact rd_wr _ .HL_LTSSM 0 hl 0
  · change ((s.modHl hl (fun l => { l with disabled := false })).hl hl).disabled = false
    rw [modHl_hl, if_pos rfl]

theorem hold_write {fn : Fn} {hl : Hl} {hold : Bool} {s : State} (hmgr : mgrWrites s fn = true) (hlive : hlLive s hl = true) :
    Completes (.hlHoldWrite fn hl hold) s (fun t => t.rd .HL_HOLD hl = (if hold then 1 else 0) ∧
      (hold = true → t.rd .HL_LTSSM hl = 10)) := by
  refine ⟨_, congrArg Host.Outcome.next (when_of _ s (by rw [hmgr, hlive]; rfl)), ?_⟩
  have hset : (s.wr .HL_HOLD (if hold then 1 else 0) hl).rd .HL_HOLD hl = (if hold then 1 else 0) := by
    rw [rd_wr]
    cases hold <;> rfl
  unfold writeHold
  dsimp only
  generalize s.wr .HL_HOLD (if hold then 1 else 0) hl = u at hset ⊢
  cases hold with
  | false => exact ⟨hset, nofun⟩
  | true =>
    by_cases h10 : u.rd .HL_LTSSM hl = 10
    · rw [if_pos (by simp [h10])]
      exact ⟨hset, fun _ => h10⟩
    rw [if_neg (by simp [h10])]
    split
    · obtain ⟨hltssm, -, -⟩ := linkDown_spec (h := hl) (cause := 4) (s := u) (ltssm := 10) (.inr (.inr rfl))
      have hhold := (linkDown_keeps hl 10 4 u).reg .HL_HOLD hl 0 (by decide +kernel)
      rw [modHl_rd, modHl_rd, hltssm, hhold]
      exact ⟨hset, fun _ => rfl⟩
    · have hhold := (moves_endRun (h' := hl) (ltssm := 10) (.refl foot_endRun u) (within_self _)).reg .HL_HOLD hl 0 (by decide +kernel)
      rw [modHl_rd, modHl_rd, (endRun_regs hl 10 u).1, hhold]
      exact ⟨hset, fun _ => rfl⟩

/-- Settles O9: the run ends first, and nothing that follows it in the step moves a link that is not in L1. -/
theorem hostLinkResets : Obligations.HostLinkResets := by
  unfold Obligations.HostLinkResets
  refine ⟨fun hl s => perst_assert, perst_deassert, fun hl s hlive hup => ⟨hot_reset hlive hup, ?_⟩, fun hl s => link_disable,
    fun hl s => link_disable_end, fun fn hl hold s => hold_write, fun hl s t hlive hup ht => ?_⟩
  · obtain ⟨hltssm, hdl, hrep⟩ := linkDown_spec (h := hl) (cause := 4) (s := s) (ltssm := 0) (.inl rfl)
    exact ⟨_, dl_down hlive hup, hltssm, hdl, hrep hup⟩
  · obtain rfl := Host.Outcome.next.inj ((dl_down hlive hup).symm.trans ht)
    obtain ⟨hbme, hvf⟩ := linkDown_pf hl 0 4 s
    have hkeep := linkDown_keeps hl 0 4 s
    have hseat := (Seat.refl s).linkDown (hl := hl) (ltssm := 0) (cause := 4)
    exact ⟨hbme, hvf, hkeep.reg .HL_TARGET_SPEED hl 0 (by decide +kernel), hkeep.reg .HL_HOLD hl 0 (by decide +kernel),
      hseat.mgrHl, hseat.mgrSmp⟩

end Sys2Proof.Proofs
end

section
/-!
What configuration writes do to functions (R56, R65, R72, R74, R81, R156 to R158).
-/
namespace Sys2Proof.Proofs
open Sys2Proof Sys2Proof.Machine Sys2Proof.Laws
set_option Elab.async false

/-! ### A function-level reset (R65, R158) -/

/-- The enables of a function that was reset are clear. -/
def Disabled (c : FnCfg) : Prop := c.bme = false ∧ c.mse = false ∧ c.msixEn = false

theorem disabled_afterReset (flr : Bool) (bar2 : Nat) (c : FnCfg) : Disabled (c.afterReset flr bar2) := ⟨rfl, rfl, rfl⟩

/-- A VF that is reset is forgotten, or keeps a configuration without enables. -/
theorem fnForget_disabled {flr : Bool} {mine : Nat → Bool} {f : Nat} (hm : mine f = true) (hv : fnVf f ≠ 0) (s : State) :
    Disabled ((fnForget flr mine s).cf f) := by
  unfold fnForget State.cf
  dsimp only
  induction s.cfg with
  | nil => exact ⟨rfl, rfl, rfl⟩
  | cons e l ih =>
    obtain ⟨k, c⟩ := e
    rw [List.filterMap_cons]
    by_cases hk : k = f
    · subst hk
      rw [if_pos (by simp [hm, hv])]
      dsimp only
      split
      next hnone => exact ih
      next e' hsome =>
        split at hsome
        · cases hsome
        · cases hsome
          rw [tget, if_pos rfl]
          exact disabled_afterReset ..
    · split
      next hnone => exact ih
      next e' hsome =>
        have hkey : e'.1 = k := by
          split at hsome
          · dsimp only at hsome
            split at hsome <;> cases hsome
            rfl
          · cases hsome
            rfl
        rw [tget, if_neg (by rw [hkey]; exact hk)]
        exact ih

/-- The registers of functions that their reset returns to their reset values. -/
def ofFns (mine : Nat → Bool) (k : RegKey) : Bool := (k.f.blk == .fnirq || k.f.blk == .cmdring) && k.f != .FI_VEC_COUNT && mine k.i

/-- The function's enables are clear, and so are its event enable and its ring. -/
theorem fnReset_spec {h f : Nat} {flr : Bool} {p : Nat → Bool} (hf : fnHl f = h) (hp : p (fnVf f) = true) (hpf : f = pfIdx h ∨ fnVf f ≠ 0)
    (s : State) : Disabled ((fnReset h flr p s).cf f) ∧ (fnReset h flr p s).rd .FI_FN_EVENT_EN f = 0 ∧ (fnReset h flr p s).rd .KR_EN f = 0 := by
  unfold fnReset
  extract_lets mine es s1 s2 s3 pf s4
  have hmine : mine f = true := by simp [mine, hf, hp]
  have hregs : s4.rd .FI_FN_EVENT_EN f = 0 ∧ s4.rd .KR_EN f = 0 := by
    constructor
    · exact rd_resetRegs s2 (ofFns mine) (f := .FI_FN_EVENT_EN) (i := f) (j := 0) (Bool.and_eq_true_iff.2 ⟨by rfl, hmine⟩)
    · exact rd_resetRegs s2 (ofFns mine) (f := .KR_EN) (i := f) (j := 0) (Bool.and_eq_true_iff.2 ⟨by rfl, hmine⟩)
  have hpaused (z : State) : (pauseStream z).cf = z.cf := by
    funext g
    rw [State.cf, show (pauseStream z).cfg = z.cfg from
      (moves_pauseStream (.refl foot_pauseStream z) (within_self _)).part .cfg (by decide +kernel), State.cf]
  have hpausedReg (g : Fld) (hg : foot_pauseStream.testBit (fbit g) = false) (z : State) : (pauseStream z).rd g f = z.rd g f :=
    (moves_pauseStream (.refl foot_pauseStream z) (within_self _)).reg g f 0 hg
  split
  next hp0 =>
    refine ⟨?_, (hpausedReg _ (by decide +kernel) _).trans hregs.1, (hpausedReg _ (by decide +kernel) _).trans hregs.2⟩
    rw [hpaused, modCf_cf]
    split
    next he => exact disabled_afterReset ..
    next he => exact fnForget_disabled hmine (hpf.resolve_left he) s3
  next hp0 =>
    have hv : fnVf f ≠ 0 := fun h0 => hp0 (h0 ▸ hp)
    exact ⟨fnForget_disabled hmine hv s3, hregs⟩

/-- What a function shows once it was reset. -/
def FnCleared (f : Nat) (t : State) : Prop :=
  (t.cf f).bme = false ∧ (t.cf f).mse = false ∧ (t.cf f).msixEn = false ∧ t.rd .FI_FN_EVENT_EN f = 0 ∧ t.rd .KR_EN f = 0

theorem cleared_showExcused {h f : Nat} {flr : Bool} {p : Nat → Bool} (hf : fnHl f = h) (hp : p (fnVf f) = true)
    (hpf : f = pfIdx h ∨ fnVf f ≠ 0) (s : State) : FnCleared f (showExcused (fnReset h flr p s)) := by
  obtain ⟨⟨hbme, hmse, hmsix⟩, hev, hen⟩ := fnReset_spec (flr := flr) hf hp hpf s
  have hm := moves_showExcused (.refl foot_showExcused (fnReset h flr p s)) (within_self _)
  have hcf : (showExcused (fnReset h flr p s)).cf f = (fnReset h flr p s).cf f := by
    rw [State.cf, show (showExcused (fnReset h flr p s)).cfg = (fnReset h flr p s).cfg from hm.part .cfg (by decide +kernel), State.cf]
  unfold FnCleared
  rw [hcf, hm.reg .FI_FN_EVENT_EN f 0 (by decide +kernel), hm.reg .KR_EN f 0 (by decide +kernel)]
  exact ⟨hbme, hmse, hmsix, hev, hen⟩

theorem cleared_flrFn (fn : Fn) (s : State) : FnCleared (fnIdx fn) (flrFn (fnIdx fn) s) := by
  unfold flrFn
  split
  next hv =>
    refine cleared_showExcused rfl (by simp [hv]) (.inl ?_) _
    have hpos := Nat.div_add_mod (fnIdx fn) 256
    simp only [fnVf, fnHl, pfIdx] at hv ⊢
    omega
  next hv => exact cleared_showExcused rfl (by simp) (.inr hv) _

/-! ### Enables of a function (R56, R72, R74, R156, R157) -/

/-- A change of a function's configuration that the rest of the step leaves. -/
theorem cf_after {f : Nat} {g : FnCfg → FnCfg} {s t : State} (h : Steady (s.modCf f g) t) : cfCore (t.cf f) = cfCore (g (s.cf f)) := by
  rw [h.core, modCf_cf, if_pos rfl]

theorem d3_of_core {c d : FnCfg} (h : cfCore c = cfCore d) : c.d3 = d.d3 := by simpa only [cfCore] using congrArg FnCfg.d3 h

theorem clearBme_off (f : Nat) (s : State) : ((clearBme f s).cf f).bme = false := by
  unfold clearBme
  split
  · rw [(enables_of_core (cf_after (Steady.refl _).stopFn.pauseStream)).1]
  next h => exact Bool.eq_false_iff.2 h

theorem setBme_on (f : Nat) (s : State) : ((setBme f s).cf f).bme = true := by
  unfold setBme
  split
  next h => exact h
  · rw [(enables_of_core (cf_after (Steady.refl _).releaseVecs)).1]

theorem enterD3_on (h : Nat) (s : State) : ((enterD3 h s).cf (pfIdx h)).d3 = true := by
  unfold enterD3
  split
  next h => exact h
  · rw [d3_of_core (cf_after ((Steady.refl _).each fun f z hz => hz.stopFn).pauseStream)]

theorem leaveD3_off (h : Nat) (s : State) : ((leaveD3 h s).cf (pfIdx h)).d3 = false := by
  unfold leaveD3
  split
  · rw [d3_of_core (cf_after ((Steady.refl _).each fun f z hz => hz.releaseVecs))]
  next h => exact Bool.eq_false_iff.2 h

theorem cf_modHl (s : State) (h : Nat) (g : HlS → HlS) (f : Nat) : (s.modHl h g).cf f = s.cf f := rfl

theorem setVfEnable_on (h : Nat) (s : State) : ((setVfEnable h s).cf (pfIdx h)).vfEnable = true := by
  unfold setVfEnable
  split
  next h => exact h
  · rw [cf_modHl, modCf_cf, if_pos rfl]

/-- VF Enable that becomes 1 asks for the VFs to become ready (R65). -/
theorem setVfEnable_pending {h : Nat} {s : State} (hoff : (s.cf (pfIdx h)).vfEnable = false) :
    ((setVfEnable h s).cf (pfIdx h)).vfsReady = false ∧ ((setVfEnable h s).hl h).vfPending = true := by
  unfold setVfEnable
  rw [if_neg (by rw [hoff]; exact Bool.false_ne_true), cf_modHl, modCf_cf, if_pos rfl, modHl_hl, if_pos rfl]
  exact ⟨rfl, rfl⟩

theorem clearVfs_off (h : Nat) (s : State) : ((clearVfs h s).cf (pfIdx h)).vfEnable = false ∧
    ((s.cf (pfIdx h)).vfEnable = true → ((clearVfs h s).cf (pfIdx h)).vfsReady = false ∧ ((clearVfs h s).hl h).vfPending = false) := by
  unfold clearVfs
  dsimp only
  split
  · rw [cf_modHl, modCf_cf, if_pos rfl, modHl_hl, if_pos rfl]
    exact ⟨rfl, fun _ => ⟨rfl, rfl⟩⟩
  next hoff => exact ⟨Bool.eq_false_iff.2 hoff, fun h => absurd h hoff⟩

theorem vfs_ready {hl : Hl} {s : State} (hlive : hlLive s hl = true) (hpend : (s.hl hl).vfPending = true)
    (hen : (s.cf (pfIdx hl)).vfEnable = true) : Completes (.vfReady hl) s (fun t => (t.cf (pfIdx hl)).vfsReady = true ∧
      (s.dlUp hl = true → Out.msg (fnOf (pfIdx hl)) .frs ∈ t.out)) := by
  refine ⟨_, congrArg Host.Outcome.next (when_of _ s (by rw [hlive, hpend, hen]; rfl)), ?_, fun hup => ?_⟩
  · rw [State.cf, show (sendMsg (pfIdx hl) .frs _).cfg = _ from
      (moves_sendMsg (.refl foot_sendMsg _) (within_self _)).part .cfg (by decide +kernel), ← State.cf, cf_modHl, modCf_cf, if_pos rfl]
  · refine sendMsg_out ?_
    rw [fnHl_pfIdx]
    exact hup

theorem numVfs_write (h v : Nat) (s : State) : ((writeNumVfs h v s).cf (pfIdx h)).numVfs =
    if (s.cf (pfIdx h)).vfEnable then (s.cf (pfIdx h)).numVfs else min v (if recovery s then 0 else tget 0 s.store.totalVfs h) := by
  unfold writeNumVfs
  split
  · rfl
  · rw [modCf_cf, if_pos rfl]
    rfl

/-- Settles O12: the function's own change is made last, or left by what follows it in the step. -/
theorem functionControl : Obligations.FunctionControl := by
  unfold Obligations.FunctionControl
  refine ⟨fun hl s hs hoff => ?_, fun hl s hs => ⟨?_, ?_, ?_, ?_⟩, fun hl s => vfs_ready, fun fn s hs => ⟨?_, ?_, ?_⟩,
    fun hl v s hs => ?_, fun hl v s hs hlo hhi => ?_⟩
  · exact ⟨_, congrArg Host.Outcome.next (when_of _ s hs), setVfEnable_on hl s, setVfEnable_pending hoff⟩
  · exact ⟨_, congrArg Host.Outcome.next (when_of _ s hs), setVfEnable_on hl s⟩
  · exact ⟨_, congrArg Host.Outcome.next (when_of _ s hs), clearVfs_off hl s⟩
  · exact ⟨_, congrArg Host.Outcome.next (when_of _ s hs), enterD3_on hl s⟩
  · exact ⟨_, congrArg Host.Outcome.next (when_of _ s hs), leaveD3_off hl s⟩
  · exact ⟨_, congrArg Host.Outcome.next (when_of _ s hs), cleared_flrFn fn s⟩
  · exact ⟨_, congrArg Host.Outcome.next (when_of _ s hs), clearBme_off _ s⟩
  · exact ⟨_, congrArg Host.Outcome.next (when_of _ s hs), setBme_on _ s⟩
  · exact ⟨_, congrArg Host.Outcome.next (when_of _ s hs), numVfs_write hl v.toNat s⟩
  · refine ⟨_, congrArg Host.Outcome.next ((when_of _ s hs).trans (when_of _ s (by simp [hlo, hhi]))), ?_⟩
    dsimp only
    rw [modCf_cf, if_pos rfl]

end Sys2Proof.Proofs
end

section
/-!
Grains received by a Weaseif link, and what starts and stops a link (R187, R189, R192, R193, R198 to R203, R207).
-/
namespace Sys2Proof.Proofs
open Sys2Proof Sys2Proof.Machine Sys2Proof.Laws
set_option Elab.async false

/-! ### Grains sent leave what is received -/

/-- The packet that a link is receiving and those it has received. -/
def rxSide (w : WlS) : Option Bytes × Nat × List RxPkt := (w.rxAsm, w.rxFirst, w.rxQ)

theorem phaseNow_cad {s t : State} (h : t.cad = s.cad) (hera : t.rd .CAD_ERA = s.rd .CAD_ERA) : phaseNow t = phaseNow s := by
  rw [phaseNow, phaseNow, State.now, State.now, h, State.era, State.era, hera]

theorem of_rxSide {w : WlS} {a : Option Bytes} {m : Nat} {q : List RxPkt} (h : rxSide w = (a, m, q)) : w.rxAsm = a ∧ w.rxQ = q := by
  simp only [rxSide, Prod.mk.injEq] at h
  exact ⟨h.1, h.2.2⟩

theorem sendSlot_wls (n k : Nat) (g : Grain) (s : State) : (sendSlot n k g s).wls = s.wls := rfl

/-- A grain that leaves takes no acknowledgement with it that another still owes. -/
theorem emitGrain_wls (n : Nat) (inject : Bool) (g : Grain) (s : State) :
    (emitGrain n inject g s).wls = (s.modWl n (fun w => { w with ackPending := 0 })).wls := by
  have hlane (idle k : Nat) (sg : State × Grain) : (injectLane n idle k sg).1.wls = sg.1.wls := by
    unfold injectLane
    dsimp only
    split
    · rfl
    split
    · split <;> rfl
    · rfl
  have hlanes (idle : Nat) (l : List Nat) (sg : State × Grain) : (l.foldl (fun sg k => injectLane n idle k sg) sg).1.wls = sg.1.wls := by
    induction l generalizing sg with
    | nil => rfl
    | cons k l ih => exact (ih _).trans (hlane idle k sg)
  have hwls {s t : State} (h : t.wls = s.wls) : (t.modWl n (fun w => { w with ackPending := 0 })).wls =
      (s.modWl n (fun w => { w with ackPending := 0 })).wls := by
    simp only [State.modWl, State.wl, h]
  unfold emitGrain draw
  dsimp only
  rw [sendSlot_wls]
  refine hwls ?_
  split
  · exact hlanes _ _ _
  · rfl

theorem emitGrain_rxSide (n : Nat) (inject : Bool) (g : Grain) (s : State) (k : Nat) :
    rxSide ((emitGrain n inject g s).wl k) = rxSide (s.wl k) := by
  rw [State.wl, emitGrain_wls, ← State.wl, modWl_wl]
  split
  next he => rw [he]; rfl
  next => rfl

theorem modWl_rxSide {s : State} {n : Nat} {g : WlS → WlS} (hg : ∀ w, rxSide (g w) = rxSide w) (k : Nat) :
    rxSide ((s.modWl n g).wl k) = rxSide (s.wl k) := by
  rw [modWl_wl]
  split
  next he => rw [hg, he]
  next => rfl

theorem sendSeq_rxSide (n typ sop eop : Nat) (payload : Bytes) (counted : Nat) (s : State) (k : Nat) :
    rxSide ((sendSeq n typ sop eop payload counted s).wl k) = rxSide (s.wl k) := by
  unfold sendSeq
  dsimp only
  rw [emitGrain_rxSide]
  change rxSide ((s.modWl n (fun w => { w with
    replay := w.replay ++ [⟨typ, sop, eop, s.rd .WL_NEXT_TX n, counted, payload⟩] })).wl k) = rxSide (s.wl k)
  exact modWl_rxSide (fun _ => by rfl) k

theorem sendAck_rxSide (n : Nat) (s : State) (k : Nat) : rxSide ((sendAck n s).wl k) = rxSide (s.wl k) := by
  have hhalf : rxSide ((flushHalf n s).wl k) = rxSide (s.wl k) := by
    unfold flushHalf
    split
    · split
      · rw [sendSeq_rxSide]
        exact modWl_rxSide (fun _ => by rfl) k
      · rfl
    · rfl
  unfold sendAck
  generalize flushHalf n s = u at hhalf ⊢
  dsimp only
  split
  · rw [emitGrain_rxSide, hhalf]
  · exact hhalf

/-! ### A grain with a bad CRC (R187) -/

/-- What follows where a link has too many errors. -/
def restartedFoot : Nat := foot_restartPhy ||| foot_declareDown ||| fms [.WL_ERR_LIMIT_HIT]

theorem badCrc_spec {n : Nat} {g : Grain} (hinj : g.inj = false) (s : State) :
    (badCrc n g s).rd .WL_CRC_CNT n = (s.rd .WL_CRC_CNT n + 1) % 2 ^ 64 ∧ (badCrc n g s).rd .WL_NEXT_RX n = s.rd .WL_NEXT_RX n := by
  have hward (f : Fld) (hf : foot_wardEvent.testBit (fbit f) = false) :
      (wardEvent false ⟨wlTiller n, 1, mWl n, 8, 0, 0⟩ s).rd f n = s.rd f n :=
    (moves_wardEvent (.refl foot_wardEvent s) (within_self _)).reg f n 0 hf
  unfold badCrc
  rw [hinj]
  extract_lets counts s1 s2 s3 lim
  have h3 : s3.rd .WL_CRC_CNT n = (s.rd .WL_CRC_CNT n + 1) % 2 ^ 64 ∧ s3.rd .WL_NEXT_RX n = s.rd .WL_NEXT_RX n := by
    constructor
    · rw [← hward .WL_CRC_CNT (by decide +kernel)]
      exact (rd_wr_ne _ (by rintro ⟨⟨⟩, -⟩)).trans (rd_wr _ .WL_CRC_CNT _ n 0)
    · rw [← hward .WL_NEXT_RX (by decide +kernel)]
      exact (rd_wr_ne _ (by rintro ⟨⟨⟩, -⟩)).trans (rd_wr_ne _ (by rintro ⟨⟨⟩, -⟩))
  clear_value s3 lim
  rw [if_neg (by simp [counts])]
  split
  · have hm : Moves restartedFoot s3 (restartPhy n (declareDown n (s3.wr .WL_ERR_LIMIT_HIT 1 n))) :=
      moves_restartPhy (moves_declareDown (moves_wr (f := .WL_ERR_LIMIT_HIT) (.refl restartedFoot s3) (by unfold Within; decide +kernel))
        (by unfold Within; decide +kernel)) (by unfold Within; decide +kernel)
    rw [hm.reg .WL_CRC_CNT n 0 (by decide +kernel), hm.reg .WL_NEXT_RX n 0 (by decide +kernel)]
    exact h3
  · exact h3

/-! ### A good grain (R189) -/

/-- Where a received sequence number lies. -/
def seqBehind (s : State) (n : Nat) (g : Grain) : Nat := (s.rd .WL_NEXT_RX n + 4096 - g.seq) % 4096

theorem goodGrain_data {n : Nat} {g : Grain} {s : State} (hup : s.rd .WL_LSTATE n = 2) (htyp : g.typ = 1 ∨ g.typ = 2) :
    goodGrain n g s = if seqBehind s n g = 0 then acceptGrain n g (s.wr .WL_PARTNER_HEALTH g.health n)
      else applyFields n g ((s.wr .WL_PARTNER_HEALTH g.health n).inc (if seqBehind s n g ≤ 2048 then .WL_DUP_CNT else .WL_SEQ_CNT) n) := by
  have hst : (s.wr .WL_PARTNER_HEALTH g.health n).rd .WL_LSTATE n = 2 := (rd_wr_ne s (by rintro ⟨⟨⟩, -⟩)).trans hup
  have hnext : (s.wr .WL_PARTNER_HEALTH g.health n).rd .WL_NEXT_RX n = s.rd .WL_NEXT_RX n := rd_wr_ne s (by rintro ⟨⟨⟩, -⟩)
  unfold goodGrain seqBehind
  dsimp only
  rw [hst, hnext]
  rcases htyp with h | h <;> simp [h]

/-- What the contents of an accepted grain may move. -/
def acceptFoot : Nat := foot_applyFields ||| foot_rxData ||| foot_linkMsgRcvd ||| foot_sendAck

/-- The next in sequence is accepted, whatever it carries. -/
theorem acceptGrain_spec {n : Nat} {g : Grain} {s : State} :
    (acceptGrain n g s).rd .WL_NEXT_RX n = (s.rd .WL_NEXT_RX n + 1) % 4096 ∧
    (acceptGrain n g s).rd .WL_RX_CNT n = (s.rd .WL_RX_CNT n + 1) % 2 ^ 64 := by
  unfold acceptGrain
  extract_lets s1 s2 s3 s4
  have h2 : s2.rd .WL_NEXT_RX n = (s.rd .WL_NEXT_RX n + 1) % 4096 ∧ s2.rd .WL_RX_CNT n = (s.rd .WL_RX_CNT n + 1) % 2 ^ 64 := by
    constructor
    · refine (rd_wr_ne _ (by rintro ⟨⟨⟩, -⟩)).trans ((rd_wr s .WL_NEXT_RX _ n 0).trans (Nat.mod_eq_of_lt ?_))
      exact Nat.mod_lt _ (by decide)
    · refine (rd_wr _ .WL_RX_CNT _ n 0).trans ?_
      rw [rd_wr_ne s (by rintro ⟨⟨⟩, -⟩)]
      rfl
  have hm : Moves acceptFoot s2 (when (s4.rd .WL_LSTATE n == 2 && decide (32 ≤ (s4.wl n).ackPending)) (sendAck n) s4) := by
    have h3 : Moves acceptFoot s2 s3 := moves_applyFields (.refl acceptFoot s2) (by unfold Within; decide +kernel)
    have h4 : Moves acceptFoot s2 s4 := by
      refine moves_when h3 fun z hz => ?_
      split
      · exact moves_rxData hz (by unfold Within; decide +kernel)
      · exact moves_linkMsgRcvd hz (by unfold Within; decide +kernel)
    exact moves_when h4 fun z hz => moves_sendAck hz (by unfold Within; decide +kernel)
  rw [hm.reg .WL_NEXT_RX n 0 (by decide +kernel), hm.reg .WL_RX_CNT n 0 (by decide +kernel)]
  exact h2

/-- A first half that is a whole packet in credit is received at once. -/
theorem rxHalf_packet {n was : Nat} {b : Bytes} {s : State} (hlen : b.length = 32) (hasm : (s.wl n).rxAsm = none)
    (hcredit : creditHeld s n b = true) (hneed : rxNeed b = 1) : rxSide ((rxHalf n was b true true s).wl n) =
      (none, phaseNow s, (s.wl n).rxQ ++ [⟨phaseNow s, pktOf b, false⟩]) ∧
    (rxHalf n was b true true s).regs = s.regs := by
  have hstarted : when (s.wl n).rxAsm.isSome (framing n was) s = s := when_of_not _ s (by rw [hasm]; rfl)
  unfold rxHalf
  rw [if_pos rfl]
  dsimp only
  rw [hstarted, hcredit, if_neg (by decide)]
  unfold rxCheck
  rw [wl_modWl_self]
  dsimp only
  rw [if_neg (by simp [hneed, hlen]), if_pos rfl]
  refine ⟨?_, rfl⟩
  rw [wl_modWl_self, wl_modWl_self]
  rfl

/-- A second half in which nothing starts or ends adds nothing where no packet is under way. -/
theorem rxHalf_empty {n was : Nat} {b : Bytes} {s : State} (hasm : (s.wl n).rxAsm = none) : rxHalf n was b false false s = s := by
  unfold rxHalf
  rw [if_neg Bool.false_ne_true, hasm]
  rfl

theorem rxData_packet {n : Nat} {g : Grain} {s : State} (hsop : g.sop = 1) (heop : g.eop = 1)
    (hlen : (g.payload.take 32).length = 32) (hasm : (s.wl n).rxAsm = none)
    (hcredit : creditHeld s n (g.payload.take 32) = true) (hneed : rxNeed (g.payload.take 32) = 1) : rxSide ((rxData n g s).wl n) =
      (none, phaseNow s, (s.wl n).rxQ ++ [⟨phaseNow s, pktOf (g.payload.take 32), false⟩]) := by
  obtain ⟨hside, -⟩ := rxHalf_packet (was := s.rd .WL_FRAME_CNT n) hlen hasm hcredit hneed
  unfold rxData
  dsimp only
  rw [hsop, heop, show Nat.testBit 1 0 = true from rfl, show Nat.testBit 1 1 = false from rfl]
  generalize rxHalf n (s.rd .WL_FRAME_CNT n) (g.payload.take 32) true true s = u at hside ⊢
  have hasm' : (u.wl n).rxAsm = none := congrArg Prod.fst hside
  exact when_cases (P := fun t => rxSide (t.wl n) = _) hside (by rw [rxHalf_empty hasm', hside])

/-- Nothing of a grain without ACK and credit is applied to what the link sent. -/
theorem applyFields_none {n : Nat} {g : Grain} {s : State} (hack : g.ackV = false) (hcr : g.crV = false) : applyFields n g s = s := by
  unfold applyFields
  rw [hack, hcr]
  rfl

/-- A grain that is one whole packet, in credit and without ACK or credit, hands the packet on. -/
theorem acceptGrain_packet {n : Nat} {g : Grain} {s : State} (hup : s.rd .WL_LSTATE n = 2) (htyp : g.typ = 1) (hack : g.ackV = false)
    (hcr : g.crV = false) (hsop : g.sop = 1) (heop : g.eop = 1) (hlen : (g.payload.take 32).length = 32) (hasm : (s.wl n).rxAsm = none)
    (hcredit : creditHeld s n (g.payload.take 32) = true) (hneed : rxNeed (g.payload.take 32) = 1) :
    ((acceptGrain n g s).wl n).rxAsm = none ∧
    ((acceptGrain n g s).wl n).rxQ = (s.wl n).rxQ ++ [⟨phaseNow s, pktOf (g.payload.take 32), false⟩] := by
  unfold acceptGrain
  extract_lets s1 s2 s3 s4
  have hwl : s2.wl n = { s.wl n with accAny := true, ackPending := (s.wl n).ackPending + 1 } := by
    unfold s2
    rw [wl_modWl_self]
    rfl
  have hup2 : s2.rd .WL_LSTATE n = 2 := ((rd_wr_ne _ (by rintro ⟨⟨⟩, -⟩)).trans (rd_wr_ne s (by rintro ⟨⟨⟩, -⟩))).trans hup
  have h3 : s3 = s2 := applyFields_none hack hcr
  have hcredit2 : creditHeld s2 n (g.payload.take 32) = true := by
    simp only [creditHeld, hwl]
    exact hcredit
  have h4 : s4 = rxData n g s2 := by
    unfold s4
    rw [h3, when_of _ _ (by rw [hup2]; rfl), htyp, if_pos rfl]
  have hside := rxData_packet hsop heop hlen (show (s2.wl n).rxAsm = none by rw [hwl]; exact hasm) hcredit2 hneed
  rw [← h4, hwl, phaseNow_cad (s := s) (t := s2) rfl
    ((rd_wr_ne _ (by rintro ⟨⟨⟩, -⟩)).trans (rd_wr_ne s (by rintro ⟨⟨⟩, -⟩)))] at hside
  clear_value s4
  refine when_cases (P := fun t => (t.wl n).rxAsm = none ∧
    (t.wl n).rxQ = (s.wl n).rxQ ++ [⟨phaseNow s, pktOf (g.payload.take 32), false⟩]) (of_rxSide hside) ?_
  have hlast := sendAck_rxSide n s4 n
  rw [hside] at hlast
  exact of_rxSide hlast

theorem grain_received {wl : Wl} {g : Grain} {s : State} (hlen : g.payload.length = 64) (hpass : grainsPass s wl = true) :
    exec (.grainReceived wl g) s = .next ((if crcOk g then goodGrain wl g else badCrc wl g) s) := by
  change execGrainReceived wl g s = _
  unfold execGrainReceived
  dsimp only
  rw [if_neg (by simp [hlen]), when_of _ s hpass]

theorem grain_bad {wl : Wl} {g : Grain} {s : State} (hlen : g.payload.length = 64) (hpass : grainsPass s wl = true)
    (hcrc : crcOk g = false) (hinj : g.inj = false) : Completes (.grainReceived wl g) s (fun t =>
      t.rd .WL_CRC_CNT wl = (s.rd .WL_CRC_CNT wl + 1) % 2 ^ 64 ∧ t.rd .WL_NEXT_RX wl = s.rd .WL_NEXT_RX wl) := by
  refine ⟨_, grain_received hlen hpass, ?_⟩
  rw [hcrc, if_neg Bool.false_ne_true]
  exact badCrc_spec hinj s

theorem grain_good {wl : Wl} {g : Grain} {s : State} (hlen : g.payload.length = 64) (hpass : grainsPass s wl = true)
    (hcrc : crcOk g = true) : exec (.grainReceived wl g) s = .next (goodGrain wl g s) := by
  rw [grain_received hlen hpass, hcrc, if_pos rfl]

theorem grain_next {wl : Wl} {g : Grain} {s : State} (hlen : g.payload.length = 64) (hpass : grainsPass s wl = true)
    (hup : s.rd .WL_LSTATE wl = 2) (hcrc : crcOk g = true) (htyp : g.typ = 1 ∨ g.typ = 2) (hseq : g.seq = s.rd .WL_NEXT_RX wl) :
    exec (.grainReceived wl g) s = .next (acceptGrain wl g (s.wr .WL_PARTNER_HEALTH g.health wl)) := by
  rw [grain_good hlen hpass hcrc, goodGrain_data hup htyp, if_pos (by simp [seqBehind, hseq])]

/-- One that is not the next is counted, and not accepted. -/
theorem grain_outside {wl : Wl} {g : Grain} {s : State} (hlen : g.payload.length = 64) (hpass : grainsPass s wl = true)
    (hup : s.rd .WL_LSTATE wl = 2) (hcrc : crcOk g = true) (htyp : g.typ = 1 ∨ g.typ = 2) (hb : seqBehind s wl g ≠ 0) {cnt : Fld}
    (hcnt : (if seqBehind s wl g ≤ 2048 then .WL_DUP_CNT else .WL_SEQ_CNT) = cnt) (hw : cnt.width = 64)
    (hf : foot_applyFields.testBit (fbit cnt) = false) (hne : Fld.WL_NEXT_RX ≠ cnt ∧ Fld.WL_RX_CNT ≠ cnt ∧ Fld.WL_PARTNER_HEALTH ≠ cnt) :
    Completes (.grainReceived wl g) s (fun t => t.rd .WL_NEXT_RX wl = s.rd .WL_NEXT_RX wl ∧
      t.rd cnt wl = (s.rd cnt wl + 1) % 2 ^ 64 ∧ t.rd .WL_RX_CNT wl = s.rd .WL_RX_CNT wl) := by
  have hm := moves_applyFields (n := wl) (g := g)
    (.refl foot_applyFields ((s.wr .WL_PARTNER_HEALTH g.health wl).inc cnt wl)) (within_self _)
  refine ⟨_, (grain_good hlen hpass hcrc).trans (congrArg Host.Outcome.next ((goodGrain_data hup htyp).trans (if_neg hb))), ?_⟩
  dsimp only
  rw [hcnt, hm.reg .WL_NEXT_RX wl 0 (by decide +kernel), hm.reg cnt wl 0 hf, hm.reg .WL_RX_CNT wl 0 (by decide +kernel)]
  obtain ⟨hnext, hrx, hhealth⟩ := hne
  refine ⟨(rd_wr_ne _ fun e => hnext e.1).trans (rd_wr_ne s (by rintro ⟨⟨⟩, -⟩)), ?_,
    (rd_wr_ne _ fun e => hrx e.1).trans (rd_wr_ne s (by rintro ⟨⟨⟩, -⟩))⟩
  refine (rd_wr _ cnt _ wl 0).trans ?_
  rw [rd_wr_ne s fun e => hhealth e.1.symm, hw]

/-! ### What starts and stops a link (R193, R199 to R203, R207) -/

theorem initFails_flag (n : Nat) (s : State) : (initFails n s).rd .WL_INIT_FAIL n = 1 := by
  unfold initFails
  rw [(moves_linkLine (.refl foot_linkLine _) (within_self _)).reg .WL_INIT_FAIL n 0 (by decide +kernel)]
  exact rd_wr _ .WL_INIT_FAIL 1 n 0

theorem init_bad {wl : Wl} {b : InitBody} {s : State} (hpass : grainsPass s wl = true) (hst : s.rd .WL_LSTATE wl = 1)
    (hb : initOk b = false) : Completes (.initReceived wl b) s (fun t => t.rd .WL_INIT_FAIL wl = 1) := by
  have hrun : initRcvd wl b s = initFails wl s := by
    unfold initRcvd
    rw [hst]
    dsimp only
    rw [hb]
    rfl
  exact ⟨_, congrArg Host.Outcome.next ((when_of _ s hpass).trans hrun), initFails_flag wl s⟩

/-- The partner's INIT as the link notes it. -/
def seenInit (n : Nat) (b : InitBody) (s : State) : State :=
  s.modWl n (fun w => { w with initSeen := true, initDone := w.initDone || b.initSeen })

theorem sendInit_wl (n : Nat) (s : State) (k : Nat) : (sendInit n s).wl k = (s.modWl n (fun w => { w with ackPending := 0 })).wl k := by
  rw [State.wl, sendInit, emitGrain_wls, ← State.wl]

theorem initRcvd_confirms {n : Nat} {b : InitBody} {s : State} (hst : s.rd .WL_LSTATE n = 1) (hb : initOk b = true)
    (hseen : b.initSeen = true) (hres : (s.wl n).resume = false) :
    initRcvd n b s = linkUp n b (sendInit n (seenInit n b s)) := by
  have hdone : ((sendInit n (seenInit n b s)).wl n).initDone = true := by
    rw [sendInit_wl, wl_modWl_self, seenInit, wl_modWl_self, hseen]
    exact Bool.or_true _
  unfold initRcvd
  rw [hst]
  dsimp only
  rw [hb, if_neg (by decide), hres, when_of_not _ s (Bool.false_and _)]
  exact when_of _ _ hdone

/-- An exchange that is fresh, with nothing held, brings the link up. -/
theorem linkUp_fresh {n : Nat} {b : InitBody} {s : State} (hst : s.rd .WL_LSTATE n = 1) (hgrace : s.rd .WL_GRACE_RUN n = 0)
    (hres : (s.wl n).resume = false) : (linkUp n b s).rd .WL_LSTATE n = 2 ∧ ((linkUp n b s).wl n).peerLinkId = b.linkId := by
  unfold linkUp
  dsimp only
  rw [resumes, hres, if_neg (by simp), when_of_not _ s (by rw [State.on, hgrace]; rfl), if_neg (by rw [hst]; decide)]
  generalize startFresh n b (stopGrace n s) = u
  rw [modWl_rd, rd_wr, wl_modWl_self]
  exact ⟨rfl, rfl⟩

theorem flushLink_flag (n : Nat) (s : State) : (flushLink n true s).rd .WL_FLUSHED n = 1 := by
  unfold flushLink
  dsimp only
  rw [when_of _ _ rfl, (moves_linkLine (.refl foot_linkLine _) (within_self _)).reg .WL_FLUSHED n 0 (by decide +kernel)]
  exact rd_wr _ .WL_FLUSHED 1 n 0

/-- The partner's confirmation of a fresh exchange brings the link up. -/
theorem init_confirmed {wl : Wl} {b : InitBody} {s : State} (hpass : grainsPass s wl = true) (hst : s.rd .WL_LSTATE wl = 1)
    (hb : initOk b = true) (hseen : b.initSeen = true) (hres : (s.wl wl).resume = false) (hgrace : s.rd .WL_GRACE_RUN wl = 0) :
    Completes (.initReceived wl b) s (fun t => t.rd .WL_LSTATE wl = 2 ∧ (t.wl wl).peerLinkId = b.linkId) := by
  refine ⟨_, congrArg Host.Outcome.next ((when_of _ s hpass).trans (initRcvd_confirms hst hb hseen hres)), ?_⟩
  have hwl := sendInit_wl wl (seenInit wl b s) wl
  have hm := moves_sendInit (n := wl) (.refl foot_sendInit (seenInit wl b s)) (within_self _)
  have hst' : (sendInit wl (seenInit wl b s)).rd .WL_LSTATE wl = 1 := (hm.reg .WL_LSTATE wl 0 (by decide +kernel)).trans hst
  have hgrace' : (sendInit wl (seenInit wl b s)).rd .WL_GRACE_RUN wl = 0 := (hm.reg .WL_GRACE_RUN wl 0 (by decide +kernel)).trans hgrace
  have hres' : ((sendInit wl (seenInit wl b s)).wl wl).resume = false := by
    rw [hwl, wl_modWl_self, seenInit, wl_modWl_self]
    exact hres
  clear hm hwl
  generalize sendInit wl (seenInit wl b s) = u at hst' hgrace' hres' ⊢
  exact linkUp_fresh hst' hgrace' hres'

theorem grace_flushed {wl : Wl} {s : State} (hon : s.tlOn (wlTiller wl) = true) (hrun : s.on .WL_GRACE_RUN wl = true) :
    Completes (.graceExpiry wl) s (fun t => t.rd .WL_FLUSHED wl = 1) := by
  refine ⟨_, congrArg Host.Outcome.next (when_of _ s (by rw [hrun, hon]; rfl)), ?_⟩
  have hflushed := flushLink_flag wl (stopGrace wl s)
  dsimp only
  generalize flushLink wl true (stopGrace wl s) = u at hflushed ⊢
  split
  · exact (rd_wr_ne u (by rintro ⟨⟨⟩, -⟩)).trans hflushed
  · refine ((moves_sendInit (.refl foot_sendInit _) (within_self _)).reg .WL_FLUSHED wl 0 (by decide +kernel)).trans ?_
    exact ((moves_newLinkId (.refl foot_newLinkId _) (within_self _)).reg .WL_FLUSHED wl 0 (by decide +kernel)).trans hflushed
  · exact hflushed

theorem link_reset {fn : Fn} {wl : Wl} {s : State} (hw : wlWrites s fn wl = true) (hst : s.rd .WL_LSTATE wl ≠ 6) :
    Completes (.wlLinkResetWrite fn wl) s (fun t => t.rd .WL_LSTATE wl = 6 ∨ t.rd .WL_LSTATE wl = 0) := by
  refine ⟨_, congrArg Host.Outcome.next ((when_of _ s hw).trans (if_neg hst)), ?_⟩
  dsimp only
  generalize flushLink wl _ _ = u
  split
  next h6 => exact .inl h6
  next h6 =>
    refine .inr (((moves_leaveDisabled (.refl foot_leaveDisabled _) (within_self _)).reg .WL_LSTATE wl 0 (by decide +kernel)).trans ?_)
    rw [(moves_enterDisabled (.refl foot_enterDisabled _) (within_self _)).reg .WL_LSTATE wl 0 (by decide +kernel),
      (moves_fullChoice (.refl foot_fullChoice _) (within_self _)).reg .WL_LSTATE wl 0 (by decide +kernel),
      rd_wr_ne _ (by rintro ⟨⟨⟩, -⟩), rd_wr_ne _ (by rintro ⟨⟨⟩, -⟩), rd_wr_ne _ (by rintro ⟨⟨⟩, -⟩)]
    exact rd_wr _ .WL_LSTATE 0 wl 0

theorem halt_received {wl : Wl} {s : State} (hpass : grainsPass s wl = true) (hst : s.rd .WL_LSTATE wl = 1 ∨ s.rd .WL_LSTATE wl = 2) :
    Completes (.haltReceived wl) s (fun t => t.rd .WL_HALT_RX wl = 1) := by
  refine ⟨_, congrArg Host.Outcome.next ((when_of _ s hpass).trans (if_pos (by simpa using hst))), ?_⟩
  dsimp only
  rw [(moves_linkLine (.refl foot_linkLine _) (within_self _)).reg .WL_HALT_RX wl 0 (by decide +kernel)]
  exact (rd_wr_ne _ (by rintro ⟨⟨⟩, -⟩)).trans (rd_wr _ .WL_HALT_RX 1 wl 0)

/-- Settles O51: what follows the counts of a grain in the same step leaves them. -/
theorem grainsReceived : Obligations.GrainsReceived := by
  unfold Obligations.GrainsReceived
  refine ⟨fun wl g s hlen => if_pos hlen, fun wl g s hlen hpass hup => ⟨grain_bad hlen hpass, fun hcrc htyp => ⟨fun hseq _ => ?_,
    fun k h1 h2 hn hseq => ?_, fun k h1 h2 hn hseq => ?_⟩, fun hcrc htyp hseq _ hack hcr hsop heop hasm hcredit hneed => ?_⟩,
    fun wl b s hpass hst => ⟨init_bad hpass hst, init_confirmed hpass hst⟩, fun wl s hon => ⟨fun hst => ?_, grace_flushed hon⟩,
    fun fn wl s hw => ⟨link_reset hw, fun hlock => ?_⟩, fun wl s => halt_received⟩
  · refine ⟨_, grain_next hlen hpass hup hcrc htyp hseq, ?_⟩
    obtain ⟨hnext, hrx⟩ := acceptGrain_spec (n := wl) (g := g) (s := s.wr .WL_PARTNER_HEALTH g.health wl)
    rw [hnext, hrx, rd_wr_ne s (by rintro ⟨⟨⟩, -⟩), rd_wr_ne s (by rintro ⟨⟨⟩, -⟩), hseq]
    exact ⟨rfl, rfl⟩
  · have hb : seqBehind s wl g = k := by
      unfold seqBehind
      omega
    exact grain_outside (cnt := .WL_DUP_CNT) hlen hpass hup hcrc htyp (by omega) (by rw [hb, if_pos h2]) rfl (by decide +kernel) (by decide)
  · have hb : seqBehind s wl g = 4096 - k := by
      unfold seqBehind
      omega
    exact grain_outside (cnt := .WL_SEQ_CNT) hlen hpass hup hcrc htyp (by omega) (by rw [hb, if_neg (by omega)]) rfl (by decide +kernel) (by decide)
  · refine ⟨_, grain_next hlen hpass hup hcrc (.inl htyp) hseq, ?_⟩
    have hpacket := acceptGrain_packet ((rd_wr_ne s (by rintro ⟨⟨⟩, -⟩) : (s.wr .WL_PARTNER_HEALTH g.health wl).rd .WL_LSTATE wl = _).trans hup)
      htyp hack hcr hsop heop (by simp [hlen]) hasm hcredit hneed
    rw [phaseNow_cad (s := s) (t := s.wr .WL_PARTNER_HEALTH g.health wl) rfl (rd_wr_ne s (by rintro ⟨⟨⟩, -⟩))] at hpacket
    exact hpacket
  · exact ⟨_, congrArg Host.Outcome.next (when_of _ s (by rw [hst, hon]; rfl)), initFails_flag wl s⟩
  · refine ⟨_, congrArg Host.Outcome.next (when_of _ s (by simp [hw, State.on, hlock])), ?_, rd_wr s .WL_CFG_REFUSED 1 wl 0⟩
    exact rd_wr_ne s (by rintro ⟨⟨⟩, -⟩)

end Sys2Proof.Proofs
end

section
/-!
What a link's grains, its lanes' moves and the end of a reshape leave of its lane sets; alignment blocks and background
training (R167, R168, R174, R211).
-/
namespace Sys2Proof.Proofs
open Sys2Proof Sys2Proof.Machine Sys2Proof.Laws
set_option Elab.async false

/-! ### The lane sets -/

/-- What the lanes of a link trained with: the partner's clock and TS2, the choice made, the highest rate still tried, the sets. -/
structure Trained where
  clockSeen : Bool
  ts2 : Option Ts2
  chosenRate : Nat
  chosenSet : Nat
  rateCap : Nat
  txSet : Nat
  rxSet : Nat

/-- What the lanes of a link in this state trained with. -/
def trained (w : WpS) : Trained := ⟨w.clockSeen, w.ts2, w.chosenRate, w.chosenSet, w.rateCap, w.txSet, w.rxSet⟩

/-- What the lanes of a link trained with, and those that passed background training. -/
def wpSets (w : WpS) : Trained × Nat := (trained w, w.bgPassed)

theorem of_wpSets {v w : WpS} (h : wpSets v = wpSets w) : v.txSet = w.txSet ∧ v.rxSet = w.rxSet :=
  ⟨congrArg (fun x => x.1.txSet) h, congrArg (fun x => x.1.rxSet) h⟩

/-- Every link keeps its sets, and what else its lanes trained with. -/
def SetsKept (s t : State) : Prop := ∀ k, wpSets (t.wp k) = wpSets (s.wp k)

theorem SetsKept.refl (s : State) : SetsKept s s := fun _ => rfl

theorem SetsKept.trans {r s t : State} (h : SetsKept r s) (h' : SetsKept s t) : SetsKept r t := fun k => (h' k).trans (h k)

theorem setsKept_of_wps {s t : State} (h : t.wps = s.wps) : SetsKept s t := fun k => by rw [State.wp, h, State.wp]

theorem setsKept_modWp {s : State} {n : Nat} {g : WpS → WpS} (hg : ∀ w, wpSets (g w) = wpSets w) : SetsKept s (s.modWp n g) := by
  intro k
  rw [modWp_wp]
  split
  next he => rw [hg, he]
  next => rfl

theorem setsKept_each {α : Type} {l : List α} {f : α → State → State} (hf : ∀ a z, SetsKept z (f a z)) (s : State) :
    SetsKept s (each l f s) := each_induct (P := SetsKept s) l (.refl s) fun a z hz => hz.trans (hf a z)

theorem setsKept_when {c : Bool} {f : State → State} {s : State} (hf : SetsKept s (f s)) : SetsKept s (when c f s) :=
  when_cases (P := SetsKept s) (.refl s) hf

/-! ### Grains that leave -/

theorem emitGrain_sets (n : Nat) (inject : Bool) (g : Grain) (s : State) : SetsKept s (emitGrain n inject g s) := by
  have hlane (idle k : Nat) (sg : State × Grain) : SetsKept sg.1 (injectLane n idle k sg).1 := by
    unfold injectLane
    dsimp only
    split
    · exact .refl _
    split
    · split
      all_goals exact (setsKept_of_wps rfl).trans (setsKept_modWp fun _ => by rfl)
    · exact (setsKept_of_wps rfl).trans (setsKept_modWp fun _ => by rfl)
  have hlanes (idle : Nat) (l : List Nat) (sg : State × Grain) : SetsKept sg.1 (l.foldl (fun sg k => injectLane n idle k sg) sg).1 := by
    induction l generalizing sg with
    | nil => exact .refl _
    | cons k l ih => exact (hlane idle k sg).trans (ih _)
  have hslot (k : Nat) (g : Grain) (z : State) : SetsKept z (sendSlot n k g z) :=
    SetsKept.trans (setsKept_modWp (n := n) (g := fun w => { w with txSlot := (z.wp n).txSlot + k + 1 }) fun _ => by rfl)
      (setsKept_of_wps rfl)
  unfold emitGrain draw
  dsimp only
  refine SetsKept.trans (SetsKept.trans ?_ (setsKept_of_wps rfl)) (hslot _ _ _)
  split
  · exact hlanes _ _ ({ s with free := s.free + 1 }, g)
  · exact setsKept_of_wps rfl

theorem sendSeq_sets (n typ sop eop : Nat) (payload : Bytes) (counted : Nat) (s : State) :
    SetsKept s (sendSeq n typ sop eop payload counted s) := by
  unfold sendSeq
  dsimp only
  exact SetsKept.trans (setsKept_of_wps rfl) (emitGrain_sets _ _ _ _)

theorem drainMsgs_sets (n k : Nat) (s : State) : SetsKept s (drainMsgs n k s) := by
  induction k generalizing s with
  | zero => exact .refl s
  | succ k ih =>
    unfold drainMsgs
    dsimp only
    split
    · split
      · exact fun j => (ih _ j).trans ((sendSeq_sets _ _ _ _ _ _ _ j).trans rfl)
      · exact .refl s
    · exact .refl s

theorem sendLinkMsg_sets (n msg id set reason : Nat) (s : State) : SetsKept s (sendLinkMsg n msg id set reason s) :=
  SetsKept.trans (setsKept_of_wps rfl) (drainMsgs_sets n 16 _)

/-! ### Lanes that move -/

theorem showTx_wps (n : Nat) (was s : State) : (showTx n was s).wps = s.wps :=
  (moves_showTx_zero n was s).part .wps (by decide +kernel)

theorem settlePrbs_sets (n k : Nat) (s : State) : SetsKept s (settlePrbs n k s) := by
  have hcount : (countPrbs n k (s.wr .WP_PRBS_PEND 0 n k)).wps = s.wps :=
    (moves_countPrbs (.refl foot_countPrbs (s.wr .WP_PRBS_PEND 0 n k)) (within_self _)).part .wps (by decide +kernel)
  unfold settlePrbs
  dsimp only
  split
  · split
    · exact setsKept_of_wps hcount
    · exact setsKept_of_wps rfl
  split
  · exact .refl s
  split
  · have hset : SetsKept (s.wr .WP_PRBS_PEND 0 n k) ((s.wr .WP_PRBS_PEND 0 n k).modWp n
        (fun w => { w with prevL := w.prevL.set k (s.rd .WP_LSTATE n k) })) := setsKept_modWp fun _ => by rfl
    exact fun j => hset j
  · exact setsKept_of_wps rfl

theorem setLane_sets (n k st : Nat) (s : State) : SetsKept s (setLane n k st s) := by
  unfold setLane
  split
  · exact setsKept_modWp fun _ => by rfl
  · have h := SetsKept.trans (setsKept_of_wps (s := s) (t := s.wr .WP_LSTATE st n k) rfl) (settlePrbs_sets n k _)
    dsimp only
    split
    · exact h.trans (setsKept_of_wps rfl)
    · exact h.trans (setsKept_of_wps rfl)

theorem moveLane_sets (n k st : Nat) (s : State) : SetsKept s (moveLane n k st s) :=
  (setLane_sets n k st s).trans (setsKept_of_wps (showTx_wps n s _))

/-- The end of a reshape leaves the sets in use. -/
theorem reshapeOver_sets (n : Nat) (s : State) (k : Nat) :
    ((reshapeOver n s).wp k).txSet = (s.wp k).txSet ∧ ((reshapeOver n s).wp k).rxSet = (s.wp k).rxSet := by
  have hended : ((endReshape n s).wp k).txSet = (s.wp k).txSet ∧ ((endReshape n s).wp k).rxSet = (s.wp k).rxSet := by
    rw [show (endReshape n s).wp k = (s.modWp n (fun w => { w with bgPassed := 0 })).wp k from rfl, modWp_wp]
    split
    next he => rw [he]; exact ⟨rfl, rfl⟩
    next => exact ⟨rfl, rfl⟩
  unfold reshapeOver
  dsimp only
  split
  · have hlanes := setsKept_each (l := [0, 1, 2, 3]) (f := fun k z => when (!(s.wl n).rsSet.testBit (logicalOf z n k) &&
      [2, 4].contains (z.rd .WP_LSTATE n k)) (moveLane n k 3) z) (fun k z => setsKept_when (moveLane_sets n k 3 z)) (endReshape n s) k
    obtain ⟨htx, hrx⟩ := of_wpSets hlanes
    exact ⟨htx.trans hended.1, hrx.trans hended.2⟩
  · exact ⟨rfl, rfl⟩

end Sys2Proof.Proofs
end

section
/-!
Alignment blocks sent and received, and background training of a lane (R167, R168, R174, R211).
-/
namespace Sys2Proof.Proofs
open Sys2Proof Sys2Proof.Machine Sys2Proof.Laws
set_option Elab.async false

/-! ### What a link's messages leave of it -/

/-- A link without what its messages move: the replay buffer, the queue, the wait for an answer and the ACK it owes. -/
def msgCore (w : WlS) : WlS := { w with replay := [], msgQ := [], rsTicks := 0, ackPending := 0 }

theorem msgCore_modWl {s : State} {n : Nat} {g : WlS → WlS} (hg : ∀ w, msgCore (g w) = msgCore w) (k : Nat) :
    msgCore ((s.modWl n g).wl k) = msgCore (s.wl k) := by
  rw [modWl_wl]
  split
  next he => rw [hg, he]
  next => rfl

theorem emitGrain_msgCore (n : Nat) (inject : Bool) (g : Grain) (s : State) (k : Nat) :
    msgCore ((emitGrain n inject g s).wl k) = msgCore (s.wl k) := by
  rw [State.wl, emitGrain_wls, ← State.wl]
  exact msgCore_modWl (fun _ => by rfl) k

theorem sendSeq_msgCore (n typ sop eop : Nat) (payload : Bytes) (counted : Nat) (s : State) (k : Nat) :
    msgCore ((sendSeq n typ sop eop payload counted s).wl k) = msgCore (s.wl k) := by
  unfold sendSeq
  dsimp only
  rw [emitGrain_msgCore]
  change msgCore ((s.modWl n (fun w => { w with
    replay := w.replay ++ [⟨typ, sop, eop, s.rd .WL_NEXT_TX n, counted, payload⟩] })).wl k) = msgCore (s.wl k)
  exact msgCore_modWl (fun _ => by rfl) k

theorem drainMsgs_msgCore (n k : Nat) (s : State) (j : Nat) : msgCore ((drainMsgs n k s).wl j) = msgCore (s.wl j) := by
  induction k generalizing s with
  | zero => rfl
  | succ k ih =>
    unfold drainMsgs
    dsimp only
    split
    · split
      · rw [ih, sendSeq_msgCore]
        exact msgCore_modWl (fun _ => by rfl) j
      · rfl
    · rfl

theorem sendLinkMsg_msgCore (n msg id set reason : Nat) (s : State) (k : Nat) :
    msgCore ((sendLinkMsg n msg id set reason s).wl k) = msgCore (s.wl k) := by
  unfold sendLinkMsg
  rw [drainMsgs_msgCore]
  exact msgCore_modWl (fun _ => by rfl) k

/-- The reshape's state apart from its wait. -/
theorem of_msgCore {v w : WlS} (h : msgCore v = msgCore w) : v.rsRole = w.rsRole ∧ v.rsStage = w.rsStage ∧ v.rsId = w.rsId ∧
    v.rsSet = w.rsSet ∧ v.rsReadySent = w.rsReadySent ∧ v.rsGone = w.rsGone := by
  simp only [msgCore, WlS.mk.injEq] at h
  tauto

/-! ### Blocks sent (R167, R211) -/

theorem wp_modWl (s : State) (n : Nat) (g : WlS → WlS) (k : Nat) : (s.modWl n g).wp k = s.wp k := rfl

theorem align_sent {wl : Wl} {s : State} (hst : s.rd .WP_STATE wl = 5) (hhalf : (s.wl wl).txHalf = none)
    (hsw : maySwitchTx s wl = false) : Completes (.alignmentBlockSend wl) s (fun t =>
      t.out = s.out ++ [.align wl ((alignLanes s wl (s.wp wl).txSet).map (fun k =>
        (k, alignBytes (txLanes s wl).length k (s.wp wl).txSet (s.wp wl).txAlign)))] ∧
      (t.wp wl).txAlign = ((s.wp wl).txAlign + 1) % 65536 ∧ (t.wp wl).txSet = (s.wp wl).txSet ∧ (t.wp wl).txSlot = 0) := by
  have hflush : flushHalf wl s = s := by rw [flushHalf, hhalf]
  refine ⟨_, congrArg Host.Outcome.next (when_of _ s (beq_iff_eq.2 hst)), ?_⟩
  dsimp only
  rw [hflush, hsw, when_of_not _ _ rfl, if_neg Bool.false_ne_true, Nat.or_self, wp_modWp_self]
  exact ⟨rfl, rfl, rfl, rfl⟩

theorem align_switched {wl : Wl} {s : State} (hst : s.rd .WP_STATE wl = 5) (hhalf : (s.wl wl).txHalf = none)
    (hsw : maySwitchTx s wl = true) : Completes (.alignmentBlockSend wl) s (fun t =>
      (∃ l, t.out = s.out ++ Out.align wl ((alignLanes s wl ((s.wp wl).txSet ||| (s.wl wl).rsSet)).map (fun k =>
        (k, alignBytes (txLanes s wl).length k (s.wl wl).rsSet (s.wp wl).txAlign))) :: l) ∧ (t.wp wl).txSet = (s.wl wl).rsSet) := by
  have hflush : flushHalf wl s = s := by rw [flushHalf, hhalf]
  refine ⟨_, congrArg Host.Outcome.next (when_of _ s (beq_iff_eq.2 hst)), ?_⟩
  dsimp only
  rw [hflush, hsw, when_of _ _ rfl, if_pos rfl]
  have hover (z : State) : ∃ l, (reshapeOver wl z).out = z.out ++ l := by
    obtain ⟨l, hl⟩ := (moves_reshapeOver (n := wl) (.refl foot_reshapeOver z) (within_self _)).sent
    exact ⟨l, hl.symm⟩
  constructor
  · obtain ⟨l, hl⟩ := hover _
    exact ⟨l, hl.trans (List.append_assoc s.out [_] l)⟩
  · rw [(reshapeOver_sets wl _ wl).1, wp_modWl, wp_modWp_self]

/-! ### Blocks received (R168, R174) -/

/-- The blocks in place on the lanes in use. -/
def gotBlocks (s : State) (n : Nat) (bs : List (Fin 4 × Bytes)) : List (Nat × Option Bytes) :=
  ((List.range 4).filter (fun l => (s.wp n).rxSet.testBit l)).map (fun l => (l, inPlace s n l bs))

/-- The account of a set of blocks: a lane without one has a longer run of bad blocks. -/
def runsAfter (s : State) (n : Nat) (bs : List (Fin 4 × Bytes)) : List Nat :=
  (List.range 4).map (fun l => if (gotBlocks s n bs).contains (l, none) then (s.wp n).badRun.getD l 0 + 1 else 0)

/-- The blocks show the agreed set on every lane. -/
def blocksSwitch (s : State) (n : Nat) (bs : List (Fin 4 × Bytes)) : Bool :=
  agreed s n && !(s.wl n).rsRxSwitched && (gotBlocks s n bs).all (fun g => g.2.any (fun b => num b 3 1 % 16 == (s.wl n).rsSet))

/-- The count of a lane's last block, of which a bad one keeps what is expected. -/
def countAfter (s : State) (n : Nat) (bs : List (Fin 4 × Bytes)) (l : Nat) : Nat :=
  match (gotBlocks s n bs).find? (fun g => g.1 == l) with
  | some (_, some b) => num b 4 2
  | _ => (wantCount s n l).getD 65536

/-- What the receiver holds of its blocks. -/
def blocksNoted (n : Nat) (bs : List (Fin 4 × Bytes)) (s : State) : State :=
  (s.add .WP_ALIGN_CNT ((gotBlocks s n bs).filter (fun g => g.2.isNone)).length n).modWp n
    (fun w => { w with badRun := runsAfter s n bs, rxAlign := (List.range 4).map (countAfter s n bs) })

/-- A lane whose block was bad too often. -/
def badLane (n : Nat) (s : State) : State :=
  enterRetrain n (laneFault n ((s.modWp n (fun w => { w with badRun := [0, 0, 0, 0] })).wr .WP_ALIGN_ERR 1 n))

theorem alignCheck_eq (n : Nat) (bs : List (Fin 4 × Bytes)) (s : State) : alignCheck n bs s =
    if blocksSwitch s n bs then switchRx n (blocksNoted n bs s)
    else if (runsAfter s n bs).any (fun k => decide (3 ≤ k)) then badLane n (blocksNoted n bs s) else blocksNoted n bs s := by
  have hrun : ((blocksNoted n bs s).wp n).badRun = runsAfter s n bs := by rw [blocksNoted, wp_modWp_self]
  rw [← hrun]
  rfl

theorem mem_gotBlocks {s : State} {n : Nat} {bs : List (Fin 4 × Bytes)} {x : Nat × Option Bytes} : x ∈ gotBlocks s n bs ↔
    x.1 ∈ (List.range 4).filter (fun l => (s.wp n).rxSet.testBit l) ∧ x.2 = inPlace s n x.1 bs := by
  unfold gotBlocks
  rw [List.mem_map]
  constructor
  · rintro ⟨l, hl, rfl⟩
    exact ⟨hl, rfl⟩
  · rintro ⟨hl, hx⟩
    exact ⟨x.1, hl, Prod.ext rfl hx.symm⟩

/-- Without the agreed set there is nothing to switch to. -/
theorem blocksSwitch_off {s : State} {n : Nat} {bs : List (Fin 4 × Bytes)} (h : (s.wl n).rsStage ≠ 2) : blocksSwitch s n bs = false := by
  simp [blocksSwitch, agreed, h]

theorem blocks_in_place {wl : Wl} {bs : List (Fin 4 × Bytes)} {s : State} (hst : s.rd .WP_STATE wl = 5)
    (hall : ∀ l ∈ (List.range 4).filter (fun l => (s.wp wl).rxSet.testBit l), (inPlace s wl l bs).isSome = true)
    (hstage : (s.wl wl).rsStage ≠ 2) : Completes (.alignmentBlockReceive wl bs) s (fun t =>
      t.rd .WP_STATE wl = 5 ∧ t.rd .WP_ALIGN_CNT wl = s.rd .WP_ALIGN_CNT wl % 2 ^ 64 ∧
      (t.wp wl).badRun = [0, 0, 0, 0] ∧ t.out = s.out) := by
  have hsome : ∀ x ∈ gotBlocks s wl bs, x.2.isSome = true := fun x hx => by
    obtain ⟨hl, hx'⟩ := mem_gotBlocks.1 hx
    rw [hx']
    exact hall _ hl
  have hmissed : ((gotBlocks s wl bs).filter (fun g => g.2.isNone)).length = 0 := by
    rw [List.length_eq_zero_iff, List.filter_eq_nil_iff]
    intro x hx
    have := hsome x hx
    cases hx2 : x.2 <;> simp_all
  have hruns : runsAfter s wl bs = [0, 0, 0, 0] := by
    have hzero : ∀ l ∈ List.range 4, (if (gotBlocks s wl bs).contains (l, none) then (s.wp wl).badRun.getD l 0 + 1 else 0) = 0 := by
      intro l _
      rw [if_neg]
      intro hc
      exact nomatch hsome _ (List.contains_iff_mem.1 hc)
    rw [runsAfter, List.map_congr_left hzero]
    rfl
  have hcheck : alignCheck wl bs s = blocksNoted wl bs s := by
    rw [alignCheck_eq, blocksSwitch_off hstage, if_neg Bool.false_ne_true, hruns, if_neg (by decide)]
  refine ⟨_, congrArg Host.Outcome.next ((when_of _ s (beq_iff_eq.2 hst)).trans hcheck), ?_, ?_, ?_, rfl⟩
  · exact (rd_wr_ne s (by rintro ⟨⟨⟩, -⟩)).trans hst
  · refine (rd_wr s .WP_ALIGN_CNT _ wl 0).trans ?_
    rw [hmissed]
    rfl
  · rw [blocksNoted, wp_modWp_self, hruns]

/-- A retrain of the lanes is under way. -/
theorem enterRetrain_state {n : Nat} {s : State} (h : s.rd .WP_STATE n = 5) : (enterRetrain n s).rd .WP_STATE n = 6 := by
  unfold enterRetrain
  rw [if_neg (by rw [h]; decide)]
  dsimp only
  rw [(moves_sendTs1 (.refl foot_sendTs1 _) (within_self _)).reg .WP_STATE n 0 (by decide +kernel), shown, rd_showTx]
  generalize (if s.on .WP_ROLE n then (s.wp n).rxSet else (s.wp n).txSet) = set
  refine each_induct (P := fun z => z.rd .WP_STATE n = 6) _ ?_ fun k z hz => ?_
  · rw [modWp_rd, applyCtl, modWp_rd]
    exact rd_wr _ .WP_STATE 6 n 0
  · have hset (v : Nat) : (setLane n k v z).rd .WP_STATE n = 6 :=
      ((moves_setLane (.refl foot_setLane z) (within_self _)).reg .WP_STATE n 0 (by decide +kernel)).trans hz
    split
    · exact hset 0
    split
    · exact hset 1
    split
    · exact hset 3
    · exact hz

theorem badLane_spec {n : Nat} {s : State} (h : s.rd .WP_STATE n = 5) :
    (badLane n s).rd .WP_STATE n = 6 ∧ (badLane n s).rd .WP_ALIGN_ERR n = 1 := by
  have hfault := moves_laneFault (n := n) (.refl foot_laneFault
    ((s.modWp n (fun w => { w with badRun := [0, 0, 0, 0] })).wr .WP_ALIGN_ERR 1 n)) (within_self _)
  constructor
  · exact enterRetrain_state ((hfault.reg .WP_STATE n 0 (by decide +kernel)).trans ((rd_wr_ne _ (by rintro ⟨⟨⟩, -⟩)).trans h))
  · unfold badLane
    rw [(moves_enterRetrain (.refl foot_enterRetrain _) (within_self _)).reg .WP_ALIGN_ERR n 0 (by decide +kernel),
      hfault.reg .WP_ALIGN_ERR n 0 (by decide +kernel)]
    exact rd_wr _ .WP_ALIGN_ERR 1 n 0

theorem blocks_bad {wl : Wl} {bs : List (Fin 4 × Bytes)} {s : State} (hst : s.rd .WP_STATE wl = 5) {l : Nat}
    (hl : l ∈ (List.range 4).filter (fun l => (s.wp wl).rxSet.testBit l)) (hnone : inPlace s wl l bs = none)
    (hrun : (s.wp wl).badRun.getD l 0 = 2) (hstage : (s.wl wl).rsStage ≠ 2) :
    Completes (.alignmentBlockReceive wl bs) s (fun t => t.rd .WP_STATE wl = 6 ∧ t.rd .WP_ALIGN_ERR wl = 1) := by
  have hlong : (runsAfter s wl bs).any (fun k => decide (3 ≤ k)) = true := by
    have hgot : (gotBlocks s wl bs).contains (l, none) = true := List.contains_iff_mem.2 (mem_gotBlocks.2 ⟨hl, hnone.symm⟩)
    refine List.any_eq_true.2 ⟨3, List.mem_map.2 ⟨l, (List.mem_filter.1 hl).1, ?_⟩, rfl⟩
    rw [hgot, if_pos rfl, hrun]
  have hcheck : alignCheck wl bs s = badLane wl (blocksNoted wl bs s) := by
    rw [alignCheck_eq, blocksSwitch_off hstage, if_neg Bool.false_ne_true, hlong, if_pos rfl]
  exact ⟨_, congrArg Host.Outcome.next ((when_of _ s (beq_iff_eq.2 hst)).trans hcheck),
    badLane_spec ((rd_wr_ne s (by rintro ⟨⟨⟩, -⟩)).trans hst)⟩

/-- The receiver takes the set that it agreed. -/
theorem switchRx_spec {n : Nat} {s : State} (hset : (s.wl n).rsSet < 16) :
    ((switchRx n s).wp n).rxSet = (s.wl n).rsSet ∧ (switchRx n s).rd .WL_ACTIVE_SET n = (s.wl n).rsSet ∧
    (switchRx n s).rd .WL_RESHAPE_DONE n = 1 ∧ (switchRx n s).rd .WL_RESHAPE_CNT n = (s.rd .WL_RESHAPE_CNT n + 1) % 2 ^ 64 := by
  have htrace (z : State) := moves_trace (kind := 2) (id := n) (code := 0x0106) (arg := (s.wl n).rsSet) (.refl foot_trace z) (within_self _)
  have hover (z : State) := moves_reshapeOver (n := n) (.refl foot_reshapeOver z) (within_self _)
  have hend (f : Fld) (hf : foot_reshapeOver.testBit (fbit f) = false) (hf' : foot_trace.testBit (fbit f) = false) (z : State) :
      (reshapeOver n (trace 2 n 0x0106 (s.wl n).rsSet z)).rd f n = z.rd f n :=
    ((hover _).reg f n 0 hf).trans ((htrace z).reg f n 0 hf')
  unfold switchRx
  extract_lets set s1 s2 s3 s4 s5
  have h3 : (s3.wp n).rxSet = set ∧ s3.rd .WL_ACTIVE_SET n = set ∧ s3.rd .WL_RESHAPE_CNT n = s.rd .WL_RESHAPE_CNT n := by
    refine ⟨?_, (rd_wr _ .WL_ACTIVE_SET set n 0).trans (Nat.mod_eq_of_lt hset),
      (rd_wr_ne _ (by rintro ⟨⟨⟩, -⟩)).trans (rd_wr_ne _ (by rintro ⟨⟨⟩, -⟩))⟩
    change (s2.wp n).rxSet = set
    rw [wp_modWp_self]
  clear_value s3
  have h4 : (s4.wp n).rxSet = set ∧ s4.rd .WL_ACTIVE_SET n = set ∧ s4.rd .WL_RESHAPE_CNT n = s.rd .WL_RESHAPE_CNT n := by
    refine each_induct (P := fun z => (z.wp n).rxSet = set ∧ z.rd .WL_ACTIVE_SET n = set ∧
      z.rd .WL_RESHAPE_CNT n = s.rd .WL_RESHAPE_CNT n) _ h3 fun k z hz => ?_
    have hm := moves_moveLane (n := n) (k := k) (st := 2) (.refl foot_moveLane z) (within_self _)
    refine when_cases (P := fun z => (z.wp n).rxSet = set ∧ z.rd .WL_ACTIVE_SET n = set ∧
      z.rd .WL_RESHAPE_CNT n = s.rd .WL_RESHAPE_CNT n) hz ⟨((of_wpSets (moveLane_sets n k 2 z n)).2).trans hz.1, ?_, ?_⟩
    · exact (hm.reg .WL_ACTIVE_SET n 0 (by decide +kernel)).trans hz.2.1
    · exact (hm.reg .WL_RESHAPE_CNT n 0 (by decide +kernel)).trans hz.2.2
  clear_value s4
  obtain ⟨hrx, hact, hcnt⟩ := h4
  refine ⟨?_, (hend _ (by decide +kernel) (by decide +kernel) s5).trans ?_, (hend _ (by decide +kernel) (by decide +kernel) s5).trans ?_,
    (hend _ (by decide +kernel) (by decide +kernel) s5).trans ?_⟩
  · have hwp : (trace 2 n 0x0106 set s5).wp n = s4.wp n := by
      rw [State.wp, show (trace 2 n 0x0106 set s5).wps = s5.wps from (htrace s5).part .wps (by decide +kernel)]
      rfl
    rw [(reshapeOver_sets n _ n).2, hwp, hrx]
  · exact (rd_wr_ne _ (by rintro ⟨⟨⟩, -⟩)).trans ((rd_wr_ne s4 (by rintro ⟨⟨⟩, -⟩)).trans hact)
  · exact (rd_wr_ne _ (by rintro ⟨⟨⟩, -⟩)).trans (rd_wr s4 .WL_RESHAPE_DONE 1 n 0)
  · refine (rd_wr _ .WL_RESHAPE_CNT _ n 0).trans ?_
    rw [rd_wr_ne s4 (by rintro ⟨⟨⟩, -⟩), hcnt]
    rfl

theorem blocks_agreed {wl : Wl} {bs : List (Fin 4 × Bytes)} {s : State} (hst : s.rd .WP_STATE wl = 5)
    (hall : ∀ l ∈ (List.range 4).filter (fun l => (s.wp wl).rxSet.testBit l),
      ∃ b, inPlace s wl l bs = some b ∧ num b 3 1 % 16 = (s.wl wl).rsSet)
    (hstage : (s.wl wl).rsStage = 2) (hrx : (s.wl wl).rsRxSwitched = false) (hset : (s.wl wl).rsSet < 16) :
    Completes (.alignmentBlockReceive wl bs) s (fun t =>
        (t.wp wl).rxSet = (s.wl wl).rsSet ∧ t.rd .WL_ACTIVE_SET wl = (s.wl wl).rsSet ∧ t.rd .WL_RESHAPE_DONE wl = 1 ∧
        t.rd .WL_RESHAPE_CNT wl = (s.rd .WL_RESHAPE_CNT wl + 1) % 2 ^ 64) := by
  have hsw : blocksSwitch s wl bs = true := by
    simp only [blocksSwitch, agreed, hstage, hrx, BEq.rfl, Bool.not_false, Bool.true_and, List.all_eq_true]
    intro x hx
    obtain ⟨hl, hx'⟩ := mem_gotBlocks.1 hx
    obtain ⟨b, hb, hnum⟩ := hall _ hl
    rw [hx', hb]
    exact beq_iff_eq.2 hnum
  have hcheck : alignCheck wl bs s = switchRx wl (blocksNoted wl bs s) := by rw [alignCheck_eq, hsw, if_pos rfl]
  have hspec := switchRx_spec (n := wl) (s := blocksNoted wl bs s) hset
  have hcnt : (blocksNoted wl bs s).rd .WL_RESHAPE_CNT wl = s.rd .WL_RESHAPE_CNT wl := rd_wr_ne s (by rintro ⟨⟨⟩, -⟩)
  rw [hcnt] at hspec
  exact ⟨_, congrArg Host.Outcome.next ((when_of _ s (beq_iff_eq.2 hst)).trans hcheck), hspec⟩

/-! ### Background training (R174) -/

/-- A lane's run is noted as passed. -/
def lanePassed (n lane : Nat) (s : State) : State := s.modWp n (fun w => { w with bgPassed := setBit w.bgPassed lane })

/-- LANE_READY goes out. -/
def sayReady (n : Nat) (s : State) : State := sendLinkMsg n 4 (s.wl n).rsId 0 0 (s.modWl n (fun w => { w with rsReadySent := true }))

/-- Every lane in background training has passed. -/
def allPassed (n : Nat) (s : State) : Bool := [0, 1, 2, 3].all (fun k => s.rd .WP_LSTATE n k != 4 || (s.wp n).bgPassed.testBit k)

/-- What a lane's pass shows, and with the last of them LANE_READY. -/
def Passed (n lane : Nat) (s t : State) : Prop := (t.wp n).bgPassed.testBit lane = true ∧ t.rd .WP_LSTATE n lane = 4 ∧
  (agreed s n = true → (∀ k < 4, k ≠ lane → s.rd .WP_LSTATE n k ≠ 4) → (t.wl n).rsReadySent = true)

theorem passed_ready {n lane : Nat} {s : State} (hl : s.rd .WP_LSTATE n lane = 4) :
    Passed n lane s (when (allPassed n (lanePassed n lane s) && agreed (lanePassed n lane s) n &&
      !((lanePassed n lane s).wl n).rsReadySent) (sayReady n) (lanePassed n lane s)) := by
  have hpassed : ((lanePassed n lane s).wp n).bgPassed.testBit lane = true := by
    rw [lanePassed, wp_modWp_self]
    exact testBit_setBit_self _ _
  have hl' : (lanePassed n lane s).rd .WP_LSTATE n lane = 4 := hl
  have hall : (∀ k < 4, k ≠ lane → s.rd .WP_LSTATE n k ≠ 4) → allPassed n (lanePassed n lane s) = true := by
    refine fun hothers => List.all_eq_true.2 fun k hk => ?_
    by_cases he : k = lane
    · rw [he, hpassed, Bool.or_true]
    · have hne : (lanePassed n lane s).rd .WP_LSTATE n k ≠ 4 := hothers k (List.mem_range.1 (show k ∈ List.range 4 from hk)) he
      simp [hne]
  have hagreed : agreed (lanePassed n lane s) n = agreed s n := rfl
  generalize lanePassed n lane s = u at hpassed hl' hall hagreed ⊢
  unfold when
  split
  next hgo =>
    have hsets := congrArg Prod.snd (sendLinkMsg_sets n 4 (u.wl n).rsId 0 0 (u.modWl n (fun w => { w with rsReadySent := true })) n)
    have hm := moves_sendLinkMsg (n := n) (msg := 4) (id := (u.wl n).rsId) (set := 0) (reason := 0)
      (.refl foot_sendLinkMsg (u.modWl n (fun w => { w with rsReadySent := true }))) (within_self _)
    have hcore := sendLinkMsg_msgCore n 4 (u.wl n).rsId 0 0 (u.modWl n (fun w => { w with rsReadySent := true })) n
    rw [wl_modWl_self] at hcore
    refine ⟨?_, (hm.reg .WP_LSTATE n lane (by decide +kernel)).trans hl', fun _ _ => (of_msgCore hcore).2.2.2.2.1⟩
    exact (congrArg (Nat.testBit · lane) hsets).trans hpassed
  next hgo =>
    refine ⟨hpassed, hl', fun ha hothers => ?_⟩
    by_contra hr
    exact hgo (by rw [hall hothers, hagreed, ha, Bool.eq_false_iff.2 hr]; rfl)

theorem lane_passed {wl : Wl} {lane : Fin 4} {errors skew : Nat} {s : State} (hl : s.rd .WP_LSTATE wl lane = 4)
    (herr : errors ≤ s.rd .WP_BG_ERR_MAX wl) (hskew : skew ≤ 32) :
    Completes (.backgroundTrainPass wl ⟨lane, errors, skew⟩) s (fun t => (t.wp wl).bgPassed.testBit lane = true ∧
      t.rd .WP_LSTATE wl lane = 4 ∧ (agreed s wl = true → (∀ k < 4, k ≠ lane.val → s.rd .WP_LSTATE wl k ≠ 4) →
        (t.wl wl).rsReadySent = true)) :=
  ⟨_, congrArg Host.Outcome.next (when_of _ s (by simp [hl, herr, hskew])), passed_ready hl⟩

theorem lane_waits {wl : Wl} {lane : Fin 4} {errors skew : Nat} {s : State} (h : s.rd .WP_BG_ERR_MAX wl < errors ∨ 32 < skew) :
    exec (.backgroundTrainPass wl ⟨lane, errors, skew⟩) s = .next s := by
  refine congrArg Host.Outcome.next (when_of_not _ s ?_)
  rcases h with h | h <;> simp [Nat.not_le.2 h]

/-- A lane that has failed stays so while others move. -/
def Failed (n lane : Nat) (s : State) : Prop := s.rd .WP_LSTATE n lane = 6

theorem rd_setLane_ne {n k k' st : Nat} {s : State} (hk : k' ≠ k) : (setLane n k st s).rd .WP_LSTATE n k' = s.rd .WP_LSTATE n k' := by
  have hne (v : Nat) (z : State) : (z.wr .WP_LSTATE v n k).rd .WP_LSTATE n k' = z.rd .WP_LSTATE n k' :=
    rd_wr_ne z fun e => hk e.2.2
  have hcount (z : State) : (countPrbs n k z).rd .WP_LSTATE n k' = z.rd .WP_LSTATE n k' :=
    (moves_countPrbs (.refl foot_countPrbs z) (within_self _)).reg .WP_LSTATE n k' (by decide +kernel)
  have hsettle (z : State) : (settlePrbs n k z).rd .WP_LSTATE n k' = z.rd .WP_LSTATE n k' := by
    unfold settlePrbs
    dsimp only
    split
    · split
      · rw [rd_wr_ne _ (by rintro ⟨⟨⟩, -⟩), hne, hcount, rd_wr_ne _ (by rintro ⟨⟨⟩, -⟩)]
      · exact rd_wr_ne z (by rintro ⟨⟨⟩, -⟩)
    split
    · rfl
    split
    · rw [hne, modWp_rd, rd_wr_ne _ (by rintro ⟨⟨⟩, -⟩)]
    · exact rd_wr_ne z (by rintro ⟨⟨⟩, -⟩)
  unfold setLane
  split
  · rfl
  dsimp only
  split
  · unfold draw
    dsimp only
    iterate 3 rw [rd_wr_ne _ (by rintro ⟨⟨⟩, -⟩)]
    exact (hsettle _).trans (hne st s)
  · rw [rd_wr_ne _ (by rintro ⟨⟨⟩, -⟩), hsettle, hne]

theorem rd_moveLane_ne {n k k' st : Nat} {s : State} (hk : k' ≠ k) : (moveLane n k st s).rd .WP_LSTATE n k' = s.rd .WP_LSTATE n k' :=
  (rd_showTx n s _ .WP_LSTATE n k').trans (rd_setLane_ne hk)

theorem settlePrbs_failed {n k : Nat} {s : State} (h : s.rd .WP_LSTATE n k = 6) : (settlePrbs n k s).rd .WP_LSTATE n k = 6 := by
  unfold settlePrbs
  dsimp only
  rw [h]
  split
  · exact (rd_wr_ne s (by rintro ⟨⟨⟩, -⟩)).trans h
  · exact (rd_wr_ne s (by rintro ⟨⟨⟩, -⟩)).trans h

/-- A lane that is not in TEST fails at once. -/
theorem rd_moveLane_failed {n k : Nat} {s : State} (h : s.rd .WP_LSTATE n k ≠ 5) : (moveLane n k 6 s).rd .WP_LSTATE n k = 6 := by
  refine (rd_showTx n s _ .WP_LSTATE n k).trans ?_
  unfold setLane
  rw [if_neg h]
  exact (rd_wr_ne _ (by rintro ⟨⟨⟩, -⟩)).trans (settlePrbs_failed (rd_wr s .WP_LSTATE 6 n k))

/-- The end of a reshape takes no failed lane back. -/
theorem failReshape_failed {n lane reason : Nat} {s : State} (h : Failed n lane s) : Failed n lane (failReshape n reason s) := by
  have hkeep (k : Nat) (c : State → Bool) (z : State) (hz : Failed n lane z) (hc : z.rd .WP_LSTATE n k = 6 → c z = false) :
      Failed n lane (when (c z) (moveLane n k 3) z) := by
    by_cases he : lane = k
    · rw [when_of_not _ z (hc (he ▸ hz))]
      exact hz
    · exact when_cases (P := Failed n lane) hz ((rd_moveLane_ne he).trans hz)
  have hold : Failed n lane (keepOldSet n s) := by
    unfold keepOldSet
    dsimp only
    split
    · exact (rd_showTx n s _ .WP_LSTATE n lane).trans h
    split
    · refine each_induct (P := Failed n lane) _ ?_ fun k z hz =>
        hkeep k (fun z => !(s.wp n).txSet.testBit (logicalOf z n k) && z.rd .WP_LSTATE n k == 2) z hz fun h6 => by simp [h6]
      exact (rd_wr_ne _ (by rintro ⟨⟨⟩, -⟩)).trans ((rd_wr_ne _ (by rintro ⟨⟨⟩, -⟩)).trans h)
    · exact h
  have hdrop : Failed n lane (dropBackground n (keepOldSet n s)) :=
    each_induct (P := Failed n lane) _ hold fun k z hz => hkeep k (fun z => z.rd .WP_LSTATE n k == 4) z hz fun h6 => by simp [h6]
  unfold failReshape
  refine ((moves_trace (.refl foot_trace _) (within_self _)).reg .WP_LSTATE n lane (by decide +kernel)).trans ?_
  refine (rd_wr_ne _ (by rintro ⟨⟨⟩, -⟩)).trans ?_
  exact ((moves_endReshape (.refl foot_endReshape _) (within_self _)).reg .WP_LSTATE n lane (by decide +kernel)).trans hdrop

/-- A reshape that fails is over. -/
theorem failReshape_spec (n reason : Nat) (s : State) :
    (failReshape n reason s).rd .WL_RESHAPE_FAIL n = 1 ∧ (failReshape n reason s).rd .WL_RESHAPE_BUSY n = 0 := by
  unfold failReshape
  have htrace (z : State) := moves_trace (kind := 2) (id := n) (code := 0x0107) (arg := reason) (.refl foot_trace z) (within_self _)
  rw [(htrace _).reg .WL_RESHAPE_FAIL n 0 (by decide +kernel), (htrace _).reg .WL_RESHAPE_BUSY n 0 (by decide +kernel)]
  refine ⟨rd_wr _ .WL_RESHAPE_FAIL 1 n 0, (rd_wr_ne _ (by rintro ⟨⟨⟩, -⟩)).trans ?_⟩
  exact rd_wr _ .WL_RESHAPE_BUSY 0 n 0

theorem lane_failed {wl : Wl} {lane : Fin 4} {s : State} (hl : s.rd .WP_LSTATE wl lane = 4) :
    Completes (.backgroundTrainFail wl lane) s (fun t => t.rd .WP_LSTATE wl lane = 6 ∧ t.rd .WP_BG_FAIL wl = 1 ∧
      (agreed s wl = true → t.rd .WL_RESHAPE_FAIL wl = 1 ∧ t.rd .WL_RESHAPE_BUSY wl = 0)) := by
  refine ⟨_, congrArg Host.Outcome.next (when_of _ s (by simp [hl])), ?_⟩
  have hfailed : Failed wl lane ((moveLane wl lane 6 s).wr .WP_BG_FAIL 1 wl) :=
    (rd_wr_ne _ (by rintro ⟨⟨⟩, -⟩)).trans (rd_moveLane_failed (by rw [hl]; decide))
  have hflag : ((moveLane wl lane 6 s).wr .WP_BG_FAIL 1 wl).rd .WP_BG_FAIL wl = 1 := rd_wr _ .WP_BG_FAIL 1 wl 0
  have hagreed : agreed ((moveLane wl lane 6 s).wr .WP_BG_FAIL 1 wl) wl = agreed s wl := by
    have hwls : ((moveLane wl lane 6 s).wr .WP_BG_FAIL 1 wl).wls = s.wls :=
      (moves_moveLane (n := wl) (k := lane) (st := 6) (.refl foot_moveLane s) (within_self _)).part .wls (by decide +kernel)
    rw [agreed, State.wl, hwls, agreed, State.wl]
  dsimp only
  generalize (moveLane wl lane 6 s).wr .WP_BG_FAIL 1 wl = u at hfailed hflag hagreed ⊢
  rw [← hagreed]
  unfold when
  split
  next ha =>
    have hnak := moves_sendNak (n := wl) (id := (u.wl wl).rsId) (reason := 5) (.refl foot_sendNak u) (within_self _)
    have hflag' := ((moves_failReshape (n := wl) (reason := 5) (.refl foot_failReshape (sendNak wl (u.wl wl).rsId 5 u)) (within_self _)).reg
      .WP_BG_FAIL wl 0 (by decide +kernel)).trans ((hnak.reg .WP_BG_FAIL wl 0 (by decide +kernel)).trans hflag)
    exact ⟨failReshape_failed ((hnak.reg .WP_LSTATE wl lane (by decide +kernel)).trans hfailed), hflag', fun _ => failReshape_spec wl 5 _⟩
  next ha => exact ⟨hfailed, hflag, fun h => absurd h ha⟩

/-- Settles O50: a block goes out on the set that the transmitter may take, and what is received in place moves no lane. -/
theorem alignmentBlocks : Obligations.AlignmentBlocks := by
  unfold Obligations.AlignmentBlocks
  refine ⟨fun wl s hst hhalf => ⟨align_sent hst hhalf, align_switched hst hhalf⟩, fun wl bs s hst =>
    ⟨blocks_in_place hst, fun l hl => blocks_bad hst hl, blocks_agreed hst⟩, fun wl lane s hl => ⟨fun errors skew => lane_passed hl,
    fun errors skew => lane_waits, lane_failed hl⟩⟩

end Sys2Proof.Proofs
end

section
/-!
Reshaping a link: RESHAPE_GO and the messages of the exchange (R210 to R214).
-/
namespace Sys2Proof.Proofs
open Sys2Proof Sys2Proof.Machine Sys2Proof.Laws
set_option Elab.async false

/-! ### What the exchange's parts do -/

theorem sendNak_spec (n id reason : Nat) (s : State) : (sendNak n id reason s).rd .WL_NAK_CNT n = (s.rd .WL_NAK_CNT n + 1) % 2 ^ 64 ∧
    msgCore ((sendNak n id reason s).wl n) = msgCore (s.wl n) := by
  refine ⟨?_, sendLinkMsg_msgCore n 3 id 0 reason (s.inc .WL_NAK_CNT n) n⟩
  rw [sendNak, (moves_sendLinkMsg (.refl foot_sendLinkMsg _) (within_self _)).reg .WL_NAK_CNT n 0 (by decide +kernel)]
  exact rd_wr s .WL_NAK_CNT _ n 0

/-- A reshape that fails leaves no role, and what was abandoned before. -/
theorem failReshape_wl (n reason : Nat) (s : State) : ((failReshape n reason s).wl n).rsRole = 0 ∧
    ((failReshape n reason s).wl n).rsGone = (s.wl n).rsGone := by
  have hold : (dropBackground n (keepOldSet n s)).wls = s.wls :=
    ((moves_dropBackground (.refl foot_dropBackground (keepOldSet n s)) (within_self _)).part .wls (by decide +kernel)).trans
      ((moves_keepOldSet (.refl foot_keepOldSet s) (within_self _)).part .wls (by decide +kernel))
  have hgone : ((dropBackground n (keepOldSet n s)).wl n).rsGone = (s.wl n).rsGone := by rw [State.wl, hold, State.wl]
  have htrace (z : State) : (trace 2 n 0x0107 reason z).wl n = z.wl n := by
    rw [State.wl, show (trace 2 n 0x0107 reason z).wls = z.wls from
      (moves_trace (.refl foot_trace z) (within_self _)).part .wls (by decide +kernel), State.wl]
  unfold failReshape
  generalize dropBackground n (keepOldSet n s) = u at hgone ⊢
  have hended : (endReshape n u).wl n = (u.modWl n (fun w => { w with
      rsRole := 0, rsStage := 0, rsTicks := 0, rsTxSwitched := false, rsRxSwitched := false, rsReadySent := false
      rsReadyRcvd := false })).wl n := rfl
  rw [htrace, show ((endReshape n u).wr .WL_RESHAPE_FAIL 1 n).wl n = (endReshape n u).wl n from rfl, hended, wl_modWl_self]
  exact ⟨rfl, hgone⟩

/-- What agreement makes of the link: the reshape trains the lanes that join. -/
def agreedWl (s : State) (n set : Nat) (w : WlS) : WlS :=
  { w with rsStage := 2, rsSet := set, rsTxSwitched := false, rsRxSwitched := false, rsReadySent := (added s n set).isEmpty
           rsReadyRcvd := (added s n set).isEmpty }

/-- The state in which the lanes that join begin to train. -/
def reshapeAgreed (n set : Nat) (s : State) : State := (s.modWl n (agreedWl s n set)).modWp n (fun w => { w with bgPassed := 0 })

/-- A lane in STANDBY begins to train. -/
def trainLane (n l : Nat) (s : State) : State := when (s.rd .WP_LSTATE n (physOf s n l) == 3) (moveLane n (physOf s n l) 4) s

theorem agreeReshape_eq (n set : Nat) (s : State) :
    agreeReshape n set s = each (added s n set) (trainLane n) (reshapeAgreed n set s) := rfl

theorem trainLane_moves (n l : Nat) (s : State) : Moves foot_moveLane s (trainLane n l s) :=
  moves_when (.refl _ s) fun _ h => moves_moveLane h (within_self _)

theorem agreeReshape_wl (n set : Nat) (s : State) : (agreeReshape n set s).wl n = agreedWl s n set (s.wl n) := by
  have hwls : (agreeReshape n set s).wls = (reshapeAgreed n set s).wls := by
    rw [agreeReshape_eq]
    exact each_induct (P := fun z => z.wls = (reshapeAgreed n set s).wls) _ rfl fun l z hz =>
      ((trainLane_moves n l z).part .wls (by decide +kernel)).trans hz
  rw [State.wl, hwls, ← State.wl]
  exact wl_modWl_self s n _

/-- A lane in STANDBY takes background training. -/
theorem rd_moveLane_background {n k : Nat} {s : State} (h : s.rd .WP_LSTATE n k ≠ 5) : (moveLane n k 4 s).rd .WP_LSTATE n k = 4 := by
  have hsettle (z : State) (hz : z.rd .WP_LSTATE n k = 4) : (settlePrbs n k z).rd .WP_LSTATE n k = 4 := by
    unfold settlePrbs
    dsimp only
    rw [hz]
    split
    · exact (rd_wr_ne z (by rintro ⟨⟨⟩, -⟩)).trans hz
    · exact (rd_wr_ne z (by rintro ⟨⟨⟩, -⟩)).trans hz
  refine (rd_showTx n s _ .WP_LSTATE n k).trans ?_
  unfold setLane
  rw [if_neg h]
  exact (rd_wr_ne _ (by rintro ⟨⟨⟩, -⟩)).trans (hsettle _ (rd_wr s .WP_LSTATE 4 n k))

theorem physOf_trainLane (n l l' : Nat) (s : State) : physOf (trainLane n l s) n l' = physOf s n l' := by
  simp only [physOf, logicalOf, (trainLane_moves n l s).reg .WP_LANE_MAP n 0 (by decide +kernel)]

/-- A lane that trains, or may, does not leave for another state. -/
theorem trainLane_keeps {n l k : Nat} {s : State} (h : s.rd .WP_LSTATE n k = 4) : (trainLane n l s).rd .WP_LSTATE n k = 4 := by
  unfold trainLane
  by_cases he : k = physOf s n l
  · rw [when_of_not _ s (by rw [← he, h]; rfl)]
    exact h
  · exact when_cases (P := fun z => z.rd .WP_LSTATE n k = 4) h ((rd_moveLane_ne he).trans h)

theorem trainLane_standby {n l k : Nat} {s : State} (h : s.rd .WP_LSTATE n k = 3 ∨ s.rd .WP_LSTATE n k = 4) :
    ((trainLane n l s).rd .WP_LSTATE n k = 3 ∨ (trainLane n l s).rd .WP_LSTATE n k = 4) ∧
    (k = physOf s n l → (trainLane n l s).rd .WP_LSTATE n k = 4) := by
  rcases h with h | h
  · unfold trainLane
    by_cases he : k = physOf s n l
    · rw [when_of _ s (by rw [← he, h]; rfl), ← he]
      have h4 := rd_moveLane_background (n := n) (k := k) (s := s) (by rw [h]; decide)
      exact ⟨.inr h4, fun _ => h4⟩
    · exact ⟨.inl (when_cases (P := fun z => z.rd .WP_LSTATE n k = 3) h ((rd_moveLane_ne he).trans h)), fun e => absurd e he⟩
  · have h4 := trainLane_keeps (l := l) h
    exact ⟨.inr h4, fun _ => h4⟩

/-- Every lane of a list that was in STANDBY trains at the end. -/
theorem trainLanes {n k l : Nat} (ls : List Nat) {s : State} (hl : l ∈ ls) (hk : physOf s n l = k)
    (h : s.rd .WP_LSTATE n k = 3 ∨ s.rd .WP_LSTATE n k = 4) : (each ls (trainLane n) s).rd .WP_LSTATE n k = 4 := by
  induction ls generalizing s with
  | nil => exact absurd hl List.not_mem_nil
  | cons a ls ih =>
    obtain ⟨hnext, hdone⟩ := trainLane_standby (l := a) h
    rcases List.mem_cons.1 hl with rfl | hmem
    · exact each_induct (P := fun z => z.rd .WP_LSTATE n k = 4) ls (hdone hk.symm) fun b z hz => trainLane_keeps hz
    · exact ih hmem ((physOf_trainLane n a l s).trans hk) hnext

/-! ### RESHAPE_GO (R210) -/

section
variable {fn : Fn} {wl : Wl} {set : Fin 16} {s : State}

/-- The set as the manager wrote it. -/
def setWritten (n set : Nat) (s : State) : State := s.wr .WL_RESHAPE_SET set n

theorem exec_reshapeGo (hw : wlWrites s fn wl = true) (hup : s.rd .WL_LSTATE wl = 2) (hbusy : s.rd .WL_RESHAPE_BUSY wl = 0) :
    exec (.reshapeGoWrite fn wl set) s = .next (startReshape wl set (setWritten wl set s)) := by
  have hup' : (setWritten wl set s).rd .WL_LSTATE wl = 2 := (rd_wr_ne s (by rintro ⟨⟨⟩, -⟩)).trans hup
  have hbusy' : (setWritten wl set s).rd .WL_RESHAPE_BUSY wl = 0 := (rd_wr_ne s (by rintro ⟨⟨⟩, -⟩)).trans hbusy
  refine congrArg Host.Outcome.next ((when_of _ s hw).trans ?_)
  exact when_of (startReshape wl set) (setWritten wl set s)
    (show ((setWritten wl set s).rd .WL_LSTATE wl == 2 && !(setWritten wl set s).on .WL_RESHAPE_BUSY wl) = true by
      rw [hup', State.on, hbusy']; rfl)

theorem laneUsable_setWritten (n v l : Nat) (s : State) : laneUsable (setWritten n v s) n l = laneUsable s n l := by
  have hrd (f : Fld) (hf : f ≠ .WL_RESHAPE_SET) (i j : Nat) : (setWritten n v s).rd f i j = s.rd f i j :=
    rd_wr_ne s fun e => hf e.1
  have hphys : physOf (setWritten n v s) n l = physOf s n l := by
    simp only [physOf, logicalOf, hrd .WP_LANE_MAP (by decide)]
  simp only [laneUsable, hphys, hrd .WP_LSTATE (by decide)]
  rfl

/-- What the requester of a reshape holds. -/
def requester (set : Nat) (w : WlS) : WlS :=
  { w with rsRole := 1, rsId := w.rsNextId, rsSet := set, rsStage := 1, rsNextId := (w.rsNextId + 1) % 256,
           rsGone := w.rsGone.filter (fun x => x != w.rsNextId) }

theorem startReshape_ok {n set : Nat} {s : State} (h : ([0, 1, 2, 3].any (fun l => set.testBit l && !laneUsable s n l)) = false) :
    (startReshape n set s).rd .WL_RESHAPE_BUSY n = 1 ∧ (startReshape n set s).rd .WL_RESHAPE_SET n = s.rd .WL_RESHAPE_SET n ∧
    msgCore ((startReshape n set s).wl n) = msgCore (requester set (s.wl n)) := by
  have hrun : startReshape n set s =
      sendLinkMsg n 1 (s.wl n).rsNextId set 0 ((s.modWl n (requester set)).wr .WL_RESHAPE_BUSY 1 n) := by
    unfold startReshape
    rw [h, if_neg Bool.false_ne_true]
    rfl
  have hm := moves_sendLinkMsg (n := n) (msg := 1) (id := (s.wl n).rsNextId) (set := set) (reason := 0)
    (.refl foot_sendLinkMsg ((s.modWl n (requester set)).wr .WL_RESHAPE_BUSY 1 n)) (within_self _)
  have hcore := sendLinkMsg_msgCore n 1 (s.wl n).rsNextId set 0 ((s.modWl n (requester set)).wr .WL_RESHAPE_BUSY 1 n) n
  rw [hrun, hm.reg .WL_RESHAPE_BUSY n 0 (by decide +kernel), hm.reg .WL_RESHAPE_SET n 0 (by decide +kernel), hcore]
  refine ⟨rd_wr _ .WL_RESHAPE_BUSY 1 n 0, rd_wr_ne _ (by rintro ⟨⟨⟩, -⟩), congrArg msgCore ?_⟩
  exact wl_modWl_self s n (requester set)

theorem reshape_go (hw : wlWrites s fn wl = true) (hup : s.rd .WL_LSTATE wl = 2) (hbusy : s.rd .WL_RESHAPE_BUSY wl = 0)
    (hall : ∀ l < 4, set.val.testBit l = true → laneUsable s wl l = true) :
    Completes (.reshapeGoWrite fn wl set) s (fun t => t.rd .WL_RESHAPE_BUSY wl = 1 ∧ t.rd .WL_RESHAPE_SET wl = set ∧
        (t.wl wl).rsRole = 1 ∧ (t.wl wl).rsStage = 1 ∧ (t.wl wl).rsId = (s.wl wl).rsNextId ∧ (t.wl wl).rsSet = set) := by
  refine ⟨_, exec_reshapeGo hw hup hbusy, ?_⟩
  have hset : (setWritten wl set s).rd .WL_RESHAPE_SET wl = set := (rd_wr s .WL_RESHAPE_SET _ wl 0).trans (Nat.mod_eq_of_lt set.isLt)
  have husable : ([0, 1, 2, 3].any (fun l => set.val.testBit l && !laneUsable (setWritten wl set s) wl l)) = false := by
    refine List.any_eq_false.2 fun l hl => ?_
    rw [laneUsable_setWritten]
    cases hb : set.val.testBit l
    · simp
    · simp [hall l (List.mem_range.1 (show l ∈ List.range 4 from hl)) hb]
  obtain ⟨hbusy', hset', hcore⟩ := startReshape_ok husable
  obtain ⟨hrole, hstage, hid, hrs, -, -⟩ := of_msgCore hcore
  exact ⟨hbusy', hset'.trans hset, hrole, hstage, hid, hrs⟩

theorem reshape_go_unusable {l : Nat} (hl : l < 4) (hw : wlWrites s fn wl = true) (hup : s.rd .WL_LSTATE wl = 2)
    (hbusy : s.rd .WL_RESHAPE_BUSY wl = 0) (hb : set.val.testBit l = true) (hu : laneUsable s wl l = false) :
    Completes (.reshapeGoWrite fn wl set) s (fun t => t.rd .WL_RESHAPE_FAIL wl = 1 ∧ t.rd .WL_RESHAPE_BUSY wl = 0) := by
  refine ⟨_, exec_reshapeGo hw hup hbusy, ?_⟩
  have hlost : ([0, 1, 2, 3].any (fun l => set.val.testBit l && !laneUsable (setWritten wl set s) wl l)) = true := by
    refine List.any_eq_true.2 ⟨l, show l ∈ List.range 4 from List.mem_range.2 hl, ?_⟩
    rw [laneUsable_setWritten, hb, hu]
    rfl
  have hm (z : State) := moves_trace (kind := 2) (id := wl) (code := 0x0107) (arg := 3) (.refl foot_trace z) (within_self _)
  unfold startReshape
  dsimp only
  rw [hlost, if_pos rfl, (hm _).reg .WL_RESHAPE_FAIL wl 0 (by decide +kernel), (hm _).reg .WL_RESHAPE_BUSY wl 0 (by decide +kernel)]
  exact ⟨rd_wr _ .WL_RESHAPE_FAIL 1 wl 0, (rd_wr_ne _ (by rintro ⟨⟨⟩, -⟩)).trans ((rd_wr_ne s (by rintro ⟨⟨⟩, -⟩)).trans hbusy)⟩

theorem reshape_go_down (hw : wlWrites s fn wl = true) (hup : s.rd .WL_LSTATE wl ≠ 2) :
    exec (.reshapeGoWrite fn wl set) s = .next (s.wr .WL_RESHAPE_SET set wl) := by
  have hup' : (setWritten wl set s).rd .WL_LSTATE wl ≠ 2 := by
    rw [setWritten, rd_wr_ne s (by rintro ⟨⟨⟩, -⟩)]
    exact hup
  refine congrArg Host.Outcome.next ((when_of _ s hw).trans ?_)
  exact when_of_not (startReshape wl set) (setWritten wl set s)
    (show ((setWritten wl set s).rd .WL_LSTATE wl == 2 && !(setWritten wl set s).on .WL_RESHAPE_BUSY wl) = false by
      rw [beq_false_of_ne hup', Bool.false_and])

end

/-! ### The messages of the exchange (R211 to R214) -/

section
variable {wl : Wl} {id : Fin 256} {s : State}

theorem msgs_pass (hpass : grainsPass s wl = true) (hup : s.rd .WL_LSTATE wl = 2) : msgsPass s wl = true := by
  rw [msgsPass, hpass, hup]
  rfl

/-- A request is judged while the link takes no part in a reshape. -/
theorem laneReqRcvd_idle {n i set : Nat} (hrole : (s.wl n).rsRole = 0) : laneReqRcvd n i set s =
    if !setOk s n set then sendNak n i 3 s
    else if (s.wl n).rtHeld != 0 then sendNak n i 2 s
    else sendLinkMsg n 2 i set 0 (agreeReshape n set ((s.wr .WL_RESHAPE_BUSY 1 n).modWl n (fun w => { w with rsRole := 2, rsId := i }))) := by
  unfold laneReqRcvd
  dsimp only
  rw [hrole, if_neg (by simp), when_of_not _ s (by simp), hrole]
  rfl

theorem lane_req {set : Fin 16} (hpass : grainsPass s wl = true) (hup : s.rd .WL_LSTATE wl = 2) (hrole : (s.wl wl).rsRole = 0)
    (hok : setOk s wl set = true) (hheld : (s.wl wl).rtHeld = 0) : Completes (.laneReq wl id set) s (fun t =>
      t.rd .WL_RESHAPE_BUSY wl = 1 ∧ (t.wl wl).rsRole = 2 ∧ (t.wl wl).rsStage = 2 ∧ (t.wl wl).rsSet = set ∧ (t.wl wl).rsId = id) := by
  have hrun : laneReqRcvd wl id set s = sendLinkMsg wl 2 id set 0 (agreeReshape wl set
      ((s.wr .WL_RESHAPE_BUSY 1 wl).modWl wl (fun w => { w with rsRole := 2, rsId := id }))) := by
    rw [laneReqRcvd_idle hrole, hok, if_neg (by decide), hheld, if_neg (by decide)]
  refine ⟨_, congrArg Host.Outcome.next ((when_of _ s (msgs_pass hpass hup)).trans hrun), ?_⟩
  have hbusy : ((s.wr .WL_RESHAPE_BUSY 1 wl).modWl wl (fun w => { w with rsRole := 2, rsId := id })).rd .WL_RESHAPE_BUSY wl = 1 :=
    rd_wr s .WL_RESHAPE_BUSY 1 wl 0
  have hwl : ((s.wr .WL_RESHAPE_BUSY 1 wl).modWl wl (fun w => { w with rsRole := 2, rsId := id })).wl wl =
      { s.wl wl with rsRole := 2, rsId := id } := wl_modWl_self _ wl _
  generalize (s.wr .WL_RESHAPE_BUSY 1 wl).modWl wl (fun w => { w with rsRole := 2, rsId := id }) = u at hbusy hwl ⊢
  have hcore := of_msgCore (sendLinkMsg_msgCore wl 2 id set 0 (agreeReshape wl set u) wl)
  rw [agreeReshape_wl, hwl] at hcore
  obtain ⟨hr, hstage, hid, hset, -, -⟩ := hcore
  refine ⟨?_, hr, hstage, hset, hid⟩
  exact ((moves_sendLinkMsg (.refl foot_sendLinkMsg _) (within_self _)).reg .WL_RESHAPE_BUSY wl 0 (by decide +kernel)).trans
    (((moves_agreeReshape (.refl foot_agreeReshape u) (within_self _)).reg .WL_RESHAPE_BUSY wl 0 (by decide +kernel)).trans hbusy)

theorem lane_req_refused {set : Fin 16} (hpass : grainsPass s wl = true) (hup : s.rd .WL_LSTATE wl = 2) (hrole : (s.wl wl).rsRole = 0)
    (hbad : setOk s wl set = false ∨ (s.wl wl).rtHeld ≠ 0) : Completes (.laneReq wl id set) s (fun t =>
      t.rd .WL_NAK_CNT wl = (s.rd .WL_NAK_CNT wl + 1) % 2 ^ 64 ∧ (t.wl wl).rsRole = 0) := by
  have hrun : ∃ reason, laneReqRcvd wl id set s = sendNak wl id reason s := by
    rw [laneReqRcvd_idle hrole]
    cases hok : setOk s wl set with
    | false => exact ⟨3, rfl⟩
    | true =>
      have hheld : ((s.wl wl).rtHeld != 0) = true := by simpa using hbad.resolve_left (by rw [hok]; decide)
      exact ⟨2, by rw [if_neg (by decide), hheld, if_pos rfl]⟩
  obtain ⟨reason, hreason⟩ := hrun
  obtain ⟨hcnt, hcore⟩ := sendNak_spec wl id reason s
  exact ⟨_, congrArg Host.Outcome.next ((when_of _ s (msgs_pass hpass hup)).trans hreason), hcnt, (of_msgCore hcore).1.trans hrole⟩

theorem lane_ack (hpass : grainsPass s wl = true) (hup : s.rd .WL_LSTATE wl = 2) (hrole : (s.wl wl).rsRole = 1)
    (hid : (s.wl wl).rsId = id) (hstage : (s.wl wl).rsStage = 1) : Completes (.laneAck wl id) s (fun t =>
      (t.wl wl).rsStage = 2 ∧ (t.wl wl).rsSet = (s.wl wl).rsSet ∧
      ∀ l ∈ added s wl (s.wl wl).rsSet, s.rd .WP_LSTATE wl (physOf s wl l) = 3 → t.rd .WP_LSTATE wl (physOf s wl l) = 4) := by
  have hrun : laneAckRcvd wl id s = agreeReshape wl (s.wl wl).rsSet s := by
    unfold laneAckRcvd
    exact if_pos (by simp [hrole, hid, hstage])
  refine ⟨_, congrArg Host.Outcome.next ((when_of _ s (msgs_pass hpass hup)).trans hrun), ?_, ?_, fun l hl h3 => ?_⟩
  · rw [agreeReshape_wl]
    rfl
  · rw [agreeReshape_wl]
    rfl
  · rw [agreeReshape_eq]
    exact trainLanes _ hl rfl (.inl h3)

/-- An answer that answers nothing is noted where its request was abandoned. -/
theorem lane_ack_stray (hpass : grainsPass s wl = true) (hup : s.rd .WL_LSTATE wl = 2)
    (hnot : (s.wl wl).rsRole ≠ 1 ∨ (s.wl wl).rsId ≠ id ∨ (s.wl wl).rsStage ≠ 1) :
    ((s.wl wl).rsGone.contains id.val = true → Completes (.laneAck wl id) s (fun t =>
        t.rd .WL_NAK_CNT wl = (s.rd .WL_NAK_CNT wl + 1) % 2 ^ 64)) ∧
    ((s.wl wl).rsGone.contains id.val = false → exec (.laneAck wl id) s = .next s) := by
  have hmine : ¬ (decide ((s.wl wl).rsRole = 1) && (s.wl wl).rsId == id.val && (s.wl wl).rsStage == 1) = true := by
    simp only [Bool.and_eq_true, decide_eq_true_eq, beq_iff_eq]
    tauto
  refine ⟨fun hgone => ?_, fun hgone => ?_⟩
  · have hrun : laneAckRcvd wl id s =
        sendNak wl id 6 (s.modWl wl (fun w => { w with rsGone := w.rsGone.filter (fun x => x != id.val) })) := by
      unfold laneAckRcvd
      dsimp only
      rw [if_neg hmine, hgone, if_pos rfl]
    exact ⟨_, congrArg Host.Outcome.next ((when_of _ s (msgs_pass hpass hup)).trans hrun), (sendNak_spec wl id 6 _).1⟩
  · have hrun : laneAckRcvd wl id s = s := by
      unfold laneAckRcvd
      dsimp only
      rw [if_neg hmine, hgone, if_neg Bool.false_ne_true]
    exact congrArg Host.Outcome.next ((when_of _ s (msgs_pass hpass hup)).trans hrun)

theorem lane_nak {reason : Nat} (hpass : grainsPass s wl = true) (hup : s.rd .WL_LSTATE wl = 2) (hrole : (s.wl wl).rsRole ≠ 0)
    (hid : (s.wl wl).rsId = id) (hfits : nakFits (s.wl wl) reason = true) : Completes (.laneNak wl id reason) s (fun t =>
        t.rd .WL_NAK_CNT wl = (s.rd .WL_NAK_CNT wl + 1) % 2 ^ 64 ∧ t.rd .WL_RESHAPE_FAIL wl = 1 ∧
        t.rd .WL_RESHAPE_BUSY wl = 0 ∧ (t.wl wl).rsRole = 0) := by
  have hrun : laneNakRcvd wl id reason s = failReshape wl reason (s.inc .WL_NAK_CNT wl) :=
    when_of (failReshape wl reason) (s.inc .WL_NAK_CNT wl) (show ((s.wl wl).rsRole != 0 && (s.wl wl).rsId == id.val &&
      nakFits (s.wl wl) reason) = true by simp [hrole, hid, hfits])
  obtain ⟨hfail, hbusy⟩ := failReshape_spec wl reason (s.inc .WL_NAK_CNT wl)
  refine ⟨_, congrArg Host.Outcome.next ((when_of _ s (msgs_pass hpass hup)).trans hrun), ?_, hfail, hbusy, (failReshape_wl ..).1⟩
  exact ((moves_failReshape (.refl foot_failReshape _) (within_self _)).reg .WL_NAK_CNT wl 0 (by decide +kernel)).trans
    (rd_wr s .WL_NAK_CNT _ wl 0)

theorem lane_nak_stray {reason : Nat} (hpass : grainsPass s wl = true) (hup : s.rd .WL_LSTATE wl = 2)
    (hnot : (s.wl wl).rsRole = 0 ∨ (s.wl wl).rsId ≠ id ∨ nakFits (s.wl wl) reason = false) :
    exec (.laneNak wl id reason) s = .next (s.inc .WL_NAK_CNT wl) := by
  refine congrArg Host.Outcome.next ((when_of _ s (msgs_pass hpass hup)).trans ?_)
  refine when_of_not (failReshape wl reason) (s.inc .WL_NAK_CNT wl) (show ((s.wl wl).rsRole != 0 && (s.wl wl).rsId == id.val &&
      nakFits (s.wl wl) reason) = false from ?_)
  rcases hnot with h | h | h <;> simp [h]

theorem lane_ready (hpass : grainsPass s wl = true) (hup : s.rd .WL_LSTATE wl = 2) (hstage : (s.wl wl).rsStage = 2)
    (hid : (s.wl wl).rsId = id) : Completes (.laneReady wl id) s (fun t => (t.wl wl).rsReadyRcvd = true ∧ t.regs = s.regs) := by
  refine ⟨_, congrArg Host.Outcome.next ((when_of _ s (msgs_pass hpass hup)).trans (when_of _ s (by simp [hstage, hid]))), ?_, rfl⟩
  rw [wl_modWl_self]

theorem reshape_timeout (hrole : (s.wl wl).rsRole = 1) (hstage : (s.wl wl).rsStage = 1) (hticks : (s.wl wl).rsTicks = 0)
    (hmsgs : ∀ m ∈ (s.wl wl).msgQ, m.head? ≠ some 1) : Completes (.reshapeTimeout wl) s (fun t =>
      t.rd .WL_RESHAPE_FAIL wl = 1 ∧ t.rd .WL_RESHAPE_BUSY wl = 0 ∧ (t.wl wl).rsRole = 0 ∧ (s.wl wl).rsId ∈ (t.wl wl).rsGone) := by
  have hnone : ((s.wl wl).msgQ.any (fun m => m.head? == some 1)) = false :=
    List.any_eq_false.2 fun m hm => by simpa using hmsgs m hm
  refine ⟨_, congrArg Host.Outcome.next (when_of _ s (by rw [hrole, hstage, hticks, hnone]; rfl)), ?_⟩
  obtain ⟨hfail, hbusy⟩ := failReshape_spec wl 6 (s.modWl wl (fun w => { w with rsGone := w.rsGone ++ [w.rsId] }))
  obtain ⟨hrole', hgone⟩ := failReshape_wl wl 6 (s.modWl wl (fun w => { w with rsGone := w.rsGone ++ [w.rsId] }))
  refine ⟨hfail, hbusy, hrole', ?_⟩
  rw [hgone, wl_modWl_self]
  exact List.mem_append_right _ (List.mem_singleton.2 rfl)

end

/-- Settles O55: the messages leave what the exchange holds, and agreement trains the lanes that join. -/
theorem reshape : Obligations.Reshape := by
  unfold Obligations.Reshape
  refine ⟨fun fn wl set s hw => ⟨reshape_go hw, fun l hl => reshape_go_unusable hl hw, reshape_go_down hw⟩,
    fun wl id set s hpass hup hrole => ⟨lane_req hpass hup hrole, lane_req_refused hpass hup hrole⟩,
    fun wl id s hpass hup => ⟨lane_ack hpass hup, lane_ack_stray hpass hup, fun reason => lane_nak hpass hup,
      fun reason => lane_nak_stray hpass hup, lane_ready hpass hup⟩, fun wl s => reshape_timeout⟩

end Sys2Proof.Proofs
end

section
/-!
What decides where a packet of a local design goes, and that the steps before it goes leave that (R100, R103, R114).
-/
namespace Sys2Proof.Proofs
open Sys2Proof Sys2Proof.Machine Sys2Proof.Laws
set_option Elab.async false

/-- The registers that outbound windows, sheaves and the state of their destinations are read from. -/
def outFlds : List Fld :=
  [.OW_LINK, .OW_LOCAL_BASE_LO, .OW_LOCAL_BASE_HI, .OW_SIZE_LO, .OW_SIZE_HI, .OW_HOST_BASE_LO, .OW_HOST_BASE_HI, .OW_SHEAF, .OW_TNID,
   .OW_TO_PF, .OW_PF_HL, .OW_WR, .OW_RD, .OW_AT, .OW_CLASS, .SH_MODE, .SH_WINDOW, .SH_DEST_COUNT, .SH_TO_PF, .SH_PF_HL, .SH_TNID,
   .SH_HOST_BASE_LO, .SH_HOST_BASE_HI, .TN_STATE, .TN_HL, .TN_VF, .TN_PERMIT0, .TN_PERMIT1, .TN_PERMIT2, .TN_ALLOWANCE, .TN_CB_UNITS,
   .PW_STATE, .HL_DL_UP]

/-- Those registers, and the configuration of functions, are the same. -/
structure OutLook (s t : State) : Prop where
  rd : ∀ f, f ∈ outFlds → ∀ i j, t.rd f i j = s.rd f i j
  cfg : t.cfg = s.cfg

/-- A step moves none of them. -/
def outCalm (m : Nat) : Bool := outFlds.all (fun f => !m.testBit (fbit f)) && !m.testBit Part.cfg.ctorIdx

theorem OutLook.of_moves {m : Nat} {s t : State} (ht : Moves m s t) (hm : outCalm m = true := by decide +kernel) : OutLook s t := by
  simp only [outCalm, Bool.and_eq_true, List.all_eq_true, Bool.not_eq_true'] at hm
  exact ⟨fun f hf i j => ht.reg f i j (hm.1 f hf), ht.part .cfg hm.2⟩

theorem OutLook.refl (s : State) : OutLook s s := ⟨fun _ _ _ _ => rfl, rfl⟩

theorem OutLook.trans {r s t : State} (h : OutLook r s) (h' : OutLook s t) : OutLook r t :=
  ⟨fun f hf i j => (h'.rd f hf i j).trans (h.rd f hf i j), h'.cfg.trans h.cfg⟩

theorem OutLook.takePacket (n : Nat) (p : Pkt) (s : State) : OutLook s (takePacket n p s) :=
  .of_moves (moves_takePacket (.refl _ s) (within_self _))

section
variable {s t : State} (h : OutLook s t)
include h

theorem OutLook.cf (f : Nat) : t.cf f = s.cf f := by rw [State.cf, h.cfg, State.cf]

theorem OutLook.tlOn (k : Nat) : t.tlOn k = s.tlOn k := by simp (disch := decide) only [State.tlOn, State.domOn, h.rd]

theorem OutLook.dlUp (k : Nat) : t.dlUp k = s.dlUp k := by simp (disch := decide) only [State.dlUp, State.on, h.rd]

theorem OutLook.tnState (n : Nat) : t.tnState n = s.tnState n := by simp (disch := decide) only [State.tnState, h.rd]

theorem OutLook.tnDead (n : Nat) : tnDead t n = tnDead s n := by simp only [Machine.tnDead, h.tnState]

theorem OutLook.tnFn (n : Nat) : t.tnFn n = s.tnFn n := by simp (disch := decide) only [State.tnFn, h.rd]

theorem OutLook.owBase (i : Nat) : owBase t i = owBase s i := by simp (disch := decide) only [Machine.owBase, h.rd]

theorem OutLook.owSize (i : Nat) : owSize t i = owSize s i := by simp (disch := decide) only [Machine.owSize, h.rd]

theorem OutLook.owHost (i : Nat) : owHost t i = owHost s i := by simp (disch := decide) only [Machine.owHost, h.rd]

theorem OutLook.owDest (i : Nat) : owDest t i = owDest s i := by
  simp (disch := decide) only [Machine.owDest, State.on, h.tnFn, h.rd]
  rfl

theorem OutLook.shDest (i d : Nat) : shDest t i d = shDest s i d := by
  simp (disch := decide) only [Machine.shDest, State.on, h.tnFn, h.rd]
  rfl

theorem OutLook.findOut (n a : Nat) : findOut t n a = findOut s n a := by
  simp (disch := decide) only [Machine.findOut, State.on, h.tnDead, h.owBase, h.owSize, h.owDest, h.rd]
  rfl

theorem OutLook.permits (tn n : Nat) : permits t tn n = permits s tn n := by
  unfold Machine.permits State.bit
  split_ifs <;> rw [h.rd _ (by decide)]

theorem OutLook.missCause (n i : Nat) (p : Pkt) {bit : Fld} (hb : bit ∈ outFlds) : missCause t n i p bit = missCause s n i p bit := by
  simp (disch := decide) only [Machine.missCause, State.on, h.owBase, h.owSize, h.owDest, h.permits, h.rd bit hb, h.rd]
  rfl

theorem OutLook.undeliverable (f : Nat) : undeliverable t f = undeliverable s f := by
  simp only [Machine.undeliverable, masters, h.tlOn, h.dlUp, h.cf]
  rfl

theorem OutLook.isExcused (i d : Nat) : isExcused t i d = isExcused s i d := by
  simp only [Machine.isExcused, h.shDest, h.undeliverable, h.tnState]

end

theorem tagOpen_takePacket (n tag : Nat) (p : Pkt) (s : State) : tagOpen (takePacket n p s) n tag = tagOpen s n tag := by
  have hloc : (takePacket n p s).locReqs = s.locReqs := (moves_takePacket (.refl foot_takePacket s) (within_self _)).part .locReqs (by decide +kernel)
  have hq : ((takePacket n p s).wl n).linkQ = (s.wl n).linkQ := by
    have hcore := congrArg WlS.linkQ (wlCore_takePacket n p s n)
    exact hcore
  simp only [tagOpen, locReq, hloc, hq]

end Sys2Proof.Proofs
end

section
/-!
Copies of a packet that enters a sheaf, and a destination whose lag exceeds its budget (R114 to R117).
-/
namespace Sys2Proof.Proofs
open Sys2Proof Sys2Proof.Machine Sys2Proof.Laws
set_option Elab.async false

/-! ### What joins the host queue -/

/-- The host queue keeps its requests in order, and those that join it satisfy `P`. -/
def QGrows (P : HReq → Prop) (s t : State) : Prop := ∃ l, t.hostQ = s.hostQ ++ l ∧ ∀ r ∈ l, P r

section
variable {P : HReq → Prop} {r s t : State}

theorem QGrows.same (h : t.hostQ = s.hostQ) : QGrows P s t := ⟨[], by rw [h, List.append_nil], fun _ hr => absurd hr List.not_mem_nil⟩

theorem QGrows.refl (s : State) : QGrows P s s := .same rfl

theorem QGrows.trans (h : QGrows P r s) (h' : QGrows P s t) : QGrows P r t := by
  obtain ⟨l, hl, hp⟩ := h
  obtain ⟨l', hl', hp'⟩ := h'
  refine ⟨l ++ l', by rw [hl', hl, List.append_assoc], fun x hx => ?_⟩
  exact (List.mem_append.1 hx).elim (hp x) (hp' x)

theorem QGrows.enqueue {x : HReq} (hx : P x) (s : State) : QGrows P s (enqueueHost x s) :=
  ⟨[x], rfl, fun y hy => by rw [List.mem_singleton.1 hy]; exact hx⟩

theorem QGrows.when {c : Bool} {f : State → State} (hf : QGrows P s (f s)) : QGrows P s (when c f s) :=
  when_cases (P := QGrows P s) (.refl s) hf

theorem QGrows.each {α : Type} {l : List α} {f : α → State → State} (hf : ∀ a z, QGrows P z (f a z)) (s : State) :
    QGrows P s (each l f s) := each_induct (P := QGrows P s) l (.refl s) fun a z hz => hz.trans (hf a z)

theorem QGrows.of_moves {m : Nat} (h : Moves m s t) (hm : m.testBit Part.hostQ.ctorIdx = false := by decide +kernel) : QGrows P s t :=
  .same (h.part .hostQ hm)

theorem QGrows.mem (h : QGrows P s t) {x : HReq} (hx : x ∈ s.hostQ) : x ∈ t.hostQ := by
  obtain ⟨l, hl, -⟩ := h
  rw [hl]
  exact List.mem_append_left _ hx

theorem QGrows.mono {Q : HReq → Prop} (h : QGrows P s t) (hPQ : ∀ x, P x → Q x) : QGrows Q s t := by
  obtain ⟨l, hl, hp⟩ := h
  exact ⟨l, hl, fun x hx => hPQ x (hp x hx)⟩

end

/-- A request that is not a sheaf's copy. -/
def NotCopy (r : HReq) : Prop := ∀ id d wl lane, r.src ≠ .sheafCopy id d wl lane

theorem grows_raiseVecWith {k : State → State} (hk : ∀ z, QGrows NotCopy z (k z)) (f v : Nat) (s : State) :
    QGrows NotCopy s (raiseVecWith k f v s) := by
  have hpend (z : State) : QGrows NotCopy z (pendVec f v z) := .of_moves (moves_pendVec (.refl foot_pendVec z) (within_self _))
  have hsend : QGrows NotCopy s (sendVec f v s) := by
    unfold sendVec
    dsimp only
    exact QGrows.trans (.same rfl) (.enqueue (fun _ _ _ _ => nofun) _)
  unfold raiseVecWith
  split
  · exact .refl s
  split
  · exact .same rfl
  split
  · exact .same rfl
  split
  · exact .same (when_cases (P := fun z => (z.wr .FI_WAITING 1 f v).hostQ = s.hostQ) rfl rfl)
  split
  · exact hpend s
  split
  · exact hsend
  · exact (hpend s).trans (.when (hk _))

theorem grows_raiseCauseWith {k : State → State} (hk : ∀ z, QGrows NotCopy z (k z)) (f : Nat) (c : Cause) (s : State) :
    QGrows NotCopy s (raiseCauseWith k f c s) := by
  unfold raiseCauseWith
  dsimp only
  split
  · exact QGrows.trans (.same rfl) (.when (grows_raiseVecWith hk f _ _))
  split
  · exact .when (.same rfl)
  · exact .refl s

theorem grows_pmeSignal (p : Nat) (s : State) : QGrows NotCopy s (pmeSignal p s) := by
  unfold pmeSignal
  dsimp only
  split
  · split
    · exact QGrows.trans (.same rfl) (grows_raiseCauseWith (fun z => .refl z) p .hostlink _)
    · have hset : QGrows NotCopy s (s.modCf p (fun c => { c with pmeStatus := true })) := .same rfl
      exact hset.trans (.of_moves (moves_sendMsg (.refl foot_sendMsg _) (within_self _)))
  · exact .refl s

theorem grows_raiseCause (f : Nat) (c : Cause) (s : State) : QGrows NotCopy s (raiseCause f c s) :=
  grows_raiseCauseWith (fun z => grows_pmeSignal _ z) f c s

theorem grows_startFlush (q : LocReq) (sheaf : Nat) (s : State) : QGrows NotCopy s (startFlush q sheaf s) := by
  have hcover (c : SheafAcc → Nat) (z : State) : QGrows NotCopy z (coverAccepted q.lane sheaf c z) :=
    .of_moves (moves_coverAccepted (.refl foot_coverAccepted z) (within_self _))
  have hdrops (l : List SheafAcc) : QGrows NotCopy s (each l (fun a s => s.inc .HL_DROP_CNT a.fn.hl.val) s) :=
    .each (f := fun (a : SheafAcc) s => s.inc .HL_DROP_CNT a.fn.hl.val) (fun _ _ => .same rfl) s
  unfold startFlush
  dsimp only
  split
  · exact ((hdrops _).trans (hcover _ _)).trans (.of_moves (moves_answerLoc (.refl foot_answerLoc _) (within_self _)))
  · refine QGrows.trans ?_ (.each (fun a z => .enqueue (fun _ _ _ _ => nofun) z) _)
    exact ((hdrops _).trans (hcover _ _)).trans (.of_moves (moves_modLoc (.refl foot_modLoc _) (within_self _)))

/-- What the end of a packet moves. -/
def settledFoot : Nat := foot_releasePkt ||| foot_answerLoc ||| foot_showSheaf

theorem grows_settleSheaves (s : State) : QGrows NotCopy s (settleSheaves s) := by
  unfold settleSheaves
  extract_lets isDone fin s1 s2
  have h2 : QGrows NotCopy s s2 := by
    refine QGrows.trans (s := s1) (.same rfl) (.each (fun p z => .of_moves (m := settledFoot) ?_) s1)
    refine moves_showSheaf (moves_when (moves_releasePkt (.refl settledFoot z) (by unfold Within; decide +kernel)) fun y hy => ?_)
      (by unfold Within; decide +kernel)
    exact moves_withSome hy fun q x hx => moves_when hx fun w hw => moves_answerLoc hw (by unfold Within; decide +kernel)
  exact h2.trans (.each (fun q z => grows_startFlush q _ z) s2)

/-! ### The copies of a packet (R114) -/

theorem grows_queueGap (i d wl lane : Nat) (s : State) : QGrows (fun _ => True) s (queueGap i d wl lane s) := by
  have htrace (f code arg : Nat) (z : State) : QGrows (fun _ => True) z (traceFn f code arg z) :=
    .of_moves (moves_traceFn (.refl foot_traceFn z) (within_self _))
  unfold queueGap
  dsimp only
  split
  · split
    · exact QGrows.trans (s := { s with free := s.free + 1 }) (.same rfl)
        (QGrows.trans (QGrows.trans (.same rfl) (.enqueue trivial _)) (htrace _ _ _ _))
    · exact QGrows.trans (QGrows.trans (.same rfl) (.enqueue trivial _)) (htrace _ _ _ _)
  · exact QGrows.trans (.same rfl) (htrace _ _ _ _)

/-- The class of a window's request changes neither where it goes nor what it carries. -/
theorem classed_keeps (i d : Nat) (r : HReq) (s : State) : (classed i d r s).1.fn = r.fn ∧ (classed i d r s).1.kind = r.kind ∧
    (classed i d r s).1.addr = r.addr ∧ (classed i d r s).1.len = r.len ∧ (classed i d r s).1.data = r.data ∧
    (classed i d r s).1.src = r.src ∧ (classed i d r s).1.tn = r.tn ∧ (classed i d r s).1.cls = s.rd .OW_CLASS i := by
  unfold classed
  dsimp only
  split
  next h => exact ⟨rfl, rfl, rfl, rfl, rfl, rfl, rfl, h.symm⟩
  next => exact ⟨rfl, rfl, rfl, rfl, rfl, rfl, rfl, rfl⟩

theorem classed_moves (i d : Nat) (r : HReq) (s : State) : Moves foot_traceFn s (classed i d r s).2 := by
  unfold classed
  dsimp only
  split
  · exact moves_when (.refl _ s) fun _ h => moves_traceFn h (within_self _)
  · exact .refl _ s

/-- The request of a copy, before the class of its window is known. -/
def copyBase (i d win : Nat) (p : SheafPkt) (f tn : Nat) (s : State) : HReq :=
  { hreq s f .write (s.rd .SH_HOST_BASE_LO i d * 4096 + s.rd .SH_HOST_BASE_HI i d * 2 ^ 32 + p.offset) p.pkt.len
      p.pkt.payload (.sheafCopy p.id d p.wl p.pkt.lane) tn with
    charge := if tn < 256 then p.pkt.len else 0
    ro := p.pkt.ro && s.on .OW_RO_OK win && (s.cf f).roEn
    ido := s.on .OW_IDO_OK win && (s.cf f).idoEn }

/-- A copy joins the queue. -/
def putCopy (i d win : Nat) (p : SheafPkt) (f tn : Nat) (s : State) : State :=
  setCopy p.id d .waiting (enqueueHost (classed win d (copyBase i d win p f tn s) s).1 (classed win d (copyBase i d win p f tn s) s).2)

theorem grows_putCopy (i d win : Nat) (p : SheafPkt) (f tn : Nat) (s : State) : QGrows (fun _ => True) s (putCopy i d win p f tn s) :=
  QGrows.trans (QGrows.trans (.of_moves (classed_moves ..)) (.enqueue trivial _)) (.same rfl)

theorem copyFor_put {i d win : Nat} {p : SheafPkt} {s : State} (hexc : isExcused s i d = false)
    (hperm : (shDest s i d).2 < 256 → permits s (shDest s i d).2 p.wl = true) (hlag : s.bit d .SH_LAGGING i = false) :
    copyFor i d win p s = putCopy i d win p (shDest s i d).1 (shDest s i d).2
      (when ((s.clrB d .SH_EXCUSED i).dest i d).owed (queueGap i d p.wl p.pkt.lane) (s.clrB d .SH_EXCUSED i)) := by
  have hgo : (isExcused s i d || (decide ((shDest s i d).2 < 256) && !permits s (shDest s i d).2 p.wl)) = false := by
    rw [hexc, Bool.false_or]
    by_cases h : (shDest s i d).2 < 256 <;> simp [h, hperm]
  have hlag' : (s.clrB d .SH_EXCUSED i).bit d .SH_LAGGING i = false := by
    rw [State.bit, State.clrB, rd_wr_ne s (by rintro ⟨⟨⟩, -⟩)]
    exact hlag
  unfold copyFor
  dsimp only
  rw [hgo, if_neg Bool.false_ne_true, hlag', if_neg Bool.false_ne_true]
  rfl

theorem grows_copyFor (i d win : Nat) (p : SheafPkt) (s : State) : QGrows (fun _ => True) s (copyFor i d win p s) := by
  have hput (z : State) := grows_putCopy i d win p (shDest s i d).1 (shDest s i d).2 z
  have hgap (z : State) := grows_queueGap i d p.wl p.pkt.lane z
  unfold copyFor
  dsimp only
  split
  · exact .same (when_cases (P := fun z => (setCopy p.id d .discarded z).hostQ = s.hostQ) rfl rfl)
  split
  · unfold choose
    dsimp only
    split
    · exact QGrows.trans (QGrows.trans (s := (({ s.clrB d .SH_EXCUSED i with free := s.free + 1 } : State).clrB d .SH_LAGGING i)) (.same rfl) (hgap _)) (hput _)
    · exact .same rfl
  · exact QGrows.trans (QGrows.trans (s := s.clrB d .SH_EXCUSED i) (.same rfl) (.when (hgap _))) (hput _)

theorem testBit_clrBit_of (v m n : Nat) (h : v.testBit m = false) : (clrBit v n).testBit m = false := by
  unfold clrBit
  split
  next hset =>
    rcases Nat.lt_trichotomy m n with hlt | rfl | hgt
    · rw [← h, Nat.testBit_eq_decide_div_mod_eq, Nat.testBit_eq_decide_div_mod_eq]
      obtain ⟨k, rfl⟩ := Nat.exists_eq_add_of_lt hlt
      have hle := Nat.ge_two_pow_of_testBit hset
      have hpow : 2 ^ (m + k + 1) = 2 ^ m * (2 * 2 ^ k) := by ring
      rw [hpow] at hle ⊢
      rw [Nat.sub_mul_div]
      have hbig : 2 * 2 ^ k ≤ v / 2 ^ m := (Nat.le_div_iff_mul_le (Nat.two_pow_pos m)).2 (by rw [Nat.mul_comm]; exact hle)
      congr 2
      omega
    · exact absurd (h.symm.trans hset) nofun
    · obtain ⟨k, rfl⟩ := Nat.exists_eq_add_of_lt hgt
      have hodd : v / 2 ^ n % 2 = 1 := by rwa [Nat.testBit_eq_decide_div_mod_eq, decide_eq_true_eq] at hset
      have hdiv := Nat.sub_mul_div v (2 ^ n) 1
      rw [Nat.mul_one] at hdiv
      have hhalf : (v - 2 ^ n) / 2 ^ (n + 1) = v / 2 ^ (n + 1) := by
        calc (v - 2 ^ n) / 2 ^ (n + 1) = (v - 2 ^ n) / 2 ^ n / 2 := (Nat.div_div_eq_div_mul _ _ _).symm
          _ = v / 2 ^ n / 2 := by
            rw [hdiv]
            generalize v / 2 ^ n = q at hodd ⊢
            omega
          _ = v / 2 ^ (n + 1) := Nat.div_div_eq_div_mul _ _ _
      have hshift (w : Nat) : w.testBit (n + k + 1) = (w / 2 ^ (n + 1)).testBit k := by
        rw [Nat.testBit_div_two_pow]
        congr 1
        omega
      rw [← h, hshift, hshift, hhalf]
  next => exact h

/-- A destination that is not LAGGING stays so while copies are made. -/
theorem lagging_copyFor {i d d' win : Nat} {p : SheafPkt} {s : State} (h : s.bit d .SH_LAGGING i = false) :
    (copyFor i d' win p s).bit d .SH_LAGGING i = false := by
  have hother {z t : State} (hz : z.bit d .SH_LAGGING i = false) (ht : t.rd .SH_LAGGING i = z.rd .SH_LAGGING i) :
      t.bit d .SH_LAGGING i = false := by rwa [State.bit, ht]
  have hput (z : State) (hz : z.bit d .SH_LAGGING i = false) :
      (putCopy i d' win p (shDest s i d').1 (shDest s i d').2 z).bit d .SH_LAGGING i = false :=
    hother hz ((classed_moves win d' (copyBase i d' win p (shDest s i d').1 (shDest s i d').2 z) z).reg .SH_LAGGING i 0 (by decide +kernel))
  have hgap (z : State) (hz : z.bit d .SH_LAGGING i = false) : (queueGap i d' p.wl p.pkt.lane z).bit d .SH_LAGGING i = false :=
    hother hz ((moves_queueGap (.refl foot_queueGap z) (within_self _)).reg .SH_LAGGING i 0 (by decide +kernel))
  have hclear (z : State) (hz : z.bit d .SH_LAGGING i = false) : (z.clrB d' .SH_LAGGING i).bit d .SH_LAGGING i = false := by
    rw [State.bit, State.clrB, rd_wr, Nat.testBit_mod_two_pow, testBit_clrBit_of _ _ _ hz, Bool.and_false]
  have hexc : (s.clrB d' .SH_EXCUSED i).bit d .SH_LAGGING i = false := hother h (rd_wr_ne s (by rintro ⟨⟨⟩, -⟩))
  unfold copyFor
  dsimp only
  split
  · refine when_cases (P := fun z => (setCopy p.id d' .discarded z).bit d .SH_LAGGING i = false) ?_ ?_
    · exact hother h (rd_wr_ne s (by rintro ⟨⟨⟩, -⟩))
    · exact hother h ((rd_wr_ne _ (by rintro ⟨⟨⟩, -⟩)).trans (rd_wr_ne s (by rintro ⟨⟨⟩, -⟩)))
  split
  · unfold choose
    dsimp only
    split
    · exact hput _ (hgap _ (hclear _ hexc))
    · exact hother hexc (rd_wr_ne _ (by rintro ⟨⟨⟩, -⟩))
  · exact hput _ (when_cases (P := fun z => z.bit d .SH_LAGGING i = false) hexc (hgap _ hexc))

/-- What a step of a list makes, the others keep. -/
theorem each_reaches {α : Type} {I G : State → Prop} {f : α → State → State} {l : List α} {a : α} (ha : a ∈ l)
    (hI : ∀ b z, I z → I (f b z)) (hmake : ∀ z, I z → G (f a z)) (hG : ∀ b z, G z → G (f b z)) {s : State} (hs : I s) :
    G (each l f s) := by
  induction l generalizing s with
  | nil => exact absurd ha List.not_mem_nil
  | cons b l ih =>
    rcases List.mem_cons.1 ha with rfl | hmem
    · exact each_induct (P := G) l (hmake s hs) hG
    · exact ih hmem (hI b s hs)

/-- A copy of packet `x` for destination `d` of sheaf `i` waits for its link. -/
def CopyQueued (i d : Nat) (x : SheafPkt) (s t : State) : Prop := ∃ r ∈ t.hostQ, r.fn = fnOf (shDest s i d).1 ∧
  r.kind = .write ∧ r.data = x.pkt.payload ∧ r.src = .sheafCopy x.id d x.wl x.pkt.lane ∧
  r.addr = (s.rd .SH_HOST_BASE_LO i d * 4096 + s.rd .SH_HOST_BASE_HI i d * 2 ^ 32 + x.offset) % 2 ^ 64

theorem CopyQueued.grows {P : HReq → Prop} {i d : Nat} {x : SheafPkt} {r s t : State} (h : CopyQueued i d x r s) (ht : QGrows P s t) :
    CopyQueued i d x r t := by
  obtain ⟨q, hq, hspec⟩ := h
  exact ⟨q, ht.mem hq, hspec⟩

theorem copyQueued_putCopy {i d win : Nat} {x : SheafPkt} {s z : State} (h : OutLook s z) :
    CopyQueued i d x s (putCopy i d win x (shDest s i d).1 (shDest s i d).2 z) := by
  obtain ⟨hfn, hkind, haddr, -, hdata, hsrc, -, -⟩ := classed_keeps win d (copyBase i d win x (shDest s i d).1 (shDest s i d).2 z) z
  refine ⟨_, List.mem_append_right _ (List.mem_singleton.2 rfl), hfn, hkind, hdata, hsrc, haddr.trans ?_⟩
  rw [← h.rd .SH_HOST_BASE_LO (by decide), ← h.rd .SH_HOST_BASE_HI (by decide)]
  rfl

theorem outLook_copyFor (i d win : Nat) (x : SheafPkt) (s : State) : OutLook s (copyFor i d win x s) :=
  .of_moves (moves_copyFor (.refl foot_copyFor s) (within_self _))

/-- The destination takes its copy where it is neither excused nor LAGGING. -/
theorem copyQueued_copyFor {i d win : Nat} {x : SheafPkt} {s z : State} (h : OutLook s z) (hlag : z.bit d .SH_LAGGING i = false)
    (hexc : isExcused s i d = false) (hperm : (shDest s i d).2 < 256 → permits s (shDest s i d).2 x.wl = true) :
    CopyQueued i d x s (copyFor i d win x z) := by
  have hclr : OutLook z (z.clrB d .SH_EXCUSED i) :=
    ⟨fun f hf _ _ => rd_wr_ne z (by rintro ⟨rfl, -⟩; exact absurd hf (by decide)), rfl⟩
  rw [copyFor_put (by rw [h.isExcused, hexc]) (by rw [h.shDest, h.permits]; exact hperm) hlag, h.shDest]
  refine copyQueued_putCopy (h.trans (hclr.trans ?_))
  exact when_cases (P := OutLook (z.clrB d .SH_EXCUSED i)) (.refl _)
    (.of_moves (moves_queueGap (.refl foot_queueGap _) (within_self _)))

end Sys2Proof.Proofs
end

section
/-!
A packet enters a sheaf, and a destination whose lag exceeds its budget (R114 to R117).
-/
namespace Sys2Proof.Proofs
open Sys2Proof Sys2Proof.Machine Sys2Proof.Laws
set_option Elab.async false

/-! ### A packet enters -/

/-- The packet that enters sheaf `i` by window `win` of link `n`. -/
def sheafPktOf (i win n : Nat) (p : Pkt) (s : State) : SheafPkt :=
  ⟨s.pktCount + 1, i, p, n, p.addr - owBase s win, (s.wl n).arrived / 2 ^ 16 / 2 ^ 32, (s.wl n).arrived / 2 ^ 16 % 2 ^ 32,
    List.replicate 8 .none, win⟩

/-- The packet is held, with none of its copies made. -/
def admitPkt (x : SheafPkt) (s : State) : State := { s with pktCount := s.pktCount + 1, sheafPkts := s.sheafPkts ++ [x] }

/-- Its copies are made. -/
def makeCopies (i win : Nat) (x : SheafPkt) (s : State) : State :=
  each (List.range (s.rd .SH_DEST_COUNT i)) (fun d s => copyFor i d win x s) s

/-- What follows the copies. -/
def afterCopies (i n : Nat) (x : SheafPkt) (s : State) : State :=
  showSheaf i (settleSheaves (each (copyTillers s i x.id) (fun t => hubCross (wlTiller n) t x.pkt.len) s))

theorem enterSheaf_eq (i win n : Nat) (p : Pkt) (s : State) : enterSheaf i win n p s =
    afterCopies i n (sheafPktOf i win n p s) (makeCopies i win (sheafPktOf i win n p s) (admitPkt (sheafPktOf i win n p s) s)) := rfl

theorem grows_afterCopies (i n : Nat) (x : SheafPkt) (s : State) : QGrows NotCopy s (afterCopies i n x s) := by
  have hcross : QGrows NotCopy s (each (copyTillers s i x.id) (fun t => hubCross (wlTiller n) t x.pkt.len) s) :=
    .each (f := fun t => hubCross (wlTiller n) t x.pkt.len) (fun t z => .of_moves (moves_hubCross (.refl foot_hubCross z) (within_self _))) s
  exact (hcross.trans (grows_settleSheaves _)).trans (.of_moves (moves_showSheaf (.refl foot_showSheaf _) (within_self _)))

/-- What the copies of a packet and their end move. -/
def copiedFoot : Nat := foot_copyFor ||| foot_hubCross ||| foot_settleSheaves ||| foot_showSheaf

theorem copied_pktCount (i win n : Nat) (x : SheafPkt) (s : State) : (afterCopies i n x (makeCopies i win x s)).pktCount = s.pktCount := by
  have hcopies : Moves copiedFoot s (makeCopies i win x s) :=
    moves_each (.refl _ s) fun d z hz => moves_copyFor hz (by unfold Within; decide +kernel)
  have hcross : Moves copiedFoot s (each (copyTillers (makeCopies i win x s) i x.id) (fun t => hubCross (wlTiller n) t x.pkt.len) (makeCopies i win x s)) :=
    moves_each hcopies fun t z hz => moves_hubCross hz (by unfold Within; decide +kernel)
  exact (moves_showSheaf (i := i) (moves_settleSheaves hcross (by unfold Within; decide +kernel)) (by unfold Within; decide +kernel)).part
    .pktCount (by decide +kernel)

theorem copyQueued_makeCopies {i d win : Nat} {x : SheafPkt} {s z : State} (h : OutLook s z) (hd : d < s.rd .SH_DEST_COUNT i)
    (hlag : z.bit d .SH_LAGGING i = false) (hexc : isExcused s i d = false)
    (hperm : (shDest s i d).2 < 256 → permits s (shDest s i d).2 x.wl = true) : CopyQueued i d x s (makeCopies i win x z) := by
  have hin : d ∈ List.range (z.rd .SH_DEST_COUNT i) := by rw [h.rd _ (by decide)]; exact List.mem_range.2 hd
  exact each_reaches (I := fun y => OutLook s y ∧ y.bit d .SH_LAGGING i = false) hin
    (fun e y hy => ⟨hy.1.trans (outLook_copyFor i e win x y), lagging_copyFor hy.2⟩) (fun y hy => copyQueued_copyFor hy.1 hy.2 hexc hperm)
    (fun e y hy => hy.grows (grows_copyFor i e win x y)) ⟨h, hlag⟩

/-- The MWR's tag is open, where it asks for an answer. -/
def openedMwr (n i : Nat) (p : Pkt) (s : State) : State := when p.ackReq (openLoc (locOf n p 0 256 32 i)) (takePacket n p s)

theorem openedMwr_look (n i : Nat) (p : Pkt) (s : State) : OutLook s (openedMwr n i p s) :=
  (OutLook.takePacket n p s).trans (when_cases (P := OutLook (takePacket n p s)) (.refl _) ⟨fun _ _ _ _ => rfl, rfl⟩)

theorem openedMwr_pktCount (n i : Nat) (p : Pkt) (s : State) : (openedMwr n i p s).pktCount = s.pktCount :=
  (when_cases (P := fun z => z.pktCount = (takePacket n p s).pktCount) rfl rfl).trans
    ((moves_takePacket (.refl foot_takePacket s) (within_self _)).part .pktCount (by decide +kernel))

theorem openedMwr_lagging (n i k d : Nat) (p : Pkt) (s : State) : (openedMwr n i p s).bit d .SH_LAGGING k = s.bit d .SH_LAGGING k :=
  congrArg (fun v => v.testBit d) ((when_cases (P := fun z => z.rd .SH_LAGGING k = (takePacket n p s).rd .SH_LAGGING k) rfl rfl).trans
    (takePacket_rd n p s (by decide +kernel) k 0))

/-- A write that its window sends to a sheaf enters it. -/
theorem exec_localMwr_sheaf {wl : Wl} {p : Pkt} {i : Nat} {s : State} (h : Taken s wl p) (ht : p.typ = 1)
    (htag : p.ackReq = true → tagOpen s wl p.tag = false) (hpos : 0 < p.len) (hlen : p.len ≤ 512) (hfind : findOut s wl p.addr = some i)
    (hmiss : missCause s wl i p .OW_WR = 0) (hsheaf : s.on .OW_SHEAF i = true) :
    exec (.localMwr wl p) s = .next (enterSheaf (s.rd .OW_TNID i) i wl { p with payload := payloadOf p } (openedMwr wl i p s)) := by
  refine (congrArg Host.Outcome.next (localPacket_taken h (by simp [ht]) _)).trans ?_
  have hlook := OutLook.takePacket wl p s
  have hshut : (p.ackReq && tagOpen (takePacket wl p s) wl p.tag) = false := by
    rw [tagOpen_takePacket]
    cases ha : p.ackReq
    · rfl
    · exact htag ha
  have hon : (takePacket wl p s).on .OW_SHEAF i = true := by rwa [State.on, hlook.rd _ (by decide)]
  unfold localMwr
  rw [hshut, if_neg Bool.false_ne_true, if_neg (by simp; omega), hlook.findOut, hfind]
  dsimp only
  rw [hlook.missCause _ _ _ (by decide), hmiss, if_neg (by simp), if_pos hon, hlook.rd .OW_TNID (by decide)]
  rfl

theorem sheaf_copy_made (wl : Wl) (p : Pkt) (i d : Nat) (s : State) (h : Taken s wl p) (ht : p.typ = 1)
    (htag : p.ackReq = true → tagOpen s wl p.tag = false) (hpos : 0 < p.len) (hlen : p.len ≤ 512) (hfind : findOut s wl p.addr = some i)
    (hmiss : missCause s wl i p .OW_WR = 0) (hsheaf : s.on .OW_SHEAF i = true) (hd : d < s.rd .SH_DEST_COUNT (s.rd .OW_TNID i))
    (hexc : isExcused s (s.rd .OW_TNID i) d = false)
    (hperm : (shDest s (s.rd .OW_TNID i) d).2 < 256 → permits s (shDest s (s.rd .OW_TNID i) d).2 wl = true)
    (hlag : s.bit d .SH_LAGGING (s.rd .OW_TNID i) = false) :
    Completes (.localMwr wl p) s (fun t => t.pktCount = s.pktCount + 1 ∧ ∃ r ∈ t.hostQ, r.fn = fnOf (shDest s (s.rd .OW_TNID i) d).1 ∧
      r.kind = .write ∧ r.data = payloadOf p ∧ r.src = .sheafCopy (s.pktCount + 1) d wl p.lane ∧
      r.addr = (s.rd .SH_HOST_BASE_LO (s.rd .OW_TNID i) d * 4096 + s.rd .SH_HOST_BASE_HI (s.rd .OW_TNID i) d * 2 ^ 32 +
        (p.addr - owBase s i)) % 2 ^ 64) := by
  refine ⟨_, exec_localMwr_sheaf h ht htag hpos hlen hfind hmiss hsheaf, ?_⟩
  generalize s.rd .OW_TNID i = k at hd hexc hperm hlag ⊢
  have hlook := openedMwr_look wl i p s
  have hcount := openedMwr_pktCount wl i p s
  have hlag' := (openedMwr_lagging wl i k d p s).trans hlag
  generalize openedMwr wl i p s = u at hlook hcount hlag'
  rw [enterSheaf_eq, copied_pktCount]
  refine ⟨congrArg (· + 1) hcount, ?_⟩
  have hadmit : OutLook s (admitPkt (sheafPktOf k i wl { p with payload := payloadOf p } u) u) := hlook.trans ⟨fun _ _ _ _ => rfl, rfl⟩
  obtain ⟨r, hr, hfn, hkind, hdata, hsrc, haddr⟩ :=
    (copyQueued_makeCopies (win := i) (x := sheafPktOf k i wl { p with payload := payloadOf p } u) hadmit hd hlag' hexc hperm).grows
      (grows_afterCopies k wl _ _)
  exact ⟨r, hr, hfn, hkind, hdata, by rw [hsrc, ← hcount]; rfl, by rw [haddr, ← hlook.owBase]; rfl⟩

/-! ### A destination exceeds its lag budget (R117) -/

/-- A time after the packet, and a choice made. -/
def afterDraw (s : State) : State := { advance s with free := (advance s).free + 1 }

/-- The destination becomes LAGGING. -/
def markLagging (i k lag : Nat) (s : State) : State := ((s.wr .SH_SD_LAG lag i k).setB k .SH_LAGGING i).inc .CT_SD_EPISODES i k

/-- The copies held for destination `k` of sheaf `i`. -/
def heldFor (i k : Nat) (s : State) : List (SheafPkt × HReq) :=
  (s.sheafPkts.filter (fun q => q.sheaf == i)).filterMap (fun q => (copyWaits s q k).map (fun r => (q, r)))

/-- What is held for the destination is discarded. -/
def dropHeld (i k : Nat) (s : State) : State :=
  each (heldFor i k s) (fun x s => setCopy x.1.id k .discarded (noteDiscard i k x.1 x.2.len s))
    (s.filterHostQ (fun r => !(heldFor i k s).any (fun x => x.2 == r)))

/-- What follows the discard. -/
def lagEnd (i k f : Nat) (s : State) : State :=
  showSheaf i (settleSheaves (raiseCause f .sheafLag (traceFn f 0x0501 (s.rd .SH_WINDOW i + k * 2048) s)))

theorem exec_sheafLagExceeded {sheaf : Fin 256} {d : Fin 8} {p : SheafPkt} {s : State}
    (hp : s.sheafPkts.find? (fun p => p.sheaf == sheaf.val) = some p) (hup : holdsUp s p d = true) :
    ∃ lag f, exec (.sheafLagExceeded sheaf d) s = .next (lagEnd sheaf d f (dropHeld sheaf d (markLagging sheaf d lag (afterDraw s)))) := by
  refine ⟨sat 32 ((s.rd .SH_LAG_BUDGET sheaf d + 1) * 1024 + 1 + Config.freeValue (advance s).free), (shDest s sheaf d).1, ?_⟩
  show execSheafLagExceeded sheaf d s = _
  unfold execSheafLagExceeded
  dsimp only
  rw [hp]
  dsimp only
  rw [if_neg (by simp [hup])]
  unfold draw lagEnd dropHeld heldFor markLagging afterDraw
  rfl

/-- What the end of the episode moves. -/
def lagFoot : Nat := foot_setCopy ||| foot_noteDiscard ||| foot_traceFn ||| foot_raiseCause ||| foot_settleSheaves |||
  foot_showSheaf ||| Part.hostQ.bit

theorem moves_dropHeld (i k : Nat) (s : State) : Moves lagFoot s (dropHeld i k s) :=
  moves_each (moves_filterHostQ (.refl _ s) (by unfold Within; decide +kernel)) fun _ _ hz =>
    moves_setCopy (moves_noteDiscard hz (by unfold Within; decide +kernel)) (by unfold Within; decide +kernel)

theorem moves_lagEnd (i k f : Nat) (s : State) : Moves lagFoot s (lagEnd i k f s) :=
  moves_showSheaf (moves_settleSheaves (moves_raiseCause (moves_traceFn (.refl _ s) (by unfold Within; decide +kernel))
    (by unfold Within; decide +kernel)) (by unfold Within; decide +kernel)) (by unfold Within; decide +kernel)

theorem grows_lagEnd (i k f : Nat) (s : State) : QGrows NotCopy s (lagEnd i k f s) :=
  (((QGrows.of_moves (moves_traceFn (.refl foot_traceFn s) (within_self _))).trans (grows_raiseCause ..)).trans
    (grows_settleSheaves _)).trans (.of_moves (moves_showSheaf (.refl foot_showSheaf _) (within_self _)))

/-- The register marks of the episode. -/
theorem markLagging_marks (i k lag : Nat) (s : State) (hk : k < 8) : (markLagging i k lag s).bit k .SH_LAGGING i = true ∧
    (markLagging i k lag s).rd .CT_SD_EPISODES i k = (s.rd .CT_SD_EPISODES i k + 1) % 2 ^ 64 := by
  constructor
  · have hset : (markLagging i k lag s).rd .SH_LAGGING i = setBit ((s.wr .SH_SD_LAG lag i k).rd .SH_LAGGING i) k % 2 ^ 8 :=
      (rd_wr_ne ((s.wr .SH_SD_LAG lag i k).setB k .SH_LAGGING i) (by rintro ⟨⟨⟩, -⟩)).trans (rd_wr ..)
    rw [State.bit, hset]
    rw [Nat.testBit_mod_two_pow, testBit_setBit_self, Bool.and_true]
    exact decide_eq_true hk
  · refine (rd_wr ..).trans (congrArg (fun n => (n + 1) % 2 ^ 64) ?_)
    exact (rd_wr_ne _ (by rintro ⟨⟨⟩, -⟩)).trans (rd_wr_ne _ (by rintro ⟨⟨⟩, -⟩))

theorem afterDraw_same {s : State} : OutLook s (afterDraw s) ∧ (afterDraw s).hostQ = s.hostQ ∧ (afterDraw s).sheafPkts = s.sheafPkts ∧
    ∀ i k, (afterDraw s).rd .CT_SD_EPISODES i k = s.rd .CT_SD_EPISODES i k := by
  have hadv : Moves foot_advance s (advance s) := moves_advance (.refl _ s) (within_self _)
  exact ⟨(OutLook.of_moves hadv).trans ⟨fun _ _ _ _ => rfl, rfl⟩, hadv.part .hostQ (by decide +kernel),
    hadv.part .sheafPkts (by decide +kernel), fun i k => hadv.reg .CT_SD_EPISODES i k (by decide +kernel)⟩

/-- Marking the destination changes not where copies go. -/
theorem markLagging_look (i k lag : Nat) (s : State) : OutLook s (markLagging i k lag s) := by
  refine ⟨fun f hf a b => ?_, rfl⟩
  exact (rd_wr_ne _ (by rintro ⟨rfl, -⟩; exact absurd hf (by decide))).trans ((rd_wr_ne _ (by rintro ⟨rfl, -⟩; exact absurd hf (by decide))).trans
    (rd_wr_ne _ (by rintro ⟨rfl, -⟩; exact absurd hf (by decide))))

theorem OutLook.isDest {s t : State} (h : OutLook s t) (p : SheafPkt) (d : Nat) (r : HReq) : isDest t p d r = isDest s p d r := by
  simp (disch := decide) only [Machine.isDest, h.shDest, h.rd]

/-- A copy's place is read from registers alone. -/
theorem isDest_congr {s t : State} (h : ∀ f ∈ outFlds, ∀ i j, t.rd f i j = s.rd f i j) (p : SheafPkt) (d : Nat) (r : HReq) :
    isDest t p d r = isDest s p d r := OutLook.isDest (t := { t with cfg := s.cfg }) ⟨h, rfl⟩ p d r

/-- What a copy that waits is. -/
theorem copyWaits_spec {s : State} {q : SheafPkt} {d : Nat} {r : HReq} (h : copyWaits s q d = some r) :
    q.copies.getD d .none = .waiting ∧ copyReq s q.id d = some r ∧ isDest s q d r = true := by
  unfold copyWaits at h
  split at h
  next hw => exact ⟨hw, (Option.filter_eq_some_iff.1 h).1, (Option.filter_eq_some_iff.1 h).2⟩
  next => exact nomatch h

theorem OutLook.copyWaits {s t : State} (h : OutLook s t) (hq : t.hostQ = s.hostQ) (q : SheafPkt) (d : Nat) :
    copyWaits t q d = copyWaits s q d := by
  unfold Machine.copyWaits copyReq
  rw [hq, show Machine.isDest t q d = Machine.isDest s q d from funext fun r => h.isDest q d r]

/-- A copy of packet `id` for destination `d`. -/
def isCopyOf (id d : Nat) (r : HReq) : Prop := ∃ wl lane, r.src = .sheafCopy id d wl lane

theorem copyReq_spec {s : State} {id d : Nat} {r : HReq} (h : copyReq s id d = some r) : r ∈ s.hostQ ∧ isCopyOf id d r := by
  have hsome := List.find?_some h
  refine ⟨List.mem_of_find?_eq_some h, ?_⟩
  split at hsome
  next id' d' wl lane hsrc =>
    obtain ⟨rfl, rfl⟩ : id' = id ∧ d' = d := by simpa using hsome
    exact ⟨wl, lane, hsrc⟩
  next => exact nomatch hsome

theorem find?_filter_of_imp {α : Type} {p q : α → Bool} {l : List α} (h : ∀ x ∈ l, q x = true → p x = true) :
    (l.filter p).find? q = l.find? q := by
  induction l with
  | nil => rfl
  | cons a l ih =>
    have ih := ih fun x hx => h x (List.mem_cons_of_mem a hx)
    cases hq : q a
    · cases hp : p a <;> simp [hp, hq, ih]
    · simp [h a List.mem_cons_self hq, hq]

/-- Where only requests that are no copies of the packet leave, and no copies join, the copy found is the same. -/
theorem copyReq_kept {s t : State} {p : HReq → Bool} {id d : Nat} (ht : QGrows NotCopy (s.filterHostQ p) t)
    (hp : ∀ r ∈ s.hostQ, isCopyOf id d r → p r = true) : copyReq t id d = copyReq s id d := by
  obtain ⟨l, hl, hnot⟩ := ht
  unfold copyReq
  rw [hl, List.find?_append, (List.find?_eq_none (l := l)).2, Option.or_none]
  · refine find?_filter_of_imp fun r hr hsrc => hp r hr ?_
    split at hsrc
    next id' d' wl lane he =>
      obtain ⟨rfl, rfl⟩ : id' = id ∧ d' = d := by simpa using hsrc
      exact ⟨wl, lane, he⟩
    next => exact nomatch hsrc
  · intro r hr hsrc
    split at hsrc
    next id' d' wl lane he => exact hnot r hr id' d' wl lane he
    next => exact nomatch hsrc

/-- A copy that is discarded for each packet of a list no longer waits; the other packets are as they were. -/
theorem sheafPkts_discarded {k : Nat} (i : Nat) {l : List (SheafPkt × HReq)} {s : State} {q : SheafPkt}
    (hq : q ∈ (each l (fun x s => setCopy x.1.id k .discarded (noteDiscard i k x.1 x.2.len s)) s).sheafPkts)
    (hw : q.copies.getD k .none = .waiting) : q ∈ s.sheafPkts ∧ ∀ x ∈ l, x.1.id ≠ q.id := by
  induction l generalizing s with
  | nil => exact ⟨hq, fun x hx => absurd hx List.not_mem_nil⟩
  | cons x l ih =>
    obtain ⟨hmem, hother⟩ := ih hq
    obtain ⟨q0, hq0, hset⟩ := List.mem_map.1 hmem
    split at hset
    next hid =>
      refine absurd hw ?_
      rw [← hset]
      by_cases hk : k < q0.copies.length
      · simp [List.getD, hk]
      · simp [List.getD, hk]
    next hid =>
      subst hset
      exact ⟨hq0, fun y hy => (List.mem_cons.1 hy).elim (fun e => by rw [e]; exact fun h => hid h.symm) (hother y)⟩

theorem sheafPkts_settleSheaves {s : State} {q : SheafPkt} (hq : q ∈ (settleSheaves s).sheafPkts) : q ∈ s.sheafPkts := by
  unfold settleSheaves at hq
  extract_lets isDone fin s1 s2 at hq
  have hdone : Moves settledFoot s1 s2 := moves_each (.refl _ s1) fun p z hz =>
    moves_showSheaf (moves_when (moves_releasePkt hz (by unfold Within; decide +kernel)) fun y hy => moves_withSome hy fun q x hx =>
      moves_when hx fun w hw => moves_answerLoc hw (by unfold Within; decide +kernel)) (by unfold Within; decide +kernel)
  have hflush : Moves foot_startFlush s2 _ := moves_each (l := s2.locReqs.filter (flushReady s2)) (.refl _ s2) fun q z hz =>
    moves_startFlush (q := q) (sheaf := q.returned) hz (within_self _)
  rw [hflush.part .sheafPkts (by decide +kernel), hdone.part .sheafPkts (by decide +kernel)] at hq
  exact (List.mem_filter.1 hq).1

theorem sheafPkts_lagEnd {i k f : Nat} {s : State} {q : SheafPkt} (hq : q ∈ (lagEnd i k f s).sheafPkts) : q ∈ s.sheafPkts := by
  have hshow := (moves_showSheaf (i := i) (.refl foot_showSheaf (settleSheaves (raiseCause f .sheafLag
    (traceFn f 0x0501 (s.rd .SH_WINDOW i + k * 2048) s)))) (within_self _)).part .sheafPkts (by decide +kernel)
  have hraise := (moves_raiseCause (f := f) (c := .sheafLag) (.refl foot_raiseCause (traceFn f 0x0501 (s.rd .SH_WINDOW i + k * 2048) s))
    (within_self _)).part .sheafPkts (by decide +kernel)
  have htrace := (moves_traceFn (f := f) (code := 0x0501) (arg := s.rd .SH_WINDOW i + k * 2048) (.refl foot_traceFn s)
    (within_self _)).part .sheafPkts (by decide +kernel)
  have hmem := sheafPkts_settleSheaves ((show (lagEnd i k f s).sheafPkts = _ from hshow) ▸ hq)
  rwa [show _ = s.sheafPkts from hraise.trans htrace] at hmem

theorem outRegs_kept {s t : State} (h : Moves lagFoot s t) : ∀ f ∈ outFlds, ∀ i j, t.rd f i j = s.rd f i j := by
  have hclear : outFlds.all (fun f => !lagFoot.testBit (fbit f)) = true := by decide +kernel
  exact fun f hf i j => h.reg f i j (by simpa using List.all_eq_true.1 hclear f hf)

theorem mem_heldFor {i k : Nat} {s : State} {x : SheafPkt × HReq} :
    x ∈ heldFor i k s ↔ (x.1 ∈ s.sheafPkts ∧ x.1.sheaf = i) ∧ copyWaits s x.1 k = some x.2 := by
  unfold heldFor
  rw [List.mem_filterMap]
  constructor
  · rintro ⟨q, hq, hx⟩
    obtain ⟨r, hr, rfl⟩ := Option.map_eq_some_iff.1 hx
    exact ⟨by simpa using hq, hr⟩
  · rintro ⟨hq, hr⟩
    exact ⟨x.1, by simpa using hq, by rw [hr]; rfl⟩

/-- The requests that stay in the queue: those that no held copy is. -/
def notHeld (i k : Nat) (s : State) (r : HReq) : Bool := !(heldFor i k s).any (fun x => x.2 == r)

theorem grows_lagged (i k f : Nat) (s : State) : QGrows NotCopy (s.filterHostQ (notHeld i k s)) (lagEnd i k f (dropHeld i k s)) := by
  refine QGrows.trans (.each (f := fun (x : SheafPkt × HReq) s => setCopy x.1.id k .discarded (noteDiscard i k x.1 x.2.len s)) (fun x z => ?_) _)
    (grows_lagEnd ..)
  exact QGrows.trans (s := noteDiscard i k x.1 x.2.len z) (.of_moves (moves_noteDiscard (.refl foot_noteDiscard z) (within_self _))) (.same rfl)

/-- No copy waits for a destination when its lag budget has been exceeded. -/
theorem copyWaits_dropHeld {i k f : Nat} {s : State} {q : SheafPkt} (hq : q ∈ (lagEnd i k f (dropHeld i k s)).sheafPkts) (hi : q.sheaf = i) :
    copyWaits (lagEnd i k f (dropHeld i k s)) q k = none := by
  by_contra hne
  obtain ⟨r, hr⟩ := Option.ne_none_iff_exists'.1 hne
  obtain ⟨hw, hreq, hdest⟩ := copyWaits_spec hr
  obtain ⟨hmem, hother⟩ := sheafPkts_discarded i (sheafPkts_lagEnd hq) hw
  have hstay (x : HReq) (_ : x ∈ s.hostQ) (hx : isCopyOf q.id k x) : notHeld i k s x = true := by
    rw [notHeld, Bool.not_eq_true', List.any_eq_false]
    intro y hy he
    obtain ⟨-, hcopy⟩ := copyReq_spec (copyWaits_spec (mem_heldFor.1 hy).2).2.1
    obtain ⟨wl, lane, hsrc⟩ := hx
    obtain ⟨wl', lane', hsrc'⟩ := eq_of_beq he ▸ hcopy
    rw [hsrc] at hsrc'
    injection hsrc' with hid
    exact hother y hy hid.symm
  have hmoves : Moves lagFoot s (lagEnd i k f (dropHeld i k s)) := (moves_dropHeld i k s).trans (moves_lagEnd i k f _)
  rw [copyReq_kept (grows_lagged i k f s) hstay] at hreq
  rw [isDest_congr (outRegs_kept hmoves)] at hdest
  have hheld : copyWaits s q k = some r := by rw [copyWaits, if_pos hw, hreq, Option.filter_some_pos hdest]
  exact hother (q, r) (mem_heldFor.2 ⟨⟨hmem, hi⟩, hheld⟩) rfl

theorem held_gone {i k f : Nat} {s : State} {q : SheafPkt} (hq : q ∈ s.sheafPkts) (hi : q.sheaf = i) {r : HReq} (hr : copyWaits s q k = some r) :
    r ∉ (lagEnd i k f (dropHeld i k s)).hostQ := by
  obtain ⟨-, hreq, -⟩ := copyWaits_spec hr
  obtain ⟨l, hl, hnot⟩ := grows_lagged i k f s
  rw [hl]
  intro hin
  rcases List.mem_append.1 hin with hold | hnew
  · have hgone := (List.mem_filter.1 hold).2
    rw [notHeld, Bool.not_eq_true', List.any_eq_false] at hgone
    exact hgone (q, r) (mem_heldFor.2 ⟨⟨hq, hi⟩, hr⟩) (beq_self_eq_true r)
  · obtain ⟨-, wl, lane, hsrc⟩ := copyReq_spec hreq
    exact hnot r hnew q.id k wl lane hsrc

theorem lagging_discards (sheaf : Fin 256) (d : Fin 8) (p : SheafPkt) (s : State)
    (hp : s.sheafPkts.find? (fun p => p.sheaf == sheaf.val) = some p) (hup : holdsUp s p d = true) :
    Completes (.sheafLagExceeded sheaf d) s (fun t => t.bit d .SH_LAGGING sheaf = true ∧
      t.rd .CT_SD_EPISODES sheaf d = (s.rd .CT_SD_EPISODES sheaf d + 1) % 2 ^ 64 ∧
      (∀ q ∈ t.sheafPkts, q.sheaf = sheaf → copyWaits t q d = none) ∧
      (∀ q ∈ s.sheafPkts, q.sheaf = sheaf → ∀ r, copyWaits s q d = some r → r ∉ t.hostQ)) := by
  obtain ⟨lag, f, hexec⟩ := exec_sheafLagExceeded hp hup
  refine ⟨_, hexec, ?_⟩
  obtain ⟨hlook, hq, hpkts, hep⟩ := afterDraw_same (s := s)
  have hlook' := hlook.trans (markLagging_look sheaf d lag (afterDraw s))
  obtain ⟨hbit, hcount⟩ := markLagging_marks sheaf d lag (afterDraw s) d.isLt
  rw [hep] at hcount
  have hq' : (markLagging sheaf d lag (afterDraw s)).hostQ = s.hostQ := hq
  have hpkts' : (markLagging sheaf d lag (afterDraw s)).sheafPkts = s.sheafPkts := hpkts
  generalize markLagging sheaf d lag (afterDraw s) = u at hlook' hbit hcount hq' hpkts'
  have hmoves : Moves lagFoot u (lagEnd sheaf d f (dropHeld sheaf d u)) := (moves_dropHeld ..).trans (moves_lagEnd ..)
  refine ⟨?_, (hmoves.reg .CT_SD_EPISODES sheaf d (by decide +kernel)).trans hcount, fun q hq hi => copyWaits_dropHeld hq hi,
    fun q hmem hi r hr => held_gone (hpkts' ▸ hmem) hi ((hlook'.copyWaits hq' q d).trans hr)⟩
  rwa [State.bit, hmoves.reg .SH_LAGGING sheaf 0 (by decide +kernel)]

/-- Settles O43: a copy joins the host queue with its own destination's base, and all that comes after it in the step only appends to
the queue; a LAGGING destination's held copies are dropped, and what joins the queue afterwards is no copy. -/
theorem sheaves : Obligations.Sheaves := by
  unfold Obligations.Sheaves
  exact ⟨sheaf_copy_made, lagging_discards⟩

end Sys2Proof.Proofs
end

section
/-!
What a request of a local design becomes when a window translates it, and its answer when none does (R100, R103, R104, R127).
-/
namespace Sys2Proof.Proofs
open Sys2Proof Sys2Proof.Machine Sys2Proof.Laws
set_option Elab.async false

section
variable {s t : State} (h : OutLook s t)
include h

theorem OutLook.resetting (tn : Nat) : resetting t tn = resetting s tn := by simp only [Machine.resetting, h.tnState]

theorem OutLook.atomMay (i : Nat) (p : Pkt) : atomMay t i p = atomMay s i p := by
  simp only [Machine.atomMay, h.owHost, h.owBase, h.owDest, h.cf]

/-- A packet that may pass may pass when it has been taken. -/
theorem OutLook.passes {n i : Nat} {p : Pkt} {bit : Fld} (hb : bit ∈ outFlds) (hp : Passes s n i p bit) : Passes t n i p bit := by
  obtain ⟨hfind, hmiss, hsheaf, hgo, hreset, hstate⟩ := hp
  refine ⟨by rw [h.findOut]; exact hfind, by rw [h.missCause _ _ _ hb]; exact hmiss, by rw [State.on, h.rd _ (by decide)]; exact hsheaf, ?_⟩
  rw [h.owDest, h.undeliverable, h.resetting, h.tnState]
  exact ⟨hgo, hreset, hstate⟩

end

/-! ### A request that a window translates -/

/-- The request that a packet becomes, before the class of its window is known. -/
def passBase (s : State) (n i : Nat) (p : Pkt) (kind : HKind) (charge : Nat) : HReq :=
  { hreq s (owDest s i).1 kind (owHost s i + (p.addr - owBase s i)) p.len (if p.typ = 2 then [] else payloadOf p)
      (.window n p.lane p.tag i 0 (p.tag != freshTag && (p.typ != 1 || p.ackReq)) true) (owDest s i).2 with
    charge := if (owDest s i).2 < 256 then charge else 0
    ro := p.ro && (p.typ == 1 || (p.typ == 2 && !(kind == .flush))) && s.on .OW_RO_OK i && (s.cf (owDest s i).1).roEn
    ido := !(kind == .flush) && s.on .OW_IDO_OK i && (s.cf (owDest s i).1).idoEn }

/-- The packet's tag is open, where it awaits an answer. -/
def openedPass (n i : Nat) (p : Pkt) (len : Nat) (s : State) : State :=
  when (p.tag != freshTag && (p.typ != 1 || p.ackReq)) (openLoc (locOf n p len (owDest s i).2 (fnHl (owDest s i).1) i)) s

section
variable {n i : Nat} {p : Pkt} {kind : HKind} {len charge : Nat} {s : State}

theorem openedPass_same : (openedPass n i p len s).hostQ = s.hostQ ∧ (openedPass n i p len s).regs = s.regs :=
  ⟨when_cases (P := fun z => z.hostQ = s.hostQ) rfl rfl, when_cases (P := fun z => z.regs = s.regs) rfl rfl⟩

/-- What is queued for a local request. -/
theorem submitLocal_queue (r : HReq) (z : State) : (submitLocal r z).locReqs = z.locReqs ∧
    (submitLocal r z).hostQ = z.hostQ ++ [{ r with frozen := decide (r.tn < 256) && z.tnState r.tn == 3 }] := by
  unfold submitLocal
  dsimp only
  split
  · exact ⟨rfl, rfl⟩
  · exact ⟨rfl, rfl⟩

theorem passOn_submits (hgo : undeliverable s (owDest s i).1 = 0) (hreset : resetting s (owDest s i).2 = false)
    (hread : kind = .write ∨ ((owDest s i).2 < 256 → s.rd .TN_ALLOWANCE (owDest s i).2 ≠ 0 ∨ s.rd .TN_CB_UNITS (owDest s i).2 ≠ 0)) :
    passOn n i p kind len charge s = submitLocal (classed i 0 (passBase s n i p kind charge) (openedPass n i p len s)).1
      (classed i 0 (passBase s n i p kind charge) (openedPass n i p len s)).2 := by
  have hmay : noReads (classed i 0 (passBase s n i p kind charge) (openedPass n i p len s)).2
      (classed i 0 (passBase s n i p kind charge) (openedPass n i p len s)).1 = false := by
    obtain ⟨-, hkind, -, -, -, -, htn, -⟩ := classed_keeps i 0 (passBase s n i p kind charge) (openedPass n i p len s)
    have hmoves := classed_moves i 0 (passBase s n i p kind charge) (openedPass n i p len s)
    have hregs := openedPass_same (n := n) (i := i) (p := p) (len := len) (s := s)
    have hkind' : (passBase s n i p kind charge).kind = kind := rfl
    have htn' : (passBase s n i p kind charge).tn = (owDest s i).2 := rfl
    unfold noReads HReq.reads
    rw [hkind, htn, hkind', htn', hmoves.reg .TN_ALLOWANCE _ _ (by decide +kernel), hmoves.reg .TN_CB_UNITS _ _ (by decide +kernel),
      rd_of_regs hregs.2, rd_of_regs hregs.2]
    rcases hread with rfl | hread
    · rfl
    · by_cases hlt : (owDest s i).2 < 256
      · rcases hread hlt with h | h <;> simp [h]
      · simp [hlt]
  unfold passOn
  dsimp only
  rw [hgo, if_neg (by simp), hreset, if_neg Bool.false_ne_true]
  exact if_neg fun hno => Bool.false_ne_true (hmay.symm.trans hno)

/-- The request waits behind what waited, addressed to the destination of the window. -/
theorem passOn_queues (hgo : undeliverable s (owDest s i).1 = 0) (hreset : resetting s (owDest s i).2 = false)
    (hread : kind = .write ∨ ((owDest s i).2 < 256 → s.rd .TN_ALLOWANCE (owDest s i).2 ≠ 0 ∨ s.rd .TN_CB_UNITS (owDest s i).2 ≠ 0))
    (htag : p.tag < 4096) : ∃ r, (passOn n i p kind len charge s).hostQ = s.hostQ ++ [r] ∧ r.fn = fnOf (owDest s i).1 ∧ r.kind = kind ∧
      r.addr = (owHost s i + (p.addr - owBase s i)) % 2 ^ 64 ∧ r.len = p.len ∧ r.data = (if p.typ = 2 then [] else payloadOf p) ∧
      r.src = .window n p.lane p.tag i 0 (p.typ != 1 || p.ackReq) true ∧ r.tn = (owDest s i).2 ∧ r.cls = s.rd .OW_CLASS i := by
  obtain ⟨hfn, hkind, haddr, hlen, hdata, hsrc, htn, hcls⟩ := classed_keeps i 0 (passBase s n i p kind charge) (openedPass n i p len s)
  have hmoves := classed_moves i 0 (passBase s n i p kind charge) (openedPass n i p len s)
  obtain ⟨hq, hregs⟩ := openedPass_same (n := n) (i := i) (p := p) (len := len) (s := s)
  rw [passOn_submits hgo hreset hread, (submitLocal_queue ..).2, hmoves.part .hostQ (by decide +kernel), hq]
  refine ⟨_, rfl, hfn, hkind, haddr, hlen, hdata, hsrc.trans ?_, htn, hcls.trans (rd_of_regs hregs ..)⟩
  have hold : (p.tag != freshTag) = true := by simp [freshTag]; omega
  simp only [passBase, hreq, hold, Bool.true_and]

/-- Its tag is open when it awaits an answer. -/
theorem passOn_opens (hgo : undeliverable s (owDest s i).1 = 0) (hreset : resetting s (owDest s i).2 = false)
    (hread : kind = .write ∨ ((owDest s i).2 < 256 → s.rd .TN_ALLOWANCE (owDest s i).2 ≠ 0 ∨ s.rd .TN_CB_UNITS (owDest s i).2 ≠ 0))
    (htag : p.tag < 4096) (hack : p.typ ≠ 1) : (passOn n i p kind len charge s).locReqs =
      s.locReqs ++ [locOf n p len (owDest s i).2 (fnHl (owDest s i).1) i] := by
  have hmoves := classed_moves i 0 (passBase s n i p kind charge) (openedPass n i p len s)
  rw [passOn_submits hgo hreset hread, (submitLocal_queue ..).1, hmoves.part .locReqs (by decide +kernel), openedPass,
    when_of _ _ (by simp [freshTag, hack]; omega)]
  rfl

end

/-! ### A packet that no window translates -/

/-- What answers a packet of tag `tag` waits last for its link. -/
def Answers (n tag typ cause : Nat) (s : State) : Prop :=
  ∃ x, (s.wl n).linkQ.getLast? = some x ∧ x.pkt.typ = typ ∧ x.pkt.tag = tag ∧ x.pkt.status = statusOf cause ∧ x.pkt.cause = cause

theorem respond_answers {n lane tag typ cause : Nat} {s : State} (htag : tag < 4096) :
    Answers n tag typ cause (respond n lane tag typ cause s) := by
  unfold respond
  rw [when_of _ _ (by simp [freshTag]; omega)]
  unfold Answers enqueueLink
  rw [wl_modWl_self]
  exact ⟨_, List.getLast?_concat .., rfl, rfl, rfl, rfl⟩

theorem respond_counts {n lane tag typ cause : Nat} (f : Fld) (i : Nat) (s : State) : (respond n lane tag typ cause s).rd f i = s.rd f i :=
  when_cases (P := fun t => t.rd f i = s.rd f i) rfl rfl

/-- A packet that no window translates is counted, and answered where it awaits an answer. -/
theorem windowMiss_spec {n cause : Nat} {p : Pkt} {s : State} (htag : p.tag < 4096) :
    (windowMiss n p cause s).rd .CT_WL_WIN_MISS n = (s.rd .CT_WL_WIN_MISS n + 1) % 2 ^ 64 ∧
      (p.typ = 1 → p.ackReq = true → Answers n p.tag 5 cause (windowMiss n p cause s)) ∧
      (p.typ = 2 → Answers n p.tag 3 cause (windowMiss n p cause s)) := by
  have hcount (acc : Nat) : (wardDetail (wlTiller n) 9 (mWl n) acc cause p.addr (releasePkt n p (s.inc .CT_WL_WIN_MISS n))).rd
      .CT_WL_WIN_MISS n = (s.rd .CT_WL_WIN_MISS n + 1) % 2 ^ 64 := by
    rw [(moves_wardDetail (.refl foot_wardDetail _) (within_self _)).reg .CT_WL_WIN_MISS n 0 (by decide +kernel), releasePkt_rd]
    exact rd_wr _ .CT_WL_WIN_MISS _ n 0
  unfold windowMiss
  dsimp only
  split
  next h1 =>
    obtain ⟨ht, -⟩ : p.typ = 1 ∧ p.ackReq = true := by simpa using h1
    exact ⟨(respond_counts ..).trans (hcount _), fun _ _ => respond_answers htag, fun h => by omega⟩
  split
  next h1 h2 => exact ⟨(respond_counts ..).trans (hcount _), fun ht ha => absurd (by simp [ht, ha]) h1, fun _ => respond_answers htag⟩
  next h1 h2 => exact ⟨hcount _, fun ht ha => absurd (by simp [ht, ha]) h1, fun ht => absurd (by simp [ht]) h2⟩

/-! ### Writes, reads and atomics of local designs -/

/-- The tag of a packet that is taken is open where it was. -/
theorem shut_taken {n : Nat} {p : Pkt} {s : State} (htag : p.ackReq = true → tagOpen s n p.tag = false) :
    (p.ackReq && tagOpen (takePacket n p s) n p.tag) = false := by
  rw [tagOpen_takePacket]
  cases ha : p.ackReq
  · rfl
  · exact htag ha

section
variable {n i : Nat} {p : Pkt} {z : State}

theorem localMwr_find (hshut : (p.ackReq && tagOpen z n p.tag) = false) (hpos : 0 < p.len) (hlen : p.len ≤ 512) :
    (findOut z n p.addr = none → localMwr n p z = windowMiss n p 1 z) ∧
    (Passes z n i p .OW_WR → localMwr n p z = passOn n i p .write 0 p.len z) := by
  unfold localMwr
  rw [hshut, if_neg Bool.false_ne_true, if_neg (by simp; omega)]
  constructor
  · intro hmiss
    rw [hmiss]
  · rintro ⟨hfind, hcause, hsheaf, -⟩
    rw [hfind]
    dsimp only
    rw [hcause, if_neg (by simp), hsheaf, if_neg Bool.false_ne_true]

theorem localMrd_find (hshut : tagOpen z n p.tag = false) (hlen : p.len ≤ 4096) :
    (findOut z n p.addr = none → localMrd n p z = windowMiss n p 1 z) ∧
    (Passes z n i p .OW_RD → localMrd n p z = passOn n i p (if p.len = 0 then .flush else .read) p.len p.len z) := by
  unfold localMrd
  rw [hshut, if_neg Bool.false_ne_true, if_neg (by omega)]
  constructor
  · intro hmiss
    rw [hmiss]
  · rintro ⟨hfind, hcause, hsheaf, -⟩
    rw [hfind]
    dsimp only
    rw [hcause, if_neg (by simp), hsheaf, if_neg Bool.false_ne_true]

theorem localAtom_find (hshut : tagOpen z n p.tag = false) (hok : atomOk p.sub p.len = true) (hp : Passes z n i p .OW_AT) :
    localAtom n p z = if atomMay z i p then passOn n i p (.atomic p.sub) (if p.sub = 2 then p.len / 2 else p.len) p.len z
      else respond n p.lane p.tag 3 12 (releasePkt n p z) := by
  obtain ⟨hfind, hcause, -, hgo, hreset, -⟩ := hp
  unfold localAtom
  rw [hshut, if_neg Bool.false_ne_true, hok, if_neg (by simp), hfind]
  dsimp only
  rw [hcause, if_neg (by simp), hgo, hreset]
  cases atomMay z i p <;> rfl

end

section
variable {wl : Wl} {p : Pkt} {i : Nat} {s : State} (h : Taken s wl p)
include h

theorem exec_localMwr (ht : p.typ = 1) : exec (.localMwr wl p) s = .next (localMwr wl p (takePacket wl p s)) :=
  congrArg Host.Outcome.next (localPacket_taken h (by simp [ht]) _)

theorem exec_localMrd (ht : p.typ = 2) : exec (.localMrd wl p) s = .next (localMrd wl p (takePacket wl p s)) :=
  congrArg Host.Outcome.next (localPacket_taken h (by simp [ht]) _)

theorem exec_localAtom (ht : p.typ = 6) : exec (.localAtom wl p) s = .next (localAtom wl p (takePacket wl p s)) :=
  congrArg Host.Outcome.next (localPacket_taken h (by simp [ht]) _)

omit h in
theorem taken_queue : (takePacket wl p s).hostQ = s.hostQ ∧ (takePacket wl p s).locReqs = s.locReqs :=
  ⟨(moves_takePacket (.refl foot_takePacket s) (within_self _)).part .hostQ (by decide +kernel),
    (moves_takePacket (.refl foot_takePacket s) (within_self _)).part .locReqs (by decide +kernel)⟩

/-- What waits for the host when the packet passes. -/
theorem taken_passes {kind : HKind} {len charge : Nat} {bit : Fld} (hp : Passes s wl i p bit)
    (hread : kind = .write ∨ ((owDest s i).2 < 256 → s.rd .TN_ALLOWANCE (owDest s i).2 ≠ 0 ∨ s.rd .TN_CB_UNITS (owDest s i).2 ≠ 0)) :
    ∃ r, (passOn wl i p kind len charge (takePacket wl p s)).hostQ = s.hostQ ++ [r] ∧ r.fn = fnOf (owDest s i).1 ∧ r.kind = kind ∧
      r.addr = (owHost s i + (p.addr - owBase s i)) % 2 ^ 64 ∧ r.len = p.len ∧ r.data = (if p.typ = 2 then [] else payloadOf p) ∧
      r.src = .window wl p.lane p.tag i 0 (p.typ != 1 || p.ackReq) true ∧ r.tn = (owDest s i).2 ∧ r.cls = s.rd .OW_CLASS i := by
  have hlook := OutLook.takePacket wl p s
  obtain ⟨-, -, -, hgo, hreset, -⟩ := hp
  have hqueue := passOn_queues (n := wl) (p := p) (kind := kind) (len := len) (charge := charge) (s := takePacket wl p s) (i := i)
    (by rw [hlook.owDest, hlook.undeliverable]; exact hgo) (by rw [hlook.owDest, hlook.resetting]; exact hreset)
    (by rw [hlook.owDest, hlook.rd .TN_ALLOWANCE (by decide), hlook.rd .TN_CB_UNITS (by decide)]; exact hread) h.2.2
  rwa [taken_queue.1, hlook.owDest, hlook.owHost, hlook.owBase, hlook.rd .OW_CLASS (by decide)] at hqueue

/-- The tag that is open when the packet passes. -/
theorem taken_opens {kind : HKind} {len charge : Nat} {bit : Fld} (hp : Passes s wl i p bit)
    (hread : (owDest s i).2 < 256 → s.rd .TN_ALLOWANCE (owDest s i).2 ≠ 0 ∨ s.rd .TN_CB_UNITS (owDest s i).2 ≠ 0) (hack : p.typ ≠ 1) :
    ∃ q, (passOn wl i p kind len charge (takePacket wl p s)).locReqs = s.locReqs ++ [q] ∧ q.wl = wl.val ∧ q.tag = p.tag ∧ q.len = len := by
  have hlook := OutLook.takePacket wl p s
  obtain ⟨-, -, -, hgo, hreset, -⟩ := hp
  have hopen := passOn_opens (n := wl) (p := p) (kind := kind) (len := len) (charge := charge) (s := takePacket wl p s) (i := i)
    (by rw [hlook.owDest, hlook.undeliverable]; exact hgo) (by rw [hlook.owDest, hlook.resetting]; exact hreset)
    (.inr (by rw [hlook.owDest, hlook.rd .TN_ALLOWANCE (by decide), hlook.rd .TN_CB_UNITS (by decide)]; exact hread)) h.2.2 hack
  rw [taken_queue.2] at hopen
  exact ⟨_, hopen, rfl, rfl, rfl⟩

theorem mwr_passes (ht : p.typ = 1) (htag : p.ackReq = true → tagOpen s wl p.tag = false) (hpos : 0 < p.len) (hlen : p.len ≤ 512)
    (hp : Passes s wl i p .OW_WR) :
    Completes (.localMwr wl p) s (fun t => ∃ r, t.hostQ = s.hostQ ++ [r] ∧ r.fn = fnOf (owDest s i).1 ∧ r.kind = .write ∧
      r.addr = (owHost s i + (p.addr - owBase s i)) % 2 ^ 64 ∧ r.len = p.len ∧ r.data = payloadOf p ∧
      r.src = .window wl p.lane p.tag i 0 p.ackReq true ∧ r.tn = (owDest s i).2 ∧ r.cls = s.rd .OW_CLASS i) := by
  refine ⟨_, exec_localMwr h ht, ?_⟩
  dsimp only
  rw [(localMwr_find (shut_taken htag) hpos hlen).2 ((OutLook.takePacket wl p s).passes (by decide) hp)]
  obtain ⟨r, hq, hfn, hkind, haddr, hl, hdata, hsrc, htn, hcls⟩ := taken_passes (kind := .write) (len := 0) (charge := p.len) h hp (.inl rfl)
  rw [if_neg (by omega)] at hdata
  rw [ht] at hsrc
  exact ⟨r, hq, hfn, hkind, haddr, hl, hdata, hsrc, htn, hcls⟩

theorem mwr_missed (ht : p.typ = 1) (htag : p.ackReq = true → tagOpen s wl p.tag = false) (hpos : 0 < p.len) (hlen : p.len ≤ 512)
    (hmiss : findOut s wl p.addr = none) :
    Completes (.localMwr wl p) s (fun t => t.rd .CT_WL_WIN_MISS wl = (s.rd .CT_WL_WIN_MISS wl + 1) % 2 ^ 64 ∧
      (p.ackReq = true → Answers wl p.tag 5 1 t)) := by
  refine ⟨_, exec_localMwr h ht, ?_⟩
  dsimp only
  rw [(localMwr_find (i := 0) (shut_taken htag) hpos hlen).1 (by rw [(OutLook.takePacket wl p s).findOut]; exact hmiss)]
  obtain ⟨hcount, hwrite, -⟩ := windowMiss_spec (n := wl) (cause := 1) (s := takePacket wl p s) h.2.2
  rw [takePacket_rd _ _ _ (by decide +kernel)] at hcount
  exact ⟨hcount, hwrite ht⟩

theorem mrd_passes (ht : p.typ = 2) (htag : tagOpen s wl p.tag = false) (hlen : p.len ≤ 4096) (hp : Passes s wl i p .OW_RD)
    (hread : (owDest s i).2 < 256 → s.rd .TN_ALLOWANCE (owDest s i).2 ≠ 0 ∨ s.rd .TN_CB_UNITS (owDest s i).2 ≠ 0) :
    Completes (.localMrd wl p) s (fun t => (∃ r, t.hostQ = s.hostQ ++ [r] ∧ r.fn = fnOf (owDest s i).1 ∧
        r.kind = (if p.len = 0 then .flush else .read) ∧ r.addr = (owHost s i + (p.addr - owBase s i)) % 2 ^ 64 ∧
        r.len = p.len ∧ r.src = .window wl p.lane p.tag i 0 true true) ∧
      ∃ q, t.locReqs = s.locReqs ++ [q] ∧ q.wl = wl.val ∧ q.tag = p.tag ∧ q.len = p.len) := by
  refine ⟨_, exec_localMrd h ht, ?_⟩
  dsimp only
  rw [(localMrd_find ((tagOpen_takePacket ..).trans htag) hlen).2 ((OutLook.takePacket wl p s).passes (by decide) hp)]
  obtain ⟨r, hq, hfn, hkind, haddr, hl, -, hsrc, -, -⟩ := taken_passes (kind := if p.len = 0 then .flush else .read) (len := p.len)
    (charge := p.len) h hp (.inr hread)
  rw [ht] at hsrc
  exact ⟨⟨r, hq, hfn, hkind, haddr, hl, hsrc⟩, taken_opens h hp hread (by omega)⟩

theorem mrd_missed (ht : p.typ = 2) (htag : tagOpen s wl p.tag = false) (hlen : p.len ≤ 4096) (hmiss : findOut s wl p.addr = none) :
    Completes (.localMrd wl p) s (fun t => t.rd .CT_WL_WIN_MISS wl = (s.rd .CT_WL_WIN_MISS wl + 1) % 2 ^ 64 ∧ Answers wl p.tag 3 1 t) := by
  refine ⟨_, exec_localMrd h ht, ?_⟩
  dsimp only
  rw [(localMrd_find (i := 0) ((tagOpen_takePacket ..).trans htag) hlen).1 (by rw [(OutLook.takePacket wl p s).findOut]; exact hmiss)]
  obtain ⟨hcount, -, hread⟩ := windowMiss_spec (n := wl) (cause := 1) (s := takePacket wl p s) h.2.2
  rw [takePacket_rd _ _ _ (by decide +kernel)] at hcount
  exact ⟨hcount, hread ht⟩

theorem atom_passes (ht : p.typ = 6) (htag : tagOpen s wl p.tag = false) (hok : atomOk p.sub p.len = true) (hp : Passes s wl i p .OW_AT)
    (hmay : atomMay s i p = true)
    (hread : (owDest s i).2 < 256 → s.rd .TN_ALLOWANCE (owDest s i).2 ≠ 0 ∨ s.rd .TN_CB_UNITS (owDest s i).2 ≠ 0) :
    Completes (.localAtom wl p) s (fun t => ∃ r, t.hostQ = s.hostQ ++ [r] ∧ r.fn = fnOf (owDest s i).1 ∧
      r.kind = .atomic p.sub ∧ r.addr = (owHost s i + (p.addr - owBase s i)) % 2 ^ 64 ∧ r.data = payloadOf p) := by
  refine ⟨_, exec_localAtom h ht, ?_⟩
  dsimp only
  have hlook := OutLook.takePacket wl p s
  rw [localAtom_find ((tagOpen_takePacket ..).trans htag) hok (hlook.passes (by decide) hp), hlook.atomMay, if_pos hmay]
  obtain ⟨r, hq, hfn, hkind, haddr, -, hdata, -⟩ := taken_passes (kind := .atomic p.sub) (len := if p.sub = 2 then p.len / 2 else p.len)
    (charge := p.len) h hp (.inr hread)
  rw [if_neg (by omega)] at hdata
  exact ⟨r, hq, hfn, hkind, haddr, hdata⟩

theorem atom_refused (ht : p.typ = 6) (htag : tagOpen s wl p.tag = false) (hok : atomOk p.sub p.len = true) (hp : Passes s wl i p .OW_AT)
    (hmay : atomMay s i p = false) :
    Completes (.localAtom wl p) s (fun t => t.hostQ = s.hostQ ∧ ∃ x, (t.wl wl).linkQ.getLast? = some x ∧ x.pkt.typ = 3 ∧
      x.pkt.tag = p.tag ∧ x.pkt.cause = 12) := by
  refine ⟨_, exec_localAtom h ht, ?_⟩
  have hlook := OutLook.takePacket wl p s
  rw [localAtom_find ((tagOpen_takePacket ..).trans htag) hok (hlook.passes (by decide) hp), hlook.atomMay, if_neg (by simp [hmay])]
  obtain ⟨x, hlast, htyp, hxtag, -, hcause⟩ := respond_answers (n := wl) (lane := p.lane) (typ := 3) (cause := 12)
    (s := releasePkt wl p (takePacket wl p s)) h.2.2
  refine ⟨?_, x, hlast, htyp, hxtag, hcause⟩
  refine Eq.trans (b := (takePacket wl p s).hostQ) ?_ taken_queue.1
  refine ((moves_respond (.refl foot_respond _) (within_self _)).part .hostQ (by decide +kernel)).trans ?_
  exact (moves_releasePkt (.refl foot_releasePkt _) (within_self _)).part .hostQ (by decide +kernel)

end

end Sys2Proof.Proofs
end

section
/-!
Messages to the host, and the answers that a local design gives or does not give (R122, R225, R228, R235).
-/
namespace Sys2Proof.Proofs
open Sys2Proof Sys2Proof.Machine Sys2Proof.Laws
set_option Elab.async false

/-! ### A message whose vector sends -/

/-- What decides that a vector's message is sent at once. -/
structure Sends (s : State) (f v : Nat) : Prop where
  there : v < s.rd .FI_VEC_COUNT f
  enabled : (s.cf f).msixEn = true
  unbound : s.boundTn f = none
  idle : s.rd .FI_HOLDOFF f v = 0
  open_ : (s.vec f v).masked = false
  unmasked : (s.cf f).fmask = false
  may : canSend s f = true

/-- The registers that this is read from. -/
def sendFlds : List Fld := [.FI_VEC_COUNT, .DVSEC_TNID, .FI_HOLDOFF, .WD_REACT]

theorem canSend_congr {s t : State} (hcfg : t.cfg = s.cfg) (hhls : t.hls = s.hls) (hreact : t.rd .WD_REACT = s.rd .WD_REACT) (f : Nat) :
    canSend t f = canSend s f := by
  unfold canSend pfAsleep State.react State.on State.cf State.hl
  rw [hcfg, hhls, hreact]

/-- Steps that move none of it keep it so. -/
theorem Sends.keep {m : Nat} {s t : State} {f v : Nat} (h : Sends s f v) (hmv : Moves m s t)
    (hf : ∀ x ∈ sendFlds, m.testBit (fbit x) = false) (hp : ∀ x ∈ [Part.cfg, .vecs, .hls], m.testBit x.ctorIdx = false) : Sends t f v := by
  have hrd : ∀ x ∈ sendFlds, ∀ i j, t.rd x i j = s.rd x i j := fun x hx i j => hmv.reg x i j (hf x hx)
  have hcfg : t.cfg = s.cfg := hmv.part .cfg (hp .cfg (by decide))
  have hvecs : t.vecs = s.vecs := hmv.part .vecs (hp .vecs (by decide))
  have hhls : t.hls = s.hls := hmv.part .hls (hp .hls (by decide))
  obtain ⟨hv, hen, hb, hh, hm, hfm, hmay⟩ := h
  refine ⟨by rwa [hrd .FI_VEC_COUNT (by decide)], by rwa [State.cf, hcfg], by rwa [State.boundTn, hrd .DVSEC_TNID (by decide)],
    by rwa [hrd .FI_HOLDOFF (by decide)], by rwa [State.vec, hvecs], by rwa [State.cf, hcfg], ?_⟩
  rwa [canSend_congr hcfg hhls (hrd .WD_REACT (by decide) 0 0)]

theorem Sends.queue {s : State} {f v : Nat} (h : Sends s f v) (q : List HReq) : Sends { s with hostQ := q } f v :=
  ⟨h.there, h.enabled, h.unbound, h.idle, h.open_, h.unmasked, h.may⟩

/-- A vector that sends puts its message in the queue. -/
theorem raiseVec_sends_msix {f v : Nat} {s : State} (h : Sends s f v) : raiseVec f v s = sendVec f v s := by
  obtain ⟨hv, hen, hb, hh, hm, hfm, hmay⟩ := h
  simp [raiseVec, raiseVecWith, Nat.not_le.2 hv, hen, fnResetting, hb, State.on, hh, hm, hfm, hmay]

/-- With no message of a window left none is raised. -/
theorem settleIntr_msix {k v : Nat} {o : Option (Nat × Nat)} {r : HReq} {s : State} (hq : s.hostQ = [r]) (hsrc : r.src = .msix v o) :
    settleIntr k s = s := by
  cases k with
  | zero => rfl
  | succ k =>
    rw [settleIntr]
    simp [hq, hsrc]

theorem sendVec_queue (f v : Nat) (s : State) : ∃ x, (sendVec f v s).hostQ = s.hostQ ++ [x] ∧ x.fn = fnOf f ∧ x.kind = .write ∧
    x.src = .msix v none := ⟨_, rfl, rfl, rfl, rfl⟩

/-- The only message of the queue becomes that of its vector. -/
theorem intr_sends {k wl l v w f : Nat} {r : HReq} {s : State} (hq : s.hostQ = [r]) (hsrc : r.src = .intr wl l v w)
    (hf : r.frozen = false) (hfn : fnIdx r.fn = f) (hs : Sends s f v) :
    (settleIntr (k + 1) s).hostQ.map (fun r => (r.fn, r.kind, r.src)) = [(fnOf f, .write, .msix v (some (wl % 96, l)))] := by
  have hrelease := moves_releaseWindow (r' := r) (.refl foot_releaseWindow { s with hostQ := [] }) (within_self _)
  have hs' : Sends (releaseWindow r { s with hostQ := [] }) f v :=
    (hs.queue []).keep hrelease (by decide +kernel) (by decide +kernel)
  have hq' : (releaseWindow r { s with hostQ := [] }).hostQ = [] := hrelease.part .hostQ (by decide +kernel)
  rw [settleIntr_one hq hsrc hf]
  generalize releaseWindow r { s with hostQ := [] } = u at hs' hq' ⊢
  obtain ⟨x, hx, hxfn, hxkind, hxsrc⟩ := sendVec_queue f v u
  have hraise : (intrRaises r wl l v u).hostQ = [{ x with src := .msix v (some (wl % 96, l)) }] := by
    unfold intrRaises
    dsimp only
    rw [hfn, raiseVec_sends_msix hs', hx, hq']
    simp [hxsrc]
  rw [settleIntr_msix hraise rfl, hraise]
  simp [hxfn, hxkind]

/-- A message whose window maps it to a vector of a PF that sends. -/
theorem message_sends {n : Wl} {i v : Nat} {p : Pkt} {s : State} (hp : p.len = 0) (htag : p.tag < 4096)
    (hsub : p.sub = 1 ∨ p.sub = 2 ∧ (s.wl n).peerLink = true) (hfind : findInt s n p.num = some i) (hpf : s.rd .NW_TO_PF i = 1)
    (hhl : s.rd .NW_PF_HL i < 32) (hon : s.tlOn (hlTiller (s.rd .NW_PF_HL i)) = true) (hq : s.hostQ = [])
    (hv : s.rd .NW_VEC_BASE i + (p.num - s.rd .NW_MSG_BASE i) = v) (hs : Sends s (pfIdx (s.rd .NW_PF_HL i)) v) :
    (localMsg n p s).hostQ.map (fun r => (r.fn, r.kind, r.src)) =
      [(fnOf (pfIdx (s.rd .NW_PF_HL i)), .write, .msix v (some (n, p.lane)))] := by
  have hwl : (if p.tag = freshTag then n.val + 96 else n.val) = n.val := if_neg (by simp [freshTag]; omega)
  have hsrc : (windowIntr s n p i).src = .intr n.val p.lane v i := by
    subst hv
    simp only [windowIntr, hreq, hwl]
  unfold localMsg
  rw [if_neg (by simp [hp]), if_pos (by simpa using hsub), interruptMsg_pf hfind hpf hon hq]
  have hsent := intr_sends (k := 1023) (s := { s with hostQ := [windowIntr s n p i] }) rfl hsrc rfl (fnIdx_fnOf_pfIdx hhl) (hs.queue _)
  rwa [Nat.mod_eq_of_lt n.isLt] at hsent

/-- Taking the packet changes nothing of that. -/
theorem taken_sends {n : Wl} {i v : Nat} {p : Pkt} {s : State} (hp : p.len = 0) (htag : p.tag < 4096)
    (hsub : p.sub = 1 ∨ p.sub = 2 ∧ (s.wl n).peerLink = true) (hfind : findInt s n p.num = some i) (hpf : s.rd .NW_TO_PF i = 1)
    (hhl : s.rd .NW_PF_HL i < 32) (hon : s.tlOn (hlTiller (s.rd .NW_PF_HL i)) = true) (hq : s.hostQ = [])
    (hv : s.rd .NW_VEC_BASE i + (p.num - s.rd .NW_MSG_BASE i) = v) (hs : Sends s (pfIdx (s.rd .NW_PF_HL i)) v) :
    (localMsg n p (takePacket n p s)).hostQ.map (fun r => (r.fn, r.kind, r.src)) =
      [(fnOf (pfIdx (s.rd .NW_PF_HL i)), .write, .msix v (some (n, p.lane)))] := by
  have hmv := moves_takePacket (n := n) (p := p) (.refl foot_takePacket s) (within_self _)
  have hpeer : ((takePacket n p s).wl n).peerLink = (s.wl n).peerLink := by
    have hcore := congrArg WlS.peerLink (wlCore_takePacket n p s n)
    exact hcore
  have hrd : ∀ f, Nat.testBit foot_takePacket (fbit f) = false → (takePacket n p s).rd f i = s.rd f i := fun f hf => hmv.reg f i 0 hf
  have hhl' := hrd .NW_PF_HL (by decide +kernel)
  have h := message_sends (s := takePacket n p s) (n := n) (i := i) (v := v) (p := p) hp htag (by rw [hpeer]; exact hsub)
    ((findInt_takePacket ..).trans hfind) ((hrd .NW_TO_PF (by decide +kernel)).trans hpf) (by rw [hhl']; exact hhl)
    (by rw [hhl', (OutLook.takePacket n p s).tlOn]; exact hon) ((hmv.part .hostQ (by decide +kernel)).trans hq)
    (by rw [hrd .NW_VEC_BASE (by decide +kernel), hrd .NW_MSG_BASE (by decide +kernel)]; exact hv)
    (by rw [hhl']; exact hs.keep hmv (by decide +kernel) (by decide +kernel))
  rwa [hhl'] at h

/-! ### The answer to a host write -/

theorem find?_of_filter {α : Type} {p : α → Bool} {l : List α} {a : α} (h : l.filter p = [a]) : l.find? p = some a := by
  rw [← List.head?_filter, h]
  rfl

/-- Without the only one of its kind there is none. -/
theorem erase_only {α : Type} [DecidableEq α] {p : α → Bool} {l : List α} {a : α} (h : l.filter p = [a]) : ∀ x ∈ l.erase a, p x = false := by
  intro x hx
  by_contra hp
  have hleft : x ∈ (l.filter p).erase a := by
    rw [List.erase_filter]
    exact List.mem_filter.2 ⟨hx, by simpa using hp⟩
  simp [h] at hleft

section
variable {wl : Wl} {p : Pkt} {e : WTag} {s : State} (h : Taken s wl p)
include h

/-- The answer of the only request of its TAG ends nothing else. -/
theorem exec_answered (ht : p.typ = 3 ∨ p.typ = 4 ∨ p.typ = 5) (hone : (s.wl wl).wlTags.filter (fun t => t.tag == p.tag) = [e])
    (hq : e.quarantined = false) (ha : answers e.pkt p = true) (hfits : p.typ = 4 → Machine.fits e p = true)
    (hgone : ((answered wl e p (releasePkt wl p (takePacket wl p s))).wl wl).wlTags = (s.wl wl).wlTags.erase e) :
    exec (.localResponse wl p) s = .next (freezeSettle (answered wl e p (releasePkt wl p (takePacket wl p s)))) := by
  have hsome := find?_of_filter hone
  have htag : e.tag = p.tag := by simpa using List.find?_some hsome
  rw [exec_localResponse h ht, localResponse_fits (by rw [wlTags_takePacket]; exact hsome) hq ha hfits, endFormer_none]
  intro t ht
  rw [hgone] at ht
  simpa [htag] using erase_only hone t ht

/-- An answer with SC frees the TAG of a host write. -/
theorem write_answered {f i : Nat} (hone : (s.wl wl).wlTags.filter (fun t => t.tag == p.tag) = [e]) (hq : e.quarantined = false)
    (hsrc : e.src = .hostWrite f i) (hreq : e.pkt.typ = 1) (ht : p.typ = 5) (hok : p.status = 0) :
    Completes (.localResponse wl p) s (fun t => (t.wl wl).wlTags = (s.wl wl).wlTags.erase e) := by
  have hfreed : ((answered wl e p (releasePkt wl p (takePacket wl p s))).wl wl).wlTags = (s.wl wl).wlTags.erase e := by
    have hstale : ∀ u, staleRsp u e = false := fun u => by simp [staleRsp, hsrc, WSrc.chan]
    have hcount := wl_of_wls (answerCounted_wls wl e p (releasePkt wl p (takePacket wl p s))) wl
    unfold answered
    dsimp only
    generalize when (p.typ == 4) _ _ = u at hcount ⊢
    rw [if_neg (by simp [hstale]), hsrc, if_neg (by omega), if_pos hok]
    refine (freeWTag_wlTags wl e u).trans ?_
    rw [hcount, wlTags_releasePkt, wlTags_takePacket]
  refine ⟨_, exec_answered h (by omega) hone hq (by simp [answers, hreq, ht]) (by omega) hfreed, ?_⟩
  dsimp only
  rw [wl_of_wls (freezeSettle_wls _), hfreed]

end

/-! ### The answer to a host read -/

/-- The only entry of its kind is replaced. -/
theorem replaced_only {rd : Nat} {q q' : InRd} (hid : q'.id = rd) : ∀ {l : List InRd}, l.filter (fun x => x.id == rd) = [q] →
    (l.map (fun x => if x = q then q' else x)).filter (fun x => x.id == rd) = [q'] ∧
      (l.map (fun x => if x = q then q' else x)).erase q' = l.erase q
  | [], h => nomatch h
  | a :: l, h => by
    by_cases ha : a.id = rd
    · obtain ⟨rfl, hrest⟩ : a = q ∧ l.filter (fun x => x.id == rd) = [] := by simpa [ha] using h
      have hsame : l.map (fun x => if x = a then q' else x) = l := by
        refine (List.map_congr_left fun x hx => if_neg ?_).trans (List.map_id l)
        rintro rfl
        exact List.filter_eq_nil_iff.1 hrest x hx (by simpa using ha)
      simp [hsame, hid, hrest]
    · have hne : a ≠ q := by
        rintro rfl
        have hin : a ∈ (a :: l).filter (fun x => x.id == rd) := by rw [h]; exact List.mem_singleton.2 rfl
        exact ha (by simpa using (List.mem_filter.1 hin).2)
      have hne' : a ≠ q' := fun e => ha (e ▸ hid)
      obtain ⟨hfilter, herase⟩ := replaced_only hid (l := l) (by simpa [ha] using h)
      refine ⟨by simpa [hne, ha] using hfilter, ?_⟩
      rw [List.map_cons, if_neg hne, List.erase_cons_tail (by simpa using hne'), List.erase_cons_tail (by simpa using hne), herase]

/-- A read whose data lie together. -/
theorem gather_one {b : Bytes} (hb : b ≠ []) : gather [(0, b)] 2 0 = b := by
  have hlen : 0 < b.length := List.length_pos_iff.2 hb
  have hne : (0 : Nat) ≠ 0 + b.length := by omega
  simp [gather, hb, hlen.ne]

/-- A host read with all its data. -/
def gotRd (q : InRd) (b : Bytes) : InRd := { q with done := [(0, b)] }

/-- The data have arrived. -/
def gotData (q : InRd) (b : Bytes) (s : State) : State := { s with inRds := s.inRds.map (fun x => if x = q then gotRd q b else x) }

section
variable {rd : Nat} {q : InRd} {b : Bytes} {s : State}

/-- A host read with all its data is completed, and is no longer outstanding. -/
theorem inData_completes (hrd : s.inRds.filter (fun x => x.id == rd) = [q]) (hdone : q.done = []) (hsent : q.sent = 0)
    (hopen : q.failed = 0) (hlen : q.req.len = b.length) (hb : b ≠ []) (hmax : b.length ≤ maxPayload s (fnIdx q.req.fn))
    (hup : s.dlUp q.req.fn.hl = true) :
    Out.cpl q.req.fn q.req.hostTag 0 q.req.len b ∈ (inData rd 0 b s).out ∧ (inData rd 0 b s).inRds = s.inRds.erase q := by
  have hid : q.id = rd := by simpa using List.find?_some (find?_of_filter hrd)
  obtain ⟨honly, herase⟩ := replaced_only (q' := gotRd q b) hid hrd
  have hstep : inData rd 0 b s = sendHostCpls rd (4095 + 1) (gotData q b s) := by
    unfold inData inRd
    rw [find?_of_filter hrd]
    dsimp only
    rw [if_neg (by simp [hopen]), hdone]
    rfl
  have hcut (z : State) (hz : z.cfg = s.cfg) : cplLen z (gotRd q b) b.length = b.length := by
    have hmax' : maxPayload z (fnIdx q.req.fn) = maxPayload s (fnIdx q.req.fn) := by unfold maxPayload State.cf; rw [hz]
    unfold cplLen
    rw [show (gotRd q b).req = q.req from rfl, show (gotRd q b).sent = q.sent from rfl]
    dsimp only
    rw [hmax', Nat.min_eq_left hmax, hsent, hlen, if_pos (Nat.sub_zero _).symm]
  have hpos : b.length ≠ 0 := fun e => hb (List.length_eq_zero_iff.1 e)
  have hsends (z : State) (hz : z.inRds = s.inRds.map (fun x => if x = q then gotRd q b else x))
      (hc : cplLen z (gotRd q b) b.length = b.length) : sendHostCpls rd (4095 + 1) z =
        { sendCpl (fnIdx q.req.fn) q.req.hostTag 0 q.req.len b z with inRds :=
          (sendCpl (fnIdx q.req.fn) q.req.hostTag 0 q.req.len b z).inRds.erase (gotRd q b) } := by
    unfold sendHostCpls inRd
    rw [hz, find?_of_filter honly]
    dsimp only
    have hsent' : (gotRd q b).sent = 0 := hsent
    have hall : gather (gotRd q b).done ((gotRd q b).done.length + 1) (gotRd q b).sent = b := by
      rw [hsent']
      exact gather_one hb
    rw [hall, hc, if_neg hpos, hsent', show (gotRd q b).req = q.req from rfl, if_pos (by omega), List.take_length, Nat.sub_zero]
  rw [hstep, hsends (gotData q b s) rfl (hcut (gotData q b s) rfl)]
  refine ⟨completed rfl hup, ?_⟩
  have hkept := (moves_sendCpl (f := fnIdx q.req.fn) (hostTag := q.req.hostTag) (status := 0) (byteCount := q.req.len) (data := b)
    (.refl foot_sendCpl (gotData q b s))
    (within_self _)).part .inRds (by decide +kernel)
  exact (congrArg (List.erase · _) hkept).trans herase

end

theorem inPart_none {rd : Nat} {s : State} (h : inRd s rd = none) : inPart rd s = s := by
  unfold inPart
  rw [h]

/-- What an answer counts and takes moves neither the reads of hosts, functions nor links. -/
structure ReadLook (s t : State) : Prop where
  reads : t.inRds = s.inRds
  cfg : t.cfg = s.cfg
  up : ∀ k, t.dlUp k = s.dlUp k

theorem ReadLook.of_moves {m : Nat} {s t : State} (h : Moves m s t) (hi : m.testBit Part.inRds.ctorIdx = false := by decide +kernel)
    (hc : m.testBit Part.cfg.ctorIdx = false := by decide +kernel) (hu : m.testBit (fbit .HL_DL_UP) = false := by decide +kernel) : ReadLook s t :=
  ⟨h.part .inRds hi, h.part .cfg hc, fun k => by rw [State.dlUp, State.on, h.reg .HL_DL_UP k 0 hu]; rfl⟩

theorem ReadLook.trans {r s t : State} (h : ReadLook r s) (h' : ReadLook s t) : ReadLook r t :=
  ⟨h'.reads.trans h.reads, h'.cfg.trans h.cfg, fun k => (h'.up k).trans (h.up k)⟩

/-- What an answer counts before it ends its request. -/
def answerCounted (n : Nat) (t : WTag) (p : Pkt) (s : State) : State :=
  when (p.typ == 4) (fun s => hubCross (wlTiller n) (t.src.tiller s n) p.len s)
    (withSome ((t.src.hostRd s).filter (·.down)) (fun q s => s.inc .HL_DROP_CNT q.req.fn.hl.val) s)

/-- What an answer moves before it ends its request. -/
def countedFoot : Nat := foot_hubCross ||| foot_releasePkt ||| foot_takePacket ||| fms [.HL_DROP_CNT]

theorem readLook_counted (n : Nat) (t : WTag) (p : Pkt) (s : State) :
    ReadLook s (freeWTag n t (answerCounted n t p (releasePkt n p (takePacket n p s)))) := by
  have htaken : Moves countedFoot s (releasePkt n p (takePacket n p s)) :=
    moves_releasePkt (moves_takePacket (.refl _ s) (by unfold Within; decide +kernel)) (by unfold Within; decide +kernel)
  have hcounted : Moves countedFoot s (answerCounted n t p (releasePkt n p (takePacket n p s))) :=
    moves_when (moves_withSome htaken fun q z hz => moves_inc (f := .HL_DROP_CNT) (i := q.req.fn.hl.val) (j := 0) hz (by unfold Within; decide +kernel))
      fun z hz => moves_hubCross hz (by unfold Within; decide +kernel)
  exact (ReadLook.of_moves hcounted).trans ⟨rfl, rfl, fun _ => rfl⟩

theorem read_answered {wl : Wl} {p : Pkt} {e : WTag} {f rd : Nat} {q : InRd} {s : State} (h : Taken s wl p)
    (hone : (s.wl wl).wlTags.filter (fun t => t.tag == p.tag) = [e]) (hq : e.quarantined = false) (hsrc : e.src = .hostRead f rd 0)
    (hreq : e.pkt.typ = 2) (ht : p.typ = 4) (hfits : Machine.fits e p = true) (hgot : e.got = 0) (hlen : p.len = e.pkt.len)
    (hrd : s.inRds.filter (fun x => x.id == rd) = [q]) (hdone : q.done = []) (hsent : q.sent = 0)
    (hopen : q.failed = 0) (hall : q.req.len = p.len) (hmax : p.len ≤ maxPayload s (fnIdx q.req.fn)) (hup : s.dlUp q.req.fn.hl = true) :
    Completes (.localResponse wl p) s (fun t =>
      Out.cpl q.req.fn q.req.hostTag 0 q.req.len (payloadOf p) ∈ t.out ∧ t.inRds = s.inRds.erase q) := by
  have hpos : 1 ≤ p.len := by
    simp only [Machine.fits, Bool.and_eq_true, decide_eq_true_eq] at hfits
    omega
  have hbytes : (payloadOf p).length = p.len := length_sub ..
  have hb : payloadOf p ≠ [] := fun e => by rw [e] at hbytes; exact absurd hbytes (by simp; omega)
  have hlook := readLook_counted wl e p s
  have hstale : ∀ u, staleRsp u e = false := fun u => by simp [staleRsp, hsrc, WSrc.chan]
  have hans : answered wl e p (releasePkt wl p (takePacket wl p s)) = inPart rd (inData rd 0 (payloadOf p)
      (freeWTag wl e (answerCounted wl e p (releasePkt wl p (takePacket wl p s))))) := by
    unfold answered
    dsimp only
    rw [if_neg (by simp [hstale]), if_pos ht, if_pos (by simp [hgot, hlen]), hsrc, hgot]
    unfold answerCounted
    rw [hsrc]
    rfl
  have hgone := answered_last (p := p) (s := releasePkt wl p (takePacket wl p s)) (n := wl) hsrc (.inr ⟨ht, by omega⟩)
  rw [wlTags_releasePkt, wlTags_takePacket] at hgone
  refine ⟨_, exec_answered h (by omega) hone hq (by simp [answers, hreq, ht]; omega) (fun _ => hfits) hgone, ?_⟩
  rw [hans]
  generalize freeWTag wl e (answerCounted wl e p (releasePkt wl p (takePacket wl p s))) = u at hlook ⊢
  obtain ⟨hreads, hcfg, hlink⟩ := hlook
  have hmax' : maxPayload u (fnIdx q.req.fn) = maxPayload s (fnIdx q.req.fn) := by unfold maxPayload State.cf; rw [hcfg]
  obtain ⟨hcpl, hleft⟩ := inData_completes (s := u) (by rw [hreads]; exact hrd) hdone hsent hopen (hall.trans hbytes.symm) hb
    (by rw [hbytes, hmax']; exact hmax) (by rw [hlink]; exact hup)
  have hnone : inRd (inData rd 0 (payloadOf p) u) rd = none := by
    rw [inRd, hleft, hreads, List.find?_eq_none]
    exact fun x hx => by simpa using erase_only hrd x hx
  rw [inPart_none hnone]
  have hsettle := moves_freezeSettle (.refl foot_freezeSettle (inData rd 0 (payloadOf p) u)) (within_self _)
  exact ⟨hsettle.sent.subset hcpl, (hsettle.part .inRds (by decide +kernel)).trans (by rw [hleft, hreads])⟩

/-! ### A request that is not answered -/

theorem timeout_quarantines {wl : Wl} {tag : Nat} {e : WTag} {s : State}
    (hsome : (s.wl wl).wlTags.find? (fun t => t.tag == tag) = some e) (hq : e.quarantined = false) (ht : e.ticksLeft = 0)
    (hon : s.tlOn (wlTiller wl) = true) (hsrc : (∃ f i, e.src = .hostWrite f i) ∨ ∃ f rd part, e.src = .hostRead f rd part) :
    Completes (.lrspTimeout wl tag) s (fun t => ∃ x ∈ (t.wl wl).wlTags, x.tag = tag ∧ x.quarantined = true) := by
  have hkept (z : State) : (bridgeFails wl e.src e.pkt.addr 6 z).wls = z.wls := by
    obtain ⟨f, i, hw⟩ | ⟨f, rd, part, hr⟩ := hsrc
    · rw [hw]
      rfl
    · rw [hr]
      unfold bridgeFails
      dsimp only
      split
      · rfl
      · rw [when_of_not _ _ (by simp)]
        exact (moves_failInRd (.refl foot_failInRd z) (within_self _)).part .wls (by decide +kernel)
  refine ⟨_, exec_lrspTimeout hsome hq ht hon, ?_⟩
  dsimp only
  rw [wl_of_wls (freezeSettle_wls _)]
  split
  · exact timedOut_wlTags hsome
  · rw [wl_of_wls (hkept _)]
    exact timedOut_wlTags hsome

/-- Settles O42: a request waits behind what waited, its window's base added; a message is raised from the queue's only entry; an
answer ends the one request of its TAG. -/
theorem outboundPackets : Obligations.OutboundPackets := by
  unfold Obligations.OutboundPackets
  refine ⟨fun wl p i s h ht htag hpos hlen hp => mwr_passes h ht htag hpos hlen hp,
    fun wl p s h ht htag hpos hlen hmiss => mwr_missed h ht htag hpos hlen hmiss,
    fun wl p i s h ht htag hlen hp hread => mrd_passes h ht htag hlen hp hread,
    fun wl p s h ht htag hlen hmiss => mrd_missed h ht htag hlen hmiss,
    fun wl p i s h ht htag hok hp => ⟨fun hmay hread => atom_passes h ht htag hok hp hmay hread,
      fun hmay => atom_refused h ht htag hok hp hmay⟩,
    fun wl p i s h ht hl hf hpf hhl hon hq => ?_,
    fun wl p s h ht hs hl => ?_,
    fun wl p e s h hone hq => ⟨fun f i hsrc hreq ht hok => write_answered h hone hq hsrc hreq ht hok,
      fun f rd q hsrc hreq ht hfits hgot hlen hrd _ hdone hsent hopen hall hmax hup =>
        read_answered h hone hq hsrc hreq ht hfits hgot hlen hrd hdone hsent hopen hall hmax hup⟩,
    fun wl tag e s hsome hq ht hon => ⟨fun f i hsrc => timeout_quarantines hsome hq ht hon (.inl ⟨f, i, hsrc⟩),
      fun f rd part hsrc => timeout_quarantines hsome hq ht hon (.inr ⟨f, rd, part, hsrc⟩)⟩⟩
  · intro fn v hv hen hb hh hm hfm hmay
    refine ⟨fun hs => ?_, fun hs hpeer => ?_⟩
    · exact ⟨_, congrArg Host.Outcome.next (localPacket_taken h (by simp [ht]) _),
        taken_sends hl h.2.2 (.inl hs) hf hpf hhl hon hq rfl ⟨hv, hen, hb, hh, hm, hfm, hmay⟩⟩
    · exact ⟨_, congrArg Host.Outcome.next ((when_of _ s (by simp [ht, hs])).trans (localPacket_taken h (by simp [ht]) _)),
        taken_sends hl h.2.2 (.inr ⟨hs, hpeer⟩) hf hpf hhl hon hq rfl ⟨hv, hen, hb, hh, hm, hfm, hmay⟩⟩
  · obtain ⟨t, hexec, -, hmax, x, hx, -⟩ := ident_held h ht hs hl
    exact ⟨t, hexec, hmax, by rw [hx]; rfl⟩

end Sys2Proof.Proofs
end

section
/-!
The tenant commands and their ends (R71, R275 to R277, R279, R287 to R290, R350, R351).
-/
namespace Sys2Proof.Proofs
open Sys2Proof Sys2Proof.Machine Sys2Proof.Laws
set_option Elab.async false

/-- A command that is served for one authority is served for a wider one. -/
theorem served_wider {op key : Nat} {a b : Bool} {r : CmdReq} {s : State} (h : Served op key a r s) (hb : b = true) : Served op key b r s := by
  obtain ⟨h1, h2, h3, h4, h5, h6, h7, h8, h9, h10, -, hrest⟩ := h
  exact ⟨h1, h2, h3, h4, h5, h6, h7, h8, h9, h10, hb, hrest⟩

theorem rd_when_keep {c : Bool} {f : State → State} {s : State} {g : Fld} {i j : Nat} (h : ∀ z, (f z).rd g i j = z.rd g i j) :
    (when c f s).rd g i j = s.rd g i j := when_cases (P := fun z => z.rd g i j = s.rd g i j) rfl (h s)

/-! ### The fields that a command gives a tenant -/

theorem putTenant_weight (n sel : Nat) (p : TenantParams) (s : State) :
    (putTenant n sel p s).rd .TN_WEIGHT n = if sel.testBit 0 then p.weight % 2 ^ 8 else s.rd .TN_WEIGHT n := by
  unfold putTenant
  dsimp only
  rw [rd_when_keep fun z => rd_wr_ne z (by rintro ⟨⟨⟩, -⟩),
    rd_when_keep fun z => (rd_wr_ne _ (by rintro ⟨⟨⟩, -⟩)).trans ((rd_wr_ne _ (by rintro ⟨⟨⟩, -⟩)).trans (rd_wr_ne z (by rintro ⟨⟨⟩, -⟩))),
    rd_when_keep fun z => (rd_wr_ne _ (by rintro ⟨⟨⟩, -⟩)).trans ((rd_wr_ne _ (by rintro ⟨⟨⟩, -⟩)).trans (rd_wr_ne z (by rintro ⟨⟨⟩, -⟩))),
    rd_when_keep fun z => rd_wr_ne z (by rintro ⟨⟨⟩, -⟩), rd_when_keep fun z => rd_wr_ne z (by rintro ⟨⟨⟩, -⟩),
    rd_when_keep fun z => (rd_wr_ne _ (by rintro ⟨⟨⟩, -⟩)).trans (rd_wr_ne z (by rintro ⟨⟨⟩, -⟩))]
  cases hsel : sel.testBit 0
  · rfl
  · exact rd_wr ..

theorem putTenant_vectors {n sel : Nat} {p : TenantParams} {s : State} (h : sel.testBit 1 = true) :
    (putTenant n sel p s).rd .TN_VECTORS n = p.vectors % 2 ^ 8 := by
  unfold putTenant
  dsimp only
  rw [rd_when_keep fun z => rd_wr_ne z (by rintro ⟨⟨⟩, -⟩),
    rd_when_keep fun z => (rd_wr_ne _ (by rintro ⟨⟨⟩, -⟩)).trans ((rd_wr_ne _ (by rintro ⟨⟨⟩, -⟩)).trans (rd_wr_ne z (by rintro ⟨⟨⟩, -⟩))),
    rd_when_keep fun z => (rd_wr_ne _ (by rintro ⟨⟨⟩, -⟩)).trans ((rd_wr_ne _ (by rintro ⟨⟨⟩, -⟩)).trans (rd_wr_ne z (by rintro ⟨⟨⟩, -⟩))),
    rd_when_keep fun z => rd_wr_ne z (by rintro ⟨⟨⟩, -⟩), rd_when_keep fun z => rd_wr_ne z (by rintro ⟨⟨⟩, -⟩), when_of _ _ h]
  exact (rd_wr_ne _ (by rintro ⟨⟨⟩, -⟩)).trans (rd_wr ..)

/-! ### TENANT_CREATE -/

/-- The place of a tenant in the tables: its number, its state and its VF. -/
def seatTn (n : Nat) (p : TenantParams) (s : State) : State :=
  (((((s.wr .TN_TNID n n).wr .TN_STATE 1 n).wr .TN_VF p.vf n).wr .TN_HL p.hl n).wr .TN_RATE p.rate n).wr .TN_DEPTH (depthFor p.rate p.depth) n

/-- A VF presents the tenant. -/
def presentTn (n f : Nat) (s : State) : State := (s.wr .DVSEC_TNID n f).wr .DVSEC_GENERATION 0 f

/-- The tenant has no state of its own. -/
def clearTn (n : Nat) (p : TenantParams) (s : State) : State :=
  each tnCounters (fun f s => s.wr f 0 n) ((s.resetBlk .tenant n).modTen n (fun _ => { TenS.reset with
    regions := List.replicate 16 (0, 0), homeHl := p.hl }))

/-- What follows the fields of a new tenant. -/
def settleTn (n : Nat) (p : TenantParams) (s : State) : State :=
  dirChanged p.hl (showPools (traceTnState n 1 0 (growChans n p.chTiller s)))

theorem createTn_eq (n : Nat) (p : TenantParams) (s : State) : createTn n p s =
    settleTn n p (putTenant n 0x1FF p (presentTn n ((seatTn n p (clearTn n p s)).tnFn n) (seatTn n p (clearTn n p s)))) := rfl

/-- What the end of TENANT_CREATE moves. -/
def settleFoot : Nat := foot_growChans ||| foot_traceTnState ||| foot_showPools ||| foot_dirChanged

theorem moves_settleTn (n : Nat) (p : TenantParams) (s : State) : Moves settleFoot s (settleTn n p s) :=
  moves_dirChanged (moves_showPools (moves_traceTnState (moves_growChans (.refl _ s) (by unfold Within; decide +kernel))
    (by unfold Within; decide +kernel)) (by unfold Within; decide +kernel)) (by unfold Within; decide +kernel)

theorem seatTn_spec {n : Nat} {p : TenantParams} {s : State} (hhl : p.hl < 32) (hvf : p.vf ≤ 256) :
    (seatTn n p s).rd .TN_STATE n = 1 ∧ (seatTn n p s).rd .TN_HL n = p.hl ∧ (seatTn n p s).rd .TN_VF n = p.vf ∧
      (seatTn n p s).rd .TN_GENERATION n = s.rd .TN_GENERATION n := by
  unfold seatTn
  refine ⟨?_, ?_, ?_, ?_⟩
  · rw [rd_wr_ne _ (by rintro ⟨⟨⟩, -⟩), rd_wr_ne _ (by rintro ⟨⟨⟩, -⟩), rd_wr_ne _ (by rintro ⟨⟨⟩, -⟩), rd_wr_ne _ (by rintro ⟨⟨⟩, -⟩)]
    exact rd_wr ..
  · rw [rd_wr_ne _ (by rintro ⟨⟨⟩, -⟩), rd_wr_ne _ (by rintro ⟨⟨⟩, -⟩)]
    exact (rd_wr ..).trans (Nat.mod_eq_of_lt hhl)
  · rw [rd_wr_ne _ (by rintro ⟨⟨⟩, -⟩), rd_wr_ne _ (by rintro ⟨⟨⟩, -⟩), rd_wr_ne _ (by rintro ⟨⟨⟩, -⟩)]
    exact (rd_wr ..).trans (Nat.mod_eq_of_lt (Nat.lt_of_le_of_lt hvf (by decide)))
  · rw [rd_wr_ne _ (by rintro ⟨⟨⟩, -⟩), rd_wr_ne _ (by rintro ⟨⟨⟩, -⟩), rd_wr_ne _ (by rintro ⟨⟨⟩, -⟩), rd_wr_ne _ (by rintro ⟨⟨⟩, -⟩),
      rd_wr_ne _ (by rintro ⟨⟨⟩, -⟩), rd_wr_ne _ (by rintro ⟨⟨⟩, -⟩)]

theorem presentTn_rd (n f : Nat) (s : State) (g : Fld) (hg : g ≠ .DVSEC_TNID) (hg' : g ≠ .DVSEC_GENERATION) (i j : Nat) :
    (presentTn n f s).rd g i j = s.rd g i j :=
  (rd_wr_ne _ fun e => hg' e.1).trans (rd_wr_ne _ fun e => hg e.1)

theorem presentTn_bound (n f : Nat) (s : State) : (presentTn n f s).rd .DVSEC_TNID f = n % 2 ^ 16 :=
  (rd_wr_ne _ (by rintro ⟨⟨⟩, -⟩)).trans (rd_wr ..)

theorem clearTn_generation (n : Nat) (p : TenantParams) (s : State) : (clearTn n p s).rd .TN_GENERATION n = 0 := by
  refine each_induct_mem (P := fun z => z.rd .TN_GENERATION n = 0) _ (rd_resetBlk s 0 rfl) fun f hf z hz => ?_
  exact (rd_wr_ne z (by rintro ⟨rfl, -⟩; exact absurd hf (by decide))).trans hz

/-- The new tenant is ACTIVE in its first generation, and its VF presents it. -/
theorem createTn_spec {n : Nat} {p : TenantParams} {s : State} (hhl : p.hl < 32) (hvf : p.vf ≤ 256) (hw : p.weight < 256) :
    (createTn n p s).rd .TN_STATE n = 1 ∧ (createTn n p s).rd .TN_GENERATION n = 0 ∧ (createTn n p s).rd .TN_HL n = p.hl ∧
      (createTn n p s).rd .TN_VF n = p.vf ∧ (createTn n p s).rd .TN_WEIGHT n = p.weight ∧
      (createTn n p s).rd .DVSEC_TNID (p.hl * 512 + p.vf) = n % 2 ^ 16 := by
  obtain ⟨hstate, hhl', hvf', hgen⟩ := seatTn_spec (n := n) (s := clearTn n p s) hhl hvf
  rw [clearTn_generation] at hgen
  have hfn : (seatTn n p (clearTn n p s)).tnFn n = p.hl * 512 + p.vf := by rw [State.tnFn, hhl', hvf']
  rw [createTn_eq, hfn]
  generalize seatTn n p (clearTn n p s) = u at hstate hhl' hvf' hgen
  have hend := moves_settleTn n p (putTenant n 0x1FF p (presentTn n (p.hl * 512 + p.vf) u))
  have hput := moves_putTenant (n := n) (sel := 0x1FF) (p := p) (.refl foot_putTenant (presentTn n (p.hl * 512 + p.vf) u)) (within_self _)
  refine ⟨?_, ?_, ?_, ?_, ?_, ?_⟩
  · rw [hend.reg .TN_STATE n 0 (by decide +kernel), hput.reg .TN_STATE n 0 (by decide +kernel), presentTn_rd _ _ _ .TN_STATE nofun nofun, hstate]
  · rw [hend.reg .TN_GENERATION n 0 (by decide +kernel), hput.reg .TN_GENERATION n 0 (by decide +kernel), presentTn_rd _ _ _ .TN_GENERATION nofun nofun, hgen]
  · rw [hend.reg .TN_HL n 0 (by decide +kernel), hput.reg .TN_HL n 0 (by decide +kernel), presentTn_rd _ _ _ .TN_HL nofun nofun, hhl']
  · rw [hend.reg .TN_VF n 0 (by decide +kernel), hput.reg .TN_VF n 0 (by decide +kernel), presentTn_rd _ _ _ .TN_VF nofun nofun, hvf']
  · rw [hend.reg .TN_WEIGHT n 0 (by decide +kernel), putTenant_weight, if_pos (by decide)]
    exact Nat.mod_eq_of_lt hw
  · rw [hend.reg .DVSEC_TNID _ 0 (by decide +kernel), hput.reg .DVSEC_TNID _ 0 (by decide +kernel), presentTn_bound]

theorem tenant_created {r : CmdReq} {p : TenantParams} {n : Nat} {s : State} (hs : Served 0x0201 (targetOf s r) (hasMgr s r.iss) r s)
    (hlen : r.plen = 48) (hp : s.present p.hl = true) (hvf1 : 1 ≤ p.vf) (hvf : p.vf ≤ 256) (hall : p.vf ≤ tget 0 s.store.totalVfs p.hl)
    (hw : p.weight < 256) (hb : tnBounds p 0x1FF p.allowance p.cbUnits = true)
    (hd : tnDark s p.hl ((List.range 8).filter (fun t => p.chTiller.getD t 0 != 0)) = false)
    (hfree : s.boundTn (p.hl * 512 + p.vf) = none) (hst : r.target ≠ 0xFFFF → s.tnState r.target = 0 ∧ ctxLost s r.target = false)
    (hn : newTnid s r.target = some n) (hfits : tnShort s p 0x1FF 256 p.hl = false) :
    Completes (.tenantCreate r p) s (fun t => ∃ d, num d 0 1 = n % 256 ∧ Replies r 0x0201 0 d (fun u =>
      u.rd .TN_STATE n = 1 ∧ u.rd .TN_GENERATION n = 0 ∧ u.rd .TN_HL n = p.hl ∧ u.rd .TN_VF n = p.vf ∧
      u.rd .TN_WEIGHT n = p.weight ∧ u.rd .DVSEC_TNID (p.hl * 512 + p.vf) = n % 2 ^ 16) t) := by
  have hhl : p.hl < 32 := by
    unfold State.present at hp
    simpa using (Bool.and_eq_true_iff.1 hp).1
  refine ⟨_, congrArg Host.Outcome.next (runCmd_served hs (beq_iff_eq.2 hlen) ?_ hd ?_ rfl (fun h => nomatch h)), ?_⟩
  · simp [hp, hvf1, hall, hw, hb]
  · by_cases ht : r.target = 0xFFFF
    · rw [ht] at hn
      simp [firstFail, hfree, hfits, ht, hn]
    · simp [firstFail, hfree, hn, hfits, hst ht]
  · dsimp only
    rw [hn]
    refine ⟨_, ?_, createTn n p s, createTn_spec hhl hvf hw, rfl⟩
    rw [num_append_left (by simp), num_append_left (by simp), num_append_left (by simp), num_append_left (by simp), num_le]
    rfl

end Sys2Proof.Proofs
end

section
/-!
The tenant commands and their ends, continued: modify, reset, destroy, query, VF_ALLOT and RUNAHEAD_SET.
-/
namespace Sys2Proof.Proofs
open Sys2Proof Sys2Proof.Machine Sys2Proof.Laws
set_option Elab.async false

/-! ### TENANT_MODIFY -/

theorem growChans_newRate (n k : Nat) (want : List Nat) (s : State) : ((growChans n want s).ten k).newRate = (s.ten k).newRate := by
  have hone (c : Nat) (z : State) : ((z.modTen n (fun x => { x with chans := x.chans ++ [c] })).ten k).newRate = (z.ten k).newRate := by
    rw [modTen_ten]
    split
    next h => rw [h]
    next => rfl
  have hallot (c l : Nat) (z : State) : ((allotChan n c l z).ten k).newRate = (z.ten k).newRate := by
    rw [State.ten, (moves_allotChan (.refl foot_allotChan z) (within_self _)).part .tens (by decide +kernel)]
    rfl
  have hgrow (t w : Nat) (z : State) : ((growIn n t w z).ten k).newRate = (z.ten k).newRate :=
    each_induct (P := fun y => (y.ten k).newRate = (z.ten k).newRate) _ rfl fun c y hy => (hallot ..).trans ((hone c y).trans hy)
  have hall := each_induct (P := fun y => (y.ten k).newRate = (s.ten k).newRate) (f := fun t s => growIn n t (want.getD t 0) s) (List.range 8)
    (s := s) rfl fun t y hy => (hgrow ..).trans hy
  have hcount (v : Nat) (z : State) : (z.wr .TN_CH_COUNT v n).ten k = z.ten k := rfl
  exact (congrArg TenS.newRate (hcount _ _)).trans hall

/-- The new rate is noted. -/
def noteRate (n : Nat) (p : TenantParams) (s : State) : State :=
  when (p.change.testBit 5) (fun s => s.modTen n (fun x => { x with newRate := some (p.rate, p.depth) })) s

/-- The channels are taken and given. -/
def rechannel (n : Nat) (p : TenantParams) (s : State) : State :=
  when (p.change.testBit 7) (fun s => growChans n p.chTiller ((each (chansCut s n p.chTiller) takeChan s).modTen n
    (fun x => { x with chans := x.chans.filter (fun c => !(chansCut s n p.chTiller).contains c) }))) s

theorem modifyTn_eq (n : Nat) (p : TenantParams) (s : State) : modifyTn n p s =
    dirChanged ((rechannel n p (noteRate n p (putTenant n p.change p s))).rd .TN_HL n)
      (showPools (rechannel n p (noteRate n p (putTenant n p.change p s)))) := by
  unfold modifyTn rechannel noteRate
  rfl

/-- What TENANT_MODIFY moves beside the fields of its image. -/
def modifyFoot : Nat := foot_takeChan ||| foot_growChans ||| foot_showPools ||| foot_dirChanged ||| Part.tens.bit

theorem moves_rechannel (n h : Nat) (p : TenantParams) (s : State) : Moves modifyFoot s (dirChanged h (showPools (rechannel n p (noteRate n p s)))) := by
  have hnote : Moves modifyFoot s (noteRate n p s) :=
    moves_when (.refl _ s) fun z hz => moves_modTen hz (by unfold Within; decide +kernel)
  have hchans : Moves modifyFoot s (rechannel n p (noteRate n p s)) :=
    moves_when hnote fun z hz => moves_growChans (moves_modTen (moves_each hz fun c y hy => moves_takeChan hy (by unfold Within; decide +kernel))
      (by unfold Within; decide +kernel)) (by unfold Within; decide +kernel)
  exact moves_dirChanged (moves_showPools hchans (by unfold Within; decide +kernel)) (by unfold Within; decide +kernel)

theorem rechannel_newRate (n h : Nat) (p : TenantParams) (s : State) :
    ((dirChanged h (showPools (rechannel n p s))).ten n).newRate = (s.ten n).newRate := by
  have htens : (dirChanged h (showPools (rechannel n p s))).tens = (rechannel n p s).tens :=
    ((moves_dirChanged (.refl foot_dirChanged _) (within_self _)).part .tens (by decide +kernel)).trans
      ((moves_showPools (.refl foot_showPools _) (within_self _)).part .tens (by decide +kernel))
  have htake : (each (chansCut s n p.chTiller) takeChan s).tens = s.tens :=
    (moves_each (.refl foot_takeChan s) fun c z hz => moves_takeChan hz (within_self _)).part .tens (by decide +kernel)
  rw [State.ten, htens]
  refine when_cases (P := fun z => (z.ten n).newRate = (s.ten n).newRate) rfl ((growChans_newRate ..).trans ?_)
  rw [modTen_ten, if_pos rfl]
  exact congrArg (fun t => (tget TenS.reset t n).newRate) htake

theorem noteRate_newRate {n : Nat} {p : TenantParams} {s : State} (h : p.change.testBit 5 = true) :
    ((noteRate n p s).ten n).newRate = some (p.rate, p.depth) := by
  rw [noteRate, when_of _ _ h, modTen_ten, if_pos rfl]

/-- A tenant takes the fields that the command selects. -/
theorem modifyTn_spec {n : Nat} {p : TenantParams} {s : State} (hw : p.weight < 256) :
    (modifyTn n p s).rd .TN_WEIGHT n = (if p.change.testBit 0 then p.weight else s.rd .TN_WEIGHT n) ∧
      (p.change.testBit 1 = true → (modifyTn n p s).rd .TN_VECTORS n = p.vectors % 2 ^ 8) ∧
      (p.change.testBit 5 = true → ((modifyTn n p s).ten n).newRate = some (p.rate, p.depth)) ∧
      (modifyTn n p s).rd .TN_STATE n = s.rd .TN_STATE n := by
  have hput := (moves_putTenant (n := n) (sel := p.change) (p := p) (.refl foot_putTenant s) (within_self _)).reg .TN_STATE n 0 (by decide +kernel)
  rw [modifyTn_eq]
  generalize (rechannel n p (noteRate n p (putTenant n p.change p s))).rd .TN_HL n = h
  have hrest := moves_rechannel n h p (putTenant n p.change p s)
  refine ⟨?_, fun hsel => ?_, fun hsel => ?_, ?_⟩
  · rw [hrest.reg .TN_WEIGHT n 0 (by decide +kernel), putTenant_weight, show p.weight % 2 ^ 8 = p.weight from Nat.mod_eq_of_lt hw]
  · rw [hrest.reg .TN_VECTORS n 0 (by decide +kernel), putTenant_vectors hsel]
  · rw [rechannel_newRate, noteRate_newRate hsel]
  · rw [hrest.reg .TN_STATE n 0 (by decide +kernel), hput]

theorem tenant_modified {r : CmdReq} {p : TenantParams} {s : State} (hs : Served 0x0202 (targetOf s r) (hasMgr s r.iss) r s) (ha : Acts r s)
    (hlen : r.plen = 48) (hp : (cmdTenantModify r p).params s = true) (hd : (cmdTenantModify r p).dark s = false)
    (hown : modifyCheck (targetOf s r) p s = 0) :
    Completes (.tenantModify r p) s (Replies r 0x0202 0 [] (fun u =>
      u.rd .TN_WEIGHT (targetOf s r) = (if p.change.testBit 0 then p.weight else s.rd .TN_WEIGHT (targetOf s r)) ∧
      (p.change.testBit 1 = true → u.rd .TN_VECTORS (targetOf s r) = p.vectors % 2 ^ 8) ∧
      (p.change.testBit 5 = true → (u.ten (targetOf s r)).newRate = some (p.rate, p.depth)) ∧
      u.rd .TN_STATE (targetOf s r) = s.rd .TN_STATE (targetOf s r))) := by
  have hw : p.weight < 256 := by
    simp only [cmdTenantModify, Bool.and_eq_true, decide_eq_true_eq] at hp
    exact hp.1.2
  exact ⟨_, congrArg Host.Outcome.next (runCmd_served (c := cmdTenantModify r p) hs (beq_iff_eq.2 hlen) hp hd hown rfl
    (fun _ => ⟨ha.1, .inl ha.2⟩)), _, modifyTn_spec hw, rfl⟩

/-! ### TENANT_RESET and its end -/

theorem bumpGeneration_generation (n : Nat) (s : State) :
    (bumpGeneration n s).rd .TN_GENERATION n = (s.rd .TN_GENERATION n + 1) % 16 := by
  have hkeep (t : HTag) (z : State) : (quarantineTag t false z).rd .TN_GENERATION n = z.rd .TN_GENERATION n :=
    (moves_quarantineTag (.refl foot_quarantineTag z) (within_self _)).reg .TN_GENERATION n 0 (by decide +kernel)
  unfold bumpGeneration
  extract_lets g s1 s2 s3 s4
  have h1 : s1.rd .TN_GENERATION n = g := (rd_wr_ne _ (by rintro ⟨⟨⟩, -⟩)).trans ((rd_wr ..).trans (Nat.mod_mod_of_dvd _ (by decide)))
  have h3 : s3.rd .TN_GENERATION n = g :=
    ((moves_trace (.refl foot_trace s2) (within_self _)).reg .TN_GENERATION n 0 (by decide +kernel)).trans ((rd_wr_ne _ (by rintro ⟨⟨⟩, -⟩)).trans h1)
  exact each_induct (P := fun z => z.rd .TN_GENERATION n = g) _ h3 fun t z hz => (hkeep t z).trans hz

/-- The requests of a tenant end before its generation goes up. -/
def cutFirst (n code : Nat) (s : State) : State :=
  releaseHeldOf n (discardWaiting (fun r => r.tn == n && (match r.src with | .intr _ _ _ _ => false | .msix _ _ => false | _ => true)) 7
    (dropHeldMsgs n (haltTenant n code s)))

/-- What a cut moves, but for the generation. -/
def cutFoot : Nat := foot_releaseHeldOf ||| foot_discardWaiting ||| foot_dropHeldMsgs ||| foot_haltTenant ||| foot_failSrc ||| foot_showExcused

theorem moves_cutFirst (n code : Nat) (s : State) : Moves cutFoot s (cutFirst n code s) :=
  moves_releaseHeldOf (moves_discardWaiting (moves_dropHeldMsgs (moves_haltTenant (.refl _ s) (by unfold Within; decide +kernel))
    (by unfold Within; decide +kernel)) (by unfold Within; decide +kernel)) (by unfold Within; decide +kernel)

/-- A cut raises the generation once, and leaves the state of the tenant. -/
theorem cutTenant_generation (n code : Nat) (s : State) :
    (cutTenant n code true s).rd .TN_GENERATION n = (s.rd .TN_GENERATION n + 1) % 16 := by
  have hlast (l : List HTag) (z : State) : (showExcused (each l (fun t s => failSrc t.req 7 s) z)).rd .TN_GENERATION n = z.rd .TN_GENERATION n :=
    (moves_showExcused (moves_each (.refl cutFoot z) fun t y hy => moves_failSrc hy (by unfold Within; decide +kernel))
      (by unfold Within; decide +kernel)).reg .TN_GENERATION n 0 (by decide +kernel)
  refine (hlast ((cutFirst n code s).tags.filter (fun t => t.req.tn == n && !t.quarantined && !t.dropped)) (bumpGeneration n (cutFirst n code s))).trans ?_
  rw [bumpGeneration_generation, (moves_cutFirst n code s).reg .TN_GENERATION n 0 (by decide +kernel)]

theorem cutTenant_state (n code : Nat) (bump : Bool) (s : State) : (cutTenant n code bump s).rd .TN_STATE n = s.rd .TN_STATE n :=
  (moves_cutTenant (.refl foot_cutTenant s) (within_self _)).reg .TN_STATE n 0 (by decide +kernel)

/-- A reset takes an ACTIVE tenant to RESETTING and leaves a FROZEN one, each in its next generation. -/
theorem resetTn_spec {n : Nat} {s : State} (hst : s.tnState n = 1 ∨ s.tnState n = 3) :
    (resetTn n s).rd .TN_STATE n = (if s.tnState n = 1 then 2 else 3) ∧
      (resetTn n s).rd .TN_GENERATION n = (s.rd .TN_GENERATION n + 1) % 16 := by
  have hdir (h : Nat) (z : State) {f : Fld} (hf : foot_dirChanged.testBit (fbit f) = false) : (dirChanged h z).rd f n = z.rd f n :=
    (moves_dirChanged (.refl foot_dirChanged z) (within_self _)).reg f n 0 hf
  have htrace (z : State) {f : Fld} (hf : foot_traceTnState.testBit (fbit f) = false) : (traceTnState n 2 1 z).rd f n = z.rd f n :=
    (moves_traceTnState (.refl foot_traceTnState z) (within_self _)).reg f n 0 hf
  unfold resetTn
  split
  next h1 =>
    dsimp only
    rw [hdir _ _ (by decide +kernel), hdir _ _ (by decide +kernel), cutTenant_state, cutTenant_generation, htrace _ (by decide +kernel),
      htrace _ (by decide +kernel)]
    exact ⟨rd_wr .., congrArg (fun g => (g + 1) % 16) (rd_wr_ne s (by rintro ⟨⟨⟩, -⟩))⟩
  next h1 =>
    have h3 : s.tnState n = 3 := hst.resolve_left h1
    rw [if_pos h3]
    dsimp only
    rw [hdir _ _ (by decide +kernel), hdir _ _ (by decide +kernel), cutTenant_state, cutTenant_generation]
    exact ⟨h3, rfl⟩

theorem waitOn_waits (r : CmdReq) (op key : Nat) (s : State) : ∃ w ∈ (waitOn r op key s).keeper.waiting, w.req = r ∧ w.opcode = op ∧ w.key = key := by
  refine ⟨⟨r, op, key, curGen s r⟩, ?_, rfl, rfl, rfl⟩
  have hin : (⟨r, op, key, curGen s r⟩ : Waiting) ∈ (s.modKeeper (fun k => { k with waiting := k.waiting ++ [⟨r, op, key, curGen s r⟩] })).keeper.waiting :=
    List.mem_append_right _ (List.mem_singleton.2 rfl)
  refine when_cases (P := fun z => (⟨r, op, key, curGen s r⟩ : Waiting) ∈ z.keeper.waiting) hin ?_
  unfold freeCtx
  rw [(moves_showKeeper (.refl foot_showKeeper _) (within_self _)).part .keeper (by decide +kernel)]
  exact hin

theorem exec_tenantReset {r : CmdReq} {s : State} (hs : Served 0x0203 (targetOf s r) (hasLink s r.iss (s.rd .TN_HL (targetOf s r))) r s)
    (ha : Acts r s) (hlen : r.plen = 0) (hd : s.domOn dHub = true) : exec (.tenantReset r) s = .next (
      if (resetTn (targetOf s r) s).tnState (targetOf s r) = 2 then waitOn r 0x0203 (targetOf s r) (resetTn (targetOf s r) s)
      else finish r 0x0203 0 (tnReply (resetTn (targetOf s r) s) (targetOf s r) 0) (resetTn (targetOf s r) s)) := by
  have hallowed : hasLink s r.iss (s.rd .TN_HL (targetOf s r)) = true := by
    obtain ⟨-, -, -, -, -, -, -, -, -, -, h, -⟩ := hs
    exact h
  exact congrArg Host.Outcome.next (runCmd_served (served_wider hs (b := hasTenantLink s r) (by simp [hasTenantLink, hallowed]))
    (beq_iff_eq.2 hlen) rfl (by simp [hd]) rfl rfl (fun _ => ⟨ha.1, .inl ha.2⟩))

theorem tenant_resetting {r : CmdReq} {s : State} (hs : Served 0x0203 (targetOf s r) (hasLink s r.iss (s.rd .TN_HL (targetOf s r))) r s)
    (ha : Acts r s) (hlen : r.plen = 0) (hd : s.domOn dHub = true) (hst : s.tnState (targetOf s r) = 1) :
    Completes (.tenantReset r) s (fun t => t.rd .TN_STATE (targetOf s r) = 2 ∧
      t.rd .TN_GENERATION (targetOf s r) = (s.rd .TN_GENERATION (targetOf s r) + 1) % 16 ∧
      ∃ w ∈ t.keeper.waiting, w.req = r ∧ w.opcode = 0x0203 ∧ w.key = targetOf s r) := by
  obtain ⟨hstate, hgen⟩ := resetTn_spec (.inl hst)
  rw [if_pos hst] at hstate
  refine ⟨_, (exec_tenantReset hs ha hlen hd).trans (congrArg Host.Outcome.next (if_pos hstate)), ?_⟩
  have hwait := moves_waitOn (r' := r) (op := 0x0203) (key := targetOf s r) (.refl foot_waitOn (resetTn (targetOf s r) s)) (within_self _)
  exact ⟨(hwait.reg .TN_STATE _ 0 (by decide +kernel)).trans hstate, (hwait.reg .TN_GENERATION _ 0 (by decide +kernel)).trans hgen, waitOn_waits ..⟩

theorem tenant_reset_frozen {r : CmdReq} {s : State} (hs : Served 0x0203 (targetOf s r) (hasLink s r.iss (s.rd .TN_HL (targetOf s r))) r s)
    (ha : Acts r s) (hlen : r.plen = 0) (hd : s.domOn dHub = true) (hst : s.tnState (targetOf s r) = 3) :
    Completes (.tenantReset r) s (fun t => ∃ d, Replies r 0x0203 0 d (fun u => u.rd .TN_STATE (targetOf s r) = 3 ∧
      u.rd .TN_GENERATION (targetOf s r) = (s.rd .TN_GENERATION (targetOf s r) + 1) % 16) t) := by
  have hspec := resetTn_spec (.inr hst)
  rw [if_neg (by rw [hst]; decide)] at hspec
  refine ⟨_, (exec_tenantReset hs ha hlen hd).trans (congrArg Host.Outcome.next (if_neg ?_)), _, _, hspec, rfl⟩
  rw [State.tnState, hspec.1]
  decide

/-- What the end of a reset moves. -/
def resetEndFoot : Nat := foot_traceTnState ||| foot_releaseHeld ||| foot_dirChanged ||| foot_finishWaiting

/-- What follows the state at the end of a reset. -/
def resetEnd (n f : Nat) (s : State) : State :=
  dirChanged ((releaseHeld f (traceTnState n 1 2 s)).rd .TN_HL n) (releaseHeld f (traceTnState n 1 2 s))

theorem exec_tenantResetComplete {tn : Tnid} {s : State} (hst : s.tnState tn = 2) : exec (.tenantResetComplete tn) s = .next (
    finishWaiting 0x0203 tn 0 (tnReply (resetEnd tn (s.tnFn tn) (s.wr .TN_STATE 1 tn)) tn 0) (resetEnd tn (s.tnFn tn) (s.wr .TN_STATE 1 tn))) :=
  congrArg Host.Outcome.next (when_of _ s (by simp [hst]))

theorem reset_completes {tn : Tnid} {s : State} (hst : s.tnState tn = 2) :
    Completes (.tenantResetComplete tn) s (fun t => t.rd .TN_STATE tn = 1 ∧ t.rd .TN_GENERATION tn = s.rd .TN_GENERATION tn) := by
  refine ⟨_, exec_tenantResetComplete hst, ?_⟩
  have hend : Moves resetEndFoot (s.wr .TN_STATE 1 tn) (resetEnd tn (s.tnFn tn) (s.wr .TN_STATE 1 tn)) :=
    moves_dirChanged (moves_releaseHeld (moves_traceTnState (.refl _ _) (by unfold Within; decide +kernel)) (by unfold Within; decide +kernel))
      (by unfold Within; decide +kernel)
  have hall := moves_finishWaiting (op := 0x0203) (key := tn) (status := 0) (data := tnReply (resetEnd tn (s.tnFn tn) (s.wr .TN_STATE 1 tn)) tn 0)
    hend (by unfold Within; decide +kernel)
  exact ⟨(hall.reg .TN_STATE tn 0 (by decide +kernel)).trans (rd_wr ..),
    (hall.reg .TN_GENERATION tn 0 (by decide +kernel)).trans (rd_wr_ne s (by rintro ⟨⟨⟩, -⟩))⟩

end Sys2Proof.Proofs
end

section
/-!
The tenant commands and their ends, continued: destroy, query, VF_ALLOT and RUNAHEAD_SET.
-/
namespace Sys2Proof.Proofs
open Sys2Proof Sys2Proof.Machine Sys2Proof.Laws
set_option Elab.async false

/-! ### TENANT_DESTROY and its end -/

/-- What the end of a tenant moves, but for its own block. -/
def freeFoot : Nat := foot_traceTnState ||| foot_showPools ||| foot_dirChanged ||| Part.tens.bit

/-- A tenant that is freed reads its reset values. -/
theorem freeTn_reset {n : Nat} {f : Fld} (hb : f.blk = .tenant) (hf : freeFoot.testBit (fbit f) = false) (s : State) :
    (freeTn n s).rd f n = f.reset n 0 := by
  have hend (h : Nat) (z : State) : Moves freeFoot z (dirChanged h (showPools (z.modTen n (fun _ => TenS.reset)))) :=
    moves_dirChanged (moves_showPools (moves_modTen (.refl _ z) (by unfold Within; decide +kernel)) (by unfold Within; decide +kernel))
      (by unfold Within; decide +kernel)
  unfold freeTn
  extract_lets h s1
  rw [(hend h (s1.resetBlk .tenant n)).reg f n 0 hf]
  exact rd_resetBlk s1 0 hb

/-- What the end of a tenant leaves of the functions. -/
theorem freeTn_bound (n f : Nat) (s : State) : (freeTn n s).rd .DVSEC_TNID f = s.rd .DVSEC_TNID f :=
  (moves_freeTn (.refl foot_freeTn s) (within_self _)).reg .DVSEC_TNID f 0 (by decide +kernel)

/-- What TENANT_DESTROY moves once the tenant is pending. -/
def destroyFoot : Nat := foot_finishWaiting ||| foot_cancelTarget ||| foot_dropLog ||| foot_writeOut ||| foot_writeIn ||| foot_writeInt |||
  foot_writeSheaf ||| foot_takeChan ||| foot_traceTnState

/-- What follows once no VF presents it. -/
def unboundFoot : Nat := foot_dirChange ||| foot_showPools ||| Part.tens.bit ||| fms [.DVSEC_GENERATION, .FI_VEC_COUNT, .TN_PENDING_RES, .TN_FREEZE_SET]

/-- A tenant that is pending, whose VF presents it no longer, stays so or is freed. -/
theorem pending_ends {n f : Nat} {a b c : State} (hpend : Moves destroyFoot (a.wr .TN_STATE 5 n) b)
    (hunbound : Moves unboundFoot (b.wr .DVSEC_TNID 0xFFFF f) c) :
    ((if tnDrained c n then freeTn n c else c).rd .TN_STATE n = 5 ∨ (if tnDrained c n then freeTn n c else c).rd .TN_STATE n = 0) ∧
      (if tnDrained c n then freeTn n c else c).rd .DVSEC_TNID f = 0xFFFF := by
  have hstate : c.rd .TN_STATE n = 5 := by
    rw [hunbound.reg .TN_STATE n 0 (by decide +kernel), rd_wr_ne _ (by rintro ⟨⟨⟩, -⟩), hpend.reg .TN_STATE n 0 (by decide +kernel)]
    exact rd_wr ..
  have hfn : c.rd .DVSEC_TNID f = 0xFFFF := (hunbound.reg .DVSEC_TNID f 0 (by decide +kernel)).trans (rd_wr ..)
  split
  · exact ⟨.inr (freeTn_reset rfl (by decide +kernel) _), (freeTn_bound ..).trans hfn⟩
  · exact ⟨.inl hstate, hfn⟩

theorem destroyTn_spec (n : Nat) (s : State) : ((destroyTn n s).rd .TN_STATE n = 5 ∨ (destroyTn n s).rd .TN_STATE n = 0) ∧
    (destroyTn n s).rd .DVSEC_TNID (s.tnFn n) = 0xFFFF := by
  unfold destroyTn
  extract_lets old f h s1 s2 s3 s4 s5 links s6 s7 s8 shs links2 s9 s10 s11 s12 s13 s14
  have h4 : Moves destroyFoot (s1.wr .TN_STATE 5 n) s4 :=
    moves_each (moves_cancelTarget (moves_finishWaiting (moves_traceTnState (.refl _ _) (by unfold Within; decide +kernel))
      (by unfold Within; decide +kernel)) (by unfold Within; decide +kernel)) fun op z hz => moves_finishWaiting hz (by unfold Within; decide +kernel)
  have h8 : Moves destroyFoot (s1.wr .TN_STATE 5 n) s8 :=
    moves_each (moves_each (moves_each (moves_dropLog h4 (by unfold Within; decide +kernel)) fun i z hz => moves_writeOut hz (by unfold Within; decide +kernel))
      fun i z hz => moves_writeIn hz (by unfold Within; decide +kernel)) fun i z hz => moves_writeInt hz (by unfold Within; decide +kernel)
  have h10 : Moves destroyFoot (s1.wr .TN_STATE 5 n) s10 :=
    moves_each (moves_each h8 fun i z hz => moves_writeSheaf hz (by unfold Within; decide +kernel))
      fun c z hz => moves_takeChan hz (by unfold Within; decide +kernel)
  have h12 : Moves unboundFoot (s10.wr .DVSEC_TNID 0xFFFF f) s12 :=
    moves_wr (moves_wr (moves_wr (moves_wr (.refl _ _) (by unfold Within; decide +kernel)) (by unfold Within; decide +kernel))
      (by unfold Within; decide +kernel)) (by unfold Within; decide +kernel)
  exact pending_ends h10 (moves_dirChange (moves_showPools (moves_modTen h12 (by unfold Within; decide +kernel)) (by unfold Within; decide +kernel))
    (by unfold Within; decide +kernel))

theorem tenant_destroyed {r : CmdReq} {s : State} (hs : Served 0x0204 (targetOf s r) (hasMgr s r.iss) r s) (ht : targetOf s r ≠ 0xFFFF)
    (hlen : r.plen = 0) (hd : s.domOn dHub = true) (hdue : dueFirst s (targetOf s r) = false) :
    Completes (.tenantDestroy r) s (fun t => (t.rd .TN_STATE (targetOf s r) = 5 ∨ t.rd .TN_STATE (targetOf s r) = 0) ∧
      t.rd .DVSEC_TNID (s.tnFn (targetOf s r)) = 0xFFFF) := by
  refine ⟨_, congrArg Host.Outcome.next (runCmd_served hs (beq_iff_eq.2 hlen) rfl (by simp [hd]) rfl rfl
    (fun _ => ⟨ht, .inr (.inl rfl)⟩)), ?_⟩
  obtain ⟨hstate, hfn⟩ := destroyTn_spec (targetOf s r) s
  dsimp only
  rw [if_neg (by rw [hdue]; exact Bool.false_ne_true)]
  generalize destroyTn (targetOf s r) s = u at hstate hfn ⊢
  have hfin (d : Bytes) := moves_finish (r' := r) (op := 0x0204) (status := 0) (data := d) (.refl foot_finish u) (within_self _)
  rw [(hfin _).reg .TN_STATE (targetOf s r) 0 (by decide +kernel), (hfin _).reg .DVSEC_TNID _ 0 (by decide +kernel)]
  exact ⟨hstate, hfn⟩

theorem pending_drained {tn : Tnid} {s : State} (hst : s.tnState tn = 5) (hd : tnDrained s tn = true) :
    Completes (.tenantPendingDrained tn) s (fun t => t.rd .TN_STATE tn = 0 ∧ t.rd .TN_CH_COUNT tn = 0) :=
  ⟨_, congrArg Host.Outcome.next (when_of _ s (by simp [hst, hd])),
    freeTn_reset (f := .TN_STATE) rfl (by decide +kernel) s, freeTn_reset (f := .TN_CH_COUNT) rfl (by decide +kernel) s⟩

/-! ### TENANT_QUERY, VF_ALLOT and RUNAHEAD_SET -/

theorem tenant_queried {r : CmdReq} {s : State} (hs : Served 0x0205 (targetOf s r) (hasTenant s r) r s) (ht : targetOf s r ≠ 0xFFFF)
    (hlen : r.plen = 0) (hd : s.domOn dHub = true) :
    Completes (.tenantQuery r) s (Replies r 0x0205 0 (blkBytes s .tenant (targetOf s r) 1024) (· = s)) :=
  ⟨_, congrArg Host.Outcome.next (runCmd_served hs (beq_iff_eq.2 hlen) rfl (by simp [hd]) rfl rfl (fun _ => ⟨ht, .inr (.inr rfl)⟩)), s, rfl, rfl⟩

/-- The allotment of VFs to a link. -/
def allotVfs (hl b total init : Nat) (c : StoreS) : StoreS :=
  { c with totalVfs := tset 0 c.totalVfs hl total, initialVfs := tset 0 c.initialVfs hl init, vfBar2 := tset 20 c.vfBar2 hl b }

theorem vfs_allotted {r : CmdReq} {hl b total init : Nat} {s : State} (hs : Served 0x0210 (targetOf s r) (hasMgr s r.iss) r s)
    (hlen : r.plen = 8) (hp : s.present hl = true) (hb : 20 ≤ b) (hb' : b ≤ 32) (hi : init ≤ total)
    (hvf : (s.cf (pfIdx hl)).vfEnable = false) (hheld : ∀ n ∈ heldTns s, s.tnState n ≠ 5 → s.rd .TN_HL n = hl → s.rd .TN_VF n ≤ total)
    (hsum : total + ((s.store.totalVfs.filter (fun e => e.1 != hl)).map (·.2)).sum ≤ 256) :
    Completes (.vfAllot r hl b total init) s (Replies r 0x0210 0 [] (fun u => tget 0 u.store.totalVfs hl = total ∧
      tget 0 u.store.initialVfs hl = init ∧ tget 20 u.store.vfBar2 hl = b)) := by
  have hhl : hl < 32 := by
    unfold State.present at hp
    simpa using (Bool.and_eq_true_iff.1 hp).1
  have hfits : (heldTns s).any (fun n => s.tnState n != 5 && s.rd .TN_HL n == hl && decide (total < s.rd .TN_VF n)) = false := by
    rw [List.any_eq_false]
    intro n hn
    have := hheld n hn
    simp only [Bool.and_eq_true, bne_iff_ne, beq_iff_eq, decide_eq_true_eq, not_and, Nat.not_lt]
    exact fun h => this h.1 h.2
  refine ⟨_, congrArg Host.Outcome.next (runCmd_served hs (beq_iff_eq.2 hlen) ?_ rfl ?_ rfl (fun h => nomatch h)),
    dirChanged hl (s.modStore (allotVfs hl b total init)), ?_, rfl⟩
  · simp [hhl, hp, hb, hb', hi]
    omega
  · simp [firstFail, hvf, hfits]
    omega
  · have hstore := (moves_dirChanged (h' := hl) (.refl foot_dirChanged (s.modStore (allotVfs hl b total init))) (within_self _)).part
      .store (by decide +kernel)
    beta_reduce
    rw [show (dirChanged hl (s.modStore (allotVfs hl b total init))).store = allotVfs hl b total init s.store from hstore]
    simp [allotVfs, tget_tset]

theorem runahead_set {r : CmdReq} {region base size : Nat} {s : State} (hs : Served 0x0211 (targetOf s r) (hasTenant s r) r s)
    (ha : Acts r s) (hlen : r.plen = 24) (hreg : region < 16) (hbase : base % 4096 = 0) (hsize : size % 4096 = 0)
    (hend : base + size ≤ 2 ^ 64) (hd : s.domOn dHub = true) :
    Completes (.runaheadSet r region base size) s (Replies r 0x0211 0 [] (fun u =>
      (u.ten (targetOf s r)).regions = (s.ten (targetOf s r)).regions.set region (base, size))) := by
  refine ⟨_, congrArg Host.Outcome.next (runCmd_served hs (beq_iff_eq.2 hlen) ?_ (by simp [hd]) rfl rfl (fun _ => ⟨ha.1, .inl ha.2⟩)),
    _, ?_, rfl⟩
  · simp [page, hreg, hbase, hsize]
    omega
  · beta_reduce
    rw [modTen_ten, if_pos rfl]

/-- Settles O22: each command's own writes stand, since what follows them moves neither the fields of its tenant's image nor its state;
a destroyed tenant is pending, or freed with its block at the reset values. -/
theorem tenantCommands : Obligations.TenantCommands := by
  unfold Obligations.TenantCommands
  exact ⟨fun r p n s hs hlen hp hvf1 hvf hall hw hb hd hfree hst hn hfits =>
      tenant_created hs hlen hp hvf1 hvf hall hw hb hd hfree hst hn hfits,
    fun r p s hs ha hlen hp hd hown => tenant_modified hs ha hlen hp hd hown,
    fun r s hs ha hlen hd hst => tenant_resetting hs ha hlen hd hst,
    fun r s hs ha hlen hd hst => tenant_reset_frozen hs ha hlen hd hst,
    fun tn s hst => reset_completes hst,
    fun r s hs ht hlen hd hdue => tenant_destroyed hs ht hlen hd hdue,
    fun tn s hst hd => pending_drained hst hd,
    fun r s hs ht hlen hd => tenant_queried hs ht hlen hd,
    fun r hl b total init s hs hlen hp hb hb' hi hvf hheld hsum => vfs_allotted hs hlen hp hb hb' hi hvf hheld hsum,
    fun r region base size s hs ha hlen hreg hbase hsize hend hd => runahead_set hs ha hlen hreg hbase hsize hend hd⟩

end Sys2Proof.Proofs
end

section
/-!
Lines that are not FATAL, and what the sender of a link does beside its packets: ACKs and replays (R189, R195).
-/
namespace Sys2Proof.Proofs
open Sys2Proof Sys2Proof.Machine Sys2Proof.Laws
set_option Elab.async false

/-! ### A line whose class is not FATAL -/

/-- What a line moves that puts no reaction in force. -/
def calmWardFoot : Nat := foot_advance ||| foot_noteLatch ||| foot_latchLine ||| foot_driveFaultN ||| foot_aerReport ||| foot_raiseAllPfs |||
  foot_jPut ||| foot_takeCapture ||| fms [.WD_INJ_CNT, .WD_INJ_WORD, .WD_FAULT_WORD] ||| Part.journal.bit

theorem lineClass_kept {m : Nat} {s t : State} (h : Moves m s t) (g l : Nat) (hlo : m.testBit (fbit .WD_CLASS_LO) = false := by decide +kernel)
    (hhi : m.testBit (fbit .WD_CLASS_HI) = false := by decide +kernel) : lineClass t g l = lineClass s g l := by
  unfold lineClass
  rw [h.reg .WD_CLASS_LO 0 g hlo, h.reg .WD_CLASS_HI 0 g hhi]

theorem calm_kept {m : Nat} {s t : State} {n l : Nat} (hc : Calm s n l) (h : Moves m s t)
    (hlo : m.testBit (fbit .WD_CLASS_LO) = false := by decide +kernel) (hhi : m.testBit (fbit .WD_CLASS_HI) = false := by decide +kernel) :
    Calm t n l := by
  obtain ⟨hline, hlost⟩ := hc
  exact ⟨by rwa [lineClass_kept h _ _ hlo hhi], by rwa [lineClass_kept h _ _ hlo hhi]⟩

/-- Neither an event of such a line nor the lost record that it may leave halts anything. -/
theorem wardFuel_calm (fuel : Nat) {inj : Bool} {e : WEv} {s : State} (he : lineClass s e.group e.line ≠ 2) (hlost : lineClass s 13 1 ≠ 2) :
    Moves calmWardFoot s (wardFuel fuel inj e s) := by
  induction fuel generalizing inj e s with
  | zero => exact .refl _ s
  | succ fuel ih =>
    unfold wardFuel
    extract_lets s0 stamp era cls fresh latches s1 s2 s3 s4 s5 rec_ lost s6
    have h0 : Moves calmWardFoot s s0 := moves_advance (.refl _ s) (by unfold Within; decide +kernel)
    have hcls : cls ≠ 2 := by
      show lineClass s0 e.group e.line ≠ 2
      rw [lineClass_kept h0]
      exact he
    have h1 : Moves calmWardFoot s s1 := moves_when h0 fun z hz =>
      moves_inc (moves_setB hz (by unfold Within; decide +kernel)) (by unfold Within; decide +kernel)
    have h2 : Moves calmWardFoot s s2 := moves_when h1 fun z hz =>
      moves_latchLine (moves_noteLatch hz (by unfold Within; decide +kernel)) (by unfold Within; decide +kernel)
    have h3 : Moves calmWardFoot s s3 := by
      rw [show s3 = s2 from when_of_not _ _ (by simp [hcls])]
      exact h2
    have h4 : Moves calmWardFoot s s4 := moves_when h3 fun z hz => moves_aerReport hz (by unfold Within; decide +kernel)
    have h5 : Moves calmWardFoot s s5 := moves_raiseAllPfs h4 (by unfold Within; decide +kernel)
    have h6 : Moves calmWardFoot s s6 := moves_when h5 fun z hz => moves_jPut hz (by unfold Within; decide +kernel)
    refine when_cases (P := Moves calmWardFoot s) h6 (h6.trans (ih ?_ ?_)) <;> rw [lineClass_kept h6] <;> exact hlost

/-- A real event that takes the place of an injected one halts nothing. -/
theorem realOver_calm (e : WEv) (l : Latched) {r s : State} (h : Moves calmWardFoot r s) : Moves calmWardFoot r (realOver e l s) := by
  unfold realOver
  extract_lets cls s1 s2 b its
  have h1 : Moves calmWardFoot r s1 := moves_when h fun z hz => moves_clrB (f := .WD_FAULT_WORD) hz (by unfold Within; decide +kernel)
  have h2 : Moves calmWardFoot r s2 := moves_when h1 fun z hz => moves_takeCapture hz (by unfold Within; decide +kernel)
  exact moves_modJournal h2 (by unfold Within; decide +kernel)

theorem linkLine_calm {n l : Nat} {s : State} (h : Calm s n l) : Moves calmWardFoot s (linkLine l n s) := by
  obtain ⟨hline, hlost⟩ := h
  have hfuel (z : State) (hz : Moves calmWardFoot s z) (inj : Bool) (acc addr : Nat) :
      Moves calmWardFoot s (wardFuel 3 inj ⟨wlTiller n, l, mWl n, acc, 0, addr⟩ z) :=
    hz.trans (wardFuel_calm 3 (by rw [lineClass_kept hz]; exact hline) (by rw [lineClass_kept hz]; exact hlost))
  unfold linkLine ward wardEvent
  split
  next last hsame =>
    refine moves_choose (.refl _ s) fun b z hz => ?_
    split
    · exact realOver_calm _ _ hz
    · exact hfuel z hz ..
  next => exact hfuel s (.refl _ s) ..

/-! ### ACKs -/

/-- A grain goes out with its fields, whatever is injected in its payload. -/
theorem emitGrain_sent (n : Nat) (inject : Bool) (g : Grain) (s : State) : ∃ g' ls, (emitGrain n inject g s).out = s.out ++ [.grain n g' ls] ∧
    g'.typ = g.typ ∧ g'.ackV = g.ackV ∧ g'.ack = g.ack := by
  have hlane (idle k : Nat) (sg : State × Grain) : (injectLane n idle k sg).1.out = sg.1.out ∧ (injectLane n idle k sg).2.typ = sg.2.typ ∧
      (injectLane n idle k sg).2.ackV = sg.2.ackV ∧ (injectLane n idle k sg).2.ack = sg.2.ack := by
    unfold injectLane
    dsimp only
    split
    · exact ⟨rfl, rfl, rfl, rfl⟩
    split
    · split <;> exact ⟨rfl, rfl, rfl, rfl⟩
    · exact ⟨rfl, rfl, rfl, rfl⟩
  have hlanes (idle : Nat) (l : List Nat) (sg : State × Grain) : (l.foldl (fun sg k => injectLane n idle k sg) sg).1.out = sg.1.out ∧
      (l.foldl (fun sg k => injectLane n idle k sg) sg).2.typ = sg.2.typ ∧
      (l.foldl (fun sg k => injectLane n idle k sg) sg).2.ackV = sg.2.ackV ∧
      (l.foldl (fun sg k => injectLane n idle k sg) sg).2.ack = sg.2.ack := by
    induction l generalizing sg with
    | nil => exact ⟨rfl, rfl, rfl, rfl⟩
    | cons k l ih =>
      obtain ⟨ho, ht, hv, ha⟩ := ih (injectLane n idle k sg)
      obtain ⟨ho', ht', hv', ha'⟩ := hlane idle k sg
      exact ⟨ho.trans ho', ht.trans ht', hv.trans hv', ha.trans ha'⟩
  unfold emitGrain draw
  dsimp only
  split
  · obtain ⟨ho, ht, hv, ha⟩ := hlanes (Config.freeValue s.free) (List.range 4) ({ s with free := s.free + 1 }, g)
    exact ⟨_, _, congrArg (· ++ [_]) ho, ht, hv, ha⟩
  · exact ⟨_, _, rfl, rfl, rfl, rfl⟩

theorem ack_sent {wl : Wl} {s : State} (hpass : grainsPass s wl = true) (hup : s.rd .WL_LSTATE wl = 2) (hpend : 0 < (s.wl wl).ackPending)
    (hhalf : (s.wl wl).txHalf = none) :
    Completes (.ackSend wl) s (fun t => (t.wl wl).ackPending = 0 ∧ t.rd .WL_NEXT_TX wl = s.rd .WL_NEXT_TX wl ∧
      ∃ g ls, t.out = s.out ++ [.grain wl g ls] ∧ g.typ = 0 ∧ g.ackV = (s.wl wl).accAny ∧
        ((s.wl wl).accAny = true → g.ack = (s.rd .WL_NEXT_RX wl + 4095) % 4096)) := by
  have hsend : sendAck wl s = emitGrain wl true (newGrain s wl 0 0 0 0 (zeros 64)) s := by
    unfold sendAck flushHalf
    rw [hhalf]
    exact if_pos hpend
  refine ⟨_, congrArg Host.Outcome.next ((when_of _ s (by simp [hpass, hup, hpend])).trans hsend), ?_, ?_, ?_⟩
  · rw [State.wl, emitGrain_wls, ← State.wl, modWl_wl, if_pos rfl]
  · exact (moves_emitGrain (.refl foot_emitGrain s) (within_self _)).reg .WL_NEXT_TX wl 0 (by decide +kernel)
  · obtain ⟨g, ls, hout, ht, hv, ha⟩ := emitGrain_sent wl true (newGrain s wl 0 0 0 0 (zeros 64)) s
    exact ⟨g, ls, hout, ht, hv, fun hacc => ha.trans (if_pos hacc)⟩

/-! ### A link that goes down, and its lanes that start again -/

theorem linkLine_rd (l n : Nat) (s : State) {f : Fld} (hf : foot_linkLine.testBit (fbit f) = false) (i j : Nat) :
    (linkLine l n s).rd f i j = s.rd f i j := (moves_linkLine (.refl foot_linkLine s) (within_self _)).reg f i j hf

/-- What follows the notice that a link is down moves neither it nor its count. -/
theorem declareDown_spec (n : Nat) (s : State) : (declareDown n s).rd .WL_DOWN n = 1 ∧
    (declareDown n s).rd .WL_DOWN_CNT n = (s.rd .WL_DOWN_CNT n + 1) % 2 ^ 64 := by
  unfold declareDown
  extract_lets s1 s2 hold s3 s4
  have hbefore : s3.rd .WL_DOWN_CNT n = s.rd .WL_DOWN_CNT n := by
    refine (rd_wr_ne _ (by rintro ⟨⟨⟩, -⟩)).trans ((rd_wr_ne _ (by rintro ⟨⟨⟩, -⟩)).trans ?_)
    exact (moves_trace (moves_dropReshape (n := n) (.refl (foot_dropReshape ||| foot_trace) s) (by unfold Within; decide +kernel))
      (by unfold Within; decide +kernel)).reg .WL_DOWN_CNT n 0 (by decide +kernel)
  have hend (f : Fld) (hf : (foot_linkLine ||| foot_flushLink).testBit (fbit f) = false) :
      (when (!hold && !s4.react) (flushLink n true) s4).rd f n = ((s3.wr .WL_DOWN 1 n).inc .WL_DOWN_CNT n).rd f n :=
    (moves_when (moves_linkLine (line := 4) (n := n) (.refl (foot_linkLine ||| foot_flushLink) _) (by unfold Within; decide +kernel))
      fun z hz => moves_flushLink hz (by unfold Within; decide +kernel)).reg f n 0 hf
  clear_value s3
  constructor
  · rw [hend _ (by decide +kernel)]
    exact (rd_wr_ne _ (by rintro ⟨⟨⟩, -⟩)).trans (rd_wr ..)
  · rw [hend _ (by decide +kernel)]
    exact (rd_wr ..).trans (congrArg (fun v => (v + 1) % 2 ^ 64) ((rd_wr_ne _ (by rintro ⟨⟨⟩, -⟩)).trans hbefore))

theorem clearTraining_state (n st : Nat) (s : State) : (clearTraining n st s).rd .WP_STATE n = st % 2 ^ Fld.WP_STATE.width := by
  unfold clearTraining
  rw [rd_wr_ne _ (by rintro ⟨⟨⟩, -⟩), rd_wr_ne _ (by rintro ⟨⟨⟩, -⟩), rd_wr_ne _ (by rintro ⟨⟨⟩, -⟩), rd_wr_ne _ (by rintro ⟨⟨⟩, -⟩),
    rd_wr_ne _ (by rintro ⟨⟨⟩, -⟩)]
  exact rd_wr ..

theorem setLanes_state (n k : Nat) (f : Nat → Nat) (s : State) : (setLanes n f s).rd .WP_STATE k = s.rd .WP_STATE k :=
  (moves_setLanes (.refl foot_setLanes s) (within_self _)).reg .WP_STATE k 0 (by decide +kernel)

theorem enterDetect_state (n : Nat) (s : State) : (enterDetect n s).rd .WP_STATE n = 1 := by
  unfold enterDetect
  dsimp only
  rw [(moves_showSelftest (.refl foot_showSelftest _) (within_self _)).reg .WP_STATE n 0 (by decide +kernel),
    (moves_sendTs1 (.refl foot_sendTs1 _) (within_self _)).reg .WP_STATE n 0 (by decide +kernel), shown, rd_showTx, setLanes_state, modWp_rd]
  exact clearTraining_state ..

theorem enterDisabled_state (n : Nat) (s : State) : (enterDisabled n s).rd .WP_STATE n = 0 := by
  unfold enterDisabled
  rw [(moves_showSelftest (.refl foot_showSelftest _) (within_self _)).reg .WP_STATE n 0 (by decide +kernel), shown, rd_showTx, setLanes_state,
    modWp_rd, rd_wr_ne _ (by rintro ⟨⟨⟩, -⟩)]
  exact clearTraining_state ..

/-- Lanes that start again are in DETECT where the link may train, and else DISABLED. -/
theorem restartPhy_state (n : Nat) (s : State) : (restartPhy n s).rd .WP_STATE n = if phyCan s n then 1 else 0 := by
  unfold restartPhy
  split
  · exact enterDetect_state n s
  · exact enterDisabled_state n s

theorem restartPhy_rd (n : Nat) (s : State) {f : Fld} (hf : foot_restartPhy.testBit (fbit f) = false) (i j : Nat) :
    (restartPhy n s).rd f i j = s.rd f i j := (moves_restartPhy (.refl foot_restartPhy s) (within_self _)).reg f i j hf

/-- The registers that decide whether lanes may train. -/
def phyFlds : List Fld := [.PW_STATE, .PW_PAD_HOLD, .WP_DISABLE, .PW_BANK_LOST_LO, .PW_BANK_LOST_HI]

theorem phyCan_kept {m : Nat} {s t : State} (h : Moves m s t) (n : Nat)
    (hm : phyFlds.all (fun f => !m.testBit (fbit f)) = true := by decide +kernel) : phyCan t n = phyCan s n := by
  have hrd : ∀ f ∈ phyFlds, ∀ i j, t.rd f i j = s.rd f i j := fun f hf i j => h.reg f i j (by simpa using List.all_eq_true.1 hm f hf)
  simp (disch := decide) only [phyCan, State.domOn, State.on, bankLost, State.bit, hrd]

/-! ### Replays -/

/-- A replay is counted and noted. -/
def notedReplay (n : Nat) (s : State) : State :=
  ((trace 2 n 0x0101 ((countReplay n s).rd .WL_OLDEST n) (countReplay n s)).wr .WL_REPLAY 1 n).inc .WL_REPLAY_CNT n

theorem replayExpires_again {n : Nat} {s : State} (hsome : (s.wl n).replay ≠ []) (hlt : s.rd .WL_REPLAY_COUNT n < s.rd .WL_REPLAY_LIMIT n) :
    replayExpires n s = when ((linkLine 2 n (notedReplay n s)).rd .WL_LSTATE n == 2) (replayAll n) (linkLine 2 n (notedReplay n s)) := by
  have hcount : (countReplay n s).wls = s.wls := by
    unfold countReplay
    split <;> rfl
  unfold replayExpires startReplay
  rw [if_pos hlt, wl_of_wls hcount, if_neg (by simpa using hsome)]
  rfl

/-- What noting a replay moves. -/
def notedFoot : Nat := foot_countReplay ||| foot_trace ||| fms [.WL_REPLAY, .WL_REPLAY_CNT]

theorem moves_notedReplay (n : Nat) (s : State) : Moves notedFoot s (notedReplay n s) :=
  moves_inc (f := .WL_REPLAY_CNT) (moves_wr (f := .WL_REPLAY) (moves_trace (moves_countReplay (.refl _ s) (by unfold Within; decide +kernel))
    (by unfold Within; decide +kernel)) (by unfold Within; decide +kernel)) (by unfold Within; decide +kernel)

theorem notedReplay_spec {n : Nat} {s : State} (hsome : (s.wl n).replay ≠ []) :
    (notedReplay n s).rd .WL_REPLAY_COUNT n = sat 4 (s.rd .WL_REPLAY_COUNT n + 1) % 2 ^ 4 ∧
      (notedReplay n s).rd .WL_REPLAY_CNT n = (s.rd .WL_REPLAY_CNT n + 1) % 2 ^ 64 ∧
      (notedReplay n s).rd .WL_LSTATE n = s.rd .WL_LSTATE n ∧ (notedReplay n s).wls = s.wls := by
  have hcount : countReplay n s = s.wr .WL_REPLAY_COUNT (sat 4 (s.rd .WL_REPLAY_COUNT n + 1)) n := if_neg (by simpa using hsome)
  have htrace (z : State) := moves_trace (kind := 2) (id := n) (code := 0x0101) (arg := z.rd .WL_OLDEST n) (.refl foot_trace z) (within_self _)
  have htail (z : State) (f : Fld) (h1 : f ≠ .WL_REPLAY) (h2 : f ≠ .WL_REPLAY_CNT) :
      ((z.wr .WL_REPLAY 1 n).inc .WL_REPLAY_CNT n).rd f n = z.rd f n :=
    (rd_wr_ne _ fun e => h2 e.1).trans (rd_wr_ne _ fun e => h1 e.1)
  unfold notedReplay
  rw [hcount]
  refine ⟨?_, ?_, ?_, ?_⟩
  · rw [htail _ .WL_REPLAY_COUNT nofun nofun, (htrace _).reg .WL_REPLAY_COUNT n 0 (by decide +kernel)]
    exact rd_wr ..
  · refine (rd_wr ..).trans (congrArg (fun v => (v + 1) % 2 ^ 64) ?_)
    rw [rd_wr_ne _ (by rintro ⟨⟨⟩, -⟩), (htrace _).reg .WL_REPLAY_CNT n 0 (by decide +kernel), rd_wr_ne _ (by rintro ⟨⟨⟩, -⟩)]
  · rw [htail _ .WL_LSTATE nofun nofun, (htrace _).reg .WL_LSTATE n 0 (by decide +kernel), rd_wr_ne _ (by rintro ⟨⟨⟩, -⟩)]
  · exact (htrace _).part .wls (by decide +kernel)

section
variable {wl : Wl} {s : State} (hup : s.rd .WL_LSTATE wl = 2) (hon : s.tlOn (wlTiller wl) = true) (hsome : (s.wl wl).replay ≠ [])
include hup hon hsome

theorem exec_replayTimeout : exec (.replayTimeout wl) s = .next (replayExpires wl s) :=
  congrArg Host.Outcome.next (when_of _ s (by simp [hup, hon, hsome]))

theorem replay_again (hlt : s.rd .WL_REPLAY_COUNT wl < s.rd .WL_REPLAY_LIMIT wl) (hw : s.rd .WL_REPLAY_LIMIT wl < 2 ^ Fld.WL_REPLAY_COUNT.width) :
    Completes (.replayTimeout wl) s (fun t => t.rd .WL_REPLAY_COUNT wl = s.rd .WL_REPLAY_COUNT wl + 1 ∧
      t.rd .WL_REPLAY_CNT wl = (s.rd .WL_REPLAY_CNT wl + 1) % 2 ^ 64 ∧
      (Calm s wl 2 → ∃ u, t = replayAll wl u ∧ (u.wl wl).replay = (s.wl wl).replay)) := by
  obtain ⟨hcount, hcnt, hstate, hwls⟩ := notedReplay_spec hsome
  have hend (f : Fld) (hf : (foot_linkLine ||| foot_replayAll).testBit (fbit f) = false) :
      (when ((linkLine 2 wl (notedReplay wl s)).rd .WL_LSTATE wl == 2) (replayAll wl) (linkLine 2 wl (notedReplay wl s))).rd f wl =
        (notedReplay wl s).rd f wl :=
    (moves_when (moves_linkLine (.refl (foot_linkLine ||| foot_replayAll) _) (by unfold Within; decide +kernel))
      fun z hz => moves_replayAll hz (by unfold Within; decide +kernel)).reg f wl 0 hf
  refine ⟨_, (exec_replayTimeout hup hon hsome).trans (congrArg Host.Outcome.next (replayExpires_again hsome hlt)), ?_, ?_, fun hcalm => ?_⟩
  · rw [hend _ (by decide +kernel), hcount]
    have hfit : s.rd .WL_REPLAY_LIMIT wl < 16 := hw
    unfold sat
    omega
  · rw [hend _ (by decide +kernel), hcnt]
  · have hline := linkLine_calm (calm_kept hcalm (moves_notedReplay wl s))
    have hstill : (linkLine 2 wl (notedReplay wl s)).rd .WL_LSTATE wl = 2 := by
      rw [hline.reg .WL_LSTATE wl 0 (by decide +kernel), hstate, hup]
    refine ⟨_, when_of _ _ (by simp [hstill]), ?_⟩
    rw [wl_of_wls (hline.part .wls (by decide +kernel)), wl_of_wls hwls]

/-- A link whose replay limit is reached asks for a retrain. -/
def asksRetrain (n : Nat) (s : State) : State := (s.modWl n (fun w => { w with replayRetrained := true })).wr .WL_RETRAIN_REQ 1 n

theorem replay_retrains (hge : s.rd .WL_REPLAY_LIMIT wl ≤ s.rd .WL_REPLAY_COUNT wl) (hnot : (s.wl wl).replayRetrained = false)
    (hst : s.rd .WP_STATE wl = 5) :
    Completes (.replayTimeout wl) s (fun t => t.rd .WL_RETRAIN_REQ wl = 1 ∧ (Calm s wl 3 → t.rd .WP_STATE wl = 6)) := by
  have hexp : replayExpires wl s = when ((linkLine 3 wl (asksRetrain wl s)).rd .WL_LSTATE wl == 2) (enterRetrain wl) (linkLine 3 wl (asksRetrain wl s)) :=
    (if_neg (Nat.not_lt.2 hge)).trans (if_neg (by simp [hnot]))
  have hasks (f : Fld) (hf : f ≠ .WL_RETRAIN_REQ) (i j : Nat) : (asksRetrain wl s).rd f i j = s.rd f i j := rd_wr_ne _ fun e => hf e.1
  refine ⟨_, (exec_replayTimeout hup hon hsome).trans (congrArg Host.Outcome.next hexp), ?_, fun hcalm => ?_⟩
  · have hend := (moves_when (c := (linkLine 3 wl (asksRetrain wl s)).rd .WL_LSTATE wl == 2)
      (moves_linkLine (line := 3) (n := wl) (.refl (foot_linkLine ||| foot_enterRetrain) (asksRetrain wl s)) (by unfold Within; decide +kernel))
      fun z hz => moves_enterRetrain (n := wl) hz (by unfold Within; decide +kernel)).reg .WL_RETRAIN_REQ wl 0 (by decide +kernel)
    exact hend.trans (rd_wr ..)
  · have hcalm' : Calm (asksRetrain wl s) wl 3 := by
      obtain ⟨hline, hlost⟩ := hcalm
      unfold Calm lineClass at *
      simp only [hasks _ (nofun : Fld.WD_CLASS_LO ≠ .WL_RETRAIN_REQ), hasks _ (nofun : Fld.WD_CLASS_HI ≠ .WL_RETRAIN_REQ)]
      exact ⟨hline, hlost⟩
    have hline := linkLine_calm hcalm'
    rw [when_of _ _ (by rw [hline.reg .WL_LSTATE wl 0 (by decide +kernel), hasks .WL_LSTATE nofun, hup]; rfl)]
    exact enterRetrain_state (by rw [hline.reg .WP_STATE wl 0 (by decide +kernel), hasks .WP_STATE nofun, hst])

theorem replay_gives_up (hge : s.rd .WL_REPLAY_LIMIT wl ≤ s.rd .WL_REPLAY_COUNT wl) (hdone : (s.wl wl).replayRetrained = true) :
    Completes (.replayTimeout wl) s (fun t => t.rd .WL_DOWN wl = 1 ∧ t.rd .WL_DOWN_CNT wl = (s.rd .WL_DOWN_CNT wl + 1) % 2 ^ 64 ∧
      t.rd .WP_STATE wl = if phyCan s wl then 1 else 0) := by
  have hexp : replayExpires wl s = restartPhy wl (declareDown wl s) := (if_neg (Nat.not_lt.2 hge)).trans (if_pos hdone)
  obtain ⟨hdown, hcnt⟩ := declareDown_spec wl s
  have hmoves := moves_declareDown (n := wl) (.refl foot_declareDown s) (within_self _)
  refine ⟨_, (exec_replayTimeout hup hon hsome).trans (congrArg Host.Outcome.next hexp), ?_, ?_, ?_⟩
  · rw [restartPhy_rd _ _ (by decide +kernel), hdown]
  · rw [restartPhy_rd _ _ (by decide +kernel), hcnt]
  · rw [restartPhy_state, phyCan_kept hmoves]

end

/-- What a replay sends. -/
theorem replayAll_sends (n : Nat) (s : State) : ∃ gs : List (Grain × List (Nat × Bytes)),
    (replayAll n s).out = s.out ++ gs.map (fun g => Out.grain n g.1 g.2) ∧
    gs.map (fun g => (g.1.typ, g.1.seq, g.1.payload)) = (s.wl n).replay.map (fun g => (g.typ, g.seq, g.payload)) ∧
    (replayAll n s).regs = s.regs := by
  obtain ⟨gs, hout, hgs⟩ := each_emitGrain_out n (s.wl n).replay s
  refine ⟨gs, hout, ?_, ?_⟩
  · have hsent := congrArg (List.map (fun g : Grain => (g.typ, g.seq, g.payload))) hgs
    rw [List.map_map, List.map_map] at hsent
    exact hsent
  · exact each_induct (P := fun z => z.regs = s.regs) _ rfl fun g z hz => hz

end Sys2Proof.Proofs
end

section
/-!
What the channels of the DMA engine leave of a link: its replay buffer, the half grain that waits, and what its lanes trained
with.
-/
namespace Sys2Proof.Proofs
open Sys2Proof Sys2Proof.Machine Sys2Proof.Laws
set_option Elab.async false

/-- The replay buffer of a link and the half grain that waits. -/
def sender (w : WlS) : List TxGrain × Option TxGrain := (w.replay, w.txHalf)

/-- Every link keeps what its lanes trained with. -/
structure TrainKept (s t : State) : Prop where
  trains : ∀ k, trained (t.wp k) = trained (s.wp k)

section
variable {r s t : State}

theorem wp_of_wps (h : t.wps = s.wps) (n : Nat) : t.wp n = s.wp n := by rw [State.wp, h, State.wp]

theorem TrainKept.of_wps (h : t.wps = s.wps) : TrainKept s t := ⟨fun k => by rw [wp_of_wps h]⟩

theorem SetsKept.train (h : SetsKept s t) : TrainKept s t := ⟨fun k => congrArg Prod.fst (h k)⟩

theorem TrainKept.refl (s : State) : TrainKept s s := ⟨fun _ => rfl⟩

theorem TrainKept.trans (h : TrainKept r s) (h' : TrainKept s t) : TrainKept r t := ⟨fun k => (h'.trains k).trans (h.trains k)⟩

theorem TrainKept.after (h' : TrainKept s t) (h : s.wps = r.wps) : TrainKept r t := (TrainKept.of_wps h).trans h'

theorem TrainKept.of_moves {m : Nat} (h : Moves m s t) (hm : m.testBit Part.wps.ctorIdx = false := by decide +kernel) : TrainKept s t :=
  .of_wps (h.part .wps hm)

theorem TrainKept.when {c : Bool} {f : State → State} (hf : TrainKept s (f s)) : TrainKept s (when c f s) :=
  when_cases (P := TrainKept s) (.refl s) hf

theorem TrainKept.each {α : Type} {l : List α} {f : α → State → State} (hf : ∀ a z, TrainKept z (f a z)) (s : State) :
    TrainKept s (each l f s) := each_induct (P := TrainKept s) l (.refl s) fun a z hz => hz.trans (hf a z)

theorem TrainKept.modWp {n : Nat} {g : WpS → WpS} (hg : ∀ w, trained (g w) = trained w) (s : State) : TrainKept s (s.modWp n g) := by
  refine ⟨fun k => ?_⟩
  rw [modWp_wp]
  split
  next h => rw [hg, h]
  next => rfl

/-- A grain takes its slot. -/
theorem trainKept_sendSlot (n k : Nat) (g : Grain) (s : State) : TrainKept s (sendSlot n k g s) :=
  (TrainKept.modWp (n := n) (g := fun w => { w with txSlot := (s.wp n).txSlot + k + 1 }) (fun _ => by rfl) s).trans (.of_wps rfl)

theorem trainKept_sendHalt (n : Nat) (s : State) : TrainKept s (sendHalt n s) :=
  (trainKept_sendSlot n _ _ { s with free := s.free + 1 }).after rfl

end

/-- Every link's sender, and what its lanes trained with, is as it was. -/
structure LinkKept (s t : State) : Prop extends TrainKept s t where
  keeps : ∀ k, sender (t.wl k) = sender (s.wl k)

section
variable {r s t : State}

theorem LinkKept.of_parts (hl : t.wls = s.wls) (hp : t.wps = s.wps) : LinkKept s t := ⟨.of_wps hp, fun k => by rw [wl_of_wls hl]⟩

theorem LinkKept.refl (s : State) : LinkKept s s := .of_parts rfl rfl

theorem LinkKept.trans (h : LinkKept r s) (h' : LinkKept s t) : LinkKept r t :=
  ⟨h.toTrainKept.trans h'.toTrainKept, fun k => (h'.keeps k).trans (h.keeps k)⟩

theorem LinkKept.after (h' : LinkKept s t) (hl : s.wls = r.wls) (hp : s.wps = r.wps) : LinkKept r t := (LinkKept.of_parts hl hp).trans h'

theorem LinkKept.of_moves {m : Nat} (h : Moves m s t) (hl : m.testBit Part.wls.ctorIdx = false := by decide +kernel)
    (hp : m.testBit Part.wps.ctorIdx = false := by decide +kernel) : LinkKept s t := .of_parts (h.part .wls hl) (h.part .wps hp)

theorem LinkKept.enqueueHost {x : HReq} (h : LinkKept r s) : LinkKept r (enqueueHost x s) := ⟨⟨h.trains⟩, h.keeps⟩

theorem LinkKept.when {c : Bool} {f : State → State} (hf : LinkKept s (f s)) : LinkKept s (when c f s) :=
  when_cases (P := LinkKept s) (.refl s) hf

theorem LinkKept.each {α : Type} {l : List α} {f : α → State → State} (hf : ∀ a z, LinkKept z (f a z)) (s : State) :
    LinkKept s (each l f s) := each_induct (P := LinkKept s) l (.refl s) fun a z hz => hz.trans (hf a z)

theorem LinkKept.modWl {n : Nat} {g : WlS → WlS} (hg : ∀ w, sender (g w) = sender w) (s : State) : LinkKept s (s.modWl n g) := by
  refine ⟨.of_wps rfl, fun k => ?_⟩
  rw [modWl_wl]
  split
  next h => rw [hg, h]
  next => rfl

theorem LinkKept.mapWls {g : Nat → WlS → WlS} (hg : ∀ n w, sender (g n w) = sender w) (s : State) : LinkKept s (s.mapWls g) := by
  refine ⟨.of_wps rfl, fun k => ?_⟩
  unfold State.wl State.mapWls
  induction s.wls with
  | nil => rfl
  | cons e l ih =>
    simp only [List.map_cons, tget]
    split
    · exact hg _ _
    · exact ih

end

/-! ### What is dropped and what is queued -/

theorem linkKept_dropDescWaiting (c : Nat) (ids : List Nat) (s : State) : LinkKept s (dropDescWaiting c ids s) := by
  unfold dropDescWaiting
  exact LinkKept.after (.mapWls (fun _ _ => by rfl) _) rfl rfl

theorem linkKept_dropChanWaiting (c : Nat) (s : State) : LinkKept s (dropChanWaiting c s) := by
  unfold dropChanWaiting
  exact LinkKept.after (.mapWls (fun _ _ => by rfl) _) rfl rfl

theorem linkKept_chPkt (s : State) (c sp : Nat) (p : Pkt) (src : WSrc) (charge : Nat) (t : State) : LinkKept t (chPkt s c sp p src charge t) := by
  unfold chPkt enqueueLink
  exact .modWl (fun _ => by rfl) t

/-! ### Halts -/

theorem linkKept_haltCore (c code : Nat) (b : BadReq) (s : State) : LinkKept s (haltCore c code b s) := by
  unfold haltCore
  extract_lets st hard tn s1 s2 s3 s4 s5 s6 s7
  split
  · have h4 : LinkKept s s4 := LinkKept.trans (s := s3) (.of_parts rfl rfl) (.when (linkKept_dropChanWaiting c s3))
    have h6 : LinkKept s s6 := LinkKept.trans (s := s5) (h4.trans (.of_parts rfl rfl)) (.of_moves (moves_trace (.refl foot_trace s5) (within_self _)))
    exact h6.trans (.when (.of_moves (moves_raiseVec (.refl foot_raiseVec s6) (within_self _))))
  split
  · exact LinkKept.trans ((linkKept_dropChanWaiting ..).after rfl rfl) (.of_parts rfl rfl)
  · exact .refl s

theorem linkKept_forceReaction (inj : Bool) (s : State) : LinkKept s (forceReaction inj s) := by
  unfold forceReaction
  split
  · exact .refl s
  · extract_lets s1 s2 s3 s4 s5 s6
    have h2 : LinkKept s s2 := LinkKept.trans (s := s1) (.of_parts rfl rfl) (.of_moves (moves_blockWrites (.refl foot_blockWrites s1) (within_self _)))
    have h3 : LinkKept s s3 := h2.trans (.each (fun n z => LinkKept.trans (s := (z.wr .WL_LSTATE 6 n).wr .WL_GRACE_RUN 0 n) (.of_parts rfl rfl)
      (.when ⟨trainKept_sendHalt n _, fun _ => rfl⟩)) s2)
    have h4 : LinkKept s s4 := h3.trans (.of_moves (moves_driveFaultN (.refl foot_driveFaultN s3) (within_self _)))
    have h5 : LinkKept s s5 := h4.trans (.each (f := fun c => haltCore c 0x0D noReq) (fun c z => linkKept_haltCore c 0x0D noReq z) s4)
    have h6 : LinkKept s s6 := h5.trans (.of_moves (moves_pauseStream (.refl foot_pauseStream s5) (within_self _)))
    exact h6.trans (.of_moves (moves_jPut (.refl foot_jPut s6) (within_self _)))

theorem linkKept_wardFuel (fuel : Nat) (inj : Bool) (e : WEv) (s : State) : LinkKept s (wardFuel fuel inj e s) := by
  induction fuel generalizing inj e s with
  | zero => exact .refl s
  | succ fuel ih =>
    unfold wardFuel
    extract_lets s0 stamp era cls fresh latches s1 s2 s3 s4 s5 rec_ lost s6
    have h2 : Moves calmWardFoot s s2 :=
      moves_when (moves_when (moves_advance (.refl _ s) (by unfold Within; decide +kernel)) fun z hz =>
        moves_inc (f := .WD_INJ_CNT) (moves_setB (f := .WD_INJ_WORD) hz (by unfold Within; decide +kernel)) (by unfold Within; decide +kernel))
        fun z hz => moves_latchLine (moves_noteLatch hz (by unfold Within; decide +kernel)) (by unfold Within; decide +kernel)
    have h3 : LinkKept s s3 := by
      refine (LinkKept.of_moves h2).trans (.when ?_)
      split
      · exact .when (.of_moves (moves_driveFaultN (.refl foot_driveFaultN s2) (within_self _)))
      · exact linkKept_forceReaction inj s2
    have h6 : Moves calmWardFoot s3 s6 :=
      moves_when (moves_raiseAllPfs (moves_when (.refl _ s3) fun z hz => moves_aerReport hz (by unfold Within; decide +kernel))
        (by unfold Within; decide +kernel)) fun z hz => moves_jPut hz (by unfold Within; decide +kernel)
    exact (h3.trans (.of_moves h6)).trans (.when (ih ..))

theorem linkKept_wardDetail (g l : Nat) (m : Master) (access detail addr : Nat) (s : State) :
    LinkKept s (wardDetail g l m access detail addr s) := by
  unfold wardDetail wardEvent
  split
  next last hsame =>
    unfold choose
    dsimp only
    split
    · exact .of_moves (m := calmWardFoot) (realOver_calm _ _ (moves_count (.refl _ s) (Nat.le_succ _)))
    · exact (linkKept_wardFuel ..).after rfl rfl
  next => exact linkKept_wardFuel ..

theorem linkKept_haltChannel (c code : Nat) (b : BadReq) (s : State) : LinkKept s (haltChannel c code b s) :=
  (linkKept_haltCore c code b s).trans (.when (linkKept_wardDetail ..))

theorem linkKept_haltAt (c : Nat) (id : Option Nat) (code : Nat) (b : BadReq) (s : State) : LinkKept s (haltAt c id code b s) := by
  unfold haltAt
  extract_lets ds gone s1 s2 s3 s4
  have h3 : LinkKept s s3 := (linkKept_dropDescWaiting c (gone.map (fun d => d.id)) s).trans (.of_parts rfl rfl)
  exact (h3.trans (.when (.of_parts rfl rfl))).trans (linkKept_haltChannel c code b s4)

theorem linkKept_chFault (c : Nat) (id : Option Nat) (code : Nat) (b : BadReq) (s : State) : LinkKept s (chFault c id code b s) := by
  unfold chFault
  split
  · unfold discardFault
    split
    · exact LinkKept.trans (.of_moves (moves_modDesc (.refl foot_modDesc s) (within_self _))) (linkKept_dropDescWaiting ..)
    · exact .of_parts rfl rfl
  · exact linkKept_haltAt ..

/-! ### Descriptors -/

theorem linkKept_withLink {c id : Nat} {b : BadReq} {k : State → State} {s : State} (hk : LinkKept s (k s)) : LinkKept s (withLink c id b k s) := by
  unfold withLink
  split
  · exact hk
  · exact linkKept_chFault ..

theorem linkKept_modDesc (c id : Nat) (g : Desc → Desc) (s : State) : LinkKept s (modDesc c id g s) :=
  .of_moves (moves_modDesc (.refl foot_modDesc s) (within_self _))

theorem linkKept_issueRead (c : Nat) (d : Desc) (s : State) : LinkKept s (issueRead c d s) := by
  unfold issueRead
  dsimp only
  split
  · exact linkKept_withLink ((linkKept_modDesc ..).trans (linkKept_chPkt ..))
  · exact (linkKept_modDesc ..).enqueueHost

theorem linkKept_writeOn (c id : Nat) (s : State) : LinkKept s (writeOn c id s) := by
  unfold writeOn
  split
  · exact .refl s
  next d hd =>
    extract_lets data a upd parts r
    have hupd (n : Nat) : LinkKept s (upd n s) := (linkKept_modDesc ..).trans (.when (.of_parts rfl rfl))
    split
    · exact .refl s
    split
    · exact linkKept_withLink ((hupd _).trans (.each (fun p z => linkKept_chPkt ..) _))
    · exact (hupd 1).enqueueHost

theorem linkKept_startFetch (c addr : Nat) (s : State) : LinkKept s (startFetch c addr s) := by
  unfold startFetch
  split
  · exact .of_parts rfl rfl
  · extract_lets s1
    have h1 : LinkKept s s1 := .of_parts rfl rfl
    split
    · exact h1.trans (.of_parts rfl rfl)
    · exact h1.trans (linkKept_chFault ..)

theorem linkKept_startReread (c addr : Nat) (s : State) : LinkKept s (startReread c addr s) := by
  unfold startReread
  split
  · exact .of_parts rfl rfl
  · extract_lets s1
    have h1 : LinkKept s s1 := .of_parts rfl rfl
    split
    · exact h1.trans (.of_parts rfl rfl)
    · exact h1.trans (linkKept_chFault ..)

theorem linkKept_dropAhead (c : Nat) (s : State) : LinkKept s (dropAhead c s) := .of_parts rfl rfl

theorem linkKept_becomeCurrent (c : Nat) (d : Desc) (s : State) : LinkKept s (becomeCurrent c d s) := by
  unfold becomeCurrent
  split
  · split
    · exact (linkKept_dropAhead c s).trans (linkKept_startFetch ..)
    · exact .of_moves (moves_enterWait (.refl foot_enterWait s) (within_self _))
  · extract_lets s1 s2
    have h2 : LinkKept s s2 := .of_parts rfl rfl
    split
    · exact h2.trans ((linkKept_writeOn ..).after rfl rfl)
    · exact h2.trans (linkKept_chFault ..)

theorem linkKept_nextDesc (c : Nat) (s : State) : LinkKept s (nextDesc c s) := by
  have hfetch : LinkKept s (startFetch c (s.ch c).goOn (dropAhead c s)) := (linkKept_dropAhead c s).trans (linkKept_startFetch ..)
  unfold nextDesc
  extract_lets x unissued
  split
  · exact .refl s
  split
  next e rest hahead =>
    split
    · exact (linkKept_becomeCurrent ..).after rfl rfl
    · exact hfetch
  next hahead =>
    split
    · exact .refl s
    · exact hfetch

theorem linkKept_pumpOnce (c : Nat) (s : State) : LinkKept s (pumpOnce c s) := by
  unfold pumpOnce
  split
  · exact .refl s
  extract_lets ds
  split
  · split
    · exact .refl s
    · exact linkKept_issueRead ..
  · split
    · exact .refl s
    · exact .when (linkKept_nextDesc c s)

/-! ### Completion -/

theorem linkKept_chainEnd (c : Nat) (d : Desc) (s : State) : LinkKept s (chainEnd c d s) := by
  unfold chainEnd
  split
  · extract_lets s1
    have h1 : LinkKept s s1 := .of_parts rfl rfl
    split
    · exact h1.trans (linkKept_startReread ..)
    · exact h1.trans (.of_parts rfl rfl)
  · exact .refl s

theorem linkKept_completeDesc (c era stamp : Nat) (d : Desc) (s : State) : LinkKept s (completeDesc c era stamp d s) := by
  unfold completeDesc
  extract_lets t seq st s1 s2 s3 b s4 s5 s6 sp
  have h4 : LinkKept s s4 := LinkKept.after (s := s3) (.of_moves (moves_trace (.refl foot_trace s3) (within_self _))) rfl rfl
  have h6 : LinkKept s s6 := h4.trans (LinkKept.after (s := s5) (.of_moves (moves_marks (.refl foot_marks s5) (within_self _))) rfl rfl)
  exact h6.trans (.when (linkKept_chPkt ..))

theorem linkKept_completeFrom (c era stamp k : Nat) (s : State) : LinkKept s (completeFrom c era stamp k s) := by
  induction k generalizing s with
  | zero => exact .refl s
  | succ k ih =>
    unfold completeFrom
    split
    · split
      · exact ((linkKept_completeDesc ..).trans (linkKept_chainEnd ..)).trans (ih _)
      · exact .refl s
    · exact .refl s

theorem linkKept_completeAll (c : Nat) (s : State) : LinkKept s (completeAll c s) :=
  .when ((LinkKept.of_moves (moves_advance (.refl foot_advance s) (within_self _))).trans (linkKept_completeFrom ..))

/-- A channel that goes on leaves every link's sender and training as they were. -/
theorem linkKept_pump (c : Nat) (s : State) : LinkKept s (pump c s) := by
  have hflush (z : State) : LinkKept z (maybeFlush c z) := .of_moves (moves_maybeFlush (.refl foot_maybeFlush z) (within_self _))
  have hstep (z : State) : LinkKept z (maybeFlush c (pumpOnce c (completeAll c z))) :=
    ((linkKept_completeAll c z).trans (linkKept_pumpOnce ..)).trans (hflush _)
  exact LinkKept.trans (.each (f := fun _ s => maybeFlush c (pumpOnce c (completeAll c s))) (fun _ z => hstep z) s)
    (.of_moves (moves_runAheadAll (.refl foot_runAheadAll _) (within_self _)))

end Sys2Proof.Proofs
end

section
/-!
A packet that leaves on a Weaseif link (R183, R191, R222), and the sender as a whole.
-/
namespace Sys2Proof.Proofs
open Sys2Proof Sys2Proof.Machine Sys2Proof.Laws
set_option Elab.async false

/-! ### The grains of a packet -/

theorem packetGrains_length (k : Nat) (first : Bool) {halves : Nat} (b : Bytes) (c : Nat) (h : halves ≤ 2 * k) :
    (packetGrains k first halves b c).length = (halves + 1) / 2 := by
  induction k generalizing first halves b with
  | zero =>
    obtain rfl : halves = 0 := by omega
    rfl
  | succ k ih =>
    unfold packetGrains
    dsimp only
    split
    next h0 => simp [h0]
    split
    next h0 h2 =>
      rw [List.length_singleton]
      omega
    next h0 h2 =>
      rw [List.length_cons, ih _ _ (by omega)]
      omega

/-- Only a packet of an odd number of halves ends in half a grain. -/
theorem packetGrains_halfFull (k : Nat) (first : Bool) {halves : Nat} (b : Bytes) (c : Nat) (h : halves ≤ 2 * k) {g : TxGrain}
    (hlast : (packetGrains k first halves b c).getLast? = some g) (hg : g.halfFull = true) : halves % 2 = 1 := by
  induction k generalizing first halves b with
  | zero => exact nomatch hlast
  | succ k ih =>
    unfold packetGrains at hlast
    dsimp only at hlast
    split at hlast
    next => exact nomatch hlast
    split at hlast
    next h0 h2 =>
      obtain rfl : _ = g := by simpa using hlast
      simp [TxGrain.halfFull, dataGrain] at hg
      omega
    next h0 h2 =>
      have hne : packetGrains k false (halves - 2) (b.drop 64) c ≠ [] := fun e => by
        have hlen := packetGrains_length k false (b.drop 64) c (halves := halves - 2) (by omega)
        rw [e] at hlen
        simp at hlen
        omega
      rw [List.getLast?_cons_of_ne_nil hne] at hlast
      have hodd := ih _ _ (by omega) hlast
      omega

/-- What goes out at once of a packet's grains, and the half grain that may wait. -/
structure GrainsLeave (halves : Nat) (l : List TxGrain) (keep : Option TxGrain) : Prop where
  all : keep = none → l.length = (halves + 1) / 2
  half : keep.isSome = true → l.length + 1 = (halves + 1) / 2 ∧ halves % 2 = 1

theorem grainsLeave {halves : Nat} {b : Bytes} {c : Nat} (hold : Bool) {keep : Option TxGrain}
    (hkeep : keep = ((grainsOf none halves b c).getLast?.filter (·.halfFull)).filter (fun _ => hold)) :
    GrainsLeave halves (if keep.isSome then (grainsOf none halves b c).dropLast else grainsOf none halves b c) keep := by
  have hlen : (grainsOf none halves b c).length = (halves + 1) / 2 := packetGrains_length _ _ _ _ (by omega)
  refine ⟨fun h => ?_, fun h => ?_⟩
  · rw [h]
    exact hlen
  · obtain ⟨g, hg⟩ := Option.isSome_iff_exists.1 h
    rw [hkeep] at hg
    obtain ⟨hlast, hfull⟩ := Option.filter_eq_some_iff.1 (Option.filter_eq_some_iff.1 hg).1
    have hodd := packetGrains_halfFull _ _ _ _ (by omega) hlast hfull
    rw [if_pos h, List.length_dropLast, hlen]
    omega

/-! ### Grains in sequence -/

/-- The grains of a packet leave in order. -/
def sendAll (n : Nat) (l : List TxGrain) (s : State) : State := each l (fun g s => sendSeq n 1 g.sop g.eop g.payload g.counted s) s

theorem sendSeq_wl (n typ sop eop : Nat) (b : Bytes) (c : Nat) (s : State) : (sendSeq n typ sop eop b c s).wl n =
    { s.wl n with replay := (s.wl n).replay ++ [⟨typ, sop, eop, s.rd .WL_NEXT_TX n, c, b⟩], ackPending := 0 } := by
  unfold sendSeq
  dsimp only
  rw [State.wl, emitGrain_wls, ← State.wl, modWl_wl, if_pos rfl]
  change { (s.modWl n (fun w => { w with replay := w.replay ++ [⟨typ, sop, eop, s.rd .WL_NEXT_TX n, c, b⟩] })).wl n with ackPending := 0 } = _
  rw [modWl_wl, if_pos rfl]

theorem sendSeq_next (n typ sop eop : Nat) (b : Bytes) (c : Nat) (s : State) :
    (sendSeq n typ sop eop b c s).rd .WL_NEXT_TX n = (s.rd .WL_NEXT_TX n + 1) % 4096 := by
  unfold sendSeq
  dsimp only
  rw [(moves_emitGrain (.refl foot_emitGrain _) (within_self _)).reg .WL_NEXT_TX n 0 (by decide +kernel)]
  refine (rd_wr_ne _ (by rintro ⟨⟨⟩, -⟩)).trans ((rd_wr_ne _ (by rintro ⟨⟨⟩, -⟩)).trans ((rd_wr ..).trans ?_))
  exact Nat.mod_mod _ _

/-- The sequence number, the replay buffer and what waits once grains have left. -/
theorem sendAll_spec (n : Nat) (l : List TxGrain) {s : State} (hq : s.rd .WL_NEXT_TX n < 4096) :
    (sendAll n l s).rd .WL_NEXT_TX n = (s.rd .WL_NEXT_TX n + l.length) % 4096 ∧
      ((sendAll n l s).wl n).replay.length = (s.wl n).replay.length + l.length ∧
      ((sendAll n l s).wl n).linkQ = (s.wl n).linkQ ∧ ((sendAll n l s).wl n).wlTags = (s.wl n).wlTags := by
  induction l generalizing s with
  | nil => exact ⟨(Nat.mod_eq_of_lt hq).symm, rfl, rfl, rfl⟩
  | cons g l ih =>
    have hnext := sendSeq_next n 1 g.sop g.eop g.payload g.counted s
    have hwl := sendSeq_wl n 1 g.sop g.eop g.payload g.counted s
    obtain ⟨hseq, hlen, hlink, htags⟩ := ih (s := sendSeq n 1 g.sop g.eop g.payload g.counted s) (by rw [hnext]; omega)
    rw [hnext] at hseq
    rw [hwl] at hlen hlink htags
    refine ⟨hseq.trans ?_, hlen.trans ?_, hlink, htags⟩
    · rw [List.length_cons]
      omega
    · rw [List.length_append, List.length_singleton, List.length_cons]
      omega

theorem moves_sendAll (n : Nat) (l : List TxGrain) (s : State) : Moves foot_sendSeq s (sendAll n l s) :=
  moves_each (.refl _ s) fun _ _ hz => moves_sendSeq hz (within_self _)

/-! ### What a packet that left is noted for -/

/-- The TAG of a request that awaits an answer. -/
def openedTag (n tag : Nat) (p : WPkt) (s : State) : State := when p.tagged (fun s => s.modWl n (fun w => { w with wlTags := w.wlTags ++
  [⟨tag, { p.pkt with tag := tag }, p.src, p.tn, p.gen, 0, [], max 1 w.lrspTo, false, 0⟩] })) s

/-- A packet is counted. -/
def countedPkt (n : Nat) (p : WPkt) (s : State) : State :=
  ((match p.src with
    | .dmaWrite c _ => hubCross (chTiller c) (wlTiller n) (payloadLen p.pkt) s
    | _ => s).inc .CT_WL_TX_PKT n).add .CT_WL_TX_BYTES (payloadLen p.pkt) n

/-- Its channel's turn is over, and goes on where it reads. -/
def turnOver (n : Nat) (p : WPkt) (s : State) : State :=
  match p.src with
  | .dmaRead c _ _ => pump c (withSome p.src.chan (fun c s => s.modWl n (fun w => { w with chTurn := tset 0 w.chTurn p.tn (c + 1) })) s)
  | _ => withSome p.src.chan (fun c s => s.modWl n (fun w => { w with chTurn := tset 0 w.chTurn p.tn (c + 1) })) s

theorem wSent_eq (n tag : Nat) (p : WPkt) (s : State) : wSent n tag p s =
    when (p.src == .response && p.pkt.status != 0)
      (trace 2 n 0x0202 (p.pkt.status % 256 + p.pkt.cause % 256 * 256 + p.pkt.tag % 4096 * 65536))
      (turnOver n p (countedPkt n p (openedTag n tag p s))) := by
  unfold wSent turnOver countedPkt openedTag
  cases p.src <;> rfl

theorem countedPkt_kept (n : Nat) (p : WPkt) (s : State) : (countedPkt n p s).wls = s.wls ∧ (countedPkt n p s).wps = s.wps := by
  unfold countedPkt
  split
  next c d hsrc =>
    have h := moves_hubCross (src := chTiller c) (dst := wlTiller n) (n := payloadLen p.pkt) (.refl foot_hubCross s) (within_self _)
    exact ⟨h.part .wls (by decide +kernel), h.part .wps (by decide +kernel)⟩
  next => exact ⟨rfl, rfl⟩

theorem countedPkt_count (n : Nat) (p : WPkt) (s : State) :
    (countedPkt n p s).rd .CT_WL_TX_PKT n = (s.rd .CT_WL_TX_PKT n + 1) % 2 ^ 64 := by
  unfold countedPkt
  refine (rd_wr_ne _ (by rintro ⟨⟨⟩, -⟩)).trans ((rd_wr ..).trans (congrArg (fun v => (v + 1) % 2 ^ 64) ?_))
  split
  · exact (moves_hubCross (.refl foot_hubCross s) (within_self _)).reg .CT_WL_TX_PKT n 0 (by decide +kernel)
  · rfl

/-- A channel's turn moves nothing of what waits for the link but where the channel reads. -/
theorem turnOver_spec (n : Nat) (p : WPkt) (s : State) : LinkKept s (turnOver n p s) ∧
    (turnOver n p s).rd .CT_WL_TX_PKT n = s.rd .CT_WL_TX_PKT n ∧
    ((∀ c d x, p.src ≠ .dmaRead c d x) → ((turnOver n p s).wl n).linkQ = (s.wl n).linkQ ∧ ((turnOver n p s).wl n).wlTags = (s.wl n).wlTags) := by
  have hturn (c : Nat) (z : State) : LinkKept z (z.modWl n (fun w => { w with chTurn := tset 0 w.chTurn p.tn (c + 1) })) ∧
      ((z.modWl n (fun w => { w with chTurn := tset 0 w.chTurn p.tn (c + 1) })).wl n).linkQ = (z.wl n).linkQ ∧
      ((z.modWl n (fun w => { w with chTurn := tset 0 w.chTurn p.tn (c + 1) })).wl n).wlTags = (z.wl n).wlTags := by
    refine ⟨.modWl (fun _ => by rfl) z, ?_, ?_⟩ <;> rw [wl_modWl_self]
  have hchan (o : Option Nat) : LinkKept s (withSome o (fun c s => s.modWl n (fun w => { w with chTurn := tset 0 w.chTurn p.tn (c + 1) })) s) ∧
      ((withSome o (fun c s => s.modWl n (fun w => { w with chTurn := tset 0 w.chTurn p.tn (c + 1) })) s).wl n).linkQ = (s.wl n).linkQ ∧
      ((withSome o (fun c s => s.modWl n (fun w => { w with chTurn := tset 0 w.chTurn p.tn (c + 1) })) s).wl n).wlTags = (s.wl n).wlTags ∧
      (withSome o (fun c s => s.modWl n (fun w => { w with chTurn := tset 0 w.chTurn p.tn (c + 1) })) s).regs = s.regs := by
    cases o with
    | none => exact ⟨.refl s, rfl, rfl, rfl⟩
    | some c => exact ⟨(hturn c s).1, (hturn c s).2.1, (hturn c s).2.2, rfl⟩
  obtain ⟨hsender, hlink, htags, hregs⟩ := hchan p.src.chan
  unfold turnOver
  split
  next c d x hsrc =>
    refine ⟨hsender.trans (linkKept_pump ..), ?_, fun hno => absurd hsrc (hno c d x)⟩
    rw [(moves_pump (.refl foot_pump _) (within_self _)).reg .CT_WL_TX_PKT n 0 (by decide +kernel)]
    exact rd_of_regs hregs ..
  next => exact ⟨hsender, rd_of_regs hregs .., fun _ => ⟨hlink, htags⟩⟩

theorem wSent_spec (n tag : Nat) (p : WPkt) (s : State) : LinkKept s (wSent n tag p s) ∧
    (wSent n tag p s).rd .CT_WL_TX_PKT n = (s.rd .CT_WL_TX_PKT n + 1) % 2 ^ 64 ∧
    ((∀ c d x, p.src ≠ .dmaRead c d x) → ((wSent n tag p s).wl n).linkQ = (s.wl n).linkQ ∧
      (p.tagged = true → ∃ e ∈ ((wSent n tag p s).wl n).wlTags, e.tag = tag ∧ e.quarantined = false ∧ e.src = p.src)) := by
  obtain ⟨hkept, hcount, hothers⟩ := turnOver_spec n p (countedPkt n p (openedTag n tag p s))
  have htrace : Moves foot_trace (turnOver n p (countedPkt n p (openedTag n tag p s))) (wSent n tag p s) := by
    rw [wSent_eq]
    exact moves_when (.refl _ _) fun _ hz => moves_trace hz (within_self _)
  have hopened : LinkKept s (openedTag n tag p s) ∧ ((openedTag n tag p s).wl n).linkQ = (s.wl n).linkQ ∧ (openedTag n tag p s).regs = s.regs := by
    unfold openedTag
    refine ⟨.when (.modWl (fun _ => by rfl) s), ?_, when_cases (P := fun z => z.regs = s.regs) rfl rfl⟩
    refine when_cases (P := fun z => (z.wl n).linkQ = (s.wl n).linkQ) rfl ?_
    rw [wl_modWl_self]
  obtain ⟨hsender, hlink, hregs⟩ := hopened
  have hwls : (wSent n tag p s).wl n = (turnOver n p (countedPkt n p (openedTag n tag p s))).wl n := wl_of_wls (htrace.part .wls (by decide +kernel)) n
  have hcounted := wl_of_wls (countedPkt_kept n p (openedTag n tag p s)).1 n
  refine ⟨((hsender.trans (.of_parts (countedPkt_kept ..).1 (countedPkt_kept ..).2)).trans hkept).trans (.of_moves htrace), ?_, fun hno => ?_⟩
  · rw [htrace.reg .CT_WL_TX_PKT n 0 (by decide +kernel), hcount, countedPkt_count, rd_of_regs hregs]
  · obtain ⟨hq, ht⟩ := hothers hno
    rw [hwls, hq, ht, hcounted]
    refine ⟨hlink, fun htagged => ?_⟩
    rw [openedTag, when_of _ _ htagged, wl_modWl_self]
    exact ⟨_, List.mem_append_right _ (List.mem_singleton.2 rfl), rfl, rfl, rfl⟩

end Sys2Proof.Proofs
end

section
/-!
The sender of a Weaseif link as a whole: packets, ACKs and replays (R183, R189, R191, R195, R222).
-/
namespace Sys2Proof.Proofs
open Sys2Proof Sys2Proof.Machine Sys2Proof.Laws
set_option Elab.async false

/-- The packet leaves the queue and takes its credit. -/
def takenOff (n pos : Nat) (p : WPkt) (d : Tbl Nat) (pkt : Pkt) (s : State) : State :=
  showCredits n (wIdle n p.tn ((wCharge p s).modWl n (fun w => { w with
    linkQ := w.linkQ.eraseIdx pos, deficit := d, used := bump w.used (creditClass pkt.typ) (pktCost p.pkt), txHalf := none })))

/-- What the packet leaves of the link before its grains go out. -/
theorem takenOff_spec (n pos : Nat) (p : WPkt) (d : Tbl Nat) (pkt : Pkt) (s : State) :
    (takenOff n pos p d pkt s).rd .WL_NEXT_TX n = s.rd .WL_NEXT_TX n ∧ (takenOff n pos p d pkt s).rd .CT_WL_TX_PKT n = s.rd .CT_WL_TX_PKT n ∧
      ((takenOff n pos p d pkt s).wl n).replay = (s.wl n).replay ∧
      ((takenOff n pos p d pkt s).wl n).linkQ = (s.wl n).linkQ.eraseIdx pos := by
  have hcharge := moves_wCharge (p := p) (.refl foot_wCharge s) (within_self _)
  have hshow (z : State) := moves_showCredits (n := n) (.refl foot_showCredits z) (within_self _)
  have hidle (z : State) : ((wIdle n p.tn z).wl n).replay = (z.wl n).replay ∧ ((wIdle n p.tn z).wl n).linkQ = (z.wl n).linkQ ∧
      (wIdle n p.tn z).regs = z.regs := by
    unfold wIdle
    rw [wl_modWl_self]
    split
    · exact ⟨rfl, rfl, rfl⟩
    · exact ⟨rfl, rfl, rfl⟩
  unfold takenOff
  refine ⟨?_, ?_, ?_, ?_⟩
  · rw [(hshow _).reg .WL_NEXT_TX n 0 (by decide +kernel), rd_of_regs (hidle _).2.2]
    exact hcharge.reg .WL_NEXT_TX n 0 (by decide +kernel)
  · rw [(hshow _).reg .CT_WL_TX_PKT n 0 (by decide +kernel), rd_of_regs (hidle _).2.2]
    exact hcharge.reg .CT_WL_TX_PKT n 0 (by decide +kernel)
  · rw [wl_of_wls ((hshow _).part .wls (by decide +kernel)), (hidle _).1, wl_modWl_self, wl_of_wls (hcharge.part .wls (by decide +kernel))]
  · rw [wl_of_wls ((hshow _).part .wls (by decide +kernel)), (hidle _).2.1, wl_modWl_self, wl_of_wls (hcharge.part .wls (by decide +kernel))]

section
variable {wl : Wl} {pos tag : Nat} {p : WPkt} {d : Tbl Nat} {s : State}

/-- A packet that may leave takes its grains with it. -/
theorem sendPacket_sends (hmay : wAllowed s wl pos = some (p, d)) (hcut : cutRead s wl p = (p, none)) (hhalf : (s.wl wl).txHalf = none)
    (hroom : (s.wl wl).replay.length + (pktCost p.pkt + 2) / 2 ≤ 512)
    (htag : p.tagged = true → tag < 4096 ∧ ∀ t ∈ (s.wl wl).wlTags, t.tag ≠ tag) :
    ∃ pkt l keep, GrainsLeave (pktCost p.pkt) l keep ∧ sendPacket wl pos tag s = when (decide (p.tn < 256)) (showHeld p.tn)
      (wSent wl tag p ((sendAll wl l (takenOff wl pos p d pkt s)).modWl wl (fun w => { w with txHalf := keep }))) := by
  have hopen : (p.tagged && (decide (4096 ≤ tag) || (s.wl wl).wlTags.any (fun t => t.tag == tag))) = false := by
    cases ht : p.tagged
    · rfl
    · obtain ⟨hlt, hfree⟩ := htag ht
      simpa [Nat.not_le.2 hlt] using hfree
  refine ⟨if p.tagged then { p.pkt with tag := tag } else p.pkt, _, _, grainsLeave (b := pktBytes (if p.tagged then { p.pkt with tag := tag } else p.pkt))
    (c := if flushCounts (if p.tagged then { p.pkt with tag := tag } else p.pkt) then 1 else 0)
    (!(wHeads (takenOff wl pos p d (if p.tagged then { p.pkt with tag := tag } else p.pkt) s) wl).isEmpty) rfl, ?_⟩
  unfold sendPacket
  rw [hmay]
  dsimp only
  rw [hcut, hhalf]
  dsimp only
  rw [if_neg (by omega), if_neg (by rw [hopen]; exact Bool.false_ne_true)]
  rfl

theorem packet_sent (hup : s.rd .WL_LSTATE wl = 2) (hon : s.tlOn (wlTiller wl) = true) (hmay : wAllowed s wl pos = some (p, d))
    (hcut : cutRead s wl p = (p, none)) (hhalf : (s.wl wl).txHalf = none) (hseq : s.rd .WL_NEXT_TX wl < 4096)
    (hroom : (s.wl wl).replay.length + (pktCost p.pkt + 2) / 2 ≤ 512)
    (htag : p.tagged = true → tag < 4096 ∧ ∀ t ∈ (s.wl wl).wlTags, t.tag ≠ tag) :
    Completes (.linkPacketSend wl pos tag) s (fun t =>
      t.rd .CT_WL_TX_PKT wl = (s.rd .CT_WL_TX_PKT wl + 1) % 2 ^ 64 ∧
      (∃ m, ((m = (pktCost p.pkt + 1) / 2 ∧ (t.wl wl).txHalf = none) ∨
          (m + 1 = (pktCost p.pkt + 1) / 2 ∧ pktCost p.pkt % 2 = 1 ∧ (t.wl wl).txHalf.isSome = true)) ∧
        t.rd .WL_NEXT_TX wl = (s.rd .WL_NEXT_TX wl + m) % 4096 ∧
        (t.wl wl).replay.length = (s.wl wl).replay.length + m) ∧
      ((∀ c d x, p.src ≠ .dmaRead c d x) → (t.wl wl).linkQ = (s.wl wl).linkQ.eraseIdx pos ∧
        (p.tagged = true → ∃ e ∈ (t.wl wl).wlTags, e.tag = tag ∧ e.quarantined = false ∧ e.src = p.src))) := by
  obtain ⟨pkt, l, keep, hleave, hsend⟩ := sendPacket_sends hmay hcut hhalf hroom htag
  obtain ⟨hnext, hcount, hreplay, hlink⟩ := takenOff_spec wl pos p d pkt s
  obtain ⟨hseq', hlen', hlink', -⟩ := sendAll_spec wl l (s := takenOff wl pos p d pkt s) (by rw [hnext]; exact hseq)
  have hcount' := (moves_sendAll wl l (takenOff wl pos p d pkt s)).reg .CT_WL_TX_PKT wl 0 (by decide +kernel)
  refine ⟨_, congrArg Host.Outcome.next ((when_of _ s (by simp [hup, hon])).trans hsend), ?_⟩
  dsimp only
  rw [hnext] at hseq'
  rw [hreplay] at hlen'
  rw [hlink] at hlink'
  rw [hcount] at hcount'
  generalize sendAll wl l (takenOff wl pos p d pkt s) = u at hseq' hlen' hlink' hcount' ⊢
  obtain ⟨hkept, hsent, hrest⟩ := wSent_spec wl tag p (u.modWl wl (fun w => { w with txHalf := keep }))
  have hnext' := (moves_wSent (n := wl) (tag := tag) (p := p) (.refl foot_wSent (u.modWl wl (fun w => { w with txHalf := keep })))
    (within_self _)).reg .WL_NEXT_TX wl 0 (by decide +kernel)
  rw [wl_modWl_self] at hrest
  have hside := hkept.keeps wl
  rw [wl_modWl_self] at hside
  generalize wSent wl tag p (u.modWl wl (fun w => { w with txHalf := keep })) = v at hsent hrest hnext' hside ⊢
  have hheld : (when (decide (p.tn < 256)) (showHeld p.tn) v).wl wl = v.wl wl ∧
      (when (decide (p.tn < 256)) (showHeld p.tn) v).rd .CT_WL_TX_PKT wl = v.rd .CT_WL_TX_PKT wl ∧
      (when (decide (p.tn < 256)) (showHeld p.tn) v).rd .WL_NEXT_TX wl = v.rd .WL_NEXT_TX wl := by
    have hmoves := moves_when (c := decide (p.tn < 256)) (.refl foot_showHeld v) fun z hz => moves_showHeld (n := p.tn) hz (within_self _)
    exact ⟨wl_of_wls (hmoves.part .wls (by decide +kernel)) wl, hmoves.reg .CT_WL_TX_PKT wl 0 (by decide +kernel),
      hmoves.reg .WL_NEXT_TX wl 0 (by decide +kernel)⟩
  obtain ⟨hw, hc, hn⟩ := hheld
  have hhalf' : (v.wl wl).txHalf = keep := congrArg Prod.snd hside
  have hbuf : (v.wl wl).replay = (u.wl wl).replay := congrArg Prod.fst hside
  rw [hw, hc, hn]
  refine ⟨by rw [hsent, modWl_rd, hcount'], ⟨l.length, ?_, ?_, ?_⟩, fun hno => ?_⟩
  · rw [hhalf']
    obtain ⟨hall, hkeep⟩ := hleave
    cases keep with
    | none => exact .inl ⟨hall rfl, rfl⟩
    | some g => exact .inr ⟨(hkeep rfl).1, (hkeep rfl).2, rfl⟩
  · rw [hnext', modWl_rd, hseq']
  · rw [hbuf, hlen']
  · obtain ⟨hq, htags⟩ := hrest hno
    exact ⟨hq.trans hlink', htags⟩

/-- Where order, credit and arbitration let no packet go, nothing goes. -/
theorem packet_held (hup : s.rd .WL_LSTATE wl = 2) (hon : s.tlOn (wlTiller wl) = true) (hmay : wAllowed s wl pos = none)
    (hidle : (s.wl wl).txHalf = none ∨ wHeads s wl ≠ []) : exec (.linkPacketSend wl pos tag) s = .next s := by
  refine congrArg Host.Outcome.next ((when_of _ s (by simp [hup, hon])).trans ?_)
  unfold sendPacket
  rw [hmay]
  rcases hidle with hhalf | hheads
  · refine when_cases (P := fun z => z = s) rfl ?_
    unfold flushHalf
    rw [hhalf]
  · exact when_of_not _ _ (by simpa using hheads)

end

/-- Settles O52: a packet's grains go out in sequence before it is noted, and no channel that goes on then moves the replay buffer; a
line that is not FATAL lets a replay go on. -/
theorem grainsSent : Obligations.GrainsSent := by
  unfold Obligations.GrainsSent
  exact ⟨fun wl s hpass hup hpend hhalf => ack_sent hpass hup hpend hhalf,
    fun wl pos tag p d s hup hon hmay hcut hhalf hseq hroom htag => packet_sent hup hon hmay hcut hhalf hseq hroom htag,
    fun wl pos tag s hup hon hmay hidle => packet_held hup hon hmay hidle,
    fun wl s hup hon hsome => ⟨fun hlt hw => replay_again hup hon hsome hlt hw,
      fun hge hnot hst => replay_retrains hup hon hsome hge hnot hst, fun hge hdone => replay_gives_up hup hon hsome hge hdone⟩,
    replayAll_sends⟩

end Sys2Proof.Proofs
end

section
/-!
What the moves of the lanes, of the link layer and of the Ward leave of what a link's lanes trained with (Table WP-6).
-/
namespace Sys2Proof.Proofs
open Sys2Proof Sys2Proof.Machine Sys2Proof.Laws
set_option Elab.async false

/-! ### Grains -/

theorem trainKept_emitGrain (n : Nat) (inject : Bool) (g : Grain) (s : State) : TrainKept s (emitGrain n inject g s) :=
  (emitGrain_sets n inject g s).train

theorem trainKept_startInit (n : Nat) (resume : Bool) (s : State) : TrainKept s (startInit n resume s) := by
  unfold startInit
  extract_lets s1 s2
  have h1 : TrainKept s s1 := by
    unfold s1
    split
    · exact .refl s
    · exact .of_moves (moves_newLinkId (.refl foot_newLinkId s) (within_self _))
  exact h1.trans ((trainKept_emitGrain ..).after rfl)

theorem trainKept_replayAll (n : Nat) (s : State) : TrainKept s (replayAll n s) := .each (fun _ _ => trainKept_emitGrain ..) s

/-! ### The Ward -/

theorem trainKept_linkLine (l n : Nat) (s : State) : TrainKept s (linkLine l n s) := (linkKept_wardDetail ..).toTrainKept

theorem trainKept_laneFault (n : Nat) (s : State) : TrainKept s (laneFault n s) := (linkKept_wardDetail ..).toTrainKept

theorem trainKept_unavailable (f off : Nat) (write : Bool) (s : State) : TrainKept s (unavailable f off write s) :=
  (linkKept_wardDetail ..).toTrainKept

/-! ### Lanes -/

theorem trainKept_setLane (n k st : Nat) (s : State) : TrainKept s (setLane n k st s) := (setLane_sets n k st s).train

theorem trainKept_showTx (n : Nat) (was s : State) : TrainKept s (showTx n was s) := .of_wps (showTx_wps n was s)

theorem trainKept_shown {n : Nat} {f : State → State} {s : State} (hf : TrainKept s (f s)) : TrainKept s (shown n f s) :=
  hf.trans (trainKept_showTx ..)

theorem trainKept_setLanes (n : Nat) (f : Nat → Nat) (s : State) : TrainKept s (setLanes n f s) := .each (fun _ _ => trainKept_setLane ..) s

theorem trainKept_applyCtl (n : Nat) (s : State) : TrainKept s (applyCtl n s) :=
  .modWp (n := n) (g := fun w =>
    { w with enLanes := s.rd .WP_LANE_EN n, tgtRate := s.rd .WP_TARGET_RATE n, minW := s.rd .WP_MIN_WIDTH n }) (fun _ => by rfl) s

theorem trainKept_sendTrain (n typ rates lanes : Nat) (s : State) : TrainKept s (sendTrain n typ rates lanes s) := .of_wps rfl

/-! ### A link that goes down -/

theorem trainKept_dropReshape (n : Nat) (s : State) : TrainKept s (dropReshape n s) := by
  have hdrop : TrainKept s (dropBackground n s) := .each (fun k z => .when (trainKept_shown (trainKept_setLane ..))) s
  have hend (z : State) : TrainKept z (endReshape n z) := by
    have hset : TrainKept z (z.modWp n (fun w => { w with bgPassed := 0 })) := .modWp (fun _ => by rfl) z
    exact ⟨hset.trains⟩
  exact (hdrop.trans (hend _)).trans (.of_wps rfl)

theorem linkKept_chError (c : Nat) (id : Option Nat) (kind code : Nat) (b : BadReq) (s : State) : LinkKept s (chError c id kind code b s) := by
  have hdiscard (z : State) : LinkKept z (discardFault c none z) := .of_parts rfl rfl
  unfold chError
  extract_lets lim retried
  split
  · split
    · exact .refl s
    · split
      · exact ((linkKept_modDesc ..).trans (linkKept_dropDescWaiting ..)).trans (.when (hdiscard _))
      · exact linkKept_chFault ..
  · split
    · exact .of_parts rfl rfl
    · exact linkKept_chFault ..

theorem trainKept_bridgeFails (n : Nat) (src : WSrc) (addr code : Nat) (s : State) : TrainKept s (bridgeFails n src addr code s) := by
  have hchan (c : Nat) (id : Option Nat) (b : BadReq) : TrainKept s (pump c (chError c id 0 code b s)) :=
    ((linkKept_chError ..).trans (linkKept_pump ..)).toTrainKept
  unfold bridgeFails
  split
  · split
    · exact .refl s
    · exact (TrainKept.of_moves (moves_failInRd (.refl foot_failInRd s) (within_self _))).trans (.when (trainKept_unavailable ..))
  · exact hchan ..
  · exact hchan ..
  · exact hchan ..
  · exact .refl s

theorem trainKept_endWait {n : Nat} {k : InReq → State → State} (hk : ∀ x z, TrainKept z (k x z)) (s : State) : TrainKept s (endWait n k s) := by
  refine .each (fun h z => ?_) s
  dsimp only
  split
  · exact .refl z
  · exact (TrainKept.each hk _).after rfl

theorem trainKept_failBridge (n code : Nat) (s : State) : TrainKept s (failBridge n code s) := by
  unfold failBridge
  exact TrainKept.after (.each (fun _ _ => trainKept_bridgeFails ..) _) rfl

theorem trainKept_flushLink (n : Nat) (event : Bool) (s : State) : TrainKept s (flushLink n event s) := by
  unfold flushLink
  extract_lets w cnt s1 s2 s3
  have h2 : TrainKept s s2 := (trainKept_failBridge n _ s1).after rfl
  have h3 : TrainKept s s3 := by
    refine h2.trans (trainKept_endWait (fun x z => ?_) s2)
    split
    · exact .refl z
    · exact (TrainKept.of_moves (moves_inboundUr (.refl foot_inboundUr z) (within_self _))).trans (trainKept_unavailable ..)
  refine h3.trans (.when ?_)
  clear_value s3
  have hnoted : TrainKept s3 (trace 2 n 0x0105 cnt s3) := .of_moves (moves_trace (.refl foot_trace s3) (within_self _))
  exact hnoted.trans ((trainKept_linkLine 18 n ((trace 2 n 0x0105 cnt s3).wr .WL_FLUSHED 1 n)).after rfl)

theorem trainKept_declareDown (n : Nat) (s : State) : TrainKept s (declareDown n s) := by
  unfold declareDown
  extract_lets s1 s2 hold s3 s4
  have h2 : TrainKept s s2 := (trainKept_dropReshape n s).trans (.of_moves (moves_trace (.refl foot_trace s1) (within_self _)))
  clear_value s2
  have h3 : TrainKept s s3 := h2.trans (.of_wps rfl)
  have hdown (z : State) : TrainKept z (linkLine 4 n ((z.wr .WL_DOWN 1 n).inc .WL_DOWN_CNT n)) := (trainKept_linkLine ..).after rfl
  have h4 : TrainKept s s4 := h3.trans (hdown s3)
  exact h4.trans (.when (trainKept_flushLink ..))

theorem trainKept_linkPhysDown (n : Nat) (s : State) : TrainKept s (linkPhysDown n s) := by
  unfold linkPhysDown
  split
  · exact .of_wps rfl
  · exact trainKept_declareDown n s
  · exact trainKept_declareDown n s
  · exact .of_wps rfl
  · exact .refl s

/-! ### A link whose lanes are ACTIVE -/

theorem trainKept_startReplay (n : Nat) (s : State) : TrainKept s (startReplay n s) := by
  unfold startReplay
  split
  · exact .refl s
  · extract_lets s1 s2
    have h1 : TrainKept s s1 := .of_moves (moves_trace (.refl foot_trace s) (within_self _))
    have h2 : TrainKept s s2 := h1.trans ((trainKept_linkLine ..).after rfl)
    exact h2.trans (.when (trainKept_replayAll ..))

theorem trainKept_linkPhysActive (n : Nat) (s : State) : TrainKept s (linkPhysActive n s) := by
  unfold linkPhysActive
  split
  · exact trainKept_startInit ..
  · exact (trainKept_startReplay ..).after rfl
  · exact trainKept_startInit ..
  · exact trainKept_sendHalt n s
  · exact .refl s

end Sys2Proof.Proofs
end

section
/-!
Training of the lanes of a Weaseif link from DETECT to ACTIVE, and its failures (R170 to R172, Table WP-6).
-/
namespace Sys2Proof.Proofs
open Sys2Proof Sys2Proof.Machine Sys2Proof.Laws
set_option Elab.async false

/-! ### Training blocks -/

theorem num_byte {b a c : Bytes} {v o : Nat} (hb : b = a ++ (le 1 v ++ c)) (ho : a.length = o) : num b o 1 = v % 256 := by
  subst hb ho
  rw [num_append_right (Nat.le_refl _), Nat.sub_self, num_append_left (by rw [length_le]), num_le]
  rfl

/-- A training block shows its type, its rates and lanes, and its flags, whatever closes it. -/
theorem trainHead_shows (typ lane role rates lanes flags q : Nat) (c : Bytes) {b : Bytes}
    (hb : b = [0xBC] ++ le 1 typ ++ le 1 lane ++ le 1 role ++ le 1 rates ++ le 1 lanes ++ le 1 flags ++ le 1 q ++ zeros 6 ++ c) :
    num b 1 1 = typ % 256 ∧ num b 4 1 = rates % 256 ∧ num b 5 1 = lanes % 256 ∧ num b 6 1 = flags % 256 :=
  ⟨num_byte (a := [0xBC]) (hb.trans rfl) rfl, num_byte (a := [0xBC] ++ le 1 typ ++ le 1 lane ++ le 1 role) (hb.trans rfl) rfl,
    num_byte (a := [0xBC] ++ le 1 typ ++ le 1 lane ++ le 1 role ++ le 1 rates) (hb.trans rfl) rfl,
    num_byte (a := [0xBC] ++ le 1 typ ++ le 1 lane ++ le 1 role ++ le 1 rates ++ le 1 lanes) (hb.trans rfl) rfl⟩

/-- Training blocks go out last, on every lane alike. -/
theorem sendTrain_last (n typ rates lanes : Nat) (s : State) : ∃ bs, (sendTrain n typ rates lanes s).out.getLast? = some (.train n bs) ∧
    ∀ b ∈ bs, num b.2 1 1 = typ % 256 ∧ num b.2 4 1 = rates % 256 ∧ num b.2 5 1 = lanes % 256 ∧
      num b.2 6 1 = (if s.rd .WP_STATE n = 6 then 1 else 0) % 256 := by
  refine ⟨_, List.getLast?_concat .., fun b hb => ?_⟩
  obtain ⟨k, -, rfl⟩ := List.mem_map.1 hb
  exact trainHead_shows _ _ _ _ _ _ _ _ rfl

/-! ### The choice of the key side -/

theorem chooseSet_sublist (l : List Nat) : List.Sublist (chooseSet l) l := by
  unfold chooseSet
  split
  · exact .refl l
  split
  · exact List.take_sublist ..
  · exact List.take_sublist ..

theorem foldl_lanes (l : List Nat) (k : Nat) : l.foldl (fun m l => m + 2 ^ l) k = k + (l.map (2 ^ ·)).sum := by
  induction l generalizing k with
  | nil => rfl
  | cons a l ih => rw [List.foldl_cons, ih, List.map_cons, List.sum_cons, Nat.add_assoc]

/-- A choice is one of the four rates and a set of the four lanes. -/
theorem choice_fits {s : State} {n among r set : Nat} {t : Ts2} (h : choice s n t among = some (r, set)) : r < 4 ∧ set < 16 := by
  unfold choice at h
  dsimp only at h
  split at h
  next r' hr =>
    split at h
    · exact nomatch h
    · obtain ⟨rfl, rfl⟩ := Prod.mk.inj (Option.some.inj h)
      constructor
      · have hmem := List.mem_of_find?_eq_some hr
        simp only [List.mem_cons, List.not_mem_nil, or_false] at hmem
        omega
      · have hsub := ((chooseSet_sublist _).trans (List.filter_sublist (p := qualifies s n t among) (l := List.range 4))).map (2 ^ ·)
        have hsum := hsub.sum_le_sum fun _ _ => Nat.zero_le _
        have hall : ((List.range 4).map (2 ^ ·)).sum = 15 := by decide
        rw [foldl_lanes]
        omega
  next => exact nomatch h

/-! ### What a TS2 leaves -/

/-- What keeping a TS2 and answering it moves. -/
def ts2Foot : Nat := foot_keepTs2 ||| foot_sendTs2

theorem moves_ts2Kept (n : Nat) (x : Ts2) (s : State) : Moves ts2Foot s (sendTs2 n (keepTs2 n x s)) :=
  moves_sendTs2 (moves_keepTs2 (.refl _ s) (by unfold Within; decide +kernel)) (by unfold Within; decide +kernel)

theorem ts2Kept_ts2 (n : Nat) (x : Ts2) (s : State) : ((sendTs2 n (keepTs2 n x s)).wp n).ts2 = some x := by
  have hwr (z : State) (f : Fld) (v i j : Nat) : TrainKept z (z.wr f v i j) := .of_wps rfl
  have hlogical (z : State) : TrainKept z (each [0, 1, 2, 3] (fun k s => s.wr .WP_LOGICAL (logicalOf s n k) n k) z) :=
    .each (f := fun k s => s.wr .WP_LOGICAL (logicalOf s n k) n k) (fun _ _ => hwr ..) z
  have hkeep : TrainKept (s.modWp n (fun w => { w with ts2 := some x })) (sendTs2 n (keepTs2 n x s)) := by
    unfold keepTs2
    extract_lets s1 s2
    have h2 : TrainKept s1 s2 := ((((hwr ..).trans (hwr ..)).trans (hwr ..)).trans (hwr ..)).trans (hwr ..)
    exact (h2.trans (hlogical s2)).trans (trainKept_sendTrain ..)
  have hts2 := congrArg Trained.ts2 (hkeep.trains n)
  rw [wp_modWp_self] at hts2
  exact hts2

theorem claimsKey_kept {m : Nat} {s t : State} (h : Moves m s t) (n : Nat) (x : Ts2)
    (hpeer : m.testBit (fbit .WP_PEER) = false := by decide +kernel) (hpins : m.testBit Part.pins.ctorIdx = false := by decide +kernel) :
    claimsKey t n x = claimsKey s n x := by
  have hp : t.pins = s.pins := h.part .pins hpins
  unfold claimsKey State.on
  rw [h.reg .WP_PEER n 0 hpeer, hp]

theorem roleConflict_kept {m : Nat} {s t : State} (h : Moves m s t) (n : Nat) (x : Ts2)
    (hpeer : m.testBit (fbit .WP_PEER) = false := by decide +kernel) (hpins : m.testBit Part.pins.ctorIdx = false := by decide +kernel) :
    roleConflict t n x = roleConflict s n x := by
  unfold roleConflict
  rw [claimsKey_kept h n x hpeer hpins, State.on, State.on, h.reg .WP_PEER n 0 hpeer]

/-! ### A failed attempt -/

/-- What a failed attempt moves before its lanes start again. -/
def failFoot : Nat := foot_laneFault ||| foot_countFail ||| fms [.WP_TRAIN_FAIL, .WP_FAIL_CNT] ||| Part.wps.bit

/-- A failed attempt shows TRAIN_FAIL, is counted, and the lanes start again. -/
theorem failAttempt_spec (n : Nat) (conflict : Bool) (s : State) :
    (failAttempt n conflict s).rd .WP_TRAIN_FAIL n = 1 ∧ (failAttempt n conflict s).rd .WP_FAIL_CNT n = (s.rd .WP_FAIL_CNT n + 1) % 2 ^ 64 ∧
      (failAttempt n conflict s).rd .WP_STATE n = if phyCan s n then 1 else 0 := by
  unfold failAttempt goDetect
  extract_lets w s1 s2 s3
  have hbefore : Moves failFoot s s1 :=
    moves_inc (f := .WP_FAIL_CNT) (moves_wr (f := .WP_TRAIN_FAIL) (.refl _ s) (by unfold Within; decide +kernel)) (by unfold Within; decide +kernel)
  have hafter : Moves (foot_laneFault ||| foot_countFail ||| Part.wps.bit) s1 (when w.chose (countFail n) s3) :=
    moves_when (moves_when (moves_when (.refl _ s1) fun z hz => moves_laneFault hz (by unfold Within; decide +kernel))
      fun z hz => moves_modWp hz (by unfold Within; decide +kernel)) fun z hz => moves_countFail hz (by unfold Within; decide +kernel)
  have hwhole : Moves failFoot s (when w.chose (countFail n) s3) := hbefore.trans (Moves.mono hafter (by unfold Within; decide +kernel))
  generalize when w.chose (countFail n) s3 = u at hafter hwhole ⊢
  have hend (f : Fld) (hf : (foot_restartPhy ||| foot_linkPhysDown).testBit (fbit f) = false) : (linkPhysDown n (restartPhy n u)).rd f n = u.rd f n :=
    (moves_linkPhysDown (moves_restartPhy (.refl (foot_restartPhy ||| foot_linkPhysDown) u) (by unfold Within; decide +kernel))
      (by unfold Within; decide +kernel)).reg f n 0 hf
  refine ⟨?_, ?_, ?_⟩
  · rw [hend _ (by decide +kernel), hafter.reg .WP_TRAIN_FAIL n 0 (by decide +kernel)]
    exact (rd_wr_ne _ (by rintro ⟨⟨⟩, -⟩)).trans (rd_wr ..)
  · rw [hend _ (by decide +kernel), hafter.reg .WP_FAIL_CNT n 0 (by decide +kernel)]
    exact (rd_wr ..).trans (congrArg (fun v => (v + 1) % 2 ^ 64) (rd_wr_ne _ (by rintro ⟨⟨⟩, -⟩)))
  · rw [(moves_linkPhysDown (.refl foot_linkPhysDown _) (within_self _)).reg .WP_STATE n 0 (by decide +kernel), restartPhy_state, phyCan_kept hwhole]

end Sys2Proof.Proofs
end

section
/-!
Training of the lanes of a Weaseif link as a whole (R170 to R172, Table WP-6).
-/
namespace Sys2Proof.Proofs
open Sys2Proof Sys2Proof.Machine Sys2Proof.Laws
set_option Elab.async false

/-! ### SLOW -/

theorem enterSlow_state (n : Nat) (s : State) : (enterSlow n s).rd .WP_STATE n = 2 := by
  unfold enterSlow
  rw [shown, rd_showTx]
  refine each_induct (P := fun z => z.rd .WP_STATE n = 2) _ ?_ fun k z hz => ?_
  · rw [applyCtl, modWp_rd]
    exact rd_wr s .WP_STATE 2 n 0
  · have hset (v : Nat) : (setLane n k v z).rd .WP_STATE n = 2 :=
      ((moves_setLane (.refl foot_setLane z) (within_self _)).reg .WP_STATE n 0 (by decide +kernel)).trans hz
    dsimp only
    split
    · exact hset 0
    split
    · exact hset 1
    · exact hz

theorem trainKept_enterSlow (n : Nat) (s : State) : TrainKept s (enterSlow n s) := by
  have hlane (k : Nat) (z : State) : TrainKept z (if !laneEn z n k && z.rd .WP_LSTATE n k != 0 then setLane n k 0 z
      else if laneEn z n k && z.rd .WP_LSTATE n k == 0 then setLane n k 1 z else z) := by
    split
    · exact trainKept_setLane ..
    split
    · exact trainKept_setLane ..
    · exact .refl z
  have hstart : TrainKept s (applyCtl n (s.wr .WP_STATE 2 n)) := (trainKept_applyCtl ..).after rfl
  exact trainKept_shown (f := fun s => each [0, 1, 2, 3] (fun k s => if !laneEn s n k && s.rd .WP_LSTATE n k != 0 then setLane n k 0 s
      else if laneEn s n k && s.rd .WP_LSTATE n k == 0 then setLane n k 1 s else s) (applyCtl n (s.wr .WP_STATE 2 n)))
    (hstart.trans (.each hlane _))

/-- The partner's clock is stable, and its difference shows. -/
def clockShown (n : Nat) (s : State) : State :=
  draw (((s.wr .WP_CLK_LOCK 1 n).wr .WP_CK_LOCK 1 n).wr .WP_CK_DETECT 1 n) (fun k s => s.wr .WP_CK_FREQ_ERR k n)

theorem clockShown_rd (n : Nat) (s : State) : (clockShown n s).rd .WP_CLK_LOCK n = 1 ∧ (clockShown n s).rd .WP_CK_LOCK n = 1 ∧
    (clockShown n s).rd .WP_CK_DETECT n = 1 ∧ (clockShown n s).rd .WP_STATE n = s.rd .WP_STATE n := by
  have hdrawn (f : Fld) (hf : f ≠ .WP_CK_FREQ_ERR) : (clockShown n s).rd f n =
      (((s.wr .WP_CLK_LOCK 1 n).wr .WP_CK_LOCK 1 n).wr .WP_CK_DETECT 1 n).rd f n :=
    (rd_wr_ne { ((s.wr .WP_CLK_LOCK 1 n).wr .WP_CK_LOCK 1 n).wr .WP_CK_DETECT 1 n with free := s.free + 1 } fun e => hf e.1).trans
      (rd_of_regs rfl ..)
  rw [hdrawn .WP_CLK_LOCK nofun, hdrawn .WP_CK_LOCK nofun, hdrawn .WP_CK_DETECT nofun, hdrawn .WP_STATE nofun]
  refine ⟨?_, ?_, rd_wr .., ?_⟩
  · rw [rd_wr_ne _ (by rintro ⟨⟨⟩, -⟩), rd_wr_ne _ (by rintro ⟨⟨⟩, -⟩)]
    exact rd_wr ..
  · rw [rd_wr_ne _ (by rintro ⟨⟨⟩, -⟩)]
    exact rd_wr ..
  · rw [rd_wr_ne _ (by rintro ⟨⟨⟩, -⟩), rd_wr_ne _ (by rintro ⟨⟨⟩, -⟩), rd_wr_ne _ (by rintro ⟨⟨⟩, -⟩)]

theorem clock_stable {wl : Wl} {s : State} (hst : s.rd .WP_STATE wl = 1) (hon : phyOn s wl = true) :
    Completes (.partnerClockStable wl) s (fun t => t.rd .WP_STATE wl = 2 ∧ t.rd .WP_CLK_LOCK wl = 1 ∧
      t.rd .WP_CK_LOCK wl = 1 ∧ t.rd .WP_CK_DETECT wl = 1 ∧ (t.wp wl).clockSeen = true) := by
  have hexec : exec (.partnerClockStable wl) s = .next (clockShown wl (enterSlow wl (s.modWp wl (fun w => { w with clockSeen := true })))) :=
    congrArg Host.Outcome.next (when_of _ s (by simp [hst, hon]))
  obtain ⟨hlock, hck, hdetect, hstate⟩ := clockShown_rd wl (enterSlow wl (s.modWp wl (fun w => { w with clockSeen := true })))
  refine ⟨_, hexec, hstate.trans (enterSlow_state ..), hlock, hck, hdetect, ?_⟩
  refine (congrArg Trained.clockSeen ((trainKept_enterSlow wl (s.modWp wl (fun w => { w with clockSeen := true }))).trains wl)).trans ?_
  rw [wp_modWp_self]
  rfl

/-! ### TS2 -/

section
variable {wl : Wl} {blocks : List (Fin 4 × Bytes)} {x : Ts2} {s : State}

theorem ts2_ignored (h : ts2Of blocks = none) : exec (.ts2Exchanged wl blocks) s = .next s := by
  show execTs2Exchanged wl blocks s = .next s
  unfold execTs2Exchanged
  rw [h]

variable (hts2 : ts2Of blocks = some x) (hon : phyOn s wl = true) (hst : s.rd .WP_STATE wl = 2)
include hts2 hon hst

theorem exec_ts2 : exec (.ts2Exchanged wl blocks) s = .next (slowTs2 wl x s) := by
  show execTs2Exchanged wl blocks s = .next (slowTs2 wl x s)
  unfold execTs2Exchanged
  rw [hts2]
  dsimp only
  rw [hon, if_neg (by decide), if_pos hst]

theorem ts2_conflicts (hrole : roleConflict s wl x = true) : Completes (.ts2Exchanged wl blocks) s (fun t => t.rd .WP_ROLE_CONFLICT wl = 1 ∧
    t.rd .WP_FAIL_CNT wl = (s.rd .WP_FAIL_CNT wl + 1) % 2 ^ 64) := by
  have hkept := moves_ts2Kept wl x s
  have hslow : slowTs2 wl x s = failAttempt wl true ((sendTs2 wl (keepTs2 wl x s)).wr .WP_ROLE_CONFLICT 1 wl) :=
    if_pos ((roleConflict_kept hkept wl x).trans hrole)
  refine ⟨_, (exec_ts2 hts2 hon hst).trans (congrArg Host.Outcome.next hslow), ?_, ?_⟩
  · rw [(moves_failAttempt (.refl foot_failAttempt _) (within_self _)).reg .WP_ROLE_CONFLICT wl 0 (by decide +kernel)]
    exact rd_wr ..
  · obtain ⟨-, hcnt, -⟩ := failAttempt_spec wl true ((sendTs2 wl (keepTs2 wl x s)).wr .WP_ROLE_CONFLICT 1 wl)
    rw [hcnt, rd_wr_ne _ (by rintro ⟨⟨⟩, -⟩), hkept.reg .WP_FAIL_CNT wl 0 (by decide +kernel)]

variable (hrole : roleConflict s wl x = false) (hkey : claimsKey s wl x = true)
include hrole hkey

theorem ts2_no_choice (hnone : choice (sendTs2 wl (keepTs2 wl x s)) wl x 15 = none) :
    Completes (.ts2Exchanged wl blocks) s (fun t => t.rd .WP_TRAIN_FAIL wl = 1 ∧
      t.rd .WP_FAIL_CNT wl = (s.rd .WP_FAIL_CNT wl + 1) % 2 ^ 64) := by
  have hkept := moves_ts2Kept wl x s
  have hslow : slowTs2 wl x s = failAttempt wl false (sendTs2 wl (keepTs2 wl x s)) := by
    unfold slowTs2
    dsimp only
    rw [roleConflict_kept hkept, hrole, if_neg Bool.false_ne_true, claimsKey_kept hkept, hkey, if_neg (by decide), hnone]
  obtain ⟨hfail, hcnt, -⟩ := failAttempt_spec wl false (sendTs2 wl (keepTs2 wl x s))
  refine ⟨_, (exec_ts2 hts2 hon hst).trans (congrArg Host.Outcome.next hslow), hfail, ?_⟩
  rw [hcnt, hkept.reg .WP_FAIL_CNT wl 0 (by decide +kernel)]

theorem ts2_chosen {r set : Nat} (hsome : choice (sendTs2 wl (keepTs2 wl x s)) wl x 15 = some (r, set)) :
    Completes (.ts2Exchanged wl blocks) s (fun t => (t.wp wl).chosenRate = r ∧ (t.wp wl).chosenSet = set ∧
      (t.wp wl).ts2 = some x ∧ t.rd .WP_STATE wl = 2 ∧ ∃ bs, t.out.getLast? = some (.train wl bs) ∧
        ∀ b ∈ bs, num b.2 1 1 = 3 ∧ num b.2 4 1 = r ∧ num b.2 5 1 = set) := by
  have hkept := moves_ts2Kept wl x s
  have hslow : slowTs2 wl x s = sendTs3 wl (takeChoice wl r set (markExcluded wl set (sendTs2 wl (keepTs2 wl x s)))) := by
    unfold slowTs2
    dsimp only
    rw [roleConflict_kept hkept, hrole, if_neg Bool.false_ne_true, claimsKey_kept hkept, hkey, if_neg (by decide), hsome]
  obtain ⟨hr, hset⟩ := choice_fits hsome
  have hkeptTs2 := ts2Kept_ts2 wl x s
  have hmark := moves_markExcluded (n := wl) (set := set) (.refl foot_markExcluded (sendTs2 wl (keepTs2 wl x s))) (within_self _)
  have hstate : (markExcluded wl set (sendTs2 wl (keepTs2 wl x s))).rd .WP_STATE wl = 2 := by
    rw [hmark.reg .WP_STATE wl 0 (by decide +kernel), hkept.reg .WP_STATE wl 0 (by decide +kernel), hst]
  have hwp := wp_of_wps (hmark.part .wps (by decide +kernel)) wl
  rw [← hwp] at hkeptTs2
  generalize markExcluded wl set (sendTs2 wl (keepTs2 wl x s)) = u at hslow hstate hkeptTs2
  have hchosen : (takeChoice wl r set u).wp wl = { u.wp wl with chosenRate := r, chosenSet := set, chose := true } := wp_modWp_self ..
  refine ⟨_, (exec_ts2 hts2 hon hst).trans (congrArg Host.Outcome.next hslow), congrArg WpS.chosenRate hchosen, congrArg WpS.chosenSet hchosen,
    (congrArg WpS.ts2 hchosen).trans hkeptTs2, hstate, ?_⟩
  obtain ⟨bs, hlast, hbs⟩ := sendTrain_last wl 3 ((takeChoice wl r set u).wp wl).chosenRate ((takeChoice wl r set u).wp wl).chosenSet
    (takeChoice wl r set u)
  refine ⟨bs, hlast, fun b hb => ?_⟩
  obtain ⟨htyp, hrate, hlanes, -⟩ := hbs b hb
  rw [hchosen] at hrate hlanes
  exact ⟨htyp, hrate.trans (Nat.mod_eq_of_lt (hr.trans (by decide))), hlanes.trans (Nat.mod_eq_of_lt (hset.trans (by decide)))⟩

end

/-! ### SWITCH and FAST -/

theorem enterSwitch_state (n : Nat) (s : State) : (enterSwitch n s).rd .WP_STATE n = 3 := by
  unfold enterSwitch
  rw [shown, rd_showTx]
  exact rd_wr ..

theorem trainKept_enterSwitch (n : Nat) (s : State) : TrainKept s (enterSwitch n s) :=
  trainKept_shown (f := fun s => s.wr .WP_STATE 3 n) (.of_wps rfl)

theorem ts3_agrees {wl : Wl} {rate : Fin 4} {set : Fin 16} {s : State} (hst : s.rd .WP_STATE wl = 2) (hts2 : (s.wp wl).ts2.isSome = true)
    (hagree : ts3Agrees s wl rate set = true) : Completes (.ts3Echoed wl rate set) s (fun t => t.rd .WP_STATE wl = 3 ∧
      (t.wp wl).chosenRate = rate ∧ (t.wp wl).chosenSet = set) := by
  have hadopt : TrainKept (takeChoice wl rate set s) (enterSwitch wl (adoptTs3 wl rate set s)) := by
    refine TrainKept.trans (TrainKept.when ?_) (trainKept_enterSwitch ..)
    exact TrainKept.trans (.of_moves (moves_markExcluded (.refl foot_markExcluded _) (within_self _))) (trainKept_sendTrain ..)
  have hchosen : (takeChoice wl rate set s).wp wl = { s.wp wl with chosenRate := rate, chosenSet := set, chose := true } := wp_modWp_self ..
  refine ⟨_, congrArg Host.Outcome.next (when_of _ s (by simp [hst, hts2, hagree])), enterSwitch_state .., ?_, ?_⟩
  · exact (congrArg Trained.chosenRate (hadopt.trains wl)).trans (congrArg WpS.chosenRate hchosen)
  · exact (congrArg Trained.chosenSet (hadopt.trains wl)).trans (congrArg WpS.chosenSet hchosen)

theorem switch_done {wl : Wl} {s : State} (hst : s.rd .WP_STATE wl = 3) (hr : (s.wp wl).chosenRate < 4) :
    Completes (.switchDone wl) s (fun t => t.rd .WP_STATE wl = 4 ∧ t.rd .WP_CUR_RATE wl = (s.wp wl).chosenRate ∧
      ∃ bs, t.out.getLast? = some (.train wl bs) ∧ ∀ b ∈ bs, num b.2 1 1 = 1) := by
  refine ⟨_, congrArg Host.Outcome.next (when_of _ s (beq_iff_eq.2 hst)), ?_, ?_, ?_⟩
  · rw [(moves_sendTs1 (.refl foot_sendTs1 _) (within_self _)).reg .WP_STATE wl 0 (by decide +kernel), shown, rd_showTx]
    exact (rd_wr_ne _ (by rintro ⟨⟨⟩, -⟩)).trans (rd_wr ..)
  · rw [(moves_sendTs1 (.refl foot_sendTs1 _) (within_self _)).reg .WP_CUR_RATE wl 0 (by decide +kernel), shown, rd_showTx]
    exact (rd_wr ..).trans (Nat.mod_eq_of_lt hr)
  · obtain ⟨bs, hlast, hbs⟩ := sendTrain_last wl 1 _ 0 _
    exact ⟨bs, hlast, fun b hb => (hbs b hb).1⟩

end Sys2Proof.Proofs
end

section
/-!
Lanes that become ACTIVE, and training as a whole (R170 to R172, Table WP-6).
-/
namespace Sys2Proof.Proofs
open Sys2Proof Sys2Proof.Machine Sys2Proof.Laws
set_option Elab.async false

/-- What lanes move that become ACTIVE, before the link layer hears of it. -/
def activeFoot : Nat := foot_setLane ||| Part.wps.bit ||| fms
  [.WP_RATE_CHG, .WP_STATE, .WP_CUR_RATE, .WP_CLK_LOCK, .WP_CK_LOCK, .WP_ACTIVE_MASK, .WL_ACTIVE_SET, .WP_TRAIN_CNT]

/-- A lane that trained is ACTIVE in the set, in STANDBY where the partner has it, and FAILED where it has not. -/
def laneTaken (n set own k : Nat) (s : State) : State :=
  let st := if s.rd .WP_LSTATE n k = 5 then (s.wp n).prevL.getD k 0 else s.rd .WP_LSTATE n k
  if st != 1 then s else setLane n k (if set.testBit (logicalOf s n k) then 2 else if own.testBit (logicalOf s n k) then 3 else 6) s

/-- Lanes that become ACTIVE show it, with the rate and the set in use, and then the link layer hears of it. -/
theorem enterActive_lanes (n rate set : Nat) (s : State) : ∃ u, enterActive n rate set s = linkPhysActive n u ∧ Moves activeFoot s u ∧
    u.rd .WP_STATE n = 5 ∧ u.rd .WP_CUR_RATE n = rate % 2 ^ Fld.WP_CUR_RATE.width ∧
    u.rd .WP_TRAIN_CNT n = (s.rd .WP_TRAIN_CNT n + 1) % 2 ^ 64 ∧ (u.wp n).txSet = set ∧ (u.wp n).rxSet = set := by
  unfold enterActive shown
  beta_reduce
  extract_lets w own changed s1 s2 s3 u
  have h2 : Moves (Part.wps.bit ||| fms [.WP_RATE_CHG]) s s2 :=
    moves_modWp (moves_when (.refl _ s) fun z hz => moves_wr (f := .WP_RATE_CHG) hz (by unfold Within; decide +kernel)) (by unfold Within; decide +kernel)
  have hsets : (s2.wp n).txSet = set ∧ (s2.wp n).rxSet = set := by
    rw [show s2.wp n = _ from wp_modWp_self ..]
    exact ⟨rfl, rfl⟩
  clear_value s2
  have h3 : Moves activeFoot s s3 := by
    refine moves_inc (f := .WP_TRAIN_CNT) ?_ (by unfold Within; decide +kernel)
    refine moves_wr (f := .WL_ACTIVE_SET) ?_ (by unfold Within; decide +kernel)
    refine moves_wr (f := .WP_ACTIVE_MASK) ?_ (by unfold Within; decide +kernel)
    refine moves_wr (f := .WP_CK_LOCK) ?_ (by unfold Within; decide +kernel)
    refine moves_wr (f := .WP_CLK_LOCK) ?_ (by unfold Within; decide +kernel)
    refine moves_wr (f := .WP_CUR_RATE) ?_ (by unfold Within; decide +kernel)
    exact moves_wr (f := .WP_STATE) (Moves.mono h2 (by unfold Within; decide +kernel)) (by unfold Within; decide +kernel)
  have hother (f : Fld) (hf : [Fld.WP_TRAIN_CNT, .WL_ACTIVE_SET, .WP_ACTIVE_MASK, .WP_CK_LOCK, .WP_CLK_LOCK].all (· != f) = true) :
      s3.rd f n = ((s2.wr .WP_STATE 5 n).wr .WP_CUR_RATE rate n).rd f n := by
    simp only [List.all_cons, List.all_nil, Bool.and_true, Bool.and_eq_true, bne_iff_ne] at hf
    obtain ⟨h0, h1, h2, h3, h4⟩ := hf
    exact (rd_wr_ne _ fun e => h0 e.1.symm).trans ((rd_wr_ne _ fun e => h1 e.1.symm).trans ((rd_wr_ne _ fun e => h2 e.1.symm).trans
      ((rd_wr_ne _ fun e => h3 e.1.symm).trans (rd_wr_ne _ fun e => h4 e.1.symm))))
  have hstate : s3.rd .WP_STATE n = 5 := (hother .WP_STATE (by decide)).trans ((rd_wr_ne _ (by rintro ⟨⟨⟩, -⟩)).trans (rd_wr ..))
  have hrate : s3.rd .WP_CUR_RATE n = rate % 2 ^ Fld.WP_CUR_RATE.width := (hother .WP_CUR_RATE (by decide)).trans (rd_wr ..)
  have hcnt : s3.rd .WP_TRAIN_CNT n = (s.rd .WP_TRAIN_CNT n + 1) % 2 ^ 64 := by
    refine (rd_wr ..).trans (congrArg (fun v => (v + 1) % 2 ^ 64) ?_)
    exact (rd_wr_ne _ (by rintro ⟨⟨⟩, -⟩)).trans ((rd_wr_ne _ (by rintro ⟨⟨⟩, -⟩)).trans ((rd_wr_ne _ (by rintro ⟨⟨⟩, -⟩)).trans
      ((rd_wr_ne _ (by rintro ⟨⟨⟩, -⟩)).trans ((rd_wr_ne _ (by rintro ⟨⟨⟩, -⟩)).trans ((rd_wr_ne _ (by rintro ⟨⟨⟩, -⟩)).trans
        (h2.reg .WP_TRAIN_CNT n 0 (by decide +kernel)))))))
  have hwp : s3.wp n = s2.wp n := rfl
  clear_value s3
  have hlanes : Moves foot_setLane s3 u ∧ TrainKept s3 u := by
    have hlane (k : Nat) (z : State) : Moves foot_setLane z (laneTaken n set own k z) ∧ TrainKept z (laneTaken n set own k z) := by
      unfold laneTaken
      extract_lets st
      split
      · exact ⟨.refl _ z, .refl z⟩
      · exact ⟨moves_setLane (.refl _ z) (within_self _), trainKept_setLane ..⟩
    have hall : Moves foot_setLane s3 (each [0, 1, 2, 3] (laneTaken n set own) s3) ∧ TrainKept s3 (each [0, 1, 2, 3] (laneTaken n set own) s3) :=
      ⟨moves_each (.refl _ s3) fun k z hz => hz.trans (hlane k z).1, .each (fun k z => (hlane k z).2) s3⟩
    exact ⟨hall.1.trans (Moves.mono (moves_showTx_zero n s _) (Nat.zero_and _)), hall.2.trans (trainKept_showTx ..)⟩
  obtain ⟨hmoves, htrain⟩ := hlanes
  refine ⟨u, rfl, h3.trans (Moves.mono hmoves (by unfold Within; decide +kernel)), ?_, ?_, ?_, ?_, ?_⟩
  · rw [hmoves.reg .WP_STATE n 0 (by decide +kernel), hstate]
  · rw [hmoves.reg .WP_CUR_RATE n 0 (by decide +kernel), hrate]
  · rw [hmoves.reg .WP_TRAIN_CNT n 0 (by decide +kernel), hcnt]
  · exact (congrArg Trained.txSet (htrain.trains n)).trans ((congrArg WpS.txSet hwp).trans hsets.1)
  · exact (congrArg Trained.rxSet (htrain.trains n)).trans ((congrArg WpS.rxSet hwp).trans hsets.2)

/-! ### The link layer hears of it -/

/-- A link that starts, or starts again, sends INIT. -/
theorem startInit_spec (n : Nat) (resume : Bool) (s : State) :
    (startInit n resume s).rd .WL_LSTATE n = 1 ∧ ((startInit n resume s).wl n).resume = resume := by
  unfold startInit
  extract_lets s1 s2
  refine ⟨?_, ?_⟩
  · rw [(moves_sendInit (.refl foot_sendInit _) (within_self _)).reg .WL_LSTATE n 0 (by decide +kernel)]
    exact rd_wr s2 .WL_LSTATE 1 n 0
  · have hwl : (s2.wl n).resume = resume := congrArg WlS.resume (wl_modWl_self ..)
    unfold sendInit
    rw [State.wl, emitGrain_wls, ← State.wl, wl_modWl_self]
    exact hwl

theorem linkPhysActive_state (n : Nat) (s : State) : (linkPhysActive n s).rd .WP_STATE n = s.rd .WP_STATE n :=
  (moves_linkPhysActive (.refl foot_linkPhysActive s) (within_self _)).reg .WP_STATE n 0 (by decide +kernel)

/-- Lanes that become ACTIVE show it, and a link that waited for them starts or resumes. -/
theorem enterActive_spec (n rate set : Nat) (s : State) : (enterActive n rate set s).rd .WP_STATE n = 5 ∧
    (enterActive n rate set s).rd .WP_CUR_RATE n = rate % 2 ^ Fld.WP_CUR_RATE.width ∧
    (enterActive n rate set s).rd .WP_TRAIN_CNT n = (s.rd .WP_TRAIN_CNT n + 1) % 2 ^ 64 ∧
    ((enterActive n rate set s).wp n).txSet = set ∧ ((enterActive n rate set s).wp n).rxSet = set ∧
    (s.rd .WL_LSTATE n = 0 → (enterActive n rate set s).rd .WL_LSTATE n = 1) ∧
    (s.rd .WL_LSTATE n = 4 → (enterActive n rate set s).rd .WL_LSTATE n = 1 ∧ ((enterActive n rate set s).wl n).resume = true) := by
  obtain ⟨u, he, hmoves, hstate, hrate, hcnt, htx, hrx⟩ := enterActive_lanes n rate set s
  have hlink : u.rd .WL_LSTATE n = s.rd .WL_LSTATE n := hmoves.reg .WL_LSTATE n 0 (by decide +kernel)
  have hkept (f : Fld) (hf : foot_linkPhysActive.testBit (fbit f) = false) : (linkPhysActive n u).rd f n = u.rd f n :=
    (moves_linkPhysActive (.refl foot_linkPhysActive u) (within_self _)).reg f n 0 hf
  have htrained := (trainKept_linkPhysActive n u).trains n
  rw [he]
  refine ⟨?_, ?_, ?_, ?_, ?_, fun h => ?_, fun h => ?_⟩
  · rw [linkPhysActive_state, hstate]
  · rw [hkept _ (by decide +kernel), hrate]
  · rw [hkept _ (by decide +kernel), hcnt]
  · exact (congrArg Trained.txSet htrained).trans htx
  · exact (congrArg Trained.rxSet htrained).trans hrx
  · have hstart : linkPhysActive n u = startInit n false u := by
      unfold linkPhysActive
      simp only [hlink, h]
    rw [hstart]
    exact (startInit_spec n false u).1
  · have hstart : linkPhysActive n u = startInit n true u := by
      unfold linkPhysActive
      simp only [hlink, h]
    rw [hstart]
    exact startInit_spec n true u

/-! ### Training as a whole -/

section
variable {wl : Wl} {s : State}

theorem fast_confirmed (hst : s.rd .WP_STATE wl = 4) (hr : (s.wp wl).chosenRate < 4) :
    Completes (.fastConfirmed wl) s (fun t => t.rd .WP_STATE wl = 5 ∧ t.rd .WP_CUR_RATE wl = (s.wp wl).chosenRate ∧
      (t.wp wl).txSet = (s.wp wl).chosenSet ∧ (t.wp wl).rxSet = (s.wp wl).chosenSet ∧
      t.rd .WP_TRAIN_CNT wl = (s.rd .WP_TRAIN_CNT wl + 1) % 2 ^ 64 ∧ (s.rd .WL_LSTATE wl = 0 → t.rd .WL_LSTATE wl = 1) ∧
      (s.rd .WL_LSTATE wl = 4 → t.rd .WL_LSTATE wl = 1 ∧ (t.wl wl).resume = true)) := by
  have hsent : Moves (foot_sendTs2 ||| foot_sendTs3) s (sendTs3 wl (sendTs2 wl s)) :=
    moves_sendTs3 (moves_sendTs2 (.refl _ s) (by unfold Within; decide +kernel)) (by unfold Within; decide +kernel)
  obtain ⟨hstate, hrate, hcnt, htx, hrx, hstart, hresume⟩ :=
    enterActive_spec wl (s.wp wl).chosenRate (s.wp wl).chosenSet (sendTs3 wl (sendTs2 wl s))
  rw [hsent.reg .WP_TRAIN_CNT wl 0 (by decide +kernel)] at hcnt
  rw [hsent.reg .WL_LSTATE wl 0 (by decide +kernel)] at hstart hresume
  exact ⟨_, congrArg Host.Outcome.next (when_of _ s (beq_iff_eq.2 hst)), hstate, hrate.trans (Nat.mod_eq_of_lt hr), htx, hrx, hcnt, hstart, hresume⟩

theorem attempt_times_out (hst : s.rd .WP_STATE wl = 2 ∨ s.rd .WP_STATE wl = 3 ∨ s.rd .WP_STATE wl = 4 ∨ s.rd .WP_STATE wl = 6 ∨
    (s.rd .WP_STATE wl = 1 ∧ (s.wp wl).clockSeen = true)) :
    Completes (.trainAttemptTimeout wl) s (fun t => t.rd .WP_FAIL_CNT wl = (s.rd .WP_FAIL_CNT wl + 1) % 2 ^ 64 ∧
      t.rd .WP_TRAIN_FAIL wl = 1 ∧ t.rd .WP_STATE wl = if phyCan s wl then 1 else 0) := by
  obtain ⟨hfail, hcnt, hstate⟩ := failAttempt_spec wl false s
  refine ⟨_, congrArg Host.Outcome.next (when_of _ s ?_), hcnt, hfail, hstate⟩
  obtain h | h | h | h | ⟨h, hseen⟩ := hst
  · simp [h]
  · simp [h]
  · simp [h]
  · simp [h]
  · simp [h, hseen]

/-- The partner's clock is gone from a link whose lanes are ACTIVE. -/
def clockLost (n : Nat) (s : State) : State :=
  ((((s.wr .WP_CLK_LOCK 0 n).wr .WP_CK_LOCK 0 n).wr .WP_CK_DETECT 0 n).wr .WP_CLK_LOST 1 n).inc .WP_CLKLOST_CNT n

theorem clockLost_spec (n : Nat) (s : State) : (clockLost n s).rd .WP_STATE n = s.rd .WP_STATE n ∧ (clockLost n s).rd .WP_CLK_LOST n = 1 ∧
    (clockLost n s).rd .WP_CLKLOST_CNT n = (s.rd .WP_CLKLOST_CNT n + 1) % 2 ^ 64 := by
  refine ⟨?_, (rd_wr_ne _ (by rintro ⟨⟨⟩, -⟩)).trans (rd_wr ..), (rd_wr ..).trans (congrArg (fun v => (v + 1) % 2 ^ 64) ?_)⟩
  · exact (rd_wr_ne _ (by rintro ⟨⟨⟩, -⟩)).trans ((rd_wr_ne _ (by rintro ⟨⟨⟩, -⟩)).trans ((rd_wr_ne _ (by rintro ⟨⟨⟩, -⟩)).trans
      ((rd_wr_ne _ (by rintro ⟨⟨⟩, -⟩)).trans (rd_wr_ne _ (by rintro ⟨⟨⟩, -⟩)))))
  · exact (rd_wr_ne _ (by rintro ⟨⟨⟩, -⟩)).trans ((rd_wr_ne _ (by rintro ⟨⟨⟩, -⟩)).trans ((rd_wr_ne _ (by rintro ⟨⟨⟩, -⟩)).trans
      (rd_wr_ne _ (by rintro ⟨⟨⟩, -⟩))))

theorem clock_lost (hst : s.rd .WP_STATE wl = 5) :
    Completes (.partnerClockLost wl) s (fun t => t.rd .WP_STATE wl = 6 ∧ t.rd .WP_CLK_LOST wl = 1 ∧
      t.rd .WP_CLKLOST_CNT wl = (s.rd .WP_CLKLOST_CNT wl + 1) % 2 ^ 64) := by
  have hexec : exec (.partnerClockLost wl) s = .next (enterRetrain wl (laneFault wl (clockLost wl s))) := by
    show execPartnerClockLost wl s = _
    unfold execPartnerClockLost
    dsimp only
    rw [hst]
    rfl
  obtain ⟨hstate, hlost, hcnt⟩ := clockLost_spec wl s
  have hfault := moves_laneFault (n := wl) (.refl foot_laneFault (clockLost wl s)) (within_self _)
  have hretrain := moves_enterRetrain (n := wl) (.refl foot_enterRetrain (laneFault wl (clockLost wl s))) (within_self _)
  refine ⟨_, hexec, enterRetrain_state ?_, ?_, ?_⟩
  · rw [hfault.reg .WP_STATE wl 0 (by decide +kernel), hstate, hst]
  · rw [hretrain.reg .WP_CLK_LOST wl 0 (by decide +kernel), hfault.reg .WP_CLK_LOST wl 0 (by decide +kernel), hlost]
  · rw [hretrain.reg .WP_CLKLOST_CNT wl 0 (by decide +kernel), hfault.reg .WP_CLKLOST_CNT wl 0 (by decide +kernel), hcnt]

end

/-- Settles O47: each event takes the lanes to the state that Table WP-6 names, and what follows of it at the link layer and
at the Ward moves none of the fields it sets. -/
theorem laneTraining : Obligations.LaneTraining := by
  refine ⟨fun wl s => clock_stable, fun wl blocks x s hts2 hon hst => ⟨fun hrole hkey => ⟨fun r set => ts2_chosen hts2 hon hst hrole hkey,
    ts2_no_choice hts2 hon hst hrole hkey⟩, ts2_conflicts hts2 hon hst⟩, fun wl blocks s => ts2_ignored, fun wl rate set s => ts3_agrees,
    fun wl rate set s h => congrArg Host.Outcome.next (when_of_not _ s (by simp [h])), fun wl s => switch_done, fun wl s => fast_confirmed,
    fun wl s => attempt_times_out, fun wl s => clock_lost⟩

end Sys2Proof.Proofs
end

section
/-!
Retrain, DISABLE, TRAIN and LOOPBACK of a Weaseif link (R170, R172, R178).
-/
namespace Sys2Proof.Proofs
open Sys2Proof Sys2Proof.Machine Sys2Proof.Laws
set_option Elab.async false

/-! ### Retrain -/

theorem endReshape_replay (n : Nat) (s : State) : ((endReshape n s).wl n).replay = (s.wl n).replay := by
  rw [show (endReshape n s).wl n = (s.modWl n (fun w => { w with
    rsRole := 0, rsStage := 0, rsTicks := 0, rsTxSwitched := false, rsRxSwitched := false, rsReadySent := false
    rsReadyRcvd := false })).wl n from rfl, wl_modWl_self]

theorem dropReshape_replay (n : Nat) (s : State) : ((dropReshape n s).wl n).replay = (s.wl n).replay := by
  have hdrop := wl_of_wls ((moves_dropBackground (n := n) (.refl foot_dropBackground s) (within_self _)).part .wls (by decide +kernel)) n
  exact (congrArg WlS.replay (wl_modWl_self ..)).trans ((endReshape_replay ..).trans (congrArg WlS.replay hdrop))

theorem noteHeld_rtHeld (n : Nat) (s : State) :
    ((s.modWl n (fun w => { w with rtHeld := w.replay.length })).wl n).rtHeld = (s.wl n).replay.length :=
  (congrArg WlS.rtHeld (wl_modWl_self ..)).trans rfl

/-- A retrain of a link that is UP stops its grains and is counted. -/
theorem linkRetrain_up {n : Nat} {s : State} (h : s.rd .WL_LSTATE n = 2) : (linkRetrain n s).rd .WL_LSTATE n = 3 ∧
    (linkRetrain n s).rd .WL_RETRAIN_CNT n = (s.rd .WL_RETRAIN_CNT n + 1) % 2 ^ 64 ∧
    ((linkRetrain n s).wl n).rtHeld = (s.wl n).replay.length := by
  unfold linkRetrain
  simp only [h]
  have hdrop : ((dropReshape n s).modWl n (fun w => { w with rtHeld := w.replay.length })).rd .WL_RETRAIN_CNT n = s.rd .WL_RETRAIN_CNT n := by
    rw [modWl_rd, (moves_dropReshape (n := n) (.refl foot_dropReshape s) (within_self _)).reg .WL_RETRAIN_CNT n 0 (by decide +kernel)]
  have hheld : (((dropReshape n s).modWl n (fun w => { w with rtHeld := w.replay.length })).wl n).rtHeld = (s.wl n).replay.length := by
    rw [noteHeld_rtHeld, dropReshape_replay]
  generalize (dropReshape n s).modWl n (fun w => { w with rtHeld := w.replay.length }) = u at hdrop hheld ⊢
  have htrace (z : State) := moves_trace (kind := 2) (id := n) (code := 0x0102) (arg := 0) (.refl foot_trace z) (within_self _)
  refine ⟨?_, ?_, ?_⟩
  · rw [(htrace _).reg .WL_LSTATE n 0 (by decide +kernel)]
    exact (rd_wr_ne _ (by rintro ⟨⟨⟩, -⟩)).trans (rd_wr ..)
  · rw [(htrace _).reg .WL_RETRAIN_CNT n 0 (by decide +kernel)]
    exact (rd_wr ..).trans (congrArg (fun v => (v + 1) % 2 ^ 64) ((rd_wr_ne _ (by rintro ⟨⟨⟩, -⟩)).trans hdrop))
  · rw [wl_of_wls ((htrace _).part .wls (by decide +kernel))]
    exact hheld

/-- What a retrain of the lanes moves beside what the link layer does. -/
def retrainFoot : Nat := foot_setLane ||| Part.wps.bit ||| fms [.WP_STATE]

/-- Lanes that retrain show TS1 last. -/
theorem enterRetrain_sends {n : Nat} {s : State} (h : s.rd .WP_STATE n = 5) : ∃ u, enterRetrain n s = sendTs1 n u ∧
    Moves retrainFoot (linkRetrain n s) u := by
  unfold enterRetrain
  rw [if_neg (by rw [h]; decide)]
  unfold shown
  beta_reduce
  extract_lets set r s1 s2 u
  refine ⟨u, rfl, ?_⟩
  have h1 : Moves retrainFoot (linkRetrain n s) s1 :=
    moves_applyCtl (moves_wr (f := .WP_STATE) (.refl _ _) (by unfold Within; decide +kernel)) (by unfold Within; decide +kernel)
  have h2 : Moves retrainFoot (linkRetrain n s) s2 := moves_modWp h1 (by unfold Within; decide +kernel)
  clear_value s2
  refine Moves.trans (moves_each h2 fun k z hz => ?_) (Moves.mono (moves_showTx_zero n s _) (Nat.zero_and _))
  have hset (v : Nat) : Moves retrainFoot (linkRetrain n s) (setLane n k v z) := moves_setLane hz (by unfold Within; decide +kernel)
  dsimp only
  split
  · exact hset 0
  split
  · exact hset 1
  split
  · exact hset 3
  · exact hz

theorem retrain_stops {n : Nat} {s : State} (hst : s.rd .WP_STATE n = 5) (hup : s.rd .WL_LSTATE n = 2) :
    (enterRetrain n s).rd .WP_STATE n = 6 ∧ (enterRetrain n s).rd .WL_LSTATE n = 3 ∧
      (enterRetrain n s).rd .WL_RETRAIN_CNT n = (s.rd .WL_RETRAIN_CNT n + 1) % 2 ^ 64 ∧
      ((enterRetrain n s).wl n).rtHeld = (s.wl n).replay.length ∧
      ∃ bs, (enterRetrain n s).out.getLast? = some (.train n bs) ∧ ∀ b ∈ bs, num b.2 1 1 = 1 ∧ num b.2 6 1 = 1 := by
  obtain ⟨u, he, hmoves⟩ := enterRetrain_sends hst
  have hstate := enterRetrain_state hst
  obtain ⟨hlink, hcnt, hheld⟩ := linkRetrain_up hup
  have hsent := moves_sendTs1 (n := n) (.refl foot_sendTs1 u) (within_self _)
  rw [he] at hstate ⊢
  refine ⟨hstate, ?_, ?_, ?_, ?_⟩
  · rw [hsent.reg .WL_LSTATE n 0 (by decide +kernel), hmoves.reg .WL_LSTATE n 0 (by decide +kernel), hlink]
  · rw [hsent.reg .WL_RETRAIN_CNT n 0 (by decide +kernel), hmoves.reg .WL_RETRAIN_CNT n 0 (by decide +kernel), hcnt]
  · rw [wl_of_wls (hsent.part .wls (by decide +kernel)), wl_of_wls (hmoves.part .wls (by decide +kernel)), hheld]
  · obtain ⟨bs, hlast, hbs⟩ := sendTrain_last n 1 (offered u n) 0 u
    rw [hsent.reg .WP_STATE n 0 (by decide +kernel)] at hstate
    refine ⟨bs, hlast, fun b hb => ?_⟩
    obtain ⟨htyp, -, -, hflags⟩ := hbs b hb
    exact ⟨htyp, hflags.trans (by rw [if_pos hstate])⟩

/-! ### The end of a retrain -/

theorem linkPhysActive_resumes {n : Nat} {s : State} (hlink : s.rd .WL_LSTATE n = 3) (hcalm : Calm s n 2) :
    (linkPhysActive n s).rd .WL_LSTATE n = 2 := by
  have hgo : linkPhysActive n s = startReplay n ((s.wr .WL_LSTATE 2 n).wr .WL_REPLAY_COUNT 0 n) := by
    unfold linkPhysActive
    simp only [hlink]
  have hup : ((s.wr .WL_LSTATE 2 n).wr .WL_REPLAY_COUNT 0 n).rd .WL_LSTATE n = 2 := (rd_wr_ne _ (by rintro ⟨⟨⟩, -⟩)).trans (rd_wr ..)
  have hmoved : Moves (fms [.WL_LSTATE, .WL_REPLAY_COUNT]) s ((s.wr .WL_LSTATE 2 n).wr .WL_REPLAY_COUNT 0 n) :=
    moves_wr (f := .WL_REPLAY_COUNT) (moves_wr (f := .WL_LSTATE) (.refl _ s) (by unfold Within; decide +kernel)) (by unfold Within; decide +kernel)
  have hcalm' := calm_kept hcalm hmoved
  rw [hgo]
  generalize (s.wr .WL_LSTATE 2 n).wr .WL_REPLAY_COUNT 0 n = u at hup hcalm'
  unfold startReplay
  split
  · exact hup
  · extract_lets s1 s2
    have h1 : Moves (foot_trace ||| fms [.WL_REPLAY, .WL_REPLAY_CNT]) u ((s1.wr .WL_REPLAY 1 n).inc .WL_REPLAY_CNT n) :=
      moves_inc (f := .WL_REPLAY_CNT) (moves_wr (f := .WL_REPLAY) (moves_trace (.refl _ u) (by unfold Within; decide +kernel))
        (by unfold Within; decide +kernel)) (by unfold Within; decide +kernel)
    have h2 := linkLine_calm (calm_kept hcalm' h1)
    have hreplay : Moves foot_replayAll s2 (when (s2.rd .WL_LSTATE n == 2) (replayAll n) s2) :=
      moves_when (.refl _ s2) fun z hz => moves_replayAll hz (within_self _)
    rw [hreplay.reg .WL_LSTATE n 0 (by decide +kernel), h2.reg .WL_LSTATE n 0 (by decide +kernel), h1.reg .WL_LSTATE n 0 (by decide +kernel), hup]

section
variable {wl : Wl} {rate : Fin 4} {set : Fin 16} {s : State}

/-- The choice of a retrain is taken and confirmed. -/
def retrainTaken (n rate set : Nat) (s : State) : State := sendTs3 n (takeChoice n rate set (markExcluded n set s))

theorem moves_retrainTaken (n rate set : Nat) (s : State) :
    Moves (foot_markExcluded ||| foot_takeChoice ||| foot_sendTs3) s (retrainTaken n rate set s) :=
  moves_sendTs3 (moves_takeChoice (moves_markExcluded (.refl _ s) (by unfold Within; decide +kernel)) (by unfold Within; decide +kernel))
    (by unfold Within; decide +kernel)

variable (hst : s.rd .WP_STATE wl = 6) (hon : phyOn s wl = true) (hchoice : retrainChoice s wl rate set = some (rate.val, set.val))
include hst hon hchoice

theorem exec_retrainDone : exec (.retrainDone wl rate set) s = .next (if rate.val = (retrainTaken wl rate set s).rd .WP_CUR_RATE wl then
    enterActive wl rate set (retrainTaken wl rate set s) else enterSwitch wl (retrainTaken wl rate set s)) := by
  refine congrArg Host.Outcome.next ((when_of _ s (by simp [hst, hon])).trans ?_)
  rw [hchoice]
  dsimp only
  rw [bne_self_eq_false, bne_self_eq_false, if_neg (by decide)]
  rfl

theorem retrain_resumes (hr : rate.val = s.rd .WP_CUR_RATE wl) (hlink : s.rd .WL_LSTATE wl = 3) :
    Completes (.retrainDone wl rate set) s (fun t => t.rd .WP_STATE wl = 5 ∧ (t.wp wl).txSet = set ∧
      (Calm s wl 2 → t.rd .WL_LSTATE wl = 2)) := by
  have hmoves := moves_retrainTaken wl rate set s
  have hsame : rate.val = (retrainTaken wl rate set s).rd .WP_CUR_RATE wl := hr.trans (hmoves.reg .WP_CUR_RATE wl 0 (by decide +kernel)).symm
  obtain ⟨u, he, hactive, -⟩ := enterActive_lanes wl rate set (retrainTaken wl rate set s)
  obtain ⟨hstate, -, -, htx, -⟩ := enterActive_spec wl rate set (retrainTaken wl rate set s)
  refine ⟨_, (exec_retrainDone hst hon hchoice).trans (congrArg Host.Outcome.next (if_pos hsame)), hstate, htx, fun hcalm => ?_⟩
  rw [he]
  refine linkPhysActive_resumes ?_ (calm_kept (calm_kept hcalm hmoves) hactive)
  rw [hactive.reg .WL_LSTATE wl 0 (by decide +kernel), hmoves.reg .WL_LSTATE wl 0 (by decide +kernel), hlink]

theorem retrain_switches (hr : rate.val ≠ s.rd .WP_CUR_RATE wl) :
    Completes (.retrainDone wl rate set) s (fun t => t.rd .WP_STATE wl = 3 ∧ (t.wp wl).chosenRate = rate ∧
      (t.wp wl).chosenSet = set) := by
  have hmoves := moves_retrainTaken wl rate set s
  have hother : ¬ rate.val = (retrainTaken wl rate set s).rd .WP_CUR_RATE wl := by
    rw [hmoves.reg .WP_CUR_RATE wl 0 (by decide +kernel)]
    exact hr
  have htrained := (trainKept_enterSwitch wl (retrainTaken wl rate set s)).trains wl
  have hchosen : (retrainTaken wl rate set s).wp wl =
      { (markExcluded wl set s).wp wl with chosenRate := rate.val, chosenSet := set.val, chose := true } :=
    wp_modWp_self (markExcluded wl set s) wl (fun w => { w with chosenRate := rate.val, chosenSet := set.val, chose := true })
  rw [hchosen] at htrained
  exact ⟨_, (exec_retrainDone hst hon hchoice).trans (congrArg Host.Outcome.next (if_neg hother)), enterSwitch_state ..,
    congrArg Trained.chosenRate htrained, congrArg Trained.chosenSet htrained⟩

end

end Sys2Proof.Proofs
end

section
/-!
DISABLE, TRAIN and LOOPBACK of a Weaseif link, and the control of its lanes as a whole (R170, R172, R178).
-/
namespace Sys2Proof.Proofs
open Sys2Proof Sys2Proof.Machine Sys2Proof.Laws
set_option Elab.async false

theorem enterLoopback_state (n : Nat) (s : State) : (enterLoopback n s).rd .WP_STATE n = 7 := by
  unfold enterLoopback
  rw [(moves_showSelftest (.refl foot_showSelftest _) (within_self _)).reg .WP_STATE n 0 (by decide +kernel), shown, rd_showTx, setLanes_state]
  exact clearTraining_state ..

theorem linkPhysDown_state (n : Nat) (s : State) : (linkPhysDown n s).rd .WP_STATE n = s.rd .WP_STATE n :=
  (moves_linkPhysDown (.refl foot_linkPhysDown s) (within_self _)).reg .WP_STATE n 0 (by decide +kernel)

/-! ### DISABLE -/

theorem goDisabled_state (n : Nat) (s : State) : (goDisabled n s).rd .WP_STATE n = 0 := by
  unfold goDisabled
  by_cases h : s.rd .WP_STATE n = 0
  · rw [when_of_not _ s (by simp [h]), h]
  · rw [when_of _ s (by simp [h]), linkPhysDown_state, enterDisabled_state]

/-- What a write of DISABLE ends with moves neither the bit nor the lanes' state. -/
theorem setDisable_ends (n : Nat) (v : Bool) (s : State) : ∃ u, u = (if v then goDisabled n else leaveDisabled n) (s.wr .WP_DISABLE (if v then 1 else 0) n) ∧
    (setDisable n v s).rd .WP_STATE n = u.rd .WP_STATE n ∧ (setDisable n v s).rd .WP_DISABLE n = if v then 1 else 0 := by
  have hlanes (z : State) : Moves foot_settlePrbs z (shown n (each [0, 1, 2, 3] (fun k s => settlePrbs n k s)) z) :=
    (moves_each (.refl foot_settlePrbs z) fun k y hy => moves_settlePrbs hy (within_self _)).trans
      (Moves.mono (moves_showTx_zero n z _) (Nat.zero_and _))
  have hlink (z : State) : ((if v then goDisabled n else leaveDisabled n) z).rd .WP_DISABLE n = z.rd .WP_DISABLE n := by
    cases v with
    | true => exact (moves_goDisabled (n := n) (.refl foot_goDisabled z) (within_self _)).reg .WP_DISABLE n 0 (by decide +kernel)
    | false => exact (moves_leaveDisabled (n := n) (.refl foot_leaveDisabled z) (within_self _)).reg .WP_DISABLE n 0 (by decide +kernel)
  have heq : setDisable n v s = shown n (each [0, 1, 2, 3] (fun k s => settlePrbs n k s))
      ((if v then goDisabled n else leaveDisabled n) (s.wr .WP_DISABLE (if v then 1 else 0) n)) := by cases v <;> rfl
  refine ⟨_, rfl, ?_, ?_⟩
  · rw [heq, (hlanes _).reg .WP_STATE n 0 (by decide +kernel)]
  · rw [heq, (hlanes _).reg .WP_DISABLE n 0 (by decide +kernel), hlink]
    refine (rd_wr ..).trans ?_
    cases v <;> rfl

section
variable {fn : Fn} {wl : Wl} {s : State}

theorem disable_set (hmay : wpWrites s fn wl = true) :
    Completes (.wlaneDisableWrite fn wl true) s (fun t => t.rd .WP_DISABLE wl = 1 ∧ t.rd .WP_STATE wl = 0) := by
  obtain ⟨u, rfl, hstate, hbit⟩ := setDisable_ends wl true s
  exact ⟨_, congrArg Host.Outcome.next (when_of _ s hmay), hbit, hstate.trans (goDisabled_state ..)⟩

theorem disable_cleared (hmay : wpWrites s fn wl = true) (hst : s.rd .WP_STATE wl = 0) (hcan : phyCan (s.wr .WP_DISABLE 0 wl) wl = true)
    (hloop : s.rd .WP_LOOPBACK wl = 0) :
    Completes (.wlaneDisableWrite fn wl false) s (fun t => t.rd .WP_DISABLE wl = 0 ∧ t.rd .WP_STATE wl = 1) := by
  obtain ⟨u, rfl, hstate, hbit⟩ := setDisable_ends wl false s
  have hleave : leaveDisabled wl (s.wr .WP_DISABLE 0 wl) = enterDetect wl (s.wr .WP_DISABLE 0 wl) := by
    have hst' : (s.wr .WP_DISABLE 0 wl).rd .WP_STATE wl = 0 := (rd_wr_ne _ (by rintro ⟨⟨⟩, -⟩)).trans hst
    have hloop' : (s.wr .WP_DISABLE 0 wl).rd .WP_LOOPBACK wl = 0 := (rd_wr_ne _ (by rintro ⟨⟨⟩, -⟩)).trans hloop
    unfold leaveDisabled
    rw [if_neg (by simp [hst', hcan]), if_neg (by simp [hloop'])]
  refine ⟨_, congrArg Host.Outcome.next (when_of _ s hmay), hbit, hstate.trans ?_⟩
  exact (congrArg (fun z => z.rd .WP_STATE wl) hleave).trans (enterDetect_state ..)

end

/-! ### TRAIN -/

/-- Lanes that start again keep the highest rate still tried. -/
theorem restartPhy_rateCap (n : Nat) (s : State) : ((restartPhy n s).wp n).rateCap = (s.wp n).rateCap := by
  have hcap {a b : State} (h : TrainKept a b) : (b.wp n).rateCap = (a.wp n).rateCap := congrArg Trained.rateCap (h.trains n)
  have hself (z : State) : TrainKept z (showSelftest (wlTiller n) z) := .of_moves (moves_showSelftest (.refl foot_showSelftest z) (within_self _))
  have hts1 (z : State) : TrainKept z (sendTs1 n z) := trainKept_sendTrain ..
  have hclear (st : Nat) (z : State) : TrainKept z (clearTraining n st z) :=
    .of_moves (moves_clearTraining (.refl foot_clearTraining z) (within_self _))
  unfold restartPhy
  split
  · unfold enterDetect shown
    beta_reduce
    extract_lets s1 s2 en s3
    have h1 : TrainKept s s1 := .when (trainKept_applyCtl n s)
    have h2 : (s2.wp n).rateCap = ((clearTraining n 1 s1).wp n).rateCap := by rw [show s2.wp n = _ from wp_modWp_self ..]
    have hend := ((trainKept_setLanes n (fun k => if en.testBit k then 1 else 0) s2).trans (trainKept_showTx n s _)).trans
      ((hts1 _).trans (hself _))
    exact (hcap hend).trans (h2.trans (hcap (h1.trans (hclear ..))))
  · unfold enterDisabled shown
    beta_reduce
    extract_lets s1
    have h1 : TrainKept s s1 := .of_moves (moves_wr (f := .WP_CK_DETECT) (moves_clearTraining
      (.refl (foot_clearTraining ||| fms [.WP_CK_DETECT]) s) (by unfold Within; decide +kernel)) (by unfold Within; decide +kernel))
    clear_value s1
    have hend := ((trainKept_setLanes n (fun _ => 0) (s1.modWp n (fun w =>
      { w with clockSeen := false, roleReported := false, ts2 := none, chose := false }))).trans (trainKept_showTx n s _)).trans (hself _)
    refine (hcap hend).trans (Eq.trans ?_ (hcap h1))
    rw [wp_modWp_self]

theorem train_restarts {fn : Fn} {wl : Wl} {s : State} (hmay : wpWrites s fn wl = true) (hoff : s.rd .WP_STATE wl ≠ 0) (hloop : s.rd .WP_STATE wl ≠ 7) :
    Completes (.wlaneTrainWrite fn wl) s (fun t => t.rd .WP_STATE wl = (if phyCan s wl then 1 else 0) ∧
      (t.wp wl).rateCap = 3 ∧ t.rd .WP_DOWNSHIFT wl = 0) := by
  have hfull : Moves (Part.wps.bit ||| fms [.WP_DOWNSHIFT]) s (fullChoice wl s) :=
    moves_wr (f := .WP_DOWNSHIFT) (moves_modWp (.refl _ s) (by unfold Within; decide +kernel)) (by unfold Within; decide +kernel)
  have hrate : ((fullChoice wl s).wp wl).rateCap = 3 := congrArg WpS.rateCap (wp_modWp_self s wl (fun w => { w with rateCap := 3, fails := 0 }))
  have hshift : (fullChoice wl s).rd .WP_DOWNSHIFT wl = 0 := rd_wr ..
  refine ⟨_, congrArg Host.Outcome.next (when_of _ s (by simp [hmay, hoff, hloop])), ?_, ?_, ?_⟩
  · rw [goDetect, linkPhysDown_state, restartPhy_state, phyCan_kept hfull]
  · exact (congrArg Trained.rateCap ((trainKept_linkPhysDown wl (restartPhy wl (fullChoice wl s))).trains wl)).trans
      ((restartPhy_rateCap ..).trans hrate)
  · rw [goDetect, (moves_linkPhysDown (.refl foot_linkPhysDown _) (within_self _)).reg .WP_DOWNSHIFT wl 0 (by decide +kernel),
      restartPhy_rd _ _ (by decide +kernel), hshift]

/-! ### LOOPBACK -/

section
variable {fn : Fn} {wl : Wl} {v : Fin 4} {s : State} (hmay : mgrWrites s fn = true)
include hmay

theorem loopback_entered (hv : v.val = 1 ∨ v.val = 2) (hst : s.rd .WP_STATE wl = 1) (hon : phyOn s wl = true) :
    Completes (.loopbackWrite fn wl v) s (fun t => t.rd .WP_STATE wl = 7 ∧ t.rd .WP_LOOPBACK wl = v) := by
  have hwrite : writeLoopback wl v s = enterLoopback wl (s.wr .WP_LOOPBACK v wl) := by
    unfold writeLoopback
    dsimp only
    rw [if_pos (by simpa using hv), if_pos hst]
  refine ⟨_, congrArg Host.Outcome.next ((when_of _ s (by simp [hmay, hon])).trans hwrite), enterLoopback_state .., ?_⟩
  rw [(moves_enterLoopback (n := wl) (.refl foot_enterLoopback _) (within_self _)).reg .WP_LOOPBACK wl 0 (by decide +kernel)]
  exact (rd_wr ..).trans (Nat.mod_eq_of_lt v.isLt)

theorem loopback_held (hv : v.val = 1 ∨ v.val = 2) (hst : s.rd .WP_STATE wl = 0) :
    exec (.loopbackWrite fn wl v) s = .next (s.wr .WP_LOOPBACK v wl) := by
  refine congrArg Host.Outcome.next ((when_of _ s (by simp [hmay, hst])).trans ?_)
  unfold writeLoopback
  dsimp only
  rw [if_pos (by simpa using hv), if_neg (by rw [hst]; decide), if_pos hst]

theorem loopback_refused (hv : v.val = 1 ∨ v.val = 2) (hoff : s.rd .WP_STATE wl ≠ 0) (hdetect : s.rd .WP_STATE wl ≠ 1) (hon : phyOn s wl = true) :
    exec (.loopbackWrite fn wl v) s = .next (s.wr .WP_LB_REFUSED 1 wl) := by
  refine congrArg Host.Outcome.next ((when_of _ s (by simp [hmay, hon])).trans ?_)
  unfold writeLoopback
  dsimp only
  rw [if_pos (by simpa using hv), if_neg hdetect, if_neg hoff]

theorem loopback_left (hone : v.val ≠ 1) (htwo : v.val ≠ 2) (hst : s.rd .WP_STATE wl = 7) (hon : phyOn s wl = true) (hcan : phyCan s wl = true) :
    Completes (.loopbackWrite fn wl v) s (fun t => t.rd .WP_STATE wl = 1 ∧ t.rd .WP_LOOPBACK wl = v) := by
  have hwrite : writeLoopback wl v s = restartPhy wl (s.wr .WP_LOOPBACK v wl) := by
    unfold writeLoopback
    dsimp only
    rw [if_neg (by simp [hone, htwo])]
    exact when_of _ _ (beq_iff_eq.2 hst)
  have hmoves : Moves (fms [.WP_LOOPBACK]) s (s.wr .WP_LOOPBACK v wl) := moves_wr (f := .WP_LOOPBACK) (.refl _ s) (by unfold Within; decide +kernel)
  refine ⟨_, congrArg Host.Outcome.next ((when_of _ s (by simp [hmay, hon])).trans hwrite), ?_, ?_⟩
  · rw [restartPhy_state, phyCan_kept hmoves, if_pos hcan]
  · rw [restartPhy_rd _ _ (by decide +kernel)]
    exact (rd_wr ..).trans (Nat.mod_eq_of_lt v.isLt)

end

/-- Settles O48: each event takes the lanes to the state that it names; a confirmed retrain replays with the link UP unless the
line of the replay is FATAL. -/
theorem laneControl : Obligations.LaneControl := by
  refine ⟨fun wl c s hc hst hup => ?_, fun wl s hst => ?_, fun wl rate set s hst hon hchoice =>
    ⟨retrain_resumes hst hon hchoice, retrain_switches hst hon hchoice⟩, fun fn wl s hmay => ⟨disable_set hmay, disable_cleared hmay,
    fun hst hloop => train_restarts hmay hst hloop⟩, fun fn wl v s hmay => ⟨loopback_entered hmay, loopback_held hmay, loopback_refused hmay,
    loopback_left hmay⟩⟩
  · obtain rfl | rfl := hc
    · exact ⟨_, rfl, retrain_stops hst hup⟩
    · exact ⟨_, rfl, retrain_stops hst hup⟩
  · exact congrArg Host.Outcome.next (if_pos (by simpa using hst))

end Sys2Proof.Proofs
end

section
/-!
A vector that is unmasked while the link is in L2, and the wake that it signals (R322, R323).
-/
namespace Sys2Proof.Proofs
open Sys2Proof Sys2Proof.Machine Sys2Proof.Laws
set_option Elab.async false

/-- Host link 0 is in L2 with its tiller ON. PF 0 may signal PME, and has the cause HOSTLINK enabled on vector 5; vector 0 holds
a pending message. -/
def asleepInL2 : State :=
  { State.reset with
    regs := [(⟨.FI_VEC_COUNT, 0, 0⟩, 8), (⟨.FI_FN_EVENT_EN, 0, 0⟩, 2 ^ 11), (⟨.FI_VEC_HOSTLINK, 0, 0⟩, 5), (⟨.PW_STATE, 0, 2⟩, 2)]
    hls := [(0, { HlS.reset with inL2 := true })]
    cfg := [(0, { FnCfg.reset with msixEn := true, pmeEn := true })]
    vecs := (State.reset.modVec 0 0 (fun x => { x with pba := true })).vecs }

/-- The PBA bit of PF 0's vector 5 in the next state. -/
def nextPba (r : Res) : Option Bool := match r with
  | .next t => some (t.vec 0 5).pba
  | _ => none

/-- Unmasking vector 0 wakes the host, and that event waits at vector 5. -/
theorem unmask_pends_wake : (asleepInL2.vec 0 5).pba = false ∧ nextPba (exec (.msixUnmask ⟨0, 0⟩ 0) asleepInL2) = some true := by
  decide +kernel

/-- Refutes O60: the clause on MSIX unmasking leaves out that a message that cannot leave in L2 signals a wake, an event of the PF
with a vector of its own. -/
theorem not_otherInstancesKept : ¬ Obligations.OtherInstancesKept := by
  rintro ⟨-, -, -, -, -, -, hunmask, -⟩
  obtain ⟨hclear, hset⟩ := unmask_pends_wake
  obtain ⟨t, ht⟩ : ∃ t, exec (.msixUnmask ⟨0, 0⟩ 0) asleepInL2 = .next t := ⟨_, rfl⟩
  have hkept := hunmask ⟨0, 0⟩ 0 asleepInL2 t ht 0 5 (.inr (by decide))
  rw [ht] at hset
  rw [← hkept, Option.some.inj hset] at hclear
  exact Bool.noConfusion hclear

end Sys2Proof.Proofs
end
